-- ==== Sys2Proof/Word.lean ====
section
/-! DEFINITION. The word types of the device (R7, R11) and the sparse table type every addressed store uses. -/
namespace Sys2Proof

/-- A byte of memory. -/
abbrev Byte := BitVec 8
/-- A 32-bit register (R11). -/
abbrev Word := BitVec 32
/-- A 64-bit register (R11). -/
abbrev DWord := BitVec 64
/-- A sparse table: key and value pairs, keys strictly rising, no entry equal to what an unlisted key reads as. -/
abbrev FMap (α : Type) := List (Nat × α)

end Sys2Proof
end

