-- ==== Sys2Proof/Syntax.lean ====
section
/-! DEFINITION. The commands of the block: one constructor per row of spec/opcode_table.json, and the operand types.
Every command carries first `dt`, the device time in ns since the command before it (R13, R15). -/
namespace Sys2Proof

/-- Who makes a register access (R11) and whose ORIGIN code the access error log carries (R439). -/
inductive Requester where
  | hostA | hostB | mc | network | commit
  | dma (c : Fin 64)
  deriving DecidableEq, Repr

/-- Where a command came from: a host queue, the network path with what its datagram carried
(R367), or MC firmware. -/
inductive CmdSrc where
  | queue (q : Fin 64)
  | net (key : Fin 8) (origin ip : Word) (port : Nat)
  | mc
  deriving DecidableEq, Repr

/-- The header of a command packet (R359) with the SQ head after its fetch (R360). -/
structure CmdHdr where
  src : CmdSrc
  opcode : Nat
  flags : Nat
  tag : Nat
  seq : Word
  sqHead : Nat
  deriving DecidableEq, Repr

/-- A command packet: header and parameter words P0 to P13 (R359). -/
structure CmdPkt where
  hdr : CmdHdr
  p : List Word
  deriving DecidableEq, Repr

/-- What a read of a host buffer brings: its bytes, or a PCIe error (R362). -/
inductive HostBuf where
  | bytes (b : List Byte)
  | error
  deriving DecidableEq, Repr

/-- The stamps a result record carries (R25): segment, line, position and time. -/
structure Stamp where
  seg : Nat
  line : Nat
  pos : Int
  time : Nat
  deriving DecidableEq, Repr

/-- A record handed to the egress engine (R373, R374); `payload` holds the bytes from offset 48. -/
structure EgrRec where
  type : Nat
  conn : Nat
  flags : Nat
  splice : Nat
  stamp : Stamp
  payload : List Byte
  deriving DecidableEq, Repr

/-- What a control message between devices says (R296, R406). -/
inductive CtlBody where
  | prepare (sysid b : Nat)
  | ready (sysid : Nat)
  | refuse (sysid code : Nat)
  | go (sysid : Nat)
  | abort (sysid : Nat)
  | done (sysid : Nat) (committed : Bool)
  | position (time : Nat) (unsync : Bool) (vals : List (Nat × Int))
  deriving DecidableEq, Repr

/-- A control message with its source and destination device and the hops it has made (R404). -/
structure CtlMsg where
  src : Nat
  dest : Nat
  hops : Nat
  body : CtlBody
  deriving DecidableEq, Repr

/-- A message on virtual channel 0 of a junction port (R384, R399, R401). -/
inductive JMsg where
  | hello (devnum sysid major lanes cr0 cr1 : Nat)
  | timeReq (t1 : Nat)
  | timeResp (t1 t2 t3 : Nat)
  | ctl (m : CtlMsg)
  deriving DecidableEq, Repr

/-- The payload of a data flit: 56 bytes of an export row on VC1, or a control message on VC0, whose bytes the spec does
not lay out (R398, R399). -/
inductive FlitPay where
  | bytes (b : List Byte)
  | msg (m : JMsg)
  deriving DecidableEq, Repr

/-- A flit as it arrives (R398); `ok` says whether the CRC holds where the payload's bytes are not laid out. -/
structure Flit where
  vc : Nat
  kind : Nat
  seq : Nat
  ack : Nat
  crVc : Nat
  crCum : Nat
  crc : Nat
  pay : FlitPay
  ok : Bool
  deriving DecidableEq, Repr

/-- One plan of a crew as a model package declares it (R206, R210, R282, R302): where its route lies, its route words, the
cycles C_NET, its run set of strided milestone ranges (first, count, step). -/
structure PkgPlan where
  base : Nat
  words : List Nat
  cnet : Nat
  runSet : List (Nat × Nat × Nat)
  deriving DecidableEq, Repr

/-- The crew of a stripe entry in a model package: its full plan, its n − 1 plan, its carried state (space, word, words), and what
its resident convoy delivers to a member beside the route images (member, space, word, contents). -/
structure PkgCrew where
  unit : Nat
  entry : Nat
  full : PkgPlan
  nm1 : Option PkgPlan
  carried : List (Bool × Nat × Nat)
  resident : List (Nat × Bool × Nat × List Nat)
  deriving DecidableEq, Repr

/-- A splice entry in a model package: H_REQ (R202) and the score channel, class channel and threshold of R375. -/
structure PkgSplice where
  unit : Nat
  k : Nat
  hreq : Nat
  defect : Option (Nat × Nat × Int)
  deriving DecidableEq, Repr

/-- What the decrypted payload of a model package declares: crews, splice entries, and weight regions with a golden copy (R226:
device address of the region, of its copy, units of 64 B). -/
structure Pkg where
  crews : List PkgCrew
  splices : List PkgSplice
  golden : List (Nat × Nat × Nat)
  deriving DecidableEq, Repr

/-- A cable measurement (R54 to R56): the kind of the first reflection, the loss in 0.25 dB, the round trip in ps. -/
structure TdrMeas where
  kind : Nat
  loss : Nat
  tPs : Nat
  deriving DecidableEq, Repr

/-- A camera's answer to a control transaction (R45, R365): the value of a bootstrap register on a link that no connection holds,
with the links that the device groups now; a value for a connection in discovery; the acknowledge code and data of a
pass-through transaction. -/
inductive CtlReply where
  | link (l : Fin 64) (v : Nat) (group : List (Fin 64))
  | conn (c : Fin 16) (v : Nat)
  | pass (c : Fin 16) (ack : Nat) (data : List Byte)
  deriving DecidableEq, Repr

/-- Whose control transaction is waited for (R45, R365). -/
inductive CtlWait where
  | link (l : Fin 64)
  | conn (c : Fin 16)
  | pass (c : Fin 16)
  deriving DecidableEq, Repr

/-- A wait past its expected time (R247, R249): a tile on an inbound stream range or a full outbound ring of slot `z` of engine
`k`; a stalled participant; a catalogue or seam client slot, the latter with the unit and stripe entry it serves; a
reservoir slot whose read, or whose write of a line, came late. -/
inductive MissCase where
  | inbound (t : Fin 1088) (k : Fin 4) (z : Fin 256)
  | outbound (t : Fin 1088) (k : Fin 4) (z : Fin 256)
  | stall (t : Fin 1088)
  | catalogue (k : Fin 4) (z : Fin 256)
  | seam (k : Fin 4) (z : Fin 256) (u : Fin 16) (e : Fin 64)
  | resRead (k : Fin 4) (z : Fin 256) (c : Fin 16) (line : Nat)
  | resWrite (k : Fin 4) (z : Fin 256) (c : Fin 16) (line : Nat)
  deriving DecidableEq, Repr

/-- A PTP master as its announce messages show it (R382): the properties that the best master clock algorithm compares. -/
structure PtpMaster where
  prio1 : Nat
  cls : Nat
  accuracy : Nat
  variance : Nat
  prio2 : Nat
  ident : Nat
  steps : Nat
  deriving DecidableEq, Repr

/-- A PTP message of the source port (R382), with the identity of its sender; times in ns, `corr` the correction field. -/
inductive PtpMsg where
  | announce (domain : Nat) (m : PtpMaster)
  | sync (domain ident seq t1 : Nat) (corr : Int) (twoStep : Bool)
  | followUp (domain ident seq t1 : Nat) (corr : Int)
  | delayResp (domain ident seq t4 : Nat) (corr : Int)
  deriving DecidableEq, Repr

/-- A GVSP packet (R389, R390): standard ID mode; the leader of a block with its pixel format and whether it is line-scan; any
other packet of a block. -/
inductive GvPkt where
  | standard
  | leader (pfnc : Nat) (lineScan : Bool)
  | data
  deriving DecidableEq, Repr

/-- What an Ethernet frame carries (R380, R392). -/
inductive NetPay where
  /-- ARP: operation, sender's protocol and hardware address, target protocol address. -/
  | arp (op ip mac target : Nat)
  /-- An ICMP echo request. -/
  | echo (src dst : Nat) (body : List Byte)
  | udp (src dst sport dport : Nat) (body : List Byte)
  | gvsp (src dst dport : Nat) (m : GvPkt)
  /-- PTP over UDP or over Ethernet. -/
  | ptp (udp : Bool) (m : PtpMsg)
  /-- PAUSE or PFC. -/
  | pause
  /-- An IP fragment. -/
  | fragment
  | other
  deriving DecidableEq, Repr

/-- A frame as a port receives it: source MAC, bytes on the wire with header and FCS, VLAN identifier of a tag, whether the
frame check (and, on the plant bus, every symbol) holds, and what it carries. -/
structure NetFrame where
  mac : Nat
  len : Nat
  vid : Option Nat
  ok : Bool
  pay : NetPay
  deriving DecidableEq, Repr

/-- Where an error is found (R410, R413): scratchpad word, spare row word, line buffer word, accumulator, activation entry, word
of the weights in use or next, word of a packet in the arrival buffer, position of the fetch buffer, other tile storage, depot address,
table word of a unit, temporal buffer position of a line, reservoir line, seam buffer row, HBM byte offset of a stack, an
on-die correction, milestone, stream slot, plan bank entry, transaction state, one copy of a waymark record with what it
has become. -/
inductive EccPlace where
  | scratch (t : Fin 1088) (w : Fin 16384)
  | spare (t : Fin 1088) (bank k : Fin 16)
  | lineBuf (t : Fin 1088) (w : Fin 8192)
  | acc (t : Fin 1088) (i : Nat)
  | act (t : Fin 1088) (i : Nat)
  | weight (t : Fin 1088) (next : Bool) (i : Nat)
  | arrival (t : Fin 1088) (p i : Nat)
  | fetch (t : Fin 1088) (k : Fin 4)
  | tileOther (t : Fin 1088)
  | depot (a : Fin 0x2000000)
  | table (u : Fin 16) (w : Fin 0x44000)
  | temporal (u : Fin 16) (id x : Nat)
  | reservoir (c : Fin 16) (id : Nat)
  | seam (u : Fin 16) (e : Fin 64)
  | hbm (k : Fin 4) (a : Nat)
  | onDie (k : Fin 4) (a : Nat)
  | milestone (m : Fin 16384)
  | slot (k : Fin 4) (z : Fin 256)
  | plan (bank : Fin 2) (u : Fin 16) (e : Fin 64)
  | txState (t : Fin 64)
  | waymark (i : Fin 2048) (copy : Fin 3) (v : BitVec 512)
  deriving DecidableEq, Repr

/-- What the region map of the MC says a granule holds (R416): weights or a route image in a tile, or weights in HBM, with the
golden copy's device address; catalogue rows of a table; a free row or page; anything else. -/
inductive Region where
  | golden (addr : Nat)
  | catRows (table : Fin 64) (first count : Nat)
  | free
  | other
  deriving DecidableEq, Repr

/-- A non-posted PCIe request that gets no completion (R354): a DMA channel's, a fetch of a queue, or a read of the host buffer of
a command, with its packet. -/
inductive PcieWait where
  | dma (c : Fin 64)
  | fetch (q : Fin 64)
  | buffer (h : CmdHdr) (p : List Word)
  deriving DecidableEq, Repr

/-- The commands, in the order of the table. -/
inductive Instr where
    /-- R11: A low-word read of a 64-bit register returns the live low word and loads the requester's read latch with
      the live high word. -/
  | regRead64Low (dt : Nat) (r : Requester) (addr bytes : Nat)
    /-- R11: A high-word write of a 64-bit register loads the requester's write stage and changes nothing else. -/
  | regWrite64High (dt : Nat) (r : Requester) (addr : Nat) (data : Word)
    /-- R8: A read of an RC field returns its current value and then clears it, keeping an event that arrives in the
      same cycle. -/
  | regReadClear (dt : Nat) (r : Requester) (addr bytes : Nat)
    /-- R8: A write to a register that has no row of its own is applied field by field by access code, with out-of-
      range, locked and refused writes ignored and recorded. -/
  | registerWrite (dt : Nat) (r : Requester) (addr bytes : Nat) (data : DWord)
    /-- R36: A write of DEV_APERTURE moves the BAR4 aperture for every BAR4 request received after it in PCIe order.
      -/
  | devApertureWrite (dt : Nat) (r : Requester) (data : Word)
    /-- R34: A host BAR4 request reaches device HBM at BASE_GIB × 2³⁰ + offset as best-effort traffic, or is treated
      as unmapped. -/
  | bar4Access (dt : Nat) (link : Fin 2) (off len : Nat) (wr : Option (List Byte))
    /-- R330: A host BAR2 request is split into depot accesses in address order, applied through the normal, bit-set
      or bit-clear window subject to bank ownership. -/
  | bar2Access (dt : Nat) (link : Fin 2) (off len : Nat) (wr : Option (List Byte))
    /-- R39: Every 1,000 ms firmware recomputes the DEV_MEAS registers under the odd/even SEQ protocol, clearing valid
      bits for intervals without qualifying data. -/
  | measUpdate (dt : Nat) (fj cells achieved compulsory : Nat) (hbm : List (Nat × Nat))
    /-- R27: A column regulator reports power good and the column starts its ring oscillators, releases tile resets,
      initialises tile storage and locks its clock generator. -/
  | columnPowerGood (dt : Nat) (c : Fin 34)
    /-- R27: A tile DLL reports lock and the island switches glitch-free to the DLL clock, clearing its lock-fail
      flag. -/
  | dllLock (dt : Nat) (t : Fin 1088)
    /-- R27: A tile whose DLL has not locked within 200 µs of power good stays on its ring oscillator and is handled
      as a slow tile. -/
  | dllLockTimeout (dt : Nat) (t : Fin 1088)
    /-- R26: A tile DLL loses lock in operation and the island falls back to its ring oscillator without a glitch and
      sets LOCK_LOST. -/
  | dllLockLoss (dt : Nat) (t : Fin 1088)
    /-- R45: A CoaXPress link detects signal while no connection holds it, or a FAILED, MISWIRED or REFUSED connection
      regains signal, and discovery begins. -/
  | linkSignalDetect (dt : Nat) (l : Fin 64)
    /-- R45: A camera answers a discovery or pass-through control transaction and discovery advances to its next step.
      -/
  | cxpControlReply (dt : Nat) (x : CtlReply)
    /-- R45: A control transaction unanswered for 200 ms counts as a failed attempt, and a third failure makes the
      connection FAILED. -/
  | cxpControlTimeout (dt : Nat) (x : CtlWait)
    /-- R45: All links of a connection lock at the configured speed and the first cable measurement is taken before
      the connection becomes READY. -/
  | linkLock (dt : Nat) (c : Fin 16) (tdr : List TdrMeas)
    /-- R45: A link that has not locked within 100 ms is retried one speed lower, down to CXP-1. -/
  | linkLockTimeout (dt : Nat) (c : Fin 16)
    /-- R49: A link of a READY or RUNNING connection loses lock, the connection becomes DISCOVERING, its open segment
      closes short and discovery reruns. -/
  | linkLockLoss (dt : Nat) (l : Fin 64)
    /-- R49: An unsteered connection none of whose links has detected signal for 1 s becomes ABSENT and gives up its
      links and number. -/
  | connAbsentTimeout (dt : Nat) (c : Fin 16)
    /-- R44: Every 1 ms the device sends a heartbeat carrying device time on each master link. -/
  | heartbeat (dt : Nat)
    /-- R44: A camera event packet is accepted, acknowledged and written to the MC log. -/
  | cxpEventPacket (dt : Nat) (c : Fin 16) (event : Word) (data : List Byte)
    /-- R44: A camera-to-host trigger packet is discarded and counted. -/
  | cxpCameraTriggerPacket (dt : Nat) (c : Fin 16)
    /-- R52: A complete line from a camera is matched to the oldest unmatched trigger, or discarded as spurious, and
      stored in the connection's reservoir. -/
  | lineReceived (dt : Nat) (c : Fin 16) (stream width : Nat) (rows : List (List Nat))
    /-- R52: A trigger unmatched for LINE_TO becomes a missing line delivered as a copy of the previous line with a
      gap finding. -/
  | lineTimeout (dt : Nat) (c : Fin 16)
    /-- R54: Every PERIOD_S seconds a link starts a time-domain reflectometry measurement with probe steps in uplink
      idle gaps. -/
  | tdrMeasure (dt : Nat) (l : Fin 64)
    /-- R56: A TDR measurement completes and replaces all fields of ING_LINK_TDR together. -/
  | tdrComplete (dt : Nat) (l : Fin 64) (m : TdrMeas)
    /-- R58: An accepted quadrature edge changes ODO_POS and ODO_EDGE_DT and drives the trigger generators counting on
      that odometer. -/
  | encoderEdge (dt : Nat) (u : Fin 4) (onB : Bool)
    /-- R59: A transition within 20 ns of the last edge, or of both inputs at once, is discarded, counted, and may
      raise FAULT and position-suspect. -/
  | encoderGlitch (dt : Nat) (u : Fin 4) (onA onB : Bool)
    /-- R59: After the glitch count has stayed at or below GLITCH_LIM for 1 ms the odometer stops being position-
      suspect. -/
  | posSuspectEnd (dt : Nat) (u : Fin 4)
    /-- R62: No edge accepted for STOP_MS sets ODO_STAT.STOPPED. -/
  | encoderStopTimeout (dt : Nat) (u : Fin 4)
    /-- R61: A write of ODO_CFG applies its fields, and EN going 0 to 1 clears position, high-water, edge interval and
      status. -/
  | odoCfgWrite (dt : Nat) (r : Requester) (u : Fin 4) (v : Word)
    /-- R65: A write of ODO_TG_CFG enables or disables a trigger generator, setting its next line index on enable,
      with geometry fixed while running. -/
  | odoTgCfgWrite (dt : Nat) (r : Requester) (g : Fin 16) (v : Word)
    /-- R63: An interpolated fire time is reached and the generator emits its next line and plans the following one.
      -/
  | triggerPlannedTime (dt : Nat) (g : Fin 16)
    /-- R68: HOLD_100MS × 100 ms after a segment's last line the segment closes short. -/
  | segmentHoldTimeout (dt : Nat) (c : Fin 16)
    /-- R70: A write of ODO_SEG_CFG stores HOLD_100MS at once and REFGEN or LINES_M1 only while the reference
      generator is disabled. -/
  | odoSegCfgWrite (dt : Nat) (r : Requester) (v : Word)
    /-- R74: A write of ING_RES_CFG applies LINE_TO at once to waiting triggers and stages CAP_LINES for the next
      steering commit. -/
  | ingResCfgWrite (dt : Nat) (r : Requester) (c : Fin 16) (v : Word)
    /-- R75: A line leaves the reservoir into the reference chain and runs through unpack, noise reduction, level
      correction, reconstruction and tone curves. -/
  | chainLineStart (dt : Nat) (u : Fin 16)
    /-- R80: Firmware receives a new statistics set, refits NM_BLACK, NM_READ and NM_GAIN when confident, and checks
      the hold limit for EST_HELD. -/
  | noiseFit (dt : Nat) (u : Fin 16)
    /-- R96: A live slot is freed and the reference lane that waited for it resumes with the latch. -/
  | refSlotWaitEnd (dt : Nat) (u : Fin 16)
    /-- R94: A direct write to a REF parameter-set offset changes the unit's staging image for the next latch. -/
  | refStagingWrite (dt : Nat) (r : Requester) (u : Fin 16) (off : Fin 0x220) (data : Word)
    /-- R98: An access to REF_TAB_DATA reads or writes the table word at BANK, WORD, ignoring writes to a busy bank,
      and increments WORD. -/
  | refTabDataAccess (dt : Nat) (r : Requester) (u : Fin 16) (wr : Option Word)
    /-- R91: A crew result row returns over the bridge, is trimmed at the seams and feeds the splice lane or egress
      once every stripe of the set has delivered it. -/
  | tapReturnRow (dt : Nat) (u : Fin 16) (e : Fin 64) (seg n ch : Nat) (row : List Int) (poison : Bool)
    /-- R132: A tap stripe row arrives on the column feeder and each matching member writes it into its feeder ring.
      -/
  | feederRow (dt : Nat) (u : Fin 16) (e : Fin 64)
    /-- R131: A row driven on a row-bus channel arrives and every crew member writes it into the named ring,
      forwarding it if TILE_RB_FWD is enabled. -/
  | rowBusRow (dt : Nat) (t : Fin 1088) (e : Fin 16) (bad : Bool)
    /-- R135: A mesh write, convoy or row-forward packet arrives, drains into its space, issues its milestone arrival,
      is forwarded on a convoy, or is discarded as bad. -/
  | meshPacketArrive (dt : Nat) (t src : Fin 1088) (bad : Bool) (ww : List (Fin 256))
    /-- R124: An asynchronous operation's last access to its range completes and its scoreboard entry retires,
      releasing waiting route words. -/
  | scoreboardRetire (dt : Nat) (t : Fin 1088) (e : Fin 16)
    /-- R306: The NOP route word does nothing for one cycle. -/
  | routeNop (dt : Nat) (t : Fin 1088)
    /-- R311: The HALT route word waits for entries and sends to drain, closes open slots, clears the convoy
      descriptor and puts the tile in IDLE. -/
  | halt (dt : Nat) (t : Fin 1088)
    /-- R307: SETG writes a 32-bit immediate into a sequencer register. -/
  | setg (dt : Nat) (t : Fin 1088)
    /-- R307: ALU computes a register operation with wraparound, raising ALU_MOD0 on mod by zero. -/
  | alu (dt : Nat) (t : Fin 1088)
    /-- R308: LOOP runs the following body a counted number of times, writing the pass number into its pass register.
      -/
  | loop (dt : Nat) (t : Fin 1088)
    /-- R309: BR transfers the PC to TARGET when its comparison holds. -/
  | br (dt : Nat) (t : Fin 1088)
    /-- R312: CFG writes one part of an operator configuration set. -/
  | cfg (dt : Nat) (t : Fin 1088)
    /-- R313: RING configures a line-buffer ring and clears its row fill count. -/
  | ring (dt : Nat) (t : Fin 1088)
    /-- R317: SEED reloads the tile's random generator with a 64-bit seed. -/
  | seed (dt : Nat) (t : Fin 1088)
    /-- R315: CONV computes one output row of a direct convolution by weight-tile sweeps and optionally drains it. -/
  | conv (dt : Nat) (t : Fin 1088)
    /-- R184: MAT computes one matrix product as unit-kernel sweeps and optionally drains it. -/
  | mat (dt : Nat) (t : Fin 1088)
    /-- R187: SLIP computes one pass of a slip convolution on packed samples into the accumulator file. -/
  | slip (dt : Nat) (t : Fin 1088)
    /-- R189: POOL computes one output row of max or average pooling and drains it. -/
  | pool (dt : Nat) (t : Fin 1088)
    /-- R317: EW processes N vectors with add, multiply, lookup or move and writes the results. -/
  | ew (dt : Nat) (t : Fin 1088)
    /-- R317: RQ requantises N positions to the set's output format, consuming draws and updating statistics. -/
  | rq (dt : Nat) (t : Fin 1088)
    /-- R317: CLRACC clears every accumulator entry and its poison bit. -/
  | clracc (dt : Nat) (t : Fin 1088)
    /-- R310: LDG loads one 32-bit lane of a scratchpad word into a register. -/
  | ldg (dt : Nat) (t : Fin 1088)
    /-- R310: STG stores a register into one lane of a scratchpad word. -/
  | stg (dt : Nat) (t : Fin 1088)
    /-- R318: FILL starts an asynchronous write of a 16-B pattern to N words. -/
  | fill (dt : Nat) (t : Fin 1088)
    /-- R318: COPY starts an asynchronous copy or block transpose of N words. -/
  | copy (dt : Nat) (t : Fin 1088)
    /-- R318: TBL starts an asynchronous load of the activation table from 32 words. -/
  | tbl (dt : Nat) (t : Fin 1088)
    /-- R318: SEND sends N words as one mesh write or convoy packet to a tile. -/
  | send (dt : Nat) (t : Fin 1088)
    /-- R318: RBSEND drives one row onto a row-bus channel into the named rings of every crew member. -/
  | rbsend (dt : Nat) (t : Fin 1088)
    /-- R318: CATREQ submits a 64-B catalogue descriptor to the task queue. -/
  | catreq (dt : Nat) (t : Fin 1088)
    /-- R319: SOPEN opens a stream slot with its chunk size, first fetch limit and completion milestone. -/
  | sopen (dt : Nat) (t : Fin 1088)
    /-- R320: SGET takes the next inbound chunk of a slot under an inbound scoreboard entry. -/
  | sget (dt : Nat) (t : Fin 1088)
    /-- R320: SREL returns the oldest N taken chunks as credit to the engine. -/
  | srel (dt : Nat) (t : Fin 1088)
    /-- R320: SPUT announces the next outbound chunk, or end of stream, to the engine. -/
  | sput (dt : Nat) (t : Fin 1088)
    /-- R320: SCLOSE waits for the slot's entries to retire and closes the slot. -/
  | sclose (dt : Nat) (t : Fin 1088)
    /-- R321: GIVEWAY waits on a milestone target and then raises the slot's fetch limit. -/
  | giveway (dt : Nat) (t : Fin 1088)
    /-- R322: CONVOY sets the tile's convoy descriptor naming the next tile of the chain. -/
  | convoy (dt : Nat) (t : Fin 1088)
    /-- R323: The ARRIVE route word issues ARRIVE N to a milestone, optionally after fencing the scoreboard. -/
  | arrive (dt : Nat) (t : Fin 1088)
    /-- R323: The WAIT route word waits until a milestone is reached for a target. -/
  | wait (dt : Nat) (t : Fin 1088)
    /-- R142: A write of TILE_CTRL.SOFT_RESET clears the tile's sequencer, scoreboard, buffers, accumulators and
      exception state, unless the tile is in RUN or WAIT. -/
  | softReset (dt : Nat) (r : Requester) (t : Fin 1088)
    /-- R142: A soft reset finishes after 2 µs on the slowest island clock and the tile enters IDLE. -/
  | softResetComplete (dt : Nat) (t : Fin 1088)
    /-- R130: A write of TILE_CTRL.RNG_LOAD in IDLE or HALTED loads TILE_RNG_SEED into the generator. -/
  | rngLoad (dt : Nat) (r : Requester) (t : Fin 1088)
    /-- R144: A write of TILE_CTRL.EXC_CLR clears TILE_EXC and TILE_EXC_PC without changing state. -/
  | excClr (dt : Nat) (r : Requester) (t : Fin 1088)
    /-- R141: A write of TILE_CTRL.HALT_REQ halts the route at the next word boundary with CAUSE 0x05 and aborts the
      task. -/
  | haltReq (dt : Nat) (r : Requester) (t : Fin 1088)
    /-- R138: At the end of each 100 µs window the tile writes TILE_RATE, and firmware judges slow members. -/
  | tileRateWindow (dt : Nat) (w : List (Fin 1088 × Nat × Nat))
    /-- R139: Every 1 ms the tile's diode and voltage monitor are converted into TILE_SENSE. -/
  | tileSenseConvert (dt : Nat) (t : Fin 1088) (temp volt : Int)
    /-- R144: An access to TILE_DBG_DATA reads or writes the addressed word in IDLE, HALTED or TEST and advances BYTE
      by 4. -/
  | tileDbgDataAccess (dt : Nat) (r : Requester) (t : Fin 1088) (wr : Option Word)
    /-- R121: A TILE_MAP write remaps a logical scratchpad row to a spare row without copying data, invalidating a
      duplicate entry. -/
  | tileMapWrite (dt : Nat) (r : Requester) (t : Fin 1088) (i : Fin 256) (data : Word)
    /-- R302: The dispatcher sends each participant its dispatch record, applying between-task crew changes and any
      run reset first. -/
  | taskDispatch (dt : Nat) (u : Fin 16) (e : Fin 64) (lines : Fin 65537)
    /-- R282: The dispatcher resets every milestone of the crew's run set to COUNT 0, FIRED 0 and TARGET STRIDE. -/
  | runReset (dt : Nat) (u : Fin 16) (e : Fin 64)
    /-- R220: The forwarding member's copy of carried state to the layby tile completes and the held task is
      dispatched. -/
  | detourCopyComplete (dt : Nat) (u : Fin 16) (e : Fin 64) (lines : Fin 65537)
    /-- R213: The slowest send cursor advances and the reference lane that waited on the 64-line seam slack resumes.
      -/
  | seamSendWaitEnd (dt : Nat) (u : Fin 16)
    /-- R215: An export row arrives on a junction and supplies the remote edge columns of the matching stripe row. -/
  | exportRowReceived (dt : Nat) (port : Fin 4) (splice : Fin 4) (seg idx : Nat) (row : List (Fin 65536))
    /-- R233: A stream engine chooses and issues the next request by deadline and best-effort credit. -/
  | streamRequestIssue (dt : Nat) (k : Fin 4)
    /-- R231: A read request's last byte is delivered to its client buffer and its outstanding entry is freed. -/
  | streamReadComplete (dt : Nat) (k : Fin 4) (z : Fin 256)
    /-- R236: The engine pulls an announced write, and on the last write of a range arrives at the slot's completion
      milestone. -/
  | streamWritePulled (dt : Nat) (k : Fin 4) (z : Fin 256)
    /-- R247: A wait on a stream, outbound ring, client buffer or stalled participant exceeds TOL_NS or STALL_MS and a
      miss is logged. -/
  | deadlineMiss (dt : Nat) (x : MissCase) (near : Bool)
    /-- R261: The catalogue engine starts a queued request, refusing it if invalid, and processes its lists in chunks.
      -/
  | catRequestStart (dt : Nat)
    /-- R269: A catalogue result header is pulled and the engine arrives at MS and completes the host command if any.
      -/
  | catRequestComplete (dt : Nat) (i : Fin 8)
    /-- R275: A low-word write of CAT_VOID sets or clears the void bit of a table row. -/
  | catVoidWrite (dt : Nat) (r : Requester) (v : DWord)
    /-- R280: An arrival reaches the milestone unit, COUNT is updated, firing is evaluated, and waiters and commit
      points are released. -/
  | msArrivalApply (dt : Nat) (path : Fin 1100)
    /-- R299: A write of MS_COUNT, MS_TARGET or MS_CFG is a SET of its fields that clears FIRED, refused for a non-
      owner. -/
  | msRegisterSet (dt : Nat) (r : Requester) (k : Fin 3) (m : Fin 16384) (v : Word)
    /-- R299: A write of MS_ARRIVE performs ARRIVE N on the milestone. -/
  | msArriveWrite (dt : Nat) (r : Requester) (m : Fin 16384) (v : Word)
    /-- R289: A transaction's prepare checks pass and every action is placed, so it becomes PREPARED and posts
      PENDING, or goes FREE with a code. -/
  | txPrepared (dt : Nat) (t : Fin 64)
    /-- R291: The commit signal reaches targets and each applies its committed entries at its effect point. -/
  | commitSignalArrive (dt : Nat) (t : Fin 64)
    /-- R296: A participant receives PREPARE, prepares its OPEN part and replies READY or REFUSE. -/
  | sysPrepareMsg (dt : Nat) (src : Fin 256) (sysid : Fin 65536) (b : DWord)
    /-- R296: The coordinator receives a READY or REFUSE vote from a participant. -/
  | sysVoteReply (dt : Nat) (src : Fin 256) (sysid : Fin 65536) (refused : Option (Fin 65536))
    /-- R296: At b − G lines the vote closes and the coordinator sends GO or ABORT. -/
  | sysVoteClose (dt : Nat) (sysid : Fin 65536)
    /-- R296: A participant receives GO, allowing its PREPARED part to commit at b. -/
  | sysGoMsg (dt : Nat) (src : Fin 256) (sysid : Fin 65536)
    /-- R296: A participant receives ABORT, frees its part and replies DONE. -/
  | sysAbortMsg (dt : Nat) (src : Fin 256) (sysid : Fin 65536)
    /-- R296: The coordinator receives DONE, and on the last one completes the system command with DONE or TX_SPLIT.
      -/
  | sysDoneMsg (dt : Nat) (src : Fin 256) (sysid : Fin 65536) (committed : Bool)
    /-- R297: Every 100 µs the tally sends markers on every counted path and checks the seven invariants, containing
      any violation. -/
  | tallySnapshot (dt : Nat) (viol : List (Fin 7 × Fin 65536))
    /-- R333: A direct write of DEP_BANK_OWNER hands the named banks to a new owner, or is ignored if the writer may
      not. -/
  | depBankOwnerWrite (dt : Nat) (r : Requester) (v : Word)
    /-- R345: A start of a DMA channel runs its descriptor chain, or is counted in START_PEND or START_OVR. -/
  | dmaStart (dt : Nat) (r : Requester) (c : Fin 64)
    /-- R346: DMA_CMD.STOP ends the channel's chain at the next descriptor boundary. -/
  | dmaStop (dt : Nat) (r : Requester) (c : Fin 64)
    /-- R346: DMA_CMD.KILL from the MC abandons the current descriptor at the next beat and puts the channel in ERROR.
      -/
  | dmaKill (dt : Nat) (r : Requester) (c : Fin 64)
    /-- R346: DMA_CMD.CLR_ERR returns a channel in ERROR to IDLE. -/
  | dmaClrErr (dt : Nat) (r : Requester) (c : Fin 64)
    /-- R347: A DMA lane arbitrates and issues one read or write beat of a channel, checking descriptors and
      ownership. -/
  | dmaBeat (dt : Nat) (l : Fin 4) (wrFirst : Bool) (host : HostBuf)
    /-- R349: A descriptor completes, after its barrier if set, emits its completion pulse and fetches NEXT or ends
      the chain. -/
  | dmaDescriptorComplete (dt : Nat) (c : Fin 64)
    /-- R349: The next descriptor arrives from the depot and the channel checks and starts it. -/
  | dmaNextFetched (dt : Nat) (c : Fin 64)
    /-- R350: The event routing matrix delivers a source pulse to each route's destination as arrival, start or
      marker. -/
  | eventPulseRoute (dt : Nat)
    /-- R351: An enabled timer pulses at each multiple of PERIOD_NS of device time. -/
  | dmaTimerPulse (dt : Nat) (t : Fin 16)
    /-- R357: A write of CMD_SQ_TAIL advances the submission tail and lets the CSM fetch, or sets DB_ERR. -/
  | sqTailDoorbell (dt : Nat) (r : Requester) (q : Fin 64) (v : Word)
    /-- R357: A write of CMD_CQ_HEAD frees completion entries and releases held completions, or sets DB_ERR. -/
  | cqHeadDoorbell (dt : Nat) (r : Requester) (q : Fin 64) (v : Word)
    /-- R358: A write of CMD_Q_CFG enables a queue and resets its pointers, or disables fetching at once. -/
  | qCfgWrite (dt : Nat) (r : Requester) (q : Fin 64) (v : Word)
    /-- R357: Fetched SQ entries arrive and the CSM decodes them in order, executing C commands and passing M commands
      to the MC FIFO. -/
  | sqFetchComplete (dt : Nat) (q : Fin 64) (x : HostBuf)
    /-- R368: A command datagram arrives on UDP 23,056 and is authenticated, replay-checked and queued in the network
      FIFO, or discarded. -/
  | commandDatagram (dt : Nat) (p : Fin 6) (mac : Nat) (src : Word) (sport : Nat) (b : List Byte)
    /-- R372: The egress engine appends a record to every selecting ring, with PAD and DROP as needed, and to
      selecting result streams. -/
  | egressRecord (dt : Nat) (x : EgrRec)
    /-- R371: Within 10 µs of an unreported record the device writes the tail shadow, sends the ring's MSI-X vector
      and updates CMD_EGR_TAIL. -/
  | egressTailReport (dt : Nat) (r : Fin 16)
    /-- R378: A write of CMD_EGR_HEAD frees ring space, or is ignored if it moves backward or past the written count.
      -/
  | egrHeadWrite (dt : Nat) (r : Requester) (k : Fin 16) (v : DWord)
    /-- R365: The NOP command completes with DONE. -/
  | nop (dt : Nat) (h : CmdHdr) (p : List Word)
    /-- R365: DEV_INFO returns firmware release, DEV_ID, running slot and pair, and uptime. -/
  | devInfo (dt : Nat) (h : CmdHdr) (p : List Word)
    /-- R365: DEV_TIME returns device time and its unsynchronised flag. -/
  | devTime (dt : Nat) (h : CmdHdr) (p : List Word)
    /-- R497: MODEL_LOAD verifies, version-checks and decrypts a model package into a plan bank. -/
  | modelLoad (dt : Nat) (h : CmdHdr) (p : List Word) (x : HostBuf) (pkg : Pkg)
    /-- R365: MODEL_INFO returns the state, toolchain release and identifier of a plan bank. -/
  | modelInfo (dt : Nat) (h : CmdHdr) (p : List Word)
    /-- R365: MODEL_UNLOAD empties a plan bank that is not live. -/
  | modelUnload (dt : Nat) (h : CmdHdr) (p : List Word)
    /-- R365: CONN_INFO returns a connection's configuration, capabilities, pixel format and last refusal code. -/
  | connInfo (dt : Nat) (h : CmdHdr) (p : List Word)
    /-- R365: CXP_CTRL passes a control-channel read or write through to a camera. -/
  | cxpCtrl (dt : Nat) (h : CmdHdr) (p : List Word)
    /-- R365: RING_SETUP enables, reconfigures or disables an egress ring at the next record boundary. -/
  | ringSetup (dt : Nat) (h : CmdHdr) (p : List Word)
    /-- R287: TX_OPEN opens a transaction, reserving its declared records and taking a named or free TXID. -/
  | txOpen (dt : Nat) (h : CmdHdr) (p : List Word)
    /-- R287: TX_ADD adds one waymark record to an OPEN transaction. -/
  | txAdd (dt : Nat) (h : CmdHdr) (p : List Word)
    /-- R290: TX_PREPARE fixes a transaction's commit point and starts its prepare checks. -/
  | txPrepare (dt : Nat) (h : CmdHdr) (p : List Word)
    /-- R289: TX_ABORT frees an OPEN or PREPARED transaction and removes its pending entries. -/
  | txAbort (dt : Nat) (h : CmdHdr) (p : List Word)
    /-- R365: TX_STATUS returns a transaction's state, size and commit point. -/
  | txStatus (dt : Nat) (h : CmdHdr) (p : List Word)
    /-- R296: TX_SYS_PREPARE starts the multi-device commit protocol as coordinator. -/
  | txSysPrepare (dt : Nat) (h : CmdHdr) (p : List Word)
    /-- R365: The MS_ARRIVE command performs ARRIVE N on a milestone. -/
  | msArrive (dt : Nat) (h : CmdHdr) (p : List Word)
    /-- R365: The MS_SET command sets the selected milestone fields and clears FIRED, subject to ownership. -/
  | msSet (dt : Nat) (h : CmdHdr) (p : List Word)
    /-- R365: The MS_ADVANCE command advances TARGET by STRIDE, subject to ownership. -/
  | msAdvance (dt : Nat) (h : CmdHdr) (p : List Word)
    /-- R365: The MS_READ command returns COUNT, TARGET and MS_CFG. -/
  | msRead (dt : Nat) (h : CmdHdr) (p : List Word)
    /-- R365: The MS_WAIT command completes when a milestone is reached for a target. -/
  | msWait (dt : Nat) (h : CmdHdr) (p : List Word)
    /-- R365: An MS_WAIT whose timeout elapses completes with STATE_WAIT_TIMEOUT. -/
  | msWaitTimeout (dt : Nat) (h : CmdHdr)
    /-- R443: PWR_DEVICE checks quiescence and starts entry into D1 or D3. -/
  | pwrDevice (dt : Nat) (h : CmdHdr) (p : List Word)
    /-- R490: PWR_POLICY checks and applies a customer policy table and writes it to flash. -/
  | pwrPolicy (dt : Nat) (h : CmdHdr) (p : List Word) (x : HostBuf)
    /-- R365: PWR_READ returns package power, VIN_CORE current, hottest tile and throttle flags. -/
  | pwrRead (dt : Nat) (h : CmdHdr) (p : List Word) (mw ma : Word)
    /-- R472: CAL_RUN makes every instance of the named items due and replies when all are served. -/
  | calRun (dt : Nat) (h : CmdHdr) (p : List Word) (iref : Bool)
    /-- R365: CAL_READ returns the last item-run results of an item. -/
  | calRead (dt : Nat) (h : CmdHdr) (p : List Word)
    /-- R429: SVC_TEST_COLUMN substitutes a column, runs its BIST and returns the work. -/
  | svcTestColumn (dt : Nat) (h : CmdHdr) (p : List Word)
    /-- R51: SVC_MOVE_CONN moves a connection to a spare unit at a segment boundary. -/
  | svcMoveConn (dt : Nat) (h : CmdHdr) (p : List Word)
    /-- R431: SVC_RETIRE_PAGE migrates an HBM page to a free page and remaps it. -/
  | svcRetirePage (dt : Nat) (h : CmdHdr) (p : List Word) (dst : Option (Fin 12288))
    /-- R365: SVC_SHOULDER sets or clears forced hard shoulder on the named units by transaction. -/
  | svcShoulder (dt : Nat) (h : CmdHdr) (p : List Word)
    /-- R423: SVC_REPORT writes the repair record to a host buffer. -/
  | svcReport (dt : Nat) (h : CmdHdr) (p : List Word)
    /-- R488: LOG_READ returns log entries in INDEX order from a first index. -/
  | logRead (dt : Nat) (h : CmdHdr) (p : List Word)
    /-- R365: LOG_MARK writes a host mark into the log. -/
  | logMark (dt : Nat) (h : CmdHdr) (p : List Word)
    /-- R495: UPD_WRITE writes image bytes into a firmware slot that is not running. -/
  | updWrite (dt : Nat) (h : CmdHdr) (p : List Word) (x : HostBuf)
    /-- R495: UPD_VERIFY checks a firmware slot's signature, floor and data version. -/
  | updVerify (dt : Nat) (h : CmdHdr) (p : List Word)
    /-- R495: UPD_SWITCH loads a verified slot into the standby pair and swaps pairs at boundary b. -/
  | updSwitch (dt : Nat) (h : CmdHdr) (p : List Word)
    /-- R365: CAT_REQUEST submits a host catalogue request and replies when its header is pulled. -/
  | catRequest (dt : Nat) (h : CmdHdr) (p : List Word)
    /-- R365: The CAT_VOID command sets or clears a table row's void bit. -/
  | catVoid (dt : Nat) (h : CmdHdr) (p : List Word)
    /-- R381: NET_STATUS returns link state and partner capabilities of a port. -/
  | netStatus (dt : Nat) (h : CmdHdr) (p : List Word)
    /-- R407: NET_CONFIG checks and writes a list of network register entries. -/
  | netConfig (dt : Nat) (h : CmdHdr) (p : List Word) (x : HostBuf)
    /-- R396: PLB_CENSUS writes a plant-bus port's census to a host buffer. -/
  | plbCensus (dt : Nat) (h : CmdHdr) (p : List Word)
    /-- R500: SEC_KEY_SET unwraps and installs a key from a signed envelope. -/
  | secKeySet (dt : Nat) (h : CmdHdr) (p : List Word) (x : HostBuf)
    /-- R501: SEC_DBG_CHALLENGE returns a fresh 16-B debug challenge. -/
  | secDbgChallenge (dt : Nat) (h : CmdHdr) (p : List Word)
    /-- R501: SEC_DBG_UNLOCK checks a signed response and grants a debug scope. -/
  | secDbgUnlock (dt : Nat) (h : CmdHdr) (p : List Word) (x : HostBuf)
    /-- R506: PERST_N asserted in D0 resets the PCIe link and disables every queue and egress ring. -/
  | perstAssert (dt : Nat)
    /-- R380: An Ethernet frame is accepted as command, plant event, PTP, GVSP, ARP or ICMP, or discarded and counted.
      -/
  | ethFrameReceived (dt : Nat) (p : Fin 4) (f : NetFrame)
    /-- R379: An unanswered ARP request is repeated every 1 s. -/
  | arpRetry (dt : Nat) (p : Fin 6) (ip : Word)
    /-- R383: A PTP message from the source port is timestamped and steers device time. -/
  | ptpMessage (dt : Nat) (p : Fin 4) (udp : Bool) (m : PtpMsg)
    /-- R383: Three announce intervals without an announce put PTP in HOLDOVER. -/
  | ptpAnnounceTimeout (dt : Nat)
    /-- R386: FLUSH_US after the first held record byte a result stream sends a partial datagram. -/
  | rsFlushTimeout (dt : Nat) (k : Fin 16)
    /-- R388: A write of NET_RS_CFG configures a result stream, ignoring AUTH = 1 without a fresh key. -/
  | netRsCfgWrite (dt : Nat) (r : Requester) (k : Fin 16) (v : Word)
    /-- R389: A write of NET_GV_CFG.EN binds or unbinds a connection number to a GigE Vision camera. -/
  | netGvCfgWrite (dt : Nat) (r : Requester) (c : Fin 16) (v : Word)
    /-- R393: An authenticated plant event datagram loads a speed hint or arrives at a milestone. -/
  | plantEventDatagram (dt : Nat) (p : Fin 6) (mac : Nat) (b : List Byte)
    /-- R394: Every 1 ms a valid speed hint is compared with the measured edge rate and MISMATCH set after 10
      failures. -/
  | speedHintCheck (dt : Nat)
    /-- R394: 1 s after the last hint PLB_HINT.VALID clears. -/
  | speedHintExpire (dt : Nat)
    /-- R392: A plant-bus frame is handled, entered in the census, or discarded for errors. -/
  | plbFrameReceived (dt : Nat) (b : Fin 2) (node : Fin 256) (f : NetFrame)
    /-- R395: A collision on the device's own transmission aborts and retries the frame, discarding it after 16
      attempts. -/
  | plbCollision (dt : Nat) (b : Fin 2) (attempt : Fin 17) (again : Bool)
    /-- R395: Missing PLCA beacons make the port fall back to CSMA/CD, or take over as coordinator after 50 ms with
      BACKUP. -/
  | plbBeaconTimeout (dt : Nat) (b : Fin 2) (fifty : Bool)
    /-- R395: A foreign beacon makes a takeover coordinator stop beaconing, or raises collisions at node 0. -/
  | plbBeaconReceived (dt : Nat) (b : Fin 2) (cnt : Fin 256)
    /-- R395: 10 s after quarantine a source's frames are accepted again. -/
  | quarantineExpire (dt : Nat) (p : Fin 6) (mac : Nat)
    /-- R400: A junction flit is checked by CRC and SEQ, delivered in order and its credits and ACK taken. -/
  | flitReceived (dt : Nat) (j : Fin 4) (f : Flit)
    /-- R400: ACK not advancing for 2 µs makes the sender resend unacknowledged flits in order. -/
  | flitReplayTimeout (dt : Nat) (j : Fin 4)
    /-- R401: A write of JCT_CFG enables or disables a junction port and starts lane training. -/
  | jctCfgWrite (dt : Nat) (r : Requester) (j : Fin 4) (v : Word)
    /-- R401: A received HELLO makes the port ACTIVE or REFUSED by SYSID, DEVNUM and firmware major. -/
  | jctHello (dt : Nat) (j : Fin 4) (devnum : Fin 256) (sysid : Fin 65536) (major lanes cr0 cr1 : Nat)
    /-- R402: A junction lane fails and the port sends the lane-drop sequence to narrow. -/
  | laneFailure (dt : Nat) (j : Fin 4) (mask : Fin 16)
    /-- R402: The partner's lane-drop sequence arrives and the port retrains at the narrower width. -/
  | laneDropReceived (dt : Nat) (j : Fin 4) (mask : Fin 16)
    /-- R402: Without the partner's sequence within 1 ms every enabled lane fully retrains. -/
  | laneRetrainTimeout (dt : Nat) (j : Fin 4)
    /-- R404: A control message is consumed or forwarded hop by hop on PRIMARY or ALT, or discarded. -/
  | jctControlMessage (dt : Nat) (j : Fin 4) (m : CtlMsg)
    /-- R384: Every 1 ms the ends of a junction exchange time messages on VC0. -/
  | jctTimeSend (dt : Nat) (j : Fin 4)
    /-- R406: Every 1 ms the position master sends each enabled odometer's position to every routed device. -/
  | positionSend (dt : Nat)
    /-- R406: A received position message updates JCT_ODO_DIFF and STABLE, and applies a pending ALIGN. -/
  | positionMessage (dt : Nat) (time : Nat) (unsync : Bool) (vals : List (Fin 4 × Int))
    /-- R406: A write of JCT_SYNC.ALIGN requests alignment of an odometer at the next stable sample. -/
  | jctAlignWrite (dt : Nat) (r : Requester) (v : Word)
    /-- R406: No stable sample within 100 ms clears ALIGNING and leaves the odometer unchanged. -/
  | alignTimeout (dt : Nat) (u : Fin 4)
    /-- R415: The scrubber reads a granule, writes back corrections and marks uncorrectable granules poisoned and
      reports them. -/
  | scrubRead (dt : Nat) (x : EccPlace) (ue scrub : Bool) (reg : Region) (dst : Option (Fin 12288)) (pass : Option (Fin 4))
    /-- R417: An MC write of RAS_HOLD holds or releases the next dispatch of a crew. -/
  | rasHoldWrite (dt : Nat) (r : Requester) (h : Fin 4) (v : Word)
    /-- R417: 1 ms after HOLDING the dispatcher releases the hold and sets RELEASED. -/
  | rasHoldTimeout (dt : Nat) (h : Fin 4)
    /-- R429: A column or unit BIST finishes, mapping out rows, retiring failing tiles and returning passing ones to
      IDLE. -/
  | bistComplete (dt : Nat) (res : List (Fin 32 × List (Fin 16 × Fin 1024) × List (Fin 16 × Fin 16) × Bool)) (unitFail : Bool)
    /-- R425: Once every crew of the substituted column is between tasks the column state is copied to the layby
      column. -/
  | substSwitch (dt : Nat) (k : Fin 2)
    /-- R426: The substitution copy completes, ACTIVE changes and dispatch resumes. -/
  | substCopyComplete (dt : Nat) (k : Fin 2)
    /-- R431: An MC write of RAS_PMIG starts or stops mirroring writes from a source page to a destination page. -/
  | rasPmigWrite (dt : Nat) (r : Requester) (v : DWord)
    /-- R441: A granted power domain becomes ready after its power-on time. -/
  | domainReady (dt : Nat) (d : Fin 49) (ref iref : Bool)
    /-- R453: Every REFILL_US the toll gate gains a token and grants queued requests in priority order. -/
  | tollRefill (dt : Nat)
    /-- R443: An MC write of PWR_DSTATE.GO requests entry into D1 or D3 under the quiescence checks. -/
  | pwrDstateWrite (dt : Nat) (r : Requester) (data : Word)
    /-- R449: A column's operating-point change ends its TRIM and applies any REQ_OP waiting. -/
  | trimComplete (dt : Nat) (c : Fin 34)
    /-- R450: Each 1 ms with a diode at 108 °C or more the column drops one operating point. -/
  | thermalStepDown (dt : Nat) (c : Fin 34)
    /-- R450: After 10 ms below 105 °C the column rises one point per 1 ms back to REQ_OP. -/
  | thermalStepUp (dt : Nat) (c : Fin 34)
    /-- R450: A diode at 120 °C for 100 µs drives THERMTRIP_N low and starts emergency entry into D3. -/
  | thermalTrip (dt : Nat)
    /-- R451: VIN_CORE current above CEIL_A halves every column clock for a 10 µs window. -/
  | overcurrent (dt : Nat)
    /-- R451: A halving window ends and restores the clocks unless the current still exceeds the ceiling. -/
  | halvingEnd (dt : Nat) (still : Bool)
    /-- R455: A low level on WAKE_N for at least 1 µs latches a wake in D1 or D3. -/
  | wakeNLow (dt : Nat)
    /-- R455: A rising edge of PERST_N latches a wake in D1 or D3. -/
  | perstNRise (dt : Nat)
    /-- R456: A matching address phase on the I3C/I2C balls is NACKed and latches a wake. -/
  | i3cAddressMatch (dt : Nat) (addr : Fin 128)
    /-- R455: PWR_AON_TIME reaching PWR_WAKE_TIME latches a timer wake. -/
  | aonTimerMatch (dt : Nat)
    /-- R459: A rail outside ±10 % for 2 µs is logged and causes emergency entry or abandons a wake. -/
  | railFailure (dt : Nat) (rail : Fin 8)
    /-- R459: A rail within ±5 % for 1 ms reads GOOD. -/
  | railGood (dt : Nat) (rail : Fin 8)
    /-- R460: A rail not GOOD within 20 ms of a wake abandons the wake and sets WAKE_FAIL. -/
  | wakeRailTimeout (dt : Nat)
    /-- R508: VDD_AON and VIO18 in range for 1 ms start the AON and the power-up sequence. -/
  | aonPowerUp (dt : Nat) (unread : Fin 1024)
    /-- R505: SYS_RESET_N low for 10 µs resets every register and restarts start-up. -/
  | sysReset (dt : Nat) (unread : Fin 1024)
    /-- R464: REFCLK absent for 100 ns or off-frequency puts every PLL in holdover. -/
  | refclkLoss (dt : Nat)
    /-- R464: A single REFCLK period outside ±5 % is counted and held over for that period. -/
  | refclkGlitch (dt : Nat)
    /-- R464: 10 ms after a loss without return every PLL moves onto the IRO. -/
  | refclkHoldoverTimeout (dt : Nat)
    /-- R464: REFCLK valid for 1 ms within 10 ms of a loss relocks the PLLs. -/
  | refclkRelock (dt : Nat)
    /-- R464: REFCLK valid for RETURN_MS returns the PLLs from the IRO. -/
  | refclkReturn (dt : Nat)
    /-- R463: An MC write of CLK_MC.SEL switches the MC clock glitch-free when the MC PLL is locked. -/
  | clkMcWrite (dt : Nat) (r : Requester) (data : Word)
    /-- R472: A calibration instance becomes due by temperature, age, start-up or request. -/
  | calDue (dt : Nat) (item : Fin 9) (inst : Nat) (temp : Option Int) (iref : Bool)
    /-- R472: An MC write of CAL_TRIG makes every instance of the named items due. -/
  | calTrigWrite (dt : Nat) (r : Requester) (data : Word) (iref : Bool)
    /-- R470: A spare-leg measurement completes and is discarded, compared, accepted into the sets or flagged. -/
  | calMeasurement (dt : Nat) (item : Fin 9) (inst : Nat) (code : Int) (conf : Fin 256) (temp : Int)
    /-- R471: The hitless leg swap completes and the spare becomes active. -/
  | calSwapComplete (dt : Nat) (item : Fin 9) (inst : Nat)
    /-- R475: An instance without an accepted result for HOLD_S while discarded for confidence is set HELD. -/
  | calHoldTimeout (dt : Nat) (item : Fin 9) (inst : Nat)
    /-- R482: An MC pair fault halts the pair and fails over to the standby pair. -/
  | pairFault (dt : Nat) (p : Fin 2) (cause : Fin 4)
    /-- R483: A faulted pair completes self-test and reload and becomes STANDBY, or is RETIRED. -/
  | pairRestore (dt : Nat) (p : Fin 2) (res : Fin 3)
    /-- R481: Every 10 s the standby pair checks the digest of its code bank. -/
  | standbyCheck (dt : Nat) (ok : Bool)
    /-- R486: Each 1 ms board-sense average is converted to current and checked against its limit. -/
  | bsenseAverage (dt : Nat) (n : Fin 8) (raw : Nat)
    /-- R488: The MC copies log entries to the flash mirror within 1 s. -/
  | logMirror (dt : Nat)
    /-- R496: After 24 h ACTIVE an image with COMMIT_FLOOR raises FW_FLOOR to its SVN. -/
  | fwFloorCommit (dt : Nat)
    /-- R501: A debug scope's minutes run out and the scope ends. -/
  | debugScopeExpire (dt : Nat)
    /-- R512: The slew probe measures VIN_CORE recovery and sets REFILL_US. -/
  | slewProbeEnd (dt : Nat) (trec : Option (Fin 1001))
    /-- R11: A high-word read of a 64-bit register returns the requester's latched high word and empties the latch, or
      the live high word when the latch is empty. -/
  | regRead64High (dt : Nat) (r : Requester) (addr : Nat)
    /-- R286: A read of WAY_REC votes the three copies bit by bit, rewrites a losing copy, compares the two voters and
      may lose the record. -/
  | waymarkRecordRead (dt : Nat) (r : Requester) (i : Fin 2048) (mis : Fin 4) (lost : Bool)
    /-- R379: An Ethernet port completes auto-negotiation and comes up, so a bound GigE Vision connection reads READY.
      -/
  | ethLinkUp (dt : Nat) (p : Fin 4) (speed : Fin 5) (fec : Bool) (page : Nat) (abil : Fin 8)
    /-- R381: An Ethernet port loses its link and its state returns to down. -/
  | ethLinkLoss (dt : Nat) (p : Fin 4)
    /-- R401: Junction lane training or retraining completes and the port sends HELLO and moves to the HELLO state. -/
  | laneTrainingComplete (dt : Nat) (j : Fin 4) (ok : Fin 16)
    /-- R402: After the MC has retrained failed lanes off traffic and measured a bit error ratio below 10⁻¹² over 10
      s, the port widens through steps 2 to 6. -/
  | laneWidening (dt : Nat) (j : Fin 4)
    /-- R354: A non-posted PCIe request gets no completion within 50 ms, so its DMA channel stops with error PCIE, or
      its fetch or host-buffer read fails. -/
  | pcieCompletionTimeout (dt : Nat) (x : PcieWait)
    /-- R458: The first PCIe configuration request after PERST_N release is answered and PCIE_WAKE_N is released. -/
  | pcieConfigRequest (dt : Nat)
    /-- R455: MC firmware requests a wake in D1, which the AON latches as wake source 5. -/
  | mcWakeRequest (dt : Nat)
    /-- R522: A rail stays outside ±5 % of nominal for more than 100 µs without reaching the failure threshold, clears
      its GOOD bit and is logged. -/
  | railExcursion (dt : Nat) (rail : Fin 8)
    /-- R451: VIN_CORE current exceeds CAP_A, PWR_THROT.CAP is set and the MC is told. -/
  | currentAboveCap (dt : Nat)
    /-- R447: A power domain or column finishes switching off or parking after its stated time, with outputs at safe
      levels. -/
  | domainSwitchedOff (dt : Nat) (d : Fin 49)
    /-- R514: A stack finishes training at power-up or wake from D3 and is initialised with zero data, or retires its
      octet after three failures. -/
  | hbmTrainingComplete (dt : Nat) (k : Fin 4) (fail : Option (Fin 32))
    /-- R494: The boot ROM finishes copying and checking a firmware slot and jumps to ENTRY, or enters recovery mode.
      -/
  | bootRomVerifyComplete (dt : Nat) (cal rep pol key iref : Bool)
    /-- R429: The policy's test-rotation period expires and the MC tests the next column or ingress unit. -/
  | testRotationDue (dt : Nat) (i : Fin 50)
    /-- R430: A stack reports a pseudo-channel fault and the MC retires its octet. -/
  | hbmPseudoChannelFault (dt : Nat) (k : Fin 4) (pc : Fin 32)
    /-- R434: The duplicated AON logic disagrees in a cycle, and the mismatch is logged, counted in AON_MIS and
      reported while the island continues on its first copy. -/
  | aonSelfCheckMismatch (dt : Nat)
  deriving DecidableEq, Repr

end Sys2Proof
end

