-- ==== Sys2Proof/Config.lean ====
section
/-! DEFINITION. What the spec leaves open: constants without a body, so that no proof can use a value of one. -/
namespace Sys2Proof.Config

/-- Values the spec leaves open: the step reads the next one and advances `State.freeCtr`. -/
opaque freeValue : Nat → Nat
/-- The severity of a log entry, by its code, where the spec names the entry but no severity (R487). -/
opaque logSev : Nat → Nat
/-- The source code of a log entry, by its code, where the spec does not name one (R487). -/
opaque logSrc : Nat → Nat
/-- The 16-byte AES-256-GMAC tag (R367) under the key with the given bytes, for a nonce and a message. -/
opaque gmac : List Byte → List Byte → List Byte → List Byte
/-- Minor and patch numbers of the running firmware release (R1 fixes the major number alone). -/
opaque fwMinor : Nat
/-- See `fwMinor`. -/
opaque fwPatch : Nat

/-- The FP32 code of an average over a window that holds no position (R190 states none). -/
opaque avgEmpty : Nat

/-- The bytes that a read of an unmapped HBM address returns under its poison mark (R224 states none), by address. -/
opaque unmappedByte : Nat → Nat
/-- The element width code a sender uses for zero compression (R195 leaves it to the sender). -/
opaque zcEw : Nat
/-- The fuse value of a calibrated item and its member, measured at test, in codes (R474). -/
opaque calFuse : Nat → Nat → Int
/-- SHA-384 of a message (R492). -/
opaque sha384 : List Byte → List Byte
/-- Does an ECDSA P-384 signature over a message verify under a public key (R492): key, message, signature. -/
opaque ecdsa : List Byte → List Byte → List Byte → Bool
/-- AES-256-GCM decryption (R492): key, nonce, additional data, ciphertext, tag; none where the tag does not verify. -/
opaque gcmOpen : List Byte → List Byte → List Byte → List Byte → List Byte → Option (List Byte)
/-- The key in an envelope of R500, decrypted under the key-encryption key that the device identity key, the serial and the
ephemeral key give: serial, ephemeral key, nonce, ciphertext, tag. -/
opaque unwrapKey : Nat → List Byte → List Byte → List Byte → List Byte → Option (List Byte)
/-- The words of the device identity public key (R504). -/
opaque devPub : Nat → Nat
/-- The PCIe link that a DMA channel's host accesses take in 2 × 8 mode (R354 states none). -/
opaque dmaLink : Nat → Nat

end Sys2Proof.Config
end

