-- ==== Sys2Proof/Machine/RegTable.lean ====
section
/-! DEFINITION. The BAR0 registers (R31, R540): one row per register with its address, strides, width, fields, access
codes (R8) and reset values, as the field tables of the owning chapters give them; and one name per field. -/
namespace Sys2Proof.Machine

/-- The registers of BAR0, by the names of R540. An array of registers is one name. -/
inductive Reg where
  | DEV_ID | DEV_LAYBY | DEV_CAPS | DEV_APERTURE | DEV_MEAS_ENERGY | DEV_MEAS_MOVE | DEV_MEAS_HBM | DEV_MEAS_SEQ
  | ING_CONN_CFG | ING_CONN_CAPS | ING_CONN_CNT | ING_LINK_TDR | ING_TDR_CFG | ODO_CFG | ODO_POS | ODO_EDGE_DT
  | ODO_STAT | ODO_TG_CFG | ODO_TG_PITCH | ODO_TG_OFFSET | ODO_TG_MINPER | ODO_SEG_CFG | ING_RES_CFG | ING_RES_STAT
  | REF_GEOM | REF_CTRL | REF_NR | REF_NM_GAIN | REF_NM_READ | REF_BLACK_DYN | REF_GAIN | REF_MAT | REF_OFF | REF_DARK
  | REF_SPLICE | REF_SETS | REF_CNT_GATED | REF_CNT | REF_TAB_ADDR | REF_TAB_DATA | TILE_STAT | TILE_CTRL | TILE_EXC
  | TILE_EXC_PC | TILE_RATE | TILE_SENSE | TILE_ERRCNT | TILE_RNG_SEED | TILE_RNG_STEPS | TILE_TRAF_RX | TILE_TRAF_TX
  | TILE_RB_CFG | TILE_RB_FWD | TILE_DBG_ADDR | TILE_DBG_DATA | TILE_MAP | TILE_MSE_SQ | TILE_MSE_CNT | TILE_CREW_SQ
  | TILE_CREW_CNT | ING_STRIPE_GEOM | ING_STRIPE_HALO | ING_STRIPE_CREW | ING_SEAM_STAT | STR_SCHED_MARGIN | STR_MISS_CFG
  | STR_ARB | STR_CAP | STR_RSV | STR_OUT | STR_OCTET | STR_MISS_LOG | STR_MISS_CNT | STR_PMAP_ADDR | STR_PMAP_DATA
  | STR_SLOT_BASE | STR_SLOT_ROW | STR_SLOT_ROWS | STR_SLOT_RATE | STR_SLOT_TILE | STR_SLOT_BUF | STR_SLOT_STAT
  | CAT_CFG | CAT_STAT | CAT_DONE | CAT_ERRCNT | CAT_VOID_REG | CAT_TAB_BASE | CAT_TAB_VMAP | CAT_TAB_AUX | CAT_TAB_FMT
  | CAT_TAB_ROWS | CAT_CTX | MS_STAT | MS_COUNT | MS_TARGET | MS_CFG | MS_ARRIVE_REG | WAY_STAT | WAY_HOLD | WAY_SYS_CFG
  | WAY_ERRCNT | WAY_TX_STAT | WAY_TX_SIZE | WAY_TX_POINT | TALLY_STAT | TALLY_LOG | TALLY_CNT | DMA_SRC | DMA_DST
  | DMA_COUNT | DMA_NEXT | DMA_CTRL | DMA_SHUF | DMA_CMD | DMA_PRIO | DMA_STAT | DMA_CUR | DMA_ROUTE | DMA_TMR
  | DEP_BANK_OWNER | DEP_OWNERS | DEP_STAT | DEP_BANK_PRIO | CMD_STAT | CMD_NET_STAT | CMD_SQ_BASE | CMD_CQ_BASE
  | CMD_Q_CFG | CMD_SQ_TAIL | CMD_CQ_HEAD | CMD_Q_STAT | CMD_EGR_BASE | CMD_EGR_HEAD | CMD_EGR_TAIL | CMD_EGR_STAT
  | NET_CFG | NET_IP | NET_GW | NET_MAC | NET_STAT | NET_ERRCNT | NET_PTP_CFG | NET_PTP_STAT | NET_PTP_OFFSET | NET_GV_LEAD
  | NET_GV_CFG | NET_GV_SRC | NET_GV_ACT | NET_RS_DST | NET_RS_CFG | NET_RS_LEN | NET_RS_STAT | PLB_CFG | PLB_IP
  | PLB_MAC | PLB_STAT | PLB_ERRCNT | PLB_HINT | JCT_SYS | JCT_SYNC | JCT_ODO_DIFF | JCT_CFG | JCT_STAT | JCT_ERRCNT
  | JCT_RSV | JCT_ROUTE | RAS_STAT | RAS_SCRUB_CFG | RAS_SCRUB_STAT | RAS_SELFCHK | RAS_ECC_CNT | RAS_UE_LOG | RAS_UE_ADDR
  | RAS_AEL_STAT | RAS_BIST_CTRL | RAS_BIST_STAT | RAS_BIST_FAIL | RAS_SUBST | RAS_PMIG | RAS_HOLD | RAS_RETIRED
  | RAS_DETOUR | PWR_STAT | PWR_DSTATE | PWR_WAKE_CFG | PWR_WAKE_STAT | PWR_WAKE_TIME | PWR_AON_TIME | PWR_TOLL
  | PWR_RAIL | PWR_LIMIT | PWR_THROT | PWR_COL | PWR_DOM | CLK_STAT | CLK_REF_CNT | CLK_REF_CFG | CLK_MC | CLK_COL
  | CAL_STAT | CAL_CFG | CAL_COUNT | CAL_TRIG | CAL_LAST_TIME | CAL_HOLD | CAL_ITEM_CFG | CAL_ITEM_STAT | CAL_RES0
  | CAL_RES1 | CAL_RES2 | CAL_RES3 | CAL_TAB_ADDR | CAL_TAB_DATA | MC_STAT | MC_CTRL | MC_RECOV | MC_BSENSE | SEC_STAT
  | SEC_FLOOR | SEC_SERIAL | SEC_DEVPUB | DEV_START | DEV_FUSE | DEV_BOOT_SLEW | RAS_AEL0 | RAS_AEL1 | RAS_AEL2
  | RAS_AEL3 | ING_CONN_PIXFMT | ODO_SEG_NUM | REF_ST
  deriving DecidableEq, Repr

/-- The access codes of R8. -/
inductive Acc where
  | rw | ro | wo | w1c | w1s | rc | rwl
  deriving DecidableEq, Repr

/-- One field: its lowest bit, its width, its access code and its Reset column (R12). -/
structure FieldRow where
  lo : Nat
  w : Nat
  acc : Acc
  reset : Nat
  deriving DecidableEq, Repr

/-- One register: BAR0 address of the first instance, count and stride of its one or two indices, width in bits. -/
structure RegRow where
  base : Nat
  n1 : Nat
  s1 : Nat
  n2 : Nat
  s2 : Nat
  width : Nat
  fields : List FieldRow
  deriving DecidableEq, Repr

/-- A named field of a register. -/
structure Fld where
  reg : Reg
  lo : Nat
  w : Nat
  deriving DecidableEq, Repr

/-- The register table. -/
def regRow : Reg → RegRow
  | .DEV_ID => ⟨0x0, 1, 0x0, 1, 0x0, 32, [⟨16, 16, .ro, 0x6410⟩, ⟨8, 8, .ro, 0xb⟩, ⟨0, 8, .ro, 0⟩]⟩
  | .DEV_LAYBY => ⟨0x8, 1, 0x0, 1, 0x0, 32, [⟨8, 6, .ro, 0x11⟩, ⟨0, 6, .ro, 0x10⟩]⟩
  | .DEV_CAPS => ⟨0x4, 1, 0x0, 1, 0x0, 32, [⟨24, 8, .ro, 0x18⟩, ⟨21, 3, .ro, 4⟩, ⟨16, 5, .ro, 0x10⟩, ⟨8, 8, .ro, 0x20⟩, ⟨0, 8, .ro, 0x22⟩]⟩
  | .DEV_APERTURE => ⟨0x24, 1, 0x0, 1, 0x0, 32, [⟨0, 7, .rw, 0⟩]⟩
  | .DEV_MEAS_ENERGY => ⟨0x10, 1, 0x0, 1, 0x0, 32, [⟨31, 1, .ro, 0⟩, ⟨0, 16, .ro, 0⟩]⟩
  | .DEV_MEAS_MOVE => ⟨0x14, 1, 0x0, 1, 0x0, 32, [⟨31, 1, .ro, 0⟩, ⟨0, 16, .ro, 0⟩]⟩
  | .DEV_MEAS_HBM => ⟨0x18, 2, 0x4, 1, 0x0, 32, [⟨26, 1, .ro, 0⟩, ⟨16, 10, .ro, 0⟩, ⟨10, 1, .ro, 0⟩, ⟨0, 10, .ro, 0⟩]⟩
  | .DEV_MEAS_SEQ => ⟨0x20, 1, 0x0, 1, 0x0, 32, [⟨0, 32, .ro, 0⟩]⟩
  | .ING_CONN_CFG => ⟨0x200000, 16, 0x40, 1, 0x0, 32, [⟨29, 3, .ro, 0⟩, ⟨24, 4, .ro, 0⟩, ⟨23, 1, .ro, 0⟩, ⟨16, 4, .ro, 0⟩, ⟨8, 4, .ro, 0⟩, ⟨0, 6, .ro, 0⟩]⟩
  | .ING_CONN_CAPS => ⟨0x200004, 16, 0x40, 1, 0x0, 32, [⟨24, 8, .ro, 0⟩, ⟨20, 4, .ro, 0⟩, ⟨8, 7, .ro, 0⟩, ⟨7, 1, .ro, 0⟩, ⟨6, 1, .ro, 0⟩, ⟨5, 1, .ro, 0⟩]⟩
  | .ING_CONN_CNT => ⟨0x200014, 16, 0x40, 1, 0x0, 32, [⟨16, 16, .rc, 0⟩, ⟨0, 16, .rc, 0⟩]⟩
  | .ING_LINK_TDR => ⟨0x200800, 64, 0x4, 1, 0x0, 32, [⟨31, 1, .ro, 0⟩, ⟨28, 3, .ro, 0⟩, ⟨20, 8, .ro, 0⟩, ⟨0, 16, .ro, 0⟩]⟩
  | .ING_TDR_CFG => ⟨0x200900, 1, 0x0, 1, 0x0, 32, [⟨16, 8, .rw, 0xa⟩, ⟨0, 10, .rw, 0x334⟩]⟩
  | .ODO_CFG => ⟨0x400000, 4, 0x40, 1, 0x0, 32, [⟨31, 1, .rw, 0⟩, ⟨30, 1, .rw, 0⟩, ⟨16, 8, .rw, 0x10⟩, ⟨8, 8, .rw, 0x10⟩, ⟨4, 4, .rw, 0xa⟩, ⟨0, 4, .rw, 8⟩]⟩
  | .ODO_POS => ⟨0x400008, 4, 0x40, 1, 0x0, 64, [⟨0, 64, .ro, 0⟩]⟩
  | .ODO_EDGE_DT => ⟨0x400010, 4, 0x40, 1, 0x0, 32, [⟨0, 32, .ro, 0⟩]⟩
  | .ODO_STAT => ⟨0x400014, 4, 0x40, 1, 0x0, 32, [⟨31, 1, .w1c, 0⟩, ⟨30, 1, .w1c, 0⟩, ⟨29, 1, .ro, 0⟩, ⟨28, 1, .ro, 0⟩, ⟨0, 16, .rc, 0⟩]⟩
  | .ODO_TG_CFG => ⟨0x400400, 16, 0x10, 1, 0x0, 32, [⟨31, 1, .rw, 0⟩, ⟨26, 2, .rw, 0⟩, ⟨0, 16, .rw, 0⟩]⟩
  | .ODO_TG_PITCH => ⟨0x400404, 16, 0x10, 1, 0x0, 32, [⟨0, 32, .rw, 0x10000⟩]⟩
  | .ODO_TG_OFFSET => ⟨0x400408, 16, 0x10, 1, 0x0, 32, [⟨0, 32, .rw, 0⟩]⟩
  | .ODO_TG_MINPER => ⟨0x40040C, 16, 0x10, 1, 0x0, 32, [⟨0, 20, .rw, 0x3e8⟩]⟩
  | .ODO_SEG_CFG => ⟨0x400800, 1, 0x0, 1, 0x0, 32, [⟨20, 10, .rw, 0x14⟩, ⟨16, 4, .rw, 0⟩, ⟨0, 16, .rw, 0x3ff⟩]⟩
  | .ING_RES_CFG => ⟨0x20000C, 16, 0x40, 1, 0x0, 32, [⟨24, 8, .rw, 0xa⟩, ⟨0, 18, .rw, 0⟩]⟩
  | .ING_RES_STAT => ⟨0x200010, 16, 0x40, 1, 0x0, 32, [⟨31, 1, .w1c, 0⟩, ⟨30, 1, .ro, 0⟩, ⟨0, 18, .ro, 0⟩]⟩
  | .REF_GEOM => ⟨0x300000, 16, 0x10000, 1, 0x0, 32, [⟨12, 3, .rw, 0⟩, ⟨10, 2, .rw, 0⟩, ⟨8, 2, .rw, 0⟩, ⟨4, 4, .rw, 0⟩, ⟨0, 3, .rw, 0⟩]⟩
  | .REF_CTRL => ⟨0x300004, 16, 0x10000, 1, 0x0, 32, [⟨4, 4, .rw, 0⟩, ⟨2, 1, .rw, 0⟩, ⟨1, 1, .rw, 0⟩, ⟨0, 1, .rw, 0⟩]⟩
  | .REF_NR => ⟨0x300008, 16, 0x10000, 1, 0x0, 32, [⟨8, 8, .rw, 0⟩, ⟨0, 8, .rw, 0⟩]⟩
  | .REF_NM_GAIN => ⟨0x30000C, 16, 0x10000, 1, 0x0, 32, [⟨16, 16, .rw, 0x1000⟩, ⟨0, 16, .rw, 0⟩]⟩
  | .REF_NM_READ => ⟨0x300010, 16, 0x10000, 1, 0x0, 32, [⟨0, 32, .rw, 0x400⟩]⟩
  | .REF_BLACK_DYN => ⟨0x300014, 16, 0x10000, 1, 0x0, 32, [⟨0, 16, .rw, 0⟩]⟩
  | .REF_GAIN => ⟨0x300018, 16, 0x10000, 2, 0x4, 32, [⟨16, 16, .rw, 0x1000⟩, ⟨0, 16, .rw, 0x1000⟩]⟩
  | .REF_MAT => ⟨0x300020, 16, 0x10000, 8, 0x4, 32, [⟨16, 16, .rw, 0⟩, ⟨0, 16, .rw, 0⟩]⟩
  | .REF_OFF => ⟨0x300040, 16, 0x10000, 2, 0x4, 32, [⟨16, 16, .rw, 0⟩, ⟨0, 16, .rw, 0⟩]⟩
  | .REF_DARK => ⟨0x300048, 16, 0x10000, 1, 0x0, 32, [⟨16, 16, .rw, 0⟩, ⟨0, 16, .rw, 0⟩]⟩
  | .REF_SPLICE => ⟨0x300050, 16, 0x10000, 4, 0x4, 32, [⟨8, 1, .ro, 0⟩, ⟨7, 1, .ro, 0⟩, ⟨4, 3, .ro, 0⟩, ⟨1, 3, .ro, 0⟩, ⟨0, 1, .ro, 0⟩]⟩
  | .REF_SETS => ⟨0x300080, 16, 0x10000, 1, 0x0, 32, [⟨19, 1, .w1c, 0⟩, ⟨18, 1, .ro, 0⟩, ⟨17, 1, .ro, 0⟩, ⟨16, 1, .ro, 1⟩, ⟨8, 3, .ro, 0⟩, ⟨0, 3, .ro, 1⟩]⟩
  | .REF_CNT_GATED => ⟨0x300084, 16, 0x10000, 1, 0x0, 32, [⟨0, 32, .rc, 0⟩]⟩
  | .REF_CNT => ⟨0x300088, 16, 0x10000, 1, 0x0, 32, [⟨16, 16, .rc, 0⟩, ⟨0, 16, .rc, 0⟩]⟩
  | .REF_TAB_ADDR => ⟨0x300090, 16, 0x10000, 1, 0x0, 32, [⟨24, 1, .rw, 0⟩, ⟨0, 18, .rw, 0⟩]⟩
  | .REF_TAB_DATA => ⟨0x300094, 16, 0x10000, 1, 0x0, 32, [⟨0, 32, .rw, 0x40000000⟩]⟩
  | .TILE_STAT => ⟨0x1000000, 1088, 0x1000, 1, 0x0, 32, [⟨29, 3, .ro, 0⟩, ⟨28, 1, .w1c, 0⟩, ⟨27, 1, .ro, 0⟩, ⟨26, 1, .ro, 1⟩, ⟨25, 1, .w1c, 0⟩, ⟨24, 1, .w1c, 0⟩, ⟨0, 16, .ro, 0⟩]⟩
  | .TILE_CTRL => ⟨0x1000004, 1088, 0x1000, 1, 0x0, 32, [⟨31, 1, .wo, 0⟩, ⟨2, 1, .wo, 0⟩, ⟨1, 1, .wo, 0⟩, ⟨0, 1, .wo, 0⟩]⟩
  | .TILE_EXC => ⟨0x1000008, 1088, 0x1000, 1, 0x0, 32, [⟨24, 8, .ro, 0⟩, ⟨0, 16, .ro, 0⟩]⟩
  | .TILE_EXC_PC => ⟨0x100000C, 1088, 0x1000, 1, 0x0, 32, [⟨0, 32, .ro, 0⟩]⟩
  | .TILE_RATE => ⟨0x1000010, 1088, 0x1000, 1, 0x0, 32, [⟨31, 1, .ro, 0⟩, ⟨16, 10, .ro, 0⟩, ⟨0, 11, .ro, 0⟩]⟩
  | .TILE_SENSE => ⟨0x1000014, 1088, 0x1000, 1, 0x0, 32, [⟨31, 1, .ro, 0⟩, ⟨16, 12, .ro, 0⟩, ⟨0, 10, .ro, 0⟩]⟩
  | .TILE_ERRCNT => ⟨0x1000018, 1088, 0x1000, 1, 0x0, 32, [⟨16, 16, .rc, 0⟩, ⟨8, 8, .rc, 0⟩, ⟨0, 8, .rc, 0⟩]⟩
  | .TILE_RNG_SEED => ⟨0x1000020, 1088, 0x1000, 1, 0x0, 64, [⟨0, 64, .rw, 1⟩]⟩
  | .TILE_RNG_STEPS => ⟨0x1000028, 1088, 0x1000, 1, 0x0, 64, [⟨0, 64, .ro, 0⟩]⟩
  | .TILE_TRAF_RX => ⟨0x1000030, 1088, 0x1000, 1, 0x0, 64, [⟨0, 64, .ro, 0⟩]⟩
  | .TILE_TRAF_TX => ⟨0x1000038, 1088, 0x1000, 1, 0x0, 64, [⟨0, 64, .ro, 0⟩]⟩
  | .TILE_RB_CFG => ⟨0x1000040, 1088, 0x1000, 1, 0x0, 32, [⟨31, 1, .rwl, 0⟩, ⟨16, 5, .rwl, 0⟩, ⟨8, 5, .rwl, 0⟩, ⟨0, 1, .rwl, 0⟩]⟩
  | .TILE_RB_FWD => ⟨0x1000044, 1088, 0x1000, 1, 0x0, 32, [⟨31, 1, .rwl, 0⟩, ⟨0, 11, .rwl, 0⟩]⟩
  | .TILE_DBG_ADDR => ⟨0x1000100, 1088, 0x1000, 1, 0x0, 32, [⟨30, 2, .rw, 0⟩, ⟨0, 18, .rw, 0⟩]⟩
  | .TILE_DBG_DATA => ⟨0x1000104, 1088, 0x1000, 1, 0x0, 32, [⟨0, 32, .rw, 0⟩]⟩
  | .TILE_MAP => ⟨0x1000400, 1088, 0x1000, 256, 0x4, 32, [⟨31, 1, .rw, 0⟩, ⟨30, 1, .rw, 0⟩, ⟨0, 10, .rw, 0⟩]⟩
  | .TILE_MSE_SQ => ⟨0x10000C0, 1088, 0x1000, 1, 0x0, 64, [⟨48, 16, .ro, 0⟩, ⟨0, 48, .ro, 0⟩]⟩
  | .TILE_MSE_CNT => ⟨0x10000C8, 1088, 0x1000, 1, 0x0, 64, [⟨48, 16, .ro, 0⟩, ⟨0, 48, .ro, 0⟩]⟩
  | .TILE_CREW_SQ => ⟨0x10000D0, 1088, 0x1000, 1, 0x0, 64, [⟨48, 16, .rw, 0⟩, ⟨0, 48, .rw, 0⟩]⟩
  | .TILE_CREW_CNT => ⟨0x10000D8, 1088, 0x1000, 1, 0x0, 64, [⟨48, 16, .rw, 0⟩, ⟨0, 48, .rw, 0⟩]⟩
  | .ING_STRIPE_GEOM => ⟨0x210000, 16, 0x400, 64, 0x10, 32, [⟨16, 11, .ro, 0⟩, ⟨0, 16, .ro, 0⟩]⟩
  | .ING_STRIPE_HALO => ⟨0x210004, 16, 0x400, 64, 0x10, 32, [⟨20, 2, .ro, 0⟩, ⟨18, 2, .ro, 0⟩, ⟨16, 2, .ro, 0⟩, ⟨8, 8, .ro, 0⟩, ⟨0, 8, .ro, 0⟩]⟩
  | .ING_STRIPE_CREW => ⟨0x210008, 16, 0x400, 64, 0x10, 32, [⟨31, 1, .ro, 0⟩, ⟨30, 1, .ro, 0⟩, ⟨28, 2, .ro, 0⟩, ⟨24, 2, .ro, 0⟩, ⟨16, 5, .ro, 0⟩, ⟨8, 5, .ro, 0⟩, ⟨0, 6, .ro, 0⟩]⟩
  | .ING_SEAM_STAT => ⟨0x220000, 16, 0x4, 1, 0x0, 32, [⟨31, 1, .w1c, 0⟩, ⟨30, 1, .w1c, 0⟩, ⟨29, 1, .w1c, 0⟩, ⟨16, 7, .ro, 0⟩, ⟨0, 7, .ro, 0⟩]⟩
  | .STR_SCHED_MARGIN => ⟨0x900000, 1, 0x0, 1, 0x0, 32, [⟨0, 5, .rw, 6⟩]⟩
  | .STR_MISS_CFG => ⟨0x900004, 1, 0x0, 1, 0x0, 32, [⟨16, 8, .rw, 0x14⟩, ⟨0, 16, .rw, 0x3e8⟩]⟩
  | .STR_ARB => ⟨0x900008, 1, 0x0, 1, 0x0, 32, [⟨16, 7, .rw, 0x3e⟩, ⟨0, 16, .rw, 0x7d0⟩]⟩
  | .STR_CAP => ⟨0x900040, 4, 0x10, 1, 0x0, 32, [⟨31, 1, .ro, 0⟩, ⟨0, 21, .ro, 0x10b620⟩]⟩
  | .STR_RSV => ⟨0x900044, 4, 0x10, 1, 0x0, 32, [⟨0, 21, .ro, 0⟩]⟩
  | .STR_OUT => ⟨0x900048, 4, 0x10, 1, 0x0, 32, [⟨16, 9, .ro, 0⟩, ⟨0, 10, .rc, 0⟩]⟩
  | .STR_OCTET => ⟨0x90004C, 4, 0x10, 1, 0x0, 32, [⟨0, 4, .rwl, 0⟩]⟩
  | .STR_MISS_LOG => ⟨0x900100, 1, 0x0, 1, 0x0, 64, [⟨63, 1, .w1c, 0⟩, ⟨60, 3, .ro, 0⟩, ⟨58, 2, .ro, 0⟩, ⟨50, 8, .ro, 0⟩, ⟨39, 11, .ro, 0⟩, ⟨0, 32, .ro, 0⟩]⟩
  | .STR_MISS_CNT => ⟨0x900108, 1, 0x0, 1, 0x0, 32, [⟨16, 16, .rc, 0⟩, ⟨0, 16, .rc, 0⟩]⟩
  | .STR_PMAP_ADDR => ⟨0x900200, 1, 0x0, 1, 0x0, 32, [⟨16, 2, .rw, 0⟩, ⟨0, 14, .rw, 0⟩]⟩
  | .STR_PMAP_DATA => ⟨0x900204, 1, 0x0, 1, 0x0, 32, [⟨31, 1, .rwl, 1⟩, ⟨0, 14, .rwl, 0⟩]⟩
  | .STR_SLOT_BASE => ⟨0x910000, 4, 0x10000, 256, 0x20, 64, [⟨6, 31, .rwl, 0⟩]⟩
  | .STR_SLOT_ROW => ⟨0x910008, 4, 0x10000, 256, 0x20, 32, [⟨12, 20, .rwl, 0⟩, ⟨0, 12, .rwl, 0⟩]⟩
  | .STR_SLOT_ROWS => ⟨0x91000C, 4, 0x10000, 256, 0x20, 32, [⟨31, 1, .rwl, 0⟩, ⟨0, 24, .rwl, 0⟩]⟩
  | .STR_SLOT_RATE => ⟨0x910010, 4, 0x10000, 256, 0x20, 32, [⟨31, 1, .rwl, 0⟩, ⟨28, 3, .rwl, 0⟩, ⟨25, 1, .rwl, 0⟩, ⟨24, 1, .rwl, 0⟩, ⟨21, 3, .rwl, 0⟩, ⟨0, 21, .rwl, 0⟩]⟩
  | .STR_SLOT_TILE => ⟨0x910014, 4, 0x10000, 256, 0x20, 32, [⟨11, 1, .rwl, 0⟩, ⟨0, 11, .rwl, 0⟩]⟩
  | .STR_SLOT_BUF => ⟨0x910018, 4, 0x10000, 256, 0x20, 32, [⟨16, 14, .rwl, 0⟩, ⟨0, 14, .rwl, 0⟩]⟩
  | .STR_SLOT_STAT => ⟨0x91001C, 4, 0x10000, 256, 0x20, 32, [⟨29, 3, .ro, 0⟩, ⟨8, 8, .rc, 0⟩, ⟨0, 8, .rc, 0⟩]⟩
  | .CAT_CFG => ⟨0xA00000, 1, 0x0, 1, 0x0, 32, [⟨0, 8, .rw, 0x10⟩]⟩
  | .CAT_STAT => ⟨0xA00004, 1, 0x0, 1, 0x0, 32, [⟨28, 4, .ro, 0⟩, ⟨16, 7, .ro, 0⟩, ⟨0, 9, .ro, 0⟩]⟩
  | .CAT_DONE => ⟨0xA00008, 1, 0x0, 1, 0x0, 32, [⟨0, 32, .rc, 0⟩]⟩
  | .CAT_ERRCNT => ⟨0xA0000C, 1, 0x0, 1, 0x0, 32, [⟨24, 8, .rc, 0⟩, ⟨16, 8, .rc, 0⟩, ⟨0, 16, .rc, 0⟩]⟩
  | .CAT_VOID_REG => ⟨0xA00020, 1, 0x0, 1, 0x0, 64, [⟨63, 1, .wo, 0⟩, ⟨56, 6, .wo, 0⟩, ⟨0, 30, .wo, 0⟩]⟩
  | .CAT_TAB_BASE => ⟨0xA00100, 64, 0x20, 1, 0x0, 64, [⟨48, 16, .rwl, 0x3f80⟩, ⟨6, 31, .rwl, 0⟩]⟩
  | .CAT_TAB_VMAP => ⟨0xA00108, 64, 0x20, 1, 0x0, 64, [⟨6, 31, .rwl, 0⟩]⟩
  | .CAT_TAB_AUX => ⟨0xA00110, 64, 0x20, 1, 0x0, 64, [⟨48, 16, .rwl, 0⟩, ⟨6, 31, .rwl, 0⟩]⟩
  | .CAT_TAB_FMT => ⟨0xA00118, 64, 0x20, 1, 0x0, 32, [⟨31, 1, .rwl, 0⟩, ⟨29, 2, .rwl, 0⟩, ⟨27, 2, .rwl, 0⟩, ⟨16, 11, .rwl, 0⟩, ⟨11, 5, .rwl, 0⟩, ⟨0, 4, .rwl, 0⟩]⟩
  | .CAT_TAB_ROWS => ⟨0xA0011C, 64, 0x20, 1, 0x0, 32, [⟨0, 31, .rwl, 1⟩]⟩
  | .CAT_CTX => ⟨0xA01000, 16, 0x20, 4, 0x8, 64, [⟨0, 64, .ro, 0⟩]⟩
  | .MS_STAT => ⟨0x700000, 1, 0x0, 1, 0x0, 32, [⟨16, 16, .rc, 0⟩, ⟨0, 16, .rc, 0⟩]⟩
  | .MS_COUNT => ⟨0x740000, 16384, 0x10, 1, 0x0, 32, [⟨0, 32, .rw, 0⟩]⟩
  | .MS_TARGET => ⟨0x740004, 16384, 0x10, 1, 0x0, 32, [⟨0, 32, .rw, 0⟩]⟩
  | .MS_CFG => ⟨0x740008, 16384, 0x10, 1, 0x0, 32, [⟨29, 3, .ro, 0⟩, ⟨28, 1, .ro, 0⟩, ⟨27, 1, .rw, 0⟩, ⟨0, 16, .rw, 0⟩]⟩
  | .MS_ARRIVE_REG => ⟨0x74000C, 16384, 0x10, 1, 0x0, 32, [⟨0, 16, .wo, 0⟩]⟩
  | .WAY_STAT => ⟨0x800000, 1, 0x0, 1, 0x0, 32, [⟨30, 2, .ro, 0⟩, ⟨23, 7, .ro, 0⟩, ⟨15, 8, .ro, 0x80⟩, ⟨0, 11, .ro, 0x780⟩]⟩
  | .WAY_HOLD => ⟨0x800004, 1, 0x0, 1, 0x0, 32, [⟨0, 16, .rw, 0⟩]⟩
  | .WAY_SYS_CFG => ⟨0x800008, 1, 0x0, 1, 0x0, 32, [⟨16, 16, .rw, 0x100⟩]⟩
  | .WAY_ERRCNT => ⟨0x80000C, 1, 0x0, 1, 0x0, 32, [⟨16, 16, .rc, 0⟩, ⟨0, 16, .rc, 0⟩]⟩
  | .WAY_TX_STAT => ⟨0x800100, 64, 0x10, 1, 0x0, 32, [⟨29, 3, .ro, 0⟩, ⟨27, 2, .ro, 0⟩, ⟨26, 1, .ro, 0⟩, ⟨24, 2, .ro, 0⟩, ⟨0, 16, .ro, 0⟩]⟩
  | .WAY_TX_SIZE => ⟨0x800104, 64, 0x10, 1, 0x0, 32, [⟨16, 11, .ro, 0⟩, ⟨0, 11, .ro, 0⟩]⟩
  | .WAY_TX_POINT => ⟨0x800108, 64, 0x10, 1, 0x0, 64, [⟨0, 64, .ro, 0⟩]⟩
  | .TALLY_STAT => ⟨0x800600, 1, 0x0, 1, 0x0, 32, [⟨31, 1, .w1c, 0⟩, ⟨30, 1, .ro, 0⟩, ⟨0, 16, .rc, 0⟩]⟩
  | .TALLY_LOG => ⟨0x800608, 1, 0x0, 1, 0x0, 64, [⟨63, 1, .w1c, 0⟩, ⟨60, 3, .ro, 0⟩, ⟨32, 16, .ro, 0⟩, ⟨0, 32, .ro, 0⟩]⟩
  | .TALLY_CNT => ⟨0x800610, 1, 0x0, 1, 0x0, 32, [⟨0, 32, .ro, 0⟩]⟩
  | .DMA_SRC => ⟨0x600000, 64, 0x100, 1, 0x0, 64, [⟨0, 64, .rw, 0⟩]⟩
  | .DMA_DST => ⟨0x600008, 64, 0x100, 1, 0x0, 64, [⟨0, 64, .rw, 0⟩]⟩
  | .DMA_COUNT => ⟨0x600010, 64, 0x100, 1, 0x0, 32, [⟨0, 32, .rw, 0⟩]⟩
  | .DMA_NEXT => ⟨0x60001C, 64, 0x100, 1, 0x0, 32, [⟨31, 1, .rw, 0⟩, ⟨0, 20, .rw, 0⟩]⟩
  | .DMA_CTRL => ⟨0x600014, 64, 0x100, 1, 0x0, 32, [⟨24, 3, .rw, 0⟩, ⟨16, 8, .rw, 0⟩, ⟨15, 1, .rw, 0⟩, ⟨14, 1, .rw, 0⟩, ⟨13, 1, .rw, 0⟩, ⟨12, 1, .rw, 0⟩, ⟨9, 3, .rw, 0⟩, ⟨6, 3, .rw, 0⟩, ⟨3, 3, .rw, 0⟩, ⟨0, 3, .rw, 0⟩]⟩
  | .DMA_SHUF => ⟨0x600018, 64, 0x100, 1, 0x0, 32, [⟨12, 20, .rw, 0⟩, ⟨8, 4, .rw, 0⟩, ⟨4, 2, .rw, 0⟩, ⟨0, 4, .rw, 0⟩]⟩
  | .DMA_CMD => ⟨0x600020, 64, 0x100, 1, 0x0, 32, [⟨3, 1, .wo, 0⟩, ⟨2, 1, .wo, 0⟩, ⟨1, 1, .wo, 0⟩, ⟨0, 1, .wo, 0⟩]⟩
  | .DMA_PRIO => ⟨0x600024, 64, 0x100, 1, 0x0, 32, [⟨0, 3, .rw, 0⟩]⟩
  | .DMA_STAT => ⟨0x600028, 64, 0x100, 1, 0x0, 32, [⟨29, 3, .ro, 0⟩, ⟨28, 1, .w1c, 0⟩, ⟨24, 4, .ro, 0⟩, ⟨16, 8, .ro, 0⟩, ⟨8, 8, .rc, 0⟩]⟩
  | .DMA_CUR => ⟨0x600030, 64, 0x100, 1, 0x0, 64, [⟨32, 32, .ro, 0⟩, ⟨31, 1, .ro, 0⟩, ⟨0, 20, .ro, 0⟩]⟩
  | .DMA_ROUTE => ⟨0x608000, 256, 0x4, 1, 0x0, 32, [⟨30, 2, .rw, 0⟩, ⟨16, 14, .rw, 0⟩, ⟨15, 1, .rw, 0⟩, ⟨14, 1, .rw, 0⟩, ⟨0, 14, .rw, 0⟩]⟩
  | .DMA_TMR => ⟨0x609000, 16, 0x4, 1, 0x0, 32, [⟨31, 1, .rw, 0⟩, ⟨0, 31, .rw, 0x3e8⟩]⟩
  | .DEP_BANK_OWNER => ⟨0x500000, 1, 0x0, 1, 0x0, 32, [⟨31, 1, .wo, 0⟩, ⟨24, 3, .wo, 0⟩, ⟨0, 16, .wo, 0⟩]⟩
  | .DEP_OWNERS => ⟨0x500008, 1, 0x0, 1, 0x0, 64, [⟨0, 64, .ro, 0⟩]⟩
  | .DEP_STAT => ⟨0x500010, 1, 0x0, 1, 0x0, 32, [⟨16, 16, .rc, 0⟩, ⟨0, 16, .rc, 0⟩]⟩
  | .DEP_BANK_PRIO => ⟨0x500100, 16, 0x8, 1, 0x0, 64, [⟨0, 64, .ro, 0xfedcba9876543210⟩]⟩
  | .CMD_STAT => ⟨0x100000, 1, 0x0, 1, 0x0, 32, [⟨31, 1, .ro, 0⟩, ⟨0, 9, .ro, 0⟩]⟩
  | .CMD_NET_STAT => ⟨0x100004, 1, 0x0, 1, 0x0, 32, [⟨24, 8, .rc, 0⟩, ⟨16, 8, .rc, 0⟩, ⟨8, 8, .rc, 0⟩, ⟨0, 8, .rc, 0⟩]⟩
  | .CMD_SQ_BASE => ⟨0x101000, 64, 0x40, 1, 0x0, 64, [⟨12, 52, .rw, 0⟩]⟩
  | .CMD_CQ_BASE => ⟨0x101008, 64, 0x40, 1, 0x0, 64, [⟨12, 52, .rw, 0⟩]⟩
  | .CMD_Q_CFG => ⟨0x101010, 64, 0x40, 1, 0x0, 32, [⟨31, 1, .rw, 0⟩, ⟨24, 4, .rw, 0⟩, ⟨16, 4, .rw, 0⟩, ⟨15, 1, .rw, 0⟩, ⟨0, 7, .rw, 0⟩]⟩
  | .CMD_SQ_TAIL => ⟨0x101014, 64, 0x40, 1, 0x0, 32, [⟨0, 12, .rw, 0⟩]⟩
  | .CMD_CQ_HEAD => ⟨0x101018, 64, 0x40, 1, 0x0, 32, [⟨0, 12, .rw, 0⟩]⟩
  | .CMD_Q_STAT => ⟨0x10101C, 64, 0x40, 1, 0x0, 32, [⟨31, 1, .ro, 1⟩, ⟨30, 1, .w1c, 0⟩, ⟨29, 1, .w1c, 0⟩, ⟨12, 9, .ro, 0⟩, ⟨0, 12, .ro, 0⟩]⟩
  | .CMD_EGR_BASE => ⟨0x103000, 16, 0x40, 1, 0x0, 64, [⟨12, 52, .ro, 0⟩, ⟨0, 5, .ro, 0⟩]⟩
  | .CMD_EGR_HEAD => ⟨0x103008, 16, 0x40, 1, 0x0, 64, [⟨0, 64, .rw, 0⟩]⟩
  | .CMD_EGR_TAIL => ⟨0x103010, 16, 0x40, 1, 0x0, 64, [⟨0, 64, .ro, 0⟩]⟩
  | .CMD_EGR_STAT => ⟨0x103018, 16, 0x40, 1, 0x0, 32, [⟨31, 1, .ro, 0⟩, ⟨0, 16, .rc, 0⟩]⟩
  | .NET_CFG => ⟨0xF00000, 4, 0x100, 1, 0x0, 32, [⟨31, 1, .rw, 0⟩, ⟨28, 3, .rw, 0⟩, ⟨27, 1, .rw, 0⟩, ⟨24, 3, .rw, 0⟩, ⟨12, 12, .rw, 0⟩, ⟨0, 6, .rw, 0x18⟩]⟩
  | .NET_IP => ⟨0xF00004, 4, 0x100, 1, 0x0, 32, [⟨0, 32, .rw, 0⟩]⟩
  | .NET_GW => ⟨0xF00008, 4, 0x100, 1, 0x0, 32, [⟨0, 32, .rw, 0⟩]⟩
  | .NET_MAC => ⟨0xF00010, 4, 0x100, 1, 0x0, 64, [⟨0, 48, .ro, 0⟩]⟩
  | .NET_STAT => ⟨0xF00018, 4, 0x100, 1, 0x0, 32, [⟨30, 2, .ro, 0⟩, ⟨27, 3, .ro, 0⟩, ⟨26, 1, .ro, 0⟩]⟩
  | .NET_ERRCNT => ⟨0xF0001C, 4, 0x100, 1, 0x0, 32, [⟨24, 8, .rc, 0⟩, ⟨16, 8, .rc, 0⟩, ⟨8, 8, .rc, 0⟩, ⟨0, 8, .rc, 0⟩]⟩
  | .NET_PTP_CFG => ⟨0xF00800, 1, 0x0, 1, 0x0, 32, [⟨31, 1, .rw, 0⟩, ⟨28, 3, .rw, 0⟩, ⟨27, 1, .rw, 0⟩, ⟨16, 7, .rw, 0⟩]⟩
  | .NET_PTP_STAT => ⟨0xF00804, 1, 0x0, 1, 0x0, 32, [⟨29, 3, .ro, 0⟩, ⟨28, 1, .ro, 0⟩]⟩
  | .NET_PTP_OFFSET => ⟨0xF00808, 1, 0x0, 1, 0x0, 32, [⟨0, 32, .ro, 0⟩]⟩
  | .NET_GV_LEAD => ⟨0xF00900, 1, 0x0, 1, 0x0, 32, [⟨0, 20, .rw, 0x4e20⟩]⟩
  | .NET_GV_CFG => ⟨0xF01400, 16, 0x10, 1, 0x0, 32, [⟨31, 1, .rw, 0⟩, ⟨29, 2, .rw, 0⟩, ⟨0, 16, .rw, 0⟩]⟩
  | .NET_GV_SRC => ⟨0xF01404, 16, 0x10, 1, 0x0, 32, [⟨0, 32, .rw, 0⟩]⟩
  | .NET_GV_ACT => ⟨0xF01408, 16, 0x10, 1, 0x0, 64, [⟨32, 32, .rw, 0⟩, ⟨0, 32, .rw, 0⟩]⟩
  | .NET_RS_DST => ⟨0xF01000, 16, 0x20, 1, 0x0, 64, [⟨32, 16, .rw, 0⟩, ⟨0, 32, .rw, 0⟩]⟩
  | .NET_RS_CFG => ⟨0xF01008, 16, 0x20, 1, 0x0, 32, [⟨31, 1, .rw, 0⟩, ⟨30, 1, .rw, 0⟩, ⟨27, 3, .rw, 0⟩, ⟨25, 2, .rw, 0⟩, ⟨16, 7, .rw, 0⟩, ⟨0, 16, .rw, 0⟩]⟩
  | .NET_RS_LEN => ⟨0xF0100C, 16, 0x20, 1, 0x0, 32, [⟨16, 16, .rw, 0x64⟩, ⟨0, 14, .rw, 0x230c⟩]⟩
  | .NET_RS_STAT => ⟨0xF01010, 16, 0x20, 1, 0x0, 32, [⟨16, 16, .rc, 0⟩, ⟨0, 16, .rc, 0⟩]⟩
  | .PLB_CFG => ⟨0xF40000, 2, 0x100, 1, 0x0, 32, [⟨31, 1, .rw, 0⟩, ⟨30, 1, .rw, 1⟩, ⟨29, 1, .rw, 0⟩, ⟨16, 8, .rw, 8⟩, ⟨8, 8, .rw, 0xff⟩, ⟨0, 6, .rw, 0x18⟩]⟩
  | .PLB_IP => ⟨0xF40004, 2, 0x100, 1, 0x0, 32, [⟨0, 32, .rw, 0⟩]⟩
  | .PLB_MAC => ⟨0xF40008, 2, 0x100, 1, 0x0, 64, [⟨0, 48, .ro, 0⟩]⟩
  | .PLB_STAT => ⟨0xF40010, 2, 0x100, 1, 0x0, 32, [⟨30, 2, .ro, 0⟩, ⟨29, 1, .w1c, 0⟩, ⟨28, 1, .w1c, 0⟩, ⟨27, 1, .w1c, 0⟩, ⟨26, 1, .w1c, 0⟩]⟩
  | .PLB_ERRCNT => ⟨0xF40014, 2, 0x100, 1, 0x0, 32, [⟨24, 8, .rc, 0⟩, ⟨16, 8, .rc, 0⟩, ⟨8, 8, .rc, 0⟩, ⟨0, 8, .rc, 0⟩]⟩
  | .PLB_HINT => ⟨0xF40800, 1, 0x0, 1, 0x0, 64, [⟨63, 1, .ro, 0⟩, ⟨62, 1, .w1c, 0⟩, ⟨60, 2, .ro, 0⟩, ⟨50, 10, .ro, 0⟩, ⟨0, 32, .ro, 0⟩]⟩
  | .JCT_SYS => ⟨0xF80000, 1, 0x0, 1, 0x0, 32, [⟨16, 8, .rw, 0⟩, ⟨0, 16, .rw, 0⟩]⟩
  | .JCT_SYNC => ⟨0xF80004, 1, 0x0, 1, 0x0, 32, [⟨16, 8, .rw, 0⟩, ⟨4, 4, .ro, 0⟩, ⟨0, 4, .wo, 0⟩]⟩
  | .JCT_ODO_DIFF => ⟨0xF80008, 4, 0x8, 1, 0x0, 64, [⟨63, 1, .ro, 0⟩, ⟨0, 48, .ro, 0⟩]⟩
  | .JCT_CFG => ⟨0xF80100, 4, 0x40, 1, 0x0, 32, [⟨31, 1, .rw, 0⟩, ⟨24, 4, .rw, 0xf⟩]⟩
  | .JCT_STAT => ⟨0xF80104, 4, 0x40, 1, 0x0, 32, [⟨29, 3, .ro, 0⟩, ⟨26, 3, .ro, 0⟩, ⟨25, 1, .ro, 0⟩, ⟨20, 4, .ro, 0⟩, ⟨0, 8, .ro, 0⟩]⟩
  | .JCT_ERRCNT => ⟨0xF80108, 4, 0x40, 1, 0x0, 32, [⟨24, 8, .rc, 0⟩, ⟨16, 8, .rc, 0⟩, ⟨8, 8, .rc, 0⟩, ⟨0, 8, .rc, 0⟩]⟩
  | .JCT_RSV => ⟨0xF8010C, 4, 0x40, 1, 0x0, 32, [⟨16, 16, .ro, 0⟩, ⟨0, 16, .ro, 0⟩]⟩
  | .JCT_ROUTE => ⟨0xF81000, 256, 0x4, 1, 0x0, 32, [⟨31, 1, .rw, 0⟩, ⟨6, 1, .rw, 0⟩, ⟨4, 2, .rw, 0⟩, ⟨0, 2, .rw, 0⟩]⟩
  | .RAS_STAT => ⟨0xE00000, 1, 0x0, 1, 0x0, 32, [⟨31, 1, .w1c, 0⟩, ⟨30, 1, .w1c, 0⟩, ⟨29, 1, .w1c, 0⟩, ⟨16, 7, .ro, 0x40⟩, ⟨0, 16, .ro, 0⟩]⟩
  | .RAS_SCRUB_CFG => ⟨0xE00004, 1, 0x0, 1, 0x0, 32, [⟨24, 8, .rw, 6⟩, ⟨16, 8, .rw, 0x64⟩, ⟨8, 8, .rw, 0x64⟩, ⟨0, 8, .rw, 0x64⟩]⟩
  | .RAS_SCRUB_STAT => ⟨0xE00008, 1, 0x0, 1, 0x0, 32, [⟨31, 1, .w1c, 0⟩, ⟨30, 1, .w1c, 0⟩, ⟨29, 1, .w1c, 0⟩, ⟨28, 1, .w1c, 0⟩, ⟨0, 16, .ro, 0⟩]⟩
  | .RAS_SELFCHK => ⟨0xE0000C, 1, 0x0, 1, 0x0, 32, [⟨24, 8, .rc, 0⟩, ⟨16, 8, .rc, 0⟩, ⟨8, 8, .rc, 0⟩, ⟨0, 8, .rc, 0⟩]⟩
  | .RAS_ECC_CNT => ⟨0xE00010, 8, 0x4, 1, 0x0, 32, [⟨16, 16, .rc, 0⟩, ⟨0, 16, .rc, 0⟩]⟩
  | .RAS_UE_LOG => ⟨0xE00040, 1, 0x0, 1, 0x0, 64, [⟨63, 1, .w1c, 0⟩, ⟨60, 3, .ro, 0⟩, ⟨59, 1, .ro, 0⟩, ⟨0, 32, .ro, 0⟩]⟩
  | .RAS_UE_ADDR => ⟨0xE00048, 1, 0x0, 1, 0x0, 64, [⟨0, 64, .ro, 0⟩]⟩
  | .RAS_AEL_STAT => ⟨0xE00050, 1, 0x0, 1, 0x0, 32, [⟨16, 16, .rc, 0⟩, ⟨0, 6, .ro, 0⟩]⟩
  | .RAS_BIST_CTRL => ⟨0xE00100, 1, 0x0, 1, 0x0, 32, [⟨31, 1, .wo, 0⟩, ⟨30, 1, .wo, 0⟩, ⟨0, 6, .wo, 0⟩]⟩
  | .RAS_BIST_STAT => ⟨0xE00104, 1, 0x0, 1, 0x0, 32, [⟨30, 2, .ro, 0⟩, ⟨29, 1, .ro, 0⟩, ⟨28, 1, .ro, 0⟩, ⟨16, 6, .ro, 0⟩, ⟨0, 16, .ro, 0⟩]⟩
  | .RAS_BIST_FAIL => ⟨0xE00108, 1, 0x0, 1, 0x0, 32, [⟨0, 32, .ro, 0⟩]⟩
  | .RAS_SUBST => ⟨0xE00110, 2, 0x4, 1, 0x0, 32, [⟨31, 1, .rwl, 0⟩, ⟨30, 1, .ro, 0⟩, ⟨29, 1, .ro, 0⟩, ⟨0, 6, .rwl, 0⟩]⟩
  | .RAS_PMIG => ⟨0xE00120, 1, 0x0, 1, 0x0, 64, [⟨63, 1, .rw, 0⟩, ⟨60, 2, .rw, 0⟩, ⟨32, 14, .rw, 0⟩, ⟨0, 14, .rw, 0⟩]⟩
  | .RAS_HOLD => ⟨0xE00130, 4, 0x4, 1, 0x0, 32, [⟨31, 1, .rw, 0⟩, ⟨30, 1, .w1c, 0⟩, ⟨29, 1, .ro, 0⟩, ⟨16, 4, .rw, 0⟩, ⟨0, 6, .rw, 0⟩]⟩
  | .RAS_RETIRED => ⟨0xE00200, 34, 0x4, 1, 0x0, 32, [⟨0, 32, .rwl, 0⟩]⟩
  | .RAS_DETOUR => ⟨0xE00300, 64, 0x4, 1, 0x0, 32, [⟨31, 1, .ro, 0⟩, ⟨16, 11, .ro, 0⟩, ⟨0, 11, .ro, 0⟩]⟩
  | .PWR_STAT => ⟨0xB00000, 1, 0x0, 1, 0x0, 32, [⟨30, 2, .ro, 0⟩, ⟨29, 1, .ro, 0⟩, ⟨28, 1, .w1c, 0⟩, ⟨27, 1, .w1c, 0⟩, ⟨26, 1, .w1c, 0⟩]⟩
  | .PWR_DSTATE => ⟨0xB00004, 1, 0x0, 1, 0x0, 32, [⟨31, 1, .wo, 0⟩, ⟨0, 2, .wo, 0⟩]⟩
  | .PWR_WAKE_CFG => ⟨0xB00008, 1, 0x0, 1, 0x0, 32, [⟨31, 1, .rw, 1⟩, ⟨30, 1, .rw, 1⟩, ⟨29, 1, .rw, 1⟩, ⟨28, 1, .rw, 0⟩, ⟨0, 7, .rw, 0x3a⟩]⟩
  | .PWR_WAKE_STAT => ⟨0xB0000C, 1, 0x0, 1, 0x0, 32, [⟨31, 1, .w1c, 0⟩, ⟨28, 3, .ro, 0⟩, ⟨0, 16, .rc, 0⟩]⟩
  | .PWR_WAKE_TIME => ⟨0xB00010, 1, 0x0, 1, 0x0, 64, [⟨0, 64, .rw, 0⟩]⟩
  | .PWR_AON_TIME => ⟨0xB00018, 1, 0x0, 1, 0x0, 64, [⟨0, 64, .ro, 0⟩]⟩
  | .PWR_TOLL => ⟨0xB00020, 1, 0x0, 1, 0x0, 32, [⟨20, 10, .rw, 0x32⟩, ⟨16, 4, .ro, 8⟩, ⟨8, 8, .ro, 0⟩, ⟨0, 8, .ro, 0⟩]⟩
  | .PWR_RAIL => ⟨0xB00024, 1, 0x0, 1, 0x0, 32, [⟨16, 8, .w1c, 0⟩, ⟨0, 8, .ro, 0⟩]⟩
  | .PWR_LIMIT => ⟨0xB00028, 1, 0x0, 1, 0x0, 32, [⟨16, 16, .ro, 0xfa⟩, ⟨0, 16, .rw, 0xfa⟩]⟩
  | .PWR_THROT => ⟨0xB0002C, 1, 0x0, 1, 0x0, 32, [⟨31, 1, .w1c, 0⟩, ⟨30, 1, .w1c, 0⟩, ⟨29, 1, .w1c, 0⟩, ⟨0, 16, .rc, 0⟩]⟩
  | .PWR_COL => ⟨0xB00100, 34, 0x4, 1, 0x0, 32, [⟨30, 2, .rwl, 3⟩, ⟨27, 3, .rwl, 7⟩, ⟨21, 3, .ro, 7⟩, ⟨20, 1, .ro, 0⟩, ⟨18, 2, .ro, 3⟩, ⟨17, 1, .ro, 0⟩, ⟨16, 1, .ro, 0⟩]⟩
  | .PWR_DOM => ⟨0xB00200, 15, 0x4, 1, 0x0, 32, [⟨31, 1, .rwl, 1⟩, ⟨29, 2, .ro, 0⟩]⟩
  | .CLK_STAT => ⟨0xC00000, 1, 0x0, 1, 0x0, 32, [⟨30, 2, .ro, 0⟩, ⟨29, 1, .w1c, 0⟩, ⟨28, 1, .w1c, 0⟩, ⟨8, 8, .ro, 0⟩]⟩
  | .CLK_REF_CNT => ⟨0xC00004, 1, 0x0, 1, 0x0, 32, [⟨16, 16, .rc, 0⟩, ⟨0, 16, .rc, 0⟩]⟩
  | .CLK_REF_CFG => ⟨0xC00008, 1, 0x0, 1, 0x0, 32, [⟨0, 16, .rw, 0x64⟩]⟩
  | .CLK_MC => ⟨0xC0000C, 1, 0x0, 1, 0x0, 32, [⟨0, 1, .rw, 0⟩]⟩
  | .CLK_COL => ⟨0xC00100, 34, 0x4, 1, 0x0, 32, [⟨31, 1, .ro, 0⟩, ⟨16, 11, .ro, 0⟩]⟩
  | .CAL_STAT => ⟨0xD00000, 1, 0x0, 1, 0x0, 32, [⟨31, 1, .ro, 0⟩, ⟨30, 1, .ro, 0⟩, ⟨16, 9, .ro, 0⟩, ⟨0, 9, .ro, 0⟩]⟩
  | .CAL_CFG => ⟨0xD00004, 1, 0x0, 1, 0x0, 32, [⟨24, 5, .rw, 6⟩, ⟨16, 8, .rw, 0x18⟩, ⟨8, 8, .rw, 8⟩]⟩
  | .CAL_COUNT => ⟨0xD00008, 1, 0x0, 1, 0x0, 32, [⟨0, 32, .ro, 0⟩]⟩
  | .CAL_TRIG => ⟨0xD0000C, 1, 0x0, 1, 0x0, 32, [⟨0, 9, .wo, 0⟩]⟩
  | .CAL_LAST_TIME => ⟨0xD00010, 1, 0x0, 1, 0x0, 64, [⟨0, 64, .ro, 0⟩]⟩
  | .CAL_HOLD => ⟨0xD00018, 1, 0x0, 1, 0x0, 32, [⟨0, 12, .rw, 0x3c⟩]⟩
  | .CAL_ITEM_CFG => ⟨0xD00100, 9, 0x20, 1, 0x0, 32, [⟨0, 8, .rw, 0⟩]⟩
  | .CAL_ITEM_STAT => ⟨0xD00104, 9, 0x20, 1, 0x0, 32, [⟨31, 1, .ro, 0⟩, ⟨30, 1, .ro, 0⟩, ⟨29, 1, .ro, 0⟩, ⟨0, 11, .ro, 0⟩]⟩
  | .CAL_RES0 => ⟨0xD00108, 9, 0x20, 1, 0x0, 32, [⟨16, 16, .ro, 0⟩, ⟨0, 16, .ro, 0⟩]⟩
  | .CAL_RES1 => ⟨0xD0010C, 9, 0x20, 1, 0x0, 32, [⟨16, 16, .ro, 0⟩, ⟨0, 16, .ro, 0⟩]⟩
  | .CAL_RES2 => ⟨0xD00110, 9, 0x20, 1, 0x0, 32, [⟨0, 16, .ro, 0⟩]⟩
  | .CAL_RES3 => ⟨0xD00114, 9, 0x20, 1, 0x0, 32, [⟨0, 32, .ro, 0⟩]⟩
  | .CAL_TAB_ADDR => ⟨0xD00040, 1, 0x0, 1, 0x0, 32, [⟨28, 4, .rw, 0⟩, ⟨27, 1, .rw, 0⟩, ⟨24, 3, .rw, 0⟩, ⟨23, 1, .rw, 0⟩, ⟨0, 11, .rw, 0⟩]⟩
  | .CAL_TAB_DATA => ⟨0xD00044, 1, 0x0, 1, 0x0, 32, [⟨0, 16, .rw, 0⟩]⟩
  | .MC_STAT => ⟨0x2000000, 1, 0x0, 1, 0x0, 32, [⟨31, 1, .ro, 0⟩, ⟨29, 2, .ro, 0⟩, ⟨27, 2, .ro, 2⟩, ⟨26, 1, .ro, 0⟩, ⟨25, 1, .ro, 0⟩, ⟨24, 1, .ro, 0⟩, ⟨0, 16, .rc, 0⟩]⟩
  | .MC_CTRL => ⟨0x2000004, 1, 0x0, 1, 0x0, 32, [⟨0, 1, .rwl, 0⟩]⟩
  | .MC_RECOV => ⟨0x2000008, 1, 0x0, 1, 0x0, 32, [⟨16, 16, .rwl, 0⟩, ⟨0, 16, .rwl, 0⟩]⟩
  | .MC_BSENSE => ⟨0x2000020, 8, 0x4, 1, 0x0, 32, [⟨31, 1, .ro, 0⟩, ⟨30, 1, .w1c, 0⟩, ⟨16, 12, .ro, 0⟩, ⟨0, 16, .ro, 0⟩]⟩
  | .SEC_STAT => ⟨0x2001000, 1, 0x0, 1, 0x0, 32, [⟨30, 2, .ro, 0⟩, ⟨29, 1, .ro, 0⟩, ⟨25, 4, .ro, 0⟩, ⟨22, 3, .ro, 0⟩, ⟨13, 9, .ro, 0⟩, ⟨12, 1, .ro, 0⟩, ⟨8, 4, .ro, 0⟩, ⟨0, 8, .ro, 0⟩]⟩
  | .SEC_FLOOR => ⟨0x2001004, 1, 0x0, 1, 0x0, 32, [⟨8, 7, .ro, 0⟩, ⟨0, 7, .ro, 0⟩]⟩
  | .SEC_SERIAL => ⟨0x2001008, 1, 0x0, 1, 0x0, 64, [⟨0, 64, .ro, 0⟩]⟩
  | .SEC_DEVPUB => ⟨0x2001040, 24, 0x4, 1, 0x0, 32, [⟨0, 32, .ro, 0⟩]⟩
  | .DEV_START => ⟨0x100, 1, 0x0, 1, 0x0, 32, [⟨28, 4, .ro, 0⟩, ⟨23, 1, .ro, 0⟩, ⟨22, 1, .ro, 0⟩, ⟨21, 1, .ro, 0⟩, ⟨20, 1, .ro, 0⟩, ⟨19, 1, .ro, 0⟩, ⟨18, 1, .ro, 0⟩, ⟨17, 1, .ro, 0⟩, ⟨16, 1, .ro, 0⟩, ⟨0, 16, .ro, 0⟩]⟩
  | .DEV_FUSE => ⟨0x104, 1, 0x0, 1, 0x0, 32, [⟨0, 10, .ro, 0⟩]⟩
  | .DEV_BOOT_SLEW => ⟨0x108, 1, 0x0, 1, 0x0, 32, [⟨31, 1, .ro, 0⟩, ⟨0, 10, .ro, 0⟩]⟩
  | .RAS_AEL0 => ⟨0xE01000, 64, 0x10, 1, 0x0, 32, [⟨0, 32, .ro, 0⟩]⟩
  | .RAS_AEL1 => ⟨0xE01004, 64, 0x10, 1, 0x0, 32, [⟨28, 2, .ro, 0⟩, ⟨0, 28, .ro, 0⟩]⟩
  | .RAS_AEL2 => ⟨0xE01008, 64, 0x10, 1, 0x0, 32, [⟨16, 16, .ro, 0⟩, ⟨8, 8, .ro, 0⟩, ⟨0, 8, .ro, 0⟩]⟩
  | .RAS_AEL3 => ⟨0xE0100C, 64, 0x10, 1, 0x0, 32, [⟨0, 32, .ro, 0⟩]⟩
  | .ING_CONN_PIXFMT => ⟨0x200008, 16, 0x40, 1, 0x0, 32, [⟨0, 32, .ro, 0⟩]⟩
  | .ODO_SEG_NUM => ⟨0x400808, 1, 0x0, 1, 0x0, 64, [⟨0, 64, .ro, 0⟩]⟩
  | .REF_ST => ⟨0x300100, 16, 0x10000, 36, 0x8, 64, [⟨0, 64, .ro, 0⟩]⟩

namespace F
abbrev DEV_ID_PART : Fld := ⟨.DEV_ID, 16, 16⟩
abbrev DEV_ID_REV : Fld := ⟨.DEV_ID, 8, 8⟩
abbrev DEV_ID_STEP : Fld := ⟨.DEV_ID, 0, 8⟩
abbrev DEV_LAYBY_LAYBY_B : Fld := ⟨.DEV_LAYBY, 8, 6⟩
abbrev DEV_LAYBY_LAYBY_A : Fld := ⟨.DEV_LAYBY, 0, 6⟩
abbrev DEV_CAPS_HBM_GIB : Fld := ⟨.DEV_CAPS, 24, 8⟩
abbrev DEV_CAPS_HBM_STACKS : Fld := ⟨.DEV_CAPS, 21, 3⟩
abbrev DEV_CAPS_INGRESS : Fld := ⟨.DEV_CAPS, 16, 5⟩
abbrev DEV_CAPS_ROWS : Fld := ⟨.DEV_CAPS, 8, 8⟩
abbrev DEV_CAPS_COLS : Fld := ⟨.DEV_CAPS, 0, 8⟩
abbrev DEV_APERTURE_BASE_GIB : Fld := ⟨.DEV_APERTURE, 0, 7⟩
abbrev DEV_MEAS_ENERGY_VALID : Fld := ⟨.DEV_MEAS_ENERGY, 31, 1⟩
abbrev DEV_MEAS_ENERGY_FJ_PER_CELL : Fld := ⟨.DEV_MEAS_ENERGY, 0, 16⟩
abbrev DEV_MEAS_MOVE_VALID : Fld := ⟨.DEV_MEAS_MOVE, 31, 1⟩
abbrev DEV_MEAS_MOVE_RATIO_MILLI : Fld := ⟨.DEV_MEAS_MOVE, 0, 16⟩
abbrev DEV_MEAS_HBM_HI_VALID : Fld := ⟨.DEV_MEAS_HBM, 26, 1⟩
abbrev DEV_MEAS_HBM_HI_MILLI : Fld := ⟨.DEV_MEAS_HBM, 16, 10⟩
abbrev DEV_MEAS_HBM_LO_VALID : Fld := ⟨.DEV_MEAS_HBM, 10, 1⟩
abbrev DEV_MEAS_HBM_LO_MILLI : Fld := ⟨.DEV_MEAS_HBM, 0, 10⟩
abbrev DEV_MEAS_SEQ_SEQ : Fld := ⟨.DEV_MEAS_SEQ, 0, 32⟩
abbrev ING_CONN_CFG_STATE : Fld := ⟨.ING_CONN_CFG, 29, 3⟩
abbrev ING_CONN_CFG_UNIT : Fld := ⟨.ING_CONN_CFG, 24, 4⟩
abbrev ING_CONN_CFG_STEERED : Fld := ⟨.ING_CONN_CFG, 23, 1⟩
abbrev ING_CONN_CFG_SPEED : Fld := ⟨.ING_CONN_CFG, 16, 4⟩
abbrev ING_CONN_CFG_NLINKS : Fld := ⟨.ING_CONN_CFG, 8, 4⟩
abbrev ING_CONN_CFG_FIRST_LINK : Fld := ⟨.ING_CONN_CFG, 0, 6⟩
abbrev ING_CONN_CAPS_STD_VER : Fld := ⟨.ING_CONN_CAPS, 24, 8⟩
abbrev ING_CONN_CAPS_MAX_LINKS : Fld := ⟨.ING_CONN_CAPS, 20, 4⟩
abbrev ING_CONN_CAPS_SPEEDS : Fld := ⟨.ING_CONN_CAPS, 8, 7⟩
abbrev ING_CONN_CAPS_TAGGED : Fld := ⟨.ING_CONN_CAPS, 7, 1⟩
abbrev ING_CONN_CAPS_EVENTS : Fld := ⟨.ING_CONN_CAPS, 6, 1⟩
abbrev ING_CONN_CAPS_LINESCAN : Fld := ⟨.ING_CONN_CAPS, 5, 1⟩
abbrev ING_CONN_CNT_SPURIOUS : Fld := ⟨.ING_CONN_CNT, 16, 16⟩
abbrev ING_CONN_CNT_MISSING : Fld := ⟨.ING_CONN_CNT, 0, 16⟩
abbrev ING_LINK_TDR_VALID : Fld := ⟨.ING_LINK_TDR, 31, 1⟩
abbrev ING_LINK_TDR_KIND : Fld := ⟨.ING_LINK_TDR, 28, 3⟩
abbrev ING_LINK_TDR_LOSS_QDB : Fld := ⟨.ING_LINK_TDR, 20, 8⟩
abbrev ING_LINK_TDR_DIST_CM : Fld := ⟨.ING_LINK_TDR, 0, 16⟩
abbrev ING_TDR_CFG_PERIOD_S : Fld := ⟨.ING_TDR_CFG, 16, 8⟩
abbrev ING_TDR_CFG_VF_PERMILLE : Fld := ⟨.ING_TDR_CFG, 0, 10⟩
abbrev ODO_CFG_EN : Fld := ⟨.ODO_CFG, 31, 1⟩
abbrev ODO_CFG_INVERT : Fld := ⟨.ODO_CFG, 30, 1⟩
abbrev ODO_CFG_GLITCH_LIM : Fld := ⟨.ODO_CFG, 16, 8⟩
abbrev ODO_CFG_REV_EDGES : Fld := ⟨.ODO_CFG, 8, 8⟩
abbrev ODO_CFG_STOP_MS : Fld := ⟨.ODO_CFG, 4, 4⟩
abbrev ODO_CFG_FILT_NS : Fld := ⟨.ODO_CFG, 0, 4⟩
abbrev ODO_POS_POS : Fld := ⟨.ODO_POS, 0, 64⟩
abbrev ODO_EDGE_DT_DT_NS : Fld := ⟨.ODO_EDGE_DT, 0, 32⟩
abbrev ODO_STAT_FAULT : Fld := ⟨.ODO_STAT, 31, 1⟩
abbrev ODO_STAT_REVERSED : Fld := ⟨.ODO_STAT, 30, 1⟩
abbrev ODO_STAT_STOPPED : Fld := ⟨.ODO_STAT, 29, 1⟩
abbrev ODO_STAT_DIR : Fld := ⟨.ODO_STAT, 28, 1⟩
abbrev ODO_STAT_GLITCHES : Fld := ⟨.ODO_STAT, 0, 16⟩
abbrev ODO_TG_CFG_EN : Fld := ⟨.ODO_TG_CFG, 31, 1⟩
abbrev ODO_TG_CFG_ODO : Fld := ⟨.ODO_TG_CFG, 26, 2⟩
abbrev ODO_TG_CFG_TARGETS : Fld := ⟨.ODO_TG_CFG, 0, 16⟩
abbrev ODO_TG_PITCH_PITCH : Fld := ⟨.ODO_TG_PITCH, 0, 32⟩
abbrev ODO_TG_OFFSET_OFFSET : Fld := ⟨.ODO_TG_OFFSET, 0, 32⟩
abbrev ODO_TG_MINPER_MINPER_NS : Fld := ⟨.ODO_TG_MINPER, 0, 20⟩
abbrev ODO_SEG_CFG_HOLD_100MS : Fld := ⟨.ODO_SEG_CFG, 20, 10⟩
abbrev ODO_SEG_CFG_REFGEN : Fld := ⟨.ODO_SEG_CFG, 16, 4⟩
abbrev ODO_SEG_CFG_LINES_M1 : Fld := ⟨.ODO_SEG_CFG, 0, 16⟩
abbrev ING_RES_CFG_LINE_TO : Fld := ⟨.ING_RES_CFG, 24, 8⟩
abbrev ING_RES_CFG_CAP_LINES : Fld := ⟨.ING_RES_CFG, 0, 18⟩
abbrev ING_RES_STAT_OVF : Fld := ⟨.ING_RES_STAT, 31, 1⟩
abbrev ING_RES_STAT_SHOULDER : Fld := ⟨.ING_RES_STAT, 30, 1⟩
abbrev ING_RES_STAT_FILL : Fld := ⟨.ING_RES_STAT, 0, 18⟩
abbrev REF_GEOM_BAYER : Fld := ⟨.REF_GEOM, 12, 3⟩
abbrev REF_GEOM_KOUT_M1 : Fld := ⟨.REF_GEOM, 10, 2⟩
abbrev REF_GEOM_KIL_M1 : Fld := ⟨.REF_GEOM, 8, 2⟩
abbrev REF_GEOM_S_M1 : Fld := ⟨.REF_GEOM, 4, 4⟩
abbrev REF_GEOM_N_M1 : Fld := ⟨.REF_GEOM, 0, 3⟩
abbrev REF_CTRL_TONE_EN : Fld := ⟨.REF_CTRL, 4, 4⟩
abbrev REF_CTRL_EST_HELD : Fld := ⟨.REF_CTRL, 2, 1⟩
abbrev REF_CTRL_FORCE_HS : Fld := ⟨.REF_CTRL, 1, 1⟩
abbrev REF_CTRL_TAB_BANK : Fld := ⟨.REF_CTRL, 0, 1⟩
abbrev REF_NR_TGATE : Fld := ⟨.REF_NR, 8, 8⟩
abbrev REF_NR_SGATE : Fld := ⟨.REF_NR, 0, 8⟩
abbrev REF_NM_GAIN_NM_GAIN : Fld := ⟨.REF_NM_GAIN, 16, 16⟩
abbrev REF_NM_GAIN_NM_BLACK : Fld := ⟨.REF_NM_GAIN, 0, 16⟩
abbrev REF_NM_READ_NM_READ : Fld := ⟨.REF_NM_READ, 0, 32⟩
abbrev REF_BLACK_DYN_BLACK_DYN : Fld := ⟨.REF_BLACK_DYN, 0, 16⟩
abbrev REF_GAIN_GAIN_HI : Fld := ⟨.REF_GAIN, 16, 16⟩
abbrev REF_GAIN_GAIN_LO : Fld := ⟨.REF_GAIN, 0, 16⟩
abbrev REF_MAT_M_HI : Fld := ⟨.REF_MAT, 16, 16⟩
abbrev REF_MAT_M_LO : Fld := ⟨.REF_MAT, 0, 16⟩
abbrev REF_OFF_OFF_HI : Fld := ⟨.REF_OFF, 16, 16⟩
abbrev REF_OFF_OFF_LO : Fld := ⟨.REF_OFF, 0, 16⟩
abbrev REF_DARK_DARK_N : Fld := ⟨.REF_DARK, 16, 16⟩
abbrev REF_DARK_DARK_FIRST : Fld := ⟨.REF_DARK, 0, 16⟩
abbrev REF_SPLICE_RET8 : Fld := ⟨.REF_SPLICE, 8, 1⟩
abbrev REF_SPLICE_SEND8 : Fld := ⟨.REF_SPLICE, 7, 1⟩
abbrev REF_SPLICE_RET : Fld := ⟨.REF_SPLICE, 4, 3⟩
abbrev REF_SPLICE_SRC : Fld := ⟨.REF_SPLICE, 1, 3⟩
abbrev REF_SPLICE_EN : Fld := ⟨.REF_SPLICE, 0, 1⟩
abbrev REF_SETS_WAITED : Fld := ⟨.REF_SETS, 19, 1⟩
abbrev REF_SETS_WAITING : Fld := ⟨.REF_SETS, 18, 1⟩
abbrev REF_SETS_BANK1_BUSY : Fld := ⟨.REF_SETS, 17, 1⟩
abbrev REF_SETS_BANK0_BUSY : Fld := ⟨.REF_SETS, 16, 1⟩
abbrev REF_SETS_PEND : Fld := ⟨.REF_SETS, 8, 3⟩
abbrev REF_SETS_SLOTS_USED : Fld := ⟨.REF_SETS, 0, 3⟩
abbrev REF_CNT_GATED_GATED : Fld := ⟨.REF_CNT_GATED, 0, 32⟩
abbrev REF_CNT_LATE_LOOKS : Fld := ⟨.REF_CNT, 16, 16⟩
abbrev REF_CNT_UNFILLED : Fld := ⟨.REF_CNT, 0, 16⟩
abbrev REF_TAB_ADDR_BANK : Fld := ⟨.REF_TAB_ADDR, 24, 1⟩
abbrev REF_TAB_ADDR_WORD : Fld := ⟨.REF_TAB_ADDR, 0, 18⟩
abbrev REF_TAB_DATA_DATA : Fld := ⟨.REF_TAB_DATA, 0, 32⟩
abbrev TILE_STAT_STATE : Fld := ⟨.TILE_STAT, 29, 3⟩
abbrev TILE_STAT_LOCK_LOST : Fld := ⟨.TILE_STAT, 28, 1⟩
abbrev TILE_STAT_LOCK_FAIL : Fld := ⟨.TILE_STAT, 27, 1⟩
abbrev TILE_STAT_ON_RING : Fld := ⟨.TILE_STAT, 26, 1⟩
abbrev TILE_STAT_BAD_ARRIVAL : Fld := ⟨.TILE_STAT, 25, 1⟩
abbrev TILE_STAT_SP_WW : Fld := ⟨.TILE_STAT, 24, 1⟩
abbrev TILE_STAT_SB_BUSY : Fld := ⟨.TILE_STAT, 0, 16⟩
abbrev TILE_CTRL_SOFT_RESET : Fld := ⟨.TILE_CTRL, 31, 1⟩
abbrev TILE_CTRL_RNG_LOAD : Fld := ⟨.TILE_CTRL, 2, 1⟩
abbrev TILE_CTRL_EXC_CLR : Fld := ⟨.TILE_CTRL, 1, 1⟩
abbrev TILE_CTRL_HALT_REQ : Fld := ⟨.TILE_CTRL, 0, 1⟩
abbrev TILE_EXC_CAUSE : Fld := ⟨.TILE_EXC, 24, 8⟩
abbrev TILE_EXC_BANKS : Fld := ⟨.TILE_EXC, 0, 16⟩
abbrev TILE_EXC_PC_PC : Fld := ⟨.TILE_EXC_PC, 0, 32⟩
abbrev TILE_RATE_VALID : Fld := ⟨.TILE_RATE, 31, 1⟩
abbrev TILE_RATE_ACH_PERMILLE : Fld := ⟨.TILE_RATE, 16, 10⟩
abbrev TILE_RATE_MHZ : Fld := ⟨.TILE_RATE, 0, 11⟩
abbrev TILE_SENSE_VALID : Fld := ⟨.TILE_SENSE, 31, 1⟩
abbrev TILE_SENSE_TEMP : Fld := ⟨.TILE_SENSE, 16, 12⟩
abbrev TILE_SENSE_VOLT : Fld := ⟨.TILE_SENSE, 0, 10⟩
abbrev TILE_ERRCNT_BAD_ARRIVALS : Fld := ⟨.TILE_ERRCNT, 16, 16⟩
abbrev TILE_ERRCNT_WW : Fld := ⟨.TILE_ERRCNT, 8, 8⟩
abbrev TILE_ERRCNT_CONFLICTS : Fld := ⟨.TILE_ERRCNT, 0, 8⟩
abbrev TILE_RNG_SEED_SEED : Fld := ⟨.TILE_RNG_SEED, 0, 64⟩
abbrev TILE_RNG_STEPS_STEPS : Fld := ⟨.TILE_RNG_STEPS, 0, 64⟩
abbrev TILE_TRAF_RX_RX : Fld := ⟨.TILE_TRAF_RX, 0, 64⟩
abbrev TILE_TRAF_TX_TX : Fld := ⟨.TILE_TRAF_TX, 0, 64⟩
abbrev TILE_RB_CFG_EN : Fld := ⟨.TILE_RB_CFG, 31, 1⟩
abbrev TILE_RB_CFG_N_M1 : Fld := ⟨.TILE_RB_CFG, 16, 5⟩
abbrev TILE_RB_CFG_MEMBER : Fld := ⟨.TILE_RB_CFG, 8, 5⟩
abbrev TILE_RB_CFG_DETOURED : Fld := ⟨.TILE_RB_CFG, 0, 1⟩
abbrev TILE_RB_FWD_EN : Fld := ⟨.TILE_RB_FWD, 31, 1⟩
abbrev TILE_RB_FWD_DEST : Fld := ⟨.TILE_RB_FWD, 0, 11⟩
abbrev TILE_DBG_ADDR_SPACE : Fld := ⟨.TILE_DBG_ADDR, 30, 2⟩
abbrev TILE_DBG_ADDR_BYTE : Fld := ⟨.TILE_DBG_ADDR, 0, 18⟩
abbrev TILE_DBG_DATA_DATA : Fld := ⟨.TILE_DBG_DATA, 0, 32⟩
abbrev TILE_MAP_VALID : Fld := ⟨.TILE_MAP, 31, 1⟩
abbrev TILE_MAP_RETIRED : Fld := ⟨.TILE_MAP, 30, 1⟩
abbrev TILE_MAP_LROW : Fld := ⟨.TILE_MAP, 0, 10⟩
abbrev TILE_MSE_SQ_POISONED : Fld := ⟨.TILE_MSE_SQ, 48, 16⟩
abbrev TILE_MSE_SQ_SQ : Fld := ⟨.TILE_MSE_SQ, 0, 48⟩
abbrev TILE_MSE_CNT_SAT : Fld := ⟨.TILE_MSE_CNT, 48, 16⟩
abbrev TILE_MSE_CNT_CNT : Fld := ⟨.TILE_MSE_CNT, 0, 48⟩
abbrev TILE_CREW_SQ_POISONED : Fld := ⟨.TILE_CREW_SQ, 48, 16⟩
abbrev TILE_CREW_SQ_SQ : Fld := ⟨.TILE_CREW_SQ, 0, 48⟩
abbrev TILE_CREW_CNT_SAT : Fld := ⟨.TILE_CREW_CNT, 48, 16⟩
abbrev TILE_CREW_CNT_CNT : Fld := ⟨.TILE_CREW_CNT, 0, 48⟩
abbrev ING_STRIPE_GEOM_W_M1 : Fld := ⟨.ING_STRIPE_GEOM, 16, 11⟩
abbrev ING_STRIPE_GEOM_X0 : Fld := ⟨.ING_STRIPE_GEOM, 0, 16⟩
abbrev ING_STRIPE_HALO_JPORT : Fld := ⟨.ING_STRIPE_HALO, 20, 2⟩
abbrev ING_STRIPE_HALO_EDGE_R : Fld := ⟨.ING_STRIPE_HALO, 18, 2⟩
abbrev ING_STRIPE_HALO_EDGE_L : Fld := ⟨.ING_STRIPE_HALO, 16, 2⟩
abbrev ING_STRIPE_HALO_H_R : Fld := ⟨.ING_STRIPE_HALO, 8, 8⟩
abbrev ING_STRIPE_HALO_H_L : Fld := ⟨.ING_STRIPE_HALO, 0, 8⟩
abbrev ING_STRIPE_CREW_EN : Fld := ⟨.ING_STRIPE_CREW, 31, 1⟩
abbrev ING_STRIPE_CREW_EXPORT : Fld := ⟨.ING_STRIPE_CREW, 30, 1⟩
abbrev ING_STRIPE_CREW_OSH : Fld := ⟨.ING_STRIPE_CREW, 28, 2⟩
abbrev ING_STRIPE_CREW_SPLICE : Fld := ⟨.ING_STRIPE_CREW, 24, 2⟩
abbrev ING_STRIPE_CREW_N_M1 : Fld := ⟨.ING_STRIPE_CREW, 16, 5⟩
abbrev ING_STRIPE_CREW_HEAD : Fld := ⟨.ING_STRIPE_CREW, 8, 5⟩
abbrev ING_STRIPE_CREW_COL : Fld := ⟨.ING_STRIPE_CREW, 0, 6⟩
abbrev ING_SEAM_STAT_SEND_WAITED : Fld := ⟨.ING_SEAM_STAT, 31, 1⟩
abbrev ING_SEAM_STAT_RET_WAITED : Fld := ⟨.ING_SEAM_STAT, 30, 1⟩
abbrev ING_SEAM_STAT_HALO_LATE : Fld := ⟨.ING_SEAM_STAT, 29, 1⟩
abbrev ING_SEAM_STAT_SEND_LAG : Fld := ⟨.ING_SEAM_STAT, 16, 7⟩
abbrev ING_SEAM_STAT_RET_LEAD : Fld := ⟨.ING_SEAM_STAT, 0, 7⟩
abbrev STR_SCHED_MARGIN_MARGIN_PCT : Fld := ⟨.STR_SCHED_MARGIN, 0, 5⟩
abbrev STR_MISS_CFG_STALL_MS : Fld := ⟨.STR_MISS_CFG, 16, 8⟩
abbrev STR_MISS_CFG_TOL_NS : Fld := ⟨.STR_MISS_CFG, 0, 16⟩
abbrev STR_ARB_BE_PERMILLE : Fld := ⟨.STR_ARB, 16, 7⟩
abbrev STR_ARB_SLACK_NS : Fld := ⟨.STR_ARB, 0, 16⟩
abbrev STR_CAP_OVER : Fld := ⟨.STR_CAP, 31, 1⟩
abbrev STR_CAP_SUST_MBPS : Fld := ⟨.STR_CAP, 0, 21⟩
abbrev STR_RSV_RSV_MBPS : Fld := ⟨.STR_RSV, 0, 21⟩
abbrev STR_OUT_OUT_RSV : Fld := ⟨.STR_OUT, 16, 9⟩
abbrev STR_OUT_OUT_PEAK : Fld := ⟨.STR_OUT, 0, 10⟩
abbrev STR_OCTET_RETIRED : Fld := ⟨.STR_OCTET, 0, 4⟩
abbrev STR_MISS_LOG_VALID : Fld := ⟨.STR_MISS_LOG, 63, 1⟩
abbrev STR_MISS_LOG_KIND : Fld := ⟨.STR_MISS_LOG, 60, 3⟩
abbrev STR_MISS_LOG_ENGINE : Fld := ⟨.STR_MISS_LOG, 58, 2⟩
abbrev STR_MISS_LOG_SLOT : Fld := ⟨.STR_MISS_LOG, 50, 8⟩
abbrev STR_MISS_LOG_TILE : Fld := ⟨.STR_MISS_LOG, 39, 11⟩
abbrev STR_MISS_LOG_TIME_US : Fld := ⟨.STR_MISS_LOG, 0, 32⟩
abbrev STR_MISS_CNT_NEAR : Fld := ⟨.STR_MISS_CNT, 16, 16⟩
abbrev STR_MISS_CNT_MISSES : Fld := ⟨.STR_MISS_CNT, 0, 16⟩
abbrev STR_PMAP_ADDR_STACK : Fld := ⟨.STR_PMAP_ADDR, 16, 2⟩
abbrev STR_PMAP_ADDR_LPAGE : Fld := ⟨.STR_PMAP_ADDR, 0, 14⟩
abbrev STR_PMAP_DATA_VALID : Fld := ⟨.STR_PMAP_DATA, 31, 1⟩
abbrev STR_PMAP_DATA_PHYS : Fld := ⟨.STR_PMAP_DATA, 0, 14⟩
abbrev STR_SLOT_BASE_ADDR : Fld := ⟨.STR_SLOT_BASE, 6, 31⟩
abbrev STR_SLOT_ROW_PITCH_64 : Fld := ⟨.STR_SLOT_ROW, 12, 20⟩
abbrev STR_SLOT_ROW_ROW_64_M1 : Fld := ⟨.STR_SLOT_ROW, 0, 12⟩
abbrev STR_SLOT_ROWS_RING : Fld := ⟨.STR_SLOT_ROWS, 31, 1⟩
abbrev STR_SLOT_ROWS_ROWS_M1 : Fld := ⟨.STR_SLOT_ROWS, 0, 24⟩
abbrev STR_SLOT_RATE_EN : Fld := ⟨.STR_SLOT_RATE, 31, 1⟩
abbrev STR_SLOT_RATE_CLIENT : Fld := ⟨.STR_SLOT_RATE, 28, 3⟩
abbrev STR_SLOT_RATE_DIR : Fld := ⟨.STR_SLOT_RATE, 25, 1⟩
abbrev STR_SLOT_RATE_CLASS : Fld := ⟨.STR_SLOT_RATE, 24, 1⟩
abbrev STR_SLOT_RATE_BURST : Fld := ⟨.STR_SLOT_RATE, 21, 3⟩
abbrev STR_SLOT_RATE_RATE_MBPS : Fld := ⟨.STR_SLOT_RATE, 0, 21⟩
abbrev STR_SLOT_TILE_SPACE : Fld := ⟨.STR_SLOT_TILE, 11, 1⟩
abbrev STR_SLOT_TILE_TILE : Fld := ⟨.STR_SLOT_TILE, 0, 11⟩
abbrev STR_SLOT_BUF_LEN_M1 : Fld := ⟨.STR_SLOT_BUF, 16, 14⟩
abbrev STR_SLOT_BUF_BASE_W : Fld := ⟨.STR_SLOT_BUF, 0, 14⟩
abbrev STR_SLOT_STAT_STATE : Fld := ⟨.STR_SLOT_STAT, 29, 3⟩
abbrev STR_SLOT_STAT_NEAR : Fld := ⟨.STR_SLOT_STAT, 8, 8⟩
abbrev STR_SLOT_STAT_MISSES : Fld := ⟨.STR_SLOT_STAT, 0, 8⟩
abbrev CAT_CFG_HOST_EVERY : Fld := ⟨.CAT_CFG, 0, 8⟩
abbrev CAT_STAT_INFLIGHT : Fld := ⟨.CAT_STAT, 28, 4⟩
abbrev CAT_STAT_HOSTQ : Fld := ⟨.CAT_STAT, 16, 7⟩
abbrev CAT_STAT_TASKQ : Fld := ⟨.CAT_STAT, 0, 9⟩
abbrev CAT_DONE_DONE : Fld := ⟨.CAT_DONE, 0, 32⟩
abbrev CAT_ERRCNT_CANCELLED : Fld := ⟨.CAT_ERRCNT, 24, 8⟩
abbrev CAT_ERRCNT_REFUSED : Fld := ⟨.CAT_ERRCNT, 16, 8⟩
abbrev CAT_ERRCNT_POISONED : Fld := ⟨.CAT_ERRCNT, 0, 16⟩
abbrev CAT_VOID_REG_CLEAR : Fld := ⟨.CAT_VOID_REG, 63, 1⟩
abbrev CAT_VOID_REG_TABLE : Fld := ⟨.CAT_VOID_REG, 56, 6⟩
abbrev CAT_VOID_REG_ROW : Fld := ⟨.CAT_VOID_REG, 0, 30⟩
abbrev CAT_TAB_BASE_TSCALE : Fld := ⟨.CAT_TAB_BASE, 48, 16⟩
abbrev CAT_TAB_BASE_ADDR : Fld := ⟨.CAT_TAB_BASE, 6, 31⟩
abbrev CAT_TAB_VMAP_ADDR : Fld := ⟨.CAT_TAB_VMAP, 6, 31⟩
abbrev CAT_TAB_AUX_MAXCAND_M1 : Fld := ⟨.CAT_TAB_AUX, 48, 16⟩
abbrev CAT_TAB_AUX_ADDR : Fld := ⟨.CAT_TAB_AUX, 6, 31⟩
abbrev CAT_TAB_FMT_EN : Fld := ⟨.CAT_TAB_FMT, 31, 1⟩
abbrev CAT_TAB_FMT_KIND : Fld := ⟨.CAT_TAB_FMT, 29, 2⟩
abbrev CAT_TAB_FMT_ELEM : Fld := ⟨.CAT_TAB_FMT, 27, 2⟩
abbrev CAT_TAB_FMT_D_M1 : Fld := ⟨.CAT_TAB_FMT, 16, 11⟩
abbrev CAT_TAB_FMT_HBITS : Fld := ⟨.CAT_TAB_FMT, 11, 5⟩
abbrev CAT_TAB_FMT_ROW_M1 : Fld := ⟨.CAT_TAB_FMT, 0, 4⟩
abbrev CAT_TAB_ROWS_ROWS : Fld := ⟨.CAT_TAB_ROWS, 0, 31⟩
abbrev CAT_CTX_KEY : Fld := ⟨.CAT_CTX, 0, 64⟩
abbrev MS_STAT_STRAY : Fld := ⟨.MS_STAT, 16, 16⟩
abbrev MS_STAT_NOT_OWNER : Fld := ⟨.MS_STAT, 0, 16⟩
abbrev MS_COUNT_COUNT : Fld := ⟨.MS_COUNT, 0, 32⟩
abbrev MS_TARGET_TARGET : Fld := ⟨.MS_TARGET, 0, 32⟩
abbrev MS_CFG_OWNER : Fld := ⟨.MS_CFG, 29, 3⟩
abbrev MS_CFG_FIRED : Fld := ⟨.MS_CFG, 28, 1⟩
abbrev MS_CFG_EVT : Fld := ⟨.MS_CFG, 27, 1⟩
abbrev MS_CFG_STRIDE : Fld := ⟨.MS_CFG, 0, 16⟩
abbrev MS_ARRIVE_REG_N : Fld := ⟨.MS_ARRIVE_REG, 0, 16⟩
abbrev WAY_STAT_REC_OPEN : Fld := ⟨.WAY_STAT, 30, 2⟩
abbrev WAY_STAT_OPEN : Fld := ⟨.WAY_STAT, 23, 7⟩
abbrev WAY_STAT_RSV_FREE : Fld := ⟨.WAY_STAT, 15, 8⟩
abbrev WAY_STAT_FREE : Fld := ⟨.WAY_STAT, 0, 11⟩
abbrev WAY_HOLD_UNITS : Fld := ⟨.WAY_HOLD, 0, 16⟩
abbrev WAY_SYS_CFG_GUARD_LINES : Fld := ⟨.WAY_SYS_CFG, 16, 16⟩
abbrev WAY_ERRCNT_VOTE_FIX : Fld := ⟨.WAY_ERRCNT, 16, 16⟩
abbrev WAY_ERRCNT_LOST : Fld := ⟨.WAY_ERRCNT, 0, 16⟩
abbrev WAY_TX_STAT_STATE : Fld := ⟨.WAY_TX_STAT, 29, 3⟩
abbrev WAY_TX_STAT_ORIGIN : Fld := ⟨.WAY_TX_STAT, 27, 2⟩
abbrev WAY_TX_STAT_REC : Fld := ⟨.WAY_TX_STAT, 26, 1⟩
abbrev WAY_TX_STAT_POINT : Fld := ⟨.WAY_TX_STAT, 24, 2⟩
abbrev WAY_TX_STAT_LAST_STATUS : Fld := ⟨.WAY_TX_STAT, 0, 16⟩
abbrev WAY_TX_SIZE_USED : Fld := ⟨.WAY_TX_SIZE, 16, 11⟩
abbrev WAY_TX_SIZE_SIZE : Fld := ⟨.WAY_TX_SIZE, 0, 11⟩
abbrev WAY_TX_POINT_POINT_ARG : Fld := ⟨.WAY_TX_POINT, 0, 64⟩
abbrev TALLY_STAT_VIOL : Fld := ⟨.TALLY_STAT, 31, 1⟩
abbrev TALLY_STAT_RUNNING : Fld := ⟨.TALLY_STAT, 30, 1⟩
abbrev TALLY_STAT_VIOLATIONS : Fld := ⟨.TALLY_STAT, 0, 16⟩
abbrev TALLY_LOG_VALID : Fld := ⟨.TALLY_LOG, 63, 1⟩
abbrev TALLY_LOG_INV : Fld := ⟨.TALLY_LOG, 60, 3⟩
abbrev TALLY_LOG_INSTANCE : Fld := ⟨.TALLY_LOG, 32, 16⟩
abbrev TALLY_LOG_TIME_US : Fld := ⟨.TALLY_LOG, 0, 32⟩
abbrev TALLY_CNT_SNAPS : Fld := ⟨.TALLY_CNT, 0, 32⟩
abbrev DMA_SRC_SRC : Fld := ⟨.DMA_SRC, 0, 64⟩
abbrev DMA_DST_DST : Fld := ⟨.DMA_DST, 0, 64⟩
abbrev DMA_COUNT_COUNT : Fld := ⟨.DMA_COUNT, 0, 32⟩
abbrev DMA_NEXT_VALID : Fld := ⟨.DMA_NEXT, 31, 1⟩
abbrev DMA_NEXT_ADDR : Fld := ⟨.DMA_NEXT, 0, 20⟩
abbrev DMA_CTRL_MODE : Fld := ⟨.DMA_CTRL, 24, 3⟩
abbrev DMA_CTRL_SLOT : Fld := ⟨.DMA_CTRL, 16, 8⟩
abbrev DMA_CTRL_EVT : Fld := ⟨.DMA_CTRL, 15, 1⟩
abbrev DMA_CTRL_BARRIER : Fld := ⟨.DMA_CTRL, 14, 1⟩
abbrev DMA_CTRL_DINC : Fld := ⟨.DMA_CTRL, 13, 1⟩
abbrev DMA_CTRL_SINC : Fld := ⟨.DMA_CTRL, 12, 1⟩
abbrev DMA_CTRL_DW : Fld := ⟨.DMA_CTRL, 9, 3⟩
abbrev DMA_CTRL_SW : Fld := ⟨.DMA_CTRL, 6, 3⟩
abbrev DMA_CTRL_DSP : Fld := ⟨.DMA_CTRL, 3, 3⟩
abbrev DMA_CTRL_SSP : Fld := ⟨.DMA_CTRL, 0, 3⟩
abbrev DMA_SHUF_PITCH : Fld := ⟨.DMA_SHUF, 12, 20⟩
abbrev DMA_SHUF_NPL_M1 : Fld := ⟨.DMA_SHUF, 8, 4⟩
abbrev DMA_SHUF_ESZ : Fld := ⟨.DMA_SHUF, 4, 2⟩
abbrev DMA_SHUF_K_M1 : Fld := ⟨.DMA_SHUF, 0, 4⟩
abbrev DMA_CMD_KILL : Fld := ⟨.DMA_CMD, 3, 1⟩
abbrev DMA_CMD_CLR_ERR : Fld := ⟨.DMA_CMD, 2, 1⟩
abbrev DMA_CMD_STOP : Fld := ⟨.DMA_CMD, 1, 1⟩
abbrev DMA_CMD_START : Fld := ⟨.DMA_CMD, 0, 1⟩
abbrev DMA_PRIO_PRIO : Fld := ⟨.DMA_PRIO, 0, 3⟩
abbrev DMA_STAT_STATE : Fld := ⟨.DMA_STAT, 29, 3⟩
abbrev DMA_STAT_STOPPED : Fld := ⟨.DMA_STAT, 28, 1⟩
abbrev DMA_STAT_ERR : Fld := ⟨.DMA_STAT, 24, 4⟩
abbrev DMA_STAT_START_PEND : Fld := ⟨.DMA_STAT, 16, 8⟩
abbrev DMA_STAT_START_OVR : Fld := ⟨.DMA_STAT, 8, 8⟩
abbrev DMA_CUR_REMAIN : Fld := ⟨.DMA_CUR, 32, 32⟩
abbrev DMA_CUR_IN_CHAIN : Fld := ⟨.DMA_CUR, 31, 1⟩
abbrev DMA_CUR_ADDR : Fld := ⟨.DMA_CUR, 0, 20⟩
abbrev DMA_ROUTE_DKIND : Fld := ⟨.DMA_ROUTE, 30, 2⟩
abbrev DMA_ROUTE_DIDX : Fld := ⟨.DMA_ROUTE, 16, 14⟩
abbrev DMA_ROUTE_SKIND : Fld := ⟨.DMA_ROUTE, 15, 1⟩
abbrev DMA_ROUTE_EN : Fld := ⟨.DMA_ROUTE, 14, 1⟩
abbrev DMA_ROUTE_SIDX : Fld := ⟨.DMA_ROUTE, 0, 14⟩
abbrev DMA_TMR_EN : Fld := ⟨.DMA_TMR, 31, 1⟩
abbrev DMA_TMR_PERIOD_NS : Fld := ⟨.DMA_TMR, 0, 31⟩
abbrev DEP_BANK_OWNER_FORCE : Fld := ⟨.DEP_BANK_OWNER, 31, 1⟩
abbrev DEP_BANK_OWNER_OWNER : Fld := ⟨.DEP_BANK_OWNER, 24, 3⟩
abbrev DEP_BANK_OWNER_BANKS : Fld := ⟨.DEP_BANK_OWNER, 0, 16⟩
abbrev DEP_OWNERS_OWN : Fld := ⟨.DEP_OWNERS, 0, 64⟩
abbrev DEP_STAT_HANDOVERS : Fld := ⟨.DEP_STAT, 16, 16⟩
abbrev DEP_STAT_NOT_OWNER : Fld := ⟨.DEP_STAT, 0, 16⟩
abbrev DEP_BANK_PRIO_RANKS : Fld := ⟨.DEP_BANK_PRIO, 0, 64⟩
abbrev CMD_STAT_PAUSED : Fld := ⟨.CMD_STAT, 31, 1⟩
abbrev CMD_STAT_MC_FIFO : Fld := ⟨.CMD_STAT, 0, 9⟩
abbrev CMD_NET_STAT_AUTH_FAIL : Fld := ⟨.CMD_NET_STAT, 24, 8⟩
abbrev CMD_NET_STAT_REPLAY : Fld := ⟨.CMD_NET_STAT, 16, 8⟩
abbrev CMD_NET_STAT_MALFORMED : Fld := ⟨.CMD_NET_STAT, 8, 8⟩
abbrev CMD_NET_STAT_BUSY : Fld := ⟨.CMD_NET_STAT, 0, 8⟩
abbrev CMD_SQ_BASE_ADDR : Fld := ⟨.CMD_SQ_BASE, 12, 52⟩
abbrev CMD_CQ_BASE_ADDR : Fld := ⟨.CMD_CQ_BASE, 12, 52⟩
abbrev CMD_Q_CFG_EN : Fld := ⟨.CMD_Q_CFG, 31, 1⟩
abbrev CMD_Q_CFG_SQ_LOG2 : Fld := ⟨.CMD_Q_CFG, 24, 4⟩
abbrev CMD_Q_CFG_CQ_LOG2 : Fld := ⟨.CMD_Q_CFG, 16, 4⟩
abbrev CMD_Q_CFG_IEN : Fld := ⟨.CMD_Q_CFG, 15, 1⟩
abbrev CMD_Q_CFG_VEC : Fld := ⟨.CMD_Q_CFG, 0, 7⟩
abbrev CMD_SQ_TAIL_TAIL : Fld := ⟨.CMD_SQ_TAIL, 0, 12⟩
abbrev CMD_CQ_HEAD_HEAD : Fld := ⟨.CMD_CQ_HEAD, 0, 12⟩
abbrev CMD_Q_STAT_IDLE : Fld := ⟨.CMD_Q_STAT, 31, 1⟩
abbrev CMD_Q_STAT_FETCH_ERR : Fld := ⟨.CMD_Q_STAT, 30, 1⟩
abbrev CMD_Q_STAT_DB_ERR : Fld := ⟨.CMD_Q_STAT, 29, 1⟩
abbrev CMD_Q_STAT_OUTST : Fld := ⟨.CMD_Q_STAT, 12, 9⟩
abbrev CMD_Q_STAT_SQ_HEAD : Fld := ⟨.CMD_Q_STAT, 0, 12⟩
abbrev CMD_EGR_BASE_ADDR : Fld := ⟨.CMD_EGR_BASE, 12, 52⟩
abbrev CMD_EGR_BASE_SIZE_LOG2 : Fld := ⟨.CMD_EGR_BASE, 0, 5⟩
abbrev CMD_EGR_HEAD_HEAD : Fld := ⟨.CMD_EGR_HEAD, 0, 64⟩
abbrev CMD_EGR_TAIL_TAIL : Fld := ⟨.CMD_EGR_TAIL, 0, 64⟩
abbrev CMD_EGR_STAT_EN : Fld := ⟨.CMD_EGR_STAT, 31, 1⟩
abbrev CMD_EGR_STAT_DROPS : Fld := ⟨.CMD_EGR_STAT, 0, 16⟩
abbrev NET_CFG_EN : Fld := ⟨.NET_CFG, 31, 1⟩
abbrev NET_CFG_MODE : Fld := ⟨.NET_CFG, 28, 3⟩
abbrev NET_CFG_VLAN : Fld := ⟨.NET_CFG, 27, 1⟩
abbrev NET_CFG_PCP : Fld := ⟨.NET_CFG, 24, 3⟩
abbrev NET_CFG_VID : Fld := ⟨.NET_CFG, 12, 12⟩
abbrev NET_CFG_PREFIX : Fld := ⟨.NET_CFG, 0, 6⟩
abbrev NET_IP_ADDR : Fld := ⟨.NET_IP, 0, 32⟩
abbrev NET_GW_GW : Fld := ⟨.NET_GW, 0, 32⟩
abbrev NET_MAC_MAC : Fld := ⟨.NET_MAC, 0, 48⟩
abbrev NET_STAT_STATE : Fld := ⟨.NET_STAT, 30, 2⟩
abbrev NET_STAT_SPEED : Fld := ⟨.NET_STAT, 27, 3⟩
abbrev NET_STAT_FEC : Fld := ⟨.NET_STAT, 26, 1⟩
abbrev NET_ERRCNT_RX_DISCARD : Fld := ⟨.NET_ERRCNT, 24, 8⟩
abbrev NET_ERRCNT_FCS : Fld := ⟨.NET_ERRCNT, 16, 8⟩
abbrev NET_ERRCNT_PAUSE : Fld := ⟨.NET_ERRCNT, 8, 8⟩
abbrev NET_ERRCNT_QUAR : Fld := ⟨.NET_ERRCNT, 0, 8⟩
abbrev NET_PTP_CFG_EN : Fld := ⟨.NET_PTP_CFG, 31, 1⟩
abbrev NET_PTP_CFG_SRC : Fld := ⟨.NET_PTP_CFG, 28, 3⟩
abbrev NET_PTP_CFG_TRANSPORT : Fld := ⟨.NET_PTP_CFG, 27, 1⟩
abbrev NET_PTP_CFG_DOMAIN : Fld := ⟨.NET_PTP_CFG, 16, 7⟩
abbrev NET_PTP_STAT_STATE : Fld := ⟨.NET_PTP_STAT, 29, 3⟩
abbrev NET_PTP_STAT_UNSYNC : Fld := ⟨.NET_PTP_STAT, 28, 1⟩
abbrev NET_PTP_OFFSET_OFFSET : Fld := ⟨.NET_PTP_OFFSET, 0, 32⟩
abbrev NET_GV_LEAD_LEAD_NS : Fld := ⟨.NET_GV_LEAD, 0, 20⟩
abbrev NET_GV_CFG_EN : Fld := ⟨.NET_GV_CFG, 31, 1⟩
abbrev NET_GV_CFG_PORT : Fld := ⟨.NET_GV_CFG, 29, 2⟩
abbrev NET_GV_CFG_UDP_PORT : Fld := ⟨.NET_GV_CFG, 0, 16⟩
abbrev NET_GV_SRC_CAMERA : Fld := ⟨.NET_GV_SRC, 0, 32⟩
abbrev NET_GV_ACT_DEVICE_KEY : Fld := ⟨.NET_GV_ACT, 32, 32⟩
abbrev NET_GV_ACT_GROUP_KEY : Fld := ⟨.NET_GV_ACT, 0, 32⟩
abbrev NET_RS_DST_UDP_PORT : Fld := ⟨.NET_RS_DST, 32, 16⟩
abbrev NET_RS_DST_ADDR : Fld := ⟨.NET_RS_DST, 0, 32⟩
abbrev NET_RS_CFG_EN : Fld := ⟨.NET_RS_CFG, 31, 1⟩
abbrev NET_RS_CFG_AUTH : Fld := ⟨.NET_RS_CFG, 30, 1⟩
abbrev NET_RS_CFG_KEY : Fld := ⟨.NET_RS_CFG, 27, 3⟩
abbrev NET_RS_CFG_PORT : Fld := ⟨.NET_RS_CFG, 25, 2⟩
abbrev NET_RS_CFG_TYPES : Fld := ⟨.NET_RS_CFG, 16, 7⟩
abbrev NET_RS_CFG_CONNS : Fld := ⟨.NET_RS_CFG, 0, 16⟩
abbrev NET_RS_LEN_FLUSH_US : Fld := ⟨.NET_RS_LEN, 16, 16⟩
abbrev NET_RS_LEN_DLEN : Fld := ⟨.NET_RS_LEN, 0, 14⟩
abbrev NET_RS_STAT_DROPS : Fld := ⟨.NET_RS_STAT, 16, 16⟩
abbrev NET_RS_STAT_NOROUTE : Fld := ⟨.NET_RS_STAT, 0, 16⟩
abbrev PLB_CFG_EN : Fld := ⟨.PLB_CFG, 31, 1⟩
abbrev PLB_CFG_PLCA : Fld := ⟨.PLB_CFG, 30, 1⟩
abbrev PLB_CFG_BACKUP : Fld := ⟨.PLB_CFG, 29, 1⟩
abbrev PLB_CFG_NODE_CNT : Fld := ⟨.PLB_CFG, 16, 8⟩
abbrev PLB_CFG_NODE_ID : Fld := ⟨.PLB_CFG, 8, 8⟩
abbrev PLB_CFG_PREFIX : Fld := ⟨.PLB_CFG, 0, 6⟩
abbrev PLB_IP_ADDR : Fld := ⟨.PLB_IP, 0, 32⟩
abbrev PLB_MAC_MAC : Fld := ⟨.PLB_MAC, 0, 48⟩
abbrev PLB_STAT_MODE : Fld := ⟨.PLB_STAT, 30, 2⟩
abbrev PLB_STAT_BEACON_LOST : Fld := ⟨.PLB_STAT, 29, 1⟩
abbrev PLB_STAT_NOISE : Fld := ⟨.PLB_STAT, 28, 1⟩
abbrev PLB_STAT_DUP_ID : Fld := ⟨.PLB_STAT, 27, 1⟩
abbrev PLB_STAT_TOOK_OVER : Fld := ⟨.PLB_STAT, 26, 1⟩
abbrev PLB_ERRCNT_COLL : Fld := ⟨.PLB_ERRCNT, 24, 8⟩
abbrev PLB_ERRCNT_FCS : Fld := ⟨.PLB_ERRCNT, 16, 8⟩
abbrev PLB_ERRCNT_DISCARD : Fld := ⟨.PLB_ERRCNT, 8, 8⟩
abbrev PLB_ERRCNT_QUAR : Fld := ⟨.PLB_ERRCNT, 0, 8⟩
abbrev PLB_HINT_VALID : Fld := ⟨.PLB_HINT, 63, 1⟩
abbrev PLB_HINT_MISMATCH : Fld := ⟨.PLB_HINT, 62, 1⟩
abbrev PLB_HINT_ODO : Fld := ⟨.PLB_HINT, 60, 2⟩
abbrev PLB_HINT_TOL_PERMILLE : Fld := ⟨.PLB_HINT, 50, 10⟩
abbrev PLB_HINT_RATE : Fld := ⟨.PLB_HINT, 0, 32⟩
abbrev JCT_SYS_DEVNUM : Fld := ⟨.JCT_SYS, 16, 8⟩
abbrev JCT_SYS_SYSID : Fld := ⟨.JCT_SYS, 0, 16⟩
abbrev JCT_SYNC_POSMASTER : Fld := ⟨.JCT_SYNC, 16, 8⟩
abbrev JCT_SYNC_ALIGNING : Fld := ⟨.JCT_SYNC, 4, 4⟩
abbrev JCT_SYNC_ALIGN : Fld := ⟨.JCT_SYNC, 0, 4⟩
abbrev JCT_ODO_DIFF_STABLE : Fld := ⟨.JCT_ODO_DIFF, 63, 1⟩
abbrev JCT_ODO_DIFF_DIFF : Fld := ⟨.JCT_ODO_DIFF, 0, 48⟩
abbrev JCT_CFG_EN : Fld := ⟨.JCT_CFG, 31, 1⟩
abbrev JCT_CFG_LANE_EN : Fld := ⟨.JCT_CFG, 24, 4⟩
abbrev JCT_STAT_STATE : Fld := ⟨.JCT_STAT, 29, 3⟩
abbrev JCT_STAT_LANES : Fld := ⟨.JCT_STAT, 26, 3⟩
abbrev JCT_STAT_OVER : Fld := ⟨.JCT_STAT, 25, 1⟩
abbrev JCT_STAT_REASON : Fld := ⟨.JCT_STAT, 20, 4⟩
abbrev JCT_STAT_PARTNER : Fld := ⟨.JCT_STAT, 0, 8⟩
abbrev JCT_ERRCNT_REPLAYS : Fld := ⟨.JCT_ERRCNT, 24, 8⟩
abbrev JCT_ERRCNT_CRC : Fld := ⟨.JCT_ERRCNT, 16, 8⟩
abbrev JCT_ERRCNT_DEGRADES : Fld := ⟨.JCT_ERRCNT, 8, 8⟩
abbrev JCT_ERRCNT_RETRAINS : Fld := ⟨.JCT_ERRCNT, 0, 8⟩
abbrev JCT_RSV_CAP_MBPS : Fld := ⟨.JCT_RSV, 16, 16⟩
abbrev JCT_RSV_RSV_MBPS : Fld := ⟨.JCT_RSV, 0, 16⟩
abbrev JCT_ROUTE_VALID : Fld := ⟨.JCT_ROUTE, 31, 1⟩
abbrev JCT_ROUTE_ALT_EN : Fld := ⟨.JCT_ROUTE, 6, 1⟩
abbrev JCT_ROUTE_ALT : Fld := ⟨.JCT_ROUTE, 4, 2⟩
abbrev JCT_ROUTE_PRIMARY : Fld := ⟨.JCT_ROUTE, 0, 2⟩
abbrev RAS_STAT_UE : Fld := ⟨.RAS_STAT, 31, 1⟩
abbrev RAS_STAT_AEL : Fld := ⟨.RAS_STAT, 30, 1⟩
abbrev RAS_STAT_SELF : Fld := ⟨.RAS_STAT, 29, 1⟩
abbrev RAS_STAT_LAYBY_FREE : Fld := ⟨.RAS_STAT, 16, 7⟩
abbrev RAS_STAT_UNIT_FAIL : Fld := ⟨.RAS_STAT, 0, 16⟩
abbrev RAS_SCRUB_CFG_HBM_H : Fld := ⟨.RAS_SCRUB_CFG, 24, 8⟩
abbrev RAS_SCRUB_CFG_REF_10MS : Fld := ⟨.RAS_SCRUB_CFG, 16, 8⟩
abbrev RAS_SCRUB_CFG_DEP_10MS : Fld := ⟨.RAS_SCRUB_CFG, 8, 8⟩
abbrev RAS_SCRUB_CFG_TILE_10MS : Fld := ⟨.RAS_SCRUB_CFG, 0, 8⟩
abbrev RAS_SCRUB_STAT_LATE_TILE : Fld := ⟨.RAS_SCRUB_STAT, 31, 1⟩
abbrev RAS_SCRUB_STAT_LATE_DEP : Fld := ⟨.RAS_SCRUB_STAT, 30, 1⟩
abbrev RAS_SCRUB_STAT_LATE_REF : Fld := ⟨.RAS_SCRUB_STAT, 29, 1⟩
abbrev RAS_SCRUB_STAT_LATE_HBM : Fld := ⟨.RAS_SCRUB_STAT, 28, 1⟩
abbrev RAS_SCRUB_STAT_HBM_PASSES : Fld := ⟨.RAS_SCRUB_STAT, 0, 16⟩
abbrev RAS_SELFCHK_AON_MIS : Fld := ⟨.RAS_SELFCHK, 24, 8⟩
abbrev RAS_SELFCHK_CSM_MIS : Fld := ⟨.RAS_SELFCHK, 16, 8⟩
abbrev RAS_SELFCHK_CSM_REPEAT : Fld := ⟨.RAS_SELFCHK, 8, 8⟩
abbrev RAS_SELFCHK_VOTER_MIS : Fld := ⟨.RAS_SELFCHK, 0, 8⟩
abbrev RAS_ECC_CNT_CE : Fld := ⟨.RAS_ECC_CNT, 16, 16⟩
abbrev RAS_ECC_CNT_UE : Fld := ⟨.RAS_ECC_CNT, 0, 16⟩
abbrev RAS_UE_LOG_VALID : Fld := ⟨.RAS_UE_LOG, 63, 1⟩
abbrev RAS_UE_LOG_CLASS : Fld := ⟨.RAS_UE_LOG, 60, 3⟩
abbrev RAS_UE_LOG_SCRUB : Fld := ⟨.RAS_UE_LOG, 59, 1⟩
abbrev RAS_UE_LOG_TIME_US : Fld := ⟨.RAS_UE_LOG, 0, 32⟩
abbrev RAS_UE_ADDR_LOC : Fld := ⟨.RAS_UE_ADDR, 0, 64⟩
abbrev RAS_AEL_STAT_TOTAL : Fld := ⟨.RAS_AEL_STAT, 16, 16⟩
abbrev RAS_AEL_STAT_NEXT : Fld := ⟨.RAS_AEL_STAT, 0, 6⟩
abbrev RAS_BIST_CTRL_START : Fld := ⟨.RAS_BIST_CTRL, 31, 1⟩
abbrev RAS_BIST_CTRL_UNIT : Fld := ⟨.RAS_BIST_CTRL, 30, 1⟩
abbrev RAS_BIST_CTRL_IDX : Fld := ⟨.RAS_BIST_CTRL, 0, 6⟩
abbrev RAS_BIST_STAT_STATE : Fld := ⟨.RAS_BIST_STAT, 30, 2⟩
abbrev RAS_BIST_STAT_PASS : Fld := ⟨.RAS_BIST_STAT, 29, 1⟩
abbrev RAS_BIST_STAT_UNIT : Fld := ⟨.RAS_BIST_STAT, 28, 1⟩
abbrev RAS_BIST_STAT_IDX : Fld := ⟨.RAS_BIST_STAT, 16, 6⟩
abbrev RAS_BIST_STAT_ROWS_MAPPED : Fld := ⟨.RAS_BIST_STAT, 0, 16⟩
abbrev RAS_BIST_FAIL_FAIL : Fld := ⟨.RAS_BIST_FAIL, 0, 32⟩
abbrev RAS_SUBST_EN : Fld := ⟨.RAS_SUBST, 31, 1⟩
abbrev RAS_SUBST_ACTIVE : Fld := ⟨.RAS_SUBST, 30, 1⟩
abbrev RAS_SUBST_HOLDING : Fld := ⟨.RAS_SUBST, 29, 1⟩
abbrev RAS_SUBST_COL : Fld := ⟨.RAS_SUBST, 0, 6⟩
abbrev RAS_PMIG_EN : Fld := ⟨.RAS_PMIG, 63, 1⟩
abbrev RAS_PMIG_STACK : Fld := ⟨.RAS_PMIG, 60, 2⟩
abbrev RAS_PMIG_SRC : Fld := ⟨.RAS_PMIG, 32, 14⟩
abbrev RAS_PMIG_DST : Fld := ⟨.RAS_PMIG, 0, 14⟩
abbrev RAS_HOLD_EN : Fld := ⟨.RAS_HOLD, 31, 1⟩
abbrev RAS_HOLD_RELEASED : Fld := ⟨.RAS_HOLD, 30, 1⟩
abbrev RAS_HOLD_HOLDING : Fld := ⟨.RAS_HOLD, 29, 1⟩
abbrev RAS_HOLD_UNIT : Fld := ⟨.RAS_HOLD, 16, 4⟩
abbrev RAS_HOLD_ENTRY : Fld := ⟨.RAS_HOLD, 0, 6⟩
abbrev RAS_RETIRED_ROWS : Fld := ⟨.RAS_RETIRED, 0, 32⟩
abbrev RAS_DETOUR_VALID : Fld := ⟨.RAS_DETOUR, 31, 1⟩
abbrev RAS_DETOUR_SLOW : Fld := ⟨.RAS_DETOUR, 16, 11⟩
abbrev RAS_DETOUR_FWD : Fld := ⟨.RAS_DETOUR, 0, 11⟩
abbrev PWR_STAT_DSTATE : Fld := ⟨.PWR_STAT, 30, 2⟩
abbrev PWR_STAT_BUSY : Fld := ⟨.PWR_STAT, 29, 1⟩
abbrev PWR_STAT_EMERG : Fld := ⟨.PWR_STAT, 28, 1⟩
abbrev PWR_STAT_WAKE_FAIL : Fld := ⟨.PWR_STAT, 27, 1⟩
abbrev PWR_STAT_THERMTRIP : Fld := ⟨.PWR_STAT, 26, 1⟩
abbrev PWR_DSTATE_GO : Fld := ⟨.PWR_DSTATE, 31, 1⟩
abbrev PWR_DSTATE_TARGET : Fld := ⟨.PWR_DSTATE, 0, 2⟩
abbrev PWR_WAKE_CFG_I3C_EN : Fld := ⟨.PWR_WAKE_CFG, 31, 1⟩
abbrev PWR_WAKE_CFG_WAKEPIN_EN : Fld := ⟨.PWR_WAKE_CFG, 30, 1⟩
abbrev PWR_WAKE_CFG_PERST_EN : Fld := ⟨.PWR_WAKE_CFG, 29, 1⟩
abbrev PWR_WAKE_CFG_TIMER_EN : Fld := ⟨.PWR_WAKE_CFG, 28, 1⟩
abbrev PWR_WAKE_CFG_ADDR : Fld := ⟨.PWR_WAKE_CFG, 0, 7⟩
abbrev PWR_WAKE_STAT_DURING_ENTRY : Fld := ⟨.PWR_WAKE_STAT, 31, 1⟩
abbrev PWR_WAKE_STAT_SOURCE : Fld := ⟨.PWR_WAKE_STAT, 28, 3⟩
abbrev PWR_WAKE_STAT_COUNT : Fld := ⟨.PWR_WAKE_STAT, 0, 16⟩
abbrev PWR_WAKE_TIME_TIME : Fld := ⟨.PWR_WAKE_TIME, 0, 64⟩
abbrev PWR_AON_TIME_US : Fld := ⟨.PWR_AON_TIME, 0, 64⟩
abbrev PWR_TOLL_REFILL_US : Fld := ⟨.PWR_TOLL, 20, 10⟩
abbrev PWR_TOLL_LEVEL : Fld := ⟨.PWR_TOLL, 16, 4⟩
abbrev PWR_TOLL_QHIGH : Fld := ⟨.PWR_TOLL, 8, 8⟩
abbrev PWR_TOLL_QNORM : Fld := ⟨.PWR_TOLL, 0, 8⟩
abbrev PWR_RAIL_FAILED : Fld := ⟨.PWR_RAIL, 16, 8⟩
abbrev PWR_RAIL_GOOD : Fld := ⟨.PWR_RAIL, 0, 8⟩
abbrev PWR_LIMIT_CEIL_A : Fld := ⟨.PWR_LIMIT, 16, 16⟩
abbrev PWR_LIMIT_CAP_A : Fld := ⟨.PWR_LIMIT, 0, 16⟩
abbrev PWR_THROT_THERM : Fld := ⟨.PWR_THROT, 31, 1⟩
abbrev PWR_THROT_OVERCUR : Fld := ⟨.PWR_THROT, 30, 1⟩
abbrev PWR_THROT_CAP : Fld := ⟨.PWR_THROT, 29, 1⟩
abbrev PWR_THROT_HALVINGS : Fld := ⟨.PWR_THROT, 0, 16⟩
abbrev PWR_COL_REQ : Fld := ⟨.PWR_COL, 30, 2⟩
abbrev PWR_COL_REQ_OP : Fld := ⟨.PWR_COL, 27, 3⟩
abbrev PWR_COL_CUR_OP : Fld := ⟨.PWR_COL, 21, 3⟩
abbrev PWR_COL_EMERG : Fld := ⟨.PWR_COL, 20, 1⟩
abbrev PWR_COL_STATE : Fld := ⟨.PWR_COL, 18, 2⟩
abbrev PWR_COL_TOLL_WAIT : Fld := ⟨.PWR_COL, 17, 1⟩
abbrev PWR_COL_HALVED : Fld := ⟨.PWR_COL, 16, 1⟩
abbrev PWR_DOM_REQ_ON : Fld := ⟨.PWR_DOM, 31, 1⟩
abbrev PWR_DOM_STATE : Fld := ⟨.PWR_DOM, 29, 2⟩
abbrev CLK_STAT_REF : Fld := ⟨.CLK_STAT, 30, 2⟩
abbrev CLK_STAT_REF_LOST : Fld := ⟨.CLK_STAT, 29, 1⟩
abbrev CLK_STAT_RETURNED : Fld := ⟨.CLK_STAT, 28, 1⟩
abbrev CLK_STAT_LOCK : Fld := ⟨.CLK_STAT, 8, 8⟩
abbrev CLK_REF_CNT_LOSSES : Fld := ⟨.CLK_REF_CNT, 16, 16⟩
abbrev CLK_REF_CNT_GLITCHES : Fld := ⟨.CLK_REF_CNT, 0, 16⟩
abbrev CLK_REF_CFG_RETURN_MS : Fld := ⟨.CLK_REF_CFG, 0, 16⟩
abbrev CLK_MC_SEL : Fld := ⟨.CLK_MC, 0, 1⟩
abbrev CLK_COL_LOCK : Fld := ⟨.CLK_COL, 31, 1⟩
abbrev CLK_COL_MHZ : Fld := ⟨.CLK_COL, 16, 11⟩
abbrev CAL_STAT_BUSY : Fld := ⟨.CAL_STAT, 31, 1⟩
abbrev CAL_STAT_REF_FAULT : Fld := ⟨.CAL_STAT, 30, 1⟩
abbrev CAL_STAT_HELD : Fld := ⟨.CAL_STAT, 16, 9⟩
abbrev CAL_STAT_FLAGGED : Fld := ⟨.CAL_STAT, 0, 9⟩
abbrev CAL_CFG_DELTA_T : Fld := ⟨.CAL_CFG, 24, 5⟩
abbrev CAL_CFG_MAX_H : Fld := ⟨.CAL_CFG, 16, 8⟩
abbrev CAL_CFG_CONF_MIN : Fld := ⟨.CAL_CFG, 8, 8⟩
abbrev CAL_COUNT_COUNT : Fld := ⟨.CAL_COUNT, 0, 32⟩
abbrev CAL_TRIG_ITEMS : Fld := ⟨.CAL_TRIG, 0, 9⟩
abbrev CAL_LAST_TIME_TIME : Fld := ⟨.CAL_LAST_TIME, 0, 64⟩
abbrev CAL_HOLD_HOLD_S : Fld := ⟨.CAL_HOLD, 0, 12⟩
abbrev CAL_ITEM_CFG_TOL : Fld := ⟨.CAL_ITEM_CFG, 0, 8⟩
abbrev CAL_ITEM_STAT_FLAGGED : Fld := ⟨.CAL_ITEM_STAT, 31, 1⟩
abbrev CAL_ITEM_STAT_HELD : Fld := ⟨.CAL_ITEM_STAT, 30, 1⟩
abbrev CAL_ITEM_STAT_LEGFAIL : Fld := ⟨.CAL_ITEM_STAT, 29, 1⟩
abbrev CAL_ITEM_STAT_DUE_CNT : Fld := ⟨.CAL_ITEM_STAT, 0, 11⟩
abbrev CAL_RES0_CALIBRATED : Fld := ⟨.CAL_RES0, 16, 16⟩
abbrev CAL_RES0_FLAGGED_N : Fld := ⟨.CAL_RES0, 0, 16⟩
abbrev CAL_RES1_INST : Fld := ⟨.CAL_RES1, 16, 16⟩
abbrev CAL_RES1_DELTA16 : Fld := ⟨.CAL_RES1, 0, 16⟩
abbrev CAL_RES2_TEMP : Fld := ⟨.CAL_RES2, 0, 16⟩
abbrev CAL_RES3_RUN_US : Fld := ⟨.CAL_RES3, 0, 32⟩
abbrev CAL_TAB_ADDR_ITEM : Fld := ⟨.CAL_TAB_ADDR, 28, 4⟩
abbrev CAL_TAB_ADDR_LEG : Fld := ⟨.CAL_TAB_ADDR, 27, 1⟩
abbrev CAL_TAB_ADDR_SET : Fld := ⟨.CAL_TAB_ADDR, 24, 3⟩
abbrev CAL_TAB_ADDR_CUR : Fld := ⟨.CAL_TAB_ADDR, 23, 1⟩
abbrev CAL_TAB_ADDR_INST : Fld := ⟨.CAL_TAB_ADDR, 0, 11⟩
abbrev CAL_TAB_DATA_VALUE : Fld := ⟨.CAL_TAB_DATA, 0, 16⟩
abbrev MC_STAT_ACTIVE : Fld := ⟨.MC_STAT, 31, 1⟩
abbrev MC_STAT_P0_STATE : Fld := ⟨.MC_STAT, 29, 2⟩
abbrev MC_STAT_P1_STATE : Fld := ⟨.MC_STAT, 27, 2⟩
abbrev MC_STAT_RECOVERY : Fld := ⟨.MC_STAT, 26, 1⟩
abbrev MC_STAT_SLOT : Fld := ⟨.MC_STAT, 25, 1⟩
abbrev MC_STAT_SWITCHING : Fld := ⟨.MC_STAT, 24, 1⟩
abbrev MC_STAT_FAILOVERS : Fld := ⟨.MC_STAT, 0, 16⟩
abbrev MC_CTRL_ACTIVE_SEL : Fld := ⟨.MC_CTRL, 0, 1⟩
abbrev MC_RECOV_RECOV_ID : Fld := ⟨.MC_RECOV, 16, 16⟩
abbrev MC_RECOV_STEP : Fld := ⟨.MC_RECOV, 0, 16⟩
abbrev MC_BSENSE_VALID : Fld := ⟨.MC_BSENSE, 31, 1⟩
abbrev MC_BSENSE_OVER : Fld := ⟨.MC_BSENSE, 30, 1⟩
abbrev MC_BSENSE_MV : Fld := ⟨.MC_BSENSE, 16, 12⟩
abbrev MC_BSENSE_MA : Fld := ⟨.MC_BSENSE, 0, 16⟩
abbrev SEC_STAT_LIFECYCLE : Fld := ⟨.SEC_STAT, 30, 2⟩
abbrev SEC_STAT_OWNER_SET : Fld := ⟨.SEC_STAT, 29, 1⟩
abbrev SEC_STAT_ROOT_REVOKED : Fld := ⟨.SEC_STAT, 25, 4⟩
abbrev SEC_STAT_DBG_SCOPE : Fld := ⟨.SEC_STAT, 22, 3⟩
abbrev SEC_STAT_DBG_MIN_LEFT : Fld := ⟨.SEC_STAT, 13, 9⟩
abbrev SEC_STAT_WRAP_KEY : Fld := ⟨.SEC_STAT, 12, 1⟩
abbrev SEC_STAT_MODEL_AUTH : Fld := ⟨.SEC_STAT, 8, 4⟩
abbrev SEC_STAT_CMD_KEYS : Fld := ⟨.SEC_STAT, 0, 8⟩
abbrev SEC_FLOOR_MODEL : Fld := ⟨.SEC_FLOOR, 8, 7⟩
abbrev SEC_FLOOR_FW : Fld := ⟨.SEC_FLOOR, 0, 7⟩
abbrev SEC_SERIAL_SERIAL : Fld := ⟨.SEC_SERIAL, 0, 64⟩
abbrev SEC_DEVPUB_KEY : Fld := ⟨.SEC_DEVPUB, 0, 32⟩
abbrev DEV_START_STAGE : Fld := ⟨.DEV_START, 28, 4⟩
abbrev DEV_START_REF_IRO : Fld := ⟨.DEV_START, 23, 1⟩
abbrev DEV_START_CAL_FUSE : Fld := ⟨.DEV_START, 22, 1⟩
abbrev DEV_START_REPAIR_LOST : Fld := ⟨.DEV_START, 21, 1⟩
abbrev DEV_START_POLICY_DEFAULT : Fld := ⟨.DEV_START, 20, 1⟩
abbrev DEV_START_KEYS_LOST : Fld := ⟨.DEV_START, 19, 1⟩
abbrev DEV_START_PAIR1_DOWN : Fld := ⟨.DEV_START, 18, 1⟩
abbrev DEV_START_HBM_DEGRADED : Fld := ⟨.DEV_START, 17, 1⟩
abbrev DEV_START_BIST_RETIRED : Fld := ⟨.DEV_START, 16, 1⟩
abbrev DEV_START_MS_ELAPSED : Fld := ⟨.DEV_START, 0, 16⟩
abbrev DEV_FUSE_UNREAD : Fld := ⟨.DEV_FUSE, 0, 10⟩
abbrev DEV_BOOT_SLEW_VALID : Fld := ⟨.DEV_BOOT_SLEW, 31, 1⟩
abbrev DEV_BOOT_SLEW_T_REC_US : Fld := ⟨.DEV_BOOT_SLEW, 0, 10⟩
abbrev RAS_AEL0_TIME_US : Fld := ⟨.RAS_AEL0, 0, 32⟩
abbrev RAS_AEL1_SPACE : Fld := ⟨.RAS_AEL1, 28, 2⟩
abbrev RAS_AEL1_OFFSET : Fld := ⟨.RAS_AEL1, 0, 28⟩
abbrev RAS_AEL2_STATUS : Fld := ⟨.RAS_AEL2, 16, 16⟩
abbrev RAS_AEL2_KIND : Fld := ⟨.RAS_AEL2, 8, 8⟩
abbrev RAS_AEL2_ORIGIN : Fld := ⟨.RAS_AEL2, 0, 8⟩
abbrev RAS_AEL3_DATA : Fld := ⟨.RAS_AEL3, 0, 32⟩
abbrev ING_CONN_PIXFMT_PFNC : Fld := ⟨.ING_CONN_PIXFMT, 0, 32⟩
abbrev ODO_SEG_NUM_NUM : Fld := ⟨.ODO_SEG_NUM, 0, 64⟩
abbrev REF_ST_V : Fld := ⟨.REF_ST, 0, 64⟩
end F

/-- Every register name, for the address decoder. -/
def regList0 : List Reg := [.DEV_ID, .DEV_LAYBY, .DEV_CAPS, .DEV_APERTURE, .DEV_MEAS_ENERGY, .DEV_MEAS_MOVE, .DEV_MEAS_HBM, .DEV_MEAS_SEQ, .ING_CONN_CFG, .ING_CONN_CAPS, .ING_CONN_CNT, .ING_LINK_TDR, .ING_TDR_CFG, .ODO_CFG, .ODO_POS, .ODO_EDGE_DT, .ODO_STAT, .ODO_TG_CFG, .ODO_TG_PITCH, .ODO_TG_OFFSET, .ODO_TG_MINPER, .ODO_SEG_CFG, .ING_RES_CFG, .ING_RES_STAT]
def regList1 : List Reg := [.REF_GEOM, .REF_CTRL, .REF_NR, .REF_NM_GAIN, .REF_NM_READ, .REF_BLACK_DYN, .REF_GAIN, .REF_MAT, .REF_OFF, .REF_DARK, .REF_SPLICE, .REF_SETS, .REF_CNT_GATED, .REF_CNT, .REF_TAB_ADDR, .REF_TAB_DATA, .TILE_STAT, .TILE_CTRL, .TILE_EXC, .TILE_EXC_PC, .TILE_RATE, .TILE_SENSE, .TILE_ERRCNT, .TILE_RNG_SEED]
def regList2 : List Reg := [.TILE_RNG_STEPS, .TILE_TRAF_RX, .TILE_TRAF_TX, .TILE_RB_CFG, .TILE_RB_FWD, .TILE_DBG_ADDR, .TILE_DBG_DATA, .TILE_MAP, .TILE_MSE_SQ, .TILE_MSE_CNT, .TILE_CREW_SQ, .TILE_CREW_CNT, .ING_STRIPE_GEOM, .ING_STRIPE_HALO, .ING_STRIPE_CREW, .ING_SEAM_STAT, .STR_SCHED_MARGIN, .STR_MISS_CFG, .STR_ARB, .STR_CAP, .STR_RSV, .STR_OUT, .STR_OCTET, .STR_MISS_LOG]
def regList3 : List Reg := [.STR_MISS_CNT, .STR_PMAP_ADDR, .STR_PMAP_DATA, .STR_SLOT_BASE, .STR_SLOT_ROW, .STR_SLOT_ROWS, .STR_SLOT_RATE, .STR_SLOT_TILE, .STR_SLOT_BUF, .STR_SLOT_STAT, .CAT_CFG, .CAT_STAT, .CAT_DONE, .CAT_ERRCNT, .CAT_VOID_REG, .CAT_TAB_BASE, .CAT_TAB_VMAP, .CAT_TAB_AUX, .CAT_TAB_FMT, .CAT_TAB_ROWS, .CAT_CTX, .MS_STAT, .MS_COUNT, .MS_TARGET]
def regList4 : List Reg := [.MS_CFG, .MS_ARRIVE_REG, .WAY_STAT, .WAY_HOLD, .WAY_SYS_CFG, .WAY_ERRCNT, .WAY_TX_STAT, .WAY_TX_SIZE, .WAY_TX_POINT, .TALLY_STAT, .TALLY_LOG, .TALLY_CNT, .DMA_SRC, .DMA_DST, .DMA_COUNT, .DMA_NEXT, .DMA_CTRL, .DMA_SHUF, .DMA_CMD, .DMA_PRIO, .DMA_STAT, .DMA_CUR, .DMA_ROUTE, .DMA_TMR]
def regList5 : List Reg := [.DEP_BANK_OWNER, .DEP_OWNERS, .DEP_STAT, .DEP_BANK_PRIO, .CMD_STAT, .CMD_NET_STAT, .CMD_SQ_BASE, .CMD_CQ_BASE, .CMD_Q_CFG, .CMD_SQ_TAIL, .CMD_CQ_HEAD, .CMD_Q_STAT, .CMD_EGR_BASE, .CMD_EGR_HEAD, .CMD_EGR_TAIL, .CMD_EGR_STAT, .NET_CFG, .NET_IP, .NET_GW, .NET_MAC, .NET_STAT, .NET_ERRCNT, .NET_PTP_CFG, .NET_PTP_STAT]
def regList6 : List Reg := [.NET_PTP_OFFSET, .NET_GV_LEAD, .NET_GV_CFG, .NET_GV_SRC, .NET_GV_ACT, .NET_RS_DST, .NET_RS_CFG, .NET_RS_LEN, .NET_RS_STAT, .PLB_CFG, .PLB_IP, .PLB_MAC, .PLB_STAT, .PLB_ERRCNT, .PLB_HINT, .JCT_SYS, .JCT_SYNC, .JCT_ODO_DIFF, .JCT_CFG, .JCT_STAT, .JCT_ERRCNT, .JCT_RSV, .JCT_ROUTE, .RAS_STAT]
def regList7 : List Reg := [.RAS_SCRUB_CFG, .RAS_SCRUB_STAT, .RAS_SELFCHK, .RAS_ECC_CNT, .RAS_UE_LOG, .RAS_UE_ADDR, .RAS_AEL_STAT, .RAS_BIST_CTRL, .RAS_BIST_STAT, .RAS_BIST_FAIL, .RAS_SUBST, .RAS_PMIG, .RAS_HOLD, .RAS_RETIRED, .RAS_DETOUR, .PWR_STAT, .PWR_DSTATE, .PWR_WAKE_CFG, .PWR_WAKE_STAT, .PWR_WAKE_TIME, .PWR_AON_TIME, .PWR_TOLL, .PWR_RAIL, .PWR_LIMIT]
def regList8 : List Reg := [.PWR_THROT, .PWR_COL, .PWR_DOM, .CLK_STAT, .CLK_REF_CNT, .CLK_REF_CFG, .CLK_MC, .CLK_COL, .CAL_STAT, .CAL_CFG, .CAL_COUNT, .CAL_TRIG, .CAL_LAST_TIME, .CAL_HOLD, .CAL_ITEM_CFG, .CAL_ITEM_STAT, .CAL_RES0, .CAL_RES1, .CAL_RES2, .CAL_RES3, .CAL_TAB_ADDR, .CAL_TAB_DATA, .MC_STAT, .MC_CTRL]
def regList9 : List Reg := [.MC_RECOV, .MC_BSENSE, .SEC_STAT, .SEC_FLOOR, .SEC_SERIAL, .SEC_DEVPUB, .DEV_START, .DEV_FUSE, .DEV_BOOT_SLEW, .RAS_AEL0, .RAS_AEL1, .RAS_AEL2, .RAS_AEL3, .ING_CONN_PIXFMT, .ODO_SEG_NUM, .REF_ST]
def regList : List Reg :=
  regList0 ++ regList1 ++ regList2 ++ regList3 ++ regList4 ++ regList5 ++ regList6 ++ regList7 ++ regList8 ++ regList9

end Sys2Proof.Machine
end

