-- ==== Sys2Proof/Machine/Tables.lean ====
section
/-! DEFINITION. The operations of a sparse table in canonical form: read, write, well-formedness. -/
namespace Sys2Proof.Machine

/-- What key `k` reads as: its entry, or `d` when it has none. -/
def mapGet {α : Type} (d : α) : FMap α → Nat → α
  | [], _ => d
  | (a, v) :: m, k => if k = a then v else mapGet d m k

/-- Put an entry for `k` in key order, replacing the one it has. -/
def mapIns {α : Type} (k : Nat) (v : α) : FMap α → FMap α
  | [] => [(k, v)]
  | (a, x) :: m =>
    if k < a then (k, v) :: (a, x) :: m
    else if k = a then (k, v) :: m
    else (a, x) :: mapIns k v m

/-- Drop the entry of `k`. -/
def mapDel {α : Type} (k : Nat) : FMap α → FMap α
  | [] => []
  | (a, x) :: m => if k = a then mapDel k m else (a, x) :: mapDel k m

/-- Write `v` at `k`; writing what an unlisted key reads as removes the entry, so equal tables are equal data. -/
def mapSet {α : Type} [DecidableEq α] (d : α) (m : FMap α) (k : Nat) (v : α) : FMap α :=
  if v = d then mapDel k m else mapIns k v m

/-- Every key of `m` is above `b`. -/
def mapAbove {α : Type} (b : Nat) (m : FMap α) : Bool := m.all fun e => decide (b < e.1)

/-- The canonical form, for a table whose unlisted key `k` reads as `d k`. -/
def mapWf {α : Type} [DecidableEq α] (d : Nat → α) : FMap α → Bool
  | [] => true
  | (a, x) :: m => decide (x ≠ d a) && mapAbove a m && mapWf d m

/-- Change what `k` reads as by `f`. -/
def mapUpd {α : Type} [DecidableEq α] (d : α) (m : FMap α) (k : Nat) (f : α → α) : FMap α :=
  mapSet d m k (f (mapGet d m k))

/-- Write a list of values at consecutive keys from `k`. -/
def mapPuts {α : Type} [DecidableEq α] (d : α) : FMap α → Nat → List α → FMap α
  | m, _, [] => m
  | m, k, v :: vs => mapPuts d (mapSet d m k v) (k + 1) vs

/-- Read `n` consecutive keys from `k`. -/
def mapGets {α : Type} (d : α) (m : FMap α) (k : Nat) : Nat → List α
  | 0 => []
  | n + 1 => mapGet d m k :: mapGets d m (k + 1) n

/-- Drop every entry with a key from `lo` up to but not including `hi`. -/
def mapClear {α : Type} (lo hi : Nat) : FMap α → FMap α
  | [] => []
  | (a, x) :: m => if lo ≤ a ∧ a < hi then mapClear lo hi m else (a, x) :: mapClear lo hi m

end Sys2Proof.Machine
end

