-- ==== Sys2Proof/Machine/State.lean ====
section
/-! DEFINITION. The state of the device: plain data, every piece the spec names, and what it holds after reset. -/
namespace Sys2Proof.Machine

/-- No command of this block ends in a fault: every access the spec calls wrong completes with a log entry (R32, R544).
The one constructor is kept for the host's interface and is raised by nobody (safe). -/
inductive Fault where
  | none
  deriving DecidableEq, Repr

/-- Why a command has no meaning. -/
inductive Refusal where
  /-- Raised by a dispatch arm whose command has no meaning yet (safe: the machine stops). -/
  | notModelled (mnemonic : String)
  deriving DecidableEq, Repr

/-- One entry of the AON log ring (R487); `mirrored` says that the MC has copied it to the flash mirror (R488). -/
structure LogEntry where
  index : Nat
  time : Nat
  src : Nat
  aonTime : Bool
  sev : Nat
  code : Nat
  args : List Nat
  mirrored : Bool
  deriving DecidableEq, Repr

/-- A status reply (R360) before its PHASE bit is known. -/
structure Reply where
  hdr : CmdHdr
  status : Nat
  final : Bool
  w : List Nat
  deriving DecidableEq, Repr

/-- What a queue pair holds beside its registers (R355 to R358). `waiting` holds fetched commands not yet started; `dead`: a
PERST_N assertion disabled it, so its completions have no target (R506). -/
structure Queue where
  cqTail : Nat
  phase : Bool
  unread : Nat
  held : List Reply
  waiting : List CmdPkt
  dead : Bool
  deriving DecidableEq, Repr

/-- What an egress ring holds beside its registers (R371, R372). -/
structure Ring where
  ien : Bool
  fmt8 : Bool
  connMask : Nat
  typeMask : Nat
  shadow : Nat
  written : Nat
  rseq : Nat
  dropped : Nat
  unreported : Bool
  deriving DecidableEq, Repr

/-- Who waits for a milestone (R277): a tile, a give-way word of a tile and slot, an MS_WAIT command, a commit point. -/
inductive WaitBy where
  | tile (t : Nat)
  | cmd (h : CmdHdr) (deadline : Option Nat)
  | commit (tx : Nat)
  deriving DecidableEq, Repr

/-- A waiter for milestone `m` to be reached for target `t`. -/
structure Waiter where
  by_ : WaitBy
  m : Nat
  t : Nat
  deriving DecidableEq, Repr

/-- A local or milestone source of the event routing matrix (R350). -/
inductive Pulse where
  | local_ (i : Nat)
  | milestone (m : Nat)
  deriving DecidableEq, Repr

/-- One waymark record: its three copies (R286). -/
structure WayRec where
  c0 : BitVec 512
  c1 : BitVec 512
  c2 : BitVec 512
  deriving DecidableEq, Repr

/-- A transaction action, decoded from its waymark (R283, R285). -/
inductive Act where
  | regWrite (addr value mask : Nat)
  | bcast (col row off modM1 value mask step : Nat)
  | msSet (first n which count target stride owner evt : Nat)
  | bank (banks owner : Nat) (force : Bool) (prio : List Nat)
  | steer (conn unit : Nat)
  | plan (unit entry : Nat) (nMinus1 : Bool) (leftOut : Nat)
  | detour (layby fwd slow : Nat)
  | model (bank units : Nat)
  | odo (u pos : Nat)
  | sys (devices sysid : Nat)
  deriving DecidableEq, Repr

/-- The effect point of a target (R291): the latch point of a unit, between tasks of a crew, the device segment boundary,
the commit boundary of ODO_SEG_CFG, the arrival of the commit signal. -/
inductive EffectAt where
  | latch (unit : Nat)
  | crew (unit entry : Nat)
  | boundary (conn : Nat)
  | segCfg
  | signal
  deriving DecidableEq, Repr

/-- Where a pending entry stands: placed, committed with its signal not yet arrived, committed and held at its target. -/
inductive Phase where
  | placed
  | sent
  | held
  deriving DecidableEq, Repr

/-- A pending entry at its target (R289 to R291): one action of one record, tagged at the commit with a boundary number
and with the order of the commit. -/
structure Entry where
  tx : Nat
  recIdx : Nat
  act : Act
  at_ : EffectAt
  phase : Phase
  tag : Int
  order : Nat
  deriving DecidableEq, Repr

/-- What a transaction holds beside its registers: who opened it, its open TX_PREPARE, its system identifier, GO, the order
in which it became PREPARED, the device time of its commit and the boundary it committed at; whether it is the coordinator's
own part, and the coordinator of a participant's part (R296). -/
structure Tx where
  origin : Nat
  prep : Option CmdHdr
  sysId : Nat
  go : Bool
  order : Nat
  commitTime : Nat
  boundary : Int
  coord : Bool
  peer : Option Nat
  deriving DecidableEq, Repr

/-- A service procedure that firmware runs by steps: who asked for it, if anyone; 1 SVC_TEST_COLUMN or test rotation, 2
SVC_MOVE_CONN, 3 SVC_RETIRE_PAGE, 4 SVC_SHOULDER; up to four values; the step; the transaction of the step. -/
structure Svc where
  hdr : Option CmdHdr
  kind : Nat
  a : Nat
  b : Nat
  c : Nat
  d : Nat
  phase : Nat
  tx : Option Nat
  deriving DecidableEq, Repr

/-- The coordinator's state of a system transaction (R296). -/
structure Coord where
  hdr : CmdHdr
  tx : Nat
  sysId : Nat
  b : Nat
  devices : Nat
  result : Nat
  ready : Nat
  refused : Option Nat
  closed : Bool
  done : Nat
  committed : Nat
  deriving DecidableEq, Repr

/-- What a DMA channel holds beside its registers: the descriptor in progress, how far it has read and written, its holding
register with poison marks, whether a read of NEXT is outstanding, whether STOP was asked. -/
structure DmaChan where
  src : Nat
  dst : Nat
  count : Nat
  ctrl : Nat
  shuf : Nat
  next : Nat
  checked : Bool
  rd : Nat
  wr : Nat
  hold : List (Byte × Bool)
  fetching : Bool
  stop : Bool
  deriving DecidableEq, Repr

/-- An arrival on its way to the milestone unit (R277, R280): its path (tile ID; 1088 DMA; 1089 catalogue; 1090 + k stream
engine k; 1094 + j junction port j; 1098 host; 1099 MC), the milestone and the count. -/
structure Arrival where
  path : Nat
  m : Nat
  n : Nat
  deriving DecidableEq, Repr

/-- A 16-byte word with its storage poison mark (R411). -/
structure Cell16 where
  v : BitVec 128
  p : Bool
  deriving DecidableEq, Repr

/-- An accumulator entry: 32 bits and a poison bit (R108, R156). -/
structure AccE where
  v : BitVec 32
  p : Bool
  deriving DecidableEq, Repr

/-- A running loop of a route (R308): first and last body word, pass register, count and pass number. -/
structure LoopFrame where
  first : Nat
  last : Nat
  cr : Nat
  count : Nat
  pass : Nat
  deriving DecidableEq, Repr

/-- A line-buffer ring (R110, R313): configuration, and one past the highest row written since it was configured. -/
structure RingCfg where
  en : Bool
  base : Nat
  q : Nat
  d : Nat
  feed : Bool
  top : Nat
  deriving DecidableEq, Repr

/-- The dispatch record of a task (R302). -/
structure DispRec where
  routeBase : Nat
  lenM1 : Nat
  rank : Nat
  npM1 : Nat
  seg : Nat
  firstLine : Nat
  lines : Nat
  rlast : Nat
  deriving DecidableEq, Repr

/-- A mesh packet (R134): the header fields and the payload words. For a row-forward packet `row` is the row number, `ring`
the ring or bus channel it is for. -/
structure Packet where
  dest : Nat
  kind : Nat
  addr : Nat
  lb : Bool
  ms : Nat
  msEn : Bool
  src : Nat
  row : Nat
  ring : Nat
  ch : Nat
  planes : Nat
  owned : Bool
  zc : Bool
  words : List Cell16
  deriving DecidableEq, Repr

/-- What an asynchronous operation does when it completes (R124, R318, R320). -/
inductive AsyncOp where
  | write (ws : List Cell16)
  | table (ws : List Cell16)
  | mesh (p : Packet)
  | row (ch row ring planes : Nat) (zc : Bool) (ws : List Cell16)
  | catReq (ws : List Cell16)
  | streamIn (engine slot : Nat)
  | streamOut (engine slot : Nat) (last : Bool) (ws : List Cell16)
  | read
  deriving DecidableEq, Repr

/-- A scoreboard entry (R124): direction, space, range in words, the operation, and whether its data has been sent. -/
structure SbEntry where
  inbound : Bool
  lb : Bool
  addr : Nat
  n : Nat
  op : AsyncOp
  sent : Bool
  deriving DecidableEq, Repr

/-- A stream slot beside its registers (R232, R236, R319, R320). Positions and counts are in bytes: `start` and `pos` in
the stream, the others since the slot was opened. `dNum / dDen` is the deadline. -/
structure Slot where
  opened : Bool
  a : Nat
  o : Nat
  t : Nat
  dNum : Nat
  dDen : Nat
  start : Nat
  pos : Nat
  limit : Nat
  deliv : Nat
  chw : Nat
  cms : Nat
  cmsEn : Bool
  taken : Nat
  rel : Nat
  ann : Nat
  data : List Cell16
  pulled : Nat
  eos : Bool
  deriving DecidableEq, Repr

/-- A read request outstanding at a stream engine (R227): its slot, device address, physical address, length, and the bytes it returns
with their poison marks, as they stood when it was issued (R231). -/
structure OutReq where
  slot : Nat
  addr : Nat
  phys : Option Nat
  len : Nat
  data : List (Byte × Bool)
  deriving DecidableEq, Repr

/-- What a stream engine holds beside its registers (R227, R233). -/
structure Engine where
  outst : List OutReq
  credit : Int
  rr : Nat
  deriving DecidableEq, Repr

/-- What a tile holds beside its register window (R106, R303, R312); `passed`: the milestone its WAIT names has been reached;
`dll`: 0 not locked since power good, 1 locked, 2 on its ring oscillator for good. -/
structure Tile where
  pc : Nat
  passed : Bool
  g : FMap Nat
  loops : List LoopFrame
  groups : FMap (Option (Nat × List Cell16))
  cfg : FMap (BitVec 96)
  rings : FMap RingCfg
  disp : DispRec
  sb : FMap (Option SbEntry)
  wCur : List Cell16
  wNext : List Cell16
  window : FMap (BitVec 128)
  acc : FMap AccE
  sp : FMap Cell16
  lb : FMap Cell16
  act : FMap AccE
  arrivals : List Packet
  convoy : Option Nat
  genX : Nat
  genM : Nat
  slots : List Nat
  live : Bool
  resetting : Bool
  dll : Nat
  deriving DecidableEq, Repr

/-- A tile after initialisation (R143). -/
def tile0 : Tile where
  pc := 0
  passed := false
  g := []
  loops := []
  groups := []
  cfg := []
  rings := []
  disp := ⟨0, 0, 0, 0, 0, 0, 0, 0⟩
  sb := []
  wCur := []
  wNext := []
  window := []
  acc := []
  sp := []
  lb := []
  act := []
  arrivals := []
  convoy := none
  genX := 1
  genM := 0
  slots := []
  live := false
  resetting := false
  dll := 0

/-- A link's discovery (R45): the bootstrap register being read, failed attempts, the values read so far. -/
structure LinkDisc where
  txn : Nat
  tries : Nat
  vals : List Nat
  deriving DecidableEq, Repr

/-- A CoaXPress link: the connection that holds it, its discovery while none holds it, its TDR measurement running. -/
structure Link where
  conn : Option Nat
  disc : Option LinkDisc
  tdr : Bool
  deriving DecidableEq, Repr

/-- Where the discovery of a grouped connection stands (R45): step 2 again (rediscovery), 4, 5 or 6. -/
inductive ConnStep where
  | boot (txn : Nat) (vals : List Nat)
  | pixfmt
  | config
  | locking
  | none
  deriving DecidableEq, Repr

/-- A trigger fired or a line missed, not yet matched (R52, R63). -/
structure Trig where
  n : Nat
  pos : Int
  time : Nat
  b : Int
  missed : Bool
  suspect : Bool
  unsync : Bool
  deriving DecidableEq, Repr

/-- A line in the reservoir (R72): its place in the order of the lines, its line index (R63), its segment, stamps and flags (R102), its pixels;
whether it has entered the chain, whether its T1 line has been emitted and with which flags, whether its image has been delivered and with which flags. -/
structure ResLine where
  id : Nat
  n : Nat
  line : Nat
  b : Int
  part : Nat
  pos : Int
  time : Nat
  flags : Nat
  pix : List Nat
  chained : Bool
  t1 : Bool
  tflags : Nat
  imaged : Bool
  oflags : Nat
  deriving DecidableEq, Repr

/-- A gap record owed for a segment on the hard shoulder (R100, R546): its first line, whether the first record is written. -/
structure GapOwed where
  line : Nat
  written : Bool
  stamp : Stamp
  flags : Nat
  deriving DecidableEq, Repr

/-- A segment of a connection that has not been released (R67, R100, R101): boundary and part, unit, live slot, first line,
one past the last line, closed, closed short, hard shoulder with the GAP reason, the next line to read again, tasks not
yet complete (stripe entries), the first line with no network output taken, the gap record owed. -/
structure SegSt where
  b : Int
  part : Nat
  unit : Nat
  slot : Option Nat
  first : Nat
  next : Nat
  closed : Bool
  short : Bool
  hs : Bool
  reason : Nat
  reread : Option Nat
  tasks : List Nat
  taken : Nat
  gap : Option GapOwed
  deriving DecidableEq, Repr

/-- What a connection holds beside its registers (R44 to R53, R67, R72 to R74); `was` is the unit it was steered away from and
the boundary of that move (R51). -/
structure Conn where
  links : List Nat
  step : ConnStep
  tries : Nat
  ctrl : Option (CmdHdr × Bool)
  refusal : Nat
  stream : Option Nat
  gv : Bool
  width : Nat
  runSince : Option Nat
  trigs : List Trig
  lines : List ResLine
  nextId : Nat
  prev : Option (List Nat)
  segs : List SegSt
  lastB : Option Int
  lastPart : Nat
  cap : Nat
  lastLine : Nat
  camTrigs : Nat
  gvLeader : Bool
  was : Option (Nat × Int)
  deriving DecidableEq, Repr

/-- An odometer beside its registers (R58 to R62): input levels, the last accepted edge, accepted edges since enable (up to
two), glitch times of the last 1 ms, the count is over the limit, since when it has been at or below it while
position-suspect, position-suspect, the high-water position, a fall may declare a reversal. -/
structure Odo where
  a : Bool
  b : Bool
  edge : Option Nat
  edges : Nat
  glitches : List Nat
  over_ : Bool
  okSince : Option Nat
  suspect : Bool
  high : Int
  armed : Bool
  deriving DecidableEq, Repr

/-- A line-trigger generator beside its registers (R63, R65): next line, planned time, time of the last trigger, last
forward edge and its interval, the targets in force. -/
structure TrigGen where
  n : Nat
  plan : Option Nat
  last : Option Nat
  pEdge : Int
  tEdge : Nat
  dt : Nat
  targets : Nat
  deriving DecidableEq, Repr

/-- A tap row in a send buffer (R203, R213): segment, line, samples pixel by pixel. -/
structure TapRow where
  b : Int
  part : Nat
  n : Nat
  row : List Nat
  deriving DecidableEq, Repr

/-- A result row on its way back (R91, R212, R213): segment, line, which stripes have delivered it with their kept columns
(full-row column, samples), its sample width and channels. -/
structure RetRow where
  b : Int
  part : Nat
  n : Nat
  c : Nat
  cols : List (Nat × List (Nat × List Nat))
  deriving DecidableEq, Repr

/-- An output line of temporal noise reduction (R82): line, segment, live slot, flags so far, sums and counts by position,
lost, emitted. -/
structure TnrLine where
  id : Nat
  n : Nat
  b : Int
  part : Nat
  slot : Nat
  flags : Nat
  sum : List Nat
  c : List Nat
  lost : Bool
  emitted : Bool
  deriving DecidableEq, Repr

/-- A line held in an interleave group (R87): its phase, its output after level correction, its flags. -/
structure IlLine where
  id : Nat
  n : Nat
  b : Int
  part : Nat
  slot : Nat
  phase : Nat
  flags : Nat
  z : List Nat
  deriving DecidableEq, Repr

/-- A live slot of a unit (R96): in use, and the parameter set it holds as listed registers. -/
structure LiveSlot where
  used : Bool
  set : FMap DWord
  deriving DecidableEq, Repr

/-- Running totals of the noise statistics (R79). -/
structure NoiseSt where
  darkCnt : Nat
  darkSum : Nat
  darkSq : Nat
  bins : List (Nat × Nat)
  seg : Option (Int × Nat)
  deriving DecidableEq, Repr

/-- What an ingress unit's reference chain holds beside its registers (R77 to R102, R213). -/
structure RefUnit where
  live : List LiveSlot
  cur : Nat
  curB : Option Int
  tnr : List TnrLine
  il : List IlLine
  noise : NoiseSt
  sendQ : FMap (List TapRow)
  sendWait : Bool
  rets : FMap (List RetRow)
  spl : List IlLine
  deriving DecidableEq, Repr

/-- A task of a crew (R209): its segment, its participants with their ranks, which have completed, aborted. -/
structure CrewTask where
  b : Int
  part : Nat
  parts : List Nat
  done : List Nat
  aborted : Bool
  deriving DecidableEq, Repr

/-- What the dispatcher holds for the crew of a stripe entry (R205 to R221): the next task breaks the run, the n − 1 plan is
in force with the member left out, chain lines of the run before the next segment, rows sent in the run, the task, a
detour copy is due, consecutive slow windows by member, dispatch waits. -/
structure Crew where
  brk : Bool
  started : Bool
  nm1 : Bool
  leftOut : Nat
  firstLine : Nat
  sent : Nat
  task : Option CrewTask
  copyDue : Bool
  slow : FMap Nat
  deriving DecidableEq, Repr

/-- An export row that has arrived (R215, R399): junction port, splice entry, segment number, line index in its boundary,
samples. -/
structure ExportRow where
  port : Nat
  splice : Nat
  seg : Nat
  idx : Nat
  row : List Nat
  deriving DecidableEq, Repr

/-- A plan bank (R365, R497): 0 empty, 1 loaded; the package's release, identifier, SVN, COMMIT_FLOOR and content. -/
structure Bank where
  st : Nat
  release : Nat
  ident : Nat
  svn : Nat
  commitFloor : Bool
  pkg : Pkg
  deriving DecidableEq, Repr

/-- A UDP datagram on its way out of a port (R379, R380); `stream` names the result stream that sends it. -/
structure Dgram where
  dst : Nat
  dport : Nat
  sport : Nat
  stream : Option Nat
  body : List Byte
  deriving DecidableEq, Repr

/-- The ARP state of a port (R379): the cache, oldest entry first, the addresses asked for, the datagrams that wait. -/
structure ArpPort where
  cache : List (Nat × Nat)
  asked : List Nat
  waiting : List Dgram
  deriving DecidableEq, Repr

/-- The transmit buffer of a result stream (R386, R387): record bytes, the offsets at which records begin, datagrams sent
since device reset, records dropped since the last DROP record, the arrival time of the first byte held. -/
structure RsBuf where
  bytes : List Byte
  starts : List (Nat × Nat)
  dseq : Nat
  dropped : Nat
  first : Nat
  deriving DecidableEq, Repr

/-- The PTP port and its servo (R382, R383): the selected master, whether STATE has been LOCKED since PTP was enabled first,
consecutive sync intervals with a small offset, the mean path delay, the sequence of our requests, a two-step sync that
waits for its follow-up, the request whose answer is awaited and the last raw difference between slave and master. -/
structure Ptp where
  master : Option PtpMaster
  locked : Bool
  good : Nat
  delay : Int
  seq : Nat
  sync : Option (Nat × Nat)
  req : Option (Nat × Nat)
  diff : Int
  deriving DecidableEq, Repr

/-- An entry of the census of a plant-bus port (R396): source MAC, PLCA opportunity of the last frame, an authenticated
datagram seen, quarantined, a beacon seen, frames received, the device time of the last one. -/
structure Census where
  mac : Nat
  node : Nat
  auth : Bool
  quar : Bool
  beacon : Bool
  frames : Nat
  last : Nat
  deriving DecidableEq, Repr

/-- A plant-bus port beside its registers (R392 to R396): the census in order of first sighting, own opportunities in a row
that collided, the coordinator's node count, coordinator by takeover, the times of bad frames within 100 ms. -/
structure Plb where
  census : List Census
  run : Nat
  coord : Nat
  taken : Bool
  noise : List Nat
  deriving DecidableEq, Repr

/-- A source of datagrams on a network port (R395): the times within 1 s at which its datagrams failed R368, and whether it
is quarantined. -/
structure NetSrc where
  port : Nat
  mac : Nat
  fails : List Nat
  quar : Bool
  deriving DecidableEq, Repr

/-- What the device sends to a camera (R44, R45, R54, R64). -/
inductive CxpOut where
  /-- A read of one of the bootstrap registers (0 to 4 in the order of R45 step 2) or of the pixel format register (5). -/
  | read (reg : Nat)
  /-- The connection configuration: SPEED code and link count. -/
  | config (speed links : Nat)
  /-- A pass-through read or write of the control channel. -/
  | passRead (addr len : Nat)
  | passWrite (addr : Nat) (b : List Byte)
  /-- A trigger packet, with its fire time. -/
  | trigger (time : Nat)
  /-- A heartbeat with device time. -/
  | heartbeat (time : Nat)
  /-- The acknowledgement of an event packet. -/
  | eventAck
  /-- The probe steps of a cable measurement. -/
  | probe
  deriving DecidableEq, Repr

/-- A flit to send: its virtual channel, whether it ends its message, its payload. -/
structure TxFlit where
  vc : Nat
  last : Bool
  pay : FlitPay
  deriving DecidableEq, Repr

/-- What a junction port holds beside its registers (R397 to R402): flits that wait for a credit, the replay buffer, the next
sequence number to send and the one expected, discarding until it comes, cumulative flits sent and freed by virtual channel
with the credits advertised, own entries freed, message bytes received so far, failed lanes, the partner's HELLO, whether
the partner's lane-drop sequence has arrived in the narrowing in progress, the device time of the last widening. -/
structure Jct where
  txq : List TxFlit
  unacked : List (Nat × TxFlit)
  nextSeq : Nat
  expect : Nat
  used0 : Nat
  used1 : Nat
  peer0 : Nat
  peer1 : Nat
  adv0 : Nat
  adv1 : Nat
  freed0 : Nat
  freed1 : Nat
  asm : List Byte
  failed : Nat
  major : Nat
  psys : Nat
  plane : Nat
  dropIn : Bool
  widened : Option Nat
  deriving DecidableEq, Repr

/-- A catalogue request (R259, R261): the tile whose task submitted it, or the host command, its 64-byte descriptor, and once
started the header that its completion writes. -/
structure CatReq where
  tile : Option Nat
  host : Option CmdHdr
  desc : Nat
  head : Nat
  deriving DecidableEq, Repr

/-- What a toll-gate request is for (R452): a domain, a column from OFF, a column from PARK, a raise of the operating point,
a raise of R450. -/
inductive TollFor where
  | dom (d : Nat)
  | colOn (c : Nat)
  | unpark (c : Nat)
  | raise (c : Nat)
  | rethrow (c : Nat)
  deriving DecidableEq, Repr

/-- What a column holds beside its registers (R447, R449, R450): the state it is leaving for, a granted start not yet
ready, power good reported, the point TRIM goes to, a commit that waits for TRIM to end, a step-down that waits for it. -/
structure ColSt where
  leaving : Option Nat
  starting : Bool
  good : Bool
  trimTo : Option Nat
  waitOp : Bool
  down : Bool
  deriving DecidableEq, Repr

/-- The power sequencer (R445, R457 to R460): the target of the entry in progress, the state that the wake in progress
started from, waiting for rails, abandoning, domains the wake has switched on (newest first), the wake latched during
entry, the AON time before which no wake is accepted, HBM contents lost in the entry, failed rails with the AON time since which each has been
GOOD again, domains being switched off in D0. -/
structure Seq where
  entry : Option Nat
  wake : Option Nat
  rails : Bool
  abandon : Bool
  on : List Nat
  latched : Option Nat
  hold : Nat
  hbmLost : Bool
  bad : List (Nat × Option Nat)
  off : List Nat
  deriving DecidableEq, Repr

/-- A calibration instance (R469 to R475): the sets of legs A and B (none: the fuse value), leg B is active, due since,
FLAGGED, HELD, failed legs, attempts so far, the first measurement of the attempt, its temperature, temperature and time of the last accepted
result, searches that ended at an end code in legs A and B, a swap that has not completed, a measurement discarded since due, skipped (R477), CAL_TOL and
CONF_MIN of the attempt, due again at the end of the service (R477). -/
structure CalInst where
  sa : FMap (Option Int)
  sb : FMap (Option Int)
  active : Bool
  due : Option Nat
  flagged : Bool
  held : Bool
  failA : Bool
  failB : Bool
  tries : Nat
  m1 : Option Int
  temp : Int
  lastT : Option Int
  lastAt : Nat
  endA : Nat
  endB : Nat
  swap : Bool
  disc : Bool
  skip : Bool
  tol : Nat
  conf : Nat
  again : Bool
  deriving DecidableEq, Repr

/-- An item run in progress (R472): when it started, instances accepted and flagged, the largest change so far. -/
structure CalRun where
  start : Nat
  ok : Nat
  flag : Nat
  inst : Nat
  delta : Int
  temp : Int
  deriving DecidableEq, Repr

/-- A CAL_RUN command that waits (R472): instances not yet served, items flagged in the service, and instances that were being served
when it came, which must be served once more (R477). -/
structure CalCmd where
  hdr : CmdHdr
  left : List Nat
  flags : Nat
  twice : List Nat
  deriving DecidableEq, Repr

/-- The header of an image (R492) as the running firmware or a slot's last verification holds it. -/
structure Image where
  release : Nat
  svn : Nat
  commitFloor : Bool
  dataVer : Nat
  dataVerMin : Nat
  ident : Nat
  deriving DecidableEq, Repr

/-- A firmware slot in flash (R489, R495): its bytes (an erased byte reads 0xFF) and the image of a verification since its
last write. -/
structure FwSlot where
  bytes : FMap Byte
  ok : Option Image
  deriving DecidableEq, Repr

/-- An UPD_SWITCH in progress (R495): the slot, whether the STANDBY pair has loaded it, the swap's transaction. -/
structure Switch where
  hdr : CmdHdr
  slot : Nat
  b : Nat
  tx : Option Nat
  swapped : Bool
  deriving DecidableEq, Repr

/-- The fuses (R491). -/
structure Fuses where
  rootHash : List (List Byte)
  rootRevoke : Nat
  fwFloor : Nat
  modelFloor : Nat
  ownerHash : Option (List Byte)
  lifecycle : Nat
  serial : Nat
  laybyA : Nat
  laybyB : Nat
  macs : List Nat
  wakeAddr : Nat
  ceilA : Nat
  unread : Nat
  deriving DecidableEq, Repr

/-- The key store in flash (R499): command keys with their class masks, model authorities, model wrap key, last accepted
COUNTER, saved origin tables. -/
structure KeyStore where
  keys : FMap (Option (List Byte))
  mask : FMap Nat
  auth : FMap (Option (List Byte))
  wrap : Option (List Byte)
  counter : Nat
  origins : FMap (List (Nat × Nat))
  deriving DecidableEq, Repr

/-- An entry of the repair record (R423): its KIND and up to four values in the order of its bytes. -/
structure RepEnt where
  kind : Nat
  a : Nat
  b : Nat
  c : Nat
  d : Nat
  deriving DecidableEq, Repr

/-- A built-in self-test in progress (R428): an ingress unit or a column, and its index. -/
structure Bist where
  unit : Bool
  idx : Nat
  deriving DecidableEq, Repr

/-- Start-up (R507, R508): AON time of its reference, whether it is a wake from D3, records restored, the
measured REFILL_US, the next BIST target (0 to 33 columns, 34 to 49 units), stacks initialised, training failures by pseudo-channel. -/
structure BootSt where
  t0 : Nat
  d3 : Bool
  restored : Bool
  slew : Option Nat
  bistNext : Nat
  ready : List Nat
  fails : FMap Nat
  deriving DecidableEq, Repr

/-- Reports of the hardware to the management controller. -/
inductive Report where
  | storeFault (i : Nat)
  | recordLost (i tx : Nat)
  | dmaDesc (c : Nat)
  | tally (inv inst : Nat)
  /-- A tile halted with a cause (R117, R327). -/
  | tileHalt (t cause : Nat)
  /-- FAULT_TASK_ABORT of a crew's task (R250 step 7): unit, stripe entry, segment number. -/
  | taskAbort (u e seg : Nat)
  /-- A link's glitch fault, a mailbox or other report, by a code of the model and an argument. -/
  | note (code arg : Nat)
  deriving DecidableEq, Repr

/-- What leaves the device. -/
inductive Output where
  /-- Data returned to a requester for a read. -/
  | readData (r : Requester) (data : Nat)
  /-- BAR2 or BAR4 read data returned on a PCIe link; `poisoned`: the EP bit is set. -/
  | barData (link : Nat) (b : List Byte) (poisoned : Bool)
  /-- A posted write to host memory; `poisoned`: the EP bit is set. -/
  | hostWrite (link addr : Nat) (b : List Byte) (poisoned : Bool)
  /-- Host bytes written with values the spec does not state (PAD payload, R374). -/
  | hostFree (link addr len : Nat)
  /-- An MSI-X vector sent. -/
  | msix (link vec : Nat)
  /-- A reply datagram (R367): destination, key, origin, reply bytes, tag. -/
  | netReply (ip : Word) (port key : Nat) (origin : Word) (b tag : List Byte)
  /-- A UDP datagram leaving network port `port` (0 to 3 Ethernet, 4 and 5 plant bus); `tci` is its VLAN tag. -/
  | udp (port : Nat) (tci : Option Nat) (mac dst dport sport : Nat) (body : List Byte)
  /-- An ARP frame: operation 1 request, 2 reply, and the protocol address it asks for or answers to. -/
  | arp (port op ip mac : Nat)
  /-- An ICMP echo reply. -/
  | echo (port ip : Nat) (body : List Byte)
  /-- A flit leaving a junction port (R398): channel, kind, sequence, acknowledgement, credit channel and count, payload. -/
  | flit (port vc kind seq ack crVc crCum : Nat) (pay : Option FlitPay)
  /-- The lane-drop sequence on a junction port (R402). -/
  | laneDrop (port : Nat)
  /-- What leaves CoaXPress link `link` towards its camera. -/
  | cxp (link : Nat) (m : CxpOut)
  /-- A GigE Vision action command (R391): port, camera, device and group keys, group mask, action time. -/
  | action (port ip dkey gkey mask time : Nat)
  /-- A PTP delay request from the source port (R382). -/
  | ptpReq (port seq : Nat)
  /-- A PLCA beacon with the node count of the segment (R395). -/
  | beacon (port count : Nat)
  /-- The reply to a request of MC firmware. -/
  | mcReply (r : Reply)
  /-- A report to the management controller. -/
  | report (r : Report)
  deriving DecidableEq, Repr

set_option maxRecDepth 2048 in
/-- The state of the device. -/
structure State where
  /-- The commands waiting, first in first out: the model's own queue. -/
  pending : List Instr
  /-- Device time in ns, 64 bits (R15); DESIGN CHOICE 0 at reset. -/
  now : Nat
  /-- The AON counter, in ns since AON power-up (R466). -/
  aonNs : Nat
  /-- The model's own counter over the values the spec leaves open; DESIGN CHOICE 0. -/
  freeCtr : Nat
  /-- What has left the device, in order. -/
  out : List Output
  /-- The BAR0 registers by address; unlisted addresses hold their Reset column. -/
  regs : FMap DWord
  /-- Read latches of R11, by requester and register; empty after reset. -/
  latch : FMap (Option Word)
  /-- Write stages of R11, by requester and register; empty after reset. -/
  stage : FMap (Option Word)
  /-- The AON log ring, oldest first (R487). -/
  log : List LogEntry
  /-- INDEX of the next log entry (R487). -/
  logNext : Nat
  /-- Entries lost before they were mirrored, since the last mirrored one (R488). -/
  logLost : Nat
  /-- The flash mirror of the log, a ring of 262,144 entries (R488). -/
  mirror : List LogEntry
  /-- Ball PCIE_BIF at power-up: 2 × 8 mode (R354); DESIGN CHOICE false. -/
  twoByEight : Bool
  /-- The 64 queue pairs (R355). -/
  queues : FMap Queue
  /-- The network command FIFO of 64 (R369). -/
  netFifo : List CmdPkt
  /-- Network commands started with no final reply. -/
  netOut : Nat
  /-- The MC FIFO of 256 commands (R363). -/
  mcFifo : List CmdPkt
  /-- M commands started, with no final reply (R364). -/
  mcRun : List CmdHdr
  /-- Per key slot, the origins with the last SEQ accepted (R368). -/
  origins : FMap (List (Nat × Nat))
  /-- The sixteen egress rings (R371). -/
  rings : FMap Ring
  /-- Who waits for a milestone (R277). -/
  waiters : List Waiter
  /-- Pulses on their way to the event routing matrix, with how many of each (R350). -/
  pulses : List (Pulse × Nat)
  /-- The waymark store (R286); free records read zero. -/
  way : FMap WayRec
  /-- The 64 transactions, beside their registers (R289). -/
  txs : FMap Tx
  /-- Pending entries at their targets (R289 to R291). -/
  ents : List Entry
  /-- Numbers the transactions in the order they become PREPARED (R290). -/
  orderNext : Nat
  /-- System transactions this device coordinates (R296). -/
  coords : List Coord
  /-- The depot SRAM by byte address (R329); unlisted bytes read 0, DESIGN CHOICE. -/
  depot : FMap Byte
  /-- Poison marks of the depot, by granule (R412). -/
  depotPoison : FMap Bool
  /-- The 64 DMA channels, beside their registers (R337). -/
  dma : FMap DmaChan
  /-- The channel that won the last beat of each DMA lane, plus one (R347). -/
  lanes : FMap Nat
  /-- Device time at which each DMA timer was enabled (R351). -/
  tmrBase : FMap Nat
  /-- The 1,088 tiles, beside their register windows (R106). -/
  tiles : FMap Tile
  /-- The next row each row-bus channel drives, by head tile and channel (R131). -/
  busNext : FMap Nat
  /-- The 4 × 256 stream slots, by 256·engine + slot, beside their registers (R229). -/
  slots : FMap Slot
  /-- The four stream engines (R227, R233). -/
  engines : FMap Engine
  /-- The page maps by 12,288·stack + page: VALID·2^31 + PHYS; an unlisted page maps to itself (R223). -/
  pmap : FMap Nat
  /-- HBM by physical byte address; zero after training (R514). -/
  hbm : FMap Byte
  /-- Poison marks of HBM by 64-byte unit (R411). -/
  hbmPoison : FMap Bool
  /-- Milestone arrivals on their way to the milestone unit (R280). -/
  arrFly : List Arrival
  /-- Arrivals sent per path (R297 invariant 4). -/
  arrSent : FMap Nat
  /-- Arrivals received per path (R297 invariant 4). -/
  arrRecv : FMap Nat
  /-- Milestones that arrivals on each path have reached since the last snapshot (R298 invariant 4). -/
  arrMs : FMap (List Nat)
  /-- Key slots 0 to 7: the key bytes, none where the slot is empty (R367, R500). -/
  keys : FMap (Option (List Byte))
  /-- The opcode class mask of each key slot (R369). -/
  keyMask : FMap Nat
  /-- A key has been set in the slot since reset (R388). -/
  keyFresh : FMap Bool
  /-- ARP state of ports 0 to 3 (Ethernet), 4 and 5 (plant bus) (R379). -/
  arp : FMap ArpPort
  /-- The transmit buffers of the result streams (R386, R387). -/
  rs : FMap RsBuf
  /-- The 64 CoaXPress links (R44, R45). -/
  links : FMap Link
  /-- The sixteen connections, beside their registers (R45 to R53, R67, R72). -/
  conns : FMap Conn
  /-- The four odometers, beside their registers (R58 to R62). -/
  odos : FMap Odo
  /-- The sixteen trigger generators, beside their registers (R63). -/
  gens : FMap TrigGen
  /-- BASE_NUM (R66). -/
  segBase : Int
  /-- BASE_LINE (R66). -/
  segLine : Int
  /-- The boundary number of the last device segment boundary, none before the first (R67). -/
  segB : Option Int
  /-- BASE_LINE, BASE_NUM and SEG_LINES that were in force before, newest first (R66). -/
  segOld : List (Int × Int × Nat)
  /-- The sixteen reference chains, beside their registers (R75 to R101). -/
  refs : FMap RefUnit
  /-- By unit, the device time from which firmware counts the hold limit of noise estimation: the last confident set, or the enabling (R80). -/
  noiseBase : FMap Nat
  /-- The table words of the units, by 0x44000·unit + 0x22000·bank + word (R104). -/
  refTab : FMap Word
  /-- Table words that hold an error their code cannot correct, as `refTab` (R413). -/
  refBad : FMap Bool
  /-- The crews, by 64·unit + stripe entry (R205 to R221). -/
  crews : FMap Crew
  /-- The boundary from which on each RAS_SUBST change holds its crews: the tag of its commit (R425). -/
  substTag : FMap Int
  /-- Export rows that have arrived and are not yet used (R215). -/
  exports : List ExportRow
  /-- The four junction ports, beside their registers (R397 to R402). -/
  jcts : FMap Jct
  /-- Control messages discarded (R404). -/
  ctlLost : Nat
  /-- The two plan banks (R283, R365, R497). -/
  banks : FMap Bank
  /-- Per unit, the plan bank its crews are dispatched from, plus one (R283 KIND 8). -/
  unitBank : FMap Nat
  /-- Marker findings that wait for the next line of a unit: the routes that asked (R350). -/
  markers : FMap (List Nat)
  /-- Banks whose every access is refused since a violation of tally invariant 3 (R298). -/
  bankFault : Nat
  /-- Opens are refused since a violation of tally invariant 6 (R298). -/
  wayBad : Bool
  /-- Service procedures in progress (R429, R431, R51). -/
  svc : List Svc
  /-- The task queue of the catalogue engine, 256 entries (R261). -/
  catTask : List CatReq
  /-- The host queue of the catalogue engine, 64 entries (R261). -/
  catHost : List CatReq
  /-- Catalogue requests in progress, at most 8 (R261). -/
  catRun : List CatReq
  /-- Starts since the host queue was last served (R261). -/
  catTurn : Nat
  /-- The HIGH queue of the toll gate (R453). -/
  tollHigh : List TollFor
  /-- The NORMAL queue of the toll gate (R453). -/
  tollNorm : List TollFor
  /-- The 34 columns, beside their registers (R447). -/
  cols : FMap ColSt
  /-- The power sequencer (R445, R458). -/
  seq : Seq
  /-- The level of RAILS_OFF_N, true high (R442, R458). -/
  railsOffN : Bool
  /-- The level of THERMTRIP_N, true high (R450). -/
  thermtripN : Bool
  /-- The level of PCIE_WAKE_N, true high (R458). -/
  pcieWakeN : Bool
  /-- The calibration instances by 2,048·item + instance (R468). -/
  cal : FMap CalInst
  /-- Item runs in progress (R472). -/
  calRuns : FMap (Option CalRun)
  /-- CAL_RUN commands that wait (R472). -/
  calCmds : List CalCmd
  /-- The flash calibration record (R474). -/
  calFlash : FMap CalInst
  /-- An applied code has moved by a whole code since the last flash write (R474). -/
  calMoved : Bool
  /-- Device time of the last flash write of the calibration record (R474). -/
  calWrote : Option Nat
  /-- Device time of the last fault of pairs 0 and 1 (R483). -/
  pairFault : FMap (Option Nat)
  /-- Failed loads of pairs 0 and 1 since their last restoration (R483, R509). -/
  pairTry : FMap Nat
  /-- Consecutive board-sense averages above the limit, by input (R486). -/
  bsOver : FMap Nat
  /-- The customer policy table by ID; none: the default of R490. -/
  policy : FMap (Option Nat)
  /-- Firmware slots A and B in flash (R489). -/
  fwSlots : FMap FwSlot
  /-- ACTIVE_SLOT of the boot header (R489); DESIGN CHOICE 0. -/
  activeSlot : Nat
  /-- PENDING_SLOT of the boot header (R489); DESIGN CHOICE 0. -/
  pendingSlot : Nat
  /-- The running firmware image (R492). -/
  running : Image
  /-- Device time since which the running image is ACTIVE (R496). -/
  runFrom : Nat
  /-- UPD_SWITCH in progress (R495). -/
  switch : Option Switch
  /-- The fuses as read at the last device reset, with the values of R511 for unreadable groups (R491). -/
  fuses : Fuses
  /-- The fuses (R491); DESIGN CHOICE where the spec gives no value. -/
  fuseBox : Fuses
  /-- The four model authorities (R499). -/
  auth : FMap (Option (List Byte))
  /-- The model wrap key (R499). -/
  wrapKey : Option (List Byte)
  /-- The last accepted COUNTER (R500). -/
  keyCounter : Nat
  /-- The key store in flash (R499). -/
  ksFlash : KeyStore
  /-- The debug challenge and its device time (R501). -/
  challenge : Option (List Byte × Nat)
  /-- Device time at which the debug scope began (R501). -/
  dbgFrom : Nat
  /-- The repair record (R423). -/
  repair : List RepEnt
  /-- Device time of the last change of the repair record (R423). -/
  repairAt : Nat
  /-- A built-in self-test in progress (R428). -/
  bist : Option Bist
  /-- Start-up (R508). -/
  boot : BootSt
  /-- The PTP port and its servo (R382, R383). -/
  ptp : Ptp
  /-- The two plant-bus ports, beside their registers (R392 to R396). -/
  plbs : FMap Plb
  /-- Sources that have sent datagrams failing R368, by port and MAC (R395). -/
  srcs : List NetSrc
  /-- Consecutive comparisons of a speed hint outside its tolerance (R394). -/
  hintBad : Nat
  /-- The odometers at the last millisecond boundaries, newest first (R406). -/
  odoSamp : List (Nat × List (Nat × Int))
  /-- The last position difference of each odometer and how often in a row it was seen (R406). -/
  posDiff : FMap (Int × Nat)
  /-- Corrected errors of scratchpad rows within 24 h, by 16,640·tile + 1,040·bank + row (R430). -/
  rowCe : FMap (List Nat)
  /-- Corrected errors of HBM pages within 24 h, by 12,288·stack + page (R430). -/
  pageCe : FMap (List Nat)
  /-- The HBM scrub pass, plus one, of an uncorrectable error last found by the scrubber in a page (R430). -/
  pageUe : FMap Nat
  /-- Times within 24 h at which pages of an octet were retired, by 4·stack + octet (R430). -/
  octPages : FMap (List Nat)
  /-- Scratchpad rows that cross a threshold while in use: tile, and 1,040·bank + row (R430). -/
  rowsDue : List (Nat × Nat)
  /-- Device time at which the scrub pass of a class began: 0 tile, 1 depot, 2 IOD, 3 HBM (R414). -/
  scrubAt : FMap Nat
  /-- Substitution entries, by bit, whose copy runs (R426). -/
  substCopied : Nat
  /-- Physical pages that have left firmware's free pool, by 12,288·stack + page (R431). -/
  pagesOut : List Nat
  /-- The partner's ability words of the Ethernet ports, as NET_STATUS returns them (R381). -/
  netPeer : FMap (Nat × Nat)
  deriving DecidableEq, Repr

/-- The machine right after device reset: every field at the value the spec states, or that a log entry names. -/
def State.reset : State where
  pending := []
  now := 0
  aonNs := 0
  freeCtr := 0
  out := []
  regs := []
  latch := []
  stage := []
  log := []
  logNext := 0
  logLost := 0
  mirror := []
  twoByEight := false
  queues := []
  netFifo := []
  netOut := 0
  mcFifo := []
  mcRun := []
  origins := []
  rings := []
  waiters := []
  pulses := []
  way := []
  txs := []
  ents := []
  orderNext := 0
  coords := []
  depot := []
  depotPoison := []
  dma := []
  lanes := []
  tmrBase := []
  tiles := []
  busNext := []
  slots := []
  engines := []
  pmap := []
  hbm := []
  hbmPoison := []
  arrFly := []
  arrSent := []
  arrRecv := []
  arrMs := []
  keys := []
  keyMask := []
  keyFresh := []
  arp := []
  rs := []
  links := []
  conns := []
  odos := []
  gens := []
  segBase := 0
  segLine := 0
  segB := none
  segOld := []
  refs := []
  noiseBase := []
  refTab := []
  refBad := []
  crews := []
  substTag := []
  exports := []
  jcts := []
  ctlLost := 0
  banks := []
  unitBank := []
  markers := []
  bankFault := 0
  wayBad := false
  svc := []
  catTask := []
  catHost := []
  catRun := []
  catTurn := 0
  tollHigh := []
  tollNorm := []
  cols := []
  seq := ⟨none, none, false, false, [], none, 0, false, [], []⟩
  railsOffN := false
  thermtripN := true
  pcieWakeN := true
  cal := []
  calRuns := []
  calCmds := []
  calFlash := []
  calMoved := false
  calWrote := none
  pairFault := []
  pairTry := []
  bsOver := []
  policy := []
  fwSlots := []
  activeSlot := 0
  pendingSlot := 0
  running := ⟨0, 0, false, 0, 0, 0⟩
  runFrom := 0
  switch := none
  fuses := ⟨[[], [], [], []], 0, 0, 0, none, 1, 0, 16, 17, [], 0x3A, 250, 0⟩
  fuseBox := ⟨[[], [], [], []], 0, 0, 0, none, 1, 0, 16, 17, [], 0x3A, 250, 0⟩
  auth := []
  wrapKey := none
  keyCounter := 0
  ksFlash := ⟨[], [], [], none, 0, []⟩
  challenge := none
  dbgFrom := 0
  repair := []
  repairAt := 0
  bist := none
  boot := ⟨0, false, false, none, 0, [], []⟩
  ptp := ⟨none, false, 0, 0, 0, none, none, 0⟩
  plbs := []
  srcs := []
  hintBad := 0
  odoSamp := []
  posDiff := []
  rowCe := []
  pageCe := []
  pageUe := []
  octPages := []
  rowsDue := []
  scrubAt := []
  substCopied := 0
  pagesOut := []
  netPeer := []

end Sys2Proof.Machine
end

