-- ==== Sys2Proof/Machine/Ops.lean ====
section
/-! DEFINITION. The named operations every command uses: device time, registers and fields, free values, what leaves the
device, the AON log and the access error log. -/
namespace Sys2Proof.Machine

/-- What a meaning answers. -/
abbrev Answer := Host.Outcome State Fault Refusal

/-- Bits `[lo + w - 1:lo]` of a number. -/
def bitsOf (n lo w : Nat) : Nat := n / 2 ^ lo % 2 ^ w

/-- `n` with bits `[lo + w - 1:lo]` replaced by the low `w` bits of `v`. -/
def putBits (n lo w v : Nat) : Nat :=
  n / 2 ^ (lo + w) * 2 ^ (lo + w) + v % 2 ^ w * 2 ^ lo + n % 2 ^ lo

/-- `n` little-endian bytes of a number (R7). -/
def leBytes (v : Nat) : Nat → List Byte
  | 0 => []
  | n + 1 => BitVec.ofNat 8 v :: leBytes (v / 256) n

/-- The number that little-endian bytes spell (R7). -/
def leNat : List Byte → Nat
  | [] => 0
  | b :: bs => b.toNat + 256 * leNat bs

/-- Put `a` before the first element that is not before it. -/
def insertBy {α : Type} (le : α → α → Bool) (a : α) : List α → List α
  | [] => [a]
  | b :: l => if le a b then a :: b :: l else b :: insertBy le a l

/-- A list in the order `le`, equal elements in the order they stand. -/
def sortBy {α : Type} : List α → (α → α → Bool) → List α
  | [], _ => []
  | a :: l, le => insertBy le a (sortBy l le)

/-- A two's complement reading of the low `w` bits. -/
def sext (v w : Nat) : Int := if v % 2 ^ w < 2 ^ (w - 1) then (v % 2 ^ w : Nat) else (v % 2 ^ w : Nat) - (2 ^ w : Nat)

/-- The `w` low bits of an integer, as a natural number. -/
def wrapTo (w : Nat) (x : Int) : Nat := (x % (2 ^ w : Nat)).toNat

/-- A BAR0 address that holds a register: the register, its indices, and whether it is the high word of a 64-bit one. -/
structure RegHit where
  reg : Reg
  i : Nat
  j : Nat
  high : Bool
  deriving DecidableEq, Repr

/-- Does row `r` hold address `a`, and with which indices. -/
def RegRow.at? (r : RegRow) (a : Nat) : Option (Nat × Nat × Bool) :=
  if a < r.base then none else
  let o := a - r.base
  let i := if r.s1 = 0 then 0 else o / r.s1
  let o1 := if r.s1 = 0 then o else o % r.s1
  let j := if r.s2 = 0 then 0 else o1 / r.s2
  let o2 := if r.s2 = 0 then o1 else o1 % r.s2
  if i < r.n1 ∧ j < r.n2 then
    if o2 = 0 then some (i, j, false)
    else if r.width = 64 ∧ o2 = 4 then some (i, j, true) else none
  else none

/-- The first register of a list that holds address `a`. -/
def findRegIn (a : Nat) : List Reg → Option RegHit
  | [] => none
  | r :: rs => match (regRow r).at? a with
    | some (i, j, h) => some ⟨r, i, j, h⟩
    | none => findRegIn a rs

/-- The register at a BAR0 address (R31, R540). -/
def findReg (a : Nat) : Option RegHit := findRegIn a regList

/-- The BAR0 address of a register. -/
def regAddr (r : Reg) (i : Nat := 0) (j : Nat := 0) : Nat := (regRow r).base + i * (regRow r).s1 + j * (regRow r).s2

/-- The number of a requester among the latches and stages of R11. -/
def reqId : Requester → Nat
  | .hostA => 0 | .hostB => 1 | .mc => 2 | .network => 3 | .commit => 4
  | .dma c => 5 + c.val

/-- The key of a requester's latch or stage of a register. -/
def holdKey (r : Requester) (h : RegHit) : Nat := reqId r * 2 ^ 26 + regAddr h.reg h.i h.j

/-- The value of a field list after reset (R12). -/
def fieldsReset : List FieldRow → Nat
  | [] => 0
  | f :: fs => putBits (fieldsReset fs) f.lo f.w f.reset

/-- TOL of each calibrated item after reset (R477). -/
def calTol : List Nat := [1, 1, 1, 1, 2, 2, 4, 1, 2]

/-- What a register reads after reset where its Reset column depends on the index. -/
def regReset (h : RegHit) : Nat :=
  match h.reg with
  | .REF_MAT => if h.j = 0 then 0x1000 else if h.j = 2 then 0x10000000 else if h.j = 5 then 0x1000
      else if h.j = 7 then 0x10000000 else 0
  | .CAL_ITEM_CFG => calTol.getD h.i 0
  | r => fieldsReset (regRow r).fields

/-- What an unlisted address of the register store reads as: the Reset columns (R12). -/
def regDefault (a : Nat) : DWord :=
  match findReg a with
  | some h => BitVec.ofNat 64 (regReset h)
  | none => 0

/-- The stored value of a register. -/
def State.reg (s : State) (r : Reg) (i : Nat := 0) (j : Nat := 0) : Nat :=
  (mapGet (regDefault (regAddr r i j)) s.regs (regAddr r i j)).toNat

/-- Store a register. -/
def State.setReg (s : State) (r : Reg) (v : Nat) (i : Nat := 0) (j : Nat := 0) : State :=
  { s with regs := mapSet (regDefault (regAddr r i j)) s.regs (regAddr r i j) (BitVec.ofNat 64 v) }

/-- A field of a register. -/
def State.fld (s : State) (f : Fld) (i : Nat := 0) (j : Nat := 0) : Nat := bitsOf (s.reg f.reg i j) f.lo f.w

/-- Store a field of a register; the other fields stay. -/
def State.setFld (s : State) (f : Fld) (v : Nat) (i : Nat := 0) (j : Nat := 0) : State :=
  s.setReg f.reg (putBits (s.reg f.reg i j) f.lo f.w v) i j

/-- Is a one-bit field set. -/
def State.flag (s : State) (f : Fld) (i : Nat := 0) (j : Nat := 0) : Bool := s.fld f i j == 1

/-- Add to a counter field that saturates. -/
def State.addSat (s : State) (f : Fld) (n : Nat) (i : Nat := 0) (j : Nat := 0) : State :=
  s.setFld f (min (s.fld f i j + n) (2 ^ f.w - 1)) i j

/-- Count one in a counter field that saturates. -/
def State.inc (s : State) (f : Fld) (i : Nat := 0) (j : Nat := 0) : State := s.addSat f 1 i j

/-- Add to a field that wraps. -/
def State.addWrap (s : State) (f : Fld) (n : Nat) (i : Nat := 0) (j : Nat := 0) : State :=
  s.setFld f (s.fld f i j + n) i j

/-- Device time and the AON counter advance by `dt` ns (R15, R457). -/
def State.tick (s : State) (dt : Nat) : State :=
  { s with now := (s.now + dt) % 2 ^ 64, aonNs := s.aonNs + dt }

/-- The next value that the spec leaves open. -/
def State.free (s : State) : Nat := Config.freeValue s.freeCtr

/-- Step past a free value. -/
def State.useFree (s : State) : State := { s with freeCtr := s.freeCtr + 1 }

/-- Something leaves the device. -/
def State.emit (s : State) (o : Output) : State := { s with out := s.out ++ [o] }

/-- Several things leave the device, in order. -/
def State.emits (s : State) (os : List Output) : State := { s with out := s.out ++ os }

/-- The hardware reports to the management controller. -/
def State.tell (s : State) (r : Report) : State := s.emit (.report r)

/-- Pulses set out for the event routing matrix (R350). -/
def State.pulse (s : State) (p : Pulse) (n : Nat) : State := if n = 0 then s else { s with pulses := s.pulses ++ [(p, n)] }

/-- The INDEX after `n` (R487): 0xFFFF_FFFF is skipped. -/
def logIndexAfter (n : Nat) : Nat := if n + 1 ≥ 0xFFFFFFFF then 0 else n + 1

/-- Append an entry to the AON log ring of 2,048 entries (R487), with the AON counter as its time while the IOD, whose PLL clocks device
time (R463), is off; an entry overwritten before it was mirrored is lost and counted (R488). -/
def State.logAdd (s : State) (src sev code : Nat) (args : List Nat) : State :=
  let aon := decide (s.fld F.PWR_DOM_STATE 2 ≠ 1)
  let t := if aon then s.aonNs / 1000 else s.now
  let e : LogEntry := ⟨s.logNext, t, src, aon, sev, code, args, false⟩
  let full := decide (s.log.length ≥ 2048)
  let gone := full && !((s.log.headD e).mirrored)
  { s with
    log := (if full then s.log.drop 1 else s.log) ++ [e]
    logNext := logIndexAfter s.logNext
    logLost := if gone then s.logLost + 1 else s.logLost }

/-- Append an entry whose severity the spec does not state. -/
def State.logE (s : State) (src code : Nat) (args : List Nat) : State :=
  s.logAdd src (Config.logSev code % 4) code args

/-- The ORIGIN code of a requester (R439). -/
def originOf : Requester → Nat
  | .hostA => 0 | .hostB => 1 | .mc => 2 | .network => 3 | .commit => 2 | .dma c => 0x40 + c.val

/-- Is the requester the host (R279): a PCIe link or the network path. -/
def fromHost : Requester → Bool
  | .hostA => true | .hostB => true | .network => true | _ => false

/-- Record an access in the access error log (R419, R439, R544), and copy it to the AON log (0xE003). -/
def State.ael (s : State) (space off origin kind status data : Nat) : State :=
  let n := s.fld F.RAS_AEL_STAT_NEXT
  let w0 := s.now / 1000 % 2 ^ 32
  let w1 := (space % 4) * 2 ^ 28 + off / 4 % 2 ^ 28
  let w2 := status % 2 ^ 16 * 2 ^ 16 + kind % 256 * 256 + origin % 256
  let w3 := data % 2 ^ 32
  let s := ((((s.setReg .RAS_AEL0 w0 n).setReg .RAS_AEL1 w1 n).setReg .RAS_AEL2 w2 n).setReg .RAS_AEL3 w3 n)
  let s := (s.setFld F.RAS_AEL_STAT_NEXT (n + 1)).inc F.RAS_AEL_STAT_TOTAL
  (s.setFld F.RAS_STAT_AEL 1).logE 2 0xE003 [w1, w2, w3, 0]

/-- Record a BAR0 access of a requester. -/
def State.aelReg (s : State) (r : Requester) (off kind status data : Nat) : State :=
  s.ael 0 off (originOf r) kind status data

/-- The column of a tile (R20). -/
def tileCol (t : Nat) : Nat := t / 32

/-- The layby column of substitution entry `k` (R424). -/
def State.laybyCol (s : State) (k : Nat) : Nat := if k = 0 then s.fld F.DEV_LAYBY_LAYBY_A else s.fld F.DEV_LAYBY_LAYBY_B

/-- Where what is addressed to tile `t` is delivered while its column is substituted (R425). -/
def State.subTile (s : State) (t : Nat) : Nat :=
  if s.flag F.RAS_SUBST_ACTIVE 0 ∧ s.fld F.RAS_SUBST_COL 0 = tileCol t then 32 * s.laybyCol 0 + t % 32
  else if s.flag F.RAS_SUBST_ACTIVE 1 ∧ s.fld F.RAS_SUBST_COL 1 = tileCol t then 32 * s.laybyCol 1 + t % 32
  else t

/-- Is milestone `m` reached for target `t` (R276). -/
def State.msReached (s : State) (m t : Nat) : Bool :=
  decide ((s.fld F.MS_COUNT_COUNT m + 2 ^ 32 - t % 2 ^ 32) % 2 ^ 32 < 2 ^ 31)

end Sys2Proof.Machine
end

