-- ==== Sys2Proof/Machine/Access.lean ====
section
/-! DEFINITION. Which BAR0 accesses reach a register (R31, R32, R441, R466), and how the others are recorded (R544). -/
namespace Sys2Proof.Machine

/-- The power domain of a block (R440): none for the PWR and CLK blocks, which the AON keeps, for tile windows, which follow
their column, and for the blocks whose registers lie in several domains. -/
def blockDomain (a : Nat) : Option Nat :=
  match a / 0x100000 with
  | 0x2 => none | 0x3 => none | 0x9 => none | 0xB => none | 0xC => none
  | 0xD => some 14
  | 0xF => if a < 0xF80000 then some 4 else some 5
  | n => if 0x20 ≤ n then some 1 else if 0x10 ≤ n then none else some 2

/-- The power domain of a register (R440). -/
def regDomain (h : RegHit) (a : Nat) : Option Nat :=
  match h.reg with
  | .ING_LINK_TDR => some (10 + h.i / 16)
  | .ING_STRIPE_GEOM => some (10 + h.i / 4)
  | .ING_STRIPE_HALO => some (10 + h.i / 4)
  | .ING_STRIPE_CREW => some (10 + h.i / 4)
  | .ING_SEAM_STAT => some (10 + h.i / 4)
  | .STR_CAP => some (6 + h.i) | .STR_RSV => some (6 + h.i) | .STR_OUT => some (6 + h.i) | .STR_OCTET => some (6 + h.i)
  | .STR_SLOT_BASE => some (6 + h.i) | .STR_SLOT_ROW => some (6 + h.i) | .STR_SLOT_ROWS => some (6 + h.i)
  | .STR_SLOT_RATE => some (6 + h.i) | .STR_SLOT_TILE => some (6 + h.i) | .STR_SLOT_BUF => some (6 + h.i)
  | .STR_SLOT_STAT => some (6 + h.i)
  | _ => if a / 0x100000 = 2 ∨ a / 0x100000 = 9 then some 2
    else if a / 0x100000 = 3 then some (10 + h.i / 4) else blockDomain a

/-- Is a power domain on. -/
def State.domOn (s : State) (d : Nat) : Bool := s.fld F.PWR_DOM_STATE d == 1

/-- Is the window of a tile open: its column is in RUN or TRIM (R32, R446). -/
def State.colOpen (s : State) (c : Nat) : Bool := s.fld F.PWR_COL_STATE c == 0 || s.fld F.PWR_COL_STATE c == 2

/-- Is a register's domain on, or its column open. -/
def State.regOpen (s : State) (h : RegHit) (a : Nat) : Option Nat :=
  match regDomain h a with
  | some d => if s.domOn d then none else some 1
  | none => if 0x1000000 ≤ a ∧ a < 0x2000000 ∧ !s.colOpen (tileCol h.i) then some 4 else none

/-- Is a BAR0 address outside every block (R31). -/
def unmappedBar0 (a : Nat) : Bool := decide ((0x1440000 ≤ a ∧ a < 0x2000000) ∨ 0x4000000 ≤ a)

/-- The register that an access of `n` bytes at `a` reaches, or the KIND that it is recorded with (R32, R544). -/
def State.access (s : State) (a n : Nat) : Except Nat RegHit :=
  if unmappedBar0 a then .error 1
  else match findReg (a / 4 * 4) with
    | none => match blockDomain a with
      | some d => .error (if s.domOn d then 2 else 1)
      | none => .error 2
    | some h =>
      match s.regOpen h a with
      | some k => if k = 4 ∧ !decide ((n = 4 ∧ a % 4 = 0) ∨ (n = 8 ∧ a % 8 = 0 ∧ (regRow h.reg).width = 64)) then .error 3 else .error k
      | none =>
        if (n = 4 ∧ a % 4 = 0) ∨ (n = 8 ∧ a % 8 = 0 ∧ (regRow h.reg).width = 64) then .ok h else .error 3

/-- Run a register access where it reaches its register; else record it: reads return zero, writes are ignored (R32). -/
def State.accessing (s : State) (r : Requester) (a n data : Nat) (k : RegHit → State) : State :=
  match s.access a n with
  | .ok h => k h
  | .error kind => s.aelReg r a kind 0 data

end Sys2Proof.Machine
end

