-- ==== Sys2Proof/Machine/CmdOps.lean ====
section
/-! DEFINITION. Replies of the command state machine (R355 to R361, R367): completion entries, held completions, reply
datagrams, and the record of what is outstanding. -/
namespace Sys2Proof.Machine

/-- A queue as EN sets it up (R358). -/
def queue0 : Queue := ⟨0, true, 0, [], [], false⟩

/-- Queue `q`. -/
def State.queue (s : State) (q : Nat) : Queue := mapGet queue0 s.queues q
/-- Store queue `q`. -/
def State.setQueue (s : State) (q : Nat) (x : Queue) : State := { s with queues := mapSet queue0 s.queues q x }

/-- The PCIe link that serves queue `q` (R354). -/
def State.queueLink (s : State) (q : Nat) : Nat := if s.twoByEight && decide (32 ≤ q) then 1 else 0
/-- The PCIe link that serves egress ring `r` (R354). -/
def State.ringLink (s : State) (r : Nat) : Nat := if s.twoByEight && decide (8 ≤ r) then 1 else 0

/-- CQ depth of queue `q` (R355). -/
def State.cqDepth (s : State) (q : Nat) : Nat := 2 ^ s.fld F.CMD_Q_CFG_CQ_LOG2 q
/-- SQ depth of queue `q` (R355). -/
def State.sqDepth (s : State) (q : Nat) : Nat := 2 ^ s.fld F.CMD_Q_CFG_SQ_LOG2 q

/-- The 32 bytes of a status reply (R360). -/
def replyBytes (r : Reply) (phase : Bool) (sqHead : Nat) : List Byte :=
  leBytes r.status 2 ++ leBytes r.hdr.opcode 2 ++ leBytes r.hdr.tag 1 ++
  leBytes ((if phase then 1 else 0) + (if r.final then 2 else 0)) 1 ++ leBytes sqHead 2 ++ leBytes r.hdr.seq.toNat 4 ++
  (List.range 5).flatMap fun k => leBytes (r.w.getD k 0) 4

/-- Count an outstanding command of queue `q` as finished (R357, CMD_Q_STAT). -/
def State.cmdDone (s : State) (q : Nat) : State :=
  let n := s.fld F.CMD_Q_STAT_OUTST q - 1
  (s.setFld F.CMD_Q_STAT_OUTST n q).setFld F.CMD_Q_STAT_IDLE (if n = 0 then 1 else 0) q

/-- Write one completion entry at the CQ tail, with its interrupt (R356). -/
def State.postCq (s : State) (q : Nat) (r : Reply) : State :=
  let x := s.queue q
  let a := s.fld F.CMD_CQ_BASE_ADDR q * 4096 + 32 * x.cqTail
  let s := s.emit (.hostWrite (s.queueLink q) a (replyBytes r x.phase r.hdr.sqHead) false)
  let wrap := decide (s.cqDepth q ≤ x.cqTail + 1)
  let s := s.setQueue q { x with cqTail := if wrap then 0 else x.cqTail + 1, phase := x.phase != wrap,
                                 unread := x.unread + 1 }
  let s := if s.flag F.CMD_Q_CFG_IEN q then s.emit (.msix (s.queueLink q) (s.fld F.CMD_Q_CFG_VEC q)) else s
  if r.final then s.cmdDone q else s

/-- Is a CQ entry free, with no completion held ahead of it (R357). -/
def State.cqRoom (s : State) (q : Nat) : Bool := (s.queue q).held.isEmpty && decide ((s.queue q).unread < s.cqDepth q)

/-- Write held completions while entries are free (R357). -/
def State.postHeld (s : State) (q : Nat) : Nat → State
  | 0 => s
  | n + 1 =>
    match (s.queue q).held with
    | [] => s
    | r :: rs =>
      if (s.queue q).unread < s.cqDepth q then
        ((s.setQueue q { s.queue q with held := rs }).postCq q r).postHeld q n
      else s

/-- The nonce of a datagram tag (R367). -/
def nonce (origin seq : Word) (reply : Bool) : List Byte :=
  leBytes origin.toNat 4 ++ leBytes seq.toNat 4 ++ leBytes (if reply then 1 else 0) 4

/-- The key bytes of a key slot (R367); an empty slot has none. -/
def State.keyBytes (s : State) (k : Nat) : List Byte := (mapGet none s.keys k).getD []

/-- Send a reply datagram (R367, R369). -/
def State.netReply (s : State) (key : Nat) (origin ip : Word) (port : Nat) (r : Reply) : State :=
  let b := leBytes 0x5A4C 2 ++ leBytes 1 1 ++ leBytes key 1 ++ leBytes origin.toNat 4 ++
    replyBytes r (s.free % 2 == 1) 0
  (s.emit (.netReply ip port key origin b (Config.gmac (s.keyBytes key) (nonce origin r.hdr.seq true) b))).useFree

/-- The final reply of a command (R361): a completion entry, held where the CQ is full, or a reply datagram; a queue that
PERST_N has disabled discards it (R506). -/
def State.reply (s : State) (h : CmdHdr) (status : Nat) (w : List Nat) : State :=
  let s := { s with mcRun := s.mcRun.filter (fun x => decide (x ≠ h)) }
  let r : Reply := ⟨h, status, true, w⟩
  match h.src with
  | .queue q => if (s.queue q.val).dead then s.cmdDone q.val
      else if s.cqRoom q.val then s.postCq q.val r
      else s.setQueue q.val { s.queue q.val with held := (s.queue q.val).held ++ [r] }
  | .net k o ip p => { s.netReply k.val o ip p r with netOut := s.netOut - 1 }
  | .mc => s.emit (.mcReply r)

/-- The PENDING reply of a command marked P (R361): omitted with NOPEND, or where no CQ entry is free. -/
def State.replyPending (s : State) (h : CmdHdr) : State :=
  if h.flags / 2 % 2 = 1 then s else
  let r : Reply := ⟨h, 1, false, []⟩
  match h.src with
  | .queue q => if s.cqRoom q.val ∧ !(s.queue q.val).dead then s.postCq q.val r else s
  | .net k o ip p => s.netReply k.val o ip p r
  | .mc => s.emit (.mcReply r)

end Sys2Proof.Machine
end

