-- ==== Sys2Proof/Machine/Cal.lean ====
section
/-! DEFINITION. Calibration: due runs, measurements, temperature sets, swaps, hold (R467 to R479). -/
namespace Sys2Proof.Machine

/-- An item member that nothing has happened to. -/
def cal0 : CalInst :=
  ⟨[], [], false, none, false, false, false, false, 0, none, 0, none, 0, 0, 0, false, false, false, 0, 0, false⟩

/-- The key of a member of an item. -/
def calKey (item inst : Nat) : Nat := 2048 * item + inst
/-- A member of an item. -/
def State.calInst (s : State) (k : Nat) : CalInst := mapGet cal0 s.cal k
/-- Store a member of an item. -/
def State.setCal (s : State) (k : Nat) (x : CalInst) : State := { s with cal := mapSet cal0 s.cal k x }

/-- Members of each item (R468). -/
def calCount (item : Nat) : Nat := [100, 100, 256, 256, 1104, 1145, 39, 4, 1].getD item 0
/-- The smallest and the largest code of each item (R468). -/
def calRange (item : Nat) : Int × Int :=
  [((0 : Int), (63 : Int)), (0, 63), (0, 63), (0, 63), (-256, 255), (-128, 127), (-512, 511), (0, 1023), (0, 4095)].getD item (0, 0)
/-- Items traced to I_REF (R467). -/
def calTraced (item : Nat) : Bool := decide (item ≤ 4 ∨ item = 6)

/-- Set `j` of a leg, in 1/16 code; an unset one is 16 times the fuse value (R474). -/
def calSet (k : Nat) (leg : FMap (Option Int)) (j : Nat) : Int :=
  (mapGet none leg j).getD (16 * Config.calFuse (k / 2048) (k % 2048))

/-- place(t) of R473: the lower set and the weight. -/
def calPlace (t : Int) : Nat × Int :=
  let tq := min (max t (-160)) 960
  let j := min ((tq + 160) / 160).toNat 6
  (j, tq + 160 - 160 * j)

/-- interp(t) of R473. -/
def calInterp (k : Nat) (leg : FMap (Option Int)) (t : Int) : Int :=
  let (j, w) := calPlace t
  (calSet k leg j * (160 - w) + calSet k leg (j + 1) * w + 80) / 160

/-- code(t) of R473. -/
def calCode (k : Nat) (leg : FMap (Option Int)) (t : Int) : Int :=
  let (lo, hi) := calRange (k / 2048)
  max lo (min hi ((calInterp k leg t + 8) / 16))

/-- A 16-bit set value. -/
def calClamp (v : Int) : Int := max (-32768) (min 32767 v)

/-- update(v, t) of R473: only the set nearer to `t` changes. -/
def calUpdate (k : Nat) (leg : FMap (Option Int)) (v t : Int) : FMap (Option Int) :=
  let (j, w) := calPlace t
  let e := v - calInterp k leg t
  if w < 80 then mapSet none leg j (some (calClamp (calSet k leg j + (2 * e * 160 + (160 - w)) / (2 * (160 - w)))))
  else mapSet none leg (j + 1) (some (calClamp (calSet k leg (j + 1) + (2 * e * 160 + w) / (2 * w))))

/-- The sets of the active leg, which the member applies. -/
def CalInst.activeSets (x : CalInst) : FMap (Option Int) := if x.active then x.sb else x.sa
/-- The sets of the spare leg. -/
def CalInst.spareSets (x : CalInst) : FMap (Option Int) := if x.active then x.sa else x.sb
/-- A leg of the member has failed (R471). -/
def CalInst.legFail (x : CalInst) : Bool := x.failA || x.failB

/-- The applied code of a member at its last temperature. -/
def State.calApplied (s : State) (k : Nat) : Int := calCode k (s.calInst k).activeSets (s.calInst k).temp

/-- Does a member of `item` have property `p`. -/
def State.calAny (s : State) (item : Nat) (p : CalInst → Bool) : Bool :=
  s.cal.any fun e => decide (e.1 / 2048 = item) && p e.2

/-- Members of `item` that are due. -/
def State.calDueCount (s : State) (item : Nat) : Nat :=
  (s.cal.filter fun e => decide (e.1 / 2048 = item) && e.2.due.isSome).length

/-- The status of an item, and the whole status (R479). -/
def State.calShow (s : State) (item : Nat) : State :=
  let b (p : CalInst → Bool) : Nat := if s.calAny item p then 1 else 0
  let s := (s.setFld F.CAL_ITEM_STAT_FLAGGED (b (·.flagged)) item).setFld F.CAL_ITEM_STAT_HELD (b (·.held)) item
  let s := s.setFld F.CAL_ITEM_STAT_LEGFAIL (b (·.legFail)) item
  let s := s.setFld F.CAL_ITEM_STAT_DUE_CNT (s.calDueCount item) item
  let mask (f : Fld) : Nat := (List.range 9).foldl (fun n i => if s.flag f i then n + 2 ^ i else n) 0
  let s := (s.setFld F.CAL_STAT_FLAGGED (mask F.CAL_ITEM_STAT_FLAGGED)).setFld F.CAL_STAT_HELD (mask F.CAL_ITEM_STAT_HELD)
  s.setFld F.CAL_STAT_BUSY
    (if s.cal.any (fun e => e.2.due.isSome && !(s.flag F.CAL_STAT_REF_FAULT && calTraced (e.1 / 2048))) then 1 else 0)

/-- A run of an item starts (R472): I_REF is compared with the on-die reference (R467). -/
def State.calRunStart (s : State) (item : Nat) (iref : Bool) : State :=
  let s : State := { s with calRuns := mapSet none s.calRuns item (some ⟨s.now, 0, 0, 0, 0, 0⟩) }
  let was := s.flag F.CAL_STAT_REF_FAULT
  let s := s.setFld F.CAL_STAT_REF_FAULT (if iref then 0 else 1)
  if !iref ∧ !was then s.tell (.note 3 item) else s

/-- A member becomes due, or stays so (R472); one with a failed leg is never measured again (R471). -/
def State.calDue1 (s : State) (k : Nat) (iref : Bool) : State :=
  let x := s.calInst k
  if x.legFail ∨ x.due.isSome then s
  else
    let s := if s.calDueCount (k / 2048) = 0 then s.calRunStart (k / 2048) iref else s
    s.setCal k { x with due := some s.now, tries := 0, m1 := none, disc := false, skip := false, again := false }

/-- Is the member being served: an attempt has a measurement, or an attempt has been made. -/
def CalInst.served (x : CalInst) : Bool := x.due.isSome && (x.m1.isSome || x.tries != 0)

/-- A request names the member's item: it becomes due; one that is being served finishes and is due again (R477). -/
def State.calAsk1 (s : State) (k : Nat) (iref : Bool) : State :=
  if (s.calInst k).served then s.setCal k { s.calInst k with again := true } else s.calDue1 k iref

/-- A request makes every member of an item due. -/
def State.calDueItem (s : State) (item : Nat) (iref : Bool) : State :=
  ((List.range (calCount item)).foldl (fun s i => s.calAsk1 (calKey item i) iref) s).calShow item

/-- Every member of the items in a mask becomes due. -/
def State.calDueMask (s : State) (mask : Nat) (iref : Bool) : State :=
  (List.range 9).foldl (fun s i => if bitsOf mask i 1 = 1 then s.calDueItem i iref else s) s

/-- READY (R508 step 19), with the time since the reference of start-up. -/
def State.bootReady (s : State) : State :=
  (s.setFld F.DEV_START_STAGE 8).setFld F.DEV_START_MS_ELAPSED (min ((s.aonNs - s.boot.t0) / 1000000) 0xFFFF)

/-- The end of the last test (R508 step 18): READY, where stage 6 has ended too. -/
def State.bootDone (s : State) : State :=
  if s.fld F.DEV_START_STAGE = 7 ∧ (s.boot.d3 ∨ 50 ≤ s.boot.bistNext) then s.bootReady else s

/-- The page maps and retired octets of the repair record (R423, R225). -/
def State.repairPages (s : State) : State :=
  let oct := s.repair.filter fun e => e.kind == 4
  let s := oct.foldl (fun s e => s.setFld F.STR_OCTET_RETIRED (s.fld F.STR_OCTET_RETIRED e.a ||| 2 ^ (e.b % 4)) e.a) s
  let s := oct.foldl (fun s e =>
    let good := ((List.range 4).filter fun q => bitsOf (s.fld F.STR_OCTET_RETIRED e.a) q 1 == 0).length
    s.setFld F.STR_CAP_SUST_MBPS (1095200 * good / 4) e.a) s
  let pg := s.repair.filter fun e => e.kind == 3
  let out := (pg.map fun e => 12288 * e.a + e.b).filter fun q => !pg.any fun e => decide (12288 * e.a + e.c = q)
  { s with pagesOut := (s.pagesOut ++ out).dedup
           pmap := pg.foldl (fun m e => mapSet (e.b + 2 ^ 31) m (12288 * e.a + e.b) (e.d % 2 * 2 ^ 31 + e.c)) s.pmap }

/-- The end of stage 6 (R508 step 16): every stack is initialised, the repair entries of KIND 3 and 4 apply, DSTATE reads 0 and BUSY
clears; a wake from D3 is READY at once. An abandoned wake or an entry comes before it (R460, R445). -/
def State.stageSeven (s : State) : State :=
  if s.fld F.DEV_START_STAGE = 6 ∧ ((List.range 4).all fun k => s.boot.ready.contains k) ∧ !s.seq.abandon ∧ s.seq.entry.isNone then
    let s := (s.repairPages.setFld F.PWR_STAT_DSTATE 0).setFld F.PWR_STAT_BUSY 0
    let s : State := { s with seq := { s.seq with wake := none, on := [] } }
    (s.setFld F.DEV_START_STAGE 7).bootDone
  else s

/-- The end of an item run (R472, R479): CAL_RES describes it. -/
def State.calRunEnd (s : State) (item : Nat) : State :=
  match mapGet none s.calRuns item with
  | some r =>
    if s.calDueCount item = 0 then
      let s := (s.setFld F.CAL_RES0_CALIBRATED r.ok item).setFld F.CAL_RES0_FLAGGED_N r.flag item
      let s := (s.setFld F.CAL_RES1_INST r.inst item).setFld F.CAL_RES1_DELTA16 (wrapTo 16 r.delta) item
      let s := s.setFld F.CAL_RES2_TEMP (wrapTo 16 r.temp) item
      let s := s.setFld F.CAL_RES3_RUN_US (min ((s.now - r.start) / 1000) 0xFFFFFFFF) item
      let s := if s.fld F.DEV_START_STAGE = 5 ∧ [0, 1, 2, 3].all (fun i => s.calDueCount i == 0) then s.setFld F.DEV_START_STAGE 6 else s
      ({ s with calRuns := mapSet none s.calRuns item none } : State).stageSeven
    else s
  | none => s

/-- The service of a member ends: it is due again where a request came during it (R477). -/
def State.calNext (s : State) (x : CalInst) : CalInst :=
  { x with due := if x.again then some s.now else none, tries := 0, m1 := none, disc := false, again := false }

/-- A member has been served or skipped: CAL_RUN commands that wait for it are answered when it was their last (R472). -/
def State.calServed (s : State) (k : Nat) (flagged : Bool) : State :=
  let more := (s.calInst k).due.isSome
  let upd := s.calCmds.map fun c =>
    if more ∧ c.twice.contains k then { c with twice := c.twice.filter (· ≠ k) }
    else if c.left.contains k then
      { c with left := c.left.filter (· ≠ k)
               flags := if flagged ∧ bitsOf c.flags (k / 2048) 1 = 0 then c.flags + 2 ^ (k / 2048) else c.flags }
    else c
  let s : State := { s with calCmds := upd.filter (fun c => !c.left.isEmpty) }
  (upd.filter (fun c => c.left.isEmpty)).foldl (fun s c => s.reply c.hdr 0 [c.flags]) s

/-- What the flash record and MC SRAM keep of a member (R474). -/
def calKeep (x : CalInst) : CalInst :=
  { cal0 with sa := x.sa, sb := x.sb, active := x.active, failA := x.failA, failB := x.failB, temp := x.temp }

/-- What is kept of all members. -/
def calKept (m : FMap CalInst) : FMap CalInst :=
  (m.map fun e => (e.1, calKeep e.2)).filter fun e => decide (e.2 ≠ cal0)

/-- The MC writes the flash record when a code has moved by a whole code, at most once per hour (R474). -/
def State.calFlashWrite (s : State) (force : Bool) : State :=
  let ok : Bool := match s.calWrote with
    | some t => decide (t + 3600000000000 ≤ s.now)
    | none => true
  if force ∨ (s.calMoved ∧ ok) then { s with calFlash := calKept s.cal, calMoved := false, calWrote := some s.now } else s

/-- The column that a member's measurement needs (R477): TEMP, VMON and ISENSE members of columns and tiles. -/
def calColumn (k : Nat) : Option Nat :=
  let i := k % 2048
  match k / 2048 with
  | 4 => if i < 1088 then some (i / 32) else none
  | 5 => if 15 ≤ i ∧ i < 49 then some (i - 15) else if 49 ≤ i ∧ i < 1137 then some ((i - 49) / 32) else none
  | 6 => if i < 34 then some i else none
  | _ => none

/-- The tile of a member, where it is a tile's own sensor. -/
def calTile (k : Nat) : Option Nat :=
  let i := k % 2048
  match k / 2048 with
  | 4 => if i < 1088 then some i else none
  | 5 => if 49 ≤ i ∧ i < 1137 then some (i - 49) else none
  | _ => none

/-- Must a measurement of the member be abandoned and the member skipped (R477). -/
def State.calSkip (s : State) (k : Nat) : Bool :=
  (match calColumn k with
    | some c => s.fld F.PWR_COL_STATE c == 3
    | none => false) ||
  (match calTile k with
    | some t => s.fld F.TILE_STAT_STATE t == 4
    | none => false) ||
  (decide (k / 2048 = 8) && s.fld F.CLK_STAT_REF != 0)

/-- Members that were skipped and satisfy `p` are due again (R477). -/
def State.calUnskip (s : State) (p : Nat → Bool) : State :=
  let ks := (s.cal.filter fun e => e.2.skip && p e.1).map (·.1)
  let s := ks.foldl (fun s k => s.calDue1 k (!s.flag F.CAL_STAT_REF_FAULT)) s
  (ks.map (· / 2048)).eraseDups.foldl (fun s i => s.calShow i) s

/-- The end of a member's service. -/
def State.calClose (s : State) (k : Nat) (flagged : Bool) : State :=
  (((s.calShow (k / 2048)).calRunEnd (k / 2048)).calServed k flagged).calFlashWrite false

/-- Change the run in progress of an item. -/
def State.calRunUpd (s : State) (item : Nat) (f : CalRun → CalRun) : State :=
  match mapGet none s.calRuns item with
  | some r => { s with calRuns := mapSet none s.calRuns item (some (f r)) }
  | none => s

/-- An accepted result (R469, R470, R473): it updates the spare leg, which then swaps. -/
def State.calAccept (s : State) (k : Nat) (v t : Int) : State :=
  let x := s.calInst k
  let sp := calUpdate k x.spareSets v t
  let d := calInterp k sp t - calInterp k x.spareSets t
  let moved := calCode k sp t ≠ calCode k (mapGet cal0 s.calFlash k).activeSets t
  let x := if x.active then { x with sa := sp } else { x with sb := sp }
  let s := s.setCal k { s.calNext x with flagged := false, held := false, temp := t, lastT := some t, lastAt := s.now, swap := true }
  let s := (s.addWrap F.CAL_COUNT_COUNT 1).setFld F.CAL_LAST_TIME_TIME s.now
  let s := s.calRunUpd (k / 2048) fun r =>
    if r.ok = 0 ∨ r.delta.natAbs < d.natAbs then { r with ok := r.ok + 1, inst := k % 2048, delta := d, temp := t }
    else { r with ok := r.ok + 1 }
  let s : State := { s with calMoved := s.calMoved || decide moved }
  s.calClose k false

/-- Record a failed leg as a KIND 7 entry of the repair record (R423, R471). -/
def State.calLegRecord (s : State) (k : Nat) (leg : Nat) : State :=
  { s with repair := s.repair ++ [⟨7, k / 2048, leg, k % 2048, 0⟩], repairAt := s.now }

/-- An attempt ends (R470, R471): both measurements are there. -/
def State.calAttempt (s : State) (k : Nat) (m1 m2 t : Int) : State :=
  let x := s.calInst k
  let (lo, hi) := calRange (k / 2048)
  let atEnd := decide (m1 = lo ∨ m1 = hi ∨ m2 = lo ∨ m2 = hi)
  let n := if atEnd then (if x.active then x.endA else x.endB) + 1 else 0
  let x := if x.active then { x with endA := n } else { x with endB := n }
  if n = 2 then
    let x := if x.active then { x with failA := true } else { x with failB := true }
    let s := s.setCal k { s.calNext x with due := none }
    let s := (s.calLegRecord k (if x.active then 0 else 1)).tell (.note 4 k)
    s.calClose k false
  else if (m1 - m2).natAbs ≤ x.tol then (s.setCal k x).calAccept k (8 * (m1 + m2)) t
  else if x.tries + 1 < 3 then s.setCal k { x with tries := x.tries + 1, m1 := none }
  else
    let s := s.setCal k { s.calNext x with flagged := true }
    let s := (s.addWrap F.CAL_COUNT_COUNT 1).setFld F.CAL_LAST_TIME_TIME s.now
    let s := s.calRunUpd (k / 2048) fun r => { r with flag := r.flag + 1 }
    s.calClose k true

/-- R472: a member becomes due by temperature or by age. `temp`: the temperature that has moved. -/
def execCalDue (dt : Nat) (item : Fin 9) (inst : Nat) (temp : Option Int) (iref : Bool) (s : State) : Answer :=
  let s := s.tick dt
  let k := calKey item.val inst
  let x := s.calInst k
  if inst < calCount item.val ∧ s.domOn 14 then
    match temp with
    | some t =>
      let far : Bool := match x.lastT with
        | some t0 => decide (8 * s.fld F.CAL_CFG_DELTA_T < (t - t0).natAbs)
        | none => true
      let s := s.setCal k { x with temp := t }
      if far then .next ((s.calDue1 k iref).calShow item.val) else .next s
    | none =>
      if x.lastAt + s.fld F.CAL_CFG_MAX_H * 3600000000000 ≤ s.now then .next ((s.calDue1 k iref).calShow item.val)
      else .next s
  else .next s

/-- A direct write of CAL_TRIG (R472). -/
def State.calTrigWrite (s : State) (r : Requester) (v : Nat) (iref : Bool) : State :=
  if r = .mc then s.calDueMask (v % 512) iref else s.aelReg r (regAddr .CAL_TRIG) 11 0 v

/-- R472: an MC write of CAL_TRIG makes every member of the named items due. -/
def execCalTrigWrite (dt : Nat) (r : Requester) (data : Word) (iref : Bool) (s : State) : Answer :=
  let s := s.tick dt
  .next (s.accessing r (regAddr .CAL_TRIG) 4 data.toNat fun _ => s.calTrigWrite r data.toNat iref)

/-- The confidence threshold of a member's attempt: CONF_MIN when the attempt began (R475, R477). -/
def State.calConf (s : State) (x : CalInst) : Nat := if x.m1.isSome then x.conf else s.fld F.CAL_CFG_CONF_MIN

/-- R470: a measurement of a spare leg completes: discarded for confidence (R475), first of its attempt, which takes CAL_TOL and CONF_MIN
(R477), or second. -/
def execCalMeasurement (dt : Nat) (item : Fin 9) (inst : Nat) (code : Int) (conf : Fin 256) (temp : Int) (s : State) : Answer :=
  let s := s.tick dt
  let k := calKey item.val inst
  let x := s.calInst k
  if x.due.isSome ∧ !x.swap ∧ s.domOn 14 ∧ !(s.flag F.CAL_STAT_REF_FAULT && calTraced item.val) then
    if s.calSkip k then .next ((s.setCal k { s.calNext x with due := none, skip := true }).calClose k false)
    else if conf.val < s.calConf x then .next (s.setCal k { x with disc := true, temp := temp })
    else match x.m1 with
      | none => .next (s.setCal k { x with m1 := some code, temp := temp, tol := s.fld F.CAL_ITEM_CFG_TOL item, conf := s.fld F.CAL_CFG_CONF_MIN })
      | some m1 => .next ((s.setCal k { x with temp := temp }).calAttempt k m1 code temp)
  else .next s

/-- Is the link of a termination or driver in training (R477). -/
def State.calLinkBusy (s : State) (k : Nat) : Bool :=
  let i := k % 2048
  if 2 ≤ k / 2048 then false
  else if 20 ≤ i ∧ i < 36 then s.fld F.JCT_STAT_STATE ((i - 20) / 4) == 1
  else if 16 ≤ i ∧ i < 20 then s.fld F.NET_STAT_STATE (i - 16) == 1
  else false

/-- R471: the hitless swap completes and the spare leg is active; deferred while the link trains or, for the IRO, while
a clock depends on it (R477). -/
def execCalSwapComplete (dt : Nat) (item : Fin 9) (inst : Nat) (s : State) : Answer :=
  let s := s.tick dt
  let k := calKey item.val inst
  let x := s.calInst k
  if x.swap ∧ !s.calLinkBusy k ∧ !(decide (item.val = 8) && s.fld F.CLK_STAT_REF != 0) then
    .next (s.setCal k { x with active := !x.active, swap := false })
  else .next s

/-- R475: no accepted result for HOLD_S since due, with measurements discarded for confidence: HELD. -/
def execCalHoldTimeout (dt : Nat) (item : Fin 9) (inst : Nat) (s : State) : Answer :=
  let s := s.tick dt
  let k := calKey item.val inst
  let x := s.calInst k
  match x.due with
  | some t =>
    if x.disc ∧ t + s.fld F.CAL_HOLD_HOLD_S * 1000000000 ≤ s.now then .next ((s.setCal k { x with held := true }).calShow item.val)
    else .next s
  | none => .next s

/-- CAL_TAB_DATA as CAL_TAB_ADDR selects it (R479). -/
def State.calTabRead (s : State) : Nat :=
  let k := calKey (s.fld F.CAL_TAB_ADDR_ITEM) (s.fld F.CAL_TAB_ADDR_INST)
  let x := s.calInst k
  if s.flag F.CAL_TAB_ADDR_CUR then
    let b (p : Bool) (n : Nat) : Nat := if p then 2 ^ n else 0
    b x.active 31 + b x.flagged 30 + b x.held 29 + b x.legFail 28 + b x.due.isSome 27 + wrapTo 16 (s.calApplied k)
  else wrapTo 16 (calSet k (if s.flag F.CAL_TAB_ADDR_LEG then x.sb else x.sa) (s.fld F.CAL_TAB_ADDR_SET))

/-- An MC write of CAL_TAB_DATA with CUR = 0 (R479); the flash record follows under R474. -/
def State.calTabWrite (s : State) (v : Nat) : State :=
  let k := calKey (s.fld F.CAL_TAB_ADDR_ITEM) (s.fld F.CAL_TAB_ADDR_INST)
  let x := s.calInst k
  let j := s.fld F.CAL_TAB_ADDR_SET
  let v := some (sext v 16)
  let x := if s.flag F.CAL_TAB_ADDR_LEG then { x with sb := mapSet none x.sb j v } else { x with sa := mapSet none x.sa j v }
  let moved := calCode k x.activeSets x.temp ≠ calCode k (mapGet cal0 s.calFlash k).activeSets x.temp
  ({ s.setCal k x with calMoved := s.calMoved || decide moved } : State).calFlashWrite false

end Sys2Proof.Machine
end

