-- ==== Sys2Proof/Machine/Num.lean ====
section
/-! DEFINITION. Number formats, rounding, products, the random generator and the requantiser (R145 to R168): exact
arithmetic on integers times a power of two, rounded where the spec rounds. -/
namespace Sys2Proof.Machine

/-- An exact floating-point value: NaN, an infinity (`neg`), or `m * 2 ^ e`. -/
inductive Fp where
  | nan
  | inf (neg : Bool)
  | fin (m e : Int)
  deriving DecidableEq, Repr

/-- `2 ^ k` as an integer, for a non-negative `k`. -/
def pow2 (k : Int) : Int := (2 ^ k.toNat : Nat)

/-- +0. -/
def Fp.zero : Fp := .fin 0 0

/-- Exact product; 0 times infinity is NaN (R152). -/
def fpMul : Fp → Fp → Fp
  | .nan, _ => .nan
  | _, .nan => .nan
  | .inf a, .inf b => .inf (a != b)
  | .inf a, .fin m _ => if m = 0 then .nan else .inf (a != decide (m < 0))
  | .fin m _, .inf b => if m = 0 then .nan else .inf (b != decide (m < 0))
  | .fin m e, .fin n f => .fin (m * n) (e + f)

/-- Exact sum; opposite infinities give NaN (R152). -/
def fpAdd : Fp → Fp → Fp
  | .nan, _ => .nan
  | _, .nan => .nan
  | .inf a, .inf b => if a = b then .inf a else .nan
  | .inf a, .fin _ _ => .inf a
  | .fin _ _, .inf b => .inf b
  | .fin m e, .fin n f =>
    let g := min e f
    .fin (m * pow2 (e - g) + n * pow2 (f - g)) g

/-- Strict order of two values that are not NaN. -/
def fpLt : Fp → Fp → Bool
  | .nan, _ => false
  | _, .nan => false
  | .inf a, .inf b => a && !b
  | .inf a, .fin _ _ => a
  | .fin _ _, .inf b => !b
  | .fin m e, .fin n f =>
    let g := min e f
    decide (m * pow2 (e - g) < n * pow2 (f - g))

/-- `|x|`. -/
def fpAbs : Fp → Fp
  | .nan => .nan
  | .inf _ => .inf false
  | .fin m e => .fin m.natAbs e

/-- Is `x` below zero. -/
def fpNeg : Fp → Bool
  | .nan => false
  | .inf a => a
  | .fin m _ => decide (m < 0)

/-- Round to `p` significant bits, nearest, ties to even, flushing below 2^-126 (R151). -/
def rnd (p : Nat) : Fp → Fp
  | .nan => .nan
  | .inf s => .inf s
  | .fin m e =>
    if m = 0 then .zero else
    let a := m.natAbs
    let l := Nat.log2 a
    let ex : Int := l + e
    if ex < -126 then .zero else
    let sh := l + 1 - p
    let n0 := a / 2 ^ sh
    let r := a % 2 ^ sh
    let n := if 2 * r > 2 ^ sh ∨ (2 * r = 2 ^ sh ∧ n0 % 2 = 1) then n0 + 1 else n0
    let ex' := if n = 2 ^ p then ex + 1 else ex
    if ex' > 127 then .inf (decide (m < 0))
    else .fin (if m < 0 then -(n : Int) else n) (e + sh)

/-- Rounding to FP32 (R151). -/
def rne32 (x : Fp) : Fp := rnd 24 x
/-- Rounding to BF16 (R151). -/
def rne16 (x : Fp) : Fp := rnd 8 x

/-- The code of a rounded value with an 8-bit exponent and `mb` mantissa bits (R146): FP32 has 23, BF16 has 7. -/
def encF (mb : Nat) : Fp → Nat
  | .nan => 255 * 2 ^ mb + 2 ^ (mb - 1)
  | .inf s => (if s then 2 ^ (mb + 8) else 0) + 255 * 2 ^ mb
  | .fin m e =>
    if m = 0 then 0 else
    let a := m.natAbs
    let l := Nat.log2 a
    let q := if l ≤ mb then a * 2 ^ (mb - l) else a / 2 ^ (l - mb)
    (if m < 0 then 2 ^ (mb + 8) else 0) + ((l : Int) + e + 127).toNat * 2 ^ mb + (q - 2 ^ mb)

/-- The value of a code with an 8-bit exponent and `mb` mantissa bits; subnormals read as +0 (R146, R147). -/
def decF (mb : Nat) (n : Nat) : Fp :=
  let s := n / 2 ^ (mb + 8) % 2
  let E := n / 2 ^ mb % 256
  let M := n % 2 ^ mb
  if E = 255 then (if M = 0 then .inf (s == 1) else .nan)
  else if E = 0 then .zero
  else .fin (if s = 1 then -((2 ^ mb + M : Nat) : Int) else (2 ^ mb + M : Nat)) ((E : Int) - 127 - mb)

/-- The value of an E4M3 code (R146). -/
def decE4M3 (n : Nat) : Fp :=
  let s := n / 128 % 2; let E := n / 8 % 16; let M := n % 8
  if n % 128 = 127 then .nan
  else
    let a : Int := if E = 0 then M else 8 + M
    let e : Int := if E = 0 then -9 else E - 10
    .fin (if s = 1 then -a else a) e

/-- The value of an E5M2 code (R146). -/
def decE5M2 (n : Nat) : Fp :=
  let s := n / 128 % 2; let E := n / 4 % 32; let M := n % 4
  if E = 31 then (if M = 0 then .inf (s == 1) else .nan)
  else
    let a : Int := if E = 0 then M else 4 + M
    let e : Int := if E = 0 then -16 else E - 17
    .fin (if s = 1 then -a else a) e

/-- The seven magnitudes of NV4 with zero (R148). -/
def nv4Mag : List Nat := [0, 188, 381, 585, 813, 1079, 1431, 2047]

/-- val(code) of NV4 (R148); code 8 reads 0. -/
def nv4Val (c : Nat) : Int :=
  if c % 16 < 8 then (nv4Mag.getD (c % 16) 0 : Nat) else -((nv4Mag.getD (c % 16 - 8) 0 : Nat) : Int)

/-- The formats of R305. -/
inductive Fmt where
  | fp32 | int32 | bf16 | int8 | e4m3 | e5m2 | nv4 | int4
  deriving DecidableEq, Repr

/-- The format a 3-bit FMT code names (R305). -/
def fmtOf (n : Nat) : Fmt :=
  match n % 8 with
  | 0 => .fp32 | 1 => .int32 | 2 => .bf16 | 3 => .int8 | 4 => .e4m3 | 5 => .e5m2 | 6 => .nv4 | _ => .int4

/-- Vector words of 16 lanes (R305); the half word of NV4 and INT4 counts as one. -/
def fmtWords : Fmt → Nat
  | .fp32 => 4 | .int32 => 4 | .bf16 => 2 | _ => 1

/-- Bits per element. -/
def fmtBits : Fmt → Nat
  | .fp32 => 32 | .int32 => 32 | .bf16 => 16 | .int8 => 8 | .e4m3 => 8 | .e5m2 => 8 | .nv4 => 4 | .int4 => 4

/-- An operand of the datapath: an integer or a floating-point value. -/
inductive Val where
  | int (i : Int)
  | fp (f : Fp)
  deriving DecidableEq, Repr

/-- An element with its poison mark (R156). -/
structure El where
  v : Val
  p : Bool
  deriving DecidableEq, Repr

/-- A code of a format as an operand value; NV4 codes give val(code), whose scale the caller applies. -/
def decVal (f : Fmt) (n : Nat) : Val :=
  match f with
  | .fp32 => .fp (decF 23 n)
  | .bf16 => .fp (decF 7 n)
  | .e4m3 => .fp (decE4M3 n)
  | .e5m2 => .fp (decE5M2 n)
  | .int32 => .int (sext n 32)
  | .int8 => .int (sext n 8)
  | .int4 => .int (sext n 4)
  | .nv4 => .int (nv4Val n)

/-- Widening to FP32 (R158); a NaN stays NaN. -/
def toFp : Val → Fp
  | .int i => rne32 (.fin i 0)
  | .fp f => f

/-- The value taken as zero when poisoned (R156). -/
def El.eff (e : El) : Val := if e.p then (match e.v with | .int _ => .int 0 | .fp _ => .fp .zero) else e.v

/-- A sum wrapped to 32 bits, two's complement (R155). -/
def wrap32 (x : Int) : Int := sext (wrapTo 32 x) 32

/-- Addition of the element unit (R157). -/
def euAdd (a b : El) : El :=
  match a.eff, b.eff with
  | .int i, .int j => ⟨.int (wrap32 (i + j)), a.p || b.p⟩
  | x, y => ⟨.fp (rne32 (fpAdd (toFp x) (toFp y))), a.p || b.p⟩

/-- Multiplication of the element unit (R157). -/
def euMul (a b : El) : El :=
  match a.eff, b.eff with
  | .int i, .int j => ⟨.int (wrap32 (i * j)), a.p || b.p⟩
  | x, y => ⟨.fp (rne32 (fpMul (toFp x) (toFp y))), a.p || b.p⟩

/-- max(value, 0): −0 becomes +0 and a NaN is unchanged (R312). -/
def relu (a : El) : El :=
  match a.v with
  | .int i => ⟨.int (max i 0), a.p⟩
  | .fp f => ⟨.fp (if fpNeg f then .zero else f), a.p⟩

/-- The array modes of R153. -/
inductive MMode where
  | int8 | int4 | fp8 | nv4nv4 | nv4int8 | bf16
  deriving DecidableEq, Repr

/-- Any operand of the pairs poisoned. -/
def anyPoison (ps : List (El × El)) : Bool := ps.any fun q => q.1.p || q.2.p

/-- The exact integer sum of products, poisoned operands taken as zero. -/
def intDot (ps : List (El × El)) : Int :=
  ps.foldl (fun t q => match q.1.eff, q.2.eff with
    | .int i, .int j => t + i * j
    | _, _ => t) 0

/-- One product of a floating-point mode; a poisoned operand makes it +0 (R154, R156). -/
def fpProd (q : El × El) : Fp :=
  if q.1.p || q.2.p then .zero else fpMul (toFp q.1.v) (toFp q.2.v)

/-- One level of pairwise sums (R153, BF16). -/
def pairLevel : List Fp → List Fp
  | a :: b :: r => rne32 (fpAdd a b) :: pairLevel r
  | l => l

/-- The term of one weight tile for one accumulator entry (R153) and whether it is poisoned; `sa` and `sw` are the group
scales, used in the NV4 modes; a product with a poisoned scale is +0, whatever the other factor (R156). -/
def term (mode : MMode) (ps : List (El × El)) (sa sw : El) : El :=
  match mode with
  | .int8 | .int4 => ⟨.int (intDot ps), anyPoison ps⟩
  | .fp8 => ⟨.fp (rne32 (ps.foldl (fun t q => fpAdd t (fpProd q)) .zero)), anyPoison ps⟩
  | .nv4nv4 =>
    if sa.p || sw.p then ⟨.fp .zero, true⟩
    else ⟨.fp (rne32 (fpMul (fpMul (.fin (intDot ps) (-22)) (toFp sa.v)) (toFp sw.v))), anyPoison ps⟩
  | .nv4int8 =>
    if sa.p || sw.p then ⟨.fp .zero, true⟩
    else ⟨.fp (rne32 (fpMul (fpMul (.fin (intDot ps) (-11)) (toFp sw.v)) (toFp sa.v))), anyPoison ps⟩
  | .bf16 =>
    let l := pairLevel (pairLevel (pairLevel (pairLevel (ps.map fun q => rne32 (fpProd q)))))
    ⟨.fp (l.headD .zero), anyPoison ps⟩

/-- Is the accumulator of a mode INT32 (R108). -/
def MMode.isInt : MMode → Bool
  | .int8 => true | .int4 => true | _ => false

/-- Adding a term into 32 accumulator bits (R153): wrapped in the integer modes, rne32 otherwise. -/
def accAdd (isInt : Bool) (acc : Nat) (t : Val) : Nat :=
  match isInt, t with
  | true, .int i => wrapTo 32 (sext acc 32 + i)
  | _, t => encF 23 (rne32 (fpAdd (decF 23 acc) (toFp t)))

/-- The generator of R129: state, steps since the load, index of the next draw. -/
structure Gen where
  x : Nat
  t : Nat
  m : Nat
  deriving DecidableEq, Repr

/-- load(seed) of R129. -/
def genLoad (seed : Nat) : Gen := ⟨if seed % 2 ^ 64 = 0 then 1 else seed % 2 ^ 64, 0, 0⟩

/-- step() of R129. -/
def genStep (g : Gen) : Gen :=
  let x := g.x ^^^ (g.x * 8192 % 2 ^ 64)
  let x := x ^^^ (x / 128)
  let x := x ^^^ (x * 131072 % 2 ^ 64)
  { g with x := x, t := g.t + 1 }

/-- draw() of R129. -/
def genDraw (g : Gen) : Nat × Gen :=
  let g := if g.m % 4 = 0 then genStep g else g
  (g.x / 2 ^ (16 * (g.m % 4)) % 65536, { g with m := g.m + 1 })

/-- The largest index of the magnitude grid of a target (R162): −128 widens the negative INT8 side. -/
def gridMax (f : Fmt) (neg : Bool) : Nat :=
  match f with
  | .int8 => if neg then 128 else 127
  | .e4m3 => 0x7E
  | .e5m2 => 0x7B
  | _ => 7

/-- Grid magnitude `i` of a target (R162). -/
def gridVal (f : Fmt) (i : Nat) : Fp :=
  match f with
  | .int8 => .fin i 0
  | .e4m3 => decE4M3 i
  | .e5m2 => decE5M2 i
  | _ => .fin (nv4Mag.getD i 0 : Nat) 0

/-- The largest grid index not above `a`, searching down from `i`. -/
def gridFloor (f : Fmt) (a : Fp) : Nat → Nat
  | 0 => 0
  | i + 1 => if fpLt a (gridVal f (i + 1)) then gridFloor f a i else i + 1

/-- floor((a − lo) × k ÷ (hi − lo)) for finite values with lo < hi. -/
def fracOf (a lo hi : Fp) (k : Nat) : Nat :=
  match a, lo, hi with
  | .fin am ae, .fin lm le, .fin hm he =>
    let g := min ae (min le he)
    let A := am * pow2 (ae - g); let L := lm * pow2 (le - g); let H := hm * pow2 (he - g)
    ((A - L) * k / (H - L)).toNat
  | _, _, _ => 0

/-- Comparison of twice (a − lo) with hi − lo: greater, equal. -/
def halfCmp (a lo hi : Fp) : Bool × Bool :=
  match a, lo, hi with
  | .fin am ae, .fin lm le, .fin hm he =>
    let g := min ae (min le he)
    let A := am * pow2 (ae - g); let L := lm * pow2 (le - g); let H := hm * pow2 (he - g)
    (decide (2 * (A - L) > H - L), decide (2 * (A - L) = H - L))
  | _, _, _ => (false, false)

/-- The code of a grid magnitude with a sign (R162). -/
def gridCode (f : Fmt) (neg : Bool) (i : Nat) : Nat :=
  if i = 0 then 0 else
  match f with
  | .int8 => if neg then 256 - i else i
  | .nv4 => if neg then 8 + i else i
  | _ => if neg then 128 + i else i

/-- round_element of R162: the code, the residue r, and whether the element saturated. `x` is not NaN. -/
def roundElement (f : Fmt) (stoch : Bool) (x : Fp) (u : Nat) : Nat × Nat × Bool :=
  let neg := fpNeg x
  let a := fpAbs x
  let M := gridMax f neg
  if fpLt (gridVal f M) a then (gridCode f neg M, 65536, true)
  else
    let i := gridFloor f a M
    let lo := gridVal f i
    if !(fpLt lo a) then (gridCode f neg i, 0, false)
    else
      let hi := gridVal f (i + 1)
      let d := fracOf a lo hi 65536
      let c := halfCmp a lo hi
      let up := if stoch then decide (u < d) else c.1 || (c.2 && (i + 1) % 2 == 0)
      if up then (gridCode f neg (i + 1), 65536 - d, false) else (gridCode f neg i, d, false)

/-- The poison form of a target (R165). -/
def poisonCode : Fmt → Nat
  | .nv4 => 8
  | .e4m3 => 0x7F
  | .e5m2 => 0x7F
  | _ => 0

/-- Statistics of R166 with the generator: what a requantising word threads through its elements. -/
structure RqSt where
  gen : Gen
  sq : Nat
  cnt : Nat
  sat : Nat
  pois : Nat
  deriving DecidableEq, Repr

/-- y of R160: v × QM rounded once. -/
def scaleQ (v : Val) (qm : Nat) : Fp :=
  match v with
  | .int i => rne32 (fpMul (.fin i 0) (decF 23 qm))
  | .fp f => rne32 (fpMul f (decF 23 qm))

/-- `x * 2 ^ k`, exact. -/
def fpScale (x : Fp) (k : Int) : Fp :=
  match x with
  | .fin m e => .fin m (e + k)
  | y => y

/-- Requantise one element (R160 to R166): the code, its poison, and the threaded statistics. `k` is the group exponent of
an NV4 target, 0 for a static scale. -/
def requant (f : Fmt) (stoch : Bool) (qm : Nat) (k : Int) (e : El) (st : RqSt) : (Nat × Bool) × RqSt :=
  let y := scaleQ e.v qm
  let (u, gen) := if stoch then genDraw st.gen else (0, st.gen)
  let bad := e.p || decide (y = .nan)
  if bad then ((poisonCode f, true), { st with gen := gen, pois := st.pois + 1 })
  else
    let x := match f with
      | .nv4 => fpScale y (11 - k)
      | _ => y
    let (c, r, sat) := roundElement f stoch x u
    ((c, false), { st with gen := gen, sq := st.sq + r * r / 65536, cnt := st.cnt + 1,
                           sat := if sat then st.sat + 1 else st.sat })

/-- Does mx × 2,048 ≤ 2,047 × 2^k hold. -/
def fitsExp (mx : Fp) (k : Int) : Bool := !(fpLt (.fin 2047 (k - 11)) mx)

/-- The smallest k from `lo` upward, at most `n` further, with the group fitting (R161). -/
def findExp (mx : Fp) (lo : Int) : Nat → Int
  | 0 => lo
  | n + 1 => if fitsExp mx lo then lo else findExp mx (lo + 1) n

/-- The group exponent of dynamic NV4 (R161): 0 when every element is zero, poisoned or NaN. -/
def groupExp (ys : List (Fp × Bool)) : Int :=
  let ok := (ys.filter fun q => !q.2 && decide (q.1 ≠ .nan)).map fun q => fpAbs q.1
  let mx := ok.foldl (fun m a => if fpLt m a then a else m) .zero
  match mx with
  | .fin m e =>
    if m = 0 then 0 else
    let l : Int := (Nat.log2 m.natAbs : Nat) + e
    findExp mx (max (-126) (min 127 l)) (min 3 (127 - max (-126) (min 127 l)).toNat)
  | _ => 127

/-- rne32(1 ÷ n) for a small n (R190): sixty quotient bits and a sticky bit. -/
def recip (n : Nat) : Fp :=
  rne32 (.fin ((2 ^ 60 / n * 2 + (if 2 ^ 60 % n = 0 then 0 else 1) : Nat) : Int) (-61))

end Sys2Proof.Machine
end

