-- ==== Sys2Proof/Machine/TileMem.lean ====
section
/-! DEFINITION. A tile's storage: scratchpad words through the row map (R114, R121), line buffer and rings (R110, R313),
accumulators, activation table, registers, scoreboard (R124) and random generator. -/
namespace Sys2Proof.Machine

/-- A zero word without poison. -/
def cell0 : Cell16 := ⟨0, false⟩
/-- A zero accumulator entry. -/
def acc0 : AccE := ⟨0, false⟩
/-- A ring that is not configured. -/
def ring0 : RingCfg := ⟨false, 0, 1, 1, false, 0⟩

/-- Tile `t`. -/
def State.tile (s : State) (t : Nat) : Tile := mapGet tile0 s.tiles t
/-- Replace tile `t`. -/
def State.setTile (s : State) (t : Nat) (x : Tile) : State := { s with tiles := mapSet tile0 s.tiles t x }
/-- Change tile `t`. -/
def State.modTile (s : State) (t : Nat) (f : Tile → Tile) : State := s.setTile t (f (s.tile t))

/-- State codes of R140. -/
def tIdle : Nat := 0
/-- See `tIdle`. -/
def tRun : Nat := 1
/-- See `tIdle`. -/
def tWait : Nat := 2
/-- See `tIdle`. -/
def tHalted : Nat := 3
/-- See `tIdle`. -/
def tTest : Nat := 4
/-- See `tIdle`. -/
def tRetired : Nat := 5

/-- The state code of tile `t`. -/
def State.tState (s : State) (t : Nat) : Nat := s.fld F.TILE_STAT_STATE t
/-- Put tile `t` into a state. -/
def State.setTState (s : State) (t c : Nat) : State := s.setFld F.TILE_STAT_STATE c t

/-- The first map entry of a bank from `k` on, `n` entries, that maps `lrow` (R121). -/
def State.mapEntry (s : State) (t bank lrow k : Nat) : Nat → Option Nat
  | 0 => none
  | n + 1 =>
    let e := bank * 16 + k
    if s.fld F.TILE_MAP_VALID t e = 1 ∧ s.fld F.TILE_MAP_RETIRED t e = 0 ∧ s.fld F.TILE_MAP_LROW t e = lrow then some k
    else s.mapEntry t bank lrow (k + 1) n

/-- The bank of a scratchpad word (R114). -/
def spBank (w : Nat) : Nat := (w / 16 % 16 + w % 16) % 16
/-- The logical row of a scratchpad word (R114). -/
def spRow (w : Nat) : Nat := 16 * (w / 256) + w / 16 % 16

/-- The storage key of a scratchpad word: bank and physical row (R114, R121). -/
def State.spKey (s : State) (t w : Nat) : Nat :=
  let bank := spBank w
  let row := match s.mapEntry t bank (spRow w) 0 16 with
    | some k => 1024 + k
    | none => spRow w
  bank * 1040 + row

/-- Read a word of the scratchpad or of the line buffer. -/
def State.readW (s : State) (t : Nat) (lb : Bool) (w : Nat) : Cell16 :=
  if lb then mapGet cell0 (s.tile t).lb w else mapGet cell0 (s.tile t).sp (s.spKey t w)

/-- Write a whole word; the mark is the written data's (R411). -/
def State.writeW (s : State) (t : Nat) (lb : Bool) (w : Nat) (c : Cell16) : State :=
  if lb then s.modTile t fun x => { x with lb := mapSet cell0 x.lb w c }
  else
    let k := s.spKey t w
    s.modTile t fun x => { x with sp := mapSet cell0 x.sp k c }

/-- Read `n` words. -/
def State.readWs (s : State) (t : Nat) (lb : Bool) (w : Nat) : Nat → List Cell16
  | 0 => []
  | n + 1 => s.readW t lb w :: s.readWs t lb (w + 1) n

/-- Write words in order. -/
def State.writeWs (s : State) (t : Nat) (lb : Bool) (w : Nat) : List Cell16 → State
  | [] => s
  | c :: cs => (s.writeW t lb w c).writeWs t lb (w + 1) cs

/-- Write `n` bits at bit `lo` of a word: the mark is kept, and set by poisoned data (R411). -/
def State.writeBits (s : State) (t : Nat) (lb : Bool) (w lo n v : Nat) (p : Bool) : State :=
  let c := s.readW t lb w
  s.writeW t lb w ⟨BitVec.ofNat 128 (putBits c.v.toNat lo n v), c.p || p⟩

/-- Words of a space (R304). -/
def spaceWords (lb : Bool) : Nat := if lb then 8192 else 16384

/-- Register `G[i]`; G0 reads 0 (R303). -/
def State.gReg (s : State) (t i : Nat) : Nat := if i = 0 then 0 else mapGet 0 (s.tile t).g i
/-- Write `G[i]`; a write of G0 is discarded (R303). -/
def State.setG (s : State) (t i v : Nat) : State :=
  if i = 0 then s else s.modTile t fun x => { x with g := mapSet 0 x.g i (v % 2 ^ 32) }

/-- The generator of tile `t` (R129). -/
def State.gen (s : State) (t : Nat) : Gen := ⟨(s.tile t).genX, s.fld F.TILE_RNG_STEPS_STEPS t, (s.tile t).genM⟩
/-- Store the generator of tile `t`. -/
def State.setGen (s : State) (t : Nat) (g : Gen) : State :=
  (s.modTile t fun x => { x with genX := g.x, genM := g.m }).setFld F.TILE_RNG_STEPS_STEPS g.t t

/-- An accumulator entry (R108). -/
def State.accGet (s : State) (t i : Nat) : AccE := mapGet acc0 (s.tile t).acc i
/-- Store an accumulator entry. -/
def State.accPut (s : State) (t i : Nat) (a : AccE) : State :=
  s.modTile t fun x => { x with acc := mapSet acc0 x.acc i a }

/-- Ring `k` of tile `t` (R110). -/
def State.ringOf (s : State) (t k : Nat) : RingCfg := mapGet ring0 (s.tile t).rings k
/-- Store ring `k`. -/
def State.setRing (s : State) (t k : Nat) (r : RingCfg) : State :=
  s.modTile t fun x => { x with rings := mapSet ring0 x.rings k r }

/-- The first line-buffer word of row `n` of a ring (R110). -/
def RingCfg.rowWord (r : RingCfg) (n : Nat) : Nat := 256 * (r.base + r.q * (n % r.d))

/-- Has row `n` been written (R313): rows arrive in order, so every row below the highest has been, by this task or before. -/
def RingCfg.has (r : RingCfg) (n : Nat) : Bool := decide (n < r.top)
/-- Is row `n` so far below the highest row that its slot holds another (R313, CAUSE 0x18). -/
def RingCfg.stale (r : RingCfg) (n : Nat) : Bool := decide (n + r.d < r.top)

/-- Record that row `n` has been written (R313). -/
def RingCfg.wrote (r : RingCfg) (n : Nat) : RingCfg :=
  { r with top := max r.top (n + 1) }

/-- Write row `n` of ring `k` (R131, R132): the words at the row's slots, and the fill count. -/
def State.writeRingRow (s : State) (t k n : Nat) (ws : List Cell16) : State :=
  let r := s.ringOf t k
  (s.writeWs t true (r.rowWord n) (ws.take (256 * r.q))).setRing t k (r.wrote n)

/-- Scoreboard entry `e`. -/
def State.sbGet (s : State) (t e : Nat) : Option SbEntry := mapGet none (s.tile t).sb e
/-- Store or free scoreboard entry `e`; TILE_STAT.SB_BUSY follows. -/
def State.sbPut (s : State) (t e : Nat) (x : Option SbEntry) : State :=
  let s := s.modTile t fun y => { y with sb := mapSet none y.sb e x }
  s.setFld F.TILE_STAT_SB_BUSY (putBits (s.fld F.TILE_STAT_SB_BUSY t) e 1 (if x.isSome then 1 else 0)) t

/-- The entries in use, with their numbers. -/
def State.sbList (s : State) (t : Nat) : List (Nat × SbEntry) :=
  (s.tile t).sb.filterMap fun q => q.2.map fun x => (q.1, x)

/-- The lowest free entries, at most `n`, from `e` upward. -/
def State.sbFree (s : State) (t e : Nat) : Nat → List Nat
  | 0 => []
  | n + 1 => if (s.sbGet t e).isNone then e :: s.sbFree t (e + 1) n else s.sbFree t (e + 1) n

/-- Do two ranges of one space overlap. -/
def SbEntry.overlaps (x : SbEntry) (lb : Bool) (addr n : Nat) : Bool :=
  x.lb == lb && decide (x.addr < addr + n ∧ addr < x.addr + x.n)

/-- A synchronous or asynchronous access of a word: what it reads or writes (R125). -/
structure Rng where
  write : Bool
  lb : Bool
  addr : Nat
  n : Nat
  deriving DecidableEq, Repr

/-- Must an access wait for an entry (R125): a read for inbound entries, a write for every entry. -/
def Rng.blocked (r : Rng) (x : SbEntry) : Bool := (r.write || x.inbound) && x.overlaps r.lb r.addr r.n

/-- Allocate an entry in the lowest free place (R124). -/
def State.sbAlloc (s : State) (t : Nat) (x : SbEntry) : State :=
  match s.sbFree t 0 16 with
  | e :: _ => s.sbPut t e (some x)
  | [] => s

/-- Byte `i` of a list of words. -/
def wordsByte (ws : List Cell16) (i : Nat) : Nat := bitsOf (ws.getD (i / 16) cell0).v.toNat (8 * (i % 16)) 8

/-- Elements `from` to `from + n − 1` of a run of words in a format (R145); each carries its word's mark (R156), and NV4
code 8 is poisoned (R150). -/
def elemsFrom (f : Fmt) (ws : List Cell16) (i : Nat) : Nat → List El
  | 0 => []
  | n + 1 =>
    let w := fmtBits f
    let c := ws.getD (i * w / 128) cell0
    let code := bitsOf c.v.toNat (i * w % 128) w
    ⟨decVal f code, c.p || (f == .nv4 && code == 8)⟩ :: elemsFrom f ws (i + 1) n

/-- Pack codes of `w` bits, first in the low bits, with their poison marks, into words of 128 bits. -/
def packWord (w : Nat) : List (Nat × Bool) → Nat × Bool
  | [] => (0, false)
  | (c, p) :: r => let (v, q) := packWord w r; (v * 2 ^ w + c % 2 ^ w, p || q)

/-- Words from codes, `per` codes a word, `n` words at most. -/
def packWords (w per : Nat) (cs : List (Nat × Bool)) : Nat → List Cell16
  | 0 => []
  | n + 1 =>
    let (v, p) := packWord w (cs.take per)
    ⟨BitVec.ofNat 128 v, p⟩ :: packWords w per (cs.drop per) n

/-- The code and mark that an element is written with where no requantiser is used (R159). -/
def directCode (f : Fmt) (e : El) : Nat × Bool :=
  match f, e.v with
  | .fp32, v => (encF 23 (toFp v), e.p)
  | .bf16, v =>
    let y := rne16 (toFp v)
    if e.p || decide (y = .nan) then (0x7FC0, true) else (encF 7 y, false)
  | _, .int i => (wrapTo 32 i, e.p)
  | _, .fp f => (encF 23 f, e.p)

/-- The sixteen lanes of a vector as words of a format without requantiser (R159). -/
def directWords (f : Fmt) (es : List El) : List Cell16 :=
  packWords (fmtBits f) (128 / fmtBits f) (es.map (directCode f)) (fmtWords f)

/-- Add the statistics of a requantising word to the tile's registers (R166): every field saturates. -/
def State.addStats (s : State) (t : Nat) (st : RqSt) : State :=
  (((s.addSat F.TILE_MSE_SQ_SQ st.sq t).addSat F.TILE_MSE_SQ_POISONED st.pois t).addSat
    F.TILE_MSE_CNT_CNT st.cnt t).addSat F.TILE_MSE_CNT_SAT st.sat t

/-- Count bytes received by a tile; the counter wraps (R144). -/
def State.rxBytes (s : State) (t n : Nat) : State := s.addWrap F.TILE_TRAF_RX_RX n t
/-- Count bytes sent outside the tile plane; the counter wraps (R144). -/
def State.txBytes (s : State) (t n : Nat) : State := s.addWrap F.TILE_TRAF_TX_TX n t

end Sys2Proof.Machine
end

