-- ==== Sys2Proof/Machine/Hbm.lean ====
section
/-! DEFINITION. Device HBM: addresses, page map, octets, reads and writes with poison (R222 to R225, R411, R431). -/
namespace Sys2Proof.Machine

/-- Bytes of one stack. -/
def stackBytes : Nat := 24 * 2 ^ 30
/-- Bytes of one page. -/
def pageBytes : Nat := 2 ^ 21

/-- The page-map entry of logical page `l` of stack `k` (R223). -/
def State.pmapGet (s : State) (k l : Nat) : Nat := mapGet (2 ^ 31 + l) s.pmap (12288 * k + l)
/-- Store a page-map entry. -/
def State.pmapSet (s : State) (k l v : Nat) : State :=
  { s with pmap := mapSet (2 ^ 31 + l) s.pmap (12288 * k + l) v }

/-- The physical byte address a device HBM address reaches, or none where it is unmapped (R222, R224). -/
def State.hbmPhys (s : State) (a : Nat) : Option Nat :=
  let k := a / stackBytes
  let o := a % stackBytes
  let e := s.pmapGet k (o / pageBytes)
  let pp := e % 2 ^ 14
  if k < 4 ∧ e / 2 ^ 31 % 2 = 1 ∧ bitsOf (s.fld F.STR_OCTET_RETIRED k) (pp % 4) 1 = 0
  then some (k * stackBytes + pp * pageBytes + o % pageBytes) else none

/-- The stored byte at a physical address. -/
def State.hbmByte (s : State) (p : Nat) : Byte := mapGet 0 s.hbm p
/-- The poison mark of the unit of a physical address. -/
def State.hbmMark (s : State) (p : Nat) : Bool := mapGet false s.hbmPoison (p / 64)

/-- Store one byte at a physical address. -/
def State.hbmPut (s : State) (p : Nat) (b : Byte) : State := { s with hbm := mapSet 0 s.hbm p b }
/-- Store the poison mark of a unit. -/
def State.hbmPutMark (s : State) (u : Nat) (m : Bool) : State := { s with hbmPoison := mapSet false s.hbmPoison u m }

/-- Store bytes at consecutive physical addresses. -/
def State.hbmPuts (s : State) (p : Nat) : List Byte → State
  | [] => s
  | b :: bs => (s.hbmPut p b).hbmPuts (p + 1) bs

/-- The mark that a write of `len` bytes at a physical address leaves on unit `u` (R411): the data's when the unit is
written whole, else the old mark or the data's. -/
def State.unitMark (s : State) (p len : Nat) (poison : Bool) (u : Nat) : Bool :=
  if p ≤ 64 * u ∧ 64 * u + 64 ≤ p + len then poison else mapGet false s.hbmPoison u || poison

/-- Set the marks of `n` units from `u` that a write touches. -/
def State.hbmMarks (s : State) (p len : Nat) (poison : Bool) (u : Nat) : Nat → State
  | 0 => s
  | n + 1 => (s.hbmPutMark u (s.unitMark p len poison u)).hbmMarks p len poison (u + 1) n

/-- Write bytes at a physical address within one page (R411). -/
def State.hbmWritePhys (s : State) (p : Nat) (bs : List Byte) (poison : Bool) : State :=
  let n := if bs.length = 0 then 0 else (p + bs.length - 1) / 64 - p / 64 + 1
  (s.hbmMarks p bs.length poison (p / 64) n).hbmPuts p bs

/-- A write under page migration goes to the destination page as well (R431). -/
def State.hbmWriteMig (s : State) (p : Nat) (bs : List Byte) (poison : Bool) : State :=
  let s := s.hbmWritePhys p bs poison
  let k := p / stackBytes
  let pg := p % stackBytes / pageBytes
  if s.flag F.RAS_PMIG_EN ∧ s.fld F.RAS_PMIG_STACK = k ∧ s.fld F.RAS_PMIG_SRC = pg then
    s.hbmWritePhys (k * stackBytes + s.fld F.RAS_PMIG_DST * pageBytes + p % pageBytes) bs poison
  else s

/-- Record an unmapped access by an agent that is no BAR requester: the spec names no space and no origin for it. -/
def State.aelHbm (s : State) (a data : Nat) : State := (s.ael (s.free % 4) (a % 2 ^ 30) (s.free / 4 % 256) 1 0 data).useFree

/-- Write bytes at a device address, page by page pieces given by the caller; an unmapped write is discarded and recorded
(R224). -/
def State.hbmWrite (s : State) (a : Nat) (bs : List Byte) (poison : Bool) : State :=
  match s.hbmPhys a with
  | some p => s.hbmWriteMig p bs poison
  | none => s.aelHbm a (leNat (bs.take 4))

/-- Read `n` bytes from a physical address with the mark of each byte's unit. -/
def State.hbmReadPhys (s : State) (p : Nat) : Nat → List (Byte × Bool)
  | 0 => []
  | n + 1 => (s.hbmByte p, s.hbmMark p) :: s.hbmReadPhys (p + 1) n

/-- What a stream read of `n` bytes at an unmapped address returns (R224): poisoned, with values the spec leaves open. -/
def unmappedRead (a : Nat) : Nat → List (Byte × Bool)
  | 0 => []
  | n + 1 => (BitVec.ofNat 8 (Config.unmappedByte a), true) :: unmappedRead (a + 1) n

/-- Sixteen-byte words from bytes with marks: a poisoned unit marks all its words (R411). -/
def wordsOfBytes (bs : List (Byte × Bool)) : Nat → List Cell16
  | 0 => []
  | n + 1 =>
    let w := bs.take 16
    ⟨BitVec.ofNat 128 (leNat (w.map (·.1))), w.any (·.2)⟩ :: wordsOfBytes (bs.drop 16) n

/-- The bytes of words with their marks. -/
def bytesOfWords (ws : List Cell16) : List (Byte × Bool) := ws.flatMap fun w => (leBytes w.v.toNat 16).map fun b => (b, w.p)

end Sys2Proof.Machine
end

