-- ==== Sys2Proof/Machine/StreamOps.lean ====
section
/-! DEFINITION. Stream slots: what opening, issuing, delivering, announcing, pulling and closing do (R227 to R236), and how
an engine chooses a request (R233). -/
namespace Sys2Proof.Machine

/-- A closed slot that has never been opened. -/
def slot0 : Slot := ⟨false, 0, 0, 0, 0, 1, 0, 0, 0, 0, 1, 0, false, 0, 0, 0, [], 0, false⟩
/-- An idle engine: credit is 0 after reset (R233). -/
def engine0 : Engine := ⟨[], 0, 0⟩

/-- Slot `s` of engine `k`. -/
def State.slot (st : State) (k s : Nat) : Slot := mapGet slot0 st.slots (256 * k + s)
/-- Store slot `s` of engine `k`. -/
def State.setSlot (st : State) (k s : Nat) (x : Slot) : State := { st with slots := mapSet slot0 st.slots (256 * k + s) x }
/-- Engine `k`. -/
def State.engine (st : State) (k : Nat) : Engine := mapGet engine0 st.engines k
/-- Store engine `k`. -/
def State.setEngine (st : State) (k : Nat) (x : Engine) : State := { st with engines := mapSet engine0 st.engines k x }

/-- Issue a milestone arrival on a path (R277, R280): counted as sent, applied when MS_ARRIVAL_APPLY reaches it. -/
def State.sendArrival (s : State) (path m n : Nat) : State :=
  { s with arrFly := s.arrFly ++ [⟨path, m, n⟩], arrSent := mapUpd 0 s.arrSent path (· + 1) }

/-- Bytes of the client ring of a tile slot (R230). -/
def State.slotB (st : State) (k s : Nat) : Nat := (st.fld F.STR_SLOT_BUF_LEN_M1 k s + 1) * 16
/-- Request size of a slot in bytes. -/
def State.slotBurst (st : State) (k s : Nat) : Nat := 64 * 2 ^ st.fld F.STR_SLOT_RATE_BURST k s
/-- Row length in bytes. -/
def State.slotRow (st : State) (k s : Nat) : Nat := (st.fld F.STR_SLOT_ROW_ROW_64_M1 k s + 1) * 64
/-- Bytes of one pass of the stream. -/
def State.slotTotal (st : State) (k s : Nat) : Nat := st.slotRow k s * (st.fld F.STR_SLOT_ROWS_ROWS_M1 k s + 1)
/-- Does the stream wrap. -/
def State.slotRing (st : State) (k s : Nat) : Bool := st.flag F.STR_SLOT_ROWS_RING k s

/-- The device address of byte position `p` of the stream (R229). -/
def State.slotAddr (st : State) (k s p : Nat) : Nat :=
  let q := if st.slotRing k s then p % st.slotTotal k s else p
  st.fld F.STR_SLOT_BASE_ADDR k s * 64 + q / st.slotRow k s * (st.fld F.STR_SLOT_ROW_PITCH_64 k s * 64) + q % st.slotRow k s

/-- The longest request at position `p` (R227, R229): within the burst, the row where rows do not adjoin, the stream or
its wrap, and the page. -/
def State.slotReq (st : State) (k s p : Nat) : Nat :=
  let q := if st.slotRing k s then p % st.slotTotal k s else p
  let adj := decide (st.fld F.STR_SLOT_ROW_PITCH_64 k s * 64 = st.slotRow k s)
  let row := if adj then st.slotTotal k s - q else st.slotRow k s - q % st.slotRow k s
  min (st.slotBurst k s) (min row (pageBytes - st.slotAddr k s p % pageBytes))

/-- Recompute the deadline after a change (R232): inbound `t + A / rho`, outbound `t + (B - O) / rho`. -/
def State.slotDeadline (st : State) (k s : Nat) (x : Slot) : Slot :=
  let r := st.fld F.STR_SLOT_RATE_RATE_MBPS k s
  let v := if st.flag F.STR_SLOT_RATE_DIR k s then st.slotB k s - x.o else x.a
  { x with dNum := x.t * r + v * 1000, dDen := max r 1 }

/-- Open or held at the limit, as the fetch limit says (STR_SLOT_STAT.STATE). -/
def State.slotRefresh (st : State) (k s : Nat) : State :=
  let x := st.slot k s
  let c := st.fld F.STR_SLOT_STAT_STATE k s
  if c = 1 ∨ c = 2 then
    st.setFld F.STR_SLOT_STAT_STATE (if !(st.flag F.STR_SLOT_RATE_DIR k s) && decide (x.limit ≤ x.pos) then 2 else 1) k s
  else st

/-- Open a slot (R232, R319): REWIND starts at the base, else the position is kept. -/
def State.slotOpen (st : State) (k s : Nat) (rewind : Bool) (chw limit cms : Nat) (cmsEn : Bool) : State :=
  let p := if rewind then 0 else (st.slot k s).pos
  let x : Slot := { slot0 with opened := true, t := st.now, dNum := st.now, start := p, pos := p, limit := limit * 64,
                               chw := chw, cms := cms, cmsEn := cmsEn }
  ((st.setSlot k s x).setFld F.STR_SLOT_STAT_STATE 1 k s).slotRefresh k s

/-- Close a slot (R320): the position of the data its tile took, or of what was pulled, is kept. -/
def State.slotClose (st : State) (k s : Nat) : State :=
  let x := st.slot k s
  let p := if st.flag F.STR_SLOT_RATE_DIR k s then x.start + x.pulled else x.start + x.taken * x.chw * 16
  (st.setSlot k s { slot0 with pos := p }).setFld F.STR_SLOT_STAT_STATE 0 k s

/-- Is slot `s` eligible to issue (R232, R236). -/
def State.slotEligible (st : State) (k s : Nat) : Bool :=
  let x := st.slot k s
  let c := st.fld F.STR_SLOT_STAT_STATE k s
  x.opened && decide (c = 1) && st.flag F.STR_SLOT_RATE_EN k s &&
  (if st.flag F.STR_SLOT_RATE_DIR k s then decide (0 < x.o) && (decide (st.slotBurst k s ≤ x.o) || x.eos)
   else decide (x.a + st.slotBurst k s ≤ st.slotB k s ∧ x.pos < x.limit) &&
     (st.slotRing k s || decide (x.pos < st.slotTotal k s)))

/-- The tile of a slot, as a substitution redirects it (R425). -/
def State.slotTile (st : State) (k s : Nat) : Nat := st.subTile (st.fld F.STR_SLOT_TILE_TILE k s)

/-- Free the scoreboard entries of a tile that a test selects. -/
def State.sbRetireIf (st : State) (t : Nat) (f : SbEntry → Bool) : State :=
  (st.sbList t).foldl (fun st q => if f q.2 then st.sbPut t q.1 none else st) st

/-- What a read of `n` bytes at a device address returns when it is issued (R224, R231). -/
def State.readNow (st : State) (a n : Nat) : List (Byte × Bool) := match st.hbmPhys a with
  | some p => st.hbmReadPhys p n
  | none => unmappedRead a n

/-- Issue the next read of an inbound slot (R232): it takes an outstanding entry, and what was issued to its bytes before is in what it
returns (R231). -/
def State.issueRead (st : State) (k s : Nat) : State × Nat :=
  let x := st.slot k s
  let n := min (st.slotReq k s x.pos) (x.limit - x.pos)
  let a := st.slotAddr k s x.pos
  let e := st.engine k
  let st' := st.setEngine k { e with outst := e.outst ++ [⟨s, a, st.hbmPhys a, n, st.readNow a n⟩] }
  let st' := st'.setFld F.STR_OUT_OUT_PEAK (max (st.fld F.STR_OUT_OUT_PEAK k) (e.outst.length + 1)) k
  let st' := st'.setSlot k s (st'.slotDeadline k s { x with a := x.a + n, pos := x.pos + n })
  (st'.slotRefresh k s, n)

/-- Count an arrival at the completion milestone for every chunk finished between two byte counts (R320). -/
def State.chunkArrivals (st : State) (k : Nat) (x : Slot) (b c : Nat) : State :=
  if x.cmsEn ∧ c / (x.chw * 16) > b / (x.chw * 16) then
    (List.range (c / (x.chw * 16) - b / (x.chw * 16))).foldl (fun st _ => st.sendArrival (1090 + k) x.cms 1) st
  else st

/-- Has a non-ring stream delivered its last byte. -/
def State.streamDone (st : State) (k s : Nat) (x : Slot) : Bool :=
  !(st.slotRing k s) && decide (st.slotTotal k s ≤ x.start + x.deliv)

/-- Deliver the data of an outstanding read into its tile's ring (R231, R320): an aborted or closed slot discards it. -/
def State.deliverRead (st : State) (k : Nat) (r : OutReq) : State :=
  let x := st.slot k r.slot
  let c := st.fld F.STR_SLOT_STAT_STATE k r.slot
  if !x.opened ∨ c = 4 then st else
  let t := st.slotTile k r.slot
  let lb := st.flag F.STR_SLOT_TILE_SPACE k r.slot
  let st := match r.phys with
    | some _ => st
    | none => st.aelHbm r.addr 0
  let len := st.fld F.STR_SLOT_BUF_LEN_M1 k r.slot + 1
  let base := st.fld F.STR_SLOT_BUF_BASE_W k r.slot
  let ws := wordsOfBytes r.data (r.len / 16)
  let st := ((List.range (r.len / 16)).foldl (fun st i =>
    st.writeW t lb (base + (x.deliv / 16 + i) % len) (ws.getD i cell0)) st).rxBytes t r.len
  let y := { x with deliv := x.deliv + r.len }
  let st := (st.setSlot k r.slot y).chunkArrivals k x x.deliv y.deliv
  let fin := st.streamDone k r.slot y
  let st := if fin then st.setFld F.STR_SLOT_STAT_STATE 3 k r.slot else st
  st.sbRetireIf t fun q => decide (q.op = .streamIn k r.slot) && (fin || (List.range (y.deliv / (y.chw * 16))).any fun j =>
    decide (q.addr = base + j * y.chw % len ∧ x.deliv / (y.chw * 16) ≤ j))

/-- The first outstanding read of slot `s`, with the rest of the list. -/
def takeOut (s : Nat) : List OutReq → Option (OutReq × List OutReq)
  | [] => none
  | r :: rs => if r.slot = s then some (r, rs) else (takeOut s rs).map fun q => (q.1, r :: q.2)

/-- Announce a chunk of an outbound slot (R232, R320). -/
def State.slotAnnounce (st : State) (k s : Nat) (ws : List Cell16) (eos : Bool) : State :=
  let x := st.slot k s
  st.setSlot k s (st.slotDeadline k s { x with o := x.o + ws.length * 16, t := st.now, data := x.data ++ ws,
                                               ann := x.ann + 1, eos := x.eos || eos })

/-- Pull the next write of an outbound slot (R232, R236): the bytes reach HBM, the tile's entry of a chunk pulled whole
retires, and the completion milestone is told. -/
def State.pullWrite (st : State) (k s : Nat) : State × Nat :=
  let x := st.slot k s
  let n := min (st.slotReq k s x.pos) (min x.o (st.slotBurst k s)) / 16 * 16
  let ws := x.data.take (n / 16)
  let st := st.hbmWrite (st.slotAddr k s x.pos) ((bytesOfWords ws).map (·.1)) (ws.any (·.p))
  let y := { x with o := x.o - n, pos := x.pos + n, pulled := x.pulled + n, data := x.data.drop (n / 16) }
  let st := (st.setSlot k s (st.slotDeadline k s y)).chunkArrivals k x x.pulled y.pulled
  let t := st.slotTile k s
  let len := st.fld F.STR_SLOT_BUF_LEN_M1 k s + 1
  let base := st.fld F.STR_SLOT_BUF_BASE_W k s
  let st := (st.txBytes t n).sbRetireIf t fun q =>
    (match q.op with | .streamOut e z _ _ => decide (e = k ∧ z = s) | _ => false) &&
    (List.range (y.pulled / (y.chw * 16))).any fun j =>
      decide (q.addr = base + j * y.chw % len ∧ x.pulled / (y.chw * 16) ≤ j)
  (if y.eos ∧ y.o = 0 then st.setFld F.STR_SLOT_STAT_STATE 3 k s else st, n)

/-- The open slots of engine `k`. -/
def State.openSlots (st : State) (k : Nat) : List Nat :=
  (st.slots.filter fun q => q.1 / 256 == k && q.2.opened).map fun q => q.1 % 256

/-- The slot of least deadline of a list; ties go to the lower number (R233). -/
def State.minDeadline (st : State) (k : Nat) : List Nat → Option Nat
  | [] => none
  | s :: ss => match st.minDeadline k ss with
    | none => some s
    | some r =>
      let x := st.slot k s; let y := st.slot k r
      if y.dNum * x.dDen < x.dNum * y.dDen then some r else some s

/-- Issue one request of a slot, read or write; bytes issued. -/
def State.issueSlot (st : State) (k s : Nat) : State × Nat :=
  if st.flag F.STR_SLOT_RATE_DIR k s then st.pullWrite k s else st.issueRead k s

/-- The slot that engine `k` chooses, and whether it goes as best effort (R233); none while a chosen read finds 512 outstanding. -/
def State.engineChoice (st : State) (k : Nat) : Option (Nat × Bool) :=
  let el := (st.openSlots k).filter fun s => st.slotEligible k s
  let e := el.filter fun s => st.flag F.STR_SLOT_RATE_CLASS k s
  let f := el.filter fun s => !(st.flag F.STR_SLOT_RATE_CLASS k s)
  let eng := st.engine k
  let free (s : Nat) : Bool := decide (eng.outst.length < 512) || st.flag F.STR_SLOT_RATE_DIR k s
  let dmin := st.minDeadline k e
  let late : Bool := match dmin with
    | none => true
    | some s => decide ((st.now + st.fld F.STR_ARB_SLACK_NS) * (st.slot k s).dDen < (st.slot k s).dNum)
  let fNext := (f.find? (fun s => decide (eng.rr ≤ s))).orElse fun _ => f.head?
  match fNext, dmin with
  | some s, d =>
    if late || decide (0 ≤ eng.credit) then (if free s then some (s, true) else none)
    else d.bind fun s => if free s then some (s, false) else none
  | none, some s => if free s then some (s, false) else none
  | none, none => none

/-- Issue one request of slot `s` and settle the best-effort credit (R233). -/
def State.engineTake (st : State) (k s : Nat) (best : Bool) : State :=
  let c := (st.engine k).credit
  let (st, n) := st.issueSlot k s
  if best then st.setEngine k { st.engine k with credit := c - 1000 * n, rr := (s + 1) % 256 }
  else st.setEngine k { st.engine k with credit := min (c + st.fld F.STR_ARB_BE_PERMILLE * n) (2048 * 1000) }

/-- One choice of engine `k` (R233). -/
def State.engineIssue (st : State) (k : Nat) : State :=
  match st.engineChoice k with
  | some (s, best) => st.engineTake k s best
  | none => st

/-- Best-effort bytes of a BAR4 access or a copy cost their share (R233). -/
def State.chargeBest (st : State) (k n : Nat) : State :=
  let e := st.engine k
  st.setEngine k { e with credit := e.credit - 1000 * n }

end Sys2Proof.Machine
end

