-- ==== Sys2Proof/Machine/Power.lean ====
section
/-! DEFINITION. Power: toll gate, columns, throttling, entry into D1 and D3, wakes and rails (R440 to R462). -/
namespace Sys2Proof.Machine

/-- A column with nothing in progress. -/
def col0 : ColSt := ⟨none, false, false, none, false, false⟩
/-- Column `c`. -/
def State.col (s : State) (c : Nat) : ColSt := mapGet col0 s.cols c
/-- Store column `c`. -/
def State.setCol (s : State) (c : Nat) (x : ColSt) : State := { s with cols := mapSet col0 s.cols c x }

/-- f_col of an operating point in MHz (R448). -/
def opMhz (op : Nat) : Nat := [400, 600, 800, 1000, 1150, 1300, 1450, 1600].getD op 1600

/-- The clock of a column takes the frequency of a point, halved in a halving window (R451). -/
def State.setMhz (s : State) (c op : Nat) : State :=
  s.setFld F.CLK_COL_MHZ (if s.flag F.PWR_COL_HALVED c then opMhz op / 2 else opMhz op) c

/-- Where an entry or wake stands: the step that the log names (R459). -/
def State.seqStep (s : State) : Nat :=
  match s.seq.entry, s.seq.wake with
  | some _, _ => 1
  | none, some _ => if s.seq.rails then 2 else 4
  | none, none => 0

/-! ## Toll gate -/

/-- Tokens that a domain costs (R452). -/
def domCost (d : Nat) : Nat := if d = 2 ∨ (6 ≤ d ∧ d ≤ 9) then 2 else 1
/-- Tokens that a request costs (R452). -/
def tollCost : TollFor → Nat
  | .dom d => domCost d
  | .colOn _ => 4
  | .unpark _ => 1
  | .raise _ => 1
  | .rethrow _ => 1
/-- The column of a request. -/
def tollCol : TollFor → Option Nat
  | .dom _ => none
  | .colOn c => some c
  | .unpark c => some c
  | .raise c => some c
  | .rethrow c => some c

/-- The queue lengths that PWR_TOLL shows, and TOLL_WAIT of the columns (R466). -/
def State.tollShow (s : State) : State :=
  let s := (s.setFld F.PWR_TOLL_QHIGH (min s.tollHigh.length 255)).setFld F.PWR_TOLL_QNORM (min s.tollNorm.length 255)
  (List.range 34).foldl (fun s c =>
    s.setFld F.PWR_COL_TOLL_WAIT (if (s.tollHigh ++ s.tollNorm).any (fun q => tollCol q == some c) then 1 else 0) c) s

/-- Begin TRIM to a point (R449): a lower one takes the new frequency first. -/
def State.startTrim (s : State) (c op : Nat) : State :=
  let s := if op < s.fld F.PWR_COL_CUR_OP c then s.setMhz c op else s
  (s.setFld F.PWR_COL_STATE 2 c).setCol c { s.col c with trimTo := some op }

/-- What the grant of a request begins (R441, R447, R449, R450). -/
def State.tollBegin (s : State) : TollFor → State
  | .dom d => s.setFld F.PWR_DOM_STATE 3 d
  | .colOn c => s.setCol c { s.col c with starting := true, good := false }
  | .unpark c => s.setCol c { s.col c with starting := true }
  | .raise c =>
    let op := s.fld F.PWR_COL_REQ_OP c
    if s.fld F.PWR_COL_STATE c = 0 ∧ !s.flag F.PWR_COL_EMERG c ∧ op ≠ s.fld F.PWR_COL_CUR_OP c then s.startTrim c op else s
  | .rethrow c =>
    if s.fld F.PWR_COL_STATE c = 0 ∧ s.fld F.PWR_COL_CUR_OP c < s.fld F.PWR_COL_REQ_OP c then
      s.startTrim c (s.fld F.PWR_COL_CUR_OP c + 1) else s

/-- Grant the head of the HIGH queue while the level covers it, then the head of the NORMAL queue while the HIGH queue is
empty (R453). -/
def State.tollGrant (s : State) : Nat → State
  | 0 => s
  | n + 1 =>
    let lv := s.fld F.PWR_TOLL_LEVEL
    match s.tollHigh, s.tollNorm with
    | q :: qs, _ =>
      if tollCost q ≤ lv then
        let s : State := { s.setFld F.PWR_TOLL_LEVEL (lv - tollCost q) with tollHigh := qs }
        (s.tollBegin q).tollGrant n
      else s
    | [], q :: qs =>
      if tollCost q ≤ lv then
        let s : State := { s.setFld F.PWR_TOLL_LEVEL (lv - tollCost q) with tollNorm := qs }
        (s.tollBegin q).tollGrant n
      else s
    | [], [] => s

/-- Grant what the level covers, and show the queues. -/
def State.tollRun (s : State) : State := (s.tollGrant (s.tollHigh.length + s.tollNorm.length)).tollShow

/-- Requests arrive at the toll gate (R453). -/
def State.tollAsk (s : State) (high : Bool) (qs : List TollFor) : State :=
  let s : State := if high then { s with tollHigh := s.tollHigh ++ qs } else { s with tollNorm := s.tollNorm ++ qs }
  s.tollRun

/-- Cancel queued requests, with no token taken (R465). -/
def State.tollCancel (s : State) (p : TollFor → Bool) : State :=
  let s : State := { s with tollHigh := s.tollHigh.filter (fun q => !p q), tollNorm := s.tollNorm.filter (fun q => !p q) }
  s.tollShow

/-! ## Columns -/

/-- A column starts on its way to OFF or PARK (R447); to OFF cancels its queued requests (R465). -/
def State.colLeave (s : State) (c goal : Nat) : State :=
  let s := if goal = 3 then s.tollCancel (fun q => tollCol q == some c) else s
  s.setCol c { s.col c with leaving := some goal, starting := if goal = 3 then false else (s.col c).starting }

/-- What a committed write of PWR_COL begins (R447, R449): `high` for a recovery transaction (R452). -/
def State.colCommit (s : State) (c : Nat) (high : Bool) : State :=
  let st := s.fld F.PWR_COL_STATE c
  let req := s.fld F.PWR_COL_REQ c
  let op := s.fld F.PWR_COL_REQ_OP c
  let cur := s.fld F.PWR_COL_CUR_OP c
  let x := s.col c
  let queued := (s.tollHigh ++ s.tollNorm).any (fun q => tollCol q == some c)
  let s := if st = 1 ∨ (st = 3 ∧ !x.good) then s.setFld F.PWR_COL_CUR_OP op c else s
  if st = 2 then s.setCol c { x with waitOp := true }
  else if st = 3 then
    if req = 3 then (if x.starting ∨ queued then s.colLeave c 3 else s)
    else if x.starting ∨ queued then s else s.tollAsk high [.colOn c]
  else if st = 1 then
    if req = 3 then s.colLeave c 3
    else if req = 0 ∧ !x.starting ∧ !queued then s.tollAsk high [.unpark c] else s
  else
    if req ≠ 0 then s.colLeave c req
    else
      let s := s.setCol c { x with leaving := none }
      if s.flag F.PWR_COL_EMERG c ∧ cur ≤ op then s
      else if op < cur then s.startTrim c op
      else if cur < op ∧ !queued then s.tollAsk high [.raise c] else s

/-- The end of TRIM (R449): the point is reached, EMERG clears at REQ_OP, then a step-down or a commit that waited runs. -/
def State.trimEnd (s : State) (c : Nat) : State :=
  let x := s.col c
  let op := x.trimTo.getD (s.fld F.PWR_COL_CUR_OP c)
  let s := ((s.setFld F.PWR_COL_CUR_OP op c).setFld F.PWR_COL_STATE 0 c).setMhz c op
  let s := s.setCol c { x with trimTo := none, waitOp := false, down := false }
  let s := if s.flag F.PWR_COL_EMERG c ∧ op = s.fld F.PWR_COL_REQ_OP c ∧ !x.down then s.setFld F.PWR_COL_EMERG 0 c else s
  if x.down ∧ 0 < op then (s.startTrim c (op - 1)).setCol c { (s.startTrim c (op - 1)).col c with waitOp := x.waitOp }
  else if x.waitOp then s.colCommit c false else s

/-- R449: the operating-point change of a column ends. -/
def execTrimComplete (dt : Nat) (c : Fin 34) (s : State) : Answer :=
  let s := s.tick dt
  if s.fld F.PWR_COL_STATE c.val = 2 then .next (s.trimEnd c.val) else .next s

/-- R450: a diode of the column reads 108 °C or more: it drops one point, after a raise in TRIM has completed (R465). -/
def execThermalStepDown (dt : Nat) (c : Fin 34) (s : State) : Answer :=
  let s := s.tick dt
  let st := s.fld F.PWR_COL_STATE c.val
  if st = 0 ∨ st = 2 then
    let s := (s.setFld F.PWR_COL_EMERG 1 c.val).setFld F.PWR_THROT_THERM 1
    if st = 2 then .next (s.setCol c.val { s.col c.val with down := true })
    else if s.fld F.PWR_COL_CUR_OP c.val = 0 then .next s
    else .next (s.startTrim c.val (s.fld F.PWR_COL_CUR_OP c.val - 1))
  else .next s

/-- R450: every diode of the column has read below 105 °C for 10 ms: it rises one point towards REQ_OP, for one token. -/
def execThermalStepUp (dt : Nat) (c : Fin 34) (s : State) : Answer :=
  let s := s.tick dt
  if s.flag F.PWR_COL_EMERG c.val ∧ s.fld F.PWR_COL_STATE c.val = 0 then
    if s.fld F.PWR_COL_REQ_OP c.val ≤ s.fld F.PWR_COL_CUR_OP c.val then .next (s.setFld F.PWR_COL_EMERG 0 c.val)
    else if (s.tollHigh ++ s.tollNorm).any (fun q => tollCol q == some c.val) then .next s
    else .next (s.tollAsk false [.rethrow c.val])
  else .next s

/-- R453: the bucket gains one token, up to eight, and the queues are served. -/
def execTollRefill (dt : Nat) (s : State) : Answer :=
  let s := s.tick dt
  .next ((s.setFld F.PWR_TOLL_LEVEL (min 8 (s.fld F.PWR_TOLL_LEVEL + 1))).tollRun)

/-- Every column clock halves, or runs at its full frequency again (R451). -/
def State.halve (s : State) (on : Bool) : State :=
  (List.range 34).foldl (fun s c =>
    let s := s.setFld F.PWR_COL_HALVED (if on then 1 else 0) c
    if s.flag F.CLK_COL_LOCK c then
      s.setMhz c (match (s.col c).trimTo with
        | some op => min op (s.fld F.PWR_COL_CUR_OP c)
        | none => s.fld F.PWR_COL_CUR_OP c)
    else s) s

/-- R451: the VIN_CORE current exceeds CEIL_A: every column clock halves for a window. -/
def execOvercurrent (dt : Nat) (s : State) : Answer :=
  let s := s.tick dt
  .next (((s.inc F.PWR_THROT_HALVINGS).setFld F.PWR_THROT_OVERCUR 1).halve true)

/-- R451: a halving window ends; a further one follows while the current still exceeds the ceiling. -/
def execHalvingEnd (dt : Nat) (still : Bool) (s : State) : Answer :=
  let s := s.tick dt
  if (List.range 34).any (fun c => s.flag F.PWR_COL_HALVED c) then
    if still then .next (s.inc F.PWR_THROT_HALVINGS) else .next (s.halve false)
  else .next s

/-- R451: the current exceeds CAP_A: CAP is set and the MC is told. -/
def execCurrentAboveCap (dt : Nat) (s : State) : Answer :=
  let s := s.tick dt
  .next ((s.setFld F.PWR_THROT_CAP 1).tell (.note 1 (s.fld F.PWR_LIMIT_CAP_A)))

/-! ## Domains -/

/-- Registers of PWR offsets 0x000 to 0x024, which the AON keeps (R466). -/
def aonReg (a : Nat) : Bool := decide (regAddr .PWR_STAT ≤ a ∧ a < regAddr .PWR_STAT + 0x28)

/-- Return the registers that `p` names to their Reset column. -/
def State.dropRegs (s : State) (p : Nat → Bool) : State := { s with regs := s.regs.filter (fun e => !p e.1) }

/-- Is a register of domain `d`. -/
def inDomain (d a : Nat) : Bool :=
  match findReg a with
  | some h => regDomain h a == some d
  | none => false

/-- A register in a tile window of column `c`. -/
def inColumn (c a : Nat) : Bool :=
  match findReg a with
  | some h => decide (0x1000000 ≤ a ∧ a < 0x1440000) && (regDomain h a).isNone && tileCol h.i == c
  | none => false

/-- Column `c` is unpowered (R446): tile SRAM and map entries are lost, its clock stops. -/
def State.colOff (s : State) (c : Nat) : State :=
  let s := s.dropRegs (inColumn c)
  let s : State := { s with tiles := mapClear (32 * c) (32 * c + 32) s.tiles }
  let s := ((s.setFld F.CLK_COL_LOCK 0 c).setFld F.CLK_COL_MHZ 0 c).setFld F.PWR_COL_STATE 3 c
  ((s.setFld F.PWR_COL_CUR_OP (s.fld F.PWR_COL_REQ_OP c) c).setFld F.PWR_COL_EMERG 0 c).setCol c col0

/-- HBM contents of stack `k` are lost (R442), and with them the plan banks' packages. -/
def State.hbmGone (s : State) (k : Nat) : State :=
  let lo := k * 0x600000000
  { s with banks := [], hbm := mapClear lo (lo + 0x600000000) s.hbm
           hbmPoison := mapClear (lo / 64) ((lo + 0x600000000) / 64) s.hbmPoison }

/-- What a result stream keeps without power: DSEQ, which only a device reset resets (R386). -/
def rsKept (m : FMap RsBuf) : FMap RsBuf :=
  (m.map fun e => (e.1, (⟨[], [], e.2.dseq, 0, 0⟩ : RsBuf))).filter fun e => decide (e.2.dseq ≠ 0)

/-- What the IOD, PCIE and the other domains held is lost (R442); what AON, MC SRAM, HBM and flash hold stays. -/
def State.iodGone (s : State) : State :=
  { State.reset with
    pending := s.pending, now := s.now, aonNs := s.aonNs, freeCtr := s.freeCtr, out := s.out
    regs := s.regs.filter (fun e => aonReg e.1 || inDomain 1 e.1)
    log := s.log, logNext := s.logNext, logLost := s.logLost, mirror := s.mirror, twoByEight := s.twoByEight
    way := s.way, hbm := s.hbm, hbmPoison := s.hbmPoison, origins := s.origins
    keys := s.keys, keyMask := s.keyMask, keyFresh := s.keyFresh, auth := s.auth, wrapKey := s.wrapKey
    keyCounter := s.keyCounter, ksFlash := s.ksFlash, challenge := s.challenge, dbgFrom := s.dbgFrom
    tollHigh := s.tollHigh, tollNorm := s.tollNorm, seq := s.seq, railsOffN := s.railsOffN
    thermtripN := s.thermtripN, pcieWakeN := s.pcieWakeN, cal := s.cal, calFlash := s.calFlash
    calMoved := s.calMoved, calWrote := s.calWrote, pairFault := s.pairFault, bsOver := s.bsOver, policy := s.policy
    fwSlots := s.fwSlots, activeSlot := s.activeSlot, pendingSlot := s.pendingSlot, running := s.running
    runFrom := s.runFrom, fuses := s.fuses, fuseBox := s.fuseBox, repair := s.repair, repairAt := s.repairAt, boot := s.boot
    pairTry := s.pairTry, noiseBase := s.noiseBase, rowCe := s.rowCe, pageCe := s.pageCe
    octPages := s.octPages, pageUe := s.pageUe, pagesOut := s.pagesOut, rs := rsKept s.rs
    banks := s.banks.map (fun e => (e.1, { e.2 with st := min e.2.st 1 })) }

/-- What the MC domain held is lost (R442): the keys, tables and sets in use; flash keeps its records. -/
def State.mcGone (s : State) : State :=
  let s := s.dropRegs (inDomain 1)
  { s with keys := [], keyMask := [], auth := [], wrapKey := none, keyCounter := 0, origins := [], challenge := none
           cal := [], bsOver := [], noiseBase := [], rowCe := [], pageCe := [], octPages := [], pageUe := []
           banks := [], switch := none, mcFifo := [], mcRun := [] }

/-- The contents of a domain go with its supply (R442, R446); its STATE reads 0. -/
def State.domGone (s : State) (d : Nat) : State :=
  if 15 ≤ d then s.colOff (d - 15) else
  let keep := (List.range 15).map (fun k => s.fld F.PWR_DOM_STATE k)
  let s := if d = 1 then s.mcGone else if d = 2 then s.iodGone else s.dropRegs (inDomain d)
  let s := if d = 2 then keep.zipIdx.foldl (fun s (v, k) => s.setFld F.PWR_DOM_STATE v k) s else s
  let s : State := if d = 4 then { s with arp := [], rs := rsKept s.rs }
    else if d = 14 then { s with cal := calKept s.cal, calRuns := [], calCmds := [] } else if d = 5 then { s with jcts := [] }
    else if 10 ≤ d ∧ d ≤ 13 then
      let g := d - 10
      { s with links := mapClear (16 * g) (16 * g + 16) s.links, refs := mapClear (4 * g) (4 * g + 4) s.refs
               refTab := mapClear (0x110000 * g) (0x110000 * (g + 1)) s.refTab }
    else if 6 ≤ d ∧ d ≤ 9 then
      { s with slots := mapClear (256 * (d - 6)) (256 * (d - 5)) s.slots, engines := mapClear (d - 6) (d - 5) s.engines
               pmap := mapClear (12288 * (d - 6)) (12288 * (d - 5)) s.pmap }
    else s
  s.setFld F.PWR_DOM_STATE 0 d

/-! ## Entry -/

/-- The stage of an entry at which a domain is switched off (R445). -/
def offStage (d : Nat) : Nat :=
  if 15 ≤ d then 0 else if d = 3 ∨ d = 4 ∨ d = 5 ∨ (10 ≤ d ∧ d ≤ 13) then 1 else if 6 ≤ d ∧ d ≤ 9 then 2
  else if d = 14 ∨ d = 2 then 3 else 4

/-- Has entry into `tgt` brought domain `d` to where it goes. -/
def State.offDone (s : State) (tgt d : Nat) : Bool :=
  if 15 ≤ d then s.fld F.PWR_COL_STATE (d - 15) == 3 && !(s.col (d - 15)).starting
  else if 6 ≤ d ∧ d ≤ 9 ∧ tgt = 1 then s.fld F.PWR_DOM_STATE d == 0 || s.fld F.PWR_DOM_STATE d == 2
  else if d = 1 ∧ tgt = 1 then true
  else s.fld F.PWR_DOM_STATE d == 0

/-- Every domain that an entry switches. -/
def offAll : List Nat := (List.range 49).drop 1

/-- Rails that a domain needs, by rail bit (R459). -/
def railNeeds (rail d : Nat) : Bool :=
  match rail with
  | 0 => decide (15 ≤ d ∨ (6 ≤ d ∧ d ≤ 9))
  | 1 => decide (d = 1 ∨ d = 2 ∨ d = 3 ∨ d = 4 ∨ d = 5 ∨ (10 ≤ d ∧ d ≤ 13) ∨ d = 14)
  | 2 => decide (d = 3 ∨ d = 4 ∨ d = 5 ∨ (10 ≤ d ∧ d ≤ 13))
  | 3 => decide (d = 3 ∨ d = 4 ∨ d = 5 ∨ (10 ≤ d ∧ d ≤ 13))
  | 4 => decide (6 ≤ d ∧ d ≤ 9)
  | _ => false

/-- A wake begins (R458): BUSY, RAILS_OFF_N and THERMTRIP_N released; from D1 the domain requests are queued. -/
def wakeDoms : List TollFor := [2, 3, 14, 6, 7, 8, 9, 10, 11, 12, 13, 4, 5].map TollFor.dom

/-- Are all rails good that a wake waits for. -/
def State.railsGood (s : State) : Bool := s.fld F.PWR_RAIL_GOOD == 255

/-- Step 2 of a wake is over (R458): the MC domain is requested, or from D1 all others. -/
def State.wakeRails (s : State) : State :=
  let s : State := { s with seq := { s.seq with rails := false } }
  let s := if s.fld F.DEV_START_STAGE = 1 then s.setFld F.DEV_START_STAGE 2 else s
  if s.fld F.PWR_DOM_STATE 1 = 1 then s.tollAsk true wakeDoms else s.tollAsk true [.dom 1]

/-- Begin a wake of source `code` (R457, R458). -/
def State.wakeStart (s : State) (code : Nat) : State :=
  let from_ := s.fld F.PWR_STAT_DSTATE
  let s := (s.inc F.PWR_WAKE_STAT_COUNT).setFld F.PWR_WAKE_STAT_SOURCE code
  let s := s.setFld F.PWR_STAT_BUSY 1
  let s : State := { s with railsOffN := true, thermtripN := true
                            seq := { s.seq with wake := some from_, rails := true, on := [], abandon := false }
                            boot := if from_ = 3 then ⟨s.aonNs, true, false, s.boot.slew, 0, [], []⟩ else s.boot }
  let s := if from_ = 1 then s else s.setFld F.DEV_START_STAGE 1
  if from_ = 1 ∨ s.railsGood then s.wakeRails else s

/-- Whether the AON accepts a wake now (R450, R459). -/
def State.wakeOk (s : State) : Bool :=
  decide (s.seq.hold ≤ s.aonNs) && s.seq.bad.all (fun b => match b.2 with
    | some t => decide (t + 1000000000 ≤ s.aonNs)
    | none => false)

/-- A wake source is latched (R455, R457). -/
def State.wakeBy (s : State) (code : Nat) : State :=
  if s.seq.entry.isSome then
    { s with seq := { s.seq with latched := some (match s.seq.latched with
        | some c => min c code
        | none => code) } }
  else if s.seq.wake.isSome then s.setFld F.PWR_WAKE_STAT_SOURCE (min code (s.fld F.PWR_WAKE_STAT_SOURCE))
  else if (s.fld F.PWR_STAT_DSTATE = 1 ∨ s.fld F.PWR_STAT_DSTATE = 3) ∧ s.wakeOk then s.wakeStart code
  else s

/-- The entry has switched everything off (R445): D1, or with RAILS_OFF_N low D3; a latched wake follows (R457). -/
def State.entryEnd (s : State) : State :=
  match s.seq.entry with
  | none => s
  | some tgt =>
    if offAll.all (s.offDone tgt) then
      let s := (s.setFld F.PWR_STAT_DSTATE tgt).setFld F.PWR_STAT_BUSY 0
      let w := s.seq.latched
      let s : State := { s with seq := { s.seq with entry := none, latched := none }
                                railsOffN := if tgt = 3 then false else s.railsOffN }
      match w with
      | some code => if s.wakeOk then (s.setFld F.PWR_WAKE_STAT_DURING_ENTRY 1).wakeStart code else s
      | none => s
    else s

/-- Entry begins (R445): BUSY; every column is on its way to OFF; queued requests go (R465). -/
def State.enter (s : State) (tgt : Nat) : State :=
  let s := s.setFld F.PWR_STAT_BUSY 1
  let t0 := match s.seq.entry with
    | some t => max t tgt
    | none => tgt
  let s : State := { s with tollHigh := [], tollNorm := []
                            seq := { s.seq with entry := some t0, wake := none, rails := false, abandon := false, off := [] } }
  let s := (List.range 34).foldl (fun s c =>
    if s.fld F.PWR_COL_STATE c ≠ 3 ∨ (s.col c).starting then s.setCol c { s.col c with leaving := some 3 } else s) s
  s.tollShow.entryEnd

/-- Emergency entry (R444): EMERG, and one log entry that names the cause. -/
def State.emergency (s : State) (tgt cause : Nat) : State :=
  ((s.setFld F.PWR_STAT_EMERG 1).logE 0 0xE007 [cause, 0, 0, 0]).enter tgt

/-- The conditions of R443 on an entry. -/
def State.quiet (s : State) : Bool :=
  (List.range 16).all (fun g => !s.flag F.ODO_TG_CFG_EN g && s.fld F.ING_RES_STAT_FILL g == 0) &&
  (List.range 64).all (fun x => s.fld F.WAY_TX_STAT_STATE x == 0 && s.fld F.DMA_STAT_STATE x == 0) && s.bist.isNone

/-- May entry begin (R443, R457, R519): D0, nothing in progress, quiet. -/
def State.mayEnter (s : State) : Bool :=
  s.fld F.PWR_STAT_DSTATE == 0 && s.seq.entry.isNone && s.seq.wake.isNone && s.quiet

/-- A direct write of PWR_DSTATE (R443): refused with STATE_POWER where the conditions do not hold. -/
def State.dstateWrite (s : State) (r : Requester) (v : Nat) : State :=
  if r ≠ .mc then s.aelReg r (regAddr .PWR_DSTATE) 11 0 v
  else if bitsOf v 31 1 = 0 ∨ v % 2 = 0 then s
  else if s.mayEnter then s.enter (v % 4)
  else (s.aelReg r (regAddr .PWR_DSTATE) 9 0 v).tell (.note 8 0x050A)

/-- R443: an MC write of PWR_DSTATE. -/
def execPwrDstateWrite (dt : Nat) (r : Requester) (data : Word) (s : State) : Answer :=
  let s := s.tick dt
  .next (s.accessing r (regAddr .PWR_DSTATE) 4 data.toNat fun _ => s.dstateWrite r data.toNat)

/-- A wake is abandoned (R460): what it has switched on goes off in reverse order, columns first, and the state it started from returns;
requests that wait are cancelled. -/
def State.wakeAbandon (s : State) (rail : Nat) : State :=
  let s := (s.setFld F.PWR_STAT_WAKE_FAIL 1).logE 0 0xE001 [rail, s.fld F.PWR_STAT_DSTATE, s.seqStep, 0]
  let cols := (List.range 34).reverse.filter fun c => s.fld F.PWR_COL_STATE c != 3 || (s.col c).starting
  let on := cols.map (15 + ·) ++ ((List.range 15).reverse.filter fun d => s.fld F.PWR_DOM_STATE d == 3) ++ s.seq.on
  let s : State := { s with tollHigh := [], tollNorm := [], seq := { s.seq with rails := false, abandon := true, on := on } }
  s.tollShow

/-- The abandonment is over once every domain of the wake is off again (R460). -/
def State.abandonEnd (s : State) : State :=
  match s.seq.wake with
  | some from_ =>
    if s.seq.abandon ∧ s.seq.on.isEmpty then
      let back := if from_ = 1 then 1 else 3
      { s.setFld F.PWR_STAT_DSTATE back |>.setFld F.PWR_STAT_BUSY 0 with
        railsOffN := decide (back = 1), seq := { s.seq with wake := none, abandon := false } }
    else s
  | none => s

/-- R447, R441, R445, R460: a domain has finished switching off, or a column has finished parking or switching off. -/
def execDomainSwitchedOff (dt : Nat) (d : Fin 49) (s : State) : Answer :=
  let s := s.tick dt
  let d := d.val
  match s.seq.entry with
  | some tgt =>
    if d ≠ 0 ∧ !s.offDone tgt d ∧ (offAll.filter (fun k => decide (offStage k < offStage d))).all (s.offDone tgt) then
      let s := if 6 ≤ d ∧ d ≤ 9 then
          let s := if tgt = 3 ∨ s.seq.hbmLost then s.hbmGone (d - 6) else s
          let s := s.domGone d
          if tgt = 1 then s.setFld F.PWR_DOM_STATE 2 d else s
        else s.domGone d
      .next s.entryEnd
    else .next s
  | none =>
    if s.seq.abandon then
      match s.seq.on with
      | [] => .next s.abandonEnd
      | k :: ks =>
        if k = d then
          let s := s.domGone d
          let s := if s.seq.wake = some 1 ∧ 6 ≤ d ∧ d ≤ 9 then s.setFld F.PWR_DOM_STATE 2 d else s
          let s : State := { s with seq := { s.seq with on := ks } }
          .next s.abandonEnd
        else .next s
    else if 15 ≤ d then
      let c := d - 15
      match (s.col c).leaving with
      | some 3 => .next (s.colOff c)
      | some _ =>
        if (List.range 32).all (fun r => s.fld F.TILE_STAT_STATE (32 * c + r) == 0) then
          let s := s.setFld F.PWR_COL_STATE 1 c
          .next ((s.setFld F.PWR_COL_CUR_OP (s.fld F.PWR_COL_REQ_OP c) c).setCol c { s.col c with leaving := none })
        else .next s
      | none => .next s
    else if s.seq.off.contains d then
      let s := s.domGone d
      .next { s.setFld F.PWR_DOM_REQ_ON 0 d with seq := { s.seq with off := s.seq.off.filter (· ≠ d) } }
    else .next s

/-- What a committed write of PWR_DOM.REQ_ON begins (R441). -/
def State.domCommit (s : State) (d : Nat) (high : Bool) : State :=
  if s.flag F.PWR_DOM_REQ_ON d then
    if s.seq.off.contains d then { s with seq := { s.seq with off := s.seq.off.filter (· ≠ d) } }
    else if s.fld F.PWR_DOM_STATE d = 0 ∧ !(s.tollHigh ++ s.tollNorm).contains (.dom d) then s.tollAsk high [.dom d] else s
  else
    let s := s.tollCancel (fun q => decide (q = .dom d))
    if s.fld F.PWR_DOM_STATE d = 0 ∨ s.seq.off.contains d then s
    else { s.setFld F.PWR_DOM_STATE 3 d with seq := { s.seq with off := s.seq.off ++ [d] } }

/-- Set lock bits of the PLLs that a ready domain brings (R441, R463, R466); without REFCLK they lock to the IRO (R513). -/
def State.pllLock (s : State) (d : Nat) (ref : Bool) : State :=
  let on (k : Nat) : Bool := s.fld F.PWR_DOM_STATE k == 1
  let bits := (if on 2 then 3 else 0) + (if on 1 then 4 else 0) + (if on 6 then 8 else 0) + (if on 7 then 16 else 0) +
    (if on 8 then 32 else 0) + (if on 9 then 64 else 0) +
    (if [3, 4, 5, 10, 11, 12, 13].all on then 128 else 0)
  let s := s.setFld F.CLK_STAT_LOCK bits
  if d = 2 ∧ !ref then (s.setFld F.CLK_STAT_REF 2).setFld F.DEV_START_REF_IRO 1 else s

/-- Every domain that a wake requests is on. -/
def State.wakeAllOn (s : State) : Bool := [2, 3, 14, 6, 7, 8, 9, 10, 11, 12, 13, 4, 5].all fun d => s.fld F.PWR_DOM_STATE d == 1

/-- The end of a wake from D1 (R458 step 7): D0, and start-up reads READY. -/
def State.wakeEnd (s : State) : State :=
  if s.seq.wake = some 1 ∧ !s.seq.abandon ∧ s.wakeAllOn then
    let s := ((s.setFld F.PWR_STAT_DSTATE 0).setFld F.PWR_STAT_BUSY 0).setFld F.DEV_START_STAGE 8
    { s with seq := { s.seq with wake := none, on := [] } }
  else s

/-- Firmware restores the map entries of a column from the repair record (R123, R423). -/
def State.mapRestore (s : State) (c : Nat) : State :=
  s.repair.foldl (fun s e => if e.kind = 1 ∧ tileCol e.a = c then s.setReg .TILE_MAP e.d e.a (16 * e.b + e.c) else s) s

/-- A granted domain, or a column from OFF or PARK, is ready. `ref`: REFCLK is valid (R513). -/
def State.domainReady (s : State) (d : Nat) (ref : Bool) : State :=
  if 15 ≤ d then
    let c := d - 15
    let x := s.col c
    let st := s.fld F.PWR_COL_STATE c
    if x.starting ∧ x.leaving ≠ some 3 ∧ (st = 1 ∨ (st = 3 ∧ x.good)) then
      let s := s.setFld F.PWR_COL_STATE (if s.fld F.PWR_COL_REQ c = 1 then 1 else 0) c
      let s := if st = 1 then s.setFld F.PWR_COL_CUR_OP (s.fld F.PWR_COL_REQ_OP c) c else s
      let s := if st = 3 then (List.range 32).foldl (fun s r =>
          let t := 32 * c + r
          let ok := (mapGet tile0 s.tiles t).dll = 1
          (s.setFld F.TILE_STAT_ON_RING (if ok then 0 else 1) t).setFld F.TILE_STAT_LOCK_FAIL (if ok then 0 else 1) t) s
        else s
      let s := s.setCol c { s.col c with starting := false }
      let s := if st = 3 then s.mapRestore c else s
      let s := s.calUnskip (fun k => decide (calColumn k = some c))
      (s.setMhz c (s.fld F.PWR_COL_CUR_OP c)).colCommit c false
    else s
  else if s.fld F.PWR_DOM_STATE d = 3 ∧ !s.seq.off.contains d ∧ s.seq.entry.isNone ∧ !s.seq.abandon then
    let s := (s.setFld F.PWR_DOM_STATE 1 d).pllLock d ref
    let s : State := if s.seq.wake.isSome then { s with seq := { s.seq with on := d :: s.seq.on } } else s
    let s := if d = 1 then s.tollAsk true wakeDoms else s
    let s : State := if (d = 2 ∨ d = 3) ∧ s.fld F.PWR_DOM_STATE 2 = 1 ∧ s.fld F.PWR_DOM_STATE 3 = 1 ∧ s.seq.wake.isSome then
        { s with pcieWakeN := false } else s
    s.wakeEnd
  else s

/-! ## Column start (R27) -/

/-- R27, R143: the regulator of a starting column reports power good: its tiles start on their rings with initialised
storage, and its clock generator locks. -/
def execColumnPowerGood (dt : Nat) (c : Fin 34) (s : State) : Answer :=
  let s := s.tick dt
  let c := c.val
  let x := s.col c
  if x.starting ∧ s.fld F.PWR_COL_STATE c = 3 ∧ !x.good then
    let s : State := { s with tiles := mapClear (32 * c) (32 * c + 32) s.tiles }
    let s := (s.setCol c { x with good := true }).setFld F.CLK_COL_LOCK 1 c
    let s := s.setMhz c (s.fld F.PWR_COL_CUR_OP c)
    .next ((List.range 32).foldl (fun s r =>
      let t := 32 * c + r
      let retired := bitsOf (s.fld F.RAS_RETIRED_ROWS c) r 1 = 1
      (s.setFld F.TILE_STAT_ON_RING 1 t).setFld F.TILE_STAT_STATE (if retired then 5 else 0) t) s)
  else .next s

/-- R27: a tile's DLL locks: the island is on its DLL clock once its column is ready, and its lock-fail flag clears. -/
def execDllLock (dt : Nat) (t : Fin 1088) (s : State) : Answer :=
  let s := s.tick dt
  let t := t.val
  let x := mapGet tile0 s.tiles t
  if x.dll = 0 ∧ s.flag F.CLK_COL_LOCK (tileCol t) then
    let s : State := { s with tiles := mapSet tile0 s.tiles t { x with dll := 1 } }
    if s.fld F.PWR_COL_STATE (tileCol t) = 3 then .next s
    else .next ((s.setFld F.TILE_STAT_ON_RING 0 t).setFld F.TILE_STAT_LOCK_FAIL 0 t)
  else .next s

/-- R27: a tile whose DLL has not locked within 200 µs of power good stays on its ring oscillator. -/
def execDllLockTimeout (dt : Nat) (t : Fin 1088) (s : State) : Answer :=
  let s := s.tick dt
  let x := mapGet tile0 s.tiles t.val
  if x.dll = 0 ∧ s.flag F.CLK_COL_LOCK (tileCol t.val) then
    .next { s with tiles := mapSet tile0 s.tiles t.val { x with dll := 2 } }
  else .next s

/-- R26: a tile's DLL loses lock in operation: the island falls back to its ring oscillator and sets LOCK_LOST. -/
def execDllLockLoss (dt : Nat) (t : Fin 1088) (s : State) : Answer :=
  let s := s.tick dt
  let x := mapGet tile0 s.tiles t.val
  if x.dll = 1 ∧ !s.flag F.TILE_STAT_ON_RING t.val then
    let s : State := { s with tiles := mapSet tile0 s.tiles t.val { x with dll := 2 } }
    .next ((s.setFld F.TILE_STAT_ON_RING 1 t.val).setFld F.TILE_STAT_LOCK_LOST 1 t.val)
  else .next s

/-! ## Wakes, temperature and rails -/

/-- R455: a low level on WAKE_N of at least 1 µs. -/
def execWakeNLow (dt : Nat) (s : State) : Answer :=
  let s := s.tick dt
  if s.flag F.PWR_WAKE_CFG_WAKEPIN_EN then .next (s.wakeBy 2) else .next s

/-- R455: a rising edge of PERST_N. -/
def execPerstNRise (dt : Nat) (s : State) : Answer :=
  let s := s.tick dt
  if s.flag F.PWR_WAKE_CFG_PERST_EN then .next (s.wakeBy 3) else .next s

/-- R456: an address phase on the I3C/I2C balls; a match is answered NACK and latches a wake, others leave it unaffected. -/
def execI3cAddressMatch (dt : Nat) (addr : Fin 128) (s : State) : Answer :=
  let s := s.tick dt
  if s.flag F.PWR_WAKE_CFG_I3C_EN ∧ addr.val = s.fld F.PWR_WAKE_CFG_ADDR then .next (s.wakeBy 1) else .next s

/-- R455: the AON counter reaches PWR_WAKE_TIME. -/
def execAonTimerMatch (dt : Nat) (s : State) : Answer :=
  let s := s.tick dt
  if s.flag F.PWR_WAKE_CFG_TIMER_EN ∧ s.fld F.PWR_WAKE_TIME_TIME ≤ s.aonNs / 1000 then .next (s.wakeBy 4) else .next s

/-- R455: MC firmware requests a wake in D1. -/
def execMcWakeRequest (dt : Nat) (s : State) : Answer :=
  let s := s.tick dt
  if s.fld F.PWR_STAT_DSTATE = 1 ∨ s.seq.entry = some 1 then .next (s.wakeBy 5) else .next s

/-- R458: the first PCIe configuration request is answered and releases PCIE_WAKE_N. -/
def execPcieConfigRequest (dt : Nat) (s : State) : Answer :=
  let s := s.tick dt
  if s.fld F.PWR_DOM_STATE 3 = 1 ∧ s.fld F.PWR_DOM_STATE 2 = 1 then .next { s with pcieWakeN := true } else .next s

/-- R450: a diode at 120 °C for 100 µs: THERMTRIP_N low, emergency entry into D3, no wake for 10 s. -/
def execThermalTrip (dt : Nat) (s : State) : Answer :=
  let s := s.tick dt
  if s.fld F.PWR_STAT_DSTATE = 3 ∧ !s.flag F.PWR_STAT_BUSY then .next s
  else
    let s : State := { s.setFld F.PWR_STAT_THERMTRIP 1 with thermtripN := false, seq := { s.seq with hold := s.aonNs + 10000000000 } }
    .next (s.emergency 3 8)

/-- The domains that lose a failed rail are off at once: the entry skips their steps (R459). -/
def State.railOff (s : State) (rail : Nat) : State :=
  (offAll.filter (railNeeds rail)).foldl (fun s d =>
    let s := if (rail = 0 ∨ rail = 4) ∧ 6 ≤ d ∧ d ≤ 9 then s.hbmGone (d - 6) else s
    s.domGone d) s

/-- VDD_AON is lost: every domain is off, nothing further is recorded (R459, R462); flash and fuses stay. -/
def State.aonLost (s : State) : State :=
  { State.reset with
    pending := s.pending, freeCtr := s.freeCtr, out := s.out, mirror := s.mirror, twoByEight := s.twoByEight
    fwSlots := s.fwSlots, activeSlot := s.activeSlot, pendingSlot := s.pendingSlot, fuses := s.fuses, fuseBox := s.fuseBox
    ksFlash := s.ksFlash, calFlash := s.calFlash, repair := s.repair, repairAt := s.repairAt, policy := s.policy }

/-- R459: a rail leaves ±10 % for 2 µs. -/
def execRailFailure (dt : Nat) (rail : Fin 8) (s : State) : Answer :=
  let s := s.tick dt
  let r := rail.val
  if r = 5 then .next s.aonLost
  else
    let good := s.fld F.PWR_RAIL_GOOD
    let s := s.setFld F.PWR_RAIL_GOOD (if bitsOf good r 1 = 1 then good - 2 ^ r else good)
    let d := s.fld F.PWR_STAT_DSTATE
    if d = 3 ∧ !s.flag F.PWR_STAT_BUSY ∧ r ≠ 6 then .next s
    else
      let failed := s.fld F.PWR_RAIL_FAILED
      let s := s.setFld F.PWR_RAIL_FAILED (if bitsOf failed r 1 = 1 then failed else failed + 2 ^ r)
      let s : State := { s with seq := { s.seq with bad := (s.seq.bad.filter (fun b => decide (b.1 ≠ r))) ++ [(r, none)] } }
      let s := s.tollCancel (fun q => match q with
        | .dom k => railNeeds r k
        | _ => decide (r = 0))
      if s.seq.wake.isSome then
        if r = 7 then .next (s.logE 0 0xE001 [r, d, s.seqStep, 0]) else .next (s.wakeAbandon r).abandonEnd
      else
        let s := s.logE 0 0xE001 [r, d, s.seqStep, 0]
        match s.seq.entry with
        | some tgt =>
          let s : State := { s with seq := { s.seq with entry := some (if r = 1 then 3 else tgt), hbmLost := s.seq.hbmLost || decide (r = 0 ∨ r = 4) } }
          .next (s.railOff r).entryEnd
        | none =>
          if d ≠ 0 then .next s
          else if r = 7 then .next (s.tell (.note 2 7))
          else
            let s : State := { s with seq := { s.seq with hbmLost := decide (r = 0 ∨ r = 4) } }
            let s := s.emergency (if r = 1 ∨ r = 6 then 3 else 1) r
            .next (s.railOff r).entryEnd

/-- R459: a rail has stayed within ±5 % for 1 ms. -/
def execRailGood (dt : Nat) (rail : Fin 8) (s : State) : Answer :=
  let s := s.tick dt
  let r := rail.val
  let good := s.fld F.PWR_RAIL_GOOD
  let s := s.setFld F.PWR_RAIL_GOOD (if bitsOf good r 1 = 1 then good else good + 2 ^ r)
  let s : State := { s with seq := { s.seq with bad := s.seq.bad.map (fun b =>
    if b.1 = r ∧ b.2.isNone then (r, some s.aonNs) else b) } }
  if s.seq.rails ∧ s.railsGood then .next s.wakeRails else .next s

/-- R522: a rail outside ±5 % for more than 100 µs clears its GOOD bit and is logged. -/
def execRailExcursion (dt : Nat) (rail : Fin 8) (s : State) : Answer :=
  let s := s.tick dt
  let r := rail.val
  let good := s.fld F.PWR_RAIL_GOOD
  if bitsOf good r 1 = 1 then
    let s : State := { s with seq := { s.seq with bad := s.seq.bad.map (fun b => if b.1 = r then (r, none) else b) } }
    .next ((s.setFld F.PWR_RAIL_GOOD (good - 2 ^ r)).logE 0 0xE001 [r, s.fld F.PWR_STAT_DSTATE, s.seqStep, 0])
  else .next s

/-- R460: a rail is not GOOD 20 ms into a wake; VIO33 alone lets it continue (R459). -/
def execWakeRailTimeout (dt : Nat) (s : State) : Answer :=
  let s := s.tick dt
  if s.seq.rails then
    let bad := (List.range 8).filter fun r => bitsOf (s.fld F.PWR_RAIL_GOOD) r 1 = 0
    match bad with
    | [] => .next s.wakeRails
    | [7] => .next s.wakeRails
    | r :: _ => .next (s.wakeAbandon r).abandonEnd
  else .next s

/-! ## Measurement (R39 to R43) -/

/-- R39: firmware updates the measurement registers under the odd and even SEQ protocol (R43): energy in fJ and active
cell-cycles, achieved and compulsory bytes, and by stack the bytes and nanoseconds of saturated time. -/
def execMeasUpdate (dt : Nat) (fj cells achieved compulsory : Nat) (hbm : List (Nat × Nat)) (s : State) : Answer :=
  let s := s.tick dt
  let s := s.addWrap F.DEV_MEAS_SEQ_SEQ 1
  let s := if cells = 0 then s.setFld F.DEV_MEAS_ENERGY_VALID 0
    else (s.setFld F.DEV_MEAS_ENERGY_FJ_PER_CELL (min (fj / cells) 0xFFFF)).setFld F.DEV_MEAS_ENERGY_VALID 1
  let s := if compulsory = 0 then s.setFld F.DEV_MEAS_MOVE_VALID 0
    else (s.setFld F.DEV_MEAS_MOVE_RATIO_MILLI (min (achieved * 1000 / compulsory) 0xFFFF)).setFld F.DEV_MEAS_MOVE_VALID 1
  let one (s : State) (k : Nat) : State :=
    let (b, ns) := hbm.getD k (0, 0)
    let v := min (b * 10000 / (11776 * ns)) 1023
    let ok := decide (1000000 ≤ ns)
    if k % 2 = 0 then
      let s := if ok then s.setFld F.DEV_MEAS_HBM_LO_MILLI v (k / 2) else s
      s.setFld F.DEV_MEAS_HBM_LO_VALID (if ok then 1 else 0) (k / 2)
    else
      let s := if ok then s.setFld F.DEV_MEAS_HBM_HI_MILLI v (k / 2) else s
      s.setFld F.DEV_MEAS_HBM_HI_VALID (if ok then 1 else 0) (k / 2)
  .next (((List.range 4).foldl one s).addWrap F.DEV_MEAS_SEQ_SEQ 1)

end Sys2Proof.Machine
end

