-- ==== Sys2Proof/Machine/Mc.lean ====
section
/-! DEFINITION. The management controller: images, pairs, board sense, the log mirror, debug scopes (R480 to R502). -/
namespace Sys2Proof.Machine

/-! ## Policy (R490) -/

/-- The default and the range of a policy value; none where the ID is unknown. REFILL_US has the measured value as both. -/
def State.policyRow (s : State) (id : Nat) : Option (Nat × Nat × Nat) :=
  match id with
  | 0x01 => some (0xFFFF, 0, 0xFFFF) | 0x02 => some (60, 1, 3600) | 0x03 => some (3, 1, 100) | 0x04 => some (0, 0, 1)
  | 0x05 => some (7, 1, 90) | 0x06 => some (4, 1, 64) | 0x07 => some (16, 1, 1024) | 0x08 => some (8, 1, 64)
  | 0x09 => some (250, 10, s.fuses.ceilA) | 0x0A => some (s.boot.slew.getD 50, s.boot.slew.getD 50, 1000)
  | 0x0B => some (6, 1, 30) | 0x0C => some (24, 1, 255) | 0x0D => some (8, 1, 255) | 0x0E => some (60, 1, 3600)
  | n => if 0x20 ≤ n ∧ n < 0x28 then some (0, 0, 1000000) else if 0x28 ≤ n ∧ n < 0x30 then some (0, 0, 65535) else none

/-- A policy value in force. -/
def State.pol (s : State) (id : Nat) : Nat :=
  (mapGet none s.policy id).getD (match s.policyRow id with
    | some (d, _) => d
    | none => 0)

/-- The policy values that registers hold take effect (R451, R453, R472, R475). -/
def State.applyPolicy (s : State) : State :=
  let s := s.setFld F.PWR_LIMIT_CAP_A (s.pol 0x09)
  let s := s.setFld F.PWR_TOLL_REFILL_US (s.pol 0x0A)
  let s := (s.setFld F.CAL_CFG_DELTA_T (s.pol 0x0B)).setFld F.CAL_CFG_MAX_H (s.pol 0x0C)
  (s.setFld F.CAL_CFG_CONF_MIN (s.pol 0x0D)).setFld F.CAL_HOLD_HOLD_S (s.pol 0x0E)

/-- Units whose noise estimation the policy enables and `was` did not: the hold limit counts from now (R80). -/
def State.noiseEnable (s : State) (was : Nat) : State :=
  { s with noiseBase := (List.range 16).foldl (fun m u =>
      if bitsOf (s.pol 0x01) u 1 = 1 ∧ bitsOf was u 1 = 0 then mapSet 0 m u s.now else m) s.noiseBase }

/-! ## Images (R492, R493) -/

/-- `n` bytes of a byte list from offset `o`. -/
def slice (b : List Byte) (o n : Nat) : List Byte := (b.drop o).take n
/-- The number at offset `o`. -/
def numAt (b : List Byte) (o n : Nat) : Nat := leNat (slice b o n)

/-- The header of an image. -/
def imageOf (b : List Byte) : Image :=
  ⟨numAt b 8 4, numAt b 12 1, numAt b 5 1 / 2 % 2 == 1, numAt b 13 1, numAt b 14 1, numAt b 16 8⟩

/-- Is a signer's key accepted for firmware: its hash equals a root hash that is not revoked (R493, R511). -/
def rootOk (f : Fuses) (signer : List Byte) : Bool :=
  (List.range 4).any fun i => f.rootHash.getD i [] == Config.sha384 signer && bitsOf f.rootRevoke i 1 == 0

/-- The check of a firmware image (R493): its header, or SEC_VERSION where SVN alone fails, or SEC_UNSIGNED. -/
def imageCheck (f : Fuses) (b : List Byte) : Except Nat Image :=
  let hdr := b.take 512
  let len := numAt b 24 4
  if numAt b 0 4 = 0x5A494D47 ∧ numAt b 4 1 = 1 ∧ numAt b 5 1 % 2 = 0 ∧ len ≤ 0x60000 ∧ rootOk f (slice b 80 96) ∧
      Config.ecdsa (slice b 80 96) (hdr.take 416) (slice b 416 96) ∧ Config.sha384 (slice b 512 len) = slice b 32 48 then
    if f.fwFloor ≤ (imageOf b).svn then .ok (imageOf b) else .error 0x0402
  else .error 0x0401

/-- A slot as it is shipped: erased. -/
def slot0Fw : FwSlot := ⟨[], none⟩
/-- A firmware slot. -/
def State.fwSlot (s : State) (k : Nat) : FwSlot := mapGet slot0Fw s.fwSlots k
/-- Store a firmware slot. -/
def State.setFwSlot (s : State) (k : Nat) (x : FwSlot) : State := { s with fwSlots := mapSet slot0Fw s.fwSlots k x }
/-- The header and payload bytes of a slot. -/
def State.slotBytes (s : State) (k : Nat) : List Byte :=
  let m := (s.fwSlot k).bytes
  mapGets 0xFF m 0 (512 + min (leNat (mapGets 0xFF m 24 4)) 0x60000)
/-- The check of a slot. -/
def State.slotCheck (s : State) (k : Nat) : Except Nat Image := imageCheck s.fuses (s.slotBytes k)

/-! ## Pairs (R480 to R484) -/

/-- The state of a pair: 0 ACTIVE, 1 STANDBY, 2 restoring, 3 RETIRED. -/
def State.pairSt (s : State) (p : Nat) : Nat := s.fld (if p = 0 then F.MC_STAT_P0_STATE else F.MC_STAT_P1_STATE)
/-- Set the state of a pair. -/
def State.setPair (s : State) (p v : Nat) : State := s.setFld (if p = 0 then F.MC_STAT_P0_STATE else F.MC_STAT_P1_STATE) v
/-- Does a pair take commands: one is ACTIVE in a running MC domain. -/
def State.mcUp (s : State) : Bool := s.domOn 1 && s.pairSt (s.fld F.MC_STAT_ACTIVE) == 0

/-- The final reply of UPD_SWITCH once the outgoing pair is STANDBY on the new image (R495 step 4). -/
def State.switchEnd (s : State) : State :=
  match s.switch with
  | some w => if w.swapped then { s.reply w.hdr 0 [] with switch := none } else s
  | none => s

/-- R481: the STANDBY pair checks the digest of its bank; a digest that differs is reported. -/
def execStandbyCheck (dt : Nat) (ok : Bool) (s : State) : Answer :=
  let s := s.tick dt
  let p := 1 - s.fld F.MC_STAT_ACTIVE
  if s.pairSt p = 1 ∧ !ok then .next (s.tell (.note 5 p)) else .next s

/-! ## Sensors and log -/

/-- R486: a 1 ms average of a board-sense input, in mV before its calibration offset (R468 item 5, member 1,137 + n). -/
def execBsenseAverage (dt : Nat) (n : Fin 8) (raw : Nat) (s : State) : Answer :=
  let s := s.tick dt
  let n := n.val
  let mv := (max 0 (min 1200 ((raw : Int) + s.calApplied (calKey 5 (1137 + n))))).toNat
  let ma := mv * s.pol (0x20 + n) / 1000
  let lim := s.pol (0x28 + n)
  let s := ((s.setFld F.MC_BSENSE_VALID 1 n).setFld F.MC_BSENSE_MV mv n).setFld F.MC_BSENSE_MA (min ma 0xFFFF) n
  if lim ≠ 0 ∧ lim < ma then
    let k := mapGet 0 s.bsOver n + 1
    let s : State := { s with bsOver := mapSet 0 s.bsOver n k }
    if k = 10 then .next ((s.setFld F.MC_BSENSE_OVER 1 n).logE 1 0xE006 [n, ma, 0, 0]) else .next s
  else .next { s with bsOver := mapSet 0 s.bsOver n 0 }

/-- Mark the entries of the ring as mirrored, with the count of lost entries in the first one's ARG3 (R488). -/
def mirrorRun (lost : Nat) : List LogEntry → List LogEntry
  | [] => []
  | e :: es => { e with mirrored := true, args := if lost = 0 then e.args else e.args.set 3 lost } ::
      es.map fun x => { x with mirrored := true }

/-- R488: the MC copies the entries not yet mirrored to the flash mirror, a ring of 262,144 entries. -/
def State.mirrorLog (s : State) : State :=
  let new := mirrorRun s.logLost (s.log.filter fun e => !e.mirrored)
  if new.isEmpty then s else
  let all := s.mirror ++ new
  { s with mirror := all.drop (all.length - 262144), logLost := 0, log := s.log.map fun e => { e with mirrored := true } }

/-- R488: the mirror copy, by the ACTIVE pair (R481). -/
def execLogMirror (dt : Nat) (s : State) : Answer :=
  let s := s.tick dt
  if s.mcUp then .next s.mirrorLog else .next s

/-- R496: an image with COMMIT_FLOOR that has been ACTIVE for 24 h raises FW_FLOOR to its SVN. -/
def execFwFloorCommit (dt : Nat) (s : State) : Answer :=
  let s := s.tick dt
  if s.running.commitFloor ∧ s.runFrom + 86400000000000 ≤ s.now then
    .next { s with fuses := { s.fuses with fwFloor := max s.fuses.fwFloor s.running.svn }
                   fuseBox := { s.fuseBox with fwFloor := max s.fuseBox.fwFloor s.running.svn } }
  else .next s

/-- R501: the minutes of a debug scope run out. -/
def execDebugScopeExpire (dt : Nat) (s : State) : Answer :=
  let s := s.tick dt
  if s.fld F.SEC_STAT_DBG_SCOPE ≠ 0 ∧ s.dbgFrom + s.fld F.SEC_STAT_DBG_MIN_LEFT * 60000000000 ≤ s.now then
    .next ((s.setFld F.SEC_STAT_DBG_SCOPE 0).setFld F.SEC_STAT_DBG_MIN_LEFT 0)
  else .next s

/-- The MC requests columns from OFF to RUN at NORMAL (R508 step 10). -/
def State.askColumns (s : State) (cs : List Nat) : State :=
  let cs := cs.filter fun c => s.fld F.PWR_COL_STATE c == 3 && !(s.col c).starting &&
    !(s.tollHigh ++ s.tollNorm).any (fun q => tollCol q == some c)
  let s := cs.foldl (fun s c => s.setFld F.PWR_COL_REQ 0 c) s
  s.tollAsk false (cs.map TollFor.colOn)

/-- R512: the slew probe ends with T_REC, or with none after 1,000 µs, and REFILL_US is set; the other columns are
requested. -/
def execSlewProbeEnd (dt : Nat) (trec : Option (Fin 1001)) (s : State) : Answer :=
  let s := s.tick dt
  if s.boot.restored ∧ !s.boot.d3 ∧ s.boot.slew.isNone then
    let v := match trec with
      | some t => max 10 ((5 * t.val + 15) / 16)
      | none => 1000
    let s := match trec with
      | some t => (s.setFld F.DEV_BOOT_SLEW_VALID 1).setFld F.DEV_BOOT_SLEW_T_REC_US t.val
      | none => s.setFld F.DEV_BOOT_SLEW_VALID 0
    let s : State := { s with boot := { s.boot with slew := some v } }
    .next ((s.setFld F.PWR_TOLL_REFILL_US (max v (s.pol 0x0A))).askColumns ((List.range 34).drop 1))
  else .next s

end Sys2Proof.Machine
end

