-- ==== Sys2Proof/Machine/NetOps.lean ====
section
/-! DEFINITION. Sending from the network ports: ARP and the gateway (R379, R380), and the result streams (R385 to R387). -/
namespace Sys2Proof.Machine

/-- A port that knows no address. -/
def arp0 : ArpPort := ⟨[], [], []⟩
/-- An empty result stream buffer. -/
def rs0 : RsBuf := ⟨[], [], 0, 0, 0⟩

/-- ARP state of port `p`. -/
def State.arpPort (s : State) (p : Nat) : ArpPort := mapGet arp0 s.arp p
/-- Store the ARP state of port `p`. -/
def State.setArp (s : State) (p : Nat) (x : ArpPort) : State := { s with arp := mapSet arp0 s.arp p x }
/-- The IPv4 address of port `p` (0 to 3 Ethernet, 4 and 5 plant bus). -/
def State.portIp (s : State) (p : Nat) : Nat := if p < 4 then s.fld F.NET_IP_ADDR p else s.fld F.PLB_IP_ADDR (p - 4)
/-- The prefix length of port `p`. -/
def State.portPrefix (s : State) (p : Nat) : Nat :=
  if p < 4 then s.fld F.NET_CFG_PREFIX p else s.fld F.PLB_CFG_PREFIX (p - 4)
/-- The gateway of port `p`; a plant-bus port has none (R392). -/
def State.portGw (s : State) (p : Nat) : Nat := if p < 4 then s.fld F.NET_GW_GW p else 0
/-- The VLAN tag of frames that port `p` sends (NET_CFG). -/
def State.portTci (s : State) (p : Nat) : Option Nat :=
  if p < 4 ∧ s.fld F.NET_CFG_VLAN p = 1 then some (s.fld F.NET_CFG_PCP p * 8192 + s.fld F.NET_CFG_VID p) else none

/-- Discard a datagram for want of a route: counted for its stream (R380). -/
def State.noRoute (s : State) (d : Dgram) : State :=
  match d.stream with
  | some k => s.inc F.NET_RS_STAT_NOROUTE k
  | none => s

/-- The next hop of a destination: itself inside the prefix, else the gateway, none where there is none (R380). -/
def State.nextHop (s : State) (p dst : Nat) : Option Nat :=
  let sh := 2 ^ (32 - s.portPrefix p)
  if dst / sh = s.portIp p / sh then some dst
  else if s.portGw p = 0 then none else some (s.portGw p)

/-- The MAC address that an address list gives for an IPv4 address. -/
def arpFind (ip : Nat) : List (Nat × Nat) → Option Nat
  | [] => none
  | (a, m) :: r => if a = ip then some m else arpFind ip r

/-- A datagram leaves the port in a frame. -/
def State.sendFrame (s : State) (p mac : Nat) (d : Dgram) : State :=
  s.emit (.udp p (s.portTci p) mac d.dst d.dport d.sport d.body)

/-- Send a datagram from port `p`: at once where ARP knows the next hop, else after its answer (R379, R380). -/
def State.sendUdp (s : State) (p : Nat) (d : Dgram) : State :=
  match s.nextHop p d.dst with
  | none => s.noRoute d
  | some hop =>
    let x := s.arpPort p
    match arpFind hop x.cache with
    | some mac => s.sendFrame p mac d
    | none =>
      let s := if x.asked.contains hop then s else s.emit (.arp p 1 hop 0)
      s.setArp p { x with asked := if x.asked.contains hop then x.asked else x.asked ++ [hop], waiting := x.waiting ++ [d] }

/-- Split the waiting datagrams of a port by whether their next hop is `ip`. -/
def State.waitersFor (s : State) (p ip : Nat) : List Dgram :=
  (s.arpPort p).waiting.filter fun d => decide (s.nextHop p d.dst = some ip)

/-- The other waiting datagrams. -/
def State.waitersBut (s : State) (p ip : Nat) : List Dgram :=
  (s.arpPort p).waiting.filter fun d => !decide (s.nextHop p d.dst = some ip)

/-- Enter an address in the cache of 64, replacing the oldest entry when it is full, and send what waited for it. -/
def State.arpLearn (s : State) (p ip mac : Nat) : State :=
  let x := s.arpPort p
  let c := x.cache.filter fun e => e.1 != ip
  let c := if 64 ≤ c.length then c.drop 1 else c
  let go := s.waitersFor p ip
  let s := s.setArp p ⟨c ++ [(ip, mac)], x.asked.filter (· != ip), s.waitersBut p ip⟩
  go.foldl (fun s d => s.sendFrame p mac d) s

/-- An address asked for has had no answer for 1 s: the datagrams that wait for it are discarded, and the request repeated
(R379, R380). -/
def State.arpRetry (s : State) (p ip : Nat) : State :=
  let x := s.arpPort p
  if x.asked.contains ip then
    let gone := s.waitersFor p ip
    let s := s.setArp p { x with waiting := s.waitersBut p ip }
    (gone.foldl (fun s d => s.noRoute d) s).emit (.arp p 1 ip 0)
  else s

/-- Result stream buffer `k`. -/
def State.rsBuf (s : State) (k : Nat) : RsBuf := mapGet rs0 s.rs k
/-- Store result stream buffer `k`. -/
def State.setRs (s : State) (k : Nat) (b : RsBuf) : State := { s with rs := mapSet rs0 s.rs k b }

/-- Record bytes that a full datagram of stream `k` carries (R386). -/
def State.rsCap (s : State) (k : Nat) : Nat :=
  s.fld F.NET_RS_LEN_DLEN k - 32 - (if s.flag F.NET_RS_CFG_AUTH k then 16 else 0)

/-- The datagram of stream `k` with the first `n` record bytes (R386). -/
def State.rsDatagram (s : State) (k n : Nat) : List Byte :=
  let b := s.rsBuf k
  let auth := s.fld F.NET_RS_CFG_AUTH k
  let key := s.fld F.NET_RS_CFG_KEY k
  let off := match b.starts with
    | (o, _) :: _ => if o < n then o else 0xFFFF
    | [] => 0xFFFF
  let body := leBytes 0x5A52 2 ++ leBytes 1 1 ++ leBytes (key + 128 * auth) 1 ++ leBytes k 1 ++ leBytes 0 1 ++
    leBytes off 2 ++ leBytes b.dseq 8 ++ leBytes s.now 8 ++ leBytes n 4 ++ leBytes (s.fld F.JCT_SYS_DEVNUM) 2 ++
    leBytes 0 2 ++ b.bytes.take n
  if auth = 1 then
    let nonce := leBytes (s.portIp (s.fld F.NET_RS_CFG_PORT k)) 4 ++ leBytes k 1 ++ leBytes (b.dseq % 2 ^ 56) 7
    body ++ Config.gmac (s.keyBytes key) nonce body
  else body

/-- Send the first `n` record bytes of stream `k`. -/
def State.rsSend (s : State) (k n : Nat) : State :=
  let b := s.rsBuf k
  let d : Dgram := ⟨s.fld F.NET_RS_DST_ADDR k, s.fld F.NET_RS_DST_UDP_PORT k, 23058, some k, s.rsDatagram k n⟩
  let rest := (b.starts.filter fun q => decide (n ≤ q.1)).map fun q => (q.1 - n, q.2)
  let s := s.setRs k { b with bytes := b.bytes.drop n, starts := rest, dseq := (b.dseq + 1) % 2 ^ 64,
                              first := match rest with | (0, t) :: _ => t | _ => s.now }
  s.sendUdp (s.fld F.NET_RS_CFG_PORT k) d

/-- Send every full datagram of stream `k` while its port is up (R386); `n` bounds how many. -/
def State.rsPump (s : State) (k : Nat) : Nat → State
  | 0 => s
  | n + 1 =>
    if s.fld F.NET_STAT_STATE (s.fld F.NET_RS_CFG_PORT k) = 2 ∧ 0 < s.rsCap k ∧ s.rsCap k ≤ (s.rsBuf k).bytes.length then
      (s.rsSend k (s.rsCap k)).rsPump k n
    else s

/-- Send what stream `k` holds, a partial datagram last, while its port is up (R386). -/
def State.rsFlush (s : State) (k : Nat) : State :=
  let s := s.rsPump k (s.rsBuf k).bytes.length
  let n := (s.rsBuf k).bytes.length
  if s.fld F.NET_STAT_STATE (s.fld F.NET_RS_CFG_PORT k) = 2 ∧ 0 < n then s.rsSend k n else s

end Sys2Proof.Machine
end

