-- ==== Sys2Proof/Machine/Egress.lean ====
section
/-! DEFINITION. The egress engine (R371 to R374, R385, R387): records into the rings and into the result streams. -/
namespace Sys2Proof.Machine

/-- A ring that has never been set up. -/
def ringE0 : Ring := ⟨false, false, 0, 0, 0, 0, 0, 0, false⟩
/-- Egress ring `r`. -/
def State.eRing (s : State) (r : Nat) : Ring := mapGet ringE0 s.rings r
/-- Store egress ring `r`. -/
def State.setERing (s : State) (r : Nat) (x : Ring) : State := { s with rings := mapSet ringE0 s.rings r x }

/-- Zero bytes to the next multiple of 16. -/
def pad16 (b : List Byte) : List Byte := b ++ List.replicate ((16 - b.length % 16) % 16) 0

/-- The 48-byte header of a record (R373). -/
def recHeader (x : EgrRec) (len rseq : Nat) : List Byte :=
  leBytes x.type 1 ++ leBytes x.conn 1 ++ leBytes x.flags 2 ++ leBytes len 4 ++ leBytes x.stamp.seg 8 ++
  leBytes x.stamp.line 4 ++ leBytes x.splice 1 ++ leBytes 0 3 ++ leBytes (wrapTo 64 x.stamp.pos) 8 ++
  leBytes x.stamp.time 8 ++ leBytes rseq 4 ++ leBytes 0 4

/-- A record of the ring itself: PAD, DROP or ring marker, with the time of writing (R373). -/
def ringRec (type now : Nat) (payload : List Byte) : EgrRec := ⟨type, 0xFF, 0, 0xFF, ⟨0, 0, 0, now⟩, payload⟩

/-- The DROP record for `n` records (R374). -/
def dropRec (now n : Nat) : EgrRec := ringRec 7 now (leBytes n 4 ++ List.replicate 12 0)

/-- A 16-bit sample in 8 bits (R91). -/
def to8 (v : Nat) : Nat := min 255 ((v + 128) / 256)

/-- Sixteen-bit samples as 8-bit ones. -/
def img8 : List Byte → List Byte
  | a :: b :: r => BitVec.ofNat 8 (to8 (a.toNat + 256 * b.toNat)) :: img8 r
  | _ => []

/-- The payload of a record for a ring: FMT8 converts IMAGE data (R374). -/
def payloadFor (x : EgrRec) (fmt8 : Bool) : List Byte :=
  pad16 (if x.type = 4 ∧ fmt8 then img8 x.payload else x.payload)

/-- Bytes of the PAD that a record of `len` bytes needs at count `w` (R371). -/
def padFor (size w len : Nat) : Nat := if size < w % size + len then size - w % size else 0

/-- The byte count after a record of `len` bytes and its PAD. -/
def after (size w len : Nat) : Nat := w + padFor size w len + len

/-- Write bytes at a ring's next offset. -/
def State.ringBytes (s : State) (r : Nat) (b : List Byte) : State :=
  let x := s.eRing r
  let a := s.fld F.CMD_EGR_BASE_ADDR r * 4096 + x.written % 2 ^ s.fld F.CMD_EGR_BASE_SIZE_LOG2 r
  let s := s.emit (.hostWrite (s.ringLink r) a b false)
  s.setERing r { x with written := (x.written + b.length) % 2 ^ 64, rseq := (x.rseq + 1) % 2 ^ 32, unreported := true }

/-- Write the PAD that fills `n` bytes to the end of the ring: header bytes up to its length, the rest unspecified
(R373, R374). -/
def State.ringPad (s : State) (r n : Nat) : State :=
  if n = 0 then s else
  let x := s.eRing r
  let a := s.fld F.CMD_EGR_BASE_ADDR r * 4096 + x.written % 2 ^ s.fld F.CMD_EGR_BASE_SIZE_LOG2 r
  let s := s.emit (.hostWrite (s.ringLink r) a ((recHeader (ringRec 0 s.now []) n x.rseq).take n) false)
  let s := if 48 < n then s.emit (.hostFree (s.ringLink r) (a + 48) (n - 48)) else s
  s.setERing r { x with written := (x.written + n) % 2 ^ 64, rseq := (x.rseq + 1) % 2 ^ 32, unreported := true }

/-- Write one record with its PAD. -/
def State.ringPut (s : State) (r : Nat) (x : EgrRec) : State :=
  let p := payloadFor x (s.eRing r).fmt8
  let s := s.ringPad r (padFor (2 ^ s.fld F.CMD_EGR_BASE_SIZE_LOG2 r) (s.eRing r).written (48 + p.length))
  s.ringBytes r (recHeader x (48 + p.length) (s.eRing r).rseq ++ p)

/-- Append a record to a ring, after a DROP record where records were dropped, or drop it (R372). -/
def State.ringAppend (s : State) (r : Nat) (x : EgrRec) : State :=
  let g := s.eRing r
  let size := 2 ^ s.fld F.CMD_EGR_BASE_SIZE_LOG2 r
  let len := 48 + (payloadFor x g.fmt8).length
  let w := if g.dropped = 0 then g.written else after size g.written 64
  if after size w len - s.fld F.CMD_EGR_HEAD_HEAD r ≤ size then
    let s := if g.dropped = 0 then s else s.ringPut r (dropRec s.now g.dropped)
    let s := s.setERing r { s.eRing r with dropped := 0 }
    s.ringPut r x
  else (s.setERing r { g with dropped := g.dropped + 1 }).inc F.CMD_EGR_STAT_DROPS r

/-- Does ring `r` select a record (R372). -/
def State.ringTakes (s : State) (r : Nat) (x : EgrRec) : Bool :=
  let g := s.eRing r
  s.flag F.CMD_EGR_STAT_EN r && g.connMask.testBit x.conn && decide (1 ≤ x.type) && g.typeMask.testBit (x.type - 1)

/-- Append bytes of one record to a result stream's buffer. -/
def State.rsBytes (s : State) (k : Nat) (x : EgrRec) : State :=
  let b := s.rsBuf k
  let p := pad16 x.payload
  let rec_ := recHeader x (48 + p.length) (s.free % 2 ^ 32) ++ p
  let s := s.useFree
  s.setRs k { b with bytes := b.bytes ++ rec_, starts := b.starts ++ [(b.bytes.length, s.now)],
                     first := if b.bytes.isEmpty then s.now else b.first }

/-- Give a record to a result stream: buffered within 256 KiB after a DROP record where records were dropped, or dropped
(R387). -/
def State.rsTake (s : State) (k : Nat) (x : EgrRec) : State :=
  let b := s.rsBuf k
  let len := 48 + (pad16 x.payload).length + (if b.dropped = 0 then 0 else 64)
  if b.bytes.length + len ≤ 262144 then
    let s := if b.dropped = 0 then s else s.rsBytes k (dropRec s.now b.dropped)
    let s := s.setRs k { s.rsBuf k with dropped := 0 }
    let s := s.rsBytes k x
    s.rsPump k (s.rsBuf k).bytes.length
  else (s.setRs k { b with dropped := b.dropped + 1 }).inc F.NET_RS_STAT_DROPS k

/-- Does result stream `k` select a record (R385). -/
def State.rsTakes (s : State) (k : Nat) (x : EgrRec) : Bool :=
  s.flag F.NET_RS_CFG_EN k && (s.fld F.NET_RS_CFG_CONNS k).testBit x.conn && decide (1 ≤ x.type) &&
  (s.fld F.NET_RS_CFG_TYPES k).testBit (x.type - 1)

/-- A record goes to every ring and every stream that selects it (R372, R385). -/
def State.egress (s : State) (x : EgrRec) : State :=
  let s := (List.range 16).foldl (fun s r => if s.ringTakes r x then s.ringAppend r x else s) s
  (List.range 16).foldl (fun s k => if s.rsTakes k x then s.rsTake k x else s) s

/-- A ring-directed marker (R350, R372). -/
def State.ringMarker (s : State) (r route : Nat) : State :=
  if s.flag F.CMD_EGR_STAT_EN r then s.ringAppend r (ringRec 6 s.now (leBytes route 2 ++ List.replicate 14 0)) else s

/-- The payload of a GAP record (R374, R546). -/
def gapPayload (status reason : Nat) (final : Bool) (lines : Nat) : List Byte :=
  leBytes status 2 ++ leBytes reason 1 ++ leBytes (if final then 1 else 0) 1 ++ leBytes lines 4 ++ List.replicate 8 0

/-- Report a ring's tail (R371): the tail shadow, the interrupt, then CMD_EGR_TAIL. -/
def State.tailReport (s : State) (r : Nat) : State :=
  let g := s.eRing r
  if g.unreported then
    let s := s.emit (.hostWrite (s.ringLink r) g.shadow (leBytes g.written 8) false)
    let s := if g.ien then s.emit (.msix (s.ringLink r) (64 + r)) else s
    (s.setERing r { s.eRing r with unreported := false }).setFld F.CMD_EGR_TAIL_TAIL g.written r
  else s

end Sys2Proof.Machine
end

