-- ==== Sys2Proof/Machine/RefMath.lean ====
section
/-! DEFINITION. The arithmetic of the reference chain (R76 to R89): each stage as a function of a line and a parameter set. -/
namespace Sys2Proof.Machine

/-- Bit depth of a GenICam pixel format code, none for a code that R44 does not list (the codes are PRESUMED: the spec
names the formats, not their numbers). -/
def pfncDepth (code : Nat) : Option Nat :=
  if [0x01080001, 0x01080008, 0x01080009, 0x0108000A, 0x0108000B].contains code then some 8
  else if [0x01100003, 0x010A0046, 0x010C0004, 0x0110000C, 0x0110000D, 0x0110000E, 0x0110000F, 0x010A0052, 0x010A0054,
    0x010A0056, 0x010A0058, 0x010C0026, 0x010C0027, 0x010C0028, 0x010C0029].contains code then some 10
  else if [0x01100005, 0x010C0047, 0x010C0006, 0x01100010, 0x01100011, 0x01100012, 0x01100013, 0x010C0053, 0x010C0055,
    0x010C0057, 0x010C0059, 0x010C002A, 0x010C002B, 0x010C002C, 0x010C002D].contains code then some 12
  else if [0x01100025, 0x010E0104, 0x01100109, 0x0110010A, 0x0110010B, 0x0110010C, 0x010E0105, 0x010E0106, 0x010E0107,
    0x010E0108].contains code then some 14
  else if [0x01100007, 0x0110002E, 0x0110002F, 0x01100030, 0x01100031].contains code then some 16
  else none

/-- A field of a register in a parameter set held as listed registers. -/
def setFldIn (m : FMap DWord) (f : Fld) (i : Nat := 0) (j : Nat := 0) : Nat :=
  bitsOf (mapGet (regDefault (regAddr f.reg i j)) m (regAddr f.reg i j)).toNat f.lo f.w

/-- What the stages need of a unit: looks, chain-line width, distance D to the next position of a row, the geometry. -/
structure ChainGeo where
  n : Nat
  shift : Nat
  kil : Nat
  kout : Nat
  bayer : Nat
  deriving DecidableEq, Repr

/-- The geometry of unit `u` (REF_GEOM). -/
def State.chainGeo (s : State) (u : Nat) : ChainGeo :=
  ⟨s.fld F.REF_GEOM_N_M1 u + 1, s.fld F.REF_GEOM_S_M1 u + 1, s.fld F.REF_GEOM_KIL_M1 u + 1,
   s.fld F.REF_GEOM_KOUT_M1 u + 1, s.fld F.REF_GEOM_BAYER u⟩

/-- D of R79. -/
def ChainGeo.d (g : ChainGeo) : Nat := if g.bayer = 0 then 1 else 2

/-- Are positions `x` and `q` of a chain line of width `w` in the same row (R79); a position outside is in none. -/
def ChainGeo.same (g : ChainGeo) (w : Nat) (x : Nat) (q : Int) : Bool :=
  decide (0 ≤ q ∧ q < (w : Int)) && (g.bayer == 0 || decide (q < ((w / 2 : Nat) : Int)) == decide (x < w / 2))

/-- Noise variance at a level (R78). -/
def noiseVar (set : FMap DWord) (u x : Nat) : Nat :=
  setFldIn set F.REF_NM_READ_NM_READ u +
  setFldIn set F.REF_NM_GAIN_NM_GAIN u * (x - setFldIn set F.REF_NM_GAIN_NM_BLACK u) / 4096

/-- RECIP of R82. -/
def recipTab : List Nat := [0, 65536, 32768, 21845, 16384, 13107, 10923, 9362, 8192]
/-- The mean of `c` looks (R82). -/
def lookMean (sum c : Nat) : Nat := (sum * recipTab.getD c 0 + 32768) / 65536
/-- Square of the distance of two samples. -/
def sqDiff (a b : Nat) : Nat := (a - b + (b - a)) * (a - b + (b - a))

/-- Fold one later look of a position into its sum and count (R82); the last part says that it was gated out. -/
def lookAdd (set : FMap DWord) (u sum c x : Nat) : Nat × Nat × Bool :=
  let mean := lookMean sum c
  let tg := setFldIn set F.REF_NR_TGATE u
  if c = 0 ∨ tg = 0 ∨ 8 * sqDiff x mean ≤ tg * tg * noiseVar set u mean then (sum + x, c + 1, false) else (sum, c, true)

/-- Fold a later look of a whole line; counts the looks gated out. -/
def looksAdd (set : FMap DWord) (u : Nat) : List Nat → List Nat → List Nat → List Nat × List Nat × Nat
  | s :: ss, c :: cs, x :: xs =>
    let (s', c', g) := lookAdd set u s c x
    let (ss', cs', n) := looksAdd set u ss cs xs
    (s' :: ss', c' :: cs', n + (if g then 1 else 0))
  | ss, cs, _ => (ss, cs, 0)

/-- The output of temporal noise reduction, and whether its min() changed a value (R82). -/
def tnrOut (sum c : List Nat) : List Nat × Bool :=
  let m := List.zipWith lookMean sum c
  (m.map (min 65535), m.any fun v => decide (65535 < v))

/-- Index of a level-correction entry (R85) within a unit's table. -/
def lcIndex (set : FMap DWord) (u phase w x : Nat) : Nat :=
  0x22000 * setFldIn set F.REF_CTRL_TAB_BANK u + (phase * w + x) % 0x20000

/-- What a table word reads before it is written (R104). -/
def tabDefault (k : Nat) : Word :=
  let i := k % 0x22000
  if i < 0x20000 then 0x40000000 else BitVec.ofNat 32 (16 * (2 * (i % 2048)) + 65536 * (16 * (2 * (i % 2048) + 1)))

/-- A table word of unit `u`. -/
def State.tabWord (s : State) (u i : Nat) : Nat := (mapGet (tabDefault (0x44000 * u + i)) s.refTab (0x44000 * u + i)).toNat

/-- Does a table word of unit `u` hold an error that its code cannot correct (R413). -/
def State.tabBad (s : State) (u i : Nat) : Bool := mapGet false s.refBad (0x44000 * u + i)

/-- The DEF field of a position (R85): a position whose entry is damaged is filled (R413). -/
def State.defOf (s : State) (set : FMap DWord) (u phase w x : Nat) : Nat :=
  if s.tabBad u (lcIndex set u phase w x) then 1 else bitsOf (s.tabWord u (lcIndex set u phase w x)) 0 2

/-- Spatial noise reduction of one position (R84). -/
def State.snr1 (s : State) (set : FMap DWord) (u : Nat) (g : ChainGeo) (phase w : Nat) (l : List Nat) (x : Nat) : Nat :=
  let sg := setFldIn set F.REF_NR_SGATE u
  let c := l.getD x 0
  if sg = 0 ∨ s.defOf set u phase w x ≠ 0 then c else
  let vc := noiseVar set u c
  let r := [(-2, 1), (-1, 2), (1, 2), (2, 1)].foldl (fun (a : Nat × Nat) (k : Int × Nat) =>
    let q : Int := x + k.1 * (g.d : Int)
    if g.same w x q && s.defOf set u phase w q.toNat == 0 && decide (8 * sqDiff (l.getD q.toNat 0) c ≤ sg * sg * vc) then
      (a.1 + k.2 * l.getD q.toNat 0, a.2 + k.2)
    else a) (4 * c, 4)
  (r.1 + r.2 / 2) / r.2

/-- Spatial noise reduction (R84). -/
def State.snr (s : State) (set : FMap DWord) (u : Nat) (g : ChainGeo) (phase : Nat) (l : List Nat) : List Nat :=
  (List.range l.length).map fun x => s.snr1 set u g phase l.length l x

/-- Clamp to 16 bits, and whether that changed the value. -/
def clamp16 (v : Int) : Nat × Bool := if v < 0 then (0, true) else if v > 65535 then (65535, true) else (v.toNat, false)

/-- Level correction of one position (R85). -/
def State.level1 (s : State) (set : FMap DWord) (u phase w x y : Nat) : Nat × Bool :=
  let e := s.tabWord u (lcIndex set u phase w x)
  clamp16 ((((y : Int) - (bitsOf e 2 16 : Int) - sext (setFldIn set F.REF_BLACK_DYN_BLACK_DYN u) 16) *
    (bitsOf e 18 14 : Int) + 2048) / 4096)

/-- Defect fill of one position (R86): the value, and whether it stayed unfilled. -/
def State.fill1 (s : State) (set : FMap DWord) (u : Nat) (g : ChainGeo) (phase w : Nat) (z : List Nat) (x : Nat) : Nat × Bool :=
  let c := z.getD x 0
  let ok (q : Int) : Bool := g.same w x q && s.defOf set u phase w q.toNat == 0
  let l : Int := (x : Int) - (g.d : Int)
  let r : Int := (x : Int) + (g.d : Int)
  let zl := z.getD l.toNat 0
  let zr := z.getD r.toNat 0
  match s.defOf set u phase w x, ok l, ok r with
  | 0, _, _ => (c, false)
  | 1, true, true => ((zl + zr + 1) / 2, false)
  | 1, true, false => (zl, false)
  | 1, false, true => (zr, false)
  | 2, true, _ => (zl, false)
  | 3, _, true => (zr, false)
  | _, _, _ => (c, true)

/-- Level correction and defect fill: the line, whether a clamp acted, defects not filled. -/
def State.level (s : State) (set : FMap DWord) (u : Nat) (g : ChainGeo) (phase : Nat) (y : List Nat) : List Nat × Bool × Nat :=
  let w := y.length
  let zs := (List.range w).map fun x => s.level1 set u phase w x (y.getD x 0)
  let z := zs.map (·.1)
  let f := (List.range w).map fun x => s.fill1 set u g phase w z x
  (f.map (·.1), zs.any (·.2), (f.filter (·.2)).length)

/-- Colour of sensor row `r`, column `x` under a BAYER code (R87): 0 red, 1 green, 2 blue. -/
def bayerColour (code r x : Nat) : Nat :=
  let row0 : Nat × Nat := match code with | 1 => (1, 0) | 2 => (0, 1) | 3 => (1, 2) | _ => (2, 1)
  let row1 : Nat × Nat := match code with | 1 => (2, 1) | 2 => (1, 2) | 3 => (0, 1) | _ => (1, 0)
  let p := if r = 0 then row0 else row1
  if x % 2 = 0 then p.1 else p.2

/-- The sample of colour `k` at column `x` of a Bayer chain line (R87). -/
def bayerSample (code : Nat) (z : List Nat) (x k : Nat) : Nat :=
  let w := z.length / 2
  let a (r q : Nat) : Nat := z.getD (r * w + q) 0
  if bayerColour code 0 x = k then a 0 x
  else if bayerColour code 1 x = k then a 1 x
  else
    let r := if bayerColour code 0 x = 1 then 0 else 1
    let left := decide (0 < x)
    let right := decide (x + 1 < w)
    if left && right then (a r (x - 1) + a r (x + 1) + 1) / 2
    else if left then a r (x - 1) else if right then a r (x + 1) else 0

/-- The input vectors of channel reconstruction (R87): one per output pixel, from the lines of a group. -/
def inVecs (g : ChainGeo) (group : List (List Nat)) : List (List Nat) :=
  let z := group.headD []
  if g.bayer = 0 then (List.range z.length).map fun x => group.map fun l => l.getD x 0
  else (List.range (z.length / 2)).map fun x => (List.range 3).map fun k => bayerSample g.bayer z x k

/-- A 16-bit half of a parameter register: gains, matrix entries, offsets. -/
def halfFld (set : FMap DWord) (r : Reg) (u n : Nat) (hi : Bool) : Nat :=
  setFldIn set ⟨r, if hi then 16 else 0, 16⟩ u n

/-- Channel reconstruction of one pixel (R88): its channels, and whether a clamp acted. -/
def recon1 (set : FMap DWord) (u kout : Nat) (v : List Nat) : List Nat × Bool :=
  let gs := (List.range v.length).map fun i =>
    (v.getD i 0 * halfFld set .REF_GAIN u (i / 2) (i % 2 == 1) + 2048) / 4096
  let ys := (List.range kout).map fun j =>
    let sum : Int := ((List.range v.length).map fun i =>
      sext (halfFld set .REF_MAT u (2 * j + i / 2) (i % 2 == 1)) 16 * (min 65535 (gs.getD i 0) : Nat)).foldl (· + ·) 0
    clamp16 ((sum + 2048) / 4096 + sext (halfFld set .REF_OFF u (j / 2) (j % 2 == 1)) 16)
  (ys.map (·.1), gs.any (fun x => decide (65535 < x)) || ys.any (·.2))

/-- Channel reconstruction: samples pixel by pixel. -/
def recon (set : FMap DWord) (u : Nat) (g : ChainGeo) (group : List (List Nat)) : List Nat × Bool :=
  let ps := (inVecs g group).map fun v => recon1 set u g.kout v
  (ps.flatMap (·.1), ps.any (·.2))

/-- Entry `i` of the tone table of a channel (R89, R104); a damaged one is taken as 16 times its index (R413). -/
def State.toneEntry (s : State) (set : FMap DWord) (u j i : Nat) : Nat :=
  let k := min i 4095
  let w := 0x22000 * setFldIn set F.REF_CTRL_TAB_BANK u + 0x20000 + 2048 * j + k / 2
  if s.tabBad u w then 16 * k else bitsOf (s.tabWord u w) (16 * (k % 2)) 16

/-- The tone curve of one sample of channel `j` (R89). -/
def State.tone1 (s : State) (set : FMap DWord) (u j y : Nat) : Nat :=
  if (setFldIn set F.REF_CTRL_TONE_EN u).testBit j then
    let a := s.toneEntry set u j (y / 16)
    let b := s.toneEntry set u j (y / 16 + 1)
    ((a : Int) + (((b : Int) - a) * (y % 16 : Nat) + 8) / 16).toNat
  else y

/-- Tone curves of a line (R89). -/
def State.tone (s : State) (set : FMap DWord) (u kout : Nat) (l : List Nat) : List Nat :=
  (List.range l.length).map fun i => s.tone1 set u (i % kout) (l.getD i 0)

/-- The noise statistics of one T1 line (R79). -/
def State.noiseLine (s : State) (set : FMap DWord) (u : Nat) (g : ChainGeo) (phase : Nat) (l : List Nat) (t : NoiseSt) : NoiseSt :=
  let w := l.length
  let sat (v : Nat) : Nat := min v (2 ^ 64 - 1)
  let df := setFldIn set F.REF_DARK_DARK_FIRST u
  let dn := setFldIn set F.REF_DARK_DARK_N u
  let dark (x : Nat) : Bool := decide (df ≤ x ∧ x < df + dn)
  let t := (List.range w).foldl (fun (t : NoiseSt) x =>
    if dark x then { t with darkCnt := sat (t.darkCnt + 1), darkSum := sat (t.darkSum + l.getD x 0),
                            darkSq := sat (t.darkSq + l.getD x 0 * l.getD x 0) } else t) t
  (List.range w).foldl (fun (t : NoiseSt) x =>
    let q := x + g.d
    let a := l.getD x 0; let b := l.getD q 0
    if g.same w x q && s.defOf set u phase w x == 0 && s.defOf set u phase w q == 0 && !dark x && !dark q then
      let mu := (a + b) / 2
      if 8 * sqDiff a b ≤ 256 * noiseVar set u mu then
        let k := mu / 4096
        let p := t.bins.getD k (0, 0)
        { t with bins := t.bins.set k (sat (p.1 + 1), sat (p.2 + sqDiff a b)) }
      else t
    else t) t

end Sys2Proof.Machine
end

