-- ==== Sys2Proof/Machine/JctOps.lean ====
section
/-! DEFINITION. Sending on the junction ports: flits, credits and replay (R398 to R400), export rows (R399), and the routing of
control messages (R404). -/
namespace Sys2Proof.Machine

/-- A junction port before any handshake: it advertises and assumes the capacities of R399. -/
def jct0 : Jct := ⟨[], [], 0, 0, 0, 0, 0, 0, 32, 2048, 0, 0, [], 0, 0, 0, 0, false, none⟩

/-- Junction port `j`. -/
def State.jct (s : State) (j : Nat) : Jct := mapGet jct0 s.jcts j
/-- Store junction port `j`. -/
def State.setJct (s : State) (j : Nat) (x : Jct) : State := { s with jcts := mapSet jct0 s.jcts j x }

/-- Is junction port `j` ACTIVE. -/
def State.jctActive (s : State) (j : Nat) : Bool := s.fld F.JCT_STAT_STATE j == 3
/-- One step of CRC-24 with polynomial 0x864CFB (R398). -/
def crcBit (c : Nat) (b : Bool) : Nat :=
  let top := c.testBit 23
  let c := c * 2 % 2 ^ 24
  if top != b then c ^^^ 0x864CFB else c

/-- CRC-24 over bytes, most significant bit first, from the initial value 0xB704CE (R398). -/
def crc24 (bs : List Byte) : Nat :=
  bs.foldl (fun c b => (List.range 8).foldl (fun c i => crcBit c (b.toNat.testBit (7 - i))) c) 0xB704CE

/-- The flit header without its CRC (R398). -/
def flitHead (vc kind seq ack crVc crCum : Nat) : Nat :=
  vc % 4 + kind % 4 * 4 + seq % 4096 * 2 ^ 4 + ack % 4096 * 2 ^ 16 + crVc % 2 * 2 ^ 28 + crCum % 256 * 2 ^ 29

/-- The CRC of a flit whose payload bytes are known: bytes 5 to 7 count as zero (R398). -/
def flitCrc (vc kind seq ack crVc crCum : Nat) (b : List Byte) : Nat :=
  crc24 (leBytes (flitHead vc kind seq ack crVc crCum) 5 ++ [0, 0, 0] ++ b)

/-- Emit one flit of port `j`, with the acknowledgement and the freed count of a virtual channel. -/
def State.flitOut (s : State) (j vc kind seq crVc : Nat) (pay : Option FlitPay) : State :=
  let x := s.jct j
  s.emit (.flit j vc kind seq ((x.expect + 4095) % 4096) crVc ((if crVc = 0 then x.freed0 else x.freed1) % 256) pay)

/-- Credits that port `j` holds on a virtual channel (R399). -/
def Jct.credits (x : Jct) (vc : Nat) : Nat := if vc = 0 then x.adv0 - (x.used0 - x.peer0) else x.adv1 - (x.used1 - x.peer1)

/-- Send waiting flits of port `j`, in order, while it is ACTIVE, holds a credit and has replay space (R399, R400). -/
def State.jctPump (s : State) (j : Nat) : Nat → State
  | 0 => s
  | n + 1 =>
    let x := s.jct j
    match x.txq with
    | f :: fs =>
      if s.jctActive j && decide (0 < x.credits f.vc) && decide (x.unacked.length < 2048) then
        let s := s.flitOut j f.vc (if f.last then 2 else 1) x.nextSeq f.vc (some f.pay)
        (s.setJct j { x with txq := fs, unacked := x.unacked ++ [(x.nextSeq, f)], nextSeq := (x.nextSeq + 1) % 4096,
                             used0 := if f.vc = 0 then x.used0 + 1 else x.used0,
                             used1 := if f.vc = 0 then x.used1 else x.used1 + 1 }).jctPump j n
      else s
    | [] => s

/-- Queue flits on port `j` and send what may go. -/
def State.jctQueue (s : State) (j : Nat) (fs : List TxFlit) : State :=
  let x := s.jct j
  (s.setJct j { x with txq := x.txq ++ fs }).jctPump j (x.txq.length + fs.length)

/-- Send a message on VC0 of port `j`. -/
def State.jctMsg (s : State) (j : Nat) (m : JMsg) : State := s.jctQueue j [⟨0, true, .msg m⟩]

/-- Cut a message into flit payloads of 56 bytes, the last one filled with zeros. -/
def cutFlits (b : List Byte) : Nat → List TxFlit
  | 0 => []
  | n + 1 =>
    let c := b.take 56
    ⟨1, n == 0, .bytes (c ++ List.replicate (56 - c.length) 0)⟩ :: cutFlits (b.drop 56) n

/-- Send an export row on VC1 of port `j` (R215, R399). -/
def State.jctExport (s : State) (j seg idx splice w ctap bytes : Nat) (row : List Nat) : State :=
  let head := leBytes seg 8 ++ leBytes idx 4 ++ leBytes splice 1 ++ leBytes w 2 ++ leBytes ctap 1 ++ leBytes bytes 1
  let b := head ++ List.replicate (32 - head.length) 0 ++ row.flatMap fun v => leBytes v bytes
  s.jctQueue j (cutFlits b ((b.length + 55) / 56))

/-- The port on which a message for device `d` leaves (R404). -/
def State.jctRoute (s : State) (d : Nat) : Option Nat :=
  if s.fld F.JCT_ROUTE_VALID d = 0 then none
  else
    let p := s.fld F.JCT_ROUTE_PRIMARY d
    let a := s.fld F.JCT_ROUTE_ALT d
    if s.jctActive p then some p
    else if s.fld F.JCT_ROUTE_ALT_EN d = 1 ∧ s.jctActive a then some a else none

/-- Send or forward a control message (R404): one past its 16th hop, or without an ACTIVE port, is discarded and counted. -/
def State.ctlSend (s : State) (m : CtlMsg) : State :=
  match s.jctRoute m.dest with
  | some j => if 16 ≤ m.hops then { s with ctlLost := s.ctlLost + 1 } else s.jctMsg j (.ctl { m with hops := m.hops + 1 })
  | none => { s with ctlLost := s.ctlLost + 1 }

/-- Send a control message of this device. -/
def State.ctlTo (s : State) (d : Nat) (b : CtlBody) : State := s.ctlSend ⟨s.fld F.JCT_SYS_DEVNUM, d, 0, b⟩

end Sys2Proof.Machine
end

