-- ==== Sys2Proof/Machine/TxCore.lean ====
section
/-! DEFINITION. Transactions: records and pools (R285 to R287), leaving to FREE and to DONE (R289), masked register writes. -/
namespace Sys2Proof.Machine

/-- A transaction slot that is FREE. -/
def tx0 : Tx := ⟨0, none, 0, false, 0, 0, 0, false, none⟩
/-- A free record. -/
def way0 : WayRec := ⟨0, 0, 0⟩

/-- Transaction `t`. -/
def State.tx (s : State) (t : Nat) : Tx := mapGet tx0 s.txs t
/-- Store transaction `t`. -/
def State.setTx (s : State) (t : Nat) (x : Tx) : State := { s with txs := mapSet tx0 s.txs t x }
/-- WAY_TX_STAT.STATE of transaction `t`: 0 FREE, 1 OPEN, 2 PREPARING, 3 PREPARED, 4 COMMITTED. -/
def State.txState (s : State) (t : Nat) : Nat := s.fld F.WAY_TX_STAT_STATE t
/-- Is transaction `t` a recovery. -/
def State.txRec (s : State) (t : Nat) : Bool := s.flag F.WAY_TX_STAT_REC t

/-- The voted contents of a record: two of three, bit by bit (R286). -/
def WayRec.vote (r : WayRec) : BitVec 512 := (r.c0 &&& r.c1) ||| (r.c1 &&& r.c2) ||| (r.c0 &&& r.c2)
/-- The voted contents of record `i`. -/
def State.wayGet (s : State) (i : Nat) : Nat := (mapGet way0 s.way i).vote.toNat
/-- Write a record, all three copies. -/
def State.wayPut (s : State) (i v : Nat) : State :=
  { s with way := mapSet way0 s.way i ⟨BitVec.ofNat 512 v, BitVec.ofNat 512 v, BitVec.ofNat 512 v⟩ }
/-- KIND of a record's bits. -/
def wayKind (v : Nat) : Nat := bitsOf v 0 8
/-- TXID of a record's bits. -/
def wayTxid (v : Nat) : Nat := bitsOf v 8 6
/-- SEQ of a record's bits. -/
def waySeq (v : Nat) : Nat := bitsOf v 14 11

/-- The records held by transaction `t`, by index. -/
def State.wayOf (s : State) (t : Nat) : List Nat :=
  (s.way.filter fun e => wayKind e.2.vote.toNat != 0 && wayTxid e.2.vote.toNat == t).map (·.1)
/-- Set RSTATE of a record. -/
def State.wayState (s : State) (i st : Nat) : State := s.wayPut i (putBits (s.wayGet i) 25 3 st)
/-- Set RSTATE of every record of a transaction. -/
def State.wayStates (s : State) (t st : Nat) : State := (s.wayOf t).foldl (fun s i => s.wayState i st) s

/-- Records go back to their pool (R287). -/
def State.poolBack (s : State) (t n : Nat) : State :=
  if s.txRec t then s.setFld F.WAY_STAT_RSV_FREE (s.fld F.WAY_STAT_RSV_FREE + n)
  else s.setFld F.WAY_STAT_FREE (s.fld F.WAY_STAT_FREE + n)

/-- Free a transaction: its pending entries leave their targets, its records their pool (R287, R289). -/
def State.txFree (s : State) (t : Nat) : State :=
  let s : State := { s with ents := s.ents.filter fun e => e.tx != t
                            waiters := s.waiters.filter fun w => decide (w.by_ ≠ WaitBy.commit t) }
  let s := (s.wayOf t).foldl (fun s i => s.wayPut i 0) s
  let s := s.poolBack t (s.fld F.WAY_TX_SIZE_SIZE t)
  let s := (s.setFld F.WAY_TX_SIZE_SIZE 0 t).setFld F.WAY_TX_SIZE_USED 0 t
  let s := s.setFld F.WAY_STAT_OPEN (s.fld F.WAY_STAT_OPEN - 1)
  let s := if s.txRec t then s.setFld F.WAY_STAT_REC_OPEN (s.fld F.WAY_STAT_REC_OPEN - 1) else s
  (s.setFld F.WAY_TX_STAT_STATE 0 t).setTx t tx0

/-- Bitmap `m` with bit `d` set. -/
def withBit (m d : Nat) : Nat := if m.testBit d then m else m + 2 ^ d

/-- Complete a system command whose last DONE has arrived (R296 step 7): the bitmap of committed devices goes to the result
address first. -/
def State.coordCheck (s : State) (c : Coord) : State :=
  if c.closed && c.done == c.devices then
    let s : State := { s with coords := s.coords.filter fun x => decide (x.sysId ≠ c.sysId) }
    match c.refused with
    | some code => s.reply c.hdr code []
    | none =>
      let link := match c.hdr.src with | .queue q => s.queueLink q.val | _ => 0
      let s := s.emit (.hostWrite link c.result (leBytes c.committed 32) false)
      s.reply c.hdr (if c.committed = c.devices then 0 else 0x0304) []
  else s

/-- DONE of device `d` reaches the coordinator of a system transaction (R296 steps 6 and 7). -/
def State.coordDone (s : State) (sysId d : Nat) (committed : Bool) : State :=
  match s.coords.find? fun c => c.sysId == sysId with
  | none => s
  | some c =>
    let c' : Coord := { c with done := withBit c.done d, committed := if committed then withBit c.committed d else c.committed }
    ({ s with coords := s.coords.map fun x => if x.sysId = sysId then c' else x } : State).coordCheck c'

/-- The end of a part of a system transaction is told to its coordinator (R296): DONE, or REFUSE while it is preparing. -/
def State.sysTell (s : State) (t : Nat) (committed : Bool) (code : Nat) : State :=
  let x := s.tx t
  match x.peer with
  | some d => if s.txState t = 2 then s.ctlTo d (.refuse x.sysId code)
      else if s.txState t = 1 then s else s.ctlTo d (.done x.sysId committed)
  | none => if x.coord then s.coordDone x.sysId (s.fld F.JCT_SYS_DEVNUM) committed else s

/-- The swap of UPD_SWITCH has failed (R495 step 2): the command ends with its code, and the STANDBY pair reloads the running
image. -/
def State.switchFail (s : State) (t st : Nat) : State :=
  match s.switch with
  | some w =>
    if w.tx = some t ∧ st ≠ 0 then
      let s := (s.setFld F.MC_STAT_SWITCHING 0).setFld (if s.flag F.MC_STAT_ACTIVE then F.MC_STAT_P0_STATE else F.MC_STAT_P1_STATE) 2
      { s.reply w.hdr st [] with switch := none }
    else s
  | none => s

/-- A transaction of a service procedure has ended: a procedure whose last step it was, or that it failed, replies. -/
def State.svcEnd (s : State) (t st : Nat) : State :=
  let s := s.switchFail t st
  match s.svc.find? fun j => decide (j.tx = some t) with
  | some j =>
    let s := if j.kind = 3 then s.setFld F.RAS_PMIG_EN 0 else s
    let s : State := if j.kind = 3 ∧ st = 0 then
        { s with pagesOut := s.pagesOut ++ [12288 * j.a + j.c], repairAt := s.now
                 repair := (s.repair.filter fun e => !decide (e.kind = 3 ∧ e.a = j.a ∧ e.b = j.b)) ++
                   (if j.b = j.d then [] else [⟨3, j.a, j.b, j.d, 1⟩]) }
      else s
    if st ≠ 0 ∨ j.kind = 2 ∨ j.kind = 3 ∨ j.kind = 4 then
      let s : State := { s with svc := s.svc.filter fun x => decide (x ≠ j) }
      match j.hdr with
      | some h => s.reply h st []
      | none => s
    else s
  | none => s

/-- Abort or refuse a transaction with a status (R289): its TX_PREPARE ends with that status. -/
def State.txEnd (s : State) (t st : Nat) : State :=
  let x := s.tx t
  let s := s.sysTell t false st
  let s := ((s.txFree t).setFld F.WAY_TX_STAT_LAST_STATUS st t).svcEnd t st
  match x.prep with
  | some h => s.reply h st []
  | none => s

/-- The result words of a committed TX_PREPARE (R365). -/
def State.txWords (s : State) (t : Nat) : List Nat :=
  let x := s.tx t
  [x.commitTime % 2 ^ 32, x.commitTime / 2 ^ 32] ++
    (if s.fld F.WAY_TX_STAT_POINT t = 1 then [wrapTo 64 x.boundary % 2 ^ 32, wrapTo 64 x.boundary / 2 ^ 32] else [])

/-- A COMMITTED transaction whose last effect point has passed becomes DONE, then FREE (R289). -/
def State.txDone1 (s : State) (t : Nat) : State :=
  if s.txState t = 4 ∧ !(s.ents.any fun e => e.tx == t) then
    let x := s.tx t
    let w := s.txWords t
    let s := (s.wayStates t 4).sysTell t true 0
    let s := (s.txFree t).svcEnd t 0
    match x.prep with
    | some h => s.reply h 0 w
    | none => s
  else s

/-- Complete every transaction whose effects are all in place. -/
def State.txSettle (s : State) : State := (List.range 64).foldl (fun s t => s.txDone1 t) s

/-- The part of a 64-bit register value that a 32-bit word at an address replaces under a mask. -/
def maskWord (old high v m : Nat) : Nat :=
  let lo := if high = 1 then 32 else 0
  let w := bitsOf old lo 32
  putBits old lo 32 (((BitVec.ofNat 32 w &&& ~~~(BitVec.ofNat 32 m)) ||| (BitVec.ofNat 32 v &&& BitVec.ofNat 32 m)).toNat)

/-- A register value with the bits of a mask replaced. -/
def mask64 (old v m : Nat) : Nat :=
  ((BitVec.ofNat 64 old &&& ~~~(BitVec.ofNat 64 m)) ||| (BitVec.ofNat 64 v &&& BitVec.ofNat 64 m)).toNat

/-- A word of the commit path's write stage, 0 where it is empty. -/
def State.staged (s : State) (k : Nat) : Nat := match mapGet none s.stage k with
  | some w => w.toNat
  | none => 0

/-- One write of the commit path (R11, R283): the high word of a 64-bit register is staged with its mask and changes nothing else; any
other gives the value and the mask of the whole register, the staged high word with it, and empties the stage. -/
def State.commitTake (s : State) (h : RegHit) (v m : Nat) : State × Option (Nat × Nat) :=
  let k := holdKey .commit h
  let put (x y : Option Word) : State := { s with stage := mapSet none (mapSet none s.stage k x) (k + 2 ^ 40) y }
  if h.high then (put (some (BitVec.ofNat 32 v)) (some (BitVec.ofNat 32 m)), none)
  else if (regRow h.reg).width = 64 then
    (put none none, some (v % 2 ^ 32 + 2 ^ 32 * s.staged k, m % 2 ^ 32 + 2 ^ 32 * s.staged (k + 2 ^ 40)))
  else (s, some (v, m))

/-- Write the masked bits of the 32-bit word at a register address as the commit path does (R11, R283). -/
def State.maskWrite (s : State) (a v m : Nat) : State :=
  match findReg a with
  | some h => match s.commitTake h v m with
    | (s, some (v, m)) => s.setReg h.reg (mask64 (s.reg h.reg h.i h.j) v m) h.i h.j
    | (s, none) => s
  | none => s

end Sys2Proof.Machine
end

