-- ==== Sys2Proof/Machine/Chain.lean ====
section
/-! DEFINITION. The lines of a unit: latching (R94 to R96), temporal noise reduction over lines (R82, R83), interleave groups
(R87), tap sends (R91, R203, R215), images and gap records (R93, R100 to R102, R374, R546), release (R101). -/
namespace Sys2Proof.Machine

/-- A unit's chain after reset: slot 0 is in use (R96). -/
def ref0 : RefUnit := ⟨[⟨true, []⟩, ⟨false, []⟩, ⟨false, []⟩], 0, none, [], [],
  ⟨0, 0, 0, List.replicate 16 (0, 0), none⟩, [], false, [], []⟩
/-- A connection number that no connection holds. -/
def conn0 : Conn := ⟨[], .none, 0, none, 0, none, false, 0, none, [], [], 0, none, [], none, 0, 0, 0, 0, false, none⟩
/-- A crew that has run nothing. -/
def crew0 : Crew := ⟨true, false, false, 0, 0, 0, none, false, []⟩
/-- An empty plan bank. -/
def bank0 : Bank := ⟨0, 0, 0, 0, false, ⟨[], [], []⟩⟩

/-- The chain of unit `u`. -/
def State.refU (s : State) (u : Nat) : RefUnit := mapGet ref0 s.refs u
/-- Store the chain of unit `u`. -/
def State.setRef (s : State) (u : Nat) (x : RefUnit) : State := { s with refs := mapSet ref0 s.refs u x }
/-- Connection `c`. -/
def State.conn (s : State) (c : Nat) : Conn := mapGet conn0 s.conns c
/-- Store connection `c`. -/
def State.setConn (s : State) (c : Nat) (x : Conn) : State := { s with conns := mapSet conn0 s.conns c x }
/-- The crew of stripe entry `e` of unit `u`. -/
def State.crew (s : State) (u e : Nat) : Crew := mapGet crew0 s.crews (64 * u + e)
/-- Store the crew of stripe entry `e` of unit `u`. -/
def State.setCrew (s : State) (u e : Nat) (x : Crew) : State := { s with crews := mapSet crew0 s.crews (64 * u + e) x }
/-- Plan bank `b`. -/
def State.bank (s : State) (b : Nat) : Bank := mapGet bank0 s.banks b
/-- Is plan bank `b` named by a live activation: a unit is dispatched from it, or an activation of it is on its way (R365). -/
def State.bankLive (s : State) (b : Nat) : Bool :=
  s.unitBank.any (fun e => e.2 == b + 1) || s.ents.any fun e => match e.act with
    | .model k _ => k == b
    | _ => false
/-- The state of plan bank `b` that MODEL_INFO reads: 0 empty, 1 loaded, 2 live. -/
def State.bankSt (s : State) (b : Nat) : Nat := if (s.bank b).st = 0 then 0 else if s.bankLive b then 2 else 1

/-- The segment number of R67. -/
def segNum (b : Int) (part : Nat) : Nat := wrapTo 64 (b * 256 + (part : Int))

/-- Is this the segment of boundary `b` and part `p`. -/
def SegSt.is (x : SegSt) (b : Int) (p : Nat) : Bool := decide (x.b = b ∧ x.part = p)
/-- The unreleased segment of a connection. -/
def State.seg? (s : State) (c : Nat) (b : Int) (p : Nat) : Option SegSt := (s.conn c).segs.find? fun x => x.is b p
/-- Change a segment of a connection. -/
def State.modSeg (s : State) (c : Nat) (b : Int) (p : Nat) (f : SegSt → SegSt) : State :=
  s.setConn c { s.conn c with segs := (s.conn c).segs.map fun x => if x.is b p then f x else x }
/-- Change the reservoir lines with an identifier. -/
def State.modLine (s : State) (c id : Nat) (f : ResLine → ResLine) : State :=
  s.setConn c { s.conn c with lines := (s.conn c).lines.map fun x => if x.id = id then f x else x }
/-- A reservoir line. -/
def State.line? (s : State) (c id : Nat) : Option ResLine := (s.conn c).lines.find? fun x => x.id == id

/-- Does an address belong to the parameter set of unit `u` (R94, R204, R266). -/
def isParam (u a : Nat) : Bool :=
  decide (regAddr .CAT_CTX u ≤ a ∧ a < regAddr .CAT_CTX (u + 1)) ||
  decide (0x300000 + 0x10000 * u + 4 ≤ a ∧ a < 0x300000 + 0x10000 * u + 0x60) ||
  decide (0x210000 + 0x400 * u ≤ a ∧ a < 0x210000 + 0x400 * (u + 1))
/-- The staging image of unit `u`. -/
def State.staging (s : State) (u : Nat) : FMap DWord := s.regs.filter fun e => isParam u e.1

/-- Has a segment been processed by both lanes: closed, and every line delivered. -/
def Conn.segSeen (x : Conn) (g : SegSt) : Bool := g.closed && x.lines.all fun l => !g.is l.b l.part || l.imaged

/-- Is live slot `i` of unit `u` needed (R96): current, or named by a segment not yet processed. -/
def State.slotNeeded (s : State) (u i : Nat) : Bool :=
  i == (s.refU u).cur || (List.range 16).any fun c =>
    (s.conn c).segs.any fun g => g.unit == u && decide (g.slot = some i) && !(s.conn c).segSeen g

/-- The pending entries of unit `u` (R94): transactions whose committed entries it holds. -/
def State.pendTx (s : State) (u : Nat) : List Nat :=
  ((s.ents.filter fun e => decide (e.at_ = .latch u ∧ e.phase = .held)).map (·.tx)).dedup

/-- The TAB_BANK value that an entry of unit `u` names, if any. -/
def Entry.tabBank (e : Entry) (u : Nat) : Option Nat :=
  match e.act with
  | .regWrite a v m => if e.at_ = .latch u ∧ a = regAddr .REF_CTRL u ∧ m % 2 = 1 then some (v % 2) else none
  | _ => none

/-- Is table bank `b` of unit `u` busy (R98). -/
def State.bankBusy (s : State) (u b : Nat) : Bool :=
  (List.range 3).any (fun i => ((s.refU u).live.getD i ⟨false, []⟩).used &&
    setFldIn ((s.refU u).live.getD i ⟨false, []⟩).set F.REF_CTRL_TAB_BANK u == b) ||
  s.ents.any fun e => decide (e.tabBank u = some b)

/-- Free the live slots that no line needs, and bring REF_SETS up to date (R96, R98). -/
def State.refSets (s : State) (u : Nat) : State :=
  let x := s.refU u
  let live := (List.range 3).map fun i => let l := x.live.getD i ⟨false, []⟩; { l with used := l.used && s.slotNeeded u i }
  let s := s.setRef u { x with live := live }
  let used := (List.range 3).foldl (fun n i => if (live.getD i ⟨false, []⟩).used then n + 2 ^ i else n) 0
  let s := (s.setFld F.REF_SETS_SLOTS_USED used u).setFld F.REF_SETS_PEND (s.pendTx u).length u
  let b (k : Nat) : Nat := if s.bankBusy u k then 1 else 0
  (s.setFld F.REF_SETS_BANK0_BUSY (b 0) u).setFld F.REF_SETS_BANK1_BUSY (b 1) u

/-- Apply one committed entry at its latch point (R95): a register write to the staging image, or a model activation for the
unit, after which the next task of each of its crews breaks the run (R207); a package with COMMIT_FLOOR raises MODEL_FLOOR (R497). -/
def State.latchEntry (s : State) (u : Nat) (e : Entry) : State :=
  match e.act with
  | .regWrite a v m => s.maskWrite a v m
  | .model bank _ =>
    let z := s.bank bank
    let s : State := { s with unitBank := mapSet 0 s.unitBank u (bank + 1) }
    let s : State := if z.commitFloor then
        { s with fuses := { s.fuses with modelFloor := max s.fuses.modelFloor z.svn }
                 fuseBox := { s.fuseBox with modelFloor := max s.fuseBox.modelFloor z.svn } }
      else s
    let s := s.logE 1 0xE00A [bank, (s.bank bank).release, (s.bank bank).ident % 2 ^ 32, 0]
    (List.range 64).foldl (fun s k => s.setCrew u k { s.crew u k with brk := true }) s
  | _ => s

/-- The entries of unit `u` that latch with boundary `b`, in tag order (R95). -/
def State.latching (s : State) (u : Nat) (b : Int) : List Entry :=
  sortBy (s.ents.filter fun e => decide (e.at_ = .latch u ∧ e.phase = .held ∧ e.tag ≤ b))
    fun x y => decide (x.tag < y.tag ∨ (x.tag = y.tag ∧ x.order ≤ y.order))

/-- A splice entry field of a set. -/
def splFld (set : FMap DWord) (f : Fld) (u k : Nat) : Nat := setFldIn set f u k
/-- Is splice entry `k` enabled and returning (R90). -/
def splReturns (set : FMap DWord) (u k : Nat) : Bool :=
  splFld set F.REF_SPLICE_EN u k == 1 && splFld set F.REF_SPLICE_RET u k != 7
/-- Does a set hold a returning splice. -/
def hasReturn (set : FMap DWord) (u : Nat) : Bool := (List.range 4).any fun k => splReturns set u k
/-- The enabled stripe entries of splice entry `k`. -/
def stripesOf (set : FMap DWord) (u k : Nat) : List Nat :=
  (List.range 64).filter fun e => setFldIn set F.ING_STRIPE_CREW_EN u e == 1 &&
    setFldIn set F.ING_STRIPE_CREW_SPLICE u e == k
/-- The stripe entries that run a crew: enabled, not export, of an enabled splice entry. -/
def crewEntries (set : FMap DWord) (u : Nat) : List Nat :=
  (List.range 4).flatMap fun k => if splFld set F.REF_SPLICE_EN u k = 1 then
    (stripesOf set u k).filter fun e => setFldIn set F.ING_STRIPE_CREW_EXPORT u e == 0 else []

/-- First tile and member count of the crew of a stripe entry in a set (R205). -/
def crewSpan (set : FMap DWord) (u e : Nat) : Nat × Nat :=
  (32 * setFldIn set F.ING_STRIPE_CREW_COL u e + setFldIn set F.ING_STRIPE_CREW_HEAD u e,
   setFldIn set F.ING_STRIPE_CREW_N_M1 u e + 1)

/-- Words without poison. -/
def plainWords (ws : List Nat) : List Cell16 := ws.map fun w => ⟨BitVec.ofNat 128 w, false⟩

/-- What the resident convoy of a crew delivers into tile `t` as member `m`: the route images and its resident weights (R243,
R300); it goes to the tile that stands in for `t` (R425). -/
def State.loadTile (s : State) (t : Nat) (c : PkgCrew) (m : Nat) : State :=
  let d := s.subTile t
  let s := (c.full :: c.nm1.toList).foldl (fun s p => s.writeWs d false p.base (plainWords p.words)) s
  (c.resident.filter fun r => r.1 == m).foldl (fun s r => s.writeWs d r.2.1 r.2.2.1 (plainWords r.2.2.2)) s

/-- A crew that an activation places: its tiles are loaded, and TILE_RB_CFG of each is written between two of its tasks (R205,
R209, R291). -/
def State.placeCrew (s : State) (u : Nat) (set : FMap DWord) (e : Entry) (c : PkgCrew) : State :=
  let q := crewSpan set u c.entry
  let s := (List.range q.2).foldl (fun s m => s.loadTile (q.1 + m) c m) s
  let cfg (m : Nat) : Entry := ⟨64, 2048, .regWrite (regAddr .TILE_RB_CFG (q.1 + m)) (2 ^ 31 + (q.2 - 1) * 2 ^ 16 + m * 2 ^ 8) 0xFFFFFFFF,
    .crew u c.entry, .held, e.tag, e.order⟩
  { s with ents := (List.range q.2).map cfg ++ s.ents }

/-- The duplicate of a weight region (R226), a unit at a time. -/
def State.goldenCopy (s : State) (from_ copy n : Nat) : State :=
  (List.range n).foldl (fun s i =>
    match s.hbmPhys (from_ + 64 * i) with
    | some p =>
      let bs := s.hbmReadPhys p 64
      s.hbmWrite (copy + 64 * i) (bs.map (·.1)) (bs.any (·.2))
    | none => s) s

/-- What a model activation puts in place for unit `u` at its latch point: golden copies (R226), and every crew of the package
whose stripe entry is enabled and no export in the new set. -/
def State.placeModel (s : State) (u : Nat) (set : FMap DWord) (e : Entry) : State :=
  match e.act with
  | .model bank _ =>
    let p := (s.bank bank).pkg
    let s := p.golden.foldl (fun s g => s.goldenCopy g.1 g.2.1 g.2.2) s
    (p.crews.filter fun c => c.unit == u && setFldIn set F.ING_STRIPE_CREW_EN u c.entry == 1 &&
      setFldIn set F.ING_STRIPE_CREW_EXPORT u c.entry == 0).foldl (fun s c => s.placeCrew u set e c) s
  | _ => s

/-- The latch point of unit `u` (R95, R96): the slot that holds the new set, or none where no slot is free. -/
def State.latchSet (s : State) (u : Nat) (b : Int) : State × Option Nat :=
  let es := s.latching u b
  let s' := es.foldl (fun s e => s.latchEntry u e) s
  let set := s'.staging u
  let x := s.refU u
  let free := (List.range 3).find? fun i => !(x.live.getD i ⟨false, []⟩).used
  let fin (s : State) (i : Nat) : State :=
    let s : State := { s with ents := s.ents.filter fun e => !es.contains e }
    let s := es.foldl (fun s e => s.placeModel u set e) s
    let s := s.setRef u { s.refU u with cur := i, curB := some b, live := x.live.set i ⟨true, set⟩ }
    ((s.setFld F.REF_SETS_WAITING 0 u).pulse (.local_ (0x50 + u)) 1).txSettle
  if set = (x.live.getD x.cur ⟨false, []⟩).set then ((fin s' x.cur).refSets u, some x.cur)
  else match free with
    | some i => ((fin s' i).refSets u, some i)
    | none => ((s.setFld F.REF_SETS_WAITING 1 u).setFld F.REF_SETS_WAITED 1 u, none)

/-- The parameter set of a live slot. -/
def State.slotSet (s : State) (u i : Nat) : FMap DWord := ((s.refU u).live.getD i ⟨false, []⟩).set

/-- Is a segment of a connection on the hard shoulder; the SHOULDER and FILL fields follow (R74). -/
def State.resStat (s : State) (c : Nat) : State :=
  let x := s.conn c
  (s.setFld F.ING_RES_STAT_SHOULDER (if x.segs.any (·.hs) then 1 else 0) c).setFld F.ING_RES_STAT_FILL x.lines.length c

/-- Write the GAP record of a segment (R100, R546). -/
def State.gapRecord (s : State) (c : Nat) (g : SegSt) (line : Nat) (stamp : Stamp) (flags : Nat) (final : Bool) : State :=
  let st := if g.reason = 2 ∨ g.reason = 5 then 0 else 0x0301
  s.egress ⟨2, c, flags, 0xFF, { stamp with seg := segNum g.b g.part },
    gapPayload st g.reason final (if final then g.next - line else 0)⟩

/-- Write what is owed of a segment's gap: the first record once its line has been delivered, the second once a segment that
was open then has closed and delivered its last line (R546). -/
def State.gapTry (s : State) (c : Nat) (b : Int) (p : Nat) : State :=
  match s.seg? c b p with
  | some g =>
    match g.gap with
    | some o =>
      let ls := (s.conn c).lines.filter fun l => g.is l.b l.part
      if !o.written then
        match ls.find? (fun l => l.n == o.line && l.imaged) with
        | some l =>
          let st : Stamp := ⟨segNum b p, l.line, l.pos, l.time⟩
          let fl := l.oflags ||| 1
          let s := s.gapRecord c g o.line st fl g.closed
          s.modSeg c b p fun g => { g with gap := if g.closed then none else some { o with written := true, stamp := st, flags := fl } }
        | none => if g.closed && decide (g.next ≤ o.line) then s.modSeg c b p fun g => { g with gap := none } else s
      else if g.closed && ls.all (·.imaged) then
        (s.gapRecord c g o.line o.stamp o.flags true).modSeg c b p fun g => { g with gap := none }
      else s
    | none => s
  | none => s

/-- May the oldest segment be released (R101). -/
def Conn.canRelease (x : Conn) (g : SegSt) : Bool :=
  x.segSeen g && (g.tasks.isEmpty || g.hs) && g.reread.isNone && g.gap.isNone

/-- Release segments in order (R101); `n` bounds how many. -/
def State.release (s : State) (c : Nat) : Nat → State
  | 0 => s.resStat c
  | n + 1 =>
    let x := s.conn c
    match x.segs with
    | g :: gs =>
      if x.canRelease g then
        ((s.setConn c { x with segs := gs, lines := x.lines.filter fun l => !g.is l.b l.part }).refSets g.unit).release c n
      else s.resStat c
    | [] => s.resStat c

/-- What a delivered line is: its first chain line with its segment and slot, the chain lines it covers, the flags so far. -/
structure OutLine where
  id : Nat
  n : Nat
  b : Int
  part : Nat
  slot : Nat
  ids : List Nat
  flags : Nat
  deriving DecidableEq, Repr

/-- The gap record of a missing line as it is delivered (R52, R546). -/
def State.missGap (s : State) (c id flags : Nat) : State :=
  match s.line? c id with
  | some l =>
    if l.flags.testBit 1 ∧ !l.imaged then
      s.egress ⟨2, c, flags, 0xFF, ⟨segNum l.b l.part, l.line, l.pos, l.time⟩, gapPayload 0 2 true 1⟩
    else s
  | none => s

/-- Deliver an image of a connection (R93, R102, R374) unless it has been delivered: the flags, the missing-line gaps, the
record, the owed gap of the segment, and what may be released. -/
def State.deliver (s : State) (u c : Nat) (o : OutLine) (img : List Nat) (spliced : Option Nat) : State :=
  match s.line? c o.id, s.seg? c o.b o.part with
  | some l, some g =>
    if l.imaged then s else
    let held := setFldIn (s.slotSet u o.slot) F.REF_CTRL_EST_HELD u
    let fl := o.flags ||| (if g.hs then 1 else 0) ||| (if g.short then 4 else 0) ||| (held * 32) |||
      (if spliced.isSome then 512 else 0)
    let s := o.ids.foldl (fun s id => s.missGap c id fl) s
    let stamp : Stamp := ⟨segNum o.b o.part, l.line, l.pos, l.time⟩
    let s := (mapGet [] s.markers u).foldl (fun s r => s.egress ⟨6, c, fl, 0xFF, stamp, leBytes r 2 ++ List.replicate 14 0⟩) s
    let s : State := { s with markers := mapSet [] s.markers u [] }
    let s := s.egress ⟨4, c, fl, spliced.getD 0xFF, stamp,
      img.flatMap fun v => leBytes v 2⟩
    let s := o.ids.foldl (fun s id => s.modLine c id fun l => { l with imaged := true, oflags := fl }) s
    let s := if spliced.isSome then s.modSeg c o.b o.part fun g => { g with taken := max g.taken (o.n + 1) } else s
    ((s.gapTry c o.b o.part).release c 64).refSets u
  | _, _ => s

/-- Samples of a tap as a send carries them (R91). -/
def sendForm (b8 : Bool) (l : List Nat) : List Nat := if b8 then l.map to8 else l

/-- Does a send from tap `t` read the splice lane (R91). -/
def splSend (set : FMap DWord) (u t : Nat) : Bool :=
  (List.range 4).any fun k => splReturns set u k && decide (splFld set F.REF_SPLICE_RET u k ≤ t)

/-- Send a tap row to the stripes of every enabled entry with that source (R91, R203, R215): crew rows wait in the send
buffer, export rows leave on their junction. `w` is the tap's width, `c` its samples per pixel. -/
def State.tapSend (s : State) (u t ct : Nat) (o : OutLine) (idx : Nat) (l : List Nat) : State :=
  let set := s.slotSet u o.slot
  (List.range 4).foldl (fun s k =>
    if splFld set F.REF_SPLICE_EN u k = 1 ∧ splFld set F.REF_SPLICE_SRC u k = t then
      let b8 := splFld set F.REF_SPLICE_SEND8 u k == 1
      let row := sendForm b8 l
      (stripesOf set u k).foldl (fun s e =>
        if setFldIn set F.ING_STRIPE_CREW_EXPORT u e = 1 then
          let x0 := (sext (setFldIn set F.ING_STRIPE_GEOM_X0 u e) 16).toNat
          let w := setFldIn set F.ING_STRIPE_GEOM_W_M1 u e + 1
          s.jctExport (setFldIn set F.ING_STRIPE_HALO_JPORT u e) (segNum o.b o.part) idx k w ct (if b8 then 1 else 2)
            ((row.drop (x0 * ct)).take (w * ct))
        else
          let x := s.refU u
          s.setRef u { x with sendQ := mapUpd [] x.sendQ e fun q => q ++ [⟨o.b, o.part, o.n, row⟩] }) s
    else s) s

/-- Rearrange a chain line so that the samples of each tap pixel lie together (R199): looks at T0, halves for Bayer. -/
def pixelMajor (parts : Nat) (l : List Nat) : List Nat :=
  let w := l.length / max parts 1
  (List.range w).flatMap fun x => (List.range parts).map fun j => l.getD (j * w + x) 0

/-- Index of a line within its boundary: lines of the segment before it. -/
def State.lineIdx (s : State) (c : Nat) (o : OutLine) : Nat :=
  match s.seg? c o.b o.part with
  | some g => o.n - g.first
  | none => 0

/-- Add a line's flags. -/
def OutLine.flag (o : OutLine) (f : Nat) : OutLine := { o with flags := o.flags ||| f }

/-- May a line of the reference lane send and deliver: its segment is not on the hard shoulder for sends. -/
def State.segHs (s : State) (c : Nat) (o : OutLine) : Bool :=
  match s.seg? c o.b o.part with
  | some g => g.hs
  | none => true

/-- Stages 4 and 5 of the reference lane for one group, its sends and its image (R87 to R89, R93). -/
def State.refTail (s : State) (u c : Nat) (o : OutLine) (group : List (List Nat)) : State :=
  let g := s.chainGeo u
  let set := s.slotSet u o.slot
  let (t4, sat) := recon set u g group
  let o := o.flag (if sat then 128 else 0)
  let idx := s.lineIdx c o
  let hs := s.segHs c o
  let s := if hs || splSend set u 4 then s else s.tapSend u 4 g.kout o idx t4
  let t5 := s.tone set u g.kout t4
  let s := if hs || splSend set u 5 then s else s.tapSend u 5 g.kout o idx t5
  if hs || !hasReturn set u then s.deliver u c o t5 none else s

/-- The group of interleave lines held, as one output line (R87): the stamps and set of the first, the flags of all. -/
def ilOut (ls : List IlLine) : Option (OutLine × List (List Nat)) :=
  match ls with
  | [] => none
  | f :: _ => some (⟨f.id, f.n, f.b, f.part, f.slot, ls.map (·.id), ls.foldl (fun a l => a ||| l.flags) 0⟩, ls.map (·.z))

/-- The samples of a chain line from a tap row whose pixels lie together: the inverse of `pixelMajor`. -/
def laneMajor (parts : Nat) (l : List Nat) : List Nat :=
  let w := l.length / max parts 1
  (List.range parts).flatMap fun j => (List.range w).map fun x => l.getD (x * parts + j) 0

/-- The returning entry of a set with RET at a tap (R90: at most one). -/
def splAt (set : FMap DWord) (u t : Nat) : Option Nat :=
  (List.range 4).find? fun k => splReturns set u k && splFld set F.REF_SPLICE_RET u k == t

/-- The returning entry with the highest RET, which a spliced image names (R373). -/
def splTop (set : FMap DWord) (u : Nat) : Nat :=
  ((List.range 4).filter fun k => splReturns set u k).foldl (fun a k =>
    if splFld set F.REF_SPLICE_RET u a < splFld set F.REF_SPLICE_RET u k ∨ !splReturns set u a then k else a) 0

/-- Tap T4 or T5 of the splice lane (R77, R91): its sends; then the next stage, unless a return replaces its output, and the
image at T5. -/
def State.splTail (s : State) (u c : Nat) (o : OutLine) (t : Nat) (l : List Nat) : State :=
  let set := s.slotSet u o.slot
  let g := s.chainGeo u
  let idx := s.lineIdx c o
  let s := s.tapSend u t g.kout o idx l
  if t = 5 then s.deliver u c o l (some (splTop set u))
  else if (splAt set u 5).isSome then s
  else
    let l5 := s.tone set u g.kout l
    (s.tapSend u 5 g.kout o idx l5).deliver u c o l5 (some (splTop set u))

/-- Lines of a segment in the interleave group of line `n`. -/
def State.groupLines (s : State) (c : Nat) (b : Int) (p k n : Nat) : Nat :=
  ((s.conn c).lines.filter fun l => decide (l.b = b ∧ l.part = p ∧ l.n / k = n / k)).length

/-- Stage 4 of the splice lane for a group that is whole, or cut with its absent channels zero (R87, R88). -/
def State.splGroup (s : State) (u c : Nat) (ls : List IlLine) : State :=
  match ilOut ls, ls with
  | some (o, zs), l :: _ =>
    let k := (s.chainGeo u).kil
    let s := s.setRef u { s.refU u with spl := (s.refU u).spl.filter fun f => decide (f.n / k ≠ l.n / k) }
    let o := if ls.length < k then o.flag 1024 else o
    let (t4, sat) := recon (s.slotSet u o.slot) u (s.chainGeo u) (zs ++ List.replicate (k - zs.length) (l.z.map fun _ => 0))
    s.splTail u c (o.flag (if sat then 128 else 0)) 4 t4
  | _, _ => s

/-- A line of the splice lane enters its interleave group, which leaves once it holds every line it will get. -/
def State.splAdd (s : State) (u c : Nat) (l : IlLine) : State :=
  let k := (s.chainGeo u).kil
  let x := s.refU u
  let ls := (x.spl.filter fun f => f.n / k == l.n / k) ++ [l]
  let s := s.setRef u { x with spl := x.spl ++ [l] }
  let shut : Bool := match s.seg? c l.b l.part with
    | some g => g.closed
    | none => false
  if ls.length = k ∨ (shut ∧ ls.length = s.groupLines c l.b l.part k l.n) then s.splGroup u c ls else s

/-- Taps T1 to T3 of the splice lane for one chain line (R77, R91): its sends, then the next stage, unless a return replaces
that stage's output; `n` bounds the stages. -/
def State.splHead (s : State) (u c : Nat) (o : OutLine) (t : Nat) (l : List Nat) : Nat → State
  | 0 => s
  | n + 1 =>
    let set := s.slotSet u o.slot
    let g := s.chainGeo u
    let s := s.tapSend u t g.d o (s.lineIdx c o) (pixelMajor g.d l)
    if (splAt set u (t + 1)).isSome then s
    else
      let phase := o.n % g.kil
      if t = 1 then s.splHead u c o 2 (s.snr set u g phase l) n
      else if t = 2 then
        let (t3, sat, un) := s.level set u g phase l
        let s := s.addSat F.REF_CNT_UNFILLED un u
        s.splHead u c (o.flag ((if sat then 128 else 0) ||| (if 0 < un then 64 else 0))) 3 t3 n
      else s.splAdd u c ⟨o.id, o.n, o.b, o.part, o.slot, phase, o.flags, l⟩

/-- The groups of a segment that wait in the splice lane for lines that will not come. -/
def State.splCut (s : State) (u c : Nat) (b : Int) (p : Nat) : State :=
  let k := (s.chainGeo u).kil
  let mine := (s.refU u).spl.filter fun l => decide (l.b = b ∧ l.part = p)
  ((mine.map fun l => l.n / k).dedup).foldl (fun s q =>
    let ls := mine.filter fun l => l.n / k == q
    if ls.length = s.groupLines c b p k (q * k) then s.splGroup u c ls else s) s

/-- A line leaves stage 3 into its interleave group (R87): discarded where the group's first line did not enter the chain. -/
def State.ilAdd (s : State) (u c : Nat) (l : IlLine) : State :=
  let k := (s.chainGeo u).kil
  let x := s.refU u
  let held := x.il.filter fun f => f.n / k == l.n / k
  let rest := x.il.filter fun f => f.n / k != l.n / k
  if l.phase = 0 ∨ (l.phase = held.length ∧ held ≠ []) then
    let ls := (if l.phase = 0 then [] else held) ++ [l]
    if ls.length = k then
      let s := s.setRef u { x with il := rest }
      match ilOut ls with
      | some (o, zs) => s.refTail u c o zs
      | none => s
    else s.setRef u { x with il := rest ++ ls }
  else
    (((s.inc F.REF_CNT_LATE_LOOKS u).modLine c l.id fun r => { r with imaged := true }).gapTry c l.b l.part).release c 64

/-- Emit the cut group of a segment with its absent channels zero (R87). -/
def State.ilCut (s : State) (u c : Nat) (b : Int) (p : Nat) : State :=
  let x := s.refU u
  let ls := x.il.filter fun l => decide (l.b = b ∧ l.part = p)
  match ilOut ls, ls with
  | some (o, zs), l :: _ =>
    let s := s.setRef u { x with il := x.il.filter fun l => !decide (l.b = b ∧ l.part = p) }
    s.refTail u c (o.flag 1024) (zs ++ List.replicate ((s.chainGeo u).kil - zs.length) (l.z.map fun _ => 0))
  | _, _ => s

/-- Copy the statistics totals to REF_ST and restart them (R79). -/
def State.noiseOut (s : State) (u : Nat) : State :=
  let t := (s.refU u).noise
  match t.seg with
  | none => s
  | some (b, p) =>
    let s := ((s.setReg .REF_ST t.darkCnt u 1).setReg .REF_ST t.darkSum u 2).setReg .REF_ST t.darkSq u 3
    let s := (List.range 16).foldl (fun s k =>
      (s.setReg .REF_ST (t.bins.getD k (0, 0)).1 u (4 + 2 * k)).setReg .REF_ST (t.bins.getD k (0, 0)).2 u (5 + 2 * k)) s
    let s := s.setReg .REF_ST (segNum b p) u 0
    s.setRef u { s.refU u with noise := { ref0.noise with seg := none } }

/-- Gather the statistics of a T1 line, after those of the segment before it are complete (R79). -/
def State.noiseT1 (s : State) (u : Nat) (o : OutLine) (phase : Nat) (l : List Nat) (copy : Bool) : State :=
  let s := if decide ((s.refU u).noise.seg = some (o.b, o.part)) then s else s.noiseOut u
  let x := s.refU u
  let t := { x.noise with seg := some (o.b, o.part) }
  s.setRef u { x with noise := if copy then t else s.noiseLine (s.slotSet u o.slot) u (s.chainGeo u) phase l t }

/-- Stages 1 (output) to 3 of a reference-lane line (R82 to R86), its sends, and its interleave group. -/
def State.refLine (s : State) (u c : Nat) (m : TnrLine) : State :=
  let g := s.chainGeo u
  let set := s.slotSet u m.slot
  let (t1, sat) := if g.n = 1 then (m.sum, false) else tnrOut m.sum m.c
  let fl := m.flags ||| (if m.lost ∧ 1 < g.n then 16 else 0) ||| (if sat then 128 else 0)
  let phase := m.n % g.kil
  let o : OutLine := ⟨m.id, m.n, m.b, m.part, m.slot, [m.id], fl⟩
  let idx := s.lineIdx c o
  let r := s.line? c m.id
  let s := match r with
    | some l => if l.t1 then s else s.noiseT1 u o phase t1 (l.flags.testBit 1)
    | none => s
  let s := s.modLine c m.id fun l => { l with t1 := true, tflags := fl }
  let hs := s.segHs c o
  let pm := pixelMajor g.d
  let s := if hs || splSend set u 1 then s else s.tapSend u 1 g.d o idx (pm t1)
  let t2 := s.snr set u g phase t1
  let s := if hs || splSend set u 2 then s else s.tapSend u 2 g.d o idx (pm t2)
  let (t3, sat3, un) := s.level set u g phase t2
  let s := s.addSat F.REF_CNT_UNFILLED un u
  let o := o.flag ((if sat3 then 128 else 0) ||| (if 0 < un then 64 else 0))
  let s := if hs || splSend set u 3 then s else s.tapSend u 3 g.d o idx (pm t3)
  s.ilAdd u c ⟨m.id, m.n, m.b, m.part, m.slot, phase, o.flags, t3⟩

/-- Fold look `j` of a received line into an output line (R82). -/
def State.lookInto (s : State) (u : Nat) (m : TnrLine) (look : List Nat) (copy : Bool) : State × TnrLine :=
  let (sum, c, gated) := looksAdd (s.slotSet u m.slot) u m.sum m.c look
  (s.addSat F.REF_CNT_GATED_GATED gated u, { m with sum := sum, c := c, lost := m.lost || copy })

/-- Emit an output line of temporal noise reduction. -/
def State.tnrEmit (s : State) (u c : Nat) (m : TnrLine) (early : Bool) : State :=
  let x := s.refU u
  let s := s.setRef u { x with tnr := x.tnr.map fun y => if y.id = m.id then { m with emitted := true } else y }
  s.refLine u c { m with lost := m.lost || early }

/-- One later look of a received line: added to its output line, emitted with the last look, or discarded (R82). -/
def State.lateLook (s : State) (u c j : Nat) (n : Nat) (look : List Nat) (copy again : Bool) : State :=
  let g := s.chainGeo u
  if n < j * g.shift then s else
  match (s.refU u).tnr.find? fun m => m.n == n - j * g.shift with
  | none => s
  | some m =>
    if m.emitted then (if again then s else s.addSat F.REF_CNT_LATE_LOOKS look.length u)
    else
      let (s, m) := s.lookInto u m look copy
      if j + 1 = g.n then s.tnrEmit u c m false
      else
        let x := s.refU u
        s.setRef u { x with tnr := x.tnr.map fun y => if y.id = m.id then m else y }

/-- A line runs through the reference lane (R76, R82): its samples, its later looks for earlier output lines, and the
output line it starts. A line read again takes the looks of the later lines that have already entered the chain. -/
def State.chainLine (s : State) (u c : Nat) (l : ResLine) (slot : Nat) (again : Bool) : State :=
  let g := s.chainGeo u
  let depth := (pfncDepth (s.fld F.ING_CONN_PIXFMT_PFNC c)).getD 16
  let smp (p : List Nat) : List Nat := p.map fun v => v % 2 ^ depth * 2 ^ (16 - depth)
  let t0 := smp l.pix
  let w := t0.length / g.n
  let look (p : List Nat) (j : Nat) : List Nat := (p.drop (j * w)).take w
  let copy := l.flags.testBit 1
  let o : OutLine := ⟨l.id, l.n, l.b, l.part, slot, [l.id], l.flags⟩
  let set := s.slotSet u slot
  let parts := if g.bayer = 0 then g.n else 2
  let s := if s.segHs c o || splSend set u 0 then s else s.tapSend u 0 parts o (s.lineIdx c o) (pixelMajor parts t0)
  let m : TnrLine := ⟨l.id, l.n, l.b, l.part, slot, l.flags, look t0 0, List.replicate w 1, copy, false⟩
  let x := s.refU u
  let keep := x.tnr.filter fun y => decide (l.n ≤ y.n + (g.n - 1) * g.shift ∧ y.id ≠ l.id)
  let s := s.setRef u { x with tnr := keep ++ [m] }
  let s := s.modLine c l.id fun r => { r with chained := true }
  let s := if again then s else (List.range (g.n - 1)).foldl (fun s i => s.lateLook u c (i + 1) l.n (look t0 (i + 1)) copy false) s
  if g.n = 1 then s.tnrEmit u c m false
  else if again then
    (List.range (g.n - 1)).foldl (fun s i =>
      match (s.conn c).lines.find? fun r => r.n == l.n + (i + 1) * g.shift && r.chained with
      | some r => s.lateLook u c (i + 1) r.n (look (smp r.pix) (i + 1)) (r.flags.testBit 1) true
      | none => s) s
  else s

/-- Emit early every pending output line of a segment, and its cut group (R83, R87). -/
def State.flushSeg (s : State) (u c : Nat) (b : Int) (p : Nat) : State :=
  let ms := (s.refU u).tnr.filter fun m => !m.emitted && decide (m.b = b ∧ m.part = p)
  let s := ms.foldl (fun s m => s.tnrEmit u c m true) s
  let s := if (s.refU u).il.any fun l => decide (l.b = b ∧ l.part = p) then s.ilCut u c b p else s
  s.splCut u c b p

/-- Flush a segment once it has closed short, or its connection has been steered away, and its last line is in the chain. -/
def State.flushIfDone (s : State) (c : Nat) (b : Int) (p : Nat) (moved : Bool) : State :=
  match s.seg? c b p with
  | some g =>
    if g.closed && (g.short || moved) && ((s.conn c).lines.all fun l => !g.is l.b l.part || l.chained) then
      let s := s.flushSeg g.unit c b p
      if decide ((s.refU g.unit).noise.seg = some (b, p)) then s.noiseOut g.unit else s
    else s
  | none => s

end Sys2Proof.Machine
end

