-- ==== Sys2Proof/Machine/Segs.lean ====
section
/-! DEFINITION. Segments of a connection (R67, R68): opening, closing, the hard shoulder (R100), the work of a unit's reference
lane (R95, R101, R213), seam status (R214). -/
namespace Sys2Proof.Machine

/-- The next task of every crew of unit `u` starts a new run (R207). -/
def State.breakRuns (s : State) (u : Nat) : State :=
  (List.range 64).foldl (fun s e => s.setCrew u e { s.crew u e with brk := true }) s

/-- The open segment of connection `c`. -/
def State.openSeg (s : State) (c : Nat) : Option SegSt := (s.conn c).segs.find? fun g => !g.closed

/-- Close the open segment of connection `c`, short or at its end (R67, R68). -/
def State.closeSeg (s : State) (c : Nat) (short : Bool) : State :=
  match s.openSeg c with
  | none => s
  | some g =>
    let s := s.modSeg c g.b g.part fun g => { g with closed := true, short := short }
    let s := s.setConn c { s.conn c with lastB := some g.b, lastPart := g.part }
    let s := if short then s.breakRuns g.unit else s
    let moved := decide (s.fld F.ING_CONN_CFG_UNIT c ≠ g.unit)
    (((s.flushIfDone c g.b g.part moved).gapTry c g.b g.part).release c 64).refSets g.unit

/-- The part index that boundary `b` opens with (R67). -/
def Conn.partOf (x : Conn) (b : Int) : Nat := if x.lastB = some b then min 255 (x.lastPart + 1) else 0

/-- Open a segment of connection `c` on its unit. -/
def State.openNew (s : State) (c : Nat) (b : Int) (n : Nat) : State :=
  let x := s.conn c
  let u := match x.was with
    | some (old, from_) => if b < from_ then old else s.fld F.ING_CONN_CFG_UNIT c
    | none => s.fld F.ING_CONN_CFG_UNIT c
  let g : SegSt := ⟨b, x.partOf b, u, none, n, n, false, false, false, 0, none, [], n, none⟩
  s.setConn c { x with segs := x.segs ++ [g] }

/-- The segment that a line of boundary `b` joins (R67): the open one, or a new one after the open one has closed. Inside an
interleave group a line stays in the segment of its group (R87). -/
def State.joinSeg (s : State) (c : Nat) (b : Int) (n : Nat) : State :=
  let k := (s.chainGeo (s.fld F.ING_CONN_CFG_UNIT c)).kil
  match s.openSeg c with
  | some g => if g.b = b ∨ (n % k ≠ 0 ∧ n / k = (g.next - 1) / k) then s else (s.closeSeg c false).openNew c b n
  | none => s.openNew c b n

/-- A segment goes to the hard shoulder (R100): its sends and returns stop, it is read again from its first line, one gap
finding is owed, and the next task of every crew of the connection starts a new run (R207, R248). -/
def State.hardShoulder (s : State) (c : Nat) (b : Int) (p reason : Nat) : State :=
  match s.seg? c b p with
  | none => s
  | some g =>
    if g.hs then s else
    let ls := (s.conn c).lines.filter fun l => g.is l.b l.part
    let again := if ls.all (·.imaged) then none else (ls.find? (·.chained)).map (·.id)
    let owed : GapOwed := ⟨g.taken, false, ⟨0, 0, 0, 0⟩, 0⟩
    let s := s.modSeg c b p fun g => { g with hs := true, reason := reason, reread := again, gap := some owed }
    let x := s.refU g.unit
    let mine (b' : Int) (p' : Nat) : Bool := decide (b' = b ∧ p' = p)
    let s := s.setRef g.unit { x with
      sendQ := (x.sendQ.map fun q => (q.1, q.2.filter fun r => !mine r.b r.part)).filter fun q => !q.2.isEmpty
      rets := (x.rets.map fun q => (q.1, q.2.filter fun r => !mine r.b r.part)).filter fun q => !q.2.isEmpty
      tnr := x.tnr.filter fun m => m.emitted || !mine m.b m.part
      il := x.il.filter fun l => !mine l.b l.part
      spl := x.spl.filter fun l => !mine l.b l.part }
    ((s.breakRuns g.unit).gapTry c b p).release c 64

/-- The connection with a segment `(b, p)` on unit `u`. -/
def State.connOfSeg (s : State) (u : Nat) (b : Int) (p : Nat) : Option Nat :=
  (List.range 16).find? fun c => (s.conn c).segs.any fun g => g.unit == u && g.is b p

/-- Bring ING_SEAM_STAT.SEND_LAG and RET_LEAD up to date (R214). -/
def State.seamStat (s : State) (u : Nat) : State :=
  let x := s.refU u
  let lag := (x.sendQ.map fun q => q.2.length).foldl max 0
  let lead := ((x.rets.flatMap fun q => (List.range 64).map fun e =>
    (q.2.filter fun r => r.cols.any fun k => k.1 == e).length)).foldl max 0
  (s.setFld F.ING_SEAM_STAT_SEND_LAG (min 64 lag) u).setFld F.ING_SEAM_STAT_RET_LEAD (min 64 lead) u

/-- The next line of unit `u`'s reference lane: a line to read again before any other, else the oldest line that has not
entered the chain (R101). -/
def State.chainWork (s : State) (u : Nat) : Option (Nat × SegSt × ResLine × Bool) :=
  (List.range 16).findSome? fun c =>
    let x := s.conn c
    let gs := x.segs.filter fun g => g.unit == u
    match gs.find? fun g => g.reread.isSome with
    | some g => (x.lines.find? fun l => decide (g.reread = some l.id)).map fun l => (c, g, l, true)
    | none => (x.lines.find? fun l => !l.chained && gs.any fun g => g.is l.b l.part).bind fun l =>
        (gs.find? fun g => g.is l.b l.part).map fun g => (c, g, l, false)

/-- Is the slowest send cursor of a set of unit `u` 64 lines behind (R213). -/
def State.sendFull (s : State) (u : Nat) : Bool := (s.refU u).sendQ.any fun q => decide (64 ≤ q.2.length)

/-- Give a segment the slot of its latch: its crew tasks follow the live set, and FORCE_HS puts it on the hard shoulder
(R95, R100). -/
def State.startSeg (s : State) (u c : Nat) (b : Int) (p i : Nat) : State :=
  let set := s.slotSet u i
  let s := s.modSeg c b p fun g => { g with slot := some i, tasks := crewEntries set u }
  if setFldIn set F.REF_CTRL_FORCE_HS u = 1 then
    (s.hardShoulder c b p 5).modSeg c b p fun g => { g with tasks := [] }
  else s

/-- The line to read again after line `id` of a segment. -/
def State.nextAgain (s : State) (c id : Nat) (g : SegSt) : Option Nat :=
  ((s.conn c).lines.find? fun l => decide (id < l.id) && g.is l.b l.part && l.chained).map (·.id)

/-- A line of unit `u` leaves the reservoir into the chain (R75, R95). The lane waits while it waits for a live slot, while a
send cursor trails by 64 lines, and while no slot is free for the latch. -/
def State.chainStep (s : State) (u : Nat) : State :=
  if s.flag F.REF_SETS_WAITING u then s else
  match s.chainWork u with
  | none => s
  | some (c, g, l, again) =>
    if again then
      let i := g.slot.getD (s.refU u).cur
      let s := s.chainLine u c l i true
      let s := s.modSeg c g.b g.part fun x => { x with reread := s.nextAgain c l.id g }
      (((s.flushIfDone c g.b g.part (decide (s.fld F.ING_CONN_CFG_UNIT c ≠ u))).release c 64).refSets u).seamStat u
    else if s.sendFull u then
      (s.setFld F.ING_SEAM_STAT_SEND_WAITED 1 u).setRef u { s.refU u with sendWait := true }
    else
      let r : State × Option Nat := match g.slot with
        | some i => (s, some i)
        | none =>
          let q : State × Option Nat := if (s.refU u).curB = some g.b then (s, some (s.refU u).cur) else s.latchSet u g.b
          match q.2 with
          | some i => (q.1.startSeg u c g.b g.part i, some i)
          | none => q
      match r.2 with
      | none => r.1
      | some i =>
        let s := r.1.chainLine u c l i false
        ((s.flushIfDone c g.b g.part (decide (s.fld F.ING_CONN_CFG_UNIT c ≠ u))).refSets u).seamStat u

end Sys2Proof.Machine
end

