-- ==== Sys2Proof/Machine/Abort.lean ====
section
/-! DEFINITION. Task aborts (R248 to R251): halting participants (R141), stopping their slots, entries and catalogue requests
(R271), the hard shoulder; and the exceptions of a tile (R117, R327). -/
namespace Sys2Proof.Machine

/-- The crew whose task has tile `t` as a participant: unit and stripe entry. -/
def State.taskOf (s : State) (t : Nat) : Option (Nat × Nat) :=
  (s.crews.find? fun q => match q.2.task with | some k => k.parts.contains t | none => false).map
    fun q => (q.1 / 64, q.1 % 64)

/-- A tile enters HALTED (R117, R141): the first cause is kept, with its banks and word, until it is cleared. -/
def State.haltTile (s : State) (t cause banks : Nat) : State :=
  let s := if s.fld F.TILE_EXC_CAUSE t = 0 then
      ((s.setFld F.TILE_EXC_CAUSE cause t).setFld F.TILE_EXC_BANKS banks t).setFld F.TILE_EXC_PC_PC (s.tile t).pc t
    else s
  s.setTState t tHalted

/-- An operation in flight stops at its next beat (R141): a write has written some first part of its range, which the spec
leaves to the moment of the stop; an operation whose data has not been sent sends nothing. -/
def State.stopEntry (s : State) (t : Nat) (x : SbEntry) : State :=
  match x.op with
  | .write ws => (s.writeWs t x.lb x.addr (ws.take (s.free % (ws.length + 1)))).useFree
  | _ => s

/-- Every operation in flight of a tile stops and its entry retires (R141). -/
def State.stopAsync (s : State) (t : Nat) : State :=
  (s.sbList t).foldl (fun s q => (s.stopEntry t q.2).sbPut t q.1 none) s

/-- A slot of an aborted task stops (R250 steps 2 and 4): announced data is discarded, and reads outstanding will be. -/
def State.abortSlot (s : State) (k z : Nat) : State :=
  let x := s.slot k z
  (s.setSlot k z { x with o := 0, data := [] }).setFld F.STR_SLOT_STAT_STATE 4 k z

/-- Bring CAT_STAT up to date. -/
def State.catStat (s : State) : State :=
  ((s.setFld F.CAT_STAT_TASKQ s.catTask.length).setFld F.CAT_STAT_HOSTQ s.catHost.length).setFld
    F.CAT_STAT_INFLIGHT s.catRun.length

/-- Cancel the catalogue requests of a tile's task (R271). -/
def State.catCancel (s : State) (t : Nat) : State :=
  let mine := s.catRun.filter fun q => decide (q.tile = some t)
  let s : State := { s with catTask := s.catTask.filter fun q => !decide (q.tile = some t)
                            catRun := s.catRun.filter fun q => !decide (q.tile = some t) }
  let s := mine.foldl (fun s q =>
    s.hbmWrite (bitsOf q.desc 128 64) (leBytes (putBits q.head 0 8 1) 64) false) s
  (s.addSat F.CAT_ERRCNT_CANCELLED mine.length).catStat

/-- One participant of an aborted task (R250 steps 2 to 6): it halts with CAUSE 0x05 if it runs, its operations stop, its
slots and waits end, and its soft reset starts. -/
def State.abortTile (s : State) (t : Nat) : State :=
  let c := s.tState t
  let s := if c = tRun ∨ c = tWait then s.haltTile t 5 0 else s
  let s := (s.stopAsync t).catCancel t
  let s := (s.tile t).slots.foldl (fun s z => s.abortSlot (z / 256) (z % 256)) s
  let s : State := { s with waiters := s.waiters.filter fun w => decide (w.by_ ≠ .tile t) }
  if c = tRetired then s else s.modTile t fun x => { x with resetting := true }

/-- The crew of stripe entry `e` of unit `u` has its task of a segment aborted, and its next task starts a new run. -/
def State.abortCrew (s : State) (u e : Nat) (b : Int) (p : Nat) : State :=
  match (s.crew u e).task with
  | some k =>
    if k.b = b ∧ k.part = p ∧ !k.aborted then
      k.parts.foldl (fun s t => s.abortTile t)
        (s.setCrew u e { s.crew u e with brk := true, task := some { k with aborted := true } })
    else s
  | none => s

/-- Every task of a segment on unit `u` is aborted and the segment goes to the hard shoulder (R248, R100); `reason` is the
REASON of its gap finding (R546). -/
def State.segAbort (s : State) (u : Nat) (b : Int) (p reason : Nat) : State :=
  let s := (List.range 64).foldl (fun s e => s.abortCrew u e b p) s
  match s.connOfSeg u b p with
  | some c => ((s.modSeg c b p fun g => { g with tasks := [] }).hardShoulder c b p reason).seamStat u
  | none => s

/-- The task that tile `t` takes part in is aborted in the scope of R248. -/
def State.abortTaskOf (s : State) (t : Nat) : State :=
  match s.taskOf t with
  | some (u, e) => match (s.crew u e).task with
    | some k => s.segAbort u k.b k.part 1
    | none => s
  | none => s

/-- A route exception (R117, R327): the word is not executed, the tile halts, the MC is told, the task is aborted. -/
def State.tileFault (s : State) (t cause banks : Nat) : State :=
  ((s.haltTile t cause banks).tell (.tileHalt t cause)).abortTaskOf t

/-- Every participant of an aborted task is in IDLE again, or has been retired. -/
def State.abortDone (s : State) (k : CrewTask) : Bool :=
  k.aborted && k.parts.all fun t => !(s.tile t).resetting

/-- Step 7 of R250 for the crews whose aborted participants have all been reset: FAULT_TASK_ABORT is reported, and the crew
is free for its next task. -/
def State.abortReport (s : State) : State :=
  s.crews.foldl (fun s q => match q.2.task with
    | some k =>
      if s.abortDone k then
        (s.setCrew (q.1 / 64) (q.1 % 64) { q.2 with task := none }).tell
          (.taskAbort (q.1 / 64) (q.1 % 64) (segNum k.b k.part))
      else s
    | none => s) s

end Sys2Proof.Machine
end

