-- ==== Sys2Proof/Machine/Operands.lean ====
section
/-! DEFINITION. Route-word operands (R304, R307 to R323): bit fields, effective addresses, configuration sets (R312), and the
input vectors and weights that an operator word names (R170 to R178, R186, R187, R315). -/
namespace Sys2Proof.Machine

/-- Bits `[hi:lo]` of a route word. -/
def wf (w hi lo : Nat) : Nat := bitsOf w lo (hi - lo + 1)

/-- A 20-bit operand field (R304): offset, register, space. -/
structure Opnd where
  off : Nat
  reg : Nat
  lb : Bool
  deriving DecidableEq, Repr

/-- The operand at bit `lo` of a route word (R304). -/
def opnd (w lo : Nat) : Opnd := ⟨bitsOf w lo 14, bitsOf w (lo + 14) 4, bitsOf w (lo + 18) 1 == 1⟩

/-- The effective word address of an operand (R304). -/
def State.ea (s : State) (t : Nat) (o : Opnd) : Nat := (s.gReg t o.reg + o.off) % 2 ^ 32

/-- An operator configuration set (R312). -/
structure Geo where
  kh : Nat
  kw : Nat
  sv : Nat
  sh : Nat
  dv : Nat
  dh : Nat
  pt : Nat
  pb : Nat
  pl : Nat
  pr : Nat
  padMode : Nat
  ups : Nat
  padConst : Nat
  opk : Nat
  avgPad : Bool
  shift : Nat
  zp : Nat
  samp : Nat
  cin : Nat
  cout : Nat
  gr : Nat
  win : Nat
  mode : Nat
  afp8 : Nat
  wfp8 : Nat
  sa : Nat
  qm : Nat
  scaleQ : Nat
  out : Fmt
  stoch : Bool
  nvdyn : Bool
  lut : Nat
  bias : Bool
  relu : Bool
  db : Nat
  asoff : Nat
  deriving DecidableEq, Repr

/-- Bits `[hi:lo]` of the CFG word that wrote a part; zeros where none did (R312). -/
def State.cfgF (s : State) (t set part hi lo : Nat) : Nat :=
  bitsOf (mapGet 0 (s.tile t).cfg (4 * set + part)).toNat (lo - 32) (hi - lo + 1)

/-- The configuration set `set` of tile `t` (R312). -/
def State.geo (s : State) (t set : Nat) : Geo :=
  let sh := s.cfgF t set 0
  let ch := s.cfgF t set 1
  let qu := s.cfgF t set 2
  let bu := s.cfgF t set 3
  { kh := sh 35 32 + 1, kw := sh 39 36 + 1, sv := sh 42 40 + 1, sh := sh 45 43 + 1, dv := sh 47 46 + 1,
    dh := sh 49 48 + 1, pt := sh 52 50, pb := sh 55 53, pl := sh 58 56, pr := sh 61 59, padMode := sh 63 62,
    ups := 2 ^ sh 65 64, padConst := sh 81 66, opk := sh 84 82, avgPad := sh 85 85 == 1, shift := sh 89 86,
    zp := sh 105 90, samp := sh 107 106,
    cin := ch 43 32 + 1, cout := ch 55 44 + 1, gr := ch 67 56 + 1, win := ch 79 68 + 1, mode := ch 82 80,
    afp8 := ch 83 83, wfp8 := ch 84 84, sa := ch 111 96,
    qm := qu 63 32, scaleQ := qu 79 64, out := fmtOf (qu 82 80), stoch := qu 83 83 == 0, nvdyn := qu 84 84 == 1,
    lut := qu 86 85, bias := qu 87 87 == 1, relu := qu 88 88 == 1,
    db := bu 37 32, asoff := bu 51 38 }

/-- The array mode of a set (R312). -/
def Geo.mmode (g : Geo) : MMode :=
  match g.mode with
  | 0 => .int8 | 1 => .int4 | 2 => .fp8 | 3 => .nv4nv4 | 4 => .nv4int8 | _ => .bf16

/-- The activation format of a set. -/
def Geo.afmt (g : Geo) : Fmt :=
  match g.mmode with
  | .fp8 => if g.afp8 = 1 then .e5m2 else .e4m3
  | .nv4nv4 => .nv4
  | .bf16 => .bf16
  | _ => .int8

/-- The weight format of a set. -/
def Geo.wfmt (g : Geo) : Fmt :=
  match g.mmode with
  | .fp8 => if g.wfp8 = 1 then .e5m2 else .e4m3
  | .nv4nv4 => .nv4
  | .nv4int8 => .nv4
  | .int4 => .int4
  | .bf16 => .bf16
  | .int8 => .int8

/-- Elements of a vector: 32 for NV4 codes, 16 otherwise (R170). -/
def Geo.lanes (g : Geo) : Nat := if g.mmode = .nv4nv4 then 32 else 16
/-- Words of an input vector (R170). -/
def Geo.vw (g : Geo) : Nat := if g.mmode = .bf16 then 2 else 1
/-- Input channel groups of the whole tensor. -/
def Geo.gIn (g : Geo) : Nat := (g.cin + g.lanes - 1) / g.lanes
/-- Output groups of sixteen channels. -/
def Geo.gOut (g : Geo) : Nat := (g.cout + 15) / 16
/-- Does the set name a block-diagonal grouped shape (R183). -/
def Geo.blockDiag (g : Geo) : Bool := decide (g.gr > 1) && [1, 2, 4, 8].contains (g.cin / g.gr)
/-- Input groups that one output group sums over (R183, R198). -/
def Geo.gi (g : Geo) : Nat :=
  if g.blockDiag then 1 else if g.gr > 1 then g.cin / g.gr / g.lanes else g.gIn
/-- The first input group of output group `og` (R183). -/
def Geo.giBase (g : Geo) (og : Nat) : Nat :=
  if g.blockDiag then og else if g.gr > 1 then og / (g.cout / g.gr / 16) * g.gi else 0
/-- The input width that the operator sees (R191). -/
def Geo.wEff (g : Geo) : Nat := g.ups * g.win
/-- Output positions of a row (R176). -/
def Geo.wOut (g : Geo) : Nat := (g.wEff + g.pl + g.pr - (g.kw - 1) * g.dh - 1) / g.sh + 1
/-- Words of a weight tile (R315). -/
def Geo.tw (g : Geo) : Nat :=
  match g.mmode with
  | .int4 => 8 | .nv4int8 => 8 | .bf16 => 32 | _ => 16

/-- Where an operator word's input lies: a first ring, or a scratchpad word (R315). -/
structure InSrc where
  ring : Bool
  base : Nat
  deriving DecidableEq, Repr

/-- The input of an operator word (R314, R315). -/
def State.inSrc (s : State) (t w : Nat) : InSrc :=
  let o := opnd w 16
  if o.lb then ⟨true, o.off % 4⟩ else ⟨false, s.ea t o⟩

/-- The real position of a coordinate, or none where it is pad; replicate padding clamps (R178). `last` is the last real
coordinate, none where there is no end yet. -/
def padPos (replicate : Bool) (x : Int) (last : Option Nat) : Option Nat :=
  let beyond := match last with
    | some l => decide (x > (l : Int))
    | none => false
  if x < 0 then (if replicate then some 0 else none)
  else if beyond then (if replicate then last else none)
  else some x.toNat

/-- The last real input row: G4, or none when it is all ones (R315). -/
def State.lastRow (s : State) (t : Nat) : Option Nat :=
  if s.gReg t 4 = 0xFFFFFFFF then none else some (s.gReg t 4)

/-- Words of the stored vector at row `n`, column `x` of group `grp` (R170, R315). -/
def State.vecAddr (s : State) (t : Nat) (g : Geo) (src : InSrc) (grp n x : Nat) : Bool × Nat :=
  let n' := n / g.ups
  let x' := x / g.ups
  if src.ring then (true, (s.ringOf t (src.base + grp)).rowWord n' + x' * g.vw)
  else (false, src.base + (n' % g.db * g.gIn + grp) * g.win * g.vw + x' * g.vw)

/-- The word and the bit of the NV4 scale of that vector (R171, R315). -/
def State.scaleAddr (s : State) (t : Nat) (g : Geo) (src : InSrc) (grp n x : Nat) : Bool × Nat × Nat :=
  let n' := n / g.ups
  let x' := x / g.ups
  if src.ring then (true, (s.ringOf t (src.base + g.gIn + grp)).rowWord n' + x' / 8, 16 * (x' % 8))
  else (false, src.base + (n' % g.db * g.gIn + grp) * g.win * g.vw + g.asoff + x' / 8, 16 * (x' % 8))

/-- The pad vector of a set with its NV4 scale (R178). -/
def Geo.padVec (g : Geo) : List El × El :=
  let code := if g.padMode = 1 then bitsOf g.padConst 0 (fmtBits g.afmt) else 0
  (List.replicate g.lanes ⟨decVal g.afmt code, g.afmt == .nv4 && code == 8⟩, ⟨.fp (decF 7 0x3F80), false⟩)

/-- The input vector at (possibly outside) row `n`, column `x`: elements and NV4 group scale (R177, R178). -/
def State.inVec (s : State) (t : Nat) (g : Geo) (src : InSrc) (grp : Nat) (n x : Int) : List El × El :=
  match padPos (g.padMode == 2) n (s.lastRow t), padPos (g.padMode == 2) x (some (g.wEff - 1)) with
  | some n, some x =>
    let a := s.vecAddr t g src grp n x
    let es := elemsFrom g.afmt (s.readWs t a.1 a.2 g.vw) 0 g.lanes
    if g.mmode = .nv4nv4 then
      let c := s.scaleAddr t g src grp n x
      let w := s.readW t c.1 c.2.1
      (es, ⟨.fp (decF 7 (bitsOf w.v.toNat c.2.2 16)), w.p⟩)
    else (es, ⟨.fp (decF 7 g.sa), false⟩)
  | _, _ => (g.padVec.1, if g.mmode = .nv4nv4 then g.padVec.2 else ⟨.fp (decF 7 g.sa), false⟩)

/-- Sample `c` of pixel `x` of ring row `n` as a slip operand (R186, R187), poisoned with its word. -/
def State.slipSample (s : State) (t : Nat) (g : Geo) (ring c : Nat) (n x : Int) : El :=
  let b := if g.samp = 2 then 2 else 1
  let conv (v : Nat) : Int := if g.samp = 1 then sext v 8 else (v % 2 ^ (8 * b) : Nat)
  let fin (v : Int) : Int := v / (2 ^ g.shift : Nat) - g.zp
  match padPos (g.padMode == 2) n (s.lastRow t), padPos (g.padMode == 2) x (some (g.win - 1)) with
  | some n, some x =>
    let byte := b * (g.cin * x + c)
    let w := s.readW t true ((s.ringOf t ring).rowWord n + byte / 16)
    ⟨.int (fin (conv (bitsOf w.v.toNat (8 * (byte % 16)) (8 * b)))), w.p⟩
  | _, _ => if g.padMode = 1 then ⟨.int (fin (conv g.padConst)), false⟩ else ⟨.int 0, false⟩

/-- The weights of output lane `o` in a weight tile's words (R174). -/
def Geo.wLane (g : Geo) (ws : List Cell16) (o : Nat) : List El := elemsFrom g.wfmt ws (g.lanes * o) g.lanes

end Sys2Proof.Machine
end

