-- ==== Sys2Proof/Machine/Operators.lean ====
section
/-! DEFINITION. What the compute words leave in the accumulator file and in storage: convolution and matrix product (R177,
R179, R184, R315), slip convolution (R187), pooling (R189, R190), drains (R316), element-wise words and requantise (R317). -/
namespace Sys2Proof.Machine

/-- Add a term into entry `i`, or write it in place of the sum in a load sweep (R153, R181); poison stays (R156). -/
def State.accTerm (s : State) (t : Nat) (isInt load : Bool) (i : Nat) (e : El) : State :=
  let a := if load then acc0 else s.accGet t i
  s.accPut t i ⟨BitVec.ofNat 32 (accAdd isInt a.v.toNat e.v), a.p || e.p⟩

/-- One output lane of one position. -/
def State.sweepLane (s : State) (t : Nat) (g : Geo) (ws scs : List Cell16) (load : Bool) (vec : List El × El)
    (x o : Nat) : State :=
  let sw := (elemsFrom .bf16 scs o 1).headD ⟨.fp .zero, false⟩
  s.accTerm t g.mmode.isInt load (16 * x + o) (term g.mmode (vec.1.zip (g.wLane ws o)) vec.2 sw)

/-- A sweep of one weight tile over the positions of a row (R179): tap (ky, kx) of input group `grp`. -/
def State.sweep (s : State) (t : Nat) (g : Geo) (src : InSrc) (ws scs : List Cell16) (load : Bool) (grp : Nat)
    (row : Int) (col : Int) : State :=
  (List.range g.wOut).foldl (fun s (x : Nat) =>
    let vec := s.inVec t g src grp row ((x * g.sh : Nat) + col)
    (List.range 16).foldl (fun s o => s.sweepLane t g ws scs load vec x o) s) s

/-- The fields that the compute words share (R314), as one record. -/
structure OpWord where
  src : InSrc
  w : Nat
  wlb : Bool
  o : Nat
  olb : Bool
  aux : Nat
  auxlb : Bool
  row : Nat
  set : Nat
  roff : Nat
  coff : Nat
  clr : Bool
  drain : Bool
  ldsw : Bool
  pass : Nat
  deriving DecidableEq, Repr

/-- The operands of a CONV, MAT, SLIP or POOL word (R314). -/
def State.opWord (s : State) (t w : Nat) : OpWord :=
  let ow := opnd w 36; let oo := opnd w 56; let oa := opnd w 76
  { src := s.inSrc t w, w := s.ea t ow, wlb := ow.lb, o := s.ea t oo, olb := oo.lb, aux := s.ea t oa, auxlb := oa.lb,
    row := s.gReg t (wf w 99 96), set := wf w 104 100, roff := wf w 110 105, coff := wf w 116 111,
    clr := wf w 117 117 == 1, drain := wf w 118 118 == 1, ldsw := wf w 119 119 == 1, pass := wf w 123 120 }

/-- The taps of a kernel in issue order (R315). -/
def taps (kh kw : Nat) : List (Nat × Nat) := (List.range kh).flatMap fun ky => (List.range kw).map fun kx => (ky, kx)

/-- Input row of a tap (R315). -/
def tapRow (g : Geo) (p : OpWord) (ky : Nat) : Int := (p.row * g.sv + (ky + p.roff) * g.dv : Nat) - (g.pt : Int)
/-- Input column of a tap less the position's own part (R176, R315). -/
def tapCol (g : Geo) (p : OpWord) (kx : Nat) : Int := ((kx + p.coff) * g.dh : Nat) - (g.pl : Int)

/-- All sweeps of output group `og` in the order ig, ky, kx (R315). -/
def State.groupSweeps (s : State) (t : Nat) (g : Geo) (p : OpWord) (og : Nat) : State :=
  (List.range g.gi).foldl (fun s ig =>
    (taps g.kh g.kw).foldl (fun s k =>
      let ti := ((og * g.gi + ig) * g.kh + k.1) * g.kw + k.2
      let ws := s.readWs t p.wlb (p.w + ti * g.tw) g.tw
      let scs := s.readWs t p.auxlb (p.aux + 4 * g.gOut + 2 * ti) 2
      let load := p.ldsw && decide (0 < og) && decide (ig = 0 ∧ k = (0, 0))
      let s := s.modTile t fun x => { x with wCur := ws, wNext := ws }
      s.sweep t g p.src ws scs load (g.giBase og + ig) (tapRow g p k.1) (tapCol g p k.2)) s) s

/-- An accumulator entry as an element (R108). -/
def accEl (isInt : Bool) (a : AccE) : El :=
  if isInt then ⟨.int (sext a.v.toNat 32), a.p⟩ else ⟨.fp (decF 23 a.v.toNat), a.p⟩

/-- An activation-table lookup (R128, R157): BF16 or INT16 entries; a poisoned index selects entry 0 and poisons. -/
def State.lutGet (s : State) (t : Nat) (int16 : Bool) (code : Nat) (p : Bool) : El :=
  let a := mapGet acc0 (s.tile t).act (if p then 0 else code % 256)
  let q := p || a.p
  if int16 then ⟨.int (sext a.v.toNat 16), q⟩ else ⟨.fp (decF 7 (a.v.toNat % 65536)), q⟩

/-- Requantise a list of elements in order (R164), threading generator and statistics. -/
def requantList (f : Fmt) (stoch : Bool) (qm : Nat) (k : Int) : List El → RqSt → List (Nat × Bool) × RqSt
  | [], st => ([], st)
  | e :: es, st =>
    let (c, st) := requant f stoch qm k e st
    let (cs, st) := requantList f stoch qm k es st
    (c :: cs, st)

/-- Does a format go through the requantiser (R159). -/
def Fmt.narrow : Fmt → Bool
  | .int8 => true | .e4m3 => true | .e5m2 => true | .nv4 => true | _ => false

/-- The words of one drained vector of 16 lanes for a set that is not NV4 (R316 steps 3 and 4). -/
def State.drainWords (s : State) (t : Nat) (g : Geo) (es : List El) (st : RqSt) : List Cell16 × RqSt :=
  if g.out.narrow then
    let (cs, st) := requantList g.out g.stoch g.qm 0 es st
    if g.lut = 1 then (directWords .bf16 (cs.map fun c => s.lutGet t false c.1 c.2), st)
    else if g.lut = 2 then (directWords .int32 (cs.map fun c => s.lutGet t true c.1 c.2), st)
    else (packWords 8 16 cs 1, st)
  else (directWords g.out es, st)

/-- The vector words of what a drain writes (R305, R316). -/
def Geo.outWords (g : Geo) : Nat :=
  if g.out.narrow && g.lut == 1 then 2 else if g.out.narrow && g.lut == 2 then 4 else fmtWords g.out

/-- Write 16 NV4 codes of output group `og` (R316): eight bytes of the pair's word, the scale for even groups, and code 0
in the other half after an odd last group. -/
def State.writeNv4 (s : State) (t : Nat) (g : Geo) (lb : Bool) (base og x : Nat) (cs : List (Nat × Bool)) : State :=
  let (v, p) := packWord 4 cs
  let s := if g.gOut % 2 = 1 ∧ og + 1 = g.gOut then s.writeW t lb (base + x) ⟨BitVec.ofNat 128 v, p⟩
    else s.writeBits t lb (base + x) (64 * (og % 2)) 64 v p
  if og % 2 = 0 then s.writeBits t lb (base + g.asoff + x / 8) (16 * (x % 8)) 16 g.scaleQ false else s

/-- Drain one position of output group `og` (R316). -/
def State.drainPos (s : State) (t : Nat) (g : Geo) (p : OpWord) (isInt : Bool) (og x0 : Nat) (bias : List El)
    (x : Nat) : State :=
  let es := (List.range 16).map fun o =>
    let e := accEl isInt (s.accGet t (16 * x + o))
    let e := if g.bias then euAdd e (bias.getD o e) else e
    if g.relu then relu e else e
  let st : RqSt := ⟨s.gen t, 0, 0, 0, 0⟩
  if g.out = .nv4 then
    let (cs, st) := requantList .nv4 g.stoch g.qm 0 es st
    ((s.writeNv4 t g p.olb (p.o + og / 2 * g.wOut) og (x0 + x) cs).setGen t st.gen).addStats t st
  else
    let (ws, st) := s.drainWords t g es st
    ((s.writeWs t p.olb (p.o + og * (g.wOut * g.outWords) + (x0 + x) * g.outWords) ws).setGen t st.gen).addStats t st

/-- Drain `n` positions of output group `og` (R181, R316). -/
def State.drain (s : State) (t : Nat) (g : Geo) (p : OpWord) (isInt : Bool) (og x0 n : Nat) : State :=
  let bias := elemsFrom (if isInt then .int32 else .fp32) (s.readWs t p.auxlb (p.aux + 4 * og) 4) 0 16
  (List.range n).foldl (fun s x => s.drainPos t g p isInt og x0 bias x) s

/-- Clear the accumulator file and its poison bits. -/
def State.accClear (s : State) (t : Nat) : State := s.modTile t fun x => { x with acc := [] }

/-- CONV and MAT: every output group in order (R177, R184, R315). -/
def State.conv (s : State) (t : Nat) (g : Geo) (p : OpWord) : State :=
  let s := if p.clr then s.accClear t else s
  (List.range g.gOut).foldl (fun s og =>
    let s := s.groupSweeps t g p og
    if p.drain then s.drain t g p g.mmode.isInt og 0 g.wOut else s) s

/-- One slip output: the integer sum of one position and lane (R187). -/
def State.slipSum (s : State) (t : Nat) (g : Geo) (p : OpWord) (x o : Nat) : El :=
  ((taps g.kh g.kw).flatMap fun k => (List.range g.cin).map fun c =>
      (s.slipSample t g p.src.base c (tapRow g p k.1) ((x * g.sh : Nat) + tapCol g p k.2),
        (elemsFrom .int8 [s.readW t p.wlb (p.w + (k.1 * g.kw + k.2) * g.cin + c)] o 1).headD ⟨.int 0, false⟩)).foldl
    (fun e q => ⟨.int ((match e.v with | .int i => i | .fp _ => 0) +
      (match q.1.eff, q.2.eff with | .int a, .int b => a * b | _, _ => 0)), e.p || q.1.p || q.2.p⟩) ⟨.int 0, false⟩

/-- The window register after a slip position: the samples of every tap (R109, R185). -/
def State.slipWindow (s : State) (t : Nat) (g : Geo) (p : OpWord) (x : Nat) : State :=
  (taps g.kh g.kw).foldl (fun s k =>
    let v := (List.range g.cin).foldr (fun c acc =>
      let e := s.slipSample t g p.src.base c (tapRow g p k.1) ((x * g.sh : Nat) + tapCol g p k.2)
      acc * 65536 + (match e.v with | .int i => wrapTo 16 i | .fp _ => 0)) 0
    s.modTile t fun y => { y with window := mapSet 0 y.window (15 * k.1 + k.2) (BitVec.ofNat 128 v) }) s

/-- SLIP: one pass of up to 256 positions (R185 to R187). -/
def State.slip (s : State) (t : Nat) (g : Geo) (p : OpWord) : State :=
  let x0 := 256 * p.pass
  let n := min 256 (g.wOut - x0)
  let s := if p.clr then s.accClear t else s
  let s := (List.range n).foldl (fun s x =>
    (List.range 16).foldl (fun s o => s.accTerm t true false (16 * x + o) (s.slipSum t g p (x0 + x) o)) s) s
  let s := if n = 0 then s else s.slipWindow t g p (x0 + n - 1)
  if p.drain then s.drain t g p true 0 x0 n else s

/-- The elements of a pooling window for channel group `og`, lane `o`; `none` is a pad position (R189, R190). -/
def State.poolWin (s : State) (t : Nat) (g : Geo) (p : OpWord) (og x o : Nat) : List (Bool × El) :=
  (taps g.kh g.kw).map fun k =>
    let n := tapRow g p k.1
    let c := (x * g.sh : Nat) + tapCol g p k.2
    let pad := (padPos false n (s.lastRow t)).isNone || (padPos false c (some (g.wEff - 1))).isNone
    let nv := decide (g.mmode = .nv4nv4)
    let vec := s.inVec t g p.src (if nv then og / 2 else og) n c
    let e := vec.1.getD (if nv then 16 * (og % 2) + o else o) ⟨.int 0, false⟩
    let e := match nv, e.v with
      | true, .int i => (⟨.fp (rne32 (fpMul (.fin i (-11)) (toFp vec.2.eff))), e.p || vec.2.p⟩ : El)
      | _, _ => e
    (pad, e)

/-- The largest element of a window (R189). -/
def maxPool (isInt : Bool) (es : List El) : El :=
  let p := es.any (·.p)
  if isInt then
    match es.map fun e => (match e.eff with | .int i => i | .fp _ => 0) with
    | [] => ⟨.int 0, p⟩
    | i :: is => ⟨.int (is.foldl max i), p⟩
  else
    match es.map fun e => toFp e.eff with
    | [] => ⟨.fp .zero, p⟩
    | f :: fs =>
      if (f :: fs).any (fun y => decide (y = .nan)) then ⟨.fp .nan, p⟩
      else ⟨.fp (fs.foldl (fun a b => if fpLt a b then b else a) f), p⟩

/-- The average of a window (R190): integer sums exactly, others rounded at each addition; then × rne32(1 ÷ n). -/
def avgPool (isInt : Bool) (es : List El) : El :=
  let p := es.any (·.p)
  let a : Fp := if isInt then .fin (es.foldl (fun a e => a + (match e.eff with | .int i => i | .fp _ => 0)) 0) 0
    else es.foldl (fun a e => rne32 (fpAdd a (toFp e.eff))) .zero
  if es.length = 0 then ⟨.fp (decF 23 (Config.avgEmpty % 2 ^ 32)), p⟩
  else ⟨.fp (rne32 (fpMul a (recip es.length))), p⟩

/-- One pooled channel. -/
def State.poolOne (s : State) (t : Nat) (g : Geo) (p : OpWord) (og x o : Nat) : El :=
  let w := s.poolWin t g p og x o
  let isInt := decide (g.afmt = .int8)
  if g.opk = 3 then maxPool isInt ((w.filter fun q => !q.1).map (·.2))
  else avgPool isInt ((if g.avgPad then w else w.filter fun q => !q.1).map (·.2))

/-- POOL: pool and drain every channel group (R188 to R190). -/
def State.pool (s : State) (t : Nat) (g : Geo) (p : OpWord) : State :=
  let isInt := decide (g.afmt = .int8) && g.opk == 3
  (List.range g.gOut).foldl (fun s og =>
    let s := (List.range g.wOut).foldl (fun s x =>
      (List.range 16).foldl (fun s o =>
        let e := s.poolOne t g p og x o
        s.accPut t (16 * x + o) ⟨BitVec.ofNat 32 (directCode (if isInt then .int32 else .fp32) e).1, e.p⟩) s) s
    if p.drain then s.drain t g p isInt og 0 g.wOut else s) s

/-- The sixteen lanes of an element-wise operand at vector `x`: from port A, or from the accumulator file (R317). -/
def State.ewOperand (s : State) (t : Nat) (f : Fmt) (fromAcc : Bool) (lb : Bool) (addr x : Nat) : List El :=
  if fromAcc then (List.range 16).map fun o => accEl (decide (f = .int32)) (s.accGet t (16 * x + o))
  else elemsFrom f (s.readWs t lb (addr + x * fmtWords f) (fmtWords f)) 0 16

/-- Raw codes of an 8-bit operand vector with its mark, the lookup index of FN 2 (R157). -/
def State.ewCodes (s : State) (t : Nat) (lb : Bool) (addr x : Nat) : List (Nat × Bool) :=
  let c := s.readW t lb (addr + x)
  (List.range 16).map fun i => (bitsOf c.v.toNat (8 * i) 8, c.p)

/-- One vector of EW (R192, R317); a reserved FN has no stated result. -/
def State.ewVec (s : State) (t w x : Nat) : State :=
  let oa := opnd w 16; let ob := opnd w 36; let oo := opnd w 56
  let f := 2 ^ wf w 103 102
  let af := fmtOf (wf w 95 93); let bf := fmtOf (wf w 98 96); let out := fmtOf (wf w 101 99)
  let fromAcc := wf w 92 91 == 1
  let a := s.ewOperand t af fromAcc oa.lb (s.ea t oa) (if fromAcc then x else x / f)
  let b := s.ewOperand t bf false ob.lb (s.ea t ob) (x / f)
  let es := match wf w 90 88 with
    | 0 => a.zipWith euAdd b
    | 1 => a.zipWith euMul b
    | 2 => (s.ewCodes t oa.lb (s.ea t oa) (x / f)).map fun c => s.lutGet t (wf w 109 109 == 1) c.1 c.2
    | 3 => a
    | _ => (List.range 16).map fun i => ⟨.fp (decF 23 (Config.freeValue (s.freeCtr + 16 * x + i) % 2 ^ 32)), false⟩
  let g := s.geo t (wf w 108 104)
  let st : RqSt := ⟨s.gen t, 0, 0, 0, 0⟩
  let o := s.ea t oo
  if out = .nv4 then
    let (cs, st) := requantList .nv4 g.stoch g.qm 0 es st
    let (v, p) := packWord 4 cs
    let s := s.writeBits t oo.lb (o + x / 2) (64 * (x % 2)) 64 v p
    let s := if x % 2 = 0 then s.writeBits t oo.lb (o + g.asoff + x / 2 / 8) (16 * (x / 2 % 8)) 16 g.scaleQ false else s
    (s.setGen t st.gen).addStats t st
  else if out.narrow then
    let (cs, st) := requantList out g.stoch g.qm 0 es st
    ((s.writeWs t oo.lb (o + x) (packWords 8 16 cs 1)).setGen t st.gen).addStats t st
  else s.writeWs t oo.lb (o + x * fmtWords out) (directWords out es)

/-- EW: N vectors (R317). -/
def State.ew (s : State) (t w : Nat) : State :=
  let s := (List.range (wf w 87 76 + 1)).foldl (fun s x => s.ewVec t w x) s
  if 3 < wf w 90 88 then { s with freeCtr := s.freeCtr + 16 * (wf w 87 76 + 1) } else s

/-- One position of RQ (R317). -/
def State.rqPos (s : State) (t w x : Nat) : State :=
  let oa := opnd w 16; let oo := opnd w 36
  let hoff := wf w 89 76
  let g := s.geo t (wf w 108 104)
  let af := fmtOf (wf w 124 122)
  let fromAcc := wf w 125 125 == 1
  let rl := fun es : List El => if wf w 109 109 = 1 then es.map relu else es
  let a := rl (s.ewOperand t af fromAcc oa.lb (s.ea t oa) x)
  let st : RqSt := ⟨s.gen t, 0, 0, 0, 0⟩
  let o := s.ea t oo
  if g.out = .nv4 then
    let b := rl (if fromAcc then s.ewOperand t af true oa.lb 0 (x + hoff) else s.ewOperand t af false oa.lb (s.ea t oa + hoff) x)
    let k := if g.nvdyn then groupExp ((a ++ b).map fun e => (scaleQ e.v g.qm, e.p)) else 0
    let (cs, st) := requantList .nv4 g.stoch g.qm k (a ++ b) st
    let (v, p) := packWord 4 cs
    let sc := if g.nvdyn then encF 7 (.fin 1 k) else g.scaleQ
    let s := s.writeW t oo.lb (o + x) ⟨BitVec.ofNat 128 v, p⟩
    ((s.writeBits t oo.lb (o + g.asoff + x / 8) (16 * (x % 8)) 16 sc false).setGen t st.gen).addStats t st
  else if g.out.narrow then
    let (cs, st) := requantList g.out g.stoch g.qm 0 a st
    ((s.writeWs t oo.lb (o + x) (packWords 8 16 cs 1)).setGen t st.gen).addStats t st
  else s.writeWs t oo.lb (o + x * fmtWords g.out) (directWords g.out a)

/-- RQ: N positions (R317). -/
def State.rq (s : State) (t w : Nat) : State := (List.range (wf w 121 110 + 1)).foldl (fun s x => s.rqPos t w x) s

end Sys2Proof.Machine
end

