-- ==== Sys2Proof/Machine/Issue.lean ====
section
/-! DEFINITION. The sequencer of a tile (R300, R301, R308, R324): fetch buffer, loops, and the issue of a route word through its
exceptions, its bank conflict and its waits, in that order. -/
namespace Sys2Proof.Machine

/-- Is group `g` in the fetch buffer (R301). -/
def State.groupHeld (s : State) (t g : Nat) : Bool :=
  match mapGet none (s.tile t).groups (g % 4) with
  | some q => q.1 == g
  | none => false

/-- Fetch group `g` into its position (R301). -/
def State.fetchGroup (s : State) (t g : Nat) : State :=
  let ws := s.readWs t false ((s.tile t).disp.routeBase + 16 * g) 16
  s.modTile t fun x => { x with groups := mapSet none x.groups (g % 4) (some (g, ws)) }

/-- The PC enters a word: its group is fetched where it is not held, and the next one is prefetched at word 16g + 8
(R301). -/
def State.enterPc (s : State) (t pc : Nat) : State :=
  let s := s.modTile t fun x => { x with pc := pc, passed := false }
  let s := if s.groupHeld t (pc / 16) then s else s.fetchGroup t (pc / 16)
  if pc % 16 = 8 ∧ !s.groupHeld t (pc / 16 + 1) then s.fetchGroup t (pc / 16 + 1) else s

/-- The buffered copy of the route word at the PC. -/
def State.curWord (s : State) (t : Nat) : Cell16 :=
  let pc := (s.tile t).pc
  match mapGet none (s.tile t).groups (pc / 16 % 4) with
  | some q => q.2.getD (pc % 16) cell0
  | none => cell0

/-- Word `i` is finished (R308): at the end of the innermost body the next pass begins, or the loop ends and an enclosing
body may end with it; else the PC moves to the next word. -/
def State.afterWord (s : State) (t i : Nat) : List LoopFrame → State
  | [] => (s.modTile t fun x => { x with loops := [] }).enterPc t (i + 1)
  | f :: fs =>
    if f.last = i then
      let s := s.setG t f.cr (f.pass + 1)
      if f.pass + 1 < f.count then
        (s.modTile t fun x => { x with loops := { f with pass := f.pass + 1 } :: fs }).enterPc t f.first
      else s.afterWord t i fs
    else (s.modTile t fun x => { x with loops := f :: fs }).enterPc t (i + 1)

/-- The word at the PC is finished. -/
def State.nextWord (s : State) (t : Nat) : State := s.afterWord t (s.tile t).pc (s.tile t).loops

/-- What a route word names at issue: the accesses of its synchronous and asynchronous operations, its exceptions beside
those of its ranges, the banks of a conflict, the entries it allocates, another
wait, and a milestone with the target that it waits for. -/
structure Named where
  rngs : List Rng
  excs : List Nat
  banks : Nat
  need : Nat
  waits : Bool
  ms : Option (Nat × Nat)
  deriving DecidableEq, Repr

/-- A word that names nothing. -/
def named0 : Named := ⟨[], [], 0, 0, false, none⟩

/-- Does a range fit its space (R304). -/
def Rng.fits (r : Rng) : Bool := decide (r.addr + r.n ≤ spaceWords r.lb)

/-- Is a line-buffer slot inside a configured ring of the tile (CAUSE 0x03). -/
def State.inRing (s : State) (t slot : Nat) : Bool :=
  (List.range 4).any fun k =>
    let r := s.ringOf t k
    r.en && decide (r.base ≤ slot ∧ slot < r.base + r.q * r.d)

/-- Does a range name a line-buffer slot outside every configured ring. -/
def State.outsideRings (s : State) (t : Nat) (r : Rng) : Bool :=
  r.lb && decide (0 < r.n) &&
    (List.range ((r.addr + r.n - 1) / 256 - r.addr / 256 + 1)).any fun i => !s.inRing t (r.addr / 256 + i)

/-- Does a write go into the route image of the running task (R325). -/
def State.intoRoute (s : State) (t : Nat) (r : Rng) : Bool :=
  let d := (s.tile t).disp
  r.write && !r.lb && decide (r.addr < d.routeBase + d.lenM1 + 1 ∧ d.routeBase < r.addr + r.n)

/-- The exceptions of a word's ranges (R304, R325, CAUSE 0x03). -/
def State.rngExcs (s : State) (t : Nat) (rs : List Rng) : List Nat :=
  (if rs.all Rng.fits then [] else [0x02]) ++
  (if rs.any fun r => r.fits && s.outsideRings t r then [0x03] else []) ++
  (if rs.any fun r => s.intoRoute t r then [0x13] else [])

/-- The lowest of a list of causes (R327). -/
def lowest : List Nat → Option Nat
  | [] => none
  | c :: cs => match lowest cs with
    | none => some c
    | some d => some (min c d)

/-- Must the word wait under R125: for the entries its ranges overlap, or for free entries. -/
def State.sbWait (s : State) (t : Nat) (n : Named) : Bool :=
  (n.rngs.any fun r => (s.sbList t).any fun q => r.blocked q.2) || decide ((s.sbFree t 0 16).length < n.need)

/-- Does tile `t` issue words: in RUN or WAIT, not in reset. -/
def State.issuing (s : State) (t : Nat) : Bool :=
  (s.tState t == tRun || s.tState t == tWait) && !(s.tile t).resetting

/-- Does the word still wait for its milestone (R321, R323): not once its waiter has been released. -/
def State.msWaits (s : State) (t : Nat) (n : Named) : Bool :=
  match n.ms with
  | some (m, x) => !(s.tile t).passed && !s.msReached m x
  | none => false

/-- The tile waits for a milestone (R277, R321, R323). -/
def State.awaitMs (s : State) (t : Nat) (n : Named) : State :=
  match n.ms with
  | some (m, x) =>
    let ws := s.waiters.filter fun w => decide (w.by_ ≠ .tile t)
    ({ s with waiters := ws ++ [⟨.tile t, m, x⟩] } : State).setTState t tWait
  | none => s

/-- The issue of the word at the PC of tile `t`, when it has opcode `op` (R324): exceptions first, then the bank conflict
(R117), then the waits; a word that waits changes nothing, and the tile is in WAIT. A poisoned word waits and is reported
(R410). -/
def State.issueWord (s : State) (t op : Nat) (names : State → Nat → Named) (effect : State → Nat → State) : State :=
  let c := s.curWord t
  let w := c.v.toNat
  if !s.issuing t then s
  else if c.p then
    if s.tState t = tWait then s else (s.setTState t tWait).tell (.note 1 t)
  else if wf w 7 0 ≠ op then s
  else
    let n := names s w
    match lowest (s.rngExcs t n.rngs ++ n.excs) with
    | some cause => s.tileFault t cause 0
    | none =>
      if n.banks ≠ 0 then (s.inc F.TILE_ERRCNT_CONFLICTS t).tileFault t 1 n.banks
      else if n.waits || s.sbWait t n then s.setTState t tWait
      else if s.msWaits t n then s.awaitMs t n
      else effect (s.setTState t tRun) w

/-- A word whose effect ends with the PC at the next word. -/
def State.issueNext (s : State) (t op : Nat) (names : State → Nat → Named) (effect : State → Nat → State) : State :=
  s.issueWord t op names fun s w => (effect s w).nextWord t

/-- Are all sixteen words of a table load still awaited: a lookup waits for it (R128). -/
def State.tblPending (s : State) (t : Nat) : Bool :=
  (s.sbList t).any fun q => match q.2.op with | .table _ => true | _ => false

/-- An address aligned as R174 asks. -/
def misaligned (a n : Nat) : List Nat := if a % n = 0 then [] else [0x17]

/-- The last real coordinate that padding keeps: the rows of the input that output row `p.row` reads (R315). -/
def State.inRows (s : State) (t : Nat) (g : Geo) (p : OpWord) : List Nat :=
  ((List.range g.kh).filterMap fun ky => padPos (g.padMode == 2) (tapRow g p ky) (s.lastRow t)).map (· / g.ups)

/-- The planes of the input: groups, then NV4 scale planes (R315). -/
def Geo.planes (g : Geo) : Nat := if g.opk = 2 then 1 else if g.mmode = .nv4nv4 then 2 * g.gIn else g.gIn

/-- The ranges read from the input of a compute word. -/
def State.inRngs (s : State) (t : Nat) (g : Geo) (p : OpWord) : List Rng :=
  let rows := (s.inRows t g p).dedup
  let bytes := if g.opk = 2 then g.win * g.cin * (if g.samp = 2 then 2 else 1) else g.win * g.vw * 16
  let n := (bytes + 15) / 16
  if p.src.ring then
    rows.flatMap fun r => (List.range g.planes).map fun k => ⟨false, true, (s.ringOf t (p.src.base + k)).rowWord r, n⟩
  else
    rows.flatMap fun r => (List.range g.gIn).flatMap fun k =>
      let a := p.src.base + (r % g.db * g.gIn + k) * g.win * g.vw
      ⟨false, false, a, n⟩ :: (if g.mmode = .nv4nv4 then [⟨false, false, a + g.asoff, (g.win + 7) / 8⟩] else [])

/-- Does the word name a ring that is not configured (CAUSE 0x03), or a row that has left its ring (CAUSE 0x18). -/
def State.ringExcs (s : State) (t : Nat) (g : Geo) (p : OpWord) : List Nat :=
  if p.src.ring then
    let ks := (List.range g.planes).map fun k => s.ringOf t (p.src.base + k)
    (if ks.all (·.en) then [] else [0x03]) ++
    (if ks.any fun r => (s.inRows t g p).any fun n => r.stale n then [0x18] else [])
  else []

/-- Does a row that the word reads still have to be written (R313). -/
def State.ringWait (s : State) (t : Nat) (g : Geo) (p : OpWord) : Bool :=
  p.src.ring && (List.range g.planes).any fun k => (s.inRows t g p).any fun n => !(s.ringOf t (p.src.base + k)).has n

/-- Positions that a compute word drains: first and count. -/
def Geo.drainSpan (g : Geo) (p : OpWord) : Nat × Nat :=
  if g.opk = 2 then (256 * p.pass, min 256 (g.wOut - 256 * p.pass)) else (0, g.wOut)

/-- The ranges that a drain writes and its bias vectors (R316). -/
def Geo.drainRngs (g : Geo) (p : OpWord) : List Rng :=
  let sp := g.drainSpan p
  if !p.drain then [] else
  (if g.bias then [⟨false, p.auxlb, p.aux, 4 * g.gOut⟩] else []) ++
  (if g.out = .nv4 then
    let h := (g.gOut + 1) / 2
    (List.range h).flatMap fun i =>
      [⟨true, p.olb, p.o + i * g.wOut + sp.1, sp.2⟩,
       ⟨true, p.olb, p.o + i * g.wOut + g.asoff + sp.1 / 8, (sp.1 + sp.2 + 7) / 8 - sp.1 / 8⟩]
  else (List.range g.gOut).map fun og => ⟨true, p.olb, p.o + og * (g.wOut * g.outWords) + sp.1 * g.outWords, sp.2 * g.outWords⟩)

/-- The weights and weight scales that a word reads, with their alignment (R174, R315). -/
def Geo.weightRngs (g : Geo) (p : OpWord) : List Rng × List Nat :=
  if g.opk = 2 then ([⟨false, p.wlb, p.w, g.kh * g.kw * g.cin⟩], [])
  else
    let tiles := g.gOut * g.gi * g.kh * g.kw
    let al := misaligned p.w (if g.tw = 8 then 8 else 16)
    if g.mmode = .nv4nv4 ∨ g.mmode = .nv4int8 then
      ([⟨false, p.wlb, p.w, tiles * g.tw⟩, ⟨false, p.auxlb, p.aux + 4 * g.gOut, 2 * tiles⟩], al ++ misaligned (p.aux + 4 * g.gOut) 2)
    else ([⟨false, p.wlb, p.w, tiles * g.tw⟩], al)

/-- What CONV, MAT and SLIP name. -/
def State.sweepNamed (s : State) (t w : Nat) : Named :=
  let p := s.opWord t w
  let g := s.geo t p.set
  let ws := g.weightRngs p
  { named0 with
    rngs := s.inRngs t g p ++ ws.1 ++ g.drainRngs p, excs := ws.2 ++ s.ringExcs t g p,
    waits := s.ringWait t g p || (p.drain && g.lut != 0 && s.tblPending t) }

/-- What POOL names. -/
def State.poolNamed (s : State) (t w : Nat) : Named :=
  let p := s.opWord t w
  let g := s.geo t p.set
  { named0 with
    rngs := s.inRngs t g p ++ g.drainRngs p, excs := s.ringExcs t g p,
    waits := s.ringWait t g p || (p.drain && g.lut != 0 && s.tblPending t) }

/-- The banks of two scratchpad accesses of one cycle (R117): those where they read different words. -/
def clash (as bs : List Nat) : List Nat := as.flatMap fun a => (bs.filter fun b => a != b && spBank a == spBank b).map spBank

/-- A bank set as the BANKS bitmap. -/
def bankBits (l : List Nat) : Nat := (List.range 16).foldl (fun n b => if l.contains b then n + 2 ^ b else n) 0

/-- What EW names: its vectors' ranges, and the banks where its two operands meet in a cycle (R117, R317). -/
def State.ewNamed (s : State) (t w : Nat) : Named :=
  let oa := opnd w 16; let ob := opnd w 36; let oo := opnd w 56
  let n := wf w 87 76 + 1
  let f := 2 ^ wf w 103 102
  let fn := wf w 90 88
  let af := fmtOf (wf w 95 93); let bf := fmtOf (wf w 98 96); let out := fmtOf (wf w 101 99)
  let useA := wf w 92 91 == 0
  let useB := decide (fn ≤ 1)
  let va := if fn = 2 then 1 else fmtWords af
  let m := (n + f - 1) / f
  let g := s.geo t (wf w 108 104)
  let a := s.ea t oa; let b := s.ea t ob; let o := s.ea t oo
  let reads := (if useA then [⟨false, oa.lb, a, m * va⟩] else []) ++ (if useB then [⟨false, ob.lb, b, m * fmtWords bf⟩] else [])
  let writes : List Rng := if out = .nv4 then [⟨true, oo.lb, o, (n + 1) / 2⟩, ⟨true, oo.lb, o + g.asoff, ((n + 1) / 2 + 7) / 8⟩]
    else [⟨true, oo.lb, o, n * (if out.narrow then 1 else fmtWords out)⟩]
  let both := useA && useB && !oa.lb && !ob.lb
  { named0 with
    rngs := reads ++ writes, waits := fn == 2 && s.tblPending t,
    banks := if both then bankBits ((List.range m).flatMap fun x =>
      clash ((List.range va).map fun i => a + x * va + i) ((List.range (fmtWords bf)).map fun i => b + x * fmtWords bf + i)) else 0 }

/-- What RQ names (R317). -/
def State.rqNamed (s : State) (t w : Nat) : Named :=
  let oa := opnd w 16; let oo := opnd w 36
  let n := wf w 121 110 + 1
  let g := s.geo t (wf w 108 104)
  let v := fmtWords (fmtOf (wf w 124 122))
  let a := s.ea t oa; let o := s.ea t oo
  let reads : List Rng := if wf w 125 125 = 1 then [] else
    ⟨false, oa.lb, a, n * v⟩ :: (if g.out = .nv4 then [⟨false, oa.lb, a + wf w 89 76, n * v⟩] else [])
  let writes : List Rng := if g.out = .nv4 then [⟨true, oo.lb, o, n⟩, ⟨true, oo.lb, o + g.asoff, (n + 7) / 8⟩]
    else [⟨true, oo.lb, o, n * fmtWords g.out⟩]
  { named0 with rngs := reads ++ writes }

end Sys2Proof.Machine
end

