-- ==== Sys2Proof/Machine/Route.lean ====
section
/-! DEFINITION. The route words (R306): one meaning each. The operand of a command is the tile; the word is the one at its PC. -/
namespace Sys2Proof.Machine

/-- NOP does nothing (R306). -/
def execRouteNop (dt : Nat) (t : Fin 1088) (s : State) : Answer :=
  .next ((s.tick dt).issueNext t 0x00 (fun _ _ => named0) fun s _ => s)

/-- The totals of a participant are added to the crew registers of member 0 (R167). -/
def State.crewStats (s : State) (t m0 : Nat) : State :=
  (((s.addSat F.TILE_CREW_SQ_SQ (s.fld F.TILE_MSE_SQ_SQ t) m0).addSat
    F.TILE_CREW_SQ_POISONED (s.fld F.TILE_MSE_SQ_POISONED t) m0).addSat
    F.TILE_CREW_CNT_CNT (s.fld F.TILE_MSE_CNT_CNT t) m0).addSat F.TILE_CREW_CNT_SAT (s.fld F.TILE_MSE_CNT_SAT t) m0

/-- Member 0 of a crew, from a participant that is no detour. -/
def State.member0 (s : State) (parts : List Nat) : Nat :=
  match parts.find? fun t => s.fld F.TILE_RB_CFG_DETOURED t == 0 with
  | some t => t - s.fld F.TILE_RB_CFG_MEMBER t
  | none => parts.headD 0

/-- HOLDING of the dispatch holds on a crew that is between tasks (R417). -/
def State.holdRefresh (s : State) : State :=
  (List.range 4).foldl (fun s h =>
    let u := s.fld F.RAS_HOLD_UNIT h; let e := s.fld F.RAS_HOLD_ENTRY h
    s.setFld F.RAS_HOLD_HOLDING (if s.flag F.RAS_HOLD_EN h && (s.crew u e).task.isNone then 1 else 0) h) s

/-- A participant has completed its part; with the last one the task ends (R209): the statistics are summed, and the segment
loses a task that its release waits for. -/
def State.partDone (s : State) (t : Nat) : State :=
  match s.taskOf t with
  | none => s
  | some (u, e) =>
    match (s.crew u e).task with
    | none => s
    | some k =>
      let done := (k.done.filter (· != t)) ++ [t]
      if k.parts.all fun x => done.contains x then
        let m0 := s.member0 k.parts
        let s := k.parts.foldl (fun s x => s.crewStats x m0) s
        let s := s.setCrew u e { s.crew u e with task := none }
        let s := match s.connOfSeg u k.b k.part with
          | some c => ((s.modSeg c k.b k.part fun g => { g with tasks := g.tasks.filter (· != e) }).release c 64).refSets u
          | none => s
        s.holdRefresh
      else s.setCrew u e { s.crew u e with task := some { k with done := done } }

/-- HALT waits for every entry, and for every packet to be sent; it closes the task's open slots, clears the convoy
descriptor and enters IDLE (R311). -/
def execHalt (dt : Nat) (t : Fin 1088) (s : State) : Answer :=
  .next ((s.tick dt).issueWord t 0x01 (fun s _ => { named0 with waits := !(s.sbList t).isEmpty }) fun s _ =>
    let s := (s.tile t).slots.foldl (fun s z => s.slotClose (z / 256) (z % 256)) s
    let s := s.modTile t fun x => { x with slots := [], convoy := none, loops := [] }
    (s.setTState t tIdle).partDone t)

/-- SETG: a register takes an immediate (R307). -/
def execSetg (dt : Nat) (t : Fin 1088) (s : State) : Answer :=
  .next ((s.tick dt).issueNext t 0x02 (fun _ _ => named0) fun s w => s.setG t (wf w 19 16) (wf w 63 32))

/-- Operand b of ALU (R307). -/
def State.aluB (s : State) (t w : Nat) : Nat :=
  if wf w 32 32 = 1 then wrapTo 32 (sext (wf w 63 48) 16) else s.gReg t (wf w 27 24)

/-- The function of ALU (R307); a reserved code has no stated result. -/
def aluFn (fn a b : Nat) : Option Nat :=
  match fn with
  | 0 => some (a + b)
  | 1 => some (a + 2 ^ 32 - b)
  | 2 => some (a * b)
  | 3 => some (a &&& b)
  | 4 => some (a ||| b)
  | 5 => some (a ^^^ b)
  | 6 => some (a * 2 ^ (b % 32))
  | 7 => some (a / 2 ^ (b % 32))
  | 8 => some (a % b)
  | 9 => some (wrapTo 32 (min (sext a 32) (sext b 32)))
  | 10 => some (wrapTo 32 (max (sext a 32) (sext b 32)))
  | _ => none

/-- ALU: a register operation that wraps to 32 bits; mod by zero raises ALU_MOD0 (R307). -/
def execAlu (dt : Nat) (t : Fin 1088) (s : State) : Answer :=
  .next ((s.tick dt).issueNext t 0x03
    (fun s w => { named0 with excs := if wf w 31 28 = 8 ∧ s.aluB t w = 0 then [0x11] else [] }) fun s w =>
    match aluFn (wf w 31 28) (s.gReg t (wf w 23 20)) (s.aluB t w) with
    | some v => s.setG t (wf w 19 16) v
    | none => (s.setG t (wf w 19 16) s.free).useFree)

/-- The count of LOOP (R308). -/
def State.loopCount (s : State) (t w : Nat) : Nat := if wf w 23 20 = 0 then wf w 39 24 else s.gReg t (wf w 23 20)

/-- LOOP: its body runs a counted number of times; a count of 0 skips it; a count register above 65,535 raises LOOP_COUNT
(R308). -/
def execLoop (dt : Nat) (t : Fin 1088) (s : State) : Answer :=
  .next ((s.tick dt).issueWord t 0x04
    (fun s w => { named0 with excs := if 65535 < s.loopCount t w then [0x12] else [] }) fun s w =>
    let n := s.loopCount t w
    let pc := (s.tile t).pc
    let last := pc + wf w 51 40
    if n = 0 then s.afterWord t last (s.tile t).loops
    else ((s.setG t (wf w 19 16) 0).modTile t fun x =>
      { x with loops := ⟨pc + 1, last, wf w 19 16, n, 0⟩ :: x.loops }).enterPc t (pc + 1))

/-- Does the comparison of BR hold (R309); a reserved code has no stated result. -/
def brHolds (cmp a b : Nat) : Option Bool :=
  match cmp with
  | 0 => some true
  | 1 => some (a == b)
  | 2 => some (a != b)
  | 3 => some (decide (sext a 32 < sext b 32))
  | 4 => some (decide (sext b 32 ≤ sext a 32))
  | 5 => some (decide (a < b))
  | 6 => some (decide (b ≤ a))
  | _ => none

/-- BR transfers the PC to TARGET when its comparison holds (R309). -/
def execBr (dt : Nat) (t : Fin 1088) (s : State) : Answer :=
  .next ((s.tick dt).issueWord t 0x05 (fun _ _ => named0) fun s w =>
    let b := if wf w 27 27 = 1 then wf w 63 32 else s.gReg t (wf w 23 20)
    let (s, go) := match brHolds (wf w 26 24) (s.gReg t (wf w 19 16)) b with
      | some x => (s, x)
      | none => (s.useFree, s.free % 2 == 1)
    if go then s.enterPc t (wf w 75 64) else s.nextWord t)

/-- CFG writes one part of a configuration set (R312). -/
def execCfg (dt : Nat) (t : Fin 1088) (s : State) : Answer :=
  .next ((s.tick dt).issueNext t 0x08 (fun _ _ => named0) fun s w =>
    s.modTile t fun x => { x with cfg := mapSet 0 x.cfg (4 * wf w 20 16 + wf w 22 21) (BitVec.ofNat 96 (wf w 127 32)) })

/-- RING configures a ring and clears its fill count (R313). -/
def execRing (dt : Nat) (t : Fin 1088) (s : State) : Answer :=
  .next ((s.tick dt).issueNext t 0x09 (fun _ _ => named0) fun s w =>
    s.setRing t (wf w 17 16) ⟨wf w 31 31 == 1, wf w 22 18, 2 ^ wf w 24 23, wf w 29 25 + 1, wf w 30 30 == 1, 0⟩)

/-- SEED loads the generator with a seed (R129, R317). -/
def execSeed (dt : Nat) (t : Fin 1088) (s : State) : Answer :=
  .next ((s.tick dt).issueNext t 0x0A (fun _ _ => named0) fun s w => s.setGen t (genLoad (wf w 127 64)))

/-- CONV: one output row of a direct convolution (R177, R315, R316). -/
def execConv (dt : Nat) (t : Fin 1088) (s : State) : Answer :=
  .next ((s.tick dt).issueNext t 0x10 (fun s w => s.sweepNamed t w) fun s w =>
    let p := s.opWord t w
    s.conv t (s.geo t p.set) p)

/-- MAT: one matrix product as unit-kernel sweeps (R184, R315). -/
def execMat (dt : Nat) (t : Fin 1088) (s : State) : Answer :=
  .next ((s.tick dt).issueNext t 0x11 (fun s w => s.sweepNamed t w) fun s w =>
    let p := s.opWord t w
    s.conv t (s.geo t p.set) p)

/-- SLIP: one pass of a slip convolution (R185 to R187). -/
def execSlip (dt : Nat) (t : Fin 1088) (s : State) : Answer :=
  .next ((s.tick dt).issueNext t 0x12 (fun s w => s.sweepNamed t w) fun s w =>
    let p := s.opWord t w
    s.slip t (s.geo t p.set) p)

/-- POOL: one output row of pooling (R188 to R190). -/
def execPool (dt : Nat) (t : Fin 1088) (s : State) : Answer :=
  .next ((s.tick dt).issueNext t 0x13 (fun s w => s.poolNamed t w) fun s w =>
    let p := s.opWord t w
    s.pool t (s.geo t p.set) p)

/-- EW: N vectors through the element unit (R192, R317). -/
def execEw (dt : Nat) (t : Fin 1088) (s : State) : Answer :=
  .next ((s.tick dt).issueNext t 0x14 (fun s w => s.ewNamed t w) fun s w => s.ew t w)

/-- RQ: N positions are requantised (R317). -/
def execRq (dt : Nat) (t : Fin 1088) (s : State) : Answer :=
  .next ((s.tick dt).issueNext t 0x15 (fun s w => s.rqNamed t w) fun s w => s.rq t w)

/-- CLRACC clears the accumulator file and its poison bits (R317). -/
def execClracc (dt : Nat) (t : Fin 1088) (s : State) : Answer :=
  .next ((s.tick dt).issueNext t 0x16 (fun _ _ => named0) fun s _ => s.accClear t)

/-- The operand of LDG and STG (R310). -/
def laneOpnd (w : Nat) : Opnd := opnd w 20

/-- LDG: a register takes a lane of a word (R310). -/
def execLdg (dt : Nat) (t : Fin 1088) (s : State) : Answer :=
  .next ((s.tick dt).issueNext t 0x18
    (fun s w => { named0 with rngs := [⟨false, (laneOpnd w).lb, s.ea t (laneOpnd w), 1⟩] }) fun s w =>
    s.setG t (wf w 19 16) (bitsOf (s.readW t (laneOpnd w).lb (s.ea t (laneOpnd w))).v.toNat (32 * wf w 41 40) 32))

/-- STG: a lane of a word takes a register; the other lanes stay (R310). -/
def execStg (dt : Nat) (t : Fin 1088) (s : State) : Answer :=
  .next ((s.tick dt).issueNext t 0x19
    (fun s w => { named0 with rngs := [⟨true, (laneOpnd w).lb, s.ea t (laneOpnd w), 1⟩] }) fun s w =>
    s.writeBits t (laneOpnd w).lb (s.ea t (laneOpnd w)) (32 * wf w 41 40) 32 (s.gReg t (wf w 19 16)) false)

/-- FILL starts a write of a pattern to N words (R120, R318). -/
def execFill (dt : Nat) (t : Fin 1088) (s : State) : Answer :=
  .next ((s.tick dt).issueNext t 0x20
    (fun s w => { named0 with rngs := [⟨true, (opnd w 16).lb, s.ea t (opnd w 16), wf w 49 36 + 1⟩], need := 1 }) fun s w =>
    let n := wf w 49 36 + 1
    let p := wf w 95 64
    s.sbAlloc t ⟨true, (opnd w 16).lb, s.ea t (opnd w 16), n,
      .write (List.replicate n ⟨BitVec.ofNat 128 (p * (1 + 2 ^ 32 + 2 ^ 64 + 2 ^ 96)), false⟩), false⟩)

/-- The words of whole blocks, each block transposed (R120). -/
def transposed (ws : List Cell16) : List Cell16 :=
  (List.range (ws.length / 256 * 256)).map fun k => ws.getD (k / 256 * 256 + k % 16 * 16 + k / 16 % 16) cell0

/-- COPY starts a copy of N words, with the result of reading the whole source first; or of whole blocks, transposed (R120,
R318). -/
def execCopy (dt : Nat) (t : Fin 1088) (s : State) : Answer :=
  .next ((s.tick dt).issueNext t 0x21
    (fun s w =>
      let n := wf w 69 56 + 1
      { named0 with need := 2
                    rngs := [⟨false, (opnd w 16).lb, s.ea t (opnd w 16), n⟩, ⟨true, (opnd w 36).lb, s.ea t (opnd w 36), n⟩] }) fun s w =>
    let n := wf w 69 56 + 1
    let ws := s.readWs t (opnd w 16).lb (s.ea t (opnd w 16)) n
    (s.sbAlloc t ⟨true, (opnd w 36).lb, s.ea t (opnd w 36), n, .write (if wf w 70 70 = 1 then transposed ws else ws), false⟩).sbAlloc
      t ⟨false, (opnd w 16).lb, s.ea t (opnd w 16), n, .read, false⟩)

/-- TBL starts a load of the activation table from 32 words (R128, R318). -/
def execTbl (dt : Nat) (t : Fin 1088) (s : State) : Answer :=
  .next ((s.tick dt).issueNext t 0x22
    (fun s w => { named0 with rngs := [⟨false, (opnd w 16).lb, s.ea t (opnd w 16), 32⟩], need := 1 }) fun s w =>
    let a := s.ea t (opnd w 16)
    s.sbAlloc t ⟨false, (opnd w 16).lb, a, 32, .table (s.readWs t (opnd w 16).lb a 32), false⟩)

/-- The destination tile of SEND (R318). -/
def State.sendDest (s : State) (t w : Nat) : Nat := (wf w 74 64 + s.gReg t (wf w 78 75)) % 2 ^ 32

/-- SEND starts a mesh write or convoy packet of N words; a destination above 1,087 raises SEND_DEST (R318). -/
def execSend (dt : Nat) (t : Fin 1088) (s : State) : Answer :=
  .next ((s.tick dt).issueNext t 0x23
    (fun s w =>
      let n := wf w 63 56 + 1
      let r : Rng := ⟨true, (opnd w 36).lb, s.ea t (opnd w 36), n⟩
      { named0 with need := 1, rngs := [⟨false, (opnd w 16).lb, s.ea t (opnd w 16), n⟩]
                    excs := (if r.fits then [] else [0x02]) ++ (if 1087 < s.sendDest t w then [0x16] else []) }) fun s w =>
    let n := wf w 63 56 + 1
    let a := s.ea t (opnd w 16)
    let ws := s.readWs t (opnd w 16).lb a n
    let p : Packet := ⟨s.sendDest t w, wf w 95 95, s.ea t (opnd w 36), (opnd w 36).lb, wf w 92 79, wf w 93 93 == 1, t,
      0, 0, 0, 0, false, wf w 94 94 == 1, ws⟩
    s.sbAlloc t ⟨false, (opnd w 16).lb, a, n, .mesh p, false⟩)

/-- RBSEND starts the drive of one row onto a row-bus channel; without TILE_RB_CFG.EN it raises RB_STATE (R131, R318). -/
def execRbsend (dt : Nat) (t : Fin 1088) (s : State) : Answer :=
  .next ((s.tick dt).issueNext t 0x24
    (fun s w =>
      let n := (wf w 47 36 + 1) * (wf w 49 48 + 1)
      { named0 with need := 1, rngs := [⟨false, (opnd w 16).lb, s.ea t (opnd w 16), n⟩]
                    excs := if s.flag F.TILE_RB_CFG_EN t then [] else [0x19] }) fun s w =>
    let n := (wf w 47 36 + 1) * (wf w 49 48 + 1)
    let a := s.ea t (opnd w 16)
    s.sbAlloc t ⟨false, (opnd w 16).lb, a, n, .row (wf w 54 52) (s.gReg t (wf w 58 55)) (wf w 51 50) (wf w 49 48 + 1)
      (wf w 59 59 == 1) (s.readWs t (opnd w 16).lb a n), false⟩)

/-- CATREQ starts the submission of a 64-byte descriptor to the catalogue engine (R259, R318). -/
def execCatreq (dt : Nat) (t : Fin 1088) (s : State) : Answer :=
  .next ((s.tick dt).issueNext t 0x25
    (fun s w => { named0 with rngs := [⟨false, (opnd w 16).lb, s.ea t (opnd w 16), 4⟩], need := 1 }) fun s w =>
    let a := s.ea t (opnd w 16)
    s.sbAlloc t ⟨false, (opnd w 16).lb, a, 4, .catReq (s.readWs t (opnd w 16).lb a 4), false⟩)

/-- The engine of a stream word (R319). -/
def wEng (w : Nat) : Nat := wf w 17 16
/-- The slot of a stream word (R319). -/
def wSlot (w : Nat) : Nat := wf w 25 18

/-- Does a slot meet the conditions of R319 for a word of tile `t`; `dir` is the direction that the word needs. -/
def State.slotBad (s : State) (t k z : Nat) (dir : Option Nat) (opened : Bool) : List Nat :=
  if s.flag F.STR_SLOT_RATE_EN k z && s.fld F.STR_SLOT_RATE_CLIENT k z == 0 && s.slotTile k z == t &&
    (match dir with | some d => s.fld F.STR_SLOT_RATE_DIR k z == d | none => true) && ((s.slot k z).opened == opened)
  then [] else [0x14]

/-- Words of a slot's ring. -/
def State.slotLen (s : State) (k z : Nat) : Nat := s.fld F.STR_SLOT_BUF_LEN_M1 k z + 1
/-- The first word of chunk `j` of a slot's ring: chunks are used in cyclic order (R320). -/
def State.chunkAddr (s : State) (k z j : Nat) : Nat :=
  let c := (s.slot k z).chw
  s.fld F.STR_SLOT_BUF_BASE_W k z + j * c % s.slotLen k z

/-- SOPEN opens a slot; a ring length that is no multiple of the chunk raises SLOT_STATE (R319). -/
def execSopen (dt : Nat) (t : Fin 1088) (s : State) : Answer :=
  .next ((s.tick dt).issueNext t 0x28
    (fun s w => { named0 with excs := s.slotBad t (wEng w) (wSlot w) none false ++
      (if s.slotLen (wEng w) (wSlot w) % (wf w 39 27 + 1) = 0 then [] else [0x14]) }) fun s w =>
    (s.slotOpen (wEng w) (wSlot w) (wf w 26 26 == 1) (wf w 39 27 + 1) (wf w 71 40) (wf w 85 72) (wf w 86 86 == 1)).modTile t
      fun x => { x with slots := x.slots ++ [256 * wEng w + wSlot w] })

/-- SGET takes the next chunk under an inbound entry, which a delivered chunk does not hold (R320). -/
def execSget (dt : Nat) (t : Fin 1088) (s : State) : Answer :=
  .next ((s.tick dt).issueNext t 0x29
    (fun s w =>
      let k := wEng w; let z := wSlot w; let x := s.slot k z
      { named0 with need := 1, rngs := [⟨true, s.flag F.STR_SLOT_TILE_SPACE k z, s.chunkAddr k z x.taken, x.chw⟩]
                    excs := s.slotBad t k z (some 0) true ++
                      (if s.slotLen k z < (x.taken - x.rel + 1) * x.chw then [0x15] else []) }) fun s w =>
    let k := wEng w; let z := wSlot w; let x := s.slot k z
    let s' := s.setSlot k z { x with taken := x.taken + 1 }
    if (x.taken + 1) * x.chw * 16 ≤ x.deliv ∨ s.fld F.STR_SLOT_STAT_STATE k z = 3 then s'
    else s'.sbAlloc t ⟨true, s.flag F.STR_SLOT_TILE_SPACE k z, s.chunkAddr k z x.taken, x.chw, .streamIn k z, false⟩)

/-- SREL returns the oldest N taken chunks as credit (R232, R320). -/
def execSrel (dt : Nat) (t : Fin 1088) (s : State) : Answer :=
  .next ((s.tick dt).issueNext t 0x2A
    (fun s w =>
      let k := wEng w; let z := wSlot w; let x := s.slot k z
      { named0 with excs := s.slotBad t k z (some 0) true ++ (if x.taken - x.rel < wf w 33 26 + 1 then [0x15] else []) }) fun s w =>
    let k := wEng w; let z := wSlot w; let x := s.slot k z
    let n := wf w 33 26 + 1
    s.setSlot k z (s.slotDeadline k z { x with rel := x.rel + n, a := x.a - n * x.chw * 16, t := s.now }))

/-- SPUT announces the next chunk under an outbound entry, and with END the end of the stream (R320); it waits while the
outbound ring is full (R247). -/
def execSput (dt : Nat) (t : Fin 1088) (s : State) : Answer :=
  .next ((s.tick dt).issueNext t 0x2B
    (fun s w =>
      let k := wEng w; let z := wSlot w; let x := s.slot k z
      { named0 with need := 1, rngs := [⟨false, s.flag F.STR_SLOT_TILE_SPACE k z, s.chunkAddr k z x.ann, x.chw⟩]
                    excs := s.slotBad t k z (some 1) true, waits := decide (s.slotB k z < x.o + x.chw * 16) }) fun s w =>
    let k := wEng w; let z := wSlot w; let x := s.slot k z
    let lb := s.flag F.STR_SLOT_TILE_SPACE k z
    let a := s.chunkAddr k z x.ann
    let ws := s.readWs t lb a x.chw
    let eos := wf w 26 26 == 1
    (s.slotAnnounce k z ws eos).sbAlloc t ⟨false, lb, a, x.chw, .streamOut k z eos [], false⟩)

/-- Is an entry of a slot's stream. -/
def SbEntry.ofSlot (x : SbEntry) (k z : Nat) : Bool :=
  match x.op with
  | .streamIn e y => e == k && y == z
  | .streamOut e y _ _ => e == k && y == z
  | _ => false

/-- SCLOSE waits for the slot's entries and closes it (R320). -/
def execSclose (dt : Nat) (t : Fin 1088) (s : State) : Answer :=
  .next ((s.tick dt).issueNext t 0x2C
    (fun s w => { named0 with excs := s.slotBad t (wEng w) (wSlot w) none true,
                              waits := (s.sbList t).any fun q => q.2.ofSlot (wEng w) (wSlot w) }) fun s w =>
    (s.slotClose (wEng w) (wSlot w)).modTile t fun x => { x with slots := x.slots.filter (· != 256 * wEng w + wSlot w) })

/-- GIVEWAY waits for a milestone and raises the slot's fetch limit, never lowering it (R236, R321). -/
def execGiveway (dt : Nat) (t : Fin 1088) (s : State) : Answer :=
  .next ((s.tick dt).issueNext t 0x2D
    (fun s w => { named0 with excs := s.slotBad t (wEng w) (wSlot w) none true,
                              ms := some (wf w 39 26, (s.gReg t (wf w 75 72) + wf w 71 40) % 2 ^ 32) }) fun s w =>
    let x := s.slot (wEng w) (wSlot w)
    let l := (s.gReg t (wf w 111 108) + wf w 107 76) % 2 ^ 32 * 64
    (s.setSlot (wEng w) (wSlot w) { x with limit := max x.limit l }).slotRefresh (wEng w) (wSlot w))

/-- CONVOY sets the convoy descriptor; a next tile above 1,087 raises SEND_DEST (R322). -/
def execConvoy (dt : Nat) (t : Fin 1088) (s : State) : Answer :=
  .next ((s.tick dt).issueNext t 0x30
    (fun _ w => { named0 with excs := if wf w 27 27 = 1 ∧ 1087 < wf w 26 16 then [0x16] else [] }) fun s w =>
    s.modTile t fun x => { x with convoy := if wf w 27 27 = 1 then some (wf w 26 16) else none })

/-- The milestone of ARRIVE and WAIT (R323). -/
def State.msOf (s : State) (t w : Nat) : Nat := (wf w 29 16 + s.gReg t (wf w 33 30)) % 2 ^ 32

/-- ARRIVE issues N arrivals to a milestone, after a fence where FENCE is set (R323). -/
def execArrive (dt : Nat) (t : Fin 1088) (s : State) : Answer :=
  .next ((s.tick dt).issueNext t 0x38
    (fun s w => { named0 with excs := if 16383 < s.msOf t w then [0x10] else [],
                              waits := wf w 50 50 == 1 && !(s.sbList t).isEmpty }) fun s w =>
    s.sendArrival t (s.msOf t w) (wf w 49 34))

/-- WAIT waits until a milestone is reached for a target (R323). -/
def execWait (dt : Nat) (t : Fin 1088) (s : State) : Answer :=
  .next ((s.tick dt).issueNext t 0x39
    (fun s w => { named0 with excs := if 16383 < s.msOf t w then [0x10] else [],
                              ms := some (s.msOf t w, (s.gReg t (wf w 69 66) + wf w 65 34) % 2 ^ 32) }) fun s _ => s)

end Sys2Proof.Machine
end

