-- ==== Sys2Proof/Machine/Rows.lean ====
section
/-! DEFINITION. Rows and packets: feeder rows (R132, R201, R203), the row bus (R131), row forwarding (R133), mesh packets
(R134, R135, R241), and the end of asynchronous operations (R124). -/
namespace Sys2Proof.Machine

/-- A length rounded up to whole words of 16 bytes. -/
def up16 (n : Nat) : Nat := (n + 15) / 16 * 16

/-- Bytes of a block in zero-compressed form (R195, R196) with elements of `4 × 2 ^ ew` bits. -/
def zcBytes (ew : Nat) (ws : List Cell16) : Nat :=
  let bits := 4 * 2 ^ ew
  let per := 128 / bits
  let n := ws.length
  let e := n * per
  let nnz := (ws.map fun w => ((List.range per).filter fun i => bitsOf w.v.toNat (bits * i) bits != 0).length).sum
  let mask := if ws.any (·.p) then up16 ((n + 7) / 8) else 0
  let size := 16 + up16 ((e + 7) / 8) + up16 ((nnz * bits + 7) / 8)
  (if 16 * n ≤ size then 16 + 16 * n else size) + mask

/-- Bytes that a block takes on its way (R194): compressed or as they are. -/
def wireBytes (zc : Bool) (ws : List Cell16) : Nat :=
  if zc then zcBytes (Config.zcEw % 3) ws else 16 * ws.length

/-- Does a packet from `a` reach tile `b`: along the row first (R134), through no column in OFF (R136). -/
def State.meshOpen (s : State) (a b : Nat) : Bool :=
  let x := tileCol a; let y := tileCol b
  (List.range (max x y - min x y + 1)).all fun i => s.fld F.PWR_COL_STATE (min x y + i) != 3

/-- A packet sets out for its destination, which a substitution redirects (R134, R425). -/
def State.meshSend (s : State) (p : Packet) : State :=
  let d := s.subTile p.dest
  if s.meshOpen p.src d then s.modTile d fun x => { x with arrivals := x.arrivals ++ [p] } else s

/-- Does tile `t` accept rows from the bus and the feeder (R132, R133, R205): it has a part in a task, its row-bus membership
is enabled, it is no detour, and not in TEST or RETIRED. -/
def State.acceptsRow (s : State) (t : Nat) : Bool :=
  s.flag F.TILE_RB_CFG_EN t && !s.flag F.TILE_RB_CFG_DETOURED t && (s.taskOf t).isSome &&
  s.tState t != tTest && s.tState t != tRetired

/-- The ring that feeder rows land in (R313). -/
def State.feedRing (s : State) (t : Nat) : Option Nat := (List.range 4).find? fun k => (s.ringOf t k).en && (s.ringOf t k).feed

/-- The rings that a row lands in: `ring` to `ring + planes − 1`, or the feeder ring where `ring` is 4. -/
def State.rowRings (s : State) (t ring planes : Nat) : List Nat :=
  if ring = 4 then (s.feedRing t).toList else (List.range planes).map (ring + ·)

/-- Are all rings of a row configured at tile `t`. -/
def State.ringsReady (s : State) (t ring planes : Nat) : Bool :=
  !(s.rowRings t ring planes).isEmpty && (s.rowRings t ring planes).all fun k => decide (k < 4) && (s.ringOf t k).en

/-- Tile `t` writes a row of planes into its rings. -/
def State.landRow (s : State) (t ring planes row : Nat) (ws : List Cell16) : State :=
  let ks := s.rowRings t ring planes
  let n := ws.length / max ks.length 1
  ks.zipIdx.foldl (fun s q => s.writeRingRow t q.1 row ((ws.drop (q.2 * n)).take n)) s

/-- Tile `t` forwards a row that it has accepted, where TILE_RB_FWD is enabled (R133). -/
def State.forwardRow (s : State) (t ring ch planes row : Nat) (ws : List Cell16) : State :=
  if s.flag F.TILE_RB_FWD_EN t then
    s.meshSend ⟨s.fld F.TILE_RB_FWD_DEST t, 2, 0, true, 0, false, t, row, ring, ch, planes, false, false, ws⟩
  else s

/-- The tiles of a row-bus segment: from the head tile southward (R131, R205). -/
def State.segTiles (s : State) (t : Nat) : List Nat :=
  let head := t - s.fld F.TILE_RB_CFG_MEMBER t
  (List.range (s.fld F.TILE_RB_CFG_N_M1 t + 1)).map (head + ·)

/-! ## Feeder -/

/-- W_tap pixels' samples of a tap (R199). -/
def ChainGeo.tapC (g : ChainGeo) (src : Nat) : Nat :=
  if src = 0 then (if g.bayer = 0 then g.n else 2) else if src ≤ 3 then g.d else g.kout

/-- Is the crew row queue's head row one whose remote columns are absent, and the columns where they are needed (R201, R215). -/
def State.remoteRow (s : State) (u e : Nat) (set : FMap DWord) (seg idx : Nat) : Option (List Nat) :=
  let port := setFldIn set F.ING_STRIPE_HALO_JPORT u e
  let spl := setFldIn set F.ING_STRIPE_CREW_SPLICE u e
  (s.exports.find? fun x => decide (x.port = port ∧ x.splice = spl ∧ x.seg = seg ∧ x.idx = idx)).map (·.row)

/-- One pixel of a stripe row: a tap pixel, or an edge pixel by its code (R201). -/
def edgePix (row remote : List Nat) (ct w : Nat) (el er left : Nat) (x : Int) : List Nat :=
  let px (i : Nat) : List Nat := (row.drop (i * ct)).take ct
  let zero : List Nat := List.replicate ct 0
  if x < 0 then
    if el = 0 then px 0 else if el = 1 then zero else ((remote.drop (((left : Int) + x).toNat * ct)).take ct)
  else if (w : Int) ≤ x then
    if er = 0 then px (w - 1) else if er = 1 then zero
    else ((remote.drop (((if el = 2 then left else 0) + (x.toNat - w)) * ct)).take ct)
  else px x.toNat

/-- The stripe row cut from a tap row, or none while it lacks its remote columns (R201, R215, R216). -/
def State.stripeRow (s : State) (u e : Nat) (set : FMap DWord) (ct : Nat) (row : List Nat) (seg idx : Nat) : Option (List Nat) :=
  let x0 := sext (setFldIn set F.ING_STRIPE_GEOM_X0 u e) 16
  let n := setFldIn set F.ING_STRIPE_GEOM_W_M1 u e + 1
  let w := row.length / max ct 1
  let el := setFldIn set F.ING_STRIPE_HALO_EDGE_L u e
  let er := setFldIn set F.ING_STRIPE_HALO_EDGE_R u e
  let left := (-x0).toNat
  let need := (el == 2 && decide (x0 < 0)) || (er == 2 && decide ((w : Int) < x0 + n))
  let cut (remote : List Nat) : List Nat :=
    (List.range n).flatMap fun i => edgePix row remote ct w el er left (x0 + i)
  if need then (s.remoteRow u e set seg idx).map cut else some (cut [])

/-- The words of a feeder row: packed samples of `b` bytes (R173, R203). -/
def packRow (b : Nat) (l : List Nat) : List Cell16 :=
  packWords (8 * b) (16 / b) (l.map fun v => (v, false)) ((l.length * b + 15) / 16)

/-- Export rows that no waiting stripe row still needs are dropped. -/
def State.dropExport (s : State) (u e : Nat) (set : FMap DWord) (b : Int) (p n idx : Nat) : State :=
  let spl := setFldIn set F.ING_STRIPE_CREW_SPLICE u e
  let port := setFldIn set F.ING_STRIPE_HALO_JPORT u e
  let more := (s.refU u).sendQ.any fun q => q.1 != e && q.2.any fun r => decide (r.b = b ∧ r.part = p ∧ r.n = n)
  if more then s
  else { s with exports := s.exports.filter fun x => !decide (x.port = port ∧ x.splice = spl ∧ x.seg = segNum b p ∧ x.idx = idx) }

/-- R132, R203: the next row of a stripe goes onto the feeder, and the members of its crew write it into their feeder rings,
once the crew's task of its segment runs, every member's feeder ring is configured and its remote columns are there. -/
def execFeederRow (dt : Nat) (u : Fin 16) (e : Fin 64) (s : State) : Answer :=
  let s := s.tick dt
  let u := u.val; let e := e.val
  let k := s.crew u e
  match (mapGet [] (s.refU u).sendQ e), k.task with
  | r :: rs, some task =>
    match s.connOfSeg u r.b r.part with
    | some c =>
      match s.seg? c r.b r.part with
      | some g =>
        let set := s.slotSet u (g.slot.getD (s.refU u).cur)
        let spl := setFldIn set F.ING_STRIPE_CREW_SPLICE u e
        let ct := (s.chainGeo u).tapC (splFld set F.REF_SPLICE_SRC u spl)
        let b := if splFld set F.REF_SPLICE_SEND8 u spl = 1 then 1 else 2
        let idx := r.n - g.first
        let head := 32 * setFldIn set F.ING_STRIPE_CREW_COL u e + setFldIn set F.ING_STRIPE_CREW_HEAD u e
        let ts := ((List.range (setFldIn set F.ING_STRIPE_CREW_N_M1 u e + 1)).map fun i => s.subTile (head + i)).filter fun t =>
          s.acceptsRow t && task.parts.contains t
        if task.b = r.b ∧ task.part = r.part ∧ !task.aborted ∧ ts.all (fun t => s.ringsReady t 4 1) then
          match s.stripeRow u e set ct r.row (segNum r.b r.part) idx with
          | some row =>
            let ws := packRow b row
            let s := ts.foldl (fun s t =>
              ((s.landRow t 4 1 k.sent ws).rxBytes t (row.length * b)).forwardRow t 4 0 1 k.sent ws) s
            let s := s.setRef u { s.refU u with sendQ := mapSet [] (s.refU u).sendQ e rs }
            let s := s.setCrew u e { k with sent := k.sent + 1 }
            .next ((s.dropExport u e set r.b r.part r.n idx).seamStat u)
          | none => .next s
        else .next s
      | none => .next s
    | none => .next s
  | _, _ => .next s

/-! ## Row bus -/

/-- The channel key of a row-bus segment: head tile and channel. -/
def State.busKey (s : State) (t ch : Nat) : Nat := 8 * (t - s.fld F.TILE_RB_CFG_MEMBER t) + ch

/-- May a row go onto the bus now: it is next on its channel (R131), and every member that takes it has its rings. -/
def State.busMay (s : State) (t ch row ring planes : Nat) : Bool :=
  mapGet 0 s.busNext (s.busKey t ch) == row &&
  ((s.segTiles t).filter fun m => s.acceptsRow m).all fun m => s.ringsReady m ring planes

/-- Drive a row onto the bus (R131): every accepting member writes it, the driver its own; the others count its bytes. -/
def State.busDrive (s : State) (t ch row ring planes bytes : Nat) (ws : List Cell16) : State :=
  let s := ((s.segTiles t).filter fun m => s.acceptsRow m).foldl (fun s m =>
    let s := s.landRow m ring planes row ws
    (if m = t then s else s.rxBytes m bytes).forwardRow m ring ch planes row ws) s
  { s with busNext := mapSet 0 s.busNext (s.busKey t ch) (row + 1) }

/-- A rejected block is written as zero words marked poisoned and reported (R197). -/
def State.badBlock (s : State) (t : Nat) : State :=
  ((s.inc F.TILE_ERRCNT_BAD_ARRIVALS t).setFld F.TILE_STAT_BAD_ARRIVAL 1 t).tell (.note 6 t)

/-- The words of planes, each as a block (R194). -/
def planeBytes (zc : Bool) (planes : Nat) (ws : List Cell16) : Nat :=
  let n := ws.length / max planes 1
  ((List.range planes).map fun p => wireBytes zc ((ws.drop (p * n)).take n)).sum

/-- R131: the row of a row-bus send is driven once it is next on its channel; `bad`: its compressed form is rejected (R197). -/
def execRowBusRow (dt : Nat) (t : Fin 1088) (e : Fin 16) (bad : Bool) (s : State) : Answer :=
  let s := s.tick dt
  let t := t.val
  match s.sbGet t e.val with
  | some ⟨_, _, _, _, .row ch row ring planes zc ws, _⟩ =>
    if s.acceptsRow t ∧ s.busMay t ch row ring planes then
      let rej := bad && zc
      let out := if rej then ws.map fun _ => (⟨0, true⟩ : Cell16) else ws
      let s := if rej then ((s.segTiles t).filter fun m => s.acceptsRow m && m != t).foldl (fun s m => s.badBlock m) s else s
      .next ((s.busDrive t ch row ring planes (planeBytes zc planes ws) out).sbPut t e.val none)
    else .next s
  | _ => .next s

/-! ## Mesh -/

/-- A packet is discarded whole (R135). -/
def State.badPacket (s : State) (t : Nat) : State := s.badBlock t

/-- Write the payload of a packet, except the words at which a port-A write met it and stays (R119). -/
def State.landWords (s : State) (t : Nat) (p : Packet) (ww : List Nat) : State :=
  let hits := if p.lb then [] else ww.filter fun i => decide (i < p.words.length)
  let s := p.words.zipIdx.foldl (fun s q => if hits.contains q.2 then s else s.writeW t p.lb (p.addr + q.2) q.1) s
  if hits.isEmpty then s else (s.setFld F.TILE_STAT_SP_WW 1 t).addSat F.TILE_ERRCNT_WW hits.length t

/-- The arrival of a packet at tile `t` (R133, R135, R241); none where the packet has to wait. -/
def State.packetIn (s : State) (t : Nat) (p : Packet) (bad : Bool) (ww : List Nat) : Option State :=
  if s.tState t = tTest ∨ s.tState t = tRetired ∨ 2 < p.kind ∨ bad ∨
      (p.kind < 2 ∧ spaceWords p.lb < p.addr + p.words.length) then some (s.badPacket t)
  else if p.kind = 2 then
    if p.owned then
      if s.busMay t p.ch p.row p.ring p.planes then
        some ((s.rxBytes t (16 * p.words.length)).busDrive t p.ch p.row p.ring p.planes (planeBytes p.zc p.planes p.words) p.words)
      else none
    else if !s.flag F.TILE_RB_CFG_DETOURED t then some s
    else if s.ringsReady t p.ring p.planes then
      some ((s.landRow t p.ring p.planes p.row p.words).rxBytes t (16 * p.words.length))
    else none
  else
    let s := (s.landWords t p ww).rxBytes t (wireBytes p.zc p.words)
    let s := if p.msEn then s.sendArrival t p.ms 1 else s
    match p.kind, (s.tile t).convoy with
    | 1, some d => some (s.meshSend { p with dest := d, src := t, ms := (p.ms + 1) % 2 ^ 14 })
    | _, _ => some s

/-- R135: the next packet from tile `src` arrives at tile `t` and drains into its space. `bad`: its compressed form is
rejected (R197) or its header is damaged; `ww`: words at which a port-A write of the same cycle meets it (R119). -/
def execMeshPacketArrive (dt : Nat) (t src : Fin 1088) (bad : Bool) (ww : List (Fin 256)) (s : State) : Answer :=
  let s := s.tick dt
  let t := t.val
  match (s.tile t).arrivals.find? fun p => p.src == src.val with
  | some p =>
    match s.packetIn t p bad (ww.map (·.val)) with
    | some s => .next (s.modTile t fun x => { x with arrivals := x.arrivals.eraseP fun q => q.src == src.val })
    | none => .next s
  | none => .next s

/-! ## Completion of asynchronous operations -/

/-- The activation table that 32 words load: 256 entries of 16 bits, each with its word's mark (R128). -/
def tableOf (ws : List Cell16) : FMap AccE :=
  (List.range 256).foldl (fun m i =>
    let c := ws.getD (i / 8) cell0
    mapSet acc0 m i ⟨BitVec.ofNat 32 (bitsOf c.v.toNat (16 * (i % 8)) 16), c.p⟩) []

/-- The tile that forwards to detour tile `t` (R133). -/
def State.forwarder (s : State) (t : Nat) : Option Nat :=
  (List.range 1088).find? fun m => s.flag F.TILE_RB_FWD_EN m && s.fld F.TILE_RB_FWD_DEST m == t

/-- The 64-byte descriptor in four words (R259). -/
def descOf (ws : List Cell16) : Nat := leNat ((bytesOfWords ws).map (·.1))

/-- What the end of an asynchronous operation does, or none where it has not ended (R124, R259, R261). -/
def State.asyncEnd (s : State) (t : Nat) (x : SbEntry) : Option State :=
  match x.op with
  | .write ws => some (s.writeWs t x.lb x.addr ws)
  | .table ws => some (s.modTile t fun y => { y with act := tableOf ws })
  | .mesh p => some (s.meshSend p)
  | .catReq ws =>
    if s.catTask.length < 256 then
      let s : State := { s with catTask := s.catTask ++ [⟨some t, none, descOf ws, 0⟩] }
      some s.catStat
    else none
  | .row ch row ring planes zc ws =>
    if s.flag F.TILE_RB_CFG_DETOURED t then
      (s.forwarder t).map fun f => s.meshSend ⟨f, 2, 0, true, 0, false, t, row, ring, ch, planes, true, zc, ws⟩
    else none
  | .read => some s
  | .streamIn _ _ => none
  | .streamOut _ _ _ _ => none

/-- R124: the last access of an asynchronous operation completes and its entry retires. -/
def execScoreboardRetire (dt : Nat) (t : Fin 1088) (e : Fin 16) (s : State) : Answer :=
  let s := s.tick dt
  match s.sbGet t.val e.val with
  | some x => match s.asyncEnd t.val x with
    | some s => .next (s.sbPut t.val e.val none)
    | none => .next s
  | none => .next s

end Sys2Proof.Machine
end

