-- ==== Sys2Proof/Machine/TileCtl.lean ====
section
/-! DEFINITION. Control of a tile: soft reset, halt, generator, exceptions, rate windows, sensors, debug access, row map
(R121, R130, R138 to R144, R218). -/
namespace Sys2Proof.Machine

/-- Every entry of the repair record but those that `p` names, and then `es` (R423). -/
def State.repairPut (s : State) (p : RepEnt → Bool) (es : List RepEnt) : State :=
  { s with repair := (s.repair.filter fun e => !p e) ++ es, repairAt := s.now }

/-- Layby tiles that are free: IDLE, with no detour, in a column that stands in for none (R421). -/
def State.laybyFree (s : State) : State :=
  let free := (List.range 2).map fun k =>
    if s.flag F.RAS_SUBST_ACTIVE k then 0 else
      ((List.range 32).filter fun r =>
        let t := 32 * s.laybyCol k + r
        s.tState t == tIdle && !s.flag F.TILE_RB_CFG_DETOURED t).length
  s.setFld F.RAS_STAT_LAYBY_FREE free.sum

/-- A tile is retired (R122, R140, R422): a running route stops as for HALT_REQ and its task is aborted. Causes: 1 BIST,
2 spares exhausted, 3 firmware. -/
def State.retireTile (s : State) (t cause : Nat) : State :=
  let run := decide (s.tState t = tRun ∨ s.tState t = tWait)
  let s := if run then ((s.haltTile t 5 0).stopAsync t).abortTaskOf t else s
  let s := (s.setTState t tRetired).modTile t fun x => { x with resetting := false }
  let c := tileCol t
  let s := s.setFld F.RAS_RETIRED_ROWS (putBits (s.fld F.RAS_RETIRED_ROWS c) (t % 32) 1 1) c
  (s.repairPut (fun e => decide (e.kind = 2 ∧ e.a = t)) [⟨2, t, cause, 0, 0⟩]).abortReport.laybyFree

/-! ## TILE_CTRL -/

/-- SOFT_RESET of tile `t` (R142): accepted in IDLE and HALTED, else ignored and recorded. -/
def State.ctlReset (s : State) (r : Requester) (t : Nat) : State :=
  if s.tState t = tIdle ∨ s.tState t = tHalted then s.modTile t fun x => { x with resetting := true }
  else s.aelReg r (regAddr .TILE_CTRL t) 9 0 0x80000000

/-- load(seed) of R129. -/
def State.rngLoad (s : State) (t : Nat) : State :=
  let x := s.fld F.TILE_RNG_SEED_SEED t
  s.setGen t ⟨if x = 0 then 1 else x, 0, 0⟩

/-- RNG_LOAD of tile `t` (R130): in IDLE and HALTED, else ignored and recorded. -/
def State.ctlRng (s : State) (r : Requester) (t : Nat) : State :=
  if s.tState t = tIdle ∨ s.tState t = tHalted then s.rngLoad t else s.aelReg r (regAddr .TILE_CTRL t) 9 0 4

/-- EXC_CLR of tile `t` (R144): TILE_EXC and TILE_EXC_PC clear, the state stays. -/
def State.ctlExc (s : State) (t : Nat) : State := (s.setReg .TILE_EXC 0 t).setReg .TILE_EXC_PC 0 t

/-- HALT_REQ of tile `t` (R141): the route stops with CAUSE 0x05, its operations stop, its task is aborted. -/
def State.ctlHalt (s : State) (t : Nat) : State :=
  if s.issuing t then (s.stopAsync t).tileFault t 5 0 else s

/-- R142: a write of TILE_CTRL.SOFT_RESET. -/
def execSoftReset (dt : Nat) (r : Requester) (t : Fin 1088) (s : State) : Answer :=
  .next ((s.tick dt).accessing r (regAddr .TILE_CTRL t) 4 0x80000000 fun _ => (s.tick dt).ctlReset r t)

/-- What a soft reset clears (R142): packets of the arrival buffer are discarded and counted (R135). -/
def State.softReset (s : State) (t : Nat) : State :=
  let n := (s.tile t).arrivals.length
  let s := if n = 0 then s else (s.addSat F.TILE_ERRCNT_BAD_ARRIVALS n t).setFld F.TILE_STAT_BAD_ARRIVAL 1 t
  let s := s.modTile t fun x =>
    { tile0 with wCur := x.wCur, wNext := x.wNext, sp := x.sp, lb := x.lb, act := x.act, genX := x.genX, genM := x.genM, dll := x.dll }
  ((s.setFld F.TILE_STAT_SB_BUSY 0 t).ctlExc t).setTState t tIdle

/-- R142: the soft reset ends and the tile is IDLE; with the last participant of an aborted task FAULT_TASK_ABORT is
reported (R250). -/
def execSoftResetComplete (dt : Nat) (t : Fin 1088) (s : State) : Answer :=
  let s := s.tick dt
  if (s.tile t).resetting then .next (s.softReset t).abortReport.laybyFree else .next s

/-- R130: a write of TILE_CTRL.RNG_LOAD. -/
def execRngLoad (dt : Nat) (r : Requester) (t : Fin 1088) (s : State) : Answer :=
  .next ((s.tick dt).accessing r (regAddr .TILE_CTRL t) 4 4 fun _ => (s.tick dt).ctlRng r t)

/-- R144: a write of TILE_CTRL.EXC_CLR. -/
def execExcClr (dt : Nat) (r : Requester) (t : Fin 1088) (s : State) : Answer :=
  .next ((s.tick dt).accessing r (regAddr .TILE_CTRL t) 4 2 fun _ => (s.tick dt).ctlExc t)

/-- R141: a write of TILE_CTRL.HALT_REQ. -/
def execHaltReq (dt : Nat) (r : Requester) (t : Fin 1088) (s : State) : Answer :=
  .next ((s.tick dt).accessing r (regAddr .TILE_CTRL t) 4 1 fun _ => (s.tick dt).ctlHalt t)

/-! ## Rates and sensors -/

/-- The operating-point frequency of a column in MHz: in TRIM, the one its clock carries (R138, R449). -/
def State.colFreq (s : State) (c : Nat) : Nat :=
  match (s.col c).trimTo with
  | some op => opMhz (min op (s.fld F.PWR_COL_CUR_OP c))
  | none => opMhz (s.fld F.PWR_COL_CUR_OP c)

/-- TILE_RATE at the end of a window (R138): cycles counted and cycles issued or ready. -/
def State.rateWrite (s : State) (t cycles ready : Nat) : State :=
  let s := (s.setFld F.TILE_RATE_VALID 1 t).setFld F.TILE_RATE_MHZ (cycles / 100) t
  s.setFld F.TILE_RATE_ACH_PERMILLE (min 1023 (ready * 1000 / (s.colFreq (tileCol t) * 100))) t

/-- The members that firmware treats as slow in a window (R218). -/
def State.slowOf (s : State) (ts : List Nat) : List Nat :=
  let m := s.fld F.STR_SCHED_MARGIN_MARGIN_PCT
  let slow := ts.filter fun t => decide (s.fld F.TILE_RATE_ACH_PERMILLE t + 10 * m < 1000)
  if slow.length ≤ 1 then slow else
  let clk := slow.filter fun t => decide (s.fld F.TILE_RATE_MHZ t * 100 < s.colFreq (tileCol t) * (100 - m))
  if clk.isEmpty then
    (slow.argmin fun t => s.fld F.TILE_RATE_ACH_PERMILLE t).toList
  else clk

/-- Count the slow windows of a crew's members; the action on one that has reached SLOW_WINDOWS is firmware's (R218, R219). -/
def State.judgeCrew (s : State) (k : Nat) (ws : List Nat) : State :=
  let x := s.crew (k / 64) (k % 64)
  match x.task with
  | none => s
  | some task =>
    let seen := task.parts.filter fun t => ws.contains t
    let slow := s.slowOf seen
    let cnt := seen.foldl (fun m t => mapSet 0 m t (if slow.contains t then mapGet 0 m t + 1 else 0)) x.slow
    let s := s.setCrew (k / 64) (k % 64) { x with slow := cnt }
    (slow.filter fun t => mapGet 0 cnt t == s.pol 0x03).foldl (fun s t => s.tell (.note 7 t)) s

/-- R138, R218: the end of a 100 µs window: each tile with its cycles counted and its cycles issued or ready. -/
def execTileRateWindow (dt : Nat) (w : List (Fin 1088 × Nat × Nat)) (s : State) : Answer :=
  let s := s.tick dt
  let w := w.filter fun q => s.colOpen (tileCol q.1)
  let s := w.foldl (fun s q => s.rateWrite q.1 q.2.1 q.2.2) s
  .next ((s.crews.map (·.1)).foldl (fun s k => s.judgeCrew k (w.map fun q => q.1.val)) s)

/-- R139: a conversion of a tile's diode and voltage monitor, each corrected by its calibration code (R468). -/
def execTileSenseConvert (dt : Nat) (t : Fin 1088) (temp volt : Int) (s : State) : Answer :=
  let s := s.tick dt
  let t := t.val
  if s.fld F.PWR_COL_STATE (tileCol t) = 3 then .next s
  else
    let kt := calKey 4 t
    let kv := calKey 5 (49 + t)
    let c := temp + s.calApplied kt
    let s := (s.setCal kt { s.calInst kt with temp := c }).setCal kv { s.calInst kv with temp := c }
    let v := (max 0 (min 1023 (volt + s.calApplied kv))).toNat
    .next (((s.setFld F.TILE_SENSE_VALID 1 t).setFld F.TILE_SENSE_TEMP (wrapTo 12 c) t).setFld F.TILE_SENSE_VOLT v t)

/-! ## Debug access and row map -/

/-- Bytes of a debug space (R144). -/
def dbgSize (sp : Nat) : Nat := [262144, 4096, 131072, 512].getD sp 0

/-- The 32-bit word that TILE_DBG_ADDR names. -/
def State.dbgGet (s : State) (t : Nat) : Nat :=
  let sp := s.fld F.TILE_DBG_ADDR_SPACE t
  let a := s.fld F.TILE_DBG_ADDR_BYTE t / 4 * 4
  match sp with
  | 0 => bitsOf (s.readW t false (a / 16)).v.toNat (8 * (a % 16)) 32
  | 1 => bitsOf (mapGet cell0 (s.tile t).sp (a / 256 * 1040 + 1024 + a / 16 % 16)).v.toNat (8 * (a % 16)) 32
  | 2 => bitsOf (s.readW t true (a / 16)).v.toNat (8 * (a % 16)) 32
  | _ => (mapGet acc0 (s.tile t).act (a / 2)).v.toNat + 2 ^ 16 * (mapGet acc0 (s.tile t).act (a / 2 + 1)).v.toNat

/-- Write the word that TILE_DBG_ADDR names. -/
def State.dbgPut (s : State) (t v : Nat) : State :=
  let sp := s.fld F.TILE_DBG_ADDR_SPACE t
  let a := s.fld F.TILE_DBG_ADDR_BYTE t / 4 * 4
  match sp with
  | 0 => s.writeBits t false (a / 16) (8 * (a % 16)) 32 v false
  | 1 =>
    let k := a / 256 * 1040 + 1024 + a / 16 % 16
    s.modTile t fun x =>
      let c := mapGet cell0 x.sp k
      { x with sp := mapSet cell0 x.sp k ⟨BitVec.ofNat 128 (putBits c.v.toNat (8 * (a % 16)) 32 v), c.p⟩ }
  | 2 => s.writeBits t true (a / 16) (8 * (a % 16)) 32 v false
  | _ => s.modTile t fun x =>
      let lo : AccE := ⟨BitVec.ofNat 32 (v % 2 ^ 16), (mapGet acc0 x.act (a / 2)).p⟩
      let hi : AccE := ⟨BitVec.ofNat 32 (v / 2 ^ 16 % 2 ^ 16), (mapGet acc0 x.act (a / 2 + 1)).p⟩
      { x with act := mapSet acc0 (mapSet acc0 x.act (a / 2) lo) (a / 2 + 1) hi }

/-- BYTE after an access: 4 on, 0 at the end of the space. -/
def State.dbgStep (s : State) (t : Nat) : State :=
  let a := s.fld F.TILE_DBG_ADDR_BYTE t / 4 * 4 + 4
  s.setFld F.TILE_DBG_ADDR_BYTE (if dbgSize (s.fld F.TILE_DBG_ADDR_SPACE t) ≤ a then 0 else a) t

/-- Is debug access allowed: IDLE, HALTED or TEST. -/
def State.dbgMay (s : State) (t : Nat) : Bool := s.tState t == tIdle || s.tState t == tHalted || s.tState t == tTest

/-- A read or a write of TILE_DBG_DATA (R144), and the data that a read returns. -/
def State.dbgAccess (s : State) (r : Requester) (t : Nat) (wr : Option Nat) : State × Nat :=
  if s.dbgMay t then
    match wr with
    | some v => ((s.dbgPut t v).dbgStep t, 0)
    | none => (s.dbgStep t, s.dbgGet t)
  else (s.aelReg r (regAddr .TILE_DBG_DATA t) 9 0 (wr.getD 0), 0)

/-- R144: an access to TILE_DBG_DATA: a read returns its data; outside the three states zero, and it is recorded. -/
def execTileDbgDataAccess (dt : Nat) (r : Requester) (t : Fin 1088) (wr : Option Word) (s : State) : Answer :=
  let s := s.tick dt
  let a := regAddr .TILE_DBG_DATA t
  match s.access a 4 with
  | .error k =>
    let s := s.aelReg r a k 0 ((wr.map (·.toNat)).getD 0)
    .next (if wr.isNone then s.emit (.readData r 0) else s)
  | .ok _ =>
    let (s, d) := s.dbgAccess r t (wr.map (·.toNat))
    .next (if wr.isNone then s.emit (.readData r d) else s)

/-- A bank's entry that can take a map-out: not valid, spare row usable (R122). -/
def State.mapFree (s : State) (t bank : Nat) : Option Nat :=
  (List.range 16).find? fun k => !s.flag F.TILE_MAP_VALID t (16 * bank + k) && !s.flag F.TILE_MAP_RETIRED t (16 * bank + k)

/-- The repair record follows a map entry (R423). -/
def State.mapRecord (s : State) (t i : Nat) : State :=
  let v := s.reg .TILE_MAP t i
  s.repairPut (fun e => decide (e.kind = 1 ∧ e.a = t ∧ e.b = i / 16 ∧ e.c = i % 16))
    (if v = 0 then [] else [⟨1, t, i / 16, i % 16, v⟩])

/-- A write of map entry `i` of tile `t` (R121, R122): another valid entry of the bank with the same row loses VALID; a map-out
onto an unusable spare row of a bank with no free entry retires the tile. -/
def State.mapWrite (s : State) (t i v : Nat) : State :=
  let bank := i / 16
  let valid := bitsOf v 31 1 = 1
  let lost := valid ∧ s.flag F.TILE_MAP_RETIRED t i ∧ (s.mapFree t bank).isNone
  let s := if valid then (List.range 16).foldl (fun s k =>
      let j := 16 * bank + k
      if j ≠ i ∧ s.flag F.TILE_MAP_VALID t j ∧ s.fld F.TILE_MAP_LROW t j = v % 1024 then
        (s.setFld F.TILE_MAP_VALID 0 t j).mapRecord t j else s) s
    else s
  let s := s.setReg .TILE_MAP (bitsOf v 30 2 * 2 ^ 30 + v % 1024) t i
  let s := s.mapRecord t i
  if lost ∧ s.tState t ≠ tTest ∧ s.tState t ≠ tRetired then s.retireTile t 2 else s

/-- R121: a write of TILE_MAP entry `i` of tile `t`. -/
def execTileMapWrite (dt : Nat) (r : Requester) (t : Fin 1088) (i : Fin 256) (data : Word) (s : State) : Answer :=
  let s := s.tick dt
  .next (s.accessing r (regAddr .TILE_MAP t i) 4 data.toNat fun _ => s.mapWrite t i data.toNat)

end Sys2Proof.Machine
end

