-- ==== Sys2Proof/Machine/Crews.lean ====
section
/-! DEFINITION. A unit's lane, its crews and their results: noise fit (R80), tables (R98, R103), result rows (R91, R193, R212,
R213, R375), dispatch (R205 to R209, R220, R282, R302, R303), export rows (R215, R216). -/
namespace Sys2Proof.Machine

/-! ## The reference lane -/

/-- The first send queue of unit `u` whose head row still lacks its remote columns with 64 lines of the tap in the send
buffer (R216). -/
def State.haloLate (s : State) (u : Nat) : Option TapRow :=
  (s.refU u).sendQ.findSome? fun q =>
    match q.2 with
    | r :: _ =>
      if q.2.length < 64 then none
      else match s.connOfSeg u r.b r.part with
        | some c => match s.seg? c r.b r.part with
          | some g =>
            let set := s.slotSet u (g.slot.getD (s.refU u).cur)
            let ct := (s.chainGeo u).tapC (splFld set F.REF_SPLICE_SRC u (setFldIn set F.ING_STRIPE_CREW_SPLICE u q.1))
            if (s.stripeRow u q.1 set ct r.row (segNum r.b r.part) (r.n - g.first)).isNone then some r else none
          | none => none
        | none => none
    | [] => none

/-- Abort the segments whose remote columns are late (R216); `n` bounds how many. -/
def State.haloAbort (s : State) (u : Nat) : Nat → State
  | 0 => s
  | n + 1 => match s.haloLate u with
    | some r => (((s.setFld F.ING_SEAM_STAT_HALO_LATE 1 u).segAbort u r.b r.part 4).abortReport).haloAbort u n
    | none => s

/-- R75: a line leaves the reservoir into the reference lane of unit `u`. -/
def execChainLineStart (dt : Nat) (u : Fin 16) (s : State) : Answer :=
  .next (((s.tick dt).chainStep u).haloAbort u 64)

/-- An exact quotient rounded to the nearest integer, ties to even (R80). -/
def nearestEven (q : Rat) : Int :=
  let f := q.floor
  let d := q - f
  if d < 1 / 2 then f else if 1 / 2 < d then f + 1 else if f % 2 = 0 then f else f + 1

/-- A result of the fit in its field. -/
def fitField (w : Nat) (q : Rat) : Nat := (max 0 (min (2 ^ w - 1) (nearestEven q))).toNat

/-- Statistics register `k` of unit `u` (R105). -/
def State.refSt (s : State) (u k : Nat) : Nat := s.reg .REF_ST u k

/-- The points of the fit (R80): centre of the bin, and half its mean square difference. -/
def State.fitPoints (s : State) (u : Nat) : List (Rat × Rat) :=
  ((List.range 16).filter fun k => decide (16384 ≤ s.refSt u (4 + 2 * k))).map fun k =>
    (((4096 * k : Nat) : Rat) + 4095 / 2, ((s.refSt u (5 + 2 * k) : Nat) : Rat) / ((2 * s.refSt u (4 + 2 * k) : Nat) : Rat))

/-- Slope of the ordinary least-squares line with intercept. -/
def slopeOf (ps : List (Rat × Rat)) : Rat :=
  let n : Rat := ps.length
  let sx := (ps.map (·.1)).sum
  let sy := (ps.map (·.2)).sum
  (n * (ps.map fun p => p.1 * p.2).sum - sx * sy) / (n * (ps.map fun p => p.1 * p.1).sum - sx * sx)

/-- R80: firmware has a new set of statistics of unit `u`: it fits the noise model where the segment is confident, and checks
the hold limit. -/
def execNoiseFit (dt : Nat) (u : Fin 16) (s : State) : Answer :=
  let s := s.tick dt
  let u := u.val
  if s.mcUp ∧ bitsOf (s.pol 0x01) u 1 = 1 then
    let n := s.refSt u 1
    let ps := s.fitPoints u
    if 4096 ≤ n ∧ 3 ≤ ps.length then
      let mean : Rat := (s.refSt u 2 : Rat) / n
      let s := s.setFld F.REF_NM_GAIN_NM_BLACK (fitField 16 mean) u
      let s := s.setFld F.REF_NM_READ_NM_READ (fitField 32 ((s.refSt u 3 : Rat) / n - mean * mean)) u
      let s := s.setFld F.REF_NM_GAIN_NM_GAIN (fitField 16 (4096 * slopeOf ps)) u
      .next { s.setFld F.REF_CTRL_EST_HELD 0 u with noiseBase := mapSet 0 s.noiseBase u s.now }
    else if mapGet 0 s.noiseBase u + s.pol 0x02 * 1000000000 < s.now then
      .next (s.setFld F.REF_CTRL_EST_HELD 1 u)
    else .next s
  else .next s

/-- R96: a live slot has become free and the reference lane stops waiting for one. -/
def execRefSlotWaitEnd (dt : Nat) (u : Fin 16) (s : State) : Answer :=
  let s := (s.tick dt).refSets u
  if s.fld F.REF_SETS_SLOTS_USED u ≠ 7 then .next (s.setFld F.REF_SETS_WAITING 0 u) else .next s

/-- An access to REF_TAB_DATA (R98, R103): WORD increments, and a write to a busy bank is ignored and recorded. -/
def State.tabAccess (s : State) (r : Requester) (u : Nat) (wr : Option Nat) : State × Nat :=
  let b := s.fld F.REF_TAB_ADDR_BANK u
  let w := s.fld F.REF_TAB_ADDR_WORD u
  let i := 0x22000 * b + w
  let t := s.setFld F.REF_TAB_ADDR_WORD (if w = 0x21FFF then 0 else w + 1) u
  match wr with
  | none => (t, s.tabWord u i)
  | some v =>
    if s.bankBusy u b then (t.aelReg r (regAddr .REF_TAB_DATA u) 8 0 v, 0)
    else ({ t with refTab := mapSet (tabDefault (0x44000 * u + i)) t.refTab (0x44000 * u + i) (BitVec.ofNat 32 v)
                   refBad := mapSet false t.refBad (0x44000 * u + i) false }, 0)

/-- R98: a read or a write of REF_TAB_DATA. -/
def execRefTabDataAccess (dt : Nat) (r : Requester) (u : Fin 16) (wr : Option Word) (s : State) : Answer :=
  let s := s.tick dt
  let a := regAddr .REF_TAB_DATA u
  match s.access a 4 with
  | .error k =>
    let s := s.aelReg r a k 0 ((wr.map (·.toNat)).getD 0)
    .next (if wr.isNone then s.emit (.readData r 0) else s)
  | .ok _ =>
    let (s, d) := s.tabAccess r u (wr.map (·.toNat))
    .next (if wr.isNone then s.emit (.readData r d) else s)

/-! ## Result rows -/

/-- A returned element as the bridge narrows it (R193). -/
def narrow (b8 : Bool) (v : Int) : Nat := (max 0 (min (if b8 then 255 else 65535) v)).toNat

/-- The kept columns of a result row (R212): tap column and channels. -/
def trimRow (x0 : Int) (w hl hr osh c : Nat) (row : List Nat) : List (Nat × List Nat) :=
  ((List.range (row.length / max c 1)).filter fun x => decide (hl ≤ 2 ^ osh * x ∧ 2 ^ osh * x + hr < w)).map fun x =>
    ((x0 + (2 ^ osh * x : Nat)).toNat, (row.drop (x * c)).take c)

/-- One run of defect columns: first and last tap column, peak, class at the first column that holds it. -/
structure DefRun where
  x0 : Nat
  x1 : Nat
  peak : Nat
  cls : Nat
  deriving DecidableEq, Repr

/-- The maximal runs of columns whose score reaches the threshold (R375); `cur` is the run that the column before ended. -/
def defRuns (sc cc : Nat) (th : Int) : Option DefRun → List (Nat × List Nat) → List DefRun
  | cur, [] => cur.toList
  | cur, (x, v) :: r =>
    let p := v.getD sc 0
    if th ≤ (p : Int) then
      let run := match cur with
        | none => ⟨x, x, p, v.getD cc 0⟩
        | some d => if d.peak < p then ⟨d.x0, x, p, v.getD cc 0⟩ else { d with x1 := x }
      defRuns sc cc th (some run) r
    else cur.toList ++ defRuns sc cc th none r

/-- The payload of a DEFECT record (R374). -/
def defPayload (d : DefRun) (over_ : Bool) : List Byte :=
  leBytes d.x0 2 ++ leBytes d.x1 2 ++ leBytes d.peak 2 ++ leBytes d.cls 2 ++ leBytes (if over_ then 1 else 0) 1 ++ List.replicate 7 0

/-- The plan bank that unit `u` is dispatched from (R283 KIND 8). -/
def State.unitPkg (s : State) (u : Nat) : Option Pkg :=
  match mapGet 0 s.unitBank u with
  | 0 => none
  | b => some (s.bank (b - 1)).pkg

/-- The records of a full result row of splice entry `k` (R374, R375): its defects, at most 64, then its map row. -/
def State.rowRecords (s : State) (u c k : Nat) (o : OutLine) (st : Stamp) (ch : Nat) (b8 : Bool)
    (cols : List (Nat × List Nat)) : State :=
  let rec_ (type : Nat) (p : List Byte) : EgrRec := ⟨type, c, o.flags, k, st, p⟩
  let s := match (s.unitPkg u).bind fun p => p.splices.find? fun x => x.unit == u && x.k == k with
    | some ⟨_, _, _, some (sc, cc, th)⟩ =>
      let runs := defRuns sc cc th none cols
      ((runs.take 64).zipIdx).foldl (fun (s : State) (d : DefRun × Nat) =>
        s.egress (rec_ 1 (defPayload d.1 (d.2 == 63 && decide (64 < runs.length))))) s
    | _ => s
  let bytes := if b8 then 1 else 2
  let head := leBytes cols.length 2 ++ leBytes ch 2 ++ leBytes bytes 1
  let data : List Byte := cols.flatMap fun (x : Nat × List Nat) => x.2.flatMap fun v => leBytes v bytes
  s.egress (rec_ 5 (head ++ List.replicate (16 - head.length) 0 ++ data))

/-- A full result row enters the splice lane at tap RET (R91, R93): an 8-bit value widens. -/
def State.spliceIn (s : State) (u c k : Nat) (o : OutLine) (b8 : Bool) (cols : List (Nat × List Nat)) : State :=
  let g := s.chainGeo u
  let t := splFld (s.slotSet u o.slot) F.REF_SPLICE_RET u k
  let l := (cols.flatMap (·.2)).map fun v => if b8 then v * 257 else v
  if t < 4 then s.splHead u c o t (laneMajor g.d l) 3 else s.splTail u c o t l

/-- The line that a result row derives from, with the chain lines that its image covers. -/
def State.outLine (s : State) (c : Nat) (g : SegSt) (l : ResLine) (kil : Nat) (group : Bool) : OutLine :=
  let mine := (s.conn c).lines.filter fun x => g.is x.b x.part && (if group then x.n / kil == l.n / kil else x.id == l.id)
  let fl := mine.foldl (fun a x => a ||| x.tflags) 0
  ⟨l.id, l.n, l.b, l.part, g.slot.getD 0, mine.map (·.id),
   if group && g.closed && decide (mine.length < kil) then fl ||| 1024 else fl⟩

/-- Every stripe of a set has delivered a row (R213): its records are written, it counts as taken (R546), and it enters the splice
lane where the entry returns. -/
def State.rowWhole (s : State) (u c k : Nat) (g : SegSt) (l : ResLine) (r : RetRow) : State :=
  let set := s.slotSet u (g.slot.getD 0)
  let b8 := splFld set F.REF_SPLICE_RET8 u k == 1
  let ret := splFld set F.REF_SPLICE_RET u k
  let o := s.outLine c g l (s.chainGeo u).kil (decide (4 ≤ ret))
  let cols := sortBy (r.cols.flatMap (·.2)) fun a b => decide (a.1 ≤ b.1)
  let s := s.rowRecords u c k o ⟨segNum g.b g.part, l.line, l.pos, l.time⟩ r.c b8 cols
  let s := s.modSeg c g.b g.part fun x => { x with taken := max x.taken (l.n + 1) }
  if splReturns set u k then s.spliceIn u c k o b8 cols else s

/-- R91, R193, R212, R213: the crew of stripe entry `e` of unit `u` returns the row of line `n` of a segment, `ch` INT32
elements a column. A poisoned element aborts the task; a row of a segment on the hard shoulder is discarded; a crew 64 rows
ahead of the slowest of its set waits. -/
def execTapReturnRow (dt : Nat) (u : Fin 16) (e : Fin 64) (seg n ch : Nat) (row : List Int) (poison : Bool) (s : State) : Answer :=
  let s := s.tick dt
  let u := u.val; let e := e.val
  match (List.range 16).findSome? fun c => ((s.conn c).segs.find? fun g => g.unit == u && segNum g.b g.part == seg).map fun g => (c, g) with
  | none => .next s
  | some (c, g) =>
    if g.hs then .next s
    else if poison then .next (s.segAbort u g.b g.part 1).abortReport
    else match (s.conn c).lines.find? fun l => g.is l.b l.part && l.n == n with
    | none => .next s
    | some l =>
      let set := s.slotSet u (g.slot.getD 0)
      let k := setFldIn set F.ING_STRIPE_CREW_SPLICE u e
      let rows := mapGet [] (s.refU u).rets k
      let lead := (rows.filter fun r => r.cols.any fun q => q.1 == e).length
      if 64 ≤ lead then .next (s.setFld F.ING_SEAM_STAT_RET_WAITED 1 u)
      else
        let cut := trimRow (sext (setFldIn set F.ING_STRIPE_GEOM_X0 u e) 16) (setFldIn set F.ING_STRIPE_GEOM_W_M1 u e + 1)
          (setFldIn set F.ING_STRIPE_HALO_H_L u e) (setFldIn set F.ING_STRIPE_HALO_H_R u e)
          (setFldIn set F.ING_STRIPE_CREW_OSH u e) ch (row.map (narrow (splFld set F.REF_SPLICE_RET8 u k == 1)))
        let mine (r : RetRow) : Bool := decide (r.b = g.b ∧ r.part = g.part ∧ r.n = n)
        let old := (rows.find? mine).getD ⟨g.b, g.part, n, ch, []⟩
        let new := { old with cols := (old.cols.filter fun q => q.1 != e) ++ [(e, cut)] }
        let full := (crewEntries set u).all fun x => setFldIn set F.ING_STRIPE_CREW_SPLICE u x != k || new.cols.any fun q => q.1 == x
        let rows := if rows.any mine then rows.map fun r => if mine r then new else r else rows ++ [new]
        let rows := if full then rows.filter fun r => !mine r else rows
        let s := s.setRef u { s.refU u with rets := mapSet [] (s.refU u).rets k rows }
        .next ((if full then s.rowWhole u c k g l new else s).seamStat u)

/-! ## Dispatch -/

/-- The next segment of the crew of stripe entry `e` of unit `u`: the oldest with its set latched and its task not complete. -/
def State.nextSeg (s : State) (u e : Nat) : Option (Nat × SegSt) :=
  let all := (List.range 16).flatMap fun c => ((s.conn c).segs.filter fun g =>
    g.unit == u && g.slot.isSome && !g.hs && g.tasks.contains e).map fun g => (c, g)
  all.foldl (fun m q => match m with
    | none => some q
    | some p => if q.2.b < p.2.b ∨ (q.2.b = p.2.b ∧ q.2.part < p.2.part) then some q else m) none

/-- The layby tile with index `k` of RAS_DETOUR (R438). -/
def State.laybyTile (s : State) (k : Nat) : Nat := 32 * s.laybyCol (k / 32) + k % 32

/-- The layby tile that carries the work of tile `t`. -/
def State.detourOf (s : State) (t : Nat) : Option Nat :=
  ((List.range 64).find? fun k => s.flag F.RAS_DETOUR_VALID k && s.fld F.RAS_DETOUR_SLOW k == t).map s.laybyTile

/-- The tile that does the work of crew tile `t`: its detour, else itself as a substitution redirects it (R219, R425). -/
def State.workTile (s : State) (t : Nat) : Nat := (s.detourOf t).getD (s.subTile t)

/-- The participants of a crew in rank order (R206, R221). -/
def State.crewParts (s : State) (set : FMap DWord) (u e : Nat) : List Nat :=
  let (head, n) := crewSpan set u e
  let x := s.crew u e
  ((List.range n).filter fun i => !(x.nm1 && i == x.leftOut)).map fun i => s.workTile (head + i)

/-- The plan that a crew runs: its full plan, or its n − 1 plan (R206, R221). -/
def State.crewPkg (s : State) (u e : Nat) : Option PkgCrew :=
  (s.unitPkg u).bind fun p => p.crews.find? fun x => x.unit == u && x.entry == e
/-- See `crewPkg`. -/
def State.crewPlan (s : State) (u e : Nat) : Option PkgPlan :=
  (s.crewPkg u e).bind fun p => if (s.crew u e).nm1 then p.nm1 else some p.full

/-- The milestones of a run set (R282). -/
def runMs (rs : List (Nat × Nat × Nat)) : List Nat := rs.flatMap fun r => (List.range r.2.1).map fun i => r.1 + r.2.2 * i

/-- The index of a layby tile in RAS_DETOUR. -/
def State.laybyIdx (s : State) (t : Nat) : Option Nat := (List.range 64).find? fun k => s.laybyTile k == t

/-- A detour ends when its layby tile's DETOURED is cleared. -/
def State.detourCheck (s : State) (t : Nat) : State :=
  match s.laybyIdx t with
  | some k =>
    if s.flag F.TILE_RB_CFG_DETOURED t then s
    else if s.flag F.RAS_DETOUR_VALID k then
      ((s.setReg .RAS_DETOUR 0 k).repairPut (fun r => decide (r.kind = 5 ∧ r.a = t)) []).laybyFree
    else s.laybyFree
  | none => s

/-- A committed entry of a crew takes effect between two of its tasks (R209): a register write, the choice of the plan, or a
detour with every write of R219 and the crew's route and weights in its layby tile. -/
def State.crewEntry (s : State) (u e : Nat) (a : Act) : State :=
  match a with
  | .regWrite ad v m =>
    let s := s.maskWrite ad v m
    match findReg ad with
    | some h => if h.reg = .TILE_RB_CFG then s.detourCheck h.i else s
    | none => s
  | .plan _ _ nm1 out => s.setCrew u e { s.crew u e with nm1 := nm1, leftOut := out }
  | .detour layby fwd slow =>
    let s := s.setReg .TILE_RB_CFG (2 ^ 31 + s.fld F.TILE_RB_CFG_N_M1 slow * 2 ^ 16 + s.fld F.TILE_RB_CFG_MEMBER slow * 2 ^ 8 + 1) layby
    let s := s.setReg .TILE_RB_FWD (2 ^ 31 + layby) fwd
    let s := match s.laybyIdx layby with
      | some k => s.setReg .RAS_DETOUR (2 ^ 31 + slow * 2 ^ 16 + fwd) k
      | none => s
    let s := match s.crewPkg u e with
      | some c => s.loadTile layby c (s.fld F.TILE_RB_CFG_MEMBER slow)
      | none => s
    let s := s.repairPut (fun r => decide (r.kind = 5 ∧ r.a = layby)) [⟨5, layby, fwd, slow, 0⟩]
    (s.setCrew u e { s.crew u e with copyDue := true }).laybyFree
  | _ => s

/-- Apply the committed entries that a crew holds for the tasks of boundary `b` on (R209, R291), in commit order. -/
def State.crewApply (s : State) (u e : Nat) (b : Int) : State :=
  let es := sortBy (s.ents.filter fun x => decide (x.at_ = .crew u e ∧ x.phase = .held ∧ x.tag ≤ b))
    fun x y => decide (x.order ≤ y.order)
  if es.isEmpty then s else
  let s := es.foldl (fun s x => s.crewEntry u e x.act) s
  ({ s with ents := s.ents.filter fun x => !es.contains x } : State).txSettle

/-- Do arrivals of the crew's tiles stand on their way to the milestone unit (R282). -/
def State.crewFlying (s : State) (ts : List Nat) : Bool := s.arrFly.any fun a => ts.contains a.path

/-- The run reset (R282): COUNT 0, FIRED 0, TARGET STRIDE on every milestone of the run set. -/
def State.runReset (s : State) (ms : List Nat) : State :=
  ms.foldl (fun s m => ((s.setFld F.MS_COUNT_COUNT 0 m).setFld F.MS_CFG_FIRED 0 m).setFld F.MS_TARGET_TARGET
    (s.fld F.MS_CFG_STRIDE m) m) s

/-- Is the crew of a stripe entry held by RAS_HOLD (R417) or for a column substitution (R425). -/
def State.crewHeld (s : State) (u e : Nat) (set : FMap DWord) (b : Int) : Bool :=
  (List.range 4).any (fun h => s.flag F.RAS_HOLD_EN h && s.fld F.RAS_HOLD_UNIT h == u && s.fld F.RAS_HOLD_ENTRY h == e) ||
  (List.range 2).any fun k => s.fld F.RAS_SUBST_EN k != s.fld F.RAS_SUBST_ACTIVE k &&
    setFldIn set F.ING_STRIPE_CREW_COL u e == s.fld F.RAS_SUBST_COL k && decide (mapGet 0 s.substTag k ≤ b)

/-- The dispatch record and registers of a participant, which enters RUN (R130, R167, R302, R303). -/
def State.startTile (s : State) (t : Nat) (d : DispRec) : State :=
  let gs := [(1, d.rank), (2, d.npM1 + 1), (3, d.lines), (4, d.rlast), (5, d.firstLine), (6, d.seg % 2 ^ 32), (7, d.seg / 2 ^ 32)]
  let s := s.modTile t fun x =>
    { x with g := gs.foldl (fun m q => mapSet 0 m q.1 q.2) [], loops := [], groups := [], slots := [], convoy := none, disp := d }
  let s := ((s.setReg .TILE_MSE_SQ 0 t).setReg .TILE_MSE_CNT 0 t).rngLoad t
  (s.setTState t tRun).enterPc t 0

/-- Is every participant ready for a dispatch: IDLE, not in reset, its column open. -/
def State.partsReady (s : State) (ts : List Nat) : Bool :=
  ts.all fun t => s.tState t == tIdle && !(s.tile t).resetting && s.colOpen (tileCol t)

/-- What stands between a crew and its next dispatch, once its held entries are in force: the segment with its connection and set. -/
def State.readyCrew (s : State) (u e : Nat) : State × Option (Nat × SegSt × FMap DWord) :=
  match (s.crew u e).task, s.seq.entry, s.nextSeg u e with
  | none, none, some (c, g) =>
    let set := s.slotSet u (g.slot.getD 0)
    if s.ents.any fun x => decide (x.phase = .sent) then (s, none)
    else if s.crewHeld u e set g.b then (s.holdRefresh, none)
    else (s.crewApply u e g.b, some (c, g, set))
  | _, _, _ => (s, none)

/-- Start the run of a crew (R207, R282): the run reset and the row sequences of its row-bus segment. -/
def State.runStart (s : State) (u e : Nat) (parts : List Nat) (ms : List Nat) : State :=
  let s := s.runReset ms
  let keys := (parts.filter fun t => !s.flag F.TILE_RB_CFG_DETOURED t).map fun t => t - s.fld F.TILE_RB_CFG_MEMBER t
  let s : State := { s with busNext := keys.dedup.foldl (fun m h => mapClear (8 * h) (8 * h + 8) m) s.busNext }
  s.setCrew u e { s.crew u e with started := true, firstLine := 0, sent := 0 }

/-- The dispatch of a task (R208, R293, R302): `open_` is LINES of a segment that has not closed. -/
def State.dispatch (s : State) (u e open_ : Nat) : State :=
  match s.readyCrew u e with
  | (s, none) => s
  | (s, some (_, g, set)) =>
    if bitsOf (s.fld F.WAY_HOLD_UNITS) u 1 = 1 then
      ((s.segAbort u g.b g.part 1).tell (.taskAbort u e (segNum g.b g.part))).abortReport
    else
    let x := s.crew u e
    let parts := s.crewParts set u e
    match s.crewPlan u e with
    | none => s
    | some p =>
      let fresh := x.brk && !x.started
      if x.copyDue || !s.partsReady parts || (fresh && s.crewFlying parts) then s else
      let s := if fresh then s.runStart u e parts (runMs p.runSet) else s
      let x := s.crew u e
      let lines := if g.closed then g.next - g.first else open_
      let rlast := if g.closed ∧ g.short then (x.firstLine + lines + 2 ^ 32 - 1) % 2 ^ 32 else 2 ^ 32 - 1
      let s := parts.zipIdx.foldl (fun s q => s.startTile q.1
        ⟨p.base, p.words.length - 1, q.2, parts.length - 1, segNum g.b g.part, x.firstLine, lines, rlast⟩) s
      let s := s.setCrew u e { x with brk := false, started := false, firstLine := x.firstLine + lines,
                                      task := some ⟨g.b, g.part, parts, [], false⟩ }
      s.laybyFree.holdRefresh

/-- R302: the dispatcher starts the next task of the crew of stripe entry `e` of unit `u`. `lines`: the LINES that the
dispatcher states for a segment that has not closed. -/
def execTaskDispatch (dt : Nat) (u : Fin 16) (e : Fin 64) (lines : Fin 65537) (s : State) : Answer :=
  .next ((s.tick dt).dispatch u e lines)

/-- R282: the run reset before the first task of a run, once the crew is between tasks and every arrival of its tiles has been
received. -/
def execRunReset (dt : Nat) (u : Fin 16) (e : Fin 64) (s : State) : Answer :=
  let s := s.tick dt
  let u := u.val; let e := e.val
  match s.readyCrew u e with
  | (s, none) => .next s
  | (s, some (_, _, set)) =>
    let x := s.crew u e
    let parts := s.crewParts set u e
    match s.crewPlan u e with
    | some p =>
      if x.brk ∧ !x.started ∧ s.partsReady parts ∧ !s.crewFlying parts then .next (s.runStart u e parts (runMs p.runSet))
      else .next s
    | none => .next s

/-- Copy carried state from tile `a` to tile `b` (R220): the declared words, and the rings as they are configured and filled. -/
def State.carry (s : State) (a b : Nat) (rs : List (Bool × Nat × Nat)) : State :=
  let s := rs.foldl (fun s r => s.writeWs b r.1 r.2.1 (s.readWs a r.1 r.2.1 r.2.2)) s
  s.modTile b fun x => { x with rings := (s.tile a).rings }

/-- R220: the copy of carried state to the layby tiles of a crew completes, and the held task is dispatched. -/
def execDetourCopyComplete (dt : Nat) (u : Fin 16) (e : Fin 64) (lines : Fin 65537) (s : State) : Answer :=
  let s := s.tick dt
  let u := u.val; let e := e.val
  let x := s.crew u e
  match s.nextSeg u e with
  | some (_, g) =>
    if x.copyDue ∧ x.task.isNone then
      let (head, n) := crewSpan (s.slotSet u (g.slot.getD 0)) u e
      let rs := ((s.crewPkg u e).map (·.carried)).getD []
      let s := (List.range 64).foldl (fun s k =>
        if s.flag F.RAS_DETOUR_VALID k ∧ head ≤ s.fld F.RAS_DETOUR_SLOW k ∧ s.fld F.RAS_DETOUR_SLOW k < head + n then
          s.carry (s.fld F.RAS_DETOUR_FWD k) (s.laybyTile k) rs
        else s) s
      .next ((s.setCrew u e { s.crew u e with copyDue := false }).dispatch u e lines)
    else .next s
  | none => .next s

/-! ## Seams -/

/-- R213: the slowest send cursor of unit `u` has advanced and the reference lane stops waiting. -/
def execSeamSendWaitEnd (dt : Nat) (u : Fin 16) (s : State) : Answer :=
  let s := s.tick dt
  if (s.refU u).sendWait ∧ !s.sendFull u then .next ((s.setRef u { s.refU u with sendWait := false }).seamStat u)
  else .next s

/-- An export row arrives on a junction port (R215): kept for the stripe rows that need it, discarded where its line's segment
is on the hard shoulder (R216). -/
def State.exportIn (s : State) (port splice seg idx : Nat) (row : List Nat) : State :=
  let dead := (List.range 16).any fun c => (s.conn c).segs.any fun g => g.hs && segNum g.b g.part == seg
  if dead then s else { s with exports := s.exports ++ [⟨port, splice, seg, idx, row⟩] }

/-- R215: an export row has been received on a junction port. -/
def execExportRowReceived (dt : Nat) (port : Fin 4) (splice : Fin 4) (seg idx : Nat) (row : List (Fin 65536)) (s : State) : Answer :=
  let s := s.tick dt
  if s.jctActive port then .next (s.exportIn port splice seg idx (row.map (·.val))) else .next s

end Sys2Proof.Machine
end

