-- ==== Sys2Proof/Machine/Ms.lean ====
section
/-! DEFINITION. Commit of a transaction (R289, R290, R293) and the milestone unit (R276 to R281, R299). -/
namespace Sys2Proof.Machine

/-! ## Commit -/

/-- The number of the boundary that follows the device's current one (R290). -/
def State.nextB (s : State) : Int := match s.segB with | some b => b + 1 | none => s.segBase

/-- A PREPARED transaction reaches its commit point (R289 to R291): its entries are committed, in the order of the commits, with
the tag of the boundary, and the commit signal sets out. -/
def State.txCommit (s : State) (t : Nat) : State :=
  let b := match s.fld F.WAY_TX_STAT_POINT t, s.segB with
    | 1, some b => b
    | _, _ => s.nextB
  let o := s.orderNext
  let s : State := { s with
    ents := s.ents.map fun e => if e.tx = t then { e with phase := .sent, tag := b, order := o } else e
    orderNext := o + 1
    waiters := s.waiters.filter fun w => decide (w.by_ ≠ WaitBy.commit t) }
  ((s.setTx t { s.tx t with commitTime := s.now, boundary := b }).setFld F.WAY_TX_STAT_STATE 4 t).wayStates t 3

/-- The PREPARED transactions that a test selects, in the order in which they became PREPARED (R290). -/
def State.preparedTxs (s : State) (p : Nat → Bool) : List Nat :=
  sortBy ((List.range 64).filter fun t => s.txState t == 3 && p t) fun a b => decide ((s.tx a).order ≤ (s.tx b).order)

/-- Is the SEGMENT commit point of transaction `t` at boundary `b` or below (R290). -/
def State.pointDue (s : State) (t : Nat) (b : Int) : Bool :=
  s.fld F.WAY_TX_STAT_POINT t == 1 && decide (sext (s.fld F.WAY_TX_POINT_POINT_ARG t) 56 ≤ b)

/-- A device segment boundary opens (R289, R290, R296): PREPARED transactions due commit, a system part without GO ends with
TX_NO_GO, and one that is still PREPARING ends with TX_LATE. -/
def State.txBoundary (s : State) (b : Int) : State :=
  let late := (List.range 64).filter fun t => s.txState t == 2 && s.pointDue t b
  let s := (s.preparedTxs fun t => s.pointDue t b).foldl (fun s t =>
    let x := s.tx t
    if (x.coord || x.peer.isSome) && !x.go then s.txEnd t 0x0506 else s.txCommit t) s
  late.foldl (fun s t => s.txEnd t 0x0504) s

/-! ## Milestones -/

/-- Times that a reached milestone fires before its target is ahead again: once per target crossed (R278). -/
def fireCount (count target stride : Nat) : Nat :=
  if stride = 0 then 1 else ((count + 2 ^ 32 - target % 2 ^ 32) % 2 ^ 32) / stride + 1

/-- The milestone fires (R278). -/
def State.msFire (s : State) (m : Nat) : State :=
  let st := s.fld F.MS_CFG_STRIDE m
  let k := fireCount (s.fld F.MS_COUNT_COUNT m) (s.fld F.MS_TARGET_TARGET m) st
  let s := s.setFld F.MS_CFG_FIRED 1 m
  let s := if s.flag F.MS_CFG_EVT m then s.pulse (.milestone m) k else s
  s.setFld F.MS_TARGET_TARGET (s.fld F.MS_TARGET_TARGET m + k * st) m

/-- A waiter is released (R277, R280): a commit point commits, a tile goes on with its word, a command replies. -/
def State.release1 (s : State) (w : Waiter) : State :=
  match w.by_ with
  | .commit t => if s.txState t = 3 then s.txCommit t else s
  | .tile t =>
    let s : State := { s with waiters := s.waiters.filter fun x => decide (x.by_ ≠ .tile t) }
    let s := s.modTile t fun x => { x with passed := true }
    if s.tState t = tWait then s.setTState t tRun else s
  | .cmd h _ =>
    ({ s with waiters := s.waiters.filter fun x => decide (x ≠ w) } : State).reply h 0 [s.fld F.MS_COUNT_COUNT w.m]

/-- Release everyone whom milestone `m` has reached: commit points in the order they became PREPARED, then the others in the
order they began to wait (R280, R290). -/
def State.msRelease (s : State) (m : Nat) : State :=
  let ws := s.waiters.filter fun w => w.m == m && s.msReached m w.t
  let cs := sortBy (ws.filterMap fun w => match w.by_ with | .commit t => some (t, w) | _ => none)
    fun a b => decide ((s.tx a.1).order ≤ (s.tx b.1).order)
  let rest := ws.filter fun w => match w.by_ with | .commit _ => false | _ => true
  (cs.map (·.2) ++ rest).foldl (fun s w => s.release1 w) s

/-- An operation on a milestone, then one evaluation (R278, R281): it fires where it becomes reached for TARGET. -/
def State.msApply (s : State) (m : Nat) (f : State → State) : State :=
  let before := s.msReached m (s.fld F.MS_TARGET_TARGET m)
  let s := f s
  let s := if !before && s.msReached m (s.fld F.MS_TARGET_TARGET m) then s.msFire m else s
  s.msRelease m

/-- ARRIVE `n` (R277, R279): an arrival at a FREE milestone is applied and counted as stray; 0 does nothing. -/
def State.msArrive (s : State) (m n : Nat) : State :=
  if n = 0 then s else
  let s := if s.fld F.MS_CFG_OWNER m = 0 then s.inc F.MS_STAT_STRAY else s
  s.msApply m fun s => s.setFld F.MS_COUNT_COUNT (s.fld F.MS_COUNT_COUNT m + n) m

/-- The milestone unit has received an arrival of a path (R297 invariant 4). -/
def State.arrGot (s : State) (path m : Nat) : State :=
  let l := mapGet [] s.arrMs path
  { s with arrRecv := mapUpd 0 s.arrRecv path (· + 1)
           arrMs := if l.contains m then s.arrMs else mapSet [] s.arrMs path (l ++ [m]) }

/-- An arrival of a sender whose path does not cross the sideband, counted as sent and received (R280, R543). -/
def State.msArriveBy (s : State) (path m n : Nat) : State :=
  (({ s with arrSent := mapUpd 0 s.arrSent path (· + 1) } : State).arrGot path m).msArrive m n

/-- SET (R277): the given fields are written, and FIRED is cleared. -/
def State.msSet (s : State) (m : Nat) (count target stride evt : Option Nat) : State :=
  s.msApply m fun s =>
    let put (s : State) (f : Fld) (v : Option Nat) : State := match v with | some v => s.setFld f v m | none => s
    (put (put (put (put s F.MS_COUNT_COUNT count) F.MS_TARGET_TARGET target) F.MS_CFG_STRIDE stride) F.MS_CFG_EVT evt).setFld
      F.MS_CFG_FIRED 0 m

/-- ADVANCE (R277). -/
def State.msAdvance (s : State) (m : Nat) : State :=
  s.msApply m fun s => s.setFld F.MS_TARGET_TARGET (s.fld F.MS_TARGET_TARGET m + s.fld F.MS_CFG_STRIDE m) m

/-- May a requester use SET and ADVANCE on milestone `m` (R277, R279). -/
def State.msMay (s : State) (m : Nat) (mc host : Bool) : Bool := mc || (host && s.fld F.MS_CFG_OWNER m == 1)

/-- R280: the oldest arrival of a path reaches the milestone unit. -/
def execMsArrivalApply (dt : Nat) (path : Fin 1100) (s : State) : Answer :=
  let s := s.tick dt
  match s.arrFly.find? fun a => a.path == path.val with
  | some a =>
    let s : State := { s with arrFly := s.arrFly.eraseP fun a => a.path == path.val }
    .next ((s.arrGot path.val a.m).msArrive a.m a.n)
  | none => .next s

/-! ## Milestone registers -/

/-- A write of MS_COUNT, MS_TARGET or MS_CFG of milestone `m` by a requester (R279, R299). -/
def State.msRegWrite (s : State) (r : Requester) (reg : Reg) (m v : Nat) : State :=
  if s.msMay m (decide (r = .mc)) (fromHost r) then
    match reg with
    | .MS_COUNT => s.msSet m (some v) none none none
    | .MS_TARGET => s.msSet m none (some v) none none
    | _ => s.msSet m none none (some (v % 2 ^ 16)) (some (bitsOf v 27 1))
  else (s.aelReg r (regAddr reg m) 7 0x0501 v).inc F.MS_STAT_NOT_OWNER

/-- Which register of a milestone. -/
def msReg (k : Fin 3) : Reg := if k.val = 0 then .MS_COUNT else if k.val = 1 then .MS_TARGET else .MS_CFG

/-- R299: a write of MS_COUNT (0), MS_TARGET (1) or MS_CFG (2) of milestone `m`. -/
def execMsRegisterSet (dt : Nat) (r : Requester) (k : Fin 3) (m : Fin 16384) (v : Word) (s : State) : Answer :=
  let s := s.tick dt
  .next (s.accessing r (regAddr (msReg k) m) 4 v.toNat fun _ => s.msRegWrite r (msReg k) m v.toNat)

/-- The path of a register ARRIVE: the MC's, else the host's; a DMA channel's comes on the DMA path. -/
def arrivePath : Requester → Nat
  | .mc => 1099
  | .dma _ => 1088
  | _ => 1098

/-- R299: a write of MS_ARRIVE. -/
def execMsArriveWrite (dt : Nat) (r : Requester) (m : Fin 16384) (v : Word) (s : State) : Answer :=
  let s := s.tick dt
  .next (s.accessing r (regAddr .MS_ARRIVE_REG m) 4 v.toNat fun _ => s.msArriveBy (arrivePath r) m (v.toNat % 2 ^ 16))

end Sys2Proof.Machine
end

