-- ==== Sys2Proof/Machine/Lines.lean ====
section
/-! DEFINITION. From trigger to reservoir (R49 to R52, R63 to R69, R72, R73): device segment boundaries, steering, the matching of
lines to triggers, missing lines. -/
namespace Sys2Proof.Machine

/-- Device time is flagged unsynchronised (R71, R383). -/
def State.timeUnsync (s : State) : Bool :=
  (s.flag F.NET_PTP_CFG_EN && s.fld F.NET_PTP_STAT_STATE != 3) || s.fld F.CLK_STAT_REF == 2

/-! ## Boundary numbers -/

/-- SEG_LINES (R66). -/
def State.segSize (s : State) : Nat := s.fld F.ODO_SEG_CFG_LINES_M1 + 1

/-- b of a reference line under the first counting of a list that it belongs to, newest first (R66). -/
def boundaryIn (n : Int) : List (Int × Int × Nat) → Int
  | [] => 0
  | [(line, num, k)] => num + (n - line) / (k : Int)
  | (line, num, k) :: r => if line ≤ n then num + (n - line) / (k : Int) else boundaryIn n r

/-- The boundary number of reference line `n` (R66): lines before BASE_LINE are counted as they were. -/
def State.boundaryOf (s : State) (n : Int) : Int := boundaryIn n ((s.segLine, s.segBase, s.segSize) :: s.segOld)

/-- The boundary number of line `i` of generator `g` (R66). -/
def State.lineB (s : State) (g i : Nat) : Int :=
  let r := s.fld F.ODO_SEG_CFG_REFGEN
  if g = r then s.boundaryOf i
  else s.boundaryOf (i * s.fld F.ODO_TG_PITCH_PITCH g / max 1 (s.fld F.ODO_TG_PITCH_PITCH r) : Nat)

/-- A committed LINES_M1 takes effect at its commit boundary (R66). -/
def State.newSegLines (s : State) (b n : Int) (v : Nat) : State :=
  let s : State := { s with segOld := (s.segLine, s.segBase, s.segSize) :: s.segOld, segLine := n, segBase := b }
  s.setFld F.ODO_SEG_CFG_LINES_M1 v

/-! ## Steering and boundaries -/

/-- A steering action takes effect at boundary `b` (R51, R74): the unit serves lines from `b` on, CAP_LINES counts. -/
def State.steerTo (s : State) (c u : Nat) (b : Int) : State :=
  let x := s.conn c
  let old := if s.flag F.ING_CONN_CFG_STEERED c then some (s.fld F.ING_CONN_CFG_UNIT c, b) else none
  let s := s.setConn c { x with was := old, cap := s.fld F.ING_RES_CFG_CAP_LINES c }
  (s.setFld F.ING_CONN_CFG_UNIT u c).setFld F.ING_CONN_CFG_STEERED 1 c

/-- A steered READY connection becomes RUNNING at a device segment boundary (R49). -/
def State.runConns (s : State) : State :=
  (List.range 16).foldl (fun s c =>
    if s.fld F.ING_CONN_CFG_STATE c = 2 ∧ s.fld F.ING_CONN_CFG_STEERED c = 1 then
      (s.setFld F.ING_CONN_CFG_STATE 3 c).setConn c { s.conn c with runSince := some s.now }
    else s) s

/-- A trigger generator that has not run. -/
def gen0 : TrigGen := ⟨0, none, none, 0, 0, 0, 0⟩
/-- Trigger generator `g`. -/
def State.trigGen (s : State) (g : Nat) : TrigGen := mapGet gen0 s.gens g
/-- Store trigger generator `g`. -/
def State.setTrigGen (s : State) (g : Nat) (x : TrigGen) : State := { s with gens := mapSet gen0 s.gens g x }

/-- The committed entries that wait for a device segment boundary take effect (R51, R66, R291). -/
def State.boundaryEnts (s : State) (b n : Int) : State :=
  let due (e : Entry) : Bool := e.phase != .placed && (match e.at_ with | .boundary _ => true | .segCfg => true | _ => false)
  let es := sortBy (s.ents.filter due) fun x y => decide (x.order ≤ y.order)
  let s : State := { s with ents := s.ents.filter fun e => !due e }
  (es.foldl (fun s e => match e.act with
    | .steer c u => s.steerTo c u b
    | .regWrite _ v m => s.newSegLines b n (maskWord (s.reg .ODO_SEG_CFG) 0 v m % 2 ^ 16)
    | _ => s) s).txSettle

/-- A device segment boundary (R67): its number, the commits that it brings, what takes effect at it, the targets of the
generators. -/
def State.deviceBoundary (s : State) (b n : Int) : State :=
  let s : State := { s with segB := some b }
  let s := (((s.setReg .ODO_SEG_NUM (segNum b 0)).txBoundary b).boundaryEnts b n).runConns
  (List.range 16).foldl (fun s g => s.setTrigGen g { s.trigGen g with targets := s.fld F.ODO_TG_CFG_TARGETS g }) s

/-! ## Reservoir -/

/-- Does connection `c` carry frames (R47, R69). -/
def State.areaScan (s : State) (c : Nat) : Bool := !s.flag F.ING_CONN_CAPS_LINESCAN c

/-- The oldest segment whose tasks have not completed is aborted when an arriving line would leave fewer than SEG_LINES lines
free (R73). -/
def State.overflow (s : State) (c : Nat) : State :=
  let x := s.conn c
  if x.cap < x.lines.length + 1 + s.segSize then
    match x.segs.find? fun g => !g.hs && !g.tasks.isEmpty with
    | some g => (s.segAbort g.unit g.b g.part 3).setFld F.ING_RES_STAT_OVF 1 c
    | none => s
  else s

/-- Line flags as a line enters the reservoir (R102). -/
def Trig.flags (t : Trig) (missing : Bool) : Nat :=
  (if missing then 2 else 0) + (if t.suspect then 8 else 0) + (if t.unsync then 256 else 0)

/-- Store one line in the reservoir, in its segment (R52, R67, R72). -/
def State.storeRow (s : State) (c : Nat) (t : Trig) (n : Nat) (missing : Bool) (row : List Nat) : State :=
  let s := (s.overflow c).joinSeg c t.b n
  match s.openSeg c with
  | none => s
  | some g =>
    let x := s.conn c
    let l : ResLine := ⟨x.nextId, n, t.n, g.b, g.part, t.pos, t.time, t.flags missing, row, false, false, 0, false, 0⟩
    let s := s.setConn c { x with lines := x.lines ++ [l], nextId := x.nextId + 1, lastLine := s.now }
    (s.modSeg c g.b g.part fun g => { g with next := n + 1 }).resStat c

/-- Store what a trigger brought: a line, or the rows of a frame, which is a segment of its own (R69). -/
def State.storeLine (s : State) (c : Nat) (t : Trig) (missing : Bool) (rows : List (List Nat)) : State :=
  let s := if s.areaScan c then
      (rows.foldl (fun s r => s.storeRow c t (s.conn c).nextId missing r) s).closeSeg c false
    else s.storeRow c t t.n missing (rows.headD [])
  s.setConn c { s.conn c with prev := some rows.flatten }

/-- Values of a line that no earlier line gives: the spec states none. -/
def State.freeRow (s : State) : Nat → State × List Nat
  | 0 => (s, [])
  | n + 1 => let (t, r) := s.useFree.freeRow n; (t, s.free % 2 ^ 16 :: r)

/-- Width of a row as it is stored (R75). -/
def State.rowWidth (s : State) (c : Nat) : Nat :=
  let w := (s.conn c).width
  if s.areaScan c ∧ s.fld F.REF_GEOM_BAYER (s.fld F.ING_CONN_CFG_UNIT c) ≠ 0 then 2 * w else w

/-- A list cut into pieces of `w`. -/
def cutRows (w : Nat) (l : List Nat) : Nat → List (List Nat)
  | 0 => []
  | n + 1 => if l.isEmpty then [] else l.take w :: cutRows w (l.drop w) n

/-- A missing line is delivered as a copy of the previous one, and counted (R52, R53). -/
def State.missLine (s : State) (c : Nat) (t : Trig) (count : Bool) : State :=
  let s := if count then s.inc F.ING_CONN_CNT_MISSING c else s
  match (s.conn c).prev with
  | some l =>
    let w := max 1 (s.rowWidth c)
    s.storeLine c t true (if s.areaScan c then cutRows w l l.length else [l])
  | none => let (s, r) := s.freeRow (s.rowWidth c); s.storeLine c t true [r]

/-- Lines missed under MINPER_NS take their place as soon as no earlier trigger waits (R52, R63); `n` bounds how many. -/
def State.missedHead (s : State) (c : Nat) : Nat → State
  | 0 => s
  | n + 1 =>
    match (s.conn c).trigs with
    | t :: ts =>
      if t.missed then ((s.setConn c { s.conn c with trigs := ts }).missLine c t false).missedHead c n else s
    | [] => s

/-- Triggers that were fired before the one to match become missing lines, in order (R49, R52). -/
def State.missBefore (s : State) (c : Nat) : List Trig → State
  | [] => s
  | t :: ts => (s.missLine c t (!t.missed)).missBefore c ts

/-- A complete line of connection `c` (R52): matched to the oldest trigger fired since the connection became RUNNING, or
discarded as spurious. -/
def State.lineIn (s : State) (c : Nat) (rows : List (List Nat)) : State :=
  if !s.flag F.ING_CONN_CFG_STEERED c then s else
  let x := s.conn c
  let ok (t : Trig) : Bool := !t.missed && (match x.runSince with | some r => decide (r ≤ t.time) | none => false)
  let before := x.trigs.takeWhile fun t => !ok t
  match x.trigs.drop before.length with
  | [] => s.inc F.ING_CONN_CNT_SPURIOUS c
  | t :: ts =>
    let s := (s.setConn c { x with trigs := ts }).missBefore c before
    (s.storeLine c t false rows).missedHead c ts.length

/-- The master link of connection `c`, none where it has no links. -/
def State.masterLink (s : State) (c : Nat) : Option Nat := (s.conn c).links.head?

/-- The trigger of a line leaves towards connection `c` (R64, R391). -/
def State.sendTrigger (s : State) (c : Nat) : State :=
  if (s.conn c).gv then
    s.emit (.action (s.fld F.NET_GV_CFG_PORT c) (s.fld F.NET_GV_SRC_CAMERA c) (s.fld F.NET_GV_ACT_DEVICE_KEY c)
      (s.fld F.NET_GV_ACT_GROUP_KEY c) 0xFFFFFFFF (s.now + s.fld F.NET_GV_LEAD_LEAD_NS))
  else match s.masterLink c with
    | some l => s.emit (.cxp l (.trigger s.now))
    | none => s

/-- A line of a generator reaches a target connection: triggered or missed (R52, R63). -/
def State.trigTo (s : State) (c : Nat) (t : Trig) : State :=
  let s := if t.missed then s.inc F.ING_CONN_CNT_MISSING c else s.sendTrigger c
  if s.flag F.ING_CONN_CFG_STEERED c then
    let ts := (s.conn c).trigs ++ [t]
    (s.setConn c { s.conn c with trigs := ts }).missedHead c ts.length
  else s

/-- The connections of a target mask. -/
def targetsOf (m : Nat) : List Nat := (List.range 16).filter fun c => bitsOf m c 1 == 1

/-- θ(i) of generator `g` (R63). -/
def State.theta (s : State) (g i : Nat) : Int :=
  i * s.fld F.ODO_TG_PITCH_PITCH g + 256 * sext (s.fld F.ODO_TG_OFFSET_OFFSET g) 32

/-- An odometer before its first edge. -/
def odo0 : Odo := ⟨false, false, none, 0, [], false, none, false, 0, true⟩
/-- Odometer `u`. -/
def State.odo (s : State) (u : Nat) : Odo := mapGet odo0 s.odos u
/-- Store odometer `u`. -/
def State.setOdo (s : State) (u : Nat) (x : Odo) : State := { s with odos := mapSet odo0 s.odos u x }
/-- ODO_POS of odometer `u`. -/
def State.odoPos (s : State) (u : Nat) : Int := sext (s.fld F.ODO_POS_POS u) 64

/-- emit(i, t) of R63 for the next line of generator `g`: the boundary that a first reference line opens, then the trigger or
the missed line on each target. -/
def State.emitLine (s : State) (g : Nat) : State :=
  let x := s.trigGen g
  let i := x.n
  let b := s.lineB g i
  let s := if g = s.fld F.ODO_SEG_CFG_REFGEN ∧ s.segB ≠ some b then s.deviceBoundary b i else s
  let missed := match x.last with
    | some l => decide (s.now - l < s.fld F.ODO_TG_MINPER_MINPER_NS g)
    | none => false
  let t : Trig := ⟨i, s.theta g i, s.now, b, missed, (s.odo (s.fld F.ODO_TG_CFG_ODO g)).suspect, s.timeUnsync⟩
  let y := s.trigGen g
  let s := s.setTrigGen g { y with n := i + 1, last := if missed then y.last else some s.now }
  (targetsOf y.targets).foldl (fun s c => s.trigTo c t) s

/-- Emit the next `k` lines of generator `g`. -/
def State.emitLines (s : State) (g : Nat) : Nat → State
  | 0 => s
  | k + 1 => (s.emitLine g).emitLines g k

/-- The smallest line whose threshold lies above a position in 1/65,536 edge (R63). -/
def State.firstLine (s : State) (g : Nat) (p : Int) : Nat :=
  let o := 256 * sext (s.fld F.ODO_TG_OFFSET_OFFSET g) 32
  if p < o then 0 else ((p - o) / (max 1 (s.fld F.ODO_TG_PITCH_PITCH g) : Nat)).toNat + 1

/-- plan() of R63. -/
def State.planLine (s : State) (g : Nat) : State :=
  let x := s.trigGen g
  let f := s.theta g x.n - x.pEdge * 65536
  let plan := if f < 65536 ∧ 0 < x.dt ∧ x.dt ≤ 1000000 then some (max s.now (x.tEdge + (f * x.dt / 65536).toNat)) else none
  s.setTrigGen g { x with plan := plan }

end Sys2Proof.Machine
end

