-- ==== Sys2Proof/Machine/Camera.lean ====
section
/-! DEFINITION. CoaXPress links and connections (R44 to R57): discovery, the control channel, lines, cable measurement. -/
namespace Sys2Proof.Machine

/-- A link that nothing holds. -/
def link0 : Link := ⟨none, none, false⟩
/-- Link `l`. -/
def State.link (s : State) (l : Nat) : Link := mapGet link0 s.links l
/-- Store link `l`. -/
def State.setLink (s : State) (l : Nat) (x : Link) : State := { s with links := mapSet link0 s.links l x }

/-- ING_CONN_CFG.STATE of connection `c`: 0 ABSENT, 1 DISCOVERING, 2 READY, 3 RUNNING, 4 MISWIRED, 5 FAILED, 6 REFUSED. -/
def State.connState (s : State) (c : Nat) : Nat := s.fld F.ING_CONN_CFG_STATE c
/-- Set the state of connection `c`. -/
def State.setConnState (s : State) (c v : Nat) : State := s.setFld F.ING_CONN_CFG_STATE v c

/-- Send something on the master link of connection `c`. -/
def State.toCamera (s : State) (c : Nat) (m : CxpOut) : State :=
  match s.masterLink c with
  | some l => s.emit (.cxp l m)
  | none => s

/-- A link detects a signal only with a termination and a driver that are calibrated or FLAGGED (R516). -/
def State.linkCal (s : State) (l : Nat) : Bool :=
  [0, 1].all fun item => let x := s.calInst (calKey item (36 + l)); x.lastT.isSome || x.flagged

/-- Discovery of a whole connection begins again from the bootstrap registers (R49): its open segment closes short (R68). -/
def State.rediscover (s : State) (c : Nat) : State :=
  let s := (s.closeSeg c true).setConnState c 1
  let x := s.conn c
  (s.setConn c { x with step := .boot 0 [], tries := 0, runSince := none, stream := none }).toCamera c (.read 0)

/-- R45, R49, R516: a link detects a signal. -/
def execLinkSignalDetect (dt : Nat) (l : Fin 64) (s : State) : Answer :=
  let s := s.tick dt
  if !s.linkCal l then .next s else
  match (s.link l).conn with
  | none => .next ((s.setLink l { s.link l with disc := some ⟨0, 0, []⟩ }).emit (.cxp l (.read 0)))
  | some c => if 4 ≤ s.connState c ∧ s.connState c ≤ 6 then .next (s.rediscover c) else .next s

/-- The lowest connection number that nothing holds (R45). -/
def State.freeConn (s : State) : Option Nat :=
  (List.range 16).find? fun c => s.connState c == 0 && !s.flag F.NET_GV_CFG_EN c

/-- Are links consecutive, in order. -/
def consecutive : List Nat → Bool
  | a :: b :: r => decide (b = a + 1) && consecutive (b :: r)
  | _ => true

/-- Step 4 of R45: the partner's capabilities are written, and the pixel format register is read. The values are those of the
bootstrap registers in the order of step 2; the last one is decoded as SPEEDS in [6:0], TAGGED, EVENTS and LINESCAN in [9:7]. -/
def State.capsStep (s : State) (c : Nat) (vals : List Nat) : State :=
  let v := vals.getD 4 0
  let s := (s.setFld F.ING_CONN_CAPS_STD_VER (vals.getD 0 0) c).setFld F.ING_CONN_CAPS_MAX_LINKS (vals.getD 3 0) c
  let s := (s.setFld F.ING_CONN_CAPS_SPEEDS (bitsOf v 0 7) c).setFld F.ING_CONN_CAPS_TAGGED (bitsOf v 7 1) c
  let s := (s.setFld F.ING_CONN_CAPS_EVENTS (bitsOf v 8 1) c).setFld F.ING_CONN_CAPS_LINESCAN (bitsOf v 9 1) c
  (s.setConn c { s.conn c with step := .pixfmt, tries := 0 }).toCamera c (.read 5)

/-- Are the links of a connection wired as R45 step 3 asks: consecutive, with the master lowest. -/
def wiredOk (links vals : List Nat) : Bool := consecutive links && decide (links.head? = vals[2]?)

/-- Step 3 of R45 for links that have answered: they become one connection, MISWIRED where they are out of order. -/
def State.groupLinks (s : State) (links : List Nat) (vals : List Nat) : State :=
  let s := links.foldl (fun s l => s.setLink l { s.link l with disc := none }) s
  match s.freeConn with
  | none => s
  | some c =>
    let s := links.foldl (fun s l => s.setLink l { s.link l with conn := some c }) s
    let s := s.setConn c { conn0 with links := links }
    let s := (s.setFld F.ING_CONN_CFG_NLINKS links.length c).setFld F.ING_CONN_CFG_FIRST_LINK (links.headD 0) c
    if wiredOk links vals then (s.setConnState c 1).capsStep c vals else s.setConnState c 4

/-- A bootstrap register value arrives on a link that no connection holds (R45 step 2). `group` names the links of one device
connection ID that the device groups now, each of which has answered. -/
def State.linkReply (s : State) (l v : Nat) (group : List Nat) : State :=
  match (s.link l).disc with
  | none => s
  | some d =>
    let vals := d.vals ++ [v]
    let s := s.setLink l { s.link l with disc := some ⟨d.txn + 1, 0, vals⟩ }
    if d.txn < 4 then s.emit (.cxp l (.read (d.txn + 1)))
    else
      let done (k : Nat) : Bool := match (s.link k).disc with
        | some e => decide (5 ≤ e.vals.length ∧ e.vals[1]? = vals[1]?)
        | none => false
      if group.contains l ∧ group.all done then s.groupLinks (sortBy group fun a b => decide (a ≤ b)) vals else s

/-- The highest SPEED code of a mask (R45 step 5). -/
def topSpeed (m : Nat) : Nat := ((List.range 7).filter fun k => bitsOf m k 1 == 1).foldl (fun _ k => k + 1) 1

/-- The pixel format arrives (R45 steps 4 and 5, R48). -/
def State.pixfmtReply (s : State) (c v : Nat) : State :=
  let s := s.setFld F.ING_CONN_PIXFMT_PFNC v c
  match pfncDepth v with
  | none => ((s.setConnState c 6).setConn c { s.conn c with step := .none, refusal := 0x0108 }).tell (.note 10 c)
  | some _ =>
    let sp := topSpeed (s.fld F.ING_CONN_CAPS_SPEEDS c)
    let n := min (s.conn c).links.length (min 8 (max 1 (s.fld F.ING_CONN_CAPS_MAX_LINKS c)))
    let s := (s.setFld F.ING_CONN_CFG_SPEED sp c).setFld F.ING_CONN_CFG_NLINKS n c
    (s.setConn c { s.conn c with step := .config, tries := 0 }).toCamera c (.config sp n)

/-- A control reply reaches a connection in discovery (R45). -/
def State.connReply (s : State) (c v : Nat) : State :=
  match (s.conn c).step with
  | .boot txn vals =>
    let vals := vals ++ [v]
    if txn < 4 then
      (s.setConn c { s.conn c with step := .boot (txn + 1) vals, tries := 0 }).toCamera c (.read (txn + 1))
    else if wiredOk (s.conn c).links vals then s.capsStep c vals
    else (s.setConnState c 4).setConn c { s.conn c with step := .none }
  | .pixfmt => s.pixfmtReply c v
  | .config => s.setConn c { s.conn c with step := .locking, tries := 0 }
  | .locking => s
  | .none => s

/-- The answer to a pass-through control transaction reaches its command (R365). -/
def State.passReply (s : State) (c ack : Nat) (data : List Byte) : State :=
  match (s.conn c).ctrl with
  | none => s
  | some (h, write) =>
    let w := if write then [] else (List.range 4).map fun i => leNat ((data.drop (4 * i)).take 4)
    (s.setConn c { s.conn c with ctrl := none }).reply h 0 (ack :: w)

/-- R45, R365: a camera answers a control transaction of a link in discovery, of a connection in discovery, or of the
pass-through command. -/
def execCxpControlReply (dt : Nat) (x : CtlReply) (s : State) : Answer :=
  let s := s.tick dt
  match x with
  | .link l v group => .next (s.linkReply l v (group.map (·.val)))
  | .conn c v => .next (s.connReply c v)
  | .pass c ack data => .next (s.passReply c ack data)

/-- The transaction of a connection's discovery step is sent again. -/
def State.resend (s : State) (c : Nat) : State :=
  match (s.conn c).step with
  | .boot txn _ => s.toCamera c (.read txn)
  | .pixfmt => s.toCamera c (.read 5)
  | .config => s.toCamera c (.config (s.fld F.ING_CONN_CFG_SPEED c) (s.fld F.ING_CONN_CFG_NLINKS c))
  | .locking => s
  | .none => s

/-- Does a discovery step hold a control transaction. -/
def ConnStep.busy : ConnStep → Bool
  | .boot _ _ => true
  | .pixfmt => true
  | .config => true
  | .locking => false
  | .none => false

/-- R45, R365: a control transaction has gone unanswered for 200 ms; the third failed attempt of one ends discovery. -/
def execCxpControlTimeout (dt : Nat) (x : CtlWait) (s : State) : Answer :=
  let s := s.tick dt
  match x with
  | .link l =>
    match (s.link l).disc with
    | none => .next s
    | some d =>
      if 2 ≤ d.tries then .next (s.setLink l { s.link l with disc := none })
      else .next ((s.setLink l { s.link l with disc := some { d with tries := d.tries + 1 } }).emit (.cxp l (.read d.txn)))
  | .conn c =>
    let y := s.conn c
    if !y.step.busy then .next s
    else if 2 ≤ y.tries then .next ((s.setConnState c 5).setConn c { y with step := .none, tries := 0 })
    else .next ((s.setConn c { y with tries := y.tries + 1 }).resend c)
  | .pass c =>
    match (s.conn c).ctrl with
    | none => .next s
    | some (h, _) => .next ((s.setConn c { s.conn c with ctrl := none }).reply h 0x0306 [])

/-- DIST_CM and KIND of a reflection after a round trip of `t` ps (R54, R55). -/
def State.tdrFields (s : State) (m : TdrMeas) : Nat × Nat :=
  let d := 299792458 * s.fld F.ING_TDR_CFG_VF_PERMILLE * m.tPs / (2 * 10 ^ 13)
  if 15000 < d then (4, 15000) else (m.kind, d)

/-- A cable measurement replaces all fields together (R56). -/
def State.tdrPut (s : State) (l : Nat) (m : TdrMeas) : State :=
  let (k, d) := s.tdrFields m
  let s := (s.setLink l { s.link l with tdr := false }).setReg .ING_LINK_TDR 0 l
  (((s.setFld F.ING_LINK_TDR_VALID 1 l).setFld F.ING_LINK_TDR_KIND k l).setFld F.ING_LINK_TDR_LOSS_QDB m.loss l).setFld
    F.ING_LINK_TDR_DIST_CM d l

/-- R45 steps 6 to 8: every link of a connection has locked, and each has its first cable measurement. -/
def execLinkLock (dt : Nat) (c : Fin 16) (tdr : List TdrMeas) (s : State) : Answer :=
  let s := s.tick dt
  if (s.conn c).step = .locking then
    let s := ((s.conn c).links.zip tdr).foldl (fun s q => s.tdrPut q.1 q.2) s
    .next ((s.setConnState c 2).setConn c { s.conn c with step := .none })
  else .next s

/-- R45: a link has not locked within 100 ms: the connection tries one speed lower, down to CXP-1. -/
def execLinkLockTimeout (dt : Nat) (c : Fin 16) (s : State) : Answer :=
  let s := s.tick dt
  if (s.conn c).step = .locking then
    .next (s.setFld F.ING_CONN_CFG_SPEED (max 1 (s.fld F.ING_CONN_CFG_SPEED c - 1)) c)
  else .next s

/-- R49: a link of a READY or RUNNING connection loses lock. -/
def execLinkLockLoss (dt : Nat) (l : Fin 64) (s : State) : Answer :=
  let s := s.tick dt
  match (s.link l).conn with
  | none => .next s
  | some c => if s.connState c = 2 ∨ s.connState c = 3 then .next (s.rediscover c) else .next s

/-- R49: no link of an unsteered connection has detected a signal for 1 s: it gives up its links and its number. -/
def execConnAbsentTimeout (dt : Nat) (c : Fin 16) (s : State) : Answer :=
  let s := s.tick dt
  let x := s.conn c
  if s.fld F.ING_CONN_CFG_STEERED c = 1 ∨ s.connState c = 0 ∨ x.gv then .next s
  else
    let s := x.links.foldl (fun s l => s.setLink l { s.link l with conn := none, disc := none }) s
    let s := match x.ctrl with
      | some (h, _) => s.reply h 0x0306 []
      | none => s
    .next ((s.setReg .ING_CONN_CFG 0 c).setConn c { conn0 with camTrigs := x.camTrigs, nextId := x.nextId })

/-- R44: every 1 ms a heartbeat with device time leaves on each master link. -/
def execHeartbeat (dt : Nat) (s : State) : Answer :=
  let s := s.tick dt
  .next ((List.range 16).foldl (fun s c => if s.connState c = 4 then s else s.toCamera c (.heartbeat s.now)) s)

/-- R44, R487: an event packet is acknowledged and written to the MC log. -/
def execCxpEventPacket (dt : Nat) (c : Fin 16) (event : Word) (data : List Byte) (s : State) : Answer :=
  let s := (s.tick dt).toCamera c .eventAck
  .next (s.logE 3 0xE009 [c, event.toNat, leNat (data.take 4), leNat ((data.drop 4).take 4)])

/-- R44: a camera-to-host trigger packet is discarded and counted. -/
def execCxpCameraTriggerPacket (dt : Nat) (c : Fin 16) (s : State) : Answer :=
  let s := s.tick dt
  .next (s.setConn c { s.conn c with camTrigs := (s.conn c).camTrigs + 1 })

/-- R44, R52, R53: a complete line, or frame, of a stream arrives: `rows` are its pixels as R75 takes them (a frame in its
rows, the row pairs of a Bayer frame joined), `width` the width in the image header. Packets of another stream than the first
seen after discovery are discarded and counted. -/
def execLineReceived (dt : Nat) (c : Fin 16) (stream width : Nat) (rows : List (List Nat)) (s : State) : Answer :=
  let s := s.tick dt
  let x := s.conn c
  if s.connState c ≠ 2 ∧ s.connState c ≠ 3 then .next s
  else if !x.gv ∧ x.stream.isSome ∧ x.stream ≠ some stream then .next (s.inc F.ING_CONN_CNT_SPURIOUS c)
  else .next ((s.setConn c { x with stream := some stream, width := width }).lineIn c rows)

/-- R52, R74: the oldest trigger is older than LINE_TO. -/
def execLineTimeout (dt : Nat) (c : Fin 16) (s : State) : Answer :=
  let s := s.tick dt
  match (s.conn c).trigs with
  | t :: ts =>
    if !t.missed ∧ t.time + s.fld F.ING_RES_CFG_LINE_TO c * 100000 < s.now then
      .next (((s.setConn c { s.conn c with trigs := ts }).missLine c t true).missedHead c ts.length)
    else .next s
  | [] => .next s

/-- R54: a link starts a cable measurement. -/
def execTdrMeasure (dt : Nat) (l : Fin 64) (s : State) : Answer :=
  let s := s.tick dt
  .next ((s.setLink l { s.link l with tdr := true }).emit (.cxp l .probe))

/-- R56: a cable measurement completes. -/
def execTdrComplete (dt : Nat) (l : Fin 64) (m : TdrMeas) (s : State) : Answer :=
  let s := s.tick dt
  if (s.link l).tdr then .next (s.tdrPut l m) else .next s

end Sys2Proof.Machine
end

