-- ==== Sys2Proof/Machine/Cat.lean ====
section
/-! DEFINITION. The catalogue engine (R254 to R275, R418): requests, gather, pooling, keyed and nearest lookup, results. -/
namespace Sys2Proof.Machine

/-- A table descriptor as a request uses it (R254, R274). -/
structure CatTab where
  base : Nat
  vmap : Nat
  aux : Nat
  tscale : Nat
  maxCand : Nat
  kind : Nat
  elem : Nat
  d : Nat
  hbits : Nat
  row : Nat
  rows : Nat
  deriving DecidableEq, Repr

/-- The live descriptor of table `t`. -/
def State.catTab (s : State) (t : Nat) : CatTab :=
  ⟨s.fld F.CAT_TAB_BASE_ADDR t * 64, s.fld F.CAT_TAB_VMAP_ADDR t * 64, s.fld F.CAT_TAB_AUX_ADDR t * 64,
   s.fld F.CAT_TAB_BASE_TSCALE t, s.fld F.CAT_TAB_AUX_MAXCAND_M1 t + 1, s.fld F.CAT_TAB_FMT_KIND t,
   s.fld F.CAT_TAB_FMT_ELEM t, s.fld F.CAT_TAB_FMT_D_M1 t + 1, s.fld F.CAT_TAB_FMT_HBITS t,
   (s.fld F.CAT_TAB_FMT_ROW_M1 t + 1) * 64, s.fld F.CAT_TAB_ROWS_ROWS t⟩

/-- A field of a request descriptor (R259). -/
def CatReq.f (q : CatReq) (lo w : Nat) : Nat := bitsOf q.desc lo w
/-- OP of a request. -/
def CatReq.op (q : CatReq) : Nat := q.f 0 8
/-- OUTFMT of a request. -/
def CatReq.outFmt (q : CatReq) : Nat := q.f 14 2
/-- N of a request. -/
def CatReq.n (q : CatReq) : Nat := q.f 32 16 + 1
/-- SRC of a request. -/
def CatReq.srcAt (q : CatReq) : Nat := q.f 64 64
/-- DST of a request. -/
def CatReq.dstAt (q : CatReq) : Nat := q.f 128 64

/-- Is every byte of `n` bytes from a device address mapped (R224). -/
def State.hbmMapped (s : State) (a n : Nat) : Bool :=
  n == 0 || (List.range ((a + n - 1) / pageBytes - a / pageBytes + 1)).all fun i =>
    (s.hbmPhys ((a / pageBytes + i) * pageBytes)).isSome

/-- Read `n` 64-byte units from a device address, each byte with its unit's mark. -/
def State.catUnits (s : State) (a : Nat) : Nat → List (Byte × Bool)
  | 0 => []
  | n + 1 =>
    (match s.hbmPhys a with
     | some p => s.hbmReadPhys p 64
     | none => unmappedRead a 64) ++ s.catUnits (a + 64) n

/-- A little-endian number of `n` bytes inside one 64-byte unit, with the unit's mark. -/
def State.catWord (s : State) (a n : Nat) : Nat × Bool :=
  let u := (s.catUnits (a / 64 * 64) 1).drop (a % 64)
  (leNat ((u.take n).map (·.1)), (u.take n).any (·.2))

/-! ## Refusals and sizes -/

/-- Masks that a nearest table of `h` bucket bits gives (R267). -/
def catMasks (h : Nat) : List Nat :=
  [0] ++ (List.range h).map (2 ^ ·) ++
    (List.range h).flatMap fun b => (List.range h).filterMap fun b' => if b < b' then some (2 ^ b + 2 ^ b') else none

/-- Bytes of an entry E (R268). -/
def CatReq.entryBytes (q : CatReq) (t : CatTab) : Nat :=
  if q.outFmt = 2 then t.row else (t.d + 15) / 16 * (if q.outFmt = 0 then 64 else 32)

/-- Bytes of the void-flag section with its padding (R268). -/
def CatReq.flagBytes (q : CatReq) : Nat := (q.n + 511) / 512 * 64

/-- Bytes of the whole result (R268). -/
def CatReq.resultBytes (q : CatReq) (t : CatTab) : Nat :=
  if q.op = 0 ∨ q.op = 4 then 64 + q.flagBytes + q.n * q.entryBytes t
  else if q.op = 5 then 64 + 8 * (q.f 56 4 + 1)
  else 64 + q.entryBytes t

/-- Bytes at SRC that a request reads (R259); a context key needs none. -/
def CatReq.srcBytes (q : CatReq) (t : CatTab) : Nat :=
  if q.op = 5 then t.d else if q.op = 4 then (if q.f 16 1 = 1 then 0 else 8 * q.n) else 4 * q.n

/-- Does a request break a reserved code or a range of R259 (R260 reason 3). -/
def CatReq.bad (q : CatReq) (t : CatTab) : Bool :=
  decide (5 < q.op ∨ q.outFmt = 3 ∨ (q.outFmt = 2 ∧ q.op ≠ 0 ∧ q.op ≠ 4) ∨ q.f 19 13 ≠ 0 ∨ q.f 60 4 ≠ 0 ∨
    q.f 207 49 ≠ 0 ∨ q.f 320 192 ≠ 0 ∨ q.srcAt % 64 ≠ 0 ∨ q.dstAt % 64 ≠ 0 ∨ (q.op = 5 ∧ q.f 32 16 ≠ 0) ∨
    (q.op = 4 ∧ (q.f 48 8 = 0 ∨ 16 < q.f 48 8)) ∨ (q.op = 5 ∧ (q.f 48 8 = 0 ∨ (catMasks t.hbits).length < q.f 48 8)) ∨
    (q.f 16 1 = 1 ∧ (q.f 32 16 ≠ 0 ∨ q.host.isSome)))

/-- Is a request refused at its start (R260). -/
def State.catRefused (s : State) (q : CatReq) : Bool :=
  let t := s.catTab (q.f 8 6)
  !s.flag F.CAT_TAB_FMT_EN (q.f 8 6) ||
  decide ((q.op = 4 ∧ t.kind ≠ 1) ∨ (q.op = 5 ∧ t.kind ≠ 2) ∨ (q.op < 4 ∧ t.kind = 2)) ||
  q.bad t || !s.hbmMapped q.srcAt (q.srcBytes t) || !s.hbmMapped q.dstAt (q.resultBytes t)

/-! ## Rows -/

/-- Counts of a result header (R268). -/
structure CatCnt where
  voids : Nat
  poisoned : Nat
  misses : Nat
  cand : Nat
  /-- Rows, and the units of R418, that count in CAT_ERRCNT.POISONED. -/
  bad : Nat
  deriving DecidableEq, Repr

/-- A row that was read: its bytes with marks, and its elements under R263. -/
structure CatRow where
  bytes : List (Byte × Bool)
  els : List (Fp × Bool)
  deriving DecidableEq, Repr

/-- An element whose value or scale is not finite is poisoned with value zero (R263). -/
def finiteEl (x : Fp) (p : Bool) : Fp × Bool :=
  match x, p with
  | .fin m e, false => (.fin m e, false)
  | _, _ => (.zero, true)

/-- A product rounded to FP32 of two finite factors (R263). -/
def catWiden (a b : Fp) (p : Bool) : Fp × Bool :=
  match a, b, p with
  | .fin _ _, .fin _ _, false => (rne32 (fpMul a b), false)
  | _, _, _ => (.zero, true)

/-- Element `i` of a row (R263, R145). -/
def CatTab.el (t : CatTab) (bs : List (Byte × Bool)) (i : Nat) : Fp × Bool :=
  let at_ (k : Nat) : Nat × Bool := ((bs.getD k (0, false)).1.toNat, (bs.getD k (0, false)).2)
  if t.elem = 3 then
    let c := at_ (i / 2)
    let g := t.d / 2 + 2 * (i / 32)
    let sc := (at_ g).1 + 256 * (at_ (g + 1)).1
    let code := bitsOf c.1 (4 * (i % 2)) 4
    catWiden (.fin (nv4Val code) (-11)) (decF 7 sc) (c.2 || (at_ g).2 || decide (code = 8))
  else
    let c := at_ i
    let v : Fp := if t.elem = 0 then .fin (sext c.1 8) 0 else if t.elem = 1 then decE4M3 c.1 else decE5M2 c.1
    catWiden v (decF 7 t.tscale) c.2

/-- Read row `r` of a table. -/
def State.catRow (s : State) (t : CatTab) (r : Nat) : CatRow :=
  let bs := s.catUnits (t.base + r * t.row) (t.row / 64)
  ⟨bs, (List.range t.d).map (t.el bs)⟩

/-- Does a row hold a poisoned element. -/
def CatRow.poisoned (r : CatRow) : Bool := r.els.any (·.2)

/-- The row an index names, or none where it is void (R264); a poisoned void-map unit makes it void and is counted (R418). -/
def State.catFetch (s : State) (t : CatTab) (j : Nat) (c : CatCnt) : Option CatRow × CatCnt :=
  if t.rows ≤ j ∨ j = 0xFFFFFFFF then (none, { c with voids := c.voids + 1 })
  else
    let v := s.catWord (t.vmap + j / 8) 1
    if v.2 then (none, { c with voids := c.voids + 1, poisoned := c.poisoned + 1, bad := c.bad + 1 })
    else if bitsOf v.1 (j % 8) 1 = 1 then (none, { c with voids := c.voids + 1 })
    else
      let r := s.catRow t j
      let k := if r.poisoned then 1 else 0
      (some r, { c with poisoned := c.poisoned + k, bad := c.bad + k })

/-! ## Keyed lookup -/

/-- The slots of a key in probe order (R265). -/
def catProbe (rbits key p : Nat) : Nat :=
  let h := (key ^^^ (key / 2 ^ 32)) * 0x9E3779B97F4A7C15 % 2 ^ 64
  (h / 2 ^ (64 - rbits) + p * (p + 1) / 2) % 2 ^ rbits

/-- Probe from probe `p` on, `n` probes left (R265): the row found; and whether a poisoned unit ended the key (R418). -/
def State.catFind (s : State) (t : CatTab) (key p : Nat) : Nat → Option Nat × Bool
  | 0 => (none, false)
  | n + 1 =>
    let r := catProbe (Nat.log2 t.rows) key p
    let k := s.catWord (t.aux + 8 * r) 8
    if k.2 then (none, true)
    else if k.1 = key then (some r, false)
    else if k.1 = 0 then (none, false)
    else s.catFind t key (p + 1) n

/-- The entry of one key: its row, or a void entry (R265). -/
def State.catKey (s : State) (t : CatTab) (probes key : Nat) (c : CatCnt) : Option CatRow × CatCnt :=
  match (if key = 0 then (none, false) else s.catFind t key 0 probes) with
  | (some r, _) => s.catFetch t r c
  | (none, p) =>
    let k := if p then 1 else 0
    (none, { c with voids := c.voids + 1, misses := c.misses + 1, poisoned := c.poisoned + k, bad := c.bad + k })

/-- The context key that a tile's request takes (R266): from the set latched for its task's segment. -/
def State.catCtx (s : State) (t k : Nat) : Nat :=
  match s.taskOf t with
  | none => 0
  | some (u, e) =>
    match (s.crew u e).task with
    | none => 0
    | some x =>
      match (s.connOfSeg u x.b x.part).bind fun c => (s.seg? c x.b x.part).bind (·.slot) with
      | some i => setFldIn (s.slotSet u i) F.CAT_CTX_KEY u k
      | none => 0

/-! ## Results -/

/-- An element of a result in its output format (R264): FP32 or BF16 bytes. -/
def catOut (fmt : Nat) (e : Fp × Bool) : List (Byte × Bool) :=
  ((if fmt = 0 then leBytes (encF 23 e.1) 4 else leBytes (encF 7 (rne16 e.1)) 2)).map fun b => (b, e.2)

/-- Bytes padded with zeros to `n`. -/
def padTo (n : Nat) (bs : List (Byte × Bool)) : List (Byte × Bool) := bs ++ List.replicate (n - bs.length) (0, false)

/-- An entry of GATHER or KEYED (R264, R268): void entries are zero. -/
def CatReq.entry (q : CatReq) (t : CatTab) (r : Option CatRow) : List (Byte × Bool) :=
  match r with
  | none => padTo (q.entryBytes t) []
  | some r => if q.outFmt = 2 then r.bytes else padTo (q.entryBytes t) (r.els.flatMap (catOut q.outFmt))

/-- Write result bytes at a device address, 64-byte unit by unit; a unit with a poisoned word takes the mark. -/
def State.catWrite (s : State) (a : Nat) (bs : List (Byte × Bool)) : Nat → State
  | 0 => s
  | n + 1 =>
    if bs.isEmpty then s else
    let u := bs.take 64
    (s.hbmWrite a (u.map (·.1)) (u.any (·.2))).catWrite (a + 64) (bs.drop 64) n

/-- The header of a result with STATUS 0 (R268), as a 512-bit number. -/
def CatReq.header (q : CatReq) (allVoid : Bool) (c : CatCnt) : Nat :=
  q.op * 2 ^ 8 + (if allVoid then 2 ^ 16 else 0) + q.f 288 32 * 2 ^ 32 +
  (if q.op = 5 then 1 else q.n) * 2 ^ 64 + c.voids * 2 ^ 96 + c.poisoned * 2 ^ 128 + c.misses * 2 ^ 160 + c.cand * 2 ^ 192

/-- Entry `j` of the list at SRC: an index, or a key; CTX takes the context key (R259). -/
def State.catItem (s : State) (q : CatReq) (j : Nat) : Nat :=
  if q.op = 4 then
    if q.f 16 1 = 1 then s.catCtx (q.tile.getD 0) (q.f 17 2) else (s.catWord (q.srcAt + 8 * j) 8).1
  else (s.catWord (q.srcAt + 4 * j) 4).1

/-- GATHER and KEYED over `n` entries from entry `j`, each written where it belongs: the void flags so far and the counts. -/
def State.catGather (q : CatReq) (t : CatTab) (s : State) (j flags : Nat) (c : CatCnt) : Nat → State × Nat × CatCnt
  | 0 => (s, flags, c)
  | n + 1 =>
    let item := s.catItem q j
    let (r, c) := if q.op = 4 then s.catKey t (q.f 48 8) item c else s.catFetch t item c
    let e := q.entry t r
    let s := s.catWrite (q.dstAt + 64 + q.flagBytes + j * q.entryBytes t) e e.length
    State.catGather q t s (j + 1) (if r.isNone then flags + 2 ^ j else flags) c n

/-- The larger of two values as R189 compares; a NaN gives NaN, a zero result is +0. -/
def catMax (a b : Fp) : Fp :=
  match a, b with
  | .nan, _ => .nan
  | _, .nan => .nan
  | a, b => if fpLt a b then b else a

/-- Pool one row into the sums so far (R264). -/
def catPool (op : Nat) (acc row : List (Fp × Bool)) : List (Fp × Bool) :=
  (acc.zip row).map fun q => ((if op = 3 then catMax q.1.1 q.2.1 else rne32 (fpAdd q.1.1 q.2.1)), q.1.2 || q.2.2)

/-- Pool `n` entries from entry `j` (R264): entries pooled, sums, counts. -/
def State.catPools (s : State) (q : CatReq) (t : CatTab) (j k : Nat) (acc : List (Fp × Bool)) (c : CatCnt) :
    Nat → Nat × List (Fp × Bool) × CatCnt
  | 0 => (k, acc, c)
  | n + 1 =>
    match s.catFetch t (s.catItem q j) c with
    | (none, c) => s.catPools q t (j + 1) k acc c n
    | (some r, c) => s.catPools q t (j + 1) (k + 1) (if k = 0 then r.els else catPool q.op acc r.els) c n

/-! ## Nearest lookup -/

/-- What a nearest request carries along: the pairs held, best first, and its counts. -/
structure CatNear where
  held : List (Nat × Fp)
  cnt : CatCnt
  deriving DecidableEq, Repr

/-- Put a scored candidate in its place (R267): higher scores first, lower indices first among equals. -/
def catRank (r : Nat) (x : Fp) : List (Nat × Fp) → List (Nat × Fp)
  | [] => [(r, x)]
  | (a, y) :: l => if fpLt y x ∨ (!(fpLt x y) ∧ r < a) then (r, x) :: (a, y) :: l else (a, y) :: catRank r x l

/-- The score of a row (R267). -/
def catScore (sq : Nat) (query : List Int) (r : CatRow) : Fp :=
  rne32 ((query.zip r.els).foldl (fun t q => fpAdd t (fpMul (fpMul (.fin q.1 0) (decF 7 sq)) q.2.1)) .zero)

/-- Take one candidate (R267). -/
def State.catCand (s : State) (q : CatReq) (t : CatTab) (query : List Int) (r : Nat) (x : CatNear) : CatNear :=
  let c := { x.cnt with cand := x.cnt.cand + 1 }
  if x.held.any (fun h => h.1 == r) then { x with cnt := c } else
  match s.catFetch t r c with
  | (none, c) => { x with cnt := c }
  | (some row, c) =>
    if row.poisoned then { x with cnt := c } else
    match catScore (q.f 272 16) query row with
    | .nan => { x with cnt := { c with poisoned := c.poisoned + 1 } }
    | v => ⟨(catRank r v x.held).take (q.f 56 4 + 1), c⟩

/-- Candidates of a bucket from list index `i` on, `n` of them (R267, R418); `dead`: the poisoned list unit already counted. -/
def State.catList (s : State) (q : CatReq) (t : CatTab) (query : List Int) (i : Nat) (dead : Option Nat) (x : CatNear) :
    Nat → CatNear
  | 0 => x
  | n + 1 =>
    if t.maxCand ≤ x.cnt.cand then x else
    let a := t.aux + 8 * 2 ^ t.hbits + 4 * i
    let w := s.catWord a 4
    if w.2 then
      let k := if dead = some (a / 64) then 0 else 1
      s.catList q t query (i + 1) (some (a / 64))
        { x with cnt := { x.cnt with poisoned := x.cnt.poisoned + k, bad := x.cnt.bad + k } } n
    else s.catList q t query (i + 1) dead (s.catCand q t query w.1 x) n

/-- Probe the buckets of a list of masks (R267). -/
def State.catBuckets (s : State) (q : CatReq) (t : CatTab) (query : List Int) (x : CatNear) : List Nat → CatNear
  | [] => x
  | m :: ms =>
    if t.maxCand ≤ x.cnt.cand then x else
    let e := s.catWord (t.aux + 8 * ((q.f 256 16 % 2 ^ t.hbits) ^^^ m)) 8
    if e.2 then
      s.catBuckets q t query { x with cnt := { x.cnt with poisoned := x.cnt.poisoned + 1, bad := x.cnt.bad + 1 } } ms
    else s.catBuckets q t query (s.catList q t query (e.1 % 2 ^ 32) none x (bitsOf e.1 32 16)) ms

/-- The pairs of a nearest result, unfilled ones last (R268). -/
def catPairs (k : Nat) (h : List (Nat × Fp)) : List Byte :=
  (List.range k).flatMap fun i => match h[i]? with
    | some (r, v) => leBytes r 4 ++ leBytes (encF 23 v) 4
    | none => leBytes 0xFFFFFFFF 4 ++ leBytes 0xFF800000 4

/-! ## Starting and completing -/

/-- Counts of a request that has processed nothing. -/
def catCnt0 : CatCnt := ⟨0, 0, 0, 0, 0⟩

/-- What a started request reads and writes (R264 to R268), all but its header, which it leaves in `head`. -/
def State.catWork (s : State) (q : CatReq) : State × CatReq × CatCnt :=
  let t := s.catTab (q.f 8 6)
  if q.op = 0 ∨ q.op = 4 then
    let (s, flags, c) := State.catGather q t s 0 0 catCnt0 q.n
    let fb := (leBytes flags q.flagBytes).map fun b => (b, false)
    (s.catWrite (q.dstAt + 64) fb fb.length, { q with head := q.header false c }, c)
  else if q.op = 5 then
    let query := (List.range t.d).map fun i => sext (s.catWord (q.srcAt + i) 1).1 8
    let x := s.catBuckets q t query ⟨[], catCnt0⟩ ((catMasks t.hbits).take (q.f 48 8))
    let k := q.f 56 4 + 1
    let c := { x.cnt with misses := k - x.held.length }
    let bs := (catPairs k x.held).map fun b => (b, false)
    (s.catWrite (q.dstAt + 64) bs bs.length, { q with head := q.header false c }, c)
  else
    let (k, acc, c) := s.catPools q t 0 0 [] catCnt0 q.n
    let out := if k = 0 then List.replicate t.d (Fp.zero, false)
      else if q.op = 2 then acc.map fun e => (rne32 (fpMul e.1 (recip k)), e.2) else acc
    let bs := padTo (q.entryBytes t) (out.flatMap (catOut q.outFmt))
    (s.catWrite (q.dstAt + 64) bs bs.length, { q with head := q.header (k == 0) c }, c)

/-- Start one request (R260): a refused tile request aborts its task, a refused host request is answered ADMIT_CAT_REQ. -/
def State.catBegin (s : State) (q : CatReq) : State :=
  if s.catRefused q then
    let s := s.inc F.CAT_ERRCNT_REFUSED
    match q.tile, q.host with
    | some t, _ => s.abortTaskOf t
    | none, some h => s.reply h 0x010F []
    | none, none => s
  else
    let (s, q, c) := s.catWork q
    ({ s with catRun := s.catRun ++ [q] } : State).addSat F.CAT_ERRCNT_POISONED c.bad

/-- The next request in queue order, with the queues after it (R261): when both wait, every HOST_EVERY-th start takes the host
queue. -/
def State.catNext (s : State) : Option (CatReq × State) :=
  match s.catTask, s.catHost with
  | [], [] => none
  | q :: qs, [] => some (q, { s with catTask := qs })
  | [], h :: hs => some (h, { s with catHost := hs, catTurn := 0 })
  | q :: qs, h :: hs =>
    if s.fld F.CAT_CFG_HOST_EVERY ≤ s.catTurn + 1 then some (h, { s with catHost := hs, catTurn := 0 })
    else some (q, { s with catTask := qs, catTurn := s.catTurn + 1 })

/-- R260, R261: the engine starts its next request, at most 8 in progress. -/
def execCatRequestStart (dt : Nat) (s : State) : Answer :=
  let s := s.tick dt
  if 8 ≤ s.catRun.length then .next s else
  match s.catNext with
  | none => .next s
  | some (q, s) => .next (s.catBegin q).catStat

/-- A request completes: its header, its arrival, its count, its host reply (R269). -/
def State.catEnd (s : State) (q : CatReq) : State :=
  let s := (s.hbmWrite q.dstAt (leBytes q.head 64) false).inc F.CAT_DONE_DONE
  let s := if q.f 206 1 = 1 then s.sendArrival 1089 (q.f 192 14) 1 else s
  match q.host with
  | some h => s.reply h 0 [q.head % 256, bitsOf q.head 64 32, bitsOf q.head 96 32, bitsOf q.head 128 32, bitsOf q.head 160 32]
  | none => s

/-- R268, R269: the stream engine pulls the last byte of the header of request `i` in progress. -/
def execCatRequestComplete (dt : Nat) (i : Fin 8) (s : State) : Answer :=
  let s := s.tick dt
  match s.catRun[i.val]? with
  | none => .next s
  | some q => .next (({ s with catRun := s.catRun.eraseIdx i.val } : State).catEnd q).catStat

/-- A write of CAT_VOID acts (R255, R275). -/
def State.catVoid (s : State) (r : Requester) (v : Nat) : State :=
  let t := bitsOf v 56 6
  let row := v % 2 ^ 30
  if s.flag F.CAT_TAB_FMT_EN t ∧ row < s.fld F.CAT_TAB_ROWS_ROWS t then
    let a := s.fld F.CAT_TAB_VMAP_ADDR t * 64 + row / 8
    let b := putBits (s.catWord a 1).1 (row % 8) 1 (if bitsOf v 63 1 = 1 then 0 else 1)
    s.hbmWrite a [BitVec.ofNat 8 b] false
  else s.aelReg r (regAddr .CAT_VOID_REG) 6 0 (v % 2 ^ 32)

/-- R255, R275: CAT_VOID is written whole, high word first. -/
def execCatVoidWrite (dt : Nat) (r : Requester) (v : DWord) (s : State) : Answer :=
  let s := s.tick dt
  .next (s.accessing r (regAddr .CAT_VOID_REG) 8 (v.toNat % 2 ^ 32) fun _ => s.catVoid r v.toNat)

end Sys2Proof.Machine
end

