-- ==== Sys2Proof/Machine/Clock.lean ====
section
/-! DEFINITION. Clocks: the REFCLK monitor and the MC clock (R463, R464). -/
namespace Sys2Proof.Machine

/-- R464: REFCLK is lost: every PLL enters holdover. -/
def execRefclkLoss (dt : Nat) (s : State) : Answer :=
  let s := s.tick dt
  if s.fld F.CLK_STAT_REF = 0 then
    .next (((s.setFld F.CLK_STAT_REF 1).setFld F.CLK_STAT_REF_LOST 1).inc F.CLK_REF_CNT_LOSSES)
  else .next s

/-- R464: a single period outside ±5 % is counted. -/
def execRefclkGlitch (dt : Nat) (s : State) : Answer := .next ((s.tick dt).inc F.CLK_REF_CNT_GLITCHES)

/-- R464: 10 ms after a loss without return every PLL moves onto the IRO. -/
def execRefclkHoldoverTimeout (dt : Nat) (s : State) : Answer :=
  let s := s.tick dt
  if s.fld F.CLK_STAT_REF = 1 then .next (s.setFld F.CLK_STAT_REF 2) else .next s

/-- R464: REFCLK is valid again within 10 ms of the loss: the PLLs relock, and the IRO item skipped is due again (R477). -/
def execRefclkRelock (dt : Nat) (s : State) : Answer :=
  let s := s.tick dt
  if s.fld F.CLK_STAT_REF = 1 then .next ((s.setFld F.CLK_STAT_REF 0).calUnskip (fun k => decide (k / 2048 = 8))) else .next s

/-- R464: REFCLK has been valid for RETURN_MS: the PLLs return from the IRO. -/
def execRefclkReturn (dt : Nat) (s : State) : Answer :=
  let s := s.tick dt
  if s.fld F.CLK_STAT_REF = 2 then
    .next (((s.setFld F.CLK_STAT_REF 0).setFld F.CLK_STAT_RETURNED 1).calUnskip (fun k => decide (k / 2048 = 8)))
  else .next s

/-- A direct write of CLK_MC (R463): SEL = 1 while the MC PLL is not locked is ignored and recorded. -/
def State.clkMcWrite (s : State) (r : Requester) (v : Nat) : State :=
  if r ≠ .mc then s.aelReg r (regAddr .CLK_MC) 11 0 v
  else if v % 2 = 1 ∧ bitsOf (s.fld F.CLK_STAT_LOCK) 2 1 = 0 then s.aelReg r (regAddr .CLK_MC) 9 0 v
  else s.setFld F.CLK_MC_SEL (v % 2)

/-- R463: an MC write of CLK_MC.SEL. -/
def execClkMcWrite (dt : Nat) (r : Requester) (data : Word) (s : State) : Answer :=
  let s := s.tick dt
  .next (s.accessing r (regAddr .CLK_MC) 4 data.toNat fun _ => s.clkMcWrite r data.toNat)

end Sys2Proof.Machine
end

