-- ==== Sys2Proof/Machine/Ptp.lean ====
section
/-! DEFINITION. Device time from PTP (R382, R383) or from a junction partner (R384). -/
namespace Sys2Proof.Machine

/-- Is master `a` better than `b`: the first difference in the order of the best master clock algorithm decides (R382). -/
def ptpBetter (a b : PtpMaster) : Bool :=
  let l (m : PtpMaster) : List Nat := [m.prio1, m.cls, m.accuracy, m.variance, m.prio2, m.ident, m.steps]
  decide (List.Lex (· < ·) (l a) (l b))

/-- Bring NET_PTP_STAT.UNSYNC up to date. -/
def State.ptpShow (s : State) : State := s.setFld F.NET_PTP_STAT_UNSYNC (if s.timeUnsync then 1 else 0)

/-- Set NET_PTP_STAT.STATE: 0 disabled, 1 listening, 2 uncalibrated, 3 LOCKED, 4 HOLDOVER. -/
def State.setPtpState (s : State) (v : Nat) : State := (s.setFld F.NET_PTP_STAT_STATE v).ptpShow

/-- The servo takes an offset from the source, own time minus the source's (R383): one step before the first lock where it is
above 1 ms, LOCKED after 16 intervals below 100 ns, HOLDOVER above 1 µs. -/
def State.servo (s : State) (off : Int) : State :=
  let x := s.ptp
  let s := s.setFld F.NET_PTP_OFFSET_OFFSET (wrapTo 32 (max (-2147483648) (min 2147483647 off)))
  let s := if s.fld F.NET_PTP_STAT_STATE = 1 then s.setPtpState 2 else s
  if !x.locked ∧ 1000000 < off.natAbs then
    ({ s with now := wrapTo 64 (s.now - off), ptp := { x with good := 0, sync := none, req := none } } : State).ptpShow
  else
    let n := if off.natAbs < 100 then x.good + 1 else 0
    if 16 ≤ n then ({ s with ptp := { x with good := 16, locked := true } } : State).setPtpState 3
    else
      let s : State := { s with ptp := { x with good := n } }
      if s.fld F.NET_PTP_STAT_STATE = 3 ∧ 1000 < off.natAbs then s.setPtpState 4 else s.ptpShow

/-- The time of a sync message is known: the servo takes the offset, and a delay request leaves (R382). -/
def State.ptpSync (s : State) (t2 : Nat) (t1 corr : Int) : State :=
  let d := (t2 : Int) - t1 - corr
  let s : State := { s with ptp := { s.ptp with diff := d, sync := none } }
  let s := s.servo (d - s.ptp.delay)
  let n := s.ptp.seq
  let s : State := { s with ptp := { s.ptp with seq := (n + 1) % 65536, req := some (n, s.now) } }
  s.emit (.ptpReq (s.fld F.NET_PTP_CFG_SRC) n)

/-- Is a message of the selected master in the configured domain. -/
def State.fromMaster (s : State) (domain ident : Nat) : Bool :=
  decide (domain = s.fld F.NET_PTP_CFG_DOMAIN) && (match s.ptp.master with | some m => m.ident == ident | none => false)

/-- A PTP message of the source port (R382, R383). -/
def State.ptpIn (s : State) (m : PtpMsg) : State :=
  match m with
  | .announce d m =>
    if d ≠ s.fld F.NET_PTP_CFG_DOMAIN then s else
    let take := match s.ptp.master with
      | none => true
      | some b => m.ident == b.ident || ptpBetter m b
    if take then
      let s : State := { s with ptp := { s.ptp with master := some m } }
      if s.fld F.NET_PTP_STAT_STATE = 1 then s.setPtpState 2 else s
    else s
  | .sync d i n t1 c two =>
    if !s.fromMaster d i then s
    else if two then { s with ptp := { s.ptp with sync := some (n, s.now) } }
    else s.ptpSync s.now t1 c
  | .followUp d i n t1 c =>
    if !s.fromMaster d i then s else
    match s.ptp.sync with
    | some (k, t2) => if k = n then s.ptpSync t2 t1 c else s
    | none => s
  | .delayResp d i n t4 c =>
    if !s.fromMaster d i then s else
    match s.ptp.req with
    | some (k, t3) =>
      if k = n then { s with ptp := { s.ptp with delay := (s.ptp.diff + ((t4 : Int) - c - t3)) / 2, req := none } } else s
    | none => s

/-- Does PTP take its messages from Ethernet port `p`, in this transport (R382). -/
def State.ptpPort (s : State) (p : Nat) (udp : Bool) : Bool :=
  s.flag F.NET_PTP_CFG_EN && s.fld F.NET_PTP_CFG_SRC == p && decide (p < 4) && (s.fld F.NET_PTP_CFG_TRANSPORT == 0) == udp

/-- R382, R383: a PTP message arrives on an Ethernet port. -/
def execPtpMessage (dt : Nat) (p : Fin 4) (udp : Bool) (m : PtpMsg) (s : State) : Answer :=
  let s := s.tick dt
  .next (if s.ptpPort p udp then s.ptpIn m else s)

/-- R383: three announce intervals have passed without an announce message, or a junction source has fallen silent (R384). -/
def execPtpAnnounceTimeout (dt : Nat) (s : State) : Answer :=
  let s := s.tick dt
  let st := s.fld F.NET_PTP_STAT_STATE
  if st = 2 ∨ st = 3 then .next (({ s with ptp := { s.ptp with master := none, good := 0 } } : State).setPtpState 4) else .next s

/-- The answer to a time message of port `j` (R384): the link delay is half the round trip. -/
def State.jctTimeIn (s : State) (j t1 t2 t3 : Nat) : State :=
  if s.flag F.NET_PTP_CFG_EN ∧ s.fld F.NET_PTP_CFG_SRC = 4 + j then
    s.servo ((((t1 : Int) - t2) + ((s.now : Int) - t3)) / 2)
  else s

/-- A write changes NET_PTP_CFG.EN (R383). -/
def State.ptpEnable (s : State) (old new : Nat) : State :=
  if old = new then s
  else
    let s : State := { s with ptp := { s.ptp with master := none, good := 0, sync := none, req := none } }
    s.setPtpState new

end Sys2Proof.Machine
end

