-- ==== Sys2Proof/Machine/Depot.lean ====
section
/-! DEFINITION. The depot (R329 to R336, R411): owners, handovers, accesses through its three windows. -/
namespace Sys2Proof.Machine

/-- Bytes of the depot. -/
def depotBytes : Nat := 0x2000000
/-- The owner code of a bank (R331). -/
def State.bankOwner (s : State) (b : Nat) : Nat := bitsOf (s.fld F.DEP_OWNERS_OWN) (4 * b) 3
/-- The bank of a depot address in any window. -/
def depotBank (a : Nat) : Nat := a % depotBytes / 0x200000
/-- May an agent of an owner class reach the bank of an address (R332); none may while the bank's owner is in doubt (R298). -/
def State.depotMay (s : State) (cls a : Nat) : Bool :=
  s.bankOwner (depotBank a) == cls && bitsOf s.bankFault (depotBank a) 1 == 0

/-- The owner class of a requester: 0 MC, 1 HOST, 2 DMA (R331). -/
def ownerClass : Requester → Nat
  | .mc => 0
  | .commit => 0
  | .dma _ => 2
  | _ => 1

/-- May a requester hand a bank with this owner on (R331, R333): MC banks and the ones it holds on behalf of others are the MC's. -/
def mayHand (cls owner : Nat) : Bool := if owner = 1 ∨ owner = 2 then cls == owner else cls == 0

/-- The default ranks of R334. -/
def defaultRanks : Nat := 0xFEDCBA9876543210

/-- A handover commits (R333): the owner, the ranks, the count; a forced one settles a bank whose owner was in doubt. -/
def State.handover (s : State) (banks owner ranks : Nat) (force : Bool) : State :=
  let s := (List.range 16).foldl (fun s b =>
    if bitsOf banks b 1 = 1 then
      let s := s.setFld F.DEP_OWNERS_OWN (putBits (s.fld F.DEP_OWNERS_OWN) (4 * b) 4 owner)
      let s := s.setFld F.DEP_BANK_PRIO_RANKS ranks b
      if force then { s with bankFault := putBits s.bankFault b 1 0 } else s
    else s) s
  s.inc F.DEP_STAT_HANDOVERS

/-- Would every bank of a mask be handed on by a requester class (R333). -/
def State.handOk (s : State) (cls banks : Nat) : Bool :=
  (List.range 16).all fun b => bitsOf banks b 1 == 0 || mayHand cls (s.bankOwner b)

/-- A direct write of DEP_BANK_OWNER (R331, R333). -/
def State.ownerWrite (s : State) (r : Requester) (v : Nat) : State :=
  let banks := v % 2 ^ 16
  let owner := bitsOf v 24 3
  let force := bitsOf v 31 1 == 1
  let a := regAddr .DEP_BANK_OWNER
  if 6 ≤ owner then s.aelReg r a 6 0 v
  else if if force then decide (r = .mc) else s.handOk (ownerClass r) banks then s.handover banks owner defaultRanks force
  else (s.aelReg r a 7 0x0501 v).inc F.DEP_STAT_NOT_OWNER

/-- R333: a direct write of DEP_BANK_OWNER. -/
def execDepBankOwnerWrite (dt : Nat) (r : Requester) (v : Word) (s : State) : Answer :=
  let s := s.tick dt
  .next (s.accessing r (regAddr .DEP_BANK_OWNER) 4 v.toNat fun _ => s.ownerWrite r v.toNat)

/-! ## Accesses -/

/-- Refuse a depot access (R332). -/
def State.depotRefuse (s : State) (space origin a data : Nat) : State :=
  (s.ael space (a % 2 ^ 28) origin 7 0x0501 data).inc F.DEP_STAT_NOT_OWNER

/-- The stored bytes from a depot address, each with its granule's mark (R411). -/
def State.depotGet (s : State) (a n : Nat) : List (Byte × Bool) :=
  (List.range n).map fun i =>
    let p := (a + i) % depotBytes
    (mapGet 0 s.depot p, mapGet false s.depotPoison (p / 16))

/-- What a write of byte `v` through a window leaves (R336): the value, the old bits set, or the old bits cleared. -/
def windowByte (w : Nat) (old v : Byte) : Byte := if w = 0 then v else if w = 1 then old ||| v else old &&& ~~~v

/-- Store the enabled bytes of an access through the window of its address. -/
def State.depotBytesPut (s : State) (a : Nat) : List (Option (Byte × Bool)) → State
  | [] => s
  | none :: r => s.depotBytesPut (a + 1) r
  | some (v, _) :: r =>
    let p := a % depotBytes
    ({ s with depot := mapSet 0 s.depot p (windowByte (a / depotBytes) (mapGet 0 s.depot p) v) } : State).depotBytesPut (a + 1) r

/-- The marks after a write (R411, R336): a granule written whole through the normal window takes the data's, any other keeps its
own and takes the data's as well. -/
def State.depotMarks (s : State) (a : Nat) (bs : List (Option (Byte × Bool))) : State :=
  let n := bs.length
  (List.range ((a + n + 15) / 16 - a / 16)).foldl (fun s i =>
    let g := a / 16 + i
    let part := (List.range n).filterMap fun j => if (a + j) / 16 = g then bs.getD j none else none
    let m := part.any (·.2)
    let k := g * 16 % depotBytes / 16
    let whole := decide (part.length = 16) && decide (a / depotBytes = 0)
    { s with depotPoison := mapSet false s.depotPoison k (if whole then m else mapGet false s.depotPoison k || m) }) s

/-- Write bytes at a depot address, each with the mark of its data. -/
def State.depotPut (s : State) (a : Nat) (bs : List (Option (Byte × Bool))) : State := (s.depotMarks a bs).depotBytesPut a bs

end Sys2Proof.Machine
end

