-- ==== Sys2Proof/Machine/Jct.lean ====
section
/-! DEFINITION. Junction ports (R397 to R406): handshake, lanes, replay, time and position messages. -/
namespace Sys2Proof.Machine

/-- JCT_STAT.STATE of port `j`: 0 DOWN, 1 TRAINING, 2 HELLO, 3 ACTIVE, 4 REFUSED, 5 NARROWING. -/
def State.jctState (s : State) (j : Nat) : Nat := s.fld F.JCT_STAT_STATE j
/-- Put port `j` into a state. -/
def State.setJctState (s : State) (j v : Nat) : State := s.setFld F.JCT_STAT_STATE v j
/-- Firmware major release of this device (R365, R401). -/
def State.fwMajor (s : State) : Nat := s.running.release / 2 ^ 24

/-- The fastest MINPER_NS of the generators that target connection `c` (R238), none without one. -/
def State.minPer (s : State) (c : Nat) : Option Nat :=
  (((List.range 16).filter fun g => bitsOf (s.fld F.ODO_TG_CFG_TARGETS g) c 1 == 1).map
    fun g => s.fld F.ODO_TG_MINPER_MINPER_NS g).min?

/-- The connection steered to unit `u`. -/
def State.connOf (s : State) (u : Nat) : Option Nat :=
  (List.range 16).find? fun c => s.flag F.ING_CONN_CFG_STEERED c && s.fld F.ING_CONN_CFG_UNIT c == u

/-- Bytes of a sample on an export row, and of the row, of a stripe entry (R399, R403). -/
def State.exportBytes (s : State) (set : FMap DWord) (u e : Nat) : Nat :=
  let k := setFldIn set F.ING_STRIPE_CREW_SPLICE u e
  (setFldIn set F.ING_STRIPE_GEOM_W_M1 u e + 1) * (s.chainGeo u).tapC (splFld set F.REF_SPLICE_SRC u k) *
    (if splFld set F.REF_SPLICE_SEND8 u k = 1 then 1 else 2)

/-- Bytes a second, times MINPER_NS, that the export entries of unit `u` reserve on port `j` (R403). -/
def State.exportShare (s : State) (set : FMap DWord) (u j : Nat) : Nat :=
  ((List.range 64).filter fun e => setFldIn set F.ING_STRIPE_CREW_EN u e == 1 && setFldIn set F.ING_STRIPE_CREW_EXPORT u e == 1 &&
    setFldIn set F.ING_STRIPE_HALO_JPORT u e == j).foldl (fun n e => n + (s.exportBytes set u e + 32 + 55) / 56 * 56) 0

/-- Reserved MB/s of port `j` with the staged sets of all units (R403); `set` names the set of each unit. -/
def State.jctReserved (s : State) (j : Nat) (set : Nat → FMap DWord) : Nat :=
  (List.range 16).foldl (fun n u => match (s.connOf u).bind s.minPer with
    | some p => n + s.exportShare (set u) u j * 1000 / max 1 p
    | none => n) 0

/-- Payload capacity and reservable capacity of a width, in MB/s (R397). -/
def laneCap (lanes : Nat) : Nat × Nat :=
  if lanes = 4 then (43750, 39375) else if lanes = 2 then (21875, 19687) else if lanes = 1 then (10937, 9843) else (0, 0)

/-- Bring JCT_RSV and JCT_STAT.OVER of port `j` up to date (R403). -/
def State.jctRates (s : State) (j : Nat) : State :=
  let r := s.jctReserved j fun u => s.slotSet u (s.refU u).cur
  let c := laneCap (s.fld F.JCT_STAT_LANES j)
  let s := (s.setFld F.JCT_RSV_RSV_MBPS (min r 65535) j).setFld F.JCT_RSV_CAP_MBPS c.1 j
  s.setFld F.JCT_STAT_OVER (if c.2 < r ∧ s.fld F.JCT_STAT_LANES j ≠ 0 then 1 else 0) j

/-- The widest width that working lanes allow (R402): lanes 0 to 3, 0 and 1, 2 and 3, or one. -/
def widthOf (ok : Nat) : Nat :=
  if ok % 16 = 15 then 4 else if ok % 4 = 3 ∨ ok / 4 % 4 = 3 then 2 else if ok % 16 = 0 then 0 else 1

/-- Lanes of port `j` that may work. -/
def State.jctLanes (s : State) (j : Nat) : Nat :=
  (List.range 4).foldl (fun n i =>
    if bitsOf (s.fld F.JCT_CFG_LANE_EN j) i 1 = 1 ∧ bitsOf (s.jct j).failed i 1 = 0 then n + 2 ^ i else n) 0

/-- A direct write of JCT_CFG (R401, R409): enabling starts lane training, disabling takes the port DOWN. -/
def State.jctCfgWrite (s : State) (j v : Nat) : State :=
  let old := s.fld F.JCT_CFG_EN j
  let s := (s.setFld F.JCT_CFG_EN (bitsOf v 31 1) j).setFld F.JCT_CFG_LANE_EN (bitsOf v 24 4) j
  if bitsOf v 31 1 = old then s
  else if old = 0 then ((s.setJct j { jct0 with widened := (s.jct j).widened }).setReg .JCT_STAT 0 j).setJctState j 1
  else ((s.setReg .JCT_STAT 0 j).setJct j { jct0 with widened := (s.jct j).widened }).jctRates j

/-- R401: a direct write of JCT_CFG. -/
def execJctCfgWrite (dt : Nat) (r : Requester) (j : Fin 4) (v : Word) (s : State) : Answer :=
  let s := s.tick dt
  .next (s.accessing r (regAddr .JCT_CFG j) 4 v.toNat fun _ => s.jctCfgWrite j v.toNat)

/-- Credits restart from the advertisement with the replay buffer kept (R401): what will be replayed is already spent. -/
def Jct.restart (x : Jct) : Jct :=
  let n (vc : Nat) : Nat := (x.unacked.filter fun f => f.2.vc == vc).length
  { x with used0 := n 0, used1 := n 1, peer0 := 0, peer1 := 0, freed0 := 0, freed1 := 0 }

/-- HELLO leaves port `j` (R401), ahead of the flits that wait. -/
def State.sendHello (s : State) (j : Nat) : State :=
  s.flitOut j 0 2 (s.jct j).nextSeq 0 (some (.msg (.hello (s.fld F.JCT_SYS_DEVNUM) (s.fld F.JCT_SYS_SYSID) s.fwMajor
    (s.fld F.JCT_STAT_LANES j) 32 2048)))

/-- R401, R402: training ends with the working lanes of `ok`; with none of them the port trains again. -/
def execLaneTrainingComplete (dt : Nat) (j : Fin 4) (ok : Fin 16) (s : State) : Answer :=
  let s := s.tick dt
  let st := s.jctState j
  let x := s.jct j
  if st ≠ 1 ∧ st ≠ 5 then .next s else
  let failed := (List.range 4).foldl (fun n i => if bitsOf ok i 1 = 0 ∨ (st = 5 ∧ bitsOf x.failed i 1 = 1) then n + 2 ^ i else n) 0
  let s := s.setJct j { x with failed := failed }
  let w := widthOf (s.jctLanes j)
  if w = 0 then
    .next (((s.setJctState j 1).setJct j { x with failed := 0 }).inc F.JCT_ERRCNT_RETRAINS j)
  else
    let narrower := decide (st = 5 ∧ w < s.fld F.JCT_STAT_LANES j)
    let s := (s.setFld F.JCT_STAT_LANES w j).setJctState j 2
    let s := s.setJct j { (s.jct j).restart with dropIn := narrower }
    .next ((s.jctRates j).sendHello j)

/-- Resend the flits without an acknowledgement, in order (R400). -/
def State.jctReplay (s : State) (j : Nat) : State :=
  let fs := (s.jct j).unacked
  if fs.isEmpty then s else
  let s := fs.foldl (fun s f => s.flitOut j f.2.vc (if f.2.last then 2 else 1) f.1 f.2.vc (some f.2.pay)) s
  s.inc F.JCT_ERRCNT_REPLAYS j

/-- A HELLO arrives (R401): the port becomes ACTIVE, or REFUSED with the reason; after a narrowing the count and the report of
step 6 follow. -/
def State.helloIn (s : State) (j devnum sysid major cr0 cr1 : Nat) : State :=
  if s.jctState j ≠ 2 then s else
  let x := s.jct j
  let s := s.setFld F.JCT_STAT_PARTNER devnum j
  let s := s.setJct j { x with psys := sysid, major := major, dropIn := false }
  let why := if sysid ≠ s.fld F.JCT_SYS_SYSID then 1 else if devnum = s.fld F.JCT_SYS_DEVNUM then 2
    else if major ≠ s.fwMajor then 3 else 0
  let s := s.setFld F.JCT_STAT_REASON why j
  if why ≠ 0 then s.setJctState j 4
  else
    let s := (s.setJct j { s.jct j with adv0 := cr0, adv1 := cr1 }).setJctState j 3
    let s := s.jctReplay j
    let s := if x.dropIn then (s.inc F.JCT_ERRCNT_DEGRADES j).tell (.note 12 j) else s
    s.jctPump j (s.jct j).txq.length

/-- R401: a HELLO of the partner arrives. -/
def execJctHello (dt : Nat) (j : Fin 4) (devnum : Fin 256) (sysid : Fin 65536) (major lanes cr0 cr1 : Nat) (s : State) : Answer :=
  let s := s.tick dt
  .next ((if s.jctState j = 2 then s.setJct j { s.jct j with plane := lanes } else s).helloIn j devnum sysid major cr0 cr1)

/-- Every enabled lane trains again (R402 step 7, R298). -/
def State.fullRetrain (s : State) (j : Nat) : State :=
  ((s.setJctState j 1).setJct j { s.jct j with failed := 0, dropIn := false }).inc F.JCT_ERRCNT_RETRAINS j

/-- R402: lanes fail: no new flit leaves, and the lane-drop sequence is sent; without a working lane every lane retrains. -/
def execLaneFailure (dt : Nat) (j : Fin 4) (mask : Fin 16) (s : State) : Answer :=
  let s := s.tick dt
  let st := s.jctState j
  if st = 2 ∨ st = 3 ∨ st = 5 then
    let x := s.jct j
    let s := s.setJct j { x with failed := x.failed ||| mask.val, dropIn := false }
    if s.jctLanes j = 0 then .next (s.fullRetrain j)
    else .next ((s.setJctState j 5).emit (.laneDrop j))
  else .next s

/-- R402: the partner's lane-drop sequence arrives, with the lanes it gives up: an end that had not seen the failure answers
with its own, and the remaining lanes retrain at the new width. -/
def execLaneDropReceived (dt : Nat) (j : Fin 4) (mask : Fin 16) (s : State) : Answer :=
  let s := s.tick dt
  let st := s.jctState j
  if st = 2 ∨ st = 3 ∨ st = 5 then
    let x := s.jct j
    let s := s.setJct j { x with failed := x.failed ||| mask.val, dropIn := true }
    let s := if st = 5 then s else s.emit (.laneDrop j)
    .next (s.setJctState j 5)
  else .next s

/-- R402 step 7: no lane-drop sequence of the partner within 1 ms. -/
def execLaneRetrainTimeout (dt : Nat) (j : Fin 4) (s : State) : Answer :=
  let s := s.tick dt
  if s.jctState j = 5 ∧ !(s.jct j).dropIn then .next (s.fullRetrain j) else .next s

/-- R402: failed lanes that the MC has retrained off traffic come back, at most once per 60 s: the port goes through the
lane-drop sequence and retrains. -/
def execLaneWidening (dt : Nat) (j : Fin 4) (s : State) : Answer :=
  let s := s.tick dt
  let x := s.jct j
  let ripe : Bool := match x.widened with
    | some t => decide (t + 60000000000 ≤ s.now)
    | none => true
  if s.jctState j = 3 ∧ x.failed ≠ 0 ∧ ripe then
    .next (((s.setJct j { x with failed := 0, widened := some s.now, dropIn := false }).setJctState j 5).emit (.laneDrop j))
  else .next s

/-- R400: ACK has not advanced for 2 µs. -/
def execFlitReplayTimeout (dt : Nat) (j : Fin 4) (s : State) : Answer :=
  let s := s.tick dt
  .next (if s.jctActive j then s.jctReplay j else s)

/-- R384: the time message of port `j`. -/
def execJctTimeSend (dt : Nat) (j : Fin 4) (s : State) : Answer :=
  let s := s.tick dt
  .next (if s.jctActive j then s.jctMsg j (.timeReq s.now) else s)

/-! ## Positions -/

/-- The enabled odometers with their positions. -/
def State.odoVals (s : State) : List (Nat × Int) :=
  ((List.range 4).filter fun u => s.flag F.ODO_CFG_EN u).map fun u => (u, s.odoPos u)

/-- R406: a millisecond boundary of device time: the odometers are sampled, and the position master sends its sample to every
routed device. -/
def execPositionSend (dt : Nat) (s : State) : Answer :=
  let s := s.tick dt
  let v := (List.range 4).map fun u => (u, s.odoPos u)
  let s : State := { s with odoSamp := ((s.now, v) :: s.odoSamp).take 64 }
  let me := s.fld F.JCT_SYS_DEVNUM
  if me = s.fld F.JCT_SYNC_POSMASTER then
    let ds := (List.range 256).filter fun d => d != me && s.flag F.JCT_ROUTE_VALID d
    .next (ds.foldl (fun s d => s.ctlTo d (.position s.now s.timeUnsync s.odoVals)) s)
  else .next s

/-- A pending alignment takes effect (R406). -/
def State.alignOdo (s : State) (u : Nat) (d : Int) : State :=
  if bitsOf (s.fld F.JCT_SYNC_ALIGNING) u 1 = 1 then
    let s := s.setFld F.ODO_POS_POS (wrapTo 64 (s.odoPos u + d)) u
    let s := s.setOdo u { s.odo u with high := (s.odo u).high + d }
    s.setFld F.JCT_SYNC_ALIGNING (putBits (s.fld F.JCT_SYNC_ALIGNING) u 1 0)
  else s

/-- A master's position of one odometer meets the own sample of the same instant (R406). -/
def State.positionOne (s : State) (unsync : Bool) (own : List (Nat × Int)) (q : Nat × Int) : State :=
  match own.find? fun o => o.1 == q.1 with
  | none => s
  | some o =>
    let d := q.2 - o.2
    let (d0, n0) := mapGet (0, 0) s.posDiff q.1
    let n := if unsync then 0 else if d = d0 ∧ 0 < n0 then n0 + 1 else 1
    let s : State := { s with posDiff := mapSet (0, 0) s.posDiff q.1 (d, n) }
    let s := (s.setFld F.JCT_ODO_DIFF_DIFF (wrapTo 48 d) q.1).setFld F.JCT_ODO_DIFF_STABLE (if 3 ≤ n then 1 else 0) q.1
    if 3 ≤ n then s.alignOdo q.1 d else s

/-- A position message of the master arrives (R406). -/
def State.positionIn (s : State) (time : Nat) (unsync : Bool) (vals : List (Nat × Int)) : State :=
  match s.odoSamp.find? fun x => x.1 == time with
  | some (_, own) => vals.foldl (fun s q => s.positionOne (unsync || s.timeUnsync) own q) s
  | none => s

/-- R406: a position message arrives. -/
def execPositionMessage (dt : Nat) (time : Nat) (unsync : Bool) (vals : List (Fin 4 × Int)) (s : State) : Answer :=
  let s := s.tick dt
  .next (s.positionIn time unsync (vals.map fun v => (v.1.val, v.2)))

/-- A direct write of JCT_SYNC (R406, R409). -/
def State.jctSyncWrite (s : State) (r : Requester) (v : Nat) : State :=
  let s := s.setFld F.JCT_SYNC_POSMASTER (bitsOf v 16 8)
  let named (u : Nat) : Bool := (List.range 16).any fun g => s.fld F.ODO_TG_CFG_ODO g == u
  let us := (List.range 4).filter fun u => bitsOf v u 1 == 1
  let s := if us.any named then s.aelReg r (regAddr .JCT_SYNC) 9 0 v else s
  (us.filter fun u => !named u).foldl (fun s u =>
    s.setFld F.JCT_SYNC_ALIGNING (putBits (s.fld F.JCT_SYNC_ALIGNING) u 1 1)) s

/-- R406: a direct write of JCT_SYNC asks for the alignment of odometers. -/
def execJctAlignWrite (dt : Nat) (r : Requester) (v : Word) (s : State) : Answer :=
  let s := s.tick dt
  .next (s.accessing r (regAddr .JCT_SYNC) 4 v.toNat fun _ => s.jctSyncWrite r v.toNat)

/-- R406: no stable sample within 100 ms: the alignment of odometer `u` is given up, and the MC logs it. -/
def execAlignTimeout (dt : Nat) (u : Fin 4) (s : State) : Answer :=
  let s := s.tick dt
  if bitsOf (s.fld F.JCT_SYNC_ALIGNING) u 1 = 1 then
    .next ((s.setFld F.JCT_SYNC_ALIGNING (putBits (s.fld F.JCT_SYNC_ALIGNING) u 1 0)).tell (.note 11 u))
  else .next s

end Sys2Proof.Machine
end

