-- ==== Sys2Proof/Machine/RouteCheck.lean ====
section
/-! DEFINITION. The route checker (R326): the rules that a route image must meet before a transaction places it. -/
namespace Sys2Proof.Machine

/-- The status codes of the route checker (R366). -/
def admitRoute : Nat := 0x0110
/-- See `admitRoute`. -/
def admitKernel : Nat := 0x0103
/-- See `admitRoute`. -/
def admitLinebuf : Nat := 0x0104

/-- Reserved bit ranges of a word, low bit and width, beside bits [15:8]; none for a reserved opcode (R306 to R323). -/
def wordRsv (w : Nat) : Option (List (Nat × Nat)) :=
  match w % 256 with
  | 0x00 => some [(16, 112)] | 0x01 => some [(16, 112)] | 0x16 => some [(16, 112)]
  | 0x02 => some [(20, 12), (64, 64)]
  | 0x03 => some [(33, 15), (64, 64)]
  | 0x04 => some [(52, 76)]
  | 0x05 => some [(28, 4), (76, 52)]
  | 0x08 => some ((24, 8) :: (match wf w 23 21 with
      | 0 => [(108, 20)] | 1 => [(85, 11), (112, 16)] | 2 => [(89, 39)] | _ => [(52, 76)]))
  | 0x09 => some [(32, 96)]
  | 0x0A => some [(16, 48)]
  | 0x10 => some [(35, 1), (55, 1), (75, 1), (95, 1), (124, 4)]
  | 0x11 => some [(35, 1), (55, 1), (75, 1), (95, 1), (124, 4)]
  | 0x12 => some [(35, 1), (55, 1), (75, 1), (95, 1), (124, 4)]
  | 0x13 => some [(35, 1), (55, 1), (75, 1), (95, 1), (124, 4)]
  | 0x14 => some [(35, 1), (55, 1), (75, 1), (110, 18)]
  | 0x15 => some [(35, 1), (55, 21), (90, 14), (126, 2)]
  | 0x18 => some [(39, 1), (42, 86)] | 0x19 => some [(39, 1), (42, 86)]
  | 0x20 => some [(35, 1), (50, 14), (96, 32)]
  | 0x21 => some [(35, 1), (55, 1), (71, 57)]
  | 0x22 => some [(35, 93)] | 0x25 => some [(35, 93)]
  | 0x23 => some [(35, 1), (55, 1), (96, 32)]
  | 0x24 => some [(35, 1), (60, 68)]
  | 0x28 => some [(87, 41)]
  | 0x29 => some [(26, 102)] | 0x2C => some [(26, 102)]
  | 0x2A => some [(34, 94)]
  | 0x2B => some [(27, 101)]
  | 0x2D => some [(112, 16)]
  | 0x30 => some [(28, 100)]
  | 0x38 => some [(51, 77)]
  | 0x39 => some [(70, 58)]
  | _ => none

/-- A reserved code or a value out of range in a field that no ADMIT_KERNEL row names. -/
def wordCode (w : Nat) : Bool :=
  match w % 256 with
  | 0x03 => decide (10 < wf w 31 28)
  | 0x04 => decide (wf w 51 40 = 0)
  | 0x05 => decide (wf w 26 24 = 7)
  | 0x08 => decide (3 < wf w 23 21 ∨ (wf w 23 21 = 0 ∧ 4 < wf w 84 82) ∨ (wf w 23 21 = 2 ∧ wf w 86 85 = 3))
  | 0x09 => decide (wf w 24 23 = 3)
  | 0x14 => decide (3 < wf w 90 88 ∨ 1 < wf w 92 91)
  | 0x38 => decide (wf w 49 34 = 0)
  | _ => false

/-- A code that an ADMIT_KERNEL row names: of PAD_MODE, UPS, SAMP, CHAN.MODE, OUT = 7, and of the UPS and the formats of EW. -/
def wordKernel (w : Nat) : Bool :=
  match w % 256 with
  | 0x08 => decide ((wf w 23 21 = 0 ∧ (wf w 63 62 = 3 ∨ wf w 65 64 = 3 ∨ wf w 107 106 = 3)) ∨ (wf w 23 21 = 1 ∧ 5 < wf w 82 80) ∨
      (wf w 23 21 = 2 ∧ wf w 82 80 = 7))
  | 0x14 => decide (wf w 103 102 = 3 ∨ 6 ≤ wf w 95 93 ∨ (wf w 90 88 ≤ 1 ∧ 6 ≤ wf w 98 96) ∨ wf w 101 99 = 7)
  | 0x15 => decide (6 ≤ wf w 124 122)
  | _ => false

/-- Does a word break the first row of the table. -/
def wordBad (w : Nat) : Bool :=
  match wordRsv w with
  | none => true
  | some rs => wf w 15 8 != 0 || rs.any (fun r => bitsOf w r.1 r.2 != 0) || wordCode w

/-- A loop body: its LOOP word and its last word. -/
structure Body where
  at_ : Nat
  last : Nat
  deriving DecidableEq, Repr

/-- The loop bodies around word `i`, innermost first. -/
def bodiesAt (i : Nat) (bs : List Body) : List Body := bs.filter fun b => decide (b.at_ < i ∧ i ≤ b.last)

/-- Every loop body of a route, later words first. -/
def bodiesOf : Nat → List Nat → List Body → List Body
  | _, [], acc => acc
  | i, w :: ws, acc => bodiesOf (i + 1) ws (if w % 256 = 4 then ⟨i, i + wf w 51 40⟩ :: acc else acc)

/-- Does word `i` break the loop and branch rules (R308, R309). -/
def flowBad (n : Nat) (bs : List Body) (i w : Nat) : Bool :=
  let here := bodiesAt i bs
  if w % 256 = 4 then
    let last := i + wf w 51 40
    decide (n ≤ last) || decide (8 ≤ here.length) || here.any fun b => decide (b.last < last)
  else if w % 256 = 5 then
    decide (n ≤ wf w 75 64) || decide ((bodiesAt (wf w 75 64) bs).head? ≠ here.head?)
  else false

/-- Length of the preamble (R312). -/
def preamble (ws : List Nat) : Nat := (ws.takeWhile fun w => [0x00, 0x02, 0x08, 0x09].contains (w % 256)).length

/-- Has a CFG word of the preamble written a part of set `k`. -/
def hasCfg (ws : List Nat) (k : Nat) : Bool := ws.any fun w => w % 256 == 8 && wf w 20 16 == k

/-- The configuration sets and rings that a preamble leaves (R312, R313), held by a tile of their own. -/
def preambleState (ws : List Nat) : State :=
  (ws.take (preamble ws)).foldl (fun s w =>
    if w % 256 = 8 then
      s.modTile 0 fun x => { x with cfg := mapSet 0 x.cfg (4 * wf w 20 16 + wf w 22 21) (BitVec.ofNat 96 (wf w 127 32)) }
    else if w % 256 = 9 then
      s.setRing 0 (wf w 17 16) ⟨wf w 31 31 == 1, wf w 22 18, 2 ^ wf w 24 23, wf w 29 25 + 1, wf w 30 30 == 1, 0⟩
    else s) State.reset

/-- Does ring `k` as the preamble leaves it break R111: its end, or a slot of another ring; or is it a feeder ring whose row is
smaller than the stripe's (R202, R313). -/
def ringBad (s : State) (feed k : Nat) : Bool :=
  let r := s.ringOf 0 k
  let meets (j : Nat) : Bool :=
    let q := s.ringOf 0 j
    j != k && q.en && decide (q.base < r.base + r.q * r.d ∧ r.base < q.base + q.q * q.d)
  r.en && (decide (32 < r.base + r.q * r.d) || (List.range 4).any meets || (r.feed && decide (4096 * r.q < feed)))

/-- Is ring `k` a second feeder ring (R313). -/
def feedTwice (s : State) (k : Nat) : Bool :=
  (s.ringOf 0 k).en && (s.ringOf 0 k).feed && (List.range 4).any fun j => j != k && (s.ringOf 0 j).en && (s.ringOf 0 j).feed

/-- Is a group shape one of R183. -/
def Geo.groupOk (g : Geo) : Bool :=
  if g.gr = 1 then true
  else if g.cin % g.gr ≠ 0 ∨ g.cout % g.gr ≠ 0 then false
  else
    let gi := g.cin / g.gr; let go := g.cout / g.gr
    if g.mmode = .nv4nv4 then gi % 32 == 0 && go % 16 == 0
    else (gi == go && [1, 2, 4, 8].contains gi) || (gi % 16 == 0 && go % 16 == 0)

/-- Strides, dilations and kernel inside the ranges of R175, and no reserved code of the set. -/
def Geo.convOk (g : Geo) (k : Nat) : Bool :=
  decide (g.kh ≤ k ∧ g.kw ≤ k ∧ g.sv ≤ 4 ∧ g.sh ≤ 4)

/-- Does a row with an upsampled width `w` give no output position. -/
def Geo.noOut (g : Geo) (w : Nat) : Bool := decide (w + g.pl + g.pr < (g.kw - 1) * g.dh + 1)

/-- The ring rules of an operator word with line-buffer input: at most four rings, each deep enough (R111, R175). -/
def ringInBad (s : State) (g : Geo) (w : Nat) : Bool :=
  let o := opnd w 16
  o.lb && (decide (4 < o.off % 4 + g.planes) ||
    (List.range g.planes).any fun i => let r := s.ringOf 0 (o.off % 4 + i); r.en && decide (r.d < (g.kh - 1) * g.dv + 2))

/-- The code with which a compute word is refused, if it is (R187, R314, R326). -/
def computeBad (s : State) (ws : List Nat) (w : Nat) : Option Nat :=
  let op := w % 256
  let k := wf w 104 100
  let g := s.geo 0 k
  let kernel (b : Bool) (rest : Option Nat) : Option Nat := if b then some admitKernel else rest
  let line (b : Bool) (rest : Option Nat) : Option Nat := if b then some admitLinebuf else rest
  let opk := if op = 0x10 then g.opk == 0 else if op = 0x11 then g.opk == 1 else if op = 0x12 then g.opk == 2
    else g.opk == 3 || g.opk == 4
  let drain := wf w 118 118 == 1
  let ow := opnd w 36
  if !hasCfg (ws.take (preamble ws)) k || !opk then some admitRoute
  else kernel ((drain && g.nvdyn) || (!drain && (decide (1 < g.gOut) || op == 0x13)) ||
      (op != 0x12 && !(opnd w 16).lb && g.db == 0) ||
      (op != 0x13 && op != 0x12 && ow.reg == 0 && ow.off % (if g.tw = 8 then 8 else 16) != 0)) <|
    match op with
    | 0x10 => kernel (!g.convOk 15 || !g.groupOk || g.noOut g.wEff) <| line (decide (256 < g.wOut) || ringInBad s g w) none
    | 0x11 => kernel (decide (g.kh ≠ 1 ∨ g.kw ≠ 1 ∨ g.sv ≠ 1 ∨ g.sh ≠ 1 ∨ g.dv ≠ 1 ∨ g.dh ≠ 1 ∨ g.pt + g.pb + g.pl + g.pr ≠ 0) ||
        !g.groupOk) <| line (decide (256 < g.wEff) || ringInBad s g w) none
    | 0x12 => kernel (!g.convOk 9 || decide (g.ups ≠ 1 ∨ 4 < g.cin ∨ 16 < g.cout ∨ 15 < (g.kh - 1) * g.dv + 1 ∨
        15 < (g.kw - 1) * g.dh + 1 ∨ 8 < g.shift ∨ (g.samp = 1 ∧ g.zp ≠ 0)) || g.noOut g.win) <|
        line (decide (2048 < g.win ∨ 16384 < g.win * g.cin * (if g.samp = 2 then 2 else 1)) || ringInBad s g w) none
    | _ => kernel (decide (8 < g.kh ∨ 8 < g.kw ∨ g.dv ≠ 1 ∨ g.dh ≠ 1) || g.noOut g.wEff) none

/-- Does EW or RQ name a set that no CFG has written, where it needs one (R312, R317). -/
def elementBad (ws : List Nat) (w : Nat) : Bool :=
  (w % 256 == 0x15 || (decide (3 ≤ wf w 101 99 ∧ wf w 101 99 ≤ 6))) && !hasCfg (ws.take (preamble ws)) (wf w 108 104)

/-- Why word `i` of a route is refused, if it is. -/
def wordRefused (s : State) (ws : List Nat) (bs : List Body) (feed i w : Nat) : Option Nat :=
  let op := w % 256
  if wordBad w || flowBad ws.length bs i w || ((op == 8 || op == 9) && decide (preamble ws ≤ i)) ||
    (op == 9 && feedTwice s (wf w 17 16)) then some admitRoute
  else if wordKernel w then some admitKernel
  else if op = 9 ∧ ringBad s feed (wf w 17 16) then some admitLinebuf
  else if op = 0x10 ∨ op = 0x11 ∨ op = 0x12 ∨ op = 0x13 then computeBad s ws w
  else if (op = 0x14 ∨ op = 0x15) ∧ elementBad ws w then some admitRoute
  else none

/-- The code with which the route checker refuses a route, if it does (R326): that of its first offending word; `feed` is the
bytes of a feeder row of its stripe. -/
def routeRefused (ws : List Nat) (feed : Nat) : Option Nat :=
  if ws.length = 0 ∨ 4096 < ws.length then some admitRoute
  else
    let s := preambleState ws
    let bs := bodiesOf 0 ws []
    match (ws.zipIdx).findSome? fun q => wordRefused s ws bs feed q.2 q.1 with
    | some c => some c
    | none => if ws.getLast? = some 1 then none else some admitRoute

end Sys2Proof.Machine
end

