-- ==== Sys2Proof/Machine/Checks.lean ====
section
/-! DEFINITION. The checks of the prepare phase (R282) on the configuration that a transaction leaves: splices and stripes (R90, R92,
R199, R202), crews (R210), steering (R50, R51, R72, R81, R87, R391), streams (R238), catalogue (R258), junctions (R403), columns,
domains and tiles in use (R136, R422, R424, R427, R428, R441, R447), detours (R219). Each answers the refusal code, or none. -/
namespace Sys2Proof.Machine

/-- A code where a rule is broken, else what follows. -/
def refuseIf (b : Bool) (code : Nat) (rest : Option Nat) : Option Nat := if b then some code else rest

/-- The first refusal of a list of checks. -/
def firstRefusal {α : Type} (xs : List α) (f : α → Option Nat) : Option Nat := xs.findSome? f

/-! ## What is in use -/

/-- The crews of the plan in force: unit, stripe entry, first tile, members. -/
def State.crewsNow (s : State) : List (Nat × Nat × Nat × Nat) :=
  (List.range 16).flatMap fun u =>
    let set := s.slotSet u (s.refU u).cur
    (crewEntries set u).map fun e => let q := crewSpan set u e; (u, e, q.1, q.2)

/-- The crew with a member at tile `t` in the plan in force. -/
def State.crewAt (s : State) (t : Nat) : Option (Nat × Nat) :=
  (s.crewsNow.find? fun q => decide (q.2.2.1 ≤ t ∧ t < q.2.2.1 + q.2.2.2)).map fun q => (q.1, q.2.1)

/-- Does tile `t` have a crew role in the plan in force, by itself or for a substituted column. -/
def State.crewRole (s : State) (t : Nat) : Bool :=
  ((s.crewAt t).isSome && !(List.range 2).any fun k => s.flag F.RAS_SUBST_EN k && s.flag F.RAS_SUBST_ACTIVE k &&
    s.fld F.RAS_SUBST_COL k == tileCol t) ||
  (List.range 2).any fun k => (s.flag F.RAS_SUBST_EN k || s.flag F.RAS_SUBST_ACTIVE k) && s.laybyCol k == tileCol t &&
    (s.crewAt (32 * s.fld F.RAS_SUBST_COL k + t % 32)).isSome

/-- Does tile `t` carry a detour, as its layby tile. -/
def State.carriesDetour (s : State) (t : Nat) : Bool :=
  (List.range 64).any fun k => s.flag F.RAS_DETOUR_VALID k && s.laybyTile k == t

/-- Does a column stand in a substitution, on either side. -/
def State.inSubst (s : State) (c : Nat) : Bool :=
  (List.range 2).any fun k => (s.flag F.RAS_SUBST_EN k || s.flag F.RAS_SUBST_ACTIVE k) &&
    (s.fld F.RAS_SUBST_COL k == c || s.laybyCol k == c)

/-- Does a column carry a substitution, or stand in one that is being switched. -/
def State.substBusy (s : State) (c : Nat) : Bool :=
  (List.range 2).any fun k => (s.flag F.RAS_SUBST_EN k || s.flag F.RAS_SUBST_ACTIVE k) &&
    (s.laybyCol k == c || (s.fld F.RAS_SUBST_COL k == c && s.fld F.RAS_SUBST_EN k != s.fld F.RAS_SUBST_ACTIVE k))

/-- The tiles of a column. -/
def colTiles (c : Nat) : List Nat := (List.range 32).map (32 * c + ·)

/-- The tiles on the mesh path from `a` to `b`: along the row, then along the column (R134). -/
def meshPath (a b : Nat) : List Nat :=
  let walk (x y : Nat) : List Nat :=
    if x ≤ y then (List.range (y - x + 1)).map (x + ·) else (List.range (x - y + 1)).map (x - ·)
  (walk (tileCol a) (tileCol b)).map (fun c => 32 * c + a % 32) ++
    ((walk (a % 32) (b % 32)).drop 1).map (fun r => 32 * tileCol b + r)

/-- The directed links of a path. -/
def linksOf : List Nat → List (Nat × Nat)
  | a :: b :: r => (a, b) :: linksOf (b :: r)
  | _ => []

/-- Forwarding member and layby tile of every live detour. -/
def State.detours (s : State) : List (Nat × Nat) :=
  ((List.range 64).filter fun k => s.flag F.RAS_DETOUR_VALID k).map fun k => (s.fld F.RAS_DETOUR_FWD k, s.laybyTile k)

/-- Does a mesh path of a live task cross column `c` (R136): a detour's, or one of a packet on its way out. -/
def State.pathCrosses (s : State) (c : Nat) : Bool :=
  let over_ (a b : Nat) : Bool := (meshPath a b).any fun t => tileCol t == c
  s.detours.any (fun q => over_ q.1 q.2) || s.tiles.any fun q => (s.sbList q.1).any fun e =>
    match e.2.op with
    | .mesh p => over_ p.src (s.subTile p.dest)
    | _ => false

/-- May a column be parked or switched off (R136, R447). -/
def State.colBusy (s : State) (c req : Nat) : Bool :=
  s.inSubst c || (colTiles c).any (fun t => s.crewRole t || s.carriesDetour t || s.tState t == tTest) ||
    (req == 3 && s.pathCrosses c)

/-- A write of PWR_COL of column `c` in the state `t` that the transaction leaves. -/
def State.colCheck (s t : State) (c : Nat) : Option Nat :=
  let req := t.fld F.PWR_COL_REQ c
  refuseIf (req == 2) 0x0102 <| refuseIf ((req == 1 || req == 3) && s.colBusy c req) 0x0503 none

/-- A change of PWR_DOM.REQ_ON of domain `d` (R441). -/
def State.domCheck (s t : State) (d : Nat) : Option Nat :=
  let g := d - 10
  refuseIf (s.flag F.PWR_DOM_REQ_ON d != t.flag F.PWR_DOM_REQ_ON d &&
    (if d = 4 then (List.range 4).any (s.flag F.NET_CFG_EN ·) || (List.range 2).any (s.flag F.PLB_CFG_EN ·)
     else if d = 5 then (List.range 4).any (s.flag F.JCT_CFG_EN ·)
     else if 10 ≤ d ∧ d ≤ 13 then
       ((List.range 4).any fun i => (s.connOf (4 * g + i)).isSome) ||
       ((List.range 16).any fun i => (mapGet ⟨none, none, false⟩ s.links (16 * g + i)).conn.isSome) ||
       (match s.bist with | some b => b.unit && b.idx / 4 == g | none => false)
     else false)) 0x0503 none

/-- A committed write of RAS_RETIRED (R422): a tile with a crew role or a detour is not retired. -/
def State.retireCheck (s t : State) (c : Nat) : Option Nat :=
  let new := (List.range 32).filter fun r =>
    bitsOf (t.fld F.RAS_RETIRED_ROWS c) r 1 == 1 && bitsOf (s.fld F.RAS_RETIRED_ROWS c) r 1 == 0
  refuseIf (new.any fun r => s.crewRole (32 * c + r) || s.carriesDetour (32 * c + r)) 0x0503 none

/-- A start of a self-test (R428). -/
def State.bistCheck (s : State) (unit : Bool) (i : Nat) : Option Nat :=
  refuseIf (s.bist.isSome || (if unit then decide (16 ≤ i) || (s.connOf i).isSome
    else decide (34 ≤ i) || !s.colOpen i || s.substBusy i ||
      (colTiles i).any fun t => s.crewRole t || s.carriesDetour t || s.tState t != tIdle)) 0x0503 none

/-- A preset of odometer `u` (R405). -/
def State.odoCheck (s : State) (u : Nat) : Option Nat :=
  refuseIf (!(s.flag F.ODO_STAT_STOPPED u || !s.flag F.ODO_CFG_EN u) ||
    (List.range 16).any fun g => s.flag F.ODO_TG_CFG_EN g && s.fld F.ODO_TG_CFG_ODO g == u) 0x0503 none

/-! ## Crews -/

/-- The frequency at which a column's tiles are to run, in MHz. -/
def State.colReqMhz (s : State) (c : Nat) : Nat := opMhz (s.fld F.PWR_COL_REQ_OP c)

/-- Is the capacity of the full plan of a crew below its connection's line rate (R210); `col` is the column that runs it. -/
def State.crewSlow (s : State) (u e n col : Nat) : Bool :=
  match s.crewPkg u e, (s.connOf u).bind s.minPer with
  | some p, some per => decide (n * s.colReqMhz col * (100 - s.fld F.STR_SCHED_MARGIN_MARGIN_PCT) * per < 100000 * p.full.cnet)
  | _, _ => false

/-- The check of R210 on the crews of a unit under a set. -/
def State.rateCheck (s : State) (u : Nat) (set : FMap DWord) : Option Nat :=
  refuseIf ((crewEntries set u).any fun e =>
    s.crewSlow u e (crewSpan set u e).2 (tileCol (s.subTile (crewSpan set u e).1))) 0x010D none

/-- Is a milestone of a run set not a task's (R282). -/
def State.runSetBad (s : State) (p : PkgPlan) : Bool :=
  (runMs p.runSet).any fun m => decide (16384 ≤ m) || s.fld F.MS_CFG_OWNER m != 3

/-- The bytes of a feeder row of stripe entry `e` (R202, R203). -/
def State.feedBytes (s : State) (u e : Nat) (set : FMap DWord) : Nat :=
  let k := setFldIn set F.ING_STRIPE_CREW_SPLICE u e
  (setFldIn set F.ING_STRIPE_GEOM_W_M1 u e + 1) * (s.chainGeo u).tapC (splFld set F.REF_SPLICE_SRC u k) *
    (if splFld set F.REF_SPLICE_SEND8 u k = 1 then 1 else 2)

/-- The checks of a plan that a transaction places for the crew of a stripe entry (R282, R326). -/
def State.planCheck (s : State) (u e : Nat) (set : FMap DWord) (p : Option PkgPlan) : Option Nat :=
  match p with
  | some p => refuseIf (s.runSetBad p) 0x0503 (routeRefused p.words (s.feedBytes u e set))
  | none => some 0x0503

/-- The activation of a plan bank for a unit (R282, R326, R498): every plan that it places. -/
def State.modelCheck (s : State) (u bank : Nat) (set : FMap DWord) : Option Nat :=
  let b := s.bank bank
  refuseIf (b.st == 0) 0x0503 <| refuseIf (b.release / 2 ^ 24 != s.fwMajor) 0x0111 <|
    match firstRefusal (b.pkg.crews.filter fun c => c.unit == u) fun c =>
      match s.planCheck u c.entry set (some c.full) with
      | some code => some code
      | none => match c.nm1 with
        | some p => s.planCheck u c.entry set (some p)
        | none => none with
    | some code => some code
    | none => s.rateCheck u set

/-! ## Splices and stripes -/

/-- Do the returning intervals of a set overlap, or two returns meet at one tap (R90). -/
def splOverlap (set : FMap DWord) (u : Nat) : Bool :=
  let rs := ((List.range 4).filter fun k => splReturns set u k).map fun k =>
    (k, splFld set F.REF_SPLICE_SRC u k, splFld set F.REF_SPLICE_RET u k)
  rs.any fun a => rs.any fun b => a.1 != b.1 && (decide (a.2.1 < b.2.2 ∧ b.2.1 < a.2.2) || a.2.2 == b.2.2)

/-- The rules of R90. -/
def spliceCheck (set : FMap DWord) (u : Nat) : Option Nat :=
  refuseIf (splOverlap set u || (List.range 4).any fun k => splFld set F.REF_SPLICE_EN u k == 1 &&
    (decide (splFld set F.REF_SPLICE_RET u k ≤ splFld set F.REF_SPLICE_SRC u k ∨ 5 < splFld set F.REF_SPLICE_SRC u k) ||
     splFld set F.REF_SPLICE_RET u k == 6)) 0x010B none

/-- Chain-line width of the connection of a unit, none before its camera has sent a header (R75). -/
def State.chainWidth (s : State) (u : Nat) : Option Nat :=
  match s.connOf u with
  | some c =>
    let g := s.chainGeo u
    let w := s.rowWidth c
    if w = 0 then none else some (if g.bayer = 0 then w / g.n else w)
  | none => none

/-- W_tap (R199). -/
def State.tapWidth (s : State) (u : Nat) : Option Nat :=
  let g := s.chainGeo u
  (s.chainWidth u).map fun w => if g.bayer = 0 then w else w / 2

/-- H_REQ of a splice entry of the package in use (R202). -/
def State.haloReq (s : State) (u k : Nat) : Nat :=
  (((s.unitPkg u).bind fun p => p.splices.find? fun x => x.unit == u && x.k == k).map (·.hreq)).getD 0

/-- Does the device belong to a stitched system: one of its junction ports is enabled. -/
def State.stitched (s : State) : Bool := (List.range 4).any (s.flag F.JCT_CFG_EN ·)

/-- Core of a stripe: first column and width (R200). -/
def stripeCore (set : FMap DWord) (u e : Nat) : Int × Int :=
  let hl := setFldIn set F.ING_STRIPE_HALO_H_L u e
  (sext (setFldIn set F.ING_STRIPE_GEOM_X0 u e) 16 + hl,
   (setFldIn set F.ING_STRIPE_GEOM_W_M1 u e : Int) + 1 - hl - setFldIn set F.ING_STRIPE_HALO_H_R u e)

/-- Do the cores tile `from_` to `w` exactly: each begins where the one before ends. -/
def coversFrom (w : Int) : Int → List (Int × Int) → Bool
  | from_, [] => from_ == w
  | from_, c :: cs => c.1 == from_ && coversFrom w (from_ + c.2) cs

/-- Does a stripe break a rule of R202 that names it alone. -/
def State.stripeBad (s : State) (u k e : Nat) (set : FMap DWord) : Bool :=
  let f (fl : Fld) : Nat := setFldIn set fl u e
  let ct := (s.chainGeo u).tapC (splFld set F.REF_SPLICE_SRC u k)
  let w := f F.ING_STRIPE_GEOM_W_M1 + 1
  let q := 2 ^ f F.ING_STRIPE_CREW_OSH
  let core := (stripeCore set u e).2
  let edge (x : Nat) : Bool := x == 3 || (x == 2 && !s.stitched)
  decide (16384 < w * ct * (if splFld set F.REF_SPLICE_SEND8 u k = 1 then 1 else 2)) ||
  decide (f F.ING_STRIPE_HALO_H_L < s.haloReq u k ∨ f F.ING_STRIPE_HALO_H_R < s.haloReq u k) ||
  decide (core < (q : Nat) ∨ core % (q : Nat) ≠ 0 ∨ f F.ING_STRIPE_HALO_H_L % q ≠ 0) ||
  edge (f F.ING_STRIPE_HALO_EDGE_L) || edge (f F.ING_STRIPE_HALO_EDGE_R) ||
  decide (31 < f F.ING_STRIPE_CREW_HEAD + f F.ING_STRIPE_CREW_N_M1 ∨ 34 ≤ f F.ING_STRIPE_CREW_COL) ||
  f F.ING_STRIPE_CREW_COL == s.laybyCol 0 || f F.ING_STRIPE_CREW_COL == s.laybyCol 1

/-- The stripe sets of a unit (R199, R202). -/
def State.stripeCheck (s : State) (u : Nat) (set : FMap DWord) : Option Nat :=
  firstRefusal (List.range 4) fun k =>
    let src := splFld set F.REF_SPLICE_SRC u k
    let es := (stripesOf set u k).filter fun e => setFldIn set F.ING_STRIPE_CREW_EXPORT u e == 0
    let cores := sortBy (es.map (stripeCore set u)) fun a b => decide (a.1 ≤ b.1)
    refuseIf (!es.isEmpty && (decide (4 < (s.chainGeo u).tapC src) || es.any (fun e => s.stripeBad u k e set) ||
      (match s.tapWidth u with
       | some w => !coversFrom w 0 cores
       | none => false))) 0x010B none

/-- Crews placed on tiles that crews of another unit with a connection use, or that are RETIRED or in TEST (R202); `sets` names the set of each unit. -/
def State.placeCheck (s : State) (u : Nat) (sets : Nat → FMap DWord) : Option Nat :=
  let tiles (v : Nat) : List Nat := (crewEntries (sets v) v).flatMap fun e =>
    let q := crewSpan (sets v) v e
    (List.range q.2).map (q.1 + ·)
  let mine := tiles u
  let rest := ((List.range 16).filter fun v => v != u && (s.connOf v).isSome).flatMap tiles
  refuseIf (decide (mine.dedup.length ≠ mine.length) || mine.any (fun t => rest.contains t) ||
    mine.any fun t => s.tState (s.subTile t) == tRetired || s.tState (s.subTile t) == tTest) 0x0503 none

/-- The sample rate of a tap, times N × K_IL × B, in samples a chain-line period of the connection's width (R92). -/
def ChainGeo.tapShare (g : ChainGeo) (w t : Nat) : Nat :=
  if t = 0 then w * g.n * g.kil * g.d else if t ≤ 3 then w * g.kil * g.d else w * g.kout

/-- The tap traffic of a unit (R92). -/
def State.tapCheck (s : State) (u : Nat) (set : FMap DWord) : Option Nat :=
  match s.connOf u with
  | none => none
  | some c => match s.minPer c with
    | none => none
    | some per =>
      let g := s.chainGeo u
      let w := s.rowWidth c
      let es := (List.range 4).filter fun k => splFld set F.REF_SPLICE_EN u k == 1
      let b (f : Fld) (k : Nat) : Nat := if splFld set f u k = 1 then 1 else 2
      let send := (es.map fun k => g.tapShare w (splFld set F.REF_SPLICE_SRC u k) * b F.REF_SPLICE_SEND8 k).sum
      let ret := ((es.filter fun k => splFld set F.REF_SPLICE_RET u k != 7).map fun k =>
        g.tapShare w (splFld set F.REF_SPLICE_RET u k) * b F.REF_SPLICE_RET8 k).sum
      refuseIf (decide (8 * per * (g.n * g.kil * g.d) < send ∨ 8 * per * (g.n * g.kil * g.d) < ret)) 0x010C none

/-- A unit's parameter set as a transaction leaves it. -/
def State.unitCheck (s : State) (u : Nat) (sets : Nat → FMap DWord) : Option Nat :=
  match spliceCheck (sets u) u with
  | some c => some c
  | none => match s.stripeCheck u (sets u) with
    | some c => some c
    | none => match s.placeCheck u sets with
      | some c => some c
      | none => s.tapCheck u (sets u)

/-- Export reservations of the junction ports (R403). -/
def State.exportCheck (s : State) (sets : Nat → FMap DWord) : Option Nat :=
  refuseIf ((List.range 4).any fun j => decide ((laneCap (s.fld F.JCT_STAT_LANES j)).2 < s.jctReserved j sets)) 0x0105 none

/-! ## Steering -/

/-- Bits of a pixel of a format on its way from a GigE Vision camera (R391). -/
def pixelBits (pfnc : Nat) : Nat := bitsOf pfnc 16 8

/-- Payload rates of the GigE Vision connections of a port, in bits a second, each rounded up. -/
def State.gvRate (s : State) (port : Nat) : Nat :=
  (((List.range 16).filter fun c => (s.conn c).gv && s.flag F.ING_CONN_CFG_STEERED c && s.fld F.NET_GV_CFG_PORT c == port).map fun c =>
    match s.minPer c with
    | some per => ((s.conn c).width * pixelBits (s.fld F.ING_CONN_PIXFMT_PFNC c) * 1000000000 + per - 1) / max 1 per
    | none => 0).sum

/-- The geometry of a unit for a connection (R81, R87). -/
def State.geomBad (s : State) (c u : Nat) : Bool :=
  let g := s.chainGeo u
  let w := s.rowWidth c
  decide (1 < g.n ∧ (s.areaScan c = true ∨ g.bayer ≠ 0 ∨ (1 < g.kil ∧ g.shift % g.kil ≠ 0))) ||
  decide (w % g.n ≠ 0 ∨ 1048576 < (g.n - 1) * g.shift * (w / g.n) * 4) ||
  decide (1 < g.kil ∧ (s.areaScan c = true ∨ g.bayer ≠ 0)) || decide (5 ≤ g.bayer)

/-- A steering action of connection `c` to unit `u` (R50, R51, R72, R81, R87, R391, R428), in the state `t` that the transaction
leaves. -/
def State.steerCheck (s t : State) (c u : Nat) : Option Nat :=
  let st := s.fld F.ING_CONN_CFG_STATE c
  let once := s.flag F.ING_CONN_CFG_STEERED c
  let taken := (List.range 16).any fun d => d != c &&
    ((t.flag F.ING_CONN_CFG_STEERED d && t.fld F.ING_CONN_CFG_UNIT d == u) || (s.conn d).segs.any fun g => g.unit == u)
  let per := t.minPer c
  let w := (s.conn c).width
  let slow (k : Nat → Bool) : Bool := match per with | some p => k p | none => false
  refuseIf (st == 0 || st == 4 || st == 6 || st == 7 || ((st == 1 || st == 5) && !once)) 0x0509 <|
  refuseIf (taken || bitsOf (s.fld F.RAS_STAT_UNIT_FAIL) u 1 == 1) 0x0503 <|
  refuseIf (decide (32768 < w) || slow (fun p => decide (4 * p < w)) ||
    ((s.conn c).gv && (slow (fun p => decide (p < 2000)) || decide (90000000000 < t.gvRate (s.fld F.NET_GV_CFG_PORT c))))) 0x0109 <|
  refuseIf (decide (t.fld F.ING_RES_CFG_CAP_LINES c < 2 * t.segSize) ||
    slow (fun p => decide (50000000 < t.fld F.ING_RES_CFG_CAP_LINES c * p))) 0x0107 <|
  refuseIf (t.geomBad c u) 0x010A none

/-! ## Streams -/

/-- Burst of a slot in bytes. -/
def State.rBurst (s : State) (k z : Nat) : Nat := 64 * 2 ^ s.fld F.STR_SLOT_RATE_BURST k z
/-- Effective reserved rate of a slot in MB/s (R238). -/
def State.effRate (s : State) (k z : Nat) : Nat := s.fld F.STR_SLOT_RATE_RATE_MBPS k z * max 1 (256 / s.rBurst k z)
/-- The configured slots of engine `k`. -/
def State.slotsOn (s : State) (k : Nat) : List Nat := (List.range 256).filter fun z => s.flag F.STR_SLOT_RATE_EN k z
/-- The deadline-class slots of engine `k`. -/
def State.deadSlots (s : State) (k : Nat) : List Nat := (s.slotsOn k).filter fun z => s.flag F.STR_SLOT_RATE_CLASS k z
/-- The reservation of stack `k` (R238). -/
def State.stackRsv (s : State) (k : Nat) : Nat := ((s.deadSlots k).map (s.effRate k)).sum
/-- The outstanding entries reserved at engine `k` (R238). -/
def State.outRsv (s : State) (k : Nat) : Nat :=
  (((s.deadSlots k).filter fun z => !s.flag F.STR_SLOT_RATE_DIR k z).map fun z =>
    (s.fld F.STR_SLOT_RATE_RATE_MBPS k z * 800 + 1000 * s.rBurst k z - 1) / (1000 * s.rBurst k z)).sum

/-- Bring STR_CAP, STR_RSV and STR_OUT of engine `k` up to date (R225, R238, R239). -/
def State.slotRates (s : State) (k : Nat) : State :=
  let good := ((List.range 4).filter fun q => bitsOf (s.fld F.STR_OCTET_RETIRED k) q 1 == 0).length
  let sust := 1095200 * good / 4
  let s := s.setFld F.STR_CAP_SUST_MBPS sust k
  let s := (s.setFld F.STR_RSV_RSV_MBPS (min (s.stackRsv k) (2 ^ 21 - 1)) k).setFld F.STR_OUT_OUT_RSV (min (s.outRsv k) 511) k
  s.setFld F.STR_CAP_OVER (if 9 * sust < 10 * s.stackRsv k then 1 else 0) k

/-- Is a page that a row of a slot's stream touches without a valid entry, or the stream outside its stack (R238). -/
def State.rangeBad (s : State) (k z : Nat) : Bool :=
  let a := s.fld F.STR_SLOT_BASE_ADDR k z * 64
  let rows := s.fld F.STR_SLOT_ROWS_ROWS_M1 k z
  let p := s.fld F.STR_SLOT_ROW_PITCH_64 k z * 64
  let r := (s.fld F.STR_SLOT_ROW_ROW_64_M1 k z + 1) * 64
  let last := a + rows * p + r
  if a / stackBytes ≠ k ∨ (k + 1) * stackBytes < last ∨ p < r then true
  else (List.range ((last - 1) / pageBytes - a / pageBytes + 1)).any fun i =>
    let q := (a / pageBytes + i) * pageBytes
    let row := if q + pageBytes ≤ a then 0 else min rows ((q + pageBytes - 1 - a) / max 1 p)
    decide (q < a + row * p + r) && (s.hbmPhys q).isNone

/-- The checks of R238 on one configured slot alone. -/
def State.slotCfgBad (s : State) (k z : Nat) : Bool :=
  let f (x : Fld) : Nat := s.fld x k z
  let client := f F.STR_SLOT_RATE_CLIENT
  let rate := f F.STR_SLOT_RATE_RATE_MBPS
  let b := (f F.STR_SLOT_BUF_LEN_M1 + 1) * 16
  let dead := f F.STR_SLOT_RATE_CLASS == 1
  let t := f F.STR_SLOT_TILE_TILE
  let ns := if f F.STR_SLOT_RATE_DIR = 1 then 600 else 800
  decide (5 < f F.STR_SLOT_RATE_BURST ∨ 4 < client) || (dead && rate == 0) || (client == 4 && dead) || s.rangeBad k z ||
  (client == 0 && (decide (1088 ≤ t ∨ b < s.rBurst k z + (rate * ns + 999) / 1000 ∨ (t % 32 < 16) ≠ (k < 2)) ||
    decide (spaceWords (f F.STR_SLOT_TILE_SPACE == 1) < f F.STR_SLOT_BUF_BASE_W + f F.STR_SLOT_BUF_LEN_M1 + 1)))

/-- Is a spine over its reservation (R228, R238). -/
def State.spineBad (s : State) (c half dir : Nat) : Bool :=
  let load := ([2 * half, 2 * half + 1].flatMap fun k => ((s.slotsOn k).filter fun z =>
    s.fld F.STR_SLOT_RATE_CLIENT k z == 0 && s.fld F.STR_SLOT_RATE_DIR k z == dir &&
      tileCol (s.fld F.STR_SLOT_TILE_TILE k z) == c).map (s.effRate k)).sum
  decide (9 * 64 * s.colReqMhz c < 10 * load)

/-- The checks of R238: `changed` names the slots that are checked alone. -/
def State.streamCheck (s : State) (changed : List (Nat × Nat)) : Option Nat :=
  refuseIf (changed.any fun q => s.flag F.STR_SLOT_RATE_EN q.1 q.2 && s.slotCfgBad q.1 q.2) 0x0106 <|
  refuseIf ((List.range 4).any fun k =>
    decide (9 * (1095200 * ((List.range 4).filter fun q => bitsOf (s.fld F.STR_OCTET_RETIRED k) q 1 == 0).length / 4) < 10 * s.stackRsv k ∨
      460 < s.outRsv k)) 0x0105 <|
  refuseIf ((List.range 34).any fun c => (List.range 2).any fun h => (List.range 2).any fun d => s.spineBad c h d) 0x0105 none

/-! ## Catalogue -/

/-- One past the last candidate that the directory of a nearest table names. -/
def State.listEnd (s : State) (t : CatTab) : Nat :=
  (List.range (2 ^ t.hbits)).foldl (fun n i => max n ((s.catWord (t.aux + 8 * i) 4).1 + (s.catWord (t.aux + 8 * i + 4) 2).1)) 0

/-- Does an enabled descriptor break R254, R256, R257 or R258. -/
def State.tabBroken (s : State) (i : Nat) : Bool :=
  let t := s.catTab i
  decide (t.rows = 0 ∨ 2 ^ 30 < t.rows ∨ t.kind = 3) ||
  (if t.elem = 3 then decide (t.d % 32 ≠ 0 ∨ t.row < 9 * t.d / 16 ∨ 1792 < t.d) else decide (t.row < t.d)) ||
  (t.kind == 1 && decide (t.hbits < 4 ∨ 30 < t.hbits ∨ t.rows ≠ 2 ^ t.hbits)) ||
  (t.kind == 2 && decide (t.hbits < 4 ∨ 16 < t.hbits)) ||
  !s.hbmMapped t.base (t.rows * t.row) || !s.hbmMapped t.vmap ((t.rows + 7) / 8) ||
  (t.kind == 1 && !s.hbmMapped t.aux (8 * t.rows)) ||
  (t.kind == 2 && decide (t.hbits ≤ 16) && !s.hbmMapped t.aux (8 * 2 ^ t.hbits + 4 * s.listEnd t))

/-- The checks of R258 on every enabled descriptor. -/
def State.catCheck (s : State) : Option Nat :=
  let on := (List.range 64).filter fun i => s.flag F.CAT_TAB_FMT_EN i
  refuseIf (on.any s.tabBroken || decide (64 * 2 ^ 30 < (on.map fun i => (s.catTab i).rows * (s.catTab i).row).sum)) 0x010E none

/-! ## Detours and substitutions -/

/-- Does column `c` return from substitution `k` in the state `t`. -/
def State.returns (s t : State) (k : Nat) : Bool := s.flag F.RAS_SUBST_EN k && !t.flag F.RAS_SUBST_EN k

/-- A detour (R219, R427), in the state `t` that the transaction leaves. -/
def State.detourRefused (s t : State) (layby fwd slow : Nat) : Option Nat :=
  match s.laybyIdx layby, s.crewAt slow with
  | some _, some (u, e) =>
    let set := s.slotSet u (s.refU u).cur
    let (head, n) := crewSpan set u e
    let back := (List.range 2).any fun k => s.returns t k && s.laybyCol k == tileCol layby && s.fld F.RAS_SUBST_COL k == tileCol slow
    let want := if slow = head then head + 1 else slow - 1
    let links (q : Nat × Nat) : List (Nat × Nat) := linksOf (meshPath q.1 q.2) ++ linksOf (meshPath q.2 q.1)
    let mine := links (fwd, layby)
    refuseIf (decide (n < 2 ∨ fwd ≠ want) || s.carriesDetour layby || (!back && s.tState layby != tIdle) ||
      s.flag F.TILE_RB_FWD_EN fwd || s.detours.any fun q => (links q).any fun l => mine.contains l) 0x0503 <|
      s.planCheck u e set (s.crewPlan u e)
  | _, _ => some 0x0503

/-- A write of RAS_SUBST (R424, R427), in the state `t` that the transaction leaves; `det` lists the slow tiles of its detours. -/
def State.substCheck (s t : State) (k : Nat) (det : List Nat) : Option Nat :=
  let c := t.fld F.RAS_SUBST_COL k
  let l := s.laybyCol k
  if t.flag F.RAS_SUBST_EN k then
    refuseIf (c == s.laybyCol 0 || c == s.laybyCol 1 || decide (34 ≤ c) || s.flag F.RAS_SUBST_EN k ||
      (t.flag F.RAS_SUBST_EN (1 - k) && t.fld F.RAS_SUBST_COL (1 - k) == c) ||
      (List.range 32).any (fun r => (s.crewAt (32 * c + r)).isSome &&
        (s.tState (32 * l + r) != tIdle || s.carriesDetour (32 * l + r))) ||
      (colTiles c).any s.carriesDetour ||
      (List.range 32).any fun r => t.reg .TILE_RB_CFG (32 * l + r) != t.reg .TILE_RB_CFG (32 * c + r) ||
        t.reg .TILE_RB_FWD (32 * l + r) != t.reg .TILE_RB_FWD (32 * c + r)) 0x0503 <|
    refuseIf (s.crewsNow.any fun q => tileCol q.2.2.1 == c && t.crewSlow q.1 q.2.1 q.2.2.2 l) 0x010D none
  else if s.flag F.RAS_SUBST_EN k then
    let old := s.fld F.RAS_SUBST_COL k
    refuseIf ((colTiles old).any fun x => s.tState x == tRetired && (s.crewAt x).isSome &&
      (!det.contains x || s.crewsNow.any fun q => q.2.2.1 == x && q.2.2.2 == 1)) 0x0503 none
  else none

end Sys2Proof.Machine
end

