-- ==== Sys2Proof/Machine/Dma.lean ====
section
/-! DEFINITION. DMA channels (R337 to R349), the event routing matrix (R350) and the timers (R351). -/
namespace Sys2Proof.Machine

/-- A channel that has run nothing. -/
def chan0 : DmaChan := ⟨0, 0, 0, 0, 0, 0, false, 0, 0, [], false, false⟩
/-- Channel `c`. -/
def State.chan (s : State) (c : Nat) : DmaChan := mapGet chan0 s.dma c
/-- Store channel `c`. -/
def State.setChan (s : State) (c : Nat) (x : DmaChan) : State := { s with dma := mapSet chan0 s.dma c x }
/-- DMA_STAT.STATE of channel `c`: 0 IDLE, 1 RUN, 2 STOPPING, 3 BARRIER, 4 ERROR. -/
def State.dmaSt (s : State) (c : Nat) : Nat := s.fld F.DMA_STAT_STATE c

/-! ## The shape of a descriptor -/

/-- MODE of R342. -/
def DmaChan.mode (x : DmaChan) : Nat := bitsOf x.ctrl 24 3
/-- Source space. -/
def DmaChan.ssp (x : DmaChan) : Nat := bitsOf x.ctrl 0 3
/-- Destination space. -/
def DmaChan.dsp (x : DmaChan) : Nat := bitsOf x.ctrl 3 3
/-- Source width in bytes. -/
def DmaChan.sw (x : DmaChan) : Nat := 2 ^ bitsOf x.ctrl 6 3
/-- Destination width in bytes. -/
def DmaChan.dw (x : DmaChan) : Nat := 2 ^ bitsOf x.ctrl 9 3
/-- Does the source address increment. -/
def DmaChan.sinc (x : DmaChan) : Bool := bitsOf x.ctrl 12 1 == 1
/-- Does the destination address increment. -/
def DmaChan.dinc (x : DmaChan) : Bool := bitsOf x.ctrl 13 1 == 1
/-- Element bytes (R343). -/
def DmaChan.esz (x : DmaChan) : Nat := 2 ^ bitsOf x.shuf 4 2
/-- Channels (R343). -/
def DmaChan.k (x : DmaChan) : Nat := bitsOf x.shuf 0 4 + 1
/-- Bit planes (R344). -/
def DmaChan.npl (x : DmaChan) : Nat := bitsOf x.shuf 8 4 + 1
/-- Plane pitch in bytes (R342). -/
def DmaChan.pitch (x : DmaChan) : Nat := 64 * bitsOf x.shuf 12 20
/-- Elements on the interleaved or element side. -/
def DmaChan.elems (x : DmaChan) : Nat := x.count / x.esz
/-- Bytes that a descriptor reads. -/
def DmaChan.inBytes (x : DmaChan) : Nat := if x.mode = 4 then x.elems / 8 * x.npl else x.count
/-- Bytes that a descriptor writes. -/
def DmaChan.outBytes (x : DmaChan) : Nat := if x.mode = 3 then x.elems / 8 * x.npl else x.count

/-- Address of byte `i` on a planar side of elements (R343). -/
def DmaChan.planar (x : DmaChan) (i : Nat) : Nat := i / x.esz % x.k * x.pitch + i / x.esz / x.k * x.esz + i % x.esz
/-- Address of byte `i` on a bit-plane side (R344): plane by plane within a group of eight elements. -/
def DmaChan.bitPlane (x : DmaChan) (i : Nat) : Nat := i % x.npl * x.pitch + i / x.npl

/-- Source address of byte `i` in the order in which the bytes are read. -/
def DmaChan.srcAt (x : DmaChan) (i : Nat) : Nat :=
  if x.mode = 2 then x.src + x.planar i else if x.mode = 4 then x.src + x.bitPlane i else if x.sinc then x.src + i else x.src
/-- Destination address of byte `j` in the order in which the bytes are written. -/
def DmaChan.dstAt (x : DmaChan) (j : Nat) : Nat :=
  if x.mode = 1 then x.dst + x.planar j else if x.mode = 3 then x.dst + x.bitPlane j else if x.dinc then x.dst + j else x.dst

/-- Bytes read that the writes up to `wr` have used up. -/
def DmaChan.used (x : DmaChan) (wr : Nat) : Nat :=
  if x.mode = 3 then wr / x.npl * (8 * x.esz) else if x.mode = 4 then wr / (8 * x.esz) * x.npl else wr
/-- Bytes that can be written once `rd` have been read. -/
def DmaChan.ready (x : DmaChan) (rd : Nat) : Nat :=
  if x.mode = 3 then rd / (8 * x.esz) * x.npl else if x.mode = 4 then rd / x.npl * (8 * x.esz) else rd

/-- One bit of a byte of the holding register. -/
def holdBit (h : List (Byte × Bool)) (i b : Nat) : Nat := bitsOf (h.getD i (0, false)).1.toNat b 1

/-- The value of output byte `j` from the bytes held (R343, R344), with its mark. -/
def DmaChan.outByte (x : DmaChan) (j : Nat) : Byte × Bool :=
  let base := x.used x.wr
  if x.mode = 3 then
    let g := j / x.npl * (8 * x.esz) - base
    let p := j % x.npl
    let v := ((List.range 8).map fun i => holdBit x.hold (g + i * x.esz + p / 8) (p % 8) * 2 ^ i).sum
    (BitVec.ofNat 8 v, (List.range (8 * x.esz)).any fun i => (x.hold.getD (g + i) (0, false)).2)
  else if x.mode = 4 then
    let e := j / x.esz
    let b := j % x.esz
    let g := e / 8 * x.npl - base
    let v := ((List.range 8).map fun i => if 8 * b + i < x.npl then holdBit x.hold (g + 8 * b + i) (e % 8) * 2 ^ i else 0).sum
    (BitVec.ofNat 8 v, (List.range x.npl).any fun i => (x.hold.getD (g + i) (0, false)).2)
  else x.hold.getD (j - base) (0, false)

/-- Length of the run of consecutive addresses from position `i`, at most `n`. -/
def runFrom (f : Nat → Nat) (i : Nat) : Nat → Nat
  | 0 => 0
  | n + 1 => if f (i + 1) = f i + 1 then 1 + runFrom f (i + 1) n else 1

/-! ## The check of a descriptor -/

/-- The largest distance of a byte from the side's address. -/
def DmaChan.span (x : DmaChan) (src : Bool) : Nat :=
  let n := if src then x.inBytes else x.outBytes
  if (src ∧ x.mode = 2) ∨ (!src ∧ x.mode = 1) then (x.k - 1) * x.pitch + x.elems / x.k * x.esz - 1
  else if (src ∧ x.mode = 4) ∨ (!src ∧ x.mode = 3) then (x.npl - 1) * x.pitch + x.elems / 8 - 1
  else if (if src then x.sinc else x.dinc) then n - 1
  else (if src then x.sw else x.dw) - 1

/-- The block of R31 that a BAR0 offset lies in. -/
def bar0Block (a : Nat) : Option Nat :=
  if a < 0xF00000 then some (a / 0x100000)
  else if a < 0xF40000 then some 15 else if a < 0xF80000 then some 16 else if a < 0x1000000 then some 17
  else if a < 0x1440000 then some 18 else if a < 0x2000000 then none else if a < 0x4000000 then some 19 else none

/-- Does a slot meet R338. -/
def State.dmaSlot (s : State) (k z : Nat) : Bool :=
  s.flag F.STR_SLOT_RATE_EN k z && s.fld F.STR_SLOT_RATE_CLIENT k z == 4 && !s.flag F.STR_SLOT_RATE_CLASS k z

/-- Does one side of a descriptor meet R339. -/
def State.sideOk (s : State) (x : DmaChan) (src : Bool) : Bool :=
  let sp := if src then x.ssp else x.dsp
  let a := if src then x.src else x.dst
  let w := if src then x.sw else x.dw
  let e := a + x.span src
  a % w == 0 &&
  (if sp = 0 then !(if src then x.sinc else x.dinc) || (decide (a / depotBytes = e / depotBytes) && decide (e < 3 * depotBytes))
   else if sp = 1 then decide (e < 4 * stackBytes) && (List.range 4).all fun k =>
     decide (e / stackBytes < k ∨ k < a / stackBytes) || s.dmaSlot k (bitsOf x.ctrl 16 8)
   else if sp = 2 then true
   else (w == 4 || w == 8) && x.mode == 0 && (bar0Block a).isSome && bar0Block a == bar0Block e)

/-- Does a descriptor meet the rules of its mode (R339, R343, R344). -/
def DmaChan.modeOk (x : DmaChan) : Bool :=
  if x.mode = 0 then x.count % max x.sw x.dw == 0
  else x.sinc && x.dinc && x.ssp != 3 && x.dsp != 3 && x.count % x.esz == 0 &&
    (if x.mode ≤ 2 then x.elems % x.k == 0 && decide (x.elems / x.k * x.esz ≤ x.pitch)
     else decide (x.esz ≤ 2 ∧ x.npl ≤ 8 * x.esz) && x.elems % 8 == 0 && decide (x.elems / 8 ≤ x.pitch))

/-- The check before the first beat (R339). -/
def State.descOk (s : State) (x : DmaChan) : Bool :=
  decide (x.ssp ≤ 3 ∧ x.dsp ≤ 3 ∧ bitsOf x.ctrl 6 3 ≤ 6 ∧ bitsOf x.ctrl 9 3 ≤ 6 ∧ x.mode ≤ 4) && x.modeOk &&
  (x.count == 0 || (s.sideOk x true && s.sideOk x false))

/-! ## Starting and ending -/

/-- DMA_CUR follows the channel (R348). -/
def State.dmaCur (s : State) (c : Nat) : State :=
  let x := s.chan c
  s.setFld F.DMA_CUR_REMAIN (x.outBytes - x.wr) c

/-- A channel enters ERROR (R346): the descriptor is abandoned and the holding register discarded. -/
def State.dmaError (s : State) (c code : Nat) : State :=
  let s := s.setChan c { s.chan c with hold := [], fetching := false, stop := false, checked := false }
  let s := (s.setFld F.DMA_STAT_STATE 4 c).setFld F.DMA_STAT_ERR code c
  if code = 1 then s.tell (.dmaDesc c) else s

/-- A descriptor becomes the current one and is checked (R337, R339). -/
def State.dmaTake (s : State) (c : Nat) (x : DmaChan) (inChain addr : Nat) : State :=
  let s := (s.setFld F.DMA_CUR_IN_CHAIN inChain c).setFld F.DMA_CUR_ADDR addr c
  let s := (s.setChan c { x with checked := true }).dmaCur c
  if s.descOk x then s else s.dmaError c 1

/-- The chain begins with the register descriptor (R337, R345). -/
def State.dmaBegin (s : State) (c : Nat) : State :=
  let x : DmaChan := { chan0 with src := s.reg .DMA_SRC c, dst := s.reg .DMA_DST c, count := s.reg .DMA_COUNT c,
                                  ctrl := s.reg .DMA_CTRL c, shuf := s.reg .DMA_SHUF c, next := s.reg .DMA_NEXT c }
  ((s.setFld F.DMA_STAT_STATE 1 c).dmaTake c x 0 0)

/-- A start (R345). -/
def State.dmaStart (s : State) (c : Nat) : State :=
  let st := s.dmaSt c
  if st = 0 then s.dmaBegin c
  else if st = 4 then s.inc F.DMA_STAT_START_OVR c
  else if s.fld F.DMA_STAT_START_PEND c = 255 then s.inc F.DMA_STAT_START_OVR c
  else s.inc F.DMA_STAT_START_PEND c

/-- STOP (R346): the chain ends at the next descriptor boundary. -/
def State.dmaStop (s : State) (c : Nat) : State :=
  let st := s.dmaSt c
  if st = 0 ∨ st = 4 then s
  else (s.setChan c { s.chan c with stop := true }).setFld F.DMA_STAT_STATE (if st = 1 then 2 else st) c

/-- CLR_ERR (R346). -/
def State.dmaClr (s : State) (c : Nat) : State :=
  if s.dmaSt c = 4 then (s.setFld F.DMA_STAT_STATE 0 c).setFld F.DMA_STAT_ERR 0 c else s

/-- KILL (R346): the MC's only. -/
def State.dmaKill (s : State) (r : Requester) (c : Nat) : State :=
  if r ≠ .mc then s.aelReg r (regAddr .DMA_CMD c) 11 0 8
  else if s.dmaSt c = 0 ∨ s.dmaSt c = 4 then s else s.dmaError c 6

/-- A write of DMA_CMD (R345, R346, R353). -/
def State.dmaCmd (s : State) (r : Requester) (c v : Nat) : State :=
  let s := if bitsOf v 3 1 = 1 then s.dmaKill r c else s
  let s := if bitsOf v 2 1 = 1 then s.dmaClr c else s
  let s := if bitsOf v 0 1 = 1 then s.dmaStart c else s
  if bitsOf v 1 1 = 1 then s.dmaStop c else s

/-- R345: a requester starts channel `c` by DMA_CMD.START. -/
def execDmaStart (dt : Nat) (r : Requester) (c : Fin 64) (s : State) : Answer :=
  .next ((s.tick dt).accessing r (regAddr .DMA_CMD c) 4 1 fun _ => (s.tick dt).dmaCmd r c 1)

/-- R346: DMA_CMD.STOP. -/
def execDmaStop (dt : Nat) (r : Requester) (c : Fin 64) (s : State) : Answer :=
  .next ((s.tick dt).accessing r (regAddr .DMA_CMD c) 4 2 fun _ => (s.tick dt).dmaCmd r c 2)

/-- R346: DMA_CMD.KILL, which only the MC may write. -/
def execDmaKill (dt : Nat) (r : Requester) (c : Fin 64) (s : State) : Answer :=
  .next ((s.tick dt).accessing r (regAddr .DMA_CMD c) 4 8 fun _ => (s.tick dt).dmaCmd r c 8)

/-- R346: DMA_CMD.CLR_ERR. -/
def execDmaClrErr (dt : Nat) (r : Requester) (c : Fin 64) (s : State) : Answer :=
  .next ((s.tick dt).accessing r (regAddr .DMA_CMD c) 4 4 fun _ => (s.tick dt).dmaCmd r c 4)

/-- Has the current descriptor of a channel written everything. -/
def DmaChan.written (x : DmaChan) : Bool := x.checked && !x.fetching && decide (x.outBytes ≤ x.wr)

/-- The chain ends, and starts again where a start is pending (R345). -/
def State.dmaEnd (s : State) (c : Nat) : State :=
  let s := s.setChan c chan0
  if 0 < s.fld F.DMA_STAT_START_PEND c then
    (s.setFld F.DMA_STAT_START_PEND (s.fld F.DMA_STAT_START_PEND c - 1) c).dmaBegin c
  else s.setFld F.DMA_STAT_STATE 0 c

/-- R349: the current descriptor completes, after its barrier if it has one: it pulses, and the chain stops, goes on or ends. -/
def execDmaDescriptorComplete (dt : Nat) (c : Fin 64) (s : State) : Answer :=
  let s := s.tick dt
  let c := c.val
  let x := s.chan c
  if x.written ∧ s.dmaSt c ≠ 0 ∧ s.dmaSt c ≠ 4 then
    let s := if bitsOf x.ctrl 15 1 = 1 then s.pulse (.local_ c) 1 else s
    if x.stop then
      let s := (s.setChan c chan0).setFld F.DMA_STAT_START_PEND 0 c
      .next ((s.setFld F.DMA_STAT_STATE 0 c).setFld F.DMA_STAT_STOPPED 1 c)
    else if bitsOf x.next 31 1 = 1 then
      .next ((s.setChan c { x with fetching := true, hold := [] }).setFld F.DMA_STAT_STATE 1 c)
    else .next (s.dmaEnd c)
  else .next s

/-- R349: the next descriptor arrives from the depot, as it is stored now (R353), and is checked and begun. -/
def execDmaNextFetched (dt : Nat) (c : Fin 64) (s : State) : Answer :=
  let s := s.tick dt
  let c := c.val
  let x := s.chan c
  if x.fetching then
    let ad := bitsOf x.next 0 20
    let a := 32 * ad
    if s.depotMay 2 a then
      let b := (s.depotGet a 32).map (·.1)
      let n (o k : Nat) : Nat := leNat ((b.drop o).take k)
      let y : DmaChan := { chan0 with src := n 0 8, dst := n 8 8, count := n 16 4, ctrl := n 20 4, shuf := n 24 4, next := n 28 4,
                                      stop := x.stop }
      .next (s.dmaTake c y 1 ad)
    else .next ((s.depotRefuse 3 (0x40 + c) a 0).dmaError c 2)
  else .next s

/-! ## Events -/

/-- Does route `i` carry a source's pulses (R350). -/
def State.routeTakes (s : State) (i : Nat) (p : Pulse) : Bool :=
  s.flag F.DMA_ROUTE_EN i && (match p with
    | .local_ k => s.fld F.DMA_ROUTE_SKIND i == 0 && s.fld F.DMA_ROUTE_SIDX i == k
    | .milestone m => s.fld F.DMA_ROUTE_SKIND i == 1 && s.fld F.DMA_ROUTE_SIDX i == m)

/-- The effect of a pulse at the destination of route `i` (R350). -/
def State.routeTo (s : State) (i : Nat) : State :=
  let d := s.fld F.DMA_ROUTE_DIDX i
  match s.fld F.DMA_ROUTE_DKIND i with
  | 0 => s.sendArrival 1088 d 1
  | 1 => s.dmaStart d
  | 2 => { s with markers := mapUpd [] s.markers d (· ++ [i]) }
  | _ => s.ringMarker d i

/-- R350: the oldest pulse reaches the destination of every route of its source. -/
def execEventPulseRoute (dt : Nat) (s : State) : Answer :=
  let s := s.tick dt
  match s.pulses with
  | (p, n) :: r =>
    let s : State := { s with pulses := if n ≤ 1 then r else (p, n - 1) :: r }
    .next ((List.range 256).foldl (fun s i => if s.routeTakes i p then s.routeTo i else s) s)
  | [] => .next s

/-- R351: timer `t` pulses where device time is a whole multiple of its period after it was enabled. -/
def execDmaTimerPulse (dt : Nat) (t : Fin 16) (s : State) : Answer :=
  let s := s.tick dt
  let t := t.val
  let d := s.now - mapGet 0 s.tmrBase t
  if s.flag F.DMA_TMR_EN t ∧ 0 < d ∧ d % max 1 (s.fld F.DMA_TMR_PERIOD_NS t) = 0 then .next (s.pulse (.local_ (0x40 + t)) 1)
  else .next s

end Sys2Proof.Machine
end

