-- ==== Sys2Proof/Machine/Miss.lean ====
section
/-! DEFINITION. Deadline misses (R247 to R251). -/
namespace Sys2Proof.Machine

/-- KIND, engine, slot and tile of a miss as STR_MISS_LOG holds them: the tile that waited, or the tile end of the slot. -/
def State.missFields (s : State) (x : MissCase) : Nat × Nat × Nat × Nat :=
  let f (k z : Nat) : Nat := s.fld F.STR_SLOT_TILE_TILE k z
  match x with
  | .inbound t k z => (1, k, z, t)
  | .outbound t k z => (2, k, z, t)
  | .stall t => (3, 0, 0, t)
  | .catalogue k z => (4, k, z, f k z)
  | .seam k z _ _ => (4, k, z, f k z)
  | .resRead k z _ _ => (4, k, z, f k z)
  | .resWrite k z _ _ => (5, k, z, f k z)

/-- The slot of a miss, if it has one. -/
def missSlot : MissCase → Option (Nat × Nat)
  | .inbound _ k z => some (k, z)
  | .outbound _ k z => some (k, z)
  | .stall _ => none
  | .catalogue k z => some (k, z)
  | .seam k z _ _ => some (k, z)
  | .resRead k z _ _ => some (k, z)
  | .resWrite k z _ _ => some (k, z)

/-- A wait that passed its expected time within the allowance (R247). -/
def State.nearMiss (s : State) (x : MissCase) : State :=
  let s := s.inc F.STR_MISS_CNT_NEAR
  match missSlot x with
  | some (k, z) => s.inc F.STR_SLOT_STAT_NEAR k z
  | none => s

/-- Step 1 of R250: the log is captured where it is free, and the counters count. -/
def State.missSeen (s : State) (x : MissCase) : State :=
  let s := if s.flag F.STR_MISS_LOG_VALID then s else
    let (kind, k, z, t) := s.missFields x
    s.setReg .STR_MISS_LOG (2 ^ 63 + kind * 2 ^ 60 + k * 2 ^ 58 + z * 2 ^ 50 + t * 2 ^ 39 + s.now / 1000 % 2 ^ 32)
  let s := s.inc F.STR_MISS_CNT_MISSES
  match missSlot x with
  | some (k, z) => s.inc F.STR_SLOT_STAT_MISSES k z
  | none => s

/-- A stored line that could not be stored becomes a missing line (R249). -/
def State.loseLine (s : State) (c id : Nat) : State :=
  match s.line? c id with
  | some l =>
    if l.chained then s else
    let p := match ((s.conn c).lines.takeWhile fun y => y.id != id).getLast? with
      | some y => y.pix
      | none => l.pix
    (s.inc F.ING_CONN_CNT_MISSING c).modLine c id fun y => { y with pix := p, flags := y.flags ||| 2 }
  | none => s

/-- What a miss does (R248, R249). -/
def State.missAct (s : State) (x : MissCase) : State :=
  match x with
  | .inbound t _ _ => s.abortTaskOf t
  | .outbound t _ _ => s.abortTaskOf t
  | .stall t => s.abortTaskOf t
  | .catalogue _ _ => (s.catRun.filterMap (·.tile)).foldl (fun s t => s.abortTaskOf t) s
  | .seam _ _ u e => match (s.crew u e).task with
    | some k => s.segAbort u k.b k.part 1
    | none => s
  | .resRead _ _ c id => match s.line? c id with
    | some l => match s.seg? c l.b l.part with
      | some g => s.segAbort g.unit g.b g.part 1
      | none => s
    | none => s
  | .resWrite _ _ c id => s.loseLine c id

/-- R247 to R249: a wait passes its expected time, within its allowance (`near`) or beyond it. -/
def execDeadlineMiss (dt : Nat) (x : MissCase) (near : Bool) (s : State) : Answer :=
  let s := s.tick dt
  .next (if near then s.nearMiss x else ((s.missSeen x).missAct x).abortReport)

end Sys2Proof.Machine
end

