-- ==== Sys2Proof/Machine/Faults.lean ====
section
/-! DEFINITION. Faults that several commands meet: counting and capturing errors (R420), reading a waymark record by vote (R286,
R434), starting a self-test (R428), containment of a tally violation (R298), the row of a crew's task. -/
namespace Sys2Proof.Machine

/-- A corrected error of a class is counted (R420). -/
def State.eccCe (s : State) (cls : Nat) : State := s.inc F.RAS_ECC_CNT_CE cls

/-- An uncorrectable error of a class is counted, captured where no error is, logged and reported (R412, R415, R420). -/
def State.eccUe (s : State) (cls : Nat) (scrub : Bool) (loc : Nat) : State :=
  let s := s.inc F.RAS_ECC_CNT_UE cls
  let s := if s.flag F.RAS_UE_LOG_VALID then s else
    ((s.setReg .RAS_UE_LOG (2 ^ 63 + cls % 8 * 2 ^ 60 + (if scrub then 2 ^ 59 else 0) + s.now / 1000 % 2 ^ 32)).setReg .RAS_UE_ADDR loc)
  let s := s.setFld F.RAS_STAT_UE 1
  (s.logE 2 0xE004 [loc % 2 ^ 32, loc / 2 ^ 32 % 2 ^ 32, cls, 0]).tell (.note 13 cls)

/-- A record that cannot be voted is lost (R286): its transaction is aborted where it is OPEN or PREPARED, and goes on where it
is committed. -/
def State.wayLost (s : State) (i : Nat) : State :=
  let t := wayTxid (s.wayGet i)
  let s := (s.inc F.WAY_ERRCNT_LOST).tell (.recordLost i t)
  if wayKind (s.wayGet i) = 0 then s
  else match s.txState t with
    | 1 => s.txEnd t 0x0302
    | 2 => s.txEnd t 0x0302
    | 3 => s.txEnd t 0x0302
    | 4 => s.wayState i 4
    | _ => s

/-- A read of record `i` (R286, R434): the copies are voted bit by bit, a losing copy is rewritten and counted; `mis`: how often the
two voters differ, the third time in a row losing the record; `lost`: it cannot be voted. -/
def State.wayRead (s : State) (i mis : Nat) (lost : Bool) : State :=
  let s := s.addSat F.RAS_SELFCHK_VOTER_MIS mis
  let s := if mis = 0 then s else (s.setFld F.RAS_STAT_SELF 1).tell (.storeFault i)
  if lost ∨ 3 ≤ mis then s.wayLost i else
    let r := mapGet way0 s.way i
    let v := r.vote
    let n := (if r.c0 = v then 0 else 1) + (if r.c1 = v then 0 else 1) + (if r.c2 = v then 0 else 1)
    (s.addSat F.WAY_ERRCNT_VOTE_FIX n).wayPut i v.toNat

/-- A self-test starts on column or unit `i` (R428, R429): every tile of the column enters TEST and loses its contents. -/
def State.bistStart (s : State) (unit : Bool) (i : Nat) : State :=
  let s := s.setReg .RAS_BIST_STAT (2 ^ 30 + (if unit then 2 ^ 28 else 0) + i % 64 * 2 ^ 16)
  let s : State := { s with bist := some ⟨unit, i⟩ }
  if unit then s else
    ((List.range 32).foldl (fun s r => s.setTState (32 * i + r) tTest) s).laybyFree

/-- The task of the crew of stripe entry `e` of unit `u` and the other tasks of its segment are aborted (R248). -/
def State.abortCrewSeg (s : State) (u e : Nat) : State :=
  match (s.crew u e).task with
  | some k => (s.segAbort u k.b k.part 1).abortReport
  | none => s

/-- The crews whose run set, in the plan in force, holds a milestone that a test selects. -/
def State.crewsOfMs (s : State) (p : Nat → Bool) : List (Nat × Nat) :=
  (s.crews.map fun q => (q.1 / 64, q.1 % 64)).filter fun q => match s.crewPlan q.1 q.2 with
    | some x => (runMs x.runSet).any p
    | none => false

/-- A slot whose credits or whose state are wrong (R298 invariant 7, R413): the tasks of its tile are aborted and it is closed. -/
def State.slotFault (s : State) (k z : Nat) : State :=
  ((s.abortTaskOf (s.fld F.STR_SLOT_TILE_TILE k z)).slotClose k z).abortReport

/-- Containment of a path into the milestone unit (R298 invariant 4): the task of its tile, or the tasks of every crew whose run
set received arrivals on it. -/
def State.pathAbort (s : State) (path : Nat) : State :=
  if path < 1088 then (s.abortTaskOf path).abortReport
  else (s.crewsOfMs fun m => (mapGet [] s.arrMs path).contains m).foldl (fun s q => s.abortCrewSeg q.1 q.2) s

end Sys2Proof.Machine
end

