-- ==== Sys2Proof/Machine/Odo.lean ====
section
/-! DEFINITION. Odometers and line-trigger generators (R58 to R70). -/
namespace Sys2Proof.Machine

/-- The running generators that count on odometer `u`, the reference generator first. -/
def State.gensOn (s : State) (u : Nat) : List Nat :=
  let r := s.fld F.ODO_SEG_CFG_REFGEN
  (r :: (List.range 16).filter (· != r)).filter fun g => s.flag F.ODO_TG_CFG_EN g && s.fld F.ODO_TG_CFG_ODO g == u

/-- The connections targeted by a generator that counts on odometer `u`. -/
def State.connsOn (s : State) (u : Nat) : List Nat :=
  (List.range 16).filter fun c => (s.gensOn u).any fun g => bitsOf (s.trigGen g).targets c 1 == 1

/-- One reversal finding of connection `c` (R60, R374): it derives from no line, so its FLAGS and LINE, and its SEG where no
segment is open, are not stated. -/
def State.reversalRecord (s : State) (u c : Nat) (seg : Option Nat) : State :=
  let fl := s.free % 2 ^ 16
  let s := s.useFree
  let line := s.free % 2 ^ 32
  let s := s.useFree
  let sg := seg.getD (s.free % 2 ^ 64)
  let s := if seg.isNone then s.useFree else s
  s.egress ⟨3, c, fl, 0xFF, ⟨sg, line, s.odoPos u * 65536, s.now⟩, leBytes (s.fld F.ODO_POS_POS u) 8 ++ List.replicate 8 0⟩

/-- Odometer `u` declares a reversal (R60). -/
def State.reversal (s : State) (u : Nat) : State :=
  let s := (s.setFld F.ODO_STAT_REVERSED 1 u).setOdo u { s.odo u with armed := false }
  (s.connsOn u).foldl (fun s c =>
    let seg := (s.openSeg c).map fun g => segNum g.b g.part
    (s.closeSeg c true).reversalRecord u c seg) s

/-- Is a step of input B (else A) forward, for the input levels before it (R58). -/
def stepForward (a b onB invert : Bool) : Bool := ((a == b) != onB) != invert

/-- The decoder takes the new level of an input (R59). -/
def State.odoLevel (s : State) (u : Nat) (onB : Bool) : State :=
  let x := s.odo u
  s.setOdo u (if onB then { x with b := !x.b } else { x with a := !x.a })

/-- The count of odometer `u` over the sliding window has come back to the limit by now (R59): since when. -/
def State.glitchOkAt (s : State) (u : Nat) : Option Nat :=
  let x := s.odo u
  if x.over_ then
    -- the count fell to the limit when the oldest glitch too many left the window
    let k := x.glitches.length - s.fld F.ODO_CFG_GLITCH_LIM u
    (x.glitches[k - 1]?).map (· + 1000000)
  else x.okSince

/-- A glitch is discarded and counted; each time the count rises above the limit the odometer reports, and it is
position-suspect (R59). -/
def State.glitch (s : State) (u : Nat) : State :=
  let x := s.odo u
  let lim := s.fld F.ODO_CFG_GLITCH_LIM u
  let prior := x.glitches.filter fun t => decide (s.now < t + 1000000)
  let above := decide (lim < prior.length + 1)
  let ok := s.glitchOkAt u
  let s := s.inc F.ODO_STAT_GLITCHES u
  let s := s.setOdo u { x with glitches := prior ++ [s.now], over_ := above, suspect := x.suspect || above,
                               okSince := if above then none else ok }
  if above ∧ prior.length ≤ lim then (s.setFld F.ODO_STAT_FAULT 1 u).tell (.note 9 u) else s

/-- A forward edge of the odometer of generator `g` (R63). -/
def State.genForward (s : State) (u g : Nat) : State :=
  let p := s.odoPos u
  let x := s.trigGen g
  let s := s.setTrigGen g { x with pEdge := p, tEdge := s.now, dt := s.fld F.ODO_EDGE_DT_DT_NS u }
  (s.emitLines g (s.firstLine g (p * 65536) - x.n)).planLine g

/-- Cancel the plan of generator `g`. -/
def State.unplan (s : State) (g : Nat) : State := s.setTrigGen g { s.trigGen g with plan := none }

/-- An accepted edge counts (R58, R60, R62, R63). -/
def State.odoEdge (s : State) (u : Nat) (fwd : Bool) : State :=
  let x := s.odo u
  let pos := s.odoPos u + (if fwd then 1 else -1)
  let s := s.setFld F.ODO_POS_POS (wrapTo 64 pos) u
  let s := match x.edge with
    | some e => if 0 < x.edges then s.setFld F.ODO_EDGE_DT_DT_NS (min (s.now - e) 0xFFFFFFFF) u else s
    | none => s
  let s := (s.setFld F.ODO_STAT_STOPPED 0 u).setFld F.ODO_STAT_DIR (if fwd then 0 else 1) u
  let s := s.setOdo u { x with edge := some s.now, edges := min 2 (x.edges + 1), high := max x.high pos,
                               armed := x.armed || decide (x.high ≤ pos) }
  if fwd then (s.gensOn u).foldl (fun s g => s.genForward u g) s
  else
    let s := (s.gensOn u).foldl (fun s g => s.unplan g) s
    if (s.odo u).armed ∧ (s.odo u).high - pos ≥ s.fld F.ODO_CFG_REV_EDGES u then s.reversal u else s

/-- R58, R59: a transition of input ENCu_A (or B) is accepted after its stability time; one that comes less than 20 ns after
the last accepted edge is a glitch. -/
def execEncoderEdge (dt : Nat) (u : Fin 4) (onB : Bool) (s : State) : Answer :=
  let s := s.tick dt
  let x := s.odo u
  let fwd := stepForward x.a x.b onB (s.flag F.ODO_CFG_INVERT u)
  let s := s.odoLevel u onB
  if !s.flag F.ODO_CFG_EN u then .next s
  else if (match x.edge with | some e => decide (s.now - e < 20) | none => false) then .next (s.glitch u)
  else .next (s.odoEdge u fwd)

/-- R59: both inputs change at once, or one does less than 20 ns after the last accepted edge: the step is discarded, the new
levels are kept. -/
def execEncoderGlitch (dt : Nat) (u : Fin 4) (onA onB : Bool) (s : State) : Answer :=
  let s := s.tick dt
  let s := if onA then s.odoLevel u false else s
  let s := if onB then s.odoLevel u true else s
  .next (if s.flag F.ODO_CFG_EN u then s.glitch u else s)

/-- R59: the glitch count has stayed at or below the limit for 1 ms: the odometer is no longer position-suspect. -/
def execPosSuspectEnd (dt : Nat) (u : Fin 4) (s : State) : Answer :=
  let s := s.tick dt
  match s.glitchOkAt u with
  | some t =>
    if (s.odo u).suspect ∧ t + 1000000 ≤ s.now then
      .next (s.setOdo u { s.odo u with suspect := false, over_ := false, okSince := none })
    else .next s
  | none => .next s

/-- R62: STOP_MS without an accepted edge. -/
def execEncoderStopTimeout (dt : Nat) (u : Fin 4) (s : State) : Answer :=
  let s := s.tick dt
  let due := match (s.odo u).edge with
    | some e => decide (e + s.fld F.ODO_CFG_STOP_MS u * 1000000 ≤ s.now)
    | none => true
  .next (if s.flag F.ODO_CFG_EN u && due then s.setFld F.ODO_STAT_STOPPED 1 u else s)

/-- A write of ODO_CFG (R61): a 0 in GLITCH_LIM, REV_EDGES or STOP_MS is refused for that field; EN going from 0 to 1 clears
the count. -/
def State.odoCfgWrite (s : State) (r : Requester) (u v : Nat) : State :=
  let a := regAddr .ODO_CFG u
  let old := s.reg .ODO_CFG u
  let keep (f : Fld) (n : Nat) : Nat := if bitsOf v f.lo f.w = 0 then putBits n f.lo f.w (bitsOf old f.lo f.w) else n
  let n := keep F.ODO_CFG_GLITCH_LIM (keep F.ODO_CFG_REV_EDGES (keep F.ODO_CFG_STOP_MS v))
  let bad := [F.ODO_CFG_GLITCH_LIM, F.ODO_CFG_REV_EDGES, F.ODO_CFG_STOP_MS].any fun f => bitsOf v f.lo f.w == 0
  let rise := decide (bitsOf old 31 1 = 0 ∧ bitsOf v 31 1 = 1)
  let s := s.setReg .ODO_CFG (putBits n 24 6 0) u
  let s := if bad then s.aelReg r a 6 0 v else s
  if rise then
    let s := ((s.setFld F.ODO_POS_POS 0 u).setFld F.ODO_EDGE_DT_DT_NS 0 u).setReg .ODO_STAT 0 u
    s.setOdo u { odo0 with a := (s.odo u).a, b := (s.odo u).b }
  else s

/-- R61: a direct write of ODO_CFG. -/
def execOdoCfgWrite (dt : Nat) (r : Requester) (u : Fin 4) (v : Word) (s : State) : Answer :=
  let s := s.tick dt
  .next (s.accessing r (regAddr .ODO_CFG u) 4 v.toNat fun _ => s.odoCfgWrite r u v.toNat)

/-- A write of ODO_TG_CFG (R63, R65): ODO stays while the generator runs; enabling sets the next line. -/
def State.tgCfgWrite (s : State) (r : Requester) (g v : Nat) : State :=
  let a := regAddr .ODO_TG_CFG g
  let en := s.fld F.ODO_TG_CFG_EN g
  let locked := decide (en = 1 ∧ bitsOf v 26 2 ≠ s.fld F.ODO_TG_CFG_ODO g)
  let s := if locked then s.aelReg r a 9 0 v else s.setFld F.ODO_TG_CFG_ODO (bitsOf v 26 2) g
  let s := (s.setFld F.ODO_TG_CFG_TARGETS (bitsOf v 0 16) g).setFld F.ODO_TG_CFG_EN (bitsOf v 31 1) g
  if bitsOf v 31 1 = 0 then s.setTrigGen g { s.trigGen g with plan := none, targets := bitsOf v 0 16 }
  else if en = 0 then
    let p := s.odoPos (s.fld F.ODO_TG_CFG_ODO g)
    s.setTrigGen g { s.trigGen g with n := s.firstLine g (p * 65536), plan := none, last := none, targets := bitsOf v 0 16 }
  else s

/-- R65: a direct write of ODO_TG_CFG. -/
def execOdoTgCfgWrite (dt : Nat) (r : Requester) (g : Fin 16) (v : Word) (s : State) : Answer :=
  let s := s.tick dt
  .next (s.accessing r (regAddr .ODO_TG_CFG g) 4 v.toNat fun _ => s.tgCfgWrite r g v.toNat)

/-- R63: the planned time of generator `g` is reached. -/
def execTriggerPlannedTime (dt : Nat) (g : Fin 16) (s : State) : Answer :=
  let s := s.tick dt
  match (s.trigGen g).plan with
  | some t => if t ≤ s.now ∧ s.fld F.ODO_TG_CFG_EN g = 1 then .next ((s.emitLine g).planLine g) else .next s
  | none => .next s

/-- R68: HOLD_100MS has passed since the last line of the open segment. -/
def execSegmentHoldTimeout (dt : Nat) (c : Fin 16) (s : State) : Answer :=
  let s := s.tick dt
  if (s.openSeg c).isSome ∧ (s.conn c).lastLine + s.fld F.ODO_SEG_CFG_HOLD_100MS * 100000000 ≤ s.now then
    .next (s.closeSeg c true)
  else .next s

/-- Is the reference generator enabled. -/
def State.refRuns (s : State) : Bool := s.flag F.ODO_TG_CFG_EN (s.fld F.ODO_SEG_CFG_REFGEN)

/-- A write of ODO_SEG_CFG (R66, R70, R545): each field by its own rule; one record where any is refused. -/
def State.segCfgWrite (s : State) (r : Requester) (v : Nat) : State :=
  let run := s.refRuns
  let h := bitsOf v 20 10
  let g := bitsOf v 16 4
  let l := bitsOf v 0 16
  let badH := decide (h < 1 ∨ 600 < h)
  let badG := run && decide (g ≠ s.fld F.ODO_SEG_CFG_REFGEN)
  let lowL := decide (l < 63)
  let badL := run && decide (l ≠ s.fld F.ODO_SEG_CFG_LINES_M1)
  let s := if badH then s else s.setFld F.ODO_SEG_CFG_HOLD_100MS h
  let s := if badG then s else s.setFld F.ODO_SEG_CFG_REFGEN g
  let s := if badL || lowL then s else s.setFld F.ODO_SEG_CFG_LINES_M1 l
  if badH || lowL then s.aelReg r (regAddr .ODO_SEG_CFG) 6 0 v
  else if badG then s.aelReg r (regAddr .ODO_SEG_CFG) 9 0 v
  else if badL then s.aelReg r (regAddr .ODO_SEG_CFG) 10 0 v else s

/-- R70: a direct write of ODO_SEG_CFG. -/
def execOdoSegCfgWrite (dt : Nat) (r : Requester) (v : Word) (s : State) : Answer :=
  let s := s.tick dt
  .next (s.accessing r (regAddr .ODO_SEG_CFG) 4 v.toNat fun _ => s.segCfgWrite r v.toNat)

/-- A write of ING_RES_CFG (R74). -/
def State.resCfgWrite (s : State) (r : Requester) (c v : Nat) : State :=
  let s := s.setFld F.ING_RES_CFG_CAP_LINES (bitsOf v 0 18) c
  if bitsOf v 24 8 = 0 then s.aelReg r (regAddr .ING_RES_CFG c) 6 0 v
  else s.setFld F.ING_RES_CFG_LINE_TO (bitsOf v 24 8) c

/-- R74: a direct write of ING_RES_CFG. -/
def execIngResCfgWrite (dt : Nat) (r : Requester) (c : Fin 16) (v : Word) (s : State) : Answer :=
  let s := s.tick dt
  .next (s.accessing r (regAddr .ING_RES_CFG c) 4 v.toNat fun _ => s.resCfgWrite r c v.toNat)

end Sys2Proof.Machine
end

