-- ==== Sys2Proof/Machine/RegRules.lean ====
section
/-! DEFINITION. What single registers do with a direct write: ranges, states and requesters that refuse a field (R544), doorbells
and queues (R358, R377), network ports (R381, R388, R389, R392), and what follows from a field's new value. -/
namespace Sys2Proof.Machine

/-! ## Queues -/

/-- A doorbell is ignored (R358). -/
def State.doorbellErr (s : State) (r : Requester) (a kind q v : Nat) : State :=
  (s.setFld F.CMD_Q_STAT_DB_ERR 1 q).aelReg r a kind 0 v

/-- A write of CMD_SQ_TAIL (R355, R358). -/
def State.sqTailWrite (s : State) (r : Requester) (q v : Nat) : State :=
  let a := regAddr .CMD_SQ_TAIL q
  if s.sqDepth q ≤ v % 2 ^ 12 then s.doorbellErr r a 6 q v
  else if !s.flag F.CMD_Q_CFG_EN q then s.doorbellErr r a 9 q v
  else s.setFld F.CMD_SQ_TAIL_TAIL (v % 2 ^ 12) q

/-- A write of CMD_CQ_HEAD (R355, R357, R358): entries are consumed, and completions that were held are written. -/
def State.cqHeadWrite (s : State) (r : Requester) (q v : Nat) : State :=
  let a := regAddr .CMD_CQ_HEAD q
  let d := s.cqDepth q
  let n := (v % 2 ^ 12 + d - s.fld F.CMD_CQ_HEAD_HEAD q) % d
  if d ≤ v % 2 ^ 12 ∨ (s.flag F.CMD_Q_CFG_EN q ∧ (s.queue q).unread < n) then s.doorbellErr r a 6 q v
  else if !s.flag F.CMD_Q_CFG_EN q then s.doorbellErr r a 9 q v
  else
    let s := (s.setFld F.CMD_CQ_HEAD_HEAD (v % 2 ^ 12) q).setQueue q { s.queue q with unread := (s.queue q).unread - n }
    s.postHeld q (s.queue q).held.length

/-- EN of a queue goes from 0 to 1 (R358): the SQ head, the CQ tail and PHASE start again, and the doorbells with them. -/
def State.queueStart (s : State) (q : Nat) : State :=
  (((s.setFld F.CMD_Q_STAT_SQ_HEAD 0 q).setFld F.CMD_SQ_TAIL_TAIL 0 q).setFld F.CMD_CQ_HEAD_HEAD 0 q).setQueue q
    { s.queue q with cqTail := 0, phase := true, unread := 0, dead := false }

/-- A write of CMD_EGR_HEAD (R378): refused where it moves back or past the bytes written. -/
def State.egrHeadWrite (s : State) (r : Requester) (k v : Nat) : State :=
  let old := s.fld F.CMD_EGR_HEAD_HEAD k
  let w := (s.eRing k).written
  if (v + 2 ^ 64 - old) % 2 ^ 64 ≤ (w + 2 ^ 64 - old) % 2 ^ 64 then s.setFld F.CMD_EGR_HEAD_HEAD v k
  else s.aelReg r (regAddr .CMD_EGR_HEAD k) 6 0 (v % 2 ^ 32)

/-- An access through one PCIe link to a queue or ring register of the other (R354). -/
def State.otherLink (s : State) (r : Requester) (h : RegHit) : Bool :=
  let link (b : Bool) : Bool := s.twoByEight && (if b then decide (r = .hostA) else decide (r = .hostB))
  match h.reg with
  | .CMD_SQ_BASE => link (32 ≤ h.i) | .CMD_CQ_BASE => link (32 ≤ h.i) | .CMD_Q_CFG => link (32 ≤ h.i)
  | .CMD_SQ_TAIL => link (32 ≤ h.i) | .CMD_CQ_HEAD => link (32 ≤ h.i) | .CMD_Q_STAT => link (32 ≤ h.i)
  | .CMD_EGR_BASE => link (8 ≤ h.i) | .CMD_EGR_HEAD => link (8 ≤ h.i) | .CMD_EGR_TAIL => link (8 ≤ h.i)
  | .CMD_EGR_STAT => link (8 ≤ h.i)
  | _ => false

/-! ## Network ports -/

/-- A bound GigE Vision connection follows its port (R389): READY while the port is up, ABSENT while it is not. -/
def State.gvRefresh (s : State) (c : Nat) : State :=
  if !(s.conn c).gv then s else
  let up := decide (s.fld F.NET_STAT_STATE (s.fld F.NET_GV_CFG_PORT c) = 2)
  let st := s.connState c
  if up ∧ st = 0 then s.setConnState c 2
  else if !up ∧ (st = 2 ∨ st = 3) then (s.closeSeg c true).setConnState c 0
  else s

/-- The GigE Vision connections follow their ports. -/
def State.gvRefreshAll (s : State) : State := (List.range 16).foldl (fun s c => s.gvRefresh c) s

/-- NET_GV_CFG.EN of connection `c` changes (R389): the number is bound to a camera, or freed. -/
def State.gvBind (s : State) (c : Nat) (en : Bool) : State :=
  let x := s.conn c
  if en then
    let s := s.setConn c { conn0 with gv := true, camTrigs := x.camTrigs, nextId := x.nextId }
    let s := ((s.setFld F.ING_CONN_CFG_SPEED 0 c).setFld F.ING_CONN_CFG_NLINKS 0 c).setFld F.ING_CONN_CFG_FIRST_LINK 0 c
    s.gvRefresh c
  else
    let s := s.closeSeg c true
    (s.setConn c { s.conn c with gv := false, gvLeader := false }).setConnState c 0

/-- An Ethernet port goes down (R381). -/
def State.netDown (s : State) (p : Nat) : State := (s.setReg .NET_STAT 0 p).gvRefreshAll

/-- The MODE of a plant-bus port follows its configuration (R392, R395). -/
def State.plbMode (s : State) (b : Nat) : State :=
  let id := s.fld F.PLB_CFG_NODE_ID b
  let mode := if !s.flag F.PLB_CFG_EN b then 0 else if !s.flag F.PLB_CFG_PLCA b ∨ id = 0xFF then 1 else if id = 0 then 3 else 2
  let s := s.setFld F.PLB_STAT_MODE mode b
  let s : State := { s with plbs := mapUpd ⟨[], 0, 0, false, []⟩ s.plbs b fun x =>
    { x with taken := false, run := 0, coord := if mode = 3 then s.fld F.PLB_CFG_NODE_CNT b else 0 } }
  if mode = 3 then s.emit (.beacon (4 + b) (s.fld F.PLB_CFG_NODE_CNT b)) else s

/-! ## Fields that a write may not change -/

/-- Is a value inside the stated range of the field at bit `lo` of a register; `v` is the whole register as written. -/
def fieldIn (reg : Reg) (lo x v ceil : Nat) : Bool :=
  let within (a b : Nat) : Bool := decide (a ≤ x ∧ x ≤ b)
  match reg, lo with
  | .DEV_APERTURE, 0 => within 0 95
  | .ING_TDR_CFG, 16 => within 1 255
  | .ING_TDR_CFG, 0 => within 500 990
  | .ODO_TG_PITCH, 0 => within 0x1000 (2 ^ 32)
  | .ODO_TG_MINPER, 0 => within 1000 1048575
  | .REF_TAB_ADDR, 0 => within 0 0x21FFF
  | .TILE_DBG_ADDR, 0 => decide (x < dbgSize (bitsOf v 30 2))
  | .STR_SCHED_MARGIN, 0 => within 0 20
  | .STR_MISS_CFG, 16 => within 1 255
  | .STR_MISS_CFG, 0 => within 100 65535
  | .STR_ARB, 16 => within 0 100
  | .STR_PMAP_ADDR, 0 => within 0 12287
  | .CAT_CFG, 0 => within 1 255
  | .WAY_SYS_CFG, 16 => within 16 65535
  | .DMA_CTRL, 24 => within 0 4
  | .DMA_CTRL, 9 => within 0 6
  | .DMA_CTRL, 6 => within 0 6
  | .DMA_CTRL, 3 => within 0 3
  | .DMA_CTRL, 0 => within 0 3
  | .DMA_TMR, 0 => within 1000 (2 ^ 31 - 1)
  | .CMD_Q_CFG, 24 => within 1 12
  | .CMD_Q_CFG, 16 => within 1 12
  | .CMD_Q_CFG, 0 => within 0 79
  | .NET_CFG, 28 => within 0 2
  | .NET_CFG, 0 => within 0 32
  | .NET_GV_LEAD, 0 => within 2000 1000000
  | .NET_RS_LEN, 16 => within 1 65535
  | .NET_RS_LEN, 0 => within 256 8972 && decide (x % 4 = 0)
  | .PLB_CFG, 16 => within 1 255
  | .PLB_CFG, 0 => within 0 32
  | .RAS_SCRUB_CFG, 24 => within 1 168
  | .RAS_SCRUB_CFG, _ => within 1 255
  | .RAS_PMIG, 32 => within 0 12287
  | .RAS_PMIG, 0 => within 0 12287
  | .PWR_TOLL, 20 => within 10 1000
  | .PWR_LIMIT, 0 => within 0 ceil
  | .CLK_REF_CFG, 0 => within 10 60000
  | .CAL_CFG, 24 => within 1 30
  | .CAL_CFG, 16 => within 1 255
  | .CAL_CFG, 8 => within 1 255
  | .CAL_HOLD, 0 => within 1 3600
  | .CAL_ITEM_CFG, 0 => within 1 255
  | .CAL_TAB_ADDR, 28 => within 0 8
  | .CAL_TAB_ADDR, 0 => decide (x < calCount (bitsOf v 28 4))
  | _, _ => true

/-- Does the state of a block refuse a new value `x` of the field at bit `lo` of a register, whoever writes (KIND 9 of R544). -/
def State.fieldHeld (s : State) (h : RegHit) (lo x v : Nat) : Bool :=
  match h.reg, lo with
  | .ODO_TG_PITCH, _ => s.flag F.ODO_TG_CFG_EN h.i
  | .ODO_TG_OFFSET, _ => s.flag F.ODO_TG_CFG_EN h.i
  | .CMD_SQ_BASE, _ => s.flag F.CMD_Q_CFG_EN h.i
  | .CMD_CQ_BASE, _ => s.flag F.CMD_Q_CFG_EN h.i
  | .CMD_Q_CFG, 31 => x == 1 && !s.flag F.CMD_Q_STAT_IDLE h.i
  | .CMD_Q_CFG, _ => s.flag F.CMD_Q_CFG_EN h.i
  | .JCT_SYS, 16 => (List.range 4).any fun j => s.fld F.JCT_STAT_STATE j != 0
  | .NET_RS_CFG, 30 => x == 1 && !mapGet false s.keyFresh (bitsOf v 27 3)
  | .NET_GV_CFG, 31 => x == 1 && s.connState h.i != 0
  | .RAS_PMIG, 63 => false
  | .RAS_PMIG, _ => s.flag F.RAS_PMIG_EN
  | _, _ => false

/-- May only the MC write the field (KIND 11 of R544). -/
def mcOnlyField (reg : Reg) (lo : Nat) : Bool :=
  match reg, lo with
  | .PWR_TOLL, 20 => true
  | .PWR_LIMIT, 0 => true
  | _, _ => false

/-- Registers that only the MC writes (R293, R438, R478). -/
def mcOnlyReg : Reg → Bool
  | .WAY_HOLD => true | .RAS_PMIG => true | .RAS_HOLD => true | .CAL_CFG => true | .CAL_HOLD => true
  | .CAL_ITEM_CFG => true | .CAL_TAB_DATA => true
  | _ => false

/-- Registers that only transaction actions change (KIND 10 of R544). -/
def State.txOnly (s : State) (h : RegHit) : Bool :=
  match h.reg with
  | .REF_SPLICE => true | .ING_STRIPE_GEOM => true | .ING_STRIPE_HALO => true | .ING_STRIPE_CREW => true
  | .CAT_CTX => true | .RAS_BIST_CTRL => true
  | .REF_GEOM => (s.connOf h.i).isSome
  | _ => false

/-- Why a whole register refuses a direct write, if it does (R544). -/
def State.regRefused (s : State) (r : Requester) (h : RegHit) : Option Nat :=
  let dmaBusy (c : Nat) : Bool := s.fld F.DMA_STAT_STATE c != 0 && s.fld F.DMA_STAT_STATE c != 4
  let desc := match h.reg with
    | .DMA_SRC => dmaBusy h.i | .DMA_DST => dmaBusy h.i | .DMA_COUNT => dmaBusy h.i | .DMA_CTRL => dmaBusy h.i
    | .DMA_SHUF => dmaBusy h.i | .DMA_NEXT => dmaBusy h.i
    | .NET_RS_DST => s.flag F.NET_RS_CFG_EN h.i
    | .NET_RS_LEN => s.flag F.NET_RS_CFG_EN h.i
    | _ => false
  if desc then some 9 else if s.txOnly h then some 10
  else if mcOnlyReg h.reg ∧ r ≠ .mc then some 11 else none

/-- What follows from the new value of a register that a direct write has stored; `old` is the value before. -/
def State.regAfter (s : State) (h : RegHit) (old : Nat) : State :=
  let v := s.reg h.reg h.i h.j
  let rose (b : Nat) : Bool := bitsOf old b 1 == 0 && bitsOf v b 1 == 1
  let fell (b : Nat) : Bool := bitsOf old b 1 == 1 && bitsOf v b 1 == 0
  match h.reg with
  | .RAS_UE_LOG => if fell 63 then (s.setReg .RAS_UE_LOG 0).setReg .RAS_UE_ADDR 0 else s
  | .TALLY_LOG => if fell 63 then s.setReg .TALLY_LOG 0 else s
  | .STR_MISS_LOG => if fell 63 then s.setReg .STR_MISS_LOG 0 else s
  | .DMA_TMR => if rose 31 then { s with tmrBase := mapSet 0 s.tmrBase h.i s.now } else s
  | .CMD_Q_CFG => if rose 31 then s.queueStart h.i else s
  | .NET_CFG => if rose 31 then s.setFld F.NET_STAT_STATE 1 h.i else if fell 31 then s.netDown h.i else s
  | .NET_PTP_CFG => s.ptpEnable (bitsOf old 31 1) (bitsOf v 31 1)
  | .NET_GV_CFG => if rose 31 then s.gvBind h.i true else if fell 31 then s.gvBind h.i false else s.gvRefresh h.i
  | .PLB_CFG => if old / 2 ^ 30 = v / 2 ^ 30 ∧ bitsOf old 8 8 = bitsOf v 8 8 then s else s.plbMode h.i
  | .RAS_HOLD => if fell 31 then s.setFld F.RAS_HOLD_HOLDING 0 h.i else s.holdRefresh
  | _ => s

end Sys2Proof.Machine
end

