-- ==== Sys2Proof/Machine/RegWrite.lean ====
section
/-! DEFINITION. Reads and writes of BAR0 (R8 to R11, R32, R545), with what each register does, and the commands that make them. -/
namespace Sys2Proof.Machine

/-! ## Writes -/

/-- Does a direct write of a locked field change it (R9, R545). -/
def rwlHit (old v : Nat) (f : FieldRow) : Bool := f.acc == .rwl && bitsOf v f.lo f.w != bitsOf old f.lo f.w

/-- Why a field of a direct write is refused, if the write changes it and it is (R544): the lowest KIND that fits. -/
def State.fieldKind (s : State) (r : Requester) (h : RegHit) (old v : Nat) (f : FieldRow) : Option Nat :=
  let x := bitsOf v f.lo f.w
  if rwlHit old v f then some 5
  else if f.acc != .rw || x == bitsOf old f.lo f.w then none
  else if !fieldIn h.reg f.lo x v (s.fld F.PWR_LIMIT_CEIL_A) then some 6
  else if s.fieldHeld h f.lo x v then some 9
  else if mcOnlyField h.reg f.lo && decide (r ≠ .mc) then some 11
  else none

/-- The register value after a direct write of one field (R8). -/
def State.fieldPut (s : State) (r : Requester) (h : RegHit) (old v : Nat) (n : Nat) (f : FieldRow) : Nat :=
  let x := bitsOf v f.lo f.w
  let o := bitsOf n f.lo f.w
  match f.acc with
  | .rw => if (s.fieldKind r h old v f).isSome then n else putBits n f.lo f.w x
  | .w1c => putBits n f.lo f.w (o &&& (2 ^ f.w - 1 - x))
  | .w1s => putBits n f.lo f.w (o ||| x)
  | _ => n

/-- The smallest of some numbers. -/
def least : List Nat → Option Nat
  | [] => none
  | a :: r => match least r with
    | some b => some (min a b)
    | none => some a

/-- A direct write of a register field by field (R8, R545): every field that is not refused is stored, and one record names why
others are. -/
def State.regPut (s : State) (r : Requester) (h : RegHit) (v : Nat) : State :=
  let old := s.reg h.reg h.i h.j
  let a := regAddr h.reg h.i h.j
  let fs := (regRow h.reg).fields
  let ks := fs.filterMap (s.fieldKind r h old v)
  match s.regRefused r h with
  | some k => s.aelReg r a ((least (k :: ks)).getD k) 0 (v % 2 ^ 32)
  | none =>
    let s := (s.setReg h.reg (fs.foldl (s.fieldPut r h old v) old) h.i h.j).regAfter h old
    match least ks with
    | some k => s.aelReg r a k 0 (v % 2 ^ 32)
    | none => s

/-- A write of TILE_CTRL (R130, R141, R142, R144): each bit acts on the state the tile is in. -/
def State.tileCtl (s : State) (r : Requester) (t v : Nat) : State :=
  let quiet := s.tState t == tIdle || s.tState t == tHalted
  let s' := if bitsOf v 2 1 = 1 ∧ quiet then s.rngLoad t else s
  let s' := if bitsOf v 1 1 = 1 then s'.ctlExc t else s'
  let s' := if bitsOf v 31 1 = 1 ∧ quiet then s'.modTile t fun x => { x with resetting := true } else s'
  let s' := if bitsOf v 0 1 = 1 then s'.ctlHalt t else s'
  if !quiet && (bitsOf v 2 1 == 1 || bitsOf v 31 1 == 1) then s'.aelReg r (regAddr .TILE_CTRL t) 9 0 v else s'

/-- A write of DMA_ROUTE (R350): one that names a reserved source or a destination out of range is ignored. -/
def State.routeWrite (s : State) (r : Requester) (i v : Nat) : State :=
  let d := bitsOf v 16 14
  let dk := bitsOf v 30 2
  let okS := bitsOf v 15 1 == 1 || decide (bitsOf v 0 14 < 0x60)
  let okD := if dk = 0 then true else if dk = 1 then decide (d < 64) else decide (d < 16)
  if okS && okD then s.setReg .DMA_ROUTE v i else s.aelReg r (regAddr .DMA_ROUTE i) 6 0 v

/-- A write of CAL_TAB_DATA (R479): the MC's, with CUR = 0. -/
def State.calDataWrite (s : State) (r : Requester) (v : Nat) : State :=
  if s.flag F.CAL_TAB_ADDR_CUR then s.aelReg r (regAddr .CAL_TAB_DATA) 9 0 v
  else if r ≠ .mc then s.aelReg r (regAddr .CAL_TAB_DATA) 11 0 v
  else s.calTabWrite (v % 2 ^ 16)

/-- A direct write of STR_PMAP_DATA, which only transactions write (R223, R253). -/
def State.pmapRefuse (s : State) (r : Requester) (v : Nat) : State :=
  let e := s.pmapGet (s.fld F.STR_PMAP_ADDR_STACK) (s.fld F.STR_PMAP_ADDR_LPAGE)
  if v / 2 ^ 31 % 2 = e / 2 ^ 31 % 2 ∧ v % 2 ^ 14 = e % 2 ^ 14 then s else s.aelReg r (regAddr .STR_PMAP_DATA) 5 0 v

/-- A register takes a written value: by its own rule, else field by field (R8). I_REF is sound where a write starts a run of
calibration. -/
def State.regTake (s : State) (r : Requester) (h : RegHit) (v : Nat) : State :=
  match h.reg with
  | .ODO_CFG => s.odoCfgWrite r h.i v
  | .ODO_TG_CFG => s.tgCfgWrite r h.i v
  | .ODO_SEG_CFG => s.segCfgWrite r v
  | .ING_RES_CFG => s.resCfgWrite r h.i v
  | .MS_COUNT => s.msRegWrite r .MS_COUNT h.i v
  | .MS_TARGET => s.msRegWrite r .MS_TARGET h.i v
  | .MS_CFG => s.msRegWrite r .MS_CFG h.i v
  | .MS_ARRIVE_REG => s.msArriveBy (arrivePath r) h.i (v % 2 ^ 16)
  | .CAT_VOID_REG => s.catVoid r v
  | .DEP_BANK_OWNER => s.ownerWrite r v
  | .DEP_BANK_PRIO => (s.aelReg r (regAddr .DEP_BANK_PRIO h.i) 7 0x0501 (v % 2 ^ 32)).inc F.DEP_STAT_NOT_OWNER
  | .DMA_CMD => s.dmaCmd r h.i v
  | .DMA_ROUTE => s.routeWrite r h.i v
  | .CMD_SQ_TAIL => s.sqTailWrite r h.i v
  | .CMD_CQ_HEAD => s.cqHeadWrite r h.i v
  | .CMD_EGR_HEAD => s.egrHeadWrite r h.i v
  | .JCT_CFG => s.jctCfgWrite h.i v
  | .JCT_SYNC => s.jctSyncWrite r v
  | .TILE_CTRL => s.tileCtl r h.i v
  | .TILE_DBG_DATA => (s.dbgAccess r h.i (some v)).1
  | .TILE_MAP => s.mapWrite h.i h.j v
  | .REF_TAB_DATA => (s.tabAccess r h.i (some v)).1
  | .CAL_TAB_DATA => s.calDataWrite r v
  | .CAL_TRIG => s.calTrigWrite r v true
  | .PWR_DSTATE => s.dstateWrite r v
  | .CLK_MC => s.clkMcWrite r v
  | .STR_PMAP_DATA => s.pmapRefuse r v
  | _ => s.regPut r h v

/-- The high word that a low-word write commits (R11): the staged one, else one that leaves every field of it as it is: the stored
bits, 0 in W1C and W1S fields, and 0 in WO fields. -/
def State.highWord (s : State) (r : Requester) (h : RegHit) : Nat :=
  match mapGet none s.stage (holdKey r h) with
  | some w => w.toNat
  | none =>
    let v := (regRow h.reg).fields.foldl (fun n f =>
        if (f.acc = .wo ∨ f.acc = .w1c ∨ f.acc = .w1s) ∧ 32 ≤ f.lo then putBits n f.lo f.w 0 else n)
      (s.reg h.reg h.i h.j)
    v / 2 ^ 32 % 2 ^ 32

/-- A 4-byte write of a register's word (R11): a high word is staged, a low word commits both. -/
def State.wordWrite (s : State) (r : Requester) (h : RegHit) (v : Nat) : State :=
  if h.high then { s with stage := mapSet none s.stage (holdKey r h) (some (BitVec.ofNat 32 v)) }
  else if (regRow h.reg).width = 64 then
    let hi := s.highWord r h
    ({ s with stage := mapSet none s.stage (holdKey r h) none } : State).regTake r h (hi * 2 ^ 32 + v % 2 ^ 32)
  else s.regTake r h (v % 2 ^ 32)

/-- Is a BAR0 address in the waymark store (R299). -/
def inWayRec (a : Nat) : Bool := decide (0x810000 ≤ a ∧ a < 0x830000)

/-- The KIND of an access to a waymark record's words, if it is refused (R32). -/
def State.wayKindOf (s : State) (a n : Nat) : Option Nat :=
  if !s.domOn 2 then some 1 else if n = 4 ∧ a % 4 = 0 then none else some 3

/-- A write of `n` bytes at a BAR0 address (R32). -/
def State.bar0Write (s : State) (r : Requester) (a n v : Nat) : State :=
  if inWayRec a then s.aelReg r a ((s.wayKindOf a n).getD 11) 0 (v % 2 ^ 32)
  else match s.access a n with
  | .error k => s.aelReg r a k 0 (v % 2 ^ 32)
  | .ok h =>
    if s.otherLink r h then s.aelReg r a 1 0 (v % 2 ^ 32)
    else if n = 8 then (s.wordWrite r { h with high := true } (v / 2 ^ 32 % 2 ^ 32)).wordWrite r { h with high := false } (v % 2 ^ 32)
    else s.wordWrite r h v

/-! ## Reads -/

/-- The live value of a register: WO fields read zero (R8), and registers that show other state show it. -/
def State.regView (s : State) (h : RegHit) : Nat :=
  match h.reg with
  | .STR_PMAP_DATA => s.pmapGet (s.fld F.STR_PMAP_ADDR_STACK) (s.fld F.STR_PMAP_ADDR_LPAGE)
  | .CAL_TAB_DATA => s.calTabRead
  | .PWR_AON_TIME => s.aonNs / 1000 % 2 ^ 64
  | .SEC_STAT => putBits (s.reg .SEC_STAT) 13 9 (if s.fld F.SEC_STAT_DBG_SCOPE = 0 then 0 else
      s.fld F.SEC_STAT_DBG_MIN_LEFT - (s.now - s.dbgFrom) / 60000000000)
  | .SEC_FLOOR => s.fuses.modelFloor % 128 * 256 + s.fuses.fwFloor % 128
  | .SEC_SERIAL => s.fuses.serial % 2 ^ 64
  | .SEC_DEVPUB => Config.devPub h.i % 2 ^ 32
  | reg => (regRow reg).fields.foldl (fun n f => if f.acc = .wo then putBits n f.lo f.w 0 else n) (s.reg reg h.i h.j)

/-- The bits that a read of a register clears (R8). -/
def State.readClear (s : State) (h : RegHit) : State :=
  let fs := (regRow h.reg).fields
  if fs.any fun f => f.acc == .rc then
    s.setReg h.reg (fs.foldl (fun n f => if f.acc = .rc then putBits n f.lo f.w 0 else n) (s.reg h.reg h.i h.j)) h.i h.j
  else s

/-- A 4-byte read of a register's word (R8, R11). -/
def State.wordRead (s : State) (r : Requester) (h : RegHit) : State × Nat :=
  match h.reg with
  | .REF_TAB_DATA => s.tabAccess r h.i none
  | .TILE_DBG_DATA => s.dbgAccess r h.i none
  | _ =>
    let v := s.regView h
    if (regRow h.reg).width = 64 then
      if h.high then
        match mapGet none s.latch (holdKey r h) with
        | some w => ({ s with latch := mapSet none s.latch (holdKey r h) none }, w.toNat)
        | none => (s, v / 2 ^ 32 % 2 ^ 32)
      else (({ s with latch := mapSet none s.latch (holdKey r h) (some (BitVec.ofNat 32 (v / 2 ^ 32))) } : State).readClear h, v % 2 ^ 32)
    else (s.readClear h, v % 2 ^ 32)

/-- A read of `n` bytes at a BAR0 address (R32), and its data. -/
def State.bar0Read (s : State) (r : Requester) (a n : Nat) : State × Nat :=
  if inWayRec a then
    match s.wayKindOf a n with
    | some k => (s.aelReg r a k 0 0, 0)
    | none =>
      let i := (a - 0x810000) / 64
      let v := s.wayGet i
      (s.wayRead i 0 false, if wayKind v = 0 then 0 else bitsOf v (a % 64 * 8) 32)
  else match s.access a n with
  | .error k => (s.aelReg r a k 0 0, 0)
  | .ok h =>
    if s.otherLink r h then (s.aelReg r a 1 0 0, 0)
    else if n = 8 then
      let (s, lo) := s.wordRead r { h with high := false }
      let (s, hi) := s.wordRead r { h with high := true }
      (s, hi * 2 ^ 32 + lo)
    else s.wordRead r h

/-- A read whose data goes back to its requester. -/
def State.readBack (s : State) (r : Requester) (a n : Nat) : State :=
  let (s, d) := s.bar0Read r a n
  s.emit (.readData r d)

/-! ## Commands -/

/-- R11: a read of the low word of a 64-bit register, or of all of it. -/
def execRegRead64Low (dt : Nat) (r : Requester) (addr bytes : Nat) (s : State) : Answer := .next ((s.tick dt).readBack r addr bytes)

/-- R11: a read of the high word of a 64-bit register. -/
def execRegRead64High (dt : Nat) (r : Requester) (addr : Nat) (s : State) : Answer := .next ((s.tick dt).readBack r addr 4)

/-- R8: a read of a register, which clears its RC fields. -/
def execRegReadClear (dt : Nat) (r : Requester) (addr bytes : Nat) (s : State) : Answer := .next ((s.tick dt).readBack r addr bytes)

/-- R11: a write of the high word of a 64-bit register. -/
def execRegWrite64High (dt : Nat) (r : Requester) (addr : Nat) (data : Word) (s : State) : Answer :=
  .next ((s.tick dt).bar0Write r addr 4 data.toNat)

/-- R8: a write of a register. -/
def execRegisterWrite (dt : Nat) (r : Requester) (addr bytes : Nat) (data : DWord) (s : State) : Answer :=
  .next ((s.tick dt).bar0Write r addr bytes data.toNat)

/-- R35, R36: a write of DEV_APERTURE. -/
def execDevApertureWrite (dt : Nat) (r : Requester) (data : Word) (s : State) : Answer :=
  .next ((s.tick dt).bar0Write r (regAddr .DEV_APERTURE) 4 data.toNat)

/-- R94: a direct write at an offset of unit `u`'s block changes the staging image of its parameter set. -/
def execRefStagingWrite (dt : Nat) (r : Requester) (u : Fin 16) (off : Fin 0x220) (data : Word) (s : State) : Answer :=
  .next ((s.tick dt).bar0Write r (0x300000 + 0x10000 * u.val + off.val) 4 data.toNat)

/-- R358: a write of CMD_SQ_TAIL. -/
def execSqTailDoorbell (dt : Nat) (r : Requester) (q : Fin 64) (v : Word) (s : State) : Answer :=
  .next ((s.tick dt).bar0Write r (regAddr .CMD_SQ_TAIL q) 4 v.toNat)

/-- R358: a write of CMD_CQ_HEAD. -/
def execCqHeadDoorbell (dt : Nat) (r : Requester) (q : Fin 64) (v : Word) (s : State) : Answer :=
  .next ((s.tick dt).bar0Write r (regAddr .CMD_CQ_HEAD q) 4 v.toNat)

/-- R358, R377: a write of CMD_Q_CFG. -/
def execQCfgWrite (dt : Nat) (r : Requester) (q : Fin 64) (v : Word) (s : State) : Answer :=
  .next ((s.tick dt).bar0Write r (regAddr .CMD_Q_CFG q) 4 v.toNat)

/-- R378: a write of CMD_EGR_HEAD, both words. -/
def execEgrHeadWrite (dt : Nat) (r : Requester) (k : Fin 16) (v : DWord) (s : State) : Answer :=
  .next ((s.tick dt).bar0Write r (regAddr .CMD_EGR_HEAD k) 8 v.toNat)

/-- R388: a write of NET_RS_CFG. -/
def execNetRsCfgWrite (dt : Nat) (r : Requester) (k : Fin 16) (v : Word) (s : State) : Answer :=
  .next ((s.tick dt).bar0Write r (regAddr .NET_RS_CFG k) 4 v.toNat)

/-- R389: a write of NET_GV_CFG. -/
def execNetGvCfgWrite (dt : Nat) (r : Requester) (c : Fin 16) (v : Word) (s : State) : Answer :=
  .next ((s.tick dt).bar0Write r (regAddr .NET_GV_CFG c) 4 v.toNat)

/-- R417: a write of RAS_HOLD, which only the MC makes. -/
def execRasHoldWrite (dt : Nat) (r : Requester) (h : Fin 4) (v : Word) (s : State) : Answer :=
  .next ((s.tick dt).bar0Write r (regAddr .RAS_HOLD h) 4 v.toNat)

/-- R431: a write of RAS_PMIG, both words, which only the MC makes. -/
def execRasPmigWrite (dt : Nat) (r : Requester) (v : DWord) (s : State) : Answer :=
  .next ((s.tick dt).bar0Write r (regAddr .RAS_PMIG) 8 v.toNat)

/-- R286: a read of a waymark record: `mis` says how often the two voters differ, `lost` that the copies give no majority; the
sixteen words go back to the requester. -/
def execWaymarkRecordRead (dt : Nat) (r : Requester) (i : Fin 2048) (mis : Fin 4) (lost : Bool) (s : State) : Answer :=
  let s := s.tick dt
  match s.wayKindOf (0x810000 + 64 * i.val) 4 with
  | some k => .next ((s.aelReg r (0x810000 + 64 * i.val) k 0 0).emit (.readData r 0))
  | none =>
    let v := s.wayGet i
    .next ((s.wayRead i mis lost).emit (.readData r (if wayKind v = 0 then 0 else v)))

/-! ## BAR2 and BAR4 -/

/-- Cut `n` bytes at `a` into pieces that cross no multiple of `m`: address and length, at most `k` pieces. -/
def piecesOf (m a n : Nat) : Nat → List (Nat × Nat)
  | 0 => []
  | k + 1 => if n = 0 then [] else
    let l := min n (m - a % m)
    (a, l) :: piecesOf m (a + l) (n - l) k

/-- The requester of a PCIe link. -/
def hostOf (link : Nat) : Requester := if link = 0 then .hostA else .hostB

/-- One depot access of a host read (R33, R330, R332). -/
def State.bar2Get (s : State) (link a n : Nat) : State × List (Byte × Bool) :=
  let zero := List.replicate n (0, false)
  if 0x6000000 ≤ a then (s.ael 1 a (originOf (hostOf link)) 1 0 0, zero)
  else if s.depotMay 1 a then (s, s.depotGet a n)
  else (s.depotRefuse 1 (originOf (hostOf link)) a 0, zero)

/-- One depot access of a host write. -/
def State.bar2Put (s : State) (link a : Nat) (b : List Byte) : State :=
  let d := leNat (b.take 4)
  if 0x6000000 ≤ a then s.ael 1 a (originOf (hostOf link)) 1 0 d
  else if s.depotMay 1 a then s.depotPut a (b.map fun x => some (x, false))
  else s.depotRefuse 1 (originOf (hostOf link)) a d

/-- Run pieces of a read in address order and gather the bytes. -/
def gather (f : State → Nat → Nat → State × List (Byte × Bool)) : List (Nat × Nat) → State → State × List (Byte × Bool)
  | [], s => (s, [])
  | (a, n) :: ps, s =>
    let (s, b) := f s a n
    let (s, c) := gather f ps s
    (s, b ++ c)

/-- R330, R33: a host request to BAR2 runs as depot accesses in address order. -/
def execBar2Access (dt : Nat) (link : Fin 2) (off len : Nat) (wr : Option (List Byte)) (s : State) : Answer :=
  let s := s.tick dt
  match wr with
  | some b =>
    .next ((piecesOf 64 off b.length b.length).foldl (fun s p => s.bar2Put link p.1 ((b.drop (p.1 - off)).take p.2)) s)
  | none =>
    let (s, b) := gather (fun s a n => s.bar2Get link a n) (piecesOf 64 off len len) s
    .next (s.emit (.barData link (b.map (·.1)) (b.any (·.2))))

/-- The physical address of a BAR4 offset, where its stack is on and its page is mapped (R34, R224, R441). -/
def State.bar4Phys (s : State) (off : Nat) : Option Nat :=
  let a := s.fld F.DEV_APERTURE_BASE_GIB * 2 ^ 30 + off
  if off < 2 ^ 30 ∧ s.domOn (6 + a / stackBytes) then s.hbmPhys a else none

/-- One best-effort access of a host read of BAR4: an unmapped one returns zero and is recorded. -/
def State.bar4Get (s : State) (link off n : Nat) : State × List (Byte × Bool) :=
  match s.bar4Phys off with
  | some p => (s.chargeBest (p / stackBytes) n, s.hbmReadPhys p n)
  | none => (s.ael 2 off (originOf (hostOf link)) 1 0 0, List.replicate n (0, false))

/-- One best-effort access of a host write of BAR4: an unmapped one is discarded and recorded. -/
def State.bar4Put (s : State) (link off : Nat) (b : List Byte) : State :=
  match s.bar4Phys off with
  | some p => (s.chargeBest (p / stackBytes) b.length).hbmWriteMig p b false
  | none => s.ael 2 off (originOf (hostOf link)) 1 0 (leNat (b.take 4))

/-- R34: a host request to BAR4 reaches device HBM as best-effort traffic. -/
def execBar4Access (dt : Nat) (link : Fin 2) (off len : Nat) (wr : Option (List Byte)) (s : State) : Answer :=
  let s := s.tick dt
  match wr with
  | some b =>
    .next ((piecesOf 4096 off b.length b.length).foldl (fun s p => s.bar4Put link p.1 ((b.drop (p.1 - off)).take p.2)) s)
  | none =>
    let (s, b) := gather (fun s a n => s.bar4Get link a n) (piecesOf 4096 off len len) s
    .next (s.emit (.barData link (b.map (·.1)) (b.any (·.2))))

end Sys2Proof.Machine
end

