-- ==== Sys2Proof/Machine/Tx.lean ====
section
/-! DEFINITION. Transactions: decoding records (R283 to R285), opening and adding (R287, R288), the prepare phase (R289 to R293), the
commit signal (R291), transactions across devices (R296), the tally (R297, R298). -/
namespace Sys2Proof.Machine

/-! ## Records -/

/-- The writes of a KIND 1 record (R285). -/
def wayWrites (v : Nat) : List Act :=
  ((List.range 4).filter fun i => bitsOf v (128 + 96 * i + 31) 1 == 1).map fun i =>
    .regWrite (bitsOf v (128 + 96 * i) 26) (bitsOf v (160 + 96 * i) 32) (bitsOf v (192 + 96 * i) 32)

/-- The actions of a record (R283, R285). -/
def wayActs (v : Nat) : List Act :=
  let f (byte bit w : Nat) : Nat := bitsOf v (8 * byte + bit) w
  match wayKind v with
  | 1 => wayWrites v
  | 2 => [.bcast (f 16 0 34) (f 24 0 32) (f 28 0 12) (f 30 0 5) (f 32 0 32) (f 36 0 32) (f 40 0 32)]
  | 3 => [.msSet (f 16 0 14) (f 18 0 8 + 1) (f 19 0 5) (f 20 0 32) (f 24 0 32) (f 28 0 16) (f 30 0 3) (f 30 3 1)]
  | 4 => [.bank (f 16 0 16) (f 18 0 8) (f 19 0 1 == 1) ((List.range 16).map fun p => f (20 + p) 0 4)]
  | 5 => [.steer (f 16 0 4) (f 17 0 4)]
  | 6 => [.plan (f 16 0 4) (f 17 0 6) (f 18 0 1 == 1) (f 19 0 5)]
  | 7 => [.detour (f 16 0 11) (f 18 0 11) (f 20 0 11)]
  | 8 => [.model (f 16 0 1) (f 18 0 16)]
  | 9 => [.odo (f 16 0 2) (f 24 0 64)]
  | 10 => [.sys (f 16 0 256) (f 48 0 16)]
  | _ => []

/-- The bits of bytes 16 to 63 that a kind names, as first bit and width in the record; none for a reserved kind. -/
def kindFields (kind : Nat) : Option (List (Nat × Nat)) :=
  match kind with
  | 1 => some ((List.range 4).flatMap fun i => [(128 + 96 * i, 26), (128 + 96 * i + 31, 1), (160 + 96 * i, 64)])
  | 2 => some [(128, 34), (192, 32), (224, 12), (240, 5), (256, 96)]
  | 3 => some [(128, 14), (144, 8), (152, 5), (160, 32), (192, 32), (224, 16), (240, 4)]
  | 4 => some ([(128, 16), (144, 8), (152, 1)] ++ (List.range 16).map fun p => (160 + 8 * p, 4))
  | 5 => some [(128, 4), (136, 4)]
  | 6 => some [(128, 4), (136, 6), (144, 1), (152, 5)]
  | 7 => some [(128, 11), (144, 11), (160, 11)]
  | 8 => some [(128, 1), (144, 16)]
  | 9 => some [(128, 2), (192, 64)]
  | 10 => some [(128, 256), (384, 16)]
  | _ => none

/-- Is a record as TX_ADD accepts it (R285, R362): a kind, no bit beside its fields, tile numbers and milestones in range. -/
def wayOk (v : Nat) : Bool :=
  match kindFields (wayKind v) with
  | none => false
  | some fs =>
    fs.foldl (fun n f => putBits n f.1 f.2 0) (bitsOf v 128 384 * 2 ^ 128) == 0 &&
    (wayActs v).all fun a => match a with
      | .msSet first n _ _ _ _ _ _ => decide (first + n ≤ 16384)
      | .detour l f w => decide (l < 1088 ∧ f < 1088 ∧ w < 1088)
      | _ => true

/-- The records of transaction `t` in SEQ order. -/
def State.txRecs (s : State) (t : Nat) : List Nat :=
  sortBy (s.wayOf t) fun a b => decide (waySeq (s.wayGet a) ≤ waySeq (s.wayGet b))

/-- The writes of a broadcast (R284): every selected tile, in tile order. -/
def bcastWrites (col row off modM1 value mask step : Nat) : List Act :=
  (List.range 34).flatMap fun c => if bitsOf col c 1 = 0 then [] else
    ((List.range 32).filter fun r => bitsOf row r 1 == 1).map fun r =>
      .regWrite (0x1000000 + (regAddr .TILE_STAT 1 - regAddr .TILE_STAT) * (32 * c + r) + off)
        ((value + step * (r % (modM1 + 1))) % 2 ^ 32) mask

/-- The actions of transaction `t`, each with its record, broadcasts as single writes. -/
def State.txActs (s : State) (t : Nat) : List (Nat × Act) :=
  (s.txRecs t).flatMap fun i => ((wayActs (s.wayGet i)).flatMap fun a => match a with
    | .bcast c r o m v k p => bcastWrites c r o m v k p
    | a => [a]).map fun a => (i, a)

/-! ## Opening and adding -/

/-- The lowest FREE transaction. -/
def State.freeTx (s : State) : Option Nat := (List.range 64).find? fun t => s.txState t == 0

/-- Open transaction `t` (R287). -/
def State.txNew (s : State) (t size origin : Nat) (rec_ : Bool) : State :=
  let s := s.setTx t { tx0 with origin := origin }
  let s := s.setReg .WAY_TX_STAT (putBits (2 ^ 29 + origin * 2 ^ 27 + (if rec_ then 2 ^ 26 else 0)) 0 16 (s.fld F.WAY_TX_STAT_LAST_STATUS t)) t
  let s := (s.setReg .WAY_TX_SIZE size t).setReg .WAY_TX_POINT 0 t
  let s := s.setFld F.WAY_STAT_OPEN (s.fld F.WAY_STAT_OPEN + 1)
  if rec_ then (s.setFld F.WAY_STAT_RSV_FREE (s.fld F.WAY_STAT_RSV_FREE - size)).setFld F.WAY_STAT_REC_OPEN (s.fld F.WAY_STAT_REC_OPEN + 1)
  else s.setFld F.WAY_STAT_FREE (s.fld F.WAY_STAT_FREE - size)

/-- Why an open request is refused, if it is (R287, R298 invariant 6). -/
def State.openRefused (s : State) (t : Option Nat) (size : Nat) (rec_ mc : Bool) : Option Nat :=
  refuseIf (rec_ && !mc) 0x0501 <|
  refuseIf (decide (64 ≤ s.fld F.WAY_STAT_OPEN)) 0x0202 <|
  refuseIf (match t with | some t => s.txState t != 0 | none => false) 0x0502 <|
  refuseIf (s.wayBad || (if rec_ then decide (64 < size ∨ 2 ≤ s.fld F.WAY_STAT_REC_OPEN ∨ s.fld F.WAY_STAT_RSV_FREE < size)
    else decide (s.fld F.WAY_STAT_FREE < size))) 0x0201 none

/-- The lowest free record of a pool (R287). -/
def State.freeRec (s : State) (rec_ : Bool) : Option Nat :=
  ((List.range 2048).drop (if rec_ then 1920 else 0)).find? fun i => wayKind (s.wayGet i) == 0

/-- Add a record of bits 16 to 63 to transaction `t`; a system record names the transaction (R288, R296). -/
def State.txAdd (s : State) (t kind pay : Nat) : State :=
  let n := s.fld F.WAY_TX_SIZE_USED t
  match s.freeRec (s.txRec t) with
  | none => s
  | some i =>
    let v := pay % 2 ^ 384 * 2 ^ 128 + (if s.txRec t then 2 ^ 28 else 0) + 2 ^ 25 + n * 2 ^ 14 + t * 2 ^ 8 + kind
    let s := (s.wayPut i v).setFld F.WAY_TX_SIZE_USED (n + 1) t
    if kind = 10 then (s.setTx t { s.tx t with sysId := bitsOf pay 256 16 }).setFld F.WAY_TX_STAT_ORIGIN 2 t else s

/-- PREPARING (R289): the commit point is fixed, and records that were never used go back (R287). -/
def State.txBegin (s : State) (t point arg : Nat) : State :=
  let used := s.fld F.WAY_TX_SIZE_USED t
  let s := (s.poolBack t (s.fld F.WAY_TX_SIZE_SIZE t - used)).setFld F.WAY_TX_SIZE_SIZE used t
  ((s.setFld F.WAY_TX_STAT_POINT point t).setReg .WAY_TX_POINT (if point = 0 then 0 else arg) t).setFld F.WAY_TX_STAT_STATE 2 t

/-- A KIND 1 payload of up to four writes. -/
def writesPay : List (Nat × Nat × Nat) → Nat
  | [] => 0
  | (a, v, m) :: r => (2 ^ 31 + a) + v % 2 ^ 32 * 2 ^ 32 + m % 2 ^ 32 * 2 ^ 64 + writesPay r * 2 ^ 96

/-- Register writes as KIND 1 records. -/
def regRecs (ws : List (Nat × Nat × Nat)) : List (Nat × Nat) :=
  (List.range ((ws.length + 3) / 4)).map fun i => (1, writesPay ((ws.drop (4 * i)).take 4))

/-- The MC opens a transaction of its own with the given records and prepares it; none where the store refuses it. -/
def State.mcTx (s : State) (rec_ : Bool) (recs : List (Nat × Nat)) (point arg : Nat) : State × Option Nat :=
  match s.openRefused none recs.length rec_ true, s.freeTx with
  | none, some t => ((recs.foldl (fun s r => s.txAdd t r.1 r.2) (s.txNew t recs.length 1 rec_)).txBegin t point arg, some t)
  | _, _ => (s, none)

/-! ## Entries -/

/-- The bits of a register's word that hold fields. -/
def wordFields (h : RegHit) : Nat :=
  let m := (regRow h.reg).fields.foldl (fun n f => putBits n f.lo f.w (2 ^ f.w - 1)) 0
  if h.high then m / 2 ^ 32 else m % 2 ^ 32

/-- The unit whose parameter set holds an address. -/
def paramUnit (a : Nat) : Option Nat := (List.range 16).find? fun u => isParam u a

/-- Where a register write takes effect (R291), with its part of the mask. -/
def State.writeAt (s : State) (a m : Nat) : List (EffectAt × Nat) :=
  match paramUnit a, findReg a with
  | some u, _ => [(.latch u, m)]
  | none, some h =>
    if h.reg = .TILE_RB_CFG ∨ h.reg = .TILE_RB_FWD then
      match s.crewAt h.i with
      | some (u, e) => [(.crew u e, m)]
      | none => [(.signal, m)]
    else if h.reg = .ODO_SEG_CFG ∧ s.flag F.ODO_TG_CFG_EN (s.fld F.ODO_SEG_CFG_REFGEN) ∧ m % 2 ^ 16 ≠ 0 then
      (.segCfg, m % 2 ^ 16) :: (if m / 2 ^ 16 = 0 then [] else [(.signal, m / 2 ^ 16 * 2 ^ 16)])
    else [(.signal, m)]
  | none, none => [(.signal, m)]

/-- The pending entries of one action (R289, R291). -/
def State.entriesOf (s : State) (t : Nat) (q : Nat × Act) : List Entry :=
  let put (a : Act) (e : EffectAt) : Entry := ⟨t, q.1, a, e, .placed, 0, 0⟩
  match q.2 with
  | .regWrite a v m =>
    let m := match findReg a with | some h => m &&& wordFields h | none => m
    (s.writeAt a m).map fun p => put (.regWrite a v p.2) p.1
  | .model b us => ((List.range 16).filter fun u => bitsOf us u 1 == 1).map fun u => put (.model b us) (.latch u)
  | .steer c u => [put (.steer c u) (.boundary c)]
  | .plan u e n l => [put (.plan u e n l) (.crew u e)]
  | .detour l f w => match s.crewAt w with
    | some (u, e) => [put (.detour l f w) (.crew u e)]
    | none => []
  | .sys _ _ => []
  | a => [put a .signal]

/-- What two actions must not share (R291), as numbers: units, crews, connections, banks, odometers, milestones, registers. -/
def Entry.keys (e : Entry) : List Nat :=
  match e.at_, e.act with
  | .latch u, _ => [u]
  | .crew u k, _ => [100 + 64 * u + k]
  | .boundary c, .steer _ u => [2000 + c, u]
  | .boundary c, _ => [2000 + c]
  | .segCfg, _ => [2100]
  | .signal, .regWrite a _ _ => match findReg a with
    | some h => if h.reg = .MS_COUNT ∨ h.reg = .MS_TARGET ∨ h.reg = .MS_CFG then [10000 + h.i] else [2 ^ 20 + regAddr h.reg h.i h.j]
    | none => [2 ^ 20 + a]
  | .signal, .msSet first n _ _ _ _ _ _ => (List.range n).map fun i => 10000 + first + i
  | .signal, .bank bs _ _ _ => ((List.range 16).filter fun b => bitsOf bs b 1 == 1).map fun b => 3000 + b
  | .signal, .odo u _ => [3100 + u]
  | .signal, _ => []

/-- Committed entries that a target may hold (R291). -/
def heldLimit (at_ : EffectAt) : Nat :=
  match at_ with
  | .latch _ => 4
  | .crew _ _ => 4
  | _ => 1

/-- The entries of other transactions at the targets of `es`. -/
def State.rivals (s : State) (t : Nat) (es : List Entry) : List Entry :=
  let keys := es.flatMap Entry.keys
  s.ents.filter fun e => e.tx != t && e.keys.any fun k => keys.contains k

/-- Does another transaction hold a target (R291, R293): an uncommitted entry, which a recovery takes from a normal transaction, or as
many committed ones as the target holds. -/
def State.conflict (s : State) (t : Nat) (es : List Entry) : Bool :=
  let rv := s.rivals t es
  rv.any (fun e => e.phase == .placed && !(s.txRec t && !s.txRec e.tx)) ||
  es.any fun e => decide (heldLimit e.at_ ≤
    ((rv.filter fun x => x.phase != .placed && x.keys.any fun k => e.keys.contains k).map (·.tx)).dedup.length)

/-! ## Checks -/

/-- A configuration with one more action in place. -/
def State.leaves1 (s : State) (a : Act) : State :=
  match a with
  | .regWrite ad v m => match findReg ad with
    | some h =>
      let m := m &&& wordFields h
      if h.reg = .STR_PMAP_DATA then
        let k := s.fld F.STR_PMAP_ADDR_STACK; let l := s.fld F.STR_PMAP_ADDR_LPAGE
        s.pmapSet k l (maskWord (s.pmapGet k l) 0 v m)
      else s.maskWrite ad v m
    | none => s
  | .msSet first n which _ _ _ owner _ =>
    if which.testBit 3 then (List.range n).foldl (fun s i => s.setFld F.MS_CFG_OWNER owner (first + i)) s else s
  | .steer c u => (s.setFld F.ING_CONN_CFG_UNIT u c).setFld F.ING_CONN_CFG_STEERED 1 c
  | .plan u e n l => s.setCrew u e { s.crew u e with nm1 := n, leftOut := l }
  | .model b us => { s with unitBank := (List.range 16).foldl (fun m u => if bitsOf us u 1 = 1 then mapSet 0 m u (b + 1) else m) s.unitBank }
  | _ => s

/-- The configuration that a transaction leaves: the committed entries that still wait, then its own actions. -/
def State.leaves (s : State) (acts : List Act) : State :=
  acts.foldl State.leaves1 ((s.ents.filter fun e => e.phase != .placed).foldl (fun s e => s.leaves1 e.act) s)

/-- Is a BAR0 offset one that a register write may name (R283). -/
def writable (a : Nat) : Bool := a % 4 == 0 && ((findReg a).isSome || inWayRec a)

/-- The owner class of a transaction's origin (R331). -/
def txClass (origin : Nat) : Nat := if origin = 1 then 0 else 1

/-- Do two ports of an owner take one rank (R333, R334). -/
def rankTie (owner : Nat) (prio : List Nat) : Bool :=
  let ps := match owner with
    | 0 => [1] | 1 => [0] | 2 => [2, 3, 4, 5] | 3 => [6, 7, 8, 9] | 4 => [10, 11] | _ => [12]
  let rs := ps.map fun p => prio.getD p 0
  decide (rs.dedup.length ≠ rs.length)

/-- The checks of one action of transaction `t` (R283); `after` is the configuration that the transaction leaves. -/
def State.actCheck (s after : State) (t : Nat) (det : List Nat) (a : Act) : Option Nat :=
  match a with
  | .regWrite ad v m =>
    refuseIf (!writable ad) 0x0102 <|
    match findReg ad with
    | none => none
    | some h => match h.reg with
      | .PWR_COL => s.colCheck after h.i
      | .PWR_DOM => s.domCheck after h.i
      | .RAS_RETIRED => s.retireCheck after h.i
      | .RAS_BIST_CTRL => if bitsOf (v &&& m) 31 1 = 1 then s.bistCheck (bitsOf (v &&& m) 30 1 == 1) (bitsOf (v &&& m) 0 6) else none
      | .RAS_SUBST => s.substCheck after h.i det
      | .MC_CTRL => refuseIf (s.pairSt (after.fld F.MC_CTRL_ACTIVE_SEL) != 1) 0x0503 none
      | _ => none
  | .msSet _ _ which _ _ _ owner _ => refuseIf (which.testBit 3 && decide (6 ≤ owner)) 0x0503 none
  | .bank bs owner force prio =>
    refuseIf (decide (6 ≤ owner) || rankTie owner prio) 0x0503 <|
    refuseIf (!(if force then (s.tx t).origin == 1 else s.handOk (txClass (s.tx t).origin) bs)) 0x0501 none
  | .steer c u => s.steerCheck after c u
  | .plan u e nm1 out =>
    let set := s.slotSet u (s.refU u).cur
    refuseIf (!(crewEntries set u).contains e || (nm1 && decide ((crewSpan set u e).2 < 2 ∨ (crewSpan set u e).2 ≤ out))) 0x0503
      (after.planCheck u e set (after.crewPlan u e))
  | .detour l f w => s.detourRefused after l f w
  | .model b us => firstRefusal ((List.range 16).filter fun u => bitsOf us u 1 == 1) fun u => after.modelCheck u b (after.staging u)
  | .odo u _ => s.odoCheck u
  | _ => none

/-- Units whose parameter set or connection the actions change. -/
def unitsOf (acts : List Act) : List Nat :=
  (acts.flatMap fun a => match a with
    | .regWrite ad _ _ => (paramUnit ad).toList
    | .steer _ u => [u]
    | .model _ us => (List.range 16).filter fun u => bitsOf us u 1 == 1
    | _ => []).dedup

/-- A register that an action writes. -/
def Act.hit : Act → Option RegHit
  | .regWrite a _ _ => findReg a
  | _ => none

/-- Is a register one of a stream slot's, and which slot. -/
def slotOf (h : RegHit) : Option (Nat × Nat) :=
  if [Reg.STR_SLOT_BASE, .STR_SLOT_ROW, .STR_SLOT_ROWS, .STR_SLOT_RATE, .STR_SLOT_TILE, .STR_SLOT_BUF].contains h.reg
  then some (h.i, h.j) else none

/-- The checks of R238, R258, R210 and R403 that the kind of the actions calls for. -/
def State.wideCheck (s after : State) (acts : List Act) : Option Nat :=
  let hits := acts.filterMap Act.hit
  let slots := hits.filterMap slotOf
  let model := acts.any fun a => match a with | .model _ _ => true | _ => false
  let steer := acts.any fun a => match a with | .steer _ _ => true | _ => false
  let pages := hits.any fun h => h.reg == .STR_PMAP_DATA || h.reg == .STR_OCTET
  let cols := (hits.filter fun h => h.reg == .PWR_COL).map (·.i)
  let lower := cols.filter fun c => decide (after.fld F.PWR_COL_REQ_OP c < s.fld F.PWR_COL_REQ_OP c)
  let all := (List.range 4).flatMap fun k => (after.slotsOn k).map fun z => (k, z)
  let sets (u : Nat) : FMap DWord := after.staging u
  match (if model || steer || pages || !cols.isEmpty || !slots.isEmpty then
      after.streamCheck (if model || pages then all else slots) else none) with
  | some c => some c
  | none =>
    match (if hits.any fun h => [Reg.CAT_TAB_BASE, .CAT_TAB_VMAP, .CAT_TAB_AUX, .CAT_TAB_FMT, .CAT_TAB_ROWS].contains h.reg
      then after.catCheck else none) with
    | some c => some c
    | none =>
      match (if lower.isEmpty then none else firstRefusal s.crewsNow fun q =>
        refuseIf (lower.contains (tileCol (s.subTile q.2.2.1)) && after.crewSlow q.1 q.2.1 q.2.2.2 (tileCol (s.subTile q.2.2.1))) 0x010D none) with
      | some c => some c
      | none => if (unitsOf acts).isEmpty then none else after.exportCheck sets

/-- All checks of the prepare phase (R282, R291): the code of the first that fails. -/
def State.txCheck (s : State) (t : Nat) (acts : List Act) (es : List Entry) : Option Nat :=
  let after := s.leaves acts
  let det := acts.filterMap fun a => match a with | .detour _ _ w => some w | _ => none
  match firstRefusal acts (s.actCheck after t det) with
  | some c => some c
  | none =>
    match firstRefusal (unitsOf acts) fun u => after.unitCheck u after.staging with
    | some c => some c
    | none => match s.wideCheck after acts with
      | some c => some c
      | none => refuseIf (s.conflict t es) 0x0503 none

/-! ## Prepare -/

/-- Values that the spec leaves open. -/
def State.frees (s : State) : Nat → State × List Nat
  | 0 => (s, [])
  | n + 1 => let (t, r) := s.useFree.frees n; (t, s.free % 2 ^ 32 :: r)

/-- A prepare is refused (R289): a refusal of the route checker names the crew and the first offending word (R326) in result words
that the spec does not lay out. -/
def State.txRefuse (s : State) (t code : Nat) : State :=
  let x := s.tx t
  let s : State := { s with coords := s.coords.map fun (c : Coord) => if c.tx = t ∧ c.refused.isNone then { c with refused := some code } else c }
  match x.prep with
  | some h =>
    if code = admitRoute ∨ code = admitKernel ∨ code = admitLinebuf then
      let (s, w) := ((s.setTx t { x with prep := none }).txEnd t code).frees 5
      s.reply h code w
    else s.txEnd t code
  | none => s.txEnd t code

/-- Every check has passed: the entries are placed, and the transaction is PREPARED (R289, R290, R293, R296). -/
def State.txPlace (s : State) (t : Nat) (es : List Entry) : State :=
  let losers := ((s.rivals t es).filter fun e => e.phase == .placed).map (·.tx)
  let s := losers.dedup.foldl (fun s k => s.txEnd k 0x0505) s
  let s : State := { s with ents := s.ents ++ es, orderNext := s.orderNext + 1 }
  let x := { s.tx t with order := s.orderNext }
  let s := ((s.setTx t x).wayStates t 2).setFld F.WAY_TX_STAT_STATE 3 t
  let s := match x.prep with
    | some h => s.replyPending h
    | none => s
  let s := match x.peer with
    | some d => s.ctlTo d (.ready x.sysId)
    | none => if x.coord then ({ s with coords := s.coords.map fun (c : Coord) => if c.tx = t then { c with ready := withBit c.ready (s.fld F.JCT_SYS_DEVNUM) } else c } : State) else s
  match s.fld F.WAY_TX_STAT_POINT t with
  | 0 => s.txCommit t
  | 2 =>
    let arg := s.fld F.WAY_TX_POINT_POINT_ARG t
    let m := bitsOf arg 32 14; let v := arg % 2 ^ 32
    if s.msReached m v then s.txCommit t else ({ s with waiters := s.waiters ++ [(⟨.commit t, m, v⟩ : Waiter)] } : State)
  | _ => s

/-- R289: the checks of transaction `t` end: it becomes PREPARED and posts PENDING, or goes to FREE with a code. -/
def execTxPrepared (dt : Nat) (t : Fin 64) (s : State) : Answer :=
  let s := s.tick dt
  let t := t.val
  if s.txState t = 2 ∧ s.mcUp then
    let acts := s.txActs t
    let es := acts.flatMap (s.entriesOf t)
    match s.txCheck t (acts.map (·.2)) es with
    | some code => .next (s.txRefuse t code)
    | none => .next (s.txPlace t es)
  else .next s

/-! ## Commit signal -/

/-- The register value that a committed write stores: RW and RWL fields and the fields that only transactions write take the masked
value; W1C, W1S and WO fields take the masked ones; a value outside a stated range leaves an RW field as it was. -/
def State.txValue (s : State) (h : RegHit) (v m : Nat) : Nat :=
  let old := s.reg h.reg h.i h.j
  let full := mask64 old v m
  (regRow h.reg).fields.foldl (fun n f =>
    let o := bitsOf old f.lo f.w
    let x := bitsOf full f.lo f.w
    let one := bitsOf (v &&& m) f.lo f.w
    match f.acc with
    | .rw => if fieldIn h.reg f.lo x full (s.fld F.PWR_LIMIT_CEIL_A) && !s.fieldHeld h f.lo x full then putBits n f.lo f.w x else n
    | .rwl => putBits n f.lo f.w x
    | .w1c => putBits n f.lo f.w (o &&& (2 ^ f.w - 1 - one))
    | .w1s => putBits n f.lo f.w (o ||| one)
    | .ro => if s.txOnly h then putBits n f.lo f.w x else n
    | _ => n) old

/-- The word that a register with a rule of its own takes: masked over its RW fields, zeros elsewhere. -/
def State.txWord (s : State) (h : RegHit) (v m : Nat) : Nat :=
  let base := (regRow h.reg).fields.foldl (fun n f => if f.acc == .rw || f.acc == .rwl then n else putBits n f.lo f.w 0) (s.reg h.reg h.i h.j)
  mask64 base v m

/-- The requester that a transaction's writes count as (R279, R293). -/
def txReq (origin : Nat) : Requester := if origin = 1 then .mc else if origin = 0 then .hostA else .commit

/-- The pairs change places (R484, R495): the outgoing pair halts and becomes STANDBY, or reloads its bank for UPD_SWITCH. -/
def State.swapPairs (s : State) (t : Nat) : State :=
  let p := s.fld F.MC_CTRL_ACTIVE_SEL
  let old := s.fld F.MC_STAT_ACTIVE
  if p = old ∨ s.pairSt p ≠ 1 then s else
  let s := ((s.setPair old 1).setPair p 0).setFld F.MC_STAT_ACTIVE p
  match s.switch with
  | some w =>
    if w.tx = some t then
      let im := ((s.fwSlot w.slot).ok).getD s.running
      let gone := decide (im.release / 2 ^ 24 ≠ s.fwMajor)
      let s : State := { s.setPair old 2 with
        activeSlot := w.slot, running := im, runFrom := s.now, switch := some { w with swapped := true }
        banks := if gone then s.banks.filter fun b => s.bankLive b.1 else s.banks }
      ((s.setFld F.MC_STAT_SLOT w.slot).setFld F.MC_STAT_SWITCHING 0).logE 1 0xE00A [w.slot, im.release, im.ident % 2 ^ 32, 0]
    else s
  | none => s

/-- Tiles whose bit of RAS_RETIRED a committed write has set are retired (R422); a cleared bit leaves the repair record. -/
def State.retiredWrite (s : State) (c old : Nat) : State :=
  let new := s.fld F.RAS_RETIRED_ROWS c
  (List.range 32).foldl (fun s r =>
    let t := 32 * c + r
    if bitsOf old r 1 = 0 ∧ bitsOf new r 1 = 1 then s.retireTile t 3
    else if bitsOf old r 1 = 1 ∧ bitsOf new r 1 = 0 then s.repairPut (fun e => decide (e.kind = 2 ∧ e.a = t)) []
    else s) s

/-- What follows from a committed register write (R291, R422, R424, R425, R428, R441, R447, R484). -/
def State.txAfter (s : State) (e : Entry) (h : RegHit) (old : Nat) : State :=
  let high := s.txRec e.tx
  match h.reg with
  | .PWR_COL => s.colCommit h.i high
  | .PWR_DOM => s.domCommit h.i high
  | .RAS_SUBST =>
    let s : State := { s with substTag := mapSet 0 s.substTag h.i e.tag }
    (s.setFld F.RAS_SUBST_HOLDING (if s.fld F.RAS_SUBST_EN h.i = s.fld F.RAS_SUBST_ACTIVE h.i then 0 else 1) h.i).laybyFree
  | .RAS_RETIRED => s.retiredWrite h.i old
  | .MC_CTRL => s.swapPairs e.tx
  | .TILE_RB_CFG => s.detourCheck h.i
  | .STR_OCTET => s.slotRates h.i
  | .STR_SLOT_RATE => s.slotRates h.i
  | .REF_GEOM => s
  | r => if r = .RAS_BIST_CTRL ∨ old = s.reg h.reg h.i h.j then s else s.regAfter h old

/-- A register write of a transaction at the arrival of its commit signal (R283, R291). -/
def State.txWrite (s : State) (e : Entry) (a v m : Nat) : State :=
  let r := txReq (s.tx e.tx).origin
  match findReg a with
  | none => s.aelReg .commit a 11 0 v
  | some h => match s.commitTake h v m with
    | (s, none) => s
    | (s, some (v, m)) =>
      let old := s.reg h.reg h.i h.j
      let own := s.txWord h v m
      match h.reg with
      | .STR_PMAP_DATA =>
        let k := s.fld F.STR_PMAP_ADDR_STACK; let l := s.fld F.STR_PMAP_ADDR_LPAGE
        s.pmapSet k l (maskWord (s.pmapGet k l) 0 v m)
      | .RAS_BIST_CTRL => if bitsOf (v &&& m) 31 1 = 1 then s.bistStart (bitsOf (v &&& m) 30 1 == 1) (bitsOf (v &&& m) 0 6) else s
      | .MS_COUNT => s.msSet h.i (some own) none none none
      | .MS_TARGET => s.msSet h.i none (some own) none none
      | .MS_CFG => s.msSet h.i none none (some (own % 2 ^ 16)) (some (bitsOf own 27 1))
      | .ODO_SEG_CFG => (s.segCfgWrite .commit (putBits own 0 16 (s.fld F.ODO_SEG_CFG_LINES_M1))).setFld F.ODO_SEG_CFG_LINES_M1 (own % 2 ^ 16)
      | reg =>
        if [Reg.ODO_CFG, .ODO_TG_CFG, .ING_RES_CFG, .MS_ARRIVE_REG, .CAT_VOID_REG, .DEP_BANK_OWNER, .DEP_BANK_PRIO, .DMA_CMD, .DMA_ROUTE,
            .CMD_SQ_TAIL, .CMD_CQ_HEAD, .CMD_EGR_HEAD, .JCT_CFG, .JCT_SYNC, .TILE_CTRL, .TILE_DBG_DATA, .TILE_MAP, .REF_TAB_DATA,
            .CAL_TAB_DATA, .CAL_TRIG, .PWR_DSTATE, .CLK_MC].contains reg then s.regTake r h own
        else match (if s.txOnly h then none else s.regRefused r h) with
          | some k => s.aelReg .commit a k 0 (v % 2 ^ 32)
          | none => (s.setReg h.reg (s.txValue h v m) h.i h.j).txAfter e h old

/-- A milestone setting of a range (R277, R285). -/
def State.msRange (s : State) (first n which count target stride owner evt : Nat) : State :=
  let opt (b v : Nat) : Option Nat := if which.testBit b then some v else none
  (List.range n).foldl (fun s i =>
    let s := if which.testBit 3 then s.setFld F.MS_CFG_OWNER owner (first + i) else s
    s.msSet (first + i) (opt 0 count) (opt 1 target) (opt 2 stride) (opt 4 evt)) s

/-- An entry whose effect point is the arrival of the commit signal takes effect. -/
def State.effect (s : State) (e : Entry) : State :=
  match e.act with
  | .regWrite a v m => s.txWrite e a v m
  | .msSet f n w c t st o ev => s.msRange f n w c t st o ev
  | .bank bs owner force prio => s.handover bs owner (prio.reverse.foldl (fun n p => 16 * n + p) 0) force
  | .odo u pos => (s.setFld F.ODO_POS_POS pos u).setOdo u { s.odo u with high := sext pos 64 }
  | _ => s

/-- R291: the commit signal of transaction `t` reaches its targets: entries without another effect point take effect, the others are
held by their targets. -/
def execCommitSignalArrive (dt : Nat) (t : Fin 64) (s : State) : Answer :=
  let s := s.tick dt
  let t := t.val
  if s.txState t = 4 then
    let mine (e : Entry) : Bool := e.tx == t && e.phase == .sent
    let now_ := s.ents.filter fun e => mine e && e.at_ == .signal
    let s : State := { s with
      ents := (s.ents.filter fun e => !(mine e && e.at_ == .signal)).map fun (e : Entry) => if mine e then { e with phase := .held } else e }
    let s := now_.foldl (fun s e => s.effect e) s
    let s := (List.range 16).foldl (fun s u => if (s.ents.any fun e => e.tx == t && e.at_ == .latch u) then s.refSets u else s) s
    .next (s.txDone1 t)
  else .next s

/-! ## Across devices -/

/-- Lines of the reference generator up to the first line of boundary `b` (R66, R296). -/
def State.linesTo (s : State) (b : Int) : Int :=
  s.segLine + (b - s.segBase) * s.segSize - (s.trigGen (s.fld F.ODO_SEG_CFG_REFGEN)).n

/-- PREPARE reaches a participant (R296 step 2). -/
def State.sysPrepare (s : State) (src sysid b : Nat) : State :=
  match (List.range 64).find? fun t => s.txState t == 1 && s.fld F.WAY_TX_STAT_ORIGIN t == 2 && (s.tx t).sysId == sysid && !(s.tx t).coord with
  | none => s.ctlTo src (.refuse sysid 0x0503)
  | some t =>
    if sext b 56 < s.nextB then s.ctlTo src (.refuse sysid 0x0504)
    else (s.setTx t { s.tx t with peer := some src }).txBegin t 1 (b % 2 ^ 56)

/-- R296 step 2: PREPARE arrives from device `src`. -/
def execSysPrepareMsg (dt : Nat) (src : Fin 256) (sysid : Fin 65536) (b : DWord) (s : State) : Answer :=
  .next ((s.tick dt).sysPrepare src sysid b.toNat)

/-- A vote reaches the coordinator (R296 steps 2 and 3): READY, or the code of a refusal. -/
def State.sysVote (s : State) (src sysid : Nat) (refused : Option Nat) : State :=
  { s with coords := s.coords.map fun c =>
      if c.sysId = sysid ∧ !c.closed then
        match refused with
        | none => { c with ready := withBit c.ready src }
        | some code => { c with refused := some (c.refused.getD code) }
      else c }

/-- R296 step 2: READY or REFUSE arrives from device `src`. -/
def execSysVoteReply (dt : Nat) (src : Fin 256) (sysid : Fin 65536) (refused : Option (Fin 65536)) (s : State) : Answer :=
  .next ((s.tick dt).sysVote src sysid (refused.map (·.val)))

/-- The devices of a bitmap. -/
def devicesOf (m : Nat) : List Nat := (List.range 256).filter fun d => m.testBit d

/-- The vote closes (R296 step 4): GO to everyone where every device is READY, else ABORT, and the first refusal code is kept. -/
def State.voteClose (s : State) (c : Coord) : State :=
  let me := s.fld F.JCT_SYS_DEVNUM
  let others := (devicesOf c.devices).filter (· != me)
  if c.ready = c.devices ∧ c.refused.isNone then
    let s := others.foldl (fun s d => s.ctlTo d (.go c.sysId)) s
    let s := s.setTx c.tx { s.tx c.tx with go := true }
    { s with coords := s.coords.map fun x => if x.sysId = c.sysId then { x with closed := true } else x }
  else
    let code := c.refused.getD 0x0504
    let s : State := { s with coords := s.coords.map fun x => if x.sysId = c.sysId then { x with closed := true, refused := some code } else x }
    let s := others.foldl (fun s d => s.ctlTo d (.abort c.sysId)) s
    if (s.txState c.tx = 2 ∨ s.txState c.tx = 3) ∧ (s.tx c.tx).coord ∧ (s.tx c.tx).sysId = c.sysId then s.txEnd c.tx code
    else match s.coords.find? fun x => x.sysId == c.sysId with
      | some x => s.coordCheck x
      | none => s

/-- R296 steps 3 and 4: the vote of system transaction `sysid` closes at b − G lines. -/
def execSysVoteClose (dt : Nat) (sysid : Fin 65536) (s : State) : Answer :=
  let s := s.tick dt
  match s.coords.find? fun c => c.sysId == sysid.val && !c.closed with
  | some c => if s.linesTo (sext c.b 56) ≤ s.fld F.WAY_SYS_CFG_GUARD_LINES then .next (s.voteClose c) else .next s
  | none => .next s

/-- The part of a system transaction on a participant: PREPARING or PREPARED. -/
def State.sysPart (s : State) (src sysid : Nat) : Option Nat :=
  (List.range 64).find? fun t => (s.txState t == 2 || s.txState t == 3) && decide ((s.tx t).peer = some src) && (s.tx t).sysId == sysid

/-- GO reaches a participant. -/
def State.sysGo (s : State) (src sysid : Nat) : State :=
  match s.sysPart src sysid with
  | some t => s.setTx t { s.tx t with go := true }
  | none => s

/-- R296 step 4: GO arrives from device `src`. -/
def execSysGoMsg (dt : Nat) (src : Fin 256) (sysid : Fin 65536) (s : State) : Answer := .next ((s.tick dt).sysGo src sysid)

/-- ABORT reaches a participant: its part goes to FREE, and DONE goes back; so it does where the part has ended. -/
def State.sysAbort (s : State) (src sysid : Nat) : State :=
  match s.sysPart src sysid with
  | some t => if s.txState t = 3 then s.txEnd t 0x050B else (s.txEnd t 0x050B).ctlTo src (.done sysid false)
  | none => s.ctlTo src (.done sysid false)

/-- R296: ABORT arrives from device `src`. -/
def execSysAbortMsg (dt : Nat) (src : Fin 256) (sysid : Fin 65536) (s : State) : Answer := .next ((s.tick dt).sysAbort src sysid)

/-- R296 steps 6 and 7: DONE arrives from device `src`. -/
def execSysDoneMsg (dt : Nat) (src : Fin 256) (sysid : Fin 65536) (committed : Bool) (s : State) : Answer :=
  .next ((s.tick dt).coordDone sysid src committed)

/-! ## Tally -/

/-- Containment of a violation of an invariant (R298). -/
def State.contain (s : State) (inv inst : Nat) : State :=
  match inv with
  | 1 => s.fullRetrain (inst % 4)
  | 2 => (s.dmaError (inst % 64) 5)
  | 3 => { s with bankFault := putBits s.bankFault (inst % 16) 1 1 }
  | 4 => s.pathAbort inst
  | 5 => s.setFld F.PWR_TOLL_LEVEL 0
  | 6 => { s with wayBad := true }
  | _ => s.slotFault (inst / 256 % 4) (inst % 256)

/-- A violation is captured, counted, reported and contained (R298). -/
def State.violation (s : State) (inv inst : Nat) : State :=
  let s := if s.flag F.TALLY_LOG_VALID then s else
    s.setReg .TALLY_LOG (2 ^ 63 + inv % 8 * 2 ^ 60 + inst % 2 ^ 16 * 2 ^ 32 + s.now / 1000 % 2 ^ 32)
  let s := (s.inc F.TALLY_STAT_VIOLATIONS).setFld F.TALLY_STAT_VIOL 1
  (s.tell (.tally inv inst)).contain inv inst

/-- R297, R298: a snapshot of the tally in D0; `viol` lists the invariants that do not hold, each with its instance. -/
def execTallySnapshot (dt : Nat) (viol : List (Fin 7 × Fin 65536)) (s : State) : Answer :=
  let s := s.tick dt
  if s.fld F.PWR_STAT_DSTATE = 0 ∧ s.domOn 2 then
    let s := ((s.setFld F.TALLY_STAT_RUNNING 1).addWrap F.TALLY_CNT_SNAPS 1)
    let s := viol.foldl (fun s q => s.violation (q.1.val + 1) q.2) s
    .next { s with arrMs := [] }
  else .next (s.setFld F.TALLY_STAT_RUNNING 0)

end Sys2Proof.Machine
end

