-- ==== Sys2Proof/Machine/JctMsg.lean ====
section
/-! DEFINITION. What arrives on a junction port: flits (R398 to R400), export rows (R399) and control messages (R296, R404, R406). -/
namespace Sys2Proof.Machine

/-- A control message for this device (R296, R406). -/
def State.ctlTake (s : State) (m : CtlMsg) : State :=
  match m.body with
  | .prepare i b => s.sysPrepare m.src i b
  | .ready i => s.sysVote m.src i none
  | .refuse i c => s.sysVote m.src i (some c)
  | .go i => s.sysGo m.src i
  | .abort i => s.sysAbort m.src i
  | .done i c => s.coordDone i m.src c
  | .position t u v => if m.src = s.fld F.JCT_SYNC_POSMASTER then s.positionIn t u v else s

/-- A control message arrives: consumed at its destination, sent on elsewhere (R404). -/
def State.ctlIn (s : State) (m : CtlMsg) : State :=
  if m.dest = s.fld F.JCT_SYS_DEVNUM then s.ctlTake m else s.ctlSend m

/-- R404: a control message arrives on an ACTIVE junction port. -/
def execJctControlMessage (dt : Nat) (j : Fin 4) (m : CtlMsg) (s : State) : Answer :=
  let s := s.tick dt
  .next (if s.jctActive j then s.ctlIn m else s)

/-- A message of VC0 has arrived on port `j` (R399, R401, R384). -/
def State.jmsgIn (s : State) (j : Nat) (m : JMsg) : State :=
  match m with
  | .hello d i v n a b =>
    (if s.jctState j = 2 then s.setJct j { s.jct j with plane := n } else s).helloIn j d i v a b
  | .timeReq t1 => s.jctMsg j (.timeResp t1 s.now s.now)
  | .timeResp t1 t2 t3 => s.jctTimeIn j t1 t2 t3
  | .ctl m => s.ctlIn m

/-- The samples of an export row message (R399): a 32-byte header and the row. -/
def State.exportMsg (s : State) (j : Nat) (b : List Byte) : State :=
  let at_ (o n : Nat) : Nat := leNat ((b.drop o).take n)
  let w := at_ 16 1
  let n := at_ 13 2 * at_ 15 1
  s.exportIn j (at_ 12 1) (at_ 0 8) (at_ 8 4) ((List.range n).map fun i => at_ (32 + i * w) w)

/-- The payload of a data flit taken in order: a message ends with its last flit, and its entries are freed. -/
def State.flitTake (s : State) (j : Nat) (f : Flit) : State :=
  let x := s.jct j
  let x := { x with expect := (x.expect + 1) % 4096, freed0 := if f.vc = 0 then x.freed0 + 1 else x.freed0,
                    freed1 := if f.vc = 0 then x.freed1 else x.freed1 + 1 }
  match f.pay with
  | .msg m => (s.setJct j x).jmsgIn j m
  | .bytes b =>
    if f.vc ≠ 1 then s.setJct j x
    else if f.kind = 2 then (s.setJct j { x with asm := [] }).exportMsg j (x.asm ++ b)
    else s.setJct j { x with asm := x.asm ++ b }

/-- ACK and credits of a flit whose CRC holds (R398, R399): flits up to ACK leave the replay buffer. -/
def Jct.header (x : Jct) (f : Flit) : Jct :=
  let x := match x.unacked.findIdx? fun u => u.1 == f.ack with
    | some i => { x with unacked := x.unacked.drop (i + 1) }
    | none => x
  if f.crVc = 0 then { x with peer0 := x.peer0 + (f.crCum + 256 - x.peer0 % 256) % 256 }
  else { x with peer1 := x.peer1 + (f.crCum + 256 - x.peer1 % 256) % 256 }

/-- Does the CRC of a flit hold (R398). -/
def flitGood (f : Flit) : Bool :=
  match f.pay with
  | .bytes b => b.length == 56 && f.crc == flitCrc f.vc f.kind f.seq f.ack f.crVc f.crCum b
  | .msg _ => f.ok

/-- Is the flit a HELLO, which stands outside the sequence (R401). -/
def flitHello (f : Flit) : Bool :=
  match f.pay with
  | .msg (.hello ..) => true
  | _ => false

/-- R400: a flit arrives on port `j`: its CRC and its place in the sequence are checked, its acknowledgement and credits are
taken, data in order is delivered and answered with an idle flit; every other flit is discarded. -/
def execFlitReceived (dt : Nat) (j : Fin 4) (f : Flit) (s : State) : Answer :=
  let s := s.tick dt
  if s.jctState j ≠ 2 ∧ s.jctState j ≠ 3 ∧ s.jctState j ≠ 5 then .next s
  else if !flitGood f then .next (s.inc F.JCT_ERRCNT_CRC j)
  else if flitHello f then
    match f.pay with
    | .msg m => .next (s.jmsgIn j m)
    | .bytes _ => .next s
  else if s.jctState j = 2 ∨ 1 < f.vc ∨ f.kind = 3 then .next s
  else
    let s := s.setJct j ((s.jct j).header f)
    let s :=
      if f.kind ≠ 0 ∧ f.seq = (s.jct j).expect then
        let s := s.flitTake j f
        s.flitOut j f.vc 0 (s.jct j).nextSeq f.vc none
      else s
    .next (s.jctPump j (s.jct j).txq.length)

end Sys2Proof.Machine
end

