-- ==== Sys2Proof/Machine/Svc.lean ====
section
/-! DEFINITION. The service procedures that firmware runs by steps (R51, R429, R431, R433), and the restoration of a pair (R483, R495). -/
namespace Sys2Proof.Machine

/-- The code that an MC transaction for `n` records would be refused with (R287). -/
def State.mcTxCode (s : State) (n : Nat) : Nat := (s.openRefused none n false true).getD 0x0202

/-- Reply to the command of a procedure, if a command asked for it. -/
def State.svcReply (s : State) (h : Option CmdHdr) (st : Nat) (w : List Nat) : State :=
  match h with
  | some h => s.reply h st w
  | none => s

/-- Drop a procedure. -/
def State.svcDrop (s : State) (j : Svc) : State := { s with svc := s.svc.filter fun x => decide (x ≠ j) }

/-- A step of procedure `j` is a transaction of the MC: it goes on with it, or ends with the code that refuses it. -/
def State.svcTx (s : State) (j : Svc) (recs : List (Nat × Nat)) (point arg phase : Nat) : State :=
  let s := s.svcDrop j
  match s.mcTx false recs point arg with
  | (s, some t) => { s with svc := s.svc ++ [{ j with phase := phase, tx := some t }] }
  | (s, none) => s.svcReply j.hdr (s.mcTxCode recs.length) []

/-- The number of the next device segment boundary as a commit point (R290). -/
def State.nextPoint (s : State) : Nat := wrapTo 56 s.nextB

/-! ## SVC_TEST_COLUMN, test rotation and the tests of start-up (R429, R515) -/

/-- The self-test of a procedure: a committed write of RAS_BIST_CTRL, IMMEDIATE. -/
def State.svcBist (s : State) (j : Svc) (unit : Bool) (phase : Nat) : State :=
  s.svcTx j (regRecs [(regAddr .RAS_BIST_CTRL, 2 ^ 31 + (if unit then 2 ^ 30 else 0) + j.a, 0xFFFFFFFF)]) 0 0 phase

/-- The writes of RAS_SUBST `k` for column `c`, with TILE_RB_CFG and TILE_RB_FWD of the layby column (R424). -/
def State.substRecs (s : State) (k c : Nat) : List (Nat × Nat) :=
  let l := s.laybyCol k
  regRecs ((regAddr .RAS_SUBST k, 2 ^ 31 + c, 0xFFFFFFFF) :: (List.range 32).flatMap fun r =>
    [(regAddr .TILE_RB_CFG (32 * l + r), s.reg .TILE_RB_CFG (32 * c + r), 0xFFFFFFFF),
     (regAddr .TILE_RB_FWD (32 * l + r), s.reg .TILE_RB_FWD (32 * c + r), 0xFFFFFFFF)])

/-- The substitution entry that can take a column. -/
def State.freeSubst (s : State) : Option Nat :=
  (List.range 2).find? fun k => !s.flag F.RAS_SUBST_EN k && !s.flag F.RAS_SUBST_ACTIVE k

/-- The procedure after R429: a layby column is tested alone, an active column is substituted first. -/
def State.testColumn (s : State) (h : Option CmdHdr) (c : Nat) : State :=
  let j : Svc := ⟨h, 1, c, 2, 0, 0, 0, none⟩
  if c = s.laybyCol 0 ∨ c = s.laybyCol 1 then s.svcBist j false 2
  else match s.freeSubst with
    | some k => s.svcTx { j with b := k } (s.substRecs k c) 1 s.nextPoint 1
    | none => s.svcReply h 0x0503 []

/-- The member next to `t` in its crew that forwards to its detour: north of it, or south of member 0 (R219). -/
def State.fwdOf (s : State) (t : Nat) : Nat := if s.fld F.TILE_RB_CFG_MEMBER t = 0 then t + 1 else t - 1

/-- Step 5 of the procedure: RAS_SUBST clears, with a detour for each crew member that the test has retired (R427). -/
def State.svcReturn (s : State) (j : Svc) : State :=
  let bad := (List.range 32).filter fun r => s.tState (32 * j.a + r) == tRetired && (s.crewAt (32 * j.a + r)).isSome
  let det := bad.map fun r => (7, 32 * s.laybyCol j.b + r + s.fwdOf (32 * j.a + r) * 2 ^ 16 + (32 * j.a + r) * 2 ^ 32)
  s.svcTx j (regRecs [(regAddr .RAS_SUBST j.b, 0, 2 ^ 31)] ++ det) 1 s.nextPoint 3

/-- Map physical row `row` of a bank out of use (R121, R122, R430): a row that failed, or a spare row with its entry; a bank without
a free entry retires the tile. -/
def State.rowOut (s : State) (t bank row : Nat) : State :=
  let spare := decide (1024 ≤ row)
  let i := 16 * bank + (row - 1024)
  let used := spare && s.flag F.TILE_MAP_VALID t i
  let lrow := if spare then s.fld F.TILE_MAP_LROW t i else row
  let s := if spare then (s.setFld F.TILE_MAP_RETIRED 1 t i).mapRecord t i else s
  if (spare ∧ !used) ∨ (!spare ∧ (s.mapEntry t bank lrow 0 16).isSome) then s
  else match s.mapFree t bank with
    | some k => s.mapWrite t (16 * bank + k) (2 ^ 31 + lrow)
    | none => if s.tState t = tRetired then s else s.retireTile t 2

/-- The rows that wait for their tile to be idle are mapped out in the tiles of a column (R430). -/
def State.rowsOut (s : State) (c : Nat) : State :=
  let due := s.rowsDue.filter fun q => tileCol q.1 == c
  let s : State := { s with rowsDue := s.rowsDue.filter fun q => tileCol q.1 != c }
  due.foldl (fun s q => s.rowOut q.1 (q.2 / 1040) (q.2 % 1040)) s

/-- A substitution has switched (R425, R427): the procedure that waits for it goes on; one of kind 6 maps rows out of the idle
column (R430). -/
def State.svcSubst (s : State) (k : Nat) : State :=
  match s.svc.find? fun j => (j.kind == 1 || j.kind == 6) && j.b == k && (j.phase == 1 || j.phase == 3) with
  | some j =>
    if j.phase = 1 ∧ j.kind = 6 then (s.rowsOut j.a).svcReturn j
    else if j.phase = 1 then s.svcBist j false 2
    else (s.svcDrop j).svcReply j.hdr 0 [j.c, j.d]
  | none => s

/-- Start-up tests the next column or unit, once its column is in RUN and no test or its transaction is in progress (R515). -/
def State.bootTest (s : State) : State :=
  let i := s.boot.bistNext
  let due := decide (s.fld F.DEV_START_STAGE ≠ 8 ∧ 5 ≤ s.fld F.DEV_START_STAGE) && !s.boot.d3 && s.boot.restored && decide (i < 50)
  if due ∧ s.bist.isNone ∧ !(s.svc.any fun j => j.kind == 5) ∧ (34 ≤ i ∨ s.fld F.PWR_COL_STATE i = 0) then
    s.svcBist ⟨none, 5, if i < 34 then i else i - 34, 0, 0, 0, 0, none⟩ (decide (34 ≤ i)) 0
  else s

/-- A self-test has ended (R429): the procedure that waits for it goes on; `rows`: rows mapped out; `lost`: a tile was retired. -/
def State.svcTested (s : State) (rows : Nat) (lost : Bool) : State :=
  match s.svc.find? fun j => (j.kind == 1 && j.phase == 2) || j.kind == 5 with
  | some j =>
    if j.kind = 5 then
      let s : State := { s.svcDrop j with boot := { s.boot with bistNext := s.boot.bistNext + 1 } }
      s.bootTest.bootDone
    else
      let j' : Svc := { j with c := rows, d := if lost then 1 else 0 }
      let s : State := { s with svc := s.svc.map fun x => if x = j then j' else x }
      if j.b = 2 then (s.svcDrop j').svcReply j.hdr 0 [j'.c, j'.d] else s.svcReturn j'
  | none => s

/-! ## SVC_MOVE_CONN (R51, R204) -/

/-- The 32-bit words of the parameter set of unit `u`: those that its staging image or that of unit `v` lists. -/
def State.setWords (s : State) (u v : Nat) : List (Nat × Nat) :=
  let offs := (List.range 2).flatMap fun i =>
    let w := if i = 0 then u else v
    (s.staging w).map fun e =>
      if e.1 < 0x300000 then (if e.1 < 0x210000 ∨ 0x214000 ≤ e.1 then (2, e.1 - regAddr .CAT_CTX w) else (1, e.1 - (0x210000 + 0x400 * w)))
      else (0, e.1 - (0x300000 + 0x10000 * w))
  offs.dedup

/-- The address in unit `u` of a word of the parameter set. -/
def setWordAt (u : Nat) (q : Nat × Nat) : Nat :=
  match q.1 with
  | 0 => 0x300000 + 0x10000 * u + q.2
  | 1 => 0x210000 + 0x400 * u + q.2
  | _ => regAddr .CAT_CTX u + q.2

/-- The writes that give unit `v` the parameter set of unit `u`, a high word before its low word (R11). -/
def State.setWrites (s : State) (u v : Nat) : List (Nat × Nat × Nat) :=
  (s.setWords u v).flatMap fun q =>
    let a := setWordAt u q
    match findReg a with
    | some h =>
      let x := s.reg h.reg h.i h.j
      (if (regRow h.reg).width = 64 then [(setWordAt v q + 4, x / 2 ^ 32, 0xFFFFFFFF)] else []) ++
        [(setWordAt v q, x % 2 ^ 32, 0xFFFFFFFF)]
    | none => []

/-- The procedure after R51: the tables and the parameter set of the old unit go to the new one, and the connection is steered to
it at the next segment boundary, with the plan bank of its crews. -/
def State.moveConn (s : State) (h : Option CmdHdr) (c v : Nat) : State :=
  let u := s.fld F.ING_CONN_CFG_UNIT c
  if s.fld F.ING_CONN_CFG_STATE c ≠ 3 ∨ !s.flag F.ING_CONN_CFG_STEERED c then s.svcReply h 0x0509 []
  else if u = v ∨ (s.connOf v).isSome then s.svcReply h 0x0503 []
  else
    let tab := s.refTab.filter fun e => e.1 / 0x44000 == u
    let s : State := { s with
      refTab := tab.foldl (fun m e => mapSet 0 m (0x44000 * v + e.1 % 0x44000) e.2) (mapClear (0x44000 * v) (0x44000 * (v + 1)) s.refTab) }
    let bank := mapGet 0 s.unitBank u
    let recs := regRecs (s.setWrites u v) ++ [(5, c + v * 256)] ++ (if bank = 0 then [] else [(8, bank - 1 + 2 ^ v * 2 ^ 16)])
    s.svcTx ⟨h, 2, c, v, 0, 0, 0, none⟩ recs 1 s.nextPoint 1

/-! ## SVC_RETIRE_PAGE and SVC_SHOULDER -/

/-- Copy physical page `src` of stack `k` to `dst`, poison marks included (R431). -/
def State.pageCopy (s : State) (k src dst : Nat) : State :=
  let a := k * stackBytes + src * pageBytes
  let b := k * stackBytes + dst * pageBytes
  { s with
    hbm := (s.hbm.filter fun e => decide (a ≤ e.1 ∧ e.1 < a + pageBytes)).foldl (fun m e => mapSet 0 m (b + (e.1 - a)) e.2)
      (mapClear b (b + pageBytes) s.hbm)
    hbmPoison := (s.hbmPoison.filter fun e => decide (a / 64 ≤ e.1 ∧ e.1 < (a + pageBytes) / 64)).foldl
      (fun m e => mapSet false m (b / 64 + (e.1 - a / 64)) e.2) (mapClear (b / 64) ((b + pageBytes) / 64) s.hbmPoison) }

/-- The procedure after R431; `dst` is the free page that firmware takes, none where it has none. -/
def State.retirePage (s : State) (h : Option CmdHdr) (k l : Nat) (dst : Option Nat) : State :=
  let e := s.pmapGet k l
  let src := e % 2 ^ 14
  match dst with
  | none => s.svcReply h 0x0107 []
  | some d =>
    if bitsOf e 31 1 = 0 ∨ d = src ∨ s.pagesOut.contains (12288 * k + d) ∨ bitsOf (s.fld F.STR_OCTET_RETIRED k) (d % 4) 1 = 1 ∨
        s.flag F.RAS_PMIG_EN then s.svcReply h 0x0107 []
    else
      let s := s.setReg .RAS_PMIG (2 ^ 63 + k * 2 ^ 60 + src * 2 ^ 32 + d)
      let s := (s.pageCopy k src d).setReg .STR_PMAP_ADDR (putBits (putBits 0 F.STR_PMAP_ADDR_STACK.lo F.STR_PMAP_ADDR_STACK.w k)
        F.STR_PMAP_ADDR_LPAGE.lo F.STR_PMAP_ADDR_LPAGE.w l)
      let s' := s.svcTx ⟨h, 3, k, l, src, d, 0, none⟩ (regRecs [(regAddr .STR_PMAP_DATA, 2 ^ 31 + d, 0xFFFFFFFF)]) 0 0 1
      if s'.svc.length = s.svc.length then s'.setFld F.RAS_PMIG_EN 0 else s'

/-- SVC_SHOULDER (R433): REF_CTRL.FORCE_HS of the named units by transaction at the next boundary. -/
def State.shoulder (s : State) (h : Option CmdHdr) (mask : Nat) (on : Bool) : State :=
  let f := F.REF_CTRL_FORCE_HS
  let ws := ((List.range 16).filter fun u => bitsOf mask u 1 == 1).map fun u =>
    (regAddr .REF_CTRL u, if on then 2 ^ f.lo else 0, 2 ^ f.lo)
  s.svcTx ⟨h, 4, mask, 0, 0, 0, 0, none⟩ (regRecs ws) 1 s.nextPoint 1

/-! ## Pairs -/

/-- The swap of UPD_SWITCH is prepared for boundary b once the STANDBY pair holds the slot (R495 step 2). -/
def State.switchSwap (s : State) : State :=
  match s.switch with
  | some w =>
    if w.tx.isNone ∧ !w.swapped ∧ sext w.b 56 < s.nextB then
      (({ s.reply w.hdr 0x0504 [] with switch := none } : State).setPair (1 - s.fld F.MC_STAT_ACTIVE) 2).setFld F.MC_STAT_SWITCHING 0
    else if w.tx.isNone ∧ !w.swapped then
      match s.mcTx false (regRecs [(regAddr .MC_CTRL, putBits 0 F.MC_CTRL_ACTIVE_SEL.lo F.MC_CTRL_ACTIVE_SEL.w (1 - s.fld F.MC_STAT_ACTIVE),
          2 ^ F.MC_CTRL_ACTIVE_SEL.lo)]) 1 (w.b % 2 ^ 56) with
      | (s, some t) => { s with switch := some { w with tx := some t } }
      | (s, none) => ({ s.reply w.hdr (s.mcTxCode 1) [] with switch := none } : State).setFld F.MC_STAT_SWITCHING 0
    else s
  | none => s

/-- R483: a pair under restoration completes. `res`: 0 it passed and its bank verified, 1 its self-test failed, 2 its load
or verification failed (tried once more, R509). -/
def execPairRestore (dt : Nat) (p : Fin 2) (res : Fin 3) (s : State) : Answer :=
  let s := s.tick dt
  let p := p.val
  if s.pairSt p = 2 ∧ s.domOn 1 then
    if res.val = 0 then
      let s : State := { s.setPair p 1 with pairTry := mapSet 0 s.pairTry p 0 }
      .next ((s.setFld F.DEV_START_PAIR1_DOWN 0).switchEnd.switchSwap)
    else if res.val = 2 ∧ mapGet 0 s.pairTry p = 0 then .next { s with pairTry := mapSet 0 s.pairTry p 1 }
    else
      let s := (s.setPair p 3).setFld F.DEV_START_PAIR1_DOWN 1
      match s.switch with
      | some w => .next (({ s.reply w.hdr (if w.swapped then 0 else 0x050A) [] with switch := none } : State).setFld F.MC_STAT_SWITCHING 0)
      | none => .next s
  else .next s

end Sys2Proof.Machine
end

