-- ==== Sys2Proof/Machine/Ras.lean ====
section
/-! DEFINITION. Errors and what is done about them (R410 to R436): scrubbing, holds, self-test, column substitution, retirement. -/
namespace Sys2Proof.Machine

/-! ## Where an error is (R410, R420, R438) -/

/-- The class of RAS_ECC_CNT of a place. -/
def eccClass : EccPlace → Nat
  | .scratch .. => 0 | .spare .. => 0 | .lineBuf .. => 1
  | .acc .. => 2 | .act .. => 2 | .weight .. => 2 | .arrival .. => 2 | .fetch .. => 2 | .tileOther _ => 2
  | .depot _ => 3 | .table .. => 4 | .temporal .. => 4
  | .reservoir .. => 5 | .seam .. => 5 | .hbm .. => 5 | .onDie .. => 6
  | .milestone _ => 7 | .slot .. => 7 | .plan .. => 7 | .txState _ => 7 | .waymark .. => 7

/-- LOC of RAS_UE_ADDR (R439); none where the spec gives the place no number: the model's value is then free. -/
def eccLoc : EccPlace → Option Nat
  | .scratch t w => some (t.val * 2 ^ 32 + w.val)
  | .spare t b k => some (t.val * 2 ^ 32 + 2 ^ 30 + 16 * b.val + k.val)
  | .lineBuf t w => some (t.val * 2 ^ 32 + 2 ^ 31 + w.val)
  | .depot a => some a.val
  | .hbm k a => some (k.val * 2 ^ 62 + a % stackBytes)
  | .onDie k a => some (k.val * 2 ^ 62 + a % stackBytes)
  | .milestone m => some (regAddr .MS_COUNT m)
  | .slot k z => some (regAddr .STR_SLOT_BASE k z)
  | .txState t => some (regAddr .WAY_TX_STAT t)
  | .waymark i _ _ => some (0x810000 + 64 * i.val)
  | _ => none

/-- Mark one word of a list poisoned. -/
def poisonAt (ws : List Cell16) (i : Nat) : List Cell16 := ws.modify i fun c => { c with p := true }

/-- A milestone with an uncorrectable error (R413). -/
def State.msFault (s : State) (m : Nat) : State :=
  if s.fld F.MS_CFG_OWNER m = 3 then
    ((s.crewsOfMs fun x => x == m).foldl (fun s q => s.abortCrewSeg q.1 q.2) s)
  else
    let s := (s.setReg .MS_COUNT 0 m).setReg .MS_TARGET 0 m
    (s.setFld F.MS_CFG_STRIDE 0 m).setFld F.MS_CFG_FIRED 1 m

/-- What an uncorrectable error does where it is found (R410 to R413). -/
def State.eccHit (s : State) (x : EccPlace) : State :=
  match x with
  | .scratch t w => s.writeW t false w { s.readW t false w with p := true }
  | .spare t b k =>
    let key := b.val * 1040 + 1024 + k.val
    s.modTile t fun y => { y with sp := mapSet cell0 y.sp key { mapGet cell0 y.sp key with p := true } }
  | .lineBuf t w => s.writeW t true w { s.readW t true w with p := true }
  | .acc t i => s.accPut t i { s.accGet t i with p := true }
  | .act t i => s.modTile t fun y => { y with act := mapSet acc0 y.act i { mapGet acc0 y.act i with p := true } }
  | .weight t next i => s.modTile t fun y =>
      if next then { y with wNext := poisonAt y.wNext i } else { y with wCur := poisonAt y.wCur i }
  | .arrival t p i => s.modTile t fun y => { y with arrivals := y.arrivals.modify p fun q => { q with words := poisonAt q.words i } }
  | .fetch t k => s.modTile t fun y => { y with groups := mapSet none y.groups k none }
  | .tileOther _ => s
  | .depot a => { s with depotPoison := mapSet false s.depotPoison (a.val / 16) true }
  | .table u w => { s with refBad := mapSet false s.refBad (0x44000 * u.val + w.val) true }
  | .temporal u id x =>
    let r := s.refU u
    s.setRef u { r with tnr := r.tnr.map fun (m : TnrLine) =>
      if m.id = id then { m with sum := m.sum.set x 0, c := m.c.set x 0, lost := true } else m }
  | .reservoir c id => s.loseLine c id
  | .seam u e => s.abortCrewSeg u e
  | .hbm k a => s.hbmPutMark ((k.val * stackBytes + a % stackBytes) / 64) true
  | .onDie _ _ => s
  | .milestone m => s.msFault m
  | .slot k z => s.violation 7 (256 * k.val + z.val)
  | .plan b u e => if mapGet 0 s.unitBank u = b.val + 1 then s.abortCrewSeg u e else s
  | .txState _ => s
  | .waymark i copy v =>
    let r := mapGet way0 s.way i
    let r := match copy.val with
      | 0 => { r with c0 := v }
      | 1 => { r with c1 := v }
      | _ => { r with c2 := v }
    { s with way := mapSet way0 s.way i r }

/-! ## Retirement of memory (R430 to R432) -/

/-- Nanoseconds of 24 hours. -/
def dayNs : Nat := 86400000000000

/-- The times of a counter that lie within 24 h, with one more. -/
def State.within (s : State) (ts : List Nat) : List Nat := (ts.filter fun t => decide (s.now < t + dayNs)) ++ [s.now]

/-- A scratchpad row crosses its threshold: it is mapped out at once in an idle tile without a crew role, else by a
substitution of its column (R430). -/
def State.rowRetire (s : State) (t bank row : Nat) : State :=
  if s.tState t = tRetired then s
  else if s.tState t = tIdle ∧ !s.crewRole t then s.rowOut t bank row
  else
    let s : State := { s with rowsDue := if s.rowsDue.contains (t, 1040 * bank + row) then s.rowsDue else s.rowsDue ++ [(t, 1040 * bank + row)] }
    let c := tileCol t
    if s.svc.any fun j => decide (j.kind = 6 ∧ j.a = c) then s
    else match s.freeSubst with
      | some k => s.svcTx ⟨none, 6, c, k, 0, 0, 0, none⟩ (s.substRecs k c) 1 s.nextPoint 1
      | none => s

/-- An octet of a stack is retired (R225, R432): its catalogue rows are firmware's to void; a migration into it is abandoned
(R435). -/
def State.octetRetire (s : State) (k q : Nat) : State :=
  let s := (s.setFld F.STR_OCTET_RETIRED (withBit (s.fld F.STR_OCTET_RETIRED k) q) k).slotRates k
  let s : State := { s with repair := (s.repair.filter fun e => !decide (e.kind = 4 ∧ e.a = k ∧ e.b = q)) ++ [⟨4, k, q, 0, 0⟩], repairAt := s.now }
  match s.svc.find? fun j => decide (j.kind = 3 ∧ j.a = k ∧ j.d % 4 = q) with
  | some j => match j.tx with
    | some t => if s.txState t = 2 ∨ s.txState t = 3 then s.txEnd t 0x050B else s
    | none => s
  | none => s

/-- The logical page of stack `k` that maps to a physical page. -/
def State.logicalOf (s : State) (k p : Nat) : Option Nat :=
  (List.range 12288).find? fun l => let e := s.pmapGet k l; bitsOf e 31 1 == 1 && e % 2 ^ 14 == p

/-- A page of HBM crosses its threshold (R430, R431): it is retired to `dst`, the free page that firmware takes; a free page leaves the
pool; eight pages of an octet within 24 h are reported. -/
def State.pageRetire (s : State) (k p : Nat) (dst : Option Nat) : State :=
  if s.pagesOut.contains (12288 * k + p) then s else
  let key := 4 * k + p % 4
  let ts := s.within (mapGet [] s.octPages key)
  let s : State := { s with octPages := mapSet [] s.octPages key ts }
  let s := if s.pol 0x08 ≤ ts.length then s.tell (.note 14 key) else s
  match s.logicalOf k p with
  | some l => s.retirePage none k l dst
  | none => { s with pagesOut := s.pagesOut ++ [12288 * k + p] }

/-- Corrected errors against their thresholds (R430). -/
def State.ceCount (s : State) (x : EccPlace) (dst : Option Nat) : State :=
  let row (t bank r : Nat) : State :=
    let key := 16640 * t + 1040 * bank + r
    let ts := s.within (mapGet [] s.rowCe key)
    let s : State := { s with rowCe := mapSet [] s.rowCe key ts }
    if s.pol 0x06 ≤ ts.length then s.rowRetire t bank r else s
  match x with
  | .scratch t w => let key := s.spKey t w; row t (key / 1040) (key % 1040)
  | .spare t b k => row t b (1024 + k.val)
  | .hbm k a =>
    let p := a % stackBytes / pageBytes
    let key := 12288 * k.val + p
    let ts := s.within (mapGet [] s.pageCe key)
    let s : State := { s with pageCe := mapSet [] s.pageCe key ts }
    if s.pol 0x07 ≤ ts.length then s.pageRetire k p dst else s
  | _ => s

/-- An uncorrectable error that the scrubber has found (R416, R430): the region policy and the thresholds. -/
def State.ueRegion (s : State) (x : EccPlace) (reg : Region) (dst : Option Nat) : State :=
  match x with
  | .scratch t w => let key := s.spKey t w; s.rowRetire t (key / 1040) (key % 1040)
  | .spare t b k => s.rowRetire t b (1024 + k.val)
  | .hbm k a =>
    let p := k.val * stackBytes + a % stackBytes / 64 * 64
    let s := match reg with
      | .golden g => match s.hbmPhys (g / 64 * 64) with
        | some q => if s.hbmMark q then s else s.hbmWriteMig p ((s.hbmReadPhys q 64).map Prod.fst) false
        | none => s
      | .catRows t first n => (List.range n).foldl (fun s i => s.catVoid .mc (t.val * 2 ^ 56 + (first + i) % 2 ^ 30)) s
      | _ => s
    let pg := a % stackBytes / pageBytes
    let key := 12288 * k.val + pg
    let pass := s.fld F.RAS_SCRUB_STAT_HBM_PASSES + 1
    let was := mapGet 0 s.pageUe key
    let s : State := { s with pageUe := mapSet 0 s.pageUe key pass }
    if was ≠ 0 ∧ was ≠ pass then s.pageRetire k pg dst else s
  | .waymark i _ _ => s.wayRead i 0 false
  | _ => s

/-- The period of a scrub pass in ns (R414). -/
def State.scrubPeriod (s : State) (cls : Nat) : Nat :=
  match cls with
  | 0 => s.fld F.RAS_SCRUB_CFG_TILE_10MS * 10000000
  | 1 => s.fld F.RAS_SCRUB_CFG_DEP_10MS * 10000000
  | 2 => s.fld F.RAS_SCRUB_CFG_REF_10MS * 10000000
  | _ => s.fld F.RAS_SCRUB_CFG_HBM_H * 3600000000000

/-- A scrub pass of a class ends (R414): a pass of more than twice its period is late. -/
def State.scrubPass (s : State) (cls : Nat) : State :=
  let late := decide (mapGet 0 s.scrubAt cls + 2 * s.scrubPeriod cls < s.now)
  let f := [F.RAS_SCRUB_STAT_LATE_TILE, F.RAS_SCRUB_STAT_LATE_DEP, F.RAS_SCRUB_STAT_LATE_REF].getD cls F.RAS_SCRUB_STAT_LATE_HBM
  let s := if late then s.setFld f 1 else s
  let s := if cls = 3 then s.addWrap F.RAS_SCRUB_STAT_HBM_PASSES 1 else s
  { s with scrubAt := mapSet 0 s.scrubAt cls s.now }

/-- R412, R413, R415: an error is found at `x`, by the scrubber or by a consumer: corrected, or with `ue` not correctable; `reg`
is what the region map holds there (R416), `dst` the page that firmware would retire an HBM page to, and `pass` a scrub pass
that this read ends. -/
def execScrubRead (dt : Nat) (x : EccPlace) (ue scrub : Bool) (reg : Region) (dst : Option (Fin 12288)) (pass : Option (Fin 4))
    (s : State) : Answer :=
  let s := s.tick dt
  let cls := eccClass x
  let d := dst.map (·.val)
  let s :=
    if ue && cls != 6 then
      let (s, loc) := match eccLoc x with
        | some l => (s, l)
        | none => (s.useFree, s.free)
      let s := (s.eccUe cls scrub loc).eccHit x
      if scrub then s.ueRegion x reg d else s
    else (s.eccCe cls).ceCount x d
  .next (match pass with
    | some c => s.scrubPass c
    | none => s)

/-! ## Holds, pseudo-channels, the AON island -/

/-- R417: 1 ms after HOLDING became 1 the hold is released. -/
def execRasHoldTimeout (dt : Nat) (h : Fin 4) (s : State) : Answer :=
  let s := s.tick dt
  if s.flag F.RAS_HOLD_EN h ∧ s.flag F.RAS_HOLD_HOLDING h then
    let s := ((s.setFld F.RAS_HOLD_EN 0 h).setFld F.RAS_HOLD_HOLDING 0 h).setFld F.RAS_HOLD_RELEASED 1 h
    .next (s.tell (.note 15 h))
  else .next s

/-- R430, R432: a stack reports a pseudo-channel fault: its octet is retired at once. -/
def execHbmPseudoChannelFault (dt : Nat) (k : Fin 4) (pc : Fin 32) (s : State) : Answer :=
  .next ((s.tick dt).octetRetire k (pc.val / 8))

/-- R434: the copies of the AON island disagree in a cycle: logged, counted and reported; the island goes on with its first copy. -/
def execAonSelfCheckMismatch (dt : Nat) (s : State) : Answer :=
  let s := (s.tick dt).inc F.RAS_SELFCHK_AON_MIS
  let s := (s.setFld F.RAS_STAT_SELF 1).logE 2 0xE005 [0, s.fld F.RAS_SELFCHK_AON_MIS, 0, 0]
  .next (s.tell (.note 16 0))

/-! ## Self-test (R428, R429) -/

/-- What the test of one tile found: failing scratchpad rows and spare rows by bank, and whether any other item failed. -/
def State.bistTile (s : State) (t : Nat) (rows spares : List (Nat × Nat)) (fail : Bool) : State × Nat × Bool :=
  let s := spares.foldl (fun s q =>
    let i := 16 * q.1 + q.2
    (s.setFld F.TILE_MAP_RETIRED 1 t i).mapRecord t i) s
  let need := (rows ++ (spares.filter fun q => s.flag F.TILE_MAP_VALID t (16 * q.1 + q.2)).map fun q =>
    (q.1, s.fld F.TILE_MAP_LROW t (16 * q.1 + q.2))).dedup
  need.foldl (fun (a : State × Nat × Bool) q =>
    let s := a.1
    if (s.mapEntry t q.1 q.2 0 16).isSome then a
    else match s.mapFree t q.1 with
      | some k => (s.mapWrite t (16 * q.1 + k) (2 ^ 31 + q.2), a.2.1 + 1, a.2.2)
      | none => (s, a.2.1, true)) (s, 0, fail)

/-- The end of the test of tile row `r`: retired, or zeroed and IDLE (R428). -/
def State.bistTileEnd (s : State) (t : Nat) (fail : Bool) : State :=
  if fail then s.retireTile t 1
  else (s.setTile t { tile0 with dll := (s.tile t).dll }).setTState t tIdle

/-- R428, R429: the self-test in progress ends. `res`: of each tile row that failed an item, its failing scratchpad rows and spare
rows by bank, and whether another item failed; `unitFail`: the unit failed. -/
def execBistComplete (dt : Nat) (res : List (Fin 32 × List (Fin 16 × Fin 1024) × List (Fin 16 × Fin 16) × Bool)) (unitFail : Bool)
    (s : State) : Answer :=
  let s := s.tick dt
  match s.bist with
  | none => .next s
  | some b =>
    let s : State := { s with bist := none }
    if b.unit then
      let m := s.fld F.RAS_STAT_UNIT_FAIL
      let s := s.setFld F.RAS_STAT_UNIT_FAIL (putBits m b.idx 1 (if unitFail then 1 else 0))
      let s := s.setReg .RAS_BIST_FAIL (if unitFail then 1 else 0)
      let s := ((s.setFld F.RAS_BIST_STAT_STATE 2).setFld F.RAS_BIST_STAT_PASS (if unitFail then 0 else 1)).setFld F.RAS_BIST_STAT_ROWS_MAPPED 0
      let s := if unitFail ∧ s.fld F.DEV_START_STAGE ≠ 8 then s.setFld F.DEV_START_BIST_RETIRED 1 else s
      .next (s.svcTested 0 unitFail)
    else
      let (s, rows, bad) := (List.range 32).foldl (fun (a : State × Nat × Nat) r =>
        let t := 32 * b.idx + r
        if a.1.tState t ≠ tTest then a else
        let q : State × Nat × Bool := match res.find? fun q => q.1.val == r with
          | some q =>
            a.1.bistTile t (q.2.1.map fun (x : Fin 16 × Fin 1024) => (x.1.val, x.2.val))
            (q.2.2.1.map fun (x : Fin 16 × Fin 16) => (x.1.val, x.2.val)) q.2.2.2
          | none => (a.1, 0, false)
        (q.1.bistTileEnd t q.2.2, a.2.1 + q.2.1, if q.2.2 then a.2.2 + 2 ^ r else a.2.2)) (s, 0, 0)
      let s := s.setReg .RAS_BIST_FAIL bad
      let s := ((s.setFld F.RAS_BIST_STAT_STATE 2).setFld F.RAS_BIST_STAT_PASS (if bad = 0 then 1 else 0)).setFld F.RAS_BIST_STAT_ROWS_MAPPED rows
      let s := if bad ≠ 0 ∧ s.fld F.DEV_START_STAGE ≠ 8 then s.setFld F.DEV_START_BIST_RETIRED 1 else s
      .next (s.laybyFree.svcTested rows (decide (bad ≠ 0)))

/-! ## Column substitution (R424 to R427) -/

/-- Every crew with a tile in column `c` is between tasks. -/
def State.colQuiet (s : State) (c : Nat) : Bool :=
  s.crews.all fun q => match q.2.task with
    | some _ =>
      let u := q.1 / 64
      setFldIn (s.slotSet u (s.refU u).cur) F.ING_STRIPE_CREW_COL u (q.1 % 64) != c
    | none => true

/-- The copy of R426 from tile `a` to tile `b`: scratchpad at logical addresses with marks, line buffer and its rings, the seed, and
the place of the row sequences that it heads. -/
def State.tileCopy (s : State) (a b : Nat) : State :=
  if s.tState b = tRetired then s else
  let s := (s.writeWs b false 0 (s.readWs a false 0 16384)).modTile b fun x => { x with lb := (s.tile a).lb, rings := (s.tile a).rings }
  let s := s.setReg .TILE_RNG_SEED (s.reg .TILE_RNG_SEED a) b
  let rows := (List.range 8).filterMap fun ch =>
    if s.busNext.any (fun e => e.1 == 8 * a + ch) then some (ch, mapGet 0 s.busNext (8 * a + ch)) else none
  { s with busNext := rows.foldl (fun m q => mapSet 0 m (8 * b + q.1) q.2) (mapClear (8 * b) (8 * b + 8) s.busNext) }

/-- R425, R426: every crew of the substituted column is between tasks: the column's state is copied. -/
def execSubstSwitch (dt : Nat) (k : Fin 2) (s : State) : Answer :=
  let s := s.tick dt
  let k := k.val
  let c := s.fld F.RAS_SUBST_COL k
  let l := s.laybyCol k
  if s.fld F.RAS_SUBST_EN k ≠ s.fld F.RAS_SUBST_ACTIVE k ∧ s.colQuiet c ∧ !s.substCopied.testBit k then
    let s := (List.range 32).foldl (fun s r =>
      if s.flag F.RAS_SUBST_EN k then s.tileCopy (32 * c + r) (32 * l + r) else s.tileCopy (32 * l + r) (32 * c + r)) s
    .next { s with substCopied := withBit s.substCopied k }
  else .next s

/-- R425 to R427: the copy completes: ACTIVE changes and dispatch goes on. -/
def execSubstCopyComplete (dt : Nat) (k : Fin 2) (s : State) : Answer :=
  let s := s.tick dt
  let k := k.val
  if s.substCopied.testBit k then
    let on := s.fld F.RAS_SUBST_EN k
    let s : State := { s with substCopied := s.substCopied - 2 ^ k, substTag := mapSet 0 s.substTag k 0 }
    let s := (s.setFld F.RAS_SUBST_ACTIVE on k).setFld F.RAS_SUBST_HOLDING 0 k
    let s := s.repairPut (fun e => decide (e.kind = 6 ∧ e.a = k)) (if on = 1 then [⟨6, k, s.fld F.RAS_SUBST_COL k, 0, 0⟩] else [])
    .next (s.laybyFree.svcSubst k)
  else .next s

end Sys2Proof.Machine
end

