-- ==== Sys2Proof/Machine/Csm.lean ====
section
/-! DEFINITION. The command state machine: admission (R362) and the commands it executes itself (R365, path C). -/
namespace Sys2Proof.Machine

/-- Parameter word `k` of a packet (R359). -/
def pw (p : List Word) (k : Nat) : Nat := (p.getD k 0).toNat

/-- Admission of a packet (R362, R494): its opcode, the class in recovery mode, FLAGS and the parameter bits that `ms` does not
name. -/
def State.admitCode (s : State) (h : CmdHdr) (p : List Word) (op : Nat) (ms : List Nat) : Option Nat :=
  if h.opcode ≠ op ∨ (s.flag F.MC_STAT_RECOVERY ∧ !([1, 8, 9] : List Nat).contains (op / 256)) then some 0x0101
  else if 4 ≤ h.flags ∨ (List.range 14).any fun k => (pw p k) &&& (0xFFFFFFFF ^^^ ms.getD k 0) != 0 then some 0x0102
  else none

/-- A command that path C executes: refused with no effect, or run. -/
def State.cmd (s : State) (h : CmdHdr) (p : List Word) (op : Nat) (ms : List Nat) (k : State → State) : State :=
  match s.admitCode h p op ms with
  | some c => s.reply h c []
  | none => k s

/-- A whole word. -/
def wAll : Nat := 0xFFFFFFFF

/-- Did firmware submit the command. -/
def cmdMc (h : CmdHdr) : Bool := decide (h.src = .mc)
/-- The origin code of a transaction that the command opens (R289). -/
def cmdOrigin (h : CmdHdr) : Nat := if h.src = .mc then 1 else 0
/-- The requester that a command's access counts as (R439). -/
def cmdReq (h : CmdHdr) : Requester :=
  match h.src with
  | .queue _ => .hostA
  | .net .. => .network
  | .mc => .mc

/-- NOP (R365). -/
def State.cNop (s : State) (h : CmdHdr) (p : List Word) : State := s.cmd h p 0x0100 [] fun s => s.reply h 0 []

/-- DEV_TIME (R365). -/
def State.cDevTime (s : State) (h : CmdHdr) (p : List Word) : State :=
  s.cmd h p 0x0102 [] fun s => s.reply h 0 [s.now % 2 ^ 32, s.now / 2 ^ 32, if s.timeUnsync then 1 else 0]

/-! ## Transactions -/

/-- TX_OPEN (R287, R288). -/
def State.cTxOpen (s : State) (h : CmdHdr) (p : List Word) : State :=
  s.cmd h p 0x0401 [0x803F07FF] fun s =>
    let size := bitsOf (pw p 0) 0 11
    let named := bitsOf (pw p 0) 31 1 = 1
    let t := if named then some (bitsOf (pw p 0) 16 6) else s.freeTx
    if size = 0 ∨ 1920 < size then s.reply h 0x0102 []
    else match s.openRefused (if named then t else none) size false (cmdMc h), t with
      | some c, _ => s.reply h c []
      | none, some t => (s.txNew t size (cmdOrigin h) false).reply h 0 [t]
      | none, none => s.reply h 0x0202 []

/-- Why a request of this origin on transaction `t` is refused, where its state must be one that `ok` holds of (R287). -/
def State.txRefused (s : State) (h : CmdHdr) (t : Nat) (ok : Nat → Bool) : Option Nat :=
  if s.txState t ≠ 0 ∧ (s.tx t).origin ≠ cmdOrigin h then some 0x0501
  else if !ok (s.txState t) then some 0x0502 else none

/-- A number from consecutive parameter words. -/
def pwNum (p : List Word) (k : Nat) : Nat → Nat
  | 0 => 0
  | n + 1 => pw p k + 2 ^ 32 * pwNum p (k + 1) n

/-- TX_ADD (R285, R287). -/
def State.cTxAdd (s : State) (h : CmdHdr) (p : List Word) : State :=
  s.cmd h p 0x0402 ([0xFF3F, 0] ++ List.replicate 12 wAll) fun s =>
    let t := bitsOf (pw p 0) 0 6
    let kind := bitsOf (pw p 0) 8 8
    let pay := pwNum p 2 12
    if !wayOk (kind + pay * 2 ^ 128) then s.reply h 0x0102 []
    else match s.txRefused h t (· == 1) with
      | some c => s.reply h c []
      | none =>
        if s.fld F.WAY_TX_SIZE_SIZE t ≤ s.fld F.WAY_TX_SIZE_USED t then s.reply h 0x0201 []
        else (s.txAdd t kind pay).reply h 0 [s.fld F.WAY_TX_SIZE_USED t]

/-- Is device start-up far enough for a prepare of the origin (R517). -/
def State.prepareMay (s : State) (h : CmdHdr) : Bool := cmdMc h || s.fld F.DEV_START_STAGE == 8

/-- TX_PREPARE (R289, R290): the commit point is fixed; the checks end with TX_PREPARED. A boundary that has opened ends the
transaction with TX_LATE. -/
def State.cTxPrepare (s : State) (h : CmdHdr) (p : List Word) : State :=
  s.cmd h p 0x0403 [0x33F, wAll, wAll] fun s =>
    let t := bitsOf (pw p 0) 0 6
    let point := bitsOf (pw p 0) 8 2
    let arg := pwNum p 1 2
    if point = 3 ∨ (point = 1 ∧ 2 ^ 56 ≤ arg) ∨ (point = 2 ∧ 2 ^ 46 ≤ arg) then s.reply h 0x0102 []
    else match s.txRefused h t (· == 1) with
      | some c => s.reply h c []
      | none =>
        if !s.prepareMay h then s.reply h 0x050A []
        else
          let s' := (s.setTx t { s.tx t with prep := some h }).txBegin t point arg
          if point = 1 ∧ sext arg 56 < s.nextB then s'.txEnd t 0x0504 else s'

/-- TX_ABORT (R289, R292). -/
def State.cTxAbort (s : State) (h : CmdHdr) (p : List Word) : State :=
  s.cmd h p 0x0404 [0x3F] fun s =>
    let t := bitsOf (pw p 0) 0 6
    match s.txRefused h t fun st => st == 1 || st == 3 with
    | some c => s.reply h c []
    | none => (s.txEnd t 0x050B).reply h 0 []

/-- TX_STATUS (R365). -/
def State.cTxStatus (s : State) (h : CmdHdr) (p : List Word) : State :=
  s.cmd h p 0x0405 [0x3F] fun s =>
    let t := bitsOf (pw p 0) 0 6
    s.reply h 0 [s.reg .WAY_TX_STAT t, s.reg .WAY_TX_SIZE t, s.reg .WAY_TX_POINT t % 2 ^ 32, s.reg .WAY_TX_POINT t / 2 ^ 32]

/-- The devices that a system record of transaction `t` names for a SYSID. -/
def State.sysDevices (s : State) (t sysid : Nat) : Option Nat :=
  (s.txActs t).findSome? fun q => match q.2 with
    | .sys d i => if i = sysid then some d else none
    | _ => none

/-- TX_SYS_PREPARE (R296 step 1): the coordinator prepares its own part and sends PREPARE to the devices of its system record. -/
def State.cTxSysPrepare (s : State) (h : CmdHdr) (p : List Word) : State :=
  s.cmd h p 0x0406 [0x3F, 0xFFFF, wAll, wAll, wAll, wAll] fun s =>
    let t := bitsOf (pw p 0) 0 6
    let sysid := bitsOf (pw p 1) 0 16
    let b := pwNum p 2 2 % 2 ^ 56
    match s.txRefused h t (· == 1) with
    | some c => s.reply h c []
    | none =>
      if !s.prepareMay h then s.reply h 0x050A [] else
      match s.sysDevices t sysid with
      | none => s.reply h 0x0503 []
      | some ds =>
        if s.coords.any fun c => c.sysId == sysid then s.reply h 0x0503 []
        else if s.linesTo (sext b 56) < 2 * (s.fld F.WAY_SYS_CFG_GUARD_LINES : Int) then s.reply h 0x0504 []
        else
          let me := s.fld F.JCT_SYS_DEVNUM
          let ds := withBit ds me
          let c : Coord := ⟨h, t, sysid, b, ds, pwNum p 4 2, 0, none, false, 0, 0⟩
          let s : State := { s.setTx t { s.tx t with coord := true, sysId := sysid } with coords := s.coords ++ [c] }
          let s := (s.txBegin t 1 b).replyPending h
          ((devicesOf ds).filter (· != me)).foldl (fun s d => s.ctlTo d (.prepare sysid b)) s

/-! ## Milestones -/

/-- The path of a command's ARRIVE. -/
def cmdPath (h : CmdHdr) : Nat := if h.src = .mc then 1099 else 1098

/-- MS_ARRIVE (R277, R365). -/
def State.cMsArrive (s : State) (h : CmdHdr) (p : List Word) : State :=
  s.cmd h p 0x0410 [0xFFFF3FFF] fun s =>
    let n := bitsOf (pw p 0) 16 16
    if n = 0 then s.reply h 0x0102 [] else (s.msArriveBy (cmdPath h) (bitsOf (pw p 0) 0 14) n).reply h 0 []

/-- A SET or an ADVANCE of a command: refused to one who is not the owner (R279). -/
def State.msOwned (s : State) (h : CmdHdr) (m : Nat) (k : State → State) : State :=
  if s.msMay m (cmdMc h) (!cmdMc h) then (k s).reply h 0 []
  else (s.inc F.MS_STAT_NOT_OWNER).reply h 0x0501 []

/-- MS_SET (R277, R365). -/
def State.cMsSet (s : State) (h : CmdHdr) (p : List Word) : State :=
  s.cmd h p 0x0411 [0x1F3FFF, wAll, wAll, 0x1FFFF] fun s =>
    let m := bitsOf (pw p 0) 0 14
    let opt (b v : Nat) : Option Nat := if bitsOf (pw p 0) (16 + b) 1 = 1 then some v else none
    if bitsOf (pw p 0) 19 1 = 1 then s.reply h 0x0102 []
    else s.msOwned h m fun s =>
      s.msSet m (opt 0 (pw p 1)) (opt 1 (pw p 2)) (opt 2 (bitsOf (pw p 3) 0 16)) (opt 4 (bitsOf (pw p 3) 16 1))

/-- MS_ADVANCE (R277, R365). -/
def State.cMsAdvance (s : State) (h : CmdHdr) (p : List Word) : State :=
  s.cmd h p 0x0412 [0x3FFF] fun s => s.msOwned h (bitsOf (pw p 0) 0 14) fun s => s.msAdvance (bitsOf (pw p 0) 0 14)

/-- MS_READ (R365). -/
def State.cMsRead (s : State) (h : CmdHdr) (p : List Word) : State :=
  s.cmd h p 0x0413 [0x3FFF] fun s =>
    let m := bitsOf (pw p 0) 0 14
    s.reply h 0 [s.reg .MS_COUNT m, s.reg .MS_TARGET m, s.reg .MS_CFG m]

/-- The MS_WAIT commands held (R365). -/
def State.waitCmds (s : State) : Nat :=
  (s.waiters.filter fun w => match w.by_ with | .cmd .. => true | _ => false).length

/-- MS_WAIT (R276, R365): answered at once where the milestone is reached, else held. -/
def State.cMsWait (s : State) (h : CmdHdr) (p : List Word) : State :=
  s.cmd h p 0x0414 [0x3FFF, wAll, wAll] fun s =>
    let m := bitsOf (pw p 0) 0 14
    let us := pw p 2
    if s.msReached m (pw p 1) then s.reply h 0 [s.fld F.MS_COUNT_COUNT m]
    else if 1024 ≤ s.waitCmds then s.reply h 0x0204 []
    else { s with waiters := s.waiters ++ [(⟨.cmd h (if us = 0 then none else some (s.now + us * 1000)), m, pw p 1⟩ : Waiter)] }

/-! ## Catalogue -/

/-- CAT_REQUEST (R261, R365): queued, or refused where the host queue of 64 is full. -/
def State.cCatRequest (s : State) (h : CmdHdr) (p : List Word) : State :=
  s.cmd h p 0x0A01 (List.replicate 10 wAll) fun s =>
    if s.fld F.DEV_START_STAGE < 7 then s.reply h 0x050A []
    else if 64 ≤ s.catHost.length then s.reply h 0x0203 []
    else ({ s with catHost := s.catHost ++ [(⟨none, some h, pwNum p 0 10, 0⟩ : CatReq)] } : State).catStat

/-- CAT_VOID (R255, R365): written as the register. -/
def State.cCatVoid (s : State) (h : CmdHdr) (p : List Word) : State :=
  s.cmd h p 0x0A02 [0x8000003F, wAll] fun s =>
    let t := bitsOf (pw p 0) 0 6
    if !s.flag F.CAT_TAB_FMT_EN t ∨ s.fld F.CAT_TAB_ROWS_ROWS t ≤ pw p 1 then s.reply h 0x0102 []
    else (s.catVoid (cmdReq h) (bitsOf (pw p 0) 31 1 * 2 ^ 63 + t * 2 ^ 56 + pw p 1 % 2 ^ 30)).reply h 0 []

/-! ## Decoding -/

/-- The opcodes of path C (R365). -/
def cOps : List Nat := [0x0100, 0x0102, 0x0401, 0x0402, 0x0403, 0x0404, 0x0405, 0x0406, 0x0410, 0x0411, 0x0412, 0x0413, 0x0414,
  0x0A01, 0x0A02]
/-- The opcodes of path M (R365). -/
def mOps : List Nat := [0x0101, 0x0201, 0x0202, 0x0203, 0x0301, 0x0302, 0x0303, 0x0501, 0x0502, 0x0503, 0x0601, 0x0602,
  0x0701, 0x0702, 0x0703, 0x0704, 0x0705, 0x0801, 0x0802, 0x0901, 0x0902, 0x0903, 0x0B01, 0x0B02, 0x0B03, 0x0C01, 0x0C02, 0x0C03]

/-- The CSM executes a command of path C. -/
def State.runC (s : State) (x : CmdPkt) : State :=
  let h := x.hdr
  match h.opcode with
  | 0x0100 => s.cNop h x.p
  | 0x0102 => s.cDevTime h x.p
  | 0x0401 => s.cTxOpen h x.p
  | 0x0402 => s.cTxAdd h x.p
  | 0x0403 => s.cTxPrepare h x.p
  | 0x0404 => s.cTxAbort h x.p
  | 0x0405 => s.cTxStatus h x.p
  | 0x0406 => s.cTxSysPrepare h x.p
  | 0x0410 => s.cMsArrive h x.p
  | 0x0411 => s.cMsSet h x.p
  | 0x0412 => s.cMsAdvance h x.p
  | 0x0413 => s.cMsRead h x.p
  | 0x0414 => s.cMsWait h x.p
  | 0x0A01 => s.cCatRequest h x.p
  | 0x0A02 => s.cCatVoid h x.p
  | _ => s.reply h 0x0101 []

/-- CMD_STAT follows the MC FIFO (R363). -/
def State.fifoStat (s : State) : State :=
  (s.setFld F.CMD_STAT_MC_FIFO (min 256 s.mcFifo.length)).setFld F.CMD_STAT_PAUSED (if 256 ≤ s.mcFifo.length then 1 else 0)

/-- Is a command one that a full MC FIFO keeps waiting. -/
def State.fifoFull (s : State) (x : CmdPkt) : Bool := mOps.contains x.hdr.opcode && decide (256 ≤ s.mcFifo.length)

/-- The CSM starts a decoded command (R363, R436): it executes it, passes it to the MC, or refuses it. -/
def State.csmStart (s : State) (x : CmdPkt) : State :=
  if mOps.contains x.hdr.opcode then
    if s.domOn 1 && !s.mcUp && decide (5 ≤ s.fld F.DEV_START_STAGE) then s.reply x.hdr 0x0305 []
    else ({ s with mcFifo := s.mcFifo ++ [x] } : State).fifoStat
  else s.runC x

/-- The CSM takes the commands that wait on queue `q`, in fetch order, up to one that must wait (R359, R363). -/
def State.settleQ (s : State) (q : Nat) : Nat → State
  | 0 => s
  | n + 1 =>
    let z := s.queue q
    match z.waiting with
    | [] => s
    | x :: xs =>
      if (x.hdr.flags % 2 = 1 ∧ z.waiting.length < s.fld F.CMD_Q_STAT_OUTST q) ∨ s.fifoFull x then s
      else ((s.setQueue q { z with waiting := xs }).csmStart x).settleQ q n

/-- The CSM takes the commands of the network FIFO (R369). -/
def State.settleNet (s : State) : Nat → State
  | 0 => s
  | n + 1 =>
    match s.netFifo with
    | [] => s
    | x :: xs =>
      if (x.hdr.flags % 2 = 1 ∧ s.netOut ≠ 0) ∨ s.fifoFull x then s
      else (({ s with netFifo := xs, netOut := s.netOut + 1 } : State).csmStart x).settleNet n

/-- The CSM takes every waiting command that may start. -/
def State.settle (s : State) : State :=
  let s := s.queues.foldl (fun s q => s.settleQ q.1 q.2.waiting.length) s
  s.settleNet s.netFifo.length

/-- A command packet in 64 bytes (R359). -/
def pktOf (src : CmdSrc) (head : Nat) (b : List Byte) : CmdPkt :=
  ⟨⟨src, numAt b 0 2, numAt b 2 1, numAt b 3 1, BitVec.ofNat 32 (numAt b 4 4), head⟩,
    (List.range 14).map fun k => BitVec.ofNat 32 (numAt b (8 + 4 * k) 4)⟩

/-- Entries that a fetch of queue `q` may bring (R357, R363). -/
def State.fetchMay (s : State) (q : Nat) : Nat :=
  let d := s.sqDepth q
  let out := s.fld F.CMD_Q_STAT_OUTST q
  if !s.flag F.CMD_Q_CFG_EN q ∨ s.flag F.CMD_Q_STAT_FETCH_ERR q ∨ 256 ≤ s.mcFifo.length ∨ s.seq.entry.isSome then 0
  else min 16 (min ((s.fld F.CMD_SQ_TAIL_TAIL q + d - s.fld F.CMD_Q_STAT_SQ_HEAD q) % d)
    (min (s.cqDepth q - (out + (s.queue q).unread)) (256 - out)))

/-- R357 to R363: a fetch of queue `q` completes with its entries of 64 bytes, or with a PCIe error: the CSM decodes them in order. -/
def execSqFetchComplete (dt : Nat) (q : Fin 64) (x : HostBuf) (s : State) : Answer :=
  let s := s.tick dt
  let q := q.val
  let m := s.fetchMay q
  if m = 0 then .next s.settle else
  match x with
  | .error => .next (s.setFld F.CMD_Q_STAT_FETCH_ERR 1 q)
  | .bytes b =>
    let n := min m (b.length / 64)
    let head := (s.fld F.CMD_Q_STAT_SQ_HEAD q + n) % s.sqDepth q
    let s := (s.setFld F.CMD_Q_STAT_SQ_HEAD head q).setFld F.CMD_Q_STAT_OUTST (s.fld F.CMD_Q_STAT_OUTST q + n) q
    let s := if n = 0 then s else s.setFld F.CMD_Q_STAT_IDLE 0 q
    let z := s.queue q
    let new := (List.range n).map fun i => pktOf (.queue (Fin.ofNat 64 q)) head ((b.drop (64 * i)).take 64)
    .next (s.setQueue q { z with waiting := z.waiting ++ new }).settle

/-! ## The commands of path C -/

/-- R365: the NOP command. -/
def execNop (dt : Nat) (h : CmdHdr) (p : List Word) (s : State) : Answer := .next ((s.tick dt).cNop h p).settle
/-- R365: the DEV_TIME command. -/
def execDevTime (dt : Nat) (h : CmdHdr) (p : List Word) (s : State) : Answer := .next ((s.tick dt).cDevTime h p).settle
/-- R287, R288: the TX_OPEN command. -/
def execTxOpen (dt : Nat) (h : CmdHdr) (p : List Word) (s : State) : Answer := .next ((s.tick dt).cTxOpen h p).settle
/-- R287: the TX_ADD command. -/
def execTxAdd (dt : Nat) (h : CmdHdr) (p : List Word) (s : State) : Answer := .next ((s.tick dt).cTxAdd h p).settle
/-- R289, R290: the TX_PREPARE command. -/
def execTxPrepare (dt : Nat) (h : CmdHdr) (p : List Word) (s : State) : Answer := .next ((s.tick dt).cTxPrepare h p).settle
/-- R289: the TX_ABORT command. -/
def execTxAbort (dt : Nat) (h : CmdHdr) (p : List Word) (s : State) : Answer := .next ((s.tick dt).cTxAbort h p).settle
/-- R365: the TX_STATUS command. -/
def execTxStatus (dt : Nat) (h : CmdHdr) (p : List Word) (s : State) : Answer := .next ((s.tick dt).cTxStatus h p).settle
/-- R296: the TX_SYS_PREPARE command. -/
def execTxSysPrepare (dt : Nat) (h : CmdHdr) (p : List Word) (s : State) : Answer := .next ((s.tick dt).cTxSysPrepare h p).settle
/-- R365: the MS_ARRIVE command. -/
def execMsArrive (dt : Nat) (h : CmdHdr) (p : List Word) (s : State) : Answer := .next ((s.tick dt).cMsArrive h p).settle
/-- R365: the MS_SET command. -/
def execMsSet (dt : Nat) (h : CmdHdr) (p : List Word) (s : State) : Answer := .next ((s.tick dt).cMsSet h p).settle
/-- R365: the MS_ADVANCE command. -/
def execMsAdvance (dt : Nat) (h : CmdHdr) (p : List Word) (s : State) : Answer := .next ((s.tick dt).cMsAdvance h p).settle
/-- R365: the MS_READ command. -/
def execMsRead (dt : Nat) (h : CmdHdr) (p : List Word) (s : State) : Answer := .next ((s.tick dt).cMsRead h p).settle
/-- R365: the MS_WAIT command. -/
def execMsWait (dt : Nat) (h : CmdHdr) (p : List Word) (s : State) : Answer := .next ((s.tick dt).cMsWait h p).settle
/-- R261: the CAT_REQUEST command. -/
def execCatRequest (dt : Nat) (h : CmdHdr) (p : List Word) (s : State) : Answer := .next ((s.tick dt).cCatRequest h p).settle
/-- R255: the CAT_VOID command. -/
def execCatVoid (dt : Nat) (h : CmdHdr) (p : List Word) (s : State) : Answer := .next ((s.tick dt).cCatVoid h p).settle

/-- R365: the timeout of a held MS_WAIT elapses. -/
def execMsWaitTimeout (dt : Nat) (h : CmdHdr) (s : State) : Answer :=
  let s := s.tick dt
  let due (w : Waiter) : Bool := match w.by_ with
    | .cmd x (some d) => x == h && decide (d ≤ s.now)
    | _ => false
  match s.waiters.find? due with
  | some w => .next (({ s with waiters := s.waiters.filter fun x => decide (x ≠ w) } : State).reply h 0x0507 []).settle
  | none => .next s

end Sys2Proof.Machine
end

