-- ==== Sys2Proof/Machine/DmaBeat.lean ====
section
/-! DEFINITION. The beats of the DMA lanes (R338 to R347): arbitration, reads into the holding register and writes out of it. -/
namespace Sys2Proof.Machine

/-- Address of byte `i` of a fixed-address side of width `w` at `a`, else of the side's own order. -/
def sideAt (fixed : Bool) (a w : Nat) (f : Nat → Nat) (i : Nat) : Nat := if fixed then a + i % w else f i

/-- Is the source address fixed. -/
def DmaChan.srcFixed (x : DmaChan) : Bool := x.mode == 0 && !x.sinc
/-- Is the destination address fixed. -/
def DmaChan.dstFixed (x : DmaChan) : Bool := x.mode == 0 && !x.dinc
/-- Is one side accessed in its own width alone: a fixed address or register space (R340). -/
def DmaChan.srcUnit (x : DmaChan) : Bool := x.srcFixed || x.ssp == 3
/-- See `srcUnit`. -/
def DmaChan.dstUnit (x : DmaChan) : Bool := x.dstFixed || x.dsp == 3

/-- Bytes that the next read beat takes; 0: it cannot issue (R341). A run shorter than SW needs room for the run. -/
def DmaChan.readLen (x : DmaChan) : Nat :=
  let rest := x.inBytes - x.rd
  let room := 64 - x.hold.length
  if x.srcUnit then if x.sw ≤ room ∧ x.sw ≤ rest then x.sw else 0
  else
    let run := min rest (min (runFrom x.srcAt x.rd 64) (64 - x.srcAt x.rd % 64))
    if x.sw ≤ room then min run (room / x.sw * x.sw) else if run < x.sw then min run room else 0

/-- Bytes that the next write beat drains; 0: it cannot issue (R341). -/
def DmaChan.writeLen (x : DmaChan) : Nat :=
  let have_ := min (x.ready x.rd) x.outBytes - x.wr
  if x.dstUnit then if x.dw ≤ have_ then x.dw else 0
  else min have_ (min (runFrom x.dstAt x.wr 64) (64 - x.dstAt x.wr % 64))

/-- Can a channel make a beat (R347). -/
def State.dmaMay (s : State) (c : Nat) : Bool :=
  let x := s.chan c
  (s.dmaSt c == 1 || s.dmaSt c == 2) && x.checked && !x.fetching && (x.readLen != 0 || x.writeLen != 0)

/-- The channel that wins the next beat of lane `l` (R347). -/
def State.dmaWinner (s : State) (l : Nat) : Option Nat :=
  let can := ((List.range 64).filter fun c => c % 4 == l && s.dmaMay c)
  let top := can.foldl (fun m c => max m (s.fld F.DMA_PRIO_PRIO c)) 0
  let can := can.filter fun c => s.fld F.DMA_PRIO_PRIO c == top
  let last := mapGet 0 s.lanes l
  if last ≠ 0 ∧ can.contains (last - 1) then some (last - 1)
  else match can.find? fun c => decide (last ≤ c) with
    | some c => some c
    | none => can.head?

/-- Bytes with marks reach the holding register. -/
def State.dmaHold (s : State) (c : Nat) (b : List (Byte × Bool)) : State :=
  let x := s.chan c
  s.setChan c { x with hold := x.hold ++ b, rd := x.rd + b.length }

/-- A read beat of channel `c` (R340, R341); `host`: what a read of host memory brings. -/
def State.dmaRead (s : State) (c : Nat) (host : HostBuf) : State :=
  let x := s.chan c
  let n := x.readLen
  let a := sideAt x.srcFixed x.src x.sw x.srcAt x.rd
  match x.ssp with
  | 0 => if s.depotMay 2 a then s.dmaHold c (s.depotGet a n) else (s.depotRefuse 3 (0x40 + c) a 0).dmaError c 2
  | 1 =>
    let s := s.chargeBest (a / stackBytes) n
    match s.hbmPhys a with
    | some p => s.dmaHold c (s.hbmReadPhys p n)
    | none => (s.aelHbm a 0).dmaHold c (unmappedRead a n)
  | 2 => match host with
    | .bytes b => s.dmaHold c ((List.range n).map fun i => (b.getD i 0, false))
    | .error => s.dmaError c 3
  | _ =>
    let (s, v) := s.bar0Read (.dma (Fin.ofNat 64 c)) a n
    s.dmaHold c ((leBytes v n).map fun b => (b, false))

/-- The bytes of a write beat leave the holding register (R341); with the last one a barrier begins (R349). -/
def State.dmaDrain (s : State) (c n : Nat) : State :=
  let x := s.chan c
  let s := s.setChan c { x with hold := x.hold.drop (x.used (x.wr + n) - x.used x.wr), wr := x.wr + n }
  let s := s.dmaCur c
  if x.outBytes ≤ x.wr + n ∧ bitsOf x.ctrl 14 1 = 1 then s.setFld F.DMA_STAT_STATE 3 c else s

/-- A write beat of channel `c` (R340, R341, R346). -/
def State.dmaWrite (s : State) (c : Nat) : State :=
  let x := s.chan c
  let n := x.writeLen
  let a := sideAt x.dstFixed x.dst x.dw x.dstAt x.wr
  let b := (List.range n).map fun i => x.outByte (x.wr + i)
  let bad := b.any (·.2)
  match x.dsp with
  | 0 => if s.depotMay 2 a then (s.dmaDrain c n).depotPut a (b.map some)
      else (s.depotRefuse 3 (0x40 + c) a (leNat ((b.map (·.1)).take 4))).dmaError c 2
  | 1 => ((s.dmaDrain c n).chargeBest (a / stackBytes) n).hbmWrite a (b.map (·.1)) bad
  | 2 => (s.dmaDrain c n).emit (.hostWrite (if s.twoByEight then Config.dmaLink c % 2 else 0) a (b.map (·.1)) bad)
  | _ => if bad then s.dmaError c 4
      else (s.dmaDrain c n).bar0Write (.dma (Fin.ofNat 64 c)) a n (leNat (b.map (·.1)))

/-- R340, R347: lane `l` issues one beat of the channel that wins it; `wrFirst` chooses where the channel can both read and write. -/
def execDmaBeat (dt : Nat) (l : Fin 4) (wrFirst : Bool) (host : HostBuf) (s : State) : Answer :=
  let s := s.tick dt
  match s.dmaWinner l with
  | none => .next s
  | some c =>
    let s : State := { s with lanes := mapSet 0 s.lanes l (c + 1) }
    let x := s.chan c
    if x.writeLen ≠ 0 ∧ (wrFirst ∨ x.readLen = 0) then .next (s.dmaWrite c) else .next (s.dmaRead c host)

end Sys2Proof.Machine
end

