-- ==== Sys2Proof/Machine/McCmd.lean ====
section
/-! DEFINITION. The commands that the management controller executes (R363, R365, path M). -/
namespace Sys2Proof.Machine

/-- The MC takes a command from the head of its FIFO, or from its own firmware (R363, R364). -/
def State.mcTake (s : State) (h : CmdHdr) (p : List Word) : State :=
  let s : State := if s.mcFifo.head? = some (⟨h, p⟩ : CmdPkt) then ({ s with mcFifo := s.mcFifo.drop 1 } : State).fifoStat else s
  { s with mcRun := s.mcRun ++ [h] }

/-- A command of path M (R362, R363, R436, R517): held until start-up stage 4 has ended, lost without a pair, else refused with no
effect or run. -/
def State.mcCmd (s : State) (h : CmdHdr) (p : List Word) (op : Nat) (ms : List Nat) (k : State → State) : State :=
  if s.fld F.DEV_START_STAGE < 5 ∧ !s.flag F.MC_STAT_RECOVERY then
    if s.mcFifo.contains ⟨h, p⟩ then s else ({ s with mcFifo := s.mcFifo ++ [(⟨h, p⟩ : CmdPkt)] } : State).fifoStat
  else
    let s := s.mcTake h p
    if !s.mcUp then s.reply h 0x0305 []
    else match s.admitCode h p op ms with
      | some c => s.reply h c []
      | none => k s

/-- The link that a command's host addresses go through (R354). -/
def State.cmdLink (s : State) (h : CmdHdr) : Nat :=
  match h.src with
  | .queue q => s.queueLink q
  | _ => 0

/-- The bytes of a host buffer, read after admission; a PCIe error ends the command (R362). -/
def State.withBuf (s : State) (h : CmdHdr) (x : HostBuf) (k : List Byte → State) : State :=
  match x with
  | .bytes b => k b
  | .error => s.reply h 0x0307 []

/-- The two words of a 64-bit result. -/
def words2 (v : Nat) : List Nat := [v % 2 ^ 32, v / 2 ^ 32 % 2 ^ 32]

/-! ## General (class 0x01) -/

/-- R365: the DEV_INFO command. -/
def execDevInfo (dt : Nat) (h : CmdHdr) (p : List Word) (s : State) : Answer :=
  .next ((s.tick dt).mcCmd h p 0x0101 [] fun s => s.reply h 0
    [s.running.release, s.reg .DEV_ID, s.fld F.MC_STAT_SLOT + s.fld F.MC_STAT_ACTIVE * 256,
     min ((s.aonNs - s.boot.t0) / 1000000000) 0xFFFFFFFF]).settle

/-! ## Model packages (class 0x02) -/

/-- Store plan bank `b`. -/
def State.setBank (s : State) (b : Nat) (x : Bank) : State := { s with banks := mapSet bank0 s.banks b x }

/-- The checks of a model package (R497) after the first: its header as a loaded bank, or the code. -/
def State.pkgCheck (s : State) (b : List Byte) (len : Nat) (pkg : Pkg) : Except Nat Bank :=
  let hdr := b.take 416
  let body := b.drop 512
  let im := imageOf b
  let signer := slice b 80 96
  if numAt b 0 4 ≠ 0x5A494D47 ∨ numAt b 4 1 ≠ 2 ∨ numAt b 5 1 % 2 ≠ 1 ∨ len < 512 ∨ numAt b 24 4 ≠ len - 512 then .error 0x0401
  else if !(List.range 4).any (fun k => decide (mapGet none s.auth k = some signer)) ∨ !Config.ecdsa signer hdr (slice b 416 96) ∨
      Config.sha384 body ≠ slice b 32 48 then .error 0x0401
  else if im.svn < s.fuses.modelFloor then .error 0x0402
  else if im.release / 2 ^ 24 ≠ s.fwMajor then .error 0x0111
  else match s.wrapKey with
    | none => .error 0x0401
    | some w =>
      match Config.gcmOpen w (slice b 176 12) [] (slice b 188 32) (slice b 220 16) with
      | none => .error 0x0401
      | some key =>
        if (Config.gcmOpen key (slice b 236 12) hdr body (slice b 248 16)).isSome then
          .ok ⟨1, im.release, im.ident, im.svn, im.commitFloor, pkg⟩
        else .error 0x0401

/-- The MODEL_LOAD command; `pkg` is what the decrypted payload declares. -/
def State.mModelLoad (s : State) (h : CmdHdr) (p : List Word) (x : HostBuf) (pkg : Pkg) : State :=
  s.mcCmd h p 0x0201 [wAll, wAll, wAll, 1] fun s =>
    let k := pw p 3 % 2
    if s.fld F.DEV_START_STAGE < 7 then s.reply h 0x050A []
    else if s.bankSt k = 2 then s.reply h 0x0508 []
    else
      let s := s.replyPending h
      s.withBuf h x fun b =>
        let s := s.setBank k bank0
        match s.pkgCheck (b.take (pw p 2)) (pw p 2) pkg with
        | .error c => s.reply h c []
        | .ok z => (s.setBank k z).reply h 0 (words2 z.ident)

/-- R497: the MODEL_LOAD command. -/
def execModelLoad (dt : Nat) (h : CmdHdr) (p : List Word) (x : HostBuf) (pkg : Pkg) (s : State) : Answer := .next ((s.tick dt).mModelLoad h p x pkg).settle

/-- R365: the MODEL_INFO command. -/
def execModelInfo (dt : Nat) (h : CmdHdr) (p : List Word) (s : State) : Answer :=
  .next ((s.tick dt).mcCmd h p 0x0202 [1] fun s =>
    let z := s.bank (pw p 0 % 2)
    s.reply h 0 ([s.bankSt (pw p 0 % 2), z.release] ++ words2 z.ident)).settle

/-- R365: the MODEL_UNLOAD command. -/
def execModelUnload (dt : Nat) (h : CmdHdr) (p : List Word) (s : State) : Answer :=
  .next ((s.tick dt).mcCmd h p 0x0203 [1] fun s =>
    if s.bankSt (pw p 0 % 2) = 2 then s.reply h 0x0508 []
    else (s.setBank (pw p 0 % 2) bank0).reply h 0 []).settle

/-! ## Connections and rings (class 0x03) -/

/-- R365: the CONN_INFO command. -/
def execConnInfo (dt : Nat) (h : CmdHdr) (p : List Word) (s : State) : Answer :=
  .next ((s.tick dt).mcCmd h p 0x0301 [0xF] fun s =>
    let c := pw p 0 % 16
    s.reply h 0 [s.reg .ING_CONN_CFG c, s.reg .ING_CONN_CAPS c, s.reg .ING_CONN_PIXFMT c, (s.conn c).refusal]).settle

/-- R365: the CXP_CTRL command: a read or a write goes through to the camera, whose answer ends it; while another one of the
connection is open the MC leaves it where it is. -/
def execCxpCtrl (dt : Nat) (h : CmdHdr) (p : List Word) (s : State) : Answer :=
  let s := s.tick dt
  let c := pw p 0 % 16
  if (s.conn c).ctrl.isSome then .next s else
  .next (s.mcCmd h p 0x0302 ([0x3F010F] ++ List.replicate 9 wAll) fun s =>
    let wr := bitsOf (pw p 0) 8 1 == 1
    let n := bitsOf (pw p 0) 16 6
    if n % 4 ≠ 0 ∨ n < 4 ∨ (if wr then 32 else 16) < n then s.reply h 0x0102 []
    else if (s.connState c ≠ 2 ∧ s.connState c ≠ 3) ∨ (s.conn c).gv then s.reply h 0x0509 []
    else
      let s := s.setConn c { s.conn c with ctrl := some (h, wr) }
      s.toCamera c (if wr then .passWrite (pw p 1) (leBytes (pwNum p 2 8) n) else .passRead (pw p 1) n)).settle

/-- R365: the RING_SETUP command. -/
def execRingSetup (dt : Nat) (h : CmdHdr) (p : List Word) (s : State) : Answer :=
  .next ((s.tick dt).mcCmd h p 0x0303 [0xE000000F, wAll, wAll, 0x1F, 0x7FFFFF, wAll, wAll] fun s =>
    let r := pw p 0 % 16
    let en := bitsOf (pw p 0) 31 1 = 1
    let base := pwNum p 1 2
    let size := pw p 3
    let shadow := pwNum p 5 2
    if !en then (s.setFld F.CMD_EGR_STAT_EN 0 r).reply h 0 []
    else if base % 4096 ≠ 0 ∨ size < 16 ∨ 30 < size ∨ shadow % 8 ≠ 0 then s.reply h 0x0102 []
    else
      let x := s.eRing r
      let fresh := decide (s.fld F.CMD_EGR_STAT_EN r = 0 ∨ s.fld F.CMD_EGR_BASE_ADDR r * 4096 ≠ base ∨ s.fld F.CMD_EGR_BASE_SIZE_LOG2 r ≠ size)
      let x := if fresh then { x with written := 0, rseq := 0, unreported := false } else x
      let s := if fresh then (s.setFld F.CMD_EGR_TAIL_TAIL 0 r).setFld F.CMD_EGR_HEAD_HEAD 0 r else s
      let s := s.setERing r { x with ien := bitsOf (pw p 0) 30 1 == 1, fmt8 := bitsOf (pw p 0) 29 1 == 1, connMask := pw p 4 % 65536,
                                     typeMask := bitsOf (pw p 4) 16 7, shadow := shadow }
      let s := (s.setFld F.CMD_EGR_BASE_ADDR (base / 4096) r).setFld F.CMD_EGR_BASE_SIZE_LOG2 size r
      (s.setFld F.CMD_EGR_STAT_EN 1 r).reply h 0 []).settle

/-! ## Power (class 0x05) -/

/-- R443: the PWR_DEVICE command: DONE is posted, with the log mirrored (R502) and the calibration record written (R474), before entry
begins. -/
def execPwrDevice (dt : Nat) (h : CmdHdr) (p : List Word) (s : State) : Answer :=
  .next ((s.tick dt).mcCmd h p 0x0501 [3] fun s =>
    let st := pw p 0
    if st % 2 = 0 then s.reply h 0x0102 []
    else if s.fld F.DEV_START_STAGE ≠ 8 ∨ !s.mayEnter then s.reply h 0x050A []
    else ((s.mirrorLog.calFlashWrite true).reply h 0 []).enter st).settle

/-- The entries of a policy buffer (R490): IDs and values, none where the buffer is not laid out as it must be. -/
def policyEntries (b : List Byte) (len : Nat) : Option (List (Nat × Nat)) :=
  let n := numAt b 4 4
  if numAt b 0 2 ≠ 0x5A50 ∨ numAt b 2 1 ≠ 1 ∨ numAt b 3 1 ≠ 0 ∨ n = 0 ∨ 256 < n ∨ len ≠ 8 + 8 * n then none
  else if (List.range n).any fun i => numAt b (10 + 8 * i) 2 != 0 then none
  else some ((List.range n).map fun i => (numAt b (8 + 8 * i) 2, numAt b (12 + 8 * i) 4))

/-- R490: the PWR_POLICY command: every entry is checked before any is applied; the table goes to flash. -/
def State.mPwrPolicy (s : State) (h : CmdHdr) (p : List Word) (x : HostBuf) : State :=
  s.mcCmd h p 0x0502 [wAll, wAll, wAll] fun s =>
    s.withBuf h x fun b =>
      match policyEntries b (pw p 2) with
      | none => s.reply h 0x0102 []
      | some es =>
        let ok (e : Nat × Nat) : Bool := match s.policyRow e.1 with
          | some (_, lo, hi) => decide (lo ≤ e.2 ∧ e.2 ≤ hi)
          | none => false
        if !es.all ok then s.reply h 0x0112 []
        else
          let was := s.pol 0x01
          let s : State := { s with policy := es.foldl (fun m e => mapSet none m e.1 (some e.2)) s.policy }
          (s.applyPolicy.noiseEnable was).reply h 0 []

/-- R490: the PWR_POLICY command. -/
def execPwrPolicy (dt : Nat) (h : CmdHdr) (p : List Word) (x : HostBuf) (s : State) : Answer := .next ((s.tick dt).mPwrPolicy h p x).settle

/-- The hottest valid tile in 0.125 °C; a free value where no tile has converted (R365). -/
def State.hottest (s : State) : State × Int :=
  let ts := ((List.range 1088).filter fun t => s.flag F.TILE_SENSE_VALID t).map fun t => sext (s.fld F.TILE_SENSE_TEMP t) 12
  match ts.max? with
  | some t => (s, t)
  | none => (s.useFree, s.free)

/-- R365: the PWR_READ command; `mw` and `ma` are the measured package power and VIN_CORE current. -/
def execPwrRead (dt : Nat) (h : CmdHdr) (p : List Word) (mw ma : Word) (s : State) : Answer :=
  .next ((s.tick dt).mcCmd h p 0x0503 [] fun s =>
    let (s, t) := s.hottest
    s.reply h 0 [mw.toNat, ma.toNat, wrapTo 32 t, s.reg .PWR_THROT]).settle

/-! ## Calibration (class 0x06) -/

/-- R472: the CAL_RUN command: every member of the named items is due, and the reply follows the last of them; `iref` says
whether I_REF agrees with the on-die reference (R467). -/
def execCalRun (dt : Nat) (h : CmdHdr) (p : List Word) (iref : Bool) (s : State) : Answer :=
  .next ((s.tick dt).mcCmd h p 0x0601 [0x1FF] fun s =>
    if s.fld F.DEV_START_STAGE ≠ 8 then s.reply h 0x050A []
    else
      let m := pw p 0
      let s := (s.replyPending h).calDueMask m iref
      let left := (s.cal.filter fun e => bitsOf m (e.1 / 2048) 1 == 1 && e.2.due.isSome).map (·.1)
      if left.isEmpty then s.reply h 0 [0]
      else { s with calCmds := s.calCmds ++ [(⟨h, left, 0, left.filter fun k => (s.calInst k).again⟩ : CalCmd)] }).settle

/-- R365: the CAL_READ command. -/
def execCalRead (dt : Nat) (h : CmdHdr) (p : List Word) (s : State) : Answer :=
  .next ((s.tick dt).mcCmd h p 0x0602 [0xF] fun s =>
    let i := pw p 0
    if 8 < i then s.reply h 0x0102 []
    else s.reply h 0 [s.reg .CAL_RES0 i, s.reg .CAL_RES1 i, s.reg .CAL_RES2 i, s.reg .CAL_RES3 i]).settle

/-! ## Service (class 0x07) -/

/-- R429: the SVC_TEST_COLUMN command. -/
def execSvcTestColumn (dt : Nat) (h : CmdHdr) (p : List Word) (s : State) : Answer :=
  .next ((s.tick dt).mcCmd h p 0x0701 [0x3F] fun s =>
    if 33 < pw p 0 then s.reply h 0x0102 []
    else if s.fld F.DEV_START_STAGE ≠ 8 then s.reply h 0x050A []
    else (s.replyPending h).testColumn (some h) (pw p 0)).settle

/-- R51: the SVC_MOVE_CONN command. -/
def execSvcMoveConn (dt : Nat) (h : CmdHdr) (p : List Word) (s : State) : Answer :=
  .next ((s.tick dt).mcCmd h p 0x0702 [0xF0F] fun s =>
    if s.fld F.DEV_START_STAGE ≠ 8 then s.reply h 0x050A []
    else (s.replyPending h).moveConn (some h) (pw p 0 % 16) (bitsOf (pw p 0) 8 4)).settle

/-- R431: the SVC_RETIRE_PAGE command; `dst` is the free page that firmware takes. -/
def execSvcRetirePage (dt : Nat) (h : CmdHdr) (p : List Word) (dst : Option (Fin 12288)) (s : State) : Answer :=
  .next ((s.tick dt).mcCmd h p 0x0703 [3, 0x3FFF] fun s =>
    if 12287 < pw p 1 then s.reply h 0x0102 []
    else if s.fld F.DEV_START_STAGE < 7 then s.reply h 0x050A []
    else (s.replyPending h).retirePage (some h) (pw p 0) (pw p 1) (dst.map (·.val))).settle

/-- R433: the SVC_SHOULDER command. -/
def execSvcShoulder (dt : Nat) (h : CmdHdr) (p : List Word) (s : State) : Answer :=
  .next ((s.tick dt).mcCmd h p 0x0704 [0x8000FFFF] fun s =>
    (s.replyPending h).shoulder (some h) (pw p 0 % 65536) (bitsOf (pw p 0) 31 1 == 1)).settle

/-- The 16 bytes of a repair record entry (R423). -/
def repairBytes (e : RepEnt) : List Byte :=
  let b : List Byte := match e.kind with
    | 1 => leBytes 0 1 ++ leBytes e.a 2 ++ leBytes e.b 1 ++ leBytes e.c 1 ++ leBytes 0 2 ++ leBytes e.d 4
    | 2 => leBytes 0 1 ++ leBytes e.a 2 ++ leBytes e.b 1
    | 3 => leBytes 0 1 ++ leBytes e.a 1 ++ leBytes 0 1 ++ leBytes e.b 2 ++ leBytes e.c 2 ++ leBytes e.d 1
    | 4 => leBytes 0 1 ++ leBytes e.a 1 ++ leBytes e.b 1
    | 5 => leBytes 0 1 ++ leBytes e.a 2 ++ leBytes e.b 2 ++ leBytes e.c 2
    | 6 => leBytes 0 1 ++ leBytes e.a 1 ++ leBytes e.b 1
    | _ => leBytes 0 1 ++ leBytes e.a 1 ++ leBytes e.b 1 ++ leBytes e.c 2
  let b := leBytes e.kind 1 ++ b
  b ++ List.replicate (16 - b.length) 0

/-- R423: the SVC_REPORT command: the repair record goes to a host buffer, as many whole entries as fit. -/
def execSvcReport (dt : Nat) (h : CmdHdr) (p : List Word) (s : State) : Answer :=
  .next ((s.tick dt).mcCmd h p 0x0705 [wAll, wAll, wAll] fun s =>
    let n := min ((pw p 2 - 16) / 16) s.repair.length
    if pw p 2 < 16 then s.reply h 0x0102 []
    else
      let b := leBytes 0x5A52 2 ++ leBytes 0 2 ++ leBytes n 4 ++ leBytes s.repairAt 8 ++ (s.repair.take n).flatMap repairBytes
      (s.emit (.hostWrite (s.cmdLink h) (pwNum p 0 2) b false)).reply h 0 [b.length]).settle

/-! ## Log (class 0x08) -/

/-- The 32 bytes of a log entry (R487). -/
def logBytes (e : LogEntry) : List Byte :=
  leBytes e.index 4 ++ leBytes e.time 8 ++ leBytes (e.src % 64 + (if e.aonTime then 64 else 0)) 1 ++ leBytes e.sev 1 ++
    leBytes e.code 2 ++ (List.range 4).flatMap fun i => leBytes (e.args.getD i 0) 4

/-- The entries held, oldest first: the flash mirror, then those of the ring not yet mirrored. -/
def State.logHeld (s : State) : List LogEntry := s.mirror ++ s.log.filter fun e => !e.mirrored

/-- The entries from an index on, in INDEX order, or from the oldest one held (R488). -/
def State.logFrom (s : State) (first : Nat) : List LogEntry :=
  let es := s.logHeld
  if es.any fun e => e.index == first then es.dropWhile fun e => e.index != first
  else if first ≠ s.logNext ∧ (s.logNext + 2 ^ 32 - first) % 2 ^ 32 < 2 ^ 31 then es else []

/-- R488: the LOG_READ command. -/
def execLogRead (dt : Nat) (h : CmdHdr) (p : List Word) (s : State) : Answer :=
  .next ((s.tick dt).mcCmd h p 0x0801 [wAll, wAll, wAll, wAll] fun s =>
    let len := pw p 2
    if len < 64 ∨ 65536 < len ∨ len % 64 ≠ 0 then s.reply h 0x0102 []
    else
      let es := (s.logFrom (pw p 3)).take (len / 32)
      let next := match es.getLast? with
        | some e => logIndexAfter e.index
        | none => pw p 3
      let s := if es.isEmpty then s else s.emit (.hostWrite (s.cmdLink h) (pwNum p 0 2) (es.flatMap logBytes) false)
      s.reply h 0 [es.length, next]).settle

/-- R365: the LOG_MARK command. -/
def execLogMark (dt : Nat) (h : CmdHdr) (p : List Word) (s : State) : Answer :=
  .next ((s.tick dt).mcCmd h p 0x0802 [wAll] fun s =>
    (s.logE 8 0xE008 [pw p 0, 0, 0, 0]).reply h 0 [s.logNext]).settle

/-! ## Firmware update (class 0x09) -/

/-- R495: the UPD_WRITE command. -/
def State.mUpdWrite (s : State) (h : CmdHdr) (p : List Word) (x : HostBuf) : State :=
  s.mcCmd h p 0x0901 [1, wAll, wAll, wAll, wAll] fun s =>
    let k := pw p 0
    let off := pw p 1
    let n := pw p 4
    if 2 ^ 20 < n ∨ 2 ^ 21 < off + n then s.reply h 0x0102 []
    else if k = s.fld F.MC_STAT_SLOT ∧ !s.flag F.MC_STAT_RECOVERY then s.reply h 0x050A []
    else
      let s := s.replyPending h
      s.withBuf h x fun b =>
        let z := s.fwSlot k
        (s.setFwSlot k ⟨mapPuts 0xFF z.bytes off (b.take n), none⟩).reply h 0 []

/-- R495: the UPD_WRITE command. -/
def execUpdWrite (dt : Nat) (h : CmdHdr) (p : List Word) (x : HostBuf) (s : State) : Answer := .next ((s.tick dt).mUpdWrite h p x).settle

/-- R495: the UPD_VERIFY command. -/
def execUpdVerify (dt : Nat) (h : CmdHdr) (p : List Word) (s : State) : Answer :=
  .next ((s.tick dt).mcCmd h p 0x0902 [1] fun s =>
    let k := pw p 0
    let s := s.replyPending h
    match s.slotCheck k with
    | .error c => s.reply h c []
    | .ok im =>
      if s.running.dataVer < im.dataVerMin ∧ !s.flag F.MC_STAT_RECOVERY then s.reply h 0x0111 []
      else (s.setFwSlot k { s.fwSlot k with ok := some im }).reply h 0 []).settle

/-- R494, R495: the UPD_SWITCH command: the STANDBY pair loads the slot; in recovery mode the MC resets into the slot at once. -/
def execUpdSwitch (dt : Nat) (h : CmdHdr) (p : List Word) (s : State) : Answer :=
  .next ((s.tick dt).mcCmd h p 0x0903 [1, wAll, 0xFFFFFF] fun s =>
    let k := pw p 0
    let q := 1 - s.fld F.MC_STAT_ACTIVE
    if s.flag F.MC_STAT_RECOVERY then
      let s := ({ s with activeSlot := k } : State).reply h 0 []
      (s.setFld F.MC_STAT_RECOVERY 0).setFld F.DEV_START_STAGE 2
    else if s.switch.isSome then s.reply h 0x050A []
    else if (s.fwSlot k).ok.isNone then s.reply h 0x0401 []
    else if s.pairSt q = 3 then s.reply h 0x050A []
    else
      let s := ((s.replyPending h).setPair q 2).setFld F.MC_STAT_SWITCHING 1
      { s with switch := some ⟨h, k, pwNum p 1 2, none, false⟩ }).settle

/-! ## Networks (class 0x0B) -/

/-- The result words of NET_STATUS (R381). -/
def State.netStatus (s : State) (n : Nat) : List Nat :=
  if n < 4 then
    let q := mapGet (0, 0) s.netPeer n
    [s.fld F.NET_STAT_STATE n + s.fld F.NET_STAT_SPEED n * 4 + s.fld F.NET_STAT_FEC n * 32, q.1 % 2 ^ 23, q.2 % 8]
  else if n < 6 then
    let b := n - 4
    let x := s.plbs.find? fun e => e.1 == b
    let taken : Bool := match x with | some e => e.2.taken | none => false
    [s.fld F.PLB_STAT_MODE b + (if taken then 0 else s.fld F.PLB_CFG_NODE_ID b) * 256,
     match x with | some e => e.2.coord | none => 0, match x with | some e => e.2.census.length | none => 0]
  else
    let j := n - 8
    let x := s.jct j
    [s.fld F.JCT_STAT_STATE j + s.fld F.JCT_STAT_LANES j * 8, s.fld F.JCT_STAT_PARTNER j + x.psys * 2 ^ 16,
     x.major % 256 + x.plane % 16 * 256 + x.adv1 % 65536 * 2 ^ 16]

/-- R381: the NET_STATUS command. -/
def execNetStatus (dt : Nat) (h : CmdHdr) (p : List Word) (s : State) : Answer :=
  .next ((s.tick dt).mcCmd h p 0x0B01 [0xF] fun s =>
    let n := pw p 0
    if n = 6 ∨ n = 7 ∨ 11 < n then s.reply h 0x0102 [] else s.reply h 0 (s.netStatus n)).settle

/-- Does a NET_CONFIG entry pass (R407): a register of the NET, PLB and JCT blocks with an RW field, and a value that no rule of the
register ignores. -/
def State.netEntryOk (s : State) (a v : Nat) : Bool :=
  decide (0xF00000 ≤ a ∧ a < 0x1000000) &&
  match s.access a 4 with
  | .error _ => false
  | .ok h =>
    let old := s.reg h.reg h.i h.j
    let full := maskWord old (if h.high then 1 else 0) v 0xFFFFFFFF
    let fs := (regRow h.reg).fields.filter fun f => f.acc == .rw
    let mine (f : FieldRow) : Bool := if h.high then decide (32 ≤ f.lo + f.w - 1) else decide (f.lo < 32)
    fs.any mine && (s.regRefused .mc h).isNone && fs.all fun f =>
      let x := bitsOf full f.lo f.w
      fieldIn h.reg f.lo x full (s.fld F.PWR_LIMIT_CEIL_A) && !(x != bitsOf old f.lo f.w && s.fieldHeld h f.lo x full)

/-- R407: the NET_CONFIG command: every entry is checked before any is applied. -/
def State.mNetConfig (s : State) (h : CmdHdr) (p : List Word) (x : HostBuf) : State :=
  s.mcCmd h p 0x0B02 [wAll, wAll, wAll] fun s =>
    let len := pw p 2
    if 4096 < len ∨ len % 8 ≠ 0 then s.reply h 0x0102 []
    else s.withBuf h x fun b =>
      let es := (List.range (len / 8)).map fun i => (numAt b (8 * i) 4, numAt b (8 * i + 4) 4)
      if !es.all (fun e => s.netEntryOk e.1 e.2) then s.reply h 0x0102 []
      else (es.foldl (fun s e => s.bar0Write .mc e.1 4 e.2) s).reply h 0 []

/-- R407: the NET_CONFIG command. -/
def execNetConfig (dt : Nat) (h : CmdHdr) (p : List Word) (x : HostBuf) (s : State) : Answer := .next ((s.tick dt).mNetConfig h p x).settle

/-- The 16 bytes of a census entry (R396). -/
def State.censusBytes (s : State) (b : Nat) (x : Census) : List Byte :=
  let own := decide (x.node = s.fld F.PLB_CFG_NODE_ID b)
  leBytes x.node 1 ++ leBytes ((if x.auth then 1 else 0) + (if x.quar then 2 else 0) + (if own then 4 else 0) + (if x.beacon then 8 else 0)) 1 ++
    leBytes x.mac 6 ++ leBytes (min x.frames 0xFFFFFFFF) 4 ++ leBytes (min ((s.now - x.last) / 1000000000) 0xFFFFFFFF) 4

/-- R396: the PLB_CENSUS command. -/
def execPlbCensus (dt : Nat) (h : CmdHdr) (p : List Word) (s : State) : Answer :=
  .next ((s.tick dt).mcCmd h p 0x0B03 [1, wAll, wAll] fun s =>
    let b := pw p 0
    let es : List Census := match s.plbs.find? fun e => e.1 == b with
      | some e => e.2.census
      | none => []
    let s := if es.isEmpty then s else s.emit (.hostWrite (s.cmdLink h) (pwNum p 1 2) (es.flatMap (s.censusBytes b)) false)
    s.reply h 0 [es.length]).settle

/-! ## Security (class 0x0C) -/

/-- Does a public key hash to OWNER_HASH (R491, R511). -/
def ownerIs (f : Fuses) (key : List Byte) : Bool := decide (f.ownerHash = some (Config.sha384 key)) && bitsOf f.unread 9 1 == 0

/-- Does DEVICE_SECRET serve (R491, R511): not in RMA, and readable. -/
def secretOk (f : Fuses) : Bool := f.lifecycle != 2 && bitsOf f.unread 6 1 == 0 && bitsOf f.unread 5 1 == 0

/-- Are the slot and mask of SEC_KEY_SET in range for an envelope's TYPE (R500). -/
def keyParamOk (type slot mask : Nat) : Bool :=
  match type with
  | 1 => true
  | 2 => decide (slot < 4 ∧ mask = 0)
  | _ => decide (slot = 0 ∧ mask = 0)

/-- A key is installed (R499, R500), in use and in the key store in flash. -/
def State.keyInstall (s : State) (type slot mask : Nat) (key : List Byte) : State :=
  match type with
  | 1 =>
    let s : State := { s with
      keys := mapSet none s.keys slot (some key), keyMask := mapSet 0 s.keyMask slot mask
      keyFresh := mapSet false s.keyFresh slot true, origins := mapSet [] s.origins slot []
      ksFlash := { s.ksFlash with keys := mapSet none s.ksFlash.keys slot (some key), mask := mapSet 0 s.ksFlash.mask slot mask
                                  origins := mapSet [] s.ksFlash.origins slot [] } }
    s.setFld F.SEC_STAT_CMD_KEYS (withBit (s.fld F.SEC_STAT_CMD_KEYS) slot)
  | 2 =>
    let s : State := { s with auth := mapSet none s.auth slot (some key), ksFlash := { s.ksFlash with auth := mapSet none s.ksFlash.auth slot (some key) } }
    s.setFld F.SEC_STAT_MODEL_AUTH (withBit (s.fld F.SEC_STAT_MODEL_AUTH) slot)
  | 3 => ({ s with fuses := { s.fuses with ownerHash := some (Config.sha384 key) }
                   fuseBox := { s.fuseBox with ownerHash := some (Config.sha384 key) } } : State).setFld F.SEC_STAT_OWNER_SET 1
  | _ => ({ s with wrapKey := some key, ksFlash := { s.ksFlash with wrap := some key } } : State).setFld F.SEC_STAT_WRAP_KEY 1

/-- R500: the SEC_KEY_SET command. -/
def State.mSecKeySet (s : State) (h : CmdHdr) (p : List Word) (x : HostBuf) : State :=
  s.mcCmd h p 0x0C01 [0xFFFF0007, wAll, wAll] fun s =>
    s.withBuf h x fun b =>
      let slot := pw p 0 % 8
      let mask := pw p 0 / 65536
      let type := numAt b 3 1
      let n := if type = 1 ∨ type = 4 then 32 else 96
      let count := numAt b 4 4
      let owner := slice b (132 + n) 96
      if numAt b 0 2 ≠ 0x5A4B ∨ numAt b 2 1 ≠ 1 ∨ type = 0 ∨ 4 < type then s.reply h 0x0404 []
      else if !keyParamOk type slot mask then s.reply h 0x0102 []
      else
        let blank := s.fuses.ownerHash.isNone && bitsOf s.fuses.unread 9 1 == 0
        let who := if type = 3 then blank else ownerIs s.fuses owner
        if !who ∨ !Config.ecdsa owner (b.take (228 + n)) (slice b (228 + n) 96) ∨ count ≤ s.keyCounter ∨ !secretOk s.fuses then
          s.reply h 0x0404 []
        else match Config.unwrapKey s.fuses.serial (slice b 8 96) (slice b 104 12) (slice b 116 n) (slice b (116 + n) 16) with
          | none => s.reply h 0x0404 []
          | some key =>
            let s : State := { s with keyCounter := count, ksFlash := { s.ksFlash with counter := count } }
            ((s.keyInstall type slot mask key).logE 5 0xE00B [type, slot, count, 0]).reply h 0 []

/-- R500: the SEC_KEY_SET command. -/
def execSecKeySet (dt : Nat) (h : CmdHdr) (p : List Word) (x : HostBuf) (s : State) : Answer := .next ((s.tick dt).mSecKeySet h p x).settle

/-- R501: the SEC_DBG_CHALLENGE command: 16 random bytes, which the spec leaves open. -/
def execSecDbgChallenge (dt : Nat) (h : CmdHdr) (p : List Word) (s : State) : Answer :=
  .next ((s.tick dt).mcCmd h p 0x0C02 [] fun s =>
    let (s, w) := s.frees 4
    ({ s with challenge := some (w.flatMap fun v => leBytes v 4, s.now) } : State).reply h 0 w).settle

/-- R501: the SEC_DBG_UNLOCK command: the challenge is consumed either way. -/
def State.mSecDbgUnlock (s : State) (h : CmdHdr) (p : List Word) (x : HostBuf) : State :=
  s.mcCmd h p 0x0C03 [wAll, wAll] fun s =>
    s.withBuf h x fun b =>
      let min_ := numAt b 4 4
      let owner := slice b 32 96
      let cur : Bool := match s.challenge with
        | some (c, t) => decide (c = slice b 8 16 ∧ s.now ≤ t + 60000000000)
        | none => false
      let s : State := { s with challenge := none }
      if numAt b 0 2 = 0x5A44 ∧ numAt b 2 1 = 1 ∧ numAt b 3 1 < 8 ∧ 1 ≤ min_ ∧ min_ ≤ 480 ∧ cur ∧ numAt b 24 8 = s.fuses.serial ∧
          ownerIs s.fuses owner ∧ Config.ecdsa owner (b.take 128) (slice b 128 96) then
        let s := (s.setFld F.SEC_STAT_DBG_SCOPE (numAt b 3 1)).setFld F.SEC_STAT_DBG_MIN_LEFT min_
        (({ s with dbgFrom := s.now } : State).logE 5 0xE00B [numAt b 3 1, 0, s.keyCounter, 0]).reply h 0 []
      else s.reply h 0x0404 []

/-- R501: the SEC_DBG_UNLOCK command. -/
def execSecDbgUnlock (dt : Nat) (h : CmdHdr) (p : List Word) (x : HostBuf) (s : State) : Answer := .next ((s.tick dt).mSecDbgUnlock h p x).settle

end Sys2Proof.Machine
end

