-- ==== Sys2Proof/Machine/Net.lean ====
section
/-! DEFINITION. What arrives on the network ports: command datagrams (R367 to R370), frames (R380, R390, R392), plant events (R393,
R394) and the events of the plant bus (R395); the egress engine's own commands. -/
namespace Sys2Proof.Machine

/-! ## Sources and the census (R395, R396) -/

/-- Does port `p` (0 to 3 Ethernet, 4 and 5 plant bus) receive: it is up. -/
def State.portUp (s : State) (p : Nat) : Bool :=
  if p < 4 then s.fld F.NET_STAT_STATE p == 2 else s.fld F.PLB_STAT_MODE (p - 4) != 0

/-- A source that has sent nothing wrong. -/
def State.netSrc (s : State) (p mac : Nat) : NetSrc :=
  (s.srcs.find? fun x => x.port == p && x.mac == mac).getD ⟨p, mac, [], false⟩

/-- Store a source; one with nothing against it is not listed. -/
def State.setSrc (s : State) (x : NetSrc) : State :=
  let rest := s.srcs.filter fun y => !(y.port == x.port && y.mac == x.mac)
  { s with srcs := if x.fails.isEmpty ∧ !x.quar then rest else rest ++ [x] }

/-- Is a source quarantined on a port. -/
def State.quarantined (s : State) (p mac : Nat) : Bool := (s.netSrc p mac).quar

/-- A plant-bus port that has heard nothing. -/
def plb0 : Plb := ⟨[], 0, 0, false, []⟩
/-- Change what plant-bus port `b` holds. -/
def State.plbUpd (s : State) (b : Nat) (f : Plb → Plb) : State := { s with plbs := mapUpd plb0 s.plbs b f }
/-- Plant-bus port `b`. -/
def State.plb (s : State) (b : Nat) : Plb := mapGet plb0 s.plbs b

/-- Change the census entry of a station on port `p`, where `p` is a plant-bus port. -/
def State.censusFlag (s : State) (p mac : Nat) (f : Census → Census) : State :=
  if p < 4 then s else s.plbUpd (p - 4) fun x => { x with census := x.census.map fun e => if e.mac = mac then f e else e }

/-- Replace the entry seen longest ago. -/
def censusDrop (l : List Census) : List Census :=
  match l.map (fun e => e.last) |>.min? with
  | some t => match l.findIdx? (fun e => e.last == t) with
    | some i => l.eraseIdx i
    | none => l
  | none => l

/-- A frame of a station on plant-bus port `b` enters the census of 64 (R396). -/
def State.censusSee (s : State) (b mac node : Nat) : State :=
  s.plbUpd b fun x =>
    if x.census.any fun e => e.mac == mac then
      { x with census := x.census.map fun e => if e.mac = mac then
          { e with node := node, frames := e.frames + 1, last := s.now } else e }
    else
      let l := if 64 ≤ x.census.length then censusDrop x.census else x.census
      { x with census := l ++ [⟨mac, node, false, false, false, 1, s.now⟩] }

/-- A datagram of a source failed R368: more than 16 within 1 s quarantine it (R395). -/
def State.srcFails (s : State) (p mac : Nat) : State :=
  let x := s.netSrc p mac
  let ts := (x.fails.filter fun t => decide (s.now < t + 1000000000)) ++ [s.now]
  if 16 < ts.length then (s.setSrc ⟨p, mac, [], true⟩).censusFlag p mac fun e => { e with quar := true }
  else s.setSrc { x with fails := ts }

/-- A frame of a quarantined source is counted and nothing else is done with it (R380, R395). -/
def State.quarCount (s : State) (p : Nat) : State :=
  if p < 4 then s.inc F.NET_ERRCNT_QUAR p else s.inc F.PLB_ERRCNT_QUAR (p - 4)

/-! ## Authenticated datagrams (R367 to R370, R393) -/

/-- The last SEQ accepted from an origin under a key slot. -/
def State.lastSeq (s : State) (k o : Nat) : Option Nat :=
  ((mapGet [] s.origins k).find? fun e => e.1 == o).map Prod.snd

/-- Would SEQ be a replay, or the origin one too many (R368). -/
def State.replayed (s : State) (k o q : Nat) : Bool :=
  match s.lastSeq k o with
  | some l => decide (q ≤ l)
  | none => decide (64 ≤ (mapGet [] s.origins k).length)

/-- SEQ becomes the last accepted value of its origin (R370); the table goes to flash when it passes a multiple of 4,096 (R499). -/
def State.seqTake (s : State) (k o q : Nat) : State :=
  let old := mapGet [] s.origins k
  let new := if old.any fun e => e.1 == o then old.map fun e => if e.1 = o then (o, q) else e else old ++ [(o, q)]
  let saved := (((mapGet [] s.ksFlash.origins k).find? fun e => e.1 == o).map Prod.snd).getD 0
  let s : State := { s with origins := mapSet [] s.origins k new }
  if saved / 4096 < q / 4096 then { s with ksFlash := { s.ksFlash with origins := mapSet [] s.ksFlash.origins k new } } else s

/-- Why a datagram is discarded (R368): 0 MALFORMED, 1 AUTH_FAIL, 2 REPLAY; none where it passes. `n` bytes, its MAGIC, whether its
body is one that its MAGIC knows, the bytes before its tag, the offset of SEQ and the last word of its nonce. -/
def State.dgramBad (s : State) (b : List Byte) (n magic : Nat) (known : Bool) (seqAt tail : Nat) : Option Nat :=
  let k := numAt b 3 1 % 8
  let o := numAt b 4 4
  let q := numAt b seqAt 4
  if b.length ≠ n ∨ numAt b 0 2 ≠ magic ∨ numAt b 2 1 ≠ 1 ∨ (mapGet none s.keys k).isNone ∨ !known then some 0
  else if Config.gmac (s.keyBytes k) (leBytes o 4 ++ leBytes q 4 ++ leBytes tail 4) (b.take (n - 16)) ≠ slice b (n - 16) 16 then some 1
  else if s.replayed k o q then some 2 else none

/-- Discard a datagram without reply, and count it (R368, R395). -/
def State.dgramDrop (s : State) (p mac why : Nat) : State :=
  (match why with
    | 0 => s.inc F.CMD_NET_STAT_MALFORMED
    | 1 => s.inc F.CMD_NET_STAT_AUTH_FAIL
    | _ => s.inc F.CMD_NET_STAT_REPLAY).srcFails p mac

/-- Does a key slot's class mask hold an opcode class (R369). -/
def State.classOk (s : State) (k cls : Nat) : Bool := decide (cls ≠ 0) && (mapGet 0 s.keyMask k).testBit (cls - 1)

/-- A command datagram (R367 to R370): discarded, refused, or in the network FIFO. -/
def State.cmdDgram (s : State) (p mac src sport : Nat) (b : List Byte) : State :=
  match s.dgramBad b 88 0x5A4C true 12 0 with
  | some why => s.dgramDrop p mac why
  | none =>
    let k := numAt b 3 1 % 8
    let o := numAt b 4 4
    let s := (s.seqTake k o (numAt b 12 4)).censusFlag p mac fun e => { e with auth := true }
    let x := pktOf (.net (Fin.ofNat 8 k) (BitVec.ofNat 32 o) (BitVec.ofNat 32 src) sport) 0 (slice b 8 64)
    if !s.classOk k (x.hdr.opcode / 256) then ({ s with netOut := s.netOut + 1 } : State).reply x.hdr 0x0403 []
    else if 64 ≤ s.netFifo.length then (({ s with netOut := s.netOut + 1 } : State).inc F.CMD_NET_STAT_BUSY).reply x.hdr 0x0205 []
    else ({ s with netFifo := s.netFifo ++ [x] } : State).settle

/-- A plant event datagram (R393): a speed hint or a trigger. -/
def State.plantEvent (s : State) (p mac : Nat) (b : List Byte) : State :=
  let kind := numAt b 12 1
  match s.dgramBad b 48 0x5A45 (kind == 1 || kind == 2) 8 2 with
  | some why => s.dgramDrop p mac why
  | none =>
    let k := numAt b 3 1 % 8
    let s := (s.seqTake k (numAt b 4 4) (numAt b 8 4)).censusFlag p mac fun e => { e with auth := true }
    if !s.classOk k 0x0B then s.inc F.CMD_NET_STAT_AUTH_FAIL
    else if kind = 1 then
      let s := (s.setFld F.PLB_HINT_VALID 1).setFld F.PLB_HINT_ODO (numAt b 16 4 % 4)
      (s.setFld F.PLB_HINT_RATE (numAt b 20 4)).setFld F.PLB_HINT_TOL_PERMILLE (numAt b 24 4 % 1024)
    else (s.msArriveBy 1098 (numAt b 16 4 % 16384) 1).settle

/-- R368: a command datagram arrives on a port: who sent it, from which address and UDP port, and its 88 bytes. -/
def execCommandDatagram (dt : Nat) (p : Fin 6) (mac : Nat) (src : Word) (sport : Nat) (b : List Byte) (s : State) : Answer :=
  let s := s.tick dt
  if !s.portUp p.val then .next s
  else if s.quarantined p.val mac then .next (s.quarCount p.val)
  else .next (s.cmdDgram p.val mac src.toNat sport b)

/-- R393: a plant event datagram arrives on a port. -/
def execPlantEventDatagram (dt : Nat) (p : Fin 6) (mac : Nat) (b : List Byte) (s : State) : Answer :=
  let s := s.tick dt
  if !s.portUp p.val then .next s
  else if s.quarantined p.val mac then .next (s.quarCount p.val)
  else .next (s.plantEvent p.val mac b)

/-! ## Frames (R379, R380, R390, R392) -/

/-- The connection that a GVSP packet is for: an enabled GigE Vision connection of this port, camera and UDP port (R380). -/
def State.gvConn (s : State) (p src dport : Nat) : Option Nat :=
  (List.range 16).find? fun c => (s.conn c).gv && s.fld F.NET_GV_CFG_PORT c == p && s.fld F.NET_GV_SRC_CAMERA c == src &&
    s.fld F.NET_GV_CFG_UDP_PORT c == dport

/-- A GVSP packet (R389, R390): the first leader gives LINESCAN and the pixel format, which R44 may not know; standard ID mode is
discarded and counted. -/
def State.gvspIn (s : State) (p c : Nat) (m : GvPkt) : State :=
  match m with
  | .standard => s.inc F.NET_ERRCNT_RX_DISCARD p
  | .data => s
  | .leader pfnc ls =>
    let x := s.conn c
    if x.gvLeader ∨ (s.connState c ≠ 2 ∧ s.connState c ≠ 3) then s
    else
      let s := (s.setFld F.ING_CONN_CAPS_LINESCAN (if ls then 1 else 0) c).setFld F.ING_CONN_PIXFMT_PFNC pfnc c
      let s := s.setConn c { s.conn c with gvLeader := true }
      match pfncDepth pfnc with
      | none => ((s.setConnState c 6).setConn c { (s.setConnState c 6).conn c with refusal := 0x0108 }).tell (.note 10 c)
      | some _ => s

/-- A frame that no row of R380 or R392 accepts: counted on an Ethernet port. -/
def State.rxDiscard (s : State) (p : Nat) : State := if p < 4 then s.inc F.NET_ERRCNT_RX_DISCARD p else s

/-- ARP (R379): a request for the port's address is answered, and an answer to its own request is taken. -/
def State.arpIn (s : State) (p op ip mac target : Nat) : State :=
  if target ≠ s.portIp p then s.rxDiscard p
  else if op = 1 then s.emit (.arp p 2 ip mac)
  else if op = 2 ∧ (s.arpPort p).asked.contains ip then s.arpLearn p ip mac
  else s.rxDiscard p

/-- A frame that has passed the MAC (R380, R392). -/
def State.frameIn (s : State) (p : Nat) (f : NetFrame) : State :=
  match f.pay with
  | .arp op ip mac target => s.arpIn p op ip mac target
  | .echo src dst body => if dst = s.portIp p then s.emit (.echo p src body) else s.rxDiscard p
  | .udp src dst sport dport b =>
    if dst ≠ s.portIp p then s.rxDiscard p
    else if dport = 23056 then s.cmdDgram p f.mac src sport b
    else if dport = 23057 then s.plantEvent p f.mac b
    else s.rxDiscard p
  | .gvsp src dst dport m =>
    match s.gvConn p src dport with
    | some c => if p < 4 ∧ dst = s.portIp p then s.gvspIn p c m else s.rxDiscard p
    | none => s.rxDiscard p
  | .ptp udp m => if p < 4 ∧ s.ptpPort p udp then s.ptpIn m else s.rxDiscard p
  | .pause => if p < 4 then s.inc F.NET_ERRCNT_PAUSE p else s
  | .fragment => s.rxDiscard p
  | .other => s.rxDiscard p

/-- Is a frame within the limit of an Ethernet port, untagged or with the port's VID (R379). -/
def State.ethSize (s : State) (p : Nat) (f : NetFrame) : Bool :=
  match f.vid with
  | none => decide (f.len ≤ 9018)
  | some v => decide (f.len ≤ 9022) && v == s.fld F.NET_CFG_VID p

/-- R380: a frame arrives on an Ethernet port. -/
def execEthFrameReceived (dt : Nat) (p : Fin 4) (f : NetFrame) (s : State) : Answer :=
  let s := s.tick dt
  let p := p.val
  if !s.portUp p then .next s
  else if !f.ok then .next (s.inc F.NET_ERRCNT_FCS p)
  else if s.quarantined p f.mac then .next (s.quarCount p)
  else if !s.ethSize p f then .next (s.rxDiscard p)
  else .next (s.frameIn p f)

/-- R379: an ARP request has had no answer for 1 s. -/
def execArpRetry (dt : Nat) (p : Fin 6) (ip : Word) (s : State) : Answer :=
  let s := s.tick dt
  if s.portUp p.val then .next (s.arpRetry p.val ip.toNat) else .next s

/-- R386: FLUSH_US after the first record byte that stream `k` holds. -/
def execRsFlushTimeout (dt : Nat) (k : Fin 16) (s : State) : Answer :=
  let s := s.tick dt
  if s.flag F.NET_RS_CFG_EN k.val ∧ (s.rsBuf k.val).first + s.fld F.NET_RS_LEN_FLUSH_US k.val * 1000 ≤ s.now then
    .next (s.rsFlush k.val)
  else .next s

/-! ## Links -/

/-- R379, R381: an Ethernet port completes auto-negotiation within NET_CFG.MODE at SPEED code `speed`, with FEC or without, and the
partner's base page and abilities; what the streams of the port hold leaves. -/
def execEthLinkUp (dt : Nat) (p : Fin 4) (speed : Fin 5) (fec : Bool) (page : Nat) (abil : Fin 8) (s : State) : Answer :=
  let s := s.tick dt
  let p := p.val
  let m := s.fld F.NET_CFG_MODE p
  let v := speed.val
  if s.flag F.NET_CFG_EN p ∧ s.fld F.NET_STAT_STATE p ≠ 2 ∧ v ≠ 0 ∧ (m = 0 ∨ (m = 1 ∧ v ≤ 2) ∨ (m = 2 ∧ 3 ≤ v)) then
    let s := ((s.setFld F.NET_STAT_STATE 2 p).setFld F.NET_STAT_SPEED v p).setFld F.NET_STAT_FEC (if fec ∨ v ≤ 2 then 1 else 0) p
    let s : State := { s with netPeer := mapSet (0, 0) s.netPeer p (page % 2 ^ 23, abil.val) }
    .next ((List.range 16).foldl (fun s k =>
      if s.fld F.NET_RS_CFG_PORT k = p then s.rsPump k (s.rsBuf k).bytes.length else s) s.gvRefreshAll)
  else .next s

/-- R381: an Ethernet port loses its link. -/
def execEthLinkLoss (dt : Nat) (p : Fin 4) (s : State) : Answer :=
  let s := s.tick dt
  if s.fld F.NET_STAT_STATE p.val = 2 then .next (s.netDown p.val) else .next s

/-! ## The plant bus (R392 to R396) -/

/-- The times within 100 ms of frames with errors (R395). -/
def State.plbNoise (s : State) (b : Nat) : State :=
  let ts := ((s.plb b).noise.filter fun t => decide (s.now < t + 100000000)) ++ [s.now]
  let s := s.plbUpd b fun x => { x with noise := ts }
  (if 64 ≤ ts.length then s.setFld F.PLB_STAT_NOISE 1 b else s).inc F.PLB_ERRCNT_FCS b

/-- R392: a frame arrives on a plant-bus port, in PLCA transmit opportunity `node` (0xFF in CSMA/CD mode). -/
def execPlbFrameReceived (dt : Nat) (b : Fin 2) (node : Fin 256) (f : NetFrame) (s : State) : Answer :=
  let s := s.tick dt
  let p := 4 + b.val
  if !s.portUp p then .next s
  else if !f.ok ∨ 1518 < f.len then .next (s.plbNoise b.val)
  else if s.quarantined p f.mac then .next (s.quarCount p)
  else
    let s := s.censusSee b.val f.mac node.val
    .next (if f.vid.isSome then s else s.frameIn p f)

/-- A collision on the port's own transmission: the eighth of consecutive own opportunities is reported (R395). -/
def State.plbCollide (s : State) (b : Nat) (again : Bool) : State :=
  let n := if again then (s.plb b).run + 1 else 1
  let s := (s.plbUpd b fun x => { x with run := n }).inc F.PLB_ERRCNT_COLL b
  if n = 8 then (s.setFld F.PLB_STAT_DUP_ID 1 b).tell (.note 17 b) else s

/-- R395: a transmission of the device collides: `attempt` counts the attempts at its frame, and `again` says that its own
opportunity before collided too. -/
def execPlbCollision (dt : Nat) (b : Fin 2) (attempt : Fin 17) (again : Bool) (s : State) : Answer :=
  let s := s.tick dt
  if !s.portUp (4 + b.val) then .next s
  else
    let s := s.plbCollide b.val again
    .next (if attempt.val = 16 then s.inc F.PLB_ERRCNT_DISCARD b.val else s)

/-- R395: no beacon for the standard's timeout, or for 50 ms (`fifty`). -/
def execPlbBeaconTimeout (dt : Nat) (b : Fin 2) (fifty : Bool) (s : State) : Answer :=
  let s := s.tick dt
  let b := b.val
  let m := s.fld F.PLB_STAT_MODE b
  let s := if m = 2 then (s.setFld F.PLB_STAT_MODE 1 b).setFld F.PLB_STAT_BEACON_LOST 1 b else s
  if fifty ∧ (m = 1 ∨ m = 2) ∧ s.flag F.PLB_CFG_BACKUP b ∧ s.flag F.PLB_CFG_PLCA b ∧ s.fld F.PLB_CFG_NODE_ID b ≠ 0xFF then
    let n := s.fld F.PLB_CFG_NODE_CNT b
    let s := ((s.setFld F.PLB_STAT_MODE 3 b).setFld F.PLB_STAT_TOOK_OVER 1 b).plbUpd b fun x => { x with taken := true, coord := n }
    .next (s.emit (.beacon (4 + b) n))
  else .next s

/-- R395: a beacon that the device did not send, with the node count of its coordinator. -/
def execPlbBeaconReceived (dt : Nat) (b : Fin 2) (cnt : Fin 256) (s : State) : Answer :=
  let s := s.tick dt
  let b := b.val
  let m := s.fld F.PLB_STAT_MODE b
  let s := s.plbUpd b fun x => { x with census := x.census.map fun e => if e.node = 0 then { e with beacon := true } else e }
  if m = 3 ∧ (s.plb b).taken then
    .next ((s.setFld F.PLB_STAT_MODE 2 b).plbUpd b fun x => { x with taken := false, coord := cnt.val })
  else if m = 3 then .next (s.plbCollide b true)
  else if m = 2 ∨ (m = 1 ∧ s.flag F.PLB_CFG_PLCA b ∧ s.fld F.PLB_CFG_NODE_ID b ≠ 0xFF) then
    .next ((s.setFld F.PLB_STAT_MODE 2 b).plbUpd b fun x => { x with coord := cnt.val })
  else .next s

/-- R395: 10 s after its quarantine a source's frames are accepted again. -/
def execQuarantineExpire (dt : Nat) (p : Fin 6) (mac : Nat) (s : State) : Answer :=
  let s := s.tick dt
  if s.quarantined p.val mac then
    .next ((s.setSrc ⟨p.val, mac, [], false⟩).censusFlag p.val mac fun e => { e with quar := false })
  else .next s

/-- The measured rate of an odometer in edges/s as a fraction (R394): 0 while STOPPED, else 10⁹ over its edge interval, free where it
has none. -/
def State.edgeRate (s : State) (u : Nat) : Nat × Nat :=
  let d := s.fld F.ODO_EDGE_DT_DT_NS u
  if s.flag F.ODO_STAT_STOPPED u then (0, 1) else if d = 0 then (s.free, 1) else (1000000000, d)

/-- R394: a valid speed hint is compared with the measured edge rate. -/
def execSpeedHintCheck (dt : Nat) (s : State) : Answer :=
  let s := s.tick dt
  if s.flag F.PLB_HINT_VALID then
    let (n, d) := s.edgeRate (s.fld F.PLB_HINT_ODO)
    let rate := s.fld F.PLB_HINT_RATE
    let off := ((n : Int) - rate * d).natAbs * 1000
    let k := if rate * s.fld F.PLB_HINT_TOL_PERMILLE * d < off then s.hintBad + 1 else 0
    let s : State := ({ s with hintBad := min k 10 } : State).useFree
    .next (if k = 10 then (s.setFld F.PLB_HINT_MISMATCH 1).tell (.note 18 (s.fld F.PLB_HINT_ODO)) else s)
  else .next s

/-- R394: 1 s after the last hint. -/
def execSpeedHintExpire (dt : Nat) (s : State) : Answer :=
  let s := s.tick dt
  .next (if s.flag F.PLB_HINT_VALID then { s.setFld F.PLB_HINT_VALID 0 with hintBad := 0 } else s)

/-! ## Egress (R371, R372) -/

/-- R372: a record reaches the egress engine, which appends it to every ring and stream that selects it. -/
def execEgressRecord (dt : Nat) (x : EgrRec) (s : State) : Answer := .next ((s.tick dt).egress x)

/-- R371: the tail of a ring with unreported records is reported. -/
def execEgressTailReport (dt : Nat) (r : Fin 16) (s : State) : Answer := .next ((s.tick dt).tailReport r.val)

end Sys2Proof.Machine
end

