-- ==== Sys2Proof/Machine/Startup.lean ====
section
/-! DEFINITION. Device reset, start-up (R505 to R519), the failover of an MC pair (R482), PERST_N and lost PCIe completions. -/
namespace Sys2Proof.Machine

/-! ## Fuses and reset (R505, R511) -/

/-- The fuse values in use: group g is unreadable where bit g of `m` is set (R511). -/
def fusesRead (f : Fuses) (m : Nat) : Fuses :=
  let bad (g : Nat) : Bool := bitsOf m g 1 == 1
  let serial := if bad 4 then 0 else f.serial
  { f with
    unread := m, serial := serial
    laybyA := if bad 0 then 16 else f.laybyA
    laybyB := if bad 0 then 17 else f.laybyB
    macs := if bad 1 then (List.range 6).map fun i => (0x02 * 2 ^ 40 + serial % 2 ^ 40 + i) % 2 ^ 48 else f.macs
    wakeAddr := if bad 2 then 0x3A else f.wakeAddr
    ceilA := if bad 3 then 250 else f.ceilA
    lifecycle := if bad 5 then 2 else f.lifecycle
    rootRevoke := if bad 7 then 15 else f.rootRevoke
    fwFloor := if bad 8 then 64 else f.fwFloor
    modelFloor := if bad 8 then 64 else f.modelFloor }

/-- The registers whose Reset column is a fuse show the latched values (R12, R409, R466, R510). -/
def State.fuseRegs (s : State) : State :=
  let f := s.fuses
  let s := s.setFld F.DEV_FUSE_UNREAD f.unread
  let s := (s.setFld F.DEV_LAYBY_LAYBY_A f.laybyA).setFld F.DEV_LAYBY_LAYBY_B f.laybyB
  let s := (List.range 4).foldl (fun s p => s.setFld F.NET_MAC_MAC (f.macs.getD p 0) p) s
  let s := (List.range 2).foldl (fun s p => s.setFld F.PLB_MAC_MAC (f.macs.getD (4 + p) 0) p) s
  let s := s.setFld F.PWR_LIMIT_CEIL_A f.ceilA
  let s := (s.setFld F.SEC_STAT_LIFECYCLE f.lifecycle).setFld F.SEC_STAT_ROOT_REVOKED f.rootRevoke
  s.setFld F.SEC_STAT_OWNER_SET (if f.ownerHash.isSome ∨ bitsOf f.unread 9 1 = 1 then 1 else 0)

/-- Power-up from its reference (R458, R508 steps 1 to 4): the AON resets itself and starts as a wake of code 0; `unread`: the fuse
groups that neither copy of passes. -/
def State.powerUp (s : State) (unread : Nat) : State :=
  let s : State := { s with fuses := fusesRead s.fuseBox unread, boot := ⟨s.aonNs, false, false, none, 0, [], []⟩ }
  (s.fuseRegs.setFld F.PWR_WAKE_CFG_ADDR s.fuses.wakeAddr).wakeStart 0

/-- R508: VDD_AON and VIO18 have stayed within range for 1 ms. -/
def execAonPowerUp (dt : Nat) (unread : Fin 1024) (s : State) : Answer :=
  let s := s.tick dt
  if s.fld F.DEV_START_STAGE = 0 ∧ s.fld F.PWR_STAT_DSTATE = 0 ∧ !s.flag F.PWR_STAT_BUSY then
    let s : State := { s with aonNs := 0 }
    .next ((s.setFld F.PWR_RAIL_GOOD (s.fld F.PWR_RAIL_GOOD ||| 0x60)).powerUp unread.val)
  else .next s

/-- What SYS_RESET_N leaves (R505): the AON log ring, the AON counter, what is in flash and the fuses; every register is at its Reset
value and the waymark store is empty. -/
def State.sysReset (s : State) : State :=
  { State.reset with
    pending := s.pending, aonNs := s.aonNs, freeCtr := s.freeCtr, out := s.out, twoByEight := s.twoByEight
    log := s.log, logNext := s.logNext, logLost := s.logLost, mirror := s.mirror
    fwSlots := s.fwSlots, activeSlot := s.activeSlot, pendingSlot := s.pendingSlot, fuseBox := s.fuseBox
    ksFlash := s.ksFlash, calFlash := s.calFlash, repair := s.repair, repairAt := s.repairAt, policy := s.policy }

/-- R505: SYS_RESET_N has been low for 10 µs: a device reset, and start-up from step 1. -/
def execSysReset (dt : Nat) (unread : Fin 1024) (s : State) : Answer :=
  let s := s.tick dt
  let good := s.fld F.PWR_RAIL_GOOD
  .next ((s.sysReset.setFld F.PWR_RAIL_GOOD good).powerUp unread.val)

/-! ## Record restore (R423, R474, R490, R499, R509) -/

/-- The retired tiles and failed legs of the repair record (R423). -/
def State.repairTiles (s : State) : State :=
  s.repair.foldl (fun s e =>
    if e.kind = 2 then s.setFld F.RAS_RETIRED_ROWS (s.fld F.RAS_RETIRED_ROWS (tileCol e.a) ||| 2 ^ (e.a % 32)) (tileCol e.a)
    else if e.kind = 7 then
      let k := calKey e.a e.c
      let x := s.calInst k
      s.setCal k (if e.b = 0 then { x with failA := true } else { x with failB := true })
    else s) s

/-- The key store is restored (R499), or there are no keys (R509); without DEVICE_SECRET no stored key unwraps (R491). -/
def State.keysRestore (s : State) (ok : Bool) : State :=
  let f := s.ksFlash
  if ok ∧ secretOk s.fuses then
    let s : State := { s with
      keys := f.keys, keyMask := f.mask, auth := f.auth, wrapKey := f.wrap, keyCounter := f.counter
      origins := f.origins.map fun e => (e.1, e.2.map fun (o : Nat × Nat) => (o.1, min (o.2 + 4096) 0xFFFFFFFF)) }
    let mask (m : FMap (Option (List Byte))) : Nat := m.foldl (fun n e => if e.2.isSome then withBit n e.1 else n) 0
    let s := (s.setFld F.SEC_STAT_CMD_KEYS (mask f.keys)).setFld F.SEC_STAT_MODEL_AUTH (mask f.auth)
    s.setFld F.SEC_STAT_WRAP_KEY (if f.wrap.isSome then 1 else 0)
  else
    let s : State := { s with keys := [], keyMask := [], auth := [], wrapKey := none, keyCounter := 0, origins := [] }
    let s := ((s.setFld F.SEC_STAT_CMD_KEYS 0).setFld F.SEC_STAT_MODEL_AUTH 0).setFld F.SEC_STAT_WRAP_KEY 0
    s.setFld F.DEV_START_KEYS_LOST 1

/-- The calibration, repair and policy records are restored, or fall back (R509). -/
def State.recordsRestore (s : State) (cal rep pol : Bool) : State :=
  let s : State := { s with cal := if cal then s.calFlash else [] }
  let s := if cal then s else s.setFld F.DEV_START_CAL_FUSE 1
  let s : State := { s with repair := if rep then s.repair else [] }
  let s := if rep then s else s.setFld F.DEV_START_REPAIR_LOST 1
  let s : State := { s with policy := if pol then s.policy else [] }
  let s := if pol then s else s.setFld F.DEV_START_POLICY_DEFAULT 1
  s.repairTiles.applyPolicy.noiseEnable 0

/-- What the restored MC starts (R508 steps 9 and 10): the due run of every item, and the first column, whose request is the slew
probe's, or every column in a wake from D3. -/
def State.bootWork (s : State) (iref : Bool) : State :=
  let s : State := { s with boot := { s.boot with restored := true } }
  let s := (s.setFld F.CLK_MC_SEL 1).setFld F.DEV_START_STAGE 5
  let s := s.calDueMask 0x1FF iref
  s.askColumns (if s.boot.d3 then List.range 34 else [0])

/-- A slot has been copied and verified (R494 step 4): the pair jumps to ENTRY, and stage 4 runs. -/
def State.bootImage (s : State) (k : Nat) (im : Image) (cal rep pol key iref : Bool) : State :=
  let s : State := { s with running := im, runFrom := s.now }
  let s := (s.setFld F.MC_STAT_SLOT k).setFld F.MC_STAT_RECOVERY 0
  ((s.recordsRestore cal rep pol).keysRestore key).bootWork iref

/-- Neither slot is valid (R494, R509): recovery mode, in which the boot ROM requests only IOD, PCIE and CAL. -/
def State.recovery (s : State) : State :=
  let s := (s.setFld F.DEV_START_STAGE 3).setFld F.MC_STAT_RECOVERY 1
  s.tollCancel fun q => match q with
    | .dom d => !([2, 3, 14] : List Nat).contains d
    | _ => true

/-- R494: the boot ROM has checked ACTIVE_SLOT, and the other slot where that one failed. `cal`, `rep`, `pol`, `key`: the records of
calibration, repair, policy and keys are readable (R509); `iref`: I_REF agrees (R467). -/
def execBootRomVerifyComplete (dt : Nat) (cal rep pol key iref : Bool) (s : State) : Answer :=
  let s := s.tick dt
  if s.fld F.DEV_START_STAGE = 2 ∧ s.domOn 1 then
    let a := s.activeSlot % 2
    match s.slotCheck a with
    | .ok im => .next (s.bootImage a im cal rep pol key iref).settle
    | .error c =>
      let s := s.logE (Config.logSrc c % 64) c [a, 0, 0, 0]
      match s.slotCheck (1 - a) with
      | .ok im => .next (s.bootImage (1 - a) im cal rep pol key iref).settle
      | .error c => .next ((s.logE (Config.logSrc c % 64) c [1 - a, 0, 0, 0]).recovery).settle
  else .next s

/-! ## Domains and columns (R447, R458, R508) -/

/-- After a wake from D1 the MC restores configuration, asks for columns, and the due run follows (R458 step 7, R507). -/
def State.wakeRestore (s : State) (iref : Bool) : State :=
  ((s.repairPages.repairTiles.applyPolicy.noiseEnable 0).calDueMask 0x1FF iref).askColumns (List.range 34)

/-- R447, R458: a granted domain, or a column on its way to RUN or PARK, is ready. `ref`: REFCLK is valid (R513). -/
def execDomainReady (dt : Nat) (d : Fin 49) (ref iref : Bool) (s : State) : Answer :=
  let s := s.tick dt
  let was := s.seq.wake
  let s := s.domainReady d.val ref
  let s := if d.val = 1 ∨ d.val = 2 ∨ d.val = 4 then s.fuseRegs else s
  let s := if was = some 1 ∧ s.seq.wake.isNone then s.wakeRestore iref else s
  .next (if 15 ≤ d.val then s.bootTest else s)

/-! ## HBM (R514) -/

/-- The stream engine zeroes every page of stack `k` but those of retired octets (R514). -/
def State.hbmZero (s : State) (k : Nat) : State :=
  let gone (a : Nat) : Bool := a / stackBytes == k &&
    bitsOf (s.fld F.STR_OCTET_RETIRED k) (a % stackBytes / pageBytes % 4) 1 == 0
  { s with hbm := s.hbm.filter fun e => !gone e.1, hbmPoison := s.hbmPoison.filter fun e => !gone (64 * e.1) }

/-- Have the HBM_DRV and HBM_ODT instances of stack `k` results (R508 step 14, R514). -/
def State.hbmCalDone (s : State) (k : Nat) : Bool :=
  !s.cal.any fun e => decide ((e.1 / 2048 = 2 ∨ e.1 / 2048 = 3) ∧ e.1 % 2048 / 64 = k) && e.2.due.isSome

/-- R514: a stack finishes training, with the pseudo-channel that failed where one did: its third failure retires its octet (R509). -/
def execHbmTrainingComplete (dt : Nat) (k : Fin 4) (fail : Option (Fin 32)) (s : State) : Answer :=
  let s := s.tick dt
  let k := k.val
  let st := s.fld F.DEV_START_STAGE
  if (st = 5 ∨ st = 6) ∧ s.domOn (6 + k) ∧ s.boot.restored ∧ !s.boot.ready.contains k ∧ s.hbmCalDone k then
    match fail with
    | some pc =>
      let key := 32 * k + pc.val
      let n := mapGet 0 s.boot.fails key + 1
      let s : State := { s with boot := { s.boot with fails := mapSet 0 s.boot.fails key n } }
      if 3 ≤ n then .next ((s.octetRetire k (pc.val / 8)).setFld F.DEV_START_HBM_DEGRADED 1) else .next s
    | none =>
      let s : State := { s.hbmZero k with boot := { s.boot with ready := s.boot.ready ++ [k] } }
      .next s.stageSeven
  else .next s

/-! ## Test rotation (R429) -/

/-- R429: the test-rotation period of column `i`, or of unit `i − 34`, has passed: the MC tests it. -/
def execTestRotationDue (dt : Nat) (i : Fin 50) (s : State) : Answer :=
  let s := s.tick dt
  if s.fld F.DEV_START_STAGE ≠ 8 ∨ !s.mcUp then .next s
  else if i.val < 34 then .next (s.testColumn none i.val)
  else .next (s.svcBist ⟨none, 1, i.val - 34, 2, 0, 0, 0, none⟩ true 2)

/-! ## Failover (R294, R364, R436, R482, R483) -/

/-- The commands that the failed pair had started end with FAULT_MC_FAILOVER (R364); what they waited for is forgotten. -/
def State.dropM (s : State) : State :=
  s.mcRun.foldl (fun s h =>
    let s : State := { s with
      calCmds := s.calCmds.filter fun c => decide (c.hdr ≠ h)
      svc := s.svc.map fun j => if j.hdr = some h then { j with hdr := none } else j
      switch := match s.switch with
        | some w => if w.hdr = h then none else some w
        | none => none
      conns := (s.conns.map fun e => (e.1, match e.2.ctrl with
        | some (x, _) => if x = h then { e.2 with ctrl := none } else e.2
        | none => e.2)).filter fun e => decide (e.2 ≠ conn0) }
    s.reply h 0x0305 []) s

/-- A faulted pair is restored, or RETIRED at its second fault within 24 h (R483). -/
def State.pairFail (s : State) (p : Nat) : State :=
  let again : Bool := match mapGet none s.pairFault p with
    | some t => decide (s.now < t + 86400000000000)
    | none => false
  let s : State := { s with pairFault := mapSet none s.pairFault p (some s.now), pairTry := mapSet 0 s.pairTry p 0 }
  s.setPair p (if again then 3 else 2)

/-- The image that pair `q` takes over with: the slot that UPD_SWITCH had it load, if it had (R495 step 1). -/
def State.takeImage (s : State) : State :=
  match s.switch with
  | some w =>
    if w.tx.isSome ∧ !w.swapped then
      ({ s with running := ((s.fwSlot w.slot).ok).getD s.running, runFrom := s.now } : State).setFld F.MC_STAT_SLOT w.slot
    else s
  | none => s

/-- The STANDBY pair `q` becomes ACTIVE (R482 step 2, R294, R364). -/
def State.failover (s : State) (q : Nat) : State :=
  let s := s.takeImage
  let s := (((s.setPair q 0).setFld F.MC_STAT_ACTIVE q).setFld F.MC_STAT_SWITCHING 0).inc F.MC_STAT_FAILOVERS
  let s := s.dropM
  (List.range 64).foldl (fun s t => if s.txState t = 2 then s.txEnd t 0x0303 else s) s

/-- No pair is STANDBY-ready (R436): every M command ends with FAULT_MC_FAILOVER, those in the FIFO too. -/
def State.mcGoneNow (s : State) : State :=
  let s := (s.dropM).setFld F.MC_STAT_SWITCHING 0
  let fs := s.mcFifo
  let s := ({ s with mcFifo := [] } : State).fifoStat
  fs.foldl (fun s x => s.reply x.hdr 0x0305 []) s

/-- The pair that UPD_SWITCH loads or has loaded is lost: the command ends with STATE_POWER (R495). -/
def State.switchLost (s : State) : State :=
  match s.switch with
  | some w =>
    let s : State := ({ s with switch := none } : State).setFld F.MC_STAT_SWITCHING 0
    let s := match w.tx with
      | some t => if s.txState t = 2 ∨ s.txState t = 3 then s.txEnd t 0x050A else s
      | none => s
    s.reply w.hdr 0x050A []
  | none => s

/-- R482: pair `p` faults, with its cause: 1 lockstep, 2 watchdog, 3 its code bank, 4 its compare logic. -/
def execPairFault (dt : Nat) (p : Fin 2) (cause : Fin 4) (s : State) : Answer :=
  let s := s.tick dt
  let p := p.val
  let q := 1 - p
  if !s.domOn 1 ∨ s.pairSt p = 3 then .next s
  else
    let s := s.logE 0 0xE002 [p, cause.val + 1, 0, 0]
    if s.fld F.MC_STAT_ACTIVE = p ∧ s.pairSt p = 0 then
      if s.fld F.DEV_START_STAGE = 2 ∧ p = 0 ∧ s.pairSt 1 ≠ 3 then
        .next ((((s.pairFail 0).setPair 1 0).setFld F.MC_STAT_ACTIVE 1).setFld F.DEV_START_PAIR1_DOWN 1)
      else
        let ready := decide (s.pairSt q = 1)
        let s := s.pairFail p
        if ready then .next (s.failover q).settle else .next (s.mcGoneNow).settle
    else if s.pairSt p = 1 ∧ (s.switch.any fun w => !w.swapped) then .next (s.switchLost.pairFail p).settle
    else .next (s.pairFail p)

/-! ## PCIe (R354, R506) -/

/-- R506: PERST_N is asserted in D0: every queue and egress ring is disabled, and what waits for one is discarded. -/
def execPerstAssert (dt : Nat) (s : State) : Answer :=
  let s := s.tick dt
  if s.fld F.PWR_STAT_DSTATE ≠ 0 then .next s
  else
    let s := (List.range 64).foldl (fun s q =>
      let s := s.setFld F.CMD_Q_CFG_EN 0 q
      if s.fld F.CMD_Q_STAT_OUTST q = 0 then s
      else
        let gone := (s.queue q).held.filter fun r => r.final
        let s := s.setQueue q { s.queue q with held := [], dead := true }
        gone.foldl (fun s _ => s.cmdDone q) s) s
    .next ((List.range 16).foldl (fun s r =>
      let s := s.setFld F.CMD_EGR_STAT_EN 0 r
      if (s.eRing r).unreported then s.setERing r { s.eRing r with unreported := false } else s) s)

/-- The command whose host buffer cannot be read (R362). -/
def State.bufferLost (s : State) (h : CmdHdr) (p : List Word) : State :=
  match h.opcode with
  | 0x0201 => s.mModelLoad h p .error ⟨[], [], []⟩
  | 0x0502 => s.mPwrPolicy h p .error
  | 0x0901 => s.mUpdWrite h p .error
  | 0x0B02 => s.mNetConfig h p .error
  | 0x0C01 => s.mSecKeySet h p .error
  | 0x0C03 => s.mSecDbgUnlock h p .error
  | _ => s

/-- R354: a non-posted PCIe request has had no completion for 50 ms. -/
def execPcieCompletionTimeout (dt : Nat) (x : PcieWait) (s : State) : Answer :=
  let s := s.tick dt
  match x with
  | .dma c => if s.dmaSt c.val = 1 ∨ s.dmaSt c.val = 2 then .next (s.dmaError c.val 3) else .next s
  | .fetch q => if s.fetchMay q.val = 0 then .next s else .next (s.setFld F.CMD_Q_STAT_FETCH_ERR 1 q.val)
  | .buffer h p => .next (s.bufferLost h p).settle

end Sys2Proof.Machine
end

