-- ==== Sys2Proof/Machine/Streams.lean ====
section
/-! DEFINITION. The stream engines' own steps (R227 to R236). -/
namespace Sys2Proof.Machine

/-- R233: engine `k` chooses a request and issues it: a read takes an outstanding entry, a write is pulled. -/
def execStreamRequestIssue (dt : Nat) (k : Fin 4) (s : State) : Answer :=
  let s := s.tick dt
  if s.domOn (6 + k.val) then .next (s.engineIssue k) else .next s

/-- R231: the oldest read of slot `z` is delivered and its entry is freed; reads of one stream complete in issue order. -/
def execStreamReadComplete (dt : Nat) (k : Fin 4) (z : Fin 256) (s : State) : Answer :=
  let s := s.tick dt
  match takeOut z.val (s.engine k).outst with
  | some (r, rest) => .next ((s.setEngine k { s.engine k with outst := rest }).deliverRead k r)
  | none => .next s

/-- R236: the request that engine `k` chooses is a write of slot `z`: it is pulled, and chunks pulled whole arrive at the completion
milestone. -/
def execStreamWritePulled (dt : Nat) (k : Fin 4) (z : Fin 256) (s : State) : Answer :=
  let s := s.tick dt
  match s.engineChoice k with
  | some (y, best) =>
    if y = z.val ∧ s.flag F.STR_SLOT_RATE_DIR k y ∧ s.domOn (6 + k.val) then .next (s.engineTake k y best) else .next s
  | none => .next s

end Sys2Proof.Machine
end

