-- ==== Sys2Proof/Machine/Dispatch.lean ====
section
/-! DEFINITION. One arm per command: the call of its meaning. -/
namespace Sys2Proof.Machine

/-- The effect of a command on everything but the queue. -/
def exec (i : Instr) (s : State) : Host.Outcome State Fault Refusal :=
  match i with
  | .regRead64Low dt r addr bytes => Sys2Proof.Machine.execRegRead64Low dt r addr bytes s
  | .regWrite64High dt r addr data => Sys2Proof.Machine.execRegWrite64High dt r addr data s
  | .regReadClear dt r addr bytes => Sys2Proof.Machine.execRegReadClear dt r addr bytes s
  | .registerWrite dt r addr bytes data => Sys2Proof.Machine.execRegisterWrite dt r addr bytes data s
  | .devApertureWrite dt r data => Sys2Proof.Machine.execDevApertureWrite dt r data s
  | .bar4Access dt link off len wr => Sys2Proof.Machine.execBar4Access dt link off len wr s
  | .bar2Access dt link off len wr => Sys2Proof.Machine.execBar2Access dt link off len wr s
  | .measUpdate dt fj cells achieved compulsory hbm => Sys2Proof.Machine.execMeasUpdate dt fj cells achieved compulsory hbm s
  | .columnPowerGood dt c => Sys2Proof.Machine.execColumnPowerGood dt c s
  | .dllLock dt t => Sys2Proof.Machine.execDllLock dt t s
  | .dllLockTimeout dt t => Sys2Proof.Machine.execDllLockTimeout dt t s
  | .dllLockLoss dt t => Sys2Proof.Machine.execDllLockLoss dt t s
  | .linkSignalDetect dt l => Sys2Proof.Machine.execLinkSignalDetect dt l s
  | .cxpControlReply dt x => Sys2Proof.Machine.execCxpControlReply dt x s
  | .cxpControlTimeout dt x => Sys2Proof.Machine.execCxpControlTimeout dt x s
  | .linkLock dt c tdr => Sys2Proof.Machine.execLinkLock dt c tdr s
  | .linkLockTimeout dt c => Sys2Proof.Machine.execLinkLockTimeout dt c s
  | .linkLockLoss dt l => Sys2Proof.Machine.execLinkLockLoss dt l s
  | .connAbsentTimeout dt c => Sys2Proof.Machine.execConnAbsentTimeout dt c s
  | .heartbeat dt => Sys2Proof.Machine.execHeartbeat dt s
  | .cxpEventPacket dt c event data => Sys2Proof.Machine.execCxpEventPacket dt c event data s
  | .cxpCameraTriggerPacket dt c => Sys2Proof.Machine.execCxpCameraTriggerPacket dt c s
  | .lineReceived dt c stream width rows => Sys2Proof.Machine.execLineReceived dt c stream width rows s
  | .lineTimeout dt c => Sys2Proof.Machine.execLineTimeout dt c s
  | .tdrMeasure dt l => Sys2Proof.Machine.execTdrMeasure dt l s
  | .tdrComplete dt l m => Sys2Proof.Machine.execTdrComplete dt l m s
  | .encoderEdge dt u onB => Sys2Proof.Machine.execEncoderEdge dt u onB s
  | .encoderGlitch dt u onA onB => Sys2Proof.Machine.execEncoderGlitch dt u onA onB s
  | .posSuspectEnd dt u => Sys2Proof.Machine.execPosSuspectEnd dt u s
  | .encoderStopTimeout dt u => Sys2Proof.Machine.execEncoderStopTimeout dt u s
  | .odoCfgWrite dt r u v => Sys2Proof.Machine.execOdoCfgWrite dt r u v s
  | .odoTgCfgWrite dt r g v => Sys2Proof.Machine.execOdoTgCfgWrite dt r g v s
  | .triggerPlannedTime dt g => Sys2Proof.Machine.execTriggerPlannedTime dt g s
  | .segmentHoldTimeout dt c => Sys2Proof.Machine.execSegmentHoldTimeout dt c s
  | .odoSegCfgWrite dt r v => Sys2Proof.Machine.execOdoSegCfgWrite dt r v s
  | .ingResCfgWrite dt r c v => Sys2Proof.Machine.execIngResCfgWrite dt r c v s
  | .chainLineStart dt u => Sys2Proof.Machine.execChainLineStart dt u s
  | .noiseFit dt u => Sys2Proof.Machine.execNoiseFit dt u s
  | .refSlotWaitEnd dt u => Sys2Proof.Machine.execRefSlotWaitEnd dt u s
  | .refStagingWrite dt r u off data => Sys2Proof.Machine.execRefStagingWrite dt r u off data s
  | .refTabDataAccess dt r u wr => Sys2Proof.Machine.execRefTabDataAccess dt r u wr s
  | .tapReturnRow dt u e seg n ch row poison => Sys2Proof.Machine.execTapReturnRow dt u e seg n ch row poison s
  | .feederRow dt u e => Sys2Proof.Machine.execFeederRow dt u e s
  | .rowBusRow dt t e bad => Sys2Proof.Machine.execRowBusRow dt t e bad s
  | .meshPacketArrive dt t src bad ww => Sys2Proof.Machine.execMeshPacketArrive dt t src bad ww s
  | .scoreboardRetire dt t e => Sys2Proof.Machine.execScoreboardRetire dt t e s
  | .routeNop dt t => Sys2Proof.Machine.execRouteNop dt t s
  | .halt dt t => Sys2Proof.Machine.execHalt dt t s
  | .setg dt t => Sys2Proof.Machine.execSetg dt t s
  | .alu dt t => Sys2Proof.Machine.execAlu dt t s
  | .loop dt t => Sys2Proof.Machine.execLoop dt t s
  | .br dt t => Sys2Proof.Machine.execBr dt t s
  | .cfg dt t => Sys2Proof.Machine.execCfg dt t s
  | .ring dt t => Sys2Proof.Machine.execRing dt t s
  | .seed dt t => Sys2Proof.Machine.execSeed dt t s
  | .conv dt t => Sys2Proof.Machine.execConv dt t s
  | .mat dt t => Sys2Proof.Machine.execMat dt t s
  | .slip dt t => Sys2Proof.Machine.execSlip dt t s
  | .pool dt t => Sys2Proof.Machine.execPool dt t s
  | .ew dt t => Sys2Proof.Machine.execEw dt t s
  | .rq dt t => Sys2Proof.Machine.execRq dt t s
  | .clracc dt t => Sys2Proof.Machine.execClracc dt t s
  | .ldg dt t => Sys2Proof.Machine.execLdg dt t s
  | .stg dt t => Sys2Proof.Machine.execStg dt t s
  | .fill dt t => Sys2Proof.Machine.execFill dt t s
  | .copy dt t => Sys2Proof.Machine.execCopy dt t s
  | .tbl dt t => Sys2Proof.Machine.execTbl dt t s
  | .send dt t => Sys2Proof.Machine.execSend dt t s
  | .rbsend dt t => Sys2Proof.Machine.execRbsend dt t s
  | .catreq dt t => Sys2Proof.Machine.execCatreq dt t s
  | .sopen dt t => Sys2Proof.Machine.execSopen dt t s
  | .sget dt t => Sys2Proof.Machine.execSget dt t s
  | .srel dt t => Sys2Proof.Machine.execSrel dt t s
  | .sput dt t => Sys2Proof.Machine.execSput dt t s
  | .sclose dt t => Sys2Proof.Machine.execSclose dt t s
  | .giveway dt t => Sys2Proof.Machine.execGiveway dt t s
  | .convoy dt t => Sys2Proof.Machine.execConvoy dt t s
  | .arrive dt t => Sys2Proof.Machine.execArrive dt t s
  | .wait dt t => Sys2Proof.Machine.execWait dt t s
  | .softReset dt r t => Sys2Proof.Machine.execSoftReset dt r t s
  | .softResetComplete dt t => Sys2Proof.Machine.execSoftResetComplete dt t s
  | .rngLoad dt r t => Sys2Proof.Machine.execRngLoad dt r t s
  | .excClr dt r t => Sys2Proof.Machine.execExcClr dt r t s
  | .haltReq dt r t => Sys2Proof.Machine.execHaltReq dt r t s
  | .tileRateWindow dt w => Sys2Proof.Machine.execTileRateWindow dt w s
  | .tileSenseConvert dt t temp volt => Sys2Proof.Machine.execTileSenseConvert dt t temp volt s
  | .tileDbgDataAccess dt r t wr => Sys2Proof.Machine.execTileDbgDataAccess dt r t wr s
  | .tileMapWrite dt r t i_ data => Sys2Proof.Machine.execTileMapWrite dt r t i_ data s
  | .taskDispatch dt u e lines => Sys2Proof.Machine.execTaskDispatch dt u e lines s
  | .runReset dt u e => Sys2Proof.Machine.execRunReset dt u e s
  | .detourCopyComplete dt u e lines => Sys2Proof.Machine.execDetourCopyComplete dt u e lines s
  | .seamSendWaitEnd dt u => Sys2Proof.Machine.execSeamSendWaitEnd dt u s
  | .exportRowReceived dt port splice seg idx row => Sys2Proof.Machine.execExportRowReceived dt port splice seg idx row s
  | .streamRequestIssue dt k => Sys2Proof.Machine.execStreamRequestIssue dt k s
  | .streamReadComplete dt k z => Sys2Proof.Machine.execStreamReadComplete dt k z s
  | .streamWritePulled dt k z => Sys2Proof.Machine.execStreamWritePulled dt k z s
  | .deadlineMiss dt x near => Sys2Proof.Machine.execDeadlineMiss dt x near s
  | .catRequestStart dt => Sys2Proof.Machine.execCatRequestStart dt s
  | .catRequestComplete dt i_ => Sys2Proof.Machine.execCatRequestComplete dt i_ s
  | .catVoidWrite dt r v => Sys2Proof.Machine.execCatVoidWrite dt r v s
  | .msArrivalApply dt path => Sys2Proof.Machine.execMsArrivalApply dt path s
  | .msRegisterSet dt r k m v => Sys2Proof.Machine.execMsRegisterSet dt r k m v s
  | .msArriveWrite dt r m v => Sys2Proof.Machine.execMsArriveWrite dt r m v s
  | .txPrepared dt t => Sys2Proof.Machine.execTxPrepared dt t s
  | .commitSignalArrive dt t => Sys2Proof.Machine.execCommitSignalArrive dt t s
  | .sysPrepareMsg dt src sysid b => Sys2Proof.Machine.execSysPrepareMsg dt src sysid b s
  | .sysVoteReply dt src sysid refused => Sys2Proof.Machine.execSysVoteReply dt src sysid refused s
  | .sysVoteClose dt sysid => Sys2Proof.Machine.execSysVoteClose dt sysid s
  | .sysGoMsg dt src sysid => Sys2Proof.Machine.execSysGoMsg dt src sysid s
  | .sysAbortMsg dt src sysid => Sys2Proof.Machine.execSysAbortMsg dt src sysid s
  | .sysDoneMsg dt src sysid committed => Sys2Proof.Machine.execSysDoneMsg dt src sysid committed s
  | .tallySnapshot dt viol => Sys2Proof.Machine.execTallySnapshot dt viol s
  | .depBankOwnerWrite dt r v => Sys2Proof.Machine.execDepBankOwnerWrite dt r v s
  | .dmaStart dt r c => Sys2Proof.Machine.execDmaStart dt r c s
  | .dmaStop dt r c => Sys2Proof.Machine.execDmaStop dt r c s
  | .dmaKill dt r c => Sys2Proof.Machine.execDmaKill dt r c s
  | .dmaClrErr dt r c => Sys2Proof.Machine.execDmaClrErr dt r c s
  | .dmaBeat dt l wrFirst host => Sys2Proof.Machine.execDmaBeat dt l wrFirst host s
  | .dmaDescriptorComplete dt c => Sys2Proof.Machine.execDmaDescriptorComplete dt c s
  | .dmaNextFetched dt c => Sys2Proof.Machine.execDmaNextFetched dt c s
  | .eventPulseRoute dt => Sys2Proof.Machine.execEventPulseRoute dt s
  | .dmaTimerPulse dt t => Sys2Proof.Machine.execDmaTimerPulse dt t s
  | .sqTailDoorbell dt r q v => Sys2Proof.Machine.execSqTailDoorbell dt r q v s
  | .cqHeadDoorbell dt r q v => Sys2Proof.Machine.execCqHeadDoorbell dt r q v s
  | .qCfgWrite dt r q v => Sys2Proof.Machine.execQCfgWrite dt r q v s
  | .sqFetchComplete dt q x => Sys2Proof.Machine.execSqFetchComplete dt q x s
  | .commandDatagram dt p mac src sport b => Sys2Proof.Machine.execCommandDatagram dt p mac src sport b s
  | .egressRecord dt x => Sys2Proof.Machine.execEgressRecord dt x s
  | .egressTailReport dt r => Sys2Proof.Machine.execEgressTailReport dt r s
  | .egrHeadWrite dt r k v => Sys2Proof.Machine.execEgrHeadWrite dt r k v s
  | .nop dt h p => Sys2Proof.Machine.execNop dt h p s
  | .devInfo dt h p => Sys2Proof.Machine.execDevInfo dt h p s
  | .devTime dt h p => Sys2Proof.Machine.execDevTime dt h p s
  | .modelLoad dt h p x pkg => Sys2Proof.Machine.execModelLoad dt h p x pkg s
  | .modelInfo dt h p => Sys2Proof.Machine.execModelInfo dt h p s
  | .modelUnload dt h p => Sys2Proof.Machine.execModelUnload dt h p s
  | .connInfo dt h p => Sys2Proof.Machine.execConnInfo dt h p s
  | .cxpCtrl dt h p => Sys2Proof.Machine.execCxpCtrl dt h p s
  | .ringSetup dt h p => Sys2Proof.Machine.execRingSetup dt h p s
  | .txOpen dt h p => Sys2Proof.Machine.execTxOpen dt h p s
  | .txAdd dt h p => Sys2Proof.Machine.execTxAdd dt h p s
  | .txPrepare dt h p => Sys2Proof.Machine.execTxPrepare dt h p s
  | .txAbort dt h p => Sys2Proof.Machine.execTxAbort dt h p s
  | .txStatus dt h p => Sys2Proof.Machine.execTxStatus dt h p s
  | .txSysPrepare dt h p => Sys2Proof.Machine.execTxSysPrepare dt h p s
  | .msArrive dt h p => Sys2Proof.Machine.execMsArrive dt h p s
  | .msSet dt h p => Sys2Proof.Machine.execMsSet dt h p s
  | .msAdvance dt h p => Sys2Proof.Machine.execMsAdvance dt h p s
  | .msRead dt h p => Sys2Proof.Machine.execMsRead dt h p s
  | .msWait dt h p => Sys2Proof.Machine.execMsWait dt h p s
  | .msWaitTimeout dt h => Sys2Proof.Machine.execMsWaitTimeout dt h s
  | .pwrDevice dt h p => Sys2Proof.Machine.execPwrDevice dt h p s
  | .pwrPolicy dt h p x => Sys2Proof.Machine.execPwrPolicy dt h p x s
  | .pwrRead dt h p mw ma => Sys2Proof.Machine.execPwrRead dt h p mw ma s
  | .calRun dt h p iref => Sys2Proof.Machine.execCalRun dt h p iref s
  | .calRead dt h p => Sys2Proof.Machine.execCalRead dt h p s
  | .svcTestColumn dt h p => Sys2Proof.Machine.execSvcTestColumn dt h p s
  | .svcMoveConn dt h p => Sys2Proof.Machine.execSvcMoveConn dt h p s
  | .svcRetirePage dt h p dst => Sys2Proof.Machine.execSvcRetirePage dt h p dst s
  | .svcShoulder dt h p => Sys2Proof.Machine.execSvcShoulder dt h p s
  | .svcReport dt h p => Sys2Proof.Machine.execSvcReport dt h p s
  | .logRead dt h p => Sys2Proof.Machine.execLogRead dt h p s
  | .logMark dt h p => Sys2Proof.Machine.execLogMark dt h p s
  | .updWrite dt h p x => Sys2Proof.Machine.execUpdWrite dt h p x s
  | .updVerify dt h p => Sys2Proof.Machine.execUpdVerify dt h p s
  | .updSwitch dt h p => Sys2Proof.Machine.execUpdSwitch dt h p s
  | .catRequest dt h p => Sys2Proof.Machine.execCatRequest dt h p s
  | .catVoid dt h p => Sys2Proof.Machine.execCatVoid dt h p s
  | .netStatus dt h p => Sys2Proof.Machine.execNetStatus dt h p s
  | .netConfig dt h p x => Sys2Proof.Machine.execNetConfig dt h p x s
  | .plbCensus dt h p => Sys2Proof.Machine.execPlbCensus dt h p s
  | .secKeySet dt h p x => Sys2Proof.Machine.execSecKeySet dt h p x s
  | .secDbgChallenge dt h p => Sys2Proof.Machine.execSecDbgChallenge dt h p s
  | .secDbgUnlock dt h p x => Sys2Proof.Machine.execSecDbgUnlock dt h p x s
  | .perstAssert dt => Sys2Proof.Machine.execPerstAssert dt s
  | .ethFrameReceived dt p f => Sys2Proof.Machine.execEthFrameReceived dt p f s
  | .arpRetry dt p ip => Sys2Proof.Machine.execArpRetry dt p ip s
  | .ptpMessage dt p udp m => Sys2Proof.Machine.execPtpMessage dt p udp m s
  | .ptpAnnounceTimeout dt => Sys2Proof.Machine.execPtpAnnounceTimeout dt s
  | .rsFlushTimeout dt k => Sys2Proof.Machine.execRsFlushTimeout dt k s
  | .netRsCfgWrite dt r k v => Sys2Proof.Machine.execNetRsCfgWrite dt r k v s
  | .netGvCfgWrite dt r c v => Sys2Proof.Machine.execNetGvCfgWrite dt r c v s
  | .plantEventDatagram dt p mac b => Sys2Proof.Machine.execPlantEventDatagram dt p mac b s
  | .speedHintCheck dt => Sys2Proof.Machine.execSpeedHintCheck dt s
  | .speedHintExpire dt => Sys2Proof.Machine.execSpeedHintExpire dt s
  | .plbFrameReceived dt b node f => Sys2Proof.Machine.execPlbFrameReceived dt b node f s
  | .plbCollision dt b attempt again => Sys2Proof.Machine.execPlbCollision dt b attempt again s
  | .plbBeaconTimeout dt b fifty => Sys2Proof.Machine.execPlbBeaconTimeout dt b fifty s
  | .plbBeaconReceived dt b cnt => Sys2Proof.Machine.execPlbBeaconReceived dt b cnt s
  | .quarantineExpire dt p mac => Sys2Proof.Machine.execQuarantineExpire dt p mac s
  | .flitReceived dt j f => Sys2Proof.Machine.execFlitReceived dt j f s
  | .flitReplayTimeout dt j => Sys2Proof.Machine.execFlitReplayTimeout dt j s
  | .jctCfgWrite dt r j v => Sys2Proof.Machine.execJctCfgWrite dt r j v s
  | .jctHello dt j devnum sysid major lanes cr0 cr1 => Sys2Proof.Machine.execJctHello dt j devnum sysid major lanes cr0 cr1 s
  | .laneFailure dt j mask => Sys2Proof.Machine.execLaneFailure dt j mask s
  | .laneDropReceived dt j mask => Sys2Proof.Machine.execLaneDropReceived dt j mask s
  | .laneRetrainTimeout dt j => Sys2Proof.Machine.execLaneRetrainTimeout dt j s
  | .jctControlMessage dt j m => Sys2Proof.Machine.execJctControlMessage dt j m s
  | .jctTimeSend dt j => Sys2Proof.Machine.execJctTimeSend dt j s
  | .positionSend dt => Sys2Proof.Machine.execPositionSend dt s
  | .positionMessage dt time unsync vals => Sys2Proof.Machine.execPositionMessage dt time unsync vals s
  | .jctAlignWrite dt r v => Sys2Proof.Machine.execJctAlignWrite dt r v s
  | .alignTimeout dt u => Sys2Proof.Machine.execAlignTimeout dt u s
  | .scrubRead dt x ue scrub reg dst pass => Sys2Proof.Machine.execScrubRead dt x ue scrub reg dst pass s
  | .rasHoldWrite dt r h v => Sys2Proof.Machine.execRasHoldWrite dt r h v s
  | .rasHoldTimeout dt h => Sys2Proof.Machine.execRasHoldTimeout dt h s
  | .bistComplete dt res unitFail => Sys2Proof.Machine.execBistComplete dt res unitFail s
  | .substSwitch dt k => Sys2Proof.Machine.execSubstSwitch dt k s
  | .substCopyComplete dt k => Sys2Proof.Machine.execSubstCopyComplete dt k s
  | .rasPmigWrite dt r v => Sys2Proof.Machine.execRasPmigWrite dt r v s
  | .domainReady dt d ref iref => Sys2Proof.Machine.execDomainReady dt d ref iref s
  | .tollRefill dt => Sys2Proof.Machine.execTollRefill dt s
  | .pwrDstateWrite dt r data => Sys2Proof.Machine.execPwrDstateWrite dt r data s
  | .trimComplete dt c => Sys2Proof.Machine.execTrimComplete dt c s
  | .thermalStepDown dt c => Sys2Proof.Machine.execThermalStepDown dt c s
  | .thermalStepUp dt c => Sys2Proof.Machine.execThermalStepUp dt c s
  | .thermalTrip dt => Sys2Proof.Machine.execThermalTrip dt s
  | .overcurrent dt => Sys2Proof.Machine.execOvercurrent dt s
  | .halvingEnd dt still => Sys2Proof.Machine.execHalvingEnd dt still s
  | .wakeNLow dt => Sys2Proof.Machine.execWakeNLow dt s
  | .perstNRise dt => Sys2Proof.Machine.execPerstNRise dt s
  | .i3cAddressMatch dt addr => Sys2Proof.Machine.execI3cAddressMatch dt addr s
  | .aonTimerMatch dt => Sys2Proof.Machine.execAonTimerMatch dt s
  | .railFailure dt rail => Sys2Proof.Machine.execRailFailure dt rail s
  | .railGood dt rail => Sys2Proof.Machine.execRailGood dt rail s
  | .wakeRailTimeout dt => Sys2Proof.Machine.execWakeRailTimeout dt s
  | .aonPowerUp dt unread => Sys2Proof.Machine.execAonPowerUp dt unread s
  | .sysReset dt unread => Sys2Proof.Machine.execSysReset dt unread s
  | .refclkLoss dt => Sys2Proof.Machine.execRefclkLoss dt s
  | .refclkGlitch dt => Sys2Proof.Machine.execRefclkGlitch dt s
  | .refclkHoldoverTimeout dt => Sys2Proof.Machine.execRefclkHoldoverTimeout dt s
  | .refclkRelock dt => Sys2Proof.Machine.execRefclkRelock dt s
  | .refclkReturn dt => Sys2Proof.Machine.execRefclkReturn dt s
  | .clkMcWrite dt r data => Sys2Proof.Machine.execClkMcWrite dt r data s
  | .calDue dt item inst temp iref => Sys2Proof.Machine.execCalDue dt item inst temp iref s
  | .calTrigWrite dt r data iref => Sys2Proof.Machine.execCalTrigWrite dt r data iref s
  | .calMeasurement dt item inst code conf temp => Sys2Proof.Machine.execCalMeasurement dt item inst code conf temp s
  | .calSwapComplete dt item inst => Sys2Proof.Machine.execCalSwapComplete dt item inst s
  | .calHoldTimeout dt item inst => Sys2Proof.Machine.execCalHoldTimeout dt item inst s
  | .pairFault dt p cause => Sys2Proof.Machine.execPairFault dt p cause s
  | .pairRestore dt p res => Sys2Proof.Machine.execPairRestore dt p res s
  | .standbyCheck dt ok => Sys2Proof.Machine.execStandbyCheck dt ok s
  | .bsenseAverage dt n raw => Sys2Proof.Machine.execBsenseAverage dt n raw s
  | .logMirror dt => Sys2Proof.Machine.execLogMirror dt s
  | .fwFloorCommit dt => Sys2Proof.Machine.execFwFloorCommit dt s
  | .debugScopeExpire dt => Sys2Proof.Machine.execDebugScopeExpire dt s
  | .slewProbeEnd dt trec => Sys2Proof.Machine.execSlewProbeEnd dt trec s
  | .regRead64High dt r addr => Sys2Proof.Machine.execRegRead64High dt r addr s
  | .waymarkRecordRead dt r i_ mis lost => Sys2Proof.Machine.execWaymarkRecordRead dt r i_ mis lost s
  | .ethLinkUp dt p speed fec page abil => Sys2Proof.Machine.execEthLinkUp dt p speed fec page abil s
  | .ethLinkLoss dt p => Sys2Proof.Machine.execEthLinkLoss dt p s
  | .laneTrainingComplete dt j ok => Sys2Proof.Machine.execLaneTrainingComplete dt j ok s
  | .laneWidening dt j => Sys2Proof.Machine.execLaneWidening dt j s
  | .pcieCompletionTimeout dt x => Sys2Proof.Machine.execPcieCompletionTimeout dt x s
  | .pcieConfigRequest dt => Sys2Proof.Machine.execPcieConfigRequest dt s
  | .mcWakeRequest dt => Sys2Proof.Machine.execMcWakeRequest dt s
  | .railExcursion dt rail => Sys2Proof.Machine.execRailExcursion dt rail s
  | .currentAboveCap dt => Sys2Proof.Machine.execCurrentAboveCap dt s
  | .domainSwitchedOff dt d => Sys2Proof.Machine.execDomainSwitchedOff dt d s
  | .hbmTrainingComplete dt k fail => Sys2Proof.Machine.execHbmTrainingComplete dt k fail s
  | .bootRomVerifyComplete dt cal rep pol key iref => Sys2Proof.Machine.execBootRomVerifyComplete dt cal rep pol key iref s
  | .testRotationDue dt i_ => Sys2Proof.Machine.execTestRotationDue dt i_ s
  | .hbmPseudoChannelFault dt k pc => Sys2Proof.Machine.execHbmPseudoChannelFault dt k pc s
  | .aonSelfCheckMismatch dt => Sys2Proof.Machine.execAonSelfCheckMismatch dt s

end Sys2Proof.Machine
end

