-- ==== Sys2Proof/Machine/Step.lean ====
section
/-! DEFINITION. One step: the command at the front of the queue is executed; on an empty queue the block idles. -/
namespace Sys2Proof.Machine

/-- Take the command at the front of the queue and execute it with the queue's rest; idle on an empty queue (a DESIGN
CHOICE of the assumption log: nothing is driven by time but through commands). -/
def step (s : State) : Host.Outcome State Fault Refusal :=
  match s.pending with
  | [] => .next s
  | i :: is => exec i { s with pending := is }

/-- `s` with the command that a word spells in front of its queue; `s` where the word spells none. -/
def State.withFetchWord (s : State) (nbits w : Nat) : State :=
  match decodeTableWord nbits w with
  | some i => { s with pending := i :: s.pending }
  | none => s

end Sys2Proof.Machine
end

