-- ==== Sys2Proof/WellFormed.lean ====
section
/-! DEFINITION. Which commands are well formed: the relations among the operands that their types do not state. -/
namespace Sys2Proof

/-- A BAR0 access lies in the 64 MiB of BAR0 (R31) and has 1 to 8 bytes. -/
def wfReg (addr bytes : Nat) : Bool := decide (1 ≤ bytes ∧ bytes ≤ 8 ∧ addr + bytes ≤ 0x4000000)

/-- A BAR2 or BAR4 request has 1 to 4,096 bytes within its BAR, and a write carries as many (R33, R34, R354). -/
def wfBar (off len : Nat) (wr : Option (List Byte)) (size : Nat) : Bool :=
  decide (1 ≤ len ∧ len ≤ 4096 ∧ off + len ≤ size) && (match wr with | some b => decide (b.length = len) | none => true)

/-- A command header fits its bytes (R359). -/
def wfHdr (h : CmdHdr) : Bool :=
  decide (h.opcode < 65536 ∧ h.flags < 256 ∧ h.tag < 256 ∧ h.sqHead < 4096) &&
  (match h.src with | .net _ _ _ port => decide (port < 65536) | _ => true)

/-- A command packet has fourteen parameter words (R359). -/
def wfPkt (h : CmdHdr) (p : List Word) : Bool := wfHdr h && decide (p.length = 14)

/-- A host buffer brings at most `n` bytes. -/
def wfBuf (n : Nat) (x : HostBuf) : Bool := match x with | .bytes b => decide (b.length ≤ n) | .error => true

/-- A lost PCIe request names a packet of fourteen words. -/
def wfWait (x : PcieWait) : Bool := match x with | .buffer h p => wfPkt h p | _ => true

/-- A MAC address has 48 bits. -/
def wfMac (mac : Nat) : Bool := decide (mac < 2 ^ 48)

/-- A cable measurement fits its fields (R56). -/
def wfTdr (m : TdrMeas) : Bool := decide (m.kind < 16 ∧ m.loss < 256)

/-- A control reply: a register value of 32 bits, or at most 16 bytes of read data (R365). -/
def wfReply (x : CtlReply) : Bool :=
  match x with
  | .link _ v _ => decide (v < 2 ^ 32)
  | .conn _ v => decide (v < 2 ^ 32)
  | .pass _ ack data => decide (ack < 2 ^ 32 ∧ data.length ≤ 16)

/-- Pixels have 16 bits (R75). -/
def wfRows (rows : List (List Nat)) : Bool := rows.all fun r => r.all fun v => decide (v < 65536)

/-- A record fits its header (R373). -/
def wfRec (x : EgrRec) : Bool :=
  decide (x.type < 8 ∧ x.conn < 256 ∧ x.flags < 65536 ∧ x.splice < 256 ∧ x.stamp.seg < 2 ^ 64 ∧ x.stamp.line < 2 ^ 32 ∧ x.stamp.time < 2 ^ 64)

/-- A PTP message names a domain of 0 to 127 (R382, R409). -/
def wfPtp (m : PtpMsg) : Bool :=
  match m with
  | .announce d _ => decide (d < 128)
  | .sync d _ n _ _ _ => decide (d < 128 ∧ n < 65536)
  | .followUp d _ n _ _ => decide (d < 128 ∧ n < 65536)
  | .delayResp d _ n _ _ => decide (d < 128 ∧ n < 65536)

/-- A frame's addresses and ports fit (R379). -/
def wfFrame (f : NetFrame) : Bool :=
  wfMac f.mac && (match f.vid with | some v => decide (v < 4096) | none => true) &&
  (match f.pay with
  | .arp op ip mac target => decide (op < 65536 ∧ ip < 2 ^ 32 ∧ target < 2 ^ 32) && wfMac mac
  | .echo src dst _ => decide (src < 2 ^ 32 ∧ dst < 2 ^ 32)
  | .udp src dst sport dport _ => decide (src < 2 ^ 32 ∧ dst < 2 ^ 32 ∧ sport < 65536 ∧ dport < 65536)
  | .gvsp src dst dport _ => decide (src < 2 ^ 32 ∧ dst < 2 ^ 32 ∧ dport < 65536)
  | .ptp _ m => wfPtp m
  | .pause => true
  | .fragment => true
  | .other => true)

/-- A control message names devices and values of its fields (R296, R404). -/
def wfCtl (m : CtlMsg) : Bool :=
  decide (m.src < 256 ∧ m.dest < 256) &&
  (match m.body with
  | .prepare y b => decide (y < 65536 ∧ b < 2 ^ 64)
  | .ready y => decide (y < 65536)
  | .refuse y c => decide (y < 65536 ∧ c < 65536)
  | .go y => decide (y < 65536)
  | .abort y => decide (y < 65536)
  | .done y _ => decide (y < 65536)
  | .position t _ vals => decide (t < 2 ^ 64 ∧ vals.length ≤ 4))

/-- A flit's fields fit its 64 bytes (R398). -/
def wfFlit (f : Flit) : Bool :=
  decide (f.vc < 4 ∧ f.kind < 4 ∧ f.seq < 4096 ∧ f.ack < 4096 ∧ f.crVc < 2 ∧ f.crCum < 256 ∧ f.crc < 2 ^ 24) &&
  (match f.pay with | .bytes b => decide (b.length = 56) | .msg (.ctl m) => wfCtl m | .msg _ => true)

/-- Members of each calibrated item (R468). -/
def calMembers (item : Fin 9) : Nat := [100, 100, 256, 256, 1104, 1145, 39, 4, 1].getD item.val 0
/-- A member exists in its item. -/
def wfCal (item : Fin 9) (inst : Nat) : Bool := decide (inst < calMembers item)

/-- Is a command well formed. -/
def Instr.wellFormed : Instr → Bool
  | .regRead64Low _ _ addr bytes => wfReg addr bytes
  | .regWrite64High _ _ addr _ => wfReg addr 4
  | .regReadClear _ _ addr bytes => wfReg addr bytes
  | .registerWrite _ _ addr bytes data => wfReg addr bytes && decide (data.toNat < 2 ^ (8 * bytes))
  | .devApertureWrite _ _ _ => true
  | .bar4Access _ _ off len wr => wfBar off len wr (2 ^ 30)
  | .bar2Access _ _ off len wr => wfBar off len wr (2 ^ 27)
  | .measUpdate _ _ _ _ _ hbm => decide (hbm.length = 4)
  | .columnPowerGood _ _ => true
  | .dllLock _ _ => true
  | .dllLockTimeout _ _ => true
  | .dllLockLoss _ _ => true
  | .linkSignalDetect _ _ => true
  | .cxpControlReply _ x => wfReply x
  | .cxpControlTimeout _ _ => true
  | .linkLock _ _ tdr => tdr.all wfTdr
  | .linkLockTimeout _ _ => true
  | .linkLockLoss _ _ => true
  | .connAbsentTimeout _ _ => true
  | .heartbeat _ => true
  | .cxpEventPacket _ _ _ data => decide (data.length ≤ 1024)
  | .cxpCameraTriggerPacket _ _ => true
  | .lineReceived _ _ stream width rows => wfRows rows && decide (stream < 256 ∧ width < 65536)
  | .lineTimeout _ _ => true
  | .tdrMeasure _ _ => true
  | .tdrComplete _ _ m => wfTdr m
  | .encoderEdge _ _ _ => true
  | .encoderGlitch _ _ _ _ => true
  | .posSuspectEnd _ _ => true
  | .encoderStopTimeout _ _ => true
  | .odoCfgWrite _ _ _ _ => true
  | .odoTgCfgWrite _ _ _ _ => true
  | .triggerPlannedTime _ _ => true
  | .segmentHoldTimeout _ _ => true
  | .odoSegCfgWrite _ _ _ => true
  | .ingResCfgWrite _ _ _ _ => true
  | .chainLineStart _ _ => true
  | .noiseFit _ _ => true
  | .refSlotWaitEnd _ _ => true
  | .refStagingWrite _ _ _ _ _ => true
  | .refTabDataAccess _ _ _ _ => true
  | .tapReturnRow _ _ _ seg n ch _ _ => decide (seg < 2 ^ 56 ∧ n < 65536 ∧ ch < 8)
  | .feederRow _ _ _ => true
  | .rowBusRow _ _ _ _ => true
  | .meshPacketArrive _ _ _ _ _ => true
  | .scoreboardRetire _ _ _ => true
  | .routeNop _ _ => true
  | .halt _ _ => true
  | .setg _ _ => true
  | .alu _ _ => true
  | .loop _ _ => true
  | .br _ _ => true
  | .cfg _ _ => true
  | .ring _ _ => true
  | .seed _ _ => true
  | .conv _ _ => true
  | .mat _ _ => true
  | .slip _ _ => true
  | .pool _ _ => true
  | .ew _ _ => true
  | .rq _ _ => true
  | .clracc _ _ => true
  | .ldg _ _ => true
  | .stg _ _ => true
  | .fill _ _ => true
  | .copy _ _ => true
  | .tbl _ _ => true
  | .send _ _ => true
  | .rbsend _ _ => true
  | .catreq _ _ => true
  | .sopen _ _ => true
  | .sget _ _ => true
  | .srel _ _ => true
  | .sput _ _ => true
  | .sclose _ _ => true
  | .giveway _ _ => true
  | .convoy _ _ => true
  | .arrive _ _ => true
  | .wait _ _ => true
  | .softReset _ _ _ => true
  | .softResetComplete _ _ => true
  | .rngLoad _ _ _ => true
  | .excClr _ _ _ => true
  | .haltReq _ _ _ => true
  | .tileRateWindow _ w => w.all fun q => decide (q.2.1 ≤ q.2.2)
  | .tileSenseConvert _ _ temp volt => decide (-2048 ≤ temp ∧ temp < 2048 ∧ 0 ≤ volt ∧ volt < 4096)
  | .tileDbgDataAccess _ _ _ _ => true
  | .tileMapWrite _ _ _ _ _ => true
  | .taskDispatch _ _ _ _ => true
  | .runReset _ _ _ => true
  | .detourCopyComplete _ _ _ _ => true
  | .seamSendWaitEnd _ _ => true
  | .exportRowReceived _ _ _ seg idx _ => decide (seg < 2 ^ 56 ∧ idx < 65536)
  | .streamRequestIssue _ _ => true
  | .streamReadComplete _ _ _ => true
  | .streamWritePulled _ _ _ => true
  | .deadlineMiss _ _ _ => true
  | .catRequestStart _ => true
  | .catRequestComplete _ _ => true
  | .catVoidWrite _ _ _ => true
  | .msArrivalApply _ _ => true
  | .msRegisterSet _ _ _ _ _ => true
  | .msArriveWrite _ _ _ _ => true
  | .txPrepared _ _ => true
  | .commitSignalArrive _ _ => true
  | .sysPrepareMsg _ _ _ _ => true
  | .sysVoteReply _ _ _ _ => true
  | .sysVoteClose _ _ => true
  | .sysGoMsg _ _ _ => true
  | .sysAbortMsg _ _ _ => true
  | .sysDoneMsg _ _ _ _ => true
  | .tallySnapshot _ _ => true
  | .depBankOwnerWrite _ _ _ => true
  | .dmaStart _ _ _ => true
  | .dmaStop _ _ _ => true
  | .dmaKill _ _ _ => true
  | .dmaClrErr _ _ _ => true
  | .dmaBeat _ _ _ host => wfBuf 4096 host
  | .dmaDescriptorComplete _ _ => true
  | .dmaNextFetched _ _ => true
  | .eventPulseRoute _ => true
  | .dmaTimerPulse _ _ => true
  | .sqTailDoorbell _ _ _ _ => true
  | .cqHeadDoorbell _ _ _ _ => true
  | .qCfgWrite _ _ _ _ => true
  | .sqFetchComplete _ _ x => wfBuf 1024 x
  | .commandDatagram _ _ mac _ sport b => wfMac mac && decide (sport < 65536 ∧ b.length ≤ 8972)
  | .egressRecord _ x => wfRec x
  | .egressTailReport _ _ => true
  | .egrHeadWrite _ _ _ _ => true
  | .nop _ h p => wfPkt h p
  | .devInfo _ h p => wfPkt h p
  | .devTime _ h p => wfPkt h p
  | .modelLoad _ h p x _ => wfPkt h p && wfBuf 4294967296 x
  | .modelInfo _ h p => wfPkt h p
  | .modelUnload _ h p => wfPkt h p
  | .connInfo _ h p => wfPkt h p
  | .cxpCtrl _ h p => wfPkt h p
  | .ringSetup _ h p => wfPkt h p
  | .txOpen _ h p => wfPkt h p
  | .txAdd _ h p => wfPkt h p
  | .txPrepare _ h p => wfPkt h p
  | .txAbort _ h p => wfPkt h p
  | .txStatus _ h p => wfPkt h p
  | .txSysPrepare _ h p => wfPkt h p
  | .msArrive _ h p => wfPkt h p
  | .msSet _ h p => wfPkt h p
  | .msAdvance _ h p => wfPkt h p
  | .msRead _ h p => wfPkt h p
  | .msWait _ h p => wfPkt h p
  | .msWaitTimeout _ h => wfHdr h
  | .pwrDevice _ h p => wfPkt h p
  | .pwrPolicy _ h p x => wfPkt h p && wfBuf 4294967296 x
  | .pwrRead _ h p _ _ => wfPkt h p
  | .calRun _ h p _ => wfPkt h p
  | .calRead _ h p => wfPkt h p
  | .svcTestColumn _ h p => wfPkt h p
  | .svcMoveConn _ h p => wfPkt h p
  | .svcRetirePage _ h p _ => wfPkt h p
  | .svcShoulder _ h p => wfPkt h p
  | .svcReport _ h p => wfPkt h p
  | .logRead _ h p => wfPkt h p
  | .logMark _ h p => wfPkt h p
  | .updWrite _ h p x => wfPkt h p && wfBuf 1048576 x
  | .updVerify _ h p => wfPkt h p
  | .updSwitch _ h p => wfPkt h p
  | .catRequest _ h p => wfPkt h p
  | .catVoid _ h p => wfPkt h p
  | .netStatus _ h p => wfPkt h p
  | .netConfig _ h p x => wfPkt h p && wfBuf 4096 x
  | .plbCensus _ h p => wfPkt h p
  | .secKeySet _ h p x => wfPkt h p && wfBuf 65536 x
  | .secDbgChallenge _ h p => wfPkt h p
  | .secDbgUnlock _ h p x => wfPkt h p && wfBuf 65536 x
  | .perstAssert _ => true
  | .ethFrameReceived _ _ f => wfFrame f
  | .arpRetry _ _ _ => true
  | .ptpMessage _ _ _ m => wfPtp m
  | .ptpAnnounceTimeout _ => true
  | .rsFlushTimeout _ _ => true
  | .netRsCfgWrite _ _ _ _ => true
  | .netGvCfgWrite _ _ _ _ => true
  | .plantEventDatagram _ _ mac b => wfMac mac && decide (b.length ≤ 8972)
  | .speedHintCheck _ => true
  | .speedHintExpire _ => true
  | .plbFrameReceived _ _ _ f => wfFrame f
  | .plbCollision _ _ _ _ => true
  | .plbBeaconTimeout _ _ _ => true
  | .plbBeaconReceived _ _ _ => true
  | .quarantineExpire _ _ mac => wfMac mac
  | .flitReceived _ _ f => wfFlit f
  | .flitReplayTimeout _ _ => true
  | .jctCfgWrite _ _ _ _ => true
  | .jctHello _ _ _ _ major lanes cr0 cr1 => decide (major < 256 ∧ lanes ≤ 4 ∧ cr0 < 65536 ∧ cr1 < 65536)
  | .laneFailure _ _ _ => true
  | .laneDropReceived _ _ _ => true
  | .laneRetrainTimeout _ _ => true
  | .jctControlMessage _ _ m => wfCtl m
  | .jctTimeSend _ _ => true
  | .positionSend _ => true
  | .positionMessage _ time _ vals => decide (time < 2 ^ 64 ∧ vals.length ≤ 4)
  | .jctAlignWrite _ _ _ => true
  | .alignTimeout _ _ => true
  | .scrubRead _ _ _ _ _ _ _ => true
  | .rasHoldWrite _ _ _ _ => true
  | .rasHoldTimeout _ _ => true
  | .bistComplete _ _ _ => true
  | .substSwitch _ _ => true
  | .substCopyComplete _ _ => true
  | .rasPmigWrite _ _ _ => true
  | .domainReady _ _ _ _ => true
  | .tollRefill _ => true
  | .pwrDstateWrite _ _ _ => true
  | .trimComplete _ _ => true
  | .thermalStepDown _ _ => true
  | .thermalStepUp _ _ => true
  | .thermalTrip _ => true
  | .overcurrent _ => true
  | .halvingEnd _ _ => true
  | .wakeNLow _ => true
  | .perstNRise _ => true
  | .i3cAddressMatch _ _ => true
  | .aonTimerMatch _ => true
  | .railFailure _ _ => true
  | .railGood _ _ => true
  | .wakeRailTimeout _ => true
  | .aonPowerUp _ _ => true
  | .sysReset _ _ => true
  | .refclkLoss _ => true
  | .refclkGlitch _ => true
  | .refclkHoldoverTimeout _ => true
  | .refclkRelock _ => true
  | .refclkReturn _ => true
  | .clkMcWrite _ _ _ => true
  | .calDue _ item inst _ _ => wfCal item inst
  | .calTrigWrite _ _ _ _ => true
  | .calMeasurement _ item inst _ _ _ => wfCal item inst
  | .calSwapComplete _ item inst => wfCal item inst
  | .calHoldTimeout _ item inst => wfCal item inst
  | .pairFault _ _ _ => true
  | .pairRestore _ _ _ => true
  | .standbyCheck _ _ => true
  | .bsenseAverage _ _ raw => decide (raw < 65536)
  | .logMirror _ => true
  | .fwFloorCommit _ => true
  | .debugScopeExpire _ => true
  | .slewProbeEnd _ _ => true
  | .regRead64High _ _ addr => wfReg addr 4
  | .waymarkRecordRead _ _ _ _ _ => true
  | .ethLinkUp _ _ _ _ page _ => decide (page < 2 ^ 48)
  | .ethLinkLoss _ _ => true
  | .laneTrainingComplete _ _ _ => true
  | .laneWidening _ _ => true
  | .pcieCompletionTimeout _ x => wfWait x
  | .pcieConfigRequest _ => true
  | .mcWakeRequest _ => true
  | .railExcursion _ _ => true
  | .currentAboveCap _ => true
  | .domainSwitchedOff _ _ => true
  | .hbmTrainingComplete _ _ _ => true
  | .bootRomVerifyComplete _ _ _ _ _ _ => true
  | .testRotationDue _ _ => true
  | .hbmPseudoChannelFault _ _ _ => true
  | .aonSelfCheckMismatch _ => true

end Sys2Proof
end

