-- ==== Sys2Proof/Safety.lean ====
section
/-! DEFINITION. The terms in which claims are stated: canonical stores, which registers a command leaves, which memory it leaves,
when a register access reaches its register. -/
namespace Sys2Proof.Machine

/-- The canonical form of a byte memory: addresses strictly rising, no entry that reads as an unlisted address does. -/
def Memory.wf (m : FMap Byte) : Bool := mapWf (fun _ => 0) m

/-- The register store, the depot and HBM, with their poison marks, are in canonical form. -/
def State.canonical (s : State) : Bool :=
  mapWf regDefault s.regs && Memory.wf s.depot && Memory.wf s.hbm && mapWf (fun _ => false) s.depotPoison &&
  mapWf (fun _ => false) s.hbmPoison

/-- Are the indices of a register in range (R540). -/
abbrev regHas (r : Reg) (i j : Nat) : Prop := i < (regRow r).n1 ∧ j < (regRow r).n2

/-- Every register but the listed ones reads in `t` as it does in `s`. -/
def State.keeps (s t : State) (l : List (Reg × Nat × Nat)) : Prop :=
  ∀ r i j, regHas r i j → (r, i, j) ∉ l → t.reg r i j = s.reg r i j

/-- The stored byte at a depot address (R329). -/
def State.depByte (s : State) (a : Nat) : Byte := mapGet 0 s.depot a

/-- Every byte of the depot and of HBM reads in `t` as it does in `s`. -/
def State.sameMemory (s t : State) : Prop := (∀ a, t.depByte a = s.depByte a) ∧ (∀ a, t.hbmByte a = s.hbmByte a)

/-- Does a requester's access of `n` bytes at `a` reach the register `h` (R31, R32, R354, R441). -/
def State.reaches (s : State) (r : Requester) (a n : Nat) (h : RegHit) : Prop :=
  inWayRec a = false ∧ s.access a n = .ok h ∧ s.otherLink r h = false

/-- The register at its first word. -/
def hitOf (r : Reg) (i j : Nat) : RegHit := ⟨r, i, j, false⟩

/-- The registers that a direct write changes by a rule of their own, or whose new value acts on other state. -/
def ownRule : List Reg := [.ODO_CFG, .ODO_TG_CFG, .ODO_SEG_CFG, .ING_RES_CFG, .MS_COUNT, .MS_TARGET, .MS_CFG, .MS_ARRIVE_REG,
  .CAT_VOID_REG, .DEP_BANK_OWNER, .DEP_BANK_PRIO, .DMA_CMD, .DMA_ROUTE, .CMD_SQ_TAIL, .CMD_CQ_HEAD, .CMD_EGR_HEAD, .JCT_CFG,
  .JCT_SYNC, .TILE_CTRL, .TILE_DBG_DATA, .TILE_MAP, .REF_TAB_DATA, .CAL_TAB_DATA, .CAL_TRIG, .PWR_DSTATE, .CLK_MC,
  .STR_PMAP_DATA, .RAS_UE_LOG, .TALLY_LOG, .STR_MISS_LOG, .DMA_TMR, .CMD_Q_CFG, .NET_CFG, .NET_PTP_CFG, .NET_GV_CFG, .PLB_CFG,
  .RAS_HOLD]

/-- A register that a direct write changes field by field and in no other way. -/
def plainReg (r : Reg) : Bool := !ownRule.contains r

/-- The 64 bytes of a command packet (R359), little-endian. -/
def packetBytes (h : CmdHdr) (p : List Word) : List Byte :=
  leBytes h.opcode 2 ++ leBytes h.flags 1 ++ leBytes h.tag 1 ++ leBytes h.seq.toNat 4 ++ p.flatMap fun w => leBytes w.toNat 4

/-- The command packets: the time that passes, header, parameters, whether the MC executes it (path M of R363), the opcode and the parameter bits that
R365 gives the command. -/
def commandOf : Instr → Option (Nat × CmdHdr × List Word × Bool × Nat × List Nat)
  | .nop dt h p => some (dt, h, p, false, 0x0100, [])
  | .devInfo dt h p => some (dt, h, p, true, 0x0101, [])
  | .devTime dt h p => some (dt, h, p, false, 0x0102, [])
  | .modelLoad dt h p _ _ => some (dt, h, p, true, 0x0201, [wAll, wAll, wAll, 1])
  | .modelInfo dt h p => some (dt, h, p, true, 0x0202, [1])
  | .modelUnload dt h p => some (dt, h, p, true, 0x0203, [1])
  | .connInfo dt h p => some (dt, h, p, true, 0x0301, [0xF])
  | .ringSetup dt h p => some (dt, h, p, true, 0x0303, [0xE000000F, wAll, wAll, 0x1F, 0x7FFFFF, wAll, wAll])
  | .txOpen dt h p => some (dt, h, p, false, 0x0401, [0x803F07FF])
  | .txAdd dt h p => some (dt, h, p, false, 0x0402, [0xFF3F, 0] ++ List.replicate 12 wAll)
  | .txPrepare dt h p => some (dt, h, p, false, 0x0403, [0x33F, wAll, wAll])
  | .txAbort dt h p => some (dt, h, p, false, 0x0404, [0x3F])
  | .txStatus dt h p => some (dt, h, p, false, 0x0405, [0x3F])
  | .txSysPrepare dt h p => some (dt, h, p, false, 0x0406, [0x3F, 0xFFFF, wAll, wAll, wAll, wAll])
  | .msArrive dt h p => some (dt, h, p, false, 0x0410, [0xFFFF3FFF])
  | .msSet dt h p => some (dt, h, p, false, 0x0411, [0x1F3FFF, wAll, wAll, 0x1FFFF])
  | .msAdvance dt h p => some (dt, h, p, false, 0x0412, [0x3FFF])
  | .msRead dt h p => some (dt, h, p, false, 0x0413, [0x3FFF])
  | .msWait dt h p => some (dt, h, p, false, 0x0414, [0x3FFF, wAll, wAll])
  | .pwrDevice dt h p => some (dt, h, p, true, 0x0501, [3])
  | .pwrPolicy dt h p _ => some (dt, h, p, true, 0x0502, [wAll, wAll, wAll])
  | .pwrRead dt h p _ _ => some (dt, h, p, true, 0x0503, [])
  | .calRun dt h p _ => some (dt, h, p, true, 0x0601, [0x1FF])
  | .calRead dt h p => some (dt, h, p, true, 0x0602, [0xF])
  | .svcTestColumn dt h p => some (dt, h, p, true, 0x0701, [0x3F])
  | .svcMoveConn dt h p => some (dt, h, p, true, 0x0702, [0xF0F])
  | .svcRetirePage dt h p _ => some (dt, h, p, true, 0x0703, [3, 0x3FFF])
  | .svcShoulder dt h p => some (dt, h, p, true, 0x0704, [0x8000FFFF])
  | .svcReport dt h p => some (dt, h, p, true, 0x0705, [wAll, wAll, wAll])
  | .logRead dt h p => some (dt, h, p, true, 0x0801, [wAll, wAll, wAll, wAll])
  | .logMark dt h p => some (dt, h, p, true, 0x0802, [wAll])
  | .updWrite dt h p _ => some (dt, h, p, true, 0x0901, [1, wAll, wAll, wAll, wAll])
  | .updVerify dt h p => some (dt, h, p, true, 0x0902, [1])
  | .updSwitch dt h p => some (dt, h, p, true, 0x0903, [1, wAll, 0xFFFFFF])
  | .catRequest dt h p => some (dt, h, p, false, 0x0A01, List.replicate 10 wAll)
  | .catVoid dt h p => some (dt, h, p, false, 0x0A02, [0x8000003F, wAll])
  | .netStatus dt h p => some (dt, h, p, true, 0x0B01, [0xF])
  | .netConfig dt h p _ => some (dt, h, p, true, 0x0B02, [wAll, wAll, wAll])
  | .plbCensus dt h p => some (dt, h, p, true, 0x0B03, [1, wAll, wAll])
  | .secKeySet dt h p _ => some (dt, h, p, true, 0x0C01, [0xFFFF0007, wAll, wAll])
  | .secDbgChallenge dt h p => some (dt, h, p, true, 0x0C02, [])
  | .secDbgUnlock dt h p _ => some (dt, h, p, true, 0x0C03, [wAll, wAll])
  | _ => none

/-- Does no command wait to be started: no fetched one of a queue and none of the network. -/
def State.csmQuiet (s : State) : Bool := s.queues.all (fun q => q.2.waiting.isEmpty) && s.netFifo.isEmpty

/-- Can the MC execute a command (R436, R517): start-up stage 4 has ended, or recovery mode, and a pair is ACTIVE. -/
def State.mcRuns (s : State) : Bool :=
  (decide (5 ≤ s.fld F.DEV_START_STAGE) || s.flag F.MC_STAT_RECOVERY) && s.mcUp

/-- Is a command packet admitted (R362) and executed at once. -/
def State.takes (s : State) (c : Instr) : Bool :=
  match commandOf c with
  | some (_, h, p, m, op, ms) => s.csmQuiet && (s.admitCode h p op ms).isNone && (!m || s.mcRuns)
  | none => false

/-- The state in which the MC executes a command that it has taken, after `dt` ns. -/
def State.taken (s : State) (dt : Nat) (h : CmdHdr) (p : List Word) : State := (s.tick dt).mcTake h p

/-- Does nobody wait for milestone `m`. -/
def State.unwaited (s : State) (m : Nat) : Prop := ∀ w ∈ s.waiters, w.m ≠ m

/-- What one operation on milestone `m` leaves (R276, R278, R281) when it makes the count, target, stride and EVT these and FIRED
`fired`: the milestone fires where it becomes reached, which raises the target past the count and pulses where EVT is set. -/
def State.evaluated (s t : State) (m count target stride : Nat) (evt fired : Bool) : Prop :=
  let fires := !s.msReached m (s.fld F.MS_TARGET_TARGET m) && decide ((count + 2 ^ 32 - target) % 2 ^ 32 < 2 ^ 31)
  let k := fireCount count target stride
  t.fld F.MS_COUNT_COUNT m = count ∧ t.fld F.MS_TARGET_TARGET m = (if fires then (target + k * stride) % 2 ^ 32 else target) ∧
  t.fld F.MS_CFG_STRIDE m = stride ∧ t.flag F.MS_CFG_EVT m = evt ∧ t.flag F.MS_CFG_FIRED m = (fired || fires) ∧
  t.fld F.MS_CFG_OWNER m = s.fld F.MS_CFG_OWNER m ∧
  t.pulses = s.pulses ++ (if fires && evt then [(.milestone m, k)] else [])

/-- The three registers of milestone `m`. -/
def msRegs (m : Nat) : List (Reg × Nat × Nat) := [(.MS_COUNT, m, 0), (.MS_TARGET, m, 0), (.MS_CFG, m, 0)]

/-- A waymark record holding one action (R283, R285), its header bits but KIND zero; none for the actions of KIND 1, four of which
share a record. -/
def recordOf : Act → Option Nat
  | .bcast col row off mod_ v m step => some (putBits (putBits (putBits (putBits (putBits (putBits (putBits 2
      128 34 col) 192 32 row) 224 12 off) 240 5 mod_) 256 32 v) 288 32 m) 320 32 step)
  | .msSet first n which count target stride owner evt => some (putBits (putBits (putBits (putBits (putBits (putBits (putBits
      (putBits 3 128 14 first) 144 8 (n - 1)) 152 5 which) 160 32 count) 192 32 target) 224 16 stride) 240 3 owner) 243 1 evt)
  | .bank banks owner force prio => some ((List.range 16).foldl (fun r p => putBits r (160 + 8 * p) 4 (prio.getD p 0))
      (putBits (putBits (putBits 4 128 16 banks) 144 8 owner) 152 1 (if force then 1 else 0)))
  | .steer conn unit => some (putBits (putBits 5 128 4 conn) 136 4 unit)
  | .plan unit entry nm1 out => some (putBits (putBits (putBits (putBits 6 128 4 unit) 136 6 entry) 144 1 (if nm1 then 1 else 0)) 152 5 out)
  | .detour layby fwd slow => some (putBits (putBits (putBits 7 128 11 layby) 144 11 fwd) 160 11 slow)
  | .model bank units => some (putBits (putBits 8 128 1 bank) 144 16 units)
  | .odo u pos => some (putBits (putBits 9 128 2 u) 192 64 pos)
  | .sys devices sysid => some (putBits (putBits 10 128 256 devices) 384 16 sysid)
  | .regWrite .. => none

/-- Do the operands of an action fit the fields of its record (R285). -/
def actFits : Act → Bool
  | .bcast col row off mod_ v m step => decide (col < 2 ^ 34 ∧ row < 2 ^ 32 ∧ off < 2 ^ 12 ∧ mod_ < 2 ^ 5 ∧ v < 2 ^ 32 ∧ m < 2 ^ 32 ∧ step < 2 ^ 32)
  | .msSet first n which count target stride owner evt => decide (1 ≤ n ∧ n ≤ 256 ∧ first + n ≤ 16384 ∧ which < 2 ^ 5 ∧ count < 2 ^ 32 ∧
      target < 2 ^ 32 ∧ stride < 2 ^ 16 ∧ owner < 2 ^ 3 ∧ evt < 2)
  | .bank banks owner _ prio => decide (banks < 2 ^ 16 ∧ owner < 2 ^ 8 ∧ prio.length = 16) && prio.all fun p => decide (p < 16)
  | .steer conn unit => decide (conn < 16 ∧ unit < 16)
  | .plan unit entry _ out => decide (unit < 16 ∧ entry < 64 ∧ out < 32)
  | .detour layby fwd slow => decide (layby < 1088 ∧ fwd < 1088 ∧ slow < 1088)
  | .model bank units => decide (bank < 2 ∧ units < 2 ^ 16)
  | .odo u pos => decide (u < 4 ∧ pos < 2 ^ 64)
  | .sys devices sysid => decide (devices < 2 ^ 256 ∧ sysid < 2 ^ 16)
  | .regWrite .. => false

/-- Tile `k` issues the route word `w` (R324): it runs, its buffered word at the PC is `w`, unpoisoned, and the innermost loop body does not
end there. -/
def State.issues (s : State) (k op w : Nat) : Prop :=
  s.issuing k = true ∧ s.curWord k = ⟨BitVec.ofNat 128 w, false⟩ ∧ w < 2 ^ 128 ∧ wf w 7 0 = op ∧
  ∀ f ∈ (s.tile k).loops.head?, f.last ≠ (s.tile k).pc

/-- The accesses of a word raise no exception and wait for nothing (R125, R304), and `need` scoreboard entries are free. -/
def State.unblocked (s : State) (k : Nat) (rs : List Rng) (need : Nat) : Prop :=
  s.rngExcs k rs = [] ∧ s.sbWait k { named0 with rngs := rs, need := need } = false

/-- What a route word leaves that acts on its own tile `k` alone: the tile is `x` with its PC at `pc`, in RUN, with `busy` as its
bitmap of entries; nothing else has changed but the registers of `l`. -/
def State.wordDone (s t : State) (dt k pc busy : Nat) (x : Tile) (l : List (Reg × Nat × Nat)) : Prop :=
  t.tile k = { x with pc := pc, passed := false, groups := (t.tile k).groups } ∧ (∀ j, j ≠ k → t.tile j = s.tile j) ∧
  t.tState k = tRun ∧ t.fld F.TILE_STAT_SB_BUSY k = busy ∧ s.keeps t ((.TILE_STAT, k, 0) :: l) ∧
  t = { s.tick dt with regs := t.regs, tiles := t.tiles }

/-- The crew of stripe entry `e` of unit `u` is between tasks with segment `g` next, nothing holds it back (R208, R302, R417), no committed entry
is on its way, and its participants, distinct tiles, are ready. -/
def State.dispatchable (s : State) (u e c : Nat) (g : SegSt) (p : PkgPlan) : Prop :=
  let set := s.slotSet u (g.slot.getD 0)
  (s.crew u e).task = none ∧ s.seq.entry = none ∧ s.ents = [] ∧ s.nextSeg u e = some (c, g) ∧ s.crewHeld u e set g.b = false ∧
  bitsOf (s.fld F.WAY_HOLD_UNITS) u 1 = 0 ∧ s.crewPlan u e = some p ∧ s.partsReady (s.crewParts set u e) = true ∧
  (s.crewParts set u e).Nodup ∧ ∀ j ∈ s.crewParts set u e, j < 1088

/-- What the dispatch of a task leaves (R302, R303): the crew's task, and each participant in RUN at word 0 with its parameters. -/
def State.dispatched (s t : State) (u e : Nat) (g : SegSt) (p : PkgPlan) (lines : Nat) : Prop :=
  let parts := s.crewParts (s.slotSet u (g.slot.getD 0)) u e
  let x := s.crew u e
  let rlast := if g.closed ∧ g.short then (x.firstLine + lines + 2 ^ 32 - 1) % 2 ^ 32 else 2 ^ 32 - 1
  (t.crew u e).task = some ⟨g.b, g.part, parts, [], false⟩ ∧ (t.crew u e).firstLine = x.firstLine + lines ∧ (t.crew u e).brk = false ∧
  ∀ i, (h : i < parts.length) → t.tState parts[i] = tRun ∧ (t.tile parts[i]).pc = 0 ∧ (t.tile parts[i]).disp.routeBase = p.base ∧
    t.gReg parts[i] 1 = i ∧ t.gReg parts[i] 2 = parts.length ∧ t.gReg parts[i] 3 = lines ∧ t.gReg parts[i] 4 = rlast ∧
    t.gReg parts[i] 5 = x.firstLine ∧ t.gReg parts[i] 6 = segNum g.b g.part % 2 ^ 32 ∧ t.gReg parts[i] 7 = segNum g.b g.part / 2 ^ 32

/-- One entry has been written to the AON log ring (R487): its source, code and arguments. -/
def State.logs (s t : State) (src code : Nat) (args : List Nat) : Prop :=
  ∃ e : LogEntry, e.index = s.logNext ∧ e.src = src ∧ e.sev = Config.logSev code % 4 ∧ e.code = code ∧ e.args = args ∧ e.mirrored = false ∧
    t.log = (if 2048 ≤ s.log.length then s.log.drop 1 else s.log) ++ [e] ∧ t.logNext = logIndexAfter s.logNext

end Sys2Proof.Machine
end

