-- ==== Sys2Proof/Certificates/Slice0/Obligations.lean ====
section
/-! DEFINITION. The statements for the provers: what the rules of the spec say the commands do. -/
open Sys2Proof Sys2Proof.Machine

/-- A step takes the command at the front of the queue and executes it with the queue's rest. -/
def Obligations.StepRunsFrontCommand : Prop :=
  ∀ (c : Instr) (rest : List Instr) (s : State),
    step { s with pending := c :: rest } = exec c { s with pending := rest }

/-- On an empty queue the block idles (the model's choice, log 1). No command faults and none is refused: exec answers a next state for every
command in every state (R32: every wrong access completes). -/
def Obligations.QueueIdlesAndCommandsComplete : Prop :=
  (∀ s : State, s.pending = [] → step s = .next s) ∧
  (∀ (c : Instr) (s : State), ∃ t, exec c s = .next t)

/-- Every step keeps the register store, the depot and HBM with their poison marks in canonical form, the model's form of equal memories. It
rests on the model's choices in logs 3, 6, 7. -/
def Obligations.StepKeepsStoresCanonical : Prop :=
  ∀ s t : State, s.canonical = true → step s = .next t → t.canonical = true

/-- After reset every register reads its Reset column, every latch and stage is empty, and the stores are in canonical form. It rests on the
model's choice in log 3. -/
def Obligations.ResetHoldsResetColumns : Prop :=
  (∀ r i j, regHas r i j → State.reset.reg r i j = regReset (hitOf r i j)) ∧
  (∀ k, mapGet none State.reset.latch k = none ∧ mapGet none State.reset.stage k = none) ∧
  State.reset.pending = [] ∧ State.reset.canonical = true

/-- A read of the low word of a 64-bit register returns the live low word and loads the requester's latch with the live high word, whether or
not a word was latched before; an 8-byte read returns both words. Nothing else changes but the register's own RC bits. A read of the high
word returns the requester's latched word and empties the latch, or the live high word where the latch is empty. Every other latch and every
register stays. A write of the high word of a 64-bit register loads the requester's stage and changes nothing else. -/
def Obligations.HalfWordAccessesLatchAndStage : Prop :=
  (∀ (dt : Nat) (r : Requester) (a : Nat) (g : Reg) (i j : Nat) (s : State),
    (regRow g).width = 64 → regHas g i j → s.reaches r a 4 (hitOf g i j) →
    let v := (s.tick dt).regView (hitOf g i j)
    ∃ t, exec (.regRead64Low dt r a 4) s = .next t ∧ t.out = s.out ++ [.readData r (v % 2 ^ 32)] ∧
      mapGet none t.latch (holdKey r (hitOf g i j)) = some (BitVec.ofNat 32 (v / 2 ^ 32)) ∧
      (∀ k, k ≠ holdKey r (hitOf g i j) → mapGet none t.latch k = mapGet none s.latch k) ∧
      s.keeps t [(g, i, j)] ∧
      t = { s.tick dt with out := t.out, latch := t.latch, regs := t.regs }) ∧
  (∀ (dt : Nat) (r : Requester) (a : Nat) (g : Reg) (i j : Nat) (s : State),
    (regRow g).width = 64 → s.reaches r a 4 ⟨g, i, j, true⟩ →
    ∃ t, exec (.regRead64High dt r a) s = .next t ∧
      t.out = s.out ++ [.readData r (match mapGet none s.latch (holdKey r (hitOf g i j)) with
        | some w => w.toNat
        | none => (s.tick dt).regView ⟨g, i, j, true⟩ / 2 ^ 32 % 2 ^ 32)] ∧
      mapGet none t.latch (holdKey r (hitOf g i j)) = none ∧
      (∀ k, k ≠ holdKey r (hitOf g i j) → mapGet none t.latch k = mapGet none s.latch k) ∧
      t = { s.tick dt with out := t.out, latch := t.latch }) ∧
  (∀ (dt : Nat) (r : Requester) (a : Nat) (d : Word) (g : Reg) (i j : Nat) (s : State),
    s.reaches r a 4 ⟨g, i, j, true⟩ →
    ∃ t, exec (.regWrite64High dt r a d) s = .next t ∧ mapGet none t.stage (holdKey r (hitOf g i j)) = some d ∧
      (∀ k, k ≠ holdKey r (hitOf g i j) → mapGet none t.stage k = mapGet none s.stage k) ∧
      t = { s.tick dt with stage := t.stage })

/-- A read returns the live value of a 32-bit register and clears its RC fields; its other fields and every other register stay. REF_TAB_DATA
and TILE_DBG_DATA are read through their address registers. A direct write that no rule refuses acts on a register field by field by the
access codes: an RW field takes the written value, a W1C field loses the bits written 1, a W1S field gains them, and RO, WO, RC and RWL
fields stay. The low word of a 64-bit register commits with the staged high word and empties the stage. `g` is a register with no rule of
its own beside the field codes; the write is a 32-bit register write, or the write of DEV_APERTURE, of NET_RS_CFG or of a unit's staging
image. -/
def Obligations.AccessCodesAct : Prop :=
  (∀ (dt : Nat) (r : Requester) (a : Nat) (g : Reg) (i j : Nat) (s : State),
    (regRow g).width = 32 → g ≠ .REF_TAB_DATA → g ≠ .TILE_DBG_DATA → regHas g i j → s.reaches r a 4 (hitOf g i j) →
    ∃ t, exec (.regReadClear dt r a 4) s = .next t ∧
      t.out = s.out ++ [.readData r ((s.tick dt).regView (hitOf g i j) % 2 ^ 32)] ∧
      (∀ f ∈ (regRow g).fields, bitsOf (t.reg g i j) f.lo f.w = if f.acc = .rc then 0 else bitsOf (s.reg g i j) f.lo f.w) ∧
      s.keeps t [(g, i, j)] ∧ t = { s.tick dt with out := t.out, regs := t.regs }) ∧
  (∀ (dt : Nat) (r : Requester) (a : Nat) (d : DWord) (w : Word) (g : Reg) (i j : Nat) (c : Instr) (s : State),
    c = .registerWrite dt r a 4 d ∨ w.toNat = d.toNat % 2 ^ 32 ∧ (c = .devApertureWrite dt r w ∧ a = regAddr .DEV_APERTURE ∨
      (∃ k : Fin 16, c = .netRsCfgWrite dt r k w ∧ a = regAddr .NET_RS_CFG k) ∨
      ∃ (u : Fin 16) (off : Fin 0x220), c = .refStagingWrite dt r u off w ∧ a = 0x300000 + 0x10000 * u.val + off.val) →
    plainReg g = true → regHas g i j → s.reaches r a 4 (hitOf g i j) →
    let v := if (regRow g).width = 64 then (s.highWord r (hitOf g i j)) * 2 ^ 32 + d.toNat % 2 ^ 32 else d.toNat % 2 ^ 32
    s.regRefused r (hitOf g i j) = none →
    (∀ f ∈ (regRow g).fields, s.fieldKind r (hitOf g i j) (s.reg g i j) v f = none) →
    ∃ t, exec c s = .next t ∧
      (∀ f ∈ (regRow g).fields, bitsOf (t.reg g i j) f.lo f.w =
        match f.acc with
        | .rw => bitsOf v f.lo f.w
        | .w1c => bitsOf (s.reg g i j) f.lo f.w &&& (2 ^ f.w - 1 - bitsOf v f.lo f.w)
        | .w1s => bitsOf (s.reg g i j) f.lo f.w ||| bitsOf v f.lo f.w
        | _ => bitsOf (s.reg g i j) f.lo f.w) ∧
      ((regRow g).width = 64 → mapGet none t.stage (holdKey r (hitOf g i j)) = none) ∧
      s.keeps t [(g, i, j)] ∧ t = { s.tick dt with regs := t.regs, stage := t.stage })

/-- An access that reaches no register (an unmapped range, a reserved offset, a wrong size or alignment, a closed tile window, a domain that is
off) completes: a read returns zero, a write is ignored, and the access is recorded in the access error log. It rests on the model's choices
in logs 44, 133. -/
def Obligations.WrongAccessIsRecorded : Prop :=
  ∀ (dt : Nat) (r : Requester) (a n k : Nat) (d : DWord) (s : State),
    inWayRec a = false → s.access a n = .error k →
    exec (.registerWrite dt r a n d) s = .next ((s.tick dt).aelReg r a k 0 (d.toNat % 2 ^ 32)) ∧
    exec (.regReadClear dt r a n) s = .next (((s.tick dt).aelReg r a k 0 0).emit (.readData r 0))

/-- A write of CMD_SQ_TAIL below the queue depth with EN = 1 moves the tail. Any other doorbell is ignored, sets DB_ERR and is recorded: at or
above the depth with KIND 6, while EN = 0 with KIND 9. A write of CMD_CQ_HEAD that consumes only written entries frees them; one at or above
the depth, or past an entry not yet written, is ignored, sets DB_ERR and is recorded. The queue holds no completion back here. A write of EN
= 1 to an idle, disabled queue stores the configuration and resets the SQ head, the CQ tail, the doorbells and the expected PHASE. A HEAD
write that stays within the bytes written is stored; one that moves backward or beyond them is ignored and recorded. It rests on the model's
choice in log 64. -/
def Obligations.QueueDoorbellsAndEnable : Prop :=
  (∀ (dt : Nat) (r : Requester) (q : Fin 64) (v : Word) (s : State),
    s.reaches r (regAddr .CMD_SQ_TAIL q) 4 (hitOf .CMD_SQ_TAIL q 0) →
    (v.toNat % 2 ^ 12 < s.sqDepth q → s.flag F.CMD_Q_CFG_EN q = true →
      ∃ t, exec (.sqTailDoorbell dt r q v) s = .next t ∧ t.fld F.CMD_SQ_TAIL_TAIL q = v.toNat % 2 ^ 12 ∧
        s.keeps t [(.CMD_SQ_TAIL, q.val, 0)] ∧ t = { s.tick dt with regs := t.regs }) ∧
    (s.sqDepth q ≤ v.toNat % 2 ^ 12 → exec (.sqTailDoorbell dt r q v) s =
      .next (((s.tick dt).setFld F.CMD_Q_STAT_DB_ERR 1 q).aelReg r (regAddr .CMD_SQ_TAIL q) 6 0 v.toNat)) ∧
    (v.toNat % 2 ^ 12 < s.sqDepth q → s.flag F.CMD_Q_CFG_EN q = false → exec (.sqTailDoorbell dt r q v) s =
      .next (((s.tick dt).setFld F.CMD_Q_STAT_DB_ERR 1 q).aelReg r (regAddr .CMD_SQ_TAIL q) 9 0 v.toNat))) ∧
  (∀ (dt : Nat) (r : Requester) (q : Fin 64) (v : Word) (s : State),
    s.reaches r (regAddr .CMD_CQ_HEAD q) 4 (hitOf .CMD_CQ_HEAD q 0) → s.flag F.CMD_Q_CFG_EN q = true →
    let n := v.toNat % 2 ^ 12
    let k := (n + s.cqDepth q - s.fld F.CMD_CQ_HEAD_HEAD q) % s.cqDepth q
    (n < s.cqDepth q → k ≤ (s.queue q).unread → (s.queue q).held = [] →
      ∃ t, exec (.cqHeadDoorbell dt r q v) s = .next t ∧ t.fld F.CMD_CQ_HEAD_HEAD q = n ∧
        t.queue q = { s.queue q with unread := (s.queue q).unread - k } ∧ (∀ p : Nat, p ≠ q → t.queue p = s.queue p) ∧
        s.keeps t [(.CMD_CQ_HEAD, q.val, 0)] ∧ t = { s.tick dt with regs := t.regs, queues := t.queues }) ∧
    (s.cqDepth q ≤ n ∨ (s.queue q).unread < k → exec (.cqHeadDoorbell dt r q v) s =
      .next (((s.tick dt).setFld F.CMD_Q_STAT_DB_ERR 1 q).aelReg r (regAddr .CMD_CQ_HEAD q) 6 0 v.toNat))) ∧
  (∀ (dt : Nat) (r : Requester) (q : Fin 64) (v : Word) (s : State),
    s.reaches r (regAddr .CMD_Q_CFG q) 4 (hitOf .CMD_Q_CFG q 0) →
    s.flag F.CMD_Q_CFG_EN q = false → s.flag F.CMD_Q_STAT_IDLE q = true → bitsOf v.toNat 31 1 = 1 →
    1 ≤ bitsOf v.toNat 24 4 → bitsOf v.toNat 24 4 ≤ 12 → 1 ≤ bitsOf v.toNat 16 4 → bitsOf v.toNat 16 4 ≤ 12 →
    bitsOf v.toNat 0 7 ≤ 79 →
    ∃ t, exec (.qCfgWrite dt r q v) s = .next t ∧ t.flag F.CMD_Q_CFG_EN q = true ∧
      t.fld F.CMD_Q_CFG_SQ_LOG2 q = bitsOf v.toNat 24 4 ∧ t.fld F.CMD_Q_CFG_CQ_LOG2 q = bitsOf v.toNat 16 4 ∧
      t.fld F.CMD_Q_CFG_IEN q = bitsOf v.toNat 15 1 ∧ t.fld F.CMD_Q_CFG_VEC q = bitsOf v.toNat 0 7 ∧
      t.fld F.CMD_Q_STAT_SQ_HEAD q = 0 ∧ t.fld F.CMD_SQ_TAIL_TAIL q = 0 ∧ t.fld F.CMD_CQ_HEAD_HEAD q = 0 ∧
      (t.queue q).cqTail = 0 ∧ (t.queue q).phase = true ∧ (t.queue q).unread = 0 ∧
      s.keeps t [(.CMD_Q_CFG, q.val, 0), (.CMD_Q_STAT, q.val, 0), (.CMD_SQ_TAIL, q.val, 0), (.CMD_CQ_HEAD, q.val, 0)] ∧
      t = { s.tick dt with regs := t.regs, queues := t.queues }) ∧
  (∀ (dt : Nat) (r : Requester) (k : Fin 16) (v : DWord) (s : State),
    s.reaches r (regAddr .CMD_EGR_HEAD k) 8 (hitOf .CMD_EGR_HEAD k 0) →
    let old := s.fld F.CMD_EGR_HEAD_HEAD k
    let ahead (n : Nat) : Nat := (n + 2 ^ 64 - old) % 2 ^ 64
    (ahead v.toNat ≤ ahead (s.eRing k).written → ∃ t, exec (.egrHeadWrite dt r k v) s = .next t ∧
      t.fld F.CMD_EGR_HEAD_HEAD k = v.toNat ∧ s.keeps t [(.CMD_EGR_HEAD, k.val, 0)] ∧
      t = { s.tick dt with regs := t.regs, stage := t.stage }) ∧
    (ahead (s.eRing k).written < ahead v.toNat → ∃ t, exec (.egrHeadWrite dt r k v) s = .next t ∧
      t.fld F.CMD_EGR_HEAD_HEAD k = old ∧ t.flag F.RAS_STAT_AEL = true))

/-- A write that sets NET_RS_CFG.AUTH = 1 leaves it 0 and is recorded unless the key slot it names has been set since reset; the other fields
are stored, and with a fresh key AUTH too. EN of NET_GV_CFG from 0 to 1 on an ABSENT connection number binds it to a GigE Vision camera:
READY where its port is up, ABSENT where it is not, with no CoaXPress link. Writes of RAS_HOLD and RAS_PMIG. The MC's write of a hold stores
UNIT and ENTRY, and HOLDING reads 1 where the crew named has no task; EN = 0 clears HOLDING. The MC's write of RAS_PMIG while EN = 0 stores
every field, while EN = 1 only EN. Any other requester's write changes neither and is recorded with KIND 11. It rests on the model's choices
in logs 65, 152. -/
def Obligations.GuardedConfigurationWrites : Prop :=
  (∀ (dt : Nat) (r : Requester) (k : Fin 16) (v : Word) (s : State),
    s.reaches r (regAddr .NET_RS_CFG k) 4 (hitOf .NET_RS_CFG k 0) → s.flag F.NET_RS_CFG_AUTH k = false → bitsOf v.toNat 30 1 = 1 →
    ∃ t, exec (.netRsCfgWrite dt r k v) s = .next t ∧
      t.flag F.NET_RS_CFG_AUTH k = mapGet false s.keyFresh (bitsOf v.toNat 27 3) ∧
      t.fld F.NET_RS_CFG_EN k = bitsOf v.toNat 31 1 ∧ t.fld F.NET_RS_CFG_KEY k = bitsOf v.toNat 27 3 ∧
      t.fld F.NET_RS_CFG_TYPES k = bitsOf v.toNat 16 7 ∧ t.fld F.NET_RS_CFG_CONNS k = bitsOf v.toNat 0 16 ∧
      (mapGet false s.keyFresh (bitsOf v.toNat 27 3) = false → t.flag F.RAS_STAT_AEL = true)) ∧
  (∀ (dt : Nat) (r : Requester) (c : Fin 16) (v : Word) (s : State),
    s.reaches r (regAddr .NET_GV_CFG c) 4 (hitOf .NET_GV_CFG c 0) → s.flag F.NET_GV_CFG_EN c = false → s.connState c = 0 →
    bitsOf v.toNat 31 1 = 1 →
    ∃ t, exec (.netGvCfgWrite dt r c v) s = .next t ∧ t.flag F.NET_GV_CFG_EN c = true ∧
      t.fld F.NET_GV_CFG_PORT c = bitsOf v.toNat 29 2 ∧ (t.conn c).gv = true ∧ (t.conn c).links = [] ∧
      t.connState c = (if s.fld F.NET_STAT_STATE (bitsOf v.toNat 29 2) = 2 then 2 else 0) ∧
      t.fld F.ING_CONN_CFG_NLINKS c = 0 ∧ t.fld F.ING_CONN_CFG_SPEED c = 0 ∧
      s.keeps t [(.NET_GV_CFG, c.val, 0), (.ING_CONN_CFG, c.val, 0)] ∧
      t = { s.tick dt with regs := t.regs, conns := t.conns }) ∧
  ((∀ (dt : Nat) (h : Fin 4) (v : Word) (s : State),
    s.reaches .mc (regAddr .RAS_HOLD h) 4 (hitOf .RAS_HOLD h 0) →
    ∃ t, exec (.rasHoldWrite dt .mc h v) s = .next t ∧ t.fld F.RAS_HOLD_EN h = bitsOf v.toNat 31 1 ∧
      t.fld F.RAS_HOLD_UNIT h = bitsOf v.toNat 16 4 ∧ t.fld F.RAS_HOLD_ENTRY h = bitsOf v.toNat 0 6 ∧
      t.fld F.RAS_HOLD_HOLDING h = (if bitsOf v.toNat 31 1 = 1 ∧ (s.crew (bitsOf v.toNat 16 4) (bitsOf v.toNat 0 6)).task = none
        then 1 else 0) ∧
      t = { s.tick dt with regs := t.regs }) ∧
  (∀ (dt : Nat) (v : DWord) (s : State),
    s.reaches .mc (regAddr .RAS_PMIG) 8 (hitOf .RAS_PMIG 0 0) → bitsOf v.toNat 32 14 ≤ 12287 → bitsOf v.toNat 0 14 ≤ 12287 →
    ∃ t, exec (.rasPmigWrite dt .mc v) s = .next t ∧ t.fld F.RAS_PMIG_EN = bitsOf v.toNat 63 1 ∧
      (if s.flag F.RAS_PMIG_EN
        then t.fld F.RAS_PMIG_STACK = s.fld F.RAS_PMIG_STACK ∧ t.fld F.RAS_PMIG_SRC = s.fld F.RAS_PMIG_SRC ∧
          t.fld F.RAS_PMIG_DST = s.fld F.RAS_PMIG_DST
        else t.fld F.RAS_PMIG_STACK = bitsOf v.toNat 60 2 ∧ t.fld F.RAS_PMIG_SRC = bitsOf v.toNat 32 14 ∧
          t.fld F.RAS_PMIG_DST = bitsOf v.toNat 0 14)) ∧
  (∀ (dt : Nat) (r : Requester) (h : Fin 4) (v : Word) (s : State), r ≠ .mc →
    s.reaches r (regAddr .RAS_HOLD h) 4 (hitOf .RAS_HOLD h 0) →
    exec (.rasHoldWrite dt r h v) s = .next ((s.tick dt).aelReg r (regAddr .RAS_HOLD h) 11 0 v.toNat)))

/-- A host read of BAR2 returns the bytes of a bank that the HOST owns, without changing the state; a write stores them, and every other byte
stays. Both run as accesses of at most 64 bytes in address order; here one access. A host access to BAR4 reaches the device HBM byte that
the aperture and the page map give, as best-effort traffic of its stack; an unmapped one reads zero or is discarded, and is recorded. Here
one access. A read of a waymark record returns its voted bits, or zero for a free record, and leaves three equal copies; a losing copy is
counted. It rests on the model's choice in log 8. -/
def Obligations.HostWindowsReachMemory : Prop :=
  (∀ (dt : Nat) (link : Fin 2) (off : Nat) (s : State), off < depotBytes → s.depotMay 1 off = true →
    (∀ len, 0 < len → off % 64 + len ≤ 64 → ∃ t, exec (.bar2Access dt link off len none) s = .next t ∧
      t.out = s.out ++ [.barData link ((List.range len).map fun i => s.depByte (off + i))
        ((List.range len).any fun i => mapGet false s.depotPoison ((off + i) / 16))] ∧
      t = { s.tick dt with out := t.out }) ∧
    (∀ b : List Byte, 0 < b.length → off % 64 + b.length ≤ 64 →
      ∃ t, exec (.bar2Access dt link off b.length (some b)) s = .next t ∧
        (∀ i, (h : i < b.length) → t.depByte (off + i) = b[i]) ∧
        (∀ a, a < off ∨ off + b.length ≤ a → t.depByte a = s.depByte a) ∧
        t = { s.tick dt with depot := t.depot, depotPoison := t.depotPoison })) ∧
  (∀ (dt : Nat) (link : Fin 2) (off : Nat) (s : State),
    (∀ p, s.bar4Phys off = some p → s.flag F.RAS_PMIG_EN = false →
      (∀ len, 0 < len → off % 4096 + len ≤ 4096 → ∃ t, exec (.bar4Access dt link off len none) s = .next t ∧
        t.out = s.out ++ [.barData link ((List.range len).map fun i => s.hbmByte (p + i))
          ((List.range len).any fun i => s.hbmMark (p + i))] ∧
        (t.engine (p / stackBytes)).credit = (s.engine (p / stackBytes)).credit - 1000 * len ∧
        t = { s.tick dt with out := t.out, engines := t.engines }) ∧
      (∀ b : List Byte, 0 < b.length → off % 4096 + b.length ≤ 4096 →
        ∃ t, exec (.bar4Access dt link off b.length (some b)) s = .next t ∧
          (∀ i, (h : i < b.length) → t.hbmByte (p + i) = b[i]) ∧
          (∀ a, a < p ∨ p + b.length ≤ a → t.hbmByte a = s.hbmByte a) ∧
          t = { s.tick dt with hbm := t.hbm, hbmPoison := t.hbmPoison, engines := t.engines })) ∧
    (∀ len, s.bar4Phys off = none → 0 < len → off % 4096 + len ≤ 4096 → exec (.bar4Access dt link off len none) s =
      .next (((s.tick dt).ael 2 off (originOf (hostOf link)) 1 0 0).emit (.barData link (List.replicate len 0) false)))) ∧
  (∀ (dt : Nat) (r : Requester) (i : Fin 2048) (s : State), s.domOn 2 = true →
    let v := (mapGet way0 s.way i).vote
    ∃ t, exec (.waymarkRecordRead dt r i 0 false) s = .next t ∧
      t.out = s.out ++ [.readData r (if wayKind v.toNat = 0 then 0 else v.toNat)] ∧ mapGet way0 t.way i = ⟨v, v, v⟩ ∧
      (∀ j : Nat, j ≠ i → mapGet way0 t.way j = mapGet way0 s.way j) ∧
      s.keeps t [(.WAY_ERRCNT, 0, 0), (.RAS_SELFCHK, 0, 0)] ∧ t = { s.tick dt with out := t.out, way := t.way, regs := t.regs })

/-- The NOP command of an admitted packet posts a completion entry at the CQ tail with the status 0, interrupts where IEN is set, moves the CQ
tail (PHASE flips where it wraps) and counts the command as finished. It rests on the model's choice in log 10. -/
def Obligations.NopPostsCompletion : Prop :=
  ∀ (dt : Nat) (q : Fin 64) (h : CmdHdr) (p : List Word) (s : State),
    s.takes (.nop dt h p) = true → h.src = .queue q → s.cqRoom q = true → (s.queue q).dead = false →
    let x := s.queue q
    let wrap := decide (s.cqDepth q ≤ x.cqTail + 1)
    ∃ t, exec (.nop dt h p) s = .next t ∧
      t.out = s.out ++ .hostWrite (s.queueLink q) (s.fld F.CMD_CQ_BASE_ADDR q * 4096 + 32 * x.cqTail)
          (replyBytes ⟨h, 0, true, []⟩ x.phase h.sqHead) false ::
        (if s.flag F.CMD_Q_CFG_IEN q then [.msix (s.queueLink q) (s.fld F.CMD_Q_CFG_VEC q)] else []) ∧
      t.queue q = { x with cqTail := if wrap then 0 else x.cqTail + 1, phase := x.phase != wrap, unread := x.unread + 1 } ∧
      (∀ k : Nat, k ≠ q → t.queue k = s.queue k) ∧
      t.fld F.CMD_Q_STAT_OUTST q = s.fld F.CMD_Q_STAT_OUTST q - 1 ∧
      (t.flag F.CMD_Q_STAT_IDLE q = true ↔ s.fld F.CMD_Q_STAT_OUTST q ≤ 1) ∧
      s.keeps t [(.CMD_Q_STAT, q.val, 0)] ∧
      t = { s.tick dt with out := t.out, queues := t.queues, regs := t.regs, mcRun := t.mcRun }

/-- Status replies (R360). The 32 bytes of one hold its fields, FINAL in bit 1 of BITS and the phase in bit 0; a completion entry carries the SQ
head that its command was fetched with, which is the head after that fetch, and a reply datagram carries SQ_HEAD 0. -/
def Obligations.ReplyBytesHoldFields : Prop :=
  (∀ (r : Reply) (phase : Bool) (head : Nat), r.status < 2 ^ 16 → r.hdr.opcode < 2 ^ 16 → r.hdr.tag < 2 ^ 8 → head < 2 ^ 16 →
    (∀ k, r.w.getD k 0 < 2 ^ 32) →
    let b := replyBytes r phase head
    b.length = 32 ∧ numAt b 0 2 = r.status ∧ numAt b 2 2 = r.hdr.opcode ∧ numAt b 4 1 = r.hdr.tag ∧
    numAt b 5 1 = (if phase then 1 else 0) + (if r.final then 2 else 0) ∧ numAt b 6 2 = head ∧ numAt b 8 4 = r.hdr.seq.toNat ∧
    ∀ k, k < 5 → numAt b (12 + 4 * k) 4 = r.w.getD k 0) ∧
  (∀ (dt : Nat) (q : Fin 64) (b : List Byte) (s : State), s.csmQuiet = true → s.mcUp = true → 1 ≤ s.fetchMay q → b.length = 64 →
    let x := pktOf (.queue q) ((s.fld F.CMD_Q_STAT_SQ_HEAD q + 1) % s.sqDepth q) b
    mOps.contains x.hdr.opcode = true → x.hdr.flags % 2 = 0 → ∃ t y, exec (.sqFetchComplete dt q (.bytes b)) s = .next t ∧
      t.mcFifo = s.mcFifo ++ [y] ∧ y.hdr.src = .queue q ∧ y.hdr.sqHead = (s.fld F.CMD_Q_STAT_SQ_HEAD q + 1) % s.sqDepth q ∧
      y.hdr.sqHead % 2 ^ 12 = t.fld F.CMD_Q_STAT_SQ_HEAD q) ∧
  (∀ (q : Nat) (r : Reply) (s : State), ∃ l a, (s.postCq q r).out =
    s.out ++ .hostWrite (s.queueLink q) a (replyBytes r (s.queue q).phase r.hdr.sqHead) false :: l) ∧
  (∀ (k : Nat) (o ip : Word) (port : Nat) (r : Reply) (s : State), ∃ (phase : Bool) (tag : List Byte), (s.netReply k o ip port r).out =
    s.out ++ [.netReply ip port k o (leBytes 0x5A4C 2 ++ leBytes 1 1 ++ leBytes k 1 ++ leBytes o.toNat 4 ++ replyBytes r phase 0) tag])

/-- The 64 bytes of every well-formed command packet decode to its header and parameters. -/
def Obligations.PacketDecodesToItself : Prop :=
  ∀ (h : CmdHdr) (p : List Word), wfPkt h p = true →
    (packetBytes h p).length = 64 ∧ pktOf h.src h.sqHead (packetBytes h p) = ⟨h, p⟩

/-- A packet that admission refuses (R362: its opcode, its class in recovery mode, its FLAGS, a parameter bit that no field names) is answered
with that code and has no other effect. -/
def Obligations.RefusedPacketHasNoEffect : Prop :=
  ∀ (c : Instr) (dt : Nat) (h : CmdHdr) (p : List Word) (m : Bool) (op code : Nat) (ms : List Nat) (s : State),
    commandOf c = some (dt, h, p, m, op, ms) → s.csmQuiet = true → (m = true → s.mcRuns = true) → s.admitCode h p op ms = some code →
    exec c s = .next ((if m then s.taken dt h p else s.tick dt).reply h code [])

/-- The commands that report state reply with the words of R365 and change nothing but what a reply changes: DEV_TIME, TX_STATUS, MS_READ,
DEV_INFO, MODEL_INFO, CONN_INFO, CAL_READ, NET_STATUS and PWR_READ. It rests on the model's choices in logs 99, 100. -/
def Obligations.ReportCommandsReply : Prop :=
  ∀ (dt : Nat) (h : CmdHdr) (p : List Word) (s : State),
    let now := (s.now + dt) % 2 ^ 64
    (s.takes (.devTime dt h p) = true → exec (.devTime dt h p) s =
      .next ((s.tick dt).reply h 0 [now % 2 ^ 32, now / 2 ^ 32, if (s.tick dt).timeUnsync then 1 else 0])) ∧
    (s.takes (.txStatus dt h p) = true → let t := bitsOf (pw p 0) 0 6
      exec (.txStatus dt h p) s = .next ((s.tick dt).reply h 0
        [s.reg .WAY_TX_STAT t, s.reg .WAY_TX_SIZE t, s.reg .WAY_TX_POINT t % 2 ^ 32, s.reg .WAY_TX_POINT t / 2 ^ 32])) ∧
    (s.takes (.msRead dt h p) = true → let m := bitsOf (pw p 0) 0 14
      exec (.msRead dt h p) s = .next ((s.tick dt).reply h 0 [s.reg .MS_COUNT m, s.reg .MS_TARGET m, s.reg .MS_CFG m])) ∧
    (s.takes (.devInfo dt h p) = true → exec (.devInfo dt h p) s = .next ((s.taken dt h p).reply h 0
      [s.running.release, s.reg .DEV_ID, s.fld F.MC_STAT_SLOT + s.fld F.MC_STAT_ACTIVE * 256,
       min ((s.aonNs + dt - s.boot.t0) / 1000000000) 0xFFFFFFFF])) ∧
    (s.takes (.modelInfo dt h p) = true → let b := pw p 0 % 2
      exec (.modelInfo dt h p) s = .next ((s.taken dt h p).reply h 0
        [s.bankSt b, (s.bank b).release, (s.bank b).ident % 2 ^ 32, (s.bank b).ident / 2 ^ 32 % 2 ^ 32])) ∧
    (s.takes (.connInfo dt h p) = true → let c := pw p 0 % 16
      exec (.connInfo dt h p) s = .next ((s.taken dt h p).reply h 0
        [s.reg .ING_CONN_CFG c, s.reg .ING_CONN_CAPS c, s.reg .ING_CONN_PIXFMT c, (s.conn c).refusal])) ∧
    (s.takes (.calRead dt h p) = true → pw p 0 ≤ 8 → exec (.calRead dt h p) s = .next ((s.taken dt h p).reply h 0
      [s.reg .CAL_RES0 (pw p 0), s.reg .CAL_RES1 (pw p 0), s.reg .CAL_RES2 (pw p 0), s.reg .CAL_RES3 (pw p 0)])) ∧
    (s.takes (.netStatus dt h p) = true → pw p 0 ≤ 11 → pw p 0 ≠ 6 → pw p 0 ≠ 7 →
      exec (.netStatus dt h p) s = .next ((s.taken dt h p).reply h 0 (s.netStatus (pw p 0)))) ∧
    (∀ mw ma : Word, s.takes (.pwrRead dt h p mw ma) = true → (∃ k < 1088, s.flag F.TILE_SENSE_VALID k = true) →
      ∃ hot : Int, (∃ k < 1088, s.flag F.TILE_SENSE_VALID k = true ∧ sext (s.fld F.TILE_SENSE_TEMP k) 12 = hot) ∧
        (∀ k < 1088, s.flag F.TILE_SENSE_VALID k = true → sext (s.fld F.TILE_SENSE_TEMP k) 12 ≤ hot) ∧
        exec (.pwrRead dt h p mw ma) s = .next ((s.taken dt h p).reply h 0 [mw.toNat, ma.toNat, wrapTo 32 hot, s.reg .PWR_THROT]))

/-- Model and firmware commands. MODEL_LOAD of a package that passes every check leaves the bank loaded with it and replies its identity;
MODEL_UNLOAD of a bank that is not live empties it; UPD_WRITE stores its bytes in a slot that does not run, which is then no longer
verified; UPD_VERIFY of a slot whose image passes marks it verified; UPD_SWITCH starts the STANDBY pair loading a verified slot. It rests on
the model's choices in logs 102, 103, 104. -/
def Obligations.ModelAndFirmwareCommands : Prop :=
  ∀ (dt : Nat) (h : CmdHdr) (p : List Word) (s : State),
    (∀ (b : List Byte) (pkg : Pkg) (z : Bank), let k := pw p 3 % 2
      s.takes (.modelLoad dt h p (.bytes b) pkg) = true → 7 ≤ s.fld F.DEV_START_STAGE → s.bankSt k ≠ 2 →
      s.pkgCheck (b.take (pw p 2)) (pw p 2) pkg = .ok z →
      ∃ t, exec (.modelLoad dt h p (.bytes b) pkg) s = .next t ∧ t.bank k = z ∧ (∀ j, j ≠ k → t.bank j = s.bank j) ∧
        t.out = (((s.taken dt h p).replyPending h).reply h 0 [z.ident % 2 ^ 32, z.ident / 2 ^ 32 % 2 ^ 32]).out ∧
        s.sameMemory t) ∧
    (s.takes (.modelUnload dt h p) = true → s.bankSt (pw p 0 % 2) ≠ 2 →
      ∃ t, exec (.modelUnload dt h p) s = .next t ∧ t.bank (pw p 0 % 2) = bank0 ∧ (∀ j, j ≠ pw p 0 % 2 → t.bank j = s.bank j) ∧
        t.out = ((s.taken dt h p).reply h 0 []).out ∧ s.sameMemory t) ∧
    (∀ b : List Byte, let k := pw p 0
      s.takes (.updWrite dt h p (.bytes b)) = true → pw p 4 ≤ 2 ^ 20 → pw p 1 + pw p 4 ≤ 2 ^ 21 →
      k ≠ s.fld F.MC_STAT_SLOT ∨ s.flag F.MC_STAT_RECOVERY = true →
      ∃ t, exec (.updWrite dt h p (.bytes b)) s = .next t ∧ (t.fwSlot k).ok = none ∧
        (∀ i, (hi : i < b.length) → i < pw p 4 → mapGet 0xFF (t.fwSlot k).bytes (pw p 1 + i) = b[i]) ∧
        (∀ a, a < pw p 1 ∨ pw p 1 + min (pw p 4) b.length ≤ a →
          mapGet 0xFF (t.fwSlot k).bytes a = mapGet 0xFF (s.fwSlot k).bytes a) ∧
        (∀ j, j ≠ k → t.fwSlot j = s.fwSlot j) ∧ s.sameMemory t) ∧
    (∀ im : Image, s.takes (.updVerify dt h p) = true → s.slotCheck (pw p 0) = .ok im →
      im.dataVerMin ≤ s.running.dataVer ∨ s.flag F.MC_STAT_RECOVERY = true →
      ∃ t, exec (.updVerify dt h p) s = .next t ∧ t.fwSlot (pw p 0) = { s.fwSlot (pw p 0) with ok := some im } ∧
        t.out = (((s.taken dt h p).replyPending h).reply h 0 []).out ∧ s.sameMemory t) ∧
    (s.takes (.updSwitch dt h p) = true → s.flag F.MC_STAT_RECOVERY = false → s.switch = none → (s.fwSlot (pw p 0)).ok ≠ none →
      let q := 1 - s.fld F.MC_STAT_ACTIVE
      s.pairSt q ≠ 3 → ∃ t, exec (.updSwitch dt h p) s = .next t ∧ t.switch = some ⟨h, pw p 0, pwNum p 1 2, none, false⟩ ∧
        t.pairSt q = 2 ∧ t.flag F.MC_STAT_SWITCHING = true ∧ t.out = ((s.taken dt h p).replyPending h).out ∧ s.sameMemory t)

/-- SEC_KEY_SET of an envelope whose signature, counter and wrapped key pass (a command key, TYPE 1) installs the key with its class mask, marks
the slot fresh, forgets the origins of the slot, raises the counter and logs it; SEC_DBG_CHALLENGE keeps the 16 bytes it replies with;
SEC_DBG_UNLOCK consumes the challenge, and a response that passes opens the scope for its minutes. It rests on the model's choice in log
104. -/
def Obligations.SecurityCommands : Prop :=
  ∀ (dt : Nat) (h : CmdHdr) (p : List Word) (s : State),
    (∀ (b key : List Byte), let slot := pw p 0 % 8
      s.takes (.secKeySet dt h p (.bytes b)) = true → numAt b 0 2 = 0x5A4B → numAt b 2 1 = 1 → numAt b 3 1 = 1 →
      ownerIs s.fuses (slice b 164 96) = true → Config.ecdsa (slice b 164 96) (b.take 260) (slice b 260 96) = true →
      s.keyCounter < numAt b 4 4 → secretOk s.fuses = true →
      Config.unwrapKey s.fuses.serial (slice b 8 96) (slice b 104 12) (slice b 116 32) (slice b 148 16) = some key →
      ∃ t, exec (.secKeySet dt h p (.bytes b)) s = .next t ∧ mapGet none t.keys slot = some key ∧
        mapGet 0 t.keyMask slot = pw p 0 / 65536 ∧ mapGet false t.keyFresh slot = true ∧ mapGet [] t.origins slot = [] ∧
        t.keyCounter = numAt b 4 4 ∧ (t.fld F.SEC_STAT_CMD_KEYS).testBit slot = true ∧
        (∀ k, k ≠ slot → mapGet none t.keys k = mapGet none s.keys k) ∧ s.sameMemory t) ∧
    (s.takes (.secDbgChallenge dt h p) = true →
      ∃ w : List Nat, w.length = 4 ∧ (∀ v ∈ w, v < 2 ^ 32) ∧ exec (.secDbgChallenge dt h p) s =
        .next (({ s.taken dt h p with freeCtr := s.freeCtr + 4,
                                      challenge := some (w.flatMap fun v => leBytes v 4, (s.now + dt) % 2 ^ 64) } : State).reply h 0 w)) ∧
    (∀ b : List Byte, s.takes (.secDbgUnlock dt h p (.bytes b)) = true →
      ∃ t, exec (.secDbgUnlock dt h p (.bytes b)) s = .next t ∧ t.challenge = none ∧
        (∀ c at_, s.challenge = some (c, at_) → c = slice b 8 16 → (s.now + dt) % 2 ^ 64 ≤ at_ + 60000000000 →
          numAt b 0 2 = 0x5A44 → numAt b 2 1 = 1 → numAt b 3 1 < 8 → 1 ≤ numAt b 4 4 → numAt b 4 4 ≤ 480 →
          numAt b 24 8 = s.fuses.serial → ownerIs s.fuses (slice b 32 96) = true →
          Config.ecdsa (slice b 32 96) (b.take 128) (slice b 128 96) = true →
          t.fld F.SEC_STAT_DBG_SCOPE = numAt b 3 1 ∧ t.fld F.SEC_STAT_DBG_MIN_LEFT = numAt b 4 4 ∧ t.dbgFrom = (s.now + dt) % 2 ^ 64) ∧
        (s.challenge = none → exec (.secDbgUnlock dt h p (.bytes b)) s = .next ((s.taken dt h p).reply h 0x0404 [])))

/-- The record of every action whose operands fit decodes to that action, and TX_ADD accepts it. -/
def Obligations.WaymarkRecordDecodesToItsAction : Prop :=
  ∀ (a : Act) (v : Nat), recordOf a = some v → actFits a = true → wayActs v = [a] ∧ wayOk v = true

/-- Milestones (R276). There are 16,384, each with COUNT and TARGET of 32 bits, STRIDE of 16, OWNER of 3, FIRED and EVT of one. One is reached
for a target when the difference of count and target, mod 2³², is below 2³¹; so a count that wraps stays reached while no target trails it
by 2³¹ or more. -/
def Obligations.MilestoneReachedMeansNotBehind : Prop :=
  (∀ m, (regHas .MS_COUNT m 0 ↔ m < 16384) ∧ (regHas .MS_TARGET m 0 ↔ m < 16384) ∧ (regHas .MS_CFG m 0 ↔ m < 16384)) ∧
  (∀ (s : State) (m : Nat), s.fld F.MS_COUNT_COUNT m < 2 ^ 32 ∧ s.fld F.MS_TARGET_TARGET m < 2 ^ 32 ∧ s.fld F.MS_CFG_STRIDE m < 2 ^ 16 ∧
    s.fld F.MS_CFG_OWNER m < 2 ^ 3 ∧ s.fld F.MS_CFG_FIRED m < 2 ∧ s.fld F.MS_CFG_EVT m < 2) ∧
  ∀ (s : State) (m t : Nat), t < 2 ^ 32 →
    (s.msReached m t = true ↔ (s.fld F.MS_COUNT_COUNT m + 2 ^ 32 - t) % 2 ^ 32 < 2 ^ 31) ∧
    (∀ k, k < 2 ^ 31 → s.fld F.MS_COUNT_COUNT m = (t + k) % 2 ^ 32 → s.msReached m t = true) ∧
    (∀ k, 0 < k → k ≤ 2 ^ 31 → s.msReached m ((s.fld F.MS_COUNT_COUNT m + k) % 2 ^ 32) = false)

/-- ARRIVE n at an owned milestone that nobody waits for adds n to its count modulo 2³² and evaluates it once, whichever way it comes: MS_ARRIVE
written (ms_arrive_write), the oldest arrival of a path (ms_arrival_apply), the MS_ARRIVE command. SET writes the named fields, clears FIRED
and evaluates once; ADVANCE adds the stride to the target: a register write by the MC or the owner (ms_register_set), the MS_SET and
MS_ADVANCE commands of the MC. A host that is not the owner changes nothing. It rests on the model's choices in logs 137, 138. -/
def Obligations.MilestonesTakeArrivalsAndSettings : Prop :=
  (∀ (dt : Nat) (m : Fin 16384) (n : Nat) (s : State), 0 < n → n < 2 ^ 16 → s.fld F.MS_CFG_OWNER m ≠ 0 → s.unwaited m →
    let after (t : State) : Prop := s.evaluated t m ((s.fld F.MS_COUNT_COUNT m + n) % 2 ^ 32) (s.fld F.MS_TARGET_TARGET m)
      (s.fld F.MS_CFG_STRIDE m) (s.flag F.MS_CFG_EVT m) (s.flag F.MS_CFG_FIRED m)
    (∀ (r : Requester) (v : Word), v.toNat % 2 ^ 16 = n → s.access (regAddr .MS_ARRIVE_REG m) 4 = .ok (hitOf .MS_ARRIVE_REG m 0) →
      ∃ t, exec (.msArriveWrite dt r m v) s = .next t ∧ after t ∧ s.keeps t (msRegs m) ∧
        t = { s.tick dt with regs := t.regs, pulses := t.pulses, arrSent := t.arrSent, arrRecv := t.arrRecv, arrMs := t.arrMs }) ∧
    (∀ (path : Fin 1100) (rest : List Arrival), s.arrFly = ⟨path, m, n⟩ :: rest →
      ∃ t, exec (.msArrivalApply dt path) s = .next t ∧ after t ∧ t.arrFly = rest ∧ s.keeps t (msRegs m) ∧
        t = { s.tick dt with regs := t.regs, pulses := t.pulses, arrFly := rest, arrRecv := t.arrRecv, arrMs := t.arrMs }) ∧
    (∀ (h : CmdHdr) (p : List Word), s.takes (.msArrive dt h p) = true → bitsOf (pw p 0) 0 14 = m → bitsOf (pw p 0) 16 16 = n →
      ∃ t, exec (.msArrive dt h p) s = .next t ∧ after t ∧ s.sameMemory t)) ∧
  (∀ (dt : Nat) (m : Fin 16384) (s : State), s.unwaited m →
    let c := s.fld F.MS_COUNT_COUNT m
    let g := s.fld F.MS_TARGET_TARGET m
    let st := s.fld F.MS_CFG_STRIDE m
    let ev := s.flag F.MS_CFG_EVT m
    (∀ (r : Requester) (k : Fin 3) (v : Word), s.access (regAddr (msReg k) m) 4 = .ok (hitOf (msReg k) m 0) →
      (r = .mc ∨ (fromHost r = true ∧ s.fld F.MS_CFG_OWNER m = 1) →
        ∃ t, exec (.msRegisterSet dt r k m v) s = .next t ∧
          s.evaluated t m (if k = 0 then v.toNat else c) (if k = 1 then v.toNat else g)
            (if k = 2 then v.toNat % 2 ^ 16 else st) (if k = 2 then bitsOf v.toNat 27 1 == 1 else ev) false ∧
          s.keeps t (msRegs m) ∧ t = { s.tick dt with regs := t.regs, pulses := t.pulses }) ∧
      (r ≠ .mc → s.fld F.MS_CFG_OWNER m ≠ 1 → exec (.msRegisterSet dt r k m v) s =
        .next (((s.tick dt).aelReg r (regAddr (msReg k) m) 7 0x0501 v.toNat).inc F.MS_STAT_NOT_OWNER))) ∧
    (∀ (h : CmdHdr) (p : List Word), h.src = .mc → bitsOf (pw p 0) 0 14 = m →
      (s.takes (.msSet dt h p) = true → bitsOf (pw p 0) 19 1 = 0 →
        ∃ t, exec (.msSet dt h p) s = .next t ∧
          s.evaluated t m (if bitsOf (pw p 0) 16 1 = 1 then pw p 1 else c) (if bitsOf (pw p 0) 17 1 = 1 then pw p 2 else g)
            (if bitsOf (pw p 0) 18 1 = 1 then bitsOf (pw p 3) 0 16 else st)
            (if bitsOf (pw p 0) 20 1 = 1 then bitsOf (pw p 3) 16 1 == 1 else ev) false ∧
          s.keeps t (msRegs m) ∧ s.sameMemory t) ∧
      (s.takes (.msAdvance dt h p) = true →
        ∃ t, exec (.msAdvance dt h p) s = .next t ∧
          s.evaluated t m c ((g + st) % 2 ^ 32) st ev (s.flag F.MS_CFG_FIRED m) ∧ s.keeps t (msRegs m) ∧ s.sameMemory t)))

/-- MS_WAIT replies the count at once where the milestone is reached; else it waits, and its timeout ends it with RES_TIMEOUT (0x0507). An
arrival that reaches its target answers it with the new count. -/
def Obligations.MilestoneWaits : Prop :=
  ∀ (dt : Nat) (h : CmdHdr) (s : State),
    (∀ p : List Word, s.takes (.msWait dt h p) = true → let m := bitsOf (pw p 0) 0 14
      (s.msReached m (pw p 1) = true → exec (.msWait dt h p) s = .next ((s.tick dt).reply h 0 [s.fld F.MS_COUNT_COUNT m])) ∧
      (s.msReached m (pw p 1) = false → s.waitCmds < 1024 → exec (.msWait dt h p) s = .next { s.tick dt with
        waiters := s.waiters ++ [⟨.cmd h (if pw p 2 = 0 then none else some ((s.now + dt) % 2 ^ 64 + pw p 2 * 1000)), m, pw p 1⟩] })) ∧
    (∀ (d m g : Nat), s.csmQuiet = true → s.waiters = [⟨.cmd h (some d), m, g⟩] → d ≤ (s.now + dt) % 2 ^ 64 →
      exec (.msWaitTimeout dt h) s = .next (({ s.tick dt with waiters := [] } : State).reply h 0x0507 [])) ∧
    (∀ (path : Fin 1100) (m : Fin 16384) (d g n : Nat), h.src = .mc → s.waiters = [⟨.cmd h (some d), m, g⟩] →
      s.arrFly = [⟨path, m, n⟩] → 0 < n → n < 2 ^ 16 →
      ((s.fld F.MS_COUNT_COUNT m + n) % 2 ^ 32 + 2 ^ 32 - g % 2 ^ 32) % 2 ^ 32 < 2 ^ 31 →
      ∃ t, exec (.msArrivalApply dt path) s = .next t ∧ t.waiters = [] ∧
        t.out = s.out ++ [.mcReply ⟨h, 0, true, [(s.fld F.MS_COUNT_COUNT m + n) % 2 ^ 32]⟩] ∧ s.sameMemory t)

/-- TX_OPEN takes a FREE transaction and reserves its records; TX_ADD stores a record and counts it; TX_PREPARE fixes the commit point, gives
unused records back and is PREPARING; TX_ABORT of an OPEN transaction frees it with the status TX_ABORTED (0x050B). -/
def Obligations.TransactionsOpenFillPrepareAbort : Prop :=
  ∀ (dt : Nat) (h : CmdHdr) (p : List Word) (t : Nat) (s : State), t < 64 →
    let size := bitsOf (pw p 0) 0 11
    let named := bitsOf (pw p 0) 31 1 = 1
    (s.takes (.txOpen dt h p) = true → 1 ≤ size → size ≤ 1920 →
      (if named then bitsOf (pw p 0) 16 6 = t ∧ s.txState t = 0 else s.freeTx = some t) →
      s.fld F.WAY_STAT_OPEN < 64 → size ≤ s.fld F.WAY_STAT_FREE → s.wayBad = false →
      ∃ x, exec (.txOpen dt h p) s = .next x ∧ x.txState t = 1 ∧ x.fld F.WAY_TX_SIZE_SIZE t = size ∧
        x.fld F.WAY_TX_SIZE_USED t = 0 ∧ x.fld F.WAY_STAT_FREE = s.fld F.WAY_STAT_FREE - size ∧
        x.fld F.WAY_STAT_OPEN = s.fld F.WAY_STAT_OPEN + 1 ∧ (x.tx t).origin = cmdOrigin h ∧
        x.out = ((s.tick dt).reply h 0 [t]).out ∧ s.sameMemory x) ∧
    (∀ i : Nat, let kind := bitsOf (pw p 0) 8 8
      s.takes (.txAdd dt h p) = true → bitsOf (pw p 0) 0 6 = t → wayOk (kind + pwNum p 2 12 * 2 ^ 128) = true → kind ≠ 10 →
      s.txState t = 1 → (s.tx t).origin = cmdOrigin h → s.fld F.WAY_TX_SIZE_USED t < s.fld F.WAY_TX_SIZE_SIZE t →
      s.freeRec (s.txRec t) = some i →
      ∃ x, exec (.txAdd dt h p) s = .next x ∧ wayKind (x.wayGet i) = kind ∧ wayTxid (x.wayGet i) = t ∧
        wayActs (x.wayGet i) = wayActs (kind + pwNum p 2 12 * 2 ^ 128) ∧
        (∀ j, j ≠ i → x.wayGet j = s.wayGet j) ∧
        x.fld F.WAY_TX_SIZE_USED t = s.fld F.WAY_TX_SIZE_USED t + 1 ∧
        x.out = ((s.tick dt).reply h 0 [s.fld F.WAY_TX_SIZE_USED t]).out ∧ s.sameMemory x) ∧
    (s.takes (.txPrepare dt h p) = true → bitsOf (pw p 0) 0 6 = t → bitsOf (pw p 0) 8 2 = 0 → s.txState t = 1 →
      (s.tx t).origin = cmdOrigin h → s.prepareMay h = true → s.txRec t = false →
      s.fld F.WAY_STAT_FREE + s.fld F.WAY_TX_SIZE_SIZE t < 2 ^ 11 →
      ∃ x, exec (.txPrepare dt h p) s = .next x ∧ x.txState t = 2 ∧ x.fld F.WAY_TX_STAT_POINT t = 0 ∧ (x.tx t).prep = some h ∧
        x.fld F.WAY_TX_SIZE_SIZE t = s.fld F.WAY_TX_SIZE_USED t ∧
        x.fld F.WAY_STAT_FREE = s.fld F.WAY_STAT_FREE + (s.fld F.WAY_TX_SIZE_SIZE t - s.fld F.WAY_TX_SIZE_USED t) ∧
        s.keeps x [(.WAY_STAT, 0, 0), (.WAY_TX_SIZE, t, 0), (.WAY_TX_STAT, t, 0), (.WAY_TX_POINT, t, 0)] ∧
        x = { s.tick dt with regs := x.regs, txs := x.txs }) ∧
    (s.takes (.txAbort dt h p) = true → bitsOf (pw p 0) 0 6 = t → s.txState t = 1 → (s.tx t).origin = cmdOrigin h →
      (s.tx t).prep = none → (s.tx t).peer = none → (s.tx t).coord = false → s.svc = [] → s.switch = none →
      ∃ x, exec (.txAbort dt h p) s = .next x ∧ x.txState t = 0 ∧ x.fld F.WAY_TX_STAT_LAST_STATUS t = 0x050B ∧
        x.fld F.WAY_TX_SIZE_SIZE t = 0 ∧ (∀ e ∈ x.ents, e.tx ≠ t) ∧ (∀ i ∈ s.wayOf t, x.wayGet i = 0) ∧
        x.out = ((s.tick dt).reply h 0 []).out ∧ s.sameMemory x)

/-- The prepare phase of a transaction that the checks pass while no other transaction holds anything makes it PREPARED and posts PENDING;
IMMEDIATE commits it at once. The commit signal of one odometer action puts the position in place and frees the transaction. It rests on the
model's choice in log 83. -/
def Obligations.PreparedTransactionsCommitAndTakeEffect : Prop :=
  ∀ (dt : Nat) (t : Fin 64) (h : CmdHdr) (s : State), (s.tx t).prep = some h → (s.tx t).peer = none → (s.tx t).coord = false →
    (let u := s.tick dt
      let es := (u.txActs t).flatMap (u.entriesOf t)
      s.txState t = 2 → s.mcUp = true → s.fld F.WAY_TX_STAT_POINT t = 0 → s.ents = [] →
      u.txCheck t ((u.txActs t).map (·.2)) es = none →
      ∃ x, exec (.txPrepared dt t) s = .next x ∧ x.txState t = 4 ∧ (x.tx t).commitTime = (s.now + dt) % 2 ^ 64 ∧
        x.ents = es.map (fun e => { e with phase := .sent, tag := s.nextB, order := s.orderNext + 1 }) ∧
        x.out = (u.replyPending h).out ∧ s.sameMemory x) ∧
    (∀ (i : Nat) (u : Fin 4) (pos : Nat) (g : Int) (o : Nat), s.txState t = 4 → pos < 2 ^ 64 → s.svc = [] → s.switch = none →
      s.fld F.WAY_TX_STAT_POINT t = 0 → s.ents = [⟨t, i, .odo u pos, .signal, .sent, g, o⟩] →
      ∃ x, exec (.commitSignalArrive dt t) s = .next x ∧ x.fld F.ODO_POS_POS u = pos ∧ x.ents = [] ∧ x.txState t = 0 ∧
        x.tx t = tx0 ∧ s.sameMemory x)

/-- System transactions across devices. The coordinator opens its entry and sends PREPARE (TX_SYS_PREPARE); a participant without the
transaction refuses it (PREPARE); votes add to the coordinator's READY bitmap, GO lets a participant's part go on, ABORT of no part is
answered with DONE, and the last DONE ends the command with DONE; a vote that closes with every device READY sends GO. TX_SYS_PREPARE of a
transaction whose system record names this device alone opens the coordinator's entry, prepares its own part for boundary b and posts
PENDING. It rests on the model's choices in logs 9, 29. -/
def Obligations.SystemTransactionsRun : Prop :=
  (∀ (dt : Nat) (src : Fin 256) (sysid : Fin 65536) (s : State),
    (∀ b : DWord, (∀ t < 64, ¬ (s.txState t = 1 ∧ s.fld F.WAY_TX_STAT_ORIGIN t = 2 ∧ (s.tx t).sysId = sysid ∧ (s.tx t).coord = false)) →
      exec (.sysPrepareMsg dt src sysid b) s = .next ((s.tick dt).ctlTo src (.refuse sysid 0x0503))) ∧
    (∀ b : DWord, ∀ t < 64, s.txState t = 1 → s.fld F.WAY_TX_STAT_ORIGIN t = 2 → (s.tx t).sysId = sysid → (s.tx t).coord = false →
      (∀ k < t, s.txState k = 0) → s.nextB ≤ sext b.toNat 56 →
      ∃ x, exec (.sysPrepareMsg dt src sysid b) s = .next x ∧ x.txState t = 2 ∧ x.fld F.WAY_TX_STAT_POINT t = 1 ∧
        (x.tx t).peer = some src.val ∧ s.sameMemory x) ∧
    (∀ (refused : Option (Fin 65536)) (c : Coord), s.coords = [c] → c.sysId = sysid → c.closed = false →
      exec (.sysVoteReply dt src sysid refused) s = .next { s.tick dt with coords := [match refused with
        | none => { c with ready := withBit c.ready src }
        | some code => { c with refused := some (c.refused.getD code) }] }) ∧
    (∀ c : Coord, s.coords = [c] → c.sysId = sysid → c.closed = false → c.refused = none → c.ready = c.devices →
      c.devices = 2 ^ s.fld F.JCT_SYS_DEVNUM → s.linesTo (sext c.b 56) ≤ s.fld F.WAY_SYS_CFG_GUARD_LINES →
      ∃ x, exec (.sysVoteClose dt sysid) s = .next x ∧ x.coords = [{ c with closed := true }] ∧
        (x.tx c.tx).go = true ∧ x = { s.tick dt with coords := x.coords, txs := x.txs }) ∧
    (∀ t, s.sysPart src sysid = some t → ∃ x, exec (.sysGoMsg dt src sysid) s = .next x ∧ x.tx t = { s.tx t with go := true } ∧
      (∀ k, k ≠ t → x.tx k = s.tx k) ∧ x = { s.tick dt with txs := x.txs }) ∧
    (s.sysPart src sysid = none → exec (.sysAbortMsg dt src sysid) s = .next ((s.tick dt).ctlTo src (.done sysid false))) ∧
    (∀ c : Coord, s.coords = [c] → c.sysId = sysid → c.closed = true → c.refused = none → c.hdr.src = .mc →
      withBit c.done src = c.devices → withBit c.committed src = c.devices →
      ∃ x, exec (.sysDoneMsg dt src sysid true) s = .next x ∧ x.coords = [] ∧
        x.out = s.out ++ [.hostWrite 0 c.result (leBytes c.devices 32) false, .mcReply ⟨c.hdr, 0, true, []⟩] ∧ s.sameMemory x)) ∧
  (∀ (dt : Nat) (h : CmdHdr) (p : List Word) (s : State),
    let t := bitsOf (pw p 0) 0 6
    let sysid := bitsOf (pw p 1) 0 16
    let b := pwNum p 2 2 % 2 ^ 56
    s.takes (.txSysPrepare dt h p) = true → s.txState t = 1 → (s.tx t).origin = cmdOrigin h → s.prepareMay h = true →
    s.sysDevices t sysid = some (2 ^ s.fld F.JCT_SYS_DEVNUM) → s.coords = [] →
    2 * (s.fld F.WAY_SYS_CFG_GUARD_LINES : Int) ≤ s.linesTo (sext b 56) →
    ∃ x, exec (.txSysPrepare dt h p) s = .next x ∧ x.txState t = 2 ∧ x.fld F.WAY_TX_STAT_POINT t = 1 ∧
      x.coords = [⟨h, t, sysid, b, 2 ^ s.fld F.JCT_SYS_DEVNUM, pwNum p 4 2, 0, none, false, 0, 0⟩] ∧
      (x.tx t).coord = true ∧ (x.tx t).sysId = sysid ∧ s.sameMemory x)

/-- Commands of the MC. RING_SETUP of a ring that is not enabled sets it up empty; PWR_DEVICE posts DONE with the log mirrored and begins entry;
PWR_POLICY of one value within its range takes it into the table; SVC_REPORT, LOG_READ and PLB_CENSUS write their records to the host and
reply how many; LOG_MARK appends an entry 0xE008; CXP_CTRL sends the access to the camera and stays open; NET_CONFIG applies its entries
where every one passes, and none where one does not. It rests on the model's choices in logs 15, 106. -/
def Obligations.ManagementCommandsAct : Prop :=
  ∀ (dt : Nat) (h : CmdHdr) (p : List Word) (s : State),
    let u := s.taken dt h p
    (let r := pw p 0 % 16;
      s.takes (.ringSetup dt h p) = true → bitsOf (pw p 0) 31 1 = 1 → s.fld F.CMD_EGR_STAT_EN r = 0 → pwNum p 1 2 % 4096 = 0 →
      16 ≤ pw p 3 → pw p 3 ≤ 30 → pwNum p 5 2 % 8 = 0 →
      ∃ t, exec (.ringSetup dt h p) s = .next t ∧ t.fld F.CMD_EGR_STAT_EN r = 1 ∧
        t.fld F.CMD_EGR_BASE_ADDR r * 4096 = pwNum p 1 2 ∧ t.fld F.CMD_EGR_BASE_SIZE_LOG2 r = pw p 3 ∧
        t.fld F.CMD_EGR_TAIL_TAIL r = 0 ∧ t.fld F.CMD_EGR_HEAD_HEAD r = 0 ∧ (t.eRing r).written = 0 ∧
        (t.eRing r).connMask = pw p 4 % 65536 ∧ (t.eRing r).typeMask = bitsOf (pw p 4) 16 7 ∧ (t.eRing r).shadow = pwNum p 5 2 ∧
        (∀ k, k ≠ r → t.eRing k = s.eRing k) ∧ t.out = (u.reply h 0 []).out ∧ s.sameMemory t) ∧
    (s.takes (.pwrDevice dt h p) = true → pw p 0 % 2 = 1 → s.fld F.DEV_START_STAGE = 8 → u.mayEnter = true → s.domOn 2 = true →
      ∃ t, exec (.pwrDevice dt h p) s = .next t ∧ t.seq.entry = some (pw p 0) ∧ t.flag F.PWR_STAT_BUSY = true ∧
        t.tollHigh = [] ∧ t.tollNorm = [] ∧ (∀ c < 34, s.fld F.PWR_COL_STATE c ≠ 3 → (t.col c).leaving = some 3) ∧
        (∀ e ∈ t.log, e.mirrored = true) ∧ t.out = (u.reply h 0 []).out ∧ s.sameMemory t) ∧
    (∀ (b : List Byte) (id v d lo hi : Nat), s.takes (.pwrPolicy dt h p (.bytes b)) = true →
      policyEntries b (pw p 2) = some [(id, v)] → s.policyRow id = some (d, lo, hi) → lo ≤ v → v ≤ hi →
      ∃ t, exec (.pwrPolicy dt h p (.bytes b)) s = .next t ∧ t.pol id = v ∧ (∀ k, k ≠ id → t.pol k = s.pol k) ∧
        (id = 0x0B → t.fld F.CAL_CFG_DELTA_T = v) ∧ (id = 0x0C → t.fld F.CAL_CFG_MAX_H = v) ∧
        (id = 0x0D → t.fld F.CAL_CFG_CONF_MIN = v) ∧ (id = 0x0E → t.fld F.CAL_HOLD_HOLD_S = v) ∧
        t.out = (u.reply h 0 []).out ∧ s.sameMemory t) ∧
    (s.takes (.svcReport dt h p) = true → 16 ≤ pw p 2 → let n := min ((pw p 2 - 16) / 16) s.repair.length;
      let b := leBytes 0x5A52 2 ++ leBytes 0 2 ++ leBytes n 4 ++ leBytes s.repairAt 8 ++ (s.repair.take n).flatMap repairBytes;
      exec (.svcReport dt h p) s = .next ((u.emit (.hostWrite (s.cmdLink h) (pwNum p 0 2) b false)).reply h 0 [b.length])) ∧
    (s.takes (.logRead dt h p) = true → 64 ≤ pw p 2 → pw p 2 ≤ 65536 → pw p 2 % 64 = 0 → let es := (s.logFrom (pw p 3)).take (pw p 2 / 32);
      (es = [] → exec (.logRead dt h p) s = .next (u.reply h 0 [0, pw p 3])) ∧
      (∀ e, es.getLast? = some e → exec (.logRead dt h p) s = .next ((u.emit (.hostWrite (s.cmdLink h) (pwNum p 0 2)
        (es.flatMap logBytes) false)).reply h 0 [es.length, logIndexAfter e.index]))) ∧
    (s.takes (.logMark dt h p) = true → ∃ t e, exec (.logMark dt h p) s = .next t ∧ t.log.getLast? = some e ∧ e.index = s.logNext ∧
      e.src = 8 ∧ e.code = 0xE008 ∧ e.args = [pw p 0, 0, 0, 0] ∧ t.logNext = logIndexAfter s.logNext ∧
      t.out = (u.reply h 0 [s.logNext]).out ∧ s.sameMemory t) ∧
    (s.takes (.plbCensus dt h p) = true → let es := (s.plb (pw p 0)).census;
      (es = [] → exec (.plbCensus dt h p) s = .next (u.reply h 0 [0])) ∧
      (es ≠ [] → exec (.plbCensus dt h p) s = .next ((u.emit (.hostWrite (s.cmdLink h) (pwNum p 1 2)
        (es.flatMap (u.censusBytes (pw p 0))) false)).reply h 0 [es.length]))) ∧
    (let c := pw p 0 % 16;
      let wr := bitsOf (pw p 0) 8 1 == 1;
      let n := bitsOf (pw p 0) 16 6;
      s.csmQuiet = true → s.mcRuns = true → s.admitCode h p 0x0302 ([0x3F010F] ++ List.replicate 9 wAll) = none →
      (s.conn c).ctrl = none → n % 4 = 0 → 4 ≤ n → n ≤ (if wr then 32 else 16) → s.connState c = 2 ∨ s.connState c = 3 →
      (s.conn c).gv = false →
      ∃ t, exec (.cxpCtrl dt h p) s = .next t ∧ t.conn c = { s.conn c with ctrl := some (h, wr) } ∧
        (∀ k, k ≠ c → t.conn k = s.conn k) ∧
        (∀ l, s.masterLink c = some l → t.out = s.out ++
          [.cxp l (if wr then .passWrite (pw p 1) (leBytes (pwNum p 2 8) n) else .passRead (pw p 1) n)]) ∧ s.sameMemory t) ∧
    (∀ b : List Byte, s.takes (.netConfig dt h p (.bytes b)) = true → pw p 2 ≤ 4096 → pw p 2 % 8 = 0 →
      let es := (List.range (pw p 2 / 8)).map fun i => (numAt b (8 * i) 4, numAt b (8 * i + 4) 4);
      ((∀ e ∈ es, u.netEntryOk e.1 e.2 = true) → exec (.netConfig dt h p (.bytes b)) s =
        .next ((es.foldl (fun s e => s.bar0Write .mc e.1 4 e.2) u).reply h 0 []).settle) ∧
      ((∃ e ∈ es, u.netEntryOk e.1 e.2 = false) → exec (.netConfig dt h p (.bytes b)) s = .next (u.reply h 0x0102 [])))

/-- Catalogue commands. CAT_REQUEST queues the request on the host queue; CAT_VOID changes the void-map bit of its row and no other bit, as the
register CAT_VOID does (cat_void_write); the queue of 64 full is refused with 0x0203. -/
def Obligations.CatalogueCommandsAct : Prop :=
  ∀ (dt : Nat) (s : State),
    (∀ (h : CmdHdr) (p : List Word), s.takes (.catRequest dt h p) = true → 7 ≤ s.fld F.DEV_START_STAGE →
      (s.catHost.length < 64 → ∃ t, exec (.catRequest dt h p) s = .next t ∧
        t.catHost = s.catHost ++ [⟨none, some h, pwNum p 0 10, 0⟩] ∧ t.fld F.CAT_STAT_HOSTQ = s.catHost.length + 1 ∧
        s.keeps t [(.CAT_STAT, 0, 0)] ∧ t = { s.tick dt with regs := t.regs, catHost := t.catHost }) ∧
      (64 ≤ s.catHost.length → exec (.catRequest dt h p) s = .next ((s.tick dt).reply h 0x0203 []))) ∧
    (∀ (k row q : Nat) (clear : Bool), k < 64 → row < 2 ^ 30 → s.flag F.CAT_TAB_FMT_EN k = true → row < s.fld F.CAT_TAB_ROWS_ROWS k →
      s.hbmPhys (s.fld F.CAT_TAB_VMAP_ADDR k * 64 + row / 8) = some q → s.flag F.RAS_PMIG_EN = false →
      let after (t : State) : Prop :=
        t.hbmByte q = BitVec.ofNat 8 (putBits (s.hbmByte q).toNat (row % 8) 1 (if clear then 0 else 1)) ∧
        (∀ a, a ≠ q → t.hbmByte a = s.hbmByte a) ∧ (∀ a, t.depByte a = s.depByte a)
      (∀ (h : CmdHdr) (p : List Word), s.takes (.catVoid dt h p) = true → bitsOf (pw p 0) 0 6 = k → pw p 1 = row →
        (bitsOf (pw p 0) 31 1 = if clear then 1 else 0) → ∃ t, exec (.catVoid dt h p) s = .next t ∧ after t) ∧
      (∀ (r : Requester) (v : DWord), s.access (regAddr .CAT_VOID_REG) 8 = .ok (hitOf .CAT_VOID_REG 0 0) →
        bitsOf v.toNat 56 6 = k → v.toNat % 2 ^ 30 = row → (bitsOf v.toNat 63 1 = if clear then 1 else 0) →
        ∃ t, exec (.catVoidWrite dt r v) s = .next t ∧ after t ∧ s.keeps t []))

/-- Service procedures. SVC_TEST_COLUMN of an active column, SVC_MOVE_CONN, SVC_RETIRE_PAGE and SVC_SHOULDER post PENDING and prepare the
transaction of their first step, which the procedure waits for. It rests on the model's choices in logs 93, 94, 95. -/
def Obligations.ServiceCommandsPrepareTheirFirstStep : Prop :=
  ∀ (dt : Nat) (h : CmdHdr) (p : List Word) (x : Nat) (s : State), s.freeTx = some x → s.fld F.WAY_STAT_OPEN < 64 → s.wayBad = false →
    let room (n : Nat) : Prop := n ≤ s.fld F.WAY_STAT_FREE
    let goes (c : Instr) (j : Svc) : Prop := ∃ t, exec c s = .next t ∧ j ∈ t.svc ∧ t.txState x = 2 ∧ (t.tx x).origin = 1 ∧
      t.out = ((s.taken dt h p).replyPending h).out ∧ (∀ a, t.depByte a = s.depByte a)
    (∀ k, s.takes (.svcTestColumn dt h p) = true → pw p 0 ≤ 33 → s.fld F.DEV_START_STAGE = 8 → pw p 0 ≠ s.laybyCol 0 →
      pw p 0 ≠ s.laybyCol 1 → s.freeSubst = some k → room 17 →
      goes (.svcTestColumn dt h p) ⟨some h, 1, pw p 0, k, 0, 0, 1, some x⟩) ∧
    (let c := pw p 0 % 16;
      let v := bitsOf (pw p 0) 8 4;
      let u := s.fld F.ING_CONN_CFG_UNIT c;
      s.takes (.svcMoveConn dt h p) = true → s.fld F.DEV_START_STAGE = 8 → s.fld F.ING_CONN_CFG_STATE c = 3 →
      s.flag F.ING_CONN_CFG_STEERED c = true → u ≠ v → s.connOf v = none → room ((((s.taken dt h p).replyPending h).setWrites u v).length / 4 + 3) →
      goes (.svcMoveConn dt h p) ⟨some h, 2, c, v, 0, 0, 1, some x⟩) ∧
    (∀ d : Fin 12288, let k := pw p 0;
      let e := s.pmapGet k (pw p 1);
      s.takes (.svcRetirePage dt h p (some d)) = true → pw p 1 ≤ 12287 → 7 ≤ s.fld F.DEV_START_STAGE → bitsOf e 31 1 = 1 →
      d ≠ e % 2 ^ 14 → 12288 * k + d ∉ s.pagesOut → bitsOf (s.fld F.STR_OCTET_RETIRED k) (d % 4) 1 = 0 →
      s.flag F.RAS_PMIG_EN = false → room 1 →
      goes (.svcRetirePage dt h p (some d)) ⟨some h, 3, k, pw p 1, e % 2 ^ 14, d, 1, some x⟩) ∧
    (s.takes (.svcShoulder dt h p) = true → room 4 →
      goes (.svcShoulder dt h p) ⟨some h, 4, pw p 0 % 65536, 0, 0, 0, 1, some x⟩)

/-- Commands reach the command state machine. A fetch brings one entry of a queue: the SQ head moves, the entry counts as outstanding, and a
command of the MC goes to its FIFO; a fetch that ends in a PCIe error sets FETCH_ERR. A command datagram that passes R368 makes its SEQ the
last of its origin; one of a class that its key may use goes to the MC FIFO, one of another is answered SEC_CLASS (0x0403). It rests on the
model's choices in logs 105, 107. -/
def Obligations.CommandsAreFetchedAndReceived : Prop :=
  ∀ (dt : Nat) (b : List Byte) (s : State), s.csmQuiet = true → s.mcUp = true →
    (∀ q : Fin 64, 1 ≤ s.fetchMay q → let head := (s.fld F.CMD_Q_STAT_SQ_HEAD q + 1) % s.sqDepth q;
      let x := pktOf (.queue q) head b;
      (b.length = 64 → mOps.contains x.hdr.opcode = true → x.hdr.flags % 2 = 0 →
        ∃ t, exec (.sqFetchComplete dt q (.bytes b)) s = .next t ∧ t.mcFifo = s.mcFifo ++ [x] ∧
          t.fld F.CMD_Q_STAT_SQ_HEAD q = head % 2 ^ 12 ∧ t.fld F.CMD_Q_STAT_OUTST q = s.fld F.CMD_Q_STAT_OUTST q + 1 ∧
          t.flag F.CMD_Q_STAT_IDLE q = false ∧ t.csmQuiet = true ∧ s.keeps t [(.CMD_Q_STAT, q, 0), (.CMD_STAT, 0, 0)] ∧
          t.out = s.out ∧ s.sameMemory t) ∧
      (exec (.sqFetchComplete dt q .error) s = .next ((s.tick dt).setFld F.CMD_Q_STAT_FETCH_ERR 1 q))) ∧
    (∀ (p : Fin 6) (mac sport : Nat) (src : Word), let k := numAt b 3 1 % 8;
      let o := numAt b 4 4;
      let x := pktOf (.net (Fin.ofNat 8 k) (BitVec.ofNat 32 o) src sport) 0 (slice b 8 64);
      s.portUp p = true → s.quarantined p mac = false → s.dgramBad b 88 0x5A4C true 12 0 = none →
      (s.classOk k (x.hdr.opcode / 256) = true → mOps.contains x.hdr.opcode = true → x.hdr.flags % 2 = 0 → s.mcFifo.length < 256 →
        ∃ t, exec (.commandDatagram dt p mac src sport b) s = .next t ∧ t.mcFifo = s.mcFifo ++ [x] ∧ t.netOut = s.netOut + 1 ∧
          t.lastSeq k o = some (numAt b 12 4) ∧ s.keeps t [(.CMD_STAT, 0, 0)] ∧ t.out = s.out ∧ s.sameMemory t) ∧
      (s.classOk k (x.hdr.opcode / 256) = false →
        ∃ t, exec (.commandDatagram dt p mac src sport b) s = .next t ∧ t.lastSeq k o = some (numAt b 12 4) ∧
          t.mcFifo = s.mcFifo ∧ t.netFifo = [] ∧ t.out = ((s.tick dt).reply x.hdr 0x0403 []).out ∧ s.sameMemory t))

/-- Calibration. A member whose temperature has moved past DELTA_T, every member of the items that an MC write of CAL_TRIG or a CAL_RUN command
names, becomes due; a measurement is discarded for confidence, kept as the first of its attempt, or, where the second agrees within TOL,
accepted, which updates the spare leg and readies the swap; the swap makes the spare leg active; HOLD_S sets HELD. It rests on the model's
choices in logs 48, 50, 51, 155. -/
def Obligations.CalibrationRuns : Prop :=
  ∀ (dt : Nat) (item : Fin 9) (inst : Nat) (s : State), inst < calCount item →
    let k := calKey item inst
    let x := s.calInst k
    let others (t : State) : Prop := ∀ j, j ≠ k → t.calInst j = s.calInst j
    (∀ (iref : Bool) (v v0 : Int), s.domOn 14 = true → x.lastT = some v0 → 8 * s.fld F.CAL_CFG_DELTA_T < (v - v0).natAbs →
      x.legFail = false → ∃ t, exec (.calDue dt item inst (some v) iref) s = .next t ∧
        (t.calInst k).due = some (x.due.getD ((s.now + dt) % 2 ^ 64)) ∧ (t.calInst k).temp = v ∧ others t ∧ s.sameMemory t) ∧
    (∀ (code temp : Int) (conf : Fin 256), x.due ≠ none → x.swap = false → s.domOn 14 = true →
      (s.flag F.CAL_STAT_REF_FAULT && calTraced item) = false → s.calSkip k = false →
      (conf.val < s.calConf x → ∃ t, exec (.calMeasurement dt item inst code conf temp) s = .next t ∧
        t.calInst k = { x with disc := true, temp := temp } ∧ others t ∧ t = { s.tick dt with cal := t.cal }) ∧
      (s.fld F.CAL_CFG_CONF_MIN ≤ conf.val → x.m1 = none → ∃ t, exec (.calMeasurement dt item inst code conf temp) s = .next t ∧
        t.calInst k = { x with m1 := some code, temp := temp, tol := s.fld F.CAL_ITEM_CFG_TOL item, conf := s.fld F.CAL_CFG_CONF_MIN } ∧ others t ∧ t = { s.tick dt with cal := t.cal }) ∧
      (∀ m1 : Int, x.conf ≤ conf.val → x.m1 = some m1 → (calRange item).1 < m1 → m1 < (calRange item).2 →
        (calRange item).1 < code → code < (calRange item).2 → (m1 - code).natAbs ≤ x.tol →
        ∃ t, exec (.calMeasurement dt item inst code conf temp) s = .next t ∧
          (t.calInst k).due = (if x.again then some ((s.now + dt) % 2 ^ 64) else none) ∧ (t.calInst k).swap = true ∧
          (t.calInst k).active = x.active ∧ (t.calInst k).activeSets = x.activeSets ∧
          (t.calInst k).spareSets = calUpdate k x.spareSets (8 * (m1 + code)) temp ∧ others t ∧ s.sameMemory t)) ∧
    (x.swap = true → s.calLinkBusy k = false → (item.val ≠ 8 ∨ s.fld F.CLK_STAT_REF = 0) → ∃ t, exec (.calSwapComplete dt item inst) s = .next t ∧
      t.calInst k = { x with active := !x.active, swap := false } ∧ others t ∧ t = { s.tick dt with cal := t.cal }) ∧
    (∀ d, x.due = some d → x.disc = true → d + s.fld F.CAL_HOLD_HOLD_S * 1000000000 ≤ (s.now + dt) % 2 ^ 64 →
      ∃ t, exec (.calHoldTimeout dt item inst) s = .next t ∧ t.calInst k = { x with held := true } ∧ others t ∧
        t.flag F.CAL_ITEM_STAT_HELD item = true ∧ s.keeps t [(.CAL_ITEM_STAT, item, 0), (.CAL_STAT, 0, 0)] ∧ s.sameMemory t) ∧
    (∀ (r : Requester) (v : Word) (iref : Bool), s.access (regAddr .CAL_TRIG) 4 = .ok (hitOf .CAL_TRIG 0 0) →
      (r = .mc → bitsOf v.toNat item 1 = 1 → x.legFail = false → ∃ t, exec (.calTrigWrite dt r v iref) s = .next t ∧
        (t.calInst k).due.isSome = true ∧ s.sameMemory t) ∧
      (r ≠ .mc → exec (.calTrigWrite dt r v iref) s = .next ((s.tick dt).aelReg r (regAddr .CAL_TRIG) 11 0 v.toNat))) ∧
    (∀ (h : CmdHdr) (p : List Word) (iref : Bool), s.takes (.calRun dt h p iref) = true → s.fld F.DEV_START_STAGE = 8 →
      bitsOf (pw p 0) item 1 = 1 → x.legFail = false → ∃ t left twice, exec (.calRun dt h p iref) s = .next t ∧
        (t.calInst k).due.isSome = true ∧ t.calCmds = s.calCmds ++ [⟨h, left, 0, twice⟩] ∧ k ∈ left ∧ s.sameMemory t)

/-- Columns and sensors. The regulator of a starting column reports power good: its tiles start on their rings; a DLL locks, times out (200 µs)
or loses lock; a rate window and a conversion fill TILE_RATE and TILE_SENSE; firmware updates DEV_MEAS, its SEQ by two. It rests on the
model's choices in logs 49, 55. -/
def Obligations.ColumnsStartAndTilesReport : Prop :=
  ∀ (dt : Nat) (s : State),
    (∀ c : Fin 34, (s.col c).starting = true → s.fld F.PWR_COL_STATE c = 3 → (s.col c).good = false →
      ∃ t, exec (.columnPowerGood dt c) s = .next t ∧ t.col c = { s.col c with good := true } ∧ t.flag F.CLK_COL_LOCK c = true ∧
        (∀ r < 32, t.tile (32 * c + r) = tile0 ∧ t.flag F.TILE_STAT_ON_RING (32 * c + r) = true ∧
          t.tState (32 * c + r) = if bitsOf (s.fld F.RAS_RETIRED_ROWS c) r 1 = 1 then 5 else 0) ∧
        (∀ j, j / 32 ≠ c → t.tile j = s.tile j) ∧
        s.keeps t ((.CLK_COL, c.val, 0) :: (List.range 32).map fun r => (.TILE_STAT, 32 * c.val + r, 0)) ∧ s.sameMemory t) ∧
    (∀ k : Fin 1088, let x := s.tile k
      (x.dll = 0 → s.flag F.CLK_COL_LOCK (tileCol k) = true →
        (∃ t, exec (.dllLock dt k) s = .next t ∧ t.tile k = { x with dll := 1 } ∧
          (s.fld F.PWR_COL_STATE (tileCol k) ≠ 3 → t.flag F.TILE_STAT_ON_RING k = false ∧ t.flag F.TILE_STAT_LOCK_FAIL k = false) ∧
          s.keeps t [(.TILE_STAT, k, 0)] ∧ t = { s.tick dt with regs := t.regs, tiles := t.tiles }) ∧
        (∃ t, exec (.dllLockTimeout dt k) s = .next t ∧ t.tile k = { x with dll := 2 } ∧ t = { s.tick dt with tiles := t.tiles })) ∧
      (x.dll = 1 → s.flag F.TILE_STAT_ON_RING k = false → ∃ t, exec (.dllLockLoss dt k) s = .next t ∧ t.tile k = { x with dll := 2 } ∧
        t.flag F.TILE_STAT_ON_RING k = true ∧ t.flag F.TILE_STAT_LOCK_LOST k = true ∧ s.keeps t [(.TILE_STAT, k, 0)] ∧
        t = { s.tick dt with regs := t.regs, tiles := t.tiles }) ∧
      (∀ cycles ready : Nat, s.colOpen (tileCol k) = true → ∃ t, exec (.tileRateWindow dt [(k, cycles, ready)]) s = .next t ∧
        t.flag F.TILE_RATE_VALID k = true ∧ t.fld F.TILE_RATE_MHZ k = cycles / 100 % 2 ^ 11 ∧
        t.fld F.TILE_RATE_ACH_PERMILLE k = min 1023 (ready * 1000 / (s.colFreq (tileCol k) * 100)) ∧
        s.keeps t [(.TILE_RATE, k, 0)] ∧ s.sameMemory t) ∧
      (∀ temp volt : Int, s.fld F.PWR_COL_STATE (tileCol k) ≠ 3 → let c := temp + s.calApplied (calKey 4 k)
        let kv := calKey 5 (49 + k)
        ∃ t, exec (.tileSenseConvert dt k temp volt) s = .next t ∧ t.flag F.TILE_SENSE_VALID k = true ∧
          t.fld F.TILE_SENSE_TEMP k = wrapTo 12 c ∧
          (t.fld F.TILE_SENSE_VOLT k : Int) = max 0 (min 1023 (volt + calCode kv (s.calInst kv).activeSets c)) ∧
          s.keeps t [(.TILE_SENSE, k, 0)] ∧ t = { s.tick dt with regs := t.regs, cal := t.cal })) ∧
    (∀ (fj cells achieved compulsory : Nat) (hbm : List (Nat × Nat)), 0 < cells → 0 < compulsory →
      ∃ t, exec (.measUpdate dt fj cells achieved compulsory hbm) s = .next t ∧
        t.fld F.DEV_MEAS_SEQ_SEQ = (s.fld F.DEV_MEAS_SEQ_SEQ + 2) % 2 ^ 32 ∧ t.flag F.DEV_MEAS_ENERGY_VALID = true ∧
        t.fld F.DEV_MEAS_ENERGY_FJ_PER_CELL = min (fj / cells) 0xFFFF ∧ t.flag F.DEV_MEAS_MOVE_VALID = true ∧
        t.fld F.DEV_MEAS_MOVE_RATIO_MILLI = min (achieved * 1000 / compulsory) 0xFFFF ∧
        (t.flag F.DEV_MEAS_HBM_LO_VALID 0 = true ↔ 1000000 ≤ (hbm.getD 0 (0, 0)).2) ∧
        s.keeps t [(.DEV_MEAS_SEQ, 0, 0), (.DEV_MEAS_ENERGY, 0, 0), (.DEV_MEAS_MOVE, 0, 0), (.DEV_MEAS_HBM, 0, 0), (.DEV_MEAS_HBM, 1, 0)] ∧
        t = { s.tick dt with regs := t.regs })

/-- Control of a tile in an open column. SOFT_RESET and RNG_LOAD act in IDLE and HALTED and are recorded otherwise; the end of the reset leaves
the tile IDLE with its exception clear; EXC_CLR clears the exception; HALT_REQ halts a running tile with CAUSE 5; TILE_DBG_DATA reads and
writes the word that TILE_DBG_ADDR names; TILE_MAP takes its entry, and another valid entry of the bank with the same row loses VALID. It
rests on the model's choice in log 82. -/
def Obligations.TileControl : Prop :=
  ∀ (dt : Nat) (r : Requester) (k : Fin 1088) (s : State),
    let may := s.tState k = 0 ∨ s.tState k = 3
    (s.access (regAddr .TILE_CTRL k) 4 = .ok (hitOf .TILE_CTRL k 0) →
      (may → ∃ t, exec (.softReset dt r k) s = .next t ∧ t.tile k = { s.tile k with resetting := true } ∧
        (∀ j, j ≠ k.val → t.tile j = s.tile j) ∧ t = { s.tick dt with tiles := t.tiles }) ∧
      (¬ may → exec (.softReset dt r k) s = .next ((s.tick dt).aelReg r (regAddr .TILE_CTRL k) 9 0 0x80000000)) ∧
      (may → ∃ t, exec (.rngLoad dt r k) s = .next t ∧
        t.gen k = ⟨if s.fld F.TILE_RNG_SEED_SEED k = 0 then 1 else s.fld F.TILE_RNG_SEED_SEED k, 0, 0⟩ ∧
        s.keeps t [(.TILE_RNG_STEPS, k, 0)] ∧ t = { s.tick dt with regs := t.regs, tiles := t.tiles }) ∧
      (∃ t, exec (.excClr dt r k) s = .next t ∧ t.reg .TILE_EXC k = 0 ∧ t.reg .TILE_EXC_PC k = 0 ∧
        s.keeps t [(.TILE_EXC, k, 0), (.TILE_EXC_PC, k, 0)] ∧ t = { s.tick dt with regs := t.regs }) ∧
      (s.issuing k = true → s.taskOf k = none → s.sbList k = [] → ∃ t, exec (.haltReq dt r k) s = .next t ∧ t.tState k = 3 ∧
        (s.fld F.TILE_EXC_CAUSE k = 0 → t.fld F.TILE_EXC_CAUSE k = 5 ∧ t.fld F.TILE_EXC_PC_PC k = (s.tile k).pc % 2 ^ 32) ∧
        s.keeps t [(.TILE_STAT, k, 0), (.TILE_EXC, k, 0), (.TILE_EXC_PC, k, 0)] ∧ t.out = s.out ++ [.report (.tileHalt k 5)] ∧
        t = { s.tick dt with regs := t.regs, out := t.out })) ∧
    ((s.tile k).resetting = true → ∃ t, exec (.softResetComplete dt k) s = .next t ∧ t.tState k = 0 ∧ t.reg .TILE_EXC k = 0 ∧
      t.reg .TILE_EXC_PC k = 0 ∧ t.fld F.TILE_STAT_SB_BUSY k = 0 ∧ (t.tile k).resetting = false ∧ (t.tile k).arrivals = [] ∧
      (t.tile k).sp = (s.tile k).sp ∧ (t.tile k).lb = (s.tile k).lb ∧ (∀ j, j ≠ k.val → t.tile j = s.tile j) ∧
      s.keeps t [(.RAS_STAT, 0, 0), (.TILE_STAT, k, 0), (.TILE_ERRCNT, k, 0), (.TILE_EXC, k, 0), (.TILE_EXC_PC, k, 0)] ∧
      s.sameMemory t) ∧
    (s.access (regAddr .TILE_DBG_DATA k) 4 = .ok (hitOf .TILE_DBG_DATA k 0) → s.dbgMay k = true →
      let a := s.fld F.TILE_DBG_ADDR_BYTE k
      let next (t : State) : Prop :=
        t.fld F.TILE_DBG_ADDR_BYTE k = (if dbgSize (s.fld F.TILE_DBG_ADDR_SPACE k) ≤ a / 4 * 4 + 4 then 0 else a / 4 * 4 + 4) ∧
        s.keeps t [(.TILE_DBG_ADDR, k, 0)] ∧ s.sameMemory t
      (∃ t, exec (.tileDbgDataAccess dt r k none) s = .next t ∧ next t ∧ t.out = s.out ++ [.readData r (s.dbgGet k)] ∧
        t.tiles = s.tiles) ∧
      (∀ v : Word, ∃ t, exec (.tileDbgDataAccess dt r k (some v)) s = .next t ∧ next t ∧ t.out = s.out ∧
        (t.setFld F.TILE_DBG_ADDR_BYTE a k).dbgGet k = v.toNat ∧ (∀ j, j ≠ k.val → t.tile j = s.tile j))) ∧
    (∀ (i : Fin 256) (v : Word), s.access (regAddr .TILE_MAP k i) 4 = .ok (hitOf .TILE_MAP k i) → s.flag F.TILE_MAP_RETIRED k i = false →
      let bank := i.val / 16
      ∃ t, exec (.tileMapWrite dt r k i v) s = .next t ∧ t.reg .TILE_MAP k i = bitsOf v.toNat 30 2 * 2 ^ 30 + v.toNat % 1024 ∧
        (bitsOf v.toNat 31 1 = 1 → ∀ j, j / 16 = bank → j ≠ i.val → t.fld F.TILE_MAP_LROW k j = v.toNat % 1024 →
          t.flag F.TILE_MAP_VALID k j = false) ∧
        s.keeps t ((List.range 16).map fun j => (.TILE_MAP, k.val, 16 * bank + j)) ∧
        t = { s.tick dt with regs := t.regs, repair := t.repair, repairAt := t.repairAt })

/-- CoaXPress connections. A signal on a free link starts discovery; answers go on with it and its third unanswered attempt ends it; every link
locked makes the connection READY; a lock failure goes one speed lower; a loss of lock discovers again; an absent connection gives up its
links and its number. It rests on the model's choices in logs 22, 23, 79. -/
def Obligations.CamerasAreFoundAndLost : Prop :=
  ∀ (dt : Nat) (s : State),
    (∀ l : Fin 64, let x := s.link l
      (s.linkCal l = true → x.conn = none → ∃ t, exec (.linkSignalDetect dt l) s = .next t ∧
        t.link l = { x with disc := some ⟨0, 0, []⟩ } ∧ (∀ k, k ≠ l.val → t.link k = s.link k) ∧
        t = { s.tick dt with links := t.links, out := s.out ++ [.cxp l (.read 0)] }) ∧
      (∀ c < 16, x.conn = some c → s.connState c = 2 ∨ s.connState c = 3 → s.openSeg c = none →
        ∃ t, exec (.linkLockLoss dt l) s = .next t ∧ t.connState c = 1 ∧ (t.conn c).step = .boot 0 [] ∧
          (∀ k, k ≠ c → t.conn k = s.conn k) ∧ s.keeps t [(.ING_CONN_CFG, c, 0)] ∧ s.sameMemory t) ∧
      (∀ (d : LinkDisc) (v : Nat) (g : List (Fin 64)), x.disc = some d → d.txn < 4 →
        ∃ t, exec (.cxpControlReply dt (.link l v g)) s = .next t ∧ t.link l = { x with disc := some ⟨d.txn + 1, 0, d.vals ++ [v]⟩ } ∧
          t = { s.tick dt with links := t.links, out := s.out ++ [.cxp l (.read (d.txn + 1))] }) ∧
      (∀ d : LinkDisc, x.disc = some d → ∃ t, exec (.cxpControlTimeout dt (.link l)) s = .next t ∧
        (t.link l).disc = (if 2 ≤ d.tries then none else some { d with tries := d.tries + 1 }) ∧
        t.out = s.out ++ (if 2 ≤ d.tries then [] else [.cxp l (.read d.txn)]) ∧ t.regs = s.regs ∧ s.sameMemory t)) ∧
    (∀ c : Fin 16, let x := s.conn c
      let others (t : State) : Prop := ∀ k, k ≠ c.val → t.conn k = s.conn k
      (∀ (h : CmdHdr) (wr : Bool) (ack : Nat) (data : List Byte), x.ctrl = some (h, wr) →
        (∃ t, exec (.cxpControlReply dt (.pass c ack data)) s = .next t ∧ t.conn c = { x with ctrl := none } ∧
          t.out = ((s.tick dt).reply h 0 (ack :: if wr then [] else
            (List.range 4).map fun i => leNat ((data.drop (4 * i)).take 4))).out ∧ others t ∧ s.sameMemory t) ∧
        (∃ t, exec (.cxpControlTimeout dt (.pass c)) s = .next t ∧ t.conn c = { x with ctrl := none } ∧
          t.out = ((s.tick dt).reply h 0x0306 []).out ∧ others t ∧ s.sameMemory t)) ∧
      (x.step.busy = true → 2 ≤ x.tries → ∃ t, exec (.cxpControlTimeout dt (.conn c)) s = .next t ∧ t.connState c = 5 ∧
        (t.conn c).step = .none ∧ others t ∧ s.keeps t [(.ING_CONN_CFG, c, 0)]) ∧
      (x.step = .locking → (∀ (l : Nat) (m : TdrMeas), l < 64 → x.links = [l] → ∃ t, exec (.linkLock dt c [m]) s = .next t ∧ t.connState c = 2 ∧
          t.conn c = { x with step := .none } ∧ t.flag F.ING_LINK_TDR_VALID l = true ∧ others t ∧
          s.keeps t [(.ING_CONN_CFG, c, 0), (.ING_LINK_TDR, l, 0)] ∧ t = { s.tick dt with regs := t.regs, links := t.links, conns := t.conns }) ∧
        (∃ t, exec (.linkLockTimeout dt c) s = .next t ∧ t.fld F.ING_CONN_CFG_SPEED c = max 1 (s.fld F.ING_CONN_CFG_SPEED c - 1) ∧
          s.keeps t [(.ING_CONN_CFG, c, 0)] ∧ t = { s.tick dt with regs := t.regs })) ∧
      (s.fld F.ING_CONN_CFG_STEERED c = 0 → s.connState c ≠ 0 → x.gv = false → x.ctrl = none →
        ∃ t, exec (.connAbsentTimeout dt c) s = .next t ∧ t.reg .ING_CONN_CFG c = 0 ∧
          t.conn c = { conn0 with camTrigs := x.camTrigs, nextId := x.nextId } ∧
          (∀ l ∈ x.links, (t.link l).conn = none ∧ (t.link l).disc = none) ∧ others t ∧ s.keeps t [(.ING_CONN_CFG, c, 0)] ∧
          t = { s.tick dt with regs := t.regs, links := t.links, conns := t.conns }))

/-- What a camera sends and the device answers: heartbeats carry device time on each master link; an event packet is acknowledged and logged
with 0xE009; a trigger packet is discarded and counted; a cable measurement probes its link and replaces all its fields; a line that its
trigger waits for is stored; a line that LINE_TO has passed is stored as a copy of the line before it and counted. It rests on the model's
choices in logs 31, 71, 80. -/
def Obligations.CameraTraffic : Prop :=
  ∀ (dt : Nat) (s : State),
    (∃ t, exec (.heartbeat dt) s = .next t ∧ t = { s.tick dt with out := t.out } ∧
      ∀ c < 16, ∀ l, s.masterLink c = some l → s.connState c ≠ 4 → .cxp l (.heartbeat ((s.now + dt) % 2 ^ 64)) ∈ t.out) ∧
    (∀ l : Fin 64, (∃ t, exec (.tdrMeasure dt l) s = .next t ∧ (t.link l).tdr = true ∧ (∀ k, k ≠ l.val → t.link k = s.link k) ∧
        t = { s.tick dt with links := t.links, out := s.out ++ [.cxp l .probe] }) ∧
      (∀ m : TdrMeas, (s.link l).tdr = true → ∃ t, exec (.tdrComplete dt l m) s = .next t ∧ (t.link l).tdr = false ∧
        t.flag F.ING_LINK_TDR_VALID l = true ∧ t.fld F.ING_LINK_TDR_LOSS_QDB l = m.loss % 2 ^ 8 ∧
        t.fld F.ING_LINK_TDR_DIST_CM l = min 15000 (299792458 * s.fld F.ING_TDR_CFG_VF_PERMILLE * m.tPs / (2 * 10 ^ 13)) ∧
        s.keeps t [(.ING_LINK_TDR, l, 0)] ∧ t = { s.tick dt with regs := t.regs, links := t.links })) ∧
    (∀ c : Fin 16, let x := s.conn c
      let others (t : State) : Prop := ∀ k, k ≠ c.val → t.conn k = s.conn k
      (∀ (event : Word) (data : List Byte), ∃ t e, exec (.cxpEventPacket dt c event data) s = .next t ∧ t.log.getLast? = some e ∧
        e.src = 3 ∧ e.code = 0xE009 ∧ e.args = [c.val, event.toNat, leNat (data.take 4), leNat ((data.drop 4).take 4)] ∧
        (∀ l, s.masterLink c = some l → t.out = s.out ++ [.cxp l .eventAck]) ∧ t.regs = s.regs ∧ s.sameMemory t) ∧
      (∃ t, exec (.cxpCameraTriggerPacket dt c) s = .next t ∧ t.conn c = { x with camTrigs := x.camTrigs + 1 } ∧ others t ∧
        t = { s.tick dt with conns := t.conns }) ∧
      (∀ (g : SegSt) (a : Trig), s.openSeg c = some g → x.trigs = [a] → a.missed = false → g.b = a.b → s.areaScan c = false →
        x.lines.length + 1 + s.segSize ≤ x.cap →
        let stored (t : State) (row : List Nat) (miss : Bool) : Prop :=
          (t.conn c).lines = x.lines ++
            [⟨x.nextId, a.n, a.n, g.b, g.part, a.pos, a.time, a.flags miss, row, false, false, 0, false, 0⟩] ∧
          (t.conn c).trigs = [] ∧ (t.conn c).nextId = x.nextId + 1 ∧ (t.conn c).prev = some row ∧ others t ∧ s.sameMemory t
        (∀ (stream width : Nat) (row : List Nat), s.connState c = 2 ∨ s.connState c = 3 → x.gv = true ∨ x.stream = none ∨ x.stream = some stream →
          s.flag F.ING_CONN_CFG_STEERED c = true → (∃ r ≤ a.time, x.runSince = some r) →
          ∃ t, exec (.lineReceived dt c stream width [row]) s = .next t ∧ stored t row false ∧ s.keeps t [(.ING_RES_STAT, c, 0)]) ∧
        (∀ p : List Nat, x.prev = some p → a.time + s.fld F.ING_RES_CFG_LINE_TO c * 100000 < (s.now + dt) % 2 ^ 64 →
          ∃ t, exec (.lineTimeout dt c) s = .next t ∧ stored t p true ∧
            t.fld F.ING_CONN_CNT_MISSING c = min (s.fld F.ING_CONN_CNT_MISSING c + 1) 65535 ∧
            s.keeps t [(.ING_CONN_CNT, c, 0), (.ING_RES_STAT, c, 0)])))

/-- Odometers. An accepted edge moves the position by one and sets DIR; one that goes back REV_EDGES from the high-water position is a reversal;
a glitch is discarded, its levels are kept, and it counts; the end of suspicion and STOP_MS without an edge have their effect; ODO_CFG keeps
a field written as 0 out of its range, and EN going to 1 clears the count. It rests on the model's choice in log 69. -/
def Obligations.OdometersCountEdges : Prop :=
  ∀ (dt : Nat) (u : Fin 4) (s : State),
    let x := s.odo u
    let now := (s.now + dt) % 2 ^ 64
    let others (t : State) : Prop := ∀ k, k ≠ u.val → t.odo k = s.odo k
    (∀ onB : Bool, let fwd := stepForward x.a x.b onB (s.flag F.ODO_CFG_INVERT u)
      let pos := s.odoPos u + (if fwd then 1 else -1)
      let back := max x.high pos - pos
      s.flag F.ODO_CFG_EN u = true → (∀ e, x.edge = some e → 20 ≤ now - e) → s.gensOn u = [] →
      ∃ t, exec (.encoderEdge dt u onB) s = .next t ∧ t.fld F.ODO_POS_POS u = wrapTo 64 pos ∧ t.flag F.ODO_STAT_STOPPED u = false ∧
        t.fld F.ODO_STAT_DIR u = (if fwd then 0 else 1) ∧ (t.odo u).a = (x.a != !onB) ∧ (t.odo u).b = (x.b != onB) ∧
        (t.odo u).high = max x.high pos ∧
        (fwd = false → x.armed = true → s.fld F.ODO_CFG_REV_EDGES u ≤ back → t.flag F.ODO_STAT_REVERSED u = true ∧ (t.odo u).armed = false) ∧
        others t ∧ s.keeps t [(.ODO_POS, u, 0), (.ODO_EDGE_DT, u, 0), (.ODO_STAT, u, 0)] ∧ t = { s.tick dt with regs := t.regs, odos := t.odos }) ∧
    (∀ onA onB : Bool, s.flag F.ODO_CFG_EN u = true → ∃ t, exec (.encoderGlitch dt u onA onB) s = .next t ∧
      t.fld F.ODO_STAT_GLITCHES u = min (s.fld F.ODO_STAT_GLITCHES u + 1) 65535 ∧ (t.odo u).a = (x.a != onA) ∧ (t.odo u).b = (x.b != onB) ∧
      now ∈ (t.odo u).glitches ∧ others t ∧ s.keeps t [(.ODO_STAT, u, 0)] ∧ s.sameMemory t) ∧
    (∀ d : Nat, s.glitchOkAt u = some d → x.suspect = true → d + 1000000 ≤ now → ∃ t, exec (.posSuspectEnd dt u) s = .next t ∧
      t.odo u = { x with suspect := false, over_ := false, okSince := none } ∧ others t ∧ t = { s.tick dt with odos := t.odos }) ∧
    (s.flag F.ODO_CFG_EN u = true → (∀ e, x.edge = some e → e + s.fld F.ODO_CFG_STOP_MS u * 1000000 ≤ now) →
      ∃ t, exec (.encoderStopTimeout dt u) s = .next t ∧ t.flag F.ODO_STAT_STOPPED u = true ∧ s.keeps t [(.ODO_STAT, u, 0)] ∧
        t = { s.tick dt with regs := t.regs }) ∧
    (∀ (r : Requester) (v : Word), s.access (regAddr .ODO_CFG u) 4 = .ok (hitOf .ODO_CFG u 0) →
      ∃ t, exec (.odoCfgWrite dt r u v) s = .next t ∧
        (∀ f ∈ [F.ODO_CFG_GLITCH_LIM, F.ODO_CFG_REV_EDGES, F.ODO_CFG_STOP_MS],
          t.fld f u = if bitsOf v.toNat f.lo f.w = 0 then s.fld f u else bitsOf v.toNat f.lo f.w) ∧
        t.fld F.ODO_CFG_EN u = bitsOf v.toNat 31 1 ∧ t.fld F.ODO_CFG_INVERT u = bitsOf v.toNat 30 1 ∧ t.fld F.ODO_CFG_FILT_NS u = bitsOf v.toNat 0 4 ∧
        (s.fld F.ODO_CFG_EN u = 0 → bitsOf v.toNat 31 1 = 1 → t.fld F.ODO_POS_POS u = 0 ∧ (t.odo u).edge = none ∧
          (t.odo u).suspect = false ∧ (t.odo u).a = x.a ∧ (t.odo u).b = x.b) ∧ others t ∧ s.sameMemory t)

/-- Line-trigger generators. The planned time emits the next line: a RUNNING target's trigger leaves and waits for its line; enabling sets the
next line; ODO_SEG_CFG and ING_RES_CFG take their fields; HOLD_100MS without a line closes the segment short. -/
def Obligations.TriggerGeneratorsEmitLines : Prop :=
  ∀ (dt : Nat) (s : State),
    (∀ (g c : Fin 16) (d l : Nat), let x := s.trigGen g
      x.plan = some d → d ≤ (s.now + dt) % 2 ^ 64 → s.fld F.ODO_TG_CFG_EN g = 1 → x.targets = 2 ^ c.val →
      (g.val ≠ s.fld F.ODO_SEG_CFG_REFGEN ∨ s.segB = some (s.lineB g x.n)) → x.last = none → s.flag F.ING_CONN_CFG_STEERED c = true →
      (s.conn c).gv = false → s.masterLink c = some l → (s.conn c).trigs = [] →
      ∃ t, exec (.triggerPlannedTime dt g) s = .next t ∧ (t.trigGen g).n = x.n + 1 ∧ (t.trigGen g).last = some ((s.now + dt) % 2 ^ 64) ∧
        t.out = s.out ++ [.cxp l (.trigger ((s.now + dt) % 2 ^ 64))] ∧
        (t.conn c).trigs = [⟨x.n, s.theta g x.n, (s.now + dt) % 2 ^ 64, s.lineB g x.n, false,
          (s.odo (s.fld F.ODO_TG_CFG_ODO g)).suspect, s.timeUnsync⟩] ∧
        (∀ k, k ≠ c.val → t.conn k = s.conn k) ∧ (∀ k, k ≠ g.val → t.trigGen k = s.trigGen k) ∧
        t = { s.tick dt with gens := t.gens, conns := t.conns, out := t.out }) ∧
    (∀ (r : Requester) (g : Fin 16) (v : Word), s.access (regAddr .ODO_TG_CFG g) 4 = .ok (hitOf .ODO_TG_CFG g 0) → s.fld F.ODO_TG_CFG_EN g = 0 →
      ∃ t, exec (.odoTgCfgWrite dt r g v) s = .next t ∧ t.fld F.ODO_TG_CFG_EN g = bitsOf v.toNat 31 1 ∧
        t.fld F.ODO_TG_CFG_ODO g = bitsOf v.toNat 26 2 ∧ t.fld F.ODO_TG_CFG_TARGETS g = bitsOf v.toNat 0 16 ∧
        (t.trigGen g).targets = bitsOf v.toNat 0 16 ∧ (t.trigGen g).plan = none ∧
        (bitsOf v.toNat 31 1 = 1 → (t.trigGen g).n = s.firstLine g (s.odoPos (bitsOf v.toNat 26 2) * 65536)) ∧
        s.keeps t [(.ODO_TG_CFG, g, 0)] ∧ t = { s.tick dt with regs := t.regs, gens := t.gens }) ∧
    (∀ (r : Requester) (v : Word), s.access (regAddr .ODO_SEG_CFG) 4 = .ok (hitOf .ODO_SEG_CFG 0 0) → s.refRuns = false →
      1 ≤ bitsOf v.toNat 20 10 → bitsOf v.toNat 20 10 ≤ 600 → 63 ≤ bitsOf v.toNat 0 16 →
      ∃ t, exec (.odoSegCfgWrite dt r v) s = .next t ∧ t.fld F.ODO_SEG_CFG_HOLD_100MS = bitsOf v.toNat 20 10 ∧
        t.fld F.ODO_SEG_CFG_REFGEN = bitsOf v.toNat 16 4 ∧ t.fld F.ODO_SEG_CFG_LINES_M1 = bitsOf v.toNat 0 16 ∧
        s.keeps t [(.ODO_SEG_CFG, 0, 0)] ∧ t = { s.tick dt with regs := t.regs }) ∧
    (∀ (r : Requester) (c : Fin 16) (v : Word), s.access (regAddr .ING_RES_CFG c) 4 = .ok (hitOf .ING_RES_CFG c 0) → bitsOf v.toNat 24 8 ≠ 0 →
      ∃ t, exec (.ingResCfgWrite dt r c v) s = .next t ∧ t.fld F.ING_RES_CFG_CAP_LINES c = bitsOf v.toNat 0 18 ∧
        t.fld F.ING_RES_CFG_LINE_TO c = bitsOf v.toNat 24 8 ∧ s.keeps t [(.ING_RES_CFG, c, 0)] ∧ t = { s.tick dt with regs := t.regs }) ∧
    (∀ (c : Fin 16) (g : SegSt) (l : ResLine), (s.conn c).segs = [g] → g.closed = false → g.gap = none → l ∈ (s.conn c).lines →
      g.is l.b l.part = true → l.chained = false → l.imaged = false →
      (s.conn c).lastLine + s.fld F.ODO_SEG_CFG_HOLD_100MS * 100000000 ≤ (s.now + dt) % 2 ^ 64 →
      ∃ t, exec (.segmentHoldTimeout dt c) s = .next t ∧ (t.conn c).segs = [{ g with closed := true, short := true }] ∧
        (t.conn c).lastB = some g.b ∧ (t.conn c).lastPart = g.part ∧ (t.conn c).lines = (s.conn c).lines ∧
        (∀ e < 64, (t.crew g.unit e).brk = true) ∧ (∀ k, k ≠ c.val → t.conn k = s.conn k) ∧ t.out = s.out ∧ s.sameMemory t)

/-- Route words on registers and storage. NOP, SETG, ALU, BR, LOOP, LDG and STG have the results of their rules, move the PC, and change nothing
of the device but their tile. A word that ends a loop body begins the next pass, and the loop's end goes on. It rests on the model's choices
in logs 14, 47. -/
def Obligations.RegisterWordsCompute : Prop :=
  ∀ (dt : Nat) (k : Fin 1088) (w : Nat) (s : State),
    let x := s.tile k
    let pc := x.pc + 1
    let busy := s.fld F.TILE_STAT_SB_BUSY k
    let g := fun i => s.gReg k i
    let gIs (t : State) (i v : Nat) : Prop := ∀ j, t.gReg k j = if j = i ∧ j ≠ 0 then v % 2 ^ 32 else s.gReg k j
    (s.issues k 0x00 w → ∃ t, exec (.routeNop dt k) s = .next t ∧ s.wordDone t dt k pc busy x []) ∧
    (∀ (f : LoopFrame) (fs : List LoopFrame), s.issuing k = true → s.curWord k = ⟨BitVec.ofNat 128 w, false⟩ → w < 2 ^ 128 →
      wf w 7 0 = 0 → x.loops = f :: fs → f.last = x.pc →
      (f.pass + 1 < f.count → ∃ t, exec (.routeNop dt k) s = .next t ∧ gIs t f.cr (f.pass + 1) ∧
        s.wordDone t dt k f.first busy { x with loops := { f with pass := f.pass + 1 } :: fs, g := (t.tile k).g } []) ∧
      (f.count ≤ f.pass + 1 → fs = [] → ∃ t, exec (.routeNop dt k) s = .next t ∧ gIs t f.cr (f.pass + 1) ∧
        s.wordDone t dt k pc busy { x with loops := [], g := (t.tile k).g } [])) ∧
    (s.issues k 0x02 w → ∃ t, exec (.setg dt k) s = .next t ∧ gIs t (wf w 19 16) (wf w 63 32) ∧
      s.wordDone t dt k pc busy { x with g := (t.tile k).g } []) ∧
    (s.issues k 0x03 w →
      let a := g (wf w 23 20)
      let b := if wf w 32 32 = 1 then wrapTo 32 (sext (wf w 63 48) 16) else g (wf w 27 24)
      let fn := wf w 31 28
      let res : Nat := match fn with
        | 0 => a + b | 1 => a + 2 ^ 32 - b | 2 => a * b | 3 => a &&& b | 4 => a ||| b | 5 => a ^^^ b | 6 => a * 2 ^ (b % 32)
        | 7 => a / 2 ^ (b % 32) | 8 => a % b | 9 => if sext a 32 ≤ sext b 32 then a else b | _ => if sext a 32 ≤ sext b 32 then b else a;
      fn ≤ 10 → ¬(fn = 8 ∧ b = 0) → ∃ t, exec (.alu dt k) s = .next t ∧ gIs t (wf w 19 16) res ∧
        s.wordDone t dt k pc busy { x with g := (t.tile k).g } []) ∧
    (s.issues k 0x05 w →
      let a := g (wf w 19 16)
      let b := if wf w 27 27 = 1 then wf w 63 32 else g (wf w 23 20)
      let holds : Bool := match wf w 26 24 with
        | 0 => true | 1 => decide (a = b) | 2 => decide (a ≠ b) | 3 => decide (sext a 32 < sext b 32)
        | 4 => decide (sext b 32 ≤ sext a 32) | 5 => decide (a < b) | _ => decide (b ≤ a);
      wf w 26 24 ≠ 7 → ∃ t, exec (.br dt k) s = .next t ∧ s.wordDone t dt k (if holds then wf w 75 64 else pc) busy x []) ∧
    (s.issues k 0x04 w →
      let n := if wf w 23 20 = 0 then wf w 39 24 else g (wf w 23 20)
      let last := x.pc + wf w 51 40
      (n = 0 → (∀ f ∈ x.loops.head?, f.last ≠ last) → ∃ t, exec (.loop dt k) s = .next t ∧ s.wordDone t dt k (last + 1) busy x []) ∧
      (0 < n → n ≤ 65535 → ∃ t, exec (.loop dt k) s = .next t ∧ gIs t (wf w 19 16) 0 ∧
        s.wordDone t dt k pc busy { x with loops := ⟨pc, last, wf w 19 16, n, 0⟩ :: x.loops, g := (t.tile k).g } [])) ∧
    (let o := opnd w 20
     let a := (g o.reg + o.off) % 2 ^ 32
     let lane := wf w 41 40
     (s.issues k 0x18 w → s.unblocked k [⟨false, o.lb, a, 1⟩] 0 → ∃ t, exec (.ldg dt k) s = .next t ∧
        gIs t (wf w 19 16) (bitsOf (s.readW k o.lb a).v.toNat (32 * lane) 32) ∧ s.wordDone t dt k pc busy { x with g := (t.tile k).g } []) ∧
     (s.issues k 0x19 w → s.unblocked k [⟨true, o.lb, a, 1⟩] 0 → ∃ t, exec (.stg dt k) s = .next t ∧
        (∀ lb n, n < spaceWords lb → t.readW k lb n = if lb = o.lb ∧ n = a
          then ⟨BitVec.ofNat 128 (putBits (s.readW k lb n).v.toNat (32 * lane) 32 (g (wf w 19 16))), (s.readW k lb n).p⟩ else s.readW k lb n) ∧
        s.wordDone t dt k pc busy { x with sp := (t.tile k).sp, lb := (t.tile k).lb } []))

/-- CFG writes one part of a set, RING configures a ring with no row in it, SEED loads the generator, CLRACC clears the accumulators, CONVOY
sets the descriptor, WAIT goes on where its milestone is reached and waits where it is not, ARRIVE sends its arrivals. A word with an
exception is not executed: the tile halts with the cause (here ALU's modulus zero, LOOP's count and SEND's destination), and the MC is told.
HALT ends the tile's part of its task. It rests on the model's choice in log 39. -/
def Obligations.ControlWordsAct : Prop :=
  ∀ (dt : Nat) (k : Fin 1088) (w : Nat) (s : State),
    let x := s.tile k
    let pc := x.pc + 1
    let busy := s.fld F.TILE_STAT_SB_BUSY k
    (s.issues k 0x08 w → ∃ t, exec (.cfg dt k) s = .next t ∧
      (∀ n, mapGet 0 (t.tile k).cfg n = if n = 4 * wf w 20 16 + wf w 22 21 then BitVec.ofNat 96 (wf w 127 32) else mapGet 0 x.cfg n) ∧
      s.wordDone t dt k pc busy { x with cfg := (t.tile k).cfg } []) ∧
    (s.issues k 0x09 w → ∃ t, exec (.ring dt k) s = .next t ∧
      (∀ n, t.ringOf k n = if n = wf w 17 16
        then ⟨wf w 31 31 == 1, wf w 22 18, 2 ^ wf w 24 23, wf w 29 25 + 1, wf w 30 30 == 1, 0⟩ else s.ringOf k n) ∧
      s.wordDone t dt k pc busy { x with rings := (t.tile k).rings } []) ∧
    (s.issues k 0x0A w → ∃ t, exec (.seed dt k) s = .next t ∧ t.fld F.TILE_RNG_STEPS_STEPS k = 0 ∧
      s.wordDone t dt k pc busy { x with genX := if wf w 127 64 = 0 then 1 else wf w 127 64, genM := 0 } [(.TILE_RNG_STEPS, k, 0)]) ∧
    (s.issues k 0x16 w → ∃ t, exec (.clracc dt k) s = .next t ∧ (∀ i, t.accGet k i = ⟨0, false⟩) ∧
      s.wordDone t dt k pc busy { x with acc := [] } []) ∧
    (s.issues k 0x30 w → wf w 27 27 = 0 ∨ wf w 26 16 ≤ 1087 → ∃ t, exec (.convoy dt k) s = .next t ∧
      s.wordDone t dt k pc busy { x with convoy := if wf w 27 27 = 1 then some (wf w 26 16) else none } []) ∧
    (s.issues k 0x39 w →
      let m := (wf w 29 16 + s.gReg k (wf w 33 30)) % 2 ^ 32
      let target := (s.gReg k (wf w 69 66) + wf w 65 34) % 2 ^ 32
      m ≤ 16383 → (s.msReached m target = true → ∃ t, exec (.wait dt k) s = .next t ∧ s.wordDone t dt k pc busy x []) ∧
        (s.msReached m target = false → x.passed = false → ∃ t, exec (.wait dt k) s = .next t ∧ t.tState k = tWait ∧
          ⟨.tile k, m, target⟩ ∈ t.waiters ∧ s.keeps t [(.TILE_STAT, k, 0)] ∧
          t = { s.tick dt with regs := t.regs, waiters := t.waiters })) ∧
    (s.issues k 0x38 w → let m := (wf w 29 16 + s.gReg k (wf w 33 30)) % 2 ^ 32
      m ≤ 16383 → wf w 50 50 = 0 ∨ s.sbList k = [] → ∃ t, exec (.arrive dt k) s = .next t ∧
        t.arrFly = s.arrFly ++ [⟨k, m, wf w 49 34⟩] ∧ (∀ j, mapGet 0 t.arrSent j = mapGet 0 s.arrSent j + if j = k then 1 else 0) ∧
        t.tile k = { x with pc := pc, passed := false, groups := (t.tile k).groups } ∧ t.tState k = tRun ∧
        s.keeps t [(.TILE_STAT, k, 0)] ∧ (∀ j, j ≠ k.val → t.tile j = s.tile j) ∧
        t = { s.tick dt with regs := t.regs, tiles := t.tiles, arrFly := t.arrFly, arrSent := t.arrSent }) ∧
    (s.taskOf k = none → s.fld F.TILE_EXC_CAUSE k = 0 →
      let halted (c : Instr) (cause : Nat) : Prop := ∃ t, exec c s = .next t ∧ t.fld F.TILE_EXC_CAUSE k = cause ∧ t.fld F.TILE_EXC_BANKS k = 0 ∧
        t.fld F.TILE_EXC_PC_PC k = x.pc % 2 ^ 32 ∧ t.tState k = tHalted ∧
        s.keeps t [(.TILE_STAT, k, 0), (.TILE_EXC, k, 0), (.TILE_EXC_PC, k, 0)] ∧
        t = { s.tick dt with regs := t.regs, out := s.out ++ [.report (.tileHalt k cause)] }
      (s.issues k 0x03 w → wf w 31 28 = 8 → s.aluB k w = 0 → halted (.alu dt k) 0x11) ∧
      (s.issues k 0x04 w → 65535 < s.loopCount k w → halted (.loop dt k) 0x12) ∧
      (s.issues k 0x38 w → 16383 < s.msOf k w → halted (.arrive dt k) 0x10)) ∧
    (s.issues k 0x01 w → s.sbList k = [] → x.slots = [] → ∀ (u : Fin 16) (e : Fin 64) (c : CrewTask), s.taskOf k = some (u.val, e.val) →
      (s.crew u e).task = some c →
      let done := (c.done.filter (· != k.val)) ++ [k.val]
      (c.parts.all (fun j => done.contains j) = false → ∃ t, exec (.halt dt k) s = .next t ∧ t.tState k = tIdle ∧
        t.tile k = { x with convoy := none, loops := [] } ∧ (∀ j, j ≠ k.val → t.tile j = s.tile j) ∧
        t.crew u e = { s.crew u e with task := some { c with done := done } } ∧ s.keeps t [(.TILE_STAT, k, 0)] ∧
        t = { s.tick dt with regs := t.regs, tiles := t.tiles, crews := t.crews }) ∧
      (c.parts.all (fun j => done.contains j) = true → (∀ j ∈ c.parts, j < 1088) → (∀ d < 16, ∀ g ∈ (s.conn d).segs, g.unit < 16) →
        ∃ t, exec (.halt dt k) s = .next t ∧ t.tState k = tIdle ∧
        (t.crew u e).task = none ∧ s.sameMemory t))

/-- The asynchronous words. FILL, COPY, TBL, SEND, RBSEND and CATREQ read their source at issue and leave their operation in the lowest free
scoreboard entries (which ones is the model's choice, log 145); storage does not change until an entry retires. It rests on the model's
choice in log 145. -/
def Obligations.AsynchronousWordsAllocateEntries : Prop :=
  ∀ (dt : Nat) (k : Fin 1088) (w : Nat) (s : State),
    let x := s.tile k
    let ea (lo : Nat) : Nat := (s.gReg k (opnd w lo).reg + (opnd w lo).off) % 2 ^ 32
    let lb (lo : Nat) : Bool := (opnd w lo).lb
    let busy := s.fld F.TILE_STAT_SB_BUSY k
    let lowestFree (e : Nat) : Prop := e < 16 ∧ s.sbGet k e = none ∧ ∀ j < e, s.sbGet k j ≠ none
    let one (c : Instr) (e : Nat) (q : SbEntry) : Prop := ∃ t, exec c s = .next t ∧
      (∀ j, t.sbGet k j = if j = e then some q else s.sbGet k j) ∧
      s.wordDone t dt k (x.pc + 1) (putBits busy e 1 1) { x with sb := (t.tile k).sb } []
    ∀ e, lowestFree e →
    (s.issues k 0x20 w → let n := wf w 49 36 + 1
      s.unblocked k [⟨true, lb 16, ea 16, n⟩] 1 →
      one (.fill dt k) e ⟨true, lb 16, ea 16, n,
        .write (List.replicate n ⟨BitVec.ofNat 128 (wf w 95 64 * (1 + 2 ^ 32 + 2 ^ 64 + 2 ^ 96)), false⟩), false⟩) ∧
    (s.issues k 0x21 w → let n := wf w 69 56 + 1
      let ws := s.readWs k (lb 16) (ea 16) n
      s.unblocked k [⟨false, lb 16, ea 16, n⟩, ⟨true, lb 36, ea 36, n⟩] 2 →
      ∀ f, e < f → f < 16 → s.sbGet k f = none → (∀ j < f, j ≠ e → s.sbGet k j ≠ none) → ∃ t, exec (.copy dt k) s = .next t ∧
        (∀ j, t.sbGet k j = if j = e then some ⟨true, lb 36, ea 36, n, .write (if wf w 70 70 = 1 then transposed ws else ws), false⟩
          else if j = f then some ⟨false, lb 16, ea 16, n, .read, false⟩ else s.sbGet k j) ∧
        s.wordDone t dt k (x.pc + 1) (putBits (putBits busy e 1 1) f 1 1) { x with sb := (t.tile k).sb } []) ∧
    (s.issues k 0x22 w → s.unblocked k [⟨false, lb 16, ea 16, 32⟩] 1 →
      one (.tbl dt k) e ⟨false, lb 16, ea 16, 32, .table (s.readWs k (lb 16) (ea 16) 32), false⟩) ∧
    (s.issues k 0x23 w → let n := wf w 63 56 + 1
      let dest := (wf w 74 64 + s.gReg k (wf w 78 75)) % 2 ^ 32
      dest ≤ 1087 → ea 36 + n ≤ spaceWords (lb 36) → s.unblocked k [⟨false, lb 16, ea 16, n⟩] 1 →
      one (.send dt k) e ⟨false, lb 16, ea 16, n, .mesh ⟨dest, wf w 95 95, ea 36, lb 36, wf w 92 79, wf w 93 93 == 1, k, 0, 0, 0, 0, false,
        wf w 94 94 == 1, s.readWs k (lb 16) (ea 16) n⟩, false⟩) ∧
    (s.issues k 0x24 w → let n := (wf w 47 36 + 1) * (wf w 49 48 + 1)
      s.flag F.TILE_RB_CFG_EN k = true → s.unblocked k [⟨false, lb 16, ea 16, n⟩] 1 →
      one (.rbsend dt k) e ⟨false, lb 16, ea 16, n, .row (wf w 54 52) (s.gReg k (wf w 58 55)) (wf w 51 50) (wf w 49 48 + 1)
        (wf w 59 59 == 1) (s.readWs k (lb 16) (ea 16) n), false⟩) ∧
    (s.issues k 0x25 w → s.unblocked k [⟨false, lb 16, ea 16, 4⟩] 1 →
      one (.catreq dt k) e ⟨false, lb 16, ea 16, 4, .catReq (s.readWs k (lb 16) (ea 16) 4), false⟩)

/-- CONV, MAT, SLIP, POOL, EW and RQ, where their accesses raise nothing and need not wait: the word completes, stores nothing outside the
ranges that it names for writing, and changes of its tile only storage, the accumulators, the window and weight registers and the generator,
with the statistics registers. Here the set names the word's own operator. It rests on the model's choice in log 33. -/
def Obligations.ComputeWordsKeepToTheirRanges : Prop :=
  ∀ (dt : Nat) (k : Fin 1088) (w : Nat) (s : State),
    let x := s.tile k
    let opk := (s.geo k (wf w 104 100)).opk
    let frame (c : Instr) (op : Nat) (n : Named) : Prop := s.issues k op w → n.excs = [] → s.rngExcs k n.rngs = [] → n.banks = 0 →
      n.waits = false → s.sbWait k n = false → ∃ t, exec c s = .next t ∧
        (∀ lb a, a < spaceWords lb → (∀ r ∈ n.rngs, r.write = true → r.lb = lb → a < r.addr ∨ r.addr + r.n ≤ a) →
          t.readW k lb a = s.readW k lb a) ∧
        s.wordDone t dt k (x.pc + 1) (s.fld F.TILE_STAT_SB_BUSY k) { x with
          sp := (t.tile k).sp, lb := (t.tile k).lb, acc := (t.tile k).acc, wCur := (t.tile k).wCur, wNext := (t.tile k).wNext,
          window := (t.tile k).window, genX := (t.tile k).genX, genM := (t.tile k).genM }
          [(.TILE_MSE_SQ, k.val, 0), (.TILE_MSE_CNT, k.val, 0), (.TILE_RNG_STEPS, k.val, 0)]
    (opk = 0 → frame (.conv dt k) 0x10 (s.sweepNamed k w)) ∧ (opk = 1 → frame (.mat dt k) 0x11 (s.sweepNamed k w)) ∧
    (opk = 2 → frame (.slip dt k) 0x12 (s.sweepNamed k w)) ∧ (opk = 3 ∨ opk = 4 → frame (.pool dt k) 0x13 (s.poolNamed k w)) ∧
    (wf w 90 88 ≤ 3 → frame (.ew dt k) 0x14 (s.ewNamed k w)) ∧ frame (.rq dt k) 0x15 (s.rqNamed k w)

/-- What the compute words compute, here for one output group of sixteen channels. CONV and MAT add to each accumulator entry its terms in the
order input group, kernel row, kernel column; SLIP adds the integer sum of each position of its pass; POOL leaves the pooled channel. EW
writes the sum, the product or the first operand of its vector, and RQ the requantised codes, here for one vector. It rests on the model's
choices in logs 13, 33. -/
def Obligations.ComputeWordsCompute : Prop :=
  ∀ (dt : Nat) (k : Fin 1088) (w : Nat) (s : State),
    let p := s.opWord k w
    let g := s.geo k p.set
    let free (n : Named) : Prop := n.excs = [] ∧ s.rngExcs k n.rngs = [] ∧ n.banks = 0 ∧ n.waits = false ∧ s.sbWait k n = false
    let start (clr : Bool) (i : Nat) : AccE := if clr then ⟨0, false⟩ else s.accGet k i
    let plus (isInt : Bool) (a : AccE) (e : El) : AccE := ⟨BitVec.ofNat 32 (accAdd isInt a.v.toNat e.v), a.p || e.p⟩
    let terms (xx o : Nat) : List El := (List.range g.gi).flatMap fun ig => (taps g.kh g.kw).map fun q =>
      let ti := (ig * g.kh + q.1) * g.kw + q.2
      let v := s.inVec k g p.src ig (tapRow g p q.1) ((xx * g.sh : Nat) + tapCol g p q.2)
      term g.mmode (v.1.zip (g.wLane (s.readWs k p.wlb (p.w + ti * g.tw) g.tw) o)) v.2
        ((elemsFrom .bf16 (s.readWs k p.auxlb (p.aux + 4 * g.gOut + 2 * ti) 2) o 1).headD ⟨.fp .zero, false⟩)
    let swept (c : Instr) : Prop := free (s.sweepNamed k w) → ∃ t, exec c s = .next t ∧ (t.tile k).pc = (s.tile k).pc + 1 ∧
      ∀ xx o, xx < g.wOut → o < 16 →
        t.accGet k (16 * xx + o) = (terms xx o).foldl (plus g.mmode.isInt) (start p.clr (16 * xx + o))
    (g.gOut = 1 → (g.opk = 0 → s.issues k 0x10 w → swept (.conv dt k)) ∧ (g.opk = 1 → s.issues k 0x11 w → swept (.mat dt k)) ∧
      (g.opk = 3 ∨ g.opk = 4 → s.issues k 0x13 w → free (s.poolNamed k w) → ∃ t, exec (.pool dt k) s = .next t ∧
        (t.tile k).pc = (s.tile k).pc + 1 ∧ ∀ xx o, xx < g.wOut → o < 16 → let e := s.poolOne k g p 0 xx o
          t.accGet k (16 * xx + o) =
            ⟨BitVec.ofNat 32 (directCode (if decide (g.afmt = .int8) && g.opk == 3 then .int32 else .fp32) e).1, e.p⟩)) ∧
    (g.opk = 2 → s.issues k 0x12 w → free (s.sweepNamed k w) → ∃ t, exec (.slip dt k) s = .next t ∧
      (t.tile k).pc = (s.tile k).pc + 1 ∧ ∀ xx o, xx < min 256 (g.wOut - 256 * p.pass) → o < 16 →
        t.accGet k (16 * xx + o) = plus true (start p.clr (16 * xx + o)) (s.slipSum k g p (256 * p.pass + xx) o)) ∧
    (s.issues k 0x14 w → free (s.ewNamed k w) → wf w 87 76 = 0 → wf w 90 88 ∈ [0, 1, 3] → wf w 92 91 ≤ 1 →
      let out := fmtOf (wf w 101 99)
      out.narrow = false → let oo := opnd w 56
      let a := s.ewOperand k (fmtOf (wf w 95 93)) (wf w 92 91 == 1) (opnd w 16).lb (s.ea k (opnd w 16)) 0
      let b := s.ewOperand k (fmtOf (wf w 98 96)) false (opnd w 36).lb (s.ea k (opnd w 36)) 0
      ∃ t, exec (.ew dt k) s = .next t ∧ (t.tile k).pc = (s.tile k).pc + 1 ∧ t.readWs k oo.lb (s.ea k oo) (fmtWords out) =
        directWords out (if wf w 90 88 = 0 then a.zipWith euAdd b else if wf w 90 88 = 1 then a.zipWith euMul b else a)) ∧
    (s.issues k 0x15 w → free (s.rqNamed k w) → wf w 121 110 = 0 →
      let q := s.geo k (wf w 108 104)
      q.out.narrow = true → q.out ≠ .nv4 → let oo := opnd w 36
      let a := s.ewOperand k (fmtOf (wf w 124 122)) (wf w 125 125 == 1) (opnd w 16).lb (s.ea k (opnd w 16)) 0
      let r := requantList q.out q.stoch q.qm 0 (if wf w 109 109 = 1 then a.map relu else a) ⟨s.gen k, 0, 0, 0, 0⟩
      ∃ t, exec (.rq dt k) s = .next t ∧ (t.tile k).pc = (s.tile k).pc + 1 ∧ t.readWs k oo.lb (s.ea k oo) 1 = packWords 8 16 r.1 1 ∧
        t.fld F.TILE_MSE_CNT_CNT k = min (s.fld F.TILE_MSE_CNT_CNT k + r.2.cnt) (2 ^ F.TILE_MSE_CNT_CNT.w - 1))

/-- Stream words of a tile on a slot of its own. SOPEN opens it, SGET takes the next chunk (under an entry while it is not delivered), SREL
gives the oldest chunks back, SPUT announces a chunk, SCLOSE closes the slot and keeps the position, GIVEWAY raises the fetch limit once its
milestone is reached. Other slots and tiles stay. It rests on the model's choices in logs 12, 37. -/
def Obligations.StreamWordsActOnTheirSlot : Prop :=
  ∀ (dt : Nat) (k : Fin 1088) (w : Nat) (s : State),
    let x := s.tile k
    let e := wf w 17 16
    let z := wf w 25 18
    let q := s.slot e z
    let now := (s.now + dt) % 2 ^ 64
    let rate := s.fld F.STR_SLOT_RATE_RATE_MBPS e z
    let busy := s.fld F.TILE_STAT_SB_BUSY k
    let st := s.fld F.STR_SLOT_STAT_STATE e z
    let lb := s.flag F.STR_SLOT_TILE_SPACE e z
    let mine (opened : Bool) : Prop := s.flag F.STR_SLOT_RATE_EN e z = true ∧ s.fld F.STR_SLOT_RATE_CLIENT e z = 0 ∧
      s.slotTile e z = k ∧ q.opened = opened
    let dir := s.fld F.STR_SLOT_RATE_DIR e z
    let done (t : State) (b : Nat) (y : Tile) : Prop := t.tile k = { y with pc := x.pc + 1, passed := false, groups := (t.tile k).groups } ∧
      (∀ j, j ≠ k.val → t.tile j = s.tile j) ∧ t.tState k = tRun ∧ t.fld F.TILE_STAT_SB_BUSY k = b ∧
      (∀ j, j ≠ 256 * e + z → mapGet slot0 t.slots j = mapGet slot0 s.slots j) ∧
      s.keeps t [(.TILE_STAT, k.val, 0), (.STR_SLOT_STAT, e, z)] ∧ t = { s.tick dt with regs := t.regs, tiles := t.tiles, slots := t.slots }
    let entry (t : State) (i : Nat) (y : SbEntry) : Prop := ∀ j, t.sbGet k j = if j = i then some y else s.sbGet k j
    (s.issues k 0x28 w → mine false → s.slotLen e z % (wf w 39 27 + 1) = 0 →
      let p := if wf w 26 26 = 1 then 0 else q.pos
      ∃ t, exec (.sopen dt k) s = .next t ∧
        t.slot e z = { slot0 with opened := true, t := now, dNum := now, start := p, pos := p, limit := wf w 71 40 * 64, chw := wf w 39 27 + 1,
                                  cms := wf w 85 72, cmsEn := wf w 86 86 == 1 } ∧
        t.fld F.STR_SLOT_STAT_STATE e z = (if dir = 0 ∧ wf w 71 40 * 64 ≤ p then 2 else 1) ∧
        done t busy { x with slots := x.slots ++ [256 * e + z] }) ∧
    (s.issues k 0x29 w → mine true → dir = 0 → (q.taken - q.rel + 1) * q.chw ≤ s.slotLen e z →
      s.unblocked k [⟨true, lb, s.chunkAddr e z q.taken, q.chw⟩] 1 →
      ((q.taken + 1) * q.chw * 16 ≤ q.deliv ∨ st = 3 → ∃ t, exec (.sget dt k) s = .next t ∧ t.slot e z = { q with taken := q.taken + 1 } ∧
        t.fld F.STR_SLOT_STAT_STATE e z = st ∧ done t busy x) ∧
      (q.deliv < (q.taken + 1) * q.chw * 16 → st ≠ 3 → ∀ i < 16, s.sbGet k i = none → (∀ j < i, s.sbGet k j ≠ none) →
        ∃ t, exec (.sget dt k) s = .next t ∧ t.slot e z = { q with taken := q.taken + 1 } ∧ t.fld F.STR_SLOT_STAT_STATE e z = st ∧
          entry t i ⟨true, lb, s.chunkAddr e z q.taken, q.chw, .streamIn e z, false⟩ ∧
          done t (putBits busy i 1 1) { x with sb := (t.tile k).sb })) ∧
    (s.issues k 0x2A w → mine true → dir = 0 → let n := wf w 33 26 + 1
      n ≤ q.taken - q.rel → let a := q.a - n * q.chw * 16
      ∃ t, exec (.srel dt k) s = .next t ∧
        t.slot e z = { q with rel := q.rel + n, a := a, t := now, dNum := now * rate + a * 1000, dDen := max rate 1 } ∧
        t.fld F.STR_SLOT_STAT_STATE e z = st ∧ done t busy x) ∧
    (s.issues k 0x2B w → mine true → dir = 1 → q.o + q.chw * 16 ≤ s.slotB e z →
      s.unblocked k [⟨false, lb, s.chunkAddr e z q.ann, q.chw⟩] 1 →
      ∀ i < 16, s.sbGet k i = none → (∀ j < i, s.sbGet k j ≠ none) → let o := q.o + q.chw * 16
      ∃ t, exec (.sput dt k) s = .next t ∧
        t.slot e z = { q with o := o, t := now, data := q.data ++ s.readWs k lb (s.chunkAddr e z q.ann) q.chw, ann := q.ann + 1,
                              eos := q.eos || wf w 26 26 == 1, dNum := now * rate + (s.slotB e z - o) * 1000, dDen := max rate 1 } ∧
        entry t i ⟨false, lb, s.chunkAddr e z q.ann, q.chw, .streamOut e z (wf w 26 26 == 1) [], false⟩ ∧
        t.fld F.STR_SLOT_STAT_STATE e z = st ∧ done t (putBits busy i 1 1) { x with sb := (t.tile k).sb }) ∧
    (s.issues k 0x2C w → mine true → (s.sbList k).any (fun y => y.2.ofSlot e z) = false →
      ∃ t, exec (.sclose dt k) s = .next t ∧
        t.slot e z = { slot0 with pos := if dir = 1 then q.start + q.pulled else q.start + q.taken * q.chw * 16 } ∧
        t.fld F.STR_SLOT_STAT_STATE e z = 0 ∧ done t busy { x with slots := x.slots.filter (· != 256 * e + z) }) ∧
    (s.issues k 0x2D w → mine true → s.msReached (wf w 39 26) ((s.gReg k (wf w 75 72) + wf w 71 40) % 2 ^ 32) = true →
      let l := max q.limit ((s.gReg k (wf w 111 108) + wf w 107 76) % 2 ^ 32 * 64)
      ∃ t, exec (.giveway dt k) s = .next t ∧ t.slot e z = { q with limit := l } ∧
        t.fld F.STR_SLOT_STAT_STATE e z = (if st = 1 ∨ st = 2 then (if dir = 0 ∧ l ≤ q.pos then 2 else 1) else st) ∧ done t busy x)

/-- The reference lane and the rows around it. A line enters the chain, its first look folded into its output line; a confident fit writes the
noise model and ends EST_HELD, a stale one sets it; a freed live slot ends the wait; REF_TAB_DATA reads and writes the word named and moves
on; a crew's result row is kept trimmed until every stripe has delivered; the send wait ends; an export row is kept. It rests on the model's
choices in logs 28, 54. -/
def Obligations.ReferenceLaneMovesLines : Prop :=
  ∀ (dt : Nat) (u : Fin 16) (s : State),
    let x := s.refU u
    let geo := s.chainGeo u
    let others (t : State) : Prop := ∀ j, j ≠ u.val → t.refU j = s.refU j
    (∀ (c i : Nat) (g : SegSt) (l : ResLine), s.flag F.REF_SETS_WAITING u = false → s.chainWork u = some (c, g, l, false) →
      s.seg? c g.b g.part = some g → g.slot = some i → g.closed = false → x.sendQ = [] → x.tnr = [] → 1 < geo.n →
      (∀ k < 4, splFld (s.slotSet u i) F.REF_SPLICE_EN u k = 1 → splFld (s.slotSet u i) F.REF_SPLICE_SRC u k ≠ 0) →
      let d := (pfncDepth (s.fld F.ING_CONN_PIXFMT_PFNC c)).getD 16
      let w := l.pix.length / geo.n
      ∃ t, exec (.chainLineStart dt u) s = .next t ∧
        (t.conn c).lines = (s.conn c).lines.map (fun r => if r.id = l.id then { r with chained := true } else r) ∧
        (t.refU u).tnr = [⟨l.id, l.n, l.b, l.part, i, l.flags, (l.pix.map fun v => v % 2 ^ d * 2 ^ (16 - d)).take w, List.replicate w 1,
          l.flags.testBit 1, false⟩] ∧
        others t ∧ (∀ j, j ≠ c → t.conn j = s.conn j) ∧ s.keeps t [(.REF_SETS, u.val, 0), (.ING_SEAM_STAT, u.val, 0)] ∧
        t = { s.tick dt with regs := t.regs, refs := t.refs, conns := t.conns }) ∧
    (s.mcUp = true → bitsOf (s.pol 0x01) u 1 = 1 → let n := s.refSt u 1
      let mean : Rat := (s.refSt u 2 : Rat) / n
      let m := [(.REF_NM_GAIN, u.val, 0), (.REF_NM_READ, u.val, 0), (.REF_CTRL, u.val, 0)]
      (4096 ≤ n → 3 ≤ (s.fitPoints u).length → ∃ t, exec (.noiseFit dt u) s = .next t ∧
        t.fld F.REF_NM_GAIN_NM_BLACK u = fitField 16 mean ∧
        t.fld F.REF_NM_READ_NM_READ u = fitField 32 ((s.refSt u 3 : Rat) / n - mean * mean) ∧
        t.fld F.REF_NM_GAIN_NM_GAIN u = fitField 16 (4096 * slopeOf (s.fitPoints u)) ∧ t.flag F.REF_CTRL_EST_HELD u = false ∧
        t.noiseBase = mapSet 0 s.noiseBase u ((s.now + dt) % 2 ^ 64) ∧ s.keeps t m ∧
        t = { s.tick dt with regs := t.regs, noiseBase := t.noiseBase }) ∧
      (n < 4096 ∨ (s.fitPoints u).length < 3 → mapGet 0 s.noiseBase u + s.pol 0x02 * 1000000000 < (s.now + dt) % 2 ^ 64 →
        ∃ t, exec (.noiseFit dt u) s = .next t ∧ t.flag F.REF_CTRL_EST_HELD u = true ∧ s.keeps t [(.REF_CTRL, u.val, 0)] ∧
          t = { s.tick dt with regs := t.regs })) ∧
    (∀ i < 3, (x.live.getD i ⟨false, []⟩).used = false ∨ s.slotNeeded u i = false → ∃ t, exec (.refSlotWaitEnd dt u) s = .next t ∧
      t.flag F.REF_SETS_WAITING u = false ∧ (t.fld F.REF_SETS_SLOTS_USED u).testBit i = false ∧ others t ∧
      s.keeps t [(.REF_SETS, u.val, 0)] ∧ t = { s.tick dt with regs := t.regs, refs := t.refs }) ∧
    (∀ (r : Requester) (v : Word), let b := s.fld F.REF_TAB_ADDR_BANK u
      let w := s.fld F.REF_TAB_ADDR_WORD u
      let moved (t : State) : Prop := t.fld F.REF_TAB_ADDR_WORD u = (if w = 0x21FFF then 0 else w + 1) ∧ t.fld F.REF_TAB_ADDR_BANK u = b ∧
        s.keeps t [(.REF_TAB_ADDR, u.val, 0)]
      w ≤ 0x21FFF → s.access (regAddr .REF_TAB_DATA u) 4 = .ok (hitOf .REF_TAB_DATA u 0) →
      (∃ t, exec (.refTabDataAccess dt r u none) s = .next t ∧ t.out = s.out ++ [.readData r (s.tabWord u (0x22000 * b + w))] ∧ moved t ∧
        t = { s.tick dt with regs := t.regs, out := t.out }) ∧
      (s.bankBusy u b = false → ∃ t, exec (.refTabDataAccess dt r u (some v)) s = .next t ∧ moved t ∧
        (∀ j, t.tabWord u j = if j = 0x22000 * b + w then v.toNat else s.tabWord u j) ∧
        t = { s.tick dt with regs := t.regs, refTab := t.refTab, refBad := t.refBad })) ∧
    (∀ (e : Fin 64) (seg n ch c k : Nat) (row : List Int) (g : SegSt),
      (List.range 16).findSome? (fun c => ((s.conn c).segs.find? fun g => g.unit == u.val && segNum g.b g.part == seg).map fun g => (c, g)) =
        some (c, g) → g.hs = false → ((s.conn c).lines.any fun l => g.is l.b l.part && l.n == n) = true →
      let set := s.slotSet u (g.slot.getD 0)
      let rows := mapGet [] x.rets k
      let mine (r : RetRow) : Prop := r.b = g.b ∧ r.part = g.part ∧ r.n = n
      k = setFldIn set F.ING_STRIPE_CREW_SPLICE u e →
      let lead := (rows.filter fun r => r.cols.any fun q => q.1 == e).length
      (64 ≤ lead → ∃ t, exec (.tapReturnRow dt u e seg n ch row false) s = .next t ∧ t.flag F.ING_SEAM_STAT_RET_WAITED u = true ∧
        s.keeps t [(.ING_SEAM_STAT, u.val, 0)] ∧ t = { s.tick dt with regs := t.regs }) ∧
      (lead < 64 → (∃ y ∈ crewEntries set u, y ≠ e.val ∧ setFldIn set F.ING_STRIPE_CREW_SPLICE u y = k ∧
          ∀ r ∈ rows, mine r → ∀ q ∈ r.cols, q.1 ≠ y) →
        let cut := trimRow (sext (setFldIn set F.ING_STRIPE_GEOM_X0 u e) 16) (setFldIn set F.ING_STRIPE_GEOM_W_M1 u e + 1)
          (setFldIn set F.ING_STRIPE_HALO_H_L u e) (setFldIn set F.ING_STRIPE_HALO_H_R u e)
          (setFldIn set F.ING_STRIPE_CREW_OSH u e) ch (row.map (narrow (splFld set F.REF_SPLICE_RET8 u k == 1)))
        ∃ t, exec (.tapReturnRow dt u e seg n ch row false) s = .next t ∧
          (∃ r ∈ mapGet [] (t.refU u).rets k, mine r ∧ (e.val, cut) ∈ r.cols) ∧ others t ∧
          s.keeps t [(.ING_SEAM_STAT, u.val, 0)] ∧ t = { s.tick dt with regs := t.regs, refs := t.refs })) ∧
    (x.sendWait = true → s.sendFull u = false → ∃ t, exec (.seamSendWaitEnd dt u) s = .next t ∧ t.refU u = { x with sendWait := false } ∧
      others t ∧ s.keeps t [(.ING_SEAM_STAT, u.val, 0)] ∧ t = { s.tick dt with regs := t.regs, refs := t.refs }) ∧
    (∀ (port splice : Fin 4) (seg idx : Nat) (row : List (Fin 65536)), s.jctActive port = true →
      (∀ c < 16, ∀ g ∈ (s.conn c).segs, segNum g.b g.part = seg → g.hs = false) →
      exec (.exportRowReceived dt port splice seg idx row) s =
        .next { s.tick dt with exports := s.exports ++ [⟨port, splice, seg, idx, row.map (·.val)⟩] })

/-- Tasks. The dispatcher starts the next task of a crew that continues its run; the run reset sets the milestones of the run set and the crew's
counts; a detour copy carries the words and the rings to the layby tile and then dispatches. Here every line of the segment is known: it has
closed. It rests on the model's choices in logs 20, 21. -/
def Obligations.TasksAreDispatched : Prop :=
  ∀ (dt : Nat) (u : Fin 16) (e : Fin 64) (c : Nat) (g : SegSt) (p : PkgPlan) (s : State), s.dispatchable u e c g p → g.closed = true →
    let x := s.crew u e
    let parts := s.crewParts (s.slotSet u (g.slot.getD 0)) u e
    (x.copyDue = false → x.brk = false → ∀ n : Fin 65537, ∃ t, exec (.taskDispatch dt u e n) s = .next t ∧
      s.dispatched t u e g p (g.next - g.first) ∧ (∀ j, j ∉ parts → t.tile j = s.tile j) ∧
      (∀ k, k ≠ 64 * u.val + e.val → mapGet crew0 t.crews k = mapGet crew0 s.crews k) ∧ s.sameMemory t ∧ t.out = s.out) ∧
    (x.brk = true → x.started = false → s.crewFlying parts = false → (∀ m ∈ runMs p.runSet, m < 16384) →
      ∃ t, exec (.runReset dt u e) s = .next t ∧ t.crew u e = { x with started := true, firstLine := 0, sent := 0 } ∧
        (∀ m ∈ runMs p.runSet, t.fld F.MS_COUNT_COUNT m = 0 ∧ t.flag F.MS_CFG_FIRED m = false ∧
          t.fld F.MS_TARGET_TARGET m = s.fld F.MS_CFG_STRIDE m) ∧
        s.keeps t ((runMs p.runSet).flatMap msRegs) ∧
        (∀ k, k ≠ 64 * u.val + e.val → mapGet crew0 t.crews k = mapGet crew0 s.crews k) ∧
        t = { s.tick dt with regs := t.regs, busNext := t.busNext, crews := t.crews }) ∧
    (x.copyDue = true → x.brk = false → ∀ (n : Fin 65537) (k : Nat) (lb : Bool) (a len : Nat), k < 64 → s.flag F.RAS_DETOUR_VALID k = true →
      (∀ j < 64, s.flag F.RAS_DETOUR_VALID j = true → j = k) →
      let span := crewSpan (s.slotSet u (g.slot.getD 0)) u e
      span.1 ≤ s.fld F.RAS_DETOUR_SLOW k → s.fld F.RAS_DETOUR_SLOW k < span.1 + span.2 → a + len ≤ spaceWords lb →
      (s.crewPkg u e).map (·.carried) = some [(lb, a, len)] →
      let from_ := s.fld F.RAS_DETOUR_FWD k
      let there := s.laybyTile k
      there < 1088 →
      ∃ t, exec (.detourCopyComplete dt u e n) s = .next t ∧ (t.crew u e).copyDue = false ∧ (t.tile there).rings = (s.tile from_).rings ∧
        (∀ i < len, t.readW there lb (a + i) = s.readW from_ lb (a + i)) ∧ s.dispatched t u e g p (g.next - g.first))

/-- Rows and packets. A feeder row lands in the feeder ring of every member of its crew; a row-bus row lands in the rings of every member that
accepts it, and the next row of its channel is due; a mesh packet is written to its space, counted, and arrives at its milestone; a damaged
one is discarded and counted; an asynchronous operation that ends has its effect and frees its entry. It rests on the model's choices in
logs 40, 41, 45. -/
def Obligations.RowsAndPacketsLand : Prop :=
  ∀ (dt : Nat) (s : State),
    (∀ (u : Fin 16) (e : Fin 64) (r : TapRow) (rs : List TapRow) (task : CrewTask) (c : Nat) (g : SegSt) (row : List Nat),
      let x := s.crew u e
      let set := s.slotSet u (g.slot.getD (s.refU u).cur)
      let spl := setFldIn set F.ING_STRIPE_CREW_SPLICE u e
      let ts := ((List.range (setFldIn set F.ING_STRIPE_CREW_N_M1 u e + 1)).map fun i =>
        s.subTile (32 * setFldIn set F.ING_STRIPE_CREW_COL u e + setFldIn set F.ING_STRIPE_CREW_HEAD u e + i)).filter fun t =>
          s.acceptsRow t && task.parts.contains t
      mapGet [] (s.refU u).sendQ e = r :: rs → x.task = some task → s.connOfSeg u r.b r.part = some c → s.seg? c r.b r.part = some g →
      task.b = r.b → task.part = r.part → task.aborted = false → ts.all (fun j => s.ringsReady j 4 1) = true →
      s.stripeRow u e set ((s.chainGeo u).tapC (splFld set F.REF_SPLICE_SRC u spl)) r.row (segNum r.b r.part) (r.n - g.first) = some row →
      ∃ t, exec (.feederRow dt u e) s = .next t ∧ mapGet [] (t.refU u).sendQ e = rs ∧
        t.crew u e = { x with sent := x.sent + 1 } ∧
        (∀ j ∈ ts, ∀ q, s.feedRing j = some q → t.ringOf j q = (s.ringOf j q).wrote x.sent) ∧ s.sameMemory t ∧ t.out = s.out) ∧
    (∀ k : Fin 1088, let busy := s.fld F.TILE_STAT_SB_BUSY k
      let freed (t : State) (e : Nat) : Prop := (∀ j, t.sbGet k j = if j = e then none else s.sbGet k j) ∧
        t.fld F.TILE_STAT_SB_BUSY k = putBits busy e 1 0
      (∀ (e : Fin 16) (inb lb : Bool) (a n ch row ring planes : Nat) (zc sent : Bool) (ws : List Cell16),
        s.sbGet k e = some ⟨inb, lb, a, n, .row ch row ring planes zc ws, sent⟩ → s.acceptsRow k = true →
        s.busMay k ch row ring planes = true → (∀ m ∈ s.segTiles k, m < 1088) →
        ∃ t, exec (.rowBusRow dt k e false) s = .next t ∧ freed t e ∧ mapGet 0 t.busNext (s.busKey k ch) = row + 1 ∧
          (∀ m ∈ s.segTiles k, s.acceptsRow m = true → ∀ q ∈ s.rowRings m ring planes, t.ringOf m q = (s.ringOf m q).wrote row) ∧
          s.sameMemory t ∧ t.out = s.out) ∧
      (∀ (src : Fin 1088) (p : Packet), (s.tile k).arrivals.find? (fun q => q.src == src.val) = some p →
        let rest := (s.tile k).arrivals.eraseP fun q => q.src == src.val
        (p.kind = 0 → s.tState k ≠ tTest → s.tState k ≠ tRetired → p.addr + p.words.length ≤ spaceWords p.lb →
          ∃ t, exec (.meshPacketArrive dt k src false []) s = .next t ∧
            (∀ i, (h : i < p.words.length) → t.readW k p.lb (p.addr + i) = p.words[i]) ∧
            (∀ lb a, a < spaceWords lb → lb ≠ p.lb ∨ a < p.addr ∨ p.addr + p.words.length ≤ a → t.readW k lb a = s.readW k lb a) ∧
            (t.tile k).arrivals = rest ∧ t.arrFly = s.arrFly ++ (if p.msEn then [⟨k, p.ms, 1⟩] else []) ∧
            t.fld F.TILE_TRAF_RX_RX k = (s.fld F.TILE_TRAF_RX_RX k + wireBytes p.zc p.words) % 2 ^ 64 ∧
            (∀ j, j ≠ k.val → t.tile j = s.tile j) ∧ s.keeps t [(.TILE_TRAF_RX, k.val, 0)] ∧ s.sameMemory t) ∧
        (∀ ww, ∃ t, exec (.meshPacketArrive dt k src true ww) s = .next t ∧ t.flag F.TILE_STAT_BAD_ARRIVAL k = true ∧
          t.fld F.TILE_ERRCNT_BAD_ARRIVALS k = min (s.fld F.TILE_ERRCNT_BAD_ARRIVALS k + 1) 65535 ∧
          t.tile k = { s.tile k with arrivals := rest } ∧ (∀ j, j ≠ k.val → t.tile j = s.tile j) ∧
          s.keeps t [(.TILE_STAT, k.val, 0), (.TILE_ERRCNT, k.val, 0)] ∧
          t = { s.tick dt with regs := t.regs, tiles := t.tiles, out := s.out ++ [.report (.note 6 k)] })) ∧
      (∀ (e : Fin 16) (y : SbEntry), s.sbGet k e = some y →
        let rest (t : State) : Prop := freed t e ∧ (∀ j, j ≠ k.val → t.tile j = s.tile j) ∧ s.keeps t [(.TILE_STAT, k.val, 0)] ∧
          t = { s.tick dt with regs := t.regs, tiles := t.tiles }
        (∀ ws : List Cell16, y.op = .write ws → y.addr + ws.length ≤ spaceWords y.lb → ∃ t, exec (.scoreboardRetire dt k e) s = .next t ∧
          (∀ i, (h : i < ws.length) → t.readW k y.lb (y.addr + i) = ws[i]) ∧
          (∀ lb a, a < spaceWords lb → lb ≠ y.lb ∨ a < y.addr ∨ y.addr + ws.length ≤ a → t.readW k lb a = s.readW k lb a) ∧ rest t) ∧
        (∀ ws : List Cell16, y.op = .table ws → ∃ t, exec (.scoreboardRetire dt k e) s = .next t ∧
          (∀ i < 256, let w := ws.getD (i / 8) ⟨0, false⟩
            mapGet acc0 (t.tile k).act i = ⟨BitVec.ofNat 32 (bitsOf w.v.toNat (16 * (i % 8)) 16), w.p⟩) ∧ rest t) ∧
        (y.op = .read → ∃ t, exec (.scoreboardRetire dt k e) s = .next t ∧ rest t) ∧
        (∀ p : Packet, y.op = .mesh p → s.subTile p.dest = p.dest → p.dest ≠ k → s.meshOpen p.src p.dest = true →
          ∃ t, exec (.scoreboardRetire dt k e) s = .next t ∧ (t.tile p.dest).arrivals = (s.tile p.dest).arrivals ++ [p] ∧ freed t e) ∧
        (∀ ws : List Cell16, y.op = .catReq ws → s.catTask.length < 256 → ∃ t, exec (.scoreboardRetire dt k e) s = .next t ∧
          t.catTask = s.catTask ++ [⟨some k.val, none, descOf ws, 0⟩] ∧ freed t e)))

/-- The stream engines and the catalogue engine. A chosen read takes an outstanding entry; its completion delivers the bytes into the client
ring; a chosen write is pulled and reaches HBM; a near miss and a miss count, and the first miss is logged; a request starts, or is refused
and answered, and its completion writes its header, counts and arrives. It rests on the model's choices in logs 34, 35, 78, 154. -/
def Obligations.EnginesServeStreamsAndRequests : Prop :=
  ∀ (dt : Nat) (k : Fin 4) (s : State), s.flag F.RAS_PMIG_EN = false →
    let en := s.engine k
    let up (f : Fld) (i j : Nat) : Nat := min (s.fld f i j + 1) (2 ^ f.w - 1)
    let settled (c : Int) (n z : Nat) (best : Bool) (y : Engine) : Prop := if best then y.credit = c - 1000 * n ∧ y.rr = (z + 1) % 256
      else y.credit = min (c + s.fld F.STR_ARB_BE_PERMILLE * n) 2048000 ∧ y.rr = en.rr
    (∀ (z : Nat) (best : Bool), s.domOn (6 + k.val) = true → s.engineChoice k = some (z, best) → let x := s.slot k z
      (s.fld F.STR_SLOT_RATE_DIR k z = 0 → let n := min (s.slotReq k z x.pos) (x.limit - x.pos)
        let a := s.slotAddr k z x.pos
        ∃ t, exec (.streamRequestIssue dt k) s = .next t ∧ (t.engine k).outst = en.outst ++ [⟨z, a, s.hbmPhys a, n, s.readNow a n⟩] ∧
          settled en.credit n z best (t.engine k) ∧
          t.slot k z = { x with a := x.a + n, pos := x.pos + n, dNum := x.t * s.fld F.STR_SLOT_RATE_RATE_MBPS k z + (x.a + n) * 1000,
                                dDen := max (s.fld F.STR_SLOT_RATE_RATE_MBPS k z) 1 } ∧
          (∀ j : Nat, j ≠ k → t.engine j = s.engine j) ∧ s.keeps t [(.STR_OUT, k.val, 0), (.STR_SLOT_STAT, k.val, z)] ∧
          t = { s.tick dt with regs := t.regs, slots := t.slots, engines := t.engines }) ∧
      (s.fld F.STR_SLOT_RATE_DIR k z = 1 → let n := min (s.slotReq k z x.pos) (min x.o (s.slotBurst k z)) / 16 * 16
        let bs := bytesOfWords (x.data.take (n / 16))
        ∀ (c : Instr) (z' : Fin 256) (p : Nat), z' = z → c = .streamRequestIssue dt k ∨ c = .streamWritePulled dt k z' →
        s.hbmPhys (s.slotAddr k z x.pos) = some p → ∃ t, exec c s = .next t ∧ (t.slot k z).o = x.o - n ∧ (t.slot k z).pos = x.pos + n ∧
          (t.slot k z).pulled = x.pulled + n ∧ (t.slot k z).data = x.data.drop (n / 16) ∧
          (∀ i, (h : i < bs.length) → t.hbmByte (p + i) = bs[i].1) ∧ (∀ a, a < p ∨ p + bs.length ≤ a → t.hbmByte a = s.hbmByte a) ∧
          (∀ a, t.depByte a = s.depByte a))) ∧
    (∀ (z : Fin 256) (r : OutReq) (rest : List OutReq) (p : Nat), takeOut z en.outst = some (r, rest) → let x := s.slot k z
      let len := s.slotLen k z
      let lb := s.flag F.STR_SLOT_TILE_SPACE k z
      let base := s.fld F.STR_SLOT_BUF_BASE_W k z
      let tl := s.slotTile k z
      x.opened = true → s.fld F.STR_SLOT_STAT_STATE k z ≠ 4 → r.phys = some p → tl < 1088 → r.len / 16 ≤ len → base + len ≤ spaceWords lb →
      ∃ t, exec (.streamReadComplete dt k z) s = .next t ∧ (t.engine k).outst = rest ∧ (t.slot k z).deliv = x.deliv + r.len ∧
        (∀ i < r.len / 16, t.readW tl lb (base + (x.deliv / 16 + i) % len) = (wordsOfBytes r.data (r.len / 16)).getD i cell0) ∧
        t.fld F.TILE_TRAF_RX_RX tl = (s.fld F.TILE_TRAF_RX_RX tl + r.len) % 2 ^ 64 ∧ s.sameMemory t ∧ t.out = s.out) ∧
    (∀ tl : Fin 1088, (∃ t, exec (.deadlineMiss dt (.stall tl) true) s = .next t ∧ t.fld F.STR_MISS_CNT_NEAR = up F.STR_MISS_CNT_NEAR 0 0 ∧
        s.keeps t [(.STR_MISS_CNT, 0, 0)] ∧ t = { s.tick dt with regs := t.regs }) ∧
      (s.taskOf tl = none → (∀ q ∈ s.crews, ∀ y, q.2.task = some y → y.aborted = false) → s.flag F.STR_MISS_LOG_VALID = false →
        ∃ t, exec (.deadlineMiss dt (.stall tl) false) s = .next t ∧ t.fld F.STR_MISS_CNT_MISSES = up F.STR_MISS_CNT_MISSES 0 0 ∧
          t.flag F.STR_MISS_LOG_VALID = true ∧ t.fld F.STR_MISS_LOG_KIND = 3 ∧ t.fld F.STR_MISS_LOG_TILE = tl ∧
          s.keeps t [(.STR_MISS_LOG, 0, 0), (.STR_MISS_CNT, 0, 0)] ∧ t = { s.tick dt with regs := t.regs })) ∧
    (∀ (q : CatReq) (qs : List CatReq), s.catRun.length < 8 → s.catTask = q :: qs → s.catHost = [] → s.catRefused q = false →
      ∃ t q', exec (.catRequestStart dt) s = .next t ∧ t.catTask = qs ∧ t.catRun = s.catRun ++ [q'] ∧ q'.desc = q.desc ∧ q'.tile = q.tile ∧
        bitsOf q'.head 0 8 = 0 ∧ bitsOf q'.head 8 8 = q.op ∧ bitsOf q'.head 32 32 = q.f 288 32 ∧
        bitsOf q'.head 64 32 = (if q.op = 5 then 1 else q.n) ∧ t.fld F.CAT_STAT_INFLIGHT = (s.catRun.length + 1) % 2 ^ F.CAT_STAT_INFLIGHT.w) ∧
    (∀ (q : CatReq) (h : CmdHdr), s.catRun.length < 8 → s.catTask = [] → s.catHost = [q] → s.catRefused q = true → q.tile = none →
      q.host = some h → ∃ t, exec (.catRequestStart dt) s = .next t ∧ t.catHost = [] ∧ t.catRun = s.catRun ∧
        t.fld F.CAT_ERRCNT_REFUSED = up F.CAT_ERRCNT_REFUSED 0 0 ∧ t.out = ((s.tick dt).reply h 0x010F []).out ∧ s.sameMemory t) ∧
    (∀ (i : Fin 8) (q : CatReq) (p : Nat), s.catRun[i.val]? = some q → q.host = none → s.hbmPhys q.dstAt = some p →
      ∃ t, exec (.catRequestComplete dt i) s = .next t ∧ t.catRun = s.catRun.eraseIdx i ∧
        (∀ j, (hj : j < (leBytes q.head 64).length) → t.hbmByte (p + j) = (leBytes q.head 64)[j]) ∧
        (∀ a, a < p ∨ p + 64 ≤ a → t.hbmByte a = s.hbmByte a) ∧ t.fld F.CAT_DONE_DONE = up F.CAT_DONE_DONE 0 0 ∧
        t.arrFly = s.arrFly ++ (if q.f 206 1 = 1 then [⟨1089, q.f 192 14, 1⟩] else []) ∧ t.out = s.out ∧
        s.keeps t [(.CAT_DONE, 0, 0), (.CAT_STAT, 0, 0)])

/-- The depot's owners, the tally and egress. A handover that the requester may make gives the banks of the mask their owner and the default
ranks, any other changes no bank, counts and is recorded; a snapshot runs in D0 alone; a record that fits goes to its ring, one that does
not is dropped and counted; a tail is reported once. -/
def Obligations.DepotTallyAndEgress : Prop :=
  ∀ (dt : Nat) (s : State),
    (∀ (r : Requester) (v : Word), s.access (regAddr .DEP_BANK_OWNER) 4 = .ok (hitOf .DEP_BANK_OWNER 0 0) →
      let owner := bitsOf v.toNat 24 3
      let may := if bitsOf v.toNat 31 1 = 1 then decide (r = .mc)
        else (List.range 16).all fun b => bitsOf v.toNat b 1 == 0 || mayHand (ownerClass r) (s.bankOwner b)
      owner < 6 → (may = true → ∃ t, exec (.depBankOwnerWrite dt r v) s = .next t ∧
        (∀ b < 16, t.bankOwner b = if bitsOf v.toNat b 1 = 1 then owner else s.bankOwner b) ∧
        (∀ b < 16, t.fld F.DEP_BANK_PRIO_RANKS b = if bitsOf v.toNat b 1 = 1 then 0xFEDCBA9876543210 else s.fld F.DEP_BANK_PRIO_RANKS b) ∧
        t.fld F.DEP_STAT_HANDOVERS = min (s.fld F.DEP_STAT_HANDOVERS + 1) (2 ^ F.DEP_STAT_HANDOVERS.w - 1) ∧
        s.keeps t ([(.DEP_OWNERS, 0, 0), (.DEP_STAT, 0, 0)] ++ (List.range 16).map fun b => (.DEP_BANK_PRIO, b, 0)) ∧
        t = { s.tick dt with regs := t.regs, bankFault := t.bankFault }) ∧
      (may = false → exec (.depBankOwnerWrite dt r v) s =
        .next (((s.tick dt).aelReg r (regAddr .DEP_BANK_OWNER) 7 0x0501 v.toNat).inc F.DEP_STAT_NOT_OWNER))) ∧
    (s.fld F.PWR_STAT_DSTATE = 0 → s.domOn 2 = true → ∃ t, exec (.tallySnapshot dt []) s = .next t ∧ t.flag F.TALLY_STAT_RUNNING = true ∧
      t.fld F.TALLY_CNT_SNAPS = (s.fld F.TALLY_CNT_SNAPS + 1) % 2 ^ F.TALLY_CNT_SNAPS.w ∧ s.keeps t [(.TALLY_STAT, 0, 0), (.TALLY_CNT, 0, 0)] ∧
      t = { s.tick dt with regs := t.regs, arrMs := [] }) ∧
    (s.fld F.PWR_STAT_DSTATE ≠ 0 → ∀ viol, ∃ t, exec (.tallySnapshot dt viol) s = .next t ∧ t.flag F.TALLY_STAT_RUNNING = false ∧
      s.keeps t [(.TALLY_STAT, 0, 0)] ∧ t = { s.tick dt with regs := t.regs }) ∧
    (∀ (x : EgrRec) (r : Fin 16), s.ringTakes r x = true → (∀ j < 16, j ≠ r.val → s.ringTakes j x = false) → (∀ k < 16, s.rsTakes k x = false) →
      let g := s.eRing r
      let size := 2 ^ s.fld F.CMD_EGR_BASE_SIZE_LOG2 r
      let p := payloadFor x g.fmt8
      let len := 48 + p.length
      g.dropped = 0 → g.written % size + len ≤ size →
      (g.written + len - s.fld F.CMD_EGR_HEAD_HEAD r ≤ size → ∃ t, exec (.egressRecord dt x) s = .next t ∧
        t.out = s.out ++ [.hostWrite (s.ringLink r) (s.fld F.CMD_EGR_BASE_ADDR r * 4096 + g.written % size) (recHeader x len g.rseq ++ p) false] ∧
        t.eRing r = { g with written := (g.written + len) % 2 ^ 64, rseq := (g.rseq + 1) % 2 ^ 32, unreported := true } ∧
        (∀ j, j ≠ r.val → t.eRing j = s.eRing j) ∧ t = { s.tick dt with out := t.out, rings := t.rings }) ∧
      (size < g.written + len - s.fld F.CMD_EGR_HEAD_HEAD r → ∃ t, exec (.egressRecord dt x) s = .next t ∧
        t.eRing r = { g with dropped := 1 } ∧ t.fld F.CMD_EGR_STAT_DROPS r = min (s.fld F.CMD_EGR_STAT_DROPS r + 1) (2 ^ F.CMD_EGR_STAT_DROPS.w - 1) ∧
        s.keeps t [(.CMD_EGR_STAT, r.val, 0)] ∧ t = { s.tick dt with regs := t.regs, rings := t.rings })) ∧
    (∀ r : Fin 16, let g := s.eRing r
      (g.unreported = true → ∃ t, exec (.egressTailReport dt r) s = .next t ∧
        t.out = s.out ++ .hostWrite (s.ringLink r) g.shadow (leBytes g.written 8) false :: (if g.ien then [.msix (s.ringLink r) (64 + r)] else []) ∧
        t.fld F.CMD_EGR_TAIL_TAIL r = g.written % 2 ^ 64 ∧ t.eRing r = { g with unreported := false } ∧ s.keeps t [(.CMD_EGR_TAIL, r.val, 0)] ∧
        t = { s.tick dt with regs := t.regs, rings := t.rings, out := t.out }) ∧
      (g.unreported = false → exec (.egressTailReport dt r) s = .next (s.tick dt)))

/-- DMA channels. START begins a chain with the register descriptor, waits behind a running one, or is lost and counted; STOP, CLR_ERR and KILL
(the MC's) act; a descriptor that is complete pulses and stops, goes on or ends its chain; a linked descriptor comes from the depot. It
rests on the model's choice in log 63. -/
def Obligations.DmaCommandsRunChains : Prop :=
  ∀ (dt : Nat) (r : Requester) (c : Fin 64) (s : State),
    let x := s.chan c
    let st := s.dmaSt c
    let up (f : Fld) : Nat := min (s.fld f c + 1) (2 ^ f.w - 1)
    let only (t : State) : Prop := s.keeps t [(.DMA_STAT, c.val, 0), (.DMA_CUR, c.val, 0)] ∧ (∀ j : Nat, j ≠ c → t.chan j = s.chan j) ∧
      t = { s.tick dt with regs := t.regs, dma := t.dma }
    let loaded (y : DmaChan) : Prop := y.src = s.reg .DMA_SRC c ∧ y.dst = s.reg .DMA_DST c ∧ y.count = s.reg .DMA_COUNT c ∧
      y.ctrl = s.reg .DMA_CTRL c ∧ y.shuf = s.reg .DMA_SHUF c ∧ y.next = s.reg .DMA_NEXT c ∧ y.rd = 0 ∧ y.wr = 0 ∧ y.hold = [] ∧ y.stop = false
    let first : DmaChan := { chan0 with src := s.reg .DMA_SRC c, dst := s.reg .DMA_DST c, count := s.reg .DMA_COUNT c,
                                        ctrl := s.reg .DMA_CTRL c, shuf := s.reg .DMA_SHUF c, next := s.reg .DMA_NEXT c }
    (s.access (regAddr .DMA_CMD c) 4 = .ok (hitOf .DMA_CMD c 0) →
      (st = 0 → s.descOk first = true → ∃ t, exec (.dmaStart dt r c) s = .next t ∧ t.dmaSt c = 1 ∧ loaded (t.chan c) ∧
        t.fld F.DMA_CUR_IN_CHAIN c = 0 ∧ t.fld F.DMA_CUR_REMAIN c = first.outBytes % 2 ^ F.DMA_CUR_REMAIN.w ∧ only t) ∧
      (st = 0 → s.descOk first = false → ∃ t, exec (.dmaStart dt r c) s = .next t ∧ t.dmaSt c = 4 ∧ t.fld F.DMA_STAT_ERR c = 1 ∧
        t.out = s.out ++ [.report (.dmaDesc c)] ∧ s.keeps t [(.DMA_STAT, c.val, 0), (.DMA_CUR, c.val, 0)]) ∧
      (1 ≤ st → st ≤ 3 → s.fld F.DMA_STAT_START_PEND c < 255 → ∃ t, exec (.dmaStart dt r c) s = .next t ∧
        t.fld F.DMA_STAT_START_PEND c = s.fld F.DMA_STAT_START_PEND c + 1 ∧ t.dmaSt c = st ∧ t.chan c = x ∧ only t) ∧
      (st = 4 ∨ (st ≠ 0 ∧ s.fld F.DMA_STAT_START_PEND c = 255) → ∃ t, exec (.dmaStart dt r c) s = .next t ∧
        t.fld F.DMA_STAT_START_OVR c = up F.DMA_STAT_START_OVR ∧ t.dmaSt c = st ∧ t.chan c = x ∧ only t) ∧
      (1 ≤ st → st ≤ 3 → ∃ t, exec (.dmaStop dt r c) s = .next t ∧ t.chan c = { x with stop := true } ∧
        t.dmaSt c = (if st = 1 then 2 else st) ∧ only t) ∧
      (st = 4 → ∃ t, exec (.dmaClrErr dt r c) s = .next t ∧ t.dmaSt c = 0 ∧ t.fld F.DMA_STAT_ERR c = 0 ∧ t.chan c = x ∧ only t) ∧
      (1 ≤ st → st ≤ 3 → ∃ t, exec (.dmaKill dt .mc c) s = .next t ∧ t.dmaSt c = 4 ∧ t.fld F.DMA_STAT_ERR c = 6 ∧ (t.chan c).hold = [] ∧ only t) ∧
      (r ≠ .mc → exec (.dmaKill dt r c) s = .next ((s.tick dt).aelReg r (regAddr .DMA_CMD c) 11 0 8))) ∧
    (x.written = true → 1 ≤ st → st ≤ 3 →
      let ps := s.pulses ++ (if bitsOf x.ctrl 15 1 = 1 then [(.local_ c, 1)] else [])
      let done (t : State) : Prop := t.pulses = ps ∧ s.keeps t [(.DMA_STAT, c.val, 0), (.DMA_CUR, c.val, 0)] ∧
        (∀ j : Nat, j ≠ c → t.chan j = s.chan j) ∧ t = { s.tick dt with regs := t.regs, dma := t.dma, pulses := t.pulses }
      (x.stop = true → ∃ t, exec (.dmaDescriptorComplete dt c) s = .next t ∧ t.dmaSt c = 0 ∧ t.flag F.DMA_STAT_STOPPED c = true ∧
        t.fld F.DMA_STAT_START_PEND c = 0 ∧ t.chan c = chan0 ∧ done t) ∧
      (x.stop = false → bitsOf x.next 31 1 = 1 → ∃ t, exec (.dmaDescriptorComplete dt c) s = .next t ∧ t.dmaSt c = 1 ∧
        (t.chan c).fetching = true ∧ (t.chan c).next = x.next ∧ done t) ∧
      (x.stop = false → bitsOf x.next 31 1 = 0 → s.fld F.DMA_STAT_START_PEND c = 0 →
        ∃ t, exec (.dmaDescriptorComplete dt c) s = .next t ∧ t.dmaSt c = 0 ∧ t.chan c = chan0 ∧ done t) ∧
      (x.stop = false → bitsOf x.next 31 1 = 0 → 0 < s.fld F.DMA_STAT_START_PEND c → s.descOk first = true →
        ∃ t, exec (.dmaDescriptorComplete dt c) s = .next t ∧ t.dmaSt c = 1 ∧ loaded (t.chan c) ∧
          t.fld F.DMA_STAT_START_PEND c = s.fld F.DMA_STAT_START_PEND c - 1 ∧ done t)) ∧
    (x.fetching = true → let a := 32 * bitsOf x.next 0 20
      let b (o n : Nat) : Nat := leNat ((List.range n).map fun i => s.depByte (a + o + i))
      s.depotMay 2 a = true → let y : DmaChan := { chan0 with src := b 0 8, dst := b 8 8, count := b 16 4, ctrl := b 20 4, shuf := b 24 4,
                                                              next := b 28 4, stop := x.stop }
      s.descOk y = true → ∃ t, exec (.dmaNextFetched dt c) s = .next t ∧ t.chan c = { y with checked := true } ∧
        t.fld F.DMA_CUR_IN_CHAIN c = 1 ∧ t.fld F.DMA_CUR_ADDR c = bitsOf x.next 0 20 ∧ only t)

/-- DMA beats and events. The winning channel of a lane reads its next bytes from the depot, HBM or the host into its holding register, and
writes what it holds to its destination; a pulse reaches the destination of every route of its source; a timer pulses at its period. It
rests on the model's choices in logs 61, 153. -/
def Obligations.DmaBeatsAndEvents : Prop :=
  ∀ (dt : Nat) (s : State),
    (∀ (l : Fin 4) (c : Fin 64) (host : HostBuf), s.dmaWinner l = some c.val → let x := s.chan c
      let others (t : State) : Prop := (∀ j, j ≠ c.val → t.chan j = s.chan j) ∧ mapGet 0 t.lanes l = c.val + 1
      (x.writeLen = 0 ∨ x.readLen ≠ 0 → let n := x.readLen
        let a := sideAt x.srcFixed x.src x.sw x.srcAt x.rd
        (x.ssp = 0 → s.depotMay 2 a = true → ∃ t, exec (.dmaBeat dt l false host) s = .next t ∧
          t.chan c = { x with hold := x.hold ++ (List.range n).map (fun i => let q := (a + i) % depotBytes
            (s.depByte q, mapGet false s.depotPoison (q / 16))), rd := x.rd + n } ∧ others t ∧
          t = { s.tick dt with dma := t.dma, lanes := t.lanes }) ∧
        (∀ p, x.ssp = 1 → s.hbmPhys a = some p → ∃ t, exec (.dmaBeat dt l false host) s = .next t ∧
          t.chan c = { x with hold := x.hold ++ (List.range n).map (fun i => (s.hbmByte (p + i), s.hbmMark (p + i))), rd := x.rd + n } ∧
          (t.engine (a / stackBytes)).credit = (s.engine (a / stackBytes)).credit - 1000 * n ∧ others t ∧
          t = { s.tick dt with dma := t.dma, lanes := t.lanes, engines := t.engines }) ∧
        (∀ b : List Byte, x.ssp = 2 → b.length = n → ∃ t, exec (.dmaBeat dt l false (.bytes b)) s = .next t ∧
          t.chan c = { x with hold := x.hold ++ b.map (fun v => (v, false)), rd := x.rd + n } ∧ others t ∧
          t = { s.tick dt with dma := t.dma, lanes := t.lanes })) ∧
      (x.writeLen ≠ 0 → x.wr + x.writeLen < x.outBytes → let n := x.writeLen
        let a := sideAt x.dstFixed x.dst x.dw x.dstAt x.wr
        let b := (List.range n).map fun i => x.outByte (x.wr + i)
        let drained (t : State) : Prop := t.chan c = { x with hold := x.hold.drop (x.used (x.wr + n) - x.used x.wr), wr := x.wr + n } ∧
          t.fld F.DMA_CUR_REMAIN c = (x.outBytes - (x.wr + n)) % 2 ^ F.DMA_CUR_REMAIN.w ∧ s.keeps t [(.DMA_CUR, c.val, 0)] ∧ others t
        (x.dsp = 0 → a + n ≤ depotBytes → s.depotMay 2 a = true → ∃ t, exec (.dmaBeat dt l true host) s = .next t ∧ drained t ∧
          (∀ i, (h : i < b.length) → t.depByte (a + i) = b[i].1) ∧ (∀ q, q < a ∨ a + n ≤ q → t.depByte q = s.depByte q) ∧
          t = { s.tick dt with regs := t.regs, dma := t.dma, lanes := t.lanes, depot := t.depot, depotPoison := t.depotPoison }) ∧
        (∀ p, x.dsp = 1 → s.hbmPhys a = some p → s.flag F.RAS_PMIG_EN = false → ∃ t, exec (.dmaBeat dt l true host) s = .next t ∧ drained t ∧
          (∀ i, (h : i < b.length) → t.hbmByte (p + i) = b[i].1) ∧ (∀ q, q < p ∨ p + n ≤ q → t.hbmByte q = s.hbmByte q) ∧
          t = { s.tick dt with regs := t.regs, dma := t.dma, lanes := t.lanes, engines := t.engines, hbm := t.hbm, hbmPoison := t.hbmPoison }) ∧
        (x.dsp = 2 → s.twoByEight = false → ∃ t, exec (.dmaBeat dt l true host) s = .next t ∧ drained t ∧
          t = { s.tick dt with regs := t.regs, dma := t.dma, lanes := t.lanes,
                               out := s.out ++ [.hostWrite 0 a (b.map (·.1)) (b.any (·.2))] }))) ∧
    (∀ (p : Pulse) (n : Nat) (rest : List (Pulse × Nat)), s.pulses = (p, n) :: rest →
      let left := if n ≤ 1 then rest else (p, n - 1) :: rest
      ((∀ i < 256, s.routeTakes i p = false) → exec (.eventPulseRoute dt) s = .next { s.tick dt with pulses := left }) ∧
      (∀ i < 256, s.routeTakes i p = true → (∀ j < 256, j ≠ i → s.routeTakes j p = false) → let d := s.fld F.DMA_ROUTE_DIDX i
        (s.fld F.DMA_ROUTE_DKIND i = 0 → ∃ t, exec (.eventPulseRoute dt) s = .next t ∧ t.arrFly = s.arrFly ++ [⟨1088, d, 1⟩] ∧
          t = { s.tick dt with pulses := left, arrFly := t.arrFly, arrSent := t.arrSent }) ∧
        (s.fld F.DMA_ROUTE_DKIND i = 1 → d < 64 → exec (.eventPulseRoute dt) s = .next (({ s.tick dt with pulses := left } : State).dmaStart d)) ∧
        (s.fld F.DMA_ROUTE_DKIND i = 2 → ∃ t, exec (.eventPulseRoute dt) s = .next t ∧
          mapGet [] t.markers d = mapGet [] s.markers d ++ [i] ∧ t = { s.tick dt with pulses := left, markers := t.markers }))) ∧
    (∀ t : Fin 16, let d := (s.now + dt) % 2 ^ 64 - mapGet 0 s.tmrBase t
      (s.flag F.DMA_TMR_EN t = true → 0 < d → d % max 1 (s.fld F.DMA_TMR_PERIOD_NS t) = 0 →
        exec (.dmaTimerPulse dt t) s = .next { s.tick dt with pulses := s.pulses ++ [(.local_ (0x40 + t), 1)] }) ∧
      (s.flag F.DMA_TMR_EN t = false ∨ d % max 1 (s.fld F.DMA_TMR_PERIOD_NS t) ≠ 0 → exec (.dmaTimerPulse dt t) s = .next (s.tick dt)))

/-- Frames on the network ports. A damaged frame, a quarantined source and a frame no row accepts are counted; ARP and echo are answered; an ARP
request is repeated; links come up and go down; PTP follows its master and times out; a partial result datagram leaves; a plant event that
passes its checks is a speed hint, one that fails is counted. It rests on the model's choices in logs 16, 17, 72, 73, 74, 108. -/
def Obligations.NetworkPortsHandleFrames : Prop :=
  ∀ (dt : Nat) (p : Fin 4) (s : State),
    let now := (s.now + dt) % 2 ^ 64
    let one (c : Instr) (f : Fld) (i : Nat) : Prop := ∃ t, exec c s = .next t ∧ t.fld f i = min (s.fld f i + 1) (2 ^ f.w - 1) ∧
      s.keeps t [(f.reg, i, 0)] ∧ t = { s.tick dt with regs := t.regs }
    (∀ f : NetFrame, s.portUp p = true → let c := Instr.ethFrameReceived dt p f
      (f.ok = false → one c F.NET_ERRCNT_FCS p) ∧
      (f.ok = true → s.quarantined p f.mac = true → one c F.NET_ERRCNT_QUAR p) ∧
      (f.ok = true → s.quarantined p f.mac = false → f.len ≤ 9018 → f.vid = none →
        (∀ ip mac, f.pay = .arp 1 ip mac (s.portIp p) → exec c s = .next { s.tick dt with out := s.out ++ [.arp p 2 ip mac] }) ∧
        (∀ src b, f.pay = .echo src (s.portIp p) b → exec c s = .next { s.tick dt with out := s.out ++ [.echo p src b] }) ∧
        (f.pay = .pause → one c F.NET_ERRCNT_PAUSE p) ∧ (f.pay = .other ∨ f.pay = .fragment → one c F.NET_ERRCNT_RX_DISCARD p))) ∧
    (∀ (q : Fin 6) (ip : Word), s.portUp q = true → ip.toNat ∈ (s.arpPort q).asked → s.waitersFor q ip.toNat = [] →
      ∃ t, exec (.arpRetry dt q ip) s = .next t ∧ t.out = s.out ++ [.arp q 1 ip.toNat 0] ∧ (∀ j : Nat, j ≠ q → t.arpPort j = s.arpPort j) ∧
        (t.arpPort q).asked = (s.arpPort q).asked ∧ (t.arpPort q).cache = (s.arpPort q).cache ∧ t = { s.tick dt with out := t.out, arp := t.arp }) ∧
    (∀ (v : Fin 5) (fec : Bool) (page : Nat) (ab : Fin 8), let m := s.fld F.NET_CFG_MODE p
      s.flag F.NET_CFG_EN p = true → s.fld F.NET_STAT_STATE p ≠ 2 → v ≠ 0 → (m = 0 ∨ (m = 1 ∧ v.val ≤ 2) ∨ (m = 2 ∧ 3 ≤ v.val)) →
      (∀ c < 16, (s.conn c).gv = true → s.fld F.NET_GV_CFG_PORT c ≠ p → s.fld F.NET_STAT_STATE (s.fld F.NET_GV_CFG_PORT c) = 2 ∨
        (s.connState c ≠ 2 ∧ s.connState c ≠ 3)) →
      ∃ t, exec (.ethLinkUp dt p v fec page ab) s = .next t ∧ t.fld F.NET_STAT_STATE p = 2 ∧ t.fld F.NET_STAT_SPEED p = v ∧
        t.fld F.NET_STAT_FEC p = (if fec ∨ v.val ≤ 2 then 1 else 0) ∧ mapGet (0, 0) t.netPeer p = (page % 2 ^ 23, ab.val) ∧ s.sameMemory t) ∧
    (s.fld F.NET_STAT_STATE p = 2 → (∀ d < 16, ∀ g ∈ (s.conn d).segs, g.unit < 16) → ∃ t, exec (.ethLinkLoss dt p) s = .next t ∧ t.reg .NET_STAT p = 0 ∧ s.sameMemory t ∧
      ((∀ c < 16, (s.conn c).gv = false) → s.keeps t [(.NET_STAT, p.val, 0)] ∧ t = { s.tick dt with regs := t.regs })) ∧
    (∀ udp : Bool, s.ptpPort p udp = true →
      (∀ m : PtpMaster, s.ptp.master = none ∨ (∃ b, s.ptp.master = some b ∧ (m.ident = b.ident ∨ ptpBetter m b = true)) →
        ∃ t, exec (.ptpMessage dt p udp (.announce (s.fld F.NET_PTP_CFG_DOMAIN) m)) s = .next t ∧ t.ptp = { s.ptp with master := some m } ∧
          t.fld F.NET_PTP_STAT_STATE = (if s.fld F.NET_PTP_STAT_STATE = 1 then 2 else s.fld F.NET_PTP_STAT_STATE) ∧
          s.keeps t [(.NET_PTP_STAT, 0, 0)] ∧ t = { s.tick dt with regs := t.regs, ptp := t.ptp }) ∧
      (∀ (m : PtpMaster) (n t1 t2 t4 : Nat) (c : Int), s.ptp.master = some m → let d := s.fld F.NET_PTP_CFG_DOMAIN
        exec (.ptpMessage dt p udp (.sync d m.ident n t1 c true)) s =
          .next ({ s.tick dt with ptp := { s.ptp with sync := some (n, now) } } : State) ∧
        (∀ t3, s.ptp.req = some (n, t3) → exec (.ptpMessage dt p udp (.delayResp d m.ident n t4 c)) s = .next ({ s.tick dt with
          ptp := { s.ptp with delay := (s.ptp.diff + ((t4 : Int) - c - t3)) / 2, req := none } } : State)) ∧
        (s.ptp.sync = some (n, t2) → s.ptp.locked = true → let off := (t2 : Int) - t1 - c - s.ptp.delay;
          (-2147483648 : Int) ≤ off → off ≤ 2147483647 → ∃ t, exec (.ptpMessage dt p udp (.followUp d m.ident n t1 c)) s = .next t ∧
            t.fld F.NET_PTP_OFFSET_OFFSET = wrapTo 32 off ∧ t.out = s.out ++ [.ptpReq (s.fld F.NET_PTP_CFG_SRC) s.ptp.seq] ∧
            t.ptp.diff = (t2 : Int) - t1 - c ∧ t.ptp.req = some (s.ptp.seq, now) ∧ t.ptp.sync = none ∧
            (16 ≤ s.ptp.good + 1 → off.natAbs < 100 → t.fld F.NET_PTP_STAT_STATE = 3) ∧
            s.keeps t [(.NET_PTP_OFFSET, 0, 0), (.NET_PTP_STAT, 0, 0)] ∧ t = { s.tick dt with regs := t.regs, ptp := t.ptp, out := t.out }))) ∧
    (s.fld F.NET_PTP_STAT_STATE = 2 ∨ s.fld F.NET_PTP_STAT_STATE = 3 → ∃ t, exec (.ptpAnnounceTimeout dt) s = .next t ∧
      t.fld F.NET_PTP_STAT_STATE = 4 ∧ t.ptp = { s.ptp with master := none, good := 0 } ∧ s.keeps t [(.NET_PTP_STAT, 0, 0)] ∧
      t = { s.tick dt with regs := t.regs, ptp := t.ptp }) ∧
    (∀ (k : Fin 16) (hop mac : Nat), let b := s.rsBuf k
      let q := s.fld F.NET_RS_CFG_PORT k
      let dst := s.fld F.NET_RS_DST_ADDR k
      s.flag F.NET_RS_CFG_EN k = true → b.first + s.fld F.NET_RS_LEN_FLUSH_US k * 1000 ≤ now → s.fld F.NET_STAT_STATE q = 2 →
      0 < b.bytes.length → b.bytes.length < s.rsCap k → s.nextHop q dst = some hop → arpFind hop (s.arpPort q).cache = some mac →
      ∃ t, exec (.rsFlushTimeout dt k) s = .next t ∧ (t.rsBuf k).bytes = b.bytes.drop b.bytes.length ∧ (t.rsBuf k).dseq = (b.dseq + 1) % 2 ^ 64 ∧
        t.out = s.out ++ [.udp q (s.portTci q) mac dst (s.fld F.NET_RS_DST_UDP_PORT k) 23058 ((s.tick dt).rsDatagram k b.bytes.length)] ∧
        (∀ j, j ≠ k.val → t.rsBuf j = s.rsBuf j) ∧ t = { s.tick dt with rs := t.rs, out := t.out }) ∧
    (∀ (q : Fin 6) (mac : Nat) (b : List Byte), s.portUp q = true → s.quarantined q mac = false →
      let bad := s.dgramBad b 48 0x5A45 (numAt b 12 1 == 1 || numAt b 12 1 == 2) 8 2
      (bad = none → s.classOk (numAt b 3 1 % 8) 0x0B = true → numAt b 12 1 = 1 → ∃ t, exec (.plantEventDatagram dt q mac b) s = .next t ∧
        t.flag F.PLB_HINT_VALID = true ∧ t.fld F.PLB_HINT_ODO = numAt b 16 4 % 4 ∧ t.fld F.PLB_HINT_RATE = numAt b 20 4 ∧
        t.fld F.PLB_HINT_TOL_PERMILLE = numAt b 24 4 % 1024 ∧ t.lastSeq (numAt b 3 1 % 8) (numAt b 4 4) = some (numAt b 8 4) ∧
        s.keeps t [(.PLB_HINT, 0, 0)] ∧ s.sameMemory t ∧ t.out = s.out) ∧
      (bad = some 1 → ∃ t, exec (.plantEventDatagram dt q mac b) s = .next t ∧
        t.fld F.CMD_NET_STAT_AUTH_FAIL = min (s.fld F.CMD_NET_STAT_AUTH_FAIL + 1) 255 ∧ s.keeps t [(.CMD_NET_STAT, 0, 0)] ∧ s.sameMemory t ∧
        t.out = s.out ∧ t.origins = s.origins))

/-- The plant bus. Frames enter the census and bad ones count; collisions count, the eighth in a row is reported and the sixteenth attempt
discards; the loss of beacons falls back and a backup takes over, and gives way to a coordinator; a quarantine ends; hints are compared and
expire. It rests on the model's choices in logs 113, 114, 140. -/
def Obligations.PlantBusAndHints : Prop :=
  ∀ (dt : Nat) (b : Fin 2) (s : State),
    let x := s.plb b
    let now := (s.now + dt) % 2 ^ 64
    let others (t : State) : Prop := ∀ j : Nat, j ≠ b → t.plb j = s.plb j
    let stat (t : State) : Prop := s.keeps t [(.PLB_STAT, b.val, 0)] ∧ others t ∧ t = { s.tick dt with regs := t.regs, plbs := t.plbs }
    (∀ (node : Fin 256) (f : NetFrame), s.fld F.PLB_STAT_MODE b ≠ 0 →
      (f.ok = false → ∃ t, exec (.plbFrameReceived dt b node f) s = .next t ∧
        t.fld F.PLB_ERRCNT_FCS b = min (s.fld F.PLB_ERRCNT_FCS b + 1) 255 ∧ now ∈ (t.plb b).noise ∧ (t.plb b).census = x.census ∧ others t ∧
        s.keeps t [(.PLB_STAT, b.val, 0), (.PLB_ERRCNT, b.val, 0)] ∧ t = { s.tick dt with regs := t.regs, plbs := t.plbs }) ∧
      (f.ok = true → f.len ≤ 1518 → s.quarantined (4 + b.val) f.mac = false → f.pay = .other → (∀ e ∈ x.census, e.mac ≠ f.mac) →
        x.census.length < 64 → ∃ t, exec (.plbFrameReceived dt b node f) s = .next t ∧
          (t.plb b) = { x with census := x.census ++ [⟨f.mac, node, false, false, false, 1, now⟩] } ∧ others t ∧
          t = { s.tick dt with plbs := t.plbs })) ∧
    (∀ (attempt : Fin 17) (again : Bool), s.fld F.PLB_STAT_MODE b ≠ 0 → let n := if again then x.run + 1 else 1
      ∃ t, exec (.plbCollision dt b attempt again) s = .next t ∧ t.plb b = { x with run := n } ∧
        t.fld F.PLB_ERRCNT_COLL b = min (s.fld F.PLB_ERRCNT_COLL b + 1) 255 ∧
        t.fld F.PLB_ERRCNT_DISCARD b = (if attempt.val = 16 then min (s.fld F.PLB_ERRCNT_DISCARD b + 1) 255 else s.fld F.PLB_ERRCNT_DISCARD b) ∧
        (n = 8 → t.flag F.PLB_STAT_DUP_ID b = true) ∧ t.out = s.out ++ (if n = 8 then [.report (.note 17 b)] else []) ∧ others t ∧
        s.keeps t [(.PLB_STAT, b.val, 0), (.PLB_ERRCNT, b.val, 0)] ∧ t = { s.tick dt with regs := t.regs, plbs := t.plbs, out := t.out }) ∧
    (s.fld F.PLB_STAT_MODE b = 2 → (∃ t, exec (.plbBeaconTimeout dt b false) s = .next t ∧ t.fld F.PLB_STAT_MODE b = 1 ∧
        t.flag F.PLB_STAT_BEACON_LOST b = true ∧ stat t ∧ t.plb b = x) ∧
      (s.flag F.PLB_CFG_BACKUP b = true → s.flag F.PLB_CFG_PLCA b = true → s.fld F.PLB_CFG_NODE_ID b ≠ 0xFF →
        let n := s.fld F.PLB_CFG_NODE_CNT b
        ∃ t, exec (.plbBeaconTimeout dt b true) s = .next t ∧ t.fld F.PLB_STAT_MODE b = 3 ∧ t.flag F.PLB_STAT_TOOK_OVER b = true ∧
          t.plb b = { x with taken := true, coord := n } ∧ t.out = s.out ++ [.beacon (4 + b.val) n] ∧ others t ∧
          s.keeps t [(.PLB_STAT, b.val, 0)] ∧ t = { s.tick dt with regs := t.regs, plbs := t.plbs, out := t.out })) ∧
    (∀ cnt : Fin 256, (s.fld F.PLB_STAT_MODE b = 3 ∧ x.taken = true) ∨ s.fld F.PLB_STAT_MODE b = 2 →
      ∃ t, exec (.plbBeaconReceived dt b cnt) s = .next t ∧ t.fld F.PLB_STAT_MODE b = 2 ∧ (t.plb b).coord = cnt ∧
        (s.fld F.PLB_STAT_MODE b = 3 → (t.plb b).taken = false) ∧ (∀ e ∈ (t.plb b).census, e.node = 0 → e.beacon = true) ∧ stat t) ∧
    (∀ (p : Fin 6) (mac : Nat), s.quarantined p mac = true → ∃ t, exec (.quarantineExpire dt p mac) s = .next t ∧
      t.quarantined p mac = false ∧ (∀ q m, (q ≠ p.val ∨ m ≠ mac) → t.quarantined q m = s.quarantined q m) ∧
      t = { s.tick dt with srcs := t.srcs, plbs := t.plbs }) ∧
    (s.flag F.PLB_HINT_VALID = true → let u := s.fld F.PLB_HINT_ODO
      let rate := s.fld F.PLB_HINT_RATE
      let d := s.fld F.ODO_EDGE_DT_DT_NS u
      (s.flag F.ODO_STAT_STOPPED u = false → 0 < d →
        let off := ((1000000000 : Int) - rate * d).natAbs * 1000
        let bad := rate * s.fld F.PLB_HINT_TOL_PERMILLE * d < off
        ∃ t, exec (.speedHintCheck dt) s = .next t ∧ t.hintBad = (if bad then min (s.hintBad + 1) 10 else 0) ∧
          (bad → s.hintBad = 9 → t.flag F.PLB_HINT_MISMATCH = true ∧ t.out = s.out ++ [.report (.note 18 u)]) ∧
          (¬bad → t.out = s.out ∧ t.regs = s.regs) ∧ s.keeps t [(.PLB_HINT, 0, 0)] ∧
          t = { s.tick dt with regs := t.regs, hintBad := t.hintBad, freeCtr := s.freeCtr + 1, out := t.out }) ∧
      (∃ t, exec (.speedHintExpire dt) s = .next t ∧ t.flag F.PLB_HINT_VALID = false ∧ s.keeps t [(.PLB_HINT, 0, 0)] ∧
        t = { s.tick dt with regs := t.regs, hintBad := 0 }))

/-- Junction links. Enabling trains the lanes and disabling takes the port down; training ends in HELLO at the width of the working lanes or
trains again; a HELLO makes the port ACTIVE or REFUSED with its reason; failed lanes narrow it, or train it whole; a missing drop sequence
trains it whole; widening takes its lanes back. -/
def Obligations.JunctionLinksTrainAndNarrow : Prop :=
  ∀ (dt : Nat) (j : Fin 4) (s : State),
    let x := s.jct j
    let st := s.jctState j
    let now := (s.now + dt) % 2 ^ 64
    let upR (n : Nat) : Nat := min (n + 1) 255
    let link (t : State) (l : List (Reg × Nat × Nat)) : Prop := (∀ k : Nat, k ≠ j → t.jct k = s.jct k) ∧ s.keeps t ((.JCT_STAT, j.val, 0) :: l) ∧
      t = { s.tick dt with regs := t.regs, jcts := t.jcts, out := t.out }
    let whole (t : State) : Prop := t.jctState j = 1 ∧ t.fld F.JCT_ERRCNT_RETRAINS j = upR (s.fld F.JCT_ERRCNT_RETRAINS j) ∧
      (t.jct j).failed = 0 ∧ link t [(.JCT_ERRCNT, j.val, 0)]
    (∀ (r : Requester) (v : Word), s.access (regAddr .JCT_CFG j) 4 = .ok (hitOf .JCT_CFG j 0) → ∃ t, exec (.jctCfgWrite dt r j v) s = .next t ∧
      t.fld F.JCT_CFG_EN j = bitsOf v.toNat 31 1 ∧ t.fld F.JCT_CFG_LANE_EN j = bitsOf v.toNat 24 4 ∧ t.out = s.out ∧
      link t [(.JCT_CFG, j.val, 0), (.JCT_RSV, j.val, 0)] ∧
      (if bitsOf v.toNat 31 1 = s.fld F.JCT_CFG_EN j then t.reg .JCT_STAT j = s.reg .JCT_STAT j ∧ t.jct j = x
        else t.jctState j = bitsOf v.toNat 31 1 ∧ t.fld F.JCT_STAT_LANES j = 0 ∧ t.jct j = { jct0 with widened := x.widened })) ∧
    (∀ ok : Fin 16, st = 1 → let w := widthOf ((List.range 4).foldl (fun n i =>
          if bitsOf (s.fld F.JCT_CFG_LANE_EN j) i 1 = 1 ∧ bitsOf ok i 1 = 1 then n + 2 ^ i else n) 0)
      (w ≠ 0 → ∃ t, exec (.laneTrainingComplete dt j ok) s = .next t ∧ t.jctState j = 2 ∧ t.fld F.JCT_STAT_LANES j = w ∧
        t.out = s.out ++ [.flit j 0 2 x.nextSeq ((x.expect + 4095) % 4096) 0 0
          (some (.msg (.hello (s.fld F.JCT_SYS_DEVNUM) (s.fld F.JCT_SYS_SYSID) s.fwMajor w 32 2048)))] ∧ link t [(.JCT_RSV, j.val, 0)]) ∧
      (w = 0 → ∃ t, exec (.laneTrainingComplete dt j ok) s = .next t ∧ t.out = s.out ∧ whole t)) ∧
    (∀ (dev : Fin 256) (sid : Fin 65536) (major lanes cr0 cr1 : Nat), st = 2 → let c := Instr.jctHello dt j dev sid major lanes cr0 cr1
      let own := s.fld F.JCT_SYS_DEVNUM
      let why := if sid.val ≠ s.fld F.JCT_SYS_SYSID then 1 else if dev.val = own then 2 else if major ≠ s.fwMajor then 3 else 0
      (why ≠ 0 → ∃ t, exec c s = .next t ∧ t.jctState j = 4 ∧ t.fld F.JCT_STAT_REASON j = why ∧ t.fld F.JCT_STAT_PARTNER j = dev ∧
        t.out = s.out ∧ link t []) ∧
      (why = 0 → x.unacked = [] → x.txq = [] → x.dropIn = false → ∃ t, exec c s = .next t ∧ t.jctState j = 3 ∧
        t.fld F.JCT_STAT_PARTNER j = dev ∧ t.jct j = { x with plane := lanes, psys := sid, major := major, adv0 := cr0, adv1 := cr1 } ∧
        t.out = s.out ∧ link t [])) ∧
    (∀ mask : Fin 16, st = 3 → let failed := x.failed ||| mask.val
      let lanes := (List.range 4).foldl (fun n i => if bitsOf (s.fld F.JCT_CFG_LANE_EN j) i 1 = 1 ∧ bitsOf failed i 1 = 0 then n + 2 ^ i else n) 0
      (lanes ≠ 0 → ∃ t, exec (.laneFailure dt j mask) s = .next t ∧ t.jctState j = 5 ∧ t.jct j = { x with failed := failed, dropIn := false } ∧
        t.out = s.out ++ [.laneDrop j] ∧ link t []) ∧
      (lanes = 0 → ∃ t, exec (.laneFailure dt j mask) s = .next t ∧ t.out = s.out ∧ whole t) ∧
      (∃ t, exec (.laneDropReceived dt j mask) s = .next t ∧ t.jctState j = 5 ∧ t.jct j = { x with failed := failed, dropIn := true } ∧
        t.out = s.out ++ [.laneDrop j] ∧ link t [])) ∧
    (st = 5 → x.dropIn = false → ∃ t, exec (.laneRetrainTimeout dt j) s = .next t ∧ t.out = s.out ∧ whole t) ∧
    (st = 3 → x.failed ≠ 0 → (∀ a, x.widened = some a → a + 60000000000 ≤ now) → ∃ t, exec (.laneWidening dt j) s = .next t ∧ t.jctState j = 5 ∧
      t.jct j = { x with failed := 0, widened := some now, dropIn := false } ∧ t.out = s.out ++ [.laneDrop j] ∧ link t [])

/-- Junction traffic. A flit with a bad CRC is counted and discarded, one in order is taken and answered, one out of order is discarded; a stall
resends what is not acknowledged; control and time messages leave as one flit each; positions are sampled, compared and aligned. It rests on
the model's choices in logs 29, 75, 76, 77. -/
def Obligations.JunctionTraffic : Prop :=
  ∀ (dt : Nat) (j : Fin 4) (s : State),
    let now := (s.now + dt) % 2 ^ 64
    let active (k : Nat) : Prop := s.jctActive k = true ∧ (s.jct k).txq = [] ∧ 0 < (s.jct k).credits 0 ∧ (s.jct k).unacked.length < 2048
    let sent (t : State) (k : Nat) (m : JMsg) : Prop := let x := s.jct k
      t.out = s.out ++ [.flit k 0 2 x.nextSeq ((x.expect + 4095) % 4096) 0 (x.freed0 % 256) (some (.msg m))] ∧
      t.jct k = { x with unacked := x.unacked ++ [(x.nextSeq, ⟨0, true, .msg m⟩)], nextSeq := (x.nextSeq + 1) % 4096, used0 := x.used0 + 1 } ∧
      (∀ i, i ≠ k → t.jct i = s.jct i) ∧ t = { s.tick dt with jcts := t.jcts, out := t.out }
    (∀ f : Flit, s.jctState j = 3 → let x := s.jct j
      (flitGood f = false → ∃ t, exec (.flitReceived dt j f) s = .next t ∧ t.fld F.JCT_ERRCNT_CRC j = min (s.fld F.JCT_ERRCNT_CRC j + 1) 255 ∧
        s.keeps t [(.JCT_ERRCNT, j.val, 0)] ∧ t = { s.tick dt with regs := t.regs }) ∧
      (∀ b, flitGood f = true → f.pay = .bytes b → f.vc = 1 → f.kind = 1 → x.txq = [] →
        (f.seq = x.expect → ∃ t, exec (.flitReceived dt j f) s = .next t ∧ (t.jct j).expect = (x.expect + 1) % 4096 ∧
          (t.jct j).asm = x.asm ++ b ∧ (t.jct j).freed1 = x.freed1 + 1 ∧ (t.jct j).freed0 = x.freed0 ∧
          t.out = s.out ++ [.flit j 1 0 x.nextSeq (((x.expect + 1) % 4096 + 4095) % 4096) 1 ((x.freed1 + 1) % 256) none] ∧
          (∀ i : Nat, i ≠ j → t.jct i = s.jct i) ∧ t = { s.tick dt with jcts := t.jcts, out := t.out }) ∧
        (f.seq ≠ x.expect → ∃ t, exec (.flitReceived dt j f) s = .next t ∧ (t.jct j).expect = x.expect ∧ (t.jct j).asm = x.asm ∧
          t.out = s.out ∧ (∀ i : Nat, i ≠ j → t.jct i = s.jct i) ∧ t = { s.tick dt with jcts := t.jcts }))) ∧
    (s.jctActive j = true → (s.jct j).unacked ≠ [] → let x := s.jct j
      ∃ t, exec (.flitReplayTimeout dt j) s = .next t ∧ t.fld F.JCT_ERRCNT_REPLAYS j = min (s.fld F.JCT_ERRCNT_REPLAYS j + 1) 255 ∧
        t.out = s.out ++ x.unacked.map (fun q => .flit j q.2.vc (if q.2.last then 2 else 1) q.1 ((x.expect + 4095) % 4096) q.2.vc
          ((if q.2.vc = 0 then x.freed0 else x.freed1) % 256) (some q.2.pay)) ∧
        s.keeps t [(.JCT_ERRCNT, j.val, 0)] ∧ t = { s.tick dt with regs := t.regs, out := t.out }) ∧
    (active j → ∃ t, exec (.jctTimeSend dt j) s = .next t ∧ sent t j (.timeReq now)) ∧
    (∀ m : CtlMsg, s.jctActive j = true → m.dest ≠ s.fld F.JCT_SYS_DEVNUM →
      (∀ k, s.jctRoute m.dest = some k → active k → m.hops < 16 →
        ∃ t, exec (.jctControlMessage dt j m) s = .next t ∧ sent t k (.ctl { m with hops := m.hops + 1 })) ∧
      (s.jctRoute m.dest = none → exec (.jctControlMessage dt j m) s = .next { s.tick dt with ctlLost := s.ctlLost + 1 })) ∧
    (∃ t, exec (.positionSend dt) s = .next t ∧ t.odoSamp = ((now, (List.range 4).map fun u => (u, s.odoPos u)) :: s.odoSamp).take 64 ∧
      (s.fld F.JCT_SYS_DEVNUM ≠ s.fld F.JCT_SYNC_POSMASTER → t = { s.tick dt with odoSamp := t.odoSamp })) ∧
    (∀ (time : Nat) (u : Fin 4) (v : Int) (own : List (Nat × Int)) (o : Int),
      s.odoSamp.find? (fun q => q.1 == time) = some (time, own) → own.find? (fun q => q.1 == u.val) = some (u.val, o) → s.timeUnsync = false →
      let d := v - o
      let q := mapGet (0, 0) s.posDiff u
      let n := if d = q.1 ∧ 0 < q.2 then q.2 + 1 else 1
      let aligns := decide (3 ≤ n) && bitsOf (s.fld F.JCT_SYNC_ALIGNING) u 1 == 1
      ∃ t, exec (.positionMessage dt time false [(u, v)]) s = .next t ∧ t.fld F.JCT_ODO_DIFF_DIFF u = wrapTo 48 d ∧
        t.flag F.JCT_ODO_DIFF_STABLE u = decide (3 ≤ n) ∧ mapGet (0, 0) t.posDiff u = (d, n) ∧
        t.fld F.ODO_POS_POS u = (if aligns then wrapTo 64 (s.odoPos u + d) else s.fld F.ODO_POS_POS u) ∧
        bitsOf (t.fld F.JCT_SYNC_ALIGNING) u 1 = (if 3 ≤ n then 0 else bitsOf (s.fld F.JCT_SYNC_ALIGNING) u 1) ∧
        s.keeps t [(.JCT_ODO_DIFF, u.val, 0), (.ODO_POS, u.val, 0), (.JCT_SYNC, 0, 0)] ∧
        t = { s.tick dt with regs := t.regs, posDiff := t.posDiff, odos := t.odos }) ∧
    (∀ (r : Requester) (v : Word), s.access (regAddr .JCT_SYNC) 4 = .ok (hitOf .JCT_SYNC 0 0) →
      (∀ u < 4, bitsOf v.toNat u 1 = 1 → ∀ g < 16, s.fld F.ODO_TG_CFG_ODO g ≠ u) → ∃ t, exec (.jctAlignWrite dt r v) s = .next t ∧
        t.fld F.JCT_SYNC_POSMASTER = bitsOf v.toNat 16 8 ∧
        (∀ u < 4, bitsOf (t.fld F.JCT_SYNC_ALIGNING) u 1 = max (bitsOf v.toNat u 1) (bitsOf (s.fld F.JCT_SYNC_ALIGNING) u 1)) ∧
        s.keeps t [(.JCT_SYNC, 0, 0)] ∧ t = { s.tick dt with regs := t.regs }) ∧
    (∀ u : Fin 4, bitsOf (s.fld F.JCT_SYNC_ALIGNING) u 1 = 1 → ∃ t, exec (.alignTimeout dt u) s = .next t ∧
      (∀ k < 4, bitsOf (t.fld F.JCT_SYNC_ALIGNING) k 1 = if k = u.val then 0 else bitsOf (s.fld F.JCT_SYNC_ALIGNING) k 1) ∧
      s.keeps t [(.JCT_SYNC, 0, 0)] ∧ t = { s.tick dt with regs := t.regs, out := s.out ++ [.report (.note 11 u)] })

/-- Errors. A corrected error is counted; an uncorrectable one is counted, captured where no error is, logged and reported; it poisons its data
or, in a milestone of no engine, clears it (R410 to R415). A pseudo-channel fault retires its octet; a hold is released after 1 ms; a
disagreement of the AON copies is counted, logged and reported, and nothing stops. It rests on the model's choices in logs 5, 19, 59. -/
def Obligations.ErrorsAreCountedAndContained : Prop :=
  ∀ (dt : Nat) (s : State),
    let up (f : Fld) (i : Nat) : Nat := min (s.fld f i + 1) (2 ^ f.w - 1)
    let found (t : State) (cls loc : Nat) (scrub : Bool) : Prop :=
      t.fld F.RAS_ECC_CNT_UE cls = up F.RAS_ECC_CNT_UE cls ∧ t.fld F.RAS_ECC_CNT_CE cls = s.fld F.RAS_ECC_CNT_CE cls ∧ t.flag F.RAS_STAT_UE = true ∧
      (s.flag F.RAS_UE_LOG_VALID = false → t.flag F.RAS_UE_LOG_VALID = true ∧ t.fld F.RAS_UE_LOG_CLASS = cls ∧
        t.flag F.RAS_UE_LOG_SCRUB = scrub ∧ t.fld F.RAS_UE_ADDR_LOC = loc) ∧
      (s.flag F.RAS_UE_LOG_VALID = true → t.reg .RAS_UE_LOG = s.reg .RAS_UE_LOG ∧ t.reg .RAS_UE_ADDR = s.reg .RAS_UE_ADDR) ∧
      t.out = s.out ++ [.report (.note 13 cls)] ∧ s.logs t 2 0xE004 [loc % 2 ^ 32, loc / 2 ^ 32 % 2 ^ 32, cls, 0]
    let regs (cls : Nat) : List (Reg × Nat × Nat) := [(.RAS_ECC_CNT, cls, 0), (.RAS_STAT, 0, 0), (.RAS_UE_LOG, 0, 0), (.RAS_UE_ADDR, 0, 0)]
    (∀ (a : Fin 0x2000000) (scrub : Bool) (reg : Region) (dst : Option (Fin 12288)),
      (∃ t, exec (.scrubRead dt (.depot a) false scrub reg dst none) s = .next t ∧ t.fld F.RAS_ECC_CNT_CE 3 = up F.RAS_ECC_CNT_CE 3 ∧
        t.fld F.RAS_ECC_CNT_UE 3 = s.fld F.RAS_ECC_CNT_UE 3 ∧ s.keeps t [(.RAS_ECC_CNT, 3, 0)] ∧ t = { s.tick dt with regs := t.regs }) ∧
      (∃ t, exec (.scrubRead dt (.depot a) true scrub reg dst none) s = .next t ∧ found t 3 a scrub ∧
        (∀ g, mapGet false t.depotPoison g = (g == a.val / 16 || mapGet false s.depotPoison g)) ∧ s.keeps t (regs 3) ∧
        t = { s.tick dt with regs := t.regs, depotPoison := t.depotPoison, out := t.out, log := t.log, logNext := t.logNext, logLost := t.logLost })) ∧
    (∀ (m : Fin 16384) (scrub : Bool) (reg : Region) (dst : Option (Fin 12288)), s.fld F.MS_CFG_OWNER m ≠ 3 →
      ∃ t, exec (.scrubRead dt (.milestone m) true scrub reg dst none) s = .next t ∧ found t 7 (regAddr .MS_COUNT m) scrub ∧
        t.fld F.MS_COUNT_COUNT m = 0 ∧ t.fld F.MS_TARGET_TARGET m = 0 ∧ t.fld F.MS_CFG_STRIDE m = 0 ∧ t.flag F.MS_CFG_FIRED m = true ∧
        t.fld F.MS_CFG_OWNER m = s.fld F.MS_CFG_OWNER m ∧ s.keeps t (msRegs m ++ regs 7) ∧
        t = { s.tick dt with regs := t.regs, out := t.out, log := t.log, logNext := t.logNext, logLost := t.logLost }) ∧
    (∀ (k : Fin 4) (pc : Fin 32), s.svc = [] → ∃ t, exec (.hbmPseudoChannelFault dt k pc) s = .next t ∧
      (∀ q < 4, bitsOf (t.fld F.STR_OCTET_RETIRED k) q 1 = if q = pc.val / 8 then 1 else bitsOf (s.fld F.STR_OCTET_RETIRED k) q 1) ∧
      s.keeps t [(.STR_OCTET, k, 0), (.STR_CAP, k, 0), (.STR_RSV, k, 0), (.STR_OUT, k, 0)] ∧
      t = { s.tick dt with regs := t.regs, repair := t.repair, repairAt := t.repairAt }) ∧
    (∀ h : Fin 4, s.flag F.RAS_HOLD_EN h = true → s.flag F.RAS_HOLD_HOLDING h = true → ∃ t, exec (.rasHoldTimeout dt h) s = .next t ∧
      t.flag F.RAS_HOLD_EN h = false ∧ t.flag F.RAS_HOLD_HOLDING h = false ∧ t.flag F.RAS_HOLD_RELEASED h = true ∧
      t.fld F.RAS_HOLD_UNIT h = s.fld F.RAS_HOLD_UNIT h ∧ t.fld F.RAS_HOLD_ENTRY h = s.fld F.RAS_HOLD_ENTRY h ∧
      t.out = s.out ++ [.report (.note 15 h)] ∧ s.keeps t [(.RAS_HOLD, h.val, 0)] ∧ t = { s.tick dt with regs := t.regs, out := t.out }) ∧
    (∃ t, exec (.aonSelfCheckMismatch dt) s = .next t ∧ t.fld F.RAS_SELFCHK_AON_MIS = up F.RAS_SELFCHK_AON_MIS 0 ∧ t.flag F.RAS_STAT_SELF = true ∧
      s.logs t 2 0xE005 [0, up F.RAS_SELFCHK_AON_MIS 0, 0, 0] ∧ t.out = s.out ++ [.report (.note 16 0)] ∧
      s.keeps t [(.RAS_SELFCHK, 0, 0), (.RAS_STAT, 0, 0)] ∧
      t = { s.tick dt with regs := t.regs, out := t.out, log := t.log, logNext := t.logNext, logLost := t.logLost })

/-- Tests and substitutions (R424 to R429). A self-test of a unit leaves its result; one of a column with no failed row returns its tiles IDLE
and empty, and one with a row that fails another item retires that tile; a rotation test of a unit prepares the transaction that starts it.
A substitution copies the state of every tile to the tile that stands in for it, then changes ACTIVE. It rests on the model's choices in
logs 58, 132. -/
def Obligations.TestsAndSubstitutionsRun : Prop :=
  ∀ (dt : Nat) (s : State), s.svc = [] →
    (∀ (u : Fin 16) (fail : Bool) (res : List (Fin 32 × List (Fin 16 × Fin 1024) × List (Fin 16 × Fin 16) × Bool)), s.bist = some ⟨true, u⟩ →
      ∃ t, exec (.bistComplete dt res fail) s = .next t ∧ t.bist = none ∧ bitsOf (t.fld F.RAS_STAT_UNIT_FAIL) u 1 = (if fail then 1 else 0) ∧
        (∀ v < 16, v ≠ u → bitsOf (t.fld F.RAS_STAT_UNIT_FAIL) v 1 = bitsOf (s.fld F.RAS_STAT_UNIT_FAIL) v 1) ∧
        t.fld F.RAS_BIST_STAT_STATE = 2 ∧ t.flag F.RAS_BIST_STAT_PASS = !fail ∧ t.fld F.RAS_BIST_STAT_ROWS_MAPPED = 0 ∧
        t.fld F.RAS_BIST_FAIL_FAIL = (if fail then 1 else 0) ∧
        s.keeps t [(.RAS_STAT, 0, 0), (.RAS_BIST_FAIL, 0, 0), (.RAS_BIST_STAT, 0, 0), (.DEV_START, 0, 0)] ∧
        t = { s.tick dt with regs := t.regs, bist := none }) ∧
    (∀ (c : Fin 34) (bad : Option (Fin 32)), s.bist = some ⟨false, c⟩ → (∀ r < 32, s.tState (32 * c + r) = tTest) →
      ∃ t, exec (.bistComplete dt (match bad with
          | some r => [(r, [], [], true)]
          | none => []) false) s = .next t ∧ t.bist = none ∧ t.fld F.RAS_BIST_STAT_STATE = 2 ∧
        t.flag F.RAS_BIST_STAT_PASS = bad.isNone ∧ t.fld F.RAS_BIST_STAT_ROWS_MAPPED = 0 ∧
        (∀ r < 32, bitsOf (t.fld F.RAS_BIST_FAIL_FAIL) r 1 = if bad.map Fin.val = some r then 1 else 0) ∧
        (∀ r < 32, bad.map Fin.val = some r → t.tState (32 * c + r) = tRetired ∧ bitsOf (t.fld F.RAS_RETIRED_ROWS c) r 1 = 1) ∧
        (∀ r < 32, bad.map Fin.val ≠ some r → t.tState (32 * c + r) = tIdle ∧ t.tile (32 * c + r) = { tile0 with dll := (s.tile (32 * c + r)).dll }) ∧
        (∀ j, j / 32 ≠ c → t.tile j = s.tile j) ∧
        s.keeps t ([(.RAS_STAT, 0, 0), (.RAS_BIST_FAIL, 0, 0), (.RAS_BIST_STAT, 0, 0), (.DEV_START, 0, 0), (.RAS_RETIRED, c.val, 0)] ++
          (List.range 32).map fun r => (.TILE_STAT, 32 * c.val + r, 0)) ∧ s.sameMemory t) ∧
    (∀ (u x : Nat) (h : 34 + u < 50), s.fld F.DEV_START_STAGE = 8 → s.mcUp = true → s.freeTx = some x → s.fld F.WAY_STAT_OPEN < 64 →
      s.wayBad = false → 1 ≤ s.fld F.WAY_STAT_FREE → ∃ t, exec (.testRotationDue dt ⟨34 + u, h⟩) s = .next t ∧
        t.svc = [⟨none, 1, u, 2, 0, 0, 2, some x⟩] ∧ t.txState x = 2 ∧ (t.tx x).origin = 1 ∧ t.out = s.out ∧ s.sameMemory t) ∧
    (∀ k : Fin 2, let c := s.fld F.RAS_SUBST_COL k
      let l := s.laybyCol k
      c < 34 → l < 34 → c ≠ l →
      (s.flag F.RAS_SUBST_EN k = true → s.flag F.RAS_SUBST_ACTIVE k = false → s.colQuiet c = true → s.substCopied.testBit k = false →
        ∃ t, exec (.substSwitch dt k) s = .next t ∧ t.substCopied.testBit k = true ∧ t.flag F.RAS_SUBST_ACTIVE k = false ∧
          (∀ r < 32, let a := 32 * c + r
            let b := 32 * l + r
            s.tState b ≠ tRetired → (∀ w < 16384, t.readW b false w = s.readW a false w) ∧ (t.tile b).lb = (s.tile a).lb ∧
              (t.tile b).rings = (s.tile a).rings ∧ t.reg .TILE_RNG_SEED b = s.reg .TILE_RNG_SEED a) ∧
          (∀ j, j / 32 ≠ l → t.tile j = s.tile j) ∧ s.keeps t ((List.range 32).map fun r => (.TILE_RNG_SEED, 32 * l + r, 0)) ∧
          t = { s.tick dt with regs := t.regs, tiles := t.tiles, busNext := t.busNext, substCopied := t.substCopied }) ∧
      (s.substCopied.testBit k = true → ∃ t, exec (.substCopyComplete dt k) s = .next t ∧ t.fld F.RAS_SUBST_ACTIVE k = s.fld F.RAS_SUBST_EN k ∧
        t.flag F.RAS_SUBST_HOLDING k = false ∧ t.substCopied.testBit k = false ∧ s.keeps t [(.RAS_SUBST, k.val, 0), (.RAS_STAT, 0, 0)] ∧
        t = { s.tick dt with regs := t.regs, substCopied := t.substCopied, substTag := t.substTag, repair := t.repair, repairAt := t.repairAt }))

/-- The toll gate and the columns. A token comes, up to eight, and is spent on the heads of the queues, none while the HIGH head waits for more
(R452, R453); thermal step-down takes one point and its frequency, step-up one point for one token, and the end of TRIM reaches the point
(R449, R450); the ceiling halves every running column clock for a window, the cap is reported (R451); a column that is ready or has gone off
says so (R446, R447). -/
def Obligations.TollGateAndColumns : Prop :=
  ∀ (dt : Nat) (s : State),
    let cols : List (Reg × Nat × Nat) := (List.range 34).map fun c => (.PWR_COL, c, 0)
    let up (f : Fld) : Nat := min (s.fld f + 1) (2 ^ f.w - 1);
    let mhz (c op : Nat) : Nat := if s.flag F.PWR_COL_HALVED c then opMhz op / 2 else opMhz op;
    (let lv := min 8 (s.fld F.PWR_TOLL_LEVEL + 1);
      (s.tollHigh = [] → s.tollNorm = [] → ∃ t, exec (.tollRefill dt) s = .next t ∧ t.fld F.PWR_TOLL_LEVEL = lv ∧
        t.fld F.PWR_TOLL_QHIGH = 0 ∧ t.fld F.PWR_TOLL_QNORM = 0 ∧ s.keeps t ((.PWR_TOLL, 0, 0) :: cols) ∧ t = { s.tick dt with regs := t.regs }) ∧
      (∀ (q : TollFor) (qs : List TollFor), s.tollHigh = q :: qs → lv < tollCost q → ∃ t, exec (.tollRefill dt) s = .next t ∧
        t.fld F.PWR_TOLL_LEVEL = lv ∧ s.keeps t ((.PWR_TOLL, 0, 0) :: cols) ∧ t = { s.tick dt with regs := t.regs }) ∧
      (∀ (high : Bool) (d : Nat), d < 15 → (if high then s.tollHigh = [.dom d] ∧ s.tollNorm = [] else s.tollHigh = [] ∧ s.tollNorm = [.dom d]) →
        domCost d ≤ lv → ∃ t, exec (.tollRefill dt) s = .next t ∧ t.fld F.PWR_TOLL_LEVEL = lv - domCost d ∧ t.tollHigh = [] ∧ t.tollNorm = [] ∧
          t.fld F.PWR_DOM_STATE d = 3 ∧ s.keeps t ((.PWR_TOLL, 0, 0) :: (.PWR_DOM, d, 0) :: cols) ∧
          t = { s.tick dt with regs := t.regs, tollHigh := [], tollNorm := [] })) ∧
    (∀ c : Fin 34, let cur := s.fld F.PWR_COL_CUR_OP c
      let st := s.fld F.PWR_COL_STATE c
      let x := s.col c
      (st = 0 → 0 < cur → ∃ t, exec (.thermalStepDown dt c) s = .next t ∧ t.fld F.PWR_COL_STATE c = 2 ∧ t.flag F.PWR_COL_EMERG c = true ∧
        t.fld F.PWR_COL_CUR_OP c = cur ∧ t.fld F.CLK_COL_MHZ c = mhz c (cur - 1) ∧ t.flag F.PWR_THROT_THERM = true ∧
        t.col c = { x with trimTo := some (cur - 1) } ∧ s.keeps t [(.PWR_COL, c.val, 0), (.CLK_COL, c.val, 0), (.PWR_THROT, 0, 0)] ∧
        t = { s.tick dt with regs := t.regs, cols := t.cols }) ∧
      (st = 0 → s.flag F.PWR_COL_EMERG c = true → cur < s.fld F.PWR_COL_REQ_OP c → s.tollHigh = [] → s.tollNorm = [] → 0 < s.fld F.PWR_TOLL_LEVEL →
        ∃ t, exec (.thermalStepUp dt c) s = .next t ∧ t.fld F.PWR_TOLL_LEVEL = s.fld F.PWR_TOLL_LEVEL - 1 ∧ t.fld F.PWR_COL_STATE c = 2 ∧
          t.fld F.PWR_COL_CUR_OP c = cur ∧ t.flag F.PWR_COL_EMERG c = true ∧ t.col c = { x with trimTo := some (cur + 1) } ∧
          s.keeps t ((.PWR_TOLL, 0, 0) :: cols) ∧ t = { s.tick dt with regs := t.regs, cols := t.cols }) ∧
      (∀ op < 8, st = 2 → x.trimTo = some op → x.down = false → x.waitOp = false → ∃ t, exec (.trimComplete dt c) s = .next t ∧
        t.fld F.PWR_COL_STATE c = 0 ∧ t.fld F.PWR_COL_CUR_OP c = op ∧ t.fld F.CLK_COL_MHZ c = mhz c op ∧
        t.flag F.PWR_COL_EMERG c = (s.flag F.PWR_COL_EMERG c && decide (op ≠ s.fld F.PWR_COL_REQ_OP c)) ∧
        t.col c = { x with trimTo := none } ∧ s.keeps t [(.PWR_COL, c.val, 0), (.CLK_COL, c.val, 0)] ∧
        t = { s.tick dt with regs := t.regs, cols := t.cols }) ∧
      (∀ (h : 15 + c.val < 49), s.fld F.DEV_START_STAGE = 8 → x.starting = true → x.leaving = none → st = 1 → s.fld F.PWR_COL_REQ c = 0 →
        (∀ e ∈ s.cal, e.2.skip = false) → ∀ ref iref : Bool, ∃ t, exec (.domainReady dt ⟨15 + c.val, h⟩ ref iref) s = .next t ∧
          t.fld F.PWR_COL_STATE c = 0 ∧ t.fld F.PWR_COL_CUR_OP c = s.fld F.PWR_COL_REQ_OP c ∧
          t.fld F.CLK_COL_MHZ c = mhz c (s.fld F.PWR_COL_REQ_OP c) ∧ t.col c = { x with starting := false } ∧
          s.keeps t [(.PWR_COL, c.val, 0), (.CLK_COL, c.val, 0)] ∧ t = { s.tick dt with regs := t.regs, cols := t.cols }) ∧
      (∀ (h : 15 + c.val < 49), s.seq.entry = none → s.seq.abandon = false → x.leaving = some 3 →
        ∃ t, exec (.domainSwitchedOff dt ⟨15 + c.val, h⟩) s = .next t ∧ t.fld F.PWR_COL_STATE c = 3 ∧ t.flag F.CLK_COL_LOCK c = false ∧
          t.fld F.CLK_COL_MHZ c = 0 ∧ (∀ r < 32, t.tile (32 * c + r) = tile0 ∧ t.tState (32 * c + r) = tIdle) ∧ t.col c = col0 ∧
          (∀ j, j / 32 ≠ c → t.tile j = s.tile j) ∧
          (∀ g i j, regHas g i j → inColumn c (regAddr g i j) = false → (g, i, j) ∉ [(.PWR_COL, c.val, 0), (.CLK_COL, c.val, 0)] →
            t.reg g i j = s.reg g i j) ∧
          t = { s.tick dt with regs := t.regs, tiles := t.tiles, cols := t.cols })) ∧
    (∃ t, exec (.overcurrent dt) s = .next t ∧ t.fld F.PWR_THROT_HALVINGS = up F.PWR_THROT_HALVINGS ∧ t.flag F.PWR_THROT_OVERCUR = true ∧
      (∀ c < 34, t.flag F.PWR_COL_HALVED c = true ∧ (s.flag F.CLK_COL_LOCK c = true → t.fld F.CLK_COL_MHZ c = s.colFreq c / 2)) ∧
      s.keeps t ((.PWR_THROT, 0, 0) :: cols ++ (List.range 34).map fun c => (.CLK_COL, c, 0)) ∧ t = { s.tick dt with regs := t.regs }) ∧
    (∀ k < 34, s.flag F.PWR_COL_HALVED k = true →
      (∃ t, exec (.halvingEnd dt true) s = .next t ∧ t.fld F.PWR_THROT_HALVINGS = up F.PWR_THROT_HALVINGS ∧ s.keeps t [(.PWR_THROT, 0, 0)] ∧
        t = { s.tick dt with regs := t.regs }) ∧
      (∃ t, exec (.halvingEnd dt false) s = .next t ∧
        (∀ c < 34, t.flag F.PWR_COL_HALVED c = false ∧ (s.flag F.CLK_COL_LOCK c = true → t.fld F.CLK_COL_MHZ c = s.colFreq c)) ∧
        s.keeps t (cols ++ (List.range 34).map fun c => (.CLK_COL, c, 0)) ∧ t = { s.tick dt with regs := t.regs })) ∧
    (∃ t, exec (.currentAboveCap dt) s = .next t ∧ t.flag F.PWR_THROT_CAP = true ∧
      t.out = s.out ++ [.report (.note 1 (s.fld F.PWR_LIMIT_CAP_A))] ∧ s.keeps t [(.PWR_THROT, 0, 0)] ∧
      t = { s.tick dt with regs := t.regs, out := t.out })

/-- Entry, wakes and rails. Emergency entry on a thermal trip and an MC write of PWR_DSTATE start the way down (R443 to R445, R450); a wake
source is latched in D1 or D3, or while an entry or a wake runs (R455 to R457); a domain that is ready or off says so; rails good, out of
range and failed are tracked, a rail that fails in a wake ends it, and one that fails in D0 starts emergency entry (R459, R460). It rests on
the model's choices in logs 56, 143. -/
def Obligations.EntryWakesAndRails : Prop :=
  ∀ (dt : Nat) (s : State),
    let down (t : State) (tgt : Nat) : Prop := t.flag F.PWR_STAT_BUSY = true ∧ t.fld F.PWR_STAT_DSTATE = s.fld F.PWR_STAT_DSTATE ∧
      t.tollHigh = [] ∧ t.tollNorm = [] ∧ t.seq.entry = some tgt ∧ t.seq.wake = none ∧
      ∀ c < 34, s.fld F.PWR_COL_STATE c ≠ 3 → (t.col c).leaving = some 3;
    (s.fld F.PWR_STAT_DSTATE = 0 → s.seq.entry = none → s.domOn 1 = true → s.domOn 2 = true →
      (∃ t, exec (.thermalTrip dt) s = .next t ∧ down t 3 ∧ t.flag F.PWR_STAT_EMERG = true ∧ t.flag F.PWR_STAT_THERMTRIP = true ∧ t.thermtripN = false ∧
        t.seq.hold = s.aonNs + dt + 10000000000 ∧ s.logs t 0 0xE007 [8, 0, 0, 0] ∧ s.sameMemory t ∧
        s.keeps t ((.PWR_STAT, 0, 0) :: (.PWR_TOLL, 0, 0) :: (List.range 34).map fun c => (.PWR_COL, c, 0))) ∧
      (∀ v : Word, s.access (regAddr .PWR_DSTATE) 4 = .ok (hitOf .PWR_DSTATE 0 0) → bitsOf v.toNat 31 1 = 1 → v.toNat % 2 = 1 →
        (s.mayEnter = true → ∃ t, exec (.pwrDstateWrite dt .mc v) s = .next t ∧ down t (v.toNat % 4) ∧ t.out = s.out ∧ s.sameMemory t ∧
          s.keeps t ((.PWR_STAT, 0, 0) :: (.PWR_TOLL, 0, 0) :: (List.range 34).map fun c => (.PWR_COL, c, 0))) ∧
        (s.mayEnter = false → exec (.pwrDstateWrite dt .mc v) s = .next (((s.tick dt).aelReg .mc (regAddr .PWR_DSTATE) 9 0 v.toNat).tell (.note 8 0x050A))) ∧
        (∀ r : Requester, r ≠ .mc → exec (.pwrDstateWrite dt r v) s = .next ((s.tick dt).aelReg r (regAddr .PWR_DSTATE) 11 0 v.toNat)))) ∧
    (∀ (c : Instr) (code : Nat), (c, code) ∈ [(Instr.i3cAddressMatch dt (Fin.ofNat 128 (s.fld F.PWR_WAKE_CFG_ADDR)), 1), (.wakeNLow dt, 2),
        (.perstNRise dt, 3), (.aonTimerMatch dt, 4), (.mcWakeRequest dt, 5)] →
      (code = 1 → s.flag F.PWR_WAKE_CFG_I3C_EN = true) → (code = 2 → s.flag F.PWR_WAKE_CFG_WAKEPIN_EN = true) →
      (code = 3 → s.flag F.PWR_WAKE_CFG_PERST_EN = true) →
      (code = 4 → s.flag F.PWR_WAKE_CFG_TIMER_EN = true ∧ s.fld F.PWR_WAKE_TIME_TIME ≤ (s.aonNs + dt) / 1000) →
      (code = 5 → s.fld F.PWR_STAT_DSTATE = 1 ∨ s.seq.entry = some 1) →
      let d := s.fld F.PWR_STAT_DSTATE
      (s.seq.entry = none → s.seq.wake = none → d = 1 ∨ d = 3 → (s.tick dt).wakeOk = true → ∃ t, exec c s = .next t ∧
        t.fld F.PWR_WAKE_STAT_SOURCE = code ∧ t.fld F.PWR_WAKE_STAT_COUNT = min (s.fld F.PWR_WAKE_STAT_COUNT + 1) 65535 ∧
        t.flag F.PWR_STAT_BUSY = true ∧ t.fld F.PWR_STAT_DSTATE = d ∧ t.seq.wake = some d ∧ t.railsOffN = true ∧ t.thermtripN = true ∧
        t.out = s.out ∧ s.sameMemory t) ∧
      (∀ tgt, s.seq.entry = some tgt → ∃ t, exec c s = .next t ∧ t.seq.latched = some (match s.seq.latched with
          | some k => min k code
          | none => code) ∧ t.seq.entry = some tgt ∧ t = { s.tick dt with seq := t.seq }) ∧
      (∀ w, s.seq.entry = none → s.seq.wake = some w → ∃ t, exec c s = .next t ∧
        t.fld F.PWR_WAKE_STAT_SOURCE = min code (s.fld F.PWR_WAKE_STAT_SOURCE) ∧ s.keeps t [(.PWR_WAKE_STAT, 0, 0)] ∧ t = { s.tick dt with regs := t.regs })) ∧
    (s.domOn 3 = true → s.domOn 2 = true → exec (.pcieConfigRequest dt) s = .next { s.tick dt with pcieWakeN := true }) ∧
    (∀ (d : Fin 49) (ref iref : Bool), d.val ∈ [3, 5, 6, 7, 8, 9, 10, 11, 12, 13, 14] → s.fld F.PWR_DOM_STATE d = 3 → s.seq.off = [] →
      s.seq.entry = none → s.seq.abandon = false → s.seq.wake = none → ∃ t, exec (.domainReady dt d ref iref) s = .next t ∧
        t.fld F.PWR_DOM_STATE d = 1 ∧ (6 ≤ d.val → d.val ≤ 9 → bitsOf (t.fld F.CLK_STAT_LOCK) (d.val - 3) 1 = 1) ∧
        t.fld F.CLK_STAT_REF = s.fld F.CLK_STAT_REF ∧ s.keeps t [(.PWR_DOM, d, 0), (.CLK_STAT, 0, 0)] ∧ t = { s.tick dt with regs := t.regs }) ∧
    (∀ (d : Fin 49) (tgt : Nat), s.seq.entry = some tgt → tgt = 1 ∨ tgt = 3 → s.seq.latched = none → s.seq.hbmLost = false → d.val = 14 ∨ d.val = 1 →
      (d.val = 1 → tgt = 3) → s.fld F.PWR_DOM_STATE d ≠ 0 → (∀ k ∈ offAll, k ≠ d.val → s.offDone tgt k = true) →
      ∃ t, exec (.domainSwitchedOff dt d) s = .next t ∧ t.fld F.PWR_STAT_DSTATE = tgt ∧ t.flag F.PWR_STAT_BUSY = false ∧
        t.seq.entry = none ∧ t.fld F.PWR_DOM_STATE d = 0 ∧ t.railsOffN = (if tgt = 3 then false else s.railsOffN) ∧ t.out = s.out ∧ s.sameMemory t) ∧
    (∀ r : Fin 8, let bit (f : Fld) (t : State) (v : Nat) : Prop :=
        ∀ k < 8, bitsOf (t.fld f) k 1 = if k = r.val then v else bitsOf (s.fld f) k 1;
      (s.seq.rails = false → ∃ t, exec (.railGood dt r) s = .next t ∧ bit F.PWR_RAIL_GOOD t 1 ∧ t.fld F.PWR_RAIL_FAILED = s.fld F.PWR_RAIL_FAILED ∧
        t.seq.bad = s.seq.bad.map (fun b => if b.1 = r.val ∧ b.2.isNone then (b.1, some (s.aonNs + dt)) else b) ∧
        s.keeps t [(.PWR_RAIL, 0, 0)] ∧ t = { s.tick dt with regs := t.regs, seq := t.seq }) ∧
      (bitsOf (s.fld F.PWR_RAIL_GOOD) r 1 = 1 → ∃ t, exec (.railExcursion dt r) s = .next t ∧ bit F.PWR_RAIL_GOOD t 0 ∧
        t.fld F.PWR_RAIL_FAILED = s.fld F.PWR_RAIL_FAILED ∧ s.logs t 0 0xE001 [r, s.fld F.PWR_STAT_DSTATE, s.seqStep, 0] ∧
        s.keeps t [(.PWR_RAIL, 0, 0)] ∧
        t = { s.tick dt with regs := t.regs, seq := t.seq, log := t.log, logNext := t.logNext, logLost := t.logLost }) ∧
      (s.seq.entry = none → s.seq.wake = none → s.fld F.PWR_STAT_DSTATE = 0 →
        (r.val = 7 → ∃ t, exec (.railFailure dt r) s = .next t ∧ bit F.PWR_RAIL_GOOD t 0 ∧ bit F.PWR_RAIL_FAILED t 1 ∧
          s.logs t 0 0xE001 [7, 0, 0, 0] ∧ t.out = s.out ++ [.report (.note 2 7)] ∧ t.seq.entry = none ∧ t.flag F.PWR_STAT_EMERG = s.flag F.PWR_STAT_EMERG) ∧
        (r.val = 4 → s.domOn 1 = true → s.domOn 2 = true → ∃ t, exec (.railFailure dt r) s = .next t ∧ bit F.PWR_RAIL_GOOD t 0 ∧
          bit F.PWR_RAIL_FAILED t 1 ∧ down t 1 ∧ t.flag F.PWR_STAT_EMERG = true ∧ (∀ d, 6 ≤ d → d ≤ 9 → t.fld F.PWR_DOM_STATE d = 0) ∧
          (∀ a < 0x1800000000, t.hbmByte a = 0) ∧ (∀ a, t.depByte a = s.depByte a)) ∧
        (r.val = 5 → ∃ t, exec (.railFailure dt r) s = .next t ∧ t.regs = State.reset.regs ∧ t.log = [] ∧ t.way = [] ∧ t.mirror = s.mirror ∧
          t.pending = s.pending ∧ t.fuseBox = s.fuseBox))) ∧
    (∀ w, s.seq.rails = true → s.seq.wake = some w →
      (∀ r < 7, bitsOf (s.fld F.PWR_RAIL_GOOD) r 1 = 0 → s.seq.on = [] → (∀ d < 15, s.fld F.PWR_DOM_STATE d ≠ 3) →
        (∀ c < 34, s.fld F.PWR_COL_STATE c = 3 ∧ (s.col c).starting = false) →
        ∃ t, exec (.wakeRailTimeout dt) s = .next t ∧ t.flag F.PWR_STAT_WAKE_FAIL = true ∧ t.flag F.PWR_STAT_BUSY = false ∧
          t.fld F.PWR_STAT_DSTATE = (if w = 1 then 1 else 3) ∧ t.seq.wake = none ∧ t.railsOffN = decide (w = 1) ∧ t.tollHigh = [] ∧ s.sameMemory t) ∧
      ((∀ r < 7, bitsOf (s.fld F.PWR_RAIL_GOOD) r 1 = 1) → ∃ t, exec (.wakeRailTimeout dt) s = .next t ∧ t.seq.rails = false ∧ t.seq.wake = some w ∧
        t.flag F.PWR_STAT_WAKE_FAIL = s.flag F.PWR_STAT_WAKE_FAIL ∧ t.out = s.out ∧ s.sameMemory t))

/-- Clocks (R463, R464). A loss of REFCLK is recorded and counted, and holdover lasts 10 ms; a glitch is counted; REFCLK that returns in time
relocks, and later after RETURN_MS. The MC alone writes CLK_MC, and SEL = 1 takes a locked MC PLL. -/
def Obligations.ClocksFollowTheMonitor : Prop :=
  ∀ (dt : Nat) (s : State),
    let ref := s.fld F.CLK_STAT_REF
    let only (t : State) (l : List (Reg × Nat × Nat)) : Prop := s.keeps t l ∧ t = { s.tick dt with regs := t.regs }
    (ref = 0 → ∃ t, exec (.refclkLoss dt) s = .next t ∧ t.fld F.CLK_STAT_REF = 1 ∧ t.flag F.CLK_STAT_REF_LOST = true ∧
      t.fld F.CLK_REF_CNT_LOSSES = min (s.fld F.CLK_REF_CNT_LOSSES + 1) 65535 ∧ t.fld F.CLK_STAT_LOCK = s.fld F.CLK_STAT_LOCK ∧
      only t [(.CLK_STAT, 0, 0), (.CLK_REF_CNT, 0, 0)]) ∧
    (∃ t, exec (.refclkGlitch dt) s = .next t ∧ t.fld F.CLK_REF_CNT_GLITCHES = min (s.fld F.CLK_REF_CNT_GLITCHES + 1) 65535 ∧
      t.fld F.CLK_REF_CNT_LOSSES = s.fld F.CLK_REF_CNT_LOSSES ∧ only t [(.CLK_REF_CNT, 0, 0)]) ∧
    (ref = 1 → ∃ t, exec (.refclkHoldoverTimeout dt) s = .next t ∧ t.fld F.CLK_STAT_REF = 2 ∧
      t.flag F.CLK_STAT_REF_LOST = s.flag F.CLK_STAT_REF_LOST ∧ only t [(.CLK_STAT, 0, 0)]) ∧
    ((∀ e ∈ s.cal, e.2.skip = false) →
      (ref = 1 → ∃ t, exec (.refclkRelock dt) s = .next t ∧ t.fld F.CLK_STAT_REF = 0 ∧
        t.flag F.CLK_STAT_RETURNED = s.flag F.CLK_STAT_RETURNED ∧ only t [(.CLK_STAT, 0, 0)]) ∧
      (ref = 2 → ∃ t, exec (.refclkReturn dt) s = .next t ∧ t.fld F.CLK_STAT_REF = 0 ∧ t.flag F.CLK_STAT_RETURNED = true ∧
        only t [(.CLK_STAT, 0, 0)])) ∧
    (∀ (r : Requester) (v : Word), s.access (regAddr .CLK_MC) 4 = .ok (hitOf .CLK_MC 0 0) →
      (r = .mc → (v.toNat % 2 = 1 → bitsOf (s.fld F.CLK_STAT_LOCK) 2 1 = 1) → ∃ t, exec (.clkMcWrite dt r v) s = .next t ∧
        t.fld F.CLK_MC_SEL = v.toNat % 2 ∧ only t [(.CLK_MC, 0, 0)]) ∧
      (r = .mc → v.toNat % 2 = 1 → bitsOf (s.fld F.CLK_STAT_LOCK) 2 1 = 0 →
        exec (.clkMcWrite dt r v) s = .next ((s.tick dt).aelReg r (regAddr .CLK_MC) 9 0 v.toNat)) ∧
      (r ≠ .mc → exec (.clkMcWrite dt r v) s = .next ((s.tick dt).aelReg r (regAddr .CLK_MC) 11 0 v.toNat)))

/-- The management controller (R481 to R488, R496, R501, R512). A fault of the ACTIVE pair makes the STANDBY pair ACTIVE, at the second fault
within 24 h the faulty pair is RETIRED, and a pair that passes its restoration is STANDBY; a bank digest that differs is reported; board
sense shows millivolts and milliamperes; the log is mirrored; a floor is committed; a debug scope ends; the slew probe sets REFILL_US. It
rests on the model's choices in logs 49, 52, 121, 125. -/
def Obligations.ManagementControllerKeepsRunning : Prop :=
  ∀ (dt : Nat) (s : State),
    let now := (s.now + dt) % 2 ^ 64
    let st (t : State) (p : Fin 2) : Nat := t.fld (if p = 0 then F.MC_STAT_P0_STATE else F.MC_STAT_P1_STATE)
    (∀ (p : Fin 2) (cause : Fin 4), let q := 1 - p
      let failed : Nat := match mapGet none s.pairFault p with
        | some f => if now < f + 86400000000000 then 3 else 2
        | none => 2;
      s.domOn 1 = true → s.csmQuiet = true → s.switch = none → s.mcRun = [] → (∀ x < 64, s.txState x ≠ 2) → s.fld F.DEV_START_STAGE ≠ 2 →
      (s.fld F.MC_STAT_ACTIVE = p → st s p = 0 → st s q = 1 → ∃ t, exec (.pairFault dt p cause) s = .next t ∧
        t.fld F.MC_STAT_ACTIVE = q ∧ st t q = 0 ∧ st t p = failed ∧ t.flag F.MC_STAT_SWITCHING = false ∧
        t.fld F.MC_STAT_FAILOVERS = min (s.fld F.MC_STAT_FAILOVERS + 1) 65535 ∧ s.logs t 0 0xE002 [p, cause.val + 1, 0, 0] ∧ t.out = s.out ∧
        s.keeps t [(.MC_STAT, 0, 0)] ∧ s.sameMemory t) ∧
      (s.fld F.MC_STAT_ACTIVE = q → st s p = 1 → ∃ t, exec (.pairFault dt p cause) s = .next t ∧ t.fld F.MC_STAT_ACTIVE = q ∧
        st t q = st s q ∧ st t p = failed ∧ s.logs t 0 0xE002 [p, cause.val + 1, 0, 0] ∧ t.out = s.out ∧ s.keeps t [(.MC_STAT, 0, 0)] ∧ s.sameMemory t)) ∧
    (∀ p : Fin 2, s.domOn 1 = true → st s p = 2 → s.switch = none →
      (∃ t, exec (.pairRestore dt p 0) s = .next t ∧ st t p = 1 ∧ st t (1 - p) = st s (1 - p) ∧ t.flag F.DEV_START_PAIR1_DOWN = false ∧
        s.keeps t [(.MC_STAT, 0, 0), (.DEV_START, 0, 0)] ∧ t = { s.tick dt with regs := t.regs, pairTry := t.pairTry }) ∧
      (∃ t, exec (.pairRestore dt p 1) s = .next t ∧ st t p = 3 ∧ t.flag F.DEV_START_PAIR1_DOWN = true ∧
        s.keeps t [(.MC_STAT, 0, 0), (.DEV_START, 0, 0)] ∧ t = { s.tick dt with regs := t.regs })) ∧
    (∀ p : Fin 2, s.fld F.MC_STAT_ACTIVE = p → st s (1 - p) = 1 →
      exec (.standbyCheck dt false) s = .next ((s.tick dt).tell (.note 5 (1 - p : Fin 2))) ∧ exec (.standbyCheck dt true) s = .next (s.tick dt)) ∧
    (∀ (n : Fin 8) (raw : Nat), let mv := (max 0 (min 1200 ((raw : Int) + s.calApplied (calKey 5 (1137 + n))))).toNat
      let ma := mv * s.pol (0x20 + n) / 1000
      let lim := s.pol (0x28 + n)
      let k := mapGet 0 s.bsOver n + 1
      let shows (t : State) : Prop := t.flag F.MC_BSENSE_VALID n = true ∧ t.fld F.MC_BSENSE_MV n = mv ∧ t.fld F.MC_BSENSE_MA n = min ma 65535 ∧
        t.out = s.out ∧ s.keeps t [(.MC_BSENSE, n.val, 0)];
      (lim = 0 ∨ ma ≤ lim → ∃ t, exec (.bsenseAverage dt n raw) s = .next t ∧ shows t ∧ t.flag F.MC_BSENSE_OVER n = s.flag F.MC_BSENSE_OVER n ∧
        mapGet 0 t.bsOver n = 0 ∧ t = { s.tick dt with regs := t.regs, bsOver := t.bsOver }) ∧
      (lim ≠ 0 → lim < ma → k = 10 → ∃ t, exec (.bsenseAverage dt n raw) s = .next t ∧ shows t ∧ t.flag F.MC_BSENSE_OVER n = true ∧
        mapGet 0 t.bsOver n = 10 ∧ s.logs t 1 0xE006 [n, ma, 0, 0]) ∧
      (lim ≠ 0 → lim < ma → k ≠ 10 → ∃ t, exec (.bsenseAverage dt n raw) s = .next t ∧ shows t ∧
        t.flag F.MC_BSENSE_OVER n = s.flag F.MC_BSENSE_OVER n ∧ mapGet 0 t.bsOver n = k)) ∧
    (s.mcUp = true → s.logLost = 0 → let new := s.log.filter fun e => !e.mirrored
      s.mirror.length + new.length ≤ 262144 → ∃ t, exec (.logMirror dt) s = .next t ∧
        t.mirror = s.mirror ++ new.map (fun e => { e with mirrored := true }) ∧ t.log = s.log.map (fun e => { e with mirrored := true }) ∧
        t = { s.tick dt with log := t.log, mirror := t.mirror }) ∧
    (s.running.commitFloor = true → s.runFrom + 86400000000000 ≤ now → ∃ t, exec (.fwFloorCommit dt) s = .next t ∧
      t.fuses.fwFloor = max s.fuses.fwFloor s.running.svn ∧ t.fuseBox.fwFloor = max s.fuseBox.fwFloor s.running.svn ∧
      t = { s.tick dt with fuses := t.fuses, fuseBox := t.fuseBox }) ∧
    (s.fld F.SEC_STAT_DBG_SCOPE ≠ 0 → s.dbgFrom + s.fld F.SEC_STAT_DBG_MIN_LEFT * 60000000000 ≤ now → ∃ t,
      exec (.debugScopeExpire dt) s = .next t ∧ t.fld F.SEC_STAT_DBG_SCOPE = 0 ∧ t.fld F.SEC_STAT_DBG_MIN_LEFT = 0 ∧
      s.keeps t [(.SEC_STAT, 0, 0)] ∧ t = { s.tick dt with regs := t.regs }) ∧
    (s.boot.restored = true → s.boot.d3 = false → s.boot.slew = none → ∀ trec : Option (Fin 1001),
      let v := match trec with
        | some r => max 10 ((5 * r.val + 15) / 16)
        | none => 1000;
      ∃ t, exec (.slewProbeEnd dt trec) s = .next t ∧ t.boot.slew = some v ∧ t.flag F.DEV_BOOT_SLEW_VALID = trec.isSome ∧
        (∀ r, trec = some r → t.fld F.DEV_BOOT_SLEW_T_REC_US = r) ∧ (s.pol 0x0A ≤ 1000 → v ≤ t.fld F.PWR_TOLL_REFILL_US) ∧
        (s.pol 0x0A ≤ v → t.fld F.PWR_TOLL_REFILL_US = v) ∧ t.out = s.out ∧ s.sameMemory t)

/-- Start-up (R494, R505, R508, R509, R514). Power-up and SYS_RESET_N leave the reset values and begin the wake of source 0; the boot ROM starts
the first slot that verifies, or recovery mode; a trained stack is zeroed and ready, and its third failed training retires an octet. It
rests on the model's choices in logs 117, 118, 119, 120, 122, 123. -/
def Obligations.StartUpRuns : Prop :=
  ∀ (dt : Nat) (s : State),
    let begun (t : State) (unread good : Nat) : Prop := t.fuses = fusesRead s.fuseBox unread ∧ t.fld F.DEV_FUSE_UNREAD = unread ∧
      t.fld F.PWR_WAKE_CFG_ADDR = t.fuses.wakeAddr % 128 ∧ t.fld F.PWR_WAKE_STAT_SOURCE = 0 ∧ t.flag F.PWR_STAT_BUSY = true ∧
      t.fld F.PWR_RAIL_GOOD = good ∧ t.fld F.DEV_START_STAGE = (if good = 255 then 2 else 1) ∧ t.seq.wake = some 0 ∧ t.out = s.out;
    let starts : List Reg := [.DEV_FUSE, .DEV_LAYBY, .NET_MAC, .PLB_MAC, .PWR_LIMIT, .SEC_STAT, .PWR_WAKE_CFG, .PWR_WAKE_STAT, .PWR_STAT,
      .PWR_RAIL, .DEV_START, .PWR_TOLL, .PWR_COL, .PWR_DOM];
    (∀ u : Fin 1024, s.fld F.DEV_START_STAGE = 0 → s.fld F.PWR_STAT_DSTATE = 0 → s.flag F.PWR_STAT_BUSY = false →
      ∃ t, exec (.aonPowerUp dt u) s = .next t ∧ begun t u (s.fld F.PWR_RAIL_GOOD ||| 0x60) ∧ t.aonNs = 0 ∧ s.sameMemory t ∧
        ∀ r i j, regHas r i j → r ∉ starts → t.reg r i j = s.reg r i j) ∧
    (∀ u : Fin 1024, ∃ t, exec (.sysReset dt u) s = .next t ∧ begun t u (s.fld F.PWR_RAIL_GOOD) ∧
      t.pending = s.pending ∧ t.aonNs = s.aonNs + dt ∧ t.log = s.log ∧ t.logNext = s.logNext ∧ t.mirror = s.mirror ∧ t.way = [] ∧
      (∀ r i j, regHas r i j → r ∉ starts → t.reg r i j = State.reset.reg r i j)) ∧
    (s.fld F.DEV_START_STAGE = 2 → s.domOn 1 = true → s.csmQuiet = true → (∀ e ∈ s.repair, e.kind = 2 → e.a < 1088) → ∀ cal rep pol key iref : Bool,
      let a := s.activeSlot % 2
      let runs (t : State) (k : Nat) (im : Image) : Prop := t.running = im ∧ t.fld F.MC_STAT_SLOT = k ∧ t.flag F.MC_STAT_RECOVERY = false ∧
        t.fld F.DEV_START_STAGE = 5 ∧ t.fld F.CLK_MC_SEL = 1 ∧ t.boot.restored = true ∧ (cal = false → t.flag F.DEV_START_CAL_FUSE = true) ∧
        (rep = false → t.flag F.DEV_START_REPAIR_LOST = true ∧ t.repair = []) ∧
        (pol = false → t.flag F.DEV_START_POLICY_DEFAULT = true ∧ t.policy = []) ∧
        (key = false → t.flag F.DEV_START_KEYS_LOST = true ∧ t.keys = []) ∧ (iref = true → t.out = s.out) ∧ s.sameMemory t;
      let boots : Instr := .bootRomVerifyComplete dt cal rep pol key iref;
      (∀ im, s.slotCheck a = .ok im → ∃ t, exec boots s = .next t ∧ runs t a im ∧ t.log = s.log) ∧
      (∀ im c, s.slotCheck a = .error c → s.slotCheck (1 - a) = .ok im → ∃ t, exec boots s = .next t ∧ runs t (1 - a) im ∧
        s.logs t (Config.logSrc c % 64) c [a, 0, 0, 0]) ∧
      (∀ c d, s.slotCheck a = .error c → s.slotCheck (1 - a) = .error d → ∃ t, exec boots s = .next t ∧ t.fld F.DEV_START_STAGE = 3 ∧
        t.flag F.MC_STAT_RECOVERY = true ∧ t.fld F.MC_STAT_SLOT = s.fld F.MC_STAT_SLOT ∧ t.running = s.running ∧ t.out = s.out ∧ s.sameMemory t)) ∧
    (∀ k : Fin 4, s.fld F.DEV_START_STAGE = 5 ∨ s.fld F.DEV_START_STAGE = 6 → s.domOn (6 + k) = true → s.boot.restored = true → k.val ∉ s.boot.ready →
      s.hbmCalDone k = true →
      (∃ t, exec (.hbmTrainingComplete dt k none) s = .next t ∧ t.boot.ready = s.boot.ready ++ [k.val] ∧
        (s.fld F.DEV_START_STAGE = 5 → t.fld F.DEV_START_STAGE = 5) ∧
        (∀ a, a / stackBytes ≠ k ∨ bitsOf (s.fld F.STR_OCTET_RETIRED k) (a % stackBytes / pageBytes % 4) 1 = 1 → t.hbmByte a = s.hbmByte a) ∧
        (∀ a, a / stackBytes = k → bitsOf (s.fld F.STR_OCTET_RETIRED k) (a % stackBytes / pageBytes % 4) 1 = 0 →
          t.hbmByte a = 0 ∧ t.hbmMark a = false) ∧ ∀ a, t.depByte a = s.depByte a) ∧
      (∀ pc : Fin 32, let n := mapGet 0 s.boot.fails (32 * k.val + pc.val) + 1;
        (n < 3 → ∃ t, exec (.hbmTrainingComplete dt k (some pc)) s = .next t ∧ mapGet 0 t.boot.fails (32 * k.val + pc.val) = n ∧
          t.boot.ready = s.boot.ready ∧ t = { s.tick dt with boot := t.boot }) ∧
        (3 ≤ n → s.svc = [] → ∃ t, exec (.hbmTrainingComplete dt k (some pc)) s = .next t ∧ t.flag F.DEV_START_HBM_DEGRADED = true ∧
          bitsOf (t.fld F.STR_OCTET_RETIRED k) (pc.val / 8) 1 = 1 ∧ s.sameMemory t)))

/-- PCIe (R354, R506). PERST_N in D0 disables every queue and egress ring and discards what waits for one; a request without a completion ends
the DMA chain with ERR 3, sets FETCH_ERR of the queue, or answers the command 0x0307. It rests on the model's choice in log 116. -/
def Obligations.PcieLossIsReported : Prop :=
  ∀ (dt : Nat) (s : State),
    (s.fld F.PWR_STAT_DSTATE = 0 → ∃ t, exec (.perstAssert dt) s = .next t ∧
      (∀ q < 64, t.flag F.CMD_Q_CFG_EN q = false ∧
        (s.fld F.CMD_Q_STAT_OUTST q = 0 → t.queue q = s.queue q ∧ t.reg .CMD_Q_STAT q = s.reg .CMD_Q_STAT q) ∧
        (s.fld F.CMD_Q_STAT_OUTST q ≠ 0 → t.queue q = { s.queue q with held := [], dead := true } ∧
          t.fld F.CMD_Q_STAT_OUTST q = s.fld F.CMD_Q_STAT_OUTST q - ((s.queue q).held.filter fun r => r.final).length)) ∧
      (∀ r < 16, t.flag F.CMD_EGR_STAT_EN r = false ∧ (t.eRing r).unreported = false) ∧
      s.keeps t ((List.range 64).flatMap (fun q => [(.CMD_Q_CFG, q, 0), (.CMD_Q_STAT, q, 0)]) ++ (List.range 16).map fun r => (.CMD_EGR_STAT, r, 0)) ∧
      t = { s.tick dt with regs := t.regs, queues := t.queues, rings := t.rings }) ∧
    (∀ c : Fin 64, s.dmaSt c = 1 ∨ s.dmaSt c = 2 → ∃ t, exec (.pcieCompletionTimeout dt (.dma c)) s = .next t ∧ t.dmaSt c = 4 ∧
      t.fld F.DMA_STAT_ERR c = 3 ∧ (∀ j : Nat, j ≠ c → t.chan j = s.chan j) ∧ s.keeps t [(.DMA_STAT, c.val, 0)] ∧
      t = { s.tick dt with regs := t.regs, dma := t.dma }) ∧
    (∀ q : Fin 64, s.fetchMay q ≠ 0 → exec (.pcieCompletionTimeout dt (.fetch q)) s = .next ((s.tick dt).setFld F.CMD_Q_STAT_FETCH_ERR 1 q)) ∧
    (∀ (h : CmdHdr) (p : List Word), h.opcode = 0x0502 → s.takes (.pwrPolicy dt h p .error) = true →
      exec (.pcieCompletionTimeout dt (.buffer h p)) s = .next ((s.taken dt h p).reply h 0x0307 []))
end

