-- ==== Sys2Proof/Laws/AddrMap.lean ====
section
/-! SUPPORT. The BAR0 address map is unambiguous: the address of every register of the table is found as that register, and no
two registers overlap. -/
namespace Sys2Proof.Machine

/-- Which second index and which word an offset within one first-index step of a row is. -/
def RegRow.inner (r : RegRow) (o : Nat) : Option (Nat × Bool) :=
  let j := if r.s2 = 0 then 0 else o / r.s2
  let o2 := if r.s2 = 0 then o else o % r.s2
  if j < r.n2 then
    if o2 = 0 then some (j, false) else if r.width = 64 ∧ o2 = 4 then some (j, true) else none
  else none

theorem RegRow.at?_eq (r : RegRow) (a : Nat) : r.at? a =
    if a < r.base then none else
    if (if r.s1 = 0 then 0 else (a - r.base) / r.s1) < r.n1 then
      (r.inner (if r.s1 = 0 then a - r.base else (a - r.base) % r.s1)).map fun x =>
        (if r.s1 = 0 then 0 else (a - r.base) / r.s1, x)
    else none := by
  unfold RegRow.at? RegRow.inner
  simp only
  split
  · rfl
  · split <;> split <;> split <;> simp_all <;> (repeat' split) <;> simp_all

/-- The first address above a row. -/
def RegRow.top (r : RegRow) : Nat :=
  r.base + if r.s1 = 0 then (if r.s2 = 0 then (if r.width = 64 then 5 else 1) else r.n2 * r.s2) else r.n1 * r.s1

/-- A row holds no address above it. -/
theorem RegRow.at?_top (r : RegRow) (a : Nat) (h : r.top ≤ a) : r.at? a = none := by
  rw [RegRow.at?_eq]
  split
  · rfl
  · rename_i hb
    unfold RegRow.top at h
    by_cases h1 : r.s1 = 0
    · simp only [h1, if_true] at h ⊢
      have : r.inner (a - r.base) = none := by
        unfold RegRow.inner
        by_cases h2 : r.s2 = 0
        · simp only [h2, if_true] at h ⊢
          split
          · by_cases h3 : r.width = 64
            · simp only [h3, if_true] at h
              rw [if_neg (by omega), if_neg (by omega)]
            · simp only [h3, if_false] at h
              rw [if_neg (by omega), if_neg (by simp [h3])]
          · rfl
        · simp only [h2, if_false] at h ⊢
          rw [if_neg]
          have : r.n2 ≤ (a - r.base) / r.s2 := (Nat.le_div_iff_mul_le (by omega)).2 (by omega)
          omega
      simp [this]
    · simp only [h1, if_false] at h ⊢
      rw [if_neg]
      have : r.n1 ≤ (a - r.base) / r.s1 := (Nat.le_div_iff_mul_le (by omega)).2 (by omega)
      omega

/-- An address a whole number of first-index steps above a row's base plus `c`: only `c` decides where it falls in a step. -/
theorem RegRow.at?_step (r : RegRow) (k c : Nat) (hc : c < r.s1) :
    r.at? (r.base + k * r.s1 + c) = if k < r.n1 then (r.inner c).map fun x => (k, x) else none := by
  have h0 : r.s1 ≠ 0 := by omega
  have e1 : r.base + k * r.s1 + c - r.base = c + k * r.s1 := by omega
  have e2 : (c + k * r.s1) / r.s1 = k := by
    rw [Nat.add_mul_div_right _ _ (by omega), Nat.div_eq_of_lt hc, Nat.zero_add]
  have e3 : (c + k * r.s1) % r.s1 = c := by rw [Nat.add_mul_mod_self_right, Nat.mod_eq_of_lt hc]
  rw [RegRow.at?_eq, if_neg (by omega), e1]
  simp only [h0, if_false, e2, e3]

/-- Do the words of `r` (at the offsets `os` of an instance) fall in no word of `q`: a check on numbers. -/
def RegRow.apart (r q : RegRow) (os : List Nat) : Bool :=
  Nat.blt (r.base + (r.n1 - 1) * r.s1 + (r.n2 - 1) * r.s2 + os.foldl max 0) q.base || Nat.ble q.top r.base ||
  (decide (r.s1 = q.s1) && (List.range r.n2).all fun j => os.all fun o =>
    let x := r.base + j * r.s2 + o
    if q.base ≤ x then decide (x - q.base < q.s1) && (q.inner (x - q.base)).isNone
    else decide (q.base - x < q.s1) && (q.inner (q.s1 - (q.base - x))).isNone)

theorem RegRow.at?_apart (r q : RegRow) (os : List Nat) (h : r.apart q os = true) (i j o : Nat) (hi : i < r.n1) (hj : j < r.n2)
    (ho : o ∈ os) (h4 : o ≤ os.foldl max 0) : q.at? (r.base + i * r.s1 + j * r.s2 + o) = none := by
  unfold RegRow.apart at h
  simp only [Bool.or_eq_true, decide_eq_true_eq, Bool.and_eq_true, Nat.blt_eq, Nat.ble_eq] at h
  obtain (h | h) | ⟨h1, h2⟩ := h
  · have a1 : i * r.s1 ≤ (r.n1 - 1) * r.s1 := Nat.mul_le_mul_right _ (by omega)
    have a2 : j * r.s2 ≤ (r.n2 - 1) * r.s2 := Nat.mul_le_mul_right _ (by omega)
    rw [RegRow.at?_eq, if_pos (by omega)]
  · exact q.at?_top _ (by omega)
  · have h3 := List.all_eq_true.1 (List.all_eq_true.1 h2 j (by simpa using hj)) o ho
    split at h3
    · simp only [Bool.and_eq_true, decide_eq_true_eq, Option.isNone_iff_eq_none] at h3
      have e : r.base + i * r.s1 + j * r.s2 + o = q.base + i * q.s1 + (r.base + j * r.s2 + o - q.base) := by
        rw [← h1]; omega
      rw [e, q.at?_step _ _ h3.1, h3.2]
      simp
    · simp only [Bool.and_eq_true, decide_eq_true_eq, Option.isNone_iff_eq_none] at h3
      cases i with
      | zero => rw [RegRow.at?_eq, if_pos (by omega)]
      | succ i =>
        have e : r.base + (i + 1) * r.s1 + j * r.s2 + o = q.base + i * q.s1 + (q.s1 - (q.base - (r.base + j * r.s2 + o))) := by
          rw [← h1, Nat.succ_mul]
          omega
        rw [e, q.at?_step _ _ (by omega), h3.2]
        simp

/-- The offsets of a register's words. -/
def RegRow.words (r : RegRow) : List Nat := if r.width = 64 then [0, 4] else [0]

/-- A row without its fields. -/
def RegRow.bare (r : RegRow) : RegRow := { r with fields := [] }

def bareRows0 : List RegRow := [⟨0x0, 1, 0x0, 1, 0x0, 32, []⟩, ⟨0x8, 1, 0x0, 1, 0x0, 32, []⟩, ⟨0x4, 1, 0x0, 1, 0x0, 32,
  []⟩, ⟨0x24, 1, 0x0, 1, 0x0, 32, []⟩, ⟨0x10, 1, 0x0, 1, 0x0, 32, []⟩, ⟨0x14, 1, 0x0, 1, 0x0, 32, []⟩, ⟨0x18, 2, 0x4, 1,
  0x0, 32, []⟩, ⟨0x20, 1, 0x0, 1, 0x0, 32, []⟩, ⟨0x200000, 16, 0x40, 1, 0x0, 32, []⟩, ⟨0x200004, 16, 0x40, 1, 0x0, 32,
  []⟩, ⟨0x200014, 16, 0x40, 1, 0x0, 32, []⟩, ⟨0x200800, 64, 0x4, 1, 0x0, 32, []⟩, ⟨0x200900, 1, 0x0, 1, 0x0, 32, []⟩,
  ⟨0x400000, 4, 0x40, 1, 0x0, 32, []⟩, ⟨0x400008, 4, 0x40, 1, 0x0, 64, []⟩, ⟨0x400010, 4, 0x40, 1, 0x0, 32, []⟩,
  ⟨0x400014, 4, 0x40, 1, 0x0, 32, []⟩, ⟨0x400400, 16, 0x10, 1, 0x0, 32, []⟩, ⟨0x400404, 16, 0x10, 1, 0x0, 32, []⟩,
  ⟨0x400408, 16, 0x10, 1, 0x0, 32, []⟩, ⟨0x40040C, 16, 0x10, 1, 0x0, 32, []⟩, ⟨0x400800, 1, 0x0, 1, 0x0, 32, []⟩,
  ⟨0x20000C, 16, 0x40, 1, 0x0, 32, []⟩, ⟨0x200010, 16, 0x40, 1, 0x0, 32, []⟩]
def bareRows1 : List RegRow := [⟨0x300000, 16, 0x10000, 1, 0x0, 32, []⟩, ⟨0x300004, 16, 0x10000, 1, 0x0, 32, []⟩,
  ⟨0x300008, 16, 0x10000, 1, 0x0, 32, []⟩, ⟨0x30000C, 16, 0x10000, 1, 0x0, 32, []⟩, ⟨0x300010, 16, 0x10000, 1, 0x0, 32,
  []⟩, ⟨0x300014, 16, 0x10000, 1, 0x0, 32, []⟩, ⟨0x300018, 16, 0x10000, 2, 0x4, 32, []⟩, ⟨0x300020, 16, 0x10000, 8, 0x4,
  32, []⟩, ⟨0x300040, 16, 0x10000, 2, 0x4, 32, []⟩, ⟨0x300048, 16, 0x10000, 1, 0x0, 32, []⟩, ⟨0x300050, 16, 0x10000, 4,
  0x4, 32, []⟩, ⟨0x300080, 16, 0x10000, 1, 0x0, 32, []⟩, ⟨0x300084, 16, 0x10000, 1, 0x0, 32, []⟩, ⟨0x300088, 16,
  0x10000, 1, 0x0, 32, []⟩, ⟨0x300090, 16, 0x10000, 1, 0x0, 32, []⟩, ⟨0x300094, 16, 0x10000, 1, 0x0, 32, []⟩,
  ⟨0x1000000, 1088, 0x1000, 1, 0x0, 32, []⟩, ⟨0x1000004, 1088, 0x1000, 1, 0x0, 32, []⟩, ⟨0x1000008, 1088, 0x1000, 1,
  0x0, 32, []⟩, ⟨0x100000C, 1088, 0x1000, 1, 0x0, 32, []⟩, ⟨0x1000010, 1088, 0x1000, 1, 0x0, 32, []⟩, ⟨0x1000014, 1088,
  0x1000, 1, 0x0, 32, []⟩, ⟨0x1000018, 1088, 0x1000, 1, 0x0, 32, []⟩, ⟨0x1000020, 1088, 0x1000, 1, 0x0, 64, []⟩]
def bareRows2 : List RegRow := [⟨0x1000028, 1088, 0x1000, 1, 0x0, 64, []⟩, ⟨0x1000030, 1088, 0x1000, 1, 0x0, 64, []⟩,
  ⟨0x1000038, 1088, 0x1000, 1, 0x0, 64, []⟩, ⟨0x1000040, 1088, 0x1000, 1, 0x0, 32, []⟩, ⟨0x1000044, 1088, 0x1000, 1,
  0x0, 32, []⟩, ⟨0x1000100, 1088, 0x1000, 1, 0x0, 32, []⟩, ⟨0x1000104, 1088, 0x1000, 1, 0x0, 32, []⟩, ⟨0x1000400, 1088,
  0x1000, 256, 0x4, 32, []⟩, ⟨0x10000C0, 1088, 0x1000, 1, 0x0, 64, []⟩, ⟨0x10000C8, 1088, 0x1000, 1, 0x0, 64, []⟩,
  ⟨0x10000D0, 1088, 0x1000, 1, 0x0, 64, []⟩, ⟨0x10000D8, 1088, 0x1000, 1, 0x0, 64, []⟩, ⟨0x210000, 16, 0x400, 64, 0x10,
  32, []⟩, ⟨0x210004, 16, 0x400, 64, 0x10, 32, []⟩, ⟨0x210008, 16, 0x400, 64, 0x10, 32, []⟩, ⟨0x220000, 16, 0x4, 1, 0x0,
  32, []⟩, ⟨0x900000, 1, 0x0, 1, 0x0, 32, []⟩, ⟨0x900004, 1, 0x0, 1, 0x0, 32, []⟩, ⟨0x900008, 1, 0x0, 1, 0x0, 32, []⟩,
  ⟨0x900040, 4, 0x10, 1, 0x0, 32, []⟩, ⟨0x900044, 4, 0x10, 1, 0x0, 32, []⟩, ⟨0x900048, 4, 0x10, 1, 0x0, 32, []⟩,
  ⟨0x90004C, 4, 0x10, 1, 0x0, 32, []⟩, ⟨0x900100, 1, 0x0, 1, 0x0, 64, []⟩]
def bareRows3 : List RegRow := [⟨0x900108, 1, 0x0, 1, 0x0, 32, []⟩, ⟨0x900200, 1, 0x0, 1, 0x0, 32, []⟩, ⟨0x900204, 1,
  0x0, 1, 0x0, 32, []⟩, ⟨0x910000, 4, 0x10000, 256, 0x20, 64, []⟩, ⟨0x910008, 4, 0x10000, 256, 0x20, 32, []⟩, ⟨0x91000C,
  4, 0x10000, 256, 0x20, 32, []⟩, ⟨0x910010, 4, 0x10000, 256, 0x20, 32, []⟩, ⟨0x910014, 4, 0x10000, 256, 0x20, 32, []⟩,
  ⟨0x910018, 4, 0x10000, 256, 0x20, 32, []⟩, ⟨0x91001C, 4, 0x10000, 256, 0x20, 32, []⟩, ⟨0xA00000, 1, 0x0, 1, 0x0, 32,
  []⟩, ⟨0xA00004, 1, 0x0, 1, 0x0, 32, []⟩, ⟨0xA00008, 1, 0x0, 1, 0x0, 32, []⟩, ⟨0xA0000C, 1, 0x0, 1, 0x0, 32, []⟩,
  ⟨0xA00020, 1, 0x0, 1, 0x0, 64, []⟩, ⟨0xA00100, 64, 0x20, 1, 0x0, 64, []⟩, ⟨0xA00108, 64, 0x20, 1, 0x0, 64, []⟩,
  ⟨0xA00110, 64, 0x20, 1, 0x0, 64, []⟩, ⟨0xA00118, 64, 0x20, 1, 0x0, 32, []⟩, ⟨0xA0011C, 64, 0x20, 1, 0x0, 32, []⟩,
  ⟨0xA01000, 16, 0x20, 4, 0x8, 64, []⟩, ⟨0x700000, 1, 0x0, 1, 0x0, 32, []⟩, ⟨0x740000, 16384, 0x10, 1, 0x0, 32, []⟩,
  ⟨0x740004, 16384, 0x10, 1, 0x0, 32, []⟩]
def bareRows4 : List RegRow := [⟨0x740008, 16384, 0x10, 1, 0x0, 32, []⟩, ⟨0x74000C, 16384, 0x10, 1, 0x0, 32, []⟩,
  ⟨0x800000, 1, 0x0, 1, 0x0, 32, []⟩, ⟨0x800004, 1, 0x0, 1, 0x0, 32, []⟩, ⟨0x800008, 1, 0x0, 1, 0x0, 32, []⟩, ⟨0x80000C,
  1, 0x0, 1, 0x0, 32, []⟩, ⟨0x800100, 64, 0x10, 1, 0x0, 32, []⟩, ⟨0x800104, 64, 0x10, 1, 0x0, 32, []⟩, ⟨0x800108, 64,
  0x10, 1, 0x0, 64, []⟩, ⟨0x800600, 1, 0x0, 1, 0x0, 32, []⟩, ⟨0x800608, 1, 0x0, 1, 0x0, 64, []⟩, ⟨0x800610, 1, 0x0, 1,
  0x0, 32, []⟩, ⟨0x600000, 64, 0x100, 1, 0x0, 64, []⟩, ⟨0x600008, 64, 0x100, 1, 0x0, 64, []⟩, ⟨0x600010, 64, 0x100, 1,
  0x0, 32, []⟩, ⟨0x60001C, 64, 0x100, 1, 0x0, 32, []⟩, ⟨0x600014, 64, 0x100, 1, 0x0, 32, []⟩, ⟨0x600018, 64, 0x100, 1,
  0x0, 32, []⟩, ⟨0x600020, 64, 0x100, 1, 0x0, 32, []⟩, ⟨0x600024, 64, 0x100, 1, 0x0, 32, []⟩, ⟨0x600028, 64, 0x100, 1,
  0x0, 32, []⟩, ⟨0x600030, 64, 0x100, 1, 0x0, 64, []⟩, ⟨0x608000, 256, 0x4, 1, 0x0, 32, []⟩, ⟨0x609000, 16, 0x4, 1, 0x0,
  32, []⟩]
def bareRows5 : List RegRow := [⟨0x500000, 1, 0x0, 1, 0x0, 32, []⟩, ⟨0x500008, 1, 0x0, 1, 0x0, 64, []⟩, ⟨0x500010, 1,
  0x0, 1, 0x0, 32, []⟩, ⟨0x500100, 16, 0x8, 1, 0x0, 64, []⟩, ⟨0x100000, 1, 0x0, 1, 0x0, 32, []⟩, ⟨0x100004, 1, 0x0, 1,
  0x0, 32, []⟩, ⟨0x101000, 64, 0x40, 1, 0x0, 64, []⟩, ⟨0x101008, 64, 0x40, 1, 0x0, 64, []⟩, ⟨0x101010, 64, 0x40, 1, 0x0,
  32, []⟩, ⟨0x101014, 64, 0x40, 1, 0x0, 32, []⟩, ⟨0x101018, 64, 0x40, 1, 0x0, 32, []⟩, ⟨0x10101C, 64, 0x40, 1, 0x0, 32,
  []⟩, ⟨0x103000, 16, 0x40, 1, 0x0, 64, []⟩, ⟨0x103008, 16, 0x40, 1, 0x0, 64, []⟩, ⟨0x103010, 16, 0x40, 1, 0x0, 64, []⟩,
  ⟨0x103018, 16, 0x40, 1, 0x0, 32, []⟩, ⟨0xF00000, 4, 0x100, 1, 0x0, 32, []⟩, ⟨0xF00004, 4, 0x100, 1, 0x0, 32, []⟩,
  ⟨0xF00008, 4, 0x100, 1, 0x0, 32, []⟩, ⟨0xF00010, 4, 0x100, 1, 0x0, 64, []⟩, ⟨0xF00018, 4, 0x100, 1, 0x0, 32, []⟩,
  ⟨0xF0001C, 4, 0x100, 1, 0x0, 32, []⟩, ⟨0xF00800, 1, 0x0, 1, 0x0, 32, []⟩, ⟨0xF00804, 1, 0x0, 1, 0x0, 32, []⟩]
def bareRows6 : List RegRow := [⟨0xF00808, 1, 0x0, 1, 0x0, 32, []⟩, ⟨0xF00900, 1, 0x0, 1, 0x0, 32, []⟩, ⟨0xF01400, 16,
  0x10, 1, 0x0, 32, []⟩, ⟨0xF01404, 16, 0x10, 1, 0x0, 32, []⟩, ⟨0xF01408, 16, 0x10, 1, 0x0, 64, []⟩, ⟨0xF01000, 16,
  0x20, 1, 0x0, 64, []⟩, ⟨0xF01008, 16, 0x20, 1, 0x0, 32, []⟩, ⟨0xF0100C, 16, 0x20, 1, 0x0, 32, []⟩, ⟨0xF01010, 16,
  0x20, 1, 0x0, 32, []⟩, ⟨0xF40000, 2, 0x100, 1, 0x0, 32, []⟩, ⟨0xF40004, 2, 0x100, 1, 0x0, 32, []⟩, ⟨0xF40008, 2,
  0x100, 1, 0x0, 64, []⟩, ⟨0xF40010, 2, 0x100, 1, 0x0, 32, []⟩, ⟨0xF40014, 2, 0x100, 1, 0x0, 32, []⟩, ⟨0xF40800, 1, 0x0,
  1, 0x0, 64, []⟩, ⟨0xF80000, 1, 0x0, 1, 0x0, 32, []⟩, ⟨0xF80004, 1, 0x0, 1, 0x0, 32, []⟩, ⟨0xF80008, 4, 0x8, 1, 0x0,
  64, []⟩, ⟨0xF80100, 4, 0x40, 1, 0x0, 32, []⟩, ⟨0xF80104, 4, 0x40, 1, 0x0, 32, []⟩, ⟨0xF80108, 4, 0x40, 1, 0x0, 32,
  []⟩, ⟨0xF8010C, 4, 0x40, 1, 0x0, 32, []⟩, ⟨0xF81000, 256, 0x4, 1, 0x0, 32, []⟩, ⟨0xE00000, 1, 0x0, 1, 0x0, 32, []⟩]
def bareRows7 : List RegRow := [⟨0xE00004, 1, 0x0, 1, 0x0, 32, []⟩, ⟨0xE00008, 1, 0x0, 1, 0x0, 32, []⟩, ⟨0xE0000C, 1,
  0x0, 1, 0x0, 32, []⟩, ⟨0xE00010, 8, 0x4, 1, 0x0, 32, []⟩, ⟨0xE00040, 1, 0x0, 1, 0x0, 64, []⟩, ⟨0xE00048, 1, 0x0, 1,
  0x0, 64, []⟩, ⟨0xE00050, 1, 0x0, 1, 0x0, 32, []⟩, ⟨0xE00100, 1, 0x0, 1, 0x0, 32, []⟩, ⟨0xE00104, 1, 0x0, 1, 0x0, 32,
  []⟩, ⟨0xE00108, 1, 0x0, 1, 0x0, 32, []⟩, ⟨0xE00110, 2, 0x4, 1, 0x0, 32, []⟩, ⟨0xE00120, 1, 0x0, 1, 0x0, 64, []⟩,
  ⟨0xE00130, 4, 0x4, 1, 0x0, 32, []⟩, ⟨0xE00200, 34, 0x4, 1, 0x0, 32, []⟩, ⟨0xE00300, 64, 0x4, 1, 0x0, 32, []⟩,
  ⟨0xB00000, 1, 0x0, 1, 0x0, 32, []⟩, ⟨0xB00004, 1, 0x0, 1, 0x0, 32, []⟩, ⟨0xB00008, 1, 0x0, 1, 0x0, 32, []⟩, ⟨0xB0000C,
  1, 0x0, 1, 0x0, 32, []⟩, ⟨0xB00010, 1, 0x0, 1, 0x0, 64, []⟩, ⟨0xB00018, 1, 0x0, 1, 0x0, 64, []⟩, ⟨0xB00020, 1, 0x0, 1,
  0x0, 32, []⟩, ⟨0xB00024, 1, 0x0, 1, 0x0, 32, []⟩, ⟨0xB00028, 1, 0x0, 1, 0x0, 32, []⟩]
def bareRows8 : List RegRow := [⟨0xB0002C, 1, 0x0, 1, 0x0, 32, []⟩, ⟨0xB00100, 34, 0x4, 1, 0x0, 32, []⟩, ⟨0xB00200, 15,
  0x4, 1, 0x0, 32, []⟩, ⟨0xC00000, 1, 0x0, 1, 0x0, 32, []⟩, ⟨0xC00004, 1, 0x0, 1, 0x0, 32, []⟩, ⟨0xC00008, 1, 0x0, 1,
  0x0, 32, []⟩, ⟨0xC0000C, 1, 0x0, 1, 0x0, 32, []⟩, ⟨0xC00100, 34, 0x4, 1, 0x0, 32, []⟩, ⟨0xD00000, 1, 0x0, 1, 0x0, 32,
  []⟩, ⟨0xD00004, 1, 0x0, 1, 0x0, 32, []⟩, ⟨0xD00008, 1, 0x0, 1, 0x0, 32, []⟩, ⟨0xD0000C, 1, 0x0, 1, 0x0, 32, []⟩,
  ⟨0xD00010, 1, 0x0, 1, 0x0, 64, []⟩, ⟨0xD00018, 1, 0x0, 1, 0x0, 32, []⟩, ⟨0xD00100, 9, 0x20, 1, 0x0, 32, []⟩,
  ⟨0xD00104, 9, 0x20, 1, 0x0, 32, []⟩, ⟨0xD00108, 9, 0x20, 1, 0x0, 32, []⟩, ⟨0xD0010C, 9, 0x20, 1, 0x0, 32, []⟩,
  ⟨0xD00110, 9, 0x20, 1, 0x0, 32, []⟩, ⟨0xD00114, 9, 0x20, 1, 0x0, 32, []⟩, ⟨0xD00040, 1, 0x0, 1, 0x0, 32, []⟩,
  ⟨0xD00044, 1, 0x0, 1, 0x0, 32, []⟩, ⟨0x2000000, 1, 0x0, 1, 0x0, 32, []⟩, ⟨0x2000004, 1, 0x0, 1, 0x0, 32, []⟩]
def bareRows9 : List RegRow := [⟨0x2000008, 1, 0x0, 1, 0x0, 32, []⟩, ⟨0x2000020, 8, 0x4, 1, 0x0, 32, []⟩, ⟨0x2001000, 1,
  0x0, 1, 0x0, 32, []⟩, ⟨0x2001004, 1, 0x0, 1, 0x0, 32, []⟩, ⟨0x2001008, 1, 0x0, 1, 0x0, 64, []⟩, ⟨0x2001040, 24, 0x4,
  1, 0x0, 32, []⟩, ⟨0x100, 1, 0x0, 1, 0x0, 32, []⟩, ⟨0x104, 1, 0x0, 1, 0x0, 32, []⟩, ⟨0x108, 1, 0x0, 1, 0x0, 32, []⟩,
  ⟨0xE01000, 64, 0x10, 1, 0x0, 32, []⟩, ⟨0xE01004, 64, 0x10, 1, 0x0, 32, []⟩, ⟨0xE01008, 64, 0x10, 1, 0x0, 32, []⟩,
  ⟨0xE0100C, 64, 0x10, 1, 0x0, 32, []⟩, ⟨0x200008, 16, 0x40, 1, 0x0, 32, []⟩, ⟨0x400808, 1, 0x0, 1, 0x0, 64, []⟩,
  ⟨0x300100, 16, 0x10000, 36, 0x8, 64, []⟩]
def bareRows : List RegRow := bareRows0 ++ bareRows1 ++ bareRows2 ++ bareRows3 ++ bareRows4 ++ bareRows5 ++ bareRows6 ++ bareRows7 ++ bareRows8 ++ bareRows9

/-- No row of a list falls in an earlier one, word by word. -/
def mapClean : List RegRow → List RegRow → Bool
  | _, [] => true
  | seen, r :: rs => (seen.all fun q => r.apart q r.words) && mapClean (r :: seen) rs

/-- Every row finds its own words. -/
def RegRow.self (r : RegRow) : Bool :=
  (decide (r.s1 = 0) && decide (r.n1 = 1) || decide ((r.n2 - 1) * r.s2 + 4 < r.s1) || decide (r.s1 = 4 ∧ r.n2 = 1 ∧ r.width = 32)) &&
  (decide (r.s2 = 0) && decide (r.n2 = 1) || decide (4 < r.s2) || decide (r.s2 = 4 ∧ r.width = 32)) && decide (0 < r.n1) && decide (0 < r.n2)

theorem bare_rows : regList.map (fun r => (regRow r).bare) = bareRows := by rfl

theorem map_clean : mapClean [] (regList.map fun r => (regRow r).bare) = true := by
  rw [bare_rows]
  decide +kernel

theorem map_self : (regList.all fun r => (regRow r).self) = true := by decide +kernel

theorem reg_order : regList.map Reg.ctorIdx = List.range 232 := by decide +kernel

theorem reg_ofNat (r : Reg) : Reg.ofNat r.ctorIdx = r := by cases r <;> rfl

theorem reg_idx (r : Reg) : r.ctorIdx < 232 := by cases r <;> exact Nat.le_of_ble_eq_true rfl

theorem map_complete (r : Reg) : r ∈ regList := by
  have h : r.ctorIdx ∈ regList.map Reg.ctorIdx := by rw [reg_order]; exact List.mem_range.2 (reg_idx r)
  obtain ⟨x, hx, e⟩ := List.mem_map.1 h
  rw [← reg_ofNat r, ← e, reg_ofNat]
  exact hx

/-- A row finds its own words. -/
theorem RegRow.at?_self (r : RegRow) (h : r.self = true) (i j : Nat) (hi : i < r.n1) (hj : j < r.n2) :
    r.at? (r.base + i * r.s1 + j * r.s2) = some (i, j, false) ∧
    (r.width = 64 → r.at? (r.base + i * r.s1 + j * r.s2 + 4) = some (i, j, true)) := by
  unfold RegRow.self at h
  simp only [Bool.and_eq_true, Bool.or_eq_true, decide_eq_true_eq] at h
  obtain ⟨⟨⟨h1, h2⟩, hn1⟩, hn2⟩ := h
  have inn : ∀ o, (o = 0 ∨ r.width = 64 ∧ o = 4) →
      r.inner (j * r.s2 + o) = some (j, decide (o = 4)) := by
    intro o ho
    unfold RegRow.inner
    obtain (⟨a, b⟩ | h2) | h2 := h2
    · have : j = 0 := by omega
      subst this
      obtain rfl | ⟨w, rfl⟩ := ho <;> simp_all
    · have a : r.s2 ≠ 0 := by omega
      have c : o < r.s2 := by omega
      have e1 : (j * r.s2 + o) / r.s2 = j := by
        rw [Nat.add_comm, Nat.add_mul_div_right _ _ (by omega), Nat.div_eq_of_lt c, Nat.zero_add]
      have e2 : (j * r.s2 + o) % r.s2 = o := by rw [Nat.add_comm, Nat.add_mul_mod_self_right, Nat.mod_eq_of_lt c]
      simp only [a, if_false, e1, e2, hj, if_true]
      obtain rfl | ⟨w, rfl⟩ := ho <;> simp_all
    · obtain rfl | ⟨w, rfl⟩ := ho
      · simp only [h2.1, Nat.add_zero]
        simp [hj]
      · omega
  have at_ : ∀ o, (o = 0 ∨ r.width = 64 ∧ o = 4) → r.at? (r.base + i * r.s1 + j * r.s2 + o) = some (i, j, decide (o = 4)) := by
    intro o ho
    have hj' : j * r.s2 ≤ (r.n2 - 1) * r.s2 := Nat.mul_le_mul_right _ (by omega)
    by_cases z : r.s1 = 0
    · have : r.n1 = 1 ∨ r.s1 ≠ 0 := by omega
      have hi0 : i = 0 := by omega
      subst hi0
      rw [RegRow.at?_eq, if_neg (by omega)]
      have e : r.base + 0 * r.s1 + j * r.s2 + o - r.base = j * r.s2 + o := by omega
      simp only [z, if_true, hi, Nat.mul_zero, Nat.add_zero]
      rw [show r.base + j * r.s2 + o - r.base = j * r.s2 + o by omega, inn o ho]
      rfl
    · have c : j * r.s2 + o < r.s1 := by
        obtain (h1 | h1) | h1 := h1
        · omega
        · omega
        · have : j = 0 := by omega
          subst this
          omega
      rw [show r.base + i * r.s1 + j * r.s2 + o = r.base + i * r.s1 + (j * r.s2 + o) by omega, r.at?_step i _ c, if_pos hi,
        inn o ho]
      rfl
  exact ⟨by simpa using at_ 0 (.inl rfl), fun w => by simpa using at_ 4 (.inr ⟨w, rfl⟩)⟩

theorem findRegIn_skip (a : Nat) (r : Reg) (pre post : List Reg) (h : ∀ q ∈ pre, (regRow q).at? a = none) :
    findRegIn a (pre ++ r :: post) = findRegIn a (r :: post) := by
  induction pre with
  | nil => rfl
  | cons q qs ih =>
    simp only [List.cons_append, findRegIn, h q (by simp)]
    exact ih fun x hx => h x (by simp [hx])

theorem mapClean_split (pre : List RegRow) (r : RegRow) (post seen : List RegRow)
    (h : mapClean seen (pre ++ r :: post) = true) : ∀ q ∈ pre, r.apart q r.words = true := by
  induction pre generalizing seen with
  | nil => simp
  | cons p ps ih =>
    intro q hq
    simp only [List.cons_append, mapClean, Bool.and_eq_true] at h
    rcases List.mem_cons.1 hq with rfl | hq
    · have : ∀ (l sn : List RegRow), q ∈ sn → mapClean sn (l ++ r :: post) = true → r.apart q r.words = true := by
        intro l
        induction l with
        | nil =>
          intro sn hm hc
          simp only [List.nil_append, mapClean, Bool.and_eq_true] at hc
          exact List.all_eq_true.1 hc.1 q hm
        | cons x xs ih2 =>
          intro sn hm hc
          simp only [List.cons_append, mapClean, Bool.and_eq_true] at hc
          exact ih2 (x :: sn) (by simp [hm]) hc.2
      exact this ps (q :: seen) (by simp) h.2
    · exact ih _ h.2 q hq

/-- The address of a register is found as that register, the address of a 64-bit register's high word as its high word (R11,
R540). -/
theorem findReg_words (r : Reg) (i j : Nat) (hi : i < (regRow r).n1) (hj : j < (regRow r).n2) :
    findReg (regAddr r i j) = some ⟨r, i, j, false⟩ ∧
    ((regRow r).width = 64 → findReg (regAddr r i j + 4) = some ⟨r, i, j, true⟩) := by
  obtain ⟨pre, post, e⟩ := List.append_of_mem (map_complete r)
  have hs := RegRow.at?_self _ (List.all_eq_true.1 map_self r (map_complete r)) i j hi hj
  have hc : ∀ q ∈ pre, (regRow r).apart (regRow q) (regRow r).words = true := fun q hq =>
    mapClean_split (pre.map fun r => (regRow r).bare) (regRow r).bare (post.map fun r => (regRow r).bare) []
      (by simpa only [e, List.map_append, List.map_cons] using map_clean) (regRow q).bare (List.mem_map_of_mem hq)
  constructor
  · have : ∀ q ∈ pre, (regRow q).at? (regAddr r i j) = none := by
      intro q hq
      exact RegRow.at?_apart _ _ _ (hc q hq) i j 0 hi hj (by unfold RegRow.words; split <;> simp) (by omega)
    rw [findReg, e, findRegIn_skip _ _ _ _ this, findRegIn, regAddr, hs.1]
  · intro w
    have : ∀ q ∈ pre, (regRow q).at? (regAddr r i j + 4) = none := by
      intro q hq
      exact RegRow.at?_apart _ _ _ (hc q hq) i j 4 hi hj (by simp [RegRow.words, w]) (by simp [RegRow.words, w])
    rw [findReg, e, findRegIn_skip _ _ _ _ this, findRegIn, regAddr, hs.2 w]

theorem findReg_regAddr (r : Reg) (i j : Nat) (hi : i < (regRow r).n1) (hj : j < (regRow r).n2) :
    findReg (regAddr r i j) = some ⟨r, i, j, false⟩ := (findReg_words r i j hi hj).1

/-- Two registers share no address. -/
theorem regAddr_inj {r r' : Reg} {i j i' j' : Nat} (hi : i < (regRow r).n1) (hj : j < (regRow r).n2)
    (hi' : i' < (regRow r').n1) (hj' : j' < (regRow r').n2) (h : regAddr r i j = regAddr r' i' j') :
    r = r' ∧ i = i' ∧ j = j' := by
  have a := findReg_regAddr r i j hi hj
  rw [h, findReg_regAddr r' i' j' hi' hj'] at a
  simp only [Option.some.injEq, RegHit.mk.injEq] at a
  exact ⟨a.1.symm, a.2.1.symm, a.2.2.1.symm⟩

theorem regAddr_ne {r r' : Reg} {i j i' j' : Nat} (h : r ≠ r') (hi : i < (regRow r).n1) (hj : j < (regRow r).n2)
    (hi' : i' < (regRow r').n1) (hj' : j' < (regRow r').n2) : regAddr r i j ≠ regAddr r' i' j' :=
  fun e => h (regAddr_inj hi hj hi' hj' e).1

end Sys2Proof.Machine
end

