-- ==== Sys2Proof/Laws/State.lean ====
section
/-! SUPPORT. One lemma per field and named update: what the update leaves. -/
namespace Sys2Proof.Machine

variable (s : State)

@[simp] theorem State.setReg_pending (r : Reg) (v i j : Nat) : (s.setReg r v i j).pending = s.pending := rfl
@[simp] theorem State.setReg_now (r : Reg) (v i j : Nat) : (s.setReg r v i j).now = s.now := rfl
@[simp] theorem State.setReg_aonNs (r : Reg) (v i j : Nat) : (s.setReg r v i j).aonNs = s.aonNs := rfl
@[simp] theorem State.setReg_freeCtr (r : Reg) (v i j : Nat) : (s.setReg r v i j).freeCtr = s.freeCtr := rfl
@[simp] theorem State.setReg_out (r : Reg) (v i j : Nat) : (s.setReg r v i j).out = s.out := rfl
@[simp] theorem State.setReg_latch (r : Reg) (v i j : Nat) : (s.setReg r v i j).latch = s.latch := rfl
@[simp] theorem State.setReg_stage (r : Reg) (v i j : Nat) : (s.setReg r v i j).stage = s.stage := rfl
@[simp] theorem State.setReg_log (r : Reg) (v i j : Nat) : (s.setReg r v i j).log = s.log := rfl
@[simp] theorem State.setReg_logNext (r : Reg) (v i j : Nat) : (s.setReg r v i j).logNext = s.logNext := rfl
@[simp] theorem State.setReg_logLost (r : Reg) (v i j : Nat) : (s.setReg r v i j).logLost = s.logLost := rfl
@[simp] theorem State.setReg_mirror (r : Reg) (v i j : Nat) : (s.setReg r v i j).mirror = s.mirror := rfl
@[simp] theorem State.setReg_twoByEight (r : Reg) (v i j : Nat) : (s.setReg r v i j).twoByEight = s.twoByEight := rfl
@[simp] theorem State.setReg_queues (r : Reg) (v i j : Nat) : (s.setReg r v i j).queues = s.queues := rfl
@[simp] theorem State.setReg_netFifo (r : Reg) (v i j : Nat) : (s.setReg r v i j).netFifo = s.netFifo := rfl
@[simp] theorem State.setReg_netOut (r : Reg) (v i j : Nat) : (s.setReg r v i j).netOut = s.netOut := rfl
@[simp] theorem State.setReg_mcFifo (r : Reg) (v i j : Nat) : (s.setReg r v i j).mcFifo = s.mcFifo := rfl
@[simp] theorem State.setReg_mcRun (r : Reg) (v i j : Nat) : (s.setReg r v i j).mcRun = s.mcRun := rfl
@[simp] theorem State.setReg_origins (r : Reg) (v i j : Nat) : (s.setReg r v i j).origins = s.origins := rfl
@[simp] theorem State.setReg_rings (r : Reg) (v i j : Nat) : (s.setReg r v i j).rings = s.rings := rfl
@[simp] theorem State.setReg_waiters (r : Reg) (v i j : Nat) : (s.setReg r v i j).waiters = s.waiters := rfl
@[simp] theorem State.setReg_pulses (r : Reg) (v i j : Nat) : (s.setReg r v i j).pulses = s.pulses := rfl
@[simp] theorem State.setReg_way (r : Reg) (v i j : Nat) : (s.setReg r v i j).way = s.way := rfl
@[simp] theorem State.setReg_txs (r : Reg) (v i j : Nat) : (s.setReg r v i j).txs = s.txs := rfl
@[simp] theorem State.setReg_ents (r : Reg) (v i j : Nat) : (s.setReg r v i j).ents = s.ents := rfl
@[simp] theorem State.setReg_orderNext (r : Reg) (v i j : Nat) : (s.setReg r v i j).orderNext = s.orderNext := rfl
@[simp] theorem State.setReg_coords (r : Reg) (v i j : Nat) : (s.setReg r v i j).coords = s.coords := rfl
@[simp] theorem State.setReg_depot (r : Reg) (v i j : Nat) : (s.setReg r v i j).depot = s.depot := rfl
@[simp] theorem State.setReg_depotPoison (r : Reg) (v i j : Nat) : (s.setReg r v i j).depotPoison = s.depotPoison := rfl
@[simp] theorem State.setReg_dma (r : Reg) (v i j : Nat) : (s.setReg r v i j).dma = s.dma := rfl
@[simp] theorem State.setReg_lanes (r : Reg) (v i j : Nat) : (s.setReg r v i j).lanes = s.lanes := rfl
@[simp] theorem State.setReg_tmrBase (r : Reg) (v i j : Nat) : (s.setReg r v i j).tmrBase = s.tmrBase := rfl
@[simp] theorem State.setReg_tiles (r : Reg) (v i j : Nat) : (s.setReg r v i j).tiles = s.tiles := rfl
@[simp] theorem State.setReg_busNext (r : Reg) (v i j : Nat) : (s.setReg r v i j).busNext = s.busNext := rfl
@[simp] theorem State.setReg_slots (r : Reg) (v i j : Nat) : (s.setReg r v i j).slots = s.slots := rfl
@[simp] theorem State.setReg_engines (r : Reg) (v i j : Nat) : (s.setReg r v i j).engines = s.engines := rfl
@[simp] theorem State.setReg_pmap (r : Reg) (v i j : Nat) : (s.setReg r v i j).pmap = s.pmap := rfl
@[simp] theorem State.setReg_hbm (r : Reg) (v i j : Nat) : (s.setReg r v i j).hbm = s.hbm := rfl
@[simp] theorem State.setReg_hbmPoison (r : Reg) (v i j : Nat) : (s.setReg r v i j).hbmPoison = s.hbmPoison := rfl
@[simp] theorem State.setReg_arrFly (r : Reg) (v i j : Nat) : (s.setReg r v i j).arrFly = s.arrFly := rfl
@[simp] theorem State.setReg_arrSent (r : Reg) (v i j : Nat) : (s.setReg r v i j).arrSent = s.arrSent := rfl
@[simp] theorem State.setReg_arrRecv (r : Reg) (v i j : Nat) : (s.setReg r v i j).arrRecv = s.arrRecv := rfl
@[simp] theorem State.setReg_arrMs (r : Reg) (v i j : Nat) : (s.setReg r v i j).arrMs = s.arrMs := rfl
@[simp] theorem State.setReg_keys (r : Reg) (v i j : Nat) : (s.setReg r v i j).keys = s.keys := rfl
@[simp] theorem State.setReg_keyMask (r : Reg) (v i j : Nat) : (s.setReg r v i j).keyMask = s.keyMask := rfl
@[simp] theorem State.setReg_keyFresh (r : Reg) (v i j : Nat) : (s.setReg r v i j).keyFresh = s.keyFresh := rfl
@[simp] theorem State.setReg_arp (r : Reg) (v i j : Nat) : (s.setReg r v i j).arp = s.arp := rfl
@[simp] theorem State.setReg_rs (r : Reg) (v i j : Nat) : (s.setReg r v i j).rs = s.rs := rfl
@[simp] theorem State.setReg_links (r : Reg) (v i j : Nat) : (s.setReg r v i j).links = s.links := rfl
@[simp] theorem State.setReg_conns (r : Reg) (v i j : Nat) : (s.setReg r v i j).conns = s.conns := rfl
@[simp] theorem State.setReg_odos (r : Reg) (v i j : Nat) : (s.setReg r v i j).odos = s.odos := rfl
@[simp] theorem State.setReg_gens (r : Reg) (v i j : Nat) : (s.setReg r v i j).gens = s.gens := rfl
@[simp] theorem State.setReg_segBase (r : Reg) (v i j : Nat) : (s.setReg r v i j).segBase = s.segBase := rfl
@[simp] theorem State.setReg_segLine (r : Reg) (v i j : Nat) : (s.setReg r v i j).segLine = s.segLine := rfl
@[simp] theorem State.setReg_segB (r : Reg) (v i j : Nat) : (s.setReg r v i j).segB = s.segB := rfl
@[simp] theorem State.setReg_segOld (r : Reg) (v i j : Nat) : (s.setReg r v i j).segOld = s.segOld := rfl
@[simp] theorem State.setReg_refs (r : Reg) (v i j : Nat) : (s.setReg r v i j).refs = s.refs := rfl
@[simp] theorem State.setReg_noiseBase (r : Reg) (v i j : Nat) : (s.setReg r v i j).noiseBase = s.noiseBase := rfl
@[simp] theorem State.setReg_refTab (r : Reg) (v i j : Nat) : (s.setReg r v i j).refTab = s.refTab := rfl
@[simp] theorem State.setReg_refBad (r : Reg) (v i j : Nat) : (s.setReg r v i j).refBad = s.refBad := rfl
@[simp] theorem State.setReg_crews (r : Reg) (v i j : Nat) : (s.setReg r v i j).crews = s.crews := rfl
@[simp] theorem State.setReg_substTag (r : Reg) (v i j : Nat) : (s.setReg r v i j).substTag = s.substTag := rfl
@[simp] theorem State.setReg_exports (r : Reg) (v i j : Nat) : (s.setReg r v i j).exports = s.exports := rfl
@[simp] theorem State.setReg_jcts (r : Reg) (v i j : Nat) : (s.setReg r v i j).jcts = s.jcts := rfl
@[simp] theorem State.setReg_ctlLost (r : Reg) (v i j : Nat) : (s.setReg r v i j).ctlLost = s.ctlLost := rfl
@[simp] theorem State.setReg_banks (r : Reg) (v i j : Nat) : (s.setReg r v i j).banks = s.banks := rfl
@[simp] theorem State.setReg_unitBank (r : Reg) (v i j : Nat) : (s.setReg r v i j).unitBank = s.unitBank := rfl
@[simp] theorem State.setReg_markers (r : Reg) (v i j : Nat) : (s.setReg r v i j).markers = s.markers := rfl
@[simp] theorem State.setReg_bankFault (r : Reg) (v i j : Nat) : (s.setReg r v i j).bankFault = s.bankFault := rfl
@[simp] theorem State.setReg_wayBad (r : Reg) (v i j : Nat) : (s.setReg r v i j).wayBad = s.wayBad := rfl
@[simp] theorem State.setReg_svc (r : Reg) (v i j : Nat) : (s.setReg r v i j).svc = s.svc := rfl
@[simp] theorem State.setReg_catTask (r : Reg) (v i j : Nat) : (s.setReg r v i j).catTask = s.catTask := rfl
@[simp] theorem State.setReg_catHost (r : Reg) (v i j : Nat) : (s.setReg r v i j).catHost = s.catHost := rfl
@[simp] theorem State.setReg_catRun (r : Reg) (v i j : Nat) : (s.setReg r v i j).catRun = s.catRun := rfl
@[simp] theorem State.setReg_catTurn (r : Reg) (v i j : Nat) : (s.setReg r v i j).catTurn = s.catTurn := rfl
@[simp] theorem State.setReg_tollHigh (r : Reg) (v i j : Nat) : (s.setReg r v i j).tollHigh = s.tollHigh := rfl
@[simp] theorem State.setReg_tollNorm (r : Reg) (v i j : Nat) : (s.setReg r v i j).tollNorm = s.tollNorm := rfl
@[simp] theorem State.setReg_cols (r : Reg) (v i j : Nat) : (s.setReg r v i j).cols = s.cols := rfl
@[simp] theorem State.setReg_seq (r : Reg) (v i j : Nat) : (s.setReg r v i j).seq = s.seq := rfl
@[simp] theorem State.setReg_railsOffN (r : Reg) (v i j : Nat) : (s.setReg r v i j).railsOffN = s.railsOffN := rfl
@[simp] theorem State.setReg_thermtripN (r : Reg) (v i j : Nat) : (s.setReg r v i j).thermtripN = s.thermtripN := rfl
@[simp] theorem State.setReg_pcieWakeN (r : Reg) (v i j : Nat) : (s.setReg r v i j).pcieWakeN = s.pcieWakeN := rfl
@[simp] theorem State.setReg_cal (r : Reg) (v i j : Nat) : (s.setReg r v i j).cal = s.cal := rfl
@[simp] theorem State.setReg_calRuns (r : Reg) (v i j : Nat) : (s.setReg r v i j).calRuns = s.calRuns := rfl
@[simp] theorem State.setReg_calCmds (r : Reg) (v i j : Nat) : (s.setReg r v i j).calCmds = s.calCmds := rfl
@[simp] theorem State.setReg_calFlash (r : Reg) (v i j : Nat) : (s.setReg r v i j).calFlash = s.calFlash := rfl
@[simp] theorem State.setReg_calMoved (r : Reg) (v i j : Nat) : (s.setReg r v i j).calMoved = s.calMoved := rfl
@[simp] theorem State.setReg_calWrote (r : Reg) (v i j : Nat) : (s.setReg r v i j).calWrote = s.calWrote := rfl
@[simp] theorem State.setReg_pairFault (r : Reg) (v i j : Nat) : (s.setReg r v i j).pairFault = s.pairFault := rfl
@[simp] theorem State.setReg_pairTry (r : Reg) (v i j : Nat) : (s.setReg r v i j).pairTry = s.pairTry := rfl
@[simp] theorem State.setReg_bsOver (r : Reg) (v i j : Nat) : (s.setReg r v i j).bsOver = s.bsOver := rfl
@[simp] theorem State.setReg_policy (r : Reg) (v i j : Nat) : (s.setReg r v i j).policy = s.policy := rfl
@[simp] theorem State.setReg_fwSlots (r : Reg) (v i j : Nat) : (s.setReg r v i j).fwSlots = s.fwSlots := rfl
@[simp] theorem State.setReg_activeSlot (r : Reg) (v i j : Nat) : (s.setReg r v i j).activeSlot = s.activeSlot := rfl
@[simp] theorem State.setReg_pendingSlot (r : Reg) (v i j : Nat) : (s.setReg r v i j).pendingSlot = s.pendingSlot := rfl
@[simp] theorem State.setReg_running (r : Reg) (v i j : Nat) : (s.setReg r v i j).running = s.running := rfl
@[simp] theorem State.setReg_runFrom (r : Reg) (v i j : Nat) : (s.setReg r v i j).runFrom = s.runFrom := rfl
@[simp] theorem State.setReg_switch (r : Reg) (v i j : Nat) : (s.setReg r v i j).switch = s.switch := rfl
@[simp] theorem State.setReg_fuses (r : Reg) (v i j : Nat) : (s.setReg r v i j).fuses = s.fuses := rfl
@[simp] theorem State.setReg_fuseBox (r : Reg) (v i j : Nat) : (s.setReg r v i j).fuseBox = s.fuseBox := rfl
@[simp] theorem State.setReg_auth (r : Reg) (v i j : Nat) : (s.setReg r v i j).auth = s.auth := rfl
@[simp] theorem State.setReg_wrapKey (r : Reg) (v i j : Nat) : (s.setReg r v i j).wrapKey = s.wrapKey := rfl
@[simp] theorem State.setReg_keyCounter (r : Reg) (v i j : Nat) : (s.setReg r v i j).keyCounter = s.keyCounter := rfl
@[simp] theorem State.setReg_ksFlash (r : Reg) (v i j : Nat) : (s.setReg r v i j).ksFlash = s.ksFlash := rfl
@[simp] theorem State.setReg_challenge (r : Reg) (v i j : Nat) : (s.setReg r v i j).challenge = s.challenge := rfl
@[simp] theorem State.setReg_dbgFrom (r : Reg) (v i j : Nat) : (s.setReg r v i j).dbgFrom = s.dbgFrom := rfl
@[simp] theorem State.setReg_repair (r : Reg) (v i j : Nat) : (s.setReg r v i j).repair = s.repair := rfl
@[simp] theorem State.setReg_repairAt (r : Reg) (v i j : Nat) : (s.setReg r v i j).repairAt = s.repairAt := rfl
@[simp] theorem State.setReg_bist (r : Reg) (v i j : Nat) : (s.setReg r v i j).bist = s.bist := rfl
@[simp] theorem State.setReg_boot (r : Reg) (v i j : Nat) : (s.setReg r v i j).boot = s.boot := rfl
@[simp] theorem State.setReg_ptp (r : Reg) (v i j : Nat) : (s.setReg r v i j).ptp = s.ptp := rfl
@[simp] theorem State.setReg_plbs (r : Reg) (v i j : Nat) : (s.setReg r v i j).plbs = s.plbs := rfl
@[simp] theorem State.setReg_srcs (r : Reg) (v i j : Nat) : (s.setReg r v i j).srcs = s.srcs := rfl
@[simp] theorem State.setReg_hintBad (r : Reg) (v i j : Nat) : (s.setReg r v i j).hintBad = s.hintBad := rfl
@[simp] theorem State.setReg_odoSamp (r : Reg) (v i j : Nat) : (s.setReg r v i j).odoSamp = s.odoSamp := rfl
@[simp] theorem State.setReg_posDiff (r : Reg) (v i j : Nat) : (s.setReg r v i j).posDiff = s.posDiff := rfl
@[simp] theorem State.setReg_rowCe (r : Reg) (v i j : Nat) : (s.setReg r v i j).rowCe = s.rowCe := rfl
@[simp] theorem State.setReg_pageCe (r : Reg) (v i j : Nat) : (s.setReg r v i j).pageCe = s.pageCe := rfl
@[simp] theorem State.setReg_pageUe (r : Reg) (v i j : Nat) : (s.setReg r v i j).pageUe = s.pageUe := rfl
@[simp] theorem State.setReg_octPages (r : Reg) (v i j : Nat) : (s.setReg r v i j).octPages = s.octPages := rfl
@[simp] theorem State.setReg_rowsDue (r : Reg) (v i j : Nat) : (s.setReg r v i j).rowsDue = s.rowsDue := rfl
@[simp] theorem State.setReg_scrubAt (r : Reg) (v i j : Nat) : (s.setReg r v i j).scrubAt = s.scrubAt := rfl
@[simp] theorem State.setReg_substCopied (r : Reg) (v i j : Nat) : (s.setReg r v i j).substCopied = s.substCopied := rfl
@[simp] theorem State.setReg_pagesOut (r : Reg) (v i j : Nat) : (s.setReg r v i j).pagesOut = s.pagesOut := rfl
@[simp] theorem State.setReg_netPeer (r : Reg) (v i j : Nat) : (s.setReg r v i j).netPeer = s.netPeer := rfl

@[simp] theorem State.setFld_pending (f : Fld) (v i j : Nat) : (s.setFld f v i j).pending = s.pending := rfl
@[simp] theorem State.setFld_now (f : Fld) (v i j : Nat) : (s.setFld f v i j).now = s.now := rfl
@[simp] theorem State.setFld_aonNs (f : Fld) (v i j : Nat) : (s.setFld f v i j).aonNs = s.aonNs := rfl
@[simp] theorem State.setFld_freeCtr (f : Fld) (v i j : Nat) : (s.setFld f v i j).freeCtr = s.freeCtr := rfl
@[simp] theorem State.setFld_out (f : Fld) (v i j : Nat) : (s.setFld f v i j).out = s.out := rfl
@[simp] theorem State.setFld_latch (f : Fld) (v i j : Nat) : (s.setFld f v i j).latch = s.latch := rfl
@[simp] theorem State.setFld_stage (f : Fld) (v i j : Nat) : (s.setFld f v i j).stage = s.stage := rfl
@[simp] theorem State.setFld_log (f : Fld) (v i j : Nat) : (s.setFld f v i j).log = s.log := rfl
@[simp] theorem State.setFld_logNext (f : Fld) (v i j : Nat) : (s.setFld f v i j).logNext = s.logNext := rfl
@[simp] theorem State.setFld_logLost (f : Fld) (v i j : Nat) : (s.setFld f v i j).logLost = s.logLost := rfl
@[simp] theorem State.setFld_mirror (f : Fld) (v i j : Nat) : (s.setFld f v i j).mirror = s.mirror := rfl
@[simp] theorem State.setFld_twoByEight (f : Fld) (v i j : Nat) : (s.setFld f v i j).twoByEight = s.twoByEight := rfl
@[simp] theorem State.setFld_queues (f : Fld) (v i j : Nat) : (s.setFld f v i j).queues = s.queues := rfl
@[simp] theorem State.setFld_netFifo (f : Fld) (v i j : Nat) : (s.setFld f v i j).netFifo = s.netFifo := rfl
@[simp] theorem State.setFld_netOut (f : Fld) (v i j : Nat) : (s.setFld f v i j).netOut = s.netOut := rfl
@[simp] theorem State.setFld_mcFifo (f : Fld) (v i j : Nat) : (s.setFld f v i j).mcFifo = s.mcFifo := rfl
@[simp] theorem State.setFld_mcRun (f : Fld) (v i j : Nat) : (s.setFld f v i j).mcRun = s.mcRun := rfl
@[simp] theorem State.setFld_origins (f : Fld) (v i j : Nat) : (s.setFld f v i j).origins = s.origins := rfl
@[simp] theorem State.setFld_rings (f : Fld) (v i j : Nat) : (s.setFld f v i j).rings = s.rings := rfl
@[simp] theorem State.setFld_waiters (f : Fld) (v i j : Nat) : (s.setFld f v i j).waiters = s.waiters := rfl
@[simp] theorem State.setFld_pulses (f : Fld) (v i j : Nat) : (s.setFld f v i j).pulses = s.pulses := rfl
@[simp] theorem State.setFld_way (f : Fld) (v i j : Nat) : (s.setFld f v i j).way = s.way := rfl
@[simp] theorem State.setFld_txs (f : Fld) (v i j : Nat) : (s.setFld f v i j).txs = s.txs := rfl
@[simp] theorem State.setFld_ents (f : Fld) (v i j : Nat) : (s.setFld f v i j).ents = s.ents := rfl
@[simp] theorem State.setFld_orderNext (f : Fld) (v i j : Nat) : (s.setFld f v i j).orderNext = s.orderNext := rfl
@[simp] theorem State.setFld_coords (f : Fld) (v i j : Nat) : (s.setFld f v i j).coords = s.coords := rfl
@[simp] theorem State.setFld_depot (f : Fld) (v i j : Nat) : (s.setFld f v i j).depot = s.depot := rfl
@[simp] theorem State.setFld_depotPoison (f : Fld) (v i j : Nat) : (s.setFld f v i j).depotPoison = s.depotPoison := rfl
@[simp] theorem State.setFld_dma (f : Fld) (v i j : Nat) : (s.setFld f v i j).dma = s.dma := rfl
@[simp] theorem State.setFld_lanes (f : Fld) (v i j : Nat) : (s.setFld f v i j).lanes = s.lanes := rfl
@[simp] theorem State.setFld_tmrBase (f : Fld) (v i j : Nat) : (s.setFld f v i j).tmrBase = s.tmrBase := rfl
@[simp] theorem State.setFld_tiles (f : Fld) (v i j : Nat) : (s.setFld f v i j).tiles = s.tiles := rfl
@[simp] theorem State.setFld_busNext (f : Fld) (v i j : Nat) : (s.setFld f v i j).busNext = s.busNext := rfl
@[simp] theorem State.setFld_slots (f : Fld) (v i j : Nat) : (s.setFld f v i j).slots = s.slots := rfl
@[simp] theorem State.setFld_engines (f : Fld) (v i j : Nat) : (s.setFld f v i j).engines = s.engines := rfl
@[simp] theorem State.setFld_pmap (f : Fld) (v i j : Nat) : (s.setFld f v i j).pmap = s.pmap := rfl
@[simp] theorem State.setFld_hbm (f : Fld) (v i j : Nat) : (s.setFld f v i j).hbm = s.hbm := rfl
@[simp] theorem State.setFld_hbmPoison (f : Fld) (v i j : Nat) : (s.setFld f v i j).hbmPoison = s.hbmPoison := rfl
@[simp] theorem State.setFld_arrFly (f : Fld) (v i j : Nat) : (s.setFld f v i j).arrFly = s.arrFly := rfl
@[simp] theorem State.setFld_arrSent (f : Fld) (v i j : Nat) : (s.setFld f v i j).arrSent = s.arrSent := rfl
@[simp] theorem State.setFld_arrRecv (f : Fld) (v i j : Nat) : (s.setFld f v i j).arrRecv = s.arrRecv := rfl
@[simp] theorem State.setFld_arrMs (f : Fld) (v i j : Nat) : (s.setFld f v i j).arrMs = s.arrMs := rfl
@[simp] theorem State.setFld_keys (f : Fld) (v i j : Nat) : (s.setFld f v i j).keys = s.keys := rfl
@[simp] theorem State.setFld_keyMask (f : Fld) (v i j : Nat) : (s.setFld f v i j).keyMask = s.keyMask := rfl
@[simp] theorem State.setFld_keyFresh (f : Fld) (v i j : Nat) : (s.setFld f v i j).keyFresh = s.keyFresh := rfl
@[simp] theorem State.setFld_arp (f : Fld) (v i j : Nat) : (s.setFld f v i j).arp = s.arp := rfl
@[simp] theorem State.setFld_rs (f : Fld) (v i j : Nat) : (s.setFld f v i j).rs = s.rs := rfl
@[simp] theorem State.setFld_links (f : Fld) (v i j : Nat) : (s.setFld f v i j).links = s.links := rfl
@[simp] theorem State.setFld_conns (f : Fld) (v i j : Nat) : (s.setFld f v i j).conns = s.conns := rfl
@[simp] theorem State.setFld_odos (f : Fld) (v i j : Nat) : (s.setFld f v i j).odos = s.odos := rfl
@[simp] theorem State.setFld_gens (f : Fld) (v i j : Nat) : (s.setFld f v i j).gens = s.gens := rfl
@[simp] theorem State.setFld_segBase (f : Fld) (v i j : Nat) : (s.setFld f v i j).segBase = s.segBase := rfl
@[simp] theorem State.setFld_segLine (f : Fld) (v i j : Nat) : (s.setFld f v i j).segLine = s.segLine := rfl
@[simp] theorem State.setFld_segB (f : Fld) (v i j : Nat) : (s.setFld f v i j).segB = s.segB := rfl
@[simp] theorem State.setFld_segOld (f : Fld) (v i j : Nat) : (s.setFld f v i j).segOld = s.segOld := rfl
@[simp] theorem State.setFld_refs (f : Fld) (v i j : Nat) : (s.setFld f v i j).refs = s.refs := rfl
@[simp] theorem State.setFld_noiseBase (f : Fld) (v i j : Nat) : (s.setFld f v i j).noiseBase = s.noiseBase := rfl
@[simp] theorem State.setFld_refTab (f : Fld) (v i j : Nat) : (s.setFld f v i j).refTab = s.refTab := rfl
@[simp] theorem State.setFld_refBad (f : Fld) (v i j : Nat) : (s.setFld f v i j).refBad = s.refBad := rfl
@[simp] theorem State.setFld_crews (f : Fld) (v i j : Nat) : (s.setFld f v i j).crews = s.crews := rfl
@[simp] theorem State.setFld_substTag (f : Fld) (v i j : Nat) : (s.setFld f v i j).substTag = s.substTag := rfl
@[simp] theorem State.setFld_exports (f : Fld) (v i j : Nat) : (s.setFld f v i j).exports = s.exports := rfl
@[simp] theorem State.setFld_jcts (f : Fld) (v i j : Nat) : (s.setFld f v i j).jcts = s.jcts := rfl
@[simp] theorem State.setFld_ctlLost (f : Fld) (v i j : Nat) : (s.setFld f v i j).ctlLost = s.ctlLost := rfl
@[simp] theorem State.setFld_banks (f : Fld) (v i j : Nat) : (s.setFld f v i j).banks = s.banks := rfl
@[simp] theorem State.setFld_unitBank (f : Fld) (v i j : Nat) : (s.setFld f v i j).unitBank = s.unitBank := rfl
@[simp] theorem State.setFld_markers (f : Fld) (v i j : Nat) : (s.setFld f v i j).markers = s.markers := rfl
@[simp] theorem State.setFld_bankFault (f : Fld) (v i j : Nat) : (s.setFld f v i j).bankFault = s.bankFault := rfl
@[simp] theorem State.setFld_wayBad (f : Fld) (v i j : Nat) : (s.setFld f v i j).wayBad = s.wayBad := rfl
@[simp] theorem State.setFld_svc (f : Fld) (v i j : Nat) : (s.setFld f v i j).svc = s.svc := rfl
@[simp] theorem State.setFld_catTask (f : Fld) (v i j : Nat) : (s.setFld f v i j).catTask = s.catTask := rfl
@[simp] theorem State.setFld_catHost (f : Fld) (v i j : Nat) : (s.setFld f v i j).catHost = s.catHost := rfl
@[simp] theorem State.setFld_catRun (f : Fld) (v i j : Nat) : (s.setFld f v i j).catRun = s.catRun := rfl
@[simp] theorem State.setFld_catTurn (f : Fld) (v i j : Nat) : (s.setFld f v i j).catTurn = s.catTurn := rfl
@[simp] theorem State.setFld_tollHigh (f : Fld) (v i j : Nat) : (s.setFld f v i j).tollHigh = s.tollHigh := rfl
@[simp] theorem State.setFld_tollNorm (f : Fld) (v i j : Nat) : (s.setFld f v i j).tollNorm = s.tollNorm := rfl
@[simp] theorem State.setFld_cols (f : Fld) (v i j : Nat) : (s.setFld f v i j).cols = s.cols := rfl
@[simp] theorem State.setFld_seq (f : Fld) (v i j : Nat) : (s.setFld f v i j).seq = s.seq := rfl
@[simp] theorem State.setFld_railsOffN (f : Fld) (v i j : Nat) : (s.setFld f v i j).railsOffN = s.railsOffN := rfl
@[simp] theorem State.setFld_thermtripN (f : Fld) (v i j : Nat) : (s.setFld f v i j).thermtripN = s.thermtripN := rfl
@[simp] theorem State.setFld_pcieWakeN (f : Fld) (v i j : Nat) : (s.setFld f v i j).pcieWakeN = s.pcieWakeN := rfl
@[simp] theorem State.setFld_cal (f : Fld) (v i j : Nat) : (s.setFld f v i j).cal = s.cal := rfl
@[simp] theorem State.setFld_calRuns (f : Fld) (v i j : Nat) : (s.setFld f v i j).calRuns = s.calRuns := rfl
@[simp] theorem State.setFld_calCmds (f : Fld) (v i j : Nat) : (s.setFld f v i j).calCmds = s.calCmds := rfl
@[simp] theorem State.setFld_calFlash (f : Fld) (v i j : Nat) : (s.setFld f v i j).calFlash = s.calFlash := rfl
@[simp] theorem State.setFld_calMoved (f : Fld) (v i j : Nat) : (s.setFld f v i j).calMoved = s.calMoved := rfl
@[simp] theorem State.setFld_calWrote (f : Fld) (v i j : Nat) : (s.setFld f v i j).calWrote = s.calWrote := rfl
@[simp] theorem State.setFld_pairFault (f : Fld) (v i j : Nat) : (s.setFld f v i j).pairFault = s.pairFault := rfl
@[simp] theorem State.setFld_pairTry (f : Fld) (v i j : Nat) : (s.setFld f v i j).pairTry = s.pairTry := rfl
@[simp] theorem State.setFld_bsOver (f : Fld) (v i j : Nat) : (s.setFld f v i j).bsOver = s.bsOver := rfl
@[simp] theorem State.setFld_policy (f : Fld) (v i j : Nat) : (s.setFld f v i j).policy = s.policy := rfl
@[simp] theorem State.setFld_fwSlots (f : Fld) (v i j : Nat) : (s.setFld f v i j).fwSlots = s.fwSlots := rfl
@[simp] theorem State.setFld_activeSlot (f : Fld) (v i j : Nat) : (s.setFld f v i j).activeSlot = s.activeSlot := rfl
@[simp] theorem State.setFld_pendingSlot (f : Fld) (v i j : Nat) : (s.setFld f v i j).pendingSlot = s.pendingSlot := rfl
@[simp] theorem State.setFld_running (f : Fld) (v i j : Nat) : (s.setFld f v i j).running = s.running := rfl
@[simp] theorem State.setFld_runFrom (f : Fld) (v i j : Nat) : (s.setFld f v i j).runFrom = s.runFrom := rfl
@[simp] theorem State.setFld_switch (f : Fld) (v i j : Nat) : (s.setFld f v i j).switch = s.switch := rfl
@[simp] theorem State.setFld_fuses (f : Fld) (v i j : Nat) : (s.setFld f v i j).fuses = s.fuses := rfl
@[simp] theorem State.setFld_fuseBox (f : Fld) (v i j : Nat) : (s.setFld f v i j).fuseBox = s.fuseBox := rfl
@[simp] theorem State.setFld_auth (f : Fld) (v i j : Nat) : (s.setFld f v i j).auth = s.auth := rfl
@[simp] theorem State.setFld_wrapKey (f : Fld) (v i j : Nat) : (s.setFld f v i j).wrapKey = s.wrapKey := rfl
@[simp] theorem State.setFld_keyCounter (f : Fld) (v i j : Nat) : (s.setFld f v i j).keyCounter = s.keyCounter := rfl
@[simp] theorem State.setFld_ksFlash (f : Fld) (v i j : Nat) : (s.setFld f v i j).ksFlash = s.ksFlash := rfl
@[simp] theorem State.setFld_challenge (f : Fld) (v i j : Nat) : (s.setFld f v i j).challenge = s.challenge := rfl
@[simp] theorem State.setFld_dbgFrom (f : Fld) (v i j : Nat) : (s.setFld f v i j).dbgFrom = s.dbgFrom := rfl
@[simp] theorem State.setFld_repair (f : Fld) (v i j : Nat) : (s.setFld f v i j).repair = s.repair := rfl
@[simp] theorem State.setFld_repairAt (f : Fld) (v i j : Nat) : (s.setFld f v i j).repairAt = s.repairAt := rfl
@[simp] theorem State.setFld_bist (f : Fld) (v i j : Nat) : (s.setFld f v i j).bist = s.bist := rfl
@[simp] theorem State.setFld_boot (f : Fld) (v i j : Nat) : (s.setFld f v i j).boot = s.boot := rfl
@[simp] theorem State.setFld_ptp (f : Fld) (v i j : Nat) : (s.setFld f v i j).ptp = s.ptp := rfl
@[simp] theorem State.setFld_plbs (f : Fld) (v i j : Nat) : (s.setFld f v i j).plbs = s.plbs := rfl
@[simp] theorem State.setFld_srcs (f : Fld) (v i j : Nat) : (s.setFld f v i j).srcs = s.srcs := rfl
@[simp] theorem State.setFld_hintBad (f : Fld) (v i j : Nat) : (s.setFld f v i j).hintBad = s.hintBad := rfl
@[simp] theorem State.setFld_odoSamp (f : Fld) (v i j : Nat) : (s.setFld f v i j).odoSamp = s.odoSamp := rfl
@[simp] theorem State.setFld_posDiff (f : Fld) (v i j : Nat) : (s.setFld f v i j).posDiff = s.posDiff := rfl
@[simp] theorem State.setFld_rowCe (f : Fld) (v i j : Nat) : (s.setFld f v i j).rowCe = s.rowCe := rfl
@[simp] theorem State.setFld_pageCe (f : Fld) (v i j : Nat) : (s.setFld f v i j).pageCe = s.pageCe := rfl
@[simp] theorem State.setFld_pageUe (f : Fld) (v i j : Nat) : (s.setFld f v i j).pageUe = s.pageUe := rfl
@[simp] theorem State.setFld_octPages (f : Fld) (v i j : Nat) : (s.setFld f v i j).octPages = s.octPages := rfl
@[simp] theorem State.setFld_rowsDue (f : Fld) (v i j : Nat) : (s.setFld f v i j).rowsDue = s.rowsDue := rfl
@[simp] theorem State.setFld_scrubAt (f : Fld) (v i j : Nat) : (s.setFld f v i j).scrubAt = s.scrubAt := rfl
@[simp] theorem State.setFld_substCopied (f : Fld) (v i j : Nat) : (s.setFld f v i j).substCopied = s.substCopied := rfl
@[simp] theorem State.setFld_pagesOut (f : Fld) (v i j : Nat) : (s.setFld f v i j).pagesOut = s.pagesOut := rfl
@[simp] theorem State.setFld_netPeer (f : Fld) (v i j : Nat) : (s.setFld f v i j).netPeer = s.netPeer := rfl

@[simp] theorem State.addSat_pending (f : Fld) (n i j : Nat) : (s.addSat f n i j).pending = s.pending := rfl
@[simp] theorem State.addSat_now (f : Fld) (n i j : Nat) : (s.addSat f n i j).now = s.now := rfl
@[simp] theorem State.addSat_aonNs (f : Fld) (n i j : Nat) : (s.addSat f n i j).aonNs = s.aonNs := rfl
@[simp] theorem State.addSat_freeCtr (f : Fld) (n i j : Nat) : (s.addSat f n i j).freeCtr = s.freeCtr := rfl
@[simp] theorem State.addSat_out (f : Fld) (n i j : Nat) : (s.addSat f n i j).out = s.out := rfl
@[simp] theorem State.addSat_latch (f : Fld) (n i j : Nat) : (s.addSat f n i j).latch = s.latch := rfl
@[simp] theorem State.addSat_stage (f : Fld) (n i j : Nat) : (s.addSat f n i j).stage = s.stage := rfl
@[simp] theorem State.addSat_log (f : Fld) (n i j : Nat) : (s.addSat f n i j).log = s.log := rfl
@[simp] theorem State.addSat_logNext (f : Fld) (n i j : Nat) : (s.addSat f n i j).logNext = s.logNext := rfl
@[simp] theorem State.addSat_logLost (f : Fld) (n i j : Nat) : (s.addSat f n i j).logLost = s.logLost := rfl
@[simp] theorem State.addSat_mirror (f : Fld) (n i j : Nat) : (s.addSat f n i j).mirror = s.mirror := rfl
@[simp] theorem State.addSat_twoByEight (f : Fld) (n i j : Nat) : (s.addSat f n i j).twoByEight = s.twoByEight := rfl
@[simp] theorem State.addSat_queues (f : Fld) (n i j : Nat) : (s.addSat f n i j).queues = s.queues := rfl
@[simp] theorem State.addSat_netFifo (f : Fld) (n i j : Nat) : (s.addSat f n i j).netFifo = s.netFifo := rfl
@[simp] theorem State.addSat_netOut (f : Fld) (n i j : Nat) : (s.addSat f n i j).netOut = s.netOut := rfl
@[simp] theorem State.addSat_mcFifo (f : Fld) (n i j : Nat) : (s.addSat f n i j).mcFifo = s.mcFifo := rfl
@[simp] theorem State.addSat_mcRun (f : Fld) (n i j : Nat) : (s.addSat f n i j).mcRun = s.mcRun := rfl
@[simp] theorem State.addSat_origins (f : Fld) (n i j : Nat) : (s.addSat f n i j).origins = s.origins := rfl
@[simp] theorem State.addSat_rings (f : Fld) (n i j : Nat) : (s.addSat f n i j).rings = s.rings := rfl
@[simp] theorem State.addSat_waiters (f : Fld) (n i j : Nat) : (s.addSat f n i j).waiters = s.waiters := rfl
@[simp] theorem State.addSat_pulses (f : Fld) (n i j : Nat) : (s.addSat f n i j).pulses = s.pulses := rfl
@[simp] theorem State.addSat_way (f : Fld) (n i j : Nat) : (s.addSat f n i j).way = s.way := rfl
@[simp] theorem State.addSat_txs (f : Fld) (n i j : Nat) : (s.addSat f n i j).txs = s.txs := rfl
@[simp] theorem State.addSat_ents (f : Fld) (n i j : Nat) : (s.addSat f n i j).ents = s.ents := rfl
@[simp] theorem State.addSat_orderNext (f : Fld) (n i j : Nat) : (s.addSat f n i j).orderNext = s.orderNext := rfl
@[simp] theorem State.addSat_coords (f : Fld) (n i j : Nat) : (s.addSat f n i j).coords = s.coords := rfl
@[simp] theorem State.addSat_depot (f : Fld) (n i j : Nat) : (s.addSat f n i j).depot = s.depot := rfl
@[simp] theorem State.addSat_depotPoison (f : Fld) (n i j : Nat) : (s.addSat f n i j).depotPoison = s.depotPoison := rfl
@[simp] theorem State.addSat_dma (f : Fld) (n i j : Nat) : (s.addSat f n i j).dma = s.dma := rfl
@[simp] theorem State.addSat_lanes (f : Fld) (n i j : Nat) : (s.addSat f n i j).lanes = s.lanes := rfl
@[simp] theorem State.addSat_tmrBase (f : Fld) (n i j : Nat) : (s.addSat f n i j).tmrBase = s.tmrBase := rfl
@[simp] theorem State.addSat_tiles (f : Fld) (n i j : Nat) : (s.addSat f n i j).tiles = s.tiles := rfl
@[simp] theorem State.addSat_busNext (f : Fld) (n i j : Nat) : (s.addSat f n i j).busNext = s.busNext := rfl
@[simp] theorem State.addSat_slots (f : Fld) (n i j : Nat) : (s.addSat f n i j).slots = s.slots := rfl
@[simp] theorem State.addSat_engines (f : Fld) (n i j : Nat) : (s.addSat f n i j).engines = s.engines := rfl
@[simp] theorem State.addSat_pmap (f : Fld) (n i j : Nat) : (s.addSat f n i j).pmap = s.pmap := rfl
@[simp] theorem State.addSat_hbm (f : Fld) (n i j : Nat) : (s.addSat f n i j).hbm = s.hbm := rfl
@[simp] theorem State.addSat_hbmPoison (f : Fld) (n i j : Nat) : (s.addSat f n i j).hbmPoison = s.hbmPoison := rfl
@[simp] theorem State.addSat_arrFly (f : Fld) (n i j : Nat) : (s.addSat f n i j).arrFly = s.arrFly := rfl
@[simp] theorem State.addSat_arrSent (f : Fld) (n i j : Nat) : (s.addSat f n i j).arrSent = s.arrSent := rfl
@[simp] theorem State.addSat_arrRecv (f : Fld) (n i j : Nat) : (s.addSat f n i j).arrRecv = s.arrRecv := rfl
@[simp] theorem State.addSat_arrMs (f : Fld) (n i j : Nat) : (s.addSat f n i j).arrMs = s.arrMs := rfl
@[simp] theorem State.addSat_keys (f : Fld) (n i j : Nat) : (s.addSat f n i j).keys = s.keys := rfl
@[simp] theorem State.addSat_keyMask (f : Fld) (n i j : Nat) : (s.addSat f n i j).keyMask = s.keyMask := rfl
@[simp] theorem State.addSat_keyFresh (f : Fld) (n i j : Nat) : (s.addSat f n i j).keyFresh = s.keyFresh := rfl
@[simp] theorem State.addSat_arp (f : Fld) (n i j : Nat) : (s.addSat f n i j).arp = s.arp := rfl
@[simp] theorem State.addSat_rs (f : Fld) (n i j : Nat) : (s.addSat f n i j).rs = s.rs := rfl
@[simp] theorem State.addSat_links (f : Fld) (n i j : Nat) : (s.addSat f n i j).links = s.links := rfl
@[simp] theorem State.addSat_conns (f : Fld) (n i j : Nat) : (s.addSat f n i j).conns = s.conns := rfl
@[simp] theorem State.addSat_odos (f : Fld) (n i j : Nat) : (s.addSat f n i j).odos = s.odos := rfl
@[simp] theorem State.addSat_gens (f : Fld) (n i j : Nat) : (s.addSat f n i j).gens = s.gens := rfl
@[simp] theorem State.addSat_segBase (f : Fld) (n i j : Nat) : (s.addSat f n i j).segBase = s.segBase := rfl
@[simp] theorem State.addSat_segLine (f : Fld) (n i j : Nat) : (s.addSat f n i j).segLine = s.segLine := rfl
@[simp] theorem State.addSat_segB (f : Fld) (n i j : Nat) : (s.addSat f n i j).segB = s.segB := rfl
@[simp] theorem State.addSat_segOld (f : Fld) (n i j : Nat) : (s.addSat f n i j).segOld = s.segOld := rfl
@[simp] theorem State.addSat_refs (f : Fld) (n i j : Nat) : (s.addSat f n i j).refs = s.refs := rfl
@[simp] theorem State.addSat_noiseBase (f : Fld) (n i j : Nat) : (s.addSat f n i j).noiseBase = s.noiseBase := rfl
@[simp] theorem State.addSat_refTab (f : Fld) (n i j : Nat) : (s.addSat f n i j).refTab = s.refTab := rfl
@[simp] theorem State.addSat_refBad (f : Fld) (n i j : Nat) : (s.addSat f n i j).refBad = s.refBad := rfl
@[simp] theorem State.addSat_crews (f : Fld) (n i j : Nat) : (s.addSat f n i j).crews = s.crews := rfl
@[simp] theorem State.addSat_substTag (f : Fld) (n i j : Nat) : (s.addSat f n i j).substTag = s.substTag := rfl
@[simp] theorem State.addSat_exports (f : Fld) (n i j : Nat) : (s.addSat f n i j).exports = s.exports := rfl
@[simp] theorem State.addSat_jcts (f : Fld) (n i j : Nat) : (s.addSat f n i j).jcts = s.jcts := rfl
@[simp] theorem State.addSat_ctlLost (f : Fld) (n i j : Nat) : (s.addSat f n i j).ctlLost = s.ctlLost := rfl
@[simp] theorem State.addSat_banks (f : Fld) (n i j : Nat) : (s.addSat f n i j).banks = s.banks := rfl
@[simp] theorem State.addSat_unitBank (f : Fld) (n i j : Nat) : (s.addSat f n i j).unitBank = s.unitBank := rfl
@[simp] theorem State.addSat_markers (f : Fld) (n i j : Nat) : (s.addSat f n i j).markers = s.markers := rfl
@[simp] theorem State.addSat_bankFault (f : Fld) (n i j : Nat) : (s.addSat f n i j).bankFault = s.bankFault := rfl
@[simp] theorem State.addSat_wayBad (f : Fld) (n i j : Nat) : (s.addSat f n i j).wayBad = s.wayBad := rfl
@[simp] theorem State.addSat_svc (f : Fld) (n i j : Nat) : (s.addSat f n i j).svc = s.svc := rfl
@[simp] theorem State.addSat_catTask (f : Fld) (n i j : Nat) : (s.addSat f n i j).catTask = s.catTask := rfl
@[simp] theorem State.addSat_catHost (f : Fld) (n i j : Nat) : (s.addSat f n i j).catHost = s.catHost := rfl
@[simp] theorem State.addSat_catRun (f : Fld) (n i j : Nat) : (s.addSat f n i j).catRun = s.catRun := rfl
@[simp] theorem State.addSat_catTurn (f : Fld) (n i j : Nat) : (s.addSat f n i j).catTurn = s.catTurn := rfl
@[simp] theorem State.addSat_tollHigh (f : Fld) (n i j : Nat) : (s.addSat f n i j).tollHigh = s.tollHigh := rfl
@[simp] theorem State.addSat_tollNorm (f : Fld) (n i j : Nat) : (s.addSat f n i j).tollNorm = s.tollNorm := rfl
@[simp] theorem State.addSat_cols (f : Fld) (n i j : Nat) : (s.addSat f n i j).cols = s.cols := rfl
@[simp] theorem State.addSat_seq (f : Fld) (n i j : Nat) : (s.addSat f n i j).seq = s.seq := rfl
@[simp] theorem State.addSat_railsOffN (f : Fld) (n i j : Nat) : (s.addSat f n i j).railsOffN = s.railsOffN := rfl
@[simp] theorem State.addSat_thermtripN (f : Fld) (n i j : Nat) : (s.addSat f n i j).thermtripN = s.thermtripN := rfl
@[simp] theorem State.addSat_pcieWakeN (f : Fld) (n i j : Nat) : (s.addSat f n i j).pcieWakeN = s.pcieWakeN := rfl
@[simp] theorem State.addSat_cal (f : Fld) (n i j : Nat) : (s.addSat f n i j).cal = s.cal := rfl
@[simp] theorem State.addSat_calRuns (f : Fld) (n i j : Nat) : (s.addSat f n i j).calRuns = s.calRuns := rfl
@[simp] theorem State.addSat_calCmds (f : Fld) (n i j : Nat) : (s.addSat f n i j).calCmds = s.calCmds := rfl
@[simp] theorem State.addSat_calFlash (f : Fld) (n i j : Nat) : (s.addSat f n i j).calFlash = s.calFlash := rfl
@[simp] theorem State.addSat_calMoved (f : Fld) (n i j : Nat) : (s.addSat f n i j).calMoved = s.calMoved := rfl
@[simp] theorem State.addSat_calWrote (f : Fld) (n i j : Nat) : (s.addSat f n i j).calWrote = s.calWrote := rfl
@[simp] theorem State.addSat_pairFault (f : Fld) (n i j : Nat) : (s.addSat f n i j).pairFault = s.pairFault := rfl
@[simp] theorem State.addSat_pairTry (f : Fld) (n i j : Nat) : (s.addSat f n i j).pairTry = s.pairTry := rfl
@[simp] theorem State.addSat_bsOver (f : Fld) (n i j : Nat) : (s.addSat f n i j).bsOver = s.bsOver := rfl
@[simp] theorem State.addSat_policy (f : Fld) (n i j : Nat) : (s.addSat f n i j).policy = s.policy := rfl
@[simp] theorem State.addSat_fwSlots (f : Fld) (n i j : Nat) : (s.addSat f n i j).fwSlots = s.fwSlots := rfl
@[simp] theorem State.addSat_activeSlot (f : Fld) (n i j : Nat) : (s.addSat f n i j).activeSlot = s.activeSlot := rfl
@[simp] theorem State.addSat_pendingSlot (f : Fld) (n i j : Nat) : (s.addSat f n i j).pendingSlot = s.pendingSlot := rfl
@[simp] theorem State.addSat_running (f : Fld) (n i j : Nat) : (s.addSat f n i j).running = s.running := rfl
@[simp] theorem State.addSat_runFrom (f : Fld) (n i j : Nat) : (s.addSat f n i j).runFrom = s.runFrom := rfl
@[simp] theorem State.addSat_switch (f : Fld) (n i j : Nat) : (s.addSat f n i j).switch = s.switch := rfl
@[simp] theorem State.addSat_fuses (f : Fld) (n i j : Nat) : (s.addSat f n i j).fuses = s.fuses := rfl
@[simp] theorem State.addSat_fuseBox (f : Fld) (n i j : Nat) : (s.addSat f n i j).fuseBox = s.fuseBox := rfl
@[simp] theorem State.addSat_auth (f : Fld) (n i j : Nat) : (s.addSat f n i j).auth = s.auth := rfl
@[simp] theorem State.addSat_wrapKey (f : Fld) (n i j : Nat) : (s.addSat f n i j).wrapKey = s.wrapKey := rfl
@[simp] theorem State.addSat_keyCounter (f : Fld) (n i j : Nat) : (s.addSat f n i j).keyCounter = s.keyCounter := rfl
@[simp] theorem State.addSat_ksFlash (f : Fld) (n i j : Nat) : (s.addSat f n i j).ksFlash = s.ksFlash := rfl
@[simp] theorem State.addSat_challenge (f : Fld) (n i j : Nat) : (s.addSat f n i j).challenge = s.challenge := rfl
@[simp] theorem State.addSat_dbgFrom (f : Fld) (n i j : Nat) : (s.addSat f n i j).dbgFrom = s.dbgFrom := rfl
@[simp] theorem State.addSat_repair (f : Fld) (n i j : Nat) : (s.addSat f n i j).repair = s.repair := rfl
@[simp] theorem State.addSat_repairAt (f : Fld) (n i j : Nat) : (s.addSat f n i j).repairAt = s.repairAt := rfl
@[simp] theorem State.addSat_bist (f : Fld) (n i j : Nat) : (s.addSat f n i j).bist = s.bist := rfl
@[simp] theorem State.addSat_boot (f : Fld) (n i j : Nat) : (s.addSat f n i j).boot = s.boot := rfl
@[simp] theorem State.addSat_ptp (f : Fld) (n i j : Nat) : (s.addSat f n i j).ptp = s.ptp := rfl
@[simp] theorem State.addSat_plbs (f : Fld) (n i j : Nat) : (s.addSat f n i j).plbs = s.plbs := rfl
@[simp] theorem State.addSat_srcs (f : Fld) (n i j : Nat) : (s.addSat f n i j).srcs = s.srcs := rfl
@[simp] theorem State.addSat_hintBad (f : Fld) (n i j : Nat) : (s.addSat f n i j).hintBad = s.hintBad := rfl
@[simp] theorem State.addSat_odoSamp (f : Fld) (n i j : Nat) : (s.addSat f n i j).odoSamp = s.odoSamp := rfl
@[simp] theorem State.addSat_posDiff (f : Fld) (n i j : Nat) : (s.addSat f n i j).posDiff = s.posDiff := rfl
@[simp] theorem State.addSat_rowCe (f : Fld) (n i j : Nat) : (s.addSat f n i j).rowCe = s.rowCe := rfl
@[simp] theorem State.addSat_pageCe (f : Fld) (n i j : Nat) : (s.addSat f n i j).pageCe = s.pageCe := rfl
@[simp] theorem State.addSat_pageUe (f : Fld) (n i j : Nat) : (s.addSat f n i j).pageUe = s.pageUe := rfl
@[simp] theorem State.addSat_octPages (f : Fld) (n i j : Nat) : (s.addSat f n i j).octPages = s.octPages := rfl
@[simp] theorem State.addSat_rowsDue (f : Fld) (n i j : Nat) : (s.addSat f n i j).rowsDue = s.rowsDue := rfl
@[simp] theorem State.addSat_scrubAt (f : Fld) (n i j : Nat) : (s.addSat f n i j).scrubAt = s.scrubAt := rfl
@[simp] theorem State.addSat_substCopied (f : Fld) (n i j : Nat) : (s.addSat f n i j).substCopied = s.substCopied := rfl
@[simp] theorem State.addSat_pagesOut (f : Fld) (n i j : Nat) : (s.addSat f n i j).pagesOut = s.pagesOut := rfl
@[simp] theorem State.addSat_netPeer (f : Fld) (n i j : Nat) : (s.addSat f n i j).netPeer = s.netPeer := rfl

@[simp] theorem State.inc_pending (f : Fld) (i j : Nat) : (s.inc f i j).pending = s.pending := rfl
@[simp] theorem State.inc_now (f : Fld) (i j : Nat) : (s.inc f i j).now = s.now := rfl
@[simp] theorem State.inc_aonNs (f : Fld) (i j : Nat) : (s.inc f i j).aonNs = s.aonNs := rfl
@[simp] theorem State.inc_freeCtr (f : Fld) (i j : Nat) : (s.inc f i j).freeCtr = s.freeCtr := rfl
@[simp] theorem State.inc_out (f : Fld) (i j : Nat) : (s.inc f i j).out = s.out := rfl
@[simp] theorem State.inc_latch (f : Fld) (i j : Nat) : (s.inc f i j).latch = s.latch := rfl
@[simp] theorem State.inc_stage (f : Fld) (i j : Nat) : (s.inc f i j).stage = s.stage := rfl
@[simp] theorem State.inc_log (f : Fld) (i j : Nat) : (s.inc f i j).log = s.log := rfl
@[simp] theorem State.inc_logNext (f : Fld) (i j : Nat) : (s.inc f i j).logNext = s.logNext := rfl
@[simp] theorem State.inc_logLost (f : Fld) (i j : Nat) : (s.inc f i j).logLost = s.logLost := rfl
@[simp] theorem State.inc_mirror (f : Fld) (i j : Nat) : (s.inc f i j).mirror = s.mirror := rfl
@[simp] theorem State.inc_twoByEight (f : Fld) (i j : Nat) : (s.inc f i j).twoByEight = s.twoByEight := rfl
@[simp] theorem State.inc_queues (f : Fld) (i j : Nat) : (s.inc f i j).queues = s.queues := rfl
@[simp] theorem State.inc_netFifo (f : Fld) (i j : Nat) : (s.inc f i j).netFifo = s.netFifo := rfl
@[simp] theorem State.inc_netOut (f : Fld) (i j : Nat) : (s.inc f i j).netOut = s.netOut := rfl
@[simp] theorem State.inc_mcFifo (f : Fld) (i j : Nat) : (s.inc f i j).mcFifo = s.mcFifo := rfl
@[simp] theorem State.inc_mcRun (f : Fld) (i j : Nat) : (s.inc f i j).mcRun = s.mcRun := rfl
@[simp] theorem State.inc_origins (f : Fld) (i j : Nat) : (s.inc f i j).origins = s.origins := rfl
@[simp] theorem State.inc_rings (f : Fld) (i j : Nat) : (s.inc f i j).rings = s.rings := rfl
@[simp] theorem State.inc_waiters (f : Fld) (i j : Nat) : (s.inc f i j).waiters = s.waiters := rfl
@[simp] theorem State.inc_pulses (f : Fld) (i j : Nat) : (s.inc f i j).pulses = s.pulses := rfl
@[simp] theorem State.inc_way (f : Fld) (i j : Nat) : (s.inc f i j).way = s.way := rfl
@[simp] theorem State.inc_txs (f : Fld) (i j : Nat) : (s.inc f i j).txs = s.txs := rfl
@[simp] theorem State.inc_ents (f : Fld) (i j : Nat) : (s.inc f i j).ents = s.ents := rfl
@[simp] theorem State.inc_orderNext (f : Fld) (i j : Nat) : (s.inc f i j).orderNext = s.orderNext := rfl
@[simp] theorem State.inc_coords (f : Fld) (i j : Nat) : (s.inc f i j).coords = s.coords := rfl
@[simp] theorem State.inc_depot (f : Fld) (i j : Nat) : (s.inc f i j).depot = s.depot := rfl
@[simp] theorem State.inc_depotPoison (f : Fld) (i j : Nat) : (s.inc f i j).depotPoison = s.depotPoison := rfl
@[simp] theorem State.inc_dma (f : Fld) (i j : Nat) : (s.inc f i j).dma = s.dma := rfl
@[simp] theorem State.inc_lanes (f : Fld) (i j : Nat) : (s.inc f i j).lanes = s.lanes := rfl
@[simp] theorem State.inc_tmrBase (f : Fld) (i j : Nat) : (s.inc f i j).tmrBase = s.tmrBase := rfl
@[simp] theorem State.inc_tiles (f : Fld) (i j : Nat) : (s.inc f i j).tiles = s.tiles := rfl
@[simp] theorem State.inc_busNext (f : Fld) (i j : Nat) : (s.inc f i j).busNext = s.busNext := rfl
@[simp] theorem State.inc_slots (f : Fld) (i j : Nat) : (s.inc f i j).slots = s.slots := rfl
@[simp] theorem State.inc_engines (f : Fld) (i j : Nat) : (s.inc f i j).engines = s.engines := rfl
@[simp] theorem State.inc_pmap (f : Fld) (i j : Nat) : (s.inc f i j).pmap = s.pmap := rfl
@[simp] theorem State.inc_hbm (f : Fld) (i j : Nat) : (s.inc f i j).hbm = s.hbm := rfl
@[simp] theorem State.inc_hbmPoison (f : Fld) (i j : Nat) : (s.inc f i j).hbmPoison = s.hbmPoison := rfl
@[simp] theorem State.inc_arrFly (f : Fld) (i j : Nat) : (s.inc f i j).arrFly = s.arrFly := rfl
@[simp] theorem State.inc_arrSent (f : Fld) (i j : Nat) : (s.inc f i j).arrSent = s.arrSent := rfl
@[simp] theorem State.inc_arrRecv (f : Fld) (i j : Nat) : (s.inc f i j).arrRecv = s.arrRecv := rfl
@[simp] theorem State.inc_arrMs (f : Fld) (i j : Nat) : (s.inc f i j).arrMs = s.arrMs := rfl
@[simp] theorem State.inc_keys (f : Fld) (i j : Nat) : (s.inc f i j).keys = s.keys := rfl
@[simp] theorem State.inc_keyMask (f : Fld) (i j : Nat) : (s.inc f i j).keyMask = s.keyMask := rfl
@[simp] theorem State.inc_keyFresh (f : Fld) (i j : Nat) : (s.inc f i j).keyFresh = s.keyFresh := rfl
@[simp] theorem State.inc_arp (f : Fld) (i j : Nat) : (s.inc f i j).arp = s.arp := rfl
@[simp] theorem State.inc_rs (f : Fld) (i j : Nat) : (s.inc f i j).rs = s.rs := rfl
@[simp] theorem State.inc_links (f : Fld) (i j : Nat) : (s.inc f i j).links = s.links := rfl
@[simp] theorem State.inc_conns (f : Fld) (i j : Nat) : (s.inc f i j).conns = s.conns := rfl
@[simp] theorem State.inc_odos (f : Fld) (i j : Nat) : (s.inc f i j).odos = s.odos := rfl
@[simp] theorem State.inc_gens (f : Fld) (i j : Nat) : (s.inc f i j).gens = s.gens := rfl
@[simp] theorem State.inc_segBase (f : Fld) (i j : Nat) : (s.inc f i j).segBase = s.segBase := rfl
@[simp] theorem State.inc_segLine (f : Fld) (i j : Nat) : (s.inc f i j).segLine = s.segLine := rfl
@[simp] theorem State.inc_segB (f : Fld) (i j : Nat) : (s.inc f i j).segB = s.segB := rfl
@[simp] theorem State.inc_segOld (f : Fld) (i j : Nat) : (s.inc f i j).segOld = s.segOld := rfl
@[simp] theorem State.inc_refs (f : Fld) (i j : Nat) : (s.inc f i j).refs = s.refs := rfl
@[simp] theorem State.inc_noiseBase (f : Fld) (i j : Nat) : (s.inc f i j).noiseBase = s.noiseBase := rfl
@[simp] theorem State.inc_refTab (f : Fld) (i j : Nat) : (s.inc f i j).refTab = s.refTab := rfl
@[simp] theorem State.inc_refBad (f : Fld) (i j : Nat) : (s.inc f i j).refBad = s.refBad := rfl
@[simp] theorem State.inc_crews (f : Fld) (i j : Nat) : (s.inc f i j).crews = s.crews := rfl
@[simp] theorem State.inc_substTag (f : Fld) (i j : Nat) : (s.inc f i j).substTag = s.substTag := rfl
@[simp] theorem State.inc_exports (f : Fld) (i j : Nat) : (s.inc f i j).exports = s.exports := rfl
@[simp] theorem State.inc_jcts (f : Fld) (i j : Nat) : (s.inc f i j).jcts = s.jcts := rfl
@[simp] theorem State.inc_ctlLost (f : Fld) (i j : Nat) : (s.inc f i j).ctlLost = s.ctlLost := rfl
@[simp] theorem State.inc_banks (f : Fld) (i j : Nat) : (s.inc f i j).banks = s.banks := rfl
@[simp] theorem State.inc_unitBank (f : Fld) (i j : Nat) : (s.inc f i j).unitBank = s.unitBank := rfl
@[simp] theorem State.inc_markers (f : Fld) (i j : Nat) : (s.inc f i j).markers = s.markers := rfl
@[simp] theorem State.inc_bankFault (f : Fld) (i j : Nat) : (s.inc f i j).bankFault = s.bankFault := rfl
@[simp] theorem State.inc_wayBad (f : Fld) (i j : Nat) : (s.inc f i j).wayBad = s.wayBad := rfl
@[simp] theorem State.inc_svc (f : Fld) (i j : Nat) : (s.inc f i j).svc = s.svc := rfl
@[simp] theorem State.inc_catTask (f : Fld) (i j : Nat) : (s.inc f i j).catTask = s.catTask := rfl
@[simp] theorem State.inc_catHost (f : Fld) (i j : Nat) : (s.inc f i j).catHost = s.catHost := rfl
@[simp] theorem State.inc_catRun (f : Fld) (i j : Nat) : (s.inc f i j).catRun = s.catRun := rfl
@[simp] theorem State.inc_catTurn (f : Fld) (i j : Nat) : (s.inc f i j).catTurn = s.catTurn := rfl
@[simp] theorem State.inc_tollHigh (f : Fld) (i j : Nat) : (s.inc f i j).tollHigh = s.tollHigh := rfl
@[simp] theorem State.inc_tollNorm (f : Fld) (i j : Nat) : (s.inc f i j).tollNorm = s.tollNorm := rfl
@[simp] theorem State.inc_cols (f : Fld) (i j : Nat) : (s.inc f i j).cols = s.cols := rfl
@[simp] theorem State.inc_seq (f : Fld) (i j : Nat) : (s.inc f i j).seq = s.seq := rfl
@[simp] theorem State.inc_railsOffN (f : Fld) (i j : Nat) : (s.inc f i j).railsOffN = s.railsOffN := rfl
@[simp] theorem State.inc_thermtripN (f : Fld) (i j : Nat) : (s.inc f i j).thermtripN = s.thermtripN := rfl
@[simp] theorem State.inc_pcieWakeN (f : Fld) (i j : Nat) : (s.inc f i j).pcieWakeN = s.pcieWakeN := rfl
@[simp] theorem State.inc_cal (f : Fld) (i j : Nat) : (s.inc f i j).cal = s.cal := rfl
@[simp] theorem State.inc_calRuns (f : Fld) (i j : Nat) : (s.inc f i j).calRuns = s.calRuns := rfl
@[simp] theorem State.inc_calCmds (f : Fld) (i j : Nat) : (s.inc f i j).calCmds = s.calCmds := rfl
@[simp] theorem State.inc_calFlash (f : Fld) (i j : Nat) : (s.inc f i j).calFlash = s.calFlash := rfl
@[simp] theorem State.inc_calMoved (f : Fld) (i j : Nat) : (s.inc f i j).calMoved = s.calMoved := rfl
@[simp] theorem State.inc_calWrote (f : Fld) (i j : Nat) : (s.inc f i j).calWrote = s.calWrote := rfl
@[simp] theorem State.inc_pairFault (f : Fld) (i j : Nat) : (s.inc f i j).pairFault = s.pairFault := rfl
@[simp] theorem State.inc_pairTry (f : Fld) (i j : Nat) : (s.inc f i j).pairTry = s.pairTry := rfl
@[simp] theorem State.inc_bsOver (f : Fld) (i j : Nat) : (s.inc f i j).bsOver = s.bsOver := rfl
@[simp] theorem State.inc_policy (f : Fld) (i j : Nat) : (s.inc f i j).policy = s.policy := rfl
@[simp] theorem State.inc_fwSlots (f : Fld) (i j : Nat) : (s.inc f i j).fwSlots = s.fwSlots := rfl
@[simp] theorem State.inc_activeSlot (f : Fld) (i j : Nat) : (s.inc f i j).activeSlot = s.activeSlot := rfl
@[simp] theorem State.inc_pendingSlot (f : Fld) (i j : Nat) : (s.inc f i j).pendingSlot = s.pendingSlot := rfl
@[simp] theorem State.inc_running (f : Fld) (i j : Nat) : (s.inc f i j).running = s.running := rfl
@[simp] theorem State.inc_runFrom (f : Fld) (i j : Nat) : (s.inc f i j).runFrom = s.runFrom := rfl
@[simp] theorem State.inc_switch (f : Fld) (i j : Nat) : (s.inc f i j).switch = s.switch := rfl
@[simp] theorem State.inc_fuses (f : Fld) (i j : Nat) : (s.inc f i j).fuses = s.fuses := rfl
@[simp] theorem State.inc_fuseBox (f : Fld) (i j : Nat) : (s.inc f i j).fuseBox = s.fuseBox := rfl
@[simp] theorem State.inc_auth (f : Fld) (i j : Nat) : (s.inc f i j).auth = s.auth := rfl
@[simp] theorem State.inc_wrapKey (f : Fld) (i j : Nat) : (s.inc f i j).wrapKey = s.wrapKey := rfl
@[simp] theorem State.inc_keyCounter (f : Fld) (i j : Nat) : (s.inc f i j).keyCounter = s.keyCounter := rfl
@[simp] theorem State.inc_ksFlash (f : Fld) (i j : Nat) : (s.inc f i j).ksFlash = s.ksFlash := rfl
@[simp] theorem State.inc_challenge (f : Fld) (i j : Nat) : (s.inc f i j).challenge = s.challenge := rfl
@[simp] theorem State.inc_dbgFrom (f : Fld) (i j : Nat) : (s.inc f i j).dbgFrom = s.dbgFrom := rfl
@[simp] theorem State.inc_repair (f : Fld) (i j : Nat) : (s.inc f i j).repair = s.repair := rfl
@[simp] theorem State.inc_repairAt (f : Fld) (i j : Nat) : (s.inc f i j).repairAt = s.repairAt := rfl
@[simp] theorem State.inc_bist (f : Fld) (i j : Nat) : (s.inc f i j).bist = s.bist := rfl
@[simp] theorem State.inc_boot (f : Fld) (i j : Nat) : (s.inc f i j).boot = s.boot := rfl
@[simp] theorem State.inc_ptp (f : Fld) (i j : Nat) : (s.inc f i j).ptp = s.ptp := rfl
@[simp] theorem State.inc_plbs (f : Fld) (i j : Nat) : (s.inc f i j).plbs = s.plbs := rfl
@[simp] theorem State.inc_srcs (f : Fld) (i j : Nat) : (s.inc f i j).srcs = s.srcs := rfl
@[simp] theorem State.inc_hintBad (f : Fld) (i j : Nat) : (s.inc f i j).hintBad = s.hintBad := rfl
@[simp] theorem State.inc_odoSamp (f : Fld) (i j : Nat) : (s.inc f i j).odoSamp = s.odoSamp := rfl
@[simp] theorem State.inc_posDiff (f : Fld) (i j : Nat) : (s.inc f i j).posDiff = s.posDiff := rfl
@[simp] theorem State.inc_rowCe (f : Fld) (i j : Nat) : (s.inc f i j).rowCe = s.rowCe := rfl
@[simp] theorem State.inc_pageCe (f : Fld) (i j : Nat) : (s.inc f i j).pageCe = s.pageCe := rfl
@[simp] theorem State.inc_pageUe (f : Fld) (i j : Nat) : (s.inc f i j).pageUe = s.pageUe := rfl
@[simp] theorem State.inc_octPages (f : Fld) (i j : Nat) : (s.inc f i j).octPages = s.octPages := rfl
@[simp] theorem State.inc_rowsDue (f : Fld) (i j : Nat) : (s.inc f i j).rowsDue = s.rowsDue := rfl
@[simp] theorem State.inc_scrubAt (f : Fld) (i j : Nat) : (s.inc f i j).scrubAt = s.scrubAt := rfl
@[simp] theorem State.inc_substCopied (f : Fld) (i j : Nat) : (s.inc f i j).substCopied = s.substCopied := rfl
@[simp] theorem State.inc_pagesOut (f : Fld) (i j : Nat) : (s.inc f i j).pagesOut = s.pagesOut := rfl
@[simp] theorem State.inc_netPeer (f : Fld) (i j : Nat) : (s.inc f i j).netPeer = s.netPeer := rfl

@[simp] theorem State.addWrap_pending (f : Fld) (n i j : Nat) : (s.addWrap f n i j).pending = s.pending := rfl
@[simp] theorem State.addWrap_now (f : Fld) (n i j : Nat) : (s.addWrap f n i j).now = s.now := rfl
@[simp] theorem State.addWrap_aonNs (f : Fld) (n i j : Nat) : (s.addWrap f n i j).aonNs = s.aonNs := rfl
@[simp] theorem State.addWrap_freeCtr (f : Fld) (n i j : Nat) : (s.addWrap f n i j).freeCtr = s.freeCtr := rfl
@[simp] theorem State.addWrap_out (f : Fld) (n i j : Nat) : (s.addWrap f n i j).out = s.out := rfl
@[simp] theorem State.addWrap_latch (f : Fld) (n i j : Nat) : (s.addWrap f n i j).latch = s.latch := rfl
@[simp] theorem State.addWrap_stage (f : Fld) (n i j : Nat) : (s.addWrap f n i j).stage = s.stage := rfl
@[simp] theorem State.addWrap_log (f : Fld) (n i j : Nat) : (s.addWrap f n i j).log = s.log := rfl
@[simp] theorem State.addWrap_logNext (f : Fld) (n i j : Nat) : (s.addWrap f n i j).logNext = s.logNext := rfl
@[simp] theorem State.addWrap_logLost (f : Fld) (n i j : Nat) : (s.addWrap f n i j).logLost = s.logLost := rfl
@[simp] theorem State.addWrap_mirror (f : Fld) (n i j : Nat) : (s.addWrap f n i j).mirror = s.mirror := rfl
@[simp] theorem State.addWrap_twoByEight (f : Fld) (n i j : Nat) : (s.addWrap f n i j).twoByEight = s.twoByEight := rfl
@[simp] theorem State.addWrap_queues (f : Fld) (n i j : Nat) : (s.addWrap f n i j).queues = s.queues := rfl
@[simp] theorem State.addWrap_netFifo (f : Fld) (n i j : Nat) : (s.addWrap f n i j).netFifo = s.netFifo := rfl
@[simp] theorem State.addWrap_netOut (f : Fld) (n i j : Nat) : (s.addWrap f n i j).netOut = s.netOut := rfl
@[simp] theorem State.addWrap_mcFifo (f : Fld) (n i j : Nat) : (s.addWrap f n i j).mcFifo = s.mcFifo := rfl
@[simp] theorem State.addWrap_mcRun (f : Fld) (n i j : Nat) : (s.addWrap f n i j).mcRun = s.mcRun := rfl
@[simp] theorem State.addWrap_origins (f : Fld) (n i j : Nat) : (s.addWrap f n i j).origins = s.origins := rfl
@[simp] theorem State.addWrap_rings (f : Fld) (n i j : Nat) : (s.addWrap f n i j).rings = s.rings := rfl
@[simp] theorem State.addWrap_waiters (f : Fld) (n i j : Nat) : (s.addWrap f n i j).waiters = s.waiters := rfl
@[simp] theorem State.addWrap_pulses (f : Fld) (n i j : Nat) : (s.addWrap f n i j).pulses = s.pulses := rfl
@[simp] theorem State.addWrap_way (f : Fld) (n i j : Nat) : (s.addWrap f n i j).way = s.way := rfl
@[simp] theorem State.addWrap_txs (f : Fld) (n i j : Nat) : (s.addWrap f n i j).txs = s.txs := rfl
@[simp] theorem State.addWrap_ents (f : Fld) (n i j : Nat) : (s.addWrap f n i j).ents = s.ents := rfl
@[simp] theorem State.addWrap_orderNext (f : Fld) (n i j : Nat) : (s.addWrap f n i j).orderNext = s.orderNext := rfl
@[simp] theorem State.addWrap_coords (f : Fld) (n i j : Nat) : (s.addWrap f n i j).coords = s.coords := rfl
@[simp] theorem State.addWrap_depot (f : Fld) (n i j : Nat) : (s.addWrap f n i j).depot = s.depot := rfl
@[simp] theorem State.addWrap_depotPoison (f : Fld) (n i j : Nat) : (s.addWrap f n i j).depotPoison = s.depotPoison := rfl
@[simp] theorem State.addWrap_dma (f : Fld) (n i j : Nat) : (s.addWrap f n i j).dma = s.dma := rfl
@[simp] theorem State.addWrap_lanes (f : Fld) (n i j : Nat) : (s.addWrap f n i j).lanes = s.lanes := rfl
@[simp] theorem State.addWrap_tmrBase (f : Fld) (n i j : Nat) : (s.addWrap f n i j).tmrBase = s.tmrBase := rfl
@[simp] theorem State.addWrap_tiles (f : Fld) (n i j : Nat) : (s.addWrap f n i j).tiles = s.tiles := rfl
@[simp] theorem State.addWrap_busNext (f : Fld) (n i j : Nat) : (s.addWrap f n i j).busNext = s.busNext := rfl
@[simp] theorem State.addWrap_slots (f : Fld) (n i j : Nat) : (s.addWrap f n i j).slots = s.slots := rfl
@[simp] theorem State.addWrap_engines (f : Fld) (n i j : Nat) : (s.addWrap f n i j).engines = s.engines := rfl
@[simp] theorem State.addWrap_pmap (f : Fld) (n i j : Nat) : (s.addWrap f n i j).pmap = s.pmap := rfl
@[simp] theorem State.addWrap_hbm (f : Fld) (n i j : Nat) : (s.addWrap f n i j).hbm = s.hbm := rfl
@[simp] theorem State.addWrap_hbmPoison (f : Fld) (n i j : Nat) : (s.addWrap f n i j).hbmPoison = s.hbmPoison := rfl
@[simp] theorem State.addWrap_arrFly (f : Fld) (n i j : Nat) : (s.addWrap f n i j).arrFly = s.arrFly := rfl
@[simp] theorem State.addWrap_arrSent (f : Fld) (n i j : Nat) : (s.addWrap f n i j).arrSent = s.arrSent := rfl
@[simp] theorem State.addWrap_arrRecv (f : Fld) (n i j : Nat) : (s.addWrap f n i j).arrRecv = s.arrRecv := rfl
@[simp] theorem State.addWrap_arrMs (f : Fld) (n i j : Nat) : (s.addWrap f n i j).arrMs = s.arrMs := rfl
@[simp] theorem State.addWrap_keys (f : Fld) (n i j : Nat) : (s.addWrap f n i j).keys = s.keys := rfl
@[simp] theorem State.addWrap_keyMask (f : Fld) (n i j : Nat) : (s.addWrap f n i j).keyMask = s.keyMask := rfl
@[simp] theorem State.addWrap_keyFresh (f : Fld) (n i j : Nat) : (s.addWrap f n i j).keyFresh = s.keyFresh := rfl
@[simp] theorem State.addWrap_arp (f : Fld) (n i j : Nat) : (s.addWrap f n i j).arp = s.arp := rfl
@[simp] theorem State.addWrap_rs (f : Fld) (n i j : Nat) : (s.addWrap f n i j).rs = s.rs := rfl
@[simp] theorem State.addWrap_links (f : Fld) (n i j : Nat) : (s.addWrap f n i j).links = s.links := rfl
@[simp] theorem State.addWrap_conns (f : Fld) (n i j : Nat) : (s.addWrap f n i j).conns = s.conns := rfl
@[simp] theorem State.addWrap_odos (f : Fld) (n i j : Nat) : (s.addWrap f n i j).odos = s.odos := rfl
@[simp] theorem State.addWrap_gens (f : Fld) (n i j : Nat) : (s.addWrap f n i j).gens = s.gens := rfl
@[simp] theorem State.addWrap_segBase (f : Fld) (n i j : Nat) : (s.addWrap f n i j).segBase = s.segBase := rfl
@[simp] theorem State.addWrap_segLine (f : Fld) (n i j : Nat) : (s.addWrap f n i j).segLine = s.segLine := rfl
@[simp] theorem State.addWrap_segB (f : Fld) (n i j : Nat) : (s.addWrap f n i j).segB = s.segB := rfl
@[simp] theorem State.addWrap_segOld (f : Fld) (n i j : Nat) : (s.addWrap f n i j).segOld = s.segOld := rfl
@[simp] theorem State.addWrap_refs (f : Fld) (n i j : Nat) : (s.addWrap f n i j).refs = s.refs := rfl
@[simp] theorem State.addWrap_noiseBase (f : Fld) (n i j : Nat) : (s.addWrap f n i j).noiseBase = s.noiseBase := rfl
@[simp] theorem State.addWrap_refTab (f : Fld) (n i j : Nat) : (s.addWrap f n i j).refTab = s.refTab := rfl
@[simp] theorem State.addWrap_refBad (f : Fld) (n i j : Nat) : (s.addWrap f n i j).refBad = s.refBad := rfl
@[simp] theorem State.addWrap_crews (f : Fld) (n i j : Nat) : (s.addWrap f n i j).crews = s.crews := rfl
@[simp] theorem State.addWrap_substTag (f : Fld) (n i j : Nat) : (s.addWrap f n i j).substTag = s.substTag := rfl
@[simp] theorem State.addWrap_exports (f : Fld) (n i j : Nat) : (s.addWrap f n i j).exports = s.exports := rfl
@[simp] theorem State.addWrap_jcts (f : Fld) (n i j : Nat) : (s.addWrap f n i j).jcts = s.jcts := rfl
@[simp] theorem State.addWrap_ctlLost (f : Fld) (n i j : Nat) : (s.addWrap f n i j).ctlLost = s.ctlLost := rfl
@[simp] theorem State.addWrap_banks (f : Fld) (n i j : Nat) : (s.addWrap f n i j).banks = s.banks := rfl
@[simp] theorem State.addWrap_unitBank (f : Fld) (n i j : Nat) : (s.addWrap f n i j).unitBank = s.unitBank := rfl
@[simp] theorem State.addWrap_markers (f : Fld) (n i j : Nat) : (s.addWrap f n i j).markers = s.markers := rfl
@[simp] theorem State.addWrap_bankFault (f : Fld) (n i j : Nat) : (s.addWrap f n i j).bankFault = s.bankFault := rfl
@[simp] theorem State.addWrap_wayBad (f : Fld) (n i j : Nat) : (s.addWrap f n i j).wayBad = s.wayBad := rfl
@[simp] theorem State.addWrap_svc (f : Fld) (n i j : Nat) : (s.addWrap f n i j).svc = s.svc := rfl
@[simp] theorem State.addWrap_catTask (f : Fld) (n i j : Nat) : (s.addWrap f n i j).catTask = s.catTask := rfl
@[simp] theorem State.addWrap_catHost (f : Fld) (n i j : Nat) : (s.addWrap f n i j).catHost = s.catHost := rfl
@[simp] theorem State.addWrap_catRun (f : Fld) (n i j : Nat) : (s.addWrap f n i j).catRun = s.catRun := rfl
@[simp] theorem State.addWrap_catTurn (f : Fld) (n i j : Nat) : (s.addWrap f n i j).catTurn = s.catTurn := rfl
@[simp] theorem State.addWrap_tollHigh (f : Fld) (n i j : Nat) : (s.addWrap f n i j).tollHigh = s.tollHigh := rfl
@[simp] theorem State.addWrap_tollNorm (f : Fld) (n i j : Nat) : (s.addWrap f n i j).tollNorm = s.tollNorm := rfl
@[simp] theorem State.addWrap_cols (f : Fld) (n i j : Nat) : (s.addWrap f n i j).cols = s.cols := rfl
@[simp] theorem State.addWrap_seq (f : Fld) (n i j : Nat) : (s.addWrap f n i j).seq = s.seq := rfl
@[simp] theorem State.addWrap_railsOffN (f : Fld) (n i j : Nat) : (s.addWrap f n i j).railsOffN = s.railsOffN := rfl
@[simp] theorem State.addWrap_thermtripN (f : Fld) (n i j : Nat) : (s.addWrap f n i j).thermtripN = s.thermtripN := rfl
@[simp] theorem State.addWrap_pcieWakeN (f : Fld) (n i j : Nat) : (s.addWrap f n i j).pcieWakeN = s.pcieWakeN := rfl
@[simp] theorem State.addWrap_cal (f : Fld) (n i j : Nat) : (s.addWrap f n i j).cal = s.cal := rfl
@[simp] theorem State.addWrap_calRuns (f : Fld) (n i j : Nat) : (s.addWrap f n i j).calRuns = s.calRuns := rfl
@[simp] theorem State.addWrap_calCmds (f : Fld) (n i j : Nat) : (s.addWrap f n i j).calCmds = s.calCmds := rfl
@[simp] theorem State.addWrap_calFlash (f : Fld) (n i j : Nat) : (s.addWrap f n i j).calFlash = s.calFlash := rfl
@[simp] theorem State.addWrap_calMoved (f : Fld) (n i j : Nat) : (s.addWrap f n i j).calMoved = s.calMoved := rfl
@[simp] theorem State.addWrap_calWrote (f : Fld) (n i j : Nat) : (s.addWrap f n i j).calWrote = s.calWrote := rfl
@[simp] theorem State.addWrap_pairFault (f : Fld) (n i j : Nat) : (s.addWrap f n i j).pairFault = s.pairFault := rfl
@[simp] theorem State.addWrap_pairTry (f : Fld) (n i j : Nat) : (s.addWrap f n i j).pairTry = s.pairTry := rfl
@[simp] theorem State.addWrap_bsOver (f : Fld) (n i j : Nat) : (s.addWrap f n i j).bsOver = s.bsOver := rfl
@[simp] theorem State.addWrap_policy (f : Fld) (n i j : Nat) : (s.addWrap f n i j).policy = s.policy := rfl
@[simp] theorem State.addWrap_fwSlots (f : Fld) (n i j : Nat) : (s.addWrap f n i j).fwSlots = s.fwSlots := rfl
@[simp] theorem State.addWrap_activeSlot (f : Fld) (n i j : Nat) : (s.addWrap f n i j).activeSlot = s.activeSlot := rfl
@[simp] theorem State.addWrap_pendingSlot (f : Fld) (n i j : Nat) : (s.addWrap f n i j).pendingSlot = s.pendingSlot := rfl
@[simp] theorem State.addWrap_running (f : Fld) (n i j : Nat) : (s.addWrap f n i j).running = s.running := rfl
@[simp] theorem State.addWrap_runFrom (f : Fld) (n i j : Nat) : (s.addWrap f n i j).runFrom = s.runFrom := rfl
@[simp] theorem State.addWrap_switch (f : Fld) (n i j : Nat) : (s.addWrap f n i j).switch = s.switch := rfl
@[simp] theorem State.addWrap_fuses (f : Fld) (n i j : Nat) : (s.addWrap f n i j).fuses = s.fuses := rfl
@[simp] theorem State.addWrap_fuseBox (f : Fld) (n i j : Nat) : (s.addWrap f n i j).fuseBox = s.fuseBox := rfl
@[simp] theorem State.addWrap_auth (f : Fld) (n i j : Nat) : (s.addWrap f n i j).auth = s.auth := rfl
@[simp] theorem State.addWrap_wrapKey (f : Fld) (n i j : Nat) : (s.addWrap f n i j).wrapKey = s.wrapKey := rfl
@[simp] theorem State.addWrap_keyCounter (f : Fld) (n i j : Nat) : (s.addWrap f n i j).keyCounter = s.keyCounter := rfl
@[simp] theorem State.addWrap_ksFlash (f : Fld) (n i j : Nat) : (s.addWrap f n i j).ksFlash = s.ksFlash := rfl
@[simp] theorem State.addWrap_challenge (f : Fld) (n i j : Nat) : (s.addWrap f n i j).challenge = s.challenge := rfl
@[simp] theorem State.addWrap_dbgFrom (f : Fld) (n i j : Nat) : (s.addWrap f n i j).dbgFrom = s.dbgFrom := rfl
@[simp] theorem State.addWrap_repair (f : Fld) (n i j : Nat) : (s.addWrap f n i j).repair = s.repair := rfl
@[simp] theorem State.addWrap_repairAt (f : Fld) (n i j : Nat) : (s.addWrap f n i j).repairAt = s.repairAt := rfl
@[simp] theorem State.addWrap_bist (f : Fld) (n i j : Nat) : (s.addWrap f n i j).bist = s.bist := rfl
@[simp] theorem State.addWrap_boot (f : Fld) (n i j : Nat) : (s.addWrap f n i j).boot = s.boot := rfl
@[simp] theorem State.addWrap_ptp (f : Fld) (n i j : Nat) : (s.addWrap f n i j).ptp = s.ptp := rfl
@[simp] theorem State.addWrap_plbs (f : Fld) (n i j : Nat) : (s.addWrap f n i j).plbs = s.plbs := rfl
@[simp] theorem State.addWrap_srcs (f : Fld) (n i j : Nat) : (s.addWrap f n i j).srcs = s.srcs := rfl
@[simp] theorem State.addWrap_hintBad (f : Fld) (n i j : Nat) : (s.addWrap f n i j).hintBad = s.hintBad := rfl
@[simp] theorem State.addWrap_odoSamp (f : Fld) (n i j : Nat) : (s.addWrap f n i j).odoSamp = s.odoSamp := rfl
@[simp] theorem State.addWrap_posDiff (f : Fld) (n i j : Nat) : (s.addWrap f n i j).posDiff = s.posDiff := rfl
@[simp] theorem State.addWrap_rowCe (f : Fld) (n i j : Nat) : (s.addWrap f n i j).rowCe = s.rowCe := rfl
@[simp] theorem State.addWrap_pageCe (f : Fld) (n i j : Nat) : (s.addWrap f n i j).pageCe = s.pageCe := rfl
@[simp] theorem State.addWrap_pageUe (f : Fld) (n i j : Nat) : (s.addWrap f n i j).pageUe = s.pageUe := rfl
@[simp] theorem State.addWrap_octPages (f : Fld) (n i j : Nat) : (s.addWrap f n i j).octPages = s.octPages := rfl
@[simp] theorem State.addWrap_rowsDue (f : Fld) (n i j : Nat) : (s.addWrap f n i j).rowsDue = s.rowsDue := rfl
@[simp] theorem State.addWrap_scrubAt (f : Fld) (n i j : Nat) : (s.addWrap f n i j).scrubAt = s.scrubAt := rfl
@[simp] theorem State.addWrap_substCopied (f : Fld) (n i j : Nat) : (s.addWrap f n i j).substCopied = s.substCopied := rfl
@[simp] theorem State.addWrap_pagesOut (f : Fld) (n i j : Nat) : (s.addWrap f n i j).pagesOut = s.pagesOut := rfl
@[simp] theorem State.addWrap_netPeer (f : Fld) (n i j : Nat) : (s.addWrap f n i j).netPeer = s.netPeer := rfl

@[simp] theorem State.tick_pending (dt : Nat) : (s.tick dt).pending = s.pending := rfl
@[simp] theorem State.tick_freeCtr (dt : Nat) : (s.tick dt).freeCtr = s.freeCtr := rfl
@[simp] theorem State.tick_out (dt : Nat) : (s.tick dt).out = s.out := rfl
@[simp] theorem State.tick_regs (dt : Nat) : (s.tick dt).regs = s.regs := rfl
@[simp] theorem State.tick_latch (dt : Nat) : (s.tick dt).latch = s.latch := rfl
@[simp] theorem State.tick_stage (dt : Nat) : (s.tick dt).stage = s.stage := rfl
@[simp] theorem State.tick_log (dt : Nat) : (s.tick dt).log = s.log := rfl
@[simp] theorem State.tick_logNext (dt : Nat) : (s.tick dt).logNext = s.logNext := rfl
@[simp] theorem State.tick_logLost (dt : Nat) : (s.tick dt).logLost = s.logLost := rfl
@[simp] theorem State.tick_mirror (dt : Nat) : (s.tick dt).mirror = s.mirror := rfl
@[simp] theorem State.tick_twoByEight (dt : Nat) : (s.tick dt).twoByEight = s.twoByEight := rfl
@[simp] theorem State.tick_queues (dt : Nat) : (s.tick dt).queues = s.queues := rfl
@[simp] theorem State.tick_netFifo (dt : Nat) : (s.tick dt).netFifo = s.netFifo := rfl
@[simp] theorem State.tick_netOut (dt : Nat) : (s.tick dt).netOut = s.netOut := rfl
@[simp] theorem State.tick_mcFifo (dt : Nat) : (s.tick dt).mcFifo = s.mcFifo := rfl
@[simp] theorem State.tick_mcRun (dt : Nat) : (s.tick dt).mcRun = s.mcRun := rfl
@[simp] theorem State.tick_origins (dt : Nat) : (s.tick dt).origins = s.origins := rfl
@[simp] theorem State.tick_rings (dt : Nat) : (s.tick dt).rings = s.rings := rfl
@[simp] theorem State.tick_waiters (dt : Nat) : (s.tick dt).waiters = s.waiters := rfl
@[simp] theorem State.tick_pulses (dt : Nat) : (s.tick dt).pulses = s.pulses := rfl
@[simp] theorem State.tick_way (dt : Nat) : (s.tick dt).way = s.way := rfl
@[simp] theorem State.tick_txs (dt : Nat) : (s.tick dt).txs = s.txs := rfl
@[simp] theorem State.tick_ents (dt : Nat) : (s.tick dt).ents = s.ents := rfl
@[simp] theorem State.tick_orderNext (dt : Nat) : (s.tick dt).orderNext = s.orderNext := rfl
@[simp] theorem State.tick_coords (dt : Nat) : (s.tick dt).coords = s.coords := rfl
@[simp] theorem State.tick_depot (dt : Nat) : (s.tick dt).depot = s.depot := rfl
@[simp] theorem State.tick_depotPoison (dt : Nat) : (s.tick dt).depotPoison = s.depotPoison := rfl
@[simp] theorem State.tick_dma (dt : Nat) : (s.tick dt).dma = s.dma := rfl
@[simp] theorem State.tick_lanes (dt : Nat) : (s.tick dt).lanes = s.lanes := rfl
@[simp] theorem State.tick_tmrBase (dt : Nat) : (s.tick dt).tmrBase = s.tmrBase := rfl
@[simp] theorem State.tick_tiles (dt : Nat) : (s.tick dt).tiles = s.tiles := rfl
@[simp] theorem State.tick_busNext (dt : Nat) : (s.tick dt).busNext = s.busNext := rfl
@[simp] theorem State.tick_slots (dt : Nat) : (s.tick dt).slots = s.slots := rfl
@[simp] theorem State.tick_engines (dt : Nat) : (s.tick dt).engines = s.engines := rfl
@[simp] theorem State.tick_pmap (dt : Nat) : (s.tick dt).pmap = s.pmap := rfl
@[simp] theorem State.tick_hbm (dt : Nat) : (s.tick dt).hbm = s.hbm := rfl
@[simp] theorem State.tick_hbmPoison (dt : Nat) : (s.tick dt).hbmPoison = s.hbmPoison := rfl
@[simp] theorem State.tick_arrFly (dt : Nat) : (s.tick dt).arrFly = s.arrFly := rfl
@[simp] theorem State.tick_arrSent (dt : Nat) : (s.tick dt).arrSent = s.arrSent := rfl
@[simp] theorem State.tick_arrRecv (dt : Nat) : (s.tick dt).arrRecv = s.arrRecv := rfl
@[simp] theorem State.tick_arrMs (dt : Nat) : (s.tick dt).arrMs = s.arrMs := rfl
@[simp] theorem State.tick_keys (dt : Nat) : (s.tick dt).keys = s.keys := rfl
@[simp] theorem State.tick_keyMask (dt : Nat) : (s.tick dt).keyMask = s.keyMask := rfl
@[simp] theorem State.tick_keyFresh (dt : Nat) : (s.tick dt).keyFresh = s.keyFresh := rfl
@[simp] theorem State.tick_arp (dt : Nat) : (s.tick dt).arp = s.arp := rfl
@[simp] theorem State.tick_rs (dt : Nat) : (s.tick dt).rs = s.rs := rfl
@[simp] theorem State.tick_links (dt : Nat) : (s.tick dt).links = s.links := rfl
@[simp] theorem State.tick_conns (dt : Nat) : (s.tick dt).conns = s.conns := rfl
@[simp] theorem State.tick_odos (dt : Nat) : (s.tick dt).odos = s.odos := rfl
@[simp] theorem State.tick_gens (dt : Nat) : (s.tick dt).gens = s.gens := rfl
@[simp] theorem State.tick_segBase (dt : Nat) : (s.tick dt).segBase = s.segBase := rfl
@[simp] theorem State.tick_segLine (dt : Nat) : (s.tick dt).segLine = s.segLine := rfl
@[simp] theorem State.tick_segB (dt : Nat) : (s.tick dt).segB = s.segB := rfl
@[simp] theorem State.tick_segOld (dt : Nat) : (s.tick dt).segOld = s.segOld := rfl
@[simp] theorem State.tick_refs (dt : Nat) : (s.tick dt).refs = s.refs := rfl
@[simp] theorem State.tick_noiseBase (dt : Nat) : (s.tick dt).noiseBase = s.noiseBase := rfl
@[simp] theorem State.tick_refTab (dt : Nat) : (s.tick dt).refTab = s.refTab := rfl
@[simp] theorem State.tick_refBad (dt : Nat) : (s.tick dt).refBad = s.refBad := rfl
@[simp] theorem State.tick_crews (dt : Nat) : (s.tick dt).crews = s.crews := rfl
@[simp] theorem State.tick_substTag (dt : Nat) : (s.tick dt).substTag = s.substTag := rfl
@[simp] theorem State.tick_exports (dt : Nat) : (s.tick dt).exports = s.exports := rfl
@[simp] theorem State.tick_jcts (dt : Nat) : (s.tick dt).jcts = s.jcts := rfl
@[simp] theorem State.tick_ctlLost (dt : Nat) : (s.tick dt).ctlLost = s.ctlLost := rfl
@[simp] theorem State.tick_banks (dt : Nat) : (s.tick dt).banks = s.banks := rfl
@[simp] theorem State.tick_unitBank (dt : Nat) : (s.tick dt).unitBank = s.unitBank := rfl
@[simp] theorem State.tick_markers (dt : Nat) : (s.tick dt).markers = s.markers := rfl
@[simp] theorem State.tick_bankFault (dt : Nat) : (s.tick dt).bankFault = s.bankFault := rfl
@[simp] theorem State.tick_wayBad (dt : Nat) : (s.tick dt).wayBad = s.wayBad := rfl
@[simp] theorem State.tick_svc (dt : Nat) : (s.tick dt).svc = s.svc := rfl
@[simp] theorem State.tick_catTask (dt : Nat) : (s.tick dt).catTask = s.catTask := rfl
@[simp] theorem State.tick_catHost (dt : Nat) : (s.tick dt).catHost = s.catHost := rfl
@[simp] theorem State.tick_catRun (dt : Nat) : (s.tick dt).catRun = s.catRun := rfl
@[simp] theorem State.tick_catTurn (dt : Nat) : (s.tick dt).catTurn = s.catTurn := rfl
@[simp] theorem State.tick_tollHigh (dt : Nat) : (s.tick dt).tollHigh = s.tollHigh := rfl
@[simp] theorem State.tick_tollNorm (dt : Nat) : (s.tick dt).tollNorm = s.tollNorm := rfl
@[simp] theorem State.tick_cols (dt : Nat) : (s.tick dt).cols = s.cols := rfl
@[simp] theorem State.tick_seq (dt : Nat) : (s.tick dt).seq = s.seq := rfl
@[simp] theorem State.tick_railsOffN (dt : Nat) : (s.tick dt).railsOffN = s.railsOffN := rfl
@[simp] theorem State.tick_thermtripN (dt : Nat) : (s.tick dt).thermtripN = s.thermtripN := rfl
@[simp] theorem State.tick_pcieWakeN (dt : Nat) : (s.tick dt).pcieWakeN = s.pcieWakeN := rfl
@[simp] theorem State.tick_cal (dt : Nat) : (s.tick dt).cal = s.cal := rfl
@[simp] theorem State.tick_calRuns (dt : Nat) : (s.tick dt).calRuns = s.calRuns := rfl
@[simp] theorem State.tick_calCmds (dt : Nat) : (s.tick dt).calCmds = s.calCmds := rfl
@[simp] theorem State.tick_calFlash (dt : Nat) : (s.tick dt).calFlash = s.calFlash := rfl
@[simp] theorem State.tick_calMoved (dt : Nat) : (s.tick dt).calMoved = s.calMoved := rfl
@[simp] theorem State.tick_calWrote (dt : Nat) : (s.tick dt).calWrote = s.calWrote := rfl
@[simp] theorem State.tick_pairFault (dt : Nat) : (s.tick dt).pairFault = s.pairFault := rfl
@[simp] theorem State.tick_pairTry (dt : Nat) : (s.tick dt).pairTry = s.pairTry := rfl
@[simp] theorem State.tick_bsOver (dt : Nat) : (s.tick dt).bsOver = s.bsOver := rfl
@[simp] theorem State.tick_policy (dt : Nat) : (s.tick dt).policy = s.policy := rfl
@[simp] theorem State.tick_fwSlots (dt : Nat) : (s.tick dt).fwSlots = s.fwSlots := rfl
@[simp] theorem State.tick_activeSlot (dt : Nat) : (s.tick dt).activeSlot = s.activeSlot := rfl
@[simp] theorem State.tick_pendingSlot (dt : Nat) : (s.tick dt).pendingSlot = s.pendingSlot := rfl
@[simp] theorem State.tick_running (dt : Nat) : (s.tick dt).running = s.running := rfl
@[simp] theorem State.tick_runFrom (dt : Nat) : (s.tick dt).runFrom = s.runFrom := rfl
@[simp] theorem State.tick_switch (dt : Nat) : (s.tick dt).switch = s.switch := rfl
@[simp] theorem State.tick_fuses (dt : Nat) : (s.tick dt).fuses = s.fuses := rfl
@[simp] theorem State.tick_fuseBox (dt : Nat) : (s.tick dt).fuseBox = s.fuseBox := rfl
@[simp] theorem State.tick_auth (dt : Nat) : (s.tick dt).auth = s.auth := rfl
@[simp] theorem State.tick_wrapKey (dt : Nat) : (s.tick dt).wrapKey = s.wrapKey := rfl
@[simp] theorem State.tick_keyCounter (dt : Nat) : (s.tick dt).keyCounter = s.keyCounter := rfl
@[simp] theorem State.tick_ksFlash (dt : Nat) : (s.tick dt).ksFlash = s.ksFlash := rfl
@[simp] theorem State.tick_challenge (dt : Nat) : (s.tick dt).challenge = s.challenge := rfl
@[simp] theorem State.tick_dbgFrom (dt : Nat) : (s.tick dt).dbgFrom = s.dbgFrom := rfl
@[simp] theorem State.tick_repair (dt : Nat) : (s.tick dt).repair = s.repair := rfl
@[simp] theorem State.tick_repairAt (dt : Nat) : (s.tick dt).repairAt = s.repairAt := rfl
@[simp] theorem State.tick_bist (dt : Nat) : (s.tick dt).bist = s.bist := rfl
@[simp] theorem State.tick_boot (dt : Nat) : (s.tick dt).boot = s.boot := rfl
@[simp] theorem State.tick_ptp (dt : Nat) : (s.tick dt).ptp = s.ptp := rfl
@[simp] theorem State.tick_plbs (dt : Nat) : (s.tick dt).plbs = s.plbs := rfl
@[simp] theorem State.tick_srcs (dt : Nat) : (s.tick dt).srcs = s.srcs := rfl
@[simp] theorem State.tick_hintBad (dt : Nat) : (s.tick dt).hintBad = s.hintBad := rfl
@[simp] theorem State.tick_odoSamp (dt : Nat) : (s.tick dt).odoSamp = s.odoSamp := rfl
@[simp] theorem State.tick_posDiff (dt : Nat) : (s.tick dt).posDiff = s.posDiff := rfl
@[simp] theorem State.tick_rowCe (dt : Nat) : (s.tick dt).rowCe = s.rowCe := rfl
@[simp] theorem State.tick_pageCe (dt : Nat) : (s.tick dt).pageCe = s.pageCe := rfl
@[simp] theorem State.tick_pageUe (dt : Nat) : (s.tick dt).pageUe = s.pageUe := rfl
@[simp] theorem State.tick_octPages (dt : Nat) : (s.tick dt).octPages = s.octPages := rfl
@[simp] theorem State.tick_rowsDue (dt : Nat) : (s.tick dt).rowsDue = s.rowsDue := rfl
@[simp] theorem State.tick_scrubAt (dt : Nat) : (s.tick dt).scrubAt = s.scrubAt := rfl
@[simp] theorem State.tick_substCopied (dt : Nat) : (s.tick dt).substCopied = s.substCopied := rfl
@[simp] theorem State.tick_pagesOut (dt : Nat) : (s.tick dt).pagesOut = s.pagesOut := rfl
@[simp] theorem State.tick_netPeer (dt : Nat) : (s.tick dt).netPeer = s.netPeer := rfl

@[simp] theorem State.useFree_pending : (s.useFree).pending = s.pending := rfl
@[simp] theorem State.useFree_now : (s.useFree).now = s.now := rfl
@[simp] theorem State.useFree_aonNs : (s.useFree).aonNs = s.aonNs := rfl
@[simp] theorem State.useFree_out : (s.useFree).out = s.out := rfl
@[simp] theorem State.useFree_regs : (s.useFree).regs = s.regs := rfl
@[simp] theorem State.useFree_latch : (s.useFree).latch = s.latch := rfl
@[simp] theorem State.useFree_stage : (s.useFree).stage = s.stage := rfl
@[simp] theorem State.useFree_log : (s.useFree).log = s.log := rfl
@[simp] theorem State.useFree_logNext : (s.useFree).logNext = s.logNext := rfl
@[simp] theorem State.useFree_logLost : (s.useFree).logLost = s.logLost := rfl
@[simp] theorem State.useFree_mirror : (s.useFree).mirror = s.mirror := rfl
@[simp] theorem State.useFree_twoByEight : (s.useFree).twoByEight = s.twoByEight := rfl
@[simp] theorem State.useFree_queues : (s.useFree).queues = s.queues := rfl
@[simp] theorem State.useFree_netFifo : (s.useFree).netFifo = s.netFifo := rfl
@[simp] theorem State.useFree_netOut : (s.useFree).netOut = s.netOut := rfl
@[simp] theorem State.useFree_mcFifo : (s.useFree).mcFifo = s.mcFifo := rfl
@[simp] theorem State.useFree_mcRun : (s.useFree).mcRun = s.mcRun := rfl
@[simp] theorem State.useFree_origins : (s.useFree).origins = s.origins := rfl
@[simp] theorem State.useFree_rings : (s.useFree).rings = s.rings := rfl
@[simp] theorem State.useFree_waiters : (s.useFree).waiters = s.waiters := rfl
@[simp] theorem State.useFree_pulses : (s.useFree).pulses = s.pulses := rfl
@[simp] theorem State.useFree_way : (s.useFree).way = s.way := rfl
@[simp] theorem State.useFree_txs : (s.useFree).txs = s.txs := rfl
@[simp] theorem State.useFree_ents : (s.useFree).ents = s.ents := rfl
@[simp] theorem State.useFree_orderNext : (s.useFree).orderNext = s.orderNext := rfl
@[simp] theorem State.useFree_coords : (s.useFree).coords = s.coords := rfl
@[simp] theorem State.useFree_depot : (s.useFree).depot = s.depot := rfl
@[simp] theorem State.useFree_depotPoison : (s.useFree).depotPoison = s.depotPoison := rfl
@[simp] theorem State.useFree_dma : (s.useFree).dma = s.dma := rfl
@[simp] theorem State.useFree_lanes : (s.useFree).lanes = s.lanes := rfl
@[simp] theorem State.useFree_tmrBase : (s.useFree).tmrBase = s.tmrBase := rfl
@[simp] theorem State.useFree_tiles : (s.useFree).tiles = s.tiles := rfl
@[simp] theorem State.useFree_busNext : (s.useFree).busNext = s.busNext := rfl
@[simp] theorem State.useFree_slots : (s.useFree).slots = s.slots := rfl
@[simp] theorem State.useFree_engines : (s.useFree).engines = s.engines := rfl
@[simp] theorem State.useFree_pmap : (s.useFree).pmap = s.pmap := rfl
@[simp] theorem State.useFree_hbm : (s.useFree).hbm = s.hbm := rfl
@[simp] theorem State.useFree_hbmPoison : (s.useFree).hbmPoison = s.hbmPoison := rfl
@[simp] theorem State.useFree_arrFly : (s.useFree).arrFly = s.arrFly := rfl
@[simp] theorem State.useFree_arrSent : (s.useFree).arrSent = s.arrSent := rfl
@[simp] theorem State.useFree_arrRecv : (s.useFree).arrRecv = s.arrRecv := rfl
@[simp] theorem State.useFree_arrMs : (s.useFree).arrMs = s.arrMs := rfl
@[simp] theorem State.useFree_keys : (s.useFree).keys = s.keys := rfl
@[simp] theorem State.useFree_keyMask : (s.useFree).keyMask = s.keyMask := rfl
@[simp] theorem State.useFree_keyFresh : (s.useFree).keyFresh = s.keyFresh := rfl
@[simp] theorem State.useFree_arp : (s.useFree).arp = s.arp := rfl
@[simp] theorem State.useFree_rs : (s.useFree).rs = s.rs := rfl
@[simp] theorem State.useFree_links : (s.useFree).links = s.links := rfl
@[simp] theorem State.useFree_conns : (s.useFree).conns = s.conns := rfl
@[simp] theorem State.useFree_odos : (s.useFree).odos = s.odos := rfl
@[simp] theorem State.useFree_gens : (s.useFree).gens = s.gens := rfl
@[simp] theorem State.useFree_segBase : (s.useFree).segBase = s.segBase := rfl
@[simp] theorem State.useFree_segLine : (s.useFree).segLine = s.segLine := rfl
@[simp] theorem State.useFree_segB : (s.useFree).segB = s.segB := rfl
@[simp] theorem State.useFree_segOld : (s.useFree).segOld = s.segOld := rfl
@[simp] theorem State.useFree_refs : (s.useFree).refs = s.refs := rfl
@[simp] theorem State.useFree_noiseBase : (s.useFree).noiseBase = s.noiseBase := rfl
@[simp] theorem State.useFree_refTab : (s.useFree).refTab = s.refTab := rfl
@[simp] theorem State.useFree_refBad : (s.useFree).refBad = s.refBad := rfl
@[simp] theorem State.useFree_crews : (s.useFree).crews = s.crews := rfl
@[simp] theorem State.useFree_substTag : (s.useFree).substTag = s.substTag := rfl
@[simp] theorem State.useFree_exports : (s.useFree).exports = s.exports := rfl
@[simp] theorem State.useFree_jcts : (s.useFree).jcts = s.jcts := rfl
@[simp] theorem State.useFree_ctlLost : (s.useFree).ctlLost = s.ctlLost := rfl
@[simp] theorem State.useFree_banks : (s.useFree).banks = s.banks := rfl
@[simp] theorem State.useFree_unitBank : (s.useFree).unitBank = s.unitBank := rfl
@[simp] theorem State.useFree_markers : (s.useFree).markers = s.markers := rfl
@[simp] theorem State.useFree_bankFault : (s.useFree).bankFault = s.bankFault := rfl
@[simp] theorem State.useFree_wayBad : (s.useFree).wayBad = s.wayBad := rfl
@[simp] theorem State.useFree_svc : (s.useFree).svc = s.svc := rfl
@[simp] theorem State.useFree_catTask : (s.useFree).catTask = s.catTask := rfl
@[simp] theorem State.useFree_catHost : (s.useFree).catHost = s.catHost := rfl
@[simp] theorem State.useFree_catRun : (s.useFree).catRun = s.catRun := rfl
@[simp] theorem State.useFree_catTurn : (s.useFree).catTurn = s.catTurn := rfl
@[simp] theorem State.useFree_tollHigh : (s.useFree).tollHigh = s.tollHigh := rfl
@[simp] theorem State.useFree_tollNorm : (s.useFree).tollNorm = s.tollNorm := rfl
@[simp] theorem State.useFree_cols : (s.useFree).cols = s.cols := rfl
@[simp] theorem State.useFree_seq : (s.useFree).seq = s.seq := rfl
@[simp] theorem State.useFree_railsOffN : (s.useFree).railsOffN = s.railsOffN := rfl
@[simp] theorem State.useFree_thermtripN : (s.useFree).thermtripN = s.thermtripN := rfl
@[simp] theorem State.useFree_pcieWakeN : (s.useFree).pcieWakeN = s.pcieWakeN := rfl
@[simp] theorem State.useFree_cal : (s.useFree).cal = s.cal := rfl
@[simp] theorem State.useFree_calRuns : (s.useFree).calRuns = s.calRuns := rfl
@[simp] theorem State.useFree_calCmds : (s.useFree).calCmds = s.calCmds := rfl
@[simp] theorem State.useFree_calFlash : (s.useFree).calFlash = s.calFlash := rfl
@[simp] theorem State.useFree_calMoved : (s.useFree).calMoved = s.calMoved := rfl
@[simp] theorem State.useFree_calWrote : (s.useFree).calWrote = s.calWrote := rfl
@[simp] theorem State.useFree_pairFault : (s.useFree).pairFault = s.pairFault := rfl
@[simp] theorem State.useFree_pairTry : (s.useFree).pairTry = s.pairTry := rfl
@[simp] theorem State.useFree_bsOver : (s.useFree).bsOver = s.bsOver := rfl
@[simp] theorem State.useFree_policy : (s.useFree).policy = s.policy := rfl
@[simp] theorem State.useFree_fwSlots : (s.useFree).fwSlots = s.fwSlots := rfl
@[simp] theorem State.useFree_activeSlot : (s.useFree).activeSlot = s.activeSlot := rfl
@[simp] theorem State.useFree_pendingSlot : (s.useFree).pendingSlot = s.pendingSlot := rfl
@[simp] theorem State.useFree_running : (s.useFree).running = s.running := rfl
@[simp] theorem State.useFree_runFrom : (s.useFree).runFrom = s.runFrom := rfl
@[simp] theorem State.useFree_switch : (s.useFree).switch = s.switch := rfl
@[simp] theorem State.useFree_fuses : (s.useFree).fuses = s.fuses := rfl
@[simp] theorem State.useFree_fuseBox : (s.useFree).fuseBox = s.fuseBox := rfl
@[simp] theorem State.useFree_auth : (s.useFree).auth = s.auth := rfl
@[simp] theorem State.useFree_wrapKey : (s.useFree).wrapKey = s.wrapKey := rfl
@[simp] theorem State.useFree_keyCounter : (s.useFree).keyCounter = s.keyCounter := rfl
@[simp] theorem State.useFree_ksFlash : (s.useFree).ksFlash = s.ksFlash := rfl
@[simp] theorem State.useFree_challenge : (s.useFree).challenge = s.challenge := rfl
@[simp] theorem State.useFree_dbgFrom : (s.useFree).dbgFrom = s.dbgFrom := rfl
@[simp] theorem State.useFree_repair : (s.useFree).repair = s.repair := rfl
@[simp] theorem State.useFree_repairAt : (s.useFree).repairAt = s.repairAt := rfl
@[simp] theorem State.useFree_bist : (s.useFree).bist = s.bist := rfl
@[simp] theorem State.useFree_boot : (s.useFree).boot = s.boot := rfl
@[simp] theorem State.useFree_ptp : (s.useFree).ptp = s.ptp := rfl
@[simp] theorem State.useFree_plbs : (s.useFree).plbs = s.plbs := rfl
@[simp] theorem State.useFree_srcs : (s.useFree).srcs = s.srcs := rfl
@[simp] theorem State.useFree_hintBad : (s.useFree).hintBad = s.hintBad := rfl
@[simp] theorem State.useFree_odoSamp : (s.useFree).odoSamp = s.odoSamp := rfl
@[simp] theorem State.useFree_posDiff : (s.useFree).posDiff = s.posDiff := rfl
@[simp] theorem State.useFree_rowCe : (s.useFree).rowCe = s.rowCe := rfl
@[simp] theorem State.useFree_pageCe : (s.useFree).pageCe = s.pageCe := rfl
@[simp] theorem State.useFree_pageUe : (s.useFree).pageUe = s.pageUe := rfl
@[simp] theorem State.useFree_octPages : (s.useFree).octPages = s.octPages := rfl
@[simp] theorem State.useFree_rowsDue : (s.useFree).rowsDue = s.rowsDue := rfl
@[simp] theorem State.useFree_scrubAt : (s.useFree).scrubAt = s.scrubAt := rfl
@[simp] theorem State.useFree_substCopied : (s.useFree).substCopied = s.substCopied := rfl
@[simp] theorem State.useFree_pagesOut : (s.useFree).pagesOut = s.pagesOut := rfl
@[simp] theorem State.useFree_netPeer : (s.useFree).netPeer = s.netPeer := rfl

@[simp] theorem State.emit_pending (o : Output) : (s.emit o).pending = s.pending := rfl
@[simp] theorem State.emit_now (o : Output) : (s.emit o).now = s.now := rfl
@[simp] theorem State.emit_aonNs (o : Output) : (s.emit o).aonNs = s.aonNs := rfl
@[simp] theorem State.emit_freeCtr (o : Output) : (s.emit o).freeCtr = s.freeCtr := rfl
@[simp] theorem State.emit_regs (o : Output) : (s.emit o).regs = s.regs := rfl
@[simp] theorem State.emit_latch (o : Output) : (s.emit o).latch = s.latch := rfl
@[simp] theorem State.emit_stage (o : Output) : (s.emit o).stage = s.stage := rfl
@[simp] theorem State.emit_log (o : Output) : (s.emit o).log = s.log := rfl
@[simp] theorem State.emit_logNext (o : Output) : (s.emit o).logNext = s.logNext := rfl
@[simp] theorem State.emit_logLost (o : Output) : (s.emit o).logLost = s.logLost := rfl
@[simp] theorem State.emit_mirror (o : Output) : (s.emit o).mirror = s.mirror := rfl
@[simp] theorem State.emit_twoByEight (o : Output) : (s.emit o).twoByEight = s.twoByEight := rfl
@[simp] theorem State.emit_queues (o : Output) : (s.emit o).queues = s.queues := rfl
@[simp] theorem State.emit_netFifo (o : Output) : (s.emit o).netFifo = s.netFifo := rfl
@[simp] theorem State.emit_netOut (o : Output) : (s.emit o).netOut = s.netOut := rfl
@[simp] theorem State.emit_mcFifo (o : Output) : (s.emit o).mcFifo = s.mcFifo := rfl
@[simp] theorem State.emit_mcRun (o : Output) : (s.emit o).mcRun = s.mcRun := rfl
@[simp] theorem State.emit_origins (o : Output) : (s.emit o).origins = s.origins := rfl
@[simp] theorem State.emit_rings (o : Output) : (s.emit o).rings = s.rings := rfl
@[simp] theorem State.emit_waiters (o : Output) : (s.emit o).waiters = s.waiters := rfl
@[simp] theorem State.emit_pulses (o : Output) : (s.emit o).pulses = s.pulses := rfl
@[simp] theorem State.emit_way (o : Output) : (s.emit o).way = s.way := rfl
@[simp] theorem State.emit_txs (o : Output) : (s.emit o).txs = s.txs := rfl
@[simp] theorem State.emit_ents (o : Output) : (s.emit o).ents = s.ents := rfl
@[simp] theorem State.emit_orderNext (o : Output) : (s.emit o).orderNext = s.orderNext := rfl
@[simp] theorem State.emit_coords (o : Output) : (s.emit o).coords = s.coords := rfl
@[simp] theorem State.emit_depot (o : Output) : (s.emit o).depot = s.depot := rfl
@[simp] theorem State.emit_depotPoison (o : Output) : (s.emit o).depotPoison = s.depotPoison := rfl
@[simp] theorem State.emit_dma (o : Output) : (s.emit o).dma = s.dma := rfl
@[simp] theorem State.emit_lanes (o : Output) : (s.emit o).lanes = s.lanes := rfl
@[simp] theorem State.emit_tmrBase (o : Output) : (s.emit o).tmrBase = s.tmrBase := rfl
@[simp] theorem State.emit_tiles (o : Output) : (s.emit o).tiles = s.tiles := rfl
@[simp] theorem State.emit_busNext (o : Output) : (s.emit o).busNext = s.busNext := rfl
@[simp] theorem State.emit_slots (o : Output) : (s.emit o).slots = s.slots := rfl
@[simp] theorem State.emit_engines (o : Output) : (s.emit o).engines = s.engines := rfl
@[simp] theorem State.emit_pmap (o : Output) : (s.emit o).pmap = s.pmap := rfl
@[simp] theorem State.emit_hbm (o : Output) : (s.emit o).hbm = s.hbm := rfl
@[simp] theorem State.emit_hbmPoison (o : Output) : (s.emit o).hbmPoison = s.hbmPoison := rfl
@[simp] theorem State.emit_arrFly (o : Output) : (s.emit o).arrFly = s.arrFly := rfl
@[simp] theorem State.emit_arrSent (o : Output) : (s.emit o).arrSent = s.arrSent := rfl
@[simp] theorem State.emit_arrRecv (o : Output) : (s.emit o).arrRecv = s.arrRecv := rfl
@[simp] theorem State.emit_arrMs (o : Output) : (s.emit o).arrMs = s.arrMs := rfl
@[simp] theorem State.emit_keys (o : Output) : (s.emit o).keys = s.keys := rfl
@[simp] theorem State.emit_keyMask (o : Output) : (s.emit o).keyMask = s.keyMask := rfl
@[simp] theorem State.emit_keyFresh (o : Output) : (s.emit o).keyFresh = s.keyFresh := rfl
@[simp] theorem State.emit_arp (o : Output) : (s.emit o).arp = s.arp := rfl
@[simp] theorem State.emit_rs (o : Output) : (s.emit o).rs = s.rs := rfl
@[simp] theorem State.emit_links (o : Output) : (s.emit o).links = s.links := rfl
@[simp] theorem State.emit_conns (o : Output) : (s.emit o).conns = s.conns := rfl
@[simp] theorem State.emit_odos (o : Output) : (s.emit o).odos = s.odos := rfl
@[simp] theorem State.emit_gens (o : Output) : (s.emit o).gens = s.gens := rfl
@[simp] theorem State.emit_segBase (o : Output) : (s.emit o).segBase = s.segBase := rfl
@[simp] theorem State.emit_segLine (o : Output) : (s.emit o).segLine = s.segLine := rfl
@[simp] theorem State.emit_segB (o : Output) : (s.emit o).segB = s.segB := rfl
@[simp] theorem State.emit_segOld (o : Output) : (s.emit o).segOld = s.segOld := rfl
@[simp] theorem State.emit_refs (o : Output) : (s.emit o).refs = s.refs := rfl
@[simp] theorem State.emit_noiseBase (o : Output) : (s.emit o).noiseBase = s.noiseBase := rfl
@[simp] theorem State.emit_refTab (o : Output) : (s.emit o).refTab = s.refTab := rfl
@[simp] theorem State.emit_refBad (o : Output) : (s.emit o).refBad = s.refBad := rfl
@[simp] theorem State.emit_crews (o : Output) : (s.emit o).crews = s.crews := rfl
@[simp] theorem State.emit_substTag (o : Output) : (s.emit o).substTag = s.substTag := rfl
@[simp] theorem State.emit_exports (o : Output) : (s.emit o).exports = s.exports := rfl
@[simp] theorem State.emit_jcts (o : Output) : (s.emit o).jcts = s.jcts := rfl
@[simp] theorem State.emit_ctlLost (o : Output) : (s.emit o).ctlLost = s.ctlLost := rfl
@[simp] theorem State.emit_banks (o : Output) : (s.emit o).banks = s.banks := rfl
@[simp] theorem State.emit_unitBank (o : Output) : (s.emit o).unitBank = s.unitBank := rfl
@[simp] theorem State.emit_markers (o : Output) : (s.emit o).markers = s.markers := rfl
@[simp] theorem State.emit_bankFault (o : Output) : (s.emit o).bankFault = s.bankFault := rfl
@[simp] theorem State.emit_wayBad (o : Output) : (s.emit o).wayBad = s.wayBad := rfl
@[simp] theorem State.emit_svc (o : Output) : (s.emit o).svc = s.svc := rfl
@[simp] theorem State.emit_catTask (o : Output) : (s.emit o).catTask = s.catTask := rfl
@[simp] theorem State.emit_catHost (o : Output) : (s.emit o).catHost = s.catHost := rfl
@[simp] theorem State.emit_catRun (o : Output) : (s.emit o).catRun = s.catRun := rfl
@[simp] theorem State.emit_catTurn (o : Output) : (s.emit o).catTurn = s.catTurn := rfl
@[simp] theorem State.emit_tollHigh (o : Output) : (s.emit o).tollHigh = s.tollHigh := rfl
@[simp] theorem State.emit_tollNorm (o : Output) : (s.emit o).tollNorm = s.tollNorm := rfl
@[simp] theorem State.emit_cols (o : Output) : (s.emit o).cols = s.cols := rfl
@[simp] theorem State.emit_seq (o : Output) : (s.emit o).seq = s.seq := rfl
@[simp] theorem State.emit_railsOffN (o : Output) : (s.emit o).railsOffN = s.railsOffN := rfl
@[simp] theorem State.emit_thermtripN (o : Output) : (s.emit o).thermtripN = s.thermtripN := rfl
@[simp] theorem State.emit_pcieWakeN (o : Output) : (s.emit o).pcieWakeN = s.pcieWakeN := rfl
@[simp] theorem State.emit_cal (o : Output) : (s.emit o).cal = s.cal := rfl
@[simp] theorem State.emit_calRuns (o : Output) : (s.emit o).calRuns = s.calRuns := rfl
@[simp] theorem State.emit_calCmds (o : Output) : (s.emit o).calCmds = s.calCmds := rfl
@[simp] theorem State.emit_calFlash (o : Output) : (s.emit o).calFlash = s.calFlash := rfl
@[simp] theorem State.emit_calMoved (o : Output) : (s.emit o).calMoved = s.calMoved := rfl
@[simp] theorem State.emit_calWrote (o : Output) : (s.emit o).calWrote = s.calWrote := rfl
@[simp] theorem State.emit_pairFault (o : Output) : (s.emit o).pairFault = s.pairFault := rfl
@[simp] theorem State.emit_pairTry (o : Output) : (s.emit o).pairTry = s.pairTry := rfl
@[simp] theorem State.emit_bsOver (o : Output) : (s.emit o).bsOver = s.bsOver := rfl
@[simp] theorem State.emit_policy (o : Output) : (s.emit o).policy = s.policy := rfl
@[simp] theorem State.emit_fwSlots (o : Output) : (s.emit o).fwSlots = s.fwSlots := rfl
@[simp] theorem State.emit_activeSlot (o : Output) : (s.emit o).activeSlot = s.activeSlot := rfl
@[simp] theorem State.emit_pendingSlot (o : Output) : (s.emit o).pendingSlot = s.pendingSlot := rfl
@[simp] theorem State.emit_running (o : Output) : (s.emit o).running = s.running := rfl
@[simp] theorem State.emit_runFrom (o : Output) : (s.emit o).runFrom = s.runFrom := rfl
@[simp] theorem State.emit_switch (o : Output) : (s.emit o).switch = s.switch := rfl
@[simp] theorem State.emit_fuses (o : Output) : (s.emit o).fuses = s.fuses := rfl
@[simp] theorem State.emit_fuseBox (o : Output) : (s.emit o).fuseBox = s.fuseBox := rfl
@[simp] theorem State.emit_auth (o : Output) : (s.emit o).auth = s.auth := rfl
@[simp] theorem State.emit_wrapKey (o : Output) : (s.emit o).wrapKey = s.wrapKey := rfl
@[simp] theorem State.emit_keyCounter (o : Output) : (s.emit o).keyCounter = s.keyCounter := rfl
@[simp] theorem State.emit_ksFlash (o : Output) : (s.emit o).ksFlash = s.ksFlash := rfl
@[simp] theorem State.emit_challenge (o : Output) : (s.emit o).challenge = s.challenge := rfl
@[simp] theorem State.emit_dbgFrom (o : Output) : (s.emit o).dbgFrom = s.dbgFrom := rfl
@[simp] theorem State.emit_repair (o : Output) : (s.emit o).repair = s.repair := rfl
@[simp] theorem State.emit_repairAt (o : Output) : (s.emit o).repairAt = s.repairAt := rfl
@[simp] theorem State.emit_bist (o : Output) : (s.emit o).bist = s.bist := rfl
@[simp] theorem State.emit_boot (o : Output) : (s.emit o).boot = s.boot := rfl
@[simp] theorem State.emit_ptp (o : Output) : (s.emit o).ptp = s.ptp := rfl
@[simp] theorem State.emit_plbs (o : Output) : (s.emit o).plbs = s.plbs := rfl
@[simp] theorem State.emit_srcs (o : Output) : (s.emit o).srcs = s.srcs := rfl
@[simp] theorem State.emit_hintBad (o : Output) : (s.emit o).hintBad = s.hintBad := rfl
@[simp] theorem State.emit_odoSamp (o : Output) : (s.emit o).odoSamp = s.odoSamp := rfl
@[simp] theorem State.emit_posDiff (o : Output) : (s.emit o).posDiff = s.posDiff := rfl
@[simp] theorem State.emit_rowCe (o : Output) : (s.emit o).rowCe = s.rowCe := rfl
@[simp] theorem State.emit_pageCe (o : Output) : (s.emit o).pageCe = s.pageCe := rfl
@[simp] theorem State.emit_pageUe (o : Output) : (s.emit o).pageUe = s.pageUe := rfl
@[simp] theorem State.emit_octPages (o : Output) : (s.emit o).octPages = s.octPages := rfl
@[simp] theorem State.emit_rowsDue (o : Output) : (s.emit o).rowsDue = s.rowsDue := rfl
@[simp] theorem State.emit_scrubAt (o : Output) : (s.emit o).scrubAt = s.scrubAt := rfl
@[simp] theorem State.emit_substCopied (o : Output) : (s.emit o).substCopied = s.substCopied := rfl
@[simp] theorem State.emit_pagesOut (o : Output) : (s.emit o).pagesOut = s.pagesOut := rfl
@[simp] theorem State.emit_netPeer (o : Output) : (s.emit o).netPeer = s.netPeer := rfl

@[simp] theorem State.emits_pending (os : List Output) : (s.emits os).pending = s.pending := rfl
@[simp] theorem State.emits_now (os : List Output) : (s.emits os).now = s.now := rfl
@[simp] theorem State.emits_aonNs (os : List Output) : (s.emits os).aonNs = s.aonNs := rfl
@[simp] theorem State.emits_freeCtr (os : List Output) : (s.emits os).freeCtr = s.freeCtr := rfl
@[simp] theorem State.emits_regs (os : List Output) : (s.emits os).regs = s.regs := rfl
@[simp] theorem State.emits_latch (os : List Output) : (s.emits os).latch = s.latch := rfl
@[simp] theorem State.emits_stage (os : List Output) : (s.emits os).stage = s.stage := rfl
@[simp] theorem State.emits_log (os : List Output) : (s.emits os).log = s.log := rfl
@[simp] theorem State.emits_logNext (os : List Output) : (s.emits os).logNext = s.logNext := rfl
@[simp] theorem State.emits_logLost (os : List Output) : (s.emits os).logLost = s.logLost := rfl
@[simp] theorem State.emits_mirror (os : List Output) : (s.emits os).mirror = s.mirror := rfl
@[simp] theorem State.emits_twoByEight (os : List Output) : (s.emits os).twoByEight = s.twoByEight := rfl
@[simp] theorem State.emits_queues (os : List Output) : (s.emits os).queues = s.queues := rfl
@[simp] theorem State.emits_netFifo (os : List Output) : (s.emits os).netFifo = s.netFifo := rfl
@[simp] theorem State.emits_netOut (os : List Output) : (s.emits os).netOut = s.netOut := rfl
@[simp] theorem State.emits_mcFifo (os : List Output) : (s.emits os).mcFifo = s.mcFifo := rfl
@[simp] theorem State.emits_mcRun (os : List Output) : (s.emits os).mcRun = s.mcRun := rfl
@[simp] theorem State.emits_origins (os : List Output) : (s.emits os).origins = s.origins := rfl
@[simp] theorem State.emits_rings (os : List Output) : (s.emits os).rings = s.rings := rfl
@[simp] theorem State.emits_waiters (os : List Output) : (s.emits os).waiters = s.waiters := rfl
@[simp] theorem State.emits_pulses (os : List Output) : (s.emits os).pulses = s.pulses := rfl
@[simp] theorem State.emits_way (os : List Output) : (s.emits os).way = s.way := rfl
@[simp] theorem State.emits_txs (os : List Output) : (s.emits os).txs = s.txs := rfl
@[simp] theorem State.emits_ents (os : List Output) : (s.emits os).ents = s.ents := rfl
@[simp] theorem State.emits_orderNext (os : List Output) : (s.emits os).orderNext = s.orderNext := rfl
@[simp] theorem State.emits_coords (os : List Output) : (s.emits os).coords = s.coords := rfl
@[simp] theorem State.emits_depot (os : List Output) : (s.emits os).depot = s.depot := rfl
@[simp] theorem State.emits_depotPoison (os : List Output) : (s.emits os).depotPoison = s.depotPoison := rfl
@[simp] theorem State.emits_dma (os : List Output) : (s.emits os).dma = s.dma := rfl
@[simp] theorem State.emits_lanes (os : List Output) : (s.emits os).lanes = s.lanes := rfl
@[simp] theorem State.emits_tmrBase (os : List Output) : (s.emits os).tmrBase = s.tmrBase := rfl
@[simp] theorem State.emits_tiles (os : List Output) : (s.emits os).tiles = s.tiles := rfl
@[simp] theorem State.emits_busNext (os : List Output) : (s.emits os).busNext = s.busNext := rfl
@[simp] theorem State.emits_slots (os : List Output) : (s.emits os).slots = s.slots := rfl
@[simp] theorem State.emits_engines (os : List Output) : (s.emits os).engines = s.engines := rfl
@[simp] theorem State.emits_pmap (os : List Output) : (s.emits os).pmap = s.pmap := rfl
@[simp] theorem State.emits_hbm (os : List Output) : (s.emits os).hbm = s.hbm := rfl
@[simp] theorem State.emits_hbmPoison (os : List Output) : (s.emits os).hbmPoison = s.hbmPoison := rfl
@[simp] theorem State.emits_arrFly (os : List Output) : (s.emits os).arrFly = s.arrFly := rfl
@[simp] theorem State.emits_arrSent (os : List Output) : (s.emits os).arrSent = s.arrSent := rfl
@[simp] theorem State.emits_arrRecv (os : List Output) : (s.emits os).arrRecv = s.arrRecv := rfl
@[simp] theorem State.emits_arrMs (os : List Output) : (s.emits os).arrMs = s.arrMs := rfl
@[simp] theorem State.emits_keys (os : List Output) : (s.emits os).keys = s.keys := rfl
@[simp] theorem State.emits_keyMask (os : List Output) : (s.emits os).keyMask = s.keyMask := rfl
@[simp] theorem State.emits_keyFresh (os : List Output) : (s.emits os).keyFresh = s.keyFresh := rfl
@[simp] theorem State.emits_arp (os : List Output) : (s.emits os).arp = s.arp := rfl
@[simp] theorem State.emits_rs (os : List Output) : (s.emits os).rs = s.rs := rfl
@[simp] theorem State.emits_links (os : List Output) : (s.emits os).links = s.links := rfl
@[simp] theorem State.emits_conns (os : List Output) : (s.emits os).conns = s.conns := rfl
@[simp] theorem State.emits_odos (os : List Output) : (s.emits os).odos = s.odos := rfl
@[simp] theorem State.emits_gens (os : List Output) : (s.emits os).gens = s.gens := rfl
@[simp] theorem State.emits_segBase (os : List Output) : (s.emits os).segBase = s.segBase := rfl
@[simp] theorem State.emits_segLine (os : List Output) : (s.emits os).segLine = s.segLine := rfl
@[simp] theorem State.emits_segB (os : List Output) : (s.emits os).segB = s.segB := rfl
@[simp] theorem State.emits_segOld (os : List Output) : (s.emits os).segOld = s.segOld := rfl
@[simp] theorem State.emits_refs (os : List Output) : (s.emits os).refs = s.refs := rfl
@[simp] theorem State.emits_noiseBase (os : List Output) : (s.emits os).noiseBase = s.noiseBase := rfl
@[simp] theorem State.emits_refTab (os : List Output) : (s.emits os).refTab = s.refTab := rfl
@[simp] theorem State.emits_refBad (os : List Output) : (s.emits os).refBad = s.refBad := rfl
@[simp] theorem State.emits_crews (os : List Output) : (s.emits os).crews = s.crews := rfl
@[simp] theorem State.emits_substTag (os : List Output) : (s.emits os).substTag = s.substTag := rfl
@[simp] theorem State.emits_exports (os : List Output) : (s.emits os).exports = s.exports := rfl
@[simp] theorem State.emits_jcts (os : List Output) : (s.emits os).jcts = s.jcts := rfl
@[simp] theorem State.emits_ctlLost (os : List Output) : (s.emits os).ctlLost = s.ctlLost := rfl
@[simp] theorem State.emits_banks (os : List Output) : (s.emits os).banks = s.banks := rfl
@[simp] theorem State.emits_unitBank (os : List Output) : (s.emits os).unitBank = s.unitBank := rfl
@[simp] theorem State.emits_markers (os : List Output) : (s.emits os).markers = s.markers := rfl
@[simp] theorem State.emits_bankFault (os : List Output) : (s.emits os).bankFault = s.bankFault := rfl
@[simp] theorem State.emits_wayBad (os : List Output) : (s.emits os).wayBad = s.wayBad := rfl
@[simp] theorem State.emits_svc (os : List Output) : (s.emits os).svc = s.svc := rfl
@[simp] theorem State.emits_catTask (os : List Output) : (s.emits os).catTask = s.catTask := rfl
@[simp] theorem State.emits_catHost (os : List Output) : (s.emits os).catHost = s.catHost := rfl
@[simp] theorem State.emits_catRun (os : List Output) : (s.emits os).catRun = s.catRun := rfl
@[simp] theorem State.emits_catTurn (os : List Output) : (s.emits os).catTurn = s.catTurn := rfl
@[simp] theorem State.emits_tollHigh (os : List Output) : (s.emits os).tollHigh = s.tollHigh := rfl
@[simp] theorem State.emits_tollNorm (os : List Output) : (s.emits os).tollNorm = s.tollNorm := rfl
@[simp] theorem State.emits_cols (os : List Output) : (s.emits os).cols = s.cols := rfl
@[simp] theorem State.emits_seq (os : List Output) : (s.emits os).seq = s.seq := rfl
@[simp] theorem State.emits_railsOffN (os : List Output) : (s.emits os).railsOffN = s.railsOffN := rfl
@[simp] theorem State.emits_thermtripN (os : List Output) : (s.emits os).thermtripN = s.thermtripN := rfl
@[simp] theorem State.emits_pcieWakeN (os : List Output) : (s.emits os).pcieWakeN = s.pcieWakeN := rfl
@[simp] theorem State.emits_cal (os : List Output) : (s.emits os).cal = s.cal := rfl
@[simp] theorem State.emits_calRuns (os : List Output) : (s.emits os).calRuns = s.calRuns := rfl
@[simp] theorem State.emits_calCmds (os : List Output) : (s.emits os).calCmds = s.calCmds := rfl
@[simp] theorem State.emits_calFlash (os : List Output) : (s.emits os).calFlash = s.calFlash := rfl
@[simp] theorem State.emits_calMoved (os : List Output) : (s.emits os).calMoved = s.calMoved := rfl
@[simp] theorem State.emits_calWrote (os : List Output) : (s.emits os).calWrote = s.calWrote := rfl
@[simp] theorem State.emits_pairFault (os : List Output) : (s.emits os).pairFault = s.pairFault := rfl
@[simp] theorem State.emits_pairTry (os : List Output) : (s.emits os).pairTry = s.pairTry := rfl
@[simp] theorem State.emits_bsOver (os : List Output) : (s.emits os).bsOver = s.bsOver := rfl
@[simp] theorem State.emits_policy (os : List Output) : (s.emits os).policy = s.policy := rfl
@[simp] theorem State.emits_fwSlots (os : List Output) : (s.emits os).fwSlots = s.fwSlots := rfl
@[simp] theorem State.emits_activeSlot (os : List Output) : (s.emits os).activeSlot = s.activeSlot := rfl
@[simp] theorem State.emits_pendingSlot (os : List Output) : (s.emits os).pendingSlot = s.pendingSlot := rfl
@[simp] theorem State.emits_running (os : List Output) : (s.emits os).running = s.running := rfl
@[simp] theorem State.emits_runFrom (os : List Output) : (s.emits os).runFrom = s.runFrom := rfl
@[simp] theorem State.emits_switch (os : List Output) : (s.emits os).switch = s.switch := rfl
@[simp] theorem State.emits_fuses (os : List Output) : (s.emits os).fuses = s.fuses := rfl
@[simp] theorem State.emits_fuseBox (os : List Output) : (s.emits os).fuseBox = s.fuseBox := rfl
@[simp] theorem State.emits_auth (os : List Output) : (s.emits os).auth = s.auth := rfl
@[simp] theorem State.emits_wrapKey (os : List Output) : (s.emits os).wrapKey = s.wrapKey := rfl
@[simp] theorem State.emits_keyCounter (os : List Output) : (s.emits os).keyCounter = s.keyCounter := rfl
@[simp] theorem State.emits_ksFlash (os : List Output) : (s.emits os).ksFlash = s.ksFlash := rfl
@[simp] theorem State.emits_challenge (os : List Output) : (s.emits os).challenge = s.challenge := rfl
@[simp] theorem State.emits_dbgFrom (os : List Output) : (s.emits os).dbgFrom = s.dbgFrom := rfl
@[simp] theorem State.emits_repair (os : List Output) : (s.emits os).repair = s.repair := rfl
@[simp] theorem State.emits_repairAt (os : List Output) : (s.emits os).repairAt = s.repairAt := rfl
@[simp] theorem State.emits_bist (os : List Output) : (s.emits os).bist = s.bist := rfl
@[simp] theorem State.emits_boot (os : List Output) : (s.emits os).boot = s.boot := rfl
@[simp] theorem State.emits_ptp (os : List Output) : (s.emits os).ptp = s.ptp := rfl
@[simp] theorem State.emits_plbs (os : List Output) : (s.emits os).plbs = s.plbs := rfl
@[simp] theorem State.emits_srcs (os : List Output) : (s.emits os).srcs = s.srcs := rfl
@[simp] theorem State.emits_hintBad (os : List Output) : (s.emits os).hintBad = s.hintBad := rfl
@[simp] theorem State.emits_odoSamp (os : List Output) : (s.emits os).odoSamp = s.odoSamp := rfl
@[simp] theorem State.emits_posDiff (os : List Output) : (s.emits os).posDiff = s.posDiff := rfl
@[simp] theorem State.emits_rowCe (os : List Output) : (s.emits os).rowCe = s.rowCe := rfl
@[simp] theorem State.emits_pageCe (os : List Output) : (s.emits os).pageCe = s.pageCe := rfl
@[simp] theorem State.emits_pageUe (os : List Output) : (s.emits os).pageUe = s.pageUe := rfl
@[simp] theorem State.emits_octPages (os : List Output) : (s.emits os).octPages = s.octPages := rfl
@[simp] theorem State.emits_rowsDue (os : List Output) : (s.emits os).rowsDue = s.rowsDue := rfl
@[simp] theorem State.emits_scrubAt (os : List Output) : (s.emits os).scrubAt = s.scrubAt := rfl
@[simp] theorem State.emits_substCopied (os : List Output) : (s.emits os).substCopied = s.substCopied := rfl
@[simp] theorem State.emits_pagesOut (os : List Output) : (s.emits os).pagesOut = s.pagesOut := rfl
@[simp] theorem State.emits_netPeer (os : List Output) : (s.emits os).netPeer = s.netPeer := rfl

@[simp] theorem State.tell_pending (r : Report) : (s.tell r).pending = s.pending := rfl
@[simp] theorem State.tell_now (r : Report) : (s.tell r).now = s.now := rfl
@[simp] theorem State.tell_aonNs (r : Report) : (s.tell r).aonNs = s.aonNs := rfl
@[simp] theorem State.tell_freeCtr (r : Report) : (s.tell r).freeCtr = s.freeCtr := rfl
@[simp] theorem State.tell_regs (r : Report) : (s.tell r).regs = s.regs := rfl
@[simp] theorem State.tell_latch (r : Report) : (s.tell r).latch = s.latch := rfl
@[simp] theorem State.tell_stage (r : Report) : (s.tell r).stage = s.stage := rfl
@[simp] theorem State.tell_log (r : Report) : (s.tell r).log = s.log := rfl
@[simp] theorem State.tell_logNext (r : Report) : (s.tell r).logNext = s.logNext := rfl
@[simp] theorem State.tell_logLost (r : Report) : (s.tell r).logLost = s.logLost := rfl
@[simp] theorem State.tell_mirror (r : Report) : (s.tell r).mirror = s.mirror := rfl
@[simp] theorem State.tell_twoByEight (r : Report) : (s.tell r).twoByEight = s.twoByEight := rfl
@[simp] theorem State.tell_queues (r : Report) : (s.tell r).queues = s.queues := rfl
@[simp] theorem State.tell_netFifo (r : Report) : (s.tell r).netFifo = s.netFifo := rfl
@[simp] theorem State.tell_netOut (r : Report) : (s.tell r).netOut = s.netOut := rfl
@[simp] theorem State.tell_mcFifo (r : Report) : (s.tell r).mcFifo = s.mcFifo := rfl
@[simp] theorem State.tell_mcRun (r : Report) : (s.tell r).mcRun = s.mcRun := rfl
@[simp] theorem State.tell_origins (r : Report) : (s.tell r).origins = s.origins := rfl
@[simp] theorem State.tell_rings (r : Report) : (s.tell r).rings = s.rings := rfl
@[simp] theorem State.tell_waiters (r : Report) : (s.tell r).waiters = s.waiters := rfl
@[simp] theorem State.tell_pulses (r : Report) : (s.tell r).pulses = s.pulses := rfl
@[simp] theorem State.tell_way (r : Report) : (s.tell r).way = s.way := rfl
@[simp] theorem State.tell_txs (r : Report) : (s.tell r).txs = s.txs := rfl
@[simp] theorem State.tell_ents (r : Report) : (s.tell r).ents = s.ents := rfl
@[simp] theorem State.tell_orderNext (r : Report) : (s.tell r).orderNext = s.orderNext := rfl
@[simp] theorem State.tell_coords (r : Report) : (s.tell r).coords = s.coords := rfl
@[simp] theorem State.tell_depot (r : Report) : (s.tell r).depot = s.depot := rfl
@[simp] theorem State.tell_depotPoison (r : Report) : (s.tell r).depotPoison = s.depotPoison := rfl
@[simp] theorem State.tell_dma (r : Report) : (s.tell r).dma = s.dma := rfl
@[simp] theorem State.tell_lanes (r : Report) : (s.tell r).lanes = s.lanes := rfl
@[simp] theorem State.tell_tmrBase (r : Report) : (s.tell r).tmrBase = s.tmrBase := rfl
@[simp] theorem State.tell_tiles (r : Report) : (s.tell r).tiles = s.tiles := rfl
@[simp] theorem State.tell_busNext (r : Report) : (s.tell r).busNext = s.busNext := rfl
@[simp] theorem State.tell_slots (r : Report) : (s.tell r).slots = s.slots := rfl
@[simp] theorem State.tell_engines (r : Report) : (s.tell r).engines = s.engines := rfl
@[simp] theorem State.tell_pmap (r : Report) : (s.tell r).pmap = s.pmap := rfl
@[simp] theorem State.tell_hbm (r : Report) : (s.tell r).hbm = s.hbm := rfl
@[simp] theorem State.tell_hbmPoison (r : Report) : (s.tell r).hbmPoison = s.hbmPoison := rfl
@[simp] theorem State.tell_arrFly (r : Report) : (s.tell r).arrFly = s.arrFly := rfl
@[simp] theorem State.tell_arrSent (r : Report) : (s.tell r).arrSent = s.arrSent := rfl
@[simp] theorem State.tell_arrRecv (r : Report) : (s.tell r).arrRecv = s.arrRecv := rfl
@[simp] theorem State.tell_arrMs (r : Report) : (s.tell r).arrMs = s.arrMs := rfl
@[simp] theorem State.tell_keys (r : Report) : (s.tell r).keys = s.keys := rfl
@[simp] theorem State.tell_keyMask (r : Report) : (s.tell r).keyMask = s.keyMask := rfl
@[simp] theorem State.tell_keyFresh (r : Report) : (s.tell r).keyFresh = s.keyFresh := rfl
@[simp] theorem State.tell_arp (r : Report) : (s.tell r).arp = s.arp := rfl
@[simp] theorem State.tell_rs (r : Report) : (s.tell r).rs = s.rs := rfl
@[simp] theorem State.tell_links (r : Report) : (s.tell r).links = s.links := rfl
@[simp] theorem State.tell_conns (r : Report) : (s.tell r).conns = s.conns := rfl
@[simp] theorem State.tell_odos (r : Report) : (s.tell r).odos = s.odos := rfl
@[simp] theorem State.tell_gens (r : Report) : (s.tell r).gens = s.gens := rfl
@[simp] theorem State.tell_segBase (r : Report) : (s.tell r).segBase = s.segBase := rfl
@[simp] theorem State.tell_segLine (r : Report) : (s.tell r).segLine = s.segLine := rfl
@[simp] theorem State.tell_segB (r : Report) : (s.tell r).segB = s.segB := rfl
@[simp] theorem State.tell_segOld (r : Report) : (s.tell r).segOld = s.segOld := rfl
@[simp] theorem State.tell_refs (r : Report) : (s.tell r).refs = s.refs := rfl
@[simp] theorem State.tell_noiseBase (r : Report) : (s.tell r).noiseBase = s.noiseBase := rfl
@[simp] theorem State.tell_refTab (r : Report) : (s.tell r).refTab = s.refTab := rfl
@[simp] theorem State.tell_refBad (r : Report) : (s.tell r).refBad = s.refBad := rfl
@[simp] theorem State.tell_crews (r : Report) : (s.tell r).crews = s.crews := rfl
@[simp] theorem State.tell_substTag (r : Report) : (s.tell r).substTag = s.substTag := rfl
@[simp] theorem State.tell_exports (r : Report) : (s.tell r).exports = s.exports := rfl
@[simp] theorem State.tell_jcts (r : Report) : (s.tell r).jcts = s.jcts := rfl
@[simp] theorem State.tell_ctlLost (r : Report) : (s.tell r).ctlLost = s.ctlLost := rfl
@[simp] theorem State.tell_banks (r : Report) : (s.tell r).banks = s.banks := rfl
@[simp] theorem State.tell_unitBank (r : Report) : (s.tell r).unitBank = s.unitBank := rfl
@[simp] theorem State.tell_markers (r : Report) : (s.tell r).markers = s.markers := rfl
@[simp] theorem State.tell_bankFault (r : Report) : (s.tell r).bankFault = s.bankFault := rfl
@[simp] theorem State.tell_wayBad (r : Report) : (s.tell r).wayBad = s.wayBad := rfl
@[simp] theorem State.tell_svc (r : Report) : (s.tell r).svc = s.svc := rfl
@[simp] theorem State.tell_catTask (r : Report) : (s.tell r).catTask = s.catTask := rfl
@[simp] theorem State.tell_catHost (r : Report) : (s.tell r).catHost = s.catHost := rfl
@[simp] theorem State.tell_catRun (r : Report) : (s.tell r).catRun = s.catRun := rfl
@[simp] theorem State.tell_catTurn (r : Report) : (s.tell r).catTurn = s.catTurn := rfl
@[simp] theorem State.tell_tollHigh (r : Report) : (s.tell r).tollHigh = s.tollHigh := rfl
@[simp] theorem State.tell_tollNorm (r : Report) : (s.tell r).tollNorm = s.tollNorm := rfl
@[simp] theorem State.tell_cols (r : Report) : (s.tell r).cols = s.cols := rfl
@[simp] theorem State.tell_seq (r : Report) : (s.tell r).seq = s.seq := rfl
@[simp] theorem State.tell_railsOffN (r : Report) : (s.tell r).railsOffN = s.railsOffN := rfl
@[simp] theorem State.tell_thermtripN (r : Report) : (s.tell r).thermtripN = s.thermtripN := rfl
@[simp] theorem State.tell_pcieWakeN (r : Report) : (s.tell r).pcieWakeN = s.pcieWakeN := rfl
@[simp] theorem State.tell_cal (r : Report) : (s.tell r).cal = s.cal := rfl
@[simp] theorem State.tell_calRuns (r : Report) : (s.tell r).calRuns = s.calRuns := rfl
@[simp] theorem State.tell_calCmds (r : Report) : (s.tell r).calCmds = s.calCmds := rfl
@[simp] theorem State.tell_calFlash (r : Report) : (s.tell r).calFlash = s.calFlash := rfl
@[simp] theorem State.tell_calMoved (r : Report) : (s.tell r).calMoved = s.calMoved := rfl
@[simp] theorem State.tell_calWrote (r : Report) : (s.tell r).calWrote = s.calWrote := rfl
@[simp] theorem State.tell_pairFault (r : Report) : (s.tell r).pairFault = s.pairFault := rfl
@[simp] theorem State.tell_pairTry (r : Report) : (s.tell r).pairTry = s.pairTry := rfl
@[simp] theorem State.tell_bsOver (r : Report) : (s.tell r).bsOver = s.bsOver := rfl
@[simp] theorem State.tell_policy (r : Report) : (s.tell r).policy = s.policy := rfl
@[simp] theorem State.tell_fwSlots (r : Report) : (s.tell r).fwSlots = s.fwSlots := rfl
@[simp] theorem State.tell_activeSlot (r : Report) : (s.tell r).activeSlot = s.activeSlot := rfl
@[simp] theorem State.tell_pendingSlot (r : Report) : (s.tell r).pendingSlot = s.pendingSlot := rfl
@[simp] theorem State.tell_running (r : Report) : (s.tell r).running = s.running := rfl
@[simp] theorem State.tell_runFrom (r : Report) : (s.tell r).runFrom = s.runFrom := rfl
@[simp] theorem State.tell_switch (r : Report) : (s.tell r).switch = s.switch := rfl
@[simp] theorem State.tell_fuses (r : Report) : (s.tell r).fuses = s.fuses := rfl
@[simp] theorem State.tell_fuseBox (r : Report) : (s.tell r).fuseBox = s.fuseBox := rfl
@[simp] theorem State.tell_auth (r : Report) : (s.tell r).auth = s.auth := rfl
@[simp] theorem State.tell_wrapKey (r : Report) : (s.tell r).wrapKey = s.wrapKey := rfl
@[simp] theorem State.tell_keyCounter (r : Report) : (s.tell r).keyCounter = s.keyCounter := rfl
@[simp] theorem State.tell_ksFlash (r : Report) : (s.tell r).ksFlash = s.ksFlash := rfl
@[simp] theorem State.tell_challenge (r : Report) : (s.tell r).challenge = s.challenge := rfl
@[simp] theorem State.tell_dbgFrom (r : Report) : (s.tell r).dbgFrom = s.dbgFrom := rfl
@[simp] theorem State.tell_repair (r : Report) : (s.tell r).repair = s.repair := rfl
@[simp] theorem State.tell_repairAt (r : Report) : (s.tell r).repairAt = s.repairAt := rfl
@[simp] theorem State.tell_bist (r : Report) : (s.tell r).bist = s.bist := rfl
@[simp] theorem State.tell_boot (r : Report) : (s.tell r).boot = s.boot := rfl
@[simp] theorem State.tell_ptp (r : Report) : (s.tell r).ptp = s.ptp := rfl
@[simp] theorem State.tell_plbs (r : Report) : (s.tell r).plbs = s.plbs := rfl
@[simp] theorem State.tell_srcs (r : Report) : (s.tell r).srcs = s.srcs := rfl
@[simp] theorem State.tell_hintBad (r : Report) : (s.tell r).hintBad = s.hintBad := rfl
@[simp] theorem State.tell_odoSamp (r : Report) : (s.tell r).odoSamp = s.odoSamp := rfl
@[simp] theorem State.tell_posDiff (r : Report) : (s.tell r).posDiff = s.posDiff := rfl
@[simp] theorem State.tell_rowCe (r : Report) : (s.tell r).rowCe = s.rowCe := rfl
@[simp] theorem State.tell_pageCe (r : Report) : (s.tell r).pageCe = s.pageCe := rfl
@[simp] theorem State.tell_pageUe (r : Report) : (s.tell r).pageUe = s.pageUe := rfl
@[simp] theorem State.tell_octPages (r : Report) : (s.tell r).octPages = s.octPages := rfl
@[simp] theorem State.tell_rowsDue (r : Report) : (s.tell r).rowsDue = s.rowsDue := rfl
@[simp] theorem State.tell_scrubAt (r : Report) : (s.tell r).scrubAt = s.scrubAt := rfl
@[simp] theorem State.tell_substCopied (r : Report) : (s.tell r).substCopied = s.substCopied := rfl
@[simp] theorem State.tell_pagesOut (r : Report) : (s.tell r).pagesOut = s.pagesOut := rfl
@[simp] theorem State.tell_netPeer (r : Report) : (s.tell r).netPeer = s.netPeer := rfl

@[simp] theorem State.logAdd_pending (src sev code : Nat) (args : List Nat) : (s.logAdd src sev code args).pending = s.pending := rfl
@[simp] theorem State.logAdd_now (src sev code : Nat) (args : List Nat) : (s.logAdd src sev code args).now = s.now := rfl
@[simp] theorem State.logAdd_aonNs (src sev code : Nat) (args : List Nat) : (s.logAdd src sev code args).aonNs = s.aonNs := rfl
@[simp] theorem State.logAdd_freeCtr (src sev code : Nat) (args : List Nat) : (s.logAdd src sev code args).freeCtr = s.freeCtr := rfl
@[simp] theorem State.logAdd_out (src sev code : Nat) (args : List Nat) : (s.logAdd src sev code args).out = s.out := rfl
@[simp] theorem State.logAdd_regs (src sev code : Nat) (args : List Nat) : (s.logAdd src sev code args).regs = s.regs := rfl
@[simp] theorem State.logAdd_latch (src sev code : Nat) (args : List Nat) : (s.logAdd src sev code args).latch = s.latch := rfl
@[simp] theorem State.logAdd_stage (src sev code : Nat) (args : List Nat) : (s.logAdd src sev code args).stage = s.stage := rfl
@[simp] theorem State.logAdd_mirror (src sev code : Nat) (args : List Nat) : (s.logAdd src sev code args).mirror = s.mirror := rfl
@[simp] theorem State.logAdd_twoByEight (src sev code : Nat) (args : List Nat) : (s.logAdd src sev code args).twoByEight = s.twoByEight := rfl
@[simp] theorem State.logAdd_queues (src sev code : Nat) (args : List Nat) : (s.logAdd src sev code args).queues = s.queues := rfl
@[simp] theorem State.logAdd_netFifo (src sev code : Nat) (args : List Nat) : (s.logAdd src sev code args).netFifo = s.netFifo := rfl
@[simp] theorem State.logAdd_netOut (src sev code : Nat) (args : List Nat) : (s.logAdd src sev code args).netOut = s.netOut := rfl
@[simp] theorem State.logAdd_mcFifo (src sev code : Nat) (args : List Nat) : (s.logAdd src sev code args).mcFifo = s.mcFifo := rfl
@[simp] theorem State.logAdd_mcRun (src sev code : Nat) (args : List Nat) : (s.logAdd src sev code args).mcRun = s.mcRun := rfl
@[simp] theorem State.logAdd_origins (src sev code : Nat) (args : List Nat) : (s.logAdd src sev code args).origins = s.origins := rfl
@[simp] theorem State.logAdd_rings (src sev code : Nat) (args : List Nat) : (s.logAdd src sev code args).rings = s.rings := rfl
@[simp] theorem State.logAdd_waiters (src sev code : Nat) (args : List Nat) : (s.logAdd src sev code args).waiters = s.waiters := rfl
@[simp] theorem State.logAdd_pulses (src sev code : Nat) (args : List Nat) : (s.logAdd src sev code args).pulses = s.pulses := rfl
@[simp] theorem State.logAdd_way (src sev code : Nat) (args : List Nat) : (s.logAdd src sev code args).way = s.way := rfl
@[simp] theorem State.logAdd_txs (src sev code : Nat) (args : List Nat) : (s.logAdd src sev code args).txs = s.txs := rfl
@[simp] theorem State.logAdd_ents (src sev code : Nat) (args : List Nat) : (s.logAdd src sev code args).ents = s.ents := rfl
@[simp] theorem State.logAdd_orderNext (src sev code : Nat) (args : List Nat) : (s.logAdd src sev code args).orderNext = s.orderNext := rfl
@[simp] theorem State.logAdd_coords (src sev code : Nat) (args : List Nat) : (s.logAdd src sev code args).coords = s.coords := rfl
@[simp] theorem State.logAdd_depot (src sev code : Nat) (args : List Nat) : (s.logAdd src sev code args).depot = s.depot := rfl
@[simp] theorem State.logAdd_depotPoison (src sev code : Nat) (args : List Nat) : (s.logAdd src sev code args).depotPoison = s.depotPoison := rfl
@[simp] theorem State.logAdd_dma (src sev code : Nat) (args : List Nat) : (s.logAdd src sev code args).dma = s.dma := rfl
@[simp] theorem State.logAdd_lanes (src sev code : Nat) (args : List Nat) : (s.logAdd src sev code args).lanes = s.lanes := rfl
@[simp] theorem State.logAdd_tmrBase (src sev code : Nat) (args : List Nat) : (s.logAdd src sev code args).tmrBase = s.tmrBase := rfl
@[simp] theorem State.logAdd_tiles (src sev code : Nat) (args : List Nat) : (s.logAdd src sev code args).tiles = s.tiles := rfl
@[simp] theorem State.logAdd_busNext (src sev code : Nat) (args : List Nat) : (s.logAdd src sev code args).busNext = s.busNext := rfl
@[simp] theorem State.logAdd_slots (src sev code : Nat) (args : List Nat) : (s.logAdd src sev code args).slots = s.slots := rfl
@[simp] theorem State.logAdd_engines (src sev code : Nat) (args : List Nat) : (s.logAdd src sev code args).engines = s.engines := rfl
@[simp] theorem State.logAdd_pmap (src sev code : Nat) (args : List Nat) : (s.logAdd src sev code args).pmap = s.pmap := rfl
@[simp] theorem State.logAdd_hbm (src sev code : Nat) (args : List Nat) : (s.logAdd src sev code args).hbm = s.hbm := rfl
@[simp] theorem State.logAdd_hbmPoison (src sev code : Nat) (args : List Nat) : (s.logAdd src sev code args).hbmPoison = s.hbmPoison := rfl
@[simp] theorem State.logAdd_arrFly (src sev code : Nat) (args : List Nat) : (s.logAdd src sev code args).arrFly = s.arrFly := rfl
@[simp] theorem State.logAdd_arrSent (src sev code : Nat) (args : List Nat) : (s.logAdd src sev code args).arrSent = s.arrSent := rfl
@[simp] theorem State.logAdd_arrRecv (src sev code : Nat) (args : List Nat) : (s.logAdd src sev code args).arrRecv = s.arrRecv := rfl
@[simp] theorem State.logAdd_arrMs (src sev code : Nat) (args : List Nat) : (s.logAdd src sev code args).arrMs = s.arrMs := rfl
@[simp] theorem State.logAdd_keys (src sev code : Nat) (args : List Nat) : (s.logAdd src sev code args).keys = s.keys := rfl
@[simp] theorem State.logAdd_keyMask (src sev code : Nat) (args : List Nat) : (s.logAdd src sev code args).keyMask = s.keyMask := rfl
@[simp] theorem State.logAdd_keyFresh (src sev code : Nat) (args : List Nat) : (s.logAdd src sev code args).keyFresh = s.keyFresh := rfl
@[simp] theorem State.logAdd_arp (src sev code : Nat) (args : List Nat) : (s.logAdd src sev code args).arp = s.arp := rfl
@[simp] theorem State.logAdd_rs (src sev code : Nat) (args : List Nat) : (s.logAdd src sev code args).rs = s.rs := rfl
@[simp] theorem State.logAdd_links (src sev code : Nat) (args : List Nat) : (s.logAdd src sev code args).links = s.links := rfl
@[simp] theorem State.logAdd_conns (src sev code : Nat) (args : List Nat) : (s.logAdd src sev code args).conns = s.conns := rfl
@[simp] theorem State.logAdd_odos (src sev code : Nat) (args : List Nat) : (s.logAdd src sev code args).odos = s.odos := rfl
@[simp] theorem State.logAdd_gens (src sev code : Nat) (args : List Nat) : (s.logAdd src sev code args).gens = s.gens := rfl
@[simp] theorem State.logAdd_segBase (src sev code : Nat) (args : List Nat) : (s.logAdd src sev code args).segBase = s.segBase := rfl
@[simp] theorem State.logAdd_segLine (src sev code : Nat) (args : List Nat) : (s.logAdd src sev code args).segLine = s.segLine := rfl
@[simp] theorem State.logAdd_segB (src sev code : Nat) (args : List Nat) : (s.logAdd src sev code args).segB = s.segB := rfl
@[simp] theorem State.logAdd_segOld (src sev code : Nat) (args : List Nat) : (s.logAdd src sev code args).segOld = s.segOld := rfl
@[simp] theorem State.logAdd_refs (src sev code : Nat) (args : List Nat) : (s.logAdd src sev code args).refs = s.refs := rfl
@[simp] theorem State.logAdd_noiseBase (src sev code : Nat) (args : List Nat) : (s.logAdd src sev code args).noiseBase = s.noiseBase := rfl
@[simp] theorem State.logAdd_refTab (src sev code : Nat) (args : List Nat) : (s.logAdd src sev code args).refTab = s.refTab := rfl
@[simp] theorem State.logAdd_refBad (src sev code : Nat) (args : List Nat) : (s.logAdd src sev code args).refBad = s.refBad := rfl
@[simp] theorem State.logAdd_crews (src sev code : Nat) (args : List Nat) : (s.logAdd src sev code args).crews = s.crews := rfl
@[simp] theorem State.logAdd_substTag (src sev code : Nat) (args : List Nat) : (s.logAdd src sev code args).substTag = s.substTag := rfl
@[simp] theorem State.logAdd_exports (src sev code : Nat) (args : List Nat) : (s.logAdd src sev code args).exports = s.exports := rfl
@[simp] theorem State.logAdd_jcts (src sev code : Nat) (args : List Nat) : (s.logAdd src sev code args).jcts = s.jcts := rfl
@[simp] theorem State.logAdd_ctlLost (src sev code : Nat) (args : List Nat) : (s.logAdd src sev code args).ctlLost = s.ctlLost := rfl
@[simp] theorem State.logAdd_banks (src sev code : Nat) (args : List Nat) : (s.logAdd src sev code args).banks = s.banks := rfl
@[simp] theorem State.logAdd_unitBank (src sev code : Nat) (args : List Nat) : (s.logAdd src sev code args).unitBank = s.unitBank := rfl
@[simp] theorem State.logAdd_markers (src sev code : Nat) (args : List Nat) : (s.logAdd src sev code args).markers = s.markers := rfl
@[simp] theorem State.logAdd_bankFault (src sev code : Nat) (args : List Nat) : (s.logAdd src sev code args).bankFault = s.bankFault := rfl
@[simp] theorem State.logAdd_wayBad (src sev code : Nat) (args : List Nat) : (s.logAdd src sev code args).wayBad = s.wayBad := rfl
@[simp] theorem State.logAdd_svc (src sev code : Nat) (args : List Nat) : (s.logAdd src sev code args).svc = s.svc := rfl
@[simp] theorem State.logAdd_catTask (src sev code : Nat) (args : List Nat) : (s.logAdd src sev code args).catTask = s.catTask := rfl
@[simp] theorem State.logAdd_catHost (src sev code : Nat) (args : List Nat) : (s.logAdd src sev code args).catHost = s.catHost := rfl
@[simp] theorem State.logAdd_catRun (src sev code : Nat) (args : List Nat) : (s.logAdd src sev code args).catRun = s.catRun := rfl
@[simp] theorem State.logAdd_catTurn (src sev code : Nat) (args : List Nat) : (s.logAdd src sev code args).catTurn = s.catTurn := rfl
@[simp] theorem State.logAdd_tollHigh (src sev code : Nat) (args : List Nat) : (s.logAdd src sev code args).tollHigh = s.tollHigh := rfl
@[simp] theorem State.logAdd_tollNorm (src sev code : Nat) (args : List Nat) : (s.logAdd src sev code args).tollNorm = s.tollNorm := rfl
@[simp] theorem State.logAdd_cols (src sev code : Nat) (args : List Nat) : (s.logAdd src sev code args).cols = s.cols := rfl
@[simp] theorem State.logAdd_seq (src sev code : Nat) (args : List Nat) : (s.logAdd src sev code args).seq = s.seq := rfl
@[simp] theorem State.logAdd_railsOffN (src sev code : Nat) (args : List Nat) : (s.logAdd src sev code args).railsOffN = s.railsOffN := rfl
@[simp] theorem State.logAdd_thermtripN (src sev code : Nat) (args : List Nat) : (s.logAdd src sev code args).thermtripN = s.thermtripN := rfl
@[simp] theorem State.logAdd_pcieWakeN (src sev code : Nat) (args : List Nat) : (s.logAdd src sev code args).pcieWakeN = s.pcieWakeN := rfl
@[simp] theorem State.logAdd_cal (src sev code : Nat) (args : List Nat) : (s.logAdd src sev code args).cal = s.cal := rfl
@[simp] theorem State.logAdd_calRuns (src sev code : Nat) (args : List Nat) : (s.logAdd src sev code args).calRuns = s.calRuns := rfl
@[simp] theorem State.logAdd_calCmds (src sev code : Nat) (args : List Nat) : (s.logAdd src sev code args).calCmds = s.calCmds := rfl
@[simp] theorem State.logAdd_calFlash (src sev code : Nat) (args : List Nat) : (s.logAdd src sev code args).calFlash = s.calFlash := rfl
@[simp] theorem State.logAdd_calMoved (src sev code : Nat) (args : List Nat) : (s.logAdd src sev code args).calMoved = s.calMoved := rfl
@[simp] theorem State.logAdd_calWrote (src sev code : Nat) (args : List Nat) : (s.logAdd src sev code args).calWrote = s.calWrote := rfl
@[simp] theorem State.logAdd_pairFault (src sev code : Nat) (args : List Nat) : (s.logAdd src sev code args).pairFault = s.pairFault := rfl
@[simp] theorem State.logAdd_pairTry (src sev code : Nat) (args : List Nat) : (s.logAdd src sev code args).pairTry = s.pairTry := rfl
@[simp] theorem State.logAdd_bsOver (src sev code : Nat) (args : List Nat) : (s.logAdd src sev code args).bsOver = s.bsOver := rfl
@[simp] theorem State.logAdd_policy (src sev code : Nat) (args : List Nat) : (s.logAdd src sev code args).policy = s.policy := rfl
@[simp] theorem State.logAdd_fwSlots (src sev code : Nat) (args : List Nat) : (s.logAdd src sev code args).fwSlots = s.fwSlots := rfl
@[simp] theorem State.logAdd_activeSlot (src sev code : Nat) (args : List Nat) : (s.logAdd src sev code args).activeSlot = s.activeSlot := rfl
@[simp] theorem State.logAdd_pendingSlot (src sev code : Nat) (args : List Nat) : (s.logAdd src sev code args).pendingSlot = s.pendingSlot := rfl
@[simp] theorem State.logAdd_running (src sev code : Nat) (args : List Nat) : (s.logAdd src sev code args).running = s.running := rfl
@[simp] theorem State.logAdd_runFrom (src sev code : Nat) (args : List Nat) : (s.logAdd src sev code args).runFrom = s.runFrom := rfl
@[simp] theorem State.logAdd_switch (src sev code : Nat) (args : List Nat) : (s.logAdd src sev code args).switch = s.switch := rfl
@[simp] theorem State.logAdd_fuses (src sev code : Nat) (args : List Nat) : (s.logAdd src sev code args).fuses = s.fuses := rfl
@[simp] theorem State.logAdd_fuseBox (src sev code : Nat) (args : List Nat) : (s.logAdd src sev code args).fuseBox = s.fuseBox := rfl
@[simp] theorem State.logAdd_auth (src sev code : Nat) (args : List Nat) : (s.logAdd src sev code args).auth = s.auth := rfl
@[simp] theorem State.logAdd_wrapKey (src sev code : Nat) (args : List Nat) : (s.logAdd src sev code args).wrapKey = s.wrapKey := rfl
@[simp] theorem State.logAdd_keyCounter (src sev code : Nat) (args : List Nat) : (s.logAdd src sev code args).keyCounter = s.keyCounter := rfl
@[simp] theorem State.logAdd_ksFlash (src sev code : Nat) (args : List Nat) : (s.logAdd src sev code args).ksFlash = s.ksFlash := rfl
@[simp] theorem State.logAdd_challenge (src sev code : Nat) (args : List Nat) : (s.logAdd src sev code args).challenge = s.challenge := rfl
@[simp] theorem State.logAdd_dbgFrom (src sev code : Nat) (args : List Nat) : (s.logAdd src sev code args).dbgFrom = s.dbgFrom := rfl
@[simp] theorem State.logAdd_repair (src sev code : Nat) (args : List Nat) : (s.logAdd src sev code args).repair = s.repair := rfl
@[simp] theorem State.logAdd_repairAt (src sev code : Nat) (args : List Nat) : (s.logAdd src sev code args).repairAt = s.repairAt := rfl
@[simp] theorem State.logAdd_bist (src sev code : Nat) (args : List Nat) : (s.logAdd src sev code args).bist = s.bist := rfl
@[simp] theorem State.logAdd_boot (src sev code : Nat) (args : List Nat) : (s.logAdd src sev code args).boot = s.boot := rfl
@[simp] theorem State.logAdd_ptp (src sev code : Nat) (args : List Nat) : (s.logAdd src sev code args).ptp = s.ptp := rfl
@[simp] theorem State.logAdd_plbs (src sev code : Nat) (args : List Nat) : (s.logAdd src sev code args).plbs = s.plbs := rfl
@[simp] theorem State.logAdd_srcs (src sev code : Nat) (args : List Nat) : (s.logAdd src sev code args).srcs = s.srcs := rfl
@[simp] theorem State.logAdd_hintBad (src sev code : Nat) (args : List Nat) : (s.logAdd src sev code args).hintBad = s.hintBad := rfl
@[simp] theorem State.logAdd_odoSamp (src sev code : Nat) (args : List Nat) : (s.logAdd src sev code args).odoSamp = s.odoSamp := rfl
@[simp] theorem State.logAdd_posDiff (src sev code : Nat) (args : List Nat) : (s.logAdd src sev code args).posDiff = s.posDiff := rfl
@[simp] theorem State.logAdd_rowCe (src sev code : Nat) (args : List Nat) : (s.logAdd src sev code args).rowCe = s.rowCe := rfl
@[simp] theorem State.logAdd_pageCe (src sev code : Nat) (args : List Nat) : (s.logAdd src sev code args).pageCe = s.pageCe := rfl
@[simp] theorem State.logAdd_pageUe (src sev code : Nat) (args : List Nat) : (s.logAdd src sev code args).pageUe = s.pageUe := rfl
@[simp] theorem State.logAdd_octPages (src sev code : Nat) (args : List Nat) : (s.logAdd src sev code args).octPages = s.octPages := rfl
@[simp] theorem State.logAdd_rowsDue (src sev code : Nat) (args : List Nat) : (s.logAdd src sev code args).rowsDue = s.rowsDue := rfl
@[simp] theorem State.logAdd_scrubAt (src sev code : Nat) (args : List Nat) : (s.logAdd src sev code args).scrubAt = s.scrubAt := rfl
@[simp] theorem State.logAdd_substCopied (src sev code : Nat) (args : List Nat) : (s.logAdd src sev code args).substCopied = s.substCopied := rfl
@[simp] theorem State.logAdd_pagesOut (src sev code : Nat) (args : List Nat) : (s.logAdd src sev code args).pagesOut = s.pagesOut := rfl
@[simp] theorem State.logAdd_netPeer (src sev code : Nat) (args : List Nat) : (s.logAdd src sev code args).netPeer = s.netPeer := rfl

@[simp] theorem State.logE_pending (src code : Nat) (args : List Nat) : (s.logE src code args).pending = s.pending := rfl
@[simp] theorem State.logE_now (src code : Nat) (args : List Nat) : (s.logE src code args).now = s.now := rfl
@[simp] theorem State.logE_aonNs (src code : Nat) (args : List Nat) : (s.logE src code args).aonNs = s.aonNs := rfl
@[simp] theorem State.logE_freeCtr (src code : Nat) (args : List Nat) : (s.logE src code args).freeCtr = s.freeCtr := rfl
@[simp] theorem State.logE_out (src code : Nat) (args : List Nat) : (s.logE src code args).out = s.out := rfl
@[simp] theorem State.logE_regs (src code : Nat) (args : List Nat) : (s.logE src code args).regs = s.regs := rfl
@[simp] theorem State.logE_latch (src code : Nat) (args : List Nat) : (s.logE src code args).latch = s.latch := rfl
@[simp] theorem State.logE_stage (src code : Nat) (args : List Nat) : (s.logE src code args).stage = s.stage := rfl
@[simp] theorem State.logE_mirror (src code : Nat) (args : List Nat) : (s.logE src code args).mirror = s.mirror := rfl
@[simp] theorem State.logE_twoByEight (src code : Nat) (args : List Nat) : (s.logE src code args).twoByEight = s.twoByEight := rfl
@[simp] theorem State.logE_queues (src code : Nat) (args : List Nat) : (s.logE src code args).queues = s.queues := rfl
@[simp] theorem State.logE_netFifo (src code : Nat) (args : List Nat) : (s.logE src code args).netFifo = s.netFifo := rfl
@[simp] theorem State.logE_netOut (src code : Nat) (args : List Nat) : (s.logE src code args).netOut = s.netOut := rfl
@[simp] theorem State.logE_mcFifo (src code : Nat) (args : List Nat) : (s.logE src code args).mcFifo = s.mcFifo := rfl
@[simp] theorem State.logE_mcRun (src code : Nat) (args : List Nat) : (s.logE src code args).mcRun = s.mcRun := rfl
@[simp] theorem State.logE_origins (src code : Nat) (args : List Nat) : (s.logE src code args).origins = s.origins := rfl
@[simp] theorem State.logE_rings (src code : Nat) (args : List Nat) : (s.logE src code args).rings = s.rings := rfl
@[simp] theorem State.logE_waiters (src code : Nat) (args : List Nat) : (s.logE src code args).waiters = s.waiters := rfl
@[simp] theorem State.logE_pulses (src code : Nat) (args : List Nat) : (s.logE src code args).pulses = s.pulses := rfl
@[simp] theorem State.logE_way (src code : Nat) (args : List Nat) : (s.logE src code args).way = s.way := rfl
@[simp] theorem State.logE_txs (src code : Nat) (args : List Nat) : (s.logE src code args).txs = s.txs := rfl
@[simp] theorem State.logE_ents (src code : Nat) (args : List Nat) : (s.logE src code args).ents = s.ents := rfl
@[simp] theorem State.logE_orderNext (src code : Nat) (args : List Nat) : (s.logE src code args).orderNext = s.orderNext := rfl
@[simp] theorem State.logE_coords (src code : Nat) (args : List Nat) : (s.logE src code args).coords = s.coords := rfl
@[simp] theorem State.logE_depot (src code : Nat) (args : List Nat) : (s.logE src code args).depot = s.depot := rfl
@[simp] theorem State.logE_depotPoison (src code : Nat) (args : List Nat) : (s.logE src code args).depotPoison = s.depotPoison := rfl
@[simp] theorem State.logE_dma (src code : Nat) (args : List Nat) : (s.logE src code args).dma = s.dma := rfl
@[simp] theorem State.logE_lanes (src code : Nat) (args : List Nat) : (s.logE src code args).lanes = s.lanes := rfl
@[simp] theorem State.logE_tmrBase (src code : Nat) (args : List Nat) : (s.logE src code args).tmrBase = s.tmrBase := rfl
@[simp] theorem State.logE_tiles (src code : Nat) (args : List Nat) : (s.logE src code args).tiles = s.tiles := rfl
@[simp] theorem State.logE_busNext (src code : Nat) (args : List Nat) : (s.logE src code args).busNext = s.busNext := rfl
@[simp] theorem State.logE_slots (src code : Nat) (args : List Nat) : (s.logE src code args).slots = s.slots := rfl
@[simp] theorem State.logE_engines (src code : Nat) (args : List Nat) : (s.logE src code args).engines = s.engines := rfl
@[simp] theorem State.logE_pmap (src code : Nat) (args : List Nat) : (s.logE src code args).pmap = s.pmap := rfl
@[simp] theorem State.logE_hbm (src code : Nat) (args : List Nat) : (s.logE src code args).hbm = s.hbm := rfl
@[simp] theorem State.logE_hbmPoison (src code : Nat) (args : List Nat) : (s.logE src code args).hbmPoison = s.hbmPoison := rfl
@[simp] theorem State.logE_arrFly (src code : Nat) (args : List Nat) : (s.logE src code args).arrFly = s.arrFly := rfl
@[simp] theorem State.logE_arrSent (src code : Nat) (args : List Nat) : (s.logE src code args).arrSent = s.arrSent := rfl
@[simp] theorem State.logE_arrRecv (src code : Nat) (args : List Nat) : (s.logE src code args).arrRecv = s.arrRecv := rfl
@[simp] theorem State.logE_arrMs (src code : Nat) (args : List Nat) : (s.logE src code args).arrMs = s.arrMs := rfl
@[simp] theorem State.logE_keys (src code : Nat) (args : List Nat) : (s.logE src code args).keys = s.keys := rfl
@[simp] theorem State.logE_keyMask (src code : Nat) (args : List Nat) : (s.logE src code args).keyMask = s.keyMask := rfl
@[simp] theorem State.logE_keyFresh (src code : Nat) (args : List Nat) : (s.logE src code args).keyFresh = s.keyFresh := rfl
@[simp] theorem State.logE_arp (src code : Nat) (args : List Nat) : (s.logE src code args).arp = s.arp := rfl
@[simp] theorem State.logE_rs (src code : Nat) (args : List Nat) : (s.logE src code args).rs = s.rs := rfl
@[simp] theorem State.logE_links (src code : Nat) (args : List Nat) : (s.logE src code args).links = s.links := rfl
@[simp] theorem State.logE_conns (src code : Nat) (args : List Nat) : (s.logE src code args).conns = s.conns := rfl
@[simp] theorem State.logE_odos (src code : Nat) (args : List Nat) : (s.logE src code args).odos = s.odos := rfl
@[simp] theorem State.logE_gens (src code : Nat) (args : List Nat) : (s.logE src code args).gens = s.gens := rfl
@[simp] theorem State.logE_segBase (src code : Nat) (args : List Nat) : (s.logE src code args).segBase = s.segBase := rfl
@[simp] theorem State.logE_segLine (src code : Nat) (args : List Nat) : (s.logE src code args).segLine = s.segLine := rfl
@[simp] theorem State.logE_segB (src code : Nat) (args : List Nat) : (s.logE src code args).segB = s.segB := rfl
@[simp] theorem State.logE_segOld (src code : Nat) (args : List Nat) : (s.logE src code args).segOld = s.segOld := rfl
@[simp] theorem State.logE_refs (src code : Nat) (args : List Nat) : (s.logE src code args).refs = s.refs := rfl
@[simp] theorem State.logE_noiseBase (src code : Nat) (args : List Nat) : (s.logE src code args).noiseBase = s.noiseBase := rfl
@[simp] theorem State.logE_refTab (src code : Nat) (args : List Nat) : (s.logE src code args).refTab = s.refTab := rfl
@[simp] theorem State.logE_refBad (src code : Nat) (args : List Nat) : (s.logE src code args).refBad = s.refBad := rfl
@[simp] theorem State.logE_crews (src code : Nat) (args : List Nat) : (s.logE src code args).crews = s.crews := rfl
@[simp] theorem State.logE_substTag (src code : Nat) (args : List Nat) : (s.logE src code args).substTag = s.substTag := rfl
@[simp] theorem State.logE_exports (src code : Nat) (args : List Nat) : (s.logE src code args).exports = s.exports := rfl
@[simp] theorem State.logE_jcts (src code : Nat) (args : List Nat) : (s.logE src code args).jcts = s.jcts := rfl
@[simp] theorem State.logE_ctlLost (src code : Nat) (args : List Nat) : (s.logE src code args).ctlLost = s.ctlLost := rfl
@[simp] theorem State.logE_banks (src code : Nat) (args : List Nat) : (s.logE src code args).banks = s.banks := rfl
@[simp] theorem State.logE_unitBank (src code : Nat) (args : List Nat) : (s.logE src code args).unitBank = s.unitBank := rfl
@[simp] theorem State.logE_markers (src code : Nat) (args : List Nat) : (s.logE src code args).markers = s.markers := rfl
@[simp] theorem State.logE_bankFault (src code : Nat) (args : List Nat) : (s.logE src code args).bankFault = s.bankFault := rfl
@[simp] theorem State.logE_wayBad (src code : Nat) (args : List Nat) : (s.logE src code args).wayBad = s.wayBad := rfl
@[simp] theorem State.logE_svc (src code : Nat) (args : List Nat) : (s.logE src code args).svc = s.svc := rfl
@[simp] theorem State.logE_catTask (src code : Nat) (args : List Nat) : (s.logE src code args).catTask = s.catTask := rfl
@[simp] theorem State.logE_catHost (src code : Nat) (args : List Nat) : (s.logE src code args).catHost = s.catHost := rfl
@[simp] theorem State.logE_catRun (src code : Nat) (args : List Nat) : (s.logE src code args).catRun = s.catRun := rfl
@[simp] theorem State.logE_catTurn (src code : Nat) (args : List Nat) : (s.logE src code args).catTurn = s.catTurn := rfl
@[simp] theorem State.logE_tollHigh (src code : Nat) (args : List Nat) : (s.logE src code args).tollHigh = s.tollHigh := rfl
@[simp] theorem State.logE_tollNorm (src code : Nat) (args : List Nat) : (s.logE src code args).tollNorm = s.tollNorm := rfl
@[simp] theorem State.logE_cols (src code : Nat) (args : List Nat) : (s.logE src code args).cols = s.cols := rfl
@[simp] theorem State.logE_seq (src code : Nat) (args : List Nat) : (s.logE src code args).seq = s.seq := rfl
@[simp] theorem State.logE_railsOffN (src code : Nat) (args : List Nat) : (s.logE src code args).railsOffN = s.railsOffN := rfl
@[simp] theorem State.logE_thermtripN (src code : Nat) (args : List Nat) : (s.logE src code args).thermtripN = s.thermtripN := rfl
@[simp] theorem State.logE_pcieWakeN (src code : Nat) (args : List Nat) : (s.logE src code args).pcieWakeN = s.pcieWakeN := rfl
@[simp] theorem State.logE_cal (src code : Nat) (args : List Nat) : (s.logE src code args).cal = s.cal := rfl
@[simp] theorem State.logE_calRuns (src code : Nat) (args : List Nat) : (s.logE src code args).calRuns = s.calRuns := rfl
@[simp] theorem State.logE_calCmds (src code : Nat) (args : List Nat) : (s.logE src code args).calCmds = s.calCmds := rfl
@[simp] theorem State.logE_calFlash (src code : Nat) (args : List Nat) : (s.logE src code args).calFlash = s.calFlash := rfl
@[simp] theorem State.logE_calMoved (src code : Nat) (args : List Nat) : (s.logE src code args).calMoved = s.calMoved := rfl
@[simp] theorem State.logE_calWrote (src code : Nat) (args : List Nat) : (s.logE src code args).calWrote = s.calWrote := rfl
@[simp] theorem State.logE_pairFault (src code : Nat) (args : List Nat) : (s.logE src code args).pairFault = s.pairFault := rfl
@[simp] theorem State.logE_pairTry (src code : Nat) (args : List Nat) : (s.logE src code args).pairTry = s.pairTry := rfl
@[simp] theorem State.logE_bsOver (src code : Nat) (args : List Nat) : (s.logE src code args).bsOver = s.bsOver := rfl
@[simp] theorem State.logE_policy (src code : Nat) (args : List Nat) : (s.logE src code args).policy = s.policy := rfl
@[simp] theorem State.logE_fwSlots (src code : Nat) (args : List Nat) : (s.logE src code args).fwSlots = s.fwSlots := rfl
@[simp] theorem State.logE_activeSlot (src code : Nat) (args : List Nat) : (s.logE src code args).activeSlot = s.activeSlot := rfl
@[simp] theorem State.logE_pendingSlot (src code : Nat) (args : List Nat) : (s.logE src code args).pendingSlot = s.pendingSlot := rfl
@[simp] theorem State.logE_running (src code : Nat) (args : List Nat) : (s.logE src code args).running = s.running := rfl
@[simp] theorem State.logE_runFrom (src code : Nat) (args : List Nat) : (s.logE src code args).runFrom = s.runFrom := rfl
@[simp] theorem State.logE_switch (src code : Nat) (args : List Nat) : (s.logE src code args).switch = s.switch := rfl
@[simp] theorem State.logE_fuses (src code : Nat) (args : List Nat) : (s.logE src code args).fuses = s.fuses := rfl
@[simp] theorem State.logE_fuseBox (src code : Nat) (args : List Nat) : (s.logE src code args).fuseBox = s.fuseBox := rfl
@[simp] theorem State.logE_auth (src code : Nat) (args : List Nat) : (s.logE src code args).auth = s.auth := rfl
@[simp] theorem State.logE_wrapKey (src code : Nat) (args : List Nat) : (s.logE src code args).wrapKey = s.wrapKey := rfl
@[simp] theorem State.logE_keyCounter (src code : Nat) (args : List Nat) : (s.logE src code args).keyCounter = s.keyCounter := rfl
@[simp] theorem State.logE_ksFlash (src code : Nat) (args : List Nat) : (s.logE src code args).ksFlash = s.ksFlash := rfl
@[simp] theorem State.logE_challenge (src code : Nat) (args : List Nat) : (s.logE src code args).challenge = s.challenge := rfl
@[simp] theorem State.logE_dbgFrom (src code : Nat) (args : List Nat) : (s.logE src code args).dbgFrom = s.dbgFrom := rfl
@[simp] theorem State.logE_repair (src code : Nat) (args : List Nat) : (s.logE src code args).repair = s.repair := rfl
@[simp] theorem State.logE_repairAt (src code : Nat) (args : List Nat) : (s.logE src code args).repairAt = s.repairAt := rfl
@[simp] theorem State.logE_bist (src code : Nat) (args : List Nat) : (s.logE src code args).bist = s.bist := rfl
@[simp] theorem State.logE_boot (src code : Nat) (args : List Nat) : (s.logE src code args).boot = s.boot := rfl
@[simp] theorem State.logE_ptp (src code : Nat) (args : List Nat) : (s.logE src code args).ptp = s.ptp := rfl
@[simp] theorem State.logE_plbs (src code : Nat) (args : List Nat) : (s.logE src code args).plbs = s.plbs := rfl
@[simp] theorem State.logE_srcs (src code : Nat) (args : List Nat) : (s.logE src code args).srcs = s.srcs := rfl
@[simp] theorem State.logE_hintBad (src code : Nat) (args : List Nat) : (s.logE src code args).hintBad = s.hintBad := rfl
@[simp] theorem State.logE_odoSamp (src code : Nat) (args : List Nat) : (s.logE src code args).odoSamp = s.odoSamp := rfl
@[simp] theorem State.logE_posDiff (src code : Nat) (args : List Nat) : (s.logE src code args).posDiff = s.posDiff := rfl
@[simp] theorem State.logE_rowCe (src code : Nat) (args : List Nat) : (s.logE src code args).rowCe = s.rowCe := rfl
@[simp] theorem State.logE_pageCe (src code : Nat) (args : List Nat) : (s.logE src code args).pageCe = s.pageCe := rfl
@[simp] theorem State.logE_pageUe (src code : Nat) (args : List Nat) : (s.logE src code args).pageUe = s.pageUe := rfl
@[simp] theorem State.logE_octPages (src code : Nat) (args : List Nat) : (s.logE src code args).octPages = s.octPages := rfl
@[simp] theorem State.logE_rowsDue (src code : Nat) (args : List Nat) : (s.logE src code args).rowsDue = s.rowsDue := rfl
@[simp] theorem State.logE_scrubAt (src code : Nat) (args : List Nat) : (s.logE src code args).scrubAt = s.scrubAt := rfl
@[simp] theorem State.logE_substCopied (src code : Nat) (args : List Nat) : (s.logE src code args).substCopied = s.substCopied := rfl
@[simp] theorem State.logE_pagesOut (src code : Nat) (args : List Nat) : (s.logE src code args).pagesOut = s.pagesOut := rfl
@[simp] theorem State.logE_netPeer (src code : Nat) (args : List Nat) : (s.logE src code args).netPeer = s.netPeer := rfl

@[simp] theorem State.tick_now (dt : Nat) : (s.tick dt).now = (s.now + dt) % 2 ^ 64 := rfl
@[simp] theorem State.tick_aonNs (dt : Nat) : (s.tick dt).aonNs = s.aonNs + dt := rfl
@[simp] theorem State.useFree_freeCtr : s.useFree.freeCtr = s.freeCtr + 1 := rfl
@[simp] theorem State.emit_out (o : Output) : (s.emit o).out = s.out ++ [o] := rfl
@[simp] theorem State.emits_out (os : List Output) : (s.emits os).out = s.out ++ os := rfl
@[simp] theorem State.tell_out (r : Report) : (s.tell r).out = s.out ++ [.report r] := rfl

end Sys2Proof.Machine
end

