-- ==== Sys2Proof/Laws/Tables.lean ====
section
/-! SUPPORT. Laws of the sparse tables: read after write, and that every write keeps the canonical form. -/
namespace Sys2Proof.Machine

variable {α : Type}

@[simp] theorem mapGet_nil (d : α) (k : Nat) : mapGet d [] k = d := rfl

theorem mapGet_mapIns (d : α) (m : FMap α) (k : Nat) (v : α) (j : Nat) :
    mapGet d (mapIns k v m) j = if j = k then v else mapGet d m j := by
  induction m with
  | nil => simp [mapIns, mapGet]
  | cons e m ih =>
    obtain ⟨a, x⟩ := e
    simp only [mapIns]
    split
    · simp [mapGet]
    · split
      · subst_vars
        simp only [mapGet]
        split <;> rfl
      · simp only [mapGet, ih]
        by_cases h1 : j = a
        · subst h1
          have : j ≠ k := fun h => by omega
          simp [this]
        · simp [h1]

theorem mapGet_mapDel (d : α) (m : FMap α) (k j : Nat) :
    mapGet d (mapDel k m) j = if j = k then d else mapGet d m j := by
  induction m with
  | nil => simp [mapDel]
  | cons e m ih =>
    obtain ⟨a, x⟩ := e
    simp only [mapDel]
    split
    · rw [ih]
      subst_vars
      simp only [mapGet]
      split <;> simp_all
    · simp only [mapGet, ih]
      by_cases h1 : j = a
      · subst h1
        have : j ≠ k := fun h => by omega
        simp [this]
      · simp [h1]

/-- A read after a write: the value at the key written, what was there at every other. -/
theorem mapGet_mapSet [DecidableEq α] (d : α) (m : FMap α) (k : Nat) (v : α) (j : Nat) :
    mapGet d (mapSet d m k v) j = if j = k then v else mapGet d m j := by
  unfold mapSet
  split
  · subst_vars; exact mapGet_mapDel _ _ _ _
  · exact mapGet_mapIns _ _ _ _ _

@[simp] theorem mapGet_mapSet_same [DecidableEq α] (d : α) (m : FMap α) (k : Nat) (v : α) :
    mapGet d (mapSet d m k v) k = v := by simp [mapGet_mapSet]

theorem mapGet_mapSet_ne [DecidableEq α] (d : α) (m : FMap α) {k j : Nat} (v : α) (h : j ≠ k) :
    mapGet d (mapSet d m k v) j = mapGet d m j := by simp [mapGet_mapSet, h]

/-- As `mapGet_mapSet_ne`, where the write's unlisted value differs from the read's. -/
theorem mapGet_mapSet_other [DecidableEq α] (d d' : α) (m : FMap α) {k j : Nat} (v : α) (h : j ≠ k) :
    mapGet d (mapSet d' m k v) j = mapGet d m j := by
  unfold mapSet
  split <;> simp [mapGet_mapDel, mapGet_mapIns, h]

@[simp] theorem mapGet_mapUpd_same [DecidableEq α] (d : α) (m : FMap α) (k : Nat) (f : α → α) :
    mapGet d (mapUpd d m k f) k = f (mapGet d m k) := by simp [mapUpd]

theorem mapGet_mapUpd_ne [DecidableEq α] (d : α) (m : FMap α) {k j : Nat} (f : α → α) (h : j ≠ k) :
    mapGet d (mapUpd d m k f) j = mapGet d m j := by simp [mapUpd, mapGet_mapSet_ne, h]

/-- Consecutive writes leave every key outside their range. -/
theorem mapGet_mapPuts_out [DecidableEq α] (d : α) (vs : List α) (m : FMap α) (k j : Nat)
    (h : j < k ∨ k + vs.length ≤ j) : mapGet d (mapPuts d m k vs) j = mapGet d m j := by
  induction vs generalizing m k with
  | nil => rfl
  | cons v vs ih =>
    simp only [List.length_cons] at h
    simp only [mapPuts]
    rw [ih _ _ (by omega)]
    exact mapGet_mapSet_ne d m v (by omega)

/-- Consecutive writes: what the keys of their range read. -/
theorem mapGet_mapPuts_in [DecidableEq α] (d : α) (vs : List α) (m : FMap α) (k n : Nat) (h : n < vs.length) :
    mapGet d (mapPuts d m k vs) (k + n) = vs[n] := by
  induction vs generalizing m k n with
  | nil => simp at h
  | cons v vs ih =>
    simp only [mapPuts]
    cases n with
    | zero => rw [mapGet_mapPuts_out _ _ _ _ _ (by omega)]; simp
    | succ n =>
      have := ih (mapSet d m k v) (k + 1) n (by simpa using h)
      simpa [Nat.add_assoc, Nat.add_comm 1 n] using this

theorem mapGet_mapClear (d : α) (m : FMap α) (lo hi j : Nat) :
    mapGet d (mapClear lo hi m) j = if lo ≤ j ∧ j < hi then d else mapGet d m j := by
  induction m with
  | nil => simp [mapClear]
  | cons e m ih =>
    obtain ⟨a, x⟩ := e
    simp only [mapClear]
    split
    · rename_i h
      rw [ih]
      simp only [mapGet]
      by_cases h1 : j = a
      · subst h1; simp [h]
      · simp [h1]
    · rename_i h
      simp only [mapGet, ih]
      by_cases h1 : j = a
      · subst h1; simp [h]
      · simp [h1]

theorem mapAbove_mapDel (b k : Nat) (m : FMap α) (h : mapAbove b m = true) : mapAbove b (mapDel k m) = true := by
  induction m with
  | nil => rfl
  | cons e m ih =>
    obtain ⟨a, x⟩ := e
    simp only [mapAbove, List.all_cons, Bool.and_eq_true] at h ih ⊢
    simp only [mapDel]
    split
    · exact ih h.2
    · simp only [List.all_cons, Bool.and_eq_true]; exact ⟨h.1, ih h.2⟩

theorem mapAbove_mapIns (b k : Nat) (v : α) (m : FMap α) (hb : b < k) (h : mapAbove b m = true) :
    mapAbove b (mapIns k v m) = true := by
  induction m with
  | nil => simpa [mapIns, mapAbove] using hb
  | cons e m ih =>
    obtain ⟨a, x⟩ := e
    simp only [mapAbove, List.all_cons, Bool.and_eq_true, decide_eq_true_eq] at h ih ⊢
    simp only [mapIns]
    split
    · simp only [List.all_cons, Bool.and_eq_true, decide_eq_true_eq]; exact ⟨hb, h.1, h.2⟩
    · split
      · simp only [List.all_cons, Bool.and_eq_true, decide_eq_true_eq]; exact ⟨hb, h.2⟩
      · simp only [List.all_cons, Bool.and_eq_true, decide_eq_true_eq]; exact ⟨h.1, ih h.2⟩

theorem mapAbove_mono {a b : Nat} (m : FMap α) (h : b ≤ a) (ha : mapAbove a m = true) : mapAbove b m = true := by
  simp only [mapAbove, List.all_eq_true, decide_eq_true_eq] at *
  intro x hx
  exact Nat.lt_of_le_of_lt h (ha x hx)

variable [DecidableEq α]

theorem mapWf_mapDel (d : Nat → α) (k : Nat) (m : FMap α) (h : mapWf d m = true) : mapWf d (mapDel k m) = true := by
  induction m with
  | nil => rfl
  | cons e m ih =>
    obtain ⟨a, x⟩ := e
    simp only [mapWf, Bool.and_eq_true] at h
    simp only [mapDel]
    split
    · exact ih h.2
    · simp only [mapWf, Bool.and_eq_true]
      exact ⟨⟨h.1.1, mapAbove_mapDel _ _ _ h.1.2⟩, ih h.2⟩

theorem mapWf_mapIns (d : Nat → α) (k : Nat) (v : α) (m : FMap α) (hv : v ≠ d k) (h : mapWf d m = true) :
    mapWf d (mapIns k v m) = true := by
  induction m with
  | nil => simp [mapIns, mapWf, mapAbove, hv]
  | cons e m ih =>
    obtain ⟨a, x⟩ := e
    simp only [mapWf, Bool.and_eq_true, decide_eq_true_eq] at h
    simp only [mapIns]
    split
    · rename_i hk
      simp only [mapWf, Bool.and_eq_true, decide_eq_true_eq]
      refine ⟨⟨hv, ?_⟩, h⟩
      simp only [mapAbove, List.all_cons, Bool.and_eq_true, decide_eq_true_eq]
      exact ⟨hk, mapAbove_mono _ (Nat.le_of_lt hk) h.1.2⟩
    · split
      · subst_vars
        simp only [mapWf, Bool.and_eq_true, decide_eq_true_eq]
        exact ⟨⟨hv, h.1.2⟩, h.2⟩
      · simp only [mapWf, Bool.and_eq_true, decide_eq_true_eq]
        exact ⟨⟨h.1.1, mapAbove_mapIns _ _ _ _ (by omega) h.1.2⟩, ih h.2⟩

/-- A write keeps the canonical form. -/
theorem mapWf_mapSet (d : Nat → α) (m : FMap α) (k : Nat) (v : α) (h : mapWf d m = true) :
    mapWf d (mapSet (d k) m k v) = true := by
  unfold mapSet
  split
  · exact mapWf_mapDel _ _ _ h
  · exact mapWf_mapIns _ _ _ _ (by assumption) h

theorem mapWf_mapUpd (d : α) (m : FMap α) (k : Nat) (f : α → α) (h : mapWf (fun _ => d) m = true) :
    mapWf (fun _ => d) (mapUpd d m k f) = true := mapWf_mapSet (fun _ => d) m k _ h

theorem mapWf_mapPuts (d : α) (vs : List α) (m : FMap α) (k : Nat) (h : mapWf (fun _ => d) m = true) :
    mapWf (fun _ => d) (mapPuts d m k vs) = true := by
  induction vs generalizing m k with
  | nil => exact h
  | cons v vs ih => exact ih _ _ (mapWf_mapSet (fun _ => d) m k v h)

omit [DecidableEq α] in
theorem mapAbove_mapClear (b lo hi : Nat) (m : FMap α) (h : mapAbove b m = true) : mapAbove b (mapClear lo hi m) = true := by
  induction m with
  | nil => rfl
  | cons e m ih =>
    obtain ⟨a, x⟩ := e
    simp only [mapAbove, List.all_cons, Bool.and_eq_true] at h ih ⊢
    simp only [mapClear]
    split
    · exact ih h.2
    · simp only [List.all_cons, Bool.and_eq_true]; exact ⟨h.1, ih h.2⟩

theorem mapWf_mapClear (d : Nat → α) (lo hi : Nat) (m : FMap α) (h : mapWf d m = true) :
    mapWf d (mapClear lo hi m) = true := by
  induction m with
  | nil => rfl
  | cons e m ih =>
    obtain ⟨a, x⟩ := e
    simp only [mapWf, Bool.and_eq_true] at h
    simp only [mapClear]
    split
    · exact ih h.2
    · simp only [mapWf, Bool.and_eq_true]
      exact ⟨⟨h.1.1, mapAbove_mapClear _ _ _ _ h.1.2⟩, ih h.2⟩

end Sys2Proof.Machine
end

