-- ==== Sys2Proof/Laws/Reg.lean ====
section
/-! SUPPORT. Laws of the registers and their fields: what a read gives after a write. -/
namespace Sys2Proof.Machine

theorem bitsOf_lt (n lo w : Nat) : bitsOf n lo w < 2 ^ w := Nat.mod_lt _ (Nat.two_pow_pos w)

/-- The bits of a number in which some have been replaced, bit by bit. -/
theorem testBit_putBits (n lo w v b : Nat) :
    (putBits n lo w v).testBit b = if lo ≤ b ∧ b < lo + w then v.testBit (b - lo) else n.testBit b := by
  have e : putBits n lo w v = 2 ^ (lo + w) * (n / 2 ^ (lo + w)) + (2 ^ lo * (v % 2 ^ w) + n % 2 ^ lo) := by
    simp only [putBits, Nat.mul_comm, Nat.add_assoc]
  have h1 : n % 2 ^ lo < 2 ^ lo := Nat.mod_lt _ (Nat.two_pow_pos lo)
  have h2 : v % 2 ^ w < 2 ^ w := Nat.mod_lt _ (Nat.two_pow_pos w)
  have h3 : 2 ^ lo * (v % 2 ^ w) + n % 2 ^ lo < 2 ^ (lo + w) := by
    rw [Nat.pow_add]
    calc 2 ^ lo * (v % 2 ^ w) + n % 2 ^ lo < 2 ^ lo * (v % 2 ^ w) + 2 ^ lo := by omega
      _ = 2 ^ lo * (v % 2 ^ w + 1) := by ring
      _ ≤ 2 ^ lo * 2 ^ w := Nat.mul_le_mul_left _ h2
  rw [e, Nat.testBit_two_pow_mul_add _ h3, Nat.testBit_two_pow_mul_add _ h1]
  by_cases a : b < lo
  · have : b < lo + w := by omega
    have c : ¬ (lo ≤ b ∧ b < lo + w) := by omega
    simp [a, this, Nat.testBit_mod_two_pow]
  · by_cases c : b < lo + w
    · have : lo ≤ b ∧ b < lo + w := by omega
      have d : b - lo < w := by omega
      simp [a, c, this, Nat.testBit_mod_two_pow, d]
    · have : ¬ (lo ≤ b ∧ b < lo + w) := by omega
      have d : b - (lo + w) + (lo + w) = b := by omega
      simp [c, this, Nat.testBit_div_two_pow, d]

theorem testBit_bitsOf (n lo w b : Nat) : (bitsOf n lo w).testBit b = (decide (b < w) && n.testBit (lo + b)) := by
  simp [bitsOf, Nat.testBit_mod_two_pow, Nat.testBit_div_two_pow, Nat.add_comm]

/-- The bits replaced read as the bits put there. -/
theorem bitsOf_putBits_same (n lo w v : Nat) : bitsOf (putBits n lo w v) lo w = v % 2 ^ w := by
  refine Nat.eq_of_testBit_eq fun b => ?_
  rw [testBit_bitsOf, testBit_putBits, Nat.testBit_mod_two_pow]
  by_cases h : b < w
  · have : lo ≤ lo + b ∧ lo + b < lo + w := by omega
    simp [h, this]
  · simp [h]

/-- Bits outside those replaced stay. -/
theorem bitsOf_putBits_ne (n lo w v lo' w' : Nat) (h : lo' + w' ≤ lo ∨ lo + w ≤ lo') :
    bitsOf (putBits n lo w v) lo' w' = bitsOf n lo' w' := by
  refine Nat.eq_of_testBit_eq fun b => ?_
  rw [testBit_bitsOf, testBit_bitsOf, testBit_putBits]
  by_cases hb : b < w'
  · have : ¬ (lo ≤ lo' + b ∧ lo' + b < lo + w) := by omega
    rw [if_neg this]
  · simp [hb]

/-- Replacing bits below bit `k` keeps a number below `2 ^ k`. -/
theorem putBits_lt (n lo w v k : Nat) (h : lo + w ≤ k) (hn : n < 2 ^ k) : putBits n lo w v < 2 ^ k := by
  apply Nat.lt_pow_two_of_testBit
  intro b hb
  rw [testBit_putBits, if_neg (by omega)]
  exact Nat.testBit_lt_two_pow (Nat.lt_of_lt_of_le hn (Nat.pow_le_pow_right (by omega) hb))

theorem State.reg_lt (s : State) (r : Reg) (i j : Nat) : s.reg r i j < 2 ^ 64 := BitVec.isLt _

theorem State.fld_lt (s : State) (f : Fld) (i j : Nat) : s.fld f i j < 2 ^ f.w := bitsOf_lt _ _ _

/-- What a register reads after it has been stored. -/
theorem State.reg_setReg_same (s : State) (r : Reg) (v i j : Nat) : (s.setReg r v i j).reg r i j = v % 2 ^ 64 := by
  simp [State.reg, State.setReg]

/-- A store leaves every other register. -/
theorem State.reg_setReg_ne (s : State) {r r' : Reg} (v : Nat) {i j i' j' : Nat}
    (h : regAddr r' i' j' ≠ regAddr r i j) : (s.setReg r v i j).reg r' i' j' = s.reg r' i' j' := by
  simp only [State.reg, State.setReg, mapGet_mapSet_other _ _ _ _ h]

/-- What a field reads after it has been stored. -/
theorem State.fld_setFld_same (s : State) (f : Fld) (v i j : Nat) (h : f.lo + f.w ≤ 64) :
    (s.setFld f v i j).fld f i j = v % 2 ^ f.w := by
  simp only [State.fld, State.setFld, State.reg_setReg_same]
  rw [Nat.mod_eq_of_lt (putBits_lt _ _ _ _ 64 h (s.reg_lt _ _ _)), bitsOf_putBits_same]

/-- A store to a field leaves the register's other fields. -/
theorem State.fld_setFld_other (s : State) {f g : Fld} (v i j : Nat) (hr : g.reg = f.reg) (hf : f.lo + f.w ≤ 64)
    (h : g.lo + g.w ≤ f.lo ∨ f.lo + f.w ≤ g.lo) : (s.setFld f v i j).fld g i j = s.fld g i j := by
  simp only [State.fld, State.setFld, hr, State.reg_setReg_same]
  rw [Nat.mod_eq_of_lt (putBits_lt _ _ _ _ 64 hf (s.reg_lt _ _ _)), bitsOf_putBits_ne _ _ _ _ _ _ h]

/-- A store to a field leaves every other register. -/
theorem State.reg_setFld_ne (s : State) {f : Fld} {r : Reg} (v : Nat) {i j i' j' : Nat}
    (h : regAddr r i' j' ≠ regAddr f.reg i j) : (s.setFld f v i j).reg r i' j' = s.reg r i' j' :=
  s.reg_setReg_ne _ h

theorem State.fld_setFld_ne (s : State) {f g : Fld} (v : Nat) {i j i' j' : Nat}
    (h : regAddr g.reg i' j' ≠ regAddr f.reg i j) : (s.setFld f v i j).fld g i' j' = s.fld g i' j' := by
  simp only [State.fld, s.reg_setFld_ne v h]

theorem State.fld_setReg_ne (s : State) {g : Fld} {r : Reg} (v : Nat) {i j i' j' : Nat}
    (h : regAddr g.reg i' j' ≠ regAddr r i j) : (s.setReg r v i j).fld g i' j' = s.fld g i' j' := by
  simp only [State.fld, s.reg_setReg_ne v h]

theorem State.fld_setReg_same (s : State) (g : Fld) (v i j : Nat) :
    (s.setReg g.reg v i j).fld g i j = bitsOf (v % 2 ^ 64) g.lo g.w := by
  simp only [State.fld, State.reg_setReg_same]

/-- States with one register store read alike. -/
theorem State.reg_congr {s t : State} (h : s.regs = t.regs) (r : Reg) (i j : Nat) : s.reg r i j = t.reg r i j := by
  simp only [State.reg, h]

theorem State.fld_congr {s t : State} (h : s.regs = t.regs) (f : Fld) (i j : Nat) : s.fld f i j = t.fld f i j := by
  simp only [State.fld, State.reg_congr h]

/-- A saturating counter after an addition. -/
theorem State.fld_addSat_same (s : State) (f : Fld) (n i j : Nat) (h : f.lo + f.w ≤ 64) :
    (s.addSat f n i j).fld f i j = min (s.fld f i j + n) (2 ^ f.w - 1) := by
  rw [State.addSat, State.fld_setFld_same _ _ _ _ _ h]
  exact Nat.mod_eq_of_lt (by have := Nat.two_pow_pos f.w; omega)

theorem State.fld_inc_same (s : State) (f : Fld) (i j : Nat) (h : f.lo + f.w ≤ 64) :
    (s.inc f i j).fld f i j = min (s.fld f i j + 1) (2 ^ f.w - 1) := s.fld_addSat_same f 1 i j h

theorem State.reg_addSat_ne (s : State) {f : Fld} {r : Reg} (n : Nat) {i j i' j' : Nat}
    (h : regAddr r i' j' ≠ regAddr f.reg i j) : (s.addSat f n i j).reg r i' j' = s.reg r i' j' := s.reg_setFld_ne _ h

theorem State.reg_inc_ne (s : State) {f : Fld} {r : Reg} {i j i' j' : Nat}
    (h : regAddr r i' j' ≠ regAddr f.reg i j) : (s.inc f i j).reg r i' j' = s.reg r i' j' := s.reg_setFld_ne _ h

section
variable (s : State) (r : Reg) (f : Fld) (i j : Nat)
@[simp] theorem State.reg_tick (dt : Nat) : (s.tick dt).reg r i j = s.reg r i j := rfl
@[simp] theorem State.reg_emit (o : Output) : (s.emit o).reg r i j = s.reg r i j := rfl
@[simp] theorem State.reg_emits (o : List Output) : (s.emits o).reg r i j = s.reg r i j := rfl
@[simp] theorem State.reg_tell (o : Report) : (s.tell o).reg r i j = s.reg r i j := rfl
@[simp] theorem State.reg_useFree : s.useFree.reg r i j = s.reg r i j := rfl
@[simp] theorem State.reg_logAdd (a b c : Nat) (l : List Nat) : (s.logAdd a b c l).reg r i j = s.reg r i j := rfl
@[simp] theorem State.reg_logE (a c : Nat) (l : List Nat) : (s.logE a c l).reg r i j = s.reg r i j := rfl
@[simp] theorem State.fld_tick (dt : Nat) : (s.tick dt).fld f i j = s.fld f i j := rfl
@[simp] theorem State.fld_emit (o : Output) : (s.emit o).fld f i j = s.fld f i j := rfl
@[simp] theorem State.fld_emits (o : List Output) : (s.emits o).fld f i j = s.fld f i j := rfl
@[simp] theorem State.fld_tell (o : Report) : (s.tell o).fld f i j = s.fld f i j := rfl
@[simp] theorem State.fld_useFree : s.useFree.fld f i j = s.fld f i j := rfl
@[simp] theorem State.fld_logAdd (a b c : Nat) (l : List Nat) : (s.logAdd a b c l).fld f i j = s.fld f i j := rfl
@[simp] theorem State.fld_logE (a c : Nat) (l : List Nat) : (s.logE a c l).fld f i j = s.fld f i j := rfl
end

/-- The register store keeps its canonical form under every store. -/
theorem mapWf_setReg (s : State) (r : Reg) (v i j : Nat) (h : mapWf regDefault s.regs = true) :
    mapWf regDefault (s.setReg r v i j).regs = true := mapWf_mapSet regDefault _ _ _ h

/-- The log ring never holds more than 2,048 entries (R487). -/
theorem logAdd_length (s : State) (a b c : Nat) (l : List Nat) (h : s.log.length ≤ 2048) :
    (s.logAdd a b c l).log.length ≤ 2048 := by
  simp only [State.logAdd]
  split <;> rename_i q <;> simp at q ⊢ <;> omega

end Sys2Proof.Machine
end

