-- ==== Sys2Proof/Laws/Csm.lean ====
section
/-! SUPPORT. Laws of the command state machine: with nothing waiting it starts nothing, and a reply leaves nothing waiting. -/
namespace Sys2Proof.Machine

/-- Nothing waits on any queue. -/
def noneWaits (m : FMap Queue) : Bool := m.all fun q => q.2.waiting.isEmpty

theorem csmQuiet_eq (s : State) : s.csmQuiet = (noneWaits s.queues && s.netFifo.isEmpty) := rfl

theorem csmQuiet_congr {s t : State} (h1 : t.queues = s.queues) (h2 : t.netFifo = s.netFifo) : t.csmQuiet = s.csmQuiet := by
  simp only [csmQuiet_eq, h1, h2]

theorem noneWaits_get (m : FMap Queue) (k : Nat) (h : noneWaits m = true) : (mapGet queue0 m k).waiting = [] := by
  induction m with
  | nil => rfl
  | cons e m ih =>
    obtain ⟨a, x⟩ := e
    simp only [noneWaits, List.all_cons, Bool.and_eq_true, List.isEmpty_iff] at h ih
    simp only [mapGet]
    split
    · exact h.1
    · exact ih (by simpa [noneWaits] using h.2)

theorem noneWaits_set (m : FMap Queue) (k : Nat) (x : Queue) (h : noneWaits m = true) (hx : x.waiting = []) :
    noneWaits (mapSet queue0 m k x) = true := by
  have del : ∀ m : FMap Queue, noneWaits m = true → noneWaits (mapDel k m) = true := by
    intro m
    induction m with
    | nil => exact fun _ => rfl
    | cons e m ih =>
      intro h
      simp only [noneWaits, List.all_cons, Bool.and_eq_true] at h ih
      simp only [mapDel]
      split
      · exact ih h.2
      · simp only [noneWaits, List.all_cons, Bool.and_eq_true]; exact ⟨h.1, ih h.2⟩
  have ins : ∀ m : FMap Queue, noneWaits m = true → noneWaits (mapIns k x m) = true := by
    intro m
    induction m with
    | nil => intro _; simp [mapIns, noneWaits, hx]
    | cons e m ih =>
      intro h
      simp only [noneWaits, List.all_cons, Bool.and_eq_true] at h ih
      simp only [mapIns]
      split
      · simp only [noneWaits, List.all_cons, Bool.and_eq_true]
        exact ⟨by simp [hx], h.1, h.2⟩
      · split
        · simp only [noneWaits, List.all_cons, Bool.and_eq_true]; exact ⟨by simp [hx], h.2⟩
        · simp only [noneWaits, List.all_cons, Bool.and_eq_true]; exact ⟨h.1, ih h.2⟩
  unfold mapSet
  split
  · exact del m h
  · exact ins m h

theorem settleQ_empty (s : State) (q n : Nat) (h : (s.queue q).waiting = []) : s.settleQ q n = s := by
  cases n <;> simp [State.settleQ, h]

theorem settleNet_empty (s : State) (n : Nat) (h : s.netFifo = []) : s.settleNet n = s := by
  cases n <;> simp [State.settleNet, h]

/-- With nothing waiting the command state machine starts nothing. -/
theorem settle_quiet (s : State) (h : s.csmQuiet = true) : s.settle = s := by
  rw [csmQuiet_eq, Bool.and_eq_true, List.isEmpty_iff] at h
  have : ∀ l : FMap Queue, l.foldl (fun s q => s.settleQ q.1 q.2.waiting.length) s = s := by
    intro l
    induction l with
    | nil => rfl
    | cons e l ih => rw [List.foldl_cons, settleQ_empty _ _ _ (noneWaits_get _ _ h.1), ih]
  simp only [State.settle, this]
  exact settleNet_empty _ _ h.2

theorem csmQuiet_setQueue (s : State) (q : Nat) (x : Queue) (h : s.csmQuiet = true) (hx : x.waiting = []) :
    (s.setQueue q x).csmQuiet = true := by
  rw [csmQuiet_eq, Bool.and_eq_true] at h ⊢
  exact ⟨noneWaits_set _ _ _ h.1 hx, h.2⟩

theorem queue_waiting (s : State) (q : Nat) (h : s.csmQuiet = true) : (s.queue q).waiting = [] := by
  rw [csmQuiet_eq, Bool.and_eq_true] at h
  exact noneWaits_get _ _ h.1

@[simp] theorem csmQuiet_setReg (s : State) (r : Reg) (v i j : Nat) : (s.setReg r v i j).csmQuiet = s.csmQuiet := rfl
@[simp] theorem csmQuiet_setFld (s : State) (f : Fld) (v i j : Nat) : (s.setFld f v i j).csmQuiet = s.csmQuiet := rfl
@[simp] theorem csmQuiet_emit (s : State) (o : Output) : (s.emit o).csmQuiet = s.csmQuiet := rfl
@[simp] theorem csmQuiet_useFree (s : State) : s.useFree.csmQuiet = s.csmQuiet := rfl
@[simp] theorem csmQuiet_tick (s : State) (dt : Nat) : (s.tick dt).csmQuiet = s.csmQuiet := rfl

/-- A completion entry changes one queue, whose waiting commands stay. -/
theorem postCq_queues (s : State) (q : Nat) (r : Reply) :
    (s.postCq q r).netFifo = s.netFifo ∧
    ∃ x : Queue, x.waiting = (s.queue q).waiting ∧ (s.postCq q r).queues = mapSet queue0 s.queues q x := by
  have q0 : ∀ (t : State) (x : Queue), (t.setQueue q x).queues = mapSet queue0 t.queues q x := fun _ _ => rfl
  have q1 : ∀ (t : State) (x : Queue), (t.setQueue q x).netFifo = t.netFifo := fun _ _ => rfl
  unfold State.postCq State.cmdDone
  dsimp only
  (repeat' split) <;> simp only [State.setFld_queues, State.emit_queues, q0, q1, State.setFld_netFifo, State.emit_netFifo] <;>
    exact ⟨trivial, _, by rfl, rfl⟩

theorem csmQuiet_postCq (s : State) (q : Nat) (r : Reply) (h : s.csmQuiet = true) : (s.postCq q r).csmQuiet = true := by
  obtain ⟨h1, x, h2, h3⟩ := postCq_queues s q r
  have hx := h2.trans (queue_waiting s q h)
  rw [csmQuiet_eq, Bool.and_eq_true] at h ⊢
  rw [h1, h3]
  exact ⟨noneWaits_set _ _ _ h.1 hx, h.2⟩

/-- A final reply leaves nothing waiting. -/
theorem csmQuiet_reply (s : State) (h : CmdHdr) (st : Nat) (w : List Nat) (hq : s.csmQuiet = true) :
    (s.reply h st w).csmQuiet = true := by
  have h0 : ∀ l : List CmdHdr, ({ s with mcRun := l } : State).csmQuiet = true := fun l => by
    exact (csmQuiet_congr (s := s) (t := { s with mcRun := l }) rfl rfl).trans hq
  unfold State.reply
  simp only
  split
  · split
    · rw [State.cmdDone, csmQuiet_setFld, csmQuiet_setFld]; exact h0 _
    · split
      · exact csmQuiet_postCq _ _ _ (h0 _)
      · exact csmQuiet_setQueue _ _ _ (h0 _) (queue_waiting _ _ (h0 _))
  · exact (csmQuiet_congr (s := s) rfl rfl).trans hq
  · exact (csmQuiet_congr (s := s) rfl rfl).trans hq

/-- A PENDING reply leaves nothing waiting. -/
theorem csmQuiet_replyPending (s : State) (h : CmdHdr) (hq : s.csmQuiet = true) : (s.replyPending h).csmQuiet = true := by
  unfold State.replyPending
  split
  · exact hq
  · simp only
    split
    · split
      · exact csmQuiet_postCq _ _ _ hq
      · exact hq
    · exact (csmQuiet_congr (s := s) rfl rfl).trans hq
    · exact hq

/-- The MC's taking of a command leaves nothing waiting. -/
theorem csmQuiet_taken (s : State) (dt : Nat) (h : CmdHdr) (p : List Word) (hq : s.csmQuiet = true) :
    (s.taken dt h p).csmQuiet = true := by
  unfold State.taken State.mcTake
  simp only
  split <;> exact (csmQuiet_congr (s := s) rfl rfl).trans hq

/-- Taking a command changes the MC FIFO, what the MC runs, and CMD_STAT. -/
theorem taken_frame (s : State) (dt : Nat) (h : CmdHdr) (p : List Word) :
    s.taken dt h p = { s.tick dt with mcFifo := (s.taken dt h p).mcFifo, mcRun := s.mcRun ++ [h],
                                      regs := (s.taken dt h p).regs } := by
  unfold State.taken State.mcTake
  simp only
  split <;> rfl

end Sys2Proof.Machine
end

