-- ==== Sys2Proof/Laws/Keeps.lean ====
section
/-! SUPPORT. Frames over registers, and accesses that reach their register. -/
namespace Sys2Proof.Machine

theorem keeps_of_regs {s t : State} (l) (h : t.regs = s.regs) : s.keeps t l := fun _ _ _ _ _ => State.reg_congr h _ _ _

theorem keeps_mono {s t : State} {l l' : List (Reg × Nat × Nat)} (h : s.keeps t l) (hl : ∀ x ∈ l, x ∈ l') : s.keeps t l' :=
  fun r i j hh hn => h r i j hh fun hm => hn (hl _ hm)

theorem keeps_trans {s t u : State} {l l' : List (Reg × Nat × Nat)} (h : s.keeps t l) (h' : t.keeps u l') : s.keeps u (l ++ l') :=
  fun r i j hh hn => (h' r i j hh fun hm => hn (List.mem_append.2 (.inr hm))).trans
    (h r i j hh fun hm => hn (List.mem_append.2 (.inl hm)))

/-- A register write keeps every other register. -/
theorem keeps_setReg (s : State) {g : Reg} {i j : Nat} (v : Nat) (hg : regHas g i j) : s.keeps (s.setReg g v i j) [(g, i, j)] := by
  intro r a b hh hn
  apply State.reg_setReg_ne
  intro e
  obtain ⟨rfl, rfl, rfl⟩ := regAddr_inj hh.1 hh.2 hg.1 hg.2 e
  simp at hn

/-- A field write keeps every other register. -/
theorem keeps_setFld (s : State) (f : Fld) {i j : Nat} (v : Nat) (hg : regHas f.reg i j) :
    s.keeps (s.setFld f v i j) [(f.reg, i, j)] := keeps_setReg s _ hg

theorem keeps_inc (s : State) (f : Fld) {i j : Nat} (hg : regHas f.reg i j) : s.keeps (s.inc f i j) [(f.reg, i, j)] :=
  keeps_setReg s _ hg

theorem reaches_tick {s : State} {r a n h} (dt : Nat) (hr : s.reaches r a n h) : (s.tick dt).reaches r a n h := hr

/-- A 4-byte read that reaches a register reads it. -/
theorem bar0Read_of_reaches {s : State} {r a h} (hr : s.reaches r a 4 h) : s.bar0Read r a 4 = s.wordRead r h := by
  obtain ⟨h1, h2, h3⟩ := hr
  simp [State.bar0Read, h1, h2, h3]

/-- A 4-byte write that reaches a register writes it. -/
theorem bar0Write_of_reaches {s : State} {r a h v} (hr : s.reaches r a 4 h) : s.bar0Write r a 4 v = s.wordWrite r h v := by
  obtain ⟨h1, h2, h3⟩ := hr
  simp [State.bar0Write, h1, h2, h3]

end Sys2Proof.Machine
end

