-- ==== Sys2Proof/Laws/Memory.lean ====
section
/-! SUPPORT. The depot and HBM: what a write leaves, and that every memory operation keeps the canonical form. -/
namespace Sys2Proof.Machine

/-- The stores and their marks are in canonical form. -/
def State.memWf (s : State) : Prop :=
  Memory.wf s.depot = true ∧ Memory.wf s.hbm = true ∧ mapWf (fun _ => false) s.depotPoison = true ∧
  mapWf (fun _ => false) s.hbmPoison = true

theorem memWf_reset : State.reset.memWf := ⟨rfl, rfl, rfl, rfl⟩

/-- Only the four stores matter. -/
theorem memWf_congr {s t : State} (h1 : t.depot = s.depot) (h2 : t.hbm = s.hbm) (h3 : t.depotPoison = s.depotPoison)
    (h4 : t.hbmPoison = s.hbmPoison) (h : s.memWf) : t.memWf := by
  unfold State.memWf at *; rw [h1, h2, h3, h4]; exact h

/-- Updates that keep the canonical form keep it one after the other. -/
theorem memWf_foldl {β : Type} (f : State → β → State) (hf : ∀ s x, s.memWf → (f s x).memWf) (l : List β) (s : State)
    (h : s.memWf) : (l.foldl f s).memWf := by
  induction l generalizing s with
  | nil => exact h
  | cons x l ih => exact ih _ (hf s x h)

/-- Dropping entries keeps the canonical form. -/
theorem mapAbove_filter {α : Type} (b : Nat) (p : Nat × α → Bool) (m : FMap α) (h : mapAbove b m = true) :
    mapAbove b (m.filter p) = true := by
  simp only [mapAbove, List.all_eq_true] at *
  exact fun x hx => h x (List.mem_of_mem_filter hx)

theorem mapWf_filter {α : Type} [DecidableEq α] (d : Nat → α) (p : Nat × α → Bool) (m : FMap α) (h : mapWf d m = true) :
    mapWf d (m.filter p) = true := by
  induction m with
  | nil => rfl
  | cons e m ih =>
    obtain ⟨a, x⟩ := e
    simp only [mapWf, Bool.and_eq_true] at h
    rw [List.filter_cons]
    split
    · simp only [mapWf, Bool.and_eq_true]
      exact ⟨⟨h.1.1, mapAbove_filter _ _ _ h.1.2⟩, ih h.2⟩
    · exact ih h.2

/-- Writes at the keys of a list, one by one, keep the canonical form. -/
theorem mapWf_foldl_set {α β : Type} [DecidableEq α] (d : α) (key : β → Nat) (val : β → α) (l : List β) (m : FMap α)
    (h : mapWf (fun _ => d) m = true) : mapWf (fun _ => d) (l.foldl (fun m e => mapSet d m (key e) (val e)) m) = true := by
  induction l generalizing m with
  | nil => exact h
  | cons e l ih => exact ih _ (mapWf_mapSet (fun _ => d) m _ _ h)

/-! ## HBM -/

theorem hbmPuts_hbm (s : State) (p : Nat) (bs : List Byte) : (s.hbmPuts p bs).hbm = mapPuts 0 s.hbm p bs := by
  induction bs generalizing s p with
  | nil => rfl
  | cons b bs ih => exact ih (s.hbmPut p b) (p + 1)

/-- A write of bytes changes HBM's bytes alone. -/
theorem hbmPuts_else (s : State) (p : Nat) (bs : List Byte) : s.hbmPuts p bs = { s with hbm := (s.hbmPuts p bs).hbm } := by
  induction bs generalizing s p with
  | nil => rfl
  | cons b bs ih => simp only [State.hbmPuts]; rw [ih]; rfl

theorem hbmMarks_else (s : State) (p len : Nat) (m : Bool) (u n : Nat) :
    s.hbmMarks p len m u n = { s with hbmPoison := (s.hbmMarks p len m u n).hbmPoison } := by
  induction n generalizing s u with
  | zero => rfl
  | succ n ih => simp only [State.hbmMarks]; rw [ih]; rfl

theorem hbmMarks_wf (s : State) (p len : Nat) (m : Bool) (u n : Nat) (h : mapWf (fun _ => false) s.hbmPoison = true) :
    mapWf (fun _ => false) (s.hbmMarks p len m u n).hbmPoison = true := by
  induction n generalizing s u with
  | zero => exact h
  | succ n ih => exact ih _ _ (mapWf_mapSet (fun _ => false) s.hbmPoison u _ h)

@[simp] theorem hbmMarks_hbm (s : State) (p len : Nat) (m : Bool) (u n : Nat) : (s.hbmMarks p len m u n).hbm = s.hbm := by
  rw [hbmMarks_else]

/-- A write of bytes: the bytes written read back. -/
theorem hbmWritePhys_in (s : State) (p : Nat) (bs : List Byte) (m : Bool) (n : Nat) (h : n < bs.length) :
    (s.hbmWritePhys p bs m).hbmByte (p + n) = bs[n] := by
  simp only [State.hbmWritePhys, State.hbmByte, hbmPuts_hbm]
  exact mapGet_mapPuts_in 0 bs _ p n h

/-- A write of bytes: every other byte stays. -/
theorem hbmWritePhys_out (s : State) (p : Nat) (bs : List Byte) (m : Bool) (a : Nat) (h : a < p ∨ p + bs.length ≤ a) :
    (s.hbmWritePhys p bs m).hbmByte a = s.hbmByte a := by
  simp only [State.hbmWritePhys, State.hbmByte, hbmPuts_hbm, hbmMarks_hbm]
  exact mapGet_mapPuts_out 0 bs _ p a h

/-- A write of bytes changes HBM and its marks alone. -/
theorem hbmWritePhys_else (s : State) (p : Nat) (bs : List Byte) (m : Bool) : s.hbmWritePhys p bs m =
    { s with hbm := (s.hbmWritePhys p bs m).hbm, hbmPoison := (s.hbmWritePhys p bs m).hbmPoison } := by
  simp only [State.hbmWritePhys]; rw [hbmPuts_else, hbmMarks_else]

theorem memWf_hbmPut (s : State) (p : Nat) (b : Byte) (h : s.memWf) : (s.hbmPut p b).memWf :=
  ⟨h.1, mapWf_mapSet (fun _ => 0) s.hbm p b h.2.1, h.2.2.1, h.2.2.2⟩

theorem memWf_hbmPutMark (s : State) (u : Nat) (m : Bool) (h : s.memWf) : (s.hbmPutMark u m).memWf :=
  ⟨h.1, h.2.1, h.2.2.1, mapWf_mapSet (fun _ => false) s.hbmPoison u m h.2.2.2⟩

theorem memWf_hbmPuts (s : State) (p : Nat) (bs : List Byte) (h : s.memWf) : (s.hbmPuts p bs).memWf := by
  induction bs generalizing s p with
  | nil => exact h
  | cons b bs ih => exact ih _ _ (memWf_hbmPut s p b h)

theorem memWf_hbmMarks (s : State) (p len : Nat) (m : Bool) (u n : Nat) (h : s.memWf) : (s.hbmMarks p len m u n).memWf := by
  induction n generalizing s u with
  | zero => exact h
  | succ n ih => exact ih _ _ (memWf_hbmPutMark s u _ h)

theorem memWf_hbmWritePhys (s : State) (p : Nat) (bs : List Byte) (m : Bool) (h : s.memWf) : (s.hbmWritePhys p bs m).memWf :=
  memWf_hbmPuts _ _ _ (memWf_hbmMarks _ _ _ _ _ _ h)

theorem memWf_hbmWriteMig (s : State) (p : Nat) (bs : List Byte) (m : Bool) (h : s.memWf) : (s.hbmWriteMig p bs m).memWf := by
  unfold State.hbmWriteMig
  simp only
  split
  · exact memWf_hbmWritePhys _ _ _ _ (memWf_hbmWritePhys _ _ _ _ h)
  · exact memWf_hbmWritePhys _ _ _ _ h

/-- Copying a page keeps the canonical form (R431). -/
theorem memWf_pageCopy (s : State) (k a b : Nat) (h : s.memWf) : (s.pageCopy k a b).memWf :=
  ⟨h.1, mapWf_foldl_set 0 (fun e : Nat × Byte => k * stackBytes + b * pageBytes + (e.1 - (k * stackBytes + a * pageBytes))) Prod.snd _ _
      (mapWf_mapClear _ _ _ _ h.2.1), h.2.2.1,
    mapWf_foldl_set false (fun e : Nat × Bool => (k * stackBytes + b * pageBytes) / 64 + (e.1 - (k * stackBytes + a * pageBytes) / 64))
      Prod.snd _ _ (mapWf_mapClear _ _ _ _ h.2.2.2)⟩

/-- The loss and the zeroing of a stack keep the canonical form (R442, R514). -/
theorem memWf_hbmGone (s : State) (k : Nat) (h : s.memWf) : (s.hbmGone k).memWf :=
  ⟨h.1, mapWf_mapClear _ _ _ _ h.2.1, h.2.2.1, mapWf_mapClear _ _ _ _ h.2.2.2⟩

theorem memWf_hbmZero (s : State) (k : Nat) (h : s.memWf) : (s.hbmZero k).memWf :=
  ⟨h.1, mapWf_filter _ _ _ h.2.1, h.2.2.1, mapWf_filter _ _ _ h.2.2.2⟩

/-! ## Depot -/

theorem memWf_depotBytesPut (s : State) (a : Nat) (bs : List (Option (Byte × Bool))) (h : s.memWf) : (s.depotBytesPut a bs).memWf := by
  induction bs generalizing s a with
  | nil => exact h
  | cons b bs ih =>
    cases b with
    | none => exact ih _ _ h
    | some q => exact ih _ _ ⟨mapWf_mapSet (fun _ => 0) s.depot _ _ h.1, h.2⟩

theorem memWf_depotMarks (s : State) (a : Nat) (bs : List (Option (Byte × Bool))) (h : s.memWf) : (s.depotMarks a bs).memWf := by
  unfold State.depotMarks
  refine memWf_foldl _ ?_ _ _ h
  intro u i k
  exact ⟨k.1, k.2.1, mapWf_mapSet (fun _ => false) u.depotPoison _ _ k.2.2.1, k.2.2.2⟩

/-- A depot write keeps the canonical form (R329). -/
theorem memWf_depotPut (s : State) (a : Nat) (bs : List (Option (Byte × Bool))) (h : s.memWf) : (s.depotPut a bs).memWf :=
  memWf_depotBytesPut _ _ _ (memWf_depotMarks _ _ _ h)

end Sys2Proof.Machine
end

