-- ==== Sys2Proof/Tests/Slice0.lean ====
section
/-! SUPPORT. Tests: ill-formed operands are refused, and small states on which the hypotheses of the obligations hold and a step gives
what the rules say. -/
namespace Sys2Proof.Tests
set_option Elab.async false
open Sys2Proof.Machine

/-- A command answers a next state on which `p` holds. -/
def got (c : Instr) (s : State) (p : State → Bool) : Bool :=
  match exec c s with
  | .next t => p t
  | _ => false

/-- The reset state with these registers. -/
def rg (l : FMap DWord) : State := { State.reset with regs := l }
/-- A device in D0, READY, with every domain on (DEV_START.STAGE 8 and the fifteen PWR_DOM with STATE 1), pair 0 ACTIVE with further
registers by address below and above these. -/
def up (lo hi : FMap DWord) : State := { State.reset with regs := (0x100, 0x80000000) :: (lo ++
  [(0xB00200, 0xA0000000), (0xB00204, 0xA0000000), (0xB00208, 0xA0000000), (0xB0020C, 0xA0000000), (0xB00210, 0xA0000000),
   (0xB00214, 0xA0000000), (0xB00218, 0xA0000000), (0xB0021C, 0xA0000000), (0xB00220, 0xA0000000), (0xB00224, 0xA0000000),
   (0xB00228, 0xA0000000), (0xB0022C, 0xA0000000), (0xB00230, 0xA0000000), (0xB00234, 0xA0000000), (0xB00238, 0xA0000000)] ++ hi) }

/-- A header of the MC with opcode `op`, and fourteen parameters of which the first are given. -/
def hd (op : Nat) : CmdHdr := ⟨.mc, op, 0, 17, 1001, 0⟩
def pr (l : List Nat) : List Word := (List.range 14).map fun i => BitVec.ofNat 32 (l.getD i 0)

/-- A test that an access reaches a register. -/
theorem reach {s : State} {r : Requester} {a n : Nat} {h : RegHit} (e : (!inWayRec a && (match s.access a n with
    | .ok x => decide (x = h)
    | _ => false) && !s.otherLink r h) = true) : s.reaches r a n h := by
  simp only [Bool.and_eq_true, Bool.not_eq_true'] at e
  obtain ⟨⟨h1, h2⟩, h3⟩ := e
  refine ⟨h1, ?_, h3⟩
  cases k : s.access a n <;> simp [k] at h2
  rw [h2]

/-! ## Ill-formed operands -/

theorem test_wf_reg : (Instr.regReadClear 0 .mc 0x3FFFFFF 4).wellFormed = false := by decide
theorem test_wf_reg_data : (Instr.registerWrite 0 .mc 0 4 (2 ^ 32)).wellFormed = false := by decide
theorem test_wf_bar : (Instr.bar2Access 0 0 0 4 (some [1])).wellFormed = false := by decide
theorem test_wf_hbm_measures : (Instr.measUpdate 0 0 0 0 0 []).wellFormed = false := by decide
theorem test_wf_tdr : (Instr.tdrComplete 0 0 ⟨16, 0, 0⟩).wellFormed = false := by decide
theorem test_wf_reply : (Instr.cxpControlReply 0 (.conn 0 (2 ^ 32))).wellFormed = false := by decide
theorem test_wf_rows : (Instr.lineReceived 0 0 0 1 [[65536]]).wellFormed = false := by decide
theorem test_wf_line : (Instr.lineReceived 0 0 256 1 []).wellFormed = false := by decide
theorem test_wf_event : (Instr.cxpEventPacket 0 0 0 (List.replicate 1025 0)).wellFormed = false := by decide +kernel
theorem test_wf_tap : (Instr.tapReturnRow 0 0 0 0 0 8 [] 0).wellFormed = false := by decide
theorem test_wf_rate : (Instr.tileRateWindow 0 [(0, 1, 0), (1, 2, 3)]).wellFormed = false := by decide
theorem test_wf_sense : (Instr.tileSenseConvert 0 0 2048 0).wellFormed = false := by decide
theorem test_wf_export : (Instr.exportRowReceived 0 0 0 0 65536 []).wellFormed = false := by decide
theorem test_wf_rec : (Instr.egressRecord 0 ⟨8, 0, 0, 0, ⟨0, 0, 0, 0⟩, []⟩).wellFormed = false := by decide
theorem test_wf_hdr : (Instr.msWaitTimeout 0 ⟨.mc, 65536, 0, 0, 0, 0⟩).wellFormed = false := by decide
theorem test_wf_pkt : (Instr.nop 0 (hd 0x100) []).wellFormed = false := by decide
theorem test_wf_mac : (Instr.quarantineExpire 0 0 (2 ^ 48)).wellFormed = false := by decide
theorem test_wf_ptp : (Instr.ptpMessage 0 0 0 (.followUp 128 0 0 0 0)).wellFormed = false := by decide
theorem test_wf_frame : (Instr.ethFrameReceived 0 0 ⟨0, 64, some 4096, true, .pause⟩).wellFormed = false := by decide
theorem test_wf_ctl : (Instr.jctControlMessage 0 0 ⟨256, 0, 0, .go 0⟩).wellFormed = false := by decide
theorem test_wf_flit : (Instr.flitReceived 0 0 ⟨0, 0, 4096, 0, 0, 0, 0, .bytes [], true⟩).wellFormed = false := by decide
theorem test_wf_hello : (Instr.jctHello 0 0 0 0 256 0 0 0).wellFormed = false := by decide
theorem test_wf_position : (Instr.positionMessage 0 (2 ^ 64) false []).wellFormed = false := by decide
theorem test_wf_cal : (Instr.calSwapComplete 0 8 1).wellFormed = false := by decide
theorem test_wf_bsense : (Instr.bsenseAverage 0 0 65536).wellFormed = false := by decide
theorem test_wf_page : (Instr.ethLinkUp 0 0 0 false (2 ^ 48) 0).wellFormed = false := by decide
theorem test_wf_wait : (Instr.pcieCompletionTimeout 0 (.buffer (hd 0x502) [])).wellFormed = false := by decide

theorem test_step_keeps_meets : (State.reset.canonical = true ∧ step State.reset = .next State.reset) ∧
    (match step { State.reset with pending := [.registerWrite 0 .mc 0x20 4 1] } with
      | .next t => t.canonical && t.pending == []
      | _ => false) = true := by
  refine ⟨⟨by decide +kernel, rfl⟩, by decide +kernel⟩
/-! ## Registers -/

theorem test_idle : step State.reset = .next State.reset := rfl
theorem test_front : step { State.reset with pending := [.sqFetchComplete 7 0 .error, .heartbeat 1] } =
    exec (.sqFetchComplete 7 0 .error) { State.reset with pending := [.heartbeat 1] } := rfl

/-- A wake time of 0x5_0000_0007, with a latched word 9. -/
def wk (latch : Bool) : State := { (rg [(0xB00010, 0x500000007)] /- PWR_WAKE_TIME_TIME=0x500000007 -/) with
  latch := if latch then [(holdKey .mc (hitOf .PWR_WAKE_TIME 0 0), some 9)] else [] }

theorem test_low_word_read : (regRow .PWR_WAKE_TIME).width = 64 ∧ regHas .PWR_WAKE_TIME 0 0 ∧
    (wk true).reaches .mc (regAddr .PWR_WAKE_TIME) 4 (hitOf .PWR_WAKE_TIME 0 0) ∧
    got (.regRead64Low 3 .mc (regAddr .PWR_WAKE_TIME) 4) (wk true) (fun t =>
      t.out == [.readData .mc 7] && mapGet none t.latch (holdKey .mc (hitOf .PWR_WAKE_TIME 0 0)) == some 5) = true :=
  ⟨rfl, by decide, reach (by decide +kernel), by decide +kernel⟩
theorem test_high_word_read : (wk true).reaches .mc (regAddr .PWR_WAKE_TIME + 4) 4 ⟨.PWR_WAKE_TIME, 0, 0, true⟩ ∧
    got (.regRead64High 3 .mc (regAddr .PWR_WAKE_TIME + 4)) (wk true) (fun t => t.out == [.readData .mc 9] && t.latch == []) = true ∧
    got (.regRead64High 3 .mc (regAddr .PWR_WAKE_TIME + 4)) (wk false) (fun t => t.out == [.readData .mc 5]) = true :=
  ⟨reach (by decide +kernel), by decide +kernel, by decide +kernel⟩
theorem test_high_word_write : (wk false).reaches .mc (regAddr .PWR_WAKE_TIME + 4) 4 ⟨.PWR_WAKE_TIME, 0, 0, true⟩ ∧
    got (.regWrite64High 3 .mc (regAddr .PWR_WAKE_TIME + 4) 6) (wk false) (fun t => t.stage.map (·.2) == [some 6]) = true :=
  ⟨reach (by decide +kernel), by decide +kernel⟩
theorem test_read_clears : (regRow .PWR_THROT).width = 32 ∧ regHas .PWR_THROT 0 0 ∧
    (rg [(0xB0002C, 0x20000004)] /- PWR_THROT_HALVINGS=4; PWR_THROT_CAP=1 -/).reaches .mc (regAddr .PWR_THROT) 4 (hitOf .PWR_THROT 0 0) ∧
    got (.regReadClear 0 .mc (regAddr .PWR_THROT) 4) (rg [(0xB0002C, 0x20000004)] /- PWR_THROT_HALVINGS=4; PWR_THROT_CAP=1 -/) (fun t =>
      t.out == [.readData .mc 0x20000004] && t.fld F.PWR_THROT_HALVINGS == 0 && t.flag F.PWR_THROT_CAP) = true :=
  ⟨rfl, by decide, reach (by decide +kernel), by decide +kernel⟩

/-- A write of `v` at BAR0 address `a` reaches register `g` `i`, which no rule refuses. -/
def plainWrite (s : State) (r : Requester) (a v : Nat) (g : Reg) (i : Nat) : Prop :=
  plainReg g = true ∧ regHas g i 0 ∧ s.reaches r a 4 (hitOf g i 0) ∧ s.regRefused r (hitOf g i 0) = none ∧
  ∀ f ∈ (regRow g).fields, s.fieldKind r (hitOf g i 0) (s.reg g i 0) v f = none

theorem test_write_w1c : plainWrite (rg [(0xB0002C, 0xA0000000)] /- PWR_THROT_THERM=1; PWR_THROT_CAP=1 -/) .mc (regAddr .PWR_THROT) 0x20000000 .PWR_THROT 0 ∧
    got (.registerWrite 0 .mc (regAddr .PWR_THROT) 4 0x20000000) (rg [(0xB0002C, 0xA0000000)] /- PWR_THROT_THERM=1; PWR_THROT_CAP=1 -/) (fun t =>
      !t.flag F.PWR_THROT_CAP && t.flag F.PWR_THROT_THERM) = true :=
  ⟨⟨rfl, by decide, reach (by decide +kernel), by decide +kernel, by decide +kernel⟩, by decide +kernel⟩
theorem test_write_aperture : plainWrite (up [] []) .hostA (regAddr .DEV_APERTURE) 95 .DEV_APERTURE 0 ∧
    got (.devApertureWrite 0 .hostA 95) (up [] []) (fun t => t.reg .DEV_APERTURE == 95) = true :=
  ⟨⟨rfl, by decide, reach (by decide +kernel), by decide +kernel, by decide +kernel⟩, by decide +kernel⟩
theorem test_write_stream : plainWrite (up [] []) .hostA (regAddr .NET_RS_CFG 15) 0x800000FF .NET_RS_CFG 15 ∧
    got (.netRsCfgWrite 0 .hostA 15 0x800000FF) (up [] []) (fun t => t.fld F.NET_RS_CFG_CONNS 15 == 255 && t.flag F.NET_RS_CFG_EN 15) = true :=
  ⟨⟨rfl, by decide, reach (by decide +kernel), by decide +kernel, by decide +kernel⟩, by decide +kernel⟩
theorem test_write_staging : plainWrite (up [] []) .hostA 0x3F0004 3 .REF_CTRL 15 ∧
    got (.refStagingWrite 0 .hostA 15 4 3) (up [] []) (fun t => t.fld F.REF_CTRL_TAB_BANK 15 == 1 && t.flag F.REF_CTRL_FORCE_HS 15) = true :=
  ⟨⟨rfl, by decide, reach (by decide +kernel), by decide +kernel, by decide +kernel⟩, by decide +kernel⟩
theorem test_wrong_access : inWayRec 0x1440000 = false ∧ (match State.reset.access 0x1440000 4 with
      | .error k => k
      | _ => 0) = 1 ∧
    got (.regReadClear 0 .hostA 0x1440000 4) State.reset (fun t => t.out == [.readData .hostA 0] && t.flag F.RAS_STAT_AEL) = true :=
  ⟨by decide, by decide +kernel, by decide +kernel⟩

/-! ## Doorbells, guarded writes, host windows -/

/-- Queue 63 enabled with 16 entries each way, head 2, six entries unread. -/
def qs (en unread : Nat) : State := { (up [(0x101FD0, 0x4040000), (0x101FD8, 0x2)] [] /- CMD_Q_CFG_SQ_LOG2(63)=4; CMD_Q_CFG_CQ_LOG2(63)=4; CMD_CQ_HEAD_HEAD(63)=2 -/) with
  queues := [(63, ⟨8, true, unread, [], [], false⟩)] }.setFld F.CMD_Q_CFG_EN en 63

theorem test_sq_tail : (qs 1 6).reaches .hostA (regAddr .CMD_SQ_TAIL 63) 4 (hitOf .CMD_SQ_TAIL 63 0) ∧
    (15 < (qs 1 6).sqDepth 63 ∧ (qs 1 6).flag F.CMD_Q_CFG_EN 63 = true ∧ (qs 1 6).sqDepth 63 ≤ 16 ∧ (qs 0 0).flag F.CMD_Q_CFG_EN 63 = false) ∧
    got (.sqTailDoorbell 0 .hostA 63 15) (qs 1 6) (fun t => t.fld F.CMD_SQ_TAIL_TAIL 63 == 15 && !t.flag F.CMD_Q_STAT_DB_ERR 63) = true ∧
    got (.sqTailDoorbell 0 .hostA 63 16) (qs 1 6) (fun t => t.fld F.CMD_SQ_TAIL_TAIL 63 == 0 && t.flag F.CMD_Q_STAT_DB_ERR 63) = true ∧
    got (.sqTailDoorbell 0 .hostA 63 1) (qs 0 0) (fun t => t.flag F.CMD_Q_STAT_DB_ERR 63 && t.fld F.RAS_AEL2_KIND 0 == 9) = true :=
  ⟨reach (by decide +kernel), by decide +kernel, by decide +kernel, by decide +kernel, by decide +kernel⟩
theorem test_cq_head : (qs 1 6).reaches .hostA (regAddr .CMD_CQ_HEAD 63) 4 (hitOf .CMD_CQ_HEAD 63 0) ∧
    ((8 + (qs 1 6).cqDepth 63 - (qs 1 6).fld F.CMD_CQ_HEAD_HEAD 63) % (qs 1 6).cqDepth 63 = 6 ∧ ((qs 1 6).queue 63).held = []) ∧
    got (.cqHeadDoorbell 0 .hostA 63 8) (qs 1 6) (fun t => t.fld F.CMD_CQ_HEAD_HEAD 63 == 8 && (t.queue 63).unread == 0) = true ∧
    got (.cqHeadDoorbell 0 .hostA 63 9) (qs 1 6) (fun t => t.fld F.CMD_CQ_HEAD_HEAD 63 == 2 && t.flag F.CMD_Q_STAT_DB_ERR 63) = true :=
  ⟨reach (by decide +kernel), by decide +kernel, by decide +kernel, by decide +kernel⟩
theorem test_queue_enable : (qs 0 0).reaches .hostA (regAddr .CMD_Q_CFG 63) 4 (hitOf .CMD_Q_CFG 63 0) ∧
    ((qs 0 0).flag F.CMD_Q_STAT_IDLE 63 = true ∧ bitsOf 0x8C01804F 0 7 = 79) ∧
    got (.qCfgWrite 0 .hostA 63 0x8C01804F) (qs 0 0) (fun t => t.fld F.CMD_Q_CFG_SQ_LOG2 63 == 12 && t.fld F.CMD_CQ_HEAD_HEAD 63 == 0 &&
      (t.queue 63).cqTail == 0 && t.fld F.CMD_Q_CFG_VEC 63 == 79) = true :=
  ⟨reach (by decide +kernel), by decide +kernel, by decide +kernel⟩

/-- Ring 15 with 64 bytes written and head 32. -/
def eg : State := { (up [(0x1033C8, 0x20)] [] /- CMD_EGR_HEAD_HEAD(15)=32 -/) with rings := [(15, { ringE0 with written := 64 })] }

theorem test_egress_head : eg.reaches .hostA (regAddr .CMD_EGR_HEAD 15) 8 (hitOf .CMD_EGR_HEAD 15 0) ∧
    got (.egrHeadWrite 0 .hostA 15 64) eg (fun t => t.fld F.CMD_EGR_HEAD_HEAD 15 == 64) = true ∧
    got (.egrHeadWrite 0 .hostA 15 80) eg (fun t => t.fld F.CMD_EGR_HEAD_HEAD 15 == 32 && t.flag F.RAS_STAT_AEL) = true :=
  ⟨reach (by decide +kernel), by decide +kernel, by decide +kernel⟩
theorem test_stream_auth : (up [] []).reaches .hostA (regAddr .NET_RS_CFG 15) 4 (hitOf .NET_RS_CFG 15 0) ∧
    ((up [] []).flag F.NET_RS_CFG_AUTH 15 = false ∧ bitsOf 0xF8000001 27 3 = 7) ∧
    got (.netRsCfgWrite 0 .hostA 15 0xF8000001) (up [] []) (fun t => !t.flag F.NET_RS_CFG_AUTH 15 && t.flag F.RAS_STAT_AEL) = true ∧
    got (.netRsCfgWrite 0 .hostA 15 0xF8000001) { (up [] []) with keyFresh := [(7, true)] } (fun t => t.flag F.NET_RS_CFG_AUTH 15) = true :=
  ⟨reach (by decide +kernel), by decide +kernel, by decide +kernel, by decide +kernel⟩
theorem test_gige_binding : (up [] [(0xF00318, 0x80000000)] /- NET_STAT_STATE(3)=2 -/).reaches .hostA (regAddr .NET_GV_CFG 15) 4 (hitOf .NET_GV_CFG 15 0) ∧
    ((up [] [(0xF00318, 0x80000000)] /- NET_STAT_STATE(3)=2 -/).flag F.NET_GV_CFG_EN 15 = false ∧ (up [] [(0xF00318, 0x80000000)] /- NET_STAT_STATE(3)=2 -/).connState 15 = 0) ∧
    got (.netGvCfgWrite 0 .hostA 15 0xE0000000) (up [] [(0xF00318, 0x80000000)] /- NET_STAT_STATE(3)=2 -/) (fun t => t.connState 15 == 2 && (t.conn 15).gv) = true :=
  ⟨reach (by decide +kernel), by decide +kernel, by decide +kernel⟩
theorem test_hold_write : (up [] []).reaches .mc (regAddr .RAS_HOLD 3) 4 (hitOf .RAS_HOLD 3 0) ∧ (up [] []).reaches .hostA (regAddr .RAS_HOLD 3) 4 (hitOf .RAS_HOLD 3 0) ∧
    got (.rasHoldWrite 0 .mc 3 0x800F003F) (up [] []) (fun t => t.flag F.RAS_HOLD_HOLDING 3 && t.fld F.RAS_HOLD_ENTRY 3 == 63) = true ∧
    got (.rasHoldWrite 0 .hostA 3 0x800F003F) (up [] []) (fun t => !t.flag F.RAS_HOLD_EN 3 && t.fld F.RAS_AEL2_KIND 0 == 11) = true :=
  ⟨reach (by decide +kernel), reach (by decide +kernel), by decide +kernel, by decide +kernel⟩
theorem test_migration_write : (up [] []).reaches .mc (regAddr .RAS_PMIG) 8 (hitOf .RAS_PMIG 0 0) ∧ (up [] [(0xE00120, 0x8000000000000000)] /- RAS_PMIG_EN=1 -/).reaches .mc (regAddr .RAS_PMIG) 8 (hitOf .RAS_PMIG 0 0) ∧
    got (.rasPmigWrite 0 .mc 0xB0002FFF00002FFF) (up [] []) (fun t => t.fld F.RAS_PMIG_STACK == 3 && t.fld F.RAS_PMIG_SRC == 12287) = true ∧
    got (.rasPmigWrite 0 .mc 0x3000000100000002) (up [] [(0xE00120, 0x8000000000000000)] /- RAS_PMIG_EN=1 -/) (fun t => t.reg .RAS_PMIG == 0) = true :=
  ⟨reach (by decide +kernel), reach (by decide +kernel), by decide +kernel, by decide +kernel⟩

/-- Every depot bank is the host's; byte 0x1FF_FFFF holds 7. -/
def dp : State := { (up [(0x500008, 0x1000000000000000)] [] /- DEP_OWNERS_OWN=0x1000000000000000 -/) with depot := [(0x1FFFFFF, 7)] }

theorem test_depot_window : (0x1FFFFFF < depotBytes ∧ dp.depotMay 1 0x1FFFFFF = true) ∧
    got (.bar2Access 0 0 0x1FFFFFF 1 none) dp (fun t => t.out == [.barData 0 [7] false]) = true ∧
    got (.bar2Access 0 0 0x1FFFFFF 1 (some [9])) dp (fun t => t.depot == [(0x1FFFFFF, 9)]) = true := by
  refine ⟨by decide +kernel, by decide +kernel, by decide +kernel⟩
theorem test_hbm_window : ({ (up [] []) with pmap := [(0, 0x80000005)], hbm := [(5 * 2097152 + 3, 7)] } : State).bar4Phys 3 = some (5 * 2097152 + 3) ∧
    ({ (up [] []) with pmap := [(0, 5)] } : State).bar4Phys 3 = none ∧
    got (.bar4Access 0 1 3 1 none) { (up [] []) with pmap := [(0, 0x80000005)], hbm := [(5 * 2097152 + 3, 7)] } (fun t => t.out == [.barData 1 [7] false]) = true ∧
    got (.bar4Access 0 1 3 2 (some [8, 9])) { (up [] []) with pmap := [(0, 0x80000005)] } (fun t => t.hbm.map (·.2) == [8, 9]) = true ∧
    got (.bar4Access 0 1 3 2 none) { (up [] []) with pmap := [(0, 5)] } (fun t => t.out == [.barData 1 [0, 0] false] && t.flag F.RAS_STAT_AEL) = true := by
  refine ⟨by decide +kernel, by decide +kernel, by decide +kernel, by decide +kernel, by decide +kernel⟩
theorem test_waymark_read : (up [] []).domOn 2 = true ∧ got (.waymarkRecordRead 0 .hostA 2047 0 false) { (up [] []) with way := [(2047, ⟨1, 1, 3⟩)] } (fun t =>
      t.out == [.readData .hostA 1] && mapGet way0 t.way 2047 == ⟨1, 1, 1⟩ && t.fld F.WAY_ERRCNT_VOTE_FIX == 1) = true := by
  refine ⟨by decide +kernel, by decide +kernel⟩

/-! ## Commands -/

/-- Queue 0 with 16 entries each way, the CQ at its last entry, one command outstanding. -/
def q1 : State := { (up [(0x101010, 0x84048000), (0x10101C, 0x1000)] [] /- CMD_Q_CFG_EN=1; CMD_Q_CFG_SQ_LOG2=4; CMD_Q_CFG_CQ_LOG2=4; CMD_Q_CFG_IEN=1; CMD_Q_STAT_OUTST=1; CMD_Q_STAT_IDLE=0 -/) with
  queues := [(0, ⟨15, true, 0, [], [], false⟩)] }
def hq : CmdHdr := ⟨.queue 0, 0x100, 0, 17, 1001, 1⟩

theorem test_nop : (q1.takes (.nop 0 hq (pr [])) = true ∧ q1.cqRoom 0 = true ∧ (q1.queue 0).dead = false) ∧
    got (.nop 0 hq (pr [])) q1 (fun t => (t.queue 0).cqTail == 0 && !(t.queue 0).phase && t.flag F.CMD_Q_STAT_IDLE 0 && t.out.length == 2) = true := by
  refine ⟨by decide +kernel, by decide +kernel⟩
theorem test_reply_bytes : (replyBytes ⟨⟨.mc, 0x302, 0, 17, 1001, 0⟩, 0, true, [5, 1]⟩ true 1).map (·.toNat) =
    [0, 0, 2, 3, 17, 3, 1, 0, 0xE9, 3, 0, 0, 5, 0, 0, 0, 1, 0, 0, 0] ++ List.replicate 12 0 := by decide +kernel
theorem test_packet : (wfPkt (hd 0x401) (pr []) = true ∧ (packetBytes ⟨.mc, 0x401, 0, 17, 1001, 0⟩ (pr [])).take 8 = [1, 4, 0, 17, 0xE9, 3, 0, 0]) ∧
    pktOf .mc 0 ([1, 4, 0, 17, 0xE9, 3, 0, 0] ++ List.replicate 56 0) = ⟨⟨.mc, 0x401, 0, 17, 1001, 0⟩, pr []⟩ := by decide +kernel
theorem test_refused : commandOf (.msRead 0 (hd 0x413) (pr [0x4000])) = some (0, hd 0x413, pr [0x4000], false, 0x413, [0x3FFF]) ∧
    ((up [] []).csmQuiet = true ∧ (up [] []).admitCode (hd 0x413) (pr [0x4000]) 0x413 [0x3FFF] = some 0x0102) ∧
    got (.msRead 0 (hd 0x413) (pr [0x4000])) (up [] []) (fun t => t.out == [.mcReply ⟨hd 0x413, 0x0102, true, []⟩]) = true := by
  refine ⟨rfl, by decide +kernel, by decide +kernel⟩
theorem test_dev_time : (up [] []).takes (.devTime 7 (hd 0x102) (pr [])) = true ∧
    got (.devTime 7 (hd 0x102) (pr [])) (up [] []) (fun t => t.out == [.mcReply ⟨hd 0x102, 0, true, [7, 0, 0]⟩]) = true := by
  refine ⟨by decide +kernel, by decide +kernel⟩
theorem test_tx_status : (up [(0x8004F4, 0x5)] [] /- WAY_TX_SIZE_SIZE(63)=5 -/).takes (.txStatus 0 (hd 0x405) (pr [63])) = true ∧
    got (.txStatus 0 (hd 0x405) (pr [63])) (up [(0x8004F4, 0x5)] [] /- WAY_TX_SIZE_SIZE(63)=5 -/) (fun t =>
      t.out == [.mcReply ⟨hd 0x405, 0, true, [0, (up [(0x8004F4, 0x5)] [] /- WAY_TX_SIZE_SIZE(63)=5 -/).reg .WAY_TX_SIZE 63, 0, 0]⟩]) = true := by
  refine ⟨by decide +kernel, by decide +kernel⟩
theorem test_ms_read : (up [(0x77FFF0, 0x9)] [] /- MS_COUNT_COUNT(16383)=9 -/).takes (.msRead 0 (hd 0x413) (pr [16383])) = true ∧
    got (.msRead 0 (hd 0x413) (pr [16383])) (up [(0x77FFF0, 0x9)] [] /- MS_COUNT_COUNT(16383)=9 -/) (fun t => t.out == [.mcReply ⟨hd 0x413, 0, true, [9, 0, 0]⟩]) = true := by
  refine ⟨by decide +kernel, by decide +kernel⟩
theorem test_reports_taken : (up [] []).takes (.devInfo 0 (hd 0x101) (pr [])) = true ∧ (up [] []).takes (.modelInfo 0 (hd 0x202) (pr [1])) = true ∧
    (up [] []).takes (.connInfo 0 (hd 0x301) (pr [15])) = true ∧ (up [] []).takes (.calRead 0 (hd 0x602) (pr [8])) = true ∧
    (up [] []).takes (.netStatus 0 (hd 0xB01) (pr [11])) = true := by decide +kernel
theorem test_pwr_read : (up [] [(0x143F014, 0x8FF80000)] /- TILE_SENSE_VALID(1087)=1; TILE_SENSE_TEMP(1087)=0xFF8 -/).takes (.pwrRead 0 (hd 0x503) (pr []) 5 6) = true ∧
    (up [] [(0x143F014, 0x8FF80000)] /- TILE_SENSE_VALID(1087)=1; TILE_SENSE_TEMP(1087)=0xFF8 -/).flag F.TILE_SENSE_VALID 1087 = true := by decide +kernel
theorem test_model_unload : ({ (up [] []) with banks := [(1, { bank0 with st := 1 })] } : State).takes (.modelUnload 0 (hd 0x203) (pr [1])) = true ∧
    ({ (up [] []) with banks := [(1, { bank0 with st := 1 })] } : State).bankSt 1 = 1 ∧
    got (.modelUnload 0 (hd 0x203) (pr [1])) { (up [] []) with banks := [(1, { bank0 with st := 1 })] } (fun t => t.banks == []) = true := by
  refine ⟨by decide +kernel, by decide +kernel, by decide +kernel⟩
theorem test_upd_write : (up [] []).takes (.updWrite 0 (hd 0x901) (pr [1, 2097148, 0, 0, 4]) (.bytes [1, 2, 3, 4])) = true ∧
    got (.updWrite 0 (hd 0x901) (pr [1, 2097148, 0, 0, 4]) (.bytes [1, 2, 3, 4])) (up [] []) (fun t =>
      (t.fwSlot 1).bytes == [(2097148, 1), (2097149, 2), (2097150, 3), (2097151, 4)]) = true := by
  refine ⟨by decide +kernel, by decide +kernel⟩
/-- Pair 1 is STANDBY, and slot 1 holds a verified image. -/
def sw : State := { (up [] [(0x2000000, 0x8000000)] /- MC_STAT_P1_STATE=1 -/) with fwSlots := [(1, ⟨[], some ⟨2, 0, false, 1, 1, 7⟩⟩)] }
theorem test_upd_switch : (sw.takes (.updSwitch 0 (hd 0x903) (pr [1, 9])) = true ∧ sw.flag F.MC_STAT_RECOVERY = false ∧ sw.switch = none ∧
      (sw.fwSlot 1).ok ≠ none ∧ sw.pairSt 1 ≠ 3) ∧
    got (.updSwitch 0 (hd 0x903) (pr [1, 9])) sw (fun t => t.switch == some ⟨hd 0x903, 1, 9, none, false⟩ && t.pairSt 1 == 2) = true := by
  refine ⟨by decide +kernel, by decide +kernel⟩
theorem test_challenge : (up [] []).takes (.secDbgChallenge 0 (hd 0xC02) (pr [])) = true := by decide +kernel
theorem test_unlock_without_challenge : (up [] []).takes (.secDbgUnlock 0 (hd 0xC03) (pr []) (.bytes [])) = true ∧
    got (.secDbgUnlock 0 (hd 0xC03) (pr []) (.bytes [])) (up [] []) (fun t => t.challenge == none && t.out.length != 0) = true := by
  refine ⟨by decide +kernel, by decide +kernel⟩

/-- A package header of 512 bytes with no body, an image header of 512 bytes with no payload, an envelope of a command key with COUNTER 1
and a debug response of scope 1 for 480 minutes; keys, hashes and signatures of zeros. -/
def pkgB : List Byte := [0x47, 0x4D, 0x49, 0x5A, 2, 1] ++ List.replicate 506 0
def imgB : List Byte := [0x47, 0x4D, 0x49, 0x5A, 1] ++ List.replicate 507 0
def keyB : List Byte := [0x4B, 0x5A, 1, 1, 1] ++ List.replicate 351 0
def dbgB : List Byte := [0x44, 0x5A, 1, 1, 0xE0, 1] ++ List.replicate 218 0
/-- The owner's key is 96 zero bytes, and so is the key of model authority 0; a challenge of 16 zero bytes is open. -/
def sec : State := { (up [] []) with
  fuses := { State.reset.fuses with ownerHash := some (Config.sha384 (List.replicate 96 0)), serial := 0, lifecycle := 1, modelFloor := 0, fwFloor := 0 }
  auth := [(0, some (List.replicate 96 0))], wrapKey := some [], challenge := some (List.replicate 16 0, 0)
  running := { State.reset.running with release := 0 } }

theorem test_model_load_meets (he : Config.ecdsa (slice pkgB 80 96) (pkgB.take 416) (slice pkgB 416 96) = true)
    (hh : Config.sha384 [] = List.replicate 48 0)
    (hw : Config.gcmOpen [] (slice pkgB 176 12) [] (slice pkgB 188 32) (slice pkgB 220 16) = some [])
    (hp : (Config.gcmOpen [] (slice pkgB 236 12) (pkgB.take 416) [] (slice pkgB 248 16)).isSome = true) :
    sec.takes (.modelLoad 0 (hd 0x201) (pr [0, 0, 512, 1]) (.bytes pkgB) ⟨[], [], []⟩) = true ∧ sec.bankSt 1 ≠ 2 ∧
    sec.pkgCheck (pkgB.take 512) 512 ⟨[], [], []⟩ = .ok ⟨1, 0, 0, 0, false, ⟨[], [], []⟩⟩ := by
  have e : pkgB.take 512 = pkgB := by decide +kernel
  have e2 : pkgB.drop 512 = [] := by decide +kernel
  have e3 : slice pkgB 32 48 = List.replicate 48 0 := by decide +kernel
  have ha : (List.range 4).any (fun k => decide (mapGet none sec.auth k = some (slice pkgB 80 96))) = true := by decide +kernel
  have hk : sec.wrapKey = some [] := rfl
  refine ⟨by decide +kernel, by decide +kernel, ?_⟩
  rw [e]
  unfold State.pkgCheck
  rw [if_neg (by decide +kernel), if_neg (by rw [ha, e2, hh, e3]; simp [he]), if_neg (by decide +kernel), if_neg (by decide +kernel), hk]
  simp only [hw, e2, hp, if_true]
  decide +kernel
theorem test_key_set_meets (key : List Byte) (he : Config.ecdsa (slice keyB 164 96) (keyB.take 260) (slice keyB 260 96) = true)
    (hu : Config.unwrapKey 0 (slice keyB 8 96) (slice keyB 104 12) (slice keyB 116 32) (slice keyB 148 16) = some key) :
    sec.takes (.secKeySet 0 (hd 0xC01) (pr [7]) (.bytes keyB)) = true ∧ (numAt keyB 0 2 = 0x5A4B ∧ numAt keyB 2 1 = 1 ∧ numAt keyB 3 1 = 1) ∧
    ownerIs sec.fuses (slice keyB 164 96) = true ∧ Config.ecdsa (slice keyB 164 96) (keyB.take 260) (slice keyB 260 96) = true ∧
    sec.keyCounter < numAt keyB 4 4 ∧ secretOk sec.fuses = true ∧
    Config.unwrapKey sec.fuses.serial (slice keyB 8 96) (slice keyB 104 12) (slice keyB 116 32) (slice keyB 148 16) = some key := by
  have e : slice keyB 164 96 = List.replicate 96 0 := by decide +kernel
  refine ⟨by decide +kernel, by decide +kernel, ?_, he, by decide +kernel, by decide +kernel, hu⟩
  simp [ownerIs, e, sec, bitsOf, State.reset]
theorem test_unlock_meets (he : Config.ecdsa (slice dbgB 32 96) (dbgB.take 128) (slice dbgB 128 96) = true) :
    sec.takes (.secDbgUnlock 0 (hd 0xC03) (pr []) (.bytes dbgB)) = true ∧ sec.challenge = some (slice dbgB 8 16, 0) ∧
    (numAt dbgB 0 2 = 0x5A44 ∧ numAt dbgB 2 1 = 1 ∧ numAt dbgB 3 1 < 8 ∧ 1 ≤ numAt dbgB 4 4 ∧ numAt dbgB 4 4 ≤ 480 ∧
      numAt dbgB 24 8 = sec.fuses.serial) ∧ ownerIs sec.fuses (slice dbgB 32 96) = true ∧
    Config.ecdsa (slice dbgB 32 96) (dbgB.take 128) (slice dbgB 128 96) = true := by
  have e : slice dbgB 32 96 = List.replicate 96 0 := by decide +kernel
  refine ⟨by decide +kernel, by decide +kernel, by decide +kernel, ?_, he⟩
  simp [ownerIs, e, sec, bitsOf, State.reset]
/-- Slot 1 holds an image of zeros signed with the first root key. -/
def img : State := { sec with fuses := { sec.fuses with rootHash := [Config.sha384 (List.replicate 96 0)], rootRevoke := 0 }
                              fwSlots := [(1, ⟨(List.range 512).map fun i => (i, imgB.getD i 0), none⟩)] }
theorem test_image_meets (he : Config.ecdsa (slice imgB 80 96) ((imgB.take 512).take 416) (slice (imgB.take 512) 416 96) = true)
    (hh : Config.sha384 [] = List.replicate 48 0) :
    img.takes (.updVerify 0 (hd 0x902) (pr [1])) = true ∧ imageCheck img.fuses imgB = .ok ⟨0, 0, false, 0, 0, 0⟩ := by
  have e : slice imgB 80 96 = List.replicate 96 0 := by decide +kernel
  have e2 : slice imgB 512 0 = [] := by decide +kernel
  have e3 : slice imgB 32 48 = List.replicate 48 0 := by decide +kernel
  have e4 : numAt imgB 24 4 = 0 := by decide +kernel
  have e5 : rootOk img.fuses (slice imgB 80 96) = true := by
    rw [e]
    simp only [rootOk, List.any_eq_true]
    exact ⟨0, by decide, by simp [img, bitsOf]⟩
  have e6 : slice imgB 416 96 = slice (imgB.take 512) 416 96 := by decide +kernel
  refine ⟨by decide +kernel, ?_⟩
  unfold imageCheck
  rw [if_pos ⟨by decide +kernel, by decide +kernel, by decide +kernel, by decide +kernel, e5, by rw [e6]; exact he, by rw [e4, e2, e3]; exact hh⟩,
    if_pos (by decide +kernel)]
  decide +kernel

/-! ## Milestones and transactions -/

theorem unw {s : State} {m : Nat} (h : s.waiters = []) : s.unwaited m := by intro w hw; rw [h] at hw; cases hw

theorem test_record_fits : recordOf (.bcast (2 ^ 34 - 1) (2 ^ 32 - 1) 4095 31 (2 ^ 32 - 1) (2 ^ 32 - 1) (2 ^ 32 - 1)) ≠ none ∧
    actFits (.bcast (2 ^ 34 - 1) (2 ^ 32 - 1) 4095 31 (2 ^ 32 - 1) (2 ^ 32 - 1) (2 ^ 32 - 1)) = true ∧ actFits (.detour 1087 1087 1087) = true ∧
    wayActs (5 + 3 * 2 ^ 128 + 12 * 2 ^ 136) = [.steer 3 12] := by decide +kernel
theorem test_milestone_reached : (rg [(0x740090, 0x5)] /- MS_COUNT_COUNT(9)=5 -/).msReached 9 5 = true ∧ (rg [(0x740090, 0x5)] /- MS_COUNT_COUNT(9)=5 -/).msReached 9 6 = false ∧
    (rg [(0x740090, 0x5)] /- MS_COUNT_COUNT(9)=5 -/).msReached 9 (2 ^ 32 - 1) = true ∧ (rg [(0x740090, 0x5)] /- MS_COUNT_COUNT(9)=5 -/).msReached 9 (5 + 2 ^ 31) = false := by decide +kernel

/-- Milestone 16383: count 2³² − 1, target 1, stride 4, owner the host, EVT set; an arrival of 2 on its way from the host. -/
def mo : State := { (up [(0x77FFF0, 0xFFFFFFFF), (0x77FFF4, 0x1), (0x77FFF8, 0x28000004)] [] /- MS_COUNT_COUNT(16383)=2**32-1; MS_TARGET_TARGET(16383)=1; MS_CFG_STRIDE(16383)=4; MS_CFG_OWNER(16383)=1; MS_CFG_EVT(16383)=1 -/) with
  arrFly := [⟨1098, 16383, 2⟩] }
/-- The count is 1, the target 5, FIRED set, one pulse pending. -/
def moFired (t : State) : Bool := t.fld F.MS_COUNT_COUNT 16383 == 1 && t.fld F.MS_TARGET_TARGET 16383 == 5 && t.flag F.MS_CFG_FIRED 16383 &&
  t.pulses == [(.milestone 16383, 1)]
theorem test_arrivals : (mo.fld F.MS_CFG_OWNER 16383 ≠ 0 ∧ mo.access (regAddr .MS_ARRIVE_REG 16383) 4 = .ok (hitOf .MS_ARRIVE_REG 16383 0) ∧
      mo.takes (.msArrive 0 (hd 0x410) (pr [0x23FFF])) = true) ∧ mo.unwaited 16383 ∧
    got (.msArriveWrite 0 .hostA 16383 2) mo moFired = true ∧ got (.msArrivalApply 0 1098) mo moFired = true ∧
    got (.msArrive 0 (hd 0x410) (pr [0x23FFF])) mo moFired = true := by
  refine ⟨by decide +kernel, unw rfl, by decide +kernel, by decide +kernel, by decide +kernel⟩
theorem test_set_count : (mo.access (regAddr .MS_COUNT 16383) 4 = .ok (hitOf .MS_COUNT 16383 0) ∧ mo.fld F.MS_CFG_OWNER 16383 = 1) ∧
    got (.msRegisterSet 0 .hostA 0 16383 1) mo moFired = true ∧
    got (.msRegisterSet 0 .mc 1 16383 2) mo (fun t => t.fld F.MS_TARGET_TARGET 16383 == 2 && !t.flag F.MS_CFG_FIRED 16383) = true := by
  refine ⟨by decide +kernel, by decide +kernel, by decide +kernel⟩
theorem test_set_not_owner : (up [(0x740008, 0x40000000)] [] /- MS_CFG_OWNER=2 -/).fld F.MS_CFG_OWNER 0 ≠ 1 ∧
    got (.msRegisterSet 0 .hostA 2 0 9) (up [(0x740008, 0x40000000)] [] /- MS_CFG_OWNER=2 -/) (fun t => t.fld F.MS_CFG_STRIDE 0 == 0 && t.fld F.MS_STAT_NOT_OWNER == 1) = true := by
  refine ⟨by decide +kernel, by decide +kernel⟩
theorem test_ms_set : mo.takes (.msSet 0 (hd 0x411) (pr [0x153FFF, 1, 7, 0x10003])) = true ∧
    got (.msSet 0 (hd 0x411) (pr [0x153FFF, 1, 7, 0x10003])) mo (fun t => t.fld F.MS_COUNT_COUNT 16383 == 1 && t.fld F.MS_TARGET_TARGET 16383 == 4 &&
      t.fld F.MS_CFG_STRIDE 16383 == 3 && t.flag F.MS_CFG_EVT 16383) = true := by
  refine ⟨by decide +kernel, by decide +kernel⟩
theorem test_ms_advance : mo.takes (.msAdvance 0 (hd 0x412) (pr [0x3FFF])) = true ∧
    got (.msAdvance 0 (hd 0x412) (pr [0x3FFF])) mo (fun t => t.fld F.MS_TARGET_TARGET 16383 == 5 && !t.flag F.MS_CFG_FIRED 16383) = true := by
  refine ⟨by decide +kernel, by decide +kernel⟩
theorem test_ms_wait : (mo.takes (.msWait 0 (hd 0x414) (pr [0x3FFF, 2 ^ 32 - 1])) = true ∧ mo.msReached 16383 (2 ^ 32 - 1) = true ∧
      mo.msReached 16383 0 = false ∧ mo.waitCmds < 1024) ∧
    got (.msWait 0 (hd 0x414) (pr [0x3FFF, 2 ^ 32 - 1])) mo (fun t => t.out == [.mcReply ⟨hd 0x414, 0, true, [2 ^ 32 - 1]⟩]) = true ∧
    got (.msWait 0 (hd 0x414) (pr [0x3FFF, 0, 2])) mo (fun t => t.waiters == [⟨.cmd (hd 0x414) (some 2000), 16383, 0⟩]) = true := by
  refine ⟨by decide +kernel, by decide +kernel, by decide +kernel⟩
/-- One MS_WAIT command waits for target 1, its deadline 2000. -/
def mw : State := { mo with waiters := [⟨.cmd (hd 0x414) (some 2000), 16383, 1⟩] }
theorem test_ms_wait_ends : (mw.csmQuiet = true ∧ ((mw.fld F.MS_COUNT_COUNT 16383 + 2) % 2 ^ 32 + 2 ^ 32 - 1 % 2 ^ 32) % 2 ^ 32 < 2 ^ 31) ∧
    got (.msWaitTimeout 2000 (hd 0x414)) mw (fun t => t.waiters == [] && t.out == [.mcReply ⟨hd 0x414, 0x0507, true, []⟩]) = true ∧
    got (.msArrivalApply 0 1098) mw (fun t => t.waiters == [] && t.out.any (· == .mcReply ⟨hd 0x414, 0, true, [1]⟩)) = true := by
  refine ⟨by decide +kernel, by decide +kernel, by decide +kernel⟩

/-- Transaction 63 OPEN by the MC with two records reserved, one used: the record 7 that steers connection 3 to unit 12. -/
def to_ : State := { (up [(0x800000, 0xC0077E), (0x8004F0, 0x28000000), (0x8004F4, 0x10002)] [] /- WAY_TX_STAT_STATE(63)=1; WAY_TX_STAT_ORIGIN(63)=1; WAY_TX_SIZE_SIZE(63)=2; WAY_TX_SIZE_USED(63)=1; WAY_STAT_OPEN=1; WAY_STAT_FREE=1918 -/) with
  txs := [(63, { tx0 with origin := (cmdOrigin (hd 0)) })]
  way := [(7, ⟨0xc0300000000000000000000000002003f05, 0xc0300000000000000000000000002003f05, 0xc0300000000000000000000000002003f05⟩)] }
theorem test_tx_open : (to_.takes (.txOpen 0 (hd 0x401) (pr [0x780 - 2])) = true ∧ to_.freeTx = some 0 ∧ to_.wayBad = false ∧
      to_.takes (.txOpen 0 (hd 0x401) (pr [0x803E0001])) = true ∧ to_.txState 62 = 0) ∧
    got (.txOpen 0 (hd 0x401) (pr [0x780 - 2])) to_ (fun x => x.txState 0 == 1 && x.fld F.WAY_STAT_FREE == 0) = true ∧
    got (.txOpen 0 (hd 0x401) (pr [0x803E0001])) to_ (fun x => x.txState 62 == 1 && x.fld F.WAY_STAT_OPEN == 2) = true := by
  refine ⟨by decide +kernel, by decide +kernel, by decide +kernel⟩
theorem test_tx_add : (to_.takes (.txAdd 0 (hd 0x402) (pr [0x93F, 0, 2, 0, 5])) = true ∧
      wayOk (9 + pwNum (pr [0x93F, 0, 2, 0, 5]) 2 12 * 2 ^ 128) = true ∧ to_.txState 63 = 1 ∧ (to_.tx 63).origin = cmdOrigin (hd 0x402) ∧
      to_.freeRec (to_.txRec 63) = some 0) ∧
    got (.txAdd 0 (hd 0x402) (pr [0x93F, 0, 2, 0, 5])) to_ (fun x => wayActs (x.wayGet 0) == [.odo 2 5] && x.fld F.WAY_TX_SIZE_USED 63 == 2) = true := by
  refine ⟨by decide +kernel, by decide +kernel⟩
theorem test_tx_prepare : (to_.takes (.txPrepare 0 (hd 0x403) (pr [63])) = true ∧ to_.prepareMay (hd 0x403) = true ∧ to_.txRec 63 = false) ∧
    got (.txPrepare 0 (hd 0x403) (pr [63])) to_ (fun x => x.txState 63 == 2 && x.fld F.WAY_TX_SIZE_SIZE 63 == 1 && x.fld F.WAY_STAT_FREE == 1919) = true := by
  refine ⟨by decide +kernel, by decide +kernel⟩
theorem test_tx_abort : (to_.takes (.txAbort 0 (hd 0x404) (pr [63])) = true ∧ (to_.tx 63).prep = none ∧ (to_.tx 63).peer = none ∧ (to_.tx 63).coord = false) ∧
    got (.txAbort 0 (hd 0x404) (pr [63])) to_ (fun x => x.txState 63 == 0 && x.fld F.WAY_TX_STAT_LAST_STATUS 63 == 0x050B && x.wayGet 7 == 0) = true := by
  refine ⟨by decide +kernel, by decide +kernel⟩
/-- The same transaction PREPARING, IMMEDIATE, with an odometer action. -/
def tp : State := { (up [(0x800000, 0xC00780), (0x8004F0, 0x48000000), (0x8004F4, 0x10001)] [] /- WAY_TX_STAT_STATE(63)=2; WAY_TX_STAT_ORIGIN(63)=1; WAY_TX_SIZE_SIZE(63)=1; WAY_TX_SIZE_USED(63)=1; WAY_STAT_OPEN=1 -/) with
  txs := [(63, { tx0 with origin := (cmdOrigin (hd 0)), prep := some (hd 0x403) })]
  way := [(7, ⟨0x5000000000000000200000000000000000000000002003f09, 0x5000000000000000200000000000000000000000002003f09, 0x5000000000000000200000000000000000000000002003f09⟩)] }
theorem test_prepared : ((tp.tick 0).txActs 63 = [(7, .odo 2 5)] ∧ tp.mcUp = true ∧
      (tp.tick 0).txCheck 63 (((tp.tick 0).txActs 63).map (·.2)) (((tp.tick 0).txActs 63).flatMap ((tp.tick 0).entriesOf 63)) = none) ∧
    got (.txPrepared 0 63) tp (fun x => x.txState 63 == 4 && x.ents == [⟨63, 7, .odo 2 5, .signal, .sent, 0, 1⟩]) = true := by
  refine ⟨by decide +kernel, by decide +kernel⟩
theorem test_commit_signal : got (.commitSignalArrive 0 63) { tp with
      regs := (tp.setFld F.WAY_TX_STAT_STATE 4 63).regs, ents := [⟨63, 7, .odo 3 (2 ^ 64 - 1), .signal, .sent, 0, 1⟩] }
    (fun x => x.fld F.ODO_POS_POS 3 == 2 ^ 64 - 1 && x.txState 63 == 0) = true := by decide +kernel

/-- Transaction 5 OPEN by the system for system transaction 9. -/
def pt : State := { (up [(0x800000, 0xC00780), (0x800150, 0x30000000)] [] /- WAY_TX_STAT_STATE(5)=1; WAY_TX_STAT_ORIGIN(5)=2; WAY_STAT_OPEN=1 -/) with txs := [(5, { tx0 with origin := 2, sysId := 9 })] }
theorem test_sys_prepare : ((∀ k < 5, pt.txState k = 0) ∧ pt.nextB ≤ sext 7 56) ∧
    (∀ t < 64, ¬ (pt.txState t = 1 ∧ pt.fld F.WAY_TX_STAT_ORIGIN t = 2 ∧ (pt.tx t).sysId = 8 ∧ (pt.tx t).coord = false)) ∧
    got (.sysPrepareMsg 0 255 9 7) pt (fun x => x.txState 5 == 2 && x.fld F.WAY_TX_STAT_POINT 5 == 1 && (x.tx 5).peer == some 255) = true := by
  refine ⟨by decide +kernel, by decide +kernel, by decide +kernel⟩
/-- The part of device 255's transaction 9, PREPARED. -/
def pp : State := { (up [(0x800150, 0x70000000)] [] /- WAY_TX_STAT_STATE(5)=3; WAY_TX_STAT_ORIGIN(5)=2 -/) with txs := [(5, { tx0 with origin := 2, sysId := 9, peer := some 255 })] }
theorem test_sys_go : pp.sysPart 255 9 = some 5 ∧ pp.sysPart 254 9 = none ∧ got (.sysGoMsg 0 255 9) pp (fun x => (x.tx 5).go) = true ∧
    got (.sysAbortMsg 0 254 9) pp (fun x => x.txState 5 == 3) = true := by decide +kernel
/-- The coordinator of system transaction 9 with devices 0 and 255, part 5; `ready`, `done` and `closed` as given. -/
def co (ready done : Nat) (closed : Bool) : State := { (up [(0x800008, 0x400000), (0x800150, 0x60000000)] [] /- WAY_TX_STAT_STATE(5)=3; WAY_SYS_CFG_GUARD_LINES=64 -/) with
  coords := [⟨hd 0x406, 5, 9, 2, 1 + 2 ^ 255, 0x1000, ready, none, closed, done, done⟩], txs := [(5, { tx0 with sysId := 9, coord := true })] }
theorem test_sys_vote : got (.sysVoteReply 0 255 9 none) (co 1 0 false) (fun x => x.coords.map (·.ready) == [1 + 2 ^ 255]) = true ∧
    got (.sysVoteReply 0 255 9 (some 0x0503)) (co 1 0 false) (fun x => x.coords.map (·.refused) == [some 0x0503]) = true := by decide +kernel
/-- This device alone takes part. -/
def co1 : State := { co 1 0 false with coords := [⟨hd 0x406, 5, 9, 0, 1, 0x1000, 1, none, false, 0, 0⟩] }
theorem test_sys_close : ((1 : Nat) = 2 ^ co1.fld F.JCT_SYS_DEVNUM ∧ co1.linesTo (sext 0 56) ≤ co1.fld F.WAY_SYS_CFG_GUARD_LINES) ∧
    got (.sysVoteClose 0 9) co1 (fun x => x.coords.map (·.closed) == [true] && (x.tx 5).go) = true := by decide +kernel
theorem test_sys_done : (withBit 1 255 = 1 + 2 ^ 255 ∧ (hd 0x406).src = .mc) ∧
    got (.sysDoneMsg 0 255 9 true) (co 0 1 true) (fun x => x.coords == [] && x.out.length == 2) = true := by decide +kernel
/-- Transaction 5 OPEN by the MC, with the system record of device 0 and system transaction 9. -/
def ts : State := { (up [(0x800150, 0x28000000), (0x800154, 0x10001)] [] /- WAY_TX_STAT_STATE(5)=1; WAY_TX_STAT_ORIGIN(5)=1; WAY_TX_SIZE_SIZE(5)=1; WAY_TX_SIZE_USED(5)=1 -/) with
  txs := [(5, { tx0 with origin := cmdOrigin (hd 0) })], way := [(0, ⟨0x900000000000000000000000000000000000000000000000000000000000000010000000000000000000000000200050a, 0x900000000000000000000000000000000000000000000000000000000000000010000000000000000000000000200050a, 0x900000000000000000000000000000000000000000000000000000000000000010000000000000000000000000200050a⟩)] }
theorem test_sys_coordinator : (ts.takes (.txSysPrepare 0 (hd 0x406) (pr [5, 9, 3])) = true ∧ (ts.tx 5).origin = cmdOrigin (hd 0x406) ∧
      ts.prepareMay (hd 0x406) = true ∧ ts.sysDevices 5 9 = some (2 ^ ts.fld F.JCT_SYS_DEVNUM) ∧
      2 * (ts.fld F.WAY_SYS_CFG_GUARD_LINES : Int) ≤ ts.linesTo (sext 3 56)) ∧
    got (.txSysPrepare 0 (hd 0x406) (pr [5, 9, 3])) ts (fun x => x.txState 5 == 2 && x.coords.map (·.b) == [3] && (x.tx 5).coord) = true := by
  refine ⟨by decide +kernel, by decide +kernel⟩

/-! ## Commands of the MC, catalogue, service, reception -/

theorem test_ring_setup : ((up [] []).takes (.ringSetup 0 (hd 0x303) (pr [0x8000000F, 0x1000, 0, 30, 0x7FFFFF, 8])) = true ∧
      (up [] []).fld F.CMD_EGR_STAT_EN 15 = 0 ∧ pwNum (pr [0x8000000F, 0x1000, 0, 30, 0x7FFFFF, 8]) 1 2 % 4096 = 0) ∧
    got (.ringSetup 0 (hd 0x303) (pr [0x8000000F, 0x1000, 0, 30, 0x7FFFFF, 8])) (up [] []) (fun t => t.fld F.CMD_EGR_STAT_EN 15 == 1 &&
      t.fld F.CMD_EGR_BASE_SIZE_LOG2 15 == 30 && (t.eRing 15).connMask == 65535 && (t.eRing 15).shadow == 8) = true := by
  refine ⟨by decide +kernel, by decide +kernel⟩
/-- Column 0 runs. -/
def pd : State := (up [(0xB00100, 0xF8E40000)] [] /- PWR_COL_STATE(0)=1 -/)
theorem test_pwr_device_meets : pd.takes (.pwrDevice 0 (hd 0x501) (pr [3])) = true ∧ pd.fld F.PWR_COL_STATE 0 ≠ 3 ∧
    (pd.taken 0 (hd 0x501) (pr [3])).mayEnter = true := by decide +kernel
/-- One policy value: 0x0B, 30. -/
def pol1 : List Byte := [0x50, 0x5A, 1, 0, 1, 0, 0, 0, 11, 0, 0, 0, 30, 0, 0, 0]
theorem test_pwr_policy : ((up [] []).takes (.pwrPolicy 0 (hd 0x502) (pr [0, 0, 16]) (.bytes pol1)) = true ∧
      policyEntries pol1 (pw (pr [0, 0, 16]) 2) = some [(11, 30)] ∧ (up [] []).policyRow 11 = some (6, 1, 30)) ∧
    got (.pwrPolicy 0 (hd 0x502) (pr [0, 0, 16]) (.bytes pol1)) (up [] []) (fun t => t.pol 11 == 30 && t.fld F.CAL_CFG_DELTA_T == 30) = true := by
  refine ⟨by decide +kernel, by decide +kernel⟩
theorem test_svc_report : (up [] []).takes (.svcReport 0 (hd 0x705) (pr [0x40, 0, 32])) = true ∧
    got (.svcReport 0 (hd 0x705) (pr [0x40, 0, 32])) { (up [] []) with repair := [⟨1, 2, 3, 4, 5⟩] } (fun t => t.out.length == 2 &&
      t.out.any fun o => match o with | .hostWrite 0 0x40 b false => b.length == 32 | _ => false) = true := by
  refine ⟨by decide +kernel, by decide +kernel⟩
/-- One entry in the log. -/
def lg : State := { (up [] []) with log := [⟨5, 0, 8, false, 1, 0xE008, [1, 0, 0, 0], false⟩], logNext := 6 }
theorem test_log_read : (lg.takes (.logRead 0 (hd 0x801) (pr [0, 0, 64, 5])) = true ∧ ((lg.logFrom 5).take 2).length = 1 ∧ lg.logFrom 6 = []) ∧
    got (.logRead 0 (hd 0x801) (pr [0, 0, 64, 5])) lg (fun t => t.out.getLast? == some (.mcReply ⟨hd 0x801, 0, true, [1, 6]⟩)) = true ∧
    got (.logRead 0 (hd 0x801) (pr [0, 0, 64, 6])) lg (fun t => t.out == [.mcReply ⟨hd 0x801, 0, true, [0, 6]⟩]) = true := by
  refine ⟨by decide +kernel, by decide +kernel, by decide +kernel⟩
theorem test_log_mark : lg.takes (.logMark 0 (hd 0x802) (pr [9])) = true ∧
    got (.logMark 0 (hd 0x802) (pr [9])) lg (fun t => t.log.length == 2 && t.logNext == 7 && t.out == [.mcReply ⟨hd 0x802, 0, true, [6]⟩]) = true := by
  refine ⟨by decide +kernel, by decide +kernel⟩
theorem test_census : (up [] []).takes (.plbCensus 0 (hd 0xB03) (pr [1])) = true ∧
    got (.plbCensus 0 (hd 0xB03) (pr [1])) (up [] []) (fun t => t.out == [.mcReply ⟨hd 0xB03, 0, true, [0]⟩]) = true ∧
    got (.plbCensus 0 (hd 0xB03) (pr [1, 64])) { (up [] []) with plbs := [(1, { plb0 with census := [⟨7, 2, true, false, false, 1, 0⟩] })] } (fun t =>
      t.out.length == 2) = true := by
  refine ⟨by decide +kernel, by decide +kernel, by decide +kernel⟩
/-- Connection 15 RUN on link 7. -/
def cn : State := { (up [(0x2003C0, 0x60000000)] [] /- ING_CONN_CFG_STATE(15)=3 -/) with conns := [(15, { conn0 with links := [7] })] }
theorem test_cxp_ctrl : (cn.csmQuiet = true ∧ cn.mcRuns = true ∧
      cn.admitCode (hd 0x302) (pr [0x4010F, 8, 1]) 0x0302 ([0x3F010F] ++ List.replicate 9 wAll) = none ∧ cn.connState 15 = 3 ∧ (cn.conn 15).gv = false ∧
      cn.masterLink 15 = some 7 ∧ cn.admitCode (hd 0x302) (pr [0x10000F, 8]) 0x0302 ([0x3F010F] ++ List.replicate 9 wAll) = none) ∧
    got (.cxpCtrl 0 (hd 0x302) (pr [0x4010F, 8, 1])) cn (fun t => (t.conn 15).ctrl == some (hd 0x302, true) && t.out == [.cxp 7 (.passWrite 8 [1, 0, 0, 0])]) = true ∧
    got (.cxpCtrl 0 (hd 0x302) (pr [0x10000F, 8])) cn (fun t => t.out == [.cxp 7 (.passRead 8 16)]) = true := by
  refine ⟨by decide +kernel, by decide +kernel, by decide +kernel⟩
/-- An entry for NET_RS_CFG 15, and one for the first register of BAR0, which is not of this window. -/
def ncfg (a : Nat) : List Byte := leBytes a 4 ++ leBytes 0x80000001 4
theorem test_net_config : ((up [] []).takes (.netConfig 0 (hd 0xB02) (pr [0, 0, 8]) (.bytes (ncfg (regAddr .NET_RS_CFG 15)))) = true ∧
      ((up [] []).taken 0 (hd 0xB02) (pr [0, 0, 8])).netEntryOk (regAddr .NET_RS_CFG 15) 0x80000001 = true ∧
      ((up [] []).taken 0 (hd 0xB02) (pr [0, 0, 8])).netEntryOk 0x104 0x80000001 = false) ∧
    got (.netConfig 0 (hd 0xB02) (pr [0, 0, 8]) (.bytes (ncfg (regAddr .NET_RS_CFG 15)))) (up [] []) (fun t => t.flag F.NET_RS_CFG_EN 15) = true ∧
    got (.netConfig 0 (hd 0xB02) (pr [0, 0, 8]) (.bytes (ncfg 0x104))) (up [] []) (fun t => t.out == [.mcReply ⟨hd 0xB02, 0x0102, true, []⟩]) = true := by
  refine ⟨by decide +kernel, by decide +kernel, by decide +kernel⟩
theorem test_cat_request : (up [] []).takes (.catRequest 0 (hd 0xA01) (pr [1])) = true ∧
    got (.catRequest 0 (hd 0xA01) (pr [1])) (up [] []) (fun t => t.catHost.length == 1 && t.fld F.CAT_STAT_HOSTQ == 1) = true ∧
    got (.catRequest 0 (hd 0xA01) (pr [1])) { (up [] []) with catHost := List.replicate 64 ⟨none, none, 0, 0⟩ } (fun t =>
      t.out == [.mcReply ⟨hd 0xA01, 0x0203, true, []⟩]) = true := by
  refine ⟨by decide +kernel, by decide +kernel, by decide +kernel⟩
/-- Table 63 with 16 rows, its void map at 0x1000. -/
def ct : State := (up [(0xA008E8, 0x1000), (0xA008F8, 0x80000000), (0xA008FC, 0x10)] [] /- CAT_TAB_FMT_EN(63)=1; CAT_TAB_ROWS_ROWS(63)=16; CAT_TAB_VMAP_ADDR(63)=64 -/)
theorem test_cat_void : (ct.hbmPhys (ct.fld F.CAT_TAB_VMAP_ADDR 63 * 64 + 15 / 8) = some 0x1001 ∧ ct.flag F.RAS_PMIG_EN = false ∧
      ct.takes (.catVoid 0 (hd 0xA02) (pr [0x8000003F, 15])) = true ∧ ct.access (regAddr .CAT_VOID_REG) 8 = .ok (hitOf .CAT_VOID_REG 0 0)) ∧
    got (.catVoid 0 (hd 0xA02) (pr [0x8000003F, 15])) { ct with hbm := [(0x1001, 0x81)] } (fun t => t.hbm == [(0x1001, 1)]) = true ∧
    got (.catVoidWrite 0 .mc 0x3F0000000000000F) { ct with hbm := [(0x1001, 1)] } (fun t => t.hbm == [(0x1001, 0x81)]) = true := by
  refine ⟨by decide +kernel, by decide +kernel, by decide +kernel⟩

/-- Connection 1 is steered to unit 2; records are free. -/
def sv : State := (rg [(0x8, 0x140A), (0x100, 0x80000000), (0x200040, 0x62800000), (0xB00200, 0xA0000000), (0xB00204, 0xA0000000), (0xB00208, 0xA0000000), (0xB0020C, 0xA0000000), (0xB00210, 0xA0000000), (0xB00214, 0xA0000000), (0xB00218, 0xA0000000), (0xB0021C, 0xA0000000), (0xB00220, 0xA0000000), (0xB00224, 0xA0000000), (0xB00228, 0xA0000000), (0xB0022C, 0xA0000000), (0xB00230, 0xA0000000), (0xB00234, 0xA0000000), (0xB00238, 0xA0000000)] /- D0, WAY_STAT_FREE=1920; DEV_LAYBY_LAYBY_A=10; DEV_LAYBY_LAYBY_B=20; ING_CONN_CFG_STATE(1)=3; ING_CONN_CFG_STEERED(1)=1; ING_CONN_CFG_UNIT(1)=2 -/)
theorem test_svc_column : (sv.freeTx = some 0 ∧ sv.wayBad = false ∧ sv.takes (.svcTestColumn 0 (hd 0x701) (pr [33])) = true ∧ sv.freeSubst = some 0 ∧
      33 ≠ sv.laybyCol 0 ∧ 33 ≠ sv.laybyCol 1) ∧
    got (.svcTestColumn 0 (hd 0x701) (pr [33])) sv (fun t => t.svc == [⟨some (hd 0x701), 1, 33, 0, 0, 0, 1, some 0⟩] && t.txState 0 == 2) = true := by
  refine ⟨by decide +kernel, by decide +kernel⟩
theorem test_svc_move : (sv.takes (.svcMoveConn 0 (hd 0x702) (pr [0xF01])) = true ∧ sv.connOf 15 = none ∧
      (((sv.taken 0 (hd 0x702) (pr [0xF01])).replyPending (hd 0x702)).setWrites 2 15).length / 4 + 3 ≤ sv.fld F.WAY_STAT_FREE) := by decide +kernel
theorem test_svc_retire : (sv.takes (.svcRetirePage 0 (hd 0x703) (pr [3, 12287]) (some 0)) = true ∧ bitsOf (sv.pmapGet 3 12287) 31 1 = 1 ∧
      0 ≠ sv.pmapGet 3 12287 % 2 ^ 14 ∧ 12288 * 3 + 0 ∉ sv.pagesOut ∧ bitsOf (sv.fld F.STR_OCTET_RETIRED 3) 0 1 = 0 ∧ sv.flag F.RAS_PMIG_EN = false) ∧
    got (.svcRetirePage 0 (hd 0x703) (pr [3, 12287]) (some 0)) sv (fun t => t.svc == [⟨some (hd 0x703), 3, 3, 12287, 12287, 0, 1, some 0⟩]) = true := by
  refine ⟨by decide +kernel, by decide +kernel⟩
theorem test_svc_shoulder : sv.takes (.svcShoulder 0 (hd 0x704) (pr [0xFFFF])) = true ∧
    got (.svcShoulder 0 (hd 0x704) (pr [0xFFFF])) sv (fun t => t.svc == [⟨some (hd 0x704), 4, 0xFFFF, 0, 0, 0, 1, some 0⟩] && t.txState 0 == 2) = true := by
  refine ⟨by decide +kernel, by decide +kernel⟩

/-- The packet of LOG_MARK. -/
def lmk : List Byte := [2, 8, 0, 5, 9, 0, 0, 0] ++ List.replicate 56 0
/-- Queue 63 with one entry to fetch at its last place. -/
def fq : State := (up [(0x101FD0, 0x84040000), (0x101FDC, 0x8000000F)] [] /- CMD_Q_CFG_EN(63)=1; CMD_Q_CFG_SQ_LOG2(63)=4; CMD_Q_CFG_CQ_LOG2(63)=4; CMD_Q_STAT_SQ_HEAD(63)=15 -/)
theorem test_fetch : (fq.csmQuiet = true ∧ fq.mcUp = true ∧ 1 ≤ fq.fetchMay 63 ∧ lmk.length = 64 ∧
      mOps.contains (pktOf (.queue 63) 0 lmk).hdr.opcode = true ∧ (pktOf (.queue 63) 0 lmk).hdr.flags % 2 = 0) ∧
    got (.sqFetchComplete 0 63 (.bytes lmk)) fq (fun t => t.mcFifo.length == 1 && t.fld F.CMD_Q_STAT_SQ_HEAD 63 == 0 && t.fld F.CMD_Q_STAT_OUTST 63 == 1) = true ∧
    got (.sqFetchComplete 0 63 .error) fq (fun t => t.flag F.CMD_Q_STAT_FETCH_ERR 63) = true := by
  refine ⟨by decide +kernel, by decide +kernel, by decide +kernel⟩
/-- A command datagram of key 7, origin 3, SEQ 1 that holds LOG_MARK, tagged with zeros; key 7 may use the classes of `m`. -/
def cdg : List Byte := [0x4C, 0x5A, 1, 7, 3, 0, 0, 0] ++ lmk.set 4 1 ++ List.replicate 16 0
def cds (m : Nat) : State := { (up [] [(0xF00318, 0x80000000)] /- NET_STAT_STATE(3)=2 -/) with keys := [(7, some [])], keyMask := [(7, m)] }
theorem cds_ok (m : Nat) (hg : Config.gmac ((cds 0).keyBytes 7) (leBytes 3 4 ++ leBytes 1 4 ++ leBytes 0 4) (cdg.take 72) = List.replicate 16 0) :
    (cds m).dgramBad cdg 88 0x5A4C true 12 0 = none := by
  unfold State.dgramBad
  have e : (cds m).keyBytes (numAt cdg 3 1 % 8) = (cds 0).keyBytes 7 := rfl
  have e2 : slice cdg (88 - 16) 16 = List.replicate 16 0 := by decide +kernel
  have e3 : cdg.take (88 - 16) = cdg.take 72 := rfl
  have e4 : leBytes (numAt cdg 4 4) 4 ++ leBytes (numAt cdg 12 4) 4 ++ leBytes 0 4 = leBytes 3 4 ++ leBytes 1 4 ++ leBytes 0 4 := by decide +kernel
  have e5 : (cds m).replayed (numAt cdg 3 1 % 8) (numAt cdg 4 4) (numAt cdg 12 4) = false := rfl
  have e6 : (cds m).keys = (cds 0).keys := rfl
  simp only
  rw [if_neg (by rw [e6]; decide +kernel), if_neg (by rw [e, e2, e3, e4, hg]; simp), e5]
  rfl
theorem test_command_datagram_meets (hg : Config.gmac ((cds 0).keyBytes 7) (leBytes 3 4 ++ leBytes 1 4 ++ leBytes 0 4) (cdg.take 72) = List.replicate 16 0) :
    ((cds 128).portUp 3 = true ∧ (cds 128).quarantined 3 5 = false ∧ (cds 128).csmQuiet = true ∧ (cds 128).mcUp = true) ∧
    (cds 128).dgramBad cdg 88 0x5A4C true 12 0 = none ∧ (cds 0).dgramBad cdg 88 0x5A4C true 12 0 = none ∧
    (cds 128).classOk 7 8 = true ∧ (cds 0).classOk 7 8 = false ∧ (pktOf (.net 7 3 9 5000) 0 (slice cdg 8 64)).hdr.opcode = 0x802 :=
  ⟨by decide +kernel, cds_ok 128 hg, cds_ok 0 hg, by decide +kernel, by decide +kernel, by decide +kernel⟩

/-! ## Calibration, columns, tiles -/

/-- The one member of item 8 (the reference monitor), with all sets given. -/
def cl (x : CalInst) : State := { (up [] [] /- CAL_CFG_DELTA_T=6; CAL_CFG_CONF_MIN=8 -/) with cal := [(16384, x)], calFlash := [(16384, x)] }
def legs : FMap (Option Int) := [(0, some 16000), (1, some 16000), (2, some 16000), (3, some 16000)]
def cx : CalInst := { cal0 with sa := legs, sb := legs, lastT := some 0 }
theorem test_cal_due : (calKey 8 0 = 16384 ∧ (0 : Nat) < calCount 8 ∧ (cl cx).domOn 14 = true ∧
      8 * (cl cx).fld F.CAL_CFG_DELTA_T < ((49 : Int) - 0).natAbs ∧ cx.legFail = false) ∧
    got (.calDue 7 8 0 (some 49) true) (cl cx) (fun t => (t.calInst 16384).due == some 7 && (t.calInst 16384).temp == 49) = true := by decide +kernel
theorem test_cal_measure : (((cl { cx with due := some 1 }).flag F.CAL_STAT_REF_FAULT && calTraced 8) = false ∧
      (cl { cx with due := some 1 }).calSkip 16384 = false) ∧
    got (.calMeasurement 0 8 0 1000 7 0) (cl { cx with due := some 1 }) (fun t => (t.calInst 16384).disc && (t.calInst 16384).m1 == none) = true ∧
    got (.calMeasurement 0 8 0 1000 8 0) (cl { cx with due := some 1 }) (fun t => (t.calInst 16384).m1 == some 1000) = true := by decide +kernel
theorem test_cal_accept : ((calRange 8).1 < 1000 ∧ (1000 : Int) < (calRange 8).2 ∧ ((1000 : Int) - 1002).natAbs ≤ 2) ∧
    got (.calMeasurement 0 8 0 1002 8 0) (cl { cx with due := some 1, m1 := some 1000, tol := 2 }) (fun t => (t.calInst 16384).due == none &&
      (t.calInst 16384).swap && !(t.calInst 16384).active && (t.calInst 16384).sb != legs && (t.calInst 16384).sa == legs) = true := by decide +kernel
theorem test_cal_swap : ((cl { cx with swap := true }).calLinkBusy 16384 = false ∧ (cl { cx with swap := true }).fld F.CLK_STAT_REF = 0) ∧
    got (.calSwapComplete 0 8 0) (cl { cx with swap := true }) (fun t => (t.calInst 16384).active && !(t.calInst 16384).swap) = true := by decide +kernel
theorem test_cal_hold : 1 + (cl cx).fld F.CAL_HOLD_HOLD_S * 1000000000 ≤ 60000000001 ∧
    got (.calHoldTimeout 60000000001 8 0) (cl { cx with due := some 1, disc := true }) (fun t => (t.calInst 16384).held && t.flag F.CAL_ITEM_STAT_HELD 8) = true := by
  decide +kernel
theorem test_cal_trig : ((cl cx).access (regAddr .CAL_TRIG) 4 = .ok (hitOf .CAL_TRIG 0 0) ∧ (cl cx).fld F.DEV_START_STAGE = 8 ∧
      (cl cx).takes (.calRun 0 (hd 0x601) (pr [256]) true) = true) ∧
    got (.calTrigWrite 0 .mc 256 true) (cl cx) (fun t => (t.calInst 16384).due.isSome) = true ∧
    got (.calTrigWrite 0 .hostA 256 true) (cl cx) (fun t => (t.calInst 16384).due == none && t.fld F.RAS_AEL2_KIND 0 == 11) = true ∧
    got (.calRun 0 (hd 0x601) (pr [256]) true) (cl cx) (fun t => t.calCmds.map (·.left) == [[16384]] && (t.calInst 16384).due.isSome) = true := by decide +kernel

/-- Column 33 is starting, row 31 of it is retired. -/
def sc : State := { (up [] [(0xE00284, 0x80000000)] /- RAS_RETIRED_ROWS(33)=2**31; PWR_COL_STATE(33)=3 -/) with cols := [(33, { col0 with starting := true })] }
theorem test_power_good : (sc.fld F.PWR_COL_STATE 33 = 3 ∧ (sc.col 33).good = false) ∧
    got (.columnPowerGood 0 33) sc (fun t => (t.col 33).good && t.flag F.CLK_COL_LOCK 33 && t.tState 1087 == 5 && t.tState 1086 == 0 &&
      t.flag F.TILE_STAT_ON_RING 1087) = true := by decide +kernel
theorem test_dll_lock : ((up [(0xB00184, 0xF8E00000)] [(0xC00184, 0x80000000)] /- CLK_COL_LOCK(33)=1; PWR_COL_STATE(33)=0; TILE_STAT_ON_RING(1087)=1 -/).flag F.CLK_COL_LOCK (tileCol 1087) = true) ∧
    got (.dllLock 0 1087) (up [(0xB00184, 0xF8E00000)] [(0xC00184, 0x80000000)] /- CLK_COL_LOCK(33)=1; PWR_COL_STATE(33)=0; TILE_STAT_ON_RING(1087)=1 -/) (fun t => (t.tile 1087).dll == 1 && !t.flag F.TILE_STAT_ON_RING 1087) = true ∧
    got (.dllLockTimeout 200000 1087) (up [(0xB00184, 0xF8E00000)] [(0xC00184, 0x80000000)] /- CLK_COL_LOCK(33)=1; PWR_COL_STATE(33)=0; TILE_STAT_ON_RING(1087)=1 -/) (fun t => (t.tile 1087).dll == 2) = true := by
  decide +kernel
theorem test_dll_loss : got (.dllLockLoss 0 1087) { (up [(0xB00184, 0xF8E00000)] [(0x143F000, 0x0)] /- PWR_COL_STATE(33)=0; TILE_STAT_ON_RING(1087)=0 -/) with tiles := [(1087, { tile0 with dll := 1 })] } (fun t =>
    (t.tile 1087).dll == 2 && t.flag F.TILE_STAT_ON_RING 1087 && t.flag F.TILE_STAT_LOCK_LOST 1087) = true := by decide +kernel
/-- Column 33 runs at 1,000 MHz; tile 1087 idle. -/
def op : State := (up [(0xB00184, 0xF8E00000)] [(0x143F000, 0x0)] /- PWR_COL_STATE(33)=0; TILE_STAT_STATE(1087)=0; TILE_STAT_ON_RING(1087)=0 -/)
theorem test_rate : op.colOpen 33 = true ∧ got (.tileRateWindow 0 [(1087, 123456, 1000)]) op (fun t =>
    t.flag F.TILE_RATE_VALID 1087 && t.fld F.TILE_RATE_MHZ 1087 == 1234) = true := by decide +kernel
theorem test_sense : op.fld F.PWR_COL_STATE (tileCol 1087) ≠ 3 ∧ got (.tileSenseConvert 0 1087 (-8) 2000) { op with
      cal := [(calKey 4 1087, { cal0 with sa := legs }), (calKey 5 1136, { cal0 with sa := legs })] } (fun t =>
    t.flag F.TILE_SENSE_VALID 1087 && t.fld F.TILE_SENSE_VOLT 1087 == 1023) = true := by decide +kernel
theorem test_meas : got (.measUpdate 0 1000 7 3000 1500 [(5, 1000000)]) op (fun t => t.fld F.DEV_MEAS_SEQ_SEQ == 2 && t.fld F.DEV_MEAS_ENERGY_FJ_PER_CELL == 142 &&
    t.fld F.DEV_MEAS_MOVE_RATIO_MILLI == 2000 && t.flag F.DEV_MEAS_HBM_LO_VALID 0) = true := by decide +kernel

theorem test_soft_reset : (op.access (regAddr .TILE_CTRL 1087) 4 = .ok (hitOf .TILE_CTRL 1087 0) ∧ op.tState 1087 = 0) ∧
    got (.softReset 0 .mc 1087) op (fun t => (t.tile 1087).resetting) = true ∧
    got (.softReset 0 .mc 1087) (op.setTState 1087 1) (fun t => !(t.tile 1087).resetting && t.fld F.RAS_AEL2_KIND 0 == 9) = true := by
  refine ⟨by decide +kernel, by decide +kernel, by decide +kernel⟩
theorem test_rng_load : got (.rngLoad 0 .mc 1087) op (fun t => (t.gen 1087).1 == 1) = true := by decide +kernel
theorem test_exc_clr : got (.excClr 0 .mc 1087) (op.setFld F.TILE_EXC_CAUSE 3 1087) (fun t => t.reg .TILE_EXC 1087 == 0) = true := by decide +kernel
theorem test_halt_req : ((op.setTState 1087 1).issuing 1087 = true ∧ op.taskOf 1087 = none ∧ op.sbList 1087 = []) ∧
    got (.haltReq 0 .mc 1087) (op.setTState 1087 1) (fun t => t.tState 1087 == 3 && t.fld F.TILE_EXC_CAUSE 1087 == 5) = true := by
  refine ⟨by decide +kernel, by decide +kernel⟩
theorem test_reset_end : got (.softResetComplete 0 1087) { op.setTState 1087 3 with tiles := [(1087, { tile0 with resetting := true, sp := [(3, ⟨7, false⟩)] })] }
    (fun t => t.tState 1087 == 0 && !(t.tile 1087).resetting && (t.tile 1087).sp == [(3, ⟨7, false⟩)]) = true := by decide +kernel
theorem test_debug : (op.access (regAddr .TILE_DBG_DATA 1087) 4 = .ok (hitOf .TILE_DBG_DATA 1087 0) ∧ op.dbgMay 1087 = true) ∧
    got (.tileDbgDataAccess 0 .mc 1087 (some 0xABCD)) op (fun t => t.fld F.TILE_DBG_ADDR_BYTE 1087 == 4 && (t.setFld F.TILE_DBG_ADDR_BYTE 0 1087).dbgGet 1087 == 0xABCD) = true ∧
    got (.tileDbgDataAccess 0 .mc 1087 none) (op.dbgPut 1087 9) (fun t => t.out == [.readData .mc 9]) = true := by
  refine ⟨by decide +kernel, by decide +kernel, by decide +kernel⟩
theorem test_tile_map : (op.access (regAddr .TILE_MAP 1087 255) 4 = .ok (hitOf .TILE_MAP 1087 255) ∧ op.flag F.TILE_MAP_RETIRED 1087 255 = false) ∧
    got (.tileMapWrite 0 .mc 1087 255 0x80000002) op (fun t => t.flag F.TILE_MAP_VALID 1087 255 && t.fld F.TILE_MAP_LROW 1087 255 == 2) = true := by
  refine ⟨by decide +kernel, by decide +kernel⟩

/-! ## Cameras, odometers, trigger generators -/

/-- Link 63's receiver has been calibrated. -/
def lk : State := { (up [] []) with cal := [(calKey 0 99, { cal0 with lastT := some 0 }), (calKey 1 99, { cal0 with lastT := some 0 })] }
theorem test_signal : lk.linkCal 63 = true ∧ got (.linkSignalDetect 0 63) lk (fun t => (t.link 63).disc == some ⟨0, 0, []⟩ && t.out == [.cxp 63 (.read 0)]) = true := by
  decide +kernel
/-- Link 63 in discovery, at its fourth register and its third attempt. -/
def ld : State := { (up [] []) with links := [(63, { link0 with disc := some ⟨3, 2, [1, 2, 3]⟩ })] }
theorem test_discovery : got (.cxpControlReply 0 (.link 63 9 [])) ld (fun t => (t.link 63).disc == some ⟨4, 0, [1, 2, 3, 9]⟩) = true ∧
    got (.cxpControlTimeout 0 (.link 63)) ld (fun t => (t.link 63).disc == none && t.out == []) = true := by decide +kernel
/-- Connection 15 RUN with links 60 and 63, line scan, steered to unit 3, waiting for line 5 of segment 0 with the reservoir at its cap. -/
def cr : State := { (up [(0x2003C0, 0x63800000), (0x2003C4, 0x20)] [] /- ING_CONN_CFG_STATE(15)=3; ING_CONN_CFG_STEERED(15)=1; ING_CONN_CFG_UNIT(15)=3; ING_CONN_CAPS_LINESCAN(15)=1; ODO_SEG_CFG_LINES_M1=1023 -/) with
  conns := [(15, { conn0 with links := [60, 63], ctrl := some (hd 0x302, false), runSince := some 0, cap := 1025, prev := some [7]
                              segs := [⟨0, 0, 3, some 0, 0, 6, false, false, false, 0, none, [], 0, none⟩], trigs := [⟨5, 0, 100, 0, false, false, false⟩] })]
  links := [(60, { link0 with conn := some 15 }), (63, { link0 with conn := some 15, tdr := true })] }
theorem test_lock_loss : ({ cr with conns := [(15, { cr.conn 15 with segs := [] })] } : State).openSeg 15 = none ∧
    got (.linkLockLoss 0 63) { cr with conns := [(15, { cr.conn 15 with segs := [] })] } (fun t => t.connState 15 == 1 && (t.conn 15).step == .boot 0 []) = true := by
  decide +kernel
theorem test_pass_reply : got (.cxpControlReply 0 (.pass 15 1 [9, 0, 0, 0])) cr (fun t => (t.conn 15).ctrl == none && t.out == [.mcReply ⟨hd 0x302, 0, true, [1, 9, 0, 0, 0]⟩]) = true ∧
    got (.cxpControlTimeout 0 (.pass 15)) cr (fun t => (t.conn 15).ctrl == none && t.out == [.mcReply ⟨hd 0x302, 0x0306, true, []⟩]) = true := by decide +kernel
/-- Connection 15 in discovery on link 63, in step `st`. -/
def cs (st : ConnStep) : State := { (up [(0x2003C0, 0x20010000)] [] /- ING_CONN_CFG_STATE(15)=1; ING_CONN_CFG_SPEED(15)=1 -/) with
  conns := [(15, { conn0 with links := [63], step := st, tries := 2 })], links := [(63, { link0 with conn := some 15 })] }
theorem test_conn_fails : got (.cxpControlTimeout 0 (.conn 15)) (cs .pixfmt) (fun t => t.connState 15 == 5 && (t.conn 15).step == .none) = true := by decide +kernel
theorem test_link_lock : got (.linkLock 0 15 [⟨1, 2, 3⟩]) (cs .locking) (fun t => t.connState 15 == 2 && t.flag F.ING_LINK_TDR_VALID 63) = true ∧
    got (.linkLockTimeout 0 15) (cs .locking) (fun t => t.fld F.ING_CONN_CFG_SPEED 15 == 1) = true := by decide +kernel
theorem test_absent : (cs .none).connState 15 ≠ 0 ∧ got (.connAbsentTimeout 0 15) (cs .none) (fun t => t.reg .ING_CONN_CFG 15 == 0 && (t.link 63).conn == none &&
    (t.conn 15).links == []) = true := by decide +kernel
theorem test_heartbeat : (cr.masterLink 15 = some 60 ∧ cr.connState 15 ≠ 4) ∧ got (.heartbeat 5) cr (fun t => t.out == [.cxp 60 (.heartbeat 5)]) = true := by decide +kernel
theorem test_tdr : got (.tdrMeasure 0 0) cr (fun t => (t.link 0).tdr && t.out == [.cxp 0 .probe]) = true ∧
    got (.tdrComplete 0 63 ⟨2, 300, 2 ^ 40⟩) cr (fun t => !(t.link 63).tdr && t.fld F.ING_LINK_TDR_LOSS_QDB 63 == 44 && t.fld F.ING_LINK_TDR_DIST_CM 63 == 15000) = true := by
  decide +kernel
theorem test_event_packet : got (.cxpEventPacket 0 15 7 [1, 0, 0, 0, 2]) cr (fun t => (t.log.getLast?.map (·.args)) == some [15, 7, 1, 2] && t.out == [.cxp 60 .eventAck]) = true ∧
    got (.cxpCameraTriggerPacket 0 15) cr (fun t => (t.conn 15).camTrigs == 1) = true := by decide +kernel
theorem test_line : (cr.openSeg 15 = some ⟨0, 0, 3, some 0, 0, 6, false, false, false, 0, none, [], 0, none⟩ ∧ cr.areaScan 15 = false ∧
      0 + 1 + cr.segSize ≤ (cr.conn 15).cap ∧ cr.flag F.ING_CONN_CFG_STEERED 15 = true) ∧
    got (.lineReceived 0 15 0 1 [[9]]) cr (fun t => (t.conn 15).lines.map (fun l => (l.n, l.pix)) == [(5, [9])] && (t.conn 15).trigs == []) = true := by decide +kernel
theorem test_line_timeout : 100 + cr.fld F.ING_RES_CFG_LINE_TO 15 * 100000 < 1000101 ∧
    got (.lineTimeout 1000101 15) cr (fun t => (t.conn 15).lines.map (fun l => (l.n, l.pix)) == [(5, [7])] && t.fld F.ING_CONN_CNT_MISSING 15 == 1) = true := by decide +kernel

/-- Odometer 3 enabled, its levels low, at position 0, an edge at 0, a reversal limit of 2 edges. -/
def od (x : Odo) : State := { (up [(0x4000C0, 0x80100218)] [] /- ODO_CFG_EN(3)=1; ODO_CFG_REV_EDGES(3)=2; ODO_CFG_STOP_MS(3)=1 -/) with odos := [(3, x)] }
theorem test_edge : (od { odo0 with edge := some 0, high := 1 }).gensOn 3 = [] ∧ stepForward false false true false = false ∧
    got (.encoderEdge 20 3 true) (od { odo0 with edge := some 0, high := 1 }) (fun t => t.fld F.ODO_POS_POS 3 == 2 ^ 64 - 1 && t.fld F.ODO_STAT_DIR 3 == 1 &&
      t.flag F.ODO_STAT_REVERSED 3 && !(t.odo 3).armed) = true ∧
    got (.encoderEdge 20 3 false) (od { odo0 with edge := some 0, high := 1 }) (fun t => t.fld F.ODO_POS_POS 3 == 1 && t.fld F.ODO_STAT_DIR 3 == 0) = true := by decide +kernel
theorem test_glitch : got (.encoderGlitch 9 3 true false) (od odo0) (fun t => t.fld F.ODO_STAT_GLITCHES 3 == 1 && (t.odo 3).a && (t.odo 3).glitches == [9]) = true := by decide +kernel
theorem test_suspect_end : (od { odo0 with suspect := true, okSince := some 0 }).glitchOkAt 3 = some 0 ∧
    got (.posSuspectEnd 1000000 3) (od { odo0 with suspect := true, okSince := some 0 }) (fun t => t.odo 3 == odo0) = true := by decide +kernel
theorem test_stop : got (.encoderStopTimeout 1000000 3) (od { odo0 with edge := some 0 }) (fun t => t.flag F.ODO_STAT_STOPPED 3) = true := by decide +kernel
theorem test_odo_cfg : (up [(0x4000C8, 0x5)] [] /- ODO_POS_POS(3)=5 -/).access (regAddr .ODO_CFG 3) 4 = .ok (hitOf .ODO_CFG 3 0) ∧
    got (.odoCfgWrite 0 .mc 3 0x80000003) (up [(0x4000C8, 0x5)] [] /- ODO_POS_POS(3)=5 -/) (fun t => t.fld F.ODO_CFG_REV_EDGES 3 == 16 && t.fld F.ODO_CFG_FILT_NS 3 == 3 && t.fld F.ODO_POS_POS 3 == 0) = true := by
  decide +kernel

/-- Generator 15, the reference one, targets connection 15, its next line 0 planned at 50. -/
def tg : State := { (up [(0x2003C0, 0x800000), (0x4004F0, 0x80000000), (0x400800, 0x14F03FF)] [] /- ODO_TG_CFG_EN(15)=1; ODO_SEG_CFG_REFGEN=15; ING_CONN_CFG_STEERED(15)=1 -/) with
  gens := [(15, { gen0 with plan := some 50, targets := 2 ^ 15 })], conns := [(15, { conn0 with links := [63] })], segB := some 0 }
theorem test_trigger : (tg.segB = some (tg.lineB 15 0) ∧ tg.masterLink 15 = some 63) ∧
    got (.triggerPlannedTime 50 15) tg (fun t => (t.trigGen 15).n == 1 && t.out == [.cxp 63 (.trigger 50)] && (t.conn 15).trigs.map (·.n) == [0]) = true := by decide +kernel
theorem test_gen_enable : (up [(0x4000C8, 0x9)] [] /- ODO_POS_POS(3)=9 -/).access (regAddr .ODO_TG_CFG 15) 4 = .ok (hitOf .ODO_TG_CFG 15 0) ∧
    got (.odoTgCfgWrite 0 .mc 15 0x8C008000) (up [(0x4000C8, 0x9)] [] /- ODO_POS_POS(3)=9 -/) (fun t => (t.trigGen 15).targets == 32768 && (t.trigGen 15).n == 10) = true := by decide +kernel
theorem test_seg_cfg : ((up [] []).access (regAddr .ODO_SEG_CFG) 4 = .ok (hitOf .ODO_SEG_CFG 0 0) ∧ (up [] []).refRuns = false ∧ bitsOf 0x258F003F 20 10 = 600 ∧ bitsOf 0x258F003F 0 16 = 63) ∧
    got (.odoSegCfgWrite 0 .mc 0x258F003F) (up [] []) (fun t => t.fld F.ODO_SEG_CFG_REFGEN == 15 && t.fld F.ODO_SEG_CFG_LINES_M1 == 63) = true := by decide +kernel
theorem test_res_cfg : (up [] []).access (regAddr .ING_RES_CFG 15) 4 = .ok (hitOf .ING_RES_CFG 15 0) ∧
    got (.ingResCfgWrite 0 .mc 15 0x0103FFFF) (up [] []) (fun t => t.fld F.ING_RES_CFG_CAP_LINES 15 == 0x3FFFF && t.fld F.ING_RES_CFG_LINE_TO 15 == 1) = true := by decide +kernel
/-- Connection 15 holds line 5 of its open segment, not yet in the chain. -/
def sh : State := { cr with conns := [(15, { cr.conn 15 with trigs := [], lines := [⟨0, 5, 5, 0, 0, 0, 0, 0, [7], false, false, 0, false, 0⟩] })] }
theorem test_hold : 0 + sh.fld F.ODO_SEG_CFG_HOLD_100MS * 100000000 ≤ 2000000000 ∧
    got (.segmentHoldTimeout 2000000000 15) sh (fun t => (t.conn 15).segs.map (fun g => (g.closed, g.short)) == [(true, true)] && (t.conn 15).lastB == some 0) = true := by decide +kernel

/-! ## Route words -/

/-- Tile 1087 runs; its word is `w`. -/
def tl (w : Nat) (x : Tile) : State := { (up [(0xB00184, 0xF8E00000)] [(0x143F000, 0x24000000), (0x143F040, 0x80000000)] /- PWR_COL_STATE(33)=0; TILE_STAT_STATE(1087)=1; TILE_RB_CFG_EN(1087)=1 -/) with
  tiles := [(1087, { x with groups := [(0, some (0, [⟨BitVec.ofNat 128 w, false⟩]))] })] }
def gx : Tile := { tile0 with g := [(2, 2 ^ 32 - 1), (3, 5)] }
/-- The same tile with a task of crew 63 of unit 15, of which it is one of two participants. -/
def tk (w : Nat) (x : Tile) : State := { tl w x with crews := [(64 * 15 + 63, { crew0 with task := some ⟨0, 0, [1086, 1087], [], false⟩ })] }
def pcIs (n : Nat) (t : State) : Bool := (t.tile 1087).pc == n && t.tState 1087 == 1

theorem test_route_nop : (tl 0 tile0).issues 1087 0x00 0 ∧ got (.routeNop 0 1087) (tl 0 tile0) (pcIs 1) = true := by
  delta State.issues; decide +kernel
theorem test_loop_end : (tl 0 { tile0 with loops := [⟨0, 0, 3, 2, 0⟩] }).issuing 1087 = true ∧
    got (.routeNop 0 1087) (tl 0 { tile0 with loops := [⟨0, 0, 3, 2, 0⟩] }) (fun t => pcIs 0 t && t.gReg 1087 3 == 1) = true ∧
    got (.routeNop 0 1087) (tl 0 { tile0 with loops := [⟨0, 0, 3, 2, 1⟩] }) (fun t => pcIs 1 t && t.gReg 1087 3 == 2 && (t.tile 1087).loops == []) = true := by
  decide +kernel
theorem test_setg : (tl (0x02 + 15 * 2 ^ 16 + 0xABCDEF01 * 2 ^ 32) tile0).issues 1087 0x02 (0x02 + 15 * 2 ^ 16 + 0xABCDEF01 * 2 ^ 32) ∧
    got (.setg 0 1087) (tl (0x02 + 15 * 2 ^ 16 + 0xABCDEF01 * 2 ^ 32) tile0) (fun t => pcIs 1 t && t.gReg 1087 15 == 0xABCDEF01) = true ∧
    got (.setg 0 1087) (tl (0x02 + 5 * 2 ^ 32) tile0) (fun t => pcIs 1 t && t.gReg 1087 0 == 0) = true := by
  delta State.issues; decide +kernel
/-- ALU of G2 and G3 into G1. -/
def alu (fn : Nat) : Nat := 0x03 + 1 * 2 ^ 16 + 2 * 2 ^ 20 + 3 * 2 ^ 24 + fn * 2 ^ 28
theorem test_alu : (tl (alu 0) gx).issues 1087 0x03 (alu 0) ∧ (tl (alu 10) gx).issues 1087 0x03 (alu 10) ∧
    got (.alu 0 1087) (tl (alu 0) gx) (fun t => t.gReg 1087 1 == 4) = true ∧ got (.alu 0 1087) (tl (alu 7) gx) (fun t => t.gReg 1087 1 == 2 ^ 27 - 1) = true ∧
    got (.alu 0 1087) (tl (alu 8) gx) (fun t => t.gReg 1087 1 == 0) = true ∧ got (.alu 0 1087) (tl (alu 10) gx) (fun t => t.gReg 1087 1 == 5) = true := by
  delta State.issues; decide +kernel
/-- BR on G2 and G3 to word 4095. -/
def br (c : Nat) : Nat := 0x05 + 2 * 2 ^ 16 + 3 * 2 ^ 20 + c * 2 ^ 24 + 4095 * 2 ^ 64
theorem test_br : (tl (br 3) gx).issues 1087 0x05 (br 3) ∧ got (.br 0 1087) (tl (br 3) gx) (pcIs 4095) = true ∧ got (.br 0 1087) (tl (br 5) gx) (pcIs 1) = true := by
  delta State.issues; decide +kernel
/-- LOOP of 4 words with pass register 7 and count `n`. -/
def lp (n : Nat) : Nat := 0x04 + 7 * 2 ^ 16 + n * 2 ^ 24 + 4 * 2 ^ 40
theorem test_loop : (tl (lp 0) gx).issues 1087 0x04 (lp 0) ∧ (tl (lp 65535) gx).issues 1087 0x04 (lp 65535) ∧
    got (.loop 0 1087) (tl (lp 0) gx) (pcIs 5) = true ∧
    got (.loop 0 1087) (tl (lp 65535) gx) (fun t => pcIs 1 t && (t.tile 1087).loops == [⟨1, 4, 7, 65535, 0⟩]) = true := by
  delta State.issues; decide +kernel
/-- LDG of lane 3 of word 16383 of the scratchpad into G4; STG of G2 into lane 3 of word 100. -/
def ldg : Nat := 0x18 + 4 * 2 ^ 16 + 16383 * 2 ^ 20 + 3 * 2 ^ 40
def stg : Nat := 0x19 + 2 * 2 ^ 16 + 100 * 2 ^ 20 + 3 * 2 ^ 40
theorem test_ldg : (tl ldg gx).issues 1087 0x18 ldg ∧ (tl ldg gx).unblocked 1087 [⟨false, false, 16383, 1⟩] 0 ∧
    got (.ldg 0 1087) ((tl ldg gx).writeW 1087 false 16383 ⟨7 * 2 ^ 96, false⟩) (fun t => pcIs 1 t && t.gReg 1087 4 == 7) = true := by
  delta State.issues State.unblocked; decide +kernel
theorem test_stg : (tl stg gx).issues 1087 0x19 stg ∧ (tl stg gx).unblocked 1087 [⟨true, false, 100, 1⟩] 0 ∧
    got (.stg 0 1087) (tl stg gx) (fun t => pcIs 1 t && (t.readW 1087 false 100).v == 0xFFFFFFFF000000000000000000000000#128) = true := by
  delta State.issues State.unblocked; decide +kernel

theorem test_cfg : (tl (0x08 + 31 * 2 ^ 16 + 3 * 2 ^ 21 + 9 * 2 ^ 32) gx).issues 1087 0x08 (0x08 + 31 * 2 ^ 16 + 3 * 2 ^ 21 + 9 * 2 ^ 32) ∧
    got (.cfg 0 1087) (tl (0x08 + 31 * 2 ^ 16 + 3 * 2 ^ 21 + 9 * 2 ^ 32) gx) (fun t => pcIs 1 t && (t.tile 1087).cfg == [(127, 9)]) = true := by
  delta State.issues; decide +kernel
theorem test_ring : (tl (0x09 + 3 * 2 ^ 16 + 2 * 2 ^ 18 + 2 * 2 ^ 23 + 2 ^ 31) gx).issues 1087 0x09 (0x09 + 3 * 2 ^ 16 + 2 * 2 ^ 18 + 2 * 2 ^ 23 + 2 ^ 31) ∧
    got (.ring 0 1087) (tl (0x09 + 3 * 2 ^ 16 + 2 * 2 ^ 18 + 2 * 2 ^ 23 + 2 ^ 31) gx) (fun t => t.ringOf 1087 3 == ⟨true, 2, 4, 1, false, 0⟩) = true := by
  delta State.issues; decide +kernel
theorem test_seed : (tl 0x0A gx).issues 1087 0x0A 0x0A ∧ got (.seed 0 1087) (tl 0x0A { gx with genX := 5, genM := 7 }) (fun t => (t.tile 1087).genX == 1 && (t.tile 1087).genM == 0) = true := by
  delta State.issues; decide +kernel
theorem test_clracc : (tl 0x16 gx).issues 1087 0x16 0x16 ∧ got (.clracc 0 1087) (tl 0x16 { gx with acc := [(5, ⟨7, false⟩)] }) (fun t => (t.tile 1087).acc == []) = true := by
  delta State.issues; decide +kernel
theorem test_convoy : (tl (0x30 + 1087 * 2 ^ 16 + 2 ^ 27) gx).issues 1087 0x30 (0x30 + 1087 * 2 ^ 16 + 2 ^ 27) ∧
    got (.convoy 0 1087) (tl (0x30 + 1087 * 2 ^ 16 + 2 ^ 27) gx) (fun t => pcIs 1 t && (t.tile 1087).convoy == some 1087) = true := by
  delta State.issues; decide +kernel
/-- WAIT for milestone 16383 and target `n`; ARRIVE of 3 at milestone 16383. -/
def wt (n : Nat) : Nat := 0x39 + 16383 * 2 ^ 16 + n * 2 ^ 34
def arr : Nat := 0x38 + 16383 * 2 ^ 16 + 3 * 2 ^ 34 + 2 ^ 50
theorem test_wait : (tl (wt 0) gx).issues 1087 0x39 (wt 0) ∧ (tl (wt 1) gx).issues 1087 0x39 (wt 1) ∧ (tl (wt 0) gx).msReached 16383 0 = true ∧
    (tl (wt 1) gx).msReached 16383 1 = false ∧ got (.wait 0 1087) (tl (wt 0) gx) (pcIs 1) = true ∧
    got (.wait 0 1087) (tl (wt 1) gx) (fun t => t.tState 1087 == 2 && t.waiters == [⟨.tile 1087, 16383, 1⟩]) = true := by
  delta State.issues; decide +kernel
theorem test_arrive : (tl arr gx).issues 1087 0x38 arr ∧ (tl arr gx).sbList 1087 = [] ∧
    got (.arrive 0 1087) (tl arr gx) (fun t => pcIs 1 t && t.arrFly == [⟨1087, 16383, 3⟩]) = true := by
  delta State.issues; decide +kernel
/-- The tile halts with this cause. -/
def halts (cause : Nat) (t : State) : Bool := t.tState 1087 == 3 && t.fld F.TILE_EXC_CAUSE 1087 == cause && t.out == [.report (.tileHalt 1087 cause)]
theorem test_word_excs : (tl (alu 8) tile0).issues 1087 0x03 (alu 8) ∧ (tl (alu 8) tile0).aluB 1087 (alu 8) = 0 ∧
    (tl (lp 0 + 2 * 2 ^ 20) gx).issues 1087 0x04 (lp 0 + 2 * 2 ^ 20) ∧ 65535 < (tl (lp 0 + 2 * 2 ^ 20) gx).loopCount 1087 (lp 0 + 2 * 2 ^ 20) ∧
    (tl (arr + 3 * 2 ^ 30) gx).issues 1087 0x38 (arr + 3 * 2 ^ 30) ∧ 16383 < (tl (arr + 3 * 2 ^ 30) gx).msOf 1087 (arr + 3 * 2 ^ 30) ∧
    got (.alu 0 1087) (tl (alu 8) tile0) (halts 0x11) = true ∧ got (.loop 0 1087) (tl (lp 0 + 2 * 2 ^ 20) gx) (halts 0x12) = true ∧
    got (.arrive 0 1087) (tl (arr + 3 * 2 ^ 30) gx) (halts 0x10) = true := by
  delta State.issues; decide +kernel
theorem test_halt : (tk 1 gx).issues 1087 0x01 1 ∧ (tk 1 gx).sbList 1087 = [] ∧ (tk 1 gx).taskOf 1087 = some (15, 63) ∧
    got (.halt 0 1087) (tk 1 gx) (fun t => t.tState 1087 == 0 && ((t.crew 15 63).task.map (·.done)) == some [1087]) = true ∧
    got (.halt 0 1087) { tk 1 gx with crews := [(64 * 15 + 63, { crew0 with task := some ⟨0, 0, [1086, 1087], [1086], false⟩ })] } (fun t =>
      t.tState 1087 == 0 && (t.crew 15 63).task == none) = true := by
  delta State.issues; decide +kernel

/-! The asynchronous words: of the scratchpad words from 5 on. Entry 0 is free. -/

def fill : Nat := 0x20 + 5 * 2 ^ 16 + 1 * 2 ^ 36 + 7 * 2 ^ 64
def copy : Nat := 0x21 + 5 * 2 ^ 16 + 9 * 2 ^ 36 + 1 * 2 ^ 56
def tbl : Nat := 0x22 + 5 * 2 ^ 16
def send : Nat := 0x23 + 5 * 2 ^ 16 + 9 * 2 ^ 36 + 1 * 2 ^ 56 + 1087 * 2 ^ 64
def rbs : Nat := 0x24 + 5 * 2 ^ 16
def catr : Nat := 0x25 + 5 * 2 ^ 16
theorem test_fill : (tl fill gx).issues 1087 0x20 fill ∧ (tl fill gx).unblocked 1087 [⟨true, false, 5, 2⟩] 1 ∧ (tl fill gx).sbGet 1087 0 = none ∧
    got (.fill 0 1087) (tl fill gx) (fun t => pcIs 1 t && (t.sbGet 1087 0).map (·.n) == some 2 && t.fld F.TILE_STAT_SB_BUSY 1087 == 1) = true := by
  delta State.issues State.unblocked; decide +kernel
theorem test_copy : (tl copy gx).issues 1087 0x21 copy ∧ (tl copy gx).unblocked 1087 [⟨false, false, 5, 2⟩, ⟨true, false, 9, 2⟩] 2 ∧
    got (.copy 0 1087) (tl copy gx) (fun t => pcIs 1 t && (t.sbGet 1087 0).map (·.addr) == some 9 && (t.sbGet 1087 1).map (·.addr) == some 5) = true := by
  delta State.issues State.unblocked; decide +kernel
theorem test_tbl : (tl tbl gx).issues 1087 0x22 tbl ∧ (tl tbl gx).unblocked 1087 [⟨false, false, 5, 32⟩] 1 ∧
    got (.tbl 0 1087) (tl tbl gx) (fun t => pcIs 1 t && (t.sbGet 1087 0).map (·.n) == some 32) = true := by
  delta State.issues State.unblocked; decide +kernel
theorem test_send : (tl send gx).issues 1087 0x23 send ∧ (tl send gx).unblocked 1087 [⟨false, false, 5, 2⟩] 1 ∧
    got (.send 0 1087) (tl send gx) (fun t => pcIs 1 t && match t.sbGet 1087 0 with | some ⟨_, _, _, _, .mesh p, _⟩ => p.dest == 1087 && p.addr == 9 | _ => false) = true := by
  delta State.issues State.unblocked; decide +kernel
theorem test_rbsend : (tl rbs gx).issues 1087 0x24 rbs ∧ (tl rbs gx).unblocked 1087 [⟨false, false, 5, 1⟩] 1 ∧ (tl rbs gx).flag F.TILE_RB_CFG_EN 1087 = true ∧
    got (.rbsend 0 1087) (tl rbs gx) (fun t => pcIs 1 t && (t.sbGet 1087 0).isSome) = true := by
  delta State.issues State.unblocked; decide +kernel
theorem test_catreq : (tl catr gx).issues 1087 0x25 catr ∧ (tl catr gx).unblocked 1087 [⟨false, false, 5, 4⟩] 1 ∧
    got (.catreq 0 1087) (tl catr gx) (fun t => pcIs 1 t && (t.sbGet 1087 0).map (·.n) == some 4) = true := by
  delta State.issues State.unblocked; decide +kernel

/-- Set 31 with the operator `opk` and everything else zero: one channel group, one position, a 1 × 1 kernel, INT8; `q`: its output format. -/
def ox (opk q : Nat) : Tile := { tile0 with cfg := [(124, BitVec.ofNat 96 (opk * 2 ^ 50)), (126, BitVec.ofNat 96 (q * 2 ^ 48 + 0x3F800000))], lb := [(0, ⟨3, false⟩)] }
/-- A word of that operator with set 31, input at word 5, weights at word 208. -/
def ow (op : Nat) : Nat := op + 5 * 2 ^ 16 + 208 * 2 ^ 36 + 31 * 2 ^ 100
/-- The tile at the word `w`, with the input 3 of channel 0 and a weight 2 of it. -/
def os (w opk q : Nat) : State := ((tl w (ox opk q)).writeW 1087 false 5 ⟨3, false⟩).writeW 1087 false 208 ⟨2, false⟩
/-- The sum of the INT32 vectors at words 5 and 208 at word 100; the INT8 codes of the vector at word 5 at word 100. -/
def eww : Nat := 0x14 + 5 * 2 ^ 16 + 208 * 2 ^ 36 + 100 * 2 ^ 56 + 2 ^ 93 + 2 ^ 96 + 2 ^ 99
def rqw : Nat := 0x15 + 5 * 2 ^ 16 + 100 * 2 ^ 36 + 31 * 2 ^ 104 + 2 ^ 122
/-- A word names what raises nothing and waits for nothing. -/
def clear (s : State) (n : Named) : Bool := decide (n.excs = [] ∧ s.rngExcs 1087 n.rngs = [] ∧ n.banks = 0 ∧ n.waits = false ∧ s.sbWait 1087 n = false)

theorem test_conv : (os (ow 0x10) 0 0).issues 1087 0x10 (ow 0x10) ∧ (((os (ow 0x10) 0 0).geo 1087 31).opk = 0 ∧ ((os (ow 0x10) 0 0).geo 1087 31).gOut = 1) ∧
    clear (os (ow 0x10) 0 0) ((os (ow 0x10) 0 0).sweepNamed 1087 (ow 0x10)) = true ∧
    got (.conv 0 1087) (os (ow 0x10) 0 0) (fun t => pcIs 1 t && (t.tile 1087).acc == [(0, ⟨6, false⟩)]) = true := by
  delta State.issues; decide +kernel
theorem test_mat : (os (ow 0x11) 1 0).issues 1087 0x11 (ow 0x11) ∧ (((os (ow 0x11) 1 0).geo 1087 31).opk = 1 ∧ ((os (ow 0x11) 1 0).geo 1087 31).gOut = 1) ∧
    clear (os (ow 0x11) 1 0) ((os (ow 0x11) 1 0).sweepNamed 1087 (ow 0x11)) = true ∧
    got (.mat 0 1087) (os (ow 0x11) 1 0) (fun t => pcIs 1 t && (t.tile 1087).acc == [(0, ⟨6, false⟩)]) = true := by
  delta State.issues; decide +kernel
theorem test_slip : (os (ow 0x12) 2 0).issues 1087 0x12 (ow 0x12) ∧ ((os (ow 0x12) 2 0).geo 1087 31).opk = 2 ∧
    clear (os (ow 0x12) 2 0) ((os (ow 0x12) 2 0).sweepNamed 1087 (ow 0x12)) = true ∧
    got (.slip 0 1087) (os (ow 0x12) 2 0) (fun t => pcIs 1 t && (t.tile 1087).acc == [(0, ⟨6, false⟩)]) = true := by
  delta State.issues; decide +kernel
theorem test_pool : (os (ow 0x13) 3 0).issues 1087 0x13 (ow 0x13) ∧ ((os (ow 0x13) 3 0).geo 1087 31).opk = 3 ∧
    clear (os (ow 0x13) 3 0) ((os (ow 0x13) 3 0).poolNamed 1087 (ow 0x13)) = true ∧
    got (.pool 0 1087) (os (ow 0x13) 3 0) (fun t => pcIs 1 t && (t.tile 1087).acc == [(0, ⟨3, false⟩)]) = true := by
  delta State.issues; decide +kernel
theorem test_ew : (os eww 0 0).issues 1087 0x14 eww ∧ (wf eww 87 76 = 0 ∧ wf eww 90 88 = 0 ∧ wf eww 92 91 ≤ 1 ∧ (fmtOf (wf eww 101 99)).narrow = false) ∧
    clear (os eww 0 0) ((os eww 0 0).ewNamed 1087 eww) = true ∧
    got (.ew 0 1087) (os eww 0 0) (fun t => pcIs 1 t && (t.readW 1087 false 100).v == 5) = true := by
  delta State.issues; decide +kernel
theorem test_rq : (os rqw 0 3).issues 1087 0x15 rqw ∧ (wf rqw 121 110 = 0 ∧ ((os rqw 0 3).geo 1087 31).out = .int8) ∧
    clear (os rqw 0 3) ((os rqw 0 3).rqNamed 1087 rqw) = true ∧
    got (.rq 0 1087) (os rqw 0 3) (fun t => pcIs 1 t && (t.readW 1087 false 100).v == 3 && t.fld F.TILE_MSE_CNT_CNT 1087 == 16) = true := by
  delta State.issues; decide +kernel

/-- Slot 255 of engine 3 is the tile's, of direction `dir`, in state `st`, as `q`, with a ring of 8 words from word 100 on. -/
def zs (w dir st : Nat) (q : Slot) : State := { (up [(0x941FF0, 0x80000008), (0x941FF4, 0x43F), (0x941FF8, 0x70064), (0xB00184, 0xF8E00000)] [(0x143F000, 0x24000000)] /- PWR_COL_STATE(33)=0; TILE_STAT_STATE(1087)=1; STR_SLOT_RATE_EN(3,255)=1; STR_SLOT_RATE_RATE_MBPS(3,255)=8; STR_SLOT_TILE_TILE(3,255)=1087; STR_SLOT_BUF_LEN_M1(3,255)=7; STR_SLOT_BUF_BASE_W(3,255)=100 -/) with
  tiles := [(1087, { tile0 with groups := [(0, some (0, [⟨BitVec.ofNat 128 w, false⟩]))], slots := if q.opened then [1023] else [] })]
  slots := if q = slot0 then [] else [(1023, q)] }.setFld F.STR_SLOT_RATE_DIR dir 3 255 |>.setFld F.STR_SLOT_STAT_STATE st 3 255
/-- The slot fields of a stream word. -/
def zw (op : Nat) : Nat := op + 3 * 2 ^ 16 + 255 * 2 ^ 18
def so : Slot := { slot0 with opened := true, chw := 4 }
theorem test_sopen : (zs (zw 0x28 + 3 * 2 ^ 27 + 2 ^ 40) 0 0 slot0).issues 1087 0x28 (zw 0x28 + 3 * 2 ^ 27 + 2 ^ 40) ∧
    ((zs (zw 0x28 + 3 * 2 ^ 27 + 2 ^ 40) 0 0 slot0).slotTile 3 255 = 1087 ∧ (zs (zw 0x28 + 3 * 2 ^ 27 + 2 ^ 40) 0 0 slot0).slotLen 3 255 % 4 = 0) ∧
    got (.sopen 0 1087) (zs (zw 0x28 + 3 * 2 ^ 27 + 2 ^ 40) 0 0 slot0) (fun t => pcIs 1 t && (t.slot 3 255).opened && (t.slot 3 255).limit == 64 &&
      t.fld F.STR_SLOT_STAT_STATE 3 255 == 1) = true := by
  delta State.issues; decide +kernel
theorem test_sget : (zs (zw 0x29) 0 1 { so with deliv := 64 }).issues 1087 0x29 (zw 0x29) ∧
    (zs (zw 0x29) 0 1 so).unblocked 1087 [⟨true, false, (zs (zw 0x29) 0 1 so).chunkAddr 3 255 0, 4⟩] 1 ∧
    got (.sget 0 1087) (zs (zw 0x29) 0 1 { so with deliv := 64 }) (fun t => pcIs 1 t && (t.slot 3 255).taken == 1 && t.sbGet 1087 0 == none) = true ∧
    got (.sget 0 1087) (zs (zw 0x29) 0 1 { so with deliv := 63 }) (fun t => pcIs 1 t && (t.slot 3 255).taken == 1 && (t.sbGet 1087 0).isSome) = true := by
  delta State.issues State.unblocked; decide +kernel
theorem test_srel : (zs (zw 0x2A + 2 ^ 26) 0 1 { so with taken := 2, a := 128 }).issues 1087 0x2A (zw 0x2A + 2 ^ 26) ∧
    got (.srel 0 1087) (zs (zw 0x2A + 2 ^ 26) 0 1 { so with taken := 2, a := 128 }) (fun t => pcIs 1 t && (t.slot 3 255).rel == 2 && (t.slot 3 255).a == 0) = true := by
  delta State.issues; decide +kernel
theorem test_sput : (zs (zw 0x2B + 2 ^ 26) 1 1 { so with o := 64 }).issues 1087 0x2B (zw 0x2B + 2 ^ 26) ∧ 64 + 4 * 16 ≤ (zs (zw 0x2B) 1 1 so).slotB 3 255 ∧
    (zs (zw 0x2B) 1 1 so).unblocked 1087 [⟨false, false, (zs (zw 0x2B) 1 1 so).chunkAddr 3 255 0, 4⟩] 1 ∧
    got (.sput 0 1087) (zs (zw 0x2B + 2 ^ 26) 1 1 { so with o := 64 }) (fun t => pcIs 1 t && (t.slot 3 255).o == 128 && (t.slot 3 255).eos && (t.sbGet 1087 0).isSome) = true := by
  delta State.issues State.unblocked; decide +kernel
theorem test_sclose : (zs (zw 0x2C) 0 1 { so with taken := 2 }).issues 1087 0x2C (zw 0x2C) ∧
    ((zs (zw 0x2C) 0 1 { so with taken := 2 }).sbList 1087).any (fun y => y.2.ofSlot 3 255) = false ∧
    got (.sclose 0 1087) (zs (zw 0x2C) 0 1 { so with taken := 2 }) (fun t => pcIs 1 t && (t.slot 3 255).pos == 128 && (t.tile 1087).slots == []) = true := by
  delta State.issues; decide +kernel
theorem test_giveway : (zs (zw 0x2D + 2 ^ 76) 0 2 so).issues 1087 0x2D (zw 0x2D + 2 ^ 76) ∧ (zs (zw 0x2D + 2 ^ 76) 0 2 so).msReached 0 0 = true ∧
    got (.giveway 0 1087) (zs (zw 0x2D + 2 ^ 76) 0 2 so) (fun t => pcIs 1 t && (t.slot 3 255).limit == 64 && t.fld F.STR_SLOT_STAT_STATE 3 255 == 1) = true := by
  delta State.issues; decide +kernel

/-! ## The reference lane -/

/-- An open segment 0 of unit 15, slot 0, with next line 6; a line of it; a GigE-less connection 1 that holds both. -/
def g0 : SegSt := ⟨0, 0, 15, some 0, 0, 6, false, false, false, 0, none, [], 0, none⟩
def l0 : ResLine := ⟨4, 5, 5, 0, 0, 0, 0, 0, [3, 5, 9, 2], false, false, 0, false, 0⟩
/-- Two looks a line, the stripe entries 0 and 63 of splice 0 of unit 15 in slot 0, the line waiting. -/
def rl : State := { (up [(0x200040, 0x6F800000), (0x200048, 0x1100007), (0x3F0000, 0x1)] [] /- REF_GEOM_N_M1(15)=1; ING_CONN_CFG_STATE(1)=3; ING_CONN_CFG_STEERED(1)=1; ING_CONN_CFG_UNIT(1)=15; ING_CONN_PIXFMT_PFNC(1)=0x01100007 -/) with
  conns := [(1, { conn0 with links := [7], segs := [g0], lines := [l0] })]
  refs := [(15, { ref0 with live := [⟨true, [(0x213C08, 0x80000000), (0x213FF0, 0x10000), (0x213FF8, 0x80000000), (0x3F0050, 0x3)] /- REF_SPLICE_EN(15,0)=1; REF_SPLICE_SRC(15,0)=1; ING_STRIPE_CREW_EN(15,0)=1; ING_STRIPE_CREW_EN(15,63)=1; ING_STRIPE_GEOM_W_M1(15,63)=1 -/⟩, ⟨false, []⟩, ⟨false, []⟩] })] }
theorem test_chain_line : (rl.flag F.REF_SETS_WAITING 15 = false ∧ rl.chainWork 15 = some (1, g0, l0, false) ∧ rl.seg? 1 0 0 = some g0 ∧ (rl.refU 15).sendQ = [] ∧
      (rl.refU 15).tnr = [] ∧ 1 < (rl.chainGeo 15).n ∧
      ∀ k < 4, splFld (rl.slotSet 15 0) F.REF_SPLICE_EN 15 k = 1 → splFld (rl.slotSet 15 0) F.REF_SPLICE_SRC 15 k ≠ 0) ∧
    got (.chainLineStart 0 15) rl (fun t => (t.refU 15).tnr.map (fun r => r.c) == [[1, 1]] && (t.conn 1).lines.map (·.chained) == [true]) = true := by
  refine ⟨by decide +kernel, by decide +kernel⟩
/-- Statistics of unit 15: 4,096 dark samples of 100 each, three bins of 16,384 differences. -/
def nf : State := (up [(0x3F0004, 0x4), (0x3F0108, 0x1000), (0x3F0110, 0x64000), (0x3F0118, 0x2719000), (0x3F0120, 0x4000), (0x3F0128, 0x50000), (0x3F0130, 0x4000), (0x3F0138, 0xA0000), (0x3F0210, 0x4000), (0x3F0218, 0x500000)] [] /- REF_ST(15,1)=4096; REF_ST(15,2)=409600; REF_ST(15,3)=40960000+4096*9; REF_ST(15,4)=16384; REF_ST(15,5)=2*16384*10; REF_ST(15,6)=16384; REF_ST(15,7)=2*16384*20; REF_ST(15,34)=16384; REF_ST(15,35)=2*16384*160; REF_CTRL_EST_HELD(15)=1 -/)
theorem test_noise_fit : (nf.mcUp = true ∧ bitsOf (nf.pol 0x01) 15 1 = 1 ∧ nf.refSt 15 1 = 4096 ∧ (nf.fitPoints 15).length = 3) ∧
    got (.noiseFit 0 15) nf (fun t => t.fld F.REF_NM_GAIN_NM_BLACK 15 == 100 && t.fld F.REF_NM_READ_NM_READ 15 == 9 && t.fld F.REF_NM_GAIN_NM_GAIN 15 == 10 &&
      !t.flag F.REF_CTRL_EST_HELD 15) = true := by decide +kernel
theorem test_noise_stale : ((up [] []).refSt 15 1 < 4096 ∧ mapGet 0 (up [] []).noiseBase 15 + (up [] []).pol 0x02 * 1000000000 < 60000000001) ∧
    got (.noiseFit 60000000001 15) (up [] []) (fun t => t.flag F.REF_CTRL_EST_HELD 15) = true := by decide +kernel
theorem test_slot_free : ((rl.refU 15).live.getD 2 ⟨false, []⟩).used = false ∧
    got (.refSlotWaitEnd 0 15) rl (fun t => !t.flag F.REF_SETS_WAITING 15 && t.fld F.REF_SETS_SLOTS_USED 15 == 1) = true := by decide +kernel
/-- REF_TAB_ADDR of unit 15 names the last word of bank 1. -/
def tb : State := (up [(0x3F0090, 0x1021FFF)] [] /- REF_TAB_ADDR_BANK(15)=1; REF_TAB_ADDR_WORD(15)=0x21FFF -/)
theorem test_tab_data : (tb.access (regAddr .REF_TAB_DATA 15) 4 = .ok (hitOf .REF_TAB_DATA 15 0) ∧ tb.bankBusy 15 1 = false) ∧
    got (.refTabDataAccess 0 .mc 15 (some 9)) tb (fun t => t.fld F.REF_TAB_ADDR_WORD 15 == 0 && t.tabWord 15 0x43FFF == 9) = true ∧
    got (.refTabDataAccess 0 .mc 15 none) tb (fun t => t.fld F.REF_TAB_ADDR_WORD 15 == 0 && t.out.length == 1) = true := by
  refine ⟨by decide +kernel, by decide +kernel, by decide +kernel⟩
theorem test_tap_return : ((List.range 16).findSome? (fun c => ((rl.conn c).segs.find? fun g => g.unit == 15 && segNum g.b g.part == 0).map fun g => (c, g)) = some (1, g0) ∧
      ((rl.conn 1).lines.any fun l => g0.is l.b l.part && l.n == 5) = true ∧ setFldIn (rl.slotSet 15 0) F.ING_STRIPE_CREW_SPLICE 15 63 = 0 ∧
      0 ∈ crewEntries (rl.slotSet 15 0) 15 ∧ setFldIn (rl.slotSet 15 0) F.ING_STRIPE_CREW_SPLICE 15 0 = 0) ∧
    got (.tapReturnRow 0 15 63 0 5 1 [3, 4] false) rl (fun t => (mapGet [] (t.refU 15).rets 0).length == 1) = true := by
  refine ⟨by decide +kernel, by decide +kernel⟩
/-- Sixty-four rows of splice 0 wait for their other stripes, each with the part of entry 63. -/
def lead : State := { rl with refs := [(15, { rl.refU 15 with rets := [(0, List.replicate 64 ⟨0, 0, 9, 1, [(63, [])]⟩)] })] }
theorem test_tap_lead : 64 ≤ ((mapGet [] (lead.refU 15).rets 0).filter fun r => r.cols.any fun q => q.1 == 63).length ∧
    got (.tapReturnRow 0 15 63 0 5 1 [3, 4] false) lead (fun t => t.flag F.ING_SEAM_STAT_RET_WAITED 15) = true := by decide +kernel
theorem test_send_wait : ({ rl with refs := [(15, { ref0 with sendWait := true })] } : State).sendFull 15 = false ∧
    got (.seamSendWaitEnd 0 15) { rl with refs := [(15, { ref0 with sendWait := true })] } (fun t => !(t.refU 15).sendWait) = true := by decide +kernel
theorem test_export : (up [] [(0xF801C4, 0x60000000)] /- JCT_STAT_STATE(3)=3 -/).jctActive 3 = true ∧
    got (.exportRowReceived 0 3 3 7 9 [65535]) (up [] [(0xF801C4, 0x60000000)] /- JCT_STAT_STATE(3)=3 -/) (fun t => t.exports == [⟨3, 3, 7, 9, [65535]⟩]) = true := by decide +kernel

/-! ## Tasks, rows and packets -/

/-- A segment of six lines, closed, with the task of entry 63 to run; the crew of that entry, tiles 1086 and 1087, between tasks; its plan. -/
def gc : SegSt := ⟨0, 0, 15, some 0, 0, 6, true, false, false, 0, none, [63], 0, none⟩
def pl : PkgPlan := ⟨256, [0, 1], 100, [(5, 2, 3)]⟩
def ds (x : Crew) : State := { (rg [(0x8, 0x1101), (0x100, 0x80000000), (0x740080, 0x3), (0x740088, 0x4), (0xB00104, 0xF8E00000), (0xB00180, 0xF8E00000), (0xB00184, 0xF8E00000), (0xB00200, 0xA0000000), (0xB00204, 0xA0000000), (0xB00208, 0xA0000000), (0xB0020C, 0xA0000000), (0xB00210, 0xA0000000), (0xB00214, 0xA0000000), (0xB00218, 0xA0000000), (0xB0021C, 0xA0000000), (0xB00220, 0xA0000000), (0xB00224, 0xA0000000), (0xB00228, 0xA0000000), (0xB0022C, 0xA0000000), (0xB00230, 0xA0000000), (0xB00234, 0xA0000000), (0xB00238, 0xA0000000), (0x143E040, 0x80010000), (0x143F040, 0x80010100)] /- D0, PWR_COL_STATE(33)=0; TILE_STAT_STATE(1086)=0; TILE_STAT_STATE(1087)=0; TILE_RB_CFG_N_M1(1086)=1; TILE_RB_CFG_N_M1(1087)=1; TILE_RB_CFG_MEMBER(1087)=1; TILE_RB_CFG_EN(1086)=1; TILE_RB_CFG_EN(1087)=1; MS_CFG_STRIDE(8)=4; MS_COUNT_COUNT(8)=3; DEV_LAYBY_LAYBY_A=1; PWR_COL_STATE(1)=0; PWR_COL_STATE(32)=0 -/) with
  conns := [(1, { conn0 with segs := [gc] })], crews := if x = crew0 then [] else [(1023, x)]
  banks := [(0, { bank0 with st := 1, pkg := ⟨[⟨15, 63, pl, none, [(false, 100, 2)], []⟩], [], []⟩ })], unitBank := [(15, 1)]
  refs := [(15, { ref0 with live := [⟨true, [(0x213FF0, 0x10000), (0x213FF8, 0x80011E21), (0x3F0050, 0x1)] /- REF_SPLICE_EN(15,0)=1; ING_STRIPE_CREW_EN(15,63)=1; ING_STRIPE_CREW_COL(15,63)=33; ING_STRIPE_CREW_HEAD(15,63)=30; ING_STRIPE_CREW_N_M1(15,63)=1; ING_STRIPE_GEOM_W_M1(15,63)=1 -/⟩, ⟨false, []⟩, ⟨false, []⟩] })] }
/-- The crew goes on with its run at line 10. -/
def cw : Crew := { crew0 with brk := false, started := true, firstLine := 10 }
theorem test_dispatch : (ds cw).dispatchable 15 63 1 gc pl ∧ got (.taskDispatch 0 15 63 6) (ds cw) (fun t =>
    t.tState 1086 == 1 && t.gReg 1087 1 == 1 && t.gReg 1087 2 == 2 && t.gReg 1087 3 == 6 && t.gReg 1087 5 == 10 && (t.tile 1087).disp.routeBase == 256 &&
    (t.crew 15 63).firstLine == 16) = true := by
  delta State.dispatchable; decide +kernel
theorem test_run_reset : (ds crew0).dispatchable 15 63 1 gc pl ∧ ((ds crew0).crewFlying [1086, 1087] = false ∧ runMs pl.runSet = [5, 8]) ∧
    got (.runReset 0 15 63) (ds crew0) (fun t => (t.crew 15 63).started && t.fld F.MS_COUNT_COUNT 8 == 0 && t.fld F.MS_TARGET_TARGET 8 == 4) = true := by
  delta State.dispatchable; decide +kernel
/-- Tile 1087 is detoured to tile 32, which has a ring of its own; its word 101 holds 7. -/
def dc : State := ({ (ds { cw with copyDue := true }) with tiles := [(1086, { tile0 with rings := [(0, ⟨true, 1, 2, 1, true, 3⟩)] })] } : State).writeW 1086 false 101 ⟨7, false⟩
  |>.setReg .RAS_DETOUR (0x80000000 + 1086 * 2 ^ 16 + 1086) 0
theorem test_detour_copy_meets : dc.dispatchable 15 63 1 gc pl ∧ (dc.flag F.RAS_DETOUR_VALID 0 = true ∧ dc.fld F.RAS_DETOUR_SLOW 0 = 1086 ∧ dc.fld F.RAS_DETOUR_FWD 0 = 1086 ∧
      (∀ j < 64, dc.flag F.RAS_DETOUR_VALID j = true → j = 0) ∧ dc.laybyTile 0 = 32 ∧ (dc.crewPkg 15 63).map (·.carried) = some [(false, 100, 2)]) ∧
    (dc.crew 15 63).copyDue = true := by
  delta State.dispatchable; decide +kernel

/-- The crew runs the task of segment 0, part 0; a row for it is queued; both tiles have a feeder ring. -/
def tsk : CrewTask := ⟨0, 0, [1086, 1087], [], false⟩
def rg0 : Tile := { tile0 with rings := [(2, ⟨true, 1, 2, 3, true, 0⟩)] }
def fd : State := { (ds { cw with task := some tsk, sent := 4 }) with
  tiles := [(1086, rg0), (1087, { rg0 with sb := [(15, some ⟨false, false, 5, 1, .row 7 0 2 1 false [⟨9, false⟩], false⟩)] })]
  refs := [(15, { (ds cw).refU 15 with sendQ := [(63, [⟨0, 0, 3, [8, 9]⟩])] })] }
theorem test_feeder : (fd.connOfSeg 15 0 0 = some 1 ∧ fd.seg? 1 0 0 = some gc ∧ [1086, 1087].all (fun j => fd.ringsReady j 4 1) = true ∧ fd.acceptsRow 1086 = true ∧
      fd.stripeRow 15 63 (fd.slotSet 15 0) ((fd.chainGeo 15).tapC (splFld (fd.slotSet 15 0) F.REF_SPLICE_SRC 15 0)) [8, 9] (segNum 0 0) 3 = some [8, 9]) ∧
    got (.feederRow 0 15 63) fd (fun t => (t.crew 15 63).sent == 5 && (t.ringOf 1087 2).top == 5 && t.out == []) = true := by
  refine ⟨by decide +kernel, by decide +kernel⟩
theorem test_bus_row : (fd.sbGet 1087 15 = some ⟨false, false, 5, 1, .row 7 0 2 1 false [⟨9, false⟩], false⟩ ∧ fd.acceptsRow 1087 = true ∧ fd.busMay 1087 7 0 2 1 = true ∧
      fd.segTiles 1087 = [1086, 1087]) ∧
    got (.rowBusRow 0 1087 15 false) fd (fun t => t.sbGet 1087 15 == none && (t.ringOf 1086 2).top == 1 && mapGet 0 t.busNext (fd.busKey 1087 7) == 1) = true := by
  refine ⟨by decide +kernel, by decide +kernel⟩
/-- A packet of two words for the last words of tile 1087's scratchpad, with an arrival at milestone 16383. -/
def pk : Packet := ⟨1087, 0, 16382, false, 16383, true, 5, 0, 0, 0, 0, false, false, [⟨7, false⟩, ⟨8, true⟩]⟩
def pa : State := { (up [(0xB00184, 0xF8E00000)] [(0x143F000, 0x24000000)] /- PWR_COL_STATE(33)=0; TILE_STAT_STATE(1087)=1 -/) with tiles := [(1087, { tile0 with arrivals := [{ pk with src := 4 }, pk] })] }
theorem test_packet_arrives : (pa.tile 1087).arrivals.find? (fun q => q.src == 5) = some pk ∧
    got (.meshPacketArrive 0 1087 5 false []) pa (fun t => t.readW 1087 false 16383 == ⟨8, true⟩ && (t.tile 1087).arrivals.length == 1 &&
      t.arrFly == [⟨1087, 16383, 1⟩] && t.fld F.TILE_TRAF_RX_RX 1087 == wireBytes false pk.words) = true ∧
    got (.meshPacketArrive 0 1087 5 true []) pa (fun t => t.flag F.TILE_STAT_BAD_ARRIVAL 1087 && t.fld F.TILE_ERRCNT_BAD_ARRIVALS 1087 == 1) = true := by
  refine ⟨by decide +kernel, by decide +kernel, by decide +kernel⟩
/-- Tile 1087 with one scoreboard entry. -/
def se (y : SbEntry) : State := { (up [(0xB00100, 0xF8E00000), (0xB00184, 0xF8E00000)] [(0x143F000, 0x24008000)] /- PWR_COL_STATE(33)=0; PWR_COL_STATE(0)=0; TILE_STAT_STATE(1087)=1; TILE_STAT_SB_BUSY(1087)=32768 -/) with tiles := [(1087, { tile0 with sb := [(15, some y)] })] }
theorem test_retire : got (.scoreboardRetire 0 1087 15) (se ⟨true, false, 16383, 1, .write [⟨7, false⟩], false⟩) (fun t => (t.readW 1087 false 16383).v == 7 && t.sbGet 1087 15 == none) = true ∧
    got (.scoreboardRetire 0 1087 15) (se ⟨false, false, 5, 32, .table (List.replicate 32 ⟨7 * 2 ^ 112, false⟩), false⟩) (fun t => mapGet acc0 (t.tile 1087).act 255 == ⟨7, false⟩) = true ∧
    got (.scoreboardRetire 0 1087 15) (se ⟨false, false, 5, 1, .read, false⟩) (fun t => t.fld F.TILE_STAT_SB_BUSY 1087 == 0) = true ∧
    got (.scoreboardRetire 0 1087 15) (se ⟨false, false, 5, 4, .catReq (List.replicate 4 ⟨1, false⟩), false⟩) (fun t => t.catTask.map (·.tile) == [some 1087]) = true := by
  refine ⟨by decide +kernel, by decide +kernel, by decide +kernel, by decide +kernel⟩
theorem test_mesh_send : ((up [(0xB00180, 0xF8E00000), (0xB00184, 0xF8E00000)] [] /- PWR_COL_STATE(33)=0; PWR_COL_STATE(32)=0 -/).subTile 1024 = 1024 ∧ (up [(0xB00180, 0xF8E00000), (0xB00184, 0xF8E00000)] [] /- PWR_COL_STATE(33)=0; PWR_COL_STATE(32)=0 -/).meshOpen 1087 1024 = true) ∧
    got (.scoreboardRetire 0 1087 15) { (up [(0xB00180, 0xF8E00000), (0xB00184, 0xF8E00000)] [(0x143F000, 0x24000000)] /- PWR_COL_STATE(33)=0; PWR_COL_STATE(32)=0; TILE_STAT_STATE(1087)=1 -/) with
        tiles := [(1087, { tile0 with sb := [(15, some ⟨false, false, 5, 1, .mesh { pk with dest := 1024, src := 1087 }, false⟩)] })] } (fun t =>
      (t.tile 1024).arrivals == [{ pk with dest := 1024, src := 1087 }]) = true := by
  refine ⟨by decide +kernel, by decide +kernel⟩

/-! ## Stream engines, catalogue engine, depot, egress -/

/-- Slot 255 of engine 3, STREAMING, of direction `dir`, reading or writing 64-byte rows at HBM address 0x1000 of stack 3, client tile 1087. -/
def ss (dir : Nat) (q : Slot) (e : Engine) : State := { (up [(0x941FE0, 0x1200001000), (0x941FE8, 0x1000), (0x941FEC, 0x9), (0x941FF0, 0x80000008), (0x941FF4, 0x43F), (0x941FF8, 0x70064), (0x941FFC, 0x20000000), (0xB00184, 0xF8E00000)] [(0x143F000, 0x24000000)] /- PWR_COL_STATE(33)=0; TILE_STAT_STATE(1087)=1; STR_SLOT_RATE_EN(3,255)=1; STR_SLOT_RATE_RATE_MBPS(3,255)=8; STR_SLOT_ROW_PITCH_64(3,255)=1; STR_SLOT_ROWS_ROWS_M1(3,255)=9; STR_SLOT_BASE_ADDR(3,255)=(3*12288*2097152+4096)//64; STR_SLOT_TILE_TILE(3,255)=1087; STR_SLOT_BUF_LEN_M1(3,255)=7; STR_SLOT_BUF_BASE_W(3,255)=100; STR_SLOT_STAT_STATE(3,255)=1 -/) with
  tiles := [(1087, { tile0 with slots := [1023] })], slots := [(1023, q)], engines := [(3, e)] }.setFld F.STR_SLOT_RATE_DIR dir 3 255
/-- An inbound slot and an outbound one that holds four words. -/
def qi : Slot := { slot0 with opened := true, chw := 4, limit := 640 }
def qo : Slot := { slot0 with opened := true, chw := 4, limit := 640, o := 64, data := [⟨1, false⟩, ⟨2, false⟩, ⟨3, false⟩, ⟨4, false⟩] }
theorem test_stream_issue : ((ss 0 qi engine0).flag F.RAS_PMIG_EN = false ∧ (ss 0 qi engine0).domOn 9 = true ∧ (ss 0 qi engine0).engineChoice 3 = some (255, true)) ∧
    got (.streamRequestIssue 0 3) (ss 0 qi engine0) (fun t => (t.engine 3).outst == [⟨255, 3 * 12288 * 2097152 + 4096, some (3 * 12288 * 2097152 + 4096), 64, List.replicate 64 (0, false)⟩] &&
      (t.slot 3 255).pos == 64 && (t.engine 3).credit == -64000) = true := by decide +kernel
theorem test_stream_write : ((ss 1 qo engine0).engineChoice 3 = some (255, true) ∧ (ss 1 qo engine0).hbmPhys ((ss 1 qo engine0).slotAddr 3 255 0) = some (3 * 12288 * 2097152 + 4096)) ∧
    got (.streamRequestIssue 0 3) (ss 1 qo engine0) (fun t => (t.slot 3 255).o == 0 && t.hbmByte (3 * 12288 * 2097152 + 4096 + 48) == 4) = true ∧
    got (.streamWritePulled 0 3 255) (ss 1 qo engine0) (fun t => (t.slot 3 255).pulled == 64 && t.hbmByte (3 * 12288 * 2097152 + 4096 + 16) == 2) = true := by decide +kernel
/-- The 64 bytes of a read; the second word of it holds 9. -/
def rd : List (Byte × Bool) := List.replicate 16 (0, false) ++ [(9, false)] ++ List.replicate 47 (0, false)
/-- The read is outstanding; its bytes in HBM have been written since. -/
def sr : State := { ss 0 { qi with pos := 64, a := 64, taken := 1 } { engine0 with outst := [⟨255, 3 * 12288 * 2097152 + 4096, some (3 * 12288 * 2097152 + 4096), 64, rd⟩] } with
  hbm := [(3 * 12288 * 2097152 + 4096 + 16, 8)] }
theorem test_stream_read : (takeOut 255 (sr.engine 3).outst = some (⟨255, 3 * 12288 * 2097152 + 4096, some (3 * 12288 * 2097152 + 4096), 64, rd⟩, []) ∧
      sr.slotTile 3 255 = 1087 ∧ 64 / 16 ≤ sr.slotLen 3 255) ∧
    got (.streamReadComplete 0 3 255) sr (fun t => (t.slot 3 255).deliv == 64 && (t.readW 1087 false 101).v == 9 && t.fld F.TILE_TRAF_RX_RX 1087 == 64) = true := by decide +kernel
theorem test_miss : ((up [] []).taskOf 1087 = none ∧ (up [] []).flag F.STR_MISS_LOG_VALID = false) ∧
    got (.deadlineMiss 0 (.stall 1087) true) (up [(0x900108, 0xFFFF0000)] [] /- STR_MISS_CNT_NEAR=65535 -/) (fun t => t.fld F.STR_MISS_CNT_NEAR == 65535) = true ∧
    got (.deadlineMiss 0 (.stall 1087) false) (up [] []) (fun t => t.fld F.STR_MISS_CNT_MISSES == 1 && t.fld F.STR_MISS_LOG_TILE == 1087) = true := by decide +kernel
/-- Table 63 of 16 rows of 64 bytes; a gather of row keys for one entry from 0x4000 to 0x8000, from tile 1087, which arrives at milestone 16383. -/
def ctb : State := (up [(0xA008E0, 0x3F80000000002000), (0xA008E8, 0x1000), (0xA008F8, 0x80000000), (0xA008FC, 0x10)] [] /- CAT_TAB_FMT_EN(63)=1; CAT_TAB_ROWS_ROWS(63)=16; CAT_TAB_VMAP_ADDR(63)=64; CAT_TAB_BASE_ADDR(63)=128 -/)
def crq : CatReq := ⟨some 1087, none, 63 * 2 ^ 8 + 0x4000 * 2 ^ 64 + 0x8000 * 2 ^ 128 + 16383 * 2 ^ 192 + 2 ^ 206 + 7 * 2 ^ 288, 0⟩
theorem test_cat_start : ctb.catRefused crq = false ∧ got (.catRequestStart 0) { ctb with catTask := [crq] } (fun t => t.catTask == [] && t.catRun.map (·.desc) == [crq.desc] &&
    t.fld F.CAT_STAT_INFLIGHT == 1) = true := by decide +kernel
theorem test_cat_refused : (up [] []).catRefused ⟨none, some (hd 0xA01), 63 * 2 ^ 8, 0⟩ = true ∧
    got (.catRequestStart 0) { (up [] []) with catHost := [⟨none, some (hd 0xA01), 63 * 2 ^ 8, 0⟩] } (fun t => t.catHost == [] && t.fld F.CAT_ERRCNT_REFUSED == 1 && t.out == [.mcReply ⟨hd 0xA01, 0x010F, true, []⟩]) = true := by decide +kernel
theorem test_cat_complete : ctb.hbmPhys crq.dstAt = some 0x8000 ∧
    got (.catRequestComplete 0 0) { ctb with catRun := [{ crq with head := 0x0A00 }] } (fun t => t.hbmByte 0x8001 == 10 && t.fld F.CAT_DONE_DONE == 1 && t.arrFly == [⟨1089, 16383, 1⟩]) = true := by decide +kernel

theorem test_bank_owner : ((up [(0x500008, 0x1000000000000000)] [] /- DEP_OWNERS_OWN=0x1000000000000000 -/).access (regAddr .DEP_BANK_OWNER) 4 = .ok (hitOf .DEP_BANK_OWNER 0 0) ∧
      mayHand (ownerClass .hostA) ((up [(0x500008, 0x1000000000000000)] [] /- DEP_OWNERS_OWN=0x1000000000000000 -/).bankOwner 15) = true ∧ mayHand (ownerClass .hostA) ((up [(0x500008, 0x2000000000000000)] [] /- DEP_OWNERS_OWN=0x2000000000000000 -/).bankOwner 15) = false) ∧
    got (.depBankOwnerWrite 0 .hostA 0x05008000) (up [(0x500008, 0x1000000000000000)] [] /- DEP_OWNERS_OWN=0x1000000000000000 -/) (fun t => t.bankOwner 15 == 5 && t.fld F.DEP_STAT_HANDOVERS == 1) = true ∧
    got (.depBankOwnerWrite 0 .hostA 0x05008000) (up [(0x500008, 0x2000000000000000)] [] /- DEP_OWNERS_OWN=0x2000000000000000 -/) (fun t => t.bankOwner 15 == 2 && t.fld F.DEP_STAT_NOT_OWNER == 1) = true := by decide +kernel
theorem test_tally : got (.tallySnapshot 0 []) (up [] []) (fun t => t.flag F.TALLY_STAT_RUNNING && t.fld F.TALLY_CNT_SNAPS == 1) = true ∧
    got (.tallySnapshot 0 [(3, 4)]) (up [(0xB00000, 0x40000000)] [] /- PWR_STAT_DSTATE=1 -/) (fun t => !t.flag F.TALLY_STAT_RUNNING && t.fld F.TALLY_CNT_SNAPS == 0) = true := by decide +kernel
/-- Ring 15 of 64 KiB takes records of connection 3 and type 7; `w` bytes written. -/
def er (w : Nat) : State := { (up [(0x1033C0, 0x1010), (0x1033D8, 0x80000000)] [] /- CMD_EGR_STAT_EN(15)=1; CMD_EGR_BASE_SIZE_LOG2(15)=16; CMD_EGR_BASE_ADDR(15)=1 -/) with
  rings := [(15, { ringE0 with connMask := 8, typeMask := 64, written := w, ien := true })] }
def rc : EgrRec := ⟨7, 3, 0, 0xFF, ⟨0, 0, 0, 0⟩, [1]⟩
theorem test_egress : ((er 0).ringTakes 15 rc = true ∧ (∀ j < 16, j ≠ 15 → (er 0).ringTakes j rc = false) ∧ (∀ k < 16, (er 0).rsTakes k rc = false) ∧
      (payloadFor rc false).length = 16) ∧
    got (.egressRecord 0 rc) (er (65536 - 64)) (fun t => (t.eRing 15).written == 65536 && (t.eRing 15).rseq == 1 && t.out.length == 1) = true ∧
    got (.egressRecord 0 rc) (er 65536) (fun t => (t.eRing 15).dropped == 1 && t.fld F.CMD_EGR_STAT_DROPS 15 == 1 && t.out == []) = true := by decide +kernel
theorem test_tail : got (.egressTailReport 0 15) { er 0 with rings := [(15, { (er 64).eRing 15 with unreported := true, shadow := 0x2000 })] } (fun t =>
      t.out == [.hostWrite 0 0x2000 [64, 0, 0, 0, 0, 0, 0, 0] false, .msix 0 79] && t.fld F.CMD_EGR_TAIL_TAIL 15 == 64) = true ∧
    got (.egressTailReport 0 15) (er 64) (fun t => t.out == []) = true := by decide +kernel

/-! ## DMA -/

/-- Channel 63: depot bytes 0x100 on to depot bytes 0x200 on, 32 bytes, both incrementing; depot bank 0 is the DMA's. -/
def dmc : Nat := 2 ^ 12 + 2 ^ 13 + 2 ^ 15
def dm (st pend ctrl count : Nat) (x : DmaChan) : State := { (up [(0x500008, 0x2), (0x603F00, 0x100), (0x603F08, 0x200)] [] /- DEP_OWNERS_OWN=2; DMA_SRC_SRC(63)=0x100; DMA_DST_DST(63)=0x200 -/) with
  dma := if x = chan0 then [] else [(63, x)], depot := [(0x100, 7), (0x11F, 9)] }.setReg .DMA_STAT (st * 2 ^ 29 + pend * 2 ^ 16) 63 |>.setReg .DMA_COUNT count 63 |>.setReg .DMA_CTRL ctrl 63
/-- The descriptor of those registers in progress. -/
def dx : DmaChan := { chan0 with src := 0x100, dst := 0x200, count := 32, ctrl := dmc, checked := true }
theorem test_dma_start : ((dm 0 0 dmc 32 chan0).access (regAddr .DMA_CMD 63) 4 = .ok (hitOf .DMA_CMD 63 0) ∧
      (dm 0 0 dmc 32 chan0).descOk { chan0 with src := 0x100, dst := 0x200, count := 32, ctrl := dmc } = true ∧
      (dm 0 0 7 32 chan0).descOk { chan0 with src := 0x100, dst := 0x200, count := 32, ctrl := 7 } = false) ∧
    got (.dmaStart 0 .mc 63) (dm 0 0 dmc 32 chan0) (fun t => t.dmaSt 63 == 1 && (t.chan 63).count == 32 && t.fld F.DMA_CUR_REMAIN 63 == 32) = true ∧
    got (.dmaStart 0 .mc 63) (dm 0 0 7 32 chan0) (fun t => t.dmaSt 63 == 4 && t.fld F.DMA_STAT_ERR 63 == 1) = true := by decide +kernel
theorem test_dma_again : got (.dmaStart 0 .mc 63) (dm 1 254 dmc 32 dx) (fun t => t.fld F.DMA_STAT_START_PEND 63 == 255 && t.fld F.DMA_STAT_START_OVR 63 == 0) = true ∧
    got (.dmaStart 0 .mc 63) (dm 1 255 dmc 32 dx) (fun t => t.fld F.DMA_STAT_START_PEND 63 == 255 && t.fld F.DMA_STAT_START_OVR 63 == 1) = true := by decide +kernel
theorem test_dma_stop : got (.dmaStop 0 .mc 63) (dm 1 0 dmc 32 dx) (fun t => t.dmaSt 63 == 2 && (t.chan 63).stop) = true ∧
    got (.dmaClrErr 0 .mc 63) (dm 4 0 dmc 32 chan0) (fun t => t.dmaSt 63 == 0) = true ∧
    got (.dmaKill 0 .mc 63) (dm 2 0 dmc 32 dx) (fun t => t.dmaSt 63 == 4 && t.fld F.DMA_STAT_ERR 63 == 6) = true ∧
    got (.dmaKill 0 .hostA 63) (dm 2 0 dmc 32 dx) (fun t => t.dmaSt 63 == 2 && t.fld F.RAS_AEL2_KIND 0 == 11) = true := by decide +kernel
theorem test_dma_complete : ({ dx with wr := 32 } : DmaChan).written = true ∧
    got (.dmaDescriptorComplete 0 63) (dm 2 3 dmc 32 { dx with wr := 32, stop := true }) (fun t => t.dmaSt 63 == 0 && t.flag F.DMA_STAT_STOPPED 63 && t.pulses == [(.local_ 63, 1)]) = true ∧
    got (.dmaDescriptorComplete 0 63) (dm 1 0 dmc 32 { dx with wr := 32, next := 2 ^ 31 + 8 }) (fun t => t.dmaSt 63 == 1 && (t.chan 63).fetching) = true ∧
    got (.dmaDescriptorComplete 0 63) (dm 1 0 dmc 32 { dx with wr := 32 }) (fun t => t.dmaSt 63 == 0) = true ∧
    got (.dmaDescriptorComplete 0 63) (dm 1 1 dmc 32 { dx with wr := 32 }) (fun t => t.dmaSt 63 == 1 && t.fld F.DMA_STAT_START_PEND 63 == 0) = true := by
  refine ⟨by decide +kernel, by decide +kernel, by decide +kernel, by decide +kernel, by decide +kernel⟩
/-- A linked descriptor at depot byte 0x100: 0x300 to 0x400, 16 bytes. -/
def dn : State := { dm 1 0 dmc 32 { dx with fetching := true, next := 2 ^ 31 + 8 } with
  depot := [(0x100, 0), (0x101, 3), (0x109, 4), (0x110, 16), (0x115, 0x30)] }
theorem test_dma_next : (dn.depotMay 2 0x100 = true ∧ dn.descOk { chan0 with src := 0x300, dst := 0x400, count := 16, ctrl := 0x3000 } = true) ∧
    got (.dmaNextFetched 0 63) dn (fun t => t.chan 63 == { chan0 with src := 0x300, dst := 0x400, count := 16, ctrl := 0x3000, checked := true } && t.fld F.DMA_CUR_ADDR 63 == 8) = true := by decide +kernel
theorem test_dma_read : ((dm 1 0 dmc 32 dx).dmaWinner 3 = some 63 ∧ dx.readLen = 32 ∧ dx.writeLen = 0) ∧
    got (.dmaBeat 0 3 false .error) (dm 1 0 dmc 32 dx) (fun t => (t.chan 63).rd == 32 && ((t.chan 63).hold.map (·.1)).getLast? == some 9) = true ∧
    got (.dmaBeat 0 3 false .error) (dm 1 0 dmc 32 { dx with ctrl := dmc + 1, src := 0x1000 }) (fun t => (t.chan 63).rd == 32 && (t.engine 0).credit == -32000) = true ∧
    got (.dmaBeat 0 3 false (.bytes (List.replicate 32 5))) (dm 1 0 dmc 32 { dx with ctrl := dmc + 2, src := 0x1000 }) (fun t => (t.chan 63).hold == List.replicate 32 (5, false)) = true := by
  refine ⟨by decide +kernel, by decide +kernel, by decide +kernel, by decide +kernel⟩
/-- Of 64 bytes the first 32 are held. -/
def dw (dsp : Nat) : DmaChan := { dx with count := 64, ctrl := dmc + 8 * dsp, rd := 32, hold := List.replicate 32 (6, false) }
theorem test_dma_write : ((dm 1 0 dmc 64 (dw 0)).dmaWinner 3 = some 63 ∧ (dw 0).writeLen = 32 ∧ 0 + 32 < (dw 0).outBytes) ∧
    got (.dmaBeat 0 3 true .error) (dm 1 0 dmc 64 (dw 0)) (fun t => t.depByte 0x21F == 6 && t.depByte 0x220 == 0 && t.fld F.DMA_CUR_REMAIN 63 == 32) = true ∧
    got (.dmaBeat 0 3 true .error) (dm 1 0 dmc 64 (dw 1)) (fun t => t.hbmByte 0x21F == 6 && t.hbmByte 0x220 == 0) = true ∧
    got (.dmaBeat 0 3 true .error) (dm 1 0 dmc 64 (dw 2)) (fun t => t.out == [.hostWrite 0 0x200 (List.replicate 32 6) false]) = true := by
  refine ⟨by decide +kernel, by decide +kernel, by decide +kernel, by decide +kernel⟩
/-- A pulse of local source 63; route 255 takes it to a milestone, a channel or a marker. -/
def ep0 : State := { (up [(0x6083FC, 0x3FFF403F)] [] /- DMA_ROUTE_EN(255)=1; DMA_ROUTE_SIDX(255)=63; DMA_ROUTE_DKIND(255)=0; DMA_ROUTE_DIDX(255)=16383 -/) with pulses := [(.local_ 63, 2)] }
def ep1 : State := { (up [(0x6083FC, 0x403F403F)] [] /- DMA_ROUTE_EN(255)=1; DMA_ROUTE_SIDX(255)=63; DMA_ROUTE_DKIND(255)=1; DMA_ROUTE_DIDX(255)=63 -/) with pulses := [(.local_ 63, 2)] }
def ep2 : State := { (up [(0x6083FC, 0x800F403F)] [] /- DMA_ROUTE_EN(255)=1; DMA_ROUTE_SIDX(255)=63; DMA_ROUTE_DKIND(255)=2; DMA_ROUTE_DIDX(255)=15 -/) with pulses := [(.local_ 63, 2)] }
theorem test_route_meets : ep0.routeTakes 255 (.local_ 63) = true ∧ (∀ i < 255, ep0.routeTakes i (.local_ 63) = false) ∧ ep0.fld F.DMA_ROUTE_DKIND 255 = 0 ∧
    ep1.fld F.DMA_ROUTE_DKIND 255 = 1 ∧ ep2.fld F.DMA_ROUTE_DKIND 255 = 2 := by decide +kernel
theorem test_timer : got (.dmaTimerPulse 3000 15) (up [(0x60903C, 0x800003E8)] [] /- DMA_TMR_EN(15)=1 -/) (fun t => t.pulses == [(.local_ 0x4F, 1)]) = true ∧
    got (.dmaTimerPulse 3001 15) (up [(0x60903C, 0x800003E8)] [] /- DMA_TMR_EN(15)=1 -/) (fun t => t.pulses == []) = true := by decide +kernel

/-! ## Network ports, plant bus -/

/-- Port 3 is up with address 10.0.0.1; one source is in quarantine. -/
def np : State := { (up [] [(0xF00300, 0x80000018), (0xF00304, 0xA000001), (0xF00318, 0x80000000), (0xF0031C, 0xFF0000)] /- NET_CFG_EN(3)=1; NET_STAT_STATE(3)=2; NET_IP_ADDR(3)=0x0A000001; NET_ERRCNT_FCS(3)=255 -/) with srcs := [⟨3, 9, [], true⟩] }
theorem test_frames : (np.portUp 3 = true ∧ np.quarantined 3 9 = true ∧ np.quarantined 3 5 = false ∧ np.portIp 3 = 0x0A000001) ∧
    got (.ethFrameReceived 0 3 ⟨9, 64, none, false, .pause⟩) np (fun t => t.fld F.NET_ERRCNT_FCS 3 == 255) = true ∧
    got (.ethFrameReceived 0 3 ⟨9, 64, none, true, .pause⟩) np (fun t => t.fld F.NET_ERRCNT_QUAR 3 == 1) = true ∧
    got (.ethFrameReceived 0 3 ⟨5, 9018, none, true, .arp 1 7 5 0x0A000001⟩) np (fun t => t.out == [.arp 3 2 7 5]) = true ∧
    got (.ethFrameReceived 0 3 ⟨5, 64, none, true, .echo 7 0x0A000001 [1]⟩) np (fun t => t.out == [.echo 3 7 [1]]) = true ∧
    got (.ethFrameReceived 0 3 ⟨5, 64, none, true, .fragment⟩) np (fun t => t.fld F.NET_ERRCNT_RX_DISCARD 3 == 1) = true := by
  refine ⟨by decide +kernel, by decide +kernel, by decide +kernel, by decide +kernel, by decide +kernel, by decide +kernel⟩
theorem test_arp_retry : (({ np with arp := [(3, ⟨[], [7], []⟩)] } : State).waitersFor 3 7 = [] ∧ 7 ∈ (({ np with arp := [(3, ⟨[], [7], []⟩)] } : State).arpPort 3).asked) ∧
    got (.arpRetry 0 3 7) { np with arp := [(3, ⟨[], [7], []⟩)] } (fun t => t.out == [.arp 3 1 7 0]) = true := by decide +kernel
theorem test_link_up : ((up [] [(0xF00300, 0x90000018)] /- NET_CFG_EN(3)=1; NET_CFG_MODE(3)=1 -/).fld F.NET_STAT_STATE 3 ≠ 2 ∧ ∀ c < 16, ((up [] [(0xF00300, 0x90000018)] /- NET_CFG_EN(3)=1; NET_CFG_MODE(3)=1 -/).conn c).gv = false) ∧
    got (.ethLinkUp 0 3 2 false 5 7) (up [] [(0xF00300, 0x90000018)] /- NET_CFG_EN(3)=1; NET_CFG_MODE(3)=1 -/) (fun t => t.fld F.NET_STAT_STATE 3 == 2 && t.fld F.NET_STAT_SPEED 3 == 2 && t.fld F.NET_STAT_FEC 3 == 1) = true := by decide +kernel
theorem test_link_loss : ((∀ d < 16, ∀ g ∈ (np.conn d).segs, g.unit < 16) ∧ ∀ c < 16, (np.conn c).gv = false) ∧
    got (.ethLinkLoss 0 3) np (fun t => t.reg .NET_STAT 3 == 0) = true := by decide +kernel
/-- PTP by UDP on port 3, domain 5, LOCKED to master `m0`, whose Sync 7 arrived at 1,000. -/
def m0 : PtpMaster := ⟨1, 2, 3, 4, 5, 6, 1⟩
def pt0 : State := { (up [] [(0xF00800, 0xB0050000), (0xF00804, 0x40000000)] /- NET_PTP_CFG_EN=1; NET_PTP_CFG_SRC=3; NET_PTP_CFG_DOMAIN=5; NET_PTP_STAT_STATE=2 -/) with
  ptp := { State.reset.ptp with master := some m0, sync := some (7, 1000), good := 15, locked := true, delay := 100, req := some (7, 500), diff := 300 } }
theorem test_ptp : (pt0.ptpPort 3 true = true ∧ pt0.ptp.sync = some (7, 1000) ∧ pt0.ptp.locked = true ∧ (-2147483648 : Int) ≤ 1000 - 800 - 20 - 100) ∧
    got (.ptpMessage 0 3 true (.announce 5 { m0 with prio1 := 0, ident := 9 })) pt0 (fun t => t.ptp.master.map (·.ident) == some 9 && t.fld F.NET_PTP_STAT_STATE == 2) = true ∧
    got (.ptpMessage 50 3 true (.sync 5 6 8 0 0 true)) pt0 (fun t => t.ptp.sync == some (8, 50)) = true ∧
    got (.ptpMessage 0 3 true (.delayResp 5 6 7 700 0)) pt0 (fun t => t.ptp.delay == 250 && t.ptp.req == none) = true ∧
    got (.ptpMessage 0 3 true (.followUp 5 6 7 800 20)) pt0 (fun t => t.fld F.NET_PTP_OFFSET_OFFSET == 80 && t.fld F.NET_PTP_STAT_STATE == 3 && t.out.length == 1) = true := by
  refine ⟨by decide +kernel, by decide +kernel, by decide +kernel, by decide +kernel, by decide +kernel⟩
theorem test_ptp_timeout : got (.ptpAnnounceTimeout 0) pt0 (fun t => t.fld F.NET_PTP_STAT_STATE == 4 && t.ptp.master == none) = true := by decide +kernel
/-- Result stream 15 on port 3 holds four bytes for 10.0.0.7, whose address is known. -/
def rss : State := { (up [] [(0xF00304, 0xA000001), (0xF00318, 0x80000000), (0xF011E0, 0xA000007), (0xF011E8, 0x86000000)] /- NET_RS_CFG_EN(15)=1; NET_RS_CFG_PORT(15)=3; NET_RS_DST_ADDR(15)=0x0A000007; NET_STAT_STATE(3)=2; NET_IP_ADDR(3)=0x0A000001 -/) with
  rs := [(15, { rs0 with bytes := [1, 2, 3, 4] })], arp := [(3, ⟨[(0x0A000007, 77)], [], []⟩)] }
theorem test_flush : (0 + rss.fld F.NET_RS_LEN_FLUSH_US 15 * 1000 ≤ 100000 ∧ 4 < rss.rsCap 15 ∧ rss.nextHop 3 0x0A000007 = some 0x0A000007 ∧
      arpFind 0x0A000007 (rss.arpPort 3).cache = some 77) ∧
    got (.rsFlushTimeout 100000 15) rss (fun t => (t.rsBuf 15).bytes == [] && (t.rsBuf 15).dseq == 1 && t.out.length == 1) = true := by decide +kernel
/-- A plant event of key 7, origin 3, SEQ 1: a speed hint for odometer 2, rate 9, tolerance 5; tagged with zeros. -/
def pev : List Byte := [0x45, 0x5A, 1, 7, 3, 0, 0, 0, 1, 0, 0, 0, 1, 0, 0, 0, 2, 0, 0, 0, 9, 0, 0, 0, 5] ++ List.replicate 23 0
def pes : State := { np with keys := [(7, some [])], keyMask := [(7, 1024)] }
theorem pev_tag (g : List Byte) (hg : Config.gmac (pes.keyBytes 7) (leBytes 3 4 ++ leBytes 1 4 ++ leBytes 2 4) (pev.take 32) = g) :
    pes.dgramBad pev 48 0x5A45 (numAt pev 12 1 == 1 || numAt pev 12 1 == 2) 8 2 = if g ≠ List.replicate 16 0 then some 1 else none := by
  unfold State.dgramBad
  have e : pes.keyBytes (numAt pev 3 1 % 8) = pes.keyBytes 7 := rfl
  have e2 : slice pev (48 - 16) 16 = List.replicate 16 0 := by decide +kernel
  have e3 : pev.take (48 - 16) = pev.take 32 := rfl
  have e4 : leBytes (numAt pev 4 4) 4 ++ leBytes (numAt pev 8 4) 4 ++ leBytes 2 4 = leBytes 3 4 ++ leBytes 1 4 ++ leBytes 2 4 := by decide +kernel
  have e5 : pes.replayed (numAt pev 3 1 % 8) (numAt pev 4 4) (numAt pev 8 4) = false := rfl
  simp only
  rw [if_neg (by decide +kernel), e, e2, e3, e4, hg, e5]
  rfl
theorem test_plant_event_meets (hg : Config.gmac (pes.keyBytes 7) (leBytes 3 4 ++ leBytes 1 4 ++ leBytes 2 4) (pev.take 32) = List.replicate 16 0) :
    pes.dgramBad pev 48 0x5A45 (numAt pev 12 1 == 1 || numAt pev 12 1 == 2) 8 2 = none ∧
    (pes.portUp 3 = true ∧ pes.quarantined 3 5 = false ∧ pes.classOk 7 0x0B = true ∧ numAt pev 3 1 % 8 = 7 ∧ numAt pev 12 1 = 1) :=
  ⟨by rw [pev_tag _ hg]; simp, by decide +kernel⟩
theorem test_plant_event_bad_meets (hg : Config.gmac (pes.keyBytes 7) (leBytes 3 4 ++ leBytes 1 4 ++ leBytes 2 4) (pev.take 32) = []) :
    pes.dgramBad pev 48 0x5A45 (numAt pev 12 1 == 1 || numAt pev 12 1 == 2) 8 2 = some 1 := by rw [pev_tag _ hg]; simp

/-- Plant-bus port 1 in PLCA with a coordinator. -/
def pb : State := (up [] [(0xF40100, 0xE0080318), (0xF40110, 0x80000000)] /- PLB_CFG_EN(1)=1; PLB_STAT_MODE(1)=2; PLB_CFG_BACKUP(1)=1; PLB_CFG_NODE_ID(1)=3 -/)
theorem test_plb_frame : pb.quarantined 5 7 = false ∧ got (.plbFrameReceived 3 1 0 ⟨7, 64, none, false, .other⟩) pb (fun t => t.fld F.PLB_ERRCNT_FCS 1 == 1 && (t.plb 1).noise == [3]) = true ∧
    got (.plbFrameReceived 3 1 255 ⟨7, 1518, none, true, .other⟩) pb (fun t => (t.plb 1).census == [⟨7, 255, false, false, false, 1, 3⟩]) = true := by decide +kernel
theorem test_collision : got (.plbCollision 0 1 16 false) pb (fun t => (t.plb 1).run == 1 && t.fld F.PLB_ERRCNT_DISCARD 1 == 1) = true ∧
    got (.plbCollision 0 1 7 true) { pb with plbs := [(1, { plb0 with run := 7 })] } (fun t => t.flag F.PLB_STAT_DUP_ID 1 && t.out == [.report (.note 17 1)]) = true := by decide +kernel
theorem test_beacon_timeout : (pb.flag F.PLB_CFG_BACKUP 1 = true ∧ pb.flag F.PLB_CFG_PLCA 1 = true ∧ pb.fld F.PLB_CFG_NODE_ID 1 ≠ 0xFF) ∧
    got (.plbBeaconTimeout 0 1 false) pb (fun t => t.fld F.PLB_STAT_MODE 1 == 1 && t.flag F.PLB_STAT_BEACON_LOST 1) = true ∧
    got (.plbBeaconTimeout 0 1 true) pb (fun t => t.fld F.PLB_STAT_MODE 1 == 3 && (t.plb 1).taken && t.out == [.beacon 5 8]) = true := by decide +kernel
theorem test_beacon : got (.plbBeaconReceived 0 1 8) { pb with plbs := [(1, { plb0 with taken := true, census := [⟨7, 0, false, false, false, 1, 3⟩] })] } (fun t =>
    t.fld F.PLB_STAT_MODE 1 == 2 && (t.plb 1).coord == 8 && (t.plb 1).census.map (·.beacon) == [true]) = true := by decide +kernel
theorem test_quarantine_end : np.quarantined 3 9 = true ∧ got (.quarantineExpire 0 3 9) np (fun t => !t.quarantined 3 9) = true := by decide +kernel
/-- A valid hint for odometer 3, rate 10 an edge at 1 ms, and nine bad comparisons. -/
def sph (dt : Nat) : State := { (up [] [(0xF40800, 0xB1900000000003E8)] /- PLB_HINT_VALID=1; PLB_HINT_ODO=3; PLB_HINT_RATE=1000; PLB_HINT_TOL_PERMILLE=100 -/) with hintBad := 9 }.setFld F.ODO_EDGE_DT_DT_NS dt 3
theorem test_hint : ((sph 2000000).flag F.ODO_STAT_STOPPED 3 = false ∧ 1000 * 100 * 2000000 < ((1000000000 : Int) - 1000 * 2000000).natAbs * 1000) ∧
    got (.speedHintCheck 0) (sph 2000000) (fun t => t.hintBad == 10 && t.flag F.PLB_HINT_MISMATCH && t.out == [.report (.note 18 3)]) = true ∧
    got (.speedHintCheck 0) (sph 1000000) (fun t => t.hintBad == 0 && t.out == []) = true ∧
    got (.speedHintExpire 0) (sph 0) (fun t => !t.flag F.PLB_HINT_VALID && t.hintBad == 0) = true := by
  refine ⟨by decide +kernel, by decide +kernel, by decide +kernel, by decide +kernel⟩

/-! ## Junction -/

/-- Port 3 in state `st`, as `x`; device 2 of system 9; device 255 lies behind port 3. -/
def js (st : Nat) (x : Jct) : State := { (up [(0x400400, 0x4000000)] [(0xF80000, 0x20009), (0xF80004, 0x80), (0xF801C0, 0x8F000000), (0xF813FC, 0x80000003)] /- JCT_CFG_EN(3)=1; JCT_SYS_DEVNUM=2; JCT_SYS_SYSID=9; JCT_ROUTE_VALID(255)=1; JCT_ROUTE_PRIMARY(255)=3; JCT_SYNC_ALIGNING=8; ODO_TG_CFG_ODO(0)=1 -/) with
  jcts := if x = jct0 then [] else [(3, x)], running := { State.reset.running with release := 0x05000000 } }.setFld F.JCT_STAT_STATE st 3
theorem test_jct_cfg : (js 3 jct0).access (regAddr .JCT_CFG 3) 4 = .ok (hitOf .JCT_CFG 3 0) ∧
    got (.jctCfgWrite 0 .mc 3 0x0F000000) (js 3 jct0) (fun t => t.jctState 3 == 0 && t.fld F.JCT_CFG_LANE_EN 3 == 15) = true := by decide +kernel
theorem test_training : got (.laneTrainingComplete 0 3 13) (js 1 jct0) (fun t => t.jctState 3 == 2 && t.fld F.JCT_STAT_LANES 3 == 2 && t.out.length == 1) = true ∧
    got (.laneTrainingComplete 0 3 0) (js 1 jct0) (fun t => t.jctState 3 == 1 && t.fld F.JCT_ERRCNT_RETRAINS 3 == 1) = true := by decide +kernel
theorem test_hello : (js 2 jct0).fwMajor = 5 ∧ got (.jctHello 0 3 255 9 5 4 32 2048) (js 2 jct0) (fun t => t.jctState 3 == 3 && (t.jct 3).plane == 4) = true ∧
    got (.jctHello 0 3 255 8 5 4 32 2048) (js 2 jct0) (fun t => t.jctState 3 == 4 && t.fld F.JCT_STAT_REASON 3 == 1) = true := by decide +kernel
theorem test_lane_failure : got (.laneFailure 0 3 1) (js 3 jct0) (fun t => t.jctState 3 == 5 && (t.jct 3).failed == 1 && t.out == [.laneDrop 3]) = true ∧
    got (.laneFailure 0 3 15) (js 3 jct0) (fun t => t.jctState 3 == 1 && t.out == []) = true ∧
    got (.laneDropReceived 0 3 15) (js 3 jct0) (fun t => t.jctState 3 == 5 && (t.jct 3).dropIn) = true := by decide +kernel
theorem test_retrain : got (.laneRetrainTimeout 0 3) (js 5 { jct0 with failed := 1 }) (fun t => t.jctState 3 == 1 && (t.jct 3).failed == 0) = true ∧
    got (.laneWidening 60000000005 3) (js 3 { jct0 with failed := 1, widened := some 5 }) (fun t => t.jctState 3 == 5 && (t.jct 3).widened == some 60000000005) = true := by decide +kernel

/-- A flit of 56 zero bytes of VC 1, not the last of its row, with sequence number `n`. -/
def fl (n : Nat) : Flit := ⟨1, 1, n, 0, 1, 0, flitCrc 1 1 n 0 1 0 (List.replicate 56 0), .bytes (List.replicate 56 0), true⟩
set_option maxRecDepth 20000 in
theorem test_flit : (flitGood (fl 0) = true ∧ flitGood (fl 4095) = true ∧ flitGood { fl 0 with crc := (fl 0).crc + 1 } = false) ∧
    got (.flitReceived 0 3 { fl 0 with crc := (fl 0).crc + 1 }) (js 3 jct0) (fun t => t.fld F.JCT_ERRCNT_CRC 3 == 1) = true ∧
    got (.flitReceived 0 3 (fl 0)) (js 3 jct0) (fun t => (t.jct 3).expect == 1 && (t.jct 3).asm.length == 56 && t.out == [.flit 3 1 0 0 0 1 1 none]) = true ∧
    got (.flitReceived 0 3 (fl 4095)) (js 3 jct0) (fun t => (t.jct 3).expect == 0 && (t.jct 3).asm == [] && t.out == []) = true := by
  refine ⟨by decide +kernel, by decide +kernel, by decide +kernel, by decide +kernel⟩
theorem test_replay : got (.flitReplayTimeout 0 3) (js 3 { jct0 with unacked := [(7, ⟨0, true, .msg (.timeReq 5)⟩)] }) (fun t =>
    t.fld F.JCT_ERRCNT_REPLAYS 3 == 1 && t.out == [.flit 3 0 2 7 4095 0 0 (some (.msg (.timeReq 5)))]) = true := by decide +kernel
theorem test_time_send : ((js 3 jct0).jctActive 3 = true ∧ ((js 3 jct0).jct 3).txq = [] ∧ 0 < ((js 3 jct0).jct 3).credits 0 ∧ ((js 3 jct0).jct 3).unacked.length < 2048) ∧
    got (.jctTimeSend 5 3) (js 3 jct0) (fun t => t.out == [.flit 3 0 2 0 4095 0 0 (some (.msg (.timeReq 5)))]) = true := by decide +kernel
theorem test_forward : ((js 3 jct0).jctRoute 255 = some 3 ∧ (js 3 jct0).jctRoute 254 = none) ∧
    got (.jctControlMessage 0 3 ⟨1, 255, 15, .go 9⟩) (js 3 jct0) (fun t => (t.jct 3).unacked == [(0, ⟨0, true, .msg (.ctl ⟨1, 255, 16, .go 9⟩)⟩)]) = true ∧
    got (.jctControlMessage 0 3 ⟨1, 254, 0, .go 9⟩) (js 3 jct0) (fun t => t.ctlLost == 1 && t.out == []) = true := by decide +kernel
theorem test_position : got (.positionSend 8) (js 3 jct0) (fun t => (t.odoSamp.map (·.1)) == [8]) = true ∧
    got (.positionMessage 0 5 false [(3, 7)]) { js 3 jct0 with odoSamp := [(5, [(3, 10)])], posDiff := [(3, (-3, 2))] } (fun t =>
      t.flag F.JCT_ODO_DIFF_STABLE 3 && t.fld F.JCT_ODO_DIFF_DIFF 3 == 2 ^ 48 - 3 && t.fld F.ODO_POS_POS 3 == 2 ^ 64 - 3 && t.fld F.JCT_SYNC_ALIGNING == 0) = true := by decide +kernel
theorem test_align : ((js 3 jct0).access (regAddr .JCT_SYNC) 4 = .ok (hitOf .JCT_SYNC 0 0) ∧ ∀ g < 16, (js 3 jct0).fld F.ODO_TG_CFG_ODO g ≠ 2) ∧
    got (.jctAlignWrite 0 .mc 0x00050004) (js 3 jct0) (fun t => t.fld F.JCT_SYNC_POSMASTER == 5 && t.fld F.JCT_SYNC_ALIGNING == 12) = true ∧
    got (.alignTimeout 0 3) (js 3 jct0) (fun t => t.fld F.JCT_SYNC_ALIGNING == 0 && t.out == [.report (.note 11 3)]) = true := by decide +kernel

/-! ## Errors, tests, substitutions -/

/-- The scrubber reads. -/
def scr (p : EccPlace) (ue : Bool) : Instr := .scrubRead 0 p ue true .other none none
theorem test_ecc_depot : got (scr (.depot 0x1FFFFFF) false) (up [] [(0xE0001C, 0xFFFF0000)] /- RAS_ECC_CNT_CE(3)=65535 -/) (fun t => t.fld F.RAS_ECC_CNT_CE 3 == 65535 && t.fld F.RAS_ECC_CNT_UE 3 == 0) = true ∧
    got (scr (.depot 0x1FFFFFF) true) (up [] []) (fun t => t.fld F.RAS_ECC_CNT_UE 3 == 1 && t.flag F.RAS_STAT_UE && t.fld F.RAS_UE_LOG_CLASS == 3 &&
      t.fld F.RAS_UE_ADDR_LOC == 0x1FFFFFF && t.depotPoison == [(0x1FFFFF, true)]) = true := by decide +kernel
theorem test_ecc_milestone : (up [(0x77FFF0, 0x5), (0x77FFF8, 0x40000000)] [] /- MS_CFG_OWNER(16383)=2; MS_COUNT_COUNT(16383)=5 -/).fld F.MS_CFG_OWNER 16383 ≠ 3 ∧
    got (scr (.milestone 16383) true) (up [(0x77FFF0, 0x5), (0x77FFF8, 0x40000000)] [] /- MS_CFG_OWNER(16383)=2; MS_COUNT_COUNT(16383)=5 -/) (fun t => t.fld F.MS_COUNT_COUNT 16383 == 0 && t.flag F.MS_CFG_FIRED 16383 &&
      t.fld F.MS_CFG_OWNER 16383 == 2) = true := by decide +kernel
theorem test_pseudo_channel : got (.hbmPseudoChannelFault 0 3 31) (up [(0x90007C, 0x1)] [] /- STR_OCTET_RETIRED(3)=1 -/) (fun t => t.fld F.STR_OCTET_RETIRED 3 == 9) = true := by decide +kernel
theorem test_hold_timeout : got (.rasHoldTimeout 0 3) (up [] [(0xE0013C, 0xA00F0000)] /- RAS_HOLD_EN(3)=1; RAS_HOLD_HOLDING(3)=1; RAS_HOLD_UNIT(3)=15 -/) (fun t => !t.flag F.RAS_HOLD_EN 3 && t.flag F.RAS_HOLD_RELEASED 3 &&
    t.fld F.RAS_HOLD_UNIT 3 == 15) = true := by decide +kernel
theorem test_self_check : got (.aonSelfCheckMismatch 0) (up [] [(0xE0000C, 0xFE000000)] /- RAS_SELFCHK_AON_MIS=254 -/) (fun t => t.fld F.RAS_SELFCHK_AON_MIS == 255 && t.flag F.RAS_STAT_SELF && t.out == [.report (.note 16 0)]) = true := by
  decide +kernel
theorem test_unit_bist : got (.bistComplete 0 [] true) { (up [] []) with bist := some ⟨true, 15⟩ } (fun t => t.fld F.RAS_STAT_UNIT_FAIL == 32768 && t.fld F.RAS_BIST_STAT_STATE == 2 &&
    !t.flag F.RAS_BIST_STAT_PASS && t.bist == none) = true := by decide +kernel
/-- Column 33 is in TEST. -/
def tc : State := { (up [] [(0x1420000, 0x84000000), (0x1421000, 0x84000000), (0x1422000, 0x84000000), (0x1423000, 0x84000000), (0x1424000, 0x84000000), (0x1425000, 0x84000000), (0x1426000, 0x84000000), (0x1427000, 0x84000000), (0x1428000, 0x84000000), (0x1429000, 0x84000000), (0x142A000, 0x84000000), (0x142B000, 0x84000000), (0x142C000, 0x84000000), (0x142D000, 0x84000000), (0x142E000, 0x84000000), (0x142F000, 0x84000000), (0x1430000, 0x84000000), (0x1431000, 0x84000000), (0x1432000, 0x84000000), (0x1433000, 0x84000000), (0x1434000, 0x84000000), (0x1435000, 0x84000000), (0x1436000, 0x84000000), (0x1437000, 0x84000000), (0x1438000, 0x84000000), (0x1439000, 0x84000000), (0x143A000, 0x84000000), (0x143B000, 0x84000000), (0x143C000, 0x84000000), (0x143D000, 0x84000000), (0x143E000, 0x84000000), (0x143F000, 0x84000000)] /- TILE_STAT_STATE(1056)=4; TILE_STAT_STATE(1057)=4; TILE_STAT_STATE(1058)=4; TILE_STAT_STATE(1059)=4; TILE_STAT_STATE(1060)=4; TILE_STAT_STATE(1061)=4; TILE_STAT_STATE(1062)=4; TILE_STAT_STATE(1063)=4; TILE_STAT_STATE(1064)=4; TILE_STAT_STATE(1065)=4; TILE_STAT_STATE(1066)=4; TILE_STAT_STATE(1067)=4; TILE_STAT_STATE(1068)=4; TILE_STAT_STATE(1069)=4; TILE_STAT_STATE(1070)=4; TILE_STAT_STATE(1071)=4; TILE_STAT_STATE(1072)=4; TILE_STAT_STATE(1073)=4; TILE_STAT_STATE(1074)=4; TILE_STAT_STATE(1075)=4; TILE_STAT_STATE(1076)=4; TILE_STAT_STATE(1077)=4; TILE_STAT_STATE(1078)=4; TILE_STAT_STATE(1079)=4; TILE_STAT_STATE(1080)=4; TILE_STAT_STATE(1081)=4; TILE_STAT_STATE(1082)=4; TILE_STAT_STATE(1083)=4; TILE_STAT_STATE(1084)=4; TILE_STAT_STATE(1085)=4; TILE_STAT_STATE(1086)=4; TILE_STAT_STATE(1087)=4 -/) with bist := some ⟨false, 33⟩ }
theorem test_column_bist : (∀ r < 32, tc.tState (32 * 33 + r) = tTest) ∧
    got (.bistComplete 0 [(31, [], [], true)] false) tc (fun t => t.tState 1087 == tRetired && t.tState 1086 == tIdle && t.fld F.RAS_BIST_FAIL_FAIL == 2 ^ 31 &&
      bitsOf (t.fld F.RAS_RETIRED_ROWS 33) 31 1 == 1) = true := by decide +kernel
theorem test_rotation : (sv.freeTx = some 0 ∧ sv.mcUp = true ∧ 1 ≤ sv.fld F.WAY_STAT_FREE) ∧
    got (.testRotationDue 0 ⟨49, by decide⟩) sv (fun t => t.svc == [⟨none, 1, 15, 2, 0, 0, 2, some 0⟩] && t.txState 0 == 2) = true := by
  refine ⟨by decide +kernel, by decide +kernel⟩
/-- Column 5 is to be substituted by column 10, layby B; tile 160 holds a word of its line buffer. -/
def su : State := { (rg [(0x8, 0xA10), (0x100, 0x80000000), (0xB00114, 0xF8E00000), (0xB00128, 0xF8E00000), (0xB00200, 0xA0000000), (0xB00204, 0xA0000000), (0xB00208, 0xA0000000), (0xB0020C, 0xA0000000), (0xB00210, 0xA0000000), (0xB00214, 0xA0000000), (0xB00218, 0xA0000000), (0xB0021C, 0xA0000000), (0xB00220, 0xA0000000), (0xB00224, 0xA0000000), (0xB00228, 0xA0000000), (0xB0022C, 0xA0000000), (0xB00230, 0xA0000000), (0xB00234, 0xA0000000), (0xB00238, 0xA0000000), (0xE00114, 0x80000005)] /- D0, DEV_LAYBY_LAYBY_B=10; RAS_SUBST_COL(1)=5; RAS_SUBST_EN(1)=1; PWR_COL_STATE(5)=0; PWR_COL_STATE(10)=0 -/) with
  tiles := [(160, { tile0 with lb := [(8191, ⟨7, false⟩)] })] }
theorem test_subst_switch : (su.colQuiet 5 = true ∧ su.laybyCol 1 = 10 ∧ su.substCopied.testBit 1 = false ∧ ∀ r < 32, su.tState (320 + r) ≠ tRetired) := by decide +kernel
theorem test_subst_end : got (.substCopyComplete 0 1) { su with substCopied := 2 } (fun t => t.flag F.RAS_SUBST_ACTIVE 1 && !t.substCopied.testBit 1) = true := by decide +kernel

/-! ## Power -/

theorem test_toll : got (.tollRefill 0) { (up [(0xB00020, 0x3220000)] [] /- PWR_TOLL_LEVEL=2 -/) with tollHigh := [.colOn 5] } (fun t => t.fld F.PWR_TOLL_LEVEL == 3 && t.tollHigh == [.colOn 5]) = true ∧
    got (.tollRefill 0) { (rg [(0x100, 0x80000000), (0xB00020, 0x3210000), (0xB00200, 0xA0000000), (0xB00204, 0xA0000000), (0xB00208, 0xA0000000), (0xB0020C, 0xA0000000), (0xB00210, 0xA0000000), (0xB00214, 0xA0000000), (0xB00218, 0xA0000000), (0xB0021C, 0xA0000000), (0xB00220, 0xA0000000), (0xB00228, 0xA0000000), (0xB0022C, 0xA0000000), (0xB00230, 0xA0000000), (0xB00234, 0xA0000000), (0xB00238, 0xA0000000)] /- D0, PWR_TOLL_LEVEL=1; PWR_DOM_STATE(9)=0 -/) with tollNorm := [.dom 9] } (fun t => t.fld F.PWR_TOLL_LEVEL == 0 && t.tollNorm == [] && t.fld F.PWR_DOM_STATE 9 == 3) = true := by
  refine ⟨by decide +kernel, by decide +kernel⟩
/-- Column 33 in RUN at point 1, its clock locked, at emergency, with point 7 requested. -/
def pc : State := (up [(0xB00184, 0xF8300000)] [(0xC00184, 0x82580000)] /- PWR_COL_STATE(33)=0; PWR_COL_CUR_OP(33)=1; PWR_COL_EMERG(33)=1; CLK_COL_LOCK(33)=1; CLK_COL_MHZ(33)=600 -/)
theorem test_step_down : 0 < pc.fld F.PWR_COL_CUR_OP 33 ∧
    got (.thermalStepDown 0 33) pc (fun t => t.fld F.PWR_COL_STATE 33 == 2 && t.fld F.CLK_COL_MHZ 33 == 400 && t.flag F.PWR_THROT_THERM && (t.col 33).trimTo == some 0) = true := by decide +kernel
theorem test_step_up : (pc.fld F.PWR_COL_CUR_OP 33 < pc.fld F.PWR_COL_REQ_OP 33 ∧ 0 < pc.fld F.PWR_TOLL_LEVEL) ∧
    got (.thermalStepUp 0 33) pc (fun t => t.fld F.PWR_TOLL_LEVEL == 7 && t.fld F.PWR_COL_STATE 33 == 2 && (t.col 33).trimTo == some 2) = true := by decide +kernel
theorem test_trim : got (.trimComplete 0 33) { (up [(0xB00184, 0xD0380000)] [] /- PWR_COL_STATE(33)=2; PWR_COL_CUR_OP(33)=1; PWR_COL_EMERG(33)=1; PWR_COL_REQ_OP(33)=2 -/) with cols := [(33, { col0 with trimTo := some 2 })] } (fun t =>
    t.fld F.PWR_COL_STATE 33 == 0 && t.fld F.PWR_COL_CUR_OP 33 == 2 && !t.flag F.PWR_COL_EMERG 33 && t.fld F.CLK_COL_MHZ 33 == 800) = true := by decide +kernel
theorem test_column_ready : got (.domainReady 0 ⟨48, by decide⟩ true true) { (up [(0xB00184, 0x18E40000)] [] /- PWR_COL_STATE(33)=1; PWR_COL_REQ(33)=0; PWR_COL_REQ_OP(33)=3 -/) with cols := [(33, { col0 with starting := true })] } (fun t =>
    t.fld F.PWR_COL_STATE 33 == 0 && t.fld F.PWR_COL_CUR_OP 33 == 3 && t.fld F.CLK_COL_MHZ 33 == 1000) = true := by decide +kernel
theorem test_column_off : got (.domainSwitchedOff 0 ⟨48, by decide⟩) { pc with cols := [(33, { col0 with leaving := some 3 })] } (fun t =>
    t.fld F.PWR_COL_STATE 33 == 3 && t.fld F.CLK_COL_MHZ 33 == 0 && (t.col 33) == col0) = true := by decide +kernel
theorem test_overcurrent : got (.overcurrent 0) pc (fun t => t.flag F.PWR_COL_HALVED 33 && t.fld F.CLK_COL_MHZ 33 == 300 && t.fld F.PWR_THROT_HALVINGS == 1) = true ∧
    got (.halvingEnd 0 true) (up [(0xB00184, 0xF8310000)] [(0xC00184, 0x812C0000)] /- PWR_COL_STATE(33)=0; PWR_COL_CUR_OP(33)=1; PWR_COL_EMERG(33)=1; PWR_COL_HALVED(33)=1; CLK_COL_LOCK(33)=1; CLK_COL_MHZ(33)=300 -/) (fun t => t.flag F.PWR_COL_HALVED 33 && t.fld F.PWR_THROT_HALVINGS == 1) = true ∧
    got (.halvingEnd 0 false) (up [(0xB00184, 0xF8310000)] [(0xC00184, 0x812C0000)] /- PWR_COL_STATE(33)=0; PWR_COL_CUR_OP(33)=1; PWR_COL_EMERG(33)=1; PWR_COL_HALVED(33)=1; CLK_COL_LOCK(33)=1; CLK_COL_MHZ(33)=300 -/) (fun t => !t.flag F.PWR_COL_HALVED 33 && t.fld F.CLK_COL_MHZ 33 == 600) = true := by
  refine ⟨by decide +kernel, by decide +kernel, by decide +kernel⟩
theorem test_cap : got (.currentAboveCap 0) pc (fun t => t.flag F.PWR_THROT_CAP && t.out == [.report (.note 1 250)]) = true := by decide +kernel

theorem test_entry_meets : (pc.fld F.PWR_STAT_DSTATE = 0 ∧ pc.seq.entry = none ∧ pc.domOn 1 = true ∧ pc.domOn 2 = true ∧ pc.fld F.PWR_COL_STATE 33 ≠ 3 ∧
      pc.access (regAddr .PWR_DSTATE) 4 = .ok (hitOf .PWR_DSTATE 0 0)) ∧
    got (.pwrDstateWrite 0 .hostA 0x80000001) pc (fun t => t.seq.entry == none && t.fld F.RAS_AEL2_KIND 0 == 11) = true ∧
    got (.pwrDstateWrite 0 .mc 0x80000001) (pc.setFld F.PWR_STAT_BUSY 1 |> fun s => { s with seq := { s.seq with wake := some 1 } }) (fun t => t.seq.entry == none && t.fld F.RAS_AEL2_KIND 0 == 9) = true := by
  refine ⟨by decide +kernel, by decide +kernel, by decide +kernel⟩
/-- D1, every rail off but the AON rails, the sources of a wake enabled; no AON time passed. -/
def d1 : State := (rg [(0x100, 0x80000000), (0xB00000, 0x40000000), (0xB00008, 0xF000003A), (0xB00024, 0x60)] /- PWR_STAT_DSTATE=1; PWR_RAIL_GOOD=0x60; PWR_WAKE_CFG_TIMER_EN=1; DEV_START_STAGE=8 -/)
theorem test_wake : (d1.seq.entry = none ∧ d1.seq.wake = none ∧ (d1.tick 0).wakeOk = true ∧ d1.fld F.PWR_WAKE_TIME_TIME ≤ (d1.aonNs + 0) / 1000) ∧
    (d1.flag F.PWR_WAKE_CFG_I3C_EN = true ∧ d1.flag F.PWR_WAKE_CFG_WAKEPIN_EN = true ∧ d1.flag F.PWR_WAKE_CFG_PERST_EN = true) ∧
    got (.wakeNLow 0) d1 (fun t => t.fld F.PWR_WAKE_STAT_SOURCE == 2 && t.flag F.PWR_STAT_BUSY && t.seq.wake == some 1 && t.railsOffN) = true ∧
    got (.aonTimerMatch 0) { d1 with seq := { d1.seq with entry := some 1, latched := some 5 } } (fun t => t.seq.latched == some 4) = true ∧
    got (.mcWakeRequest 0) { (d1.setFld F.PWR_WAKE_STAT_SOURCE 2) with seq := { d1.seq with wake := some 1 } } (fun t => t.fld F.PWR_WAKE_STAT_SOURCE == 2) = true := by
  refine ⟨by decide +kernel, by decide +kernel, by decide +kernel, by decide +kernel, by decide +kernel⟩
theorem test_config_request : got (.pcieConfigRequest 0) { (up [] []) with pcieWakeN := false } (fun t => t.pcieWakeN) = true := by decide +kernel
theorem test_domain_ready : got (.domainReady 0 9 false true) (rg [(0x100, 0x80000000), (0xB00200, 0xA0000000), (0xB00204, 0xA0000000), (0xB00208, 0xA0000000), (0xB0020C, 0xA0000000), (0xB00210, 0xA0000000), (0xB00214, 0xA0000000), (0xB00218, 0xA0000000), (0xB0021C, 0xA0000000), (0xB00220, 0xA0000000), (0xB00224, 0xE0000000), (0xB00228, 0xA0000000), (0xB0022C, 0xA0000000), (0xB00230, 0xA0000000), (0xB00234, 0xA0000000), (0xB00238, 0xA0000000)] /- D0, PWR_DOM_STATE(9)=3 -/) (fun t => t.fld F.PWR_DOM_STATE 9 == 1 && bitsOf (t.fld F.CLK_STAT_LOCK) 6 1 == 1) = true := by decide +kernel
/-- An entry to D3: everything is off but the MC domain. -/
def ent : State := { (rg [(0x100, 0x80000000), (0xB00000, 0x20000000), (0xB00204, 0xA0000000)] /- DEV_START_STAGE=8; PWR_DOM_STATE(1)=1; PWR_STAT_BUSY=1 -/) with seq := { State.reset.seq with entry := some 3 } }
theorem test_entry_ends : ((∀ k ∈ offAll, k ≠ 1 → ent.offDone 3 k = true) ∧ ent.fld F.PWR_DOM_STATE 1 ≠ 0 ∧ ent.seq.latched = none ∧ ent.seq.hbmLost = false) ∧
    got (.domainSwitchedOff 0 1) ent (fun t => t.fld F.PWR_STAT_DSTATE == 3 && !t.flag F.PWR_STAT_BUSY && t.fld F.PWR_DOM_STATE 1 == 0 && !t.railsOffN) = true := by
  refine ⟨by decide +kernel, by decide +kernel⟩
theorem test_rails : got (.railGood 0 7) { d1 with seq := { d1.seq with bad := [(7, none)] } } (fun t => t.fld F.PWR_RAIL_GOOD == 0xE0 && t.seq.bad == [(7, some 0)]) = true ∧
    got (.railExcursion 0 6) d1 (fun t => t.fld F.PWR_RAIL_GOOD == 0x20 && t.fld F.PWR_RAIL_FAILED == 0 && t.log.length == 1) = true ∧
    got (.railFailure 0 7) (up [(0xB00024, 0xFF)] [] /- PWR_RAIL_GOOD=255 -/) (fun t => t.fld F.PWR_RAIL_GOOD == 127 && t.fld F.PWR_RAIL_FAILED == 128 && t.out == [.report (.note 2 7)]) = true ∧
    got (.railFailure 0 5) (up [(0xB00024, 0xFF)] [] /- PWR_RAIL_GOOD=255 -/) (fun t => t.regs == State.reset.regs && t.log == []) = true := by
  refine ⟨by decide +kernel, by decide +kernel, by decide +kernel, by decide +kernel⟩
/-- A wake from D1 waits for its rails. -/
def wr (b0 : Bool) : State := { (if b0 then (rg [(0x100, 0x80000000), (0xB00000, 0x60000000), (0xB00024, 0x7F)] /- PWR_STAT_DSTATE=1; PWR_RAIL_GOOD=0x7F; DEV_START_STAGE=8; PWR_STAT_BUSY=1 -/)
  else (rg [(0x100, 0x80000000), (0xB00000, 0x60000000), (0xB00024, 0x7E)] /- PWR_STAT_DSTATE=1; PWR_RAIL_GOOD=0x7E; DEV_START_STAGE=8; PWR_STAT_BUSY=1 -/)) with seq := { State.reset.seq with wake := some 1, rails := true } }
theorem test_rail_timeout : (bitsOf ((wr false).fld F.PWR_RAIL_GOOD) 0 1 = 0 ∧ (wr false).seq.on = [] ∧ (∀ d < 15, (wr false).fld F.PWR_DOM_STATE d ≠ 3) ∧
      ∀ c < 34, (wr false).fld F.PWR_COL_STATE c = 3 ∧ ((wr false).col c).starting = false) ∧
    got (.wakeRailTimeout 0) (wr false) (fun t => t.flag F.PWR_STAT_WAKE_FAIL && !t.flag F.PWR_STAT_BUSY && t.fld F.PWR_STAT_DSTATE == 1 && t.seq.wake == none) = true ∧
    got (.wakeRailTimeout 0) (wr true) (fun t => !t.flag F.PWR_STAT_WAKE_FAIL && !t.seq.rails && t.seq.wake == some 1) = true := by
  refine ⟨by decide +kernel, by decide +kernel, by decide +kernel⟩

/-! ## Clocks and the management controller -/

theorem test_refclk : got (.refclkLoss 0) (up [] [(0xC00004, 0xFFFF0000)] /- CLK_REF_CNT_LOSSES=65535 -/) (fun t => t.fld F.CLK_STAT_REF == 1 && t.flag F.CLK_STAT_REF_LOST && t.fld F.CLK_REF_CNT_LOSSES == 65535) = true ∧
    got (.refclkGlitch 0) (up [] [(0xC00004, 0x7)] /- CLK_REF_CNT_GLITCHES=7 -/) (fun t => t.fld F.CLK_REF_CNT_GLITCHES == 8) = true ∧
    got (.refclkHoldoverTimeout 0) (up [] [(0xC00000, 0x40000000)] /- CLK_STAT_REF=1 -/) (fun t => t.fld F.CLK_STAT_REF == 2) = true ∧
    got (.refclkRelock 0) (up [] [(0xC00000, 0x40000000)] /- CLK_STAT_REF=1 -/) (fun t => t.fld F.CLK_STAT_REF == 0 && !t.flag F.CLK_STAT_RETURNED) = true ∧
    got (.refclkReturn 0) (up [] [(0xC00000, 0x80000000)] /- CLK_STAT_REF=2 -/) (fun t => t.fld F.CLK_STAT_REF == 0 && t.flag F.CLK_STAT_RETURNED) = true := by
  refine ⟨by decide +kernel, by decide +kernel, by decide +kernel, by decide +kernel, by decide +kernel⟩
theorem test_clk_mc_meets : (up [] []).access (regAddr .CLK_MC) 4 = .ok (hitOf .CLK_MC 0 0) ∧ (∀ e ∈ (up [] []).cal, e.2.skip = false) ∧
    got (.clkMcWrite 0 .mc 1) (up [] [(0xC00000, 0x400)] /- CLK_STAT_LOCK=4; CLK_MC_SEL=0 -/) (fun t => t.fld F.CLK_MC_SEL == 1) = true ∧
    got (.clkMcWrite 0 .mc 1) (up [] [] /- CLK_STAT_LOCK=0; CLK_MC_SEL=0 -/) (fun t => t.fld F.CLK_MC_SEL == 0 && t.fld F.RAS_AEL2_KIND 0 == 9) = true ∧
    got (.clkMcWrite 0 .hostA 1) (up [] [] /- CLK_MC_SEL=0 -/) (fun t => t.fld F.CLK_MC_SEL == 0 && t.fld F.RAS_AEL2_KIND 0 == 11) = true := by
  refine ⟨by decide +kernel, by decide +kernel, by decide +kernel, by decide +kernel, by decide +kernel⟩

/-- Pair 0 is ACTIVE, pair 1 is STANDBY. -/
def pf : State := (up [] [(0x2000000, 0x800FFFF)] /- MC_STAT_P1_STATE=1; MC_STAT_FAILOVERS=65535 -/)
theorem test_fault_meets : (pf.domOn 1 = true ∧ pf.csmQuiet = true ∧ pf.switch = none ∧ pf.mcRun = [] ∧ (∀ x < 64, pf.txState x ≠ 2) ∧
      pf.fld F.DEV_START_STAGE ≠ 2) ∧ pf.fld F.MC_STAT_ACTIVE = 0 ∧ pf.fld F.MC_STAT_P0_STATE = 0 ∧ pf.fld F.MC_STAT_P1_STATE = 1 := by
  refine ⟨⟨by decide +kernel, by decide +kernel, rfl, rfl, by decide +kernel, by decide +kernel⟩, by decide +kernel⟩
theorem test_failover : got (.pairFault 0 0 2) pf (fun t => t.fld F.MC_STAT_ACTIVE == 1 && t.fld F.MC_STAT_P1_STATE == 0 && t.fld F.MC_STAT_P0_STATE == 2 &&
      t.fld F.MC_STAT_FAILOVERS == 65535 && t.log.map (·.args) == [[0, 3, 0, 0]]) = true ∧
    got (.pairFault 86399999999999 0 2) { pf with pairFault := [(0, some 0)] } (fun t => t.fld F.MC_STAT_P0_STATE == 3) = true ∧
    got (.pairFault 86400000000000 0 2) { pf with pairFault := [(0, some 0)] } (fun t => t.fld F.MC_STAT_P0_STATE == 2) = true ∧
    got (.pairFault 0 1 0) pf (fun t => t.fld F.MC_STAT_ACTIVE == 0 && t.fld F.MC_STAT_P1_STATE == 2) = true := by
  refine ⟨by decide +kernel, by decide +kernel, by decide +kernel, by decide +kernel⟩
/-- Pair 1 is being restored, in its third try. -/
def pv : State := { (rg [(0x100, 0x80040000), (0xB00200, 0xA0000000), (0xB00204, 0xA0000000), (0xB00208, 0xA0000000), (0xB0020C, 0xA0000000), (0xB00210, 0xA0000000), (0xB00214, 0xA0000000), (0xB00218, 0xA0000000), (0xB0021C, 0xA0000000), (0xB00220, 0xA0000000), (0xB00224, 0xA0000000), (0xB00228, 0xA0000000), (0xB0022C, 0xA0000000), (0xB00230, 0xA0000000), (0xB00234, 0xA0000000), (0xB00238, 0xA0000000)] /- D0, MC_STAT_P1_STATE=2; DEV_START_PAIR1_DOWN=1 -/) with pairTry := [(1, 2)] }
theorem test_restore : (pv.domOn 1 = true ∧ pv.fld F.MC_STAT_P1_STATE = 2 ∧ pv.switch = none) ∧
    got (.pairRestore 0 1 0) pv (fun t => t.fld F.MC_STAT_P1_STATE == 1 && !t.flag F.DEV_START_PAIR1_DOWN) = true ∧
    got (.pairRestore 0 1 1) pv (fun t => t.fld F.MC_STAT_P1_STATE == 3 && t.flag F.DEV_START_PAIR1_DOWN) = true := by
  refine ⟨by decide +kernel, by decide +kernel, by decide +kernel⟩
theorem test_standby : got (.standbyCheck 0 false) pf (fun t => t.out == [.report (.note 5 1)]) = true ∧
    got (.standbyCheck 0 true) pf (fun t => t.out == []) = true := by refine ⟨by decide +kernel, by decide +kernel⟩
/-- Channel 7 may read at most 10 mA, and has a resistor of 100 mA a V. -/
def bs (k : Nat) : State := { (up [] []) with policy := [(0x27, some 100), (0x2F, some 10)], bsOver := [(7, k)], cal := [(calKey 5 1144, { cal0 with sa := (List.range 8).map fun j => (j, some 0) })] }
theorem test_bsense : got (.bsenseAverage 0 7 1300) (bs 9) (fun t => t.fld F.MC_BSENSE_MV 7 == 1200 && t.fld F.MC_BSENSE_MA 7 == 120 &&
      t.flag F.MC_BSENSE_OVER 7 && t.log.map (·.args) == [[7, 120, 0, 0]]) = true ∧
    got (.bsenseAverage 0 7 101) (bs 8) (fun t => t.fld F.MC_BSENSE_MA 7 == 10 && mapGet 0 t.bsOver 7 == 0) = true ∧
    got (.bsenseAverage 0 7 110) (bs 8) (fun t => t.fld F.MC_BSENSE_MA 7 == 11 && !t.flag F.MC_BSENSE_OVER 7 && mapGet 0 t.bsOver 7 == 9) = true := by
  refine ⟨by decide +kernel, by decide +kernel, by decide +kernel⟩
/-- One entry of the log that no mirror holds. -/
def unmirrored : State := { (up [] []) with log := [⟨5, 9, 0, false, 1, 0xE006, [0, 0, 0, 0], false⟩] }
theorem test_mirror : (unmirrored.mcUp = true ∧ unmirrored.logLost = 0) ∧ got (.logMirror 0) unmirrored (fun t => t.mirror.map (·.index) == [5] && t.log.all (·.mirrored)) = true := by
  refine ⟨by decide +kernel, by decide +kernel⟩
/-- An image of security version 3 with COMMIT_FLOOR has run since time 0. -/
def floored : State := { (up [] []) with running := { State.reset.running with svn := 3, commitFloor := true } }
theorem test_floor : (floored.running.commitFloor = true ∧ floored.runFrom = 0) ∧
    got (.fwFloorCommit 86400000000000) floored (fun t => t.fuses.fwFloor == 3 && t.fuseBox.fwFloor == 3) = true ∧
    got (.fwFloorCommit 86399999999999) floored (fun t => t.fuseBox.fwFloor == 0) = true := by
  refine ⟨by decide +kernel, by decide +kernel, by decide +kernel⟩
theorem test_scope : got (.debugScopeExpire 60000000000) (up [] [(0x2001000, 0x1002000)] /- SEC_STAT_DBG_SCOPE=4; SEC_STAT_DBG_MIN_LEFT=1 -/) (fun t => t.fld F.SEC_STAT_DBG_SCOPE == 0 &&
      t.fld F.SEC_STAT_DBG_MIN_LEFT == 0) = true ∧
    got (.debugScopeExpire 59999999999) (up [] [(0x2001000, 0x1002000)] /- SEC_STAT_DBG_SCOPE=4; SEC_STAT_DBG_MIN_LEFT=1 -/) (fun t => t.fld F.SEC_STAT_DBG_SCOPE == 4) = true := by
  refine ⟨by decide +kernel, by decide +kernel⟩
/-- Start-up waits for the slew probe. -/
def sl : State := { (up [] []) with boot := { State.reset.boot with restored := true } }
theorem test_slew : (sl.boot.restored = true ∧ sl.boot.d3 = false ∧ sl.boot.slew = none ∧ sl.pol 0x0A ≤ 1000) ∧
    got (.slewProbeEnd 0 (some ⟨35, by decide⟩)) sl (fun t => t.boot.slew == some 11 && t.flag F.DEV_BOOT_SLEW_VALID && t.fld F.DEV_BOOT_SLEW_T_REC_US == 35) = true := by
  refine ⟨by decide +kernel, by decide +kernel⟩

/-! ## Start-up and PCIe -/

theorem test_power_up : (State.reset.fld F.DEV_START_STAGE = 0 ∧ State.reset.fld F.PWR_STAT_DSTATE = 0 ∧ State.reset.flag F.PWR_STAT_BUSY = false) ∧
    got (.aonPowerUp 5 0) State.reset (fun t => t.fld F.DEV_START_STAGE == 1 && t.flag F.PWR_STAT_BUSY && t.aonNs == 0 && t.fld F.PWR_RAIL_GOOD == 0x60) = true := by
  refine ⟨by decide +kernel, by decide +kernel⟩
theorem test_sys_reset : got (.sysReset 5 1023) { (up [(0x101FD0, 0x80000000), (0xB00024, 0xFF)] [] /- PWR_RAIL_GOOD=255; CMD_Q_CFG_EN(63)=1 -/) with pending := [.nop 0 (hd 0x100) []] } (fun t => t.fld F.DEV_START_STAGE == 2 &&
      !t.flag F.CMD_Q_CFG_EN 63 && t.fuses.wakeAddr == 0x3A && t.fld F.DEV_FUSE_UNREAD == 1023 && t.fld F.DEV_LAYBY_LAYBY_B == 17 && t.pending.length == 1) = true := by
  decide +kernel
/-- Stage 2, with the MC domain on and both slots empty. -/
def bt : State := (rg [(0x100, 0x20000000), (0xB00204, 0xA0000000)] /- DEV_START_STAGE=2; PWR_DOM_STATE(1)=1 -/)
theorem bad_slot {s : State} {k : Nat} (h : numAt (s.slotBytes k) 0 4 ≠ 0x5A494D47) : ∃ c, s.slotCheck k = .error c := by
  unfold State.slotCheck imageCheck
  rw [if_neg (fun x => h x.1)]
  exact ⟨_, rfl⟩
theorem empty_slots : (∃ c, bt.slotCheck 0 = .error c) ∧ ∃ c, bt.slotCheck 1 = .error c :=
  ⟨bad_slot (by decide +kernel), bad_slot (by decide +kernel)⟩
theorem test_boot_meets : bt.fld F.DEV_START_STAGE = 2 ∧ bt.domOn 1 = true ∧ bt.csmQuiet = true ∧ (∀ e ∈ bt.repair, e.kind = 2 → e.a < 1088) := by
  decide +kernel

/-- The same with the image of zeros in slot 1, and slot `k` active. -/
def bi (k : Nat) : State := { bt with fuses := img.fuses, fwSlots := img.fwSlots, activeSlot := k }
theorem slot_bytes : img.slotBytes 1 = imgB := by decide +kernel
theorem slot_image {s : State} (h : s.fwSlots = img.fwSlots) (hf : s.fuses = img.fuses)
    (he : Config.ecdsa (slice imgB 80 96) ((imgB.take 512).take 416) (slice (imgB.take 512) 416 96) = true)
    (hh : Config.sha384 [] = List.replicate 48 0) : s.slotCheck 1 = .ok ⟨0, 0, false, 0, 0, 0⟩ := by
  have e : s.slotBytes 1 = imgB := by
    rw [← slot_bytes, State.slotBytes, State.slotBytes, State.fwSlot, State.fwSlot, h]
  rw [State.slotCheck, e, hf]
  exact (test_image_meets he hh).2
theorem test_boot_image (he : Config.ecdsa (slice imgB 80 96) ((imgB.take 512).take 416) (slice (imgB.take 512) 416 96) = true)
    (hh : Config.sha384 [] = List.replicate 48 0) :
    ((bi 1).activeSlot % 2 = 1 ∧ (bi 0).activeSlot % 2 = 0) ∧ (bi 1).slotCheck 1 = .ok ⟨0, 0, false, 0, 0, 0⟩ ∧
    (bi 0).slotCheck 1 = .ok ⟨0, 0, false, 0, 0, 0⟩ ∧ ∃ c, (bi 0).slotCheck 0 = .error c :=
  ⟨⟨rfl, rfl⟩, slot_image rfl rfl he hh, slot_image rfl rfl he hh, bad_slot (by decide +kernel)⟩

/-- Stack 3 has trained but for its last pseudo-channel, which failed `k` times. -/
def hb (k : Nat) : State := { (rg [(0x100, 0x60000000), (0xB00224, 0xA0000000)] /- DEV_START_STAGE=6; PWR_DOM_STATE(9)=1 -/) with
  boot := { State.reset.boot with restored := true, fails := [(127, k)] }, hbm := [(103079215104, 7)] }
theorem test_hbm_training : ((hb 2).fld F.DEV_START_STAGE = 6 ∧ (hb 2).domOn 9 = true ∧ (hb 2).boot.restored = true ∧ 3 ∉ (hb 2).boot.ready ∧
      (hb 2).hbmCalDone 3 = true ∧ (hb 2).svc = []) ∧
    got (.hbmTrainingComplete 0 3 none) (hb 0) (fun t => t.boot.ready == [3]) = true ∧
    got (.hbmTrainingComplete 0 3 (some 31)) (hb 1) (fun t => mapGet 0 t.boot.fails 127 == 2 && t.fld F.STR_OCTET_RETIRED 3 == 0) = true ∧
    got (.hbmTrainingComplete 0 3 (some 31)) (hb 2) (fun t => t.flag F.DEV_START_HBM_DEGRADED && t.fld F.STR_OCTET_RETIRED 3 == 8) = true := by
  refine ⟨by decide +kernel, by decide +kernel, by decide +kernel, by decide +kernel⟩

/-- Queue 63 holds the reply of one of its two commands. -/
def pq : State := { (up [(0x101FD0, 0x80000000), (0x101FDC, 0x2000), (0x1033D8, 0x80000000)] [] /- CMD_Q_CFG_EN(63)=1; CMD_Q_STAT_IDLE(63)=0; CMD_Q_STAT_OUTST(63)=2; CMD_EGR_STAT_EN(15)=1 -/) with
  queues := [(63, ⟨0, true, 0, [⟨⟨.queue 63, 0x100, 0, 17, 1001, 1⟩, 0, true, []⟩], [], false⟩)] }
theorem test_perst : (pq.fld F.PWR_STAT_DSTATE = 0 ∧ pq.fld F.CMD_Q_STAT_OUTST 63 ≠ 0 ∧ pq.fld F.CMD_Q_STAT_OUTST 0 = 0) ∧
    got (.perstAssert 0) pq (fun t => !t.flag F.CMD_Q_CFG_EN 63 && !t.flag F.CMD_EGR_STAT_EN 15 && (t.queue 63).held == [] && (t.queue 63).dead &&
      t.fld F.CMD_Q_STAT_OUTST 63 == 1) = true := by
  refine ⟨by decide +kernel, by decide +kernel⟩
theorem test_lost_dma : (up [(0x603F28, 0x40000000)] [] /- DMA_STAT_STATE(63)=2 -/).dmaSt 63 = 2 ∧
    got (.pcieCompletionTimeout 0 (.dma 63)) (up [(0x603F28, 0x40000000)] [] /- DMA_STAT_STATE(63)=2 -/) (fun t => t.dmaSt 63 == 4 && t.fld F.DMA_STAT_ERR 63 == 3) = true := by
  refine ⟨by decide +kernel, by decide +kernel⟩
/-- Queue 63 has one command to fetch. -/
def qf : State := (up [(0x101FD0, 0x84040000), (0x101FD4, 0x1)] [] /- CMD_Q_CFG_EN(63)=1; CMD_Q_CFG_SQ_LOG2(63)=4; CMD_Q_CFG_CQ_LOG2(63)=4; CMD_SQ_TAIL_TAIL(63)=1 -/)
theorem test_lost_fetch : qf.fetchMay 63 ≠ 0 ∧
    got (.pcieCompletionTimeout 0 (.fetch 63)) qf (fun t => t.flag F.CMD_Q_STAT_FETCH_ERR 63) = true := by
  refine ⟨by decide +kernel, by decide +kernel⟩
theorem test_lost_buffer : (up [] []).takes (.pwrPolicy 0 (hd 0x502) (pr []) .error) = true ∧
    got (.pcieCompletionTimeout 0 (.buffer (hd 0x502) (pr []))) (up [] []) (fun t => t.out == [.mcReply ⟨hd 0x502, 0x0307, true, []⟩]) = true := by
  refine ⟨by decide +kernel, by decide +kernel⟩

end Sys2Proof.Tests
end

section
/-! The order of the commands: a step executes the command at the front of the queue (R5, R357). -/
namespace Sys2Proof.Machine

/-- With a command at the front of the queue, a step is that command's execution on the rest. -/
theorem step_cons (c : Instr) (rest : List Instr) (s : State) :
    step { s with pending := c :: rest } = exec c { s with pending := rest } := rfl

/-- Settles O1: the queue's front command is executed by definition of a step. -/
theorem stepRunsFrontCommand : Obligations.StepRunsFrontCommand := step_cons

end Sys2Proof.Machine
end

section
/-! The field tables: the fields of a register lie in its 64 bits and do not overlap, so what is done to a register field by field
can be read off field by field. -/
namespace Sys2Proof.Machine

/-- No bit belongs to both fields. -/
abbrev FieldRow.apart (f g : FieldRow) : Prop := g.lo + g.w ≤ f.lo ∨ f.lo + f.w ≤ g.lo

/-- The fields of a register lie in 64 bits and share none. -/
def RegRow.fieldsFit (r : RegRow) : Bool :=
  decide (r.fields.Pairwise FieldRow.apart) && r.fields.all fun f => decide (f.lo + f.w ≤ 64)

theorem table_fieldsFit : (regList.all fun r => (regRow r).fieldsFit) = true := by decide +kernel

theorem regRow_fieldsFit (g : Reg) : (regRow g).fieldsFit = true := List.all_eq_true.1 table_fieldsFit g (map_complete g)

theorem regRow_fields_apart (g : Reg) : (regRow g).fields.Pairwise FieldRow.apart := by
  have h := regRow_fieldsFit g
  rw [RegRow.fieldsFit, Bool.and_eq_true] at h
  exact of_decide_eq_true h.1

theorem regRow_field_le (g : Reg) {f : FieldRow} (hf : f ∈ (regRow g).fields) : f.lo + f.w ≤ 64 := by
  have h := regRow_fieldsFit g
  rw [RegRow.fieldsFit, Bool.and_eq_true] at h
  exact of_decide_eq_true (List.all_eq_true.1 h.2 f hf)

/-- Bits below `2 ^ k` are those of the number cut to `k` bits. -/
theorem bitsOf_mod_two_pow (n lo w k : Nat) (h : lo + w ≤ k) : bitsOf (n % 2 ^ k) lo w = bitsOf n lo w := by
  refine Nat.eq_of_testBit_eq fun b => ?_
  simp only [testBit_bitsOf, Nat.testBit_mod_two_pow]
  by_cases hb : b < w
  · have : lo + b < k := by omega
    simp [this]
  · simp [hb]

/-- `u` changes the bits of field `f` as `val` says, and no bit of another field. -/
structure UpdatesField (f : FieldRow) (u val : Nat → Nat) : Prop where
  own : ∀ n, bitsOf (u n) f.lo f.w = val (bitsOf n f.lo f.w)
  other : ∀ n g, FieldRow.apart f g → bitsOf (u n) g.lo g.w = bitsOf n g.lo g.w

theorem updatesField_id (f : FieldRow) : UpdatesField f (fun n => n) (fun x => x) := ⟨fun _ => rfl, fun _ _ _ => rfl⟩

theorem updatesField_put (f : FieldRow) (val : Nat → Nat) (hv : ∀ x < 2 ^ f.w, val x < 2 ^ f.w) :
    UpdatesField f (fun n => putBits n f.lo f.w (val (bitsOf n f.lo f.w))) val where
  own n := by rw [bitsOf_putBits_same, Nat.mod_eq_of_lt (hv _ (bitsOf_lt _ _ _))]
  other n g h := bitsOf_putBits_ne _ _ _ _ _ _ h

/-- Updates of fields that lie apart, one after the other, leave each field as its own update does. -/
theorem bitsOf_foldl_fields {u : Nat → FieldRow → Nat} {val : FieldRow → Nat → Nat} (fs : List FieldRow)
    (ha : fs.Pairwise FieldRow.apart) (hu : ∀ f ∈ fs, UpdatesField f (fun n => u n f) (val f)) :
    (∀ n, ∀ f ∈ fs, bitsOf (fs.foldl u n) f.lo f.w = val f (bitsOf n f.lo f.w)) ∧
    (∀ n g, (∀ f ∈ fs, FieldRow.apart f g) → bitsOf (fs.foldl u n) g.lo g.w = bitsOf n g.lo g.w) := by
  induction fs with
  | nil => exact ⟨fun _ f hf => absurd hf List.not_mem_nil, fun _ _ _ => rfl⟩
  | cons e fs ih =>
    obtain ⟨he, ha⟩ := List.pairwise_cons.1 ha
    obtain ⟨hue, hu⟩ := List.forall_mem_cons.1 hu
    obtain ⟨ih_in, ih_out⟩ := ih ha hu
    constructor
    · intro n f hf
      rw [List.foldl_cons]
      obtain rfl | hf := List.mem_cons.1 hf
      · rw [ih_out _ f fun g hg => (he g hg).symm, hue.own]
      · rw [ih_in _ f hf, hue.other n f (he f hf)]
    · intro n g hg
      obtain ⟨hge, hg⟩ := List.forall_mem_cons.1 hg
      rw [List.foldl_cons, ih_out _ g hg, hue.other n g hge]

/-- A register stored by updates of its fields holds each field as that field's update leaves it. -/
theorem bitsOf_reg_setReg_foldl (s : State) (g : Reg) (i j n : Nat) {u : Nat → FieldRow → Nat} {val : FieldRow → Nat → Nat}
    (hu : ∀ f ∈ (regRow g).fields, UpdatesField f (fun n => u n f) (val f)) {f : FieldRow} (hf : f ∈ (regRow g).fields) :
    bitsOf ((s.setReg g ((regRow g).fields.foldl u n) i j).reg g i j) f.lo f.w = val f (bitsOf n f.lo f.w) := by
  rw [State.reg_setReg_same, bitsOf_mod_two_pow _ _ _ _ (regRow_field_le g hf)]
  exact (bitsOf_foldl_fields _ (regRow_fields_apart g) hu).1 n f hf

end Sys2Proof.Machine
end

section
/-! After reset (R12): the register store is empty, so that every register reads its Reset column. -/
namespace Sys2Proof.Machine

theorem fieldsReset_lt (k : Nat) (fs : List FieldRow) (h : ∀ f ∈ fs, f.lo + f.w ≤ k) : fieldsReset fs < 2 ^ k := by
  induction fs with
  | nil => exact Nat.two_pow_pos k
  | cons f fs ih =>
    obtain ⟨hf, hfs⟩ := List.forall_mem_cons.1 h
    exact putBits_lt _ _ _ _ _ hf (ih hfs)

theorem calTol_getD_lt (i : Nat) : calTol.getD i 0 < 2 ^ 64 := by
  have h : ∀ x ∈ calTol, x < 2 ^ 64 := by decide
  rw [List.getD_eq_getElem?_getD]
  cases e : calTol[i]? with
  | none => exact Nat.two_pow_pos 64
  | some x => exact h x (List.mem_of_getElem? e)

/-- Every Reset column fits its register. -/
theorem regReset_lt (h : RegHit) : regReset h < 2 ^ 64 := by
  unfold regReset
  split
  · (repeat' split) <;> decide
  · exact calTol_getD_lt _
  · exact fieldsReset_lt _ _ fun f hf => regRow_field_le _ hf

/-- What the address of a register reads as where the register store lists nothing. -/
theorem regDefault_regAddr {g : Reg} {i j : Nat} (hg : regHas g i j) :
    (regDefault (regAddr g i j)).toNat = regReset (hitOf g i j) := by
  rw [regDefault, findReg_regAddr g i j hg.1 hg.2]
  exact Nat.mod_eq_of_lt (regReset_lt _)

theorem reg_of_regs_nil {s : State} (h : s.regs = []) {g : Reg} {i j : Nat} (hg : regHas g i j) :
    s.reg g i j = regReset (hitOf g i j) := by
  rw [State.reg, h, mapGet_nil, regDefault_regAddr hg]

/-- Settles O4: the stores of the reset state are empty, and an unlisted register reads its Reset column. -/
theorem resetHoldsResetColumns : Obligations.ResetHoldsResetColumns :=
  ⟨fun _ _ _ hg => reg_of_regs_nil rfl hg, fun _ => ⟨rfl, rfl⟩, rfl, rfl⟩

end Sys2Proof.Machine
end

section
/-! A read of a 32-bit register (R8): its RC fields are cleared, and nothing else changes. -/
namespace Sys2Proof.Machine

/-- What a read does to a field. -/
theorem updatesField_readClear (f : FieldRow) :
    UpdatesField f (fun n => if f.acc = .rc then putBits n f.lo f.w 0 else n) (fun x => if f.acc = .rc then 0 else x) := by
  by_cases h : f.acc = .rc
  · simpa only [h, if_true] using updatesField_put f (fun _ => 0) fun _ _ => Nat.two_pow_pos _
  · simpa only [h, if_false] using updatesField_id f

/-- A read stores its register with the RC fields cleared, or changes nothing where it has none. -/
theorem readClear_cases (s : State) (g : Reg) (i j : Nat) :
    s.readClear (hitOf g i j) = s.setReg g
      ((regRow g).fields.foldl (fun n f => if f.acc = .rc then putBits n f.lo f.w 0 else n) (s.reg g i j)) i j ∨
    s.readClear (hitOf g i j) = s ∧ ∀ f ∈ (regRow g).fields, f.acc ≠ .rc := by
  by_cases h : ((regRow g).fields.any fun f => f.acc == .rc) = true
  · exact .inl (if_pos h)
  · exact .inr ⟨if_neg h, fun f hf e => h (List.any_eq_true.2 ⟨f, hf, by simp [e]⟩)⟩

theorem bitsOf_readClear (s : State) (g : Reg) (i j : Nat) {f : FieldRow} (hf : f ∈ (regRow g).fields) :
    bitsOf ((s.readClear (hitOf g i j)).reg g i j) f.lo f.w = if f.acc = .rc then 0 else bitsOf (s.reg g i j) f.lo f.w := by
  obtain h | ⟨h, hrc⟩ := readClear_cases s g i j
  · rw [h]
    exact bitsOf_reg_setReg_foldl s g i j (s.reg g i j) (fun f _ => updatesField_readClear f) hf
  · rw [h, if_neg (hrc f hf)]

theorem keeps_readClear (s : State) {g : Reg} {i j : Nat} (hg : regHas g i j) :
    s.keeps (s.readClear (hitOf g i j)) [(g, i, j)] := by
  obtain h | ⟨h, -⟩ := readClear_cases s g i j
  · exact h ▸ keeps_setReg s _ hg
  · exact keeps_of_regs _ (by rw [h])

theorem readClear_frame (s : State) (g : Reg) (i j : Nat) :
    s.readClear (hitOf g i j) = { s with regs := (s.readClear (hitOf g i j)).regs } := by
  obtain h | ⟨h, -⟩ := readClear_cases s g i j
  · rw [h]
    rfl
  · rw [h]

/-- A read of a 32-bit register that reads through no address register returns the live value. -/
theorem wordRead_of_width_32 (s : State) (r : Requester) {g : Reg} (i j : Nat) (hw : (regRow g).width = 32)
    (h1 : g ≠ .REF_TAB_DATA) (h2 : g ≠ .TILE_DBG_DATA) :
    s.wordRead r (hitOf g i j) = (s.readClear (hitOf g i j), s.regView (hitOf g i j) % 2 ^ 32) := by
  have hn : (regRow g).width ≠ 64 := by omega
  unfold State.wordRead
  split
  case h_1 e => exact absurd e h1
  case h_2 e => exact absurd e h2
  case h_3 => exact if_neg hn

/-- A read that reaches such a register clears its RC fields and returns its value. -/
theorem exec_regReadClear (s : State) (dt : Nat) {r : Requester} {a : Nat} {g : Reg} {i j : Nat} (hw : (regRow g).width = 32)
    (h1 : g ≠ .REF_TAB_DATA) (h2 : g ≠ .TILE_DBG_DATA) (hr : s.reaches r a 4 (hitOf g i j)) :
    exec (.regReadClear dt r a 4) s = .next (((s.tick dt).readClear (hitOf g i j)).emit
      (.readData r ((s.tick dt).regView (hitOf g i j) % 2 ^ 32))) := by
  have h : (s.tick dt).bar0Read r a 4 = _ :=
    (bar0Read_of_reaches (reaches_tick dt hr)).trans (wordRead_of_width_32 (s.tick dt) r i j hw h1 h2)
  change Host.Outcome.next ((s.tick dt).readBack r a 4) = _
  rw [State.readBack, h]

end Sys2Proof.Machine
end

section
/-! A direct write of a register's low word (R8, R9, R11): field by field by the access codes. -/
namespace Sys2Proof.Machine

/-- The value of a field that held `x`, after a direct write of `v` to its register that nothing refuses (R8). -/
def FieldRow.written (f : FieldRow) (v x : Nat) : Nat :=
  match f.acc with
  | .rw => bitsOf v f.lo f.w
  | .w1c => x &&& (2 ^ f.w - 1 - bitsOf v f.lo f.w)
  | .w1s => x ||| bitsOf v f.lo f.w
  | _ => x

/-- What a direct write does to a field that it is not refused. -/
theorem updatesField_fieldPut (s : State) (r : Requester) (h : RegHit) (old v : Nat) (f : FieldRow)
    (hk : s.fieldKind r h old v f = none) : UpdatesField f (fun n => s.fieldPut r h old v n f) (f.written v) := by
  have hv : bitsOf v f.lo f.w < 2 ^ f.w := bitsOf_lt _ _ _
  unfold State.fieldPut FieldRow.written
  cases f.acc with
  | rw => simpa [hk] using updatesField_put f (fun _ => bitsOf v f.lo f.w) fun _ _ => hv
  | w1c => exact updatesField_put f _ fun x hx => Nat.lt_of_le_of_lt Nat.and_le_left hx
  | w1s => exact updatesField_put f _ fun x hx => Nat.or_lt_two_pow hx hv
  | ro => exact updatesField_id f
  | wo => exact updatesField_id f
  | rc => exact updatesField_id f
  | rwl => exact updatesField_id f

/-- A plain register takes a written value field by field. -/
theorem regTake_of_plainReg (s : State) (r : Requester) {h : RegHit} (v : Nat) (hp : plainReg h.reg = true) :
    s.regTake r h v = s.regPut r h v := by
  unfold State.regTake
  split <;> simp_all [plainReg, ownRule]

/-- The new value of a plain register acts on nothing else. -/
theorem regAfter_of_plainReg (s : State) {h : RegHit} (old : Nat) (hp : plainReg h.reg = true) : s.regAfter h old = s := by
  unfold State.regAfter
  dsimp only
  split <;> simp_all [plainReg, ownRule]

/-- A direct write of a plain register that no rule refuses stores every field. -/
theorem regPut_of_unrefused (s : State) (r : Requester) {g : Reg} {i j v : Nat} (hp : plainReg g = true)
    (hr : s.regRefused r (hitOf g i j) = none)
    (hk : ∀ f ∈ (regRow g).fields, s.fieldKind r (hitOf g i j) (s.reg g i j) v f = none) :
    s.regPut r (hitOf g i j) v =
      s.setReg g ((regRow g).fields.foldl (s.fieldPut r (hitOf g i j) (s.reg g i j) v) (s.reg g i j)) i j := by
  have hks : (regRow g).fields.filterMap (s.fieldKind r (hitOf g i j) (s.reg g i j) v) = [] :=
    List.filterMap_eq_nil_iff.2 hk
  have ha (t : State) (old : Nat) : t.regAfter (hitOf g i j) old = t := regAfter_of_plainReg t old hp
  unfold State.regPut
  rw [hr]
  dsimp only [hitOf] at hks ha ⊢
  rw [hks, ha]
  rfl

/-- The value that a write of a register's low word commits (R11). -/
def State.committed (s : State) (r : Requester) (h : RegHit) (v : Nat) : Nat :=
  if (regRow h.reg).width = 64 then s.highWord r h * 2 ^ 32 + v % 2 ^ 32 else v % 2 ^ 32

/-- The staged high words after a write of a register's low word (R11). -/
def State.stageAfter (s : State) (r : Requester) (h : RegHit) : FMap (Option Word) :=
  if (regRow h.reg).width = 64 then mapSet none s.stage (holdKey r h) none else s.stage

theorem wordWrite_low (s : State) (r : Requester) (g : Reg) (i j v : Nat) :
    s.wordWrite r (hitOf g i j) v =
      ({ s with stage := s.stageAfter r (hitOf g i j) } : State).regTake r (hitOf g i j) (s.committed r (hitOf g i j) v) := by
  unfold State.wordWrite State.stageAfter State.committed
  by_cases hw : (regRow g).width = 64
  · simp [hitOf, hw]
  · simp [hitOf, hw]

theorem stageAfter_of_width_64 (s : State) (r : Requester) (g : Reg) (i j : Nat) (hw : (regRow g).width = 64) :
    mapGet none (s.stageAfter r (hitOf g i j)) (holdKey r (hitOf g i j)) = none := by
  rw [State.stageAfter, if_pos (show (regRow (hitOf g i j).reg).width = 64 from hw), mapGet_mapSet_same]

/-- A write of the low word of a plain register that no rule refuses stores the register: the rules that could refuse it look neither
at the time nor at the staged words. -/
theorem wordWrite_of_unrefused (s : State) (dt : Nat) (r : Requester) {g : Reg} {i j d : Nat} (hp : plainReg g = true)
    (hr : s.regRefused r (hitOf g i j) = none)
    (hk : ∀ f ∈ (regRow g).fields, s.fieldKind r (hitOf g i j) (s.reg g i j) (s.committed r (hitOf g i j) d) f = none) :
    (s.tick dt).wordWrite r (hitOf g i j) d =
      ({ s.tick dt with stage := s.stageAfter r (hitOf g i j) } : State).setReg g
        ((regRow g).fields.foldl (s.fieldPut r (hitOf g i j) (s.reg g i j) (s.committed r (hitOf g i j) d)) (s.reg g i j)) i j := by
  rw [wordWrite_low, regTake_of_plainReg _ _ _ (show plainReg (hitOf g i j).reg = true from hp)]
  exact regPut_of_unrefused ({ s.tick dt with stage := s.stageAfter r (hitOf g i j) } : State) r hp hr hk

/-- The commands that are one direct write of four bytes at `a`, with the low word of `d` as their data. -/
def DirectWrite (dt : Nat) (r : Requester) (a : Nat) (d : DWord) (w : Word) (c : Instr) : Prop :=
  c = .registerWrite dt r a 4 d ∨ w.toNat = d.toNat % 2 ^ 32 ∧ (c = .devApertureWrite dt r w ∧ a = regAddr .DEV_APERTURE ∨
    (∃ k : Fin 16, c = .netRsCfgWrite dt r k w ∧ a = regAddr .NET_RS_CFG k) ∨
    ∃ (u : Fin 16) (off : Fin 0x220), c = .refStagingWrite dt r u off w ∧ a = 0x300000 + 0x10000 * u.val + off.val)

theorem exec_of_directWrite {dt : Nat} {r : Requester} {a : Nat} {d : DWord} {w : Word} {c : Instr}
    (hc : DirectWrite dt r a d w c) (s : State) :
    ∃ x, x % 2 ^ 32 = d.toNat % 2 ^ 32 ∧ exec c s = .next ((s.tick dt).bar0Write r a 4 x) := by
  obtain rfl | ⟨hw, ⟨rfl, rfl⟩ | ⟨k, rfl, rfl⟩ | ⟨u, off, rfl, rfl⟩⟩ := hc
  · exact ⟨d.toNat, rfl, rfl⟩
  all_goals exact ⟨w.toNat, by omega, rfl⟩

theorem committed_mod (s : State) (r : Requester) (h : RegHit) {x y : Nat} (e : x % 2 ^ 32 = y % 2 ^ 32) :
    s.committed r h x = s.committed r h y := by
  unfold State.committed
  rw [e]

/-- Settles O6: a read clears by a fold of field updates, an unrefused write stores by one, and the fields of a register lie apart. -/
theorem accessCodesAct : Obligations.AccessCodesAct := by
  constructor
  · intro dt r a g i j s hw h1 h2 hg hr
    refine ⟨_, exec_regReadClear s dt hw h1 h2 hr, ?_, ?_, keeps_readClear (s.tick dt) hg, ?_⟩
    · rw [readClear_frame]; rfl
    · exact fun f hf => bitsOf_readClear (s.tick dt) g i j hf
    · rw [readClear_frame]; rfl
  · intro dt r a d w g i j c s hc hp hg hr v hrr hk
    obtain ⟨x, hx, he⟩ := exec_of_directWrite hc s
    have hv : s.committed r (hitOf g i j) x = v := committed_mod s r _ hx
    rw [bar0Write_of_reaches (reaches_tick dt hr), wordWrite_of_unrefused s dt r hp hrr (by rwa [hv])] at he
    rw [hv] at he
    refine ⟨_, he, ?_, fun hw => stageAfter_of_width_64 s r g i j hw, ?_, rfl⟩
    · exact fun f hf => bitsOf_reg_setReg_foldl _ g i j (s.reg g i j)
        (fun f hf => updatesField_fieldPut s r (hitOf g i j) (s.reg g i j) v f (hk f hf)) hf
    · exact keeps_setReg ({ s.tick dt with stage := s.stageAfter r (hitOf g i j) } : State) _ hg

end Sys2Proof.Machine
end

section
/-! Every meaning is built from next states by guards and by matches on what the state holds, so that every command completes (R32). -/
namespace Sys2Proof.Machine

/-- The answer is a next state: no fault and no refusal. -/
def Completes (a : Answer) : Prop := ∃ t, a = .next t

theorem Completes.next (t : State) : Completes (.next t) := ⟨t, rfl⟩

theorem Completes.ite {p : Prop} [Decidable p] {a b : Answer} (ha : Completes a) (hb : Completes b) :
    Completes (if p then a else b) := by
  split <;> assumption

/-- A meaning under one guard. -/
theorem Completes.guard {p : Prop} [Decidable p] {t u : State} : Completes (if p then .next t else .next u) :=
  .ite (.next t) (.next u)

/-! ## Meanings with matches of a shape of their own -/

theorem completes_calDue (dt item inst temp iref s) : Completes (execCalDue dt item inst temp iref s) := by
  unfold execCalDue
  extract_lets
  refine .ite ?_ (.next _)
  split <;> exact .guard

theorem completes_hbmTrainingComplete (dt k fail s) : Completes (execHbmTrainingComplete dt k fail s) := by
  unfold execHbmTrainingComplete
  extract_lets
  refine .ite ?_ (.next _)
  split
  · exact .guard
  · exact .next _

theorem completes_bootRomVerifyComplete (dt cal rep pol key iref s) :
    Completes (execBootRomVerifyComplete dt cal rep pol key iref s) := by
  unfold execBootRomVerifyComplete
  extract_lets
  refine .ite ?_ (.next _)
  split
  · exact .next _
  · dsimp only
    split <;> exact .next _

theorem completes_wakeRailTimeout (dt s) : Completes (execWakeRailTimeout dt s) := by
  unfold execWakeRailTimeout
  extract_lets _ bad
  clear_value bad
  refine .ite ?_ (.next _)
  split <;> exact .next _

theorem completes_txPrepared (dt t s) : Completes (execTxPrepared dt t s) := by
  unfold execTxPrepared
  extract_lets
  refine .ite ?_ (.next _)
  split <;> exact .next _

theorem completes_calMeasurement (dt item inst code conf temp s) : Completes (execCalMeasurement dt item inst code conf temp s) := by
  unfold execCalMeasurement
  extract_lets
  refine .ite (.ite (.next _) (.ite (.next _) ?_)) (.next _)
  split <;> exact .next _

theorem completes_pairRestore (dt p res s) : Completes (execPairRestore dt p res s) := by
  unfold execPairRestore
  extract_lets
  refine .ite (.ite (.next _) (.ite (.next _) ?_)) (.next _)
  split <;> exact .next _

theorem completes_railFailure (dt rail s) : Completes (execRailFailure dt rail s) := by
  unfold execRailFailure
  extract_lets
  refine .ite (.next _) (.ite (.next _) (.ite .guard ?_))
  split
  · exact .next _
  · exact .ite (.next _) .guard

theorem completes_flitReceived (dt j f s) : Completes (execFlitReceived dt j f s) := by
  unfold execFlitReceived
  extract_lets
  refine .ite (.next _) (.ite (.next _) (.ite ?_ .guard))
  split <;> exact .next _

theorem completes_linkSignalDetect (dt l s) : Completes (execLinkSignalDetect dt l s) := by
  unfold execLinkSignalDetect
  extract_lets
  refine .ite (.next _) ?_
  split
  · exact .next _
  · exact .guard

theorem completes_catRequestStart (dt s) : Completes (execCatRequestStart dt s) := by
  unfold execCatRequestStart
  extract_lets
  refine .ite (.next _) ?_
  split <;> exact .next _

theorem completes_sqFetchComplete (dt q x s) : Completes (execSqFetchComplete dt q x s) := by
  unfold execSqFetchComplete
  extract_lets
  refine .ite (.next _) ?_
  split <;> exact .next _

theorem completes_domainSwitchedOff (dt d s) : Completes (execDomainSwitchedOff dt d s) := by
  unfold execDomainSwitchedOff
  extract_lets
  split
  · exact .guard
  · refine .ite ?_ (.ite ?_ .guard)
    · split
      · exact .next _
      · exact .guard
    · split
      · exact .next _
      · exact .guard
      · exact .next _

theorem completes_pcieCompletionTimeout (dt x s) : Completes (execPcieCompletionTimeout dt x s) := by
  cases x with
  | dma c => exact .guard
  | fetch q => exact .guard
  | buffer h p => exact .next _

theorem completes_cxpControlReply (dt x s) : Completes (execCxpControlReply dt x s) := by
  cases x <;> exact .next _

theorem completes_cxpControlTimeout (dt x s) : Completes (execCxpControlTimeout dt x s) := by
  unfold execCxpControlTimeout
  extract_lets
  split
  · split
    · exact .next _
    · exact .guard
  · exact .ite (.next _) .guard
  · split <;> exact .next _

theorem completes_tapReturnRow (dt u e seg n ch row poison s) : Completes (execTapReturnRow dt u e seg n ch row poison s) := by
  unfold execTapReturnRow
  extract_lets
  split
  · exact .next _
  · refine .ite (.next _) (.ite (.next _) ?_)
    split
    · exact .next _
    · exact .guard

theorem completes_runReset (dt u e s) : Completes (execRunReset dt u e s) := by
  unfold execRunReset
  extract_lets
  split
  · exact .next _
  · split
    · exact .guard
    · exact .next _

theorem completes_feederRow (dt u e s) : Completes (execFeederRow dt u e s) := by
  unfold execFeederRow
  extract_lets
  split
  · split
    · split
      · refine .ite ?_ (.next _)
        split <;> exact .next _
      · exact .next _
    · exact .next _
  · exact .next _

/-! ## All commands -/

/-- Every command answers a next state. The meanings that are a next state without a condition come last; those of one guard, of nested
guards, and of a match of one shape stand together. -/
theorem completes_exec (c : Instr) (s : State) : Completes (exec c s) := by
  cases c with
  | columnPowerGood | dllLockTimeout | dllLockLoss | linkLock | linkLockTimeout | connAbsentTimeout | tdrComplete
  | segmentHoldTimeout | refSlotWaitEnd | softResetComplete | tileSenseConvert | seamSendWaitEnd | exportRowReceived
  | streamRequestIssue | commitSignalArrive | tallySnapshot | dmaTimerPulse | cxpCtrl | perstAssert | arpRetry
  | ptpAnnounceTimeout | rsFlushTimeout | speedHintCheck | plbCollision | plbBeaconTimeout | quarantineExpire
  | laneDropReceived | laneRetrainTimeout | positionSend | alignTimeout | rasHoldTimeout | substSwitch | substCopyComplete
  | trimComplete | thermalTrip | wakeNLow | perstNRise | i3cAddressMatch | aonTimerMatch | railGood | aonPowerUp
  | refclkLoss | refclkHoldoverTimeout | refclkRelock | refclkReturn | calSwapComplete | standbyCheck | logMirror
  | fwFloorCommit | debugScopeExpire | slewProbeEnd | ethLinkUp | ethLinkLoss | laneWidening | pcieConfigRequest
  | mcWakeRequest | railExcursion => exact .guard
  | dllLock | dmaNextFetched | laneFailure | halvingEnd | bsenseAverage => exact .ite .guard (.next _)
  | lineReceived | encoderEdge | commandDatagram | plantEventDatagram | laneTrainingComplete | testRotationDue =>
    exact .ite (.next _) .guard
  | noiseFit | dmaDescriptorComplete | thermalStepDown | thermalStepUp => exact .ite (.ite (.next _) .guard) (.next _)
  | plbFrameReceived | plbBeaconReceived => exact .ite (.next _) (.ite (.next _) .guard)
  | ethFrameReceived => exact .ite (.next _) (.ite (.next _) (.ite (.next _) .guard))
  | pairFault => exact .ite (.next _) (.ite (.ite (.next _) .guard) .guard)
  | bar4Access | bar2Access | refTabDataAccess | tileDbgDataAccess | streamReadComplete | catRequestComplete | msArrivalApply
  | eventPulseRoute | msWaitTimeout | waymarkRecordRead =>
    dsimp -zeta only [exec, execBar4Access, execBar2Access, execRefTabDataAccess, execTileDbgDataAccess, execStreamReadComplete,
      execCatRequestComplete, execMsArrivalApply, execEventPulseRoute, execMsWaitTimeout, execWaymarkRecordRead]
    extract_lets
    split <;> exact .next _
  | lineTimeout | posSuspectEnd | triggerPlannedTime | rowBusRow | detourCopyComplete | streamWritePulled | sysVoteClose
  | calHoldTimeout =>
    dsimp -zeta only [exec, execLineTimeout, execPosSuspectEnd, execTriggerPlannedTime, execRowBusRow, execDetourCopyComplete,
      execStreamWritePulled, execSysVoteClose, execCalHoldTimeout]
    extract_lets
    split
    · exact .guard
    · exact .next _
  | linkLockLoss | dmaBeat | bistComplete =>
    dsimp -zeta only [exec, execLinkLockLoss, execDmaBeat, execBistComplete]
    extract_lets
    split
    · exact .next _
    · exact .guard
  | meshPacketArrive | scoreboardRetire =>
    dsimp -zeta only [exec, execMeshPacketArrive, execScoreboardRetire]
    extract_lets
    split
    · split <;> exact .next _
    · exact .next _
  | calDue => exact completes_calDue ..
  | hbmTrainingComplete => exact completes_hbmTrainingComplete ..
  | bootRomVerifyComplete dt cal rep pol key iref =>
    exact completes_bootRomVerifyComplete dt cal rep pol key iref s
  | wakeRailTimeout => exact completes_wakeRailTimeout ..
  | txPrepared => exact completes_txPrepared ..
  | calMeasurement => exact completes_calMeasurement ..
  | pairRestore => exact completes_pairRestore ..
  | railFailure => exact completes_railFailure ..
  | flitReceived => exact completes_flitReceived ..
  | linkSignalDetect => exact completes_linkSignalDetect ..
  | catRequestStart => exact completes_catRequestStart ..
  | sqFetchComplete => exact completes_sqFetchComplete ..
  | domainSwitchedOff => exact completes_domainSwitchedOff ..
  | pcieCompletionTimeout => exact completes_pcieCompletionTimeout ..
  | cxpControlReply => exact completes_cxpControlReply ..
  | cxpControlTimeout => exact completes_cxpControlTimeout ..
  | tapReturnRow => exact completes_tapReturnRow ..
  | runReset => exact completes_runReset ..
  | feederRow => exact completes_feederRow ..
  | _ => exact .next _

/-- Settles O2: an empty queue idles by the step's definition, and every meaning answers a next state. -/
theorem queueIdlesAndCommandsComplete : Obligations.QueueIdlesAndCommandsComplete := by
  constructor
  · intro s h
    rw [step, h]
  · exact completes_exec

end Sys2Proof.Machine
end

section
/-! Accesses that reach no register (R32, R544): nothing is written, zero is read, and the access error log takes the access. -/
namespace Sys2Proof.Machine

/-- Whether an access reaches a register is a matter of the registers, not of the time. -/
theorem access_tick (s : State) (dt a n : Nat) : (s.tick dt).access a n = s.access a n := rfl

theorem bar0Write_of_access_error {s : State} {a n k : Nat} (hw : inWayRec a = false) (ha : s.access a n = .error k)
    (r : Requester) (v : Nat) : s.bar0Write r a n v = s.aelReg r a k 0 (v % 2 ^ 32) := by
  simp [State.bar0Write, hw, ha]

theorem bar0Read_of_access_error {s : State} {a n k : Nat} (hw : inWayRec a = false) (ha : s.access a n = .error k)
    (r : Requester) : s.bar0Read r a n = (s.aelReg r a k 0 0, 0) := by
  simp [State.bar0Read, hw, ha]

theorem readBack_of_access_error {s : State} {a n k : Nat} (hw : inWayRec a = false) (ha : s.access a n = .error k)
    (r : Requester) : s.readBack r a n = (s.aelReg r a k 0 0).emit (.readData r 0) := by
  rw [State.readBack, bar0Read_of_access_error hw ha]

/-- Settles O7: an access answered with a KIND is recorded, and a read of it returns zero. -/
theorem wrongAccessIsRecorded : Obligations.WrongAccessIsRecorded := by
  intro dt r a n k d s hw ha
  have ha' : (s.tick dt).access a n = .error k := (access_tick s dt a n).trans ha
  constructor
  · exact congrArg Host.Outcome.next (bar0Write_of_access_error hw ha' r d.toNat)
  · exact congrArg Host.Outcome.next (readBack_of_access_error hw ha' r)

end Sys2Proof.Machine
end

section
/-! Frames: what a write leaves, read through the list of the registers written or through the part of the state written. -/
namespace Sys2Proof.Machine

theorem flag_congr {s t : State} {f : Fld} {i j : Nat} (h : t.fld f i j = s.fld f i j) : t.flag f i j = s.flag f i j := by
  rw [State.flag, State.flag, h]

/-- A field's own write decides its flag. -/
theorem flag_setFld_same (s : State) (f : Fld) (v i j : Nat) (h : f.lo + f.w ≤ 64) :
    (s.setFld f v i j).flag f i j = (v % 2 ^ f.w == 1) := by
  rw [State.flag, State.fld_setFld_same _ _ _ _ _ h]

theorem flag_setFld_other (s : State) {f g : Fld} (v i j : Nat) (hr : g.reg = f.reg) (hf : f.lo + f.w ≤ 64)
    (h : g.lo + g.w ≤ f.lo ∨ f.lo + f.w ≤ g.lo) : (s.setFld f v i j).flag g i j = s.flag g i j :=
  flag_congr (State.fld_setFld_other s v i j hr hf h)

theorem keeps_refl (s : State) (l : List (Reg × Nat × Nat)) : s.keeps s l := fun _ _ _ _ _ => rfl

/-- Two writes of fields of one register. -/
theorem keeps_setFld_setFld (s : State) {f g : Fld} {i j : Nat} (v w : Nat) (hr : g.reg = f.reg) (hg : regHas f.reg i j) :
    s.keeps ((s.setFld f v i j).setFld g w i j) [(f.reg, i, j)] :=
  keeps_mono (keeps_trans (keeps_setFld s f v hg) (keeps_setFld (s.setFld f v i j) g w (hr ▸ hg))) (by simp [hr])

theorem fld_of_keeps {s t : State} {l : List (Reg × Nat × Nat)} (h : s.keeps t l) {f : Fld} {i j : Nat} (hf : regHas f.reg i j)
    (hn : (f.reg, i, j) ∉ l) : t.fld f i j = s.fld f i j := by
  rw [State.fld, State.fld, h _ _ _ hf hn]

theorem flag_of_keeps {s t : State} {l : List (Reg × Nat × Nat)} (h : s.keeps t l) {f : Fld} {i j : Nat} (hf : regHas f.reg i j)
    (hn : (f.reg, i, j) ∉ l) : t.flag f i j = s.flag f i j := flag_congr (fld_of_keeps h hf hn)

theorem sameMemory_of_stores {s t : State} (hd : t.depot = s.depot) (hh : t.hbm = s.hbm) : s.sameMemory t :=
  ⟨fun a => by rw [State.depByte, State.depByte, hd], fun a => by rw [State.hbmByte, State.hbmByte, hh]⟩

/-- A reflexive and transitive relation that every step of a fold keeps holds across the fold. -/
theorem foldl_rel {σ α : Type} {R : σ → σ → Prop} (refl : ∀ s, R s s) (trans : ∀ {s t u}, R s t → R t u → R s u)
    {f : σ → α → σ} (h : ∀ s x, R s (f s x)) (l : List α) (s : σ) : R s (l.foldl f s) := by
  induction l generalizing s with
  | nil => exact refl s
  | cons x l ih => exact trans (h s x) (ih (f s x))

/-- A fold whose steps write one register each keeps every other. -/
theorem foldl_keeps {α : Type} {f : State → α → State} (g : α → Reg × Nat × Nat) (l : List α)
    (h : ∀ x ∈ l, ∀ s : State, s.keeps (f s x) [g x]) (s : State) : s.keeps (l.foldl f s) (l.map g) := by
  induction l generalizing s with
  | nil => exact keeps_refl s _
  | cons x l ih =>
    obtain ⟨hx, hl⟩ := List.forall_mem_cons.1 h
    exact keeps_trans (hx s) (ih hl (f s x))

/-- `t` differs from `s` in its registers alone. -/
def State.onlyRegs (s t : State) : Prop := t = { s with regs := t.regs }

theorem onlyRegs_refl (s : State) : s.onlyRegs s := rfl

theorem onlyRegs_trans {s t u : State} (h : s.onlyRegs t) (h' : t.onlyRegs u) : s.onlyRegs u := by
  rw [State.onlyRegs] at h h' ⊢
  rw [h', h]

theorem onlyRegs_setFld (s : State) (f : Fld) (v i j : Nat) : s.onlyRegs (s.setFld f v i j) := rfl

theorem onlyRegs_setFld_setFld (s : State) (f g : Fld) (v w i j : Nat) : s.onlyRegs ((s.setFld f v i j).setFld g w i j) :=
  onlyRegs_trans (onlyRegs_setFld s f v i j) (onlyRegs_setFld _ g w i j)

section
variable {s t : State} (h : s.onlyRegs t)
include h
theorem onlyRegs_tiles : t.tiles = s.tiles := by rw [show t = { s with regs := t.regs } from h]
theorem onlyRegs_cols : t.cols = s.cols := by rw [show t = { s with regs := t.regs } from h]
theorem onlyRegs_depot : t.depot = s.depot := by rw [show t = { s with regs := t.regs } from h]
theorem onlyRegs_hbm : t.hbm = s.hbm := by rw [show t = { s with regs := t.regs } from h]
end

end Sys2Proof.Machine
end

section
/-! A column starts (R27, R143): its tiles are new, and each begins on its ring oscillator. -/
namespace Sys2Proof.Machine

/-- The registers of the tile in row `r` of column `c` as the column starts: on its ring, IDLE or RETIRED (R143). -/
def State.powerTile (c : Nat) (s : State) (r : Nat) : State :=
  (s.setFld F.TILE_STAT_ON_RING 1 (32 * c + r)).setFld F.TILE_STAT_STATE
    (if bitsOf (s.fld F.RAS_RETIRED_ROWS c) r 1 = 1 then 5 else 0) (32 * c + r)

theorem powerTile_onlyRegs (c : Nat) (s : State) (r : Nat) : s.onlyRegs (s.powerTile c r) := onlyRegs_setFld_setFld ..

theorem powerTile_keeps (s : State) {c r : Nat} (hc : c < 34) (hr : r < 32) :
    s.keeps (s.powerTile c r) [(.TILE_STAT, 32 * c + r, 0)] :=
  keeps_setFld_setFld (f := F.TILE_STAT_ON_RING) (g := F.TILE_STAT_STATE) s _ _ rfl
    ⟨show 32 * c + r < 1088 by omega, Nat.one_pos⟩

theorem powerTile_on_ring (s : State) (c r : Nat) : (s.powerTile c r).flag F.TILE_STAT_ON_RING (32 * c + r) = true := by
  rw [State.powerTile, flag_setFld_other _ _ _ _ (by rfl) (by decide) (by decide), flag_setFld_same _ _ _ _ _ (by decide)]
  rfl

theorem powerTile_tState (s : State) (c r : Nat) :
    (s.powerTile c r).tState (32 * c + r) = if bitsOf (s.fld F.RAS_RETIRED_ROWS c) r 1 = 1 then 5 else 0 := by
  rw [State.tState, State.powerTile, State.fld_setFld_same _ _ _ _ _ (by decide)]
  split <;> rfl

theorem powerTiles_keeps (l : List Nat) (s : State) {c : Nat} (hc : c < 34) (hl : ∀ r ∈ l, r < 32) :
    s.keeps (l.foldl (State.powerTile c) s) (l.map fun r => (.TILE_STAT, 32 * c + r, 0)) :=
  foldl_keeps (f := State.powerTile c) (fun r => (.TILE_STAT, 32 * c + r, 0)) l (fun r hr u => powerTile_keeps u hc (hl r hr)) s

/-- Each tile of the started rows is as its own start leaves it: RAS_RETIRED_ROWS and the other tiles' registers are not written. -/
theorem powerTiles_tile (l : List Nat) (s : State) {c r : Nat} (hc : c < 34) (hl : ∀ r ∈ l, r < 32) (hr : r ∈ l) :
    (l.foldl (State.powerTile c) s).flag F.TILE_STAT_ON_RING (32 * c + r) = true ∧
    (l.foldl (State.powerTile c) s).tState (32 * c + r) = if bitsOf (s.fld F.RAS_RETIRED_ROWS c) r 1 = 1 then 5 else 0 := by
  induction l generalizing s with
  | nil => exact absurd hr List.not_mem_nil
  | cons q l ih =>
    obtain ⟨hq, hl'⟩ := List.forall_mem_cons.1 hl
    have hrows : (s.powerTile c q).fld F.RAS_RETIRED_ROWS c = s.fld F.RAS_RETIRED_ROWS c :=
      fld_of_keeps (powerTile_keeps s hc hq) ⟨hc, Nat.one_pos⟩ (by simp)
    by_cases hm : r ∈ l
    · rw [← hrows]
      exact ih (s.powerTile c q) hl' hm
    · obtain rfl : r = q := (List.mem_cons.1 hr).resolve_right hm
      have hk := powerTiles_keeps l (s.powerTile c r) hc hl'
      have hT : regHas .TILE_STAT (32 * c + r) 0 := ⟨show 32 * c + r < 1088 by omega, Nat.one_pos⟩
      have hn : (Reg.TILE_STAT, 32 * c + r, 0) ∉ l.map fun r => (Reg.TILE_STAT, 32 * c + r, 0) := by simpa using hm
      exact ⟨(flag_of_keeps (f := F.TILE_STAT_ON_RING) hk hT hn).trans (powerTile_on_ring s c r),
        (fld_of_keeps (f := F.TILE_STAT_STATE) hk hT hn).trans (powerTile_tState s c r)⟩

/-- A column whose regulator reports power good, with new tiles (R143). -/
def State.freshCol (s : State) (c : Nat) : State :=
  ({ s with tiles := mapClear (32 * c) (32 * c + 32) s.tiles } : State).setCol c { s.col c with good := true }

/-- The clock of a column locked at the column's operating point (R27). -/
def State.lockCol (s : State) (c : Nat) : State :=
  let u := s.setFld F.CLK_COL_LOCK 1 c
  u.setMhz c (u.fld F.PWR_COL_CUR_OP c)

theorem freshCol_col (s : State) (c : Nat) : (s.freshCol c).col c = { s.col c with good := true } :=
  mapGet_mapSet_same col0 s.cols c _

theorem freshCol_tile (s : State) (c j : Nat) : (s.freshCol c).tile j = if j / 32 = c then tile0 else s.tile j := by
  have h : (32 * c ≤ j ∧ j < 32 * c + 32) ↔ j / 32 = c := by omega
  rw [← if_congr h rfl rfl]
  exact mapGet_mapClear tile0 s.tiles (32 * c) (32 * c + 32) j

theorem lockCol_onlyRegs (s : State) (c : Nat) : s.onlyRegs (s.lockCol c) := onlyRegs_setFld_setFld ..

theorem lockCol_keeps (s : State) {c : Nat} (hc : c < 34) : s.keeps (s.lockCol c) [(.CLK_COL, c, 0)] :=
  keeps_setFld_setFld (f := F.CLK_COL_LOCK) (g := F.CLK_COL_MHZ) s _ _ rfl ⟨hc, Nat.one_pos⟩

theorem lockCol_locked (s : State) (c : Nat) : (s.lockCol c).flag F.CLK_COL_LOCK c = true := by
  rw [State.lockCol, State.setMhz, flag_setFld_other _ _ _ _ (by rfl) (by decide) (by decide),
    flag_setFld_same _ _ _ _ _ (by decide)]
  rfl

/-- The state that a column's power good leaves (R27, R143). -/
def State.startCol (s : State) (c : Nat) : State := (List.range 32).foldl (State.powerTile c) ((s.freshCol c).lockCol c)

theorem exec_columnPowerGood {s : State} (dt : Nat) {c : Fin 34} (hs : (s.col c).starting = true)
    (h3 : s.fld F.PWR_COL_STATE c = 3) (hg : (s.col c).good = false) :
    exec (.columnPowerGood dt c) s = .next ((s.tick dt).startCol c) :=
  if_pos ⟨hs, h3, congrArg not hg⟩

theorem startCol_onlyRegs (s : State) (c : Nat) : (s.freshCol c).onlyRegs (s.startCol c) :=
  onlyRegs_trans (lockCol_onlyRegs _ c) (foldl_rel onlyRegs_refl onlyRegs_trans (powerTile_onlyRegs c) _ _)

theorem startCol_col (s : State) (c : Nat) : (s.startCol c).col c = { s.col c with good := true } := by
  rw [State.col, onlyRegs_cols (startCol_onlyRegs s c)]
  exact freshCol_col s c

theorem startCol_tile (s : State) (c j : Nat) : (s.startCol c).tile j = if j / 32 = c then tile0 else s.tile j := by
  rw [State.tile, onlyRegs_tiles (startCol_onlyRegs s c)]
  exact freshCol_tile s c j

theorem startCol_sameMemory (s : State) (c : Nat) : s.sameMemory (s.startCol c) :=
  sameMemory_of_stores ((onlyRegs_depot (startCol_onlyRegs s c)).trans rfl) ((onlyRegs_hbm (startCol_onlyRegs s c)).trans rfl)

section
variable (s : State) {c : Nat} (hc : c < 34)
include hc

theorem freshCol_keeps_lockCol : s.keeps ((s.freshCol c).lockCol c) [(.CLK_COL, c, 0)] := lockCol_keeps (s.freshCol c) hc

theorem lockCol_keeps_startCol :
    ((s.freshCol c).lockCol c).keeps (s.startCol c) ((List.range 32).map fun r => (.TILE_STAT, 32 * c + r, 0)) :=
  powerTiles_keeps _ _ hc fun _ => List.mem_range.1

theorem startCol_keeps :
    s.keeps (s.startCol c) ((.CLK_COL, c, 0) :: (List.range 32).map fun r => (.TILE_STAT, 32 * c + r, 0)) :=
  keeps_trans (freshCol_keeps_lockCol s hc) (lockCol_keeps_startCol s hc)

theorem startCol_locked : (s.startCol c).flag F.CLK_COL_LOCK c = true :=
  (flag_of_keeps (f := F.CLK_COL_LOCK) (lockCol_keeps_startCol s hc) ⟨hc, Nat.one_pos⟩ (by simp)).trans (lockCol_locked _ c)

theorem startCol_powers {r : Nat} (hr : r < 32) : (s.startCol c).flag F.TILE_STAT_ON_RING (32 * c + r) = true ∧
    (s.startCol c).tState (32 * c + r) = if bitsOf (s.fld F.RAS_RETIRED_ROWS c) r 1 = 1 then 5 else 0 := by
  rw [← fld_of_keeps (f := F.RAS_RETIRED_ROWS) (freshCol_keeps_lockCol s hc) ⟨hc, Nat.one_pos⟩ (by simp)]
  exact powerTiles_tile _ _ hc (fun _ => List.mem_range.1) (List.mem_range.2 hr)

end

end Sys2Proof.Machine
end

section
/-! The clock of a tile (R26, R27): its DLL locks, does not lock in time, or loses lock. -/
namespace Sys2Proof.Machine

/-- Tile `k` with its DLL in state `d`: 1 locked, 2 not locked. -/
def State.setDll (s : State) (k d : Nat) : State := s.setTile k { s.tile k with dll := d }

theorem setDll_tile (s : State) (k d : Nat) : (s.setDll k d).tile k = { s.tile k with dll := d } :=
  mapGet_mapSet_same tile0 s.tiles k _

/-- A tile's DLL state and the registers are all that a DLL event changes. -/
theorem onlyRegs_setDll {s t : State} {k d : Nat} (h : (s.setDll k d).onlyRegs t) :
    t.tile k = { s.tile k with dll := d } ∧ t = { s with regs := t.regs, tiles := t.tiles } := by
  have ht := onlyRegs_tiles h
  constructor
  · rw [State.tile, ht]
    exact setDll_tile s k d
  · rw [ht]
    exact h

/-- TILE_STAT of a tile whose island is on its DLL clock: not on its ring, its lock-fail flag clear (R27). -/
def State.dllClock (s : State) (k : Nat) : State := (s.setFld F.TILE_STAT_ON_RING 0 k).setFld F.TILE_STAT_LOCK_FAIL 0 k

/-- TILE_STAT of a tile that has fallen back to its ring oscillator (R26). -/
def State.ringClock (s : State) (k : Nat) : State := (s.setFld F.TILE_STAT_ON_RING 1 k).setFld F.TILE_STAT_LOCK_LOST 1 k

theorem dllClock_flags (s : State) (k : Nat) :
    (s.dllClock k).flag F.TILE_STAT_ON_RING k = false ∧ (s.dllClock k).flag F.TILE_STAT_LOCK_FAIL k = false := by
  constructor
  · rw [State.dllClock, flag_setFld_other _ _ _ _ (by rfl) (by decide) (by decide), flag_setFld_same _ _ _ _ _ (by decide)]
    rfl
  · rw [State.dllClock, flag_setFld_same _ _ _ _ _ (by decide)]
    rfl

theorem ringClock_flags (s : State) (k : Nat) :
    (s.ringClock k).flag F.TILE_STAT_ON_RING k = true ∧ (s.ringClock k).flag F.TILE_STAT_LOCK_LOST k = true := by
  constructor
  · rw [State.ringClock, flag_setFld_other _ _ _ _ (by rfl) (by decide) (by decide), flag_setFld_same _ _ _ _ _ (by decide)]
    rfl
  · rw [State.ringClock, flag_setFld_same _ _ _ _ _ (by decide)]
    rfl

theorem dllClock_keeps (s : State) (k : Fin 1088) : s.keeps (s.dllClock k) [(.TILE_STAT, k.val, 0)] :=
  keeps_setFld_setFld (f := F.TILE_STAT_ON_RING) (g := F.TILE_STAT_LOCK_FAIL) s _ _ rfl ⟨k.isLt, Nat.one_pos⟩

theorem ringClock_keeps (s : State) (k : Fin 1088) : s.keeps (s.ringClock k) [(.TILE_STAT, k.val, 0)] :=
  keeps_setFld_setFld (f := F.TILE_STAT_ON_RING) (g := F.TILE_STAT_LOCK_LOST) s _ _ rfl ⟨k.isLt, Nat.one_pos⟩

section
variable {s : State} (dt : Nat) {k : Fin 1088}

/-- While the column is starting, a locked DLL waits for the column (R27). -/
theorem exec_dllLock (h0 : (s.tile k).dll = 0) (hl : s.flag F.CLK_COL_LOCK (tileCol k) = true) :
    exec (.dllLock dt k) s = .next (if s.fld F.PWR_COL_STATE (tileCol k) = 3 then (s.tick dt).setDll k 1
      else ((s.tick dt).setDll k 1).dllClock k) :=
  (if_pos ⟨h0, hl⟩).trans (apply_ite Host.Outcome.next _ _ _).symm

theorem exec_dllLockTimeout (h0 : (s.tile k).dll = 0) (hl : s.flag F.CLK_COL_LOCK (tileCol k) = true) :
    exec (.dllLockTimeout dt k) s = .next ((s.tick dt).setDll k 2) :=
  if_pos ⟨h0, hl⟩

theorem exec_dllLockLoss (h1 : (s.tile k).dll = 1) (hr : s.flag F.TILE_STAT_ON_RING k = false) :
    exec (.dllLockLoss dt k) s = .next (((s.tick dt).setDll k 2).ringClock k) :=
  if_pos ⟨h1, congrArg not hr⟩

/-- A DLL that locks leaves its tile locked, and on its DLL clock unless the column is still starting (R27). -/
theorem dllLock_next (h0 : (s.tile k).dll = 0) (hl : s.flag F.CLK_COL_LOCK (tileCol k) = true) :
    ∃ t, exec (.dllLock dt k) s = .next t ∧ t.tile k = { s.tile k with dll := 1 } ∧
      (s.fld F.PWR_COL_STATE (tileCol k) ≠ 3 → t.flag F.TILE_STAT_ON_RING k = false ∧ t.flag F.TILE_STAT_LOCK_FAIL k = false) ∧
      s.keeps t [(.TILE_STAT, k, 0)] ∧ t = { s.tick dt with regs := t.regs, tiles := t.tiles } := by
  refine ⟨_, exec_dllLock dt h0 hl, ?_⟩
  by_cases h3 : s.fld F.PWR_COL_STATE (tileCol k) = 3
  · rw [if_pos h3]
    obtain ⟨htile, hframe⟩ := onlyRegs_setDll (onlyRegs_refl ((s.tick dt).setDll k 1))
    exact ⟨htile, fun hn => absurd h3 hn, keeps_of_regs _ rfl, hframe⟩
  · rw [if_neg h3]
    obtain ⟨htile, hframe⟩ := onlyRegs_setDll (s := s.tick dt) (k := k) (d := 1) (onlyRegs_setFld_setFld ..)
    exact ⟨htile, fun _ => dllClock_flags _ k, dllClock_keeps ((s.tick dt).setDll k 1) k, hframe⟩

/-- A DLL that loses lock leaves its tile on its ring oscillator with LOCK_LOST set (R26). -/
theorem dllLockLoss_next (h1 : (s.tile k).dll = 1) (hr : s.flag F.TILE_STAT_ON_RING k = false) :
    ∃ t, exec (.dllLockLoss dt k) s = .next t ∧ t.tile k = { s.tile k with dll := 2 } ∧
      t.flag F.TILE_STAT_ON_RING k = true ∧ t.flag F.TILE_STAT_LOCK_LOST k = true ∧ s.keeps t [(.TILE_STAT, k, 0)] ∧
      t = { s.tick dt with regs := t.regs, tiles := t.tiles } := by
  obtain ⟨htile, hframe⟩ := onlyRegs_setDll (s := s.tick dt) (k := k) (d := 2) (onlyRegs_setFld_setFld ..)
  obtain ⟨hring, hlost⟩ := ringClock_flags ((s.tick dt).setDll k 2) k
  exact ⟨_, exec_dllLockLoss dt h1 hr, htile, hring, hlost, ringClock_keeps ((s.tick dt).setDll k 2) k, hframe⟩

end

end Sys2Proof.Machine
end

section
/-! What a tile reports: its rate window (R138, R218) and its converted diode and voltage (R139, R468). -/
namespace Sys2Proof.Machine

/-- The registers, the depot and HBM are those of `s`. -/
def State.sameStores (s t : State) : Prop := t.regs = s.regs ∧ t.depot = s.depot ∧ t.hbm = s.hbm

theorem sameStores_refl (s : State) : s.sameStores s := ⟨rfl, rfl, rfl⟩

theorem sameStores_trans {s t u : State} (h : s.sameStores t) (h' : t.sameStores u) : s.sameStores u := by
  obtain ⟨hr, hd, hh⟩ := h
  obtain ⟨hr', hd', hh'⟩ := h'
  exact ⟨hr'.trans hr, hd'.trans hd, hh'.trans hh⟩

/-- Judging a crew counts its slow windows and reports to firmware (R218, R219). -/
theorem judgeCrew_sameStores (ws : List Nat) (s : State) (k : Nat) : s.sameStores (s.judgeCrew k ws) := by
  unfold State.judgeCrew
  extract_lets
  split
  · exact sameStores_refl s
  · extract_lets _ _ _ u
    exact sameStores_trans (t := u) ⟨rfl, rfl, rfl⟩ (foldl_rel sameStores_refl sameStores_trans (f := fun s t => s.tell (.note 7 t))
      (fun _ _ => ⟨rfl, rfl, rfl⟩) _ u)

theorem colFreq_congr {s t : State} {c : Nat} (hc : t.cols = s.cols) (hf : t.fld F.PWR_COL_CUR_OP c = s.fld F.PWR_COL_CUR_OP c) :
    t.colFreq c = s.colFreq c := by
  rw [State.colFreq, State.colFreq, State.col, State.col, hc, hf]

/-- VALID and MHZ of TILE_RATE at the end of a window (R138). -/
def State.rateCount (s : State) (k cycles : Nat) : State :=
  (s.setFld F.TILE_RATE_VALID 1 k).setFld F.TILE_RATE_MHZ (cycles / 100) k

theorem rateCount_keeps (s : State) (k : Fin 1088) (cycles : Nat) : s.keeps (s.rateCount k cycles) [(.TILE_RATE, k.val, 0)] :=
  keeps_setFld_setFld (f := F.TILE_RATE_VALID) (g := F.TILE_RATE_MHZ) s _ _ rfl ⟨k.isLt, Nat.one_pos⟩

theorem rateWrite_eq (s : State) (k : Fin 1088) (cycles ready : Nat) : s.rateWrite k cycles ready =
    (s.rateCount k cycles).setFld F.TILE_RATE_ACH_PERMILLE (min 1023 (ready * 1000 / (s.colFreq (tileCol k) * 100))) k := by
  have hcol : regHas .PWR_COL (tileCol k) 0 := ⟨show k.val / 32 < 34 by omega, Nat.one_pos⟩
  have hf : (s.rateCount k cycles).colFreq (tileCol k) = s.colFreq (tileCol k) :=
    colFreq_congr (onlyRegs_cols (onlyRegs_setFld_setFld ..))
      (fld_of_keeps (f := F.PWR_COL_CUR_OP) (rateCount_keeps s k cycles) hcol (by simp))
  rw [← hf]
  rfl

theorem rateWrite_onlyRegs (s : State) (k cycles ready : Nat) : s.onlyRegs (s.rateWrite k cycles ready) :=
  onlyRegs_trans (onlyRegs_setFld_setFld ..) (onlyRegs_setFld ..)

theorem rateWrite_keeps (s : State) (k : Fin 1088) (cycles ready : Nat) :
    s.keeps (s.rateWrite k cycles ready) [(.TILE_RATE, k.val, 0)] := by
  rw [rateWrite_eq]
  exact keeps_mono (keeps_trans (rateCount_keeps s k cycles) (keeps_setFld _ F.TILE_RATE_ACH_PERMILLE _ ⟨k.isLt, Nat.one_pos⟩))
    (by simp)

/-- The fields of TILE_RATE after a window (R138): the share achieved is taken of the column's frequency. -/
theorem rateWrite_fields (s : State) (k : Fin 1088) (cycles ready : Nat) :
    (s.rateWrite k cycles ready).flag F.TILE_RATE_VALID k = true ∧
    (s.rateWrite k cycles ready).fld F.TILE_RATE_MHZ k = cycles / 100 % 2 ^ 11 ∧
    (s.rateWrite k cycles ready).fld F.TILE_RATE_ACH_PERMILLE k = min 1023 (ready * 1000 / (s.colFreq (tileCol k) * 100)) := by
  rw [rateWrite_eq]
  refine ⟨?_, ?_, ?_⟩
  · rw [flag_setFld_other _ _ _ _ (by rfl) (by decide) (by decide), State.rateCount,
      flag_setFld_other _ _ _ _ (by rfl) (by decide) (by decide), flag_setFld_same _ _ _ _ _ (by decide)]
    rfl
  · rw [State.fld_setFld_other _ _ _ _ (by rfl) (by decide) (by decide), State.rateCount,
      State.fld_setFld_same _ _ _ _ _ (by decide)]
  · rw [State.fld_setFld_same _ _ _ _ _ (by decide)]
    exact Nat.mod_eq_of_lt (Nat.lt_of_le_of_lt (Nat.min_le_left _ _) (by decide))

/-- The end of a window of one tile: TILE_RATE, then each crew is judged (R138, R218). -/
def State.rateWindow (s : State) (k cycles ready : Nat) : State :=
  let u := s.rateWrite k cycles ready
  (u.crews.map (·.1)).foldl (fun u c => u.judgeCrew c [k]) u

theorem rateWindow_sameStores (s : State) (k cycles ready : Nat) :
    (s.rateWrite k cycles ready).sameStores (s.rateWindow k cycles ready) :=
  foldl_rel sameStores_refl sameStores_trans (judgeCrew_sameStores [k]) _ _

theorem exec_tileRateWindow {s : State} (dt : Nat) {k : Fin 1088} (cycles ready : Nat) (ho : s.colOpen (tileCol k) = true) :
    exec (.tileRateWindow dt [(k, cycles, ready)]) s = .next ((s.tick dt).rateWindow k cycles ready) := by
  have hw : [(k, cycles, ready)].filter (fun q => (s.tick dt).colOpen (tileCol q.1)) = [(k, cycles, ready)] :=
    List.filter_cons_of_pos ho
  change execTileRateWindow dt [(k, cycles, ready)] s = _
  rw [execTileRateWindow, hw]
  rfl

/-- A window leaves TILE_RATE of its tile, and changes no other register and no memory (R138). -/
theorem rateWindow_leaves (s : State) (k : Fin 1088) (cycles ready : Nat) :
    (s.rateWindow k cycles ready).flag F.TILE_RATE_VALID k = true ∧
    (s.rateWindow k cycles ready).fld F.TILE_RATE_MHZ k = cycles / 100 % 2 ^ 11 ∧
    (s.rateWindow k cycles ready).fld F.TILE_RATE_ACH_PERMILLE k = min 1023 (ready * 1000 / (s.colFreq (tileCol k) * 100)) ∧
    s.keeps (s.rateWindow k cycles ready) [(.TILE_RATE, k, 0)] ∧ s.sameMemory (s.rateWindow k cycles ready) := by
  obtain ⟨hregs, hdepot, hhbm⟩ := rateWindow_sameStores s k cycles ready
  obtain ⟨hvalid, hmhz, hach⟩ := rateWrite_fields s k cycles ready
  have hmem : s.onlyRegs (s.rateWrite k cycles ready) := rateWrite_onlyRegs s k cycles ready
  exact ⟨(flag_congr (State.fld_congr hregs ..)).trans hvalid, (State.fld_congr hregs ..).trans hmhz,
    (State.fld_congr hregs ..).trans hach, keeps_trans (rateWrite_keeps s k cycles ready) (keeps_of_regs [] hregs),
    sameMemory_of_stores (hdepot.trans (onlyRegs_depot hmem)) (hhbm.trans (onlyRegs_hbm hmem))⟩

/-- The converted diode temperature of tile `k` (R468). -/
def State.senseTemp (s : State) (k : Nat) (temp : Int) : Int := temp + s.calApplied (calKey 4 k)

/-- The two sensor members of tile `k` at the converted temperature `c` (R139, R474). -/
def State.senseCal (s : State) (k : Nat) (c : Int) : State :=
  (s.setCal (calKey 4 k) { s.calInst (calKey 4 k) with temp := c }).setCal (calKey 5 (49 + k))
    { s.calInst (calKey 5 (49 + k)) with temp := c }

/-- The voltage member applies its code at the converted temperature. -/
theorem senseCal_applied (s : State) (k : Nat) (c : Int) : (s.senseCal k c).calApplied (calKey 5 (49 + k)) =
    calCode (calKey 5 (49 + k)) (s.calInst (calKey 5 (49 + k))).activeSets c := by
  have h : (s.senseCal k c).calInst (calKey 5 (49 + k)) = { s.calInst (calKey 5 (49 + k)) with temp := c } :=
    mapGet_mapSet_same cal0 _ _ _
  rw [State.calApplied, h]
  rfl

/-- TILE_SENSE after a conversion (R139). -/
def State.senseWrite (s : State) (k : Nat) (c : Int) (v : Nat) : State :=
  ((s.setFld F.TILE_SENSE_VALID 1 k).setFld F.TILE_SENSE_TEMP (wrapTo 12 c) k).setFld F.TILE_SENSE_VOLT v k

theorem senseWrite_onlyRegs (s : State) (k : Nat) (c : Int) (v : Nat) : s.onlyRegs (s.senseWrite k c v) :=
  onlyRegs_trans (onlyRegs_setFld_setFld ..) (onlyRegs_setFld ..)

theorem senseWrite_keeps (s : State) (k : Fin 1088) (c : Int) (v : Nat) :
    s.keeps (s.senseWrite k c v) [(.TILE_SENSE, k.val, 0)] :=
  have hk : regHas .TILE_SENSE k 0 := ⟨k.isLt, Nat.one_pos⟩
  keeps_mono (keeps_trans (keeps_setFld_setFld (f := F.TILE_SENSE_VALID) (g := F.TILE_SENSE_TEMP) s _ _ rfl hk)
    (keeps_setFld _ F.TILE_SENSE_VOLT _ hk)) (by simp)

theorem wrapTo_lt (w : Nat) (x : Int) : wrapTo w x < 2 ^ w := by
  have h : (0 : Int) < (2 ^ w : Nat) := by exact_mod_cast Nat.two_pow_pos w
  have hlt := Int.emod_lt_of_pos x h
  unfold wrapTo
  omega

theorem senseWrite_fields (s : State) (k : Nat) (c : Int) {v : Nat} (hv : v < 2 ^ 10) :
    (s.senseWrite k c v).flag F.TILE_SENSE_VALID k = true ∧ (s.senseWrite k c v).fld F.TILE_SENSE_TEMP k = wrapTo 12 c ∧
    (s.senseWrite k c v).fld F.TILE_SENSE_VOLT k = v := by
  rw [State.senseWrite]
  refine ⟨?_, ?_, ?_⟩
  · rw [flag_setFld_other _ _ _ _ (by rfl) (by decide) (by decide), flag_setFld_other _ _ _ _ (by rfl) (by decide) (by decide),
      flag_setFld_same _ _ _ _ _ (by decide)]
    rfl
  · rw [State.fld_setFld_other _ _ _ _ (by rfl) (by decide) (by decide), State.fld_setFld_same _ _ _ _ _ (by decide)]
    exact Nat.mod_eq_of_lt (wrapTo_lt 12 c)
  · rw [State.fld_setFld_same _ _ _ _ _ (by decide)]
    exact Nat.mod_eq_of_lt hv

/-- A conversion's voltage code: the measured value, corrected and held to 10 bits (R139). -/
def senseVolt (x : Int) : Nat := (max 0 (min 1023 x)).toNat

theorem senseVolt_lt (x : Int) : senseVolt x < 2 ^ 10 := by unfold senseVolt; omega

theorem senseVolt_cast (x : Int) : (senseVolt x : Int) = max 0 (min 1023 x) := Int.toNat_of_nonneg (Int.le_max_left _ _)

theorem exec_tileSenseConvert {s : State} (dt : Nat) {k : Fin 1088} (temp volt : Int)
    (h3 : s.fld F.PWR_COL_STATE (tileCol k) ≠ 3) :
    exec (.tileSenseConvert dt k temp volt) s = .next (((s.tick dt).senseCal k (s.senseTemp k temp)).senseWrite k
      (s.senseTemp k temp) (senseVolt (volt + calCode (calKey 5 (49 + k)) (s.calInst (calKey 5 (49 + k))).activeSets
        (s.senseTemp k temp)))) := by
  have ha := senseCal_applied (s.tick dt) k (s.senseTemp k temp)
  refine (if_neg h3).trans ?_
  exact congrArg (fun x => Host.Outcome.next (((s.tick dt).senseCal k (s.senseTemp k temp)).senseWrite k
      (s.senseTemp k temp) (senseVolt (volt + x)))) ha

/-- A conversion fills TILE_SENSE with its corrected values (R139, R468). -/
theorem tileSenseConvert_next {s : State} (dt : Nat) {k : Fin 1088} (temp volt : Int)
    (h3 : s.fld F.PWR_COL_STATE (tileCol k) ≠ 3) : let c := temp + s.calApplied (calKey 4 k)
    let kv := calKey 5 (49 + k)
    ∃ t, exec (.tileSenseConvert dt k temp volt) s = .next t ∧ t.flag F.TILE_SENSE_VALID k = true ∧
      t.fld F.TILE_SENSE_TEMP k = wrapTo 12 c ∧
      (t.fld F.TILE_SENSE_VOLT k : Int) = max 0 (min 1023 (volt + calCode kv (s.calInst kv).activeSets c)) ∧
      s.keeps t [(.TILE_SENSE, k, 0)] ∧ t = { s.tick dt with regs := t.regs, cal := t.cal } := by
  intro c kv
  let u := (s.tick dt).senseCal k c
  let v := senseVolt (volt + calCode kv (s.calInst kv).activeSets c)
  obtain ⟨hvalid, htemp, hvolt⟩ := senseWrite_fields u k c (senseVolt_lt (volt + calCode kv (s.calInst kv).activeSets c))
  have hu : u.onlyRegs (u.senseWrite k c v) := senseWrite_onlyRegs u k c v
  have hcal : (u.senseWrite k c v).cal = u.cal := by rw [show u.senseWrite k c v = { u with regs := _ } from hu]
  refine ⟨u.senseWrite k c v, exec_tileSenseConvert dt temp volt h3, hvalid, htemp, ?_, senseWrite_keeps u k c v, ?_⟩
  · rw [hvolt, senseVolt_cast]
  · rw [hcal]
    exact hu

end Sys2Proof.Machine
end

section
/-! The measurement registers of the device (R39 to R43). -/
namespace Sys2Proof.Machine

/-- SEQ of the measurement registers steps by one, wrapping (R43). -/
def State.measSeq (s : State) : State := s.addWrap F.DEV_MEAS_SEQ_SEQ 1

/-- A measurement field takes a value, and its register's valid flag says so (R40 to R42). -/
def State.measPut (s : State) (value valid : Fld) (v i : Nat) : State := (s.setFld value v i).setFld valid 1 i

/-- One half of DEV_MEAS_HBM register `i`: its value where there is one, and whether there is (R42). -/
def State.measHalf (s : State) (value valid : Fld) (ok : Bool) (v i : Nat) : State :=
  (if ok then s.setFld value v i else s).setFld valid (if ok then 1 else 0) i

/-- The half of stack `k` in DEV_MEAS_HBM, from its bytes and the nanoseconds of saturated time (R42). -/
def State.measStack (hbm : List (Nat × Nat)) (s : State) (k : Nat) : State :=
  let ok := decide (1000000 ≤ (hbm.getD k (0, 0)).2)
  let v := min ((hbm.getD k (0, 0)).1 * 10000 / (11776 * (hbm.getD k (0, 0)).2)) 1023
  if k % 2 = 0 then s.measHalf F.DEV_MEAS_HBM_LO_MILLI F.DEV_MEAS_HBM_LO_VALID ok v (k / 2)
  else s.measHalf F.DEV_MEAS_HBM_HI_MILLI F.DEV_MEAS_HBM_HI_VALID ok v (k / 2)

/-- The measurement registers but SEQ (R40 to R42). -/
def State.measBody (s : State) (energy move : Nat) (hbm : List (Nat × Nat)) : State :=
  (List.range 4).foldl (State.measStack hbm) ((s.measPut F.DEV_MEAS_ENERGY_FJ_PER_CELL F.DEV_MEAS_ENERGY_VALID energy 0).measPut
    F.DEV_MEAS_MOVE_RATIO_MILLI F.DEV_MEAS_MOVE_VALID move 0)

theorem exec_measUpdate (s : State) (dt fj : Nat) {cells : Nat} (achieved : Nat) {compulsory : Nat} (hbm : List (Nat × Nat))
    (hc : cells ≠ 0) (hm : compulsory ≠ 0) :
    exec (.measUpdate dt fj cells achieved compulsory hbm) s = .next ((s.tick dt).measSeq.measBody
      (min (fj / cells) 0xFFFF) (min (achieved * 1000 / compulsory) 0xFFFF) hbm).measSeq := by
  change execMeasUpdate dt fj cells achieved compulsory hbm s = _
  rw [execMeasUpdate]
  simp only [if_neg hc, if_neg hm]
  rfl

theorem measSeq_fld (s : State) : s.measSeq.fld F.DEV_MEAS_SEQ_SEQ = (s.fld F.DEV_MEAS_SEQ_SEQ + 1) % 2 ^ 32 :=
  State.fld_setFld_same s F.DEV_MEAS_SEQ_SEQ _ 0 0 (by decide)

theorem measSeq_keeps (s : State) : s.keeps s.measSeq [(.DEV_MEAS_SEQ, 0, 0)] :=
  keeps_setFld s F.DEV_MEAS_SEQ_SEQ _ ⟨Nat.one_pos, Nat.one_pos⟩

theorem measPut_onlyRegs (s : State) (value valid : Fld) (v i : Nat) : s.onlyRegs (s.measPut value valid v i) :=
  onlyRegs_setFld_setFld ..

theorem measPut_keeps (s : State) {value valid : Fld} (v : Nat) {i : Nat} (hr : valid.reg = value.reg) (hi : regHas value.reg i 0) :
    s.keeps (s.measPut value valid v i) [(value.reg, i, 0)] :=
  keeps_setFld_setFld s v 1 hr hi

/-- The value and the valid flag above it read back as put. -/
theorem measPut_fields (s : State) {value valid : Fld} {v : Nat} (i : Nat) (hr : value.reg = valid.reg)
    (hlo : value.lo + value.w ≤ valid.lo) (hf : valid.lo + 1 ≤ 64) (hw : valid.w = 1) (hv : v < 2 ^ value.w) :
    (s.measPut value valid v i).flag valid i = true ∧ (s.measPut value valid v i).fld value i = v := by
  rw [State.measPut]
  constructor
  · rw [flag_setFld_same _ _ _ _ _ (by omega), hw]
    rfl
  · rw [State.fld_setFld_other _ _ _ _ hr (by omega) (.inl hlo), State.fld_setFld_same _ _ _ _ _ (by omega)]
    exact Nat.mod_eq_of_lt hv

theorem measHalf_onlyRegs (s : State) (value valid : Fld) (ok : Bool) (v i : Nat) : s.onlyRegs (s.measHalf value valid ok v i) := by
  cases ok
  · exact onlyRegs_setFld s valid 0 i 0
  · exact measPut_onlyRegs s value valid v i

theorem measHalf_keeps (s : State) {value valid : Fld} (ok : Bool) (v : Nat) {i : Nat} (hr : valid.reg = value.reg)
    (hi : regHas value.reg i 0) : s.keeps (s.measHalf value valid ok v i) [(value.reg, i, 0)] := by
  cases ok
  · exact hr ▸ keeps_setFld s valid 0 (hr ▸ hi)
  · exact measPut_keeps s v hr hi

theorem measHalf_valid (s : State) (value valid : Fld) (ok : Bool) (v i : Nat) (hf : valid.lo + valid.w ≤ 64) (hw : valid.w = 1) :
    (s.measHalf value valid ok v i).flag valid i = ok := by
  rw [State.measHalf, flag_setFld_same _ _ _ _ _ hf, hw]
  cases ok <;> rfl

theorem measStack_onlyRegs (hbm : List (Nat × Nat)) (s : State) (k : Nat) : s.onlyRegs (s.measStack hbm k) := by
  unfold State.measStack
  extract_lets
  split <;> exact measHalf_onlyRegs ..

theorem measStack_keeps (hbm : List (Nat × Nat)) (s : State) {k : Nat} (hk : k < 4) :
    s.keeps (s.measStack hbm k) [(.DEV_MEAS_HBM, k / 2, 0)] := by
  have hi : regHas .DEV_MEAS_HBM (k / 2) 0 := ⟨show k / 2 < 2 by omega, Nat.one_pos⟩
  unfold State.measStack
  extract_lets
  split
  · exact measHalf_keeps (value := F.DEV_MEAS_HBM_LO_MILLI) s _ _ rfl hi
  · exact measHalf_keeps (value := F.DEV_MEAS_HBM_HI_MILLI) s _ _ rfl hi

theorem measStacks_keeps (hbm : List (Nat × Nat)) (l : List Nat) (hl : ∀ k ∈ l, k < 4) (s : State) :
    s.keeps (l.foldl (State.measStack hbm) s) (l.map fun k => (.DEV_MEAS_HBM, k / 2, 0)) :=
  foldl_keeps (f := State.measStack hbm) (fun k => (.DEV_MEAS_HBM, k / 2, 0)) l (fun k hk u => measStack_keeps hbm u (hl k hk)) s

/-- The halves of a DEV_MEAS_HBM register lie apart. -/
theorem measHalf_high_leaves_low_valid (s : State) (ok : Bool) (v i : Nat) :
    (s.measHalf F.DEV_MEAS_HBM_HI_MILLI F.DEV_MEAS_HBM_HI_VALID ok v i).flag F.DEV_MEAS_HBM_LO_VALID i =
      s.flag F.DEV_MEAS_HBM_LO_VALID i := by
  rw [State.measHalf, flag_setFld_other _ _ _ _ (by rfl) (by decide) (by decide)]
  cases ok
  · rfl
  · exact flag_setFld_other _ _ _ _ rfl (by decide) (by decide)

/-- Whether stack 0 was saturated for long enough stands in LO_VALID of the first register: stack 1 writes the other half, stacks 2 and 3
the other register (R42). -/
theorem measStacks_valid (hbm : List (Nat × Nat)) (s : State) :
    ((List.range 4).foldl (State.measStack hbm) s).flag F.DEV_MEAS_HBM_LO_VALID = decide (1000000 ≤ (hbm.getD 0 (0, 0)).2) := by
  have hrest : ((s.measStack hbm 0).measStack hbm 1).keeps ((List.range 4).foldl (State.measStack hbm) s)
      [(.DEV_MEAS_HBM, 1, 0), (.DEV_MEAS_HBM, 1, 0)] :=
    measStacks_keeps hbm [2, 3] (by decide) ((s.measStack hbm 0).measStack hbm 1)
  calc ((List.range 4).foldl (State.measStack hbm) s).flag F.DEV_MEAS_HBM_LO_VALID
      = ((s.measStack hbm 0).measStack hbm 1).flag F.DEV_MEAS_HBM_LO_VALID :=
        flag_of_keeps hrest ⟨by decide, by decide⟩ (by decide)
    _ = (s.measStack hbm 0).flag F.DEV_MEAS_HBM_LO_VALID := measHalf_high_leaves_low_valid ..
    _ = decide (1000000 ≤ (hbm.getD 0 (0, 0)).2) := measHalf_valid _ _ _ _ _ _ (by decide) rfl

theorem measBody_onlyRegs (s : State) (energy move : Nat) (hbm : List (Nat × Nat)) : s.onlyRegs (s.measBody energy move hbm) :=
  onlyRegs_trans (measPut_onlyRegs ..) <| onlyRegs_trans (measPut_onlyRegs ..)
    (foldl_rel onlyRegs_refl onlyRegs_trans (measStack_onlyRegs hbm) _ _)

section
variable (s : State) (energy move : Nat) (hbm : List (Nat × Nat))

/-- DEV_MEAS_ENERGY is written first. -/
theorem measEnergy_keeps :
    s.keeps (s.measPut F.DEV_MEAS_ENERGY_FJ_PER_CELL F.DEV_MEAS_ENERGY_VALID energy 0) [(.DEV_MEAS_ENERGY, 0, 0)] :=
  measPut_keeps s energy rfl ⟨Nat.one_pos, Nat.one_pos⟩

theorem measMove_keeps : s.keeps (s.measPut F.DEV_MEAS_MOVE_RATIO_MILLI F.DEV_MEAS_MOVE_VALID move 0) [(.DEV_MEAS_MOVE, 0, 0)] :=
  measPut_keeps s move rfl ⟨Nat.one_pos, Nat.one_pos⟩

theorem measAllStacks_keeps : s.keeps ((List.range 4).foldl (State.measStack hbm) s)
    [(.DEV_MEAS_HBM, 0, 0), (.DEV_MEAS_HBM, 0, 0), (.DEV_MEAS_HBM, 1, 0), (.DEV_MEAS_HBM, 1, 0)] :=
  measStacks_keeps hbm (List.range 4) (fun _ => List.mem_range.1) s

theorem measBody_keeps : s.keeps (s.measBody energy move hbm)
    [(.DEV_MEAS_ENERGY, 0, 0), (.DEV_MEAS_MOVE, 0, 0), (.DEV_MEAS_HBM, 0, 0), (.DEV_MEAS_HBM, 1, 0)] :=
  keeps_mono (keeps_trans (measEnergy_keeps s energy) (keeps_trans (measMove_keeps _ move) (measAllStacks_keeps _ hbm))) (by decide)

/-- The fields of the measurement registers (R40 to R42). -/
theorem measBody_fields (he : energy < 2 ^ 16) (hm : move < 2 ^ 16) :
    let t := s.measBody energy move hbm
    t.flag F.DEV_MEAS_ENERGY_VALID = true ∧ t.fld F.DEV_MEAS_ENERGY_FJ_PER_CELL = energy ∧
    t.flag F.DEV_MEAS_MOVE_VALID = true ∧ t.fld F.DEV_MEAS_MOVE_RATIO_MILLI = move ∧
    t.flag F.DEV_MEAS_HBM_LO_VALID = decide (1000000 ≤ (hbm.getD 0 (0, 0)).2) := by
  intro t
  let u := s.measPut F.DEV_MEAS_ENERGY_FJ_PER_CELL F.DEV_MEAS_ENERGY_VALID energy 0
  let w := u.measPut F.DEV_MEAS_MOVE_RATIO_MILLI F.DEV_MEAS_MOVE_VALID move 0
  have hwt : w.keeps t _ := measAllStacks_keeps w hbm
  have hut : u.keeps t _ := keeps_trans (measMove_keeps u move) hwt
  have hE : regHas .DEV_MEAS_ENERGY 0 0 := ⟨Nat.one_pos, Nat.one_pos⟩
  have hM : regHas .DEV_MEAS_MOVE 0 0 := ⟨Nat.one_pos, Nat.one_pos⟩
  obtain ⟨hev, hef⟩ := measPut_fields s (value := F.DEV_MEAS_ENERGY_FJ_PER_CELL) (valid := F.DEV_MEAS_ENERGY_VALID) 0 rfl
    (by decide) (by decide) rfl he
  obtain ⟨hmv, hmf⟩ := measPut_fields u (value := F.DEV_MEAS_MOVE_RATIO_MILLI) (valid := F.DEV_MEAS_MOVE_VALID) 0 rfl
    (by decide) (by decide) rfl hm
  exact ⟨(flag_of_keeps (f := F.DEV_MEAS_ENERGY_VALID) hut hE (by decide)).trans hev,
    (fld_of_keeps (f := F.DEV_MEAS_ENERGY_FJ_PER_CELL) hut hE (by decide)).trans hef,
    (flag_of_keeps (f := F.DEV_MEAS_MOVE_VALID) hwt hM (by decide)).trans hmv,
    (fld_of_keeps (f := F.DEV_MEAS_MOVE_RATIO_MILLI) hwt hM (by decide)).trans hmf, measStacks_valid hbm w⟩

end

/-- An update steps SEQ before and after the measurement registers are written (R43). -/
theorem measUpdate_next (s : State) (dt fj : Nat) {cells : Nat} (achieved : Nat) {compulsory : Nat} (hbm : List (Nat × Nat))
    (hc : 0 < cells) (hm : 0 < compulsory) :
    ∃ t, exec (.measUpdate dt fj cells achieved compulsory hbm) s = .next t ∧
      t.fld F.DEV_MEAS_SEQ_SEQ = (s.fld F.DEV_MEAS_SEQ_SEQ + 2) % 2 ^ 32 ∧ t.flag F.DEV_MEAS_ENERGY_VALID = true ∧
      t.fld F.DEV_MEAS_ENERGY_FJ_PER_CELL = min (fj / cells) 0xFFFF ∧ t.flag F.DEV_MEAS_MOVE_VALID = true ∧
      t.fld F.DEV_MEAS_MOVE_RATIO_MILLI = min (achieved * 1000 / compulsory) 0xFFFF ∧
      (t.flag F.DEV_MEAS_HBM_LO_VALID 0 = true ↔ 1000000 ≤ (hbm.getD 0 (0, 0)).2) ∧
      s.keeps t [(.DEV_MEAS_SEQ, 0, 0), (.DEV_MEAS_ENERGY, 0, 0), (.DEV_MEAS_MOVE, 0, 0), (.DEV_MEAS_HBM, 0, 0), (.DEV_MEAS_HBM, 1, 0)] ∧
      t = { s.tick dt with regs := t.regs } := by
  let u := (s.tick dt).measSeq
  let e := min (fj / cells) 0xFFFF
  let m := min (achieved * 1000 / compulsory) 0xFFFF
  let b := u.measBody e m hbm
  have hbody : u.keeps b _ := measBody_keeps u e m hbm
  have hlast : b.keeps b.measSeq _ := measSeq_keeps b
  have hseq : b.fld F.DEV_MEAS_SEQ_SEQ = u.fld F.DEV_MEAS_SEQ_SEQ := fld_of_keeps hbody ⟨Nat.one_pos, Nat.one_pos⟩ (by decide)
  have hE : regHas .DEV_MEAS_ENERGY 0 0 := ⟨Nat.one_pos, Nat.one_pos⟩
  have hM : regHas .DEV_MEAS_MOVE 0 0 := ⟨Nat.one_pos, Nat.one_pos⟩
  obtain ⟨hev, hef, hmv, hmf, hlo⟩ := measBody_fields u e m hbm (by omega) (by omega)
  refine ⟨b.measSeq, exec_measUpdate s dt fj achieved hbm hc.ne' hm.ne', ?_,
    (flag_of_keeps (f := F.DEV_MEAS_ENERGY_VALID) hlast hE (by decide)).trans hev,
    (fld_of_keeps (f := F.DEV_MEAS_ENERGY_FJ_PER_CELL) hlast hE (by decide)).trans hef,
    (flag_of_keeps (f := F.DEV_MEAS_MOVE_VALID) hlast hM (by decide)).trans hmv,
    (fld_of_keeps (f := F.DEV_MEAS_MOVE_RATIO_MILLI) hlast hM (by decide)).trans hmf, ?_, ?_, ?_⟩
  · rw [measSeq_fld, hseq, measSeq_fld, Nat.mod_add_mod]
    rfl
  · rw [flag_of_keeps (f := F.DEV_MEAS_HBM_LO_VALID) hlast ⟨by decide, by decide⟩ (by decide), hlo, decide_eq_true_iff]
  · exact keeps_mono (keeps_trans (measSeq_keeps (s.tick dt)) (keeps_trans hbody hlast)) (by decide)
  · exact onlyRegs_trans (onlyRegs_setFld ..) (onlyRegs_trans (measBody_onlyRegs u e m hbm) (onlyRegs_setFld ..))

/-- Settles O30: each event writes the registers of its column, tile or device field by field, and leaves the others. -/
theorem columnsStartAndTilesReport : Obligations.ColumnsStartAndTilesReport := by
  intro dt s
  refine ⟨fun c hs h3 hg => ?_, fun k => ⟨fun h0 hl => ⟨dllLock_next dt h0 hl, ?_⟩, dllLockLoss_next dt,
    fun cycles ready ho => ?_, fun temp volt => tileSenseConvert_next dt temp volt⟩,
    fun fj cells achieved compulsory hbm hc hm => measUpdate_next s dt fj achieved hbm hc hm⟩
  · refine ⟨_, exec_columnPowerGood dt hs h3 hg, startCol_col (s.tick dt) c, startCol_locked (s.tick dt) c.isLt,
      fun r hr => ⟨?_, ?_⟩, fun j hj => ?_, startCol_keeps (s.tick dt) c.isLt, startCol_sameMemory (s.tick dt) c⟩
    · rw [startCol_tile, if_pos (by omega)]
    · exact startCol_powers (s.tick dt) c.isLt hr
    · -- `j` and its quotient are of type `Fin 34` here; `startCol_tile` says the same of every tile.
      have hn : j.val / 32 ≠ c.val := fun e => hj (Fin.ext e)
      rw [startCol_tile, if_neg hn]
      rfl
  · obtain ⟨htile, -⟩ := onlyRegs_setDll (onlyRegs_refl ((s.tick dt).setDll k 2))
    exact ⟨_, exec_dllLockTimeout dt h0 hl, htile, rfl⟩
  · exact ⟨_, exec_tileRateWindow dt cycles ready ho, rateWindow_leaves (s.tick dt) k cycles ready⟩

end Sys2Proof.Machine
end

section
/-! The stores of links, connections, odometers, trigger generators and crews: what a write leaves, and what reads them not at all. -/
namespace Sys2Proof.Machine

/-! ## States with one store read alike -/

section
variable {s t : State}

theorem link_congr (h : t.links = s.links) (l : Nat) : t.link l = s.link l := by rw [State.link, State.link, h]
theorem conn_congr (h : t.conns = s.conns) (c : Nat) : t.conn c = s.conn c := by rw [State.conn, State.conn, h]
theorem odo_congr (h : t.odos = s.odos) (u : Nat) : t.odo u = s.odo u := by rw [State.odo, State.odo, h]
theorem trigGen_congr (h : t.gens = s.gens) (g : Nat) : t.trigGen g = s.trigGen g := by rw [State.trigGen, State.trigGen, h]
theorem crew_congr (h : t.crews = s.crews) (u e : Nat) : t.crew u e = s.crew u e := by rw [State.crew, State.crew, h]

/-- A frame over registers looks at the register store alone. -/
theorem keeps_congr {r : State} {l : List (Reg × Nat × Nat)} (h : t.regs = s.regs) (hk : r.keeps s l) : r.keeps t l :=
  fun g i j hh hn => (State.reg_congr h g i j).trans (hk g i j hh hn)

end

section
variable (s : State)

/-! ## Reads after a write of the same store -/

theorem State.link_setLink_same (l : Nat) (x : Link) : (s.setLink l x).link l = x := mapGet_mapSet_same link0 s.links l x
theorem State.conn_setConn_same (c : Nat) (x : Conn) : (s.setConn c x).conn c = x := mapGet_mapSet_same conn0 s.conns c x
theorem State.odo_setOdo_same (u : Nat) (x : Odo) : (s.setOdo u x).odo u = x := mapGet_mapSet_same odo0 s.odos u x
theorem State.trigGen_setTrigGen_same (g : Nat) (x : TrigGen) : (s.setTrigGen g x).trigGen g = x :=
  mapGet_mapSet_same gen0 s.gens g x

theorem State.link_setLink_ne {l k : Nat} (x : Link) (h : k ≠ l) : (s.setLink l x).link k = s.link k :=
  mapGet_mapSet_ne link0 s.links x h
theorem State.conn_setConn_ne {c k : Nat} (x : Conn) (h : k ≠ c) : (s.setConn c x).conn k = s.conn k :=
  mapGet_mapSet_ne conn0 s.conns x h
theorem State.odo_setOdo_ne {u k : Nat} (x : Odo) (h : k ≠ u) : (s.setOdo u x).odo k = s.odo k := mapGet_mapSet_ne odo0 s.odos x h
theorem State.trigGen_setTrigGen_ne {g k : Nat} (x : TrigGen) (h : k ≠ g) : (s.setTrigGen g x).trigGen k = s.trigGen k :=
  mapGet_mapSet_ne gen0 s.gens x h

/-! ## Reads after time has passed -/

variable (dt : Nat)

@[simp] theorem State.link_tick (l : Nat) : (s.tick dt).link l = s.link l := link_congr rfl l
@[simp] theorem State.conn_tick (c : Nat) : (s.tick dt).conn c = s.conn c := conn_congr rfl c
@[simp] theorem State.odo_tick (u : Nat) : (s.tick dt).odo u = s.odo u := odo_congr rfl u
@[simp] theorem State.trigGen_tick (g : Nat) : (s.tick dt).trigGen g = s.trigGen g := trigGen_congr rfl g
@[simp] theorem State.flag_tick (f : Fld) (i j : Nat) : (s.tick dt).flag f i j = s.flag f i j := flag_congr (s.fld_tick f i j dt)
@[simp] theorem State.connState_tick (c : Nat) : (s.tick dt).connState c = s.connState c := s.fld_tick F.ING_CONN_CFG_STATE c 0 dt

theorem keeps_of_tick {s t : State} {dt : Nat} {l : List (Reg × Nat × Nat)} (h : (s.tick dt).keeps t l) : s.keeps t l :=
  fun g i j hh hn => (h g i j hh hn).trans (s.reg_tick g i j dt)

end

/-! ## What is written beside a store -/

section
variable {s t : State} (h : s.onlyRegs t)
include h
theorem onlyRegs_links : t.links = s.links := by rw [show t = { s with regs := t.regs } from h]
theorem onlyRegs_conns : t.conns = s.conns := by rw [show t = { s with regs := t.regs } from h]
theorem onlyRegs_odos : t.odos = s.odos := by rw [show t = { s with regs := t.regs } from h]
theorem onlyRegs_gens : t.gens = s.gens := by rw [show t = { s with regs := t.regs } from h]
end

section
variable (s : State)
theorem setLink_sameStores (l : Nat) (x : Link) : s.sameStores (s.setLink l x) := ⟨rfl, rfl, rfl⟩
theorem setConn_sameStores (c : Nat) (x : Conn) : s.sameStores (s.setConn c x) := ⟨rfl, rfl, rfl⟩
theorem setOdo_sameStores (u : Nat) (x : Odo) : s.sameStores (s.setOdo u x) := ⟨rfl, rfl, rfl⟩
theorem setTrigGen_sameStores (g : Nat) (x : TrigGen) : s.sameStores (s.setTrigGen g x) := ⟨rfl, rfl, rfl⟩
end

theorem keeps_of_sameStores {r s t : State} {l : List (Reg × Nat × Nat)} (h : s.sameStores t) (hk : r.keeps s l) : r.keeps t l :=
  keeps_congr h.1 hk

theorem fld_of_sameStores {s t : State} (h : s.sameStores t) (f : Fld) (i j : Nat) : t.fld f i j = s.fld f i j :=
  State.fld_congr h.1 f i j

theorem flag_of_sameStores {s t : State} (h : s.sameStores t) (f : Fld) (i j : Nat) : t.flag f i j = s.flag f i j :=
  flag_congr (fld_of_sameStores h f i j)

/-! ## A connection's state -/

theorem setConnState_onlyRegs (s : State) (c v : Nat) : s.onlyRegs (s.setConnState c v) := onlyRegs_setFld ..

theorem connState_setConnState (s : State) (c : Nat) {v : Nat} (hv : v < 8) : (s.setConnState c v).connState c = v :=
  (State.fld_setFld_same s F.ING_CONN_CFG_STATE v c 0 (by decide)).trans (Nat.mod_eq_of_lt hv)

theorem keeps_setConnState (s : State) {c : Nat} (v : Nat) (hc : c < 16) : s.keeps (s.setConnState c v) [(.ING_CONN_CFG, c, 0)] :=
  keeps_setFld s F.ING_CONN_CFG_STATE v ⟨hc, Nat.one_pos⟩

@[simp] theorem State.conn_setConnState (s : State) (c v k : Nat) : (s.setConnState c v).conn k = s.conn k :=
  conn_congr (onlyRegs_conns (setConnState_onlyRegs s c v)) k

/-- Connection `c` in state `v` with the rest of it at `x`. -/
def State.putConn (s : State) (c v : Nat) (x : Conn) : State := (s.setConnState c v).setConn c x

section
variable (s : State) {c v : Nat} (x : Conn)

theorem putConn_connState (hv : v < 8) : (s.putConn c v x).connState c = v :=
  (fld_of_sameStores (setConn_sameStores ..) ..).trans (connState_setConnState s c hv)

theorem putConn_conn : (s.putConn c v x).conn c = x := State.conn_setConn_same ..

theorem putConn_conn_ne {k : Nat} (hk : k ≠ c) : (s.putConn c v x).conn k = s.conn k :=
  (State.conn_setConn_ne _ x hk).trans (s.conn_setConnState c v k)

theorem putConn_keeps (hc : c < 16) : s.keeps (s.putConn c v x) [(.ING_CONN_CFG, c, 0)] :=
  keeps_of_sameStores (setConn_sameStores ..) (keeps_setConnState s v hc)

theorem putConn_frame : s.putConn c v x = { s with regs := (s.putConn c v x).regs, conns := (s.putConn c v x).conns } := by
  have h : s.setConnState c v = { s with regs := (s.setConnState c v).regs } := setConnState_onlyRegs s c v
  rw [State.putConn, h]
  rfl

end

/-! ## Folds -/

/-- What each step of a fold makes true of its own element, and no step undoes, is true of every element after it. -/
theorem foldl_establishes {σ α : Type} {P : σ → α → Prop} {f : σ → α → σ} (own : ∀ s x, P (f s x) x)
    (keep : ∀ s x y, P s y → P (f s x) y) (l : List α) (s : σ) {y : α} (hy : y ∈ l) : P (l.foldl f s) y := by
  have after (l : List α) (s : σ) (h : P s y) : P (l.foldl f s) y := by
    induction l generalizing s with
    | nil => exact h
    | cons x l ih => exact ih (f s x) (keep s x y h)
  induction l generalizing s with
  | nil => exact absurd hy List.not_mem_nil
  | cons x l ih =>
    obtain rfl | hy := List.mem_cons.1 hy
    · exact after l (f s y) (own s y)
    · exact ih (f s x) hy

end Sys2Proof.Machine
end

section
/-! A link that no connection holds is discovered (R45): each answer brings the next register's read, a third unanswered attempt the end. -/
namespace Sys2Proof.Machine

/-- Link `l` with its discovery at `d`. -/
def State.setDisc (s : State) (l : Nat) (d : Option LinkDisc) : State := s.setLink l { s.link l with disc := d }

theorem setDisc_link (s : State) (l : Nat) (d : Option LinkDisc) : (s.setDisc l d).link l = { s.link l with disc := d } :=
  s.link_setLink_same l _

theorem setDisc_tick_link (s : State) (dt l : Nat) (d : Option LinkDisc) :
    ((s.tick dt).setDisc l d).link l = { s.link l with disc := d } := by
  rw [setDisc_link, State.link_tick]

theorem setDisc_tick_link_ne (s : State) (dt : Nat) {l k : Nat} (d : Option LinkDisc) (h : k ≠ l) :
    ((s.tick dt).setDisc l d).link k = s.link k :=
  (State.link_setLink_ne _ _ h).trans (s.link_tick dt k)

section
variable {s : State} (dt : Nat) {l : Fin 64}

/-- A signal on a free, calibrated link starts its discovery (R45, R516). -/
theorem exec_linkSignalDetect (hc : s.linkCal l = true) (hn : (s.link l).conn = none) : exec (.linkSignalDetect dt l) s =
    .next (((s.tick dt).setDisc l (some ⟨0, 0, []⟩)).emit (.cxp l (.read 0))) := by
  have hc' : (s.tick dt).linkCal l = true := hc
  change execLinkSignalDetect dt l s = _
  unfold execLinkSignalDetect
  dsimp only
  rw [hc', if_neg (by decide)]
  split
  · rfl
  · next c hsome =>
    rw [State.link_tick, hn] at hsome
    exact absurd hsome (by simp)

/-- An answer to one of the first four reads is kept, and the next register is read (R45). -/
theorem exec_linkReply {d : LinkDisc} (v : Nat) (g : List (Fin 64)) (hd : (s.link l).disc = some d) (ht : d.txn < 4) :
    exec (.cxpControlReply dt (.link l v g)) s = .next (((s.tick dt).setDisc l (some ⟨d.txn + 1, 0, d.vals ++ [v]⟩)).emit
      (.cxp l (.read (d.txn + 1)))) := by
  change Host.Outcome.next ((s.tick dt).linkReply l v (g.map (·.val))) = _
  simp only [State.linkReply, State.link_tick, hd, ht, if_true, State.setDisc]

/-- An unanswered read is sent again; the third unanswered attempt ends the discovery (R45). -/
theorem exec_linkTimeout {d : LinkDisc} (hd : (s.link l).disc = some d) : exec (.cxpControlTimeout dt (.link l)) s =
    .next (if 2 ≤ d.tries then (s.tick dt).setDisc l none
      else ((s.tick dt).setDisc l (some { d with tries := d.tries + 1 })).emit (.cxp l (.read d.txn))) := by
  change execCxpControlTimeout dt (.link l) s = _
  simp only [execCxpControlTimeout, State.link_tick, hd, State.setDisc]
  exact (apply_ite Host.Outcome.next _ _ _).symm

theorem linkTimeout_next {d : LinkDisc} (hd : (s.link l).disc = some d) : ∃ t, exec (.cxpControlTimeout dt (.link l)) s = .next t ∧
    (t.link l).disc = (if 2 ≤ d.tries then none else some { d with tries := d.tries + 1 }) ∧
    t.out = s.out ++ (if 2 ≤ d.tries then [] else [.cxp l (.read d.txn)]) ∧ t.regs = s.regs ∧ s.sameMemory t := by
  refine ⟨_, exec_linkTimeout dt hd, ?_⟩
  by_cases h : 2 ≤ d.tries
  · simp only [if_pos h]
    exact ⟨congrArg Link.disc (setDisc_link (s.tick dt) l _), (List.append_nil _).symm, rfl, sameMemory_of_stores rfl rfl⟩
  · simp only [if_neg h]
    exact ⟨congrArg Link.disc ((link_congr rfl l).trans (setDisc_link (s.tick dt) l _)), rfl, rfl, sameMemory_of_stores rfl rfl⟩

end

end Sys2Proof.Machine
end

section
/-! A connection loses a link's lock, fails its discovery, or tries a lower speed (R45, R49). -/
namespace Sys2Proof.Machine

section
variable (s : State) (c : Nat) (m : CxpOut)

/-- Sending to a camera changes what has left the device, and nothing else. -/
theorem toCamera_sameStores : s.sameStores (s.toCamera c m) := by
  unfold State.toCamera
  split <;> exact ⟨rfl, rfl, rfl⟩

theorem toCamera_conn (k : Nat) : (s.toCamera c m).conn k = s.conn k := by
  refine conn_congr ?_ k
  unfold State.toCamera
  split <;> rfl

end

/-- A connection without an open segment begins its discovery again from the bootstrap registers (R49). -/
theorem rediscover_of_no_open {s : State} {c : Nat} (h : s.openSeg c = none) : s.rediscover c = (s.putConn c 1
    { s.conn c with step := .boot 0 [], tries := 0, runSince := none, stream := none }).toCamera c (.read 0) := by
  have hs : s.closeSeg c true = s := by simp only [State.closeSeg, h]
  rw [State.rediscover, hs, State.putConn]
  simp only [State.conn_setConnState]

theorem rediscover_leaves {s : State} {c : Nat} (hc : c < 16) (h : s.openSeg c = none) :
    (s.rediscover c).connState c = 1 ∧ ((s.rediscover c).conn c).step = .boot 0 [] ∧
    (∀ k, k ≠ c → (s.rediscover c).conn k = s.conn k) ∧ s.keeps (s.rediscover c) [(.ING_CONN_CFG, c, 0)] ∧
    s.sameMemory (s.rediscover c) := by
  let x : Conn := { s.conn c with step := .boot 0 [], tries := 0, runSince := none, stream := none }
  have hsame : (s.putConn c 1 x).sameStores (s.rediscover c) := rediscover_of_no_open h ▸ toCamera_sameStores ..
  have hconn (k : Nat) : (s.rediscover c).conn k = (s.putConn c 1 x).conn k := rediscover_of_no_open h ▸ toCamera_conn ..
  have ⟨_, hdepot, hhbm⟩ := hsame
  have hframe := putConn_frame s (c := c) (v := 1) x
  refine ⟨(fld_of_sameStores hsame ..).trans (putConn_connState s x (by decide)), ?_, fun k hk => ?_,
    keeps_of_sameStores hsame (putConn_keeps s x hc), sameMemory_of_stores ?_ ?_⟩
  · rw [hconn, putConn_conn]
  · rw [hconn, putConn_conn_ne s x hk]
  · rw [hdepot, hframe]
  · rw [hhbm, hframe]

section
variable {s : State} (dt : Nat)

theorem exec_linkLockLoss {l : Fin 64} {c : Nat} (hl : (s.link l).conn = some c) (hs : s.connState c = 2 ∨ s.connState c = 3) :
    exec (.linkLockLoss dt l) s = .next ((s.tick dt).rediscover c) := by
  change execLinkLockLoss dt l s = _
  simp only [execLinkLockLoss, State.link_tick, hl, State.connState_tick, if_pos hs]

variable {c : Fin 16}

/-- The third unanswered attempt of a connection's transaction ends its discovery: FAILED (R45). -/
theorem exec_connTimeout (hb : (s.conn c).step.busy = true) (ht : 2 ≤ (s.conn c).tries) :
    exec (.cxpControlTimeout dt (.conn c)) s =
      .next ((s.tick dt).putConn c 5 { s.conn c with step := .none, tries := 0 }) := by
  change execCxpControlTimeout dt (.conn c) s = _
  simp only [execCxpControlTimeout, State.conn_tick, hb, ht, Bool.not_true, Bool.false_eq_true, if_false, if_true, State.putConn]

theorem connTimeout_next (hb : (s.conn c).step.busy = true) (ht : 2 ≤ (s.conn c).tries) :
    ∃ t, exec (.cxpControlTimeout dt (.conn c)) s = .next t ∧ t.connState c = 5 ∧ (t.conn c).step = .none ∧
      (∀ k, k ≠ c.val → t.conn k = s.conn k) ∧ s.keeps t [(.ING_CONN_CFG, c, 0)] := by
  refine ⟨_, exec_connTimeout dt hb ht, putConn_connState _ _ (by decide), ?_, fun k hk => ?_, keeps_of_tick (putConn_keeps _ _ c.isLt)⟩
  · rw [putConn_conn]
  · rw [putConn_conn_ne _ _ hk, State.conn_tick]

/-- A failed lock goes one speed lower, down to CXP-1 (R45). -/
theorem exec_linkLockTimeout (hs : (s.conn c).step = .locking) : exec (.linkLockTimeout dt c) s =
    .next ((s.tick dt).setFld F.ING_CONN_CFG_SPEED (max 1 (s.fld F.ING_CONN_CFG_SPEED c - 1)) c) := by
  change execLinkLockTimeout dt c s = _
  simp only [execLinkLockTimeout, State.conn_tick, hs, if_true, State.fld_tick]

theorem linkLockTimeout_next (hs : (s.conn c).step = .locking) : ∃ t, exec (.linkLockTimeout dt c) s = .next t ∧
    t.fld F.ING_CONN_CFG_SPEED c = max 1 (s.fld F.ING_CONN_CFG_SPEED c - 1) ∧ s.keeps t [(.ING_CONN_CFG, c, 0)] ∧
    t = { s.tick dt with regs := t.regs } := by
  have hlt : s.fld F.ING_CONN_CFG_SPEED c < 2 ^ 4 := s.fld_lt F.ING_CONN_CFG_SPEED c 0
  refine ⟨_, exec_linkLockTimeout dt hs, ?_, keeps_of_tick (keeps_setFld _ F.ING_CONN_CFG_SPEED _ ⟨c.isLt, Nat.one_pos⟩),
    onlyRegs_setFld ..⟩
  rw [State.fld_setFld_same _ _ _ _ _ (by decide)]
  exact Nat.mod_eq_of_lt (show _ < 2 ^ 4 by omega)

end

end Sys2Proof.Machine
end

section
/-! A cable measurement (R54 to R56) and the end of discovery that waits for it (R45). -/
namespace Sys2Proof.Machine

/-- ING_LINK_TDR of link `l` with its four fields replaced together (R56). -/
def State.tdrRegs (s : State) (l kind loss dist : Nat) : State :=
  ((((s.setReg .ING_LINK_TDR 0 l).setFld F.ING_LINK_TDR_VALID 1 l).setFld F.ING_LINK_TDR_KIND kind l).setFld
    F.ING_LINK_TDR_LOSS_QDB loss l).setFld F.ING_LINK_TDR_DIST_CM dist l

theorem tdrRegs_onlyRegs (s : State) (l kind loss dist : Nat) : s.onlyRegs (s.tdrRegs l kind loss dist) :=
  have h : s.onlyRegs (s.setReg .ING_LINK_TDR 0 l) := rfl
  onlyRegs_trans h (onlyRegs_trans (onlyRegs_setFld_setFld ..) (onlyRegs_setFld_setFld ..))

theorem tdrRegs_keeps (s : State) {l : Nat} (kind loss dist : Nat) (hl : l < 64) :
    s.keeps (s.tdrRegs l kind loss dist) [(.ING_LINK_TDR, l, 0)] := by
  have h : regHas .ING_LINK_TDR l 0 := ⟨hl, Nat.one_pos⟩
  exact keeps_mono (keeps_trans (keeps_setReg s 0 h) (keeps_trans (keeps_setFld _ F.ING_LINK_TDR_VALID 1 h)
    (keeps_trans (keeps_setFld _ F.ING_LINK_TDR_KIND kind h) (keeps_trans (keeps_setFld _ F.ING_LINK_TDR_LOSS_QDB loss h)
      (keeps_setFld _ F.ING_LINK_TDR_DIST_CM dist h))))) (by simp)

theorem tdrRegs_valid (s : State) (l kind loss dist : Nat) : (s.tdrRegs l kind loss dist).flag F.ING_LINK_TDR_VALID l = true := by
  rw [State.tdrRegs, flag_setFld_other _ _ _ _ (by rfl) (by decide) (by decide), flag_setFld_other _ _ _ _ (by rfl) (by decide) (by decide),
    flag_setFld_other _ _ _ _ (by rfl) (by decide) (by decide), flag_setFld_same _ _ _ _ _ (by decide)]
  rfl

/-- A measurement ends on its link, and replaces the fields of its register (R56). -/
theorem tdrPut_eq (s : State) (l : Nat) (m : TdrMeas) : s.tdrPut l m =
    (s.setLink l { s.link l with tdr := false }).tdrRegs l (s.tdrFields m).1 m.loss (s.tdrFields m).2 := rfl

theorem tdrPut_keeps (s : State) {l : Nat} (m : TdrMeas) (hl : l < 64) : s.keeps (s.tdrPut l m) [(.ING_LINK_TDR, l, 0)] := by
  rw [tdrPut_eq]
  exact keeps_trans (keeps_of_sameStores (setLink_sameStores ..) (keeps_refl s [])) (tdrRegs_keeps _ _ _ _ hl)

theorem tdrPut_valid (s : State) (l : Nat) (m : TdrMeas) : (s.tdrPut l m).flag F.ING_LINK_TDR_VALID l = true := by
  rw [tdrPut_eq]
  exact tdrRegs_valid ..

theorem frame_of_setLink {s t : State} {l : Nat} {x : Link} (h : (s.setLink l x).onlyRegs t) :
    t = { s with regs := t.regs, links := t.links } := by
  rw [onlyRegs_links h]
  exact h

theorem tdrPut_frame (s : State) (l : Nat) (m : TdrMeas) :
    s.tdrPut l m = { s with regs := (s.tdrPut l m).regs, links := (s.tdrPut l m).links } :=
  frame_of_setLink (tdrRegs_onlyRegs ..)

/-- The one link of a connection has locked, with its first cable measurement (R45). -/
theorem exec_linkLock {s : State} (dt : Nat) {c : Fin 16} {l : Nat} (m : TdrMeas) (hs : (s.conn c).step = .locking)
    (hl : (s.conn c).links = [l]) : exec (.linkLock dt c [m]) s =
      .next (((s.tick dt).tdrPut l m).putConn c 2 { ((s.tick dt).tdrPut l m).conn c with step := .none }) := by
  change execLinkLock dt c [m] s = _
  simp only [execLinkLock, State.conn_tick, hs, if_true, hl, List.zip_cons_cons, List.zip_nil_right, List.foldl_cons, List.foldl_nil,
    State.putConn]

/-- A connection whose one link has locked is READY (R45). -/
theorem linkLock_next {s : State} (dt : Nat) {c : Fin 16} {l : Nat} (m : TdrMeas) (hs : (s.conn c).step = .locking) (hl64 : l < 64)
    (hl : (s.conn c).links = [l]) : ∃ t, exec (.linkLock dt c [m]) s = .next t ∧ t.connState c = 2 ∧
      t.conn c = { s.conn c with step := .none } ∧ t.flag F.ING_LINK_TDR_VALID l = true ∧ (∀ k, k ≠ c.val → t.conn k = s.conn k) ∧
      s.keeps t [(.ING_CONN_CFG, c, 0), (.ING_LINK_TDR, l, 0)] ∧
      t = { s.tick dt with regs := t.regs, links := t.links, conns := t.conns } := by
  let u := (s.tick dt).tdrPut l m
  let x : Conn := { u.conn c with step := .none }
  have hu : u = { s.tick dt with regs := u.regs, links := u.links } := tdrPut_frame ..
  have hconn (k : Nat) : u.conn k = s.conn k := conn_congr (by rw [hu]; rfl) k
  have hcfg : u.keeps (u.putConn c 2 x) [(.ING_CONN_CFG, c, 0)] := putConn_keeps u x c.isLt
  have ht : u.putConn c 2 x = { u with regs := _, conns := _ } := putConn_frame ..
  refine ⟨_, exec_linkLock dt m hs hl, putConn_connState u x (by decide), ?_, ?_, fun k hk => ?_, ?_, ?_⟩
  · rw [putConn_conn, hconn]
  · rw [flag_of_keeps (f := F.ING_LINK_TDR_VALID) hcfg ⟨hl64, Nat.one_pos⟩ (by simp)]
    exact tdrPut_valid ..
  · rw [putConn_conn_ne u x hk, hconn]
  · exact keeps_of_tick (keeps_mono (keeps_trans (tdrPut_keeps _ m hl64) hcfg) (by simp))
  · rw [ht, hu]

end Sys2Proof.Machine
end

section
/-! The final reply of a command (R361) looks neither at the connections nor at the memories, and changes none of them. -/
namespace Sys2Proof.Machine

/-- `s` with the connections, the depot and HBM of `r`. -/
def State.withStores (s r : State) : State := { s with conns := r.conns, depot := r.depot, hbm := r.hbm }

section
variable (s r : State)

theorem withStores_ite (p : Prop) [Decidable p] (a b : State) :
    (if p then a else b).withStores r = if p then a.withStores r else b.withStores r :=
  apply_ite (fun s : State => s.withStores r) p a b

theorem fld_withStores (f : Fld) (i j : Nat) : (s.withStores r).fld f i j = s.fld f i j := State.fld_congr rfl f i j

theorem setFld_withStores (f : Fld) (v i j : Nat) : (s.setFld f v i j).withStores r = (s.withStores r).setFld f v i j := by
  have h : (s.withStores r).reg f.reg i j = s.reg f.reg i j := State.reg_congr rfl ..
  rw [State.setFld, State.setFld, h]
  rfl

theorem cmdDone_withStores (q : Nat) : (s.cmdDone q).withStores r = (s.withStores r).cmdDone q := by
  rw [State.cmdDone, State.cmdDone, setFld_withStores, setFld_withStores, fld_withStores]

/-- A completion entry written, with its interrupt (R356). -/
def State.entryCq (q : Nat) (y : Reply) : State :=
  let x := s.queue q
  let a := s.fld F.CMD_CQ_BASE_ADDR q * 4096 + 32 * x.cqTail
  let wrap := decide (s.cqDepth q ≤ x.cqTail + 1)
  let t := (s.emit (.hostWrite (s.queueLink q) a (replyBytes y x.phase y.hdr.sqHead) false)).setQueue q
    { x with cqTail := if wrap then 0 else x.cqTail + 1, phase := x.phase != wrap, unread := x.unread + 1 }
  if s.flag F.CMD_Q_CFG_IEN q then t.emit (.msix (s.queueLink q) (s.fld F.CMD_Q_CFG_VEC q)) else t

theorem postCq_eq (q : Nat) (y : Reply) : s.postCq q y = if y.final then (s.entryCq q y).cmdDone q else s.entryCq q y := rfl

theorem entryCq_withStores (q : Nat) (y : Reply) : (s.entryCq q y).withStores r = (s.withStores r).entryCq q y := by
  rw [State.entryCq, withStores_ite]
  rfl

theorem postCq_withStores (q : Nat) (y : Reply) : (s.postCq q y).withStores r = (s.withStores r).postCq q y := by
  rw [postCq_eq, postCq_eq, withStores_ite, cmdDone_withStores, entryCq_withStores]

/-- A reply is the same whatever the connections and the memories hold. -/
theorem reply_withStores (h : CmdHdr) (st : Nat) (w : List Nat) : (s.reply h st w).withStores r = (s.withStores r).reply h st w := by
  unfold State.reply
  dsimp only
  cases h.src with
  | queue q =>
    dsimp only
    rw [withStores_ite, withStores_ite, cmdDone_withStores, postCq_withStores]
    rfl
  | net k o ip p => rfl
  | mc => rfl

end

/-- The answer to a pass-through transaction, or its absence, ends the transaction with a reply, and changes its connection alone. -/
theorem reply_setConn_leaves (s : State) (c : Nat) (x : Conn) (h : CmdHdr) (st : Nat) (w : List Nat) :
    let t := (s.setConn c x).reply h st w
    t.conn c = x ∧ t.out = (s.reply h st w).out ∧ (∀ k, k ≠ c → t.conn k = s.conn k) ∧ s.sameMemory t := by
  have ht : (s.setConn c x).reply h st w = (s.reply h st w).withStores (s.setConn c x) :=
    (reply_withStores s (s.setConn c x) h st w).symm
  have hconns : ((s.setConn c x).reply h st w).conns = (s.setConn c x).conns := by rw [ht]; rfl
  refine ⟨?_, by rw [ht]; rfl, fun k hk => ?_, sameMemory_of_stores (by rw [ht]; rfl) (by rw [ht]; rfl)⟩
  · exact (conn_congr hconns c).trans (s.conn_setConn_same c x)
  · exact (conn_congr hconns k).trans (s.conn_setConn_ne x hk)

section
variable {s : State} (dt : Nat) {c : Fin 16} {h : CmdHdr} {wr : Bool} (hc : (s.conn c).ctrl = some (h, wr))
include hc

/-- The camera's answer goes to the command that waits for it (R365). -/
theorem exec_passReply (ack : Nat) (data : List Byte) : exec (.cxpControlReply dt (.pass c ack data)) s =
    .next (((s.tick dt).setConn c { s.conn c with ctrl := none }).reply h 0 (ack :: if wr then [] else
      (List.range 4).map fun i => leNat ((data.drop (4 * i)).take 4))) := by
  change Host.Outcome.next ((s.tick dt).passReply c ack data) = _
  simp only [State.passReply, State.conn_tick, hc]

theorem exec_passTimeout : exec (.cxpControlTimeout dt (.pass c)) s =
    .next (((s.tick dt).setConn c { s.conn c with ctrl := none }).reply h 0x0306 []) := by
  change execCxpControlTimeout dt (.pass c) s = _
  simp only [execCxpControlTimeout, State.conn_tick, hc]

theorem passReply_next (ack : Nat) (data : List Byte) : ∃ t, exec (.cxpControlReply dt (.pass c ack data)) s = .next t ∧
    t.conn c = { s.conn c with ctrl := none } ∧
    t.out = ((s.tick dt).reply h 0 (ack :: if wr then [] else
      (List.range 4).map fun i => leNat ((data.drop (4 * i)).take 4))).out ∧
    (∀ k, k ≠ c.val → t.conn k = s.conn k) ∧ s.sameMemory t := by
  obtain ⟨hconn, hout, hothers, hmem⟩ := reply_setConn_leaves (s.tick dt) c { s.conn c with ctrl := none } h 0
    (ack :: if wr then [] else (List.range 4).map fun i => leNat ((data.drop (4 * i)).take 4))
  exact ⟨_, exec_passReply dt hc ack data, hconn, hout, fun k hk => (hothers k hk).trans (s.conn_tick dt k), hmem⟩

theorem passTimeout_next : ∃ t, exec (.cxpControlTimeout dt (.pass c)) s = .next t ∧
    t.conn c = { s.conn c with ctrl := none } ∧ t.out = ((s.tick dt).reply h 0x0306 []).out ∧
    (∀ k, k ≠ c.val → t.conn k = s.conn k) ∧ s.sameMemory t := by
  obtain ⟨hconn, hout, hothers, hmem⟩ := reply_setConn_leaves (s.tick dt) c { s.conn c with ctrl := none } h 0x0306 []
  exact ⟨_, exec_passTimeout dt hc, hconn, hout, fun k hk => (hothers k hk).trans (s.conn_tick dt k), hmem⟩

end

end Sys2Proof.Machine
end

section
/-! An absent connection gives up its links and its number (R49). -/
namespace Sys2Proof.Machine

/-- Link `l` held by no connection and not in discovery. -/
def State.freeLink (s : State) (l : Nat) : State := s.setLink l { s.link l with conn := none, disc := none }

/-- Is link `l` held by no connection and not in discovery. -/
def State.linkFree (s : State) (l : Nat) : Prop := (s.link l).conn = none ∧ (s.link l).disc = none

theorem freeLink_frees (s : State) (l : Nat) : (s.freeLink l).linkFree l := by
  rw [State.linkFree, State.freeLink, State.link_setLink_same]
  exact ⟨rfl, rfl⟩

/-- A free link stays free while links are freed. -/
theorem freeLink_keeps_free (s : State) (l k : Nat) (h : s.linkFree k) : (s.freeLink l).linkFree k := by
  by_cases e : k = l
  · rw [e]
    exact freeLink_frees s l
  · rw [State.linkFree, State.freeLink, State.link_setLink_ne _ _ e]
    exact h

theorem freeLinks_free (ls : List Nat) (s : State) {k : Nat} (hk : k ∈ ls) : (ls.foldl State.freeLink s).linkFree k :=
  foldl_establishes (P := State.linkFree) freeLink_frees freeLink_keeps_free ls s hk

/-- `t` differs from `s` in its links alone. -/
def State.onlyLinks (s t : State) : Prop := t = { s with links := t.links }

theorem onlyLinks_trans {s t u : State} (h : s.onlyLinks t) (h' : t.onlyLinks u) : s.onlyLinks u := by
  rw [State.onlyLinks] at h h' ⊢
  rw [h', h]

theorem freeLink_onlyLinks (s : State) (l : Nat) : s.onlyLinks (s.freeLink l) := rfl

theorem freeLinks_onlyLinks (ls : List Nat) (s : State) : s.onlyLinks (ls.foldl State.freeLink s) :=
  foldl_rel (R := State.onlyLinks) (fun _ => rfl) onlyLinks_trans freeLink_onlyLinks ls s

/-- Connection `c` gone, once its links are freed (R49). -/
def State.clearConn (s : State) (c : Nat) (x : Conn) : State := (s.setReg .ING_CONN_CFG 0 c).setConn c x

theorem clearConn_frame (s : State) (c : Nat) (x : Conn) :
    s.clearConn c x = { s with regs := (s.clearConn c x).regs, conns := (s.clearConn c x).conns } := rfl

/-- The state that an absent connection leaves (R49). -/
def State.dropConn (s : State) (c : Nat) : State :=
  ((s.conn c).links.foldl State.freeLink s).clearConn c { conn0 with camTrigs := (s.conn c).camTrigs, nextId := (s.conn c).nextId }

theorem exec_connAbsentTimeout {s : State} (dt : Nat) {c : Fin 16} (hs : s.fld F.ING_CONN_CFG_STEERED c = 0) (h0 : s.connState c ≠ 0)
    (hg : (s.conn c).gv = false) (hx : (s.conn c).ctrl = none) :
    exec (.connAbsentTimeout dt c) s = .next ((s.tick dt).dropConn c) := by
  have hn : ¬(s.fld F.ING_CONN_CFG_STEERED c = 1 ∨ s.connState c = 0 ∨ (s.conn c).gv = true) := by simp [hs, h0, hg]
  change execConnAbsentTimeout dt c s = _
  simp only [execConnAbsentTimeout, State.fld_tick, State.connState_tick, State.conn_tick, if_neg hn, hx, State.dropConn]
  rfl

theorem dropConn_leaves (s : State) {c : Nat} (hc : c < 16) : let t := s.dropConn c
    t.reg .ING_CONN_CFG c = 0 ∧ t.conn c = { conn0 with camTrigs := (s.conn c).camTrigs, nextId := (s.conn c).nextId } ∧
    (∀ l ∈ (s.conn c).links, (t.link l).conn = none ∧ (t.link l).disc = none) ∧ (∀ k, k ≠ c → t.conn k = s.conn k) ∧
    s.keeps t [(.ING_CONN_CFG, c, 0)] ∧ t = { s with regs := t.regs, links := t.links, conns := t.conns } := by
  let x : Conn := { conn0 with camTrigs := (s.conn c).camTrigs, nextId := (s.conn c).nextId }
  obtain ⟨u, hu⟩ : ∃ u, u = (s.conn c).links.foldl State.freeLink s := ⟨_, rfl⟩
  have ht : s.dropConn c = u.clearConn c x := by rw [hu]; rfl
  have hlinks : s.onlyLinks u := hu ▸ freeLinks_onlyLinks _ s
  rw [State.onlyLinks] at hlinks
  have hconns : u.conns = s.conns := by rw [hlinks]
  have hregs : u.regs = s.regs := by rw [hlinks]
  dsimp only
  rw [ht]
  refine ⟨?_, State.conn_setConn_same .., fun l hl => ?_, fun k hk => ?_, ?_, ?_⟩
  · exact (State.reg_congr (setConn_sameStores ..).1 ..).trans (u.reg_setReg_same .ING_CONN_CFG 0 c 0)
  · have hfree : u.linkFree l := hu ▸ freeLinks_free _ s hl
    rw [show (u.clearConn c x).link l = u.link l from link_congr rfl l]
    exact hfree
  · exact (State.conn_setConn_ne _ _ hk).trans (conn_congr hconns k)
  · exact keeps_of_sameStores (setConn_sameStores ..) (keeps_trans (keeps_of_regs [] hregs) (keeps_setReg u 0 ⟨hc, Nat.one_pos⟩))
  · rw [clearConn_frame, hlinks]

/-- Settles O32: the discovery of a link answer by answer, and the ends of a connection's discovery, lock and presence. -/
theorem camerasAreFoundAndLost : Obligations.CamerasAreFoundAndLost := by
  intro dt s
  refine ⟨fun l => ⟨fun hc hn => ?_, fun c h16 hl hs ho => ?_, fun d v g hd ht => ?_, fun d hd => linkTimeout_next dt hd⟩,
    fun c => ⟨fun h wr ack data hc => ⟨passReply_next dt hc ack data, passTimeout_next dt hc⟩, connTimeout_next dt,
      fun hs => ⟨fun l m hl64 hl => linkLock_next dt m hs hl64 hl, linkLockTimeout_next dt hs⟩, fun hs h0 hg hx => ?_⟩⟩
  · exact ⟨_, exec_linkSignalDetect dt hc hn, setDisc_tick_link s dt l _, fun k hk => setDisc_tick_link_ne s dt _ hk, rfl⟩
  · obtain ⟨hstate, hstep, hothers, hkeeps, hmem⟩ := rediscover_leaves (s := s.tick dt) h16 ho
    exact ⟨_, exec_linkLockLoss dt hl hs, hstate, hstep, fun k hk => (hothers k hk).trans (s.conn_tick dt k), keeps_of_tick hkeeps, hmem⟩
  · exact ⟨_, exec_linkReply dt v g hd ht, setDisc_tick_link s dt l _, rfl⟩
  · obtain ⟨hreg, hconn, hlinks, hothers, hkeeps, hframe⟩ := dropConn_leaves (s.tick dt) c.isLt
    rw [State.conn_tick] at hconn hlinks
    exact ⟨_, exec_connAbsentTimeout dt hs h0 hg hx, hreg, hconn, hlinks, fun k hk => (hothers k hk).trans (s.conn_tick dt k),
      keeps_of_tick hkeeps, hframe⟩

end Sys2Proof.Machine
end

section
/-! Odometers (R58 to R60): what an accepted edge and a glitch leave. -/
namespace Sys2Proof.Machine

section
variable (s : State)

/-- The levels after a step of input A, of input B, of both, or of none (R59). -/
def State.odoLevels (u : Nat) (onA onB : Bool) : State :=
  let s := if onA then s.odoLevel u false else s
  if onB then s.odoLevel u true else s

theorem odoLevel_odo (u : Nat) (onB : Bool) :
    (s.odoLevel u onB).odo u = { s.odo u with a := (s.odo u).a != !onB, b := (s.odo u).b != onB } := by
  rw [State.odoLevel, State.odo_setOdo_same]
  cases onB <;> simp

theorem odoLevel_odo_ne {u k : Nat} (onB : Bool) (h : k ≠ u) : (s.odoLevel u onB).odo k = s.odo k := s.odo_setOdo_ne _ h

theorem odoLevels_odo (u : Nat) (onA onB : Bool) :
    (s.odoLevels u onA onB).odo u = { s.odo u with a := (s.odo u).a != onA, b := (s.odo u).b != onB } := by
  cases onA <;> cases onB <;> simp [State.odoLevels, odoLevel_odo]

theorem odoLevels_odo_ne {u k : Nat} (onA onB : Bool) (h : k ≠ u) : (s.odoLevels u onA onB).odo k = s.odo k := by
  cases onA <;> cases onB <;> simp [State.odoLevels, odoLevel_odo_ne, h]

theorem odoLevel_sameStores (u : Nat) (onB : Bool) : s.sameStores (s.odoLevel u onB) := setOdo_sameStores ..

theorem odoLevels_now (u : Nat) (onA onB : Bool) : (s.odoLevels u onA onB).now = s.now := by
  cases onA <;> cases onB <;> rfl

theorem odoLevels_sameStores (u : Nat) (onA onB : Bool) : s.sameStores (s.odoLevels u onA onB) := by
  cases onA <;> cases onB <;> exact ⟨rfl, rfl, rfl⟩

end

theorem sameMemory_trans {s t u : State} (h : s.sameMemory t) (h' : t.sameMemory u) : s.sameMemory u :=
  ⟨fun a => (h'.1 a).trans (h.1 a), fun a => (h'.2 a).trans (h.2 a)⟩

/-- `t` differs from `s` in its registers and its odometers alone. -/
def State.onlyOdoRegs (s t : State) : Prop := t = { s with regs := t.regs, odos := t.odos }

theorem onlyOdoRegs_trans {s t u : State} (h : s.onlyOdoRegs t) (h' : t.onlyOdoRegs u) : s.onlyOdoRegs u := by
  rw [State.onlyOdoRegs] at h h' ⊢
  rw [h', h]

theorem onlyOdoRegs_setOdo {s t : State} (h : s.onlyRegs t) (u : Nat) (x : Odo) : s.onlyOdoRegs (t.setOdo u x) := by
  rw [State.onlyRegs] at h
  rw [h]
  rfl

/-! ## Edges on an odometer that no generator counts on -/

/-- The generators that count on an odometer are those that their configuration names. -/
theorem gensOn_of_keeps {s t : State} {l : List (Reg × Nat × Nat)} (h : s.keeps t l) (hr : (Reg.ODO_SEG_CFG, 0, 0) ∉ l)
    (hg : ∀ g, (Reg.ODO_TG_CFG, g, 0) ∉ l) (u : Nat) : t.gensOn u = s.gensOn u := by
  have href : t.fld F.ODO_SEG_CFG_REFGEN = s.fld F.ODO_SEG_CFG_REFGEN := fld_of_keeps h ⟨Nat.one_pos, Nat.one_pos⟩ hr
  have hlt : s.fld F.ODO_SEG_CFG_REFGEN < 16 := s.fld_lt F.ODO_SEG_CFG_REFGEN 0 0
  unfold State.gensOn
  rw [href]
  refine List.filter_congr fun g hm => ?_
  have hg16 : g < 16 := by
    obtain rfl | hm := List.mem_cons.1 hm
    · exact hlt
    · exact List.mem_range.1 (List.mem_filter.1 hm).1
  rw [flag_of_keeps (f := F.ODO_TG_CFG_EN) h ⟨hg16, Nat.one_pos⟩ (hg g),
    fld_of_keeps (f := F.ODO_TG_CFG_ODO) h ⟨hg16, Nat.one_pos⟩ (hg g)]

/-- Odometer `u` with a reversal declared: REVERSED set, and no further reversal before the position has come back (R60). -/
def State.markReversed (s : State) (u : Nat) : State :=
  (s.setFld F.ODO_STAT_REVERSED 1 u).setOdo u { s.odo u with armed := false }

theorem markReversed_keeps (s : State) {u : Nat} (hu : u < 4) : s.keeps (s.markReversed u) [(.ODO_STAT, u, 0)] :=
  keeps_of_sameStores (setOdo_sameStores ..) (keeps_setFld s F.ODO_STAT_REVERSED 1 ⟨hu, Nat.one_pos⟩)

/-- A reversal closes the segments of the connections that count on the odometer; without any it is its mark alone. -/
theorem reversal_of_no_gens {s : State} {u : Nat} (hu : u < 4) (h : s.gensOn u = []) : s.reversal u = s.markReversed u := by
  have hg : (s.markReversed u).gensOn u = [] := (gensOn_of_keeps (markReversed_keeps s hu) (by simp) (by simp) u).trans h
  have hc : (s.markReversed u).connsOn u = [] := by simp [State.connsOn, hg]
  rw [State.markReversed] at hc
  rw [State.reversal, hc, State.markReversed]
  rfl

/-- The position after an edge (R58). -/
def State.nextPos (s : State) (u : Nat) (fwd : Bool) : Int := s.odoPos u + if fwd then 1 else -1

/-- ODO_EDGE_DT after an edge of an odometer that was at `x`: the interval, where an edge came before since it was enabled (R62). -/
def State.edgeGap (s : State) (u : Nat) (x : Odo) : State :=
  match x.edge with
  | some e => if 0 < x.edges then s.setFld F.ODO_EDGE_DT_DT_NS (min (s.now - e) 0xFFFFFFFF) u else s
  | none => s

theorem edgeGap_cases (s : State) (u : Nat) (x : Odo) :
    s.edgeGap u x = s ∨ ∃ v, s.edgeGap u x = s.setFld F.ODO_EDGE_DT_DT_NS v u := by
  unfold State.edgeGap
  split
  · split
    · exact .inr ⟨_, rfl⟩
    · exact .inl rfl
  · exact .inl rfl

theorem edgeGap_onlyRegs (s : State) (u : Nat) (x : Odo) : s.onlyRegs (s.edgeGap u x) := by
  obtain h | ⟨v, h⟩ := edgeGap_cases s u x
  · rw [h]
    exact onlyRegs_refl s
  · rw [h]
    exact onlyRegs_setFld ..

theorem edgeGap_keeps (s : State) {u : Nat} (x : Odo) (hu : u < 4) : s.keeps (s.edgeGap u x) [(.ODO_EDGE_DT, u, 0)] := by
  obtain h | ⟨v, h⟩ := edgeGap_cases s u x
  · rw [h]
    exact keeps_refl s _
  · rw [h]
    exact keeps_setFld s F.ODO_EDGE_DT_DT_NS v ⟨hu, Nat.one_pos⟩

/-- ODO_STAT after an edge: not stopped, with the direction (R58, R62). -/
def State.edgeStat (s : State) (u : Nat) (fwd : Bool) : State :=
  (s.setFld F.ODO_STAT_STOPPED 0 u).setFld F.ODO_STAT_DIR (if fwd then 0 else 1) u

theorem edgeStat_fields (s : State) (u : Nat) (fwd : Bool) : (s.edgeStat u fwd).flag F.ODO_STAT_STOPPED u = false ∧
    (s.edgeStat u fwd).fld F.ODO_STAT_DIR u = if fwd then 0 else 1 := by
  rw [State.edgeStat]
  constructor
  · rw [flag_setFld_other _ _ _ _ (by rfl) (by decide) (by decide), flag_setFld_same _ _ _ _ _ (by decide)]
    rfl
  · rw [State.fld_setFld_same _ _ _ _ _ (by decide)]
    cases fwd <;> rfl

theorem edgeStat_keeps (s : State) {u : Nat} (fwd : Bool) (hu : u < 4) : s.keeps (s.edgeStat u fwd) [(.ODO_STAT, u, 0)] :=
  keeps_setFld_setFld (f := F.ODO_STAT_STOPPED) (g := F.ODO_STAT_DIR) s _ _ rfl ⟨hu, Nat.one_pos⟩

/-- The registers of odometer `u` after an edge. -/
def State.edgeRegs (s : State) (u : Nat) (fwd : Bool) : State :=
  ((s.setFld F.ODO_POS_POS (wrapTo 64 (s.nextPos u fwd)) u).edgeGap u (s.odo u)).edgeStat u fwd

theorem edgeRegs_onlyRegs (s : State) (u : Nat) (fwd : Bool) : s.onlyRegs (s.edgeRegs u fwd) :=
  onlyRegs_trans (onlyRegs_trans (onlyRegs_setFld ..) (edgeGap_onlyRegs ..)) (onlyRegs_setFld_setFld ..)

theorem edgeRegs_keeps (s : State) {u : Nat} (fwd : Bool) (hu : u < 4) :
    s.keeps (s.edgeRegs u fwd) [(.ODO_POS, u, 0), (.ODO_EDGE_DT, u, 0), (.ODO_STAT, u, 0)] :=
  keeps_trans (keeps_trans (keeps_setFld s F.ODO_POS_POS _ ⟨hu, Nat.one_pos⟩) (edgeGap_keeps _ _ hu)) (edgeStat_keeps _ fwd hu)

theorem edgeRegs_pos (s : State) {u : Nat} (fwd : Bool) (hu : u < 4) :
    (s.edgeRegs u fwd).fld F.ODO_POS_POS u = wrapTo 64 (s.nextPos u fwd) := by
  let p := s.setFld F.ODO_POS_POS (wrapTo 64 (s.nextPos u fwd)) u
  have hk : p.keeps (s.edgeRegs u fwd) _ := keeps_trans (edgeGap_keeps p (s.odo u) hu) (edgeStat_keeps _ fwd hu)
  rw [fld_of_keeps (f := F.ODO_POS_POS) hk ⟨hu, Nat.one_pos⟩ (by simp), State.fld_setFld_same _ _ _ _ _ (by decide)]
  exact Nat.mod_eq_of_lt (wrapTo_lt 64 _)

/-- What an edge at `now` that brings the position to `pos` leaves of the odometer's state (R60). -/
def Odo.edgeAt (x : Odo) (now : Nat) (pos : Int) : Odo :=
  { x with edge := some now, edges := min 2 (x.edges + 1), high := max x.high pos, armed := x.armed || decide (x.high ≤ pos) }

/-- An edge counted, before a reversal. -/
def State.edgeCount (s : State) (u : Nat) (fwd : Bool) : State :=
  (s.edgeRegs u fwd).setOdo u ((s.odo u).edgeAt (s.edgeRegs u fwd).now (s.nextPos u fwd))

theorem edgeCount_odo (s : State) (u : Nat) (fwd : Bool) :
    (s.edgeCount u fwd).odo u = (s.odo u).edgeAt (s.edgeRegs u fwd).now (s.nextPos u fwd) := State.odo_setOdo_same ..

theorem edgeCount_sameStores (s : State) (u : Nat) (fwd : Bool) : (s.edgeRegs u fwd).sameStores (s.edgeCount u fwd) :=
  setOdo_sameStores ..

theorem edgeCount_keeps (s : State) {u : Nat} (fwd : Bool) (hu : u < 4) :
    s.keeps (s.edgeCount u fwd) [(.ODO_POS, u, 0), (.ODO_EDGE_DT, u, 0), (.ODO_STAT, u, 0)] :=
  keeps_of_sameStores (edgeCount_sameStores s u fwd) (edgeRegs_keeps s fwd hu)

/-- Does an edge declare a reversal: a backward one, armed, REV_EDGES or more below the high-water position (R60). -/
def State.edgeReverses (s : State) (u : Nat) (fwd : Bool) : Prop :=
  let t := s.edgeCount u fwd
  fwd = false ∧ (t.odo u).armed = true ∧ (t.odo u).high - s.nextPos u fwd ≥ t.fld F.ODO_CFG_REV_EDGES u

/-- A counted edge goes on to the generators that count on the odometer, and may declare a reversal (R60, R63). -/
theorem odoEdge_eq (s : State) (u : Nat) (fwd : Bool) : s.odoEdge u fwd =
    (let t := s.edgeCount u fwd
    if fwd then (t.gensOn u).foldl (fun s g => s.genForward u g) t
    else
      let r := (t.gensOn u).foldl (fun s g => s.unplan g) t
      if (r.odo u).armed = true ∧ (r.odo u).high - s.nextPos u fwd ≥ r.fld F.ODO_CFG_REV_EDGES u then r.reversal u else r) := rfl

theorem odoEdge_cases {s : State} {u : Nat} (fwd : Bool) (hu : u < 4) (h : s.gensOn u = []) :
    s.edgeReverses u fwd ∧ s.odoEdge u fwd = (s.edgeCount u fwd).markReversed u ∨
    ¬ s.edgeReverses u fwd ∧ s.odoEdge u fwd = s.edgeCount u fwd := by
  have hg : (s.edgeCount u fwd).gensOn u = [] := (gensOn_of_keeps (edgeCount_keeps s fwd hu) (by simp) (by simp) u).trans h
  have he := odoEdge_eq s u fwd
  dsimp only at he
  rw [hg, List.foldl_nil, List.foldl_nil, reversal_of_no_gens hu hg] at he
  rw [he]
  cases fwd with
  | true => exact .inr ⟨fun hr => absurd hr.1 (by decide), rfl⟩
  | false =>
    rw [if_neg (by decide)]
    by_cases hr : s.edgeReverses u false
    · exact .inl ⟨hr, if_pos hr.2⟩
    · exact .inr ⟨hr, if_neg fun h => hr ⟨rfl, h⟩⟩

/-- What an accepted edge leaves of odometer `u`, with or without a reversal. -/
structure Counted (s t : State) (u : Nat) (fwd : Bool) : Prop where
  pos : t.fld F.ODO_POS_POS u = wrapTo 64 (s.nextPos u fwd)
  moving : t.flag F.ODO_STAT_STOPPED u = false
  dir : t.fld F.ODO_STAT_DIR u = if fwd then 0 else 1
  levelA : (t.odo u).a = (s.odo u).a
  levelB : (t.odo u).b = (s.odo u).b
  high : (t.odo u).high = max (s.odo u).high (s.nextPos u fwd)
  others : ∀ k, k ≠ u → t.odo k = s.odo k
  keeps : s.keeps t [(.ODO_POS, u, 0), (.ODO_EDGE_DT, u, 0), (.ODO_STAT, u, 0)]
  frame : s.onlyOdoRegs t

theorem counted_edgeCount (s : State) {u : Nat} (fwd : Bool) (hu : u < 4) : Counted s (s.edgeCount u fwd) u fwd where
  pos := (fld_of_sameStores (edgeCount_sameStores ..) ..).trans (edgeRegs_pos s fwd hu)
  moving := (flag_of_sameStores (edgeCount_sameStores ..) ..).trans (edgeStat_fields _ u fwd).1
  dir := (fld_of_sameStores (edgeCount_sameStores ..) ..).trans (edgeStat_fields _ u fwd).2
  levelA := by rw [edgeCount_odo, Odo.edgeAt]
  levelB := by rw [edgeCount_odo, Odo.edgeAt]
  high := by rw [edgeCount_odo, Odo.edgeAt]
  others _ hk := (State.odo_setOdo_ne _ _ hk).trans (odo_congr (onlyRegs_odos (edgeRegs_onlyRegs s u fwd)) _)
  keeps := edgeCount_keeps s fwd hu
  frame := onlyOdoRegs_setOdo (edgeRegs_onlyRegs s u fwd) ..

theorem markReversed_odo (s : State) (u : Nat) : (s.markReversed u).odo u = { s.odo u with armed := false } := State.odo_setOdo_same ..

theorem counted_markReversed {s t : State} {u : Nat} {fwd : Bool} (hu : u < 4) (h : Counted s t u fwd) :
    Counted s (t.markReversed u) u fwd where
  pos := (fld_of_keeps (markReversed_keeps t hu) ⟨hu, Nat.one_pos⟩ (by simp)).trans h.pos
  moving := by
    rw [← h.moving, State.markReversed, flag_of_sameStores (setOdo_sameStores ..), flag_setFld_other _ _ _ _ (by rfl) (by decide) (by decide)]
  dir := by
    rw [← h.dir, State.markReversed, fld_of_sameStores (setOdo_sameStores ..),
      State.fld_setFld_other _ _ _ _ (by rfl) (by decide) (by decide)]
  levelA := by rw [markReversed_odo, h.levelA]
  levelB := by rw [markReversed_odo, h.levelB]
  high := by rw [markReversed_odo, h.high]
  others k hk := ((State.odo_setOdo_ne _ _ hk).trans (odo_congr (onlyRegs_odos (onlyRegs_setFld ..)) k)).trans (h.others k hk)
  keeps := keeps_mono (keeps_trans h.keeps (markReversed_keeps t hu)) (by simp)
  frame := onlyOdoRegs_trans h.frame (onlyOdoRegs_setOdo (onlyRegs_setFld ..) ..)

theorem counted_odoEdge {s : State} {u : Nat} (fwd : Bool) (hu : u < 4) (h : s.gensOn u = []) : Counted s (s.odoEdge u fwd) u fwd := by
  obtain ⟨-, he⟩ | ⟨-, he⟩ := odoEdge_cases fwd hu h
  · exact he ▸ counted_markReversed hu (counted_edgeCount s fwd hu)
  · exact he ▸ counted_edgeCount s fwd hu

/-- A backward edge REV_EDGES below the high-water position, where a reversal may be declared, declares it (R60). -/
theorem odoEdge_reverses {s : State} {u : Nat} (hu : u < 4) (h : s.gensOn u = []) (ha : (s.odo u).armed = true)
    (hb : s.fld F.ODO_CFG_REV_EDGES u ≤ max (s.odo u).high (s.nextPos u false) - s.nextPos u false) :
    (s.odoEdge u false).flag F.ODO_STAT_REVERSED u = true ∧ ((s.odoEdge u false).odo u).armed = false := by
  have hr : s.edgeReverses u false := by
    refine ⟨rfl, ?_, ?_⟩
    · rw [edgeCount_odo, Odo.edgeAt, ha, Bool.true_or]
    · rw [edgeCount_odo, fld_of_keeps (f := F.ODO_CFG_REV_EDGES) (edgeCount_keeps s false hu) ⟨hu, Nat.one_pos⟩ (by simp)]
      exact hb
  obtain ⟨-, he⟩ | ⟨hn, -⟩ := odoEdge_cases false hu h
  · rw [he, markReversed_odo, State.markReversed, flag_of_sameStores (setOdo_sameStores ..), flag_setFld_same _ _ _ _ _ (by decide)]
    exact ⟨rfl, rfl⟩
  · exact absurd hr hn

/-- An edge 20 ns or more after the last accepted one is accepted (R59). -/
theorem exec_encoderEdge {s : State} (dt : Nat) {u : Fin 4} (onB : Bool) (hen : s.flag F.ODO_CFG_EN u = true)
    (he : ∀ e, (s.odo u).edge = some e → 20 ≤ (s.now + dt) % 2 ^ 64 - e) : exec (.encoderEdge dt u onB) s =
      .next (((s.tick dt).odoLevel u onB).odoEdge u
        (stepForward (s.odo u).a (s.odo u).b onB (s.flag F.ODO_CFG_INVERT u))) := by
  have hen' : ((s.tick dt).odoLevel u onB).flag F.ODO_CFG_EN u = true :=
    (flag_of_sameStores (setOdo_sameStores ..) ..).trans ((s.flag_tick dt ..).trans hen)
  change execEncoderEdge dt u onB s = _
  simp only [execEncoderEdge, State.odo_tick, State.flag_tick, hen', Bool.not_true, Bool.false_eq_true, if_false]
  refine if_neg ?_
  cases hx : (s.odo u).edge with
  | none => exact Bool.false_ne_true
  | some e =>
    exact fun h => Nat.not_lt.2 (he e hx) (of_decide_eq_true h)

theorem nextPos_of_sameStores {s t : State} (h : s.sameStores t) (u : Nat) (fwd : Bool) : t.nextPos u fwd = s.nextPos u fwd := by
  rw [State.nextPos, State.nextPos, State.odoPos, State.odoPos, fld_of_sameStores h]

/-- An accepted edge on an odometer that no generator counts on (R58 to R60). -/
theorem encoderEdge_next {s : State} (dt : Nat) {u : Fin 4} (onB : Bool) {fwd : Bool} {pos : Int}
    (hf : stepForward (s.odo u).a (s.odo u).b onB (s.flag F.ODO_CFG_INVERT u) = fwd) (hp : s.nextPos u fwd = pos)
    (hen : s.flag F.ODO_CFG_EN u = true) (he : ∀ e, (s.odo u).edge = some e → 20 ≤ (s.now + dt) % 2 ^ 64 - e) (hg : s.gensOn u = []) :
    ∃ t, exec (.encoderEdge dt u onB) s = .next t ∧ t.fld F.ODO_POS_POS u = wrapTo 64 pos ∧ t.flag F.ODO_STAT_STOPPED u = false ∧
      t.fld F.ODO_STAT_DIR u = (if fwd then 0 else 1) ∧ (t.odo u).a = ((s.odo u).a != !onB) ∧ (t.odo u).b = ((s.odo u).b != onB) ∧
      (t.odo u).high = max (s.odo u).high pos ∧
      (fwd = false → (s.odo u).armed = true → s.fld F.ODO_CFG_REV_EDGES u ≤ max (s.odo u).high pos - pos →
        t.flag F.ODO_STAT_REVERSED u = true ∧ (t.odo u).armed = false) ∧ (∀ k, k ≠ u.val → t.odo k = s.odo k) ∧
      s.keeps t [(.ODO_POS, u, 0), (.ODO_EDGE_DT, u, 0), (.ODO_STAT, u, 0)] ∧ t = { s.tick dt with regs := t.regs, odos := t.odos } := by
  let w := (s.tick dt).odoLevel u onB
  have hsame : s.sameStores w := sameStores_trans ⟨rfl, rfl, rfl⟩ (odoLevel_sameStores (s.tick dt) u onB)
  have hodo : w.odo u = { s.odo u with a := (s.odo u).a != !onB, b := (s.odo u).b != onB } :=
    (odoLevel_odo ..).trans (by rw [State.odo_tick])
  have hkeep : s.keeps w [] := keeps_of_sameStores hsame (keeps_refl s [])
  have hgw : w.gensOn u = [] := (gensOn_of_keeps hkeep (by simp) (by simp) u).trans hg
  have hpw : w.nextPos u fwd = pos := (nextPos_of_sameStores hsame u fwd).trans hp
  have hc : Counted w (w.odoEdge u fwd) u fwd := counted_odoEdge fwd u.isLt hgw
  have hframe : (s.tick dt).onlyOdoRegs w := onlyOdoRegs_setOdo (onlyRegs_refl _) ..
  refine ⟨w.odoEdge u fwd, hf ▸ exec_encoderEdge dt onB hen he, hpw ▸ hc.pos, hc.moving, hc.dir, ?_, ?_, ?_, fun hf' ha hb => ?_,
    fun k hk => ?_, keeps_trans hkeep hc.keeps, onlyOdoRegs_trans hframe hc.frame⟩
  · rw [hc.levelA, hodo]
  · rw [hc.levelB, hodo]
  · rw [hc.high, hodo, hpw]
  · subst hf'
    refine odoEdge_reverses u.isLt hgw (by rw [hodo]; exact ha) ?_
    rw [hodo, hpw, fld_of_sameStores hsame]
    exact hb
  · rw [hc.others k hk, odoLevel_odo_ne _ onB hk, State.odo_tick]

end Sys2Proof.Machine
end

section
/-! Glitches, the end of suspicion, and stops (R59, R62). -/
namespace Sys2Proof.Machine

/-- A glitch of odometer `u` counted, with what the sliding window leaves of its state. -/
def State.glitchCount (s : State) (u : Nat) (x : Odo) : State := (s.inc F.ODO_STAT_GLITCHES u).setOdo u x

/-- FAULT of an odometer set, and reported (R59). -/
def State.glitchFault (s : State) (u : Nat) : State := (s.setFld F.ODO_STAT_FAULT 1 u).tell (.note 9 u)

/-- A glitch is counted and enters the window; where the count rises above the limit, FAULT is set and reported (R59). -/
theorem glitch_cases (s : State) (u : Nat) : ∃ x : Odo, (x.a = (s.odo u).a ∧ x.b = (s.odo u).b ∧ s.now ∈ x.glitches) ∧
    (s.glitch u = s.glitchCount u x ∨ s.glitch u = (s.glitchCount u x).glitchFault u) := by
  unfold State.glitch
  extract_lets x lim prior above ok t v
  refine ⟨{ x with glitches := prior ++ [t.now], over_ := above, suspect := x.suspect || above, okSince := if above then none else ok },
    ⟨rfl, rfl, ?_⟩, ?_⟩
  · rw [← s.inc_now F.ODO_STAT_GLITCHES u 0]
    exact List.mem_append_right prior (List.mem_singleton_self _)
  split
  · exact .inr rfl
  · exact .inl rfl

theorem glitchCount_leaves (s : State) {u : Nat} (x : Odo) (hu : u < 4) :
    (s.glitchCount u x).fld F.ODO_STAT_GLITCHES u = min (s.fld F.ODO_STAT_GLITCHES u + 1) 65535 ∧ (s.glitchCount u x).odo u = x ∧
    (∀ k, k ≠ u → (s.glitchCount u x).odo k = s.odo k) ∧ s.keeps (s.glitchCount u x) [(.ODO_STAT, u, 0)] ∧
    s.sameMemory (s.glitchCount u x) := by
  have hsame : (s.inc F.ODO_STAT_GLITCHES u).sameStores (s.glitchCount u x) := setOdo_sameStores ..
  have ⟨_, hdepot, hhbm⟩ := hsame
  exact ⟨(fld_of_sameStores hsame ..).trans (s.fld_inc_same F.ODO_STAT_GLITCHES u 0 (by decide)), State.odo_setOdo_same ..,
    fun k hk => (State.odo_setOdo_ne _ _ hk).trans (odo_congr (State.inc_odos ..) k),
    keeps_of_sameStores hsame (keeps_inc s F.ODO_STAT_GLITCHES ⟨hu, Nat.one_pos⟩),
    sameMemory_of_stores (hdepot.trans (State.inc_depot ..)) (hhbm.trans (State.inc_hbm ..))⟩

theorem glitchFault_leaves (s : State) {u : Nat} (hu : u < 4) :
    (s.glitchFault u).fld F.ODO_STAT_GLITCHES u = s.fld F.ODO_STAT_GLITCHES u ∧ (s.glitchFault u).odos = s.odos ∧
    s.keeps (s.glitchFault u) [(.ODO_STAT, u, 0)] ∧ (s.glitchFault u).depot = s.depot ∧ (s.glitchFault u).hbm = s.hbm := by
  have hk : s.keeps (s.setFld F.ODO_STAT_FAULT 1 u) [(.ODO_STAT, u, 0)] := keeps_setFld s F.ODO_STAT_FAULT 1 ⟨hu, Nat.one_pos⟩
  have hr : s.onlyRegs (s.setFld F.ODO_STAT_FAULT 1 u) := onlyRegs_setFld ..
  refine ⟨?_, (State.tell_odos ..).trans (onlyRegs_odos hr), keeps_congr (State.tell_regs ..) hk,
    (State.tell_depot ..).trans (onlyRegs_depot hr), (State.tell_hbm ..).trans (onlyRegs_hbm hr)⟩
  rw [State.glitchFault, State.fld_tell, State.fld_setFld_other _ _ _ _ (by rfl) (by decide) (by decide)]

theorem glitch_leaves (s : State) {u : Nat} (hu : u < 4) : let t := s.glitch u
    t.fld F.ODO_STAT_GLITCHES u = min (s.fld F.ODO_STAT_GLITCHES u + 1) 65535 ∧ (t.odo u).a = (s.odo u).a ∧ (t.odo u).b = (s.odo u).b ∧
    s.now ∈ (t.odo u).glitches ∧ (∀ k, k ≠ u → t.odo k = s.odo k) ∧ s.keeps t [(.ODO_STAT, u, 0)] ∧ s.sameMemory t := by
  obtain ⟨x, ⟨ha, hb, hg⟩, h⟩ := glitch_cases s u
  obtain ⟨hcount, hodo, hothers, hkeeps, hmem⟩ := glitchCount_leaves s x hu
  dsimp only
  obtain h | h := h
  · rw [h, hodo]
    exact ⟨hcount, ha, hb, hg, hothers, hkeeps, hmem⟩
  · obtain ⟨hcountF, hodosF, hkeepsF, hdepotF, hhbmF⟩ := glitchFault_leaves (s.glitchCount u x) hu
    rw [h, odo_congr hodosF, hodo]
    exact ⟨hcountF.trans hcount, ha, hb, hg, fun k hk => (odo_congr hodosF k).trans (hothers k hk),
      keeps_mono (keeps_trans hkeeps hkeepsF) (by simp), sameMemory_trans hmem (sameMemory_of_stores hdepotF hhbmF)⟩

section
variable {s : State} (dt : Nat) {u : Fin 4}

/-- A glitch keeps the new levels (R59). -/
theorem exec_encoderGlitch (onA onB : Bool) (hen : s.flag F.ODO_CFG_EN u = true) :
    exec (.encoderGlitch dt u onA onB) s = .next (((s.tick dt).odoLevels u onA onB).glitch u) := by
  have hen' : ((s.tick dt).odoLevels u onA onB).flag F.ODO_CFG_EN u = true :=
    (flag_of_sameStores (odoLevels_sameStores ..) ..).trans ((s.flag_tick dt ..).trans hen)
  exact congrArg Host.Outcome.next (if_pos hen')

theorem encoderGlitch_next (onA onB : Bool) (hen : s.flag F.ODO_CFG_EN u = true) : ∃ t, exec (.encoderGlitch dt u onA onB) s = .next t ∧
    t.fld F.ODO_STAT_GLITCHES u = min (s.fld F.ODO_STAT_GLITCHES u + 1) 65535 ∧ (t.odo u).a = ((s.odo u).a != onA) ∧
    (t.odo u).b = ((s.odo u).b != onB) ∧ (s.now + dt) % 2 ^ 64 ∈ (t.odo u).glitches ∧ (∀ k, k ≠ u.val → t.odo k = s.odo k) ∧
    s.keeps t [(.ODO_STAT, u, 0)] ∧ s.sameMemory t := by
  let w := (s.tick dt).odoLevels u onA onB
  have hsame : s.sameStores w := sameStores_trans ⟨rfl, rfl, rfl⟩ (odoLevels_sameStores (s.tick dt) u onA onB)
  have ⟨_, hdepot, hhbm⟩ := hsame
  have hodo : w.odo u = { s.odo u with a := (s.odo u).a != onA, b := (s.odo u).b != onB } :=
    (odoLevels_odo ..).trans (by rw [State.odo_tick])
  obtain ⟨hcount, ha, hb, hin, hothers, hkeeps, hmem⟩ := glitch_leaves w u.isLt
  refine ⟨w.glitch u, exec_encoderGlitch dt onA onB hen, ?_, ?_, ?_, ?_, fun k hk => ?_,
    keeps_trans (keeps_of_sameStores hsame (keeps_refl s [])) hkeeps, sameMemory_trans (sameMemory_of_stores hdepot hhbm) hmem⟩
  · rw [hcount, fld_of_sameStores hsame]
  · rw [ha, hodo]
  · rw [hb, hodo]
  · rw [odoLevels_now] at hin
    exact hin
  · rw [hothers k hk, odoLevels_odo_ne _ onA onB hk, State.odo_tick]

theorem exec_posSuspectEnd {d : Nat} (hd : s.glitchOkAt u = some d) (hx : (s.odo u).suspect = true)
    (hle : d + 1000000 ≤ (s.now + dt) % 2 ^ 64) : exec (.posSuspectEnd dt u) s =
      .next ((s.tick dt).setOdo u { s.odo u with suspect := false, over_ := false, okSince := none }) := by
  have hd' : (s.tick dt).glitchOkAt u = some d := hd
  change execPosSuspectEnd dt u s = _
  simp only [execPosSuspectEnd, hd']
  exact if_pos ⟨hx, hle⟩

/-- STOP_MS without an edge, or no edge at all, and the odometer has stopped (R62). -/
theorem exec_encoderStopTimeout (hen : s.flag F.ODO_CFG_EN u = true)
    (he : ∀ e, (s.odo u).edge = some e → e + s.fld F.ODO_CFG_STOP_MS u * 1000000 ≤ (s.now + dt) % 2 ^ 64) :
    exec (.encoderStopTimeout dt u) s = .next ((s.tick dt).setFld F.ODO_STAT_STOPPED 1 u) := by
  refine congrArg Host.Outcome.next (if_pos ?_)
  rw [Bool.and_eq_true]
  refine ⟨hen, ?_⟩
  change (match (s.odo u).edge with
    | some e => decide (e + s.fld F.ODO_CFG_STOP_MS u * 1000000 ≤ (s.now + dt) % 2 ^ 64)
    | none => true) = true
  cases hx : (s.odo u).edge with
  | none => rfl
  | some e => exact decide_eq_true (he e hx)

end

end Sys2Proof.Machine
end

section
/-! The access error log (R419, R544): which registers an entry writes. -/
namespace Sys2Proof.Machine

/-- The registers that an access error entry at place `n` writes. -/
def aelRegs (n : Nat) : List (Reg × Nat × Nat) :=
  [(.RAS_AEL0, n, 0), (.RAS_AEL1, n, 0), (.RAS_AEL2, n, 0), (.RAS_AEL3, n, 0), (.RAS_AEL_STAT, 0, 0), (.RAS_STAT, 0, 0)]

/-- The four words of an access error entry at place `n`. -/
def State.aelWords (s : State) (n w0 w1 w2 w3 : Nat) : State :=
  (((s.setReg .RAS_AEL0 w0 n).setReg .RAS_AEL1 w1 n).setReg .RAS_AEL2 w2 n).setReg .RAS_AEL3 w3 n

theorem aelWords_keeps (s : State) {n : Nat} (w0 w1 w2 w3 : Nat) (hn : n < 64) :
    s.keeps (s.aelWords n w0 w1 w2 w3) [(.RAS_AEL0, n, 0), (.RAS_AEL1, n, 0), (.RAS_AEL2, n, 0), (.RAS_AEL3, n, 0)] :=
  keeps_trans (keeps_setReg s w0 (g := .RAS_AEL0) ⟨hn, Nat.one_pos⟩) <|
    keeps_trans (keeps_setReg _ w1 (g := .RAS_AEL1) ⟨hn, Nat.one_pos⟩) <|
    keeps_trans (keeps_setReg _ w2 (g := .RAS_AEL2) ⟨hn, Nat.one_pos⟩) (keeps_setReg _ w3 (g := .RAS_AEL3) ⟨hn, Nat.one_pos⟩)

theorem onlyRegs_setReg (s : State) (g : Reg) (v i j : Nat) : s.onlyRegs (s.setReg g v i j) := rfl

theorem aelWords_onlyRegs (s : State) (n w0 w1 w2 w3 : Nat) : s.onlyRegs (s.aelWords n w0 w1 w2 w3) :=
  onlyRegs_trans (onlyRegs_trans (onlyRegs_trans (onlyRegs_setReg ..) (onlyRegs_setReg ..)) (onlyRegs_setReg ..)) (onlyRegs_setReg ..)

/-- The place of the next entry and the count after an entry at place `n`. -/
def State.aelCount (s : State) (n : Nat) : State := (s.setFld F.RAS_AEL_STAT_NEXT (n + 1)).inc F.RAS_AEL_STAT_TOTAL

theorem aelCount_keeps (s : State) (n : Nat) : s.keeps (s.aelCount n) [(.RAS_AEL_STAT, 0, 0)] :=
  have h : regHas .RAS_AEL_STAT 0 0 := ⟨Nat.one_pos, Nat.one_pos⟩
  keeps_mono (keeps_trans (keeps_setFld s F.RAS_AEL_STAT_NEXT (n + 1) h) (keeps_inc _ F.RAS_AEL_STAT_TOTAL h)) (by simp)

theorem aelCount_onlyRegs (s : State) (n : Nat) : s.onlyRegs (s.aelCount n) := onlyRegs_setFld_setFld ..

theorem aelReg_keeps (s : State) (r : Requester) (off kind status data : Nat) :
    s.keeps (s.aelReg r off kind status data) (aelRegs (s.fld F.RAS_AEL_STAT_NEXT)) := by
  have hn : s.fld F.RAS_AEL_STAT_NEXT < 64 := s.fld_lt F.RAS_AEL_STAT_NEXT 0 0
  rw [State.aelReg, State.ael]
  refine keeps_congr (State.logE_regs ..) ?_
  exact keeps_mono (keeps_trans (aelWords_keeps s _ _ _ _ hn) (keeps_trans (aelCount_keeps _ _)
    (keeps_setFld _ F.RAS_STAT_AEL 1 ⟨Nat.one_pos, Nat.one_pos⟩))) (by simp [aelRegs])

/-- An entry changes the registers of the log, and the AON log (R419). -/
theorem aelReg_leaves (s : State) (r : Requester) (off kind status data : Nat) : let t := s.aelReg r off kind status data
    t.odos = s.odos ∧ t.depot = s.depot ∧ t.hbm = s.hbm := by
  obtain ⟨u, hu, ht⟩ : ∃ u, s.onlyRegs u ∧ ∃ l, s.aelReg r off kind status data = u.logE 2 0xE003 l := by
    refine ⟨_, ?_, _, rfl⟩
    exact onlyRegs_trans (aelWords_onlyRegs s ..) (onlyRegs_trans (aelCount_onlyRegs _ _) (onlyRegs_setFld ..))
  obtain ⟨l, ht⟩ := ht
  dsimp only
  rw [ht]
  exact ⟨(State.logE_odos ..).trans (onlyRegs_odos hu), (State.logE_depot ..).trans (onlyRegs_depot hu),
    (State.logE_hbm ..).trans (onlyRegs_hbm hu)⟩

/-- An access that reaches its register is the register's own write. -/
theorem accessing_of_ok {s : State} {a n : Nat} {h : RegHit} (ha : s.access a n = .ok h) (r : Requester) (d : Nat)
    (k : RegHit → State) : s.accessing r a n d k = k h := by
  rw [State.accessing, ha]

end Sys2Proof.Machine
end

section
/-! A write of ODO_CFG (R61). -/
namespace Sys2Proof.Machine

/-- The word `n` with field `f` taken from `old` where the written word `v` holds 0 in it. -/
def Fld.unlessZero (f : Fld) (old v n : Nat) : Nat :=
  if bitsOf v f.lo f.w = 0 then putBits n f.lo f.w (bitsOf old f.lo f.w) else n

theorem bitsOf_unlessZero_same (f : Fld) (old v n : Nat) : bitsOf (f.unlessZero old v n) f.lo f.w =
    if bitsOf v f.lo f.w = 0 then bitsOf old f.lo f.w else bitsOf n f.lo f.w := by
  unfold Fld.unlessZero
  split
  · rw [bitsOf_putBits_same]
    exact Nat.mod_eq_of_lt (bitsOf_lt ..)
  · rfl

theorem bitsOf_unlessZero_apart {f : Fld} {lo w : Nat} (old v n : Nat) (h : lo + w ≤ f.lo ∨ f.lo + f.w ≤ lo) :
    bitsOf (f.unlessZero old v n) lo w = bitsOf n lo w := by
  unfold Fld.unlessZero
  split
  · exact bitsOf_putBits_ne _ _ _ _ _ _ h
  · rfl

/-- What a write of `v` leaves in ODO_CFG where it held `old` (R61). -/
def odoCfgWord (old v : Nat) : Nat :=
  putBits (F.ODO_CFG_GLITCH_LIM.unlessZero old v (F.ODO_CFG_REV_EDGES.unlessZero old v (F.ODO_CFG_STOP_MS.unlessZero old v v))) 24 6 0

/-- The three fields that are never 0 keep their value where 0 is written. -/
theorem odoCfgWord_ranged (old v : Nat) {f : Fld} (hf : f ∈ [F.ODO_CFG_GLITCH_LIM, F.ODO_CFG_REV_EDGES, F.ODO_CFG_STOP_MS]) :
    bitsOf (odoCfgWord old v) f.lo f.w = if bitsOf v f.lo f.w = 0 then bitsOf old f.lo f.w else bitsOf v f.lo f.w := by
  unfold odoCfgWord
  simp only [List.mem_cons, List.not_mem_nil, or_false] at hf
  obtain rfl | rfl | rfl := hf
  · rw [bitsOf_putBits_ne _ _ _ _ _ _ (by decide), bitsOf_unlessZero_same, bitsOf_unlessZero_apart _ _ _ (by decide),
      bitsOf_unlessZero_apart _ _ _ (by decide)]
  · rw [bitsOf_putBits_ne _ _ _ _ _ _ (by decide), bitsOf_unlessZero_apart _ _ _ (by decide), bitsOf_unlessZero_same,
      bitsOf_unlessZero_apart _ _ _ (by decide)]
  · rw [bitsOf_putBits_ne _ _ _ _ _ _ (by decide), bitsOf_unlessZero_apart _ _ _ (by decide),
      bitsOf_unlessZero_apart _ _ _ (by decide), bitsOf_unlessZero_same]

/-- The other fields take the written value. -/
theorem odoCfgWord_plain (old v : Nat) {lo w : Nat} (h : lo + w ≤ 4 ∨ 30 ≤ lo) : bitsOf (odoCfgWord old v) lo w = bitsOf v lo w := by
  unfold odoCfgWord
  rw [bitsOf_putBits_ne _ _ _ _ _ _ (by omega), bitsOf_unlessZero_apart _ _ _ (by dsimp only; omega),
    bitsOf_unlessZero_apart _ _ _ (by dsimp only; omega), bitsOf_unlessZero_apart _ _ _ (by dsimp only; omega)]

/-- ODO_CFG of odometer `u` as a write of `v` stores it, with the record where a field was refused. -/
def State.odoCfgStore (s : State) (r : Requester) (u v : Nat) : State :=
  let t := s.setReg .ODO_CFG (odoCfgWord (s.reg .ODO_CFG u) v) u
  if [F.ODO_CFG_GLITCH_LIM, F.ODO_CFG_REV_EDGES, F.ODO_CFG_STOP_MS].any (fun f => bitsOf v f.lo f.w == 0)
    then t.aelReg r (regAddr .ODO_CFG u) 6 0 v else t

/-- The counting registers of odometer `u` at 0 (R61). -/
def State.odoZero (s : State) (u : Nat) : State := ((s.setFld F.ODO_POS_POS 0 u).setFld F.ODO_EDGE_DT_DT_NS 0 u).setReg .ODO_STAT 0 u

theorem odoZero_onlyRegs (s : State) (u : Nat) : s.onlyRegs (s.odoZero u) :=
  onlyRegs_trans (onlyRegs_setFld_setFld ..) (onlyRegs_setReg ..)

theorem odoZero_keeps (s : State) {u : Nat} (hu : u < 4) :
    s.keeps (s.odoZero u) [(.ODO_POS, u, 0), (.ODO_EDGE_DT, u, 0), (.ODO_STAT, u, 0)] :=
  keeps_trans (keeps_setFld s F.ODO_POS_POS 0 ⟨hu, Nat.one_pos⟩)
    (keeps_trans (keeps_setFld _ F.ODO_EDGE_DT_DT_NS 0 ⟨hu, Nat.one_pos⟩) (keeps_setReg _ (g := .ODO_STAT) 0 ⟨hu, Nat.one_pos⟩))

theorem odoZero_pos (s : State) {u : Nat} (hu : u < 4) : (s.odoZero u).fld F.ODO_POS_POS u = 0 := by
  let p := s.setFld F.ODO_POS_POS 0 u
  have hk : p.keeps (s.odoZero u) _ :=
    keeps_trans (keeps_setFld p F.ODO_EDGE_DT_DT_NS 0 ⟨hu, Nat.one_pos⟩) (keeps_setReg _ (g := .ODO_STAT) 0 ⟨hu, Nat.one_pos⟩)
  rw [fld_of_keeps (f := F.ODO_POS_POS) hk ⟨hu, Nat.one_pos⟩ (by simp), State.fld_setFld_same _ _ _ _ _ (by decide), Nat.zero_mod]

/-- Odometer `u` enabled anew: its registers and its state begin again, and the input levels stay (R61). -/
def State.odoRestart (s : State) (u : Nat) : State :=
  (s.odoZero u).setOdo u { odo0 with a := ((s.odoZero u).odo u).a, b := ((s.odoZero u).odo u).b }

theorem odoCfgWrite_eq (s : State) (r : Requester) (u v : Nat) : s.odoCfgWrite r u v =
    if s.fld F.ODO_CFG_EN u = 0 ∧ bitsOf v 31 1 = 1 then (s.odoCfgStore r u v).odoRestart u else s.odoCfgStore r u v :=
  if_congr decide_eq_true_iff rfl rfl

/-- What a store of ODO_CFG leaves: the word, and every odometer and memory. -/
theorem odoCfgStore_leaves (s : State) (r : Requester) {u : Nat} (v : Nat) (hu : u < 4) : let t := s.odoCfgStore r u v
    t.reg .ODO_CFG u = odoCfgWord (s.reg .ODO_CFG u) v % 2 ^ 64 ∧ t.odos = s.odos ∧ t.depot = s.depot ∧ t.hbm = s.hbm := by
  let w := s.setReg .ODO_CFG (odoCfgWord (s.reg .ODO_CFG u) v) u
  have hr : s.onlyRegs w := onlyRegs_setReg ..
  have hw : w.reg .ODO_CFG u = odoCfgWord (s.reg .ODO_CFG u) v % 2 ^ 64 := s.reg_setReg_same .ODO_CFG _ u 0
  dsimp only
  rw [State.odoCfgStore]
  split
  · obtain ⟨hodos, hdepot, hhbm⟩ := aelReg_leaves w r (regAddr .ODO_CFG u) 6 0 v
    exact ⟨(aelReg_keeps w r _ 6 0 v _ _ _ ⟨hu, Nat.one_pos⟩ (by simp [aelRegs])).trans hw, hodos.trans (onlyRegs_odos hr),
      hdepot.trans (onlyRegs_depot hr), hhbm.trans (onlyRegs_hbm hr)⟩
  · exact ⟨hw, onlyRegs_odos hr, onlyRegs_depot hr, onlyRegs_hbm hr⟩

/-- What the enabling of an odometer leaves, where a write of ODO_CFG enables it (R61). -/
theorem odoRestart_leaves (s : State) {u : Nat} (hu : u < 4) : let t := s.odoRestart u
    t.fld F.ODO_POS_POS u = 0 ∧ t.odo u = { odo0 with a := (s.odo u).a, b := (s.odo u).b } ∧ (∀ k, k ≠ u → t.odo k = s.odo k) ∧
    t.reg .ODO_CFG u = s.reg .ODO_CFG u ∧ t.depot = s.depot ∧ t.hbm = s.hbm := by
  have hsame : (s.odoZero u).sameStores (s.odoRestart u) := setOdo_sameStores ..
  have ⟨_, hdepot, hhbm⟩ := hsame
  have hodo (k : Nat) : (s.odoZero u).odo k = s.odo k := odo_congr (onlyRegs_odos (odoZero_onlyRegs s u)) k
  refine ⟨(fld_of_sameStores hsame ..).trans (odoZero_pos s hu), ?_, fun k hk => (State.odo_setOdo_ne _ _ hk).trans (hodo k),
    keeps_of_sameStores hsame (odoZero_keeps s hu) _ _ _ ⟨hu, Nat.one_pos⟩ (by simp),
    hdepot.trans (onlyRegs_depot (odoZero_onlyRegs s u)), hhbm.trans (onlyRegs_hbm (odoZero_onlyRegs s u))⟩
  rw [State.odoRestart, State.odo_setOdo_same, hodo]

/-- What a write of ODO_CFG leaves (R61). -/
theorem odoCfgWrite_leaves (s : State) (r : Requester) {u : Nat} (v : Nat) (hu : u < 4) : let t := s.odoCfgWrite r u v
    t.reg .ODO_CFG u = odoCfgWord (s.reg .ODO_CFG u) v % 2 ^ 64 ∧
    (s.fld F.ODO_CFG_EN u = 0 → bitsOf v 31 1 = 1 → t.fld F.ODO_POS_POS u = 0 ∧ (t.odo u).edge = none ∧
      (t.odo u).suspect = false ∧ (t.odo u).a = (s.odo u).a ∧ (t.odo u).b = (s.odo u).b) ∧
    (∀ k, k ≠ u → t.odo k = s.odo k) ∧ s.sameMemory t := by
  let w := s.odoCfgStore r u v
  obtain ⟨hcfg, hodos, hdepot, hhbm⟩ := odoCfgStore_leaves s r v hu
  have hodo (k : Nat) : w.odo k = s.odo k := odo_congr hodos k
  dsimp only
  rw [odoCfgWrite_eq]
  by_cases h : s.fld F.ODO_CFG_EN u = 0 ∧ bitsOf v 31 1 = 1
  · obtain ⟨hpos, hown, hothers, hcfg', hdepot', hhbm'⟩ := odoRestart_leaves w hu
    rw [if_pos h, hown, hodo]
    exact ⟨hcfg'.trans hcfg, fun _ _ => ⟨hpos, rfl, rfl, rfl, rfl⟩, fun k hk => (hothers k hk).trans (hodo k),
      sameMemory_of_stores (hdepot'.trans hdepot) (hhbm'.trans hhbm)⟩
  · rw [if_neg h]
    exact ⟨hcfg, fun h0 h1 => absurd ⟨h0, h1⟩ h, fun k _ => hodo k, sameMemory_of_stores hdepot hhbm⟩

/-- The fields kept in range are fields of ODO_CFG. -/
theorem odoCfg_ranged {f : Fld} (hf : f ∈ [F.ODO_CFG_GLITCH_LIM, F.ODO_CFG_REV_EDGES, F.ODO_CFG_STOP_MS]) :
    f.reg = .ODO_CFG ∧ f.lo + f.w ≤ 64 := by
  simp only [List.mem_cons, List.not_mem_nil, or_false] at hf
  obtain rfl | rfl | rfl := hf <;> exact ⟨rfl, by decide⟩

/-- A field of ODO_CFG reads as the stored word says. -/
theorem odoCfg_fld {t : State} {u n : Nat} (h : t.reg .ODO_CFG u = n % 2 ^ 64) {f : Fld} (hr : f.reg = .ODO_CFG) (hf : f.lo + f.w ≤ 64) :
    t.fld f u = bitsOf n f.lo f.w := by
  rw [State.fld, hr, h, bitsOf_mod_two_pow _ _ _ _ hf]

theorem exec_odoCfgWrite {s : State} (dt : Nat) (r : Requester) {u : Fin 4} (v : Word)
    (ha : s.access (regAddr .ODO_CFG u) 4 = .ok (hitOf .ODO_CFG u 0)) :
    exec (.odoCfgWrite dt r u v) s = .next ((s.tick dt).odoCfgWrite r u v.toNat) :=
  congrArg Host.Outcome.next (accessing_of_ok ((access_tick s dt _ 4).trans ha) r _ _)

theorem odoCfgWrite_next {s : State} (dt : Nat) (r : Requester) {u : Fin 4} (v : Word)
    (ha : s.access (regAddr .ODO_CFG u) 4 = .ok (hitOf .ODO_CFG u 0)) : ∃ t, exec (.odoCfgWrite dt r u v) s = .next t ∧
      (∀ f ∈ [F.ODO_CFG_GLITCH_LIM, F.ODO_CFG_REV_EDGES, F.ODO_CFG_STOP_MS],
        t.fld f u = if bitsOf v.toNat f.lo f.w = 0 then s.fld f u else bitsOf v.toNat f.lo f.w) ∧
      t.fld F.ODO_CFG_EN u = bitsOf v.toNat 31 1 ∧ t.fld F.ODO_CFG_INVERT u = bitsOf v.toNat 30 1 ∧
      t.fld F.ODO_CFG_FILT_NS u = bitsOf v.toNat 0 4 ∧
      (s.fld F.ODO_CFG_EN u = 0 → bitsOf v.toNat 31 1 = 1 → t.fld F.ODO_POS_POS u = 0 ∧ (t.odo u).edge = none ∧
        (t.odo u).suspect = false ∧ (t.odo u).a = (s.odo u).a ∧ (t.odo u).b = (s.odo u).b) ∧
      (∀ k, k ≠ u.val → t.odo k = s.odo k) ∧ s.sameMemory t := by
  obtain ⟨hcfg, hrise, hothers, hmem⟩ := odoCfgWrite_leaves (s.tick dt) r v.toNat u.isLt
  simp only [State.reg_tick, State.fld_tick, State.odo_tick] at hcfg hrise hothers
  refine ⟨_, exec_odoCfgWrite dt r v ha, fun f hf => ?_, ?_, ?_, ?_, hrise, hothers, hmem⟩
  · obtain ⟨hreg, hle⟩ := odoCfg_ranged hf
    rw [odoCfg_fld hcfg hreg hle, odoCfgWord_ranged _ _ hf, State.fld, hreg]
  · rw [odoCfg_fld hcfg rfl (by decide), odoCfgWord_plain _ _ (by decide)]
  · rw [odoCfg_fld hcfg rfl (by decide), odoCfgWord_plain _ _ (by decide)]
  · rw [odoCfg_fld hcfg rfl (by decide), odoCfgWord_plain _ _ (by decide)]

/-- Settles O34: an accepted edge is counted with or without a reversal, and each other event writes its part of the odometer. -/
theorem odometersCountEdges : Obligations.OdometersCountEdges := by
  intro dt u s
  refine ⟨fun onB hen he hg => encoderEdge_next dt onB rfl rfl hen he hg, fun onA onB hen => encoderGlitch_next dt onA onB hen,
    fun d hd hx hle => ⟨_, exec_posSuspectEnd dt hd hx hle, State.odo_setOdo_same .., fun k hk => ?_, rfl⟩,
    fun hen he => ⟨_, exec_encoderStopTimeout dt hen he, ?_, ?_, onlyRegs_setFld ..⟩, fun r v ha => odoCfgWrite_next dt r v ha⟩
  · exact (State.odo_setOdo_ne _ _ hk).trans (s.odo_tick dt k)
  · rw [flag_setFld_same _ _ _ _ _ (by decide)]
    rfl
  · exact keeps_of_tick (keeps_setFld _ F.ODO_STAT_STOPPED 1 ⟨u.isLt, Nat.one_pos⟩)

end Sys2Proof.Machine
end

section
/-! Line-trigger generators (R63, R65): one line to one target, and the generator's configuration. -/
namespace Sys2Proof.Machine

section
variable (s : State)

/-- The trigger of the next line of generator `g`, where no interval has been missed (R63). -/
def State.nextTrig (g : Nat) : Trig :=
  let i := (s.trigGen g).n
  ⟨i, s.theta g i, s.now, s.lineB g i, false, (s.odo (s.fld F.ODO_TG_CFG_ODO g)).suspect, s.timeUnsync⟩

/-- Generator `g` past its next line, which left now. -/
def State.passLine (g : Nat) : State := s.setTrigGen g { s.trigGen g with n := (s.trigGen g).n + 1, last := some s.now }

end

theorem emitLine_of_no_boundary {s : State} {g : Nat}
    (hb : ¬(g = s.fld F.ODO_SEG_CFG_REFGEN ∧ s.segB ≠ some (s.lineB g (s.trigGen g).n))) (hl : (s.trigGen g).last = none) :
    s.emitLine g = (targetsOf (s.trigGen g).targets).foldl (fun t c => t.trigTo c (s.nextTrig g)) (s.passLine g) := by
  unfold State.emitLine
  dsimp only
  rw [if_neg hb, hl]
  rfl

theorem targetsOf_two_pow : ∀ c : Fin 16, targetsOf (2 ^ c.val) = [c.val] := by decide

/-- The trigger `t` sent over link `l` towards connection `c`, where it waits for its line (R52). -/
def State.trigSent (s : State) (c l : Nat) (t : Trig) : State :=
  (s.emit (.cxp l (.trigger s.now))).setConn c { s.conn c with trigs := [t] }

/-- A line's trigger leaves towards a CoaXPress connection that waits for no other, and waits there (R52, R64). -/
theorem trigTo_of_idle {s : State} {c l : Nat} {t : Trig} (hm : t.missed = false) (hs : s.flag F.ING_CONN_CFG_STEERED c = true)
    (hg : (s.conn c).gv = false) (hl : s.masterLink c = some l) (ht : (s.conn c).trigs = []) :
    s.trigTo c t = (s.trigSent c l t).missedHead c 1 := by
  have hsend : s.sendTrigger c = s.emit (.cxp l (.trigger s.now)) := by
    simp [State.sendTrigger, hg, hl]
  have hs' : (s.emit (.cxp l (.trigger s.now))).flag F.ING_CONN_CFG_STEERED c = true := hs
  have ht' : ((s.emit (.cxp l (.trigger s.now))).conn c).trigs = [] := ht
  unfold State.trigTo
  simp only [hm, Bool.false_eq_true, if_false, hsend, hs', if_true, ht']
  rfl

theorem missedHead_of_not_missed {s : State} {c n : Nat} {t : Trig} {ts : List Trig} (hc : (s.conn c).trigs = t :: ts)
    (hm : t.missed = false) : s.missedHead c n = s := by
  cases n with
  | zero => rfl
  | succ n => simp [State.missedHead, hc, hm]

theorem trigSent_trigs (s : State) (c l : Nat) (t : Trig) : ((s.trigSent c l t).conn c).trigs = [t] :=
  congrArg Conn.trigs (State.conn_setConn_same ..)

theorem planLine_trigGen (s : State) (g : Nat) : ((s.planLine g).trigGen g).n = (s.trigGen g).n ∧
    ((s.planLine g).trigGen g).last = (s.trigGen g).last := by
  rw [State.planLine, State.trigGen_setTrigGen_same]
  exact ⟨rfl, rfl⟩

section
variable {s : State} {g c : Fin 16} {l : Nat}

/-- The next line of a generator with one target that waits for no line: its trigger leaves (R63). -/
theorem emitLine_to_one (htg : (s.trigGen g).targets = 2 ^ c.val)
    (hb : g.val ≠ s.fld F.ODO_SEG_CFG_REFGEN ∨ s.segB = some (s.lineB g (s.trigGen g).n)) (hlast : (s.trigGen g).last = none)
    (hs : s.flag F.ING_CONN_CFG_STEERED c = true) (hgv : (s.conn c).gv = false) (hl : s.masterLink c = some l)
    (ht : (s.conn c).trigs = []) : s.emitLine g = (s.passLine g).trigSent c l (s.nextTrig g) := by
  have hs' : (s.passLine g).flag F.ING_CONN_CFG_STEERED c = true := (flag_of_sameStores (setTrigGen_sameStores ..) ..).trans hs
  rw [emitLine_of_no_boundary (fun ⟨h1, h2⟩ => hb.elim (fun h => h h1) h2) hlast, htg, targetsOf_two_pow, List.foldl_cons, List.foldl_nil,
    trigTo_of_idle rfl hs' hgv hl ht]
  exact missedHead_of_not_missed (trigSent_trigs ..) rfl

/-- A planned time that has come emits the line and plans the next (R63). -/
theorem exec_triggerPlannedTime (dt : Nat) {d : Nat} (hp : (s.trigGen g).plan = some d) (hd : d ≤ (s.now + dt) % 2 ^ 64)
    (hen : s.fld F.ODO_TG_CFG_EN g = 1) :
    exec (.triggerPlannedTime dt g) s = .next (((s.tick dt).emitLine g).planLine g) := by
  change execTriggerPlannedTime dt g s = _
  simp only [execTriggerPlannedTime, State.trigGen_tick, hp, State.fld_tick, hen]
  exact if_pos ⟨hd, trivial⟩

end

/-- The planned line leaves: its trigger waits at its connection, and the generator goes on (R63). -/
theorem triggerPlannedTime_next {s : State} (dt : Nat) {g c : Fin 16} {d l : Nat} (hp : (s.trigGen g).plan = some d)
    (hd : d ≤ (s.now + dt) % 2 ^ 64) (hen : s.fld F.ODO_TG_CFG_EN g = 1) (htg : (s.trigGen g).targets = 2 ^ c.val)
    (hb : g.val ≠ s.fld F.ODO_SEG_CFG_REFGEN ∨ s.segB = some (s.lineB g (s.trigGen g).n)) (hlast : (s.trigGen g).last = none)
    (hs : s.flag F.ING_CONN_CFG_STEERED c = true) (hgv : (s.conn c).gv = false) (hl : s.masterLink c = some l)
    (ht : (s.conn c).trigs = []) : ∃ t, exec (.triggerPlannedTime dt g) s = .next t ∧ (t.trigGen g).n = (s.trigGen g).n + 1 ∧
      (t.trigGen g).last = some ((s.now + dt) % 2 ^ 64) ∧ t.out = s.out ++ [.cxp l (.trigger ((s.now + dt) % 2 ^ 64))] ∧
      (t.conn c).trigs = [(s.tick dt).nextTrig g] ∧ (∀ k, k ≠ c.val → t.conn k = s.conn k) ∧
      (∀ k, k ≠ g.val → t.trigGen k = s.trigGen k) ∧ t = { s.tick dt with gens := t.gens, conns := t.conns, out := t.out } := by
  let w := s.tick dt
  let u := w.passLine g
  let v := u.trigSent c l (w.nextTrig g)
  have hgen (k : Nat) : v.trigGen k = u.trigGen k := trigGen_congr rfl k
  have hu : u.trigGen g = { s.trigGen g with n := (s.trigGen g).n + 1, last := some ((s.now + dt) % 2 ^ 64) } :=
    State.trigGen_setTrigGen_same ..
  have hs' : w.flag F.ING_CONN_CFG_STEERED c = true := (s.flag_tick dt ..).trans hs
  obtain ⟨hn, hlast'⟩ := planLine_trigGen v g
  rw [hgen, hu] at hn hlast'
  refine ⟨v.planLine g, ?_, hn, hlast', rfl, trigSent_trigs .., fun k hk => State.conn_setConn_ne (u.emit _) _ hk, fun k hk => ?_, rfl⟩
  · rw [exec_triggerPlannedTime dt hp hd hen, emitLine_to_one (s := w) htg hb hlast hs' hgv hl ht]
  · exact (State.trigGen_setTrigGen_ne v _ hk).trans ((hgen k).trans (State.trigGen_setTrigGen_ne w _ hk))

/-! ## ODO_TG_CFG -/

/-- The fields of ODO_TG_CFG of a stopped generator as a write of `v` stores them (R65). -/
def State.tgCfgFields (s : State) (g v : Nat) : State :=
  ((s.setFld F.ODO_TG_CFG_ODO (bitsOf v 26 2) g).setFld F.ODO_TG_CFG_TARGETS (bitsOf v 0 16) g).setFld F.ODO_TG_CFG_EN (bitsOf v 31 1) g

theorem tgCfgFields_onlyRegs (s : State) (g v : Nat) : s.onlyRegs (s.tgCfgFields g v) :=
  onlyRegs_trans (onlyRegs_setFld_setFld ..) (onlyRegs_setFld ..)

theorem tgCfgFields_keeps (s : State) {g : Nat} (v : Nat) (hg : g < 16) : s.keeps (s.tgCfgFields g v) [(.ODO_TG_CFG, g, 0)] :=
  have h : regHas .ODO_TG_CFG g 0 := ⟨hg, Nat.one_pos⟩
  keeps_mono (keeps_trans (keeps_setFld_setFld (f := F.ODO_TG_CFG_ODO) (g := F.ODO_TG_CFG_TARGETS) s _ _ rfl h)
    (keeps_setFld _ F.ODO_TG_CFG_EN _ h)) (by simp)

theorem tgCfgFields_fields (s : State) (g v : Nat) : (s.tgCfgFields g v).fld F.ODO_TG_CFG_EN g = bitsOf v 31 1 ∧
    (s.tgCfgFields g v).fld F.ODO_TG_CFG_ODO g = bitsOf v 26 2 ∧ (s.tgCfgFields g v).fld F.ODO_TG_CFG_TARGETS g = bitsOf v 0 16 := by
  rw [State.tgCfgFields]
  refine ⟨?_, ?_, ?_⟩
  · rw [State.fld_setFld_same _ _ _ _ _ (by decide)]
    exact Nat.mod_eq_of_lt (bitsOf_lt v 31 1)
  · rw [State.fld_setFld_other _ _ _ _ (by rfl) (by decide) (by decide), State.fld_setFld_other _ _ _ _ (by rfl) (by decide) (by decide),
      State.fld_setFld_same _ _ _ _ _ (by decide)]
    exact Nat.mod_eq_of_lt (bitsOf_lt v 26 2)
  · rw [State.fld_setFld_other _ _ _ _ (by rfl) (by decide) (by decide), State.fld_setFld_same _ _ _ _ _ (by decide)]
    exact Nat.mod_eq_of_lt (bitsOf_lt v 0 16)

/-- The first line above a position depends on the pitch and the offset alone. -/
theorem firstLine_congr {s t : State} {g : Nat} (hp : t.fld F.ODO_TG_PITCH_PITCH g = s.fld F.ODO_TG_PITCH_PITCH g)
    (ho : t.fld F.ODO_TG_OFFSET_OFFSET g = s.fld F.ODO_TG_OFFSET_OFFSET g) (p : Int) : t.firstLine g p = s.firstLine g p := by
  rw [State.firstLine, State.firstLine, hp, ho]

/-- What the configuration of a stopped generator leaves of it: it waits for an edge, and where it is enabled its next line is the first
above the position of its odometer (R63, R65). -/
def State.tgCfgGen (s : State) (g v : Nat) : TrigGen :=
  let x : TrigGen := { s.trigGen g with plan := none, targets := bitsOf v 0 16 }
  if bitsOf v 31 1 = 0 then x else { x with n := s.firstLine g (s.odoPos (bitsOf v 26 2) * 65536), last := none }

theorem tgCfgGen_fields (s : State) (g v : Nat) : (s.tgCfgGen g v).targets = bitsOf v 0 16 ∧ (s.tgCfgGen g v).plan = none := by
  unfold State.tgCfgGen
  split
  · exact ⟨rfl, rfl⟩
  · exact ⟨rfl, rfl⟩

theorem tgCfgGen_of_enabled (s : State) (g : Nat) {v : Nat} (h : bitsOf v 31 1 = 1) :
    (s.tgCfgGen g v).n = s.firstLine g (s.odoPos (bitsOf v 26 2) * 65536) := by
  rw [State.tgCfgGen, if_neg (by omega)]

/-- Time does not move the first line above a position. -/
theorem firstLine_tick (s : State) (dt g u : Nat) :
    (s.tick dt).firstLine g ((s.tick dt).odoPos u * 65536) = s.firstLine g (s.odoPos u * 65536) := by
  rw [State.odoPos, State.fld_tick]
  exact firstLine_congr (s.fld_tick ..) (s.fld_tick ..) _

theorem setTrigGen_frame {s t : State} (h : s.onlyRegs t) (g : Nat) (x : TrigGen) :
    t.setTrigGen g x = { s with regs := (t.setTrigGen g x).regs, gens := (t.setTrigGen g x).gens } := by
  rw [State.onlyRegs] at h
  rw [h]
  rfl

/-- The registers of generator `g` after a write of `v`: ODO stays, and the write is recorded, where the generator runs (R65). -/
def State.tgCfgRegs (s : State) (r : Requester) (g v : Nat) : State :=
  let t := if decide (s.fld F.ODO_TG_CFG_EN g = 1 ∧ bitsOf v 26 2 ≠ s.fld F.ODO_TG_CFG_ODO g)
    then s.aelReg r (regAddr .ODO_TG_CFG g) 9 0 v else s.setFld F.ODO_TG_CFG_ODO (bitsOf v 26 2) g
  (t.setFld F.ODO_TG_CFG_TARGETS (bitsOf v 0 16) g).setFld F.ODO_TG_CFG_EN (bitsOf v 31 1) g

theorem tgCfgRegs_of_stopped {s : State} (r : Requester) {g : Nat} (v : Nat) (hen : s.fld F.ODO_TG_CFG_EN g = 0) :
    s.tgCfgRegs r g v = s.tgCfgFields g v := by
  rw [State.tgCfgRegs, State.tgCfgFields]
  simp only [hen, Nat.zero_ne_one, false_and, decide_false, Bool.false_eq_true, if_false]

theorem tgCfgWrite_eq (s : State) (r : Requester) (g v : Nat) : s.tgCfgWrite r g v =
    (let t := s.tgCfgRegs r g v
    let x : TrigGen := { t.trigGen g with plan := none, targets := bitsOf v 0 16 }
    if bitsOf v 31 1 = 0 then t.setTrigGen g x
    else if s.fld F.ODO_TG_CFG_EN g = 0 then
      t.setTrigGen g { x with n := t.firstLine g (t.odoPos (t.fld F.ODO_TG_CFG_ODO g) * 65536), last := none }
    else t) := rfl

/-- The generator's next line after its configuration, from the state before it. -/
theorem tgCfgFields_firstLine (s : State) {g : Nat} (v : Nat) (hg : g < 16) : let t := s.tgCfgFields g v
    t.firstLine g (t.odoPos (t.fld F.ODO_TG_CFG_ODO g) * 65536) = s.firstLine g (s.odoPos (bitsOf v 26 2) * 65536) := by
  have hk : s.keeps (s.tgCfgFields g v) [(.ODO_TG_CFG, g, 0)] := tgCfgFields_keeps s v hg
  have h4 : bitsOf v 26 2 < 4 := bitsOf_lt v 26 2
  obtain ⟨-, hodo, -⟩ := tgCfgFields_fields s g v
  dsimp only
  rw [hodo, State.odoPos, fld_of_keeps (f := F.ODO_POS_POS) hk ⟨h4, Nat.one_pos⟩ (by simp)]
  exact firstLine_congr (fld_of_keeps (f := F.ODO_TG_PITCH_PITCH) hk ⟨hg, Nat.one_pos⟩ (by simp))
    (fld_of_keeps (f := F.ODO_TG_OFFSET_OFFSET) hk ⟨hg, Nat.one_pos⟩ (by simp)) _

theorem tgCfgWrite_of_stopped {s : State} (r : Requester) {g : Nat} (v : Nat) (hg : g < 16) (hen : s.fld F.ODO_TG_CFG_EN g = 0) :
    s.tgCfgWrite r g v = (s.tgCfgFields g v).setTrigGen g (s.tgCfgGen g v) := by
  have hgen : (s.tgCfgFields g v).trigGen g = s.trigGen g := trigGen_congr (onlyRegs_gens (tgCfgFields_onlyRegs s g v)) g
  have hfirst := tgCfgFields_firstLine s v hg
  dsimp only at hfirst
  rw [tgCfgWrite_eq]
  dsimp only
  rw [tgCfgRegs_of_stopped r v hen, hfirst, hgen, if_pos hen, State.tgCfgGen]
  split
  · rfl
  · rfl

theorem odoTgCfgWrite_next {s : State} (dt : Nat) (r : Requester) {g : Fin 16} (v : Word)
    (ha : s.access (regAddr .ODO_TG_CFG g) 4 = .ok (hitOf .ODO_TG_CFG g 0)) (hen : s.fld F.ODO_TG_CFG_EN g = 0) :
    ∃ t, exec (.odoTgCfgWrite dt r g v) s = .next t ∧ t.fld F.ODO_TG_CFG_EN g = bitsOf v.toNat 31 1 ∧
      t.fld F.ODO_TG_CFG_ODO g = bitsOf v.toNat 26 2 ∧ t.fld F.ODO_TG_CFG_TARGETS g = bitsOf v.toNat 0 16 ∧
      (t.trigGen g).targets = bitsOf v.toNat 0 16 ∧ (t.trigGen g).plan = none ∧
      (bitsOf v.toNat 31 1 = 1 → (t.trigGen g).n = s.firstLine g (s.odoPos (bitsOf v.toNat 26 2) * 65536)) ∧
      s.keeps t [(.ODO_TG_CFG, g, 0)] ∧ t = { s.tick dt with regs := t.regs, gens := t.gens } := by
  let w := (s.tick dt).tgCfgFields g v.toNat
  have hen' : (s.tick dt).fld F.ODO_TG_CFG_EN g = 0 := (s.fld_tick ..).trans hen
  have hsame : w.sameStores (w.setTrigGen g ((s.tick dt).tgCfgGen g v.toNat)) := setTrigGen_sameStores ..
  obtain ⟨hEN, hODO, hTARGETS⟩ := tgCfgFields_fields (s.tick dt) g v.toNat
  refine ⟨w.setTrigGen g ((s.tick dt).tgCfgGen g v.toNat), ?_, (fld_of_sameStores hsame ..).trans hEN,
    (fld_of_sameStores hsame ..).trans hODO, (fld_of_sameStores hsame ..).trans hTARGETS, ?_, ?_, fun h1 => ?_,
    keeps_of_tick (keeps_of_sameStores hsame (tgCfgFields_keeps _ v.toNat g.isLt)), setTrigGen_frame (tgCfgFields_onlyRegs ..) ..⟩
  · exact congrArg Host.Outcome.next ((accessing_of_ok ((access_tick s dt _ 4).trans ha) r _ _).trans
      (tgCfgWrite_of_stopped r v.toNat g.isLt hen'))
  · rw [State.trigGen_setTrigGen_same]
    exact (tgCfgGen_fields ..).1
  · rw [State.trigGen_setTrigGen_same]
    exact (tgCfgGen_fields ..).2
  · rw [State.trigGen_setTrigGen_same, tgCfgGen_of_enabled _ g h1]
    exact firstLine_tick ..

end Sys2Proof.Machine
end

section
/-! ODO_SEG_CFG and ING_RES_CFG take their fields (R70, R74). -/
namespace Sys2Proof.Machine

/-- A write of ODO_SEG_CFG under what refuses its fields: HOLD_100MS, REFGEN, LINES_M1 while the reference generator runs, and a
LINES_M1 below its range (R70). -/
def State.segCfgStore (s : State) (r : Requester) (v : Nat) (badH badG badL lowL : Bool) : State :=
  let s := if badH then s else s.setFld F.ODO_SEG_CFG_HOLD_100MS (bitsOf v 20 10)
  let s := if badG then s else s.setFld F.ODO_SEG_CFG_REFGEN (bitsOf v 16 4)
  let s := if badL || lowL then s else s.setFld F.ODO_SEG_CFG_LINES_M1 (bitsOf v 0 16)
  if badH || lowL then s.aelReg r (regAddr .ODO_SEG_CFG) 6 0 v
  else if badG then s.aelReg r (regAddr .ODO_SEG_CFG) 9 0 v
  else if badL then s.aelReg r (regAddr .ODO_SEG_CFG) 10 0 v else s

theorem segCfgWrite_eq (s : State) (r : Requester) (v : Nat) : s.segCfgWrite r v =
    s.segCfgStore r v (decide (bitsOf v 20 10 < 1 ∨ 600 < bitsOf v 20 10))
      (s.refRuns && decide (bitsOf v 16 4 ≠ s.fld F.ODO_SEG_CFG_REFGEN))
      (s.refRuns && decide (bitsOf v 0 16 ≠ s.fld F.ODO_SEG_CFG_LINES_M1)) (decide (bitsOf v 0 16 < 63)) := rfl

/-- The three fields of ODO_SEG_CFG as a write of `v` stores them (R70). -/
def State.segCfgFields (s : State) (v : Nat) : State :=
  ((s.setFld F.ODO_SEG_CFG_HOLD_100MS (bitsOf v 20 10)).setFld F.ODO_SEG_CFG_REFGEN (bitsOf v 16 4)).setFld F.ODO_SEG_CFG_LINES_M1
    (bitsOf v 0 16)

/-- A write of ODO_SEG_CFG in range, while the reference generator is stopped, stores its three fields (R70). -/
theorem segCfgWrite_of_in_range {s : State} (r : Requester) {v : Nat} (hr : s.refRuns = false) (h1 : 1 ≤ bitsOf v 20 10)
    (h2 : bitsOf v 20 10 ≤ 600) (h3 : 63 ≤ bitsOf v 0 16) : s.segCfgWrite r v = s.segCfgFields v := by
  have hh : decide (bitsOf v 20 10 < 1 ∨ 600 < bitsOf v 20 10) = false := decide_eq_false (by omega)
  have hl : decide (bitsOf v 0 16 < 63) = false := decide_eq_false (by omega)
  rw [segCfgWrite_eq, hr, hh, hl, Bool.false_and, Bool.false_and, State.segCfgStore, State.segCfgFields]
  rfl

theorem segCfgFields_fields (s : State) (v : Nat) : (s.segCfgFields v).fld F.ODO_SEG_CFG_HOLD_100MS = bitsOf v 20 10 ∧
    (s.segCfgFields v).fld F.ODO_SEG_CFG_REFGEN = bitsOf v 16 4 ∧ (s.segCfgFields v).fld F.ODO_SEG_CFG_LINES_M1 = bitsOf v 0 16 := by
  rw [State.segCfgFields]
  refine ⟨?_, ?_, ?_⟩
  · rw [State.fld_setFld_other _ _ _ _ (by rfl) (by decide) (by decide), State.fld_setFld_other _ _ _ _ (by rfl) (by decide) (by decide),
      State.fld_setFld_same _ _ _ _ _ (by decide)]
    exact Nat.mod_eq_of_lt (bitsOf_lt v 20 10)
  · rw [State.fld_setFld_other _ _ _ _ (by rfl) (by decide) (by decide), State.fld_setFld_same _ _ _ _ _ (by decide)]
    exact Nat.mod_eq_of_lt (bitsOf_lt v 16 4)
  · rw [State.fld_setFld_same _ _ _ _ _ (by decide)]
    exact Nat.mod_eq_of_lt (bitsOf_lt v 0 16)

theorem segCfgFields_keeps (s : State) (v : Nat) : s.keeps (s.segCfgFields v) [(.ODO_SEG_CFG, 0, 0)] :=
  have h : regHas .ODO_SEG_CFG 0 0 := ⟨Nat.one_pos, Nat.one_pos⟩
  keeps_mono (keeps_trans (keeps_setFld_setFld (f := F.ODO_SEG_CFG_HOLD_100MS) (g := F.ODO_SEG_CFG_REFGEN) s _ _ rfl h)
    (keeps_setFld _ F.ODO_SEG_CFG_LINES_M1 _ h)) (by simp)

theorem segCfgFields_onlyRegs (s : State) (v : Nat) : s.onlyRegs (s.segCfgFields v) :=
  onlyRegs_trans (onlyRegs_setFld_setFld ..) (onlyRegs_setFld ..)

theorem odoSegCfgWrite_next {s : State} (dt : Nat) (r : Requester) (v : Word)
    (ha : s.access (regAddr .ODO_SEG_CFG) 4 = .ok (hitOf .ODO_SEG_CFG 0 0)) (hr : s.refRuns = false) (h1 : 1 ≤ bitsOf v.toNat 20 10)
    (h2 : bitsOf v.toNat 20 10 ≤ 600) (h3 : 63 ≤ bitsOf v.toNat 0 16) : ∃ t, exec (.odoSegCfgWrite dt r v) s = .next t ∧
      t.fld F.ODO_SEG_CFG_HOLD_100MS = bitsOf v.toNat 20 10 ∧ t.fld F.ODO_SEG_CFG_REFGEN = bitsOf v.toNat 16 4 ∧
      t.fld F.ODO_SEG_CFG_LINES_M1 = bitsOf v.toNat 0 16 ∧ s.keeps t [(.ODO_SEG_CFG, 0, 0)] ∧ t = { s.tick dt with regs := t.regs } := by
  have hr' : (s.tick dt).refRuns = false := by rw [State.refRuns, State.flag_tick, State.fld_tick]; exact hr
  obtain ⟨hhold, hrefgen, hlines⟩ := segCfgFields_fields (s.tick dt) v.toNat
  exact ⟨_, congrArg Host.Outcome.next ((accessing_of_ok ((access_tick s dt _ 4).trans ha) r _ _).trans
    (segCfgWrite_of_in_range r hr' h1 h2 h3)), hhold, hrefgen, hlines, keeps_of_tick (segCfgFields_keeps _ v.toNat),
    segCfgFields_onlyRegs ..⟩

/-- CAP_LINES and LINE_TO of connection `c` as a write of `v` stores them (R74). -/
def State.resCfgFields (s : State) (c v : Nat) : State :=
  (s.setFld F.ING_RES_CFG_CAP_LINES (bitsOf v 0 18) c).setFld F.ING_RES_CFG_LINE_TO (bitsOf v 24 8) c

theorem resCfgWrite_of_line_to (s : State) (r : Requester) (c : Nat) {v : Nat} (hv : bitsOf v 24 8 ≠ 0) :
    s.resCfgWrite r c v = s.resCfgFields c v := if_neg hv

theorem resCfgFields_fields (s : State) (c v : Nat) : (s.resCfgFields c v).fld F.ING_RES_CFG_CAP_LINES c = bitsOf v 0 18 ∧
    (s.resCfgFields c v).fld F.ING_RES_CFG_LINE_TO c = bitsOf v 24 8 := by
  rw [State.resCfgFields]
  constructor
  · rw [State.fld_setFld_other _ _ _ _ (by rfl) (by decide) (by decide), State.fld_setFld_same _ _ _ _ _ (by decide)]
    exact Nat.mod_eq_of_lt (bitsOf_lt v 0 18)
  · rw [State.fld_setFld_same _ _ _ _ _ (by decide)]
    exact Nat.mod_eq_of_lt (bitsOf_lt v 24 8)

theorem ingResCfgWrite_next {s : State} (dt : Nat) (r : Requester) {c : Fin 16} (v : Word)
    (ha : s.access (regAddr .ING_RES_CFG c) 4 = .ok (hitOf .ING_RES_CFG c 0)) (hv : bitsOf v.toNat 24 8 ≠ 0) :
    ∃ t, exec (.ingResCfgWrite dt r c v) s = .next t ∧ t.fld F.ING_RES_CFG_CAP_LINES c = bitsOf v.toNat 0 18 ∧
      t.fld F.ING_RES_CFG_LINE_TO c = bitsOf v.toNat 24 8 ∧ s.keeps t [(.ING_RES_CFG, c, 0)] ∧ t = { s.tick dt with regs := t.regs } := by
  obtain ⟨hcap, hto⟩ := resCfgFields_fields (s.tick dt) c v.toNat
  exact ⟨_, congrArg Host.Outcome.next ((accessing_of_ok ((access_tick s dt _ 4).trans ha) r _ _).trans
    (resCfgWrite_of_line_to _ r c hv)), hcap, hto, keeps_of_tick (keeps_setFld_setFld (f := F.ING_RES_CFG_CAP_LINES)
      (g := F.ING_RES_CFG_LINE_TO) _ _ _ rfl ⟨c.isLt, Nat.one_pos⟩), onlyRegs_setFld_setFld ..⟩

end Sys2Proof.Machine
end

section
/-! A segment closes short (R68) while a line of it has neither entered the chain nor been delivered. -/
namespace Sys2Proof.Machine

/-- A crew whose next task starts a new run (R207). -/
def State.breakRun (s : State) (u e : Nat) : State := s.setCrew u e { s.crew u e with brk := true }

theorem breakRun_crew (s : State) (u e : Nat) : (s.breakRun u e).crew u e = { s.crew u e with brk := true } :=
  mapGet_mapSet_same crew0 s.crews (64 * u + e) _

theorem breakRun_keeps_broken (s : State) (u : Nat) (e : Nat) {k : Nat} (h : (s.crew u k).brk = true) :
    ((s.breakRun u e).crew u k).brk = true := by
  by_cases hk : k = e
  · rw [hk, breakRun_crew]
  · rw [show (s.breakRun u e).crew u k = s.crew u k from mapGet_mapSet_ne crew0 s.crews _ (by omega)]
    exact h

theorem breakRuns_broken (s : State) (u : Nat) {e : Nat} (he : e < 64) : ((s.breakRuns u).crew u e).brk = true :=
  foldl_establishes (f := fun s e => s.breakRun u e) (P := fun s e => (s.crew u e).brk = true)
    (fun s e => by rw [breakRun_crew]) (fun s e k => breakRun_keeps_broken s u e) (List.range 64) s (List.mem_range.2 he)

/-- `t` differs from `s` in its crews alone. -/
def State.onlyCrews (s t : State) : Prop := t = { s with crews := t.crews }

theorem onlyCrews_trans {s t u : State} (h : s.onlyCrews t) (h' : t.onlyCrews u) : s.onlyCrews u := by
  rw [State.onlyCrews] at h h' ⊢
  rw [h', h]

theorem breakRun_onlyCrews (s : State) (u e : Nat) : s.onlyCrews (s.breakRun u e) := rfl

theorem breakRuns_onlyCrews (s : State) (u : Nat) : s.onlyCrews (s.breakRuns u) :=
  foldl_rel (R := State.onlyCrews) (f := fun s e => s.breakRun u e) (fun _ => rfl) onlyCrews_trans (fun s e => breakRun_onlyCrews s u e)
    (List.range 64) s

section
variable {s t : State} (h : s.onlyCrews t)
include h
theorem onlyCrews_conns : t.conns = s.conns := by rw [show t = { s with crews := t.crews } from h]
theorem onlyCrews_out : t.out = s.out := by rw [show t = { s with crews := t.crews } from h]
theorem onlyCrews_depot : t.depot = s.depot := by rw [show t = { s with crews := t.crews } from h]
theorem onlyCrews_hbm : t.hbm = s.hbm := by rw [show t = { s with crews := t.crews } from h]
end

/-- `t` differs from `s` in its registers and its reference units alone. -/
def State.onlyRefRegs (s t : State) : Prop := t = { s with regs := t.regs, refs := t.refs }

section
variable {s t : State} (h : s.onlyRefRegs t)
include h
theorem onlyRefRegs_conns : t.conns = s.conns := by rw [show t = { s with regs := t.regs, refs := t.refs } from h]
theorem onlyRefRegs_crews : t.crews = s.crews := by rw [show t = { s with regs := t.regs, refs := t.refs } from h]
theorem onlyRefRegs_out : t.out = s.out := by rw [show t = { s with regs := t.regs, refs := t.refs } from h]
theorem onlyRefRegs_depot : t.depot = s.depot := by rw [show t = { s with regs := t.regs, refs := t.refs } from h]
theorem onlyRefRegs_hbm : t.hbm = s.hbm := by rw [show t = { s with regs := t.regs, refs := t.refs } from h]
end

theorem resStat_onlyRegs (s : State) (c : Nat) : s.onlyRegs (s.resStat c) := onlyRegs_setFld_setFld ..

theorem onlyRefRegs_of_setRef {s t u : State} {i : Nat} {x : RefUnit} (h : s.onlyRegs t) (h' : (t.setRef i x).onlyRegs u) :
    s.onlyRefRegs u := by
  rw [State.onlyRegs] at h h'
  rw [State.onlyRefRegs, h', h]
  rfl

/-- Bringing the reservoir and the live slots up to date writes registers and the reference unit (R74, R96). -/
theorem resStat_refSets_onlyRefRegs (s : State) (c u : Nat) : s.onlyRefRegs ((s.resStat c).refSets u) :=
  onlyRefRegs_of_setRef (resStat_onlyRegs s c) (onlyRegs_trans (onlyRegs_setFld_setFld ..) (onlyRegs_setFld_setFld ..))

/-! ## What a segment with lines still to come out of the reservoir keeps back -/

section
variable {s : State} {c : Nat} {g : SegSt} {l : ResLine} (hl : l ∈ (s.conn c).lines) (hg : g.is l.b l.part = true)
include hl hg

/-- A segment is not flushed before its last line is in the chain. -/
theorem flushIfDone_of_unchained {b : Int} {p : Nat} (moved : Bool) (hs : s.seg? c b p = some g) (hc : l.chained = false) :
    s.flushIfDone c b p moved = s := by
  have hall : ((s.conn c).lines.all fun l => !g.is l.b l.part || l.chained) = false :=
    List.all_eq_false.2 ⟨l, hl, by simp [hg, hc]⟩
  simp [State.flushIfDone, hs, hall]

/-- A segment is not released before its last line has been delivered (R101). -/
theorem release_of_undelivered {gs : List SegSt} (n : Nat) (hs : (s.conn c).segs = g :: gs) (hi : l.imaged = false) :
    s.release c n = s.resStat c := by
  have hall : ((s.conn c).lines.all fun l => !g.is l.b l.part || l.imaged) = false :=
    List.all_eq_false.2 ⟨l, hl, by simp [hg, hi]⟩
  have hr : (s.conn c).canRelease g = false := by simp [Conn.canRelease, Conn.segSeen, hall]
  cases n with
  | zero => rfl
  | succ n => simp [State.release, hs, hr]

end

theorem gapTry_of_no_gap {s : State} {c : Nat} {b : Int} {p : Nat} {g : SegSt} (hs : s.seg? c b p = some g) (hg : g.gap = none) :
    s.gapTry c b p = s := by
  simp [State.gapTry, hs, hg]

/-- The open segment of connection `c` marked closed short (R68). -/
def State.shutOpen (s : State) (c : Nat) (g : SegSt) : State :=
  let t := s.modSeg c g.b g.part fun g => { g with closed := true, short := true }
  t.setConn c { t.conn c with lastB := some g.b, lastPart := g.part }

/-- The open segment closed short, with its crews' runs broken (R68, R207). -/
def State.shutShort (s : State) (c : Nat) (g : SegSt) : State := (s.shutOpen c g).breakRuns g.unit

theorem segIs_self (g : SegSt) : g.is g.b g.part = true := decide_eq_true ⟨rfl, rfl⟩

/-- Closing the open segment short marks it, and then gives the reservoir what it may (R68). -/
theorem closeSeg_short {s : State} {c : Nat} {g : SegSt} (h : s.openSeg c = some g) : let w := s.shutShort c g
    s.closeSeg c true = (((w.flushIfDone c g.b g.part (decide (w.fld F.ING_CONN_CFG_UNIT c ≠ g.unit))).gapTry c g.b g.part).release
      c 64).refSets g.unit := by
  rw [State.closeSeg, h]
  rfl

section
variable {s : State} {c : Nat} {g : SegSt}

theorem shutShort_onlyCrews : (s.shutOpen c g).onlyCrews (s.shutShort c g) := breakRuns_onlyCrews ..

theorem shutShort_conn_ne {k : Nat} (hk : k ≠ c) : (s.shutShort c g).conn k = s.conn k :=
  (conn_congr (onlyCrews_conns shutShort_onlyCrews) k).trans ((State.conn_setConn_ne _ _ hk).trans (State.conn_setConn_ne s _ hk))

theorem shutOpen_leaves : (s.shutOpen c g).out = s.out ∧ (s.shutOpen c g).depot = s.depot ∧ (s.shutOpen c g).hbm = s.hbm :=
  ⟨rfl, rfl, rfl⟩

theorem shutShort_leaves : (s.shutShort c g).out = s.out ∧ (s.shutShort c g).depot = s.depot ∧ (s.shutShort c g).hbm = s.hbm := by
  have h : (s.shutOpen c g).onlyCrews (s.shutShort c g) := shutShort_onlyCrews
  obtain ⟨hout, hdepot, hhbm⟩ := shutOpen_leaves (s := s) (c := c) (g := g)
  exact ⟨(onlyCrews_out h).trans hout, (onlyCrews_depot h).trans hdepot, (onlyCrews_hbm h).trans hhbm⟩

variable (hs : (s.conn c).segs = [g])
include hs

theorem shutShort_conn : (s.shutShort c g).conn c =
    { s.conn c with segs := [{ g with closed := true, short := true }], lastB := some g.b, lastPart := g.part } := by
  let t := s.modSeg c g.b g.part fun g => { g with closed := true, short := true }
  have ht : t.conn c = { s.conn c with segs := [{ g with closed := true, short := true }] } := by
    refine (State.conn_setConn_same ..).trans ?_
    rw [hs]
    simp [segIs_self]
  rw [conn_congr (onlyCrews_conns shutShort_onlyCrews), State.shutOpen, State.conn_setConn_same, ht]

theorem openSeg_of_one (ho : g.closed = false) : s.openSeg c = some g := by simp [State.openSeg, hs, ho]

/-- A segment that closes short with a line still in the reservoir: nothing is flushed, owed or released. -/
theorem closeSeg_of_held {l : ResLine} (ho : g.closed = false) (hgap : g.gap = none) (hl : l ∈ (s.conn c).lines)
    (hg : g.is l.b l.part = true) (hch : l.chained = false) (him : l.imaged = false) :
    s.closeSeg c true = ((s.shutShort c g).resStat c).refSets g.unit := by
  let w := s.shutShort c g
  let g' : SegSt := { g with closed := true, short := true }
  have hw : w.conn c = { s.conn c with segs := [g'], lastB := some g.b, lastPart := g.part } := shutShort_conn hs
  have hlines : l ∈ (w.conn c).lines := by rw [hw]; exact hl
  have hsegs : (w.conn c).segs = [g'] := by rw [hw]
  have hseg : w.seg? c g.b g.part = some g' := by
    rw [State.seg?, hsegs]
    exact List.find?_cons_of_pos (segIs_self g)
  have hflush (moved : Bool) : w.flushIfDone c g.b g.part moved = w := flushIfDone_of_unchained hlines (g := g') hg moved hseg hch
  have hgaps : w.gapTry c g.b g.part = w := gapTry_of_no_gap hseg hgap
  have hrel : w.release c 64 = w.resStat c := release_of_undelivered hlines (g := g') hg 64 hsegs him
  have he := closeSeg_short (openSeg_of_one hs ho)
  dsimp only at he
  rw [he, hflush, hgaps, hrel]

end

/-- HOLD_100MS after the last line of an open segment, the segment closes short (R68). -/
theorem exec_segmentHoldTimeout {s : State} (dt : Nat) {c : Fin 16} (ho : (s.openSeg c).isSome = true)
    (ht : (s.conn c).lastLine + s.fld F.ODO_SEG_CFG_HOLD_100MS * 100000000 ≤ (s.now + dt) % 2 ^ 64) :
    exec (.segmentHoldTimeout dt c) s = .next ((s.tick dt).closeSeg c true) := by
  change execSegmentHoldTimeout dt c s = _
  simp only [execSegmentHoldTimeout, State.conn_tick, State.fld_tick]
  exact if_pos ⟨ho, ht⟩

/-- HOLD_100MS without a line closes the segment short (R68). -/
theorem segmentHoldTimeout_next {s : State} (dt : Nat) {c : Fin 16} {g : SegSt} {l : ResLine} (hs : (s.conn c).segs = [g])
    (ho : g.closed = false) (hgap : g.gap = none) (hl : l ∈ (s.conn c).lines) (hg : g.is l.b l.part = true) (hch : l.chained = false)
    (him : l.imaged = false)
    (ht : (s.conn c).lastLine + s.fld F.ODO_SEG_CFG_HOLD_100MS * 100000000 ≤ (s.now + dt) % 2 ^ 64) :
    ∃ t, exec (.segmentHoldTimeout dt c) s = .next t ∧ (t.conn c).segs = [{ g with closed := true, short := true }] ∧
      (t.conn c).lastB = some g.b ∧ (t.conn c).lastPart = g.part ∧ (t.conn c).lines = (s.conn c).lines ∧
      (∀ e < 64, (t.crew g.unit e).brk = true) ∧ (∀ k, k ≠ c.val → t.conn k = s.conn k) ∧ t.out = s.out ∧ s.sameMemory t := by
  let w := (s.tick dt).shutShort c g
  let t := (w.resStat c).refSets g.unit
  have hw : w.conn c = { s.conn c with segs := [{ g with closed := true, short := true }], lastB := some g.b, lastPart := g.part } :=
    shutShort_conn (s := s.tick dt) hs
  have hframe : w.onlyRefRegs t := resStat_refSets_onlyRefRegs ..
  have hconn (k : Nat) : t.conn k = w.conn k := conn_congr (onlyRefRegs_conns hframe) k
  obtain ⟨hout, hdepot, hhbm⟩ := shutShort_leaves (s := s.tick dt) (c := c) (g := g)
  have hbrk (e : Nat) (he : e < 64) : (t.crew g.unit e).brk = true := by
    rw [crew_congr (onlyRefRegs_crews hframe)]
    exact breakRuns_broken _ g.unit he
  refine ⟨t, ?_, ?_, ?_, ?_, ?_, hbrk, fun k hk => (hconn k).trans (shutShort_conn_ne hk), (onlyRefRegs_out hframe).trans hout,
    sameMemory_of_stores ((onlyRefRegs_depot hframe).trans hdepot) ((onlyRefRegs_hbm hframe).trans hhbm)⟩
  · rw [exec_segmentHoldTimeout dt (by rw [openSeg_of_one hs ho]; rfl) ht, closeSeg_of_held (s := s.tick dt) hs ho hgap hl hg hch him]
  · rw [hconn, hw]
  · rw [hconn, hw]
  · rw [hconn, hw]
  · rw [hconn, hw]

/-- Settles O35: a planned line to one target, the three configuration registers, and a segment that closes short. -/
theorem triggerGeneratorsEmitLines : Obligations.TriggerGeneratorsEmitLines := by
  intro dt s
  exact ⟨fun g c d l hp hd hen htg hb hlast hs hgv hl ht =>
      triggerPlannedTime_next dt hp hd hen htg hb hlast hs hgv hl ht,
    fun r g v ha hen => odoTgCfgWrite_next dt r v ha hen,
    fun r v ha hr h1 h2 h3 => odoSegCfgWrite_next dt r v ha hr h1 h2 h3,
    fun r c v ha hv => ingResCfgWrite_next dt r v ha hv,
    fun c g l hs ho hgap hl hg hch him ht => segmentHoldTimeout_next dt hs ho hgap hl hg hch him ht⟩

end Sys2Proof.Machine
end

section
/-! The reference units' store (R77 to R102), and the two register updates that follow a step of a unit's lane: REF_SETS with its live
slots (R96, R98) and ING_SEAM_STAT (R214). -/
namespace Sys2Proof.Machine

section
variable {s t v : State}

/-- States with one store of reference units read alike. -/
theorem refU_congr (h : t.refs = s.refs) (u : Nat) : t.refU u = s.refU u := by rw [State.refU, State.refU, h]

theorem onlyRegs_refs (h : s.onlyRegs t) : t.refs = s.refs := by rw [show t = { s with regs := t.regs } from h]

theorem onlyRefRegs_of_onlyRegs (h : s.onlyRegs t) : s.onlyRefRegs t := by
  rw [State.onlyRegs] at h
  rw [State.onlyRefRegs, h]

theorem onlyRefRegs_trans (h : s.onlyRefRegs t) (h' : t.onlyRefRegs v) : s.onlyRefRegs v := by
  rw [State.onlyRefRegs] at h h' ⊢
  rw [h', h]

end

section
variable (s : State)

theorem State.refU_setRef_same (u : Nat) (x : RefUnit) : (s.setRef u x).refU u = x := mapGet_mapSet_same ref0 s.refs u x

theorem State.refU_setRef_ne {u k : Nat} (x : RefUnit) (h : k ≠ u) : (s.setRef u x).refU k = s.refU k :=
  mapGet_mapSet_ne ref0 s.refs x h

@[simp] theorem State.refU_tick (dt u : Nat) : (s.tick dt).refU u = s.refU u := refU_congr rfl u

theorem setRef_sameStores (u : Nat) (x : RefUnit) : s.sameStores (s.setRef u x) := ⟨rfl, rfl, rfl⟩

theorem setRef_onlyRefRegs (u : Nat) (x : RefUnit) : s.onlyRefRegs (s.setRef u x) := rfl

/-! ## ING_SEAM_STAT -/

theorem seamStat_onlyRegs (u : Nat) : s.onlyRegs (s.seamStat u) := onlyRegs_setFld_setFld ..

theorem seamStat_keeps {u : Nat} (hu : u < 16) : s.keeps (s.seamStat u) [(.ING_SEAM_STAT, u, 0)] :=
  keeps_setFld_setFld (f := F.ING_SEAM_STAT_SEND_LAG) (g := F.ING_SEAM_STAT_RET_LEAD) s _ _ rfl ⟨hu, Nat.one_pos⟩

theorem seamStat_refU (u k : Nat) : (s.seamStat u).refU k = s.refU k := refU_congr (onlyRegs_refs (seamStat_onlyRegs s u)) k

/-- A unit's lane stored, with ING_SEAM_STAT brought up to date. -/
def State.putLane (s : State) (u : Nat) (x : RefUnit) : State := (s.setRef u x).seamStat u

theorem putLane_refU (u : Nat) (x : RefUnit) : (s.putLane u x).refU u = x :=
  (seamStat_refU ..).trans (s.refU_setRef_same u x)

theorem putLane_refU_ne {u k : Nat} (x : RefUnit) (h : k ≠ u) : (s.putLane u x).refU k = s.refU k :=
  (seamStat_refU ..).trans (s.refU_setRef_ne x h)

theorem putLane_keeps {u : Nat} (x : RefUnit) (hu : u < 16) : s.keeps (s.putLane u x) [(.ING_SEAM_STAT, u, 0)] :=
  keeps_trans (keeps_of_sameStores (setRef_sameStores s u x) (keeps_refl s [])) (seamStat_keeps _ hu)

theorem putLane_onlyRefRegs (u : Nat) (x : RefUnit) : s.onlyRefRegs (s.putLane u x) :=
  onlyRefRegs_of_setRef (onlyRegs_refl s) (seamStat_onlyRegs ..)

/-! ## REF_SETS -/

/-- The live slots of a unit once those that no line needs are free (R96). -/
def State.liveNeeded (s : State) (u : Nat) : List LiveSlot :=
  (List.range 3).map fun i => let l := (s.refU u).live.getD i ⟨false, []⟩; { l with used := l.used && s.slotNeeded u i }

/-- SLOTS_USED for three live slots. -/
def slotBits (live : List LiveSlot) : Nat :=
  (List.range 3).foldl (fun n i => if (live.getD i ⟨false, []⟩).used then n + 2 ^ i else n) 0

/-- Unit `u` with the live slots that no line needs freed (R96). -/
def State.freeSlots (s : State) (u : Nat) : State := s.setRef u { s.refU u with live := s.liveNeeded u }

/-- REF_SETS of unit `u` with SLOTS_USED, PEND and the busy bits of both banks. -/
def State.setsRegs (s : State) (u used pend busy0 busy1 : Nat) : State :=
  ((s.setFld F.REF_SETS_SLOTS_USED used u).setFld F.REF_SETS_PEND pend u).setFld F.REF_SETS_BANK0_BUSY busy0 u |>.setFld
    F.REF_SETS_BANK1_BUSY busy1 u

/-- The slots are freed, and REF_SETS shows those that are left, the pending entries and the busy banks (R96, R98). -/
theorem refSets_eq (u : Nat) : ∃ pend busy0 busy1,
    s.refSets u = (s.freeSlots u).setsRegs u (slotBits (s.liveNeeded u)) pend busy0 busy1 := ⟨_, _, _, rfl⟩

theorem setsRegs_onlyRegs (u used pend busy0 busy1 : Nat) : s.onlyRegs (s.setsRegs u used pend busy0 busy1) :=
  onlyRegs_trans (onlyRegs_setFld_setFld ..) (onlyRegs_setFld_setFld ..)

theorem setsRegs_keeps {u : Nat} (used pend busy0 busy1 : Nat) (hu : u < 16) :
    s.keeps (s.setsRegs u used pend busy0 busy1) [(.REF_SETS, u, 0)] :=
  have hr : regHas .REF_SETS u 0 := ⟨hu, Nat.one_pos⟩
  keeps_mono (keeps_trans (keeps_setFld_setFld (f := F.REF_SETS_SLOTS_USED) (g := F.REF_SETS_PEND) s used pend rfl hr)
    (keeps_setFld_setFld (f := F.REF_SETS_BANK0_BUSY) (g := F.REF_SETS_BANK1_BUSY) _ busy0 busy1 rfl hr)) (by simp)

theorem setsRegs_slotsUsed (u used pend busy0 busy1 : Nat) :
    (s.setsRegs u used pend busy0 busy1).fld F.REF_SETS_SLOTS_USED u = used % 2 ^ 3 := by
  rw [State.setsRegs, State.fld_setFld_other _ _ _ _ (by rfl) (by decide) (by decide),
    State.fld_setFld_other _ _ _ _ (by rfl) (by decide) (by decide), State.fld_setFld_other _ _ _ _ (by rfl) (by decide) (by decide),
    State.fld_setFld_same _ _ _ _ _ (by decide)]

theorem refSets_onlyRegs (u : Nat) : (s.freeSlots u).onlyRegs (s.refSets u) := by
  obtain ⟨pend, busy0, busy1, h⟩ := refSets_eq s u
  exact h ▸ setsRegs_onlyRegs ..

theorem refSets_onlyRefRegs (u : Nat) : s.onlyRefRegs (s.refSets u) := onlyRefRegs_of_setRef (onlyRegs_refl s) (refSets_onlyRegs s u)

theorem refSets_refU (u : Nat) : (s.refSets u).refU u = { s.refU u with live := s.liveNeeded u } :=
  (refU_congr (onlyRegs_refs (refSets_onlyRegs s u)) u).trans (s.refU_setRef_same u _)

theorem refSets_refU_ne {u k : Nat} (h : k ≠ u) : (s.refSets u).refU k = s.refU k :=
  (refU_congr (onlyRegs_refs (refSets_onlyRegs s u)) k).trans (s.refU_setRef_ne _ h)

theorem refSets_keeps {u : Nat} (hu : u < 16) : s.keeps (s.refSets u) [(.REF_SETS, u, 0)] := by
  obtain ⟨pend, busy0, busy1, h⟩ := refSets_eq s u
  rw [h]
  exact keeps_trans (keeps_of_sameStores (setRef_sameStores ..) (keeps_refl s [])) (setsRegs_keeps _ _ pend busy0 busy1 hu)

theorem slotBits_lt (live : List LiveSlot) : slotBits live < 2 ^ 3 := by
  simp only [slotBits, List.range_succ, List.range_zero, List.nil_append, List.cons_append, List.foldl_cons, List.foldl_nil]
  split <;> split <;> split <;> decide

theorem slotBits_testBit (live : List LiveSlot) {i : Nat} (hi : i < 3) :
    (slotBits live).testBit i = (live.getD i ⟨false, []⟩).used := by
  simp only [slotBits, List.range_succ, List.range_zero, List.nil_append, List.cons_append, List.foldl_cons, List.foldl_nil]
  generalize h0 : (live.getD 0 ⟨false, []⟩).used = a0, h1 : (live.getD 1 ⟨false, []⟩).used = a1,
    h2 : (live.getD 2 ⟨false, []⟩).used = a2
  interval_cases i
  all_goals
    simp only [h0, h1, h2]
    clear h0 h1 h2
    revert a0 a1 a2
    decide

theorem refSets_slotsUsed (u : Nat) : (s.refSets u).fld F.REF_SETS_SLOTS_USED u = slotBits (s.liveNeeded u) := by
  obtain ⟨pend, busy0, busy1, h⟩ := refSets_eq s u
  rw [h, setsRegs_slotsUsed]
  exact Nat.mod_eq_of_lt (slotBits_lt _)

/-- A live slot that is free, or that no line needs, reads as free in REF_SETS. -/
theorem refSets_slot_free {u i : Nat} (hi : i < 3)
    (h : ((s.refU u).live.getD i ⟨false, []⟩).used = false ∨ s.slotNeeded u i = false) :
    ((s.refSets u).fld F.REF_SETS_SLOTS_USED u).testBit i = false := by
  rw [refSets_slotsUsed, slotBits_testBit _ hi]
  have hget : ((s.liveNeeded u).getD i ⟨false, []⟩).used = (((s.refU u).live.getD i ⟨false, []⟩).used && s.slotNeeded u i) := by
    simp [State.liveNeeded, hi]
  rw [hget]
  exact Bool.and_eq_false_iff.2 h

end

/-- The wait for a live slot ends once one is free (R96). -/
theorem exec_refSlotWaitEnd {s : State} (dt : Nat) {u : Fin 16} (h : ((s.tick dt).refSets u).fld F.REF_SETS_SLOTS_USED u ≠ 7) :
    exec (.refSlotWaitEnd dt u) s = .next (((s.tick dt).refSets u).setFld F.REF_SETS_WAITING 0 u) := if_pos h

theorem refSlotWaitEnd_next {s : State} (dt : Nat) {u : Fin 16} {i : Nat} (hi : i < 3)
    (h : ((s.refU u).live.getD i ⟨false, []⟩).used = false ∨ s.slotNeeded u i = false) :
    ∃ t, exec (.refSlotWaitEnd dt u) s = .next t ∧ t.flag F.REF_SETS_WAITING u = false ∧
      (t.fld F.REF_SETS_SLOTS_USED u).testBit i = false ∧ (∀ j, j ≠ u.val → t.refU j = s.refU j) ∧
      s.keeps t [(.REF_SETS, u.val, 0)] ∧ t = { s.tick dt with regs := t.regs, refs := t.refs } := by
  let w := (s.tick dt).refSets u
  have hfree : (w.fld F.REF_SETS_SLOTS_USED u).testBit i = false := refSets_slot_free (s.tick dt) hi h
  have hne : w.fld F.REF_SETS_SLOTS_USED u ≠ 7 := by
    intro e
    rw [e] at hfree
    interval_cases i <;> exact absurd hfree (by decide)
  have hframe : w.onlyRegs (w.setFld F.REF_SETS_WAITING 0 u) := onlyRegs_setFld ..
  refine ⟨_, exec_refSlotWaitEnd dt hne, ?_, ?_, fun j hj => ?_, ?_, ?_⟩
  · rw [flag_setFld_same _ _ _ _ _ (by decide)]
    rfl
  · rw [State.fld_setFld_other _ _ _ _ (by rfl) (by decide) (by decide)]
    exact hfree
  · rw [refU_congr (onlyRegs_refs hframe), refSets_refU_ne _ hj, State.refU_tick]
  · exact keeps_of_tick (keeps_mono (keeps_trans (refSets_keeps (s.tick dt) u.isLt)
      (keeps_setFld _ F.REF_SETS_WAITING 0 ⟨u.isLt, Nat.one_pos⟩)) (by simp))
  · exact onlyRefRegs_trans (refSets_onlyRefRegs (s.tick dt) u) (onlyRefRegs_of_onlyRegs hframe)

/-- The lane stops waiting for its send cursors once none is 64 lines behind (R213). -/
theorem seamSendWaitEnd_next {s : State} (dt : Nat) {u : Fin 16} (hw : (s.refU u).sendWait = true) (hf : s.sendFull u = false) :
    ∃ t, exec (.seamSendWaitEnd dt u) s = .next t ∧ t.refU u = { s.refU u with sendWait := false } ∧
      (∀ j, j ≠ u.val → t.refU j = s.refU j) ∧ s.keeps t [(.ING_SEAM_STAT, u.val, 0)] ∧
      t = { s.tick dt with regs := t.regs, refs := t.refs } :=
  ⟨(s.tick dt).putLane u { s.refU u with sendWait := false }, if_pos ⟨hw, by rw [show (s.tick dt).sendFull u = false from hf]; rfl⟩,
    putLane_refU .., fun _ hj => (putLane_refU_ne _ _ hj).trans (s.refU_tick dt _), keeps_of_tick (putLane_keeps _ _ u.isLt),
    putLane_onlyRefRegs ..⟩

end Sys2Proof.Machine
end

section
/-! A line enters the reference lane (R75, R82): with nothing before it in temporal noise reduction, its first look starts its output
line, and its later looks have no earlier output line to join. -/
namespace Sys2Proof.Machine

/-- A line enters the chain: it is marked, and its output line stands alone in temporal noise reduction. -/
def State.enterLine (s : State) (u c : Nat) (l : ResLine) (m : TnrLine) : State :=
  (s.setRef u { s.refU u with tnr := [m] }).modLine c l.id fun r => { r with chained := true }

/-- The output line that the first look of a line starts (R82): its samples at 16 bits, each counted once. -/
def State.firstLook (s : State) (u c : Nat) (l : ResLine) (slot : Nat) : TnrLine :=
  let d := (pfncDepth (s.fld F.ING_CONN_PIXFMT_PFNC c)).getD 16
  let t0 := l.pix.map fun v => v % 2 ^ d * 2 ^ (16 - d)
  let w := t0.length / (s.chainGeo u).n
  ⟨l.id, l.n, l.b, l.part, slot, l.flags, (t0.drop (0 * w)).take w, List.replicate w 1, l.flags.testBit 1, false⟩

/-- The output line with its samples written by the width of a look. -/
theorem firstLook_eq (s : State) (u c : Nat) (l : ResLine) (slot : Nat) :
    s.firstLook u c l slot = let d := (pfncDepth (s.fld F.ING_CONN_PIXFMT_PFNC c)).getD 16
      let w := l.pix.length / (s.chainGeo u).n
      ⟨l.id, l.n, l.b, l.part, slot, l.flags, (l.pix.map fun v => v % 2 ^ d * 2 ^ (16 - d)).take w, List.replicate w 1,
        l.flags.testBit 1, false⟩ := by
  simp [State.firstLook]

section
variable (s : State) {u c : Nat} (l : ResLine) (m : TnrLine)

theorem enterLine_conn : (s.enterLine u c l m).conn c =
    { s.conn c with lines := (s.conn c).lines.map fun r => if r.id = l.id then { r with chained := true } else r } :=
  State.conn_setConn_same ..

theorem enterLine_conn_ne {k : Nat} (hk : k ≠ c) : (s.enterLine u c l m).conn k = s.conn k := State.conn_setConn_ne _ _ hk

theorem enterLine_refU : (s.enterLine u c l m).refU u = { s.refU u with tnr := [m] } := s.refU_setRef_same u _

theorem enterLine_refU_ne {k : Nat} (hk : k ≠ u) : (s.enterLine u c l m).refU k = s.refU k := s.refU_setRef_ne _ hk

theorem enterLine_sameStores : s.sameStores (s.enterLine u c l m) := ⟨rfl, rfl, rfl⟩

theorem enterLine_frame : s.enterLine u c l m = { s with refs := (s.enterLine u c l m).refs, conns := (s.enterLine u c l m).conns } := rfl

end

/-- A tap that no enabled splice entry reads sends nothing (R91). -/
theorem tapSend_of_no_source (s : State) (u t ct : Nat) (o : OutLine) (idx : Nat) (row : List Nat)
    (h : ∀ k < 4, splFld (s.slotSet u o.slot) F.REF_SPLICE_EN u k = 1 → splFld (s.slotSet u o.slot) F.REF_SPLICE_SRC u k ≠ t) :
    s.tapSend u t ct o idx row = s :=
  List.foldlRecOn (motive := (· = s)) _ _ rfl fun r hr k hk => by
    have hoff := fun e : _ ∧ _ => h k (List.mem_range.1 hk) e.1 e.2
    rw [if_neg hoff, hr]

/-- A later look of the one line in temporal noise reduction finds no earlier output line. -/
theorem lateLook_of_alone {s : State} {u : Nat} {m : TnrLine} (hm : (s.refU u).tnr = [m]) (c : Nat) {j : Nat} (hj : 0 < j)
    (look : List Nat) (copy again : Bool) : s.lateLook u c j m.n look copy again = s := by
  have hback : 0 < j * (s.chainGeo u).shift := Nat.mul_pos hj (Nat.succ_pos _)
  unfold State.lateLook
  by_cases hn : m.n < j * (s.chainGeo u).shift
  · exact if_pos hn
  · have hne : (m.n == m.n - j * (s.chainGeo u).shift) = false := beq_false_of_ne (by omega)
    simp only [if_neg hn, hm, List.find?_cons, hne, List.find?_nil]

section
variable {s : State} {u c i : Nat} {l : ResLine} (hn : 1 < (s.chainGeo u).n) (ht : (s.refU u).tnr = [])
  (hs : ∀ k < 4, splFld (s.slotSet u i) F.REF_SPLICE_EN u k = 1 → splFld (s.slotSet u i) F.REF_SPLICE_SRC u k ≠ 0)
include hn ht hs

/-- A line of several looks runs through an empty temporal noise reduction without sends: it is marked, and starts its output line. -/
theorem chainLine_first : s.chainLine u c l i false = s.enterLine u c l (s.firstLook u c l i) := by
  unfold State.chainLine
  extract_lets g depth smp t0 w look copy o set parts s0 m x keep s1 s2 s3
  have h0 : s0 = s := by
    unfold s0
    split
    · rfl
    · exact tapSend_of_no_source s u 0 parts o _ _ hs
  have hkeep : keep = [] := by simp only [keep, x, h0, ht, List.filter_nil]
  have h2 : s2 = s.enterLine u c l (s.firstLook u c l i) := by
    simp only [s2, s1, x, hkeep, h0, List.nil_append]
    rfl
  have hm : (s2.refU u).tnr = [m] := by rw [h2, enterLine_refU]; rfl
  have h3 : s3 = s2 := by
    unfold s3
    rw [if_neg Bool.false_ne_true]
    exact List.foldlRecOn (motive := (· = s2)) _ _ rfl fun r hr k _ => by
      rw [hr]
      exact lateLook_of_alone hm c (Nat.succ_pos k) _ copy false
  rw [if_neg (show ¬ g.n = 1 from fun e => absurd (e ▸ hn) (by decide)), if_neg Bool.false_ne_true, h3, h2]

/-- The next line of an open segment, whose slot is latched, leaves the reservoir into the chain (R75). -/
theorem chainStep_first {g : SegSt} (hw : s.flag F.REF_SETS_WAITING u = false) (hc : s.chainWork u = some (c, g, l, false))
    (hg : s.seg? c g.b g.part = some g) (hi : g.slot = some i) (ho : g.closed = false) (hq : (s.refU u).sendQ = []) :
    s.chainStep u = ((s.enterLine u c l (s.firstLook u c l i)).refSets u).seamStat u := by
  have hfull : s.sendFull u = false := by rw [State.sendFull, hq]; rfl
  have hopen (moved : Bool) : (s.enterLine u c l (s.firstLook u c l i)).flushIfDone c g.b g.part moved =
      s.enterLine u c l (s.firstLook u c l i) := by
    have hg' : (s.enterLine u c l (s.firstLook u c l i)).seg? c g.b g.part = some g := by
      rw [State.seg?, enterLine_conn]
      exact hg
    simp [State.flushIfDone, hg', ho]
  simp only [State.chainStep, hw, hc, hfull, hi, chainLine_first hn ht hs, hopen, Bool.false_eq_true, if_false]

end

/-- No remote columns are late while no row waits to be sent. -/
theorem haloAbort_of_no_sends {s : State} {u : Nat} (h : (s.refU u).sendQ = []) (n : Nat) : s.haloAbort u n = s := by
  have hlate : s.haloLate u = none := by rw [State.haloLate, h]; rfl
  cases n with
  | zero => rfl
  | succ n => rw [State.haloAbort, hlate]

theorem chainLineStart_next {s : State} (dt : Nat) {u : Fin 16} {c i : Nat} {g : SegSt} {l : ResLine}
    (hw : s.flag F.REF_SETS_WAITING u = false) (hc : s.chainWork u = some (c, g, l, false)) (hg : s.seg? c g.b g.part = some g)
    (hi : g.slot = some i) (ho : g.closed = false) (hq : (s.refU u).sendQ = []) (ht : (s.refU u).tnr = []) (hn : 1 < (s.chainGeo u).n)
    (hs : ∀ k < 4, splFld (s.slotSet u i) F.REF_SPLICE_EN u k = 1 → splFld (s.slotSet u i) F.REF_SPLICE_SRC u k ≠ 0) :
    ∃ t, exec (.chainLineStart dt u) s = .next t ∧
      (t.conn c).lines = (s.conn c).lines.map (fun r => if r.id = l.id then { r with chained := true } else r) ∧
      (t.refU u).tnr = [s.firstLook u c l i] ∧ (∀ j, j ≠ u.val → t.refU j = s.refU j) ∧ (∀ j, j ≠ c → t.conn j = s.conn j) ∧
      s.keeps t [(.REF_SETS, u.val, 0), (.ING_SEAM_STAT, u.val, 0)] ∧
      t = { s.tick dt with regs := t.regs, refs := t.refs, conns := t.conns } := by
  let w := (s.tick dt).enterLine u c l (s.firstLook u c l i)
  let t := (w.refSets u).seamStat u
  have hstep : (s.tick dt).chainStep u = t := chainStep_first (s := s.tick dt) hn ht hs hw hc hg hi ho hq
  have hframe : w.onlyRefRegs t := onlyRefRegs_trans (refSets_onlyRefRegs w u) (onlyRefRegs_of_onlyRegs (seamStat_onlyRegs ..))
  have hconn (k : Nat) : t.conn k = w.conn k := conn_congr (onlyRefRegs_conns hframe) k
  have href : t.refU u = { w.refU u with live := w.liveNeeded u } := (seamStat_refU ..).trans (refSets_refU w u)
  rw [enterLine_refU] at href
  refine ⟨t, ?_, ?_, ?_, fun j hj => ?_, fun j hj => ?_, ?_, ?_⟩
  · change Host.Outcome.next (((s.tick dt).chainStep u).haloAbort u 64) = _
    rw [hstep, haloAbort_of_no_sends (by rw [href]; exact hq)]
  · rw [hconn, enterLine_conn, State.conn_tick]
  · rw [href]
  · rw [seamStat_refU, refSets_refU_ne _ hj, enterLine_refU_ne _ _ _ hj, State.refU_tick]
  · rw [hconn, enterLine_conn_ne _ _ _ hj, State.conn_tick]
  · exact keeps_of_tick (keeps_trans (keeps_of_sameStores (enterLine_sameStores ..) (keeps_refl _ []))
      (keeps_trans (refSets_keeps w u.isLt) (seamStat_keeps _ u.isLt)))
  · have hw' : w = { s.tick dt with refs := w.refs, conns := w.conns } := enterLine_frame ..
    rw [State.onlyRefRegs] at hframe
    rw [hframe, hw']

end Sys2Proof.Machine
end

section
/-! The noise fit (R80): a confident set of statistics writes the noise model, a stale one holds the estimate. -/
namespace Sys2Proof.Machine

theorem fitField_lt (w : Nat) (q : Rat) : fitField w q < 2 ^ w := by
  have hw : (0 : Int) < 2 ^ w := by positivity
  have h : max 0 (min ((2 : Int) ^ w - 1) (nearestEven q)) < 2 ^ w := by omega
  have hc : ((2 ^ w : Nat) : Int) = 2 ^ w := by push_cast; rfl
  unfold fitField
  omega

/-- The noise model of unit `u` as a fit writes it, and EST_HELD cleared (R80). -/
def State.noiseModel (s : State) (u black read gain : Nat) : State :=
  (((s.setFld F.REF_NM_GAIN_NM_BLACK black u).setFld F.REF_NM_READ_NM_READ read u).setFld F.REF_NM_GAIN_NM_GAIN gain u).setFld
    F.REF_CTRL_EST_HELD 0 u

/-- A register that each unit has one of. -/
theorem regHas_unit {g : Reg} {u : Nat} (h1 : (regRow g).n1 = 16) (h2 : (regRow g).n2 = 1) (hu : u < 16) : regHas g u 0 :=
  ⟨h1 ▸ hu, h2 ▸ Nat.one_pos⟩

section
variable (s : State) {u : Nat} (black read gain : Nat)

theorem noiseModel_onlyRegs : s.onlyRegs (s.noiseModel u black read gain) :=
  onlyRegs_trans (onlyRegs_setFld_setFld ..) (onlyRegs_setFld_setFld ..)

variable (hu : u < 16)
include hu

theorem setBlack_keeps : s.keeps (s.setFld F.REF_NM_GAIN_NM_BLACK black u) [(.REF_NM_GAIN, u, 0)] :=
  keeps_setFld s F.REF_NM_GAIN_NM_BLACK black (regHas_unit rfl rfl hu)

theorem setRead_keeps : s.keeps (s.setFld F.REF_NM_READ_NM_READ read u) [(.REF_NM_READ, u, 0)] :=
  keeps_setFld s F.REF_NM_READ_NM_READ read (regHas_unit rfl rfl hu)

theorem setGain_keeps : s.keeps (s.setFld F.REF_NM_GAIN_NM_GAIN gain u) [(.REF_NM_GAIN, u, 0)] :=
  keeps_setFld s F.REF_NM_GAIN_NM_GAIN gain (regHas_unit rfl rfl hu)

theorem setHeld_keeps (v : Nat) : s.keeps (s.setFld F.REF_CTRL_EST_HELD v u) [(.REF_CTRL, u, 0)] :=
  keeps_setFld s F.REF_CTRL_EST_HELD v (regHas_unit rfl rfl hu)

theorem noiseModel_keeps : s.keeps (s.noiseModel u black read gain) [(.REF_NM_GAIN, u, 0), (.REF_NM_READ, u, 0), (.REF_CTRL, u, 0)] :=
  keeps_mono (keeps_trans (keeps_trans (keeps_trans (setBlack_keeps s black hu) (setRead_keeps _ read hu)) (setGain_keeps _ gain hu))
    (setHeld_keeps _ hu 0)) (by simp)

theorem noiseModel_black : (s.noiseModel u black read gain).fld F.REF_NM_GAIN_NM_BLACK u = black % 2 ^ 16 := by
  rw [State.noiseModel, fld_of_keeps (setHeld_keeps _ hu 0) (regHas_unit rfl rfl hu) (by simp),
    State.fld_setFld_other _ _ _ _ (by rfl) (by decide) (by decide),
    fld_of_keeps (setRead_keeps _ read hu) (regHas_unit rfl rfl hu) (by simp), State.fld_setFld_same _ _ _ _ _ (by decide)]

theorem noiseModel_read : (s.noiseModel u black read gain).fld F.REF_NM_READ_NM_READ u = read % 2 ^ 32 := by
  rw [State.noiseModel, fld_of_keeps (setHeld_keeps _ hu 0) (regHas_unit rfl rfl hu) (by simp),
    fld_of_keeps (setGain_keeps _ gain hu) (regHas_unit rfl rfl hu) (by simp), State.fld_setFld_same _ _ _ _ _ (by decide)]

theorem noiseModel_gain : (s.noiseModel u black read gain).fld F.REF_NM_GAIN_NM_GAIN u = gain % 2 ^ 16 := by
  rw [State.noiseModel, fld_of_keeps (setHeld_keeps _ hu 0) (regHas_unit rfl rfl hu) (by simp),
    State.fld_setFld_same _ _ _ _ _ (by decide)]

/-- The statistics are not among the registers of the noise model. -/
theorem refSt_setBlack {k : Nat} (hk : k < 36) : (s.setFld F.REF_NM_GAIN_NM_BLACK black u).refSt u k = s.refSt u k :=
  setBlack_keeps s black hu .REF_ST u k ⟨hu, hk⟩ (by simp)

end

/-- The time from which the hold limit of unit `u` counts is now (R80). -/
def State.noteFit (s : State) (u : Nat) : State := { s with noiseBase := mapSet 0 s.noiseBase u s.now }

/-- The fit's time is noted at its last register write. -/
theorem setFld_noteFit (s : State) (f : Fld) (v i u : Nat) :
    { s.setFld f v i with noiseBase := mapSet 0 s.noiseBase u s.now } = (s.setFld f v i).noteFit u := rfl

theorem noteFit_sameStores (s : State) (u : Nat) : s.sameStores (s.noteFit u) := ⟨rfl, rfl, rfl⟩

theorem noteFit_noiseBase {s t : State} (h : s.onlyRegs t) (u : Nat) : (t.noteFit u).noiseBase = mapSet 0 s.noiseBase u s.now := by
  rw [State.onlyRegs] at h
  rw [h]
  rfl

theorem noteFit_frame {s t : State} (h : s.onlyRegs t) (u : Nat) :
    t.noteFit u = { s with regs := (t.noteFit u).regs, noiseBase := (t.noteFit u).noiseBase } := by
  rw [State.onlyRegs] at h
  rw [h]
  rfl

/-- What a confident fit leaves: the three results in their fields, EST_HELD clear, and the fit's time (R80). -/
theorem fitted_leaves (s : State) (dt : Nat) {u black read gain : Nat} (hu : u < 16) (hb : black < 2 ^ 16) (hr : read < 2 ^ 32)
    (hg : gain < 2 ^ 16) : let t := ((s.tick dt).noiseModel u black read gain).noteFit u
    t.fld F.REF_NM_GAIN_NM_BLACK u = black ∧ t.fld F.REF_NM_READ_NM_READ u = read ∧ t.fld F.REF_NM_GAIN_NM_GAIN u = gain ∧
    t.flag F.REF_CTRL_EST_HELD u = false ∧ t.noiseBase = mapSet 0 s.noiseBase u ((s.now + dt) % 2 ^ 64) ∧
    s.keeps t [(.REF_NM_GAIN, u, 0), (.REF_NM_READ, u, 0), (.REF_CTRL, u, 0)] ∧
    t = { s.tick dt with regs := t.regs, noiseBase := t.noiseBase } := by
  have hregs := noiseModel_onlyRegs (s.tick dt) (u := u) black read gain
  refine ⟨?_, ?_, ?_, ?_, noteFit_noiseBase hregs u,
    keeps_of_tick (keeps_of_sameStores (noteFit_sameStores ..) (noiseModel_keeps _ black read gain hu)), noteFit_frame hregs u⟩
  · rw [fld_of_sameStores (noteFit_sameStores ..), noiseModel_black _ _ _ _ hu, Nat.mod_eq_of_lt hb]
  · rw [fld_of_sameStores (noteFit_sameStores ..), noiseModel_read _ _ _ _ hu, Nat.mod_eq_of_lt hr]
  · rw [fld_of_sameStores (noteFit_sameStores ..), noiseModel_gain _ _ _ _ hu, Nat.mod_eq_of_lt hg]
  · rw [flag_of_sameStores (noteFit_sameStores ..)]
    exact flag_setFld_same _ _ _ _ _ (by decide)

@[simp] theorem State.refSt_tick (s : State) (dt u k : Nat) : (s.tick dt).refSt u k = s.refSt u k := rfl

@[simp] theorem State.fitPoints_tick (s : State) (dt u : Nat) : (s.tick dt).fitPoints u = s.fitPoints u := rfl

section
variable {s : State} (dt : Nat) {u : Fin 16} (hm : s.mcUp = true) (hp : bitsOf (s.pol 0x01) u 1 = 1)
include hm hp

/-- Enough dark samples and three points of the fit: the noise model is written (R80). -/
theorem exec_noiseFit_confident (h1 : 4096 ≤ s.refSt u 1) (h3 : 3 ≤ (s.fitPoints u).length) :
    let mean : Rat := (s.refSt u 2 : Rat) / s.refSt u 1
    exec (.noiseFit dt u) s = .next (((s.tick dt).noiseModel u (fitField 16 mean)
      (fitField 32 ((s.refSt u 3 : Rat) / s.refSt u 1 - mean * mean)) (fitField 16 (4096 * slopeOf (s.fitPoints u)))).noteFit u) := by
  have hon : (s.tick dt).mcUp = true ∧ bitsOf ((s.tick dt).pol 0x01) u 1 = 1 := ⟨hm, hp⟩
  have hfit : 4096 ≤ s.refSt u 1 ∧ 3 ≤ (s.fitPoints u).length := ⟨h1, h3⟩
  change execNoiseFit dt u s = _
  simp only [execNoiseFit, if_pos hon, if_pos hfit, refSt_setBlack _ _ u.isLt (show 3 < 36 by decide), State.refSt_tick,
    State.fitPoints_tick]
  exact congrArg Host.Outcome.next (setFld_noteFit ..)

/-- Too few samples or points, and the hold limit past: the estimate is held (R80). -/
theorem exec_noiseFit_stale (h : s.refSt u 1 < 4096 ∨ (s.fitPoints u).length < 3)
    (ht : mapGet 0 s.noiseBase u + s.pol 0x02 * 1000000000 < (s.now + dt) % 2 ^ 64) :
    exec (.noiseFit dt u) s = .next ((s.tick dt).setFld F.REF_CTRL_EST_HELD 1 u) := by
  have hon : (s.tick dt).mcUp = true ∧ bitsOf ((s.tick dt).pol 0x01) u 1 = 1 := ⟨hm, hp⟩
  have hfew : ¬(4096 ≤ s.refSt u 1 ∧ 3 ≤ (s.fitPoints u).length) := by omega
  have hlate : mapGet 0 (s.tick dt).noiseBase u + (s.tick dt).pol 0x02 * 1000000000 < (s.tick dt).now := ht
  change execNoiseFit dt u s = _
  simp only [execNoiseFit, if_pos hon, State.refSt_tick, State.fitPoints_tick, if_neg hfew, if_pos hlate]

theorem noiseFit_confident (h1 : 4096 ≤ s.refSt u 1) (h3 : 3 ≤ (s.fitPoints u).length) :
    let mean : Rat := (s.refSt u 2 : Rat) / s.refSt u 1
    ∃ t, exec (.noiseFit dt u) s = .next t ∧ t.fld F.REF_NM_GAIN_NM_BLACK u = fitField 16 mean ∧
      t.fld F.REF_NM_READ_NM_READ u = fitField 32 ((s.refSt u 3 : Rat) / s.refSt u 1 - mean * mean) ∧
      t.fld F.REF_NM_GAIN_NM_GAIN u = fitField 16 (4096 * slopeOf (s.fitPoints u)) ∧ t.flag F.REF_CTRL_EST_HELD u = false ∧
      t.noiseBase = mapSet 0 s.noiseBase u ((s.now + dt) % 2 ^ 64) ∧
      s.keeps t [(.REF_NM_GAIN, u.val, 0), (.REF_NM_READ, u.val, 0), (.REF_CTRL, u.val, 0)] ∧
      t = { s.tick dt with regs := t.regs, noiseBase := t.noiseBase } := by
  intro mean
  exact ⟨_, exec_noiseFit_confident dt hm hp h1 h3, fitted_leaves s dt u.isLt (fitField_lt ..) (fitField_lt ..) (fitField_lt ..)⟩

theorem noiseFit_stale (h : s.refSt u 1 < 4096 ∨ (s.fitPoints u).length < 3)
    (ht : mapGet 0 s.noiseBase u + s.pol 0x02 * 1000000000 < (s.now + dt) % 2 ^ 64) :
    ∃ t, exec (.noiseFit dt u) s = .next t ∧ t.flag F.REF_CTRL_EST_HELD u = true ∧ s.keeps t [(.REF_CTRL, u.val, 0)] ∧
      t = { s.tick dt with regs := t.regs } :=
  ⟨_, exec_noiseFit_stale dt hm hp h ht, flag_setFld_same _ _ _ _ _ (by decide), keeps_of_tick (setHeld_keeps _ u.isLt 1),
    onlyRegs_setFld ..⟩

end

end Sys2Proof.Machine
end

section
/-! REF_TAB_DATA (R98, R103): the word that REF_TAB_ADDR names is read or written, and WORD moves to the next word of the bank. -/
namespace Sys2Proof.Machine

/-- REF_TAB_ADDR at the word after the one it names (R103). -/
def State.tabNext (s : State) (u : Nat) : State :=
  s.setFld F.REF_TAB_ADDR_WORD (if s.fld F.REF_TAB_ADDR_WORD u = 0x21FFF then 0 else s.fld F.REF_TAB_ADDR_WORD u + 1) u

/-- Word `i` of unit `u`'s tables written (R98). -/
def State.putTab (s : State) (u i : Nat) (v : Word) : State :=
  { s with refTab := mapSet (tabDefault (0x44000 * u + i)) s.refTab (0x44000 * u + i) v
           refBad := mapSet false s.refBad (0x44000 * u + i) false }

theorem tabNext_fields (s : State) {u : Nat} (hw : s.fld F.REF_TAB_ADDR_WORD u ≤ 0x21FFF) :
    (s.tabNext u).fld F.REF_TAB_ADDR_WORD u =
      (if s.fld F.REF_TAB_ADDR_WORD u = 0x21FFF then 0 else s.fld F.REF_TAB_ADDR_WORD u + 1) ∧
    (s.tabNext u).fld F.REF_TAB_ADDR_BANK u = s.fld F.REF_TAB_ADDR_BANK u := by
  rw [State.tabNext, State.fld_setFld_same _ _ _ _ _ (by decide), State.fld_setFld_other _ _ _ _ (by rfl) (by decide) (by decide)]
  refine ⟨Nat.mod_eq_of_lt (show _ < 2 ^ 18 from ?_), rfl⟩
  split <;> omega

theorem tabNext_keeps (s : State) {u : Nat} (hu : u < 16) : s.keeps (s.tabNext u) [(.REF_TAB_ADDR, u, 0)] :=
  keeps_setFld s F.REF_TAB_ADDR_WORD _ ⟨hu, Nat.one_pos⟩

theorem tabNext_onlyRegs (s : State) (u : Nat) : s.onlyRegs (s.tabNext u) := onlyRegs_setFld ..

theorem tabWord_putTab (s : State) (u i : Nat) (v : Word) (j : Nat) :
    (s.putTab u i v).tabWord u j = if j = i then v.toNat else s.tabWord u j := by
  unfold State.tabWord State.putTab
  by_cases h : j = i
  · rw [if_pos h, h, mapGet_mapSet_same]
  · rw [if_neg h, mapGet_mapSet_other _ _ _ _ (by omega)]

section
variable {s : State} (dt : Nat) (r : Requester) {u : Fin 16} (ha : s.access (regAddr .REF_TAB_DATA u) 4 = .ok (hitOf .REF_TAB_DATA u 0))
include ha

theorem exec_refTabDataAccess (wr : Option Word) : exec (.refTabDataAccess dt r u wr) s =
    .next (let q := (s.tick dt).tabAccess r u (wr.map (·.toNat)); if wr.isNone then q.1.emit (.readData r q.2) else q.1) := by
  change execRefTabDataAccess dt r u wr s = _
  simp only [execRefTabDataAccess, (access_tick s dt _ 4).trans ha]

variable (hw : s.fld F.REF_TAB_ADDR_WORD u ≤ 0x21FFF)
include hw

theorem refTabDataRead_next : ∃ t, exec (.refTabDataAccess dt r u none) s = .next t ∧
    t.out = s.out ++ [.readData r (s.tabWord u (0x22000 * s.fld F.REF_TAB_ADDR_BANK u + s.fld F.REF_TAB_ADDR_WORD u))] ∧
    (t.fld F.REF_TAB_ADDR_WORD u = (if s.fld F.REF_TAB_ADDR_WORD u = 0x21FFF then 0 else s.fld F.REF_TAB_ADDR_WORD u + 1) ∧
      t.fld F.REF_TAB_ADDR_BANK u = s.fld F.REF_TAB_ADDR_BANK u ∧ s.keeps t [(.REF_TAB_ADDR, u.val, 0)]) ∧
    t = { s.tick dt with regs := t.regs, out := t.out } := by
  obtain ⟨hword, hbank⟩ := tabNext_fields (s.tick dt) hw
  exact ⟨_, exec_refTabDataAccess dt r ha none, rfl, ⟨hword, hbank, keeps_of_tick (tabNext_keeps (s.tick dt) u.isLt)⟩, rfl⟩

theorem refTabDataWrite_next (v : Word) (hb : s.bankBusy u (s.fld F.REF_TAB_ADDR_BANK u) = false) :
    ∃ t, exec (.refTabDataAccess dt r u (some v)) s = .next t ∧
    (t.fld F.REF_TAB_ADDR_WORD u = (if s.fld F.REF_TAB_ADDR_WORD u = 0x21FFF then 0 else s.fld F.REF_TAB_ADDR_WORD u + 1) ∧
      t.fld F.REF_TAB_ADDR_BANK u = s.fld F.REF_TAB_ADDR_BANK u ∧ s.keeps t [(.REF_TAB_ADDR, u.val, 0)]) ∧
    (∀ j, t.tabWord u j = if j = 0x22000 * s.fld F.REF_TAB_ADDR_BANK u + s.fld F.REF_TAB_ADDR_WORD u then v.toNat else s.tabWord u j) ∧
    t = { s.tick dt with regs := t.regs, refTab := t.refTab, refBad := t.refBad } := by
  let i := 0x22000 * s.fld F.REF_TAB_ADDR_BANK u + s.fld F.REF_TAB_ADDR_WORD u
  have hfree : ¬ (s.tick dt).bankBusy u ((s.tick dt).fld F.REF_TAB_ADDR_BANK u) = true := by
    rw [show (s.tick dt).bankBusy u ((s.tick dt).fld F.REF_TAB_ADDR_BANK u) = false from hb]
    decide
  have hwrite : ((s.tick dt).tabAccess r u (some v.toNat)).1 = ((s.tick dt).tabNext u).putTab u i v := by
    simp only [State.tabAccess, if_neg hfree, BitVec.ofNat_toNat, BitVec.setWidth_eq]
    rfl
  obtain ⟨hword, hbank⟩ := tabNext_fields (s.tick dt) hw
  exact ⟨_, (exec_refTabDataAccess dt r ha (some v)).trans (congrArg Host.Outcome.next hwrite),
    ⟨hword, hbank, keeps_of_tick (tabNext_keeps (s.tick dt) u.isLt)⟩, tabWord_putTab _ u i v, rfl⟩

end

end Sys2Proof.Machine
end

section
/-! A crew returns a result row (R91, R193, R212, R213), and a neighbour device's row arrives on a junction port (R215, R216). -/
namespace Sys2Proof.Machine

/-- Is `r` the result row of line `n` of segment `g`. -/
def RetRow.ofLine (g : SegSt) (n : Nat) (r : RetRow) : Bool := decide (r.b = g.b ∧ r.part = g.part ∧ r.n = n)

/-- What has come of the row of a line, before the first stripe of it nothing. -/
def retHeld (rows : List RetRow) (g : SegSt) (n ch : Nat) : RetRow := (rows.find? (RetRow.ofLine g n)).getD ⟨g.b, g.part, n, ch, []⟩

/-- A row with the columns of stripe entry `e`. -/
def RetRow.put (r : RetRow) (e : Nat) (cut : List (Nat × List Nat)) : RetRow :=
  { r with cols := (r.cols.filter fun q => q.1 != e) ++ [(e, cut)] }

/-- The rows on their way back with `new` for the row of its line. -/
def retStore (rows : List RetRow) (g : SegSt) (n : Nat) (new : RetRow) : List RetRow :=
  if rows.any (RetRow.ofLine g n) then rows.map fun r => if RetRow.ofLine g n r then new else r else rows ++ [new]

theorem retHeld_ofLine (rows : List RetRow) (g : SegSt) (n ch : Nat) : RetRow.ofLine g n (retHeld rows g n ch) = true := by
  unfold retHeld
  cases h : rows.find? (RetRow.ofLine g n) with
  | none => simp [RetRow.ofLine]
  | some r => exact List.find?_some h

/-- A stripe that has delivered no part of a line is not in what has come of it. -/
theorem retHeld_lacks {rows : List RetRow} {g : SegSt} {n y : Nat} (ch : Nat)
    (h : ∀ r ∈ rows, RetRow.ofLine g n r = true → ∀ q ∈ r.cols, q.1 ≠ y) : ∀ q ∈ (retHeld rows g n ch).cols, q.1 ≠ y := by
  unfold retHeld
  cases hr : rows.find? (RetRow.ofLine g n) with
  | none => exact fun q hq => absurd hq List.not_mem_nil
  | some r => exact h r (List.mem_of_find?_eq_some hr) (List.find?_some hr)

theorem put_lacks {r : RetRow} {e y : Nat} (cut : List (Nat × List Nat)) (hy : y ≠ e) (h : ∀ q ∈ r.cols, q.1 ≠ y) :
    ((r.put e cut).cols.any fun q => q.1 == y) = false := by
  refine List.any_eq_false.2 fun q hq => ?_
  rw [beq_iff_eq]
  obtain hq | hq := List.mem_append.1 hq
  · exact h q (List.mem_filter.1 hq).1
  · rw [List.mem_singleton.1 hq]
    exact hy.symm

theorem mem_put_cols (r : RetRow) (e : Nat) (cut : List (Nat × List Nat)) : (e, cut) ∈ (r.put e cut).cols :=
  List.mem_append_right _ (List.mem_singleton_self _)

theorem mem_retStore (rows : List RetRow) (g : SegSt) (n : Nat) (new : RetRow) : new ∈ retStore rows g n new := by
  unfold retStore
  split
  · next h =>
    obtain ⟨r, hr, hm⟩ := List.any_eq_true.1 h
    exact List.mem_map.2 ⟨r, hr, if_pos hm⟩
  · exact List.mem_append_right _ (List.mem_singleton_self _)

/-- The rows of a set that stripe entry `e` has delivered and others have not (R213). -/
def retLead (rows : List RetRow) (e : Nat) : Nat := (rows.filter fun r => r.cols.any fun q => q.1 == e).length

/-- The columns that are kept of a result row of stripe entry `e` of splice `k`, narrowed (R193, R212). -/
def rowCut (set : FMap DWord) (u e k ch : Nat) (row : List Int) : List (Nat × List Nat) :=
  trimRow (sext (setFldIn set F.ING_STRIPE_GEOM_X0 u e) 16) (setFldIn set F.ING_STRIPE_GEOM_W_M1 u e + 1)
    (setFldIn set F.ING_STRIPE_HALO_H_L u e) (setFldIn set F.ING_STRIPE_HALO_H_R u e)
    (setFldIn set F.ING_STRIPE_CREW_OSH u e) ch (row.map (narrow (splFld set F.REF_SPLICE_RET8 u k == 1)))

/-- Has every stripe of splice `k` delivered a row (R213). -/
def rowFull (set : FMap DWord) (u k : Nat) (r : RetRow) : Bool :=
  (crewEntries set u).all fun x => setFldIn set F.ING_STRIPE_CREW_SPLICE u x != k || r.cols.any fun q => q.1 == x

theorem rowFull_of_lacking {set : FMap DWord} {u k y : Nat} {r : RetRow} (hy : y ∈ crewEntries set u)
    (hk : setFldIn set F.ING_STRIPE_CREW_SPLICE u y = k) (h : (r.cols.any fun q => q.1 == y) = false) : rowFull set u k r = false :=
  List.all_eq_false.2 ⟨y, hy, by simp [hk, h]⟩

section
variable {s : State} (dt : Nat) {u : Fin 16} {e : Fin 64} {seg n c : Nat} {g : SegSt} (ch : Nat) (row : List Int)
  (hf : (List.range 16).findSome? (fun c => ((s.conn c).segs.find? fun g => g.unit == u.val && segNum g.b g.part == seg).map
    fun g => (c, g)) = some (c, g))
  (hh : g.hs = false) (hl : ((s.conn c).lines.any fun l => g.is l.b l.part && l.n == n) = true)
include hf hh hl

/-- A row of a line of the segment: a crew 64 rows ahead waits, and else the row is kept while another stripe lacks it (R212, R213). -/
theorem exec_tapReturnRow : let set := s.slotSet u (g.slot.getD 0)
    let k := setFldIn set F.ING_STRIPE_CREW_SPLICE u e
    let rows := mapGet [] (s.refU u).rets k
    let new := (retHeld rows g n ch).put e (rowCut set u e k ch row)
    (64 ≤ retLead rows e → exec (.tapReturnRow dt u e seg n ch row false) s =
      .next ((s.tick dt).setFld F.ING_SEAM_STAT_RET_WAITED 1 u)) ∧
    (retLead rows e < 64 → rowFull set u k new = false → exec (.tapReturnRow dt u e seg n ch row false) s =
      .next ((s.tick dt).putLane u { s.refU u with rets := mapSet [] (s.refU u).rets k (retStore rows g n new) })) := by
  intro set k rows new
  obtain ⟨l, hline⟩ := Option.isSome_iff_exists.1 (List.find?_isSome.2 (List.any_eq_true.1 hl))
  change (_ → execTapReturnRow dt u e seg n ch row false s = _) ∧ (_ → _ → execTapReturnRow dt u e seg n ch row false s = _)
  unfold execTapReturnRow
  extract_lets w u' e'
  split
  · next h => exact absurd (h.symm.trans hf) nofun
  · next c' g' h =>
    obtain ⟨rfl, rfl⟩ := Prod.mk.inj (Option.some.inj (h.symm.trans hf))
    rw [if_neg (by rw [hh]; decide), if_neg Bool.false_ne_true]
    split
    · next h => exact absurd (h.symm.trans hline) nofun
    · extract_lets set' k' rows' lead cut mine old new' full rows1 rows2 t
      refine ⟨fun hlead => if_pos hlead, fun hlead hfull => ?_⟩
      have hopen : ¬ full = true := Bool.eq_false_iff.1 hfull
      have hrows : rows2 = retStore rows g' n new := if_neg hopen
      rw [if_neg (show ¬ 64 ≤ lead from Nat.not_le.2 hlead), if_neg hopen]
      simp only [t, hrows]
      rfl

variable {k : Nat} (hk : k = setFldIn (s.slotSet u (g.slot.getD 0)) F.ING_STRIPE_CREW_SPLICE u e)
include hk

theorem tapReturnRow_waits (hlead : 64 ≤ retLead (mapGet [] (s.refU u).rets k) e) :
    ∃ t, exec (.tapReturnRow dt u e seg n ch row false) s = .next t ∧ t.flag F.ING_SEAM_STAT_RET_WAITED u = true ∧
      s.keeps t [(.ING_SEAM_STAT, u.val, 0)] ∧ t = { s.tick dt with regs := t.regs } := by
  subst hk
  exact ⟨_, (exec_tapReturnRow dt ch row hf hh hl).1 hlead, flag_setFld_same _ _ _ _ _ (by decide),
    keeps_of_tick (keeps_setFld _ F.ING_SEAM_STAT_RET_WAITED 1 ⟨u.isLt, Nat.one_pos⟩), onlyRegs_setFld ..⟩

/-- The row is kept while a stripe `y` of the splice has delivered no part of its line (R213). -/
theorem tapReturnRow_kept {y : Nat} (hy : y ∈ crewEntries (s.slotSet u (g.slot.getD 0)) u) (hye : y ≠ e.val)
    (hyk : setFldIn (s.slotSet u (g.slot.getD 0)) F.ING_STRIPE_CREW_SPLICE u y = k)
    (hlacks : ∀ r ∈ mapGet [] (s.refU u).rets k, RetRow.ofLine g n r = true → ∀ q ∈ r.cols, q.1 ≠ y)
    (hlead : retLead (mapGet [] (s.refU u).rets k) e < 64) :
    ∃ t, exec (.tapReturnRow dt u e seg n ch row false) s = .next t ∧
      (∃ r ∈ mapGet [] (t.refU u).rets k, RetRow.ofLine g n r = true ∧
        (e.val, rowCut (s.slotSet u (g.slot.getD 0)) u e k ch row) ∈ r.cols) ∧
      (∀ j, j ≠ u.val → t.refU j = s.refU j) ∧ s.keeps t [(.ING_SEAM_STAT, u.val, 0)] ∧
      t = { s.tick dt with regs := t.regs, refs := t.refs } := by
  subst hk
  let set := s.slotSet u (g.slot.getD 0)
  let k := setFldIn set F.ING_STRIPE_CREW_SPLICE u e
  let rows := mapGet [] (s.refU u).rets k
  let new := (retHeld rows g n ch).put e (rowCut set u e k ch row)
  have hfull : rowFull set u k new = false := rowFull_of_lacking hy hyk (put_lacks _ hye (retHeld_lacks ch hlacks))
  refine ⟨_, (exec_tapReturnRow dt ch row hf hh hl).2 hlead hfull, ⟨new, ?_, retHeld_ofLine rows g n ch, mem_put_cols ..⟩,
    fun j hj => (putLane_refU_ne _ _ hj).trans (s.refU_tick dt j), keeps_of_tick (putLane_keeps _ _ u.isLt), putLane_onlyRefRegs ..⟩
  rw [putLane_refU]
  dsimp only
  rw [mapGet_mapSet_same]
  exact mem_retStore rows g n new

end

/-- A row from a junction port is kept where no segment of its number is on the hard shoulder (R215, R216). -/
theorem exec_exportRowReceived {s : State} (dt : Nat) {port : Fin 4} (splice : Fin 4) {seg : Nat} (idx : Nat) (row : List (Fin 65536))
    (hp : s.jctActive port = true) (hs : ∀ c < 16, ∀ g ∈ (s.conn c).segs, segNum g.b g.part = seg → g.hs = false) :
    exec (.exportRowReceived dt port splice seg idx row) s =
      .next { s.tick dt with exports := s.exports ++ [⟨port, splice, seg, idx, row.map (·.val)⟩] } := by
  have hlive : ((List.range 16).any fun c => ((s.tick dt).conn c).segs.any fun g => g.hs && segNum g.b g.part == seg) = false := by
    refine List.any_eq_false.2 fun c hc hany => ?_
    obtain ⟨g, hg, hdead⟩ := List.any_eq_true.1 hany
    obtain ⟨hhs, hseg⟩ := (Bool.and_eq_true ..).mp hdead
    exact absurd ((hs c (List.mem_range.1 hc) g hg (eq_of_beq hseg)).symm.trans hhs) Bool.false_ne_true
  change execExportRowReceived dt port splice seg idx row s = _
  rw [execExportRowReceived, if_pos (show (s.tick dt).jctActive port = true from hp), State.exportIn, hlive]
  rfl

/-- Settles O42: the lane's first line, the noise fit both ways, a freed slot, the table words, the result rows, the end of the send
wait and a row from a junction port, each by its own theorem. -/
theorem referenceLaneMovesLines : Obligations.ReferenceLaneMovesLines := by
  intro dt u s
  refine ⟨fun c i g l hw hc hg hi ho hq ht hn hs => ?_, fun hm hp => ⟨noiseFit_confident dt hm hp, noiseFit_stale dt hm hp⟩,
    fun i hi h => refSlotWaitEnd_next dt hi h, fun r v hw ha => ⟨refTabDataRead_next dt r ha hw, refTabDataWrite_next dt r ha hw v⟩,
    fun e seg n ch c k row g hf hh hl => ?_, seamSendWaitEnd_next dt,
    fun port splice seg idx row hp hs => exec_exportRowReceived dt splice idx row hp hs⟩
  · obtain ⟨t, he, hlines, htnr, hrest⟩ := chainLineStart_next dt hw hc hg hi ho hq ht hn hs
    exact ⟨t, he, hlines, htnr.trans (congrArg (fun m => [m]) (firstLook_eq s u c l i)), hrest⟩
  · intro set rows mine hk lead
    refine ⟨tapReturnRow_waits dt ch row hf hh hl hk, fun hlead hlacking => ?_⟩
    obtain ⟨y, hy, hye, hyk, hlacks⟩ := hlacking
    obtain ⟨t, he, ⟨r, hr, hm, hcut⟩, ht⟩ := tapReturnRow_kept dt ch row hf hh hl hk hy hye hyk
      (fun r hr hm => hlacks r hr (of_decide_eq_true hm)) hlead
    exact ⟨t, he, ⟨r, hr, of_decide_eq_true hm, hcut⟩, ht⟩

end Sys2Proof.Machine
end

section
/-! One tile and its storage: reads of a tile after a change of it, the words of the scratchpad and of the line buffer after a write
(R114, R121), and the frame of what acts on one tile. -/
namespace Sys2Proof.Machine

section
variable {s t : State}

theorem tile_congr (h : t.tiles = s.tiles) (k : Nat) : t.tile k = s.tile k := by rw [State.tile, State.tile, h]

end

section
variable (s : State)

theorem State.tile_modTile_same (k : Nat) (f : Tile → Tile) : (s.modTile k f).tile k = f (s.tile k) :=
  mapGet_mapSet_same tile0 s.tiles k _

theorem State.tile_modTile_ne {k j : Nat} (f : Tile → Tile) (h : j ≠ k) : (s.modTile k f).tile j = s.tile j :=
  mapGet_mapSet_ne tile0 s.tiles _ h

@[simp] theorem State.tile_tick (dt k : Nat) : (s.tick dt).tile k = s.tile k := tile_congr rfl k
@[simp] theorem State.tile_setFld (f : Fld) (v i j k : Nat) : (s.setFld f v i j).tile k = s.tile k := tile_congr (State.setFld_tiles s f v i j) k
@[simp] theorem State.tile_setTState (i c k : Nat) : (s.setTState i c).tile k = s.tile k := s.tile_setFld ..
@[simp] theorem State.fld_modTile (k : Nat) (g : Tile → Tile) (f : Fld) (i j : Nat) : (s.modTile k g).fld f i j = s.fld f i j :=
  State.fld_congr rfl f i j

end

/-! ## What acts on one tile -/

/-- `t` differs from `s` in tile `k` and in the registers of `l` alone. -/
structure OnTile (s t : State) (k : Nat) (l : List (Reg × Nat × Nat)) : Prop where
  others : ∀ j, j ≠ k → t.tile j = s.tile j
  regs : s.keeps t l
  frame : t = { s with regs := t.regs, tiles := t.tiles }

theorem OnTile.refl (s : State) (k : Nat) (l : List (Reg × Nat × Nat)) : OnTile s s k l := ⟨fun _ _ => rfl, keeps_refl s l, rfl⟩

theorem OnTile.trans {s t u : State} {k : Nat} {l : List (Reg × Nat × Nat)} (h : OnTile s t k l) (h' : OnTile t u k l) :
    OnTile s u k l where
  others j hj := (h'.others j hj).trans (h.others j hj)
  regs := keeps_mono (keeps_trans h.regs h'.regs) (by simp)
  frame := by rw [h'.frame, h.frame]

theorem OnTile.mono {s t : State} {k : Nat} {l l' : List (Reg × Nat × Nat)} (h : OnTile s t k l) (hl : ∀ x ∈ l, x ∈ l') :
    OnTile s t k l' := ⟨h.others, keeps_mono h.regs hl, h.frame⟩

theorem onTile_modTile (s : State) (k : Nat) (f : Tile → Tile) (l : List (Reg × Nat × Nat)) : OnTile s (s.modTile k f) k l where
  others _ hj := s.tile_modTile_ne f hj
  regs := keeps_of_regs l rfl
  frame := rfl

theorem onTile_setFld (s : State) (f : Fld) (v : Nat) {k : Nat} {l : List (Reg × Nat × Nat)} (hk : regHas f.reg k 0)
    (hl : (f.reg, k, 0) ∈ l) : OnTile s (s.setFld f v k) k l where
  others _ _ := rfl
  regs := keeps_mono (keeps_setFld s f v hk) (by simpa using hl)
  frame := rfl

theorem OnTile.depot {s t : State} {k : Nat} {l : List (Reg × Nat × Nat)} (h : OnTile s t k l) : t.depot = s.depot := by rw [h.frame]
theorem OnTile.hbm {s t : State} {k : Nat} {l : List (Reg × Nat × Nat)} (h : OnTile s t k l) : t.hbm = s.hbm := by rw [h.frame]

/-! ## Storage -/

section
variable {s t : State} {k : Nat}

/-- A scratchpad word's row and bank are found through the map registers of its tile alone (R121). -/
theorem mapEntry_congr (h : ∀ e < 256, t.reg .TILE_MAP k e = s.reg .TILE_MAP k e) {bank : Nat} (hb : bank < 16) (lrow : Nat) {i n : Nat}
    (hi : i + n ≤ 16) : t.mapEntry k bank lrow i n = s.mapEntry k bank lrow i n := by
  induction n generalizing i with
  | zero => rfl
  | succ n ih =>
    have he (lo w : Nat) : t.fld ⟨.TILE_MAP, lo, w⟩ k (bank * 16 + i) = s.fld ⟨.TILE_MAP, lo, w⟩ k (bank * 16 + i) := by
      rw [State.fld, State.fld, h _ (by omega)]
    simp only [State.mapEntry, he, ih (show i + 1 + n ≤ 16 by omega)]

theorem spBank_lt (w : Nat) : spBank w < 16 := Nat.mod_lt _ (by decide)

theorem spKey_congr (h : ∀ e < 256, t.reg .TILE_MAP k e = s.reg .TILE_MAP k e) (w : Nat) : t.spKey k w = s.spKey k w := by
  simp only [State.spKey, mapEntry_congr h (spBank_lt w) (spRow w) (show 0 + 16 ≤ 16 from Nat.le_refl 16)]

theorem readW_congr (h : ∀ e < 256, t.reg .TILE_MAP k e = s.reg .TILE_MAP k e) (hsp : (t.tile k).sp = (s.tile k).sp)
    (hlb : (t.tile k).lb = (s.tile k).lb) (lb : Bool) (a : Nat) : t.readW k lb a = s.readW k lb a := by
  simp only [State.readW, spKey_congr h, hsp, hlb]

theorem readWs_congr (h : ∀ lb a, t.readW k lb a = s.readW k lb a) (lb : Bool) (a n : Nat) : t.readWs k lb a n = s.readWs k lb a n := by
  induction n generalizing a with
  | zero => rfl
  | succ n ih => simp only [State.readWs, h, ih]

theorem map_of_keeps {l : List (Reg × Nat × Nat)} (h : s.keeps t l) (hk : k < 1088) (hl : ∀ e, (Reg.TILE_MAP, k, e) ∉ l) :
    ∀ e < 256, t.reg .TILE_MAP k e = s.reg .TILE_MAP k e := fun e he => h _ _ _ ⟨hk, he⟩ (hl e)

end

section
variable (s : State) (k : Nat)

/-- A map entry found maps the row asked for, and is one of the bank's sixteen. -/
theorem mapEntry_some {bank lrow i n j : Nat} (h : s.mapEntry k bank lrow i n = some j) :
    j < i + n ∧ s.fld F.TILE_MAP_LROW k (bank * 16 + j) = lrow := by
  induction n generalizing i with
  | zero => exact absurd h nofun
  | succ n ih =>
    rw [State.mapEntry] at h
    split at h
    · next hv => cases h; exact ⟨by omega, hv.2.2⟩
    · obtain ⟨hj, hr⟩ := ih h
      exact ⟨by omega, hr⟩

/-- The row and the bank of a scratchpad word name it (R114). -/
theorem spRow_spBank_inj {a b : Nat} (hr : spRow a = spRow b) (hb : spBank a = spBank b) : a = b := by
  simp only [spRow, spBank] at hr hb
  omega

/-- Two words of the scratchpad are stored apart, mapped or not (R121). -/
theorem spKey_inj {a b : Nat} (ha : a < 16384) (hb : b < 16384) (h : s.spKey k a = s.spKey k b) : a = b := by
  have row (w : Nat) (hw : w < 16384) : ∃ r, s.spKey k w = spBank w * 1040 + r ∧ r < 1040 ∧
      (r < 1024 → r = spRow w) ∧ (1024 ≤ r → s.fld F.TILE_MAP_LROW k (spBank w * 16 + (r - 1024)) = spRow w) := by
    simp only [State.spKey]
    split
    · next j hj =>
      obtain ⟨hlt, hrow⟩ := mapEntry_some s k hj
      exact ⟨1024 + j, rfl, by omega, fun h => absurd h (by omega), fun _ => by rwa [Nat.add_sub_cancel_left]⟩
    · have hlt : spRow w < 1024 := by simp only [spRow]; omega
      exact ⟨spRow w, rfl, by omega, fun _ => rfl, fun h => absurd h (by omega)⟩
  obtain ⟨ra, hka, hra, hlowa, hmapa⟩ := row a ha
  obtain ⟨rb, hkb, hrb, hlowb, hmapb⟩ := row b hb
  have hbank : spBank a = spBank b := by omega
  have hrow : ra = rb := by omega
  subst hrow
  refine spRow_spBank_inj ?_ hbank
  by_cases hlow : ra < 1024
  · rw [← hlowa hlow, hlowb hlow]
  · rw [← hmapa (by omega), ← hmapb (by omega), hbank]

@[simp] theorem State.spKey_modTile (f : Tile → Tile) (i w : Nat) : (s.modTile i f).spKey k w = s.spKey k w :=
  spKey_congr (fun _ _ => State.reg_congr rfl _ _ _) w

/-- A word written reads as it was written. -/
theorem readW_writeW_same (lb : Bool) (a : Nat) (c : Cell16) : (s.writeW k lb a c).readW k lb a = c := by
  cases lb <;> simp [State.readW, State.writeW, State.tile_modTile_same]

/-- A write of a word leaves every other word of its tile. -/
theorem readW_writeW_ne {lb lb' : Bool} {a b : Nat} (c : Cell16) (ha : a < spaceWords lb) (hb : b < spaceWords lb')
    (h : lb ≠ lb' ∨ a ≠ b) : (s.writeW k lb' b c).readW k lb a = s.readW k lb a := by
  cases lb <;> cases lb' <;> simp only [State.readW, State.writeW, State.tile_modTile_same, State.spKey_modTile, if_true,
    Bool.false_eq_true, if_false]
  · exact mapGet_mapSet_ne _ _ _ fun e => (h.resolve_left (fun g => g rfl)) (spKey_inj s k ha hb e)
  · exact mapGet_mapSet_ne _ _ _ (h.resolve_left fun g => g rfl)

/-- What a write of a word leaves of its tile: all but the storage. -/
theorem writeW_tile (lb : Bool) (a : Nat) (c : Cell16) : (s.writeW k lb a c).tile k =
    { s.tile k with sp := ((s.writeW k lb a c).tile k).sp, lb := ((s.writeW k lb a c).tile k).lb } := by
  cases lb <;> simp only [State.writeW, State.tile_modTile_same, if_true, Bool.false_eq_true, if_false]

theorem writeW_onTile (lb : Bool) (a : Nat) (c : Cell16) (l : List (Reg × Nat × Nat)) : OnTile s (s.writeW k lb a c) k l := by
  cases lb
  · exact onTile_modTile s k (fun x => { x with sp := mapSet cell0 x.sp (s.spKey k a) c }) l
  · exact onTile_modTile s k (fun x => { x with lb := mapSet cell0 x.lb a c }) l

@[simp] theorem State.fld_writeW (lb : Bool) (a : Nat) (c : Cell16) (f : Fld) (i j : Nat) :
    (s.writeW k lb a c).fld f i j = s.fld f i j := by
  cases lb <;> exact State.fld_congr rfl f i j

/-- Words written in order: what they leave of their tile. -/
theorem writeWs_tile (lb : Bool) (a : Nat) (cs : List Cell16) : (s.writeWs k lb a cs).tile k =
    { s.tile k with sp := ((s.writeWs k lb a cs).tile k).sp, lb := ((s.writeWs k lb a cs).tile k).lb } := by
  induction cs generalizing s a with
  | nil => rfl
  | cons c cs ih => rw [State.writeWs, ih, writeW_tile]

theorem writeWs_onTile (lb : Bool) (a : Nat) (cs : List Cell16) (l : List (Reg × Nat × Nat)) : OnTile s (s.writeWs k lb a cs) k l := by
  induction cs generalizing s a with
  | nil => exact .refl s k l
  | cons c cs ih => exact (writeW_onTile s k lb a c l).trans (ih _ _)

theorem State.fld_writeWs (lb : Bool) (a : Nat) (cs : List Cell16) (f : Fld) (i j : Nat) :
    (s.writeWs k lb a cs).fld f i j = s.fld f i j := by
  induction cs generalizing s a with
  | nil => rfl
  | cons c cs ih => rw [State.writeWs, ih, State.fld_writeW]

/-- Words written in order leave every word outside their range. -/
theorem readW_writeWs_out {lb lb' : Bool} {a b : Nat} (cs : List Cell16) (hb : b + cs.length ≤ spaceWords lb') (ha : a < spaceWords lb)
    (h : lb ≠ lb' ∨ a < b ∨ b + cs.length ≤ a) : (s.writeWs k lb' b cs).readW k lb a = s.readW k lb a := by
  induction cs generalizing s b with
  | nil => rfl
  | cons c cs ih =>
    rw [List.length_cons] at hb h
    rw [State.writeWs, ih _ (show b + 1 + cs.length ≤ _ by omega) (h.imp_right (by omega))]
    exact readW_writeW_ne s k c ha (by omega) (h.imp_right (by omega))

/-- Words written in order read as they were written. -/
theorem readW_writeWs_in {lb : Bool} {b : Nat} (cs : List Cell16) (hb : b + cs.length ≤ spaceWords lb) {i : Nat} (hi : i < cs.length) :
    (s.writeWs k lb b cs).readW k lb (b + i) = cs[i] := by
  induction cs generalizing s b i with
  | nil => exact absurd hi (Nat.not_lt_zero i)
  | cons c cs ih =>
    rw [List.length_cons] at hb hi
    rw [State.writeWs]
    cases i with
    | zero =>
      exact (readW_writeWs_out _ k cs (by omega) (by omega) (.inr (.inl (Nat.lt_succ_self b)))).trans (readW_writeW_same s k lb b c)
    | succ i =>
      rw [show b + (i + 1) = b + 1 + i by omega, ih _ (by omega) (by omega)]
      rfl

end

end Sys2Proof.Machine
end

section
/-! The issue of a route word (R301, R308, R324): what it comes to where nothing holds the word back, and what the move to the next
word leaves. -/
namespace Sys2Proof.Machine

/-! ## The PC moves -/

/-- `t` is `s` with the PC of tile `k` at `pc` and its fetch buffer brought up to date. -/
structure PcMoved (s t : State) (k pc : Nat) : Prop where
  tile : t.tile k = { s.tile k with pc := pc, passed := false, groups := (t.tile k).groups }
  others : ∀ j, j ≠ k → t.tile j = s.tile j
  frame : t = { s with tiles := t.tiles }

theorem pcMoved_modTile (s : State) (k pc : Nat) : PcMoved s (s.modTile k fun x => { x with pc := pc, passed := false }) k pc where
  tile := by rw [s.tile_modTile_same]
  others _ hj := s.tile_modTile_ne _ hj
  frame := rfl

theorem PcMoved.fetchGroup {s t : State} {k pc : Nat} (h : PcMoved s t k pc) (g : Nat) : PcMoved s (t.fetchGroup k g) k pc where
  tile := by rw [State.fetchGroup, t.tile_modTile_same, h.tile]
  others j hj := (t.tile_modTile_ne _ hj).trans (h.others j hj)
  frame := by rw [State.fetchGroup, State.modTile, State.setTile, h.frame]

theorem pcMoved_enterPc (s : State) (k pc : Nat) : PcMoved s (s.enterPc k pc) k pc := by
  have step {t : State} (h : PcMoved s t k pc) (p : Prop) [Decidable p] (g : Nat) :
      PcMoved s (if p then t.fetchGroup k g else t) k pc := by
    split
    · exact h.fetchGroup g
    · exact h
  have keep {t : State} (h : PcMoved s t k pc) (b : Bool) (g : Nat) : PcMoved s (if b then t else t.fetchGroup k g) k pc := by
    split
    · exact h
    · exact h.fetchGroup g
  exact step (keep (pcMoved_modTile s k pc) _ _) _ _

/-- At a word that ends no loop body, the PC moves to the next word and the loops stay (R308). -/
theorem pcMoved_nextWord {s : State} {k : Nat} (h : ∀ f ∈ (s.tile k).loops.head?, f.last ≠ (s.tile k).pc) :
    PcMoved s (s.nextWord k) k ((s.tile k).pc + 1) := by
  have go (ls : List LoopFrame) (hl : (s.tile k).loops = ls) :
      PcMoved s ((s.modTile k fun x => { x with loops := ls }).enterPc k ((s.tile k).pc + 1)) k ((s.tile k).pc + 1) := by
    have hp := pcMoved_enterPc (s.modTile k fun x => { x with loops := ls }) k ((s.tile k).pc + 1)
    refine ⟨?_, fun j hj => (hp.others j hj).trans (s.tile_modTile_ne _ hj), hp.frame⟩
    rw [hp.tile, s.tile_modTile_same, ← hl]
  unfold State.nextWord
  cases hl : (s.tile k).loops with
  | nil => exact go [] hl
  | cons f fs =>
    rw [State.afterWord, if_neg (h f (by rw [hl]; rfl))]
    exact go (f :: fs) hl

/-! ## A word that nothing holds back -/

/-- The device as tile `k` comes to execute a word: time has passed, and the tile is in RUN. -/
def State.issued (s : State) (dt k : Nat) : State := (s.tick dt).setTState k tRun

section
variable (s : State) (dt : Nat) (k : Fin 1088)

@[simp] theorem issued_tile (j : Nat) : (s.issued dt k).tile j = s.tile j := ((s.tick dt).tile_setTState k tRun j).trans (s.tile_tick dt j)

theorem issued_tState : (s.issued dt k).tState k = tRun := State.fld_setFld_same _ F.TILE_STAT_STATE _ _ _ (by decide)

theorem issued_keeps : s.keeps (s.issued dt k) [(.TILE_STAT, k.val, 0)] :=
  keeps_of_tick (keeps_setFld (s.tick dt) F.TILE_STAT_STATE tRun ⟨k.isLt, Nat.one_pos⟩)

theorem issued_busy : (s.issued dt k).fld F.TILE_STAT_SB_BUSY k = s.fld F.TILE_STAT_SB_BUSY k :=
  State.fld_setFld_other (s.tick dt) _ _ _ rfl (by decide) (.inl (by decide))

theorem issued_gReg (i : Nat) : (s.issued dt k).gReg k i = s.gReg k i := by rw [State.gReg, State.gReg, issued_tile]

theorem issued_readW (lb : Bool) (a : Nat) : (s.issued dt k).readW k lb a = s.readW k lb a :=
  readW_congr (map_of_keeps (issued_keeps s dt k) k.isLt fun e => by simp) (by rw [issued_tile]) (by rw [issued_tile]) lb a

theorem issued_readWs (lb : Bool) (a n : Nat) : (s.issued dt k).readWs k lb a n = s.readWs k lb a n :=
  readWs_congr (issued_readW s dt k) lb a n

theorem issued_onTile : OnTile (s.tick dt) (s.issued dt k) k [(.TILE_STAT, k.val, 0)] :=
  onTile_setFld (s.tick dt) F.TILE_STAT_STATE tRun ⟨k.isLt, Nat.one_pos⟩ (List.mem_singleton_self _)

end

theorem curWord_toNat {s : State} {k op w : Nat} (h : s.issues k op w) : (s.curWord k).v.toNat = w := by
  obtain ⟨-, hw, hlt, -⟩ := h
  rw [hw]
  exact Nat.mod_eq_of_lt hlt

/-- The buffered word of an issuing tile is unpoisoned and of the opcode issued. -/
theorem State.issues.word {s : State} {k op w : Nat} (h : s.issues k op w) :
    (s.curWord k).v.toNat = w ∧ (s.curWord k).p = false ∧ wf w 7 0 = op :=
  ⟨curWord_toNat h, by rw [h.2.1], h.2.2.2.1⟩

/-- A word with an exception is not executed: its lowest cause stops the tile (R324, R327). -/
theorem issueWord_of_exc {s : State} {k op w cause : Nat} {names : State → Nat → Named} (effect : State → Nat → State)
    (h : s.issues k op w) (hc : lowest (s.rngExcs k (names s w).rngs ++ (names s w).excs) = some cause) :
    s.issueWord k op names effect = s.tileFault k cause 0 := by
  obtain ⟨hw, hp, hop⟩ := h.word
  simp only [State.issueWord, hw, hp, h.1, hop, hc, Bool.not_true, Bool.false_eq_true, if_false, ne_eq, not_true]

/-- A word that names `n` has no exception and no bank conflict, and waits for no entry (R324). -/
structure State.mayIssue (s : State) (k : Nat) (n : Named) : Prop where
  ranges : s.rngExcs k n.rngs = []
  excs : n.excs = []
  banks : n.banks = 0
  waits : n.waits = false
  sb : s.sbWait k n = false

/-- Nothing that a word names holds it back: it waits for no milestone either (R323, R324). -/
structure State.passes (s : State) (k : Nat) (n : Named) : Prop extends s.mayIssue k n where
  ms : s.msWaits k n = false

/-- A word without ranges needs no look at the scoreboard. -/
theorem mayIssue_of_no_ranges (s : State) (k : Nat) {n : Named} (hr : n.rngs = []) (hn : n.need = 0) (he : n.excs = [])
    (hb : n.banks = 0) (hw : n.waits = false) : s.mayIssue k n :=
  ⟨by rw [hr]; rfl, he, hb, hw, by simp [State.sbWait, hr, hn]⟩

/-- A word that names nothing is held back by nothing. -/
theorem passes_named0 (s : State) (k : Nat) : s.passes k named0 := ⟨mayIssue_of_no_ranges s k rfl rfl rfl rfl rfl, rfl⟩

/-- A word whose accesses are free, and which names nothing else. -/
theorem State.unblocked.passes {s : State} {k need : Nat} {rs : List Rng} (h : s.unblocked k rs need) :
    s.passes k { named0 with rngs := rs, need := need } := ⟨⟨h.1, rfl, rfl, rfl, h.2⟩, rfl⟩

/-- A word that may issue waits for its milestone, or has its effect (R323, R324). -/
theorem issueWord_of_mayIssue {s : State} {k op w : Nat} {names : State → Nat → Named} {effect : State → Nat → State}
    (h : s.issues k op w) (hp : s.mayIssue k (names s w)) : s.issueWord k op names effect =
      if s.msWaits k (names s w) then s.awaitMs k (names s w) else effect (s.setTState k tRun) w := by
  obtain ⟨hw, hpoison, hop⟩ := h.word
  have hnone : lowest (s.rngExcs k (names s w).rngs ++ (names s w).excs) = none := by rw [hp.ranges, hp.excs]; rfl
  simp only [State.issueWord, hw, hpoison, h.1, hop, hnone, hp.banks, hp.waits, hp.sb, Bool.not_true, Bool.or_false,
    Bool.false_eq_true, ne_eq, not_true, if_false]

/-- A word that nothing holds back has its effect (R324). -/
theorem issueWord_of_passes {s : State} {k op w : Nat} {names : State → Nat → Named} {effect : State → Nat → State}
    (h : s.issues k op w) (hp : s.passes k (names s w)) : s.issueWord k op names effect = effect (s.setTState k tRun) w := by
  rw [issueWord_of_mayIssue h hp.tomayIssue, hp.ms]
  rfl

theorem issueNext_of_passes {s : State} (dt : Nat) {k op w : Nat} {names : State → Nat → Named} {effect : State → Nat → State}
    (h : s.issues k op w) (hp : s.passes k (names (s.tick dt) w)) :
    (s.tick dt).issueNext k op names effect = (effect (s.issued dt k) w).nextWord k :=
  issueWord_of_passes (s := s.tick dt) h ⟨⟨hp.ranges, hp.excs, hp.banks, hp.waits, hp.sb⟩, hp.ms⟩

/-- What a word leaves that has acted on its own tile, once the PC has moved on. -/
theorem wordDone_nextWord {s u : State} {dt k op w busy : Nat} {l : List (Reg × Nat × Nat)} (h : s.issues k op w)
    (hu : OnTile (s.tick dt) u k ((.TILE_STAT, k, 0) :: l)) (hpc : (u.tile k).pc = (s.tile k).pc)
    (hloops : (u.tile k).loops = (s.tile k).loops) (hrun : u.tState k = tRun) (hbusy : u.fld F.TILE_STAT_SB_BUSY k = busy) :
    s.wordDone (u.nextWord k) dt k ((s.tile k).pc + 1) busy (u.tile k) l := by
  obtain ⟨-, -, -, -, hlast⟩ := h
  have hm := pcMoved_nextWord (s := u) (k := k) (by rw [hpc, hloops]; exact hlast)
  have hregs : (u.nextWord k).regs = u.regs := by rw [hm.frame]
  refine ⟨hpc ▸ hm.tile, fun j hj => (hm.others j hj).trans (hu.others j hj), ?_, ?_, keeps_congr hregs (keeps_of_tick hu.regs), ?_⟩
  · exact (State.fld_congr hregs ..).trans hrun
  · exact (State.fld_congr hregs ..).trans hbusy
  · rw [hm.frame, hu.frame]

/-- A word that changes its tile alone by `f`. -/
theorem wordDone_of_modTile {s : State} (dt : Nat) {k : Fin 1088} {op w : Nat} {x : Tile} (f : Tile → Tile) (h : s.issues k op w)
    (hx : f (s.tile k) = x) (hpc : x.pc = (s.tile k).pc) (hloops : x.loops = (s.tile k).loops) :
    s.wordDone (((s.issued dt k).modTile k f).nextWord k) dt k ((s.tile k).pc + 1) (s.fld F.TILE_STAT_SB_BUSY k) x [] := by
  have htile : ((s.issued dt k).modTile k f).tile k = x := by rw [State.tile_modTile_same, issued_tile, hx]
  have hd := wordDone_nextWord (u := (s.issued dt k).modTile k f) (dt := dt) (l := []) h
    ((issued_onTile s dt k).trans (onTile_modTile _ k f _)) (by rw [htile, hpc]) (by rw [htile, hloops]) (issued_tState s dt k)
    (issued_busy s dt k)
  rwa [htile] at hd

end Sys2Proof.Machine
end

section
/-! The scoreboard (R124): an operation takes the lowest free entry, and the asynchronous words (R120, R128, R131, R259, R318) do no
more than that. -/
namespace Sys2Proof.Machine

section
variable (s : State) (k : Nat)

@[simp] theorem sbGet_sbPut (e : Nat) (x : Option SbEntry) (j : Nat) : (s.sbPut k e x).sbGet k j = if j = e then x else s.sbGet k j := by
  rw [State.sbPut, State.sbGet, State.tile_setFld, State.tile_modTile_same, mapGet_mapSet, State.sbGet]

theorem sbPut_tile (e : Nat) (x : Option SbEntry) : (s.sbPut k e x).tile k = { s.tile k with sb := ((s.sbPut k e x).tile k).sb } := by
  rw [State.sbPut, State.tile_setFld, State.tile_modTile_same]

theorem sbPut_tile_ne (e : Nat) (x : Option SbEntry) {j : Nat} (h : j ≠ k) : (s.sbPut k e x).tile j = s.tile j := by
  rw [State.sbPut, State.tile_setFld, State.tile_modTile_ne _ _ h]

/-- TILE_STAT.SB_BUSY follows an entry (R124). -/
theorem sbPut_busy {e : Nat} (he : e < 16) (x : Option SbEntry) : (s.sbPut k e x).fld F.TILE_STAT_SB_BUSY k =
    putBits (s.fld F.TILE_STAT_SB_BUSY k) e 1 (if x.isSome then 1 else 0) :=
  (State.fld_setFld_same _ F.TILE_STAT_SB_BUSY _ _ _ (by decide)).trans
    (Nat.mod_eq_of_lt (putBits_lt _ _ _ _ 16 (by omega) (s.fld_lt F.TILE_STAT_SB_BUSY k 0)))

theorem sbPut_tState (e : Nat) (x : Option SbEntry) : (s.sbPut k e x).tState k = s.tState k :=
  State.fld_setFld_other _ _ _ _ rfl (by decide) (.inr (by decide))

theorem sbPut_onTile (k : Fin 1088) (e : Nat) (x : Option SbEntry) : OnTile s (s.sbPut k e x) k [(.TILE_STAT, k.val, 0)] :=
  (onTile_modTile s k _ _).trans (onTile_setFld _ F.TILE_STAT_SB_BUSY _ ⟨k.isLt, Nat.one_pos⟩ (List.mem_singleton_self _))

/-- The free entries from `i` on begin with the lowest. -/
theorem sbFree_lowest {i n e : Nat} (hi : i ≤ e) (he : e < i + n) (hfree : s.sbGet k e = none)
    (hlow : ∀ j, i ≤ j → j < e → s.sbGet k j ≠ none) : ∃ r, s.sbFree k i n = e :: r := by
  induction n generalizing i with
  | zero => omega
  | succ n ih =>
    rw [State.sbFree]
    obtain rfl | hlt := Nat.eq_or_lt_of_le hi
    · rw [hfree]
      exact ⟨_, rfl⟩
    · rw [if_neg (by simpa using hlow i (Nat.le_refl i) hlt)]
      exact ih hlt (by omega) fun j hj => hlow j (by omega)

/-- Entry `e` is free and no lower one is. -/
def State.lowestFree (e : Nat) : Prop := e < 16 ∧ s.sbGet k e = none ∧ ∀ j < e, s.sbGet k j ≠ none

variable {s k}

/-- An operation takes the lowest free entry (R124). -/
theorem sbAlloc_of_lowestFree {e : Nat} (h : s.lowestFree k e) (x : SbEntry) : s.sbAlloc k x = s.sbPut k e (some x) := by
  obtain ⟨he, hfree, hlow⟩ := h
  obtain ⟨r, hr⟩ := sbFree_lowest s k (Nat.zero_le e) (show e < 0 + 16 by omega) hfree fun j _ => hlow j
  rw [State.sbAlloc, hr]

theorem lowestFree_congr {t : State} {e : Nat} (ht : t.tile k = s.tile k) (h : s.lowestFree k e) : t.lowestFree k e := by
  simpa only [State.lowestFree, State.sbGet, ht] using h

end

/-! ## The asynchronous words -/

section
variable {s : State} {dt op w e : Nat} {k : Fin 1088}

@[simp] theorem issued_ea (o : Opnd) : (s.issued dt k).ea k o = s.ea k o := by rw [State.ea, State.ea, issued_gReg]

/-- What a word leaves that has put entries into the scoreboard of its tile. -/
theorem wordDone_of_sb {u : State} {busy : Nat} (h : s.issues k op w) (hu : OnTile (s.issued dt k) u k [(.TILE_STAT, k.val, 0)])
    (htile : u.tile k = { s.tile k with sb := (u.tile k).sb }) (hrun : u.tState k = tRun) (hbusy : u.fld F.TILE_STAT_SB_BUSY k = busy) :
    s.wordDone (u.nextWord k) dt k ((s.tile k).pc + 1) busy { s.tile k with sb := ((u.nextWord k).tile k).sb } [] := by
  have hd := wordDone_nextWord (dt := dt) (busy := busy) (l := []) h ((issued_onTile s dt k).trans hu) (by rw [htile]) (by rw [htile]) hrun hbusy
  have hsb : ((u.nextWord k).tile k).sb = (u.tile k).sb := by rw [hd.1]
  rw [hsb, ← htile]
  exact hd

/-- The scoreboard does not move with the PC. -/
theorem sbGet_nextWord {u : State} (h : s.issues k op w) (hpc : (u.tile k).pc = (s.tile k).pc)
    (hloops : (u.tile k).loops = (s.tile k).loops) (j : Nat) : (u.nextWord k).sbGet k j = u.sbGet k j := by
  obtain ⟨-, -, -, -, hlast⟩ := h
  rw [State.sbGet, (pcMoved_nextWord (s := u) (k := k) (by rw [hpc, hloops]; exact hlast)).tile, State.sbGet]

/-- A word that starts one operation leaves it in the lowest free entry, and moves on. -/
theorem allocOne_next {names : State → Nat → Named} {effect : State → Nat → State} {c : Instr} {q : SbEntry}
    (hc : exec c s = .next ((s.tick dt).issueNext k op names effect)) (h : s.issues k op w) (hp : s.passes k (names (s.tick dt) w))
    (he : s.lowestFree k e) (hq : effect (s.issued dt k) w = (s.issued dt k).sbAlloc k q) :
    ∃ t, exec c s = .next t ∧ (∀ j, t.sbGet k j = if j = e then some q else s.sbGet k j) ∧
      s.wordDone t dt k ((s.tile k).pc + 1) (putBits (s.fld F.TILE_STAT_SB_BUSY k) e 1 1) { s.tile k with sb := (t.tile k).sb } [] := by
  have hstart := issued_tile s dt k k
  have htile := sbPut_tile (s.issued dt k) k e (some q)
  rw [hstart] at htile
  rw [hc, issueNext_of_passes dt h hp, hq, sbAlloc_of_lowestFree (lowestFree_congr hstart he)]
  refine ⟨_, rfl, fun j => ?_, wordDone_of_sb h (sbPut_onTile _ k e _) htile ((sbPut_tState ..).trans (issued_tState s dt k)) ?_⟩
  · rw [sbGet_nextWord h (by rw [htile]) (by rw [htile]), sbGet_sbPut, State.sbGet, issued_tile, State.sbGet]
  · rw [sbPut_busy _ _ he.1, issued_busy]
    rfl

/-- A word that starts two operations leaves them in the two lowest free entries, in order, and moves on. -/
theorem allocTwo_next {names : State → Nat → Named} {effect : State → Nat → State} {c : Instr} {q r : SbEntry} {f : Nat}
    (hc : exec c s = .next ((s.tick dt).issueNext k op names effect)) (h : s.issues k op w) (hp : s.passes k (names (s.tick dt) w))
    (he : s.lowestFree k e) (hef : e < f) (hf : f < 16) (hfree : s.sbGet k f = none) (hlow : ∀ j < f, j ≠ e → s.sbGet k j ≠ none)
    (hq : effect (s.issued dt k) w = ((s.issued dt k).sbAlloc k q).sbAlloc k r) :
    ∃ t, exec c s = .next t ∧ (∀ j, t.sbGet k j = if j = e then some q else if j = f then some r else s.sbGet k j) ∧
      s.wordDone t dt k ((s.tile k).pc + 1) (putBits (putBits (s.fld F.TILE_STAT_SB_BUSY k) e 1 1) f 1 1)
        { s.tile k with sb := (t.tile k).sb } [] := by
  have hstart := issued_tile s dt k k
  have hget (j : Nat) : ((s.issued dt k).sbPut k e (some q)).sbGet k j = if j = e then some q else s.sbGet k j := by
    rw [sbGet_sbPut, State.sbGet, issued_tile, State.sbGet]
  have hsecond : ((s.issued dt k).sbPut k e (some q)).lowestFree k f := by
    refine ⟨hf, by rw [hget, if_neg (by omega), hfree], fun j hj => ?_⟩
    rw [hget]
    split
    · exact Option.some_ne_none q
    · next hne => exact hlow j hj hne
  have htile : (((s.issued dt k).sbPut k e (some q)).sbPut k f (some r)).tile k =
      { s.tile k with sb := ((((s.issued dt k).sbPut k e (some q)).sbPut k f (some r)).tile k).sb } := by
    rw [sbPut_tile, sbPut_tile, issued_tile]
  rw [hc, issueNext_of_passes dt h hp, hq, sbAlloc_of_lowestFree (lowestFree_congr hstart he), sbAlloc_of_lowestFree hsecond]
  refine ⟨_, rfl, fun j => ?_, wordDone_of_sb h ((sbPut_onTile _ k e _).trans (sbPut_onTile _ k f _)) htile
    (((sbPut_tState ..).trans (sbPut_tState ..)).trans (issued_tState s dt k)) ?_⟩
  · rw [sbGet_nextWord h (by rw [htile]) (by rw [htile]), sbGet_sbPut, hget]
    by_cases hje : j = e
    · rw [if_neg (by omega), if_pos hje, if_pos hje]
    · rw [if_neg hje, if_neg hje]
  · rw [sbPut_busy _ _ hf, sbPut_busy _ _ he.1, issued_busy]
    rfl

end

/-- SEND's destination and range raise nothing (R318). -/
theorem send_passes {s : State} {k n dest : Nat} {rs : List Rng} {r : Rng} (hub : s.unblocked k rs n) (hfit : r.addr + r.n ≤ spaceWords r.lb)
    (hd : dest ≤ 1087) :
    s.passes k { named0 with need := n, rngs := rs, excs := (if r.fits then [] else [0x02]) ++ (if 1087 < dest then [0x16] else []) } where
  ranges := hub.1
  excs := by rw [if_pos (by exact decide_eq_true hfit), if_neg (Nat.not_lt.2 hd)]; rfl
  banks := rfl
  waits := rfl
  sb := hub.2
  ms := rfl

/-- RBSEND raises nothing where its tile is on a row bus (R131). -/
theorem rbsend_passes {s : State} {k n : Nat} {rs : List Rng} (hub : s.unblocked k rs n) (hen : s.flag F.TILE_RB_CFG_EN k = true) :
    s.passes k { named0 with need := n, rngs := rs, excs := if s.flag F.TILE_RB_CFG_EN k then [] else [0x19] } where
  ranges := hub.1
  excs := if_pos hen
  banks := rfl
  waits := rfl
  sb := hub.2
  ms := rfl

/-- Settles O38: each word reads its source at issue, and puts its operation into the lowest free entries. -/
theorem asynchronousWordsAllocateEntries : Obligations.AsynchronousWordsAllocateEntries := by
  intro dt k w s x ea lb busy lowestFree one e he
  refine ⟨fun h hub => ?_, fun h hub f hef hf hfree hlow => ?_, fun h hub => ?_, fun h hd hfit hub => ?_, fun h hen hub => ?_,
    fun h hub => ?_⟩
  · exact allocOne_next rfl h hub.passes he (by simp only [issued_ea]; rfl)
  · exact allocTwo_next rfl h hub.passes he hef hf hfree hlow (by simp only [issued_ea, issued_readWs]; rfl)
  · exact allocOne_next rfl h hub.passes he (by simp only [issued_ea, issued_readWs]; rfl)
  · exact allocOne_next rfl h (send_passes (r := ⟨true, lb 36, ea 36, wf w 63 56 + 1⟩) hub hfit hd) he
      (by simp only [issued_ea, issued_readWs, State.sendDest, issued_gReg]; rfl)
  · exact allocOne_next rfl h (rbsend_passes hub hen) he (by simp only [issued_ea, issued_readWs, issued_gReg]; rfl)
  · exact allocOne_next rfl h hub.passes he (by simp only [issued_ea, issued_readWs]; rfl)

end Sys2Proof.Machine
end

section
/-! The control words (R129, R311 to R313, R322, R323) and a word with an exception (R327). -/
namespace Sys2Proof.Machine

section
variable {s : State} {op w : Nat} {k : Fin 1088}

/-! ## Words that change their tile -/

/-- A word whose effect is a change of its tile that moves neither PC nor loops. -/
theorem modTile_next {dt : Nat} {names : State → Nat → Named} {effect : State → Nat → State} {c : Instr} {x : Tile} (f : Tile → Tile)
    (hc : exec c s = .next ((s.tick dt).issueNext k op names effect)) (h : s.issues k op w) (hp : s.passes k (names (s.tick dt) w))
    (hq : effect (s.issued dt k) w = (s.issued dt k).modTile k f) (hx : f (s.tile k) = x) (hpc : x.pc = (s.tile k).pc)
    (hloops : x.loops = (s.tile k).loops) : ∃ t, exec c s = .next t ∧
      t.tile k = { x with pc := (s.tile k).pc + 1, passed := false, groups := (t.tile k).groups } ∧
      s.wordDone t dt k ((s.tile k).pc + 1) (s.fld F.TILE_STAT_SB_BUSY k) x [] := by
  have hd := wordDone_of_modTile dt f h hx hpc hloops
  rw [hc, issueNext_of_passes dt h hp, hq]
  exact ⟨_, rfl, hd.1, hd⟩

theorem cfg_next (dt : Nat) (h : s.issues k 0x08 w) : ∃ t, exec (.cfg dt k) s = .next t ∧
    (∀ n, mapGet 0 (t.tile k).cfg n = if n = 4 * wf w 20 16 + wf w 22 21 then BitVec.ofNat 96 (wf w 127 32) else mapGet 0 (s.tile k).cfg n) ∧
    s.wordDone t dt k ((s.tile k).pc + 1) (s.fld F.TILE_STAT_SB_BUSY k) { s.tile k with cfg := (t.tile k).cfg } [] := by
  obtain ⟨t, he, htile, hd⟩ := modTile_next (dt := dt) (c := .cfg dt k)
    (fun x => { x with cfg := mapSet 0 x.cfg (4 * wf w 20 16 + wf w 22 21) (BitVec.ofNat 96 (wf w 127 32)) })
    rfl h (passes_named0 s k) rfl rfl rfl rfl
  have hcfg : (t.tile k).cfg = mapSet 0 (s.tile k).cfg (4 * wf w 20 16 + wf w 22 21) (BitVec.ofNat 96 (wf w 127 32)) := by rw [htile]
  exact ⟨t, he, fun n => by rw [hcfg, mapGet_mapSet], by rw [hcfg]; exact hd⟩

theorem ring_next (dt : Nat) (h : s.issues k 0x09 w) : ∃ t, exec (.ring dt k) s = .next t ∧
    (∀ n, t.ringOf k n = if n = wf w 17 16
      then ⟨wf w 31 31 == 1, wf w 22 18, 2 ^ wf w 24 23, wf w 29 25 + 1, wf w 30 30 == 1, 0⟩ else s.ringOf k n) ∧
    s.wordDone t dt k ((s.tile k).pc + 1) (s.fld F.TILE_STAT_SB_BUSY k) { s.tile k with rings := (t.tile k).rings } [] := by
  let r : RingCfg := ⟨wf w 31 31 == 1, wf w 22 18, 2 ^ wf w 24 23, wf w 29 25 + 1, wf w 30 30 == 1, 0⟩
  obtain ⟨t, he, htile, hd⟩ := modTile_next (dt := dt) (c := .ring dt k) (fun x => { x with rings := mapSet ring0 x.rings (wf w 17 16) r })
    rfl h (passes_named0 s k) rfl rfl rfl rfl
  have hrings : (t.tile k).rings = mapSet ring0 (s.tile k).rings (wf w 17 16) r := by rw [htile]
  exact ⟨t, he, fun n => by rw [State.ringOf, hrings, mapGet_mapSet, State.ringOf], by rw [hrings]; exact hd⟩

theorem clracc_next (dt : Nat) (h : s.issues k 0x16 w) : ∃ t, exec (.clracc dt k) s = .next t ∧ (∀ i, t.accGet k i = ⟨0, false⟩) ∧
    s.wordDone t dt k ((s.tile k).pc + 1) (s.fld F.TILE_STAT_SB_BUSY k) { s.tile k with acc := [] } [] := by
  obtain ⟨t, he, htile, hd⟩ := modTile_next (dt := dt) (c := .clracc dt k) (fun x => { x with acc := [] }) rfl h (passes_named0 s k)
    rfl rfl rfl rfl
  exact ⟨t, he, fun i => by rw [State.accGet, htile]; rfl, hd⟩

theorem convoy_next (dt : Nat) (h : s.issues k 0x30 w) (hd : wf w 27 27 = 0 ∨ wf w 26 16 ≤ 1087) :
    ∃ t, exec (.convoy dt k) s = .next t ∧ s.wordDone t dt k ((s.tile k).pc + 1) (s.fld F.TILE_STAT_SB_BUSY k)
      { s.tile k with convoy := if wf w 27 27 = 1 then some (wf w 26 16) else none } [] := by
  have hp : s.passes k { named0 with excs := if wf w 27 27 = 1 ∧ 1087 < wf w 26 16 then [0x16] else [] } :=
    ⟨mayIssue_of_no_ranges s k rfl rfl (if_neg (by omega)) rfl rfl, rfl⟩
  obtain ⟨t, he, -, hd⟩ := modTile_next (dt := dt) (c := .convoy dt k)
    (fun x => { x with convoy := if wf w 27 27 = 1 then some (wf w 26 16) else none }) rfl h hp rfl rfl rfl rfl
  exact ⟨t, he, hd⟩

/-! ## SEED -/

/-- The generator of tile `k` as SEED leaves it (R129, R317). -/
theorem genLoad_wf (w : Nat) : genLoad (wf w 127 64) = ⟨if wf w 127 64 = 0 then 1 else wf w 127 64, 0, 0⟩ := by
  have hlt : wf w 127 64 < 2 ^ 64 := bitsOf_lt w 64 64
  rw [genLoad, Nat.mod_eq_of_lt hlt]

theorem setGen_tile (s : State) (k : Nat) (g : Gen) : (s.setGen k g).tile k = { s.tile k with genX := g.x, genM := g.m } := by
  rw [State.setGen, State.tile_setFld, State.tile_modTile_same]

theorem setGen_onTile (s : State) (k : Fin 1088) (g : Gen) : OnTile s (s.setGen k g) k [(.TILE_RNG_STEPS, k.val, 0)] :=
  (onTile_modTile s k _ _).trans (onTile_setFld _ F.TILE_RNG_STEPS_STEPS _ ⟨k.isLt, Nat.one_pos⟩ (List.mem_singleton_self _))

theorem seed_next (dt : Nat) (h : s.issues k 0x0A w) : ∃ t, exec (.seed dt k) s = .next t ∧ t.fld F.TILE_RNG_STEPS_STEPS k = 0 ∧
    s.wordDone t dt k ((s.tile k).pc + 1) (s.fld F.TILE_STAT_SB_BUSY k)
      { s.tile k with genX := if wf w 127 64 = 0 then 1 else wf w 127 64, genM := 0 } [(.TILE_RNG_STEPS, k.val, 0)] := by
  let u := (s.issued dt k).setGen k (genLoad (wf w 127 64))
  have hu : OnTile (s.issued dt k) u k [(.TILE_RNG_STEPS, k.val, 0)] := setGen_onTile _ k _
  have htile : u.tile k = { s.tile k with genX := if wf w 127 64 = 0 then 1 else wf w 127 64, genM := 0 } := by
    rw [setGen_tile, issued_tile, genLoad_wf]
  have hstat (f : Fld) (hf : f.reg = .TILE_STAT) : u.fld f k = (s.issued dt k).fld f k :=
    fld_of_keeps hu.regs (by rw [hf]; exact ⟨k.isLt, Nat.one_pos⟩) (by simp [hf])
  have hd := wordDone_nextWord (dt := dt) (l := [(.TILE_RNG_STEPS, k.val, 0)]) h
    (((issued_onTile s dt k).mono (by simp)).trans (hu.mono (by simp))) (by rw [htile]) (by rw [htile])
    ((hstat F.TILE_STAT_STATE rfl).trans (issued_tState s dt k)) ((hstat F.TILE_STAT_SB_BUSY rfl).trans (issued_busy s dt k))
  have hsteps : u.fld F.TILE_RNG_STEPS_STEPS k = 0 := State.fld_setFld_same _ F.TILE_RNG_STEPS_STEPS _ _ _ (by decide)
  have hregs : (u.nextWord k).regs = u.regs := by
    rw [(pcMoved_nextWord (s := u) (k := k) (by rw [htile]; exact h.2.2.2.2)).frame]
  rw [htile] at hd
  refine ⟨u.nextWord k, congrArg _ (issueNext_of_passes dt h (passes_named0 s k)), (State.fld_congr hregs ..).trans hsteps, hd⟩

/-! ## WAIT and ARRIVE -/

/-- A milestone in range raises nothing (R323). -/
theorem milestone_excs {m : Nat} (h : m ≤ 16383) : (if 16383 < m then [0x10] else [] : List Nat) = [] := if_neg (Nat.not_lt.2 h)

/-- What WAIT names: a milestone and the target it waits for (R323). -/
def waitNamed (m target : Nat) : Named := { named0 with excs := if 16383 < m then [0x10] else [], ms := some (m, target) }

/-- The target of WAIT (R323). -/
def State.waitTarget (s : State) (k w : Nat) : Nat := (s.gReg k (wf w 69 66) + wf w 65 34) % 2 ^ 32

theorem waitNamed_mayIssue (s : State) (k : Nat) {m : Nat} (hm : m ≤ 16383) (target : Nat) : s.mayIssue k (waitNamed m target) :=
  mayIssue_of_no_ranges s k rfl rfl (milestone_excs hm) rfl rfl

/-- A word waits for its milestone until its waiter is released or the milestone is reached (R321, R323). -/
theorem msWaits_waitNamed (s : State) (k m target : Nat) :
    s.msWaits k (waitNamed m target) = (!(s.tile k).passed && !s.msReached m target) := rfl

theorem exec_wait (s : State) (dt : Nat) (k : Fin 1088) : exec (.wait dt k) s = .next ((s.tick dt).issueNext k 0x39
    (fun s w => waitNamed (s.msOf k w) (s.waitTarget k w)) fun s _ => s) := rfl

theorem wait_reached (dt : Nat) (h : s.issues k 0x39 w) (hm : s.msOf k w ≤ 16383)
    (hr : s.msReached (s.msOf k w) (s.waitTarget k w) = true) : ∃ t, exec (.wait dt k) s = .next t ∧
      s.wordDone t dt k ((s.tile k).pc + 1) (s.fld F.TILE_STAT_SB_BUSY k) (s.tile k) [] := by
  have hd := wordDone_nextWord (dt := dt) (u := s.issued dt k) (l := []) h (issued_onTile s dt k) (by rw [issued_tile])
    (by rw [issued_tile]) (issued_tState s dt k) (issued_busy s dt k)
  have hms : s.msWaits k (waitNamed (s.msOf k w) (s.waitTarget k w)) = false := by
    rw [msWaits_waitNamed, hr, Bool.not_true, Bool.and_false]
  rw [issued_tile] at hd
  rw [exec_wait, issueNext_of_passes dt h ⟨waitNamed_mayIssue _ k hm _, hms⟩]
  exact ⟨_, rfl, hd⟩

/-- A tile that waits is in WAIT, and its waiter is registered with the milestone (R277, R323). -/
theorem awaitMs_waitNamed (s : State) (k m target : Nat) : s.awaitMs k (waitNamed m target) =
    (({ s with waiters := (s.waiters.filter fun w => decide (w.by_ ≠ .tile k)) ++ [⟨.tile k, m, target⟩] } : State).setTState k tWait) := rfl

theorem wait_unreached (dt : Nat) (h : s.issues k 0x39 w) (hm : s.msOf k w ≤ 16383)
    (hr : s.msReached (s.msOf k w) (s.waitTarget k w) = false) (hp : (s.tile k).passed = false) :
    ∃ t, exec (.wait dt k) s = .next t ∧ t.tState k = tWait ∧ ⟨.tile k, s.msOf k w, s.waitTarget k w⟩ ∈ t.waiters ∧
      s.keeps t [(.TILE_STAT, k.val, 0)] ∧ t = { s.tick dt with regs := t.regs, waiters := t.waiters } := by
  have hms : s.msWaits k (waitNamed (s.msOf k w) (s.waitTarget k w)) = true := by rw [msWaits_waitNamed, hr, hp]; rfl
  rw [exec_wait, State.issueNext, issueWord_of_mayIssue (s := s.tick dt) h (waitNamed_mayIssue _ k hm _), if_pos (by exact hms), awaitMs_waitNamed]
  refine ⟨_, rfl, State.fld_setFld_same _ F.TILE_STAT_STATE _ _ _ (by decide), List.mem_append_right _ (List.mem_singleton_self _),
    ?_, onlyRegs_setFld ..⟩
  exact keeps_of_tick (s := s) (dt := dt) (keeps_setFld _ F.TILE_STAT_STATE tWait ⟨k.isLt, Nat.one_pos⟩)

/-- What ARRIVE names: nothing, but it waits for every entry behind a fence (R323). -/
def State.arriveNamed (s : State) (k w : Nat) : Named :=
  { named0 with excs := if 16383 < s.msOf k w then [0x10] else [], waits := wf w 50 50 == 1 && !(s.sbList k).isEmpty }

theorem exec_arrive (s : State) (dt : Nat) (k : Fin 1088) : exec (.arrive dt k) s = .next ((s.tick dt).issueNext k 0x38
    (fun s w => s.arriveNamed k w) fun s w => s.sendArrival k (s.msOf k w) (wf w 49 34)) := rfl

theorem arriveNamed_passes (hm : s.msOf k w ≤ 16383) (hf : wf w 50 50 = 0 ∨ s.sbList k = []) : s.passes k (s.arriveNamed k w) := by
  refine ⟨mayIssue_of_no_ranges s k rfl rfl (milestone_excs hm) rfl ?_, rfl⟩
  obtain h0 | hsb := hf
  · simp [State.arriveNamed, h0]
  · simp [State.arriveNamed, hsb]

/-- An arrival sent: it flies, and its path counts it (R277, R280). -/
theorem sendArrival_leaves (s : State) (path m n : Nat) : let t := s.sendArrival path m n
    t.arrFly = s.arrFly ++ [⟨path, m, n⟩] ∧ (∀ j, mapGet 0 t.arrSent j = mapGet 0 s.arrSent j + if j = path then 1 else 0) ∧
      t = { s with arrFly := t.arrFly, arrSent := t.arrSent } := by
  refine ⟨rfl, fun j => ?_, rfl⟩
  rw [State.sendArrival, mapUpd, mapGet_mapSet]
  split
  · next e => rw [e]
  · rfl

@[simp] theorem sendArrival_tile (s : State) (path m n j : Nat) : (s.sendArrival path m n).tile j = s.tile j := rfl

theorem arrive_next (dt : Nat) (h : s.issues k 0x38 w) (hm : s.msOf k w ≤ 16383) (hf : wf w 50 50 = 0 ∨ s.sbList k = []) :
    ∃ t, exec (.arrive dt k) s = .next t ∧
      t.arrFly = s.arrFly ++ [⟨k, s.msOf k w, wf w 49 34⟩] ∧ (∀ j, mapGet 0 t.arrSent j = mapGet 0 s.arrSent j + if j = k then 1 else 0) ∧
      t.tile k = { s.tile k with pc := (s.tile k).pc + 1, passed := false, groups := (t.tile k).groups } ∧ t.tState k = tRun ∧
      s.keeps t [(.TILE_STAT, k.val, 0)] ∧ (∀ j, j ≠ k.val → t.tile j = s.tile j) ∧
      t = { s.tick dt with regs := t.regs, tiles := t.tiles, arrFly := t.arrFly, arrSent := t.arrSent } := by
  have hon := issued_onTile s dt k
  have hstart := issued_tile s dt k
  have hrun := issued_tState s dt k
  rw [exec_arrive, issueNext_of_passes dt h (arriveNamed_passes (s := s) hm hf),
    show (s.issued dt k).msOf k w = s.msOf k w by rw [State.msOf, issued_gReg, State.msOf]]
  generalize s.issued dt k = v at hon hstart hrun ⊢
  obtain ⟨hfly, hsent, hframe⟩ := sendArrival_leaves v k (s.msOf k w) (wf w 49 34)
  generalize hu : v.sendArrival k (s.msOf k w) (wf w 49 34) = u at hfly hsent hframe ⊢
  have htile (j : Nat) : u.tile j = s.tile j := by rw [← hu, sendArrival_tile, hstart]
  have hmoved := pcMoved_nextWord (s := u) (k := k) (by rw [htile]; exact h.2.2.2.2)
  have hregs : (u.nextWord k).regs = v.regs := by rw [hmoved.frame, hframe]
  refine ⟨u.nextWord k, rfl, ?_, fun j => ?_, by rw [hmoved.tile, htile], (State.fld_congr hregs ..).trans hrun,
    keeps_congr hregs (keeps_of_tick hon.regs), fun j hj => (hmoved.others j hj).trans (htile j), ?_⟩
  · rw [hmoved.frame, hfly, hon.frame]
    rfl
  · rw [hmoved.frame, hsent, hon.frame]
    rfl
  · rw [hmoved.frame, hframe, hon.frame]

/-! ## A word with an exception -/

/-- The registers in which a tile holds its state and its first exception. -/
def excRegs (k : Nat) : List (Reg × Nat × Nat) := [(.TILE_STAT, k, 0), (.TILE_EXC, k, 0), (.TILE_EXC_PC, k, 0)]

/-- The device as the first exception of tile `k` leaves its registers (R117, R141). -/
def State.excHalt (s : State) (k cause : Nat) : State :=
  (((s.setFld F.TILE_EXC_CAUSE cause k).setFld F.TILE_EXC_BANKS 0 k).setFld F.TILE_EXC_PC_PC (s.tile k).pc k).setTState k tHalted

theorem haltTile_first {k cause : Nat} (h : s.fld F.TILE_EXC_CAUSE k = 0) : s.haltTile k cause 0 = s.excHalt k cause := by
  rw [State.haltTile, if_pos h]
  rfl

theorem excHalt_onTile (s : State) (k : Fin 1088) (cause : Nat) : OnTile s (s.excHalt k cause) k (excRegs k) := by
  unfold State.excHalt State.setTState
  have own {r : Reg} (h1 : (regRow r).n1 = 1088) (h2 : (regRow r).n2 = 1) : regHas r k 0 :=
    ⟨Nat.lt_of_lt_of_eq k.isLt h1.symm, Nat.lt_of_lt_of_eq Nat.one_pos h2.symm⟩
  exact (((onTile_setFld s F.TILE_EXC_CAUSE cause (own rfl rfl) (by simp [excRegs])).trans
    (onTile_setFld _ F.TILE_EXC_BANKS 0 (own rfl rfl) (by simp [excRegs]))).trans
    (onTile_setFld _ F.TILE_EXC_PC_PC _ (own rfl rfl) (by simp [excRegs]))).trans
    (onTile_setFld _ F.TILE_STAT_STATE tHalted (own rfl rfl) (by simp [excRegs]))

/-- A field of a tile after a write of another of its registers. -/
theorem fld_setFld_tile (s : State) (k : Fin 1088) {f g : Fld} (v : Nat) (hf : regHas f.reg k 0) (hg : regHas g.reg k 0)
    (hne : g.reg ≠ f.reg) : (s.setFld f v k).fld g k = s.fld g k :=
  fld_of_keeps (keeps_setFld s f v hf) hg (by simp [hne])

theorem excHalt_fields (s : State) (k : Fin 1088) {cause : Nat} (hc : cause < 2 ^ 8) : let t := s.excHalt k cause
    t.fld F.TILE_EXC_CAUSE k = cause ∧ t.fld F.TILE_EXC_BANKS k = 0 ∧ t.fld F.TILE_EXC_PC_PC k = (s.tile k).pc % 2 ^ 32 ∧
      t.tState k = tHalted := by
  have hstat (u : State) (g : Fld) (hg : regHas g.reg k 0) (hne : g.reg ≠ .TILE_STAT) : (u.setTState k tHalted).fld g k = u.fld g k :=
    fld_setFld_tile u k tHalted ⟨k.isLt, Nat.one_pos⟩ hg hne
  have hpc (u : State) (v : Nat) (g : Fld) (hg : regHas g.reg k 0) (hne : g.reg ≠ .TILE_EXC_PC) :
      (u.setFld F.TILE_EXC_PC_PC v k).fld g k = u.fld g k := fld_setFld_tile u k v ⟨k.isLt, Nat.one_pos⟩ hg hne
  have hexc : regHas .TILE_EXC k 0 := ⟨k.isLt, Nat.one_pos⟩
  refine ⟨?_, ?_, ?_, State.fld_setFld_same _ F.TILE_STAT_STATE _ _ _ (by decide)⟩
  · rw [State.excHalt, hstat _ F.TILE_EXC_CAUSE hexc (by decide), hpc _ _ F.TILE_EXC_CAUSE hexc (by decide),
      State.fld_setFld_other (f := F.TILE_EXC_BANKS) (g := F.TILE_EXC_CAUSE) _ _ _ _ rfl (by decide) (.inr (by decide)),
      State.fld_setFld_same _ F.TILE_EXC_CAUSE _ _ _ (by decide)]
    exact Nat.mod_eq_of_lt hc
  · rw [State.excHalt, hstat _ F.TILE_EXC_BANKS hexc (by decide), hpc _ _ F.TILE_EXC_BANKS hexc (by decide),
      State.fld_setFld_same _ _ _ _ _ (by decide)]
    rfl
  · rw [State.excHalt, hstat _ F.TILE_EXC_PC_PC ⟨k.isLt, Nat.one_pos⟩ (by decide)]
    exact State.fld_setFld_same _ F.TILE_EXC_PC_PC _ _ _ (by decide)

theorem excHalt_onlyRegs (s : State) (k cause : Nat) : s.onlyRegs (s.excHalt k cause) :=
  onlyRegs_trans (onlyRegs_setFld_setFld s F.TILE_EXC_CAUSE F.TILE_EXC_BANKS cause 0 k 0)
    (onlyRegs_setFld_setFld _ F.TILE_EXC_PC_PC F.TILE_STAT_STATE (s.tile k).pc tHalted k 0)

theorem tileFault_first {s : State} {k : Fin 1088} {cause : Nat} (htask : s.taskOf k = none) (hfirst : s.fld F.TILE_EXC_CAUSE k = 0) :
    s.tileFault k cause 0 = (s.excHalt k cause).tell (.tileHalt k cause) := by
  have hcrews : ((s.excHalt k cause).tell (.tileHalt k cause)).crews = s.crews :=
    (State.tell_crews ..).trans (by rw [(excHalt_onTile s k cause).frame])
  have hnone : ((s.excHalt k cause).tell (.tileHalt k cause)).taskOf k = none := by rw [State.taskOf, hcrews]; exact htask
  rw [State.tileFault, haltTile_first hfirst, State.abortTaskOf, hnone]

/-- A word with one exception is not executed: its tile, which is in no task, halts with the cause, and the MC is told. -/
theorem halted_of_exc (dt : Nat) {cause : Nat} {names : State → Nat → Named} {effect : State → Nat → State} {c : Instr}
    (hc : exec c s = .next ((s.tick dt).issueWord k op names effect)) (h : s.issues k op w) (hr : (names (s.tick dt) w).rngs = [])
    (he : (names (s.tick dt) w).excs = [cause]) (hlt : cause < 2 ^ 8) (htask : s.taskOf k = none) (hfirst : s.fld F.TILE_EXC_CAUSE k = 0) :
    ∃ t, exec c s = .next t ∧ t.fld F.TILE_EXC_CAUSE k = cause ∧ t.fld F.TILE_EXC_BANKS k = 0 ∧
      t.fld F.TILE_EXC_PC_PC k = (s.tile k).pc % 2 ^ 32 ∧ t.tState k = tHalted ∧
      s.keeps t [(.TILE_STAT, k.val, 0), (.TILE_EXC, k.val, 0), (.TILE_EXC_PC, k.val, 0)] ∧
      t = { s.tick dt with regs := t.regs, out := s.out ++ [.report (.tileHalt k cause)] } := by
  obtain ⟨hcause, hbanks, hpc, hstate⟩ := excHalt_fields (s.tick dt) k hlt
  have hon := excHalt_onTile (s.tick dt) k cause
  have htiles := onlyRegs_tiles (excHalt_onlyRegs (s.tick dt) k cause)
  rw [hc, issueWord_of_exc effect (s := s.tick dt) h (by rw [hr, he]; rfl), tileFault_first (s := s.tick dt) htask hfirst]
  generalize (s.tick dt).excHalt k cause = v at hcause hbanks hpc hstate hon htiles ⊢
  have hregs : (v.tell (.tileHalt k cause)).regs = v.regs := State.tell_regs ..
  refine ⟨v.tell (.tileHalt k cause), rfl, (State.fld_congr hregs ..).trans hcause, (State.fld_congr hregs ..).trans hbanks,
    ((State.fld_congr hregs ..).trans hpc).trans (by rw [State.tile_tick]), (State.fld_congr hregs ..).trans hstate,
    keeps_congr hregs (keeps_of_tick hon.regs), ?_⟩
  rw [hon.frame, htiles]
  rfl

end

end Sys2Proof.Machine
end

section
/-! HALT (R311), and the end of a task with its last participant (R209): the statistics are summed, the segment may be released, and
neither the crews, the memories nor the tiles' states are touched again. -/
namespace Sys2Proof.Machine

/-- `t` has the crews, the memories and the tiles' states of `s`. -/
structure SparesTasks (s t : State) : Prop where
  stat : ∀ k < 1088, t.reg .TILE_STAT k = s.reg .TILE_STAT k
  crews : t.crews = s.crews
  depot : t.depot = s.depot
  hbm : t.hbm = s.hbm

theorem SparesTasks.refl (s : State) : SparesTasks s s := ⟨fun _ _ => rfl, rfl, rfl, rfl⟩

theorem SparesTasks.trans {s t u : State} (h : SparesTasks s t) (h' : SparesTasks t u) : SparesTasks s u :=
  ⟨fun k hk => (h'.stat k hk).trans (h.stat k hk), h'.crews.trans h.crews, h'.depot.trans h.depot, h'.hbm.trans h.hbm⟩

theorem sparesTasks_of_keeps {s t : State} {l : List (Reg × Nat × Nat)} (h : s.keeps t l) (hl : ∀ x ∈ l, x.1 ≠ .TILE_STAT)
    (hc : t.crews = s.crews) (hd : t.depot = s.depot) (hh : t.hbm = s.hbm) : SparesTasks s t :=
  ⟨fun _ hk => h _ _ _ ⟨hk, Nat.one_pos⟩ fun hm => hl _ hm rfl, hc, hd, hh⟩

theorem sparesTasks_setFld (s : State) (f : Fld) (v : Nat) {i j : Nat} (hf : regHas f.reg i j) (hne : f.reg ≠ .TILE_STAT) :
    SparesTasks s (s.setFld f v i j) :=
  sparesTasks_of_keeps (keeps_setFld s f v hf) (by simpa using hne) (State.setFld_crews ..) (State.setFld_depot ..) (State.setFld_hbm ..)

theorem sparesTasks_setConn (s : State) (c : Nat) (x : Conn) : SparesTasks s (s.setConn c x) := ⟨fun _ _ => rfl, rfl, rfl, rfl⟩

theorem sparesTasks_refSets (s : State) {u : Nat} (hu : u < 16) : SparesTasks s (s.refSets u) :=
  have h := refSets_onlyRefRegs s u
  sparesTasks_of_keeps (refSets_keeps s hu) (by simp) (onlyRefRegs_crews h) (onlyRefRegs_depot h) (onlyRefRegs_hbm h)

theorem sparesTasks_resStat (s : State) {c : Nat} (hc : c < 16) : SparesTasks s (s.resStat c) :=
  (sparesTasks_setFld s F.ING_RES_STAT_SHOULDER _ ⟨hc, Nat.one_pos⟩ (by decide)).trans
    (sparesTasks_setFld _ F.ING_RES_STAT_FILL _ ⟨hc, Nat.one_pos⟩ (by decide))

theorem refSets_conn (s : State) (u c : Nat) : (s.refSets u).conn c = s.conn c :=
  conn_congr (onlyRefRegs_conns (refSets_onlyRefRegs s u)) c

theorem sparesTasks_release {s : State} {c : Nat} (n : Nat) (hc : c < 16) (hu : ∀ g ∈ (s.conn c).segs, g.unit < 16) :
    SparesTasks s (s.release c n) := by
  induction n generalizing s with
  | zero => exact sparesTasks_resStat s hc
  | succ n ih =>
    rw [State.release]
    split
    · next g gs hs =>
      obtain ⟨hg, hgs⟩ := List.forall_mem_cons.1 (hs ▸ hu)
      split
      · refine ((sparesTasks_setConn s c _).trans (sparesTasks_refSets _ hg)).trans (ih ?_)
        rw [refSets_conn, State.conn_setConn_same]
        exact hgs
      · exact sparesTasks_resStat s hc
    · exact sparesTasks_resStat s hc

theorem sparesTasks_crewStats (s : State) (t : Nat) {m : Nat} (hm : m < 1088) : SparesTasks s (s.crewStats t m) :=
  have h : m < 1088 ∧ 0 < 1 := ⟨hm, Nat.one_pos⟩
  (((sparesTasks_setFld s F.TILE_CREW_SQ_SQ _ h (by decide)).trans
    (sparesTasks_setFld _ F.TILE_CREW_SQ_POISONED _ h (by decide))).trans
    (sparesTasks_setFld _ F.TILE_CREW_CNT_CNT _ h (by decide))).trans
    (sparesTasks_setFld _ F.TILE_CREW_CNT_SAT _ h (by decide))

theorem crewStats_onlyRegs (s : State) (t m : Nat) : s.onlyRegs (s.crewStats t m) :=
  onlyRegs_trans (onlyRegs_setFld_setFld s F.TILE_CREW_SQ_SQ F.TILE_CREW_SQ_POISONED _ _ m 0)
    (onlyRegs_setFld_setFld _ F.TILE_CREW_CNT_CNT F.TILE_CREW_CNT_SAT _ _ m 0)

theorem sparesTasks_foldl {α : Type} {f : State → α → State} (l : List α) (h : ∀ x ∈ l, ∀ s, SparesTasks s (f s x)) (s : State) :
    SparesTasks s (l.foldl f s) := by
  induction l generalizing s with
  | nil => exact .refl s
  | cons x l ih =>
    obtain ⟨hx, hl⟩ := List.forall_mem_cons.1 h
    exact (hx s).trans (ih hl (f s x))

theorem sparesTasks_holdRefresh (s : State) : SparesTasks s s.holdRefresh :=
  sparesTasks_foldl _ (fun _ hx s => sparesTasks_setFld s F.RAS_HOLD_HOLDING _ ⟨List.mem_range.1 hx, Nat.one_pos⟩ (by decide)) s

/-- Member 0 of a crew of tiles is a tile. -/
theorem member0_lt (s : State) {parts : List Nat} (h : ∀ j ∈ parts, j < 1088) : s.member0 parts < 1088 := by
  rw [State.member0]
  split
  · next t ht => exact Nat.lt_of_le_of_lt (Nat.sub_le ..) (h t (List.mem_of_find?_eq_some ht))
  · cases parts with
    | nil => decide
    | cons j parts => exact h j List.mem_cons_self

/-! ## The end of a part -/

/-- The units of a connection's segments are not changed with a segment's tasks. -/
theorem units_modSeg {s : State} {d : Nat} (b : Int) (p : Nat) {f : SegSt → SegSt} (hf : ∀ g, (f g).unit = g.unit)
    (h : ∀ g ∈ (s.conn d).segs, g.unit < 16) : ∀ g ∈ ((s.modSeg d b p f).conn d).segs, g.unit < 16 := by
  rw [State.modSeg, State.conn_setConn_same]
  intro g hg
  obtain ⟨x, hx, rfl⟩ := List.mem_map.1 hg
  split
  · rw [hf]; exact h x hx
  · exact h x hx

/-- The task of tile `k` loses a participant, or ends. -/
def CrewTask.withDone (c : CrewTask) (k : Nat) : CrewTask := { c with done := (c.done.filter (· != k)) ++ [k] }

/-- Has every participant of a task completed its part. -/
def CrewTask.allDone (c : CrewTask) : Bool := c.parts.all fun j => c.done.contains j

section
variable {s : State} {k u e : Nat} {c : CrewTask} (htask : s.taskOf k = some (u, e)) (hcrew : (s.crew u e).task = some c)
include htask hcrew

/-- A part that is not the last is noted (R209). -/
theorem partDone_of_more (h : (c.withDone k).allDone = false) :
    s.partDone k = s.setCrew u e { s.crew u e with task := some (c.withDone k) } := by
  simp only [State.partDone, htask, hcrew]
  exact if_neg (Bool.eq_false_iff.1 h)

/-- With the last part the task ends; what follows spares the crews, the memories and the tiles' states (R209). -/
theorem partDone_of_all (h : (c.withDone k).allDone = true) (hparts : ∀ j ∈ c.parts, j < 1088)
    (hunits : ∀ d < 16, ∀ g ∈ (s.conn d).segs, g.unit < 16) (hu : u < 16) :
    ∃ v, SparesTasks s v ∧ SparesTasks (v.setCrew u e { v.crew u e with task := none }) (s.partDone k) := by
  let v := c.parts.foldl (fun v x => v.crewStats x (s.member0 c.parts)) s
  have hv : SparesTasks s v := sparesTasks_foldl _ (fun x _ w => sparesTasks_crewStats w x (member0_lt s hparts)) s
  have hconns : v.conns = s.conns :=
    onlyRegs_conns (foldl_rel onlyRegs_refl onlyRegs_trans (fun w x => crewStats_onlyRegs w x (s.member0 c.parts)) c.parts s)
  refine ⟨v, hv, ?_⟩
  simp only [State.partDone, htask, hcrew]
  rw [if_pos (show (c.parts.all fun x => ((c.done.filter (· != k)) ++ [k]).contains x) = true from h)]
  refine SparesTasks.trans ?_ (sparesTasks_holdRefresh _)
  generalize hw : v.setCrew u e { v.crew u e with task := none } = w
  have hwconn (d : Nat) : w.conn d = s.conn d := conn_congr (by rw [← hw]; exact hconns) d
  split
  · next d hd =>
    have hd16 : d < 16 := List.mem_range.1 (List.mem_of_find?_eq_some hd)
    have hsegs := units_modSeg (s := w) (d := d) c.b c.part (f := fun g => { g with tasks := g.tasks.filter (· != e) }) (fun _ => rfl)
      fun g hg => hunits d hd16 g (hwconn d ▸ hg)
    exact ((sparesTasks_setConn w d _).trans (sparesTasks_release 64 hd16 hsegs)).trans (sparesTasks_refSets _ hu)
  · exact .refl w

end

/-! ## HALT -/

/-- Tile `k` as HALT leaves it: its slots closed, its convoy descriptor and its loops cleared (R311). -/
def Tile.halted (x : Tile) : Tile := { x with slots := [], convoy := none, loops := [] }

/-- What HALT names: nothing, but it waits for every entry (R311). -/
def State.haltNamed (s : State) (k : Nat) : Named := { named0 with waits := !(s.sbList k).isEmpty }

/-- The device with tile `k`, which has no open slot, in IDLE (R311). -/
def State.idled (s : State) (k : Nat) : State := (s.modTile k Tile.halted).setTState k tIdle

section
variable {s : State} {dt w : Nat} {k : Fin 1088}

/-- HALT where no entry is in use and no slot is open. -/
theorem exec_halt (h : s.issues k 0x01 w) (hsb : s.sbList k = []) (hslots : (s.tile k).slots = []) :
    exec (.halt dt k) s = .next (((s.issued dt k).idled k).partDone k) := by
  have hp : s.passes k (s.haltNamed k) :=
    ⟨mayIssue_of_no_ranges s k rfl rfl rfl rfl (by rw [State.haltNamed, hsb]; rfl), rfl⟩
  have he : exec (.halt dt k) s = .next ((((((s.issued dt k).tile k).slots.foldl (fun s z => s.slotClose (z / 256) (z % 256))
      (s.issued dt k)).modTile k Tile.halted).setTState k tIdle).partDone k) :=
    congrArg Host.Outcome.next (issueWord_of_passes (s := s.tick dt) h ⟨⟨hp.ranges, hp.excs, hp.banks, hp.waits, hp.sb⟩, hp.ms⟩)
  rw [issued_tile, hslots] at he
  exact he

theorem idled_onTile (s : State) (k : Fin 1088) : OnTile s (s.idled k) k [(.TILE_STAT, k.val, 0)] :=
  (onTile_modTile s k _ _).trans (onTile_setFld _ F.TILE_STAT_STATE tIdle ⟨k.isLt, Nat.one_pos⟩ (List.mem_singleton_self _))

theorem idled_tile (s : State) (k : Nat) : (s.idled k).tile k = (s.tile k).halted := by
  rw [State.idled, State.tile_setTState, State.tile_modTile_same]

theorem idled_tState (s : State) (k : Nat) : (s.idled k).tState k = tIdle := State.fld_setFld_same _ F.TILE_STAT_STATE _ _ _ (by decide)

variable {u e : Nat} {c : CrewTask} (h : s.issues k 0x01 w) (hsb : s.sbList k = []) (hslots : (s.tile k).slots = [])
  (htask : s.taskOf k = some (u, e)) (hcrew : (s.crew u e).task = some c)
include h hsb hslots htask hcrew

/-- HALT of a participant that is not the last of its task. -/
theorem halt_more (hmore : (c.withDone k).allDone = false) : ∃ t, exec (.halt dt k) s = .next t ∧ t.tState k = tIdle ∧
    t.tile k = { s.tile k with convoy := none, loops := [] } ∧ (∀ j, j ≠ k.val → t.tile j = s.tile j) ∧
    t.crew u e = { s.crew u e with task := some (c.withDone k) } ∧ s.keeps t [(.TILE_STAT, k.val, 0)] ∧
    t = { s.tick dt with regs := t.regs, tiles := t.tiles, crews := t.crews } := by
  have hon := (issued_onTile s dt k).trans (idled_onTile (s.issued dt k) k)
  have htile := idled_tile (s.issued dt k) k
  have hstate := idled_tState (s.issued dt k) k
  rw [issued_tile] at htile
  rw [exec_halt h hsb hslots]
  generalize (s.issued dt k).idled k = v at hon htile hstate ⊢
  have hcrews : v.crews = s.crews := by rw [hon.frame]; rfl
  have hvcrew : v.crew u e = s.crew u e := crew_congr hcrews u e
  rw [partDone_of_more (by rw [State.taskOf, hcrews]; exact htask) (hvcrew ▸ hcrew) hmore, hvcrew]
  refine ⟨_, rfl, hstate, htile.trans ?_, hon.others, mapGet_mapSet_same crew0 v.crews _ _, keeps_congr rfl (keeps_of_tick hon.regs), ?_⟩
  · rw [Tile.halted, ← hslots]
  · rw [hon.frame]
    rfl

/-- HALT of a task's last participant. -/
theorem halt_all (hall : (c.withDone k).allDone = true) (hparts : ∀ j ∈ c.parts, j < 1088)
    (hunits : ∀ d < 16, ∀ g ∈ (s.conn d).segs, g.unit < 16) (hu : u < 16) :
    ∃ t, exec (.halt dt k) s = .next t ∧ t.tState k = tIdle ∧ (t.crew u e).task = none ∧ s.sameMemory t := by
  have hon := (issued_onTile s dt k).trans (idled_onTile (s.issued dt k) k)
  have hstate := idled_tState (s.issued dt k) k
  rw [exec_halt h hsb hslots]
  generalize (s.issued dt k).idled k = v at hon hstate ⊢
  have hcrews : v.crews = s.crews := by rw [hon.frame]; rfl
  have hconns : v.conns = s.conns := by rw [hon.frame]; rfl
  obtain ⟨x, hx, ht⟩ := partDone_of_all (s := v) (by rw [State.taskOf, hcrews]; exact htask) (crew_congr hcrews u e ▸ hcrew) hall hparts
    (fun d hd g hg => hunits d hd g (conn_congr hconns d ▸ hg)) hu
  refine ⟨_, rfl, ?_, ?_, sameMemory_of_stores ((ht.depot.trans hx.depot).trans ?_) ((ht.hbm.trans hx.hbm).trans ?_)⟩
  · rw [State.tState, State.fld, ht.stat k k.isLt]
    exact (congrArg (bitsOf · _ _) (hx.stat k k.isLt)).trans hstate
  · rw [crew_congr ht.crews, State.crew, State.setCrew, mapGet_mapSet_same]
  · rw [hon.depot]
    rfl
  · rw [hon.hbm]
    rfl

end

/-- Settles O37: each word by its own theorem; a word with an exception by `halted_of_exc`, and HALT by its part of the task. -/
theorem controlWordsAct : Obligations.ControlWordsAct := by
  intro dt k w s x pc busy
  refine ⟨cfg_next dt, ring_next dt, seed_next dt, clracc_next dt, convoy_next dt, fun h hm => ?_, fun h hm hf => ?_,
    fun htask hfirst => ⟨fun h hfn hb => ?_, fun h hn => ?_, fun h hm => ?_⟩, fun h hsb hslots u e c htask hcrew =>
    ⟨fun hmore => ?_, fun hall hparts hunits => ?_⟩⟩
  · exact ⟨wait_reached dt h hm, wait_unreached dt h hm⟩
  · exact arrive_next dt h hm hf
  · exact halted_of_exc dt rfl h rfl (if_pos ⟨hfn, hb⟩) (by decide) htask hfirst
  · exact halted_of_exc dt rfl h rfl (if_pos hn) (by decide) htask hfirst
  · exact halted_of_exc dt rfl h rfl (if_pos hm) (by decide) htask hfirst
  · exact halt_more h hsb hslots htask hcrew hmore
  · exact halt_all h hsb hslots htask hcrew hall hparts hunits u.isLt

end Sys2Proof.Machine
end

section
/-! What a compute word does (R126, R315 to R317): it changes storage within the ranges that it names for writing, the accumulators, the
window and weight registers, the generator and the statistics registers, and nothing else. -/
namespace Sys2Proof.Machine

/-- The registers that a compute word of tile `k` writes: its statistics and its generator (R129, R166). -/
def computeRegs (k : Nat) : List (Reg × Nat × Nat) := [(.TILE_MSE_SQ, k, 0), (.TILE_MSE_CNT, k, 0), (.TILE_RNG_STEPS, k, 0)]

/-- What a compute word may change of its tile. -/
def Tile.computedAs (x y : Tile) : Tile :=
  { x with sp := y.sp, lb := y.lb, acc := y.acc, wCur := y.wCur, wNext := y.wNext, window := y.window, genX := y.genX, genM := y.genM }

/-- A range that is written and contains `n` words at `a`. -/
def Writes (rs : List Rng) (lb : Bool) (a n : Nat) : Prop :=
  ∃ r ∈ rs, r.write = true ∧ r.lb = lb ∧ r.addr ≤ a ∧ a + n ≤ r.addr + r.n

/-- `t` is `s` after steps of a compute word of tile `k` that names `rs`. -/
structure Computed (s : State) (k : Fin 1088) (rs : List Rng) (t : State) : Prop where
  own : t.tile k = (s.tile k).computedAs (t.tile k)
  onTile : OnTile s t k (computeRegs k)
  stored : ∀ lb a, a < spaceWords lb → (∀ r ∈ rs, r.write = true → r.lb = lb → a < r.addr ∨ r.addr + r.n ≤ a) →
    t.readW k lb a = s.readW k lb a

theorem Computed.refl (s : State) (k : Fin 1088) (rs : List Rng) : Computed s k rs s := ⟨rfl, .refl s k _, fun _ _ _ _ => rfl⟩

section
variable {s t : State} {k : Fin 1088} {rs : List Rng}

/-! ## Operands stay -/

theorem Computed.gReg (h : Computed s k rs t) (i : Nat) : t.gReg k i = s.gReg k i := by
  rw [State.gReg, State.gReg, show (t.tile k).g = (s.tile k).g by rw [h.own]; rfl]

theorem Computed.ea (h : Computed s k rs t) (o : Opnd) : t.ea k o = s.ea k o := by rw [State.ea, State.ea, h.gReg]

theorem geo_congr {s t : State} {k : Nat} (h : (t.tile k).cfg = (s.tile k).cfg) (i : Nat) : t.geo k i = s.geo k i := by
  simp only [State.geo, State.cfgF, h]

theorem Computed.geo (h : Computed s k rs t) (i : Nat) : t.geo k i = s.geo k i := geo_congr (by rw [h.own]; rfl) i

/-! ## Steps -/

/-- A step that changes neither storage nor more of the tile than a compute word may. -/
theorem Computed.modTile (h : Computed s k rs t) {f : Tile → Tile} (hf : ∀ x, f x = x.computedAs (f x)) (hsp : ∀ x, (f x).sp = x.sp)
    (hlb : ∀ x, (f x).lb = x.lb) : Computed s k rs (t.modTile k f) where
  own := by
    rw [t.tile_modTile_same, hf, h.own]
    rfl
  onTile := h.onTile.trans (onTile_modTile t k f _)
  stored lb a ha hr := (readW_congr (s := t) (t := t.modTile k f) (fun _ _ => State.reg_congr rfl _ _ _) (by rw [t.tile_modTile_same, hsp])
    (by rw [t.tile_modTile_same, hlb]) lb a).trans (h.stored lb a ha hr)

theorem Computed.setFld (h : Computed s k rs t) (f : Fld) (v : Nat) (hf : regHas f.reg k 0) (hmem : (f.reg, k.val, 0) ∈ computeRegs k) :
    Computed s k rs (t.setFld f v k) where
  own := by rw [t.tile_setFld]; exact h.own
  onTile := h.onTile.trans (onTile_setFld t f v hf hmem)
  stored lb a ha hr := by
    have hne (e : Nat) : (Reg.TILE_MAP, k.val, e) ∉ [(f.reg, k.val, 0)] := by
      intro hm
      rw [← (Prod.mk.inj (List.mem_singleton.1 hm)).1] at hmem
      simp [computeRegs] at hmem
    exact (readW_congr (map_of_keeps (keeps_setFld t f v hf) k.isLt hne) (by rw [t.tile_setFld]) (by rw [t.tile_setFld]) lb a).trans
      (h.stored lb a ha hr)

theorem Computed.writeW (h : Computed s k rs t) (hfit : rs.all Rng.fits = true) {lb : Bool} {a : Nat} (hw : Writes rs lb a 1) (c : Cell16) :
    Computed s k rs (t.writeW k lb a c) where
  own := by
    rw [writeW_tile, h.own]
    rfl
  onTile := h.onTile.trans (writeW_onTile t k lb a c _)
  stored lb' b hb hr := by
    obtain ⟨r, hmem, hwr, rfl, hlo, hhi⟩ := hw
    have hr_fit : r.addr + r.n ≤ spaceWords r.lb := of_decide_eq_true (List.all_eq_true.1 hfit r hmem)
    refine (readW_writeW_ne t k c hb (by omega) ?_).trans (h.stored lb' b hb hr)
    by_cases hl : r.lb = lb'
    · have := hr r hmem hwr hl
      omega
    · exact .inl (Ne.symm hl)

theorem Writes.mono {lb : Bool} {a n b m : Nat} (h : Writes rs lb a n) (hlo : a ≤ b) (hhi : b + m ≤ a + n) : Writes rs lb b m := by
  obtain ⟨r, hmem, hwr, hl, h1, h2⟩ := h
  exact ⟨r, hmem, hwr, hl, by omega, by omega⟩

theorem Computed.writeWs (h : Computed s k rs t) (hfit : rs.all Rng.fits = true) {lb : Bool} {a : Nat} (cs : List Cell16)
    (hw : Writes rs lb a cs.length) : Computed s k rs (t.writeWs k lb a cs) := by
  induction cs generalizing t a with
  | nil => exact h
  | cons c cs ih =>
    rw [List.length_cons] at hw
    exact ih (h.writeW hfit (hw.mono (Nat.le_refl a) (by omega)) c) (hw.mono (by omega) (by omega))

theorem Computed.writeBits (h : Computed s k rs t) (hfit : rs.all Rng.fits = true) {lb : Bool} {a : Nat} (hw : Writes rs lb a 1)
    (lo n v : Nat) (p : Bool) : Computed s k rs (t.writeBits k lb a lo n v p) := h.writeW hfit hw _

theorem Computed.accPut (h : Computed s k rs t) (i : Nat) (a : AccE) : Computed s k rs (t.accPut k i a) :=
  h.modTile (fun _ => rfl) (fun _ => rfl) fun _ => rfl

theorem Computed.accClear (h : Computed s k rs t) : Computed s k rs (t.accClear k) :=
  h.modTile (fun _ => rfl) (fun _ => rfl) fun _ => rfl

theorem Computed.setGen (h : Computed s k rs t) (g : Gen) : Computed s k rs (t.setGen k g) :=
  (h.modTile (f := fun x => { x with genX := g.x, genM := g.m }) (fun _ => rfl) (fun _ => rfl) fun _ => rfl).setFld
    F.TILE_RNG_STEPS_STEPS _ ⟨k.isLt, Nat.one_pos⟩ (by simp [computeRegs])

theorem Computed.addStats (h : Computed s k rs t) (st : RqSt) : Computed s k rs (t.addStats k st) :=
  (((h.setFld F.TILE_MSE_SQ_SQ _ ⟨k.isLt, Nat.one_pos⟩ (by simp [computeRegs])).setFld F.TILE_MSE_SQ_POISONED _ ⟨k.isLt, Nat.one_pos⟩
    (by simp [computeRegs])).setFld F.TILE_MSE_CNT_CNT _ ⟨k.isLt, Nat.one_pos⟩ (by simp [computeRegs])).setFld F.TILE_MSE_CNT_SAT _
    ⟨k.isLt, Nat.one_pos⟩ (by simp [computeRegs])

theorem Computed.weights (h : Computed s k rs t) (ws : List Cell16) :
    Computed s k rs (t.modTile k fun x => { x with wCur := ws, wNext := ws }) := h.modTile (fun _ => rfl) (fun _ => rfl) fun _ => rfl

/-- Steps one after another. -/
theorem Computed.foldl {α : Type} {f : State → α → State} (h : Computed s k rs t) (l : List α)
    (hf : ∀ x ∈ l, ∀ u, Computed s k rs u → Computed s k rs (f u x)) : Computed s k rs (l.foldl f t) :=
  List.foldlRecOn l f h fun u hu x hx => hf x hx u hu

theorem Computed.ite (h : Computed s k rs t) {u : State} (p : Prop) [Decidable p] (hu : p → Computed s k rs u) :
    Computed s k rs (if p then u else t) := by
  split
  · next hp => exact hu hp
  · exact h

/-! ## Sweeps, drains and pooling -/

theorem Computed.sweep (h : Computed s k rs t) (g : Geo) (src : InSrc) (ws scs : List Cell16) (load : Bool) (grp : Nat) (row col : Int) :
    Computed s k rs (t.sweep k g src ws scs load grp row col) :=
  h.foldl _ fun _ _ _ hu => hu.foldl _ fun _ _ _ hv => hv.accPut _ _

theorem Computed.groupSweeps (h : Computed s k rs t) (g : Geo) (p : OpWord) (og : Nat) : Computed s k rs (t.groupSweeps k g p og) :=
  h.foldl _ fun _ _ _ hu => hu.foldl _ fun _ _ _ hv => (hv.weights _).sweep _ _ _ _ _ _ _ _

end

/-! ## Words written -/

theorem packWords_length (w per n : Nat) (cs : List (Nat × Bool)) : (packWords w per cs n).length = n := by
  induction n generalizing cs with
  | zero => rfl
  | succ n ih => rw [packWords, List.length_cons, ih]

theorem directWords_length (f : Fmt) (es : List El) : (directWords f es).length = fmtWords f := packWords_length ..

theorem fmtWords_of_narrow {f : Fmt} (h : f.narrow = true) : fmtWords f = 1 := by
  cases f <;> simp_all [Fmt.narrow, fmtWords]

/-- A drained vector takes the words that the set's output has (R316). -/
theorem drainWords_length (s : State) (k : Nat) (g : Geo) (es : List El) (st : RqSt) : (s.drainWords k g es st).1.length = g.outWords := by
  unfold State.drainWords Geo.outWords
  by_cases hn : g.out.narrow = true
  · by_cases h1 : g.lut = 1
    · simp [hn, h1, directWords_length, fmtWords]
    · by_cases h2 : g.lut = 2
      · simp [hn, h2, directWords_length, fmtWords]
      · simp [hn, h1, h2, packWords_length, fmtWords_of_narrow hn]
  · simp [hn, directWords_length]

section
variable {g : Geo} {p : OpWord} (hd : p.drain = true)
include hd

/-- The ranges of a drain to NV4: the codes and the scales of each pair of groups (R316). -/
theorem writes_drain_nv4 (hout : g.out = .nv4) {og : Nat} (hog : og < g.gOut) :
    Writes (g.drainRngs p) p.olb (p.o + og / 2 * g.wOut + (g.drainSpan p).1) (g.drainSpan p).2 ∧
    Writes (g.drainRngs p) p.olb (p.o + og / 2 * g.wOut + g.asoff + (g.drainSpan p).1 / 8)
      (((g.drainSpan p).1 + (g.drainSpan p).2 + 7) / 8 - (g.drainSpan p).1 / 8) := by
  have hmem (r : Rng) (hr : r ∈ [⟨true, p.olb, p.o + og / 2 * g.wOut + (g.drainSpan p).1, (g.drainSpan p).2⟩,
      (⟨true, p.olb, p.o + og / 2 * g.wOut + g.asoff + (g.drainSpan p).1 / 8,
        ((g.drainSpan p).1 + (g.drainSpan p).2 + 7) / 8 - (g.drainSpan p).1 / 8⟩ : Rng)]) : r ∈ g.drainRngs p := by
    simp only [Geo.drainRngs, hd, hout, Bool.not_true, Bool.false_eq_true, if_false, if_true]
    exact List.mem_append_right _ (List.mem_flatMap.2 ⟨og / 2, List.mem_range.2 (by omega), hr⟩)
  exact ⟨⟨_, hmem _ List.mem_cons_self, rfl, rfl, Nat.le_refl _, Nat.le_refl _⟩,
    ⟨_, hmem _ (List.mem_cons_of_mem _ List.mem_cons_self), rfl, rfl, Nat.le_refl _, Nat.le_refl _⟩⟩

/-- The range of a drain of one group to another format (R316). -/
theorem writes_drain (hout : g.out ≠ .nv4) {og : Nat} (hog : og < g.gOut) :
    Writes (g.drainRngs p) p.olb (p.o + og * (g.wOut * g.outWords) + (g.drainSpan p).1 * g.outWords) ((g.drainSpan p).2 * g.outWords) := by
  refine ⟨⟨true, p.olb, p.o + og * (g.wOut * g.outWords) + (g.drainSpan p).1 * g.outWords, (g.drainSpan p).2 * g.outWords⟩, ?_, rfl, rfl,
    Nat.le_refl _, Nat.le_refl _⟩
  simp only [Geo.drainRngs, hd, hout, Bool.not_true, Bool.false_eq_true, if_false]
  exact List.mem_append_right _ (List.mem_map.2 ⟨og, List.mem_range.2 hog, rfl⟩)

end

section
variable {s t : State} {k : Fin 1088} {rs : List Rng} (hfit : rs.all Rng.fits = true)
include hfit

theorem Computed.writeNv4 (h : Computed s k rs t) (g : Geo) {lb : Bool} {base x : Nat} (og : Nat) (cs : List (Nat × Bool))
    (hcode : Writes rs lb (base + x) 1) (hscale : Writes rs lb (base + g.asoff + x / 8) 1) :
    Computed s k rs (t.writeNv4 k g lb base og x cs) := by
  have hcodes : Computed s k rs (if g.gOut % 2 = 1 ∧ og + 1 = g.gOut then
      t.writeW k lb (base + x) ⟨BitVec.ofNat 128 (packWord 4 cs).1, (packWord 4 cs).2⟩
      else t.writeBits k lb (base + x) (64 * (og % 2)) 64 (packWord 4 cs).1 (packWord 4 cs).2) :=
    (h.writeBits hfit hcode _ _ _ _).ite _ fun _ => h.writeW hfit hcode _
  exact hcodes.ite _ fun _ => hcodes.writeBits hfit hscale _ _ _ _

variable {g : Geo} {p : OpWord} (hsub : ∀ r ∈ g.drainRngs p, r ∈ rs) (hd : p.drain = true)
include hsub hd

/-- A drain of a position of the span writes within the ranges of the drain (R316). -/
theorem Computed.drainPos (h : Computed s k rs t) (isInt : Bool) {og x : Nat} (bias : List El) (hog : og < g.gOut)
    (hx : x < (g.drainSpan p).2) : Computed s k rs (t.drainPos k g p isInt og (g.drainSpan p).1 bias x) := by
  have sub {lb : Bool} {a n : Nat} (hw : Writes (g.drainRngs p) lb a n) : Writes rs lb a n := by
    obtain ⟨r, hmem, hw⟩ := hw
    exact ⟨r, hsub r hmem, hw⟩
  unfold State.drainPos
  extract_lets es st
  split
  · next hout =>
    obtain ⟨hcode, hscale⟩ := writes_drain_nv4 hd hout hog
    exact ((h.writeNv4 hfit g og _ ((sub hcode).mono (by omega) (by omega)) ((sub hscale).mono (by omega) (by omega))).setGen _).addStats _
  · next hout =>
    have hlen := drainWords_length t k g es st
    generalize t.drainWords k g es st = d at hlen ⊢
    have hx' : x * g.outWords + g.outWords ≤ (g.drainSpan p).2 * g.outWords := by
      rw [← Nat.succ_mul]; exact Nat.mul_le_mul_right _ hx
    refine ((h.writeWs hfit _ ((sub (writes_drain hd hout hog)).mono ?_ ?_)).setGen _).addStats _
    · rw [Nat.add_mul]; omega
    · rw [Nat.add_mul, hlen]; omega

theorem Computed.drain (h : Computed s k rs t) (isInt : Bool) {og : Nat} (hog : og < g.gOut) :
    Computed s k rs (t.drain k g p isInt og (g.drainSpan p).1 (g.drainSpan p).2) :=
  h.foldl _ fun _ hx _ hu => hu.drainPos hfit hsub hd isInt _ hog (List.mem_range.1 hx)

end

end Sys2Proof.Machine
end

section
/-! The compute words keep to the ranges that they name (R184 to R192, R315 to R317): the words of each operator lie in the ranges that
it names for writing. -/
namespace Sys2Proof.Machine

/-! ## CONV, MAT, SLIP and POOL -/

/-- There is an output group (R315). -/
theorem gOut_pos {g : Geo} (h : 0 < g.cout) : 0 < g.gOut := by
  rw [Geo.gOut]
  omega

theorem geo_cout_pos (s : State) (k i : Nat) : 0 < (s.geo k i).cout := Nat.succ_pos _

/-- A drain of a set that is no slip convolution's covers the whole row (R315, R316). -/
theorem drainSpan_row {g : Geo} (p : OpWord) (h : g.opk ≠ 2) : g.drainSpan p = (0, g.wOut) := if_neg h

/-- A drain of a slip convolution covers the positions of its pass (R185, R316). -/
theorem drainSpan_pass {g : Geo} (p : OpWord) (h : g.opk = 2) : g.drainSpan p = (256 * p.pass, min 256 (g.wOut - 256 * p.pass)) := if_pos h

section
variable {s t : State} {k : Fin 1088} {rs : List Rng} {g : Geo} {p : OpWord} (hfit : rs.all Rng.fits = true)
  (hsub : ∀ r ∈ g.drainRngs p, r ∈ rs) (h : Computed s k rs t)
include hfit hsub h

theorem Computed.drainRow (hg : g.opk ≠ 2) (isInt : Bool) {og : Nat} (hog : og < g.gOut) :
    Computed s k rs (if p.drain then t.drain k g p isInt og 0 g.wOut else t) := by
  refine h.ite _ fun hd => ?_
  have hdrain := h.drain hfit hsub hd isInt hog
  rwa [drainSpan_row p hg] at hdrain

theorem Computed.conv (hg : g.opk ≠ 2) : Computed s k rs (t.conv k g p) :=
  (h.ite _ fun _ => h.accClear).foldl _ fun _ hog _ hu => (hu.groupSweeps g p _).drainRow hfit hsub hg _ (List.mem_range.1 hog)

theorem Computed.pool (hg : g.opk ≠ 2) : Computed s k rs (t.pool k g p) :=
  h.foldl _ fun _ hog _ hu => Computed.drainRow hfit hsub (hu.foldl _ fun _ _ _ hv => hv.foldl _ fun _ _ _ hw => hw.accPut _ _) hg _
    (List.mem_range.1 hog)

theorem Computed.slip (hg : g.opk = 2) (hout : 0 < g.gOut) : Computed s k rs (t.slip k g p) := by
  unfold State.slip
  extract_lets x0 n clr u v
  have hclr : Computed s k rs clr := h.ite _ fun _ => h.accClear
  have hu : Computed s k rs u := hclr.foldl _ fun _ _ _ hu => hu.foldl _ fun _ _ _ hv => hv.accPut _ _
  have hv : Computed s k rs v := by
    change Computed s k rs (if n = 0 then u else u.slipWindow k g p (x0 + n - 1))
    split
    · exact hu
    · exact hu.foldl _ fun _ _ _ hw => hw.modTile (fun _ => rfl) (fun _ => rfl) fun _ => rfl
  refine hv.ite _ fun hd => ?_
  have hdrain := hv.drain hfit hsub hd true hout
  rwa [drainSpan_pass p hg] at hdrain

end

/-! ## EW and RQ -/

/-- The ranges that EW writes (R317). -/
def ewWrites (g : Geo) (lb : Bool) (o n : Nat) (out : Fmt) : List Rng :=
  if out = .nv4 then [⟨true, lb, o, (n + 1) / 2⟩, ⟨true, lb, o + g.asoff, ((n + 1) / 2 + 7) / 8⟩]
  else [⟨true, lb, o, n * (if out.narrow then 1 else fmtWords out)⟩]

/-- The ranges that RQ writes (R317). -/
def rqWrites (g : Geo) (lb : Bool) (o n : Nat) : List Rng :=
  if g.out = .nv4 then [⟨true, lb, o, n⟩, ⟨true, lb, o + g.asoff, (n + 7) / 8⟩] else [⟨true, lb, o, n * fmtWords g.out⟩]

/-- What is written at vector `x` of `n`, `v` words a vector, lies in the range of all of them. -/
theorem writes_vector {rs : List Rng} {lb : Bool} {o n v x : Nat} (hx : x < n) (hr : (⟨true, lb, o, n * v⟩ : Rng) ∈ rs) :
    Writes rs lb (o + x * v) v := by
  refine ⟨_, hr, rfl, rfl, Nat.le_add_right _ _, ?_⟩
  have := Nat.mul_le_mul_right v (Nat.succ_le_of_lt hx)
  rw [Nat.succ_mul] at this
  dsimp only
  omega

section
variable {s t : State} {k : Fin 1088} {rs : List Rng} (hfit : rs.all Rng.fits = true) (h : Computed s k rs t)
include hfit h

/-- A vector of EW is written within the ranges that the word names (R317). -/
theorem Computed.ewVec {w x : Nat}
    (hsub : ∀ r ∈ ewWrites (s.geo k (wf w 108 104)) (opnd w 56).lb (s.ea k (opnd w 56)) (wf w 87 76 + 1) (fmtOf (wf w 101 99)), r ∈ rs)
    (hx : x < wf w 87 76 + 1) : Computed s k rs (t.ewVec k w x) := by
  unfold State.ewVec
  extract_lets oa ob oo f af bf out fromAcc a b es g st o
  have hg : g = s.geo k (wf w 108 104) := h.geo _
  have ho : o = s.ea k (opnd w 56) := h.ea _
  rw [← hg, ← ho] at hsub
  have hnv4 : out = .nv4 → (⟨true, oo.lb, o, (wf w 87 76 + 1 + 1) / 2⟩ : Rng) ∈ rs ∧
      (⟨true, oo.lb, o + g.asoff, ((wf w 87 76 + 1 + 1) / 2 + 7) / 8⟩ : Rng) ∈ rs := fun hout => by
    rw [ewWrites, if_pos hout] at hsub
    exact ⟨hsub _ List.mem_cons_self, hsub _ (List.mem_cons_of_mem _ List.mem_cons_self)⟩
  have hvec : out ≠ .nv4 → (⟨true, oo.lb, o, (wf w 87 76 + 1) * (if out.narrow then 1 else fmtWords out)⟩ : Rng) ∈ rs := fun hout => by
    rw [ewWrites, if_neg hout] at hsub
    exact hsub _ List.mem_cons_self
  split
  · next hout =>
    obtain ⟨hcode, hscale⟩ := hnv4 hout
    have hbits := h.writeBits hfit (lb := oo.lb) (a := o + x / 2) ⟨_, hcode, rfl, rfl, by dsimp only; omega, by dsimp only; omega⟩
      (64 * (x % 2)) 64 (packWord 4 (requantList .nv4 g.stoch g.qm 0 es st).1).1 (packWord 4 (requantList .nv4 g.stoch g.qm 0 es st).1).2
    exact ((hbits.ite _ fun _ => hbits.writeBits hfit
      ⟨_, hscale, rfl, rfl, by dsimp only; omega, by dsimp only; omega⟩ _ _ _ _).setGen _).addStats _
  · next hout =>
    have hr := hvec hout
    split
    · next hn =>
      rw [if_pos hn] at hr
      have hw := writes_vector hx hr
      rw [Nat.mul_one] at hw
      exact ((h.writeWs hfit _ ((packWords_length ..).symm ▸ hw)).setGen _).addStats _
    · next hn =>
      rw [if_neg hn] at hr
      exact h.writeWs hfit _ ((directWords_length out es).symm ▸ writes_vector hx hr)

/-- A position of RQ is written within the ranges that the word names (R317). -/
theorem Computed.rqPos {w x : Nat}
    (hsub : ∀ r ∈ rqWrites (s.geo k (wf w 108 104)) (opnd w 36).lb (s.ea k (opnd w 36)) (wf w 121 110 + 1), r ∈ rs)
    (hx : x < wf w 121 110 + 1) : Computed s k rs (t.rqPos k w x) := by
  unfold State.rqPos
  extract_lets oa oo hoff g af fromAcc rl a st o b e sc
  have hg : g = s.geo k (wf w 108 104) := h.geo _
  have ho : o = s.ea k (opnd w 36) := h.ea _
  rw [← hg, ← ho] at hsub
  have hnv4 : g.out = .nv4 → (⟨true, oo.lb, o, wf w 121 110 + 1⟩ : Rng) ∈ rs ∧
      (⟨true, oo.lb, o + g.asoff, (wf w 121 110 + 1 + 7) / 8⟩ : Rng) ∈ rs := fun hout => by
    rw [rqWrites, if_pos hout] at hsub
    exact ⟨hsub _ List.mem_cons_self, hsub _ (List.mem_cons_of_mem _ List.mem_cons_self)⟩
  have hvec : g.out ≠ .nv4 → (⟨true, oo.lb, o, (wf w 121 110 + 1) * fmtWords g.out⟩ : Rng) ∈ rs := fun hout => by
    rw [rqWrites, if_neg hout] at hsub
    exact hsub _ List.mem_cons_self
  split
  · next hout =>
    obtain ⟨hcode, hscale⟩ := hnv4 hout
    exact (((h.writeW hfit ⟨_, hcode, rfl, rfl, by dsimp only; omega, by dsimp only; omega⟩ _).writeBits hfit
      ⟨_, hscale, rfl, rfl, by dsimp only; omega, by dsimp only; omega⟩ _ _ _ _).setGen _).addStats _
  · next hout =>
    have hr := hvec hout
    split
    · next hn =>
      rw [fmtWords_of_narrow hn] at hr
      have hw := writes_vector hx hr
      rw [Nat.mul_one] at hw
      exact ((h.writeWs hfit _ ((packWords_length ..).symm ▸ hw)).setGen _).addStats _
    · exact h.writeWs hfit _ ((directWords_length g.out a).symm ▸ writes_vector hx hr)

end

end Sys2Proof.Machine
end

section
/-! A compute word that nothing holds back completes (R126, R315 to R317). -/
namespace Sys2Proof.Machine

section
variable {s : State} {dt op w : Nat} {k : Fin 1088}

/-- Ranges without an exception lie in their spaces (R304). -/
theorem fits_of_rngExcs {k : Nat} {rs : List Rng} (h : s.rngExcs k rs = []) : rs.all Rng.fits = true := by
  obtain ⟨h, -⟩ := List.append_eq_nil_iff.1 h
  obtain ⟨h, -⟩ := List.append_eq_nil_iff.1 h
  by_contra hne
  rw [if_neg hne] at h
  exact absurd h (List.cons_ne_nil _ _)

/-- A compute word whose effect keeps to what it names completes, and leaves every word outside the ranges it writes. -/
theorem compute_next {names : State → Nat → Named} {effect : State → Nat → State} {c : Instr} {n : Named}
    (hc : exec c s = .next ((s.tick dt).issueNext k op names effect)) (h : s.issues k op w) (hn : names (s.tick dt) w = n)
    (hms : n.ms = none) (he : n.excs = []) (hr : s.rngExcs k n.rngs = []) (hb : n.banks = 0) (hw : n.waits = false)
    (hsb : s.sbWait k n = false) (hcomp : n.rngs.all Rng.fits = true → Computed (s.issued dt k) k n.rngs (effect (s.issued dt k) w)) :
    ∃ t, exec c s = .next t ∧
      (∀ lb a, a < spaceWords lb → (∀ r ∈ n.rngs, r.write = true → r.lb = lb → a < r.addr ∨ r.addr + r.n ≤ a) →
        t.readW k lb a = s.readW k lb a) ∧
      s.wordDone t dt k ((s.tile k).pc + 1) (s.fld F.TILE_STAT_SB_BUSY k) ((s.tile k).computedAs (t.tile k)) (computeRegs k) := by
  have hcomp := hcomp (fits_of_rngExcs hr)
  have hp : s.passes k n := ⟨⟨hr, he, hb, hw, hsb⟩, by rw [State.msWaits, hms]⟩
  rw [hc, issueNext_of_passes dt h (hn ▸ hp)]
  generalize effect (s.issued dt k) w = u at hcomp ⊢
  have htile : u.tile k = (s.tile k).computedAs (u.tile k) := by rw [← issued_tile s dt k k]; exact hcomp.own
  have hstat (f : Fld) (hf : f.reg = .TILE_STAT) : u.fld f k = (s.issued dt k).fld f k :=
    fld_of_keeps hcomp.onTile.regs (by rw [hf]; exact ⟨k.isLt, Nat.one_pos⟩) (by simp [hf, computeRegs])
  have hd := wordDone_nextWord (dt := dt) (l := computeRegs k) h (((issued_onTile s dt k).mono (by simp)).trans
    (hcomp.onTile.mono fun x hx => List.mem_cons_of_mem _ hx)) (by rw [htile]; rfl) (by rw [htile]; rfl)
    ((hstat F.TILE_STAT_STATE rfl).trans (issued_tState s dt k)) ((hstat F.TILE_STAT_SB_BUSY rfl).trans (issued_busy s dt k))
  have hm := pcMoved_nextWord (s := u) (k := k) (by rw [htile]; exact h.2.2.2.2)
  refine ⟨_, rfl, fun lb a ha hout => ?_, ?_⟩
  · have hsame : (u.nextWord k).readW k lb a = u.readW k lb a :=
      readW_congr (fun _ _ => State.reg_congr (by rw [hm.frame]) _ _ _) (by rw [hm.tile]) (by rw [hm.tile]) lb a
    exact hsame.trans ((hcomp.stored lb a ha hout).trans (issued_readW s dt k lb a))
  · have hx : (s.tile k).computedAs ((u.nextWord k).tile k) = u.tile k := by
      rw [hm.tile]
      exact htile.symm
    rw [hx]
    exact hd

theorem issued_opWord : (s.issued dt k).opWord k w = s.opWord k w := by
  simp only [State.opWord, State.inSrc, issued_ea, issued_gReg]

theorem issued_geo (i : Nat) : (s.issued dt k).geo k i = s.geo k i := geo_congr (by rw [issued_tile]) i

theorem sweepNamed_tick : (s.tick dt).sweepNamed k w = s.sweepNamed k w := rfl
theorem poolNamed_tick : (s.tick dt).poolNamed k w = s.poolNamed k w := rfl
theorem ewNamed_tick : (s.tick dt).ewNamed k w = s.ewNamed k w := rfl
theorem rqNamed_tick : (s.tick dt).rqNamed k w = s.rqNamed k w := rfl

/-! ## The effects, with the operands of the tile -/

theorem computed_conv (hg : (s.geo k (wf w 104 100)).opk ≠ 2) (hfit : (s.sweepNamed k w).rngs.all Rng.fits = true) :
    Computed (s.issued dt k) k (s.sweepNamed k w).rngs
      ((s.issued dt k).conv k ((s.issued dt k).geo k ((s.issued dt k).opWord k w).set) ((s.issued dt k).opWord k w)) := by
  rw [issued_opWord, issued_geo]
  exact Computed.conv hfit (fun _ hr => List.mem_append_right _ hr) (.refl ..) hg

theorem computed_slip (hg : (s.geo k (wf w 104 100)).opk = 2) (hfit : (s.sweepNamed k w).rngs.all Rng.fits = true) :
    Computed (s.issued dt k) k (s.sweepNamed k w).rngs
      ((s.issued dt k).slip k ((s.issued dt k).geo k ((s.issued dt k).opWord k w).set) ((s.issued dt k).opWord k w)) := by
  rw [issued_opWord, issued_geo]
  exact Computed.slip hfit (fun _ hr => List.mem_append_right _ hr) (.refl ..) hg (gOut_pos (geo_cout_pos ..))

theorem computed_pool (hg : (s.geo k (wf w 104 100)).opk ≠ 2) (hfit : (s.poolNamed k w).rngs.all Rng.fits = true) :
    Computed (s.issued dt k) k (s.poolNamed k w).rngs
      ((s.issued dt k).pool k ((s.issued dt k).geo k ((s.issued dt k).opWord k w).set) ((s.issued dt k).opWord k w)) := by
  rw [issued_opWord, issued_geo]
  exact Computed.pool hfit (fun _ hr => List.mem_append_right _ hr) (.refl ..) hg

theorem computed_ew (hfn : wf w 90 88 ≤ 3) (hfit : (s.ewNamed k w).rngs.all Rng.fits = true) :
    Computed (s.issued dt k) k (s.ewNamed k w).rngs ((s.issued dt k).ew k w) := by
  rw [State.ew, if_neg (Nat.not_lt.2 hfn)]
  refine (Computed.refl _ k _).foldl _ fun x hx u hu => hu.ewVec hfit (fun r hr => ?_) (List.mem_range.1 hx)
  rw [issued_geo, issued_ea] at hr
  exact List.mem_append_right _ hr

theorem computed_rq (hfit : (s.rqNamed k w).rngs.all Rng.fits = true) :
    Computed (s.issued dt k) k (s.rqNamed k w).rngs ((s.issued dt k).rq k w) := by
  refine (Computed.refl _ k _).foldl _ fun x hx u hu => hu.rqPos hfit (fun r hr => ?_) (List.mem_range.1 hx)
  rw [issued_geo, issued_ea] at hr
  exact List.mem_append_right _ hr

end

/-- Settles O39: each operator's effect keeps to what its word names, and such a word completes. -/
theorem computeWordsKeepToTheirRanges : Obligations.ComputeWordsKeepToTheirRanges := by
  intro dt k w s x opk frame
  refine ⟨fun hk h he hr hb hw hsb => ?_, fun hk h he hr hb hw hsb => ?_, fun hk h he hr hb hw hsb => ?_, fun hk h he hr hb hw hsb => ?_,
    fun hfn h he hr hb hw hsb => ?_, fun h he hr hb hw hsb => ?_⟩
  · exact compute_next rfl h sweepNamed_tick rfl he hr hb hw hsb (computed_conv (by omega))
  · exact compute_next rfl h sweepNamed_tick rfl he hr hb hw hsb (computed_conv (by omega))
  · exact compute_next rfl h sweepNamed_tick rfl he hr hb hw hsb (computed_slip hk)
  · exact compute_next rfl h poolNamed_tick rfl he hr hb hw hsb (computed_pool (by omega))
  · exact compute_next rfl h ewNamed_tick rfl he hr hb hw hsb (computed_ew hfn)
  · exact compute_next rfl h rqNamed_tick rfl he hr hb hw hsb computed_rq

end Sys2Proof.Machine
end

section
/-! The end of asynchronous operations (R124), and mesh packets at their destination (R119, R134, R135). -/
namespace Sys2Proof.Machine

/-! ## Entries retire -/

/-- Entry `e` of tile `k` is freed and no other entry changes. -/
def State.entryFreed (s t : State) (k e : Nat) : Prop :=
  (∀ j, t.sbGet k j = if j = e then none else s.sbGet k j) ∧
    t.fld F.TILE_STAT_SB_BUSY k = putBits (s.fld F.TILE_STAT_SB_BUSY k) e 1 0

theorem entryFreed_sbPut {s u : State} {k e : Nat} (he : e < 16) (hsb : (u.tile k).sb = (s.tile k).sb)
    (hbusy : u.fld F.TILE_STAT_SB_BUSY k = s.fld F.TILE_STAT_SB_BUSY k) : s.entryFreed (u.sbPut k e none) k e := by
  refine ⟨fun j => ?_, ?_⟩
  · rw [sbGet_sbPut, State.sbGet, State.sbGet, hsb]
  · rw [sbPut_busy u k he, hbusy]
    rfl

theorem sbPut_readW (s : State) (k : Fin 1088) (e : Nat) (x : Option SbEntry) (lb : Bool) (a : Nat) :
    (s.sbPut k e x).readW k lb a = s.readW k lb a :=
  readW_congr (map_of_keeps (sbPut_onTile s k e x).regs k.isLt fun e => by simp) (by rw [sbPut_tile]) (by rw [sbPut_tile]) lb a

section
variable {s u : State} {dt : Nat} {k : Fin 1088} {e : Fin 16} {y : SbEntry}

/-- An operation that has ended has its effect, and its entry retires (R124). -/
theorem exec_scoreboardRetire (hy : s.sbGet k e = some y) (hu : (s.tick dt).asyncEnd k y = some u) :
    exec (.scoreboardRetire dt k e) s = .next (u.sbPut k e none) := by
  change execScoreboardRetire dt k e s = _
  simp only [execScoreboardRetire, show (s.tick dt).sbGet k e = some y from hy, hu]

/-- What the end of an operation leaves that acts on its own tile, entry included. -/
theorem retire_leaves (hu : OnTile (s.tick dt) u k []) (hsb : (u.tile k).sb = (s.tile k).sb) : let t := u.sbPut k e none
    s.entryFreed t k e ∧ (∀ j, j ≠ k.val → t.tile j = s.tile j) ∧ s.keeps t [(.TILE_STAT, k.val, 0)] ∧
      t = { s.tick dt with regs := t.regs, tiles := t.tiles } := by
  have hon := (hu.mono (by simp)).trans (sbPut_onTile u k e none)
  refine ⟨entryFreed_sbPut e.isLt hsb ?_, hon.others, keeps_of_tick hon.regs, hon.frame⟩
  exact (fld_of_keeps hu.regs ⟨k.isLt, Nat.one_pos⟩ (by simp)).trans (s.fld_tick ..)

/-- A write ends: its words are in storage (R120, R124). -/
theorem retire_write {ws : List Cell16} (hy : s.sbGet k e = some y) (hop : y.op = .write ws) (hfit : y.addr + ws.length ≤ spaceWords y.lb) :
    ∃ t, exec (.scoreboardRetire dt k e) s = .next t ∧ (∀ i, (h : i < ws.length) → t.readW k y.lb (y.addr + i) = ws[i]) ∧
      (∀ lb a, a < spaceWords lb → lb ≠ y.lb ∨ a < y.addr ∨ y.addr + ws.length ≤ a → t.readW k lb a = s.readW k lb a) ∧
      s.entryFreed t k e ∧ (∀ j, j ≠ k.val → t.tile j = s.tile j) ∧ s.keeps t [(.TILE_STAT, k.val, 0)] ∧
      t = { s.tick dt with regs := t.regs, tiles := t.tiles } := by
  refine ⟨_, exec_scoreboardRetire hy (by rw [State.asyncEnd, hop]), fun i hi => ?_, fun lb a ha hout => ?_,
    retire_leaves (writeWs_onTile (s.tick dt) k y.lb y.addr ws []) (by rw [writeWs_tile]; rfl)⟩
  · rw [sbPut_readW, readW_writeWs_in _ _ ws hfit hi]
  · rw [sbPut_readW, readW_writeWs_out _ _ ws hfit ha hout]
    rfl

/-- The activation table that 32 words load, entry by entry (R128). -/
theorem mapGet_tableOf (ws : List Cell16) {i : Nat} (hi : i < 256) : mapGet acc0 (tableOf ws) i =
    ⟨BitVec.ofNat 32 (bitsOf (ws.getD (i / 8) cell0).v.toNat (16 * (i % 8)) 16), (ws.getD (i / 8) cell0).p⟩ := by
  have go (n : Nat) : ∀ i < n, mapGet acc0 ((List.range n).foldl (fun m i => mapSet acc0 m i
      ⟨BitVec.ofNat 32 (bitsOf (ws.getD (i / 8) cell0).v.toNat (16 * (i % 8)) 16), (ws.getD (i / 8) cell0).p⟩) []) i =
      ⟨BitVec.ofNat 32 (bitsOf (ws.getD (i / 8) cell0).v.toNat (16 * (i % 8)) 16), (ws.getD (i / 8) cell0).p⟩ := by
    induction n with
    | zero => exact fun i hi => absurd hi (Nat.not_lt_zero i)
    | succ n ih =>
      intro i hi
      rw [List.range_succ, List.foldl_append, List.foldl_cons, List.foldl_nil, mapGet_mapSet]
      split
      · next hin => rw [hin]
      · exact ih i (by omega)
  exact go 256 i hi

theorem retire_table {ws : List Cell16} (hy : s.sbGet k e = some y) (hop : y.op = .table ws) :
    ∃ t, exec (.scoreboardRetire dt k e) s = .next t ∧
      (∀ i < 256, mapGet acc0 (t.tile k).act i =
        ⟨BitVec.ofNat 32 (bitsOf (ws.getD (i / 8) cell0).v.toNat (16 * (i % 8)) 16), (ws.getD (i / 8) cell0).p⟩) ∧
      s.entryFreed t k e ∧ (∀ j, j ≠ k.val → t.tile j = s.tile j) ∧ s.keeps t [(.TILE_STAT, k.val, 0)] ∧
      t = { s.tick dt with regs := t.regs, tiles := t.tiles } := by
  refine ⟨_, exec_scoreboardRetire hy (by rw [State.asyncEnd, hop]), fun i hi => ?_,
    retire_leaves (onTile_modTile (s.tick dt) k _ []) (by rw [State.tile_modTile_same]; rfl)⟩
  have hact : ((((s.tick dt).modTile k fun y => { y with act := tableOf ws }).sbPut k e none).tile k).act = tableOf ws := by
    rw [sbPut_tile, State.tile_modTile_same]
  rw [hact]
  exact mapGet_tableOf ws hi

theorem retire_read (hy : s.sbGet k e = some y) (hop : y.op = .read) : ∃ t, exec (.scoreboardRetire dt k e) s = .next t ∧
    s.entryFreed t k e ∧ (∀ j, j ≠ k.val → t.tile j = s.tile j) ∧ s.keeps t [(.TILE_STAT, k.val, 0)] ∧
    t = { s.tick dt with regs := t.regs, tiles := t.tiles } :=
  ⟨_, exec_scoreboardRetire hy (by rw [State.asyncEnd, hop]), retire_leaves (.refl ..) rfl⟩

/-- A packet whose way is open reaches the tile it is for (R134, R425). -/
theorem meshSend_of_open {s : State} {p : Packet} (hd : s.subTile p.dest = p.dest) (ho : s.meshOpen p.src p.dest = true) :
    s.meshSend p = s.modTile p.dest fun x => { x with arrivals := x.arrivals ++ [p] } := by
  rw [State.meshSend, hd]
  exact if_pos ho

theorem retire_mesh {p : Packet} (hy : s.sbGet k e = some y) (hop : y.op = .mesh p) (hd : s.subTile p.dest = p.dest) (hne : p.dest ≠ k)
    (ho : s.meshOpen p.src p.dest = true) : ∃ t, exec (.scoreboardRetire dt k e) s = .next t ∧
      (t.tile p.dest).arrivals = (s.tile p.dest).arrivals ++ [p] ∧ s.entryFreed t k e := by
  refine ⟨_, exec_scoreboardRetire hy (by rw [State.asyncEnd, hop]), ?_, ?_⟩
  · rw [sbPut_tile_ne _ _ _ _ hne, meshSend_of_open (s := s.tick dt) hd ho, State.tile_modTile_same]
    rfl
  · rw [meshSend_of_open (s := s.tick dt) hd ho]
    exact entryFreed_sbPut e.isLt (by rw [State.tile_modTile_ne _ _ hne.symm]; rfl) (by rw [State.fld_modTile, State.fld_tick])

theorem catStat_onlyRegs (s : State) : s.onlyRegs s.catStat :=
  onlyRegs_trans (onlyRegs_setFld_setFld s F.CAT_STAT_TASKQ F.CAT_STAT_HOSTQ _ _ 0 0) (onlyRegs_setFld ..)

theorem catStat_keeps (s : State) : s.keeps s.catStat [(.CAT_STAT, 0, 0)] :=
  have h : regHas .CAT_STAT 0 0 := ⟨Nat.one_pos, Nat.one_pos⟩
  keeps_mono (keeps_trans (keeps_setFld_setFld s (f := F.CAT_STAT_TASKQ) (g := F.CAT_STAT_HOSTQ) _ _ rfl h)
    (keeps_setFld _ F.CAT_STAT_INFLIGHT _ h)) (by simp)

/-- A submission ends: the request is with the catalogue engine (R259). -/
theorem retire_catReq {ws : List Cell16} (hy : s.sbGet k e = some y) (hop : y.op = .catReq ws) (hroom : s.catTask.length < 256) :
    ∃ t, exec (.scoreboardRetire dt k e) s = .next t ∧ t.catTask = s.catTask ++ [⟨some k.val, none, descOf ws, 0⟩] ∧
      s.entryFreed t k e := by
  let v : State := { s.tick dt with catTask := s.catTask ++ [⟨some k.val, none, descOf ws, 0⟩] }
  have hv := catStat_onlyRegs v
  have hend : (s.tick dt).asyncEnd k y = some v.catStat := by
    rw [State.asyncEnd, hop]
    exact if_pos hroom
  refine ⟨_, exec_scoreboardRetire hy hend, ?_, entryFreed_sbPut e.isLt ?_ ?_⟩
  · rw [(sbPut_onTile v.catStat k e none).frame, show v.catStat = { v with regs := v.catStat.regs } from hv]
  · rw [tile_congr (onlyRegs_tiles hv)]
    rfl
  · exact (fld_of_keeps (catStat_keeps v) ⟨k.isLt, Nat.one_pos⟩ (by simp)).trans (State.fld_congr rfl ..)

end

/-! ## Mesh packets -/

/-- The first packet from a tile has been taken. -/
def Tile.taken (src : Nat) (x : Tile) : Tile := { x with arrivals := x.arrivals.eraseP fun q => q.src == src }

section
variable {s u : State} {dt : Nat} {k src : Fin 1088} {p : Packet}

/-- The next packet from a tile is taken where it need not wait (R135). -/
theorem exec_meshPacketArrive {bad : Bool} {ww : List (Fin 256)} (hp : ((s.tile k).arrivals.find? fun q => q.src == src.val) = some p)
    (hu : (s.tick dt).packetIn k p bad (ww.map (·.val)) = some u) :
    exec (.meshPacketArrive dt k src bad ww) s = .next (u.modTile k (Tile.taken src)) := by
  change execMeshPacketArrive dt k src bad ww s = _
  simp only [execMeshPacketArrive, State.tile_tick, hp, hu]
  rfl

/-- Words that no write of the tile meets are written in order (R119). -/
theorem landWords_of_no_meeting (s : State) (k : Nat) (p : Packet) : s.landWords k p [] = s.writeWs k p.lb p.addr p.words := by
  have go (ws : List Cell16) (i : Nat) (s : State) : (ws.zipIdx i).foldl (fun s q => s.writeW k p.lb (p.addr + q.2) q.1) s =
      s.writeWs k p.lb (p.addr + i) ws := by
    induction ws generalizing i s with
    | nil => rfl
    | cons c ws ih => exact ih (i + 1) _
  have hhits : (if p.lb = true then [] else ([] : List Nat).filter fun i => decide (i < p.words.length)) = [] := ite_self _
  simp only [State.landWords, hhits]
  exact go p.words 0 s

theorem rxBytes_onTile (s : State) (k : Fin 1088) (n : Nat) : OnTile s (s.rxBytes k n) k [(.TILE_TRAF_RX, k.val, 0)] :=
  onTile_setFld s F.TILE_TRAF_RX_RX _ ⟨k.isLt, Nat.one_pos⟩ (List.mem_singleton_self _)

/-- A write packet as its payload is written and counted (R135, R144). -/
def State.packetLanded (s : State) (k : Nat) (p : Packet) : State :=
  (s.writeWs k p.lb p.addr p.words).rxBytes k (wireBytes p.zc p.words)

/-- A write packet that fits its space lands, and then arrives at its milestone (R135). -/
theorem packetIn_write (hk : p.kind = 0) (htest : s.tState k ≠ tTest) (hret : s.tState k ≠ tRetired)
    (hfit : p.addr + p.words.length ≤ spaceWords p.lb) : s.packetIn k p false [] =
      some (if p.msEn then (s.packetLanded k p).sendArrival k p.ms 1 else s.packetLanded k p) := by
  have hgood : ¬ (s.tState k = tTest ∨ s.tState k = tRetired ∨ 2 < p.kind ∨ false = true ∨
      (p.kind < 2 ∧ spaceWords p.lb < p.addr + p.words.length)) := by
    rintro (h | h | h | h | ⟨-, h⟩)
    · exact htest h
    · exact hret h
    · omega
    · exact absurd h (by decide)
    · omega
  rw [State.packetIn, if_neg hgood, if_neg (by omega), landWords_of_no_meeting]
  simp only [hk]
  rfl

/-- A landed packet leaves its words, its count, and no more. -/
theorem packetLanded_leaves (s : State) (k : Fin 1088) {p : Packet} (hfit : p.addr + p.words.length ≤ spaceWords p.lb) : let t := s.packetLanded k p
    (∀ i, (h : i < p.words.length) → t.readW k p.lb (p.addr + i) = p.words[i]) ∧
    (∀ lb a, a < spaceWords lb → lb ≠ p.lb ∨ a < p.addr ∨ p.addr + p.words.length ≤ a → t.readW k lb a = s.readW k lb a) ∧
    (t.tile k).arrivals = (s.tile k).arrivals ∧ t.fld F.TILE_TRAF_RX_RX k = (s.fld F.TILE_TRAF_RX_RX k + wireBytes p.zc p.words) % 2 ^ 64 ∧
    OnTile s t k [(.TILE_TRAF_RX, k.val, 0)] := by
  let v := s.writeWs k p.lb p.addr p.words
  have hrx := rxBytes_onTile v k (wireBytes p.zc p.words)
  have htile : (v.rxBytes k (wireBytes p.zc p.words)).tile k = v.tile k := State.tile_setFld ..
  have hread (lb : Bool) (a : Nat) : (v.rxBytes k (wireBytes p.zc p.words)).readW k lb a = v.readW k lb a :=
    readW_congr (map_of_keeps hrx.regs k.isLt fun e => by simp) (by rw [htile]) (by rw [htile]) lb a
  refine ⟨fun i hi => ?_, fun lb a ha hout => ?_, ?_, ?_, (writeWs_onTile s k p.lb p.addr p.words _).trans hrx⟩
  · exact (hread ..).trans (readW_writeWs_in s k p.words hfit hi)
  · exact (hread ..).trans (readW_writeWs_out s k p.words hfit ha hout)
  · rw [State.packetLanded, htile, writeWs_tile]
  · refine (State.fld_setFld_same v F.TILE_TRAF_RX_RX _ _ _ (by decide)).trans ?_
    rw [State.fld_writeWs]

end

end Sys2Proof.Machine
end

section
/-! A mesh packet at its destination: it lands and arrives at its milestone, or it is damaged and discarded whole (R119, R135). -/
namespace Sys2Proof.Machine

section
variable {s : State} {k src : Fin 1088} {p : Packet}

/-- The arrival that a packet carries, where it carries one (R135). -/
def State.packetArrival (s : State) (k : Nat) (p : Packet) : State := if p.msEn then s.sendArrival k p.ms 1 else s

theorem packetArrival_frame (s : State) (k : Nat) (p : Packet) : s.packetArrival k p =
    { s with arrFly := s.arrFly ++ (if p.msEn then [⟨k, p.ms, 1⟩] else []), arrSent := (s.packetArrival k p).arrSent } := by
  rw [State.packetArrival]
  split
  · rfl
  · rw [List.append_nil]

theorem taken_readW (s : State) (k src : Nat) (lb : Bool) (a : Nat) :
    (s.modTile k (Tile.taken src)).readW k lb a = s.readW k lb a :=
  readW_congr (s := s) (t := s.modTile k (Tile.taken src)) (fun _ _ => State.reg_congr rfl _ _ _)
    (by rw [s.tile_modTile_same]; rfl) (by rw [s.tile_modTile_same]; rfl) lb a

/-- A write packet lands: its words, its count, its arrival, and the rest of the device. -/
theorem meshPacketArrive_write (dt : Nat) (hp : ((s.tile k).arrivals.find? fun q => q.src == src.val) = some p) (hk : p.kind = 0)
    (htest : s.tState k ≠ tTest) (hret : s.tState k ≠ tRetired) (hfit : p.addr + p.words.length ≤ spaceWords p.lb) :
    ∃ t, exec (.meshPacketArrive dt k src false []) s = .next t ∧
      (∀ i, (h : i < p.words.length) → t.readW k p.lb (p.addr + i) = p.words[i]) ∧
      (∀ lb a, a < spaceWords lb → lb ≠ p.lb ∨ a < p.addr ∨ p.addr + p.words.length ≤ a → t.readW k lb a = s.readW k lb a) ∧
      (t.tile k).arrivals = ((s.tile k).arrivals.eraseP fun q => q.src == src.val) ∧
      t.arrFly = s.arrFly ++ (if p.msEn then [⟨k, p.ms, 1⟩] else []) ∧
      t.fld F.TILE_TRAF_RX_RX k = (s.fld F.TILE_TRAF_RX_RX k + wireBytes p.zc p.words) % 2 ^ 64 ∧
      (∀ j, j ≠ k.val → t.tile j = s.tile j) ∧ s.keeps t [(.TILE_TRAF_RX, k.val, 0)] ∧ s.sameMemory t := by
  obtain ⟨hin, hout, harr, hrx, hon⟩ := packetLanded_leaves (s.tick dt) k hfit
  have he := exec_meshPacketArrive (s := s) (dt := dt) (bad := false) (ww := []) hp (packetIn_write (s := s.tick dt) hk htest hret hfit)
  generalize (s.tick dt).packetLanded k p = v at hin hout harr hrx hon he
  have hu := packetArrival_frame v k p
  rw [show (if p.msEn then v.sendArrival k p.ms 1 else v) = v.packetArrival k p from rfl] at he
  generalize v.packetArrival k p = u at hu he
  have htile (j : Nat) : u.tile j = v.tile j := tile_congr (by rw [hu]) j
  have hregs : u.regs = v.regs := by rw [hu]
  have hread (lb : Bool) (a : Nat) : (u.modTile k (Tile.taken src)).readW k lb a = v.readW k lb a :=
    (taken_readW u k src lb a).trans (readW_congr (fun _ _ => State.reg_congr hregs _ _ _) (by rw [htile]) (by rw [htile]) lb a)
  refine ⟨_, he, fun i hi => (hread ..).trans (hin i hi), fun lb a ha h => ((hread ..).trans (hout lb a ha h)).trans rfl, ?_, ?_,
    (State.fld_congr hregs ..).trans hrx, fun j hj => (u.tile_modTile_ne _ hj).trans ((htile j).trans (hon.others j hj)),
    keeps_congr hregs (keeps_of_tick hon.regs), sameMemory_of_stores ?_ ?_⟩
  · rw [u.tile_modTile_same, htile, Tile.taken, harr]
    rfl
  · change u.arrFly = _
    rw [hu, hon.frame]
    rfl
  · change u.depot = _
    rw [hu, hon.frame]
    rfl
  · change u.hbm = _
    rw [hu, hon.frame]
    rfl

/-- A tile that has a damaged arrival: counted, and its flag set (R135). -/
def State.badCounted (s : State) (k : Nat) : State := (s.inc F.TILE_ERRCNT_BAD_ARRIVALS k).setFld F.TILE_STAT_BAD_ARRIVAL 1 k

theorem badCounted_onlyRegs (s : State) (k : Nat) : s.onlyRegs (s.badCounted k) :=
  onlyRegs_trans (t := s.inc F.TILE_ERRCNT_BAD_ARRIVALS k) (onlyRegs_setFld ..) (onlyRegs_setFld ..)

theorem badCounted_keeps (s : State) (k : Fin 1088) : s.keeps (s.badCounted k) [(.TILE_STAT, k.val, 0), (.TILE_ERRCNT, k.val, 0)] :=
  keeps_mono (keeps_trans (keeps_inc s F.TILE_ERRCNT_BAD_ARRIVALS ⟨k.isLt, Nat.one_pos⟩)
    (keeps_setFld (s.inc F.TILE_ERRCNT_BAD_ARRIVALS k) F.TILE_STAT_BAD_ARRIVAL 1 ⟨k.isLt, Nat.one_pos⟩)) (by simp)

theorem badCounted_flag (s : State) (k : Nat) : (s.badCounted k).flag F.TILE_STAT_BAD_ARRIVAL k = true := by
  rw [State.badCounted, flag_setFld_same _ _ _ _ _ (by decide)]
  decide

theorem badCounted_count (s : State) (k : Fin 1088) :
    (s.badCounted k).fld F.TILE_ERRCNT_BAD_ARRIVALS k = min (s.fld F.TILE_ERRCNT_BAD_ARRIVALS k + 1) 65535 := by
  have hstat : regHas .TILE_STAT k 0 := ⟨k.isLt, Nat.one_pos⟩
  have herr : regHas .TILE_ERRCNT k 0 := ⟨k.isLt, Nat.one_pos⟩
  exact (fld_setFld_tile _ k 1 hstat herr (by decide)).trans (State.fld_inc_same s F.TILE_ERRCNT_BAD_ARRIVALS _ _ (by decide))

theorem packetIn_bad (s : State) (k : Nat) (p : Packet) (ww : List Nat) :
    s.packetIn k p true ww = some ((s.badCounted k).tell (.note 6 k)) := by
  rw [State.packetIn, if_pos (.inr (.inr (.inr (.inl rfl)))), State.badPacket, State.badBlock, State.badCounted]

theorem tile_tell (s : State) (r : Report) (j : Nat) : (s.tell r).tile j = s.tile j := rfl

/-- A damaged packet: the tile and its registers (R135). -/
theorem meshPacketArrive_damaged (dt : Nat) (hp : ((s.tile k).arrivals.find? fun q => q.src == src.val) = some p) (ww : List (Fin 256)) :
    ∃ t, exec (.meshPacketArrive dt k src true ww) s = .next t ∧ t.flag F.TILE_STAT_BAD_ARRIVAL k = true ∧
      t.fld F.TILE_ERRCNT_BAD_ARRIVALS k = min (s.fld F.TILE_ERRCNT_BAD_ARRIVALS k + 1) 65535 ∧
      t.tile k = { s.tile k with arrivals := (s.tile k).arrivals.eraseP fun q => q.src == src.val } ∧
      (∀ j, j ≠ k.val → t.tile j = s.tile j) ∧ s.keeps t [(.TILE_STAT, k.val, 0), (.TILE_ERRCNT, k.val, 0)] ∧
      t = { s.tick dt with regs := t.regs, tiles := t.tiles, out := s.out ++ [.report (.note 6 k)] } := by
  have hin := packetIn_bad (s.tick dt) k p (ww.map (·.val))
  have hflag := badCounted_flag (s.tick dt) k
  have hcount := badCounted_count (s.tick dt) k
  have hkeeps := keeps_of_tick (badCounted_keeps (s.tick dt) k)
  have honly := badCounted_onlyRegs (s.tick dt) k
  rw [State.fld_tick] at hcount
  generalize (s.tick dt).badCounted k = r at hin hflag hcount hkeeps honly
  have htile (j : Nat) : (r.tell (.note 6 k)).tile j = s.tile j := by
    rw [tile_tell, tile_congr (onlyRegs_tiles honly), State.tile_tick]
  have hregs : ((r.tell (.note 6 k)).modTile k (Tile.taken src)).regs = r.regs := rfl
  refine ⟨_, exec_meshPacketArrive hp hin, (flag_congr (State.fld_congr hregs ..)).trans hflag, (State.fld_congr hregs ..).trans hcount, ?_,
    fun j hj => (State.tile_modTile_ne _ _ hj).trans (htile j), keeps_congr hregs hkeeps, ?_⟩
  · rw [State.tile_modTile_same, htile]
    rfl
  · rw [State.modTile, State.setTile, State.tell, State.emit, show r = { s.tick dt with regs := r.regs } from honly]
    rfl

end

end Sys2Proof.Machine
end

section
/-! Rows land in the rings of the tiles that take them (R131, R132, R313), whichever other members take them too. -/
namespace Sys2Proof.Machine

/-! ## What landing rows does -/

/-- Row `row` may have landed in some rings, and words and packets may have arrived at tiles; nothing else of the device has changed but
registers. -/
structure Lands (row : Nat) (s t : State) : Prop where
  rings : ∀ m q, t.ringOf m q = s.ringOf m q ∨ t.ringOf m q = (s.ringOf m q).wrote row
  sb : ∀ m, (t.tile m).sb = (s.tile m).sb
  frame : t = { s with regs := t.regs, tiles := t.tiles }

theorem wrote_wrote (r : RingCfg) (n : Nat) : (r.wrote n).wrote n = r.wrote n := by
  simp [RingCfg.wrote]

section
variable {row : Nat} {s t u : State} {m q : Nat}

theorem ringOf_congr (h : (t.tile m).rings = (s.tile m).rings) (q : Nat) : t.ringOf m q = s.ringOf m q := by
  rw [State.ringOf, State.ringOf, h]

theorem Lands.refl (row : Nat) (s : State) : Lands row s s := ⟨fun _ _ => .inl rfl, fun _ => rfl, rfl⟩

/-- A ring that has taken the row keeps it while the row lands elsewhere. -/
theorem Lands.after (h : Lands row t u) (hw : t.ringOf m q = (s.ringOf m q).wrote row) : u.ringOf m q = (s.ringOf m q).wrote row := by
  rcases h.rings m q with he | he
  · rw [he, hw]
  · rw [he, hw, wrote_wrote]

/-- A ring takes the row as if it had landed nowhere before. -/
theorem Lands.before (h : Lands row s t) (hw : u.ringOf m q = (t.ringOf m q).wrote row) : u.ringOf m q = (s.ringOf m q).wrote row := by
  rcases h.rings m q with he | he
  · rw [hw, he]
  · rw [hw, he, wrote_wrote]

theorem Lands.trans (h : Lands row s t) (h' : Lands row t u) : Lands row s u where
  rings m q := by
    rcases h'.rings m q with he | he
    · rw [he]
      exact h.rings m q
    · exact .inr (h.before he)
  sb m := (h'.sb m).trans (h.sb m)
  frame := by rw [h'.frame, h.frame]

/-- A ring's bases, sizes and uses stay: a member's rings for a row are the same ones. -/
theorem Lands.feedRing (h : Lands row s t) (m : Nat) : t.feedRing m = s.feedRing m := by
  have huse (q : Nat) : ((t.ringOf m q).en && (t.ringOf m q).feed) = ((s.ringOf m q).en && (s.ringOf m q).feed) := by
    rcases h.rings m q with he | he <;> rw [he]
    rfl
  simp only [State.feedRing, huse]

theorem Lands.rowRings (h : Lands row s t) (m ring planes : Nat) : t.rowRings m ring planes = s.rowRings m ring planes := by
  rw [State.rowRings, State.rowRings, h.feedRing]

theorem Lands.depot (h : Lands row s t) : t.depot = s.depot := by rw [h.frame]
theorem Lands.hbm (h : Lands row s t) : t.hbm = s.hbm := by rw [h.frame]
theorem Lands.out (h : Lands row s t) : t.out = s.out := by rw [h.frame]

end

theorem lands_of_tiles {row : Nat} {s t : State} (htile : t.tiles = s.tiles) (hframe : t = { s with regs := t.regs, tiles := t.tiles }) :
    Lands row s t :=
  ⟨fun m q => .inl (ringOf_congr (by rw [tile_congr htile]) q), fun m => by rw [tile_congr htile], hframe⟩

theorem lands_of_onTile {row k : Nat} {s t : State} {l : List (Reg × Nat × Nat)} (h : OnTile s t k l)
    (hring : ∀ q, t.ringOf k q = s.ringOf k q ∨ t.ringOf k q = (s.ringOf k q).wrote row) (hsb : (t.tile k).sb = (s.tile k).sb) :
    Lands row s t where
  rings m q := by
    by_cases hm : m = k
    · exact hm ▸ hring q
    · exact .inl (ringOf_congr (by rw [h.others m hm]) q)
  sb m := by
    by_cases hm : m = k
    · exact hm ▸ hsb
    · rw [h.others m hm]
  frame := h.frame

theorem foldl_lands {α : Type} {row : Nat} {f : State → α → State} (hf : ∀ s x, Lands row s (f s x)) (l : List α) (s : State) :
    Lands row s (l.foldl f s) :=
  foldl_rel (R := Lands row) (Lands.refl row) Lands.trans hf l s

/-- What one step of a fold lands, the fold lands, where every other step lands the same row. -/
theorem foldl_lands_of_mem {α : Type} {row m q : Nat} {f : State → α → State} (hf : ∀ s x, Lands row s (f s x)) {l : List α} {x : α}
    (hx : x ∈ l) (s : State) (hown : ∀ t, Lands row s t → (f t x).ringOf m q = (t.ringOf m q).wrote row) :
    (l.foldl f s).ringOf m q = (s.ringOf m q).wrote row := by
  obtain ⟨a, b, rfl⟩ := List.append_of_mem hx
  have ha := foldl_lands hf a s
  rw [List.foldl_append, List.foldl_cons]
  exact (foldl_lands hf b _).after (ha.before (hown _ ha))

/-! ## The steps -/

section
variable (s : State) (m ring planes row : Nat) (ws : List Cell16)

theorem writeRingRow_ringOf_same (q : Nat) : (s.writeRingRow m q row ws).ringOf m q = (s.ringOf m q).wrote row := by
  rw [State.writeRingRow, State.setRing, State.ringOf, State.tile_modTile_same]
  exact mapGet_mapSet_same ..

theorem writeRingRow_onTile (q : Nat) : OnTile s (s.writeRingRow m q row ws) m [] := by
  rw [State.writeRingRow, State.setRing]
  exact (writeWs_onTile ..).trans (onTile_modTile ..)

theorem writeRingRow_lands (q : Nat) : Lands row s (s.writeRingRow m q row ws) := by
  refine lands_of_onTile (writeRingRow_onTile s m row ws q) (fun q' => ?_) ?_
  · by_cases hq : q' = q
    · exact .inr (hq ▸ writeRingRow_ringOf_same s m row ws q')
    · left
      rw [State.writeRingRow, State.setRing, State.ringOf, State.tile_modTile_same, writeWs_tile]
      exact mapGet_mapSet_ne _ _ _ hq
  · rw [State.writeRingRow, State.setRing, State.tile_modTile_same, writeWs_tile]

/-- The words of the `i`th ring of a row of planes. -/
def planeOf (ws : List Cell16) (rings i : Nat) : List Cell16 := (ws.drop (i * (ws.length / max rings 1))).take (ws.length / max rings 1)

theorem landRow_eq : s.landRow m ring planes row ws = (s.rowRings m ring planes).zipIdx.foldl
    (fun t (x : Nat × Nat) => t.writeRingRow m x.1 row (planeOf ws (s.rowRings m ring planes).length x.2)) s := rfl

theorem landRow_lands : Lands row s (s.landRow m ring planes row ws) := by
  rw [landRow_eq]
  exact foldl_lands (fun t (x : Nat × Nat) => writeRingRow_lands t m row _ x.1) _ s

/-- A row lands in each of its rings (R131, R132). -/
theorem landRow_ringOf {q : Nat} (hq : q ∈ s.rowRings m ring planes) :
    (s.landRow m ring planes row ws).ringOf m q = (s.ringOf m q).wrote row := by
  obtain ⟨i, hi, rfl⟩ := List.mem_iff_getElem.mp hq
  have hx : ((s.rowRings m ring planes)[i], i) ∈ (s.rowRings m ring planes).zipIdx :=
    List.mk_mem_zipIdx_iff_getElem?.mpr (List.getElem?_eq_getElem hi)
  rw [landRow_eq]
  refine foldl_lands_of_mem (fun t (x : Nat × Nat) => writeRingRow_lands t m row _ x.1) hx s fun t _ => ?_
  exact writeRingRow_ringOf_same t m row _ _

theorem setFld_lands (f : Fld) (v i j : Nat) : Lands row s (s.setFld f v i j) := lands_of_tiles rfl rfl

theorem rxBytes_lands (n : Nat) : Lands row s (s.rxBytes m n) := setFld_lands s row _ _ m 0

theorem meshSend_lands (p : Packet) : Lands row s (s.meshSend p) := by
  rw [State.meshSend]
  split
  · refine lands_of_onTile (onTile_modTile s _ _ []) (fun q => .inl (ringOf_congr ?_ q)) ?_ <;> rw [State.tile_modTile_same]
  · exact .refl row s

theorem forwardRow_lands (ch : Nat) : Lands row s (s.forwardRow m ring ch planes row ws) := by
  rw [State.forwardRow]
  split
  · exact meshSend_lands ..
  · exact .refl row s

end

end Sys2Proof.Machine
end

section
/-! A row-bus row and a feeder row, from the queue to the rings of the members that take it (R131, R132, R133, R203). -/
namespace Sys2Proof.Machine

/-! ## The row bus -/

/-- No register outside one group changes. -/
def State.keepsBut (s t : State) (g : Reg) : Prop := ∀ h i j, regHas h i j → h ≠ g → t.reg h i j = s.reg h i j

section
variable {s t u : State} {g : Reg}

theorem keepsBut_refl (s : State) (g : Reg) : s.keepsBut s g := fun _ _ _ _ _ => rfl

theorem keepsBut_trans (h : s.keepsBut t g) (h' : t.keepsBut u g) : s.keepsBut u g :=
  fun r i j hr hne => (h' r i j hr hne).trans (h r i j hr hne)

theorem keepsBut_of_keeps {l : List (Reg × Nat × Nat)} (h : s.keeps t l) (hl : ∀ x ∈ l, x.1 = g) : s.keepsBut t g :=
  fun r i j hr hne => h r i j hr fun hm => hne (hl _ hm)

theorem fld_of_keepsBut (h : s.keepsBut t g) {f : Fld} {i j : Nat} (hf : regHas f.reg i j) (hne : f.reg ≠ g) : t.fld f i j = s.fld f i j := by
  rw [State.fld, State.fld, h _ _ _ hf hne]

end

theorem landRow_keepsBut (s : State) (m ring planes row : Nat) (ws : List Cell16) (g : Reg) :
    s.keepsBut (s.landRow m ring planes row ws) g := by
  rw [landRow_eq]
  exact foldl_rel (R := fun s t => s.keepsBut t g) (fun s => keepsBut_refl s g) keepsBut_trans
    (fun t (x : Nat × Nat) => keepsBut_of_keeps (writeRingRow_onTile t m row _ x.1).regs (by simp)) _ s

theorem forwardRow_keepsBut (s : State) (m ring ch planes row : Nat) (ws : List Cell16) (g : Reg) :
    s.keepsBut (s.forwardRow m ring ch planes row ws) g := by
  rw [State.forwardRow, State.meshSend]
  split
  · split
    · exact keepsBut_of_keeps (onTile_modTile s _ _ []).regs (by simp)
    · exact keepsBut_refl s g
  · exact keepsBut_refl s g

/-- A member takes a row of planes from the bus, where tile `t` drives it (R131, R133). -/
def State.busMember (s : State) (t ch row ring planes bytes : Nat) (ws : List Cell16) (m : Nat) : State :=
  (if m = t then s.landRow m ring planes row ws else (s.landRow m ring planes row ws).rxBytes m bytes).forwardRow m ring ch planes row ws

/-- The members of the segment that accept the row have taken it, in order. -/
def State.busTaken (s : State) (t ch row ring planes bytes : Nat) (ws : List Cell16) : State :=
  ((s.segTiles t).filter fun m => s.acceptsRow m).foldl (fun s m => s.busMember t ch row ring planes bytes ws m) s

/-- Row `n` is the next one of a channel (R131). -/
def State.rowDue (s : State) (key n : Nat) : State := { s with busNext := mapSet 0 s.busNext key n }

theorem busDrive_eq (s : State) (t ch row ring planes bytes : Nat) (ws : List Cell16) : s.busDrive t ch row ring planes bytes ws =
    (s.busTaken t ch row ring planes bytes ws).rowDue ((s.busTaken t ch row ring planes bytes ws).busKey t ch) (row + 1) := rfl

section
variable (s : State) (t ch row ring planes bytes : Nat) (ws : List Cell16) (m : Nat)

theorem busMember_lands : Lands row s (s.busMember t ch row ring planes bytes ws m) := by
  rw [State.busMember]
  refine Lands.trans ?_ (forwardRow_lands ..)
  split
  · exact landRow_lands ..
  · exact (landRow_lands ..).trans (rxBytes_lands ..)

theorem busMember_ringOf {q : Nat} (hq : q ∈ s.rowRings m ring planes) :
    (s.busMember t ch row ring planes bytes ws m).ringOf m q = (s.ringOf m q).wrote row := by
  have hland := landRow_ringOf s m ring planes row ws hq
  rw [State.busMember]
  refine Lands.after (forwardRow_lands ..) ?_
  split
  · exact hland
  · exact (rxBytes_lands ..).after hland

theorem busMember_keepsBut (hm : m < 1088) : s.keepsBut (s.busMember t ch row ring planes bytes ws m) .TILE_TRAF_RX := by
  rw [State.busMember]
  have hland := landRow_keepsBut s m ring planes row ws .TILE_TRAF_RX
  refine keepsBut_trans ?_ (forwardRow_keepsBut _ m ring ch planes row ws _)
  split
  · exact hland
  · exact keepsBut_trans hland (keepsBut_of_keeps (rxBytes_onTile _ ⟨m, hm⟩ bytes).regs (by simp))

theorem busTaken_lands : Lands row s (s.busTaken t ch row ring planes bytes ws) :=
  foldl_lands (fun s m => busMember_lands s t ch row ring planes bytes ws m) _ s

/-- A row lands in the rings of every member that accepts it (R131). -/
theorem busTaken_ringOf {q : Nat} (hm : m ∈ s.segTiles t) (ha : s.acceptsRow m = true) (hq : q ∈ s.rowRings m ring planes) :
    (s.busTaken t ch row ring planes bytes ws).ringOf m q = (s.ringOf m q).wrote row :=
  foldl_lands_of_mem (fun s m => busMember_lands s t ch row ring planes bytes ws m) (List.mem_filter.mpr ⟨hm, ha⟩) s
    fun v hv => busMember_ringOf v t ch row ring planes bytes ws m (by rwa [hv.rowRings])

theorem busTaken_keepsBut (hseg : ∀ m ∈ s.segTiles t, m < 1088) : s.keepsBut (s.busTaken t ch row ring planes bytes ws) .TILE_TRAF_RX :=
  List.foldlRecOn (motive := fun v => s.keepsBut v .TILE_TRAF_RX) _ _ (keepsBut_refl s _) fun v hv m hm =>
    keepsBut_trans hv (busMember_keepsBut v t ch row ring planes bytes ws m (hseg m (List.mem_filter.mp hm).1))

end

theorem sbPut_ringOf (s : State) (k : Fin 1088) (e : Nat) (x : Option SbEntry) (m q : Nat) : (s.sbPut k e x).ringOf m q = s.ringOf m q := by
  refine ringOf_congr ?_ q
  by_cases hm : m = k.val
  · rw [hm, sbPut_tile]
  · rw [sbPut_tile_ne _ _ _ _ hm]

section
variable {s : State} {dt : Nat} {k : Fin 1088} {e : Fin 16} {inb lb : Bool} {a n ch row ring planes : Nat} {zc sent : Bool} {ws : List Cell16}

/-- The row of a send goes onto the bus when its turn comes, and its entry retires (R131). -/
theorem exec_rowBusRow (hy : s.sbGet k e = some ⟨inb, lb, a, n, .row ch row ring planes zc ws, sent⟩) (ha : s.acceptsRow k = true)
    (hmay : s.busMay k ch row ring planes = true) : exec (.rowBusRow dt k e false) s =
      .next (((s.tick dt).busDrive k ch row ring planes (planeBytes zc planes ws) ws).sbPut k e none) := by
  have hy' : (s.tick dt).sbGet k e = some ⟨inb, lb, a, n, .row ch row ring planes zc ws, sent⟩ := hy
  have hgo : (s.tick dt).acceptsRow k = true ∧ (s.tick dt).busMay k ch row ring planes = true := ⟨ha, hmay⟩
  change execRowBusRow dt k e false s = _
  simp only [execRowBusRow, hy']
  rw [if_pos hgo]
  rfl

theorem rowBusRow (hy : s.sbGet k e = some ⟨inb, lb, a, n, .row ch row ring planes zc ws, sent⟩) (ha : s.acceptsRow k = true)
    (hmay : s.busMay k ch row ring planes = true) (hseg : ∀ m ∈ s.segTiles k, m < 1088) :
    ∃ t, exec (.rowBusRow dt k e false) s = .next t ∧ s.entryFreed t k e ∧ mapGet 0 t.busNext (s.busKey k ch) = row + 1 ∧
      (∀ m ∈ s.segTiles k, s.acceptsRow m = true → ∀ q ∈ s.rowRings m ring planes, t.ringOf m q = (s.ringOf m q).wrote row) ∧
      s.sameMemory t ∧ t.out = s.out := by
  have he := exec_rowBusRow (dt := dt) hy ha hmay
  have hland := busTaken_lands (s.tick dt) k ch row ring planes (planeBytes zc planes ws) ws
  have hrings := busTaken_ringOf (s.tick dt) k ch row ring planes (planeBytes zc planes ws) ws
  have hregs := busTaken_keepsBut (s.tick dt) k ch row ring planes (planeBytes zc planes ws) ws hseg
  rw [busDrive_eq] at he
  generalize (s.tick dt).busTaken k ch row ring planes (planeBytes zc planes ws) ws = v at he hland hrings hregs
  have hkey : v.busKey k ch = s.busKey k ch := by
    rw [State.busKey, State.busKey, fld_of_keepsBut hregs ⟨k.isLt, Nat.one_pos⟩ (by decide), State.fld_tick]
  have hbusy : v.fld F.TILE_STAT_SB_BUSY k = s.fld F.TILE_STAT_SB_BUSY k := by
    rw [fld_of_keepsBut hregs ⟨k.isLt, Nat.one_pos⟩ (by decide), State.fld_tick]
  rw [hkey] at he
  have hput := sbPut_onTile (v.rowDue (s.busKey k ch) (row + 1)) k e none
  have hout : ((v.rowDue (s.busKey k ch) (row + 1)).sbPut k e none).out = v.out := by
    rw [hput.frame]
    rfl
  have hnext : ((v.rowDue (s.busKey k ch) (row + 1)).sbPut k e none).busNext = mapSet 0 v.busNext (s.busKey k ch) (row + 1) := by
    rw [hput.frame]
    rfl
  refine ⟨_, he, entryFreed_sbPut e.isLt ?_ hbusy, ?_, fun m hm hacc q hq => ?_,
    sameMemory_of_stores (hput.depot.trans hland.depot) (hput.hbm.trans hland.hbm), hout.trans hland.out⟩
  · exact (hland.sb k).trans (congrArg Tile.sb (s.tile_tick dt k))
  · rw [hnext, mapGet_mapSet_same]
  · rw [sbPut_ringOf]
    exact hrings m hm hacc hq

end

/-! ## The feeder -/

/-- The members of stripe entry `e`'s crew that take rows of a task (R132, R133). -/
def State.crewTakers (s : State) (u e : Nat) (set : FMap DWord) (task : CrewTask) : List Nat :=
  ((List.range (setFldIn set F.ING_STRIPE_CREW_N_M1 u e + 1)).map fun i =>
    s.subTile (32 * setFldIn set F.ING_STRIPE_CREW_COL u e + setFldIn set F.ING_STRIPE_CREW_HEAD u e + i)).filter fun t =>
      s.acceptsRow t && task.parts.contains t

/-- Bytes of a sample of a stripe's rows (R203). -/
def sampleBytes (set : FMap DWord) (u e : Nat) : Nat :=
  if splFld set F.REF_SPLICE_SEND8 u (setFldIn set F.ING_STRIPE_CREW_SPLICE u e) = 1 then 1 else 2

/-- A member takes a feeder row (R132, R133). -/
def State.feedMember (s : State) (row bytes : Nat) (ws : List Cell16) (m : Nat) : State :=
  ((s.landRow m 4 1 row ws).rxBytes m bytes).forwardRow m 4 0 1 row ws

/-- Members have taken a feeder row, in order. -/
def State.fed (s : State) (row bytes : Nat) (ws : List Cell16) (ts : List Nat) : State := ts.foldl (fun s m => s.feedMember row bytes ws m) s

/-- A row has left its crew's queue (R203). -/
def State.rowSent (s : State) (u e : Nat) (rs : List TapRow) (x : Crew) : State :=
  (s.setRef u { s.refU u with sendQ := mapSet [] (s.refU u).sendQ e rs }).setCrew u e { x with sent := x.sent + 1 }

section
variable (s : State) (row bytes : Nat) (ws : List Cell16)

theorem feedMember_lands (m : Nat) : Lands row s (s.feedMember row bytes ws m) := by
  rw [State.feedMember]
  exact ((landRow_lands ..).trans (rxBytes_lands ..)).trans (forwardRow_lands ..)

theorem feedMember_ringOf {m q : Nat} (hq : s.feedRing m = some q) :
    (s.feedMember row bytes ws m).ringOf m q = (s.ringOf m q).wrote row := by
  have hmem : q ∈ s.rowRings m 4 1 := by
    rw [State.rowRings, if_pos rfl, hq]
    exact List.mem_singleton_self q
  rw [State.feedMember]
  exact ((rxBytes_lands ..).trans (forwardRow_lands ..)).after (landRow_ringOf s m 4 1 row ws hmem)

theorem fed_lands (ts : List Nat) : Lands row s (s.fed row bytes ws ts) :=
  foldl_lands (fun s m => feedMember_lands s row bytes ws m) ts s

/-- A feeder row lands in the feeder ring of every member that takes it (R132). -/
theorem fed_ringOf {ts : List Nat} {m q : Nat} (hm : m ∈ ts) (hq : s.feedRing m = some q) :
    (s.fed row bytes ws ts).ringOf m q = (s.ringOf m q).wrote row :=
  foldl_lands_of_mem (fun s m => feedMember_lands s row bytes ws m) hm s fun v hv =>
    feedMember_ringOf v row bytes ws ((hv.feedRing m).trans hq)

end

theorem dropExport_frame (s : State) (u e : Nat) (set : FMap DWord) (b : Int) (p n idx : Nat) :
    ∃ xs, s.dropExport u e set b p n idx = { s with exports := xs } := by
  simp only [State.dropExport]
  split
  · exact ⟨s.exports, rfl⟩
  · exact ⟨_, rfl⟩

/-- After a row has left its queue, only register fields and rows kept for other units change. -/
theorem seamStat_dropExport_frame (s : State) (u e : Nat) (set : FMap DWord) (b : Int) (p n idx : Nat) :
    ∃ rs xs, (s.dropExport u e set b p n idx).seamStat u = { s with regs := rs, exports := xs } := by
  obtain ⟨xs, hd⟩ := dropExport_frame s u e set b p n idx
  rw [hd]
  exact ⟨_, xs, seamStat_onlyRegs _ u⟩

section
variable {s : State} {dt : Nat} {u : Fin 16} {e : Fin 64} {r : TapRow} {rs : List TapRow} {task : CrewTask} {c : Nat} {g : SegSt}
  {row : List Nat} {set : FMap DWord} (hset : s.slotSet u (g.slot.getD (s.refU u).cur) = set)
  (hq : mapGet [] (s.refU u).sendQ e = r :: rs) (htask : (s.crew u e).task = some task) (hconn : s.connOfSeg u r.b r.part = some c)
  (hseg : s.seg? c r.b r.part = some g) (hb : task.b = r.b) (hp : task.part = r.part) (hlive : task.aborted = false)
  (hready : (s.crewTakers u e set task).all (fun j => s.ringsReady j 4 1) = true)
  (hrow : s.stripeRow u e set ((s.chainGeo u).tapC (splFld set F.REF_SPLICE_SRC u (setFldIn set F.ING_STRIPE_CREW_SPLICE u e))) r.row
    (segNum r.b r.part) (r.n - g.first) = some row)
include hset hq htask hconn hseg hb hp hlive hready hrow

/-- The head row of a crew's queue goes onto the feeder (R203). -/
theorem exec_feederRow : exec (.feederRow dt u e) s =
    .next (((((s.tick dt).fed (s.crew u e).sent (row.length * sampleBytes set u e) (packRow (sampleBytes set u e) row)
      (s.crewTakers u e set task)).rowSent u e rs (s.crew u e)).dropExport u e set r.b r.part r.n (r.n - g.first)).seamStat u) := by
  have hready' : ((s.tick dt).crewTakers u e set task).all (fun j => (s.tick dt).ringsReady j 4 1) = true := hready
  have hq' : mapGet [] ((s.tick dt).refU u).sendQ e = r :: rs := hq
  have htask' : ((s.tick dt).crew u e).task = some task := htask
  have hconn' : (s.tick dt).connOfSeg u r.b r.part = some c := hconn
  have hseg' : (s.tick dt).seg? c r.b r.part = some g := hseg
  have hset' : (s.tick dt).slotSet u (g.slot.getD ((s.tick dt).refU u).cur) = set := hset
  have hrow' : (s.tick dt).stripeRow u e set (((s.tick dt).chainGeo u).tapC (splFld set F.REF_SPLICE_SRC u
    (setFldIn set F.ING_STRIPE_CREW_SPLICE u e))) r.row (segNum r.b r.part) (r.n - g.first) = some row := hrow
  change execFeederRow dt u e s = _
  simp only [execFeederRow, hq', htask', hconn', hseg', hset', hrow']
  refine (if_pos ⟨hb, hp, by rw [hlive]; rfl, hready'⟩).trans ?_
  rw [← htask']
  rfl

theorem feederRow : ∃ t, exec (.feederRow dt u e) s = .next t ∧ mapGet [] (t.refU u).sendQ e = rs ∧
    t.crew u e = { s.crew u e with sent := (s.crew u e).sent + 1 } ∧
    (∀ j ∈ s.crewTakers u e set task, ∀ q, s.feedRing j = some q → t.ringOf j q = (s.ringOf j q).wrote (s.crew u e).sent) ∧
    s.sameMemory t ∧ t.out = s.out := by
  have he := exec_feederRow (dt := dt) hset hq htask hconn hseg hb hp hlive hready hrow
  generalize row.length * sampleBytes set u e = bytes at he
  generalize packRow (sampleBytes set u e) row = ws at he
  have hland := fed_lands (s.tick dt) (s.crew u e).sent bytes ws (s.crewTakers u e set task)
  have hring (j : Nat) (hj : j ∈ s.crewTakers u e set task) (q : Nat) (hf : s.feedRing j = some q) :=
    fed_ringOf (s.tick dt) (s.crew u e).sent bytes ws hj (q := q) hf
  generalize (s.tick dt).fed (s.crew u e).sent bytes ws (s.crewTakers u e set task) = v at he hland hring
  obtain ⟨_, _, hframe⟩ := seamStat_dropExport_frame (v.rowSent u e rs (s.crew u e)) u e set r.b r.part r.n (r.n - g.first)
  generalize ((v.rowSent u e rs (s.crew u e)).dropExport u e set r.b r.part r.n (r.n - g.first)).seamStat u = t at he hframe
  have hrefs : t.refs = (v.rowSent u e rs (s.crew u e)).refs := by rw [hframe]
  have hcrews : t.crews = (v.rowSent u e rs (s.crew u e)).crews := by rw [hframe]
  have htiles : t.tiles = v.tiles := by rw [hframe]; rfl
  have hdepot : t.depot = v.depot := by rw [hframe]; rfl
  have hhbm : t.hbm = v.hbm := by rw [hframe]; rfl
  have hout : t.out = v.out := by rw [hframe]; rfl
  refine ⟨t, he, ?_, (crew_congr hcrews u e).trans (mapGet_mapSet_same ..), fun j hj q hf => ?_,
    sameMemory_of_stores (hdepot.trans hland.depot) (hhbm.trans hland.hbm), hout.trans hland.out⟩
  · rw [refU_congr hrefs, State.rowSent]
    exact (congrArg (fun x : RefUnit => mapGet [] x.sendQ e.val) (v.refU_setRef_same u _)).trans (mapGet_mapSet_same ..)
  · exact (ringOf_congr (by rw [tile_congr htiles]) q).trans (hring j hj q hf)

end

end Sys2Proof.Machine
end

section
/-! Rows, packets and retiring operations: the obligation assembled. -/
namespace Sys2Proof.Machine

/-- Settles O44: a feeder row and a row-bus row land in the rings of every member that takes them, for the other members land the same row
(logs 40, 41); a packet lands in its space or is discarded whole; each operation ends with its own effect, and its entry retires (log 45). -/
theorem rowsAndPacketsLand : Obligations.RowsAndPacketsLand := by
  unfold Obligations.RowsAndPacketsLand
  intro dt s
  refine ⟨fun u e r rs task c g row => ?_, fun k => ⟨fun e inb lb a n ch row ring planes zc sent ws => ?_, fun src p hp => ⟨?_, ?_⟩,
    fun e y hy => ⟨?_, ?_, ?_, ?_, ?_⟩⟩⟩
  · exact feederRow rfl
  · exact rowBusRow
  · exact fun hk htest hret hfit => meshPacketArrive_write dt hp hk htest hret hfit
  · exact fun ww => meshPacketArrive_damaged dt hp ww
  · exact fun ws hop hfit => retire_write hy hop hfit
  · exact fun ws hop => retire_table hy hop
  · exact fun hop => retire_read hy hop
  · exact fun p hop hd hne ho => retire_mesh hy hop hd hne ho
  · exact fun ws hop hroom => retire_catReq hy hop hroom

end Sys2Proof.Machine
end

section
/-! What a compute word reads (R170 to R178, R186 to R190, R304): storage, the tile's registers and its rings. It changes none of them while
it fills the accumulator file, so every term is computed from the operands as they stood at its issue. -/
namespace Sys2Proof.Machine

/-- Tile `k` of `t` shows a compute word the storage, the registers and the rings that it has in `s`. -/
structure OperandsAs (s t : State) (k : Nat) : Prop where
  words : ∀ lb a, t.readW k lb a = s.readW k lb a
  gRegs : ∀ i, t.gReg k i = s.gReg k i
  rings : ∀ i, t.ringOf k i = s.ringOf k i

theorem operandsAs_issued (s : State) (dt : Nat) (k : Fin 1088) : OperandsAs s (s.issued dt k) k where
  words := issued_readW s dt k
  gRegs := issued_gReg s dt k
  rings i := by rw [State.ringOf, State.ringOf, issued_tile]

section
variable {s t : State} {k : Nat} (h : OperandsAs s t k)
include h

theorem OperandsAs.modTile {f : Tile → Tile} (hsp : ∀ x, (f x).sp = x.sp) (hlb : ∀ x, (f x).lb = x.lb) (hg : ∀ x, (f x).g = x.g)
    (hr : ∀ x, (f x).rings = x.rings) : OperandsAs s (t.modTile k f) k where
  words lb a := (readW_congr (s := t) (t := t.modTile k f) (fun _ _ => State.reg_congr rfl _ _ _) (by rw [t.tile_modTile_same, hsp])
    (by rw [t.tile_modTile_same, hlb]) lb a).trans (h.words lb a)
  gRegs i := by rw [State.gReg, t.tile_modTile_same, hg]; exact h.gRegs i
  rings i := by rw [State.ringOf, t.tile_modTile_same, hr]; exact h.rings i

theorem OperandsAs.readWs (lb : Bool) (a n : Nat) : t.readWs k lb a n = s.readWs k lb a n := readWs_congr h.words lb a n

theorem OperandsAs.lastRow : t.lastRow k = s.lastRow k := by rw [State.lastRow, State.lastRow, h.gRegs]

theorem OperandsAs.inVec (g : Geo) (src : InSrc) (grp : Nat) (n x : Int) : t.inVec k g src grp n x = s.inVec k g src grp n x := by
  simp only [State.inVec, State.vecAddr, State.scaleAddr, h.lastRow, h.words, h.readWs, h.rings]

theorem OperandsAs.slipSample (g : Geo) (ring c : Nat) (n x : Int) : t.slipSample k g ring c n x = s.slipSample k g ring c n x := by
  simp only [State.slipSample, h.lastRow, h.words, h.rings]

theorem OperandsAs.slipSum (g : Geo) (p : OpWord) (x o : Nat) : t.slipSum k g p x o = s.slipSum k g p x o := by
  simp only [State.slipSum, h.slipSample, h.words]

theorem OperandsAs.poolOne (g : Geo) (p : OpWord) (og x o : Nat) : t.poolOne k g p og x o = s.poolOne k g p og x o := by
  simp only [State.poolOne, State.poolWin, h.lastRow, h.inVec]

end

/-- An operand of the element unit comes from the accumulator file or from storage (R317). -/
theorem OperandsAs.ewOperand {s t : State} {k : Nat} (h : OperandsAs s t k) (hacc : ∀ i, t.accGet k i = s.accGet k i) (f : Fmt)
    (fromAcc lb : Bool) (a x : Nat) : t.ewOperand k f fromAcc lb a x = s.ewOperand k f fromAcc lb a x := by
  simp only [State.ewOperand, hacc, h.readWs]

end Sys2Proof.Machine
end

section
/-! The accumulator file (R108): its entries after writes of the file and of other parts of the tile, and one entry followed through the
positions and lanes of a row. -/
namespace Sys2Proof.Machine

theorem accGet_congr {s t : State} {k : Nat} (h : (t.tile k).acc = (s.tile k).acc) (i : Nat) : t.accGet k i = s.accGet k i := by
  rw [State.accGet, State.accGet, h]

section
variable (s : State) (k : Nat)

@[simp] theorem accGet_accPut_same (i : Nat) (a : AccE) : (s.accPut k i a).accGet k i = a := by
  rw [State.accGet, State.accPut, s.tile_modTile_same]
  exact mapGet_mapSet_same ..

theorem accGet_accPut_ne {i j : Nat} (a : AccE) (h : j ≠ i) : (s.accPut k i a).accGet k j = s.accGet k j := by
  rw [State.accGet, State.accPut, s.tile_modTile_same]
  exact mapGet_mapSet_ne _ _ _ h

@[simp] theorem accGet_accClear (i : Nat) : (s.accClear k).accGet k i = acc0 := by
  rw [State.accGet, State.accClear, s.tile_modTile_same]
  rfl

@[simp] theorem accGet_writeW (lb : Bool) (a : Nat) (c : Cell16) (i : Nat) : (s.writeW k lb a c).accGet k i = s.accGet k i :=
  accGet_congr (by rw [writeW_tile]) i

@[simp] theorem accGet_writeWs (lb : Bool) (a : Nat) (cs : List Cell16) (i : Nat) : (s.writeWs k lb a cs).accGet k i = s.accGet k i :=
  accGet_congr (by rw [writeWs_tile]) i

@[simp] theorem accGet_writeBits (lb : Bool) (a lo n v : Nat) (p : Bool) (i : Nat) :
    (s.writeBits k lb a lo n v p).accGet k i = s.accGet k i := accGet_writeW ..

theorem tile_setGen (g : Gen) : (s.setGen k g).tile k = { s.tile k with genX := g.x, genM := g.m } := by
  rw [State.setGen, State.tile_setFld, s.tile_modTile_same]

@[simp] theorem accGet_setGen (g : Gen) (i : Nat) : (s.setGen k g).accGet k i = s.accGet k i := accGet_congr (by rw [tile_setGen]) i

@[simp] theorem tile_addStats (st : RqSt) (j : Nat) : (s.addStats k st).tile j = s.tile j := by
  rw [State.addStats, State.addSat, State.addSat, State.addSat, State.addSat, State.tile_setFld, State.tile_setFld, State.tile_setFld,
    State.tile_setFld]

@[simp] theorem accGet_addStats (st : RqSt) (i : Nat) : (s.addStats k st).accGet k i = s.accGet k i :=
  accGet_congr (by rw [tile_addStats]) i

/-! ## A drain leaves the accumulator file (R316) -/

theorem accGet_writeNv4 (g : Geo) (lb : Bool) (base og x : Nat) (cs : List (Nat × Bool)) (i : Nat) :
    (s.writeNv4 k g lb base og x cs).accGet k i = s.accGet k i := by
  unfold State.writeNv4
  split
  split <;> split <;> simp

theorem accGet_drainPos (g : Geo) (p : OpWord) (isInt : Bool) (og x0 : Nat) (bias : List El) (x i : Nat) :
    (s.drainPos k g p isInt og x0 bias x).accGet k i = s.accGet k i := by
  unfold State.drainPos
  extract_lets es st
  split <;> simp [accGet_writeNv4]

theorem accGet_drain (g : Geo) (p : OpWord) (isInt : Bool) (og x0 n i : Nat) : (s.drain k g p isInt og x0 n).accGet k i = s.accGet k i :=
  List.foldlRecOn (motive := fun u => u.accGet k i = s.accGet k i) _ _ rfl fun u hu _ _ => (accGet_drainPos u ..).trans hu

theorem accGet_drainIf (drain : Bool) (g : Geo) (p : OpWord) (isInt : Bool) (og x0 n i : Nat) :
    (if drain then s.drain k g p isInt og x0 n else s).accGet k i = s.accGet k i := by
  split
  · exact accGet_drain ..
  · rfl

/-- The window register of a slip convolution is none of the accumulator file (R109). -/
theorem accGet_slipWindow (g : Geo) (p : OpWord) (x i : Nat) : (s.slipWindow k g p x).accGet k i = s.accGet k i := by
  unfold State.slipWindow
  refine List.foldlRecOn (motive := fun u : State => u.accGet k i = s.accGet k i) _ _ rfl fun u hu q _ => Eq.trans ?_ hu
  exact accGet_congr (by rw [u.tile_modTile_same]) i

end

/-! ## One entry -/

/-- A word under way from the operands of `s` has come to `t`, where accumulator entry `i` holds `v`. -/
structure EntryIs (s t : State) (k i : Nat) (v : AccE) : Prop extends OperandsAs s t k where
  value : t.accGet k i = v

theorem entryIs_issued (s : State) (dt : Nat) (k : Fin 1088) (i : Nat) : EntryIs s (s.issued dt k) k i (s.accGet k i) :=
  ⟨operandsAs_issued s dt k, accGet_congr (by rw [issued_tile]) i⟩

section
variable {s t : State} {k i : Nat} {v : AccE}

theorem OperandsAs.accPut (h : OperandsAs s t k) (j : Nat) (a : AccE) : OperandsAs s (t.accPut k j a) k :=
  h.modTile (fun _ => rfl) (fun _ => rfl) (fun _ => rfl) fun _ => rfl

theorem OperandsAs.accClear (h : OperandsAs s t k) : OperandsAs s (t.accClear k) k :=
  h.modTile (fun _ => rfl) (fun _ => rfl) (fun _ => rfl) fun _ => rfl

theorem EntryIs.accPut_same (h : EntryIs s t k i v) (a : AccE) : EntryIs s (t.accPut k i a) k i a :=
  ⟨h.toOperandsAs.accPut i a, accGet_accPut_same ..⟩

theorem EntryIs.accPut_ne (h : EntryIs s t k i v) {j : Nat} (a : AccE) (hj : i ≠ j) : EntryIs s (t.accPut k j a) k i v :=
  ⟨h.toOperandsAs.accPut j a, (accGet_accPut_ne t k a hj).trans h.value⟩

/-- The current weight tile (R179) is neither operand nor entry. -/
theorem EntryIs.weights (h : EntryIs s t k i v) (ws : List Cell16) :
    EntryIs s (t.modTile k fun x => { x with wCur := ws, wNext := ws }) k i v :=
  ⟨h.toOperandsAs.modTile (fun _ => rfl) (fun _ => rfl) (fun _ => rfl) fun _ => rfl,
    (accGet_congr (by rw [t.tile_modTile_same]) i).trans h.value⟩

/-- The word's clear bit (R315): the entry begins at zero, or at what it holds. -/
theorem EntryIs.start (h : EntryIs s t k i v) (clr : Bool) :
    EntryIs s (if clr then t.accClear k else t) k i (if clr then ⟨0, false⟩ else v) := by
  cases clr
  · exact h
  · exact ⟨h.toOperandsAs.accClear, accGet_accClear ..⟩

end

/-- Steps over a range of which step `j` takes `P` to `Q`, and the others keep either. -/
theorem foldl_range_once {α : Type} {P Q : α → Prop} {f : α → Nat → α} {n j : Nat} {a : α} (hj : j < n) (h : P a)
    (before : ∀ x < n, x ≠ j → ∀ u, P u → P (f u x)) (hit : ∀ u, P u → Q (f u j))
    (after : ∀ x < n, x ≠ j → ∀ u, Q u → Q (f u x)) :
    Q ((List.range n).foldl f a) := by
  induction n with
  | zero => exact absurd hj (Nat.not_lt_zero j)
  | succ n ih =>
    rw [List.range_succ, List.foldl_append]
    rcases Nat.lt_succ_iff_lt_or_eq.1 hj with hlt | rfl
    · exact after n n.lt_succ_self hlt.ne' _ (ih hlt (fun x hx => before x (by omega)) fun x hx => after x (by omega))
    · exact hit _ (List.foldlRecOn _ _ h fun u hu x hx => before x (by have := List.mem_range.1 hx; omega) (List.mem_range.1 hx).ne u hu)

/-- A word that goes once over `n` positions and sixteen lanes writes entry `16 × position + lane` once (R179, R187, R189). What it writes
there may depend on the state `u` at the position's start and on the state `u'` at the lane. -/
theorem EntryIs.positions {s t : State} {k n xx o : Nat} {v v' : AccE} (h : EntryIs s t k (16 * xx + o) v) (hxx : xx < n) (ho : o < 16)
    (val : State → Nat → State → Nat → AccE)
    (hval : ∀ u u', EntryIs s u k (16 * xx + o) v → EntryIs s u' k (16 * xx + o) v → val u xx u' o = v') :
    EntryIs s ((List.range n).foldl (fun u x => (List.range 16).foldl (fun u' o => u'.accPut k (16 * x + o) (val u x u' o)) u) t) k
      (16 * xx + o) v' := by
  have row {a : AccE} {x : Nat} (hx : x ≠ xx) (u : State) (hu : EntryIs s u k (16 * xx + o) a) :
      EntryIs s ((List.range 16).foldl (fun u' o => u'.accPut k (16 * x + o) (val u x u' o)) u) k (16 * xx + o) a :=
    List.foldlRecOn (motive := fun u' => EntryIs s u' k (16 * xx + o) a) _ _ hu fun u' hu' o' ho' =>
      hu'.accPut_ne _ (by have := List.mem_range.1 ho'; omega)
  refine foldl_range_once (P := fun u => EntryIs s u k (16 * xx + o) v) (Q := fun u => EntryIs s u k (16 * xx + o) v') hxx h
    (fun x _ hx => row hx) (fun u hu => ?_) fun x _ hx => row hx
  refine foldl_range_once (P := fun u' => EntryIs s u' k (16 * xx + o) v) (Q := fun u' => EntryIs s u' k (16 * xx + o) v') ho hu
    (fun o' _ ho' u' hu' => hu'.accPut_ne _ (by omega)) (fun u' hu' => ?_) fun o' _ ho' u' hu' => hu'.accPut_ne _ (by omega)
  rw [hval u u' hu hu']
  exact hu'.accPut_same v'

end Sys2Proof.Machine
end

section
/-! CONV, MAT, SLIP and POOL (R177, R184, R187 to R190, R315): what each leaves in an accumulator entry. -/
namespace Sys2Proof.Machine

/-- The sum of a term and an entry, in the entry's format; poison stays (R153, R156). -/
def accPlus (isInt : Bool) (a : AccE) (e : El) : AccE := ⟨BitVec.ofNat 32 (accAdd isInt a.v.toNat e.v), a.p || e.p⟩

/-- The term of output lane `o` from a weight tile's words, its scales' words and an input vector (R153, R315). -/
def Geo.laneTerm (g : Geo) (ws scs : List Cell16) (vec : List El × El) (o : Nat) : El :=
  term g.mmode (vec.1.zip (g.wLane ws o)) vec.2 ((elemsFrom .bf16 scs o 1).headD ⟨.fp .zero, false⟩)

/-- The term of tap `q` of input group `ig` for position `xx` and lane `o` of the first output group (R177, R315). -/
def State.tapTerm (s : State) (k : Nat) (g : Geo) (p : OpWord) (xx o ig : Nat) (q : Nat × Nat) : El :=
  let ti := (ig * g.kh + q.1) * g.kw + q.2
  g.laneTerm (s.readWs k p.wlb (p.w + ti * g.tw) g.tw) (s.readWs k p.auxlb (p.aux + 4 * g.gOut + 2 * ti) 2)
    (s.inVec k g p.src ig (tapRow g p q.1) ((xx * g.sh : Nat) + tapCol g p q.2)) o

/-- The terms of an entry in the order input group, kernel row, kernel column (R315). -/
def State.entryTerms (s : State) (k : Nat) (g : Geo) (p : OpWord) (xx o : Nat) : List El :=
  (List.range g.gi).flatMap fun ig => (taps g.kh g.kw).map (s.tapTerm k g p xx o ig)

theorem giBase_zero (g : Geo) : g.giBase 0 = 0 := by
  unfold Geo.giBase
  split
  · rfl
  · simp

section
variable {s t : State} {k xx o : Nat} {v : AccE} {g : Geo} {p : OpWord} (h : EntryIs s t k (16 * xx + o) v) (ho : o < 16)
include h ho

/-- A sweep of a weight tile adds one term to each entry of the row (R179). -/
theorem EntryIs.sweep (hxx : xx < g.wOut) (src : InSrc) (ws scs : List Cell16) (grp : Nat) (row col : Int) :
    EntryIs s (t.sweep k g src ws scs false grp row col) k (16 * xx + o)
      (accPlus g.mmode.isInt v (g.laneTerm ws scs (s.inVec k g src grp row ((xx * g.sh : Nat) + col)) o)) :=
  h.positions hxx ho (fun u x u' o => accPlus g.mmode.isInt (u'.accGet k (16 * x + o))
      (g.laneTerm ws scs (u.inVec k g src grp row ((x * g.sh : Nat) + col)) o)) fun u u' hu hu' => by rw [hu.inVec, hu'.value]

/-- The sweeps of the first output group add the terms of an entry one after another (R315). -/
theorem EntryIs.groupSweeps (hxx : xx < g.wOut) :
    EntryIs s (t.groupSweeps k g p 0) k (16 * xx + o) ((s.entryTerms k g p xx o).foldl (accPlus g.mmode.isInt) v) := by
  rw [State.entryTerms, List.foldl_flatMap]
  refine List.foldl_rel (r := fun u a => EntryIs s u k (16 * xx + o) a) h fun ig _ u a hu => ?_
  rw [List.foldl_map]
  refine List.foldl_rel (r := fun u a => EntryIs s u k (16 * xx + o) a) hu fun q _ u a hu => ?_
  simp only [State.tapTerm, Nat.zero_mul, Nat.zero_add, giBase_zero, hu.readWs, Nat.lt_irrefl, decide_false, Bool.and_false, Bool.false_and]
  exact (hu.weights _).sweep ho hxx ..

/-- CONV and MAT of one output group (R177, R184, R315). -/
theorem EntryIs.conv (hout : g.gOut = 1) (hxx : xx < g.wOut) : (t.conv k g p).accGet k (16 * xx + o) =
    (s.entryTerms k g p xx o).foldl (accPlus g.mmode.isInt) (if p.clr then ⟨0, false⟩ else v) := by
  rw [State.conv, hout]
  exact (accGet_drainIf ..).trans ((h.start p.clr).groupSweeps ho hxx).value

/-- POOL of one output group (R188 to R190). -/
theorem EntryIs.pool (hout : g.gOut = 1) (hxx : xx < g.wOut) : (t.pool k g p).accGet k (16 * xx + o) =
    ⟨BitVec.ofNat 32 (directCode (if decide (g.afmt = .int8) && g.opk == 3 then .int32 else .fp32) (s.poolOne k g p 0 xx o)).1,
      (s.poolOne k g p 0 xx o).p⟩ := by
  rw [State.pool, hout]
  refine (accGet_drainIf ..).trans (h.positions hxx ho (fun _ x u' o => ⟨BitVec.ofNat 32 (directCode
    (if decide (g.afmt = .int8) && g.opk == 3 then .int32 else .fp32) (u'.poolOne k g p 0 x o)).1, (u'.poolOne k g p 0 x o).p⟩)
    fun _ u' _ hu' => ?_).value
  rw [hu'.poolOne]

/-- SLIP: each entry of the pass takes its sum (R185, R187). -/
theorem EntryIs.slip (hxx : xx < min 256 (g.wOut - 256 * p.pass)) : (t.slip k g p).accGet k (16 * xx + o) =
    accPlus true (if p.clr then ⟨0, false⟩ else v) (s.slipSum k g p (256 * p.pass + xx) o) := by
  unfold State.slip
  extract_lets x0 n clr u win
  have hu : EntryIs s u k (16 * xx + o) (accPlus true (if p.clr then ⟨0, false⟩ else v) (s.slipSum k g p (x0 + xx) o)) :=
    (h.start p.clr).positions hxx ho (fun _ x u' o => accPlus true (u'.accGet k (16 * x + o)) (u'.slipSum k g p (x0 + x) o))
      fun _ u' _ hu' => by rw [hu'.slipSum, hu'.value]
  have hwin : win.accGet k (16 * xx + o) = u.accGet k (16 * xx + o) := by
    change (if n = 0 then u else u.slipWindow k g p (x0 + n - 1)).accGet k (16 * xx + o) = _
    split
    · rfl
    · exact accGet_slipWindow ..
  exact (accGet_drainIf ..).trans (hwin.trans hu.value)

end

end Sys2Proof.Machine
end

section
/-! EW and RQ of one vector (R192, R317): the words written, and the statistics of a requantised vector (R166). -/
namespace Sys2Proof.Machine

section
variable (s : State) (k : Nat)

/-- Words read over a range just written are those written. -/
theorem readWs_writeWs {lb : Bool} {b : Nat} (cs : List Cell16) (hb : b + cs.length ≤ spaceWords lb) :
    (s.writeWs k lb b cs).readWs k lb b cs.length = cs := by
  induction cs generalizing s b with
  | nil => rfl
  | cons c cs ih =>
    have hhead := readW_writeWs_in s k (c :: cs) hb (i := 0) (Nat.succ_pos _)
    rw [List.length_cons] at hb
    exact congrArg₂ List.cons hhead (ih (s.writeW k lb b c) (by omega))

/-- A vector of EW without requantiser: the result of its function is written (R159, R192, R317). -/
theorem ewVec_direct {w : Nat} (hfn : wf w 90 88 ∈ [0, 1, 3]) (hout : (fmtOf (wf w 101 99)).narrow = false) {a b : List El}
    (ha : s.ewOperand k (fmtOf (wf w 95 93)) (wf w 92 91 == 1) (opnd w 16).lb (s.ea k (opnd w 16)) 0 = a)
    (hb : s.ewOperand k (fmtOf (wf w 98 96)) false (opnd w 36).lb (s.ea k (opnd w 36)) 0 = b) :
    s.ewVec k w 0 = s.writeWs k (opnd w 56).lb (s.ea k (opnd w 56)) (directWords (fmtOf (wf w 101 99))
      (if wf w 90 88 = 0 then a.zipWith euAdd b else if wf w 90 88 = 1 then a.zipWith euMul b else a)) := by
  subst ha hb
  have hne : fmtOf (wf w 101 99) ≠ .nv4 := fun h => by simp [h, Fmt.narrow] at hout
  simp only [List.mem_cons, List.not_mem_nil, or_false] at hfn
  unfold State.ewVec
  simp only [hne, hout, if_false, Bool.false_eq_true, Nat.zero_div, Nat.zero_mul, Nat.add_zero, ite_self]
  rcases hfn with h | h | h <;> simp only [h] <;> rfl

/-- A position of RQ to an 8-bit format: the codes are written, and the generator and the statistics move on (R164, R166, R317). -/
theorem rqPos_narrow {w : Nat} (hn : (s.geo k (wf w 108 104)).out.narrow = true) (hne : (s.geo k (wf w 108 104)).out ≠ .nv4)
    {a : List El} {r : List (Nat × Bool) × RqSt}
    (ha : s.ewOperand k (fmtOf (wf w 124 122)) (wf w 125 125 == 1) (opnd w 16).lb (s.ea k (opnd w 16)) 0 = a)
    (hr : requantList (s.geo k (wf w 108 104)).out (s.geo k (wf w 108 104)).stoch (s.geo k (wf w 108 104)).qm 0
      (if wf w 109 109 = 1 then a.map relu else a) ⟨s.gen k, 0, 0, 0, 0⟩ = r) :
    s.rqPos k w 0 = ((s.writeWs k (opnd w 36).lb (s.ea k (opnd w 36)) (packWords 8 16 r.1 1)).setGen k r.2.gen).addStats k r.2 := by
  subst ha hr
  unfold State.rqPos
  simp only [hn, hne, if_false, if_true, Nat.add_zero]

/-- The count of requantised elements saturates (R166). -/
theorem fld_addStats_cnt (hk : k < 1088) (st : RqSt) : (s.addStats k st).fld F.TILE_MSE_CNT_CNT k =
    min (s.fld F.TILE_MSE_CNT_CNT k + st.cnt) (2 ^ F.TILE_MSE_CNT_CNT.w - 1) := by
  have hsq (u : State) (f : Fld) (n : Nat) (hf : f.reg = .TILE_MSE_SQ) : (u.addSat f n k).fld F.TILE_MSE_CNT_CNT k =
      u.fld F.TILE_MSE_CNT_CNT k :=
    fld_of_keeps (keeps_setFld u f _ (by rw [hf]; exact ⟨hk, Nat.one_pos⟩)) ⟨hk, Nat.one_pos⟩ (by simp [hf])
  rw [State.addStats, State.addSat,
    State.fld_setFld_other _ (f := F.TILE_MSE_CNT_SAT) (g := F.TILE_MSE_CNT_CNT) _ _ _ rfl (by decide) (by decide),
    State.fld_addSat_same _ _ _ _ _ (by decide), hsq _ _ _ rfl, hsq _ _ _ rfl]

theorem fld_setGen_cnt (hk : k < 1088) (g : Gen) : (s.setGen k g).fld F.TILE_MSE_CNT_CNT k = s.fld F.TILE_MSE_CNT_CNT k :=
  (fld_of_keeps (keeps_setFld _ F.TILE_RNG_STEPS_STEPS _ ⟨hk, Nat.one_pos⟩) ⟨hk, Nat.one_pos⟩ (by simp)).trans (State.fld_modTile ..)

end

/-- EW of one vector; its function is one that R317 gives a result. -/
theorem ew_one (s : State) (k : Nat) {w : Nat} (hn : wf w 87 76 = 0) (hfn : wf w 90 88 ≤ 3) : s.ew k w = s.ewVec k w 0 := by
  rw [State.ew, hn, if_neg (Nat.not_lt.2 hfn)]
  rfl

theorem rq_one (s : State) (k : Nat) {w : Nat} (hn : wf w 121 110 = 0) : s.rq k w = s.rqPos k w 0 := by
  rw [State.rq, hn]
  rfl

/-- The generator and the statistics are kept apart from storage (R129, R166). -/
theorem readWs_setGen_addStats (s : State) (k : Fin 1088) (g : Gen) (st : RqSt) (lb : Bool) (a n : Nat) :
    ((s.setGen k g).addStats k st).readWs k lb a n = s.readWs k lb a n := by
  have hregs := ((Computed.refl s k []).setGen g).addStats st |>.onTile.regs
  exact readWs_congr (readW_congr (map_of_keeps hregs k.isLt (by simp [computeRegs])) (by rw [tile_addStats, tile_setGen])
    (by rw [tile_addStats, tile_setGen])) lb a n

end Sys2Proof.Machine
end

section
/-! The compute words compute their operators: the obligation assembled. -/
namespace Sys2Proof.Machine

section
variable {s t : State} {k pc : Nat} (h : PcMoved s t k pc)
include h

theorem PcMoved.pc_eq : (t.tile k).pc = pc := by rw [h.tile]

theorem PcMoved.accGet (i : Nat) : t.accGet k i = s.accGet k i := accGet_congr (by rw [h.tile]) i

theorem PcMoved.readWs (lb : Bool) (a n : Nat) : t.readWs k lb a n = s.readWs k lb a n :=
  readWs_congr (readW_congr (fun _ _ => State.reg_congr (by rw [h.frame]) _ _ _) (by rw [h.tile]) (by rw [h.tile])) lb a n

theorem PcMoved.fld (f : Fld) (i j : Nat) : t.fld f i j = s.fld f i j := State.fld_congr (by rw [h.frame]) f i j

end

section
variable {s : State} {dt op w : Nat} {k : Fin 1088}

/-- A compute word that may issue has its effect, and the PC moves to the next word (R308, R324). -/
theorem compute_pcMoved {names : State → Nat → Named} {effect : State → Nat → State} {c : Instr} {n : Named}
    (hc : exec c s = .next ((s.tick dt).issueNext k op names effect)) (h : s.issues k op w) (hn : names (s.tick dt) w = n)
    (hms : n.ms = none) (hp : s.mayIssue k n)
    (hcomp : n.rngs.all Rng.fits = true → Computed (s.issued dt k) k n.rngs (effect (s.issued dt k) w)) :
    ∃ t, exec c s = .next t ∧ PcMoved (effect (s.issued dt k) w) t k ((s.tile k).pc + 1) := by
  have hcomp := hcomp (fits_of_rngExcs hp.ranges)
  have hpass : s.passes k n := ⟨hp, by rw [State.msWaits, hms]⟩
  rw [hc, issueNext_of_passes dt h (hn ▸ hpass)]
  have htile : (effect (s.issued dt k) w).tile k = (s.tile k).computedAs ((effect (s.issued dt k) w).tile k) := by
    rw [← issued_tile s dt k k]
    exact hcomp.own
  have hpc : ((effect (s.issued dt k) w).tile k).pc = (s.tile k).pc := by rw [htile]; rfl
  have hloops : ((effect (s.issued dt k) w).tile k).loops = (s.tile k).loops := by rw [htile]; rfl
  obtain ⟨-, -, -, -, hlast⟩ := h
  exact ⟨_, rfl, hpc ▸ pcMoved_nextWord (by rw [hpc, hloops]; exact hlast)⟩

section
variable {p : OpWord} {g : Geo} (hw : s.opWord k w = p) (hg : s.geo k p.set = g)
include hw hg

/-- CONV and MAT of one output group (R177, R184, R315). -/
theorem sweeps_compute {c : Instr} (hc : exec c s = .next ((s.tick dt).issueNext k op (fun s w => s.sweepNamed k w) fun s w =>
      s.conv k (s.geo k (s.opWord k w).set) (s.opWord k w)))
    (hout : g.gOut = 1) (hopk : g.opk = 0 ∨ g.opk = 1) (h : s.issues k op w) (hp : s.mayIssue k (s.sweepNamed k w)) :
    ∃ t, exec c s = .next t ∧ (t.tile k).pc = (s.tile k).pc + 1 ∧ ∀ xx o, xx < g.wOut → o < 16 →
      t.accGet k (16 * xx + o) =
        (s.entryTerms k g p xx o).foldl (accPlus g.mmode.isInt) (if p.clr then ⟨0, false⟩ else s.accGet k (16 * xx + o)) := by
  have hne : g.opk ≠ 2 := by omega
  subst hw hg
  obtain ⟨t, he, hm⟩ := compute_pcMoved hc h sweepNamed_tick rfl hp (computed_conv hne)
  refine ⟨t, he, hm.pc_eq, fun xx o hxx ho => (hm.accGet _).trans ?_⟩
  simp only [issued_opWord, issued_geo]
  exact (entryIs_issued s dt k _).conv ho hout hxx

/-- POOL of one output group (R188 to R190). -/
theorem pool_computes (hout : g.gOut = 1) (hopk : g.opk = 3 ∨ g.opk = 4) (h : s.issues k 0x13 w) (hp : s.mayIssue k (s.poolNamed k w)) :
    ∃ t, exec (.pool dt k) s = .next t ∧ (t.tile k).pc = (s.tile k).pc + 1 ∧ ∀ xx o, xx < g.wOut → o < 16 →
      t.accGet k (16 * xx + o) = ⟨BitVec.ofNat 32 (directCode (if decide (g.afmt = .int8) && g.opk == 3 then .int32 else .fp32)
        (s.poolOne k g p 0 xx o)).1, (s.poolOne k g p 0 xx o).p⟩ := by
  have hne : g.opk ≠ 2 := by omega
  subst hw hg
  obtain ⟨t, he, hm⟩ := compute_pcMoved (c := .pool dt k) rfl h poolNamed_tick rfl hp (computed_pool hne)
  refine ⟨t, he, hm.pc_eq, fun xx o hxx ho => (hm.accGet _).trans ?_⟩
  simp only [issued_opWord, issued_geo]
  exact (entryIs_issued s dt k _).pool ho hout hxx

/-- SLIP: one pass (R185, R187). -/
theorem slip_computes (hopk : g.opk = 2) (h : s.issues k 0x12 w) (hp : s.mayIssue k (s.sweepNamed k w)) :
    ∃ t, exec (.slip dt k) s = .next t ∧ (t.tile k).pc = (s.tile k).pc + 1 ∧
      ∀ xx o, xx < min 256 (g.wOut - 256 * p.pass) → o < 16 → t.accGet k (16 * xx + o) =
        accPlus true (if p.clr then ⟨0, false⟩ else s.accGet k (16 * xx + o)) (s.slipSum k g p (256 * p.pass + xx) o) := by
  subst hw hg
  obtain ⟨t, he, hm⟩ := compute_pcMoved (c := .slip dt k) rfl h sweepNamed_tick rfl hp (computed_slip hopk)
  refine ⟨t, he, hm.pc_eq, fun xx o hxx ho => (hm.accGet _).trans ?_⟩
  simp only [issued_opWord, issued_geo]
  exact (entryIs_issued s dt k _).slip ho hxx

end

theorem issued_gen (s : State) (dt : Nat) (k : Fin 1088) : (s.issued dt k).gen k = s.gen k := by
  rw [State.gen, State.gen, issued_tile, fld_of_keeps (issued_keeps s dt k) ⟨k.isLt, Nat.one_pos⟩ (by simp)]

/-- An operand is the same at the word's issue (R317). -/
theorem issued_ewOperand (f : Fmt) (fromAcc lb : Bool) (a x : Nat) :
    (s.issued dt k).ewOperand k f fromAcc lb a x = s.ewOperand k f fromAcc lb a x :=
  (operandsAs_issued s dt k).ewOperand (fun i => accGet_congr (by rw [issued_tile]) i) f fromAcc lb a x

/-- EW of one vector without requantiser (R159, R192, R317). -/
theorem ew_computes {a b : List El} (h : s.issues k 0x14 w) (hp : s.mayIssue k (s.ewNamed k w)) (hn : wf w 87 76 = 0)
    (hfn : wf w 90 88 ∈ [0, 1, 3]) (hout : (fmtOf (wf w 101 99)).narrow = false)
    (ha : s.ewOperand k (fmtOf (wf w 95 93)) (wf w 92 91 == 1) (opnd w 16).lb (s.ea k (opnd w 16)) 0 = a)
    (hb : s.ewOperand k (fmtOf (wf w 98 96)) false (opnd w 36).lb (s.ea k (opnd w 36)) 0 = b) :
    ∃ t, exec (.ew dt k) s = .next t ∧ (t.tile k).pc = (s.tile k).pc + 1 ∧
      t.readWs k (opnd w 56).lb (s.ea k (opnd w 56)) (fmtWords (fmtOf (wf w 101 99))) = directWords (fmtOf (wf w 101 99))
        (if wf w 90 88 = 0 then a.zipWith euAdd b else if wf w 90 88 = 1 then a.zipWith euMul b else a) := by
  have hfn3 : wf w 90 88 ≤ 3 := by
    simp only [List.mem_cons, List.not_mem_nil, or_false] at hfn
    omega
  have hne : fmtOf (wf w 101 99) ≠ .nv4 := fun h => by simp [h, Fmt.narrow] at hout
  have hrng : (⟨true, (opnd w 56).lb, s.ea k (opnd w 56), 1 * fmtWords (fmtOf (wf w 101 99))⟩ : Rng) ∈ (s.ewNamed k w).rngs := by
    refine List.mem_append_right _ ?_
    change _ ∈ ewWrites (s.geo k (wf w 108 104)) (opnd w 56).lb (s.ea k (opnd w 56)) (wf w 87 76 + 1) (fmtOf (wf w 101 99))
    rw [ewWrites, if_neg hne, hn, hout]
    exact List.mem_singleton_self _
  have hfit := of_decide_eq_true (List.all_eq_true.1 (fits_of_rngExcs hp.ranges) _ hrng)
  rw [Nat.one_mul, ← directWords_length] at hfit
  obtain ⟨t, he, hm⟩ := compute_pcMoved (c := .ew dt k) rfl h ewNamed_tick rfl hp (computed_ew hfn3)
  refine ⟨t, he, hm.pc_eq, (hm.readWs ..).trans ?_⟩
  rw [ew_one _ k hn hfn3, ewVec_direct _ k hfn hout (a := a) (b := b) (by rw [issued_ewOperand, issued_ea, ha])
    (by rw [issued_ewOperand, issued_ea, hb]), issued_ea, ← directWords_length]
  exact readWs_writeWs _ k _ hfit

/-- RQ of one vector to an 8-bit format (R164, R166, R317). -/
theorem rq_computes {a : List El} {r : List (Nat × Bool) × RqSt} (h : s.issues k 0x15 w) (hp : s.mayIssue k (s.rqNamed k w))
    (hn : wf w 121 110 = 0) (hnarrow : (s.geo k (wf w 108 104)).out.narrow = true) (hne : (s.geo k (wf w 108 104)).out ≠ .nv4)
    (ha : s.ewOperand k (fmtOf (wf w 124 122)) (wf w 125 125 == 1) (opnd w 16).lb (s.ea k (opnd w 16)) 0 = a)
    (hr : requantList (s.geo k (wf w 108 104)).out (s.geo k (wf w 108 104)).stoch (s.geo k (wf w 108 104)).qm 0
      (if wf w 109 109 = 1 then a.map relu else a) ⟨s.gen k, 0, 0, 0, 0⟩ = r) :
    ∃ t, exec (.rq dt k) s = .next t ∧ (t.tile k).pc = (s.tile k).pc + 1 ∧
      t.readWs k (opnd w 36).lb (s.ea k (opnd w 36)) 1 = packWords 8 16 r.1 1 ∧
      t.fld F.TILE_MSE_CNT_CNT k = min (s.fld F.TILE_MSE_CNT_CNT k + r.2.cnt) (2 ^ F.TILE_MSE_CNT_CNT.w - 1) := by
  have hrng : (⟨true, (opnd w 36).lb, s.ea k (opnd w 36), 1 * fmtWords (s.geo k (wf w 108 104)).out⟩ : Rng) ∈ (s.rqNamed k w).rngs := by
    refine List.mem_append_right _ ?_
    change _ ∈ rqWrites (s.geo k (wf w 108 104)) (opnd w 36).lb (s.ea k (opnd w 36)) (wf w 121 110 + 1)
    rw [rqWrites, if_neg hne, hn]
    exact List.mem_singleton_self _
  have hfit := of_decide_eq_true (List.all_eq_true.1 (fits_of_rngExcs hp.ranges) _ hrng)
  rw [Nat.one_mul, fmtWords_of_narrow hnarrow] at hfit
  obtain ⟨t, he, hm⟩ := compute_pcMoved (c := .rq dt k) rfl h rqNamed_tick rfl hp computed_rq
  rw [rq_one _ k hn, rqPos_narrow _ k (by rwa [issued_geo]) (by rwa [issued_geo]) (a := a) (r := r)
    (by rw [issued_ewOperand, issued_ea, ha]) (by rw [issued_geo, issued_gen, hr]), issued_ea] at hm
  refine ⟨t, he, hm.pc_eq, ?_, ?_⟩
  · rw [hm.readWs, readWs_setGen_addStats]
    exact readWs_writeWs _ k (packWords 8 16 r.1 1) hfit
  · rw [hm.fld, fld_addStats_cnt _ k k.isLt, fld_setGen_cnt _ k k.isLt, State.fld_writeWs,
      fld_of_keeps (issued_keeps s dt k) ⟨k.isLt, Nat.one_pos⟩ (by simp)]

end

/-- Settles O40: no compute word changes what its terms are computed from, so each entry takes the terms of the operands at issue, one after
another; EW and RQ write the one vector of results computed from them. -/
theorem computeWordsCompute : Obligations.ComputeWordsCompute := by
  intro dt k w s p g free start plus terms swept
  have may {n : Named} (hfree : free n) : s.mayIssue k n := by
    obtain ⟨he, hr, hb, hw, hs⟩ := hfree
    exact ⟨hr, he, hb, hw, hs⟩
  refine ⟨fun hout => ⟨fun hk h hf => ?_, fun hk h hf => ?_, fun hk h hf => ?_⟩, fun hk h hf => ?_, fun h hf hn hfn _ hout => ?_,
    fun h hf hn hnarrow hne => ?_⟩
  · exact sweeps_compute rfl rfl rfl hout (.inl hk) h (may hf)
  · exact sweeps_compute rfl rfl rfl hout (.inr hk) h (may hf)
  · exact pool_computes rfl rfl hout hk h (may hf)
  · exact slip_computes rfl rfl hk h (may hf)
  · exact ew_computes h (may hf) hn hfn hout rfl rfl
  · exact rq_computes h (may hf) hn hnarrow hne rfl rfl

end Sys2Proof.Machine
end

section
/-! A task starts on a tile (R130, R302, R303): its dispatch record and parameter registers, and what the start leaves. -/
namespace Sys2Proof.Machine

/-! ## Folds over the members of a list -/

/-- What each step of a fold makes true of its own element, and no step for an element of the list undoes, is true of every element
of the list after it. -/
theorem foldl_establishes_of_mem {σ α : Type} {P : σ → α → Prop} {f : σ → α → σ} {l : List α} (own : ∀ x ∈ l, ∀ s, P (f s x) x)
    (keep : ∀ x ∈ l, ∀ y ∈ l, ∀ s, P s y → P (f s x) y) (s : σ) {y : α} (hy : y ∈ l) : P (l.foldl f s) y := by
  have h := foldl_establishes (P := fun s (x : { x // x ∈ l }) => P s x.1) (f := fun s x => f s x.1) (fun s x => own x.1 x.2 s)
    (fun s x y => keep x.1 x.2 y.1 y.2 s) l.attach s (y := ⟨y, hy⟩) (List.mem_attach _ _)
  rwa [List.foldl_attach] at h

/-! ## A start, seen from the other tiles and from the tiles' storage -/

/-- `t` differs from `s` in tiles and registers alone: of the tiles, those of `ks` may run, and every tile keeps its rings and words. -/
structure Starts (s t : State) (ks : List Nat) : Prop where
  others : ∀ j, j ∉ ks → t.tile j = s.tile j
  tState : ∀ j < 1088, j ∉ ks → t.tState j = s.tState j
  rings : ∀ j, (t.tile j).rings = (s.tile j).rings
  words : ∀ j < 1088, ∀ lb a, t.readW j lb a = s.readW j lb a
  frame : t = { s with regs := t.regs, tiles := t.tiles }

theorem Starts.refl (s : State) (ks : List Nat) : Starts s s ks :=
  ⟨fun _ _ => rfl, fun _ _ _ => rfl, fun _ => rfl, fun _ _ _ _ => rfl, rfl⟩

theorem Starts.trans {s t u : State} {ks : List Nat} (h : Starts s t ks) (h' : Starts t u ks) : Starts s u ks where
  others j hj := (h'.others j hj).trans (h.others j hj)
  tState j hj hk := (h'.tState j hj hk).trans (h.tState j hj hk)
  rings j := (h'.rings j).trans (h.rings j)
  words j hj lb a := (h'.words j hj lb a).trans (h.words j hj lb a)
  frame := by rw [h'.frame, h.frame]

theorem Starts.mono {s t : State} {ks ks' : List Nat} (h : Starts s t ks) (hk : ∀ j ∈ ks, j ∈ ks') : Starts s t ks' :=
  { h with
    others := fun j hj => h.others j fun hm => hj (hk j hm)
    tState := fun j hlt hj => h.tState j hlt fun hm => hj (hk j hm) }

/-- A write of registers that hold neither a tile's state nor a tile's row map starts nothing. -/
theorem starts_of_onlyRegs {s t : State} {l : List (Reg × Nat × Nat)} (h : s.onlyRegs t) (hk : s.keeps t l)
    (hl : ∀ r ∈ l, r.1 ≠ .TILE_STAT ∧ r.1 ≠ .TILE_MAP) (ks : List Nat) : Starts s t ks where
  others j _ := tile_congr (onlyRegs_tiles h) j
  tState j hj _ := fld_of_keeps hk ⟨hj, Nat.one_pos⟩ fun hm => (hl _ hm).1 rfl
  rings j := by rw [tile_congr (onlyRegs_tiles h) j]
  words j hj := readW_congr (map_of_keeps hk hj fun _ hm => (hl _ hm).2 rfl) (by rw [tile_congr (onlyRegs_tiles h) j])
    (by rw [tile_congr (onlyRegs_tiles h) j])
  frame := by rw [show t = { s with regs := t.regs } from h]

/-! ## The start of one participant -/

/-- The parameter registers G1 to G7 of a dispatch (R303). -/
def DispRec.params (d : DispRec) : FMap Nat :=
  [(1, d.rank), (2, d.npM1 + 1), (3, d.lines), (4, d.rlast), (5, d.firstLine), (6, d.seg % 2 ^ 32), (7, d.seg / 2 ^ 32)].foldl
    (fun m q => mapSet 0 m q.1 q.2) []

theorem DispRec.mapGet_params (d : DispRec) : mapGet 0 d.params 1 = d.rank ∧ mapGet 0 d.params 2 = d.npM1 + 1 ∧
    mapGet 0 d.params 3 = d.lines ∧ mapGet 0 d.params 4 = d.rlast ∧ mapGet 0 d.params 5 = d.firstLine ∧
    mapGet 0 d.params 6 = d.seg % 2 ^ 32 ∧ mapGet 0 d.params 7 = d.seg / 2 ^ 32 := by
  simp [DispRec.params, mapGet_mapSet]

/-- Tile `k` runs the task of dispatch record `d` from word 0. -/
structure RunsTask (t : State) (k : Nat) (d : DispRec) : Prop where
  state : t.tState k = tRun
  pc : (t.tile k).pc = 0
  record : (t.tile k).disp = d
  params : (t.tile k).g = d.params

theorem RunsTask.congr {s t : State} {k : Nat} {d : DispRec} (h : RunsTask s k d) (ht : t.tile k = s.tile k)
    (hs : t.tState k = s.tState k) : RunsTask t k d :=
  ⟨hs.trans h.state, by rw [ht, h.pc], by rw [ht, h.record], by rw [ht, h.params]⟩

/-- Where a start on other tiles leaves a task running. -/
theorem RunsTask.starts {s t : State} {k : Nat} {d : DispRec} {ks : List Nat} (h : RunsTask s k d) (ht : Starts s t ks)
    (hk : k < 1088) (hn : k ∉ ks) : RunsTask t k d := h.congr (ht.others k hn) (ht.tState k hk hn)

/-- Tile `k` with a dispatch record and its generator loaded, before it enters RUN. -/
def State.loadTask (s : State) (k : Nat) (d : DispRec) : State :=
  (((s.modTile k fun x => { x with g := d.params, loops := [], groups := [], slots := [], convoy := none, disp := d }).setReg
    .TILE_MSE_SQ 0 k).setReg .TILE_MSE_CNT 0 k).rngLoad k

theorem startTile_eq (s : State) (k : Nat) (d : DispRec) : s.startTile k d = ((s.loadTask k d).setTState k tRun).enterPc k 0 := rfl

section
variable (s : State) {k : Nat} (d : DispRec)

theorem loadTask_tile : (s.loadTask k d).tile k = { s.tile k with
    g := d.params, loops := [], groups := [], slots := [], convoy := none, disp := d
    genX := ((s.loadTask k d).tile k).genX, genM := ((s.loadTask k d).tile k).genM } := by
  rw [State.loadTask, State.rngLoad, setGen_tile, tile_congr (State.setReg_tiles ..), tile_congr (State.setReg_tiles ..),
    State.tile_modTile_same]

theorem startTile_tile : (s.startTile k d).tile k = { s.tile k with
    g := d.params, loops := [], slots := [], convoy := none, disp := d, pc := 0, passed := false
    groups := ((s.startTile k d).tile k).groups
    genX := ((s.loadTask k d).tile k).genX, genM := ((s.loadTask k d).tile k).genM } := by
  rw [startTile_eq, (pcMoved_enterPc ((s.loadTask k d).setTState k tRun) k 0).tile, State.tile_setTState, loadTask_tile]

theorem onTile_setReg {r : Reg} (v : Nat) {l : List (Reg × Nat × Nat)} (hk : regHas r k 0) (hl : (r, k, 0) ∈ l) :
    OnTile s (s.setReg r v k) k l where
  others _ _ := rfl
  regs := keeps_mono (keeps_setReg s v hk) (by simpa using hl)
  frame := rfl

/-- The registers that the start of a task on tile `k` writes. -/
def startRegs (k : Nat) : List (Reg × Nat × Nat) :=
  [(.TILE_MSE_SQ, k, 0), (.TILE_MSE_CNT, k, 0), (.TILE_RNG_STEPS, k, 0), (.TILE_STAT, k, 0)]

theorem PcMoved.onTile {s t : State} {pc : Nat} (h : PcMoved s t k pc) (l : List (Reg × Nat × Nat)) : OnTile s t k l where
  others := h.others
  regs := keeps_of_regs l (by rw [h.frame])
  frame := by rw [h.frame]

theorem startTile_onTile (hk : k < 1088) : OnTile s (s.startTile k d) k (startRegs k) := by
  have hsq : regHas .TILE_MSE_SQ k 0 := ⟨hk, Nat.one_pos⟩
  have hcnt : regHas .TILE_MSE_CNT k 0 := ⟨hk, Nat.one_pos⟩
  have hload : OnTile s (s.loadTask k d) k (startRegs k) :=
    (((onTile_modTile s k _ _).trans (onTile_setReg _ 0 hsq (by simp [startRegs]))).trans
      (onTile_setReg _ 0 hcnt (by simp [startRegs]))).trans ((setGen_onTile _ ⟨k, hk⟩ _).mono (by simp [startRegs]))
  exact (hload.trans (onTile_setFld _ F.TILE_STAT_STATE tRun ⟨hk, Nat.one_pos⟩ (by simp [startRegs]))).trans
    ((pcMoved_enterPc _ k 0).onTile _)

/-- A start leaves what tiles store. -/
theorem startTile_storage (hk : k < 1088) (j : Nat) : ((s.startTile k d).tile j).rings = (s.tile j).rings ∧
    ((s.startTile k d).tile j).sp = (s.tile j).sp ∧ ((s.startTile k d).tile j).lb = (s.tile j).lb := by
  by_cases h : j = k
  · rw [h, startTile_tile]
    exact ⟨rfl, rfl, rfl⟩
  · rw [(startTile_onTile s d hk).others j h]
    exact ⟨rfl, rfl, rfl⟩

theorem startTile_starts (hk : k < 1088) : Starts s (s.startTile k d) [k] where
  others j hj := (startTile_onTile s d hk).others j (by simpa using hj)
  tState j hj hn := fld_of_keeps (startTile_onTile s d hk).regs ⟨hj, Nat.one_pos⟩ (by simpa [startRegs] using hn)
  rings j := (startTile_storage s d hk j).1
  words j hj :=
    have ⟨_, hsp, hlb⟩ := startTile_storage s d hk j
    readW_congr (map_of_keeps (startTile_onTile s d hk).regs hj fun e => by simp [startRegs]) hsp hlb
  frame := (startTile_onTile s d hk).frame

theorem startTile_runs : RunsTask (s.startTile k d) k d where
  state := by
    have hpc := pcMoved_enterPc ((s.loadTask k d).setTState k tRun) k 0
    rw [startTile_eq, State.tState, State.fld_congr (t := (s.loadTask k d).setTState k tRun) (by rw [hpc.frame])]
    exact State.fld_setFld_same _ F.TILE_STAT_STATE _ _ _ (by decide)
  pc := by rw [startTile_tile]
  record := by rw [startTile_tile]
  params := by rw [startTile_tile]

end

/-! ## The start of a crew's participants -/

/-- Each participant starts with the record of its rank (R302). -/
def State.startParts (s : State) (parts : List Nat) (d : Nat → DispRec) : State :=
  parts.zipIdx.foldl (fun s q => s.startTile q.1 (d q.2)) s

section
variable (s : State) {parts : List Nat} (d : Nat → DispRec)

theorem startParts_starts (hlt : ∀ j ∈ parts, j < 1088) : Starts s (s.startParts parts d) parts := by
  refine List.foldlRecOn (motive := fun u => Starts s u parts) _ _ (.refl s parts) fun u hu q hq => ?_
  have hmem : q.1 ∈ parts := List.fst_mem_of_mem_zipIdx hq
  exact hu.trans ((startTile_starts u (d q.2) (hlt _ hmem)).mono (by simpa using hmem))

/-- No other participant's start takes a tile from its task: the participants are distinct tiles. -/
theorem startParts_runs (hlt : ∀ j ∈ parts, j < 1088) (hnd : parts.Nodup) {i : Nat} (h : i < parts.length) :
    RunsTask (s.startParts parts d) parts[i] (d i) := by
  refine foldl_establishes_of_mem (P := fun s (q : Nat × Nat) => RunsTask s q.1 (d q.2)) (y := (parts[i], i))
    (fun q _ u => startTile_runs u (d q.2)) (fun q hq r hr u hu => ?_) s (List.mem_zipIdx_iff_getElem?.2 (List.getElem?_eq_getElem h))
  by_cases he : r.1 = q.1
  · have hq' := List.mem_zipIdx_iff_getElem?.1 hq
    have hr' := List.mem_zipIdx_iff_getElem?.1 hr
    have hrank : r.2 = q.2 := (List.getElem?_inj (List.getElem?_eq_some_iff.1 hr').1 hnd).1 (by rw [hq', hr', he])
    rw [he, hrank]
    exact startTile_runs u (d q.2)
  · exact hu.starts (startTile_starts u (d q.2) (hlt _ (List.fst_mem_of_mem_zipIdx hq))) (hlt _ (List.fst_mem_of_mem_zipIdx hr))
      (by simpa using he)

end

end Sys2Proof.Machine
end

section
/-! The dispatch of a task (R208, R302): a crew that nothing holds back starts the next task of its run. -/
namespace Sys2Proof.Machine

/-! ## What a dispatch looks at -/

/-- `t` differs from `s` in time, in its tiles but for their soft resets, and in its crews, where the crew of stripe entry `e` of unit `u`
differs in whether a copy is due alone. -/
structure SameCrew (s t : State) (u e : Nat) : Prop where
  frame : t = { s with now := t.now, aonNs := t.aonNs, tiles := t.tiles, crews := t.crews }
  resetting : ∀ j, (t.tile j).resetting = (s.tile j).resetting
  crew : ∃ b, t.crew u e = { s.crew u e with copyDue := b }

section
variable {s t : State} {u e : Nat} (h : SameCrew s t u e)
include h

theorem SameCrew.fld (f : Fld) (i j : Nat) : t.fld f i j = s.fld f i j := State.fld_congr (by rw [h.frame]) f i j

theorem SameCrew.slotSet (k i : Nat) : t.slotSet k i = s.slotSet k i := by rw [h.frame]; rfl

theorem SameCrew.workTile (k : Nat) : t.workTile k = s.workTile k := by rw [h.frame]; rfl

theorem SameCrew.crewParts (set : FMap DWord) : t.crewParts set u e = s.crewParts set u e := by
  obtain ⟨b, hb⟩ := h.crew
  simp only [State.crewParts, hb, h.workTile]

theorem SameCrew.crewPlan : t.crewPlan u e = s.crewPlan u e := by
  obtain ⟨b, hb⟩ := h.crew
  have hpkg : t.crewPkg u e = s.crewPkg u e := by rw [h.frame]; rfl
  rw [State.crewPlan, State.crewPlan, hpkg, hb]

theorem SameCrew.partsReady (ks : List Nat) : t.partsReady ks = s.partsReady ks := by
  simp only [State.partsReady, State.tState, State.colOpen, h.fld, h.resetting]

theorem SameCrew.dispatchable {c : Nat} {g : SegSt} {p : PkgPlan} (hd : s.dispatchable u e c g p) : t.dispatchable u e c g p := by
  obtain ⟨htask, hseq, hents, hseg, hheld, hway, hplan, hready, hnd, hlt⟩ := hd
  obtain ⟨b, hb⟩ := h.crew
  simp only [State.dispatchable, h.slotSet, h.crewParts, h.partsReady, h.crewPlan, h.fld]
  refine ⟨by rw [hb]; exact htask, ?_, ?_, ?_, ?_, hway, hplan, hready, hnd, hlt⟩ <;> rw [h.frame] <;> assumption

theorem SameCrew.dispatched {r : State} {g : SegSt} {p : PkgPlan} {lines : Nat} (hd : t.dispatched r u e g p lines) :
    s.dispatched r u e g p lines := by
  obtain ⟨b, hb⟩ := h.crew
  simpa only [State.dispatched, h.slotSet, h.crewParts, hb] using hd

end

theorem sameCrew_tick (s : State) (dt u e : Nat) : SameCrew s (s.tick dt) u e := ⟨rfl, fun _ => rfl, _, rfl⟩

/-! ## The dispatch -/

/-- The participants of the crew in a task of segment `g`, in rank order. -/
def State.partsOf (s : State) (u e : Nat) (g : SegSt) : List Nat := s.crewParts (s.slotSet u (g.slot.getD 0)) u e

/-- The dispatch record of rank `rank` for the crew's next task, of plan `p` on the closed segment `g` (R68, R302). -/
def State.taskRec (s : State) (u e : Nat) (g : SegSt) (p : PkgPlan) (rank : Nat) : DispRec :=
  let first := (s.crew u e).firstLine
  let lines := g.next - g.first
  ⟨p.base, p.words.length - 1, rank, (s.partsOf u e g).length - 1, segNum g.b g.part, first, lines,
    if g.closed ∧ g.short then (first + lines + 2 ^ 32 - 1) % 2 ^ 32 else 2 ^ 32 - 1⟩

/-- Crew `x` as it runs a task of segment `g` on the tiles `parts`. -/
def Crew.running (x : Crew) (g : SegSt) (parts : List Nat) : Crew :=
  { x with brk := false, started := false, firstLine := x.firstLine + (g.next - g.first), task := some ⟨g.b, g.part, parts, [], false⟩ }

/-- The device once the crew runs its task on the closed segment `g`. -/
def State.taskStarted (s : State) (u e : Nat) (g : SegSt) (p : PkgPlan) : State :=
  ((s.startParts (s.partsOf u e g) (s.taskRec u e g p)).setCrew u e ((s.crew u e).running g (s.partsOf u e g))).laybyFree.holdRefresh

section
variable {s : State} {u e c : Nat} {g : SegSt} {p : PkgPlan} (h : s.dispatchable u e c g p)
include h

/-- No entry is held or on its way, so the crew is as ready as it will be. -/
theorem readyCrew_of_dispatchable : s.readyCrew u e = (s, some (c, g, s.slotSet u (g.slot.getD 0))) := by
  obtain ⟨htask, hseq, hents, hseg, hheld, -⟩ := h
  have happly : s.crewApply u e g.b = s := by
    simp only [State.crewApply, hents, List.filter_nil]
    rfl
  simp [State.readyCrew, htask, hseq, hseg, hents, hheld, happly]

theorem dispatch_of_dispatchable (hclosed : g.closed = true) (hcopy : (s.crew u e).copyDue = false) (hbrk : (s.crew u e).brk = false)
    (n : Nat) : s.dispatch u e n = s.taskStarted u e g p := by
  obtain ⟨-, -, -, -, -, hway, hplan, hready, -⟩ := id h
  simp only [State.dispatch, readyCrew_of_dispatchable h, hway, hplan, hready, hcopy, hbrk, hclosed, Nat.zero_ne_one, if_false, if_true,
    Bool.false_and, Bool.not_true, Bool.or_self, Bool.false_eq_true, State.taskStarted, State.startParts,
    State.partsOf, State.taskRec, Crew.running]

end

/-! ## What the dispatch leaves -/

/-- The counts that the dispatch refreshes start nothing: they stand in RAS_STAT and RAS_HOLD. -/
theorem laybyFree_starts (s : State) (ks : List Nat) : Starts s s.laybyFree ks :=
  starts_of_onlyRegs (onlyRegs_setFld s F.RAS_STAT_LAYBY_FREE _ 0 0)
    (keeps_setFld s F.RAS_STAT_LAYBY_FREE _ ⟨Nat.one_pos, Nat.one_pos⟩) (by simp) ks

theorem holdRefresh_starts (s : State) (ks : List Nat) : Starts s s.holdRefresh ks :=
  List.foldlRecOn (motive := fun u => Starts s u ks) _ _ (.refl s ks) fun u hu _ hk => hu.trans
    (starts_of_onlyRegs (onlyRegs_setFld u F.RAS_HOLD_HOLDING _ _ 0)
      (keeps_setFld u F.RAS_HOLD_HOLDING _ ⟨List.mem_range.1 hk, Nat.one_pos⟩) (by simp) ks)

theorem refreshes_starts (s : State) : Starts s s.laybyFree.holdRefresh [] := (laybyFree_starts s []).trans (holdRefresh_starts _ [])

theorem Starts.crews {s t : State} {ks : List Nat} (h : Starts s t ks) : t.crews = s.crews := by rw [h.frame]

theorem crew_setCrew (s : State) (u e : Nat) (x : Crew) : (s.setCrew u e x).crew u e = x :=
  mapGet_mapSet_same crew0 s.crews (64 * u + e) x

theorem RunsTask.setCrew {s : State} {k : Nat} {d : DispRec} (h : RunsTask s k d) (u e : Nat) (x : Crew) :
    RunsTask (s.setCrew u e x) k d := h.congr rfl rfl

section
variable {s : State} {u e c : Nat} {g : SegSt} {p : PkgPlan} (h : s.dispatchable u e c g p)
include h

/-- The participants' starts, before the crew's record is written. -/
theorem partsStarted : Starts s (s.startParts (s.partsOf u e g) (s.taskRec u e g p)) (s.partsOf u e g) := by
  obtain ⟨-, -, -, -, -, -, -, -, -, hlt⟩ := h
  exact startParts_starts s _ hlt

theorem taskStarted_crews : (s.taskStarted u e g p).crews = mapSet crew0 s.crews (64 * u + e)
    ((s.crew u e).running g (s.partsOf u e g)) := by
  rw [State.taskStarted, (refreshes_starts _).crews, State.setCrew, (partsStarted h).crews]

theorem taskStarted_crew : (s.taskStarted u e g p).crew u e =
    (s.crew u e).running g (s.partsOf u e g) := by
  rw [State.crew, taskStarted_crews h, mapGet_mapSet_same]

theorem taskStarted_tile {j : Nat} (hj : j ∉ s.partsOf u e g) : (s.taskStarted u e g p).tile j = s.tile j :=
  ((refreshes_starts _).others j List.not_mem_nil).trans ((partsStarted h).others j hj)

theorem taskStarted_rings (j : Nat) : ((s.taskStarted u e g p).tile j).rings = (s.tile j).rings :=
  ((refreshes_starts _).rings j).trans ((partsStarted h).rings j)

theorem taskStarted_readW {j : Nat} (hj : j < 1088) (lb : Bool) (a : Nat) :
    (s.taskStarted u e g p).readW j lb a = s.readW j lb a :=
  ((refreshes_starts _).words j hj lb a).trans ((partsStarted h).words j hj lb a)

theorem taskStarted_frame : s.taskStarted u e g p =
    { s with regs := (s.taskStarted u e g p).regs, tiles := (s.taskStarted u e g p).tiles, crews := (s.taskStarted u e g p).crews } := by
  rw [State.taskStarted, (refreshes_starts _).frame, State.setCrew, (partsStarted h).frame]

theorem taskStarted_runs {i : Nat} (hi : i < (s.partsOf u e g).length) :
    RunsTask (s.taskStarted u e g p) (s.partsOf u e g)[i] (s.taskRec u e g p i) := by
  obtain ⟨-, -, -, -, -, -, -, -, hnd, hlt⟩ := h
  have hparts := startParts_runs s (s.taskRec u e g p) hlt hnd hi
  exact (hparts.setCrew u e ((s.crew u e).running g (s.partsOf u e g))).starts (refreshes_starts _)
    (hlt _ (List.getElem_mem hi)) List.not_mem_nil

theorem taskStarted_dispatched : s.dispatched (s.taskStarted u e g p) u e g p (g.next - g.first) := by
  refine ⟨by rw [taskStarted_crew h]; rfl, by rw [taskStarted_crew h]; rfl, by rw [taskStarted_crew h]; rfl, fun i hi => ?_⟩
  obtain ⟨hstate, hpc, hrecord, hparams⟩ := taskStarted_runs h hi
  obtain ⟨hrank, hcount, hlines, hlast, hfirst, hlow, hhigh⟩ := DispRec.mapGet_params (s.taskRec u e g p i)
  have hreg (j : Nat) (hj : j ≠ 0) : (s.taskStarted u e g p).gReg (s.partsOf u e g)[i] j = mapGet 0 (s.taskRec u e g p i).params j := by
    rw [State.gReg, if_neg hj, hparams]
  exact ⟨hstate, hpc, congrArg DispRec.routeBase hrecord, (hreg 1 (by decide)).trans hrank,
    (hreg 2 (by decide)).trans (hcount.trans (Nat.sub_add_cancel (Nat.one_le_of_lt hi))), (hreg 3 (by decide)).trans hlines,
    (hreg 4 (by decide)).trans hlast, (hreg 5 (by decide)).trans hfirst, (hreg 6 (by decide)).trans hlow, (hreg 7 (by decide)).trans hhigh⟩

end

theorem taskDispatch_next {s : State} {c : Nat} {g : SegSt} {p : PkgPlan} {dt : Nat} {u : Fin 16} {e : Fin 64}
    (h : s.dispatchable u e c g p) (hclosed : g.closed = true) (hcopy : (s.crew u e).copyDue = false)
    (hbrk : (s.crew u e).brk = false) (n : Fin 65537) :
    ∃ t, exec (.taskDispatch dt u e n) s = .next t ∧ s.dispatched t u e g p (g.next - g.first) ∧
      (∀ j, j ∉ s.partsOf u e g → t.tile j = s.tile j) ∧
      (∀ k, k ≠ 64 * u.val + e.val → mapGet crew0 t.crews k = mapGet crew0 s.crews k) ∧ s.sameMemory t ∧ t.out = s.out := by
  have hsame := sameCrew_tick s dt u e
  have htick := hsame.dispatchable h
  have hframe := taskStarted_frame htick
  refine ⟨(s.tick dt).taskStarted u e g p, congrArg Host.Outcome.next (dispatch_of_dispatchable htick hclosed hcopy hbrk n),
    hsame.dispatched (taskStarted_dispatched htick), fun j hj => taskStarted_tile htick hj, fun k hk => ?_,
    sameMemory_of_stores (by rw [hframe]; rfl) (by rw [hframe]; rfl), by rw [hframe]; rfl⟩
  rw [taskStarted_crews htick]
  exact mapGet_mapSet_ne crew0 s.crews _ hk

end Sys2Proof.Machine
end

section
/-! The run reset (R207, R282): the milestones of a run set, and the counts of the crew. -/
namespace Sys2Proof.Machine

/-- Milestone `m` as the run reset leaves it. -/
def State.msReset (s : State) (m : Nat) : State :=
  ((s.setFld F.MS_COUNT_COUNT 0 m).setFld F.MS_CFG_FIRED 0 m).setFld F.MS_TARGET_TARGET (s.fld F.MS_CFG_STRIDE m) m

theorem runReset_eq (s : State) (ms : List Nat) : s.runReset ms = ms.foldl State.msReset s := rfl

/-- Milestone `m` counts from zero to its first target. -/
structure MsFresh (t : State) (m : Nat) : Prop where
  count : t.fld F.MS_COUNT_COUNT m = 0
  fired : t.flag F.MS_CFG_FIRED m = false
  target : t.fld F.MS_TARGET_TARGET m = t.fld F.MS_CFG_STRIDE m

section
variable (s : State) {m : Nat} (hm : m < 16384)
include hm

/-- A field of a milestone after a write of another of its registers. -/
theorem fld_setFld_ms {f g : Fld} (v : Nat) (hf : f.reg = .MS_COUNT ∨ f.reg = .MS_TARGET ∨ f.reg = .MS_CFG)
    (hg : g.reg = .MS_COUNT ∨ g.reg = .MS_TARGET ∨ g.reg = .MS_CFG) (hne : g.reg ≠ f.reg) : (s.setFld f v m).fld g m = s.fld g m := by
  have own {r : Reg} (h : r = .MS_COUNT ∨ r = .MS_TARGET ∨ r = .MS_CFG) : regHas r m 0 := by
    obtain rfl | rfl | rfl := h <;> exact ⟨hm, Nat.one_pos⟩
  exact fld_of_keeps (keeps_setFld s f v (own hf)) (own hg) (by simp [hne])

theorem msReset_keeps : s.keeps (s.msReset m) (msRegs m) :=
  keeps_mono (keeps_trans (keeps_trans (keeps_setFld s F.MS_COUNT_COUNT 0 ⟨hm, Nat.one_pos⟩)
    (keeps_setFld _ F.MS_CFG_FIRED 0 ⟨hm, Nat.one_pos⟩)) (keeps_setFld _ F.MS_TARGET_TARGET _ ⟨hm, Nat.one_pos⟩)) (by simp [msRegs])

theorem msReset_stride : (s.msReset m).fld F.MS_CFG_STRIDE m = s.fld F.MS_CFG_STRIDE m := by
  rw [State.msReset, fld_setFld_ms _ hm _ (by simp) (by simp) (by decide),
    State.fld_setFld_other (f := F.MS_CFG_FIRED) (g := F.MS_CFG_STRIDE) _ _ _ _ rfl (by decide) (by decide),
    fld_setFld_ms _ hm _ (by simp) (by simp) (by decide)]

theorem msReset_fresh : MsFresh (s.msReset m) m where
  count := by
    rw [State.msReset, fld_setFld_ms _ hm _ (by simp) (by simp) (by decide), fld_setFld_ms _ hm _ (by simp) (by simp) (by decide),
      State.fld_setFld_same _ _ _ _ _ (by decide), Nat.zero_mod]
  fired := by
    rw [State.msReset, flag_congr (fld_setFld_ms _ hm _ (by simp) (by simp) (by decide)), flag_setFld_same _ _ _ _ _ (by decide)]
    rfl
  target := by
    rw [msReset_stride s hm, State.msReset, State.fld_setFld_same _ _ _ _ _ (by decide)]
    exact Nat.mod_eq_of_lt ((s.fld_lt F.MS_CFG_STRIDE m 0).trans (by decide))

/-- The reset of another milestone leaves one as it is. -/
theorem fld_msReset_ne {n : Nat} (hn : n < 16384) (h : n ≠ m) {f : Fld}
    (hf : f.reg = .MS_COUNT ∨ f.reg = .MS_TARGET ∨ f.reg = .MS_CFG) : (s.msReset m).fld f n = s.fld f n := by
  refine fld_of_keeps (msReset_keeps s hm) ?_ (by simp [msRegs, h])
  obtain e | e | e := hf <;> rw [e] <;> exact ⟨hn, Nat.one_pos⟩

theorem MsFresh.msReset {n : Nat} (hf : MsFresh s n) (hn : n < 16384) (h : n ≠ m) : MsFresh (s.msReset m) n where
  count := (fld_msReset_ne s hm hn h (by simp)).trans hf.count
  fired := (flag_congr (fld_msReset_ne s hm hn h (by simp))).trans hf.fired
  target := by rw [fld_msReset_ne s hm hn h (by simp), fld_msReset_ne s hm hn h (by simp), hf.target]

end

section
variable (s : State) {ms : List Nat}

theorem msReset_onlyRegs (m : Nat) : s.onlyRegs (s.msReset m) :=
  onlyRegs_trans (onlyRegs_setFld_setFld s F.MS_COUNT_COUNT F.MS_CFG_FIRED 0 0 m 0) (onlyRegs_setFld _ F.MS_TARGET_TARGET _ m 0)

theorem runReset_onlyRegs (ms : List Nat) : s.onlyRegs (s.runReset ms) := by
  rw [runReset_eq]
  exact foldl_rel (R := State.onlyRegs) onlyRegs_refl onlyRegs_trans (f := State.msReset) msReset_onlyRegs ms s

variable (hms : ∀ m ∈ ms, m < 16384)
include hms

theorem runReset_keeps : s.keeps (s.runReset ms) (ms.flatMap msRegs) := by
  rw [runReset_eq]
  exact List.foldlRecOn (motive := fun t : State => s.keeps t (ms.flatMap msRegs)) _ _ (keeps_refl s _) fun u hu m hm =>
    keeps_mono (keeps_trans hu (msReset_keeps u (hms m hm))) fun _ hx =>
      (List.mem_append.1 hx).elim id fun h => List.mem_flatMap.2 ⟨m, hm, h⟩

theorem runReset_stride {m : Nat} (hm : m < 16384) : (s.runReset ms).fld F.MS_CFG_STRIDE m = s.fld F.MS_CFG_STRIDE m := by
  rw [runReset_eq]
  refine List.foldlRecOn (motive := fun t : State => t.fld F.MS_CFG_STRIDE m = s.fld F.MS_CFG_STRIDE m) _ _ rfl fun u hu n hn => ?_
  refine Eq.trans ?_ hu
  by_cases h : m = n
  · rw [h]
    exact msReset_stride u (hms n hn)
  · exact fld_msReset_ne u (hms n hn) hm h (by simp)

/-- A milestone that the run set names twice is reset twice, to the same. -/
theorem runReset_fresh {m : Nat} (hm : m ∈ ms) : MsFresh (s.runReset ms) m := by
  rw [runReset_eq]
  refine foldl_establishes_of_mem (P := MsFresh) (fun n hn u => msReset_fresh u (hms n hn)) (fun n hn k hk u hu => ?_) s hm
  by_cases h : k = n
  · rw [h]
    exact msReset_fresh u (hms n hn)
  · exact hu.msReset u (hms n hn) (hms k hk) h

end

theorem runStart_eq (s : State) (u e : Nat) (parts ms : List Nat) : s.runStart u e parts ms = { s.runReset ms with
    busNext := (s.runStart u e parts ms).busNext
    crews := mapSet crew0 s.crews (64 * u + e) { s.crew u e with started := true, firstLine := 0, sent := 0 } } := by
  have hreset : s.runReset ms = { s with regs := (s.runReset ms).regs } := runReset_onlyRegs s ms
  have hcrews : (s.runReset ms).crews = s.crews := by rw [hreset]
  rw [← crew_congr hcrews u e, ← hcrews]
  rfl

section
variable {s : State} {c : Nat} {g : SegSt} {p : PkgPlan} {dt : Nat} {u : Fin 16} {e : Fin 64} (h : s.dispatchable u e c g p)
include h

/-- The reset runs where the crew is ready for a new run, and no arrival of its tiles is on its way. -/
theorem exec_runReset (hbrk : (s.crew u e).brk = true) (hstarted : (s.crew u e).started = false)
    (hfly : s.crewFlying (s.partsOf u e g) = false) : exec (.runReset dt u e) s =
      .next ((s.tick dt).runStart u e (s.partsOf u e g) (runMs p.runSet)) := by
  obtain ⟨-, -, -, -, -, -, hplan, hready, -⟩ := id h
  have hcrew := readyCrew_of_dispatchable ((sameCrew_tick s dt u e).dispatchable h)
  change execRunReset dt u e s = _
  simp only [execRunReset, State.partsOf, hcrew, (sameCrew_tick s dt u e).crewPlan, (sameCrew_tick s dt u e).crewParts,
    (sameCrew_tick s dt u e).partsReady, (sameCrew_tick s dt u e).slotSet, hplan, hready]
  exact if_pos ⟨hbrk, by rw [crew_congr (State.tick_crews s dt), hstarted]; rfl, trivial, by rw [Bool.not_eq_true']; exact hfly⟩

theorem runReset_next (hbrk : (s.crew u e).brk = true) (hstarted : (s.crew u e).started = false)
    (hfly : s.crewFlying (s.partsOf u e g) = false) (hms : ∀ m ∈ runMs p.runSet, m < 16384) :
    ∃ t, exec (.runReset dt u e) s = .next t ∧ t.crew u e = { s.crew u e with started := true, firstLine := 0, sent := 0 } ∧
      (∀ m ∈ runMs p.runSet, t.fld F.MS_COUNT_COUNT m = 0 ∧ t.flag F.MS_CFG_FIRED m = false ∧
        t.fld F.MS_TARGET_TARGET m = s.fld F.MS_CFG_STRIDE m) ∧
      s.keeps t ((runMs p.runSet).flatMap msRegs) ∧
      (∀ k, k ≠ 64 * u.val + e.val → mapGet crew0 t.crews k = mapGet crew0 s.crews k) ∧
      t = { s.tick dt with regs := t.regs, busNext := t.busNext, crews := t.crews } := by
  have hstart := runStart_eq (s.tick dt) u e (s.partsOf u e g) (runMs p.runSet)
  refine ⟨_, exec_runReset h hbrk hstarted hfly, ?_, fun m hm => ?_, keeps_of_tick (runReset_keeps (s.tick dt) hms), fun k hk => ?_, ?_⟩
  · rw [State.crew, hstart]
    exact mapGet_mapSet_same ..
  · obtain ⟨hcount, hfired, htarget⟩ := runReset_fresh (s.tick dt) hms hm
    exact ⟨hcount, hfired, htarget.trans (runReset_stride (s.tick dt) hms (hms m hm))⟩
  · rw [hstart]
    exact mapGet_mapSet_ne crew0 s.crews _ hk
  · have hreset : (s.tick dt).runReset (runMs p.runSet) = { s.tick dt with regs := ((s.tick dt).runReset (runMs p.runSet)).regs } :=
      runReset_onlyRegs (s.tick dt) _
    rw [hstart, hreset]

end

end Sys2Proof.Machine
end

section
/-! The copy of carried state to a layby tile (R220), and the dispatch that it holds up. -/
namespace Sys2Proof.Machine

/-! ## The copy -/

section
variable (s : State) (k : Nat) (lb : Bool)

theorem writeWs_tilesOnly (a : Nat) (cs : List Cell16) : s.writeWs k lb a cs = { s with tiles := (s.writeWs k lb a cs).tiles } := by
  induction cs generalizing s a with
  | nil => rfl
  | cons c cs ih =>
    have hone : s.writeW k lb a c = { s with tiles := (s.writeW k lb a c).tiles } := by cases lb <;> rfl
    rw [State.writeWs, ih, hone]

theorem readWs_length (a n : Nat) : (s.readWs k lb a n).length = n := by
  induction n generalizing a with
  | zero => rfl
  | succ n ih => rw [State.readWs, List.length_cons, ih]

theorem readWs_getElem {a n i : Nat} (hi : i < (s.readWs k lb a n).length) : (s.readWs k lb a n)[i] = s.readW k lb (a + i) := by
  induction n generalizing a i with
  | zero => exact absurd hi (Nat.not_lt_zero i)
  | succ n ih =>
    cases i with
    | zero => rfl
    | succ i =>
      rw [show a + (i + 1) = a + 1 + i by omega]
      exact ih (Nat.lt_of_succ_lt_succ hi)

end

section
variable (s : State) (from_ to_ : Nat) (lb : Bool) (a n : Nat)

/-- The copy of one declared range, and of the rings, between two tiles. -/
def State.carryOne : State := s.carry from_ to_ [(lb, a, n)]

/-- The range written, before the rings are. -/
def State.carryWords : State := s.writeWs to_ lb a (s.readWs from_ lb a n)

theorem carryOne_eq : s.carryOne from_ to_ lb a n =
    (s.carryWords from_ to_ lb a n).modTile to_ fun x => { x with rings := ((s.carryWords from_ to_ lb a n).tile from_).rings } := rfl

theorem carryOne_frame : s.carryOne from_ to_ lb a n = { s with tiles := (s.carryOne from_ to_ lb a n).tiles } := by
  have hwords : s.carryWords from_ to_ lb a n = { s with tiles := (s.carryWords from_ to_ lb a n).tiles } := writeWs_tilesOnly ..
  rw [carryOne_eq, State.modTile, State.setTile, hwords]

/-- Words alone change neither the rings of a tile nor its soft reset. -/
theorem carryWords_tile (j : Nat) : ((s.carryWords from_ to_ lb a n).tile j).rings = (s.tile j).rings ∧
    ((s.carryWords from_ to_ lb a n).tile j).resetting = (s.tile j).resetting := by
  by_cases h : j = to_
  · rw [h, State.carryWords, writeWs_tile]
    exact ⟨rfl, rfl⟩
  · rw [State.carryWords, (writeWs_onTile s to_ lb a _ []).others j h]
    exact ⟨rfl, rfl⟩

theorem carryOne_rings : ((s.carryOne from_ to_ lb a n).tile to_).rings = (s.tile from_).rings := by
  rw [carryOne_eq, State.tile_modTile_same]
  exact (carryWords_tile s from_ to_ lb a n from_).1

theorem carryOne_resetting (j : Nat) : ((s.carryOne from_ to_ lb a n).tile j).resetting = (s.tile j).resetting := by
  rw [← (carryWords_tile s from_ to_ lb a n j).2, carryOne_eq]
  by_cases h : j = to_
  · rw [h, State.tile_modTile_same]
  · rw [State.tile_modTile_ne _ _ h]

theorem carryOne_readW (hfit : a + n ≤ spaceWords lb) {i : Nat} (hi : i < n) :
    (s.carryOne from_ to_ lb a n).readW to_ lb (a + i) = s.readW from_ lb (a + i) := by
  have hlen : (s.readWs from_ lb a n).length = n := readWs_length ..
  have hrings : (s.carryOne from_ to_ lb a n).readW to_ lb (a + i) = (s.carryWords from_ to_ lb a n).readW to_ lb (a + i) :=
    readW_congr (s := s.carryWords from_ to_ lb a n) (t := s.carryOne from_ to_ lb a n) (fun _ _ => State.reg_congr rfl _ _ _)
      (by rw [carryOne_eq, State.tile_modTile_same]) (by rw [carryOne_eq, State.tile_modTile_same]) lb _
  rw [hrings, State.carryWords, readW_writeWs_in s to_ _ (by rwa [hlen]) (by rwa [hlen]), readWs_getElem]

theorem carryOne_fld (f : Fld) (i j : Nat) : (s.carryOne from_ to_ lb a n).fld f i j = s.fld f i j :=
  State.fld_congr (by rw [carryOne_frame]) f i j

end

/-! ## The copies of a crew -/

/-- The copy for entry `k` of RAS_DETOUR, where the entry stands for a tile of the span `span`. -/
def State.copyDetour (span : Nat × Nat) (rs : List (Bool × Nat × Nat)) (s : State) (k : Nat) : State :=
  if s.flag F.RAS_DETOUR_VALID k ∧ span.1 ≤ s.fld F.RAS_DETOUR_SLOW k ∧ s.fld F.RAS_DETOUR_SLOW k < span.1 + span.2 then
    s.carry (s.fld F.RAS_DETOUR_FWD k) (s.laybyTile k) rs
  else s

/-- Where one entry of RAS_DETOUR is valid, its copy is the only one. -/
theorem copyDetours_of_unique {s : State} {span : Nat × Nat} {k : Nat} (lb : Bool) (a n : Nat) (hk : k < 64)
    (hv : s.flag F.RAS_DETOUR_VALID k = true) (huniq : ∀ j < 64, s.flag F.RAS_DETOUR_VALID j = true → j = k)
    (hlo : span.1 ≤ s.fld F.RAS_DETOUR_SLOW k) (hhi : s.fld F.RAS_DETOUR_SLOW k < span.1 + span.2) :
    (List.range 64).foldl (State.copyDetour span [(lb, a, n)]) s = s.carryOne (s.fld F.RAS_DETOUR_FWD k) (s.laybyTile k) lb a n := by
  have skip {v : State} (hflag : ∀ j, v.flag F.RAS_DETOUR_VALID j = s.flag F.RAS_DETOUR_VALID j) {x : Nat} (hx : x < 64) (hne : x ≠ k) :
      v.copyDetour span [(lb, a, n)] x = v := if_neg fun h => hne (huniq x hx ((hflag x).symm.trans h.1))
  refine foldl_range_once (P := (· = s)) (Q := (· = s.carryOne (s.fld F.RAS_DETOUR_FWD k) (s.laybyTile k) lb a n)) hk rfl
    (fun x hx hne v hveq => ?_) (fun v hveq => ?_) (fun x hx hne v hveq => ?_)
  · rw [hveq, skip (fun _ => rfl) hx hne]
  · rw [hveq]
    exact if_pos ⟨hv, hlo, hhi⟩
  · rw [hveq, skip (fun j => flag_congr (carryOne_fld s _ _ lb a n _ j 0)) hx hne]

/-! ## The dispatch after the copy -/

/-- The crew with no copy due. -/
def State.copied (s : State) (u e : Nat) : State := s.setCrew u e { s.crew u e with copyDue := false }

theorem exec_detourCopyComplete {s : State} {dt c : Nat} {u : Fin 16} {e : Fin 64} {g : SegSt} (n : Fin 65537)
    (hseg : s.nextSeg u e = some (c, g)) (hdue : (s.crew u e).copyDue = true) (htask : (s.crew u e).task = none) :
    exec (.detourCopyComplete dt u e n) s = .next ((((List.range 64).foldl (State.copyDetour
      (crewSpan (s.slotSet u (g.slot.getD 0)) u e) (((s.crewPkg u e).map (·.carried)).getD [])) (s.tick dt)).copied u e).dispatch
        u e n) := by
  have hseg' : (s.tick dt).nextSeg u e = some (c, g) := hseg
  have hcond : ((s.tick dt).crew u e).copyDue = true ∧ ((s.tick dt).crew u e).task.isNone = true := ⟨hdue, by
    rw [crew_congr (State.tick_crews s dt), htask]
    rfl⟩
  change execDetourCopyComplete dt u e n s = _
  simp only [execDetourCopyComplete, hseg', if_pos hcond]
  rfl

/-- A copy leaves what the dispatch looks at. -/
theorem sameCrew_copied (s : State) (dt u e from_ to_ : Nat) (lb : Bool) (a n : Nat) :
    SameCrew s (((s.tick dt).carryOne from_ to_ lb a n).copied u e) u e where
  frame := by rw [State.copied, State.setCrew, carryOne_frame]; rfl
  resetting j := carryOne_resetting (s.tick dt) from_ to_ lb a n j
  crew := ⟨false, by
    rw [State.copied, crew_setCrew, crew_congr (show ((s.tick dt).carryOne from_ to_ lb a n).crews = s.crews by rw [carryOne_frame]; rfl)]⟩

theorem detourCopyComplete_next {s : State} {c : Nat} {g : SegSt} {p : PkgPlan} {dt : Nat} {u : Fin 16} {e : Fin 64}
    (h : s.dispatchable u e c g p) (hclosed : g.closed = true) (hdue : (s.crew u e).copyDue = true) (hbrk : (s.crew u e).brk = false)
    (n : Fin 65537) {k : Nat} {lb : Bool} {a len : Nat} (hk : k < 64) (hv : s.flag F.RAS_DETOUR_VALID k = true)
    (huniq : ∀ j < 64, s.flag F.RAS_DETOUR_VALID j = true → j = k)
    (hlo : (crewSpan (s.slotSet u (g.slot.getD 0)) u e).1 ≤ s.fld F.RAS_DETOUR_SLOW k)
    (hhi : s.fld F.RAS_DETOUR_SLOW k < (crewSpan (s.slotSet u (g.slot.getD 0)) u e).1 + (crewSpan (s.slotSet u (g.slot.getD 0)) u e).2)
    (hfit : a + len ≤ spaceWords lb) (hcarried : (s.crewPkg u e).map (·.carried) = some [(lb, a, len)])
    (hthere : s.laybyTile k < 1088) :
    ∃ t, exec (.detourCopyComplete dt u e n) s = .next t ∧ (t.crew u e).copyDue = false ∧
      (t.tile (s.laybyTile k)).rings = (s.tile (s.fld F.RAS_DETOUR_FWD k)).rings ∧
      (∀ i < len, t.readW (s.laybyTile k) lb (a + i) = s.readW (s.fld F.RAS_DETOUR_FWD k) lb (a + i)) ∧
      s.dispatched t u e g p (g.next - g.first) := by
  obtain ⟨htask, -, -, hseg, -⟩ := id h
  let w := ((s.tick dt).carryOne (s.fld F.RAS_DETOUR_FWD k) (s.laybyTile k) lb a len).copied u e
  have hcopies : (List.range 64).foldl (State.copyDetour (crewSpan (s.slotSet u (g.slot.getD 0)) u e)
      (((s.crewPkg u e).map (·.carried)).getD [])) (s.tick dt) =
      (s.tick dt).carryOne (s.fld F.RAS_DETOUR_FWD k) (s.laybyTile k) lb a len := by
    rw [hcarried]
    exact copyDetours_of_unique (s := s.tick dt) lb a len hk hv huniq hlo hhi
  have hsame : SameCrew s w u e := sameCrew_copied ..
  have hw : w.dispatchable u e c g p := hsame.dispatchable h
  have hcopy : (w.crew u e).copyDue = false := by rw [show w.crew u e = _ from crew_setCrew ..]
  have hbrkw : (w.crew u e).brk = false := by
    obtain ⟨b, hb⟩ := hsame.crew
    rw [hb]
    exact hbrk
  have hexec : exec (.detourCopyComplete dt u e n) s = .next (w.taskStarted u e g p) := by
    rw [exec_detourCopyComplete n hseg hdue htask, hcopies]
    exact congrArg Host.Outcome.next (dispatch_of_dispatchable hw hclosed hcopy hbrkw n)
  refine ⟨_, hexec, ?_, ?_, fun i hi => ?_, hsame.dispatched (taskStarted_dispatched hw)⟩
  · rw [taskStarted_crew hw]
    exact hcopy
  · exact (taskStarted_rings hw _).trans (carryOne_rings (s.tick dt) ..)
  · exact (taskStarted_readW hw hthere lb _).trans (carryOne_readW (s.tick dt) _ _ lb a len hfit hi)

/-- Settles O43: a ready crew dispatches its next task as it stands, the run reset makes the run set's milestones fresh one by one, and the
copy to the layby tile leaves what the dispatch looks at. -/
theorem tasksAreDispatched : Obligations.TasksAreDispatched := by
  intro dt u e c g p s h hclosed x parts
  exact ⟨fun hcopy hbrk n => taskDispatch_next h hclosed hcopy hbrk n,
    fun hbrk hstarted hfly hms => runReset_next h hbrk hstarted hfly hms,
    fun hdue hbrk n _ _ _ _ hk hv huniq hlo hhi hfit hcarried hthere =>
      detourCopyComplete_next h hclosed hdue hbrk n hk hv huniq hlo hhi hfit hcarried hthere⟩

end Sys2Proof.Machine
end

section
/-! Stream slots (R231, R232, R236): what acts on one slot of one engine, and what its fetch limit makes of its state. -/
namespace Sys2Proof.Machine

/-- `t` differs from `s` in slot `z` of engine `e` alone, which is `q` in state `c` in it. -/
structure ActsOnSlot (s t : State) (e z : Nat) (q : Slot) (c : Nat) : Prop where
  slot : t.slot e z = q
  state : t.fld F.STR_SLOT_STAT_STATE e z = c
  others : ∀ j, j ≠ 256 * e + z → mapGet slot0 t.slots j = mapGet slot0 s.slots j
  regs : s.keeps t [(.STR_SLOT_STAT, e, z)]
  frame : t = { s with regs := t.regs, slots := t.slots }

section
variable {s t : State} {e z c : Nat} {q : Slot}

/-- A direction is 0 (inbound) where the one-bit field is not set (R232). -/
theorem slotDir_eq_false (s : State) (e z : Nat) : s.flag F.STR_SLOT_RATE_DIR e z = false ↔ s.fld F.STR_SLOT_RATE_DIR e z = 0 := by
  have hlt : s.fld F.STR_SLOT_RATE_DIR e z < 2 := s.fld_lt F.STR_SLOT_RATE_DIR e z
  rw [State.flag, beq_eq_false_iff_ne]
  omega

theorem State.slot_congr (h : t.slots = s.slots) (e z : Nat) : t.slot e z = s.slot e z := by rw [State.slot, State.slot, h]

theorem ActsOnSlot.frame_onlyRegs {u : State} (h : ActsOnSlot s t e z q c) (hu : t.onlyRegs u) :
    u = { s with regs := u.regs, slots := u.slots } := by
  rw [State.onlyRegs] at hu
  rw [hu, h.frame]

theorem State.slot_setSlot_same (s : State) (e z : Nat) (q : Slot) : (s.setSlot e z q).slot e z = q :=
  mapGet_mapSet_same slot0 s.slots (256 * e + z) q

theorem actsOnSlot_setSlot (s : State) (e z : Nat) (q : Slot) : ActsOnSlot s (s.setSlot e z q) e z q (s.fld F.STR_SLOT_STAT_STATE e z) where
  slot := s.slot_setSlot_same e z q
  state := State.fld_congr rfl F.STR_SLOT_STAT_STATE e z
  others _ hj := mapGet_mapSet_ne slot0 s.slots q hj
  regs := keeps_of_regs _ rfl
  frame := rfl

theorem ActsOnSlot.setState (h : ActsOnSlot s t e z q c) (he : e < 4) (hz : z < 256) {v : Nat} (hv : v < 8) :
    ActsOnSlot s (t.setFld F.STR_SLOT_STAT_STATE v e z) e z q v where
  slot := (State.slot_congr (State.setFld_slots ..) e z).trans h.slot
  state := (State.fld_setFld_same _ F.STR_SLOT_STAT_STATE _ _ _ (by decide)).trans (Nat.mod_eq_of_lt hv)
  others j hj := by rw [State.setFld_slots]; exact h.others j hj
  regs := keeps_mono (keeps_trans h.regs (keeps_setFld t F.STR_SLOT_STAT_STATE v ⟨he, hz⟩)) (by simp)
  frame := h.frame_onlyRegs (onlyRegs_setFld ..)

/-- The state of a slot in use: held where an inbound position has come to the fetch limit, else streaming (R232, R236). -/
def refreshed (dir c : Nat) (q : Slot) : Nat := if c = 1 ∨ c = 2 then (if dir = 0 ∧ q.limit ≤ q.pos then 2 else 1) else c

theorem ActsOnSlot.refresh (h : ActsOnSlot s t e z q c) (he : e < 4) (hz : z < 256) :
    ActsOnSlot s (t.slotRefresh e z) e z q (refreshed (s.fld F.STR_SLOT_RATE_DIR e z) c q) := by
  have hdir : (!t.flag F.STR_SLOT_RATE_DIR e z) = true ↔ s.fld F.STR_SLOT_RATE_DIR e z = 0 := by
    rw [Bool.not_eq_true', slotDir_eq_false, fld_of_keeps h.regs ⟨he, hz⟩ (by simp)]
  simp only [State.slotRefresh, refreshed, h.state, h.slot]
  split
  · simp only [Bool.and_eq_true, hdir, decide_eq_true_eq]
    split
    · exact h.setState he hz (by decide)
    · exact h.setState he hz (by decide)
  · exact h

end

/-- What acts on a slot leaves a tile that it does not name. -/
theorem ActsOnSlot.tile {s t : State} {e z c : Nat} {q : Slot} (h : ActsOnSlot s t e z q c) (j : Nat) : t.tile j = s.tile j :=
  tile_congr (by rw [h.frame]) j

/-- The deadline of an inbound slot: at its rate, its credit lasts so long (R232). -/
theorem slotDeadline_in {s : State} {e z : Nat} (hd : s.fld F.STR_SLOT_RATE_DIR e z = 0) (q : Slot) :
    s.slotDeadline e z q = { q with dNum := q.t * s.fld F.STR_SLOT_RATE_RATE_MBPS e z + q.a * 1000,
                                    dDen := max (s.fld F.STR_SLOT_RATE_RATE_MBPS e z) 1 } := by
  simp only [State.slotDeadline, (slotDir_eq_false s e z).2 hd, Bool.false_eq_true, if_false]

/-- The deadline of an outbound slot: at its rate, the room left in its ring lasts so long (R232). -/
theorem slotDeadline_out {s : State} {e z : Nat} (hd : s.fld F.STR_SLOT_RATE_DIR e z = 1) (q : Slot) :
    s.slotDeadline e z q = { q with dNum := q.t * s.fld F.STR_SLOT_RATE_RATE_MBPS e z + (s.slotB e z - q.o) * 1000,
                                    dDen := max (s.fld F.STR_SLOT_RATE_RATE_MBPS e z) 1 } := by
  simp only [State.slotDeadline, State.flag, hd, beq_self_eq_true, if_true]

end Sys2Proof.Machine
end

section
/-! A stream word at its issue (R319 to R321): the slot it names is its tile's, and what it leaves. -/
namespace Sys2Proof.Machine

/-- Slot `z` of engine `e` is enabled and belongs to tile `k`; it is open or closed as `opened` says (R319). -/
def State.ownsSlot (s : State) (k e z : Nat) (opened : Bool) : Prop := s.flag F.STR_SLOT_RATE_EN e z = true ∧
  s.fld F.STR_SLOT_RATE_CLIENT e z = 0 ∧ s.slotTile e z = k ∧ (s.slot e z).opened = opened

section
variable {s : State} {k e z : Nat} {opened : Bool} (h : s.ownsSlot k e z opened)
include h

/-- A slot that is the tile's raises nothing where any direction serves (R319). -/
theorem slotBad_any : s.slotBad k e z none opened = [] := by
  obtain ⟨hen, hclient, htile, hopen⟩ := h
  simp [State.slotBad, hen, hclient, htile, hopen]

/-- A slot that is the tile's and of the direction asked for raises nothing (R319). -/
theorem slotBad_dir {d : Nat} (hd : s.fld F.STR_SLOT_RATE_DIR e z = d) : s.slotBad k e z (some d) opened = [] := by
  obtain ⟨hen, hclient, htile, hopen⟩ := h
  simp [State.slotBad, hen, hclient, htile, hopen, hd]

end

/-- What a stream word leaves: as `wordDone`, and the slots but its own stay. -/
def State.streamWordDone (s t : State) (dt k e z busy : Nat) (x : Tile) : Prop :=
  t.tile k = { x with pc := (s.tile k).pc + 1, passed := false, groups := (t.tile k).groups } ∧ (∀ j, j ≠ k → t.tile j = s.tile j) ∧
  t.tState k = tRun ∧ t.fld F.TILE_STAT_SB_BUSY k = busy ∧ (∀ j, j ≠ 256 * e + z → mapGet slot0 t.slots j = mapGet slot0 s.slots j) ∧
  s.keeps t [(.TILE_STAT, k, 0), (.STR_SLOT_STAT, e, z)] ∧ t = { s.tick dt with regs := t.regs, tiles := t.tiles, slots := t.slots }

section
variable {s : State} {dt op w e z c : Nat} {k : Fin 1088} {q : Slot}

/-- Every register but the tile's status reads as before when a word is issued. -/
theorem issued_fld {f : Fld} {i j : Nat} (hf : regHas f.reg i j) (hne : f.reg ≠ .TILE_STAT) : (s.issued dt k).fld f i j = s.fld f i j :=
  fld_of_keeps (issued_keeps s dt k) hf (by simp [hne])

theorem issued_slot (e z : Nat) : (s.issued dt k).slot e z = s.slot e z := State.slot_congr rfl e z

/-- The parts of the state that a stream word changes: its issue, its slot, its tile, and the PC. -/
theorem streamWord_frame {a b d v x : State} (hb : b = { a with regs := b.regs, tiles := b.tiles })
    (hd : d = { b with regs := d.regs, slots := d.slots }) (hv : v = { d with regs := v.regs, tiles := v.tiles })
    (hx : x = { v with tiles := x.tiles }) : x = { a with regs := x.regs, tiles := x.tiles, slots := x.slots } := by
  rw [hx, hv, hd, hb]

/-- A stream word that nothing holds back acts on its slot, then on its tile, and moves on. -/
theorem streamWord_next {names : State → Nat → Named} {effect : State → Nat → State} {i : Instr} {u v : State} {y : Tile} {busy : Nat}
    (hexec : exec i s = .next ((s.tick dt).issueNext k op names effect)) (h : s.issues k op w) (hp : s.passes k (names (s.tick dt) w))
    (hv : effect (s.issued dt k) w = v) (hu : ActsOnSlot (s.issued dt k) u e z q c) (htile : OnTile u v k [(.TILE_STAT, k.val, 0)])
    (hy : v.tile k = y) (hpc : y.pc = (s.tile k).pc) (hloops : y.loops = (s.tile k).loops) (he : e < 4) (hz : z < 256)
    (hrun : v.tState k = u.tState k) (hbusy : v.fld F.TILE_STAT_SB_BUSY k = busy) :
    ∃ t, exec i s = .next t ∧ t.slot e z = q ∧ t.fld F.STR_SLOT_STAT_STATE e z = c ∧ (∀ j, t.sbGet k j = v.sbGet k j) ∧
      s.streamWordDone t dt k e z busy y := by
  have hmoved := pcMoved_nextWord (s := v) (k := k) (by rw [hy, hpc, hloops]; exact h.2.2.2.2)
  have hslots : (v.nextWord k).slots = u.slots := by rw [hmoved.frame, htile.frame]
  have hregs : (v.nextWord k).regs = v.regs := by rw [hmoved.frame]
  have hkeeps : s.keeps v [(.TILE_STAT, k.val, 0), (.STR_SLOT_STAT, e, z)] :=
    keeps_mono (keeps_trans (keeps_trans (issued_keeps s dt k) hu.regs) htile.regs) (by simp)
  rw [hexec, issueNext_of_passes dt h hp, hv]
  refine ⟨_, rfl, ?_, ?_, fun j => ?_, ?_, fun j hj => ?_, ?_, ?_, fun j hj => ?_, keeps_congr hregs hkeeps, ?_⟩
  · rw [State.slot, hslots]
    exact hu.slot
  · rw [State.fld_congr hregs, fld_of_keeps htile.regs ⟨he, hz⟩ (by simp), hu.state]
  · rw [State.sbGet, hmoved.tile, State.sbGet]
  · rw [hmoved.tile, hy, hpc]
  · rw [hmoved.others j hj, htile.others j hj, hu.tile, issued_tile]
  · rw [State.tState, State.fld_congr hregs]
    exact hrun.trans ((fld_of_keeps hu.regs ⟨k.isLt, Nat.one_pos⟩ (by simp)).trans (issued_tState s dt k))
  · rw [State.fld_congr hregs, hbusy]
  · rw [hslots, hu.others j hj]
    rfl
  · exact streamWord_frame (issued_onTile s dt k).frame hu.frame htile.frame hmoved.frame

/-! ## What a stream word does to its tile beside its slot -/

variable {names : State → Nat → Named} {effect : State → Nat → State} {i : Instr} {u : State}

theorem actsOnSlot_busy (hu : ActsOnSlot (s.issued dt k) u e z q c) : u.fld F.TILE_STAT_SB_BUSY k = s.fld F.TILE_STAT_SB_BUSY k :=
  (fld_of_keeps hu.regs ⟨k.isLt, Nat.one_pos⟩ (by simp)).trans (issued_busy s dt k)

/-- A stream word that leaves its tile as it was. -/
theorem slotWord_next (hexec : exec i s = .next ((s.tick dt).issueNext k op names effect)) (h : s.issues k op w)
    (hp : s.passes k (names (s.tick dt) w)) (hv : effect (s.issued dt k) w = u) (hu : ActsOnSlot (s.issued dt k) u e z q c)
    (he : e < 4) (hz : z < 256) : ∃ t, exec i s = .next t ∧ t.slot e z = q ∧ t.fld F.STR_SLOT_STAT_STATE e z = c ∧
      s.streamWordDone t dt k e z (s.fld F.TILE_STAT_SB_BUSY k) (s.tile k) := by
  obtain ⟨t, hx, hslot, hstate, -, hdone⟩ := streamWord_next hexec h hp hv hu (.refl u k _) ((hu.tile k).trans (issued_tile s dt k k))
    rfl rfl he hz rfl (actsOnSlot_busy hu)
  exact ⟨t, hx, hslot, hstate, hdone⟩

/-- A stream word that changes the slots its tile lists. -/
theorem slotWord_modTile {f : Tile → Tile} (hexec : exec i s = .next ((s.tick dt).issueNext k op names effect)) (h : s.issues k op w)
    (hp : s.passes k (names (s.tick dt) w)) (hv : effect (s.issued dt k) w = u.modTile k f)
    (hu : ActsOnSlot (s.issued dt k) u e z q c) (hpc : (f (s.tile k)).pc = (s.tile k).pc)
    (hloops : (f (s.tile k)).loops = (s.tile k).loops) (he : e < 4) (hz : z < 256) :
    ∃ t, exec i s = .next t ∧ t.slot e z = q ∧ t.fld F.STR_SLOT_STAT_STATE e z = c ∧
      s.streamWordDone t dt k e z (s.fld F.TILE_STAT_SB_BUSY k) (f (s.tile k)) := by
  obtain ⟨t, hx, hslot, hstate, -, hdone⟩ := streamWord_next hexec h hp hv hu (onTile_modTile u k f _)
    (by rw [State.tile_modTile_same, hu.tile, issued_tile]) hpc hloops he hz (State.fld_modTile ..)
    ((State.fld_modTile ..).trans (actsOnSlot_busy hu))
  exact ⟨t, hx, hslot, hstate, hdone⟩

/-- A stream word that starts an operation, which takes the lowest free entry (R124). -/
theorem slotWord_alloc {x : SbEntry} {n : Nat} (hexec : exec i s = .next ((s.tick dt).issueNext k op names effect)) (h : s.issues k op w)
    (hp : s.passes k (names (s.tick dt) w)) (hv : effect (s.issued dt k) w = u.sbAlloc k x)
    (hu : ActsOnSlot (s.issued dt k) u e z q c) (hn : s.lowestFree k n) (he : e < 4) (hz : z < 256) :
    ∃ t, exec i s = .next t ∧ t.slot e z = q ∧ t.fld F.STR_SLOT_STAT_STATE e z = c ∧
      (∀ j, t.sbGet k j = if j = n then some x else s.sbGet k j) ∧
      s.streamWordDone t dt k e z (putBits (s.fld F.TILE_STAT_SB_BUSY k) n 1 1) { s.tile k with sb := (t.tile k).sb } := by
  have htile : u.tile k = s.tile k := (hu.tile k).trans (issued_tile s dt k k)
  have hy : (u.sbPut k n (some x)).tile k = { s.tile k with sb := ((u.sbPut k n (some x)).tile k).sb } := by rw [sbPut_tile, htile]
  rw [sbAlloc_of_lowestFree (lowestFree_congr htile hn)] at hv
  obtain ⟨t, hx, hslot, hstate, hsb, hdone⟩ := streamWord_next hexec h hp hv hu (sbPut_onTile u k n _) hy rfl rfl he hz
    (sbPut_tState ..) ((sbPut_busy u k hn.1 _).trans (by rw [actsOnSlot_busy hu, Option.isSome_some, if_pos rfl]))
  have hsb' : (t.tile k).sb = ((u.sbPut k n (some x)).tile k).sb := by rw [hdone.1]
  refine ⟨t, hx, hslot, hstate, fun j => ?_, by rw [hsb']; exact hdone⟩
  rw [hsb, sbGet_sbPut, State.sbGet, htile, State.sbGet]

end

end Sys2Proof.Machine
end

section
/-! The stream words (R231, R232, R236, R247, R319 to R321). -/
namespace Sys2Proof.Machine

theorem wEng_lt (w : Nat) : wEng w < 4 := bitsOf_lt w 16 2
theorem wSlot_lt (w : Nat) : wSlot w < 256 := bitsOf_lt w 18 8

section
variable {s : State} {dt w : Nat} {k : Fin 1088}

/-! The registers of the slot that a word names read at its issue as before. -/

theorem issued_slotState : (s.issued dt k).fld F.STR_SLOT_STAT_STATE (wEng w) (wSlot w) = s.fld F.STR_SLOT_STAT_STATE (wEng w) (wSlot w) :=
  issued_fld ⟨wEng_lt w, wSlot_lt w⟩ (by decide)

theorem issued_slotDir : (s.issued dt k).fld F.STR_SLOT_RATE_DIR (wEng w) (wSlot w) = s.fld F.STR_SLOT_RATE_DIR (wEng w) (wSlot w) :=
  issued_fld ⟨wEng_lt w, wSlot_lt w⟩ (by decide)

theorem issued_slotRate : (s.issued dt k).fld F.STR_SLOT_RATE_RATE_MBPS (wEng w) (wSlot w) =
    s.fld F.STR_SLOT_RATE_RATE_MBPS (wEng w) (wSlot w) := issued_fld ⟨wEng_lt w, wSlot_lt w⟩ (by decide)

theorem issued_slotLen : (s.issued dt k).slotLen (wEng w) (wSlot w) = s.slotLen (wEng w) (wSlot w) :=
  congrArg (· + 1) (issued_fld (f := F.STR_SLOT_BUF_LEN_M1) ⟨wEng_lt w, wSlot_lt w⟩ (by decide))

theorem issued_slotB : (s.issued dt k).slotB (wEng w) (wSlot w) = s.slotB (wEng w) (wSlot w) := congrArg (· * 16) issued_slotLen

theorem issued_slotSpace : (s.issued dt k).flag F.STR_SLOT_TILE_SPACE (wEng w) (wSlot w) = s.flag F.STR_SLOT_TILE_SPACE (wEng w) (wSlot w) :=
  flag_congr (issued_fld ⟨wEng_lt w, wSlot_lt w⟩ (by decide))

theorem issued_chunkAddr (j : Nat) : (s.issued dt k).chunkAddr (wEng w) (wSlot w) j = s.chunkAddr (wEng w) (wSlot w) j := by
  rw [State.chunkAddr, State.chunkAddr, issued_slot, issued_slotLen,
    issued_fld (f := F.STR_SLOT_BUF_BASE_W) ⟨wEng_lt w, wSlot_lt w⟩ (by decide)]

variable {e z : Nat} (he : wEng w = e) (hz : wSlot w = z)
include he hz

/-- SOPEN (R232, R319): a new slot, at the base or at the position kept. -/
theorem sopen_next (dt : Nat) (h : s.issues k 0x28 w) (ho : s.ownsSlot k e z false) (hlen : s.slotLen e z % (wf w 39 27 + 1) = 0) :
    let p := if wf w 26 26 = 1 then 0 else (s.slot e z).pos
    ∃ t, exec (.sopen dt k) s = .next t ∧
      t.slot e z = { slot0 with opened := true, t := (s.now + dt) % 2 ^ 64, dNum := (s.now + dt) % 2 ^ 64, start := p, pos := p,
                                limit := wf w 71 40 * 64, chw := wf w 39 27 + 1, cms := wf w 85 72, cmsEn := wf w 86 86 == 1 } ∧
      t.fld F.STR_SLOT_STAT_STATE e z = (if s.fld F.STR_SLOT_RATE_DIR e z = 0 ∧ wf w 71 40 * 64 ≤ p then 2 else 1) ∧
      s.streamWordDone t dt k e z (s.fld F.TILE_STAT_SB_BUSY k) { s.tile k with slots := (s.tile k).slots ++ [256 * e + z] } := by
  subst he hz
  intro p
  have hu := ((actsOnSlot_setSlot (s.issued dt k) (wEng w) (wSlot w) { slot0 with
    opened := true, t := (s.now + dt) % 2 ^ 64, dNum := (s.now + dt) % 2 ^ 64, start := p, pos := p, limit := wf w 71 40 * 64,
    chw := wf w 39 27 + 1, cms := wf w 85 72, cmsEn := wf w 86 86 == 1 }).setState (wEng_lt w) (wSlot_lt w) (v := 1)
      (by decide)).refresh (wEng_lt w) (wSlot_lt w)
  rw [issued_slotDir] at hu
  refine slotWord_modTile (i := .sopen dt k) (f := fun x => { x with slots := x.slots ++ [256 * wEng w + wSlot w] }) rfl h
    ⟨mayIssue_of_no_ranges _ k rfl rfl ?_ rfl rfl, rfl⟩ ?_ hu rfl rfl (wEng_lt w) (wSlot_lt w)
  · exact List.append_eq_nil_iff.2 ⟨slotBad_any ho, if_pos hlen⟩
  · simp only [State.slotOpen, issued_slot, beq_iff_eq]
    rfl

/-- SGET of a chunk that is delivered, or of a stream that has ended (R320). -/
theorem sget_delivered (dt : Nat) (h : s.issues k 0x29 w) (ho : s.ownsSlot k e z true) (hd : s.fld F.STR_SLOT_RATE_DIR e z = 0)
    (hlen : ((s.slot e z).taken - (s.slot e z).rel + 1) * (s.slot e z).chw ≤ s.slotLen e z)
    (hub : s.unblocked k [⟨true, s.flag F.STR_SLOT_TILE_SPACE e z, s.chunkAddr e z (s.slot e z).taken, (s.slot e z).chw⟩] 1)
    (hdel : ((s.slot e z).taken + 1) * (s.slot e z).chw * 16 ≤ (s.slot e z).deliv ∨ s.fld F.STR_SLOT_STAT_STATE e z = 3) :
    ∃ t, exec (.sget dt k) s = .next t ∧ t.slot e z = { s.slot e z with taken := (s.slot e z).taken + 1 } ∧
      t.fld F.STR_SLOT_STAT_STATE e z = s.fld F.STR_SLOT_STAT_STATE e z ∧
      s.streamWordDone t dt k e z (s.fld F.TILE_STAT_SB_BUSY k) (s.tile k) := by
  subst he hz
  have hu := actsOnSlot_setSlot (s.issued dt k) (wEng w) (wSlot w)
    { s.slot (wEng w) (wSlot w) with taken := (s.slot (wEng w) (wSlot w)).taken + 1 }
  rw [issued_slotState] at hu
  refine slotWord_next (i := .sget dt k) rfl h ⟨⟨hub.1, ?_, rfl, rfl, hub.2⟩, rfl⟩ ?_ hu (wEng_lt w) (wSlot_lt w)
  · exact List.append_eq_nil_iff.2 ⟨slotBad_dir ho hd, if_neg (Nat.not_lt.2 hlen)⟩
  · simp only [issued_slot, issued_slotState]
    exact if_pos hdel

/-- SGET of a chunk still to be delivered: an inbound entry holds its place (R124, R320). -/
theorem sget_awaited (dt : Nat) {n : Nat} (h : s.issues k 0x29 w) (ho : s.ownsSlot k e z true) (hd : s.fld F.STR_SLOT_RATE_DIR e z = 0)
    (hlen : ((s.slot e z).taken - (s.slot e z).rel + 1) * (s.slot e z).chw ≤ s.slotLen e z)
    (hub : s.unblocked k [⟨true, s.flag F.STR_SLOT_TILE_SPACE e z, s.chunkAddr e z (s.slot e z).taken, (s.slot e z).chw⟩] 1)
    (hdel : (s.slot e z).deliv < ((s.slot e z).taken + 1) * (s.slot e z).chw * 16) (hst : s.fld F.STR_SLOT_STAT_STATE e z ≠ 3)
    (hn : s.lowestFree k n) : ∃ t, exec (.sget dt k) s = .next t ∧ t.slot e z = { s.slot e z with taken := (s.slot e z).taken + 1 } ∧
      t.fld F.STR_SLOT_STAT_STATE e z = s.fld F.STR_SLOT_STAT_STATE e z ∧
      (∀ j, t.sbGet k j = if j = n then some ⟨true, s.flag F.STR_SLOT_TILE_SPACE e z, s.chunkAddr e z (s.slot e z).taken,
        (s.slot e z).chw, .streamIn e z, false⟩ else s.sbGet k j) ∧
      s.streamWordDone t dt k e z (putBits (s.fld F.TILE_STAT_SB_BUSY k) n 1 1) { s.tile k with sb := (t.tile k).sb } := by
  subst he hz
  have hu := actsOnSlot_setSlot (s.issued dt k) (wEng w) (wSlot w)
    { s.slot (wEng w) (wSlot w) with taken := (s.slot (wEng w) (wSlot w)).taken + 1 }
  rw [issued_slotState] at hu
  refine slotWord_alloc (i := .sget dt k) rfl h ⟨⟨hub.1, ?_, rfl, rfl, hub.2⟩, rfl⟩ ?_ hu hn (wEng_lt w) (wSlot_lt w)
  · exact List.append_eq_nil_iff.2 ⟨slotBad_dir ho hd, if_neg (Nat.not_lt.2 hlen)⟩
  · simp only [issued_slot, issued_slotState, issued_slotSpace, issued_chunkAddr]
    exact if_neg (by omega)

/-- SREL (R320): the oldest taken chunks are credit again, from now on. -/
theorem srel_next (dt : Nat) (h : s.issues k 0x2A w) (ho : s.ownsSlot k e z true) (hd : s.fld F.STR_SLOT_RATE_DIR e z = 0)
    (hn : wf w 33 26 + 1 ≤ (s.slot e z).taken - (s.slot e z).rel) :
    let q := s.slot e z
    let rate := s.fld F.STR_SLOT_RATE_RATE_MBPS e z
    let a := q.a - (wf w 33 26 + 1) * q.chw * 16
    let now := (s.now + dt) % 2 ^ 64
    ∃ t, exec (.srel dt k) s = .next t ∧
      t.slot e z = { q with rel := q.rel + (wf w 33 26 + 1), a := a, t := now, dNum := now * rate + a * 1000, dDen := max rate 1 } ∧
      t.fld F.STR_SLOT_STAT_STATE e z = s.fld F.STR_SLOT_STAT_STATE e z ∧
      s.streamWordDone t dt k e z (s.fld F.TILE_STAT_SB_BUSY k) (s.tile k) := by
  subst he hz
  intro q rate a now
  have hu := actsOnSlot_setSlot (s.issued dt k) (wEng w) (wSlot w)
    { q with rel := q.rel + (wf w 33 26 + 1), a := a, t := now, dNum := now * rate + a * 1000, dDen := max rate 1 }
  rw [issued_slotState] at hu
  refine slotWord_next (i := .srel dt k) rfl h ⟨mayIssue_of_no_ranges _ k rfl rfl ?_ rfl rfl, rfl⟩ ?_ hu (wEng_lt w) (wSlot_lt w)
  · exact List.append_eq_nil_iff.2 ⟨slotBad_dir ho hd, if_neg (Nat.not_lt.2 hn)⟩
  · simp only [issued_slot, slotDeadline_in (issued_slotDir.trans hd), issued_slotRate]
    rfl

/-- SPUT (R320): a chunk's words are announced, and an entry holds them until they are pulled. -/
theorem sput_next (dt : Nat) {n : Nat} (h : s.issues k 0x2B w) (ho : s.ownsSlot k e z true) (hd : s.fld F.STR_SLOT_RATE_DIR e z = 1)
    (hroom : (s.slot e z).o + (s.slot e z).chw * 16 ≤ s.slotB e z)
    (hub : s.unblocked k [⟨false, s.flag F.STR_SLOT_TILE_SPACE e z, s.chunkAddr e z (s.slot e z).ann, (s.slot e z).chw⟩] 1)
    (hn : s.lowestFree k n) :
    let q := s.slot e z
    let lb := s.flag F.STR_SLOT_TILE_SPACE e z
    let rate := s.fld F.STR_SLOT_RATE_RATE_MBPS e z
    let now := (s.now + dt) % 2 ^ 64
    let o := q.o + q.chw * 16
    ∃ t, exec (.sput dt k) s = .next t ∧
      t.slot e z = { q with o := o, t := now, data := q.data ++ s.readWs k lb (s.chunkAddr e z q.ann) q.chw, ann := q.ann + 1,
                            eos := q.eos || wf w 26 26 == 1, dNum := now * rate + (s.slotB e z - o) * 1000, dDen := max rate 1 } ∧
      t.fld F.STR_SLOT_STAT_STATE e z = s.fld F.STR_SLOT_STAT_STATE e z ∧
      (∀ j, t.sbGet k j = if j = n then some ⟨false, lb, s.chunkAddr e z q.ann, q.chw, .streamOut e z (wf w 26 26 == 1) [], false⟩
        else s.sbGet k j) ∧
      s.streamWordDone t dt k e z (putBits (s.fld F.TILE_STAT_SB_BUSY k) n 1 1) { s.tile k with sb := (t.tile k).sb } := by
  subst he hz
  intro q lb rate now o
  have hu := actsOnSlot_setSlot (s.issued dt k) (wEng w) (wSlot w)
    { q with o := o, t := now, data := q.data ++ s.readWs k lb (s.chunkAddr (wEng w) (wSlot w) q.ann) q.chw, ann := q.ann + 1,
             eos := q.eos || wf w 26 26 == 1, dNum := now * rate + (s.slotB (wEng w) (wSlot w) - o) * 1000, dDen := max rate 1 }
  rw [issued_slotState] at hu
  refine slotWord_alloc (i := .sput dt k) rfl h ⟨⟨hub.1, slotBad_dir ho hd, rfl, decide_eq_false (Nat.not_lt.2 hroom), hub.2⟩, rfl⟩ ?_
    hu hn (wEng_lt w) (wSlot_lt w)
  simp only [State.slotAnnounce, issued_slot, issued_slotSpace, issued_chunkAddr, issued_readWs, readWs_length,
    slotDeadline_out (issued_slotDir.trans hd), issued_slotRate, issued_slotB]
  rfl

/-- SCLOSE (R320) of a slot for which no operation of the tile is under way: the position is kept. -/
theorem sclose_next (dt : Nat) (h : s.issues k 0x2C w) (ho : s.ownsSlot k e z true)
    (hsb : (s.sbList k).any (fun y => y.2.ofSlot e z) = false) :
    let q := s.slot e z
    ∃ t, exec (.sclose dt k) s = .next t ∧ t.slot e z = { slot0 with
        pos := if s.fld F.STR_SLOT_RATE_DIR e z = 1 then q.start + q.pulled else q.start + q.taken * q.chw * 16 } ∧
      t.fld F.STR_SLOT_STAT_STATE e z = 0 ∧ s.streamWordDone t dt k e z (s.fld F.TILE_STAT_SB_BUSY k)
        { s.tile k with slots := (s.tile k).slots.filter (· != 256 * e + z) } := by
  subst he hz
  intro q
  have hu := (actsOnSlot_setSlot (s.issued dt k) (wEng w) (wSlot w) { slot0 with
    pos := if s.fld F.STR_SLOT_RATE_DIR (wEng w) (wSlot w) = 1 then q.start + q.pulled else q.start + q.taken * q.chw * 16 }).setState
      (wEng_lt w) (wSlot_lt w) (v := 0) (by decide)
  refine slotWord_modTile (i := .sclose dt k) (f := fun x => { x with slots := x.slots.filter (· != 256 * wEng w + wSlot w) }) rfl h
    ⟨mayIssue_of_no_ranges _ k rfl rfl (slotBad_any ho) rfl hsb, rfl⟩ ?_ hu rfl rfl (wEng_lt w) (wSlot_lt w)
  simp only [State.slotClose, State.flag, issued_slot, issued_slotDir, beq_iff_eq]
  rfl

/-- GIVEWAY (R236, R321) whose milestone is reached: the fetch limit rises, never falls. -/
theorem giveway_next (dt : Nat) (h : s.issues k 0x2D w) (ho : s.ownsSlot k e z true)
    (hms : s.msReached (wf w 39 26) ((s.gReg k (wf w 75 72) + wf w 71 40) % 2 ^ 32) = true) :
    let q := s.slot e z
    let st := s.fld F.STR_SLOT_STAT_STATE e z
    let l := max q.limit ((s.gReg k (wf w 111 108) + wf w 107 76) % 2 ^ 32 * 64)
    ∃ t, exec (.giveway dt k) s = .next t ∧ t.slot e z = { q with limit := l } ∧
      t.fld F.STR_SLOT_STAT_STATE e z = (if st = 1 ∨ st = 2 then (if s.fld F.STR_SLOT_RATE_DIR e z = 0 ∧ l ≤ q.pos then 2 else 1) else st) ∧
      s.streamWordDone t dt k e z (s.fld F.TILE_STAT_SB_BUSY k) (s.tile k) := by
  subst he hz
  intro q st l
  have hu := (actsOnSlot_setSlot (s.issued dt k) (wEng w) (wSlot w) { q with limit := l }).refresh (wEng_lt w) (wSlot_lt w)
  rw [issued_slotState, issued_slotDir] at hu
  refine slotWord_next (i := .giveway dt k) rfl h ⟨mayIssue_of_no_ranges _ k rfl rfl (slotBad_any ho) rfl rfl, ?_⟩ ?_ hu
    (wEng_lt w) (wSlot_lt w)
  · exact (congrArg (!(s.tile k).passed && !·) hms).trans (Bool.and_false _)
  · simp only [issued_slot, issued_gReg]
    rfl

end

/-- Settles O41: what each stream word leaves. -/
theorem streamWordsActOnTheirSlot : Obligations.StreamWordsActOnTheirSlot := by
  intro dt k w s x e z q now rate busy st lb mine dir done entry
  exact ⟨fun h ho hlen => sopen_next rfl rfl dt h ho hlen,
    fun h ho hd hlen hub => ⟨fun hdel => sget_delivered rfl rfl dt h ho hd hlen hub hdel,
      fun hdel hst _ hi hfree hlow => sget_awaited rfl rfl dt h ho hd hlen hub hdel hst ⟨hi, hfree, hlow⟩⟩,
    fun h ho hd hn => srel_next rfl rfl dt h ho hd hn,
    fun h ho hd hroom hub _ hi hfree hlow => by
      obtain ⟨t, hx, hslot, hstate, hsb, hdone⟩ := sput_next rfl rfl dt h ho hd hroom hub ⟨hi, hfree, hlow⟩
      exact ⟨t, hx, hslot, hsb, hstate, hdone⟩,
    fun h ho hsb => sclose_next rfl rfl dt h ho hsb,
    fun h ho hms => giveway_next rfl rfl dt h ho hms⟩

end Sys2Proof.Machine
end

section
/-! The choice of a stream engine (R233) looks at the time: a best-effort slot goes before a guaranteed one only while the guaranteed one's
deadline is further off than the slack, or the best-effort credit is not negative. A choice read before the time of a command passes need not
be the choice that the command acts on. -/
namespace Sys2Proof.Machine

/-- An engine that is on acts on its choice at the command's own time (R233). -/
theorem streamRequestIssue_of_choice {s : State} {dt z : Nat} {k : Fin 4} {best : Bool} (hon : s.domOn (6 + k.val) = true)
    (hc : (s.tick dt).engineChoice k = some (z, best)) :
    exec (.streamRequestIssue dt k) s = .next ((s.tick dt).engineTake k z best) :=
  (if_pos (by exact hon)).trans (congrArg Host.Outcome.next (by rw [State.engineIssue, hc]))

/-- An inbound slot at 16 MB/s after its first request of 64 bytes, delivered and held: its deadline is 4,000 ns (R232). -/
def sluggishSlot : Slot := { slot0 with opened := true, a := 64, dNum := 64000, dDen := 16, pos := 64, limit := 128, deliv := 64 }

/-- The registers of slot `z` of engine 0 as `sluggishSlot` runs on them: two rows of 64 bytes, a ring of 128, class `class_` (R228 to R230). -/
def State.withSluggish (s : State) (z class_ : Nat) : State :=
  (((((s.setFld F.STR_SLOT_RATE_EN 1 0 z).setFld F.STR_SLOT_RATE_CLASS class_ 0 z).setFld F.STR_SLOT_RATE_RATE_MBPS 16 0 z).setFld
    F.STR_SLOT_ROWS_ROWS_M1 1 0 z).setFld F.STR_SLOT_BUF_LEN_M1 7 0 z).setFld F.STR_SLOT_STAT_STATE 1 0 z

/-- Engine 0, on, with a best-effort slot 0, a guaranteed slot 1 and a negative best-effort credit, at time 0. -/
def contestedEngine : State :=
  (({ State.reset with slots := [(0, sluggishSlot), (1, sluggishSlot)], engines := [(0, { engine0 with credit := -64000 })] } : State).setFld
    F.PWR_DOM_STATE 1 6).withSluggish 0 0 |>.withSluggish 1 1

/-- At time 0 the guaranteed slot can wait longer than the slack of 2,000 ns, so the best-effort slot is chosen. -/
theorem contestedEngine_choice : contestedEngine.engineChoice (0 : Fin 4) = some (0, true) := by decide +kernel

/-- After 2,000 ns it cannot, and it is chosen. -/
theorem contestedEngine_later_choice : (contestedEngine.tick 2000).engineChoice (0 : Fin 4) = some (1, false) := by decide +kernel

/-- The engine's domain is on, no page migrates, slot 0 is inbound, and nothing is outstanding. -/
theorem contestedEngine_runs : contestedEngine.domOn (6 + (0 : Fin 4).val) = true ∧ contestedEngine.flag F.RAS_PMIG_EN = false ∧
    contestedEngine.fld F.STR_SLOT_RATE_DIR 0 0 = 0 ∧ (contestedEngine.engine (0 : Fin 4)).outst = [] := by decide +kernel

/-- The slots of the reads outstanding at engine `k` in the state that a command answers. -/
def outstandingSlots (k : Fin 4) : Answer → List Nat
  | .next t => (t.engine k).outst.map OutReq.slot
  | _ => []

/-- The read that STREAM_REQUEST_ISSUE issues is the guaranteed slot's. -/
theorem contestedEngine_issues : outstandingSlots 0 (exec (.streamRequestIssue 2000 0) contestedEngine) = [1] := by
  rw [streamRequestIssue_of_choice contestedEngine_runs.1 contestedEngine_later_choice]
  decide +kernel

/-- Refutes O45: the statement takes the engine's choice from the state before the command, and the command chooses at its own time, `dt` later
(R233). With nothing outstanding the read of slot 0 that it promises is the read of slot 1. -/
theorem not_enginesServeStreamsAndRequests : ¬ Obligations.EnginesServeStreamsAndRequests := by
  intro h
  obtain ⟨hon, hmig, hdir, hidle⟩ := contestedEngine_runs
  obtain ⟨hstreams, -⟩ := h 2000 0 contestedEngine hmig
  obtain ⟨hread, -⟩ := hstreams 0 true hon contestedEngine_choice
  obtain ⟨t, hexec, houtst, -⟩ := hread hdir
  have hslots : [0] = [1] := by rw [← contestedEngine_issues, hexec, outstandingSlots, houtst, hidle]; rfl
  exact absurd hslots (by decide)

end Sys2Proof.Machine
end

section
/-! The void map of a table (R255): a row's bit lies in a byte of HBM, which CAT_VOID reads and writes back with that one bit changed. -/
namespace Sys2Proof.Machine

/-! ## A byte of HBM at its device address (R222) -/

/-- A mapped byte lies in the physical unit of 64 bytes of its device unit, at the same place: a unit is in one page of one stack. -/
theorem hbmPhys_unit {s : State} {a q : Nat} (h : s.hbmPhys a = some q) : ∃ u, s.hbmPhys (a / 64 * 64) = some u ∧ q = u + a % 64 := by
  have hstack : a / 64 * 64 / stackBytes = a / stackBytes := by unfold stackBytes; omega
  have hpage : a / 64 * 64 % stackBytes / pageBytes = a % stackBytes / pageBytes := by unfold stackBytes pageBytes; omega
  have hplace : a % stackBytes % pageBytes = a / 64 * 64 % stackBytes % pageBytes + a % 64 := by unfold stackBytes pageBytes; omega
  simp only [State.hbmPhys] at h ⊢
  rw [hstack, hpage]
  split at h
  · next hmapped =>
    rw [if_pos hmapped]
    refine ⟨_, rfl, ?_⟩
    rw [← Option.some.inj h, hplace]
    omega
  · cases h

/-- A read from within what is read. -/
theorem drop_hbmReadPhys (s : State) (p n i : Nat) : (s.hbmReadPhys p n).drop i = s.hbmReadPhys (p + i) (n - i) := by
  induction n generalizing p i with
  | zero => simp [State.hbmReadPhys]
  | succ n ih =>
    cases i with
    | zero => rfl
    | succ i => rw [State.hbmReadPhys, List.drop_succ_cons, ih, Nat.add_sub_add_right, Nat.add_right_comm, Nat.add_assoc]

/-- The catalogue engine reads a mapped byte as HBM holds it. -/
theorem catWord_byte {s : State} {a q : Nat} (h : s.hbmPhys a = some q) : (s.catWord a 1).1 = (s.hbmByte q).toNat := by
  obtain ⟨u, hu, rfl⟩ := hbmPhys_unit h
  obtain ⟨m, hm⟩ : ∃ m, 64 - a % 64 = m + 1 := ⟨63 - a % 64, by omega⟩
  have hunit : (s.catUnits (a / 64 * 64) 1).drop (a % 64) = s.hbmReadPhys (u + a % 64) (m + 1) := by
    simp only [State.catUnits, hu, List.append_nil, drop_hbmReadPhys, hm]
  rw [State.catWord, hunit]
  simp [State.hbmReadPhys, leNat]

/-- With no page migration a write to a mapped address writes the bytes there, and nowhere else (R431). -/
theorem hbmWrite_of_mapped {s : State} {a q : Nat} (h : s.hbmPhys a = some q) (hm : s.flag F.RAS_PMIG_EN = false) (bs : List Byte)
    (poison : Bool) : s.hbmWrite a bs poison = s.hbmWritePhys q bs poison := by
  have hregs : (s.hbmWritePhys q bs poison).regs = s.regs := by rw [hbmWritePhys_else]
  have hoff : (s.hbmWritePhys q bs poison).flag F.RAS_PMIG_EN = false := (flag_congr (State.fld_congr hregs _ _ _)).trans hm
  simp only [State.hbmWrite, h, State.hbmWriteMig, hoff, Bool.false_eq_true, false_and, if_false]

/-! ## The register's own rule -/

/-- `t` is `s` with the bit of `row` in the void-map byte `q` cleared or set, and every other byte of HBM and of the depot as it was. -/
def State.voids (s t : State) (q row : Nat) (clear : Bool) : Prop :=
  t.hbmByte q = BitVec.ofNat 8 (putBits (s.hbmByte q).toNat (row % 8) 1 (if clear then 0 else 1)) ∧
  (∀ a, a ≠ q → t.hbmByte a = s.hbmByte a) ∧ ∀ a, t.depByte a = s.depByte a

theorem voids_of_sameMemory {s t u : State} {q row : Nat} {clear : Bool} (h : s.voids t q row clear) (hm : t.sameMemory u) :
    s.voids u q row clear := by
  obtain ⟨hq, hother, hdep⟩ := h
  obtain ⟨hmdep, hmhbm⟩ := hm
  exact ⟨(hmhbm q).trans hq, fun a ha => (hmhbm a).trans (hother a ha), fun a => (hmdep a).trans (hdep a)⟩

/-- `v` as a value of CAT_VOID names this table and row, and whether its bit is cleared (R275). -/
structure VoidNames (v k row : Nat) (clear : Bool) : Prop where
  table : bitsOf v 56 6 = k
  row : v % 2 ^ 30 = row
  clear : bitsOf v 63 1 = if clear then 1 else 0

/-- The row is one of an enabled table, its void-map byte is the physical byte `q`, and no page migrates. -/
structure State.VoidAt (s : State) (k row q : Nat) : Prop where
  enabled : s.flag F.CAT_TAB_FMT_EN k = true
  inTable : row < s.fld F.CAT_TAB_ROWS_ROWS k
  mapped : s.hbmPhys (s.fld F.CAT_TAB_VMAP_ADDR k * 64 + row / 8) = some q
  unmigrated : s.flag F.RAS_PMIG_EN = false

theorem State.VoidAt.tick {s : State} {k row q : Nat} (h : s.VoidAt k row q) (dt : Nat) : (s.tick dt).VoidAt k row q :=
  ⟨h.enabled, h.inTable, h.mapped, h.unmigrated⟩

section
variable {s : State} {k row q v : Nat} {clear : Bool} (hat : s.VoidAt k row q) (hv : VoidNames v k row clear) (r : Requester)
include hat hv

/-- CAT_VOID writes its row's byte back with the row's bit changed. -/
theorem catVoid_eq : s.catVoid r v =
    s.hbmWritePhys q [BitVec.ofNat 8 (putBits (s.hbmByte q).toNat (row % 8) 1 (if clear then 0 else 1))] false := by
  obtain ⟨rfl, rfl, hclear⟩ := hv
  have hbit : (if bitsOf v 63 1 = 1 then 0 else 1) = if clear then 0 else 1 := by rw [hclear]; cases clear <;> rfl
  simp only [State.catVoid]
  rw [if_pos ⟨hat.enabled, hat.inTable⟩, hbmWrite_of_mapped hat.mapped hat.unmigrated, catWord_byte hat.mapped, hbit]

theorem catVoid_voids : s.voids (s.catVoid r v) q row clear := by
  rw [catVoid_eq hat hv]
  refine ⟨hbmWritePhys_in s q [_] false 0 Nat.one_pos, fun a ha => hbmWritePhys_out s q _ false a ?_, fun a => ?_⟩
  · rw [List.length_singleton]
    omega
  · rw [hbmWritePhys_else]
    rfl

theorem catVoid_keeps : s.keeps (s.catVoid r v) [] := by
  rw [catVoid_eq hat hv]
  exact keeps_of_regs [] (by rw [hbmWritePhys_else])

/-- A write of CAT_VOID that reaches the register (R255, R275). -/
theorem catVoidWrite_next {d : DWord} (hd : d.toNat = v) (dt : Nat)
    (ha : s.access (regAddr .CAT_VOID_REG) 8 = .ok (hitOf .CAT_VOID_REG 0 0)) :
    ∃ t, exec (.catVoidWrite dt r d) s = .next t ∧ s.voids t q row clear ∧ s.keeps t [] := by
  subst hd
  have hat' := hat.tick dt
  exact ⟨_, congrArg Host.Outcome.next (accessing_of_ok ((access_tick s dt _ 8).trans ha) r _ _),
    catVoid_voids hat' hv r, keeps_of_tick (catVoid_keeps hat' hv r)⟩

end

end Sys2Proof.Machine
end

section
/-! A command that path C executes (R363, R365), admitted with nothing waiting: its own effect and its reply are all that it does. -/
namespace Sys2Proof.Machine

section
variable {s : State} {c : Instr} {dt : Nat} {h : CmdHdr} {p : List Word} {op : Nat} {ms : List Nat}
  (hc : commandOf c = some (dt, h, p, false, op, ms)) (ht : s.takes c = true)
include hc ht

theorem takes_quiet_admitted : s.csmQuiet = true ∧ s.admitCode h p op ms = none := by
  simpa only [State.takes, hc, Bool.and_eq_true, Option.isNone_iff_eq_none, Bool.not_false, Bool.true_or, and_true] using ht

theorem cmd_of_takes (d : Nat) (f : State → State) : (s.tick d).cmd h p op ms f = f (s.tick d) := by
  rw [State.cmd, show (s.tick d).admitCode h p op ms = none from (takes_quiet_admitted hc ht).2]

end

/-- A final reply changes no byte of the memories. -/
theorem reply_sameMemory (s : State) (h : CmdHdr) (st : Nat) (w : List Nat) : s.sameMemory (s.reply h st w) := by
  have hr : s.reply h st w = (s.reply h st w).withStores s := (reply_withStores s s h st w).symm
  exact sameMemory_of_stores (by rw [hr]; rfl) (by rw [hr]; rfl)

end Sys2Proof.Machine
end

section
/-! The catalogue commands (R365): CAT_REQUEST queues its descriptor on the host queue (R261), and CAT_VOID acts as the register (R255). -/
namespace Sys2Proof.Machine

/-! ## CAT_REQUEST -/

/-- CAT_STAT reports the length of the host queue, which has at most 64 entries. -/
theorem catStat_hostq (s : State) : s.catStat.fld F.CAT_STAT_HOSTQ = s.catHost.length % 2 ^ 7 := by
  rw [State.catStat, State.fld_setFld_other (f := F.CAT_STAT_INFLIGHT) (g := F.CAT_STAT_HOSTQ) _ _ _ _ rfl (by decide) (by decide)]
  exact State.fld_setFld_same _ F.CAT_STAT_HOSTQ _ 0 0 (by decide)

/-- A request queued on the host queue (R261). -/
def State.hostQueued (s : State) (h : CmdHdr) (p : List Word) : State :=
  { s with catHost := s.catHost ++ [⟨none, some h, pwNum p 0 10, 0⟩] }

section
variable {s : State} (dt : Nat) {h : CmdHdr} {p : List Word} (ht : s.takes (.catRequest dt h p) = true)
  (hstage : 7 ≤ s.fld F.DEV_START_STAGE)
include ht hstage

theorem cCatRequest_of_takes : (s.tick dt).cCatRequest h p =
    if 64 ≤ s.catHost.length then (s.tick dt).reply h 0x0203 [] else ((s.tick dt).hostQueued h p).catStat := by
  rw [State.cCatRequest, cmd_of_takes rfl ht]
  exact if_neg (Nat.not_lt.2 hstage)

theorem catRequest_full (hfull : 64 ≤ s.catHost.length) :
    exec (.catRequest dt h p) s = .next ((s.tick dt).reply h 0x0203 []) := by
  have hcmd : (s.tick dt).cCatRequest h p = (s.tick dt).reply h 0x0203 [] := (cCatRequest_of_takes dt ht hstage).trans (if_pos hfull)
  have hquiet := csmQuiet_reply (s.tick dt) h 0x0203 [] (takes_quiet_admitted rfl ht).1
  exact congrArg Host.Outcome.next (by rw [hcmd, settle_quiet _ hquiet])

theorem catRequest_queued (hroom : s.catHost.length < 64) : ∃ t, exec (.catRequest dt h p) s = .next t ∧
    t.catHost = s.catHost ++ [⟨none, some h, pwNum p 0 10, 0⟩] ∧ t.fld F.CAT_STAT_HOSTQ = s.catHost.length + 1 ∧
    s.keeps t [(.CAT_STAT, 0, 0)] ∧ t = { s.tick dt with regs := t.regs, catHost := t.catHost } := by
  have hcmd : (s.tick dt).cCatRequest h p = ((s.tick dt).hostQueued h p).catStat :=
    (cCatRequest_of_takes dt ht hstage).trans (if_neg (Nat.not_le.2 hroom))
  have honly : ((s.tick dt).hostQueued h p).onlyRegs ((s.tick dt).hostQueued h p).catStat := catStat_onlyRegs _
  have hquiet : ((s.tick dt).hostQueued h p).catStat.csmQuiet = true := (takes_quiet_admitted rfl ht).1
  have hexec : exec (.catRequest dt h p) s = .next ((s.tick dt).hostQueued h p).catStat :=
    congrArg Host.Outcome.next (by rw [hcmd, settle_quiet _ hquiet])
  refine ⟨_, hexec, rfl, ?_, catStat_keeps ((s.tick dt).hostQueued h p), honly⟩
  rw [catStat_hostq]
  simp only [State.hostQueued, List.length_append, List.length_singleton, State.tick_catHost]
  omega

end

/-! ## CAT_VOID -/

/-- The value of CAT_VOID that the command's words spell (R365). -/
theorem voidNames_of_parts {b k row : Nat} {clear : Bool} (hb : b = if clear then 1 else 0) (hk : k < 64) (hrow : row < 2 ^ 30) :
    VoidNames (b * 2 ^ 63 + k * 2 ^ 56 + row % 2 ^ 30) k row clear := by
  have hbit : b < 2 := by rw [hb]; split <;> decide
  exact ⟨by unfold bitsOf; omega, by omega, by rw [← hb]; unfold bitsOf; omega⟩

section
variable {s : State} {q : Nat} {clear : Bool} (dt : Nat) {h : CmdHdr} {p : List Word} (hat : s.VoidAt (bitsOf (pw p 0) 0 6) (pw p 1) q)
  (ht : s.takes (.catVoid dt h p) = true) (hrow : pw p 1 < 2 ^ 30) (hclear : bitsOf (pw p 0) 31 1 = if clear then 1 else 0)
include hat ht hrow hclear

/-- The command acts as the register, and replies. -/
theorem catVoid_next : ∃ t, exec (.catVoid dt h p) s = .next t ∧ s.voids t q (pw p 1) clear := by
  let v := bitsOf (pw p 0) 31 1 * 2 ^ 63 + bitsOf (pw p 0) 0 6 * 2 ^ 56 + pw p 1 % 2 ^ 30
  have hcmd : (s.tick dt).cCatVoid h p = ((s.tick dt).catVoid (cmdReq h) v).reply h 0 [] := by
    rw [State.cCatVoid, cmd_of_takes rfl ht]
    refine if_neg ?_
    simp only [State.flag_tick, State.fld_tick, hat.enabled, Bool.not_true, Bool.false_eq_true, false_or, Nat.not_le]
    exact hat.inTable
  have hnames : VoidNames v (bitsOf (pw p 0) 0 6) (pw p 1) clear := voidNames_of_parts hclear (bitsOf_lt _ 0 6) hrow
  have hvoids := catVoid_voids (hat.tick dt) hnames (cmdReq h)
  have hquiet : ((s.tick dt).catVoid (cmdReq h) v).csmQuiet = true := by
    rw [catVoid_eq (hat.tick dt) hnames, hbmWritePhys_else]
    exact (takes_quiet_admitted rfl ht).1
  refine ⟨_, congrArg Host.Outcome.next (by rw [hcmd, settle_quiet _ (csmQuiet_reply _ h 0 [] hquiet)]), ?_⟩
  exact voids_of_sameMemory hvoids (reply_sameMemory _ h 0 [])

end

/-- Settles O26: CAT_REQUEST by the room of its queue; the command CAT_VOID and a write of the register are one change of the void map. -/
theorem catalogueCommandsAct : Obligations.CatalogueCommandsAct := by
  intro dt s
  refine ⟨fun h p ht hstage => ⟨catRequest_queued dt ht hstage, catRequest_full dt ht hstage⟩, ?_⟩
  intro k row q clear _ hrow hen hin hmap hmig after
  have hat : s.VoidAt k row q := ⟨hen, hin, hmap, hmig⟩
  constructor
  · intro h p ht hk hp hclear
    subst hk hp
    exact catVoid_next dt hat ht hrow hclear
  · intro r v ha hk hv hclear
    exact catVoidWrite_next hat ⟨hk, hv, hclear⟩ r rfl dt ha

end Sys2Proof.Machine
end

section
/-! Numbers filled field by field: fields that do not overlap read back, and the bits beside them stay. -/
namespace Sys2Proof.Machine

/-- A field of a number and the value put there: its first bit, its width, the value. -/
structure FieldVal where
  lo : Nat
  w : Nat
  v : Nat

/-- Two fields share no bit. -/
abbrev FieldVal.apart (f g : FieldVal) : Prop := f.lo + f.w ≤ g.lo ∨ g.lo + g.w ≤ f.lo

/-- The fields put into `n`, one after the other. -/
def putFields (n : Nat) (fs : List FieldVal) : Nat := fs.foldl (fun n f => putBits n f.lo f.w f.v) n

theorem putFields_cons (n : Nat) (f : FieldVal) (fs : List FieldVal) :
    putFields n (f :: fs) = putFields (putBits n f.lo f.w f.v) fs := by
  rw [putFields, List.foldl_cons, putFields]

theorem putFields_nil (n : Nat) : putFields n [] = n := by rw [putFields, List.foldl_nil]

theorem putFields_append (n : Nat) (fs gs : List FieldVal) : putFields n (fs ++ gs) = putFields (putFields n fs) gs :=
  List.foldl_append

/-- A bit in none of the fields stays. -/
theorem testBit_putFields_outside (n : Nat) {fs : List FieldVal} {b : Nat} (h : ∀ f ∈ fs, b < f.lo ∨ f.lo + f.w ≤ b) :
    (putFields n fs).testBit b = n.testBit b := by
  induction fs generalizing n with
  | nil => rfl
  | cons f fs ih =>
    obtain ⟨hf, hfs⟩ := List.forall_mem_cons.1 h
    rw [putFields_cons, ih _ hfs, testBit_putBits, if_neg (by omega)]

/-- Bits that no field shares stay. -/
theorem bitsOf_putFields_outside (n : Nat) {fs : List FieldVal} {lo w : Nat} (h : ∀ f ∈ fs, lo + w ≤ f.lo ∨ f.lo + f.w ≤ lo) :
    bitsOf (putFields n fs) lo w = bitsOf n lo w := by
  induction fs generalizing n with
  | nil => rfl
  | cons f fs ih =>
    obtain ⟨hf, hfs⟩ := List.forall_mem_cons.1 h
    rw [putFields_cons, ih _ hfs, bitsOf_putBits_ne _ _ _ _ _ _ hf]

/-- Every field reads as the value put there. -/
theorem bitsOf_putFields_mem (n : Nat) {fs : List FieldVal} (ha : fs.Pairwise FieldVal.apart) {f : FieldVal} (hf : f ∈ fs) :
    bitsOf (putFields n fs) f.lo f.w = f.v % 2 ^ f.w := by
  induction fs generalizing n with
  | nil => exact absurd hf List.not_mem_nil
  | cons g fs ih =>
    obtain ⟨hg, hfs⟩ := List.pairwise_cons.1 ha
    obtain rfl | hf := List.mem_cons.1 hf
    · rw [putFields_cons, bitsOf_putFields_outside _ hg, bitsOf_putBits_same]
    · exact ih _ hfs hf

/-- Zeros put over every set bit leave zero. -/
theorem foldl_putBits_zero {n : Nat} {ks : List (Nat × Nat)} (h : ∀ b, n.testBit b = true → ∃ k ∈ ks, k.1 ≤ b ∧ b < k.1 + k.2) :
    ks.foldl (fun n k => putBits n k.1 k.2 0) n = 0 := by
  induction ks generalizing n with
  | nil =>
    refine Nat.eq_of_testBit_eq fun b => ?_
    rw [Nat.zero_testBit, Bool.eq_false_iff]
    intro hb
    obtain ⟨k, hk, -⟩ := h b hb
    exact absurd hk List.not_mem_nil
  | cons k ks ih =>
    refine ih fun b hb => ?_
    rw [testBit_putBits] at hb
    split at hb
    · exact absurd hb (by rw [Nat.zero_testBit]; exact Bool.false_ne_true)
    · next hout =>
      obtain ⟨k', hk', hin⟩ := h b hb
      obtain rfl | hk' := List.mem_cons.1 hk'
      · exact absurd hin hout
      · exact ⟨k', hk', hin⟩

end Sys2Proof.Machine
end

section
/-! The waymark record of an action (R283, R285): its fields lie apart in the bits that its kind names, and read back as the action. -/
namespace Sys2Proof.Machine

/-- The kind of the record that holds an action (R285). -/
def Act.kind : Act → Nat
  | .regWrite .. => 1
  | .bcast .. => 2
  | .msSet .. => 3
  | .bank .. => 4
  | .steer .. => 5
  | .plan .. => 6
  | .detour .. => 7
  | .model .. => 8
  | .odo .. => 9
  | .sys .. => 10

/-- The operands of an action at their places in its record (R285). -/
def Act.fields : Act → List FieldVal
  | .bcast col row off mod_ v m step =>
    [⟨128, 34, col⟩, ⟨192, 32, row⟩, ⟨224, 12, off⟩, ⟨240, 5, mod_⟩, ⟨256, 32, v⟩, ⟨288, 32, m⟩, ⟨320, 32, step⟩]
  | .msSet first n which count target stride owner evt =>
    [⟨128, 14, first⟩, ⟨144, 8, n - 1⟩, ⟨152, 5, which⟩, ⟨160, 32, count⟩, ⟨192, 32, target⟩, ⟨224, 16, stride⟩, ⟨240, 3, owner⟩,
      ⟨243, 1, evt⟩]
  | .bank banks owner force prio =>
    [⟨128, 16, banks⟩, ⟨144, 8, owner⟩, ⟨152, 1, force.toNat⟩] ++ (List.range 16).map fun p => ⟨160 + 8 * p, 4, prio.getD p 0⟩
  | .steer conn unit => [⟨128, 4, conn⟩, ⟨136, 4, unit⟩]
  | .plan unit entry nm1 out => [⟨128, 4, unit⟩, ⟨136, 6, entry⟩, ⟨144, 1, nm1.toNat⟩, ⟨152, 5, out⟩]
  | .detour layby fwd slow => [⟨128, 11, layby⟩, ⟨144, 11, fwd⟩, ⟨160, 11, slow⟩]
  | .model b units => [⟨128, 1, b⟩, ⟨144, 16, units⟩]
  | .odo u pos => [⟨128, 2, u⟩, ⟨192, 64, pos⟩]
  | .sys devices sysid => [⟨128, 256, devices⟩, ⟨384, 16, sysid⟩]
  | .regWrite .. => []

theorem toNat_eq_ite (b : Bool) : b.toNat = if b then 1 else 0 := by cases b <;> rfl

/-- The record of an action is its kind and its operands at their places. -/
theorem recordOf_eq {a : Act} {v : Nat} (h : recordOf a = some v) : v = putFields a.kind a.fields := by
  cases a with
  | regWrite => cases h
  | bank banks owner force prio =>
    simp only [recordOf, Option.some.injEq] at h
    rw [← h, Act.kind, Act.fields, putFields_append]
    simp only [putFields_cons, putFields_nil, toNat_eq_ite]
    rw [putFields, List.foldl_map]
  | _ =>
    simp only [recordOf, Option.some.injEq] at h
    rw [← h, Act.kind, Act.fields]
    simp only [putFields_cons, putFields_nil, toNat_eq_ite]

theorem Act.fields_apart (a : Act) : a.fields.Pairwise FieldVal.apart := by
  cases a with
  | bank banks owner force prio =>
    rw [Act.fields, List.pairwise_append, List.pairwise_map]
    refine ⟨by simp [FieldVal.apart], List.pairwise_lt_range.imp fun {p q} hpq => ?_, ?_⟩
    · show 160 + 8 * p + 4 ≤ 160 + 8 * q ∨ 160 + 8 * q + 4 ≤ 160 + 8 * p
      omega
    · simp only [List.mem_cons, List.not_mem_nil, or_false, List.mem_map, FieldVal.apart, forall_exists_index, and_imp]
      rintro f (rfl | rfl | rfl) g p - rfl <;> dsimp only <;> omega
  | _ => simp [Act.fields, FieldVal.apart]

/-- Every operand lies beyond the header, within the bits that the record's kind names (R283). -/
theorem Act.fields_named (a : Act) : ∃ ks, kindFields a.kind = some ks ∧
    ∀ f ∈ a.fields, 128 ≤ f.lo ∧ ∃ k ∈ ks, k.1 ≤ f.lo ∧ f.lo + f.w ≤ k.1 + k.2 := by
  cases a with
  | bank banks owner force prio =>
    refine ⟨_, rfl, fun f hf => ?_⟩
    obtain hf | hf := List.mem_append.1 hf
    · simp only [List.mem_cons, List.not_mem_nil, or_false] at hf
      obtain rfl | rfl | rfl := hf <;> simp
    · obtain ⟨p, hp, rfl⟩ := List.mem_map.1 hf
      exact ⟨by dsimp only; omega, _, List.mem_append_right _ (List.mem_map.2 ⟨p, hp, rfl⟩), Nat.le_refl _, Nat.le_refl _⟩
  | regWrite => exact ⟨_, rfl, fun f hf => absurd hf List.not_mem_nil⟩
  | _ => exact ⟨_, rfl, by simp [Act.fields]⟩

/-- The record of an action with kind and operands. -/
abbrev Act.record (a : Act) : Nat := putFields a.kind a.fields

theorem Act.kind_lt (a : Act) : a.kind < 2 ^ 8 := by cases a <;> simp [Act.kind]

theorem Act.record_kind (a : Act) : wayKind a.record = a.kind := by
  obtain ⟨ks, -, hnamed⟩ := a.fields_named
  rw [wayKind, bitsOf_putFields_outside _ fun f hf => .inl ((show 0 + 8 ≤ 128 by decide).trans (hnamed f hf).1)]
  simp only [bitsOf, Nat.pow_zero, Nat.div_one]
  exact Nat.mod_eq_of_lt a.kind_lt

/-- Beside the operands of a record the bits beyond its header are zero. -/
theorem Act.record_named {a : Act} {ks : List (Nat × Nat)} (hks : kindFields a.kind = some ks) :
    ks.foldl (fun n k => putBits n k.1 k.2 0) (bitsOf a.record 128 384 * 2 ^ 128) = 0 := by
  obtain ⟨ks', hks', hnamed⟩ := a.fields_named
  obtain rfl : ks' = ks := Option.some.inj (hks'.symm.trans hks)
  refine foldl_putBits_zero fun b hb => ?_
  rw [Nat.testBit_mul_two_pow, Bool.and_eq_true, decide_eq_true_eq, testBit_bitsOf, Bool.and_eq_true] at hb
  obtain ⟨hle, -, hset⟩ := hb
  rw [Nat.add_sub_cancel' hle] at hset
  by_contra hnone
  have hout : ∀ f ∈ a.fields, b < f.lo ∨ f.lo + f.w ≤ b := by
    intro f hf
    by_contra hin
    obtain ⟨-, k, hk, hlo, hhi⟩ := hnamed f hf
    exact hnone ⟨k, hk, by omega, by omega⟩
  rw [testBit_putFields_outside _ hout, Nat.testBit_lt_two_pow (a.kind_lt.trans_le (Nat.pow_le_pow_right (by decide) (by omega)))] at hset
  exact Bool.false_ne_true hset

/-- Operands that fit are below the bounds of their fields. -/
theorem Act.fields_lt {a : Act} (hfit : actFits a = true) : ∀ f ∈ a.fields, f.v < 2 ^ f.w := by
  cases a with
  | bank banks owner force prio =>
    simp only [actFits, Bool.and_eq_true, decide_eq_true_eq, List.all_eq_true] at hfit
    obtain ⟨⟨hbanks, howner, hlen⟩, hprio⟩ := hfit
    rw [Act.fields, List.forall_mem_append]
    refine ⟨by simpa [Bool.toNat_le] using ⟨hbanks, howner⟩, fun f hf => ?_⟩
    obtain ⟨p, hp, rfl⟩ := List.mem_map.1 hf
    have hp : p < prio.length := by rw [hlen]; exact List.mem_range.1 hp
    rw [List.getD_eq_getElem _ _ hp]
    exact hprio _ (List.getElem_mem hp)
  | plan unit entry nm1 out =>
    simpa [actFits, Act.fields, Bool.toNat_le] using hfit
  | msSet first n which count target stride owner evt =>
    simp only [actFits, decide_eq_true_eq] at hfit
    simp only [Act.fields, List.forall_mem_cons, List.not_mem_nil, IsEmpty.forall_iff, implies_true, and_true]
    omega
  | regWrite => simp [Act.fields]
  | _ =>
    simp only [actFits, decide_eq_true_eq] at hfit
    simp only [Act.fields, List.forall_mem_cons, List.not_mem_nil, IsEmpty.forall_iff, implies_true, and_true]
    omega

/-- The operands of a record read back where they fit. -/
theorem Act.record_reads {a : Act} (hfit : actFits a = true) : ∀ f ∈ a.fields, bitsOf a.record f.lo f.w = f.v := fun f hf =>
  (bitsOf_putFields_mem a.kind a.fields_apart hf).trans (Nat.mod_eq_of_lt (Act.fields_lt hfit f hf))

/-- The record decodes to its action (R283, R285). -/
theorem Act.record_decodes {a : Act} (hk : a.kind ≠ 1) (hfit : actFits a = true) : wayActs a.record = [a] := by
  have hread := Act.record_reads hfit
  have hkind := a.record_kind
  generalize a.record = v at hread hkind
  cases a with
  | regWrite => exact absurd rfl hk
  | bank banks owner force prio =>
    simp only [actFits, Bool.and_eq_true, decide_eq_true_eq] at hfit
    obtain ⟨⟨-, -, hlen⟩, -⟩ := hfit
    rw [Act.fields, List.forall_mem_append, List.forall_mem_map] at hread
    obtain ⟨hhead, hprio⟩ := hread
    have hranks : (List.range 16).map (fun p => bitsOf v (8 * (20 + p)) 4) = prio := by
      refine List.ext_getElem (by simp [hlen]) fun p hp hp' => ?_
      have hread := hprio p (by simpa using hp)
      rw [List.getD_eq_getElem _ _ hp'] at hread
      simpa [Nat.mul_add] using hread
    simp at hhead
    simp [wayActs, hkind, Act.kind, hhead, hranks]
  | msSet first n which count target stride owner evt =>
    simp only [actFits, decide_eq_true_eq] at hfit
    simp [Act.fields] at hread
    simp [wayActs, hkind, Act.kind, hread]
    omega
  | _ =>
    simp [Act.fields] at hread
    simp [wayActs, hkind, Act.kind, hread]

/-- TX_ADD accepts the record (R285, R362). -/
theorem Act.record_ok {a : Act} (hk : a.kind ≠ 1) (hfit : actFits a = true) : wayOk a.record = true := by
  obtain ⟨ks, hks, -⟩ := a.fields_named
  rw [wayOk, a.record_kind, hks]
  dsimp only
  rw [Act.record_named hks, Act.record_decodes hk hfit, List.all_cons, List.all_nil, Bool.and_true, beq_self_eq_true, Bool.true_and]
  cases a with
  | msSet first n which count target stride owner evt =>
    simp only [actFits, decide_eq_true_eq] at hfit
    exact decide_eq_true hfit.2.2.1
  | detour layby fwd slow => exact hfit
  | _ => rfl

theorem kind_of_recordOf {a : Act} {v : Nat} (h : recordOf a = some v) : a.kind ≠ 1 := by
  cases a with
  | regWrite => cases h
  | _ => simp [Act.kind]

/-- Settles O18: a record is its kind and its operands at places that do not overlap and that the kind names, so the operands read back
and nothing stands beside them. -/
theorem waymarkRecordDecodesToItsAction : Obligations.WaymarkRecordDecodesToItsAction := by
  intro a v hrec hfit
  have hk := kind_of_recordOf hrec
  rw [recordOf_eq hrec]
  exact ⟨Act.record_decodes hk hfit, Act.record_ok hk hfit⟩

end Sys2Proof.Machine
end

section
/-! Milestones reached (R276): the count has not fallen behind the target, by their difference mod 2³². -/
namespace Sys2Proof.Machine

/-- A count that has reached a target (R276): mod 2³² it leads by less than 2³¹. -/
abbrev aheadOf (count target : Nat) : Prop := (count + 2 ^ 32 - target) % 2 ^ 32 < 2 ^ 31

theorem msReached_eq_ahead (s : State) {m t : Nat} (ht : t < 2 ^ 32) :
    s.msReached m t = decide (aheadOf (s.fld F.MS_COUNT_COUNT m) t) := by
  rw [State.msReached, Nat.mod_eq_of_lt ht]

/-- A count that leads the target by less than 2³¹ has reached it. -/
theorem msReached_of_ahead {s : State} {m t k : Nat} (hk : k < 2 ^ 31) (hc : s.fld F.MS_COUNT_COUNT m = (t + k) % 2 ^ 32) :
    s.msReached m t = true := by
  rw [State.msReached, hc, decide_eq_true_eq]
  omega

/-- A count that trails the target by up to 2³¹ has not reached it. -/
theorem not_msReached_of_behind {s : State} {m k : Nat} (hpos : 0 < k) (hk : k ≤ 2 ^ 31) :
    s.msReached m ((s.fld F.MS_COUNT_COUNT m + k) % 2 ^ 32) = false := by
  have hc : s.fld F.MS_COUNT_COUNT m < 2 ^ 32 := s.fld_lt F.MS_COUNT_COUNT m 0
  rw [State.msReached, decide_eq_false_iff_not]
  omega

/-- Settles O19: the difference mod 2³² of count and target is the lead of the count, or 2³² less what it trails by. -/
theorem milestoneReachedMeansNotBehind : Obligations.MilestoneReachedMeansNotBehind := by
  have hhas (r : Reg) (hr : (regRow r).n1 = 16384 ∧ (regRow r).n2 = 1) (m : Nat) : regHas r m 0 ↔ m < 16384 := by
    rw [regHas, hr.1, hr.2]
    exact and_iff_left Nat.one_pos
  refine ⟨fun m => ⟨hhas _ ⟨rfl, rfl⟩ m, hhas _ ⟨rfl, rfl⟩ m, hhas _ ⟨rfl, rfl⟩ m⟩, fun s m => ?_, fun s m t ht => ?_⟩
  · exact ⟨s.fld_lt F.MS_COUNT_COUNT m 0, s.fld_lt F.MS_TARGET_TARGET m 0, s.fld_lt F.MS_CFG_STRIDE m 0, s.fld_lt F.MS_CFG_OWNER m 0,
      s.fld_lt F.MS_CFG_FIRED m 0, s.fld_lt F.MS_CFG_EVT m 0⟩
  · exact ⟨by rw [msReached_eq_ahead s ht, decide_eq_true_eq], fun k => msReached_of_ahead, fun k => not_msReached_of_behind⟩

end Sys2Proof.Machine
end

section
/-! A reply of a command (R356, R360, R361): the registers and the parts of the state that it changes, and all that it looks at. -/
namespace Sys2Proof.Machine

/-! ## What a reply changes -/

/-- `t` differs from `s` in what has left the device and in the bookkeeping of commands alone. -/
def State.onlyReplies (s t : State) : Prop :=
  t = { s with mcRun := t.mcRun, regs := t.regs, queues := t.queues, netOut := t.netOut, freeCtr := t.freeCtr, out := t.out }

theorem onlyReplies_trans {s t u : State} (h : s.onlyReplies t) (h' : t.onlyReplies u) : s.onlyReplies u := by
  rw [State.onlyReplies] at h h' ⊢
  rw [h', h]

section
variable {s t : State} (h : s.onlyReplies t)
include h
theorem onlyReplies_pulses : t.pulses = s.pulses := by rw [h]
theorem onlyReplies_waiters : t.waiters = s.waiters := by rw [h]
theorem onlyReplies_txs : t.txs = s.txs := by rw [h]
theorem onlyReplies_way : t.way = s.way := by rw [h]
theorem onlyReplies_ents : t.ents = s.ents := by rw [h]
theorem onlyReplies_sameMemory : s.sameMemory t := sameMemory_of_stores (by rw [h]) (by rw [h])
end

section
variable (s : State)

theorem onlyReplies_of_onlyRegs {s t : State} (h : s.onlyRegs t) : s.onlyReplies t := by
  rw [State.onlyRegs] at h
  rw [State.onlyReplies, h]

theorem cmdDone_onlyRegs (q : Nat) : s.onlyRegs (s.cmdDone q) := onlyRegs_setFld_setFld ..

theorem cmdDone_onlyReplies (q : Nat) : s.onlyReplies (s.cmdDone q) := onlyReplies_of_onlyRegs (cmdDone_onlyRegs s q)

theorem cmdDone_out (q : Nat) : (s.cmdDone q).out = s.out := by rw [show s.cmdDone q = _ from cmdDone_onlyRegs s q]

theorem entryCq_onlyReplies (q : Nat) (y : Reply) : s.onlyReplies (s.entryCq q y) := by
  rw [State.entryCq]
  split <;> rfl

theorem postCq_onlyReplies (q : Nat) (y : Reply) : s.onlyReplies (s.postCq q y) := by
  rw [postCq_eq]
  split
  · exact onlyReplies_trans (entryCq_onlyReplies s q y) (cmdDone_onlyReplies ..)
  · exact entryCq_onlyReplies s q y

/-- The command is no longer one that the MC runs. -/
def State.ended (h : CmdHdr) : State := { s with mcRun := s.mcRun.filter fun x => decide (x ≠ h) }

theorem ended_onlyReplies (h : CmdHdr) : s.onlyReplies (s.ended h) := rfl

/-- The final reply by the command's source (R361). -/
theorem reply_eq (h : CmdHdr) (st : Nat) (w : List Nat) : s.reply h st w = match h.src with
    | .queue q =>
      if (s.queue q).dead then (s.ended h).cmdDone q
      else if s.cqRoom q then (s.ended h).postCq q ⟨h, st, true, w⟩
      else s.ended h |>.setQueue q { s.queue q with held := (s.queue q).held ++ [⟨h, st, true, w⟩] }
    | .net k o ip p => { (s.ended h).netReply k.val o ip p ⟨h, st, true, w⟩ with netOut := s.netOut - 1 }
    | .mc => (s.ended h).emit (.mcReply ⟨h, st, true, w⟩) := rfl

theorem reply_onlyReplies (h : CmdHdr) (st : Nat) (w : List Nat) : s.onlyReplies (s.reply h st w) := by
  rw [reply_eq]
  split
  · split
    · exact onlyReplies_trans (ended_onlyReplies s h) (cmdDone_onlyReplies ..)
    · split
      · exact onlyReplies_trans (ended_onlyReplies s h) (postCq_onlyReplies ..)
      · rfl
  · rfl
  · rfl

theorem replyPending_onlyReplies (h : CmdHdr) : s.onlyReplies (s.replyPending h) := by
  unfold State.replyPending
  split
  · rfl
  · dsimp only
    split
    · split
      · exact postCq_onlyReplies ..
      · rfl
    · rfl
    · rfl

/-! ## The registers of a reply -/

/-- The registers that the reply of a command writes. -/
def replyRegs (h : CmdHdr) : List (Reg × Nat × Nat) :=
  match h.src with
  | .queue q => [(.CMD_Q_STAT, q.val, 0)]
  | _ => []

theorem replyRegs_mc {h : CmdHdr} (hm : h.src = .mc) : replyRegs h = [] := by rw [replyRegs, hm]

theorem cmdDone_keeps (q : Fin 64) : s.keeps (s.cmdDone q) [(.CMD_Q_STAT, q.val, 0)] :=
  keeps_setFld_setFld (f := F.CMD_Q_STAT_OUTST) (g := F.CMD_Q_STAT_IDLE) s _ _ rfl ⟨q.isLt, Nat.one_pos⟩

theorem postCq_keeps (q : Fin 64) (y : Reply) : s.keeps (s.postCq q y) [(.CMD_Q_STAT, q.val, 0)] := by
  have hentry : (s.entryCq q y).regs = s.regs := by
    rw [State.entryCq]
    split <;> rfl
  rw [postCq_eq]
  split
  · exact keeps_trans (keeps_of_regs [] hentry) (cmdDone_keeps _ q)
  · exact keeps_of_regs _ hentry

theorem reply_keeps (h : CmdHdr) (st : Nat) (w : List Nat) : s.keeps (s.reply h st w) (replyRegs h) := by
  rw [reply_eq, replyRegs]
  cases h.src with
  | queue q =>
    dsimp only
    split
    · exact cmdDone_keeps (s.ended h) q
    · split
      · exact postCq_keeps (s.ended h) q _
      · exact keeps_refl s _
  | net => exact keeps_refl s _
  | mc => exact keeps_refl s _

theorem replyPending_keeps (h : CmdHdr) : s.keeps (s.replyPending h) (replyRegs h) := by
  unfold State.replyPending replyRegs
  split
  · exact keeps_refl s _
  · cases h.src with
    | queue q =>
      dsimp only
      split
      · exact postCq_keeps s q _
      · exact keeps_refl s _
    | net => exact keeps_refl s _
    | mc => exact keeps_refl s _

variable {s} {f : Fld} {i j : Nat}

theorem reg_of_mem_replyRegs {h : CmdHdr} {x : Reg × Nat × Nat} (hx : x ∈ replyRegs h) : x.1 = .CMD_Q_STAT := by
  rw [replyRegs] at hx
  split at hx
  · rw [List.mem_singleton.1 hx]
  · exact absurd hx List.not_mem_nil

theorem not_mem_replyRegs {r : Reg} (hr : r ≠ .CMD_Q_STAT) (h : CmdHdr) (i j : Nat) : (r, i, j) ∉ replyRegs h :=
  fun hx => hr (reg_of_mem_replyRegs hx)

/-- A field of another register after a reply. -/
theorem fld_reply (hf : regHas f.reg i j) (hr : f.reg ≠ .CMD_Q_STAT) (h : CmdHdr) (st : Nat) (w : List Nat) :
    (s.reply h st w).fld f i j = s.fld f i j := fld_of_keeps (reply_keeps s h st w) hf (not_mem_replyRegs hr h i j)

end

/-! ## What a reply looks at -/

/-- Replies leave `s` and `t` alike: both have sent the same, and hold the same queues, keys and settings of the queues. -/
structure State.RepliesAlike (s t : State) : Prop where
  out : t.out = s.out
  queues : t.queues = s.queues
  keys : t.keys = s.keys
  freeCtr : t.freeCtr = s.freeCtr
  links : t.twoByEight = s.twoByEight
  base : ∀ q < 64, t.fld F.CMD_CQ_BASE_ADDR q = s.fld F.CMD_CQ_BASE_ADDR q
  depth : ∀ q < 64, t.fld F.CMD_Q_CFG_CQ_LOG2 q = s.fld F.CMD_Q_CFG_CQ_LOG2 q
  ien : ∀ q < 64, t.fld F.CMD_Q_CFG_IEN q = s.fld F.CMD_Q_CFG_IEN q
  vec : ∀ q < 64, t.fld F.CMD_Q_CFG_VEC q = s.fld F.CMD_Q_CFG_VEC q

section
variable {s t : State}

/-- States that differ in other registers, and in nothing else that a reply looks at. -/
theorem repliesAlike_of_keeps {l : List (Reg × Nat × Nat)} (h : s.keeps t l)
    (hl : ∀ x ∈ l, x.1 ≠ .CMD_CQ_BASE ∧ x.1 ≠ .CMD_Q_CFG) (out : t.out = s.out) (queues : t.queues = s.queues)
    (keys : t.keys = s.keys) (freeCtr : t.freeCtr = s.freeCtr) (links : t.twoByEight = s.twoByEight) : s.RepliesAlike t where
  out := out
  queues := queues
  keys := keys
  freeCtr := freeCtr
  links := links
  base _ hq := fld_of_keeps h ⟨hq, Nat.one_pos⟩ fun hm => (hl _ hm).1 rfl
  depth _ hq := fld_of_keeps h ⟨hq, Nat.one_pos⟩ fun hm => (hl _ hm).2 rfl
  ien _ hq := fld_of_keeps h ⟨hq, Nat.one_pos⟩ fun hm => (hl _ hm).2 rfl
  vec _ hq := fld_of_keeps h ⟨hq, Nat.one_pos⟩ fun hm => (hl _ hm).2 rfl

variable (ha : s.RepliesAlike t)
include ha

theorem State.RepliesAlike.queue (q : Nat) : t.queue q = s.queue q := by rw [State.queue, State.queue, ha.queues]

theorem State.RepliesAlike.cqRoom (q : Fin 64) : t.cqRoom q = s.cqRoom q := by
  rw [State.cqRoom, State.cqRoom, ha.queue, State.cqDepth, State.cqDepth, ha.depth q q.isLt]

theorem State.RepliesAlike.postCq_out (q : Fin 64) (y : Reply) : (t.postCq q y).out = (s.postCq q y).out := by
  have hout (u : State) : (u.entryCq q y).out = u.out ++
      .hostWrite (u.queueLink q) (u.fld F.CMD_CQ_BASE_ADDR q * 4096 + 32 * (u.queue q).cqTail)
        (replyBytes y (u.queue q).phase y.hdr.sqHead) false ::
      (if u.flag F.CMD_Q_CFG_IEN q then [.msix (u.queueLink q) (u.fld F.CMD_Q_CFG_VEC q)] else []) := by
    rw [State.entryCq]
    split
    · exact List.append_assoc ..
    · rfl
  have hentry : (t.entryCq q y).out = (s.entryCq q y).out := by
    rw [hout, hout, ha.out, ha.queue, ha.base q q.isLt, flag_congr (ha.ien q q.isLt), ha.vec q q.isLt, State.queueLink, State.queueLink,
      ha.links]
  rw [postCq_eq, postCq_eq]
  split
  · rw [cmdDone_out, cmdDone_out, hentry]
  · exact hentry

theorem State.RepliesAlike.netReply_out (k : Nat) (o ip : Word) (p : Nat) (y : Reply) :
    (t.netReply k o ip p y).out = (s.netReply k o ip p y).out := by
  simp only [State.netReply, State.useFree, State.emit, State.free, State.keyBytes, ha.out, ha.freeCtr, ha.keys]

theorem State.RepliesAlike.ended (h : CmdHdr) : (s.ended h).RepliesAlike (t.ended h) :=
  ⟨ha.out, ha.queues, ha.keys, ha.freeCtr, ha.links, ha.base, ha.depth, ha.ien, ha.vec⟩

theorem State.RepliesAlike.reply_out (h : CmdHdr) (st : Nat) (w : List Nat) : (t.reply h st w).out = (s.reply h st w).out := by
  have he := ha.ended h
  rw [reply_eq, reply_eq]
  cases h.src with
  | queue q =>
    dsimp only
    rw [ha.queue, ha.cqRoom]
    split
    · rw [cmdDone_out, cmdDone_out]
      exact ha.out
    · split
      · exact he.postCq_out q _
      · exact ha.out
  | net k o ip p => exact he.netReply_out k o ip p _
  | mc => exact congrArg (· ++ _) ha.out

theorem State.RepliesAlike.replyPending_out (h : CmdHdr) : (t.replyPending h).out = (s.replyPending h).out := by
  unfold State.replyPending
  split
  · exact ha.out
  · cases h.src with
    | queue q =>
      dsimp only
      rw [ha.queue, ha.cqRoom]
      split
      · exact ha.postCq_out q _
      · exact ha.out
    | net k o ip p => exact ha.netReply_out k o ip p _
    | mc => exact congrArg (· ++ _) ha.out

end

end Sys2Proof.Machine
end

section
/-! One operation on a milestone (R276 to R278, R281): what it makes of the count, target, stride and flags, and the evaluation after it. -/
namespace Sys2Proof.Machine

/-! ## The fields of a milestone -/

/-- The fields of a milestone (R276). -/
structure MsVals where
  count : Nat
  target : Nat
  stride : Nat
  evt : Nat
  fired : Nat
  owner : Nat

/-- The fields of milestone `m`. -/
def State.msVals (s : State) (m : Nat) : MsVals :=
  ⟨s.fld F.MS_COUNT_COUNT m, s.fld F.MS_TARGET_TARGET m, s.fld F.MS_CFG_STRIDE m, s.fld F.MS_CFG_EVT m, s.fld F.MS_CFG_FIRED m,
    s.fld F.MS_CFG_OWNER m⟩

section
variable {s t : State} {m : Nat} (hm : m < 16384)
include hm

theorem regHas_ms {r : Reg} (hr : r = .MS_COUNT ∨ r = .MS_TARGET ∨ r = .MS_CFG) : regHas r m 0 := by
  obtain rfl | rfl | rfl := hr <;> exact ⟨hm, Nat.one_pos⟩

theorem msVals_of_keeps {l : List (Reg × Nat × Nat)} (h : s.keeps t l)
    (hl : ∀ x ∈ l, x.1 ≠ .MS_COUNT ∧ x.1 ≠ .MS_TARGET ∧ x.1 ≠ .MS_CFG) : t.msVals m = s.msVals m := by
  have hfld {f : Fld} (hf : f.reg = .MS_COUNT ∨ f.reg = .MS_TARGET ∨ f.reg = .MS_CFG) : t.fld f m = s.fld f m := by
    refine fld_of_keeps h (regHas_ms hm hf) fun hin => ?_
    obtain ⟨hcount, htarget, hcfg⟩ := hl _ hin
    exact hf.elim hcount (·.elim htarget hcfg)
  simp only [State.msVals, hfld (f := F.MS_COUNT_COUNT) (by simp), hfld (f := F.MS_TARGET_TARGET) (by simp),
    hfld (f := F.MS_CFG_STRIDE) (by simp), hfld (f := F.MS_CFG_EVT) (by simp), hfld (f := F.MS_CFG_FIRED) (by simp),
    hfld (f := F.MS_CFG_OWNER) (by simp)]

theorem msVals_reply (h : CmdHdr) (st : Nat) (w : List Nat) : (s.reply h st w).msVals m = s.msVals m :=
  msVals_of_keeps hm (reply_keeps s h st w) fun x hx => by rw [reg_of_mem_replyRegs hx]; decide

variable (s) (v : Nat)

theorem msVals_setCount : (s.setFld F.MS_COUNT_COUNT v m).msVals m = { s.msVals m with count := v % 2 ^ 32 } := by
  simp (disch := decide) only [State.msVals, State.fld_setFld_same, fld_setFld_ms _ hm]

theorem msVals_setTarget : (s.setFld F.MS_TARGET_TARGET v m).msVals m = { s.msVals m with target := v % 2 ^ 32 } := by
  simp (disch := decide) only [State.msVals, State.fld_setFld_same, fld_setFld_ms _ hm]

theorem msVals_setStride : (s.setFld F.MS_CFG_STRIDE v m).msVals m = { s.msVals m with stride := v % 2 ^ 16 } := by
  simp (disch := decide) only [State.msVals, State.fld_setFld_same, State.fld_setFld_other, fld_setFld_ms _ hm]

theorem msVals_setEvt : (s.setFld F.MS_CFG_EVT v m).msVals m = { s.msVals m with evt := v % 2 ^ 1 } := by
  simp (disch := decide) only [State.msVals, State.fld_setFld_same, State.fld_setFld_other, fld_setFld_ms _ hm]

theorem msVals_setFired : (s.setFld F.MS_CFG_FIRED v m).msVals m = { s.msVals m with fired := v % 2 ^ 1 } := by
  simp (disch := decide) only [State.msVals, State.fld_setFld_same, State.fld_setFld_other, fld_setFld_ms _ hm]

/-- A write of a field of milestone `m` keeps every register but those of the milestone. -/
theorem keeps_setMs {f : Fld} (hf : f.reg = .MS_COUNT ∨ f.reg = .MS_TARGET ∨ f.reg = .MS_CFG) :
    s.keeps (s.setFld f v m) (msRegs m) :=
  keeps_mono (keeps_setFld s f v (regHas_ms hm hf)) (by obtain h | h | h := hf <;> simp [msRegs, h])

end

/-! ## The frame of an operation -/

/-- `t` differs from `s` in the registers of milestone `m` and in the pulses alone. -/
structure State.OnlyMs (s t : State) (m : Nat) : Prop where
  regs : s.keeps t (msRegs m)
  frame : t = { s with regs := t.regs, pulses := t.pulses }

theorem State.OnlyMs.refl (s : State) (m : Nat) : s.OnlyMs s m := ⟨keeps_refl s _, rfl⟩

theorem State.OnlyMs.trans {s t u : State} {m : Nat} (h : s.OnlyMs t m) (h' : t.OnlyMs u m) : s.OnlyMs u m :=
  ⟨keeps_mono (keeps_trans h.regs h'.regs) (by simp), by rw [h'.frame, h.frame]⟩

theorem onlyMs_of_onlyRegs {s t : State} {m : Nat} (h : s.onlyRegs t) (hk : s.keeps t (msRegs m)) : s.OnlyMs t m := by
  refine ⟨hk, ?_⟩
  rw [State.onlyRegs] at h
  rw [h]

theorem onlyMs_setFld (s : State) {m : Nat} (hm : m < 16384) (v : Nat) {f : Fld}
    (hf : f.reg = .MS_COUNT ∨ f.reg = .MS_TARGET ∨ f.reg = .MS_CFG) : s.OnlyMs (s.setFld f v m) m :=
  onlyMs_of_onlyRegs (onlyRegs_setFld ..) (keeps_setMs s hm v hf)

section
variable {s t : State} {m : Nat} (h : s.OnlyMs t m)
include h
theorem State.OnlyMs.waiters : t.waiters = s.waiters := by rw [h.frame]
theorem State.OnlyMs.out : t.out = s.out := by rw [h.frame]
theorem State.OnlyMs.mem : s.sameMemory t := sameMemory_of_stores (by rw [h.frame]) (by rw [h.frame])
theorem State.OnlyMs.quiet : t.csmQuiet = s.csmQuiet := csmQuiet_congr (by rw [h.frame]) (by rw [h.frame])
end

/-! ## Firing and evaluation -/

theorem msVals_congr {s t : State} (h : t.regs = s.regs) (m : Nat) : t.msVals m = s.msVals m := by
  simp only [State.msVals, State.fld_congr h]

/-- The pulses of a milestone that fires `n` times, where its EVT is set (R278). -/
def State.msPulse (s : State) (m n : Nat) : State := if s.flag F.MS_CFG_EVT m then s.pulse (.milestone m) n else s

theorem msPulse_eq (s : State) (m : Nat) {n : Nat} (hn : n ≠ 0) : s.msPulse m n =
    { s with pulses := s.pulses ++ if (s.msVals m).evt = 1 then [(.milestone m, n)] else [] } := by
  rw [State.msPulse, State.flag]
  simp only [beq_iff_eq]
  change (if (s.msVals m).evt = 1 then _ else _) = _
  split
  · rw [State.pulse, if_neg hn]
  · rw [List.append_nil]

/-- How often a milestone fires. -/
def MsVals.fires (x : MsVals) : Nat := fireCount x.count x.target x.stride

theorem MsVals.fires_ne_zero (x : MsVals) : x.fires ≠ 0 := by
  rw [MsVals.fires, fireCount]
  split <;> simp

/-- What firing makes of a milestone (R278): it is marked, and its target is raised past the count. -/
def MsVals.fire (x : MsVals) : MsVals := { x with fired := 1, target := (x.target + x.fires * x.stride) % 2 ^ 32 }

section
variable {s : State} {m : Nat} (hm : m < 16384)
include hm

theorem msFire_eq : s.msFire m = ((s.setFld F.MS_CFG_FIRED 1 m).msPulse m (s.msVals m).fires).setFld F.MS_TARGET_TARGET
    ((s.msVals m).target + (s.msVals m).fires * (s.msVals m).stride) m := by
  have htarget : ((s.setFld F.MS_CFG_FIRED 1 m).msPulse m (s.msVals m).fires).fld F.MS_TARGET_TARGET m = s.fld F.MS_TARGET_TARGET m :=
    (State.fld_congr (by rw [msPulse_eq _ _ (s.msVals m).fires_ne_zero]) ..).trans
      (fld_setFld_ms s hm _ (by simp) (by simp) (by decide))
  rw [show (s.msVals m).target = _ from htarget.symm]
  simp only [State.msFire, State.msPulse, State.msVals, MsVals.fires]

theorem msFire_vals : (s.msFire m).msVals m = (s.msVals m).fire := by
  rw [msFire_eq hm, msVals_setTarget _ hm, msVals_congr (s := s.setFld F.MS_CFG_FIRED 1 m) (by rw [msPulse_eq _ _ (s.msVals m).fires_ne_zero]),
    msVals_setFired s hm]
  rfl

theorem msFire_onlyMs : s.OnlyMs (s.msFire m) m := by
  rw [msFire_eq hm]
  refine (onlyMs_setFld s hm 1 (f := F.MS_CFG_FIRED) (by simp)).trans (.trans ?_ (onlyMs_setFld _ hm _ (f := F.MS_TARGET_TARGET) (by simp)))
  rw [msPulse_eq _ _ (s.msVals m).fires_ne_zero]
  exact ⟨keeps_of_regs _ rfl, rfl⟩

theorem msFire_pulses : (s.msFire m).pulses =
    s.pulses ++ if (s.msVals m).evt = 1 then [(.milestone m, (s.msVals m).fires)] else [] := by
  rw [msFire_eq hm, State.setFld_pulses, msPulse_eq _ _ (s.msVals m).fires_ne_zero, State.setFld_pulses, msVals_setFired s hm]

end

/-! ## Evaluation and release -/

/-- The evaluation after an operation (R278): a milestone that has become reached fires. -/
def State.msEvaluate (s : State) (m : Nat) (before : Bool) : State :=
  if !before && s.msReached m (s.fld F.MS_TARGET_TARGET m) then s.msFire m else s

theorem msApply_eq (s : State) (m : Nat) (f : State → State) :
    s.msApply m f = ((f s).msEvaluate m (s.msReached m (s.fld F.MS_TARGET_TARGET m))).msRelease m := rfl

/-- Nobody waits: nobody is released. -/
theorem msRelease_of_unwaited {s : State} {m : Nat} (h : s.unwaited m) : s.msRelease m = s := by
  have hnone : (s.waiters.filter fun w => w.m == m && s.msReached m w.t) = [] := by
    rw [List.filter_eq_nil_iff]
    intro w hw
    simp [h w hw]
  rw [State.msRelease, hnone]
  rfl

section
variable {s u : State} {m : Nat} (hm : m < 16384)
include hm

theorem msEvaluate_onlyMs (s : State) (before : Bool) : s.OnlyMs (s.msEvaluate m before) m := by
  rw [State.msEvaluate]
  split
  · exact msFire_onlyMs hm
  · exact .refl s m

end

/-- Does a milestone fire whose fields an operation has made those of `x` (R278). -/
def State.msFires (s : State) (m : Nat) (x : MsVals) : Bool :=
  !s.msReached m (s.fld F.MS_TARGET_TARGET m) && decide (aheadOf x.count x.target)

/-- The fields and pulses that an evaluation leaves, as the statements say them. -/
theorem evaluated_of_vals {s t : State} {m : Nat} {x : MsVals} (hx : x.owner = s.fld F.MS_CFG_OWNER m)
    (hvals : t.msVals m = if s.msFires m x then x.fire else x)
    (hpulses : t.pulses = s.pulses ++ if s.msFires m x && x.evt == 1 then [(.milestone m, x.fires)] else []) :
    s.evaluated t m x.count x.target x.stride (x.evt == 1) (x.fired == 1) := by
  have hcount : t.fld F.MS_COUNT_COUNT m = _ := congrArg MsVals.count hvals
  have htarget : t.fld F.MS_TARGET_TARGET m = _ := congrArg MsVals.target hvals
  have hstride : t.fld F.MS_CFG_STRIDE m = _ := congrArg MsVals.stride hvals
  have hevt : t.fld F.MS_CFG_EVT m = _ := congrArg MsVals.evt hvals
  have hfired : t.fld F.MS_CFG_FIRED m = _ := congrArg MsVals.fired hvals
  have howner : t.fld F.MS_CFG_OWNER m = _ := congrArg MsVals.owner hvals
  refine ⟨hcount.trans ?_, htarget.trans ?_, hstride.trans ?_, ?_, ?_, (howner.trans ?_).trans hx, hpulses⟩
  · split <;> rfl
  · change (if s.msFires m x then x.fire else x).target = if s.msFires m x then _ else _
    split <;> rfl
  · split <;> rfl
  · rw [State.flag, hevt]
    split <;> rfl
  · rw [State.flag, hfired]
    change _ = (_ || s.msFires m x)
    cases s.msFires m x
    · exact (Bool.or_false _).symm
    · exact (Bool.or_true _).symm
  · split <;> rfl

section
variable {s u : State} {m : Nat} (hm : m < 16384)
include hm

/-- What an operation that changes registers of the milestone alone leaves after its evaluation. -/
theorem msEvaluate_evaluated (hu : s.onlyRegs u) (howner : (u.msVals m).owner = s.fld F.MS_CFG_OWNER m) :
    s.evaluated (u.msEvaluate m (s.msReached m (s.fld F.MS_TARGET_TARGET m))) m (u.msVals m).count (u.msVals m).target (u.msVals m).stride
      ((u.msVals m).evt == 1) ((u.msVals m).fired == 1) := by
  have hpulses : u.pulses = s.pulses := by rw [show u = _ from hu]
  have hfires : (!s.msReached m (s.fld F.MS_TARGET_TARGET m) && u.msReached m (u.fld F.MS_TARGET_TARGET m)) = s.msFires m (u.msVals m) := by
    rw [msReached_eq_ahead u (u.fld_lt F.MS_TARGET_TARGET m 0)]
    rfl
  refine evaluated_of_vals howner ?_ ?_ <;> rw [State.msEvaluate, hfires]
  · rw [apply_ite (State.msVals · m), msFire_vals hm]
  · cases s.msFires m (u.msVals m)
    · exact hpulses.trans (List.append_nil _).symm
    · rw [if_pos rfl, msFire_pulses hm, hpulses, Bool.true_and]
      simp only [beq_iff_eq]

/-- One operation on a milestone that nobody waits for (R278): its fields, and all that it leaves. -/
theorem msApply_leaves {f : State → State} (hu : s.onlyRegs (f s)) (hk : s.keeps (f s) (msRegs m))
    (howner : ((f s).msVals m).owner = s.fld F.MS_CFG_OWNER m) (hw : s.unwaited m) :
    s.evaluated (s.msApply m f) m ((f s).msVals m).count ((f s).msVals m).target ((f s).msVals m).stride (((f s).msVals m).evt == 1)
      (((f s).msVals m).fired == 1) ∧ s.OnlyMs (s.msApply m f) m := by
  have honly := (onlyMs_of_onlyRegs hu hk).trans (msEvaluate_onlyMs hm (f s) (s.msReached m (s.fld F.MS_TARGET_TARGET m)))
  have hwait : ((f s).msEvaluate m (s.msReached m (s.fld F.MS_TARGET_TARGET m))).unwaited m := by
    rw [State.unwaited, honly.waiters]
    exact hw
  rw [msApply_eq, msRelease_of_unwaited hwait]
  exact ⟨msEvaluate_evaluated hm hu howner, honly⟩

end

/-- What an operation leaves is told by the milestone's fields and the pulses, before and after. -/
theorem evaluated_congr {s s' t t' : State} {m count target stride : Nat} {evt fired : Bool} (hs : s'.msVals m = s.msVals m)
    (hsp : s'.pulses = s.pulses) (ht : t'.msVals m = t.msVals m) (htp : t'.pulses = t.pulses)
    (h : s.evaluated t m count target stride evt fired) : s'.evaluated t' m count target stride evt fired := by
  simp only [State.msVals, MsVals.mk.injEq] at hs ht
  obtain ⟨hscount, hstarget, -, -, -, hsowner⟩ := hs
  obtain ⟨htcount, httarget, htstride, htevt, htfired, htowner⟩ := ht
  simp only [State.evaluated, State.msReached, State.flag, hscount, hstarget, hsowner, hsp, htcount, httarget, htstride, htevt, htfired,
    htowner, htp] at h ⊢
  exact h

/-! ## The operations -/

section
variable {s : State} {m : Nat} (hm : m < 16384) (hw : s.unwaited m)
include hm hw

/-- ARRIVE at an owned milestone (R277, R279). -/
theorem msArrive_leaves {n : Nat} (hn : 0 < n) (howner : s.fld F.MS_CFG_OWNER m ≠ 0) :
    s.evaluated (s.msArrive m n) m ((s.fld F.MS_COUNT_COUNT m + n) % 2 ^ 32) (s.fld F.MS_TARGET_TARGET m) (s.fld F.MS_CFG_STRIDE m)
      (s.flag F.MS_CFG_EVT m) (s.flag F.MS_CFG_FIRED m) ∧ s.OnlyMs (s.msArrive m n) m := by
  have h := msApply_leaves (f := fun s => s.setFld F.MS_COUNT_COUNT (s.fld F.MS_COUNT_COUNT m + n) m) hm
    (onlyRegs_setFld ..) (keeps_setMs s hm _ (f := F.MS_COUNT_COUNT) (by simp)) (by rw [msVals_setCount s hm]; rfl) hw
  simp only [msVals_setCount s hm] at h
  rw [State.msArrive, if_neg (Nat.ne_of_gt hn)]
  simp only [if_neg howner]
  exact h

/-- ADVANCE (R277). -/
theorem msAdvance_leaves :
    s.evaluated (s.msAdvance m) m (s.fld F.MS_COUNT_COUNT m) ((s.fld F.MS_TARGET_TARGET m + s.fld F.MS_CFG_STRIDE m) % 2 ^ 32)
      (s.fld F.MS_CFG_STRIDE m) (s.flag F.MS_CFG_EVT m) (s.flag F.MS_CFG_FIRED m) ∧ s.OnlyMs (s.msAdvance m) m := by
  have h := msApply_leaves (f := fun s => s.setFld F.MS_TARGET_TARGET (s.fld F.MS_TARGET_TARGET m + s.fld F.MS_CFG_STRIDE m) m) hm
    (onlyRegs_setFld ..) (keeps_setMs s hm _ (f := F.MS_TARGET_TARGET) (by simp)) (by rw [msVals_setTarget s hm]; rfl) hw
  simp only [msVals_setTarget s hm] at h
  exact h

end

theorem getD_given {c : Prop} [Decidable c] (v d : Nat) : (if c then some v else none).getD d = if c then v else d := by split <;> rfl

/-- A field written where a value is given. -/
def State.putOpt (s : State) (f : Fld) (m : Nat) (v : Option Nat) : State :=
  match v with
  | some v => s.setFld f v m
  | none => s

/-- What SET writes before the evaluation (R277). -/
def State.msPut (s : State) (m : Nat) (count target stride evt : Option Nat) : State :=
  ((((s.putOpt F.MS_COUNT_COUNT m count).putOpt F.MS_TARGET_TARGET m target).putOpt F.MS_CFG_STRIDE m stride).putOpt F.MS_CFG_EVT m
    evt).setFld F.MS_CFG_FIRED 0 m

theorem msSet_eq (s : State) (m : Nat) (count target stride evt : Option Nat) :
    s.msSet m count target stride evt = s.msApply m fun s => s.msPut m count target stride evt := rfl

theorem putOpt_onlyRegs (s : State) (f : Fld) (m : Nat) (v : Option Nat) : s.onlyRegs (s.putOpt f m v) := by
  cases v
  · exact onlyRegs_refl s
  · exact onlyRegs_setFld ..

theorem msPut_onlyRegs (s : State) (m : Nat) (count target stride evt : Option Nat) : s.onlyRegs (s.msPut m count target stride evt) :=
  onlyRegs_trans (onlyRegs_trans (onlyRegs_trans (onlyRegs_trans (putOpt_onlyRegs ..) (putOpt_onlyRegs ..)) (putOpt_onlyRegs ..))
    (putOpt_onlyRegs ..)) (onlyRegs_setFld ..)

section
variable (s : State) {m : Nat} (hm : m < 16384)
include hm

theorem putOpt_keeps {f : Fld} (hf : f.reg = .MS_COUNT ∨ f.reg = .MS_TARGET ∨ f.reg = .MS_CFG) (v : Option Nat) :
    s.keeps (s.putOpt f m v) (msRegs m) := by
  cases v
  · exact keeps_refl s _
  · exact keeps_setMs s hm _ hf

theorem msPut_keeps (count target stride evt : Option Nat) : s.keeps (s.msPut m count target stride evt) (msRegs m) :=
  keeps_mono (keeps_trans (keeps_trans (keeps_trans (keeps_trans (putOpt_keeps s hm (f := F.MS_COUNT_COUNT) (by simp) count)
    (putOpt_keeps _ hm (f := F.MS_TARGET_TARGET) (by simp) target)) (putOpt_keeps _ hm (f := F.MS_CFG_STRIDE) (by simp) stride))
    (putOpt_keeps _ hm (f := F.MS_CFG_EVT) (by simp) evt)) (keeps_setMs _ hm 0 (f := F.MS_CFG_FIRED) (by simp))) (by simp)

theorem msVals_putCount (v : Option Nat) : (s.putOpt F.MS_COUNT_COUNT m v).msVals m =
    { s.msVals m with count := v.getD (s.msVals m).count % 2 ^ 32 } := by
  cases v
  · exact congrArg (fun n => { s.msVals m with count := n }) (Nat.mod_eq_of_lt (s.fld_lt F.MS_COUNT_COUNT m 0)).symm
  · exact msVals_setCount s hm _

theorem msVals_putTarget (v : Option Nat) : (s.putOpt F.MS_TARGET_TARGET m v).msVals m =
    { s.msVals m with target := v.getD (s.msVals m).target % 2 ^ 32 } := by
  cases v
  · exact congrArg (fun n => { s.msVals m with target := n }) (Nat.mod_eq_of_lt (s.fld_lt F.MS_TARGET_TARGET m 0)).symm
  · exact msVals_setTarget s hm _

theorem msVals_putStride (v : Option Nat) : (s.putOpt F.MS_CFG_STRIDE m v).msVals m =
    { s.msVals m with stride := v.getD (s.msVals m).stride % 2 ^ 16 } := by
  cases v
  · exact congrArg (fun n => { s.msVals m with stride := n }) (Nat.mod_eq_of_lt (s.fld_lt F.MS_CFG_STRIDE m 0)).symm
  · exact msVals_setStride s hm _

theorem msVals_putEvt (v : Option Nat) : (s.putOpt F.MS_CFG_EVT m v).msVals m =
    { s.msVals m with evt := v.getD (s.msVals m).evt % 2 ^ 1 } := by
  cases v
  · exact congrArg (fun n => { s.msVals m with evt := n }) (Nat.mod_eq_of_lt (s.fld_lt F.MS_CFG_EVT m 0)).symm
  · exact msVals_setEvt s hm _

theorem msVals_msPut (count target stride evt : Option Nat) : (s.msPut m count target stride evt).msVals m =
    ⟨count.getD (s.msVals m).count % 2 ^ 32, target.getD (s.msVals m).target % 2 ^ 32, stride.getD (s.msVals m).stride % 2 ^ 16,
      evt.getD (s.msVals m).evt % 2 ^ 1, 0, (s.msVals m).owner⟩ := by
  simp only [State.msPut, msVals_setFired _ hm, msVals_putEvt _ hm, msVals_putStride _ hm, msVals_putTarget _ hm, msVals_putCount _ hm,
    Nat.zero_mod]

/-- SET (R277): each field as given, or as the milestone had it. -/
theorem msSet_leaves (hw : s.unwaited m) {c0 c1 c2 c4 : Prop} [Decidable c0] [Decidable c1] [Decidable c2] [Decidable c4]
    {count target stride evt : Nat} (hcount : count < 2 ^ 32) (htarget : target < 2 ^ 32) (hstride : stride < 2 ^ 16) (hevt : evt < 2 ^ 1) :
    let t := s.msSet m (if c0 then some count else none) (if c1 then some target else none) (if c2 then some stride else none)
      (if c4 then some evt else none)
    s.evaluated t m (if c0 then count else s.fld F.MS_COUNT_COUNT m) (if c1 then target else s.fld F.MS_TARGET_TARGET m)
      (if c2 then stride else s.fld F.MS_CFG_STRIDE m) (if c4 then evt == 1 else s.flag F.MS_CFG_EVT m) false ∧ s.OnlyMs t m := by
  have h := msApply_leaves (f := fun s => s.msPut m (if c0 then some count else none) (if c1 then some target else none)
    (if c2 then some stride else none) (if c4 then some evt else none)) hm (msPut_onlyRegs ..) (msPut_keeps s hm _ _ _ _)
    (by rw [msVals_msPut s hm]; rfl) hw
  have fits {c : Prop} [Decidable c] {v d w : Nat} (hv : v < 2 ^ w) (hd : d < 2 ^ w) : (if c then v else d) % 2 ^ w = if c then v else d :=
    Nat.mod_eq_of_lt (by split <;> assumption)
  simp only [msVals_msPut s hm, getD_given] at h
  simp only [State.msVals, fits hcount (s.fld_lt F.MS_COUNT_COUNT m 0), fits htarget (s.fld_lt F.MS_TARGET_TARGET m 0),
    fits hstride (s.fld_lt F.MS_CFG_STRIDE m 0), fits hevt (s.fld_lt F.MS_CFG_EVT m 0), apply_ite (· == 1)] at h
  exact h

end

end Sys2Proof.Machine
end

section
/-! ARRIVE, SET and ADVANCE by their ways (R277 to R281, R299, R365): registers, arrivals of a path, commands. -/
namespace Sys2Proof.Machine

/-- `t` is `s` after an arrival of `n` at milestone `m` that the milestone unit has received (R277, R280). -/
structure State.Arrived (s t : State) (m n : Nat) : Prop where
  after : s.evaluated t m ((s.fld F.MS_COUNT_COUNT m + n) % 2 ^ 32) (s.fld F.MS_TARGET_TARGET m) (s.fld F.MS_CFG_STRIDE m)
    (s.flag F.MS_CFG_EVT m) (s.flag F.MS_CFG_FIRED m)
  regs : s.keeps t (msRegs m)
  frame : t = { s with regs := t.regs, pulses := t.pulses, arrRecv := t.arrRecv, arrMs := t.arrMs }

/-- The oldest arrival of a path reaches the milestone unit (R280). -/
theorem exec_msArrivalApply {s : State} (dt : Nat) {path : Fin 1100} {m : Fin 16384} {n : Nat} {rest : List Arrival}
    (hfly : s.arrFly = ⟨path, m, n⟩ :: rest) : exec (.msArrivalApply dt path) s =
      .next ((({ s.tick dt with arrFly := rest } : State).arrGot path m).msArrive m n) := by
  change execMsArrivalApply dt path s = _
  simp only [execMsArrivalApply, State.tick_arrFly, hfly, List.find?_cons_of_pos, List.eraseP_cons_of_pos, beq_self_eq_true]

section
variable {s : State} {m : Fin 16384} (hw : s.unwaited m)
include hw

theorem arrGot_msArrive_arrived {n : Nat} (hn : 0 < n) (howner : s.fld F.MS_CFG_OWNER m ≠ 0) (path : Nat) :
    s.Arrived ((s.arrGot path m).msArrive m n) m n := by
  obtain ⟨hev, hregs, hframe⟩ := msArrive_leaves (s := s.arrGot path m) m.isLt hw hn howner
  refine ⟨evaluated_congr (s := s.arrGot path m) rfl rfl rfl rfl hev, hregs, ?_⟩
  generalize (s.arrGot path m).msArrive m n = t at hframe
  rw [hframe]
  rfl

variable (dt : Nat) {n : Nat} (hn : 0 < n) (howner : s.fld F.MS_CFG_OWNER m ≠ 0)
include hn howner

/-- MS_ARRIVE written (R299). -/
theorem msArriveWrite_next (r : Requester) {v : Word} (hv : v.toNat % 2 ^ 16 = n)
    (ha : s.access (regAddr .MS_ARRIVE_REG m) 4 = .ok (hitOf .MS_ARRIVE_REG m 0)) :
    ∃ t, exec (.msArriveWrite dt r m v) s = .next t ∧
      s.evaluated t m ((s.fld F.MS_COUNT_COUNT m + n) % 2 ^ 32) (s.fld F.MS_TARGET_TARGET m) (s.fld F.MS_CFG_STRIDE m)
        (s.flag F.MS_CFG_EVT m) (s.flag F.MS_CFG_FIRED m) ∧ s.keeps t (msRegs m) ∧
      t = { s.tick dt with regs := t.regs, pulses := t.pulses, arrSent := t.arrSent, arrRecv := t.arrRecv, arrMs := t.arrMs } := by
  let u : State := { s.tick dt with arrSent := mapUpd 0 s.arrSent (arrivePath r) (· + 1) }
  have h := arrGot_msArrive_arrived (s := u) (m := m) hw hn howner (arrivePath r)
  have hexec : exec (.msArriveWrite dt r m v) s = .next ((u.arrGot (arrivePath r) m).msArrive m n) :=
    congrArg Host.Outcome.next ((accessing_of_ok ((access_tick s dt _ 4).trans ha) r _ _).trans (by rw [hv]; rfl))
  refine ⟨_, hexec, evaluated_congr (s := u) rfl rfl rfl rfl h.after, h.regs, ?_⟩
  have hframe := h.frame
  generalize (u.arrGot (arrivePath r) m).msArrive m n = t at hframe
  rw [hframe]

/-- The oldest arrival of a path (R280). -/
theorem msArrivalApply_next {path : Fin 1100} {rest : List Arrival} (hfly : s.arrFly = ⟨path, m, n⟩ :: rest) :
    ∃ t, exec (.msArrivalApply dt path) s = .next t ∧
      s.evaluated t m ((s.fld F.MS_COUNT_COUNT m + n) % 2 ^ 32) (s.fld F.MS_TARGET_TARGET m) (s.fld F.MS_CFG_STRIDE m)
        (s.flag F.MS_CFG_EVT m) (s.flag F.MS_CFG_FIRED m) ∧ t.arrFly = rest ∧ s.keeps t (msRegs m) ∧
      t = { s.tick dt with regs := t.regs, pulses := t.pulses, arrFly := rest, arrRecv := t.arrRecv, arrMs := t.arrMs } := by
  let u : State := { s.tick dt with arrFly := rest }
  have h := arrGot_msArrive_arrived (s := u) (m := m) hw hn howner path
  have hframe := h.frame
  refine ⟨_, exec_msArrivalApply dt hfly, evaluated_congr (s := u) rfl rfl rfl rfl h.after, ?_, h.regs, ?_⟩ <;>
    generalize (u.arrGot path m).msArrive m n = t at hframe <;> rw [hframe]

/-- The MS_ARRIVE command (R365). -/
theorem msArrive_next {h : CmdHdr} {p : List Word} (ht : s.takes (.msArrive dt h p) = true) (hm : bitsOf (pw p 0) 0 14 = m)
    (hp : bitsOf (pw p 0) 16 16 = n) : ∃ t, exec (.msArrive dt h p) s = .next t ∧
      s.evaluated t m ((s.fld F.MS_COUNT_COUNT m + n) % 2 ^ 32) (s.fld F.MS_TARGET_TARGET m) (s.fld F.MS_CFG_STRIDE m)
        (s.flag F.MS_CFG_EVT m) (s.flag F.MS_CFG_FIRED m) ∧ s.sameMemory t := by
  let u : State := { s.tick dt with arrSent := mapUpd 0 s.arrSent (cmdPath h) (· + 1) }
  have hu := arrGot_msArrive_arrived (s := u) (m := m) hw hn howner (cmdPath h)
  have hcmd : (s.tick dt).cMsArrive h p = ((u.arrGot (cmdPath h) m).msArrive m n).reply h 0 [] := by
    rw [State.cMsArrive, cmd_of_takes rfl ht, hm, hp]
    exact if_neg (Nat.ne_of_gt hn)
  have hframe := hu.frame
  have hafter := hu.after
  generalize (u.arrGot (cmdPath h) m).msArrive m n = t at hframe hafter hcmd
  have hquiet : t.csmQuiet = true := (csmQuiet_congr (s := s) (by rw [hframe]; rfl) (by rw [hframe]; rfl)).trans (takes_quiet_admitted rfl ht).1
  refine ⟨_, congrArg Host.Outcome.next (by rw [hcmd, settle_quiet _ (csmQuiet_reply _ h 0 [] hquiet)]), ?_, ?_⟩
  · exact evaluated_congr (s := u) rfl rfl (msVals_reply m.isLt h 0 []) (onlyReplies_pulses (reply_onlyReplies t h 0 [])) hafter
  · exact sameMemory_trans (sameMemory_of_stores (by rw [hframe]; rfl) (by rw [hframe]; rfl)) (reply_sameMemory t h 0 [])

end

/-- May the requester set the milestone (R277, R279): the MC, or the host where the host owns it. -/
abbrev State.maySet (s : State) (r : Requester) (m : Nat) : Prop := r = .mc ∨ (fromHost r = true ∧ s.fld F.MS_CFG_OWNER m = 1)

theorem msMay_iff (s : State) (m : Nat) (r : Requester) : s.msMay m (decide (r = .mc)) (fromHost r) = true ↔ s.maySet r m := by
  rw [State.msMay, Bool.or_eq_true, decide_eq_true_eq, Bool.and_eq_true, beq_iff_eq]

section
variable {s : State} {m : Fin 16384} (hw : s.unwaited m) (dt : Nat)

/-- A write of a milestone register that reaches it. -/
theorem exec_msRegisterSet (dt : Nat) (r : Requester) {k : Fin 3} (v : Word)
    (ha : s.access (regAddr (msReg k) m) 4 = .ok (hitOf (msReg k) m 0)) :
    exec (.msRegisterSet dt r k m v) s = .next ((s.tick dt).msRegWrite r (msReg k) m v.toNat) :=
  congrArg Host.Outcome.next (accessing_of_ok ((access_tick s dt _ 4).trans ha) r _ _)

/-- Whoever may not set the milestone changes nothing of it, and is recorded (R279). -/
theorem msRegisterSet_refused {r : Requester} {k : Fin 3} (v : Word)
    (ha : s.access (regAddr (msReg k) m) 4 = .ok (hitOf (msReg k) m 0)) (hr : r ≠ .mc) (howner : s.fld F.MS_CFG_OWNER m ≠ 1) :
    exec (.msRegisterSet dt r k m v) s =
      .next (((s.tick dt).aelReg r (regAddr (msReg k) m) 7 0x0501 v.toNat).inc F.MS_STAT_NOT_OWNER) := by
  have hnot : ¬ (s.tick dt).maySet r m := fun h => h.elim hr fun h => howner h.2
  rw [exec_msRegisterSet dt r v ha]
  unfold State.msRegWrite
  rw [if_neg fun h => hnot ((msMay_iff _ m r).1 h)]

/-- A register write is a SET of the register's fields (R299). -/
theorem msRegWrite_eq {s : State} {r : Requester} {m : Nat} (hr : s.maySet r m) (k : Fin 3) (v : Nat) : s.msRegWrite r (msReg k) m v =
    s.msSet m (if k = 0 then some v else none) (if k = 1 then some v else none) (if k = 2 then some (v % 2 ^ 16) else none)
      (if k = 2 then some (bitsOf v 27 1) else none) := by
  unfold State.msRegWrite
  rw [if_pos ((msMay_iff s m r).2 hr)]
  match k with
  | 0 => rfl
  | 1 => rfl
  | 2 => rfl

/-- A reply to the MC after an operation on a milestone. -/
theorem reply_mc_leaves {t : State} (ht : s.OnlyMs t m) {count target stride : Nat} {evt fired : Bool}
    (hev : s.evaluated t m count target stride evt fired) {h : CmdHdr} (hsrc : h.src = .mc) (st : Nat) (w : List Nat) :
    s.evaluated (t.reply h st w) m count target stride evt fired ∧ s.keeps (t.reply h st w) (msRegs m) ∧ s.sameMemory (t.reply h st w) :=
  ⟨evaluated_congr rfl rfl (msVals_reply m.isLt h st w) (onlyReplies_pulses (reply_onlyReplies t h st w)) hev,
    keeps_mono (keeps_trans ht.regs (reply_keeps t h st w)) (by simp [replyRegs_mc hsrc]), sameMemory_trans ht.mem (reply_sameMemory t h st w)⟩

/-- A SET or ADVANCE command of the MC is the operation and a reply (R277, R365). -/
theorem msOwned_next {t : State} {count target stride : Nat} {evt fired : Bool} {h : CmdHdr} (hsrc : h.src = .mc) {f : State → State}
    (hev : (s.tick dt).evaluated (f (s.tick dt)) m count target stride evt fired) (honly : (s.tick dt).OnlyMs (f (s.tick dt)) m)
    (hq : s.csmQuiet = true) (ht : ((s.tick dt).msOwned h m f).settle = t) :
    s.evaluated t m count target stride evt fired ∧ s.keeps t (msRegs m) ∧ s.sameMemory t := by
  subst ht
  have hmay : (s.tick dt).msMay m (cmdMc h) (!cmdMc h) = true := by rw [State.msMay, cmdMc, hsrc]; rfl
  have hquiet : ((f (s.tick dt)).reply h 0 []).csmQuiet = true := csmQuiet_reply _ h 0 [] (honly.quiet.trans hq)
  rw [State.msOwned, if_pos hmay, settle_quiet _ hquiet]
  obtain ⟨h1, h2, h3⟩ := reply_mc_leaves honly hev hsrc 0 []
  exact ⟨evaluated_congr rfl rfl rfl rfl h1, h2, h3⟩

include hw

/-- A register write by the MC or the owner (R279, R299). -/
theorem msRegisterSet_next {r : Requester} {k : Fin 3} (v : Word)
    (ha : s.access (regAddr (msReg k) m) 4 = .ok (hitOf (msReg k) m 0)) (hr : s.maySet r m) :
    ∃ t, exec (.msRegisterSet dt r k m v) s = .next t ∧
      s.evaluated t m (if k = 0 then v.toNat else s.fld F.MS_COUNT_COUNT m) (if k = 1 then v.toNat else s.fld F.MS_TARGET_TARGET m)
        (if k = 2 then v.toNat % 2 ^ 16 else s.fld F.MS_CFG_STRIDE m)
        (if k = 2 then bitsOf v.toNat 27 1 == 1 else s.flag F.MS_CFG_EVT m) false ∧
      s.keeps t (msRegs m) ∧ t = { s.tick dt with regs := t.regs, pulses := t.pulses } := by
  obtain ⟨hev, hregs, hframe⟩ := msSet_leaves (c0 := k = 0) (c1 := k = 1) (c2 := k = 2) (c4 := k = 2) (s.tick dt) m.isLt hw v.isLt v.isLt
    (Nat.mod_lt v.toNat (Nat.two_pow_pos 16)) (bitsOf_lt v.toNat 27 1)
  rw [exec_msRegisterSet dt r v ha, msRegWrite_eq (s := s.tick dt) hr]
  exact ⟨_, rfl, evaluated_congr rfl rfl rfl rfl hev, hregs, hframe⟩

section
variable {h : CmdHdr} (hsrc : h.src = .mc) {p : List Word} (hm : bitsOf (pw p 0) 0 14 = m)
include hsrc hm

/-- The MS_SET command of the MC (R365). -/
theorem msSet_next (ht : s.takes (.msSet dt h p) = true) (howner : bitsOf (pw p 0) 19 1 = 0) :
    ∃ t, exec (.msSet dt h p) s = .next t ∧
      s.evaluated t m (if bitsOf (pw p 0) 16 1 = 1 then pw p 1 else s.fld F.MS_COUNT_COUNT m)
        (if bitsOf (pw p 0) 17 1 = 1 then pw p 2 else s.fld F.MS_TARGET_TARGET m)
        (if bitsOf (pw p 0) 18 1 = 1 then bitsOf (pw p 3) 0 16 else s.fld F.MS_CFG_STRIDE m)
        (if bitsOf (pw p 0) 20 1 = 1 then bitsOf (pw p 3) 16 1 == 1 else s.flag F.MS_CFG_EVT m) false ∧
      s.keeps t (msRegs m) ∧ s.sameMemory t := by
  obtain ⟨hev, honly⟩ := msSet_leaves (c0 := bitsOf (pw p 0) 16 1 = 1) (c1 := bitsOf (pw p 0) 17 1 = 1) (c2 := bitsOf (pw p 0) 18 1 = 1)
    (c4 := bitsOf (pw p 0) 20 1 = 1) (s.tick dt) m.isLt hw (p.getD 1 0).isLt (p.getD 2 0).isLt (bitsOf_lt (pw p 3) 0 16)
    (bitsOf_lt (pw p 3) 16 1)
  refine ⟨_, rfl, msOwned_next dt hsrc (f := fun s => s.msSet m _ _ _ _) hev honly (takes_quiet_admitted rfl ht).1 ?_⟩
  have hno : ¬bitsOf (pw p 0) 19 1 = 1 := by rw [howner]; decide
  rw [State.cMsSet, cmd_of_takes rfl ht]
  dsimp only
  rw [if_neg hno, hm]
  rfl

/-- The MS_ADVANCE command of the MC (R365). -/
theorem msAdvance_next (ht : s.takes (.msAdvance dt h p) = true) :
    ∃ t, exec (.msAdvance dt h p) s = .next t ∧
      s.evaluated t m (s.fld F.MS_COUNT_COUNT m) ((s.fld F.MS_TARGET_TARGET m + s.fld F.MS_CFG_STRIDE m) % 2 ^ 32)
        (s.fld F.MS_CFG_STRIDE m) (s.flag F.MS_CFG_EVT m) (s.flag F.MS_CFG_FIRED m) ∧ s.keeps t (msRegs m) ∧ s.sameMemory t := by
  obtain ⟨hev, honly⟩ := msAdvance_leaves (s := s.tick dt) m.isLt hw
  refine ⟨_, rfl, msOwned_next dt hsrc (f := fun s => s.msAdvance m) hev honly (takes_quiet_admitted rfl ht).1 ?_⟩
  rw [State.cMsAdvance, cmd_of_takes rfl ht, hm]

end

end

/-- Settles O20: each way is one operation on the milestone with nobody to release, and for a command its reply. -/
theorem milestonesTakeArrivalsAndSettings : Obligations.MilestonesTakeArrivalsAndSettings := by
  refine ⟨fun dt m n s hn _ howner hw => ⟨?_, ?_, ?_⟩, fun dt m s hw => ⟨fun r k v ha => ⟨?_, ?_⟩, fun h p hsrc hm => ⟨?_, ?_⟩⟩⟩
  · exact fun r v hv ha => msArriveWrite_next hw dt hn howner r hv ha
  · exact fun path rest hfly => msArrivalApply_next hw dt hn howner hfly
  · exact fun h p ht hm hp => msArrive_next hw dt hn howner ht hm hp
  · exact msRegisterSet_next hw dt v ha
  · exact msRegisterSet_refused dt v ha
  · exact msSet_next hw dt hsrc hm
  · exact msAdvance_next hw dt hsrc hm

end Sys2Proof.Machine
end

section
/-! MS_WAIT (R276, R280, R365): answered at once, held, timed out, or answered by the arrival that reaches its target. -/
namespace Sys2Proof.Machine

section
variable {s : State} (dt : Nat) {h : CmdHdr}

section
variable {p : List Word} (ht : s.takes (.msWait dt h p) = true)
include ht

theorem cMsWait_of_takes : (s.tick dt).cMsWait h p =
    if s.msReached (bitsOf (pw p 0) 0 14) (pw p 1) then (s.tick dt).reply h 0 [s.fld F.MS_COUNT_COUNT (bitsOf (pw p 0) 0 14)]
    else if 1024 ≤ s.waitCmds then (s.tick dt).reply h 0x0204 []
    else { s.tick dt with
      waiters := s.waiters ++ [⟨.cmd h (if pw p 2 = 0 then none else some ((s.now + dt) % 2 ^ 64 + pw p 2 * 1000)),
        bitsOf (pw p 0) 0 14, pw p 1⟩] } := by
  rw [State.cMsWait, cmd_of_takes rfl ht]
  rfl

/-- A milestone that is reached answers at once. -/
theorem msWait_answered (hr : s.msReached (bitsOf (pw p 0) 0 14) (pw p 1) = true) :
    exec (.msWait dt h p) s = .next ((s.tick dt).reply h 0 [s.fld F.MS_COUNT_COUNT (bitsOf (pw p 0) 0 14)]) := by
  have hquiet := csmQuiet_reply (s.tick dt) h 0 [s.fld F.MS_COUNT_COUNT (bitsOf (pw p 0) 0 14)] (takes_quiet_admitted rfl ht).1
  exact congrArg Host.Outcome.next (by rw [cMsWait_of_takes dt ht, if_pos hr, settle_quiet _ hquiet])

/-- Any other holds the command, within the 1,024 that can wait. -/
theorem msWait_held (hr : s.msReached (bitsOf (pw p 0) 0 14) (pw p 1) = false) (hroom : s.waitCmds < 1024) :
    exec (.msWait dt h p) s = .next { s.tick dt with
      waiters := s.waiters ++ [⟨.cmd h (if pw p 2 = 0 then none else some ((s.now + dt) % 2 ^ 64 + pw p 2 * 1000)),
        bitsOf (pw p 0) 0 14, pw p 1⟩] } := by
  have hquiet : s.csmQuiet = true := (takes_quiet_admitted rfl ht).1
  refine congrArg Host.Outcome.next ?_
  rw [cMsWait_of_takes dt ht, if_neg (by rw [hr]; exact Bool.false_ne_true), if_neg (Nat.not_le.2 hroom)]
  exact settle_quiet _ hquiet

end

/-- A waiter alone, once it no longer waits. -/
theorem filter_ne_singleton (w : Waiter) : ([w].filter fun x => decide (x ≠ w)) = [] := by simp

/-- The timeout of the only command that waits ends it (R365). -/
theorem msWaitTimeout_ends {d m g : Nat} (hq : s.csmQuiet = true) (hw : s.waiters = [⟨.cmd h (some d), m, g⟩])
    (hd : d ≤ (s.now + dt) % 2 ^ 64) :
    exec (.msWaitTimeout dt h) s = .next (({ s.tick dt with waiters := [] } : State).reply h 0x0507 []) := by
  have hquiet := csmQuiet_reply ({ s.tick dt with waiters := [] } : State) h 0x0507 [] hq
  have hdue : decide (d ≤ (s.tick dt).now) = true := decide_eq_true hd
  change execMsWaitTimeout dt h s = _
  simp only [execMsWaitTimeout, State.tick_waiters, hw, List.find?_cons, hdue, beq_self_eq_true, Bool.and_self, filter_ne_singleton,
    settle_quiet _ hquiet]

/-! ## The arrival that answers -/

/-- The command that waits for a milestone which has been reached is answered with the count, and waits no more (R280). -/
theorem msRelease_of_one_command {m d g : Nat} (hw : s.waiters = [⟨.cmd h (some d), m, g⟩]) (hr : s.msReached m g = true) :
    s.msRelease m = ({ s with waiters := [] } : State).reply h 0 [s.fld F.MS_COUNT_COUNT m] := by
  rw [State.msRelease, hw]
  simp [hr, sortBy, State.release1, hw]

end

theorem reply_mc_out (s : State) {h : CmdHdr} (hsrc : h.src = .mc) (st : Nat) (w : List Nat) :
    (s.reply h st w).out = s.out ++ [.mcReply ⟨h, st, true, w⟩] := by
  rw [reply_eq, hsrc]
  rfl

/-- What the answer leaves, for a command of the MC. -/
theorem msRelease_answers {s : State} {h : CmdHdr} (hsrc : h.src = .mc) {m d g : Nat} (hw : s.waiters = [⟨.cmd h (some d), m, g⟩])
    (hr : s.msReached m g = true) : (s.msRelease m).waiters = [] ∧
    (s.msRelease m).out = s.out ++ [.mcReply ⟨h, 0, true, [s.fld F.MS_COUNT_COUNT m]⟩] ∧ s.sameMemory (s.msRelease m) := by
  rw [msRelease_of_one_command hw hr]
  have hmem : s.sameMemory { s with waiters := [] } := sameMemory_of_stores rfl rfl
  exact ⟨onlyReplies_waiters (reply_onlyReplies ..), reply_mc_out _ hsrc 0 _, sameMemory_trans hmem (reply_sameMemory ..)⟩

/-- An arrival at a milestone without an owner is counted as stray (R279). -/
def State.strayed (s : State) (m : Nat) : State := if s.fld F.MS_CFG_OWNER m = 0 then s.inc F.MS_STAT_STRAY else s

theorem strayed_onlyRegs (s : State) (m : Nat) : s.onlyRegs (s.strayed m) := by
  rw [State.strayed]
  split
  · exact onlyRegs_setFld ..
  · exact onlyRegs_refl s

theorem strayed_count (s : State) {m : Nat} (hm : m < 16384) : (s.strayed m).fld F.MS_COUNT_COUNT m = s.fld F.MS_COUNT_COUNT m := by
  rw [State.strayed]
  split
  · exact fld_of_keeps (keeps_inc s F.MS_STAT_STRAY ⟨Nat.one_pos, Nat.one_pos⟩) ⟨hm, Nat.one_pos⟩ (by simp)
  · rfl

theorem msArrive_eq (s : State) (m : Nat) {n : Nat} (hn : 0 < n) :
    s.msArrive m n = (s.strayed m).msApply m fun s => s.setFld F.MS_COUNT_COUNT (s.fld F.MS_COUNT_COUNT m + n) m := by
  rw [State.msArrive, if_neg (Nat.ne_of_gt hn)]
  rfl

theorem msEvaluate_count {s : State} {m : Nat} (hm : m < 16384) (before : Bool) :
    (s.msEvaluate m before).fld F.MS_COUNT_COUNT m = s.fld F.MS_COUNT_COUNT m := by
  rw [State.msEvaluate]
  split
  · exact congrArg MsVals.count (msFire_vals hm)
  · rfl

/-- An arrival that reaches the target of the only command that waits, one of the MC (R280). -/
theorem msArrive_answers {s : State} {h : CmdHdr} (hsrc : h.src = .mc) {m d g n : Nat} (hm : m < 16384)
    (hw : s.waiters = [⟨.cmd h (some d), m, g⟩]) (hn : 0 < n) (hahead : aheadOf ((s.fld F.MS_COUNT_COUNT m + n) % 2 ^ 32) (g % 2 ^ 32)) :
    (s.msArrive m n).waiters = [] ∧
    (s.msArrive m n).out = s.out ++ [.mcReply ⟨h, 0, true, [(s.fld F.MS_COUNT_COUNT m + n) % 2 ^ 32]⟩] ∧ s.sameMemory (s.msArrive m n) := by
  rw [msArrive_eq s m hn, msApply_eq]
  have hstray : s.strayed m = { s with regs := (s.strayed m).regs } := strayed_onlyRegs s m
  have hraised : ((s.strayed m).setFld F.MS_COUNT_COUNT ((s.strayed m).fld F.MS_COUNT_COUNT m + n) m).fld F.MS_COUNT_COUNT m =
      (s.fld F.MS_COUNT_COUNT m + n) % 2 ^ 32 := by
    rw [State.fld_setFld_same _ _ _ _ _ (by decide), strayed_count s hm]
  have hset := onlyMs_setFld (s.strayed m) hm (f := F.MS_COUNT_COUNT) ((s.strayed m).fld F.MS_COUNT_COUNT m + n) (by simp)
  generalize (s.strayed m).setFld F.MS_COUNT_COUNT ((s.strayed m).fld F.MS_COUNT_COUNT m + n) m = u at hraised hset ⊢
  generalize (s.strayed m).msReached m ((s.strayed m).fld F.MS_TARGET_TARGET m) = before
  have honly := hset.trans (msEvaluate_onlyMs hm u before)
  have hcount := (msEvaluate_count hm before).trans hraised
  generalize u.msEvaluate m before = v at honly hcount ⊢
  have hwait : v.waiters = [⟨.cmd h (some d), m, g⟩] := by rw [honly.waiters, hstray, ← hw]
  have hreached : v.msReached m g = true := by
    rw [State.msReached, hcount]
    exact decide_eq_true hahead
  have hmem : s.sameMemory v :=
    sameMemory_trans (sameMemory_of_stores (onlyRegs_depot (strayed_onlyRegs s m)) (onlyRegs_hbm (strayed_onlyRegs s m))) honly.mem
  obtain ⟨hnone, hout, hsame⟩ := msRelease_answers hsrc hwait hreached
  have hsent : v.out = s.out := by rw [honly.out, hstray]
  rw [hcount, hsent] at hout
  exact ⟨hnone, hout, sameMemory_trans hmem hsame⟩

theorem msArrivalApply_answers {s : State} (dt : Nat) {h : CmdHdr} (hsrc : h.src = .mc) {path : Fin 1100} {m : Fin 16384} {d g n : Nat}
    (hw : s.waiters = [⟨.cmd h (some d), m, g⟩]) (hfly : s.arrFly = [⟨path, m, n⟩]) (hn : 0 < n)
    (hahead : aheadOf ((s.fld F.MS_COUNT_COUNT m + n) % 2 ^ 32) (g % 2 ^ 32)) :
    ∃ t, exec (.msArrivalApply dt path) s = .next t ∧ t.waiters = [] ∧
      t.out = s.out ++ [.mcReply ⟨h, 0, true, [(s.fld F.MS_COUNT_COUNT m + n) % 2 ^ 32]⟩] ∧ s.sameMemory t :=
  ⟨_, exec_msArrivalApply dt hfly, msArrive_answers (s := ({ s.tick dt with arrFly := [] } : State).arrGot path m) hsrc m.isLt hw hn hahead⟩

/-- Settles O21: what is due is decided by the milestone as it is; the only command that waits is released by its timeout or by the arrival. -/
theorem milestoneWaits : Obligations.MilestoneWaits := by
  intro dt h s
  refine ⟨fun p ht => ⟨msWait_answered dt ht, msWait_held dt ht⟩, fun d m g hq hw hd => msWaitTimeout_ends dt hq hw hd, ?_⟩
  exact fun path m d g n hsrc hw hfly hn _ hahead => msArrivalApply_answers dt hsrc hw hfly hn hahead

end Sys2Proof.Machine
end

section
/-! A transaction's registers, its records and its slot (R285 to R287): what each write leaves, and the operations in these terms. -/
namespace Sys2Proof.Machine

/-! ## Registers -/

/-- What the registers of the transactions say of one, and of the records and the slots that are left (R287, R289). -/
structure TxVals where
  state : Nat
  rec_ : Nat
  point : Nat
  last : Nat
  size : Nat
  used : Nat
  free : Nat
  opened : Nat

/-- The values of transaction `t`. -/
def State.txVals (s : State) (t : Nat) : TxVals :=
  ⟨s.fld F.WAY_TX_STAT_STATE t, s.fld F.WAY_TX_STAT_REC t, s.fld F.WAY_TX_STAT_POINT t, s.fld F.WAY_TX_STAT_LAST_STATUS t,
    s.fld F.WAY_TX_SIZE_SIZE t, s.fld F.WAY_TX_SIZE_USED t, s.fld F.WAY_STAT_FREE, s.fld F.WAY_STAT_OPEN⟩

theorem txVals_congr {s x : State} (h : x.regs = s.regs) (t : Nat) : x.txVals t = s.txVals t := by
  simp only [State.txVals, State.fld_congr h]

/-- The registers of transaction `t`, and the one of them all. -/
def txRegs (t : Nat) : List (Reg × Nat × Nat) := [(.WAY_STAT, 0, 0), (.WAY_TX_SIZE, t, 0), (.WAY_TX_STAT, t, 0), (.WAY_TX_POINT, t, 0)]

/-- A register that each transaction has. -/
abbrev ofTx (r : Reg) : Prop := r = .WAY_TX_STAT ∨ r = .WAY_TX_SIZE ∨ r = .WAY_TX_POINT

section
variable {s x : State} {t : Nat} (ht : t < 64)
include ht

theorem regHas_tx {r : Reg} (hr : ofTx r) : regHas r t 0 := by
  obtain rfl | rfl | rfl := hr <;> exact ⟨ht, Nat.one_pos⟩

theorem txVals_of_keeps {l : List (Reg × Nat × Nat)} (h : s.keeps x l) (hl : ∀ y ∈ l, y.1 ≠ .WAY_STAT ∧ ¬ofTx y.1) :
    x.txVals t = s.txVals t := by
  have own {f : Fld} (hf : ofTx f.reg) : x.fld f t = s.fld f t :=
    fld_of_keeps h (regHas_tx ht hf) fun hin => (hl _ hin).2 hf
  have all {f : Fld} (hf : f.reg = .WAY_STAT) : x.fld f 0 = s.fld f 0 :=
    fld_of_keeps h (by rw [hf]; exact ⟨Nat.one_pos, Nat.one_pos⟩) fun hin => (hl _ hin).1 hf
  simp (disch := decide) only [State.txVals, own, all]

theorem txVals_reply (h : CmdHdr) (st : Nat) (w : List Nat) : (s.reply h st w).txVals t = s.txVals t :=
  txVals_of_keeps ht (reply_keeps s h st w) fun y hy => by rw [reg_of_mem_replyRegs hy]; decide

theorem txVals_replyPending (h : CmdHdr) : (s.replyPending h).txVals t = s.txVals t :=
  txVals_of_keeps ht (replyPending_keeps s h) fun y hy => by rw [reg_of_mem_replyRegs hy]; decide

variable (s)

/-- A field of a transaction after a write of another of its registers, or of WAY_STAT. -/
theorem fld_setReg_tx {r : Reg} {g : Fld} (v : Nat) (hr : ofTx r) (hg : ofTx g.reg) (hne : g.reg ≠ r) :
    (s.setReg r v t).fld g t = s.fld g t := fld_of_keeps (keeps_setReg s v (regHas_tx ht hr)) (regHas_tx ht hg) (by simp [hne])

theorem fld_setFld_tx {f g : Fld} (v : Nat) (hf : ofTx f.reg) (hg : ofTx g.reg) (hne : g.reg ≠ f.reg) :
    (s.setFld f v t).fld g t = s.fld g t := fld_setReg_tx s ht _ hf hg hne

theorem fld_setFld_stat_tx {f g : Fld} (v : Nat) (hf : f.reg = .WAY_STAT) (hg : ofTx g.reg) : (s.setFld f v).fld g t = s.fld g t := by
  have hhas : regHas f.reg 0 0 := by rw [hf]; exact ⟨Nat.one_pos, Nat.one_pos⟩
  refine fld_of_keeps (keeps_setFld s f v hhas) (regHas_tx ht hg) ?_
  rw [hf]
  obtain h | h | h := hg <;> simp [h]

/-- A field of WAY_STAT after a write of a transaction's own register. -/
theorem fld_setReg_tx_stat {r : Reg} {g : Fld} (v : Nat) (hr : ofTx r) (hg : g.reg = .WAY_STAT) : (s.setReg r v t).fld g = s.fld g := by
  have hhas : regHas g.reg 0 0 := by rw [hg]; exact ⟨Nat.one_pos, Nat.one_pos⟩
  refine fld_of_keeps (keeps_setReg s v (regHas_tx ht hr)) hhas ?_
  rw [hg]
  obtain h | h | h := hr <;> simp [h]

theorem fld_setFld_tx_of_stat {f g : Fld} (v : Nat) (hf : ofTx f.reg) (hg : g.reg = .WAY_STAT) : (s.setFld f v t).fld g = s.fld g :=
  fld_setReg_tx_stat s ht _ hf hg

/-! One lemma per field or register written. -/

theorem txVals_setState (v : Nat) : (s.setFld F.WAY_TX_STAT_STATE v t).txVals t = { s.txVals t with state := v % 2 ^ 3 } := by
  simp (disch := decide) only [State.txVals, State.fld_setFld_same, State.fld_setFld_other, fld_setFld_tx _ ht, fld_setFld_tx_of_stat _ ht]

theorem txVals_setPoint (v : Nat) : (s.setFld F.WAY_TX_STAT_POINT v t).txVals t = { s.txVals t with point := v % 2 ^ 2 } := by
  simp (disch := decide) only [State.txVals, State.fld_setFld_same, State.fld_setFld_other, fld_setFld_tx _ ht, fld_setFld_tx_of_stat _ ht]

theorem txVals_setLast (v : Nat) : (s.setFld F.WAY_TX_STAT_LAST_STATUS v t).txVals t = { s.txVals t with last := v % 2 ^ 16 } := by
  simp (disch := decide) only [State.txVals, State.fld_setFld_same, State.fld_setFld_other, fld_setFld_tx _ ht, fld_setFld_tx_of_stat _ ht]

theorem txVals_setSize (v : Nat) : (s.setFld F.WAY_TX_SIZE_SIZE v t).txVals t = { s.txVals t with size := v % 2 ^ 11 } := by
  simp (disch := decide) only [State.txVals, State.fld_setFld_same, State.fld_setFld_other, fld_setFld_tx _ ht, fld_setFld_tx_of_stat _ ht]

theorem txVals_setUsed (v : Nat) : (s.setFld F.WAY_TX_SIZE_USED v t).txVals t = { s.txVals t with used := v % 2 ^ 11 } := by
  simp (disch := decide) only [State.txVals, State.fld_setFld_same, State.fld_setFld_other, fld_setFld_tx _ ht, fld_setFld_tx_of_stat _ ht]

theorem txVals_setFree (v : Nat) : (s.setFld F.WAY_STAT_FREE v).txVals t = { s.txVals t with free := v % 2 ^ 11 } := by
  simp (disch := decide) only [State.txVals, State.fld_setFld_same, State.fld_setFld_other, fld_setFld_stat_tx _ ht]

theorem txVals_setOpen (v : Nat) : (s.setFld F.WAY_STAT_OPEN v).txVals t = { s.txVals t with opened := v % 2 ^ 7 } := by
  simp (disch := decide) only [State.txVals, State.fld_setFld_same, State.fld_setFld_other, fld_setFld_stat_tx _ ht]

/-- Records taken from the pool or given back, and a slot taken or given back. -/
theorem txVals_takeFree (n : Nat) : (s.setFld F.WAY_STAT_FREE (s.fld F.WAY_STAT_FREE - n)).txVals t =
    { s.txVals t with free := ((s.txVals t).free - n) % 2 ^ 11 } := txVals_setFree s ht _

theorem txVals_giveFree (n : Nat) : (s.setFld F.WAY_STAT_FREE (s.fld F.WAY_STAT_FREE + n)).txVals t =
    { s.txVals t with free := ((s.txVals t).free + n) % 2 ^ 11 } := txVals_setFree s ht _

theorem txVals_takeOpen : (s.setFld F.WAY_STAT_OPEN (s.fld F.WAY_STAT_OPEN + 1)).txVals t =
    { s.txVals t with opened := ((s.txVals t).opened + 1) % 2 ^ 7 } := txVals_setOpen s ht _

theorem txVals_setRsvFree (v : Nat) : (s.setFld F.WAY_STAT_RSV_FREE v).txVals t = s.txVals t := by
  simp (disch := decide) only [State.txVals, State.fld_setFld_other, fld_setFld_stat_tx _ ht]

theorem txVals_setRecOpen (v : Nat) : (s.setFld F.WAY_STAT_REC_OPEN v).txVals t = s.txVals t := by
  simp (disch := decide) only [State.txVals, State.fld_setFld_other, fld_setFld_stat_tx _ ht]

theorem txVals_setPointArg (v : Nat) : (s.setReg .WAY_TX_POINT v t).txVals t = s.txVals t := by
  simp (disch := decide) only [State.txVals, fld_setReg_tx _ ht, fld_setReg_tx_stat _ ht]

/-- The register of a transaction that opens (R287): its state and its pool, no commit point, the last status as it was. -/
theorem txVals_setStat (v : Nat) : (s.setReg .WAY_TX_STAT v t).txVals t = { s.txVals t with
    state := bitsOf (v % 2 ^ 64) 29 3
    rec_ := bitsOf (v % 2 ^ 64) 26 1
    point := bitsOf (v % 2 ^ 64) 24 2
    last := bitsOf (v % 2 ^ 64) 0 16 } := by
  have own (g : Fld) (hg : g.reg = .WAY_TX_STAT) : (s.setReg .WAY_TX_STAT v t).fld g t = bitsOf (v % 2 ^ 64) g.lo g.w := by
    rw [← hg]
    exact s.fld_setReg_same g v t 0
  simp (disch := decide) only [State.txVals, own, fld_setReg_tx _ ht, fld_setReg_tx_stat _ ht]

theorem txVals_setSizes (v : Nat) : (s.setReg .WAY_TX_SIZE v t).txVals t = { s.txVals t with
    size := bitsOf (v % 2 ^ 64) 0 11
    used := bitsOf (v % 2 ^ 64) 16 11 } := by
  have own (g : Fld) (hg : g.reg = .WAY_TX_SIZE) : (s.setReg .WAY_TX_SIZE v t).fld g t = bitsOf (v % 2 ^ 64) g.lo g.w := by
    rw [← hg]
    exact s.fld_setReg_same g v t 0
  simp (disch := decide) only [State.txVals, own, fld_setReg_tx _ ht, fld_setReg_tx_stat _ ht]

end

/-! ## Slots and records -/

section
variable {s x : State}

theorem tx_congr (h : x.txs = s.txs) (t : Nat) : x.tx t = s.tx t := by rw [State.tx, State.tx, h]

theorem State.tx_setTx_same (s : State) (t : Nat) (y : Tx) : (s.setTx t y).tx t = y := mapGet_mapSet_same tx0 s.txs t y

theorem wayGet_congr (h : x.way = s.way) (i : Nat) : x.wayGet i = s.wayGet i := by rw [State.wayGet, State.wayGet, h]

/-- Three equal copies vote to what they hold (R286). -/
theorem vote_of_equal (c : BitVec 512) : (WayRec.mk c c c).vote = c := by simp only [WayRec.vote, BitVec.and_self, BitVec.or_self]

theorem State.wayGet_wayPut_same (s : State) (i v : Nat) : (s.wayPut i v).wayGet i = (BitVec.ofNat 512 v).toNat := by
  rw [State.wayGet, State.wayPut, mapGet_mapSet_same, vote_of_equal]

theorem State.wayGet_wayPut_ne (s : State) {i j : Nat} (v : Nat) (h : j ≠ i) : (s.wayPut i v).wayGet j = s.wayGet j := by
  rw [State.wayGet, State.wayPut, mapGet_mapSet_ne _ _ _ h, State.wayGet]

end

/-! ## The frame of an operation -/

/-- `x` differs from `s` in the registers of transaction `t`, and in the slots, records, entries and waiters of transactions alone. -/
structure State.OnlyTx (s x : State) (t : Nat) : Prop where
  regs : s.keeps x (txRegs t)
  frame : x = { s with regs := x.regs, txs := x.txs, way := x.way, ents := x.ents, waiters := x.waiters, orderNext := x.orderNext }

theorem State.OnlyTx.refl (s : State) (t : Nat) : s.OnlyTx s t := ⟨keeps_refl s _, rfl⟩

theorem State.OnlyTx.trans {s x y : State} {t : Nat} (h : s.OnlyTx x t) (h' : x.OnlyTx y t) : s.OnlyTx y t :=
  ⟨keeps_mono (keeps_trans h.regs h'.regs) (by simp), by rw [h'.frame, h.frame]⟩

section
variable {s x : State} {t : Nat} (h : s.OnlyTx x t)
include h
theorem State.OnlyTx.out : x.out = s.out := by rw [h.frame]
theorem State.OnlyTx.svc : x.svc = s.svc := by rw [h.frame]
theorem State.OnlyTx.switch : x.switch = s.switch := by rw [h.frame]
theorem State.OnlyTx.mem : s.sameMemory x := sameMemory_of_stores (by rw [h.frame]) (by rw [h.frame])
theorem State.OnlyTx.quiet : x.csmQuiet = s.csmQuiet := csmQuiet_congr (by rw [h.frame]) (by rw [h.frame])
theorem State.OnlyTx.alike : s.RepliesAlike x :=
  repliesAlike_of_keeps h.regs (by simp [txRegs]) (by rw [h.frame]) (by rw [h.frame]) (by rw [h.frame]) (by rw [h.frame]) (by rw [h.frame])
end

section
variable {s x : State} {t : Nat}

theorem onlyTx_of_onlyRegs (h : s.onlyRegs x) (hk : s.keeps x (txRegs t)) : s.OnlyTx x t := by
  refine ⟨hk, ?_⟩
  rw [State.onlyRegs] at h
  rw [h]

variable (s)

theorem onlyTx_setTx (y : Tx) : s.OnlyTx (s.setTx t y) t := ⟨keeps_of_regs _ rfl, rfl⟩

theorem onlyTx_wayPut (i v : Nat) : s.OnlyTx (s.wayPut i v) t := ⟨keeps_of_regs _ rfl, rfl⟩

theorem onlyTx_setStat {f : Fld} (hf : f.reg = .WAY_STAT) (v : Nat) : s.OnlyTx (s.setFld f v) t :=
  onlyTx_of_onlyRegs (onlyRegs_setFld ..) (keeps_mono (keeps_setFld s f v (by rw [hf]; exact ⟨Nat.one_pos, Nat.one_pos⟩))
    (by simp [txRegs, hf]))

variable (ht : t < 64)
include ht

theorem onlyTx_setReg {r : Reg} (hr : ofTx r) (v : Nat) : s.OnlyTx (s.setReg r v t) t :=
  onlyTx_of_onlyRegs (onlyRegs_setReg ..) (keeps_mono (keeps_setReg s v (regHas_tx ht hr)) (by obtain h | h | h := hr <;> simp [txRegs, h]))

theorem onlyTx_setFld {f : Fld} (hf : ofTx f.reg) (v : Nat) : s.OnlyTx (s.setFld f v t) t :=
  onlyTx_of_onlyRegs (onlyRegs_setFld ..) (keeps_mono (keeps_setFld s f v (regHas_tx ht hf))
    (by obtain h | h | h := hf <;> simp [txRegs, h]))

end

end Sys2Proof.Machine
end

section
/-! TX_OPEN (R287, R288). -/
namespace Sys2Proof.Machine

/-- WAY_TX_STAT of a transaction that opens in the normal pool. -/
def openStat (origin last : Nat) : Nat := putBits (2 ^ 29 + origin * 2 ^ 27 + 0) 0 16 last

theorem openStat_fields {origin last : Nat} (ho : origin < 2) (hl : last < 2 ^ 16) :
    bitsOf (openStat origin last % 2 ^ 64) 29 3 = 1 ∧ bitsOf (openStat origin last % 2 ^ 64) 26 1 = 0 ∧
    bitsOf (openStat origin last % 2 ^ 64) 24 2 = 0 ∧ bitsOf (openStat origin last % 2 ^ 64) 0 16 = last := by
  simp only [openStat, putBits, bitsOf]
  omega

/-- The transaction's slot and own registers as it opens. -/
def State.txSlot (s : State) (t size origin : Nat) : State :=
  (((s.setTx t { tx0 with origin := origin }).setReg .WAY_TX_STAT (openStat origin (s.fld F.WAY_TX_STAT_LAST_STATUS t)) t).setReg
    .WAY_TX_SIZE size t).setReg .WAY_TX_POINT 0 t

section
variable (s : State) {t size origin : Nat} (ht : t < 64)

theorem txNew_eq : s.txNew t size origin false =
    let x := s.txSlot t size origin
    let y := x.setFld F.WAY_STAT_OPEN (x.fld F.WAY_STAT_OPEN + 1)
    y.setFld F.WAY_STAT_FREE (y.fld F.WAY_STAT_FREE - size) := rfl

theorem txNew_tx : ((s.txNew t size origin false).tx t).origin = origin := by
  have htxs : (s.txNew t size origin false).txs = (s.setTx t { tx0 with origin := origin }).txs := rfl
  rw [tx_congr htxs, State.tx_setTx_same]

include ht

theorem txSlot_vals (ho : origin < 2) (hsize : size < 2 ^ 11) : (s.txSlot t size origin).txVals t =
    ⟨1, 0, 0, (s.txVals t).last, size, 0, (s.txVals t).free, (s.txVals t).opened⟩ := by
  obtain ⟨hstate, hrec, hpoint, hlast⟩ := openStat_fields ho (s.fld_lt F.WAY_TX_STAT_LAST_STATUS t 0)
  have hsizes : bitsOf (size % 2 ^ 64) 0 11 = size ∧ bitsOf (size % 2 ^ 64) 16 11 = 0 := by
    simp only [bitsOf]
    omega
  rw [State.txSlot, txVals_setPointArg _ ht, txVals_setSizes _ ht, txVals_setStat _ ht, hstate, hrec, hpoint, hlast, hsizes.1, hsizes.2,
    txVals_congr (s := s) rfl]
  rfl

theorem txSlot_onlyTx : s.OnlyTx (s.txSlot t size origin) t :=
  (onlyTx_setTx s _).trans ((onlyTx_setReg _ ht (.inl rfl) _).trans ((onlyTx_setReg _ ht (.inr (.inl rfl)) _).trans
    (onlyTx_setReg _ ht (.inr (.inr rfl)) _)))

theorem txNew_vals (ho : origin < 2) (hsize : size < 2 ^ 11) (hopen : (s.txVals t).opened < 64) :
    (s.txNew t size origin false).txVals t =
      ⟨1, 0, 0, (s.txVals t).last, size, 0, (s.txVals t).free - size, (s.txVals t).opened + 1⟩ := by
  have hslot := txSlot_vals s ht ho hsize
  have hfree : (s.txVals t).free < 2 ^ 11 := s.fld_lt F.WAY_STAT_FREE 0 0
  have hopened : ((s.txVals t).opened + 1) % 2 ^ 7 = (s.txVals t).opened + 1 := Nat.mod_eq_of_lt (by omega)
  have htaken : ((s.txVals t).free - size) % 2 ^ 11 = (s.txVals t).free - size := Nat.mod_eq_of_lt (by omega)
  rw [txNew_eq]
  dsimp only
  rw [txVals_takeFree _ ht, txVals_takeOpen _ ht, hslot]
  simp only [hopened, htaken]

theorem txNew_onlyTx : s.OnlyTx (s.txNew t size origin false) t := by
  rw [txNew_eq]
  exact (txSlot_onlyTx s ht).trans ((onlyTx_setStat _ rfl _).trans (onlyTx_setStat _ rfl _))
end

/-- A command that has changed only the transaction replies as it would have without: nothing waits for its end to settle, it sends the
same, and no byte of the memories changes. -/
theorem State.OnlyTx.replied {s x : State} {t : Nat} (ho : s.OnlyTx x t) (hq : s.csmQuiet = true) (h : CmdHdr) (st : Nat) (w : List Nat) :
    (x.reply h st w).settle = x.reply h st w ∧ (x.reply h st w).out = (s.reply h st w).out ∧ s.sameMemory (x.reply h st w) :=
  ⟨settle_quiet _ (csmQuiet_reply x h st w (ho.quiet.trans hq)), ho.alike.reply_out h st w, sameMemory_trans ho.mem (reply_sameMemory ..)⟩

theorem tx_reply (s : State) (h : CmdHdr) (st : Nat) (w : List Nat) (t : Nat) : (s.reply h st w).tx t = s.tx t :=
  tx_congr (onlyReplies_txs (reply_onlyReplies ..)) t

theorem cmdOrigin_lt (h : CmdHdr) : cmdOrigin h < 2 := by
  rw [cmdOrigin]
  split <;> decide

section
variable {s : State} (dt : Nat) {h : CmdHdr} {p : List Word} {t : Nat}

/-- A request for a slot that is FREE, with records left, is refused in no way (R287). -/
theorem openRefused_none {o : Option Nat} {size : Nat} (mc : Bool) (hopen : s.fld F.WAY_STAT_OPEN < 64) (hroom : size ≤ s.fld F.WAY_STAT_FREE)
    (hgood : s.wayBad = false) (hfree : ∀ t, o = some t → s.txState t = 0) : s.openRefused o size false mc = none := by
  unfold State.openRefused
  cases o with
  | none => simp [refuseIf, hgood, Nat.not_le.2 hopen, Nat.not_lt.2 hroom]
  | some t => simp [refuseIf, hgood, Nat.not_le.2 hopen, Nat.not_lt.2 hroom, hfree t rfl]

/-- TX_OPEN of a FREE slot. -/
theorem cTxOpen_opens (ht : s.takes (.txOpen dt h p) = true) (hpos : 1 ≤ bitsOf (pw p 0) 0 11) (hmax : bitsOf (pw p 0) 0 11 ≤ 1920)
    (hslot : if bitsOf (pw p 0) 31 1 = 1 then bitsOf (pw p 0) 16 6 = t ∧ s.txState t = 0 else s.freeTx = some t)
    (hopen : s.fld F.WAY_STAT_OPEN < 64) (hroom : bitsOf (pw p 0) 0 11 ≤ s.fld F.WAY_STAT_FREE) (hgood : s.wayBad = false) :
    (s.tick dt).cTxOpen h p = ((s.tick dt).txNew t (bitsOf (pw p 0) 0 11) (cmdOrigin h) false).reply h 0 [t] := by
  have hsize : ¬(bitsOf (pw p 0) 0 11 = 0 ∨ 1920 < bitsOf (pw p 0) 0 11) := by omega
  have hpass (o : Option Nat) (hfree : ∀ t, o = some t → s.txState t = 0) :
      (s.tick dt).openRefused o (bitsOf (pw p 0) 0 11) false (cmdMc h) = none :=
    openRefused_none (cmdMc h) hopen hroom hgood hfree
  rw [State.cTxOpen, cmd_of_takes rfl ht]
  dsimp only
  rw [if_neg hsize]
  split at hslot
  case isTrue hnamed =>
    obtain ⟨rfl, hfree⟩ := hslot
    simp only [if_pos hnamed, hpass (some _) (by rintro _ ⟨⟩; exact hfree)]
  case isFalse hnamed =>
    have hlowest : (s.tick dt).freeTx = some t := hslot
    simp only [if_neg hnamed, hpass none nofun, hlowest]

theorem txOpen_effect (hlt : t < 64) (ht : s.takes (.txOpen dt h p) = true) (hpos : 1 ≤ bitsOf (pw p 0) 0 11)
    (hmax : bitsOf (pw p 0) 0 11 ≤ 1920)
    (hslot : if bitsOf (pw p 0) 31 1 = 1 then bitsOf (pw p 0) 16 6 = t ∧ s.txState t = 0 else s.freeTx = some t)
    (hopen : s.fld F.WAY_STAT_OPEN < 64) (hroom : bitsOf (pw p 0) 0 11 ≤ s.fld F.WAY_STAT_FREE) (hgood : s.wayBad = false) :
    ∃ x, exec (.txOpen dt h p) s = .next x ∧
      x.txVals t = ⟨1, 0, 0, (s.txVals t).last, bitsOf (pw p 0) 0 11, 0, (s.txVals t).free - bitsOf (pw p 0) 0 11, (s.txVals t).opened + 1⟩ ∧
      (x.tx t).origin = cmdOrigin h ∧ x.out = ((s.tick dt).reply h 0 [t]).out ∧ s.sameMemory x := by
  have hcmd := cTxOpen_opens dt ht hpos hmax hslot hopen hroom hgood
  have hvals := txNew_vals (s.tick dt) hlt (cmdOrigin_lt h) (show bitsOf (pw p 0) 0 11 < 2 ^ 11 from bitsOf_lt ..) hopen
  have hslots := txNew_tx (s.tick dt) (t := t) (size := bitsOf (pw p 0) 0 11) (origin := cmdOrigin h)
  have honly := txNew_onlyTx (s.tick dt) (size := bitsOf (pw p 0) 0 11) (origin := cmdOrigin h) hlt
  generalize (s.tick dt).txNew t (bitsOf (pw p 0) 0 11) (cmdOrigin h) false = u at hcmd hvals hslots honly
  obtain ⟨hsettle, hout, hmem⟩ := honly.replied (takes_quiet_admitted rfl ht).1 h 0 [t]
  refine ⟨_, congrArg Host.Outcome.next ((congrArg State.settle hcmd).trans hsettle), ?_, ?_, hout, hmem⟩
  · rw [txVals_reply hlt, hvals]
    rfl
  · rw [tx_reply, hslots]

end

end Sys2Proof.Machine
end

section
/-! TX_ADD (R285, R287, R288). -/
namespace Sys2Proof.Machine

/-! ## The bits of a stored record -/

/-- Bytes 0 to 15 of a stored record, as a number (R285). -/
def wayHead (rec_ : Bool) (seq txid kind : Nat) : Nat := (if rec_ then 2 ^ 28 else 0) + 2 ^ 25 + seq * 2 ^ 14 + txid * 2 ^ 8 + kind

section
variable {rec_ : Bool} {seq txid kind : Nat}

theorem wayHead_lt (hs : seq < 2 ^ 11) (ht : txid < 64) (hk : kind < 2 ^ 8) : wayHead rec_ seq txid kind < 2 ^ 128 := by
  have hrec : (if rec_ then 2 ^ 28 else 0) ≤ 2 ^ 28 := by split <;> omega
  rw [wayHead]
  omega

theorem wayKind_head (hk : kind < 2 ^ 8) (n : Nat) : wayKind (n * 2 ^ 128 + wayHead rec_ seq txid kind) = kind := by
  have hrec : (if rec_ then 2 ^ 28 else 0) % 2 ^ 8 = 0 := by split <;> rfl
  rw [wayKind, bitsOf, wayHead]
  omega

theorem wayTxid_head (ht : txid < 64) (hk : kind < 2 ^ 8) (n : Nat) : wayTxid (n * 2 ^ 128 + wayHead rec_ seq txid kind) = txid := by
  have hrec : (if rec_ then 2 ^ 28 else 0) % 2 ^ 14 = 0 := by split <;> rfl
  rw [wayTxid, bitsOf, wayHead]
  omega

end

theorem bitsOf_congr_above {v v' k : Nat} (h : v / 2 ^ k = v' / 2 ^ k) {lo : Nat} (hlo : k ≤ lo) (w : Nat) : bitsOf v lo w = bitsOf v' lo w := by
  obtain ⟨d, rfl⟩ := Nat.exists_eq_add_of_le hlo
  rw [bitsOf, bitsOf, Nat.pow_add, ← Nat.div_div_eq_div_mul, h, Nat.div_div_eq_div_mul]

/-- A record's actions are its kind's and those of bytes 16 to 63 (R285). -/
theorem wayActs_congr {v v' : Nat} (hk : wayKind v = wayKind v') (h : v / 2 ^ 128 = v' / 2 ^ 128) : wayActs v = wayActs v' := by
  have hb (lo w : Nat) (hlo : 128 ≤ lo) : bitsOf v lo w = bitsOf v' lo w := bitsOf_congr_above h hlo w
  unfold wayActs wayWrites
  simp (disch := omega) only [hk, hb]

theorem mul_two_pow_add_lt {a b m n : Nat} (ha : a < 2 ^ m) (hb : b < 2 ^ n) : a * 2 ^ n + b < 2 ^ (m + n) :=
  calc a * 2 ^ n + b < (a + 1) * 2 ^ n := by rw [Nat.succ_mul]; omega
    _ ≤ 2 ^ m * 2 ^ n := Nat.mul_le_mul_right _ ha
    _ = 2 ^ (m + n) := (Nat.pow_add ..).symm

/-- Bits that fit are read back from a bit vector as they were written. -/
theorem toNat_ofNat_append {a b m n w : Nat} (hw : w = m + n) (ha : a < 2 ^ m) (hb : b < 2 ^ n) :
    (BitVec.ofNat w (a * 2 ^ n + b)).toNat = a * 2 ^ n + b := by
  rw [BitVec.toNat_ofNat, hw, Nat.mod_eq_of_lt (mul_two_pow_add_lt ha hb)]

theorem pwNum_lt (p : List Word) (k : Nat) {n w : Nat} (hw : w = 32 * n) : pwNum p k n < 2 ^ w := by
  subst hw
  induction n generalizing k with
  | zero => exact Nat.one_pos
  | succ n ih =>
    have hword : pw p k < 2 ^ 32 := BitVec.isLt _
    calc pwNum p k (n + 1) = pwNum p (k + 1) n * 2 ^ 32 + pw p k := by rw [pwNum, Nat.mul_comm, Nat.add_comm]
      _ < 2 ^ (32 * n + 32) := mul_two_pow_add_lt (ih (k + 1)) hword

/-- What TX_ADD stores, as it is read back: the kind, the transaction, and the actions of the parameters. -/
theorem storedRecord {rec_ : Bool} {seq txid kind pay : Nat} (hs : seq < 2 ^ 11) (ht : txid < 64) (hk : kind < 2 ^ 8) (hp : pay < 2 ^ 384) :
    let v := pay * 2 ^ 128 + wayHead rec_ seq txid kind
    (BitVec.ofNat 512 v).toNat = v ∧ wayKind v = kind ∧ wayTxid v = txid ∧ wayActs v = wayActs (kind + pay * 2 ^ 128) := by
  have hhead : wayHead rec_ seq txid kind < 2 ^ 128 := wayHead_lt hs ht hk
  have hkind : wayKind (pay * 2 ^ 128 + wayHead rec_ seq txid kind) = kind := wayKind_head hk pay
  have hgiven : wayKind (kind + pay * 2 ^ 128) = kind := by
    rw [wayKind, bitsOf]
    omega
  have hpay : (pay * 2 ^ 128 + wayHead rec_ seq txid kind) / 2 ^ 128 = (kind + pay * 2 ^ 128) / 2 ^ 128 := by omega
  exact ⟨toNat_ofNat_append (m := 384) (n := 128) rfl hp hhead, hkind, wayTxid_head ht hk pay, wayActs_congr (hkind.trans hgiven.symm) hpay⟩

/-! ## The command -/

/-- Record `i` stored for transaction `t`, and counted. -/
def State.txStore (s : State) (t i v : Nat) : State :=
  (s.wayPut i v).setFld F.WAY_TX_SIZE_USED (s.fld F.WAY_TX_SIZE_USED t + 1) t

section
variable (s : State) {t i v : Nat}

theorem txStore_onlyTx (ht : t < 64) : s.OnlyTx (s.txStore t i v) t := (onlyTx_wayPut s i v).trans (onlyTx_setFld _ ht (.inr (.inl rfl)) _)

theorem txStore_wayGet (j : Nat) : (s.txStore t i v).wayGet j = (s.wayPut i v).wayGet j := by
  rw [State.txStore]
  exact wayGet_congr (State.setFld_way ..) j

theorem txStore_wayGet_same (hv : (BitVec.ofNat 512 v).toNat = v) : (s.txStore t i v).wayGet i = v := by
  rw [txStore_wayGet, State.wayGet_wayPut_same, hv]

theorem txStore_wayGet_ne {j : Nat} (hj : j ≠ i) : (s.txStore t i v).wayGet j = s.wayGet j := by
  rw [txStore_wayGet, State.wayGet_wayPut_ne _ _ hj]

theorem txStore_used (hroom : s.fld F.WAY_TX_SIZE_USED t < s.fld F.WAY_TX_SIZE_SIZE t) :
    (s.txStore t i v).fld F.WAY_TX_SIZE_USED t = s.fld F.WAY_TX_SIZE_USED t + 1 := by
  have hsize : s.fld F.WAY_TX_SIZE_SIZE t < 2 ^ 11 := s.fld_lt ..
  rw [State.txStore, State.fld_setFld_same _ _ _ _ _ (by decide)]
  exact Nat.mod_eq_of_lt (show s.fld F.WAY_TX_SIZE_USED t + 1 < 2 ^ 11 by omega)

end

theorem wayGet_reply (s : State) (h : CmdHdr) (st : Nat) (w : List Nat) (j : Nat) : (s.reply h st w).wayGet j = s.wayGet j :=
  wayGet_congr (onlyReplies_way (reply_onlyReplies ..)) j

section
variable {s : State} {t i kind pay : Nat}

theorem txAdd_eq (hfree : s.freeRec (s.txRec t) = some i) (hk : kind ≠ 10) (hp : pay < 2 ^ 384) : s.txAdd t kind pay =
    s.txStore t i (pay * 2 ^ 128 + wayHead (s.txRec t) (s.fld F.WAY_TX_SIZE_USED t) t kind) := by
  unfold State.txAdd
  rw [hfree]
  simp only [if_neg hk, wayHead, Nat.add_assoc, State.txStore, Nat.mod_eq_of_lt hp]

theorem txRefused_none {h : CmdHdr} {ok : Nat → Bool} (ho : (s.tx t).origin = cmdOrigin h) (hok : ok (s.txState t) = true) :
    s.txRefused h t ok = none := by
  rw [State.txRefused, if_neg (fun hne => hne.2 ho), if_neg (by rw [hok]; decide)]

variable (dt : Nat) {h : CmdHdr} {p : List Word}

theorem cTxAdd_adds (ht : s.takes (.txAdd dt h p) = true) (hid : bitsOf (pw p 0) 0 6 = t)
    (hok : wayOk (bitsOf (pw p 0) 8 8 + pwNum p 2 12 * 2 ^ 128) = true) (hopen : s.txState t = 1) (ho : (s.tx t).origin = cmdOrigin h)
    (hroom : s.fld F.WAY_TX_SIZE_USED t < s.fld F.WAY_TX_SIZE_SIZE t) :
    (s.tick dt).cTxAdd h p = ((s.tick dt).txAdd t (bitsOf (pw p 0) 8 8) (pwNum p 2 12)).reply h 0 [s.fld F.WAY_TX_SIZE_USED t] := by
  have hmay : (s.tick dt).txRefused h t (· == 1) = none := txRefused_none ho (beq_iff_eq.2 hopen)
  rw [State.cTxAdd, cmd_of_takes rfl ht, hid]
  simp only [hok, hmay, Bool.not_true, Bool.false_eq_true, if_false]
  exact if_neg (Nat.not_le.2 hroom)

theorem txAdd_effect (hlt : t < 64) (ht : s.takes (.txAdd dt h p) = true) (hid : bitsOf (pw p 0) 0 6 = t)
    (hok : wayOk (bitsOf (pw p 0) 8 8 + pwNum p 2 12 * 2 ^ 128) = true) (hkind : bitsOf (pw p 0) 8 8 ≠ 10) (hopen : s.txState t = 1)
    (ho : (s.tx t).origin = cmdOrigin h) (hroom : s.fld F.WAY_TX_SIZE_USED t < s.fld F.WAY_TX_SIZE_SIZE t)
    (hfree : s.freeRec (s.txRec t) = some i) :
    ∃ x, exec (.txAdd dt h p) s = .next x ∧ wayKind (x.wayGet i) = bitsOf (pw p 0) 8 8 ∧ wayTxid (x.wayGet i) = t ∧
      wayActs (x.wayGet i) = wayActs (bitsOf (pw p 0) 8 8 + pwNum p 2 12 * 2 ^ 128) ∧ (∀ j, j ≠ i → x.wayGet j = s.wayGet j) ∧
      x.fld F.WAY_TX_SIZE_USED t = s.fld F.WAY_TX_SIZE_USED t + 1 ∧
      x.out = ((s.tick dt).reply h 0 [s.fld F.WAY_TX_SIZE_USED t]).out ∧ s.sameMemory x := by
  have hcmd := cTxAdd_adds dt ht hid hok hopen ho hroom
  have hsize : s.fld F.WAY_TX_SIZE_SIZE t < 2 ^ 11 := s.fld_lt ..
  have hpay : pwNum p 2 12 < 2 ^ 384 := pwNum_lt p 2 rfl
  obtain ⟨hheld, hk, htx, hacts⟩ := storedRecord (rec_ := s.txRec t) (seq := s.fld F.WAY_TX_SIZE_USED t) (by omega) hlt
    (bitsOf_lt (pw p 0) 8 8) hpay
  have hadd : (s.tick dt).txAdd t (bitsOf (pw p 0) 8 8) (pwNum p 2 12) = (s.tick dt).txStore t i
      (pwNum p 2 12 * 2 ^ 128 + wayHead (s.txRec t) (s.fld F.WAY_TX_SIZE_USED t) t (bitsOf (pw p 0) 8 8)) :=
    txAdd_eq (s := s.tick dt) hfree hkind hpay
  rw [hadd] at hcmd
  generalize pwNum p 2 12 * 2 ^ 128 + wayHead (s.txRec t) (s.fld F.WAY_TX_SIZE_USED t) t (bitsOf (pw p 0) 8 8) = v
    at hcmd hheld hk htx hacts
  obtain ⟨hsettle, hout, hmem⟩ := (txStore_onlyTx (s.tick dt) (i := i) (v := v) hlt).replied (takes_quiet_admitted rfl ht).1 h 0
    [s.fld F.WAY_TX_SIZE_USED t]
  refine ⟨_, congrArg Host.Outcome.next ((congrArg State.settle hcmd).trans hsettle), ?_, ?_, ?_, fun j hj => ?_, ?_, hout, hmem⟩
  · rw [wayGet_reply, txStore_wayGet_same _ hheld, hk]
  · rw [wayGet_reply, txStore_wayGet_same _ hheld, htx]
  · rw [wayGet_reply, txStore_wayGet_same _ hheld, hacts]
  · exact (wayGet_reply ..).trans (txStore_wayGet_ne _ hj)
  · rw [fld_reply (regHas_tx hlt (.inr (.inl rfl))) (by decide)]
    exact txStore_used (s.tick dt) hroom

end

end Sys2Proof.Machine
end

section
/-! TX_PREPARE at once (R289, R290). -/
namespace Sys2Proof.Machine

section
variable {s : State} {t : Nat}

/-- Records of a transaction that is no recovery go back to the normal pool. -/
theorem poolBack_eq (hrec : s.txRec t = false) (n : Nat) : s.poolBack t n = s.setFld F.WAY_STAT_FREE (s.fld F.WAY_STAT_FREE + n) := by
  rw [State.poolBack, hrec]
  exact if_neg Bool.false_ne_true

theorem txBegin_eq (hrec : s.txRec t = false) (arg : Nat) : s.txBegin t 0 arg =
    (((((s.setFld F.WAY_STAT_FREE (s.fld F.WAY_STAT_FREE + (s.fld F.WAY_TX_SIZE_SIZE t - s.fld F.WAY_TX_SIZE_USED t))).setFld
      F.WAY_TX_SIZE_SIZE (s.fld F.WAY_TX_SIZE_USED t) t).setFld F.WAY_TX_STAT_POINT 0 t).setReg .WAY_TX_POINT 0 t).setFld
      F.WAY_TX_STAT_STATE 2 t) := by
  rw [State.txBegin, poolBack_eq hrec, if_pos rfl]

theorem txBegin_vals (ht : t < 64) (hrec : s.txRec t = false) (arg : Nat)
    (hroom : s.fld F.WAY_STAT_FREE + s.fld F.WAY_TX_SIZE_SIZE t < 2 ^ 11) :
    (s.txBegin t 0 arg).txVals t = { s.txVals t with
      state := 2
      point := 0
      size := (s.txVals t).used
      free := (s.txVals t).free + ((s.txVals t).size - (s.txVals t).used) } := by
  have hused : s.fld F.WAY_TX_SIZE_USED t % 2 ^ 11 = s.fld F.WAY_TX_SIZE_USED t := Nat.mod_eq_of_lt (s.fld_lt ..)
  have hfree : ((s.txVals t).free + (s.fld F.WAY_TX_SIZE_SIZE t - s.fld F.WAY_TX_SIZE_USED t)) % 2 ^ 11 =
      (s.txVals t).free + (s.fld F.WAY_TX_SIZE_SIZE t - s.fld F.WAY_TX_SIZE_USED t) :=
    Nat.mod_eq_of_lt (Nat.lt_of_le_of_lt (Nat.add_le_add_left (Nat.sub_le ..) _) hroom)
  rw [txBegin_eq hrec, txVals_setState _ ht, txVals_setPointArg _ ht, txVals_setPoint _ ht, txVals_setSize _ ht, txVals_giveFree _ ht]
  simp only [hused, hfree]
  rfl

/-- A prepare changes registers alone. -/
theorem txBegin_onlyRegs (hrec : s.txRec t = false) (arg : Nat) : s.onlyRegs (s.txBegin t 0 arg) := by
  rw [txBegin_eq hrec]
  exact onlyRegs_trans (onlyRegs_setFld ..) (onlyRegs_trans (onlyRegs_setFld ..) (onlyRegs_trans (onlyRegs_setFld ..)
    (onlyRegs_trans (onlyRegs_setReg ..) (onlyRegs_setFld ..))))

theorem txBegin_onlyTx (ht : t < 64) (hrec : s.txRec t = false) (arg : Nat) : s.OnlyTx (s.txBegin t 0 arg) t := by
  rw [txBegin_eq hrec]
  exact (onlyTx_setStat s rfl _).trans ((onlyTx_setFld _ ht (.inr (.inl rfl)) _).trans ((onlyTx_setFld _ ht (.inl rfl) _).trans
    ((onlyTx_setReg _ ht (.inr (.inr rfl)) _).trans (onlyTx_setFld _ ht (.inl rfl) _))))

end

section
variable {s : State} (dt : Nat) {h : CmdHdr} {p : List Word} {t : Nat}

theorem cTxPrepare_begins (ht : s.takes (.txPrepare dt h p) = true) (hid : bitsOf (pw p 0) 0 6 = t) (hpoint : bitsOf (pw p 0) 8 2 = 0)
    (hopen : s.txState t = 1) (ho : (s.tx t).origin = cmdOrigin h) (hmay : s.prepareMay h = true) :
    (s.tick dt).cTxPrepare h p = ((s.tick dt).setTx t { s.tx t with prep := some h }).txBegin t 0 (pwNum p 1 2) := by
  have hrefused : (s.tick dt).txRefused h t (· == 1) = none := txRefused_none ho (beq_iff_eq.2 hopen)
  have hready : (s.tick dt).prepareMay h = true := hmay
  rw [State.cTxPrepare, cmd_of_takes rfl ht, hid, hpoint]
  simp only [hrefused, hready, Bool.not_true, Bool.false_eq_true, if_false, OfNat.zero_ne_ofNat, zero_ne_one, false_and, or_self]
  rfl

theorem txPrepare_effect (hlt : t < 64) (ht : s.takes (.txPrepare dt h p) = true) (hid : bitsOf (pw p 0) 0 6 = t)
    (hpoint : bitsOf (pw p 0) 8 2 = 0) (hopen : s.txState t = 1) (ho : (s.tx t).origin = cmdOrigin h) (hmay : s.prepareMay h = true)
    (hrec : s.txRec t = false) (hroom : s.fld F.WAY_STAT_FREE + s.fld F.WAY_TX_SIZE_SIZE t < 2 ^ 11) :
    ∃ x, exec (.txPrepare dt h p) s = .next x ∧
      x.txVals t = { s.txVals t with
        state := 2
        point := 0
        size := (s.txVals t).used
        free := (s.txVals t).free + ((s.txVals t).size - (s.txVals t).used) } ∧
      (x.tx t).prep = some h ∧ s.keeps x (txRegs t) ∧ x = { s.tick dt with regs := x.regs, txs := x.txs } := by
  have hcmd := cTxPrepare_begins dt ht hid hpoint hopen ho hmay
  have hset : ((s.tick dt).setTx t { s.tx t with prep := some h }).txRec t = false := hrec
  have hvals := txBegin_vals hlt hset (pwNum p 1 2) hroom
  have hregs := txBegin_onlyRegs hset (pwNum p 1 2)
  have honly := (onlyTx_setTx (s.tick dt) _).trans (txBegin_onlyTx hlt hset (pwNum p 1 2))
  have hprep := State.tx_setTx_same (s.tick dt) t { s.tx t with prep := some h }
  generalize ((s.tick dt).setTx t { s.tx t with prep := some h }).txBegin t 0 (pwNum p 1 2) = x at hcmd hvals hregs honly
  have hquiet : x.csmQuiet = true := honly.quiet.trans (takes_quiet_admitted rfl ht).1
  rw [State.onlyRegs] at hregs
  refine ⟨x, congrArg Host.Outcome.next ((congrArg State.settle hcmd).trans (settle_quiet _ hquiet)), hvals, ?_, keeps_of_tick honly.regs, ?_⟩
  · have htxs : x.txs = ((s.tick dt).setTx t { s.tx t with prep := some h }).txs := by rw [hregs]
    rw [tx_congr htxs, hprep]
  · rw [hregs]
    rfl

end

end Sys2Proof.Machine
end

section
/-! The end of a transaction: it goes FREE (R287, R289), and TX_ABORT (R292). -/
namespace Sys2Proof.Machine

/-- The entries of transaction `t` have left their targets, its commands wait no more, and its records are empty. -/
def State.txDropped (s : State) (t : Nat) : State :=
  (s.wayOf t).foldl (fun s i => s.wayPut i 0)
    { s with ents := s.ents.filter fun e => e.tx != t
             waiters := s.waiters.filter fun w => decide (w.by_ ≠ WaitBy.commit t) }

/-- One slot fewer is open, and one fewer recovery where it is one. -/
def State.slotBack (s : State) (t : Nat) : State :=
  let s := s.setFld F.WAY_STAT_OPEN (s.fld F.WAY_STAT_OPEN - 1)
  if s.txRec t then s.setFld F.WAY_STAT_REC_OPEN (s.fld F.WAY_STAT_REC_OPEN - 1) else s

/-- The registers of a transaction that goes FREE. -/
def State.txReturned (s : State) (t : Nat) : State :=
  ((((s.poolBack t (s.fld F.WAY_TX_SIZE_SIZE t)).setFld F.WAY_TX_SIZE_SIZE 0 t).setFld F.WAY_TX_SIZE_USED 0 t).slotBack t).setFld
    F.WAY_TX_STAT_STATE 0 t

theorem txFree_eq (s : State) (t : Nat) : s.txFree t = ((s.txDropped t).txReturned t).setTx t tx0 := rfl

section
variable {s x : State} (h : s.onlyRegs x)
include h
theorem onlyRegs_ents : x.ents = s.ents := by rw [show x = { s with regs := x.regs } from h]
theorem onlyRegs_way : x.way = s.way := by rw [show x = { s with regs := x.regs } from h]
end

section
variable (s : State) {t : Nat}

theorem setTx_ents (y : Tx) : (s.setTx t y).ents = s.ents := rfl

theorem setTx_way (y : Tx) : (s.setTx t y).way = s.way := rfl

theorem txDropped_onlyTx : s.OnlyTx (s.txDropped t) t := by
  have hleft : s.OnlyTx { s with ents := s.ents.filter fun e => e.tx != t
                                 waiters := s.waiters.filter fun w => decide (w.by_ ≠ WaitBy.commit t) } t :=
    ⟨keeps_of_regs _ rfl, rfl⟩
  exact hleft.trans (foldl_rel (R := fun s x => s.OnlyTx x t) (State.OnlyTx.refl · t) .trans (fun s i => onlyTx_wayPut s i 0) _ _)

theorem wayPut_ents (i v : Nat) : (s.wayPut i v).ents = s.ents := rfl

theorem wayPut_regs (i v : Nat) : (s.wayPut i v).regs = s.regs := rfl

/-- An empty record reads as zero. -/
theorem wayGet_wayPut_zero (i : Nat) : (s.wayPut i 0).wayGet i = 0 :=
  (s.wayGet_wayPut_same i 0).trans BitVec.toNat_zero

theorem txDropped_ents : (s.txDropped t).ents = s.ents.filter fun e => e.tx != t :=
  foldl_rel (R := fun s x : State => x.ents = s.ents) (fun _ => rfl) (fun h h' => h'.trans h) (fun s i => wayPut_ents s i 0) _
    { s with ents := s.ents.filter fun e => e.tx != t
             waiters := s.waiters.filter fun w => decide (w.by_ ≠ WaitBy.commit t) }

theorem txDropped_regs : (s.txDropped t).regs = s.regs :=
  foldl_rel (R := fun s x : State => x.regs = s.regs) (fun _ => rfl) (fun h h' => h'.trans h) (fun s i => wayPut_regs s i 0) _
    { s with ents := s.ents.filter fun e => e.tx != t
             waiters := s.waiters.filter fun w => decide (w.by_ ≠ WaitBy.commit t) }

/-- A record put empty reads as zero, whatever else is put empty. -/
theorem txDropped_wayGet {i : Nat} (hi : i ∈ s.wayOf t) : (s.txDropped t).wayGet i = 0 := by
  refine foldl_establishes (P := fun (s : State) i => s.wayGet i = 0) (fun s i => wayGet_wayPut_zero s i) (fun s i j hj => ?_) _ _ hi
  by_cases hij : j = i
  · rw [hij]
    exact wayGet_wayPut_zero s i
  · rw [s.wayGet_wayPut_ne 0 hij, hj]

theorem poolBack_onlyRegs (n : Nat) : s.onlyRegs (s.poolBack t n) := by
  rw [State.poolBack]
  split
  · exact onlyRegs_setFld ..
  · exact onlyRegs_setFld ..

theorem slotBack_onlyRegs : s.onlyRegs (s.slotBack t) := by
  rw [State.slotBack]
  split
  · exact onlyRegs_trans (onlyRegs_setFld ..) (onlyRegs_setFld ..)
  · exact onlyRegs_setFld ..

theorem txReturned_onlyRegs : s.onlyRegs (s.txReturned t) :=
  onlyRegs_trans (poolBack_onlyRegs s _) (onlyRegs_trans (onlyRegs_setFld ..) (onlyRegs_trans (onlyRegs_setFld ..)
    (onlyRegs_trans (slotBack_onlyRegs _) (onlyRegs_setFld ..))))

theorem poolBack_onlyTx (n : Nat) : s.OnlyTx (s.poolBack t n) t := by
  rw [State.poolBack]
  split
  · exact onlyTx_setStat s rfl _
  · exact onlyTx_setStat s rfl _

theorem slotBack_onlyTx : s.OnlyTx (s.slotBack t) t := by
  rw [State.slotBack]
  split
  · exact (onlyTx_setStat s rfl _).trans (onlyTx_setStat _ rfl _)
  · exact onlyTx_setStat s rfl _

theorem txFree_tx : (s.txFree t).tx t = tx0 := by rw [txFree_eq, State.tx_setTx_same]

theorem txFree_ents : (s.txFree t).ents = s.ents.filter fun e => e.tx != t := by
  rw [txFree_eq, setTx_ents, onlyRegs_ents (txReturned_onlyRegs _), txDropped_ents]

theorem txFree_wayGet {i : Nat} (hi : i ∈ s.wayOf t) : (s.txFree t).wayGet i = 0 := by
  have hway : (s.txFree t).way = (s.txDropped t).way := by rw [txFree_eq, setTx_way, onlyRegs_way (txReturned_onlyRegs _)]
  rw [wayGet_congr hway, txDropped_wayGet s hi]

theorem txVals_setTx (y : Tx) : (s.setTx t y).txVals t = s.txVals t := txVals_congr (x := s.setTx t y) rfl t

variable (ht : t < 64)
include ht

theorem poolBack_vals (n : Nat) : ∃ f, (s.poolBack t n).txVals t = { s.txVals t with free := f } := by
  rw [State.poolBack]
  split
  · exact ⟨_, txVals_setRsvFree s ht _⟩
  · exact ⟨_, txVals_setFree s ht _⟩

theorem slotBack_vals : ∃ o, (s.slotBack t).txVals t = { s.txVals t with opened := o } := by
  rw [State.slotBack]
  split
  · exact ⟨_, (txVals_setRecOpen _ ht _).trans (txVals_setOpen s ht _)⟩
  · exact ⟨_, txVals_setOpen s ht _⟩

/-- A transaction that goes FREE holds no records; its last status stays. -/
theorem txReturned_vals : ∃ f o, (s.txReturned t).txVals t =
    { s.txVals t with state := 0, size := 0, used := 0, free := f, opened := o } := by
  obtain ⟨f, hf⟩ := poolBack_vals s ht (s.fld F.WAY_TX_SIZE_SIZE t)
  rw [State.txReturned]
  obtain ⟨o, ho⟩ := slotBack_vals (((s.poolBack t (s.fld F.WAY_TX_SIZE_SIZE t)).setFld F.WAY_TX_SIZE_SIZE 0 t).setFld
    F.WAY_TX_SIZE_USED 0 t) ht
  refine ⟨f, o, ?_⟩
  rw [txVals_setState _ ht, ho, txVals_setUsed _ ht, txVals_setSize _ ht, hf]
  rfl

theorem txReturned_onlyTx : s.OnlyTx (s.txReturned t) t :=
  (poolBack_onlyTx s _).trans ((onlyTx_setFld _ ht (.inr (.inl rfl)) _).trans ((onlyTx_setFld _ ht (.inr (.inl rfl)) _).trans
    ((slotBack_onlyTx _).trans (onlyTx_setFld _ ht (.inl rfl) _))))

/-- What a transaction that has gone FREE leaves behind. -/
theorem txFree_onlyTx : s.OnlyTx (s.txFree t) t := by
  rw [txFree_eq]
  exact (txDropped_onlyTx s).trans ((txReturned_onlyTx _ ht).trans (onlyTx_setTx _ _))

theorem txFree_vals : ∃ f o, (s.txFree t).txVals t = { s.txVals t with state := 0, size := 0, used := 0, free := f, opened := o } := by
  obtain ⟨f, o, h⟩ := txReturned_vals (s.txDropped t) ht
  rw [txVals_congr (txDropped_regs s)] at h
  rw [txFree_eq]
  exact ⟨f, o, (txVals_setTx _ tx0).trans h⟩

end

/-! ## TX_ABORT -/

section
variable {s : State}

/-- Without a service procedure and a switch-over, the end of a transaction ends nothing else. -/
theorem svcEnd_idle (hsvc : s.svc = []) (hswitch : s.switch = none) (t st : Nat) : s.svcEnd t st = s := by
  have hfail : s.switchFail t st = s := by rw [State.switchFail, hswitch]
  rw [State.svcEnd, hfail, hsvc]
  rfl

/-- The end of a transaction of this device alone is told to no coordinator. -/
theorem sysTell_alone {t : Nat} (hpeer : (s.tx t).peer = none) (hcoord : (s.tx t).coord = false) (committed : Bool) (code : Nat) :
    s.sysTell t committed code = s := by
  rw [State.sysTell, hpeer, hcoord]
  exact if_neg Bool.false_ne_true

theorem txEnd_alone {t : Nat} (hlt : t < 64) (hprep : (s.tx t).prep = none) (hpeer : (s.tx t).peer = none) (hcoord : (s.tx t).coord = false)
    (hsvc : s.svc = []) (hswitch : s.switch = none) (st : Nat) :
    s.txEnd t st = (s.txFree t).setFld F.WAY_TX_STAT_LAST_STATUS st t := by
  have honly : s.OnlyTx ((s.txFree t).setFld F.WAY_TX_STAT_LAST_STATUS st t) t :=
    (txFree_onlyTx s hlt).trans (onlyTx_setFld _ hlt (.inl rfl) _)
  rw [State.txEnd, sysTell_alone hpeer hcoord, hprep]
  exact svcEnd_idle (honly.svc.trans hsvc) (honly.switch.trans hswitch) t st

variable (dt : Nat) {h : CmdHdr} {p : List Word} {t : Nat}

theorem cTxAbort_ends (ht : s.takes (.txAbort dt h p) = true) (hid : bitsOf (pw p 0) 0 6 = t) (hopen : s.txState t = 1)
    (ho : (s.tx t).origin = cmdOrigin h) : (s.tick dt).cTxAbort h p = ((s.tick dt).txEnd t 0x050B).reply h 0 [] := by
  have hrefused : (s.tick dt).txRefused h t (fun st => st == 1 || st == 3) = none :=
    txRefused_none ho (Bool.or_eq_true_iff.2 (.inl (beq_iff_eq.2 hopen)))
  rw [State.cTxAbort, cmd_of_takes rfl ht, hid]
  simp only [hrefused]

theorem txAbort_effect (hlt : t < 64) (ht : s.takes (.txAbort dt h p) = true) (hid : bitsOf (pw p 0) 0 6 = t) (hopen : s.txState t = 1)
    (ho : (s.tx t).origin = cmdOrigin h) (hprep : (s.tx t).prep = none) (hpeer : (s.tx t).peer = none) (hcoord : (s.tx t).coord = false)
    (hsvc : s.svc = []) (hswitch : s.switch = none) :
    ∃ x, exec (.txAbort dt h p) s = .next x ∧ x.txState t = 0 ∧ x.fld F.WAY_TX_STAT_LAST_STATUS t = 0x050B ∧
      x.fld F.WAY_TX_SIZE_SIZE t = 0 ∧ (∀ e ∈ x.ents, e.tx ≠ t) ∧ (∀ i ∈ s.wayOf t, x.wayGet i = 0) ∧
      x.out = ((s.tick dt).reply h 0 []).out ∧ s.sameMemory x := by
  have hcmd := cTxAbort_ends dt ht hid hopen ho
  have hend : (s.tick dt).txEnd t 0x050B = ((s.tick dt).txFree t).setFld F.WAY_TX_STAT_LAST_STATUS 0x050B t :=
    txEnd_alone (s := s.tick dt) hlt hprep hpeer hcoord hsvc hswitch 0x050B
  rw [hend] at hcmd
  have honly : (s.tick dt).OnlyTx (((s.tick dt).txFree t).setFld F.WAY_TX_STAT_LAST_STATUS 0x050B t) t :=
    (txFree_onlyTx _ hlt).trans (onlyTx_setFld _ hlt (.inl rfl) _)
  obtain ⟨hsettle, hout, hmem⟩ := honly.replied (takes_quiet_admitted rfl ht).1 h 0 []
  have hents := (State.setFld_ents _ F.WAY_TX_STAT_LAST_STATUS 0x050B t 0).trans (txFree_ents (s.tick dt) (t := t))
  have hway (i : Nat) (hi : i ∈ s.wayOf t) : (((s.tick dt).txFree t).setFld F.WAY_TX_STAT_LAST_STATUS 0x050B t).wayGet i = 0 :=
    (wayGet_congr (State.setFld_way ..) i).trans (txFree_wayGet (s.tick dt) hi)
  obtain ⟨f, o, hfree⟩ := txFree_vals (s.tick dt) hlt
  have hvals := (txVals_setLast _ hlt 0x050B).trans (congrArg (fun v : TxVals => { v with last := 0x050B % 2 ^ 16 }) hfree)
  generalize ((s.tick dt).txFree t).setFld F.WAY_TX_STAT_LAST_STATUS 0x050B t = u at hcmd hsettle hout hmem hents hway hvals
  rw [← txVals_reply hlt (h := h) (st := 0) (w := [])] at hvals
  refine ⟨_, congrArg Host.Outcome.next ((congrArg State.settle hcmd).trans hsettle), congrArg TxVals.state hvals,
    congrArg TxVals.last hvals, congrArg TxVals.size hvals, fun e he => ?_, fun i hi => ?_, hout, hmem⟩
  · rw [onlyReplies_ents (reply_onlyReplies ..), hents] at he
    exact bne_iff_ne.1 (List.mem_filter.1 he).2
  · rw [wayGet_reply, hway i hi]

end

/-- Settles O22: each command replies from a state that differs in the transaction alone, and its values there are those of R287 to R290. -/
theorem transactionsOpenFillPrepareAbort : Obligations.TransactionsOpenFillPrepareAbort := by
  intro dt h p t s hlt
  refine ⟨?_, ?_, ?_, ?_⟩
  · intro ht hpos hmax hslot hopen hroom hgood
    obtain ⟨x, hexec, hvals, horigin, hout, hmem⟩ := txOpen_effect dt hlt ht hpos hmax hslot hopen hroom hgood
    exact ⟨x, hexec, congrArg TxVals.state hvals, congrArg TxVals.size hvals, congrArg TxVals.used hvals, congrArg TxVals.free hvals,
      congrArg TxVals.opened hvals, horigin, hout, hmem⟩
  · exact fun i ht hid hok hkind hopen ho hroom hfree => txAdd_effect dt hlt ht hid hok hkind hopen ho hroom hfree
  · intro ht hid hpoint hopen ho hmay hrec hroom
    obtain ⟨x, hexec, hvals, hprep, hkeeps, hframe⟩ := txPrepare_effect dt hlt ht hid hpoint hopen ho hmay hrec hroom
    exact ⟨x, hexec, congrArg TxVals.state hvals, congrArg TxVals.point hvals, hprep, congrArg TxVals.size hvals,
      congrArg TxVals.free hvals, hkeeps, hframe⟩
  · exact fun ht hid hopen ho hprep hpeer hcoord hsvc hswitch =>
      txAbort_effect dt hlt ht hid hopen ho hprep hpeer hcoord hsvc hswitch

end Sys2Proof.Machine
end

section
/-! A prepare that passes, and its commit at once (R289 to R291). -/
namespace Sys2Proof.Machine

/-! ## The states of the records -/

/-- `x` differs from `s` in its records alone. -/
def State.onlyWay (s x : State) : Prop := x = { s with way := x.way }

theorem onlyWay_trans {s x y : State} (h : s.onlyWay x) (h' : x.onlyWay y) : s.onlyWay y := by
  rw [State.onlyWay] at h h' ⊢
  rw [h', h]

theorem wayStates_onlyWay (s : State) (t st : Nat) : s.onlyWay (s.wayStates t st) :=
  foldl_rel (R := State.onlyWay) (fun _ => rfl) onlyWay_trans (fun s i => (rfl : s.onlyWay (s.wayState i st))) _ s

section
variable {s x : State} (h : s.onlyWay x)
include h
theorem onlyWay_regs : x.regs = s.regs := by rw [h]
theorem onlyWay_txs : x.txs = s.txs := by rw [h]
theorem onlyWay_ents : x.ents = s.ents := by rw [h]
theorem onlyWay_orderNext : x.orderNext = s.orderNext := by rw [h]
theorem onlyWay_onlyTx (t : Nat) : s.OnlyTx x t := by
  refine ⟨keeps_of_regs _ (onlyWay_regs h), ?_⟩
  rw [State.onlyWay] at h
  rw [h]
end

/-! ## PREPARED -/

/-- A field write and a slot write leave the order and the entries. -/
theorem setFld_orderNext (s : State) (f : Fld) (v i j : Nat) : (s.setFld f v i j).orderNext = s.orderNext := rfl

theorem setTx_orderNext (s : State) (t : Nat) (y : Tx) : (s.setTx t y).orderNext = s.orderNext := rfl

/-- The entries `es` of transaction `t` stand at their targets. -/
def State.entsPut (s : State) (es : List Entry) : State := { s with ents := s.ents ++ es, orderNext := s.orderNext + 1 }

theorem entsPut_onlyTx (s : State) (es : List Entry) (t : Nat) : s.OnlyTx (s.entsPut es) t := ⟨keeps_of_regs _ rfl, rfl⟩

/-- Transaction `t` is PREPARED with the entries `es`. -/
def State.txPlaced (s : State) (t : Nat) (es : List Entry) : State :=
  (((s.entsPut es).setTx t { s.tx t with order := s.orderNext + 1 }).wayStates t 2).setFld F.WAY_TX_STAT_STATE 3 t

/-- The part of a transaction across devices votes READY (R296). -/
def State.txVoted (s : State) (t : Nat) (x : Tx) : State :=
  match x.peer with
  | some d => s.ctlTo d (.ready x.sysId)
  | none => if x.coord then
      { s with coords := s.coords.map fun c => if c.tx = t then { c with ready := withBit c.ready (s.fld F.JCT_SYS_DEVNUM) } else c }
    else s

/-- A PREPARED transaction at its commit point (R290). -/
def State.txReached (s : State) (t : Nat) : State :=
  match s.fld F.WAY_TX_STAT_POINT t with
  | 0 => s.txCommit t
  | 2 =>
    let arg := s.fld F.WAY_TX_POINT_POINT_ARG t
    let m := bitsOf arg 32 14; let v := arg % 2 ^ 32
    if s.msReached m v then s.txCommit t else { s with waiters := s.waiters ++ [⟨.commit t, m, v⟩] }
  | _ => s

/-- A transaction that nothing stands in the way of is PREPARED, posts PENDING, votes and may have reached its commit point. -/
def State.txPass (s : State) (t : Nat) (es : List Entry) : State :=
  ((match (s.tx t).prep with
    | some h => (s.txPlaced t es).replyPending h
    | none => s.txPlaced t es).txVoted t { s.tx t with order := s.orderNext + 1 }).txReached t

theorem txPlace_eq (s : State) (t : Nat) (es : List Entry) : s.txPlace t es =
    ((((s.rivals t es).filter fun e => e.phase == .placed).map (·.tx)).dedup.foldl (fun s k => s.txEnd k 0x0505) s).txPass t es := rfl

section
variable (s : State) {t : Nat} (es : List Entry)

theorem txPlaced_onlyTx (ht : t < 64) : s.OnlyTx (s.txPlaced t es) t :=
  (entsPut_onlyTx s es t).trans ((onlyTx_setTx _ _).trans ((onlyWay_onlyTx (wayStates_onlyWay _ t 2) t).trans
    (onlyTx_setFld _ ht (.inl rfl) _)))

theorem txPlaced_ents : (s.txPlaced t es).ents = s.ents ++ es := by
  rw [State.txPlaced, State.setFld_ents, onlyWay_ents (wayStates_onlyWay ..), setTx_ents, State.entsPut]

theorem txPlaced_orderNext : (s.txPlaced t es).orderNext = s.orderNext + 1 := by
  rw [State.txPlaced, setFld_orderNext, onlyWay_orderNext (wayStates_onlyWay ..), setTx_orderNext, State.entsPut]

theorem txPlaced_vals (ht : t < 64) : (s.txPlaced t es).txVals t = { s.txVals t with state := 3 } := by
  have hput : (s.entsPut es).txVals t = s.txVals t := txVals_congr (x := s.entsPut es) rfl t
  rw [State.txPlaced, txVals_setState _ ht, txVals_congr (onlyWay_regs (wayStates_onlyWay ..)), txVals_setTx, hput]
  rfl

variable {s}

/-- Where no entry stands, a prepare that passes takes nothing from another transaction; IMMEDIATE commits it (R290). -/
theorem txPlace_alone (ht : t < 64) {h : CmdHdr} (hprep : (s.tx t).prep = some h) (hpeer : (s.tx t).peer = none)
    (hcoord : (s.tx t).coord = false) (hpoint : s.fld F.WAY_TX_STAT_POINT t = 0) (hents : s.ents = []) :
    s.txPlace t es = ((s.txPlaced t es).replyPending h).txCommit t := by
  have hrivals : s.rivals t es = [] := by
    rw [State.rivals, hents]
    rfl
  have hat : ((s.txPlaced t es).replyPending h).fld F.WAY_TX_STAT_POINT t = 0 :=
    (congrArg TxVals.point ((txVals_replyPending ht h).trans (txPlaced_vals s es ht))).trans hpoint
  have hvoted (y : State) : y.txVoted t { s.tx t with order := s.orderNext + 1 } = y := by
    rw [State.txVoted]
    simp only [hpeer, hcoord, Bool.false_eq_true, if_false]
  have hreached : ((s.txPlaced t es).replyPending h).txReached t = ((s.txPlaced t es).replyPending h).txCommit t := by
    simp only [State.txReached, hat]
  rw [txPlace_eq, hrivals, List.filter_nil, List.map_nil, List.dedup_nil, List.foldl_nil, State.txPass, hvoted, hprep]
  exact hreached

end

/-! ## The commit -/

/-- An entry of transaction `t` committed at boundary `b`, as number `o` (R291). -/
def Entry.committed (b : Int) (o : Nat) (e : Entry) : Entry := { e with phase := .sent, tag := b, order := o }

/-- The entries of transaction `t` are committed, and nothing waits for its commit point. -/
def State.entsSent (s : State) (t : Nat) : State :=
  { s with
    ents := s.ents.map fun e => if e.tx = t then e.committed s.nextB s.orderNext else e
    orderNext := s.orderNext + 1
    waiters := s.waiters.filter fun w => decide (w.by_ ≠ WaitBy.commit t) }

theorem entsSent_onlyTx (s : State) (t : Nat) : s.OnlyTx (s.entsSent t) t := ⟨keeps_of_regs _ rfl, rfl⟩

section
variable {s : State} {t : Nat} (hpoint : s.fld F.WAY_TX_STAT_POINT t = 0)
include hpoint

/-- A commit point that is no boundary is at the next one (R290). -/
theorem txCommit_eq : s.txCommit t = (((s.entsSent t).setTx t { s.tx t with commitTime := s.now, boundary := s.nextB }).setFld
    F.WAY_TX_STAT_STATE 4 t).wayStates t 3 := by
  rw [State.txCommit, hpoint]
  rfl

theorem txCommit_onlyTx (ht : t < 64) : s.OnlyTx (s.txCommit t) t := by
  rw [txCommit_eq hpoint]
  exact (entsSent_onlyTx s t).trans ((onlyTx_setTx _ _).trans ((onlyTx_setFld _ ht (.inl rfl) _).trans
    (onlyWay_onlyTx (wayStates_onlyWay _ t 3) t)))

theorem txCommit_ents : (s.txCommit t).ents = s.ents.map fun e => if e.tx = t then e.committed s.nextB s.orderNext else e := by
  rw [txCommit_eq hpoint, onlyWay_ents (wayStates_onlyWay ..), State.setFld_ents, setTx_ents, State.entsSent]

theorem txCommit_tx : (s.txCommit t).tx t = { s.tx t with commitTime := s.now, boundary := s.nextB } := by
  rw [txCommit_eq hpoint, tx_congr (onlyWay_txs (wayStates_onlyWay ..)), tx_congr (State.setFld_txs ..), State.tx_setTx_same]

theorem txCommit_vals (ht : t < 64) : (s.txCommit t).txVals t = { s.txVals t with state := 4 } := by
  have hsent : (s.entsSent t).txVals t = s.txVals t := txVals_congr (x := s.entsSent t) rfl t
  rw [txCommit_eq hpoint, txVals_congr (onlyWay_regs (wayStates_onlyWay ..)), txVals_setState _ ht, txVals_setTx, hsent]
  rfl

end

/-- Every entry of a transaction's actions is its own. -/
theorem entriesOf_tx (s : State) (t : Nat) (q : Nat × Act) {e : Entry} (he : e ∈ s.entriesOf t q) : e.tx = t := by
  unfold State.entriesOf at he
  split at he
  · obtain ⟨_, _, rfl⟩ := List.mem_map.1 he
    rfl
  · obtain ⟨_, _, rfl⟩ := List.mem_map.1 he
    rfl
  · rw [List.mem_singleton.1 he]
  · rw [List.mem_singleton.1 he]
  · split at he
    · rw [List.mem_singleton.1 he]
    · exact absurd he List.not_mem_nil
  · exact absurd he List.not_mem_nil
  · rw [List.mem_singleton.1 he]

/-- The entries of one transaction are all committed by its commit. -/
theorem map_committed {es : List Entry} {t : Nat} (h : ∀ e ∈ es, e.tx = t) (b : Int) (o : Nat) :
    (es.map fun e => if e.tx = t then e.committed b o else e) = es.map (Entry.committed b o) :=
  List.map_congr_left fun e he => if_pos (h e he)

section
variable {s x : State} {t : Nat} (h : s.OnlyTx x t)
include h
theorem State.OnlyTx.now : x.now = s.now := by rw [h.frame]
theorem State.OnlyTx.nextB : x.nextB = s.nextB := by rw [h.frame]; rfl
end

section
variable {s x : State} (h : s.onlyReplies x)
include h
theorem onlyReplies_now : x.now = s.now := by rw [h]
theorem onlyReplies_nextB : x.nextB = s.nextB := by rw [h]; rfl
theorem onlyReplies_orderNext : x.orderNext = s.orderNext := by rw [h]
end

theorem txPrepared_effect {s : State} (dt : Nat) {t : Fin 64} {h : CmdHdr} (hprep : (s.tx t).prep = some h) (hpeer : (s.tx t).peer = none)
    (hcoord : (s.tx t).coord = false) {es : List Entry} (hes : ((s.tick dt).txActs t).flatMap ((s.tick dt).entriesOf t) = es)
    (hstate : s.txState t = 2) (hup : s.mcUp = true) (hpoint : s.fld F.WAY_TX_STAT_POINT t = 0) (hents : s.ents = [])
    (hpass : (s.tick dt).txCheck t (((s.tick dt).txActs t).map (·.2)) es = none) :
    ∃ x, exec (.txPrepared dt t) s = .next x ∧ x.txState t = 4 ∧ (x.tx t).commitTime = (s.now + dt) % 2 ^ 64 ∧
      x.ents = es.map (Entry.committed s.nextB (s.orderNext + 1)) ∧ x.out = ((s.tick dt).replyPending h).out ∧ s.sameMemory x := by
  have hown : ∀ e ∈ es, e.tx = t := by
    rw [← hes]
    intro e he
    obtain ⟨q, _, hq⟩ := List.mem_flatMap.1 he
    exact entriesOf_tx _ t q hq
  have hexec : exec (.txPrepared dt t) s = .next ((s.tick dt).txPlace t es) := by
    change execTxPrepared dt t s = _
    rw [execTxPrepared, if_pos (show (s.tick dt).txState t = 2 ∧ (s.tick dt).mcUp = true from ⟨hstate, hup⟩)]
    simp only [hes, hpass]
  rw [txPlace_alone (s := s.tick dt) es t.isLt hprep hpeer hcoord hpoint hents] at hexec
  have honly := txPlaced_onlyTx (s.tick dt) es t.isLt
  have hvals := txPlaced_vals (s.tick dt) es t.isLt
  have hput := txPlaced_ents (s.tick dt) (t := t) es
  have horder := txPlaced_orderNext (s.tick dt) (t := t) es
  generalize (s.tick dt).txPlaced t es = y at hexec honly hvals hput horder
  have hreply := replyPending_onlyReplies y h
  have hat : (y.replyPending h).fld F.WAY_TX_STAT_POINT t = 0 :=
    (congrArg TxVals.point ((txVals_replyPending t.isLt h).trans hvals)).trans hpoint
  have hout := honly.alike.replyPending_out h
  have hmem := sameMemory_trans honly.mem (onlyReplies_sameMemory hreply)
  generalize y.replyPending h = z at hexec hreply hat hout hmem
  have hcommit := txCommit_onlyTx hat t.isLt
  refine ⟨_, hexec, congrArg TxVals.state (txCommit_vals hat t.isLt), ?_, ?_, hcommit.out.trans hout, sameMemory_trans hmem hcommit.mem⟩
  · rw [txCommit_tx hat, onlyReplies_now hreply, honly.now]
    rfl
  · rw [txCommit_ents hat, onlyReplies_ents hreply, hput, State.tick_ents, hents, List.nil_append, map_committed hown,
      onlyReplies_nextB hreply, honly.nextB, onlyReplies_orderNext hreply, horder]
    rfl

/-! ## The commit signal of one odometer action -/

/-- A COMMITTED transaction of this device alone, all of whose entries have taken effect, goes FREE and ends its TX_PREPARE (R289). -/
theorem txDone1_alone {s : State} {t : Nat} (hlt : t < 64) {h : CmdHdr} (hprep : (s.tx t).prep = some h) (hpeer : (s.tx t).peer = none)
    (hcoord : (s.tx t).coord = false) (hstate : s.txState t = 4) (hents : s.ents = []) (hsvc : s.svc = []) (hswitch : s.switch = none) :
    s.txDone1 t = ((s.wayStates t 4).txFree t).reply h 0 (s.txWords t) := by
  have hdone : s.txState t = 4 ∧ (!(s.ents.any fun e => e.tx == t)) = true := ⟨hstate, by rw [hents]; rfl⟩
  have htx : (s.wayStates t 4).tx t = s.tx t := tx_congr (onlyWay_txs (wayStates_onlyWay ..)) t
  have hfree : s.OnlyTx ((s.wayStates t 4).txFree t) t := (onlyWay_onlyTx (wayStates_onlyWay ..) t).trans (txFree_onlyTx _ hlt)
  rw [State.txDone1, if_pos hdone, sysTell_alone (htx ▸ hpeer) (htx ▸ hcoord)]
  dsimp only
  rw [svcEnd_idle (hfree.svc.trans hsvc) (hfree.switch.trans hswitch), hprep]

/-- What a completed transaction leaves. -/
theorem txDone1_effect {s : State} {t : Nat} (hlt : t < 64) {h : CmdHdr} (hprep : (s.tx t).prep = some h) (hpeer : (s.tx t).peer = none)
    (hcoord : (s.tx t).coord = false) (hstate : s.txState t = 4) (hents : s.ents = []) (hsvc : s.svc = []) (hswitch : s.switch = none) :
    (s.txDone1 t).txState t = 0 ∧ (s.txDone1 t).tx t = tx0 ∧ (s.txDone1 t).ents = [] ∧ s.sameMemory (s.txDone1 t) ∧
      s.keeps (s.txDone1 t) (txRegs t ++ replyRegs h) := by
  rw [txDone1_alone hlt hprep hpeer hcoord hstate hents hsvc hswitch]
  have hway := wayStates_onlyWay s t 4
  have honly : s.OnlyTx ((s.wayStates t 4).txFree t) t := (onlyWay_onlyTx hway t).trans (txFree_onlyTx _ hlt)
  obtain ⟨_, _, hvals⟩ := txFree_vals (s.wayStates t 4) hlt
  have hnone := txFree_ents (s.wayStates t 4) (t := t)
  rw [onlyWay_ents hway, hents] at hnone
  have hslot := txFree_tx (s.wayStates t 4) (t := t)
  generalize (s.wayStates t 4).txFree t = x at honly hvals hnone hslot
  have hreply := reply_onlyReplies x h 0 (s.txWords t)
  refine ⟨congrArg TxVals.state ((txVals_reply hlt h 0 _).trans hvals), ?_, ?_, sameMemory_trans honly.mem (reply_sameMemory ..),
    keeps_trans honly.regs (reply_keeps x h 0 _)⟩
  · rw [tx_reply, hslot]
  · rw [onlyReplies_ents hreply, hnone]
    rfl

/-- Where no entry is left, no reference lane takes a new set. -/
theorem refSets_none {s : State} (hents : s.ents = []) (t : Nat) (us : List Nat) :
    us.foldl (fun s u => if (s.ents.any fun e => e.tx == t && e.at_ == .latch u) then s.refSets u else s) s = s := by
  induction us with
  | nil => rfl
  | cons u us ih =>
    rw [List.foldl_cons, hents, List.any_nil, if_neg Bool.false_ne_true]
    exact ih

/-- An entry of transaction `t` whose commit signal is on its way. -/
def Entry.mine (t : Nat) (e : Entry) : Bool := e.tx == t && e.phase == .sent

/-- The entries that take effect as the signal arrives, and the state that holds the others (R291). -/
def State.signalNow (s : State) (t : Nat) : List Entry := s.ents.filter fun e => e.mine t && e.at_ == .signal
def State.signalHeld (s : State) (t : Nat) : State :=
  { s with ents := (s.ents.filter fun e => !(e.mine t && e.at_ == .signal)).map fun e => if e.mine t then { e with phase := .held } else e }

theorem exec_commitSignalArrive {s : State} (dt : Nat) {t : Fin 64} (hstate : s.txState t = 4) :
    exec (.commitSignalArrive dt t) s = .next (((List.range 16).foldl
      (fun s u => if (s.ents.any fun e => e.tx == t && e.at_ == .latch u) then s.refSets u else s)
      (((s.tick dt).signalNow t).foldl (fun s e => s.effect e) ((s.tick dt).signalHeld t))).txDone1 t) :=
  if_pos (c := (s.tick dt).txState t = 4) hstate

/-- The position of an odometer action in place, with no entry left. -/
def State.odoSet (s : State) (u pos : Nat) : State :=
  let s : State := { s with ents := [] }
  (s.setFld F.ODO_POS_POS pos u).setOdo u { s.odo u with high := sext pos 64 }

theorem setOdo_fld (s : State) (u : Nat) (x : Odo) (f : Fld) (i j : Nat) : (s.setOdo u x).fld f i j = s.fld f i j := rfl

theorem setOdo_keeps (s : State) (u : Nat) (x : Odo) : s.keeps (s.setOdo u x) [] := keeps_of_regs _ rfl

theorem odoSet_pos (s : State) (u : Nat) {pos : Nat} (hpos : pos < 2 ^ 64) : (s.odoSet u pos).fld F.ODO_POS_POS u = pos := by
  rw [State.odoSet, setOdo_fld, State.fld_setFld_same _ _ _ _ _ (by decide)]
  exact Nat.mod_eq_of_lt hpos

theorem odoSet_keeps (s : State) (u : Fin 4) (pos : Nat) : s.keeps (s.odoSet u pos) [(.ODO_POS, u.val, 0)] :=
  keeps_trans (keeps_setFld { s with ents := [] } F.ODO_POS_POS pos ⟨u.isLt, Nat.one_pos⟩) (setOdo_keeps _ _ _)

theorem effect_odo {s : State} (t i u pos : Nat) (g : Int) (o : Nat) :
    ({ s with ents := [] } : State).effect ⟨t, i, .odo u pos, .signal, .sent, g, o⟩ = s.odoSet u pos := rfl

theorem exec_commitSignalArrive_odo {s : State} (dt : Nat) {t : Fin 64} (hstate : s.txState t = 4) {i : Nat} {u : Fin 4} {pos : Nat}
    {g : Int} {o : Nat} (hents : s.ents = [⟨t, i, .odo u pos, .signal, .sent, g, o⟩]) :
    exec (.commitSignalArrive dt t) s = .next (((s.tick dt).odoSet u pos).txDone1 t) := by
  have hnow : (s.tick dt).signalNow t = [⟨t, i, .odo u pos, .signal, .sent, g, o⟩] := by
    simp [State.signalNow, State.tick_ents, hents, Entry.mine]
  have hheld : (s.tick dt).signalHeld t = { s.tick dt with ents := [] } := by
    rw [State.signalHeld, State.tick_ents, hents]
    simp [Entry.mine]
  have hnone : ((s.tick dt).odoSet u pos).ents = [] := rfl
  rw [exec_commitSignalArrive dt hstate, hnow, hheld, List.foldl_cons, List.foldl_nil, effect_odo, refSets_none hnone]

theorem commitSignalArrive_effect {s : State} (dt : Nat) {t : Fin 64} {h : CmdHdr} (hprep : (s.tx t).prep = some h)
    (hpeer : (s.tx t).peer = none) (hcoord : (s.tx t).coord = false) (hstate : s.txState t = 4) {i : Nat} {u : Fin 4} {pos : Nat}
    (hpos : pos < 2 ^ 64) {g : Int} {o : Nat} (hsvc : s.svc = []) (hswitch : s.switch = none)
    (hents : s.ents = [⟨t, i, .odo u pos, .signal, .sent, g, o⟩]) :
    ∃ x, exec (.commitSignalArrive dt t) s = .next x ∧ x.fld F.ODO_POS_POS u = pos ∧ x.ents = [] ∧ x.txState t = 0 ∧ x.tx t = tx0 ∧
      s.sameMemory x := by
  have hset := odoSet_pos (s.tick dt) u hpos
  have hat : ((s.tick dt).odoSet u pos).txState t = 4 :=
    (fld_of_keeps (odoSet_keeps (s.tick dt) u pos) (regHas_tx t.isLt (.inl rfl)) (by simp)).trans hstate
  have hnone : ((s.tick dt).odoSet u pos).ents = [] := rfl
  have hmem : s.sameMemory ((s.tick dt).odoSet u pos) := sameMemory_of_stores rfl rfl
  obtain ⟨hfree, hslot, hleft, hsame, hkeeps⟩ := txDone1_effect (s := (s.tick dt).odoSet u pos) t.isLt hprep hpeer hcoord hat hnone hsvc
    hswitch
  refine ⟨_, exec_commitSignalArrive_odo dt hstate hents, ?_, hleft, hfree, hslot, sameMemory_trans hmem hsame⟩
  have hplace : (Reg.ODO_POS, u.val, 0) ∉ txRegs t ++ replyRegs h := fun hin =>
    (List.mem_append.1 hin).elim (by simp [txRegs]) (not_mem_replyRegs (by decide) h _ _)
  rw [fld_of_keeps hkeeps ⟨u.isLt, Nat.one_pos⟩ hplace, hset]

/-- Settles O23: with no rival entry the prepare places its entries and commits, and the signal of one odometer action leaves nothing to wait
for. -/
theorem preparedTransactionsCommitAndTakeEffect : Obligations.PreparedTransactionsCommitAndTakeEffect := by
  intro dt t h s hprep hpeer hcoord
  refine ⟨?_, ?_⟩
  · exact fun hstate hup hpoint hents hpass => txPrepared_effect dt hprep hpeer hcoord rfl hstate hup hpoint hents hpass
  · exact fun i u pos g o hstate hpos hsvc hswitch _ hents =>
      commitSignalArrive_effect dt hprep hpeer hcoord hstate hpos hsvc hswitch hents

end Sys2Proof.Machine
end

section
/-! Handovers of depot banks (R331, R333, R334). -/
namespace Sys2Proof.Machine

/-- Bank `b` handed on. -/
def State.handOn (s : State) (owner ranks : Nat) (force : Bool) (b : Nat) : State :=
  let s := (s.setFld F.DEP_OWNERS_OWN (putBits (s.fld F.DEP_OWNERS_OWN) (4 * b) 4 owner)).setFld F.DEP_BANK_PRIO_RANKS ranks b
  if force then { s with bankFault := putBits s.bankFault b 1 0 } else s

/-- Bank `b` handed on where the mask names it. -/
def State.handBank (s : State) (banks owner ranks : Nat) (force : Bool) (b : Nat) : State :=
  if bitsOf banks b 1 = 1 then s.handOn owner ranks force b else s

theorem handover_eq (s : State) (banks owner ranks : Nat) (force : Bool) : s.handover banks owner ranks force =
    ((List.range 16).foldl (fun s b => s.handBank banks owner ranks force b) s).inc F.DEP_STAT_HANDOVERS := rfl

/-- The owner and the ranks of bank `b`. -/
def State.bankVals (s : State) (b : Nat) : Nat × Nat := (s.bankOwner b, s.fld F.DEP_BANK_PRIO_RANKS b)

/-- `t` differs from `s` in its registers and in the banks whose owner is in doubt alone. -/
def State.onlyBanks (s t : State) : Prop := t = { s with regs := t.regs, bankFault := t.bankFault }

theorem onlyBanks_trans {s t u : State} (h : s.onlyBanks t) (h' : t.onlyBanks u) : s.onlyBanks u := by
  rw [State.onlyBanks] at h h' ⊢
  rw [h', h]

theorem onlyBanks_of_onlyRegs {s t : State} (h : s.onlyRegs t) : s.onlyBanks t := by
  rw [State.onlyRegs] at h
  rw [State.onlyBanks, h]

section
variable (s : State) (owner ranks : Nat) (force : Bool) (b : Nat)

theorem handOn_regs : (s.handOn owner ranks force b).regs =
    ((s.setFld F.DEP_OWNERS_OWN (putBits (s.fld F.DEP_OWNERS_OWN) (4 * b) 4 owner)).setFld F.DEP_BANK_PRIO_RANKS ranks b).regs := by
  rw [State.handOn]
  split <;> rfl

theorem handOn_onlyBanks : s.onlyBanks (s.handOn owner ranks force b) := by
  have hwritten : s.onlyBanks ((s.setFld F.DEP_OWNERS_OWN (putBits (s.fld F.DEP_OWNERS_OWN) (4 * b) 4 owner)).setFld
      F.DEP_BANK_PRIO_RANKS ranks b) := onlyBanks_of_onlyRegs (onlyRegs_trans (onlyRegs_setFld ..) (onlyRegs_setFld ..))
  rw [State.handOn]
  split
  · exact onlyBanks_trans hwritten rfl
  · exact hwritten

theorem bitsOf_three (n lo : Nat) : bitsOf n lo 3 = bitsOf n lo 4 % 8 := (Nat.mod_mod_of_dvd _ (by decide)).symm

variable {s owner ranks force b} (hb : b < 16)
include hb

theorem handOn_keeps : s.keeps (s.handOn owner ranks force b) [(.DEP_OWNERS, 0, 0), (.DEP_BANK_PRIO, b, 0)] :=
  keeps_trans (keeps_trans (keeps_setFld s F.DEP_OWNERS_OWN _ ⟨Nat.one_pos, Nat.one_pos⟩)
    (keeps_setFld _ F.DEP_BANK_PRIO_RANKS ranks ⟨hb, Nat.one_pos⟩)) (keeps_of_regs [] (handOn_regs ..))

theorem handOn_owners : (s.handOn owner ranks force b).fld F.DEP_OWNERS_OWN = putBits (s.fld F.DEP_OWNERS_OWN) (4 * b) 4 owner % 2 ^ 64 := by
  have hother := fld_of_keeps (keeps_setFld (s.setFld F.DEP_OWNERS_OWN (putBits (s.fld F.DEP_OWNERS_OWN) (4 * b) 4 owner))
    F.DEP_BANK_PRIO_RANKS ranks (i := b) (j := 0) ⟨hb, Nat.one_pos⟩) (f := F.DEP_OWNERS_OWN) (i := 0) (j := 0) ⟨Nat.one_pos, Nat.one_pos⟩
    (by simp)
  rw [State.fld_congr (handOn_regs ..), hother, State.fld_setFld_same _ _ _ _ _ (by decide)]

/-- The bank named has the new owner and ranks. -/
theorem handOn_bankVals_same (ho : owner < 8) (hr : ranks < 2 ^ 64) : (s.handOn owner ranks force b).bankVals b = (owner, ranks) := by
  have howner : (s.handOn owner ranks force b).bankOwner b = owner := by
    rw [State.bankOwner, handOn_owners hb, bitsOf_mod_two_pow _ _ _ _ (by omega), bitsOf_three, bitsOf_putBits_same]
    omega
  have hranks : (s.handOn owner ranks force b).fld F.DEP_BANK_PRIO_RANKS b = ranks := by
    rw [State.fld_congr (handOn_regs ..), State.fld_setFld_same _ _ _ _ _ (by decide)]
    exact Nat.mod_eq_of_lt hr
  rw [State.bankVals, howner, hranks]

/-- Every other bank keeps its own. -/
theorem handOn_bankVals_ne {k : Nat} (hk : k < 16) (hne : k ≠ b) : (s.handOn owner ranks force b).bankVals k = s.bankVals k := by
  have howner : (s.handOn owner ranks force b).bankOwner k = s.bankOwner k := by
    rw [State.bankOwner, handOn_owners hb, bitsOf_mod_two_pow _ _ _ _ (by omega), bitsOf_putBits_ne _ _ _ _ _ _ (by omega), State.bankOwner]
  have hranks : (s.handOn owner ranks force b).fld F.DEP_BANK_PRIO_RANKS k = s.fld F.DEP_BANK_PRIO_RANKS k :=
    fld_of_keeps (handOn_keeps hb) ⟨hk, Nat.one_pos⟩ (by simp [hne])
  rw [State.bankVals, State.bankVals, howner, hranks]

end

/-- The registers of a handover. -/
def handRegs : List (Reg × Nat × Nat) := (.DEP_OWNERS, 0, 0) :: (List.range 16).map fun b => (.DEP_BANK_PRIO, b, 0)

theorem handRegs_named : ∀ y ∈ handRegs ++ [(.DEP_STAT, 0, 0)],
    y ∈ [(.DEP_OWNERS, 0, 0), (.DEP_STAT, 0, 0)] ++ (List.range 16).map fun b => (Reg.DEP_BANK_PRIO, b, 0) := by
  intro y hy
  simp only [handRegs, List.mem_append, List.mem_cons, List.not_mem_nil, or_false] at hy ⊢
  tauto

section
variable (s : State) (banks : Nat) {owner ranks : Nat} (force : Bool)

theorem handBank_bankVals_ne {b k : Nat} (hb : b < 16) (hk : k < 16) (hne : k ≠ b) :
    (s.handBank banks owner ranks force b).bankVals k = s.bankVals k := by
  rw [State.handBank]
  split
  · exact handOn_bankVals_ne hb hk hne
  · rfl

/-- The banks after all sixteen: those of the mask as given, the others as they were. -/
theorem handBanks_bankVals (ho : owner < 8) (hr : ranks < 2 ^ 64) {b : Nat} (hb : b < 16) :
    ((List.range 16).foldl (fun s b => s.handBank banks owner ranks force b) s).bankVals b =
      if bitsOf banks b 1 = 1 then (owner, ranks) else s.bankVals b := by
  refine foldl_range_once (P := fun u : State => u.bankVals b = s.bankVals b)
    (Q := fun u : State => u.bankVals b = if bitsOf banks b 1 = 1 then (owner, ranks) else s.bankVals b) hb rfl ?_ ?_ ?_
  · exact fun x hx hne u hu => (handBank_bankVals_ne u banks force hx hb hne.symm).trans hu
  · intro u hu
    rw [State.handBank]
    split
    · exact handOn_bankVals_same hb ho hr
    · exact hu
  · exact fun x hx hne u hu => (handBank_bankVals_ne u banks force hx hb hne.symm).trans hu

theorem handBanks_keeps : s.keeps ((List.range 16).foldl (fun s b => s.handBank banks owner ranks force b) s) handRegs := by
  refine List.foldlRecOn (motive := fun u => s.keeps u handRegs) _ _ (keeps_refl s _) fun u hu b hb => ?_
  have hstep : u.keeps (u.handBank banks owner ranks force b) handRegs := by
    rw [State.handBank]
    split
    · exact keeps_mono (handOn_keeps (List.mem_range.1 hb)) (by simpa [handRegs] using List.mem_range.1 hb)
    · exact keeps_refl u _
  exact keeps_mono (keeps_trans hu hstep) (by simp)

theorem handBanks_onlyBanks : s.onlyBanks ((List.range 16).foldl (fun s b => s.handBank banks owner ranks force b) s) := by
  refine foldl_rel (R := State.onlyBanks) (fun _ => rfl) onlyBanks_trans (fun u b => ?_) _ s
  rw [State.handBank]
  split
  · exact handOn_onlyBanks ..
  · rfl

end

/-! ## The write of DEP_BANK_OWNER -/

/-- A handover that commits, bank by bank, counted once (R333). -/
theorem handover_effect (s : State) (banks : Nat) {owner ranks : Nat} (force : Bool) (ho : owner < 8) (hr : ranks < 2 ^ 64) :
    let t := s.handover banks owner ranks force
    (∀ b < 16, t.bankVals b = if bitsOf banks b 1 = 1 then (owner, ranks) else s.bankVals b) ∧
    t.fld F.DEP_STAT_HANDOVERS = min (s.fld F.DEP_STAT_HANDOVERS + 1) (2 ^ F.DEP_STAT_HANDOVERS.w - 1) ∧
    s.keeps t (handRegs ++ [(.DEP_STAT, 0, 0)]) ∧ s.onlyBanks t := by
  rw [handover_eq]
  have hvals (b : Nat) (hb : b < 16) := handBanks_bankVals s banks (owner := owner) (ranks := ranks) force ho hr hb
  have hkeeps := handBanks_keeps s banks (owner := owner) (ranks := ranks) force
  have honly := handBanks_onlyBanks s banks (owner := owner) (ranks := ranks) force
  generalize (List.range 16).foldl (fun s b => s.handBank banks owner ranks force b) s = u at hvals hkeeps honly
  have hcount : u.fld F.DEP_STAT_HANDOVERS = s.fld F.DEP_STAT_HANDOVERS :=
    fld_of_keeps hkeeps ⟨Nat.one_pos, Nat.one_pos⟩ (by simp [handRegs])
  have hinc := keeps_inc u F.DEP_STAT_HANDOVERS (i := 0) (j := 0) ⟨Nat.one_pos, Nat.one_pos⟩
  refine ⟨fun b hb => ?_, ?_, keeps_trans hkeeps hinc, onlyBanks_trans honly (onlyBanks_of_onlyRegs (onlyRegs_setFld ..))⟩
  · have howners : (u.inc F.DEP_STAT_HANDOVERS).fld F.DEP_OWNERS_OWN = u.fld F.DEP_OWNERS_OWN :=
      fld_of_keeps hinc ⟨Nat.one_pos, Nat.one_pos⟩ (by simp)
    have hranks : (u.inc F.DEP_STAT_HANDOVERS).fld F.DEP_BANK_PRIO_RANKS b = u.fld F.DEP_BANK_PRIO_RANKS b :=
      fld_of_keeps hinc ⟨hb, Nat.one_pos⟩ (by simp)
    rw [State.bankVals, State.bankOwner, howners, hranks, ← hvals b hb]
    rfl
  · rw [State.fld_inc_same _ _ _ _ (by decide), hcount]

/-- May the write of value `v` by `r` hand its banks on: a forced one the MC's alone (R333). -/
def State.handMay (s : State) (r : Requester) (v : Nat) : Bool :=
  if bitsOf v 31 1 = 1 then decide (r = .mc)
  else (List.range 16).all fun b => bitsOf v b 1 == 0 || mayHand (ownerClass r) (s.bankOwner b)

theorem handOk_eq (s : State) (cls v : Nat) : s.handOk cls (v % 2 ^ 16) =
    (List.range 16).all fun b => bitsOf v b 1 == 0 || mayHand cls (s.bankOwner b) := by
  rw [State.handOk, Bool.eq_iff_iff, List.all_eq_true, List.all_eq_true]
  refine forall₂_congr fun b hb => ?_
  rw [bitsOf_mod_two_pow _ _ _ _ (Nat.succ_le_of_lt (List.mem_range.1 hb))]

theorem ownerWrite_eq (s : State) (r : Requester) {v : Nat} (ho : bitsOf v 24 3 < 6) : s.ownerWrite r v =
    if s.handMay r v then s.handover (v % 2 ^ 16) (bitsOf v 24 3) defaultRanks (bitsOf v 31 1 == 1)
    else (s.aelReg r (regAddr .DEP_BANK_OWNER) 7 0x0501 v).inc F.DEP_STAT_NOT_OWNER := by
  rw [State.ownerWrite, State.handMay, ← handOk_eq]
  simp only [if_neg (Nat.not_le.2 ho), beq_iff_eq]

section
variable {s : State} (dt : Nat) {r : Requester} {v : Word}
  (ha : s.access (regAddr .DEP_BANK_OWNER) 4 = .ok (hitOf .DEP_BANK_OWNER 0 0)) (ho : bitsOf v.toNat 24 3 < 6)
include ha ho

theorem exec_depBankOwnerWrite : exec (.depBankOwnerWrite dt r v) s = .next (
    if s.handMay r v.toNat then (s.tick dt).handover (v.toNat % 2 ^ 16) (bitsOf v.toNat 24 3) defaultRanks (bitsOf v.toNat 31 1 == 1)
    else ((s.tick dt).aelReg r (regAddr .DEP_BANK_OWNER) 7 0x0501 v.toNat).inc F.DEP_STAT_NOT_OWNER) :=
  congrArg Host.Outcome.next ((accessing_of_ok ((access_tick s dt _ 4).trans ha) r _ _).trans (ownerWrite_eq (s.tick dt) r ho))

theorem depBankOwnerWrite_hands (hmay : s.handMay r v.toNat = true) : ∃ t, exec (.depBankOwnerWrite dt r v) s = .next t ∧
    (∀ b < 16, t.bankVals b = if bitsOf v.toNat b 1 = 1 then (bitsOf v.toNat 24 3, 0xFEDCBA9876543210) else s.bankVals b) ∧
    t.fld F.DEP_STAT_HANDOVERS = min (s.fld F.DEP_STAT_HANDOVERS + 1) (2 ^ F.DEP_STAT_HANDOVERS.w - 1) ∧
    s.keeps t (handRegs ++ [(.DEP_STAT, 0, 0)]) ∧ (s.tick dt).onlyBanks t := by
  obtain ⟨hvals, hcount, hkeeps, honly⟩ := handover_effect (s.tick dt) (v.toNat % 2 ^ 16) (ranks := defaultRanks) (bitsOf v.toNat 31 1 == 1)
    (ho.trans (by decide)) (by decide)
  refine ⟨_, (exec_depBankOwnerWrite dt ha ho).trans (congrArg _ (if_pos hmay)), fun b hb => ?_, hcount, keeps_of_tick hkeeps, honly⟩
  rw [hvals b hb, bitsOf_mod_two_pow _ _ _ _ (Nat.succ_le_of_lt hb)]
  rfl

end

end Sys2Proof.Machine
end

section
/-! The tally's snapshots (R297, R298), and records on their way into one egress ring (R371, R372). -/
namespace Sys2Proof.Machine

/-! ## The tally -/

/-- A snapshot runs and is counted (R297). -/
def State.snapped (s : State) : State := (s.setFld F.TALLY_STAT_RUNNING 1).addWrap F.TALLY_CNT_SNAPS 1

section
variable (s : State)

theorem snapped_onlyRegs : s.onlyRegs s.snapped := onlyRegs_trans (onlyRegs_setFld ..) (onlyRegs_setFld ..)

theorem running_keeps (v : Nat) : s.keeps (s.setFld F.TALLY_STAT_RUNNING v) [(.TALLY_STAT, 0, 0)] :=
  keeps_setFld s F.TALLY_STAT_RUNNING v ⟨Nat.one_pos, Nat.one_pos⟩

theorem snaps_keeps (n : Nat) : s.keeps (s.addWrap F.TALLY_CNT_SNAPS n) [(.TALLY_CNT, 0, 0)] :=
  keeps_setFld s F.TALLY_CNT_SNAPS _ ⟨Nat.one_pos, Nat.one_pos⟩

theorem snapped_keeps : s.keeps s.snapped [(.TALLY_STAT, 0, 0), (.TALLY_CNT, 0, 0)] := keeps_trans (running_keeps s 1) (snaps_keeps _ 1)

theorem snapped_running : s.snapped.flag F.TALLY_STAT_RUNNING = true := by
  have hset : (s.setFld F.TALLY_STAT_RUNNING 1).flag F.TALLY_STAT_RUNNING = true := flag_setFld_same _ _ _ _ _ (by decide)
  exact (flag_congr (fld_of_keeps (snaps_keeps _ 1) ⟨Nat.one_pos, Nat.one_pos⟩ (by simp))).trans hset

theorem snapped_snaps : s.snapped.fld F.TALLY_CNT_SNAPS = (s.fld F.TALLY_CNT_SNAPS + 1) % 2 ^ F.TALLY_CNT_SNAPS.w := by
  have hbefore : (s.setFld F.TALLY_STAT_RUNNING 1).fld F.TALLY_CNT_SNAPS = s.fld F.TALLY_CNT_SNAPS :=
    fld_of_keeps (running_keeps s 1) ⟨Nat.one_pos, Nat.one_pos⟩ (by simp)
  rw [State.snapped, State.addWrap, State.fld_setFld_same _ _ _ _ _ (by decide), hbefore]

variable {s} (dt : Nat)

/-- The arrivals counted so far are cleared by a snapshot (R297). -/
def State.arrCleared (s : State) : State := { s with arrMs := [] }

theorem arrCleared_regs : s.arrCleared.regs = s.regs := rfl

theorem arrCleared_of_onlyRegs {u : State} (h : s.onlyRegs u) : u.arrCleared = { s with regs := u.arrCleared.regs, arrMs := [] } := by
  rw [State.onlyRegs] at h
  rw [arrCleared_regs, State.arrCleared, h]

theorem exec_tallySnapshot (viol : List (Fin 7 × Fin 65536)) : exec (.tallySnapshot dt viol) s =
    if (s.tick dt).fld F.PWR_STAT_DSTATE = 0 ∧ (s.tick dt).domOn 2 then
      .next (viol.foldl (fun s q => s.violation (q.1.val + 1) q.2)
        (((s.tick dt).setFld F.TALLY_STAT_RUNNING 1).addWrap F.TALLY_CNT_SNAPS 1)).arrCleared
    else .next ((s.tick dt).setFld F.TALLY_STAT_RUNNING 0) := rfl

theorem tallySnapshot_runs (hd0 : s.fld F.PWR_STAT_DSTATE = 0) (hon : s.domOn 2 = true) :
    ∃ t, exec (.tallySnapshot dt []) s = .next t ∧ t.flag F.TALLY_STAT_RUNNING = true ∧
      t.fld F.TALLY_CNT_SNAPS = (s.fld F.TALLY_CNT_SNAPS + 1) % 2 ^ F.TALLY_CNT_SNAPS.w ∧
      s.keeps t [(.TALLY_STAT, 0, 0), (.TALLY_CNT, 0, 0)] ∧ t = { s.tick dt with regs := t.regs, arrMs := [] } := by
  have hexec : exec (.tallySnapshot dt []) s = .next (s.tick dt).snapped.arrCleared := by
    have hmay : (s.tick dt).fld F.PWR_STAT_DSTATE = 0 ∧ (s.tick dt).domOn 2 = true := ⟨hd0, hon⟩
    rw [exec_tallySnapshot, if_pos hmay, List.foldl_nil, ← State.snapped]
  have hrun := snapped_running (s.tick dt)
  have hsnaps := snapped_snaps (s.tick dt)
  rw [State.fld_tick] at hsnaps
  have hkeeps := snapped_keeps (s.tick dt)
  have honly := snapped_onlyRegs (s.tick dt)
  generalize (s.tick dt).snapped = u at hexec hrun hsnaps hkeeps honly
  have hsame (f : Fld) (i j : Nat) : u.arrCleared.fld f i j = u.fld f i j := State.fld_congr arrCleared_regs f i j
  exact ⟨_, hexec, (flag_congr (hsame ..)).trans hrun, (hsame ..).trans hsnaps, keeps_of_tick (keeps_congr arrCleared_regs hkeeps),
    arrCleared_of_onlyRegs honly⟩

theorem tallySnapshot_stops (hd : s.fld F.PWR_STAT_DSTATE ≠ 0) (viol : List (Fin 7 × Fin 65536)) :
    ∃ t, exec (.tallySnapshot dt viol) s = .next t ∧ t.flag F.TALLY_STAT_RUNNING = false ∧
      s.keeps t [(.TALLY_STAT, 0, 0)] ∧ t = { s.tick dt with regs := t.regs } :=
  ⟨(s.tick dt).setFld F.TALLY_STAT_RUNNING 0,
    (exec_tallySnapshot dt viol).trans (if_neg fun h => hd h.1),
    flag_setFld_same _ _ _ _ _ (by decide), keeps_of_tick (running_keeps _ 0), onlyRegs_setFld ..⟩

end

end Sys2Proof.Machine
end

section
/-! One egress ring (R371 to R374): a record that fits, a record that is dropped, the report of a tail. -/
namespace Sys2Proof.Machine

theorem leBytes_length (v n : Nat) : (leBytes v n).length = n := by
  induction n generalizing v with
  | zero => rfl
  | succ n ih => rw [leBytes, List.length_cons, ih]

theorem recHeader_length (x : EgrRec) (len rseq : Nat) : (recHeader x len rseq).length = 48 := by
  simp only [recHeader, List.length_append, leBytes_length]

theorem State.eRing_setERing_same (s : State) (r : Nat) (g : Ring) : (s.setERing r g).eRing r = g := mapGet_mapSet_same ringE0 s.rings r g

theorem State.eRing_setERing_ne (s : State) {r j : Nat} (g : Ring) (h : j ≠ r) : (s.setERing r g).eRing j = s.eRing j :=
  mapGet_mapSet_ne ringE0 s.rings g h

theorem setERing_regs (s : State) (r : Nat) (g : Ring) : (s.setERing r g).regs = s.regs := rfl

theorem eRing_congr {s t : State} (h : t.rings = s.rings) (j : Nat) : t.eRing j = s.eRing j := by rw [State.eRing, State.eRing, h]

/-! ## Which rings and streams take a record -/

section
variable {s t : State} {x : EgrRec} {r : Nat}

theorem ringTakes_congr {j : Nat} (hg : t.eRing j = s.eRing j) (hen : t.fld F.CMD_EGR_STAT_EN j = s.fld F.CMD_EGR_STAT_EN j) :
    t.ringTakes j x = s.ringTakes j x := by rw [State.ringTakes, State.ringTakes, hg, flag_congr hen]

theorem rsTakes_congr (hk : s.keeps t [(.CMD_EGR_STAT, r, 0)]) {k : Nat} (hlt : k < 16) : t.rsTakes k x = s.rsTakes k x := by
  have same (f : Fld) (hf : f.reg = .NET_RS_CFG) : t.fld f k = s.fld f k :=
    fld_of_keeps hk (by rw [hf]; exact ⟨hlt, Nat.one_pos⟩) (by simp [hf])
  rw [State.rsTakes, State.rsTakes, flag_congr (same F.NET_RS_CFG_EN rfl), same F.NET_RS_CFG_CONNS rfl, same F.NET_RS_CFG_TYPES rfl]

/-- A record that one ring alone selects changes what that ring does with it (R372, R385). -/
theorem egress_one (hr : r < 16) (htakes : s.ringTakes r x = true) (hothers : ∀ j < 16, j ≠ r → s.ringTakes j x = false)
    (hstreams : ∀ k < 16, s.rsTakes k x = false) (hrings : ∀ j, j ≠ r → (s.ringAppend r x).eRing j = s.eRing j)
    (hkeeps : s.keeps (s.ringAppend r x) [(.CMD_EGR_STAT, r, 0)]) : s.egress x = s.ringAppend r x := by
  have hen (j : Nat) (hj : j < 16) (hne : j ≠ r) : (s.ringAppend r x).ringTakes j x = false := by
    have hsame : (s.ringAppend r x).fld F.CMD_EGR_STAT_EN j = s.fld F.CMD_EGR_STAT_EN j :=
      fld_of_keeps hkeeps ⟨hj, Nat.one_pos⟩ (by simp [hne])
    rw [ringTakes_congr (hrings j hne) hsame, hothers j hj hne]
  have hfold : (List.range 16).foldl (fun s r => if s.ringTakes r x then s.ringAppend r x else s) s = s.ringAppend r x := by
    refine foldl_range_once (P := fun u => u = s) (Q := fun u => u = s.ringAppend r x) hr rfl ?_ ?_ ?_
    · rintro j hj hne _ rfl
      rw [hothers j hj hne]
      exact if_neg Bool.false_ne_true
    · rintro _ rfl
      exact if_pos htakes
    · rintro j hj hne _ rfl
      rw [hen j hj hne]
      exact if_neg Bool.false_ne_true
  rw [State.egress, hfold]
  refine List.foldlRecOn (motive := fun u => u = s.ringAppend r x) _ _ rfl ?_
  rintro _ rfl k hk
  rw [rsTakes_congr hkeeps (List.mem_range.1 hk), hstreams k (List.mem_range.1 hk)]
  exact if_neg Bool.false_ne_true

end

/-! ## A record that fits -/

/-- A ring after `n` more bytes. -/
def Ring.wrote (g : Ring) (n : Nat) : Ring :=
  { g with written := (g.written + n) % 2 ^ 64, rseq := (g.rseq + 1) % 2 ^ 32, unreported := true }

section
variable (s : State) (r : Nat)

theorem ringBytes_eq (b : List Byte) : s.ringBytes r b = (s.emit (.hostWrite (s.ringLink r)
    (s.fld F.CMD_EGR_BASE_ADDR r * 4096 + (s.eRing r).written % 2 ^ s.fld F.CMD_EGR_BASE_SIZE_LOG2 r) b false)).setERing r
      ((s.eRing r).wrote b.length) := rfl

theorem ringPad_zero : s.ringPad r 0 = s := if_pos rfl

theorem ringPut_unpadded {x : EgrRec} (hpad : padFor (2 ^ s.fld F.CMD_EGR_BASE_SIZE_LOG2 r) (s.eRing r).written
    (48 + (payloadFor x (s.eRing r).fmt8).length) = 0) : s.ringPut r x =
      s.ringBytes r (recHeader x (48 + (payloadFor x (s.eRing r).fmt8).length) (s.eRing r).rseq ++ payloadFor x (s.eRing r).fmt8) := by
  rw [State.ringPut, hpad, ringPad_zero]

theorem padFor_eq_zero {size w len : Nat} (h : w % size + len ≤ size) : padFor size w len = 0 := if_neg (Nat.not_lt.2 h)

variable {s r} {x : EgrRec} (hd : (s.eRing r).dropped = 0)
  (hpad : (s.eRing r).written % 2 ^ s.fld F.CMD_EGR_BASE_SIZE_LOG2 r + (48 + (payloadFor x (s.eRing r).fmt8).length) ≤
    2 ^ s.fld F.CMD_EGR_BASE_SIZE_LOG2 r)
include hd hpad

/-- A record that fits needs no PAD, so it stands where the last one ended (R371). -/
theorem ringAppend_puts (hroom : (s.eRing r).written + (48 + (payloadFor x (s.eRing r).fmt8).length) - s.fld F.CMD_EGR_HEAD_HEAD r ≤
    2 ^ s.fld F.CMD_EGR_BASE_SIZE_LOG2 r) : s.ringAppend r x = (s.setERing r (s.eRing r)).ringBytes r
      (recHeader x (48 + (payloadFor x (s.eRing r).fmt8).length) (s.eRing r).rseq ++ payloadFor x (s.eRing r).fmt8) := by
  have hnone := padFor_eq_zero hpad
  have hheld : { s.eRing r with dropped := 0 } = s.eRing r := by rw [← hd]
  have hput := ringPut_unpadded (s.setERing r (s.eRing r)) r (x := x)
  rw [State.eRing_setERing_same] at hput
  rw [State.ringAppend, ← hput hnone]
  simp only [hd, if_true, after, hnone, Nat.add_zero, hheld]
  exact if_pos hroom

theorem ringAppend_drops (hfull : 2 ^ s.fld F.CMD_EGR_BASE_SIZE_LOG2 r <
    (s.eRing r).written + (48 + (payloadFor x (s.eRing r).fmt8).length) - s.fld F.CMD_EGR_HEAD_HEAD r) :
    s.ringAppend r x = (s.setERing r { s.eRing r with dropped := 1 }).inc F.CMD_EGR_STAT_DROPS r := by
  have hnone := padFor_eq_zero hpad
  rw [State.ringAppend]
  simp only [hd, if_true, after, hnone, Nat.add_zero]
  exact if_neg (Nat.not_le.2 hfull)

end

section
variable (s : State) (r : Nat)

theorem ringBytes_out (b : List Byte) : (s.ringBytes r b).out = s.out ++ [.hostWrite (s.ringLink r)
    (s.fld F.CMD_EGR_BASE_ADDR r * 4096 + (s.eRing r).written % 2 ^ s.fld F.CMD_EGR_BASE_SIZE_LOG2 r) b false] := rfl

theorem ringBytes_eRing_same (b : List Byte) : (s.ringBytes r b).eRing r = (s.eRing r).wrote b.length := by
  rw [ringBytes_eq, State.eRing_setERing_same]

theorem ringBytes_eRing_ne (b : List Byte) {j : Nat} (h : j ≠ r) : (s.ringBytes r b).eRing j = s.eRing j := by
  rw [ringBytes_eq, State.eRing_setERing_ne _ _ h]
  rfl

theorem ringBytes_regs (b : List Byte) : (s.ringBytes r b).regs = s.regs := rfl

/-- `t` differs from `s` in its rings and in what has left the device alone. -/
def State.onlyRings (s t : State) : Prop := t = { s with out := t.out, rings := t.rings }

theorem onlyRings_trans {s t u : State} (h : s.onlyRings t) (h' : t.onlyRings u) : s.onlyRings u := by
  rw [State.onlyRings] at h h' ⊢
  rw [h', h]

theorem ringBytes_onlyRings (b : List Byte) : s.onlyRings (s.ringBytes r b) := rfl

theorem setERing_onlyRings (g : Ring) : s.onlyRings (s.setERing r g) := rfl

theorem setERing_out (g : Ring) : (s.setERing r g).out = s.out := rfl

theorem onlyRings_then_onlyRegs {s t u : State} (h : s.onlyRings t) (h' : t.onlyRegs u) :
    u = { s with regs := u.regs, rings := u.rings, out := u.out } := by
  rw [State.onlyRings] at h
  rw [State.onlyRegs] at h'
  rw [h', h]

theorem setERing_inc_frame (g : Ring) (f : Fld) :
    (s.setERing r g).inc f r = { s with regs := ((s.setERing r g).inc f r).regs, rings := ((s.setERing r g).inc f r).rings } := rfl

theorem inc_eRing (f : Fld) (i j : Nat) : (s.inc f i).eRing j = s.eRing j := rfl

end

section
variable {s : State} {r : Nat} (hr : r < 16) {x : EgrRec} (htakes : s.ringTakes r x = true)
  (hothers : ∀ j < 16, j ≠ r → s.ringTakes j x = false) (hstreams : ∀ k < 16, s.rsTakes k x = false) (hd : (s.eRing r).dropped = 0)
  (hpad : (s.eRing r).written % 2 ^ s.fld F.CMD_EGR_BASE_SIZE_LOG2 r + (48 + (payloadFor x (s.eRing r).fmt8).length) ≤
    2 ^ s.fld F.CMD_EGR_BASE_SIZE_LOG2 r)
include hr htakes hothers hstreams hd hpad

theorem egress_puts (hroom : (s.eRing r).written + (48 + (payloadFor x (s.eRing r).fmt8).length) - s.fld F.CMD_EGR_HEAD_HEAD r ≤
    2 ^ s.fld F.CMD_EGR_BASE_SIZE_LOG2 r) :
    let len := 48 + (payloadFor x (s.eRing r).fmt8).length
    (s.egress x).out = s.out ++ [.hostWrite (s.ringLink r)
      (s.fld F.CMD_EGR_BASE_ADDR r * 4096 + (s.eRing r).written % 2 ^ s.fld F.CMD_EGR_BASE_SIZE_LOG2 r)
      (recHeader x len (s.eRing r).rseq ++ payloadFor x (s.eRing r).fmt8) false] ∧
    (s.egress x).eRing r = (s.eRing r).wrote len ∧ (∀ j, j ≠ r → (s.egress x).eRing j = s.eRing j) ∧ s.onlyRings (s.egress x) := by
  have hput := ringAppend_puts hd hpad hroom
  have hlen : (recHeader x (48 + (payloadFor x (s.eRing r).fmt8).length) (s.eRing r).rseq ++ payloadFor x (s.eRing r).fmt8).length =
      48 + (payloadFor x (s.eRing r).fmt8).length := by rw [List.length_append, recHeader_length]
  have hrings (j : Nat) (hne : j ≠ r) : (s.ringAppend r x).eRing j = s.eRing j := by
    rw [hput, ringBytes_eRing_ne _ _ _ hne, State.eRing_setERing_ne _ _ hne]
  have hregs : (s.ringAppend r x).regs = s.regs := by rw [hput, ringBytes_regs, setERing_regs]
  have hone := egress_one hr htakes hothers hstreams hrings (keeps_of_regs _ hregs)
  have hself := s.eRing_setERing_same r (s.eRing r)
  refine ⟨?_, ?_, fun j hne => ?_, ?_⟩
  · rw [hone, hput, ringBytes_out, hself]
    rfl
  · rw [hone, hput, ringBytes_eRing_same, hself, hlen]
  · rw [hone, hrings j hne]
  · rw [hone, hput]
    exact onlyRings_trans (setERing_onlyRings ..) (ringBytes_onlyRings ..)

theorem egress_drops (hfull : 2 ^ s.fld F.CMD_EGR_BASE_SIZE_LOG2 r <
    (s.eRing r).written + (48 + (payloadFor x (s.eRing r).fmt8).length) - s.fld F.CMD_EGR_HEAD_HEAD r) :
    (s.egress x).eRing r = { s.eRing r with dropped := 1 } ∧
    (s.egress x).fld F.CMD_EGR_STAT_DROPS r = min (s.fld F.CMD_EGR_STAT_DROPS r + 1) (2 ^ F.CMD_EGR_STAT_DROPS.w - 1) ∧
    s.keeps (s.egress x) [(.CMD_EGR_STAT, r, 0)] ∧
    s.egress x = { s with regs := (s.egress x).regs, rings := (s.egress x).rings } := by
  have hdrop := ringAppend_drops hd hpad hfull
  have hrings (j : Nat) (hne : j ≠ r) : (s.ringAppend r x).eRing j = s.eRing j := by
    rw [hdrop, inc_eRing, State.eRing_setERing_ne _ _ hne]
  have hkeeps : s.keeps (s.ringAppend r x) [(.CMD_EGR_STAT, r, 0)] := by
    rw [hdrop]
    exact keeps_trans (keeps_of_regs [] (setERing_regs ..)) (keeps_inc _ F.CMD_EGR_STAT_DROPS ⟨hr, Nat.one_pos⟩)
  rw [egress_one hr htakes hothers hstreams hrings hkeeps]
  refine ⟨?_, ?_, hkeeps, ?_⟩
  · rw [hdrop, inc_eRing, State.eRing_setERing_same]
  · rw [hdrop, State.fld_inc_same _ _ _ _ (by decide), State.fld_congr (setERing_regs ..)]
  · rw [hdrop]
    exact setERing_inc_frame ..

end

/-! ## The report of a tail -/

section
variable (s : State) (r : Nat)

/-- What the report of a tail sends: the tail shadow, and the interrupt where the ring has one (R371). -/
def State.tailSent (s : State) (r : Nat) : State :=
  let g := s.eRing r
  let s := s.emit (.hostWrite (s.ringLink r) g.shadow (leBytes g.written 8) false)
  if g.ien then s.emit (.msix (s.ringLink r) (64 + r)) else s

theorem tailSent_eq : s.tailSent r = { s with out := s.out ++ .hostWrite (s.ringLink r) (s.eRing r).shadow (leBytes (s.eRing r).written 8) false ::
    (if (s.eRing r).ien then [.msix (s.ringLink r) (64 + r)] else []) } := by
  rw [State.tailSent]
  split
  · simp only [State.emit, List.append_assoc, List.cons_append, List.nil_append]
    rfl
  · rfl

theorem tailReport_eq (h : (s.eRing r).unreported = true) : s.tailReport r =
    ((s.tailSent r).setERing r { s.eRing r with unreported := false }).setFld F.CMD_EGR_TAIL_TAIL (s.eRing r).written r := by
  rw [State.tailReport, if_pos h, State.tailSent]
  split <;> rfl

/-- A tail that has not been reported is sent once and stands in CMD_EGR_TAIL. -/
theorem tailReport_reports (hr : r < 16) (h : (s.eRing r).unreported = true) :
    (s.tailReport r).out = s.out ++ .hostWrite (s.ringLink r) (s.eRing r).shadow (leBytes (s.eRing r).written 8) false ::
      (if (s.eRing r).ien then [.msix (s.ringLink r) (64 + r)] else []) ∧
    (s.tailReport r).fld F.CMD_EGR_TAIL_TAIL r = (s.eRing r).written % 2 ^ 64 ∧
    (s.tailReport r).eRing r = { s.eRing r with unreported := false } ∧ s.keeps (s.tailReport r) [(.CMD_EGR_TAIL, r, 0)] ∧
    s.tailReport r = { s with regs := (s.tailReport r).regs, rings := (s.tailReport r).rings, out := (s.tailReport r).out } := by
  have hout : (s.tailSent r).out = s.out ++ .hostWrite (s.ringLink r) (s.eRing r).shadow (leBytes (s.eRing r).written 8) false ::
      (if (s.eRing r).ien then [.msix (s.ringLink r) (64 + r)] else []) := by rw [tailSent_eq]
  have hregs : (s.tailSent r).regs = s.regs := by rw [tailSent_eq]
  have honly : s.onlyRings (s.tailSent r) := by
    rw [tailSent_eq]
    rfl
  rw [tailReport_eq s r h]
  generalize s.tailSent r = u at hout hregs honly
  have hset := u.eRing_setERing_same r { s.eRing r with unreported := false }
  have hrings := onlyRings_trans honly (setERing_onlyRings u r { s.eRing r with unreported := false })
  have hkept : s.keeps (u.setERing r { s.eRing r with unreported := false }) [] := keeps_of_regs [] ((setERing_regs ..).trans hregs)
  have hsent := (setERing_out u r { s.eRing r with unreported := false }).trans hout
  generalize u.setERing r { s.eRing r with unreported := false } = z at hset hrings hkept hsent
  refine ⟨(State.setFld_out ..).trans hsent, State.fld_setFld_same _ _ _ _ _ (by decide), (eRing_congr (State.setFld_rings ..) r).trans hset,
    keeps_trans hkept (keeps_setFld z F.CMD_EGR_TAIL_TAIL _ ⟨hr, Nat.one_pos⟩), ?_⟩
  exact onlyRings_then_onlyRegs hrings (onlyRegs_setFld ..)

end

/-- Settles O46: bank by bank and ring by ring, an operation reaches what it names and leaves the rest as it was. -/
theorem depotTallyAndEgress : Obligations.DepotTallyAndEgress := by
  intro dt s
  refine ⟨?_, fun hd0 hon => tallySnapshot_runs dt hd0 hon, fun hd viol => tallySnapshot_stops dt hd viol, ?_, ?_⟩
  · intro r v ha owner may ho
    refine ⟨fun hmay => ?_, fun hmay => (exec_depBankOwnerWrite dt ha ho).trans (congrArg _ (if_neg (ne_true_of_eq_false hmay)))⟩
    obtain ⟨t, hexec, hvals, hcount, hkeeps, honly⟩ := depBankOwnerWrite_hands dt ha ho hmay
    refine ⟨t, hexec, fun b hb => ?_, fun b hb => ?_, hcount, keeps_mono hkeeps handRegs_named, honly⟩
    · exact (congrArg Prod.fst (hvals b hb)).trans (apply_ite Prod.fst ..)
    · exact (congrArg Prod.snd (hvals b hb)).trans (apply_ite Prod.snd ..)
  · intro x r htakes hothers hstreams g size p len hd hpad
    refine ⟨fun hroom => ?_, fun hfull => ?_⟩
    · obtain ⟨hout, hring, hrings, honly⟩ := egress_puts (s := s.tick dt) r.isLt htakes hothers hstreams hd hpad hroom
      exact ⟨_, rfl, hout, hring, hrings, honly⟩
    · obtain ⟨hring, hdrops, hkeeps, honly⟩ := egress_drops (s := s.tick dt) r.isLt htakes hothers hstreams hd hpad hfull
      exact ⟨_, rfl, hring, hdrops, keeps_of_tick hkeeps, honly⟩
  · intro r g
    refine ⟨fun h => ?_, fun h => congrArg Host.Outcome.next (if_neg (ne_true_of_eq_false h))⟩
    obtain ⟨hout, htail, hring, hkeeps, honly⟩ := tailReport_reports (s.tick dt) r r.isLt h
    exact ⟨_, rfl, hout, htail, hring, keeps_of_tick hkeeps, honly⟩

end Sys2Proof.Machine
end

section
/-! A route word that changes its own tile alone: what it leaves once the PC has moved, to the next word or elsewhere (R301, R308), and the
registers of the tile after one of them has been written (R303). -/
namespace Sys2Proof.Machine

/-! ## The tile after a word -/

/-- A word that ends no loop body: the PC moves on, and the loops stay. -/
theorem afterWord_of_head_ne (s : State) (k : Nat) {i : Nat} {ls : List LoopFrame} (h : ∀ f ∈ ls.head?, f.last ≠ i) :
    s.afterWord k i ls = (s.modTile k fun x => { x with loops := ls }).enterPc k (i + 1) := by
  cases ls with
  | nil => rfl
  | cons f fs => exact if_neg (h f rfl)

section
variable {s v : State} {dt op w : Nat} {k : Fin 1088} {x : Tile} (hv : OnTile (s.issued dt k) v k []) (hx : v.tile k = x)
include hv hx

/-- A word whose effect leaves the registers of its tile, with the PC at any word (R308, R309). -/
theorem wordDone_enterPc (pc : Nat) : s.wordDone (v.enterPc k pc) dt k pc (s.fld F.TILE_STAT_SB_BUSY k) x [] := by
  subst hx
  have hm := pcMoved_enterPc v k pc
  have hstat : ∀ f : Fld, f.reg = .TILE_STAT → (v.enterPc k pc).fld f k = (s.issued dt k).fld f k := fun f hf =>
    (hm.fld f k 0).trans (fld_of_keeps hv.regs (by rw [hf]; exact ⟨k.isLt, Nat.one_pos⟩) List.not_mem_nil)
  have hon := (issued_onTile s dt k).trans ((hv.trans (hm.onTile [])).mono (by simp))
  exact ⟨hm.tile, hon.others, (hstat F.TILE_STAT_STATE rfl).trans (issued_tState s dt k),
    (hstat F.TILE_STAT_SB_BUSY rfl).trans (issued_busy s dt k), keeps_of_tick hon.regs, hon.frame⟩

/-- A word whose effect leaves the registers of its tile, with the PC at the next word. -/
theorem wordDone_of_onTile (h : s.issues k op w) (hpc : x.pc = (s.tile k).pc) (hloops : x.loops = (s.tile k).loops) :
    s.wordDone (v.nextWord k) dt k ((s.tile k).pc + 1) (s.fld F.TILE_STAT_SB_BUSY k) x [] := by
  subst hx
  obtain ⟨-, -, -, -, hlast⟩ := h
  rw [State.nextWord, hpc, afterWord_of_head_ne v k (by rw [hloops]; exact hlast)]
  exact wordDone_enterPc (hv.trans (onTile_modTile ..)) (v.tile_modTile_same ..) _

end

/-! ## Registers -/

section
variable (s : State) (k i n : Nat)

theorem setG_onTile (l : List (Reg × Nat × Nat)) : OnTile s (s.setG k i n) k l := by
  rw [State.setG]
  split
  · exact .refl s k l
  · exact onTile_modTile ..

theorem setG_tile : (s.setG k i n).tile k = { s.tile k with g := ((s.setG k i n).tile k).g } := by
  rw [State.setG]
  split
  · rfl
  · rw [s.tile_modTile_same]

/-- A register written reads as its value mod 2³², and G0 reads 0 (R303). -/
theorem gReg_setG (j : Nat) : (s.setG k i n).gReg k j = if j = i ∧ j ≠ 0 then n % 2 ^ 32 else s.gReg k j := by
  by_cases hj : j = 0
  · rw [if_neg fun h => h.2 hj, State.gReg, State.gReg, if_pos hj, if_pos hj]
  · by_cases hi : i = 0
    · rw [State.setG, if_pos hi, if_neg fun h => hj (h.1.trans hi)]
    · rw [State.setG, if_neg hi, State.gReg, if_neg hj, s.tile_modTile_same, mapGet_mapSet, State.gReg, if_neg hj]
      simp only [hj, ne_eq, not_false_eq_true, and_true]

end

theorem gReg_congr {s t : State} {k : Nat} (h : (t.tile k).g = (s.tile k).g) (j : Nat) : t.gReg k j = s.gReg k j := by
  rw [State.gReg, State.gReg, h]

/-- In `t`, register `i` of tile `k` has been written with `n`, and its other registers stand as in `s`. -/
def State.regWritten (s t : State) (k i n : Nat) : Prop := ∀ j, t.gReg k j = if j = i ∧ j ≠ 0 then n % 2 ^ 32 else s.gReg k j

theorem regWritten_congr {s t : State} {k i n n' : Nat} (h : s.regWritten t k i n) (hn : n % 2 ^ 32 = n' % 2 ^ 32) :
    s.regWritten t k i n' := fun j => (h j).trans (by rw [hn])

section
variable {s t : State} {dt op w : Nat} {k : Fin 1088}

/-- What a word has done that has written a register of its tile. -/
theorem regWritten_of_wordDone {i n pc busy : Nat} {x : Tile} (hd : s.wordDone t dt k pc busy x [])
    (hg : x.g = (((s.issued dt k).setG k i n).tile k).g) :
    s.regWritten t k i n ∧ s.wordDone t dt k pc busy { x with g := (t.tile k).g } [] := by
  have ht : (t.tile k).g = x.g := by rw [hd.1]
  refine ⟨fun j => ?_, ht ▸ hd⟩
  rw [gReg_congr (ht.trans hg), gReg_setG, issued_gReg]

/-- A word whose effect is a write of one register, with the PC at the next word. -/
theorem setG_next {names : State → Nat → Named} {effect : State → Nat → State} {c : Instr} {i n : Nat}
    (hc : exec c s = .next ((s.tick dt).issueNext k op names effect)) (h : s.issues k op w) (hp : s.passes k (names (s.tick dt) w))
    (hq : effect (s.issued dt k) w = (s.issued dt k).setG k i n) :
    ∃ t, exec c s = .next t ∧ s.regWritten t k i n ∧
      s.wordDone t dt k ((s.tile k).pc + 1) (s.fld F.TILE_STAT_SB_BUSY k) { s.tile k with g := (t.tile k).g } [] := by
  have hx := setG_tile (s.issued dt k) k i n
  rw [issued_tile] at hx
  rw [hc, issueNext_of_passes dt h hp, hq]
  exact ⟨_, rfl, regWritten_of_wordDone (x := { s.tile k with g := (((s.issued dt k).setG k i n).tile k).g })
    (wordDone_of_onTile (setG_onTile _ k i n []) hx h rfl rfl) rfl⟩

/-- A word that writes one register and the loops of its tile, with the PC at any word (R308). -/
theorem setG_loops_enterPc (i n : Nat) (f : List LoopFrame → List LoopFrame) (pc : Nat) :
    let t := (((s.issued dt k).setG k i n).modTile k fun x => { x with loops := f x.loops }).enterPc k pc
    s.regWritten t k i n ∧
      s.wordDone t dt k pc (s.fld F.TILE_STAT_SB_BUSY k) { s.tile k with loops := f (s.tile k).loops, g := (t.tile k).g } [] := by
  have hx : (((s.issued dt k).setG k i n).modTile k fun x => { x with loops := f x.loops }).tile k =
      { s.tile k with loops := f (s.tile k).loops, g := (((s.issued dt k).setG k i n).tile k).g } := by
    rw [State.tile_modTile_same, setG_tile, issued_tile]
  exact regWritten_of_wordDone (wordDone_enterPc ((setG_onTile _ k i n []).trans (onTile_modTile ..)) hx pc) rfl

end

end Sys2Proof.Machine
end

section
/-! NOP, SETG, ALU and BR (R306, R307, R309): the results of ALU's functions and of BR's comparisons, and the words. -/
namespace Sys2Proof.Machine

/-! ## Functions and comparisons -/

/-- A two's complement reading wraps back to the bits that it was read from. -/
theorem wrapTo_sext (v w : Nat) : wrapTo w (sext v w) = v % 2 ^ w := by
  rw [wrapTo, sext]
  split
  · rw [← Int.natCast_mod, Int.toNat_natCast, Nat.mod_mod]
  · rw [Int.sub_emod_right, ← Int.natCast_mod, Int.toNat_natCast, Nat.mod_mod]

theorem wrapTo_min_sext (a b w : Nat) :
    wrapTo w (min (sext a w) (sext b w)) = (if sext a w ≤ sext b w then a else b) % 2 ^ w := by
  rw [min_def]
  split <;> exact wrapTo_sext ..

theorem wrapTo_max_sext (a b w : Nat) :
    wrapTo w (max (sext a w) (sext b w)) = (if sext a w ≤ sext b w then b else a) % 2 ^ w := by
  rw [max_def]
  split <;> exact wrapTo_sext ..

/-- The results of ALU's eleven functions, mod 2³² (R307). -/
theorem aluFn_mod {fn : Nat} (a b : Nat) : fn ≤ 10 → ∃ n, aluFn fn a b = some n ∧ n % 2 ^ 32 = (match fn with
    | 0 => a + b | 1 => a + 2 ^ 32 - b | 2 => a * b | 3 => a &&& b | 4 => a ||| b | 5 => a ^^^ b | 6 => a * 2 ^ (b % 32)
    | 7 => a / 2 ^ (b % 32) | 8 => a % b | 9 => if sext a 32 ≤ sext b 32 then a else b
    | _ => if sext a 32 ≤ sext b 32 then b else a) % 2 ^ 32 := by
  intro h
  match fn, h with
  | 0, _ | 1, _ | 2, _ | 3, _ | 4, _ | 5, _ | 6, _ | 7, _ | 8, _ => exact ⟨_, rfl, rfl⟩
  | 9, _ => exact ⟨_, rfl, (congrArg (· % 2 ^ 32) (wrapTo_min_sext a b 32)).trans (Nat.mod_mod ..)⟩
  | 10, _ => exact ⟨_, rfl, (congrArg (· % 2 ^ 32) (wrapTo_max_sext a b 32)).trans (Nat.mod_mod ..)⟩

/-- BR's seven comparisons (R309). -/
theorem brHolds_some {cmp : Nat} (a b : Nat) : cmp ≤ 6 → brHolds cmp a b = some (match cmp with
    | 0 => true | 1 => decide (a = b) | 2 => decide (a ≠ b) | 3 => decide (sext a 32 < sext b 32)
    | 4 => decide (sext b 32 ≤ sext a 32) | 5 => decide (a < b) | _ => decide (b ≤ a)) := by
  intro h
  match cmp, h with
  | 0, _ | 1, _ | 3, _ | 4, _ | 5, _ | 6, _ => rfl
  | 2, _ => exact congrArg some (decide_not (p := a = b)).symm

/-! ## The words -/

section
variable {s : State} {w : Nat} {k : Fin 1088} (dt : Nat)

theorem routeNop_next (h : s.issues k 0x00 w) : ∃ t, exec (.routeNop dt k) s = .next t ∧
    s.wordDone t dt k ((s.tile k).pc + 1) (s.fld F.TILE_STAT_SB_BUSY k) (s.tile k) [] :=
  ⟨_, congrArg Host.Outcome.next (issueNext_of_passes (names := fun _ _ => named0) dt h (passes_named0 s k)),
    wordDone_of_onTile (.refl ..) (issued_tile s dt k k) h rfl rfl⟩

theorem setg_next (h : s.issues k 0x02 w) : ∃ t, exec (.setg dt k) s = .next t ∧ s.regWritten t k (wf w 19 16) (wf w 63 32) ∧
    s.wordDone t dt k ((s.tile k).pc + 1) (s.fld F.TILE_STAT_SB_BUSY k) { s.tile k with g := (t.tile k).g } [] :=
  setG_next rfl h (passes_named0 s k) rfl

theorem issued_aluB : (s.issued dt k).aluB k w = s.aluB k w := by rw [State.aluB, State.aluB, issued_gReg]

/-- ALU with a stated function, but for a modulus of zero (R307). -/
theorem alu_next {n : Nat} (h : s.issues k 0x03 w) (hmod : ¬(wf w 31 28 = 8 ∧ s.aluB k w = 0))
    (hn : aluFn (wf w 31 28) (s.gReg k (wf w 23 20)) (s.aluB k w) = some n) :
    ∃ t, exec (.alu dt k) s = .next t ∧ s.regWritten t k (wf w 19 16) n ∧
      s.wordDone t dt k ((s.tile k).pc + 1) (s.fld F.TILE_STAT_SB_BUSY k) { s.tile k with g := (t.tile k).g } [] := by
  have hp : s.passes k { named0 with excs := if wf w 31 28 = 8 ∧ s.aluB k w = 0 then [0x11] else [] } :=
    ⟨mayIssue_of_no_ranges s k rfl rfl (if_neg hmod) rfl rfl, rfl⟩
  exact setG_next rfl h hp (by simp only [issued_gReg, issued_aluB, hn])

/-- BR with a stated comparison (R309). -/
theorem br_next {b : Nat} {go : Bool} (h : s.issues k 0x05 w) (hb : (if wf w 27 27 = 1 then wf w 63 32 else s.gReg k (wf w 23 20)) = b)
    (hgo : brHolds (wf w 26 24) (s.gReg k (wf w 19 16)) b = some go) : ∃ t, exec (.br dt k) s = .next t ∧
      s.wordDone t dt k (if go then wf w 75 64 else (s.tile k).pc + 1) (s.fld F.TILE_STAT_SB_BUSY k) (s.tile k) [] := by
  have he : exec (.br dt k) s = .next (if go then (s.issued dt k).enterPc k (wf w 75 64) else (s.issued dt k).nextWord k) := by
    refine congrArg Host.Outcome.next ((issueWord_of_passes (s := s.tick dt) h (passes_named0 _ k)).trans ?_)
    rw [← State.issued]
    simp only [issued_gReg, hb, hgo]
  refine ⟨_, he, ?_⟩
  cases go
  · exact wordDone_of_onTile (.refl ..) (issued_tile s dt k k) h rfl rfl
  · exact wordDone_enterPc (.refl ..) (issued_tile s dt k k) _

end

end Sys2Proof.Machine
end

section
/-! LOOP, and the word that ends a loop body (R308). -/
namespace Sys2Proof.Machine

section
variable (s : State) (k : Nat) {i : Nat} {f : LoopFrame} (hlast : f.last = i)
include hlast

/-- The end of a pass that is not the last one. -/
theorem afterWord_next_pass (fs : List LoopFrame) (h : f.pass + 1 < f.count) : s.afterWord k i (f :: fs) =
    ((s.setG k f.cr (f.pass + 1)).modTile k fun x => { x with loops := { f with pass := f.pass + 1 } :: fs }).enterPc k f.first := by
  rw [State.afterWord, if_pos hlast]
  exact if_pos h

/-- The end of the last pass of the one loop. -/
theorem afterWord_last_pass (h : f.count ≤ f.pass + 1) : s.afterWord k i [f] =
    ((s.setG k f.cr (f.pass + 1)).modTile k fun x => { x with loops := [] }).enterPc k (i + 1) := by
  rw [State.afterWord, if_pos hlast]
  exact if_neg (Nat.not_lt.2 h)

end

section
variable {s : State} {w : Nat} {k : Fin 1088} (hi : s.issuing k = true) (hw : s.curWord k = ⟨BitVec.ofNat 128 w, false⟩)
  (hlt : w < 2 ^ 128) (hop : wf w 7 0 = 0x00)
include hi hw hlt hop

/-- NOP issues whether or not a loop body ends at it. -/
theorem issueNext_nop : s.issueNext k 0x00 (fun _ _ => named0) (fun s _ => s) = (s.setTState k tRun).nextWord k := by
  have hv : (s.curWord k).v.toNat = w := by
    rw [hw]
    exact Nat.mod_eq_of_lt hlt
  have hp : (s.curWord k).p = false := by rw [hw]
  have hnone : lowest (s.rngExcs k named0.rngs ++ named0.excs) = none := rfl
  have hbanks : named0.banks = 0 := rfl
  have hwaits : named0.waits = false := rfl
  have hsb : s.sbWait k named0 = false := (passes_named0 s k).sb
  have hms : s.msWaits k named0 = false := rfl
  simp only [State.issueNext, State.issueWord, hv, hp, hi, hop, hnone, hbanks, hwaits, hsb, hms, Bool.not_true, Bool.or_false,
    Bool.false_eq_true, ne_eq, not_true, if_false]

variable (dt : Nat)

theorem exec_routeNop : exec (.routeNop dt k) s = .next ((s.issued dt k).afterWord k (s.tile k).pc (s.tile k).loops) := by
  refine congrArg Host.Outcome.next ((issueNext_nop (s := s.tick dt) hi hw hlt hop).trans ?_)
  rw [← State.issued, State.nextWord, issued_tile]

variable {f : LoopFrame} {fs : List LoopFrame} (hl : (s.tile k).loops = f :: fs) (hlast : f.last = (s.tile k).pc)
include hl hlast

/-- A word that ends a loop body begins the next pass. -/
theorem routeNop_next_pass (hpass : f.pass + 1 < f.count) : ∃ t, exec (.routeNop dt k) s = .next t ∧
    s.regWritten t k f.cr (f.pass + 1) ∧ s.wordDone t dt k f.first (s.fld F.TILE_STAT_SB_BUSY k)
      { s.tile k with loops := { f with pass := f.pass + 1 } :: fs, g := (t.tile k).g } [] := by
  rw [exec_routeNop hi hw hlt hop, hl, afterWord_next_pass _ _ hlast fs hpass]
  exact ⟨_, rfl, setG_loops_enterPc _ _ (fun _ => { f with pass := f.pass + 1 } :: fs) _⟩

/-- A word that ends the last pass of the one loop goes on behind it. -/
theorem routeNop_last_pass (hpass : f.count ≤ f.pass + 1) (hone : fs = []) : ∃ t, exec (.routeNop dt k) s = .next t ∧
    s.regWritten t k f.cr (f.pass + 1) ∧ s.wordDone t dt k ((s.tile k).pc + 1) (s.fld F.TILE_STAT_SB_BUSY k)
      { s.tile k with loops := [], g := (t.tile k).g } [] := by
  rw [exec_routeNop hi hw hlt hop, hl, hone, afterWord_last_pass _ _ hlast hpass]
  exact ⟨_, rfl, setG_loops_enterPc _ _ (fun _ => []) _⟩

end

/-! ## LOOP -/

section
variable {s : State} {w : Nat} {k : Fin 1088} (dt : Nat)

/-- What LOOP makes of the device (R308): it goes on behind the body, or enters it with pass 0. -/
def State.looped (s : State) (k w : Nat) : State :=
  let pc := (s.tile k).pc
  let last := pc + wf w 51 40
  if s.loopCount k w = 0 then s.afterWord k last (s.tile k).loops
  else ((s.setG k (wf w 19 16) 0).modTile k fun x =>
    { x with loops := ⟨pc + 1, last, wf w 19 16, s.loopCount k w, 0⟩ :: x.loops }).enterPc k (pc + 1)

theorem issued_loopCount : (s.issued dt k).loopCount k w = s.loopCount k w := by rw [State.loopCount, State.loopCount, issued_gReg]

theorem exec_loop (h : s.issues k 0x04 w) (hn : s.loopCount k w ≤ 65535) :
    exec (.loop dt k) s = .next ((s.issued dt k).looped k w) := by
  have hp : s.passes k { named0 with excs := if 65535 < s.loopCount k w then [0x12] else [] } :=
    ⟨mayIssue_of_no_ranges s k rfl rfl (if_neg (Nat.not_lt.2 hn)) rfl rfl, rfl⟩
  exact congrArg Host.Outcome.next (issueWord_of_passes (s := s.tick dt) h ⟨⟨hp.ranges, hp.excs, hp.banks, hp.waits, hp.sb⟩, hp.ms⟩)

/-- LOOP with a count of 0 skips its body. -/
theorem loop_skips (h : s.issues k 0x04 w) (hn : s.loopCount k w = 0)
    (hlast : ∀ f ∈ (s.tile k).loops.head?, f.last ≠ (s.tile k).pc + wf w 51 40) : ∃ t, exec (.loop dt k) s = .next t ∧
      s.wordDone t dt k ((s.tile k).pc + wf w 51 40 + 1) (s.fld F.TILE_STAT_SB_BUSY k) (s.tile k) [] := by
  have hx : ((s.issued dt k).modTile k fun x => { x with loops := (s.tile k).loops }).tile k = s.tile k := by
    rw [State.tile_modTile_same, issued_tile]
  rw [exec_loop dt h (by omega), State.looped, issued_loopCount, if_pos hn, issued_tile, afterWord_of_head_ne _ _ hlast]
  exact ⟨_, rfl, wordDone_enterPc (onTile_modTile ..) hx _⟩

/-- LOOP with a count begins the first pass of its body. -/
theorem loop_begins (h : s.issues k 0x04 w) (hpos : 0 < s.loopCount k w) (hn : s.loopCount k w ≤ 65535) :
    ∃ t, exec (.loop dt k) s = .next t ∧ s.regWritten t k (wf w 19 16) 0 ∧
      s.wordDone t dt k ((s.tile k).pc + 1) (s.fld F.TILE_STAT_SB_BUSY k) { s.tile k with
        loops := ⟨(s.tile k).pc + 1, (s.tile k).pc + wf w 51 40, wf w 19 16, s.loopCount k w, 0⟩ :: (s.tile k).loops
        g := (t.tile k).g } [] := by
  rw [exec_loop dt h hn, State.looped, issued_loopCount, if_neg (by omega), issued_tile]
  exact ⟨_, rfl, setG_loops_enterPc _ _ (List.cons _) _⟩

end

end Sys2Proof.Machine
end

section
/-! LDG and STG (R310), and the route words on registers and storage: the obligation assembled. -/
namespace Sys2Proof.Machine

theorem PcMoved.readW {s t : State} {k pc : Nat} (h : PcMoved s t k pc) (lb : Bool) (a : Nat) : t.readW k lb a = s.readW k lb a :=
  readW_congr (fun _ _ => State.reg_congr (by rw [h.frame]) _ _ _) (by rw [h.tile]) (by rw [h.tile]) lb a

section
variable {s : State} {op w : Nat} {k : Fin 1088} (dt : Nat)

theorem ldg_next (h : s.issues k 0x18 w) (hub : s.unblocked k [⟨false, (opnd w 20).lb, s.ea k (opnd w 20), 1⟩] 0) :
    ∃ t, exec (.ldg dt k) s = .next t ∧
      s.regWritten t k (wf w 19 16) (bitsOf (s.readW k (opnd w 20).lb (s.ea k (opnd w 20))).v.toNat (32 * wf w 41 40) 32) ∧
      s.wordDone t dt k ((s.tile k).pc + 1) (s.fld F.TILE_STAT_SB_BUSY k) { s.tile k with g := (t.tile k).g } [] :=
  setG_next rfl h hub.passes (by simp only [issued_ea, issued_readW]; rfl)

/-- A word whose effect is a write of one word of storage, with the PC at the next word. -/
theorem writeW_next {names : State → Nat → Named} {effect : State → Nat → State} {i : Instr} {lb : Bool} {a : Nat} {c : Cell16}
    (hc : exec i s = .next ((s.tick dt).issueNext k op names effect)) (h : s.issues k op w) (hp : s.passes k (names (s.tick dt) w))
    (hq : effect (s.issued dt k) w = (s.issued dt k).writeW k lb a c) (ha : a < spaceWords lb) :
    ∃ t, exec i s = .next t ∧
      (∀ lb' n, n < spaceWords lb' → t.readW k lb' n = if lb' = lb ∧ n = a then c else s.readW k lb' n) ∧
      s.wordDone t dt k ((s.tile k).pc + 1) (s.fld F.TILE_STAT_SB_BUSY k) { s.tile k with sp := (t.tile k).sp, lb := (t.tile k).lb } [] := by
  have hx := writeW_tile (s.issued dt k) k lb a c
  have hon := writeW_onTile (s.issued dt k) k lb a c []
  have hsame := readW_writeW_same (s.issued dt k) k lb a c
  have hne {lb' : Bool} {n : Nat} (hn : n < spaceWords lb') := readW_writeW_ne (s.issued dt k) k c hn ha
  rw [issued_tile] at hx
  rw [hc, issueNext_of_passes dt h hp, hq]
  generalize (s.issued dt k).writeW k lb a c = v at hx hon hsame hne ⊢
  obtain ⟨-, -, -, -, hlast⟩ := id h
  have hm := pcMoved_nextWord (s := v) (k := k) (by rw [hx]; exact hlast)
  have hsp : ((v.nextWord k).tile k).sp = (v.tile k).sp := by rw [hm.tile]
  have hlb : ((v.nextWord k).tile k).lb = (v.tile k).lb := by rw [hm.tile]
  refine ⟨_, rfl, fun lb' n hn => ?_, ?_⟩
  · rw [hm.readW]
    split
    · next e =>
      obtain ⟨rfl, rfl⟩ := e
      exact hsame
    · next e => rw [hne hn (Decidable.not_and_iff_or_not.1 e), issued_readW]
  · rw [hsp, hlb]
    exact wordDone_of_onTile hon hx h rfl rfl

theorem stg_next (h : s.issues k 0x19 w) (hub : s.unblocked k [⟨true, (opnd w 20).lb, s.ea k (opnd w 20), 1⟩] 0) :
    ∃ t, exec (.stg dt k) s = .next t ∧
      (∀ lb n, n < spaceWords lb → t.readW k lb n = if lb = (opnd w 20).lb ∧ n = s.ea k (opnd w 20)
        then ⟨BitVec.ofNat 128 (putBits (s.readW k lb n).v.toNat (32 * wf w 41 40) 32 (s.gReg k (wf w 19 16))), (s.readW k lb n).p⟩
        else s.readW k lb n) ∧
      s.wordDone t dt k ((s.tile k).pc + 1) (s.fld F.TILE_STAT_SB_BUSY k) { s.tile k with sp := (t.tile k).sp, lb := (t.tile k).lb } [] := by
  have ha : s.ea k (opnd w 20) < spaceWords (opnd w 20).lb :=
    of_decide_eq_true (List.all_eq_true.1 (fits_of_rngExcs hub.1) _ (List.mem_singleton_self _))
  obtain ⟨t, he, hread, hd⟩ := writeW_next dt (i := .stg dt k) rfl h hub.passes
    (by simp only [State.writeBits, laneOpnd, issued_ea, issued_readW, issued_gReg, Bool.or_false]; rfl) ha
  refine ⟨t, he, fun lb n hn => (hread lb n hn).trans ?_, hd⟩
  split
  · next e =>
    obtain ⟨rfl, rfl⟩ := e
    rfl
  · rfl

end

/-- Settles O36: each word by its own theorem; a word that ends a loop body by the loop's frame. -/
theorem registerWordsCompute : Obligations.RegisterWordsCompute := by
  intro dt k w s x pc busy g gIs
  refine ⟨routeNop_next dt, fun f fs hi hw hlt hop hl hlast => ⟨?_, ?_⟩, setg_next dt, ?_, ?_,
    fun h => ⟨loop_skips dt h, loop_begins dt h⟩, ldg_next dt, stg_next dt⟩
  · exact routeNop_next_pass hi hw hlt hop dt hl hlast
  · exact routeNop_last_pass hi hw hlt hop dt hl hlast
  · intro h a b fn res hfn hmod
    obtain ⟨n, hn, hres⟩ := aluFn_mod a b hfn
    obtain ⟨t, he, hreg, hd⟩ := alu_next dt h hmod hn
    exact ⟨t, he, regWritten_congr hreg hres, hd⟩
  · intro h a b holds hcmp
    have hlt : wf w 26 24 < 8 := bitsOf_lt w 24 3
    exact br_next dt h rfl (brHolds_some a b (by omega))

end Sys2Proof.Machine
end

section
/-! The commands of paths C and M (R362, R363, R365): each is its own effect behind one admission. -/
namespace Sys2Proof.Machine

section
variable {c : Instr} {dt : Nat} {h : CmdHdr} {p : List Word} {m : Bool} {op : Nat} {ms : List Nat} {s : State}

/-- Every command is an effect behind the admission of its path. -/
theorem exec_commandOf (hc : commandOf c = some (dt, h, p, m, op, ms)) (s : State) : ∃ k : State → State,
    exec c s = .next (if m then ((s.tick dt).mcCmd h p op ms k).settle else ((s.tick dt).cmd h p op ms k).settle) := by
  cases c <;> simp only [commandOf, Option.some.injEq, Prod.mk.injEq, reduceCtorEq] at hc
  all_goals
    obtain ⟨rfl, rfl, rfl, rfl, rfl, rfl⟩ := hc
    exact ⟨_, rfl⟩

/-! ## The MC takes a command -/

theorem fifoStat_keeps (s : State) : s.keeps s.fifoStat [(.CMD_STAT, 0, 0)] :=
  keeps_setFld_setFld (f := F.CMD_STAT_MC_FIFO) (g := F.CMD_STAT_PAUSED) s _ _ rfl ⟨Nat.one_pos, Nat.one_pos⟩

theorem taken_keeps (s : State) (dt : Nat) (h : CmdHdr) (p : List Word) : s.keeps (s.taken dt h p) [(.CMD_STAT, 0, 0)] := by
  unfold State.taken State.mcTake
  dsimp only
  split
  · exact fifoStat_keeps ({ s.tick dt with mcFifo := (s.tick dt).mcFifo.drop 1 } : State)
  · exact keeps_refl s _

theorem fld_taken (s : State) (dt : Nat) (h : CmdHdr) (p : List Word) {f : Fld} {i j : Nat} (hf : regHas f.reg i j)
    (hr : f.reg ≠ .CMD_STAT) : (s.taken dt h p).fld f i j = s.fld f i j :=
  fld_of_keeps (taken_keeps s dt h p) hf (by simp [hr])

theorem flag_taken (s : State) (dt : Nat) (h : CmdHdr) (p : List Word) {f : Fld} {i j : Nat} (hf : regHas f.reg i j)
    (hr : f.reg ≠ .CMD_STAT) : (s.taken dt h p).flag f i j = s.flag f i j := flag_congr (fld_taken s dt h p hf hr)

theorem mcUp_congr {s t : State} (hd : t.reg .PWR_DOM 1 = s.reg .PWR_DOM 1) (hm : t.reg .MC_STAT = s.reg .MC_STAT) : t.mcUp = s.mcUp := by
  have hfld (f : Fld) (hf : f.reg = .MC_STAT) : t.fld f = s.fld f := by rw [State.fld, State.fld, hf, hm]
  have hpair (q : Nat) : t.pairSt q = s.pairSt q := by
    rw [State.pairSt, State.pairSt]
    split <;> exact hfld _ rfl
  have hdom : t.fld F.PWR_DOM_STATE 1 = s.fld F.PWR_DOM_STATE 1 := congrArg (bitsOf · _ _) hd
  rw [State.mcUp, State.mcUp, hfld F.MC_STAT_ACTIVE rfl, hpair, State.domOn, State.domOn, hdom]

theorem mcUp_taken (s : State) (dt : Nat) (h : CmdHdr) (p : List Word) : (s.taken dt h p).mcUp = s.mcUp :=
  mcUp_congr (taken_keeps s dt h p _ _ _ ⟨by decide, by decide⟩ (by simp)) (taken_keeps s dt h p _ _ _ ⟨by decide, by decide⟩ (by simp))

theorem admitCode_congr {s t : State} (hr : t.flag F.MC_STAT_RECOVERY = s.flag F.MC_STAT_RECOVERY) (h : CmdHdr) (p : List Word) (op : Nat)
    (ms : List Nat) : t.admitCode h p op ms = s.admitCode h p op ms := by
  simp only [State.admitCode, hr]

theorem admitCode_taken (s : State) (dt : Nat) (h : CmdHdr) (p : List Word) (op : Nat) (ms : List Nat) :
    (s.taken dt h p).admitCode h p op ms = s.admitCode h p op ms :=
  admitCode_congr (flag_taken s dt h p ⟨by decide, by decide⟩ nofun) ..

/-- Where the MC can execute, a command that it takes is refused with a code or has its effect. -/
theorem mcCmd_of_mcRuns (hm : s.mcRuns = true) (dt : Nat) (h : CmdHdr) (p : List Word) (op : Nat) (ms : List Nat) (k : State → State) :
    (s.tick dt).mcCmd h p op ms k = match s.admitCode h p op ms with
      | some x => (s.taken dt h p).reply h x []
      | none => k (s.taken dt h p) := by
  obtain ⟨hstage, hup⟩ := Bool.and_eq_true_iff.1 hm
  have hstage : ¬ ((s.tick dt).fld F.DEV_START_STAGE < 5 ∧ !(s.tick dt).flag F.MC_STAT_RECOVERY) := by
    rintro ⟨h5, hr⟩
    rw [Bool.or_eq_true, decide_eq_true_eq] at hstage
    obtain hs | hs := hstage
    · exact absurd h5 (Nat.not_lt.2 hs)
    · rw [show (s.tick dt).flag F.MC_STAT_RECOVERY = s.flag F.MC_STAT_RECOVERY from rfl, hs] at hr
      cases hr
  have hup : ((s.tick dt).mcTake h p).mcUp = true := (mcUp_taken s dt h p).trans hup
  have hcode : ((s.tick dt).mcTake h p).admitCode h p op ms = s.admitCode h p op ms := admitCode_taken ..
  rw [State.mcCmd, if_neg hstage]
  dsimp only
  rw [hup, hcode]
  rfl

section
variable (hc : commandOf c = some (dt, h, p, true, op, ms)) (ht : s.takes c = true)
include hc ht

theorem takes_mc : s.csmQuiet = true ∧ s.admitCode h p op ms = none ∧ s.mcRuns = true := by
  simpa only [State.takes, hc, Bool.and_eq_true, Option.isNone_iff_eq_none, Bool.not_true, Bool.false_or, and_assoc] using ht

/-- A command of path M that is taken has its effect on the state in which the MC has taken it. -/
theorem mcCmd_of_takes (k : State → State) : (s.tick dt).mcCmd h p op ms k = k (s.taken dt h p) := by
  obtain ⟨-, hcode, hruns⟩ := takes_mc hc ht
  rw [mcCmd_of_mcRuns hruns, hcode]

end

/-- A refused command is answered with its code, and does nothing else (R362). -/
theorem exec_refused {code : Nat} (hc : commandOf c = some (dt, h, p, m, op, ms)) (hq : s.csmQuiet = true)
    (hm : m = true → s.mcRuns = true) (hcode : s.admitCode h p op ms = some code) :
    exec c s = .next ((if m then s.taken dt h p else s.tick dt).reply h code []) := by
  obtain ⟨k, hk⟩ := exec_commandOf hc s
  rw [hk]
  cases m with
  | true =>
    simp only [if_true, mcCmd_of_mcRuns (hm rfl), hcode]
    rw [settle_quiet _ (csmQuiet_reply _ _ _ _ (csmQuiet_taken s dt h p hq))]
  | false =>
    have hcode : (s.tick dt).admitCode h p op ms = some code := hcode
    simp only [Bool.false_eq_true, if_false, State.cmd, hcode]
    rw [settle_quiet _ (csmQuiet_reply (s.tick dt) h code [] hq)]

end

/-- Settles O14: every command stands behind the admission of its path, which answers a refused one and does nothing else. -/
theorem refusedPacketHasNoEffect : Obligations.RefusedPacketHasNoEffect :=
  fun _ _ _ _ _ _ _ _ _ hc hq hm hcode => exec_refused hc hq hm hcode

end Sys2Proof.Machine
end

section
/-! Little-endian bytes (R7) read back as the number they spell, wherever they stand among other bytes. -/
namespace Sys2Proof.Machine

@[simp] theorem length_leBytes (v n : Nat) : (leBytes v n).length = n := by
  induction n generalizing v with
  | zero => rfl
  | succ n ih => rw [leBytes, List.length_cons, ih]

theorem leNat_leBytes (v n : Nat) : leNat (leBytes v n) = v % 256 ^ n := by
  induction n generalizing v with
  | zero => rw [leBytes, leNat, Nat.pow_zero, Nat.mod_one]
  | succ n ih =>
    rw [leBytes, leNat, ih, BitVec.toNat_ofNat, Nat.pow_succ' (n := n), Nat.mod_mul (a := 256)]

/-- A number that stands after `o` bytes reads back. -/
theorem numAt_append {a : List Byte} {o : Nat} (ha : a.length = o) (v n : Nat) (c : List Byte) (hv : v < 256 ^ n) :
    numAt (a ++ (leBytes v n ++ c)) o n = v := by
  rw [numAt, slice, ← ha, List.drop_left, List.take_left' (length_leBytes v n), leNat_leBytes, Nat.mod_eq_of_lt hv]

/-- The `k`-th of numbers of `n` bytes each reads back, after `o` bytes. -/
theorem numAt_flatMap {α : Type} {a : List Byte} {o : Nat} (ha : a.length = o) (f : α → Nat) (n : Nat) (l : List α) (k : Nat)
    (hk : k < l.length) (hv : f l[k] < 256 ^ n) : numAt (a ++ l.flatMap fun x => leBytes (f x) n) (o + n * k) n = f l[k] := by
  induction l generalizing a o k with
  | nil => exact absurd hk (Nat.not_lt_zero k)
  | cons x l ih =>
    rw [List.flatMap_cons]
    cases k with
    | zero => exact numAt_append ha _ n _ hv
    | succ k =>
      have hlen : (a ++ leBytes (f x) n).length = o + n := by rw [List.length_append, ha, length_leBytes]
      rw [← List.append_assoc, show o + n * (k + 1) = o + n + n * k by ring]
      exact ih hlen k (Nat.lt_of_succ_lt_succ hk) hv

end Sys2Proof.Machine
end

section
/-! A command packet's 64 bytes (R359) decode to its header and parameters. -/
namespace Sys2Proof.Machine

/-- The numbers of a packet's bytes. -/
theorem numAt_packetBytes (h : CmdHdr) (p : List Word) (ho : h.opcode < 65536) (hf : h.flags < 256) (ht : h.tag < 256) :
    let b := packetBytes h p
    numAt b 0 2 = h.opcode ∧ numAt b 2 1 = h.flags ∧ numAt b 3 1 = h.tag ∧ numAt b 4 4 = h.seq.toNat ∧
    ∀ k, (hk : k < p.length) → numAt b (8 + 4 * k) 4 = p[k].toNat := by
  have e : packetBytes h p = leBytes h.opcode 2 ++ (leBytes h.flags 1 ++ (leBytes h.tag 1 ++ (leBytes h.seq.toNat 4 ++
      p.flatMap fun w => leBytes w.toNat 4))) := by simp only [packetBytes, List.append_assoc]
  dsimp only
  refine ⟨?_, ?_, ?_, ?_, fun k hk => numAt_flatMap (by simp) _ 4 p k hk p[k].isLt⟩
  · rw [e]; exact numAt_append (a := []) rfl h.opcode 2 _ ho
  · rw [e]; exact numAt_append (length_leBytes _ 2) h.flags 1 _ hf
  · rw [e, ← List.append_assoc]; exact numAt_append (by simp) h.tag 1 _ ht
  · rw [e, ← List.append_assoc, ← List.append_assoc]; exact numAt_append (by simp) h.seq.toNat 4 _ h.seq.isLt

/-- Settles O13: each field of the packet's bytes reads back as it was put. -/
theorem packetDecodesToItself : Obligations.PacketDecodesToItself := by
  intro h p hw
  rw [wfPkt, wfHdr] at hw
  simp only [Bool.and_eq_true, decide_eq_true_eq] at hw
  obtain ⟨⟨⟨ho, hf, ht, -⟩, -⟩, hp⟩ := hw
  obtain ⟨e0, e2, e3, e4, e8⟩ := numAt_packetBytes h p ho hf ht
  constructor
  · simp [packetBytes, hp]
  · have hps : ((List.range 14).map fun k => BitVec.ofNat 32 (numAt (packetBytes h p) (8 + 4 * k) 4)) = p := by
      refine List.ext_getElem (by simp [hp]) fun k _ hk => ?_
      rw [List.getElem_map, List.getElem_range, e8 k hk, BitVec.ofNat_toNat, BitVec.setWidth_eq]
    rw [pktOf, e0, e2, e3, e4, hps, BitVec.ofNat_toNat, BitVec.setWidth_eq]

end Sys2Proof.Machine
end

section
/-! NOP's completion entry (R356, R357, R360), and the bytes of a status reply (R360). -/
namespace Sys2Proof.Machine

/-! ## A completion entry -/

section
variable (s : State) (q : Nat) (y : Reply)

/-- The entry goes to the CQ tail, with an interrupt where IEN is set. -/
theorem entryCq_out : (s.entryCq q y).out = s.out ++
    .hostWrite (s.queueLink q) (s.fld F.CMD_CQ_BASE_ADDR q * 4096 + 32 * (s.queue q).cqTail)
      (replyBytes y (s.queue q).phase y.hdr.sqHead) false ::
    (if s.flag F.CMD_Q_CFG_IEN q then [.msix (s.queueLink q) (s.fld F.CMD_Q_CFG_VEC q)] else []) := by
  rw [State.entryCq]
  split
  · exact List.append_assoc ..
  · rfl

/-- Queue `q` with the entry at its CQ tail. -/
def State.queueWithEntry : Queue :=
  let x := s.queue q
  let wrap := decide (s.cqDepth q ≤ x.cqTail + 1)
  { x with cqTail := if wrap then 0 else x.cqTail + 1, phase := x.phase != wrap, unread := x.unread + 1 }

theorem entryCq_frame : s.entryCq q y =
    { s with out := (s.entryCq q y).out, queues := mapSet queue0 s.queues q (s.queueWithEntry q) } := by
  rw [State.entryCq]
  split <;> rfl

theorem postCq_out : (s.postCq q y).out = (s.entryCq q y).out := by
  rw [postCq_eq]
  split
  · exact cmdDone_out ..
  · rfl

end

section
variable (s : State)

theorem cmdDone_outst (q : Fin 64) : (s.cmdDone q).fld F.CMD_Q_STAT_OUTST q = s.fld F.CMD_Q_STAT_OUTST q - 1 := by
  have hlt := s.fld_lt F.CMD_Q_STAT_OUTST q 0
  rw [State.cmdDone, State.fld_setFld_other (f := F.CMD_Q_STAT_IDLE) (g := F.CMD_Q_STAT_OUTST) _ _ _ _ rfl (by decide) (by decide),
    State.fld_setFld_same _ F.CMD_Q_STAT_OUTST _ _ _ (by decide), Nat.mod_eq_of_lt (by omega)]

theorem cmdDone_idle (q : Fin 64) : (s.cmdDone q).flag F.CMD_Q_STAT_IDLE q = true ↔ s.fld F.CMD_Q_STAT_OUTST q ≤ 1 := by
  rw [State.cmdDone, flag_setFld_same _ F.CMD_Q_STAT_IDLE _ _ _ (by decide), beq_iff_eq]
  split
  · exact iff_of_true rfl (by omega)
  · exact iff_of_false (by decide) (by omega)

/-- A final reply to a queue with room writes an entry and counts the command as finished. -/
theorem reply_queue_room {h : CmdHdr} {q : Fin 64} (hs : h.src = .queue q) (hr : s.cqRoom q = true) (hd : (s.queue q).dead = false)
    (st : Nat) (w : List Nat) : s.reply h st w = ((s.ended h).entryCq q ⟨h, st, true, w⟩).cmdDone q := by
  rw [reply_eq, hs]
  dsimp only
  rw [hd, hr]
  rfl

end

/-- Settles O11: NOP's whole effect is its final reply, which is one completion entry. -/
theorem nopPostsCompletion : Obligations.NopPostsCompletion := by
  intro dt q h p s ht hs hr hd x wrap
  have hc : commandOf (.nop dt h p) = some (dt, h, p, false, 0x0100, []) := rfl
  obtain ⟨hquiet, -⟩ := takes_quiet_admitted hc ht
  have hcmd : (s.tick dt).cNop h p = (s.tick dt).reply h 0 [] := cmd_of_takes hc ht dt _
  have hexec : exec (.nop dt h p) s = .next ((s.tick dt).reply h 0 []) := by
    change Host.Outcome.next ((s.tick dt).cNop h p).settle = _
    rw [hcmd, settle_quiet _ (csmQuiet_reply (s.tick dt) h 0 [] hquiet)]
  rw [hexec, reply_queue_room (s.tick dt) hs hr hd]
  set e : State := ((s.tick dt).ended h).entryCq q ⟨h, 0, true, []⟩ with he
  have hframe : e = { s.tick dt with out := e.out, queues := mapSet queue0 s.queues q (s.queueWithEntry q),
                                     mcRun := ((s.tick dt).ended h).mcRun } := entryCq_frame ..
  have hregs : e.regs = s.regs := by rw [hframe]; rfl
  have hdone : e.cmdDone q = { e with regs := (e.cmdDone q).regs } := cmdDone_onlyRegs e q
  have hqueues : (e.cmdDone q).queues = mapSet queue0 s.queues q (s.queueWithEntry q) := by rw [hdone, hframe]
  refine ⟨_, rfl, ?_, ?_, fun k hk => ?_, ?_, ?_, ?_, ?_⟩
  · rw [cmdDone_out]
    exact entryCq_out ..
  · rw [State.queue, hqueues, mapGet_mapSet_same]
    rfl
  · rw [State.queue, hqueues, mapGet_mapSet_ne _ _ _ hk]
    rfl
  · rw [cmdDone_outst, State.fld_congr hregs]
  · rw [cmdDone_idle, State.fld_congr hregs]
  · exact keeps_trans (keeps_of_regs [] hregs) (cmdDone_keeps e q)
  · rw [hdone, hframe]

/-! ## The bytes of a status reply -/

/-- Numbers one after the other, each in as many bytes as it says. -/
def fieldBytes (fs : List (Nat × Nat)) : List Byte := fs.flatMap fun f => leBytes f.1 f.2

theorem length_fieldBytes (fs : List (Nat × Nat)) : (fieldBytes fs).length = (fs.map Prod.snd).sum := by
  simp [fieldBytes, List.length_flatMap]

/-- A number reads back after those before it. -/
theorem numAt_fieldBytes (pre : List (Nat × Nat)) (v n : Nat) (post : List (Nat × Nat)) (c : List Byte) (hv : v < 256 ^ n) :
    numAt (fieldBytes (pre ++ (v, n) :: post) ++ c) (pre.map Prod.snd).sum n = v := by
  rw [fieldBytes, List.flatMap_append, List.flatMap_cons, List.append_assoc, List.append_assoc]
  exact numAt_append (length_fieldBytes pre) v n _ hv

/-- The fields of a status reply before its result words (R360). -/
def replyFields (r : Reply) (phase : Bool) (head : Nat) : List (Nat × Nat) :=
  [(r.status, 2), (r.hdr.opcode, 2), (r.hdr.tag, 1), ((if phase then 1 else 0) + (if r.final then 2 else 0), 1), (head, 2), (r.hdr.seq.toNat, 4)]

theorem replyBytes_eq (r : Reply) (phase : Bool) (head : Nat) : replyBytes r phase head =
    fieldBytes (replyFields r phase head) ++ (List.range 5).flatMap fun k => leBytes (r.w.getD k 0) 4 := by
  simp only [replyBytes, fieldBytes, replyFields, List.flatMap_cons, List.flatMap_nil, List.append_assoc, List.append_nil]

/-- The numbers of a reply's bytes. -/
theorem numAt_replyBytes (r : Reply) (phase : Bool) (head : Nat) (hs : r.status < 2 ^ 16) (ho : r.hdr.opcode < 2 ^ 16)
    (ht : r.hdr.tag < 2 ^ 8) (hh : head < 2 ^ 16) (hw : ∀ k, r.w.getD k 0 < 2 ^ 32) :
    let b := replyBytes r phase head
    b.length = 32 ∧ numAt b 0 2 = r.status ∧ numAt b 2 2 = r.hdr.opcode ∧ numAt b 4 1 = r.hdr.tag ∧
    numAt b 5 1 = (if phase then 1 else 0) + (if r.final then 2 else 0) ∧ numAt b 6 2 = head ∧ numAt b 8 4 = r.hdr.seq.toNat ∧
    ∀ k, k < 5 → numAt b (12 + 4 * k) 4 = r.w.getD k 0 := by
  let bits : Nat := (if phase then 1 else 0) + (if r.final then 2 else 0)
  have hbits : bits < 256 ^ 1 := by cases phase <;> cases hf : r.final <;> simp [bits, hf]
  dsimp only
  rw [replyBytes_eq]
  refine ⟨by simp [length_fieldBytes, replyFields], ?_, ?_, ?_, ?_, ?_, ?_, fun k hk => ?_⟩
  · exact numAt_fieldBytes [] _ 2 _ _ hs
  · exact numAt_fieldBytes [(r.status, 2)] _ 2 _ _ ho
  · exact numAt_fieldBytes [(r.status, 2), (r.hdr.opcode, 2)] _ 1 _ _ ht
  · exact numAt_fieldBytes [(r.status, 2), (r.hdr.opcode, 2), (r.hdr.tag, 1)] _ 1 _ _ hbits
  · exact numAt_fieldBytes [(r.status, 2), (r.hdr.opcode, 2), (r.hdr.tag, 1), (bits, 1)] _ 2 _ _ hh
  · exact numAt_fieldBytes [(r.status, 2), (r.hdr.opcode, 2), (r.hdr.tag, 1), (bits, 1), (head, 2)] _ 4 [] _ r.hdr.seq.isLt
  · have hlt : k < (List.range 5).length := by rwa [List.length_range]
    have := numAt_flatMap (a := fieldBytes (replyFields r phase head)) (o := 12) (by simp [length_fieldBytes, replyFields])
      (fun k => r.w.getD k 0) 4 (List.range 5) k hlt (hw _)
    rwa [List.getElem_range] at this

end Sys2Proof.Machine
end

section
/-! The command state machine takes one waiting command (R357, R363, R369): a fetch of one entry, and the network FIFO. -/
namespace Sys2Proof.Machine

section
variable {s t : State} (h : s.onlyRegs t)
include h
theorem onlyRegs_queues : t.queues = s.queues := by rw [show t = { s with regs := t.regs } from h]
theorem onlyRegs_mcFifo : t.mcFifo = s.mcFifo := by rw [show t = { s with regs := t.regs } from h]
theorem onlyRegs_netFifo : t.netFifo = s.netFifo := by rw [show t = { s with regs := t.regs } from h]
theorem onlyRegs_netOut : t.netOut = s.netOut := by rw [show t = { s with regs := t.regs } from h]
theorem onlyRegs_origins : t.origins = s.origins := by rw [show t = { s with regs := t.regs } from h]
theorem onlyRegs_out : t.out = s.out := by rw [show t = { s with regs := t.regs } from h]
theorem onlyRegs_now : t.now = s.now := by rw [show t = { s with regs := t.regs } from h]
end

/-- A write of a key whose entry was just put there. -/
theorem mapIns_mapIns {α : Type} (k : Nat) (v y : α) (m : FMap α) : mapIns k v (mapIns k y m) = mapIns k v m := by
  induction m with
  | nil => simp [mapIns]
  | cons e m ih =>
    obtain ⟨a, x⟩ := e
    simp only [mapIns]
    split
    · simp [mapIns]
    · split
      · simp [mapIns]
      · simp only [mapIns, ih]
        split <;> simp_all

theorem mapDel_mapIns {α : Type} (k : Nat) (y : α) (m : FMap α) : mapDel k (mapIns k y m) = mapDel k m := by
  induction m with
  | nil => simp [mapIns, mapDel]
  | cons e m ih =>
    obtain ⟨a, x⟩ := e
    simp only [mapIns]
    split
    · simp [mapDel]
    · split
      · simp_all [mapDel]
      · simp only [mapDel, ih]

theorem mapSet_mapIns {α : Type} [DecidableEq α] (d : α) (k : Nat) (v y : α) (m : FMap α) :
    mapSet d (mapIns k y m) k v = mapSet d m k v := by
  rw [mapSet, mapSet, mapDel_mapIns, mapIns_mapIns]

theorem foldl_settleQ_none (l : FMap Queue) (u : State) (hl : noneWaits l = true) :
    l.foldl (fun s q => s.settleQ q.1 q.2.waiting.length) u = u := by
  induction l generalizing u with
  | nil => rfl
  | cons e l ih =>
    obtain ⟨he, hl⟩ := Bool.and_eq_true_iff.1 hl
    rw [List.foldl_cons, List.isEmpty_iff.1 he]
    exact ih u hl

/-- Where nothing but one queue waits, the CSM looks at that queue alone. -/
theorem foldl_settleQ_mapIns (m : FMap Queue) (k : Nat) (y : Queue) (s : State) (h : noneWaits m = true) :
    (mapIns k y m).foldl (fun s q => s.settleQ q.1 q.2.waiting.length) s = s.settleQ k y.waiting.length := by
  induction m generalizing s with
  | nil => rfl
  | cons e m ih =>
    obtain ⟨a, x⟩ := e
    obtain ⟨he, hm⟩ := Bool.and_eq_true_iff.1 h
    have hx : x.waiting = [] := List.isEmpty_iff.1 he
    simp only [mapIns]
    split
    · rw [List.foldl_cons]
      exact foldl_settleQ_none _ _ h
    · split
      · rw [List.foldl_cons]
        exact foldl_settleQ_none _ _ hm
      · rw [List.foldl_cons, hx]
        exact ih s hm

/-- The CSM takes the one command that waits. -/
theorem settle_one {v : State} {q : Nat} {y : Queue} {m : FMap Queue} {x : CmdPkt} (hv : v.queues = mapIns q y m) (hm : noneWaits m = true)
    (hy : y.waiting = [x]) (hf : x.hdr.flags % 2 = 0) (hfull : v.fifoFull x = false)
    (hnet : ((v.setQueue q { y with waiting := [] }).csmStart x).netFifo = []) :
    v.settle = (v.setQueue q { y with waiting := [] }).csmStart x := by
  have hvy : v.queue q = y := by rw [State.queue, hv, mapGet_mapIns, if_pos rfl]
  have hone : v.settleQ q 1 = (v.setQueue q { y with waiting := [] }).csmStart x := by
    rw [State.settleQ, hvy]
    simp [hy, hf, hfull, State.settleQ]
  have hfold : v.queues.foldl (fun s q => s.settleQ q.1 q.2.waiting.length) v = (v.setQueue q { y with waiting := [] }).csmStart x := by
    rw [hv, foldl_settleQ_mapIns _ _ _ _ hm, hy]
    exact hone
  rw [State.settle, hfold]
  exact settleNet_empty _ _ hnet

theorem setQueue_setQueue (u : State) (q : Nat) {y : Queue} (x : Queue) (hy : y ≠ queue0) :
    (u.setQueue q y).setQueue q x = u.setQueue q x := by
  have hq : (u.setQueue q y).queues = mapIns q y u.queues := if_neg hy
  rw [State.setQueue, hq, mapSet_mapIns]
  rfl

theorem settleNet_nil (s : State) (h : s.netFifo = []) : s.settleNet s.netFifo.length = s := settleNet_empty s _ h

/-- A command of the MC is passed to it where a pair can take it (R363). -/
theorem csmStart_mc (s : State) (x : CmdPkt) (hop : mOps.contains x.hdr.opcode = true) (hup : s.mcUp = true) :
    s.csmStart x = ({ s with mcFifo := s.mcFifo ++ [x] } : State).fifoStat := by
  rw [State.csmStart, if_pos hop, hup]
  simp

theorem fifoStat_onlyRegs (s : State) : s.onlyRegs s.fifoStat := onlyRegs_setFld_setFld ..

/-! ## A fetch of one entry -/

/-- A fetch of one entry of queue `q` counted (R357). -/
def State.fetchedOne (s : State) (q : Nat) : State :=
  ((s.setFld F.CMD_Q_STAT_SQ_HEAD ((s.fld F.CMD_Q_STAT_SQ_HEAD q + 1) % s.sqDepth q) q).setFld F.CMD_Q_STAT_OUTST
    (s.fld F.CMD_Q_STAT_OUTST q + 1) q).setFld F.CMD_Q_STAT_IDLE 0 q

section
variable (s : State) (q : Fin 64)

theorem fetchedOne_keeps : s.keeps (s.fetchedOne q) [(.CMD_Q_STAT, q.val, 0)] :=
  keeps_mono (keeps_trans (keeps_setFld_setFld (f := F.CMD_Q_STAT_SQ_HEAD) (g := F.CMD_Q_STAT_OUTST) s _ _ rfl ⟨q.isLt, Nat.one_pos⟩)
    (keeps_setFld _ F.CMD_Q_STAT_IDLE _ ⟨q.isLt, Nat.one_pos⟩)) (by simp)

theorem fetchedOne_onlyRegs : s.onlyRegs (s.fetchedOne q) := onlyRegs_trans (onlyRegs_setFld_setFld ..) (onlyRegs_setFld ..)

theorem fetchedOne_head : (s.fetchedOne q).fld F.CMD_Q_STAT_SQ_HEAD q = (s.fld F.CMD_Q_STAT_SQ_HEAD q + 1) % s.sqDepth q % 2 ^ 12 := by
  rw [State.fetchedOne, State.fld_setFld_other (f := F.CMD_Q_STAT_IDLE) (g := F.CMD_Q_STAT_SQ_HEAD) _ _ _ _ rfl (by decide) (by decide),
    State.fld_setFld_other (f := F.CMD_Q_STAT_OUTST) (g := F.CMD_Q_STAT_SQ_HEAD) _ _ _ _ rfl (by decide) (by decide),
    State.fld_setFld_same _ F.CMD_Q_STAT_SQ_HEAD _ _ _ (by decide)]

theorem fetchedOne_outst (h : s.fld F.CMD_Q_STAT_OUTST q < 256) :
    (s.fetchedOne q).fld F.CMD_Q_STAT_OUTST q = s.fld F.CMD_Q_STAT_OUTST q + 1 := by
  rw [State.fetchedOne, State.fld_setFld_other (f := F.CMD_Q_STAT_IDLE) (g := F.CMD_Q_STAT_OUTST) _ _ _ _ rfl (by decide) (by decide),
    State.fld_setFld_same _ F.CMD_Q_STAT_OUTST _ _ _ (by decide)]
  exact Nat.mod_eq_of_lt (show _ < 512 by omega)

theorem fetchedOne_idle : (s.fetchedOne q).flag F.CMD_Q_STAT_IDLE q = false := by
  rw [State.fetchedOne, flag_setFld_same _ F.CMD_Q_STAT_IDLE _ _ _ (by decide)]
  rfl

variable {s q}

/-- Where a fetch may bring an entry, the MC FIFO has room, and fewer than 256 commands are outstanding. -/
theorem room_of_fetchMay (h : 1 ≤ s.fetchMay q) : s.mcFifo.length < 256 ∧ s.fld F.CMD_Q_STAT_OUTST q < 256 := by
  unfold State.fetchMay at h
  dsimp only at h
  split at h
  · exact absurd h (by decide)
  · rename_i hn
    simp only [not_or, not_le] at hn
    omega

theorem mcUp_of_keeps {s t : State} {l : List (Reg × Nat × Nat)} (h : s.keeps t l) (hd : (Reg.PWR_DOM, 1, 0) ∉ l)
    (hm : (Reg.MC_STAT, 0, 0) ∉ l) : t.mcUp = s.mcUp :=
  mcUp_congr (h _ _ _ ⟨by decide, by decide⟩ hd) (h _ _ _ ⟨by decide, by decide⟩ hm)

/-- The fetched command alone waits, and the CSM passes it on. -/
theorem settle_fetched {u : State} {y : Queue} (x : CmdPkt) (hu : s.onlyRegs u) (hk : s.keeps u [(.CMD_Q_STAT, q.val, 0)])
    (hq : s.csmQuiet = true) (hup : s.mcUp = true) (hroom : s.mcFifo.length < 256)
    (hop : mOps.contains x.hdr.opcode = true) (hf : x.hdr.flags % 2 = 0) (hy : y = { s.queue q with waiting := [x] }) :
    (u.setQueue q y).settle = ({ u.setQueue q (s.queue q) with mcFifo := s.mcFifo ++ [x] } : State).fifoStat := by
  obtain ⟨hnone, hnet⟩ := Bool.and_eq_true_iff.1 ((csmQuiet_eq s).symm.trans hq)
  have hy0 : y ≠ queue0 := by
    rintro rfl
    exact List.cons_ne_nil x [] (congrArg Queue.waiting hy).symm
  have hback : { y with waiting := [] } = s.queue q := by
    rw [hy, ← queue_waiting s q hq]
  have huq : (u.setQueue q y).queues = mapIns q y s.queues := by
    rw [← onlyRegs_queues hu]
    exact if_neg hy0
  have hfull : (u.setQueue q y).fifoFull x = false := by
    rw [State.fifoFull, hop, Bool.true_and, decide_eq_false_iff_not]
    exact Nat.not_le.2 (by rw [← onlyRegs_mcFifo hu] at hroom; exact hroom)
  have hstart : (u.setQueue q (s.queue q)).csmStart x = ({ u.setQueue q (s.queue q) with mcFifo := s.mcFifo ++ [x] } : State).fifoStat := by
    have hkq : s.keeps (u.setQueue q (s.queue q)) [(.CMD_Q_STAT, q.val, 0)] := hk
    rw [csmStart_mc _ _ hop ((mcUp_of_keeps hkq (by simp) (by simp)).trans hup), ← onlyRegs_mcFifo hu,
      show (u.setQueue q (s.queue q)).mcFifo = u.mcFifo from rfl]
  rw [settle_one huq hnone (by rw [hy]) hf hfull, hback, setQueue_setQueue _ _ _ hy0, hstart]
  rw [hback, setQueue_setQueue _ _ _ hy0, hstart]
  rw [onlyRegs_netFifo (fifoStat_onlyRegs _)]
  exact (onlyRegs_netFifo hu).trans (List.isEmpty_iff.1 hnet)
end

end Sys2Proof.Machine
end

section
/-! A fetch of one entry of a queue (R357, R359, R363), and the SQ head of its reply (R360). -/
namespace Sys2Proof.Machine

/-- The state that a fetch of one command of the MC leaves, with `l` in the MC's FIFO. -/
def State.afterFetch (s : State) (dt : Nat) (q : Fin 64) (l : List CmdPkt) : State :=
  ({ ((s.tick dt).fetchedOne q).setQueue q (s.queue q) with mcFifo := l } : State).fifoStat

section
variable (dt : Nat) (q : Fin 64) {b : List Byte} {s : State} (hm : 1 ≤ s.fetchMay q)
include hm

/-- The packet in the one entry fetched, with the SQ head after the fetch. -/
theorem exec_fetchOne (hb : b.length = 64) (hq : s.csmQuiet = true) : exec (.sqFetchComplete dt q (.bytes b)) s =
    .next ((((s.tick dt).fetchedOne q).setQueue q { s.queue q with
      waiting := [pktOf (.queue q) ((s.fld F.CMD_Q_STAT_SQ_HEAD q + 1) % s.sqDepth q) b] }).settle) := by
  have hm0 : (s.tick dt).fetchMay q ≠ 0 := Nat.one_le_iff_ne_zero.1 hm
  have hn : min ((s.tick dt).fetchMay q) (b.length / 64) = 1 := by
    rw [hb]
    exact Nat.min_eq_right hm
  have htake : (b.drop (64 * 0)).take 64 = b := List.take_of_length_le hb.le
  have hwait : (s.queue q).waiting = [] := queue_waiting s q hq
  change execSqFetchComplete dt q (.bytes b) s = _
  unfold execSqFetchComplete
  dsimp only
  rw [if_neg hm0, hn]
  simp only [Nat.one_ne_zero, if_false, List.range_one, List.map_cons, List.map_nil, htake, Fin.ofNat_val_eq_self]
  change Host.Outcome.next ((((s.tick dt).fetchedOne q).setQueue q { s.queue q with
      waiting := (s.queue q).waiting ++ [pktOf (.queue q) ((s.fld F.CMD_Q_STAT_SQ_HEAD q + 1) % s.sqDepth q) b] }).settle) = _
  rw [hwait, List.nil_append]

theorem exec_fetchError : exec (.sqFetchComplete dt q .error) s = .next ((s.tick dt).setFld F.CMD_Q_STAT_FETCH_ERR 1 q) :=
  if_neg (Nat.one_le_iff_ne_zero.1 hm)

/-- A fetched command of the MC is counted and goes to the MC's FIFO. -/
theorem exec_fetchMc (hb : b.length = 64) (hq : s.csmQuiet = true) (hup : s.mcUp = true) {x : CmdPkt}
    (hx : x = pktOf (.queue q) ((s.fld F.CMD_Q_STAT_SQ_HEAD q + 1) % s.sqDepth q) b)
    (hop : mOps.contains x.hdr.opcode = true) (hf : x.hdr.flags % 2 = 0) : exec (.sqFetchComplete dt q (.bytes b)) s =
    .next (s.afterFetch dt q (s.mcFifo ++ [x])) := by
  rw [exec_fetchOne dt q hm hb hq, ← hx]
  exact congrArg _ (settle_fetched (s := s.tick dt) x (fetchedOne_onlyRegs _ q) (fetchedOne_keeps _ q) hq hup
    (room_of_fetchMay hm).1 hop hf rfl)

end

section
variable (s : State) (dt : Nat) (q : Fin 64) (l : List CmdPkt)

theorem withFifo_regs (u : State) (y : Queue) : ({ u.setQueue q y with mcFifo := l } : State).regs = u.regs := rfl

theorem afterFetch_mcFifo : (s.afterFetch dt q l).mcFifo = l := onlyRegs_mcFifo (fifoStat_onlyRegs _)

theorem afterFetch_keeps : s.keeps (s.afterFetch dt q l) [(.CMD_Q_STAT, q.val, 0), (.CMD_STAT, 0, 0)] := by
  have hf : s.keeps ((s.tick dt).fetchedOne q) [(.CMD_Q_STAT, q.val, 0)] := keeps_of_tick (fetchedOne_keeps (s.tick dt) q)
  exact keeps_trans (keeps_congr (t := { ((s.tick dt).fetchedOne q).setQueue q (s.queue q) with mcFifo := l }) (withFifo_regs ..) hf) (fifoStat_keeps _)

theorem fld_fifoStat (u : State) {f : Fld} {i j : Nat} (hf : regHas f.reg i j) (hr : f.reg ≠ .CMD_STAT) :
    u.fifoStat.fld f i j = u.fld f i j := fld_of_keeps (fifoStat_keeps u) hf (by simp [hr])

theorem afterFetch_fld (f : Fld) (hf : f.reg = .CMD_Q_STAT) :
    (s.afterFetch dt q l).fld f q = ((s.tick dt).fetchedOne q).fld f q :=
  (fld_fifoStat _ (hf ▸ ⟨q.isLt, Nat.one_pos⟩) (by rw [hf]; nofun)).trans (State.fld_congr (withFifo_regs ..) ..)

theorem afterFetch_head : (s.afterFetch dt q l).fld F.CMD_Q_STAT_SQ_HEAD q = (s.fld F.CMD_Q_STAT_SQ_HEAD q + 1) % s.sqDepth q % 2 ^ 12 := by
  rw [afterFetch_fld _ _ _ _ _ rfl, fetchedOne_head]
  rfl

theorem queuedFifo_frame {s u : State} (hu : s.onlyRegs u) (q : Nat) (y : Queue) (l : List CmdPkt) :
    let t := ({ u.setQueue q y with mcFifo := l } : State).fifoStat
    t = { s with regs := t.regs, queues := mapSet queue0 s.queues q y, mcFifo := l } := by
  have ht := fifoStat_onlyRegs ({ u.setQueue q y with mcFifo := l } : State)
  rw [State.onlyRegs] at ht hu
  dsimp only
  rw [ht]
  generalize ({ u.setQueue q y with mcFifo := l } : State).fifoStat.regs = r
  rw [hu]
  rfl

theorem afterFetch_frame : s.afterFetch dt q l =
    { s.tick dt with regs := (s.afterFetch dt q l).regs, queues := mapSet queue0 s.queues q (s.queue q), mcFifo := l } :=
  queuedFifo_frame (fetchedOne_onlyRegs (s.tick dt) q) q _ l

theorem afterFetch_quiet (hq : s.csmQuiet = true) : (s.afterFetch dt q l).csmQuiet = true :=
  (csmQuiet_congr (s := s.setQueue q (s.queue q)) (by rw [afterFetch_frame]; rfl) (by rw [afterFetch_frame]; rfl)).trans
    (csmQuiet_setQueue s q _ hq (queue_waiting s q hq))

theorem afterFetch_outst (h : s.fld F.CMD_Q_STAT_OUTST q < 256) :
    (s.afterFetch dt q l).fld F.CMD_Q_STAT_OUTST q = s.fld F.CMD_Q_STAT_OUTST q + 1 :=
  (afterFetch_fld _ _ _ _ _ rfl).trans (fetchedOne_outst (s.tick dt) q h)

theorem afterFetch_idle : (s.afterFetch dt q l).flag F.CMD_Q_STAT_IDLE q = false :=
  (flag_congr (s := (s.tick dt).fetchedOne q) (afterFetch_fld s dt q l F.CMD_Q_STAT_IDLE rfl)).trans (fetchedOne_idle ..)

/-- Settles O12: the reply's bytes are its fields in order, and each way of sending it says which SQ head it carries. -/
theorem replyBytesHoldFields : Obligations.ReplyBytesHoldFields := by
  refine ⟨numAt_replyBytes, ?_, fun q r s => ⟨_, _, (postCq_out ..).trans (entryCq_out ..)⟩, fun k o ip port r s => ⟨_, _, rfl⟩⟩
  intro dt q b s hq hup hm hb x hop hf
  exact ⟨_, x, exec_fetchMc dt q hm hb hq hup rfl hop hf, afterFetch_mcFifo .., rfl, rfl, (afterFetch_head ..).symm⟩
end

end Sys2Proof.Machine
end

section
/-! A command datagram that passes its checks (R367 to R370): its SEQ is taken, and its command goes to the MC or is refused. -/
namespace Sys2Proof.Machine

section
variable {s t : State} (h : s.onlyReplies t)
include h
theorem onlyReplies_origins : t.origins = s.origins := by rw [h]
theorem onlyReplies_mcFifo : t.mcFifo = s.mcFifo := by rw [h]
theorem onlyReplies_netFifo : t.netFifo = s.netFifo := by rw [h]
end

/-! ## SEQ -/

/-- `t` differs from `s` in the tables of SEQ and in the census alone. -/
def State.onlySources (s t : State) : Prop := t = { s with origins := t.origins, ksFlash := t.ksFlash, plbs := t.plbs }

section
variable {s t : State} (h : s.onlySources t)
include h
theorem onlySources_regs : t.regs = s.regs := by rw [h]
theorem onlySources_out : t.out = s.out := by rw [h]
theorem onlySources_queues : t.queues = s.queues := by rw [h]
theorem onlySources_keys : t.keys = s.keys := by rw [h]
theorem onlySources_keyMask : t.keyMask = s.keyMask := by rw [h]
theorem onlySources_freeCtr : t.freeCtr = s.freeCtr := by rw [h]
theorem onlySources_twoByEight : t.twoByEight = s.twoByEight := by rw [h]
theorem onlySources_netFifo : t.netFifo = s.netFifo := by rw [h]
theorem onlySources_netOut : t.netOut = s.netOut := by rw [h]
theorem onlySources_mcFifo : t.mcFifo = s.mcFifo := by rw [h]
theorem onlySources_depot : t.depot = s.depot := by rw [h]
theorem onlySources_hbm : t.hbm = s.hbm := by rw [h]
theorem onlySources_memory : s.sameMemory t := sameMemory_of_stores (by rw [h]) (by rw [h])
end

theorem lastSeq_congr {s t : State} (h : t.origins = s.origins) (k o : Nat) : t.lastSeq k o = s.lastSeq k o := by
  rw [State.lastSeq, State.lastSeq, h]

theorem find?_map_replace (l : List (Nat × Nat)) (o q : Nat) (h : l.any (fun e => e.1 == o) = true) :
    ((l.map fun e => if e.1 = o then (o, q) else e).find? fun e => e.1 == o) = some (o, q) := by
  induction l with
  | nil => cases h
  | cons e l ih =>
    rw [List.map_cons, List.find?_cons]
    by_cases he : e.1 = o
    · simp [he]
    · have hl : l.any (fun e => e.1 == o) = true := by simpa [he] using h
      rw [if_neg he, beq_eq_false_iff_ne.2 he]
      exact ih hl

theorem find?_append_new (l : List (Nat × Nat)) (o q : Nat) (h : ¬ l.any (fun e => e.1 == o) = true) :
    ((l ++ [(o, q)]).find? fun e => e.1 == o) = some (o, q) := by
  have hnone : (l.find? fun e => e.1 == o) = none :=
    List.find?_eq_none.2 fun e he hb => h (List.any_eq_true.2 ⟨e, he, hb⟩)
  rw [List.find?_append, hnone]
  simp

section
variable (s : State) (k o q : Nat)

theorem seqTake_lastSeq : (s.seqTake k o q).lastSeq k o = some q := by
  have hnew : mapGet [] (s.seqTake k o q).origins k =
      if (mapGet [] s.origins k).any (fun e => e.1 == o) then (mapGet [] s.origins k).map fun e => if e.1 = o then (o, q) else e
      else mapGet [] s.origins k ++ [(o, q)] := by
    unfold State.seqTake
    dsimp only
    split <;> exact mapGet_mapSet_same ..
  rw [State.lastSeq, hnew]
  split
  · rename_i h
    rw [find?_map_replace _ _ _ h]
    rfl
  · rename_i h
    rw [find?_append_new _ _ _ h]
    rfl

theorem seqTake_onlySources : s.onlySources (s.seqTake k o q) := by
  unfold State.seqTake
  dsimp only
  split <;> rfl

theorem censusFlag_onlySources (p mac : Nat) (f : Census → Census) : s.onlySources (s.censusFlag p mac f) := by
  unfold State.censusFlag
  split <;> rfl

theorem censusFlag_origins (p mac : Nat) (f : Census → Census) : (s.censusFlag p mac f).origins = s.origins := by
  unfold State.censusFlag
  split <;> rfl

/-- A datagram that passes its checks marks its station as one that has passed, beside its SEQ. -/
def State.dgramPassed (p mac : Nat) : State := (s.seqTake k o q).censusFlag p mac fun e => { e with auth := true }

theorem dgramPassed_onlySources (p mac : Nat) : s.onlySources (s.dgramPassed k o q p mac) := by
  have h1 := seqTake_onlySources s k o q
  have h2 := censusFlag_onlySources (s.seqTake k o q) p mac fun e => { e with auth := true }
  rw [State.onlySources] at h1 h2 ⊢
  rw [State.dgramPassed, h2, h1]

theorem dgramPassed_lastSeq (p mac : Nat) : (s.dgramPassed k o q p mac).lastSeq k o = some q :=
  (lastSeq_congr (censusFlag_origins ..) k o).trans (seqTake_lastSeq s k o q)

end

theorem dgramPassed_classOk {s v : State} (hon : s.onlySources v) (k c : Nat) : v.classOk k c = s.classOk k c := by
  rw [State.classOk, State.classOk, onlySources_keyMask hon]

/-! ## The network FIFO -/

section
variable (s : State) (x : CmdPkt)

/-- A command waits in the network FIFO. -/
def State.netQueued : State := { s with netFifo := s.netFifo ++ [x] }
/-- A command of the network counts as started. -/
def State.netCounted : State := { s with netOut := s.netOut + 1 }
/-- A command of the network counts as started, and none waits. -/
def State.netStarted : State := { s with netFifo := [], netOut := s.netOut + 1 }
/-- A command waits for the MC. -/
def State.mcQueued : State := { s with mcFifo := s.mcFifo ++ [x] }

theorem fifoStat_of_csmStart (hop : mOps.contains x.hdr.opcode = true) (hup : s.mcUp = true) : s.csmStart x = (s.mcQueued x).fifoStat :=
  csmStart_mc s x hop hup

variable {s x}

/-- The CSM takes the one command of the network FIFO. -/
theorem settle_netQueued (hq : s.csmQuiet = true) (hf : x.hdr.flags % 2 = 0) (hfull : s.fifoFull x = false) :
    (s.netQueued x).settle = s.netStarted.csmStart x := by
  obtain ⟨hnone, hnet⟩ := Bool.and_eq_true_iff.1 ((csmQuiet_eq s).symm.trans hq)
  have hv : (s.netQueued x).netFifo = [x] := congrArg (· ++ [x]) (List.isEmpty_iff.1 hnet)
  have hfold : (s.netQueued x).queues.foldl (fun s q => s.settleQ q.1 q.2.waiting.length) (s.netQueued x) = s.netQueued x :=
    foldl_settleQ_none _ _ hnone
  have hfull : (s.netQueued x).fifoFull x = false := hfull
  have hone : (s.netQueued x).settleNet 1 = s.netStarted.csmStart x := by
    rw [State.settleNet, hv]
    simp only [hf, Nat.zero_ne_one, false_and, hfull, Bool.false_eq_true, or_self, if_false, State.settleNet]
    rfl
  rw [State.settle, hfold, hv]
  exact hone

end

/-! ## The command -/

section
variable {s : State} {p : Fin 6} {mac sport : Nat} {src : Word} {b : List Byte} {x : CmdPkt}
  (hgood : s.dgramBad b 88 0x5A4C true 12 0 = none)
  (hx : x = pktOf (.net (Fin.ofNat 8 (numAt b 3 1 % 8)) (BitVec.ofNat 32 (numAt b 4 4)) src sport) 0 (slice b 8 64))
include hgood hx

theorem cmdDgram_of_good {v : State} (hv : v = s.dgramPassed (numAt b 3 1 % 8) (numAt b 4 4) (numAt b 12 4) p mac) :
    s.cmdDgram p mac src.toNat sport b =
      if !v.classOk (numAt b 3 1 % 8) (x.hdr.opcode / 256) then v.netCounted.reply x.hdr 0x0403 []
      else if 64 ≤ v.netFifo.length then (v.netCounted.inc F.CMD_NET_STAT_BUSY).reply x.hdr 0x0205 []
      else (v.netQueued x).settle := by
  rw [hv, hx, State.cmdDgram, hgood]
  dsimp only
  rw [BitVec.ofNat_toNat, BitVec.setWidth_eq]
  rfl

variable (hq : s.csmQuiet = true)
include hq

/-- A command of a class that its key may use goes to the MC's FIFO. -/
theorem cmdDgram_accepted (hmc : s.mcUp = true) (hok : s.classOk (numAt b 3 1 % 8) (x.hdr.opcode / 256) = true)
    (hop : mOps.contains x.hdr.opcode = true) (hf : x.hdr.flags % 2 = 0) (hroom : s.mcFifo.length < 256) :
    let t := s.cmdDgram p mac src.toNat sport b
    t.mcFifo = s.mcFifo ++ [x] ∧ t.netOut = s.netOut + 1 ∧ t.lastSeq (numAt b 3 1 % 8) (numAt b 4 4) = some (numAt b 12 4) ∧
      s.keeps t [(.CMD_STAT, 0, 0)] ∧ t.out = s.out ∧ s.sameMemory t := by
  obtain ⟨v, hv⟩ : ∃ v, v = s.dgramPassed (numAt b 3 1 % 8) (numAt b 4 4) (numAt b 12 4) p mac := ⟨_, rfl⟩
  have hon : s.onlySources v := hv ▸ dgramPassed_onlySources ..
  have hseq : v.lastSeq (numAt b 3 1 % 8) (numAt b 4 4) = some (numAt b 12 4) := hv ▸ dgramPassed_lastSeq ..
  have hregs : v.regs = s.regs := onlySources_regs hon
  have hfifo : v.mcFifo = s.mcFifo := onlySources_mcFifo hon
  have hout : v.out = s.out := onlySources_out hon
  have hdepot : v.depot = s.depot := onlySources_depot hon
  have hhbm : v.hbm = s.hbm := onlySources_hbm hon
  have hvq : v.csmQuiet = true := (csmQuiet_congr (onlySources_queues hon) (onlySources_netFifo hon)).trans hq
  have hvnet : v.netFifo = [] := List.isEmpty_iff.1 (Bool.and_eq_true_iff.1 hvq).2
  have hfull : v.fifoFull x = false := by
    rw [State.fifoFull, hop, Bool.true_and, decide_eq_false_iff_not, hfifo]
    exact Nat.not_le.2 hroom
  have hup : v.netStarted.mcUp = true := (mcUp_congr (State.reg_congr hregs ..) (State.reg_congr hregs ..)).trans hmc
  have ht : s.cmdDgram p mac src.toNat sport b = (v.netStarted.mcQueued x).fifoStat := by
    rw [cmdDgram_of_good hgood hx hv, dgramPassed_classOk hon, hok, hvnet, settle_netQueued hvq hf hfull,
      fifoStat_of_csmStart _ _ hop hup]
    rfl
  have honly := fifoStat_onlyRegs (v.netStarted.mcQueued x)
  dsimp only
  rw [ht]
  refine ⟨?_, ?_, ?_, ?_, ?_, ?_⟩
  · rw [onlyRegs_mcFifo honly]
    exact congrArg (· ++ [x]) hfifo
  · rw [onlyRegs_netOut honly]
    exact congrArg (· + 1) (onlySources_netOut hon)
  · rw [← hseq]
    exact lastSeq_congr (onlyRegs_origins honly) ..
  · exact keeps_trans (keeps_of_regs [] hregs) (fifoStat_keeps (v.netStarted.mcQueued x))
  · rw [onlyRegs_out honly]
    exact hout
  · exact sameMemory_of_stores ((onlyRegs_depot honly).trans hdepot) ((onlyRegs_hbm honly).trans hhbm)

/-- A command of another class is answered SEC_CLASS. -/
theorem cmdDgram_refused (hok : s.classOk (numAt b 3 1 % 8) (x.hdr.opcode / 256) = false) :
    let t := s.cmdDgram p mac src.toNat sport b
    t.lastSeq (numAt b 3 1 % 8) (numAt b 4 4) = some (numAt b 12 4) ∧ t.mcFifo = s.mcFifo ∧ t.netFifo = [] ∧
      t.out = (s.reply x.hdr 0x0403 []).out ∧ s.sameMemory t := by
  obtain ⟨v, hv⟩ : ∃ v, v = s.dgramPassed (numAt b 3 1 % 8) (numAt b 4 4) (numAt b 12 4) p mac := ⟨_, rfl⟩
  have hon : s.onlySources v := hv ▸ dgramPassed_onlySources ..
  have hseq : v.lastSeq (numAt b 3 1 % 8) (numAt b 4 4) = some (numAt b 12 4) := hv ▸ dgramPassed_lastSeq ..
  have hvq : v.csmQuiet = true := (csmQuiet_congr (onlySources_queues hon) (onlySources_netFifo hon)).trans hq
  have ht : s.cmdDgram p mac src.toNat sport b = v.netCounted.reply x.hdr 0x0403 [] := by
    rw [cmdDgram_of_good hgood hx hv, dgramPassed_classOk hon, hok]
    rfl
  have hrep := reply_onlyReplies v.netCounted x.hdr 0x0403 []
  have hfifo : v.mcFifo = s.mcFifo := onlySources_mcFifo hon
  have halike : s.RepliesAlike v := repliesAlike_of_keeps (keeps_of_regs [] (onlySources_regs hon)) (by simp)
    (onlySources_out hon) (onlySources_queues hon) (onlySources_keys hon) (onlySources_freeCtr hon) (onlySources_twoByEight hon)
  have halike : s.RepliesAlike v.netCounted := ⟨halike.out, halike.queues, halike.keys, halike.freeCtr, halike.links, halike.base,
    halike.depth, halike.ien, halike.vec⟩
  have hmem := onlyReplies_sameMemory hrep
  dsimp only
  rw [ht]
  refine ⟨?_, ?_, ?_, halike.reply_out .., ?_⟩
  · rw [← hseq]
    exact lastSeq_congr (onlyReplies_origins hrep) ..
  · exact (onlyReplies_mcFifo hrep).trans hfifo
  · exact (onlyReplies_netFifo hrep).trans (List.isEmpty_iff.1 (Bool.and_eq_true_iff.1 hvq).2)
  · exact ⟨fun a => (hmem.1 a).trans ((onlySources_memory hon).1 a), fun a => (hmem.2 a).trans ((onlySources_memory hon).2 a)⟩
end

/-- Settles O28: a fetched command and a datagram's command come to the MC's FIFO, or are refused. -/
theorem commandsAreFetchedAndReceived : Obligations.CommandsAreFetchedAndReceived := by
  intro dt b s hq hmc
  constructor
  · intro q hm head x
    refine ⟨fun hb hop hf => ⟨_, exec_fetchMc dt q hm hb hq hmc rfl hop hf, afterFetch_mcFifo .., afterFetch_head ..,
      afterFetch_outst _ _ _ _ (room_of_fetchMay hm).2, afterFetch_idle .., afterFetch_quiet _ _ _ _ hq, afterFetch_keeps s dt q _, ?_,
      sameMemory_of_stores ?_ ?_⟩, exec_fetchError dt q hm⟩ <;> rw [afterFetch_frame] <;> rfl
  · intro p mac sport src k o x hup hquar hgood
    have hexec : exec (.commandDatagram dt p mac src sport b) s = .next ((s.tick dt).cmdDgram p mac src.toNat sport b) := by
      have hup : (s.tick dt).portUp p = true := hup
      have hquar : (s.tick dt).quarantined p mac = false := hquar
      change execCommandDatagram dt p mac src sport b s = _
      rw [execCommandDatagram, hup]
      exact if_neg (ne_true_of_eq_false hquar)
    have hgood : (s.tick dt).dgramBad b 88 0x5A4C true 12 0 = none := hgood
    refine ⟨fun hok hop hf hroom => ?_, fun hok => ?_⟩
    · obtain ⟨hfifo, hout, hseq, hkeeps, hsent, hmem⟩ := cmdDgram_accepted (p := p) (mac := mac) hgood (x := x) rfl hq hmc hok hop hf hroom
      exact ⟨_, hexec, hfifo, hout, hseq, keeps_of_tick hkeeps, hsent, hmem⟩
    · obtain ⟨hseq, hfifo, hnet, hsent, hmem⟩ := cmdDgram_refused (p := p) (mac := mac) hgood (x := x) rfl hq hok
      exact ⟨_, hexec, hseq, hfifo, hnet, hsent, hmem⟩

end Sys2Proof.Machine
end

section
/-! The reporting commands (R365): each replies with the words it reads, which the taking of the command leaves. -/
namespace Sys2Proof.Machine

section
variable {c : Instr} {dt : Nat} {h : CmdHdr} {p : List Word} {op : Nat} {ms : List Nat} {s u : State} {k : State → State}
  {st : Nat} {w : List Nat}

/-- A command of path C whose effect is a reply. -/
theorem exec_c_reply (hc : commandOf c = some (dt, h, p, false, op, ms)) (ht : s.takes c = true)
    (hk : exec c s = .next ((s.tick dt).cmd h p op ms k).settle) (hr : k (s.tick dt) = u.reply h st w) (hu : u.csmQuiet = true) :
    exec c s = .next (u.reply h st w) := by
  rw [hk, cmd_of_takes hc ht, hr, settle_quiet _ (csmQuiet_reply _ _ _ _ hu)]

/-- A command of the MC whose effect leaves nothing waiting. -/
theorem exec_mc (hc : commandOf c = some (dt, h, p, true, op, ms)) (ht : s.takes c = true)
    (hk : exec c s = .next ((s.tick dt).mcCmd h p op ms k).settle) (hr : k (s.taken dt h p) = u) (hu : u.csmQuiet = true) :
    exec c s = .next u := by
  rw [hk, mcCmd_of_takes hc ht, hr, settle_quiet _ hu]

/-- A command of the MC whose effect ends in a reply. -/
theorem exec_mc_reply (hc : commandOf c = some (dt, h, p, true, op, ms)) (ht : s.takes c = true)
    (hk : exec c s = .next ((s.tick dt).mcCmd h p op ms k).settle) (hr : k (s.taken dt h p) = u.reply h st w) (hu : u.csmQuiet = true) :
    exec c s = .next (u.reply h st w) := exec_mc hc ht hk hr (csmQuiet_reply _ _ _ _ hu)

theorem taken_quiet (hc : commandOf c = some (dt, h, p, true, op, ms)) (ht : s.takes c = true) : (s.taken dt h p).csmQuiet = true :=
  csmQuiet_taken s dt h p (takes_mc hc ht).1

end

section
variable (s : State) (dt : Nat) (h : CmdHdr) (p : List Word)

theorem reg_taken {r : Reg} {i j : Nat} (hr : regHas r i j) (hn : r ≠ .CMD_STAT) : (s.taken dt h p).reg r i j = s.reg r i j :=
  taken_keeps s dt h p r i j hr (by simp [hn])

theorem taken_banks : (s.taken dt h p).banks = s.banks := by rw [taken_frame]; rfl
theorem taken_unitBank : (s.taken dt h p).unitBank = s.unitBank := by rw [taken_frame]; rfl
theorem taken_ents : (s.taken dt h p).ents = s.ents := by rw [taken_frame]; rfl
theorem taken_conns : (s.taken dt h p).conns = s.conns := by rw [taken_frame]; rfl
theorem taken_netPeer : (s.taken dt h p).netPeer = s.netPeer := by rw [taken_frame]; rfl
theorem taken_plbs : (s.taken dt h p).plbs = s.plbs := by rw [taken_frame]; rfl
theorem taken_jcts : (s.taken dt h p).jcts = s.jcts := by rw [taken_frame]; rfl
theorem taken_running : (s.taken dt h p).running = s.running := by rw [taken_frame]; rfl
theorem taken_aonNs : (s.taken dt h p).aonNs = s.aonNs + dt := by rw [taken_frame]; rfl
theorem taken_boot : (s.taken dt h p).boot = s.boot := by rw [taken_frame]; rfl

theorem taken_bank (b : Nat) : (s.taken dt h p).bank b = s.bank b := by rw [State.bank, State.bank, taken_banks]

theorem taken_bankSt (b : Nat) : (s.taken dt h p).bankSt b = s.bankSt b := by
  rw [State.bankSt, State.bankSt, taken_bank, State.bankLive, State.bankLive, taken_unitBank, taken_ents]

theorem taken_conn (c : Nat) : (s.taken dt h p).conn c = s.conn c := by rw [State.conn, State.conn, taken_conns]

/-- NET_STATUS reads registers of ports that there are (R381). -/
theorem taken_netStatus {n : Nat} (hn : n ≤ 11) : (s.taken dt h p).netStatus n = s.netStatus n := by
  rw [State.netStatus, State.netStatus]
  split
  · rw [taken_netPeer, fld_taken _ _ _ _ (f := F.NET_STAT_STATE) ⟨‹_›, Nat.one_pos⟩ nofun, fld_taken _ _ _ _ (f := F.NET_STAT_SPEED) ⟨‹_›, Nat.one_pos⟩ nofun,
      fld_taken _ _ _ _ (f := F.NET_STAT_FEC) ⟨‹_›, Nat.one_pos⟩ nofun]
  · dsimp only
    split
    · have hb : n - 4 < 2 := by omega
      rw [taken_plbs, fld_taken _ _ _ _ (f := F.PLB_STAT_MODE) ⟨hb, Nat.one_pos⟩ nofun,
        fld_taken _ _ _ _ (f := F.PLB_CFG_NODE_ID) ⟨hb, Nat.one_pos⟩ nofun]
    · have hj : n - 8 < 4 := by omega
      rw [State.jct, State.jct, taken_jcts, fld_taken _ _ _ _ (f := F.JCT_STAT_STATE) ⟨hj, Nat.one_pos⟩ nofun,
        fld_taken _ _ _ _ (f := F.JCT_STAT_LANES) ⟨hj, Nat.one_pos⟩ nofun, fld_taken _ _ _ _ (f := F.JCT_STAT_PARTNER) ⟨hj, Nat.one_pos⟩ nofun]

/-- The temperatures of the tiles whose sensor has converted, in 0.125 °C. -/
def State.tileTemps : List Int :=
  ((List.range 1088).filter fun t => s.flag F.TILE_SENSE_VALID t).map fun t => sext (s.fld F.TILE_SENSE_TEMP t) 12

theorem mem_tileTemps {x : Int} : x ∈ s.tileTemps ↔ ∃ k < 1088, s.flag F.TILE_SENSE_VALID k = true ∧ sext (s.fld F.TILE_SENSE_TEMP k) 12 = x := by
  simp [State.tileTemps, and_assoc]

theorem tileTemps_taken : (s.taken dt h p).tileTemps = s.tileTemps := by
  have hvalid (k : Nat) (hk : k < 1088) : (s.taken dt h p).flag F.TILE_SENSE_VALID k = s.flag F.TILE_SENSE_VALID k :=
    flag_taken _ _ _ _ ⟨hk, Nat.one_pos⟩ nofun
  have htemp (k : Nat) (hk : k < 1088) : (s.taken dt h p).fld F.TILE_SENSE_TEMP k = s.fld F.TILE_SENSE_TEMP k :=
    fld_taken _ _ _ _ ⟨hk, Nat.one_pos⟩ nofun
  rw [State.tileTemps, State.tileTemps, List.filter_congr fun k hk => hvalid k (List.mem_range.1 hk)]
  exact List.map_congr_left fun k hk => by rw [htemp k (List.mem_range.1 (List.mem_of_mem_filter hk))]

/-- The hottest valid tile is the maximum of those temperatures. -/
theorem hottest_of_valid (hv : ∃ k < 1088, s.flag F.TILE_SENSE_VALID k = true) :
    ∃ hot, hot ∈ s.tileTemps ∧ (∀ x ∈ s.tileTemps, x ≤ hot) ∧ ∀ u : State, u.tileTemps = s.tileTemps → u.hottest = (u, hot) := by
  obtain ⟨k, hk, hvk⟩ := hv
  have hne : s.tileTemps ≠ [] := List.ne_nil_of_mem ((mem_tileTemps s).2 ⟨k, hk, hvk, rfl⟩)
  obtain ⟨hot, hmax⟩ : ∃ hot, s.tileTemps.max? = some hot := Option.isSome_iff_exists.1 (by simpa [List.isSome_max?_iff] using hne)
  obtain ⟨hmem, hle⟩ := List.max?_eq_some_iff.1 hmax
  refine ⟨hot, hmem, hle, fun u hu => ?_⟩
  unfold State.hottest
  rw [show ((List.range 1088).filter fun t => u.flag F.TILE_SENSE_VALID t).map (fun t => sext (u.fld F.TILE_SENSE_TEMP t) 12) = s.tileTemps from hu]
  dsimp only
  rw [hmax]

end

/-- Settles O15: each command's words are those of the state that takes it. -/
theorem reportCommandsReply : Obligations.ReportCommandsReply := by
  intro dt h p s now
  refine ⟨fun ht => ?_, fun ht => ?_, fun ht => ?_, fun ht => ?_, fun ht => ?_, fun ht => ?_, fun ht hi => ?_, fun ht h11 h6 h7 => ?_, fun mw ma ht hv => ?_⟩
  · exact exec_c_reply rfl ht rfl rfl (takes_quiet_admitted rfl ht).1
  · exact exec_c_reply rfl ht rfl rfl (takes_quiet_admitted rfl ht).1
  · exact exec_c_reply rfl ht rfl rfl (takes_quiet_admitted rfl ht).1
  · refine exec_mc_reply rfl ht rfl ?_ (taken_quiet rfl ht)
    rw [taken_running, taken_aonNs, taken_boot, reg_taken s dt h p (r := .DEV_ID) ⟨by decide, by decide⟩ nofun,
      fld_taken s dt h p (f := F.MC_STAT_SLOT) ⟨by decide, by decide⟩ nofun, fld_taken s dt h p (f := F.MC_STAT_ACTIVE) ⟨by decide, by decide⟩ nofun]
  · refine exec_mc_reply rfl ht rfl ?_ (taken_quiet rfl ht)
    dsimp only
    rw [taken_bankSt, taken_bank]
    rfl
  · have hc : pw p 0 % 16 < 16 := Nat.mod_lt _ (by decide)
    refine exec_mc_reply rfl ht rfl ?_ (taken_quiet rfl ht)
    dsimp only
    rw [taken_conn, reg_taken s dt h p (r := .ING_CONN_CFG) ⟨hc, Nat.one_pos⟩ nofun,
      reg_taken s dt h p (r := .ING_CONN_CAPS) ⟨hc, Nat.one_pos⟩ nofun, reg_taken s dt h p (r := .ING_CONN_PIXFMT) ⟨hc, Nat.one_pos⟩ nofun]
  · have hc : pw p 0 < 9 := Nat.lt_succ_of_le hi
    refine exec_mc_reply rfl ht rfl ?_ (taken_quiet rfl ht)
    dsimp only
    rw [if_neg (Nat.not_lt.2 hi), reg_taken s dt h p (r := .CAL_RES0) ⟨hc, Nat.one_pos⟩ nofun,
      reg_taken s dt h p (r := .CAL_RES1) ⟨hc, Nat.one_pos⟩ nofun, reg_taken s dt h p (r := .CAL_RES2) ⟨hc, Nat.one_pos⟩ nofun,
      reg_taken s dt h p (r := .CAL_RES3) ⟨hc, Nat.one_pos⟩ nofun]
  · refine exec_mc_reply rfl ht rfl ?_ (taken_quiet rfl ht)
    dsimp only
    rw [if_neg (by omega), taken_netStatus s dt h p h11]
  · obtain ⟨hot, hmem, hle, hhot⟩ := hottest_of_valid s hv
    refine ⟨hot, (mem_tileTemps s).1 hmem, fun k hk hvk => hle _ ((mem_tileTemps s).2 ⟨k, hk, hvk, rfl⟩), ?_⟩
    refine exec_mc_reply rfl ht rfl ?_ (taken_quiet rfl ht)
    dsimp only
    rw [hhot _ (tileTemps_taken s dt h p), reg_taken s dt h p (r := .PWR_THROT) ⟨by decide, by decide⟩ nofun]

end Sys2Proof.Machine
end

section
/-! Model packages and firmware images (R495, R497): what the MC's commands leave in the banks and slots. -/
namespace Sys2Proof.Machine

section
variable {s t : State} (h : s.onlyReplies t)
include h
theorem onlyReplies_banks : t.banks = s.banks := by rw [h]
theorem onlyReplies_fwSlots : t.fwSlots = s.fwSlots := by rw [h]
theorem onlyReplies_auth : t.auth = s.auth := by rw [h]
theorem onlyReplies_fuses : t.fuses = s.fuses := by rw [h]
theorem onlyReplies_running : t.running = s.running := by rw [h]
theorem onlyReplies_wrapKey : t.wrapKey = s.wrapKey := by rw [h]
end

section
variable (s : State) (dt : Nat) (h : CmdHdr) (p : List Word)
theorem taken_fwSlots : (s.taken dt h p).fwSlots = s.fwSlots := by rw [taken_frame]; rfl
theorem taken_auth : (s.taken dt h p).auth = s.auth := by rw [taken_frame]; rfl
theorem taken_fuses : (s.taken dt h p).fuses = s.fuses := by rw [taken_frame]; rfl
theorem taken_wrapKey : (s.taken dt h p).wrapKey = s.wrapKey := by rw [taken_frame]; rfl
theorem taken_switch : (s.taken dt h p).switch = s.switch := by rw [taken_frame]; rfl
theorem taken_sameMemory : s.sameMemory (s.taken dt h p) := sameMemory_of_stores (by rw [taken_frame]; rfl) (by rw [taken_frame]; rfl)

/-- The state in which the MC has taken a command and said that it is PENDING (R361). -/
abbrev State.takenPending : State := (s.taken dt h p).replyPending h

theorem takenPending_onlyReplies : (s.taken dt h p).onlyReplies (s.takenPending dt h p) := replyPending_onlyReplies ..

theorem takenPending_quiet (hq : s.csmQuiet = true) : (s.takenPending dt h p).csmQuiet = true :=
  csmQuiet_replyPending _ _ (csmQuiet_taken s dt h p hq)

theorem fld_takenPending {f : Fld} {i j : Nat} (hf : regHas f.reg i j) (hs : f.reg ≠ .CMD_STAT) (hq : f.reg ≠ .CMD_Q_STAT) :
    (s.takenPending dt h p).fld f i j = s.fld f i j :=
  (fld_of_keeps (replyPending_keeps (s.taken dt h p) h) hf (not_mem_replyRegs hq h i j)).trans (fld_taken s dt h p hf hs)

end

theorem takenPending_sameMemory (s : State) (dt : Nat) (h : CmdHdr) (p : List Word) : s.sameMemory (s.takenPending dt h p) :=
  sameMemory_trans (taken_sameMemory s dt h p) (onlyReplies_sameMemory (takenPending_onlyReplies s dt h p))

/-! ## Banks -/

section
variable (u : State) (k : Nat) (z : Bank)

theorem bank_setBank (j : Nat) : (u.setBank k z).bank j = if j = k then z else u.bank j := mapGet_mapSet ..

/-- A bank set with the command's reply. -/
theorem setBank_reply (h : CmdHdr) (st : Nat) (w : List Nat) : let t := (u.setBank k z).reply h st w
    t.bank k = z ∧ (∀ j, j ≠ k → t.bank j = u.bank j) ∧ t.out = (u.reply h st w).out ∧ u.sameMemory t := by
  have hrep := reply_onlyReplies (u.setBank k z) h st w
  have hbank (j : Nat) : ((u.setBank k z).reply h st w).bank j = (u.setBank k z).bank j := by
    rw [State.bank, State.bank, onlyReplies_banks hrep]
  have halike : u.RepliesAlike (u.setBank k z) := repliesAlike_of_keeps (keeps_refl u []) (by simp) rfl rfl rfl rfl rfl
  refine ⟨?_, fun j hj => ?_, halike.reply_out .., reply_sameMemory (u.setBank k z) h st w⟩
  · rw [hbank, bank_setBank, if_pos rfl]
  · rw [hbank, bank_setBank, if_neg hj]

end

section
variable {s : State} {dt : Nat} {h : CmdHdr} {p : List Word}

theorem pkgCheck_congr {s t : State} (ha : t.auth = s.auth) (hf : t.fuses = s.fuses) (hr : t.running = s.running)
    (hw : t.wrapKey = s.wrapKey) (b : List Byte) (len : Nat) (pkg : Pkg) : t.pkgCheck b len pkg = s.pkgCheck b len pkg := by
  unfold State.pkgCheck State.fwMajor
  rw [ha, hf, hr, hw]

/-- MODEL_LOAD of a package that passes (R497). -/
theorem modelLoad_passes {b : List Byte} {pkg : Pkg} {z : Bank} (ht : s.takes (.modelLoad dt h p (.bytes b) pkg) = true)
    (hst : 7 ≤ s.fld F.DEV_START_STAGE) (hl : s.bankSt (pw p 3 % 2) ≠ 2) (hz : s.pkgCheck (b.take (pw p 2)) (pw p 2) pkg = .ok z) :
    exec (.modelLoad dt h p (.bytes b) pkg) s =
      .next ((((s.takenPending dt h p).setBank (pw p 3 % 2) bank0).setBank (pw p 3 % 2) z).reply h 0 (words2 z.ident)) := by
  have hrep := takenPending_onlyReplies s dt h p
  have hcheck : ((s.takenPending dt h p).setBank (pw p 3 % 2) bank0).pkgCheck (b.take (pw p 2)) (pw p 2) pkg = .ok z := by
    rw [← hz]
    exact pkgCheck_congr ((onlyReplies_auth hrep).trans (taken_auth ..)) ((onlyReplies_fuses hrep).trans (taken_fuses ..))
      ((onlyReplies_running hrep).trans (taken_running ..)) ((onlyReplies_wrapKey hrep).trans (taken_wrapKey ..)) ..
  refine exec_mc_reply rfl ht rfl ?_ (takenPending_quiet s dt h p (takes_mc rfl ht).1)
  dsimp only
  rw [fld_taken s dt h p (f := F.DEV_START_STAGE) ⟨by decide, by decide⟩ nofun, taken_bankSt, if_neg (Nat.not_lt.2 hst), if_neg hl]
  rw [State.withBuf, hcheck]

/-- MODEL_UNLOAD of a bank that is not live. -/
theorem modelUnload_passes (ht : s.takes (.modelUnload dt h p) = true) (hl : s.bankSt (pw p 0 % 2) ≠ 2) :
    exec (.modelUnload dt h p) s = .next (((s.taken dt h p).setBank (pw p 0 % 2) bank0).reply h 0 []) := by
  refine exec_mc_reply rfl ht rfl ?_ (taken_quiet (s := s) rfl ht)
  rw [taken_bankSt, if_neg hl]

/-! ## Firmware slots -/

theorem fwSlot_setFwSlot (u : State) (k : Nat) (z : FwSlot) (j : Nat) : (u.setFwSlot k z).fwSlot j = if j = k then z else u.fwSlot j :=
  mapGet_mapSet ..

theorem takenPending_fwSlots : (s.takenPending dt h p).fwSlots = s.fwSlots :=
  (onlyReplies_fwSlots (takenPending_onlyReplies s dt h p)).trans (taken_fwSlots ..)

/-- A slot set with the command's reply. -/
theorem setFwSlot_reply (u : State) (k : Nat) (z : FwSlot) (st : Nat) (w : List Nat) : let t := (u.setFwSlot k z).reply h st w
    t.fwSlot k = z ∧ (∀ j, j ≠ k → t.fwSlot j = u.fwSlot j) ∧ t.out = (u.reply h st w).out ∧ u.sameMemory t := by
  have hrep := reply_onlyReplies (u.setFwSlot k z) h st w
  have hslot (j : Nat) : ((u.setFwSlot k z).reply h st w).fwSlot j = (u.setFwSlot k z).fwSlot j := by
    rw [State.fwSlot, State.fwSlot, onlyReplies_fwSlots hrep]
  have halike : u.RepliesAlike (u.setFwSlot k z) := repliesAlike_of_keeps (keeps_refl u []) (by simp) rfl rfl rfl rfl rfl
  refine ⟨?_, fun j hj => ?_, halike.reply_out .., reply_sameMemory (u.setFwSlot k z) h st w⟩
  · rw [hslot, fwSlot_setFwSlot, if_pos rfl]
  · rw [hslot, fwSlot_setFwSlot, if_neg hj]

theorem fwSlot_takenPending (k : Nat) : (s.takenPending dt h p).fwSlot k = s.fwSlot k := by
  rw [State.fwSlot, State.fwSlot, takenPending_fwSlots]

theorem recovery_taken : (s.taken dt h p).flag F.MC_STAT_RECOVERY = s.flag F.MC_STAT_RECOVERY :=
  flag_taken s dt h p ⟨by decide, by decide⟩ nofun

/-- UPD_WRITE of a slot that does not run stores its bytes, and the slot is no longer verified (R495). -/
theorem updWrite_stores {b : List Byte} (ht : s.takes (.updWrite dt h p (.bytes b)) = true) (hn : pw p 4 ≤ 2 ^ 20)
    (ho : pw p 1 + pw p 4 ≤ 2 ^ 21) (hk : pw p 0 ≠ s.fld F.MC_STAT_SLOT ∨ s.flag F.MC_STAT_RECOVERY = true) :
    exec (.updWrite dt h p (.bytes b)) s = .next (((s.takenPending dt h p).setFwSlot (pw p 0)
      ⟨mapPuts 0xFF (s.fwSlot (pw p 0)).bytes (pw p 1) (b.take (pw p 4)), none⟩).reply h 0 []) := by
  refine exec_mc_reply rfl ht rfl ?_ (takenPending_quiet s dt h p (takes_mc rfl ht).1)
  dsimp only
  rw [if_neg (by omega), fld_taken s dt h p (f := F.MC_STAT_SLOT) ⟨by decide, by decide⟩ nofun, recovery_taken, if_neg, State.withBuf,
    ← fwSlot_takenPending (s := s) (dt := dt) (h := h) (p := p)]
  rintro ⟨hs, hr⟩
  obtain hk | hk := hk
  · exact hk hs
  · rw [hk] at hr
    cases hr

/-- UPD_VERIFY of a slot whose image passes (R495). -/
theorem updVerify_passes {im : Image} (ht : s.takes (.updVerify dt h p) = true) (hz : s.slotCheck (pw p 0) = .ok im)
    (hv : im.dataVerMin ≤ s.running.dataVer ∨ s.flag F.MC_STAT_RECOVERY = true) :
    exec (.updVerify dt h p) s =
      .next (((s.takenPending dt h p).setFwSlot (pw p 0) { s.fwSlot (pw p 0) with ok := some im }).reply h 0 []) := by
  have hrep := takenPending_onlyReplies s dt h p
  have hfuses : (s.takenPending dt h p).fuses = s.fuses := (onlyReplies_fuses hrep).trans (taken_fuses ..)
  have hrunning : (s.takenPending dt h p).running = s.running := (onlyReplies_running hrep).trans (taken_running ..)
  have hcheck : (s.takenPending dt h p).slotCheck (pw p 0) = .ok im := by
    rw [← hz, State.slotCheck, State.slotCheck, State.slotBytes, State.slotBytes, fwSlot_takenPending, hfuses]
  have hrecovery : (s.takenPending dt h p).flag F.MC_STAT_RECOVERY = s.flag F.MC_STAT_RECOVERY :=
    flag_congr (fld_takenPending s dt h p ⟨by decide, by decide⟩ nofun nofun)
  refine exec_mc_reply rfl ht rfl ?_ (takenPending_quiet s dt h p (takes_mc rfl ht).1)
  dsimp only
  rw [hcheck]
  dsimp only
  rw [hrunning, hrecovery, fwSlot_takenPending, if_neg]
  rintro ⟨hl, hr⟩
  obtain hv | hv := hv
  · exact absurd hl (Nat.not_lt.2 hv)
  · rw [hv] at hr
    cases hr

/-! ## UPD_SWITCH -/

/-- Pair `q` loads an image, and SWITCHING says so. -/
def State.pairLoading (u : State) (q : Nat) : State := (u.setPair q 2).setFld F.MC_STAT_SWITCHING 1

/-- A switch of firmware is in progress. -/
def State.withSwitch (u : State) (z : Switch) : State := { u with switch := some z }

/-- The STANDBY pair `q` loads slot `k` (R495). -/
abbrev State.switching (u : State) (q : Nat) (z : Switch) : State := (u.pairLoading q).withSwitch z

theorem pairLoading_onlyRegs (u : State) (q : Nat) : u.onlyRegs (u.pairLoading q) := onlyRegs_setFld_setFld ..

theorem withSwitch_switch (u : State) (z : Switch) : (u.withSwitch z).switch = some z := rfl
theorem withSwitch_out (u : State) (z : Switch) : (u.withSwitch z).out = u.out := rfl
theorem withSwitch_sameMemory (u : State) (z : Switch) : u.sameMemory (u.withSwitch z) := sameMemory_of_stores rfl rfl
theorem withSwitch_quiet (u : State) (z : Switch) : (u.withSwitch z).csmQuiet = u.csmQuiet := rfl
theorem withSwitch_regs (u : State) (z : Switch) : (u.withSwitch z).regs = u.regs := rfl

theorem pairLoading_pairSt (u : State) (q : Nat) : (u.pairLoading q).pairSt q = 2 := by
  rw [State.pairSt, State.pairLoading, State.setPair]
  split
  · rw [State.fld_setFld_other (f := F.MC_STAT_SWITCHING) (g := F.MC_STAT_P0_STATE) _ _ _ _ rfl (by decide) (by decide),
      State.fld_setFld_same _ F.MC_STAT_P0_STATE _ _ _ (by decide)]
    rfl
  · rw [State.fld_setFld_other (f := F.MC_STAT_SWITCHING) (g := F.MC_STAT_P1_STATE) _ _ _ _ rfl (by decide) (by decide),
      State.fld_setFld_same _ F.MC_STAT_P1_STATE _ _ _ (by decide)]
    rfl

section
variable (u : State) (q : Nat) (z : Switch)

theorem switching_pairSt : (u.switching q z).pairSt q = 2 := by
  rw [← pairLoading_pairSt u q, State.pairSt, State.pairSt]
  exact State.fld_congr (withSwitch_regs ..) ..

theorem switching_out : (u.switching q z).out = u.out := (withSwitch_out ..).trans (onlyRegs_out (pairLoading_onlyRegs u q))

theorem switching_sameMemory : u.sameMemory (u.switching q z) :=
  sameMemory_trans (sameMemory_of_stores (onlyRegs_depot (pairLoading_onlyRegs u q)) (onlyRegs_hbm (pairLoading_onlyRegs u q)))
    (withSwitch_sameMemory ..)

theorem switching_quiet (hu : u.csmQuiet = true) : (u.switching q z).csmQuiet = true :=
  (withSwitch_quiet ..).trans ((csmQuiet_congr (onlyRegs_queues (pairLoading_onlyRegs u q)) (onlyRegs_netFifo (pairLoading_onlyRegs u q))).trans hu)

theorem switching_flag : (u.switching q z).flag F.MC_STAT_SWITCHING = true :=
  (flag_congr (s := u.pairLoading q) (State.fld_congr (withSwitch_regs ..) ..)).trans
    (flag_setFld_same (u.setPair q 2) F.MC_STAT_SWITCHING 1 0 0 (by decide))

end

/-- UPD_SWITCH of a verified slot. -/
theorem updSwitch_starts (ht : s.takes (.updSwitch dt h p) = true) (hr : s.flag F.MC_STAT_RECOVERY = false) (hsw : s.switch = none)
    (hok : (s.fwSlot (pw p 0)).ok ≠ none) (hq : s.pairSt (1 - s.fld F.MC_STAT_ACTIVE) ≠ 3) :
    exec (.updSwitch dt h p) s =
      .next ((s.takenPending dt h p).switching (1 - s.fld F.MC_STAT_ACTIVE) ⟨h, pw p 0, pwNum p 1 2, none, false⟩) := by
  have hactive : (s.taken dt h p).fld F.MC_STAT_ACTIVE = s.fld F.MC_STAT_ACTIVE := fld_taken s dt h p ⟨by decide, by decide⟩ nofun
  have hpair : (s.taken dt h p).pairSt (1 - s.fld F.MC_STAT_ACTIVE) = s.pairSt (1 - s.fld F.MC_STAT_ACTIVE) := by
    rw [State.pairSt, State.pairSt]
    split <;> exact fld_taken s dt h p ⟨by decide, by decide⟩ nofun
  have hslot : (s.taken dt h p).fwSlot (pw p 0) = s.fwSlot (pw p 0) := by rw [State.fwSlot, State.fwSlot, taken_fwSlots]
  refine exec_mc rfl ht rfl ?_ (switching_quiet _ _ _ (takenPending_quiet s dt h p (takes_mc rfl ht).1))
  dsimp only
  rw [hactive, recovery_taken, hr, taken_switch, hsw, hslot, hpair, if_neg Bool.false_ne_true, if_neg (by decide),
    if_neg (by simpa using hok), if_neg hq]
  rfl

end

/-- Settles O16: a bank or a slot is set and the reply leaves it; UPD_SWITCH starts the other pair. -/
theorem modelAndFirmwareCommands : Obligations.ModelAndFirmwareCommands := by
  intro dt h p s
  refine ⟨?_, ?_, ?_, ?_, ?_⟩
  · intro b pkg z k ht hst hl hz
    obtain ⟨hbank, hothers, hout, hmem⟩ := setBank_reply ((s.takenPending dt h p).setBank k bank0) k z h 0 (words2 z.ident)
    have hempty : (s.takenPending dt h p).RepliesAlike ((s.takenPending dt h p).setBank k bank0) :=
      repliesAlike_of_keeps (keeps_refl _ []) (by simp) rfl rfl rfl rfl rfl
    refine ⟨_, modelLoad_passes ht hst hl hz, hbank, fun j hj => ?_, hout.trans (hempty.reply_out ..),
      sameMemory_trans (takenPending_sameMemory s dt h p) hmem⟩
    rw [hothers j hj, bank_setBank, if_neg hj, State.bank, State.bank, onlyReplies_banks (takenPending_onlyReplies s dt h p), taken_banks]
  · intro ht hl
    obtain ⟨hbank, hothers, hout, hmem⟩ := setBank_reply (s.taken dt h p) (pw p 0 % 2) bank0 h 0 []
    exact ⟨_, modelUnload_passes ht hl, hbank, fun j hj => (hothers j hj).trans (taken_bank ..), hout,
      sameMemory_trans (taken_sameMemory s dt h p) hmem⟩
  · intro b k ht hn ho hk
    obtain ⟨hslot, hothers, -, hmem⟩ := setFwSlot_reply (h := h) (s.takenPending dt h p) k
      ⟨mapPuts 0xFF (s.fwSlot k).bytes (pw p 1) (b.take (pw p 4)), none⟩ 0 []
    refine ⟨_, updWrite_stores ht hn ho hk, by rw [hslot], fun i hi hp => ?_, fun a ha => ?_,
      fun j hj => (hothers j hj).trans (fwSlot_takenPending j), sameMemory_trans (takenPending_sameMemory s dt h p) hmem⟩
    · rw [hslot]
      have hlt : i < (b.take (pw p 4)).length := by rw [List.length_take]; omega
      exact (mapGet_mapPuts_in 0xFF _ _ _ i hlt).trans List.getElem_take
    · rw [hslot]
      exact mapGet_mapPuts_out 0xFF _ _ _ a (by rwa [List.length_take])
  · intro im ht hz hv
    obtain ⟨hslot, -, hout, hmem⟩ := setFwSlot_reply (h := h) (s.takenPending dt h p) (pw p 0) { s.fwSlot (pw p 0) with ok := some im } 0 []
    exact ⟨_, updVerify_passes ht hz hv, hslot, hout, sameMemory_trans (takenPending_sameMemory s dt h p) hmem⟩
  · intro ht hr hsw hok q hq
    exact ⟨_, updSwitch_starts ht hr hsw hok hq, withSwitch_switch .., switching_pairSt .., switching_flag .., switching_out ..,
      sameMemory_trans (takenPending_sameMemory s dt h p) (switching_sameMemory ..)⟩

end Sys2Proof.Machine
end

section
/-! Writes of fields of different registers, read back. -/
namespace Sys2Proof.Machine

theorem regAddr_ne_of_reg {r r' : Reg} {i j i' j' : Nat} (h : regHas r i j) (h' : regHas r' i' j') (hr : r' ≠ r) :
    regAddr r' i' j' ≠ regAddr r i j := fun e => hr (regAddr_inj h'.1 h'.2 h.1 h.2 e).1

theorem regAddr_ne_of_index {r : Reg} {i j i' j' : Nat} (h : regHas r i j) (h' : regHas r i' j') (hi : i' ≠ i) :
    regAddr r i' j' ≠ regAddr r i j := fun e => hi (regAddr_inj h'.1 h'.2 h.1 h.2 e).2.1

/-- Is a register with at least `n` indices, in one dimension. -/
def regFits (r : Reg) (n : Nat) : Bool := decide (n ≤ (regRow r).n1 ∧ 0 < (regRow r).n2)

theorem regHas_of_fits {r : Reg} {n i : Nat} (h : regFits r n = true) (hi : i < n) : regHas r i 0 := by
  obtain ⟨h1, h2⟩ := of_decide_eq_true h
  exact ⟨Nat.lt_of_lt_of_le hi h1, h2⟩

/-- Does a write of field `f` leave field `g` at the same index below `n`: another register, or other bits of the same one. -/
def Fld.apart (f g : Fld) (n : Nat) : Bool :=
  if g.reg = f.reg then decide (f.lo + f.w ≤ 64) && decide (g.lo + g.w ≤ f.lo ∨ f.lo + f.w ≤ g.lo)
  else regFits f.reg n && regFits g.reg n

/-- Are two fields of different registers, with at least `n` and `m` indices. -/
def Fld.foreign (f g : Fld) (n m : Nat) : Bool := decide (g.reg ≠ f.reg) && regFits f.reg n && regFits g.reg m

section
variable (s : State) {f g : Fld} (v : Nat) {i j i' j' n m : Nat}

/-- A field of another register after a write. -/
theorem fld_setFld_reg (hf : regHas f.reg i j) (hg : regHas g.reg i' j') (hr : g.reg ≠ f.reg) :
    (s.setFld f v i j).fld g i' j' = s.fld g i' j' := State.fld_setFld_ne s v (regAddr_ne_of_reg hf hg hr)

theorem flag_setFld_reg (hf : regHas f.reg i j) (hg : regHas g.reg i' j') (hr : g.reg ≠ f.reg) :
    (s.setFld f v i j).flag g i' j' = s.flag g i' j' := flag_congr (fld_setFld_reg s v hf hg hr)

/-- A field apart from the one written, at the same index. -/
theorem fld_setFld_at (hi : i < n) (hc : f.apart g n = true) : (s.setFld f v i).fld g i = s.fld g i := by
  unfold Fld.apart at hc
  split at hc
  · rename_i hr
    simp only [Bool.and_eq_true, decide_eq_true_eq] at hc
    exact State.fld_setFld_other s v i 0 hr hc.1 hc.2
  · rename_i hr
    obtain ⟨h1, h2⟩ := Bool.and_eq_true_iff.1 hc
    exact fld_setFld_reg s v (regHas_of_fits h1 hi) (regHas_of_fits h2 hi) hr

/-- A field of another register, at indices of their own. -/
theorem fld_setFld_foreign (hi : i < n) (hi' : i' < m) (hc : f.foreign g n m = true) : (s.setFld f v i).fld g i' = s.fld g i' := by
  simp only [Fld.foreign, Bool.and_eq_true, decide_eq_true_eq] at hc
  obtain ⟨⟨hr, h1⟩, h2⟩ := hc
  exact fld_setFld_reg s v (regHas_of_fits h1 hi) (regHas_of_fits h2 hi') hr

/-- A field of the same register at another index. -/
theorem fld_setFld_index (hi : i < n) (hi' : i' < n) (hne : i' ≠ i) (hr : g.reg = f.reg) (hc : regFits f.reg n = true) :
    (s.setFld f v i).fld g i' = s.fld g i' :=
  State.fld_setFld_ne s v (hr.symm ▸ regAddr_ne_of_index (regHas_of_fits hc hi) (regHas_of_fits hc hi') hne)

/-- A field read after its own write. -/
theorem fld_setFld_own (h : f.lo + f.w ≤ 64) : (s.setFld f v i j).fld f i j = v % 2 ^ f.w := State.fld_setFld_same s f v i j h

/-- A field read after its own write of a value that fits. -/
theorem fld_setFld_eq (h : f.lo + f.w ≤ 64) (hv : v < 2 ^ f.w) : (s.setFld f v i j).fld f i j = v :=
  (State.fld_setFld_same s f v i j h).trans (Nat.mod_eq_of_lt hv)

/-- A write of a register of the list keeps what is not in the list. -/
theorem keeps_setFld_of_keeps {t : State} {l : List (Reg × Nat × Nat)} (h : s.keeps t l) (hf : regHas f.reg i j)
    (hm : (f.reg, i, j) ∈ l) : s.keeps (t.setFld f v i j) l := by
  refine keeps_mono (keeps_trans h (keeps_setFld t f v hf)) fun x hx => ?_
  obtain hx | hx := List.mem_append.1 hx
  · exact hx
  · exact List.mem_singleton.1 hx ▸ hm

end

end Sys2Proof.Machine
end

section
/-! Reports to the host (R396, R423, R488), log marks, camera accesses and port configuration (R365, R407, R487). -/
namespace Sys2Proof.Machine

section
variable {s t : State} (h : s.onlyReplies t)
include h
theorem onlyReplies_log : t.log = s.log := by rw [h]
theorem onlyReplies_logNext : t.logNext = s.logNext := by rw [h]
end

section
variable {s : State} {dt : Nat} {h : CmdHdr} {p : List Word}

theorem taken_repair : (s.taken dt h p).repair = s.repair := by rw [taken_frame]; rfl
theorem taken_repairAt : (s.taken dt h p).repairAt = s.repairAt := by rw [taken_frame]; rfl
theorem taken_log : (s.taken dt h p).log = s.log := by rw [taken_frame]; rfl
theorem taken_logNext : (s.taken dt h p).logNext = s.logNext := by rw [taken_frame]; rfl
theorem taken_mirror : (s.taken dt h p).mirror = s.mirror := by rw [taken_frame]; rfl
theorem taken_out : (s.taken dt h p).out = s.out := by rw [taken_frame]; rfl
theorem taken_twoByEight : (s.taken dt h p).twoByEight = s.twoByEight := by rw [taken_frame]; rfl
theorem taken_cmdLink : (s.taken dt h p).cmdLink h = s.cmdLink h := by
  unfold State.cmdLink State.queueLink
  rw [taken_twoByEight]

/-- What has left the device with a record for the host does not change what waits. -/
theorem emit_quiet {u : State} (hu : u.csmQuiet = true) (o : Output) : (u.emit o).csmQuiet = true := hu

theorem svcReport_writes (ht : s.takes (.svcReport dt h p) = true) (hp : 16 ≤ pw p 2) {b : List Byte}
    (hb : b = leBytes 0x5A52 2 ++ leBytes 0 2 ++ leBytes (min ((pw p 2 - 16) / 16) s.repair.length) 4 ++ leBytes s.repairAt 8 ++
      (s.repair.take (min ((pw p 2 - 16) / 16) s.repair.length)).flatMap repairBytes) :
    exec (.svcReport dt h p) s = .next (((s.taken dt h p).emit (.hostWrite (s.cmdLink h) (pwNum p 0 2) b false)).reply h 0 [b.length]) := by
  refine exec_mc_reply rfl ht rfl ?_ (emit_quiet (taken_quiet rfl ht) _)
  dsimp only
  rw [if_neg (Nat.not_lt.2 hp), taken_repair, taken_repairAt, taken_cmdLink, ← hb]

/-! ## LOG_READ and LOG_MARK -/

theorem taken_logFrom (n : Nat) : (s.taken dt h p).logFrom n = s.logFrom n := by
  unfold State.logFrom State.logHeld
  rw [taken_log, taken_mirror, taken_logNext]

section
variable (ht : s.takes (.logRead dt h p) = true) (h64 : 64 ≤ pw p 2) (hmax : pw p 2 ≤ 65536) (hmod : pw p 2 % 64 = 0)
include ht h64 hmax hmod

theorem logRead_none (he : (s.logFrom (pw p 3)).take (pw p 2 / 32) = []) :
    exec (.logRead dt h p) s = .next ((s.taken dt h p).reply h 0 [0, pw p 3]) := by
  refine exec_mc_reply rfl ht rfl ?_ (taken_quiet rfl ht)
  dsimp only
  rw [if_neg (by omega), taken_logFrom, he]
  rfl

theorem logRead_writes {e : LogEntry} (he : ((s.logFrom (pw p 3)).take (pw p 2 / 32)).getLast? = some e) :
    exec (.logRead dt h p) s = .next (((s.taken dt h p).emit (.hostWrite (s.cmdLink h) (pwNum p 0 2)
      (((s.logFrom (pw p 3)).take (pw p 2 / 32)).flatMap logBytes) false)).reply h 0
      [((s.logFrom (pw p 3)).take (pw p 2 / 32)).length, logIndexAfter e.index]) := by
  have hne : ¬ (((s.logFrom (pw p 3)).take (pw p 2 / 32)).isEmpty = true) := by
    rw [List.isEmpty_iff]
    intro hnil
    rw [hnil] at he
    cases he
  refine exec_mc_reply rfl ht rfl ?_ (emit_quiet (taken_quiet rfl ht) _)
  dsimp only
  rw [if_neg (by omega), taken_logFrom, he, if_neg hne, taken_cmdLink]

end

/-- The entry that `logE` appends (R487). -/
def State.logEntry (s : State) (src code : Nat) (args : List Nat) : LogEntry :=
  let aon := decide (s.fld F.PWR_DOM_STATE 2 ≠ 1)
  ⟨s.logNext, if aon then s.aonNs / 1000 else s.now, src, aon, Config.logSev code % 4, code, args, false⟩

theorem logE_log (s : State) (src code : Nat) (args : List Nat) : (s.logE src code args).log =
    (if 2048 ≤ s.log.length then s.log.drop 1 else s.log) ++ [s.logEntry src code args] := by
  have hfull : (if decide (s.log.length ≥ 2048) then s.log.drop 1 else s.log) = if 2048 ≤ s.log.length then s.log.drop 1 else s.log := by
    simp only [decide_eq_true_eq, ge_iff_le]
  exact congrArg (· ++ _) hfull

theorem logE_logNext (s : State) (src code : Nat) (args : List Nat) : (s.logE src code args).logNext = logIndexAfter s.logNext := rfl

theorem logMark_appends (ht : s.takes (.logMark dt h p) = true) :
    exec (.logMark dt h p) s = .next (((s.taken dt h p).logE 8 0xE008 [pw p 0, 0, 0, 0]).reply h 0 [s.logNext]) := by
  refine exec_mc_reply rfl ht rfl ?_ ?_
  · rw [taken_logNext]
  · exact (csmQuiet_congr (State.logE_queues ..) (State.logE_netFifo ..)).trans (taken_quiet rfl ht)

/-- A log entry does not change the reply that follows it. -/
theorem repliesAlike_logE (u : State) (src code : Nat) (args : List Nat) : u.RepliesAlike (u.logE src code args) :=
  repliesAlike_of_keeps (keeps_of_regs [] (State.logE_regs ..)) (by simp) (State.logE_out ..) (State.logE_queues ..) (State.logE_keys ..)
    (State.logE_freeCtr ..) (State.logE_twoByEight ..)

/-! ## PLB_CENSUS -/

/-- The first entry of a key in a table is what the key reads as. -/
theorem mapGet_eq_find? {α : Type} (d : α) (m : FMap α) (k : Nat) : mapGet d m k = ((m.find? fun e => e.1 == k).map Prod.snd).getD d := by
  induction m with
  | nil => rfl
  | cons e m ih =>
    obtain ⟨a, v⟩ := e
    rw [mapGet, List.find?_cons]
    by_cases hk : k = a
    · simp [hk]
    · have : (a == k) = false := by simpa using Ne.symm hk
      rw [if_neg hk, ih, this]

theorem plb_census (u : State) (b : Nat) : (match u.plbs.find? fun e => e.1 == b with
    | some e => e.2.census
    | none => []) = (u.plb b).census := by
  rw [State.plb, mapGet_eq_find?]
  split
  · rename_i e he
    rw [he]
    rfl
  · rename_i he
    rw [he]
    rfl

section
variable (ht : s.takes (.plbCensus dt h p) = true)
include ht

theorem plbCensus_effect : exec (.plbCensus dt h p) s = .next ((
    if (s.plb (pw p 0)).census.isEmpty then s.taken dt h p
    else (s.taken dt h p).emit (.hostWrite (s.cmdLink h) (pwNum p 1 2)
      ((s.plb (pw p 0)).census.flatMap ((s.taken dt h p).censusBytes (pw p 0))) false)).reply h 0 [(s.plb (pw p 0)).census.length]) := by
  have hplb : (s.taken dt h p).plb (pw p 0) = s.plb (pw p 0) := by rw [State.plb, State.plb, taken_plbs]
  have hq := taken_quiet (s := s) (dt := dt) (h := h) (p := p) rfl ht
  refine exec_mc_reply rfl ht rfl ?_ ?_
  · dsimp only
    rw [← taken_cmdLink (s := s) (dt := dt) (h := h) (p := p), ← hplb, ← plb_census] <;> rfl
  · split
    · exact hq
    · exact emit_quiet hq _

end

end

end Sys2Proof.Machine
end

section
/-! RING_SETUP, PWR_POLICY, CXP_CTRL and NET_CONFIG (R365, R371, R407, R490). -/
namespace Sys2Proof.Machine

section
variable {s : State} {dt : Nat} {h : CmdHdr} {p : List Word}

/-! ## RING_SETUP -/

/-- The registers of an egress ring set up empty. -/
def State.ringRegs (u : State) (r base size : Nat) : State :=
  ((((u.setFld F.CMD_EGR_TAIL_TAIL 0 r).setFld F.CMD_EGR_HEAD_HEAD 0 r).setFld F.CMD_EGR_BASE_ADDR (base / 4096) r).setFld
    F.CMD_EGR_BASE_SIZE_LOG2 size r).setFld F.CMD_EGR_STAT_EN 1 r

/-- The registers that RING_SETUP writes. -/
def ringRegList (r : Nat) : List (Reg × Nat × Nat) :=
  [(.CMD_EGR_TAIL, r, 0), (.CMD_EGR_HEAD, r, 0), (.CMD_EGR_BASE, r, 0), (.CMD_EGR_STAT, r, 0)]

section
variable (u : State) {r : Nat} (hr : r < 16) (base size : Nat)
include hr

theorem ringRegs_keeps : u.keeps (u.ringRegs r base size) (ringRegList r) :=
  keeps_mono (keeps_trans (keeps_setFld u F.CMD_EGR_TAIL_TAIL _ ⟨hr, Nat.one_pos⟩) (keeps_trans (keeps_setFld _ F.CMD_EGR_HEAD_HEAD _ ⟨hr, Nat.one_pos⟩)
    (keeps_trans (keeps_setFld_setFld (f := F.CMD_EGR_BASE_ADDR) (g := F.CMD_EGR_BASE_SIZE_LOG2) _ _ _ rfl ⟨hr, Nat.one_pos⟩)
      (keeps_setFld _ F.CMD_EGR_STAT_EN _ ⟨hr, Nat.one_pos⟩)))) (by simp [ringRegList])

theorem ringRegs_fields (hb : base < 2 ^ 64) (hs : size < 32) : let t := u.ringRegs r base size
    t.fld F.CMD_EGR_STAT_EN r = 1 ∧ t.fld F.CMD_EGR_BASE_ADDR r = base / 4096 ∧ t.fld F.CMD_EGR_BASE_SIZE_LOG2 r = size ∧
    t.fld F.CMD_EGR_TAIL_TAIL r = 0 ∧ t.fld F.CMD_EGR_HEAD_HEAD r = 0 := by
  have hb : base / 4096 % 2 ^ 52 = base / 4096 := Nat.mod_eq_of_lt (by omega)
  have hs : size % 2 ^ 5 = size := Nat.mod_eq_of_lt hs
  simp (disch := decide) only [State.ringRegs, fld_setFld_at _ _ hr, fld_setFld_own, hb, hs]
  decide

end

theorem ringRegs_onlyRegs (u : State) (r base size : Nat) : u.onlyRegs (u.ringRegs r base size) :=
  onlyRegs_trans (onlyRegs_setFld_setFld ..) (onlyRegs_trans (onlyRegs_setFld_setFld ..) (onlyRegs_setFld ..))

/-- Ring `r` as RING_SETUP leaves it. -/
def ringSet (x : Ring) (p : List Word) : Ring :=
  { x with written := 0, rseq := 0, unreported := false, ien := bitsOf (pw p 0) 30 1 == 1, fmt8 := bitsOf (pw p 0) 29 1 == 1,
           connMask := pw p 4 % 65536, typeMask := bitsOf (pw p 4) 16 7, shadow := pwNum p 5 2 }

theorem onlyRegs_quiet {u t : State} (hu : u.onlyRegs t) : t.csmQuiet = u.csmQuiet :=
  csmQuiet_congr (onlyRegs_queues hu) (onlyRegs_netFifo hu)

theorem setERing_quiet (u : State) (r : Nat) (x : Ring) : (u.setERing r x).csmQuiet = u.csmQuiet := rfl

theorem setERing_setFld (u : State) (f : Fld) (v i j r : Nat) (x : Ring) :
    (u.setERing r x).setFld f v i j = (u.setFld f v i j).setERing r x := by
  rw [State.setERing, State.setERing]
  rfl

theorem ringSetup_sets (ht : s.takes (.ringSetup dt h p) = true) (hen : bitsOf (pw p 0) 31 1 = 1)
    (hoff : s.fld F.CMD_EGR_STAT_EN (pw p 0 % 16) = 0) (hb : pwNum p 1 2 % 4096 = 0) (h16 : 16 ≤ pw p 3) (h30 : pw p 3 ≤ 30)
    (hsh : pwNum p 5 2 % 8 = 0) : exec (.ringSetup dt h p) s =
      .next ((((s.taken dt h p).ringRegs (pw p 0 % 16) (pwNum p 1 2) (pw p 3)).setERing (pw p 0 % 16)
        (ringSet (s.eRing (pw p 0 % 16)) p)).reply h 0 []) := by
  have hr : pw p 0 % 16 < 16 := Nat.mod_lt _ (by decide)
  have hring : (s.taken dt h p).eRing (pw p 0 % 16) = s.eRing (pw p 0 % 16) := by
    rw [State.eRing, State.eRing, taken_frame]
    rfl
  have hoff' : (s.taken dt h p).fld F.CMD_EGR_STAT_EN (pw p 0 % 16) = 0 :=
    (fld_taken s dt h p (f := F.CMD_EGR_STAT_EN) ⟨hr, Nat.one_pos⟩ nofun).trans hoff
  have hbad : ¬ (pwNum p 1 2 % 4096 ≠ 0 ∨ pw p 3 < 16 ∨ 30 < pw p 3 ∨ pwNum p 5 2 % 8 ≠ 0) := by omega
  refine exec_mc_reply rfl ht rfl ?_ ?_
  · dsimp only
    rw [hring, hoff', if_neg hbad]
    simp only [hen, decide_true, Bool.not_true, Bool.false_eq_true, if_false, true_or, if_true, setERing_setFld]
    rw [State.ringRegs, ringSet]
  · rw [setERing_quiet, onlyRegs_quiet (ringRegs_onlyRegs ..)]
    exact taken_quiet rfl ht

/-! ## PWR_POLICY -/

/-- The policy table with one value (R490). -/
def State.withPolicy (u : State) (id v : Nat) : State := { u with policy := mapSet none u.policy id (some v) }

section
variable (u : State) (id v : Nat)

theorem withPolicy_quiet : (u.withPolicy id v).csmQuiet = u.csmQuiet := rfl

theorem pol_congr {s t : State} (hp : t.policy = s.policy) (hf : t.fuses = s.fuses) (hb : t.boot = s.boot) (k : Nat) : t.pol k = s.pol k := by
  unfold State.pol State.policyRow
  rw [hp, hf, hb]

theorem pol_withPolicy (k : Nat) : (u.withPolicy id v).pol k = if k = id then v else u.pol k := by
  unfold State.pol State.withPolicy
  dsimp only
  rw [mapGet_mapSet]
  split <;> rfl

theorem noiseEnable_quiet (was : Nat) : (u.noiseEnable was).csmQuiet = u.csmQuiet := rfl

theorem applyPolicy_onlyRegs : u.onlyRegs u.applyPolicy :=
  onlyRegs_trans (onlyRegs_setFld_setFld ..) (onlyRegs_trans (onlyRegs_setFld_setFld ..) (onlyRegs_setFld_setFld ..))

theorem applyPolicy_fields : let t := u.applyPolicy
    t.fld F.CAL_CFG_DELTA_T = u.pol 0x0B % 2 ^ 5 ∧ t.fld F.CAL_CFG_MAX_H = u.pol 0x0C % 2 ^ 8 ∧
    t.fld F.CAL_CFG_CONF_MIN = u.pol 0x0D % 2 ^ 8 ∧ t.fld F.CAL_HOLD_HOLD_S = u.pol 0x0E % 2 ^ 12 := by
  have hpol (w : State) (f : Fld) (x : Nat) (k : Nat) : (w.setFld f x).pol k = w.pol k := pol_congr rfl rfl rfl k
  simp (disch := decide) only [State.applyPolicy, fld_setFld_at _ _ Nat.one_pos, fld_setFld_own, hpol, and_self]

theorem applyPolicy_keeps : u.keeps u.applyPolicy [(.PWR_LIMIT, 0, 0), (.PWR_TOLL, 0, 0), (.CAL_CFG, 0, 0), (.CAL_HOLD, 0, 0)] := by
  have h0 (g : Reg) (hg : regFits g 1 = true) : regHas g 0 0 := regHas_of_fits hg Nat.one_pos
  unfold State.applyPolicy
  refine keeps_setFld_of_keeps _ _ (keeps_setFld_of_keeps _ _ (keeps_setFld_of_keeps _ _ (keeps_setFld_of_keeps _ _ (keeps_setFld_of_keeps _ _
    (keeps_setFld_of_keeps _ _ (keeps_refl u _) ?_ ?_) ?_ ?_) ?_ ?_) ?_ ?_) ?_ ?_) ?_ ?_ <;> decide
end

/-- The state that PWR_POLICY of one value leaves before its reply. -/
def State.policySet (u : State) (id v : Nat) : State := ((u.withPolicy id v).applyPolicy).noiseEnable (u.pol 0x01)

theorem pwrPolicy_sets {b : List Byte} {id v d lo hi : Nat} (ht : s.takes (.pwrPolicy dt h p (.bytes b)) = true)
    (hes : policyEntries b (pw p 2) = some [(id, v)]) (hrow : s.policyRow id = some (d, lo, hi)) (hlo : lo ≤ v) (hhi : v ≤ hi) :
    exec (.pwrPolicy dt h p (.bytes b)) s = .next (((s.taken dt h p).policySet id v).reply h 0 []) := by
  have hrow : (s.taken dt h p).policyRow id = some (d, lo, hi) := by
    rw [← hrow, taken_frame]
    rfl
  refine exec_mc_reply rfl ht rfl ?_ ?_
  · dsimp only [State.withBuf]
    rw [hes]
    dsimp only
    simp only [List.all_cons, hrow, hlo, hhi, and_self, decide_true, List.all_nil, Bool.and_true, Bool.not_true, Bool.false_eq_true, if_false]
    rfl
  · rw [State.policySet, noiseEnable_quiet, onlyRegs_quiet (applyPolicy_onlyRegs _), withPolicy_quiet]
    exact taken_quiet rfl ht

end

end Sys2Proof.Machine
end

section
/-! CXP_CTRL (R44, R365) and NET_CONFIG (R407). -/
namespace Sys2Proof.Machine

section
variable {s : State} {dt : Nat} {h : CmdHdr} {p : List Word}

/-! ## CXP_CTRL -/

theorem toCamera_quiet (u : State) (c : Nat) (m : CxpOut) : (u.toCamera c m).csmQuiet = u.csmQuiet := by
  unfold State.toCamera
  split <;> rfl

theorem toCamera_sameMemory (u : State) (c : Nat) (m : CxpOut) : u.sameMemory (u.toCamera c m) := by
  unfold State.toCamera
  split <;> exact sameMemory_of_stores rfl rfl

theorem toCamera_out {u : State} {c l : Nat} (hl : u.masterLink c = some l) (m : CxpOut) : (u.toCamera c m).out = u.out ++ [.cxp l m] := by
  rw [State.toCamera, hl]
  rfl

theorem setConn_quiet (u : State) (c : Nat) (x : Conn) : (u.setConn c x).csmQuiet = u.csmQuiet := rfl

theorem masterLink_setConn (u : State) (c : Nat) {x : Conn} (hx : x.links = (u.conn c).links) : (u.setConn c x).masterLink c = u.masterLink c := by
  rw [State.masterLink, State.masterLink, State.conn_setConn_same, hx]

/-- The access of a CXP_CTRL packet. -/
def cxpAccess (p : List Word) : CxpOut :=
  if bitsOf (pw p 0) 8 1 == 1 then .passWrite (pw p 1) (leBytes (pwNum p 2 8) (bitsOf (pw p 0) 16 6)) else .passRead (pw p 1) (bitsOf (pw p 0) 16 6)

section
variable (hq : s.csmQuiet = true) (hm : s.mcRuns = true) (hc : s.admitCode h p 0x0302 ([0x3F010F] ++ List.replicate 9 wAll) = none)
  (hfree : (s.conn (pw p 0 % 16)).ctrl = none) (h4 : bitsOf (pw p 0) 16 6 % 4 = 0) (hmin : 4 ≤ bitsOf (pw p 0) 16 6)
  (hmax : bitsOf (pw p 0) 16 6 ≤ if bitsOf (pw p 0) 8 1 == 1 then 32 else 16)
  (hst : s.connState (pw p 0 % 16) = 2 ∨ s.connState (pw p 0 % 16) = 3) (hgv : (s.conn (pw p 0 % 16)).gv = false)
include hq hm hc hfree h4 hmin hmax hst hgv

theorem cxpCtrl_sends : exec (.cxpCtrl dt h p) s = .next (((s.taken dt h p).setConn (pw p 0 % 16)
    { s.conn (pw p 0 % 16) with ctrl := some (h, bitsOf (pw p 0) 8 1 == 1) }).toCamera (pw p 0 % 16) (cxpAccess p)) := by
  have hr : pw p 0 % 16 < 16 := Nat.mod_lt _ (by decide)
  have hfree : ((s.tick dt).conn (pw p 0 % 16)).ctrl = none := hfree
  have hstate : (s.taken dt h p).connState (pw p 0 % 16) = s.connState (pw p 0 % 16) :=
    fld_taken s dt h p (f := F.ING_CONN_CFG_STATE) ⟨hr, Nat.one_pos⟩ nofun
  have hbad : ¬ (bitsOf (pw p 0) 16 6 % 4 ≠ 0 ∨ bitsOf (pw p 0) 16 6 < 4 ∨
      (if (bitsOf (pw p 0) 8 1 == 1) = true then 32 else 16) < bitsOf (pw p 0) 16 6) := by omega
  have hready : ¬ ((s.connState (pw p 0 % 16) ≠ 2 ∧ s.connState (pw p 0 % 16) ≠ 3) ∨ (s.conn (pw p 0 % 16)).gv = true) := by
    rw [hgv]
    rintro (⟨h2, h3⟩ | h)
    · exact hst.elim h2 h3
    · cases h
  change execCxpCtrl dt h p s = _
  unfold execCxpCtrl
  dsimp only
  rw [hfree, mcCmd_of_mcRuns hm, hc]
  dsimp only
  rw [if_neg hbad, hstate, taken_conn, if_neg hready, settle_quiet]
  · rfl
  · rw [toCamera_quiet, setConn_quiet]
    exact csmQuiet_taken s dt h p hq

end

/-! ## NET_CONFIG -/

section
variable {b : List Byte} (ht : s.takes (.netConfig dt h p (.bytes b)) = true) (hmax : pw p 2 ≤ 4096) (hmod : pw p 2 % 8 = 0)
  {es : List (Nat × Nat)} (hes : es = (List.range (pw p 2 / 8)).map fun i => (numAt b (8 * i) 4, numAt b (8 * i + 4) 4))
include ht hmax hmod hes

theorem netConfig_effect : exec (.netConfig dt h p (.bytes b)) s =
    .next (if !es.all (fun e => (s.taken dt h p).netEntryOk e.1 e.2) then (s.taken dt h p).reply h 0x0102 []
      else (es.foldl (fun s e => s.bar0Write .mc e.1 4 e.2) (s.taken dt h p)).reply h 0 []).settle := by
  change Host.Outcome.next ((s.tick dt).mNetConfig h p (.bytes b)).settle = _
  rw [State.mNetConfig, mcCmd_of_takes rfl ht]
  dsimp only [State.withBuf]
  rw [if_neg (by omega), hes]

end

end

end Sys2Proof.Machine
end

section
/-! What the toll gate shows (R466), and the entry into a lower power state (R445). -/
namespace Sys2Proof.Machine

/-- A fold whose steps do not change what is read leaves it as it was. -/
theorem foldl_reads {α β : Type} (read : State → β) {f : State → α → State} {l : List α} (h : ∀ x ∈ l, ∀ s, read (f s x) = read s) (s : State) :
    read (l.foldl f s) = read s := by
  induction l generalizing s with
  | nil => rfl
  | cons x l ih =>
    obtain ⟨hx, hl⟩ := List.forall_mem_cons.1 h
    exact (ih hl (f s x)).trans (hx s)

/-- The registers of the columns. -/
def colRegs : List (Reg × Nat × Nat) := (List.range 34).map fun c => (.PWR_COL, c, 0)

theorem mem_colRegs {c : Nat} (hc : c < 34) : (Reg.PWR_COL, c, 0) ∈ colRegs := List.mem_map_of_mem (List.mem_range.2 hc)

theorem not_mem_colRegs {g : Reg} {i j : Nat} (hg : g ≠ .PWR_COL) : (g, i, j) ∉ colRegs := by
  rintro h
  obtain ⟨c, -, hc⟩ := List.mem_map.1 h
  exact hg (Prod.ext_iff.1 hc).1.symm

/-! ## What the toll gate shows -/

/-- TOLL_WAIT of column `c` as the gate shows it. -/
def State.showWait (s : State) (c : Nat) : State :=
  s.setFld F.PWR_COL_TOLL_WAIT (if (s.tollHigh ++ s.tollNorm).any (fun q => tollCol q == some c) then 1 else 0) c

/-- The queue lengths as the gate shows them. -/
def State.showQueues (s : State) : State :=
  (s.setFld F.PWR_TOLL_QHIGH (min s.tollHigh.length 255)).setFld F.PWR_TOLL_QNORM (min s.tollNorm.length 255)

theorem tollShow_eq (s : State) : s.tollShow = (List.range 34).foldl State.showWait s.showQueues := rfl

section
variable (s : State)

theorem tollShow_onlyRegs : s.onlyRegs s.tollShow :=
  onlyRegs_trans (onlyRegs_setFld_setFld ..) (foldl_rel (f := State.showWait) onlyRegs_refl onlyRegs_trans (fun _ _ => onlyRegs_setFld ..) _ _)

theorem tollShow_keeps : s.keeps s.tollShow ((.PWR_TOLL, 0, 0) :: colRegs) :=
  keeps_trans (keeps_setFld_setFld (f := F.PWR_TOLL_QHIGH) (g := F.PWR_TOLL_QNORM) s _ _ rfl ⟨Nat.one_pos, Nat.one_pos⟩)
    (foldl_keeps (f := State.showWait) (fun c => (.PWR_COL, c, 0)) (List.range 34)
      (fun _ hc u => keeps_setFld u F.PWR_COL_TOLL_WAIT _ ⟨List.mem_range.1 hc, Nat.one_pos⟩) s.showQueues)

/-- A field of a column other than TOLL_WAIT. -/
theorem fld_tollShow_col {f : Fld} {c : Nat} (hc : c < 34) (hr : f.reg = .PWR_COL) (hf : F.PWR_COL_TOLL_WAIT.apart f 34 = true) :
    s.tollShow.fld f c = s.fld f c := by
  rw [tollShow_eq, foldl_reads (fun u => u.fld f c)]
  · rw [State.showQueues, fld_setFld_foreign (n := 1) (m := 34) _ _ Nat.one_pos hc (by rw [Fld.foreign, hr]; decide),
      fld_setFld_foreign (n := 1) (m := 34) _ _ Nat.one_pos hc (by rw [Fld.foreign, hr]; decide)]
  · intro k hk u
    by_cases h : c = k
    · subst h
      exact fld_setFld_at u _ hc hf
    · exact fld_setFld_index u _ (List.mem_range.1 hk) hc h hr (by decide)

/-- A field of PWR_TOLL is as the queue lengths leave it. -/
theorem fld_tollShow_toll {f : Fld} (hr : f.reg = .PWR_TOLL) : s.tollShow.fld f = s.showQueues.fld f := by
  rw [tollShow_eq]
  exact foldl_reads (fun u => u.fld f) (fun k hk u => fld_setFld_foreign (n := 34) (m := 1) u _ (List.mem_range.1 hk) Nat.one_pos
    (by rw [Fld.foreign, hr]; decide)) _

theorem tollShow_level : s.tollShow.fld F.PWR_TOLL_LEVEL = s.fld F.PWR_TOLL_LEVEL := by
  rw [fld_tollShow_toll s rfl, State.showQueues, fld_setFld_at _ _ Nat.one_pos (by decide), fld_setFld_at _ _ Nat.one_pos (by decide)]

theorem tollShow_lengths : s.tollShow.fld F.PWR_TOLL_QHIGH = min s.tollHigh.length 255 ∧
    s.tollShow.fld F.PWR_TOLL_QNORM = min s.tollNorm.length 255 := by
  have fits (n : Nat) : min n 255 < 2 ^ 8 := by omega
  rw [fld_tollShow_toll s rfl, fld_tollShow_toll s rfl, State.showQueues, fld_setFld_at _ _ Nat.one_pos (by decide),
    fld_setFld_eq _ _ (by decide) (fits _), fld_setFld_eq _ _ (by decide) (fits _)]
  exact ⟨rfl, rfl⟩

end

/-! ## Entry -/

theorem col_setCol_same (s : State) (c : Nat) (x : ColSt) : (s.setCol c x).col c = x := mapGet_mapSet_same col0 s.cols c x
theorem col_setCol_ne (s : State) {c k : Nat} (x : ColSt) (h : k ≠ c) : (s.setCol c x).col k = s.col k := mapGet_mapSet_ne col0 s.cols x h

/-- `t` differs from `s` in the columns' progress alone. -/
def State.onlyColSt (s t : State) : Prop := t = { s with cols := t.cols }

theorem onlyColSt_refl (s : State) : s.onlyColSt s := rfl
theorem onlyColSt_trans {s t u : State} (h : s.onlyColSt t) (h' : t.onlyColSt u) : s.onlyColSt u := by
  rw [State.onlyColSt] at h h' ⊢
  rw [h', h]
theorem onlyColSt_regs {s t : State} (h : s.onlyColSt t) : t.regs = s.regs := by rw [show t = _ from h]

/-- A column that is not off starts on its way to OFF. -/
def State.colDown (s : State) (c : Nat) : State :=
  if s.fld F.PWR_COL_STATE c ≠ 3 ∨ (s.col c).starting then s.setCol c { s.col c with leaving := some 3 } else s

theorem colDown_onlyColSt (s : State) (c : Nat) : s.onlyColSt (s.colDown c) := by
  unfold State.colDown
  split <;> rfl

theorem colsDown_onlyColSt (s : State) (l : List Nat) : s.onlyColSt (l.foldl State.colDown s) :=
  foldl_rel (f := State.colDown) onlyColSt_refl onlyColSt_trans colDown_onlyColSt l s

theorem fld_colDown (s : State) (c : Nat) (f : Fld) (i : Nat) : (s.colDown c).fld f i = s.fld f i :=
  State.fld_congr (onlyColSt_regs (colDown_onlyColSt s c)) ..

theorem colDown_own (s : State) (c : Nat) (h : (s.colDown c).fld F.PWR_COL_STATE c ≠ 3) : ((s.colDown c).col c).leaving = some 3 := by
  rw [fld_colDown] at h
  rw [State.colDown, if_pos (.inl h), col_setCol_same]

theorem colDown_col_ne (s : State) {c k : Nat} (h : k ≠ c) : (s.colDown c).col k = s.col k := by
  unfold State.colDown
  split
  · exact col_setCol_ne s _ h
  · rfl

theorem colsDown_leaving (s : State) {c : Nat} (hc : c < 34) (h : s.fld F.PWR_COL_STATE c ≠ 3) :
    (((List.range 34).foldl State.colDown s).col c).leaving = some 3 := by
  refine foldl_establishes (P := fun s c => s.fld F.PWR_COL_STATE c ≠ 3 → (s.col c).leaving = some 3) (f := State.colDown) colDown_own
    (fun s x y hy hn => ?_) (List.range 34) s (List.mem_range.2 hc) ?_
  · by_cases e : y = x
    · exact e ▸ colDown_own s x (e ▸ hn)
    · rw [colDown_col_ne s e]
      exact hy (by rwa [fld_colDown] at hn)
  · rwa [State.fld_congr (onlyColSt_regs (colsDown_onlyColSt s _))]

/-- The state into which an entry that runs, or none, is taken over. -/
def Seq.entryTo (q : Seq) (tgt : Nat) : Nat :=
  match q.entry with
  | some t => max t tgt
  | none => tgt

/-- The power sequence as entry begins. -/
def Seq.entering (q : Seq) (tgt : Nat) : Seq :=
  { q with entry := some (q.entryTo tgt), wake := none, rails := false, abandon := false, off := [] }

/-- The queues and the power sequence as entry begins. -/
def State.entering (s : State) (tgt : Nat) : State := { s with tollHigh := [], tollNorm := [], seq := s.seq.entering tgt }

/-- The columns on their way to OFF and the toll gate empty. -/
def State.goingDown (s : State) (tgt : Nat) : State := ((List.range 34).foldl State.colDown (s.entering tgt)).tollShow

/-- What the start of an entry leaves, before the entry's end is looked for. -/
def State.entered (s : State) (tgt : Nat) : State := (s.setFld F.PWR_STAT_BUSY 1).goingDown tgt

theorem enter_eq (s : State) (tgt : Nat) : s.enter tgt = (s.entered tgt).entryEnd := rfl

/-- `t` differs from `s` in its registers, the columns' progress, the toll queues and the power sequence alone. -/
def State.onlyPower (s t : State) : Prop :=
  t = { s with regs := t.regs, cols := t.cols, tollHigh := t.tollHigh, tollNorm := t.tollNorm, seq := t.seq }

theorem onlyPower_trans {s t u : State} (h : s.onlyPower t) (h' : t.onlyPower u) : s.onlyPower u := by
  rw [State.onlyPower] at h h' ⊢
  rw [h', h]

theorem onlyPower_of_onlyRegs {s t : State} (h : s.onlyRegs t) : s.onlyPower t := by
  rw [State.onlyPower, show t = { s with regs := t.regs } from h]

theorem onlyPower_of_onlyColSt {s t : State} (h : s.onlyColSt t) : s.onlyPower t := by
  rw [State.onlyPower, show t = { s with cols := t.cols } from h]

section
variable {s t : State} (h : s.onlyPower t)
include h
theorem onlyPower_out : t.out = s.out := by rw [show t = _ from h]
theorem onlyPower_log : t.log = s.log := by rw [show t = _ from h]
theorem onlyPower_sameMemory : s.sameMemory t := sameMemory_of_stores (by rw [show t = _ from h]) (by rw [show t = _ from h])
end

section
variable (s : State) (tgt : Nat)

theorem goingDown_seq : (s.goingDown tgt).seq = s.seq.entering tgt := by
  rw [State.goingDown, show State.tollShow _ = _ from tollShow_onlyRegs _, show List.foldl State.colDown _ _ = _ from colsDown_onlyColSt _ _]
  rfl

theorem goingDown_tolls : (s.goingDown tgt).tollHigh = [] ∧ (s.goingDown tgt).tollNorm = [] := by
  rw [State.goingDown, show State.tollShow _ = _ from tollShow_onlyRegs _, show List.foldl State.colDown _ _ = _ from colsDown_onlyColSt _ _]
  exact ⟨rfl, rfl⟩

theorem entering_onlyPower : s.onlyPower (s.entering tgt) := rfl

theorem goingDown_onlyPower : s.onlyPower (s.goingDown tgt) :=
  onlyPower_trans (entering_onlyPower ..) (onlyPower_trans (onlyPower_of_onlyColSt (colsDown_onlyColSt ..)) (onlyPower_of_onlyRegs (tollShow_onlyRegs _)))

theorem colsDown_regs : ((List.range 34).foldl State.colDown (s.entering tgt)).regs = s.regs :=
  (onlyColSt_regs (colsDown_onlyColSt (s.entering tgt) _)).trans rfl

theorem goingDown_keeps : s.keeps (s.goingDown tgt) ((.PWR_TOLL, 0, 0) :: colRegs) :=
  keeps_trans (keeps_of_regs [] (colsDown_regs s tgt)) (tollShow_keeps _)

theorem goingDown_leaving {c : Nat} (hc : c < 34) (h : s.fld F.PWR_COL_STATE c ≠ 3) : ((s.goingDown tgt).col c).leaving = some 3 := by
  have hcols : (s.goingDown tgt).cols = _ := onlyRegs_cols (tollShow_onlyRegs _)
  rw [State.col, hcols]
  exact colsDown_leaving (s.entering tgt) hc h

theorem entered_seq : (s.entered tgt).seq = s.seq.entering tgt :=
  (goingDown_seq ..).trans (by rw [State.setFld_seq])

theorem entered_tolls : (s.entered tgt).tollHigh = [] ∧ (s.entered tgt).tollNorm = [] := goingDown_tolls ..

theorem entered_onlyPower : s.onlyPower (s.entered tgt) := onlyPower_trans (onlyPower_of_onlyRegs (onlyRegs_setFld ..)) (goingDown_onlyPower ..)

theorem entered_keeps : s.keeps (s.entered tgt) ((.PWR_STAT, 0, 0) :: (.PWR_TOLL, 0, 0) :: colRegs) :=
  keeps_trans (keeps_setFld s F.PWR_STAT_BUSY 1 ⟨Nat.one_pos, Nat.one_pos⟩) (goingDown_keeps _ tgt)

theorem fld_entered_stat {f : Fld} (hr : f.reg = .PWR_STAT) : (s.entered tgt).fld f = (s.setFld F.PWR_STAT_BUSY 1).fld f :=
  fld_of_keeps (goingDown_keeps _ tgt) (hr ▸ ⟨Nat.one_pos, Nat.one_pos⟩)
    (hr ▸ List.not_mem_cons_of_ne_of_not_mem (by decide) (not_mem_colRegs (by decide)))

theorem entered_busy : (s.entered tgt).flag F.PWR_STAT_BUSY = true :=
  (flag_congr (fld_entered_stat s tgt rfl)).trans (flag_setFld_same _ _ _ _ _ (by decide))

theorem fld_entered_apart {f : Fld} (hr : f.reg = .PWR_STAT) (hf : F.PWR_STAT_BUSY.apart f 1 = true) : (s.entered tgt).fld f = s.fld f :=
  (fld_entered_stat s tgt hr).trans (fld_setFld_at s _ Nat.one_pos hf)

theorem entered_leaving {c : Nat} (hc : c < 34) (h : s.fld F.PWR_COL_STATE c ≠ 3) : ((s.entered tgt).col c).leaving = some 3 := by
  refine goingDown_leaving _ tgt hc ?_
  rwa [fld_setFld_foreign (n := 1) (m := 34) _ _ Nat.one_pos hc (by decide)]

end

/-- An entry goes on as long as a domain that it switches off is on. -/
theorem entryEnd_of_not_done {s : State} {tgt d : Nat} (he : s.seq.entry = some tgt) (hd : d ∈ offAll) (h : s.offDone tgt d = false) : s.entryEnd = s := by
  have hn : offAll.all (s.offDone tgt) = false := List.all_eq_false.2 ⟨d, hd, by rw [h]; nofun⟩
  rw [State.entryEnd, he]
  dsimp only
  rw [if_neg (by rw [hn]; nofun)]

theorem offDone_iod {s : State} (h : s.domOn 2 = true) (tgt : Nat) : s.offDone tgt 2 = false := by
  have h : s.fld F.PWR_DOM_STATE 2 = 1 := beq_iff_eq.1 h
  rw [State.offDone, if_neg (by omega), if_neg (by omega), if_neg (by omega), h]
  rfl

/-- Entry begins while the IOD domain is on. -/
theorem enter_of_iod {s : State} (h : s.domOn 2 = true) (tgt : Nat) : s.enter tgt = s.entered tgt := by
  have hdom : (s.entered tgt).domOn 2 = true := by
    rw [State.domOn, fld_of_keeps (entered_keeps s tgt) (f := F.PWR_DOM_STATE) (i := 2) (j := 0) ⟨by decide, by decide⟩
      (List.not_mem_cons_of_ne_of_not_mem (by decide) (List.not_mem_cons_of_ne_of_not_mem (by decide) (not_mem_colRegs (by decide))))]
    exact h
  exact (enter_eq s tgt).trans (entryEnd_of_not_done (by rw [entered_seq]; rfl) (by decide) (offDone_iod hdom _))

end Sys2Proof.Machine
end

section
/-! PWR_DEVICE (R443), and what the commands of the MC leave (R365). -/
namespace Sys2Proof.Machine

section
variable {s t : State} (h : s.onlyReplies t)
include h
theorem onlyReplies_rings : t.rings = s.rings := by rw [h]
theorem onlyReplies_policy : t.policy = s.policy := by rw [h]
theorem onlyReplies_boot : t.boot = s.boot := by rw [h]
theorem onlyReplies_seq : t.seq = s.seq := by rw [h]
end

section
variable {s t u : State}

theorem onlyRegs_repliesAlike {l : List (Reg × Nat × Nat)} (ho : s.onlyRegs t) (h : s.keeps t l) (hl : ∀ x ∈ l, x.1 ≠ .CMD_CQ_BASE ∧ x.1 ≠ .CMD_Q_CFG) :
    s.RepliesAlike t :=
  repliesAlike_of_keeps h hl (by rw [show t = _ from ho]) (by rw [show t = _ from ho]) (by rw [show t = _ from ho]) (by rw [show t = _ from ho])
    (by rw [show t = _ from ho])

/-- States that agree in all that a reply looks at. -/
theorem repliesAlike_of_same (regs : t.regs = s.regs) (out : t.out = s.out) (queues : t.queues = s.queues)
    (keys : t.keys = s.keys) (freeCtr : t.freeCtr = s.freeCtr) (links : t.twoByEight = s.twoByEight) : s.RepliesAlike t :=
  repliesAlike_of_keeps (keeps_of_regs [] regs) (by simp) out queues keys freeCtr links

theorem State.RepliesAlike.trans (h : s.RepliesAlike t) (h' : t.RepliesAlike u) : s.RepliesAlike u :=
  ⟨h'.out.trans h.out, h'.queues.trans h.queues, h'.keys.trans h.keys, h'.freeCtr.trans h.freeCtr, h'.links.trans h.links,
    fun q hq => (h'.base q hq).trans (h.base q hq), fun q hq => (h'.depth q hq).trans (h.depth q hq), fun q hq => (h'.ien q hq).trans (h.ien q hq),
    fun q hq => (h'.vec q hq).trans (h.vec q hq)⟩

end

/-! ## The log mirror and the calibration record -/

section
variable (s : State)

/-- `t` differs from `s` in the log's mirror and the calibration record alone. -/
def State.onlyFlash (s t : State) : Prop :=
  t = { s with mirror := t.mirror, logLost := t.logLost, log := t.log, calFlash := t.calFlash, calMoved := t.calMoved, calWrote := t.calWrote }

theorem onlyFlash_trans {s t u : State} (h : s.onlyFlash t) (h' : t.onlyFlash u) : s.onlyFlash u := by
  rw [State.onlyFlash] at h h' ⊢
  rw [h', h]

theorem onlyFlash_mirrored (m : List LogEntry) (n : Nat) (l : List LogEntry) : s.onlyFlash { s with mirror := m, logLost := n, log := l } := rfl

theorem mirrorLog_onlyFlash : s.onlyFlash s.mirrorLog := by
  unfold State.mirrorLog
  dsimp only
  split
  · rfl
  · exact onlyFlash_mirrored ..

theorem calFlashWrite_onlyFlash (force : Bool) : s.onlyFlash (s.calFlashWrite force) := by
  unfold State.calFlashWrite
  dsimp only
  split <;> split <;> rfl

theorem calFlashWrite_log (force : Bool) : (s.calFlashWrite force).log = s.log := by
  unfold State.calFlashWrite
  dsimp only
  split <;> split <;> rfl

section
variable {s} {t : State} (h : s.onlyFlash t)
include h
theorem onlyFlash_regs : t.regs = s.regs := by rw [show t = _ from h]
theorem onlyFlash_seq : t.seq = s.seq := by rw [show t = _ from h]
theorem onlyFlash_queues : t.queues = s.queues := by rw [show t = _ from h]
theorem onlyFlash_netFifo : t.netFifo = s.netFifo := by rw [show t = _ from h]
theorem onlyFlash_repliesAlike : s.RepliesAlike t :=
  repliesAlike_of_same (onlyFlash_regs h) (by rw [show t = _ from h]) (onlyFlash_queues h) (by rw [show t = _ from h]) (by rw [show t = _ from h])
    (by rw [show t = _ from h])
theorem onlyFlash_sameMemory : s.sameMemory t := sameMemory_of_stores (by rw [show t = _ from h]) (by rw [show t = _ from h])
end

theorem mirrorRun_eq_nil {lost : Nat} {l : List LogEntry} (h : (mirrorRun lost l).isEmpty = true) : l = [] := by
  cases l with
  | nil => rfl
  | cons e l => cases h

/-- Every entry of the log is in the mirror after the copy. -/
theorem mirrorLog_mirrored : ∀ e ∈ s.mirrorLog.log, e.mirrored = true := by
  intro e he
  unfold State.mirrorLog at he
  dsimp only at he
  split at he
  · next hnone =>
    have hall := List.filter_eq_nil_iff.1 (mirrorRun_eq_nil hnone) e he
    simpa using hall
  · obtain ⟨x, -, rfl⟩ := List.mem_map.1 he
    rfl

end

/-! ## PWR_DEVICE -/

/-- The log mirrored and the calibration record written, before an entry on command. -/
def State.saved (s : State) : State := s.mirrorLog.calFlashWrite true

theorem saved_onlyFlash (s : State) : s.onlyFlash s.saved := onlyFlash_trans (mirrorLog_onlyFlash s) (calFlashWrite_onlyFlash _ true)

section
variable {s : State} {dt : Nat} {h : CmdHdr} {p : List Word}

theorem domOn_reply (u : State) {d : Nat} (hd : d < (regRow .PWR_DOM).n1) (h : CmdHdr) (st : Nat) (w : List Nat) : (u.reply h st w).domOn d = u.domOn d := by
  rw [State.domOn, State.domOn, fld_reply (f := F.PWR_DOM_STATE) ⟨hd, Nat.one_pos⟩ (by decide)]

theorem domOn_taken {d : Nat} (hd : d < (regRow .PWR_DOM).n1) : (s.taken dt h p).domOn d = s.domOn d := by
  rw [State.domOn, State.domOn, fld_taken s dt h p (f := F.PWR_DOM_STATE) ⟨hd, Nat.one_pos⟩ (by decide)]

theorem domOn_of_regs {s t : State} (hr : t.regs = s.regs) (d : Nat) : t.domOn d = s.domOn d := by rw [State.domOn, State.domOn, State.fld_congr hr]

theorem pwrDevice_enters (ht : s.takes (.pwrDevice dt h p) = true) (hodd : pw p 0 % 2 = 1) (hstage : s.fld F.DEV_START_STAGE = 8)
    (hmay : (s.taken dt h p).mayEnter = true) (hdom : s.domOn 2 = true) :
    exec (.pwrDevice dt h p) s = .next (((s.taken dt h p).saved.reply h 0 []).entered (pw p 0)) := by
  have hstage : (s.taken dt h p).fld F.DEV_START_STAGE = 8 := (fld_taken s dt h p (f := F.DEV_START_STAGE) ⟨by decide, by decide⟩ nofun).trans hstage
  have hflash := saved_onlyFlash (s.taken dt h p)
  have hiod : ((s.taken dt h p).saved.reply h 0 []).domOn 2 = true := by
    rw [domOn_reply _ (by decide), domOn_of_regs (onlyFlash_regs hflash), domOn_taken (by decide)]
    exact hdom
  refine exec_mc rfl ht rfl ?_ ?_
  · dsimp only
    rw [hstage, hmay, if_neg (by omega), if_neg (by simp), ← State.saved, enter_of_iod hiod]
  · rw [csmQuiet_congr (s := (s.taken dt h p).saved.reply h 0 []) (by rw [show State.entered _ _ = _ from entered_onlyPower ..])
      (by rw [show State.entered _ _ = _ from entered_onlyPower ..])]
    refine csmQuiet_reply _ _ _ _ ?_
    rw [csmQuiet_congr (onlyFlash_queues hflash) (onlyFlash_netFifo hflash)]
    exact taken_quiet rfl ht

end

end Sys2Proof.Machine
end

section
/-! The effects of the commands of the MC, as O25 states them. -/
namespace Sys2Proof.Machine

section
variable {s : State} {dt : Nat} {h : CmdHdr} {p : List Word}

/-! ## RING_SETUP -/

theorem mem_ringRegList {r : Nat} : ∀ x ∈ ringRegList r, x.1 ≠ .CMD_CQ_BASE ∧ x.1 ≠ .CMD_Q_CFG := by
  simp [ringRegList]

theorem eRing_reply (u : State) (h : CmdHdr) (st : Nat) (w : List Nat) (k : Nat) : (u.reply h st w).eRing k = u.eRing k := by
  rw [State.eRing, State.eRing, onlyReplies_rings (reply_onlyReplies u h st w)]

theorem eRing_taken (k : Nat) : (s.taken dt h p).eRing k = s.eRing k := by
  rw [State.eRing, State.eRing, taken_frame]
  rfl

theorem eRing_onlyRegs {s t : State} (ho : s.onlyRegs t) (k : Nat) : t.eRing k = s.eRing k := by
  rw [State.eRing, State.eRing, show t = { s with regs := t.regs } from ho]

theorem repliesAlike_setERing (u : State) (r : Nat) (x : Ring) : u.RepliesAlike (u.setERing r x) := repliesAlike_of_same rfl rfl rfl rfl rfl rfl

theorem setERing_sameMemory (u : State) (r : Nat) (x : Ring) : u.sameMemory (u.setERing r x) := sameMemory_of_stores rfl rfl

theorem sameMemory_onlyRegs {s t : State} (h : s.onlyRegs t) : s.sameMemory t := sameMemory_of_stores (onlyRegs_depot h) (onlyRegs_hbm h)

/-- A ring set up and answered: its registers, and its other state. -/
theorem ringRegs_setERing_reply (u : State) {r base size : Nat} (x : Ring) (h : CmdHdr) (hr : r < 16) (hb : base < 2 ^ 64) (hs : size < 32) :
    let t := ((u.ringRegs r base size).setERing r x).reply h 0 []
    t.fld F.CMD_EGR_STAT_EN r = 1 ∧ t.fld F.CMD_EGR_BASE_ADDR r = base / 4096 ∧ t.fld F.CMD_EGR_BASE_SIZE_LOG2 r = size ∧
    t.fld F.CMD_EGR_TAIL_TAIL r = 0 ∧ t.fld F.CMD_EGR_HEAD_HEAD r = 0 ∧ t.eRing r = x ∧ (∀ k, k ≠ r → t.eRing k = u.eRing k) ∧
    t.out = (u.reply h 0 []).out ∧ u.sameMemory t := by
  have hfld (f : Fld) (hf : regHas f.reg r 0) (hq : f.reg ≠ .CMD_Q_STAT) :
      (((u.ringRegs r base size).setERing r x).reply h 0 []).fld f r = (u.ringRegs r base size).fld f r :=
    (fld_reply hf hq h 0 []).trans (State.fld_congr (setERing_regs ..) ..)
  have hon := ringRegs_onlyRegs u r base size
  obtain ⟨h1, h2, h3, h4, h5⟩ := ringRegs_fields u hr base size hb hs
  refine ⟨?_, ?_, ?_, ?_, ?_, ?_, fun k hk => ?_, ?_, ?_⟩
  · rw [hfld F.CMD_EGR_STAT_EN ⟨hr, Nat.one_pos⟩ (by decide), h1]
  · rw [hfld F.CMD_EGR_BASE_ADDR ⟨hr, Nat.one_pos⟩ (by decide), h2]
  · rw [hfld F.CMD_EGR_BASE_SIZE_LOG2 ⟨hr, Nat.one_pos⟩ (by decide), h3]
  · rw [hfld F.CMD_EGR_TAIL_TAIL ⟨hr, Nat.one_pos⟩ (by decide), h4]
  · rw [hfld F.CMD_EGR_HEAD_HEAD ⟨hr, Nat.one_pos⟩ (by decide), h5]
  · rw [eRing_reply, State.eRing_setERing_same]
  · rw [eRing_reply, State.eRing, State.setERing, mapGet_mapSet_ne _ _ _ hk]
    exact eRing_onlyRegs hon k
  · exact ((onlyRegs_repliesAlike hon (ringRegs_keeps u hr base size) mem_ringRegList).trans (repliesAlike_setERing ..)).reply_out ..
  · exact sameMemory_trans (sameMemory_onlyRegs hon) (sameMemory_trans (setERing_sameMemory ..) (reply_sameMemory ..))

/-! ## PWR_POLICY -/

theorem pol_reply (u : State) (h : CmdHdr) (st : Nat) (w : List Nat) (k : Nat) : (u.reply h st w).pol k = u.pol k :=
  have hr := reply_onlyReplies u h st w
  pol_congr (onlyReplies_policy hr) (onlyReplies_fuses hr) (onlyReplies_boot hr) k

theorem pol_taken (k : Nat) : (s.taken dt h p).pol k = s.pol k :=
  pol_congr (by rw [taken_frame]; rfl) (by rw [taken_frame]; rfl) (by rw [taken_frame]; rfl) k

section
variable (u : State) (id v : Nat)

theorem noiseEnable_regs (was : Nat) : (u.noiseEnable was).regs = u.regs := rfl

theorem noiseEnable_pol (was k : Nat) : (u.noiseEnable was).pol k = u.pol k := pol_congr rfl rfl rfl k

theorem repliesAlike_noiseEnable (was : Nat) : u.RepliesAlike (u.noiseEnable was) := repliesAlike_of_same rfl rfl rfl rfl rfl rfl

theorem noiseEnable_sameMemory (was : Nat) : u.sameMemory (u.noiseEnable was) := sameMemory_of_stores rfl rfl

theorem withPolicy_sameMemory : u.sameMemory (u.withPolicy id v) := sameMemory_of_stores rfl rfl

theorem repliesAlike_withPolicy : u.RepliesAlike (u.withPolicy id v) := repliesAlike_of_same rfl rfl rfl rfl rfl rfl

theorem applyPolicy_pol (k : Nat) : u.applyPolicy.pol k = u.pol k := by
  have h := applyPolicy_onlyRegs u
  exact pol_congr (by rw [show u.applyPolicy = _ from h]) (by rw [show u.applyPolicy = _ from h]) (by rw [show u.applyPolicy = _ from h]) k

theorem policySet_pol (k : Nat) : (u.policySet id v).pol k = if k = id then v else u.pol k := by
  rw [State.policySet, noiseEnable_pol, applyPolicy_pol, pol_withPolicy]

theorem policySet_repliesAlike : u.RepliesAlike (u.policySet id v) :=
  (repliesAlike_withPolicy u id v).trans ((onlyRegs_repliesAlike (applyPolicy_onlyRegs _) (applyPolicy_keeps _) (by simp)).trans
    (repliesAlike_noiseEnable ..))

theorem policySet_sameMemory : u.sameMemory (u.policySet id v) :=
  sameMemory_trans (withPolicy_sameMemory u id v) (sameMemory_trans (sameMemory_onlyRegs (applyPolicy_onlyRegs _)) (noiseEnable_sameMemory ..))

/-- The calibration settings that registers show are those of the policy. -/
theorem policySet_fields : let t := u.policySet id v
    t.fld F.CAL_CFG_DELTA_T = t.pol 0x0B % 2 ^ 5 ∧ t.fld F.CAL_CFG_MAX_H = t.pol 0x0C % 2 ^ 8 ∧
    t.fld F.CAL_CFG_CONF_MIN = t.pol 0x0D % 2 ^ 8 ∧ t.fld F.CAL_HOLD_HOLD_S = t.pol 0x0E % 2 ^ 12 := by
  have hfld (f : Fld) : (u.policySet id v).fld f = ((u.withPolicy id v).applyPolicy).fld f := State.fld_congr (noiseEnable_regs ..) ..
  obtain ⟨h1, h2, h3, h4⟩ := applyPolicy_fields (u.withPolicy id v)
  dsimp only
  rw [hfld, hfld, hfld, hfld, State.policySet, noiseEnable_pol, noiseEnable_pol, noiseEnable_pol, noiseEnable_pol, applyPolicy_pol,
    applyPolicy_pol, applyPolicy_pol, applyPolicy_pol]
  exact ⟨h1, h2, h3, h4⟩

theorem policySet_reply (h : CmdHdr) : let t := (u.policySet id v).reply h 0 []
    (∀ k, t.pol k = if k = id then v else u.pol k) ∧ t.fld F.CAL_CFG_DELTA_T = t.pol 0x0B % 2 ^ 5 ∧ t.fld F.CAL_CFG_MAX_H = t.pol 0x0C % 2 ^ 8 ∧
    t.fld F.CAL_CFG_CONF_MIN = t.pol 0x0D % 2 ^ 8 ∧ t.fld F.CAL_HOLD_HOLD_S = t.pol 0x0E % 2 ^ 12 ∧
    t.out = (u.reply h 0 []).out ∧ u.sameMemory t := by
  obtain ⟨h1, h2, h3, h4⟩ := policySet_fields u id v
  refine ⟨fun k => by rw [pol_reply, policySet_pol], ?_, ?_, ?_, ?_, (policySet_repliesAlike u id v).reply_out .., sameMemory_trans
    (policySet_sameMemory u id v) (reply_sameMemory ..)⟩
  · rw [fld_reply (f := F.CAL_CFG_DELTA_T) ⟨by decide, by decide⟩ (by decide), pol_reply, h1]
  · rw [fld_reply (f := F.CAL_CFG_MAX_H) ⟨by decide, by decide⟩ (by decide), pol_reply, h2]
  · rw [fld_reply (f := F.CAL_CFG_CONF_MIN) ⟨by decide, by decide⟩ (by decide), pol_reply, h3]
  · rw [fld_reply (f := F.CAL_HOLD_HOLD_S) ⟨by decide, by decide⟩ (by decide), pol_reply, h4]

end

/-! ## PWR_DEVICE -/

theorem Seq.entryTo_of_none {q : Seq} (h : q.entry = none) (tgt : Nat) : q.entryTo tgt = tgt := by rw [Seq.entryTo, h]

theorem saved_reply_entered (u : State) (h : CmdHdr) {tgt : Nat} (hent : u.seq.entry = none) : let t := (u.saved.reply h 0 []).entered tgt
    t.seq.entry = some tgt ∧ t.flag F.PWR_STAT_BUSY = true ∧ t.tollHigh = [] ∧ t.tollNorm = [] ∧
    (∀ c < 34, u.fld F.PWR_COL_STATE c ≠ 3 → (t.col c).leaving = some 3) ∧ (∀ e ∈ t.log, e.mirrored = true) ∧
    t.out = (u.reply h 0 []).out ∧ u.sameMemory t := by
  have hflash := saved_onlyFlash u
  have hrep := reply_onlyReplies u.saved h 0 []
  have hpow := entered_onlyPower (u.saved.reply h 0 []) tgt
  have hseq : (u.saved.reply h 0 []).seq = u.seq := (onlyReplies_seq hrep).trans (onlyFlash_seq hflash)
  refine ⟨?_, entered_busy .., (entered_tolls ..).1, (entered_tolls ..).2, fun c hc hst => entered_leaving _ tgt hc ?_, ?_, ?_,
    sameMemory_trans (onlyFlash_sameMemory hflash) (sameMemory_trans (reply_sameMemory ..) (onlyPower_sameMemory hpow))⟩
  · rw [entered_seq, hseq]
    exact congrArg some (Seq.entryTo_of_none hent tgt)
  · rwa [fld_reply (f := F.PWR_COL_STATE) ⟨hc, Nat.one_pos⟩ (by decide), State.fld_congr (onlyFlash_regs hflash)]
  · rw [onlyPower_log hpow, onlyReplies_log hrep, State.saved, calFlashWrite_log]
    exact mirrorLog_mirrored u
  · exact (onlyPower_out hpow).trans ((onlyFlash_repliesAlike hflash).reply_out ..)

theorem entry_of_mayEnter {u : State} (h : u.mayEnter = true) : u.seq.entry = none := by
  simp only [State.mayEnter, Bool.and_eq_true, Option.isNone_iff_eq_none] at h
  exact h.1.1.2

end

/-! ## LOG_MARK and CXP_CTRL -/

theorem logE_reply_leaves (u : State) (h : CmdHdr) (src code : Nat) (args w : List Nat) : let t := (u.logE src code args).reply h 0 w
    t.log.getLast? = some (u.logEntry src code args) ∧ t.logNext = logIndexAfter u.logNext ∧ t.out = (u.reply h 0 w).out ∧ u.sameMemory t := by
  have hrep := reply_onlyReplies (u.logE src code args) h 0 w
  refine ⟨?_, ?_, (repliesAlike_logE u src code args).reply_out .., sameMemory_trans ?_ (reply_sameMemory ..)⟩
  · rw [onlyReplies_log hrep, logE_log, List.getLast?_concat]
  · rw [onlyReplies_logNext hrep, logE_logNext]
  · exact sameMemory_of_stores (State.logE_depot ..) (State.logE_hbm ..)

theorem setConn_toCamera_leaves (u : State) {c : Nat} {x : Conn} (hx : x.links = (u.conn c).links) (m : CxpOut) : let t := (u.setConn c x).toCamera c m
    t.conn c = x ∧ (∀ k, k ≠ c → t.conn k = u.conn k) ∧ (∀ l, u.masterLink c = some l → t.out = u.out ++ [.cxp l m]) ∧ u.sameMemory t := by
  refine ⟨?_, fun k hk => ?_, fun l hl => ?_, sameMemory_trans (sameMemory_of_stores rfl rfl) (toCamera_sameMemory (u.setConn c x) c m)⟩
  · rw [toCamera_conn, State.conn_setConn_same]
  · rw [toCamera_conn, State.conn_setConn_ne _ _ hk]
  · rw [toCamera_out ((masterLink_setConn u c hx).trans hl)]
    rfl

end Sys2Proof.Machine
end

section
namespace Sys2Proof.Machine

/-- Settles O25: each command is admitted and taken, and the lemma about its effect names what it leaves. -/
theorem managementCommandsAct : Obligations.ManagementCommandsAct := by
  intro dt h p s u
  refine ⟨?_, ?_, ?_, ?_, ?_, ?_, ?_, ?_, ?_⟩
  · intro r ht hen hoff hb h16 h30 hsh
    have hr : r < 16 := Nat.mod_lt _ (by decide)
    obtain ⟨hon, hbase, hsize, htail, hhead, hring, hothers, hout, hmem⟩ := ringRegs_setERing_reply u (ringSet (s.eRing r) p) h hr
      (pwNum_lt p 1 (n := 2) rfl) (show pw p 3 < 32 by omega)
    refine ⟨_, ringSetup_sets ht hen hoff hb h16 h30 hsh, hon, ?_, hsize, htail, hhead, congrArg Ring.written hring, congrArg Ring.connMask hring,
      congrArg Ring.typeMask hring, congrArg Ring.shadow hring, fun k hk => (hothers k hk).trans (eRing_taken k), hout,
      sameMemory_trans (taken_sameMemory ..) hmem⟩
    rw [hbase]
    omega
  · intro ht hodd hstage hmay hdom
    obtain ⟨hent, hbusy, hhigh, hnorm, hleave, hlog, hout, hmem⟩ := saved_reply_entered u h (tgt := pw p 0) (entry_of_mayEnter hmay)
    refine ⟨_, pwrDevice_enters ht hodd hstage hmay hdom, hent, hbusy, hhigh, hnorm, fun c hc hst => hleave c hc ?_, hlog, hout,
      sameMemory_trans (taken_sameMemory ..) hmem⟩
    rwa [fld_taken s dt h p (f := F.PWR_COL_STATE) ⟨hc, Nat.one_pos⟩ nofun]
  · intro b id v d lo hi ht hes hrow hlo hhi
    obtain ⟨hpol, hdt, hmh, hcm, hhs, hout, hmem⟩ := policySet_reply u id v h
    have hid := (hpol id).trans (if_pos rfl)
    refine ⟨_, pwrPolicy_sets ht hes hrow hlo hhi, hid, fun k hk => ((hpol k).trans (if_neg hk)).trans (pol_taken k), ?_, ?_, ?_, ?_, hout,
      sameMemory_trans (taken_sameMemory ..) hmem⟩
    all_goals
      rintro rfl
      obtain ⟨rfl, rfl, rfl⟩ : _ ∧ _ ∧ _ := by simpa [State.policyRow] using hrow
    · rw [hdt, hid, Nat.mod_eq_of_lt (by omega)]
    · rw [hmh, hid, Nat.mod_eq_of_lt (by omega)]
    · rw [hcm, hid, Nat.mod_eq_of_lt (by omega)]
    · rw [hhs, hid, Nat.mod_eq_of_lt (by omega)]
  · intro ht hlen n b
    exact svcReport_writes ht hlen rfl
  · intro ht h64 hmax hmod es
    exact ⟨fun he => logRead_none ht h64 hmax hmod he, fun e he => logRead_writes ht h64 hmax hmod he⟩
  · intro ht
    obtain ⟨hlast, hnext, hout, hmem⟩ := logE_reply_leaves u h 8 0xE008 [pw p 0, 0, 0, 0] [s.logNext]
    exact ⟨_, _, logMark_appends ht, hlast, taken_logNext, rfl, rfl, rfl, hnext.trans (congrArg _ taken_logNext), hout,
      sameMemory_trans (taken_sameMemory ..) hmem⟩
  · intro ht es
    refine ⟨fun he => ?_, fun he => ?_⟩
    · rw [plbCensus_effect ht, if_pos (List.isEmpty_iff.2 he)]
      exact congrArg (fun n => Host.Outcome.next (u.reply h 0 [n])) (congrArg List.length he)
    · exact (plbCensus_effect ht).trans (congrArg (fun v : State => Host.Outcome.next (v.reply h 0 [es.length])) (if_neg (mt List.isEmpty_iff.1 he)))
  · intro c wr n hq hm hc hfree h4 hmin hmax hst hgv
    have hconn (k : Nat) : u.conn k = s.conn k := taken_conn ..
    obtain ⟨hsame, hothers, hout, hmem⟩ := setConn_toCamera_leaves u (c := c) (x := { s.conn c with ctrl := some (h, wr) })
      (congrArg Conn.links (hconn c)).symm (cxpAccess p)
    refine ⟨_, cxpCtrl_sends hq hm hc hfree h4 hmin hmax hst hgv, hsame, fun k hk => (hothers k hk).trans (hconn k), fun l hl => ?_,
      sameMemory_trans (taken_sameMemory ..) hmem⟩
    rw [hout l (by rwa [State.masterLink, hconn]), taken_out]
    rfl
  · intro b ht hmax hmod es
    have hset := netConfig_effect ht hmax hmod (es := es) rfl
    refine ⟨fun hall => ?_, fun ⟨e, he, hbad⟩ => ?_⟩
    · rw [hset, List.all_eq_true.2 fun e he => hall e he]
      rfl
    · rw [hset, List.all_eq_false.2 ⟨e, he, by rw [hbad]; nofun⟩]
      exact congrArg Host.Outcome.next (settle_quiet _ (csmQuiet_reply _ _ _ _ (taken_quiet rfl ht)))

end Sys2Proof.Machine
end

section
/-! The toll gate serves its queues (R453); a column's clock and operating point (R448 to R451). -/
namespace Sys2Proof.Machine

/-- A fold whose steps each keep what is not in one list keeps it. -/
theorem foldl_keeps_within {α : Type} {f : State → α → State} {l : List α} {rs : List (Reg × Nat × Nat)}
    (h : ∀ x ∈ l, ∀ s : State, s.keeps (f s x) rs) (s : State) : s.keeps (l.foldl f s) rs := by
  induction l generalizing s with
  | nil => exact keeps_refl s _
  | cons x l ih =>
    obtain ⟨hx, hl⟩ := List.forall_mem_cons.1 h
    exact keeps_mono (keeps_trans (hx s) (ih hl (f s x))) (by simp)

/-- A field apart from one that is counted up. -/
theorem fld_inc_at (s : State) {f g : Fld} {i n : Nat} (hi : i < n) (hc : f.apart g n = true) : (s.inc f i).fld g i = s.fld g i :=
  fld_setFld_at s _ hi hc

/-- `t` differs from `s` in its registers and the columns' progress alone. -/
def State.onlyCols (s t : State) : Prop := t = { s with regs := t.regs, cols := t.cols }

theorem onlyCols_trans {s t u : State} (h : s.onlyCols t) (h' : t.onlyCols u) : s.onlyCols u := by
  rw [State.onlyCols] at h h' ⊢
  rw [h', h]

theorem onlyCols_of_onlyRegs {s t : State} (h : s.onlyRegs t) : s.onlyCols t := by
  rw [State.onlyCols, show t = { s with regs := t.regs } from h]

theorem onlyCols_setCol (s : State) (c : Nat) (x : ColSt) : s.onlyCols (s.setCol c x) := rfl

theorem setCol_regs (s : State) (c : Nat) (x : ColSt) : (s.setCol c x).regs = s.regs := rfl

theorem fld_setCol (s : State) (c : Nat) (x : ColSt) (f : Fld) (i : Nat) : (s.setCol c x).fld f i = s.fld f i := State.fld_congr (setCol_regs ..) ..

theorem flag_setCol (s : State) (c : Nat) (x : ColSt) (f : Fld) (i : Nat) : (s.setCol c x).flag f i = s.flag f i := flag_congr (fld_setCol ..)

theorem keeps_setCol {s t : State} {l : List (Reg × Nat × Nat)} (h : s.keeps t l) (c : Nat) (x : ColSt) : s.keeps (t.setCol c x) l :=
  keeps_congr (setCol_regs ..) h

theorem col_onlyRegs {s t : State} (h : s.onlyRegs t) (c : Nat) : t.col c = s.col c := by rw [State.col, State.col, onlyRegs_cols h]

/-! ## The queues -/

section
variable (s : State)

/-- The HIGH queue set. -/
def State.withHigh (s : State) (l : List TollFor) : State := { s with tollHigh := l }
/-- The NORMAL queue set. -/
def State.withNorm (s : State) (l : List TollFor) : State := { s with tollNorm := l }
/-- The queues without a request. -/
def State.noTolls (s : State) : State := (s.withHigh []).withNorm []

theorem withHigh_self {s : State} {l : List TollFor} (h : s.tollHigh = l) : s.withHigh l = s := by rw [← h]; rfl
theorem withNorm_self {s : State} {l : List TollFor} (h : s.tollNorm = l) : s.withNorm l = s := by rw [← h]; rfl
theorem withHigh_setFld (l : List TollFor) (f : Fld) (v i : Nat) : (s.withHigh l).setFld f v i = (s.setFld f v i).withHigh l := by
  rw [State.withHigh, State.withHigh]
  rfl
theorem withNorm_setFld (l : List TollFor) (f : Fld) (v i : Nat) : (s.withNorm l).setFld f v i = (s.setFld f v i).withNorm l := by
  rw [State.withNorm, State.withNorm]
  rfl
theorem withHigh_withNorm (l l' : List TollFor) : (s.withNorm l').withHigh l = (s.withHigh l).withNorm l' := rfl

/-- The level as a request of `n` tokens leaves it. -/
def State.paid (s : State) (n : Nat) : State := s.setFld F.PWR_TOLL_LEVEL (s.fld F.PWR_TOLL_LEVEL - n)

theorem paid_onlyRegs (n : Nat) : s.onlyRegs (s.paid n) := onlyRegs_setFld ..

theorem paid_keeps (n : Nat) : s.keeps (s.paid n) [(.PWR_TOLL, 0, 0)] := keeps_setFld s F.PWR_TOLL_LEVEL _ ⟨Nat.one_pos, Nat.one_pos⟩

theorem paid_level (n : Nat) : (s.paid n).fld F.PWR_TOLL_LEVEL = s.fld F.PWR_TOLL_LEVEL - n := by
  have hfit : s.fld F.PWR_TOLL_LEVEL < 2 ^ F.PWR_TOLL_LEVEL.w := bitsOf_lt ..
  exact fld_setFld_eq _ _ (by decide) (by omega)

theorem fld_paid (n : Nat) {f : Fld} {i m : Nat} (hi : i < m) (hf : F.PWR_TOLL_LEVEL.foreign f 1 m = true) : (s.paid n).fld f i = s.fld f i :=
  fld_setFld_foreign s _ Nat.one_pos hi hf

end

section
variable {s : State} {q : TollFor} {qs : List TollFor}

theorem tollGrant_high (n : Nat) (h : s.tollHigh = q :: qs) (hc : tollCost q ≤ s.fld F.PWR_TOLL_LEVEL) :
    s.tollGrant (n + 1) = (((s.paid (tollCost q)).withHigh qs).tollBegin q).tollGrant n := by
  rw [State.tollGrant]
  dsimp only
  rw [h]
  dsimp only
  rw [if_pos hc]
  rfl

theorem tollGrant_norm (n : Nat) (hh : s.tollHigh = []) (h : s.tollNorm = q :: qs) (hc : tollCost q ≤ s.fld F.PWR_TOLL_LEVEL) :
    s.tollGrant (n + 1) = (((s.paid (tollCost q)).withNorm qs).tollBegin q).tollGrant n := by
  rw [State.tollGrant]
  dsimp only
  rw [hh, h]
  dsimp only
  rw [if_pos hc]
  rfl

/-- Nothing is granted while the HIGH head waits for more tokens. -/
theorem tollGrant_waits (n : Nat) (h : s.tollHigh = q :: qs) (hc : s.fld F.PWR_TOLL_LEVEL < tollCost q) : s.tollGrant n = s := by
  cases n with
  | zero => rfl
  | succ n =>
    rw [State.tollGrant]
    dsimp only
    rw [h]
    dsimp only
    rw [if_neg (Nat.not_le.2 hc)]

theorem tollRun_empty (hh : s.tollHigh = []) (hn : s.tollNorm = []) : s.tollRun = s.tollShow := by
  rw [State.tollRun, hh, hn]
  rfl

theorem tollRun_waits (h : s.tollHigh = q :: qs) (hc : s.fld F.PWR_TOLL_LEVEL < tollCost q) : s.tollRun = s.tollShow := by
  rw [State.tollRun, tollGrant_waits _ h hc]

/-- One request in the HIGH queue, granted. -/
theorem tollRun_high (hh : s.tollHigh = [q]) (hn : s.tollNorm = []) (hc : tollCost q ≤ s.fld F.PWR_TOLL_LEVEL) : s.tollRun =
    (((s.paid (tollCost q)).withHigh []).tollBegin q).tollShow := by
  have hlen : s.tollHigh.length + s.tollNorm.length = 0 + 1 := by rw [hh, hn]; rfl
  rw [State.tollRun, hlen, tollGrant_high 0 hh hc]
  rfl

/-- One request in the NORMAL queue, granted. -/
theorem tollRun_norm (hh : s.tollHigh = []) (hn : s.tollNorm = [q]) (hc : tollCost q ≤ s.fld F.PWR_TOLL_LEVEL) : s.tollRun =
    (((s.paid (tollCost q)).withNorm []).tollBegin q).tollShow := by
  have hlen : s.tollHigh.length + s.tollNorm.length = 0 + 1 := by rw [hh, hn]; rfl
  rw [State.tollRun, hlen, tollGrant_norm 0 hh hn hc]
  rfl

end

/-! ## A column's clock -/

section
variable (s : State) (c op : Nat)

theorem setMhz_onlyRegs : s.onlyRegs (s.setMhz c op) := onlyRegs_setFld ..

theorem setMhz_keeps {c : Nat} (hc : c < 34) : s.keeps (s.setMhz c op) [(.CLK_COL, c, 0)] := keeps_setFld s F.CLK_COL_MHZ _ ⟨hc, Nat.one_pos⟩

/-- The frequency of a point in the column's clock: halved in a halving window. -/
def State.clockMhz : Nat := if s.flag F.PWR_COL_HALVED c then opMhz op / 2 else opMhz op

theorem opMhz_le : opMhz op ≤ 1600 := by
  unfold opMhz
  rcases Nat.lt_or_ge op 8 with h | h
  · interval_cases op <;> decide
  · rw [List.getD_eq_default _ _ (by simpa using h)]

theorem setMhz_mhz : (s.setMhz c op).fld F.CLK_COL_MHZ c = s.clockMhz c op := by
  have hle := opMhz_le op
  have hfit : s.clockMhz c op < 2 ^ 11 := by
    rw [State.clockMhz]
    split <;> omega
  exact fld_setFld_eq _ _ (by decide) hfit

/-- A field of the column's power register, and of others. -/
theorem fld_setMhz {f : Fld} {i : Nat} (hc : c < 34) (hi : i < 34) (hf : F.CLK_COL_MHZ.foreign f 34 34 = true) : (s.setMhz c op).fld f i = s.fld f i :=
  fld_setFld_foreign s _ hc hi hf

end

/-! ## TRIM -/

section
variable (s : State) {c : Nat} (op : Nat) (hc : c < 34)

/-- The clock of a column that goes to a lower point. -/
def State.trimClock (s : State) (c op : Nat) : State := if op < s.fld F.PWR_COL_CUR_OP c then s.setMhz c op else s

theorem startTrim_eq : s.startTrim c op = ((s.trimClock c op).setFld F.PWR_COL_STATE 2 c).setCol c
    { s.col c with trimTo := some op } := by
  have hcol : (s.trimClock c op).col c = s.col c := by
    unfold State.trimClock
    split
    · exact col_onlyRegs (setMhz_onlyRegs s c op) c
    · rfl
  rw [← hcol]
  rfl

theorem trimClock_onlyRegs : s.onlyRegs (s.trimClock c op) := by
  unfold State.trimClock
  split
  · exact setMhz_onlyRegs s c op
  · exact onlyRegs_refl s

theorem startTrim_onlyCols : s.onlyCols (s.startTrim c op) := by
  rw [startTrim_eq]
  exact onlyCols_trans (onlyCols_of_onlyRegs (onlyRegs_trans (trimClock_onlyRegs s op) (onlyRegs_setFld ..))) (onlyCols_setCol ..)

theorem startTrim_col : (s.startTrim c op).col c = { s.col c with trimTo := some op } := by
  rw [startTrim_eq, col_setCol_same]

theorem startTrim_state : (s.startTrim c op).fld F.PWR_COL_STATE c = 2 := by
  rw [startTrim_eq, fld_setCol, fld_setFld_eq _ _ (by decide) (by decide)]

include hc

theorem fld_trimClock {f : Fld} (hf : F.CLK_COL_MHZ.foreign f 34 34 = true) : (s.trimClock c op).fld f c = s.fld f c := by
  unfold State.trimClock
  split
  · exact fld_setMhz s c op hc hc hf
  · rfl

/-- A field of the column that TRIM does not write. -/
theorem fld_startTrim {f : Fld} (hm : F.CLK_COL_MHZ.foreign f 34 34 = true) (hf : F.PWR_COL_STATE.apart f 34 = true) :
    (s.startTrim c op).fld f c = s.fld f c := by
  rw [startTrim_eq, fld_setCol, fld_setFld_at _ _ hc hf, fld_trimClock s op hc hm]

theorem startTrim_keeps : s.keeps (s.startTrim c op) [(.PWR_COL, c, 0), (.CLK_COL, c, 0)] := by
  rw [startTrim_eq]
  refine keeps_setCol (keeps_setFld_of_keeps (f := F.PWR_COL_STATE) _ _ ?_ ⟨hc, Nat.one_pos⟩ (List.mem_cons_self ..)) _ _
  unfold State.trimClock
  split
  · exact keeps_mono (setMhz_keeps s op hc) (by simp)
  · exact keeps_refl s _

/-- A lower point takes its frequency at once. -/
theorem startTrim_lower (h : op < s.fld F.PWR_COL_CUR_OP c) : (s.startTrim c op).fld F.CLK_COL_MHZ c = s.clockMhz c op := by
  rw [startTrim_eq, fld_setCol, fld_setFld_at _ _ hc (by decide), State.trimClock, if_pos h, setMhz_mhz]

/-- A higher one leaves the clock as it is until TRIM ends. -/
theorem startTrim_higher (h : s.fld F.PWR_COL_CUR_OP c ≤ op) : s.keeps (s.startTrim c op) [(.PWR_COL, c, 0)] := by
  rw [startTrim_eq, State.trimClock, if_neg (Nat.not_lt.2 h)]
  exact keeps_setCol (keeps_setFld s F.PWR_COL_STATE _ ⟨hc, Nat.one_pos⟩) _ _

end

end Sys2Proof.Machine
end

section
/-! A column's registers as its supply goes (R446). -/
namespace Sys2Proof.Machine

theorem mapGet_filter_addr {α : Type} (d : α) (p : Nat → Bool) (m : FMap α) (k : Nat) :
    mapGet d (m.filter fun e => !p e.1) k = if p k = true then d else mapGet d m k := by
  induction m with
  | nil => simp [mapGet]
  | cons e m ih =>
    obtain ⟨a, v⟩ := e
    rw [List.filter_cons]
    by_cases hk : k = a
    · subst hk
      cases hp : p k <;> simp [hp, mapGet, ih]
    · cases hp : p a <;> simp [mapGet, ih, hk]

/-- A register that goes with its supply reads its Reset column; the others stay. -/
theorem reg_dropRegs (s : State) (p : Nat → Bool) (g : Reg) (i j : Nat) :
    (s.dropRegs p).reg g i j = if p (regAddr g i j) = true then (regDefault (regAddr g i j)).toNat else s.reg g i j := by
  rw [State.reg, State.dropRegs, mapGet_filter_addr]
  split <;> rfl

theorem inColumn_regAddr {g : Reg} {i j c : Nat} (h : regHas g i j) : inColumn c (regAddr g i j) =
    (decide (0x1000000 ≤ regAddr g i j ∧ regAddr g i j < 0x1440000) && (regDomain ⟨g, i, j, false⟩ (regAddr g i j)).isNone && tileCol i == c) := by
  rw [inColumn, findReg_regAddr g i j h.1 h.2]

theorem inColumn_tileStat {k : Nat} (hk : k < 1088) : inColumn (k / 32) (regAddr .TILE_STAT k) = true := by
  have haddr : regAddr .TILE_STAT k = 0x1000000 + k * 0x1000 := by simp [regAddr, regRow]
  rw [inColumn_regAddr ⟨hk, Nat.one_pos⟩]
  have hdom : regDomain ⟨.TILE_STAT, k, 0, false⟩ (regAddr .TILE_STAT k) = none := by
    simp only [regDomain]
    rw [if_neg (by omega), if_neg (by omega), blockDomain]
    obtain h | h | h | h | h : regAddr .TILE_STAT k / 0x100000 = 16 ∨ regAddr .TILE_STAT k / 0x100000 = 17 ∨ regAddr .TILE_STAT k / 0x100000 = 18 ∨
      regAddr .TILE_STAT k / 0x100000 = 19 ∨ regAddr .TILE_STAT k / 0x100000 = 20 := by omega
    all_goals rw [h]; rfl
  rw [hdom]
  simp only [tileCol, Option.isNone_none, Bool.and_true, BEq.rfl, decide_eq_true_eq]
  omega


/-- A register outside the windows of the column's tiles. -/
theorem inColumn_low {g : Reg} {i j c : Nat} (h : regAddr g i j < 0x1000000) (hg : regHas g i j) : inColumn c (regAddr g i j) = false := by
  rw [inColumn_regAddr hg, decide_eq_false (by omega)]
  rfl

/-! ## A column is unpowered -/

/-- The tiles of a column and their registers are lost. -/
def State.colTilesOff (s : State) (c : Nat) : State := { s.dropRegs (inColumn c) with tiles := mapClear (32 * c) (32 * c + 32) s.tiles }

/-- The registers of an unpowered column. -/
def State.colRegsOff (s : State) (c : Nat) : State :=
  let u := ((s.setFld F.CLK_COL_LOCK 0 c).setFld F.CLK_COL_MHZ 0 c).setFld F.PWR_COL_STATE 3 c
  (u.setFld F.PWR_COL_CUR_OP (u.fld F.PWR_COL_REQ_OP c) c).setFld F.PWR_COL_EMERG 0 c

theorem colOff_eq (s : State) (c : Nat) : s.colOff c = ((s.colTilesOff c).colRegsOff c).setCol c col0 := rfl

section
variable (s : State) {c : Nat}

theorem colRegsOff_onlyRegs : s.onlyRegs (s.colRegsOff c) :=
  onlyRegs_trans (onlyRegs_setFld_setFld ..) (onlyRegs_trans (onlyRegs_setFld ..) (onlyRegs_setFld_setFld ..))

theorem colRegsOff_keeps (hc : c < 34) : s.keeps (s.colRegsOff c) [(.PWR_COL, c, 0), (.CLK_COL, c, 0)] := by
  have hp : regHas .PWR_COL c 0 := ⟨hc, Nat.one_pos⟩
  have hk : regHas .CLK_COL c 0 := ⟨hc, Nat.one_pos⟩
  rw [State.colRegsOff]
  exact keeps_setFld_of_keeps _ _ (keeps_setFld_of_keeps _ _ (keeps_setFld_of_keeps _ _ (keeps_setFld_of_keeps _ _ (keeps_setFld_of_keeps _ _
    (keeps_refl s _) hk (by simp)) hk (by simp)) hp (by simp)) hp (by simp)) hp (by simp)

theorem colRegsOff_fields (hc : c < 34) : (s.colRegsOff c).fld F.PWR_COL_STATE c = 3 ∧ (s.colRegsOff c).fld F.CLK_COL_LOCK c = 0 ∧
    (s.colRegsOff c).fld F.CLK_COL_MHZ c = 0 := by
  simp (disch := decide) only [State.colRegsOff, fld_setFld_at _ _ hc, fld_setFld_own]
  decide

theorem colTilesOff_regs : (s.colTilesOff c).regs = (s.dropRegs (inColumn c)).regs := rfl

theorem colTilesOff_tiles : (s.colTilesOff c).tiles = mapClear (32 * c) (32 * c + 32) s.tiles := rfl

theorem reg_colTilesOff (g : Reg) (i j : Nat) : (s.colTilesOff c).reg g i j =
    if inColumn c (regAddr g i j) = true then (regDefault (regAddr g i j)).toNat else s.reg g i j :=
  (State.reg_congr (colTilesOff_regs s) g i j).trans (reg_dropRegs s (inColumn c) g i j)

theorem tile_colTilesOff (j : Nat) : (s.colTilesOff c).tile j = if j / 32 = c then tile0 else s.tile j := by
  have h : (32 * c ≤ j ∧ j < 32 * c + 32) ↔ j / 32 = c := by omega
  rw [← if_congr h rfl rfl, State.tile, colTilesOff_tiles]
  exact mapGet_mapClear tile0 s.tiles (32 * c) (32 * c + 32) j

/-- `t` differs from `s` in its registers, tiles and the columns' progress alone. -/
def State.onlyTiles (s t : State) : Prop := t = { s with regs := t.regs, tiles := t.tiles, cols := t.cols }

theorem onlyTiles_setCol {s t u : State} (h : s.onlyTiles t) (h' : t.onlyRegs u) (c : Nat) (x : ColSt) : s.onlyTiles (u.setCol c x) := by
  rw [State.onlyTiles] at h ⊢
  rw [show u = _ from h', h]
  rfl

theorem colTilesOff_onlyTiles : s.onlyTiles (s.colTilesOff c) := rfl

theorem colOff_onlyTiles : s.onlyTiles (s.colOff c) := onlyTiles_setCol (colTilesOff_onlyTiles s) (colRegsOff_onlyRegs _) c col0

theorem colOff_col : (s.colOff c).col c = col0 :=
  (congrArg (fun u : State => u.col c) (colOff_eq s c)).trans (col_setCol_same _ c col0)

theorem setCol_tiles (x : ColSt) : (s.setCol c x).tiles = s.tiles := rfl

theorem colOff_tile (j : Nat) : (s.colOff c).tile j = if j / 32 = c then tile0 else s.tile j := by
  rw [← tile_colTilesOff, State.tile, State.tile]
  rw [colOff_eq, setCol_tiles, onlyRegs_tiles (colRegsOff_onlyRegs _)]

section
variable (hc : c < 34)
include hc

theorem colOff_keeps : (s.colTilesOff c).keeps (s.colOff c) [(.PWR_COL, c, 0), (.CLK_COL, c, 0)] := by
  rw [colOff_eq]
  exact keeps_setCol (colRegsOff_keeps _ hc) _ _

theorem colOff_reg {g : Reg} {i j : Nat} (hg : regHas g i j) (hin : inColumn c (regAddr g i j) = false)
    (hn : (g, i, j) ∉ [(Reg.PWR_COL, c, 0), (.CLK_COL, c, 0)]) : (s.colOff c).reg g i j = s.reg g i j := by
  rw [colOff_keeps s hc _ _ _ hg hn, reg_colTilesOff, hin]
  rfl

theorem colOff_fields : (s.colOff c).fld F.PWR_COL_STATE c = 3 ∧ (s.colOff c).flag F.CLK_COL_LOCK c = false ∧ (s.colOff c).fld F.CLK_COL_MHZ c = 0 := by
  obtain ⟨h1, h2, h3⟩ := colRegsOff_fields (s.colTilesOff c) hc
  rw [colOff_eq, fld_setCol, flag_setCol, fld_setCol, State.flag, h1, h2, h3]
  exact ⟨rfl, rfl, rfl⟩

theorem colOff_tState {r : Nat} (hr : r < 32) : (s.colOff c).tState (32 * c + r) = tIdle := by
  have hk : 32 * c + r < 1088 := by omega
  have hg : regHas .TILE_STAT (32 * c + r) 0 := ⟨hk, Nat.one_pos⟩
  have hin : inColumn c (regAddr .TILE_STAT (32 * c + r)) = true := by
    have h := inColumn_tileStat hk
    rwa [show (32 * c + r) / 32 = c by omega] at h
  rw [State.tState, fld_of_keeps (colOff_keeps s hc) (f := F.TILE_STAT_STATE) hg (by simp), State.fld, reg_colTilesOff, hin]
  rw [if_pos rfl, regDefault_regAddr hg]
  change bitsOf (fieldsReset (regRow .TILE_STAT).fields) F.TILE_STAT_STATE.lo F.TILE_STAT_STATE.w = tIdle
  decide

end

end

end Sys2Proof.Machine
end

section
/-! The ceiling halves the column clocks for a window (R451). -/
namespace Sys2Proof.Machine

/-- The registers of the columns' clocks. -/
def clkRegs : List (Reg × Nat × Nat) := (List.range 34).map fun c => (.CLK_COL, c, 0)

theorem mem_clkRegs {c : Nat} (hc : c < 34) : (Reg.CLK_COL, c, 0) ∈ clkRegs := List.mem_map_of_mem (List.mem_range.2 hc)

theorem not_mem_clkRegs {g : Reg} {i j : Nat} (hg : g ≠ .CLK_COL) : (g, i, j) ∉ clkRegs := by
  intro h
  obtain ⟨c, -, hc⟩ := List.mem_map.1 h
  exact hg (Prod.ext_iff.1 hc).1.symm

/-- The point that a column's clock carries (R449). -/
def State.clockPoint (s : State) (c : Nat) : Nat :=
  match (s.col c).trimTo with
  | some op => min op (s.fld F.PWR_COL_CUR_OP c)
  | none => s.fld F.PWR_COL_CUR_OP c

theorem colFreq_eq (s : State) (c : Nat) : s.colFreq c = opMhz (s.clockPoint c) := by
  unfold State.colFreq State.clockPoint
  cases (s.col c).trimTo <;> rfl

/-- HALVED of a column as a window begins or ends. -/
def State.halved (on : Bool) (s : State) (c : Nat) : State := s.setFld F.PWR_COL_HALVED (if on then 1 else 0) c

/-- A column as a halving window begins or ends. -/
def State.halveCol (on : Bool) (s : State) (c : Nat) : State :=
  if (s.halved on c).flag F.CLK_COL_LOCK c then (s.halved on c).setMhz c ((s.halved on c).clockPoint c) else s.halved on c

theorem halve_eq (s : State) (on : Bool) : s.halve on = (List.range 34).foldl (State.halveCol on) s := rfl

section
variable (on : Bool) (s : State) {c : Nat}

theorem halved_onlyRegs (c : Nat) : s.onlyRegs (s.halved on c) := onlyRegs_setFld ..

theorem halveCol_onlyRegs (c : Nat) : s.onlyRegs (s.halveCol on c) := by
  unfold State.halveCol
  split
  · exact onlyRegs_trans (halved_onlyRegs on s c) (setMhz_onlyRegs ..)
  · exact halved_onlyRegs on s c

theorem halve_onlyRegs : s.onlyRegs (s.halve on) := foldl_rel (f := State.halveCol on) onlyRegs_refl onlyRegs_trans (halveCol_onlyRegs on) _ s

theorem halved_keeps (hc : c < 34) : s.keeps (s.halved on c) [(.PWR_COL, c, 0)] := keeps_setFld s F.PWR_COL_HALVED _ ⟨hc, Nat.one_pos⟩

theorem halveCol_keeps (hc : c < 34) : s.keeps (s.halveCol on c) [(.PWR_COL, c, 0), (.CLK_COL, c, 0)] := by
  unfold State.halveCol
  split
  · exact keeps_trans (halved_keeps on s hc) (setMhz_keeps _ _ hc)
  · exact keeps_mono (halved_keeps on s hc) (by simp)

theorem halve_keeps : s.keeps (s.halve on) (colRegs ++ clkRegs) :=
  foldl_keeps_within (f := State.halveCol on) (fun c hc u => by
    have hc := List.mem_range.1 hc
    refine keeps_mono (halveCol_keeps on u hc) fun x hx => ?_
    obtain rfl | rfl : x = _ ∨ x = _ := by simpa using hx
    · exact List.mem_append_left _ (mem_colRegs hc)
    · exact List.mem_append_right _ (mem_clkRegs hc)) s

/-- `t` agrees with `s` in all that the clock of column `c` depends on. -/
def State.sameClock (c : Nat) (s t : State) : Prop := t.reg .PWR_COL c = s.reg .PWR_COL c ∧ t.reg .CLK_COL c = s.reg .CLK_COL c ∧ t.cols = s.cols

theorem halveCol_sameClock {k : Nat} (hk : k < 34) (hc : c < 34) (hne : k ≠ c) : s.sameClock c (s.halveCol on k) :=
  ⟨halveCol_keeps on s hk _ _ _ ⟨hc, Nat.one_pos⟩ (by simp [hne.symm]), halveCol_keeps on s hk _ _ _ ⟨hc, Nat.one_pos⟩ (by simp [hne.symm]),
    onlyRegs_cols (halveCol_onlyRegs on s k)⟩

/-- The clock of a column in a halving window, or out of one. -/
def State.windowMhz (s : State) (on : Bool) (c : Nat) : Nat := if on then s.colFreq c / 2 else s.colFreq c

/-- Column `c` is as a halving window's begin or end leaves it. -/
def State.inWindow (on : Bool) (s : State) (c : Nat) (t : State) : Prop :=
  t.flag F.PWR_COL_HALVED c = on ∧ (s.flag F.CLK_COL_LOCK c = true → t.fld F.CLK_COL_MHZ c = s.windowMhz on c)

section
variable {s}
theorem sameClock_trans {t u : State} (h : s.sameClock c t) (h' : t.sameClock c u) : s.sameClock c u :=
  ⟨h'.1.trans h.1, h'.2.1.trans h.2.1, h'.2.2.trans h.2.2⟩

theorem inWindow_sameClock {t u : State} (h : s.inWindow on c t) (h' : t.sameClock c u) : s.inWindow on c u := by
  have hhalved : u.fld F.PWR_COL_HALVED c = t.fld F.PWR_COL_HALVED c := congrArg (bitsOf · _ _) h'.1
  have hmhz : u.fld F.CLK_COL_MHZ c = t.fld F.CLK_COL_MHZ c := congrArg (bitsOf · _ _) h'.2.1
  exact ⟨(flag_congr hhalved).trans h.1, fun hl => hmhz.trans (h.2 hl)⟩

theorem flag_halved : (s.halved on c).flag F.PWR_COL_HALVED c = on := by
  rw [State.halved, flag_setFld_same _ _ _ _ _ (by decide)]
  cases on <;> rfl

theorem fld_halved {f : Fld} (hc : c < 34) (hf : F.PWR_COL_HALVED.apart f 34 = true) : (s.halved on c).fld f c = s.fld f c :=
  fld_setFld_at s _ hc hf

theorem colFreq_sameClock {t : State} (h : s.sameClock c t) : t.colFreq c = s.colFreq c :=
  colFreq_congr h.2.2 (congrArg (bitsOf · _ _) h.1)

theorem flag_lock_sameClock {t : State} (h : s.sameClock c t) : t.flag F.CLK_COL_LOCK c = s.flag F.CLK_COL_LOCK c :=
  flag_congr (congrArg (bitsOf · _ _) h.2.1)

/-- A window changes the column that it reaches as it should. -/
theorem halveCol_inWindow (hc : c < 34) : s.inWindow on c (s.halveCol on c) := by
  have hlock : (s.halved on c).flag F.CLK_COL_LOCK c = s.flag F.CLK_COL_LOCK c := flag_congr (fld_halved on hc (by decide))
  have hfreq : (s.halved on c).colFreq c = s.colFreq c :=
    colFreq_congr (onlyRegs_cols (halved_onlyRegs on s c)) (fld_halved on hc (by decide))
  unfold State.halveCol
  split
  · refine ⟨(flag_congr (fld_setMhz _ c _ hc hc (by decide))).trans (flag_halved on), fun _ => ?_⟩
    rw [setMhz_mhz, State.clockMhz, flag_halved, ← colFreq_eq, hfreq, State.windowMhz]
  · next hoff => exact ⟨flag_halved on, fun hl => absurd (hlock.trans hl) hoff⟩

theorem inWindow_of_sameClock {t u : State} (h : s.sameClock c t) (h' : t.inWindow on c u) : s.inWindow on c u := by
  refine ⟨h'.1, fun hl => ?_⟩
  rw [h'.2 ((flag_lock_sameClock h).trans hl), State.windowMhz, State.windowMhz, colFreq_sameClock h]

end

theorem halve_inWindow (hc : c < 34) : s.inWindow on c (s.halve on) :=
  foldl_range_once (P := s.sameClock c) (Q := s.inWindow on c) (f := State.halveCol on) hc ⟨rfl, rfl, rfl⟩
    (fun _ hk hne u hu => sameClock_trans hu (halveCol_sameClock on u hk hc hne))
    (fun _ hu => inWindow_of_sameClock on hu (halveCol_inWindow on hc))
    (fun _ hk hne u hu => inWindow_sameClock on hu (halveCol_sameClock on u hk hc hne))

end

/-! ## The throttle register -/

/-- A window begins: the count and OVERCUR. -/
def State.overNoted (s : State) : State := (s.inc F.PWR_THROT_HALVINGS).setFld F.PWR_THROT_OVERCUR 1

section
variable (s : State)

theorem inc_keeps_throt : s.keeps (s.inc F.PWR_THROT_HALVINGS) [(.PWR_THROT, 0, 0)] := keeps_inc s F.PWR_THROT_HALVINGS ⟨Nat.one_pos, Nat.one_pos⟩

theorem onlyRegs_inc (f : Fld) (i j : Nat) : s.onlyRegs (s.inc f i j) := onlyRegs_setFld ..

theorem overNoted_onlyRegs : s.onlyRegs s.overNoted := onlyRegs_trans (onlyRegs_inc ..) (onlyRegs_setFld ..)

theorem overNoted_keeps : s.keeps s.overNoted [(.PWR_THROT, 0, 0)] :=
  keeps_setFld_of_keeps (f := F.PWR_THROT_OVERCUR) _ _ (inc_keeps_throt s) ⟨Nat.one_pos, Nat.one_pos⟩ (List.mem_singleton_self _)

theorem overNoted_fields : s.overNoted.fld F.PWR_THROT_HALVINGS = min (s.fld F.PWR_THROT_HALVINGS + 1) (2 ^ F.PWR_THROT_HALVINGS.w - 1) ∧
    s.overNoted.flag F.PWR_THROT_OVERCUR = true := by
  rw [State.overNoted, fld_setFld_at _ _ Nat.one_pos (by decide), State.fld_inc_same _ _ _ _ (by decide), flag_setFld_same _ _ _ _ _ (by decide)]
  exact ⟨rfl, rfl⟩

theorem overNoted_sameClock {c : Nat} (hc : c < 34) : s.sameClock c s.overNoted :=
  ⟨overNoted_keeps s _ _ _ ⟨hc, Nat.one_pos⟩ (by simp), overNoted_keeps s _ _ _ ⟨hc, Nat.one_pos⟩ (by simp), onlyRegs_cols (overNoted_onlyRegs s)⟩

/-- A field of the throttle register after a window's begin or end. -/
theorem fld_halve_throt (on : Bool) {f : Fld} (hr : f.reg = .PWR_THROT) : (s.halve on).fld f = s.fld f := by
  refine fld_of_keeps (halve_keeps on s) (hr ▸ ⟨Nat.one_pos, Nat.one_pos⟩) fun hm => ?_
  rw [hr] at hm
  exact (List.mem_append.1 hm).elim (not_mem_colRegs (by decide)) (not_mem_clkRegs (by decide))

theorem overcurrent_halves : let t := s.overNoted.halve true
    t.fld F.PWR_THROT_HALVINGS = min (s.fld F.PWR_THROT_HALVINGS + 1) (2 ^ F.PWR_THROT_HALVINGS.w - 1) ∧ t.flag F.PWR_THROT_OVERCUR = true ∧
    (∀ c < 34, s.inWindow true c t) ∧ s.keeps t ((.PWR_THROT, 0, 0) :: (colRegs ++ clkRegs)) ∧ s.onlyRegs t :=
  ⟨(fld_halve_throt _ true rfl).trans (overNoted_fields s).1, (flag_congr (fld_halve_throt _ true rfl)).trans (overNoted_fields s).2,
    fun _ hc => inWindow_of_sameClock true (overNoted_sameClock s hc) (halve_inWindow true _ hc),
    keeps_trans (overNoted_keeps s) (halve_keeps true _), onlyRegs_trans (overNoted_onlyRegs s) (halve_onlyRegs true _)⟩

end

end Sys2Proof.Machine
end

section
/-! Operating points and the toll gate's tokens (R447, R449, R450, R453). -/
namespace Sys2Proof.Machine

/-! ## The end of TRIM -/

section
variable (s : State) {c op : Nat}

/-- The registers of a column whose TRIM has ended at a point. -/
def State.atPoint (s : State) (c op : Nat) : State := ((s.setFld F.PWR_COL_CUR_OP op c).setFld F.PWR_COL_STATE 0 c).setMhz c op

/-- EMERG ends at the point that is requested (R450). -/
def State.emergOver (s : State) (c op : Nat) : State :=
  if s.flag F.PWR_COL_EMERG c ∧ op = s.fld F.PWR_COL_REQ_OP c then s.setFld F.PWR_COL_EMERG 0 c else s

/-- A column whose TRIM has ended, with nothing that waited for it. -/
theorem ColSt.trimmed_plain {x : ColSt} (hd : x.down = false) (hw : x.waitOp = false) :
    ({ x with trimTo := none, waitOp := false, down := false } : ColSt) = { x with trimTo := none } := by
  cases x
  cases hd
  cases hw
  rfl

theorem trimEnd_of_plain (ht : (s.col c).trimTo = some op) (hd : (s.col c).down = false) (hw : (s.col c).waitOp = false) :
    s.trimEnd c = ((s.atPoint c op).setCol c { s.col c with trimTo := none }).emergOver c op := by
  rw [← ColSt.trimmed_plain hd hw]
  unfold State.trimEnd
  dsimp only
  rw [hd, hw, ht]
  rw [if_neg (by simp), if_neg (by simp), Option.getD_some]
  rw [State.emergOver, State.atPoint]
  simp only [Bool.not_false, and_true]

theorem atPoint_onlyRegs : s.onlyRegs (s.atPoint c op) := onlyRegs_trans (onlyRegs_setFld_setFld ..) (setMhz_onlyRegs ..)

theorem emergOver_onlyRegs : s.onlyRegs (s.emergOver c op) := by
  unfold State.emergOver
  split
  · exact onlyRegs_setFld ..
  · exact onlyRegs_refl s

section
variable (hc : c < 34)
include hc

theorem atPoint_keeps : s.keeps (s.atPoint c op) [(.PWR_COL, c, 0), (.CLK_COL, c, 0)] :=
  keeps_trans (keeps_setFld_setFld (f := F.PWR_COL_CUR_OP) (g := F.PWR_COL_STATE) s _ _ rfl ⟨hc, Nat.one_pos⟩) (setMhz_keeps _ _ hc)

/-- A field of the column that the end of TRIM does not write. -/
theorem fld_atPoint {f : Fld} (hm : F.CLK_COL_MHZ.foreign f 34 34 = true) (hs : F.PWR_COL_STATE.apart f 34 = true)
    (hf : F.PWR_COL_CUR_OP.apart f 34 = true) : (s.atPoint c op).fld f c = s.fld f c := by
  rw [State.atPoint, fld_setMhz _ _ _ hc hc hm, fld_setFld_at _ _ hc hs, fld_setFld_at _ _ hc hf]

theorem atPoint_fields (hop : op < 8) : (s.atPoint c op).fld F.PWR_COL_STATE c = 0 ∧ (s.atPoint c op).fld F.PWR_COL_CUR_OP c = op ∧
    (s.atPoint c op).fld F.CLK_COL_MHZ c = s.clockMhz c op := by
  have hhalved (u : State) (hu : u.fld F.PWR_COL_HALVED c = s.fld F.PWR_COL_HALVED c) : u.clockMhz c op = s.clockMhz c op := by
    rw [State.clockMhz, State.clockMhz, flag_congr hu]
  have hm : op % 2 ^ 3 = op := Nat.mod_eq_of_lt hop
  refine ⟨?_, ?_, ?_⟩
  · rw [State.atPoint, fld_setMhz _ _ _ hc hc (by decide), fld_setFld_eq _ _ (by decide) (by decide)]
  · rw [State.atPoint, fld_setMhz _ _ _ hc hc (by decide), fld_setFld_at _ _ hc (by decide), fld_setFld_own _ _ (by decide)]
    exact hm
  · rw [State.atPoint, setMhz_mhz, hhalved]
    rw [fld_setFld_at _ _ hc (by decide), fld_setFld_at _ _ hc (by decide)]

theorem fld_emergOver {f : Fld} (hf : F.PWR_COL_EMERG.apart f 34 = true) : (s.emergOver c op).fld f c = s.fld f c := by
  unfold State.emergOver
  split
  · exact fld_setFld_at s _ hc hf
  · rfl

theorem emergOver_keeps : s.keeps (s.emergOver c op) [(.PWR_COL, c, 0)] := by
  unfold State.emergOver
  split
  · exact keeps_setFld s F.PWR_COL_EMERG _ ⟨hc, Nat.one_pos⟩
  · exact keeps_refl s _

omit hc in
theorem flag_emergOver : (s.emergOver c op).flag F.PWR_COL_EMERG c = (s.flag F.PWR_COL_EMERG c && decide (op ≠ s.fld F.PWR_COL_REQ_OP c)) := by
  unfold State.emergOver
  split
  · next h => rw [flag_setFld_same _ _ _ _ _ (by decide), h.1, decide_eq_false (not_not.2 h.2)]; rfl
  · next h =>
    cases he : s.flag F.PWR_COL_EMERG c
    · rfl
    · rw [decide_eq_true (p := op ≠ s.fld F.PWR_COL_REQ_OP c) fun e => h ⟨he, e⟩]
      rfl

theorem trimEnd_leaves (hop : op < 8) (ht : (s.col c).trimTo = some op) (hd : (s.col c).down = false) (hw : (s.col c).waitOp = false) :
    let t := s.trimEnd c
    t.fld F.PWR_COL_STATE c = 0 ∧ t.fld F.PWR_COL_CUR_OP c = op ∧ t.fld F.CLK_COL_MHZ c = s.clockMhz c op ∧
    t.flag F.PWR_COL_EMERG c = (s.flag F.PWR_COL_EMERG c && decide (op ≠ s.fld F.PWR_COL_REQ_OP c)) ∧
    t.col c = { s.col c with trimTo := none } ∧ s.keeps t [(.PWR_COL, c, 0), (.CLK_COL, c, 0)] ∧ s.onlyCols t := by
  obtain ⟨hst, hcur, hmhz⟩ := atPoint_fields s hc hop
  rw [trimEnd_of_plain s ht hd hw]
  refine ⟨?_, ?_, ?_, ?_, ?_, ?_, ?_⟩
  · rw [fld_emergOver _ hc (by decide), fld_setCol, hst]
  · rw [fld_emergOver _ hc (by decide), fld_setCol, hcur]
  · rw [fld_emergOver _ hc (by decide), fld_setCol, hmhz]
  · rw [flag_emergOver, flag_setCol, fld_setCol, flag_congr (fld_atPoint s hc (by decide) (by decide) (by decide)),
      fld_atPoint s hc (by decide) (by decide) (by decide)]
  · rw [col_onlyRegs (emergOver_onlyRegs _), col_setCol_same]
  · exact keeps_mono (keeps_trans (keeps_setCol (atPoint_keeps s hc) c { s.col c with trimTo := none }) (emergOver_keeps _ hc)) (by simp)
  · exact onlyCols_trans (onlyCols_of_onlyRegs (atPoint_onlyRegs s))
      (onlyCols_trans (onlyCols_setCol _ c { s.col c with trimTo := none }) (onlyCols_of_onlyRegs (emergOver_onlyRegs _)))

/-! ## Thermal step-down -/

/-- The flags that thermal step-down sets. -/
def State.tooHot (s : State) (c : Nat) : State := (s.setFld F.PWR_COL_EMERG 1 c).setFld F.PWR_THROT_THERM 1

theorem fld_tooHot {f : Fld} (he : F.PWR_COL_EMERG.apart f 34 = true) (hf : F.PWR_THROT_THERM.foreign f 1 34 = true) :
    (s.tooHot c).fld f c = s.fld f c := by
  rw [State.tooHot, fld_setFld_foreign _ _ Nat.one_pos hc hf, fld_setFld_at _ _ hc he]

theorem tooHot_keeps : s.keeps (s.tooHot c) [(.PWR_COL, c, 0), (.PWR_THROT, 0, 0)] :=
  keeps_trans (keeps_setFld s F.PWR_COL_EMERG _ ⟨hc, Nat.one_pos⟩) (keeps_setFld _ F.PWR_THROT_THERM _ ⟨Nat.one_pos, Nat.one_pos⟩)

omit hc in
theorem tooHot_onlyRegs : s.onlyRegs (s.tooHot c) := onlyRegs_setFld_setFld ..

theorem tooHot_flags : (s.tooHot c).flag F.PWR_COL_EMERG c = true ∧ (s.tooHot c).flag F.PWR_THROT_THERM = true := by
  rw [State.tooHot, flag_setFld_same _ _ _ _ _ (by decide), flag_congr (fld_setFld_foreign (n := 1) (m := 34) _ _ Nat.one_pos hc (by decide)),
    flag_setFld_same _ _ _ _ _ (by decide)]
  exact ⟨rfl, rfl⟩

theorem stepDown_leaves (hcur : 0 < s.fld F.PWR_COL_CUR_OP c) : let t := (s.tooHot c).startTrim c (s.fld F.PWR_COL_CUR_OP c - 1)
    t.fld F.PWR_COL_STATE c = 2 ∧ t.flag F.PWR_COL_EMERG c = true ∧ t.fld F.PWR_COL_CUR_OP c = s.fld F.PWR_COL_CUR_OP c ∧
    t.fld F.CLK_COL_MHZ c = s.clockMhz c (s.fld F.PWR_COL_CUR_OP c - 1) ∧ t.flag F.PWR_THROT_THERM = true ∧
    t.col c = { s.col c with trimTo := some (s.fld F.PWR_COL_CUR_OP c - 1) } ∧
    s.keeps t [(.PWR_COL, c, 0), (.CLK_COL, c, 0), (.PWR_THROT, 0, 0)] ∧ s.onlyCols t := by
  have hcurHot : (s.tooHot c).fld F.PWR_COL_CUR_OP c = s.fld F.PWR_COL_CUR_OP c := fld_tooHot s hc (by decide) (by decide)
  refine ⟨startTrim_state .., ?_, ?_, ?_, ?_, ?_, ?_, ?_⟩
  · rw [flag_congr (fld_startTrim _ _ hc (by decide) (by decide))]
    exact (tooHot_flags s hc).1
  · rw [fld_startTrim _ _ hc (by decide) (by decide), hcurHot]
  · rw [startTrim_lower _ _ hc (by omega), State.clockMhz, State.clockMhz, flag_congr (fld_tooHot s hc (by decide) (by decide))]
  · rw [flag_of_keeps (startTrim_keeps _ _ hc) (f := F.PWR_THROT_THERM) ⟨Nat.one_pos, Nat.one_pos⟩ (by simp)]
    exact (tooHot_flags s hc).2
  · rw [startTrim_col, col_onlyRegs (tooHot_onlyRegs s)]
  · exact keeps_mono (keeps_trans (tooHot_keeps s hc) (startTrim_keeps _ _ hc)) (by simp)
  · exact onlyCols_trans (onlyCols_of_onlyRegs (tooHot_onlyRegs s)) (startTrim_onlyCols ..)

end

end

/-! ## Tokens -/

section
variable (s : State)

theorem withNorm_regs (l : List TollFor) : (s.withNorm l).regs = s.regs := rfl

theorem withNorm_withNorm (l l' : List TollFor) : (s.withNorm l).withNorm l' = s.withNorm l' := rfl

theorem paid_withNorm (l : List TollFor) (n : Nat) : (s.withNorm l).paid n = (s.paid n).withNorm l := by
  rw [State.paid, withNorm_setFld, State.fld_congr (withNorm_regs ..), State.paid]

/-- A request that finds both queues empty and its tokens there is granted at once. -/
theorem tollAsk_norm {q : TollFor} (hh : s.tollHigh = []) (hn : s.tollNorm = []) (hc : tollCost q ≤ s.fld F.PWR_TOLL_LEVEL) :
    s.tollAsk false [q] = ((s.paid (tollCost q)).tollBegin q).tollShow := by
  have hback : ((s.withNorm [q]).paid (tollCost q)).withNorm [] = s.paid (tollCost q) := by
    rw [paid_withNorm, withNorm_withNorm]
    exact withNorm_self ((State.setFld_tollNorm ..).trans hn)
  have hask : s.tollAsk false [q] = (s.withNorm (s.tollNorm ++ [q])).tollRun := rfl
  rw [hask, hn, List.nil_append, tollRun_norm (s := s.withNorm [q]) hh rfl hc, hback]

end

end Sys2Proof.Machine
end

section
/-! Requests at the toll gate, and a column that is ready (R447, R450, R453). -/
namespace Sys2Proof.Machine

section
variable {s t : State} (h : s.onlyRegs t)
include h
theorem onlyRegs_tollHigh : t.tollHigh = s.tollHigh := by rw [show t = { s with regs := t.regs } from h]
theorem onlyRegs_tollNorm : t.tollNorm = s.tollNorm := by rw [show t = { s with regs := t.regs } from h]
theorem onlyRegs_cal : t.cal = s.cal := by rw [show t = { s with regs := t.regs } from h]
end

/-! ## A refill -/

section
variable (s : State)

/-- The level of the bucket after a refill. -/
def State.refilled (s : State) : State := s.setFld F.PWR_TOLL_LEVEL (min 8 (s.fld F.PWR_TOLL_LEVEL + 1))

theorem refilled_onlyRegs : s.onlyRegs s.refilled := onlyRegs_setFld ..

theorem refilled_keeps : s.keeps s.refilled [(.PWR_TOLL, 0, 0)] := keeps_setFld s F.PWR_TOLL_LEVEL _ ⟨Nat.one_pos, Nat.one_pos⟩

theorem refilled_level : s.refilled.fld F.PWR_TOLL_LEVEL = min 8 (s.fld F.PWR_TOLL_LEVEL + 1) :=
  fld_setFld_eq _ _ (by decide) (show min 8 (s.fld F.PWR_TOLL_LEVEL + 1) < 2 ^ 4 by omega)

theorem refilled_tolls : s.refilled.tollHigh = s.tollHigh ∧ s.refilled.tollNorm = s.tollNorm :=
  ⟨State.setFld_tollHigh .., State.setFld_tollNorm ..⟩

theorem exec_tollRefill (dt : Nat) : exec (.tollRefill dt) s = .next (s.tick dt).refilled.tollRun := rfl

/-- A refill that grants nothing. -/
theorem refill_only {u : State} (hrun : u.tollRun = u.tollShow) (hu : s.onlyRegs u) (hk : s.keeps u [(.PWR_TOLL, 0, 0)]) :
    u.tollRun.fld F.PWR_TOLL_LEVEL = u.fld F.PWR_TOLL_LEVEL ∧ s.keeps u.tollRun ((.PWR_TOLL, 0, 0) :: colRegs) ∧ s.onlyRegs u.tollRun := by
  rw [hrun]
  exact ⟨tollShow_level u, keeps_mono (keeps_trans hk (tollShow_keeps u)) (by simp), onlyRegs_trans hu (tollShow_onlyRegs u)⟩

/-- The registers as the grant of a domain leaves them. -/
def State.domGranted (s : State) (d : Nat) : State := (s.paid (domCost d)).setFld F.PWR_DOM_STATE 3 d

/-- The one request, for a domain, granted. -/
theorem tollRun_dom {high : Bool} {d : Nat} (h : if high then s.tollHigh = [.dom d] ∧ s.tollNorm = [] else s.tollHigh = [] ∧ s.tollNorm = [.dom d])
    (hc : domCost d ≤ s.fld F.PWR_TOLL_LEVEL) : s.tollRun = (s.domGranted d).noTolls.tollShow := by
  have hh' : (s.domGranted d).tollHigh = s.tollHigh := (State.setFld_tollHigh ..).trans (State.setFld_tollHigh ..)
  have hn' : (s.domGranted d).tollNorm = s.tollNorm := (State.setFld_tollNorm ..).trans (State.setFld_tollNorm ..)
  cases high
  · obtain ⟨hh, hn⟩ : s.tollHigh = [] ∧ s.tollNorm = [.dom d] := h
    have hrun : s.tollRun = (((s.paid (domCost d)).withNorm []).setFld F.PWR_DOM_STATE 3 d).tollShow := by
      rw [tollRun_norm hh hn hc]
      rfl
    rw [hrun, withNorm_setFld, ← State.domGranted, State.noTolls, withHigh_self (hh'.trans hh)]
  · obtain ⟨hh, hn⟩ : s.tollHigh = [.dom d] ∧ s.tollNorm = [] := h
    have hrun : s.tollRun = (((s.paid (domCost d)).withHigh []).setFld F.PWR_DOM_STATE 3 d).tollShow := by
      rw [tollRun_high hh hn hc]
      rfl
    rw [hrun, withHigh_setFld, ← State.domGranted, State.noTolls, ← withHigh_withNorm, withNorm_self (hn'.trans hn)]

theorem domGranted_onlyRegs (d : Nat) : s.onlyRegs (s.domGranted d) := onlyRegs_trans (paid_onlyRegs ..) (onlyRegs_setFld ..)

theorem noTolls_regs : s.noTolls.regs = s.regs := rfl

theorem noTolls_tolls : s.noTolls.tollHigh = [] ∧ s.noTolls.tollNorm = [] := ⟨rfl, rfl⟩

theorem domGranted_leaves {d : Nat} (hd : d < 15) : let t := (s.domGranted d).noTolls.tollShow
    t.fld F.PWR_TOLL_LEVEL = s.fld F.PWR_TOLL_LEVEL - domCost d ∧ t.tollHigh = [] ∧ t.tollNorm = [] ∧ t.fld F.PWR_DOM_STATE d = 3 ∧
    s.keeps t ((.PWR_TOLL, 0, 0) :: (.PWR_DOM, d, 0) :: colRegs) := by
  have hshow := tollShow_onlyRegs (s.domGranted d).noTolls
  have hdom : regHas .PWR_DOM d 0 := ⟨hd, Nat.one_pos⟩
  have hkeeps : s.keeps (s.domGranted d) [(.PWR_TOLL, 0, 0), (.PWR_DOM, d, 0)] :=
    keeps_trans (paid_keeps s _) (keeps_setFld _ F.PWR_DOM_STATE _ hdom)
  refine ⟨?_, ?_, ?_, ?_, keeps_mono (keeps_trans (keeps_congr (noTolls_regs _) hkeeps) (tollShow_keeps _)) ?_⟩
  · rw [tollShow_level, State.fld_congr (noTolls_regs _), State.domGranted, fld_setFld_foreign (n := 15) (m := 1) _ _ hd Nat.one_pos (by decide),
      paid_level]
  · exact (onlyRegs_tollHigh hshow).trans (noTolls_tolls _).1
  · exact (onlyRegs_tollNorm hshow).trans (noTolls_tolls _).2
  · rw [fld_of_keeps (tollShow_keeps _) (f := F.PWR_DOM_STATE) hdom (List.not_mem_cons_of_ne_of_not_mem (by simp) (not_mem_colRegs (by decide))),
      State.fld_congr (noTolls_regs _), State.domGranted, fld_setFld_eq _ _ (by decide) (by decide)]
  · intro x hx
    simp only [List.mem_append, List.mem_cons, List.not_mem_nil, or_false] at hx ⊢
    tauto

end

/-! ## Thermal step-up -/

section
variable (s : State) {c : Nat} (hc : c < 34)
include hc

theorem stepUp_leaves (hst : s.fld F.PWR_COL_STATE c = 0) (hem : s.flag F.PWR_COL_EMERG c = true)
    (hop : s.fld F.PWR_COL_CUR_OP c < s.fld F.PWR_COL_REQ_OP c) (hh : s.tollHigh = []) (hn : s.tollNorm = []) (hl : 0 < s.fld F.PWR_TOLL_LEVEL) :
    let t := s.tollAsk false [.rethrow c]
    t.fld F.PWR_TOLL_LEVEL = s.fld F.PWR_TOLL_LEVEL - 1 ∧ t.fld F.PWR_COL_STATE c = 2 ∧ t.fld F.PWR_COL_CUR_OP c = s.fld F.PWR_COL_CUR_OP c ∧
    t.flag F.PWR_COL_EMERG c = true ∧ t.col c = { s.col c with trimTo := some (s.fld F.PWR_COL_CUR_OP c + 1) } ∧
    s.keeps t ((.PWR_TOLL, 0, 0) :: colRegs) ∧ s.onlyCols t := by
  have hcur : (s.paid 1).fld F.PWR_COL_CUR_OP c = s.fld F.PWR_COL_CUR_OP c := fld_paid s 1 hc (by decide)
  have hreq : (s.paid 1).fld F.PWR_COL_REQ_OP c = s.fld F.PWR_COL_REQ_OP c := fld_paid s 1 hc (by decide)
  have hbegin : (s.paid 1).tollBegin (.rethrow c) = (s.paid 1).startTrim c (s.fld F.PWR_COL_CUR_OP c + 1) := by
    rw [State.tollBegin, hcur, hreq, fld_paid s 1 hc (by decide), if_pos ⟨hst, hop⟩]
  have hask : s.tollAsk false [.rethrow c] = ((s.paid 1).startTrim c (s.fld F.PWR_COL_CUR_OP c + 1)).tollShow := by
    rw [← hbegin]
    exact tollAsk_norm s hh hn hl
  have hkeeps := startTrim_higher (s.paid 1) (s.fld F.PWR_COL_CUR_OP c + 1) hc (by omega)
  rw [hask]
  refine ⟨?_, ?_, ?_, ?_, ?_, ?_, ?_⟩
  · rw [tollShow_level, fld_of_keeps hkeeps (f := F.PWR_TOLL_LEVEL) ⟨Nat.one_pos, Nat.one_pos⟩ (by simp), paid_level]
  · rw [fld_tollShow_col _ hc rfl (by decide), startTrim_state]
  · rw [fld_tollShow_col _ hc rfl (by decide), fld_startTrim _ _ hc (by decide) (by decide), hcur]
  · rw [flag_congr (fld_tollShow_col _ hc rfl (by decide)), flag_congr (fld_startTrim _ _ hc (by decide) (by decide)),
      flag_congr (fld_paid s 1 hc (by decide)), hem]
  · rw [col_onlyRegs (tollShow_onlyRegs _), startTrim_col, col_onlyRegs (paid_onlyRegs s 1)]
  · refine keeps_mono (keeps_trans (paid_keeps s 1) (keeps_trans hkeeps (tollShow_keeps _))) fun x hx => ?_
    simp only [List.mem_append, List.mem_cons, List.not_mem_nil, or_false] at hx
    obtain rfl | rfl | rfl | hx := hx
    · simp
    · exact List.mem_cons_of_mem _ (mem_colRegs hc)
    · simp
    · exact List.mem_cons_of_mem _ hx
  · exact onlyCols_trans (onlyCols_of_onlyRegs (paid_onlyRegs s 1))
      (onlyCols_trans (startTrim_onlyCols ..) (onlyCols_of_onlyRegs (tollShow_onlyRegs _)))

/-! ## A column is ready -/

/-- The registers of a column that is ready to run after PARK. -/
def State.unparked (s : State) (c : Nat) : State :=
  (s.setFld F.PWR_COL_STATE 0 c).setFld F.PWR_COL_CUR_OP ((s.setFld F.PWR_COL_STATE 0 c).fld F.PWR_COL_REQ_OP c) c

omit hc in
theorem unparked_onlyRegs : s.onlyRegs (s.unparked c) := onlyRegs_setFld_setFld ..

theorem unparked_keeps : s.keeps (s.unparked c) [(.PWR_COL, c, 0)] :=
  keeps_setFld_setFld (f := F.PWR_COL_STATE) (g := F.PWR_COL_CUR_OP) s _ _ rfl ⟨hc, Nat.one_pos⟩

theorem unparked_fields : (s.unparked c).fld F.PWR_COL_STATE c = 0 ∧ (s.unparked c).fld F.PWR_COL_CUR_OP c = s.fld F.PWR_COL_REQ_OP c := by
  have hfit : s.fld F.PWR_COL_REQ_OP c < 2 ^ F.PWR_COL_CUR_OP.w := bitsOf_lt ..
  rw [State.unparked, fld_setFld_at (g := F.PWR_COL_REQ_OP) _ _ hc (by decide), fld_setFld_eq (f := F.PWR_COL_CUR_OP) _ _ (by decide) hfit,
    fld_setFld_at _ _ hc (by decide), fld_setFld_eq _ _ (by decide) (by decide)]
  exact ⟨rfl, rfl⟩

theorem fld_unparked {f : Fld} (hs : F.PWR_COL_STATE.apart f 34 = true) (hf : F.PWR_COL_CUR_OP.apart f 34 = true) :
    (s.unparked c).fld f c = s.fld f c := by
  rw [State.unparked, fld_setFld_at _ _ hc hf, fld_setFld_at _ _ hc hs]

omit hc in
/-- A commit that asks a running column for the point it is at. -/
theorem colCommit_same (hst : s.fld F.PWR_COL_STATE c = 0) (hreq : s.fld F.PWR_COL_REQ c = 0)
    (hop : s.fld F.PWR_COL_REQ_OP c = s.fld F.PWR_COL_CUR_OP c) :
    s.colCommit c false = s.setCol c { s.col c with leaving := none } := by
  unfold State.colCommit
  dsimp only
  rw [hst, hreq, hop]
  simp only [Nat.zero_ne_one, OfNat.zero_ne_ofNat, false_and, or_self, if_false, ne_eq, not_true_eq_false, lt_irrefl, ite_self]

/-- A column that is back from PARK. -/
def State.columnBack (s : State) (c : Nat) : State :=
  let u := (s.unparked c).setCol c { s.col c with starting := false }
  u.setMhz c (u.fld F.PWR_COL_CUR_OP c)

omit hc in
theorem calUnskip_of_none (h : ∀ e ∈ s.cal, e.2.skip = false) (p : Nat → Bool) : s.calUnskip p = s := by
  have hnone : (s.cal.filter fun e => e.2.skip && p e.1) = [] := List.filter_eq_nil_iff.2 fun e he => by rw [h e he]; nofun
  rw [State.calUnskip, hnone]
  rfl

omit hc in
theorem setCol_cal (x : ColSt) : (s.setCol c x).cal = s.cal := rfl

theorem domainReady_column (ref : Bool) (hx : (s.col c).starting = true) (hl : (s.col c).leaving = none) (hst : s.fld F.PWR_COL_STATE c = 1)
    (hreq : s.fld F.PWR_COL_REQ c = 0) (hcal : ∀ e ∈ s.cal, e.2.skip = false) :
    s.domainReady (15 + c) ref = (s.columnBack c).colCommit c false := by
  have hreq' : (s.setFld F.PWR_COL_STATE 0 c).fld F.PWR_COL_REQ c = 0 := (fld_setFld_at s _ hc (by decide)).trans hreq
  have hcol : (s.unparked c).col c = s.col c := col_onlyRegs (unparked_onlyRegs s) c
  unfold State.domainReady
  dsimp only
  rw [if_pos (Nat.le_add_right ..), Nat.add_sub_cancel_left, hx, hl, hst, hreq, if_pos (by simp)]
  simp only [Nat.zero_ne_one, if_false, if_true, Nat.reduceEqDiff]
  rw [← State.unparked, hcol, calUnskip_of_none]
  · rw [State.columnBack]
  · rw [setCol_cal, onlyRegs_cal (unparked_onlyRegs s)]
    exact hcal

end

end Sys2Proof.Machine
end

section
/-! The toll gate and the columns, as O55 states them. -/
namespace Sys2Proof.Machine

section
variable (s : State) {c : Nat} (hc : c < 34)
include hc

omit hc in
theorem columnBack_onlyCols : s.onlyCols (s.columnBack c) :=
  onlyCols_trans (onlyCols_of_onlyRegs (unparked_onlyRegs s)) (onlyCols_trans (onlyCols_setCol _ c { s.col c with starting := false })
    (onlyCols_of_onlyRegs (setMhz_onlyRegs ..)))

theorem fld_columnBack {f : Fld} (hm : F.CLK_COL_MHZ.foreign f 34 34 = true) : (s.columnBack c).fld f c = (s.unparked c).fld f c := by
  rw [State.columnBack, fld_setMhz _ _ _ hc hc hm, fld_setCol]

theorem columnBack_leaves : (s.columnBack c).fld F.PWR_COL_STATE c = 0 ∧ (s.columnBack c).fld F.PWR_COL_CUR_OP c = s.fld F.PWR_COL_REQ_OP c ∧
    (s.columnBack c).fld F.CLK_COL_MHZ c = s.clockMhz c (s.fld F.PWR_COL_REQ_OP c) ∧ (s.columnBack c).col c = { s.col c with starting := false } ∧
    s.keeps (s.columnBack c) [(.PWR_COL, c, 0), (.CLK_COL, c, 0)] := by
  obtain ⟨hst, hcur⟩ := unparked_fields s hc
  refine ⟨?_, ?_, ?_, ?_, ?_⟩
  · rw [fld_columnBack s hc (by decide), hst]
  · rw [fld_columnBack s hc (by decide), hcur]
  · rw [State.columnBack, setMhz_mhz, fld_setCol, hcur, State.clockMhz, State.clockMhz, flag_setCol,
      flag_congr (fld_unparked s hc (f := F.PWR_COL_HALVED) (by decide) (by decide))]
  · rw [State.columnBack, col_onlyRegs (setMhz_onlyRegs ..), col_setCol_same]
  · exact keeps_trans (keeps_setCol (unparked_keeps s hc) c { s.col c with starting := false }) (setMhz_keeps _ _ hc)

theorem columnReady_leaves (hl : (s.col c).leaving = none) (hreq : s.fld F.PWR_COL_REQ c = 0) : let t := (s.columnBack c).colCommit c false
    t.fld F.PWR_COL_STATE c = 0 ∧ t.fld F.PWR_COL_CUR_OP c = s.fld F.PWR_COL_REQ_OP c ∧
    t.fld F.CLK_COL_MHZ c = s.clockMhz c (s.fld F.PWR_COL_REQ_OP c) ∧ t.col c = { s.col c with starting := false } ∧
    s.keeps t [(.PWR_COL, c, 0), (.CLK_COL, c, 0)] ∧ s.onlyCols t := by
  obtain ⟨hst, hcur, hmhz, hcol, hkeeps⟩ := columnBack_leaves s hc
  have hreq : (s.columnBack c).fld F.PWR_COL_REQ c = 0 := by
    rw [fld_columnBack s hc (by decide), fld_unparked s hc (by decide) (by decide), hreq]
  have hop : (s.columnBack c).fld F.PWR_COL_REQ_OP c = (s.columnBack c).fld F.PWR_COL_CUR_OP c := by
    rw [hcur, fld_columnBack s hc (by decide), fld_unparked s hc (by decide) (by decide)]
  have hx : ({ s.col c with starting := false, leaving := none } : ColSt) = { s.col c with starting := false } := by rw [← hl]
  rw [colCommit_same _ hst hreq hop, hcol]
  refine ⟨?_, ?_, ?_, ?_, keeps_setCol hkeeps _ _, onlyCols_trans (columnBack_onlyCols s) (onlyCols_setCol ..)⟩
  · rw [fld_setCol, hst]
  · rw [fld_setCol, hcur]
  · rw [fld_setCol, hmhz]
  · rw [col_setCol_same, hx]

end

section
variable {s : State} (dt : Nat)

theorem bootTest_of_ready {u : State} (h : u.fld F.DEV_START_STAGE = 8) : u.bootTest = u := by
  rw [State.bootTest, h]
  exact if_neg (by simp)

theorem onlyCols_seq {s t : State} (h : s.onlyCols t) : t.seq = s.seq := by rw [show t = _ from h]

theorem exec_domainReady_column {c : Nat} (h : 15 + c < 49) (ref iref : Bool) {t : State}
    (ht : (s.tick dt).domainReady (15 + c) ref = t) (hseq : t.seq = (s.tick dt).seq) (hstage : t.fld F.DEV_START_STAGE = 8) :
    exec (.domainReady dt ⟨15 + c, h⟩ ref iref) s = .next t := by
  have hnot : ¬ ((s.tick dt).seq.wake = some 1 ∧ (s.tick dt).seq.wake.isNone = true) := fun ⟨h1, h2⟩ => by
    rw [h1] at h2
    cases h2
  have hd : ¬ (15 + c = 1 ∨ 15 + c = 2 ∨ 15 + c = 4) := by omega
  change execDomainReady dt ⟨15 + c, h⟩ ref iref s = _
  unfold execDomainReady
  dsimp only
  rw [ht, if_neg hd, hseq, if_neg hnot, if_pos (Nat.le_add_right ..), bootTest_of_ready hstage]

theorem exec_columnOff {c : Nat} (h : 15 + c < 49) (he : s.seq.entry = none) (ha : s.seq.abandon = false)
    (hl : (s.col c).leaving = some 3) : exec (.domainSwitchedOff dt ⟨15 + c, h⟩) s = .next ((s.tick dt).colOff c) := by
  have he : (s.tick dt).seq.entry = none := he
  have ha : (s.tick dt).seq.abandon = false := ha
  have hl : ((s.tick dt).col c).leaving = some 3 := hl
  change execDomainSwitchedOff dt ⟨15 + c, h⟩ s = _
  unfold execDomainSwitchedOff
  dsimp only
  rw [he]
  dsimp only
  rw [ha, if_neg (by nofun), if_pos (Nat.le_add_right ..), Nat.add_sub_cancel_left, hl]
  rfl

theorem exec_thermalStepDown {c : Fin 34} (hst : s.fld F.PWR_COL_STATE c = 0) (hcur : 0 < s.fld F.PWR_COL_CUR_OP c) :
    exec (.thermalStepDown dt c) s = .next (((s.tick dt).tooHot c).startTrim c (s.fld F.PWR_COL_CUR_OP c - 1)) := by
  have hst : (s.tick dt).fld F.PWR_COL_STATE c = 0 := hst
  have hcur' : ((s.tick dt).tooHot c).fld F.PWR_COL_CUR_OP c = s.fld F.PWR_COL_CUR_OP c := fld_tooHot (s.tick dt) c.isLt (by decide) (by decide)
  change execThermalStepDown dt c s = _
  unfold execThermalStepDown
  dsimp only
  rw [hst, if_pos (.inl rfl), if_neg (by decide), ← State.tooHot, hcur', if_neg (by omega)]

theorem exec_thermalStepUp {c : Fin 34} (hst : s.fld F.PWR_COL_STATE c = 0) (hem : s.flag F.PWR_COL_EMERG c = true)
    (hop : s.fld F.PWR_COL_CUR_OP c < s.fld F.PWR_COL_REQ_OP c) (hh : s.tollHigh = []) (hn : s.tollNorm = []) :
    exec (.thermalStepUp dt c) s = .next ((s.tick dt).tollAsk false [.rethrow c]) := by
  have hst : (s.tick dt).fld F.PWR_COL_STATE c = 0 := hst
  have hem : (s.tick dt).flag F.PWR_COL_EMERG c = true := hem
  have hop : ¬ (s.tick dt).fld F.PWR_COL_REQ_OP c ≤ (s.tick dt).fld F.PWR_COL_CUR_OP c := Nat.not_le.2 hop
  have hh : (s.tick dt).tollHigh = [] := hh
  have hn : (s.tick dt).tollNorm = [] := hn
  change execThermalStepUp dt c s = _
  unfold execThermalStepUp
  dsimp only
  rw [hh, hn, if_pos ⟨hem, hst⟩, if_neg hop, if_neg (by nofun)]

theorem exec_trimComplete {c : Fin 34} (hst : s.fld F.PWR_COL_STATE c = 2) : exec (.trimComplete dt c) s = .next ((s.tick dt).trimEnd c) :=
  if_pos hst

theorem exec_halvingEnd {k : Nat} (hk : k < 34) (h : s.flag F.PWR_COL_HALVED k = true) (still : Bool) :
    exec (.halvingEnd dt still) s = .next (if still then (s.tick dt).inc F.PWR_THROT_HALVINGS else (s.tick dt).halve false) := by
  have hany : (List.range 34).any (fun c => (s.tick dt).flag F.PWR_COL_HALVED c) = true := List.any_eq_true.2 ⟨k, List.mem_range.2 hk, h⟩
  change execHalvingEnd dt still s = _
  unfold execHalvingEnd
  dsimp only
  rw [if_pos hany]
  cases still <;> rfl

end

/-- The queues emptied between register writes. -/
theorem noTolls_onlyRegs {s t u : State} (h : s.onlyRegs t) (h' : t.noTolls.onlyRegs u) :
    u = { s with regs := u.regs, tollHigh := [], tollNorm := [] } := by
  rw [State.onlyRegs] at h h'
  rw [h', h]
  rfl

/-- The cap: its flag, and the note to the MC. -/
def State.capNoted (s : State) : State := s.setFld F.PWR_THROT_CAP 1

section
variable (s : State)

theorem capNoted_onlyRegs : s.onlyRegs s.capNoted := onlyRegs_setFld ..

theorem capNoted_leaves (r : Report) : (s.capNoted.tell r).flag F.PWR_THROT_CAP = true ∧ s.keeps (s.capNoted.tell r) [(.PWR_THROT, 0, 0)] := by
  have hregs : (s.capNoted.tell r).regs = s.capNoted.regs := rfl
  rw [State.flag, State.fld_congr hregs, ← State.flag, State.capNoted, flag_setFld_same _ _ _ _ _ (by decide)]
  exact ⟨rfl, keeps_congr hregs (keeps_setFld s F.PWR_THROT_CAP 1 ⟨Nat.one_pos, Nat.one_pos⟩)⟩

/-- A report after register writes changes the output alone. -/
theorem tell_onlyRegs {s t : State} (h : s.onlyRegs t) (r : Report) : (t.tell r).out = s.out ++ [.report r] ∧
    t.tell r = { s with regs := (t.tell r).regs, out := (t.tell r).out } := by
  rw [show t = { s with regs := t.regs } from h]
  exact ⟨rfl, rfl⟩

end

end Sys2Proof.Machine
end

section
namespace Sys2Proof.Machine

/-- Settles O55: the lemmas about the gate's queues, the points of a column and the halving window, for each event. -/
theorem tollGateAndColumns : Obligations.TollGateAndColumns := by
  intro dt s cols up mhz
  refine ⟨?_, fun c => ?_, ?_, fun k hk hhalved => ?_, ?_⟩
  · intro lv
    have hlv : (s.tick dt).refilled.fld F.PWR_TOLL_LEVEL = lv := refilled_level (s.tick dt)
    have hon := refilled_onlyRegs (s.tick dt)
    have hkeeps := refilled_keeps (s.tick dt)
    obtain ⟨hhigh, hnorm⟩ := refilled_tolls (s.tick dt)
    refine ⟨fun hh hn => ?_, fun q qs hq hcost => ?_, fun high d hd hqs hcost => ?_⟩
    · have hrun := tollRun_empty (hhigh.trans hh) (hnorm.trans hn)
      obtain ⟨hlevel, hk, hr⟩ := refill_only _ hrun hon hkeeps
      have hshown := tollShow_lengths (s.tick dt).refilled
      refine ⟨_, exec_tollRefill s dt, hlevel.trans hlv, ?_, ?_, keeps_of_tick hk, hr⟩
      · rw [hrun, hshown.1, hhigh.trans hh]
        rfl
      · rw [hrun, hshown.2, hnorm.trans hn]
        rfl
    · have hrun := tollRun_waits (hhigh.trans hq) (hlv.trans_lt hcost)
      obtain ⟨hlevel, hk, hr⟩ := refill_only _ hrun hon hkeeps
      exact ⟨_, exec_tollRefill s dt, hlevel.trans hlv, keeps_of_tick hk, hr⟩
    · have hrun := tollRun_dom (s.tick dt).refilled (high := high) (d := d) (by rw [hhigh, hnorm]; exact hqs) (hcost.trans hlv.ge)
      obtain ⟨hlevel, hh, hn, hdom, hk⟩ := domGranted_leaves (s.tick dt).refilled hd
      refine ⟨_, (exec_tollRefill s dt).trans (congrArg _ hrun), hlevel.trans (congrArg (· - domCost d) hlv), hh, hn, hdom,
        keeps_of_tick (keeps_mono (keeps_trans hkeeps hk) (List.append_subset.2 ⟨?_, fun _ => id⟩)),
        noTolls_onlyRegs (onlyRegs_trans hon (domGranted_onlyRegs ..)) (tollShow_onlyRegs _)⟩
      exact List.cons_subset.2 ⟨List.mem_cons_self .., List.nil_subset _⟩
  · intro cur st x
    refine ⟨fun hst hcur => ?_, fun hst hem hop hh hn hl => ?_, fun op hop hst ht hd hw => ?_, fun h hstage hx hl hst hreq hcal ref iref => ?_,
      fun h he ha hl => ?_⟩
    · obtain ⟨h1, h2, h3, h4, h5, h6, h7, h8⟩ := stepDown_leaves (s.tick dt) c.isLt hcur
      exact ⟨_, exec_thermalStepDown dt hst hcur, h1, h2, h3, h4, h5, h6, keeps_of_tick h7, h8⟩
    · obtain ⟨h1, h2, h3, h4, h5, h6, h7⟩ := stepUp_leaves (s.tick dt) c.isLt hst hem hop hh hn hl
      exact ⟨_, exec_thermalStepUp dt hst hem hop hh hn, h1, h2, h3, h4, h5, keeps_of_tick h6, h7⟩
    · obtain ⟨h1, h2, h3, h4, h5, h6, h7⟩ := trimEnd_leaves (s.tick dt) c.isLt hop ht hd hw
      exact ⟨_, exec_trimComplete dt hst, h1, h2, h3, h4, h5, keeps_of_tick h6, h7⟩
    · obtain ⟨h1, h2, h3, h4, h5, h6⟩ := columnReady_leaves (s.tick dt) c.isLt hl hreq
      have hready := domainReady_column (s.tick dt) c.isLt ref hx hl hst hreq hcal
      refine ⟨_, exec_domainReady_column dt h ref iref hready ?_ ?_, h1, h2, h3, h4, keeps_of_tick h5, h6⟩
      · exact onlyCols_seq h6
      · exact (fld_of_keeps h5 (f := F.DEV_START_STAGE) ⟨by decide, by decide⟩ (by simp)).trans hstage
    · obtain ⟨h1, h2, h3⟩ := colOff_fields (s.tick dt) c.isLt
      have htile (j : Nat) := colOff_tile (s.tick dt) (c := c) j
      refine ⟨_, exec_columnOff dt h he ha hl, h1, h2, h3, fun r hr => ⟨?_, colOff_tState _ c.isLt hr⟩, colOff_col _, fun j hj => ?_,
        fun g i j hg hin hn => colOff_reg (s.tick dt) c.isLt hg hin hn, colOff_onlyTiles _⟩
      · rw [htile, if_pos (by omega)]
      · exact (htile j).trans (if_neg fun e => hj (Fin.ext e))
  · obtain ⟨h1, h2, h3, h4, h5⟩ := overcurrent_halves (s.tick dt)
    exact ⟨_, rfl, h1, h2, fun c hc => h3 c hc, keeps_of_tick h4, h5⟩
  · refine ⟨⟨_, exec_halvingEnd dt hk hhalved true, ?_, keeps_of_tick (inc_keeps_throt _), onlyRegs_inc ..⟩,
      ⟨_, exec_halvingEnd dt hk hhalved false, fun c hc => halve_inWindow false (s.tick dt) hc, keeps_of_tick (halve_keeps false _), halve_onlyRegs false _⟩⟩
    exact State.fld_inc_same _ _ _ _ (by decide)
  · obtain ⟨h1, h2⟩ := capNoted_leaves (s.tick dt) (.note 1 (s.fld F.PWR_LIMIT_CAP_A))
    obtain ⟨h3, h4⟩ := tell_onlyRegs (capNoted_onlyRegs (s.tick dt)) (.note 1 (s.fld F.PWR_LIMIT_CAP_A))
    exact ⟨_, rfl, h1, h3, keeps_of_tick h2, h4⟩

end Sys2Proof.Machine
end

section
/-! The way down: emergency entry, and an MC write of PWR_DSTATE (R443 to R445, R450). -/
namespace Sys2Proof.Machine

/-- A log entry, as `logs` names it. -/
theorem logs_logE (s : State) (src code : Nat) (args : List Nat) : s.logs (s.logE src code args) src code args :=
  ⟨s.logEntry src code args, rfl, rfl, rfl, rfl, rfl, rfl, logE_log .., logE_logNext ..⟩

theorem logs_congr {s s' t t' : State} {src code : Nat} {args : List Nat} (h : s.logs t src code args) (hl : s'.log = s.log)
    (hn : s'.logNext = s.logNext) (hl' : t'.log = t.log) (hn' : t'.logNext = t.logNext) : s'.logs t' src code args := by
  obtain ⟨e, h1, h2, h3, h4, h5, h6, h7, h8⟩ := h
  exact ⟨e, h1.trans hn.symm, h2, h3, h4, h5, h6, by rw [hl', hl, h7], by rw [hn', hn, h8]⟩

/-- `t` is on the way down from `s` to `tgt` (R445). -/
structure State.GoesDown (s t : State) (tgt : Nat) : Prop where
  busy : t.flag F.PWR_STAT_BUSY = true
  dstate : t.fld F.PWR_STAT_DSTATE = s.fld F.PWR_STAT_DSTATE
  high : t.tollHigh = []
  norm : t.tollNorm = []
  seq : t.seq = s.seq.entering tgt
  leaving : ∀ c < 34, s.fld F.PWR_COL_STATE c ≠ 3 → (t.col c).leaving = some 3
  mem : s.sameMemory t
  keeps : s.keeps t ((.PWR_STAT, 0, 0) :: (.PWR_TOLL, 0, 0) :: colRegs)

theorem entered_goesDown (s : State) (tgt : Nat) : s.GoesDown (s.entered tgt) tgt where
  busy := entered_busy ..
  dstate := fld_entered_apart s tgt rfl (by decide)
  high := (entered_tolls ..).1
  norm := (entered_tolls ..).2
  seq := entered_seq ..
  leaving _ hc h := entered_leaving s tgt hc h
  mem := onlyPower_sameMemory (entered_onlyPower ..)
  keeps := entered_keeps s tgt

/-! ## Emergency entry -/

section
variable (s : State) (tgt cause : Nat)

/-- EMERG, and the log entry that names the cause. -/
def State.alarmed (s : State) (cause : Nat) : State := (s.setFld F.PWR_STAT_EMERG 1).logE 0 0xE007 [cause, 0, 0, 0]

theorem emergency_eq : s.emergency tgt cause = (s.alarmed cause).enter tgt := rfl

theorem alarmed_regs : (s.alarmed cause).regs = (s.setFld F.PWR_STAT_EMERG 1).regs := State.logE_regs ..

theorem alarmed_keeps : s.keeps (s.alarmed cause) [(.PWR_STAT, 0, 0)] :=
  keeps_congr (alarmed_regs s cause) (keeps_setFld s F.PWR_STAT_EMERG 1 ⟨Nat.one_pos, Nat.one_pos⟩)

theorem fld_alarmed {f : Fld} {i m : Nat} (hi : i < m) (hf : F.PWR_STAT_EMERG.foreign f 1 m = true) : (s.alarmed cause).fld f i = s.fld f i := by
  rw [State.fld_congr (alarmed_regs s cause), fld_setFld_foreign _ _ Nat.one_pos hi hf]

theorem fld_alarmed_apart {f : Fld} (hf : F.PWR_STAT_EMERG.apart f 1 = true) : (s.alarmed cause).fld f = s.fld f := by
  rw [State.fld_congr (alarmed_regs s cause), fld_setFld_at _ _ Nat.one_pos hf]

theorem alarmed_emerg : (s.alarmed cause).flag F.PWR_STAT_EMERG = true := by
  rw [flag_congr (State.fld_congr (alarmed_regs s cause) ..), flag_setFld_same _ _ _ _ _ (by decide)]
  rfl

theorem alarmed_logs : s.logs (s.alarmed cause) 0 0xE007 [cause, 0, 0, 0] :=
  logs_congr (logs_logE ..) (State.setFld_log ..).symm (State.setFld_logNext ..).symm rfl rfl

theorem alarmed_sameMemory : s.sameMemory (s.alarmed cause) :=
  sameMemory_of_stores ((State.logE_depot ..).trans (State.setFld_depot ..)) ((State.logE_hbm ..).trans (State.setFld_hbm ..))

theorem domOn_alarmed {d : Nat} (hd : d < 15) : (s.alarmed cause).domOn d = s.domOn d := by
  rw [State.domOn, State.domOn, fld_alarmed s cause hd (by decide)]

theorem emergency_of_iod (h : s.domOn 2 = true) : s.emergency tgt cause = (s.alarmed cause).entered tgt :=
  enter_of_iod ((domOn_alarmed s cause (by decide)).trans h) tgt

theorem alarmed_entered_goesDown : s.GoesDown ((s.alarmed cause).entered tgt) tgt := by
  have h := entered_goesDown (s.alarmed cause) tgt
  refine ⟨h.busy, h.dstate.trans (fld_alarmed_apart s cause (by decide)), h.high, h.norm, ?_, fun c hc hst => h.leaving c hc ?_,
    sameMemory_trans (alarmed_sameMemory s cause) h.mem, keeps_mono (keeps_trans (alarmed_keeps s cause) h.keeps) (by simp)⟩
  · rw [h.seq, State.alarmed, State.logE_seq, State.setFld_seq]
  · rwa [fld_alarmed s cause hc (by decide)]

theorem flag_alarmed_entered {f : Fld} (hr : f.reg = .PWR_STAT) (hb : F.PWR_STAT_BUSY.apart f 1 = true) :
    ((s.alarmed cause).entered tgt).flag f = (s.alarmed cause).flag f := flag_congr (fld_entered_apart _ tgt hr hb)

theorem alarmed_entered_logs : s.logs ((s.alarmed cause).entered tgt) 0 0xE007 [cause, 0, 0, 0] := by
  have h := entered_onlyPower (s.alarmed cause) tgt
  exact logs_congr (alarmed_logs s cause) rfl rfl (onlyPower_log h) (by rw [show State.entered _ _ = _ from h])

end

/-! ## A thermal trip -/

section
variable (s : State)

/-- THERMTRIP_N low, and the hold on wakes, at a thermal trip. -/
def State.tripHold (s : State) : State := { s with thermtripN := false, seq := { s.seq with hold := s.aonNs + 10000000000 } }

/-- A thermal trip is noted. -/
def State.tripped (s : State) : State := (s.setFld F.PWR_STAT_THERMTRIP 1).tripHold

theorem tripHold_regs : s.tripHold.regs = s.regs := rfl
theorem tripHold_log : s.tripHold.log = s.log := rfl
theorem tripHold_logNext : s.tripHold.logNext = s.logNext := rfl
theorem tripHold_sameMemory : s.sameMemory s.tripHold := sameMemory_of_stores rfl rfl
theorem tripHold_thermtripN : s.tripHold.thermtripN = false := rfl
theorem tripHold_hold : s.tripHold.seq = { s.seq with hold := s.aonNs + 10000000000 } := rfl

theorem tripped_regs : s.tripped.regs = (s.setFld F.PWR_STAT_THERMTRIP 1).regs := tripHold_regs _

theorem tripped_keeps : s.keeps s.tripped [(.PWR_STAT, 0, 0)] :=
  keeps_congr (tripped_regs s) (keeps_setFld s F.PWR_STAT_THERMTRIP 1 ⟨Nat.one_pos, Nat.one_pos⟩)

theorem tripped_sameMemory : s.sameMemory s.tripped := sameMemory_trans (sameMemory_onlyRegs (onlyRegs_setFld ..)) (tripHold_sameMemory _)

theorem fld_tripped_apart {f : Fld} (hf : F.PWR_STAT_THERMTRIP.apart f 1 = true) : s.tripped.fld f = s.fld f := by
  rw [State.fld_congr (tripped_regs s), fld_setFld_at _ _ Nat.one_pos hf]

theorem fld_tripped {f : Fld} {i m : Nat} (hi : i < m) (hf : F.PWR_STAT_THERMTRIP.foreign f 1 m = true) : s.tripped.fld f i = s.fld f i := by
  rw [State.fld_congr (tripped_regs s), fld_setFld_foreign _ _ Nat.one_pos hi hf]

theorem tripped_thermtrip : s.tripped.flag F.PWR_STAT_THERMTRIP = true := by
  rw [flag_congr (State.fld_congr (tripped_regs s) ..), flag_setFld_same _ _ _ _ _ (by decide)]
  rfl

theorem tripped_seq : s.tripped.seq = { s.seq with hold := s.aonNs + 10000000000 } := by
  rw [State.tripped, tripHold_hold, State.setFld_seq, State.setFld_aonNs]

theorem exec_thermalTrip {dt : Nat} (hd : s.fld F.PWR_STAT_DSTATE = 0) : exec (.thermalTrip dt) s = .next ((s.tick dt).tripped.emergency 3 8) :=
  if_neg fun h => absurd (h.1.symm.trans hd) (by decide)

theorem tripped_goesDown {dt : Nat} (hd : s.fld F.PWR_STAT_DSTATE = 0) (he : s.seq.entry = none) (hiod : s.domOn 2 = true) :
    ∃ t, exec (.thermalTrip dt) s = .next t ∧ (s.tick dt).tripped.GoesDown t 3 ∧ t.seq.entry = some 3 ∧ t.seq.hold = s.aonNs + dt + 10000000000 ∧
      t.flag F.PWR_STAT_EMERG = true ∧ t.flag F.PWR_STAT_THERMTRIP = true ∧ t.thermtripN = false ∧ s.logs t 0 0xE007 [8, 0, 0, 0] := by
  obtain ⟨u, hu⟩ : ∃ u, u = (s.tick dt).tripped := ⟨_, rfl⟩
  have hdom : u.domOn 2 = true := by
    rw [State.domOn, hu, fld_tripped (m := 15) _ (by decide) (by decide)]
    exact hiod
  have hseq : u.seq = { s.seq with hold := s.aonNs + dt + 10000000000 } := hu ▸ tripped_seq (s.tick dt)
  have hdown := alarmed_entered_goesDown u 3 8
  rw [exec_thermalTrip s hd, ← hu]
  refine ⟨_, congrArg _ (emergency_of_iod u 3 8 hdom), hdown, ?_, ?_, ?_, ?_, ?_, ?_⟩
  · rw [hdown.seq, hseq]
    exact congrArg some (Seq.entryTo_of_none he 3)
  · rw [hdown.seq, hseq]
    rfl
  · rw [flag_alarmed_entered u 3 8 rfl (by decide), alarmed_emerg]
  · rw [flag_alarmed_entered u 3 8 rfl (by decide), flag_congr (fld_alarmed_apart u 8 (by decide)), hu, tripped_thermtrip]
  · rw [show State.entered _ _ = _ from entered_onlyPower (u.alarmed 8) 3]
    dsimp only
    rw [State.alarmed, State.logE_thermtripN, State.setFld_thermtripN, hu, State.tripped, tripHold_thermtripN]
  · exact logs_congr (alarmed_entered_logs u 3 8) (by rw [hu, State.tripped, tripHold_log]; rfl) (by rw [hu, State.tripped, tripHold_logNext]; rfl) rfl rfl

end

/-! ## PWR_DSTATE -/

section
variable {s : State} {dt : Nat} {v : Word}

theorem entering_entry {q : Seq} (h : q.entry = none) (tgt : Nat) : (q.entering tgt).entry = some tgt := congrArg some (Seq.entryTo_of_none h tgt)

theorem mayEnter_tick : (s.tick dt).mayEnter = s.mayEnter := rfl

theorem exec_pwrDstateWrite (ha : s.access (regAddr .PWR_DSTATE) 4 = .ok (hitOf .PWR_DSTATE 0 0)) (r : Requester) :
    exec (.pwrDstateWrite dt r v) s = .next ((s.tick dt).dstateWrite r v.toNat) :=
  congrArg Host.Outcome.next (accessing_of_ok (s := s.tick dt) ha r v.toNat fun _ => (s.tick dt).dstateWrite r v.toNat)

theorem dstateWrite_enters {u : State} (h31 : bitsOf v.toNat 31 1 = 1) (hodd : v.toNat % 2 = 1) (h : u.mayEnter = true) :
    u.dstateWrite .mc v.toNat = u.enter (v.toNat % 4) := by
  rw [State.dstateWrite, if_neg (by simp), if_neg (by omega), if_pos h]

theorem dstateWrite_refused {u : State} (h31 : bitsOf v.toNat 31 1 = 1) (hodd : v.toNat % 2 = 1) (h : u.mayEnter = false) :
    u.dstateWrite .mc v.toNat = (u.aelReg .mc (regAddr .PWR_DSTATE) 9 0 v.toNat).tell (.note 8 0x050A) := by
  rw [State.dstateWrite, if_neg (by simp), if_neg (by omega), if_neg (by rw [h]; nofun)]

theorem dstateWrite_other {u : State} {r : Requester} (hr : r ≠ .mc) :
    u.dstateWrite r v.toNat = u.aelReg r (regAddr .PWR_DSTATE) 11 0 v.toNat := by
  rw [State.dstateWrite, if_pos hr]

end

end Sys2Proof.Machine
end

section
/-! Wakes (R455 to R458), and the registers that the toll gate leaves alone. -/
namespace Sys2Proof.Machine

/-! ## Below the columns' registers -/

/-- `t` has the registers of `s` below those of the columns, PWR_TOLL excepted. -/
def State.keepsBelow (s t : State) : Prop :=
  ∀ (g : Reg) (i j : Nat), regAddr g i j < 0xB00100 → regAddr g i j ≠ regAddr .PWR_TOLL → t.reg g i j = s.reg g i j

/-- Is an address one that the toll gate writes: PWR_TOLL, or at or above the columns' registers. -/
def gateAddr (a : Nat) : Prop := 0xB00100 ≤ a ∨ a = regAddr .PWR_TOLL

theorem keepsBelow_refl (s : State) : s.keepsBelow s := fun _ _ _ _ _ => rfl

theorem keepsBelow_trans {s t u : State} (h : s.keepsBelow t) (h' : t.keepsBelow u) : s.keepsBelow u :=
  fun g i j hl hn => (h' g i j hl hn).trans (h g i j hl hn)

theorem keepsBelow_of_regs {s t : State} (h : t.regs = s.regs) : s.keepsBelow t := fun g i j _ _ => State.reg_congr h g i j

theorem keepsBelow_setFld (s : State) {f : Fld} (v : Nat) {i : Nat} (h : gateAddr (regAddr f.reg i)) : s.keepsBelow (s.setFld f v i) :=
  fun _ _ _ hl hn => s.reg_setFld_ne v fun e => h.elim (fun hge => by omega) fun ht => hn (e.trans ht)

theorem gateAddr_col (c : Nat) : gateAddr (regAddr .PWR_COL c) := .inl (by simp [regAddr, regRow])
theorem gateAddr_clk (c : Nat) : gateAddr (regAddr .CLK_COL c) := .inl (by simp [regAddr, regRow]; omega)
theorem gateAddr_dom (d : Nat) : gateAddr (regAddr .PWR_DOM d) := .inl (by simp [regAddr, regRow]; omega)
theorem gateAddr_toll : gateAddr (regAddr .PWR_TOLL) := .inr rfl

theorem fld_keepsBelow {s t : State} (h : s.keepsBelow t) {f : Fld} (hl : regAddr f.reg 0 < 0xB00100) (hn : regAddr f.reg 0 ≠ regAddr .PWR_TOLL) :
    t.fld f = s.fld f := congrArg (bitsOf · _ _) (h f.reg 0 0 hl hn)

/-! ## What the gate leaves alone -/

/-- `t` differs from `s` in registers, the columns' progress and the toll queues alone. -/
def State.onlyGate (s t : State) : Prop := t = { s with regs := t.regs, cols := t.cols, tollHigh := t.tollHigh, tollNorm := t.tollNorm }

theorem onlyGate_refl (s : State) : s.onlyGate s := rfl

theorem onlyGate_trans {s t u : State} (h : s.onlyGate t) (h' : t.onlyGate u) : s.onlyGate u := by
  rw [State.onlyGate] at h h' ⊢
  rw [h', h]

theorem onlyGate_of_onlyRegs {s t : State} (h : s.onlyRegs t) : s.onlyGate t := by
  rw [State.onlyGate, show t = { s with regs := t.regs } from h]

theorem onlyGate_of_onlyCols {s t : State} (h : s.onlyCols t) : s.onlyGate t := by
  rw [State.onlyGate, show t = { s with regs := t.regs, cols := t.cols } from h]

section
variable (s : State)

/-- What the gate leaves alone: the registers below the columns', and all but the columns' progress and the queues. -/
def State.gateOnly (t : State) : Prop := s.onlyGate t ∧ s.keepsBelow t

theorem gateOnly_refl : s.gateOnly s := ⟨onlyGate_refl s, keepsBelow_refl s⟩

theorem gateOnly_trans {s t u : State} (h : s.gateOnly t) (h' : t.gateOnly u) : s.gateOnly u :=
  ⟨onlyGate_trans h.1 h'.1, keepsBelow_trans h.2 h'.2⟩

theorem gateOnly_setFld {f : Fld} (v : Nat) {i : Nat} (h : gateAddr (regAddr f.reg i)) : s.gateOnly (s.setFld f v i) :=
  ⟨onlyGate_of_onlyRegs (onlyRegs_setFld ..), keepsBelow_setFld s v h⟩

theorem gateOnly_setCol (c : Nat) (x : ColSt) : s.gateOnly (s.setCol c x) :=
  ⟨onlyGate_of_onlyCols (onlyCols_setCol ..), keepsBelow_of_regs (setCol_regs ..)⟩

theorem gateOnly_withHigh (l : List TollFor) : s.gateOnly (s.withHigh l) := ⟨rfl, keepsBelow_of_regs rfl⟩

theorem gateOnly_withNorm (l : List TollFor) : s.gateOnly (s.withNorm l) := ⟨rfl, keepsBelow_of_regs rfl⟩

theorem gateOnly_startTrim (c op : Nat) : s.gateOnly (s.startTrim c op) := by
  rw [startTrim_eq]
  refine gateOnly_trans ?_ (gateOnly_trans (gateOnly_setFld (f := F.PWR_COL_STATE) _ _ (gateAddr_col c)) (gateOnly_setCol ..))
  unfold State.trimClock
  split
  · exact gateOnly_setFld (f := F.CLK_COL_MHZ) s _ (gateAddr_clk c)
  · exact gateOnly_refl s

theorem gateOnly_tollBegin (q : TollFor) : s.gateOnly (s.tollBegin q) := by
  cases q with
  | dom d => exact gateOnly_setFld (f := F.PWR_DOM_STATE) s _ (gateAddr_dom d)
  | colOn c => exact gateOnly_setCol ..
  | unpark c => exact gateOnly_setCol ..
  | raise c =>
    unfold State.tollBegin
    dsimp only
    split
    · exact gateOnly_startTrim ..
    · exact gateOnly_refl s
  | rethrow c =>
    unfold State.tollBegin
    dsimp only
    split
    · exact gateOnly_startTrim ..
    · exact gateOnly_refl s

theorem gateOnly_paid (n : Nat) : s.gateOnly (s.paid n) := gateOnly_setFld (f := F.PWR_TOLL_LEVEL) s _ gateAddr_toll

theorem gateOnly_tollGrant (n : Nat) : s.gateOnly (s.tollGrant n) := by
  induction n generalizing s with
  | zero => exact gateOnly_refl s
  | succ n ih =>
    cases hh : s.tollHigh with
    | cons q qs =>
      by_cases hc : tollCost q ≤ s.fld F.PWR_TOLL_LEVEL
      · rw [tollGrant_high n hh hc]
        exact gateOnly_trans (gateOnly_paid ..) (gateOnly_trans (gateOnly_withHigh ..) (gateOnly_trans (gateOnly_tollBegin ..) (ih _)))
      · rw [tollGrant_waits _ hh (Nat.not_le.1 hc)]
        exact gateOnly_refl s
    | nil =>
      cases hn : s.tollNorm with
      | nil =>
        rw [State.tollGrant, hh, hn]
        exact gateOnly_refl s
      | cons q qs =>
        by_cases hc : tollCost q ≤ s.fld F.PWR_TOLL_LEVEL
        · rw [tollGrant_norm n hh hn hc]
          exact gateOnly_trans (gateOnly_paid ..) (gateOnly_trans (gateOnly_withNorm ..) (gateOnly_trans (gateOnly_tollBegin ..) (ih _)))
        · rw [State.tollGrant, hh, hn]
          dsimp only
          rw [if_neg hc]
          exact gateOnly_refl s

theorem gateOnly_tollShow : s.gateOnly s.tollShow :=
  gateOnly_trans (gateOnly_trans (gateOnly_setFld (f := F.PWR_TOLL_QHIGH) s _ gateAddr_toll) (gateOnly_setFld (f := F.PWR_TOLL_QNORM) _ _ gateAddr_toll))
    (foldl_rel (f := State.showWait) gateOnly_refl gateOnly_trans (fun _ c => gateOnly_setFld (f := F.PWR_COL_TOLL_WAIT) _ _ (gateAddr_col c)) _ _)

theorem gateOnly_tollRun : s.gateOnly s.tollRun := gateOnly_trans (gateOnly_tollGrant ..) (gateOnly_tollShow _)

theorem gateOnly_tollAsk (high : Bool) (qs : List TollFor) : s.gateOnly (s.tollAsk high qs) := by
  cases high
  · exact gateOnly_trans (gateOnly_withNorm s (s.tollNorm ++ qs)) (gateOnly_tollRun _)
  · exact gateOnly_trans (gateOnly_withHigh s (s.tollHigh ++ qs)) (gateOnly_tollRun _)

end

section
variable {s t : State} (h : s.onlyGate t)
include h
theorem onlyGate_seq : t.seq = s.seq := by rw [show t = _ from h]
theorem onlyGate_out : t.out = s.out := by rw [show t = _ from h]
theorem onlyGate_railsOffN : t.railsOffN = s.railsOffN := by rw [show t = _ from h]
theorem onlyGate_thermtripN : t.thermtripN = s.thermtripN := by rw [show t = _ from h]
theorem onlyGate_sameMemory : s.sameMemory t := sameMemory_of_stores (by rw [show t = _ from h]) (by rw [show t = _ from h])
end

/-! ## The rails of a wake -/

section
variable (s : State)

/-- The wake does not wait for rails any more. -/
def State.railsDone (s : State) : State := { s with seq := { s.seq with rails := false } }

/-- The start-up stage that follows the rails. -/
def State.railsStage (s : State) : State := if s.fld F.DEV_START_STAGE = 1 then s.setFld F.DEV_START_STAGE 2 else s

theorem wakeRails_eq : s.wakeRails = if s.railsDone.railsStage.fld F.PWR_DOM_STATE 1 = 1 then s.railsDone.railsStage.tollAsk true wakeDoms
    else s.railsDone.railsStage.tollAsk true [.dom 1] := rfl

theorem wakeRails_gateOnly : s.railsDone.railsStage.gateOnly s.wakeRails := by
  rw [wakeRails_eq]
  split <;> exact gateOnly_tollAsk ..

theorem railsStage_onlyRegs : s.onlyRegs s.railsStage := by
  unfold State.railsStage
  split
  · exact onlyRegs_setFld ..
  · exact onlyRegs_refl s

theorem railsStage_keeps : s.keeps s.railsStage [(.DEV_START, 0, 0)] := by
  unfold State.railsStage
  split
  · exact keeps_setFld s F.DEV_START_STAGE _ ⟨by decide, by decide⟩
  · exact keeps_refl s _

theorem railsDone_regs : s.railsDone.regs = s.regs := rfl
theorem railsDone_seq : s.railsDone.seq = { s.seq with rails := false } := rfl

theorem railsDone_rest : s.railsDone.out = s.out ∧ s.railsDone.railsOffN = s.railsOffN ∧ s.railsDone.thermtripN = s.thermtripN ∧ s.sameMemory s.railsDone :=
  ⟨rfl, rfl, rfl, sameMemory_of_stores rfl rfl⟩

/-- A field of the power registers that the end of step 2 does not write. -/
theorem fld_wakeRails {f : Fld} (hf : regHas f.reg 0 0) (hd : f.reg ≠ .DEV_START) (hl : regAddr f.reg 0 < 0xB00100)
    (hn : regAddr f.reg 0 ≠ regAddr .PWR_TOLL) : s.wakeRails.fld f = s.fld f := by
  rw [fld_keepsBelow (wakeRails_gateOnly s).2 hl hn, fld_of_keeps (railsStage_keeps _) hf (by simp [hd]), State.fld_congr (railsDone_regs s)]

theorem wakeRails_rest : s.wakeRails.seq = { s.seq with rails := false } ∧ s.wakeRails.out = s.out ∧ s.wakeRails.railsOffN = s.railsOffN ∧
    s.wakeRails.thermtripN = s.thermtripN ∧ s.sameMemory s.wakeRails := by
  have hg := (wakeRails_gateOnly s).1
  have hr := railsStage_onlyRegs s.railsDone
  obtain ⟨hout, hoff, htrip, hmem⟩ := railsDone_rest s
  rw [onlyGate_seq hg, onlyGate_out hg, onlyGate_railsOffN hg, onlyGate_thermtripN hg, show s.railsDone.railsStage = _ from hr]
  exact ⟨railsDone_seq s, hout, hoff, htrip, sameMemory_trans hmem (sameMemory_trans (sameMemory_onlyRegs hr) (onlyGate_sameMemory hg))⟩

end

/-! ## The start of a wake -/

section
variable (s : State) (code : Nat)

/-- The registers of a wake that begins. -/
def State.wakeNoted (s : State) (code : Nat) : State :=
  ((s.inc F.PWR_WAKE_STAT_COUNT).setFld F.PWR_WAKE_STAT_SOURCE code).setFld F.PWR_STAT_BUSY 1

/-- The sequence of a wake that begins from state `d`. -/
def State.waking (s : State) (d : Nat) : State :=
  { s with railsOffN := true, thermtripN := true, seq := { s.seq with wake := some d, rails := true, on := [], abandon := false }
           boot := if d = 3 then ⟨s.aonNs, true, false, s.boot.slew, 0, [], []⟩ else s.boot }

/-- Start-up begins again unless the wake is from D1. -/
def State.wakeStage (s : State) (d : Nat) : State := if d = 1 then s else s.setFld F.DEV_START_STAGE 1

theorem wakeStart_eq : s.wakeStart code = (
    let t := ((s.wakeNoted code).waking (s.fld F.PWR_STAT_DSTATE)).wakeStage (s.fld F.PWR_STAT_DSTATE)
    if s.fld F.PWR_STAT_DSTATE = 1 ∨ t.railsGood then t.wakeRails else t) := rfl

theorem wakeNoted_onlyRegs : s.onlyRegs (s.wakeNoted code) :=
  onlyRegs_trans (onlyRegs_inc ..) (onlyRegs_setFld_setFld ..)

theorem wakeNoted_fields (hcode : code < 8) : (s.wakeNoted code).fld F.PWR_WAKE_STAT_SOURCE = code ∧
    (s.wakeNoted code).fld F.PWR_WAKE_STAT_COUNT = min (s.fld F.PWR_WAKE_STAT_COUNT + 1) 65535 ∧
    (s.wakeNoted code).flag F.PWR_STAT_BUSY = true ∧ (s.wakeNoted code).fld F.PWR_STAT_DSTATE = s.fld F.PWR_STAT_DSTATE := by
  refine ⟨?_, ?_, ?_, ?_⟩
  · rw [State.wakeNoted, fld_setFld_at _ _ Nat.one_pos (by decide), fld_setFld_eq _ _ (by decide) hcode]
  · rw [State.wakeNoted, fld_setFld_at _ _ Nat.one_pos (by decide), fld_setFld_at _ _ Nat.one_pos (by decide), State.fld_inc_same _ _ _ _ (by decide)]
    rfl
  · rw [State.wakeNoted, flag_setFld_same _ _ _ _ _ (by decide)]
    rfl
  · rw [State.wakeNoted, fld_setFld_at _ _ Nat.one_pos (by decide), fld_setFld_at _ _ Nat.one_pos (by decide), fld_inc_at _ Nat.one_pos (by decide)]

theorem wakeStage_onlyRegs (d : Nat) : s.onlyRegs (s.wakeStage d) := by
  unfold State.wakeStage
  split
  · exact onlyRegs_refl s
  · exact onlyRegs_setFld ..

theorem wakeStage_keeps (d : Nat) : s.keeps (s.wakeStage d) [(.DEV_START, 0, 0)] := by
  unfold State.wakeStage
  split
  · exact keeps_refl s _
  · exact keeps_setFld s F.DEV_START_STAGE _ ⟨by decide, by decide⟩

theorem waking_regs (d : Nat) : (s.waking d).regs = s.regs := rfl
theorem waking_seq (d : Nat) : (s.waking d).seq = { s.seq with wake := some d, rails := true, on := [], abandon := false } := rfl
theorem waking_rest (d : Nat) : (s.waking d).out = s.out ∧ (s.waking d).railsOffN = true ∧ (s.waking d).thermtripN = true ∧ s.sameMemory (s.waking d) :=
  ⟨rfl, rfl, rfl, sameMemory_of_stores rfl rfl⟩

/-- The power registers as a wake's begin leaves them. -/
theorem fld_wakeStart {f : Fld} (hf : regHas f.reg 0 0) (hd : f.reg ≠ .DEV_START) (hl : regAddr f.reg 0 < 0xB00100)
    (hn : regAddr f.reg 0 ≠ regAddr .PWR_TOLL) : (s.wakeStart code).fld f = (s.wakeNoted code).fld f := by
  have hstage : (((s.wakeNoted code).waking (s.fld F.PWR_STAT_DSTATE)).wakeStage (s.fld F.PWR_STAT_DSTATE)).fld f = (s.wakeNoted code).fld f := by
    rw [fld_of_keeps (wakeStage_keeps _ _) hf (by simp [hd]), State.fld_congr (waking_regs ..)]
  rw [wakeStart_eq]
  dsimp only
  split
  · rw [fld_wakeRails _ hf hd hl hn, hstage]
  · exact hstage

theorem wakeStart_rest : (s.wakeStart code).seq.wake = some (s.fld F.PWR_STAT_DSTATE) ∧ (s.wakeStart code).out = s.out ∧
    (s.wakeStart code).railsOffN = true ∧ (s.wakeStart code).thermtripN = true ∧ s.sameMemory (s.wakeStart code) := by
  obtain ⟨d, hd⟩ : ∃ d, d = s.fld F.PWR_STAT_DSTATE := ⟨_, rfl⟩
  obtain ⟨u, hu⟩ : ∃ u, u = s.wakeNoted code := ⟨_, rfl⟩
  have hon : s.onlyRegs u := hu ▸ wakeNoted_onlyRegs s code
  obtain ⟨t, ht⟩ : ∃ t, t = (u.waking d).wakeStage d := ⟨_, rfl⟩
  have hr : (u.waking d).onlyRegs t := ht ▸ wakeStage_onlyRegs (u.waking d) d
  obtain ⟨hout, hoff, htrip, hmem⟩ := waking_rest u d
  have hrest : t.seq.wake = some d ∧ t.out = s.out ∧ t.railsOffN = true ∧ t.thermtripN = true ∧ s.sameMemory t := by
    refine ⟨?_, ?_, ?_, ?_, sameMemory_trans (sameMemory_onlyRegs hon) (sameMemory_trans hmem (sameMemory_onlyRegs hr))⟩
    · rw [show t = _ from hr]
      exact congrArg Seq.wake (waking_seq u d)
    · rw [show t = _ from hr]
      exact hout.trans (by rw [show u = _ from hon])
    · rw [show t = _ from hr]
      exact hoff
    · rw [show t = _ from hr]
      exact htrip
  rw [wakeStart_eq, ← hu, ← hd, ← ht]
  dsimp only
  split
  · obtain ⟨hseq, hout', hoff', htrip', hmem'⟩ := wakeRails_rest t
    obtain ⟨h1, h2, h3, h4, h5⟩ := hrest
    exact ⟨(congrArg Seq.wake hseq).trans h1, hout'.trans h2, hoff'.trans h3, htrip'.trans h4, sameMemory_trans h5 hmem'⟩
  · exact hrest

end

end Sys2Proof.Machine
end

section
/-! Wake sources (R455 to R457), and one bit of a register field set or cleared. -/
namespace Sys2Proof.Machine

/-! ## Wake sources -/

section
variable {s : State} {dt code : Nat}

/-- The wake that waits for an entry: the source of the lowest code. -/
def latchedBy (l : Option Nat) (code : Nat) : Nat :=
  match l with
  | some k => min k code
  | none => code

/-- A wake source waits for the end of an entry. -/
def State.latchWake (s : State) (code : Nat) : State := { s with seq := { s.seq with latched := some (latchedBy s.seq.latched code) } }

theorem wakeBy_entry {tgt : Nat} (h : s.seq.entry = some tgt) : s.wakeBy code = s.latchWake code := by
  rw [State.wakeBy, if_pos (by rw [h]; rfl)]
  rfl

theorem wakeBy_wake {w : Nat} (he : s.seq.entry = none) (h : s.seq.wake = some w) :
    s.wakeBy code = s.setFld F.PWR_WAKE_STAT_SOURCE (min code (s.fld F.PWR_WAKE_STAT_SOURCE)) := by
  rw [State.wakeBy, if_neg (by rw [he]; nofun), if_pos (by rw [h]; rfl)]

theorem wakeBy_asleep (he : s.seq.entry = none) (hw : s.seq.wake = none) (hd : s.fld F.PWR_STAT_DSTATE = 1 ∨ s.fld F.PWR_STAT_DSTATE = 3)
    (hok : s.wakeOk = true) : s.wakeBy code = s.wakeStart code := by
  rw [State.wakeBy, if_neg (by rw [he]; nofun), if_neg (by rw [hw]; nofun), if_pos ⟨hd, hok⟩]

/-- Each source, enabled, is a wake of its code. -/
theorem exec_wakeSource {c : Instr}
    (hc : (c, code) ∈ [(Instr.i3cAddressMatch dt (Fin.ofNat 128 (s.fld F.PWR_WAKE_CFG_ADDR)), 1), (.wakeNLow dt, 2), (.perstNRise dt, 3),
      (.aonTimerMatch dt, 4), (.mcWakeRequest dt, 5)])
    (h1 : code = 1 → s.flag F.PWR_WAKE_CFG_I3C_EN = true) (h2 : code = 2 → s.flag F.PWR_WAKE_CFG_WAKEPIN_EN = true)
    (h3 : code = 3 → s.flag F.PWR_WAKE_CFG_PERST_EN = true)
    (h4 : code = 4 → s.flag F.PWR_WAKE_CFG_TIMER_EN = true ∧ s.fld F.PWR_WAKE_TIME_TIME ≤ (s.aonNs + dt) / 1000)
    (h5 : code = 5 → s.fld F.PWR_STAT_DSTATE = 1 ∨ s.seq.entry = some 1) :
    exec c s = .next ((s.tick dt).wakeBy code) ∧ code < 8 := by
  simp only [List.mem_cons, Prod.mk.injEq, List.not_mem_nil, or_false] at hc
  obtain ⟨rfl, rfl⟩ | ⟨rfl, rfl⟩ | ⟨rfl, rfl⟩ | ⟨rfl, rfl⟩ | ⟨rfl, rfl⟩ := hc
  · exact ⟨if_pos ⟨h1 rfl, Nat.mod_eq_of_lt (s.fld_lt F.PWR_WAKE_CFG_ADDR 0 0)⟩, by decide⟩
  · exact ⟨if_pos (h2 rfl), by decide⟩
  · exact ⟨if_pos (h3 rfl), by decide⟩
  · exact ⟨if_pos (h4 rfl), by decide⟩
  · exact ⟨if_pos (h5 rfl), by decide⟩

theorem wakeStart_leaves (hcode : code < 8) : (s.wakeStart code).fld F.PWR_WAKE_STAT_SOURCE = code ∧
    (s.wakeStart code).fld F.PWR_WAKE_STAT_COUNT = min (s.fld F.PWR_WAKE_STAT_COUNT + 1) 65535 ∧
    (s.wakeStart code).flag F.PWR_STAT_BUSY = true ∧ (s.wakeStart code).fld F.PWR_STAT_DSTATE = s.fld F.PWR_STAT_DSTATE := by
  obtain ⟨h1, h2, h3, h4⟩ := wakeNoted_fields s code hcode
  have hw : regAddr .PWR_WAKE_STAT < 0xB00100 ∧ regAddr .PWR_WAKE_STAT ≠ regAddr .PWR_TOLL := by decide
  have hs : regAddr .PWR_STAT < 0xB00100 ∧ regAddr .PWR_STAT ≠ regAddr .PWR_TOLL := by decide
  exact ⟨(fld_wakeStart s code ⟨by decide, by decide⟩ (by decide) hw.1 hw.2).trans h1,
    (fld_wakeStart s code ⟨by decide, by decide⟩ (by decide) hw.1 hw.2).trans h2,
    (flag_congr (fld_wakeStart s code ⟨by decide, by decide⟩ (by decide) hs.1 hs.2)).trans h3,
    (fld_wakeStart s code ⟨by decide, by decide⟩ (by decide) hs.1 hs.2).trans h4⟩

end

/-! ## One bit -/

/-- A number with one bit taken out and put back. -/
theorem putBits_bitsOf (n r : Nat) : n = putBits n r 1 (bitsOf n r 1) := by
  refine Nat.eq_of_testBit_eq fun b => ?_
  rw [testBit_putBits]
  split
  · next h =>
    rw [testBit_bitsOf, Nat.add_sub_cancel' h.1, decide_eq_true (by omega), Bool.true_and]
  · rfl

theorem putBits_one_sub {n r : Nat} (h : bitsOf n r 1 = 1) : n - 2 ^ r = putBits n r 1 0 := by
  have hn := putBits_bitsOf n r
  rw [h] at hn
  simp only [putBits] at hn ⊢
  omega

theorem putBits_zero_add {n r : Nat} (h : bitsOf n r 1 ≠ 1) : n + 2 ^ r = putBits n r 1 1 := by
  have hn := putBits_bitsOf n r
  have h0 : bitsOf n r 1 = 0 := by
    have := bitsOf_lt n r 1
    omega
  rw [h0] at hn
  simp only [putBits] at hn ⊢
  omega

/-- The bit of a number set, however it was. -/
theorem bitSet_eq (n r : Nat) : (if bitsOf n r 1 = 1 then n else n + 2 ^ r) = putBits n r 1 1 := by
  split
  · next h => exact (putBits_bitsOf n r).trans (by rw [h])
  · next h => exact putBits_zero_add h

/-- The bit of a number cleared, however it was. -/
theorem bitCleared_eq (n r : Nat) : (if bitsOf n r 1 = 1 then n - 2 ^ r else n) = putBits n r 1 0 := by
  split
  · next h => exact putBits_one_sub h
  · next h =>
    have h0 : bitsOf n r 1 = 0 := by
      have := bitsOf_lt n r 1
      omega
    exact (putBits_bitsOf n r).trans (by rw [h0])

/-- Bits of a number with one replaced. -/
theorem bitsOf_putBit (n r v k : Nat) : bitsOf (putBits n r 1 v) k 1 = if k = r then v % 2 else bitsOf n k 1 := by
  split
  · next h => exact h ▸ bitsOf_putBits_same n k 1 v
  · next h => exact bitsOf_putBits_ne n r 1 v k 1 (by omega)

/-- A field with one bit replaced. -/
def State.putBit (s : State) (f : Fld) (r v : Nat) : State := s.setFld f (putBits (s.fld f) r 1 v)

theorem bitsOf_fld_putBit (s : State) {f : Fld} {r v : Nat} (hf : f.lo + f.w ≤ 64) (hr : r < f.w) (k : Nat) :
    bitsOf ((s.putBit f r v).fld f) k 1 = if k = r then v % 2 else bitsOf (s.fld f) k 1 := by
  rw [State.putBit, fld_setFld_eq _ _ hf (putBits_lt _ _ _ _ _ (by omega) (s.fld_lt f 0 0)), bitsOf_putBit]

theorem putBit_onlyRegs (s : State) (f : Fld) (r v : Nat) : s.onlyRegs (s.putBit f r v) := onlyRegs_setFld ..

theorem fld_putBit_at (s : State) {f g : Fld} (r v : Nat) (h : f.apart g 1 = true) : (s.putBit f r v).fld g = s.fld g :=
  fld_setFld_at s _ Nat.one_pos h

theorem putBit_keeps (s : State) {f : Fld} (r v : Nat) (hf : regHas f.reg 0 0) : s.keeps (s.putBit f r v) [(f.reg, 0, 0)] := keeps_setFld s f _ hf

end Sys2Proof.Machine
end

section
/-! Domains (R441, R445): one that is ready, and the last one that an entry switches off. -/
namespace Sys2Proof.Machine

/-! ## A domain is ready -/

/-- The lock bits of the PLLs: from the IOD domain, the MC domain, the four HBM domains and the others (R466). -/
def pllBits (iod mc h6 h7 h8 h9 other : Bool) : Nat :=
  (if iod then 3 else 0) + (if mc then 4 else 0) + (if h6 then 8 else 0) + (if h7 then 16 else 0) + (if h8 then 32 else 0) +
    (if h9 then 64 else 0) + (if other then 128 else 0)

theorem pllBits_hbm : ∀ iod mc h6 h7 h8 h9 other : Bool, pllBits iod mc h6 h7 h8 h9 other < 256 ∧
    (h6 = true → bitsOf (pllBits iod mc h6 h7 h8 h9 other) 3 1 = 1) ∧ (h7 = true → bitsOf (pllBits iod mc h6 h7 h8 h9 other) 4 1 = 1) ∧
    (h8 = true → bitsOf (pllBits iod mc h6 h7 h8 h9 other) 5 1 = 1) ∧ (h9 = true → bitsOf (pllBits iod mc h6 h7 h8 h9 other) 6 1 = 1) := by
  decide

section
variable (s : State)

/-- The lock bits that the domains on bring. -/
def State.lockBits (s : State) : Nat :=
  pllBits (s.domOn 2) (s.domOn 1) (s.domOn 6) (s.domOn 7) (s.domOn 8) (s.domOn 9) ([3, 4, 5, 10, 11, 12, 13].all s.domOn)

theorem pllLock_eq {d : Nat} (hd : d ≠ 2) (ref : Bool) : s.pllLock d ref = s.setFld F.CLK_STAT_LOCK s.lockBits := by
  rw [State.pllLock]
  exact if_neg fun h => hd h.1

theorem lockBits_hbm {d : Nat} (h6 : 6 ≤ d) (h9 : d ≤ 9) (h : s.domOn d = true) : bitsOf s.lockBits (d - 3) 1 = 1 := by
  obtain ⟨-, hb6, hb7, hb8, hb9⟩ := pllBits_hbm (s.domOn 2) (s.domOn 1) (s.domOn 6) (s.domOn 7) (s.domOn 8) (s.domOn 9)
    ([3, 4, 5, 10, 11, 12, 13].all s.domOn)
  obtain rfl | rfl | rfl | rfl : d = 6 ∨ d = 7 ∨ d = 8 ∨ d = 9 := by omega
  · exact hb6 h
  · exact hb7 h
  · exact hb8 h
  · exact hb9 h

/-- A domain on, and the PLLs that it brings. -/
def State.domBack (s : State) (d : Nat) : State := (s.setFld F.PWR_DOM_STATE 1 d).setFld F.CLK_STAT_LOCK (s.setFld F.PWR_DOM_STATE 1 d).lockBits

theorem domBack_onlyRegs (d : Nat) : s.onlyRegs (s.domBack d) := onlyRegs_trans (onlyRegs_setFld ..) (onlyRegs_setFld ..)

section
variable {d : Nat} (hd : d < 15)
include hd

theorem domBack_keeps : s.keeps (s.domBack d) [(.PWR_DOM, d, 0), (.CLK_STAT, 0, 0)] :=
  keeps_trans (keeps_setFld s F.PWR_DOM_STATE _ ⟨hd, Nat.one_pos⟩) (keeps_setFld _ F.CLK_STAT_LOCK _ ⟨Nat.one_pos, Nat.one_pos⟩)

theorem domBack_fields : (s.domBack d).fld F.PWR_DOM_STATE d = 1 ∧ (s.domBack d).fld F.CLK_STAT_REF = s.fld F.CLK_STAT_REF ∧
    (6 ≤ d → d ≤ 9 → bitsOf ((s.domBack d).fld F.CLK_STAT_LOCK) (d - 3) 1 = 1) := by
  have hon : (s.setFld F.PWR_DOM_STATE 1 d).fld F.PWR_DOM_STATE d = 1 := fld_setFld_eq _ _ (by decide) (by decide)
  refine ⟨?_, ?_, fun h6 h9 => ?_⟩
  · rw [State.domBack, fld_setFld_foreign (n := 1) (m := 15) _ _ Nat.one_pos hd (by decide), hon]
  · rw [State.domBack, fld_setFld_at _ _ Nat.one_pos (by decide), fld_setFld_foreign (n := 15) (m := 1) _ _ hd Nat.one_pos (by decide)]
  · rw [State.domBack, fld_setFld_eq _ _ (by decide)]
    · exact lockBits_hbm _ h6 h9 (by rw [State.domOn, hon]; rfl)
    · exact (pllBits_hbm _ _ _ _ _ _ _).1

end

theorem wakeEnd_of_none (h : s.seq.wake = none) : s.wakeEnd = s := if_neg fun hw => by cases h.symm.trans hw.1

theorem domainReady_plain {d : Nat} (ref : Bool) (hd : d ∈ [3, 5, 6, 7, 8, 9, 10, 11, 12, 13, 14]) (hst : s.fld F.PWR_DOM_STATE d = 3)
    (ho : s.seq.off = []) (he : s.seq.entry = none) (ha : s.seq.abandon = false) (hw : s.seq.wake = none) : s.domainReady d ref = s.domBack d := by
  have hlt : ¬ 15 ≤ d := by
    simp only [List.mem_cons, List.not_mem_nil, or_false] at hd
    omega
  have h12 : d ≠ 1 ∧ d ≠ 2 := by
    simp only [List.mem_cons, List.not_mem_nil, or_false] at hd
    omega
  have hseq : (s.domBack d).seq = s.seq := by rw [show s.domBack d = _ from domBack_onlyRegs s d]
  have hbegin : (s.setFld F.PWR_DOM_STATE 1 d).pllLock d ref = s.domBack d := pllLock_eq _ h12.2 ref
  unfold State.domainReady
  rw [if_neg hlt, if_pos (by rw [hst, ho, he, ha]; exact ⟨rfl, rfl, rfl, rfl⟩), hbegin]
  dsimp only
  simp only [hseq, hw, Option.isSome_none, Bool.false_eq_true, and_false, if_false, if_neg h12.1]
  exact wakeEnd_of_none _ (by rw [hseq, hw])

theorem exec_domainReady_plain {dt : Nat} {d : Fin 49} (ref iref : Bool) (hd : d.val ∈ [3, 5, 6, 7, 8, 9, 10, 11, 12, 13, 14])
    (hst : s.fld F.PWR_DOM_STATE d = 3) (ho : s.seq.off = []) (he : s.seq.entry = none) (ha : s.seq.abandon = false) (hw : s.seq.wake = none) :
    exec (.domainReady dt d ref iref) s = .next ((s.tick dt).domBack d) := by
  have hready := domainReady_plain (s.tick dt) ref hd hst ho he ha hw
  have hw : (s.tick dt).seq.wake = none := hw
  have h124 : ¬ (d.val = 1 ∨ d.val = 2 ∨ d.val = 4) ∧ ¬ 15 ≤ d.val := by
    simp only [List.mem_cons, List.not_mem_nil, or_false] at hd
    omega
  change execDomainReady dt d ref iref s = _
  unfold execDomainReady
  dsimp only
  rw [hready, hw, if_neg h124.1, if_neg h124.2]
  exact congrArg Host.Outcome.next (if_neg fun h => nomatch h.1)

end

end Sys2Proof.Machine
end

section
/-! A domain loses its supply (R442, R445): the power registers stay, and the last one ends the entry. -/
namespace Sys2Proof.Machine

/-- The registers that the AON shows for columns, domains and rails. -/
def powerRegs : List Reg := [.PWR_DOM, .PWR_COL, .PWR_STAT, .PWR_RAIL, .PWR_TOLL, .PWR_WAKE_STAT]

theorem regDomain_power {g : Reg} (hg : g ∈ powerRegs) {i j : Nat} (h : regHas g i j) : regDomain ⟨g, i, j, false⟩ (regAddr g i j) = none := by
  have hblock : regAddr g i j / 0x100000 = 0xB := by
    obtain ⟨hi, hj⟩ := h
    simp only [powerRegs, List.mem_cons, List.not_mem_nil, or_false] at hg
    obtain rfl | rfl | rfl | rfl | rfl | rfl := hg <;> simp only [regRow] at hi hj <;> simp only [regAddr, regRow] <;> omega
  simp only [powerRegs, List.mem_cons, List.not_mem_nil, or_false] at hg
  obtain rfl | rfl | rfl | rfl | rfl | rfl := hg <;>
  · simp only [regDomain]
    rw [if_neg (by omega), if_neg (by omega), blockDomain, hblock]
    rfl

theorem inDomain_power {g : Reg} (hg : g ∈ powerRegs) {i j : Nat} (h : regHas g i j) (d : Nat) : inDomain d (regAddr g i j) = false := by
  rw [inDomain, findReg_regAddr g i j h.1 h.2]
  dsimp only
  rw [regDomain_power hg h]
  rfl

/-- `t` has the power registers of `s`. -/
def State.samePower (s t : State) : Prop := ∀ g ∈ powerRegs, ∀ i j, regHas g i j → t.reg g i j = s.reg g i j

theorem samePower_trans {s t u : State} (h : s.samePower t) (h' : t.samePower u) : s.samePower u :=
  fun g hg i j hr => (h' g hg i j hr).trans (h g hg i j hr)

theorem samePower_of_regs {s t : State} (h : t.regs = s.regs) : s.samePower t := fun g _ i j _ => State.reg_congr h g i j

theorem samePower_dropRegs (s : State) (d : Nat) : s.samePower (s.dropRegs (inDomain d)) := fun g hg i j h => by
  rw [reg_dropRegs, inDomain_power hg h]
  rfl

theorem fld_samePower {s t : State} (h : s.samePower t) {f : Fld} {i : Nat} (hf : f.reg ∈ powerRegs) (hi : regHas f.reg i 0) : t.fld f i = s.fld f i :=
  congrArg (bitsOf · _ _) (h _ hf i 0 hi)

/-- `t` has the sequence, columns, queues, depot and outputs of `s`. -/
structure State.samePowerSt (s t : State) : Prop where
  seq : t.seq = s.seq
  cols : t.cols = s.cols
  high : t.tollHigh = s.tollHigh
  norm : t.tollNorm = s.tollNorm
  depot : t.depot = s.depot
  out : t.out = s.out
  railsOffN : t.railsOffN = s.railsOffN
  log : t.log = s.log
  logNext : t.logNext = s.logNext

theorem samePowerSt_trans {s t u : State} (h : s.samePowerSt t) (h' : t.samePowerSt u) : s.samePowerSt u :=
  ⟨h'.seq.trans h.seq, h'.cols.trans h.cols, h'.high.trans h.high, h'.norm.trans h.norm, h'.depot.trans h.depot, h'.out.trans h.out,
    h'.railsOffN.trans h.railsOffN, h'.log.trans h.log, h'.logNext.trans h.logNext⟩

theorem samePowerSt_onlyRegs {s t : State} (h : s.onlyRegs t) : s.samePowerSt t := by
  rw [show t = { s with regs := t.regs } from h]
  exact ⟨rfl, rfl, rfl, rfl, rfl, rfl, rfl, rfl, rfl⟩

section
variable (s : State)

/-- What the calibration domain held is lost. -/
def State.calLost (s : State) : State := { s with cal := calKept s.cal, calRuns := [], calCmds := [] }

theorem domGone_cal : s.domGone 14 = (s.dropRegs (inDomain 14)).calLost.setFld F.PWR_DOM_STATE 0 14 := rfl

theorem domGone_mc : s.domGone 1 = s.mcGone.setFld F.PWR_DOM_STATE 0 1 := rfl

theorem dropRegs_samePowerSt (p : Nat → Bool) : s.samePowerSt (s.dropRegs p) := ⟨rfl, rfl, rfl, rfl, rfl, rfl, rfl, rfl, rfl⟩

theorem calLost_samePowerSt : s.samePowerSt s.calLost := ⟨rfl, rfl, rfl, rfl, rfl, rfl, rfl, rfl, rfl⟩

theorem calLost_regs : s.calLost.regs = s.regs := rfl

theorem calLost_hbm : s.calLost.hbm = s.hbm := rfl

theorem mcGone_samePowerSt : s.samePowerSt s.mcGone := ⟨rfl, rfl, rfl, rfl, rfl, rfl, rfl, rfl, rfl⟩

theorem mcGone_regs : s.mcGone.regs = (s.dropRegs (inDomain 1)).regs := rfl

theorem mcGone_hbm : s.mcGone.hbm = s.hbm := rfl

/-- The calibration or the MC domain loses its supply: what stays before its STATE is written. -/
theorem domGone_small {d : Nat} (hd : d = 14 ∨ d = 1) : ∃ u, s.domGone d = u.setFld F.PWR_DOM_STATE 0 d ∧ s.samePower u ∧ s.samePowerSt u ∧ u.hbm = s.hbm := by
  obtain rfl | rfl := hd
  · exact ⟨_, domGone_cal s, samePower_trans (samePower_dropRegs s 14) (samePower_of_regs (calLost_regs _)),
      samePowerSt_trans (dropRegs_samePowerSt ..) (calLost_samePowerSt _), (calLost_hbm _).trans rfl⟩
  · exact ⟨_, domGone_mc s, samePower_trans (samePower_dropRegs s 1) (samePower_of_regs (mcGone_regs s)), mcGone_samePowerSt s, mcGone_hbm s⟩

end

/-! ## The end of an entry -/

section
variable {s t : State} {tgt d : Nat}

theorem offDone_congr (hdom : d < 15 → t.fld F.PWR_DOM_STATE d = s.fld F.PWR_DOM_STATE d)
    (hst : 15 ≤ d → t.fld F.PWR_COL_STATE (d - 15) = s.fld F.PWR_COL_STATE (d - 15)) (hcol : t.cols = s.cols) : t.offDone tgt d = s.offDone tgt d := by
  unfold State.offDone
  split
  · next h => rw [hst h, State.col, State.col, hcol]
  · next h => rw [hdom (Nat.not_le.1 h)]

/-- The registers, the sequence and the rails as the end of an entry leaves them. -/
def State.entryOver (s : State) (tgt : Nat) : State :=
  { s with seq := { s.seq with entry := none, latched := none }, railsOffN := if tgt = 3 then false else s.railsOffN }

/-- The registers of an entry that is over. -/
def State.slept (s : State) (tgt : Nat) : State := (s.setFld F.PWR_STAT_DSTATE tgt).setFld F.PWR_STAT_BUSY 0

theorem entryEnd_of_done (he : s.seq.entry = some tgt) (hl : s.seq.latched = none) (h : offAll.all (s.offDone tgt) = true) :
    s.entryEnd = (s.slept tgt).entryOver tgt := by
  have hl : (s.slept tgt).seq.latched = none := by rw [State.slept, State.setFld_seq, State.setFld_seq, hl]
  rw [State.entryEnd, he]
  dsimp only
  rw [if_pos h]
  rw [← State.slept, hl]
  rfl

theorem slept_fields (h : tgt < 4) : (s.slept tgt).fld F.PWR_STAT_DSTATE = tgt ∧ (s.slept tgt).flag F.PWR_STAT_BUSY = false := by
  rw [State.slept, fld_setFld_at _ _ Nat.one_pos (by decide), fld_setFld_eq _ _ (by decide) h, flag_setFld_same _ _ _ _ _ (by decide)]
  exact ⟨rfl, rfl⟩

theorem slept_onlyRegs : s.onlyRegs (s.slept tgt) := onlyRegs_setFld_setFld ..

theorem slept_keeps : s.keeps (s.slept tgt) [(.PWR_STAT, 0, 0)] :=
  keeps_setFld_setFld (f := F.PWR_STAT_DSTATE) (g := F.PWR_STAT_BUSY) s _ _ rfl ⟨Nat.one_pos, Nat.one_pos⟩

theorem entryOver_regs : (s.entryOver tgt).regs = s.regs := rfl

theorem entryOver_rest : (s.entryOver tgt).seq.entry = none ∧ (s.entryOver tgt).railsOffN = (if tgt = 3 then false else s.railsOffN) ∧
    (s.entryOver tgt).out = s.out ∧ (s.entryOver tgt).depot = s.depot ∧ (s.entryOver tgt).hbm = s.hbm := ⟨rfl, rfl, rfl, rfl, rfl⟩

end

theorem mem_offAll {k : Nat} (h : k ∈ offAll) : 1 ≤ k ∧ k < 49 := by
  revert h
  revert k
  decide

section
variable {s : State} {dt tgt : Nat}

theorem exec_domainSwitchedOff_entry {d : Fin 49} (he : s.seq.entry = some tgt) (h0 : d.val ≠ 0) (h6 : ¬ (6 ≤ d.val ∧ d.val ≤ 9))
    (hoff : s.offDone tgt d = false) (hall : ∀ k ∈ offAll, k ≠ d.val → s.offDone tgt k = true) :
    exec (.domainSwitchedOff dt d) s = .next ((s.tick dt).domGone d).entryEnd := by
  have he : (s.tick dt).seq.entry = some tgt := he
  have hoff : (s.tick dt).offDone tgt d = false := hoff
  have hearlier : (offAll.filter fun k => decide (offStage k < offStage d.val)).all ((s.tick dt).offDone tgt) = true := by
    refine List.all_eq_true.2 fun k hk => ?_
    obtain ⟨hk, hst⟩ := List.mem_filter.1 hk
    refine hall k hk ?_
    rintro rfl
    exact absurd (of_decide_eq_true hst) (lt_irrefl _)
  change execDomainSwitchedOff dt d s = _
  unfold execDomainSwitchedOff
  dsimp only
  rw [he]
  dsimp only
  rw [if_pos ⟨h0, by rw [hoff]; rfl, hearlier⟩, if_neg h6]

/-- The last domain of an entry goes, and the entry is over. -/
theorem lastDomain_leaves {d : Fin 49} (he : s.seq.entry = some tgt) (htgt : tgt = 1 ∨ tgt = 3) (hl : s.seq.latched = none)
    (hd : d.val = 14 ∨ d.val = 1) (h1 : d.val = 1 → tgt = 3) (hst : s.fld F.PWR_DOM_STATE d ≠ 0)
    (hall : ∀ k ∈ offAll, k ≠ d.val → s.offDone tgt k = true) :
    ∃ t, exec (.domainSwitchedOff dt d) s = .next t ∧ t.fld F.PWR_STAT_DSTATE = tgt ∧ t.flag F.PWR_STAT_BUSY = false ∧
      t.seq.entry = none ∧ t.fld F.PWR_DOM_STATE d = 0 ∧ t.railsOffN = (if tgt = 3 then false else s.railsOffN) ∧ t.out = s.out ∧ s.sameMemory t := by
  have hlt : d.val < 15 := by omega
  have hdown (v : State) : v.offDone tgt d = (v.fld F.PWR_DOM_STATE d == 0) := by
    unfold State.offDone
    rw [if_neg (by omega), if_neg (by omega), if_neg (by omega)]
  obtain ⟨u, hgone, hpow, hrest, hhbm⟩ := domGone_small (s.tick dt) hd
  obtain ⟨v, hv⟩ : ∃ v, v = u.setFld F.PWR_DOM_STATE 0 d := ⟨_, rfl⟩
  have hvr : u.onlyRegs v := hv ▸ onlyRegs_setFld ..
  have hrest := samePowerSt_trans hrest (samePowerSt_onlyRegs hvr)
  have hdom : v.fld F.PWR_DOM_STATE d = 0 := by rw [hv, fld_setFld_eq _ _ (by decide) (by decide)]
  have hdone : offAll.all (v.offDone tgt) = true := by
    refine List.all_eq_true.2 fun k hk => ?_
    by_cases hkd : k = d.val
    · rw [hkd, hdown, hdom]
      rfl
    · refine (offDone_congr (fun hk15 => ?_) (fun hk15 => ?_) hrest.cols).trans (hall k hk hkd)
      · rw [hv, fld_setFld_index (n := 15) _ _ hlt hk15 hkd rfl (by decide), fld_samePower hpow (f := F.PWR_DOM_STATE) (by decide) ⟨hk15, Nat.one_pos⟩]
      · have hcol : k - 15 < 34 := by
          have := (mem_offAll hk).2
          omega
        rw [hv, fld_setFld_foreign (n := 15) (m := 34) _ _ hlt hcol (by decide), fld_samePower hpow (f := F.PWR_COL_STATE) (by decide) ⟨hcol, Nat.one_pos⟩]
  have hend : v.entryEnd = (v.slept tgt).entryOver tgt :=
    entryEnd_of_done (by rw [hrest.seq]; exact he) (by rw [hrest.seq]; exact hl) hdone
  have hsl : v.onlyRegs (v.slept tgt) := slept_onlyRegs
  obtain ⟨hent, hoff, hout, hdep, hhb⟩ := entryOver_rest (s := v.slept tgt) (tgt := tgt)
  obtain ⟨hds, hbusy⟩ := slept_fields (s := v) (tgt := tgt) (by omega)
  refine ⟨_, (exec_domainSwitchedOff_entry he (by omega) (by omega) (by rw [hdown]; exact beq_false_of_ne hst) hall).trans
    (by rw [hgone, ← hv, hend]), ?_, ?_, hent, ?_, ?_, ?_, sameMemory_of_stores ?_ ?_⟩
  · rw [State.fld_congr entryOver_regs, hds]
  · rw [flag_congr (State.fld_congr entryOver_regs ..), hbusy]
  · rw [State.fld_congr entryOver_regs, fld_of_keeps slept_keeps (f := F.PWR_DOM_STATE) ⟨hlt, Nat.one_pos⟩ (by simp), hdom]
  · rw [hoff, (samePowerSt_onlyRegs hsl).railsOffN, hrest.railsOffN]
    rfl
  · rw [hout, (samePowerSt_onlyRegs hsl).out, hrest.out]
    rfl
  · rw [hdep, (samePowerSt_onlyRegs hsl).depot, hrest.depot]
    rfl
  · rw [hhb, onlyRegs_hbm hsl, onlyRegs_hbm hvr, hhbm]
    rfl

end

end Sys2Proof.Machine
end

section
/-! Rails: good, out of range and failed (R459, R522). -/
namespace Sys2Proof.Machine

/-- `t` differs from `s` in its registers and the power sequence alone. -/
def State.onlySeq (s t : State) : Prop := t = { s with regs := t.regs, seq := t.seq }

/-- The rails that wait for their second out of range (R459). -/
def State.withBad (s : State) (l : List (Nat × Option Nat)) : State := { s with seq := { s.seq with bad := l } }

section
variable (s : State) (l : List (Nat × Option Nat))

theorem withBad_regs : (s.withBad l).regs = s.regs := rfl
theorem withBad_seq : (s.withBad l).seq = { s.seq with bad := l } := rfl
theorem withBad_rest : (s.withBad l).log = s.log ∧ (s.withBad l).logNext = s.logNext ∧ (s.withBad l).out = s.out ∧ (s.withBad l).aonNs = s.aonNs :=
  ⟨rfl, rfl, rfl, rfl⟩
theorem withBad_seqStep : (s.withBad l).seqStep = s.seqStep := rfl

theorem onlySeq_withBad {s t : State} (h : s.onlyRegs t) (l : List (Nat × Option Nat)) : s.onlySeq (t.withBad l) := by
  rw [State.onlyRegs] at h
  rw [State.onlySeq, h]
  rfl

end

section
variable {s : State} {dt : Nat} (r : Fin 8)

/-- A rail good again: those that waited for it count from now. -/
def badSince (l : List (Nat × Option Nat)) (r now : Nat) : List (Nat × Option Nat) :=
  l.map fun b => if b.1 = r ∧ b.2.isNone then (r, some now) else b

theorem badSince_eq (l : List (Nat × Option Nat)) (r now : Nat) :
    badSince l r now = l.map fun b => if b.1 = r ∧ b.2.isNone then (b.1, some now) else b := by
  refine List.map_congr_left fun b _ => ?_
  split
  · next h => rw [h.1]
  · rfl

theorem exec_railGood (h : s.seq.rails = false) : exec (.railGood dt r) s =
    .next (((s.tick dt).putBit F.PWR_RAIL_GOOD r 1).withBad (badSince s.seq.bad r (s.aonNs + dt))) := by
  change execRailGood dt r s = _
  unfold execRailGood
  dsimp only
  rw [bitSet_eq, ← State.putBit]
  obtain ⟨v, hv⟩ : ∃ v, v = (s.tick dt).putBit F.PWR_RAIL_GOOD r 1 := ⟨_, rfl⟩
  have hrest : v.seq = s.seq ∧ v.aonNs = s.aonNs + dt := by
    rw [hv, show State.putBit _ _ _ _ = _ from putBit_onlyRegs ..]
    exact ⟨rfl, rfl⟩
  rw [← hv, if_neg (fun hn => absurd (hn.1.symm.trans ((congrArg Seq.rails hrest.1).trans h)) nofun), ← hrest.1, ← hrest.2]
  rfl

/-- The rail is out of range again. -/
def badAgain (l : List (Nat × Option Nat)) (r : Nat) : List (Nat × Option Nat) := l.map fun b => if b.1 = r then (r, none) else b

theorem exec_railExcursion (h : bitsOf (s.fld F.PWR_RAIL_GOOD) r 1 = 1) : exec (.railExcursion dt r) s =
    .next ((((s.tick dt).withBad (badAgain s.seq.bad r)).putBit F.PWR_RAIL_GOOD r 0).logE 0 0xE001 [r, s.fld F.PWR_STAT_DSTATE, s.seqStep, 0]) := by
  have hb : bitsOf ((s.tick dt).fld F.PWR_RAIL_GOOD) r 1 = 1 := h
  change execRailExcursion dt r s = _
  unfold execRailExcursion
  dsimp only
  rw [if_pos hb, putBits_one_sub hb]
  rfl

end

/-! ## A failed rail -/

section
variable (s : State) (r : Nat)

/-- The rail's bits as it fails. -/
def State.railDown (s : State) (r : Nat) : State := (s.putBit F.PWR_RAIL_GOOD r 0).putBit F.PWR_RAIL_FAILED r 1

theorem railDown_onlyRegs : s.onlyRegs (s.railDown r) := onlyRegs_trans (putBit_onlyRegs ..) (putBit_onlyRegs ..)

theorem railDown_keeps : s.keeps (s.railDown r) [(.PWR_RAIL, 0, 0)] :=
  keeps_setFld_setFld (f := F.PWR_RAIL_GOOD) (g := F.PWR_RAIL_FAILED) s _ _ rfl ⟨Nat.one_pos, Nat.one_pos⟩

variable {r} in
theorem railDown_bits (hr : r < 8) (k : Nat) :
    bitsOf ((s.railDown r).fld F.PWR_RAIL_GOOD) k 1 = (if k = r then 0 else bitsOf (s.fld F.PWR_RAIL_GOOD) k 1) ∧
    bitsOf ((s.railDown r).fld F.PWR_RAIL_FAILED) k 1 = if k = r then 1 else bitsOf (s.fld F.PWR_RAIL_FAILED) k 1 := by
  rw [State.railDown, fld_putBit_at _ _ _ (by decide), bitsOf_fld_putBit _ (by decide) hr, bitsOf_fld_putBit _ (by decide) hr,
    fld_putBit_at _ _ _ (by decide)]
  exact ⟨rfl, rfl⟩

/-- Does a request go as rail `r` fails (R459). -/
def tollOnRail (r : Nat) : TollFor → Bool
  | .dom k => railNeeds r k
  | _ => decide (r = 0)

/-- The queues without the requests that a predicate names. -/
def State.tollsLess (s : State) (p : TollFor → Bool) : State :=
  { s with tollHigh := s.tollHigh.filter fun q => !p q, tollNorm := s.tollNorm.filter fun q => !p q }

/-- The rails out of range once rail `r` fails. -/
def State.badWith (s : State) (r : Nat) : List (Nat × Option Nat) := (s.seq.bad.filter fun b => decide (b.1 ≠ r)) ++ [(r, none)]

/-- A rail that fails in D0 and outside an entry or a wake: its bits, the requests that need it, and the log entry. -/
def State.railLogged (s : State) (r : Nat) : State :=
  ((((s.railDown r).withBad (s.badWith r)).tollsLess (tollOnRail r)).tollShow).logE 0 0xE001 [r, 0, 0, 0]

theorem tollsLess_regs (p : TollFor → Bool) : (s.tollsLess p).regs = s.regs := rfl
theorem tollsLess_rest (p : TollFor → Bool) : (s.tollsLess p).seq = s.seq ∧ (s.tollsLess p).log = s.log ∧ (s.tollsLess p).logNext = s.logNext ∧
    (s.tollsLess p).out = s.out ∧ (s.tollsLess p).cols = s.cols ∧ (s.tollsLess p).depot = s.depot ∧ (s.tollsLess p).hbm = s.hbm :=
  ⟨rfl, rfl, rfl, rfl, rfl, rfl, rfl⟩

theorem tollCancel_eq (p : TollFor → Bool) : s.tollCancel p = (s.tollsLess p).tollShow := rfl

/-- What a rail's failure in D0, outside an entry and a wake, does after it is logged. -/
def State.railAct (s : State) (r : Nat) : Answer :=
  if r = 7 then .next (s.tell (.note 2 7))
  else
    let s : State := { s with seq := { s.seq with hbmLost := decide (r = 0 ∨ r = 4) } }
    let s := s.emergency (if r = 1 ∨ r = 6 then 3 else 1) r
    .next (s.railOff r).entryEnd

/-- What a rail's failure does once its requests are gone, by what runs. -/
def State.railGone (s : State) (r d : Nat) : Answer :=
  if s.seq.wake.isSome then
    if r = 7 then .next (s.logE 0 0xE001 [r, d, s.seqStep, 0]) else .next (s.wakeAbandon r).abandonEnd
  else
    let s := s.logE 0 0xE001 [r, d, s.seqStep, 0]
    match s.seq.entry with
    | some tgt =>
      let s : State := { s with seq := { s.seq with entry := some (if r = 1 then 3 else tgt), hbmLost := s.seq.hbmLost || decide (r = 0 ∨ r = 4) } }
      .next (s.railOff r).entryEnd
    | none => if d ≠ 0 then .next s else s.railAct r

/-- What a rail's failure does after its GOOD bit is cleared. -/
def State.railLost (s : State) (r : Nat) : Answer :=
  let d := s.fld F.PWR_STAT_DSTATE
  if d = 3 ∧ !s.flag F.PWR_STAT_BUSY ∧ r ≠ 6 then .next s
  else
    let failed := s.fld F.PWR_RAIL_FAILED
    let s := s.setFld F.PWR_RAIL_FAILED (if bitsOf failed r 1 = 1 then failed else failed + 2 ^ r)
    ((s.withBad (s.badWith r)).tollCancel (tollOnRail r)).railGone r d

section
variable {s} {dt : Nat} {rail : Fin 8}

theorem execRailFailure_eq : execRailFailure dt rail s = if rail.val = 5 then .next (s.tick dt).aonLost else
    State.railLost ((s.tick dt).setFld F.PWR_RAIL_GOOD (if bitsOf ((s.tick dt).fld F.PWR_RAIL_GOOD) rail 1 = 1 then
      (s.tick dt).fld F.PWR_RAIL_GOOD - 2 ^ rail.val else (s.tick dt).fld F.PWR_RAIL_GOOD)) rail := rfl

theorem exec_railFailure (h5 : rail.val ≠ 5) (he : s.seq.entry = none) (hw : s.seq.wake = none) (hd : s.fld F.PWR_STAT_DSTATE = 0) :
    exec (.railFailure dt rail) s = ((s.tick dt).railLogged rail).railAct rail := by
  have hgood : ((s.tick dt).putBit F.PWR_RAIL_GOOD rail 0).fld F.PWR_STAT_DSTATE = 0 :=
    (fld_setFld_at (s.tick dt) _ Nat.one_pos (by decide)).trans hd
  have hlost : execRailFailure dt rail s = ((s.tick dt).putBit F.PWR_RAIL_GOOD rail 0).railLost rail := by
    rw [execRailFailure_eq, if_neg h5, bitCleared_eq, ← State.putBit]
  obtain ⟨u, hu⟩ : ∃ u, u = (s.tick dt).railDown rail := ⟨_, rfl⟩
  have hseq : u.seq = (s.tick dt).seq := by rw [hu, show State.railDown _ _ = _ from railDown_onlyRegs ..]
  obtain ⟨w, hv⟩ : ∃ w : State, w = (u.withBad (u.badWith rail.val)).tollCancel (tollOnRail rail.val) := ⟨_, rfl⟩
  have hws : w.seq.wake = none ∧ w.seq.entry = none ∧ w.seqStep = 0 := by
    have hwseq : w.seq = { u.seq with bad := u.badWith rail } := by
      rw [hv, tollCancel_eq, show State.tollShow _ = _ from tollShow_onlyRegs _]
      rfl
    have he : u.seq.entry = none := (congrArg Seq.entry hseq).trans he
    have hw : u.seq.wake = none := (congrArg Seq.wake hseq).trans hw
    rw [State.seqStep, hwseq, he, hw]
    exact ⟨rfl, rfl, rfl⟩
  have hlogged : (s.tick dt).railLogged rail = w.logE 0 0xE001 [rail, 0, 0, 0] := by
    rw [State.railLogged, ← hu, hv, tollCancel_eq, State.badWith, State.badWith, hseq]
  have hentry : (w.logE 0 0xE001 [rail, 0, 0, 0]).seq.entry = none := by rw [State.logE_seq, hws.2.1]
  change execRailFailure dt rail s = _
  rw [hlost, State.railLost]
  dsimp only
  rw [hgood, if_neg (by omega), bitSet_eq, ← State.putBit, ← State.railDown, ← hu, ← hv, hlogged]
  rw [State.railGone, hws.1, hws.2.2]
  dsimp only [Option.isSome_none]
  rw [if_neg (by nofun), hentry]
  rfl

end

/-! ## What the log entry of a failed rail leaves -/

/-- A failed rail's requests gone, and the queues shown. -/
def State.railShown (s : State) (r : Nat) (l : List (Nat × Option Nat)) : State := ((s.withBad l).tollsLess (tollOnRail r)).tollShow

theorem railLogged_eq : s.railLogged r = ((s.railDown r).railShown r (s.badWith r)).logE 0 0xE001 [r, 0, 0, 0] :=
  rfl

section
variable (l : List (Nat × Option Nat))

theorem railShown_keeps : s.keeps (s.railShown r l) ((.PWR_TOLL, 0, 0) :: colRegs) :=
  keeps_trans (keeps_of_regs [] ((tollsLess_regs ..).trans (withBad_regs ..))) (tollShow_keeps _)

theorem railShown_rest : (s.railShown r l).seq = { s.seq with bad := l } ∧ (s.railShown r l).log = s.log ∧ (s.railShown r l).logNext = s.logNext ∧
    (s.railShown r l).out = s.out ∧ s.sameMemory (s.railShown r l) := by
  rw [State.railShown, show State.tollShow _ = _ from tollShow_onlyRegs _]
  exact ⟨rfl, rfl, rfl, rfl, sameMemory_of_stores rfl rfl⟩

theorem fld_railShown_col {f : Fld} {c : Nat} (hc : c < 34) (hr : f.reg = .PWR_COL) (hf : F.PWR_COL_TOLL_WAIT.apart f 34 = true) :
    (s.railShown r l).fld f c = s.fld f c := (fld_tollShow_col _ hc hr hf).trans (State.fld_congr ((tollsLess_regs ..).trans (withBad_regs ..)) ..)

end

theorem railLogged_keeps : s.keeps (s.railLogged r) ((.PWR_RAIL, 0, 0) :: (.PWR_TOLL, 0, 0) :: colRegs) := by
  rw [railLogged_eq]
  exact keeps_congr (State.logE_regs ..) (keeps_trans (railDown_keeps s r) (railShown_keeps _ r _))

theorem fld_railLogged {f : Fld} {i : Nat} (hf : regHas f.reg i 0) (h1 : f.reg ≠ .PWR_RAIL) (h2 : f.reg ≠ .PWR_TOLL) (h3 : f.reg ≠ .PWR_COL) :
    (s.railLogged r).fld f i = s.fld f i :=
  fld_of_keeps (railLogged_keeps s r) hf (List.not_mem_cons_of_ne_of_not_mem (by simp [h1]) (List.not_mem_cons_of_ne_of_not_mem (by simp [h2])
    (not_mem_colRegs h3)))

theorem fld_railLogged_col {f : Fld} {c : Nat} (hc : c < 34) (hr : f.reg = .PWR_COL) (hf : F.PWR_COL_TOLL_WAIT.apart f 34 = true) :
    (s.railLogged r).fld f c = s.fld f c := by
  rw [railLogged_eq, State.fld_congr (State.logE_regs ..), fld_railShown_col _ _ _ hc hr hf]
  exact fld_of_keeps (railDown_keeps s r) (hr ▸ ⟨hc, Nat.one_pos⟩) (by simp [hr])

theorem fld_railLogged_rail {f : Fld} (hr : f.reg = .PWR_RAIL) : (s.railLogged r).fld f = (s.railDown r).fld f := by
  rw [railLogged_eq, State.fld_congr (State.logE_regs ..)]
  exact fld_of_keeps (railShown_keeps _ r _) (hr ▸ ⟨Nat.one_pos, Nat.one_pos⟩) (List.not_mem_cons_of_ne_of_not_mem (by simp [hr]) (not_mem_colRegs (by simp [hr])))

theorem railLogged_rest : (s.railLogged r).seq.entry = s.seq.entry ∧ (s.railLogged r).seq.wake = s.seq.wake ∧ s.logs (s.railLogged r) 0 0xE001 [r, 0, 0, 0] ∧
    (s.railLogged r).out = s.out ∧ s.sameMemory (s.railLogged r) := by
  obtain ⟨u, hu⟩ : ∃ u, u = s.railDown r := ⟨_, rfl⟩
  have hon : s.onlyRegs u := hu ▸ railDown_onlyRegs s r
  obtain ⟨w, hw⟩ : ∃ w, w = u.railShown r (s.badWith r) := ⟨_, rfl⟩
  obtain ⟨hseq, hlog, hnext, hout, hmem⟩ : w.seq = _ ∧ w.log = u.log ∧ w.logNext = u.logNext ∧ w.out = u.out ∧ u.sameMemory w := hw ▸ railShown_rest u r _
  have husame := samePowerSt_onlyRegs hon
  rw [railLogged_eq, ← hu, ← hw]
  refine ⟨?_, ?_, logs_congr (logs_logE w ..) (husame.log.symm.trans hlog.symm) (husame.logNext.symm.trans hnext.symm) rfl rfl, ?_,
    sameMemory_trans (sameMemory_onlyRegs hon) (sameMemory_trans hmem (sameMemory_of_stores (State.logE_depot ..) (State.logE_hbm ..)))⟩
  · rw [State.logE_seq, hseq, husame.seq]
  · rw [State.logE_seq, hseq, husame.seq]
  · rw [State.logE_out, hout, husame.out]

end

/-! ## The HBM domains off -/

/-- `t` is `s` after domains of `ds` have lost their supply. -/
structure State.DomsLost (s t : State) (ds : List Nat) : Prop where
  power : ∀ g ∈ powerRegs, g ≠ .PWR_DOM → ∀ i j, regHas g i j → t.reg g i j = s.reg g i j
  doms : ∀ k < 15, k ∉ ds → t.fld F.PWR_DOM_STATE k = s.fld F.PWR_DOM_STATE k
  off : ∀ k ∈ ds, t.fld F.PWR_DOM_STATE k = 0
  rest : s.samePowerSt t
  zero : ∀ a, s.hbmByte a = 0 → t.hbmByte a = 0
  lost : ∀ a, a / 0x600000000 + 6 ∈ ds → t.hbmByte a = 0

theorem DomsLost.trans {s t u : State} {ds ds' : List Nat} (h : s.DomsLost t ds) (h' : t.DomsLost u ds') (hlt : ∀ k ∈ ds, k < 15) :
    s.DomsLost u (ds ++ ds') where
  power g hg hn i j hr := (h'.power g hg hn i j hr).trans (h.power g hg hn i j hr)
  doms k hk hn := (h'.doms k hk fun hm => hn (List.mem_append_right _ hm)).trans (h.doms k hk fun hm => hn (List.mem_append_left _ hm))
  off k hk := by
    by_cases hm : k ∈ ds'
    · exact h'.off k hm
    · have hk := (List.mem_append.1 hk).resolve_right hm
      rw [h'.doms k (hlt k hk) hm, h.off k hk]
  rest := samePowerSt_trans h.rest h'.rest
  zero a ha := h'.zero a (h.zero a ha)
  lost a ha := (List.mem_append.1 ha).elim (fun hm => h'.zero a (h.lost a hm)) (h'.lost a)

section
variable (s : State) {d : Nat}

/-- What an HBM domain's stream engine held is lost. -/
def State.engineLost (s : State) (d : Nat) : State :=
  { s with slots := mapClear (256 * (d - 6)) (256 * (d - 5)) s.slots, engines := mapClear (d - 6) (d - 5) s.engines
           pmap := mapClear (12288 * (d - 6)) (12288 * (d - 5)) s.pmap }

theorem engineLost_samePowerSt : s.samePowerSt (s.engineLost d) := ⟨rfl, rfl, rfl, rfl, rfl, rfl, rfl, rfl, rfl⟩
theorem engineLost_regs : (s.engineLost d).regs = s.regs := rfl
theorem engineLost_hbm : (s.engineLost d).hbm = s.hbm := rfl

theorem hbmGone_samePowerSt (k : Nat) : s.samePowerSt (s.hbmGone k) := ⟨rfl, rfl, rfl, rfl, rfl, rfl, rfl, rfl, rfl⟩
theorem hbmGone_regs (k : Nat) : (s.hbmGone k).regs = s.regs := rfl

theorem hbmGone_hbmByte (k a : Nat) : (s.hbmGone k).hbmByte a = if a / 0x600000000 = k then 0 else s.hbmByte a := by
  have h : (k * 0x600000000 ≤ a ∧ a < k * 0x600000000 + 0x600000000) ↔ a / 0x600000000 = k := by omega
  rw [← if_congr h rfl rfl]
  exact mapGet_mapClear 0 s.hbm (k * 0x600000000) (k * 0x600000000 + 0x600000000) a

theorem domGone_hbm (h6 : 6 ≤ d) (h9 : d ≤ 9) : s.domGone d = ((s.dropRegs (inDomain d)).engineLost d).setFld F.PWR_DOM_STATE 0 d := by
  unfold State.domGone
  dsimp only
  rw [if_neg (show ¬ 15 ≤ d by omega), if_neg (show ¬ d = 1 by omega), if_neg (show ¬ d = 2 by omega), if_neg (show ¬ d = 2 by omega),
    if_neg (show ¬ d = 4 by omega), if_neg (show ¬ d = 14 by omega), if_neg (show ¬ d = 5 by omega),
    if_neg (show ¬ (10 ≤ d ∧ d ≤ 13) by omega), if_pos (show 6 ≤ d ∧ d ≤ 9 from ⟨h6, h9⟩), State.engineLost]

/-- One HBM domain and its stack lost. -/
theorem hbmDomain_lost (h6 : 6 ≤ d) (h9 : d ≤ 9) : s.DomsLost ((s.hbmGone (d - 6)).domGone d) [d] := by
  obtain ⟨u, hu⟩ : ∃ u, u = ((s.hbmGone (d - 6)).dropRegs (inDomain d)).engineLost d := ⟨_, rfl⟩
  have hpow : s.samePower u := hu ▸ samePower_trans (samePower_of_regs (hbmGone_regs ..)) (samePower_trans (samePower_dropRegs _ d)
    (samePower_of_regs (engineLost_regs _)))
  have hrest : s.samePowerSt u := hu ▸ samePowerSt_trans (hbmGone_samePowerSt ..) (samePowerSt_trans (dropRegs_samePowerSt ..) (engineLost_samePowerSt _))
  have hhbm (a : Nat) : u.hbmByte a = if a / 0x600000000 = d - 6 then 0 else s.hbmByte a := by
    rw [← hbmGone_hbmByte, hu]
    rfl
  obtain ⟨t, ht⟩ : ∃ t, t = u.setFld F.PWR_DOM_STATE 0 d := ⟨_, rfl⟩
  have hon : u.onlyRegs t := ht ▸ onlyRegs_setFld ..
  have hbyte (a : Nat) : t.hbmByte a = u.hbmByte a := by rw [State.hbmByte, State.hbmByte, onlyRegs_hbm hon]
  have hdom : regHas .PWR_DOM d 0 := ⟨show d < 15 by omega, Nat.one_pos⟩
  rw [domGone_hbm _ h6 h9, ← hu, ← ht]
  refine ⟨fun g hg hn i j hr => ?_, fun k hk hn => ?_, fun k hk => ?_, samePowerSt_trans hrest (samePowerSt_onlyRegs hon), fun a ha => ?_, fun a ha => ?_⟩
  · rw [ht, keeps_setFld u F.PWR_DOM_STATE 0 hdom g i j hr (by simp [hn]), hpow g hg i j hr]
  · rw [ht, fld_setFld_index (n := 15) _ _ (by omega) hk (by simpa using hn) rfl (by decide),
      fld_samePower hpow (f := F.PWR_DOM_STATE) (by decide) ⟨hk, Nat.one_pos⟩]
  · rw [List.mem_singleton.1 hk, ht, fld_setFld_eq _ _ (by decide) (by decide)]
  · rw [hbyte, hhbm, ha, ite_self]
  · rw [hbyte, hhbm, if_pos (by have := List.mem_singleton.1 ha; omega)]

theorem railOff_hbm : s.railOff 4 = [6, 7, 8, 9].foldl (fun s d => (s.hbmGone (d - 6)).domGone d) s := rfl

theorem railOff_lost : s.DomsLost (s.railOff 4) [6, 7, 8, 9] := by
  rw [railOff_hbm]
  have h6 := hbmDomain_lost s (d := 6) (by decide) (by decide)
  have h7 := DomsLost.trans h6 (hbmDomain_lost _ (d := 7) (by decide) (by decide)) (by decide)
  have h8 := DomsLost.trans h7 (hbmDomain_lost _ (d := 8) (by decide) (by decide)) (by decide)
  exact DomsLost.trans h8 (hbmDomain_lost _ (d := 9) (by decide) (by decide)) (by decide)

end

end Sys2Proof.Machine
end

section
/-! A rail that fails in D0 (R459), and the rails that a wake waits for (R460). -/
namespace Sys2Proof.Machine

section
variable {s : State} {dt : Nat} {rail : Fin 8}

theorem down_of_goesDown {s u t : State} {tgt : Nat} (h : u.GoesDown t tgt) (hd : u.fld F.PWR_STAT_DSTATE = s.fld F.PWR_STAT_DSTATE)
    (he : u.seq.entry = none) (hc : ∀ c < 34, u.fld F.PWR_COL_STATE c = s.fld F.PWR_COL_STATE c) :
    t.flag F.PWR_STAT_BUSY = true ∧ t.fld F.PWR_STAT_DSTATE = s.fld F.PWR_STAT_DSTATE ∧ t.tollHigh = [] ∧ t.tollNorm = [] ∧
    t.seq.entry = some tgt ∧ t.seq.wake = none ∧ ∀ c < 34, s.fld F.PWR_COL_STATE c ≠ 3 → (t.col c).leaving = some 3 :=
  ⟨h.busy, h.dstate.trans hd, h.high, h.norm, by rw [h.seq]; exact entering_entry he tgt, by rw [h.seq]; rfl,
    fun c hlt hst => h.leaving c hlt (by rwa [hc c hlt])⟩

section
variable (he : s.seq.entry = none) (hw : s.seq.wake = none) (hd : s.fld F.PWR_STAT_DSTATE = 0)
include he hw hd

/-- VIO33 fails in D0: it is reported, and nothing stops. -/
theorem vioFailure (h7 : rail.val = 7) : ∃ t, exec (.railFailure dt rail) s = .next t ∧ t.regs = ((s.tick dt).railLogged rail).regs ∧
    s.logs t 0 0xE001 [7, 0, 0, 0] ∧ t.out = s.out ++ [.report (.note 2 7)] ∧ t.seq.entry = none := by
  obtain ⟨hent, -, hlogs, hout, -⟩ := railLogged_rest (s.tick dt) rail
  obtain ⟨u, hu⟩ : ∃ u, u = (s.tick dt).railLogged rail := ⟨_, rfl⟩
  rw [← hu] at hent hlogs hout ⊢
  have hact : u.railAct rail = .next (u.tell (.note 2 7)) := if_pos h7
  refine ⟨u.tell (.note 2 7), (exec_railFailure (by omega) he hw hd).trans (hu ▸ hact), rfl, ?_, ?_, hent.trans he⟩
  · rw [h7] at hlogs
    exact hlogs
  · exact congrArg (· ++ [.report (.note 2 7)]) hout

/-- The HBM supply fails in D0: emergency entry, with the HBM domains off at once. -/
theorem hbmRailFailure (h4 : rail.val = 4) (hiod : s.domOn 2 = true) : ∃ w u t : State, exec (.railFailure dt rail) s = .next t ∧
    w.regs = ((s.tick dt).railLogged rail).regs ∧ w.seq.entry = none ∧ s.sameMemory w ∧ w.GoesDown u 1 ∧ u.flag F.PWR_STAT_EMERG = true ∧
    u.DomsLost t [6, 7, 8, 9] := by
  obtain ⟨hent, -, -, -, hmem⟩ := railLogged_rest (s.tick dt) rail
  obtain ⟨v, hv⟩ : ∃ v, v = (s.tick dt).railLogged rail := ⟨_, rfl⟩
  have hdom : v.domOn 2 = true := by
    rw [State.domOn, hv, fld_railLogged (f := F.PWR_DOM_STATE) _ _ ⟨by decide, by decide⟩ (by decide) (by decide) (by decide)]
    exact hiod
  obtain ⟨w, hw'⟩ : ∃ w : State, w = { v with seq := { v.seq with hbmLost := true } } := ⟨_, rfl⟩
  have hwr : w.regs = v.regs := by rw [hw']
  have hwe : w.seq.entry = none := by
    rw [hw', hv]
    exact hent.trans he
  have hemerg : w.emergency 1 4 = (w.alarmed 4).entered 1 := emergency_of_iod w 1 4 ((domOn_of_regs hwr 2).trans hdom)
  have hdown := alarmed_entered_goesDown w 1 4
  have hlost := railOff_lost ((w.alarmed 4).entered 1)
  have hiodLost : (((w.alarmed 4).entered 1).railOff 4).domOn 2 = true := by
    rw [State.domOn, hlost.doms 2 (by decide) (by decide), fld_of_keeps hdown.keeps (f := F.PWR_DOM_STATE) (i := 2) (j := 0) ⟨by decide, by decide⟩
      (List.not_mem_cons_of_ne_of_not_mem (by decide) (List.not_mem_cons_of_ne_of_not_mem (by decide) (not_mem_colRegs (by decide)))),
      State.fld_congr hwr]
    exact hdom
  have hseq : (((w.alarmed 4).entered 1).railOff 4).seq.entry = some 1 := by
    rw [hlost.rest.seq, hdown.seq]
    exact entering_entry hwe 1
  have hend : (((w.alarmed 4).entered 1).railOff 4).entryEnd = ((w.alarmed 4).entered 1).railOff 4 :=
    entryEnd_of_not_done hseq (by decide) (offDone_iod hiodLost 1)
  have hact : v.railAct 4 = .next (((w.alarmed 4).entered 1).railOff 4) := by
    rw [← hend, ← hemerg, hw']
    rfl
  refine ⟨w, (w.alarmed 4).entered 1, _, (exec_railFailure (by omega) he hw hd).trans ?_, ?_, hwe, ?_, hdown, ?_, hlost⟩
  · rw [← hv, h4, hact]
  · rw [hwr, hv]
  · rw [hv] at hw'
    exact sameMemory_trans hmem (sameMemory_of_stores (by rw [hw']) (by rw [hw']))
  · rw [flag_alarmed_entered w 1 4 rfl (by decide), alarmed_emerg]

end

/-- VDD_AON is lost: every domain is off, and flash and fuses stay. -/
theorem exec_aonFailure (h5 : rail.val = 5) : exec (.railFailure dt rail) s = .next (s.tick dt).aonLost := if_pos h5

theorem aonLost_leaves (u : State) : u.aonLost.regs = State.reset.regs ∧ u.aonLost.log = [] ∧ u.aonLost.way = [] ∧ u.aonLost.mirror = u.mirror ∧
    u.aonLost.pending = u.pending ∧ u.aonLost.fuseBox = u.fuseBox := ⟨rfl, rfl, rfl, rfl, rfl, rfl⟩

end

/-! ## The rails that a wake waits for -/

section
variable {s : State} {dt w : Nat}

/-- The rails that are not good. -/
def State.badRails (s : State) : List Nat := (List.range 8).filter fun r => bitsOf (s.fld F.PWR_RAIL_GOOD) r 1 = 0

/-- Rails 0 to 6 good: the wake goes on. -/
theorem wakeRailTimeout_goesOn (h : s.seq.rails = true) (hgood : ∀ r < 7, bitsOf (s.fld F.PWR_RAIL_GOOD) r 1 = 1) :
    exec (.wakeRailTimeout dt) s = .next (s.tick dt).wakeRails := by
  have hbad : s.badRails = [] ∨ s.badRails = [7] := by
    have hlow : (List.range 7).filter (fun r => decide (bitsOf (s.fld F.PWR_RAIL_GOOD) r 1 = 0)) = [] :=
      List.filter_eq_nil_iff.2 fun r hr => by simp [hgood r (List.mem_range.1 hr)]
    rw [State.badRails, List.range_succ, List.filter_append, hlow, List.nil_append, List.filter_cons, List.filter_nil]
    split
    · exact .inr rfl
    · exact .inl rfl
  have h : (s.tick dt).seq.rails = true := h
  have hbad : (s.tick dt).badRails = [] ∨ (s.tick dt).badRails = [7] := hbad
  change execWakeRailTimeout dt s = _
  unfold execWakeRailTimeout
  dsimp only
  rw [if_pos h, ← State.badRails]
  obtain hbad | hbad := hbad
  · rw [hbad]
  · rw [hbad]
    rfl

/-- A rail below VIO33 is not good: the wake is abandoned. -/
theorem wakeRailTimeout_abandons {r : Nat} (h : s.seq.rails = true) (hr : r < 7) (hbad : bitsOf (s.fld F.PWR_RAIL_GOOD) r 1 = 0) :
    ∃ k, exec (.wakeRailTimeout dt) s = .next ((s.tick dt).wakeAbandon k).abandonEnd := by
  have h : (s.tick dt).seq.rails = true := h
  have hmem : r ∈ (s.tick dt).badRails := List.mem_filter.2 ⟨List.mem_range.2 (by omega), decide_eq_true hbad⟩
  change ∃ k, execWakeRailTimeout dt s = _
  unfold execWakeRailTimeout
  dsimp only
  rw [if_pos h, ← State.badRails]
  split
  · next hnil => rw [hnil] at hmem; cases hmem
  · next h7 =>
    rw [h7] at hmem
    exact absurd (List.mem_singleton.1 hmem) (by omega)
  · exact ⟨_, rfl⟩

end

/-! ## A wake is abandoned with nothing switched on -/

section
variable (s : State) (r : Nat)

/-- WAKE_FAIL, and the log entry of an abandoned wake. -/
def State.wakeFailed (s : State) (r : Nat) : State :=
  (s.setFld F.PWR_STAT_WAKE_FAIL 1).logE 0 0xE001 [r, s.fld F.PWR_STAT_DSTATE, s.seqStep, 0]

/-- What an abandoned wake has switched on, columns first. -/
def State.wakeOn (s : State) : List Nat :=
  ((List.range 34).reverse.filter fun c => s.fld F.PWR_COL_STATE c != 3 || (s.col c).starting).map (15 + ·) ++
    ((List.range 15).reverse.filter fun d => s.fld F.PWR_DOM_STATE d == 3) ++ s.seq.on

/-- The queues and the sequence of an abandoned wake. -/
def State.abandoning (s : State) (l : List Nat) : State :=
  { s with tollHigh := [], tollNorm := [], seq := { s.seq with rails := false, abandon := true, on := l } }

theorem wakeAbandon_eq : s.wakeAbandon r = ((s.wakeFailed r).abandoning (s.wakeFailed r).wakeOn).tollShow := rfl

theorem wakeFailed_regs : (s.wakeFailed r).regs = (s.setFld F.PWR_STAT_WAKE_FAIL 1).regs := State.logE_regs ..

theorem wakeFailed_rest : (s.wakeFailed r).seq = s.seq ∧ (s.wakeFailed r).cols = s.cols ∧ s.sameMemory (s.wakeFailed r) := by
  refine ⟨?_, ?_, sameMemory_of_stores ?_ ?_⟩
  · rw [State.wakeFailed, State.logE_seq, State.setFld_seq]
  · rw [State.wakeFailed, State.logE_cols, State.setFld_cols]
  · rw [State.wakeFailed, State.logE_depot, State.setFld_depot]
  · rw [State.wakeFailed, State.logE_hbm, State.setFld_hbm]

theorem abandoning_regs (l : List Nat) : (s.abandoning l).regs = s.regs := rfl

theorem abandoning_rest (l : List Nat) : (s.abandoning l).seq = { s.seq with rails := false, abandon := true, on := l } ∧ (s.abandoning l).tollHigh = [] ∧
    s.sameMemory (s.abandoning l) := ⟨rfl, rfl, sameMemory_of_stores rfl rfl⟩

theorem wakeOn_of_none (hon : s.seq.on = []) (hdom : ∀ d < 15, s.fld F.PWR_DOM_STATE d ≠ 3)
    (hcol : ∀ c < 34, s.fld F.PWR_COL_STATE c = 3 ∧ (s.col c).starting = false) : s.wakeOn = [] := by
  have hcols : ((List.range 34).reverse.filter fun c => s.fld F.PWR_COL_STATE c != 3 || (s.col c).starting) = [] :=
    List.filter_eq_nil_iff.2 fun c hc => by
      obtain ⟨h3, hs⟩ := hcol c (List.mem_range.1 (List.mem_reverse.1 hc))
      simp [h3, hs]
  have hdoms : ((List.range 15).reverse.filter fun d => s.fld F.PWR_DOM_STATE d == 3) = [] :=
    List.filter_eq_nil_iff.2 fun d hd => by simp [hdom d (List.mem_range.1 (List.mem_reverse.1 hd))]
  rw [State.wakeOn, hcols, hdoms, hon]
  rfl

/-- The sequence and the rails of a wake whose abandonment is over. -/
def State.wakeOver (s : State) (back : Nat) : State :=
  { s with railsOffN := decide (back = 1), seq := { s.seq with wake := none, abandon := false } }

theorem abandonEnd_of_none {s : State} {w : Nat} (hw : s.seq.wake = some w) (ha : s.seq.abandon = true) (ho : s.seq.on = []) :
    s.abandonEnd = (s.slept (if w = 1 then 1 else 3)).wakeOver (if w = 1 then 1 else 3) := by
  have hseq : (s.slept (if w = 1 then 1 else 3)).seq = s.seq := by rw [State.slept, State.setFld_seq, State.setFld_seq]
  rw [State.abandonEnd, hw]
  dsimp only
  rw [if_pos ⟨ha, by rw [ho]; rfl⟩, State.wakeOver, hseq]
  rfl

theorem wakeOver_regs (back : Nat) : (s.wakeOver back).regs = s.regs := rfl

theorem wakeOver_rest (back : Nat) : (s.wakeOver back).seq.wake = none ∧ (s.wakeOver back).railsOffN = decide (back = 1) ∧
    (s.wakeOver back).tollHigh = s.tollHigh ∧ s.sameMemory (s.wakeOver back) := ⟨rfl, rfl, rfl, sameMemory_of_stores rfl rfl⟩

theorem abandoned_leaves {w : Nat} (hw : s.seq.wake = some w) (hon : s.seq.on = []) (hdom : ∀ d < 15, s.fld F.PWR_DOM_STATE d ≠ 3)
    (hcol : ∀ c < 34, s.fld F.PWR_COL_STATE c = 3 ∧ (s.col c).starting = false) : let t := (s.wakeAbandon r).abandonEnd
    t.flag F.PWR_STAT_WAKE_FAIL = true ∧ t.flag F.PWR_STAT_BUSY = false ∧ t.fld F.PWR_STAT_DSTATE = (if w = 1 then 1 else 3) ∧ t.seq.wake = none ∧
    t.railsOffN = decide (w = 1) ∧ t.tollHigh = [] ∧ s.sameMemory t := by
  obtain ⟨hseq, hcols, hmem⟩ := wakeFailed_rest s r
  have hwakeOn : (s.wakeFailed r).wakeOn = [] := by
    refine wakeOn_of_none _ (by rw [hseq, hon]) (fun d hd => ?_) fun c hc => ?_
    · rw [State.fld_congr (wakeFailed_regs ..), fld_setFld_foreign (n := 1) (m := 15) _ _ Nat.one_pos hd (by decide)]
      exact hdom d hd
    · rw [State.fld_congr (wakeFailed_regs ..), fld_setFld_foreign (n := 1) (m := 34) _ _ Nat.one_pos hc (by decide), State.col, hcols]
      exact hcol c hc
  obtain ⟨u, hu⟩ : ∃ u, u = s.wakeAbandon r := ⟨_, rfl⟩
  have habandon := wakeAbandon_eq s r
  rw [hwakeOn, ← hu] at habandon
  have hon : ((s.wakeFailed r).abandoning []).onlyRegs u := habandon ▸ tollShow_onlyRegs _
  obtain ⟨hseq', hhigh, hmem'⟩ := abandoning_rest (s.wakeFailed r) []
  have hus : u.seq = { s.seq with rails := false, abandon := true, on := [] } := by rw [(samePowerSt_onlyRegs hon).seq, hseq', hseq]
  have hend : u.abandonEnd = _ := abandonEnd_of_none (w := w) (by rw [hus]; exact hw) (by rw [hus]) (by rw [hus])
  obtain ⟨hds, hbusy⟩ := slept_fields (s := u) (tgt := if w = 1 then 1 else 3) (by split <;> decide)
  obtain ⟨hwake, hoff, hhigh', hmem''⟩ := wakeOver_rest (u.slept (if w = 1 then 1 else 3)) (if w = 1 then 1 else 3)
  have hsl : u.onlyRegs (u.slept (if w = 1 then 1 else 3)) := slept_onlyRegs
  rw [← hu, hend]
  refine ⟨?_, ?_, ?_, hwake, ?_, ?_, sameMemory_trans (sameMemory_trans hmem hmem')
    (sameMemory_trans (sameMemory_onlyRegs hon) (sameMemory_trans (sameMemory_onlyRegs hsl) hmem''))⟩
  · rw [flag_congr (State.fld_congr (wakeOver_regs ..) ..), State.slept, flag_congr (fld_setFld_at _ _ Nat.one_pos (by decide)),
      flag_congr (fld_setFld_at _ _ Nat.one_pos (by decide)), habandon,
      flag_of_keeps (tollShow_keeps _) (f := F.PWR_STAT_WAKE_FAIL) ⟨Nat.one_pos, Nat.one_pos⟩
        (List.not_mem_cons_of_ne_of_not_mem (by decide) (not_mem_colRegs (by decide))),
      flag_congr (State.fld_congr ((abandoning_regs ..).trans (wakeFailed_regs ..)) ..), flag_setFld_same _ _ _ _ _ (by decide)]
    rfl
  · rw [flag_congr (State.fld_congr (wakeOver_regs ..) ..), hbusy]
  · rw [State.fld_congr (wakeOver_regs ..), hds]
  · rw [hoff]
    split <;> simp [*]
  · rw [hhigh', onlyRegs_tollHigh hsl, onlyRegs_tollHigh hon, hhigh]

end

end Sys2Proof.Machine
end

section
namespace Sys2Proof.Machine

/-- A log entry after register writes. -/
theorem logs_after {s u t : State} {src code : Nat} {args : List Nat} (h : u.logs t src code args) (hl : u.log = s.log) (hn : u.logNext = s.logNext) :
    s.logs t src code args := logs_congr h hl.symm hn.symm rfl rfl

section
variable {s : State} {dt : Nat} (r : Fin 8)

theorem railGood_leaves (h : s.seq.rails = false) : ∃ t, exec (.railGood dt r) s = .next t ∧
    (∀ k < 8, bitsOf (t.fld F.PWR_RAIL_GOOD) k 1 = if k = r.val then 1 else bitsOf (s.fld F.PWR_RAIL_GOOD) k 1) ∧
    t.fld F.PWR_RAIL_FAILED = s.fld F.PWR_RAIL_FAILED ∧
    t.seq.bad = s.seq.bad.map (fun b => if b.1 = r.val ∧ b.2.isNone then (b.1, some (s.aonNs + dt)) else b) ∧
    s.keeps t [(.PWR_RAIL, 0, 0)] ∧ t = { s.tick dt with regs := t.regs, seq := t.seq } := by
  have hregs : (((s.tick dt).putBit F.PWR_RAIL_GOOD r 1).withBad (badSince s.seq.bad r (s.aonNs + dt))).regs = _ := withBad_regs ..
  refine ⟨_, exec_railGood r h, fun k _ => ?_, ?_, ?_, ?_, onlySeq_withBad (putBit_onlyRegs ..) _⟩
  · rw [State.fld_congr hregs, bitsOf_fld_putBit _ (by decide) r.isLt]
    rfl
  · rw [State.fld_congr hregs, fld_putBit_at _ _ _ (by decide)]
    rfl
  · rw [withBad_seq, badSince_eq]
  · exact keeps_of_tick (keeps_congr hregs (putBit_keeps _ _ _ ⟨Nat.one_pos, Nat.one_pos⟩))

theorem railExcursion_leaves (h : bitsOf (s.fld F.PWR_RAIL_GOOD) r 1 = 1) : ∃ t, exec (.railExcursion dt r) s = .next t ∧
    (∀ k < 8, bitsOf (t.fld F.PWR_RAIL_GOOD) k 1 = if k = r.val then 0 else bitsOf (s.fld F.PWR_RAIL_GOOD) k 1) ∧
    t.fld F.PWR_RAIL_FAILED = s.fld F.PWR_RAIL_FAILED ∧ s.logs t 0 0xE001 [r, s.fld F.PWR_STAT_DSTATE, s.seqStep, 0] ∧
    s.keeps t [(.PWR_RAIL, 0, 0)] ∧
    t = { s.tick dt with regs := t.regs, seq := t.seq, log := t.log, logNext := t.logNext, logLost := t.logLost } := by
  obtain ⟨u, hu⟩ : ∃ u, u = (s.tick dt).withBad (badAgain s.seq.bad r) := ⟨_, rfl⟩
  obtain ⟨v, hv⟩ : ∃ v, v = u.putBit F.PWR_RAIL_GOOD r 0 := ⟨_, rfl⟩
  have hon : u.onlyRegs v := hv ▸ putBit_onlyRegs ..
  have hur : u.regs = s.regs := by rw [hu]; rfl
  have hregs (args : List Nat) : (v.logE 0 0xE001 args).regs = v.regs := State.logE_regs ..
  have hexec := exec_railExcursion (dt := dt) r h
  rw [← hu, ← hv] at hexec
  refine ⟨_, hexec, fun k _ => ?_, ?_, logs_after (logs_logE ..) ?_ ?_, ?_, ?_⟩
  · rw [State.fld_congr (hregs _), hv, bitsOf_fld_putBit _ (by decide) r.isLt, State.fld_congr hur]
  · rw [State.fld_congr (hregs _), hv, fld_putBit_at _ _ _ (by decide), State.fld_congr hur]
  · rw [(samePowerSt_onlyRegs hon).log, hu]
    rfl
  · rw [(samePowerSt_onlyRegs hon).logNext, hu]
    rfl
  · refine keeps_congr (hregs _) (hv ▸ fun g i j hg hn => ?_)
    rw [putBit_keeps u r 0 (f := F.PWR_RAIL_GOOD) ⟨Nat.one_pos, Nat.one_pos⟩ g i j hg hn, State.reg_congr hur]
  · rw [show v = _ from hon, hu]
    rfl

end

/-- An MC write of PWR_DSTATE where entry may begin. -/
theorem pwrDstateWrite_enters {s : State} {dt : Nat} {v : Word} (hacc : s.access (regAddr .PWR_DSTATE) 4 = .ok (hitOf .PWR_DSTATE 0 0))
    (h31 : bitsOf v.toNat 31 1 = 1) (hodd : v.toNat % 2 = 1) (hmay : s.mayEnter = true) (he : s.seq.entry = none) (hiod : s.domOn 2 = true) :
    ∃ t, exec (.pwrDstateWrite dt .mc v) s = .next t ∧ (t.flag F.PWR_STAT_BUSY = true ∧ t.fld F.PWR_STAT_DSTATE = s.fld F.PWR_STAT_DSTATE ∧
      t.tollHigh = [] ∧ t.tollNorm = [] ∧ t.seq.entry = some (v.toNat % 4) ∧ t.seq.wake = none ∧
      ∀ c < 34, s.fld F.PWR_COL_STATE c ≠ 3 → (t.col c).leaving = some 3) ∧ t.out = s.out ∧ s.sameMemory t ∧
      s.keeps t ((.PWR_STAT, 0, 0) :: (.PWR_TOLL, 0, 0) :: colRegs) := by
  obtain ⟨u, hu⟩ : ∃ u, u = s.tick dt := ⟨_, rfl⟩
  have hmay : u.mayEnter = true := hu ▸ hmay
  have hiod : u.domOn 2 = true := hu ▸ hiod
  have hexec := exec_pwrDstateWrite (dt := dt) (v := v) hacc .mc
  rw [← hu, dstateWrite_enters h31 hodd hmay, enter_of_iod hiod] at hexec
  have hdown := entered_goesDown u (v.toNat % 4)
  have hdown' := down_of_goesDown (s := s) hdown (hu ▸ s.fld_tick ..) (by rw [hu]; exact he) fun c _ => hu ▸ s.fld_tick ..
  refine ⟨_, hexec, hdown', (onlyPower_out (entered_onlyPower ..)).trans (by rw [hu]; rfl), ?_, ?_⟩
  · exact sameMemory_trans (hu ▸ sameMemory_of_stores rfl rfl) hdown.mem
  · refine keeps_of_tick (dt := dt) ?_
    rw [← hu]
    exact hdown.keeps

/-- Settles O56: each event by the lemma about what it leaves. -/
theorem entryWakesAndRails : Obligations.EntryWakesAndRails := by
  intro dt s down
  refine ⟨fun hd he hmc hiod => ⟨?_, fun v hacc h31 hodd => ?_⟩, ?_, ?_, ?_, ?_, fun r => ?_, fun w hrails hw => ⟨?_, ?_⟩⟩
  · obtain ⟨t, hexec, hdown, -, hhold, hemerg, htrip, hn, hlogs⟩ := tripped_goesDown s (dt := dt) hd he hiod
    have hseq := tripped_seq (s.tick dt)
    refine ⟨t, hexec, down_of_goesDown hdown (fld_tripped_apart _ (by decide)) (by rw [hseq]; exact he) fun c hc => fld_tripped _ hc (by decide),
      hemerg, htrip, hn, hhold, hlogs, sameMemory_trans (tripped_sameMemory (s.tick dt)) hdown.mem,
      keeps_of_tick (keeps_mono (keeps_trans (tripped_keeps (s.tick dt)) hdown.keeps) ?_)⟩
    exact List.cons_subset.2 ⟨List.mem_cons_self .., fun _ => id⟩
  · refine ⟨fun hmay => ?_, fun hmay => ?_, fun r hr => ?_⟩
    · obtain ⟨t, hexec, hdown, hout, hmem, hkeeps⟩ := pwrDstateWrite_enters (dt := dt) hacc h31 hodd hmay he hiod
      exact ⟨t, hexec, hdown, hout, hmem, hkeeps⟩
    · exact (exec_pwrDstateWrite hacc .mc).trans (congrArg _ (dstateWrite_refused (u := s.tick dt) h31 hodd hmay))
    · exact (exec_pwrDstateWrite hacc r).trans (congrArg _ (dstateWrite_other (u := s.tick dt) hr))
  · intro c code hc h1 h2 h3 h4 h5 d
    obtain ⟨hexec, hcode⟩ := exec_wakeSource hc h1 h2 h3 h4 h5
    refine ⟨fun he hw hd hok => ?_, fun tgt he => ?_, fun w he hw => ?_⟩
    · obtain ⟨hsrc, hcount, hbusy, hds⟩ := wakeStart_leaves (s := s.tick dt) hcode
      obtain ⟨hwake, hout, hoff, htrip, hmem⟩ := wakeStart_rest (s.tick dt) code
      exact ⟨_, hexec.trans (congrArg _ (wakeBy_asleep (s := s.tick dt) he hw hd hok)), hsrc, hcount, hbusy, hds, hwake, hoff, htrip, hout, hmem⟩
    · refine ⟨_, hexec.trans (congrArg _ (wakeBy_entry (s := s.tick dt) he)), ?_, he, rfl⟩
      change some (latchedBy s.seq.latched code) = _
      cases s.seq.latched <;> rfl
    · have hmin : min code (s.fld F.PWR_WAKE_STAT_SOURCE) < 2 ^ 3 := by omega
      exact ⟨_, hexec.trans (congrArg _ (wakeBy_wake (s := s.tick dt) he hw)), fld_setFld_eq _ _ (by decide) hmin,
        keeps_of_tick (keeps_setFld _ F.PWR_WAKE_STAT_SOURCE _ ⟨Nat.one_pos, Nat.one_pos⟩), onlyRegs_setFld ..⟩
  · exact fun h3 h2 => if_pos ⟨beq_iff_eq.1 h3, beq_iff_eq.1 h2⟩
  · intro d ref iref hd hst ho he ha hw
    have hlt : d.val < 15 := by
      simp only [List.mem_cons, List.not_mem_nil, or_false] at hd
      omega
    obtain ⟨hon, href, hlock⟩ := domBack_fields (s.tick dt) hlt
    exact ⟨_, exec_domainReady_plain s ref iref hd hst ho he ha hw, hon, hlock, href, keeps_of_tick (domBack_keeps _ hlt), domBack_onlyRegs ..⟩
  · intro d tgt he htgt hl _ hd h1 hst hall
    exact lastDomain_leaves he htgt hl hd h1 hst hall
  · intro bit
    refine ⟨railGood_leaves r, railExcursion_leaves r, fun he hw hd => ⟨fun h7 => ?_, fun h4 _ hiod => ?_, fun h5 => ?_⟩⟩
    · obtain ⟨t, hexec, hregs, hlogs, hout, hent⟩ := vioFailure (dt := dt) he hw hd h7
      have hfld (f : Fld) : t.fld f = ((s.tick dt).railLogged r).fld f := State.fld_congr hregs ..
      refine ⟨t, hexec, fun k _ => ?_, fun k _ => ?_, hlogs, hout, hent, ?_⟩
      · rw [hfld, fld_railLogged_rail _ _ rfl]
        exact (railDown_bits (s.tick dt) r.isLt k).1
      · rw [hfld, fld_railLogged_rail _ _ rfl]
        exact (railDown_bits (s.tick dt) r.isLt k).2
      · rw [flag_congr (hfld _), flag_congr (fld_railLogged (f := F.PWR_STAT_EMERG) _ _ ⟨Nat.one_pos, Nat.one_pos⟩ (by decide) (by decide) (by decide))]
        rfl
    · obtain ⟨w, u, t, hexec, hwr, hwe, hmem, hdown, hemerg, hlost⟩ := hbmRailFailure (dt := dt) he hw hd h4 hiod
      have hrail (f : Fld) (hf : f.reg = .PWR_RAIL) : t.fld f = ((s.tick dt).railDown r).fld f := by
        have hg : regHas f.reg 0 0 := hf ▸ ⟨Nat.one_pos, Nat.one_pos⟩
        have ht : t.fld f = u.fld f := congrArg (bitsOf · _ _) (hlost.power _ (hf ▸ by decide) (hf ▸ by decide) 0 0 hg)
        have hn : (f.reg, 0, 0) ∉ (Reg.PWR_STAT, 0, 0) :: (.PWR_TOLL, 0, 0) :: colRegs := hf ▸
          List.not_mem_cons_of_ne_of_not_mem (by decide) (List.not_mem_cons_of_ne_of_not_mem (by decide) (not_mem_colRegs (by decide)))
        rw [ht, fld_of_keeps hdown.keeps hg hn, State.fld_congr hwr, fld_railLogged_rail _ _ hf]
      have hstat (f : Fld) (hf : f.reg = .PWR_STAT) : t.fld f = u.fld f :=
        congrArg (bitsOf · _ _) (hlost.power _ (hf ▸ by decide) (hf ▸ by decide) 0 0 (hf ▸ ⟨Nat.one_pos, Nat.one_pos⟩))
      obtain ⟨hbusy, hds, hhigh, hnorm, hent, hwake, hleave⟩ := down_of_goesDown (s := s) hdown
        ((State.fld_congr hwr ..).trans (fld_railLogged (f := F.PWR_STAT_DSTATE) _ _ ⟨Nat.one_pos, Nat.one_pos⟩ (by decide) (by decide) (by decide))) hwe
        fun c hc => (State.fld_congr hwr ..).trans (fld_railLogged_col _ _ hc rfl (by decide))
      refine ⟨t, hexec, fun k _ => ?_, fun k _ => ?_, ⟨?_, ?_, ?_, ?_, ?_, ?_, fun c hc hst => ?_⟩, ?_, fun d h6 h9 => hlost.off d ?_,
        fun a ha => hlost.lost a ?_, fun a => ?_⟩
      · rw [hrail _ rfl]
        exact (railDown_bits (s.tick dt) r.isLt k).1
      · rw [hrail _ rfl]
        exact (railDown_bits (s.tick dt) r.isLt k).2
      · rw [flag_congr (hstat _ rfl), hbusy]
      · rw [hstat _ rfl, hds]
      · rw [hlost.rest.high, hhigh]
      · rw [hlost.rest.norm, hnorm]
      · rw [hlost.rest.seq, hent]
      · rw [hlost.rest.seq, hwake]
      · rw [State.col, hlost.rest.cols]
        exact hleave c hc hst
      · rw [flag_congr (hstat _ rfl), hemerg]
      · simp only [List.mem_cons, List.not_mem_nil, or_false]
        omega
      · simp only [List.mem_cons, List.not_mem_nil, or_false]
        omega
      · rw [State.depByte, hlost.rest.depot]
        exact (hdown.mem.1 a).trans (hmem.1 a)
    · obtain ⟨h1, h2, h3, h4, h6, h7⟩ := aonLost_leaves (s.tick dt)
      exact ⟨_, exec_aonFailure h5, h1, h2, h3, h4, h6, h7⟩
  · intro r hr hbad hon hdom hcol
    obtain ⟨k, hexec⟩ := wakeRailTimeout_abandons (dt := dt) hrails hr hbad
    obtain ⟨h1, h2, h3, h4, h5, h6, h7⟩ := abandoned_leaves (s.tick dt) k hw hon hdom hcol
    exact ⟨_, hexec, h1, h2, h3, h4, h5, h6, h7⟩
  · intro hgood
    obtain ⟨hseq, hout, -, -, hmem⟩ := wakeRails_rest (s.tick dt)
    refine ⟨_, wakeRailTimeout_goesOn hrails hgood, by rw [hseq], by rw [hseq]; exact hw, flag_congr ?_, hout, hmem⟩
    exact fld_wakeRails _ ⟨Nat.one_pos, Nat.one_pos⟩ (by decide) (by decide) (by decide)

end Sys2Proof.Machine
end

section
/-! The REFCLK monitor, and the MC clock (R463, R464). -/
namespace Sys2Proof.Machine

section
variable (s : State)

/-- REFCLK in a state of the monitor. -/
def State.refTo (s : State) (v : Nat) : State := s.setFld F.CLK_STAT_REF v

/-- A loss of REFCLK: holdover, its mark and its count. -/
def State.refLost (s : State) : State := ((s.refTo 1).setFld F.CLK_STAT_REF_LOST 1).inc F.CLK_REF_CNT_LOSSES

/-- REFCLK is back after it was given up. -/
def State.refBack (s : State) : State := (s.refTo 0).setFld F.CLK_STAT_RETURNED 1

theorem refTo_onlyRegs (v : Nat) : s.onlyRegs (s.refTo v) := onlyRegs_setFld ..

theorem refTo_keeps (v : Nat) : s.keeps (s.refTo v) [(.CLK_STAT, 0, 0)] := keeps_setFld s F.CLK_STAT_REF v ⟨Nat.one_pos, Nat.one_pos⟩

theorem refTo_ref {v : Nat} (hv : v < 4) : (s.refTo v).fld F.CLK_STAT_REF = v := fld_setFld_eq _ _ (by decide) hv

theorem fld_refTo (v : Nat) {f : Fld} (hf : F.CLK_STAT_REF.apart f 1 = true) : (s.refTo v).fld f = s.fld f := fld_setFld_at s v Nat.one_pos hf

theorem refLost_leaves : s.refLost.fld F.CLK_STAT_REF = 1 ∧ s.refLost.flag F.CLK_STAT_REF_LOST = true ∧
    s.refLost.fld F.CLK_REF_CNT_LOSSES = min (s.fld F.CLK_REF_CNT_LOSSES + 1) 65535 ∧ s.refLost.fld F.CLK_STAT_LOCK = s.fld F.CLK_STAT_LOCK ∧
    s.keeps s.refLost [(.CLK_STAT, 0, 0), (.CLK_REF_CNT, 0, 0)] ∧ s.onlyRegs s.refLost := by
  refine ⟨?_, ?_, ?_, ?_, ?_, onlyRegs_trans (refTo_onlyRegs s 1) (onlyRegs_trans (onlyRegs_setFld ..) (onlyRegs_inc ..))⟩
  · rw [State.refLost, fld_inc_at _ Nat.one_pos (by decide), fld_setFld_at _ _ Nat.one_pos (by decide), refTo_ref s (by decide)]
  · rw [State.refLost, flag_congr (fld_inc_at _ Nat.one_pos (by decide)), flag_setFld_same _ _ _ _ _ (by decide)]
    rfl
  · rw [State.refLost, State.fld_inc_same _ _ _ _ (by decide), fld_setFld_at _ _ Nat.one_pos (by decide), fld_refTo s 1 (by decide)]
    rfl
  · rw [State.refLost, fld_inc_at _ Nat.one_pos (by decide), fld_setFld_at _ _ Nat.one_pos (by decide), fld_refTo s 1 (by decide)]
  · exact keeps_mono (keeps_trans (refTo_keeps s 1) (keeps_trans (keeps_setFld _ F.CLK_STAT_REF_LOST 1 ⟨Nat.one_pos, Nat.one_pos⟩)
      (keeps_inc _ F.CLK_REF_CNT_LOSSES ⟨Nat.one_pos, Nat.one_pos⟩))) (by simp)

theorem refGlitch_leaves : let t := s.inc F.CLK_REF_CNT_GLITCHES
    t.fld F.CLK_REF_CNT_GLITCHES = min (s.fld F.CLK_REF_CNT_GLITCHES + 1) 65535 ∧ t.fld F.CLK_REF_CNT_LOSSES = s.fld F.CLK_REF_CNT_LOSSES ∧
    s.keeps t [(.CLK_REF_CNT, 0, 0)] ∧ s.onlyRegs t :=
  ⟨State.fld_inc_same _ _ _ _ (by decide), fld_inc_at s Nat.one_pos (by decide), keeps_inc s F.CLK_REF_CNT_GLITCHES ⟨Nat.one_pos, Nat.one_pos⟩,
    onlyRegs_inc ..⟩

theorem refBack_leaves : s.refBack.fld F.CLK_STAT_REF = 0 ∧ s.refBack.flag F.CLK_STAT_RETURNED = true ∧
    s.keeps s.refBack [(.CLK_STAT, 0, 0)] ∧ s.onlyRegs s.refBack := by
  refine ⟨?_, ?_, keeps_setFld_of_keeps (f := F.CLK_STAT_RETURNED) _ _ (refTo_keeps s 0) ⟨Nat.one_pos, Nat.one_pos⟩ (List.mem_singleton_self _),
    onlyRegs_trans (refTo_onlyRegs s 0) (onlyRegs_setFld ..)⟩
  · rw [State.refBack, fld_setFld_at _ _ Nat.one_pos (by decide), refTo_ref s (by decide)]
  · rw [State.refBack, flag_setFld_same _ _ _ _ _ (by decide)]
    rfl

section
variable {s} {dt : Nat}

theorem exec_refclkLoss (h : s.fld F.CLK_STAT_REF = 0) : exec (.refclkLoss dt) s = .next (s.tick dt).refLost := if_pos h

theorem exec_refclkHoldoverTimeout (h : s.fld F.CLK_STAT_REF = 1) : exec (.refclkHoldoverTimeout dt) s = .next ((s.tick dt).refTo 2) := if_pos h

/-- The members that wait for a clock are none, before and after register writes. -/
theorem calUnskip_onlyRegs {t : State} (h : s.onlyRegs t) (hcal : ∀ e ∈ s.cal, e.2.skip = false) (p : Nat → Bool) : t.calUnskip p = t :=
  calUnskip_of_none t (by rw [onlyRegs_cal h]; exact hcal) p

theorem exec_refclkRelock (h : s.fld F.CLK_STAT_REF = 1) (hcal : ∀ e ∈ s.cal, e.2.skip = false) :
    exec (.refclkRelock dt) s = .next ((s.tick dt).refTo 0) := by
  have hrun : exec (.refclkRelock dt) s = .next (((s.tick dt).refTo 0).calUnskip fun k => decide (k / 2048 = 8)) := if_pos h
  rw [hrun, calUnskip_onlyRegs (refTo_onlyRegs (s.tick dt) 0) hcal]

theorem exec_refclkReturn (h : s.fld F.CLK_STAT_REF = 2) (hcal : ∀ e ∈ s.cal, e.2.skip = false) :
    exec (.refclkReturn dt) s = .next (s.tick dt).refBack := by
  have hrun : exec (.refclkReturn dt) s = .next ((s.tick dt).refBack.calUnskip fun k => decide (k / 2048 = 8)) := if_pos h
  rw [hrun, calUnskip_onlyRegs (refBack_leaves (s.tick dt)).2.2.2 hcal]

/-! ## The MC clock -/

section
variable {r : Requester} {v : Word} (ha : s.access (regAddr .CLK_MC) 4 = .ok (hitOf .CLK_MC 0 0))
include ha

theorem exec_clkMcWrite : exec (.clkMcWrite dt r v) s = .next ((s.tick dt).clkMcWrite r v.toNat) :=
  congrArg Host.Outcome.next (accessing_of_ok (s := s.tick dt) ha r v.toNat fun _ => (s.tick dt).clkMcWrite r v.toNat)

theorem clkMcWrite_selects (hr : r = .mc) (hl : v.toNat % 2 = 1 → bitsOf (s.fld F.CLK_STAT_LOCK) 2 1 = 1) :
    exec (.clkMcWrite dt r v) s = .next ((s.tick dt).setFld F.CLK_MC_SEL (v.toNat % 2)) := by
  have hlock : ¬ (v.toNat % 2 = 1 ∧ bitsOf ((s.tick dt).fld F.CLK_STAT_LOCK) 2 1 = 0) := fun h => absurd ((hl h.1).symm.trans h.2) (by decide)
  rw [exec_clkMcWrite ha, State.clkMcWrite, if_neg (not_not.2 hr), if_neg hlock]

theorem clkMcWrite_unlocked (hr : r = .mc) (hv : v.toNat % 2 = 1) (hl : bitsOf (s.fld F.CLK_STAT_LOCK) 2 1 = 0) :
    exec (.clkMcWrite dt r v) s = .next ((s.tick dt).aelReg r (regAddr .CLK_MC) 9 0 v.toNat) := by
  rw [exec_clkMcWrite ha, State.clkMcWrite, if_neg (not_not.2 hr), if_pos ⟨hv, hl⟩]

theorem clkMcWrite_other (hr : r ≠ .mc) : exec (.clkMcWrite dt r v) s = .next ((s.tick dt).aelReg r (regAddr .CLK_MC) 11 0 v.toNat) := by
  rw [exec_clkMcWrite ha, State.clkMcWrite, if_pos hr]

end

end

end

end Sys2Proof.Machine
end

section
namespace Sys2Proof.Machine

/-- Settles O57: each event of the monitor writes its fields of CLK_STAT and CLK_REF_CNT, and the MC alone writes CLK_MC. -/
theorem clocksFollowTheMonitor : Obligations.ClocksFollowTheMonitor := by
  intro dt s ref only
  refine ⟨fun h => ?_, ?_, fun h => ?_, fun hcal => ⟨fun h => ?_, fun h => ?_⟩, fun r v ha => ⟨fun hr hl => ?_, clkMcWrite_unlocked ha,
    clkMcWrite_other ha⟩⟩
  · obtain ⟨h1, h2, h3, h4, h5, h6⟩ := refLost_leaves (s.tick dt)
    exact ⟨_, exec_refclkLoss h, h1, h2, h3, h4, keeps_of_tick h5, h6⟩
  · obtain ⟨h1, h2, h3, h4⟩ := refGlitch_leaves (s.tick dt)
    exact ⟨_, rfl, h1, h2, keeps_of_tick h3, h4⟩
  · exact ⟨_, exec_refclkHoldoverTimeout h, refTo_ref _ (by decide), flag_congr (fld_refTo _ 2 (by decide)), keeps_of_tick (refTo_keeps _ _), refTo_onlyRegs ..⟩
  · exact ⟨_, exec_refclkRelock h hcal, refTo_ref _ (by decide), flag_congr (fld_refTo _ 0 (by decide)), keeps_of_tick (refTo_keeps _ _), refTo_onlyRegs ..⟩
  · obtain ⟨h1, h2, h3, h4⟩ := refBack_leaves (s.tick dt)
    exact ⟨_, exec_refclkReturn h hcal, h1, h2, keeps_of_tick h3, h4⟩
  · exact ⟨_, clkMcWrite_selects ha hr hl, fld_setFld_eq _ _ (by decide) (Nat.mod_lt _ (by decide)),
      keeps_of_tick (keeps_setFld _ F.CLK_MC_SEL _ ⟨Nat.one_pos, Nat.one_pos⟩), onlyRegs_setFld ..⟩

end Sys2Proof.Machine
end

section
/-! PERST_N and completions that never come (R354, R506). -/
namespace Sys2Proof.Machine

/-- Queue `q` without what it holds back, and dead. -/
def State.queueDead (s : State) (q : Nat) : State := s.setQueue q { s.queue q with held := [], dead := true }

/-- Commands that finish together. -/
def State.cmdsDone {α : Type} (s : State) (q : Nat) (l : List α) : State := l.foldl (fun s _ => s.cmdDone q) s

/-- A queue with commands outstanding that loses them. -/
def State.queueDrop (s : State) (q : Nat) : State :=
  if s.fld F.CMD_Q_STAT_OUTST q = 0 then s
  else (s.queueDead q).cmdsDone q ((s.queue q).held.filter fun r => r.final)

/-- PERST_N at queue `q`. -/
def State.queuePerst (s : State) (q : Nat) : State := (s.setFld F.CMD_Q_CFG_EN 0 q).queueDrop q

/-- Ring `r` with nothing to report. -/
def State.ringTold (s : State) (r : Nat) : State := if (s.eRing r).unreported then s.setERing r { s.eRing r with unreported := false } else s

/-- PERST_N at egress ring `r`. -/
def State.ringPerst (s : State) (r : Nat) : State := (s.setFld F.CMD_EGR_STAT_EN 0 r).ringTold r

/-- The registers of queue `q` that PERST_N touches. -/
def queueRegs (q : Nat) : List (Reg × Nat × Nat) := [(.CMD_Q_CFG, q, 0), (.CMD_Q_STAT, q, 0)]

/-- `t` differs from `s` in its registers, queues and egress rings alone. -/
def State.onlyPcie (s t : State) : Prop := t = { s with regs := t.regs, queues := t.queues, rings := t.rings }

theorem onlyPcie_trans {s t u : State} (h : s.onlyPcie t) (h' : t.onlyPcie u) : s.onlyPcie u := by
  rw [State.onlyPcie] at h h' ⊢
  rw [h', h]

theorem onlyPcie_refl (s : State) : s.onlyPcie s := rfl

theorem onlyPcie_of_onlyRegs {s t : State} (h : s.onlyRegs t) : s.onlyPcie t := by
  rw [State.onlyPcie, show t = { s with regs := t.regs } from h]

section
variable (s : State) {q : Nat}

theorem State.queue_setQueue_same (x : Queue) : (s.setQueue q x).queue q = x := mapGet_mapSet_same queue0 s.queues q x

theorem State.queue_setQueue_ne (x : Queue) {j : Nat} (h : j ≠ q) : (s.setQueue q x).queue j = s.queue j :=
  mapGet_mapSet_ne queue0 s.queues x h

theorem cmdsDone_onlyRegs {α : Type} (l : List α) : s.onlyRegs (s.cmdsDone q l) :=
  foldl_rel (f := fun s _ => State.cmdDone s q) onlyRegs_refl onlyRegs_trans (fun _ _ => cmdDone_onlyRegs _ _) l s

theorem cmdsDone_keeps {α : Type} (hq : q < 64) (l : List α) : s.keeps (s.cmdsDone q l) [(.CMD_Q_STAT, q, 0)] :=
  foldl_keeps_within (f := fun s _ => State.cmdDone s q) (fun _ _ u => cmdDone_keeps u ⟨q, hq⟩) s

theorem cmdsDone_outst {α : Type} (q : Fin 64) (l : List α) (s : State) :
    (s.cmdsDone q l).fld F.CMD_Q_STAT_OUTST q = s.fld F.CMD_Q_STAT_OUTST q - l.length := by
  induction l generalizing s with
  | nil => rfl
  | cons x l ih =>
    change ((s.cmdDone q).cmdsDone q l).fld F.CMD_Q_STAT_OUTST q = _
    rw [ih, cmdDone_outst, List.length_cons]
    omega

theorem queueDead_regs : (s.queueDead q).regs = s.regs := rfl
theorem queueDead_onlyPcie : s.onlyPcie (s.queueDead q) := rfl
theorem queueDead_queue : (s.queueDead q).queue q = { s.queue q with held := [], dead := true } := State.queue_setQueue_same ..
theorem queueDead_queue_ne {j : Nat} (h : j ≠ q) : (s.queueDead q).queue j = s.queue j := State.queue_setQueue_ne _ _ h

theorem queuePerst_outst (hq : q < 64) : (s.setFld F.CMD_Q_CFG_EN 0 q).fld F.CMD_Q_STAT_OUTST q = s.fld F.CMD_Q_STAT_OUTST q :=
  fld_setFld_at (n := 64) s 0 hq (by decide)

theorem queue_setFld (f : Fld) (v i j : Nat) : (s.setFld f v i j).queue q = s.queue q := by rw [State.queue, State.setFld_queues, State.queue]

theorem queuePerst_idle (hq : q < 64) (h : s.fld F.CMD_Q_STAT_OUTST q = 0) : s.queuePerst q = s.setFld F.CMD_Q_CFG_EN 0 q :=
  if_pos ((queuePerst_outst s hq).trans h)

theorem queuePerst_busy (hq : q < 64) (h : s.fld F.CMD_Q_STAT_OUTST q ≠ 0) : s.queuePerst q =
    ((s.setFld F.CMD_Q_CFG_EN 0 q).queueDead q).cmdsDone q
      ((s.queue q).held.filter fun r => r.final) := by
  rw [State.queuePerst, State.queueDrop, queuePerst_outst s hq, if_neg h, queue_setFld]

theorem queuePerst_keeps (hq : q < 64) : s.keeps (s.queuePerst q) (queueRegs q) := by
  have hcfg : regHas (Fld.reg F.CMD_Q_CFG_EN) q 0 := ⟨hq, Nat.one_pos⟩
  by_cases h : s.fld F.CMD_Q_STAT_OUTST q = 0
  · rw [queuePerst_idle s hq h]
    exact keeps_setFld_of_keeps (f := F.CMD_Q_CFG_EN) s 0 (keeps_refl s _) hcfg (List.mem_cons_self ..)
  · rw [queuePerst_busy s hq h]
    exact keeps_trans (keeps_trans (keeps_setFld s F.CMD_Q_CFG_EN 0 hcfg) (keeps_of_regs [] (queueDead_regs _))) (cmdsDone_keeps _ hq _)

theorem queuePerst_queue_ne (hq : q < 64) {j : Nat} (h : j ≠ q) : (s.queuePerst q).queue j = s.queue j := by
  by_cases h0 : s.fld F.CMD_Q_STAT_OUTST q = 0
  · rw [queuePerst_idle s hq h0, queue_setFld]
  · rw [queuePerst_busy s hq h0]
    exact (congrArg (mapGet queue0 · j) (onlyRegs_queues (cmdsDone_onlyRegs ..))).trans ((queueDead_queue_ne _ h).trans (queue_setFld ..))

theorem queuePerst_onlyPcie (hq : q < 64) : s.onlyPcie (s.queuePerst q) := by
  by_cases h0 : s.fld F.CMD_Q_STAT_OUTST q = 0
  · rw [queuePerst_idle s hq h0]
    exact onlyPcie_of_onlyRegs (onlyRegs_setFld ..)
  · rw [queuePerst_busy s hq h0]
    exact onlyPcie_trans (onlyPcie_trans (onlyPcie_of_onlyRegs (onlyRegs_setFld ..)) (queueDead_onlyPcie _)) (onlyPcie_of_onlyRegs (cmdsDone_onlyRegs ..))

/-- What PERST_N leaves of queue `q`. -/
def State.queueCut (s : State) (q : Nat) (t : State) : Prop :=
  t.flag F.CMD_Q_CFG_EN q = false ∧
    (s.fld F.CMD_Q_STAT_OUTST q = 0 → t.queue q = s.queue q ∧ t.reg .CMD_Q_STAT q = s.reg .CMD_Q_STAT q) ∧
    (s.fld F.CMD_Q_STAT_OUTST q ≠ 0 → t.queue q = { s.queue q with held := [], dead := true } ∧
      t.fld F.CMD_Q_STAT_OUTST q = s.fld F.CMD_Q_STAT_OUTST q - ((s.queue q).held.filter fun r => r.final).length)

theorem queuePerst_cut (hq : q < 64) : s.queueCut q (s.queuePerst q) := by
  have hcfg : regHas .CMD_Q_CFG q 0 := ⟨hq, Nat.one_pos⟩
  have hst : regHas .CMD_Q_STAT q 0 := ⟨hq, Nat.one_pos⟩
  have hen : (s.setFld F.CMD_Q_CFG_EN 0 q).flag F.CMD_Q_CFG_EN q = false := flag_setFld_same _ F.CMD_Q_CFG_EN _ _ _ (by decide)
  have hkeep : s.keeps (s.setFld F.CMD_Q_CFG_EN 0 q) [(.CMD_Q_CFG, q, 0)] := keeps_setFld s F.CMD_Q_CFG_EN 0 hcfg
  rw [State.queueCut]
  by_cases h0 : s.fld F.CMD_Q_STAT_OUTST q = 0
  · rw [queuePerst_idle s hq h0]
    exact ⟨hen, fun _ => ⟨queue_setFld .., hkeep .CMD_Q_STAT q 0 hst (by simp)⟩, fun h => absurd h0 h⟩
  · rw [queuePerst_busy s hq h0]
    obtain ⟨u, hu⟩ : ∃ u, u = (s.setFld F.CMD_Q_CFG_EN 0 q).queueDead q := ⟨_, rfl⟩
    have hqu : u.queue q = { s.queue q with held := [], dead := true }  := by
      rw [hu, queueDead_queue, queue_setFld]
    have hregs : u.regs = (s.setFld F.CMD_Q_CFG_EN 0 q).regs := hu ▸ queueDead_regs _
    rw [← hu]
    refine ⟨?_, fun h => absurd h h0, fun _ => ⟨?_, ?_⟩⟩
    · exact (flag_of_keeps (f := F.CMD_Q_CFG_EN) (cmdsDone_keeps u hq _) hcfg (by simp)).trans ((flag_congr (State.fld_congr hregs ..)).trans hen)
    · exact (congrArg (mapGet queue0 · q) (onlyRegs_queues (cmdsDone_onlyRegs ..))).trans hqu
    · rw [cmdsDone_outst ⟨q, hq⟩, State.fld_congr hregs]
      exact congrArg (· - _) (fld_of_keeps (f := F.CMD_Q_STAT_OUTST) hkeep hst (by simp))

/-- A ring that has nothing to report any more differs in the rings alone. -/
theorem ringTold_frame (r : Nat) : s.ringTold r = { s with rings := (s.ringTold r).rings } := by
  unfold State.ringTold
  split <;> rfl

theorem ringTold_regs (r : Nat) : (s.ringTold r).regs = s.regs := by rw [ringTold_frame]
theorem ringTold_queues (r : Nat) : (s.ringTold r).queues = s.queues := by rw [ringTold_frame]

theorem ringTold_onlyPcie (r : Nat) : s.onlyPcie (s.ringTold r) := by
  rw [ringTold_frame]
  rfl

theorem ringTold_eRing_ne {r j : Nat} (h : j ≠ r) : (s.ringTold r).eRing j = s.eRing j := by
  unfold State.ringTold
  split
  · exact State.eRing_setERing_ne _ _ h
  · rfl

theorem ringTold_unreported (r : Nat) : ((s.ringTold r).eRing r).unreported = false := by
  unfold State.ringTold
  split
  · rw [State.eRing_setERing_same]
  · next h => exact Bool.eq_false_iff.2 h

theorem ringPerst_keeps {r : Nat} (hr : r < 16) : s.keeps (s.ringPerst r) [(.CMD_EGR_STAT, r, 0)] :=
  keeps_trans (keeps_setFld s F.CMD_EGR_STAT_EN 0 (i := r) (j := 0) ⟨hr, Nat.one_pos⟩) (keeps_of_regs [] (ringTold_regs _ r))

theorem ringPerst_eRing_ne {r j : Nat} (h : j ≠ r) : (s.ringPerst r).eRing j = s.eRing j :=
  (ringTold_eRing_ne _ h).trans (congrArg (mapGet ringE0 · j) (State.setFld_rings ..))

theorem ringPerst_en (r : Nat) : (s.ringPerst r).flag F.CMD_EGR_STAT_EN r = false :=
  (flag_congr (State.fld_congr (ringTold_regs ..) ..)).trans (flag_setFld_same _ F.CMD_EGR_STAT_EN _ _ _ (by decide))

theorem ringPerst_cut (r : Nat) : (s.ringPerst r).flag F.CMD_EGR_STAT_EN r = false ∧ ((s.ringPerst r).eRing r).unreported = false :=
  ⟨ringPerst_en s r, ringTold_unreported _ r⟩

theorem ringPerst_queues (r : Nat) : (s.ringPerst r).queues = s.queues := (ringTold_queues ..).trans (State.setFld_queues ..)

theorem ringPerst_onlyPcie (r : Nat) : s.onlyPcie (s.ringPerst r) :=
  onlyPcie_trans (onlyPcie_of_onlyRegs (onlyRegs_setFld s F.CMD_EGR_STAT_EN 0 r 0)) (ringTold_onlyPcie _ r)

/-- PERST_N at every queue, and then at every egress ring. -/
def State.queuesPerst (s : State) : State := (List.range 64).foldl State.queuePerst s
def State.ringsPerst (s : State) : State := (List.range 16).foldl State.ringPerst s

theorem execPerstAssert_eq (dt : Nat) (h : s.fld F.PWR_STAT_DSTATE = 0) :
    exec (.perstAssert dt) s = .next (s.tick dt).queuesPerst.ringsPerst := by
  have h : (s.tick dt).fld F.PWR_STAT_DSTATE = 0 := h
  change execPerstAssert dt s = _
  unfold execPerstAssert
  dsimp only
  rw [if_neg (not_not_intro h)]
  rfl

/-- Queue `q` and its registers are the same in both states. -/
def State.queueAlike (s : State) (q : Nat) (t : State) : Prop :=
  t.queue q = s.queue q ∧ t.reg .CMD_Q_CFG q = s.reg .CMD_Q_CFG q ∧ t.reg .CMD_Q_STAT q = s.reg .CMD_Q_STAT q

theorem queuePerst_alike {x : Nat} (hx : x < 64) (hq : q < 64) (h : x ≠ q) : s.queueAlike q (s.queuePerst x) := by
  have hk := queuePerst_keeps s hx
  exact ⟨queuePerst_queue_ne s hx h.symm, hk .CMD_Q_CFG q 0 ⟨hq, Nat.one_pos⟩ (by simp [queueRegs, h.symm]),
    hk .CMD_Q_STAT q 0 ⟨hq, Nat.one_pos⟩ (by simp [queueRegs, h.symm])⟩

variable {s} {t u : State}

theorem queueAlike_trans (h : s.queueAlike q t) (h' : t.queueAlike q u) : s.queueAlike q u := by
  obtain ⟨h1, h2, h3⟩ := h
  obtain ⟨h1', h2', h3'⟩ := h'
  exact ⟨h1'.trans h1, h2'.trans h2, h3'.trans h3⟩

/-- What is left of a queue depends on its own state and registers alone. -/
theorem queueCut_before (h : s.queueAlike q t) (hc : t.queueCut q u) : s.queueCut q u := by
  obtain ⟨h1, -, h3⟩ := h
  have ho : t.fld F.CMD_Q_STAT_OUTST q = s.fld F.CMD_Q_STAT_OUTST q := congrArg (bitsOf · _ _) h3
  rw [State.queueCut, h1, h3, ho] at hc
  exact hc

theorem queueCut_after (hc : s.queueCut q t) (h : t.queueAlike q u) : s.queueCut q u := by
  obtain ⟨h1, h2, h3⟩ := h
  have hen : u.flag F.CMD_Q_CFG_EN q = t.flag F.CMD_Q_CFG_EN q := flag_congr (congrArg (bitsOf · _ _) h2)
  have ho : u.fld F.CMD_Q_STAT_OUTST q = t.fld F.CMD_Q_STAT_OUTST q := congrArg (bitsOf · _ _) h3
  rw [State.queueCut, h1, h3, hen, ho]
  exact hc

theorem queuesPerst_cut (hq : q < 64) : s.queueCut q s.queuesPerst :=
  foldl_range_once (P := s.queueAlike q) (Q := s.queueCut q) (f := State.queuePerst) hq ⟨rfl, rfl, rfl⟩
    (fun _ hx hne u h => queueAlike_trans h (queuePerst_alike u hx hq hne))
    (fun u h => queueCut_before h (queuePerst_cut u hq))
    fun _ hx hne u h => queueCut_after h (queuePerst_alike u hx hq hne)

theorem ringsPerst_alike (hq : q < 64) : s.queueAlike q s.ringsPerst := by
  have hk : s.keeps s.ringsPerst ((List.range 16).map fun r => (.CMD_EGR_STAT, r, 0)) :=
    foldl_keeps (f := State.ringPerst) (fun r => (.CMD_EGR_STAT, r, 0)) (List.range 16) (fun r hr u => ringPerst_keeps u (List.mem_range.1 hr)) s
  exact ⟨congrArg (mapGet queue0 · q) (foldl_reads (fun u => u.queues) (f := State.ringPerst) (fun r _ u => ringPerst_queues u r) s),
    hk .CMD_Q_CFG q 0 ⟨hq, Nat.one_pos⟩ (by simp), hk .CMD_Q_STAT q 0 ⟨hq, Nat.one_pos⟩ (by simp)⟩

/-- The state of an egress ring that PERST_N disabled. -/
def State.ringCut (r : Nat) (t : State) : Prop := t.flag F.CMD_EGR_STAT_EN r = false ∧ (t.eRing r).unreported = false

theorem ringsPerst_cut {r : Nat} (hr : r < 16) : State.ringCut r s.ringsPerst :=
  foldl_range_once (P := fun _ => True) (Q := State.ringCut r) (f := State.ringPerst) hr trivial (fun _ _ _ _ _ => trivial)
    (fun u _ => ringPerst_cut u r) fun x hx hne u h => by
      obtain ⟨h1, h2⟩ := h
      exact ⟨(flag_of_keeps (f := F.CMD_EGR_STAT_EN) (ringPerst_keeps u hx) (i := r) (j := 0) ⟨hr, Nat.one_pos⟩ (by simp [hne.symm])).trans h1,
        (congrArg Ring.unreported (ringPerst_eRing_ne u hne.symm)).trans h2⟩

theorem perst_keeps (s : State) : s.keeps s.queuesPerst.ringsPerst
    ((List.range 64).flatMap queueRegs ++ (List.range 16).map fun r => (.CMD_EGR_STAT, r, 0)) :=
  keeps_trans
    (foldl_keeps_within (f := State.queuePerst) (fun q hq u => keeps_mono (queuePerst_keeps u (List.mem_range.1 hq))
      fun _ hx => List.mem_flatMap.2 ⟨q, hq, hx⟩) s)
    (foldl_keeps (f := State.ringPerst) (fun r => (.CMD_EGR_STAT, r, 0)) (List.range 16) (fun _ hr u => ringPerst_keeps u (List.mem_range.1 hr)) _)

theorem perst_onlyPcie (s : State) : s.onlyPcie s.queuesPerst.ringsPerst :=
  onlyPcie_trans
    (List.foldlRecOn (motive := s.onlyPcie) _ _ (onlyPcie_refl s) fun _ hu _ hq => onlyPcie_trans hu (queuePerst_onlyPcie _ (List.mem_range.1 hq)))
    (foldl_rel (f := State.ringPerst) onlyPcie_refl onlyPcie_trans ringPerst_onlyPcie _ _)

end

section
variable (s : State) {c : Nat}

theorem State.chan_setChan_ne (x : DmaChan) {j : Nat} (h : j ≠ c) : (s.setChan c x).chan j = s.chan j :=
  mapGet_mapSet_ne chan0 s.dma x h

/-- Channel `c` in ERROR with a code. -/
def State.dmaFailed (s : State) (c code : Nat) : State := (s.setFld F.DMA_STAT_STATE 4 c).setFld F.DMA_STAT_ERR code c

/-- Channel `c` with no beat, no fetch and no stop. -/
def State.dmaIdle (s : State) (c : Nat) : State := s.setChan c { s.chan c with hold := [], fetching := false, stop := false, checked := false }

theorem dmaFailed_onlyRegs (code : Nat) : s.onlyRegs (s.dmaFailed c code) := onlyRegs_setFld_setFld ..
theorem dmaFailed_keeps (hc : c < 64) (code : Nat) : s.keeps (s.dmaFailed c code) [(.DMA_STAT, c, 0)] :=
  keeps_setFld_setFld s _ _ rfl ⟨hc, Nat.one_pos⟩
theorem dmaFailed_dmaSt (hc : c < 64) (code : Nat) : (s.dmaFailed c code).dmaSt c = 4 :=
  (fld_setFld_at (n := 64) _ _ hc (by decide)).trans (fld_setFld_eq _ _ (by decide) (by decide))
theorem dmaFailed_err {code : Nat} (h : code < 2 ^ F.DMA_STAT_ERR.w) : (s.dmaFailed c code).fld F.DMA_STAT_ERR c = code := fld_setFld_eq _ _ (by decide) h

/-- An error other than that of a bad descriptor (R349). -/
theorem dmaError_eq {code : Nat} (h : code ≠ 1) : s.dmaError c code = (s.dmaIdle c).dmaFailed c code := if_neg h

end

/-- A DMA request without a completion: ERR 3 (R349, R354). -/
theorem dmaLost_leaves (dt : Nat) (s : State) (c : Fin 64) (h : s.dmaSt c = 1 ∨ s.dmaSt c = 2) :
    ∃ t, exec (.pcieCompletionTimeout dt (.dma c)) s = .next t ∧ t.dmaSt c = 4 ∧ t.fld F.DMA_STAT_ERR c = 3 ∧
      (∀ j : Nat, j ≠ c → t.chan j = s.chan j) ∧ s.keeps t [(.DMA_STAT, c.val, 0)] ∧ t = { s.tick dt with regs := t.regs, dma := t.dma } := by
  have hx : exec (.pcieCompletionTimeout dt (.dma c)) s = .next ((s.tick dt).dmaError c 3) := if_pos h
  obtain ⟨u, hu⟩ : ∃ u, u = (s.tick dt).dmaIdle c := ⟨_, rfl⟩
  rw [dmaError_eq (s.tick dt) (by decide), ← hu] at hx
  have hf : u.dmaFailed c 3 = { u with regs := (u.dmaFailed c 3).regs } := dmaFailed_onlyRegs u 3
  refine ⟨_, hx, dmaFailed_dmaSt u c.isLt 3, dmaFailed_err u (by decide), fun j hj => ?_, ?_, ?_⟩
  · have hdma : (u.dmaFailed c 3).dma = u.dma := by rw [hf]
    rw [State.chan, hdma, hu]
    exact State.chan_setChan_ne (s.tick dt) _ hj
  · have hregs : u.regs = s.regs := hu ▸ rfl
    exact keeps_trans (keeps_of_regs [] hregs) (dmaFailed_keeps u c.isLt 3)
  · rw [hf, hu]
    rfl

theorem exec_fetchTimeout (dt : Nat) (q : Fin 64) (s : State) (h : s.fetchMay q ≠ 0) :
    exec (.pcieCompletionTimeout dt (.fetch q)) s = .next ((s.tick dt).setFld F.CMD_Q_STAT_FETCH_ERR 1 q) := if_neg h

/-- A policy whose host buffer is lost ends as one whose buffer cannot be read. -/
theorem exec_bufferTimeout (dt : Nat) (h : CmdHdr) (p : List Word) (s : State) (ho : h.opcode = 0x0502) :
    exec (.pcieCompletionTimeout dt (.buffer h p)) s = exec (.pwrPolicy dt h p .error) s := by
  change Host.Outcome.next (((s.tick dt).bufferLost h p).settle) = Host.Outcome.next _
  unfold State.bufferLost
  rw [ho]
  rfl

/-- Settles O60: PERST_N folds over the queues and then over the rings, each of which it cuts; each lost completion has its own end. -/
theorem pcieLossIsReported : Obligations.PcieLossIsReported := by
  unfold Obligations.PcieLossIsReported
  intro dt s
  refine ⟨fun hd => ⟨_, execPerstAssert_eq s dt hd, fun q hq => ?_, fun r hr => ringsPerst_cut hr, perst_keeps (s.tick dt), perst_onlyPcie (s.tick dt)⟩,
    dmaLost_leaves dt s, fun q => exec_fetchTimeout dt q s, fun h p ho ht => ?_⟩
  · exact queueCut_after (s := s.tick dt) (queuesPerst_cut hq) (ringsPerst_alike hq)
  · rw [exec_bufferTimeout dt h p s ho]
    exact exec_mc_reply rfl ht rfl rfl (taken_quiet rfl ht)

end Sys2Proof.Machine
end

section
/-! Doorbells, the enabling of a queue, and the HEAD of an egress ring (R357, R358, R377, R378). -/
namespace Sys2Proof.Machine

section
variable {s : State} {r : Requester} {g : Reg} {i j : Nat}

/-- A write of a 32-bit register is taken as it stands. -/
theorem bar0Write_word {a : Nat} (dt : Nat) (v : Word) (hr : s.reaches r a 4 (hitOf g i j)) (hw : (regRow g).width ≠ 64) :
    (s.tick dt).bar0Write r a 4 v.toNat = (s.tick dt).regTake r (hitOf g i j) v.toNat := by
  have hv : v.toNat % 2 ^ 32 = v.toNat := Nat.mod_eq_of_lt v.isLt
  have hw : (regRow (hitOf g i j).reg).width ≠ 64 := hw
  rw [bar0Write_of_reaches (reaches_tick dt hr), wordWrite_low, State.committed, State.stageAfter, if_neg hw, if_neg hw, hv]

/-- The high word of a register waits for its low word. -/
def State.highStaged (s : State) (r : Requester) (h : RegHit) (v : Nat) : State :=
  { s with stage := mapSet none s.stage (holdKey r h) (some (BitVec.ofNat 32 v)) }

theorem wordWrite_high (s : State) (r : Requester) (g : Reg) (i j v : Nat) : s.wordWrite r ⟨g, i, j, true⟩ v = s.highStaged r (hitOf g i j) v := rfl

theorem bar0Write_of_reaches_dword {s : State} {r : Requester} {a v : Nat} {h : RegHit} (hr : s.reaches r a 8 h) : s.bar0Write r a 8 v =
    (s.wordWrite r { h with high := true } (v / 2 ^ 32 % 2 ^ 32)).wordWrite r { h with high := false } (v % 2 ^ 32) := by
  obtain ⟨h1, h2, h3⟩ := hr
  simp [State.bar0Write, h1, h2, h3]

/-- Both words of a 64-bit register, the high one of which is staged, are taken together (R11, R32). -/
theorem bar0Write_dword {a : Nat} (dt : Nat) (v : DWord) (hr : s.reaches r a 8 (hitOf g i j)) (hw : (regRow g).width = 64) :
    ∃ m, (s.tick dt).bar0Write r a 8 v.toNat = ({ s.tick dt with stage := m } : State).regTake r (hitOf g i j) v.toNat := by
  obtain ⟨u, hu⟩ : ∃ u, u = (s.tick dt).highStaged r (hitOf g i j) (v.toNat / 2 ^ 32 % 2 ^ 32) := ⟨_, rfl⟩
  have hb : (s.tick dt).bar0Write r a 8 v.toNat = u.wordWrite r (hitOf g i j) (v.toNat % 2 ^ 32) := by
    rw [bar0Write_of_reaches_dword (reaches_tick dt hr), wordWrite_high, hu]
    rfl
  have hhigh : u.highWord r (hitOf g i j) = v.toNat / 2 ^ 32 := by
    rw [State.highWord, hu, State.highStaged]
    dsimp only
    rw [mapGet_mapSet_same]
    dsimp only
    rw [BitVec.toNat_ofNat]
    omega
  have hcom : u.committed r (hitOf g i j) (v.toNat % 2 ^ 32) = v.toNat := by
    rw [State.committed, if_pos (show (regRow (hitOf g i j).reg).width = 64 from hw), hhigh]
    omega
  exact ⟨u.stageAfter r (hitOf g i j), by rw [hb, wordWrite_low, hcom, hu, State.highStaged]⟩

theorem aelReg_flag (s : State) (r : Requester) (off kind status data : Nat) : (s.aelReg r off kind status data).flag F.RAS_STAT_AEL = true := by
  rw [State.aelReg, State.ael]
  exact (flag_congr (State.fld_congr (State.logE_regs ..) ..)).trans (flag_setFld_same _ F.RAS_STAT_AEL _ _ _ (by decide))

/-- A field that may be changed, and that neither its range, nor the state of its block, nor the requester refuses. -/
theorem fieldKind_none {old v : Nat} {f : FieldRow} (ha : f.acc = .rw)
    (hin : fieldIn g f.lo (bitsOf v f.lo f.w) v (s.fld F.PWR_LIMIT_CEIL_A) = true)
    (hheld : s.fieldHeld (hitOf g i j) f.lo (bitsOf v f.lo f.w) v = false) (hmc : mcOnlyField g f.lo = false) :
    s.fieldKind r (hitOf g i j) old v f = none := by
  have hin : fieldIn (hitOf g i j).reg f.lo (bitsOf v f.lo f.w) v (s.fld F.PWR_LIMIT_CEIL_A) = true := hin
  have hmc : mcOnlyField (hitOf g i j).reg f.lo = false := hmc
  simp [State.fieldKind, rwlHit, ha, hin, hheld, hmc]

end

section
variable {dt : Nat} {r : Requester} {q : Fin 64} {v : Word} {s : State}

theorem exec_sqTail (hr : s.reaches r (regAddr .CMD_SQ_TAIL q) 4 (hitOf .CMD_SQ_TAIL q 0)) :
    exec (.sqTailDoorbell dt r q v) s = .next ((s.tick dt).sqTailWrite r q v.toNat) :=
  congrArg Host.Outcome.next (bar0Write_word dt v hr (by decide))

/-- CMD_SQ_TAIL: moved, at or above the depth, or of a disabled queue. -/
theorem sqTail_leaves (hr : s.reaches r (regAddr .CMD_SQ_TAIL q) 4 (hitOf .CMD_SQ_TAIL q 0)) :
    (v.toNat % 2 ^ 12 < s.sqDepth q → s.flag F.CMD_Q_CFG_EN q = true →
      ∃ t, exec (.sqTailDoorbell dt r q v) s = .next t ∧ t.fld F.CMD_SQ_TAIL_TAIL q = v.toNat % 2 ^ 12 ∧
        s.keeps t [(.CMD_SQ_TAIL, q.val, 0)] ∧ t = { s.tick dt with regs := t.regs }) ∧
    (s.sqDepth q ≤ v.toNat % 2 ^ 12 → exec (.sqTailDoorbell dt r q v) s =
      .next (((s.tick dt).setFld F.CMD_Q_STAT_DB_ERR 1 q).aelReg r (regAddr .CMD_SQ_TAIL q) 6 0 v.toNat)) ∧
    (v.toNat % 2 ^ 12 < s.sqDepth q → s.flag F.CMD_Q_CFG_EN q = false → exec (.sqTailDoorbell dt r q v) s =
      .next (((s.tick dt).setFld F.CMD_Q_STAT_DB_ERR 1 q).aelReg r (regAddr .CMD_SQ_TAIL q) 9 0 v.toNat)) := by
  rw [exec_sqTail hr]
  unfold State.sqTailWrite
  dsimp only
  have hd : (s.tick dt).sqDepth q = s.sqDepth q := rfl
  have hf : (s.tick dt).flag F.CMD_Q_CFG_EN q = s.flag F.CMD_Q_CFG_EN q := rfl
  rw [hd, hf]
  refine ⟨fun hlt hen => ⟨(s.tick dt).setFld F.CMD_SQ_TAIL_TAIL (v.toNat % 2 ^ 12) q, ?_, ?_, ?_, ?_⟩, fun hle => ?_, fun hlt hen => ?_⟩
  · rw [if_neg (Nat.not_le.2 hlt), hen]
    rfl
  · exact (fld_setFld_own (f := F.CMD_SQ_TAIL_TAIL) _ _ (by decide)).trans (Nat.mod_mod ..)
  · exact keeps_setFld (s.tick dt) F.CMD_SQ_TAIL_TAIL _ ⟨q.isLt, Nat.one_pos⟩
  · exact onlyRegs_setFld ..
  · rw [if_pos hle]
    rfl
  · rw [if_neg (Nat.not_le.2 hlt), hen]
    rfl

theorem exec_cqHead (hr : s.reaches r (regAddr .CMD_CQ_HEAD q) 4 (hitOf .CMD_CQ_HEAD q 0)) :
    exec (.cqHeadDoorbell dt r q v) s = .next ((s.tick dt).cqHeadWrite r q v.toNat) :=
  congrArg Host.Outcome.next (bar0Write_word dt v hr (by decide))

/-- Queue `q` after its software has consumed `k` completions. -/
def State.consumed (s : State) (q k : Nat) : State := s.setQueue q { s.queue q with unread := (s.queue q).unread - k }

/-- CMD_CQ_HEAD of an enabled queue: entries consumed, or more than there are. -/
theorem cqHead_leaves (hr : s.reaches r (regAddr .CMD_CQ_HEAD q) 4 (hitOf .CMD_CQ_HEAD q 0)) (hen : s.flag F.CMD_Q_CFG_EN q = true)
    {n k : Nat} (hn : n = v.toNat % 2 ^ 12) (hk : k = (n + s.cqDepth q - s.fld F.CMD_CQ_HEAD_HEAD q) % s.cqDepth q) :
    (n < s.cqDepth q → k ≤ (s.queue q).unread → (s.queue q).held = [] →
      ∃ t, exec (.cqHeadDoorbell dt r q v) s = .next t ∧ t.fld F.CMD_CQ_HEAD_HEAD q = n ∧
        t.queue q = { s.queue q with unread := (s.queue q).unread - k } ∧ (∀ p : Nat, p ≠ q → t.queue p = s.queue p) ∧
        s.keeps t [(.CMD_CQ_HEAD, q.val, 0)] ∧ t = { s.tick dt with regs := t.regs, queues := t.queues }) ∧
    (s.cqDepth q ≤ n ∨ (s.queue q).unread < k → exec (.cqHeadDoorbell dt r q v) s =
      .next (((s.tick dt).setFld F.CMD_Q_STAT_DB_ERR 1 q).aelReg r (regAddr .CMD_CQ_HEAD q) 6 0 v.toNat)) := by
  rw [exec_cqHead hr]
  unfold State.cqHeadWrite
  dsimp only
  have hd : (s.tick dt).cqDepth q = s.cqDepth q := rfl
  have hf : (s.tick dt).flag F.CMD_Q_CFG_EN q = true := hen
  have hh : (s.tick dt).fld F.CMD_CQ_HEAD_HEAD q = s.fld F.CMD_CQ_HEAD_HEAD q := rfl
  have hq : (s.tick dt).queue q = s.queue q := rfl
  rw [hd, hf, hh, hq, ← hn, ← hk]
  refine ⟨fun hlt hle hheld => ?_, fun hbad => ?_⟩
  · obtain ⟨u, hu⟩ : ∃ u, u = (s.tick dt).setFld F.CMD_CQ_HEAD_HEAD n q := ⟨_, rfl⟩
    have huq : u.queue q = s.queue q := hu ▸ queue_setFld ..
    refine ⟨u.consumed q k, ?_, ?_, ?_, fun p hp => ?_, ?_, ?_⟩
    · have hno : ¬ (s.cqDepth q ≤ n ∨ true = true ∧ (s.queue q).unread < k) := by omega
      rw [if_neg hno, ← hu, State.consumed, huq]
      have hz (w : State) (h : (w.queue q).held = []) : w.postHeld q (w.queue q).held.length = w := by rw [h]; rfl
      exact congrArg Host.Outcome.next (hz _ ((congrArg Queue.held (State.queue_setQueue_same ..)).trans hheld))
    · have hlt' : n < 2 ^ 12 := hn ▸ Nat.mod_lt _ (by decide)
      have : u.fld F.CMD_CQ_HEAD_HEAD q = n := hu ▸ fld_setFld_eq _ _ (by decide) hlt'
      exact (State.fld_congr (show (u.consumed q k).regs = u.regs from rfl) ..).trans this
    · rw [State.consumed, huq, State.queue_setQueue_same]
    · exact (State.queue_setQueue_ne u _ hp).trans (hu ▸ queue_setFld ..)
    · have hk0 : s.keeps u [(.CMD_CQ_HEAD, q.val, 0)] := hu ▸ keeps_setFld (s.tick dt) F.CMD_CQ_HEAD_HEAD n ⟨q.isLt, Nat.one_pos⟩
      exact keeps_trans hk0 (keeps_of_regs [] rfl)
    · have h0 : (s.tick dt).onlyPcie u := hu ▸ onlyPcie_of_onlyRegs (onlyRegs_setFld ..)
      have h1 : u.consumed q k = { u with queues := (u.consumed q k).queues } := rfl
      rw [h1, show u = { s.tick dt with regs := u.regs } from hu ▸ onlyRegs_setFld ..]
  · rw [if_pos (hbad.imp_right fun h => ⟨rfl, h⟩)]
    rfl

/-- The doorbells and the SQ head of queue `q` at zero. -/
def State.doorbellsZero (s : State) (q : Nat) : State :=
  ((s.setFld F.CMD_Q_STAT_SQ_HEAD 0 q).setFld F.CMD_SQ_TAIL_TAIL 0 q).setFld F.CMD_CQ_HEAD_HEAD 0 q

theorem doorbellsZero_onlyRegs (u : State) (k : Nat) : u.onlyRegs (u.doorbellsZero k) :=
  onlyRegs_trans (onlyRegs_setFld_setFld ..) (onlyRegs_setFld ..)

theorem doorbellsZero_keeps (u : State) : u.keeps (u.doorbellsZero q) [(.CMD_Q_STAT, q.val, 0), (.CMD_SQ_TAIL, q.val, 0), (.CMD_CQ_HEAD, q.val, 0)] :=
  keeps_trans (keeps_trans (keeps_setFld u F.CMD_Q_STAT_SQ_HEAD 0 ⟨q.isLt, Nat.one_pos⟩)
    (keeps_setFld _ F.CMD_SQ_TAIL_TAIL 0 ⟨q.isLt, Nat.one_pos⟩)) (keeps_setFld _ F.CMD_CQ_HEAD_HEAD 0 ⟨q.isLt, Nat.one_pos⟩)

theorem doorbellsZero_values (u : State) : (u.doorbellsZero q).fld F.CMD_Q_STAT_SQ_HEAD q = 0 ∧ (u.doorbellsZero q).fld F.CMD_SQ_TAIL_TAIL q = 0 ∧
    (u.doorbellsZero q).fld F.CMD_CQ_HEAD_HEAD q = 0 :=
  ⟨((fld_setFld_at (n := 64) _ _ q.isLt (by decide)).trans (fld_setFld_at (n := 64) _ _ q.isLt (by decide))).trans
      (fld_setFld_eq _ _ (by decide) (by decide)),
    (fld_setFld_at (n := 64) _ _ q.isLt (by decide)).trans (fld_setFld_eq _ _ (by decide) (by decide)),
    fld_setFld_eq _ _ (by decide) (by decide)⟩

/-- The queue state of an SQ and a CQ that begin again. -/
def State.ringsStart (s : State) (q : Nat) (x : Queue) : State := s.setQueue q { x with cqTail := 0, phase := true, unread := 0, dead := false }

theorem queueStart_eq (u : State) (k : Nat) : u.queueStart k = (u.doorbellsZero k).ringsStart k (u.queue k) := rfl

/-- The value of CMD_Q_CFG after a write that nothing refuses. -/
def State.cfgStored (s : State) (r : Requester) (q v : Nat) : State :=
  s.setReg .CMD_Q_CFG ((regRow .CMD_Q_CFG).fields.foldl (s.fieldPut r (hitOf .CMD_Q_CFG q 0) (s.reg .CMD_Q_CFG q) v) (s.reg .CMD_Q_CFG q)) q

/-- A configuration of a queue whose depths and vector are in range (R355, R356). -/
def queueCfgOk (v : Nat) : Prop := 1 ≤ bitsOf v 24 4 ∧ bitsOf v 24 4 ≤ 12 ∧ 1 ≤ bitsOf v 16 4 ∧ bitsOf v 16 4 ≤ 12 ∧ bitsOf v 0 7 ≤ 79

/-- A disabled, idle queue refuses no field of such a configuration. -/
theorem queueCfg_fieldKind {v old : Nat} (hdis : s.flag F.CMD_Q_CFG_EN q = false) (hidle : s.flag F.CMD_Q_STAT_IDLE q = true) (hv : queueCfgOk v) :
    ∀ f ∈ (regRow .CMD_Q_CFG).fields, s.fieldKind r (hitOf .CMD_Q_CFG q 0) old v f = none := by
  obtain ⟨h1, h2, h3, h4, h5⟩ := hv
  have hen : s.fieldHeld (hitOf .CMD_Q_CFG q 0) 31 (bitsOf v 31 1) v = false := by
    change (bitsOf v 31 1 == 1 && !s.flag F.CMD_Q_STAT_IDLE q) = false
    rw [hidle, Bool.not_true, Bool.and_false]
  simp only [regRow, List.forall_mem_cons, List.not_mem_nil, false_imp_iff, implies_true, and_true]
  exact ⟨fieldKind_none rfl rfl hen rfl, fieldKind_none rfl (decide_eq_true ⟨h1, h2⟩) hdis rfl,
    fieldKind_none rfl (decide_eq_true ⟨h3, h4⟩) hdis rfl, fieldKind_none rfl rfl hdis rfl,
    fieldKind_none rfl (decide_eq_true ⟨Nat.zero_le _, h5⟩) hdis rfl⟩

theorem cfgStored_fld {v : Nat} (hdis : s.flag F.CMD_Q_CFG_EN q = false) (hidle : s.flag F.CMD_Q_STAT_IDLE q = true) (hv : queueCfgOk v)
    {f : FieldRow} (hf : f ∈ (regRow .CMD_Q_CFG).fields) :
    bitsOf ((s.cfgStored r q v).reg .CMD_Q_CFG q) f.lo f.w = f.written v (bitsOf (s.reg .CMD_Q_CFG q) f.lo f.w) :=
  bitsOf_reg_setReg_foldl s .CMD_Q_CFG q 0 _ (val := fun f => f.written v)
    (fun f hf => updatesField_fieldPut s r _ _ _ f (queueCfg_fieldKind hdis hidle hv f hf)) hf

/-- EN of such a configuration starts the queue. -/
theorem regPut_queueCfg {v : Nat} (hdis : s.flag F.CMD_Q_CFG_EN q = false) (hidle : s.flag F.CMD_Q_STAT_IDLE q = true) (hv : queueCfgOk v)
    (hen : bitsOf v 31 1 = 1) : s.regPut r (hitOf .CMD_Q_CFG q 0) v = (s.cfgStored r q v).queueStart q := by
  have hks : (regRow .CMD_Q_CFG).fields.filterMap (s.fieldKind r (hitOf .CMD_Q_CFG q 0) (s.reg .CMD_Q_CFG q 0) v) = [] :=
    List.filterMap_eq_nil_iff.2 (queueCfg_fieldKind hdis hidle hv)
  have hr : s.regRefused r (hitOf .CMD_Q_CFG q 0) = none := rfl
  have hold : bitsOf (s.reg .CMD_Q_CFG q) 31 1 = 0 := by
    have h1 : (bitsOf (s.reg .CMD_Q_CFG q) 31 1 == 1) = false := hdis
    have h2 := bitsOf_lt (s.reg .CMD_Q_CFG q) 31 1
    rw [beq_eq_false_iff_ne] at h1
    omega
  have hnew : bitsOf ((s.cfgStored r q v).reg .CMD_Q_CFG q) 31 1 = 1 :=
    (cfgStored_fld (r := r) hdis hidle hv (f := ⟨31, 1, .rw, 0⟩) (List.mem_cons_self ..)).trans hen
  have hafter : (s.cfgStored r q v).regAfter (hitOf .CMD_Q_CFG q 0) (s.reg .CMD_Q_CFG q) = (s.cfgStored r q v).queueStart q := by
    change (if (bitsOf (s.reg .CMD_Q_CFG q) 31 1 == 0 && bitsOf ((s.cfgStored r q v).reg .CMD_Q_CFG q) 31 1 == 1) = true then _ else _) = _
    rw [hold, hnew]
    rfl
  unfold State.regPut
  rw [hr]
  dsimp only [hitOf] at hks hafter ⊢
  rw [hks]
  exact hafter

/-- Enabling a queue stores its configuration, and starts it. -/
theorem queueEnable_leaves (hr : s.reaches r (regAddr .CMD_Q_CFG q) 4 (hitOf .CMD_Q_CFG q 0)) (hdis : s.flag F.CMD_Q_CFG_EN q = false)
    (hidle : s.flag F.CMD_Q_STAT_IDLE q = true) (hen : bitsOf v.toNat 31 1 = 1) (hv : queueCfgOk v.toNat) :
    ∃ t, exec (.qCfgWrite dt r q v) s = .next t ∧ t.flag F.CMD_Q_CFG_EN q = true ∧
      t.fld F.CMD_Q_CFG_SQ_LOG2 q = bitsOf v.toNat 24 4 ∧ t.fld F.CMD_Q_CFG_CQ_LOG2 q = bitsOf v.toNat 16 4 ∧
      t.fld F.CMD_Q_CFG_IEN q = bitsOf v.toNat 15 1 ∧ t.fld F.CMD_Q_CFG_VEC q = bitsOf v.toNat 0 7 ∧
      t.fld F.CMD_Q_STAT_SQ_HEAD q = 0 ∧ t.fld F.CMD_SQ_TAIL_TAIL q = 0 ∧ t.fld F.CMD_CQ_HEAD_HEAD q = 0 ∧
      (t.queue q).cqTail = 0 ∧ (t.queue q).phase = true ∧ (t.queue q).unread = 0 ∧
      s.keeps t [(.CMD_Q_CFG, q.val, 0), (.CMD_Q_STAT, q.val, 0), (.CMD_SQ_TAIL, q.val, 0), (.CMD_CQ_HEAD, q.val, 0)] ∧
      t = { s.tick dt with regs := t.regs, queues := t.queues } := by
  have hdis' : (s.tick dt).flag F.CMD_Q_CFG_EN q = false := hdis
  have hidle' : (s.tick dt).flag F.CMD_Q_STAT_IDLE q = true := hidle
  have hx : exec (.qCfgWrite dt r q v) s = .next (((s.tick dt).cfgStored r q v.toNat).queueStart q) :=
    (congrArg Host.Outcome.next (bar0Write_word dt v hr (by decide))).trans
      (congrArg Host.Outcome.next (regPut_queueCfg hdis' hidle' hv hen))
  have hfld {f : FieldRow} (hf : f ∈ (regRow .CMD_Q_CFG).fields) := cfgStored_fld (r := r) hdis' hidle' hv hf
  have hcfg : (s.tick dt).keeps ((s.tick dt).cfgStored r q v.toNat) [(.CMD_Q_CFG, q.val, 0)] := keeps_setReg _ _ ⟨q.isLt, Nat.one_pos⟩
  have honly : (s.tick dt).onlyRegs ((s.tick dt).cfgStored r q v.toNat) := onlyRegs_setReg ..
  obtain ⟨w, hw⟩ : ∃ w, w = (s.tick dt).cfgStored r q v.toNat := ⟨_, rfl⟩
  rw [← hw] at hfld hcfg honly hx
  obtain ⟨u, hu⟩ : ∃ u, u = w.doorbellsZero q := ⟨_, rfl⟩
  rw [queueStart_eq, ← hu] at hx
  obtain ⟨t, ht⟩ : ∃ t, t = u.ringsStart q (w.queue q) := ⟨_, rfl⟩
  rw [← ht] at hx
  have hregs : t.regs = u.regs := ht ▸ rfl
  have hkeep : w.keeps t [(.CMD_Q_STAT, q.val, 0), (.CMD_SQ_TAIL, q.val, 0), (.CMD_CQ_HEAD, q.val, 0)] :=
    keeps_congr hregs (hu ▸ doorbellsZero_keeps w)
  have hz : t.fld F.CMD_Q_STAT_SQ_HEAD q = 0 ∧ t.fld F.CMD_SQ_TAIL_TAIL q = 0 ∧ t.fld F.CMD_CQ_HEAD_HEAD q = 0 := by
    rw [State.fld_congr hregs, State.fld_congr hregs, State.fld_congr hregs, hu]
    exact doorbellsZero_values w
  have hq : (t.queue q).cqTail = 0 ∧ (t.queue q).phase = true ∧ (t.queue q).unread = 0 := by
    rw [ht, State.ringsStart, State.queue_setQueue_same]
    exact ⟨rfl, rfl, rfl⟩
  have hreg : t.reg .CMD_Q_CFG q = w.reg .CMD_Q_CFG q := hkeep .CMD_Q_CFG q 0 ⟨q.isLt, Nat.one_pos⟩ (by simp)
  rw [← hreg] at hfld
  obtain ⟨hz1, hz2, hz3⟩ := hz
  obtain ⟨hq1, hq2, hq3⟩ := hq
  refine ⟨t, hx, beq_iff_eq.2 ((hfld (f := ⟨31, 1, .rw, 0⟩) (by simp [regRow])).trans hen), hfld (f := ⟨24, 4, .rw, 0⟩) (by simp [regRow]),
    hfld (f := ⟨16, 4, .rw, 0⟩) (by simp [regRow]), hfld (f := ⟨15, 1, .rw, 0⟩) (by simp [regRow]), hfld (f := ⟨0, 7, .rw, 0⟩) (by simp [regRow]),
    hz1, hz2, hz3, hq1, hq2, hq3, keeps_trans hcfg hkeep, ?_⟩
  have h1 : t = { u with queues := t.queues } := ht ▸ rfl
  have h2 : u = { w with regs := u.regs } := hu ▸ doorbellsZero_onlyRegs w q
  rw [h1, h2, show w = { s.tick dt with regs := w.regs } from honly]

end

/-- CMD_EGR_HEAD: stored within what is written, else recorded. -/
theorem egrHead_leaves {dt : Nat} {r : Requester} {k : Fin 16} {v : DWord} {s : State}
    (hr : s.reaches r (regAddr .CMD_EGR_HEAD k) 8 (hitOf .CMD_EGR_HEAD k 0)) {old : Nat} (hold : old = s.fld F.CMD_EGR_HEAD_HEAD k) :
    ((v.toNat + 2 ^ 64 - old) % 2 ^ 64 ≤ ((s.eRing k).written + 2 ^ 64 - old) % 2 ^ 64 → ∃ t, exec (.egrHeadWrite dt r k v) s = .next t ∧
      t.fld F.CMD_EGR_HEAD_HEAD k = v.toNat ∧ s.keeps t [(.CMD_EGR_HEAD, k.val, 0)] ∧
      t = { s.tick dt with regs := t.regs, stage := t.stage }) ∧
    (((s.eRing k).written + 2 ^ 64 - old) % 2 ^ 64 < (v.toNat + 2 ^ 64 - old) % 2 ^ 64 → ∃ t, exec (.egrHeadWrite dt r k v) s = .next t ∧
      t.fld F.CMD_EGR_HEAD_HEAD k = old ∧ t.flag F.RAS_STAT_AEL = true) := by
  obtain ⟨m, hm⟩ := bar0Write_dword dt v hr (by decide)
  obtain ⟨u, hu⟩ : ∃ u : State, u = { s.tick dt with stage := m } := ⟨_, rfl⟩
  have hx : exec (.egrHeadWrite dt r k v) s = .next (u.egrHeadWrite r k v.toNat) := (congrArg Host.Outcome.next hm).trans (hu ▸ rfl)
  have hregs : u.regs = s.regs := hu ▸ rfl
  have hfld : u.fld F.CMD_EGR_HEAD_HEAD k = old := (State.fld_congr hregs ..).trans hold.symm
  have hring : u.eRing k = s.eRing k := hu ▸ rfl
  rw [hx]
  unfold State.egrHeadWrite
  dsimp only
  rw [hfld, hring]
  refine ⟨fun hle => ⟨_, congrArg Host.Outcome.next (if_pos hle), ?_, ?_, ?_⟩, fun hlt => ⟨_, congrArg Host.Outcome.next (if_neg (by omega)), ?_, aelReg_flag ..⟩⟩
  · exact fld_setFld_eq _ _ (by decide) v.isLt
  · exact keeps_trans (keeps_of_regs [] hregs) (keeps_setFld u F.CMD_EGR_HEAD_HEAD _ ⟨k.isLt, Nat.one_pos⟩)
  · rw [show u.setFld F.CMD_EGR_HEAD_HEAD v.toNat k = _ from onlyRegs_setFld .., hu]
  · exact (fld_of_keeps (f := F.CMD_EGR_HEAD_HEAD) (aelReg_keeps u _ _ _ _ _) ⟨k.isLt, Nat.one_pos⟩ (by simp [aelRegs])).trans hfld

/-- Settles O8: each register has a rule of its own, which the written value decides. -/
theorem queueDoorbellsAndEnable : Obligations.QueueDoorbellsAndEnable :=
  ⟨fun _ _ _ _ _ hr => sqTail_leaves hr, fun _ _ _ _ _ hr hen => cqHead_leaves hr hen rfl rfl,
    fun _ _ _ _ _ hr hdis hidle hen h1 h2 h3 h4 h5 => queueEnable_leaves hr hdis hidle hen ⟨h1, h2, h3, h4, h5⟩,
    fun _ _ _ _ _ hr => egrHead_leaves hr rfl⟩

end Sys2Proof.Machine
end

section
/-! The commands and the chains of a DMA channel (R337 to R353). -/
namespace Sys2Proof.Machine

/-- The registers in which channel `c` shows its state. -/
def dmaRegs (c : Nat) : List (Reg × Nat × Nat) := [(.DMA_STAT, c, 0), (.DMA_CUR, c, 0)]

/-- `t` differs from `s` in the state of channel `c` alone. -/
def State.dmaOnly (s : State) (c : Nat) (t : State) : Prop :=
  s.keeps t (dmaRegs c) ∧ (∀ j : Nat, j ≠ c → t.chan j = s.chan j) ∧ t = { s with regs := t.regs, dma := t.dma }

/-- The descriptor in the registers of channel `c`. -/
def State.firstDesc (s : State) (c : Nat) : DmaChan :=
  { chan0 with src := s.reg .DMA_SRC c, dst := s.reg .DMA_DST c, count := s.reg .DMA_COUNT c,
               ctrl := s.reg .DMA_CTRL c, shuf := s.reg .DMA_SHUF c, next := s.reg .DMA_NEXT c }

section
variable {s t u : State} {c : Nat}

theorem dmaOnly_refl (s : State) (c : Nat) : s.dmaOnly c s := ⟨keeps_refl s _, fun _ _ => rfl, rfl⟩

theorem dmaOnly_trans (h : s.dmaOnly c t) (h' : t.dmaOnly c u) : s.dmaOnly c u := by
  obtain ⟨h1, h2, h3⟩ := h
  obtain ⟨h1', h2', h3'⟩ := h'
  exact ⟨keeps_mono (keeps_trans h1 h1') (by simp), fun j hj => (h2' j hj).trans (h2 j hj), by rw [h3', h3]⟩

theorem dmaOnly_setChan (s : State) (c : Nat) (x : DmaChan) : s.dmaOnly c (s.setChan c x) :=
  ⟨keeps_of_regs _ rfl, fun _ hj => State.chan_setChan_ne s x hj, rfl⟩

theorem chan_setFld (s : State) (f : Fld) (v i j k : Nat) : (s.setFld f v i j).chan k = s.chan k := by
  rw [State.chan, State.setFld_dma, State.chan]

theorem dmaOnly_setFld (s : State) (f : Fld) (v : Nat) (hc : c < 64) (hf : (f.reg, c, 0) ∈ dmaRegs c) (hr : regFits f.reg 64 = true) :
    s.dmaOnly c (s.setFld f v c) := by
  refine ⟨keeps_setFld_of_keeps s v (keeps_refl s _) (regHas_of_fits hr hc) hf, fun j _ => chan_setFld .., ?_⟩
  rw [show s.setFld f v c = _ from onlyRegs_setFld ..]

theorem dmaOnly_inc (s : State) (f : Fld) (hc : c < 64) (hf : (f.reg, c, 0) ∈ dmaRegs c) (hr : regFits f.reg 64 = true) :
    s.dmaOnly c (s.inc f c) := dmaOnly_setFld s f _ hc hf hr

theorem State.chan_setChan_same (s : State) (c : Nat) (x : DmaChan) : (s.setChan c x).chan c = x := mapGet_mapSet_same chan0 s.dma c x

theorem firstDesc_congr (h : s.keeps t (dmaRegs c)) (hc : c < 64) : t.firstDesc c = s.firstDesc c := by
  have hr (g : Reg) (hg : regFits g 64 = true) (h1 : g ≠ .DMA_STAT) (h2 : g ≠ .DMA_CUR) : t.reg g c = s.reg g c :=
    h g c 0 (regHas_of_fits hg hc) (by simp [dmaRegs, h1, h2])
  simp only [State.firstDesc, hr .DMA_SRC (by decide) (by decide) (by decide), hr .DMA_DST (by decide) (by decide) (by decide),
    hr .DMA_COUNT (by decide) (by decide) (by decide), hr .DMA_CTRL (by decide) (by decide) (by decide),
    hr .DMA_SHUF (by decide) (by decide) (by decide), hr .DMA_NEXT (by decide) (by decide) (by decide)]

theorem all_congr_mem {l : List Nat} {f g : Nat → Bool} (h : ∀ k ∈ l, f k = g k) : l.all f = l.all g := by
  rw [Bool.eq_iff_iff, List.all_eq_true, List.all_eq_true]
  exact forall₂_congr fun k hk => by rw [h k hk]

theorem dmaSlot_congr (h : s.keeps t (dmaRegs c)) {k z : Nat} (hk : k < 4) (hz : z < 256) : t.dmaSlot k z = s.dmaSlot k z := by
  have hr (f : Fld) (hf : f.reg = .STR_SLOT_RATE) : t.fld f k z = s.fld f k z :=
    fld_of_keeps (f := f) h (hf ▸ ⟨hk, hz⟩) (by simp [dmaRegs, hf])
  rw [State.dmaSlot, State.dmaSlot, hr F.STR_SLOT_RATE_CLIENT rfl, flag_congr (hr F.STR_SLOT_RATE_EN rfl), flag_congr (hr F.STR_SLOT_RATE_CLASS rfl)]

theorem sideOk_congr (h : s.keeps t (dmaRegs c)) (x : DmaChan) (src : Bool) : t.sideOk x src = s.sideOk x src := by
  have hslot : ∀ k ∈ List.range 4, t.dmaSlot k (bitsOf x.ctrl 16 8) = s.dmaSlot k (bitsOf x.ctrl 16 8) :=
    fun k hk => dmaSlot_congr h (List.mem_range.1 hk) (bitsOf_lt ..)
  unfold State.sideOk
  dsimp only
  congr 2
  congr 2
  exact all_congr_mem fun k hk => by rw [hslot k hk]

/-- The check of a descriptor looks at no register of a channel's state. -/
theorem descOk_congr (h : s.keeps t (dmaRegs c)) (x : DmaChan) : t.descOk x = s.descOk x := by
  rw [State.descOk, State.descOk, sideOk_congr h, sideOk_congr h]

end

section
variable (s : State) {c : Nat} (x : DmaChan) (ic ad : Nat)

/-- A descriptor that is the current one of channel `c`, before its check. -/
def State.dmaTaken (s : State) (c : Nat) (x : DmaChan) (ic ad : Nat) : State :=
  ((((s.setFld F.DMA_CUR_IN_CHAIN ic c).setFld F.DMA_CUR_ADDR ad c).setChan c { x with checked := true }).setFld F.DMA_CUR_REMAIN
    (x.outBytes - x.wr) c)

theorem dmaCur_setChan (y : DmaChan) : (s.setChan c y).dmaCur c = (s.setChan c y).setFld F.DMA_CUR_REMAIN (y.outBytes - y.wr) c := by
  unfold State.dmaCur
  dsimp only
  rw [State.chan_setChan_same]

theorem dmaTaken_chan : (s.dmaTaken c x ic ad).chan c = { x with checked := true } := by
  rw [State.dmaTaken, chan_setFld, State.chan_setChan_same]

theorem setChan_fld (u : State) (y : DmaChan) (f : Fld) (i j : Nat) : (u.setChan c y).fld f i j = u.fld f i j := rfl

section
variable (hc : c < 64)
include hc

theorem dmaTaken_only : s.dmaOnly c (s.dmaTaken c x ic ad) :=
  dmaOnly_trans (dmaOnly_trans (dmaOnly_trans (dmaOnly_setFld s F.DMA_CUR_IN_CHAIN ic hc (by simp [dmaRegs]) (by decide))
    (dmaOnly_setFld _ F.DMA_CUR_ADDR ad hc (by simp [dmaRegs]) (by decide))) (dmaOnly_setChan ..))
    (dmaOnly_setFld _ F.DMA_CUR_REMAIN _ hc (by simp [dmaRegs]) (by decide))

theorem dmaTaken_cur : (s.dmaTaken c x ic ad).fld F.DMA_CUR_IN_CHAIN c = ic % 2 ^ 1 ∧ (s.dmaTaken c x ic ad).fld F.DMA_CUR_ADDR c = ad % 2 ^ 20 ∧
    (s.dmaTaken c x ic ad).fld F.DMA_CUR_REMAIN c = (x.outBytes - x.wr) % 2 ^ F.DMA_CUR_REMAIN.w :=
  ⟨((fld_setFld_at (n := 64) _ _ hc (by decide)).trans ((setChan_fld ..).trans (fld_setFld_at (n := 64) _ _ hc (by decide)))).trans
      (fld_setFld_own _ _ (by decide)),
    ((fld_setFld_at (n := 64) _ _ hc (by decide)).trans (setChan_fld ..)).trans (fld_setFld_own _ _ (by decide)), fld_setFld_own _ _ (by decide)⟩

/-- DMA_STAT is not touched by the change of descriptor. -/
theorem dmaTaken_stat {f : Fld} (hf : f.reg = .DMA_STAT) : (s.dmaTaken c x ic ad).fld f c = s.fld f c := by
  have hne (g : Fld) (hg : g.reg = .DMA_CUR) (u : State) (v : Nat) : (u.setFld g v c).fld f c = u.fld f c :=
    fld_setFld_reg u v (hg ▸ ⟨hc, Nat.one_pos⟩) (hf ▸ ⟨hc, Nat.one_pos⟩) (by rw [hg, hf]; decide)
  rw [State.dmaTaken, hne _ rfl, setChan_fld, hne _ rfl, hne _ rfl]

theorem dmaTake_eq : s.dmaTake c x ic ad = if s.descOk x then s.dmaTaken c x ic ad else (s.dmaTaken c x ic ad).dmaError c 1 := by
  obtain ⟨hk, -, -⟩ := dmaTaken_only s x ic ad hc
  have h0 := descOk_congr hk x
  unfold State.dmaTake
  dsimp only
  rw [dmaCur_setChan]
  change (if (s.dmaTaken c x ic ad).descOk x then s.dmaTaken c x ic ad else (s.dmaTaken c x ic ad).dmaError c 1) = _
  rw [h0]

end

theorem dmaError_bad : s.dmaError c 1 = ((s.dmaIdle c).dmaFailed c 1).tell (.dmaDesc c) := rfl

theorem dmaFailed_only (hc : c < 64) (code : Nat) : s.dmaOnly c (s.dmaFailed c code) :=
  dmaOnly_trans (dmaOnly_setFld s F.DMA_STAT_STATE 4 hc (by simp [dmaRegs]) (by decide))
    (dmaOnly_setFld _ F.DMA_STAT_ERR code hc (by simp [dmaRegs]) (by decide))

theorem dmaIdle_only : s.dmaOnly c (s.dmaIdle c) := dmaOnly_setChan ..

end

end Sys2Proof.Machine
end

section
namespace Sys2Proof.Machine

/-- Does a channel hold the descriptor of the registers, of which nothing has moved. -/
def State.loaded (s : State) (c : Nat) (y : DmaChan) : Prop :=
  y.src = s.reg .DMA_SRC c ∧ y.dst = s.reg .DMA_DST c ∧ y.count = s.reg .DMA_COUNT c ∧ y.ctrl = s.reg .DMA_CTRL c ∧
    y.shuf = s.reg .DMA_SHUF c ∧ y.next = s.reg .DMA_NEXT c ∧ y.rd = 0 ∧ y.wr = 0 ∧ y.hold = [] ∧ y.stop = false

/-- A chain that runs its register descriptor. -/
def State.dmaBegun (s : State) (c : Nat) : State := (s.setFld F.DMA_STAT_STATE 1 c).dmaTaken c (s.firstDesc c) 0 0

section
variable {s t u : State} {c : Nat}

theorem dmaOnly_out (h : s.dmaOnly c t) : t.out = s.out := by
  obtain ⟨-, -, h⟩ := h
  rw [h]

theorem dmaOnly_pulses (h : s.dmaOnly c t) : t.pulses = s.pulses := by
  obtain ⟨-, -, h⟩ := h
  rw [h]

section
variable (s) (hc : c < 64)
include hc

theorem runs_only : s.dmaOnly c (s.setFld F.DMA_STAT_STATE 1 c) := dmaOnly_setFld s F.DMA_STAT_STATE 1 hc (by simp [dmaRegs]) (by decide)

theorem dmaBegun_only : s.dmaOnly c (s.dmaBegun c) := dmaOnly_trans (runs_only s hc) (dmaTaken_only _ _ 0 0 hc)

/-- The chain begins with the register descriptor, or ends with its error. -/
theorem dmaBegin_eq : s.dmaBegin c = if s.descOk (s.firstDesc c) then s.dmaBegun c else (s.dmaBegun c).dmaError c 1 := by
  obtain ⟨hk, -, -⟩ := runs_only s hc
  rw [← descOk_congr hk]
  exact dmaTake_eq (s.setFld F.DMA_STAT_STATE 1 c) (s.firstDesc c) 0 0 hc

theorem dmaBegun_state : (s.dmaBegun c).dmaSt c = 1 :=
  (dmaTaken_stat _ _ 0 0 hc (f := F.DMA_STAT_STATE) rfl).trans (fld_setFld_eq _ _ (by decide) (by decide))

theorem dmaBegun_pend : (s.dmaBegun c).fld F.DMA_STAT_START_PEND c = s.fld F.DMA_STAT_START_PEND c :=
  (dmaTaken_stat _ _ 0 0 hc (f := F.DMA_STAT_START_PEND) rfl).trans (fld_setFld_at (n := 64) _ _ hc (by decide))

theorem dmaBegun_cur : (s.dmaBegun c).fld F.DMA_CUR_IN_CHAIN c = 0 ∧
    (s.dmaBegun c).fld F.DMA_CUR_REMAIN c = (s.firstDesc c).outBytes % 2 ^ F.DMA_CUR_REMAIN.w := by
  obtain ⟨h1, -, h3⟩ := dmaTaken_cur (s.setFld F.DMA_STAT_STATE 1 c) (s.firstDesc c) 0 0 hc
  exact ⟨h1, h3⟩

end

theorem dmaBegun_loaded (s : State) (c : Nat) : s.loaded c ((s.dmaBegun c).chan c) := by
  rw [State.dmaBegun, dmaTaken_chan]
  exact ⟨rfl, rfl, rfl, rfl, rfl, rfl, rfl, rfl, rfl, rfl⟩

/-- A channel that ended with the error of a bad descriptor. -/
theorem dmaError_bad_leaves (hc : c < 64) (h : s.dmaOnly c t) : (t.dmaError c 1).dmaSt c = 4 ∧ (t.dmaError c 1).fld F.DMA_STAT_ERR c = 1 ∧
    (t.dmaError c 1).out = s.out ++ [.report (.dmaDesc c)] ∧ s.keeps (t.dmaError c 1) (dmaRegs c) := by
  have hf := dmaOnly_trans h (dmaOnly_trans (dmaIdle_only t) (dmaFailed_only (t.dmaIdle c) hc 1))
  have hout := dmaOnly_out hf
  obtain ⟨hk, -, -⟩ := hf
  obtain ⟨w, hw⟩ : ∃ w, w = (t.dmaIdle c).dmaFailed c 1 := ⟨_, rfl⟩
  have h4 : w.dmaSt c = 4 := hw ▸ dmaFailed_dmaSt _ hc 1
  have h1 : w.fld F.DMA_STAT_ERR c = 1 := hw ▸ dmaFailed_err _ (by decide)
  rw [← hw] at hk hout
  have hregs (r : Report) : (w.tell r).regs = w.regs := rfl
  rw [dmaError_bad, ← hw, State.dmaSt, State.fld_congr (hregs _), State.fld_congr (hregs _)]
  exact ⟨h4, h1, congrArg (· ++ _) hout, keeps_congr (hregs _) hk⟩

/-- KILL or another error ends the descriptor. -/
theorem dmaKilled_leaves (s : State) (hc : c < 64) {code : Nat} (h1 : code ≠ 1) (h : code < 2 ^ F.DMA_STAT_ERR.w) :
    (s.dmaError c code).dmaSt c = 4 ∧ (s.dmaError c code).fld F.DMA_STAT_ERR c = code ∧ ((s.dmaError c code).chan c).hold = [] ∧
      s.dmaOnly c (s.dmaError c code) := by
  rw [dmaError_eq s h1]
  refine ⟨dmaFailed_dmaSt _ hc code, dmaFailed_err _ h, ?_, dmaOnly_trans (dmaIdle_only s) (dmaFailed_only _ hc code)⟩
  rw [State.dmaFailed, chan_setFld, chan_setFld, State.dmaIdle, State.chan_setChan_same]

theorem descPend_lt (s : State) (c : Nat) : s.fld F.DMA_STAT_START_PEND c < 256 := s.fld_lt F.DMA_STAT_START_PEND c 0

/-- A start of a channel that runs waits behind it. -/
theorem startPend_leaves (s : State) (hc : c < 64) (hp : s.fld F.DMA_STAT_START_PEND c < 255) :
    (s.inc F.DMA_STAT_START_PEND c).fld F.DMA_STAT_START_PEND c = s.fld F.DMA_STAT_START_PEND c + 1 ∧
      (s.inc F.DMA_STAT_START_PEND c).dmaSt c = s.dmaSt c ∧ (s.inc F.DMA_STAT_START_PEND c).chan c = s.chan c ∧
      s.dmaOnly c (s.inc F.DMA_STAT_START_PEND c) :=
  ⟨(State.fld_inc_same _ _ _ _ (by decide)).trans (Nat.min_eq_left (by rw [show (2 : Nat) ^ F.DMA_STAT_START_PEND.w - 1 = 255 from rfl]; omega)),
    fld_inc_at (n := 64) _ hc (by decide), chan_setFld .., dmaOnly_inc s F.DMA_STAT_START_PEND hc (by simp [dmaRegs]) (by decide)⟩

/-- A start that is lost is counted. -/
theorem startOvr_leaves (s : State) (hc : c < 64) :
    (s.inc F.DMA_STAT_START_OVR c).fld F.DMA_STAT_START_OVR c = min (s.fld F.DMA_STAT_START_OVR c + 1) (2 ^ F.DMA_STAT_START_OVR.w - 1) ∧
      (s.inc F.DMA_STAT_START_OVR c).dmaSt c = s.dmaSt c ∧ (s.inc F.DMA_STAT_START_OVR c).chan c = s.chan c ∧
      s.dmaOnly c (s.inc F.DMA_STAT_START_OVR c) :=
  ⟨State.fld_inc_same _ _ _ _ (by decide), fld_inc_at (n := 64) _ hc (by decide), chan_setFld ..,
    dmaOnly_inc s F.DMA_STAT_START_OVR hc (by simp [dmaRegs]) (by decide)⟩

/-- The state of a channel that is stopping or starting, after a change of its descriptor. -/
theorem chanState_leaves (s : State) (hc : c < 64) (y : DmaChan) {v : Nat} (hv : v < 2 ^ F.DMA_STAT_STATE.w) :
    ((s.setChan c y).setFld F.DMA_STAT_STATE v c).chan c = y ∧ ((s.setChan c y).setFld F.DMA_STAT_STATE v c).dmaSt c = v ∧
      s.dmaOnly c ((s.setChan c y).setFld F.DMA_STAT_STATE v c) :=
  ⟨(chan_setFld ..).trans (State.chan_setChan_same ..), fld_setFld_eq _ _ (by decide) hv,
    dmaOnly_trans (dmaOnly_setChan ..) (dmaOnly_setFld _ F.DMA_STAT_STATE v hc (by simp [dmaRegs]) (by decide))⟩

theorem errCleared_leaves (s : State) (hc : c < 64) :
    ((s.setFld F.DMA_STAT_STATE 0 c).setFld F.DMA_STAT_ERR 0 c).dmaSt c = 0 ∧
      ((s.setFld F.DMA_STAT_STATE 0 c).setFld F.DMA_STAT_ERR 0 c).fld F.DMA_STAT_ERR c = 0 ∧
      ((s.setFld F.DMA_STAT_STATE 0 c).setFld F.DMA_STAT_ERR 0 c).chan c = s.chan c ∧
      s.dmaOnly c ((s.setFld F.DMA_STAT_STATE 0 c).setFld F.DMA_STAT_ERR 0 c) :=
  ⟨(fld_setFld_at (n := 64) _ _ hc (by decide)).trans (fld_setFld_eq _ _ (by decide) (by decide)), fld_setFld_eq _ _ (by decide) (by decide),
    (chan_setFld ..).trans (chan_setFld ..),
    dmaOnly_trans (dmaOnly_setFld s F.DMA_STAT_STATE 0 hc (by simp [dmaRegs]) (by decide))
      (dmaOnly_setFld _ F.DMA_STAT_ERR 0 hc (by simp [dmaRegs]) (by decide))⟩

/-- A stopped chain: no start waits, and the channel is idle. -/
def State.dmaStopped (s : State) (c : Nat) : State :=
  (((s.setChan c chan0).setFld F.DMA_STAT_START_PEND 0 c).setFld F.DMA_STAT_STATE 0 c).setFld F.DMA_STAT_STOPPED 1 c

theorem dmaStopped_leaves (s : State) (hc : c < 64) : (s.dmaStopped c).dmaSt c = 0 ∧ (s.dmaStopped c).flag F.DMA_STAT_STOPPED c = true ∧
    (s.dmaStopped c).fld F.DMA_STAT_START_PEND c = 0 ∧ (s.dmaStopped c).chan c = chan0 ∧ s.dmaOnly c (s.dmaStopped c) :=
  ⟨(fld_setFld_at (n := 64) _ _ hc (by decide)).trans (fld_setFld_eq _ _ (by decide) (by decide)),
    flag_setFld_same _ F.DMA_STAT_STOPPED _ _ _ (by decide),
    ((fld_setFld_at (n := 64) _ _ hc (by decide)).trans (fld_setFld_at (n := 64) _ _ hc (by decide))).trans (fld_setFld_eq _ _ (by decide) (by decide)),
    ((chan_setFld ..).trans ((chan_setFld ..).trans (chan_setFld ..))).trans (State.chan_setChan_same ..),
    dmaOnly_trans (dmaOnly_trans (dmaOnly_trans (dmaOnly_setChan ..) (dmaOnly_setFld _ F.DMA_STAT_START_PEND 0 hc (by simp [dmaRegs]) (by decide)))
      (dmaOnly_setFld _ F.DMA_STAT_STATE 0 hc (by simp [dmaRegs]) (by decide))) (dmaOnly_setFld _ F.DMA_STAT_STOPPED 1 hc (by simp [dmaRegs]) (by decide))⟩

end

theorem dmaCmd_start (s : State) (r : Requester) (c : Nat) : s.dmaCmd r c 1 = s.dmaStart c := by
  unfold State.dmaCmd
  dsimp only
  rw [if_neg (by decide), if_pos (by decide), if_neg (by decide), if_neg (by decide)]

theorem dmaCmd_stop (s : State) (r : Requester) (c : Nat) : s.dmaCmd r c 2 = s.dmaStop c := by
  unfold State.dmaCmd
  dsimp only
  rw [if_pos (by decide), if_neg (by decide), if_neg (by decide), if_neg (by decide)]

theorem dmaCmd_clrErr (s : State) (r : Requester) (c : Nat) : s.dmaCmd r c 4 = s.dmaClr c := by
  unfold State.dmaCmd
  dsimp only
  rw [if_neg (by decide), if_neg (by decide), if_pos (by decide), if_neg (by decide)]

theorem dmaCmd_kill (s : State) (r : Requester) (c : Nat) : s.dmaCmd r c 8 = s.dmaKill r c := by
  unfold State.dmaCmd
  dsimp only
  rw [if_neg (by decide), if_neg (by decide), if_neg (by decide), if_pos (by decide)]

section
variable {dt : Nat} {r : Requester} {c : Fin 64} {s : State} (ha : s.access (regAddr .DMA_CMD c) 4 = .ok (hitOf .DMA_CMD c 0))
include ha

theorem exec_dmaStart : exec (.dmaStart dt r c) s = .next ((s.tick dt).dmaStart c) :=
  (congrArg Host.Outcome.next (accessing_of_ok (s := s.tick dt) ha r 1 fun _ => (s.tick dt).dmaCmd r c 1)).trans
    (congrArg Host.Outcome.next (dmaCmd_start ..))

theorem exec_dmaStop : exec (.dmaStop dt r c) s = .next ((s.tick dt).dmaStop c) :=
  (congrArg Host.Outcome.next (accessing_of_ok (s := s.tick dt) ha r 2 fun _ => (s.tick dt).dmaCmd r c 2)).trans
    (congrArg Host.Outcome.next (dmaCmd_stop ..))

theorem exec_dmaClrErr : exec (.dmaClrErr dt r c) s = .next ((s.tick dt).dmaClr c) :=
  (congrArg Host.Outcome.next (accessing_of_ok (s := s.tick dt) ha r 4 fun _ => (s.tick dt).dmaCmd r c 4)).trans
    (congrArg Host.Outcome.next (dmaCmd_clrErr ..))

theorem exec_dmaKill : exec (.dmaKill dt r c) s = .next ((s.tick dt).dmaKill r c) :=
  (congrArg Host.Outcome.next (accessing_of_ok (s := s.tick dt) ha r 8 fun _ => (s.tick dt).dmaCmd r c 8)).trans
    (congrArg Host.Outcome.next (dmaCmd_kill ..))

end

end Sys2Proof.Machine
end

section
namespace Sys2Proof.Machine

section
variable {dt : Nat} {r : Requester} {c : Fin 64} {s : State}

section
variable (ha : s.access (regAddr .DMA_CMD c) 4 = .ok (hitOf .DMA_CMD c 0))
include ha

theorem dmaStart_idle (h0 : s.dmaSt c = 0) (hok : s.descOk (s.firstDesc c) = true) : ∃ t, exec (.dmaStart dt r c) s = .next t ∧ t.dmaSt c = 1 ∧
    s.loaded c (t.chan c) ∧ t.fld F.DMA_CUR_IN_CHAIN c = 0 ∧
    t.fld F.DMA_CUR_REMAIN c = (s.firstDesc c).outBytes % 2 ^ F.DMA_CUR_REMAIN.w ∧ (s.tick dt).dmaOnly c t := by
  obtain ⟨h1, h2⟩ := dmaBegun_cur (s.tick dt) c.isLt
  refine ⟨(s.tick dt).dmaBegun c, ?_, dmaBegun_state _ c.isLt, dmaBegun_loaded (s.tick dt) c, h1, h2, dmaBegun_only _ c.isLt⟩
  have h0 : (s.tick dt).dmaSt c = 0 := h0
  have hok : (s.tick dt).descOk ((s.tick dt).firstDesc c) = true := hok
  rw [exec_dmaStart ha, State.dmaStart, if_pos h0, dmaBegin_eq _ c.isLt, if_pos hok]

theorem dmaStart_bad (h0 : s.dmaSt c = 0) (hbad : s.descOk (s.firstDesc c) = false) : ∃ t, exec (.dmaStart dt r c) s = .next t ∧ t.dmaSt c = 4 ∧
    t.fld F.DMA_STAT_ERR c = 1 ∧ t.out = s.out ++ [.report (.dmaDesc c)] ∧ s.keeps t (dmaRegs c) := by
  obtain ⟨h4, h1, hout, hk⟩ := dmaError_bad_leaves (s := s.tick dt) c.isLt (dmaBegun_only (s.tick dt) c.isLt)
  refine ⟨((s.tick dt).dmaBegun c).dmaError c 1, ?_, h4, h1, hout, hk⟩
  have h0 : (s.tick dt).dmaSt c = 0 := h0
  have hbad : (s.tick dt).descOk ((s.tick dt).firstDesc c) = false := hbad
  rw [exec_dmaStart ha, State.dmaStart, if_pos h0, dmaBegin_eq _ c.isLt, hbad, if_neg Bool.false_ne_true]

theorem dmaStart_waits (h1 : 1 ≤ s.dmaSt c) (h3 : s.dmaSt c ≤ 3) (hp : s.fld F.DMA_STAT_START_PEND c < 255) : ∃ t,
    exec (.dmaStart dt r c) s = .next t ∧ t.fld F.DMA_STAT_START_PEND c = s.fld F.DMA_STAT_START_PEND c + 1 ∧ t.dmaSt c = s.dmaSt c ∧
    t.chan c = s.chan c ∧ (s.tick dt).dmaOnly c t := by
  refine ⟨(s.tick dt).inc F.DMA_STAT_START_PEND c, ?_, startPend_leaves (s.tick dt) c.isLt hp⟩
  have h1 : 1 ≤ (s.tick dt).dmaSt c := h1
  have h3 : (s.tick dt).dmaSt c ≤ 3 := h3
  have hp : (s.tick dt).fld F.DMA_STAT_START_PEND c < 255 := hp
  rw [exec_dmaStart ha, State.dmaStart, if_neg (show ¬ (s.tick dt).dmaSt c = 0 by omega), if_neg (show ¬ (s.tick dt).dmaSt c = 4 by omega),
    if_neg (Nat.ne_of_lt hp)]

theorem dmaStart_lost (h : s.dmaSt c = 4 ∨ (s.dmaSt c ≠ 0 ∧ s.fld F.DMA_STAT_START_PEND c = 255)) : ∃ t, exec (.dmaStart dt r c) s = .next t ∧
    t.fld F.DMA_STAT_START_OVR c = min (s.fld F.DMA_STAT_START_OVR c + 1) (2 ^ F.DMA_STAT_START_OVR.w - 1) ∧ t.dmaSt c = s.dmaSt c ∧
    t.chan c = s.chan c ∧ (s.tick dt).dmaOnly c t := by
  refine ⟨(s.tick dt).inc F.DMA_STAT_START_OVR c, ?_, startOvr_leaves (s.tick dt) c.isLt⟩
  have h : (s.tick dt).dmaSt c = 4 ∨ ((s.tick dt).dmaSt c ≠ 0 ∧ (s.tick dt).fld F.DMA_STAT_START_PEND c = 255) := h
  rw [exec_dmaStart ha, State.dmaStart, if_neg (show ¬ (s.tick dt).dmaSt c = 0 by omega)]
  obtain h4 | ⟨-, hfull⟩ := h
  · rw [if_pos h4]
  · rw [if_pos hfull, ite_self]

theorem dmaStop_leaves (h1 : 1 ≤ s.dmaSt c) (h3 : s.dmaSt c ≤ 3) : ∃ t, exec (.dmaStop dt r c) s = .next t ∧
    t.chan c = { s.chan c with stop := true } ∧ t.dmaSt c = (if s.dmaSt c = 1 then 2 else s.dmaSt c) ∧ (s.tick dt).dmaOnly c t := by
  have hv : (if s.dmaSt c = 1 then 2 else s.dmaSt c) < 2 ^ F.DMA_STAT_STATE.w := by
    change _ < 8
    split <;> omega
  refine ⟨_, ?_, chanState_leaves (s.tick dt) c.isLt { s.chan c with stop := true } hv⟩
  have hno : ¬ ((s.tick dt).dmaSt c = 0 ∨ (s.tick dt).dmaSt c = 4) := by
    change ¬ (s.dmaSt c = 0 ∨ s.dmaSt c = 4)
    omega
  rw [exec_dmaStop ha]
  exact congrArg Host.Outcome.next (if_neg hno)

theorem dmaClr_leaves (h4 : s.dmaSt c = 4) : ∃ t, exec (.dmaClrErr dt r c) s = .next t ∧ t.dmaSt c = 0 ∧ t.fld F.DMA_STAT_ERR c = 0 ∧
    t.chan c = s.chan c ∧ (s.tick dt).dmaOnly c t := by
  refine ⟨_, ?_, errCleared_leaves (s.tick dt) c.isLt⟩
  have h4 : (s.tick dt).dmaSt c = 4 := h4
  rw [exec_dmaClrErr ha, State.dmaClr, if_pos h4]

theorem dmaKill_mc (h1 : 1 ≤ s.dmaSt c) (h3 : s.dmaSt c ≤ 3) : ∃ t, exec (.dmaKill dt .mc c) s = .next t ∧ t.dmaSt c = 4 ∧
    t.fld F.DMA_STAT_ERR c = 6 ∧ (t.chan c).hold = [] ∧ (s.tick dt).dmaOnly c t := by
  refine ⟨_, ?_, dmaKilled_leaves (s.tick dt) c.isLt (code := 6) (by decide) (by decide)⟩
  have hno : ¬ ((s.tick dt).dmaSt c = 0 ∨ (s.tick dt).dmaSt c = 4) := by
    change ¬ (s.dmaSt c = 0 ∨ s.dmaSt c = 4)
    omega
  rw [exec_dmaKill ha, State.dmaKill, if_neg (not_not_intro rfl), if_neg hno]

theorem dmaKill_other (hr : r ≠ .mc) : exec (.dmaKill dt r c) s = .next ((s.tick dt).aelReg r (regAddr .DMA_CMD c) 11 0 8) := by
  rw [exec_dmaKill ha, State.dmaKill, if_pos hr]

end

/-- The pulse of a descriptor that asks for one (R349). -/
def State.descPulse (s : State) (c : Nat) : State := if bitsOf (s.chan c).ctrl 15 1 = 1 then s.pulse (.local_ c) 1 else s

theorem descPulse_frame (s : State) (c : Nat) : s.descPulse c = { s with pulses := (s.descPulse c).pulses } := by
  unfold State.descPulse State.pulse
  split <;> rfl

theorem descPulse_pulses (s : State) (c : Nat) : (s.descPulse c).pulses =
    s.pulses ++ (if bitsOf (s.chan c).ctrl 15 1 = 1 then [(.local_ c, 1)] else []) := by
  unfold State.descPulse
  split
  · rfl
  · exact (List.append_nil _).symm

/-- What follows a descriptor that has been written: a stop, the next of the chain, or its end. -/
def State.descEnd (s : State) (c : Nat) (x : DmaChan) : State :=
  if x.stop then s.dmaStopped c
  else if bitsOf x.next 31 1 = 1 then (s.setChan c { x with fetching := true, hold := [] }).setFld F.DMA_STAT_STATE 1 c
  else s.dmaEnd c

theorem exec_descComplete (hw : (s.chan c).written = true) (h1 : 1 ≤ s.dmaSt c) (h3 : s.dmaSt c ≤ 3) :
    exec (.dmaDescriptorComplete dt c) s = .next (((s.tick dt).descPulse c).descEnd c ((s.tick dt).chan c)) := by
  have hgo : ((s.tick dt).chan c).written = true ∧ (s.tick dt).dmaSt c ≠ 0 ∧ (s.tick dt).dmaSt c ≠ 4 := by
    change (s.chan c).written = true ∧ s.dmaSt c ≠ 0 ∧ s.dmaSt c ≠ 4
    exact ⟨hw, by omega, by omega⟩
  change execDmaDescriptorComplete dt c s = _
  unfold execDmaDescriptorComplete State.descEnd
  dsimp only
  rw [if_pos hgo]
  split
  · rfl
  · split <;> rfl

/-- What the end of a descriptor leaves alone. -/
def State.descDone (s : State) (dt : Nat) (c : Nat) (t : State) : Prop :=
  t.pulses = s.pulses ++ (if bitsOf (s.chan c).ctrl 15 1 = 1 then [(.local_ c, 1)] else []) ∧ s.keeps t (dmaRegs c) ∧
    (∀ j : Nat, j ≠ c → t.chan j = s.chan j) ∧ t = { s.tick dt with regs := t.regs, dma := t.dma, pulses := t.pulses }

theorem descDone_of_only {u t : State} (hf : u = { s.tick dt with pulses := u.pulses })
    (hp : u.pulses = s.pulses ++ (if bitsOf (s.chan c).ctrl 15 1 = 1 then [(.local_ c, 1)] else [])) (h : u.dmaOnly c t) : s.descDone dt c t := by
  have hregs : u.regs = s.regs := by rw [hf]; rfl
  have hchan (j : Nat) : u.chan j = s.chan j := by rw [hf]; rfl
  have hpulses := (dmaOnly_pulses h).trans hp
  obtain ⟨hk, hc, ht⟩ := h
  refine ⟨hpulses, keeps_mono (keeps_trans (keeps_of_regs [] hregs) hk) (by simp), fun j hj => (hc j hj).trans (hchan j), ?_⟩
  rw [ht, hf]

end

end Sys2Proof.Machine
end

section
namespace Sys2Proof.Machine

section
variable {dt : Nat} {c : Fin 64} {s : State} (hw : (s.chan c).written = true) (h1 : 1 ≤ s.dmaSt c) (h3 : s.dmaSt c ≤ 3)

/-- The state in which a descriptor has pulsed, as far as what follows it looks. -/
theorem descPulse_alike (s : State) (dt : Nat) (c : Fin 64) : ∃ u : State, u = (s.tick dt).descPulse c ∧ u.regs = s.regs ∧
    (∀ t, u.dmaOnly c t → s.descDone dt c t) := by
  refine ⟨_, rfl, ?_, fun t h => descDone_of_only (s := s) (descPulse_frame (s.tick dt) c) (descPulse_pulses (s.tick dt) c) h⟩
  rw [descPulse_frame]
  rfl

include hw h1 h3

theorem desc_stops (hs : (s.chan c).stop = true) : ∃ t, exec (.dmaDescriptorComplete dt c) s = .next t ∧ t.dmaSt c = 0 ∧
    t.flag F.DMA_STAT_STOPPED c = true ∧ t.fld F.DMA_STAT_START_PEND c = 0 ∧ t.chan c = chan0 ∧ s.descDone dt c t := by
  obtain ⟨u, hu, -, hdone⟩ := descPulse_alike s dt c
  obtain ⟨h0, hst, hp, hc, honly⟩ := dmaStopped_leaves u c.isLt
  have hs : ((s.tick dt).chan c).stop = true := hs
  refine ⟨_, ?_, h0, hst, hp, hc, hdone _ honly⟩
  rw [exec_descComplete hw h1 h3, ← hu, State.descEnd, if_pos hs]

theorem desc_goesOn (hs : (s.chan c).stop = false) (hn : bitsOf (s.chan c).next 31 1 = 1) : ∃ t,
    exec (.dmaDescriptorComplete dt c) s = .next t ∧ t.dmaSt c = 1 ∧ (t.chan c).fetching = true ∧ (t.chan c).next = (s.chan c).next ∧
      s.descDone dt c t := by
  obtain ⟨u, hu, -, hdone⟩ := descPulse_alike s dt c
  obtain ⟨hc, h0, honly⟩ := chanState_leaves u c.isLt { (s.tick dt).chan c with fetching := true, hold := [] } (v := 1) (by decide)
  have hs : ((s.tick dt).chan c).stop = false := hs
  have hn : bitsOf ((s.tick dt).chan c).next 31 1 = 1 := hn
  refine ⟨_, ?_, h0, by rw [hc], by rw [hc]; rfl, hdone _ honly⟩
  rw [exec_descComplete hw h1 h3, ← hu, State.descEnd, if_neg (Bool.eq_false_iff.1 hs), if_pos hn]

/-- The chain of channel `c` ends. -/
theorem desc_ends (hs : (s.chan c).stop = false) (hn : bitsOf (s.chan c).next 31 1 = 0) :
    exec (.dmaDescriptorComplete dt c) s = .next (((s.tick dt).descPulse c).dmaEnd c) := by
  have hs : ((s.tick dt).chan c).stop = false := hs
  have hn : bitsOf ((s.tick dt).chan c).next 31 1 ≠ 1 := by
    change bitsOf (s.chan c).next 31 1 ≠ 1
    omega
  rw [exec_descComplete hw h1 h3, State.descEnd, if_neg (Bool.eq_false_iff.1 hs), if_neg hn]

theorem desc_ends_idle (hs : (s.chan c).stop = false) (hn : bitsOf (s.chan c).next 31 1 = 0) (hp : s.fld F.DMA_STAT_START_PEND c = 0) : ∃ t,
    exec (.dmaDescriptorComplete dt c) s = .next t ∧ t.dmaSt c = 0 ∧ t.chan c = chan0 ∧ s.descDone dt c t := by
  obtain ⟨u, hu, hregs, hdone⟩ := descPulse_alike s dt c
  obtain ⟨hc, h0, honly⟩ := chanState_leaves u c.isLt chan0 (v := 0) (by decide)
  refine ⟨_, ?_, h0, hc, hdone _ honly⟩
  have hp : ¬ 0 < (u.setChan c chan0).fld F.DMA_STAT_START_PEND c := by
    rw [setChan_fld, State.fld_congr hregs, hp]
    exact Nat.lt_irrefl 0
  rw [desc_ends hw h1 h3 hs hn, ← hu, State.dmaEnd, if_neg hp]

/-- A channel without its descriptor, with one waiting start fewer. -/
def State.dmaRestart (s : State) (c : Nat) : State :=
  (s.setChan c chan0).setFld F.DMA_STAT_START_PEND (s.fld F.DMA_STAT_START_PEND c - 1) c

omit hw h1 h3 in
theorem dmaRestart_only (u : State) : u.dmaOnly c (u.dmaRestart c) :=
  dmaOnly_trans (dmaOnly_setChan ..) (dmaOnly_setFld _ F.DMA_STAT_START_PEND _ c.isLt (by simp [dmaRegs]) (by decide))

theorem desc_ends_again (hs : (s.chan c).stop = false) (hn : bitsOf (s.chan c).next 31 1 = 0) (hp : 0 < s.fld F.DMA_STAT_START_PEND c)
    (hok : s.descOk (s.firstDesc c) = true) : ∃ t, exec (.dmaDescriptorComplete dt c) s = .next t ∧ t.dmaSt c = 1 ∧
      s.loaded c (t.chan c) ∧ t.fld F.DMA_STAT_START_PEND c = s.fld F.DMA_STAT_START_PEND c - 1 ∧ s.descDone dt c t := by
  obtain ⟨u, hu, hregs, hdone⟩ := descPulse_alike s dt c
  have honly := dmaRestart_only (c := c) u
  obtain ⟨hk, -, -⟩ := honly
  have hks : s.keeps (u.dmaRestart c) (dmaRegs c) := keeps_mono (keeps_trans (keeps_of_regs [] hregs) hk) (by simp)
  have hfirst := firstDesc_congr hks c.isLt
  have hdesc := descOk_congr hks (s.firstDesc c)
  have hlt := descPend_lt s c
  have hpend : u.fld F.DMA_STAT_START_PEND c = s.fld F.DMA_STAT_START_PEND c := State.fld_congr hregs ..
  have hval : (u.dmaRestart c).fld F.DMA_STAT_START_PEND c = s.fld F.DMA_STAT_START_PEND c - 1 := by
    rw [State.dmaRestart, hpend]
    exact fld_setFld_eq _ _ (by decide) (by change _ < 256; omega)
  refine ⟨(u.dmaRestart c).dmaBegun c, ?_, dmaBegun_state _ c.isLt, ?_, (dmaBegun_pend _ c.isLt).trans hval,
    hdone _ (dmaOnly_trans (dmaRestart_only u) (dmaBegun_only _ c.isLt))⟩
  · have hgo : 0 < (u.setChan c chan0).fld F.DMA_STAT_START_PEND c := by rwa [setChan_fld, hpend]
    have hbegin : (u.dmaRestart c).dmaBegin c = (u.dmaRestart c).dmaBegun c := by
      rw [dmaBegin_eq _ c.isLt, hfirst, hdesc, if_pos hok]
    rw [desc_ends hw h1 h3 hs hn, ← hu, State.dmaEnd, if_pos hgo, ← hbegin]
    rfl
  · rw [State.dmaBegun, dmaTaken_chan, hfirst]
    exact ⟨rfl, rfl, rfl, rfl, rfl, rfl, rfl, rfl, rfl, rfl⟩

end

/-- A slice of a list of consecutive values. -/
theorem slice_map_range {α : Type} (f : Nat → α) {m o n : Nat} (h : o + n ≤ m) :
    (((List.range m).map f).drop o).take n = (List.range n).map fun i => f (o + i) := by
  apply List.ext_getElem
  · simp only [List.length_take, List.length_drop, List.length_map, List.length_range]
    omega
  · intro i h1 h2
    simp only [List.getElem_take, List.getElem_drop, List.getElem_map, List.getElem_range]

/-- The number at offset `o` of the descriptor at a depot address. -/
theorem depot_slice (s : State) {a : Nat} (ha : a + 32 ≤ depotBytes) {o n : Nat} (h : o + n ≤ 32) :
    leNat ((((s.depotGet a 32).map (·.1)).drop o).take n) = leNat ((List.range n).map fun i => s.depByte (a + o + i)) := by
  rw [State.depotGet, List.map_map, slice_map_range _ h]
  refine congrArg leNat (List.map_congr_left fun i hi => ?_)
  have hi := List.mem_range.1 hi
  have hmod : (a + (o + i)) % depotBytes = a + o + i := by
    rw [Nat.mod_eq_of_lt (by omega)]
    omega
  exact congrArg (mapGet 0 s.depot) hmod

/-- The descriptor at a depot address, for a channel that may be told to stop (R337). -/
def State.depotDesc (s : State) (a : Nat) (stop : Bool) : DmaChan :=
  let n (o k : Nat) : Nat := leNat ((((s.depotGet a 32).map (·.1)).drop o).take k)
  { chan0 with src := n 0 8, dst := n 8 8, count := n 16 4, ctrl := n 20 4, shuf := n 24 4, next := n 28 4, stop := stop }

theorem exec_nextFetched {dt : Nat} {c : Fin 64} {s : State} (hf : (s.chan c).fetching = true)
    (hm : s.depotMay 2 (32 * bitsOf (s.chan c).next 0 20) = true) : exec (.dmaNextFetched dt c) s =
      .next ((s.tick dt).dmaTake c (s.depotDesc (32 * bitsOf (s.chan c).next 0 20) (s.chan c).stop) 1 (bitsOf (s.chan c).next 0 20)) := by
  have hf : ((s.tick dt).chan c).fetching = true := hf
  have hm : (s.tick dt).depotMay 2 (32 * bitsOf ((s.tick dt).chan c).next 0 20) = true := hm
  change execDmaNextFetched dt c s = _
  unfold execDmaNextFetched
  dsimp only
  rw [if_pos hf, if_pos hm]
  rfl

/-- The next descriptor of a chain, as it is stored in the depot now (R349, R353). -/
theorem nextFetched_leaves {dt : Nat} {c : Fin 64} {s : State} {y : DmaChan} (hf : (s.chan c).fetching = true)
    (hm : s.depotMay 2 (32 * bitsOf (s.chan c).next 0 20) = true)
    (hy : y = s.depotDesc (32 * bitsOf (s.chan c).next 0 20) (s.chan c).stop) (hok : s.descOk y = true) :
    ∃ t, exec (.dmaNextFetched dt c) s = .next t ∧ t.chan c = { y with checked := true } ∧ t.fld F.DMA_CUR_IN_CHAIN c = 1 ∧
      t.fld F.DMA_CUR_ADDR c = bitsOf (s.chan c).next 0 20 ∧ (s.tick dt).dmaOnly c t := by
  obtain ⟨h1, h2, -⟩ := dmaTaken_cur (s.tick dt) y 1 (bitsOf (s.chan c).next 0 20) c.isLt
  rw [Nat.mod_eq_of_lt (bitsOf_lt _ 0 20)] at h2
  refine ⟨_, ?_, dmaTaken_chan (s.tick dt) (c := c) y 1 _, h1, h2, dmaTaken_only (s.tick dt) y 1 _ c.isLt⟩
  have hok : (s.tick dt).descOk y = true := hok
  rw [exec_nextFetched hf hm, ← hy, dmaTake_eq (s.tick dt) y 1 _ c.isLt, if_pos hok]

/-- The fields of a descriptor in the depot. -/
theorem depotDesc_eq (s : State) {a : Nat} (ha : a + 32 ≤ depotBytes) (stop : Bool) {b : Nat → Nat → Nat}
    (hb : b = fun o n => leNat ((List.range n).map fun i => s.depByte (a + o + i))) : s.depotDesc a stop =
      { chan0 with src := b 0 8, dst := b 8 8, count := b 16 4, ctrl := b 20 4, shuf := b 24 4, next := b 28 4, stop := stop } := by
  unfold State.depotDesc
  simp only [depot_slice s ha (show 0 + 8 ≤ 32 by decide), depot_slice s ha (show 8 + 8 ≤ 32 by decide),
    depot_slice s ha (show 16 + 4 ≤ 32 by decide), depot_slice s ha (show 20 + 4 ≤ 32 by decide), depot_slice s ha (show 24 + 4 ≤ 32 by decide),
    depot_slice s ha (show 28 + 4 ≤ 32 by decide), hb]

/-- Settles O47: each command by the state the channel is in, and each end of a descriptor by what it and the channel hold. -/
theorem dmaCommandsRunChains : Obligations.DmaCommandsRunChains := by
  unfold Obligations.DmaCommandsRunChains
  intro dt r c s x st up only loaded first
  refine ⟨fun ha => ⟨dmaStart_idle ha, dmaStart_bad ha, dmaStart_waits ha, dmaStart_lost ha, dmaStop_leaves ha, dmaClr_leaves ha, dmaKill_mc ha,
    dmaKill_other ha⟩, fun hw h1 h3 => ⟨desc_stops hw h1 h3, desc_goesOn hw h1 h3, desc_ends_idle hw h1 h3, desc_ends_again hw h1 h3⟩,
    fun hf hm hok => nextFetched_leaves hf hm ?_ hok⟩
  have hlt := bitsOf_lt (s.chan c).next 0 20
  exact (depotDesc_eq s (show 32 * bitsOf (s.chan c).next 0 20 + 32 ≤ 0x2000000 by omega) _ rfl).symm

end Sys2Proof.Machine
end

section
/-! The transactions that firmware's procedures prepare for themselves (R287, R289), and the procedures' first steps (R51, R429, R431, R433). -/
namespace Sys2Proof.Machine

/-- `t` differs from `s` in its registers and the waymark store alone. -/
def State.onlyStore (s t : State) : Prop := t = { s with regs := t.regs, way := t.way, txs := t.txs }

/-- Can the MC open transaction `x` for `n` records now (R287). -/
def State.txReady (s : State) (x n : Nat) : Prop :=
  s.freeTx = some x ∧ s.fld F.WAY_STAT_OPEN < 64 ∧ s.wayBad = false ∧ n ≤ s.fld F.WAY_STAT_FREE

section
variable {s t u : State}

theorem onlyStore_refl (s : State) : s.onlyStore s := rfl

theorem onlyStore_trans (h : s.onlyStore t) (h' : t.onlyStore u) : s.onlyStore u := by
  rw [State.onlyStore] at h h' ⊢
  rw [h', h]

theorem onlyStore_of_onlyRegs (h : s.onlyRegs t) : s.onlyStore t := by
  rw [State.onlyStore, show t = { s with regs := t.regs } from h]

theorem onlyStore_setTx (s : State) (x : Nat) (y : Tx) : s.onlyStore (s.setTx x y) := rfl
theorem wayPut_txs (s : State) (i v : Nat) : (s.wayPut i v).txs = s.txs := rfl
theorem onlyStore_wayPut (s : State) (i v : Nat) : s.onlyStore (s.wayPut i v) := rfl

section
variable (h : s.onlyStore t)
include h
theorem onlyStore_out : t.out = s.out := by rw [h]
theorem onlyStore_depot : t.depot = s.depot := by rw [h]
theorem onlyStore_svc : t.svc = s.svc := by rw [h]
theorem onlyStore_queues : t.queues = s.queues := by rw [h]
theorem onlyStore_netFifo : t.netFifo = s.netFifo := by rw [h]
end

theorem freeTx_lt {x : Nat} (h : s.freeTx = some x) : x < 64 := List.mem_range.1 (List.mem_of_find?_eq_some h)

/-- Two states with the same waymark registers open the same transaction. -/
theorem txReady_congr {x n : Nat} (hx : ∀ (f : Fld) (i : Nat), i < 64 → f.reg = .WAY_TX_STAT → t.fld f i = s.fld f i)
    (hst : ∀ f : Fld, f.reg = .WAY_STAT → t.fld f = s.fld f) (hb : t.wayBad = s.wayBad) (h : s.txReady x n) : t.txReady x n := by
  obtain ⟨hfree, hopen, hbad, hroom⟩ := h
  refine ⟨?_, (hst F.WAY_STAT_OPEN rfl).symm ▸ hopen, hb.trans hbad, (hst F.WAY_STAT_FREE rfl).symm ▸ hroom⟩
  rw [← hfree, State.freeTx, State.freeTx]
  exact List.find?_congr fun i hi => congrArg (· == 0) (hx F.WAY_TX_STAT_STATE i (List.mem_range.1 hi) rfl)

theorem txReady_of_regs {x n : Nat} (hr : t.regs = s.regs) (hb : t.wayBad = s.wayBad) (h : s.txReady x n) : t.txReady x n :=
  txReady_congr (fun f i _ _ => State.fld_congr hr f i 0) (fun f _ => State.fld_congr hr f 0 0) hb h

end

section
variable (s : State) {t : Nat}

theorem txSlot_onlyStore (size origin : Nat) : s.onlyStore (s.txSlot t size origin) :=
  onlyStore_trans (onlyStore_setTx s t _) (onlyStore_of_onlyRegs (onlyRegs_trans (onlyRegs_trans (onlyRegs_setReg ..) (onlyRegs_setReg ..))
    (onlyRegs_setReg ..)))

theorem txNew_onlyStore (size origin : Nat) : s.onlyStore (s.txNew t size origin false) := by
  have h := txSlot_onlyStore s (t := t) size origin
  rw [txNew_eq]
  obtain ⟨x, hx⟩ : ∃ x, x = s.txSlot t size origin := ⟨_, rfl⟩
  rw [← hx] at h ⊢
  exact onlyStore_trans h (onlyStore_of_onlyRegs (onlyRegs_trans (onlyRegs_setFld ..) (onlyRegs_setFld ..)))

/-- A record other than one that names a system transaction leaves the transactions' slots as they are. -/
theorem txAdd_leaves {kind : Nat} (hk : kind ≠ 10) (pay : Nat) : s.onlyStore (s.txAdd t kind pay) ∧ (s.txAdd t kind pay).txs = s.txs := by
  unfold State.txAdd
  dsimp only
  split
  · exact ⟨onlyStore_refl s, rfl⟩
  · rw [if_neg hk]
    exact ⟨onlyStore_trans (onlyStore_wayPut s _ _) (onlyStore_of_onlyRegs (onlyRegs_setFld ..)), (State.setFld_txs ..).trans (wayPut_txs s _ _)⟩

/-- Records added one after the other. -/
def State.txAdds (s : State) (t : Nat) (recs : List (Nat × Nat)) : State := recs.foldl (fun s r => s.txAdd t r.1 r.2) s

theorem txAdds_leaves (recs : List (Nat × Nat)) (hk : ∀ r ∈ recs, r.1 ≠ 10) (s : State) :
    s.onlyStore (s.txAdds t recs) ∧ (s.txAdds t recs).txs = s.txs := by
  induction recs generalizing s with
  | nil => exact ⟨onlyStore_refl s, rfl⟩
  | cons r recs ih =>
    obtain ⟨hr, hrecs⟩ := List.forall_mem_cons.1 hk
    obtain ⟨h1, h2⟩ := txAdd_leaves s (t := t) hr r.2
    obtain ⟨h1', h2'⟩ := ih hrecs (s.txAdd t r.1 r.2)
    exact ⟨onlyStore_trans h1 h1', h2'.trans h2⟩

/-- A prepare with any commit point changes registers alone. -/
theorem txBegin_leaves (point arg : Nat) : s.onlyRegs (s.txBegin t point arg) :=
  onlyRegs_trans (onlyRegs_trans (onlyRegs_trans (onlyRegs_trans (poolBack_onlyRegs ..) (onlyRegs_setFld ..)) (onlyRegs_setFld ..))
    (onlyRegs_setReg ..)) (onlyRegs_setFld ..)

theorem txBegin_state (point arg : Nat) : (s.txBegin t point arg).txState t = 2 := fld_setFld_eq _ _ (by decide) (by decide)

end

/-- A transaction of the MC that the store has room for is PREPARING (R289). -/
theorem mcTx_prepares {s : State} {x : Nat} {recs : List (Nat × Nat)} (hready : s.txReady x recs.length) (hk : ∀ r ∈ recs, r.1 ≠ 10)
    (point arg : Nat) : ∃ v, s.mcTx false recs point arg = (v, some x) ∧ v.txState x = 2 ∧ (v.tx x).origin = 1 ∧ s.onlyStore v := by
  obtain ⟨hfree, hopen, hbad, hroom⟩ := hready
  have hopen := openRefused_none (o := none) true hopen hroom hbad nofun
  obtain ⟨h1, h2⟩ := txAdds_leaves (t := x) recs hk (s.txNew x recs.length 1 false)
  have hb := txBegin_leaves ((s.txNew x recs.length 1 false).txAdds x recs) (t := x) point arg
  refine ⟨((s.txNew x recs.length 1 false).txAdds x recs).txBegin x point arg, ?_, txBegin_state .., ?_,
    onlyStore_trans (onlyStore_trans (txNew_onlyStore s ..) h1) (onlyStore_of_onlyRegs hb)⟩
  · rw [State.mcTx, hopen, hfree]
    rfl
  · have htxs : (((s.txNew x recs.length 1 false).txAdds x recs).txBegin x point arg).txs = (s.txNew x recs.length 1 false).txs := by
      rw [show State.txBegin _ x point arg = _ from hb]
      exact h2
    rw [tx_congr htxs, txNew_tx]

/-- What the first step of a procedure leaves: it waits for transaction `x`, which is PREPARING. -/
def State.stepGoes (s : State) (x : Nat) (j : Svc) (t : State) : Prop :=
  j ∈ t.svc ∧ t.txState x = 2 ∧ (t.tx x).origin = 1 ∧ t.out = s.out ∧ (∀ a, t.depByte a = s.depByte a) ∧ (s.csmQuiet = true → t.csmQuiet = true)

theorem svcTx_goes {s : State} {x : Nat} {recs : List (Nat × Nat)} (hready : s.txReady x recs.length) (hk : ∀ r ∈ recs, r.1 ≠ 10)
    (j : Svc) (point arg phase : Nat) : s.stepGoes x { j with phase := phase, tx := some x } (s.svcTx j recs point arg phase) := by
  obtain ⟨v, hv, hst, hor, honly⟩ := mcTx_prepares (s := s.svcDrop j) (txReady_of_regs rfl rfl hready) hk point arg
  have hstep : s.svcTx j recs point arg phase = { v with svc := v.svc ++ [{ j with phase := phase, tx := some x }] } := by
    unfold State.svcTx
    dsimp only
    rw [hv]
  have hout : v.out = s.out := (onlyStore_out honly).trans rfl
  have hdepot : v.depot = s.depot := (onlyStore_depot honly).trans rfl
  have hquiet : v.csmQuiet = s.csmQuiet := (csmQuiet_congr (onlyStore_queues honly) (onlyStore_netFifo honly)).trans rfl
  rw [hstep]
  exact ⟨List.mem_append_right _ (List.mem_singleton_self _), hst, hor, hout, fun a => congrArg (mapGet 0 · a) hdepot, fun hq => hquiet.trans hq⟩

theorem regRecs_length (ws : List (Nat × Nat × Nat)) : (regRecs ws).length = (ws.length + 3) / 4 := by
  rw [regRecs, List.length_map, List.length_range]

theorem regRecs_kind (ws : List (Nat × Nat × Nat)) : ∀ r ∈ regRecs ws, r.1 ≠ 10 := by
  intro r hr
  obtain ⟨i, -, rfl⟩ := List.mem_map.1 hr
  exact (by decide : (1 : Nat) ≠ 10)

end Sys2Proof.Machine
end

section
namespace Sys2Proof.Machine

section
variable {s : State} {dt : Nat} {h : CmdHdr} {p : List Word}

theorem flag_takenPending {f : Fld} {i j : Nat} (hf : regHas f.reg i j) (hs : f.reg ≠ .CMD_STAT) (hq : f.reg ≠ .CMD_Q_STAT) :
    (s.takenPending dt h p).flag f i j = s.flag f i j := flag_congr (fld_takenPending s dt h p hf hs hq)

theorem onlyReplies_wayBad {t : State} (hr : s.onlyReplies t) : t.wayBad = s.wayBad := by rw [hr]
theorem onlyReplies_pmap {t : State} (hr : s.onlyReplies t) : t.pmap = s.pmap := by rw [hr]
theorem onlyReplies_pagesOut {t : State} (hr : s.onlyReplies t) : t.pagesOut = s.pagesOut := by rw [hr]
theorem taken_wayBad : (s.taken dt h p).wayBad = s.wayBad := by rw [taken_frame]; rfl
theorem taken_pmap : (s.taken dt h p).pmap = s.pmap := by rw [taken_frame]; rfl
theorem taken_pagesOut : (s.taken dt h p).pagesOut = s.pagesOut := by rw [taken_frame]; rfl

theorem takenPending_wayBad : (s.takenPending dt h p).wayBad = s.wayBad :=
  (onlyReplies_wayBad (takenPending_onlyReplies s dt h p)).trans taken_wayBad
theorem takenPending_pagesOut : (s.takenPending dt h p).pagesOut = s.pagesOut :=
  (onlyReplies_pagesOut (takenPending_onlyReplies s dt h p)).trans taken_pagesOut
theorem takenPending_pmapGet (k l : Nat) : (s.takenPending dt h p).pmapGet k l = s.pmapGet k l := by
  rw [State.pmapGet, onlyReplies_pmap (takenPending_onlyReplies s dt h p), taken_pmap, State.pmapGet]

theorem txReady_takenPending {x n : Nat} (hr : s.txReady x n) : (s.takenPending dt h p).txReady x n :=
  txReady_congr (fun f i hi hf => fld_takenPending s dt h p (hf ▸ ⟨hi, Nat.one_pos⟩) (by rw [hf]; decide) (by rw [hf]; decide))
    (fun f hf => fld_takenPending s dt h p (hf ▸ ⟨Nat.one_pos, Nat.one_pos⟩) (by rw [hf]; decide) (by rw [hf]; decide)) takenPending_wayBad hr

/-- A command whose procedure begins with a transaction. -/
theorem exec_stepGoes {c : Instr} {op : Nat} {ms : List Nat} {k : State → State} {t : State} {x : Nat} {j : Svc}
    (hc : commandOf c = some (dt, h, p, true, op, ms)) (ht : s.takes c = true) (hk : exec c s = .next ((s.tick dt).mcCmd h p op ms k).settle)
    (hr : k (s.taken dt h p) = t) (hgo : (s.takenPending dt h p).stepGoes x j t) : ∃ t, exec c s = .next t ∧ j ∈ t.svc ∧ t.txState x = 2 ∧
      (t.tx x).origin = 1 ∧ t.out = ((s.taken dt h p).replyPending h).out ∧ (∀ a, t.depByte a = s.depByte a) := by
  obtain ⟨hj, hst, hor, hout, hdep, hquiet⟩ := hgo
  obtain ⟨hmem, -⟩ := takenPending_sameMemory s dt h p
  exact ⟨t, exec_mc hc ht hk hr (hquiet (takenPending_quiet s dt h p (takes_mc hc ht).1)), hj, hst, hor, hout, fun a => (hdep a).trans (hmem a)⟩

/-- What a step leaves, where the state in which it begins differs from an earlier one in what the step does not report. -/
theorem stepGoes_of_alike {u w t : State} {x : Nat} {j : Svc} (ho : w.out = u.out) (hd : w.depot = u.depot) (hq : w.queues = u.queues)
    (hn : w.netFifo = u.netFifo) (hgo : w.stepGoes x j t) : u.stepGoes x j t := by
  obtain ⟨hj, hst, hor, hout, hdep, hquiet⟩ := hgo
  exact ⟨hj, hst, hor, hout.trans ho, fun a => (hdep a).trans (congrArg (mapGet 0 · a) hd), fun h => hquiet ((csmQuiet_congr hq hn).trans h)⟩

theorem stage_taken : (s.taken dt h p).fld F.DEV_START_STAGE = s.fld F.DEV_START_STAGE :=
  fld_taken s dt h p (f := F.DEV_START_STAGE) ⟨Nat.one_pos, Nat.one_pos⟩ nofun

/-! ## SVC_TEST_COLUMN -/

theorem laybyCol_takenPending (k : Nat) : (s.takenPending dt h p).laybyCol k = s.laybyCol k := by
  rw [State.laybyCol, State.laybyCol, fld_takenPending s dt h p (f := F.DEV_LAYBY_LAYBY_A) ⟨Nat.one_pos, Nat.one_pos⟩ nofun nofun,
    fld_takenPending s dt h p (f := F.DEV_LAYBY_LAYBY_B) ⟨Nat.one_pos, Nat.one_pos⟩ nofun nofun]

theorem freeSubst_takenPending : (s.takenPending dt h p).freeSubst = s.freeSubst :=
  List.find?_congr fun k hk => by
    have hk : k < 2 := List.mem_range.1 hk
    rw [flag_takenPending (f := F.RAS_SUBST_EN) ⟨hk, Nat.one_pos⟩ nofun nofun, flag_takenPending (f := F.RAS_SUBST_ACTIVE) ⟨hk, Nat.one_pos⟩ nofun nofun]

theorem substRecs_length (u : State) (k c : Nat) : (u.substRecs k c).length = 17 := by
  rw [State.substRecs, regRecs_length, List.length_cons, List.length_flatMap]
  simp only [List.length_cons, List.length_nil]
  rfl

/-- The substitution of an active column is the first step of its test (R429). -/
theorem testColumn_goes {x k : Nat} (ht : s.takes (.svcTestColumn dt h p) = true) (hc : pw p 0 ≤ 33) (hst : s.fld F.DEV_START_STAGE = 8)
    (ha : pw p 0 ≠ s.laybyCol 0) (hb : pw p 0 ≠ s.laybyCol 1) (hk : s.freeSubst = some k) (hr : s.txReady x 17) :
    ∃ t, exec (.svcTestColumn dt h p) s = .next t ∧ ⟨some h, 1, pw p 0, k, 0, 0, 1, some x⟩ ∈ t.svc ∧ t.txState x = 2 ∧
      (t.tx x).origin = 1 ∧ t.out = ((s.taken dt h p).replyPending h).out ∧ (∀ a, t.depByte a = s.depByte a) := by
  have hready : (s.takenPending dt h p).txReady x ((s.takenPending dt h p).substRecs k (pw p 0)).length :=
    (substRecs_length ..).symm ▸ txReady_takenPending hr
  refine exec_stepGoes rfl ht rfl ?_ (svcTx_goes hready (regRecs_kind _) ⟨some h, 1, pw p 0, k, 0, 0, 0, none⟩ 1 (s.takenPending dt h p).nextPoint 1)
  have hno : ¬ (pw p 0 = (s.takenPending dt h p).laybyCol 0 ∨ pw p 0 = (s.takenPending dt h p).laybyCol 1) := by
    rw [laybyCol_takenPending, laybyCol_takenPending]
    exact fun h => h.elim ha hb
  rw [if_neg (Nat.not_lt.2 hc), stage_taken, if_neg (not_not_intro hst), State.testColumn]
  dsimp only
  rw [if_neg hno, freeSubst_takenPending, hk]

/-! ## SVC_MOVE_CONN -/

theorem connOf_takenPending (v : Nat) : (s.takenPending dt h p).connOf v = s.connOf v :=
  List.find?_congr fun c hc => by
    have hc : c < 16 := List.mem_range.1 hc
    rw [flag_takenPending (f := F.ING_CONN_CFG_STEERED) ⟨hc, Nat.one_pos⟩ nofun nofun,
      fld_takenPending s dt h p (f := F.ING_CONN_CFG_UNIT) ⟨hc, Nat.one_pos⟩ nofun nofun]

/-- The tables of unit `u` copied to unit `v` (R51). -/
def State.tabCopy (s : State) (u v : Nat) : State :=
  { s with
    refTab := (s.refTab.filter fun e => e.1 / 0x44000 == u).foldl (fun m e => mapSet 0 m (0x44000 * v + e.1 % 0x44000) e.2)
      (mapClear (0x44000 * v) (0x44000 * (v + 1)) s.refTab) }

/-- The records of a move: the parameter set, the steering, and the bank of the unit's model if it has one. -/
def State.moveRecs (s : State) (c u v : Nat) : List (Nat × Nat) :=
  regRecs (s.setWrites u v) ++ [(5, c + v * 256)] ++ (if mapGet 0 s.unitBank u = 0 then [] else [(8, mapGet 0 s.unitBank u - 1 + 2 ^ v * 2 ^ 16)])

theorem moveRecs_length (u : State) (c a b : Nat) : (u.moveRecs c a b).length ≤ (u.setWrites a b).length / 4 + 3 := by
  rw [State.moveRecs, List.length_append, List.length_append, regRecs_length]
  split <;> simp only [List.length_cons, List.length_nil] <;> omega

theorem moveRecs_kind (u : State) (c a b : Nat) : ∀ r ∈ u.moveRecs c a b, r.1 ≠ 10 := by
  intro r hr
  rw [State.moveRecs] at hr
  obtain hr | hr := List.mem_append.1 hr
  · obtain hr | hr := List.mem_append.1 hr
    · exact regRecs_kind _ r hr
    · rw [List.mem_singleton.1 hr]
      exact (by decide : (5 : Nat) ≠ 10)
  · split at hr
    · exact absurd hr List.not_mem_nil
    · rw [List.mem_singleton.1 hr]
      exact (by decide : (8 : Nat) ≠ 10)

theorem tabCopy_setWrites (u : State) (a b c d : Nat) : (u.tabCopy a b).setWrites c d = u.setWrites c d := rfl

theorem moveConn_eq (u : State) (h : Option CmdHdr) {c v n : Nat} (hu : u.fld F.ING_CONN_CFG_UNIT c = n) (h3 : u.fld F.ING_CONN_CFG_STATE c = 3)
    (hs : u.flag F.ING_CONN_CFG_STEERED c = true) (hne : n ≠ v) (hfree : u.connOf v = none) : u.moveConn h c v =
      (u.tabCopy n v).svcTx ⟨h, 2, c, v, 0, 0, 0, none⟩ ((u.tabCopy n v).moveRecs c n v) 1 (u.tabCopy n v).nextPoint 1 := by
  have h1 : ¬ (u.fld F.ING_CONN_CFG_STATE c ≠ 3 ∨ (!u.flag F.ING_CONN_CFG_STEERED c) = true) := by
    rw [h3, hs]
    decide
  have h2 : ¬ (n = v ∨ (u.connOf v).isSome = true) := by
    rw [hfree]
    exact fun h => h.elim hne nofun
  unfold State.moveConn
  dsimp only
  rw [hu, if_neg h1, if_neg h2]
  rfl

theorem moveConn_goes {x c v u : Nat} (hc : c = pw p 0 % 16) (hv : v = bitsOf (pw p 0) 8 4) (hu : u = s.fld F.ING_CONN_CFG_UNIT c)
    (ht : s.takes (.svcMoveConn dt h p) = true) (hst : s.fld F.DEV_START_STAGE = 8) (h3 : s.fld F.ING_CONN_CFG_STATE c = 3)
    (hsteer : s.flag F.ING_CONN_CFG_STEERED c = true) (hne : u ≠ v) (hfree : s.connOf v = none)
    (hr : s.txReady x ((((s.taken dt h p).replyPending h).setWrites u v).length / 4 + 3)) :
    ∃ t, exec (.svcMoveConn dt h p) s = .next t ∧ ⟨some h, 2, c, v, 0, 0, 1, some x⟩ ∈ t.svc ∧ t.txState x = 2 ∧
      (t.tx x).origin = 1 ∧ t.out = ((s.taken dt h p).replyPending h).out ∧ (∀ a, t.depByte a = s.depByte a) := by
  have hlt : c < 16 := hc ▸ Nat.mod_lt _ (by decide)
  obtain ⟨w, hw⟩ : ∃ w, w = s.takenPending dt h p := ⟨_, rfl⟩
  have hready : (w.tabCopy u v).txReady x ((w.tabCopy u v).moveRecs c u v).length := by
    obtain ⟨h1, h2, h3, h4⟩ := txReady_takenPending (dt := dt) (h := h) (p := p) hr
    have h4 : ((s.takenPending dt h p).setWrites u v).length / 4 + 3 ≤ (s.takenPending dt h p).fld F.WAY_STAT_FREE := h4
    rw [← hw] at h1 h2 h3 h4
    have hlen : ((w.tabCopy u v).moveRecs c u v).length ≤ (w.setWrites u v).length / 4 + 3 := moveRecs_length (w.tabCopy u v) c u v
    exact txReady_of_regs (s := w) rfl rfl ⟨h1, h2, h3, Nat.le_trans hlen h4⟩
  have hgo := svcTx_goes hready (moveRecs_kind _ c u v) ⟨some h, 2, c, v, 0, 0, 0, none⟩ 1 (w.tabCopy u v).nextPoint 1
  refine exec_stepGoes rfl ht rfl ?_ (hw ▸ stepGoes_of_alike (u := w) rfl rfl rfl rfl hgo)
  rw [stage_taken, if_neg (not_not_intro hst), ← hc, ← hv]
  subst hw
  exact moveConn_eq (s.takenPending dt h p) (some h)
    ((fld_takenPending s dt h p (f := F.ING_CONN_CFG_UNIT) ⟨hlt, Nat.one_pos⟩ nofun nofun).trans hu.symm)
    ((fld_takenPending s dt h p (f := F.ING_CONN_CFG_STATE) ⟨hlt, Nat.one_pos⟩ nofun nofun).trans h3)
    ((flag_takenPending (f := F.ING_CONN_CFG_STEERED) ⟨hlt, Nat.one_pos⟩ nofun nofun).trans hsteer) hne ((connOf_takenPending v).trans hfree)

/-! ## SVC_SHOULDER -/

theorem shoulder_goes {x : Nat} (ht : s.takes (.svcShoulder dt h p) = true) (hr : s.txReady x 4) :
    ∃ t, exec (.svcShoulder dt h p) s = .next t ∧ ⟨some h, 4, pw p 0 % 65536, 0, 0, 0, 1, some x⟩ ∈ t.svc ∧ t.txState x = 2 ∧
      (t.tx x).origin = 1 ∧ t.out = ((s.taken dt h p).replyPending h).out ∧ (∀ a, t.depByte a = s.depByte a) := by
  obtain ⟨h1, h2, h3, h4⟩ := txReady_takenPending (dt := dt) (h := h) (p := p) hr
  refine exec_stepGoes rfl ht rfl rfl (svcTx_goes ⟨h1, h2, h3, Nat.le_trans ?_ h4⟩ (regRecs_kind _) ⟨some h, 4, pw p 0 % 65536, 0, 0, 0, 0, none⟩ 1 _ 1)
  have hlen := List.length_filter_le (fun u => bitsOf (pw p 0 % 65536) u 1 == 1) (List.range 16)
  rw [List.length_range] at hlen
  rw [regRecs_length, List.length_map]
  omega

/-! ## SVC_RETIRE_PAGE -/

/-- An admitted packet sets only the parameter bits that its command names (R362). -/
theorem admitted_bits {c : Instr} {op : Nat} {ms : List Nat} (hc : commandOf c = some (dt, h, p, true, op, ms)) (ht : s.takes c = true) {k : Nat}
    (hk : k < 14) : pw p k &&& (0xFFFFFFFF ^^^ ms.getD k 0) = 0 := by
  obtain ⟨-, hcode, -⟩ := takes_mc hc ht
  unfold State.admitCode at hcode
  split at hcode
  · exact absurd hcode nofun
  · split at hcode
    · exact absurd hcode nofun
    · next hno =>
      by_contra hne
      exact hno (.inr (List.any_eq_true.2 ⟨k, List.mem_range.2 hk, bne_iff_ne.2 hne⟩))

theorem lt_four_of_bits {v : Nat} (hv : v < 2 ^ 32) (h : v &&& (0xFFFFFFFF ^^^ 3) = 0) : v < 4 := by
  refine Nat.lt_pow_two_of_testBit (n := 2) v fun i hi => ?_
  by_cases h32 : i < 32
  · have hm : ∀ j < 32, 2 ≤ j → (0xFFFFFFFF ^^^ 3 : Nat).testBit j = true := by decide
    have h0 := congrArg (·.testBit i) h
    simpa only [Nat.testBit_and, hm i h32 hi, Bool.and_true, Nat.zero_testBit] using h0
  · exact Nat.testBit_lt_two_pow (Nat.lt_of_lt_of_le hv (Nat.pow_le_pow_right (by decide) (Nat.le_of_not_lt h32)))

/-- A page that is being copied: the migration, the copy, and the address of its entry (R431). -/
def State.pageMoves (s : State) (k l src d : Nat) : State :=
  ((s.setReg .RAS_PMIG (2 ^ 63 + k * 2 ^ 60 + src * 2 ^ 32 + d)).pageCopy k src d).setReg .STR_PMAP_ADDR
    (putBits (putBits 0 F.STR_PMAP_ADDR_STACK.lo F.STR_PMAP_ADDR_STACK.w k) F.STR_PMAP_ADDR_LPAGE.lo F.STR_PMAP_ADDR_LPAGE.w l)

/-- The write of a page's new place. -/
def pageRecs (d : Nat) : List (Nat × Nat) := regRecs [(regAddr .STR_PMAP_DATA, 2 ^ 31 + d, 0xFFFFFFFF)]

theorem pageRecs_length (d : Nat) : (pageRecs d).length = 1 := by
  rw [pageRecs, regRecs_length, List.length_singleton]

/-- `t` differs from `s` in its registers and in HBM alone. -/
def State.onlyPage (s t : State) : Prop := t = { s with regs := t.regs, hbm := t.hbm, hbmPoison := t.hbmPoison }

section
variable {u v w : State}

theorem onlyPage_trans (h : u.onlyPage v) (h' : v.onlyPage w) : u.onlyPage w := by
  rw [State.onlyPage] at h h' ⊢
  rw [h', h]

theorem onlyPage_of_onlyRegs (h : u.onlyRegs v) : u.onlyPage v := by
  rw [State.onlyPage, show v = { u with regs := v.regs } from h]

variable (hp : u.onlyPage v)
include hp
theorem onlyPage_out : v.out = u.out := by rw [hp]
theorem onlyPage_depot : v.depot = u.depot := by rw [hp]
theorem onlyPage_queues : v.queues = u.queues := by rw [hp]
theorem onlyPage_netFifo : v.netFifo = u.netFifo := by rw [hp]
theorem onlyPage_wayBad : v.wayBad = u.wayBad := by rw [hp]
end

section
variable (u : State) (k l src d : Nat)

theorem pageCopy_regs : (u.pageCopy k src d).regs = u.regs := rfl
theorem pageCopy_onlyPage : u.onlyPage (u.pageCopy k src d) := rfl

theorem pageMoves_keeps : u.keeps (u.pageMoves k l src d) [(.RAS_PMIG, 0, 0), (.STR_PMAP_ADDR, 0, 0)] :=
  keeps_trans (keeps_trans (keeps_setReg u _ ⟨Nat.one_pos, Nat.one_pos⟩) (keeps_of_regs [] (pageCopy_regs ..)))
    (keeps_setReg _ _ ⟨Nat.one_pos, Nat.one_pos⟩)

theorem pageMoves_onlyPage : u.onlyPage (u.pageMoves k l src d) :=
  onlyPage_trans (onlyPage_trans (onlyPage_of_onlyRegs (onlyRegs_setReg ..)) (pageCopy_onlyPage ..)) (onlyPage_of_onlyRegs (onlyRegs_setReg ..))

end

/-- The entry of a page, and where its copy goes: valid, elsewhere, free, in an octet that is in use, with no other migration (R431). -/
structure State.pageMay (s : State) (k l d : Nat) : Prop where
  valid : bitsOf (s.pmapGet k l) 31 1 = 1
  moves : d ≠ s.pmapGet k l % 2 ^ 14
  free : 12288 * k + d ∉ s.pagesOut
  octet : bitsOf (s.fld F.STR_OCTET_RETIRED k) (d % 4) 1 = 0
  alone : s.flag F.RAS_PMIG_EN = false

theorem retirePage_eq (u : State) (h : Option CmdHdr) {k l d : Nat} (hm : u.pageMay k l d) : u.retirePage h k l (some d) =
    let w := u.pageMoves k l (u.pmapGet k l % 2 ^ 14) d
    let t := w.svcTx ⟨h, 3, k, l, u.pmapGet k l % 2 ^ 14, d, 0, none⟩ (pageRecs d) 0 0 1
    if t.svc.length = w.svc.length then t.setFld F.RAS_PMIG_EN 0 else t := by
  obtain ⟨h1, h2, h3, h4, h5⟩ := hm
  have hno : ¬ (bitsOf (u.pmapGet k l) 31 1 = 0 ∨ d = u.pmapGet k l % 2 ^ 14 ∨ u.pagesOut.contains (12288 * k + d) = true ∨
      bitsOf (u.fld F.STR_OCTET_RETIRED k) (d % 4) 1 = 1 ∨ u.flag F.RAS_PMIG_EN = true) := by
    rw [h1, h4, h5, List.contains_iff_mem]
    rintro (hx | hx | hx | hx | hx)
    · exact absurd hx (by decide)
    · exact h2 hx
    · exact h3 hx
    · exact absurd hx (by decide)
    · exact absurd hx (by decide)
  unfold State.retirePage
  dsimp only
  rw [if_neg hno]
  rfl

theorem pageMay_takenPending {k l d : Nat} (hk : k < 4) (hm : s.pageMay k l d) : (s.takenPending dt h p).pageMay k l d := by
  obtain ⟨h1, h2, h3, h4, h5⟩ := hm
  exact ⟨(takenPending_pmapGet k l).symm ▸ h1, (takenPending_pmapGet k l).symm ▸ h2, takenPending_pagesOut.symm ▸ h3,
    (fld_takenPending s dt h p (f := F.STR_OCTET_RETIRED) ⟨hk, Nat.one_pos⟩ nofun nofun).symm ▸ h4,
    (flag_takenPending (f := F.RAS_PMIG_EN) ⟨Nat.one_pos, Nat.one_pos⟩ nofun nofun).trans h5⟩

/-- A field of another register written after a step does not change what the step leaves. -/
theorem stepGoes_setFld {u t : State} {x : Nat} {j : Svc} (hx : x < 64) (hgo : u.stepGoes x j t) : u.stepGoes x j (t.setFld F.RAS_PMIG_EN 0) := by
  obtain ⟨hj, hst, hor, hout, hdep, hquiet⟩ := hgo
  refine ⟨(State.setFld_svc ..).symm ▸ hj, (fld_setFld_foreign (n := 1) (m := 64) t 0 Nat.one_pos hx (by decide)).trans hst,
    (congrArg Tx.origin (tx_congr (State.setFld_txs ..) x)).trans hor, (State.setFld_out ..).trans hout,
    fun a => (congrArg (mapGet 0 · a) (State.setFld_depot ..)).trans (hdep a), fun hq => (csmQuiet_setFld ..).trans (hquiet hq)⟩

theorem retirePage_goes {x : Nat} {d : Fin 12288} (ht : s.takes (.svcRetirePage dt h p (some d)) = true) (hl : pw p 1 ≤ 12287)
    (hst : 7 ≤ s.fld F.DEV_START_STAGE) (hm : s.pageMay (pw p 0) (pw p 1) d) (hr : s.txReady x 1) :
    ∃ t, exec (.svcRetirePage dt h p (some d)) s = .next t ∧
      ⟨some h, 3, pw p 0, pw p 1, s.pmapGet (pw p 0) (pw p 1) % 2 ^ 14, d, 1, some x⟩ ∈ t.svc ∧ t.txState x = 2 ∧
      (t.tx x).origin = 1 ∧ t.out = ((s.taken dt h p).replyPending h).out ∧ (∀ a, t.depByte a = s.depByte a) := by
  have hk : pw p 0 < 4 := lt_four_of_bits (BitVec.isLt _) (admitted_bits (k := 0) rfl ht (by decide))
  obtain ⟨hfree, -⟩ := id hr
  have honly := pageMoves_onlyPage (s.takenPending dt h p) (pw p 0) (pw p 1) (s.pmapGet (pw p 0) (pw p 1) % 2 ^ 14) d
  have hready : ((s.takenPending dt h p).pageMoves (pw p 0) (pw p 1) (s.pmapGet (pw p 0) (pw p 1) % 2 ^ 14) d).txReady x (pageRecs d).length := by
    have hr : s.txReady x (pageRecs d).length := (pageRecs_length d).symm ▸ hr
    refine txReady_congr (fun f i hi hf => ?_) (fun f hf => ?_) (onlyPage_wayBad honly) (txReady_takenPending hr)
    · exact fld_of_keeps (f := f) (pageMoves_keeps _ _ _ _ _) (hf ▸ ⟨hi, Nat.one_pos⟩) (by simp [hf])
    · exact fld_of_keeps (f := f) (pageMoves_keeps _ _ _ _ _) (hf ▸ ⟨Nat.one_pos, Nat.one_pos⟩) (by simp [hf])
  have hgo := stepGoes_of_alike (onlyPage_out honly) (onlyPage_depot honly) (onlyPage_queues honly) (onlyPage_netFifo honly)
    (svcTx_goes hready (regRecs_kind _) ⟨some h, 3, pw p 0, pw p 1, s.pmapGet (pw p 0) (pw p 1) % 2 ^ 14, d, 0, none⟩ 0 0 1)
  refine exec_stepGoes (t := (s.takenPending dt h p).retirePage (some h) (pw p 0) (pw p 1) (some d)) rfl ht rfl ?_ ?_
  · rw [if_neg (Nat.not_lt.2 hl), stage_taken, if_neg (Nat.not_lt.2 hst)]
    rfl
  · rw [retirePage_eq _ _ (pageMay_takenPending hk hm)]
    dsimp only
    rw [takenPending_pmapGet]
    split
    · exact stepGoes_setFld (freeTx_lt hfree) hgo
    · exact hgo

end

/-- Settles O27: after PENDING, each procedure's first step is a transaction of the MC, which the store has room for. -/
theorem serviceCommandsPrepareTheirFirstStep : Obligations.ServiceCommandsPrepareTheirFirstStep := by
  unfold Obligations.ServiceCommandsPrepareTheirFirstStep
  intro dt h p x s hfree hopen hbad room goes
  have hready {n : Nat} (hn : room n) : s.txReady x n := ⟨hfree, hopen, hbad, hn⟩
  exact ⟨fun k ht hc hst ha hb hk hr => testColumn_goes ht hc hst ha hb hk (hready hr),
    fun ht hst h3 hs hne hv hr => moveConn_goes rfl rfl rfl ht hst h3 hs hne hv (hready hr),
    fun d ht hl hst hv hm hf ho ha hr => retirePage_goes ht hl hst ⟨hv, hm, hf, ho, ha⟩ (hready hr),
    fun ht hr => shoulder_goes ht (hready hr)⟩

end Sys2Proof.Machine
end

section
/-! Frames on the Ethernet ports, ARP, and links that come up (R379 to R381, R386). -/
namespace Sys2Proof.Machine

/-- A saturating count of one field, and nothing else (the counters of R380 and R381). -/
def State.countsOne (s : State) (dt : Nat) (c : Instr) (f : Fld) (i : Nat) : Prop :=
  ∃ t, exec c s = .next t ∧ t.fld f i = min (s.fld f i + 1) (2 ^ f.w - 1) ∧ s.keeps t [(f.reg, i, 0)] ∧ t = { s.tick dt with regs := t.regs }

theorem countsOne_of_inc {s : State} {dt : Nat} {c : Instr} {f : Fld} {i : Nat} (hx : exec c s = .next ((s.tick dt).inc f i)) (hf : regHas f.reg i 0)
    (hw : f.lo + f.w ≤ 64) : s.countsOne dt c f i :=
  ⟨_, hx, State.fld_inc_same _ _ _ _ hw, keeps_inc (s.tick dt) f hf, onlyRegs_inc ..⟩

section
variable {dt : Nat} {p : Fin 4} {s : State} {f : NetFrame} (hup : s.portUp p = true)
include hup

theorem exec_frame_damaged (hok : f.ok = false) : exec (.ethFrameReceived dt p f) s = .next ((s.tick dt).inc F.NET_ERRCNT_FCS p) := by
  have hup : (s.tick dt).portUp p = true := hup
  change execEthFrameReceived dt p f s = _
  unfold execEthFrameReceived
  dsimp only
  rw [hup, hok]
  rfl

theorem exec_frame_quarantined (hok : f.ok = true) (hq : s.quarantined p f.mac = true) :
    exec (.ethFrameReceived dt p f) s = .next ((s.tick dt).inc F.NET_ERRCNT_QUAR p) := by
  have hup : (s.tick dt).portUp p = true := hup
  have hq : (s.tick dt).quarantined p f.mac = true := hq
  change execEthFrameReceived dt p f s = _
  unfold execEthFrameReceived
  dsimp only
  rw [hup, hok, hq]
  exact congrArg Host.Outcome.next (if_pos p.isLt)

theorem exec_frame_in (hok : f.ok = true) (hq : s.quarantined p f.mac = false) (hl : f.len ≤ 9018) (hv : f.vid = none) :
    exec (.ethFrameReceived dt p f) s = .next ((s.tick dt).frameIn p f) := by
  have hup : (s.tick dt).portUp p = true := hup
  have hq : (s.tick dt).quarantined p f.mac = false := hq
  have hs : (s.tick dt).ethSize p f = true := by
    rw [State.ethSize, hv]
    exact decide_eq_true hl
  change execEthFrameReceived dt p f s = _
  unfold execEthFrameReceived
  dsimp only
  rw [hup, hok, hq, hs]
  rfl

/-- What a sound frame of a station that is not quarantined does by its payload. -/
theorem frame_payloads (hok : f.ok = true) (hq : s.quarantined p f.mac = false) (hl : f.len ≤ 9018) (hv : f.vid = none) :
    (∀ ip mac, f.pay = .arp 1 ip mac (s.portIp p) → exec (.ethFrameReceived dt p f) s = .next { s.tick dt with out := s.out ++ [.arp p 2 ip mac] }) ∧
    (∀ src b, f.pay = .echo src (s.portIp p) b → exec (.ethFrameReceived dt p f) s = .next { s.tick dt with out := s.out ++ [.echo p src b] }) ∧
    (f.pay = .pause → s.countsOne dt (.ethFrameReceived dt p f) F.NET_ERRCNT_PAUSE p) ∧
    (f.pay = .other ∨ f.pay = .fragment → s.countsOne dt (.ethFrameReceived dt p f) F.NET_ERRCNT_RX_DISCARD p) := by
  have hx := exec_frame_in (dt := dt) hup hok hq hl hv
  have hip : (s.tick dt).portIp p = s.portIp p := rfl
  have hdis : (s.tick dt).rxDiscard p = (s.tick dt).inc F.NET_ERRCNT_RX_DISCARD p := if_pos p.isLt
  unfold State.frameIn at hx
  refine ⟨fun ip mac hp => ?_, fun src b hp => ?_, fun hp => ?_, fun hp => ?_⟩
  · rw [hx, hp]
    dsimp only
    rw [State.arpIn, hip, if_neg (not_not_intro rfl), if_pos rfl]
    rfl
  · rw [hx, hp]
    dsimp only
    rw [hip, if_pos rfl]
    rfl
  · rw [hp] at hx
    dsimp only at hx
    rw [if_pos p.isLt] at hx
    exact countsOne_of_inc hx ⟨p.isLt, Nat.one_pos⟩ (by decide)
  · refine countsOne_of_inc (hx.trans ?_) ⟨p.isLt, Nat.one_pos⟩ (by decide)
    obtain hp | hp := hp
    · rw [hp]
      exact congrArg Host.Outcome.next hdis
    · rw [hp]
      exact congrArg Host.Outcome.next hdis

end

section
variable (s : State) {q j : Nat}

theorem State.arpPort_setArp_same (x : ArpPort) : (s.setArp q x).arpPort q = x := mapGet_mapSet_same arp0 s.arp q x
theorem State.arpPort_setArp_ne (x : ArpPort) (h : j ≠ q) : (s.setArp q x).arpPort j = s.arpPort j := mapGet_mapSet_ne arp0 s.arp x h

end

/-- An ARP request for which no datagram waits is repeated (R379). -/
theorem arpRetry_leaves {dt : Nat} {q : Fin 6} {ip : Word} {s : State} (hup : s.portUp q = true) (hask : ip.toNat ∈ (s.arpPort q).asked)
    (hw : s.waitersFor q ip.toNat = []) : ∃ t, exec (.arpRetry dt q ip) s = .next t ∧ t.out = s.out ++ [.arp q 1 ip.toNat 0] ∧
      (∀ j : Nat, j ≠ q → t.arpPort j = s.arpPort j) ∧ (t.arpPort q).asked = (s.arpPort q).asked ∧ (t.arpPort q).cache = (s.arpPort q).cache ∧
      t = { s.tick dt with out := t.out, arp := t.arp } := by
  have hup : (s.tick dt).portUp q = true := hup
  have hask : ((s.tick dt).arpPort q).asked.contains ip.toNat = true := List.contains_iff_mem.2 hask
  have hw : (s.tick dt).waitersFor q ip.toNat = [] := hw
  obtain ⟨x, hx⟩ : ∃ x : ArpPort, x = { (s.tick dt).arpPort q with waiting := (s.tick dt).waitersBut q ip.toNat } := ⟨_, rfl⟩
  refine ⟨((s.tick dt).setArp q x).emit (.arp q 1 ip.toNat 0), ?_, rfl, fun j hj => State.arpPort_setArp_ne (s.tick dt) x hj, ?_, ?_, rfl⟩
  · change execArpRetry dt q ip s = _
    unfold execArpRetry
    dsimp only
    rw [if_pos hup, State.arpRetry]
    dsimp only
    rw [if_pos hask, hw, ← hx]
    rfl
  · exact (congrArg ArpPort.asked (State.arpPort_setArp_same (s.tick dt) x)).trans (hx ▸ rfl)
  · exact (congrArg ArpPort.cache (State.arpPort_setArp_same (s.tick dt) x)).trans (hx ▸ rfl)

/-! ## Datagrams of the result streams -/

/-- `t` differs from `s` in its registers, its streams' buffers, what waits for ARP, and its output alone. -/
def State.onlySends (s t : State) : Prop := t = { s with regs := t.regs, rs := t.rs, arp := t.arp, out := t.out }

section
variable {s t u : State}

theorem onlySends_refl (s : State) : s.onlySends s := rfl

theorem onlySends_trans (h : s.onlySends t) (h' : t.onlySends u) : s.onlySends u := by
  rw [State.onlySends] at h h' ⊢
  rw [h', h]

theorem onlySends_of_onlyRegs (h : s.onlyRegs t) : s.onlySends t := by
  rw [State.onlySends, show t = { s with regs := t.regs } from h]

theorem onlySends_setArp (s : State) (p : Nat) (x : ArpPort) : s.onlySends (s.setArp p x) := rfl
theorem onlySends_emit (s : State) (o : Output) : s.onlySends (s.emit o) := rfl
theorem onlySends_setRs (s : State) (k : Nat) (x : RsBuf) : s.onlySends (s.setRs k x) := rfl

/-- A change of what is sent, with nothing but the count of datagrams without a route in the registers. -/
def State.sends (s : State) (k : Nat) (t : State) : Prop := s.onlySends t ∧ s.keeps t [(.NET_RS_STAT, k, 0)]

theorem sends_refl (s : State) (k : Nat) : s.sends k s := ⟨onlySends_refl s, keeps_refl s _⟩

theorem sends_trans {k : Nat} (h : s.sends k t) (h' : t.sends k u) : s.sends k u := by
  obtain ⟨h1, h2⟩ := h
  obtain ⟨h1', h2'⟩ := h'
  exact ⟨onlySends_trans h1 h1', keeps_mono (keeps_trans h2 h2') (by simp)⟩

theorem sends_of_regs {k : Nat} (h : s.onlySends t) (hr : t.regs = s.regs) : s.sends k t := ⟨h, keeps_of_regs _ hr⟩

end

section
variable (s : State) {k : Nat} (hk : k < 16)
include hk

theorem noRoute_sends {d : Dgram} (hd : d.stream = some k) : s.sends k (s.noRoute d) := by
  rw [State.noRoute, hd]
  exact ⟨onlySends_of_onlyRegs (onlyRegs_inc s F.NET_RS_STAT_NOROUTE k 0), keeps_inc s F.NET_RS_STAT_NOROUTE ⟨hk, Nat.one_pos⟩⟩

omit hk in
theorem arpAsk_sends (s : State) (p hop : Nat) (b : Bool) : s.sends k (if b then s else s.emit (.arp p 1 hop 0)) := by
  split
  · exact sends_refl s k
  · exact sends_of_regs (onlySends_emit ..) rfl

theorem sendUdp_sends (p : Nat) {d : Dgram} (hd : d.stream = some k) : s.sends k (s.sendUdp p d) := by
  unfold State.sendUdp
  split
  · exact noRoute_sends s hk hd
  · dsimp only
    split
    · exact sends_of_regs (onlySends_emit ..) rfl
    · exact sends_trans (arpAsk_sends ..) (sends_of_regs (onlySends_setArp ..) rfl)

theorem rsSend_sends (n : Nat) : s.sends k (s.rsSend k n) := by
  unfold State.rsSend
  dsimp only
  exact sends_trans (sends_of_regs (onlySends_setRs ..) rfl) (sendUdp_sends _ hk _ rfl)

theorem rsPump_sends (n : Nat) (s : State) : s.sends k (s.rsPump k n) := by
  induction n generalizing s with
  | zero => exact sends_refl s k
  | succ n ih =>
    rw [State.rsPump]
    split
    · exact sends_trans (rsSend_sends s hk _) (ih _)
    · exact sends_refl s k

end

end Sys2Proof.Machine
end

section
namespace Sys2Proof.Machine

/-- Has every connection bound to a camera its port up, or no state that the port's loss would end (R389). -/
def State.gvSafe (s : State) : Prop := ∀ c < 16, (s.conn c).gv = true →
  s.fld F.NET_STAT_STATE (s.fld F.NET_GV_CFG_PORT c) = 2 ∨ (s.connState c ≠ 2 ∧ s.connState c ≠ 3)

/-- The registers of the connections' states. -/
def connRegs : List (Reg × Nat × Nat) := (List.range 16).map fun c => (.ING_CONN_CFG, c, 0)

section
variable {s t : State}

theorem gvSafe_of_keeps (hk : s.keeps t connRegs) (hc : t.conns = s.conns) (h : s.gvSafe)
    (hup : ∀ c < 16, (t.connState c = s.connState c) ∨ s.fld F.NET_STAT_STATE (s.fld F.NET_GV_CFG_PORT c) = 2) : t.gvSafe := by
  intro c hlt hgv
  have hport : t.fld F.NET_GV_CFG_PORT c = s.fld F.NET_GV_CFG_PORT c :=
    fld_of_keeps (f := F.NET_GV_CFG_PORT) hk ⟨hlt, Nat.one_pos⟩ (by simp [connRegs])
  have hst : t.fld F.NET_STAT_STATE (s.fld F.NET_GV_CFG_PORT c) = s.fld F.NET_STAT_STATE (s.fld F.NET_GV_CFG_PORT c) :=
    fld_of_keeps (f := F.NET_STAT_STATE) hk ⟨s.fld_lt F.NET_GV_CFG_PORT c 0, Nat.one_pos⟩ (by simp [connRegs])
  have hgv : (s.conn c).gv = true := by rwa [State.conn, hc, ← State.conn] at hgv
  rw [hport, hst]
  obtain hsame | hport2 := hup c hlt
  · rw [hsame]
    exact h c hlt hgv
  · exact .inl hport2

theorem mem_connRegs {c : Nat} (hc : c < 16) : (Reg.ING_CONN_CFG, c, 0) ∈ connRegs := List.mem_map.2 ⟨c, List.mem_range.2 hc, rfl⟩

theorem setConnState_keeps (s : State) {c : Nat} (v : Nat) (hc : c < 16) : s.keeps (s.setConnState c v) connRegs :=
  keeps_setFld_of_keeps (f := F.ING_CONN_CFG_STATE) s v (keeps_refl s _) ⟨hc, Nat.one_pos⟩ (mem_connRegs hc)

theorem connState_setConnState_ne (s : State) {c d : Nat} (v : Nat) (hc : c < 16) (hd : d < 16) (h : d ≠ c) :
    (s.setConnState c v).connState d = s.connState d := fld_setFld_index (n := 16) s v hc hd h rfl (by decide)

/-- A connection whose port is up, or that the loss of its port would not end, closes no segment as it follows its port. -/
theorem gvRefresh_safe (h : s.gvSafe) {c : Nat} (hc : c < 16) : s.onlyRegs (s.gvRefresh c) ∧ s.keeps (s.gvRefresh c) connRegs ∧ (s.gvRefresh c).gvSafe := by
  have hself : s.onlyRegs s ∧ s.keeps s connRegs ∧ s.gvSafe := ⟨onlyRegs_refl s, keeps_refl s _, h⟩
  unfold State.gvRefresh
  split
  · exact hself
  · next hgv =>
    dsimp only
    split
    · next hup =>
      obtain ⟨hup, h0⟩ := hup
      have hup := of_decide_eq_true hup
      have hk := setConnState_keeps s 2 hc
      refine ⟨onlyRegs_setFld .., hk, gvSafe_of_keeps hk (State.setFld_conns ..) h fun d hd => ?_⟩
      by_cases hdc : d = c
      · exact .inr (hdc ▸ hup)
      · exact .inl (connState_setConnState_ne s 2 hc hd hdc)
    · split
      · next hdown =>
        obtain ⟨hdown, hst⟩ := hdown
        have hdown := of_decide_eq_false (Bool.not_eq_true' _ ▸ hdown)
        have hgv : (s.conn c).gv = true := by simpa using hgv
        obtain hup | ⟨h2, h3⟩ := h c hc hgv
        · exact absurd hup hdown
        · exact absurd hst fun hst => hst.elim h2 h3
      · exact hself

theorem gvRefreshAll_safe (h : s.gvSafe) : s.onlyRegs s.gvRefreshAll ∧ s.keeps s.gvRefreshAll connRegs ∧ s.gvRefreshAll.gvSafe := by
  refine List.foldlRecOn (motive := fun t => s.onlyRegs t ∧ s.keeps t connRegs ∧ t.gvSafe) _ _ ⟨onlyRegs_refl s, keeps_refl s _, h⟩ ?_
  rintro t ⟨h1, h2, h3⟩ c hc
  obtain ⟨h1', h2', h3'⟩ := gvRefresh_safe h3 (List.mem_range.1 hc)
  exact ⟨onlyRegs_trans h1 h1', keeps_mono (keeps_trans h2 h2') (by simp), h3'⟩

end

/-- The result streams of port `p` send what they hold. -/
def State.streamPump (p : Nat) (s : State) (k : Nat) : State :=
  if s.fld F.NET_RS_CFG_PORT k = p then s.rsPump k (s.rsBuf k).bytes.length else s

/-- The registers of the streams' counts. -/
def streamRegs : List (Reg × Nat × Nat) := (List.range 16).map fun k => (.NET_RS_STAT, k, 0)

theorem streamPumps_leave (s : State) (p : Nat) : s.onlySends ((List.range 16).foldl (State.streamPump p) s) ∧
    s.keeps ((List.range 16).foldl (State.streamPump p) s) streamRegs := by
  have hstep (u : State) {k : Nat} (hk : k < 16) : u.sends k (u.streamPump p k) := by
    unfold State.streamPump
    split
    · exact rsPump_sends hk _ u
    · exact sends_refl u k
  constructor
  · exact List.foldlRecOn (motive := s.onlySends) _ _ (onlySends_refl s) fun u hu k hk => onlySends_trans hu (hstep u (List.mem_range.1 hk)).1
  · exact foldl_keeps (fun k => (.NET_RS_STAT, k, 0)) (List.range 16) (fun k hk u => (hstep u (List.mem_range.1 hk)).2) s

/-- NET_STAT of a port whose link is up (R381). -/
def State.portFields (s : State) (p v fec : Nat) : State :=
  ((s.setFld F.NET_STAT_STATE 2 p).setFld F.NET_STAT_SPEED v p).setFld F.NET_STAT_FEC fec p

/-- What auto-negotiation learned of the partner of a port. -/
def State.peerIs (s : State) (p : Nat) (x : Nat × Nat) : State := { s with netPeer := mapSet (0, 0) s.netPeer p x }

section
variable (s : State) {p : Nat}

theorem portFields_onlyRegs (v fec : Nat) : s.onlyRegs (s.portFields p v fec) := onlyRegs_trans (onlyRegs_setFld_setFld ..) (onlyRegs_setFld ..)

theorem portFields_keeps (hp : p < 4) (v fec : Nat) : s.keeps (s.portFields p v fec) [(.NET_STAT, p, 0)] :=
  keeps_setFld_of_keeps (f := F.NET_STAT_FEC) s fec (keeps_setFld_setFld s _ _ rfl ⟨hp, Nat.one_pos⟩) ⟨hp, Nat.one_pos⟩ (List.mem_singleton_self _)

theorem portFields_values (hp : p < 4) {v fec : Nat} (hv : v < 2 ^ F.NET_STAT_SPEED.w) (hf : fec < 2 ^ F.NET_STAT_FEC.w) :
    (s.portFields p v fec).fld F.NET_STAT_STATE p = 2 ∧ (s.portFields p v fec).fld F.NET_STAT_SPEED p = v ∧
      (s.portFields p v fec).fld F.NET_STAT_FEC p = fec :=
  ⟨((fld_setFld_at (n := 4) _ _ hp (by decide)).trans (fld_setFld_at (n := 4) _ _ hp (by decide))).trans (fld_setFld_eq _ _ (by decide) (by decide)),
    (fld_setFld_at (n := 4) _ _ hp (by decide)).trans (fld_setFld_eq _ _ (by decide) hv), fld_setFld_eq _ _ (by decide) hf⟩

end

theorem exec_linkUp {dt : Nat} {p : Fin 4} {v : Fin 5} {fec : Bool} {page : Nat} {ab : Fin 8} {s : State} (hen : s.flag F.NET_CFG_EN p = true)
    (hst : s.fld F.NET_STAT_STATE p ≠ 2) (hv : v ≠ 0)
    (hm : s.fld F.NET_CFG_MODE p = 0 ∨ (s.fld F.NET_CFG_MODE p = 1 ∧ v.val ≤ 2) ∨ (s.fld F.NET_CFG_MODE p = 2 ∧ 3 ≤ v.val)) :
    exec (.ethLinkUp dt p v fec page ab) s = .next ((List.range 16).foldl (State.streamPump p)
      (((s.tick dt).portFields p v (if fec ∨ v.val ≤ 2 then 1 else 0)).peerIs p (page % 2 ^ 23, ab.val)).gvRefreshAll) := by
  have hv : v.val ≠ 0 := fun h => hv (Fin.ext h)
  have hgo : (s.tick dt).flag F.NET_CFG_EN p = true ∧ (s.tick dt).fld F.NET_STAT_STATE p ≠ 2 ∧ v.val ≠ 0 ∧
      ((s.tick dt).fld F.NET_CFG_MODE p = 0 ∨ ((s.tick dt).fld F.NET_CFG_MODE p = 1 ∧ v.val ≤ 2) ∨
        ((s.tick dt).fld F.NET_CFG_MODE p = 2 ∧ 3 ≤ v.val)) := ⟨hen, hst, hv, hm⟩
  change execEthLinkUp dt p v fec page ab s = _
  unfold execEthLinkUp
  dsimp only
  rw [if_pos hgo]
  rfl

/-- A link that comes up (R381). -/
theorem linkUp_leaves {dt : Nat} {p : Fin 4} {v : Fin 5} {fec : Bool} {page : Nat} {ab : Fin 8} {s : State} (hen : s.flag F.NET_CFG_EN p = true)
    (hst : s.fld F.NET_STAT_STATE p ≠ 2) (hv : v ≠ 0)
    (hm : s.fld F.NET_CFG_MODE p = 0 ∨ (s.fld F.NET_CFG_MODE p = 1 ∧ v.val ≤ 2) ∨ (s.fld F.NET_CFG_MODE p = 2 ∧ 3 ≤ v.val))
    (hgv : ∀ c < 16, (s.conn c).gv = true → s.fld F.NET_GV_CFG_PORT c ≠ p → s.fld F.NET_STAT_STATE (s.fld F.NET_GV_CFG_PORT c) = 2 ∨
      (s.connState c ≠ 2 ∧ s.connState c ≠ 3)) :
    ∃ t, exec (.ethLinkUp dt p v fec page ab) s = .next t ∧ t.fld F.NET_STAT_STATE p = 2 ∧ t.fld F.NET_STAT_SPEED p = v ∧
      t.fld F.NET_STAT_FEC p = (if fec ∨ v.val ≤ 2 then 1 else 0) ∧ mapGet (0, 0) t.netPeer p = (page % 2 ^ 23, ab.val) ∧ s.sameMemory t := by
  obtain ⟨u, hu⟩ : ∃ u, u = (s.tick dt).portFields p v (if fec ∨ v.val ≤ 2 then 1 else 0) := ⟨_, rfl⟩
  have hur : (s.tick dt).onlyRegs u := hu ▸ portFields_onlyRegs ..
  have huk : s.keeps u [(.NET_STAT, p.val, 0)] := hu ▸ portFields_keeps (s.tick dt) p.isLt _ _
  obtain ⟨hst2, hspeed, hfec⟩ := portFields_values (s.tick dt) (p := p) p.isLt (v := v) (fec := if fec ∨ v.val ≤ 2 then 1 else 0)
    (by have := v.isLt; change v.val < 8; omega) (by split <;> decide)
  rw [← hu] at hst2 hspeed hfec
  obtain ⟨w, hw⟩ : ∃ w, w = u.peerIs p (page % 2 ^ 23, ab.val) := ⟨_, rfl⟩
  have hwr : w.regs = u.regs := hw ▸ rfl
  have hwc : w.conns = s.conns := by
    rw [hw, State.peerIs, show u = _ from hur]
    rfl
  have hsafe : w.gvSafe := by
    intro c hc hg
    have hg : (s.conn c).gv = true := by rwa [State.conn, hwc, ← State.conn] at hg
    have hport : w.fld F.NET_GV_CFG_PORT c = s.fld F.NET_GV_CFG_PORT c :=
      (State.fld_congr hwr ..).trans (fld_of_keeps (f := F.NET_GV_CFG_PORT) huk ⟨hc, Nat.one_pos⟩ (by simp))
    have hcs : w.connState c = s.connState c :=
      (State.fld_congr hwr ..).trans (fld_of_keeps (f := F.ING_CONN_CFG_STATE) huk ⟨hc, Nat.one_pos⟩ (by simp))
    rw [hport, hcs, State.fld_congr hwr]
    by_cases hpp : s.fld F.NET_GV_CFG_PORT c = p
    · exact .inl (hpp ▸ hst2)
    · rw [fld_of_keeps (f := F.NET_STAT_STATE) huk ⟨s.fld_lt F.NET_GV_CFG_PORT c 0, Nat.one_pos⟩ (by simp [hpp])]
      exact hgv c hc hg hpp
  obtain ⟨hr, hk, -⟩ := gvRefreshAll_safe hsafe
  obtain ⟨hs, hks⟩ := streamPumps_leave w.gvRefreshAll p
  have hfld (f : Fld) (hf : f.reg = .NET_STAT) : ((List.range 16).foldl (State.streamPump p) w.gvRefreshAll).fld f p = u.fld f p := by
    rw [fld_of_keeps (f := f) (keeps_trans hk hks) (hf ▸ ⟨p.isLt, Nat.one_pos⟩) (by simp [hf, connRegs, streamRegs]), State.fld_congr hwr]
  refine ⟨_, (exec_linkUp hen hst hv hm).trans (hu ▸ hw ▸ rfl), (hfld _ rfl).trans hst2, (hfld _ rfl).trans hspeed, (hfld _ rfl).trans hfec, ?_, ?_⟩
  · rw [show (List.range 16).foldl (State.streamPump p) w.gvRefreshAll = _ from hs, show w.gvRefreshAll = _ from hr, hw]
    exact mapGet_mapSet_same ..
  · rw [show (List.range 16).foldl (State.streamPump p) w.gvRefreshAll = _ from hs, show w.gvRefreshAll = _ from hr, hw, State.peerIs,
      show u = _ from hur]
    exact sameMemory_of_stores rfl rfl

end Sys2Proof.Machine
end

section
/-! Device time from PTP (R382, R383). -/
namespace Sys2Proof.Machine

section
variable (s : State)

theorem ptpShow_onlyRegs : s.onlyRegs s.ptpShow := onlyRegs_setFld ..
theorem ptpShow_keeps : s.keeps s.ptpShow [(.NET_PTP_STAT, 0, 0)] := keeps_setFld s F.NET_PTP_STAT_UNSYNC _ ⟨Nat.one_pos, Nat.one_pos⟩
theorem ptpShow_state : s.ptpShow.fld F.NET_PTP_STAT_STATE = s.fld F.NET_PTP_STAT_STATE := fld_setFld_at _ _ Nat.one_pos (by decide)

theorem setPtpState_onlyRegs (v : Nat) : s.onlyRegs (s.setPtpState v) := onlyRegs_trans (onlyRegs_setFld ..) (ptpShow_onlyRegs _)
theorem setPtpState_keeps (v : Nat) : s.keeps (s.setPtpState v) [(.NET_PTP_STAT, 0, 0)] :=
  keeps_mono (keeps_trans (keeps_setFld s F.NET_PTP_STAT_STATE v ⟨Nat.one_pos, Nat.one_pos⟩) (ptpShow_keeps _)) (by simp)
theorem setPtpState_state {v : Nat} (hv : v < 2 ^ F.NET_PTP_STAT_STATE.w) : (s.setPtpState v).fld F.NET_PTP_STAT_STATE = v :=
  (ptpShow_state _).trans (fld_setFld_eq _ _ (by decide) hv)

/-- A port that listens has found a master (R382). -/
def State.ptpHeard (s : State) : State := if s.fld F.NET_PTP_STAT_STATE = 1 then s.setPtpState 2 else s

theorem ptpHeard_leaves : s.onlyRegs s.ptpHeard ∧ s.keeps s.ptpHeard [(.NET_PTP_STAT, 0, 0)] ∧
    s.ptpHeard.fld F.NET_PTP_STAT_STATE = (if s.fld F.NET_PTP_STAT_STATE = 1 then 2 else s.fld F.NET_PTP_STAT_STATE) := by
  unfold State.ptpHeard
  split
  · exact ⟨setPtpState_onlyRegs .., setPtpState_keeps _ _, setPtpState_state _ (by decide)⟩
  · exact ⟨onlyRegs_refl s, keeps_refl s _, rfl⟩

/-- The state of PTP with a change of its own. -/
def State.withPtp (s : State) (x : Ptp) : State := { s with ptp := x }

theorem withPtp_regs (x : Ptp) : (s.withPtp x).regs = s.regs := rfl

end

theorem fromMaster_own (s : State) (dt : Nat) {m : PtpMaster} (hm : s.ptp.master = some m) :
    (s.tick dt).fromMaster (s.fld F.NET_PTP_CFG_DOMAIN) m.ident = true := by
  have hm : (s.tick dt).ptp.master = some m := hm
  unfold State.fromMaster
  rw [hm]
  exact Bool.and_eq_true_iff.2 ⟨decide_eq_true rfl, beq_self_eq_true _⟩

section
variable {dt : Nat} {p : Fin 4} {udp : Bool} {s : State} (hp : s.ptpPort p udp = true)
include hp

theorem exec_ptpIn (m : PtpMsg) : exec (.ptpMessage dt p udp m) s = .next ((s.tick dt).ptpIn m) :=
  congrArg Host.Outcome.next (if_pos hp)

/-- An announce of the master, or of a better one (R382). -/
theorem announce_leaves {m : PtpMaster} (hm : s.ptp.master = none ∨ (∃ b, s.ptp.master = some b ∧ (m.ident = b.ident ∨ ptpBetter m b = true))) :
    ∃ t, exec (.ptpMessage dt p udp (.announce (s.fld F.NET_PTP_CFG_DOMAIN) m)) s = .next t ∧ t.ptp = { s.ptp with master := some m } ∧
      t.fld F.NET_PTP_STAT_STATE = (if s.fld F.NET_PTP_STAT_STATE = 1 then 2 else s.fld F.NET_PTP_STAT_STATE) ∧
      s.keeps t [(.NET_PTP_STAT, 0, 0)] ∧ t = { s.tick dt with regs := t.regs, ptp := t.ptp } := by
  obtain ⟨u, hu⟩ : ∃ u, u = (s.tick dt).withPtp { s.ptp with master := some m } := ⟨_, rfl⟩
  have hregs : u.regs = s.regs := hu ▸ rfl
  obtain ⟨honly, hkeep, hst⟩ := ptpHeard_leaves u
  have htake : (match (s.tick dt).ptp.master with
      | none => true
      | some b => m.ident == b.ident || ptpBetter m b) = true := by
    change (match s.ptp.master with
      | none => true
      | some b => m.ident == b.ident || ptpBetter m b) = true
    obtain hm | ⟨b, hb, hm⟩ := hm
    · rw [hm]
    · rw [hb]
      exact Bool.or_eq_true_iff.2 (hm.imp_left fun h => beq_iff_eq.2 h)
  refine ⟨u.ptpHeard, ?_, ?_, ?_, keeps_mono (keeps_trans (keeps_of_regs [] hregs) hkeep) (by simp), ?_⟩
  · rw [exec_ptpIn hp]
    unfold State.ptpIn
    dsimp only
    rw [if_neg (show ¬ (s.fld F.NET_PTP_CFG_DOMAIN ≠ (s.tick dt).fld F.NET_PTP_CFG_DOMAIN) from not_not_intro rfl)]
    exact congrArg Host.Outcome.next ((if_pos htake).trans (hu ▸ rfl))
  · rw [show u.ptpHeard = _ from honly, hu]
    rfl
  · rw [hst, State.fld_congr hregs]
  · rw [show u.ptpHeard = _ from honly, hu]
    rfl

section
variable {m : PtpMaster} (hm : s.ptp.master = some m)
include hm

theorem sync_leaves (n t1 : Nat) (c : Int) : exec (.ptpMessage dt p udp (.sync (s.fld F.NET_PTP_CFG_DOMAIN) m.ident n t1 c true)) s =
    .next ({ s.tick dt with ptp := { s.ptp with sync := some (n, (s.now + dt) % 2 ^ 64) } } : State) := by
  rw [exec_ptpIn hp]
  unfold State.ptpIn
  dsimp only
  rw [fromMaster_own s dt hm]
  rfl

theorem delayResp_leaves {n t3 : Nat} (hr : s.ptp.req = some (n, t3)) (t4 : Nat) (c : Int) :
    exec (.ptpMessage dt p udp (.delayResp (s.fld F.NET_PTP_CFG_DOMAIN) m.ident n t4 c)) s = .next ({ s.tick dt with
      ptp := { s.ptp with delay := (s.ptp.diff + ((t4 : Int) - c - t3)) / 2, req := none } } : State) := by
  have hr : (s.tick dt).ptp.req = some (n, t3) := hr
  rw [exec_ptpIn hp]
  unfold State.ptpIn
  dsimp only
  rw [fromMaster_own s dt hm, hr]
  exact congrArg Host.Outcome.next (if_pos rfl)

end

end

/-! ## The servo -/

/-- The registers of device time. -/
def timeRegs : List (Reg × Nat × Nat) := [(.NET_PTP_OFFSET, 0, 0), (.NET_PTP_STAT, 0, 0)]

/-- `t` differs from `s` in the registers of device time, and in the servo's count and lock. -/
def State.servoOnly (s t : State) : Prop := s.keeps t timeRegs ∧
  t = { s with regs := t.regs, ptp := { s.ptp with good := t.ptp.good, locked := t.ptp.locked } }

section
variable {s t u : State}

theorem servoOnly_trans (h : s.servoOnly t) (h' : t.servoOnly u) : s.servoOnly u := by
  obtain ⟨h1, h2⟩ := h
  obtain ⟨h1', h2'⟩ := h'
  refine ⟨keeps_mono (keeps_trans h1 h1') (by simp), ?_⟩
  rw [h2', h2]

theorem servoOnly_of_stat (h : s.onlyRegs t) (hk : s.keeps t [(.NET_PTP_STAT, 0, 0)]) : s.servoOnly t :=
  ⟨keeps_mono hk (by simp [timeRegs]), by rw [show t = { s with regs := t.regs } from h]⟩

theorem servoOnly_good (s : State) (n : Nat) (b : Bool) : s.servoOnly (s.withPtp { s.ptp with good := n, locked := b }) :=
  ⟨keeps_of_regs _ rfl, rfl⟩

end

/-- The offset that the servo shows. -/
def State.offShown (s : State) (off : Int) : State :=
  s.setFld F.NET_PTP_OFFSET_OFFSET (wrapTo 32 (max (-2147483648) (min 2147483647 off)))

/-- The lock of the servo after `n` good intervals. -/
def State.servoLock (s : State) (x : Ptp) (off : Int) (n : Nat) : State :=
  if 16 ≤ n then (s.withPtp { x with good := 16, locked := true }).setPtpState 3
  else if (s.withPtp { x with good := n }).fld F.NET_PTP_STAT_STATE = 3 ∧ 1000 < off.natAbs then (s.withPtp { x with good := n }).setPtpState 4
    else (s.withPtp { x with good := n }).ptpShow

/-- A servo that has locked before follows without a step (R383). -/
theorem servo_locked (s : State) (off : Int) (h : s.ptp.locked = true) :
    s.servo off = (s.offShown off).ptpHeard.servoLock s.ptp off (if off.natAbs < 100 then s.ptp.good + 1 else 0) := by
  have hno : ¬ ((!s.ptp.locked) = true ∧ 1000000 < off.natAbs) := by
    rw [h]
    exact fun h => absurd h.1 nofun
  unfold State.servo
  dsimp only
  rw [if_neg hno]
  rfl

section
variable (s : State) (off : Int)

theorem offShown_only : s.servoOnly (s.offShown off) :=
  ⟨keeps_mono (keeps_setFld s F.NET_PTP_OFFSET_OFFSET _ ⟨Nat.one_pos, Nat.one_pos⟩) (by simp [timeRegs]),
    by rw [show s.offShown off = _ from onlyRegs_setFld ..]⟩

theorem offShown_offset (h1 : -2147483648 ≤ off) (h2 : off ≤ 2147483647) : (s.offShown off).fld F.NET_PTP_OFFSET_OFFSET = wrapTo 32 off := by
  rw [State.offShown, min_eq_right h2, max_eq_right h1]
  exact fld_setFld_eq _ _ (by decide) (wrapTo_lt ..)

theorem servoLock_leaves (n : Nat) {x : Ptp} (hx : s.ptp = x) : s.servoOnly (s.servoLock x off n) ∧
    s.keeps (s.servoLock x off n) [(.NET_PTP_STAT, 0, 0)] ∧ (16 ≤ n → (s.servoLock x off n).fld F.NET_PTP_STAT_STATE = 3) := by
  subst hx
  have hgood (n : Nat) (b : Bool) : s.keeps (s.withPtp { s.ptp with good := n, locked := b }) [] := keeps_of_regs _ rfl
  unfold State.servoLock
  split
  · exact ⟨servoOnly_trans (servoOnly_good s 16 true) (servoOnly_of_stat (setPtpState_onlyRegs ..) (setPtpState_keeps _ _)),
      keeps_trans (hgood 16 true) (setPtpState_keeps _ _), fun _ => setPtpState_state _ (by decide)⟩
  · next hn =>
    split
    · exact ⟨servoOnly_trans (servoOnly_good s n s.ptp.locked) (servoOnly_of_stat (setPtpState_onlyRegs ..) (setPtpState_keeps _ _)),
        keeps_trans (hgood n s.ptp.locked) (setPtpState_keeps _ _), fun h => absurd h hn⟩
    · exact ⟨servoOnly_trans (servoOnly_good s n s.ptp.locked) (servoOnly_of_stat (ptpShow_onlyRegs _) (ptpShow_keeps _)),
        keeps_trans (hgood n s.ptp.locked) (ptpShow_keeps _), fun h => absurd h hn⟩

theorem servo_leaves (hl : s.ptp.locked = true) (h1 : -2147483648 ≤ off) (h2 : off ≤ 2147483647) : s.servoOnly (s.servo off) ∧
    (s.servo off).fld F.NET_PTP_OFFSET_OFFSET = wrapTo 32 off ∧
    (16 ≤ s.ptp.good + 1 → off.natAbs < 100 → (s.servo off).fld F.NET_PTP_STAT_STATE = 3) := by
  have hshown := offShown_only s off
  have hoff := offShown_offset s off h1 h2
  obtain ⟨hheard, hheardk, -⟩ := ptpHeard_leaves (s.offShown off)
  have hptp : (s.offShown off).ptpHeard.ptp = s.ptp := by
    rw [show (s.offShown off).ptpHeard = _ from hheard, show s.offShown off = _ from onlyRegs_setFld ..]
  obtain ⟨hlock, hlockk, h3⟩ := servoLock_leaves (s.offShown off).ptpHeard off (if off.natAbs < 100 then s.ptp.good + 1 else 0) hptp
  rw [servo_locked s off hl]
  refine ⟨servoOnly_trans (servoOnly_trans hshown (servoOnly_of_stat hheard hheardk)) hlock, ?_, fun h16 h100 => h3 ?_⟩
  · rw [fld_of_keeps (f := F.NET_PTP_OFFSET_OFFSET) (keeps_trans hheardk hlockk) ⟨Nat.one_pos, Nat.one_pos⟩ (by simp), hoff]
  · rw [if_pos h100]
    exact h16

end

/-- A follow-up of the synchronisation that is open: the offset, and a delay request (R382, R383). -/
theorem followUp_leaves {dt : Nat} {p : Fin 4} {udp : Bool} {s : State} (hp : s.ptpPort p udp = true) {m : PtpMaster} (hm : s.ptp.master = some m)
    {n t1 t2 : Nat} {c off : Int} (hs : s.ptp.sync = some (n, t2)) (hl : s.ptp.locked = true) (hoff : off = (t2 : Int) - t1 - c - s.ptp.delay)
    (h1 : -2147483648 ≤ off) (h2 : off ≤ 2147483647) :
    ∃ t, exec (.ptpMessage dt p udp (.followUp (s.fld F.NET_PTP_CFG_DOMAIN) m.ident n t1 c)) s = .next t ∧
      t.fld F.NET_PTP_OFFSET_OFFSET = wrapTo 32 off ∧ t.out = s.out ++ [.ptpReq (s.fld F.NET_PTP_CFG_SRC) s.ptp.seq] ∧
      t.ptp.diff = (t2 : Int) - t1 - c ∧ t.ptp.req = some (s.ptp.seq, (s.now + dt) % 2 ^ 64) ∧ t.ptp.sync = none ∧
      (16 ≤ s.ptp.good + 1 → off.natAbs < 100 → t.fld F.NET_PTP_STAT_STATE = 3) ∧
      s.keeps t timeRegs ∧ t = { s.tick dt with regs := t.regs, ptp := t.ptp, out := t.out } := by
  obtain ⟨u, hu⟩ : ∃ u, u = (s.tick dt).withPtp { s.ptp with diff := (t2 : Int) - t1 - c, sync := none } := ⟨_, rfl⟩
  have hul : u.ptp.locked = true := hu ▸ hl
  have hud : (t2 : Int) - t1 - c - u.ptp.delay = off := hu ▸ hoff.symm
  have hug : u.ptp.good = s.ptp.good := hu ▸ rfl
  have hur : u.regs = s.regs := hu ▸ rfl
  obtain ⟨⟨hk, hframe⟩, ho, h3⟩ := servo_leaves u off hul h1 h2
  obtain ⟨v, hv⟩ : ∃ v, v = u.servo off := ⟨_, rfl⟩
  rw [← hv] at hk hframe ho h3
  have hvs : v.ptp.seq = s.ptp.seq := by rw [hframe, hu]; rfl
  have hvn : v.now = (s.now + dt) % 2 ^ 64 := by rw [hframe, hu]; rfl
  have hvo : v.out = s.out := by rw [hframe, hu]; rfl
  have hvd : v.ptp.diff = (t2 : Int) - t1 - c := by rw [hframe, hu]; rfl
  have hvy : v.ptp.sync = none := by rw [hframe, hu]; rfl
  have hkeep : s.keeps v timeRegs := keeps_trans (keeps_of_regs [] hur) hk
  have hsrc : v.fld F.NET_PTP_CFG_SRC = s.fld F.NET_PTP_CFG_SRC := fld_of_keeps (f := F.NET_PTP_CFG_SRC) hkeep ⟨Nat.one_pos, Nat.one_pos⟩ (by simp [timeRegs])
  obtain ⟨t, ht⟩ : ∃ t, t = (v.withPtp { v.ptp with seq := (v.ptp.seq + 1) % 65536, req := some (v.ptp.seq, v.now) }).emit
    (.ptpReq (v.fld F.NET_PTP_CFG_SRC) v.ptp.seq) := ⟨_, rfl⟩
  have htr : t.regs = v.regs := ht ▸ rfl
  refine ⟨t, ?_, (State.fld_congr htr ..).trans ho, ?_, ?_, ?_, ?_, ?_, keeps_congr htr hkeep, ?_⟩
  · have hsync : (s.tick dt).ptp.sync = some (n, t2) := hs
    rw [exec_ptpIn hp]
    unfold State.ptpIn
    dsimp only
    rw [fromMaster_own s dt hm, hsync]
    refine congrArg Host.Outcome.next ((if_pos rfl).trans ?_)
    unfold State.ptpSync
    dsimp only
    rw [ht, hv, ← hud, hu]
    rfl
  · rw [← hvo, ← hvs, ← hsrc, ht]
    rfl
  · rw [← hvd, ht]
    rfl
  · rw [← hvs, ← hvn, ht]
    rfl
  · rw [← hvy, ht]
    rfl
  · rw [State.fld_congr htr, ← hug]
    exact h3
  · have h1 : t = { v with ptp := t.ptp, out := t.out } := ht ▸ rfl
    rw [h1, hframe, hu]
    rfl

/-- No announce of the master in time: HOLDOVER (R382). -/
theorem announceTimeout_leaves {dt : Nat} {s : State} (h : s.fld F.NET_PTP_STAT_STATE = 2 ∨ s.fld F.NET_PTP_STAT_STATE = 3) :
    ∃ t, exec (.ptpAnnounceTimeout dt) s = .next t ∧ t.fld F.NET_PTP_STAT_STATE = 4 ∧ t.ptp = { s.ptp with master := none, good := 0 } ∧
      s.keeps t [(.NET_PTP_STAT, 0, 0)] ∧ t = { s.tick dt with regs := t.regs, ptp := t.ptp } := by
  obtain ⟨u, hu⟩ : ∃ u, u = (s.tick dt).withPtp { s.ptp with master := none, good := 0 } := ⟨_, rfl⟩
  have hregs : u.regs = s.regs := hu ▸ rfl
  refine ⟨u.setPtpState 4, ?_, setPtpState_state _ (by decide), ?_, keeps_trans (keeps_of_regs [] hregs) (setPtpState_keeps u 4), ?_⟩
  · rw [hu]
    exact if_pos h
  · rw [show u.setPtpState 4 = _ from setPtpState_onlyRegs u 4, hu]
    rfl
  · rw [show u.setPtpState 4 = _ from setPtpState_onlyRegs u 4, hu]
    rfl

end Sys2Proof.Machine
end

section
/-! A result stream that is flushed (R386), and plant events (R393, R395). -/
namespace Sys2Proof.Machine

theorem State.rsBuf_setRs_same (s : State) (k : Nat) (x : RsBuf) : (s.setRs k x).rsBuf k = x := mapGet_mapSet_same rs0 s.rs k x
theorem State.rsBuf_setRs_ne (s : State) {k j : Nat} (x : RsBuf) (h : j ≠ k) : (s.setRs k x).rsBuf j = s.rsBuf j := mapGet_mapSet_ne rs0 s.rs x h

/-- A stream with less than a whole datagram sends none of its own accord. -/
theorem rsPump_short (s : State) {k : Nat} (h : (s.rsBuf k).bytes.length < s.rsCap k) : (n : Nat) → s.rsPump k n = s
  | 0 => rfl
  | n + 1 => by rw [State.rsPump, if_neg fun hc => absurd h (Nat.not_lt.2 hc.2.2)]

/-- A datagram with a known route leaves in a frame. -/
theorem sendUdp_known (s : State) {p hop mac : Nat} {d : Dgram} (hh : s.nextHop p d.dst = some hop) (hm : arpFind hop (s.arpPort p).cache = some mac) :
    s.sendUdp p d = s.emit (.udp p (s.portTci p) mac d.dst d.dport d.sport d.body) := by
  unfold State.sendUdp
  rw [hh]
  dsimp only
  rw [hm]
  rfl

/-- The buffer of a stream after a datagram of `n` bytes. -/
def RsBuf.sent (b : RsBuf) (n now : Nat) : RsBuf :=
  let rest := (b.starts.filter fun q => decide (n ≤ q.1)).map fun q => (q.1 - n, q.2)
  { b with bytes := b.bytes.drop n, starts := rest, dseq := (b.dseq + 1) % 2 ^ 64,
           first := match rest with
             | (0, t) :: _ => t
             | _ => now }

/-- The datagram of `n` bytes of stream `k` (R386). -/
def State.rsDgram (s : State) (k n : Nat) : Dgram := ⟨s.fld F.NET_RS_DST_ADDR k, s.fld F.NET_RS_DST_UDP_PORT k, 23058, some k, s.rsDatagram k n⟩

theorem rsSend_eq (s : State) (k n : Nat) : s.rsSend k n =
    (s.setRs k ((s.rsBuf k).sent n s.now)).sendUdp (s.fld F.NET_RS_CFG_PORT k) (s.rsDgram k n) := by
  unfold State.rsSend
  rfl

/-- The flush of a stream that holds part of a datagram (R386). -/
theorem rsFlush_leaves {dt : Nat} {k : Fin 16} {hop mac : Nat} {s : State} (hen : s.flag F.NET_RS_CFG_EN k = true)
    (hdue : (s.rsBuf k).first + s.fld F.NET_RS_LEN_FLUSH_US k * 1000 ≤ (s.now + dt) % 2 ^ 64)
    (hup : s.fld F.NET_STAT_STATE (s.fld F.NET_RS_CFG_PORT k) = 2) (hpos : 0 < (s.rsBuf k).bytes.length)
    (hcap : (s.rsBuf k).bytes.length < s.rsCap k) (hh : s.nextHop (s.fld F.NET_RS_CFG_PORT k) (s.fld F.NET_RS_DST_ADDR k) = some hop)
    (hm : arpFind hop (s.arpPort (s.fld F.NET_RS_CFG_PORT k)).cache = some mac) :
    ∃ t, exec (.rsFlushTimeout dt k) s = .next t ∧ (t.rsBuf k).bytes = (s.rsBuf k).bytes.drop (s.rsBuf k).bytes.length ∧
      (t.rsBuf k).dseq = ((s.rsBuf k).dseq + 1) % 2 ^ 64 ∧
      t.out = s.out ++ [.udp (s.fld F.NET_RS_CFG_PORT k) (s.portTci (s.fld F.NET_RS_CFG_PORT k)) mac (s.fld F.NET_RS_DST_ADDR k)
        (s.fld F.NET_RS_DST_UDP_PORT k) 23058 ((s.tick dt).rsDatagram k (s.rsBuf k).bytes.length)] ∧
      (∀ j, j ≠ k.val → t.rsBuf j = s.rsBuf j) ∧ t = { s.tick dt with rs := t.rs, out := t.out } := by
  obtain ⟨n, hn⟩ : ∃ n, n = (s.rsBuf k).bytes.length := ⟨_, rfl⟩
  rw [← hn] at hpos hcap ⊢
  obtain ⟨x, hx⟩ : ∃ x, x = ((s.tick dt).rsBuf k).sent n (s.tick dt).now := ⟨_, rfl⟩
  obtain ⟨v, hv⟩ : ∃ v, v = (s.tick dt).setRs k x := ⟨_, rfl⟩
  have hvh : v.nextHop ((s.tick dt).fld F.NET_RS_CFG_PORT k) ((s.tick dt).rsDgram k n).dst = some hop := hv ▸ hh
  have hvm : arpFind hop (v.arpPort ((s.tick dt).fld F.NET_RS_CFG_PORT k)).cache = some mac := hv ▸ hm
  have hsent := sendUdp_known v hvh hvm
  have hpump : (s.tick dt).rsPump k ((s.tick dt).rsBuf k).bytes.length = s.tick dt := rsPump_short (s.tick dt) (hn ▸ hcap) _
  have hgo : (s.tick dt).flag F.NET_RS_CFG_EN k = true ∧
      ((s.tick dt).rsBuf k).first + (s.tick dt).fld F.NET_RS_LEN_FLUSH_US k * 1000 ≤ (s.tick dt).now := ⟨hen, hdue⟩
  have hnow : (s.tick dt).fld F.NET_STAT_STATE ((s.tick dt).fld F.NET_RS_CFG_PORT k) = 2 ∧ 0 < n := ⟨hup, hpos⟩
  have hlen : ((s.tick dt).rsBuf k).bytes.length = n := hn.symm
  have hexec : exec (.rsFlushTimeout dt k) s = .next (v.sendUdp ((s.tick dt).fld F.NET_RS_CFG_PORT k) ((s.tick dt).rsDgram k n)) := by
    change execRsFlushTimeout dt k s = _
    unfold execRsFlushTimeout
    dsimp only
    rw [if_pos hgo, State.rsFlush, hpump]
    rw [hlen, if_pos hnow, rsSend_eq, ← hx, ← hv]
  have hbuf : v.rsBuf k = x := hv ▸ State.rsBuf_setRs_same ..
  refine ⟨_, hexec.trans (congrArg Host.Outcome.next hsent), ?_, ?_, ?_, fun j hj => ?_, ?_⟩
  · exact (congrArg RsBuf.bytes hbuf).trans (hx ▸ rfl)
  · exact (congrArg RsBuf.dseq hbuf).trans (hx ▸ rfl)
  · rw [hv]
    rfl
  · exact (hv ▸ State.rsBuf_setRs_ne (s.tick dt) x hj : v.rsBuf j = _)
  · rw [hv]
    rfl

/-! ## Plant events -/

theorem leNat_lt (l : List Byte) : leNat l < 256 ^ l.length := by
  induction l with
  | nil => exact Nat.one_pos
  | cons x l ih =>
    have hx : x.toNat < 256 := x.isLt
    rw [leNat, List.length_cons, Nat.pow_succ]
    omega

theorem numAt_lt (b : List Byte) (o n : Nat) : numAt b o n < 256 ^ n :=
  Nat.lt_of_lt_of_le (leNat_lt _) (Nat.pow_le_pow_right (by decide) (List.length_take_le ..))

/-- The speed hint of a plant event (R394). -/
def State.hinted (s : State) (odo rate tol : Nat) : State :=
  (((s.setFld F.PLB_HINT_VALID 1).setFld F.PLB_HINT_ODO odo).setFld F.PLB_HINT_RATE rate).setFld F.PLB_HINT_TOL_PERMILLE tol

section
variable (s : State) {odo rate tol : Nat}

theorem hinted_onlyRegs : s.onlyRegs (s.hinted odo rate tol) := onlyRegs_trans (onlyRegs_setFld_setFld ..) (onlyRegs_setFld_setFld ..)

theorem hinted_keeps : s.keeps (s.hinted odo rate tol) [(.PLB_HINT, 0, 0)] :=
  keeps_setFld_of_keeps (f := F.PLB_HINT_TOL_PERMILLE) s tol (keeps_setFld_of_keeps (f := F.PLB_HINT_RATE) s rate
    (keeps_setFld_setFld (f := F.PLB_HINT_VALID) (g := F.PLB_HINT_ODO) s _ _ rfl ⟨Nat.one_pos, Nat.one_pos⟩) ⟨Nat.one_pos, Nat.one_pos⟩
    (List.mem_singleton_self _)) ⟨Nat.one_pos, Nat.one_pos⟩ (List.mem_singleton_self _)

theorem hinted_values (ho : odo < 2 ^ F.PLB_HINT_ODO.w) (hr : rate < 2 ^ F.PLB_HINT_RATE.w) (ht : tol < 2 ^ F.PLB_HINT_TOL_PERMILLE.w) :
    (s.hinted odo rate tol).flag F.PLB_HINT_VALID = true ∧ (s.hinted odo rate tol).fld F.PLB_HINT_ODO = odo ∧
      (s.hinted odo rate tol).fld F.PLB_HINT_RATE = rate ∧ (s.hinted odo rate tol).fld F.PLB_HINT_TOL_PERMILLE = tol := by
  have hstep (u : State) {f g : Fld} (v : Nat) (h : f.apart g 1 = true) : (u.setFld f v).fld g = u.fld g := fld_setFld_at u v Nat.one_pos h
  refine ⟨?_, ?_, ?_, fld_setFld_eq _ _ (by decide) ht⟩
  · exact (flag_congr ((hstep _ _ (by decide)).trans ((hstep _ _ (by decide)).trans (hstep _ _ (by decide))))).trans
      (flag_setFld_same _ F.PLB_HINT_VALID _ _ _ (by decide))
  · exact ((hstep _ _ (by decide)).trans (hstep _ _ (by decide))).trans (fld_setFld_eq _ _ (by decide) ho)
  · exact (hstep _ _ (by decide)).trans (fld_setFld_eq _ _ (by decide) hr)

/-- The sources of datagrams that failed (R395). -/
def State.onlyFails (s t : State) : Prop := t = { s with srcs := t.srcs, plbs := t.plbs }

theorem srcFails_onlyFails (p mac : Nat) : s.onlyFails (s.srcFails p mac) := by
  unfold State.srcFails
  dsimp only
  split
  · unfold State.censusFlag
    split <;> rfl
  · rfl

end

section
variable {dt : Nat} {q : Fin 6} {mac : Nat} {b : List Byte} {s : State} (hup : s.portUp q = true) (hq : s.quarantined q mac = false)
include hup hq

theorem exec_plantEvent : exec (.plantEventDatagram dt q mac b) s = .next ((s.tick dt).plantEvent q mac b) := by
  have hup : (s.tick dt).portUp q = true := hup
  have hq : (s.tick dt).quarantined q mac = false := hq
  change execPlantEventDatagram dt q mac b s = _
  unfold execPlantEventDatagram
  dsimp only
  rw [hup, hq]
  rfl

/-- A plant event that passes its checks is a speed hint (R393, R394). -/
theorem plantEvent_hint (hgood : s.dgramBad b 48 0x5A45 (numAt b 12 1 == 1 || numAt b 12 1 == 2) 8 2 = none)
    (hok : s.classOk (numAt b 3 1 % 8) 0x0B = true) (hkind : numAt b 12 1 = 1) : ∃ t, exec (.plantEventDatagram dt q mac b) s = .next t ∧
      t.flag F.PLB_HINT_VALID = true ∧ t.fld F.PLB_HINT_ODO = numAt b 16 4 % 4 ∧ t.fld F.PLB_HINT_RATE = numAt b 20 4 ∧
      t.fld F.PLB_HINT_TOL_PERMILLE = numAt b 24 4 % 1024 ∧ t.lastSeq (numAt b 3 1 % 8) (numAt b 4 4) = some (numAt b 8 4) ∧
      s.keeps t [(.PLB_HINT, 0, 0)] ∧ s.sameMemory t ∧ t.out = s.out := by
  obtain ⟨v, hv⟩ : ∃ v, v = (s.tick dt).dgramPassed (numAt b 3 1 % 8) (numAt b 4 4) (numAt b 8 4) q mac := ⟨_, rfl⟩
  have hon : (s.tick dt).onlySources v := hv ▸ dgramPassed_onlySources ..
  have hseq : v.lastSeq (numAt b 3 1 % 8) (numAt b 4 4) = some (numAt b 8 4) := hv ▸ dgramPassed_lastSeq ..
  have hregs : v.regs = s.regs := (onlySources_regs hon).trans rfl
  have hcls : v.classOk (numAt b 3 1 % 8) 0x0B = true := (dgramPassed_classOk hon ..).trans hok
  have hr : numAt b 20 4 < 2 ^ F.PLB_HINT_RATE.w := numAt_lt ..
  obtain ⟨t, ht⟩ : ∃ t, t = v.hinted (numAt b 16 4 % 4) (numAt b 20 4) (numAt b 24 4 % 1024) := ⟨_, rfl⟩
  obtain ⟨h1, h2, h3, h4⟩ := hinted_values v (odo := numAt b 16 4 % 4) (tol := numAt b 24 4 % 1024) (Nat.mod_lt _ (by decide)) hr
    (Nat.mod_lt _ (by decide))
  have honly := hinted_onlyRegs v (odo := numAt b 16 4 % 4) (rate := numAt b 20 4) (tol := numAt b 24 4 % 1024)
  have hkeep := hinted_keeps v (odo := numAt b 16 4 % 4) (rate := numAt b 20 4) (tol := numAt b 24 4 % 1024)
  rw [← ht] at h1 h2 h3 h4 honly hkeep
  refine ⟨t, ?_, h1, h2, h3, h4, ?_, keeps_trans (keeps_of_regs [] hregs) hkeep, ?_, (onlyRegs_out honly).trans ((onlySources_out hon).trans rfl)⟩
  · have hgood : (s.tick dt).dgramBad b 48 0x5A45 (numAt b 12 1 == 1 || numAt b 12 1 == 2) 8 2 = none := hgood
    rw [exec_plantEvent hup hq]
    unfold State.plantEvent
    dsimp only
    rw [hgood]
    dsimp only
    rw [← State.dgramPassed, ← hv, hcls, if_neg (by decide), if_pos hkind, ht]
    rfl
  · exact (lastSeq_congr (onlyRegs_origins honly) ..).trans hseq
  · exact sameMemory_trans (s := s.tick dt) (onlySources_memory hon) (sameMemory_onlyRegs honly)

/-- A plant event whose tag is wrong is counted (R368, R395). -/
theorem plantEvent_bad (hbad : s.dgramBad b 48 0x5A45 (numAt b 12 1 == 1 || numAt b 12 1 == 2) 8 2 = some 1) :
    ∃ t, exec (.plantEventDatagram dt q mac b) s = .next t ∧
      t.fld F.CMD_NET_STAT_AUTH_FAIL = min (s.fld F.CMD_NET_STAT_AUTH_FAIL + 1) 255 ∧ s.keeps t [(.CMD_NET_STAT, 0, 0)] ∧ s.sameMemory t ∧
      t.out = s.out ∧ t.origins = s.origins := by
  obtain ⟨u, hu⟩ : ∃ u, u = (s.tick dt).inc F.CMD_NET_STAT_AUTH_FAIL := ⟨_, rfl⟩
  have hur : (s.tick dt).onlyRegs u := hu ▸ onlyRegs_inc ..
  have huk : s.keeps u [(.CMD_NET_STAT, 0, 0)] := hu ▸ keeps_inc (s.tick dt) F.CMD_NET_STAT_AUTH_FAIL ⟨Nat.one_pos, Nat.one_pos⟩
  have huf : u.fld F.CMD_NET_STAT_AUTH_FAIL = min (s.fld F.CMD_NET_STAT_AUTH_FAIL + 1) 255 := hu ▸ State.fld_inc_same _ _ _ _ (by decide)
  have hf : u.srcFails q mac = { u with srcs := (u.srcFails q mac).srcs, plbs := (u.srcFails q mac).plbs } := srcFails_onlyFails u q mac
  obtain ⟨t, ht⟩ : ∃ t, t = u.srcFails q mac := ⟨_, rfl⟩
  rw [← ht] at hf
  have hregs : t.regs = u.regs := by rw [hf]
  refine ⟨t, ?_, (State.fld_congr hregs ..).trans huf, keeps_congr hregs huk, ?_, ?_, ?_⟩
  · have hbad : (s.tick dt).dgramBad b 48 0x5A45 (numAt b 12 1 == 1 || numAt b 12 1 == 2) 8 2 = some 1 := hbad
    rw [exec_plantEvent hup hq]
    unfold State.plantEvent
    dsimp only
    rw [hbad, ht, hu]
    rfl
  · exact sameMemory_trans (s := s.tick dt) (sameMemory_onlyRegs hur) (sameMemory_of_stores (by rw [hf]) (by rw [hf]))
  · exact (show t.out = u.out by rw [hf]).trans ((onlyRegs_out hur).trans rfl)
  · exact (show t.origins = u.origins by rw [hf]).trans ((onlyRegs_origins hur).trans rfl)

end

end Sys2Proof.Machine
end

section
/-! What closing a segment leaves alone: memory, and the state of the Ethernet ports. -/
namespace Sys2Proof.Machine

/-- Does every segment of a connection belong to a unit. -/
def State.unitsOk (s : State) : Prop := ∀ c < 16, ∀ g ∈ (s.conn c).segs, g.unit < 16

/-- A step of the line pipeline: where every segment belongs to a unit, it leaves that so, and it changes neither memory nor NET_STAT. -/
structure State.lineStep (s t : State) : Prop where
  run : s.unitsOk → t.unitsOk ∧ (∀ p < 4, t.reg .NET_STAT p = s.reg .NET_STAT p) ∧ t.depot = s.depot ∧ t.hbm = s.hbm

section
variable {s t u : State}

theorem lineStep_refl (s : State) : s.lineStep s := ⟨fun h => ⟨h, fun _ _ => rfl, rfl, rfl⟩⟩

theorem lineStep_trans (h : s.lineStep t) (h' : t.lineStep u) : s.lineStep u := by
  refine ⟨fun h0 => ?_⟩
  obtain ⟨h1, h2, h3, h4⟩ := h.run h0
  obtain ⟨h1', h2', h3', h4'⟩ := h'.run h1
  exact ⟨h1', fun p hp => (h2' p hp).trans (h2 p hp), h3'.trans h3, h4'.trans h4⟩

/-- The units of the segments are known in a later state too. -/
theorem lineStep_of_units (h : s.unitsOk → s.lineStep t) : s.lineStep t := ⟨fun h0 => (h h0).run h0⟩

theorem lineStep_of_same (hr : t.regs = s.regs) (hc : t.conns = s.conns) (hd : t.depot = s.depot) (hh : t.hbm = s.hbm) : s.lineStep t := by
  refine ⟨fun h0 => ?_⟩
  refine ⟨fun c hlt g hg => h0 c hlt g ?_, fun p _ => State.reg_congr hr .., hd, hh⟩
  rwa [State.conn, hc, ← State.conn] at hg

theorem lineStep_of_regs (h : s.onlyRegs t) {r : Reg} {i j : Nat} (hk : s.keeps t [(r, i, j)]) (hr : r ≠ .NET_STAT) : s.lineStep t := by
  refine ⟨fun h0 => ?_⟩
  refine ⟨fun c hlt g hg => h0 c hlt g ?_, fun p hp => hk .NET_STAT p 0 ⟨hp, Nat.one_pos⟩ (by simp [hr.symm]), onlyRegs_depot h, onlyRegs_hbm h⟩
  rwa [State.conn, show t.conns = s.conns by rw [show t = { s with regs := t.regs } from h], ← State.conn] at hg

theorem lineStep_setFld (s : State) (f : Fld) (v : Nat) {i j : Nat} (hf : regHas f.reg i j) (hr : f.reg ≠ .NET_STAT) : s.lineStep (s.setFld f v i j) :=
  lineStep_of_regs (onlyRegs_setFld ..) (keeps_setFld s f v hf) hr

theorem lineStep_inc (s : State) (f : Fld) {i j : Nat} (hf : regHas f.reg i j) (hr : f.reg ≠ .NET_STAT) : s.lineStep (s.inc f i j) :=
  lineStep_setFld s f _ hf hr

theorem lineStep_setReg (s : State) {r : Reg} (v : Nat) {i j : Nat} (hf : regHas r i j) (hr : r ≠ .NET_STAT) : s.lineStep (s.setReg r v i j) :=
  lineStep_of_regs (onlyRegs_setReg ..) (keeps_setReg s v hf) hr

theorem lineStep_emit (s : State) (o : Output) : s.lineStep (s.emit o) := lineStep_of_same rfl rfl rfl rfl

theorem lineStep_setConn (s : State) {c : Nat} {x : Conn} (hx : s.unitsOk → ∀ g ∈ x.segs, g.unit < 16) : s.lineStep (s.setConn c x) := by
  refine ⟨fun h0 => ?_⟩
  refine ⟨fun d hd g hg => ?_, fun _ _ => rfl, rfl, rfl⟩
  rw [State.conn, State.setConn, mapGet_mapSet] at hg
  split at hg
  · exact hx h0 g hg
  · exact h0 d hd g hg

theorem lineStep_foldl {α : Type} {f : State → α → State} {l : List α} (h : ∀ x ∈ l, ∀ s : State, s.lineStep (f s x)) (s : State) :
    s.lineStep (l.foldl f s) :=
  List.foldlRecOn (motive := s.lineStep) _ _ (lineStep_refl s) fun _ hu _ hx => lineStep_trans hu (h _ hx _)

theorem lineStep_ite {p : Prop} [Decidable p] (ht : s.lineStep t) (hu : s.lineStep u) : s.lineStep (if p then t else u) := by
  split
  · exact ht
  · exact hu

end

section
variable (s : State)

/-! ## Egress -/

theorem lineStep_setERing (r : Nat) (x : Ring) : s.lineStep (s.setERing r x) := lineStep_of_same rfl rfl rfl rfl
theorem lineStep_setRs (k : Nat) (x : RsBuf) : s.lineStep (s.setRs k x) := lineStep_of_same rfl rfl rfl rfl

theorem ringBytes_lineStep (r : Nat) (b : List Byte) : s.lineStep (s.ringBytes r b) := lineStep_trans (lineStep_emit ..) (lineStep_setERing ..)

theorem ringPad_lineStep (r n : Nat) : s.lineStep (s.ringPad r n) := by
  unfold State.ringPad
  refine lineStep_ite (lineStep_refl s) ?_
  dsimp only
  exact lineStep_trans (lineStep_trans (lineStep_emit ..) (lineStep_ite (lineStep_emit ..) (lineStep_refl _))) (lineStep_setERing ..)

theorem ringPut_lineStep (r : Nat) (x : EgrRec) : s.lineStep (s.ringPut r x) := lineStep_trans (ringPad_lineStep ..) (ringBytes_lineStep ..)

theorem ringAppend_lineStep {r : Nat} (hr : r < 16) (x : EgrRec) : s.lineStep (s.ringAppend r x) := by
  unfold State.ringAppend
  dsimp only
  refine lineStep_ite ?_ (lineStep_trans (lineStep_setERing ..) (lineStep_inc _ F.CMD_EGR_STAT_DROPS ⟨hr, Nat.one_pos⟩ nofun))
  exact lineStep_trans (lineStep_trans (lineStep_ite (lineStep_refl s) (ringPut_lineStep ..)) (lineStep_setERing ..)) (ringPut_lineStep ..)

theorem rsBytes_lineStep (k : Nat) (x : EgrRec) : s.lineStep (s.rsBytes k x) :=
  lineStep_trans (t := s.useFree) (lineStep_of_same rfl rfl rfl rfl) (lineStep_setRs ..)

theorem rsPump_lineStep {k : Nat} (hk : k < 16) (n : Nat) : s.lineStep (s.rsPump k n) := by
  obtain ⟨h1, h2⟩ := rsPump_sends hk n s
  refine ⟨fun h0 => ?_⟩
  refine ⟨fun c hlt g hg => h0 c hlt g ?_, fun p hp => h2 .NET_STAT p 0 ⟨hp, Nat.one_pos⟩ (by simp), by rw [h1], by rw [h1]⟩
  rwa [State.conn, show (s.rsPump k n).conns = s.conns by rw [h1], ← State.conn] at hg

theorem rsTake_lineStep {k : Nat} (hk : k < 16) (x : EgrRec) : s.lineStep (s.rsTake k x) := by
  unfold State.rsTake
  dsimp only
  refine lineStep_ite ?_ (lineStep_trans (lineStep_setRs ..) (lineStep_inc _ F.NET_RS_STAT_DROPS ⟨hk, Nat.one_pos⟩ nofun))
  exact lineStep_trans (lineStep_trans (lineStep_trans (lineStep_ite (lineStep_refl s) (rsBytes_lineStep ..)) (lineStep_setRs ..))
    (rsBytes_lineStep ..)) (rsPump_lineStep _ hk _)

theorem egress_lineStep (x : EgrRec) : s.lineStep (s.egress x) := by
  unfold State.egress
  dsimp only
  refine lineStep_trans (lineStep_foldl (fun r hr u => ?_) s) (lineStep_foldl (fun k hk u => ?_) _)
  · exact lineStep_ite (ringAppend_lineStep u (List.mem_range.1 hr) x) (lineStep_refl u)
  · exact lineStep_ite (rsTake_lineStep u (List.mem_range.1 hk) x) (lineStep_refl u)

/-! ## Junction exports -/

theorem lineStep_setJct (j : Nat) (x : Jct) : s.lineStep (s.setJct j x) := lineStep_of_same rfl rfl rfl rfl

theorem jctPump_lineStep (j n : Nat) (s : State) : s.lineStep (s.jctPump j n) := by
  induction n generalizing s with
  | zero => exact lineStep_refl s
  | succ n ih =>
    rw [State.jctPump]
    dsimp only
    split
    · exact lineStep_ite (lineStep_trans (lineStep_trans (t := s.flitOut ..) (lineStep_emit ..) (lineStep_setJct ..)) (ih _)) (lineStep_refl s)
    · exact lineStep_refl s

theorem jctExport_lineStep (j seg idx splice w ctap bytes : Nat) (row : List Nat) : s.lineStep (s.jctExport j seg idx splice w ctap bytes row) :=
  lineStep_trans (lineStep_setJct ..) (jctPump_lineStep ..)

/-! ## Lines, segments and reference sets -/

theorem lineStep_setRef (u : Nat) (x : RefUnit) : s.lineStep (s.setRef u x) := lineStep_of_same rfl rfl rfl rfl

variable {c : Nat} (hc : c < 16)

include hc in
theorem modSeg_lineStep (b : Int) (p : Nat) {f : SegSt → SegSt} (hf : ∀ g, (f g).unit = g.unit) : s.lineStep (s.modSeg c b p f) :=
  lineStep_setConn s fun h0 g hg => by
    obtain ⟨x, hx, rfl⟩ := List.mem_map.1 hg
    split
    · rw [hf]
      exact h0 c hc x hx
    · exact h0 c hc x hx

include hc in
theorem modLine_lineStep (id : Nat) (f : ResLine → ResLine) : s.lineStep (s.modLine c id f) := lineStep_setConn s fun h0 => h0 c hc

include hc in
theorem resStat_lineStep : s.lineStep (s.resStat c) :=
  lineStep_trans (lineStep_setFld s F.ING_RES_STAT_SHOULDER _ ⟨hc, Nat.one_pos⟩ nofun)
    (lineStep_setFld _ F.ING_RES_STAT_FILL _ ⟨hc, Nat.one_pos⟩ nofun)

theorem refSets_lineStep {u : Nat} (hu : u < 16) : s.lineStep (s.refSets u) := by
  have hset (f : Fld) (hf : f.reg = .REF_SETS) (t : State) (v : Nat) : t.lineStep (t.setFld f v u) :=
    lineStep_setFld t f v (hf ▸ ⟨hu, Nat.one_pos⟩) (hf ▸ nofun)
  exact lineStep_trans (lineStep_trans (lineStep_trans (lineStep_trans (lineStep_setRef ..) (hset _ rfl _ _)) (hset _ rfl _ _)) (hset _ rfl _ _))
    (hset _ rfl _ _)

include hc in
theorem release_lineStep (n : Nat) (s : State) : s.lineStep (s.release c n) := by
  induction n generalizing s with
  | zero => exact resStat_lineStep s hc
  | succ n ih =>
    rw [State.release]
    split
    · next g gs hsegs =>
      refine lineStep_of_units fun h0 => lineStep_ite ?_ (resStat_lineStep s hc)
      have hg : g.unit < 16 := h0 c hc g (hsegs ▸ List.mem_cons_self ..)
      refine lineStep_trans (lineStep_trans (lineStep_setConn s ?_) (refSets_lineStep _ hg)) (ih _)
      exact fun h0 x hx => h0 c hc x (hsegs ▸ List.mem_cons_of_mem _ hx)
    · exact resStat_lineStep s hc

theorem gapRecord_lineStep (g : SegSt) (line : Nat) (stamp : Stamp) (flags : Nat) (final : Bool) :
    s.lineStep (s.gapRecord c g line stamp flags final) := by
  unfold State.gapRecord
  exact egress_lineStep ..

include hc in
theorem gapTry_lineStep (b : Int) (p : Nat) : s.lineStep (s.gapTry c b p) := by
  unfold State.gapTry
  split
  · split
    · refine lineStep_ite ?_ (lineStep_ite (lineStep_trans (gapRecord_lineStep ..) (modSeg_lineStep _ hc b p fun _ => rfl)) (lineStep_refl s))
      split
      · exact lineStep_trans (gapRecord_lineStep ..) (modSeg_lineStep _ hc b p fun _ => rfl)
      · exact lineStep_ite (modSeg_lineStep _ hc b p fun _ => rfl) (lineStep_refl s)
    · exact lineStep_refl s
  · exact lineStep_refl s

theorem missGap_lineStep (id flags : Nat) : s.lineStep (s.missGap c id flags) := by
  unfold State.missGap
  split
  · exact lineStep_ite (egress_lineStep ..) (lineStep_refl s)
  · exact lineStep_refl s

end

end Sys2Proof.Machine
end

section
namespace Sys2Proof.Machine

section
variable (s : State) {u c : Nat} (hu : u < 16) (hc : c < 16)

theorem lineStep_markers (m : FMap (List Nat)) : s.lineStep { s with markers := m } := lineStep_of_same rfl rfl rfl rfl
theorem lineStep_setCrew (e : Nat) (x : Crew) : s.lineStep (s.setCrew u e x) := lineStep_of_same rfl rfl rfl rfl

theorem tapSend_lineStep (t ct : Nat) (o : OutLine) (idx : Nat) (l : List Nat) : s.lineStep (s.tapSend u t ct o idx l) := by
  unfold State.tapSend
  refine lineStep_foldl (fun k _ v => lineStep_ite (lineStep_foldl (fun e _ w => ?_) v) (lineStep_refl v)) s
  exact lineStep_ite (jctExport_lineStep ..) (lineStep_setRef ..)

/-- A tap where a line of a splice or of a shoulder sends nothing. -/
theorem tapIf_lineStep (b : Bool) (t ct : Nat) (o : OutLine) (idx : Nat) (l : List Nat) :
    s.lineStep (if b then s else s.tapSend u t ct o idx l) := lineStep_ite (lineStep_refl s) (tapSend_lineStep ..)

include hu hc

theorem deliver_lineStep (o : OutLine) (img : List Nat) (spliced : Option Nat) : s.lineStep (s.deliver u c o img spliced) := by
  unfold State.deliver
  split
  · refine lineStep_ite (lineStep_refl s) ?_
    refine lineStep_trans ?_ (refSets_lineStep _ hu)
    refine lineStep_trans ?_ (release_lineStep hc ..)
    refine lineStep_trans ?_ (gapTry_lineStep _ hc ..)
    refine lineStep_trans ?_ (lineStep_ite (modSeg_lineStep _ hc _ _ fun _ => rfl) (lineStep_refl _))
    refine lineStep_trans ?_ (lineStep_foldl (fun id _ v => modLine_lineStep v hc ..) _)
    refine lineStep_trans ?_ (egress_lineStep ..)
    refine lineStep_trans ?_ (lineStep_markers ..)
    refine lineStep_trans ?_ (lineStep_foldl (fun r _ v => egress_lineStep v _) _)
    exact lineStep_foldl (fun id _ v => missGap_lineStep v ..) s
  · exact lineStep_refl s

theorem refTail_lineStep (o : OutLine) (group : List (List Nat)) : s.lineStep (s.refTail u c o group) := by
  unfold State.refTail
  refine lineStep_trans (lineStep_trans (tapIf_lineStep ..) (tapIf_lineStep ..)) (lineStep_ite (deliver_lineStep _ hu hc ..) (lineStep_refl _))

theorem splTail_lineStep (o : OutLine) (t : Nat) (l : List Nat) : s.lineStep (s.splTail u c o t l) := by
  unfold State.splTail
  exact lineStep_trans (tapSend_lineStep ..) (lineStep_ite (deliver_lineStep _ hu hc ..) (lineStep_ite (lineStep_refl _)
    (lineStep_trans (tapSend_lineStep ..) (deliver_lineStep _ hu hc ..))))

theorem splGroup_lineStep (ls : List IlLine) : s.lineStep (s.splGroup u c ls) := by
  unfold State.splGroup
  split
  · exact lineStep_trans (lineStep_setRef ..) (splTail_lineStep _ hu hc ..)
  · exact lineStep_refl s

theorem splCut_lineStep (b : Int) (p : Nat) : s.lineStep (s.splCut u c b p) := by
  unfold State.splCut
  exact lineStep_foldl (fun q _ v => lineStep_ite (splGroup_lineStep v hu hc _) (lineStep_refl v)) s

theorem ilCut_lineStep (b : Int) (p : Nat) : s.lineStep (s.ilCut u c b p) := by
  unfold State.ilCut
  dsimp only
  split
  · exact lineStep_trans (lineStep_setRef ..) (refTail_lineStep _ hu hc ..)
  · exact lineStep_refl s

theorem ilAdd_lineStep (l : IlLine) : s.lineStep (s.ilAdd u c l) := by
  unfold State.ilAdd
  dsimp only
  refine lineStep_ite (lineStep_ite ?_ (lineStep_setRef ..)) ?_
  · split
    · exact lineStep_trans (lineStep_setRef ..) (refTail_lineStep _ hu hc ..)
    · exact lineStep_setRef ..
  · exact lineStep_trans (lineStep_trans (lineStep_trans (lineStep_inc s F.REF_CNT_LATE_LOOKS ⟨hu, Nat.one_pos⟩ nofun) (modLine_lineStep _ hc ..))
      (gapTry_lineStep _ hc ..)) (release_lineStep hc ..)

omit hc in
theorem noiseOut_lineStep : s.lineStep (s.noiseOut u) := by
  have hst (v : State) (x : Nat) {k : Nat} (hk : k < 36) : v.lineStep (v.setReg .REF_ST x u k) := lineStep_setReg v x ⟨hu, hk⟩ nofun
  unfold State.noiseOut
  dsimp only
  split
  · exact lineStep_refl s
  · refine lineStep_trans ?_ (lineStep_setRef ..)
    refine lineStep_trans ?_ (hst _ _ (by decide))
    refine lineStep_trans ?_ (lineStep_foldl (fun k hk v => ?_) _)
    · exact lineStep_trans (lineStep_trans (hst _ _ (by decide)) (hst _ _ (by decide))) (hst _ _ (by decide))
    have hk := List.mem_range.1 hk
    exact lineStep_trans (hst _ _ (by omega)) (hst _ _ (by omega))

omit hc in
theorem noiseT1_lineStep (o : OutLine) (phase : Nat) (l : List Nat) (copy : Bool) : s.lineStep (s.noiseT1 u o phase l copy) :=
  lineStep_trans (lineStep_ite (lineStep_refl s) (noiseOut_lineStep s hu)) (lineStep_setRef ..)

theorem refLine_lineStep (m : TnrLine) : s.lineStep (s.refLine u c m) := by
  unfold State.refLine
  refine lineStep_trans ?_ (ilAdd_lineStep _ hu hc _)
  refine lineStep_trans ?_ (tapIf_lineStep ..)
  refine lineStep_trans ?_ (lineStep_setFld _ F.REF_CNT_UNFILLED _ ⟨hu, Nat.one_pos⟩ nofun)
  refine lineStep_trans ?_ (tapIf_lineStep ..)
  refine lineStep_trans ?_ (tapIf_lineStep ..)
  refine lineStep_trans ?_ (modLine_lineStep _ hc ..)
  split
  · exact lineStep_ite (lineStep_refl s) (noiseT1_lineStep s hu ..)
  · exact lineStep_refl s

theorem tnrEmit_lineStep (m : TnrLine) (early : Bool) : s.lineStep (s.tnrEmit u c m early) :=
  lineStep_trans (lineStep_setRef ..) (refLine_lineStep _ hu hc _)

theorem flushSeg_lineStep (b : Int) (p : Nat) : s.lineStep (s.flushSeg u c b p) := by
  unfold State.flushSeg
  exact lineStep_trans (lineStep_trans (lineStep_foldl (fun m _ v => tnrEmit_lineStep v hu hc m true) s)
    (lineStep_ite (ilCut_lineStep _ hu hc ..) (lineStep_refl _))) (splCut_lineStep _ hu hc ..)

end

section
variable (s : State) {c : Nat} (hc : c < 16)
include hc

theorem flushIfDone_lineStep (b : Int) (p : Nat) (moved : Bool) : s.lineStep (s.flushIfDone c b p moved) := by
  refine lineStep_of_units fun h0 => ?_
  unfold State.flushIfDone
  split
  · next g hg =>
    have hu : g.unit < 16 := h0 c hc g (List.mem_of_find?_eq_some hg)
    exact lineStep_ite (lineStep_trans (flushSeg_lineStep s hu hc b p) (lineStep_ite (noiseOut_lineStep _ hu) (lineStep_refl _))) (lineStep_refl s)
  · exact lineStep_refl s

omit hc in
theorem breakRuns_lineStep (u : Nat) : s.lineStep (s.breakRuns u) := by
  unfold State.breakRuns
  exact lineStep_foldl (fun e _ v => lineStep_setCrew v e _) s

theorem closeSeg_lineStep (short : Bool) : s.lineStep (s.closeSeg c short) := by
  refine lineStep_of_units fun h0 => ?_
  unfold State.closeSeg
  split
  · exact lineStep_refl s
  · next g hg =>
    have hu : g.unit < 16 := h0 c hc g (List.mem_of_find?_eq_some hg)
    refine lineStep_trans ?_ (refSets_lineStep _ hu)
    refine lineStep_trans ?_ (release_lineStep hc ..)
    refine lineStep_trans ?_ (gapTry_lineStep _ hc ..)
    refine lineStep_trans ?_ (flushIfDone_lineStep _ hc ..)
    refine lineStep_trans ?_ (lineStep_ite (breakRuns_lineStep ..) (lineStep_refl _))
    refine lineStep_trans ?_ (lineStep_setConn _ fun h => h c hc)
    exact modSeg_lineStep s hc _ _ fun _ => rfl

theorem gvRefresh_lineStep : s.lineStep (s.gvRefresh c) := by
  have hst (t : State) (v : Nat) : t.lineStep (t.setConnState c v) := lineStep_setFld t F.ING_CONN_CFG_STATE v ⟨hc, Nat.one_pos⟩ nofun
  unfold State.gvRefresh
  exact lineStep_ite (lineStep_refl s) (lineStep_ite (hst ..) (lineStep_ite (lineStep_trans (closeSeg_lineStep s hc _) (hst ..)) (lineStep_refl s)))

end

theorem gvRefreshAll_lineStep (s : State) : s.lineStep s.gvRefreshAll :=
  lineStep_foldl (fun _ hc v => gvRefresh_lineStep v (List.mem_range.1 hc)) s

/-- Where no connection is bound to a camera on Ethernet, none follows its port. -/
theorem gvRefreshAll_unbound {s : State} (h : ∀ c < 16, (s.conn c).gv = false) : s.gvRefreshAll = s :=
  List.foldlRecOn (motive := (· = s)) _ _ rfl fun t ht c hc => by
    have hgv := h c (List.mem_range.1 hc)
    rw [ht, State.gvRefresh, hgv]
    rfl

/-- A link that is lost (R381): its port's state is cleared, and the connections follow. -/
theorem linkLoss_leaves {dt : Nat} {p : Fin 4} {s : State} (hst : s.fld F.NET_STAT_STATE p = 2)
    (hseg : ∀ d < 16, ∀ g ∈ (s.conn d).segs, g.unit < 16) : ∃ t, exec (.ethLinkLoss dt p) s = .next t ∧ t.reg .NET_STAT p = 0 ∧ s.sameMemory t ∧
      ((∀ c < 16, (s.conn c).gv = false) → s.keeps t [(.NET_STAT, p.val, 0)] ∧ t = { s.tick dt with regs := t.regs }) := by
  obtain ⟨u, hu⟩ : ∃ u, u = (s.tick dt).setReg .NET_STAT 0 p := ⟨_, rfl⟩
  have hur : (s.tick dt).onlyRegs u := hu ▸ onlyRegs_setReg ..
  have hreg : u.reg .NET_STAT p = 0 := hu ▸ State.reg_setReg_same ..
  have hconn (c : Nat) : u.conn c = s.conn c := by
    rw [State.conn, show u.conns = s.conns by rw [show u = _ from hur]; rfl, State.conn]
  obtain ⟨-, hkeep, hdep, hhbm⟩ := (gvRefreshAll_lineStep u).run fun c hc g hg => hseg c hc g (hconn c ▸ hg)
  refine ⟨u.gvRefreshAll, hu ▸ if_pos hst, (hkeep p p.isLt).trans hreg, ?_, fun hgv => ?_⟩
  · exact sameMemory_trans (s := s.tick dt) (sameMemory_onlyRegs hur) (sameMemory_of_stores hdep hhbm)
  · rw [gvRefreshAll_unbound fun c hc => (congrArg Conn.gv (hconn c)).trans (hgv c hc)]
    exact ⟨hu ▸ keeps_setReg (s.tick dt) 0 ⟨p.isLt, Nat.one_pos⟩, hur⟩

/-- Settles O49: each frame, link, message and event by its own rule. -/
theorem networkPortsHandleFrames : Obligations.NetworkPortsHandleFrames := by
  unfold Obligations.NetworkPortsHandleFrames
  intro dt p s now one
  refine ⟨fun f hup => ⟨fun hok => countsOne_of_inc (exec_frame_damaged hup hok) ⟨p.isLt, Nat.one_pos⟩ (by decide),
      fun hok hq => countsOne_of_inc (exec_frame_quarantined hup hok hq) ⟨p.isLt, Nat.one_pos⟩ (by decide),
      fun hok hq hl hv => frame_payloads hup hok hq hl hv⟩,
    fun q ip hup hask hw => arpRetry_leaves hup hask hw, fun v fec page ab hen hst hv hm hgv => linkUp_leaves hen hst hv hm hgv,
    fun hst hseg => linkLoss_leaves hst hseg,
    fun udp hp => ⟨fun m hm => announce_leaves hp hm, fun m n t1 t2 t4 c hm => ⟨sync_leaves hp hm n t1 c, fun t3 hr => delayResp_leaves hp hm hr t4 c,
      fun hs hl h1 h2 => followUp_leaves hp hm hs hl rfl h1 h2⟩⟩,
    announceTimeout_leaves, fun k hop mac hen hdue hup hpos hcap hh hm => rsFlush_leaves hen hdue hup hpos hcap hh hm,
    fun q mac b hup hq => ⟨fun hb hok hk => plantEvent_hint hup hq hb hok hk, fun hb => plantEvent_bad hup hq hb⟩⟩

end Sys2Proof.Machine
end

section
/-! The plant bus and the hints of speed (R392, R394, R395, R396). -/
namespace Sys2Proof.Machine

section
variable (s : State) {b j : Nat} (f : Plb → Plb)

theorem State.plb_plbUpd_same : (s.plbUpd b f).plb b = f (s.plb b) := mapGet_mapUpd_same plb0 s.plbs b f
theorem State.plb_plbUpd_ne (h : j ≠ b) : (s.plbUpd b f).plb j = s.plb j := mapGet_mapUpd_ne plb0 s.plbs f h

end

/-- `t` differs from `s` in registers and in the state of plant bus `b` alone. -/
structure State.onlyBus (b : Nat) (s t : State) : Prop where
  frame : t = { s with regs := t.regs, plbs := t.plbs }
  others : ∀ j, j ≠ b → t.plb j = s.plb j

section
variable {b : Nat} {s t u : State}

theorem onlyBus_trans (h : s.onlyBus b t) (h' : t.onlyBus b u) : s.onlyBus b u :=
  ⟨by rw [h'.frame, h.frame], fun j hj => (h'.others j hj).trans (h.others j hj)⟩

theorem onlyBus_plbUpd (s : State) (b : Nat) (f : Plb → Plb) : s.onlyBus b (s.plbUpd b f) := ⟨rfl, fun _ hj => s.plb_plbUpd_ne f hj⟩
theorem onlyRegs_plb (h : s.onlyRegs t) (j : Nat) : t.plb j = s.plb j := by rw [show t = { s with regs := t.regs } from h]; rfl
theorem onlyBus_onlyRegs (h : s.onlyRegs t) : s.onlyBus b t := ⟨by rw [show t = { s with regs := t.regs } from h], fun j _ => onlyRegs_plb h j⟩

end

section
variable {dt : Nat} {b : Fin 2} {s : State}

theorem portUp_plb (s : State) (b : Fin 2) : s.portUp (4 + b.val) = (s.fld F.PLB_STAT_MODE b != 0) := by
  rw [State.portUp, if_neg (show ¬ 4 + b.val < 4 by omega), Nat.add_sub_cancel_left]

theorem portUp_of_mode (h : s.fld F.PLB_STAT_MODE b ≠ 0) : s.portUp (4 + b.val) = true := (portUp_plb s b).trans (bne_iff_ne.2 h)

theorem plbNoise_leaves (s : State) (b : Fin 2) : (s.plbNoise b).fld F.PLB_ERRCNT_FCS b = min (s.fld F.PLB_ERRCNT_FCS b + 1) 255 ∧
    s.now ∈ ((s.plbNoise b).plb b).noise ∧ ((s.plbNoise b).plb b).census = (s.plb b).census ∧
    s.keeps (s.plbNoise b) [(.PLB_STAT, b.val, 0), (.PLB_ERRCNT, b.val, 0)] ∧ s.onlyBus b (s.plbNoise b) := by
  let ts := ((s.plb b).noise.filter fun t => decide (s.now < t + 100000000)) ++ [s.now]
  obtain ⟨v, hv⟩ : ∃ v, v = s.plbUpd b fun x => { x with noise := ts } := ⟨_, rfl⟩
  obtain ⟨w, hw⟩ : ∃ w, w = if 64 ≤ ts.length then v.setFld F.PLB_STAT_NOISE 1 b else v := ⟨_, rfl⟩
  have hbus : s.onlyBus b v := hv ▸ onlyBus_plbUpd ..
  have hplb : v.plb b = { s.plb b with noise := ts } := hv ▸ s.plb_plbUpd_same _
  have hregs : v.regs = s.regs := hv ▸ rfl
  have ⟨hvw, hkw⟩ : v.onlyRegs w ∧ v.keeps w [(.PLB_STAT, b.val, 0)] := by
    rw [hw]
    split
    · exact ⟨onlyRegs_setFld .., keeps_setFld v F.PLB_STAT_NOISE 1 ⟨b.isLt, Nat.one_pos⟩⟩
    · exact ⟨onlyRegs_refl v, keeps_refl _ _⟩
  have hcnt : w.fld F.PLB_ERRCNT_FCS b = s.fld F.PLB_ERRCNT_FCS b :=
    (fld_of_keeps hkw ⟨b.isLt, Nat.one_pos⟩ (by simp)).trans (State.fld_congr hregs ..)
  have hx : s.plbNoise b = w.inc F.PLB_ERRCNT_FCS b := by
    unfold State.plbNoise
    dsimp only
    rw [hw, hv]
  have hwi : w.onlyRegs (w.inc F.PLB_ERRCNT_FCS b) := onlyRegs_inc ..
  have hall : (w.inc F.PLB_ERRCNT_FCS b).plb b = { s.plb b with noise := ts } := (onlyRegs_plb hwi b).trans ((onlyRegs_plb hvw b).trans hplb)
  rw [hx, hall]
  refine ⟨(State.fld_inc_same _ _ _ _ (by decide)).trans (by rw [hcnt]; rfl), List.mem_append_right _ (List.mem_singleton_self _), rfl,
    keeps_trans (keeps_trans (keeps_of_regs [] hregs) hkw) (keeps_inc w F.PLB_ERRCNT_FCS ⟨b.isLt, Nat.one_pos⟩),
    onlyBus_trans hbus (onlyBus_onlyRegs (onlyRegs_trans hvw hwi))⟩

/-- A damaged frame of the plant bus counts (R392). -/
theorem plbFrame_damaged {node : Fin 256} {f : NetFrame} (hm : s.fld F.PLB_STAT_MODE b ≠ 0) (hok : f.ok = false) :
    ∃ t, exec (.plbFrameReceived dt b node f) s = .next t ∧ t.fld F.PLB_ERRCNT_FCS b = min (s.fld F.PLB_ERRCNT_FCS b + 1) 255 ∧
      (s.now + dt) % 2 ^ 64 ∈ (t.plb b).noise ∧ (t.plb b).census = (s.plb b).census ∧ (∀ j : Nat, j ≠ b → t.plb j = s.plb j) ∧
      s.keeps t [(.PLB_STAT, b.val, 0), (.PLB_ERRCNT, b.val, 0)] ∧ t = { s.tick dt with regs := t.regs, plbs := t.plbs } := by
  obtain ⟨h1, h2, h3, h4, h5⟩ := plbNoise_leaves (s.tick dt) b
  refine ⟨(s.tick dt).plbNoise b, ?_, h1, h2, h3, h5.others, h4, h5.frame⟩
  have hup : (s.tick dt).portUp (4 + b.val) = true := portUp_of_mode hm
  change execPlbFrameReceived dt b node f s = _
  unfold execPlbFrameReceived
  dsimp only
  rw [hup, hok]
  rfl

/-- A first frame of a source enters the census (R396). -/
theorem plbFrame_seen {node : Fin 256} {f : NetFrame} (hm : s.fld F.PLB_STAT_MODE b ≠ 0) (hok : f.ok = true) (hlen : f.len ≤ 1518)
    (hq : s.quarantined (4 + b.val) f.mac = false) (hpay : f.pay = .other) (hnew : ∀ e ∈ (s.plb b).census, e.mac ≠ f.mac)
    (hcap : (s.plb b).census.length < 64) : ∃ t, exec (.plbFrameReceived dt b node f) s = .next t ∧
      t.plb b = { s.plb b with census := (s.plb b).census ++ [⟨f.mac, node, false, false, false, 1, (s.now + dt) % 2 ^ 64⟩] } ∧
      (∀ j : Nat, j ≠ b → t.plb j = s.plb j) ∧ t = { s.tick dt with plbs := t.plbs } := by
  have hup : (s.tick dt).portUp (4 + b.val) = true := portUp_of_mode hm
  have hq : (s.tick dt).quarantined (4 + b.val) f.mac = false := hq
  have hnone : ((s.plb b).census.any fun e => e.mac == f.mac) = false :=
    List.any_eq_false.2 fun e he => by simpa using hnew e he
  refine ⟨(s.tick dt).censusSee b f.mac node, ?_, ?_, fun j hj => State.plb_plbUpd_ne _ _ hj, rfl⟩
  · change execPlbFrameReceived dt b node f s = _
    unfold execPlbFrameReceived
    dsimp only
    rw [hup, hok, hq, if_neg nofun, if_neg (show ¬ ((!true) = true ∨ 1518 < f.len) from by simpa using hlen), if_neg nofun]
    split
    · rfl
    · rw [State.frameIn, hpay]
      dsimp only
      rw [State.rxDiscard, if_neg (show ¬ 4 + b.val < 4 by omega)]
  · rw [State.censusSee, State.plb_plbUpd_same, show (s.tick dt).plb b = s.plb b from rfl, hnone, if_neg nofun,
      if_neg (Nat.not_le.2 hcap)]
    rfl

end

end Sys2Proof.Machine
end

section
/-! Collisions and beacons of the plant bus (R392, R396). -/
namespace Sys2Proof.Machine

section
variable {dt : Nat} {b : Fin 2} {s : State}

/-- The collisions in a row after one more. -/
def Plb.runAfter (x : Plb) (again : Bool) : Nat := if again then x.run + 1 else 1

theorem plbCollide_eq (s : State) (b : Nat) (again : Bool) : s.plbCollide b again =
    if (s.plb b).runAfter again = 8 then
      ((((s.plbUpd b fun x => { x with run := (s.plb b).runAfter again }).inc F.PLB_ERRCNT_COLL b).setFld F.PLB_STAT_DUP_ID 1 b).tell (.note 17 b))
    else (s.plbUpd b fun x => { x with run := (s.plb b).runAfter again }).inc F.PLB_ERRCNT_COLL b := rfl

/-- A collision counts, and the eighth in a row says that a NODE_ID stands twice (R392). -/
theorem plbCollide_leaves (s : State) (b : Fin 2) (again : Bool) : ∃ t, s.plbCollide b again = { t with
      out := s.out ++ (if (s.plb b).runAfter again = 8 then [.report (.note 17 b)] else []) } ∧ t.out = s.out ∧
    t.plb b = { s.plb b with run := (s.plb b).runAfter again } ∧ t.fld F.PLB_ERRCNT_COLL b = min (s.fld F.PLB_ERRCNT_COLL b + 1) 255 ∧
    t.fld F.PLB_ERRCNT_DISCARD b = s.fld F.PLB_ERRCNT_DISCARD b ∧ ((s.plb b).runAfter again = 8 → t.flag F.PLB_STAT_DUP_ID b = true) ∧
    s.keeps t [(.PLB_STAT, b.val, 0), (.PLB_ERRCNT, b.val, 0)] ∧ s.onlyBus b t := by
  obtain ⟨v, hv⟩ : ∃ v, v = s.plbUpd b fun x => { x with run := (s.plb b).runAfter again } := ⟨_, rfl⟩
  obtain ⟨w, hw⟩ : ∃ w, w = v.inc F.PLB_ERRCNT_COLL b := ⟨_, rfl⟩
  have hbus : s.onlyBus b v := hv ▸ onlyBus_plbUpd ..
  have hregs : v.regs = s.regs := hv ▸ rfl
  have hplb : v.plb b = { s.plb b with run := (s.plb b).runAfter again } := hv ▸ s.plb_plbUpd_same _
  have hvw : v.onlyRegs w := hw ▸ onlyRegs_inc ..
  have hcoll : w.fld F.PLB_ERRCNT_COLL b = min (s.fld F.PLB_ERRCNT_COLL b + 1) 255 :=
    hw ▸ (State.fld_inc_same _ _ _ _ (by decide)).trans (by rw [State.fld_congr hregs]; rfl)
  have hdis : w.fld F.PLB_ERRCNT_DISCARD b = s.fld F.PLB_ERRCNT_DISCARD b :=
    (hw ▸ fld_inc_at v b.isLt (by decide)).trans (State.fld_congr hregs ..)
  have hkeep : s.keeps w [(.PLB_ERRCNT, b.val, 0)] :=
    keeps_trans (keeps_of_regs [] hregs) (hw ▸ keeps_inc v F.PLB_ERRCNT_COLL ⟨b.isLt, Nat.one_pos⟩)
  rw [plbCollide_eq, ← hv, ← hw]
  split
  · next h8 =>
    obtain ⟨t, ht⟩ : ∃ t, t = w.setFld F.PLB_STAT_DUP_ID 1 b := ⟨_, rfl⟩
    have hwt : w.onlyRegs t := ht ▸ onlyRegs_setFld ..
    have hkt : w.keeps t [(.PLB_STAT, b.val, 0)] := ht ▸ keeps_setFld w F.PLB_STAT_DUP_ID 1 ⟨b.isLt, Nat.one_pos⟩
    have hout : t.out = s.out := (onlyRegs_out (onlyRegs_trans hvw hwt)).trans (by rw [hbus.frame])
    rw [← ht]
    refine ⟨t, ?_, hout, (onlyRegs_plb (onlyRegs_trans hvw hwt) b).trans hplb, (fld_of_keeps hkt ⟨b.isLt, Nat.one_pos⟩ (by simp)).trans hcoll,
      (fld_of_keeps hkt ⟨b.isLt, Nat.one_pos⟩ (by simp)).trans hdis, fun _ => ht ▸ flag_setFld_same w F.PLB_STAT_DUP_ID 1 b 0 (by decide),
      keeps_mono (keeps_trans hkeep hkt) (by simp), onlyBus_trans hbus (onlyBus_onlyRegs (onlyRegs_trans hvw hwt))⟩
    rw [State.tell, State.emit, hout]
  · next h8 =>
    have hout : w.out = s.out := (onlyRegs_out hvw).trans (by rw [hbus.frame])
    refine ⟨w, ?_, hout, (onlyRegs_plb hvw b).trans hplb, hcoll, hdis, fun h => absurd h h8, keeps_mono hkeep (by simp),
      onlyBus_trans hbus (onlyBus_onlyRegs hvw)⟩
    rw [List.append_nil, ← hout]

/-- A collision counts; the sixteenth attempt discards the frame (R392). -/
theorem plbCollision_leaves (attempt : Fin 17) (again : Bool) (hm : s.fld F.PLB_STAT_MODE b ≠ 0) :
    ∃ t, exec (.plbCollision dt b attempt again) s = .next t ∧ t.plb b = { s.plb b with run := (s.plb b).runAfter again } ∧
      t.fld F.PLB_ERRCNT_COLL b = min (s.fld F.PLB_ERRCNT_COLL b + 1) 255 ∧
      t.fld F.PLB_ERRCNT_DISCARD b = (if attempt.val = 16 then min (s.fld F.PLB_ERRCNT_DISCARD b + 1) 255 else s.fld F.PLB_ERRCNT_DISCARD b) ∧
      ((s.plb b).runAfter again = 8 → t.flag F.PLB_STAT_DUP_ID b = true) ∧
      t.out = s.out ++ (if (s.plb b).runAfter again = 8 then [.report (.note 17 b)] else []) ∧ (∀ j : Nat, j ≠ b → t.plb j = s.plb j) ∧
      s.keeps t [(.PLB_STAT, b.val, 0), (.PLB_ERRCNT, b.val, 0)] ∧ t = { s.tick dt with regs := t.regs, plbs := t.plbs, out := t.out } := by
  have hup : (s.tick dt).portUp (4 + b.val) = true := portUp_of_mode hm
  have hexec : exec (.plbCollision dt b attempt again) s = .next (if attempt.val = 16 then
      ((s.tick dt).plbCollide b again).inc F.PLB_ERRCNT_DISCARD b else (s.tick dt).plbCollide b again) := by
    change execPlbCollision dt b attempt again s = _
    unfold execPlbCollision
    dsimp only
    rw [hup]
    rfl
  obtain ⟨v, hv, -, hplb, hcoll, hdis, hdup, hkeep, hbus⟩ := plbCollide_leaves (s.tick dt) b again
  obtain ⟨w, hw⟩ : ∃ w, w = (s.tick dt).plbCollide b again := ⟨_, rfl⟩
  rw [← hw] at hv hexec
  have hregs : w.regs = v.regs := by rw [hv]
  have hplbs : ∀ j, w.plb j = v.plb j := fun j => by rw [hv]; rfl
  have hout : w.out = s.out ++ (if (s.plb b).runAfter again = 8 then [.report (.note 17 b)] else []) := by rw [hv]; rfl
  have hframe : w = { s.tick dt with regs := w.regs, plbs := w.plbs, out := w.out } := by rw [hv, hbus.frame]
  have hkw : s.keeps w [(.PLB_STAT, b.val, 0), (.PLB_ERRCNT, b.val, 0)] := keeps_congr hregs hkeep
  rw [← State.fld_congr hregs] at hcoll hdis
  rw [← flag_congr (State.fld_congr hregs ..)] at hdup
  refine ⟨_, hexec, ?_⟩
  split
  · obtain ⟨t, ht⟩ : ∃ t, t = w.inc F.PLB_ERRCNT_DISCARD b := ⟨_, rfl⟩
    have hwt : w.onlyRegs t := ht ▸ onlyRegs_inc ..
    have hkt : w.keeps t [(.PLB_ERRCNT, b.val, 0)] := ht ▸ keeps_inc w F.PLB_ERRCNT_DISCARD ⟨b.isLt, Nat.one_pos⟩
    have hct : t.fld F.PLB_ERRCNT_COLL b = w.fld F.PLB_ERRCNT_COLL b := ht ▸ fld_inc_at w b.isLt (by decide)
    have hdt : t.fld F.PLB_ERRCNT_DISCARD b = min (s.fld F.PLB_ERRCNT_DISCARD b + 1) 255 :=
      ht ▸ (State.fld_inc_same _ _ _ _ (by decide)).trans (by rw [hdis]; rfl)
    rw [← ht]
    refine ⟨(onlyRegs_plb hwt b).trans ((hplbs b).trans hplb), hct.trans hcoll, hdt,
      fun h => (flag_of_keeps hkt ⟨b.isLt, Nat.one_pos⟩ (by simp)).trans (hdup h), (onlyRegs_out hwt).trans hout,
      fun j hj => (onlyRegs_plb hwt j).trans ((hplbs j).trans (hbus.others j hj)), keeps_mono (keeps_trans hkw hkt) (by simp), ?_⟩
    rw [show t = { w with regs := t.regs } from hwt, hframe]
  · exact ⟨(hplbs b).trans hplb, hcoll, hdis, hdup, hout, fun j hj => (hplbs j).trans (hbus.others j hj), hkw, hframe⟩

/-- A node that misses the beacons falls back (R392). -/
def State.plbFell (s : State) (b : Nat) : State := (s.setFld F.PLB_STAT_MODE 1 b).setFld F.PLB_STAT_BEACON_LOST 1 b

theorem plbFell_leaves (s : State) (b : Fin 2) : (s.plbFell b).fld F.PLB_STAT_MODE b = 1 ∧ (s.plbFell b).flag F.PLB_STAT_BEACON_LOST b = true ∧
    s.keeps (s.plbFell b) [(.PLB_STAT, b.val, 0)] ∧ s.onlyRegs (s.plbFell b) :=
  ⟨(fld_setFld_at (n := 2) _ _ b.isLt (by decide)).trans (fld_setFld_eq _ _ (by decide) (by decide)), flag_setFld_same _ F.PLB_STAT_BEACON_LOST 1 _ _ (by decide),
    keeps_setFld_setFld (f := F.PLB_STAT_MODE) (g := F.PLB_STAT_BEACON_LOST) s _ _ rfl ⟨b.isLt, Nat.one_pos⟩, onlyRegs_setFld_setFld ..⟩

theorem beaconTimeout_falls (hm : s.fld F.PLB_STAT_MODE b = 2) : ∃ t, exec (.plbBeaconTimeout dt b false) s = .next t ∧
    t.fld F.PLB_STAT_MODE b = 1 ∧ t.flag F.PLB_STAT_BEACON_LOST b = true ∧
    (s.keeps t [(.PLB_STAT, b.val, 0)] ∧ (∀ j : Nat, j ≠ b → t.plb j = s.plb j) ∧ t = { s.tick dt with regs := t.regs, plbs := t.plbs }) ∧
    t.plb b = s.plb b := by
  obtain ⟨h1, h2, h3, h4⟩ := plbFell_leaves (s.tick dt) b
  refine ⟨(s.tick dt).plbFell b, ?_, h1, h2, ⟨h3, fun j _ => onlyRegs_plb h4 j, (onlyBus_onlyRegs (b := b) h4).frame⟩, onlyRegs_plb h4 b⟩
  have hm : (s.tick dt).fld F.PLB_STAT_MODE b = 2 := hm
  change execPlbBeaconTimeout dt b false s = _
  unfold execPlbBeaconTimeout
  dsimp only
  rw [if_pos hm, if_neg (fun h => Bool.noConfusion h.1)]
  rfl

/-- The backup takes the bus over (R392). -/
def State.plbTakes (s : State) (b n : Nat) : State :=
  ((s.setFld F.PLB_STAT_MODE 3 b).setFld F.PLB_STAT_TOOK_OVER 1 b).plbUpd b fun x => { x with taken := true, coord := n }

theorem plbTakes_leaves (s : State) (b : Fin 2) (n : Nat) : (s.plbTakes b n).fld F.PLB_STAT_MODE b = 3 ∧
    (s.plbTakes b n).flag F.PLB_STAT_TOOK_OVER b = true ∧ (s.plbTakes b n).plb b = { s.plb b with taken := true, coord := n } ∧
    s.keeps (s.plbTakes b n) [(.PLB_STAT, b.val, 0)] ∧ s.onlyBus b (s.plbTakes b n) := by
  obtain ⟨v, hv⟩ : ∃ v, v = (s.setFld F.PLB_STAT_MODE 3 b).setFld F.PLB_STAT_TOOK_OVER 1 b := ⟨_, rfl⟩
  have hr : s.onlyRegs v := hv ▸ onlyRegs_setFld_setFld ..
  have h1 : v.fld F.PLB_STAT_MODE b = 3 := hv ▸ (fld_setFld_at (n := 2) _ _ b.isLt (by decide)).trans (fld_setFld_eq _ _ (by decide) (by decide))
  have h2 : v.flag F.PLB_STAT_TOOK_OVER b = true := hv ▸ flag_setFld_same _ F.PLB_STAT_TOOK_OVER 1 _ _ (by decide)
  have h3 : s.keeps v [(.PLB_STAT, b.val, 0)] :=
    hv ▸ keeps_setFld_setFld (f := F.PLB_STAT_MODE) (g := F.PLB_STAT_TOOK_OVER) s _ _ rfl ⟨b.isLt, Nat.one_pos⟩
  rw [State.plbTakes, ← hv]
  exact ⟨h1, h2, (v.plb_plbUpd_same _).trans (by rw [onlyRegs_plb hr]), keeps_congr rfl h3, onlyBus_trans (onlyBus_onlyRegs hr) (onlyBus_plbUpd ..)⟩

theorem beaconTimeout_takes (hm : s.fld F.PLB_STAT_MODE b = 2) (hb : s.flag F.PLB_CFG_BACKUP b = true) (hp : s.flag F.PLB_CFG_PLCA b = true)
    (hid : s.fld F.PLB_CFG_NODE_ID b ≠ 0xFF) : ∃ t, exec (.plbBeaconTimeout dt b true) s = .next t ∧ t.fld F.PLB_STAT_MODE b = 3 ∧
      t.flag F.PLB_STAT_TOOK_OVER b = true ∧ t.plb b = { s.plb b with taken := true, coord := s.fld F.PLB_CFG_NODE_CNT b } ∧
      t.out = s.out ++ [.beacon (4 + b.val) (s.fld F.PLB_CFG_NODE_CNT b)] ∧ (∀ j : Nat, j ≠ b → t.plb j = s.plb j) ∧
      s.keeps t [(.PLB_STAT, b.val, 0)] ∧ t = { s.tick dt with regs := t.regs, plbs := t.plbs, out := t.out } := by
  obtain ⟨-, -, hk, hr⟩ := plbFell_leaves (s.tick dt) b
  obtain ⟨v, hv⟩ : ∃ v, v = (s.tick dt).plbFell b := ⟨_, rfl⟩
  rw [← hv] at hk hr
  have hcfg {f : Fld} (hf : f.reg = .PLB_CFG) : v.fld f b = s.fld f b :=
    fld_of_keeps hk (hf ▸ ⟨b.isLt, Nat.one_pos⟩) (by simp [hf])
  have hb : v.flag F.PLB_CFG_BACKUP b = true := (flag_congr (hcfg rfl)).trans hb
  have hp : v.flag F.PLB_CFG_PLCA b = true := (flag_congr (hcfg rfl)).trans hp
  have hid : v.fld F.PLB_CFG_NODE_ID b ≠ 0xFF := by rw [hcfg rfl]; exact hid
  have hcnt : v.fld F.PLB_CFG_NODE_CNT b = s.fld F.PLB_CFG_NODE_CNT b := hcfg rfl
  obtain ⟨h1, h2, h3, h4, h5⟩ := plbTakes_leaves v b (s.fld F.PLB_CFG_NODE_CNT b)
  obtain ⟨w, hw⟩ : ∃ w, w = v.plbTakes b (s.fld F.PLB_CFG_NODE_CNT b) := ⟨_, rfl⟩
  rw [← hw] at h1 h2 h3 h4 h5
  have hbus : (s.tick dt).onlyBus b w := onlyBus_trans (onlyBus_onlyRegs hr) h5
  refine ⟨w.emit (.beacon (4 + b.val) (s.fld F.PLB_CFG_NODE_CNT b)), ?_, h1, h2, h3.trans (by rw [onlyRegs_plb hr]; rfl),
    congrArg (· ++ _) (show w.out = s.out by rw [hbus.frame]; rfl), hbus.others, keeps_congr rfl (keeps_mono (keeps_trans hk h4) (by simp)), ?_⟩
  · have hm : (s.tick dt).fld F.PLB_STAT_MODE b = 2 := hm
    change execPlbBeaconTimeout dt b true s = _
    unfold execPlbBeaconTimeout
    dsimp only
    rw [if_pos hm, ← State.plbFell, ← hv, if_pos ⟨rfl, .inr hm, hb, hp, hid⟩, hcnt, hw]
    rfl
  · rw [State.emit, hbus.frame]

end

end Sys2Proof.Machine
end

section
/-! Beacons that return, quarantines that end, and hints (R394, R395, R396). -/
namespace Sys2Proof.Machine

section
variable {dt : Nat} {b : Fin 2} {s : State}

/-- The coordinator of a plant bus is marked by its beacon (R396). -/
def Plb.seen (x : Plb) : Plb := { x with census := x.census.map fun e => if e.node = 0 then { e with beacon := true } else e }

theorem Plb.seen_marked (x : Plb) : ∀ e ∈ x.seen.census, e.node = 0 → e.beacon = true := by
  intro e he hn
  obtain ⟨y, -, rfl⟩ := List.mem_map.1 he
  split
  · rfl
  · next hy => exact absurd (by rwa [if_neg hy] at hn) hy

/-- A beacon makes its receiver follow the coordinator (R392). -/
def State.plbFollows (s : State) (b : Nat) (f : Plb → Plb) : State := ((s.plbUpd b Plb.seen).setFld F.PLB_STAT_MODE 2 b).plbUpd b f

theorem plbFollows_leaves (s : State) (b : Fin 2) (f : Plb → Plb) : (s.plbFollows b f).fld F.PLB_STAT_MODE b = 2 ∧
    (s.plbFollows b f).plb b = f (s.plb b).seen ∧ s.keeps (s.plbFollows b f) [(.PLB_STAT, b.val, 0)] ∧ s.onlyBus b (s.plbFollows b f) := by
  obtain ⟨u, hu⟩ : ∃ u, u = s.plbUpd b Plb.seen := ⟨_, rfl⟩
  obtain ⟨v, hv⟩ : ∃ v, v = u.setFld F.PLB_STAT_MODE 2 b := ⟨_, rfl⟩
  have hbus : s.onlyBus b u := hu ▸ onlyBus_plbUpd ..
  have hplb : u.plb b = (s.plb b).seen := hu ▸ s.plb_plbUpd_same _
  have hr : u.onlyRegs v := hv ▸ onlyRegs_setFld ..
  have hm : v.fld F.PLB_STAT_MODE b = 2 := hv ▸ fld_setFld_eq _ _ (by decide) (by decide)
  have hregs : u.regs = s.regs := hu ▸ rfl
  have hk : s.keeps v [(.PLB_STAT, b.val, 0)] :=
    keeps_trans (keeps_of_regs [] hregs) (hv ▸ keeps_setFld u F.PLB_STAT_MODE 2 ⟨b.isLt, Nat.one_pos⟩)
  rw [State.plbFollows, ← hu, ← hv]
  exact ⟨hm, (v.plb_plbUpd_same f).trans (by rw [onlyRegs_plb hr, hplb]), keeps_congr rfl hk,
    onlyBus_trans hbus (onlyBus_trans (onlyBus_onlyRegs hr) (onlyBus_plbUpd ..))⟩

theorem exec_beaconReceived {cnt : Fin 256} (h : (s.fld F.PLB_STAT_MODE b = 3 ∧ (s.plb b).taken = true) ∨ s.fld F.PLB_STAT_MODE b = 2) :
    exec (.plbBeaconReceived dt b cnt) s = .next ((s.tick dt).plbFollows b fun x =>
      if s.fld F.PLB_STAT_MODE b = 3 then { x with taken := false, coord := cnt } else { x with coord := cnt }) := by
  change execPlbBeaconReceived dt b cnt s = _
  unfold execPlbBeaconReceived
  dsimp only
  have htak : (((s.tick dt).plbUpd b Plb.seen).plb b).taken = (s.plb b).taken := by
    rw [State.plb_plbUpd_same]
    rfl
  obtain ⟨hm, ht⟩ | hm := h
  · have hm' : (s.tick dt).fld F.PLB_STAT_MODE b = 3 := hm
    rw [if_pos ⟨hm', htak.trans ht⟩, hm]
    rfl
  · have hm' : (s.tick dt).fld F.PLB_STAT_MODE b = 2 := hm
    rw [hm', if_neg (by simp), if_neg (by decide), if_pos (.inl rfl), hm]
    rfl

theorem beaconReceived_leaves (cnt : Fin 256) (h : (s.fld F.PLB_STAT_MODE b = 3 ∧ (s.plb b).taken = true) ∨ s.fld F.PLB_STAT_MODE b = 2) :
    ∃ t, exec (.plbBeaconReceived dt b cnt) s = .next t ∧ t.fld F.PLB_STAT_MODE b = 2 ∧ (t.plb b).coord = cnt ∧
      (s.fld F.PLB_STAT_MODE b = 3 → (t.plb b).taken = false) ∧ (∀ e ∈ (t.plb b).census, e.node = 0 → e.beacon = true) ∧
      s.keeps t [(.PLB_STAT, b.val, 0)] ∧ (∀ j : Nat, j ≠ b → t.plb j = s.plb j) ∧ t = { s.tick dt with regs := t.regs, plbs := t.plbs } := by
  obtain ⟨h1, h2, h3, h4⟩ := plbFollows_leaves (s.tick dt) b fun x =>
    if s.fld F.PLB_STAT_MODE b = 3 then { x with taken := false, coord := cnt.val } else { x with coord := cnt.val }
  refine ⟨_, exec_beaconReceived h, h1, ?_, fun hm => ?_, ?_, h3, h4.others, h4.frame⟩
  · rw [h2]
    split <;> rfl
  · rw [h2, if_pos hm]
  · rw [h2]
    split <;> exact Plb.seen_marked _

/-- A quarantine that ends (R395). -/
theorem quarantineExpire_leaves (p : Fin 6) (mac : Nat) (h : s.quarantined p mac = true) : ∃ t, exec (.quarantineExpire dt p mac) s = .next t ∧
    t.quarantined p mac = false ∧ (∀ q m, (q ≠ p.val ∨ m ≠ mac) → t.quarantined q m = s.quarantined q m) ∧
    t = { s.tick dt with srcs := t.srcs, plbs := t.plbs } := by
  obtain ⟨u, hu⟩ : ∃ u, u = (s.tick dt).setSrc ⟨p.val, mac, [], false⟩ := ⟨_, rfl⟩
  have hsrcs : u.srcs = s.srcs.filter fun y => !(y.port == p.val && y.mac == mac) := hu ▸ rfl
  have hframe : u = { s.tick dt with srcs := u.srcs } := hu ▸ rfl
  obtain ⟨t, ht⟩ : ∃ t, t = u.censusFlag p.val mac fun e => { e with quar := false } := ⟨_, rfl⟩
  have hon : u.onlySources t := ht ▸ censusFlag_onlySources ..
  have hts : t.srcs = u.srcs := by rw [show t = { u with origins := t.origins, ksFlash := t.ksFlash, plbs := t.plbs } from hon]
  refine ⟨t, ?_, ?_, fun q m hne => ?_, ?_⟩
  · have h : (s.tick dt).quarantined p mac = true := h
    change execQuarantineExpire dt p mac s = _
    unfold execQuarantineExpire
    dsimp only
    rw [if_pos h, ht, hu]
  · rw [State.quarantined, State.netSrc, hts, hsrcs, List.find?_filter]
    rw [List.find?_eq_none.2 fun x _ => by simp only [Bool.not_eq_true', Bool.and_eq_true, beq_iff_eq]; grind]
    rfl
  · rw [State.quarantined, State.quarantined, State.netSrc, State.netSrc, hts, hsrcs, List.find?_filter]
    congr 3
    funext x
    by_cases hx : (x.port == q && x.mac == m) = true
    · obtain ⟨hq, hm⟩ := Bool.and_eq_true_iff.1 hx
      rw [beq_iff_eq.1 hq, beq_iff_eq.1 hm]
      obtain hq | hm := hne
      · simp [hq]
      · simp [hm]
    · simp [Bool.eq_false_iff.2 hx]
  · rw [ht]
    unfold State.censusFlag
    split
    · rw [hframe]
    · rw [State.plbUpd, hframe]

/-- A hint that expires (R394). -/
theorem speedHintExpire_leaves (h : s.flag F.PLB_HINT_VALID = true) : ∃ t, exec (.speedHintExpire dt) s = .next t ∧
    t.flag F.PLB_HINT_VALID = false ∧ s.keeps t [(.PLB_HINT, 0, 0)] ∧ t = { s.tick dt with regs := t.regs, hintBad := 0 } := by
  obtain ⟨u, hu⟩ : ∃ u, u = (s.tick dt).setFld F.PLB_HINT_VALID 0 := ⟨_, rfl⟩
  have hr : (s.tick dt).onlyRegs u := hu ▸ onlyRegs_setFld ..
  have hk : s.keeps u [(.PLB_HINT, 0, 0)] := hu ▸ keeps_setFld (s.tick dt) F.PLB_HINT_VALID 0 ⟨Nat.one_pos, Nat.one_pos⟩
  have hf : u.flag F.PLB_HINT_VALID = false := hu ▸ flag_setFld_same _ F.PLB_HINT_VALID 0 _ _ (by decide)
  refine ⟨{ u with hintBad := 0 }, congrArg Host.Outcome.next ?_, hf, keeps_congr rfl hk, ?_⟩
  · rw [hu]
    exact if_pos h
  · rw [show u = { s.tick dt with regs := u.regs } from hr]

/-- What a check of the hint makes of the count of mismatches (R394). -/
def State.hintTried (s : State) (k : Nat) : State := ({ s with hintBad := min k 10 } : State).useFree

theorem speedHintCheck_leaves (h : s.flag F.PLB_HINT_VALID = true) (hst : s.flag F.ODO_STAT_STOPPED (s.fld F.PLB_HINT_ODO) = false)
    (hd : 0 < s.fld F.ODO_EDGE_DT_DT_NS (s.fld F.PLB_HINT_ODO)) :
    let u := s.fld F.PLB_HINT_ODO
    let rate := s.fld F.PLB_HINT_RATE
    let d := s.fld F.ODO_EDGE_DT_DT_NS u
    let bad := rate * s.fld F.PLB_HINT_TOL_PERMILLE * d < ((1000000000 : Int) - rate * d).natAbs * 1000
    ∃ t, exec (.speedHintCheck dt) s = .next t ∧ t.hintBad = (if bad then min (s.hintBad + 1) 10 else 0) ∧
      (bad → s.hintBad = 9 → t.flag F.PLB_HINT_MISMATCH = true ∧ t.out = s.out ++ [.report (.note 18 u)]) ∧
      (¬bad → t.out = s.out ∧ t.regs = s.regs) ∧ s.keeps t [(.PLB_HINT, 0, 0)] ∧
      t = { s.tick dt with regs := t.regs, hintBad := t.hintBad, freeCtr := s.freeCtr + 1, out := t.out } := by
  intro u rate d bad
  obtain ⟨k, hk⟩ : ∃ k, k = if bad then s.hintBad + 1 else 0 := ⟨_, rfl⟩
  obtain ⟨v, hv⟩ : ∃ v, v = (s.tick dt).hintTried k := ⟨_, rfl⟩
  have hbad : v.hintBad = min k 10 := hv ▸ rfl
  have hregs : v.regs = s.regs := hv ▸ rfl
  have hout : v.out = s.out := hv ▸ rfl
  have hframe : v = { s.tick dt with hintBad := v.hintBad, freeCtr := s.freeCtr + 1 } := hv ▸ rfl
  have hexec : exec (.speedHintCheck dt) s = .next (if k = 10 then (v.setFld F.PLB_HINT_MISMATCH 1).tell (.note 18 u) else v) := by
    have hedge : (s.tick dt).edgeRate u = (1000000000, d) := by
      have hst : (s.tick dt).flag F.ODO_STAT_STOPPED u = false := hst
      rw [State.edgeRate, hst, if_neg nofun, if_neg (show ¬ (s.tick dt).fld F.ODO_EDGE_DT_DT_NS u = 0 from Nat.pos_iff_ne_zero.1 hd)]
      rfl
    have hf (f : Fld) : v.fld f = s.fld f := State.fld_congr hregs ..
    have h : (s.tick dt).flag F.PLB_HINT_VALID = true := h
    change execSpeedHintCheck dt s = _
    unfold execSpeedHintCheck
    dsimp only
    rw [if_pos h, show (s.tick dt).fld F.PLB_HINT_ODO = u from rfl, hedge]
    dsimp only
    rw [hv, hk]
    rfl
  have hmin : min k 10 = if bad then min (s.hintBad + 1) 10 else 0 := by
    rw [hk]
    split <;> rfl
  rw [hexec]
  split
  · next hten =>
    obtain ⟨w, hw⟩ : ∃ w, w = v.setFld F.PLB_HINT_MISMATCH 1 := ⟨_, rfl⟩
    have hr : v.onlyRegs w := hw ▸ onlyRegs_setFld ..
    have hkw : v.keeps w [(.PLB_HINT, 0, 0)] := hw ▸ keeps_setFld v F.PLB_HINT_MISMATCH 1 ⟨Nat.one_pos, Nat.one_pos⟩
    have hf : w.flag F.PLB_HINT_MISMATCH = true := hw ▸ flag_setFld_same _ F.PLB_HINT_MISMATCH 1 _ _ (by decide)
    have hwb : w.hintBad = v.hintBad := by rw [show w = { v with regs := w.regs } from hr]
    have hwo : w.out = s.out := (onlyRegs_out hr).trans hout
    rw [← hw]
    refine ⟨w.tell (.note 18 u), rfl, hwb.trans (hbad.trans hmin), fun _ _ => ⟨hf, congrArg (· ++ _) hwo⟩, fun hn => ?_,
      keeps_congr rfl (keeps_trans (keeps_of_regs [] hregs) hkw), ?_⟩
    · rw [if_neg hn] at hk
      omega
    · rw [State.tell, State.emit, show w = { v with regs := w.regs } from hr, hframe]
  · next hten =>
    refine ⟨v, rfl, hbad.trans hmin, fun hb h9 => absurd (by rw [hk, if_pos hb, h9]) hten, fun _ => ⟨hout, hregs⟩, keeps_of_regs _ hregs, ?_⟩
    rw [hframe]

end

/-- Settles O50: each event of the plant bus by its own rule. -/
theorem plantBusAndHints : Obligations.PlantBusAndHints := by
  unfold Obligations.PlantBusAndHints
  intro dt b s x now others stat
  exact ⟨fun node f hm => ⟨fun hok => plbFrame_damaged hm hok, fun hok hlen hq hpay hnew hcap => plbFrame_seen hm hok hlen hq hpay hnew hcap⟩,
    fun attempt again hm => plbCollision_leaves attempt again hm,
    fun hm => ⟨beaconTimeout_falls hm, fun hb hp hid => beaconTimeout_takes hm hb hp hid⟩,
    fun cnt h => beaconReceived_leaves cnt h, fun p mac h => quarantineExpire_leaves p mac h,
    fun h => ⟨fun hst hd => speedHintCheck_leaves h hst hd, speedHintExpire_leaves h⟩⟩

end Sys2Proof.Machine
end

section
/-! Junction ports: what their operations leave (R401 to R403). -/
namespace Sys2Proof.Machine

section
variable (s : State) {j k : Nat} (x : Jct)

theorem State.jct_setJct_same : (s.setJct j x).jct j = x := mapGet_mapSet_same jct0 s.jcts j x
theorem State.jct_setJct_ne (h : k ≠ j) : (s.setJct j x).jct k = s.jct k := mapGet_mapSet_ne jct0 s.jcts x h

end

theorem onlyRegs_jct {s t : State} (h : s.onlyRegs t) (k : Nat) : t.jct k = s.jct k := by rw [show t = { s with regs := t.regs } from h]; rfl

/-- `t` differs from `s` in the registers of `l`, in junction port `j` and in what leaves alone. -/
structure State.onLink (j : Nat) (l : List (Reg × Nat × Nat)) (s t : State) : Prop where
  others : ∀ k, k ≠ j → t.jct k = s.jct k
  keep : s.keeps t l
  frame : t = { s with regs := t.regs, jcts := t.jcts, out := t.out }

section
variable {j : Nat} {l : List (Reg × Nat × Nat)} {s t u : State}

theorem onLink_refl (s : State) : s.onLink j l s := ⟨fun _ _ => rfl, keeps_refl _ _, rfl⟩

theorem onLink_trans (h : s.onLink j l t) (h' : t.onLink j l u) : s.onLink j l u :=
  ⟨fun k hk => (h'.others k hk).trans (h.others k hk), keeps_mono (keeps_trans h.keep h'.keep) (by simp), by rw [h'.frame, h.frame]⟩

theorem onLink_mono {l' : List (Reg × Nat × Nat)} (h : s.onLink j l t) (hl : ∀ x ∈ l, x ∈ l') : s.onLink j l' t :=
  ⟨h.others, keeps_mono h.keep hl, h.frame⟩

theorem onLink_onlyRegs (h : s.onlyRegs t) (hk : s.keeps t l) : s.onLink j l t :=
  ⟨fun k _ => onlyRegs_jct h k, hk, by rw [show t = { s with regs := t.regs } from h]⟩

theorem onLink_setFld (s : State) (f : Fld) (v : Nat) (hf : regHas f.reg j 0) (hm : (f.reg, j, 0) ∈ l) : s.onLink j l (s.setFld f v j) :=
  onLink_onlyRegs (onlyRegs_setFld ..) (keeps_mono (keeps_setFld s f v hf) fun _ hx => List.mem_singleton.1 hx ▸ hm)

theorem onLink_setJct (s : State) (x : Jct) : s.onLink j l (s.setJct j x) := ⟨fun _ hk => s.jct_setJct_ne x hk, keeps_of_regs _ rfl, rfl⟩
theorem onLink_emit (s : State) (o : Output) : s.onLink j l (s.emit o) := ⟨fun _ _ => rfl, keeps_of_regs _ rfl, rfl⟩

theorem onLink_running (h : s.onLink j l t) : t.running = s.running := by rw [h.frame]

end

section
variable {l : List (Reg × Nat × Nat)} (s : State) (j : Fin 4)

/-- A port goes to a state (R401). -/
theorem setJctState_leaves {v : Nat} (hv : v < 8) : (s.setJctState j v).jctState j = v ∧ (s.setJctState j v).out = s.out ∧
    (s.setJctState j v).jct j = s.jct j ∧ s.onLink j [(.JCT_STAT, j.val, 0)] (s.setJctState j v) :=
  ⟨fld_setFld_eq _ _ (by decide) hv, onlyRegs_out (onlyRegs_setFld ..), onlyRegs_jct (onlyRegs_setFld ..) j, onLink_setFld s F.JCT_STAT_STATE v ⟨j.isLt, Nat.one_pos⟩ (List.mem_singleton_self _)⟩

theorem setJctState_fld {v : Nat} {g : Fld} (h : F.JCT_STAT_STATE.apart g 4 = true) : (s.setJctState j v).fld g j = s.fld g j :=
  fld_setFld_at s v j.isLt h

/-- The rates of a port (R403). -/
theorem jctRates_onlyRegs (j : Nat) : s.onlyRegs (s.jctRates j) :=
  onlyRegs_trans (onlyRegs_trans (onlyRegs_setFld ..) (onlyRegs_setFld ..)) (onlyRegs_setFld ..)

theorem jctRates_leaves : (s.jctRates j).out = s.out ∧ (s.jctRates j).jct j = s.jct j ∧
    s.onLink j [(.JCT_STAT, j.val, 0), (.JCT_RSV, j.val, 0)] (s.jctRates j) := by
  have hstep (v : State) {f : Fld} (n : Nat) (hf : f.reg = .JCT_STAT ∨ f.reg = .JCT_RSV) :
      v.onLink j [(.JCT_STAT, j.val, 0), (.JCT_RSV, j.val, 0)] (v.setFld f n j) := by
    obtain hf | hf := hf
    · exact onLink_setFld v f n (hf ▸ ⟨j.isLt, Nat.one_pos⟩) (by simp [hf])
    · exact onLink_setFld v f n (hf ▸ ⟨j.isLt, Nat.one_pos⟩) (by simp [hf])
  exact ⟨onlyRegs_out (jctRates_onlyRegs s j), onlyRegs_jct (jctRates_onlyRegs s j) j, onLink_trans (onLink_trans (hstep _ _ (.inr rfl)) (hstep _ _ (.inr rfl))) (hstep _ _ (.inl rfl))⟩

theorem jctRates_fld {g : Fld} (h1 : F.JCT_RSV_RSV_MBPS.apart g 4 = true) (h2 : F.JCT_RSV_CAP_MBPS.apart g 4 = true)
    (h3 : F.JCT_STAT_OVER.apart g 4 = true) : (s.jctRates j).fld g j = s.fld g j :=
  (fld_setFld_at _ _ j.isLt h3).trans ((fld_setFld_at _ _ j.isLt h2).trans (fld_setFld_at _ _ j.isLt h1))

/-- Every lane trains again (R402 step 7). -/
theorem retrain_leaves (x : Jct) : let t := ((s.setJctState j 1).setJct j x).inc F.JCT_ERRCNT_RETRAINS j
    t.jctState j = 1 ∧ t.fld F.JCT_ERRCNT_RETRAINS j = min (s.fld F.JCT_ERRCNT_RETRAINS j + 1) 255 ∧ t.jct j = x ∧ t.out = s.out ∧
      s.onLink j [(.JCT_STAT, j.val, 0), (.JCT_ERRCNT, j.val, 0)] t := by
  intro t
  obtain ⟨h1, h2, -, h4⟩ := setJctState_leaves s j (v := 1) (by decide)
  obtain ⟨u, hu⟩ : ∃ u, u = s.setJctState j 1 := ⟨_, rfl⟩
  have hcnt : u.fld F.JCT_ERRCNT_RETRAINS j = s.fld F.JCT_ERRCNT_RETRAINS j := hu ▸ setJctState_fld s j (by decide)
  obtain ⟨v, hv⟩ : ∃ v, v = u.setJct j x := ⟨_, rfl⟩
  have hregs : v.regs = u.regs := hv ▸ rfl
  have ht : t = v.inc F.JCT_ERRCNT_RETRAINS j := by rw [hv, hu]
  have hr : v.onlyRegs t := ht ▸ onlyRegs_inc ..
  rw [← hu] at h1 h2 h4
  refine ⟨?_, ?_, (onlyRegs_jct hr j).trans (hv ▸ u.jct_setJct_same x), (onlyRegs_out hr).trans (hv ▸ h2), ?_⟩
  · rw [State.jctState, ht, fld_inc_at v j.isLt (by decide), State.fld_congr hregs]
    exact h1
  · rw [ht, State.fld_inc_same _ _ _ _ (by decide), State.fld_congr hregs, hcnt]
    rfl
  · refine onLink_trans (onLink_mono h4 (by simp)) (onLink_trans (hv ▸ onLink_setJct u x) ?_)
    rw [ht]
    exact onLink_setFld v F.JCT_ERRCNT_RETRAINS _ ⟨j.isLt, Nat.one_pos⟩ (by simp)

/-- The lanes that a condition names. -/
def laneMask (c : Nat → Bool) : Nat := (List.range 4).foldl (fun n i => if c i then n + 2 ^ i else n) 0

theorem bitsOf_laneMask (c : Nat → Bool) : ∀ i < 4, bitsOf (laneMask c) i 1 = (c i).toNat := by
  have h : ∀ a b c d : Bool, ∀ i < 4, bitsOf ((((if a then 1 else 0) + if b then 2 else 0) + if c then 4 else 0) + if d then 8 else 0) i 1 =
      ([a, b, c, d].getD i false).toNat := by decide
  have hm : laneMask c = (((if c 0 then 1 else 0) + if c 1 then 2 else 0) + if c 2 then 4 else 0) + if c 3 then 8 else 0 := by
    rw [laneMask, show List.range 4 = [0, 1, 2, 3] from rfl]
    simp only [List.foldl]
    cases c 0 <;> cases c 1 <;> cases c 2 <;> cases c 3 <;> rfl
  intro i hi
  rw [hm, h _ _ _ _ i hi]
  match i, hi with
  | 0, _ | 1, _ | 2, _ | 3, _ => rfl

theorem foldl_lanes_congr {p q : Nat → Prop} [DecidablePred p] [DecidablePred q] (h : ∀ i < 4, p i ↔ q i) :
    (List.range 4).foldl (fun n i => if p i then n + 2 ^ i else n) 0 = (List.range 4).foldl (fun n i => if q i then n + 2 ^ i else n) 0 :=
  List.foldl_ext _ _ _ fun _ i hi => if_congr (h i (List.mem_range.1 hi)) rfl rfl

end

end Sys2Proof.Machine
end

section
/-! A write of JCT_CFG and the end of lane training (R401, R402). -/
namespace Sys2Proof.Machine

section
variable {dt : Nat} {j : Fin 4} {s : State}

/-- JCT_STAT of a port cleared. -/
theorem clearStat_leaves (s : State) (j : Fin 4) : (s.setReg .JCT_STAT 0 j).out = s.out ∧ (s.setReg .JCT_STAT 0 j).jct j = s.jct j ∧
    (∀ f : Fld, f.reg = .JCT_STAT → (s.setReg .JCT_STAT 0 j).fld f j = 0) ∧ s.onLink j [(.JCT_STAT, j.val, 0)] (s.setReg .JCT_STAT 0 j) := by
  have hr : s.onlyRegs (s.setReg .JCT_STAT 0 j) := onlyRegs_setReg ..
  refine ⟨onlyRegs_out hr, onlyRegs_jct hr j, fun f hf => ?_, onLink_onlyRegs hr (keeps_setReg s 0 ⟨j.isLt, Nat.one_pos⟩)⟩
  rw [State.fld, hf, State.reg_setReg_same]
  simp [bitsOf]

/-- The port as a write of JCT_CFG configures it. -/
theorem jctCfg_stored (s : State) (j : Fin 4) (v : Nat) : let u := (s.setFld F.JCT_CFG_EN (bitsOf v 31 1) j).setFld F.JCT_CFG_LANE_EN (bitsOf v 24 4) j
    u.fld F.JCT_CFG_EN j = bitsOf v 31 1 ∧ u.fld F.JCT_CFG_LANE_EN j = bitsOf v 24 4 ∧ s.keeps u [(.JCT_CFG, j.val, 0)] ∧ s.onlyRegs u :=
  ⟨(fld_setFld_at _ _ j.isLt (by decide)).trans (fld_setFld_eq _ _ (by decide) (bitsOf_lt ..)), fld_setFld_eq _ _ (by decide) (bitsOf_lt ..),
    keeps_setFld_setFld (f := F.JCT_CFG_EN) (g := F.JCT_CFG_LANE_EN) s _ _ rfl ⟨j.isLt, Nat.one_pos⟩, onlyRegs_setFld_setFld ..⟩

/-- What enabling and disabling make of a port that is configured (R401). -/
def State.jctSwitch (u : State) (j : Nat) (on : Bool) : State :=
  if on then ((u.setJct j { jct0 with widened := (u.jct j).widened }).setReg .JCT_STAT 0 j).setJctState j 1
  else ((u.setReg .JCT_STAT 0 j).setJct j { jct0 with widened := (u.jct j).widened }).jctRates j

theorem jctSwitch_leaves (u : State) (j : Fin 4) (on : Bool) : let t := u.jctSwitch j on
    t.jctState j = on.toNat ∧ t.fld F.JCT_STAT_LANES j = 0 ∧ t.jct j = { jct0 with widened := (u.jct j).widened } ∧ t.out = u.out ∧
      u.onLink j [(.JCT_STAT, j.val, 0), (.JCT_RSV, j.val, 0)] t := by
  obtain ⟨x, hx⟩ : ∃ x, x = { jct0 with widened := (u.jct j).widened } := ⟨_, rfl⟩
  cases on with
  | true =>
    obtain ⟨a, ha⟩ : ∃ a, a = u.setJct j x := ⟨_, rfl⟩
    have haj : a.jct j = x := ha ▸ u.jct_setJct_same x
    have hao : a.out = u.out := ha ▸ rfl
    have hau : u.onLink j [(.JCT_STAT, j.val, 0), (.JCT_RSV, j.val, 0)] a := ha ▸ onLink_setJct u x
    obtain ⟨hbo, hbj, hbf, hbl⟩ := clearStat_leaves a j
    obtain ⟨b, hb⟩ : ∃ b, b = a.setReg .JCT_STAT 0 j := ⟨_, rfl⟩
    rw [← hb] at hbo hbj hbf hbl
    obtain ⟨hcs, hco, hcj, hcl⟩ := setJctState_leaves b j (v := 1) (by decide)
    have hx' : u.jctSwitch j true = b.setJctState j 1 := by rw [hb, ha, hx]; rfl
    rw [hx', ← hx]
    exact ⟨hcs, (setJctState_fld b j (by decide)).trans (hbf _ rfl), hcj.trans (hbj.trans haj), hco.trans (hbo.trans hao),
      onLink_trans hau (onLink_mono (onLink_trans hbl hcl) (by simp))⟩
  | false =>
    obtain ⟨hao, haj, haf, hal⟩ := clearStat_leaves u j
    obtain ⟨a, ha⟩ : ∃ a, a = u.setReg .JCT_STAT 0 j := ⟨_, rfl⟩
    rw [← ha] at hao haj haf hal
    obtain ⟨b, hb⟩ : ∃ b, b = a.setJct j x := ⟨_, rfl⟩
    have hbj : b.jct j = x := hb ▸ a.jct_setJct_same x
    have hbo : b.out = a.out := hb ▸ rfl
    have hbr : b.regs = a.regs := hb ▸ rfl
    have hbl : a.onLink j [(.JCT_STAT, j.val, 0), (.JCT_RSV, j.val, 0)] b := hb ▸ onLink_setJct a x
    obtain ⟨hco, hcj, hcl⟩ := jctRates_leaves b j
    have hx' : u.jctSwitch j false = b.jctRates j := by rw [hb, ha, hx]; rfl
    have hfld {f : Fld} (hf : f.reg = .JCT_STAT) : b.fld f j = 0 := (State.fld_congr hbr ..).trans (haf f hf)
    rw [hx', ← hx]
    exact ⟨(jctRates_fld b j (by decide) (by decide) (by decide)).trans (hfld rfl),
      (jctRates_fld b j (by decide) (by decide) (by decide)).trans (hfld rfl), hcj.trans hbj, hco.trans (hbo.trans hao),
      onLink_trans (onLink_mono hal (by simp)) (onLink_trans hbl hcl)⟩

theorem jctCfgWrite_eq (s : State) (j v : Nat) : s.jctCfgWrite j v =
    if bitsOf v 31 1 = s.fld F.JCT_CFG_EN j then (s.setFld F.JCT_CFG_EN (bitsOf v 31 1) j).setFld F.JCT_CFG_LANE_EN (bitsOf v 24 4) j
    else ((s.setFld F.JCT_CFG_EN (bitsOf v 31 1) j).setFld F.JCT_CFG_LANE_EN (bitsOf v 24 4) j).jctSwitch j (s.fld F.JCT_CFG_EN j == 0) := by
  unfold State.jctCfgWrite State.jctSwitch
  dsimp only
  split
  · rfl
  · split
    · next h0 => rw [if_pos (beq_iff_eq.2 h0)]
    · next h0 => rw [if_neg (by simpa using h0)]

/-- A write of JCT_CFG (R401, R409). -/
theorem jctCfg_leaves (r : Requester) (v : Word) (ha : s.access (regAddr .JCT_CFG j) 4 = .ok (hitOf .JCT_CFG j 0)) :
    ∃ t, exec (.jctCfgWrite dt r j v) s = .next t ∧ t.fld F.JCT_CFG_EN j = bitsOf v.toNat 31 1 ∧ t.fld F.JCT_CFG_LANE_EN j = bitsOf v.toNat 24 4 ∧
      t.out = s.out ∧ (s.tick dt).onLink j [(.JCT_STAT, j.val, 0), (.JCT_CFG, j.val, 0), (.JCT_RSV, j.val, 0)] t ∧
      (if bitsOf v.toNat 31 1 = s.fld F.JCT_CFG_EN j then t.reg .JCT_STAT j = s.reg .JCT_STAT j ∧ t.jct j = s.jct j
        else t.jctState j = bitsOf v.toNat 31 1 ∧ t.fld F.JCT_STAT_LANES j = 0 ∧ t.jct j = { jct0 with widened := (s.jct j).widened }) := by
  have hx : exec (.jctCfgWrite dt r j v) s = .next ((s.tick dt).jctCfgWrite j v.toNat) :=
    congrArg Host.Outcome.next (accessing_of_ok (s := s.tick dt) ha r v.toNat fun _ => (s.tick dt).jctCfgWrite j v.toNat)
  rw [hx, jctCfgWrite_eq]
  obtain ⟨hen, hlane, hk, hr⟩ := jctCfg_stored (s.tick dt) j v.toNat
  obtain ⟨u, hu⟩ : ∃ u, u = ((s.tick dt).setFld F.JCT_CFG_EN (bitsOf v.toNat 31 1) j).setFld F.JCT_CFG_LANE_EN (bitsOf v.toNat 24 4) j := ⟨_, rfl⟩
  rw [← hu] at hen hlane hk hr ⊢
  refine ⟨_, rfl, ?_⟩
  have hlink : (s.tick dt).onLink j [(.JCT_STAT, j.val, 0), (.JCT_CFG, j.val, 0), (.JCT_RSV, j.val, 0)] u :=
    onLink_onlyRegs hr (keeps_mono hk (by simp))
  by_cases hsame : bitsOf v.toNat 31 1 = s.fld F.JCT_CFG_EN j
  · have hsame' : bitsOf v.toNat 31 1 = (s.tick dt).fld F.JCT_CFG_EN j := hsame
    rw [if_pos hsame', if_pos hsame]
    exact ⟨hen, hlane, (onlyRegs_out hr).trans rfl, hlink, hk _ _ _ ⟨j.isLt, Nat.one_pos⟩ (by simp), onlyRegs_jct hr j⟩
  · have hsame' : ¬ bitsOf v.toNat 31 1 = (s.tick dt).fld F.JCT_CFG_EN j := hsame
    rw [if_neg hsame', if_neg hsame]
    obtain ⟨h1, h2, h3, h4, h5⟩ := jctSwitch_leaves u j ((s.tick dt).fld F.JCT_CFG_EN j == 0)
    have hcfg {f : Fld} (hf : f.reg = .JCT_CFG) : (u.jctSwitch j ((s.tick dt).fld F.JCT_CFG_EN j == 0)).fld f j = u.fld f j :=
      fld_of_keeps h5.keep (hf ▸ ⟨j.isLt, Nat.one_pos⟩) (by simp [hf])
    refine ⟨(hcfg rfl).trans hen, (hcfg rfl).trans hlane, h4.trans ((onlyRegs_out hr).trans rfl), onLink_trans hlink (onLink_mono h5 (by simp)),
      h1.trans ?_, h2, h3.trans (by rw [onlyRegs_jct hr]; rfl)⟩
    have h2 : s.fld F.JCT_CFG_EN j < 2 := State.fld_lt s F.JCT_CFG_EN j 0
    have h3 : bitsOf v.toNat 31 1 < 2 := bitsOf_lt ..
    change (s.fld F.JCT_CFG_EN j == 0).toNat = _
    obtain h0 | h0 : s.fld F.JCT_CFG_EN j = 0 ∨ s.fld F.JCT_CFG_EN j = 1 := by omega
    · rw [h0]
      exact (show bitsOf v.toNat 31 1 = 1 by omega).symm
    · rw [h0]
      exact (show bitsOf v.toNat 31 1 = 0 by omega).symm

end

end Sys2Proof.Machine
end

section
/-! The end of lane training, and HELLO (R401, R402). -/
namespace Sys2Proof.Machine

section
variable {dt : Nat} {j : Fin 4} {s : State}

/-- Lanes that training found good. -/
def State.lanesFound (s : State) (j : Nat) (ok : Nat) : Nat :=
  (List.range 4).foldl (fun n i => if bitsOf (s.fld F.JCT_CFG_LANE_EN j) i 1 = 1 ∧ bitsOf ok i 1 = 1 then n + 2 ^ i else n) 0

/-- Lanes that training found failed. -/
def lanesLost (ok : Nat) : Nat := laneMask fun i => bitsOf ok i 1 == 0

theorem lanesLost_eq (x : Jct) {st : Nat} (h : st = 1) (ok : Nat) :
    (List.range 4).foldl (fun n i => if bitsOf ok i 1 = 0 ∨ (st = 5 ∧ bitsOf x.failed i 1 = 1) then n + 2 ^ i else n) 0 = lanesLost ok := by
  unfold lanesLost laneMask
  refine List.foldl_ext _ _ _ fun n i _ => if_congr ?_ rfl rfl
  rw [h, beq_iff_eq]
  exact or_iff_left fun hc => absurd hc.1 (by decide)

/-- The lanes that may work after the training are the ones it found good. -/
theorem jctLanes_found (s : State) (j : Nat) (x : Jct) (ok : Nat) : (s.setJct j { x with failed := lanesLost ok }).jctLanes j = s.lanesFound j ok := by
  unfold State.jctLanes State.lanesFound
  rw [State.jct_setJct_same]
  refine foldl_lanes_congr fun i hi => and_congr Iff.rfl ?_
  have h2 : bitsOf ok i 1 < 2 := bitsOf_lt ..
  change bitsOf (lanesLost ok) i 1 = 0 ↔ _
  rw [lanesLost, bitsOf_laneMask _ i hi]
  obtain h0 | h0 : bitsOf ok i 1 = 0 ∨ bitsOf ok i 1 = 1 := by omega
  · rw [h0]
    decide
  · rw [h0]
    decide

/-- A port that says HELLO at the width `w` (R401). -/
def State.jctHellos (s : State) (j w : Nat) (f : Jct → Jct) : State :=
  let u := (s.setFld F.JCT_STAT_LANES w j).setJctState j 2
  ((u.setJct j (f (u.jct j))).jctRates j).sendHello j

theorem sendHello_eq (s : State) (j : Nat) : s.sendHello j = s.emit (.flit j 0 2 (s.jct j).nextSeq (((s.jct j).expect + 4095) % 4096) 0
    ((s.jct j).freed0 % 256) (some (.msg (.hello (s.fld F.JCT_SYS_DEVNUM) (s.fld F.JCT_SYS_SYSID) s.fwMajor (s.fld F.JCT_STAT_LANES j) 32 2048)))) :=
  rfl

theorem jctHellos_leaves (s : State) (j : Fin 4) {w : Nat} (hw : w < 8) (f : Jct → Jct) : let t := s.jctHellos j w f
    t.jctState j = 2 ∧ t.fld F.JCT_STAT_LANES j = w ∧ t.jct j = f (s.jct j) ∧
      t.out = s.out ++ [.flit j 0 2 (f (s.jct j)).nextSeq (((f (s.jct j)).expect + 4095) % 4096) 0 ((f (s.jct j)).freed0 % 256)
        (some (.msg (.hello (s.fld F.JCT_SYS_DEVNUM) (s.fld F.JCT_SYS_SYSID) s.fwMajor w 32 2048)))] ∧
      s.onLink j [(.JCT_STAT, j.val, 0), (.JCT_RSV, j.val, 0)] t := by
  intro t
  obtain ⟨a, ha⟩ : ∃ a, a = s.setFld F.JCT_STAT_LANES w j := ⟨_, rfl⟩
  have har : s.onlyRegs a := ha ▸ onlyRegs_setFld ..
  have hal : s.onLink j [(.JCT_STAT, j.val, 0), (.JCT_RSV, j.val, 0)] a :=
    ha ▸ onLink_setFld s F.JCT_STAT_LANES w ⟨j.isLt, Nat.one_pos⟩ (by simp)
  have haw : a.fld F.JCT_STAT_LANES j = w := ha ▸ fld_setFld_eq _ _ (by decide) hw
  obtain ⟨hbs, hbo, hbj, hbl⟩ := setJctState_leaves a j (v := 2) (by decide)
  have hbw : (a.setJctState j 2).fld F.JCT_STAT_LANES j = w := (setJctState_fld a j (by decide)).trans haw
  obtain ⟨b, hb⟩ : ∃ b, b = a.setJctState j 2 := ⟨_, rfl⟩
  rw [← hb] at hbs hbo hbj hbl hbw
  have hj : b.jct j = s.jct j := hbj.trans (onlyRegs_jct har j)
  obtain ⟨c, hc⟩ : ∃ c, c = b.setJct j (f (b.jct j)) := ⟨_, rfl⟩
  have hcj : c.jct j = f (s.jct j) := (hc ▸ b.jct_setJct_same _).trans (by rw [hj])
  have hco : c.out = s.out := (show c.out = b.out from hc ▸ rfl).trans (hbo.trans (onlyRegs_out har))
  have hcr : c.regs = b.regs := hc ▸ rfl
  have hcl : b.onLink j [(.JCT_STAT, j.val, 0), (.JCT_RSV, j.val, 0)] c := hc ▸ onLink_setJct b _
  obtain ⟨hdo, hdj, hdl⟩ := jctRates_leaves c j
  have hds : (c.jctRates j).jctState j = 2 :=
    (jctRates_fld c j (by decide) (by decide) (by decide)).trans ((State.fld_congr hcr ..).trans hbs)
  have hdw : (c.jctRates j).fld F.JCT_STAT_LANES j = w :=
    (jctRates_fld c j (by decide) (by decide) (by decide)).trans ((State.fld_congr hcr ..).trans hbw)
  obtain ⟨d, hd⟩ : ∃ d, d = c.jctRates j := ⟨_, rfl⟩
  rw [← hd] at hdo hdj hdl hds hdw
  have hall : s.onLink j [(.JCT_STAT, j.val, 0), (.JCT_RSV, j.val, 0)] d :=
    onLink_trans hal (onLink_trans (onLink_mono hbl (by simp)) (onLink_trans hcl hdl))
  have hsys {g : Fld} (hg : g.reg = .JCT_SYS) : d.fld g = s.fld g := fld_of_keeps hall.keep (hg ▸ ⟨Nat.one_pos, Nat.one_pos⟩) (by simp [hg])
  have ht : t = d.sendHello j := by rw [hd, hc, hb, ha]; rfl
  have hout : d.out = s.out := hdo.trans hco
  have hmaj : d.fwMajor = s.fwMajor := by rw [State.fwMajor, State.fwMajor, onLink_running hall]
  rw [ht, sendHello_eq]
  refine ⟨hds, hdw, hdj.trans hcj, ?_, onLink_trans hall (onLink_emit ..)⟩
  change d.out ++ _ = _
  rw [hout, hdj, hcj, hsys rfl, hsys rfl, hmaj, hdw]

theorem widthOf_lt (n : Nat) : widthOf n < 8 := by
  unfold widthOf
  split
  · decide
  · split
    · decide
    · split <;> decide

theorem exec_training {ok : Fin 16} (hst : s.jctState j = 1) : exec (.laneTrainingComplete dt j ok) s = .next (
    if widthOf (s.lanesFound j ok) = 0 then
      (((s.tick dt).setJct j { s.jct j with failed := lanesLost ok }).setJctState j 1 |>.setJct j { s.jct j with failed := 0 }).inc F.JCT_ERRCNT_RETRAINS j
    else ((s.tick dt).setJct j { s.jct j with failed := lanesLost ok }).jctHellos j (widthOf (s.lanesFound j ok)) fun x => { x.restart with dropIn := false }) := by
  have hst' : (s.tick dt).jctState j = 1 := hst
  have hf := lanesLost_eq ((s.tick dt).jct j) hst' ok
  have hw := jctLanes_found (s.tick dt) j ((s.tick dt).jct j) ok
  change execLaneTrainingComplete dt j ok s = _
  unfold execLaneTrainingComplete
  dsimp only
  rw [if_neg (fun h => h.1 hst'), hf, hw, hst']
  change (if widthOf (s.lanesFound j ok) = 0 then _ else _) = _
  split
  · rfl
  · rw [show decide ((1 : Nat) = 5 ∧ _) = false from decide_eq_false fun h => absurd h.1 (by decide)]
    rfl

theorem trained_hello {ok : Fin 16} (hst : s.jctState j = 1) (hw : widthOf (s.lanesFound j ok) ≠ 0) :
    ∃ t, exec (.laneTrainingComplete dt j ok) s = .next t ∧ t.jctState j = 2 ∧ t.fld F.JCT_STAT_LANES j = widthOf (s.lanesFound j ok) ∧
      t.out = s.out ++ [.flit j 0 2 (s.jct j).nextSeq (((s.jct j).expect + 4095) % 4096) 0 0
        (some (.msg (.hello (s.fld F.JCT_SYS_DEVNUM) (s.fld F.JCT_SYS_SYSID) s.fwMajor (widthOf (s.lanesFound j ok)) 32 2048)))] ∧
      (s.tick dt).onLink j [(.JCT_STAT, j.val, 0), (.JCT_RSV, j.val, 0)] t := by
  obtain ⟨u, hu⟩ : ∃ u, u = (s.tick dt).setJct j { s.jct j with failed := lanesLost ok } := ⟨_, rfl⟩
  have huj : u.jct j = { s.jct j with failed := lanesLost ok } := hu ▸ (s.tick dt).jct_setJct_same _
  have hul : (s.tick dt).onLink j [(.JCT_STAT, j.val, 0), (.JCT_RSV, j.val, 0)] u := hu ▸ onLink_setJct ..
  have huo : u.out = s.out := hu ▸ rfl
  have hur : u.regs = s.regs := hu ▸ rfl
  have hum : u.fwMajor = s.fwMajor := hu ▸ rfl
  obtain ⟨h1, h2, -, h4, h5⟩ := jctHellos_leaves u j (widthOf_lt (s.lanesFound j ok)) fun x => { x.restart with dropIn := false }
  refine ⟨_, (exec_training hst).trans (by rw [if_neg hw, ← hu]), h1, h2, h4.trans ?_, onLink_trans hul h5⟩
  rw [huo, huj, State.fld_congr hur, State.fld_congr hur, hum]
  rfl

theorem trained_again {ok : Fin 16} (hst : s.jctState j = 1) (hw : widthOf (s.lanesFound j ok) = 0) :
    ∃ t, exec (.laneTrainingComplete dt j ok) s = .next t ∧ t.out = s.out ∧ t.jctState j = 1 ∧
      t.fld F.JCT_ERRCNT_RETRAINS j = min (s.fld F.JCT_ERRCNT_RETRAINS j + 1) 255 ∧ (t.jct j).failed = 0 ∧
      (s.tick dt).onLink j [(.JCT_STAT, j.val, 0), (.JCT_ERRCNT, j.val, 0)] t := by
  obtain ⟨u, hu⟩ : ∃ u, u = (s.tick dt).setJct j { s.jct j with failed := lanesLost ok } := ⟨_, rfl⟩
  have hul : (s.tick dt).onLink j [(.JCT_STAT, j.val, 0), (.JCT_ERRCNT, j.val, 0)] u := hu ▸ onLink_setJct ..
  have huo : u.out = s.out := hu ▸ rfl
  have hur : u.regs = s.regs := hu ▸ rfl
  obtain ⟨h1, h2, h3, h4, h5⟩ := retrain_leaves u j { s.jct j with failed := 0 }
  refine ⟨_, (exec_training hst).trans (by rw [if_pos hw, ← hu]), h4.trans huo, h1, h2.trans (by rw [State.fld_congr hur]), by rw [h3], onLink_trans hul h5⟩

end

end Sys2Proof.Machine
end

section
/-! HELLO arrives, and lanes fail and come back (R401, R402). -/
namespace Sys2Proof.Machine

section
variable {dt : Nat} {j : Fin 4} {s : State}

/-- Why a HELLO is refused (R401). -/
def State.helloWhy (s : State) (dev sid major : Nat) : Nat :=
  if sid ≠ s.fld F.JCT_SYS_SYSID then 1 else if dev = s.fld F.JCT_SYS_DEVNUM then 2 else if major ≠ s.fwMajor then 3 else 0

theorem helloWhy_lt (s : State) (dev sid major : Nat) : s.helloWhy dev sid major < 16 := by
  unfold State.helloWhy
  split
  · decide
  · split
    · decide
    · split <;> decide

/-- The port once a HELLO is noted (R401). -/
def State.helloNoted (s : State) (j dev : Nat) (x : Jct) (why : Nat) : State :=
  ((s.setFld F.JCT_STAT_PARTNER dev j).setJct j x).setFld F.JCT_STAT_REASON why j

theorem helloNoted_leaves (s : State) (j : Fin 4) {dev why : Nat} (x : Jct) (hd : dev < 256) (hw : why < 16) : let t := s.helloNoted j dev x why
    t.fld F.JCT_STAT_PARTNER j = dev ∧ t.fld F.JCT_STAT_REASON j = why ∧ t.jct j = x ∧ t.out = s.out ∧ s.onLink j [(.JCT_STAT, j.val, 0)] t := by
  obtain ⟨a, ha⟩ : ∃ a, a = s.setFld F.JCT_STAT_PARTNER dev j := ⟨_, rfl⟩
  obtain ⟨b, hb⟩ : ∃ b, b = a.setJct j x := ⟨_, rfl⟩
  have har : s.onlyRegs a := ha ▸ onlyRegs_setFld ..
  have hap : a.fld F.JCT_STAT_PARTNER j = dev := ha ▸ fld_setFld_eq _ _ (by decide) hd
  have hal : s.onLink j [(.JCT_STAT, j.val, 0)] a := ha ▸ onLink_setFld s F.JCT_STAT_PARTNER dev ⟨j.isLt, Nat.one_pos⟩ (by simp)
  have hbr : b.regs = a.regs := hb ▸ rfl
  have hbj : b.jct j = x := hb ▸ a.jct_setJct_same x
  have hbo : b.out = a.out := hb ▸ rfl
  have hbl : a.onLink j [(.JCT_STAT, j.val, 0)] b := hb ▸ onLink_setJct ..
  rw [State.helloNoted, ← ha, ← hb]
  have hc : b.onlyRegs (b.setFld F.JCT_STAT_REASON why j) := onlyRegs_setFld ..
  exact ⟨(fld_setFld_at _ _ j.isLt (by decide)).trans ((State.fld_congr hbr ..).trans hap), fld_setFld_eq _ _ (by decide) hw,
    (onlyRegs_jct hc j).trans hbj, (onlyRegs_out hc).trans (hbo.trans (onlyRegs_out har)),
    onLink_trans hal (onLink_trans hbl (onLink_setFld b F.JCT_STAT_REASON why ⟨j.isLt, Nat.one_pos⟩ (by simp)))⟩

/-- A port that a HELLO makes ACTIVE (R401). -/
def State.helloActive (s : State) (j cr0 cr1 : Nat) (drop : Bool) : State :=
  let s := (s.setJct j { s.jct j with adv0 := cr0, adv1 := cr1 }).setJctState j 3
  let s := s.jctReplay j
  let s := if drop then (s.inc F.JCT_ERRCNT_DEGRADES j).tell (.note 12 j) else s
  s.jctPump j (s.jct j).txq.length

theorem helloIn_eq (s : State) (j dev sid major cr0 cr1 : Nat) (hst : s.jctState j = 2)
    (hsid : (s.setFld F.JCT_STAT_PARTNER dev j).fld F.JCT_SYS_SYSID = s.fld F.JCT_SYS_SYSID)
    (hdev : (s.setFld F.JCT_STAT_PARTNER dev j).fld F.JCT_SYS_DEVNUM = s.fld F.JCT_SYS_DEVNUM) : s.helloIn j dev sid major cr0 cr1 =
    if s.helloWhy dev sid major ≠ 0 then
      (s.helloNoted j dev { s.jct j with psys := sid, major := major, dropIn := false } (s.helloWhy dev sid major)).setJctState j 4
    else (s.helloNoted j dev { s.jct j with psys := sid, major := major, dropIn := false } (s.helloWhy dev sid major)).helloActive j cr0 cr1
      (s.jct j).dropIn := by
  have hwhy : ((s.setFld F.JCT_STAT_PARTNER dev j).setJct j { s.jct j with psys := sid, major := major, dropIn := false }).helloWhy dev sid major =
      s.helloWhy dev sid major := by
    change (if sid ≠ (s.setFld F.JCT_STAT_PARTNER dev j).fld F.JCT_SYS_SYSID then 1 else
      if dev = (s.setFld F.JCT_STAT_PARTNER dev j).fld F.JCT_SYS_DEVNUM then 2 else if major ≠ s.fwMajor then 3 else 0) = _
    rw [hsid, hdev]
    rfl
  rw [← hwhy]
  unfold State.helloIn
  rw [if_neg (not_not_intro hst)]
  rfl

theorem exec_hello (s : State) {dev : Fin 256} {sid : Fin 65536} {major lanes cr0 cr1 : Nat} (hst : s.jctState j = 2) :
    ∃ u, (s.tick dt).onLink j [] u ∧ u.jct j = { s.jct j with plane := lanes } ∧ u.out = s.out ∧
      exec (.jctHello dt j dev sid major lanes cr0 cr1) s = .next (
        if s.helloWhy dev sid major ≠ 0 then
          (u.helloNoted j dev { s.jct j with plane := lanes, psys := sid, major := major, dropIn := false } (s.helloWhy dev sid major)).setJctState j 4
        else (u.helloNoted j dev { s.jct j with plane := lanes, psys := sid, major := major, dropIn := false } (s.helloWhy dev sid major)).helloActive
          j cr0 cr1 (s.jct j).dropIn) := by
  obtain ⟨u, hu⟩ : ∃ u, u = (s.tick dt).setJct j { (s.tick dt).jct j with plane := lanes } := ⟨_, rfl⟩
  have hur : u.regs = s.regs := hu ▸ rfl
  have huj : u.jct j = { s.jct j with plane := lanes } := hu ▸ (s.tick dt).jct_setJct_same _
  have hmaj : u.fwMajor = s.fwMajor := hu ▸ rfl
  have hsys {g : Fld} (hg : g.reg = .JCT_SYS) : (u.setFld F.JCT_STAT_PARTNER dev j).fld g = u.fld g :=
    fld_setFld_reg _ _ ⟨j.isLt, Nat.one_pos⟩ (hg ▸ ⟨Nat.one_pos, Nat.one_pos⟩) (by simp [hg])
  have hwhy : u.helloWhy dev sid major = s.helloWhy dev sid major := by
    rw [State.helloWhy, State.helloWhy, State.fld_congr hur, State.fld_congr hur, hmaj]
  refine ⟨u, hu ▸ onLink_setJct .., huj, hu ▸ rfl, ?_⟩
  have hst' : (s.tick dt).jctState j = 2 := hst
  have hx : exec (.jctHello dt j dev sid major lanes cr0 cr1) s = .next (u.helloIn j dev sid major cr0 cr1) := by
    rw [hu]
    exact congrArg (fun v : State => Host.Outcome.next (v.helloIn j dev sid major cr0 cr1)) (if_pos hst')
  rw [hx, helloIn_eq u _ _ _ _ _ _ ((State.fld_congr hur ..).trans hst) (hsys rfl) (hsys rfl), hwhy, huj]

theorem hello_refused {dev : Fin 256} {sid : Fin 65536} {major lanes cr0 cr1 : Nat} (hst : s.jctState j = 2)
    (hw : s.helloWhy dev sid major ≠ 0) : ∃ t, exec (.jctHello dt j dev sid major lanes cr0 cr1) s = .next t ∧ t.jctState j = 4 ∧
      t.fld F.JCT_STAT_REASON j = s.helloWhy dev sid major ∧ t.fld F.JCT_STAT_PARTNER j = dev ∧ t.out = s.out ∧
      (s.tick dt).onLink j [(.JCT_STAT, j.val, 0)] t := by
  obtain ⟨u, hul, -, huo, hx⟩ := exec_hello (dt := dt) s (dev := dev) (sid := sid) (major := major) (lanes := lanes) (cr0 := cr0) (cr1 := cr1) hst
  obtain ⟨h1, h2, -, h4, h5⟩ := helloNoted_leaves u j { s.jct j with plane := lanes, psys := sid, major := major, dropIn := false } dev.isLt
    (helloWhy_lt s dev sid major)
  obtain ⟨v, hv⟩ : ∃ v, v = u.helloNoted j dev { s.jct j with plane := lanes, psys := sid, major := major, dropIn := false }
    (s.helloWhy dev sid major) := ⟨_, rfl⟩
  rw [← hv] at h1 h2 h4 h5 hx
  obtain ⟨g1, g2, -, g4⟩ := setJctState_leaves v j (v := 4) (by decide)
  exact ⟨_, hx.trans (by rw [if_pos hw]), g1, (setJctState_fld v j (by decide)).trans h2, (setJctState_fld v j (by decide)).trans h1,
    g2.trans (h4.trans huo), onLink_trans (onLink_mono hul nofun) (onLink_trans h5 g4)⟩

theorem jctReplay_none (s : State) {j : Nat} (h : (s.jct j).unacked = []) : s.jctReplay j = s := by
  unfold State.jctReplay
  rw [h]
  rfl

theorem hello_active {dev : Fin 256} {sid : Fin 65536} {major lanes cr0 cr1 : Nat} (hst : s.jctState j = 2)
    (hw : s.helloWhy dev sid major = 0) (hun : (s.jct j).unacked = []) (htx : (s.jct j).txq = []) (hdrop : (s.jct j).dropIn = false) :
    ∃ t, exec (.jctHello dt j dev sid major lanes cr0 cr1) s = .next t ∧ t.jctState j = 3 ∧ t.fld F.JCT_STAT_PARTNER j = dev ∧
      t.jct j = { s.jct j with plane := lanes, psys := sid, major := major, adv0 := cr0, adv1 := cr1 } ∧ t.out = s.out ∧
      (s.tick dt).onLink j [(.JCT_STAT, j.val, 0)] t := by
  obtain ⟨u, hul, -, huo, hx⟩ := exec_hello (dt := dt) s (dev := dev) (sid := sid) (major := major) (lanes := lanes) (cr0 := cr0) (cr1 := cr1) hst
  obtain ⟨h1, -, h3, h4, h5⟩ := helloNoted_leaves u j { s.jct j with plane := lanes, psys := sid, major := major, dropIn := false } dev.isLt
    (helloWhy_lt s dev sid major)
  obtain ⟨v, hv⟩ : ∃ v, v = u.helloNoted j dev { s.jct j with plane := lanes, psys := sid, major := major, dropIn := false }
    (s.helloWhy dev sid major) := ⟨_, rfl⟩
  rw [← hv] at h1 h3 h4 h5 hx
  obtain ⟨w, hwq⟩ : ∃ w, w = v.setJct j { v.jct j with adv0 := cr0, adv1 := cr1 } := ⟨_, rfl⟩
  have hwj : w.jct j = { s.jct j with plane := lanes, psys := sid, major := major, dropIn := false, adv0 := cr0, adv1 := cr1 } := by
    rw [hwq, State.jct_setJct_same, h3]
  have hwl : v.onLink j [(.JCT_STAT, j.val, 0)] w := hwq ▸ onLink_setJct ..
  have hwo : w.out = v.out := hwq ▸ rfl
  have hwp : w.fld F.JCT_STAT_PARTNER j = dev := (State.fld_congr (hwq ▸ rfl) ..).trans h1
  obtain ⟨g1, g2, g3, g4⟩ := setJctState_leaves w j (v := 3) (by decide)
  have hact : v.helloActive j cr0 cr1 false = w.setJctState j 3 := by
    have hrep : (w.setJctState j 3).jctReplay j = w.setJctState j 3 := jctReplay_none _ (by rw [g3, hwj]; exact hun)
    unfold State.helloActive
    dsimp only
    rw [← hwq, hrep, if_neg nofun, g3, hwj, htx]
    rfl
  refine ⟨w.setJctState j 3, hx.trans ?_, g1, (setJctState_fld w j (by decide)).trans hwp, ?_, g2.trans (hwo.trans (h4.trans huo)),
    onLink_trans (onLink_mono hul nofun) (onLink_trans h5 (onLink_trans hwl g4))⟩
  · rw [hw, if_neg (not_not_intro rfl), hdrop, hact]
  · rw [g3, hwj, ← hdrop]

end

end Sys2Proof.Machine
end

section
/-! Lanes that fail and come back (R402). -/
namespace Sys2Proof.Machine

section
variable {dt : Nat} {j : Fin 4} {s : State}

/-- A port that narrows: its lanes go through the lane-drop sequence (R402). -/
def State.jctNarrows (s : State) (j : Nat) (x : Jct) : State := ((s.setJct j x).setJctState j 5).emit (.laneDrop j)

theorem jctNarrows_leaves (s : State) (j : Fin 4) (x : Jct) : let t := s.jctNarrows j x
    t.jctState j = 5 ∧ t.jct j = x ∧ t.out = s.out ++ [.laneDrop j] ∧ s.onLink j [(.JCT_STAT, j.val, 0)] t := by
  obtain ⟨u, hu⟩ : ∃ u, u = s.setJct j x := ⟨_, rfl⟩
  have huj : u.jct j = x := hu ▸ s.jct_setJct_same x
  have huo : u.out = s.out := hu ▸ rfl
  have hul : s.onLink j [(.JCT_STAT, j.val, 0)] u := hu ▸ onLink_setJct ..
  obtain ⟨h1, h2, h3, h4⟩ := setJctState_leaves u j (v := 5) (by decide)
  obtain ⟨v, hv⟩ : ∃ v, v = u.setJctState j 5 := ⟨_, rfl⟩
  rw [State.jctNarrows, ← hu, ← hv]
  rw [← hv] at h1 h2 h3 h4
  exact ⟨h1, h3.trans huj, congrArg (· ++ _) (h2.trans huo), onLink_trans hul (onLink_trans h4 (onLink_emit ..))⟩

/-- The lanes of a port that have not failed. -/
def State.lanesLeft (s : State) (j failed : Nat) : Nat :=
  (List.range 4).foldl (fun n i => if bitsOf (s.fld F.JCT_CFG_LANE_EN j) i 1 = 1 ∧ bitsOf failed i 1 = 0 then n + 2 ^ i else n) 0

theorem exec_laneFailure {mask : Fin 16} (hst : s.jctState j = 3) : exec (.laneFailure dt j mask) s = .next (
    if s.lanesLeft j ((s.jct j).failed ||| mask.val) = 0 then
      ((s.tick dt).setJct j { s.jct j with failed := (s.jct j).failed ||| mask.val, dropIn := false }).fullRetrain j
    else (s.tick dt).jctNarrows j { s.jct j with failed := (s.jct j).failed ||| mask.val, dropIn := false }) := by
  have hst' : (s.tick dt).jctState j = 3 := hst
  have hl (x : Jct) : ((s.tick dt).setJct j x).jctLanes j = s.lanesLeft j x.failed := by
    unfold State.jctLanes State.lanesLeft
    rw [State.jct_setJct_same]
    rfl
  change execLaneFailure dt j mask s = _
  unfold execLaneFailure
  dsimp only
  rw [if_pos (.inr (.inl hst')), hl]
  split
  · next h => exact congrArg Host.Outcome.next (if_pos h).symm
  · next h => exact congrArg Host.Outcome.next (if_neg h).symm

theorem laneFailure_narrows {mask : Fin 16} (hst : s.jctState j = 3) (hl : s.lanesLeft j ((s.jct j).failed ||| mask.val) ≠ 0) :
    ∃ t, exec (.laneFailure dt j mask) s = .next t ∧ t.jctState j = 5 ∧
      t.jct j = { s.jct j with failed := (s.jct j).failed ||| mask.val, dropIn := false } ∧ t.out = s.out ++ [.laneDrop j] ∧
      (s.tick dt).onLink j [(.JCT_STAT, j.val, 0)] t := by
  refine ⟨_, exec_laneFailure hst, ?_⟩
  rw [if_neg hl]
  exact jctNarrows_leaves (s.tick dt) j _

theorem fullRetrain_leaves (v : State) (j : Fin 4) : (v.fullRetrain j).out = v.out ∧ (v.fullRetrain j).jctState j = 1 ∧
    (v.fullRetrain j).fld F.JCT_ERRCNT_RETRAINS j = min (v.fld F.JCT_ERRCNT_RETRAINS j + 1) 255 ∧ ((v.fullRetrain j).jct j).failed = 0 ∧
    v.onLink j [(.JCT_STAT, j.val, 0), (.JCT_ERRCNT, j.val, 0)] (v.fullRetrain j) := by
  obtain ⟨h1, h2, h3, h4, h5⟩ := retrain_leaves v j { v.jct j with failed := 0, dropIn := false }
  exact ⟨h4, h1, h2, congrArg Jct.failed h3, h5⟩

theorem laneFailure_retrains {mask : Fin 16} (hst : s.jctState j = 3) (hl : s.lanesLeft j ((s.jct j).failed ||| mask.val) = 0) :
    ∃ t, exec (.laneFailure dt j mask) s = .next t ∧ t.out = s.out ∧ t.jctState j = 1 ∧
      t.fld F.JCT_ERRCNT_RETRAINS j = min (s.fld F.JCT_ERRCNT_RETRAINS j + 1) 255 ∧ (t.jct j).failed = 0 ∧
      (s.tick dt).onLink j [(.JCT_STAT, j.val, 0), (.JCT_ERRCNT, j.val, 0)] t := by
  obtain ⟨u, hu⟩ : ∃ u, u = (s.tick dt).setJct j { s.jct j with failed := (s.jct j).failed ||| mask.val, dropIn := false } := ⟨_, rfl⟩
  have hul : (s.tick dt).onLink j [(.JCT_STAT, j.val, 0), (.JCT_ERRCNT, j.val, 0)] u := hu ▸ onLink_setJct ..
  have huo : u.out = s.out := hu ▸ rfl
  have hur : u.regs = s.regs := hu ▸ rfl
  obtain ⟨h1, h2, h3, h4, h5⟩ := fullRetrain_leaves u j
  exact ⟨_, (exec_laneFailure hst).trans (by rw [if_pos hl, ← hu]), h1.trans huo, h2, h3.trans (by rw [State.fld_congr hur]), h4, onLink_trans hul h5⟩

theorem laneDrop_leaves {mask : Fin 16} (hst : s.jctState j = 3) : ∃ t, exec (.laneDropReceived dt j mask) s = .next t ∧ t.jctState j = 5 ∧
    t.jct j = { s.jct j with failed := (s.jct j).failed ||| mask.val, dropIn := true } ∧ t.out = s.out ++ [.laneDrop j] ∧
    (s.tick dt).onLink j [(.JCT_STAT, j.val, 0)] t := by
  refine ⟨(s.tick dt).jctNarrows j { s.jct j with failed := (s.jct j).failed ||| mask.val, dropIn := true }, ?_, jctNarrows_leaves (s.tick dt) j _⟩
  have hst' : (s.tick dt).jctState j = 3 := hst
  change execLaneDropReceived dt j mask s = _
  unfold execLaneDropReceived
  dsimp only
  rw [if_pos (.inr (.inl hst')), hst']
  rfl

theorem laneTimeout_retrains (hst : s.jctState j = 5) (hd : (s.jct j).dropIn = false) : ∃ t, exec (.laneRetrainTimeout dt j) s = .next t ∧
    t.out = s.out ∧ t.jctState j = 1 ∧ t.fld F.JCT_ERRCNT_RETRAINS j = min (s.fld F.JCT_ERRCNT_RETRAINS j + 1) 255 ∧ (t.jct j).failed = 0 ∧
    (s.tick dt).onLink j [(.JCT_STAT, j.val, 0), (.JCT_ERRCNT, j.val, 0)] t :=
  have hc : (s.tick dt).jctState j = 5 ∧ (!((s.tick dt).jct j).dropIn) = true := ⟨hst, congrArg (!·) hd⟩
  ⟨(s.tick dt).fullRetrain j, if_pos hc, fullRetrain_leaves (s.tick dt) j⟩

theorem laneWidening_leaves (hst : s.jctState j = 3) (hf : (s.jct j).failed ≠ 0)
    (hripe : ∀ a, (s.jct j).widened = some a → a + 60000000000 ≤ (s.now + dt) % 2 ^ 64) : ∃ t, exec (.laneWidening dt j) s = .next t ∧
    t.jctState j = 5 ∧ t.jct j = { s.jct j with failed := 0, widened := some ((s.now + dt) % 2 ^ 64), dropIn := false } ∧
    t.out = s.out ++ [.laneDrop j] ∧ (s.tick dt).onLink j [(.JCT_STAT, j.val, 0)] t := by
  refine ⟨(s.tick dt).jctNarrows j { s.jct j with failed := 0, widened := some ((s.now + dt) % 2 ^ 64), dropIn := false }, ?_,
    jctNarrows_leaves (s.tick dt) j _⟩
  have hst' : (s.tick dt).jctState j = 3 := hst
  change execLaneWidening dt j s = _
  unfold execLaneWidening
  dsimp only
  refine if_pos ⟨hst', hf, ?_⟩
  split
  · next a ha => exact decide_eq_true (hripe a ha)
  · rfl

end

/-- Settles O51: each event of a junction port by its own rule. -/
theorem junctionLinksTrainAndNarrow : Obligations.JunctionLinksTrainAndNarrow := by
  unfold Obligations.JunctionLinksTrainAndNarrow
  intro dt j s x st now upR link whole
  have hlink {t : State} {l : List (Reg × Nat × Nat)} (h : (s.tick dt).onLink j ((.JCT_STAT, j.val, 0) :: l) t) : link t l :=
    ⟨fun k hk => h.others k hk, h.keep, h.frame⟩
  have hwhole {c : Instr} (h : ∃ t, exec c s = .next t ∧ t.out = s.out ∧ t.jctState j = 1 ∧
      t.fld F.JCT_ERRCNT_RETRAINS j = min (s.fld F.JCT_ERRCNT_RETRAINS j + 1) 255 ∧ (t.jct j).failed = 0 ∧
      (s.tick dt).onLink j [(.JCT_STAT, j.val, 0), (.JCT_ERRCNT, j.val, 0)] t) : ∃ t, exec c s = .next t ∧ t.out = s.out ∧ whole t := by
    obtain ⟨t, hx, ho, hs, hr, hf, hl⟩ := h
    exact ⟨t, hx, ho, hs, hr, hf, hlink hl⟩
  refine ⟨fun r v ha => ?_, fun ok hst => ⟨fun hw => ?_, fun hw => hwhole (trained_again hst hw)⟩,
    fun dev sid major lanes cr0 cr1 hst => ⟨fun hw => ?_, fun hw hun htx hdrop => ?_⟩,
    fun mask hst => ⟨fun hl => ?_, fun hl => hwhole (laneFailure_retrains hst hl), ?_⟩, fun hst hd => hwhole (laneTimeout_retrains hst hd),
    fun hst hf hripe => ?_⟩
  · obtain ⟨t, hx, h1, h2, h3, h4, h5⟩ := jctCfg_leaves (dt := dt) r v ha
    exact ⟨t, hx, h1, h2, h3, hlink h4, h5⟩
  · obtain ⟨t, hx, h1, h2, h3, h4⟩ := trained_hello (dt := dt) hst hw
    exact ⟨t, hx, h1, h2, h3, hlink h4⟩
  · obtain ⟨t, hx, h1, h2, h3, h4, h5⟩ := hello_refused (dt := dt) (lanes := lanes) (cr0 := cr0) (cr1 := cr1) hst hw
    exact ⟨t, hx, h1, h2, h3, h4, hlink h5⟩
  · obtain ⟨t, hx, h1, h2, h3, h4, h5⟩ := hello_active (dt := dt) (lanes := lanes) (cr0 := cr0) (cr1 := cr1) hst hw hun htx hdrop
    exact ⟨t, hx, h1, h2, h3, h4, hlink h5⟩
  · obtain ⟨t, hx, h1, h2, h3, h4⟩ := laneFailure_narrows (dt := dt) hst hl
    exact ⟨t, hx, h1, h2, h3, hlink h4⟩
  · obtain ⟨t, hx, h1, h2, h3, h4⟩ := laneDrop_leaves (dt := dt) (mask := mask) hst
    exact ⟨t, hx, h1, h2, h3, hlink h4⟩
  · obtain ⟨t, hx, h1, h2, h3, h4⟩ := laneWidening_leaves (dt := dt) hst hf hripe
    exact ⟨t, hx, h1, h2, h3, hlink h4⟩

end Sys2Proof.Machine
end

section
/-! Flits that arrive, are resent and leave (R398 to R400, R404). -/
namespace Sys2Proof.Machine

section
variable {dt : Nat} {j : Fin 4} {s : State}

/-- `t` differs from `s` in junction port `j` and in what leaves alone. -/
structure State.onlyPort (j : Nat) (s t : State) : Prop where
  others : ∀ k, k ≠ j → t.jct k = s.jct k
  frame : t = { s with jcts := t.jcts, out := t.out }

theorem onlyPort_refl (s : State) (j : Nat) : s.onlyPort j s := ⟨fun _ _ => rfl, rfl⟩
theorem onlyPort_setJct (s : State) (j : Nat) (x : Jct) : s.onlyPort j (s.setJct j x) := ⟨fun _ hk => s.jct_setJct_ne x hk, rfl⟩
theorem onlyPort_emit (s : State) (j : Nat) (o : Output) : s.onlyPort j (s.emit o) := ⟨fun _ _ => rfl, rfl⟩
theorem onlyPort_trans {s t u : State} {j : Nat} (h : s.onlyPort j t) (h' : t.onlyPort j u) : s.onlyPort j u :=
  ⟨fun k hk => (h'.others k hk).trans (h.others k hk), by rw [h'.frame, h.frame]⟩

/-- A damaged flit counts (R398, R400). -/
theorem flit_damaged {f : Flit} (hst : s.jctState j = 3) (hbad : flitGood f = false) : s.countsOne dt (.flitReceived dt j f) F.JCT_ERRCNT_CRC j := by
  have hst' : (s.tick dt).jctState j = 3 := hst
  refine countsOne_of_inc ?_ ⟨j.isLt, Nat.one_pos⟩ (by decide)
  change execFlitReceived dt j f s = _
  unfold execFlitReceived
  dsimp only
  rw [hst', if_neg (by simp), hbad]
  rfl

/-- What the header of a flit leaves alone: what was received, and what waits to leave. -/
theorem header_leaves (x : Jct) (f : Flit) : (x.header f).expect = x.expect ∧ (x.header f).asm = x.asm ∧ (x.header f).freed0 = x.freed0 ∧
    (x.header f).freed1 = x.freed1 ∧ (x.header f).nextSeq = x.nextSeq ∧ (x.header f).txq = x.txq := by
  unfold Jct.header
  dsimp only
  split <;> split <;> exact ⟨rfl, rfl, rfl, rfl, rfl, rfl⟩

/-- The port after a middle flit of an export row taken in order (R399). -/
def Jct.takes (x : Jct) (b : List Byte) : Jct := { x with expect := (x.expect + 1) % 4096, freed1 := x.freed1 + 1, asm := x.asm ++ b }

theorem exec_flitData {f : Flit} {b : List Byte} (hst : s.jctState j = 3) (hgood : flitGood f = true) (hpay : f.pay = .bytes b) (hvc : f.vc = 1)
    (hkind : f.kind = 1) (htx : (s.jct j).txq = []) : exec (.flitReceived dt j f) s = .next (
      if f.seq = (s.jct j).expect then
        (((s.tick dt).setJct j ((s.jct j).header f)).setJct j (((s.jct j).header f).takes b)).flitOut j 1 0 (s.jct j).nextSeq 1 none
      else (s.tick dt).setJct j ((s.jct j).header f)) := by
  obtain ⟨hexp, hasm, -, -, hseq, hq⟩ := header_leaves (s.jct j) f
  have hhello : flitHello f = false := by rw [flitHello, hpay]
  have hst' : (s.tick dt).jctState j = 3 := hst
  have hj : ((s.tick dt).setJct j (((s.tick dt).jct j).header f)).jct j = (s.jct j).header f := State.jct_setJct_same ..
  have htake : ((s.tick dt).setJct j (((s.tick dt).jct j).header f)).flitTake j f =
      ((s.tick dt).setJct j ((s.jct j).header f)).setJct j (((s.jct j).header f).takes b) := by
    unfold State.flitTake
    rw [hj, hpay, hvc, hkind]
    rfl
  have hj2 : ((((s.tick dt).setJct j ((s.jct j).header f)).setJct j (((s.jct j).header f).takes b)).jct j) = ((s.jct j).header f).takes b :=
    State.jct_setJct_same ..
  change execFlitReceived dt j f s = _
  unfold execFlitReceived
  dsimp only
  rw [hst', if_neg (by simp), hgood, if_neg nofun, hhello, if_neg nofun, if_neg (by simp [hvc, hkind]), htake, hj2]
  split
  · next h =>
    rw [if_pos ((hj ▸ h.2).trans hexp)]
    obtain ⟨t, ht⟩ : ∃ t, t = ((s.tick dt).setJct j ((s.jct j).header f)).setJct j (((s.jct j).header f).takes b) := ⟨_, rfl⟩
    have hq2 : ((t.flitOut j f.vc 0 ((s.jct j).header f).nextSeq f.vc none).jct j).txq = [] := by
      rw [ht]
      exact (congrArg Jct.txq hj2).trans (hq.trans htx)
    change Host.Outcome.next (State.jctPump _ _ (List.length _)) = _
    rw [← ht, show (((s.jct j).header f).takes b).nextSeq = ((s.jct j).header f).nextSeq from rfl, hq2, hseq, hvc]
    rfl
  · next h =>
    rw [if_neg fun hs => h ⟨by simp [hkind], hs.trans (hexp.symm.trans (congrArg Jct.expect hj).symm)⟩, hj, hq, htx]
    rfl

/-- A flit of an export row in order is taken and answered (R399, R400). -/
theorem flit_taken {f : Flit} {b : List Byte} (hst : s.jctState j = 3) (hgood : flitGood f = true) (hpay : f.pay = .bytes b) (hvc : f.vc = 1)
    (hkind : f.kind = 1) (htx : (s.jct j).txq = []) (hseq : f.seq = (s.jct j).expect) : ∃ t, exec (.flitReceived dt j f) s = .next t ∧
      (t.jct j).expect = ((s.jct j).expect + 1) % 4096 ∧ (t.jct j).asm = (s.jct j).asm ++ b ∧ (t.jct j).freed1 = (s.jct j).freed1 + 1 ∧
      (t.jct j).freed0 = (s.jct j).freed0 ∧ t.out = s.out ++ [.flit j 1 0 (s.jct j).nextSeq ((((s.jct j).expect + 1) % 4096 + 4095) % 4096) 1
        (((s.jct j).freed1 + 1) % 256) none] ∧ (∀ i : Nat, i ≠ j → t.jct i = s.jct i) ∧ t = { s.tick dt with jcts := t.jcts, out := t.out } := by
  obtain ⟨hexp, hasm, hf0, hf1, -, -⟩ := header_leaves (s.jct j) f
  obtain ⟨u, hu⟩ : ∃ u, u = ((s.tick dt).setJct j ((s.jct j).header f)).setJct j (((s.jct j).header f).takes b) := ⟨_, rfl⟩
  have huj : u.jct j = ((s.jct j).header f).takes b := hu ▸ State.jct_setJct_same ..
  have huo : u.out = s.out := hu ▸ rfl
  have hup : (s.tick dt).onlyPort j u := hu ▸ onlyPort_trans (onlyPort_setJct ..) (onlyPort_setJct ..)
  have hall := onlyPort_trans hup (onlyPort_emit u j (.flit j 1 0 (s.jct j).nextSeq (((u.jct j).expect + 4095) % 4096) 1 ((u.jct j).freed1 % 256) none))
  refine ⟨_, (exec_flitData hst hgood hpay hvc hkind htx).trans (by rw [if_pos hseq, ← hu]; rfl), ?_, ?_, ?_, ?_, ?_, hall.others, hall.frame⟩
  · exact (congrArg Jct.expect huj).trans (by rw [Jct.takes, hexp])
  · exact (congrArg Jct.asm huj).trans (by rw [Jct.takes, hasm])
  · exact (congrArg Jct.freed1 huj).trans (by rw [Jct.takes, hf1])
  · exact (congrArg Jct.freed0 huj).trans (by rw [Jct.takes, hf0])
  · change u.out ++ [.flit j 1 0 (s.jct j).nextSeq (((u.jct j).expect + 4095) % 4096) 1 ((u.jct j).freed1 % 256) none] = _
    rw [huo, huj, Jct.takes, hexp, hf1]

theorem flit_out_of_order {f : Flit} {b : List Byte} (hst : s.jctState j = 3) (hgood : flitGood f = true) (hpay : f.pay = .bytes b) (hvc : f.vc = 1)
    (hkind : f.kind = 1) (htx : (s.jct j).txq = []) (hseq : f.seq ≠ (s.jct j).expect) : ∃ t, exec (.flitReceived dt j f) s = .next t ∧
      (t.jct j).expect = (s.jct j).expect ∧ (t.jct j).asm = (s.jct j).asm ∧ t.out = s.out ∧ (∀ i : Nat, i ≠ j → t.jct i = s.jct i) ∧
      t = { s.tick dt with jcts := t.jcts } := by
  obtain ⟨hexp, hasm, -, -, -, -⟩ := header_leaves (s.jct j) f
  have huj : ((s.tick dt).setJct j ((s.jct j).header f)).jct j = (s.jct j).header f := State.jct_setJct_same ..
  exact ⟨_, (exec_flitData hst hgood hpay hvc hkind htx).trans (by rw [if_neg hseq]), (congrArg Jct.expect huj).trans hexp,
    (congrArg Jct.asm huj).trans hasm, rfl, (onlyPort_setJct (s.tick dt) j _).others, rfl⟩

/-- What a port resends (R400). -/
theorem foldl_flitOut (j : Nat) (fs : List (Nat × TxFlit)) (s : State) :
    fs.foldl (fun s f => s.flitOut j f.2.vc (if f.2.last then 2 else 1) f.1 f.2.vc (some f.2.pay)) s = s.emits (fs.map fun q =>
      .flit j q.2.vc (if q.2.last then 2 else 1) q.1 (((s.jct j).expect + 4095) % 4096) q.2.vc
        ((if q.2.vc = 0 then (s.jct j).freed0 else (s.jct j).freed1) % 256) (some q.2.pay)) := by
  induction fs generalizing s with
  | nil => exact (congrArg (fun l => { s with out := l }) (List.append_nil s.out)).symm
  | cons f fs ih =>
    rw [List.foldl_cons, ih]
    exact congrArg (fun l => { s with out := l }) (List.append_assoc ..)

theorem replay_leaves (ha : s.jctActive j = true) (hu : (s.jct j).unacked ≠ []) : ∃ t, exec (.flitReplayTimeout dt j) s = .next t ∧
    t.fld F.JCT_ERRCNT_REPLAYS j = min (s.fld F.JCT_ERRCNT_REPLAYS j + 1) 255 ∧
    t.out = s.out ++ (s.jct j).unacked.map (fun q => .flit j q.2.vc (if q.2.last then 2 else 1) q.1 (((s.jct j).expect + 4095) % 4096) q.2.vc
      ((if q.2.vc = 0 then (s.jct j).freed0 else (s.jct j).freed1) % 256) (some q.2.pay)) ∧
    s.keeps t [(.JCT_ERRCNT, j.val, 0)] ∧ t = { s.tick dt with regs := t.regs, out := t.out } := by
  obtain ⟨u, hu'⟩ : ∃ u, u = (s.tick dt).emits ((s.jct j).unacked.map fun q =>
      .flit j q.2.vc (if q.2.last then 2 else 1) q.1 (((s.jct j).expect + 4095) % 4096) q.2.vc
        ((if q.2.vc = 0 then (s.jct j).freed0 else (s.jct j).freed1) % 256) (some q.2.pay)) := ⟨_, rfl⟩
  have hregs : u.regs = s.regs := hu' ▸ rfl
  have hframe : u = { s.tick dt with out := u.out } := hu' ▸ rfl
  have hout : u.out = s.out ++ _ := (congrArg State.out hu').trans rfl
  have hr : u.onlyRegs (u.inc F.JCT_ERRCNT_REPLAYS j) := onlyRegs_inc ..
  refine ⟨u.inc F.JCT_ERRCNT_REPLAYS j, ?_, ?_, (onlyRegs_out hr).trans hout,
    keeps_trans (keeps_of_regs [] hregs) (keeps_inc u F.JCT_ERRCNT_REPLAYS ⟨j.isLt, Nat.one_pos⟩), ?_⟩
  · have ha' : (s.tick dt).jctActive j = true := ha
    have hne : ¬ ((s.tick dt).jct j).unacked.isEmpty = true := fun h => hu (List.isEmpty_iff.1 h)
    change Host.Outcome.next (if (s.tick dt).jctActive j then (s.tick dt).jctReplay j else s.tick dt) = _
    rw [if_pos ha', State.jctReplay, if_neg hne, foldl_flitOut]
    rw [hu']
    rfl
  · rw [State.fld_inc_same _ _ _ _ (by decide), State.fld_congr hregs]
    rfl
  · rw [show u.inc F.JCT_ERRCNT_REPLAYS j = { u with regs := (u.inc F.JCT_ERRCNT_REPLAYS j).regs } from hr, hframe]

end

end Sys2Proof.Machine
end

section
/-! Messages of the junction ports, and the alignment of positions (R384, R404, R406). -/
namespace Sys2Proof.Machine

section
variable {dt : Nat} {s : State}

/-- A message of VC0 that may go leaves as one flit (R399). -/
theorem jctMsg_leaves (s : State) {k : Nat} (m : JMsg) (ha : s.jctActive k = true) (htx : (s.jct k).txq = []) (hc : 0 < (s.jct k).credits 0)
    (hu : (s.jct k).unacked.length < 2048) : (s.jctMsg k m).out = s.out ++ [.flit k 0 2 (s.jct k).nextSeq (((s.jct k).expect + 4095) % 4096) 0
      ((s.jct k).freed0 % 256) (some (.msg m))] ∧
    (s.jctMsg k m).jct k = { s.jct k with
      unacked := (s.jct k).unacked ++ [((s.jct k).nextSeq, ⟨0, true, .msg m⟩)]
      nextSeq := ((s.jct k).nextSeq + 1) % 4096
      used0 := (s.jct k).used0 + 1 } ∧ s.onlyPort k (s.jctMsg k m) := by
  obtain ⟨u, hu'⟩ : ∃ u, u = s.setJct k { s.jct k with txq := [⟨0, true, .msg m⟩] } := ⟨_, rfl⟩
  have huj : u.jct k = { s.jct k with txq := [⟨0, true, .msg m⟩] } := hu' ▸ State.jct_setJct_same ..
  have huo : u.out = s.out := hu' ▸ rfl
  have hup : s.onlyPort k u := hu' ▸ onlyPort_setJct ..
  have hua : u.jctActive k = true := hu' ▸ ha
  obtain ⟨v, hv⟩ : ∃ v, v = u.flitOut k 0 2 (s.jct k).nextSeq 0 (some (.msg m)) := ⟨_, rfl⟩
  have hvo : v.out = s.out ++ [.flit k 0 2 (s.jct k).nextSeq (((s.jct k).expect + 4095) % 4096) 0 ((s.jct k).freed0 % 256) (some (.msg m))] := by
    rw [hv]
    change u.out ++ [.flit k 0 2 (s.jct k).nextSeq (((u.jct k).expect + 4095) % 4096) 0 ((u.jct k).freed0 % 256) (some (.msg m))] = _
    rw [huo, huj]
  have hvp : u.onlyPort k v := hv ▸ onlyPort_emit ..
  have hx : s.jctMsg k m = v.setJct k { s.jct k with
      unacked := (s.jct k).unacked ++ [((s.jct k).nextSeq, ⟨0, true, .msg m⟩)]
      nextSeq := ((s.jct k).nextSeq + 1) % 4096
      used0 := (s.jct k).used0 + 1 } := by
    have hcond : (u.jctActive k && decide (0 < ({ s.jct k with txq := [⟨0, true, .msg m⟩] } : Jct).credits 0) &&
        decide ((s.jct k).unacked.length < 2048)) = true := by
      rw [hua, decide_eq_true hu, decide_eq_true (show 0 < ({ s.jct k with txq := [⟨0, true, .msg m⟩] } : Jct).credits 0 from hc)]
      rfl
    unfold State.jctMsg State.jctQueue
    dsimp only
    rw [htx, List.nil_append, ← hu']
    change State.jctPump u k 1 = _
    rw [State.jctPump, huj]
    dsimp only
    rw [if_pos hcond, hv]
    congr 2
  rw [hx]
  exact ⟨hvo, State.jct_setJct_same .., onlyPort_trans hup (onlyPort_trans hvp (onlyPort_setJct ..))⟩

theorem exec_timeSend {j : Fin 4} (ha : s.jctActive j = true) :
    exec (.jctTimeSend dt j) s = .next ((s.tick dt).jctMsg j (.timeReq ((s.now + dt) % 2 ^ 64))) := by
  have ha' : (s.tick dt).jctActive j = true := ha
  exact congrArg Host.Outcome.next (if_pos ha')

theorem exec_control {j : Fin 4} {m : CtlMsg} (ha : s.jctActive j = true) (hd : m.dest ≠ s.fld F.JCT_SYS_DEVNUM) :
    exec (.jctControlMessage dt j m) s = .next ((s.tick dt).ctlSend m) := by
  have ha' : (s.tick dt).jctActive j = true := ha
  have hd' : ¬ m.dest = (s.tick dt).fld F.JCT_SYS_DEVNUM := hd
  change Host.Outcome.next (if (s.tick dt).jctActive j then (s.tick dt).ctlIn m else s.tick dt) = _
  rw [if_pos ha', State.ctlIn, if_neg hd']

theorem ctlSend_routed {m : CtlMsg} {k : Nat} (hr : s.jctRoute m.dest = some k) (hh : m.hops < 16) :
    s.ctlSend m = s.jctMsg k (.ctl { m with hops := m.hops + 1 }) := by
  unfold State.ctlSend
  rw [hr]
  exact if_neg (Nat.not_le.2 hh)

theorem ctlSend_lost {m : CtlMsg} (hr : s.jctRoute m.dest = none) : s.ctlSend m = { s with ctlLost := s.ctlLost + 1 } := by
  unfold State.ctlSend
  rw [hr]

end

section
variable (s : State)

theorem jctPump_odoSamp (k n : Nat) : (s.jctPump k n).odoSamp = s.odoSamp := by
  induction n generalizing s with
  | zero => rfl
  | succ n ih =>
    rw [State.jctPump]
    dsimp only
    split
    · split
      · exact (ih _).trans rfl
      · rfl
    · rfl

theorem ctlSend_odoSamp (m : CtlMsg) : (s.ctlSend m).odoSamp = s.odoSamp := by
  unfold State.ctlSend
  split
  · split
    · rfl
    · exact (jctPump_odoSamp ..).trans rfl
  · rfl

/-- The odometers are sampled, and the master sends its sample (R406). -/
theorem positionSend_leaves {dt : Nat} : ∃ t, exec (.positionSend dt) s = .next t ∧
    t.odoSamp = (((s.now + dt) % 2 ^ 64, (List.range 4).map fun u => (u, s.odoPos u)) :: s.odoSamp).take 64 ∧
    (s.fld F.JCT_SYS_DEVNUM ≠ s.fld F.JCT_SYNC_POSMASTER → t = { s.tick dt with odoSamp := t.odoSamp }) := by
  obtain ⟨u, hu⟩ : ∃ u : State, u = { s.tick dt with
    odoSamp := (((s.now + dt) % 2 ^ 64, (List.range 4).map fun u => (u, s.odoPos u)) :: s.odoSamp).take 64 } := ⟨_, rfl⟩
  have hsamp : u.odoSamp = (((s.now + dt) % 2 ^ 64, (List.range 4).map fun u => (u, s.odoPos u)) :: s.odoSamp).take 64 := hu ▸ rfl
  have hframe : u = { s.tick dt with odoSamp := u.odoSamp } := hu ▸ rfl
  have hf (f : Fld) : u.fld f = s.fld f := State.fld_congr (hu ▸ rfl) ..
  by_cases hm : s.fld F.JCT_SYS_DEVNUM = s.fld F.JCT_SYNC_POSMASTER
  · have hm' : u.fld F.JCT_SYS_DEVNUM = u.fld F.JCT_SYNC_POSMASTER := by rw [hf, hf, hm]
    refine ⟨_, (show exec (.positionSend dt) s = .next (((List.range 256).filter fun d =>
      d != u.fld F.JCT_SYS_DEVNUM && u.flag F.JCT_ROUTE_VALID d).foldl (fun (v : State) d => v.ctlTo d (.position v.now v.timeUnsync v.odoVals)) u) from ?_),
      ?_, fun h => absurd hm h⟩
    · rw [hu] at hm' ⊢
      exact if_pos hm'
    · exact (List.foldlRecOn (motive := fun v : State => v.odoSamp = u.odoSamp) _ _ rfl fun v hv d _ => (ctlSend_odoSamp ..).trans hv).trans hsamp
  · have hm' : ¬ u.fld F.JCT_SYS_DEVNUM = u.fld F.JCT_SYNC_POSMASTER := by rwa [hf, hf]
    refine ⟨u, ?_, hsamp, fun _ => hframe⟩
    rw [hu] at hm' ⊢
    exact if_neg hm'

end

end Sys2Proof.Machine
end

section
/-! Positions of a master are compared and aligned (R406). -/
namespace Sys2Proof.Machine

section
variable {dt : Nat} {s : State}

/-- An alignment of one odometer (R406). -/
theorem alignOdo_leaves (s : State) (u : Fin 4) (d : Int) :
    (s.alignOdo u d).fld F.ODO_POS_POS u = (if bitsOf (s.fld F.JCT_SYNC_ALIGNING) u 1 = 1 then wrapTo 64 (s.odoPos u + d) else s.fld F.ODO_POS_POS u) ∧
    bitsOf ((s.alignOdo u d).fld F.JCT_SYNC_ALIGNING) u 1 = 0 ∧ s.keeps (s.alignOdo u d) [(.ODO_POS, u.val, 0), (.JCT_SYNC, 0, 0)] ∧
    s.alignOdo u d = { s with regs := (s.alignOdo u d).regs, odos := (s.alignOdo u d).odos } := by
  unfold State.alignOdo
  split
  · next h =>
    obtain ⟨a, ha⟩ : ∃ a, a = s.setFld F.ODO_POS_POS (wrapTo 64 (s.odoPos u + d)) u := ⟨_, rfl⟩
    have har : s.onlyRegs a := ha ▸ onlyRegs_setFld ..
    have hak : s.keeps a [(.ODO_POS, u.val, 0)] := ha ▸ keeps_setFld s F.ODO_POS_POS _ ⟨u.isLt, Nat.one_pos⟩
    have hap : a.fld F.ODO_POS_POS u = wrapTo 64 (s.odoPos u + d) := ha ▸ fld_setFld_eq _ _ (by decide) (wrapTo_lt ..)
    obtain ⟨b, hb⟩ : ∃ b, b = a.setOdo u { a.odo u with high := (a.odo u).high + d } := ⟨_, rfl⟩
    have hbr : b.regs = a.regs := hb ▸ rfl
    have hbf : b = { a with odos := b.odos } := hb ▸ rfl
    have hpos : b.fld F.ODO_POS_POS u = wrapTo 64 (s.odoPos u + d) := (State.fld_congr hbr ..).trans hap
    obtain ⟨t, ht⟩ : ∃ t, t = b.putBit F.JCT_SYNC_ALIGNING u 0 := ⟨_, rfl⟩
    have htr : b.onlyRegs t := ht ▸ putBit_onlyRegs ..
    have htk : b.keeps t [(.JCT_SYNC, 0, 0)] := ht ▸ putBit_keeps b (f := F.JCT_SYNC_ALIGNING) _ _ ⟨Nat.one_pos, Nat.one_pos⟩
    have htb : bitsOf (t.fld F.JCT_SYNC_ALIGNING) u 1 = 0 := by
      rw [ht, bitsOf_fld_putBit b (by decide) u.isLt, if_pos rfl]
    have hx : (let v := s.setFld F.ODO_POS_POS (wrapTo 64 (s.odoPos u + d)) u
        let v := v.setOdo u { v.odo u with high := (v.odo u).high + d }
        v.setFld F.JCT_SYNC_ALIGNING (putBits (v.fld F.JCT_SYNC_ALIGNING) u 1 0)) = t := by
      rw [ht, hb, ha]
      rfl
    rw [hx]
    refine ⟨(fld_of_keeps htk ⟨u.isLt, Nat.one_pos⟩ (by simp)).trans hpos, htb, keeps_trans (keeps_congr hbr hak) htk, ?_⟩
    rw [show t = { b with regs := t.regs } from htr, hbf, show a = { s with regs := a.regs } from har]
  · next h =>
    have hlt : bitsOf (s.fld F.JCT_SYNC_ALIGNING) u 1 < 2 := bitsOf_lt ..
    exact ⟨rfl, by omega, keeps_refl _ _, rfl⟩

/-- The difference of one odometer as it is noted (R406). -/
def State.diffNoted (s : State) (u : Nat) (d : Int) (n : Nat) : State :=
  let s : State := { s with posDiff := mapSet (0, 0) s.posDiff u (d, n) }
  (s.setFld F.JCT_ODO_DIFF_DIFF (wrapTo 48 d) u).setFld F.JCT_ODO_DIFF_STABLE (if 3 ≤ n then 1 else 0) u

theorem diffNoted_leaves (s : State) (u : Fin 4) (d : Int) (n : Nat) : let t := s.diffNoted u d n
    t.fld F.JCT_ODO_DIFF_DIFF u = wrapTo 48 d ∧ t.flag F.JCT_ODO_DIFF_STABLE u = decide (3 ≤ n) ∧ t.posDiff = mapSet (0, 0) s.posDiff u (d, n) ∧
      s.keeps t [(.JCT_ODO_DIFF, u.val, 0)] ∧ t = { s with regs := t.regs, posDiff := t.posDiff } := by
  intro t
  obtain ⟨a, ha⟩ : ∃ a : State, a = { s with posDiff := mapSet (0, 0) s.posDiff u (d, n) } := ⟨_, rfl⟩
  have har : a.regs = s.regs := ha ▸ rfl
  have hap : a.posDiff = mapSet (0, 0) s.posDiff u (d, n) := ha ▸ rfl
  have haf : a = { s with posDiff := a.posDiff } := ha ▸ rfl
  have ht : t = (a.setFld F.JCT_ODO_DIFF_DIFF (wrapTo 48 d) u).setFld F.JCT_ODO_DIFF_STABLE (if 3 ≤ n then 1 else 0) u := by rw [ha]; rfl
  have hr : a.onlyRegs t := ht ▸ onlyRegs_setFld_setFld ..
  have hk : a.keeps t [(.JCT_ODO_DIFF, u.val, 0)] :=
    ht ▸ keeps_setFld_setFld (f := F.JCT_ODO_DIFF_DIFF) (g := F.JCT_ODO_DIFF_STABLE) a _ _ rfl ⟨u.isLt, Nat.one_pos⟩
  refine ⟨?_, ?_, ?_, keeps_trans (keeps_of_regs [] har) hk, ?_⟩
  · rw [ht, fld_setFld_at (n := 4) _ _ u.isLt (by decide)]
    exact fld_setFld_eq _ _ (by decide) (wrapTo_lt ..)
  · rw [ht, flag_setFld_same _ F.JCT_ODO_DIFF_STABLE _ _ _ (by decide)]
    by_cases hn : 3 ≤ n
    · rw [if_pos hn, decide_eq_true hn]
      decide
    · rw [if_neg hn, decide_eq_false hn]
      decide
  · rw [show t = { a with regs := t.regs } from hr]
    exact hap
  · rw [show t = { a with regs := t.regs } from hr, haf]

/-- The count of equal differences in a row (R406). -/
def State.diffRun (s : State) (u : Nat) (d : Int) : Nat :=
  if d = (mapGet (0, 0) s.posDiff u).1 ∧ 0 < (mapGet (0, 0) s.posDiff u).2 then (mapGet (0, 0) s.posDiff u).2 + 1 else 1

theorem positionOne_eq {own : List (Nat × Int)} {u : Nat} {v o : Int} (ho : own.find? (fun q => q.1 == u) = some (u, o)) :
    s.positionOne false own (u, v) = if 3 ≤ s.diffRun u (v - o) then (s.diffNoted u (v - o) (s.diffRun u (v - o))).alignOdo u (v - o)
      else s.diffNoted u (v - o) (s.diffRun u (v - o)) := by
  unfold State.positionOne
  dsimp only
  rw [ho]
  rfl

/-- A master's position of one odometer (R406). -/
theorem position_leaves {time : Nat} (u : Fin 4) (v : Int) {own : List (Nat × Int)} {o : Int}
    (hs : s.odoSamp.find? (fun q => q.1 == time) = some (time, own)) (ho : own.find? (fun q => q.1 == u.val) = some (u.val, o))
    (hsync : s.timeUnsync = false) : let d := v - o
    let n := s.diffRun u d
    let aligns := decide (3 ≤ n) && bitsOf (s.fld F.JCT_SYNC_ALIGNING) u 1 == 1
    ∃ t, exec (.positionMessage dt time false [(u, v)]) s = .next t ∧ t.fld F.JCT_ODO_DIFF_DIFF u = wrapTo 48 d ∧
      t.flag F.JCT_ODO_DIFF_STABLE u = decide (3 ≤ n) ∧ mapGet (0, 0) t.posDiff u = (d, n) ∧
      t.fld F.ODO_POS_POS u = (if aligns then wrapTo 64 (s.odoPos u + d) else s.fld F.ODO_POS_POS u) ∧
      bitsOf (t.fld F.JCT_SYNC_ALIGNING) u 1 = (if 3 ≤ n then 0 else bitsOf (s.fld F.JCT_SYNC_ALIGNING) u 1) ∧
      s.keeps t [(.JCT_ODO_DIFF, u.val, 0), (.ODO_POS, u.val, 0), (.JCT_SYNC, 0, 0)] ∧
      t = { s.tick dt with regs := t.regs, posDiff := t.posDiff, odos := t.odos } := by
  intro d n aligns
  have hx : exec (.positionMessage dt time false [(u, v)]) s = .next ((s.tick dt).positionOne false own (u.val, v)) := by
    have hs' : (s.tick dt).odoSamp.find? (fun q => q.1 == time) = some (time, own) := hs
    have hsync' : (s.tick dt).timeUnsync = false := hsync
    change Host.Outcome.next ((s.tick dt).positionIn time false [(u.val, v)]) = _
    unfold State.positionIn
    rw [hs']
    change Host.Outcome.next ((s.tick dt).positionOne (false || (s.tick dt).timeUnsync) own (u.val, v)) = _
    rw [hsync']
    rfl
  obtain ⟨h1, h2, h3, h4, h5⟩ := diffNoted_leaves (s.tick dt) u d n
  have hx : exec (.positionMessage dt time false [(u, v)]) s = .next (if 3 ≤ n then ((s.tick dt).diffNoted u d n).alignOdo u d
      else (s.tick dt).diffNoted u d n) := hx.trans (congrArg Host.Outcome.next (positionOne_eq ho))
  obtain ⟨a, ha⟩ : ∃ a, a = (s.tick dt).diffNoted u d n := ⟨_, rfl⟩
  rw [← ha] at h1 h2 h3 h4 h5 hx
  have hal : a.fld F.JCT_SYNC_ALIGNING = s.fld F.JCT_SYNC_ALIGNING := fld_of_keeps h4 ⟨Nat.one_pos, Nat.one_pos⟩ (by simp)
  have hpos : a.fld F.ODO_POS_POS u = s.fld F.ODO_POS_POS u := fld_of_keeps h4 ⟨u.isLt, Nat.one_pos⟩ (by simp)
  have hget : mapGet (0, 0) a.posDiff u = (d, n) := by rw [h3, mapGet_mapSet_same]
  refine ⟨_, hx, ?_⟩
  by_cases hn : 3 ≤ n
  · obtain ⟨g1, g2, g3, g4⟩ := alignOdo_leaves a u d
    obtain ⟨t, ht⟩ : ∃ t, t = a.alignOdo u d := ⟨_, rfl⟩
    rw [if_pos hn, if_pos hn, ← ht]
    rw [← ht] at g1 g2 g3 g4
    have hdiff {f : Fld} (hf : f.reg = .JCT_ODO_DIFF) : t.fld f u = a.fld f u := fld_of_keeps g3 (hf ▸ ⟨u.isLt, Nat.one_pos⟩) (by simp [hf])
    have hpd : t.posDiff = a.posDiff := by rw [g4]
    refine ⟨(hdiff rfl).trans h1, (flag_congr (hdiff rfl)).trans h2, by rw [hpd, hget], ?_, g2, keeps_trans h4 g3, ?_⟩
    · have haligns : aligns = (bitsOf (s.fld F.JCT_SYNC_ALIGNING) u 1 == 1) := by
        change (decide (3 ≤ n) && _) = _
        rw [decide_eq_true hn, Bool.true_and]
      rw [g1, hal, hpos, State.odoPos, hpos, haligns]
      exact if_congr beq_iff_eq.symm rfl rfl
    · rw [g4, h5]
  · have haligns : aligns = false := by
      change (decide (3 ≤ n) && _) = _
      rw [decide_eq_false hn, Bool.false_and]
    rw [if_neg hn, if_neg hn, haligns]
    refine ⟨h1, h2, hget, hpos, by rw [hal], keeps_mono h4 (by simp), ?_⟩
    rw [h5]

end

end Sys2Proof.Machine
end

section
/-! A write of JCT_SYNC, and an alignment that times out (R406). -/
namespace Sys2Proof.Machine

section
variable {dt : Nat} {s : State}

theorem aligned_leaves (us : List Nat) (hus : ∀ u ∈ us, u < 4) (s : State) : let t := us.foldl (fun v u => v.putBit F.JCT_SYNC_ALIGNING u 1) s
    (∀ k < 4, bitsOf (t.fld F.JCT_SYNC_ALIGNING) k 1 = if k ∈ us then 1 else bitsOf (s.fld F.JCT_SYNC_ALIGNING) k 1) ∧
      t.fld F.JCT_SYNC_POSMASTER = s.fld F.JCT_SYNC_POSMASTER ∧ s.keeps t [(.JCT_SYNC, 0, 0)] ∧ s.onlyRegs t := by
  induction us generalizing s with
  | nil => exact ⟨fun k _ => by simp, rfl, keeps_refl _ _, onlyRegs_refl s⟩
  | cons u us ih =>
    obtain ⟨hu, hus⟩ := List.forall_mem_cons.1 hus
    obtain ⟨h1, h2, h3, h4⟩ := ih hus (s.putBit F.JCT_SYNC_ALIGNING u 1)
    have hput := putBit_keeps s (f := F.JCT_SYNC_ALIGNING) u 1 ⟨Nat.one_pos, Nat.one_pos⟩
    refine ⟨fun k hk => ?_, h2.trans (fld_putBit_at s _ _ (by decide)), keeps_mono (keeps_trans hput h3) (by simp),
      onlyRegs_trans (putBit_onlyRegs ..) h4⟩
    rw [List.foldl_cons, h1 k hk, bitsOf_fld_putBit s (by decide) hu]
    by_cases hk1 : k ∈ us
    · rw [if_pos hk1, if_pos (List.mem_cons_of_mem _ hk1)]
    · by_cases hk2 : k = u
      · rw [if_neg hk1, if_pos hk2, if_pos (hk2 ▸ List.mem_cons_self)]
      · rw [if_neg hk1, if_neg hk2, if_neg (by simp [hk1, hk2])]

/-- The odometers that a write of JCT_SYNC names. -/
def alignNamed (v : Nat) : List Nat := (List.range 4).filter fun u => bitsOf v u 1 == 1

theorem mem_alignNamed {v u : Nat} : u ∈ alignNamed v ↔ u < 4 ∧ bitsOf v u 1 = 1 := by
  rw [alignNamed, List.mem_filter, List.mem_range, beq_iff_eq]

theorem jctSyncWrite_free (s : State) (r : Requester) (v : Nat)
    (h : ∀ u ∈ alignNamed v, ∀ g < 16, (s.setFld F.JCT_SYNC_POSMASTER (bitsOf v 16 8)).fld F.ODO_TG_CFG_ODO g ≠ u) :
    s.jctSyncWrite r v = (alignNamed v).foldl (fun v u => v.putBit F.JCT_SYNC_ALIGNING u 1) (s.setFld F.JCT_SYNC_POSMASTER (bitsOf v 16 8)) := by
  obtain ⟨w, hw⟩ : ∃ w, w = s.setFld F.JCT_SYNC_POSMASTER (bitsOf v 16 8) := ⟨_, rfl⟩
  rw [← hw] at h ⊢
  have hnone : ∀ u ∈ alignNamed v, ((List.range 16).any fun g => w.fld F.ODO_TG_CFG_ODO g == u) = false := fun u hu =>
    List.any_eq_false.2 fun g hg => by simpa using h u hu g (List.mem_range.1 hg)
  have hany : ((alignNamed v).any fun u => (List.range 16).any fun g => w.fld F.ODO_TG_CFG_ODO g == u) = false :=
    List.any_eq_false.2 fun u hu => by rw [hnone u hu]; exact Bool.false_ne_true
  have hfil : ((alignNamed v).filter fun u => !((List.range 16).any fun g => w.fld F.ODO_TG_CFG_ODO g == u)) = alignNamed v :=
    List.filter_eq_self.2 fun u hu => by rw [hnone u hu]; rfl
  unfold State.jctSyncWrite
  dsimp only
  rw [← hw, ← alignNamed, hany, hfil]
  rfl

theorem alignWrite_leaves (r : Requester) (v : Word) (ha : s.access (regAddr .JCT_SYNC) 4 = .ok (hitOf .JCT_SYNC 0 0))
    (hfree : ∀ u < 4, bitsOf v.toNat u 1 = 1 → ∀ g < 16, s.fld F.ODO_TG_CFG_ODO g ≠ u) : ∃ t, exec (.jctAlignWrite dt r v) s = .next t ∧
      t.fld F.JCT_SYNC_POSMASTER = bitsOf v.toNat 16 8 ∧
      (∀ u < 4, bitsOf (t.fld F.JCT_SYNC_ALIGNING) u 1 = max (bitsOf v.toNat u 1) (bitsOf (s.fld F.JCT_SYNC_ALIGNING) u 1)) ∧
      s.keeps t [(.JCT_SYNC, 0, 0)] ∧ t = { s.tick dt with regs := t.regs } := by
  obtain ⟨w, hw⟩ : ∃ w, w = (s.tick dt).setFld F.JCT_SYNC_POSMASTER (bitsOf v.toNat 16 8) := ⟨_, rfl⟩
  have hwr : (s.tick dt).onlyRegs w := hw ▸ onlyRegs_setFld ..
  have hwk : s.keeps w [(.JCT_SYNC, 0, 0)] := hw ▸ keeps_setFld (s.tick dt) F.JCT_SYNC_POSMASTER _ ⟨Nat.one_pos, Nat.one_pos⟩
  have hwp : w.fld F.JCT_SYNC_POSMASTER = bitsOf v.toNat 16 8 := hw ▸ fld_setFld_eq _ _ (by decide) (bitsOf_lt ..)
  have hwa : w.fld F.JCT_SYNC_ALIGNING = s.fld F.JCT_SYNC_ALIGNING := hw ▸ fld_setFld_at (s.tick dt) _ Nat.one_pos (by decide)
  have hodo : ∀ g < 16, w.fld F.ODO_TG_CFG_ODO g = s.fld F.ODO_TG_CFG_ODO g := fun g hg => fld_of_keeps hwk ⟨hg, Nat.one_pos⟩ (by simp)
  obtain ⟨h1, h2, h3, h4⟩ := aligned_leaves (alignNamed v.toNat) (fun u hu => (mem_alignNamed.1 hu).1) w
  have hx : exec (.jctAlignWrite dt r v) s = .next ((alignNamed v.toNat).foldl (fun v u => v.putBit F.JCT_SYNC_ALIGNING u 1) w) := by
    have hwrite := jctSyncWrite_free (s.tick dt) r v.toNat fun u hu g hg => by
      rw [← hw, hodo g hg]
      exact hfree u (mem_alignNamed.1 hu).1 (mem_alignNamed.1 hu).2 g hg
    rw [← hw] at hwrite
    exact congrArg Host.Outcome.next ((accessing_of_ok (s := s.tick dt) ha r v.toNat fun _ => (s.tick dt).jctSyncWrite r v.toNat).trans hwrite)
  refine ⟨_, hx, h2.trans hwp, fun u hu => ?_, keeps_mono (keeps_trans hwk h3) (by simp), onlyRegs_trans hwr h4⟩
  rw [h1 u hu, hwa]
  have hlt : bitsOf v.toNat u 1 < 2 := bitsOf_lt ..
  have hlt2 : bitsOf (s.fld F.JCT_SYNC_ALIGNING) u 1 < 2 := bitsOf_lt ..
  split
  · next h =>
    have := (mem_alignNamed.1 h).2
    omega
  · next h =>
    have : bitsOf v.toNat u 1 ≠ 1 := fun hb => h (mem_alignNamed.2 ⟨hu, hb⟩)
    omega

theorem alignTimeout_leaves (u : Fin 4) (h : bitsOf (s.fld F.JCT_SYNC_ALIGNING) u 1 = 1) : ∃ t, exec (.alignTimeout dt u) s = .next t ∧
    (∀ k < 4, bitsOf (t.fld F.JCT_SYNC_ALIGNING) k 1 = if k = u.val then 0 else bitsOf (s.fld F.JCT_SYNC_ALIGNING) k 1) ∧
    s.keeps t [(.JCT_SYNC, 0, 0)] ∧ t = { s.tick dt with regs := t.regs, out := s.out ++ [.report (.note 11 u)] } := by
  obtain ⟨w, hw⟩ : ∃ w, w = (s.tick dt).putBit F.JCT_SYNC_ALIGNING u 0 := ⟨_, rfl⟩
  have hwr : (s.tick dt).onlyRegs w := hw ▸ putBit_onlyRegs ..
  have hwk : s.keeps w [(.JCT_SYNC, 0, 0)] := hw ▸ putBit_keeps (s.tick dt) (f := F.JCT_SYNC_ALIGNING) _ _ ⟨Nat.one_pos, Nat.one_pos⟩
  have hwb : ∀ k, bitsOf (w.fld F.JCT_SYNC_ALIGNING) k 1 = if k = u.val then 0 else bitsOf (s.fld F.JCT_SYNC_ALIGNING) k 1 :=
    fun k => hw ▸ bitsOf_fld_putBit (s.tick dt) (by decide) u.isLt k
  refine ⟨w.tell (.note 11 u), ?_, fun k _ => hwb k, keeps_congr rfl hwk, ?_⟩
  · have h' : bitsOf ((s.tick dt).fld F.JCT_SYNC_ALIGNING) u 1 = 1 := h
    rw [hw]
    exact if_pos h'
  · rw [State.tell, State.emit, onlyRegs_out hwr, show w = { s.tick dt with regs := w.regs } from hwr]
    rfl

end

/-- Settles O52: each flit, message and position by its own rule. -/
theorem junctionTraffic : Obligations.JunctionTraffic := by
  unfold Obligations.JunctionTraffic
  intro dt j s now active sent
  have hsent {k : Nat} (m : JMsg) (h : active k) : sent ((s.tick dt).jctMsg k m) k m := by
    obtain ⟨ha, htx, hc, hu⟩ := h
    have ha' : (s.tick dt).jctActive k = true := ha
    obtain ⟨h1, h2, h3⟩ := jctMsg_leaves (s.tick dt) m ha' htx hc hu
    exact ⟨h1, h2, h3.others, h3.frame⟩
  refine ⟨fun f hst => ⟨fun hbad => flit_damaged hst hbad, fun b hgood hpay hvc hkind htx =>
      ⟨fun hseq => flit_taken hst hgood hpay hvc hkind htx hseq, fun hseq => flit_out_of_order hst hgood hpay hvc hkind htx hseq⟩⟩,
    fun ha hu => replay_leaves ha hu, fun h => ⟨_, exec_timeSend h.1, hsent _ h⟩,
    fun m ha hd => ⟨fun k hr hk hh => ⟨_, (exec_control ha hd).trans (congrArg Host.Outcome.next (ctlSend_routed (s := s.tick dt) hr hh)), hsent _ hk⟩,
      fun hr => (exec_control ha hd).trans (congrArg Host.Outcome.next (ctlSend_lost (s := s.tick dt) hr))⟩,
    positionSend_leaves s, fun time u v own o hs ho hsync => position_leaves u v hs ho hsync, fun r v ha hfree => alignWrite_leaves r v ha hfree,
    fun u h => alignTimeout_leaves u h⟩

end Sys2Proof.Machine
end

section
/-! Errors are counted, captured and logged (R412, R415, R420). -/
namespace Sys2Proof.Machine

/-- `t` differs from `s` in registers, in the log and in what leaves alone. -/
def State.onlyLogged (s t : State) : Prop :=
  t = { s with regs := t.regs, out := t.out, log := t.log, logNext := t.logNext, logLost := t.logLost }

section
variable {s t u : State}

theorem onlyLogged_trans (h : s.onlyLogged t) (h' : t.onlyLogged u) : s.onlyLogged u := by
  rw [State.onlyLogged] at h h' ⊢
  rw [h', h]

theorem onlyLogged_onlyRegs (h : s.onlyRegs t) : s.onlyLogged t := by
  rw [State.onlyLogged, show t = { s with regs := t.regs } from h]

theorem onlyLogged_logE (s : State) (src code : Nat) (args : List Nat) : s.onlyLogged (s.logE src code args) := rfl
theorem onlyLogged_tell (s : State) (r : Report) : s.onlyLogged (s.tell r) := rfl

end

/-- The word of RAS_UE_LOG that captures an error (R420). -/
def ueWord (cls : Nat) (scrub : Bool) (now : Nat) : Nat := 2 ^ 63 + cls % 8 * 2 ^ 60 + (if scrub then 2 ^ 59 else 0) + now / 1000 % 2 ^ 32

theorem ueWord_fields {cls : Nat} (hc : cls < 8) (scrub : Bool) (now : Nat) : ueWord cls scrub now < 2 ^ 64 ∧ bitsOf (ueWord cls scrub now) 63 1 = 1 ∧
    bitsOf (ueWord cls scrub now) 60 3 = cls ∧ bitsOf (ueWord cls scrub now) 59 1 = scrub.toNat := by
  unfold ueWord bitsOf
  cases scrub
  · simp only [Bool.false_eq_true, if_false, Bool.toNat_false]
    omega
  · simp only [if_true, Bool.toNat_true]
    omega

/-- The registers that capture an error, where none is captured (R420). -/
def State.ueCaptured (s : State) (cls : Nat) (scrub : Bool) (loc : Nat) : State :=
  if s.flag F.RAS_UE_LOG_VALID then s else (s.setReg .RAS_UE_LOG (ueWord cls scrub s.now)).setReg .RAS_UE_ADDR loc

theorem ueCaptured_leaves (s : State) {cls loc : Nat} (hc : cls < 8) (hl : loc < 2 ^ 64) (scrub : Bool) : let t := s.ueCaptured cls scrub loc
    (s.flag F.RAS_UE_LOG_VALID = false → t.flag F.RAS_UE_LOG_VALID = true ∧ t.fld F.RAS_UE_LOG_CLASS = cls ∧ t.flag F.RAS_UE_LOG_SCRUB = scrub ∧
      t.fld F.RAS_UE_ADDR_LOC = loc) ∧
    (s.flag F.RAS_UE_LOG_VALID = true → t.reg .RAS_UE_LOG = s.reg .RAS_UE_LOG ∧ t.reg .RAS_UE_ADDR = s.reg .RAS_UE_ADDR) ∧
    s.keeps t [(.RAS_UE_LOG, 0, 0), (.RAS_UE_ADDR, 0, 0)] ∧ s.onlyRegs t := by
  unfold State.ueCaptured
  split
  · next h => exact ⟨fun h' => (by rw [h] at h'; cases h'), fun _ => ⟨rfl, rfl⟩, keeps_refl _ _, onlyRegs_refl s⟩
  · next h =>
    obtain ⟨hw, hv, hcls, hscr⟩ := ueWord_fields hc scrub s.now
    obtain ⟨a, ha⟩ : ∃ a, a = s.setReg .RAS_UE_LOG (ueWord cls scrub s.now) := ⟨_, rfl⟩
    have har : s.onlyRegs a := ha ▸ onlyRegs_setReg ..
    have hak : s.keeps a [(.RAS_UE_LOG, 0, 0)] := ha ▸ keeps_setReg s _ ⟨Nat.one_pos, Nat.one_pos⟩
    have haw : a.reg .RAS_UE_LOG = ueWord cls scrub s.now := by
      rw [ha, State.reg_setReg_same, Nat.mod_eq_of_lt hw]
    obtain ⟨t, ht⟩ : ∃ t, t = a.setReg .RAS_UE_ADDR loc := ⟨_, rfl⟩
    have htr : a.onlyRegs t := ht ▸ onlyRegs_setReg ..
    have htk : a.keeps t [(.RAS_UE_ADDR, 0, 0)] := ht ▸ keeps_setReg a _ ⟨Nat.one_pos, Nat.one_pos⟩
    have htl : t.reg .RAS_UE_ADDR = loc := by
      rw [ht, State.reg_setReg_same, Nat.mod_eq_of_lt hl]
    have htw : t.reg .RAS_UE_LOG = ueWord cls scrub s.now := (htk _ _ _ ⟨Nat.one_pos, Nat.one_pos⟩ (by simp)).trans haw
    have hfld {f : Fld} (hf : f.reg = .RAS_UE_LOG) : t.fld f = bitsOf (ueWord cls scrub s.now) f.lo f.w := by
      rw [State.fld, hf, htw]
    rw [← ha, ← ht]
    refine ⟨fun _ => ⟨?_, (hfld rfl).trans hcls, ?_, ?_⟩, fun h' => absurd h' h, keeps_trans hak htk, onlyRegs_trans har htr⟩
    · rw [State.flag, hfld rfl, hv]
      rfl
    · rw [State.flag, hfld rfl, hscr]
      cases scrub <;> rfl
    · rw [State.fld, htl, bitsOf, Nat.pow_zero, Nat.div_one, Nat.mod_eq_of_lt hl]

theorem eccUe_eq (s : State) (cls : Nat) (scrub : Bool) (loc : Nat) : s.eccUe cls scrub loc =
    ((((s.inc F.RAS_ECC_CNT_UE cls).ueCaptured cls scrub loc).setFld F.RAS_STAT_UE 1).logE 2 0xE004
      [loc % 2 ^ 32, loc / 2 ^ 32 % 2 ^ 32, cls, 0]).tell (.note 13 cls) := rfl

/-- What an uncorrectable error leaves in the registers of R420, the log and the reports. -/
structure State.ueFound (s t : State) (cls loc : Nat) (scrub : Bool) : Prop where
  ue : t.fld F.RAS_ECC_CNT_UE cls = min (s.fld F.RAS_ECC_CNT_UE cls + 1) (2 ^ F.RAS_ECC_CNT_UE.w - 1)
  ce : t.fld F.RAS_ECC_CNT_CE cls = s.fld F.RAS_ECC_CNT_CE cls
  stat : t.flag F.RAS_STAT_UE = true
  captured : s.flag F.RAS_UE_LOG_VALID = false → t.flag F.RAS_UE_LOG_VALID = true ∧ t.fld F.RAS_UE_LOG_CLASS = cls ∧
    t.flag F.RAS_UE_LOG_SCRUB = scrub ∧ t.fld F.RAS_UE_ADDR_LOC = loc
  held : s.flag F.RAS_UE_LOG_VALID = true → t.reg .RAS_UE_LOG = s.reg .RAS_UE_LOG ∧ t.reg .RAS_UE_ADDR = s.reg .RAS_UE_ADDR
  told : t.out = s.out ++ [.report (.note 13 cls)]
  logged : s.logs t 2 0xE004 [loc % 2 ^ 32, loc / 2 ^ 32 % 2 ^ 32, cls, 0]

/-- The registers that an uncorrectable error of a class may change (R420). -/
def ueRegs (cls : Nat) : List (Reg × Nat × Nat) := [(.RAS_ECC_CNT, cls, 0), (.RAS_STAT, 0, 0), (.RAS_UE_LOG, 0, 0), (.RAS_UE_ADDR, 0, 0)]

theorem eccUe_leaves (s : State) {cls loc : Nat} (hc : cls < 8) (hl : loc < 2 ^ 64) (scrub : Bool) : s.ueFound (s.eccUe cls scrub loc) cls loc scrub ∧
    s.keeps (s.eccUe cls scrub loc) (ueRegs cls) ∧ s.onlyLogged (s.eccUe cls scrub loc) := by
  obtain ⟨a, ha⟩ : ∃ a, a = s.inc F.RAS_ECC_CNT_UE cls := ⟨_, rfl⟩
  have har : s.onlyRegs a := ha ▸ onlyRegs_inc ..
  have hak : s.keeps a [(.RAS_ECC_CNT, cls, 0)] := ha ▸ keeps_inc s F.RAS_ECC_CNT_UE ⟨hc, Nat.one_pos⟩
  have hau : a.fld F.RAS_ECC_CNT_UE cls = min (s.fld F.RAS_ECC_CNT_UE cls + 1) (2 ^ F.RAS_ECC_CNT_UE.w - 1) := ha ▸ State.fld_inc_same _ _ _ _ (by decide)
  have hac : a.fld F.RAS_ECC_CNT_CE cls = s.fld F.RAS_ECC_CNT_CE cls := ha ▸ fld_inc_at (n := 8) s hc (by decide)
  have hav : a.flag F.RAS_UE_LOG_VALID = s.flag F.RAS_UE_LOG_VALID := flag_of_keeps hak ⟨Nat.one_pos, Nat.one_pos⟩ (by simp)
  have haw : a.reg .RAS_UE_LOG = s.reg .RAS_UE_LOG := hak _ _ _ ⟨Nat.one_pos, Nat.one_pos⟩ (by simp)
  have haa : a.reg .RAS_UE_ADDR = s.reg .RAS_UE_ADDR := hak _ _ _ ⟨Nat.one_pos, Nat.one_pos⟩ (by simp)
  obtain ⟨hcap, hheld, hbk, hbr⟩ := ueCaptured_leaves a hc hl scrub
  obtain ⟨b, hb⟩ : ∃ b, b = a.ueCaptured cls scrub loc := ⟨_, rfl⟩
  rw [← hb] at hcap hheld hbk hbr
  obtain ⟨c, hcc⟩ : ∃ c, c = b.setFld F.RAS_STAT_UE 1 := ⟨_, rfl⟩
  have hcr : b.onlyRegs c := hcc ▸ onlyRegs_setFld ..
  have hck : b.keeps c [(.RAS_STAT, 0, 0)] := hcc ▸ keeps_setFld b F.RAS_STAT_UE 1 ⟨Nat.one_pos, Nat.one_pos⟩
  have hcs : c.flag F.RAS_STAT_UE = true := hcc ▸ flag_setFld_same _ F.RAS_STAT_UE 1 _ _ (by decide)
  have hx : s.eccUe cls scrub loc = (c.logE 2 0xE004 [loc % 2 ^ 32, loc / 2 ^ 32 % 2 ^ 32, cls, 0]).tell (.note 13 cls) := by
    rw [eccUe_eq, ← ha, ← hb, ← hcc]
  obtain ⟨t, ht⟩ : ∃ t, t = (c.logE 2 0xE004 [loc % 2 ^ 32, loc / 2 ^ 32 % 2 ^ 32, cls, 0]).tell (.note 13 cls) := ⟨_, rfl⟩
  have htr : t.regs = c.regs := ht ▸ rfl
  have hto : t.out = c.out ++ [.report (.note 13 cls)] := ht ▸ rfl
  have htl : c.logs t 2 0xE004 [loc % 2 ^ 32, loc / 2 ^ 32 % 2 ^ 32, cls, 0] := ht ▸ logs_logE ..
  have hte : c.onlyLogged t := ht ▸ onlyLogged_trans (onlyLogged_logE ..) (onlyLogged_tell ..)
  have hsc : s.onlyRegs c := onlyRegs_trans har (onlyRegs_trans hbr hcr)
  have hcnt {f : Fld} (hf : f.reg = .RAS_ECC_CNT) : t.fld f cls = a.fld f cls :=
    (State.fld_congr htr ..).trans ((fld_of_keeps hck (hf ▸ ⟨hc, Nat.one_pos⟩) (by simp [hf])).trans
      (fld_of_keeps hbk (hf ▸ ⟨hc, Nat.one_pos⟩) (by simp [hf])))
  have hreg {r : Reg} (hr : r = .RAS_UE_LOG ∨ r = .RAS_UE_ADDR) : t.reg r = b.reg r := by
    refine (State.reg_congr htr ..).trans (hck _ _ _ ?_ ?_)
    · obtain rfl | rfl := hr <;> exact ⟨Nat.one_pos, Nat.one_pos⟩
    · obtain rfl | rfl := hr <;> simp
  have hlog {f : Fld} (hf : f.reg = .RAS_UE_LOG ∨ f.reg = .RAS_UE_ADDR) : t.fld f = b.fld f := by rw [State.fld, State.fld, hreg hf]
  rw [hx, ← ht]
  refine ⟨⟨(hcnt rfl).trans hau, (hcnt rfl).trans hac, (flag_congr (State.fld_congr htr ..)).trans hcs, fun h => ?_, fun h => ?_, ?_, ?_⟩, ?_, ?_⟩
  · obtain ⟨h1, h2, h3, h4⟩ := hcap (hav.trans h)
    exact ⟨(flag_congr (hlog (.inl rfl))).trans h1, (hlog (.inl rfl)).trans h2, (flag_congr (hlog (.inl rfl))).trans h3, (hlog (.inr rfl)).trans h4⟩
  · obtain ⟨h1, h2⟩ := hheld (hav.trans h)
    exact ⟨(hreg (.inl rfl)).trans (h1.trans haw), (hreg (.inr rfl)).trans (h2.trans haa)⟩
  · rw [hto, onlyRegs_out hsc]
  · exact logs_after htl (by rw [show c = { s with regs := c.regs } from hsc]) (by rw [show c = { s with regs := c.regs } from hsc])
  · exact keeps_mono (keeps_congr htr (keeps_trans hak (keeps_trans hbk hck))) (by simp [ueRegs])
  · exact onlyLogged_trans (onlyLogged_onlyRegs hsc) hte

end Sys2Proof.Machine
end

section
/-! What errors of the depot and of milestones do, octets, holds and AON copies (R411, R413, R417, R432). -/
namespace Sys2Proof.Machine

section
variable {dt : Nat} {s : State}

/-- A corrected error of the depot (R420). -/
theorem depotCe_leaves (a : Fin 0x2000000) (scrub : Bool) (reg : Region) (dst : Option (Fin 12288)) :
    ∃ t, exec (.scrubRead dt (.depot a) false scrub reg dst none) s = .next t ∧
      t.fld F.RAS_ECC_CNT_CE 3 = min (s.fld F.RAS_ECC_CNT_CE 3 + 1) (2 ^ F.RAS_ECC_CNT_CE.w - 1) ∧
      t.fld F.RAS_ECC_CNT_UE 3 = s.fld F.RAS_ECC_CNT_UE 3 ∧ s.keeps t [(.RAS_ECC_CNT, 3, 0)] ∧ t = { s.tick dt with regs := t.regs } := by
  have hx : exec (.scrubRead dt (.depot a) false scrub reg dst none) s = .next ((s.tick dt).inc F.RAS_ECC_CNT_CE 3) := by
    change execScrubRead dt (.depot a) false scrub reg dst none s = _
    unfold execScrubRead
    rfl
  exact ⟨_, hx, State.fld_inc_same _ _ _ _ (by decide), fld_inc_at (n := 8) _ (by decide) (by decide),
    keeps_inc (s.tick dt) F.RAS_ECC_CNT_CE ⟨by decide, Nat.one_pos⟩, onlyRegs_inc ..⟩

/-- An uncorrectable error with a place and no region to look after is counted, captured and contained (R410, R420). -/
theorem exec_scrubUe {x : EccPlace} {scrub : Bool} {reg : Region} {dst : Option (Fin 12288)} {loc : Nat} (hloc : eccLoc x = some loc)
    (hcls : (eccClass x != 6) = true) (hreg : ∀ u : State, u.ueRegion x reg (dst.map (·.val)) = u) :
    exec (.scrubRead dt x true scrub reg dst none) s = .next (((s.tick dt).eccUe (eccClass x) scrub loc).eccHit x) := by
  change execScrubRead dt x true scrub reg dst none s = _
  unfold execScrubRead
  dsimp only
  rw [hcls, hloc, hreg]
  dsimp only
  rw [if_pos (show (true && true) = true from rfl), ite_self]

/-- The mark of a granule of the depot (R411). -/
def State.depotMarked (s : State) (g : Nat) : State := { s with depotPoison := mapSet false s.depotPoison g true }

/-- An uncorrectable error of the depot (R411). -/
theorem depotUe_leaves (a : Fin 0x2000000) (scrub : Bool) (reg : Region) (dst : Option (Fin 12288)) :
    ∃ t, exec (.scrubRead dt (.depot a) true scrub reg dst none) s = .next t ∧ (s.tick dt).ueFound t 3 a scrub ∧
      (∀ g, mapGet false t.depotPoison g = (g == a.val / 16 || mapGet false s.depotPoison g)) ∧ s.keeps t (ueRegs 3) ∧
      t = { s.tick dt with
        regs := t.regs, depotPoison := t.depotPoison, out := t.out, log := t.log, logNext := t.logNext, logLost := t.logLost } := by
  obtain ⟨hf, hk, hl⟩ := eccUe_leaves (s.tick dt) (cls := 3) (loc := a.val) (by decide) (by omega) scrub
  obtain ⟨u, hu⟩ : ∃ u, u = (s.tick dt).eccUe 3 scrub a := ⟨_, rfl⟩
  have hx : exec (.scrubRead dt (.depot a) true scrub reg dst none) s = .next (u.depotMarked (a.val / 16)) := by
    rw [exec_scrubUe (x := .depot a) (loc := a.val) rfl rfl fun _ => rfl, show eccClass (.depot a) = 3 from rfl, ← hu]
    rfl
  rw [← hu] at hf hk hl
  have hp : u.depotPoison = s.depotPoison := by
    rw [show u = _ from hl]
    rfl
  refine ⟨_, hx, ⟨hf.ue, hf.ce, hf.stat, hf.captured, hf.held, hf.told, hf.logged⟩, fun g => ?_, keeps_congr rfl hk, ?_⟩
  · change mapGet false (mapSet false u.depotPoison (a.val / 16) true) g = _
    rw [mapGet_mapSet, hp]
    by_cases hg : g = a.val / 16
    · rw [if_pos hg, hg]
      simp
    · rw [if_neg hg]
      simp [hg]
  · rw [State.depotMarked, show u = _ from hl]

/-- A milestone with an uncorrectable error (R413). -/
def State.msCleared (s : State) (m : Nat) : State :=
  let s := (s.setReg .MS_COUNT 0 m).setReg .MS_TARGET 0 m
  (s.setFld F.MS_CFG_STRIDE 0 m).setFld F.MS_CFG_FIRED 1 m

theorem msCleared_leaves (s : State) (m : Fin 16384) : let t := s.msCleared m
    t.fld F.MS_COUNT_COUNT m = 0 ∧ t.fld F.MS_TARGET_TARGET m = 0 ∧ t.fld F.MS_CFG_STRIDE m = 0 ∧ t.flag F.MS_CFG_FIRED m = true ∧
      t.fld F.MS_CFG_OWNER m = s.fld F.MS_CFG_OWNER m ∧ s.keeps t (msRegs m) ∧ s.onlyRegs t := by
  intro t
  obtain ⟨a, ha⟩ : ∃ a, a = s.setReg .MS_COUNT 0 m := ⟨_, rfl⟩
  obtain ⟨b, hb⟩ : ∃ b, b = a.setReg .MS_TARGET 0 m := ⟨_, rfl⟩
  obtain ⟨c, hc⟩ : ∃ c, c = (b.setFld F.MS_CFG_STRIDE 0 m).setFld F.MS_CFG_FIRED 1 m := ⟨_, rfl⟩
  have hzero {v : State} {f : Fld} (h : v.reg f.reg m = 0 % 2 ^ 64) : v.fld f m = 0 := by
    rw [State.fld, h]
    simp [bitsOf]
  have hak : s.keeps a [(.MS_COUNT, m.val, 0)] := ha ▸ keeps_setReg s 0 ⟨m.isLt, Nat.one_pos⟩
  have hbk : a.keeps b [(.MS_TARGET, m.val, 0)] := hb ▸ keeps_setReg a 0 ⟨m.isLt, Nat.one_pos⟩
  have hck : b.keeps c [(.MS_CFG, m.val, 0)] :=
    hc ▸ keeps_setFld_setFld (f := F.MS_CFG_STRIDE) (g := F.MS_CFG_FIRED) b _ _ rfl ⟨m.isLt, Nat.one_pos⟩
  have hac : a.fld F.MS_COUNT_COUNT m = 0 := hzero (ha ▸ State.reg_setReg_same ..)
  have hbt : b.fld F.MS_TARGET_TARGET m = 0 := hzero (hb ▸ State.reg_setReg_same ..)
  have hcs : c.fld F.MS_CFG_STRIDE m = 0 := hc ▸ (fld_setFld_at _ _ m.isLt (by decide)).trans (fld_setFld_eq _ _ (by decide) (by decide))
  have hcf : c.flag F.MS_CFG_FIRED m = true := hc ▸ flag_setFld_same _ F.MS_CFG_FIRED 1 _ _ (by decide)
  have hco : c.fld F.MS_CFG_OWNER m = b.fld F.MS_CFG_OWNER m :=
    hc ▸ (fld_setFld_at _ _ m.isLt (by decide)).trans (fld_setFld_at _ _ m.isLt (by decide))
  have ht : t = c := by rw [hc, hb, ha]; rfl
  rw [ht]
  refine ⟨?_, ?_, hcs, hcf, ?_, keeps_mono (keeps_trans hak (keeps_trans hbk hck)) (by simp [msRegs]), ?_⟩
  · exact (fld_of_keeps hck ⟨m.isLt, Nat.one_pos⟩ (by simp)).trans ((fld_of_keeps hbk ⟨m.isLt, Nat.one_pos⟩ (by simp)).trans hac)
  · exact (fld_of_keeps hck ⟨m.isLt, Nat.one_pos⟩ (by simp)).trans hbt
  · exact hco.trans ((fld_of_keeps hbk ⟨m.isLt, Nat.one_pos⟩ (by simp)).trans (fld_of_keeps hak ⟨m.isLt, Nat.one_pos⟩ (by simp)))
  · rw [hc, hb, ha]
    exact onlyRegs_trans (onlyRegs_trans (onlyRegs_setReg ..) (onlyRegs_setReg ..)) (onlyRegs_setFld_setFld ..)

theorem milestoneUe_leaves (m : Fin 16384) (scrub : Bool) (reg : Region) (dst : Option (Fin 12288)) (ho : s.fld F.MS_CFG_OWNER m ≠ 3) :
    ∃ t, exec (.scrubRead dt (.milestone m) true scrub reg dst none) s = .next t ∧ (s.tick dt).ueFound t 7 (regAddr .MS_COUNT m) scrub ∧
      t.fld F.MS_COUNT_COUNT m = 0 ∧ t.fld F.MS_TARGET_TARGET m = 0 ∧ t.fld F.MS_CFG_STRIDE m = 0 ∧ t.flag F.MS_CFG_FIRED m = true ∧
      t.fld F.MS_CFG_OWNER m = s.fld F.MS_CFG_OWNER m ∧ s.keeps t (msRegs m ++ ueRegs 7) ∧ (s.tick dt).onlyLogged t := by
  have haddr : regAddr .MS_COUNT m < 2 ^ 64 := by
    have hm := m.isLt
    change 0x740000 + m.val * 0x10 + 0 * _ < _
    omega
  obtain ⟨hf, hk, hl⟩ := eccUe_leaves (s.tick dt) (cls := 7) (loc := regAddr .MS_COUNT m) (by decide) haddr scrub
  obtain ⟨u, hu⟩ : ∃ u, u = (s.tick dt).eccUe 7 scrub (regAddr .MS_COUNT m) := ⟨_, rfl⟩
  rw [← hu] at hf hk hl
  have hown : u.fld F.MS_CFG_OWNER m = s.fld F.MS_CFG_OWNER m := fld_of_keeps hk ⟨m.isLt, Nat.one_pos⟩ (by simp [ueRegs])
  have hne : ¬ u.fld F.MS_CFG_OWNER m = 3 := by rwa [hown]
  have hx : exec (.scrubRead dt (.milestone m) true scrub reg dst none) s = .next (u.msFault m) := by
    rw [exec_scrubUe (x := .milestone m) (loc := regAddr .MS_COUNT m) rfl rfl fun _ => rfl, show eccClass (.milestone m) = 7 from rfl, ← hu]
    rfl
  obtain ⟨h1, h2, h3, h4, h5, h6, h7⟩ := msCleared_leaves u m
  obtain ⟨t, ht⟩ : ∃ t, t = u.msCleared m := ⟨_, rfl⟩
  have hmf : u.msFault m = t := by
    rw [State.msFault, if_neg hne, ht]
    rfl
  rw [← ht] at h1 h2 h3 h4 h5 h6 h7
  have hras {r : Reg} {i : Nat} (hm : (r, i, 0) ∈ ueRegs 7) : t.reg r i = u.reg r i := by
    simp only [ueRegs, List.mem_cons, List.not_mem_nil, or_false, Prod.mk.injEq, and_true] at hm
    obtain ⟨rfl, rfl⟩ | ⟨rfl, rfl⟩ | ⟨rfl, rfl⟩ | ⟨rfl, rfl⟩ := hm <;> exact h6 _ _ _ ⟨by decide, Nat.one_pos⟩ (by simp [msRegs])
  have hrf {f : Fld} {i : Nat} (hm : (f.reg, i, 0) ∈ ueRegs 7) : t.fld f i = u.fld f i := by rw [State.fld, State.fld, hras hm]
  refine ⟨t, hx.trans (congrArg Host.Outcome.next hmf), ⟨(hrf (by simp [ueRegs])).trans hf.ue, (hrf (by simp [ueRegs])).trans hf.ce,
    (flag_congr (hrf (by simp [ueRegs]))).trans hf.stat, fun h => ?_, fun h => ?_, (onlyRegs_out h7).trans hf.told, ?_⟩, h1, h2, h3, h4, h5.trans hown,
    keeps_mono (keeps_trans hk h6) (by simp [or_comm]), onlyLogged_trans hl (onlyLogged_onlyRegs h7)⟩
  · obtain ⟨g1, g2, g3, g4⟩ := hf.captured h
    exact ⟨(flag_congr (hrf (by simp [ueRegs]))).trans g1, (hrf (by simp [ueRegs])).trans g2, (flag_congr (hrf (by simp [ueRegs]))).trans g3,
      (hrf (by simp [ueRegs])).trans g4⟩
  · obtain ⟨g1, g2⟩ := hf.held h
    exact ⟨(hras (by simp [ueRegs])).trans g1, (hras (by simp [ueRegs])).trans g2⟩
  · exact logs_congr hf.logged rfl rfl (by rw [show t = { u with regs := t.regs } from h7]) (by rw [show t = { u with regs := t.regs } from h7])

end

end Sys2Proof.Machine
end

section
/-! Octets that are retired, holds that are released, AON copies that disagree (R417, R432, R434). -/
namespace Sys2Proof.Machine

section
variable {dt : Nat} {s : State}

theorem withBit_eq (n d : Nat) : withBit n d = putBits n d 1 1 := by
  rw [withBit, ← bitSet_eq]
  refine if_congr ?_ rfl rfl
  rw [Nat.testBit_eq_decide_div_mod_eq, decide_eq_true_eq, bitsOf]
  rfl

/-- The registers of a stack that follow its octets (R225, R226). -/
def stackRegs (k : Nat) : List (Reg × Nat × Nat) := [(.STR_OCTET, k, 0), (.STR_CAP, k, 0), (.STR_RSV, k, 0), (.STR_OUT, k, 0)]

theorem slotRates_onlyRegs (s : State) (k : Nat) : s.onlyRegs (s.slotRates k) :=
  onlyRegs_trans (onlyRegs_trans (onlyRegs_trans (onlyRegs_setFld ..) (onlyRegs_setFld ..)) (onlyRegs_setFld ..)) (onlyRegs_setFld ..)

theorem slotRates_leaves (s : State) (k : Fin 4) : (s.slotRates k).fld F.STR_OCTET_RETIRED k = s.fld F.STR_OCTET_RETIRED k ∧
    s.keeps (s.slotRates k) (stackRegs k) ∧ s.onlyRegs (s.slotRates k) := by
  have hfld (v : State) {f : Fld} (n : Nat) (h : f.apart F.STR_OCTET_RETIRED 4 = true) :
      (v.setFld f n k).fld F.STR_OCTET_RETIRED k = v.fld F.STR_OCTET_RETIRED k := fld_setFld_at v n k.isLt h
  have hput {v : State} (h : s.keeps v (stackRegs k)) {f : Fld} (n : Nat) (hf : regHas f.reg k 0) (hm : (f.reg, k.val, 0) ∈ stackRegs k) :
      s.keeps (v.setFld f n k) (stackRegs k) := keeps_setFld_of_keeps s n h hf hm
  unfold State.slotRates
  dsimp only
  refine ⟨?_, ?_, ?_⟩
  · exact (hfld _ _ (by decide)).trans ((hfld _ _ (by decide)).trans ((hfld _ _ (by decide)).trans (hfld _ _ (by decide))))
  · have h1 (n : Nat) : s.keeps (s.setFld F.STR_CAP_SUST_MBPS n k) (stackRegs k) :=
      hput (keeps_refl _ _) n ⟨k.isLt, Nat.one_pos⟩ (by simp [stackRegs])
    exact hput (f := F.STR_CAP_OVER) (hput (f := F.STR_OUT_OUT_RSV) (hput (f := F.STR_RSV_RSV_MBPS) (h1 _) _ ⟨k.isLt, Nat.one_pos⟩
      (by simp [stackRegs])) _ ⟨k.isLt, Nat.one_pos⟩ (by simp [stackRegs])) _ ⟨k.isLt, Nat.one_pos⟩ (by simp [stackRegs])
  · exact slotRates_onlyRegs s k

/-- What is noted of a repaired octet (R432, R435). -/
def State.octetNoted (s : State) (k q : Nat) : State :=
  { s with repair := (s.repair.filter fun e => !decide (e.kind = 4 ∧ e.a = k ∧ e.b = q)) ++ [⟨4, k, q, 0, 0⟩], repairAt := s.now }

theorem octetRetire_free {k q : Nat} (h : s.svc = []) : s.octetRetire k q =
    ((s.setFld F.STR_OCTET_RETIRED (withBit (s.fld F.STR_OCTET_RETIRED k) q) k).slotRates k).octetNoted k q := by
  obtain ⟨u, hu⟩ : ∃ u, u = ((s.setFld F.STR_OCTET_RETIRED (withBit (s.fld F.STR_OCTET_RETIRED k) q) k).slotRates k).octetNoted k q := ⟨_, rfl⟩
  have hsvc : ((s.setFld F.STR_OCTET_RETIRED (withBit (s.fld F.STR_OCTET_RETIRED k) q) k).slotRates k).svc = [] := by
    have hr := onlyRegs_trans (onlyRegs_setFld s F.STR_OCTET_RETIRED (withBit (s.fld F.STR_OCTET_RETIRED k) q) k 0) (slotRates_onlyRegs _ k)
    rw [show State.slotRates _ k = _ from hr]
    exact h
  unfold State.octetRetire
  dsimp only
  rw [← State.octetNoted, ← hu, hsvc]
  rfl

/-- A fault of a pseudo-channel retires its octet (R432). -/
theorem channelFault_leaves (k : Fin 4) (pc : Fin 32) (h : s.svc = []) : ∃ t, exec (.hbmPseudoChannelFault dt k pc) s = .next t ∧
    (∀ q < 4, bitsOf (t.fld F.STR_OCTET_RETIRED k) q 1 = if q = pc.val / 8 then 1 else bitsOf (s.fld F.STR_OCTET_RETIRED k) q 1) ∧
    s.keeps t (stackRegs k) ∧ t = { s.tick dt with regs := t.regs, repair := t.repair, repairAt := t.repairAt } := by
  obtain ⟨u, hu⟩ : ∃ u, u = (s.tick dt).setFld F.STR_OCTET_RETIRED (withBit (s.fld F.STR_OCTET_RETIRED k) (pc.val / 8)) k := ⟨_, rfl⟩
  have hur : (s.tick dt).onlyRegs u := hu ▸ onlyRegs_setFld ..
  have huk : s.keeps u [(.STR_OCTET, k.val, 0)] := hu ▸ keeps_setFld (s.tick dt) F.STR_OCTET_RETIRED _ ⟨k.isLt, Nat.one_pos⟩
  have huo : u.fld F.STR_OCTET_RETIRED k = putBits (s.fld F.STR_OCTET_RETIRED k) (pc.val / 8) 1 1 := by
    rw [hu, withBit_eq, fld_setFld_eq _ _ (by decide) (putBits_lt _ _ _ _ _ (by have := pc.isLt; change pc.val / 8 + 1 ≤ 4; omega) (s.fld_lt ..))]
  obtain ⟨hvo, hvk, hvr⟩ := slotRates_leaves u k
  obtain ⟨v, hv⟩ : ∃ v, v = u.slotRates k := ⟨_, rfl⟩
  rw [← hv] at hvo hvk hvr
  have hx : exec (.hbmPseudoChannelFault dt k pc) s = .next (v.octetNoted k (pc.val / 8)) := by
    have h' : (s.tick dt).svc = [] := h
    rw [hv, hu]
    exact congrArg Host.Outcome.next (octetRetire_free h')
  refine ⟨_, hx, fun q _ => ?_, keeps_congr rfl (keeps_mono (keeps_trans huk hvk) (by simp [stackRegs])), ?_⟩
  · exact (congrArg (bitsOf · q 1) (hvo.trans huo)).trans (bitsOf_putBit ..)
  · rw [State.octetNoted, show v = { s.tick dt with regs := v.regs } from onlyRegs_trans hur hvr]

/-- A hold is released after 1 ms (R417). -/
theorem holdTimeout_leaves (h : Fin 4) (he : s.flag F.RAS_HOLD_EN h = true) (hh : s.flag F.RAS_HOLD_HOLDING h = true) :
    ∃ t, exec (.rasHoldTimeout dt h) s = .next t ∧ t.flag F.RAS_HOLD_EN h = false ∧ t.flag F.RAS_HOLD_HOLDING h = false ∧
      t.flag F.RAS_HOLD_RELEASED h = true ∧ t.fld F.RAS_HOLD_UNIT h = s.fld F.RAS_HOLD_UNIT h ∧ t.fld F.RAS_HOLD_ENTRY h = s.fld F.RAS_HOLD_ENTRY h ∧
      t.out = s.out ++ [.report (.note 15 h)] ∧ s.keeps t [(.RAS_HOLD, h.val, 0)] ∧ t = { s.tick dt with regs := t.regs, out := t.out } := by
  obtain ⟨a, ha⟩ : ∃ a, a = (s.tick dt).setFld F.RAS_HOLD_EN 0 h := ⟨_, rfl⟩
  obtain ⟨b, hb⟩ : ∃ b, b = a.setFld F.RAS_HOLD_HOLDING 0 h := ⟨_, rfl⟩
  obtain ⟨c, hc⟩ : ∃ c, c = b.setFld F.RAS_HOLD_RELEASED 1 h := ⟨_, rfl⟩
  have haf {f : Fld} (hf : F.RAS_HOLD_EN.apart f 4 = true) : a.fld f h = s.fld f h := ha ▸ fld_setFld_at (s.tick dt) 0 h.isLt hf
  have hbf {f : Fld} (hf : F.RAS_HOLD_HOLDING.apart f 4 = true) : b.fld f h = a.fld f h := hb ▸ fld_setFld_at a 0 h.isLt hf
  have hcf {f : Fld} (hf : F.RAS_HOLD_RELEASED.apart f 4 = true) : c.fld f h = b.fld f h := hc ▸ fld_setFld_at b 1 h.isLt hf
  have hae : a.flag F.RAS_HOLD_EN h = false := ha ▸ flag_setFld_same _ F.RAS_HOLD_EN 0 _ _ (by decide)
  have hbh : b.flag F.RAS_HOLD_HOLDING h = false := hb ▸ flag_setFld_same _ F.RAS_HOLD_HOLDING 0 _ _ (by decide)
  have hcr : c.flag F.RAS_HOLD_RELEASED h = true := hc ▸ flag_setFld_same _ F.RAS_HOLD_RELEASED 1 _ _ (by decide)
  have hkeep : s.keeps c [(.RAS_HOLD, h.val, 0)] := by
    rw [hc, hb, ha]
    exact keeps_mono (keeps_trans (keeps_setFld_setFld (f := F.RAS_HOLD_EN) (g := F.RAS_HOLD_HOLDING) (s.tick dt) _ _ rfl ⟨h.isLt, Nat.one_pos⟩)
      (keeps_setFld _ F.RAS_HOLD_RELEASED 1 ⟨h.isLt, Nat.one_pos⟩)) (by simp)
  have hregs : (s.tick dt).onlyRegs c := by
    rw [hc, hb, ha]
    exact onlyRegs_trans (onlyRegs_setFld_setFld ..) (onlyRegs_setFld ..)
  refine ⟨c.tell (.note 15 h), ?_, (flag_congr ((hcf (by decide)).trans (hbf (by decide)))).trans hae, (flag_congr (hcf (by decide))).trans hbh, hcr,
    (hcf (by decide)).trans ((hbf (by decide)).trans (haf (by decide))), (hcf (by decide)).trans ((hbf (by decide)).trans (haf (by decide))),
    congrArg (· ++ _) ((onlyRegs_out hregs).trans rfl), keeps_congr rfl hkeep, ?_⟩
  · have hg : (s.tick dt).flag F.RAS_HOLD_EN h = true ∧ (s.tick dt).flag F.RAS_HOLD_HOLDING h = true := ⟨he, hh⟩
    rw [hc, hb, ha]
    exact if_pos hg
  · rw [State.tell, State.emit, show c = { s.tick dt with regs := c.regs } from hregs]

/-- The AON copies disagree (R434). -/
theorem aonMismatch_leaves : ∃ t, exec (.aonSelfCheckMismatch dt) s = .next t ∧
    t.fld F.RAS_SELFCHK_AON_MIS = min (s.fld F.RAS_SELFCHK_AON_MIS + 1) (2 ^ F.RAS_SELFCHK_AON_MIS.w - 1) ∧ t.flag F.RAS_STAT_SELF = true ∧
    s.logs t 2 0xE005 [0, min (s.fld F.RAS_SELFCHK_AON_MIS + 1) (2 ^ F.RAS_SELFCHK_AON_MIS.w - 1), 0, 0] ∧ t.out = s.out ++ [.report (.note 16 0)] ∧
    s.keeps t [(.RAS_SELFCHK, 0, 0), (.RAS_STAT, 0, 0)] ∧ (s.tick dt).onlyLogged t := by
  obtain ⟨a, ha⟩ : ∃ a, a = (s.tick dt).inc F.RAS_SELFCHK_AON_MIS := ⟨_, rfl⟩
  obtain ⟨b, hb⟩ : ∃ b, b = a.setFld F.RAS_STAT_SELF 1 := ⟨_, rfl⟩
  have haf : a.fld F.RAS_SELFCHK_AON_MIS = min (s.fld F.RAS_SELFCHK_AON_MIS + 1) (2 ^ F.RAS_SELFCHK_AON_MIS.w - 1) :=
    ha ▸ State.fld_inc_same _ _ _ _ (by decide)
  have hbf : b.fld F.RAS_SELFCHK_AON_MIS = a.fld F.RAS_SELFCHK_AON_MIS := hb ▸ fld_setFld_at a _ Nat.one_pos (by decide)
  have hbs : b.flag F.RAS_STAT_SELF = true := hb ▸ flag_setFld_same _ F.RAS_STAT_SELF 1 _ _ (by decide)
  have hkeep : s.keeps b [(.RAS_SELFCHK, 0, 0), (.RAS_STAT, 0, 0)] := by
    rw [hb, ha]
    exact keeps_trans (keeps_inc (s.tick dt) F.RAS_SELFCHK_AON_MIS ⟨Nat.one_pos, Nat.one_pos⟩) (keeps_setFld _ F.RAS_STAT_SELF 1 ⟨Nat.one_pos, Nat.one_pos⟩)
  have hr : (s.tick dt).onlyRegs b := by
    rw [hb, ha]
    exact onlyRegs_trans (onlyRegs_inc ..) (onlyRegs_setFld ..)
  have hx : exec (.aonSelfCheckMismatch dt) s = .next ((b.logE 2 0xE005 [0, b.fld F.RAS_SELFCHK_AON_MIS, 0, 0]).tell (.note 16 0)) := by
    rw [hbf, hb, ha]
    change execAonSelfCheckMismatch dt s = _
    unfold execAonSelfCheckMismatch
    dsimp only
  refine ⟨_, hx, hbf.trans haf, hbs, logs_after (u := b) ?_ (by rw [show b = { s.tick dt with regs := b.regs } from hr]; rfl)
    (by rw [show b = { s.tick dt with regs := b.regs } from hr]; rfl), congrArg (· ++ _) ((onlyRegs_out hr).trans rfl), keeps_congr rfl hkeep,
    onlyLogged_trans (onlyLogged_onlyRegs hr) (onlyLogged_trans (onlyLogged_logE ..) (onlyLogged_tell ..))⟩
  rw [hbf, haf]
  exact logs_logE ..

end

/-- Settles O53: each error by its own rule. -/
theorem errorsAreCountedAndContained : Obligations.ErrorsAreCountedAndContained := by
  unfold Obligations.ErrorsAreCountedAndContained
  intro dt s up found regs
  have hfound {t : State} {cls loc : Nat} {scrub : Bool} (h : (s.tick dt).ueFound t cls loc scrub) : found t cls loc scrub :=
    ⟨h.ue, h.ce, h.stat, h.captured, h.held, h.told, h.logged⟩
  refine ⟨fun a scrub reg dst => ⟨depotCe_leaves a scrub reg dst, ?_⟩, fun m scrub reg dst ho => ?_, fun k pc h => channelFault_leaves k pc h,
    fun h he hh => holdTimeout_leaves h he hh, aonMismatch_leaves⟩
  · obtain ⟨t, hx, hf, hp, hk, hl⟩ := depotUe_leaves (dt := dt) (s := s) a scrub reg dst
    exact ⟨t, hx, hfound hf, hp, hk, hl⟩
  · obtain ⟨t, hx, hf, h1, h2, h3, h4, h5, hk, hl⟩ := milestoneUe_leaves (dt := dt) m scrub reg dst ho
    exact ⟨t, hx, hfound hf, h1, h2, h3, h4, h5, hk, hl⟩

end Sys2Proof.Machine
end

section
/-! Self-tests of units, rotation tests, and the end of a substitution's copy (R424, R428, R429). -/
namespace Sys2Proof.Machine

section
variable {dt : Nat} {s : State}

theorem svcTested_idle {v : State} (h : v.svc = []) (rows : Nat) (lost : Bool) : v.svcTested rows lost = v := by
  unfold State.svcTested
  rw [h]
  rfl

theorem svcSubst_idle {v : State} (h : v.svc = []) (k : Nat) : v.svcSubst k = v := by
  unfold State.svcSubst
  rw [h]
  rfl

theorem onlyRegs_svc {s t : State} (h : s.onlyRegs t) : t.svc = s.svc := by rw [show t = { s with regs := t.regs } from h]
theorem laybyFree_onlyRegs (s : State) : s.onlyRegs s.laybyFree := onlyRegs_setFld ..
theorem laybyFree_keeps (s : State) : s.keeps s.laybyFree [(.RAS_STAT, 0, 0)] := keeps_setFld s F.RAS_STAT_LAYBY_FREE _ ⟨Nat.one_pos, Nat.one_pos⟩

/-- The registers that say how a self-test went (R428). -/
def bistRegs : List (Reg × Nat × Nat) := [(.RAS_BIST_FAIL, 0, 0), (.RAS_BIST_STAT, 0, 0), (.DEV_START, 0, 0)]

/-- How a self-test went, in the registers of R428: what failed, and the rows mapped out. -/
def State.bistShown (s : State) (bad pass rows : Nat) (lost : Prop) [Decidable lost] : State :=
  let s := s.setReg .RAS_BIST_FAIL bad
  let s := ((s.setFld F.RAS_BIST_STAT_STATE 2).setFld F.RAS_BIST_STAT_PASS pass).setFld F.RAS_BIST_STAT_ROWS_MAPPED rows
  if lost ∧ s.fld F.DEV_START_STAGE ≠ 8 then s.setFld F.DEV_START_BIST_RETIRED 1 else s

theorem bistShown_leaves (s : State) {bad pass : Nat} (hb : bad < 2 ^ 32) (hp : pass < 2) (lost : Prop) [Decidable lost] : let t := s.bistShown bad pass 0 lost
    t.fld F.RAS_BIST_FAIL_FAIL = bad ∧ t.fld F.RAS_BIST_STAT_STATE = 2 ∧ t.flag F.RAS_BIST_STAT_PASS = (pass == 1) ∧
      t.fld F.RAS_BIST_STAT_ROWS_MAPPED = 0 ∧ s.keeps t bistRegs ∧ s.onlyRegs t := by
  intro t
  obtain ⟨a, ha⟩ : ∃ a, a = s.setReg .RAS_BIST_FAIL bad := ⟨_, rfl⟩
  obtain ⟨b, hb'⟩ : ∃ b, b = a.setFld F.RAS_BIST_STAT_STATE 2 := ⟨_, rfl⟩
  obtain ⟨c, hc⟩ : ∃ c, c = b.setFld F.RAS_BIST_STAT_PASS pass := ⟨_, rfl⟩
  obtain ⟨d, hd⟩ : ∃ d, d = c.setFld F.RAS_BIST_STAT_ROWS_MAPPED 0 := ⟨_, rfl⟩
  have har : s.onlyRegs a := ha ▸ onlyRegs_setReg ..
  have hak : s.keeps a [(.RAS_BIST_FAIL, 0, 0)] := ha ▸ keeps_setReg s _ ⟨Nat.one_pos, Nat.one_pos⟩
  have haf : a.fld F.RAS_BIST_FAIL_FAIL = bad := by
    have hlt : bad < 2 ^ 64 := Nat.lt_trans hb (by decide)
    rw [State.fld, ha, State.reg_setReg_same, Nat.mod_eq_of_lt hlt, bitsOf]
    exact (congrArg (· % 2 ^ 32) (Nat.div_one bad)).trans (Nat.mod_eq_of_lt hb)
  have hd' : d = ((a.setFld F.RAS_BIST_STAT_STATE 2).setFld F.RAS_BIST_STAT_PASS pass).setFld F.RAS_BIST_STAT_ROWS_MAPPED 0 := by rw [hd, hc, hb']
  have hdr : a.onlyRegs d := hd' ▸ onlyRegs_trans (onlyRegs_setFld_setFld ..) (onlyRegs_setFld ..)
  have hdk : a.keeps d [(.RAS_BIST_STAT, 0, 0)] := by
    rw [hd']
    exact keeps_mono (keeps_trans (keeps_setFld_setFld (f := F.RAS_BIST_STAT_STATE) (g := F.RAS_BIST_STAT_PASS) a _ _ rfl ⟨Nat.one_pos, Nat.one_pos⟩)
      (keeps_setFld _ F.RAS_BIST_STAT_ROWS_MAPPED 0 ⟨Nat.one_pos, Nat.one_pos⟩)) (by simp)
  have hds : d.fld F.RAS_BIST_STAT_STATE = 2 := by
    rw [hd, fld_setFld_at (n := 1) _ _ Nat.one_pos (by decide), hc, fld_setFld_at (n := 1) _ _ Nat.one_pos (by decide), hb']
    exact fld_setFld_eq _ _ (by decide) (by decide)
  have hdp : d.flag F.RAS_BIST_STAT_PASS = (pass == 1) := by
    have hcp : c.fld F.RAS_BIST_STAT_PASS = pass := hc ▸ fld_setFld_eq _ _ (by decide) hp
    rw [State.flag, hd, fld_setFld_at (n := 1) _ _ Nat.one_pos (by decide), hcp]
  have hdm : d.fld F.RAS_BIST_STAT_ROWS_MAPPED = 0 := hd ▸ fld_setFld_eq _ _ (by decide) (by decide)
  have hdf : d.fld F.RAS_BIST_FAIL_FAIL = bad := (fld_of_keeps hdk ⟨Nat.one_pos, Nat.one_pos⟩ (by simp)).trans haf
  have ht : t = if lost ∧ d.fld F.DEV_START_STAGE ≠ 8 then d.setFld F.DEV_START_BIST_RETIRED 1 else d := by
    rw [hd', ha]
    rfl
  have ⟨hsame, hk, hr⟩ : (∀ f : Fld, f.reg = .RAS_BIST_FAIL ∨ f.reg = .RAS_BIST_STAT → t.fld f = d.fld f) ∧ d.keeps t [(.DEV_START, 0, 0)] ∧
      d.onlyRegs t := by
    rw [ht]
    split
    · refine ⟨fun f hf => ?_, keeps_setFld d F.DEV_START_BIST_RETIRED 1 ⟨Nat.one_pos, Nat.one_pos⟩, onlyRegs_setFld ..⟩
      obtain hf | hf := hf <;>
        exact fld_setFld_reg d _ ⟨Nat.one_pos, Nat.one_pos⟩ (hf ▸ ⟨Nat.one_pos, Nat.one_pos⟩) (by simp [hf])
    · exact ⟨fun _ _ => rfl, keeps_refl _ _, onlyRegs_refl d⟩
  exact ⟨(hsame _ (.inl rfl)).trans hdf, (hsame _ (.inr rfl)).trans hds, (flag_congr (hsame _ (.inr rfl))).trans hdp, (hsame _ (.inr rfl)).trans hdm,
    keeps_mono (keeps_trans hak (keeps_trans hdk hk)) (by simp [bistRegs]), onlyRegs_trans har (onlyRegs_trans hdr hr)⟩

/-- No self-test runs. -/
def State.bistOver (s : State) : State := { s with bist := none }

/-- The self-test of a unit leaves its result (R428). -/
theorem unitTest_leaves (u : Fin 16) (fail : Bool) (res : List (Fin 32 × List (Fin 16 × Fin 1024) × List (Fin 16 × Fin 16) × Bool))
    (hsvc : s.svc = []) (hb : s.bist = some ⟨true, u⟩) : ∃ t, exec (.bistComplete dt res fail) s = .next t ∧ t.bist = none ∧
      bitsOf (t.fld F.RAS_STAT_UNIT_FAIL) u 1 = (if fail then 1 else 0) ∧
      (∀ v < 16, v ≠ u.val → bitsOf (t.fld F.RAS_STAT_UNIT_FAIL) v 1 = bitsOf (s.fld F.RAS_STAT_UNIT_FAIL) v 1) ∧
      t.fld F.RAS_BIST_STAT_STATE = 2 ∧ t.flag F.RAS_BIST_STAT_PASS = !fail ∧ t.fld F.RAS_BIST_STAT_ROWS_MAPPED = 0 ∧
      t.fld F.RAS_BIST_FAIL_FAIL = (if fail then 1 else 0) ∧
      s.keeps t [(.RAS_STAT, 0, 0), (.RAS_BIST_FAIL, 0, 0), (.RAS_BIST_STAT, 0, 0), (.DEV_START, 0, 0)] ∧
      t = { s.tick dt with regs := t.regs, bist := none } := by
  obtain ⟨a, ha⟩ : ∃ a, a = (s.tick dt).bistOver := ⟨_, rfl⟩
  have har : a.regs = s.regs := ha ▸ rfl
  have haf : a = { s.tick dt with bist := none } := ha ▸ rfl
  obtain ⟨b, hb'⟩ : ∃ b, b = a.putBit F.RAS_STAT_UNIT_FAIL u (if fail then 1 else 0) := ⟨_, rfl⟩
  have hbr : a.onlyRegs b := hb' ▸ putBit_onlyRegs ..
  have hbk : a.keeps b [(.RAS_STAT, 0, 0)] := hb' ▸ putBit_keeps a (f := F.RAS_STAT_UNIT_FAIL) _ _ ⟨Nat.one_pos, Nat.one_pos⟩
  have hbb (v : Nat) : bitsOf (b.fld F.RAS_STAT_UNIT_FAIL) v 1 = if v = u.val then (if fail then 1 else 0) else bitsOf (s.fld F.RAS_STAT_UNIT_FAIL) v 1 := by
    rw [hb', bitsOf_fld_putBit a (by decide) u.isLt, State.fld_congr har]
    cases fail <;> rfl
  obtain ⟨h1, h2, h3, h4, h5, h6⟩ := bistShown_leaves b (bad := if fail then 1 else 0) (pass := if fail then 0 else 1) (by split <;> decide)
    (by split <;> decide) (fail = true)
  obtain ⟨t, ht⟩ : ∃ t, t = b.bistShown (if fail then 1 else 0) (if fail then 0 else 1) 0 (fail = true) := ⟨_, rfl⟩
  rw [← ht] at h1 h2 h3 h4 h5 h6
  have htr : a.onlyRegs t := onlyRegs_trans hbr h6
  have hstat : t.fld F.RAS_STAT_UNIT_FAIL = b.fld F.RAS_STAT_UNIT_FAIL := fld_of_keeps h5 ⟨Nat.one_pos, Nat.one_pos⟩ (by simp [bistRegs])
  have hidle : t.svc = [] := (onlyRegs_svc htr).trans (by rw [haf]; exact hsvc)
  have hx : exec (.bistComplete dt res fail) s = .next (t.svcTested 0 fail) := by
    have hb2 : (s.tick dt).bist = some ⟨true, u⟩ := hb
    change execBistComplete dt res fail s = _
    unfold execBistComplete
    dsimp only
    rw [hb2]
    rw [ht, hb', ha]
    rfl
  refine ⟨t, hx.trans (by rw [svcTested_idle hidle]), ?_, ?_, fun v _ hv => ?_, h2, h3.trans (by cases fail <;> rfl), h4, h1,
    keeps_mono (keeps_trans (keeps_of_regs [] har) (keeps_trans hbk h5)) (by simp [bistRegs]), ?_⟩
  · rw [show t = { a with regs := t.regs } from htr, haf]
  · rw [hstat, hbb, if_pos rfl]
  · rw [hstat, hbb, if_neg hv]
  · rw [show t = { a with regs := t.regs } from htr, haf]

/-- A rotation test of a unit prepares the transaction that starts it (R429). -/
theorem rotationTest_leaves (u x : Nat) (h : 34 + u < 50) (hsvc : s.svc = []) (hst : s.fld F.DEV_START_STAGE = 8) (hmc : s.mcUp = true)
    (hready : s.txReady x 1) : ∃ t, exec (.testRotationDue dt ⟨34 + u, h⟩) s = .next t ∧ t.svc = [⟨none, 1, u, 2, 0, 0, 2, some x⟩] ∧
      t.txState x = 2 ∧ (t.tx x).origin = 1 ∧ t.out = s.out ∧ s.sameMemory t := by
  obtain ⟨j, hj⟩ : ∃ j : Svc, j = ⟨none, 1, u, 2, 0, 0, 0, none⟩ := ⟨_, rfl⟩
  obtain ⟨recs, hrecs⟩ : ∃ recs, recs = regRecs [(regAddr .RAS_BIST_CTRL, 2 ^ 31 + 2 ^ 30 + u, 0xFFFFFFFF)] := ⟨_, rfl⟩
  have hlen : recs.length = 1 := by rw [hrecs, regRecs_length, List.length_singleton]
  have hkind : ∀ r ∈ recs, r.1 ≠ 10 := hrecs ▸ regRecs_kind _
  have hready' : ((s.tick dt).svcDrop j).txReady x recs.length := hlen ▸ txReady_of_regs (s := s) rfl rfl hready
  obtain ⟨v, hv, hvs, hvo, hstore⟩ := mcTx_prepares hready' hkind 0 0
  have hvsvc : v.svc = [] := (onlyStore_svc hstore).trans (by
    change s.svc.filter _ = []
    rw [hsvc]
    rfl)
  have hx : exec (.testRotationDue dt ⟨34 + u, h⟩) s = .next { v with svc := v.svc ++ [{ j with phase := 2, tx := some x }] } := by
    have hst' : (s.tick dt).fld F.DEV_START_STAGE = 8 := hst
    have hmc' : (s.tick dt).mcUp = true := hmc
    change execTestRotationDue dt ⟨34 + u, h⟩ s = _
    unfold execTestRotationDue
    dsimp only
    rw [if_neg (by rw [hst', hmc']; simp), if_neg (show ¬ 34 + u < 34 by omega), Nat.add_sub_cancel_left, ← hj, State.svcBist, hj]
    change Host.Outcome.next ((s.tick dt).svcTx _ (regRecs [(regAddr .RAS_BIST_CTRL, 2 ^ 31 + 2 ^ 30 + u, 0xFFFFFFFF)]) 0 0 2) = _
    rw [← hrecs, ← hj]
    unfold State.svcTx
    dsimp only
    rw [hv]
  refine ⟨_, hx, ?_, hvs, hvo, (onlyStore_out hstore).trans rfl, sameMemory_of_stores ((onlyStore_depot hstore).trans rfl) ?_⟩
  · change v.svc ++ _ = _
    rw [hvsvc, hj]
    rfl
  · exact (show v.hbm = ((s.tick dt).svcDrop j).hbm by rw [show v = _ from hstore]).trans rfl

theorem testBit_sub_bit {n k : Nat} (h : n.testBit k = true) : (n - 2 ^ k).testBit k = false := by
  have hb : bitsOf n k 1 = 1 := by
    rw [Nat.testBit_eq_decide_div_mod_eq, decide_eq_true_eq] at h
    exact h
  rw [putBits_one_sub hb, testBit_putBits, if_pos ⟨Nat.le_refl k, Nat.lt_succ_self k⟩, Nat.zero_testBit]

/-- The end of a substitution's copy (R425). -/
def State.substDone (s : State) (k : Nat) : State := { s with substCopied := s.substCopied - 2 ^ k, substTag := mapSet 0 s.substTag k 0 }

theorem substCopy_leaves (k : Fin 2) (hsvc : s.svc = []) (hc : s.substCopied.testBit k = true) : ∃ t, exec (.substCopyComplete dt k) s = .next t ∧
    t.fld F.RAS_SUBST_ACTIVE k = s.fld F.RAS_SUBST_EN k ∧ t.flag F.RAS_SUBST_HOLDING k = false ∧ t.substCopied.testBit k = false ∧
    s.keeps t [(.RAS_SUBST, k.val, 0), (.RAS_STAT, 0, 0)] ∧
    t = { s.tick dt with
      regs := t.regs, substCopied := t.substCopied, substTag := t.substTag, repair := t.repair, repairAt := t.repairAt } := by
  obtain ⟨a, ha⟩ : ∃ a, a = (s.tick dt).substDone k := ⟨_, rfl⟩
  have har : a.regs = s.regs := ha ▸ rfl
  have hac : a.substCopied = s.substCopied - 2 ^ k.val := ha ▸ rfl
  have haf : a = { s.tick dt with substCopied := a.substCopied, substTag := a.substTag } := ha ▸ rfl
  obtain ⟨b, hb⟩ : ∃ b, b = a.setFld F.RAS_SUBST_ACTIVE (s.fld F.RAS_SUBST_EN k) k := ⟨_, rfl⟩
  have hba : b.fld F.RAS_SUBST_ACTIVE k = s.fld F.RAS_SUBST_EN k := hb ▸ fld_setFld_eq _ _ (by decide) (s.fld_lt F.RAS_SUBST_EN k 0)
  obtain ⟨c, hcc⟩ : ∃ c, c = b.setFld F.RAS_SUBST_HOLDING 0 k := ⟨_, rfl⟩
  have hca : c.fld F.RAS_SUBST_ACTIVE k = s.fld F.RAS_SUBST_EN k := (hcc ▸ fld_setFld_at b _ k.isLt (by decide)).trans hba
  have hch : c.flag F.RAS_SUBST_HOLDING k = false := hcc ▸ flag_setFld_same _ F.RAS_SUBST_HOLDING 0 _ _ (by decide)
  have hcr : a.onlyRegs c := by rw [hcc, hb]; exact onlyRegs_setFld_setFld ..
  have hck : a.keeps c [(.RAS_SUBST, k.val, 0)] := by
    rw [hcc, hb]
    exact keeps_setFld_setFld (f := F.RAS_SUBST_ACTIVE) (g := F.RAS_SUBST_HOLDING) a _ _ rfl ⟨k.isLt, Nat.one_pos⟩
  obtain ⟨d, hd⟩ : ∃ d, d = c.repairPut (fun e => decide (e.kind = 6 ∧ e.a = k.val))
    (if s.fld F.RAS_SUBST_EN k = 1 then [⟨6, k, c.fld F.RAS_SUBST_COL k, 0, 0⟩] else []) := ⟨_, rfl⟩
  have hdr : d.regs = c.regs := hd ▸ rfl
  have hdf : d = { c with repair := d.repair, repairAt := d.repairAt } := hd ▸ rfl
  obtain ⟨t, ht⟩ : ∃ t, t = d.laybyFree := ⟨_, rfl⟩
  have htr : d.onlyRegs t := ht ▸ laybyFree_onlyRegs d
  have htk : d.keeps t [(.RAS_STAT, 0, 0)] := ht ▸ laybyFree_keeps d
  have hfld {f : Fld} (hf : f.reg = .RAS_SUBST) : t.fld f k = c.fld f k :=
    (fld_of_keeps htk (hf ▸ ⟨k.isLt, Nat.one_pos⟩) (by simp [hf])).trans (State.fld_congr hdr ..)
  have hframe : t = { s.tick dt with
      regs := t.regs, substCopied := a.substCopied, substTag := a.substTag, repair := d.repair, repairAt := d.repairAt } := by
    rw [show t = { d with regs := t.regs } from htr, hdf, show c = { a with regs := c.regs } from hcr, haf]
  have hx : exec (.substCopyComplete dt k) s = .next (t.svcSubst k) := by
    have hc' : (s.tick dt).substCopied.testBit k = true := hc
    change execSubstCopyComplete dt k s = _
    unfold execSubstCopyComplete
    dsimp only
    rw [if_pos hc', ← State.substDone, ← ha]
    rw [ht, hd, hcc, hb]
    rfl
  refine ⟨t, hx.trans (by rw [svcSubst_idle (by rw [hframe]; exact hsvc)]), (hfld rfl).trans hca, (flag_congr (hfld rfl)).trans hch, ?_,
    keeps_trans (keeps_trans (keeps_of_regs [] har) (keeps_congr hdr hck)) htk, ?_⟩
  · rw [hframe]
    change a.substCopied.testBit k = false
    rw [hac, testBit_sub_bit hc]
  · rw [hframe]

end

end Sys2Proof.Machine
end

section
/-! A substitution copies the state of every tile to the tile that stands in for it (R425). -/
namespace Sys2Proof.Machine

/-- `t` differs from `s` in registers, in the tiles and in the row bus alone. -/
def State.onlyCopies (s t : State) : Prop := t = { s with regs := t.regs, tiles := t.tiles, busNext := t.busNext }

theorem onlyCopies_trans {s t u : State} (h : s.onlyCopies t) (h' : t.onlyCopies u) : s.onlyCopies u := by
  rw [State.onlyCopies] at h h' ⊢
  rw [h', h]

/-- Tile `b` of `t` holds what R425 copies of tile `a` of `s`. -/
structure State.standsIn (s t : State) (a b : Nat) : Prop where
  words : ∀ w < 16384, t.readW b false w = s.readW a false w
  lb : (t.tile b).lb = (s.tile a).lb
  rings : (t.tile b).rings = (s.tile a).rings
  seed : t.reg .TILE_RNG_SEED b = s.reg .TILE_RNG_SEED a

section
variable {s : State} {a b : Nat}

/-- The rows of the row bus that a copied tile waits for. -/
def State.busCopied (s : State) (a b : Nat) : State :=
  let rows := (List.range 8).filterMap fun ch =>
    if s.busNext.any (fun e => e.1 == 8 * a + ch) then some (ch, mapGet 0 s.busNext (8 * a + ch)) else none
  { s with busNext := rows.foldl (fun m q => mapSet 0 m (8 * b + q.1) q.2) (mapClear (8 * b) (8 * b + 8) s.busNext) }

theorem busCopied_regs (s : State) (a b : Nat) : (s.busCopied a b).regs = s.regs := rfl
theorem busCopied_tiles (s : State) (a b : Nat) : (s.busCopied a b).tiles = s.tiles := rfl
theorem busCopied_onlyCopies (s : State) (a b : Nat) : s.onlyCopies (s.busCopied a b) := rfl

theorem tileCopy_eq (hn : s.tState b ≠ tRetired) : s.tileCopy a b =
    ((((s.writeWs b false 0 (s.readWs a false 0 16384)).modTile b fun x => { x with lb := (s.tile a).lb, rings := (s.tile a).rings }).setReg
      .TILE_RNG_SEED (((s.writeWs b false 0 (s.readWs a false 0 16384)).modTile b fun x =>
        { x with lb := (s.tile a).lb, rings := (s.tile a).rings }).reg .TILE_RNG_SEED a) b).busCopied a b) := by
  unfold State.tileCopy
  rw [if_neg hn]
  rfl

theorem readW_copied {t : State} {k : Nat} {l : List (Reg × Nat × Nat)} (hk : k < 1088) (hkeep : s.keeps t l)
    (hl : ∀ e, (Reg.TILE_MAP, k, e) ∉ l) (ht : t.tile k = s.tile k) (w : Nat) : t.readW k false w = s.readW k false w :=
  readW_congr (map_of_keeps hkeep hk hl) (by rw [ht]) (by rw [ht]) false w

/-- One tile is copied to the one that stands in for it (R425). -/
theorem tileCopy_leaves (hb : b < 1088) (hn : s.tState b ≠ tRetired) : s.standsIn (s.tileCopy a b) a b ∧
    (∀ j, j ≠ b → (s.tileCopy a b).tile j = s.tile j) ∧ s.keeps (s.tileCopy a b) [(.TILE_RNG_SEED, b, 0)] ∧ s.onlyCopies (s.tileCopy a b) := by
  obtain ⟨cs, hcs⟩ : ∃ cs, cs = s.readWs a false 0 16384 := ⟨_, rfl⟩
  have hlen : cs.length = 16384 := hcs ▸ readWs_length ..
  obtain ⟨u, hu⟩ : ∃ u, u = s.writeWs b false 0 cs := ⟨_, rfl⟩
  have hut : OnTile s u b [] := hu ▸ writeWs_onTile s b false 0 cs []
  have hur : u.regs = s.regs := by rw [hu, writeWs_tilesOnly]
  obtain ⟨v, hv⟩ : ∃ v, v = u.modTile b fun x => { x with lb := (s.tile a).lb, rings := (s.tile a).rings } := ⟨_, rfl⟩
  have hvt : OnTile u v b [] := hv ▸ onTile_modTile u b _ []
  have hvb : v.tile b = { u.tile b with lb := (s.tile a).lb, rings := (s.tile a).rings } := hv ▸ u.tile_modTile_same b _
  have hvr : v.regs = u.regs := hv ▸ rfl
  obtain ⟨w, hw⟩ : ∃ w, w = v.setReg .TILE_RNG_SEED (v.reg .TILE_RNG_SEED a) b := ⟨_, rfl⟩
  have hwr : v.onlyRegs w := hw ▸ onlyRegs_setReg ..
  have hwk : v.keeps w [(.TILE_RNG_SEED, b, 0)] := hw ▸ keeps_setReg v _ ⟨hb, Nat.one_pos⟩
  have hws : w.reg .TILE_RNG_SEED b = s.reg .TILE_RNG_SEED a := by
    rw [hw, State.reg_setReg_same, State.reg_congr (hvr.trans hur)]
    exact Nat.mod_eq_of_lt (State.reg_lt ..)
  obtain ⟨t, ht⟩ : ∃ t, t = w.busCopied a b := ⟨_, rfl⟩
  have htr : t.regs = w.regs := ht ▸ busCopied_regs ..
  have hti : ∀ j, t.tile j = v.tile j := fun j => by
    rw [State.tile, show t.tiles = v.tiles from (ht ▸ busCopied_tiles ..).trans (onlyRegs_tiles hwr)]
    rfl
  have hx : s.tileCopy a b = t := by rw [tileCopy_eq hn, ← hcs, ← hu, ← hv, ← hw, ht]
  have hkeep : s.keeps t [(.TILE_RNG_SEED, b, 0)] := keeps_congr htr (keeps_trans (keeps_of_regs [] (hvr.trans hur)) hwk)
  rw [hx]
  refine ⟨⟨fun n hn => ?_, ?_, ?_, (State.reg_congr htr ..).trans hws⟩, fun j hj => ?_, hkeep, ?_⟩
  · have hword : u.readW b false n = s.readW a false n := by
      have hi : n < cs.length := hlen ▸ hn
      have hin := readW_writeWs_in s b (lb := false) (b := 0) cs (by rw [hlen]; decide) hi
      rw [Nat.zero_add] at hin
      rw [hu, hin]
      subst hcs
      rw [readWs_getElem, Nat.zero_add]
    have hkey : t.spKey b n = u.spKey b n := spKey_congr (fun e he =>
      (hkeep _ _ _ ⟨hb, he⟩ (by simp)).trans (State.reg_congr hur ..).symm) n
    rw [← hword]
    change mapGet cell0 (t.tile b).sp (t.spKey b n) = mapGet cell0 (u.tile b).sp (u.spKey b n)
    rw [hkey, hti, hvb]
  · rw [hti, hvb]
  · rw [hti, hvb]
  · rw [hti, hvt.others j hj, hut.others j hj]
  · have h1 : s.onlyCopies v := by
      rw [State.onlyCopies, hvt.frame, hut.frame]
    have h2 : v.onlyCopies w := by rw [State.onlyCopies, show w = { v with regs := w.regs } from hwr]
    exact onlyCopies_trans h1 (onlyCopies_trans h2 (ht ▸ busCopied_onlyCopies ..))

end

section
variable {c l : Nat} (hc34 : c < 34) (hl : l < 34) (hne : c ≠ l)
include hc34 hl hne

theorem tileCopies_leaves (rs : List Nat) (hd : rs.Nodup) (hr : ∀ r ∈ rs, r < 32) (s : State) :
    let t := rs.foldl (fun s r => s.tileCopy (32 * c + r) (32 * l + r)) s
    (∀ r ∈ rs, s.tState (32 * l + r) ≠ tRetired → s.standsIn t (32 * c + r) (32 * l + r)) ∧
      (∀ j, (∀ r ∈ rs, j ≠ 32 * l + r) → t.tile j = s.tile j) ∧ s.keeps t (rs.map fun r => (.TILE_RNG_SEED, 32 * l + r, 0)) ∧ s.onlyCopies t := by
  induction rs generalizing s with
  | nil => exact ⟨nofun, fun _ _ => rfl, keeps_refl _ _, rfl⟩
  | cons r rs ih =>
    obtain ⟨hr32, hrs⟩ := List.forall_mem_cons.1 hr
    obtain ⟨hrn, hd⟩ := List.nodup_cons.1 hd
    obtain ⟨u, hu⟩ : ∃ u, u = s.tileCopy (32 * c + r) (32 * l + r) := ⟨_, rfl⟩
    have ⟨hcopy, hot, huk, huo⟩ : (s.tState (32 * l + r) ≠ tRetired → s.standsIn u (32 * c + r) (32 * l + r)) ∧
        (∀ j, j ≠ 32 * l + r → u.tile j = s.tile j) ∧ s.keeps u [(.TILE_RNG_SEED, 32 * l + r, 0)] ∧ s.onlyCopies u := by
      by_cases hn : s.tState (32 * l + r) = tRetired
      · have hus : u = s := by
          rw [hu, State.tileCopy, if_pos hn]
        exact ⟨fun h => absurd hn h, fun _ _ => by rw [hus], hus ▸ keeps_refl _ _, hus ▸ rfl⟩
      · obtain ⟨h1, h2, h3, h4⟩ := tileCopy_leaves (s := s) (a := 32 * c + r) (b := 32 * l + r) (by omega) hn
        rw [← hu] at h1 h2 h3 h4
        exact ⟨fun _ => h1, h2, h3, h4⟩
    obtain ⟨ihc, iht, ihk, iho⟩ := ih hd hrs u
    obtain ⟨t, ht⟩ : ∃ t, t = rs.foldl (fun s r => s.tileCopy (32 * c + r) (32 * l + r)) u := ⟨_, rfl⟩
    rw [List.foldl_cons, ← hu, ← ht]
    rw [← ht] at ihc iht ihk iho
    have hstate {k : Nat} (hk : k < 1088) : u.tState k = s.tState k := fld_of_keeps huk ⟨hk, Nat.one_pos⟩ (by simp)
    refine ⟨fun q hq hn => ?_, fun j hj => (iht j fun x hx => hj x (List.mem_cons_of_mem _ hx)).trans (hot j (hj r List.mem_cons_self)),
      keeps_trans huk ihk, onlyCopies_trans huo iho⟩
    obtain rfl | hq := List.mem_cons.1 hq
    · have hc := hcopy hn
      have htb : t.tile (32 * l + q) = u.tile (32 * l + q) := iht _ fun x hx he => hrn (by rw [show q = x by omega]; exact hx)
      exact ⟨fun w hw => (readW_copied (by omega) ihk (by simp) htb w).trans (hc.words w hw), by rw [htb, hc.lb], by rw [htb, hc.rings],
        (ihk _ _ _ ⟨show 32 * l + q < 1088 by omega, Nat.one_pos⟩ (by simpa using hrn)).trans hc.seed⟩
    · have hq32 := hrs q hq
      have hc := ihc q hq (by rw [hstate (by omega)]; exact hn)
      have hta : u.tile (32 * c + q) = s.tile (32 * c + q) := hot _ (by omega)
      exact ⟨fun w hw => (hc.words w hw).trans (readW_copied (by omega) huk (by simp) hta w), by rw [hc.lb, hta], by rw [hc.rings, hta],
        hc.seed.trans (huk _ _ _ ⟨show 32 * c + q < 1088 by omega, Nat.one_pos⟩ (by simp; omega))⟩

end

end Sys2Proof.Machine
end

section
/-! A substitution switches (R425), and the tiles of a column that is tested (R427, R428). -/
namespace Sys2Proof.Machine

section
variable {dt : Nat} {s : State}

theorem tileCopy_flag {a b k : Nat} (hb : b < 1088) (hk : k < 2) : (s.tileCopy a b).flag F.RAS_SUBST_EN k = s.flag F.RAS_SUBST_EN k := by
  by_cases hn : s.tState b = tRetired
  · rw [State.tileCopy, if_pos hn]
  · exact flag_of_keeps (tileCopy_leaves hb hn).2.2.1 ⟨hk, Nat.one_pos⟩ (by simp)

/-- While EN is 1 the column's state goes to the layby column (R425). -/
theorem foldl_switch {c l k : Nat} (hl : l < 34) (hk : k < 2) (rs : List Nat) (hr : ∀ r ∈ rs, r < 32) (s : State) (he : s.flag F.RAS_SUBST_EN k = true) :
    rs.foldl (fun s r => if s.flag F.RAS_SUBST_EN k then s.tileCopy (32 * c + r) (32 * l + r) else s.tileCopy (32 * l + r) (32 * c + r)) s =
      rs.foldl (fun s r => s.tileCopy (32 * c + r) (32 * l + r)) s := by
  induction rs generalizing s with
  | nil => rw [List.foldl_nil, List.foldl_nil]
  | cons r rs ih =>
    obtain ⟨hr32, hrs⟩ := List.forall_mem_cons.1 hr
    rw [List.foldl_cons, List.foldl_cons, if_pos he]
    exact ih hrs _ ((tileCopy_flag (by omega) hk).trans he)

/-- A copy is noted as done (R425). -/
def State.copyNoted (s : State) (k : Nat) : State := { s with substCopied := withBit s.substCopied k }

/-- The copy of a substitution, before ACTIVE changes (R425). -/
theorem substSwitch_leaves (k : Fin 2) (hc : s.fld F.RAS_SUBST_COL k < 34) (hl : s.laybyCol k < 34) (hne : s.fld F.RAS_SUBST_COL k ≠ s.laybyCol k)
    (he : s.flag F.RAS_SUBST_EN k = true) (ha : s.flag F.RAS_SUBST_ACTIVE k = false) (hq : s.colQuiet (s.fld F.RAS_SUBST_COL k) = true)
    (hn : s.substCopied.testBit k = false) : ∃ t, exec (.substSwitch dt k) s = .next t ∧ t.substCopied.testBit k = true ∧
      t.flag F.RAS_SUBST_ACTIVE k = false ∧
      (∀ r < 32, s.tState (32 * s.laybyCol k + r) ≠ tRetired → s.standsIn t (32 * s.fld F.RAS_SUBST_COL k + r) (32 * s.laybyCol k + r)) ∧
      (∀ j, j / 32 ≠ s.laybyCol k → t.tile j = s.tile j) ∧
      s.keeps t ((List.range 32).map fun r => (.TILE_RNG_SEED, 32 * s.laybyCol k + r, 0)) ∧
      t = { s.tick dt with regs := t.regs, tiles := t.tiles, busNext := t.busNext, substCopied := t.substCopied } := by
  obtain ⟨c, hcq⟩ : ∃ c, c = s.fld F.RAS_SUBST_COL k := ⟨_, rfl⟩
  obtain ⟨l, hlq⟩ : ∃ l, l = s.laybyCol k := ⟨_, rfl⟩
  rw [← hcq] at hc hne hq ⊢
  rw [← hlq] at hl hne ⊢
  obtain ⟨h1, h2, h3, h4⟩ := tileCopies_leaves hc hl hne (List.range 32) List.nodup_range (fun r hr => List.mem_range.1 hr) (s.tick dt)
  obtain ⟨u, hu⟩ : ∃ u, u = (List.range 32).foldl (fun s r => s.tileCopy (32 * c + r) (32 * l + r)) (s.tick dt) := ⟨_, rfl⟩
  rw [← hu] at h1 h2 h3 h4
  have hx : exec (.substSwitch dt k) s = .next (u.copyNoted k) := by
    have hcond : (s.tick dt).fld F.RAS_SUBST_EN k ≠ (s.tick dt).fld F.RAS_SUBST_ACTIVE k ∧ (s.tick dt).colQuiet ((s.tick dt).fld F.RAS_SUBST_COL k) = true ∧
        (!(s.tick dt).substCopied.testBit k) = true := by
      refine ⟨fun h => ?_, hcq ▸ hq, congrArg (!·) hn⟩
      change s.fld F.RAS_SUBST_EN k = s.fld F.RAS_SUBST_ACTIVE k at h
      rw [State.flag, h] at he
      rw [State.flag, he] at ha
      cases ha
    have hfold := foldl_switch (c := c) hl k.isLt (List.range 32) (fun r hr => List.mem_range.1 hr) (s.tick dt) he
    change execSubstSwitch dt k s = _
    unfold execSubstSwitch
    dsimp only
    rw [if_pos hcond, show (s.tick dt).fld F.RAS_SUBST_COL k = c from hcq.symm, show (s.tick dt).laybyCol k = l from hlq.symm, hfold, ← hu]
    rfl
  have hcopied : u.substCopied = s.substCopied := by
    rw [show u = _ from h4]
    rfl
  refine ⟨_, hx, ?_, ?_, fun r hr hn' => ?_, fun j hj => ?_, keeps_congr rfl h3, ?_⟩
  · change (withBit u.substCopied k).testBit k = true
    rw [withBit_eq, testBit_putBits, if_pos ⟨Nat.le_refl _, Nat.lt_succ_self _⟩, Nat.sub_self]
    rfl
  · exact (flag_of_keeps h3 ⟨k.isLt, Nat.one_pos⟩ (by simp)).trans ha
  · obtain ⟨hw, hlb, hri, hse⟩ := h1 r (List.mem_range.2 hr) hn'
    exact ⟨hw, hlb, hri, hse⟩
  · exact h2 j fun r hr => by
      have := List.mem_range.1 hr
      omega
  · rw [State.copyNoted, show u = _ from h4]

end

section
variable {s : State}

/-- `t` differs from `s` in the registers of `l`, and in tile `k` of the tiles; the depot and HBM stay. -/
structure State.tileTested (k : Nat) (l : List (Reg × Nat × Nat)) (s t : State) : Prop where
  others : ∀ j, j ≠ k → t.tile j = s.tile j
  keep : s.keeps t l
  memory : s.sameMemory t
  svc : t.svc = s.svc
  bist : t.bist = s.bist

theorem tileTested_trans {t u : State} {k : Nat} {l : List (Reg × Nat × Nat)} (h : s.tileTested k l t) (h' : t.tileTested k l u) :
    s.tileTested k l u :=
  ⟨fun j hj => (h'.others j hj).trans (h.others j hj), keeps_mono (keeps_trans h.keep h'.keep) (by simp), sameMemory_trans h.memory h'.memory,
    h'.svc.trans h.svc, h'.bist.trans h.bist⟩

theorem tileTested_onlyRegs {t : State} {k : Nat} {l : List (Reg × Nat × Nat)} (h : s.onlyRegs t) (hk : s.keeps t l) : s.tileTested k l t :=
  ⟨fun j _ => tile_congr (onlyRegs_tiles h) j, hk, sameMemory_onlyRegs h, onlyRegs_svc h,
    by rw [show t = { s with regs := t.regs } from h]⟩

/-- A report of aborts changes the crews and what leaves alone (R299). -/
theorem abortReport_frame (s : State) : s.abortReport = { s with crews := s.abortReport.crews, out := s.abortReport.out } := by
  unfold State.abortReport
  refine List.foldlRecOn (motive := fun v : State => v = { s with crews := v.crews, out := v.out }) _ _ rfl fun v hv q _ => ?_
  dsimp only
  split
  · split
    · rw [State.tell, State.emit, State.setCrew, hv]
    · exact hv
  · exact hv

/-- The registers that a test of tile `k` in column `c` may change (R427). -/
def testedRegs (c k : Nat) : List (Reg × Nat × Nat) := [(.RAS_STAT, 0, 0), (.RAS_RETIRED, c, 0), (.TILE_STAT, k, 0)]

variable {c r : Nat} (hc : c < 34) (hr : r < 32)
include hc hr

/-- A tile that passes its test is IDLE and empty (R428). -/
theorem tilePassed_leaves (s : State) : let t := s.bistTileEnd (32 * c + r) false
    t.tState (32 * c + r) = tIdle ∧ t.tile (32 * c + r) = { tile0 with dll := (s.tile (32 * c + r)).dll } ∧
      t.fld F.RAS_RETIRED_ROWS c = s.fld F.RAS_RETIRED_ROWS c ∧ s.tileTested (32 * c + r) (testedRegs c (32 * c + r)) t := by
  obtain ⟨u, hu⟩ : ∃ u, u = s.setTile (32 * c + r) { tile0 with dll := (s.tile (32 * c + r)).dll } := ⟨_, rfl⟩
  have hut : u.tile (32 * c + r) = { tile0 with dll := (s.tile (32 * c + r)).dll } := hu ▸ mapGet_mapSet_same tile0 s.tiles _ _
  have hue : s.tileTested (32 * c + r) (testedRegs c (32 * c + r)) u := hu ▸
    ⟨fun j hj => mapGet_mapSet_ne tile0 s.tiles _ hj, keeps_of_regs _ rfl, sameMemory_of_stores rfl rfl, rfl, rfl⟩
  have hur : u.regs = s.regs := hu ▸ rfl
  have hr' : u.onlyRegs (u.setTState (32 * c + r) tIdle) := onlyRegs_setFld ..
  have hk : u.keeps (u.setTState (32 * c + r) tIdle) [(.TILE_STAT, 32 * c + r, 0)] :=
    keeps_setFld u F.TILE_STAT_STATE _ ⟨show 32 * c + r < 1088 by omega, Nat.one_pos⟩
  have hx : s.bistTileEnd (32 * c + r) false = u.setTState (32 * c + r) tIdle := by
    rw [hu]
    rfl
  rw [hx]
  exact ⟨fld_setFld_eq _ _ (by decide) (by decide), (tile_congr (onlyRegs_tiles hr') _).trans hut,
    (fld_of_keeps hk ⟨hc, Nat.one_pos⟩ (by simp)).trans (State.fld_congr hur ..), tileTested_trans hue (tileTested_onlyRegs hr' (keeps_mono hk (by simp [testedRegs])))⟩

/-- A tile that fails its test is RETIRED (R427, R428). -/
theorem tileFailed_leaves (s : State) (hs : s.tState (32 * c + r) = tTest) : let t := s.bistTileEnd (32 * c + r) true
    t.tState (32 * c + r) = tRetired ∧ bitsOf (t.fld F.RAS_RETIRED_ROWS c) r 1 = 1 ∧
      s.tileTested (32 * c + r) (testedRegs c (32 * c + r)) t := by
  have hcol : tileCol (32 * c + r) = c := by
    rw [tileCol]
    omega
  obtain ⟨a, ha⟩ : ∃ a, a = s.setTState (32 * c + r) tRetired := ⟨_, rfl⟩
  have har : s.onlyRegs a := ha ▸ onlyRegs_setFld ..
  have hak : s.keeps a [(.TILE_STAT, 32 * c + r, 0)] := ha ▸ keeps_setFld s F.TILE_STAT_STATE _ ⟨show 32 * c + r < 1088 by omega, Nat.one_pos⟩
  have has : a.tState (32 * c + r) = tRetired := ha ▸ fld_setFld_eq _ _ (by decide) (by decide)
  obtain ⟨b, hb⟩ : ∃ b, b = a.modTile (32 * c + r) fun x => { x with resetting := false } := ⟨_, rfl⟩
  have hbr : b.regs = a.regs := hb ▸ rfl
  have hbe : a.tileTested (32 * c + r) (testedRegs c (32 * c + r)) b := hb ▸
    ⟨fun j hj => a.tile_modTile_ne _ hj, keeps_of_regs _ rfl, sameMemory_of_stores rfl rfl, rfl, rfl⟩
  obtain ⟨d, hd⟩ : ∃ d, d = b.setFld F.RAS_RETIRED_ROWS (putBits (b.fld F.RAS_RETIRED_ROWS c) r 1 1) c := ⟨_, rfl⟩
  have hdr : b.onlyRegs d := hd ▸ onlyRegs_setFld ..
  have hdk : b.keeps d [(.RAS_RETIRED, c, 0)] := hd ▸ keeps_setFld b F.RAS_RETIRED_ROWS _ ⟨hc, Nat.one_pos⟩
  have hdb : bitsOf (d.fld F.RAS_RETIRED_ROWS c) r 1 = 1 := by
    have hfit : putBits (b.fld F.RAS_RETIRED_ROWS c) r 1 1 < 2 ^ F.RAS_RETIRED_ROWS.w := putBits_lt _ _ _ _ _ (by change r + 1 ≤ 32; omega) (b.fld_lt ..)
    rw [hd, fld_setFld_eq _ _ (by decide) hfit, bitsOf_putBits_same]
    rfl
  obtain ⟨e, he⟩ : ∃ e, e = d.repairPut (fun e => decide (e.kind = 2 ∧ e.a = 32 * c + r)) [⟨2, 32 * c + r, 1, 0, 0⟩] := ⟨_, rfl⟩
  have her : e.regs = d.regs := he ▸ rfl
  have hee : d.tileTested (32 * c + r) (testedRegs c (32 * c + r)) e := he ▸ ⟨fun _ _ => rfl, keeps_of_regs _ rfl, sameMemory_of_stores rfl rfl, rfl, rfl⟩
  obtain ⟨f, hf⟩ : ∃ f, f = e.abortReport := ⟨_, rfl⟩
  have hff : f = { e with crews := f.crews, out := f.out } := hf ▸ abortReport_frame e
  have hfr : f.regs = e.regs := by rw [hff]
  have hfe : e.tileTested (32 * c + r) (testedRegs c (32 * c + r)) f :=
    ⟨fun j _ => tile_congr (by rw [hff]) j, keeps_of_regs _ hfr, sameMemory_of_stores (by rw [hff]) (by rw [hff]), by rw [hff], by rw [hff]⟩
  obtain ⟨t, ht⟩ : ∃ t, t = f.laybyFree := ⟨_, rfl⟩
  have htr : f.onlyRegs t := ht ▸ laybyFree_onlyRegs f
  have htk : f.keeps t [(.RAS_STAT, 0, 0)] := ht ▸ laybyFree_keeps f
  have hx : s.bistTileEnd (32 * c + r) true = t := by
    change s.retireTile (32 * c + r) 1 = t
    unfold State.retireTile
    dsimp only
    rw [hs, if_neg (by decide), hcol, show (32 * c + r) % 32 = r by omega, ← ha, ← hb, ← hd, ← he, ← hf, ht]
  have htd {g : Fld} {i : Nat} (hg : regHas g.reg i 0) (hn : g.reg ≠ .RAS_STAT) : t.fld g i = d.fld g i :=
    (fld_of_keeps htk hg (by simp [hn])).trans (State.fld_congr (hfr.trans her) ..)
  rw [hx]
  refine ⟨?_, ?_, ?_⟩
  · exact (htd (g := F.TILE_STAT_STATE) ⟨show 32 * c + r < 1088 by omega, Nat.one_pos⟩ nofun).trans
      ((fld_of_keeps hdk ⟨show 32 * c + r < 1088 by omega, Nat.one_pos⟩ (by simp)).trans ((State.fld_congr hbr ..).trans has))
  · rw [htd (g := F.RAS_RETIRED_ROWS) ⟨hc, Nat.one_pos⟩ nofun, hdb]
  · refine tileTested_trans (tileTested_onlyRegs har (keeps_mono hak (by simp [testedRegs]))) (tileTested_trans hbe
      (tileTested_trans (tileTested_onlyRegs hdr (keeps_mono hdk (by simp [testedRegs]))) (tileTested_trans hee (tileTested_trans hfe
        (tileTested_onlyRegs htr (keeps_mono htk (by simp [testedRegs])))))))

end

end Sys2Proof.Machine
end

section
/-! The self-test of a column (R427, R428). -/
namespace Sys2Proof.Machine

section
variable {dt : Nat} {s : State} {c : Nat} (hc : c < 34) (bad : Option Nat)

/-- A column whose tiles are tested, of which `bad` fails. -/
def State.columnTested (s : State) (c : Nat) (bad : Option Nat) (rs : List Nat) : State :=
  rs.foldl (fun s r => s.bistTileEnd (32 * c + r) (decide (bad = some r))) s

/-- What the tests of the tiles of a column leave (R427, R428). -/
structure State.columnLeft (s t : State) (c : Nat) (bad : Option Nat) (rs : List Nat) : Prop where
  failed : ∀ r ∈ rs, bad = some r → t.tState (32 * c + r) = tRetired ∧ bitsOf (t.fld F.RAS_RETIRED_ROWS c) r 1 = 1
  passed : ∀ r ∈ rs, bad ≠ some r → t.tState (32 * c + r) = tIdle ∧ t.tile (32 * c + r) = { tile0 with dll := (s.tile (32 * c + r)).dll }
  rows : (∀ r ∈ rs, bad ≠ some r) → t.fld F.RAS_RETIRED_ROWS c = s.fld F.RAS_RETIRED_ROWS c
  others : ∀ j, (∀ r ∈ rs, j ≠ 32 * c + r) → t.tile j = s.tile j
  keep : s.keeps t ([(.RAS_STAT, 0, 0), (.RAS_RETIRED, c, 0)] ++ rs.map fun r => (.TILE_STAT, 32 * c + r, 0))
  memory : s.sameMemory t
  svc : t.svc = s.svc
  bist : t.bist = s.bist

include hc

theorem columnTested_leaves (rs : List Nat) (hd : rs.Nodup) (hr : ∀ r ∈ rs, r < 32) (s : State) (hs : ∀ r ∈ rs, s.tState (32 * c + r) = tTest) :
    s.columnLeft (s.columnTested c bad rs) c bad rs := by
  induction rs generalizing s with
  | nil => exact ⟨nofun, nofun, fun _ => rfl, fun _ _ => rfl, keeps_refl _ _, sameMemory_of_stores rfl rfl, rfl, rfl⟩
  | cons r rs ih =>
    obtain ⟨hr32, hrs⟩ := List.forall_mem_cons.1 hr
    obtain ⟨hrn, hd⟩ := List.nodup_cons.1 hd
    obtain ⟨hs0, hs⟩ := List.forall_mem_cons.1 hs
    obtain ⟨u, hu⟩ : ∃ u, u = s.bistTileEnd (32 * c + r) (decide (bad = some r)) := ⟨_, rfl⟩
    have ⟨hfail, hpass, hrow, hone⟩ : (bad = some r → u.tState (32 * c + r) = tRetired ∧ bitsOf (u.fld F.RAS_RETIRED_ROWS c) r 1 = 1) ∧
        (bad ≠ some r → u.tState (32 * c + r) = tIdle ∧ u.tile (32 * c + r) = { tile0 with dll := (s.tile (32 * c + r)).dll }) ∧
        (bad ≠ some r → u.fld F.RAS_RETIRED_ROWS c = s.fld F.RAS_RETIRED_ROWS c) ∧ s.tileTested (32 * c + r) (testedRegs c (32 * c + r)) u := by
      by_cases hb : bad = some r
      · rw [decide_eq_true hb] at hu
        obtain ⟨h1, h2, h3⟩ := tileFailed_leaves hc hr32 s hs0
        rw [← hu] at h1 h2 h3
        exact ⟨fun _ => ⟨h1, h2⟩, fun h => absurd hb h, fun h => absurd hb h, h3⟩
      · rw [decide_eq_false hb] at hu
        obtain ⟨h1, h2, h3, h4⟩ := tilePassed_leaves hc hr32 s
        rw [← hu] at h1 h2 h3 h4
        exact ⟨fun h => absurd h hb, fun _ => ⟨h1, h2⟩, fun _ => h3, h4⟩
    have hstate {q : Nat} (hq : q ∈ rs) : u.tState (32 * c + q) = s.tState (32 * c + q) := by
      have hq32 := hrs q hq
      have hqr : q ≠ r := fun h => hrn (h ▸ hq)
      exact fld_of_keeps hone.keep ⟨show 32 * c + q < 1088 by omega, Nat.one_pos⟩ (by simp [testedRegs, hqr])
    have hleft := ih hd hrs u fun q hq => (hstate hq).trans (hs q hq)
    obtain ⟨t, ht⟩ : ∃ t, t = u.columnTested c bad rs := ⟨_, rfl⟩
    have hx : s.columnTested c bad (r :: rs) = t := by
      rw [ht, hu]
      rfl
    rw [← ht] at hleft
    have hkept : t.tState (32 * c + r) = u.tState (32 * c + r) :=
      fld_of_keeps hleft.keep ⟨show 32 * c + r < 1088 by omega, Nat.one_pos⟩ (by simp [hrn])
    rw [hx]
    refine ⟨fun q hq hb => ?_, fun q hq hb => ?_, fun hb => ?_, fun j hj => ?_, ?_, sameMemory_trans hone.memory hleft.memory,
      hleft.svc.trans hone.svc, hleft.bist.trans hone.bist⟩
    · obtain rfl | hq := List.mem_cons.1 hq
      · obtain ⟨h1, h2⟩ := hfail hb
        have hnone : ∀ x ∈ rs, bad ≠ some x := fun x hx he => hrn (by rwa [show x = q from Option.some.inj (he.symm.trans hb)] at hx)
        exact ⟨hkept.trans h1, by rw [hleft.rows hnone, h2]⟩
      · exact hleft.failed q hq hb
    · obtain rfl | hq := List.mem_cons.1 hq
      · obtain ⟨h1, h2⟩ := hpass hb
        exact ⟨hkept.trans h1, (hleft.others _ fun x hx he => hrn (by rwa [show x = q by omega] at hx)).trans h2⟩
      · obtain ⟨h1, h2⟩ := hleft.passed q hq hb
        refine ⟨h1, h2.trans ?_⟩
        rw [hone.others _ (show 32 * c + q ≠ 32 * c + r from fun he => hrn (by rwa [show q = r by omega] at hq))]
    · obtain ⟨hb0, hb⟩ := List.forall_mem_cons.1 hb
      exact (hleft.rows hb).trans (hrow hb0)
    · obtain ⟨hj0, hj⟩ := List.forall_mem_cons.1 hj
      exact (hleft.others j hj).trans (hone.others j hj0)
    · refine keeps_mono (keeps_trans hone.keep hleft.keep) fun x hx => ?_
      simp only [testedRegs, List.map_cons, List.mem_append, List.mem_cons, List.not_mem_nil, or_false] at hx ⊢
      tauto

/-- The bits of the tiles that failed. -/
def badBits (bad : Option Nat) (rs : List Nat) (m : Nat) : Nat := rs.foldl (fun m r => if bad = some r then m + 2 ^ r else m) m

omit hc in
theorem badBits_range (bad : Option (Fin 32)) : badBits (bad.map Fin.val) (List.range 32) 0 = match bad with
    | some r => 2 ^ r.val
    | none => 0 := by
  revert bad
  decide

/-- The fold of the model over a column under test (R427, R428). -/
theorem foldl_columnTest {f : State × Nat × Nat → Nat → State × Nat × Nat}
    (hf : ∀ v n m, ∀ r < 32, v.tState (32 * c + r) = tTest → f (v, n, m) r =
      (v.bistTileEnd (32 * c + r) (decide (bad = some r)), n, if bad = some r then m + 2 ^ r else m))
    (rs : List Nat) (hd : rs.Nodup) (hr : ∀ r ∈ rs, r < 32) (s : State) (hs : ∀ r ∈ rs, s.tState (32 * c + r) = tTest) (n m : Nat) :
    rs.foldl f (s, n, m) = (s.columnTested c bad rs, n, badBits bad rs m) := by
  induction rs generalizing s m with
  | nil => rfl
  | cons r rs ih =>
    obtain ⟨hr32, hrs⟩ := List.forall_mem_cons.1 hr
    obtain ⟨hrn, hd⟩ := List.nodup_cons.1 hd
    obtain ⟨hs0, hs⟩ := List.forall_mem_cons.1 hs
    have hone : (s.columnLeft (s.columnTested c bad [r]) c bad [r]) :=
      columnTested_leaves hc bad [r] (List.nodup_singleton r) (by simpa using hr32) s (by simpa using hs0)
    rw [List.foldl_cons, hf s n m r hr32 hs0, ih hd hrs]
    · rfl
    · intro q hq
      have hq32 := hrs q hq
      have hqr : q ≠ r := fun h => hrn (h ▸ hq)
      exact (fld_of_keeps hone.keep ⟨show 32 * c + q < 1088 by omega, Nat.one_pos⟩ (by simp [hqr])).trans (hs q hq)

end

end Sys2Proof.Machine
end

section
/-! The end of a column's self-test (R427, R428). -/
namespace Sys2Proof.Machine

section
variable {dt : Nat} {s : State}

/-- The result of a column's test in which at most one tile fails another item. -/
def columnResult (bad : Option (Fin 32)) : List (Fin 32 × List (Fin 16 × Fin 1024) × List (Fin 16 × Fin 16) × Bool) :=
  match bad with
  | some r => [(r, [], [], true)]
  | none => []

/-- What the result says of one tile. -/
theorem columnResult_find (bad : Option (Fin 32)) (r : Nat) :
    (bad.map Fin.val = some r ∧ ∃ b, (columnResult bad).find? (fun q => q.1.val == r) = some (b, [], [], true)) ∨
      (bad.map Fin.val ≠ some r ∧ (columnResult bad).find? (fun q => q.1.val == r) = none) := by
  cases bad with
  | none => exact .inr ⟨nofun, rfl⟩
  | some b =>
    by_cases hb : b.val = r
    · exact .inl ⟨congrArg some hb, b, by simp [columnResult, hb]⟩
    · exact .inr ⟨fun h => hb (Option.some.inj h), by simp [columnResult, hb]⟩

theorem exec_columnTest (c : Fin 34) (bad : Option (Fin 32)) (hb : s.bist = some ⟨false, c⟩) (ht : ∀ r < 32, s.tState (32 * c + r) = tTest) :
    exec (.bistComplete dt (columnResult bad) false) s = .next (
      ((((s.tick dt).bistOver.columnTested c (bad.map Fin.val) (List.range 32)).bistShown (badBits (bad.map Fin.val) (List.range 32) 0)
        (if badBits (bad.map Fin.val) (List.range 32) 0 = 0 then 1 else 0) 0 (badBits (bad.map Fin.val) (List.range 32) 0 ≠ 0)).laybyFree).svcTested
        0 (decide (badBits (bad.map Fin.val) (List.range 32) 0 ≠ 0))) := by
  have hb' : (s.tick dt).bist = some ⟨false, c⟩ := hb
  obtain ⟨m, hm⟩ : ∃ m, m = badBits (bad.map Fin.val) (List.range 32) 0 := ⟨_, rfl⟩
  change execBistComplete dt (columnResult bad) false s = _
  unfold execBistComplete
  dsimp only
  rw [hb']
  dsimp only
  rw [if_neg Bool.false_ne_true, foldl_columnTest c.isLt (bad.map Fin.val) ?_ (List.range 32) List.nodup_range (fun r hr => List.mem_range.1 hr)
    { s.tick dt with bist := none } (fun r hr => ht r (List.mem_range.1 hr)), ← hm]
  · dsimp only
    unfold State.bistShown
    rfl
  · intro v n m r hr hv
    dsimp only
    rw [if_neg (not_not_intro hv)]
    obtain ⟨hbr, b, hf⟩ | ⟨hbr, hf⟩ := columnResult_find bad r
    · rw [hf, decide_eq_true hbr, if_pos hbr]
      rfl
    · rw [hf, decide_eq_false hbr, if_neg hbr]
      rfl

theorem badBits_bit (bad : Option (Fin 32)) (r : Nat) : bitsOf (badBits (bad.map Fin.val) (List.range 32) 0) r 1 =
    if bad.map Fin.val = some r then 1 else 0 := by
  rw [badBits_range]
  cases bad with
  | none => simp [bitsOf]
  | some b =>
    have hbit := Nat.testBit_two_pow (n := b.val) (m := r)
    rw [Nat.testBit_eq_decide_div_mod_eq] at hbit
    change 2 ^ b.val / 2 ^ r % 2 = if some b.val = some r then 1 else 0
    by_cases hb : b.val = r
    · rw [decide_eq_true hb, decide_eq_true_eq] at hbit
      rw [hbit, if_pos (congrArg some hb)]
    · rw [decide_eq_false hb, decide_eq_false_iff_not] at hbit
      rw [if_neg fun h => hb (Option.some.inj h)]
      omega

theorem badBits_none (bad : Option (Fin 32)) : badBits (bad.map Fin.val) (List.range 32) 0 = 0 ↔ bad.isNone = true := by
  rw [badBits_range]
  cases bad with
  | none => exact ⟨fun _ => rfl, fun _ => rfl⟩
  | some b => exact ⟨fun h => absurd h (Nat.two_pow_pos _).ne', nofun⟩

theorem badBits_lt (bad : Option (Fin 32)) : badBits (bad.map Fin.val) (List.range 32) 0 < 2 ^ 32 := by
  rw [badBits_range]
  cases bad with
  | none => decide
  | some b => exact Nat.pow_lt_pow_right (by decide) b.isLt

/-- The self-test of a column returns its good tiles IDLE and empty, and retires the one that fails (R427, R428). -/
theorem columnTest_leaves (c : Fin 34) (bad : Option (Fin 32)) (hsvc : s.svc = []) (hb : s.bist = some ⟨false, c⟩)
    (ht : ∀ r < 32, s.tState (32 * c + r) = tTest) : ∃ t, exec (.bistComplete dt (columnResult bad) false) s = .next t ∧ t.bist = none ∧
      t.fld F.RAS_BIST_STAT_STATE = 2 ∧ t.flag F.RAS_BIST_STAT_PASS = bad.isNone ∧ t.fld F.RAS_BIST_STAT_ROWS_MAPPED = 0 ∧
      (∀ r < 32, bitsOf (t.fld F.RAS_BIST_FAIL_FAIL) r 1 = if bad.map Fin.val = some r then 1 else 0) ∧
      (∀ r < 32, bad.map Fin.val = some r → t.tState (32 * c + r) = tRetired ∧ bitsOf (t.fld F.RAS_RETIRED_ROWS c) r 1 = 1) ∧
      (∀ r < 32, bad.map Fin.val ≠ some r → t.tState (32 * c + r) = tIdle ∧ t.tile (32 * c + r) = { tile0 with dll := (s.tile (32 * c + r)).dll }) ∧
      (∀ j, j / 32 ≠ c.val → t.tile j = s.tile j) ∧
      s.keeps t ([(.RAS_STAT, 0, 0), (.RAS_BIST_FAIL, 0, 0), (.RAS_BIST_STAT, 0, 0), (.DEV_START, 0, 0), (.RAS_RETIRED, c.val, 0)] ++
        (List.range 32).map fun r => (.TILE_STAT, 32 * c.val + r, 0)) ∧ s.sameMemory t := by
  have hx := exec_columnTest (dt := dt) c bad hb ht
  obtain ⟨m, hm⟩ : ∃ m, m = badBits (bad.map Fin.val) (List.range 32) 0 := ⟨_, rfl⟩
  have hbit := badBits_bit bad
  have hnone := badBits_none bad
  have hlt := badBits_lt bad
  rw [← hm] at hx hbit hnone hlt
  have hleft := columnTested_leaves c.isLt (bad.map Fin.val) (List.range 32) List.nodup_range (fun r hr => List.mem_range.1 hr) (s.tick dt).bistOver
    fun r hr => ht r (List.mem_range.1 hr)
  obtain ⟨u, hu⟩ : ∃ u, u = (s.tick dt).bistOver.columnTested c (bad.map Fin.val) (List.range 32) := ⟨_, rfl⟩
  rw [← hu] at hx hleft
  have hub : u.bist = none := hleft.bist
  obtain ⟨h1, h2, h3, h4, h5, h6⟩ := bistShown_leaves u (bad := m) (pass := if m = 0 then 1 else 0) hlt (by split <;> decide) (m ≠ 0)
  obtain ⟨v, hv⟩ : ∃ v, v = u.bistShown m (if m = 0 then 1 else 0) 0 (m ≠ 0) := ⟨_, rfl⟩
  rw [← hv] at hx h1 h2 h3 h4 h5 h6
  obtain ⟨t, ht'⟩ : ∃ t, t = v.laybyFree := ⟨_, rfl⟩
  have htr : v.onlyRegs t := ht' ▸ laybyFree_onlyRegs v
  have htk : v.keeps t [(.RAS_STAT, 0, 0)] := ht' ▸ laybyFree_keeps v
  have hur : u.onlyRegs t := onlyRegs_trans h6 htr
  have huk : u.keeps t (bistRegs ++ [(.RAS_STAT, 0, 0)]) := keeps_trans h5 htk
  have hidle : t.svc = [] := (onlyRegs_svc hur).trans (hleft.svc.trans hsvc)
  have hbist {f : Fld} (hf : f.reg = .RAS_BIST_FAIL ∨ f.reg = .RAS_BIST_STAT) : t.fld f = v.fld f := by
    obtain hf | hf := hf <;> exact fld_of_keeps htk (hf ▸ ⟨Nat.one_pos, Nat.one_pos⟩) (by simp [hf])
  have hstate {k : Nat} (hk : k < 1088) : t.tState k = u.tState k := fld_of_keeps huk ⟨hk, Nat.one_pos⟩ (by simp [bistRegs])
  have htile (j : Nat) : t.tile j = u.tile j := tile_congr (onlyRegs_tiles hur) j
  have hc := c.isLt
  rw [← ht'] at hx
  refine ⟨t, hx.trans (by rw [svcTested_idle hidle]), ?_, (hbist (.inr rfl)).trans h2, ?_, (hbist (.inr rfl)).trans h4, fun r _ => ?_,
    fun r hr hbr => ?_, fun r hr hbr => ?_, fun j hj => ?_, ?_, ?_⟩
  · rw [show t = { u with regs := t.regs } from hur]
    exact hub
  · rw [flag_congr (hbist (.inr rfl)), h3]
    cases hn : bad.isNone
    · rw [if_neg fun h => Bool.false_ne_true (hn.symm.trans (hnone.1 h))]
      rfl
    · rw [if_pos (hnone.2 hn)]
      rfl
  · rw [hbist (.inl rfl), h1, hbit]
  · obtain ⟨g1, g2⟩ := hleft.failed r (List.mem_range.2 hr) hbr
    exact ⟨(hstate (by omega)).trans g1, by rw [fld_of_keeps huk (f := F.RAS_RETIRED_ROWS) ⟨c.isLt, Nat.one_pos⟩ (by simp [bistRegs]), g2]⟩
  · obtain ⟨g1, g2⟩ := hleft.passed r (List.mem_range.2 hr) hbr
    exact ⟨(hstate (by omega)).trans g1, (htile _).trans g2⟩
  · exact (htile j).trans (hleft.others j fun r hr => by
      have := List.mem_range.1 hr
      omega)
  · refine keeps_mono (keeps_trans (s := s) hleft.keep huk) fun x hx => ?_
    simp only [bistRegs, List.mem_append, List.mem_cons, List.not_mem_nil, or_false] at hx ⊢
    tauto
  · exact sameMemory_trans (s := s) hleft.memory (sameMemory_onlyRegs hur)

end

/-- Settles O54: each end of a test, and each step of a substitution, by its own rule. -/
theorem testsAndSubstitutionsRun : Obligations.TestsAndSubstitutionsRun := by
  unfold Obligations.TestsAndSubstitutionsRun
  intro dt s hsvc
  refine ⟨fun u fail res hb => ?_, fun c bad hb ht => ?_,
    fun u x h hst hmc hfree hopen hbad hroom => rotationTest_leaves u x h hsvc hst hmc ⟨hfree, hopen, hbad, hroom⟩,
    fun k => ?_⟩
  · obtain ⟨t, hx, h1, h2, h3, h4⟩ := unitTest_leaves (dt := dt) u fail res hsvc hb
    exact ⟨t, hx, h1, h2, fun v _ hv => h3 v v.isLt (Fin.val_ne_of_ne hv), h4⟩
  · have hj {t : State} (h : ∀ j, j / 32 ≠ c.val → t.tile j = s.tile j) (j : Fin 34) (hne : j / 32 ≠ c) : t.tile j = s.tile j :=
      h j fun he => hne (Fin.ext he)
    cases bad with
    | none =>
      obtain ⟨t, hx, h1, h2, h3, h4, h5, h6, h7, h8, h9⟩ := columnTest_leaves (dt := dt) c none hsvc hb ht
      exact ⟨t, hx, h1, h2, h3, h4, h5, h6, h7, hj h8, h9⟩
    | some r =>
      obtain ⟨t, hx, h1, h2, h3, h4, h5, h6, h7, h8, h9⟩ := columnTest_leaves (dt := dt) c (some r) hsvc hb ht
      exact ⟨t, hx, h1, h2, h3, h4, h5, h6, h7, hj h8, h9⟩
  intro c l hc hl hne
  refine ⟨fun he ha hq hn => ?_, fun hcopied => substCopy_leaves k hsvc hcopied⟩
  obtain ⟨t, hx, h1, h2, h3, h4, h5, h6⟩ := substSwitch_leaves (dt := dt) k hc hl hne he ha hq hn
  have hcopy (r : Nat) (hr : r < 32) (hn : s.tState (32 * l + r) ≠ tRetired) := h3 r hr hn
  exact ⟨t, hx, h1, h2, fun r hr => fun hn => ⟨(hcopy r hr hn).words, (hcopy r hr hn).lb, (hcopy r hr hn).rings, (hcopy r hr hn).seed⟩, h4, h5, h6⟩

end Sys2Proof.Machine
end

section
/-! Power-up runs the toll queue that it finds (R453, R505): a column that waits there for a lower point has its clock written. -/
namespace Sys2Proof.Machine

/-- A device before power-up whose toll queue holds the change of column 0 from point 7 to point 0, with every rail but V_AON and V_IO good. -/
def trimLeft : State := { State.reset with regs := [(0xB00024, 0x9F), (0xB00100, 7 * 2 ^ 21)], tollHigh := [.raise 0] }

/-- What power-up makes of a device in the state before it (R505). -/
def State.poweredUp (s : State) (unread : Nat) : State :=
  ({ s with aonNs := 0 }.setFld F.PWR_RAIL_GOOD (s.fld F.PWR_RAIL_GOOD ||| 0x60)).powerUp unread

theorem exec_aonPowerUp {dt : Nat} {u : Fin 1024} {s : State} (h0 : s.fld F.DEV_START_STAGE = 0) (hd : s.fld F.PWR_STAT_DSTATE = 0)
    (hb : s.flag F.PWR_STAT_BUSY = false) : exec (.aonPowerUp dt u) s = .next ((s.tick dt).poweredUp u) := by
  have hg : (s.tick dt).fld F.DEV_START_STAGE = 0 ∧ (s.tick dt).fld F.PWR_STAT_DSTATE = 0 ∧ (!(s.tick dt).flag F.PWR_STAT_BUSY) = true :=
    ⟨h0, hd, congrArg (!·) hb⟩
  exact if_pos hg

theorem trimLeft_ready : trimLeft.fld F.DEV_START_STAGE = 0 ∧ trimLeft.fld F.PWR_STAT_DSTATE = 0 ∧ trimLeft.flag F.PWR_STAT_BUSY = false := by
  decide +kernel

/-- The power-up of that device writes CLK_COL of column 0: 400 MHz, where it was 0. -/
theorem trimLeft_clocked : trimLeft.reg .CLK_COL 0 = 0 ∧ ((trimLeft.tick 0).poweredUp (0 : Fin 1024)).reg .CLK_COL 0 = 400 * 2 ^ 16 := by
  decide +kernel

/-- Refutes O59: power-up grants what waits in the toll queue, and its list of the registers that may change leaves out CLK_COL. -/
theorem not_startUpRuns : ¬ Obligations.StartUpRuns := by
  unfold Obligations.StartUpRuns
  intro h
  obtain ⟨h0, hd, hb⟩ := trimLeft_ready
  obtain ⟨hwas, hnow⟩ := trimLeft_clocked
  obtain ⟨t, hx, -, -, -, hkeep⟩ := (h 0 trimLeft).1 0 h0 hd hb
  have hclk : t.reg .CLK_COL 0 = trimLeft.reg .CLK_COL 0 := hkeep .CLK_COL 0 0 ⟨by decide, by decide⟩ (by decide)
  rw [exec_aonPowerUp h0 hd hb] at hx
  rw [← Host.Outcome.next.inj hx, hwas, hnow] at hclk
  exact absurd hclk (by decide)

end Sys2Proof.Machine
end

section
/-! The calibration of a member (R470 to R479): what it and its reports leave. -/
namespace Sys2Proof.Machine

/-- `t` holds the calibration, the depot and HBM of `s`. -/
structure State.keepsCal (s t : State) : Prop where
  cal : t.cal = s.cal
  depot : t.depot = s.depot
  hbm : t.hbm = s.hbm

/-- `t` differs from `s` in the calibration, its runs, the registers and what has left the device alone. -/
def State.onlyCal (s t : State) : Prop := t = { s with cal := t.cal, calRuns := t.calRuns, regs := t.regs, out := t.out }

section
variable {s t u : State}

theorem keepsCal_trans (h : s.keepsCal t) (h' : t.keepsCal u) : s.keepsCal u :=
  ⟨h'.cal.trans h.cal, h'.depot.trans h.depot, h'.hbm.trans h.hbm⟩

theorem keepsCal_onlyRegs (h : s.onlyRegs t) : s.keepsCal t := ⟨onlyRegs_cal h, onlyRegs_depot h, onlyRegs_hbm h⟩

theorem keepsCal_onlyReplies (h : s.onlyReplies t) : s.keepsCal t := ⟨by rw [h], by rw [h], by rw [h]⟩

theorem State.keepsCal.inst (h : s.keepsCal t) (k : Nat) : t.calInst k = s.calInst k := congrArg (mapGet cal0 · k) h.cal

theorem State.keepsCal.memory (h : s.keepsCal t) : s.sameMemory t := sameMemory_of_stores h.depot h.hbm

theorem onlyCal_refl (s : State) : s.onlyCal s := rfl

theorem onlyCal_trans (h : s.onlyCal t) (h' : t.onlyCal u) : s.onlyCal u := by
  rw [State.onlyCal] at h h' ⊢
  rw [h', h]

theorem onlyCal_onlyRegs (h : s.onlyRegs t) : s.onlyCal t := by
  rw [State.onlyRegs] at h
  rw [State.onlyCal, h]

theorem onlyCal_setCal (s : State) (k : Nat) (x : CalInst) : s.onlyCal (s.setCal k x) := rfl

section
variable (h : s.onlyCal t)
include h
theorem State.onlyCal.memory : s.sameMemory t := sameMemory_of_stores (by rw [h]) (by rw [h])
theorem State.onlyCal.calCmds : t.calCmds = s.calCmds := by rw [h]
theorem State.onlyCal.now : t.now = s.now := by rw [h]
theorem State.onlyCal.quiet : t.csmQuiet = s.csmQuiet := csmQuiet_congr (by rw [h]) (by rw [h])
end
end

section
variable (s : State) (k : Nat) (x : CalInst)

theorem calInst_setCal_same : (s.setCal k x).calInst k = x := mapGet_mapSet_same ..

theorem calInst_setCal_ne {j : Nat} (h : j ≠ k) : (s.setCal k x).calInst j = s.calInst j := mapGet_mapSet_ne _ _ _ h

theorem onlyRegs_calInst {t : State} (h : s.onlyRegs t) : t.calInst k = s.calInst k := (keepsCal_onlyRegs h).inst k

end

/-! ## What a state of calibration shows -/

theorem onlyRegs_then_setFld {s t : State} (h : s.onlyRegs t) (f : Fld) (v i j : Nat) : s.onlyRegs (t.setFld f v i j) :=
  onlyRegs_trans h (onlyRegs_setFld ..)

theorem calShow_onlyRegs (s : State) (item : Nat) : s.onlyRegs (s.calShow item) := by
  unfold State.calShow
  extract_lets b s1 s2 s3 mask s4
  have h1 : s.onlyRegs s1 := onlyRegs_setFld_setFld ..
  have h2 : s.onlyRegs s2 := onlyRegs_then_setFld h1 ..
  have h3 : s.onlyRegs s3 := onlyRegs_then_setFld h2 ..
  have h4 : s.onlyRegs s4 := onlyRegs_then_setFld (onlyRegs_then_setFld h3 ..) ..
  exact onlyRegs_then_setFld h4 ..

theorem keepsCal_foldl {α : Type} {f : State → α → State} (h : ∀ s x, State.keepsCal s (f s x)) (l : List α) (s : State) :
    s.keepsCal (l.foldl f s) :=
  ⟨foldl_reads State.cal (fun x _ u => (h u x).cal) s, foldl_reads State.depot (fun x _ u => (h u x).depot) s,
    foldl_reads State.hbm (fun x _ u => (h u x).hbm) s⟩

theorem keepsCal_setFld (s : State) (f : Fld) (v i j : Nat) : s.keepsCal (s.setFld f v i j) := ⟨rfl, rfl, rfl⟩

theorem keepsCal_repairPages (s : State) : s.keepsCal s.repairPages := by
  unfold State.repairPages
  extract_lets oct s1 s2 pg out
  have h1 : s.keepsCal s1 := keepsCal_foldl (fun _ _ => keepsCal_setFld ..) ..
  have h2 : s1.keepsCal s2 := keepsCal_foldl (fun _ _ => keepsCal_setFld ..) ..
  exact keepsCal_trans h1 (keepsCal_trans h2 ⟨rfl, rfl, rfl⟩)

theorem bootDone_onlyRegs (s : State) : s.onlyRegs s.bootDone := by
  unfold State.bootDone
  split
  · exact onlyRegs_setFld_setFld ..
  · exact onlyRegs_refl s

theorem keepsCal_stageSeven (s : State) : s.keepsCal s.stageSeven := by
  unfold State.stageSeven
  split
  · obtain ⟨u, hu⟩ : ∃ u, u = s.repairPages := ⟨_, rfl⟩
    rw [← hu]
    have hr : s.keepsCal u := hu ▸ keepsCal_repairPages s
    have hset : u.keepsCal ((u.setFld F.PWR_STAT_DSTATE 0).setFld F.PWR_STAT_BUSY 0) := keepsCal_onlyRegs (onlyRegs_setFld_setFld ..)
    obtain ⟨v, hv⟩ : ∃ v, v = (u.setFld F.PWR_STAT_DSTATE 0).setFld F.PWR_STAT_BUSY 0 := ⟨_, rfl⟩
    rw [← hv] at hset ⊢
    have hseq : v.keepsCal { v with seq := { v.seq with wake := none, on := [] } } := ⟨rfl, rfl, rfl⟩
    exact keepsCal_trans hr (keepsCal_trans hset (keepsCal_trans hseq (keepsCal_trans (keepsCal_setFld ..) (keepsCal_onlyRegs (bootDone_onlyRegs _)))))
  · exact ⟨rfl, rfl, rfl⟩

/-- The results that the end of an item's run shows (R477). -/
def State.calResults (s : State) (item : Nat) (r : CalRun) : State :=
  let s := (s.setFld F.CAL_RES0_CALIBRATED r.ok item).setFld F.CAL_RES0_FLAGGED_N r.flag item
  let s := (s.setFld F.CAL_RES1_INST r.inst item).setFld F.CAL_RES1_DELTA16 (wrapTo 16 r.delta) item
  let s := s.setFld F.CAL_RES2_TEMP (wrapTo 16 r.temp) item
  s.setFld F.CAL_RES3_RUN_US (min ((s.now - r.start) / 1000) 0xFFFFFFFF) item

/-- The boot stage after an item's run: the first four items end stage 5. -/
def State.calStaged (s : State) : State :=
  if s.fld F.DEV_START_STAGE = 5 ∧ [0, 1, 2, 3].all (fun i => s.calDueCount i == 0) then s.setFld F.DEV_START_STAGE 6 else s

theorem keepsCal_calResults (s : State) (item : Nat) (r : CalRun) : s.keepsCal (s.calResults item r) := by
  unfold State.calResults
  extract_lets s1 s2 s3
  have h1 : s.onlyRegs s1 := onlyRegs_setFld_setFld ..
  have h2 : s.onlyRegs s2 := onlyRegs_trans h1 (onlyRegs_setFld_setFld ..)
  have h3 : s.onlyRegs s3 := onlyRegs_then_setFld h2 ..
  exact keepsCal_onlyRegs (onlyRegs_then_setFld h3 ..)

theorem keepsCal_calStaged (s : State) : s.keepsCal s.calStaged := by
  unfold State.calStaged
  split
  · exact keepsCal_setFld ..
  · exact ⟨rfl, rfl, rfl⟩

theorem calRunEnd_eq (s : State) (item : Nat) : s.calRunEnd item = match mapGet none s.calRuns item with
    | some r =>
      if s.calDueCount item = 0 then
        let u := (s.calResults item r).calStaged
        ({ u with calRuns := mapSet none u.calRuns item none } : State).stageSeven
      else s
    | none => s := rfl

theorem keepsCal_calRunEnd (s : State) (item : Nat) : s.keepsCal (s.calRunEnd item) := by
  rw [calRunEnd_eq]
  split
  next r _ =>
    split
    · obtain ⟨u, hu⟩ : ∃ u, u = (s.calResults item r).calStaged := ⟨_, rfl⟩
      have h : s.keepsCal u := hu ▸ keepsCal_trans (keepsCal_calResults ..) (keepsCal_calStaged _)
      rw [← hu]
      exact keepsCal_trans h (keepsCal_trans (t := { u with calRuns := mapSet none u.calRuns item none }) ⟨rfl, rfl, rfl⟩ (keepsCal_stageSeven _))
    · exact ⟨rfl, rfl, rfl⟩
  · exact ⟨rfl, rfl, rfl⟩

theorem keepsCal_calServed (s : State) (k : Nat) (flagged : Bool) : s.keepsCal (s.calServed k flagged) := by
  unfold State.calServed
  extract_lets more upd s1
  exact keepsCal_trans (t := s1) ⟨rfl, rfl, rfl⟩ (keepsCal_foldl (fun _ _ => keepsCal_onlyReplies (reply_onlyReplies ..)) ..)

theorem keepsCal_calFlashWrite (s : State) (force : Bool) : s.keepsCal (s.calFlashWrite force) := by
  unfold State.calFlashWrite
  extract_lets ok
  split <;> exact ⟨rfl, rfl, rfl⟩

theorem keepsCal_calClose (s : State) (k : Nat) (flagged : Bool) : s.keepsCal (s.calClose k flagged) := by
  rw [State.calClose]
  exact keepsCal_trans (keepsCal_onlyRegs (calShow_onlyRegs ..)) (keepsCal_trans (keepsCal_calRunEnd ..)
    (keepsCal_trans (keepsCal_calServed ..) (keepsCal_calFlashWrite ..)))

theorem keepsCal_calRunUpd (s : State) (item : Nat) (f : CalRun → CalRun) : s.keepsCal (s.calRunUpd item f) := by
  unfold State.calRunUpd
  split <;> exact ⟨rfl, rfl, rfl⟩

end Sys2Proof.Machine
end

section
/-! What makes a member due (R472, R477), and what its attempts leave (R473 to R476). -/
namespace Sys2Proof.Machine

/-! ## Due -/

theorem calRunStart_leaves (s : State) (item : Nat) (iref : Bool) : s.onlyCal (s.calRunStart item iref) ∧ (s.calRunStart item iref).cal = s.cal := by
  unfold State.calRunStart
  extract_lets s1 was s2
  have h1 : s.onlyCal s1 := rfl
  have h2 : s1.onlyRegs s2 := onlyRegs_setFld ..
  have h12 : s.onlyCal s2 := onlyCal_trans h1 (onlyCal_onlyRegs h2)
  split
  · exact ⟨onlyCal_trans h12 rfl, (onlyRegs_cal h2).trans rfl⟩
  · exact ⟨h12, (onlyRegs_cal h2).trans rfl⟩

/-- `t` is `s` with member `k` made due as `x`. -/
structure State.duesOne (s t : State) (k : Nat) : Prop where
  frame : s.onlyCal t
  others : ∀ j, j ≠ k → t.calInst j = s.calInst j
  temp : (t.calInst k).temp = (s.calInst k).temp
  leg : (t.calInst k).legFail = (s.calInst k).legFail
  due : (s.calInst k).legFail = false → (t.calInst k).due = some ((s.calInst k).due.getD s.now)
  stays : (s.calInst k).due.isSome = true → (t.calInst k).due.isSome = true

theorem calDue1_leaves (s : State) (k : Nat) (iref : Bool) : s.duesOne (s.calDue1 k iref) k := by
  unfold State.calDue1
  extract_lets x u
  split
  next h =>
    refine ⟨onlyCal_refl s, fun _ _ => rfl, rfl, rfl, fun hl => ?_, id⟩
    obtain hleg | hdue := h
    · exact absurd hleg (by rw [show x.legFail = false from hl]; decide)
    · obtain ⟨d, hd⟩ := Option.isSome_iff_exists.1 hdue
      rw [show (s.calInst k).due = some d from hd]
      rfl
  next h =>
    obtain ⟨-, hnone⟩ := not_or.1 h
    have hdue : (s.calInst k).due = none := Option.not_isSome_iff_eq_none.1 hnone
    have hu : s.onlyCal u ∧ u.cal = s.cal := by
      change s.onlyCal (if _ then _ else s) ∧ (if _ then _ else s : State).cal = s.cal
      split
      · exact calRunStart_leaves ..
      · exact ⟨onlyCal_refl s, rfl⟩
    obtain ⟨hframe, hcal⟩ := hu
    refine ⟨onlyCal_trans hframe (onlyCal_setCal ..), fun j hj => ?_, ?_, ?_, fun _ => ?_, fun hs => absurd hs hnone⟩
    · exact (calInst_setCal_ne _ _ _ hj).trans (congrArg (mapGet cal0 · j) hcal)
    · exact (congrArg CalInst.temp (calInst_setCal_same ..)).trans rfl
    · exact (congrArg CalInst.legFail (calInst_setCal_same ..)).trans rfl
    · rw [calInst_setCal_same, hdue, hframe.now]
      rfl

/-- Members may only become due: `t` is `s` but for that. -/
structure State.duesMore (s t : State) : Prop where
  frame : s.onlyCal t
  leg : ∀ j, (s.calInst j).legFail = false → (t.calInst j).legFail = false
  stays : ∀ j, (s.calInst j).due.isSome = true → (t.calInst j).due.isSome = true

section
variable {s t u : State}

theorem duesMore_trans (h : s.duesMore t) (h' : t.duesMore u) : s.duesMore u :=
  ⟨onlyCal_trans h.frame h'.frame, fun j hj => h'.leg j (h.leg j hj), fun j hj => h'.stays j (h.stays j hj)⟩

theorem duesMore_refl (s : State) : s.duesMore s := ⟨onlyCal_refl s, fun _ => id, fun _ => id⟩

theorem duesMore_onlyRegs (h : s.onlyRegs t) : s.duesMore t :=
  ⟨onlyCal_onlyRegs h, fun j hj => (onlyRegs_calInst s j h).symm ▸ hj, fun j hj => (onlyRegs_calInst s j h).symm ▸ hj⟩

theorem State.duesOne.more {k : Nat} (h : s.duesOne t k) : s.duesMore t := by
  refine ⟨h.frame, fun j hj => ?_, fun j hj => ?_⟩
  · by_cases hk : j = k
    · rw [hk] at hj ⊢
      exact h.leg.trans hj
    · rw [h.others j hk]
      exact hj
  · by_cases hk : j = k
    · rw [hk] at hj ⊢
      exact h.stays hj
    · rw [h.others j hk]
      exact hj

/-- A fold of steps that make members due makes due what one of its steps does. -/
theorem duesMore_foldl {α : Type} {f : State → α → State} (h : ∀ s x, State.duesMore s (f s x)) (l : List α) (s : State) :
    s.duesMore (l.foldl f s) :=
  List.foldlRecOn (motive := fun t => s.duesMore t) l f (duesMore_refl s) fun t ht x _ => duesMore_trans ht (h t x)

theorem due_of_foldl {α : Type} {f : State → α → State} (h : ∀ s x, State.duesMore s (f s x)) {l : List α} {x : α} (hx : x ∈ l) {k : Nat}
    (hf : ∀ s : State, (s.calInst k).legFail = false → ((f s x).calInst k).due.isSome = true) (hl : (s.calInst k).legFail = false) :
    ((l.foldl f s).calInst k).due.isSome = true := by
  obtain ⟨a, b, rfl⟩ := List.append_of_mem hx
  rw [List.foldl_append, List.foldl_cons]
  exact (duesMore_foldl h b _).stays k (hf _ ((duesMore_foldl h a s).leg k hl))

end

theorem calAsk1_served {s : State} {k : Nat} {iref : Bool} (h : (s.calInst k).served = true) :
    s.calAsk1 k iref = s.setCal k { s.calInst k with again := true } := if_pos h

theorem calAsk1_idle {s : State} {k : Nat} {iref : Bool} (h : (s.calInst k).served = false) : s.calAsk1 k iref = s.calDue1 k iref :=
  if_neg (by rw [h]; decide)

theorem due_of_served {x : CalInst} (h : x.served = true) : x.due.isSome = true := by
  rw [CalInst.served, Bool.and_eq_true] at h
  exact h.1

theorem duesMore_calAsk1 (s : State) (k : Nat) (iref : Bool) : s.duesMore (s.calAsk1 k iref) := by
  cases h : (s.calInst k).served with
  | true =>
    have hk := calInst_setCal_same s k { s.calInst k with again := true }
    rw [calAsk1_served h]
    have hone : s.duesOne (s.setCal k { s.calInst k with again := true }) k := by
      refine ⟨onlyCal_setCal .., fun j hj => calInst_setCal_ne _ _ _ hj, (congrArg CalInst.temp hk).trans rfl, (congrArg CalInst.legFail hk).trans rfl, fun _ => ?_, fun hd => by rw [hk]; exact hd⟩
      obtain ⟨d, hd⟩ := Option.isSome_iff_exists.1 (due_of_served h)
      rw [hk, show (s.calInst k).due = some d from hd]
      rfl
    exact hone.more
  | false =>
    rw [calAsk1_idle h]
    exact (calDue1_leaves ..).more

theorem calAsk1_due (s : State) (k : Nat) (iref : Bool) (hl : (s.calInst k).legFail = false) : ((s.calAsk1 k iref).calInst k).due.isSome = true := by
  cases h : (s.calInst k).served with
  | true =>
    rw [calAsk1_served h, calInst_setCal_same]
    exact due_of_served h
  | false => rw [calAsk1_idle h, (calDue1_leaves s k iref).due hl]; rfl

theorem duesMore_calDueItem (s : State) (item : Nat) (iref : Bool) : s.duesMore (s.calDueItem item iref) := by
  rw [State.calDueItem]
  exact duesMore_trans (duesMore_foldl (fun _ _ => duesMore_calAsk1 ..) ..) (duesMore_onlyRegs (calShow_onlyRegs ..))

theorem calDueItem_due (s : State) {item inst : Nat} (iref : Bool) (hi : inst < calCount item)
    (hl : (s.calInst (calKey item inst)).legFail = false) : ((s.calDueItem item iref).calInst (calKey item inst)).due.isSome = true := by
  rw [State.calDueItem]
  exact (duesMore_onlyRegs (calShow_onlyRegs _ item)).stays _
    (due_of_foldl (fun _ _ => duesMore_calAsk1 ..) (List.mem_range.2 hi) (fun u hu => calAsk1_due u _ iref hu) hl)

/-- One item of a mask of items. -/
def State.calDueBit (mask : Nat) (iref : Bool) (s : State) (i : Nat) : State := if bitsOf mask i 1 = 1 then s.calDueItem i iref else s

theorem calDueMask_eq (s : State) (mask : Nat) (iref : Bool) : s.calDueMask mask iref = (List.range 9).foldl (State.calDueBit mask iref) s := rfl

theorem duesMore_calDueBit (mask : Nat) (iref : Bool) (s : State) (i : Nat) : s.duesMore (s.calDueBit mask iref i) := by
  unfold State.calDueBit
  split
  · exact duesMore_calDueItem ..
  · exact duesMore_refl s

theorem duesMore_calDueMask (s : State) (mask : Nat) (iref : Bool) : s.duesMore (s.calDueMask mask iref) := by
  rw [calDueMask_eq]
  exact duesMore_foldl (duesMore_calDueBit mask iref) ..

theorem calDueMask_due (s : State) {mask item inst : Nat} (iref : Bool) (hm : bitsOf mask item 1 = 1) (h9 : item < 9) (hi : inst < calCount item)
    (hl : (s.calInst (calKey item inst)).legFail = false) : ((s.calDueMask mask iref).calInst (calKey item inst)).due.isSome = true := by
  rw [calDueMask_eq]
  refine due_of_foldl (duesMore_calDueBit mask iref) (List.mem_range.2 h9) (fun u hu => ?_) hl
  rw [State.calDueBit, if_pos hm]
  exact calDueItem_due u iref hi hu

theorem calCount_lt (item : Fin 9) : calCount item < 2048 := by decide +revert

theorem calKey_item {item : Fin 9} {inst : Nat} (h : inst < calCount item) : calKey item inst / 2048 = item := by
  have := calCount_lt item
  rw [calKey]
  omega

end Sys2Proof.Machine
end

section
/-! Calibration (R470 to R479): members become due, are measured, accepted and swapped, and are held. -/
namespace Sys2Proof.Machine

section
variable {dt : Nat} {item : Fin 9} {inst : Nat} {s : State}

/-! ## Due, and held -/

/-- Another temperature makes a member due. -/
theorem calDue_far {iref : Bool} {v v0 : Int} (hi : inst < calCount item) (hd : s.domOn 14 = true)
    (h0 : (s.calInst (calKey item inst)).lastT = some v0) (hfar : 8 * s.fld F.CAL_CFG_DELTA_T < (v - v0).natAbs) :
    exec (.calDue dt item inst (some v) iref) s = .next ((((s.tick dt).setCal (calKey item inst)
      { s.calInst (calKey item inst) with temp := v }).calDue1 (calKey item inst) iref).calShow item) := by
  change execCalDue dt item inst (some v) iref s = _
  unfold execCalDue
  dsimp only
  have hg : inst < calCount item ∧ (s.tick dt).domOn 14 = true := ⟨hi, hd⟩
  have h0' : ((s.tick dt).calInst (calKey item inst)).lastT = some v0 := h0
  rw [if_pos hg]
  refine if_pos ?_
  rw [h0']
  exact decide_eq_true hfar

theorem dueOf_leaves (s : State) (k : Nat) (v : Int) (iref : Bool) (hl : (s.calInst k).legFail = false) :
    let t := ((s.setCal k { s.calInst k with temp := v }).calDue1 k iref).calShow item
    (t.calInst k).due = some ((s.calInst k).due.getD s.now) ∧ (t.calInst k).temp = v ∧ (∀ j, j ≠ k → t.calInst j = s.calInst j) ∧ s.sameMemory t := by
  obtain ⟨x, hx⟩ : ∃ x : CalInst, x = { s.calInst k with temp := v } := ⟨_, rfl⟩
  obtain ⟨u, hu⟩ : ∃ u, u = s.setCal k x := ⟨_, rfl⟩
  have hsame : u.calInst k = x := hu ▸ calInst_setCal_same ..
  have hframe : s.onlyCal u := hu ▸ onlyCal_setCal ..
  have hone := calDue1_leaves u k iref
  have hshow := calShow_onlyRegs (u.calDue1 k iref) item
  have hdue := hone.due (by rw [hsame, hx]; exact hl)
  rw [← hx, ← hu]
  refine ⟨?_, ?_, fun j hj => ?_, ?_⟩
  · rw [onlyRegs_calInst _ _ hshow, hdue, hsame, hframe.now, hx]
  · rw [onlyRegs_calInst _ _ hshow, hone.temp, hsame, hx]
  · rw [onlyRegs_calInst _ _ hshow, hone.others j hj, hu, calInst_setCal_ne _ _ _ hj]
  · exact (onlyCal_trans hframe (onlyCal_trans hone.frame (onlyCal_onlyRegs hshow))).memory

theorem calHoldTimeout_holds {d : Nat} (hd : (s.calInst (calKey item inst)).due = some d) (hdisc : (s.calInst (calKey item inst)).disc = true)
    (hh : d + s.fld F.CAL_HOLD_HOLD_S * 1000000000 ≤ (s.now + dt) % 2 ^ 64) : exec (.calHoldTimeout dt item inst) s =
      .next (((s.tick dt).setCal (calKey item inst) { s.calInst (calKey item inst) with held := true }).calShow item) := by
  change execCalHoldTimeout dt item inst s = _
  unfold execCalHoldTimeout
  dsimp only
  have hd' : ((s.tick dt).calInst (calKey item inst)).due = some d := hd
  split
  next d' he => exact if_pos ⟨hdisc, Option.some.inj (hd'.symm.trans he) ▸ hh⟩
  next he => exact absurd (hd'.symm.trans he) nofun

/-- An entry that is not the default stands in the table. -/
theorem mem_of_mapGet_ne {α : Type} {d : α} {m : FMap α} {k : Nat} (h : mapGet d m k ≠ d) : (k, mapGet d m k) ∈ m := by
  induction m with
  | nil => exact absurd rfl h
  | cons e m ih =>
    obtain ⟨a, x⟩ := e
    rw [mapGet] at h ⊢
    by_cases hk : k = a
    · rw [if_pos hk, hk]
      exact List.mem_cons_self
    · rw [if_neg hk] at h ⊢
      exact List.mem_cons_of_mem _ (ih h)

theorem calAny_of_inst {item : Nat} {k : Nat} {p : CalInst → Bool} (hk : k / 2048 = item) (h : p (s.calInst k) = true) (h0 : p cal0 = false) :
    s.calAny item p = true := by
  have hne : s.calInst k ≠ cal0 := fun he => by rw [he, h0] at h; exact absurd h (by decide)
  exact List.any_eq_true.2 ⟨_, mem_of_mapGet_ne hne, by rw [hk, decide_eq_true rfl]; exact h⟩

/-- What calibration shows touches two registers, and shows an item that has a held member as held. -/
theorem calShow_held (s : State) (item : Fin 9) (h : s.calAny item (·.held) = true) : (s.calShow item).flag F.CAL_ITEM_STAT_HELD item = true ∧
    s.keeps (s.calShow item) [(.CAL_ITEM_STAT, item, 0), (.CAL_STAT, 0, 0)] := by
  unfold State.calShow
  extract_lets b s1 s2 s3 mask s4
  have hb : b (·.held) = 1 := if_pos h
  have hone : regHas .CAL_ITEM_STAT item 0 := ⟨item.isLt, Nat.one_pos⟩
  have hmem : ((Reg.CAL_ITEM_STAT, item.val, 0) : Reg × Nat × Nat) ∈ [(.CAL_ITEM_STAT, item.val, 0), (.CAL_STAT, 0, 0)] := by simp
  have hstat : ((Reg.CAL_STAT, 0, 0) : Reg × Nat × Nat) ∈ [(.CAL_ITEM_STAT, item.val, 0), (.CAL_STAT, 0, 0)] := by simp
  have hzero : regHas .CAL_STAT 0 0 := by decide
  have k0 := keeps_setFld_of_keeps (f := F.CAL_ITEM_STAT_FLAGGED) (v := b (·.flagged)) s
    (keeps_refl s [(.CAL_ITEM_STAT, item.val, 0), (.CAL_STAT, 0, 0)]) hone hmem
  have k1 := keeps_setFld_of_keeps (f := F.CAL_ITEM_STAT_HELD) (v := b (·.held)) s k0 hone hmem
  have f1 : s1.flag F.CAL_ITEM_STAT_HELD item = true := by
    rw [show s1.flag F.CAL_ITEM_STAT_HELD item = _ from flag_setFld_same _ F.CAL_ITEM_STAT_HELD _ _ _ (by decide), hb]
    rfl
  have k2 := keeps_setFld_of_keeps (f := F.CAL_ITEM_STAT_LEGFAIL) (v := b (·.legFail)) s k1 hone hmem
  have f2 : s2.flag F.CAL_ITEM_STAT_HELD item = true := (flag_setFld_other (f := F.CAL_ITEM_STAT_LEGFAIL) (g := F.CAL_ITEM_STAT_HELD) s1 _ _ _ rfl (by decide) (by decide)).trans f1
  have k3 := keeps_setFld_of_keeps (f := F.CAL_ITEM_STAT_DUE_CNT) (v := s2.calDueCount item) s k2 hone hmem
  have f3 : s3.flag F.CAL_ITEM_STAT_HELD item = true := (flag_setFld_other (f := F.CAL_ITEM_STAT_DUE_CNT) (g := F.CAL_ITEM_STAT_HELD) s2 _ _ _ rfl (by decide) (by decide)).trans f2
  have k4 := keeps_setFld_of_keeps (f := F.CAL_STAT_FLAGGED) (v := mask F.CAL_ITEM_STAT_FLAGGED) s k3 hzero hstat
  have k5 := keeps_setFld_of_keeps (f := F.CAL_STAT_HELD) (v := mask F.CAL_ITEM_STAT_HELD) s k4 hzero hstat
  have f5 : s4.flag F.CAL_ITEM_STAT_HELD item = true :=
    ((flag_setFld_reg (f := F.CAL_STAT_HELD) (g := F.CAL_ITEM_STAT_HELD) _ _ hzero hone (by decide)).trans
      (flag_setFld_reg (f := F.CAL_STAT_FLAGGED) (g := F.CAL_ITEM_STAT_HELD) s3 _ hzero hone (by decide))).trans f3
  exact ⟨(flag_setFld_reg (f := F.CAL_STAT_BUSY) (g := F.CAL_ITEM_STAT_HELD) s4 _ hzero hone (by decide)).trans f5, keeps_setFld_of_keeps (f := F.CAL_STAT_BUSY) s _ k5 hzero hstat⟩

theorem heldOf_leaves (s : State) (item : Fin 9) {k : Nat} (hk : k / 2048 = item) :
    let t := (s.setCal k { s.calInst k with held := true }).calShow item
    t.calInst k = { s.calInst k with held := true } ∧ (∀ j, j ≠ k → t.calInst j = s.calInst j) ∧
      t.flag F.CAL_ITEM_STAT_HELD item = true ∧ s.keeps t [(.CAL_ITEM_STAT, item, 0), (.CAL_STAT, 0, 0)] ∧ s.sameMemory t := by
  obtain ⟨x, hx⟩ : ∃ x : CalInst, x = { s.calInst k with held := true } := ⟨_, rfl⟩
  obtain ⟨u, hu⟩ : ∃ u, u = s.setCal k x := ⟨_, rfl⟩
  have hsame : u.calInst k = x := hu ▸ calInst_setCal_same ..
  have hframe : s.onlyCal u := hu ▸ onlyCal_setCal ..
  have hshow := calShow_onlyRegs u item
  have hany : u.calAny item (·.held) = true := calAny_of_inst hk (by rw [hsame, hx]) rfl
  obtain ⟨hflag, hkeep⟩ := calShow_held u item hany
  rw [← hx, ← hu]
  refine ⟨(onlyRegs_calInst _ _ hshow).trans hsame, fun j hj => ?_, hflag, ?_, (onlyCal_trans hframe (onlyCal_onlyRegs hshow)).memory⟩
  · rw [onlyRegs_calInst _ _ hshow, hu, calInst_setCal_ne _ _ _ hj]
  · exact keeps_trans (keeps_of_regs [] (hu ▸ rfl)) hkeep

/-! ## Measured -/

/-- The member is due, does not wait for its swap, and its column, tile and reference allow a measurement (R470, R471). -/
structure State.calReady (s : State) (item : Fin 9) (inst : Nat) : Prop where
  due : (s.calInst (calKey item inst)).due ≠ none
  swap : (s.calInst (calKey item inst)).swap = false
  dom : s.domOn 14 = true
  ref : (s.flag F.CAL_STAT_REF_FAULT && calTraced item) = false
  skip : s.calSkip (calKey item inst) = false

/-- What a measurement that is taken does with the member. -/
def State.calMeasured (s : State) (k : Nat) (code : Int) (conf : Nat) (temp : Int) (tol : Nat) : State :=
  if conf < s.calConf (s.calInst k) then s.setCal k { s.calInst k with disc := true, temp := temp }
  else (s.calInst k).m1.elim (s.setCal k { s.calInst k with m1 := some code, temp := temp, tol := tol, conf := s.fld F.CAL_CFG_CONF_MIN })
    fun m1 => (s.setCal k { s.calInst k with temp := temp }).calAttempt k m1 code temp

theorem elim_of_none {α β : Type} {o : Option α} (h : o = none) (b : β) (f : α → β) : o.elim b f = b := by rw [h, Option.elim_none]

theorem elim_of_some {α β : Type} {o : Option α} {a : α} (h : o = some a) (b : β) (f : α → β) : o.elim b f = f a := by rw [h, Option.elim_some]

theorem exec_calMeasurement {code temp : Int} {conf : Fin 256} (h : s.calReady item inst) : exec (.calMeasurement dt item inst code conf temp) s =
    .next ((s.tick dt).calMeasured (calKey item inst) code conf temp (s.fld F.CAL_ITEM_CFG_TOL item)) := by
  change execCalMeasurement dt item inst code conf temp s = _
  unfold execCalMeasurement
  dsimp only
  have hdue : ((s.tick dt).calInst (calKey item inst)).due.isSome = true := Option.isSome_iff_ne_none.2 h.due
  have hg : ((s.tick dt).calInst (calKey item inst)).due.isSome = true ∧ (!((s.tick dt).calInst (calKey item inst)).swap) = true ∧
      (s.tick dt).domOn 14 = true ∧ (!((s.tick dt).flag F.CAL_STAT_REF_FAULT && calTraced item)) = true :=
    ⟨hdue, congrArg (!·) h.swap, h.dom, congrArg (!·) h.ref⟩
  have hs : ¬ (s.tick dt).calSkip (calKey item inst) = true := fun hc => absurd (h.skip.symm.trans hc) (by decide)
  rw [if_pos hg, if_neg hs, State.calMeasured]
  split
  · rfl
  · split
    next h1 =>
      rw [elim_of_none h1]
      rfl
    next m h1 => rw [elim_of_some h1]

theorem calMeasured_discards {k conf tol : Nat} {code temp : Int} (h : conf < s.calConf (s.calInst k)) :
    s.calMeasured k code conf temp tol = s.setCal k { s.calInst k with disc := true, temp := temp } := if_pos h

theorem calMeasured_first {k conf tol : Nat} {code temp : Int} (h : s.fld F.CAL_CFG_CONF_MIN ≤ conf) (h1 : (s.calInst k).m1 = none) :
    s.calMeasured k code conf temp tol =
      s.setCal k { s.calInst k with m1 := some code, temp := temp, tol := tol, conf := s.fld F.CAL_CFG_CONF_MIN } := by
  have hc : s.calConf (s.calInst k) = s.fld F.CAL_CFG_CONF_MIN := by
    rw [State.calConf, h1]
    rfl
  rw [State.calMeasured, hc, if_neg (Nat.not_lt.2 h), elim_of_none h1]

theorem calMeasured_second {k conf tol : Nat} {code temp m1 : Int} (h : (s.calInst k).conf ≤ conf) (h1 : (s.calInst k).m1 = some m1) :
    s.calMeasured k code conf temp tol = (s.setCal k { s.calInst k with temp := temp }).calAttempt k m1 code temp := by
  have hc : s.calConf (s.calInst k) = (s.calInst k).conf := by
    rw [State.calConf, h1]
    rfl
  rw [State.calMeasured, hc, if_neg (Nat.not_lt.2 h), elim_of_some h1]

/-- A member whose active leg was not at its end. -/
def CalInst.offEnd (x : CalInst) : CalInst := if x.active then { x with endA := 0 } else { x with endB := 0 }

/-- Two measurements that agree, away from the ends, are accepted (R474). -/
theorem calAttempt_agrees {k : Nat} {m1 m2 v : Int} (h1 : (calRange (k / 2048)).1 < m1) (h1' : m1 < (calRange (k / 2048)).2)
    (h2 : (calRange (k / 2048)).1 < m2) (h2' : m2 < (calRange (k / 2048)).2) (ht : (m1 - m2).natAbs ≤ (s.calInst k).tol) :
    s.calAttempt k m1 m2 v = (s.setCal k (s.calInst k).offEnd).calAccept k (8 * (m1 + m2)) v := by
  have hend : ¬ (m1 = (calRange (k / 2048)).1 ∨ m1 = (calRange (k / 2048)).2 ∨ m2 = (calRange (k / 2048)).1 ∨ m2 = (calRange (k / 2048)).2) := by
    omega
  have htol : (m1 - m2).natAbs ≤ (s.calInst k).offEnd.tol := by
    rw [CalInst.offEnd]
    split <;> exact ht
  rw [State.calAttempt]
  dsimp only
  rw [decide_eq_false hend]
  exact (if_neg (by rw [if_neg (by decide)]; decide)).trans (if_pos htol)

/-- What acceptance makes of a member. -/
def State.calAccepted (s : State) (k : Nat) (x : CalInst) (v t : Int) : CalInst :=
  { s.calNext (if x.active then { x with sa := calUpdate k x.spareSets v t } else { x with sb := calUpdate k x.spareSets v t }) with
    flagged := false, held := false, temp := t, lastT := some t, lastAt := s.now, swap := true }

theorem calAccept_leaves (s : State) (k : Nat) (v t : Int) : (s.calAccept k v t).calInst k = s.calAccepted k (s.calInst k) v t ∧
    (∀ j, j ≠ k → (s.calAccept k v t).calInst j = s.calInst j) ∧ s.sameMemory (s.calAccept k v t) := by
  unfold State.calAccept
  extract_lets x sp d moved y src u u1 u2 u3
  have hu : s.onlyCal u := onlyCal_setCal ..
  have hsame : u.calInst k = s.calAccepted k (s.calInst k) v t := calInst_setCal_same ..
  have hne (j : Nat) (hj : j ≠ k) : u.calInst j = s.calInst j := calInst_setCal_ne _ _ _ hj
  have h1 : u.keepsCal u1 := keepsCal_trans (keepsCal_setFld u F.CAL_COUNT_COUNT _ 0 0) (keepsCal_setFld _ F.CAL_LAST_TIME_TIME _ 0 0)
  have h2 : u1.keepsCal u2 := keepsCal_calRunUpd ..
  have h3 : u2.keepsCal u3 := ⟨rfl, rfl, rfl⟩
  have h := keepsCal_trans h1 (keepsCal_trans h2 (keepsCal_trans h3 (keepsCal_calClose u3 k false)))
  exact ⟨(h.inst k).trans hsame, fun j hj => (h.inst j).trans (hne j hj), sameMemory_trans hu.memory h.memory⟩

/-- Acceptance updates the spare leg and readies the swap (R475, R476). -/
theorem calAccepted_fields (s : State) (k : Nat) (x : CalInst) (v t : Int) :
    (s.calAccepted k x v t).due = (if x.again then some s.now else none) ∧ (s.calAccepted k x v t).swap = true ∧
    (s.calAccepted k x v t).active = x.active ∧ (s.calAccepted k x v t).activeSets = x.activeSets ∧
    (s.calAccepted k x v t).spareSets = calUpdate k x.spareSets v t := by
  unfold State.calAccepted CalInst.activeSets CalInst.spareSets State.calNext
  cases x.active <;> simp

theorem offEnd_fields (x : CalInst) : x.offEnd.again = x.again ∧ x.offEnd.active = x.active ∧ x.offEnd.activeSets = x.activeSets ∧
    x.offEnd.spareSets = x.spareSets := by
  unfold CalInst.offEnd CalInst.activeSets CalInst.spareSets
  cases x.active <;> simp

theorem calAgreed_leaves (s : State) (k : Nat) (v temp : Int) :
    let x := s.calInst k
    let u := s.setCal k { x with temp := temp }
    let t := (u.setCal k (u.calInst k).offEnd).calAccept k v temp
    (t.calInst k).due = (if x.again then some s.now else none) ∧ (t.calInst k).swap = true ∧ (t.calInst k).active = x.active ∧
      (t.calInst k).activeSets = x.activeSets ∧ (t.calInst k).spareSets = calUpdate k x.spareSets v temp ∧
      (∀ j, j ≠ k → t.calInst j = s.calInst j) ∧ s.sameMemory t := by
  intro x u t
  have hu : u.calInst k = { x with temp := temp } := calInst_setCal_same ..
  obtain ⟨w, hw⟩ : ∃ w, w = u.setCal k (u.calInst k).offEnd := ⟨_, rfl⟩
  have hwk : w.calInst k = ({ x with temp := temp } : CalInst).offEnd := by rw [hw, calInst_setCal_same, hu]
  have hframe : s.onlyCal w := hw ▸ onlyCal_trans (onlyCal_setCal s k _) (onlyCal_setCal u k _)
  have hnow : w.now = s.now := hframe.now
  have hne (j : Nat) (hj : j ≠ k) : w.calInst j = s.calInst j := by
    rw [hw, calInst_setCal_ne _ _ _ hj]
    exact calInst_setCal_ne _ _ _ hj
  have ht : t = w.calAccept k v temp := by rw [hw]
  obtain ⟨hacc, hothers, hmem⟩ := calAccept_leaves w k v temp
  obtain ⟨hdue, hswap, hact, hsets, hspare⟩ := calAccepted_fields w k (w.calInst k) v temp
  obtain ⟨oagain, oact, osets, ospare⟩ := offEnd_fields { x with temp := temp }
  rw [hwk] at hdue hact hsets hspare hacc hswap
  rw [oagain, hnow] at hdue
  rw [ht, hacc]
  exact ⟨hdue, hswap, hact.trans oact, hsets.trans osets, hspare.trans (by rw [ospare]; rfl), fun j hj => (hothers j hj).trans (hne j hj),
    sameMemory_trans hframe.memory hmem⟩

/-! ## Swapped, triggered and run -/

theorem calSwapComplete_swaps (hx : (s.calInst (calKey item inst)).swap = true) (hb : s.calLinkBusy (calKey item inst) = false)
    (hr : item.val ≠ 8 ∨ s.fld F.CLK_STAT_REF = 0) : exec (.calSwapComplete dt item inst) s = .next ((s.tick dt).setCal (calKey item inst)
      { s.calInst (calKey item inst) with active := !(s.calInst (calKey item inst)).active, swap := false }) := by
  have href : (!(decide (item.val = 8) && s.fld F.CLK_STAT_REF != 0)) = true := by
    obtain h8 | h0 := hr
    · rw [decide_eq_false h8, Bool.false_and]
      rfl
    · rw [h0, show ((0 : Nat) != 0) = false from rfl, Bool.and_false]
      rfl
  exact if_pos ⟨hx, congrArg (!·) hb, href⟩

section
variable {r : Requester} {v : Word} {iref : Bool} (ha : s.access (regAddr .CAL_TRIG) 4 = .ok (hitOf .CAL_TRIG 0 0))
include ha

theorem exec_calTrigWrite : exec (.calTrigWrite dt r v iref) s = .next ((s.tick dt).calTrigWrite r v.toNat iref) :=
  congrArg Host.Outcome.next (accessing_of_ok (s := s.tick dt) ha r v.toNat fun _ => (s.tick dt).calTrigWrite r v.toNat iref)

end

theorem bitsOf_mod_512 {v : Nat} (item : Fin 9) : bitsOf (v % 512) item 1 = bitsOf v item 1 := by
  fin_cases item <;> simp only [bitsOf] <;> omega

/-- The members that a CAL_RUN waits for. -/
def State.calLeft (s : State) (m : Nat) : List Nat := (s.cal.filter fun e => bitsOf m (e.1 / 2048) 1 == 1 && e.2.due.isSome).map (·.1)

theorem mem_calLeft {m k : Nat} (hm : bitsOf m (k / 2048) 1 = 1) (hd : (s.calInst k).due.isSome = true) : k ∈ s.calLeft m := by
  have hne : s.calInst k ≠ cal0 := fun he => by rw [he] at hd; exact absurd hd (by decide)
  refine List.mem_map.2 ⟨_, List.mem_filter.2 ⟨mem_of_mapGet_ne hne, ?_⟩, rfl⟩
  rw [hm]
  exact hd

theorem takenPending_calCmds (s : State) (dt : Nat) (h : CmdHdr) (p : List Word) : (s.takenPending dt h p).calCmds = s.calCmds := by
  rw [show (s.takenPending dt h p).calCmds = _ from congrArg State.calCmds (takenPending_onlyReplies s dt h p), taken_frame]
  rfl

theorem takenPending_calInst (s : State) (dt : Nat) (h : CmdHdr) (p : List Word) (k : Nat) : (s.takenPending dt h p).calInst k = s.calInst k :=
  ((keepsCal_onlyReplies (takenPending_onlyReplies s dt h p)).inst k).trans (by rw [taken_frame]; rfl)

theorem exec_calRun {h : CmdHdr} {p : List Word} {iref : Bool} {u : State} (ht : s.takes (.calRun dt h p iref) = true)
    (hs : s.fld F.DEV_START_STAGE = 8) (hu : u = (s.takenPending dt h p).calDueMask (pw p 0) iref) (hl : u.calLeft (pw p 0) ≠ []) :
    exec (.calRun dt h p iref) s = .next { u with
      calCmds := u.calCmds ++ [⟨h, u.calLeft (pw p 0), 0, (u.calLeft (pw p 0)).filter fun k => (u.calInst k).again⟩] } := by
  have hquiet : u.csmQuiet = true := hu ▸ (duesMore_calDueMask ..).frame.quiet.trans (takenPending_quiet s dt h p (takes_mc rfl ht).1)
  have hstage : ¬ (s.taken dt h p).fld F.DEV_START_STAGE ≠ 8 :=
    not_not.2 ((fld_taken s dt h p (f := F.DEV_START_STAGE) ⟨by decide, by decide⟩ nofun).trans hs)
  have hempty : ¬ (u.calLeft (pw p 0)).isEmpty = true := fun he => hl (List.isEmpty_iff.1 he)
  refine exec_mc rfl ht rfl ?_ ((csmQuiet_congr rfl rfl).trans hquiet)
  dsimp only
  rw [if_neg hstage, ← hu]
  exact if_neg hempty

end

/-- Settles O29: what is due, measured, swapped and held is one entry of the calibration; what closes an attempt leaves the entries. -/
theorem calibrationRuns : Obligations.CalibrationRuns := by
  unfold Obligations.CalibrationRuns
  intro dt item inst s hi k x others
  have hk : k / 2048 = item := calKey_item hi
  refine ⟨fun iref v v0 hd h0 hfar hl => ?_, fun code temp conf hdue hswap hdom href hskip => ⟨fun hc => ?_, fun hc h1 => ?_,
    fun m1 hc h1 hlo hhi hlo' hhi' htol => ?_⟩, fun hx hb hr => ?_, fun d hd hdisc hh => ?_, fun r v iref ha => ⟨fun hr hm hl => ?_, fun hr => ?_⟩,
    fun h p iref ht hs hm hl => ?_⟩
  · obtain ⟨hdue, htemp, hoth, hmem⟩ := dueOf_leaves (s.tick dt) k v iref hl
    exact ⟨_, calDue_far hi hd h0 hfar, hdue, htemp, hoth, hmem⟩
  · exact ⟨_, (exec_calMeasurement ⟨hdue, hswap, hdom, href, hskip⟩).trans (congrArg _ (calMeasured_discards (s := s.tick dt) hc)),
      calInst_setCal_same .., fun j hj => calInst_setCal_ne _ _ _ hj, rfl⟩
  · exact ⟨_, (exec_calMeasurement ⟨hdue, hswap, hdom, href, hskip⟩).trans (congrArg _ (calMeasured_first (s := s.tick dt) hc h1)),
      calInst_setCal_same .., fun j hj => calInst_setCal_ne _ _ _ hj, rfl⟩
  · rw [← hk] at hlo hhi hlo' hhi'
    have hsame : ((s.tick dt).setCal k { x with temp := temp }).calInst k = { x with temp := temp } := calInst_setCal_same ..
    have hag := calAttempt_agrees (v := temp) (s := (s.tick dt).setCal k { x with temp := temp }) hlo hhi hlo' hhi' (by rw [hsame]; exact htol)
    exact ⟨_, (exec_calMeasurement ⟨hdue, hswap, hdom, href, hskip⟩).trans
      (congrArg _ ((calMeasured_second (s := s.tick dt) hc h1).trans hag)), calAgreed_leaves (s.tick dt) k (8 * (m1 + code)) temp⟩
  · exact ⟨_, calSwapComplete_swaps hx hb hr, calInst_setCal_same .., fun j hj => calInst_setCal_ne _ _ _ hj, rfl⟩
  · exact ⟨_, calHoldTimeout_holds hd hdisc hh, heldOf_leaves (s.tick dt) item hk⟩
  · have hm' : bitsOf (v.toNat % 512) item 1 = 1 := (bitsOf_mod_512 item).trans hm
    refine ⟨_, (exec_calTrigWrite ha).trans (congrArg _ (if_pos hr)), calDueMask_due (s.tick dt) iref hm' item.isLt hi hl,
      (duesMore_calDueMask (s.tick dt) (v.toNat % 512) iref).frame.memory⟩
  · exact (exec_calTrigWrite ha).trans (congrArg _ (if_neg hr))
  · obtain ⟨u, hu⟩ : ∃ u, u = (s.takenPending dt h p).calDueMask (pw p 0) iref := ⟨_, rfl⟩
    have hframe : (s.takenPending dt h p).onlyCal u := hu ▸ (duesMore_calDueMask ..).frame
    have hdue : (u.calInst k).due.isSome = true := hu ▸ calDueMask_due _ iref hm item.isLt hi (takenPending_calInst s dt h p k ▸ hl)
    have hleft : k ∈ u.calLeft (pw p 0) := mem_calLeft (hk ▸ hm) hdue
    exact ⟨_, u.calLeft (pw p 0), _, exec_calRun ht hs hu (List.ne_nil_of_mem hleft), hdue,
      congrArg (· ++ _) (hframe.calCmds.trans (takenPending_calCmds ..)), hleft,
      sameMemory_trans (takenPending_sameMemory s dt h p) (sameMemory_trans hframe.memory (sameMemory_of_stores rfl rfl))⟩

end Sys2Proof.Machine
end

section
/-! The slew probe (R512): REFILL_US stands through what the toll gate does after it. -/
namespace Sys2Proof.Machine

/-! ## REFILL_US -/

/-- `t` has the REFILL_US of `s`. -/
def State.keepsRefill (s t : State) : Prop := t.fld F.PWR_TOLL_REFILL_US = s.fld F.PWR_TOLL_REFILL_US

section
variable (s : State)

theorem keepsRefill_trans {s t u : State} (h : s.keepsRefill t) (h' : t.keepsRefill u) : s.keepsRefill u := h'.trans h

theorem keepsRefill_regs {s t : State} (h : t.regs = s.regs) : s.keepsRefill t := State.fld_congr h _ _ _

/-- A field at or above the columns' registers lies apart from PWR_TOLL. -/
theorem keepsRefill_setFld {f : Fld} (v : Nat) {i : Nat} (h : 0xB00100 ≤ regAddr f.reg i) : s.keepsRefill (s.setFld f v i) :=
  s.fld_setFld_ne v fun e => absurd (e ▸ h) (by decide)

theorem colAddr_le (c : Nat) : 0xB00100 ≤ regAddr .PWR_COL c := by simp [regAddr, regRow]
theorem clkAddr_le (c : Nat) : 0xB00100 ≤ regAddr .CLK_COL c := by
  simp only [regAddr, regRow]
  omega
theorem domAddr_le (d : Nat) : 0xB00100 ≤ regAddr .PWR_DOM d := by
  simp only [regAddr, regRow]
  omega

theorem keepsRefill_paid (n : Nat) : s.keepsRefill (s.paid n) :=
  fld_setFld_at (n := 1) (f := F.PWR_TOLL_LEVEL) (g := F.PWR_TOLL_REFILL_US) s _ Nat.one_pos (by decide)

theorem keepsRefill_startTrim (c op : Nat) : s.keepsRefill (s.startTrim c op) := by
  rw [startTrim_eq]
  refine keepsRefill_trans ?_ (keepsRefill_trans (keepsRefill_setFld (f := F.PWR_COL_STATE) _ _ (colAddr_le c)) (keepsRefill_regs (setCol_regs ..)))
  unfold State.trimClock
  split
  · exact keepsRefill_setFld (f := F.CLK_COL_MHZ) s _ (clkAddr_le c)
  · exact rfl

theorem keepsRefill_tollBegin (q : TollFor) : s.keepsRefill (s.tollBegin q) := by
  cases q with
  | dom d => exact keepsRefill_setFld (f := F.PWR_DOM_STATE) s _ (domAddr_le d)
  | colOn c => exact keepsRefill_regs (setCol_regs ..)
  | unpark c => exact keepsRefill_regs (setCol_regs ..)
  | raise c =>
    unfold State.tollBegin
    dsimp only
    split
    · exact keepsRefill_startTrim ..
    · exact rfl
  | rethrow c =>
    unfold State.tollBegin
    dsimp only
    split
    · exact keepsRefill_startTrim ..
    · exact rfl

theorem keepsRefill_tollGrant (n : Nat) : s.keepsRefill (s.tollGrant n) := by
  induction n generalizing s with
  | zero => exact rfl
  | succ n ih =>
    cases hh : s.tollHigh with
    | cons q qs =>
      by_cases hc : tollCost q ≤ s.fld F.PWR_TOLL_LEVEL
      · rw [tollGrant_high n hh hc]
        have hq : (s.paid (tollCost q)).keepsRefill ((s.paid (tollCost q)).withHigh qs) := keepsRefill_regs rfl
        exact keepsRefill_trans (keepsRefill_paid ..) (keepsRefill_trans hq (keepsRefill_trans (keepsRefill_tollBegin ..) (ih _)))
      · rw [tollGrant_waits _ hh (Nat.not_le.1 hc)]
        exact rfl
    | nil =>
      cases hn : s.tollNorm with
      | nil =>
        rw [State.tollGrant, hh, hn]
        exact rfl
      | cons q qs =>
        by_cases hc : tollCost q ≤ s.fld F.PWR_TOLL_LEVEL
        · rw [tollGrant_norm n hh hn hc]
          have hq : (s.paid (tollCost q)).keepsRefill ((s.paid (tollCost q)).withNorm qs) := keepsRefill_regs rfl
          exact keepsRefill_trans (keepsRefill_paid ..) (keepsRefill_trans hq (keepsRefill_trans (keepsRefill_tollBegin ..) (ih _)))
        · rw [State.tollGrant, hh, hn]
          dsimp only
          rw [if_neg hc]
          exact rfl

theorem keepsRefill_tollShow : s.keepsRefill s.tollShow := by
  obtain ⟨u, hu⟩ : ∃ u, u = s.showQueues := ⟨_, rfl⟩
  have hq : s.keepsRefill u := by
    rw [hu]
    exact keepsRefill_trans (fld_setFld_at (n := 1) (f := F.PWR_TOLL_QHIGH) (g := F.PWR_TOLL_REFILL_US) s _ Nat.one_pos (by decide))
      (fld_setFld_at (n := 1) (f := F.PWR_TOLL_QNORM) (g := F.PWR_TOLL_REFILL_US) _ _ Nat.one_pos (by decide))
  have hshow : s.tollShow = (List.range 34).foldl State.showWait u := by
    rw [hu]
    rfl
  rw [hshow]
  exact keepsRefill_trans hq (foldl_reads (fun t : State => t.fld F.PWR_TOLL_REFILL_US)
    (fun c _ t => keepsRefill_setFld (f := F.PWR_COL_TOLL_WAIT) t _ (colAddr_le c)) u)

theorem keepsRefill_tollRun : s.keepsRefill s.tollRun := keepsRefill_trans (keepsRefill_tollGrant ..) (keepsRefill_tollShow _)

theorem keepsRefill_tollAsk (qs : List TollFor) : s.keepsRefill (s.tollAsk false qs) := by
  have hq : s.keepsRefill (s.withNorm (s.tollNorm ++ qs)) := keepsRefill_regs rfl
  exact keepsRefill_trans hq (keepsRefill_tollRun _)

/-- A column's request to be on. -/
def State.askOn (s : State) (c : Nat) : State := s.setFld F.PWR_COL_REQ 0 c

theorem askColumns_leaves (cs : List Nat) : s.gateOnly (s.askColumns cs) ∧ s.keepsRefill (s.askColumns cs) := by
  unfold State.askColumns
  extract_lets l u
  have hu : u = l.foldl State.askOn s := rfl
  clear_value u
  have hg : s.gateOnly u := hu ▸
    foldl_rel (f := State.askOn) gateOnly_refl gateOnly_trans (fun t c => gateOnly_setFld (f := F.PWR_COL_REQ) t _ (gateAddr_col c)) l s
  have hr : s.keepsRefill u := hu ▸ foldl_reads (f := State.askOn) (fun t : State => t.fld F.PWR_TOLL_REFILL_US)
    (fun c _ t => keepsRefill_setFld (f := F.PWR_COL_REQ) t _ (colAddr_le c)) s
  exact ⟨gateOnly_trans hg (gateOnly_tollAsk ..), keepsRefill_trans hr (keepsRefill_tollAsk ..)⟩

end

/-! ## The probe -/

/-- The refill time of a probe, in microseconds: 1000 where none was measured. -/
def slewOf (trec : Option (Fin 1001)) : Nat :=
  match trec with
  | some r => max 10 ((5 * r.val + 15) / 16)
  | none => 1000

/-- What DEV_BOOT_SLEW shows of a probe. -/
def State.slewShown (s : State) (trec : Option (Fin 1001)) : State :=
  match trec with
  | some r => (s.setFld F.DEV_BOOT_SLEW_VALID 1).setFld F.DEV_BOOT_SLEW_T_REC_US r.val
  | none => s.setFld F.DEV_BOOT_SLEW_VALID 0

/-- The probe's refill time taken. -/
def State.slewTaken (s : State) (v : Nat) : State := { s with boot := { s.boot with slew := some v } }

theorem slewOf_le (trec : Option (Fin 1001)) : slewOf trec ≤ 1000 := by
  cases trec with
  | none => exact Nat.le_refl _
  | some r =>
    change max 10 ((5 * r.val + 15) / 16) ≤ 1000
    have := r.isLt
    omega

theorem slewShown_leaves (s : State) (trec : Option (Fin 1001)) : s.onlyRegs (s.slewShown trec) ∧
    (s.slewShown trec).flag F.DEV_BOOT_SLEW_VALID = trec.isSome ∧ ∀ r, trec = some r → (s.slewShown trec).fld F.DEV_BOOT_SLEW_T_REC_US = r := by
  cases trec with
  | none => exact ⟨onlyRegs_setFld .., flag_setFld_same s F.DEV_BOOT_SLEW_VALID 0 0 0 (by decide), nofun⟩
  | some r =>
    obtain ⟨u, hu⟩ : ∃ u, u = s.setFld F.DEV_BOOT_SLEW_VALID 1 := ⟨_, rfl⟩
    have hv : u.flag F.DEV_BOOT_SLEW_VALID = true := hu ▸ flag_setFld_same s F.DEV_BOOT_SLEW_VALID 1 0 0 (by decide)
    have hr : s.onlyRegs u := hu ▸ onlyRegs_setFld ..
    have hfit : r.val < 2 ^ 10 := Nat.lt_of_lt_of_le r.isLt (by decide)
    rw [State.slewShown, ← hu]
    refine ⟨onlyRegs_trans hr (onlyRegs_setFld ..), ?_, fun r' he => ?_⟩
    · exact (flag_setFld_other (f := F.DEV_BOOT_SLEW_T_REC_US) (g := F.DEV_BOOT_SLEW_VALID) u _ _ _ rfl (by decide) (by decide)).trans hv
    · rw [← Option.some.inj he]
      exact fld_setFld_eq u _ (by decide) hfit

theorem exec_slewProbeEnd {dt : Nat} {trec : Option (Fin 1001)} {s u : State} (hr : s.boot.restored = true) (hd : s.boot.d3 = false)
    (hs : s.boot.slew = none) (hu : u = ((s.tick dt).slewShown trec).slewTaken (slewOf trec)) : exec (.slewProbeEnd dt trec) s =
      .next ((u.setFld F.PWR_TOLL_REFILL_US (max (slewOf trec) (u.pol 0x0A))).askColumns ((List.range 34).drop 1)) := by
  have hg : (s.tick dt).boot.restored = true ∧ (!(s.tick dt).boot.d3) = true ∧ (s.tick dt).boot.slew.isNone = true :=
    ⟨hr, congrArg (!·) hd, Option.isNone_iff_eq_none.2 hs⟩
  rw [hu]
  cases trec <;> exact if_pos hg

/-- The policy's refill time, with the probe's in the place of none. -/
theorem pol_slewTaken (s : State) (v : Nat) : (s.slewTaken v).pol 0x0A = (mapGet none s.policy 0x0A).getD v := rfl

theorem pol_noSlew {s : State} (h : s.boot.slew = none) : s.pol 0x0A = (mapGet none s.policy 0x0A).getD 50 := by
  change (mapGet none s.policy 0x0A).getD (s.boot.slew.getD 50) = _
  rw [h]
  rfl

theorem slewProbeEnd_leaves {dt : Nat} {trec : Option (Fin 1001)} {s : State} (hr : s.boot.restored = true) (hd : s.boot.d3 = false)
    (hs : s.boot.slew = none) : ∃ t, exec (.slewProbeEnd dt trec) s = .next t ∧ t.boot.slew = some (slewOf trec) ∧
      t.flag F.DEV_BOOT_SLEW_VALID = trec.isSome ∧ (∀ r, trec = some r → t.fld F.DEV_BOOT_SLEW_T_REC_US = r) ∧
      (s.pol 0x0A ≤ 1000 → slewOf trec ≤ t.fld F.PWR_TOLL_REFILL_US) ∧
      (s.pol 0x0A ≤ slewOf trec → t.fld F.PWR_TOLL_REFILL_US = slewOf trec) ∧ t.out = s.out ∧ s.sameMemory t := by
  obtain ⟨w, hw⟩ : ∃ w, w = (s.tick dt).slewShown trec := ⟨_, rfl⟩
  obtain ⟨hwr, hwv, hwt⟩ := hw ▸ slewShown_leaves (s.tick dt) trec
  obtain ⟨u, hu⟩ : ∃ u, u = w.slewTaken (slewOf trec) := ⟨_, rfl⟩
  obtain ⟨x, hx⟩ : ∃ x, x = u.setFld F.PWR_TOLL_REFILL_US (max (slewOf trec) (u.pol 0x0A)) := ⟨_, rfl⟩
  obtain ⟨⟨hgate, hbelow⟩, hrefill⟩ := askColumns_leaves x ((List.range 34).drop 1)
  have hur : u.regs = w.regs := hu ▸ rfl
  have hpol : u.pol 0x0A = (mapGet none s.policy 0x0A).getD (slewOf trec) := by
    rw [hu, pol_slewTaken, onlyReplies_policy (onlyReplies_of_onlyRegs hwr)]
    rfl
  have hx0 : x.fld F.PWR_TOLL_REFILL_US = max (slewOf trec) (u.pol 0x0A) % 2 ^ 10 := hx ▸ fld_setFld_own u _ (by decide)
  have hle := slewOf_le trec
  have hxr : u.onlyRegs x := hx ▸ onlyRegs_setFld ..
  have hxk : u.keepsBelow x := hx ▸ keepsBelow_setFld u (f := F.PWR_TOLL_REFILL_US) _ gateAddr_toll
  have hboot (f : Fld) (hf : f.reg = .DEV_BOOT_SLEW) : (x.askColumns ((List.range 34).drop 1)).fld f = w.fld f :=
    (fld_keepsBelow (keepsBelow_trans hxk hbelow) (by rw [hf]; decide) (by rw [hf]; decide)).trans (State.fld_congr hur _ _ _)
  have hval : (s.pol 0x0A ≤ 1000 → max (slewOf trec) (u.pol 0x0A) ≤ 1000) ∧ (s.pol 0x0A ≤ slewOf trec → max (slewOf trec) (u.pol 0x0A) = slewOf trec) := by
    rw [hpol, pol_noSlew hs]
    cases mapGet none s.policy 0x0A with
    | none => exact ⟨fun _ => by simpa using hle, fun _ => Nat.max_self _⟩
    | some p => exact ⟨fun h => Nat.max_le.2 ⟨hle, h⟩, fun h => Nat.max_eq_left h⟩
  refine ⟨x.askColumns ((List.range 34).drop 1), ?_, ?_, ?_, fun r he => ?_, fun h => ?_, fun h => ?_, ?_, ?_⟩
  · rw [hx]
    exact exec_slewProbeEnd hr hd hs (hu.trans (by rw [hw]))
  · rw [hgate, hxr, hu]
    rfl
  · exact (flag_congr (hboot _ rfl)).trans hwv
  · exact (hboot _ rfl).trans (hwt r he)
  · rw [hrefill, hx0, Nat.mod_eq_of_lt (Nat.lt_of_le_of_lt (hval.1 h) (by decide))]
    exact Nat.le_max_left ..
  · rw [hrefill, hx0, hval.2 h, Nat.mod_eq_of_lt (Nat.lt_of_le_of_lt hle (by decide))]
  · rw [onlyGate_out hgate, onlyRegs_out hxr, hu]
    exact (onlyRegs_out hwr).trans rfl
  · have hwu : w.sameMemory u := hu ▸ sameMemory_of_stores rfl rfl
    exact sameMemory_trans (sameMemory_of_stores ((onlyRegs_depot hwr).trans rfl) ((onlyRegs_hbm hwr).trans rfl)) (sameMemory_trans hwu (sameMemory_trans (sameMemory_onlyRegs hxr) (onlyGate_sameMemory hgate)))

end Sys2Proof.Machine
end

section
/-! The pairs of the management controller, its board sense, its log, its floor and its debug scope (R481 to R488, R496, R501). -/
namespace Sys2Proof.Machine

/-! ## Pairs -/

/-- The state field of a pair. -/
def pairFld (p : Fin 2) : Fld := if p = 0 then F.MC_STAT_P0_STATE else F.MC_STAT_P1_STATE

section
variable (s : State) (p : Fin 2)

theorem pairSt_eq : s.pairSt p = s.fld (pairFld p) := by fin_cases p <;> rfl

theorem setPair_eq (v : Nat) : s.setPair p v = s.setFld (pairFld p) v := by fin_cases p <;> rfl

theorem other_val : ((1 - p : Fin 2) : Nat) = 1 - p.val := by fin_cases p <;> rfl

theorem pairFld_ne : pairFld (1 - p) ≠ pairFld p := by fin_cases p <;> decide

theorem pairFld_reg : (pairFld p).reg = .MC_STAT := by fin_cases p <;> rfl

/-- A pair's state set: it, and what the other fields of MC_STAT still hold. -/
theorem setPair_leaves (v : Nat) (hv : v < 4) : (s.setPair p v).fld (pairFld p) = v ∧
    (s.setPair p v).fld (pairFld (1 - p)) = s.fld (pairFld (1 - p)) ∧ (s.setPair p v).fld F.MC_STAT_ACTIVE = s.fld F.MC_STAT_ACTIVE ∧
    (s.setPair p v).fld F.MC_STAT_FAILOVERS = s.fld F.MC_STAT_FAILOVERS ∧
    s.keeps (s.setPair p v) [(.MC_STAT, 0, 0)] ∧ s.onlyRegs (s.setPair p v) := by
  have apart (g : Fld) (hc : (pairFld p).apart g 1 = true) : (s.setFld (pairFld p) v).fld g = s.fld g := fld_setFld_at s v Nat.one_pos hc
  have hown : (pairFld p).lo + (pairFld p).w ≤ 64 ∧ v < 2 ^ (pairFld p).w := by fin_cases p <;> exact ⟨by decide, hv⟩
  have hk := keeps_setFld s (pairFld p) (i := 0) (j := 0) v (by rw [pairFld_reg]; decide)
  rw [pairFld_reg] at hk
  rw [setPair_eq]
  refine ⟨fld_setFld_eq s v hown.1 hown.2, apart _ ?_, apart _ ?_, apart _ ?_, hk, onlyRegs_setFld ..⟩ <;> fin_cases p <;> decide

/-- What a fault makes of a pair: RETIRED at the second within 24 h (R482). -/
def State.failedSt : Nat :=
  match mapGet none s.pairFault p with
  | some f => if s.now < f + 86400000000000 then 3 else 2
  | none => 2

/-- A fault of a pair noted. -/
def State.faultNoted : State := { s with pairFault := mapSet none s.pairFault p (some s.now), pairTry := mapSet 0 s.pairTry p 0 }

theorem pairFail_eq : s.pairFail p = (s.faultNoted p).setPair p (s.failedSt p) := by
  unfold State.pairFail State.failedSt
  cases mapGet none s.pairFault p with
  | none => rfl
  | some f =>
    dsimp only
    by_cases h : s.now < f + 86400000000000
    · rw [if_pos h, decide_eq_true h]
      rfl
    · rw [if_neg h, decide_eq_false h]
      rfl

theorem failedSt_lt : s.failedSt p < 4 := by
  unfold State.failedSt
  split
  · split <;> decide
  · decide

end

/-- `t` differs from `s` in registers, the pairs' bookkeeping and the log alone. -/
def State.onlyPairs (s t : State) : Prop := 
  t = { s with regs := t.regs, pairFault := t.pairFault, pairTry := t.pairTry, log := t.log, logNext := t.logNext, logLost := t.logLost }

section
variable {s t u : State}

theorem onlyPairs_trans (h : s.onlyPairs t) (h' : t.onlyPairs u) : s.onlyPairs u := by
  rw [State.onlyPairs] at h h' ⊢
  rw [h', h]

theorem onlyPairs_onlyRegs (h : s.onlyRegs t) : s.onlyPairs t := by
  rw [State.onlyRegs] at h
  rw [State.onlyPairs, h]

section
variable (h : s.onlyPairs t)
include h
theorem State.onlyPairs.memory : s.sameMemory t := sameMemory_of_stores (by rw [h]) (by rw [h])
theorem State.onlyPairs.out : t.out = s.out := by rw [h]
theorem State.onlyPairs.switch : t.switch = s.switch := by rw [h]
theorem State.onlyPairs.mcRun : t.mcRun = s.mcRun := by rw [h]
theorem State.onlyPairs.quiet : t.csmQuiet = s.csmQuiet := csmQuiet_congr (by rw [h]) (by rw [h])
end
end

/-- A fault of pair `p`, as it stands in the log and in MC_STAT (R482). -/
def State.pairDown (s : State) (p : Fin 2) (cause : Nat) : State := (s.logE 0 0xE002 [p, cause, 0, 0]).pairFail p

section
variable (s : State) (p : Fin 2) (cause : Nat)

/-- What a fault of a pair leaves of MC_STAT and of the log. -/
structure State.pairLost (s t : State) (p : Fin 2) (cause : Nat) : Prop where
  failed : t.fld (pairFld p) = s.failedSt p
  other : t.fld (pairFld (1 - p)) = s.fld (pairFld (1 - p))
  active : t.fld F.MC_STAT_ACTIVE = s.fld F.MC_STAT_ACTIVE
  count : t.fld F.MC_STAT_FAILOVERS = s.fld F.MC_STAT_FAILOVERS
  logs : s.logs t 0 0xE002 [p, cause, 0, 0]
  keeps : s.keeps t [(.MC_STAT, 0, 0)]
  frame : s.onlyPairs t

theorem pairDown_leaves : s.pairLost (s.pairDown p cause) p cause := by
  obtain ⟨a, ha⟩ : ∃ a, a = s.logE 0 0xE002 [p, cause, 0, 0] := ⟨_, rfl⟩
  have hlog : s.logs a 0 0xE002 [p, cause, 0, 0] := ha ▸ logs_logE ..
  have hregs : a.regs = s.regs := ha ▸ State.logE_regs ..
  have hfr : s.onlyPairs a := ha ▸ rfl
  have hst : a.failedSt p = s.failedSt p := ha ▸ rfl
  obtain ⟨b, hb⟩ : ∃ b, b = a.faultNoted p := ⟨_, rfl⟩
  have hbregs : b.regs = s.regs := (hb ▸ rfl : b.regs = a.regs).trans hregs
  have hbfr : a.onlyPairs b := hb ▸ rfl
  have hblog : b.log = a.log ∧ b.logNext = a.logNext := hb ▸ ⟨rfl, rfl⟩
  obtain ⟨hown, hoth, hact, hcnt, hk, hr⟩ := setPair_leaves b p (s.failedSt p) (failedSt_lt s p)
  have h : s.pairDown p cause = b.setPair p (s.failedSt p) := by
    rw [State.pairDown, ← ha, pairFail_eq, ← hb, hst]
  have heq (f : Fld) : b.fld f = s.fld f := State.fld_congr hbregs _ _ _
  rw [h]
  refine ⟨hown, hoth.trans (heq _), hact.trans (heq _), hcnt.trans (heq _), ?_, keeps_trans (keeps_of_regs [] hbregs) hk,
    onlyPairs_trans hfr (onlyPairs_trans hbfr (onlyPairs_onlyRegs hr))⟩
  obtain ⟨e, h1, h2, h3, h4, h5, h6, h7, h8⟩ := hlog
  exact ⟨e, h1, h2, h3, h4, h5, h6, by rw [hr]; exact hblog.1.trans h7, by rw [hr]; exact hblog.2.trans h8⟩

end

/-- The other pair taken in the failed one's place. -/
def State.pairTaken (s : State) (q : Fin 2) : State :=
  (((s.setPair q 0).setFld F.MC_STAT_ACTIVE q).setFld F.MC_STAT_SWITCHING 0).inc F.MC_STAT_FAILOVERS

theorem pairTaken_leaves (s : State) (q : Fin 2) : (s.pairTaken q).fld F.MC_STAT_ACTIVE = q ∧ (s.pairTaken q).fld (pairFld q) = 0 ∧
    (s.pairTaken q).fld (pairFld (1 - q)) = s.fld (pairFld (1 - q)) ∧ (s.pairTaken q).flag F.MC_STAT_SWITCHING = false ∧
    (s.pairTaken q).fld F.MC_STAT_FAILOVERS = min (s.fld F.MC_STAT_FAILOVERS + 1) 65535 ∧ s.keeps (s.pairTaken q) [(.MC_STAT, 0, 0)] ∧
    s.onlyRegs (s.pairTaken q) := by
  obtain ⟨a, ha⟩ : ∃ a, a = s.setPair q 0 := ⟨_, rfl⟩
  obtain ⟨hown, hoth, -, hcnt, hk, hr⟩ := ha ▸ setPair_leaves s q 0 (by decide)
  obtain ⟨b, hb⟩ : ∃ b, b = a.setFld F.MC_STAT_ACTIVE q := ⟨_, rfl⟩
  obtain ⟨c, hc⟩ : ∃ c, c = b.setFld F.MC_STAT_SWITCHING 0 := ⟨_, rfl⟩
  have hbk : s.keeps b [(.MC_STAT, 0, 0)] := hb ▸ keeps_setFld_of_keeps (f := F.MC_STAT_ACTIVE) s _ hk (by decide) List.mem_cons_self
  have hck : s.keeps c [(.MC_STAT, 0, 0)] := hc ▸ keeps_setFld_of_keeps (f := F.MC_STAT_SWITCHING) s _ hbk (by decide) List.mem_cons_self
  have hact : b.fld F.MC_STAT_ACTIVE = q := hb ▸ fld_setFld_eq a _ (by decide) q.isLt
  have hsw : c.flag F.MC_STAT_SWITCHING = false := hc ▸ flag_setFld_same b F.MC_STAT_SWITCHING 0 0 0 (by decide)
  have hbc (g : Fld) (h : F.MC_STAT_ACTIVE.apart g 1 = true) : b.fld g = a.fld g := hb ▸ fld_setFld_at a _ Nat.one_pos h
  have hcc (g : Fld) (h : F.MC_STAT_SWITCHING.apart g 1 = true) : c.fld g = b.fld g := hc ▸ fld_setFld_at b _ Nat.one_pos h
  have hdc (g : Fld) (h : F.MC_STAT_FAILOVERS.apart g 1 = true) : (c.inc F.MC_STAT_FAILOVERS).fld g = c.fld g := fld_inc_at c Nat.one_pos h
  have hpair (x : Fin 2) : (c.inc F.MC_STAT_FAILOVERS).fld (pairFld x) = a.fld (pairFld x) := by
    rw [hdc _ (by fin_cases x <;> decide), hcc _ (by fin_cases x <;> decide), hbc _ (by fin_cases x <;> decide)]
  have hbr : a.onlyRegs b := hb ▸ onlyRegs_setFld ..
  have hcr : b.onlyRegs c := hc ▸ onlyRegs_setFld ..
  have heq : s.pairTaken q = c.inc F.MC_STAT_FAILOVERS := by rw [hc, hb, ha]; rfl
  rw [heq]
  refine ⟨?_, (hpair q).trans hown, (hpair (1 - q)).trans hoth, ?_, ?_, ?_, ?_⟩
  · rw [hdc _ (by decide), hcc _ (by decide), hact]
  · exact (flag_congr (hdc _ (by decide))).trans hsw
  · rw [State.fld_inc_same _ _ _ _ (by decide), hcc _ (by decide), hbc _ (by decide), hcnt]
    rfl
  · exact keeps_setFld_of_keeps (f := F.MC_STAT_FAILOVERS) s _ hck (by decide) List.mem_cons_self
  · exact onlyRegs_trans hr (onlyRegs_trans hbr (onlyRegs_trans hcr (onlyRegs_inc ..)))

/-- A transaction in PREPARE aborted by a failover. -/
def State.prepareDropped (s : State) (x : Nat) : State := if s.txState x = 2 then s.txEnd x 0x0303 else s

theorem failover_eq (s : State) (q : Nat) : s.failover q =
    (List.range 64).foldl State.prepareDropped
      ((((s.takeImage.setPair q 0).setFld F.MC_STAT_ACTIVE q).setFld F.MC_STAT_SWITCHING 0).inc F.MC_STAT_FAILOVERS).dropM := rfl

theorem takeImage_none {s : State} (h : s.switch = none) : s.takeImage = s := by
  unfold State.takeImage
  split
  next w hw => exact absurd (h.symm.trans hw) nofun
  next => rfl

theorem dropM_none {s : State} (h : s.mcRun = []) : s.dropM = s := by
  rw [State.dropM, h, List.foldl_nil]

theorem foldl_prepareDropped {s : State} {l : List Nat} (h : ∀ x ∈ l, s.txState x ≠ 2) : l.foldl State.prepareDropped s = s := by
  induction l with
  | nil => rfl
  | cons x l ih =>
    obtain ⟨hx, hl⟩ := List.forall_mem_cons.1 h
    rw [List.foldl_cons, State.prepareDropped, if_neg hx, ih hl]

/-- A failover with no transaction in PREPARE, no switch in progress and no command of the MC under way: the pair is taken. -/
theorem failover_plain {s : State} (q : Fin 2) (hw : s.switch = none) (hm : s.mcRun = []) (ht : ∀ x < 64, s.txState x ≠ 2) :
    s.failover q = s.pairTaken q := by
  obtain ⟨-, -, -, -, -, hk, hr⟩ := pairTaken_leaves s q
  have hrun : (s.pairTaken q).mcRun = [] := Eq.trans (by rw [hr]) hm
  have htx (x : Nat) (hx : x ∈ List.range 64) : (s.pairTaken q).txState x ≠ 2 := by
    have h64 := List.mem_range.1 hx
    rw [State.txState, fld_of_keeps hk (f := F.WAY_TX_STAT_STATE) ⟨h64, Nat.one_pos⟩ (by simp)]
    exact ht x h64
  rw [failover_eq, takeImage_none hw, ← State.pairTaken, dropM_none hrun, foldl_prepareDropped htx]

section
variable {s : State} {dt : Nat} {p : Fin 2} {cause : Fin 4} (hd : s.domOn 1 = true) (hw : s.switch = none)
include hd hw

/-- The fault of the ACTIVE pair, with the other pair STANDBY (R482). -/
theorem pairFault_active (hq : s.csmQuiet = true) (hm : s.mcRun = []) (ht : ∀ x < 64, s.txState x ≠ 2) (hs : s.fld F.DEV_START_STAGE ≠ 2)
    (ha : s.fld F.MC_STAT_ACTIVE = p)
    (hp : s.fld (pairFld p) = 0) (ho : s.fld (pairFld (1 - p)) = 1) :
    exec (.pairFault dt p cause) s = .next (((s.tick dt).pairDown p (cause.val + 1)).pairTaken (1 - p)) := by
  change execPairFault dt p cause s = _
  unfold execPairFault
  obtain ⟨a, hae⟩ : ∃ a, a = s.tick dt := ⟨_, rfl⟩
  obtain ⟨b, hb⟩ : ∃ b, b = a.logE 0 0xE002 [p.val, cause.val + 1, 0, 0] := ⟨_, rfl⟩
  have hbregs : b.regs = s.regs := (hb ▸ State.logE_regs .. : b.regs = a.regs).trans (hae ▸ rfl)
  have hbf (f : Fld) : b.fld f = s.fld f := State.fld_congr hbregs _ _ _
  have hst : a.pairSt p = 0 := (pairSt_eq a p).trans ((hae ▸ rfl : a.fld (pairFld p) = s.fld (pairFld p)).trans hp)
  have hbo : decide (b.pairSt (1 - p.val) = 1) = true := decide_eq_true (other_val p ▸ (pairSt_eq b (1 - p)).trans ((hbf _).trans ho))
  have hg : ¬ ((!a.domOn 1) = true ∨ a.pairSt p = 3) := by
    rintro (h | h)
    · rw [show a.domOn 1 = true from hae ▸ hd] at h
      exact absurd h (by decide)
    · exact absurd (hst.symm.trans h) (by decide)
  have hact : b.fld F.MC_STAT_ACTIVE = p ∧ b.pairSt p = 0 := ⟨(hbf _).trans ha, (pairSt_eq b p).trans ((hbf _).trans hp)⟩
  have hstage : ¬ (b.fld F.DEV_START_STAGE = 2 ∧ p.val = 0 ∧ b.pairSt 1 ≠ 3) := fun h => hs ((hbf _).symm.trans h.1)
  obtain ⟨c, hc⟩ : ∃ c, c = a.pairDown p (cause.val + 1) := ⟨_, rfl⟩
  have hcb : b.pairFail p = c := by rw [hc, hb, State.pairDown]
  have hl : a.pairLost c p (cause.val + 1) := hc ▸ pairDown_leaves ..
  have htx (x : Nat) (hx : x < 64) : c.txState x ≠ 2 := by
    rw [State.txState, fld_of_keeps hl.keeps (f := F.WAY_TX_STAT_STATE) ⟨hx, Nat.one_pos⟩ (by simp), hae]
    exact ht x hx
  have hplain : c.failover (1 - p : Fin 2) = c.pairTaken (1 - p) :=
    failover_plain _ (hl.frame.switch.trans (hae ▸ hw)) (hl.frame.mcRun.trans (hae ▸ hm)) htx
  obtain ⟨-, -, -, -, -, -, hr⟩ := pairTaken_leaves c (1 - p)
  have hquiet : (c.pairTaken (1 - p)).csmQuiet = true :=
    (onlyPairs_onlyRegs hr).quiet.trans (hl.frame.quiet.trans (hae ▸ hq))
  dsimp only
  rw [← hae, if_neg hg, ← hb, if_pos hact, if_neg hstage, if_pos hbo, hcb, ← other_val, hplain, settle_quiet _ hquiet, hc]

/-- The fault of the STANDBY pair, with no switch in progress. -/
theorem pairFault_standby (hp : s.fld (pairFld p) = 1) :
    exec (.pairFault dt p cause) s = .next ((s.tick dt).pairDown p (cause.val + 1)) := by
  change execPairFault dt p cause s = _
  unfold execPairFault
  obtain ⟨a, hae⟩ : ∃ a, a = s.tick dt := ⟨_, rfl⟩
  obtain ⟨b, hb⟩ : ∃ b, b = a.logE 0 0xE002 [p.val, cause.val + 1, 0, 0] := ⟨_, rfl⟩
  have hbregs : b.regs = s.regs := (hb ▸ State.logE_regs .. : b.regs = a.regs).trans (hae ▸ rfl)
  have hst : a.pairSt p = 1 := (pairSt_eq a p).trans ((hae ▸ rfl : a.fld (pairFld p) = s.fld (pairFld p)).trans hp)
  have hbst : b.pairSt p = 1 := (pairSt_eq b p).trans ((State.fld_congr hbregs _ _ _).trans hp)
  have hg : ¬ ((!a.domOn 1) = true ∨ a.pairSt p = 3) := by
    rintro (h | h)
    · rw [show a.domOn 1 = true from hae ▸ hd] at h
      exact absurd h (by decide)
    · exact absurd (hst.symm.trans h) (by decide)
  have hact : ¬ (b.fld F.MC_STAT_ACTIVE = p ∧ b.pairSt p = 0) := fun h => absurd (hbst.symm.trans h.2) (by decide)
  have hsw : ¬ (b.pairSt p = 1 ∧ (b.switch.any fun w => !w.swapped) = true) := by
    rw [show b.switch = none from (hb ▸ rfl : b.switch = a.switch).trans (hae ▸ hw)]
    exact fun h => absurd h.2 (by decide)
  have hdown : b.pairFail p = a.pairDown p (cause.val + 1) := by rw [hb, State.pairDown]
  dsimp only
  rw [← hae, if_neg hg, ← hb, if_neg hact, if_neg hsw, hdown]

end

/-! ## Restoration -/

section
variable {s : State} {dt : Nat} {p : Fin 2} (hd : s.domOn 1 = true) (hp : s.fld (pairFld p) = 2) (hw : s.switch = none)
include hd hp hw

/-- A pair that passes its restoration. -/
def State.pairBack (s : State) (p : Nat) : State :=
  ({ s.setPair p 1 with pairTry := mapSet 0 s.pairTry p 0 } : State).setFld F.DEV_START_PAIR1_DOWN 0

theorem pairRestore_passes : exec (.pairRestore dt p 0) s = .next ((s.tick dt).pairBack p) := by
  have hg : (s.tick dt).pairSt p = 2 ∧ (s.tick dt).domOn 1 = true := ⟨(pairSt_eq s p).trans hp, hd⟩
  obtain ⟨u, hu⟩ : ∃ u, u = (s.tick dt).pairBack p := ⟨_, rfl⟩
  have hsw : u.switch = none := hu ▸ hw
  have hend : u.switchEnd.switchSwap = u := by
    rw [show u.switchEnd = u from ?_]
    · unfold State.switchSwap
      split
      next w hw' => exact absurd (hsw.symm.trans hw') nofun
      next => rfl
    · unfold State.switchEnd
      split
      next w hw' => exact absurd (hsw.symm.trans hw') nofun
      next => rfl
  rw [← hu, ← hend, hu]
  exact (if_pos hg).trans (if_pos rfl)

theorem pairRestore_fails : exec (.pairRestore dt p 1) s = .next (((s.tick dt).setPair p 3).setFld F.DEV_START_PAIR1_DOWN 1) := by
  have hg : (s.tick dt).pairSt p = 2 ∧ (s.tick dt).domOn 1 = true := ⟨(pairSt_eq s p).trans hp, hd⟩
  change execPairRestore dt p 1 s = _
  unfold execPairRestore
  dsimp only
  rw [if_pos hg, if_neg (by decide), if_neg (fun h => absurd h.1 (by decide))]
  split
  next w hw' => exact absurd (hw.symm.trans hw') nofun
  next => rfl

end

end Sys2Proof.Machine
end

section
/-! Board sense, the log's mirror, the floor and the debug scope (R486 to R488, R496, R501). -/
namespace Sys2Proof.Machine

/-- What a fault of the ACTIVE pair leaves (R482). -/
theorem pairSwapped_leaves (s : State) (p : Fin 2) (cause : Nat) : let t := (s.pairDown p cause).pairTaken (1 - p)
    t.fld F.MC_STAT_ACTIVE = (1 - p : Fin 2) ∧ t.fld (pairFld (1 - p)) = 0 ∧ t.fld (pairFld p) = s.failedSt p ∧ t.flag F.MC_STAT_SWITCHING = false ∧
    t.fld F.MC_STAT_FAILOVERS = min (s.fld F.MC_STAT_FAILOVERS + 1) 65535 ∧ s.logs t 0 0xE002 [p, cause, 0, 0] ∧ t.out = s.out ∧
    s.keeps t [(.MC_STAT, 0, 0)] ∧ s.sameMemory t := by
  obtain ⟨u, hu⟩ : ∃ u, u = s.pairDown p cause := ⟨_, rfl⟩
  have hl : s.pairLost u p cause := hu ▸ pairDown_leaves ..
  obtain ⟨hact, hown, hoth, hsw, hcnt, hk, hr⟩ := pairTaken_leaves u (1 - p)
  have hpp : 1 - (1 - p) = p := by fin_cases p <;> rfl
  obtain ⟨e, h1, h2, h3, h4, h5, h6, h7, h8⟩ := hl.logs
  rw [hpp] at hoth
  rw [← hu]
  refine ⟨hact, hown, hoth.trans hl.failed, hsw, hcnt.trans (by rw [hl.count]), ⟨e, h1, h2, h3, h4, h5, h6, by rw [hr]; exact h7, by rw [hr]; exact h8⟩,
    (onlyRegs_out hr).trans hl.frame.out, keeps_mono (keeps_trans hl.keeps hk) fun x hx => ?_, sameMemory_trans hl.frame.memory (sameMemory_onlyRegs hr)⟩
  simpa using hx

theorem pairBack_leaves (s : State) (p : Fin 2) : (s.pairBack p).fld (pairFld p) = 1 ∧ (s.pairBack p).fld (pairFld (1 - p)) = s.fld (pairFld (1 - p)) ∧
    (s.pairBack p).flag F.DEV_START_PAIR1_DOWN = false ∧ s.keeps (s.pairBack p) [(.MC_STAT, 0, 0), (.DEV_START, 0, 0)] ∧
    s.pairBack p = { s with regs := (s.pairBack p).regs, pairTry := (s.pairBack p).pairTry } := by
  obtain ⟨a, ha⟩ : ∃ a, a = s.setPair p 1 := ⟨_, rfl⟩
  obtain ⟨hown, hoth, -, -, hk, hr⟩ := ha ▸ setPair_leaves s p 1 (by decide)
  obtain ⟨b, hb⟩ : ∃ b, b = { a with pairTry := mapSet 0 a.pairTry p 0 } := ⟨_, rfl⟩
  have hbr : b.regs = a.regs := hb ▸ rfl
  have hbf (f : Fld) : b.fld f = a.fld f := State.fld_congr hbr _ _ _
  have hfar (x : Fin 2) : (b.setFld F.DEV_START_PAIR1_DOWN 0).fld (pairFld x) = b.fld (pairFld x) :=
    fld_setFld_foreign (n := 1) (m := 1) b _ Nat.one_pos Nat.one_pos (by fin_cases x <;> decide)
  have hkb : s.keeps b [(.MC_STAT, 0, 0), (.DEV_START, 0, 0)] :=
    keeps_congr hbr (keeps_mono hk fun x hx => List.mem_cons.2 (.inl (List.mem_singleton.1 hx)))
  have heq : s.pairBack p = b.setFld F.DEV_START_PAIR1_DOWN 0 := by rw [hb, ha]; rfl
  have hset : b.onlyRegs (b.setFld F.DEV_START_PAIR1_DOWN 0) := onlyRegs_setFld ..
  rw [heq]
  refine ⟨(hfar p).trans ((hbf _).trans hown), (hfar (1 - p)).trans ((hbf _).trans hoth), flag_setFld_same b F.DEV_START_PAIR1_DOWN 0 0 0 (by decide),
    keeps_setFld_of_keeps (f := F.DEV_START_PAIR1_DOWN) s _ hkb (by decide) (by simp), ?_⟩
  generalize b.setFld F.DEV_START_PAIR1_DOWN 0 = t at hset
  rw [hset, hb, hr]

theorem pairGone_leaves (s : State) (p : Fin 2) : let t := (s.setPair p 3).setFld F.DEV_START_PAIR1_DOWN 1
    t.fld (pairFld p) = 3 ∧ t.flag F.DEV_START_PAIR1_DOWN = true ∧ s.keeps t [(.MC_STAT, 0, 0), (.DEV_START, 0, 0)] ∧ s.onlyRegs t := by
  obtain ⟨a, ha⟩ : ∃ a, a = s.setPair p 3 := ⟨_, rfl⟩
  obtain ⟨hown, -, -, -, hk, hr⟩ := ha ▸ setPair_leaves s p 3 (by decide)
  have hka : s.keeps a [(.MC_STAT, 0, 0), (.DEV_START, 0, 0)] := keeps_mono hk fun x hx => List.mem_cons.2 (.inl (List.mem_singleton.1 hx))
  rw [← ha]
  exact ⟨(fld_setFld_foreign (n := 1) (m := 1) a _ Nat.one_pos Nat.one_pos (by fin_cases p <;> decide)).trans hown,
    flag_setFld_same a F.DEV_START_PAIR1_DOWN 1 0 0 (by decide),
    keeps_setFld_of_keeps (f := F.DEV_START_PAIR1_DOWN) s _ hka (by decide) (by simp), onlyRegs_trans hr (onlyRegs_setFld ..)⟩

section
variable {s : State} {dt : Nat}

theorem standbyCheck_fails {p : Fin 2} (ha : s.fld F.MC_STAT_ACTIVE = p) (hp : s.fld (pairFld (1 - p)) = 1) :
    exec (.standbyCheck dt false) s = .next ((s.tick dt).tell (.note 5 (1 - p : Fin 2))) := by
  have hq : 1 - (s.tick dt).fld F.MC_STAT_ACTIVE = (1 - p : Fin 2) := by
    rw [other_val, show (s.tick dt).fld F.MC_STAT_ACTIVE = p from ha]
  have hst : (s.tick dt).pairSt (1 - p : Fin 2) = 1 := (pairSt_eq s (1 - p)).trans hp
  change execStandbyCheck dt false s = _
  unfold execStandbyCheck
  dsimp only
  rw [hq]
  exact if_pos ⟨hst, rfl⟩

theorem standbyCheck_passes : exec (.standbyCheck dt true) s = .next (s.tick dt) := if_neg fun h => absurd h.2 (by decide)

/-! ## Board sense -/

/-- What MC_BSENSE shows of a measurement of `mv` and `ma` (R486). -/
def State.senseShown (s : State) (n : Fin 8) (mv ma : Nat) : State :=
  ((s.setFld F.MC_BSENSE_VALID 1 n).setFld F.MC_BSENSE_MV mv n).setFld F.MC_BSENSE_MA (min ma 0xFFFF) n

/-- The fields of a shown measurement, the frame of MC_BSENSE. -/
structure State.sensed (s t : State) (n : Fin 8) (mv ma : Nat) : Prop where
  valid : t.flag F.MC_BSENSE_VALID n = true
  mv : t.fld F.MC_BSENSE_MV n = mv
  ma : t.fld F.MC_BSENSE_MA n = min ma 65535
  out : t.out = s.out
  keeps : s.keeps t [(.MC_BSENSE, n.val, 0)]

theorem senseShown_leaves (s : State) (n : Fin 8) {mv ma : Nat} (hmv : mv < 4096) : s.sensed (s.senseShown n mv ma) n mv ma ∧
    (s.senseShown n mv ma).flag F.MC_BSENSE_OVER n = s.flag F.MC_BSENSE_OVER n ∧ s.onlyRegs (s.senseShown n mv ma) := by
  obtain ⟨a, ha⟩ : ∃ a, a = s.setFld F.MC_BSENSE_VALID 1 n := ⟨_, rfl⟩
  obtain ⟨b, hb⟩ : ∃ b, b = a.setFld F.MC_BSENSE_MV mv n := ⟨_, rfl⟩
  obtain ⟨c, hc⟩ : ∃ c, c = b.setFld F.MC_BSENSE_MA (min ma 0xFFFF) n := ⟨_, rfl⟩
  have hi : n.val < 8 := n.isLt
  have hreg : regHas .MC_BSENSE n 0 := ⟨hi, Nat.one_pos⟩
  have hma : min ma 0xFFFF < 2 ^ 16 := Nat.lt_of_le_of_lt (Nat.min_le_right ..) (by decide)
  have hva : a.flag F.MC_BSENSE_VALID n = true := ha ▸ flag_setFld_same s F.MC_BSENSE_VALID 1 n 0 (by decide)
  have hmvb : b.fld F.MC_BSENSE_MV n = mv := hb ▸ fld_setFld_eq a _ (by decide) hmv
  have hac : a.fld F.MC_BSENSE_OVER n = s.fld F.MC_BSENSE_OVER n := ha ▸ fld_setFld_at s _ hi (by decide)
  have hbc (g : Fld) (h : F.MC_BSENSE_MV.apart g 8 = true) : b.fld g n = a.fld g n := hb ▸ fld_setFld_at a _ hi h
  have hcc (g : Fld) (h : F.MC_BSENSE_MA.apart g 8 = true) : c.fld g n = b.fld g n := hc ▸ fld_setFld_at b _ hi h
  have hka : s.keeps a [(.MC_BSENSE, n.val, 0)] := ha ▸ keeps_setFld s F.MC_BSENSE_VALID 1 hreg
  have hkb : s.keeps b [(.MC_BSENSE, n.val, 0)] := hb ▸ keeps_setFld_of_keeps (f := F.MC_BSENSE_MV) s _ hka hreg List.mem_cons_self
  have hkc : s.keeps c [(.MC_BSENSE, n.val, 0)] := hc ▸ keeps_setFld_of_keeps (f := F.MC_BSENSE_MA) s _ hkb hreg List.mem_cons_self
  have hr : s.onlyRegs c := hc ▸ hb ▸ ha ▸ onlyRegs_then_setFld (onlyRegs_setFld_setFld ..) ..
  rw [State.senseShown, ← ha, ← hb, ← hc]
  refine ⟨⟨?_, (hcc _ (by decide)).trans hmvb, hc ▸ fld_setFld_eq b _ (by decide) hma, onlyRegs_out hr, hkc⟩, flag_congr ?_, hr⟩
  · exact (flag_congr ((hcc _ (by decide)).trans (hbc _ (by decide)))).trans hva
  · rw [hcc _ (by decide), hbc _ (by decide), hac]

/-- The count of samples in a row above the limit. -/
def State.overCounted (s : State) (n : Fin 8) (k : Nat) : State := { s with bsOver := mapSet 0 s.bsOver n k }

/-- The limit reported. -/
def State.overShown (s : State) (n : Fin 8) (ma : Nat) : State := (s.setFld F.MC_BSENSE_OVER 1 n).logE 1 0xE006 [n, ma, 0, 0]

theorem overShown_leaves (s : State) (n : Fin 8) (ma : Nat) : (s.overShown n ma).flag F.MC_BSENSE_OVER n = true ∧
    s.logs (s.overShown n ma) 1 0xE006 [n, ma, 0, 0] ∧ (s.overShown n ma).bsOver = s.bsOver ∧ (s.overShown n ma).out = s.out ∧
    s.keeps (s.overShown n ma) [(.MC_BSENSE, n.val, 0)] ∧
    ∀ g : Fld, F.MC_BSENSE_OVER.apart g 8 = true → (s.overShown n ma).fld g n = s.fld g n := by
  obtain ⟨a, ha⟩ : ∃ a, a = s.setFld F.MC_BSENSE_OVER 1 n := ⟨_, rfl⟩
  have hfl : a.flag F.MC_BSENSE_OVER n = true := ha ▸ flag_setFld_same s F.MC_BSENSE_OVER 1 n 0 (by decide)
  have hr : s.onlyRegs a := ha ▸ onlyRegs_setFld ..
  have hk : s.keeps a [(.MC_BSENSE, n.val, 0)] := ha ▸ keeps_setFld s F.MC_BSENSE_OVER 1 ⟨n.isLt, Nat.one_pos⟩
  have hap (g : Fld) (h : F.MC_BSENSE_OVER.apart g 8 = true) : a.fld g n = s.fld g n := ha ▸ fld_setFld_at s _ n.isLt h
  have hregs : (a.logE 1 0xE006 [n, ma, 0, 0]).regs = a.regs := State.logE_regs ..
  rw [State.overShown, ← ha]
  refine ⟨(flag_congr (State.fld_congr hregs _ _ _)).trans hfl, logs_after (logs_logE ..) (by rw [hr]) (by rw [hr]), ?_, ?_, keeps_congr hregs hk,
    fun g h => (State.fld_congr hregs _ _ _).trans (hap g h)⟩
  · rw [State.logE_bsOver, hr]
  · rw [State.logE_out, hr]

end

end Sys2Proof.Machine
end

section
/-! What board sense shows (R486), the mirror of the log (R487, R488), the firmware floor (R496) and the debug scope (R501). -/
namespace Sys2Proof.Machine

section
variable {s : State} {dt : Nat}

/-! ## Board sense -/

/-- The millivolts of a board sense sample. -/
def State.senseMv (s : State) (n : Fin 8) (raw : Nat) : Nat := (max 0 (min 1200 ((raw : Int) + s.calApplied (calKey 5 (1137 + n))))).toNat

/-- The milliamperes of a board sense sample. -/
def State.senseMa (s : State) (n : Fin 8) (raw : Nat) : Nat := s.senseMv n raw * s.pol (0x20 + n) / 1000

/-- A sample as MC_BSENSE shows it. -/
def State.sampled (s : State) (n : Fin 8) (raw : Nat) : State := s.senseShown n (s.senseMv n raw) (s.senseMa n raw)

theorem senseMv_lt (s : State) (n : Fin 8) (raw : Nat) : s.senseMv n raw < 4096 := by
  unfold State.senseMv
  omega

theorem sampled_leaves (s : State) (n : Fin 8) (raw : Nat) : s.sensed (s.sampled n raw) n (s.senseMv n raw) (s.senseMa n raw) ∧
    (s.sampled n raw).flag F.MC_BSENSE_OVER n = s.flag F.MC_BSENSE_OVER n ∧ s.onlyRegs (s.sampled n raw) := senseShown_leaves s n (senseMv_lt s n raw)

theorem bsOver_overCounted (s : State) (n : Fin 8) (k : Nat) : mapGet 0 (s.overCounted n k).bsOver n = k := mapGet_mapSet_same ..

theorem exec_bsenseAverage {n : Fin 8} {raw : Nat} {u : State} (hu : u = (s.tick dt).sampled n raw) : exec (.bsenseAverage dt n raw) s =
    if s.pol (0x28 + n) ≠ 0 ∧ s.pol (0x28 + n) < s.senseMa n raw then
      if mapGet 0 u.bsOver n + 1 = 10 then .next ((u.overCounted n (mapGet 0 u.bsOver n + 1)).overShown n (s.senseMa n raw))
      else .next (u.overCounted n (mapGet 0 u.bsOver n + 1))
    else .next (u.overCounted n 0) := by
  rw [hu]
  rfl

theorem bsense_within {n : Fin 8} {raw : Nat} (h : s.pol (0x28 + n) = 0 ∨ s.senseMa n raw ≤ s.pol (0x28 + n)) :
    ∃ t, exec (.bsenseAverage dt n raw) s = .next t ∧ s.sensed t n (s.senseMv n raw) (s.senseMa n raw) ∧
      t.flag F.MC_BSENSE_OVER n = s.flag F.MC_BSENSE_OVER n ∧ mapGet 0 t.bsOver n = 0 ∧
      t = { s.tick dt with regs := t.regs, bsOver := t.bsOver } := by
  obtain ⟨u, hu⟩ : ∃ u, u = (s.tick dt).sampled n raw := ⟨_, rfl⟩
  obtain ⟨hs, hover, hr⟩ := hu ▸ sampled_leaves (s.tick dt) n raw
  have hn : ¬ (s.pol (0x28 + n) ≠ 0 ∧ s.pol (0x28 + n) < s.senseMa n raw) := by omega
  refine ⟨_, (exec_bsenseAverage hu).trans (if_neg hn), ⟨hs.valid, hs.mv, hs.ma, hs.out, hs.keeps⟩, hover, bsOver_overCounted .., ?_⟩
  rw [State.overCounted, hr]

section
variable {n : Fin 8} {raw : Nat} (h0 : s.pol (0x28 + n) ≠ 0) (hl : s.pol (0x28 + n) < s.senseMa n raw)
include h0 hl

theorem bsense_tenth (hk : mapGet 0 s.bsOver n + 1 = 10) :
    ∃ t, exec (.bsenseAverage dt n raw) s = .next t ∧ s.sensed t n (s.senseMv n raw) (s.senseMa n raw) ∧ t.flag F.MC_BSENSE_OVER n = true ∧
      mapGet 0 t.bsOver n = 10 ∧ s.logs t 1 0xE006 [n, s.senseMa n raw, 0, 0] := by
  obtain ⟨u, hu⟩ : ∃ u, u = (s.tick dt).sampled n raw := ⟨_, rfl⟩
  obtain ⟨hs, -, hr⟩ := hu ▸ sampled_leaves (s.tick dt) n raw
  have hb : mapGet 0 u.bsOver n + 1 = 10 := Eq.trans (by rw [hr]; rfl) hk
  obtain ⟨v, hv⟩ : ∃ v, v = u.overCounted n (mapGet 0 u.bsOver n + 1) := ⟨_, rfl⟩
  obtain ⟨hfl, hlog, hbs, hout, hkeep, hap⟩ := overShown_leaves v n (s.senseMa n raw)
  have hvf (g : Fld) : v.fld g n = u.fld g n := State.fld_congr (hv ▸ rfl) _ _ _
  have hx : exec (.bsenseAverage dt n raw) s = .next (v.overShown n (s.senseMa n raw)) := by
    rw [hv]
    exact (exec_bsenseAverage hu).trans ((if_pos ⟨h0, hl⟩).trans (if_pos hb))
  refine ⟨_, hx, ⟨?_, ?_, ?_, ?_, ?_⟩, hfl, ?_, logs_after hlog (by rw [hv, State.overCounted, hr]; rfl) (by rw [hv, State.overCounted, hr]; rfl)⟩
  · exact (flag_congr ((hap _ (by decide)).trans (hvf _))).trans hs.valid
  · exact ((hap _ (by decide)).trans (hvf _)).trans hs.mv
  · exact ((hap _ (by decide)).trans (hvf _)).trans hs.ma
  · exact (hout.trans (hv ▸ rfl)).trans hs.out
  · have hkv : s.keeps v [(.MC_BSENSE, n.val, 0)] := keeps_congr (hv ▸ rfl) hs.keeps
    exact keeps_mono (keeps_trans hkv hkeep) fun x hx => by simpa using hx
  · rw [hbs, hv, bsOver_overCounted, hb]

theorem bsense_over (hk : mapGet 0 s.bsOver n + 1 ≠ 10) :
    ∃ t, exec (.bsenseAverage dt n raw) s = .next t ∧ s.sensed t n (s.senseMv n raw) (s.senseMa n raw) ∧
      t.flag F.MC_BSENSE_OVER n = s.flag F.MC_BSENSE_OVER n ∧ mapGet 0 t.bsOver n = mapGet 0 s.bsOver n + 1 := by
  obtain ⟨u, hu⟩ : ∃ u, u = (s.tick dt).sampled n raw := ⟨_, rfl⟩
  obtain ⟨hs, hover, hr⟩ := hu ▸ sampled_leaves (s.tick dt) n raw
  have hb : mapGet 0 u.bsOver n = mapGet 0 s.bsOver n := by
    rw [hr]
    rfl
  have hne : ¬ mapGet 0 u.bsOver n + 1 = 10 := hb ▸ hk
  exact ⟨_, (exec_bsenseAverage hu).trans ((if_pos ⟨h0, hl⟩).trans (if_neg hne)), ⟨hs.valid, hs.mv, hs.ma, hs.out, hs.keeps⟩, hover,
    (bsOver_overCounted ..).trans (congrArg (· + 1) hb)⟩

end

/-! ## The mirror of the log -/

/-- A log entry that has been mirrored. -/
def LogEntry.toMirror (e : LogEntry) : LogEntry := { e with mirrored := true }

theorem mirrorRun_zero (l : List LogEntry) : mirrorRun 0 l = l.map LogEntry.toMirror := by
  cases l <;> rfl

theorem toMirror_self {e : LogEntry} (h : e.mirrored = true) : e.toMirror = e := by
  rw [LogEntry.toMirror, ← h]

/-- Nothing lost, and room for what is new: the mirror takes it all (R487, R488). -/
theorem mirrorLog_appends (h0 : s.logLost = 0) (hlen : s.mirror.length + (s.log.filter fun e => !e.mirrored).length ≤ 262144) :
    s.mirrorLog.mirror = s.mirror ++ (s.log.filter fun e => !e.mirrored).map LogEntry.toMirror ∧
    s.mirrorLog.log = s.log.map LogEntry.toMirror ∧ s.mirrorLog = { s with log := s.mirrorLog.log, mirror := s.mirrorLog.mirror } := by
  obtain ⟨l, hl⟩ : ∃ l, l = s.log.filter fun e => !e.mirrored := ⟨_, rfl⟩
  rw [← hl] at hlen ⊢
  unfold State.mirrorLog
  extract_lets new all
  have hnew : new = l.map LogEntry.toMirror := by
    rw [hl, ← mirrorRun_zero, ← h0]
  have hall : all.drop (all.length - 262144) = s.mirror ++ l.map LogEntry.toMirror := by
    have hlen' : all.length - 262144 = 0 := by
      rw [show all = s.mirror ++ new from rfl, hnew, List.length_append, List.length_map]
      exact Nat.sub_eq_zero_of_le hlen
    rw [hlen', List.drop_zero, show all = s.mirror ++ new from rfl, hnew]
  split
  next he =>
    have hnil : l = [] := List.map_eq_nil_iff.1 (hnew.symm.trans (List.isEmpty_iff.1 he))
    have hmir : ∀ e ∈ s.log, e.mirrored = true := by simpa [hl] using hnil
    refine ⟨by rw [hnil, List.map_nil, List.append_nil], ?_, rfl⟩
    rw [List.map_congr_left fun e he => toMirror_self (hmir e he), List.map_id']
  next he =>
    rw [hall]
    exact ⟨rfl, rfl, by rw [← h0]⟩

/-! ## The debug scope -/

theorem debugScope_leaves (s : State) : let t := (s.setFld F.SEC_STAT_DBG_SCOPE 0).setFld F.SEC_STAT_DBG_MIN_LEFT 0
    t.fld F.SEC_STAT_DBG_SCOPE = 0 ∧ t.fld F.SEC_STAT_DBG_MIN_LEFT = 0 ∧ s.keeps t [(.SEC_STAT, 0, 0)] ∧ s.onlyRegs t := by
  obtain ⟨a, ha⟩ : ∃ a, a = s.setFld F.SEC_STAT_DBG_SCOPE 0 := ⟨_, rfl⟩
  have hk : s.keeps a [(.SEC_STAT, 0, 0)] := ha ▸ keeps_setFld s F.SEC_STAT_DBG_SCOPE 0 (by decide)
  have h0 : a.fld F.SEC_STAT_DBG_SCOPE = 0 := ha ▸ fld_setFld_eq s _ (by decide) (by decide)
  have hr : s.onlyRegs a := ha ▸ onlyRegs_setFld ..
  rw [← ha]
  exact ⟨(fld_setFld_at (n := 1) (f := F.SEC_STAT_DBG_MIN_LEFT) a _ Nat.one_pos (by decide)).trans h0, fld_setFld_eq a _ (by decide) (by decide),
    keeps_setFld_of_keeps (f := F.SEC_STAT_DBG_MIN_LEFT) s _ hk (by decide) List.mem_cons_self, onlyRegs_trans hr (onlyRegs_setFld ..)⟩

end

/-- Settles O58: each event of the management controller by what it writes; the gate that follows the slew probe leaves REFILL_US. -/
theorem managementControllerKeepsRunning : Obligations.ManagementControllerKeepsRunning := by
  unfold Obligations.ManagementControllerKeepsRunning
  intro dt s now st
  have hst (t : State) (p : Fin 2) : st t p = t.fld (pairFld p) := rfl
  refine ⟨fun p cause => ?_, fun p hd hp hw => ⟨?_, ?_⟩, fun p ha hp => ⟨standbyCheck_fails ha hp, standbyCheck_passes⟩,
    fun n raw => ⟨fun h => ?_, fun h0 hl hk => ?_, fun h0 hl hk => ?_⟩, fun hup hlost => ?_, fun hc hr => ?_, fun h0 hf => ?_,
    fun hr hd hs trec => ?_⟩
  · intro q failed hd hq hw hm ht hs
    refine ⟨fun ha hp ho => ?_, fun ha hp => ?_⟩
    · obtain ⟨hact, hown, hfail, hsw, hcnt, hlog, hout, hk, hmem⟩ := pairSwapped_leaves (s.tick dt) p (cause.val + 1)
      exact ⟨_, pairFault_active hd hw hq hm ht hs ha hp ho, hact, hown, hfail, hsw, hcnt, hlog, hout, hk, hmem⟩
    · have hl := pairDown_leaves (s.tick dt) p (cause.val + 1)
      exact ⟨_, pairFault_standby hd hw hp, hl.active.trans ha, hl.other, hl.failed, hl.logs, hl.frame.out, hl.keeps, hl.frame.memory⟩
  · obtain ⟨hown, hoth, hdown, hk, hfr⟩ := pairBack_leaves (s.tick dt) p
    exact ⟨_, pairRestore_passes hd hp hw, hown, hoth, hdown, hk, hfr⟩
  · obtain ⟨hown, hdown, hk, hr⟩ := pairGone_leaves (s.tick dt) p
    exact ⟨_, pairRestore_fails hd hp hw, hown, hdown, hk, hr⟩
  · obtain ⟨t, hx, hs, hover, hbs, hfr⟩ := bsense_within (dt := dt) h
    exact ⟨t, hx, ⟨hs.valid, hs.mv, hs.ma, hs.out, hs.keeps⟩, hover, hbs, hfr⟩
  · obtain ⟨t, hx, hs, hover, hbs, hlog⟩ := bsense_tenth (dt := dt) h0 hl hk
    exact ⟨t, hx, ⟨hs.valid, hs.mv, hs.ma, hs.out, hs.keeps⟩, hover, hbs, hlog⟩
  · obtain ⟨t, hx, hs, hover, hbs⟩ := bsense_over (dt := dt) h0 hl hk
    exact ⟨t, hx, ⟨hs.valid, hs.mv, hs.ma, hs.out, hs.keeps⟩, hover, hbs⟩
  · intro new hlen
    obtain ⟨hmir, hlog, hfr⟩ := mirrorLog_appends (s := s.tick dt) hlost hlen
    exact ⟨_, if_pos hup, hmir, hlog, hfr⟩
  · exact ⟨_, if_pos ⟨hc, hr⟩, rfl, rfl, rfl⟩
  · obtain ⟨hscope, hleft, hk, hr⟩ := debugScope_leaves (s.tick dt)
    exact ⟨_, if_pos ⟨h0, hf⟩, hscope, hleft, hk, hr⟩
  · exact slewProbeEnd_leaves hr hd hs

end Sys2Proof.Machine
end

section
/-! Canonical stores: what a state needs for the model's form of equal memories, and how its parts are put together. -/
namespace Sys2Proof.Machine

/-- Are a register store, and a depot and HBM with their marks, in canonical form. -/
structure StoresCanon (r : FMap DWord) (d h : FMap Byte) (dp hp : FMap Bool) : Prop where
  regs : mapWf regDefault r = true
  depot : Memory.wf d = true
  hbm : Memory.wf h = true
  depotMarks : mapWf (fun _ => false) dp = true
  hbmMarks : mapWf (fun _ => false) hp = true

/-- The stores of a state, read off its constructor, are in canonical form. -/
def State.StoresOk : State → Prop
  | { regs := r, depot := d, hbm := h, depotPoison := dp, hbmPoison := hp, .. } => StoresCanon r d h dp hp

/-- The stores of a state are in canonical form. -/
structure State.Canon (s : State) : Prop where
  ok : s.StoresOk

/-- A step that goes on leaves canonical stores. -/
def Answer.Canon : Answer → Prop
  | .next t => t.Canon
  | _ => True

section
variable {s t u : State}

/-- A state with the stores of another, whatever else differs. -/
theorem State.StoresOk.same (hs : s.Canon) : StoresCanon s.regs s.depot s.hbm s.depotPoison s.hbmPoison := hs.ok

theorem State.Canon.stores (hs : s.Canon) : StoresCanon s.regs s.depot s.hbm s.depotPoison s.hbmPoison := hs.ok

theorem canonical_iff : s.canonical = true ↔ s.Canon := by
  rw [State.canonical]
  simp only [Bool.and_eq_true]
  exact ⟨fun ⟨⟨⟨⟨hr, hd⟩, hh⟩, hdp⟩, hhp⟩ => ⟨StoresCanon.mk hr hd hh hdp hhp⟩, fun h => ⟨⟨⟨⟨h.stores.regs, h.stores.depot⟩, h.stores.hbm⟩, h.stores.depotMarks⟩,
    h.stores.hbmMarks⟩⟩

theorem State.Canon.mem (hs : s.Canon) : s.memWf := ⟨hs.stores.depot, hs.stores.hbm, hs.stores.depotMarks, hs.stores.hbmMarks⟩

/-- A memory operation that keeps the canonical form and the registers. -/
theorem State.Canon.ofMem (hs : s.Canon) (hm : t.memWf) (hr : t.regs = s.regs) : t.Canon := by
  obtain ⟨hd, hh, hdp, hhp⟩ := hm
  exact ⟨StoresCanon.mk (hr ▸ hs.stores.regs) hd hh hdp hhp⟩

theorem State.Canon.reset : State.reset.Canon := ⟨StoresCanon.mk rfl rfl rfl rfl rfl⟩

/-! ## Branches, folds and pairs -/

section
variable {c : Prop} [Decidable c]

theorem State.Canon.ite (ht : t.Canon) (hu : u.Canon) : (if c then t else u).Canon := by
  split
  · exact ht
  · exact hu

theorem State.Canon.when (ht : t.Canon) (hu : t.Canon → u.Canon) : (if c then u else t).Canon := .ite (hu ht) ht
theorem State.Canon.unless (ht : t.Canon) (hu : t.Canon → u.Canon) : (if c then t else u).Canon := .ite ht (hu ht)

theorem Answer.Canon.ite {a b : Answer} (ha : Answer.Canon a) (hb : Answer.Canon b) : Answer.Canon (if c then a else b) := by
  split
  · exact ha
  · exact hb

end

theorem Answer.Canon.next (hs : s.Canon) : Answer.Canon (.next s) := hs
theorem Answer.Canon.refused {e : Refusal} : Answer.Canon (.refused e) := trivial
theorem Answer.Canon.fault {e : Fault} : Answer.Canon (.fault e) := trivial

section
variable {α β : Type} {l : List α}

theorem State.Canon.foldl {f : State → α → State} (hf : ∀ v, State.Canon v → ∀ x, (f v x).Canon) (hs : s.Canon) : (l.foldl f s).Canon :=
  List.foldlRecOn (motive := State.Canon) l f hs fun v hv x _ => hf v hv x

theorem State.Canon.foldlFst {p : State × β} {f : State × β → α → State × β} (hf : ∀ q : State × β, q.1.Canon → ∀ x, (f q x).1.Canon)
    (hp : p.1.Canon) : (l.foldl f p).1.Canon :=
  List.foldlRecOn (motive := fun q : State × β => q.1.Canon) l f hp fun q hq x _ => hf q hq x

theorem State.Canon.ofPair {p : State × β} {b : β} (he : p = (t, b)) (hp : p.1.Canon) : t.Canon := by
  rw [he] at hp
  exact hp

end
end

end Sys2Proof.Machine
end

section
/-! Registers, counters and reports: the stores stay canonical. -/
namespace Sys2Proof.Machine

variable {s : State}

theorem State.Canon.setReg {r v i j} (hs : s.Canon) : (s.setReg r v i j).Canon :=
  ⟨StoresCanon.mk (mapWf_mapSet regDefault _ _ _ hs.stores.regs) hs.stores.depot hs.stores.hbm hs.stores.depotMarks hs.stores.hbmMarks⟩

theorem State.Canon.setFld {f v i j} (hs : s.Canon) : (s.setFld f v i j).Canon := .setReg hs
theorem State.Canon.addSat {f n i j} (hs : s.Canon) : (s.addSat f n i j).Canon := .setFld hs
theorem State.Canon.inc {f i j} (hs : s.Canon) : (s.inc f i j).Canon := .addSat hs
theorem State.Canon.addWrap {f n i j} (hs : s.Canon) : (s.addWrap f n i j).Canon := .setFld hs
theorem State.Canon.tick {dt} (hs : s.Canon) : (s.tick dt).Canon := ⟨.same hs⟩
theorem State.Canon.useFree (hs : s.Canon) : s.useFree.Canon := ⟨.same hs⟩
theorem State.Canon.emit {o} (hs : s.Canon) : (s.emit o).Canon := ⟨.same hs⟩
theorem State.Canon.tell {r} (hs : s.Canon) : (s.tell r).Canon := .emit hs
theorem State.Canon.pulse {p n} (hs : s.Canon) : (s.pulse p n).Canon := .ite hs ⟨.same hs⟩
theorem State.Canon.logAdd {src sev code args} (hs : s.Canon) : (s.logAdd src sev code args).Canon := ⟨.same hs⟩
theorem State.Canon.logE {src code args} (hs : s.Canon) : (s.logE src code args).Canon := .logAdd hs

theorem State.Canon.ael {space off origin kind status data} (hs : s.Canon) : (s.ael space off origin kind status data).Canon :=
  .logE (.setFld (.inc (.setFld (.setReg (.setReg (.setReg (.setReg hs)))))))

theorem State.Canon.aelReg {r off kind status data} (hs : s.Canon) : (s.aelReg r off kind status data).Canon := .ael hs

end Sys2Proof.Machine
end

section
/-! Register accesses: the stores stay canonical. -/
namespace Sys2Proof.Machine

variable {s : State}

theorem State.Canon.accessing {r a n data k} (hs : s.Canon) (hk : ∀ h, (k h).Canon) : (s.accessing r a n data k).Canon := by
  unfold State.accessing
  split
  · exact hk _
  · exact .aelReg hs

end Sys2Proof.Machine
end

section
/-! Commands and replies: the stores stay canonical. -/
namespace Sys2Proof.Machine

variable {s : State}

theorem State.Canon.setQueue {q x} (hs : s.Canon) : (s.setQueue q x).Canon := ⟨.same hs⟩
theorem State.Canon.cmdDone {q} (hs : s.Canon) : (s.cmdDone q).Canon := .setFld (.setFld hs)
theorem State.Canon.postCq {q r} (hs : s.Canon) : (s.postCq q r).Canon := .when (.when (.setQueue (.emit hs)) fun h => .emit h) fun h => .cmdDone h
theorem State.Canon.postHeld {q n} (hs : s.Canon) : (s.postHeld q n).Canon := by
  induction n generalizing s with
  | zero => exact hs
  | succ n ih =>
    unfold State.postHeld
    split
    · exact hs
    · exact .ite (ih (.postCq (.setQueue hs))) hs

theorem State.Canon.netReply {key origin ip port r} (hs : s.Canon) : (s.netReply key origin ip port r).Canon := .useFree (.emit hs)
theorem State.Canon.reply {h status w} (hs : s.Canon) : (s.reply h status w).Canon := by
  unfold State.reply
  extract_lets
  split
  · exact .ite (.cmdDone ⟨.same hs⟩) (.ite (.postCq ⟨.same hs⟩) (.setQueue ⟨.same hs⟩))
  · exact ⟨.same (.netReply ⟨.same hs⟩)⟩
  · exact .emit ⟨.same hs⟩

theorem State.Canon.replyPending {h} (hs : s.Canon) : (s.replyPending h).Canon := by
  unfold State.replyPending
  extract_lets
  split
  · exact hs
  · split
    · exact .ite (.postCq hs) hs
    · exact .netReply hs
    · exact .emit hs

end Sys2Proof.Machine
end

section
/-! Calibration: the stores stay canonical. -/
namespace Sys2Proof.Machine

variable {s : State}

theorem State.Canon.setCal {k x} (hs : s.Canon) : (s.setCal k x).Canon := ⟨.same hs⟩
theorem State.Canon.calShow {item} (hs : s.Canon) : (s.calShow item).Canon := .setFld (.setFld (.setFld (.setFld (.setFld (.setFld (.setFld hs))))))
theorem State.Canon.calRunStart {item iref} (hs : s.Canon) : (s.calRunStart item iref).Canon := .when (.setFld ⟨.same hs⟩) fun h => .tell h
theorem State.Canon.calDue1 {k iref} (hs : s.Canon) : (s.calDue1 k iref).Canon := .ite hs (.setCal (.ite (.calRunStart hs) hs))
theorem State.Canon.calAsk1 {k iref} (hs : s.Canon) : (s.calAsk1 k iref).Canon := .ite (.setCal hs) (.calDue1 hs)
theorem State.Canon.calDueItem {item iref} (hs : s.Canon) : (s.calDueItem item iref).Canon := .calShow (.foldl (fun _ h1 _ => .calAsk1 h1) hs)
theorem State.Canon.calDueMask {mask iref} (hs : s.Canon) : (s.calDueMask mask iref).Canon := .foldl (fun _ h1 _ => .ite (.calDueItem h1) h1) hs
theorem State.Canon.bootReady (hs : s.Canon) : s.bootReady.Canon := .setFld (.setFld hs)
theorem State.Canon.bootDone (hs : s.Canon) : s.bootDone.Canon := .ite (.bootReady hs) hs
theorem State.Canon.repairPages (hs : s.Canon) : s.repairPages.Canon := ⟨.same (.foldl (fun _ h2 _ => .setFld h2) (.foldl (fun _ h1 _ => .setFld h1) hs))⟩
theorem State.Canon.stageSeven (hs : s.Canon) : s.stageSeven.Canon := .ite (.bootDone (.setFld ⟨.same (.setFld (.setFld (.repairPages hs)))⟩)) hs
theorem State.Canon.calRunEnd {item} (hs : s.Canon) : (s.calRunEnd item).Canon := by
  unfold State.calRunEnd
  split
  · exact .ite (.stageSeven ⟨.same (.when (.setFld (.setFld (.setFld (.setFld (.setFld (.setFld hs)))))) fun h => .setFld h)⟩) hs
  · exact hs

theorem State.Canon.calServed {k flagged} (hs : s.Canon) : (s.calServed k flagged).Canon := .foldl (fun _ h2 _ => .reply h2) ⟨.same hs⟩
theorem State.Canon.calFlashWrite {force} (hs : s.Canon) : (s.calFlashWrite force).Canon := .ite ⟨.same hs⟩ hs
theorem State.Canon.calUnskip {p} (hs : s.Canon) : (s.calUnskip p).Canon := .foldl (fun _ h2 _ => .calShow h2) (.foldl (fun _ h1 _ => .calDue1 h1) hs)
theorem State.Canon.calClose {k flagged} (hs : s.Canon) : (s.calClose k flagged).Canon := .calFlashWrite (.calServed (.calRunEnd (.calShow hs)))
theorem State.Canon.calRunUpd {item f} (hs : s.Canon) : (s.calRunUpd item f).Canon := by
  unfold State.calRunUpd
  split
  · exact ⟨.same hs⟩
  · exact hs

theorem State.Canon.calAccept {k v t} (hs : s.Canon) : (s.calAccept k v t).Canon := .calClose ⟨.same (.calRunUpd (.setFld (.addWrap (.setCal hs))))⟩
theorem State.Canon.calLegRecord {k leg} (hs : s.Canon) : (s.calLegRecord k leg).Canon := ⟨.same hs⟩
theorem State.Canon.calAttempt {k m1 m2 t} (hs : s.Canon) : (s.calAttempt k m1 m2 t).Canon := by
  unfold State.calAttempt
  extract_lets
  split
  · exact .ite (.calClose (.tell (.calLegRecord (.setCal hs)))) (.ite (.calAccept (.setCal hs)) (.ite (.setCal hs) (.calClose (.calRunUpd (.setFld (.addWrap
      (.setCal hs)))))))

theorem execCalDue_canon {dt item inst temp iref} (hs : s.Canon) : Answer.Canon (execCalDue dt item inst temp iref s) := by
  unfold execCalDue
  extract_lets
  split
  · split
    · exact .ite (.next (.calShow (.calDue1 (.setCal (.tick hs))))) (.next (.setCal (.tick hs)))
    · exact .ite (.next (.calShow (.calDue1 (.tick hs)))) (.next (.tick hs))
  · exact .next (.tick hs)

theorem State.Canon.calTrigWrite {r v iref} (hs : s.Canon) : (s.calTrigWrite r v iref).Canon := .ite (.calDueMask hs) (.aelReg hs)

theorem execCalTrigWrite_canon {dt r data iref} (hs : s.Canon) : Answer.Canon (execCalTrigWrite dt r data iref s) :=
  .next (.accessing (.tick hs) (fun _ => .calTrigWrite (.tick hs)))

theorem execCalMeasurement_canon {dt item inst code conf temp} (hs : s.Canon) : Answer.Canon (execCalMeasurement dt item inst code conf temp s) := by
  unfold execCalMeasurement
  extract_lets
  split
  · split
    · exact .next (.calClose (.setCal (.tick hs)))
    · split
      · exact .next (.setCal (.tick hs))
      · split
        · exact .next (.setCal (.tick hs))
        · exact .next (.calAttempt (.setCal (.tick hs)))
  · exact .next (.tick hs)

theorem execCalSwapComplete_canon {dt item inst} (hs : s.Canon) : Answer.Canon (execCalSwapComplete dt item inst s) :=
  .ite (.next (.setCal (.tick hs))) (.next (.tick hs))

theorem execCalHoldTimeout_canon {dt item inst} (hs : s.Canon) : Answer.Canon (execCalHoldTimeout dt item inst s) := by
  unfold execCalHoldTimeout
  extract_lets
  split
  · exact .ite (.next (.calShow (.setCal (.tick hs)))) (.next (.tick hs))
  · exact .next (.tick hs)

theorem State.Canon.calTabWrite {v} (hs : s.Canon) : (s.calTabWrite v).Canon := .calFlashWrite ⟨.same (.setCal hs)⟩

end Sys2Proof.Machine
end

section
/-! The memories of a tile: the stores stay canonical. -/
namespace Sys2Proof.Machine

variable {s : State}

theorem State.Canon.setTile {t x} (hs : s.Canon) : (s.setTile t x).Canon := ⟨.same hs⟩
theorem State.Canon.modTile {t f} (hs : s.Canon) : (s.modTile t f).Canon := .setTile hs
theorem State.Canon.setTState {t c} (hs : s.Canon) : (s.setTState t c).Canon := .setFld hs
theorem State.Canon.writeW {t lb w c} (hs : s.Canon) : (s.writeW t lb w c).Canon := .ite (.modTile hs) (.modTile hs)
theorem State.Canon.writeWs {t lb w cs} (hs : s.Canon) : (s.writeWs t lb w cs).Canon := by
  induction cs generalizing s w with
  | nil => exact hs
  | cons c cs ih => exact ih (.writeW hs)

theorem State.Canon.writeBits {t lb w lo n v p} (hs : s.Canon) : (s.writeBits t lb w lo n v p).Canon := .writeW hs
theorem State.Canon.setG {t i v} (hs : s.Canon) : (s.setG t i v).Canon := .ite hs (.modTile hs)
theorem State.Canon.setGen {t g} (hs : s.Canon) : (s.setGen t g).Canon := .setFld (.modTile hs)
theorem State.Canon.accPut {t i a} (hs : s.Canon) : (s.accPut t i a).Canon := .modTile hs
theorem State.Canon.setRing {t k r} (hs : s.Canon) : (s.setRing t k r).Canon := .modTile hs
theorem State.Canon.writeRingRow {t k n ws} (hs : s.Canon) : (s.writeRingRow t k n ws).Canon := .setRing (.writeWs hs)
theorem State.Canon.sbPut {t e x} (hs : s.Canon) : (s.sbPut t e x).Canon := .setFld (.modTile hs)
theorem State.Canon.sbAlloc {t x} (hs : s.Canon) : (s.sbAlloc t x).Canon := by
  unfold State.sbAlloc
  split
  · exact .sbPut hs
  · exact hs

theorem State.Canon.addStats {t st} (hs : s.Canon) : (s.addStats t st).Canon := .addSat (.addSat (.addSat (.addSat hs)))
theorem State.Canon.rxBytes {t n} (hs : s.Canon) : (s.rxBytes t n).Canon := .addWrap hs
theorem State.Canon.txBytes {t n} (hs : s.Canon) : (s.txBytes t n).Canon := .addWrap hs

end Sys2Proof.Machine
end

section
/-! HBM: the stores stay canonical. -/
namespace Sys2Proof.Machine

variable {s : State}

theorem State.Canon.pmapSet {k l v} (hs : s.Canon) : (s.pmapSet k l v).Canon := ⟨.same hs⟩
theorem State.Canon.hbmPutMark {u m} (hs : s.Canon) : (s.hbmPutMark u m).Canon := .ofMem hs (memWf_hbmPutMark _ _ _ hs.mem) rfl
theorem State.Canon.hbmPuts {p bs} (hs : s.Canon) : (s.hbmPuts p bs).Canon := .ofMem hs (memWf_hbmPuts _ _ _ hs.mem) (by rw [hbmPuts_else])

theorem State.Canon.hbmMarks {p len m u n} (hs : s.Canon) : (s.hbmMarks p len m u n).Canon :=
  .ofMem hs (memWf_hbmMarks _ _ _ _ _ _ hs.mem) (by rw [hbmMarks_else])

theorem State.Canon.hbmWritePhys {p bs poison} (hs : s.Canon) : (s.hbmWritePhys p bs poison).Canon := .hbmPuts (.hbmMarks hs)
theorem State.Canon.hbmWriteMig {p bs poison} (hs : s.Canon) : (s.hbmWriteMig p bs poison).Canon := .when (.hbmWritePhys hs) fun h => .hbmWritePhys h
theorem State.Canon.aelHbm {a data} (hs : s.Canon) : (s.aelHbm a data).Canon := .useFree (.ael hs)
theorem State.Canon.hbmWrite {a bs poison} (hs : s.Canon) : (s.hbmWrite a bs poison).Canon := by
  unfold State.hbmWrite
  split
  · exact .hbmWriteMig hs
  · exact .aelHbm hs

end Sys2Proof.Machine
end

section
/-! Streams: the stores stay canonical. -/
namespace Sys2Proof.Machine

variable {s : State}

theorem State.Canon.setSlot {k s₁ x} (hs : s.Canon) : (s.setSlot k s₁ x).Canon := ⟨.same hs⟩
theorem State.Canon.setEngine {k x} (hs : s.Canon) : (s.setEngine k x).Canon := ⟨.same hs⟩
theorem State.Canon.sendArrival {path m n} (hs : s.Canon) : (s.sendArrival path m n).Canon := ⟨.same hs⟩
theorem State.Canon.slotRefresh {k s₁} (hs : s.Canon) : (s.slotRefresh k s₁).Canon := .ite (.setFld hs) hs

theorem State.Canon.slotOpen {k s₁ rewind chw limit cms cmsEn} (hs : s.Canon) : (s.slotOpen k s₁ rewind chw limit cms cmsEn).Canon :=
  .slotRefresh (.setFld (.setSlot hs))

theorem State.Canon.slotClose {k s₁} (hs : s.Canon) : (s.slotClose k s₁).Canon := .setFld (.setSlot hs)
theorem State.Canon.sbRetireIf {t f} (hs : s.Canon) : (s.sbRetireIf t f).Canon := .foldl (fun _ h1 _ => .ite (.sbPut h1) h1) hs
theorem State.Canon.issueRead {k s₁} (hs : s.Canon) : (s.issueRead k s₁).1.Canon := .slotRefresh (.setSlot (.setFld (.setEngine hs)))
theorem State.Canon.chunkArrivals {k x b c} (hs : s.Canon) : (s.chunkArrivals k x b c).Canon := .ite (.foldl (fun _ h1 _ => .sendArrival h1) hs) hs
theorem State.Canon.deliverRead {k r} (hs : s.Canon) : (s.deliverRead k r).Canon := by
  unfold State.deliverRead
  extract_lets _ _ _ _ s5
  have h5 : s5.Canon := by
    unfold s5
    split
    · exact hs
    · exact .aelHbm hs
  exact .ite hs (.sbRetireIf (.when (.chunkArrivals (.setSlot (.rxBytes (.foldl (fun _ h2 _ => .writeW h2) h5)))) fun h => .setFld h))

theorem State.Canon.slotAnnounce {k s₁ ws eos} (hs : s.Canon) : (s.slotAnnounce k s₁ ws eos).Canon := .setSlot hs

theorem State.Canon.pullWrite {k s₁} (hs : s.Canon) : (s.pullWrite k s₁).1.Canon :=
  .when (.sbRetireIf (.txBytes (.chunkArrivals (.setSlot (.hbmWrite hs))))) fun h => .setFld h

theorem State.Canon.issueSlot {k s₁} (hs : s.Canon) : (s.issueSlot k s₁).1.Canon := by
  unfold State.issueSlot
  split
  · exact .pullWrite hs
  · exact .issueRead hs

theorem State.Canon.engineTake {k s₁ best} (hs : s.Canon) : (s.engineTake k s₁ best).Canon := by
  unfold State.engineTake
  extract_lets
  split
  next st n he =>
    have hst : st.Canon := .ofPair he (.issueSlot hs)
    exact .ite (.setEngine hst) (.setEngine hst)

theorem State.Canon.engineIssue {k} (hs : s.Canon) : (s.engineIssue k).Canon := by
  unfold State.engineIssue
  split
  · exact .engineTake hs
  · exact hs

theorem State.Canon.chargeBest {k n} (hs : s.Canon) : (s.chargeBest k n).Canon := .setEngine hs

end Sys2Proof.Machine
end

section
/-! Power: the stores stay canonical. -/
namespace Sys2Proof.Machine

variable {s : State}

theorem State.Canon.setCol {c x} (hs : s.Canon) : (s.setCol c x).Canon := ⟨.same hs⟩
theorem State.Canon.setMhz {c op} (hs : s.Canon) : (s.setMhz c op).Canon := .setFld hs
theorem State.Canon.tollShow (hs : s.Canon) : s.tollShow.Canon := .foldl (fun _ h2 _ => .setFld h2) (.setFld (.setFld hs))
theorem State.Canon.startTrim {c op} (hs : s.Canon) : (s.startTrim c op).Canon := .setCol (.setFld (.ite (.setMhz hs) hs))
theorem State.Canon.tollBegin {a} (hs : s.Canon) : (s.tollBegin a).Canon := by
  unfold State.tollBegin
  split
  · exact .setFld hs
  · exact .setCol hs
  · exact .setCol hs
  · exact .ite (.startTrim hs) hs
  · exact .ite (.startTrim hs) hs

theorem State.Canon.tollGrant {n} (hs : s.Canon) : (s.tollGrant n).Canon := by
  induction n generalizing s with
  | zero => exact hs
  | succ n ih =>
    unfold State.tollGrant
    extract_lets
    split
    · exact .ite (ih (.tollBegin ⟨.same (.setFld hs)⟩)) hs
    · exact .ite (ih (.tollBegin ⟨.same (.setFld hs)⟩)) hs
    · exact hs

theorem State.Canon.tollRun (hs : s.Canon) : s.tollRun.Canon := .tollShow (.tollGrant hs)
theorem State.Canon.tollAsk {high qs} (hs : s.Canon) : (s.tollAsk high qs).Canon := .tollRun (.ite ⟨.same hs⟩ ⟨.same hs⟩)
theorem State.Canon.tollCancel {p} (hs : s.Canon) : (s.tollCancel p).Canon := by
  unfold State.tollCancel
  exact .tollShow ⟨.same hs⟩

theorem State.Canon.colLeave {c goal} (hs : s.Canon) : (s.colLeave c goal).Canon := .setCol (.ite (.tollCancel hs) hs)

theorem State.Canon.colCommit {c high} (hs : s.Canon) : (s.colCommit c high).Canon :=
  .ite (.setCol (.ite (.setFld hs) hs)) (.ite (.ite (.when (.ite (.setFld hs) hs) fun h => .colLeave h) (.unless (.ite
    (.setFld hs) hs) fun h => .tollAsk h)) (.ite (.ite (.colLeave (.ite (.setFld hs) hs)) (.when (.ite (.setFld hs) hs) fun h => .tollAsk h)) (.ite
    (.colLeave (.ite (.setFld hs) hs)) (.ite (.setCol (.ite (.setFld hs) hs)) (.ite (.startTrim (.setCol (.ite (.setFld hs) hs))) (.when (.setCol (.ite
    (.setFld hs) hs)) fun h => .tollAsk h))))))

theorem State.Canon.trimEnd {c} (hs : s.Canon) : (s.trimEnd c).Canon := by
  unfold State.trimEnd
  extract_lets _ _ _ _ s5
  have h5 : s5.Canon := .when (.setCol (.setMhz (.setFld (.setFld hs)))) fun h => .setFld h
  exact .ite (.setCol (.startTrim h5)) (.when h5 fun h => .colCommit h)

theorem execTrimComplete_canon {dt c} (hs : s.Canon) : Answer.Canon (execTrimComplete dt c s) := .ite (.next (.trimEnd (.tick hs))) (.next (.tick hs))
theorem execThermalStepDown_canon {dt c} (hs : s.Canon) : Answer.Canon (execThermalStepDown dt c s) := by
  unfold execThermalStepDown
  extract_lets _ _ s3
  have h3 : s3.Canon := .setFld (.setFld (.tick hs))
  exact .ite (.ite (.next (.setCol h3)) (.ite (.next h3) (.next (.startTrim h3)))) (.next (.tick hs))

theorem execThermalStepUp_canon {dt c} (hs : s.Canon) : Answer.Canon (execThermalStepUp dt c s) :=
  .ite (.ite (.next (.setFld (.tick hs))) (.ite (.next (.tick hs)) (.next (.tollAsk (.tick hs))))) (.next (.tick hs))

theorem execTollRefill_canon {dt} (hs : s.Canon) : Answer.Canon (execTollRefill dt s) := .next (.tollRun (.setFld (.tick hs)))
theorem State.Canon.halve {on} (hs : s.Canon) : (s.halve on).Canon := .foldl (fun _ h1 _ => .when (.setFld h1) fun h => .setMhz h) hs
theorem execOvercurrent_canon {dt} (hs : s.Canon) : Answer.Canon (execOvercurrent dt s) := .next (.halve (.setFld (.inc (.tick hs))))

theorem execHalvingEnd_canon {dt still} (hs : s.Canon) : Answer.Canon (execHalvingEnd dt still s) :=
  .ite (.ite (.next (.inc (.tick hs))) (.next (.halve (.tick hs)))) (.next (.tick hs))

theorem execCurrentAboveCap_canon {dt} (hs : s.Canon) : Answer.Canon (execCurrentAboveCap dt s) := .next (.tell (.setFld (.tick hs)))

theorem State.Canon.dropRegs {p} (hs : s.Canon) : (s.dropRegs p).Canon :=
  ⟨StoresCanon.mk (mapWf_filter _ _ _ hs.stores.regs) hs.stores.depot hs.stores.hbm hs.stores.depotMarks hs.stores.hbmMarks⟩

theorem State.Canon.colOff {c} (hs : s.Canon) : (s.colOff c).Canon := .setCol (.setFld (.setFld (.setFld (.setFld (.setFld ⟨.same (.dropRegs hs)⟩)))))
theorem State.Canon.hbmGone {k} (hs : s.Canon) : (s.hbmGone k).Canon := .ofMem hs (memWf_hbmGone _ _ hs.mem) rfl

theorem State.Canon.iodGone (hs : s.Canon) : s.iodGone.Canon :=
  ⟨StoresCanon.mk (mapWf_filter _ _ _ hs.stores.regs) rfl hs.stores.hbm rfl hs.stores.hbmMarks⟩

theorem State.Canon.mcGone (hs : s.Canon) : s.mcGone.Canon := ⟨.same (.dropRegs hs)⟩
theorem State.Canon.domGone {d} (hs : s.Canon) : (s.domGone d).Canon := by
  unfold State.domGone
  extract_lets _ _ s3
  have h3 : s3.Canon := .when (.ite (.mcGone hs) (.ite (.iodGone hs) (.dropRegs hs))) fun h => .foldl (fun _ h2 _ => by
    split
    · exact .setFld h2) h
  exact .ite (.colOff hs) (.setFld (.ite ⟨.same h3⟩ (.ite ⟨.same h3⟩ (.ite ⟨.same h3⟩ (.ite ⟨.same h3⟩ (.when h3 fun h => ⟨.same h⟩))))))

theorem State.Canon.wakeRails (hs : s.Canon) : s.wakeRails.Canon := by
  unfold State.wakeRails
  extract_lets _ _ s3
  have h3 : s3.Canon := .when ⟨.same hs⟩ fun h => .setFld h
  exact .ite (.tollAsk h3) (.tollAsk h3)

theorem State.Canon.wakeStart {code} (hs : s.Canon) : (s.wakeStart code).Canon :=
  .when (.unless ⟨.same (.setFld (.setFld (.inc hs)))⟩ fun h => .setFld h) fun h => .wakeRails h

theorem State.Canon.wakeBy {code} (hs : s.Canon) : (s.wakeBy code).Canon := .ite ⟨.same hs⟩ (.ite (.setFld hs) (.ite (.wakeStart hs) hs))
theorem State.Canon.entryEnd (hs : s.Canon) : s.entryEnd.Canon := by
  unfold State.entryEnd
  split
  · exact hs
  · extract_lets _ w
    split
    · clear_value w
      split
      · exact .when ⟨.same (.setFld (.setFld hs))⟩ fun h => .wakeStart (.setFld h)
      · exact ⟨.same (.setFld (.setFld hs))⟩
    · exact hs

theorem State.Canon.enter {tgt} (hs : s.Canon) : (s.enter tgt).Canon := .entryEnd (.tollShow (.foldl (fun _ h3 _ => .ite (.setCol h3) h3) ⟨.same (.setFld hs)⟩))
theorem State.Canon.emergency {tgt cause} (hs : s.Canon) : (s.emergency tgt cause).Canon := .enter (.logE (.setFld hs))
theorem State.Canon.dstateWrite {r v} (hs : s.Canon) : (s.dstateWrite r v).Canon := .ite (.aelReg hs) (.ite hs (.ite (.enter hs) (.tell (.aelReg hs))))

theorem execPwrDstateWrite_canon {dt r data} (hs : s.Canon) : Answer.Canon (execPwrDstateWrite dt r data s) :=
  .next (.accessing (.tick hs) (fun _ => .dstateWrite (.tick hs)))

theorem State.Canon.wakeAbandon {rail} (hs : s.Canon) : (s.wakeAbandon rail).Canon := by
  unfold State.wakeAbandon
  exact .tollShow ⟨.same (.logE (.setFld hs))⟩

theorem State.Canon.abandonEnd (hs : s.Canon) : s.abandonEnd.Canon := by
  unfold State.abandonEnd
  extract_lets
  split
  · exact .ite ⟨.same (.setFld (.setFld hs))⟩ hs
  · exact hs

theorem execDomainSwitchedOff_canon {dt d} (hs : s.Canon) : Answer.Canon (execDomainSwitchedOff dt d s) := by
  unfold execDomainSwitchedOff
  extract_lets
  split
  · exact .ite (.next (.entryEnd (.ite (.when (.domGone (.when (.tick hs) fun h => .hbmGone h)) fun h => .setFld h) (.domGone (.tick hs))))) (.next (.tick hs))
  · split
    · split
      · exact .next (.abandonEnd (.tick hs))
      · exact .ite (.next (.abandonEnd ⟨.same (.when (.domGone (.tick hs)) fun h => .setFld h)⟩)) (.next (.tick hs))
    · split
      · split
        · exact .next (.colOff (.tick hs))
        · exact .ite (.next (.setCol (.setFld (.setFld (.tick hs))))) (.next (.tick hs))
        · exact .next (.tick hs)
      · exact .ite (.next ⟨.same (.setFld (.domGone (.tick hs)))⟩) (.next (.tick hs))

theorem State.Canon.domCommit {d high} (hs : s.Canon) : (s.domCommit d high).Canon :=
  .ite (.ite ⟨.same hs⟩ (.ite (.tollAsk hs) hs)) (.ite (.tollCancel hs) ⟨.same (.setFld (.tollCancel hs))⟩)

theorem State.Canon.pllLock {d ref} (hs : s.Canon) : (s.pllLock d ref).Canon := .when (.setFld hs) fun h => .setFld (.setFld h)
theorem State.Canon.wakeEnd (hs : s.Canon) : s.wakeEnd.Canon := .ite ⟨.same (.setFld (.setFld (.setFld hs)))⟩ hs
theorem State.Canon.mapRestore {c} (hs : s.Canon) : (s.mapRestore c).Canon := .foldl (fun _ h1 _ => .ite (.setReg h1) h1) hs

theorem State.Canon.domainReady {d ref} (hs : s.Canon) : (s.domainReady d ref).Canon :=
  .ite (.ite (.colCommit (.setMhz (.calUnskip (.when (.setCol (.when (.when (.setFld hs) fun h => .setFld h) fun h => .foldl (fun _ h3 _ => .setFld
    (.setFld h3)) h)) fun h => .mapRestore h)))) hs) (.ite (.wakeEnd (.when (.when (.when (.pllLock
    (.setFld hs)) fun h => ⟨.same h⟩) fun h => .tollAsk h) fun h => ⟨.same h⟩)) hs)

theorem execColumnPowerGood_canon {dt c} (hs : s.Canon) : Answer.Canon (execColumnPowerGood dt c s) :=
  .ite (.next (.foldl (fun _ h5 _ => .setFld (.setFld h5)) (.setMhz (.setFld (.setCol ⟨.same (.tick hs)⟩))))) (.next (.tick hs))

theorem execDllLock_canon {dt t} (hs : s.Canon) : Answer.Canon (execDllLock dt t s) :=
  .ite (.ite (.next ⟨.same (.tick hs)⟩) (.next (.setFld (.setFld ⟨.same (.tick hs)⟩)))) (.next (.tick hs))

theorem execDllLockTimeout_canon {dt t} (hs : s.Canon) : Answer.Canon (execDllLockTimeout dt t s) := .ite (.next ⟨.same (.tick hs)⟩) (.next (.tick hs))

theorem execDllLockLoss_canon {dt t} (hs : s.Canon) : Answer.Canon (execDllLockLoss dt t s) :=
  .ite (.next (.setFld (.setFld ⟨.same (.tick hs)⟩))) (.next (.tick hs))

theorem execWakeNLow_canon {dt} (hs : s.Canon) : Answer.Canon (execWakeNLow dt s) := .ite (.next (.wakeBy (.tick hs))) (.next (.tick hs))
theorem execPerstNRise_canon {dt} (hs : s.Canon) : Answer.Canon (execPerstNRise dt s) := .ite (.next (.wakeBy (.tick hs))) (.next (.tick hs))

theorem execI3cAddressMatch_canon {dt addr} (hs : s.Canon) : Answer.Canon (execI3cAddressMatch dt addr s) :=
  .ite (.next (.wakeBy (.tick hs))) (.next (.tick hs))

theorem execAonTimerMatch_canon {dt} (hs : s.Canon) : Answer.Canon (execAonTimerMatch dt s) := .ite (.next (.wakeBy (.tick hs))) (.next (.tick hs))
theorem execMcWakeRequest_canon {dt} (hs : s.Canon) : Answer.Canon (execMcWakeRequest dt s) := .ite (.next (.wakeBy (.tick hs))) (.next (.tick hs))
theorem execPcieConfigRequest_canon {dt} (hs : s.Canon) : Answer.Canon (execPcieConfigRequest dt s) := .ite (.next ⟨.same (.tick hs)⟩) (.next (.tick hs))

theorem execThermalTrip_canon {dt} (hs : s.Canon) : Answer.Canon (execThermalTrip dt s) :=
  .ite (.next (.tick hs)) (.next (.emergency ⟨.same (.setFld (.tick hs))⟩))

theorem State.Canon.railOff {rail} (hs : s.Canon) : (s.railOff rail).Canon := .foldl (fun _ h1 _ => .domGone (.ite (.hbmGone h1) h1)) hs
theorem State.Canon.aonLost (_ : s.Canon) : s.aonLost.Canon := ⟨.same .reset⟩
theorem execRailFailure_canon {dt rail} (hs : s.Canon) : Answer.Canon (execRailFailure dt rail s) := by
  unfold execRailFailure
  extract_lets _ _ _ _ _ _ _ _ _ s10
  have h10 : s10.Canon := .tollCancel ⟨.same (.setFld (.setFld (.tick hs)))⟩
  split
  · exact .next (.aonLost (.tick hs))
  · split
    · exact .next (.setFld (.tick hs))
    · split
      · exact .ite (.next (.logE h10)) (.next (.abandonEnd (.wakeAbandon h10)))
      · split
        · exact .next (.entryEnd (.railOff ⟨.same (.logE h10)⟩))
        · exact .ite (.next (.logE h10)) (.ite (.next (.tell (.logE h10))) (.next (.entryEnd (.railOff (.emergency ⟨.same (.logE h10)⟩)))))

theorem execRailGood_canon {dt rail} (hs : s.Canon) : Answer.Canon (execRailGood dt rail s) :=
  .ite (.next (.wakeRails ⟨.same (.setFld (.tick hs))⟩)) (.next ⟨.same (.setFld (.tick hs))⟩)

theorem execRailExcursion_canon {dt rail} (hs : s.Canon) : Answer.Canon (execRailExcursion dt rail s) :=
  .ite (.next (.logE (.setFld ⟨.same (.tick hs)⟩))) (.next (.tick hs))

theorem execWakeRailTimeout_canon {dt} (hs : s.Canon) : Answer.Canon (execWakeRailTimeout dt s) := by
  unfold execWakeRailTimeout
  extract_lets _ bad
  split
  · clear_value bad
    split
    · exact .next (.wakeRails (.tick hs))
    · exact .next (.wakeRails (.tick hs))
    · exact .next (.abandonEnd (.wakeAbandon (.tick hs)))
  · exact .next (.tick hs)

theorem execMeasUpdate_canon {dt fj cells achieved compulsory hbm} (hs : s.Canon) : Answer.Canon (execMeasUpdate dt fj cells achieved compulsory hbm s) := by
  unfold execMeasUpdate
  extract_lets _ _ s3 _ one
  have h3 : s3.Canon := .ite (.setFld (.addWrap (.tick hs))) (.setFld (.setFld (.addWrap (.tick hs))))
  exact .next (.addWrap (.foldl (fun _ h5 _ => by
    unfold one
    split
    · exact .ite (.setFld (.ite (.setFld h5) h5)) (.setFld (.ite (.setFld h5) h5))) (.ite (.setFld h3) (.setFld (.setFld h3)))))

end Sys2Proof.Machine
end

section
/-! The management controller: the stores stay canonical. -/
namespace Sys2Proof.Machine

variable {s : State}

theorem State.Canon.applyPolicy (hs : s.Canon) : s.applyPolicy.Canon := .setFld (.setFld (.setFld (.setFld (.setFld (.setFld hs)))))
theorem State.Canon.noiseEnable {was} (hs : s.Canon) : (s.noiseEnable was).Canon := ⟨.same hs⟩
theorem State.Canon.setFwSlot {k x} (hs : s.Canon) : (s.setFwSlot k x).Canon := ⟨.same hs⟩
theorem State.Canon.setPair {p v} (hs : s.Canon) : (s.setPair p v).Canon := .setFld hs
theorem State.Canon.switchEnd (hs : s.Canon) : s.switchEnd.Canon := by
  unfold State.switchEnd
  split
  · exact .ite ⟨.same (.reply hs)⟩ hs
  · exact hs

theorem execStandbyCheck_canon {dt ok} (hs : s.Canon) : Answer.Canon (execStandbyCheck dt ok s) := .ite (.next (.tell (.tick hs))) (.next (.tick hs))
theorem execBsenseAverage_canon {dt n raw} (hs : s.Canon) : Answer.Canon (execBsenseAverage dt n raw s) := by
  unfold execBsenseAverage
  extract_lets _ _ _ _ _ s6
  have h6 : s6.Canon := .setFld (.setFld (.setFld (.tick hs)))
  exact .ite (.ite (.next (.logE (.setFld ⟨.same h6⟩))) (.next ⟨.same h6⟩)) (.next ⟨.same h6⟩)

theorem State.Canon.mirrorLog (hs : s.Canon) : s.mirrorLog.Canon := .ite hs ⟨.same hs⟩
theorem execLogMirror_canon {dt} (hs : s.Canon) : Answer.Canon (execLogMirror dt s) := .ite (.next (.mirrorLog (.tick hs))) (.next (.tick hs))
theorem execFwFloorCommit_canon {dt} (hs : s.Canon) : Answer.Canon (execFwFloorCommit dt s) := .ite (.next ⟨.same (.tick hs)⟩) (.next (.tick hs))

theorem execDebugScopeExpire_canon {dt} (hs : s.Canon) : Answer.Canon (execDebugScopeExpire dt s) :=
  .ite (.next (.setFld (.setFld (.tick hs)))) (.next (.tick hs))

theorem State.Canon.askColumns {cs} (hs : s.Canon) : (s.askColumns cs).Canon := .tollAsk (.foldl (fun _ h1 _ => .setFld h1) hs)
theorem execSlewProbeEnd_canon {dt trec} (hs : s.Canon) : Answer.Canon (execSlewProbeEnd dt trec s) := by
  unfold execSlewProbeEnd
  extract_lets _ _ s3
  have h3 : s3.Canon := by
    unfold s3
    split
    · exact .setFld (.setFld (.tick hs))
    · exact .setFld (.tick hs)
  exact .ite (.next (.askColumns (.setFld ⟨.same h3⟩))) (.next (.tick hs))

end Sys2Proof.Machine
end

section
/-! Datagrams and rings: the stores stay canonical. -/
namespace Sys2Proof.Machine

variable {s : State}

theorem State.Canon.setArp {p x} (hs : s.Canon) : (s.setArp p x).Canon := ⟨.same hs⟩
theorem State.Canon.noRoute {d} (hs : s.Canon) : (s.noRoute d).Canon := by
  unfold State.noRoute
  split
  · exact .inc hs
  · exact hs

theorem State.Canon.sendFrame {p mac d} (hs : s.Canon) : (s.sendFrame p mac d).Canon := .emit hs
theorem State.Canon.sendUdp {p d} (hs : s.Canon) : (s.sendUdp p d).Canon := by
  unfold State.sendUdp
  extract_lets
  split
  · exact .noRoute hs
  · extract_lets
    split
    · exact .sendFrame hs
    · exact .setArp (.ite hs (.emit hs))

theorem State.Canon.arpLearn {p ip mac} (hs : s.Canon) : (s.arpLearn p ip mac).Canon := .foldl (fun _ h2 _ => .sendFrame h2) (.setArp hs)
theorem State.Canon.arpRetry {p ip} (hs : s.Canon) : (s.arpRetry p ip).Canon := .ite (.emit (.foldl (fun _ h2 _ => .noRoute h2) (.setArp hs))) hs
theorem State.Canon.setRs {k b} (hs : s.Canon) : (s.setRs k b).Canon := ⟨.same hs⟩
theorem State.Canon.rsSend {k n} (hs : s.Canon) : (s.rsSend k n).Canon := .sendUdp (.setRs hs)
theorem State.Canon.rsPump {k n} (hs : s.Canon) : (s.rsPump k n).Canon := by
  induction n generalizing s with
  | zero => exact hs
  | succ n ih => exact .ite (ih (.rsSend hs)) hs

theorem State.Canon.rsFlush {k} (hs : s.Canon) : (s.rsFlush k).Canon := .when (.rsPump hs) fun h => .rsSend h

end Sys2Proof.Machine
end

section
/-! Egress: the stores stay canonical. -/
namespace Sys2Proof.Machine

variable {s : State}

theorem State.Canon.setERing {r x} (hs : s.Canon) : (s.setERing r x).Canon := ⟨.same hs⟩
theorem State.Canon.ringBytes {r b} (hs : s.Canon) : (s.ringBytes r b).Canon := .setERing (.emit hs)
theorem State.Canon.ringPad {r n} (hs : s.Canon) : (s.ringPad r n).Canon := .ite hs (.setERing (.when (.emit hs) fun h => .emit h))
theorem State.Canon.ringPut {r x} (hs : s.Canon) : (s.ringPut r x).Canon := .ringBytes (.ringPad hs)
theorem State.Canon.ringAppend {r x} (hs : s.Canon) : (s.ringAppend r x).Canon := .ite (.ringPut (.setERing (.ite hs (.ringPut hs)))) (.inc (.setERing hs))
theorem State.Canon.rsBytes {k x} (hs : s.Canon) : (s.rsBytes k x).Canon := .setRs (.useFree hs)
theorem State.Canon.rsTake {k x} (hs : s.Canon) : (s.rsTake k x).Canon := .ite (.rsPump (.rsBytes (.setRs (.ite hs (.rsBytes hs))))) (.inc (.setRs hs))

theorem State.Canon.egress {x} (hs : s.Canon) : (s.egress x).Canon :=
  .foldl (fun _ h2 _ => .ite (.rsTake h2) h2) (.foldl (fun _ h1 _ => .ite (.ringAppend h1) h1) hs)

theorem State.Canon.ringMarker {r route} (hs : s.Canon) : (s.ringMarker r route).Canon := .ite (.ringAppend hs) hs
theorem State.Canon.tailReport {r} (hs : s.Canon) : (s.tailReport r).Canon := .ite (.setFld (.setERing (.when (.emit hs) fun h => .emit h))) hs

end Sys2Proof.Machine
end

section
/-! Junction queues: the stores stay canonical. -/
namespace Sys2Proof.Machine

variable {s : State}

theorem State.Canon.setJct {j x} (hs : s.Canon) : (s.setJct j x).Canon := ⟨.same hs⟩
theorem State.Canon.flitOut {j vc kind seq crVc pay} (hs : s.Canon) : (s.flitOut j vc kind seq crVc pay).Canon := .emit hs
theorem State.Canon.jctPump {j n} (hs : s.Canon) : (s.jctPump j n).Canon := by
  induction n generalizing s with
  | zero => exact hs
  | succ n ih =>
    unfold State.jctPump
    extract_lets
    split
    · exact .ite (ih (.setJct (.flitOut hs))) hs
    · exact hs

theorem State.Canon.jctQueue {j fs} (hs : s.Canon) : (s.jctQueue j fs).Canon := .jctPump (.setJct hs)
theorem State.Canon.jctMsg {j m} (hs : s.Canon) : (s.jctMsg j m).Canon := .jctQueue hs
theorem State.Canon.jctExport {j seg idx splice w ctap bytes row} (hs : s.Canon) : (s.jctExport j seg idx splice w ctap bytes row).Canon := .jctQueue hs
theorem State.Canon.ctlSend {m} (hs : s.Canon) : (s.ctlSend m).Canon := by
  unfold State.ctlSend
  split
  · exact .ite ⟨.same hs⟩ (.jctMsg hs)
  · exact ⟨.same hs⟩

theorem State.Canon.ctlTo {d b} (hs : s.Canon) : (s.ctlTo d b).Canon := .ctlSend hs

end Sys2Proof.Machine
end

section
/-! Transactions: the stores stay canonical. -/
namespace Sys2Proof.Machine

variable {s : State}

theorem State.Canon.setTx {t x} (hs : s.Canon) : (s.setTx t x).Canon := ⟨.same hs⟩
theorem State.Canon.wayPut {i v} (hs : s.Canon) : (s.wayPut i v).Canon := ⟨.same hs⟩
theorem State.Canon.wayState {i st} (hs : s.Canon) : (s.wayState i st).Canon := .wayPut hs
theorem State.Canon.wayStates {t st} (hs : s.Canon) : (s.wayStates t st).Canon := .foldl (fun _ h1 _ => .wayState h1) hs
theorem State.Canon.poolBack {t n} (hs : s.Canon) : (s.poolBack t n).Canon := .ite (.setFld hs) (.setFld hs)

theorem State.Canon.txFree {t} (hs : s.Canon) : (s.txFree t).Canon :=
  .setTx (.setFld (.when (.setFld (.setFld (.setFld (.poolBack (.foldl (fun _ h2 _ => .wayPut h2) ⟨.same hs⟩))))) fun h => .setFld h))

theorem State.Canon.coordCheck {c} (hs : s.Canon) : (s.coordCheck c).Canon := by
  unfold State.coordCheck
  extract_lets
  split
  · split
    · exact .reply ⟨.same hs⟩
    · exact .reply (.emit ⟨.same hs⟩)
  · exact hs

theorem State.Canon.coordDone {sysId d committed} (hs : s.Canon) : (s.coordDone sysId d committed).Canon := by
  unfold State.coordDone
  split
  · exact hs
  · exact .coordCheck ⟨.same hs⟩

theorem State.Canon.sysTell {t committed code} (hs : s.Canon) : (s.sysTell t committed code).Canon := by
  unfold State.sysTell
  extract_lets
  split
  · exact .ite (.ctlTo hs) (.ite hs (.ctlTo hs))
  · exact .ite (.coordDone hs) hs

theorem State.Canon.switchFail {t st} (hs : s.Canon) : (s.switchFail t st).Canon := by
  unfold State.switchFail
  extract_lets
  split
  · exact .ite ⟨.same (.reply (.setFld (.setFld hs)))⟩ hs
  · exact hs

theorem State.Canon.svcEnd {t st} (hs : s.Canon) : (s.svcEnd t st).Canon := by
  unfold State.svcEnd
  extract_lets
  split
  · extract_lets _ s2
    have h2 : s2.Canon := .when (.when (.switchFail hs) fun h => .setFld h) fun h => ⟨.same h⟩
    split
    · split
      · exact .reply ⟨.same h2⟩
      · exact ⟨.same h2⟩
    · exact h2
  · exact (.switchFail hs)

theorem State.Canon.txEnd {t st} (hs : s.Canon) : (s.txEnd t st).Canon := by
  unfold State.txEnd
  extract_lets _ _ s3
  have h3 : s3.Canon := .svcEnd (.setFld (.txFree (.sysTell hs)))
  split
  · exact .reply h3
  · exact h3

theorem State.Canon.txDone1 {t} (hs : s.Canon) : (s.txDone1 t).Canon := by
  unfold State.txDone1
  extract_lets _ _ _ s4
  have h4 : s4.Canon := .svcEnd (.txFree (.sysTell (.wayStates hs)))
  split
  · split
    · exact .reply h4
    · exact h4
  · exact hs

theorem State.Canon.txSettle (hs : s.Canon) : s.txSettle.Canon := .foldl (fun _ h1 _ => .txDone1 h1) hs
theorem State.Canon.commitTake {h v m} (hs : s.Canon) : (s.commitTake h v m).1.Canon := by
  unfold State.commitTake
  extract_lets
  split
  · exact ⟨.same hs⟩
  · split
    · exact ⟨.same hs⟩
    · exact hs

theorem State.Canon.maskWrite {a v m} (hs : s.Canon) : (s.maskWrite a v m).Canon := by
  unfold State.maskWrite
  split
  · split
    next s' v m he =>
      have hs' : s'.Canon := .ofPair he (.commitTake hs)
      exact .setReg hs'
    next s' he =>
      have hs' : s'.Canon := .ofPair he (.commitTake hs)
      exact hs'
  · exact hs

end Sys2Proof.Machine
end

section
/-! The reference chain: the stores stay canonical. -/
namespace Sys2Proof.Machine

variable {s : State}

theorem State.Canon.setRef {u x} (hs : s.Canon) : (s.setRef u x).Canon := ⟨.same hs⟩
theorem State.Canon.setConn {c x} (hs : s.Canon) : (s.setConn c x).Canon := ⟨.same hs⟩
theorem State.Canon.setCrew {u e x} (hs : s.Canon) : (s.setCrew u e x).Canon := ⟨.same hs⟩
theorem State.Canon.modSeg {c b p f} (hs : s.Canon) : (s.modSeg c b p f).Canon := .setConn hs
theorem State.Canon.modLine {c id f} (hs : s.Canon) : (s.modLine c id f).Canon := .setConn hs
theorem State.Canon.refSets {u} (hs : s.Canon) : (s.refSets u).Canon := .setFld (.setFld (.setFld (.setFld (.setRef hs))))
theorem State.Canon.latchEntry {u e} (hs : s.Canon) : (s.latchEntry u e).Canon := by
  unfold State.latchEntry
  split
  · exact .maskWrite hs
  · exact .foldl (fun _ h4 _ => .setCrew h4) (.logE (.when ⟨.same hs⟩ fun h => ⟨.same h⟩))
  · exact hs

theorem State.Canon.loadTile {t c m} (hs : s.Canon) : (s.loadTile t c m).Canon := .foldl (fun _ h2 _ => .writeWs h2) (.foldl (fun _ h1 _ => .writeWs h1) hs)
theorem State.Canon.placeCrew {u set e c} (hs : s.Canon) : (s.placeCrew u set e c).Canon := ⟨.same (.foldl (fun _ h1 _ => .loadTile h1) hs)⟩
theorem State.Canon.goldenCopy {from_ copy n} (hs : s.Canon) : (s.goldenCopy from_ copy n).Canon := .foldl (fun _ h1 _ => by
  split
  · exact .hbmWrite h1
  · exact h1) hs

theorem State.Canon.placeModel {u set e} (hs : s.Canon) : (s.placeModel u set e).Canon := by
  unfold State.placeModel
  split
  · exact .foldl (fun _ h2 _ => .placeCrew h2) (.foldl (fun _ h1 _ => .goldenCopy h1) hs)
  · exact hs

theorem State.Canon.latchSet {u b} (hs : s.Canon) : (s.latchSet u b).1.Canon := by
  unfold State.latchSet
  extract_lets _ s2 _ _ free
  have h2 : s2.Canon := .foldl (fun _ h1 _ => .latchEntry h1) hs
  split
  · exact .refSets (.txSettle (.pulse (.setFld (.setRef (.foldl (fun _ h3 _ => .placeModel h3) ⟨.same h2⟩)))))
  · clear_value free
    split
    · exact .refSets (.txSettle (.pulse (.setFld (.setRef (.foldl (fun _ h3 _ => .placeModel h3) ⟨.same h2⟩)))))
    · exact .setFld (.setFld hs)

theorem State.Canon.resStat {c} (hs : s.Canon) : (s.resStat c).Canon := .setFld (.setFld hs)
theorem State.Canon.gapRecord {c g line stamp flags final} (hs : s.Canon) : (s.gapRecord c g line stamp flags final).Canon := by
  unfold State.gapRecord
  exact .egress hs

theorem State.Canon.gapTry {c b p} (hs : s.Canon) : (s.gapTry c b p).Canon := by
  unfold State.gapTry
  split
  · extract_lets
    split
    · split
      · split
        · exact .modSeg (.gapRecord hs)
        · exact .ite (.modSeg hs) hs
      · exact .ite (.modSeg (.gapRecord hs)) hs
    · exact hs
  · exact hs

theorem State.Canon.release {c n} (hs : s.Canon) : (s.release c n).Canon := by
  induction n generalizing s with
  | zero => exact .resStat hs
  | succ n ih =>
    unfold State.release
    extract_lets
    split
    · exact .ite (ih (.refSets (.setConn hs))) (.resStat hs)
    · exact .resStat hs

theorem State.Canon.missGap {c id flags} (hs : s.Canon) : (s.missGap c id flags).Canon := by
  unfold State.missGap
  split
  · exact .ite (.egress hs) hs
  · exact hs

theorem State.Canon.deliver {u c o img spliced} (hs : s.Canon) : (s.deliver u c o img spliced).Canon := by
  unfold State.deliver
  extract_lets
  split
  · exact .ite hs (.refSets (.release (.gapTry (.when (.foldl (fun _ h5 _ => .modLine h5) (.egress ⟨.same (.foldl (fun _ h2 _ => .egress h2) (.foldl
      (fun _ h1 _ => .missGap h1) hs))⟩)) fun h => .modSeg h))))
  · exact hs

theorem State.Canon.tapSend {u t ct o idx l} (hs : s.Canon) : (s.tapSend u t ct o idx l).Canon :=
  .foldl (fun _ h1 _ => .ite (.foldl (fun _ h2 _ => .ite (.jctExport h2) (.setRef h2)) h1) h1) hs

theorem State.Canon.refTail {u c o group} (hs : s.Canon) : (s.refTail u c o group).Canon := by
  unfold State.refTail
  extract_lets
  split
  · exact .when (.unless (.ite hs (.tapSend hs)) fun h => .tapSend h) fun h => .deliver h

theorem State.Canon.splTail {u c o t l} (hs : s.Canon) : (s.splTail u c o t l).Canon :=
  .ite (.deliver (.tapSend hs)) (.unless (.tapSend hs) fun h => .deliver (.tapSend h))

theorem State.Canon.splGroup {u c ls} (hs : s.Canon) : (s.splGroup u c ls).Canon := by
  unfold State.splGroup
  extract_lets
  split
  · extract_lets
    split
    · exact .splTail (.setRef hs)
  · exact hs

theorem State.Canon.splAdd {u c l} (hs : s.Canon) : (s.splAdd u c l).Canon := .when (.setRef hs) fun h => .splGroup h
theorem State.Canon.splHead {u c o t l n} (hs : s.Canon) : (s.splHead u c o t l n).Canon := by
  induction n generalizing s o t l with
  | zero => exact hs
  | succ n ih =>
    unfold State.splHead
    extract_lets set g s1
    have h1 : s1.Canon := .tapSend hs
    exact .ite h1 (.ite (ih h1) (.ite (ih (.addSat h1)) (.splAdd h1)))

theorem State.Canon.splCut {u c b p} (hs : s.Canon) : (s.splCut u c b p).Canon := .foldl (fun _ h1 _ => .ite (.splGroup h1) h1) hs
theorem State.Canon.ilAdd {u c l} (hs : s.Canon) : (s.ilAdd u c l).Canon := by
  unfold State.ilAdd
  extract_lets
  split
  · split
    · split
      · exact .refTail (.setRef hs)
      · exact (.setRef hs)
    · exact .setRef hs
  · exact .release (.gapTry (.modLine (.inc hs)))

theorem State.Canon.ilCut {u c b p} (hs : s.Canon) : (s.ilCut u c b p).Canon := by
  unfold State.ilCut
  extract_lets _ ls
  clear_value ls
  split
  · exact .refTail (.setRef hs)
  · exact hs

theorem State.Canon.noiseOut {u} (hs : s.Canon) : (s.noiseOut u).Canon := by
  unfold State.noiseOut
  extract_lets
  split
  · exact hs
  · exact .setRef (.setReg (.foldl (fun _ h2 _ => .setReg (.setReg h2)) (.setReg (.setReg (.setReg hs)))))

theorem State.Canon.noiseT1 {u o phase l copy} (hs : s.Canon) : (s.noiseT1 u o phase l copy).Canon := .setRef (.ite hs (.noiseOut hs))
theorem State.Canon.refLine {u c m} (hs : s.Canon) : (s.refLine u c m).Canon := by
  unfold State.refLine
  extract_lets _ _ _ r
  split
  · extract_lets _ _ _ s4
    have h4 : s4.Canon := by
      unfold s4
      clear_value r
      split
      · exact .ite hs (.noiseT1 hs)
      · exact hs
    split
    · exact .ilAdd (.unless (.addSat (.unless (.unless (.modLine h4) fun h => .tapSend h) fun h => .tapSend h)) fun h => .tapSend h)

theorem State.Canon.lookInto {u m look copy} (hs : s.Canon) : (s.lookInto u m look copy).1.Canon := by
  unfold State.lookInto
  split
  · exact .addSat hs

theorem State.Canon.tnrEmit {u c m early} (hs : s.Canon) : (s.tnrEmit u c m early).Canon := .refLine (.setRef hs)
theorem State.Canon.lateLook {u c j n look copy again} (hs : s.Canon) : (s.lateLook u c j n look copy again).Canon := by
  unfold State.lateLook
  extract_lets
  split
  · exact hs
  · split
    · exact hs
    · split
      · exact .ite hs (.addSat hs)
      · split
        next s' m he =>
          have hs' : s'.Canon := .ofPair he (.lookInto hs)
          exact .ite (.tnrEmit hs') (.setRef hs')

theorem State.Canon.chainLine {u c l slot again} (hs : s.Canon) : (s.chainLine u c l slot again).Canon := by
  unfold State.chainLine
  extract_lets _ _ _ _ _ _ _ _ _ _ _ _ _ _ _ _ s17
  have h17 : s17.Canon := .unless (.modLine (.setRef (.ite hs (.tapSend hs)))) fun h => .foldl (fun _ h4 _ => .lateLook h4) h
  exact .ite (.tnrEmit h17) (.when h17 fun h => .foldl (fun _ h5 _ => by
    split
    · exact .lateLook h5
    · exact h5) h)

theorem State.Canon.flushSeg {u c b p} (hs : s.Canon) : (s.flushSeg u c b p).Canon := .splCut (.when (.foldl (fun _ h1 _ => .tnrEmit h1) hs) fun h => .ilCut h)
theorem State.Canon.flushIfDone {c b p moved} (hs : s.Canon) : (s.flushIfDone c b p moved).Canon := by
  unfold State.flushIfDone
  split
  · exact .ite (.when (.flushSeg hs) fun h => .noiseOut h) hs
  · exact hs

end Sys2Proof.Machine
end

section
/-! Segments: the stores stay canonical. -/
namespace Sys2Proof.Machine

variable {s : State}

theorem State.Canon.breakRuns {u} (hs : s.Canon) : (s.breakRuns u).Canon := .foldl (fun _ h1 _ => .setCrew h1) hs
theorem State.Canon.closeSeg {c short} (hs : s.Canon) : (s.closeSeg c short).Canon := by
  unfold State.closeSeg
  split
  · exact hs
  · exact .refSets (.release (.gapTry (.flushIfDone (.when (.setConn (.modSeg hs)) fun h => .breakRuns h))))

theorem State.Canon.openNew {c b n} (hs : s.Canon) : (s.openNew c b n).Canon := .setConn hs
theorem State.Canon.joinSeg {c b n} (hs : s.Canon) : (s.joinSeg c b n).Canon := by
  unfold State.joinSeg
  extract_lets
  split
  · exact .ite hs (.openNew (.closeSeg hs))
  · exact .openNew hs

theorem State.Canon.hardShoulder {c b p reason} (hs : s.Canon) : (s.hardShoulder c b p reason).Canon := by
  unfold State.hardShoulder
  extract_lets
  split
  · exact hs
  · exact .ite hs (.release (.gapTry (.breakRuns (.setRef (.modSeg hs)))))

theorem State.Canon.seamStat {u} (hs : s.Canon) : (s.seamStat u).Canon := .setFld (.setFld hs)
theorem State.Canon.startSeg {u c b p i} (hs : s.Canon) : (s.startSeg u c b p i).Canon := .when (.modSeg hs) fun h => .modSeg (.hardShoulder h)
theorem State.Canon.chainStep {u} (hs : s.Canon) : (s.chainStep u).Canon := by
  unfold State.chainStep
  extract_lets
  split
  · exact hs
  · split
    · exact hs
    · extract_lets _ _ _ q r
      have hq : q.1.Canon := by
        unfold q
        split
        · exact hs
        · exact .latchSet hs
      have hr : r.1.Canon := by
        unfold r
        split
        · exact hs
        · split
          · exact .startSeg hq
          · exact hq
      split
      · exact .seamStat (.refSets (.release (.flushIfDone (.modSeg (.chainLine hs)))))
      · split
        · exact .setRef (.setFld hs)
        · split
          · exact hr
          · exact .seamStat (.refSets (.flushIfDone (.chainLine hr)))

end Sys2Proof.Machine
end

section
/-! Aborts: the stores stay canonical. -/
namespace Sys2Proof.Machine

variable {s : State}

theorem State.Canon.haltTile {t cause banks} (hs : s.Canon) : (s.haltTile t cause banks).Canon := .setTState (.ite (.setFld (.setFld (.setFld hs))) hs)
theorem State.Canon.stopEntry {t x} (hs : s.Canon) : (s.stopEntry t x).Canon := by
  unfold State.stopEntry
  split
  · exact .useFree (.writeWs hs)
  · exact hs

theorem State.Canon.stopAsync {t} (hs : s.Canon) : (s.stopAsync t).Canon := .foldl (fun _ h1 _ => .sbPut (.stopEntry h1)) hs
theorem State.Canon.abortSlot {k z} (hs : s.Canon) : (s.abortSlot k z).Canon := .setFld (.setSlot hs)
theorem State.Canon.catStat (hs : s.Canon) : s.catStat.Canon := .setFld (.setFld (.setFld hs))
theorem State.Canon.catCancel {t} (hs : s.Canon) : (s.catCancel t).Canon := .catStat (.addSat (.foldl (fun _ h2 _ => .hbmWrite h2) ⟨.same hs⟩))

theorem State.Canon.abortTile {t} (hs : s.Canon) : (s.abortTile t).Canon :=
  .unless ⟨.same (.foldl (fun _ h3 _ => .abortSlot h3) (.catCancel (.stopAsync (.ite (.haltTile hs) hs))))⟩ fun h => .modTile h

theorem State.Canon.abortCrew {u e b p} (hs : s.Canon) : (s.abortCrew u e b p).Canon := by
  unfold State.abortCrew
  extract_lets
  split
  · exact .ite (.foldl (fun _ h1 _ => .abortTile h1) (.setCrew hs)) hs
  · exact hs

theorem State.Canon.segAbort {u b p reason} (hs : s.Canon) : (s.segAbort u b p reason).Canon := by
  unfold State.segAbort
  extract_lets s1
  have h1 : s1.Canon := .foldl (fun _ h1 _ => .abortCrew h1) hs
  split
  · exact .seamStat (.hardShoulder (.modSeg h1))
  · exact h1

theorem State.Canon.abortTaskOf {t} (hs : s.Canon) : (s.abortTaskOf t).Canon := by
  unfold State.abortTaskOf
  split
  · split
    · exact .segAbort hs
    · exact hs
  · exact hs

theorem State.Canon.tileFault {t cause banks} (hs : s.Canon) : (s.tileFault t cause banks).Canon := .abortTaskOf (.tell (.haltTile hs))
theorem State.Canon.abortReport (hs : s.Canon) : s.abortReport.Canon := .foldl (fun _ h1 _ => by
  split
  · exact .ite (.tell (.setCrew h1)) h1
  · exact h1) hs

end Sys2Proof.Machine
end

section
/-! Operators: the stores stay canonical. -/
namespace Sys2Proof.Machine

variable {s : State}

theorem State.Canon.accTerm {t isInt load i e} (hs : s.Canon) : (s.accTerm t isInt load i e).Canon := .accPut hs
theorem State.Canon.sweepLane {t g ws scs load vec x o} (hs : s.Canon) : (s.sweepLane t g ws scs load vec x o).Canon := .accTerm hs

theorem State.Canon.sweep {t g src ws scs load grp row col} (hs : s.Canon) : (s.sweep t g src ws scs load grp row col).Canon :=
  .foldl (fun _ h1 _ => .foldl (fun _ h2 _ => .sweepLane h2) h1) hs

theorem State.Canon.groupSweeps {t g p og} (hs : s.Canon) : (s.groupSweeps t g p og).Canon :=
  .foldl (fun _ h1 _ => .foldl (fun _ h2 _ => .sweep (.modTile h2)) h1) hs

theorem State.Canon.writeNv4 {t g lb base og x cs} (hs : s.Canon) : (s.writeNv4 t g lb base og x cs).Canon := by
  unfold State.writeNv4
  split
  · exact .when (.ite (.writeW hs) (.writeBits hs)) fun h => .writeBits h

theorem State.Canon.drainPos {t g p isInt og x0 bias x} (hs : s.Canon) : (s.drainPos t g p isInt og x0 bias x).Canon := by
  unfold State.drainPos
  extract_lets
  split
  · split
    · exact .addStats (.setGen (.writeNv4 hs))
  · split
    · exact .addStats (.setGen (.writeWs hs))

theorem State.Canon.drain {t g p isInt og x0 n} (hs : s.Canon) : (s.drain t g p isInt og x0 n).Canon := .foldl (fun _ h1 _ => .drainPos h1) hs
theorem State.Canon.accClear {t} (hs : s.Canon) : (s.accClear t).Canon := .modTile hs

theorem State.Canon.conv {t g p} (hs : s.Canon) : (s.conv t g p).Canon :=
  .foldl (fun _ h2 _ => .when (.groupSweeps h2) fun h => .drain h) (.ite (.accClear hs) hs)

theorem State.Canon.slipWindow {t g p x} (hs : s.Canon) : (s.slipWindow t g p x).Canon := .foldl (fun _ h1 _ => .modTile h1) hs

theorem State.Canon.slip {t g p} (hs : s.Canon) : (s.slip t g p).Canon :=
  .when (.unless (.foldl (fun _ h2 _ => .foldl (fun _ h3 _ => .accTerm h3) h2) (.ite (.accClear hs) hs)) fun h => .slipWindow h) fun h => .drain h

theorem State.Canon.pool {t g p} (hs : s.Canon) : (s.pool t g p).Canon :=
  .foldl (fun _ h1 _ => .when (.foldl (fun _ h2 _ => .foldl (fun _ h3 _ => .accPut h3) h2) h1) fun h => .drain h) hs

theorem State.Canon.ewVec {t w x} (hs : s.Canon) : (s.ewVec t w x).Canon := by
  unfold State.ewVec
  extract_lets
  split
  · split
    · split
      · exact .addStats (.setGen (.when (.writeBits hs) fun h => .writeBits h))
  · split
    · split
      · exact .addStats (.setGen (.writeWs hs))
    · exact .writeWs hs

theorem State.Canon.ew {t w} (hs : s.Canon) : (s.ew t w).Canon := .when (.foldl (fun _ h1 _ => .ewVec h1) hs) fun h => ⟨.same h⟩
theorem State.Canon.rqPos {t w x} (hs : s.Canon) : (s.rqPos t w x).Canon := by
  unfold State.rqPos
  extract_lets
  split
  · split
    · split
      · exact .addStats (.setGen (.writeBits (.writeW hs)))
  · split
    · split
      · exact .addStats (.setGen (.writeWs hs))
    · exact .writeWs hs

theorem State.Canon.rq {t w} (hs : s.Canon) : (s.rq t w).Canon := .foldl (fun _ h1 _ => .rqPos h1) hs

end Sys2Proof.Machine
end

section
/-! Issue of words: the stores stay canonical. -/
namespace Sys2Proof.Machine

variable {s : State}

theorem State.Canon.fetchGroup {t g} (hs : s.Canon) : (s.fetchGroup t g).Canon := by
  unfold State.fetchGroup
  exact .modTile hs

theorem State.Canon.enterPc {t pc} (hs : s.Canon) : (s.enterPc t pc).Canon := .when (.unless (.modTile hs) fun h => .fetchGroup h) fun h => .fetchGroup h
theorem State.Canon.afterWord {t i fs} (hs : s.Canon) : (s.afterWord t i fs).Canon := by
  induction fs generalizing s with
  | nil => exact .enterPc (.modTile hs)
  | cons f fs ih => exact .ite (.ite (.enterPc (.modTile (.setG hs))) (ih (.setG hs))) (.enterPc (.modTile hs))

theorem State.Canon.nextWord {t} (hs : s.Canon) : (s.nextWord t).Canon := .afterWord hs
theorem State.Canon.awaitMs {t n} (hs : s.Canon) : (s.awaitMs t n).Canon := by
  unfold State.awaitMs
  extract_lets
  split
  · exact .setTState ⟨.same hs⟩
  · exact hs

theorem State.Canon.issueWord {t op names effect} (hs : s.Canon) (hf : ∀ u, State.Canon u → ∀ w, (effect u w).Canon) :
    (s.issueWord t op names effect).Canon := by
  unfold State.issueWord
  extract_lets
  refine .ite hs (.ite (.ite hs (.tell (.setTState hs))) (.ite hs ?_))
  split
  · exact .tileFault hs
  · exact .ite (.tileFault (.inc hs)) (.ite (.setTState hs) (.ite (.awaitMs hs) (hf _ (.setTState hs) _)))

theorem State.Canon.issueNext {t op names effect} (hs : s.Canon) (hf : ∀ u, State.Canon u → ∀ w, (effect u w).Canon) :
    (s.issueNext t op names effect).Canon := .issueWord hs fun u hu w => .nextWord (hf u hu w)

end Sys2Proof.Machine
end

section
/-! Routes: the stores stay canonical. -/
namespace Sys2Proof.Machine

variable {s : State}

theorem execRouteNop_canon {dt t} (hs : s.Canon) : Answer.Canon (execRouteNop dt t s) := .next (.issueNext (.tick hs) (fun _ h1 _ => h1))
theorem State.Canon.crewStats {t m0} (hs : s.Canon) : (s.crewStats t m0).Canon := .addSat (.addSat (.addSat (.addSat hs)))
theorem State.Canon.holdRefresh (hs : s.Canon) : s.holdRefresh.Canon := .foldl (fun _ h1 _ => .setFld h1) hs
theorem State.Canon.partDone {t} (hs : s.Canon) : (s.partDone t).Canon := by
  unfold State.partDone
  split
  · exact hs
  · extract_lets
    split
    · exact hs
    · extract_lets _ _ s3 _ _ s6
      have h3 : s3.Canon := .foldl (fun _ h1 _ => .crewStats h1) hs
      have h6 : s6.Canon := by
        unfold s6
        split
        · exact .refSets (.release (.modSeg (.setCrew h3)))
        · exact (.setCrew h3)
      exact .ite (.holdRefresh h6) (.setCrew hs)

theorem execHalt_canon {dt t} (hs : s.Canon) : Answer.Canon (execHalt dt t s) :=
  .next (.issueWord (.tick hs) (fun _ h1 _ => .partDone (.setTState (.modTile (.foldl (fun _ h2 _ => .slotClose h2) h1)))))

theorem execSetg_canon {dt t} (hs : s.Canon) : Answer.Canon (execSetg dt t s) := .next (.issueNext (.tick hs) (fun _ h1 _ => .setG h1))
theorem execAlu_canon {dt t} (hs : s.Canon) : Answer.Canon (execAlu dt t s) := .next (.issueNext (.tick hs) (fun _ h1 _ => by
  split
  · exact .setG h1
  · exact .useFree (.setG h1)))

theorem execLoop_canon {dt t} (hs : s.Canon) : Answer.Canon (execLoop dt t s) :=
  .next (.issueWord (.tick hs) (fun _ h1 _ => .ite (.afterWord h1) (.enterPc (.modTile (.setG h1)))))

theorem execBr_canon {dt t} (hs : s.Canon) : Answer.Canon (execBr dt t s) := .next (.issueWord (.tick hs) (fun _ h1 _ => by
  extract_lets
  split
  next s' go he =>
    have hs' : s'.Canon := .ofPair he (by
      split
      · exact h1
      · exact .useFree h1)
    exact .ite (.enterPc hs') (.nextWord hs')))

theorem execCfg_canon {dt t} (hs : s.Canon) : Answer.Canon (execCfg dt t s) := .next (.issueNext (.tick hs) (fun _ h1 _ => .modTile h1))
theorem execRing_canon {dt t} (hs : s.Canon) : Answer.Canon (execRing dt t s) := .next (.issueNext (.tick hs) (fun _ h1 _ => .setRing h1))
theorem execSeed_canon {dt t} (hs : s.Canon) : Answer.Canon (execSeed dt t s) := .next (.issueNext (.tick hs) (fun _ h1 _ => .setGen h1))
theorem execConv_canon {dt t} (hs : s.Canon) : Answer.Canon (execConv dt t s) := .next (.issueNext (.tick hs) (fun _ h1 _ => .conv h1))
theorem execMat_canon {dt t} (hs : s.Canon) : Answer.Canon (execMat dt t s) := .next (.issueNext (.tick hs) (fun _ h1 _ => .conv h1))
theorem execSlip_canon {dt t} (hs : s.Canon) : Answer.Canon (execSlip dt t s) := .next (.issueNext (.tick hs) (fun _ h1 _ => .slip h1))
theorem execPool_canon {dt t} (hs : s.Canon) : Answer.Canon (execPool dt t s) := .next (.issueNext (.tick hs) (fun _ h1 _ => .pool h1))
theorem execEw_canon {dt t} (hs : s.Canon) : Answer.Canon (execEw dt t s) := .next (.issueNext (.tick hs) (fun _ h1 _ => .ew h1))
theorem execRq_canon {dt t} (hs : s.Canon) : Answer.Canon (execRq dt t s) := .next (.issueNext (.tick hs) (fun _ h1 _ => .rq h1))
theorem execClracc_canon {dt t} (hs : s.Canon) : Answer.Canon (execClracc dt t s) := .next (.issueNext (.tick hs) (fun _ h1 _ => .accClear h1))
theorem execLdg_canon {dt t} (hs : s.Canon) : Answer.Canon (execLdg dt t s) := .next (.issueNext (.tick hs) (fun _ h1 _ => .setG h1))
theorem execStg_canon {dt t} (hs : s.Canon) : Answer.Canon (execStg dt t s) := .next (.issueNext (.tick hs) (fun _ h1 _ => .writeBits h1))
theorem execFill_canon {dt t} (hs : s.Canon) : Answer.Canon (execFill dt t s) := .next (.issueNext (.tick hs) (fun _ h1 _ => .sbAlloc h1))
theorem execCopy_canon {dt t} (hs : s.Canon) : Answer.Canon (execCopy dt t s) := .next (.issueNext (.tick hs) (fun _ h1 _ => .sbAlloc (.sbAlloc h1)))
theorem execTbl_canon {dt t} (hs : s.Canon) : Answer.Canon (execTbl dt t s) := .next (.issueNext (.tick hs) (fun _ h1 _ => .sbAlloc h1))
theorem execSend_canon {dt t} (hs : s.Canon) : Answer.Canon (execSend dt t s) := .next (.issueNext (.tick hs) (fun _ h1 _ => .sbAlloc h1))
theorem execRbsend_canon {dt t} (hs : s.Canon) : Answer.Canon (execRbsend dt t s) := .next (.issueNext (.tick hs) (fun _ h1 _ => .sbAlloc h1))
theorem execCatreq_canon {dt t} (hs : s.Canon) : Answer.Canon (execCatreq dt t s) := .next (.issueNext (.tick hs) (fun _ h1 _ => .sbAlloc h1))
theorem execSopen_canon {dt t} (hs : s.Canon) : Answer.Canon (execSopen dt t s) := .next (.issueNext (.tick hs) (fun _ h1 _ => .modTile (.slotOpen h1)))

theorem execSget_canon {dt t} (hs : s.Canon) : Answer.Canon (execSget dt t s) :=
  .next (.issueNext (.tick hs) (fun _ h1 _ => .unless (.setSlot h1) fun h => .sbAlloc h))

theorem execSrel_canon {dt t} (hs : s.Canon) : Answer.Canon (execSrel dt t s) := .next (.issueNext (.tick hs) (fun _ h1 _ => .setSlot h1))
theorem execSput_canon {dt t} (hs : s.Canon) : Answer.Canon (execSput dt t s) := .next (.issueNext (.tick hs) (fun _ h1 _ => .sbAlloc (.slotAnnounce h1)))
theorem execSclose_canon {dt t} (hs : s.Canon) : Answer.Canon (execSclose dt t s) := .next (.issueNext (.tick hs) (fun _ h1 _ => .modTile (.slotClose h1)))
theorem execGiveway_canon {dt t} (hs : s.Canon) : Answer.Canon (execGiveway dt t s) := .next (.issueNext (.tick hs) (fun _ h1 _ => .slotRefresh (.setSlot h1)))
theorem execConvoy_canon {dt t} (hs : s.Canon) : Answer.Canon (execConvoy dt t s) := .next (.issueNext (.tick hs) (fun _ h1 _ => .modTile h1))
theorem execArrive_canon {dt t} (hs : s.Canon) : Answer.Canon (execArrive dt t s) := .next (.issueNext (.tick hs) (fun _ h1 _ => .sendArrival h1))
theorem execWait_canon {dt t} (hs : s.Canon) : Answer.Canon (execWait dt t s) := .next (.issueNext (.tick hs) (fun _ h1 _ => h1))

end Sys2Proof.Machine
end

section
/-! Row buses: the stores stay canonical. -/
namespace Sys2Proof.Machine

variable {s : State}

theorem State.Canon.meshSend {p} (hs : s.Canon) : (s.meshSend p).Canon := .ite (.modTile hs) hs
theorem State.Canon.landRow {t ring planes row ws} (hs : s.Canon) : (s.landRow t ring planes row ws).Canon := .foldl (fun _ h1 _ => .writeRingRow h1) hs
theorem State.Canon.forwardRow {t ring ch planes row ws} (hs : s.Canon) : (s.forwardRow t ring ch planes row ws).Canon := .ite (.meshSend hs) hs
theorem State.Canon.dropExport {u e set b p n idx} (hs : s.Canon) : (s.dropExport u e set b p n idx).Canon := .ite hs ⟨.same hs⟩
theorem execFeederRow_canon {dt u e} (hs : s.Canon) : Answer.Canon (execFeederRow dt u e s) := by
  unfold execFeederRow
  extract_lets
  split
  · split
    · split
      · extract_lets
        split
        · split
          · exact .next (.seamStat (.dropExport (.setCrew (.setRef (.foldl (fun _ h2 _ => .forwardRow (.rxBytes (.landRow h2))) (.tick hs))))))
          · exact .next (.tick hs)
        · exact .next (.tick hs)
      · exact .next (.tick hs)
    · exact .next (.tick hs)
  · exact .next (.tick hs)

theorem State.Canon.busDrive {t ch row ring planes bytes ws} (hs : s.Canon) : (s.busDrive t ch row ring planes bytes ws).Canon :=
  ⟨.same (.foldl (fun _ h1 _ => .forwardRow (.unless (.landRow h1) fun h => .rxBytes h)) hs)⟩

theorem State.Canon.badBlock {t} (hs : s.Canon) : (s.badBlock t).Canon := .tell (.setFld (.inc hs))
theorem execRowBusRow_canon {dt t e bad} (hs : s.Canon) : Answer.Canon (execRowBusRow dt t e bad s) := by
  unfold execRowBusRow
  extract_lets
  split
  · exact .ite (.next (.sbPut (.busDrive (.when (.tick hs) fun h => .foldl (fun _ h2 _ => .badBlock h2) h)))) (.next (.tick hs))
  · exact .next (.tick hs)

theorem State.Canon.badPacket {t} (hs : s.Canon) : (s.badPacket t).Canon := .badBlock hs

theorem State.Canon.landWords {t p ww} (hs : s.Canon) : (s.landWords t p ww).Canon :=
  .unless (.foldl (fun _ h1 _ => .ite h1 (.writeW h1)) hs) fun h => .addSat (.setFld h)

theorem State.Canon.packetIn {t p bad ww u} (hs : s.Canon) (he : s.packetIn t p bad ww = some u) : u.Canon := by
  unfold State.packetIn at he
  split at he
  · exact Option.some.inj he ▸ .badPacket hs
  · split at he
    · split at he
      · split at he
        · exact Option.some.inj he ▸ .busDrive (.rxBytes hs)
        · exact absurd he nofun
      · split at he
        · exact Option.some.inj he ▸ hs
        · split at he
          · exact Option.some.inj he ▸ .rxBytes (.landRow hs)
          · exact absurd he nofun
    · have hin : (if p.msEn then ((s.landWords t p ww).rxBytes t (wireBytes p.zc p.words)).sendArrival t p.ms 1
          else (s.landWords t p ww).rxBytes t (wireBytes p.zc p.words)).Canon := .when (.rxBytes (.landWords hs)) fun h => .sendArrival h
      dsimp only at he
      split at he
      · exact Option.some.inj he ▸ .meshSend hin
      · exact Option.some.inj he ▸ hin

theorem execMeshPacketArrive_canon {dt t src bad ww} (hs : s.Canon) : Answer.Canon (execMeshPacketArrive dt t src bad ww s) := by
  unfold execMeshPacketArrive
  extract_lets
  split
  · split
    next s' he =>
      have hs' : s'.Canon := .packetIn (.tick hs) he
      exact .next (.modTile hs')
    · exact .next (.tick hs)
  · exact .next (.tick hs)

theorem State.Canon.asyncEnd {t x u} (hs : s.Canon) (he : s.asyncEnd t x = some u) : u.Canon := by
  unfold State.asyncEnd at he
  split at he
  · exact Option.some.inj he ▸ .writeWs hs
  · exact Option.some.inj he ▸ .modTile hs
  · exact Option.some.inj he ▸ .meshSend hs
  · split at he
    · exact Option.some.inj he ▸ .catStat ⟨.same hs⟩
    · exact absurd he nofun
  · split at he
    · obtain ⟨f, -, hf⟩ := Option.map_eq_some_iff.1 he
      exact hf ▸ .meshSend hs
    · exact absurd he nofun
  · exact Option.some.inj he ▸ hs
  · exact absurd he nofun
  · exact absurd he nofun

theorem execScoreboardRetire_canon {dt t e} (hs : s.Canon) : Answer.Canon (execScoreboardRetire dt t e s) := by
  unfold execScoreboardRetire
  extract_lets
  split
  · split
    next s' he =>
      have hs' : s'.Canon := .asyncEnd (.tick hs) he
      exact .next (.sbPut hs')
    · exact .next (.tick hs)
  · exact .next (.tick hs)

end Sys2Proof.Machine
end

section
/-! Control of tiles: the stores stay canonical. -/
namespace Sys2Proof.Machine

variable {s : State}

theorem State.Canon.repairPut {p es} (hs : s.Canon) : (s.repairPut p es).Canon := ⟨.same hs⟩
theorem State.Canon.laybyFree (hs : s.Canon) : s.laybyFree.Canon := .setFld hs

theorem State.Canon.retireTile {t cause} (hs : s.Canon) : (s.retireTile t cause).Canon :=
  .laybyFree (.abortReport (.repairPut (.setFld (.modTile (.setTState (.ite (.abortTaskOf (.stopAsync (.haltTile hs))) hs))))))

theorem State.Canon.ctlReset {r t} (hs : s.Canon) : (s.ctlReset r t).Canon := .ite (.modTile hs) (.aelReg hs)
theorem State.Canon.rngLoad {t} (hs : s.Canon) : (s.rngLoad t).Canon := .setGen hs
theorem State.Canon.ctlRng {r t} (hs : s.Canon) : (s.ctlRng r t).Canon := .ite (.rngLoad hs) (.aelReg hs)
theorem State.Canon.ctlExc {t} (hs : s.Canon) : (s.ctlExc t).Canon := .setReg (.setReg hs)
theorem State.Canon.ctlHalt {t} (hs : s.Canon) : (s.ctlHalt t).Canon := .ite (.tileFault (.stopAsync hs)) hs
theorem execSoftReset_canon {dt r t} (hs : s.Canon) : Answer.Canon (execSoftReset dt r t s) := .next (.accessing (.tick hs) (fun _ => .ctlReset (.tick hs)))
theorem State.Canon.softReset {t} (hs : s.Canon) : (s.softReset t).Canon := .setTState (.ctlExc (.setFld (.modTile (.ite hs (.setFld (.addSat hs))))))

theorem execSoftResetComplete_canon {dt t} (hs : s.Canon) : Answer.Canon (execSoftResetComplete dt t s) :=
  .ite (.next (.laybyFree (.abortReport (.softReset (.tick hs))))) (.next (.tick hs))

theorem execRngLoad_canon {dt r t} (hs : s.Canon) : Answer.Canon (execRngLoad dt r t s) := .next (.accessing (.tick hs) (fun _ => .ctlRng (.tick hs)))
theorem execExcClr_canon {dt r t} (hs : s.Canon) : Answer.Canon (execExcClr dt r t s) := .next (.accessing (.tick hs) (fun _ => .ctlExc (.tick hs)))
theorem execHaltReq_canon {dt r t} (hs : s.Canon) : Answer.Canon (execHaltReq dt r t s) := .next (.accessing (.tick hs) (fun _ => .ctlHalt (.tick hs)))
theorem State.Canon.rateWrite {t cycles ready} (hs : s.Canon) : (s.rateWrite t cycles ready).Canon := .setFld (.setFld (.setFld hs))
theorem State.Canon.judgeCrew {k ws} (hs : s.Canon) : (s.judgeCrew k ws).Canon := by
  unfold State.judgeCrew
  extract_lets
  split
  · exact hs
  · exact .foldl (fun _ h2 _ => .tell h2) (.setCrew hs)

theorem execTileRateWindow_canon {dt w} (hs : s.Canon) : Answer.Canon (execTileRateWindow dt w s) :=
  .next (.foldl (fun _ h3 _ => .judgeCrew h3) (.foldl (fun _ h2 _ => .rateWrite h2) (.tick hs)))

theorem execTileSenseConvert_canon {dt t temp volt} (hs : s.Canon) : Answer.Canon (execTileSenseConvert dt t temp volt s) :=
  .ite (.next (.tick hs)) (.next (.setFld (.setFld (.setFld (.setCal (.setCal (.tick hs)))))))

theorem State.Canon.dbgPut {t v} (hs : s.Canon) : (s.dbgPut t v).Canon := by
  unfold State.dbgPut
  extract_lets sp
  clear_value sp
  split
  · exact .writeBits hs
  · exact .modTile hs
  · exact .writeBits hs
  · exact .modTile hs

theorem State.Canon.dbgStep {t} (hs : s.Canon) : (s.dbgStep t).Canon := .setFld hs
theorem State.Canon.dbgAccess {r t wr} (hs : s.Canon) : (s.dbgAccess r t wr).1.Canon := by
  unfold State.dbgAccess
  split
  · split
    · exact .dbgStep (.dbgPut hs)
    · exact .dbgStep hs
  · exact .aelReg hs

theorem execTileDbgDataAccess_canon {dt r t wr} (hs : s.Canon) : Answer.Canon (execTileDbgDataAccess dt r t wr s) := by
  unfold execTileDbgDataAccess
  extract_lets
  split
  · exact .next (.when (.aelReg (.tick hs)) fun h => .emit h)
  · split
    next s' d he =>
      have hs' : s'.Canon := .ofPair he (.dbgAccess (.tick hs))
      exact .next (.ite (.emit hs') hs')

theorem State.Canon.mapRecord {t i} (hs : s.Canon) : (s.mapRecord t i).Canon := .repairPut hs

theorem State.Canon.mapWrite {t i v} (hs : s.Canon) : (s.mapWrite t i v).Canon :=
  .when (.mapRecord (.setReg (.ite (.foldl (fun _ h1 _ => .ite (.mapRecord (.setFld h1)) h1) hs) hs))) fun h => .retireTile h

theorem execTileMapWrite_canon {dt r t i data} (hs : s.Canon) : Answer.Canon (execTileMapWrite dt r t i data s) :=
  .next (.accessing (.tick hs) (fun _ => .mapWrite (.tick hs)))

end Sys2Proof.Machine
end

section
/-! Crews: the stores stay canonical. -/
namespace Sys2Proof.Machine

variable {s : State}

theorem State.Canon.haloAbort {u n} (hs : s.Canon) : (s.haloAbort u n).Canon := by
  induction n generalizing s with
  | zero => exact hs
  | succ n ih =>
    unfold State.haloAbort
    split
    · exact ih (.abortReport (.segAbort (.setFld hs)))
    · exact hs

theorem execChainLineStart_canon {dt u} (hs : s.Canon) : Answer.Canon (execChainLineStart dt u s) := .next (.haloAbort (.chainStep (.tick hs)))

theorem execNoiseFit_canon {dt u} (hs : s.Canon) : Answer.Canon (execNoiseFit dt u s) :=
  .ite (.ite (.next ⟨.same (.setFld (.setFld (.setFld (.setFld (.tick hs)))))⟩) (.ite (.next (.setFld (.tick hs))) (.next (.tick hs)))) (.next (.tick hs))

theorem execRefSlotWaitEnd_canon {dt u} (hs : s.Canon) : Answer.Canon (execRefSlotWaitEnd dt u s) :=
  .ite (.next (.setFld (.refSets (.tick hs)))) (.next (.refSets (.tick hs)))

theorem State.Canon.tabAccess {r u wr} (hs : s.Canon) : (s.tabAccess r u wr).1.Canon := by
  unfold State.tabAccess
  extract_lets
  split
  · exact (.setFld hs)
  · split
    · exact .aelReg (.setFld hs)
    · exact ⟨.same (.setFld hs)⟩

theorem execRefTabDataAccess_canon {dt r u wr} (hs : s.Canon) : Answer.Canon (execRefTabDataAccess dt r u wr s) := by
  unfold execRefTabDataAccess
  extract_lets
  split
  · exact .next (.when (.aelReg (.tick hs)) fun h => .emit h)
  · split
    next s' d he =>
      have hs' : s'.Canon := .ofPair he (.tabAccess (.tick hs))
      exact .next (.ite (.emit hs') hs')

theorem State.Canon.rowRecords {u c k o st ch b8 cols} (hs : s.Canon) : (s.rowRecords u c k o st ch b8 cols).Canon := by
  unfold State.rowRecords
  extract_lets _ s2
  have h2 : s2.Canon := by
    unfold s2
    split
    · exact .foldl (fun _ h1 _ => .egress h1) hs
    · exact hs
  exact .egress h2

theorem State.Canon.spliceIn {u c k o b8 cols} (hs : s.Canon) : (s.spliceIn u c k o b8 cols).Canon := .ite (.splHead hs) (.splTail hs)
theorem State.Canon.rowWhole {u c k g l r} (hs : s.Canon) : (s.rowWhole u c k g l r).Canon := .when (.modSeg (.rowRecords hs)) fun h => .spliceIn h
theorem execTapReturnRow_canon {dt u e seg n ch row poison} (hs : s.Canon) : Answer.Canon (execTapReturnRow dt u e seg n ch row poison s) := by
  unfold execTapReturnRow
  extract_lets
  split
  · exact .next (.tick hs)
  · extract_lets
    split
    · exact .next (.tick hs)
    · split
      · exact .next (.abortReport (.segAbort (.tick hs)))
      · split
        · exact .next (.tick hs)
        · exact .ite (.next (.setFld (.tick hs))) (.next (.seamStat (.when (.setRef (.tick hs)) fun h => .rowWhole h)))

theorem State.Canon.detourCheck {t} (hs : s.Canon) : (s.detourCheck t).Canon := by
  unfold State.detourCheck
  split
  · exact .ite hs (.ite (.laybyFree (.repairPut (.setReg hs))) (.laybyFree hs))
  · exact hs

theorem State.Canon.crewEntry {u e a} (hs : s.Canon) : (s.crewEntry u e a).Canon := by
  unfold State.crewEntry
  extract_lets
  split
  · extract_lets
    split
    · exact .when (.maskWrite hs) fun h => .detourCheck h
    · exact (.maskWrite hs)
  · exact .setCrew hs
  · extract_lets _ _ s3 s4
    have h3 : s3.Canon := by
      unfold s3
      split
      · exact .setReg (.setReg (.setReg hs))
      · exact (.setReg (.setReg hs))
    have h4 : s4.Canon := by
      unfold s4
      split
      · exact .loadTile h3
      · exact h3
    exact .laybyFree (.setCrew (.repairPut h4))
  · exact hs

theorem State.Canon.crewApply {u e b} (hs : s.Canon) : (s.crewApply u e b).Canon := .ite hs (.txSettle ⟨.same (.foldl (fun _ h1 _ => .crewEntry h1) hs)⟩)
theorem State.Canon.runReset {ms} (hs : s.Canon) : (s.runReset ms).Canon := .foldl (fun _ h1 _ => .setFld (.setFld (.setFld h1))) hs
theorem State.Canon.startTile {t d} (hs : s.Canon) : (s.startTile t d).Canon := by
  unfold State.startTile
  exact .enterPc (.setTState (.rngLoad (.setReg (.setReg (.modTile hs)))))

theorem State.Canon.readyCrew {u e} (hs : s.Canon) : (s.readyCrew u e).1.Canon := by
  unfold State.readyCrew
  split
  · extract_lets
    split
    · exact hs
    · split
      · exact .holdRefresh hs
      · exact .crewApply hs
  · exact hs

theorem State.Canon.runStart {u e parts ms} (hs : s.Canon) : (s.runStart u e parts ms).Canon := .setCrew ⟨.same (.runReset hs)⟩
theorem State.Canon.dispatch {u e open_} (hs : s.Canon) : (s.dispatch u e open_).Canon := by
  unfold State.dispatch
  split
  next s' he =>
    have hs' : s'.Canon := .ofPair he (.readyCrew hs)
    exact hs'
  next s' fst g set he =>
    have hs' : s'.Canon := .ofPair he (.readyCrew hs)
    extract_lets
    split
    · exact .abortReport (.tell (.segAbort hs'))
    · split
      · exact hs'
      · exact .ite hs' (.holdRefresh (.laybyFree (.setCrew (.foldl (fun _ h3 _ => .startTile h3) (.ite (.runStart hs') hs')))))

theorem execTaskDispatch_canon {dt u e lines} (hs : s.Canon) : Answer.Canon (execTaskDispatch dt u e lines s) := .next (.dispatch (.tick hs))
theorem execRunReset_canon {dt u e} (hs : s.Canon) : Answer.Canon (execRunReset dt u e s) := by
  unfold execRunReset
  extract_lets
  split
  next s' he =>
    have hs' : s'.Canon := .ofPair he (.readyCrew (.tick hs))
    exact .next hs'
  next s' fst fst set he =>
    have hs' : s'.Canon := .ofPair he (.readyCrew (.tick hs))
    extract_lets
    split
    · exact .ite (.next (.runStart hs')) (.next hs')
    · exact .next hs'

theorem State.Canon.carry {a b rs} (hs : s.Canon) : (s.carry a b rs).Canon := by
  unfold State.carry
  exact .modTile (.foldl (fun _ h1 _ => .writeWs h1) hs)

theorem execDetourCopyComplete_canon {dt u e lines} (hs : s.Canon) : Answer.Canon (execDetourCopyComplete dt u e lines s) := by
  unfold execDetourCopyComplete
  extract_lets
  split
  · split
    · split
      · exact .next (.dispatch (.setCrew (.foldl (fun _ h2 _ => .ite (.carry h2) h2) (.tick hs))))
    · exact .next (.tick hs)
  · exact .next (.tick hs)

theorem execSeamSendWaitEnd_canon {dt u} (hs : s.Canon) : Answer.Canon (execSeamSendWaitEnd dt u s) :=
  .ite (.next (.seamStat (.setRef (.tick hs)))) (.next (.tick hs))

theorem State.Canon.exportIn {port splice seg idx row} (hs : s.Canon) : (s.exportIn port splice seg idx row).Canon := .ite hs ⟨.same hs⟩

theorem execExportRowReceived_canon {dt port splice seg idx row} (hs : s.Canon) : Answer.Canon (execExportRowReceived dt port splice seg idx row s) :=
  .ite (.next (.exportIn (.tick hs))) (.next (.tick hs))

end Sys2Proof.Machine
end

section
/-! Milestones: the stores stay canonical. -/
namespace Sys2Proof.Machine

variable {s : State}

theorem State.Canon.txCommit {t} (hs : s.Canon) : (s.txCommit t).Canon := .wayStates (.setFld (.setTx ⟨.same hs⟩))

theorem State.Canon.txBoundary {b} (hs : s.Canon) : (s.txBoundary b).Canon :=
  .foldl (fun _ h2 _ => .txEnd h2) (.foldl (fun _ h1 _ => .ite (.txEnd h1) (.txCommit h1)) hs)

theorem State.Canon.msFire {m} (hs : s.Canon) : (s.msFire m).Canon := .setFld (.when (.setFld hs) fun h => .pulse h)
theorem State.Canon.release1 {w} (hs : s.Canon) : (s.release1 w).Canon := by
  unfold State.release1
  split
  · exact .ite (.txCommit hs) hs
  · exact .when (.modTile ⟨.same hs⟩) fun h => .setTState h
  · exact .reply ⟨.same hs⟩

theorem State.Canon.msRelease {m} (hs : s.Canon) : (s.msRelease m).Canon := .foldl (fun _ h1 _ => .release1 h1) hs

theorem State.Canon.msApply {m f} (hs : s.Canon) (hf : ∀ u, State.Canon u → (f u).Canon) : (s.msApply m f).Canon :=
  .msRelease (.when (hf _ hs) fun h => .msFire h)

theorem State.Canon.msArrive {m n} (hs : s.Canon) : (s.msArrive m n).Canon := .ite hs (.msApply (.ite (.inc hs) hs) (fun _ h2 => .setFld h2))
theorem State.Canon.arrGot {path m} (hs : s.Canon) : (s.arrGot path m).Canon := ⟨.same hs⟩
theorem State.Canon.msArriveBy {path m n} (hs : s.Canon) : (s.msArriveBy path m n).Canon := .msArrive (.arrGot ⟨.same hs⟩)
theorem State.Canon.msSet {m count target stride evt} (hs : s.Canon) : (s.msSet m count target stride evt).Canon := by
  refine .msApply hs fun u hu => ?_
  extract_lets put
  have hput {v f o} (hv : State.Canon v) : (put v f o).Canon := by
    cases o with
    | none => exact hv
    | some x => exact .setFld hv
  exact .setFld (hput (hput (hput (hput hu))))

theorem State.Canon.msAdvance {m} (hs : s.Canon) : (s.msAdvance m).Canon := .msApply hs (fun _ h1 => .setFld h1)
theorem execMsArrivalApply_canon {dt path} (hs : s.Canon) : Answer.Canon (execMsArrivalApply dt path s) := by
  unfold execMsArrivalApply
  extract_lets
  split
  · exact .next (.msArrive (.arrGot ⟨.same (.tick hs)⟩))
  · exact .next (.tick hs)

theorem State.Canon.msRegWrite {r reg m v} (hs : s.Canon) : (s.msRegWrite r reg m v).Canon := by
  unfold State.msRegWrite
  split
  · split
    · exact .msSet hs
    · exact .msSet hs
    · exact .msSet hs
  · exact .inc (.aelReg hs)

theorem execMsRegisterSet_canon {dt r k m v} (hs : s.Canon) : Answer.Canon (execMsRegisterSet dt r k m v s) :=
  .next (.accessing (.tick hs) (fun _ => .msRegWrite (.tick hs)))

theorem execMsArriveWrite_canon {dt r m v} (hs : s.Canon) : Answer.Canon (execMsArriveWrite dt r m v s) :=
  .next (.accessing (.tick hs) (fun _ => .msArriveBy (.tick hs)))

end Sys2Proof.Machine
end

section
/-! Lines: the stores stay canonical. -/
namespace Sys2Proof.Machine

variable {s : State}

theorem State.Canon.newSegLines {b n v} (hs : s.Canon) : (s.newSegLines b n v).Canon := .setFld ⟨.same hs⟩
theorem State.Canon.steerTo {c u b} (hs : s.Canon) : (s.steerTo c u b).Canon := .setFld (.setFld (.setConn hs))
theorem State.Canon.runConns (hs : s.Canon) : s.runConns.Canon := .foldl (fun _ h1 _ => .ite (.setConn (.setFld h1)) h1) hs
theorem State.Canon.setTrigGen {g x} (hs : s.Canon) : (s.setTrigGen g x).Canon := ⟨.same hs⟩
theorem State.Canon.boundaryEnts {b n} (hs : s.Canon) : (s.boundaryEnts b n).Canon := .txSettle (.foldl (fun _ h2 _ => by
  split
  · exact .steerTo h2
  · exact .newSegLines h2
  · exact h2) ⟨.same hs⟩)

theorem State.Canon.deviceBoundary {b n} (hs : s.Canon) : (s.deviceBoundary b n).Canon :=
  .foldl (fun _ h3 _ => .setTrigGen h3) (.runConns (.boundaryEnts (.txBoundary (.setReg ⟨.same hs⟩))))

theorem State.Canon.overflow {c} (hs : s.Canon) : (s.overflow c).Canon := by
  unfold State.overflow
  extract_lets
  split
  · split
    · exact .setFld (.segAbort hs)
    · exact hs
  · exact hs

theorem State.Canon.storeRow {c t n missing row} (hs : s.Canon) : (s.storeRow c t n missing row).Canon := by
  unfold State.storeRow
  extract_lets
  split
  · exact (.joinSeg (.overflow hs))
  · exact .resStat (.modSeg (.setConn (.joinSeg (.overflow hs))))

theorem State.Canon.storeLine {c t missing rows} (hs : s.Canon) : (s.storeLine c t missing rows).Canon :=
  .setConn (.ite (.closeSeg (.foldl (fun _ h1 _ => .storeRow h1) hs)) (.storeRow hs))

theorem State.Canon.freeRow {n} (hs : s.Canon) : (s.freeRow n).1.Canon := by
  induction n generalizing s with
  | zero => exact hs
  | succ n ih => exact ih (.useFree hs)

theorem State.Canon.missLine {c t count} (hs : s.Canon) : (s.missLine c t count).Canon := by
  unfold State.missLine
  extract_lets
  split
  · exact .storeLine (.ite (.inc hs) hs)
  · split
    next s' r he =>
      have hs' : s'.Canon := .ofPair he (.freeRow (.ite (.inc hs) hs))
      exact .storeLine hs'

theorem State.Canon.missedHead {c n} (hs : s.Canon) : (s.missedHead c n).Canon := by
  induction n generalizing s with
  | zero => exact hs
  | succ n ih =>
    unfold State.missedHead
    split
    · exact .ite (ih (.missLine (.setConn hs))) hs
    · exact hs

theorem State.Canon.missBefore {c ts} (hs : s.Canon) : (s.missBefore c ts).Canon := by
  induction ts generalizing s with
  | nil => exact hs
  | cons t ts ih => exact ih (.missLine hs)

theorem State.Canon.lineIn {c rows} (hs : s.Canon) : (s.lineIn c rows).Canon := by
  unfold State.lineIn
  extract_lets
  split
  · exact hs
  · split
    · exact .inc hs
    · exact .missedHead (.storeLine (.missBefore (.setConn hs)))

theorem State.Canon.sendTrigger {c} (hs : s.Canon) : (s.sendTrigger c).Canon := by
  unfold State.sendTrigger
  split
  · exact .emit hs
  · split
    · exact .emit hs
    · exact hs

theorem State.Canon.trigTo {c t} (hs : s.Canon) : (s.trigTo c t).Canon := .when (.ite (.inc hs) (.sendTrigger hs)) fun h => .missedHead (.setConn h)
theorem State.Canon.setOdo {u x} (hs : s.Canon) : (s.setOdo u x).Canon := ⟨.same hs⟩
theorem State.Canon.emitLine {g} (hs : s.Canon) : (s.emitLine g).Canon := .foldl (fun _ h3 _ => .trigTo h3) (.setTrigGen (.ite (.deviceBoundary hs) hs))
theorem State.Canon.emitLines {g n} (hs : s.Canon) : (s.emitLines g n).Canon := by
  induction n generalizing s with
  | zero => exact hs
  | succ n ih => exact ih (.emitLine hs)

theorem State.Canon.planLine {g} (hs : s.Canon) : (s.planLine g).Canon := .setTrigGen hs

end Sys2Proof.Machine
end

section
/-! Cameras: the stores stay canonical. -/
namespace Sys2Proof.Machine

variable {s : State}

theorem State.Canon.setLink {l x} (hs : s.Canon) : (s.setLink l x).Canon := ⟨.same hs⟩
theorem State.Canon.setConnState {c v} (hs : s.Canon) : (s.setConnState c v).Canon := .setFld hs
theorem State.Canon.toCamera {c m} (hs : s.Canon) : (s.toCamera c m).Canon := by
  unfold State.toCamera
  split
  · exact .emit hs
  · exact hs

theorem State.Canon.rediscover {c} (hs : s.Canon) : (s.rediscover c).Canon := .toCamera (.setConn (.setConnState (.closeSeg hs)))
theorem execLinkSignalDetect_canon {dt l} (hs : s.Canon) : Answer.Canon (execLinkSignalDetect dt l s) := by
  unfold execLinkSignalDetect
  extract_lets
  split
  · exact .next (.tick hs)
  · split
    · exact .next (.emit (.setLink (.tick hs)))
    · exact .ite (.next (.rediscover (.tick hs))) (.next (.tick hs))

theorem State.Canon.capsStep {c vals} (hs : s.Canon) : (s.capsStep c vals).Canon :=
  .toCamera (.setConn (.setFld (.setFld (.setFld (.setFld (.setFld (.setFld hs)))))))

theorem State.Canon.groupLinks {links vals} (hs : s.Canon) : (s.groupLinks links vals).Canon := by
  unfold State.groupLinks
  extract_lets s1
  have h1 : s1.Canon := .foldl (fun _ h1 _ => .setLink h1) hs
  split
  · exact h1
  · extract_lets _ _ s3
    have h3 : s3.Canon := .setFld (.setFld (.setConn (.foldl (fun _ h2 _ => .setLink h2) h1)))
    exact .ite (.capsStep (.setConnState h3)) (.setConnState h3)

theorem State.Canon.linkReply {l v group} (hs : s.Canon) : (s.linkReply l v group).Canon := by
  unfold State.linkReply
  extract_lets
  split
  · exact hs
  · exact .ite (.emit (.setLink hs)) (.when (.setLink hs) fun h => .groupLinks h)

theorem State.Canon.pixfmtReply {c v} (hs : s.Canon) : (s.pixfmtReply c v).Canon := by
  unfold State.pixfmtReply
  extract_lets
  split
  · exact .tell (.setConn (.setConnState (.setFld hs)))
  · exact .toCamera (.setConn (.setFld (.setFld (.setFld hs))))

theorem State.Canon.connReply {c v} (hs : s.Canon) : (s.connReply c v).Canon := by
  unfold State.connReply
  extract_lets
  split
  · exact .ite (.toCamera (.setConn hs)) (.ite (.capsStep hs) (.setConn (.setConnState hs)))
  · exact .pixfmtReply hs
  · exact .setConn hs
  · exact hs
  · exact hs

theorem State.Canon.passReply {c ack data} (hs : s.Canon) : (s.passReply c ack data).Canon := by
  unfold State.passReply
  extract_lets
  split
  · exact hs
  · exact .reply (.setConn hs)

theorem execCxpControlReply_canon {dt x} (hs : s.Canon) : Answer.Canon (execCxpControlReply dt x s) := by
  unfold execCxpControlReply
  extract_lets
  split
  · exact .next (.linkReply (.tick hs))
  · exact .next (.connReply (.tick hs))
  · exact .next (.passReply (.tick hs))

theorem State.Canon.resend {c} (hs : s.Canon) : (s.resend c).Canon := by
  unfold State.resend
  split
  · exact .toCamera hs
  · exact .toCamera hs
  · exact .toCamera hs
  · exact hs
  · exact hs

theorem execCxpControlTimeout_canon {dt x} (hs : s.Canon) : Answer.Canon (execCxpControlTimeout dt x s) := by
  unfold execCxpControlTimeout
  extract_lets
  split
  · extract_lets
    split
    · exact .next (.tick hs)
    · exact .ite (.next (.setLink (.tick hs))) (.next (.emit (.setLink (.tick hs))))
  · exact .ite (.next (.tick hs)) (.ite (.next (.setConn (.setConnState (.tick hs)))) (.next (.resend (.setConn (.tick hs)))))
  · extract_lets
    split
    · exact .next (.tick hs)
    · exact .next (.reply (.setConn (.tick hs)))

theorem State.Canon.tdrPut {l m} (hs : s.Canon) : (s.tdrPut l m).Canon := by
  unfold State.tdrPut
  extract_lets
  split
  · exact .setFld (.setFld (.setFld (.setFld (.setReg (.setLink hs)))))

theorem execLinkLock_canon {dt c tdr} (hs : s.Canon) : Answer.Canon (execLinkLock dt c tdr s) :=
  .ite (.next (.setConn (.setConnState (.foldl (fun _ h2 _ => .tdrPut h2) (.tick hs))))) (.next (.tick hs))

theorem execLinkLockTimeout_canon {dt c} (hs : s.Canon) : Answer.Canon (execLinkLockTimeout dt c s) := .ite (.next (.setFld (.tick hs))) (.next (.tick hs))
theorem execLinkLockLoss_canon {dt l} (hs : s.Canon) : Answer.Canon (execLinkLockLoss dt l s) := by
  unfold execLinkLockLoss
  extract_lets
  split
  · exact .next (.tick hs)
  · exact .ite (.next (.rediscover (.tick hs))) (.next (.tick hs))

theorem execConnAbsentTimeout_canon {dt c} (hs : s.Canon) : Answer.Canon (execConnAbsentTimeout dt c s) := by
  unfold execConnAbsentTimeout
  extract_lets _ _ s3 s4
  have h3 : s3.Canon := .foldl (fun _ h2 _ => .setLink h2) (.tick hs)
  have h4 : s4.Canon := by
    unfold s4
    split
    · exact .reply h3
    · exact h3
  exact .ite (.next (.tick hs)) (.next (.setConn (.setReg h4)))

theorem execHeartbeat_canon {dt} (hs : s.Canon) : Answer.Canon (execHeartbeat dt s) := .next (.foldl (fun _ h2 _ => .ite h2 (.toCamera h2)) (.tick hs))
theorem execCxpEventPacket_canon {dt c event data} (hs : s.Canon) : Answer.Canon (execCxpEventPacket dt c event data s) := .next (.logE (.toCamera (.tick hs)))
theorem execCxpCameraTriggerPacket_canon {dt c} (hs : s.Canon) : Answer.Canon (execCxpCameraTriggerPacket dt c s) := .next (.setConn (.tick hs))

theorem execLineReceived_canon {dt c stream width rows} (hs : s.Canon) : Answer.Canon (execLineReceived dt c stream width rows s) :=
  .ite (.next (.tick hs)) (.ite (.next (.inc (.tick hs))) (.next (.lineIn (.setConn (.tick hs)))))

theorem execLineTimeout_canon {dt c} (hs : s.Canon) : Answer.Canon (execLineTimeout dt c s) := by
  unfold execLineTimeout
  extract_lets
  split
  · exact .ite (.next (.missedHead (.missLine (.setConn (.tick hs))))) (.next (.tick hs))
  · exact .next (.tick hs)

theorem execTdrMeasure_canon {dt l} (hs : s.Canon) : Answer.Canon (execTdrMeasure dt l s) := .next (.emit (.setLink (.tick hs)))
theorem execTdrComplete_canon {dt l m} (hs : s.Canon) : Answer.Canon (execTdrComplete dt l m s) := .ite (.next (.tdrPut (.tick hs))) (.next (.tick hs))

end Sys2Proof.Machine
end

section
/-! The catalogue: the stores stay canonical. -/
namespace Sys2Proof.Machine

variable {s : State}

theorem State.Canon.catWrite {a bs n} (hs : s.Canon) : (s.catWrite a bs n).Canon := by
  induction n generalizing s a bs with
  | zero => exact hs
  | succ n ih => exact .ite hs (ih (.hbmWrite hs))

theorem State.Canon.catGather {q t j flags c n} (hs : s.Canon) : (State.catGather q t s j flags c n).1.Canon := by
  induction n generalizing s j flags c with
  | zero => exact hs
  | succ n ih => exact ih (.catWrite hs)

theorem State.Canon.catWork {q} (hs : s.Canon) : (s.catWork q).1.Canon := by
  unfold State.catWork
  extract_lets
  split
  · split
    next s' flags c he =>
      have hs' : s'.Canon := .ofPair he (.catGather hs)
      exact .catWrite hs'
  · split
    · exact .catWrite hs
    · split
      · exact .catWrite hs

theorem State.Canon.catBegin {q} (hs : s.Canon) : (s.catBegin q).Canon := by
  unfold State.catBegin
  extract_lets
  split
  · split
    · exact .abortTaskOf (.inc hs)
    · exact .reply (.inc hs)
    · exact (.inc hs)
  · split
    next s' q c he =>
      have hs' : s'.Canon := .ofPair he (.catWork hs)
      exact .addSat ⟨.same hs'⟩

theorem State.Canon.catNext {q u} (hs : s.Canon) (he : s.catNext = some (q, u)) : u.Canon := by
  have hinj {p : CatReq} {v : State} (h : some (p, v) = some (q, u)) (hv : v.Canon) : u.Canon := (Prod.mk.inj (Option.some.inj h)).2 ▸ hv
  unfold State.catNext at he
  split at he
  · exact absurd he nofun
  · exact hinj he ⟨.same hs⟩
  · exact hinj he ⟨.same hs⟩
  · split at he
    · exact hinj he ⟨.same hs⟩
    · exact hinj he ⟨.same hs⟩

theorem execCatRequestStart_canon {dt} (hs : s.Canon) : Answer.Canon (execCatRequestStart dt s) := by
  unfold execCatRequestStart
  extract_lets
  split
  · exact .next (.tick hs)
  · split
    · exact .next (.tick hs)
    next q s' he =>
      have hs' : s'.Canon := .catNext (.tick hs) he
      exact .next (.catStat (.catBegin hs'))

theorem State.Canon.catEnd {q} (hs : s.Canon) : (s.catEnd q).Canon := by
  unfold State.catEnd
  extract_lets _ s2
  have h2 : s2.Canon := .when (.inc (.hbmWrite hs)) fun h => .sendArrival h
  split
  · exact .reply h2
  · exact h2

theorem execCatRequestComplete_canon {dt i} (hs : s.Canon) : Answer.Canon (execCatRequestComplete dt i s) := by
  unfold execCatRequestComplete
  extract_lets
  split
  · exact .next (.tick hs)
  · exact .next (.catStat (.catEnd ⟨.same (.tick hs)⟩))

theorem State.Canon.catVoid {r v} (hs : s.Canon) : (s.catVoid r v).Canon := .ite (.hbmWrite hs) (.aelReg hs)

theorem execCatVoidWrite_canon {dt r v} (hs : s.Canon) : Answer.Canon (execCatVoidWrite dt r v s) :=
  .next (.accessing (.tick hs) (fun _ => .catVoid (.tick hs)))

end Sys2Proof.Machine
end

section
/-! Clocks: the stores stay canonical. -/
namespace Sys2Proof.Machine

variable {s : State}

theorem execRefclkLoss_canon {dt} (hs : s.Canon) : Answer.Canon (execRefclkLoss dt s) := .ite (.next (.inc (.setFld (.setFld (.tick hs))))) (.next (.tick hs))
theorem execRefclkGlitch_canon {dt} (hs : s.Canon) : Answer.Canon (execRefclkGlitch dt s) := .next (.inc (.tick hs))

theorem execRefclkHoldoverTimeout_canon {dt} (hs : s.Canon) : Answer.Canon (execRefclkHoldoverTimeout dt s) :=
  .ite (.next (.setFld (.tick hs))) (.next (.tick hs))

theorem execRefclkRelock_canon {dt} (hs : s.Canon) : Answer.Canon (execRefclkRelock dt s) := .ite (.next (.calUnskip (.setFld (.tick hs)))) (.next (.tick hs))

theorem execRefclkReturn_canon {dt} (hs : s.Canon) : Answer.Canon (execRefclkReturn dt s) :=
  .ite (.next (.calUnskip (.setFld (.setFld (.tick hs))))) (.next (.tick hs))

theorem State.Canon.clkMcWrite {r v} (hs : s.Canon) : (s.clkMcWrite r v).Canon := .ite (.aelReg hs) (.ite (.aelReg hs) (.setFld hs))

theorem execClkMcWrite_canon {dt r data} (hs : s.Canon) : Answer.Canon (execClkMcWrite dt r data s) :=
  .next (.accessing (.tick hs) (fun _ => .clkMcWrite (.tick hs)))

end Sys2Proof.Machine
end

section
/-! PTP: the stores stay canonical. -/
namespace Sys2Proof.Machine

variable {s : State}

theorem State.Canon.ptpShow (hs : s.Canon) : s.ptpShow.Canon := .setFld hs
theorem State.Canon.setPtpState {v} (hs : s.Canon) : (s.setPtpState v).Canon := .ptpShow (.setFld hs)
theorem State.Canon.servo {off} (hs : s.Canon) : (s.servo off).Canon := by
  unfold State.servo
  extract_lets _ _ s3
  have h3 : s3.Canon := .when (.setFld hs) fun h => .setPtpState h
  exact .ite (.ptpShow ⟨.same h3⟩) (.ite (.setPtpState ⟨.same h3⟩) (.ite (.setPtpState ⟨.same h3⟩) (.ptpShow ⟨.same h3⟩)))

theorem State.Canon.ptpSync {t2 t1 corr} (hs : s.Canon) : (s.ptpSync t2 t1 corr).Canon := .emit ⟨.same (.servo ⟨.same hs⟩)⟩
theorem State.Canon.ptpIn {m} (hs : s.Canon) : (s.ptpIn m).Canon := by
  unfold State.ptpIn
  extract_lets
  split
  · exact .ite hs (.ite (.when ⟨.same hs⟩ fun h => .setPtpState h) hs)
  · exact .ite hs (.ite ⟨.same hs⟩ (.ptpSync hs))
  · split
    · exact hs
    · split
      · exact .ite (.ptpSync hs) hs
      · exact hs
  · split
    · exact hs
    · split
      · exact .ite ⟨.same hs⟩ hs
      · exact hs

theorem execPtpMessage_canon {dt p udp m} (hs : s.Canon) : Answer.Canon (execPtpMessage dt p udp m s) := .next (.when (.tick hs) fun h => .ptpIn h)

theorem execPtpAnnounceTimeout_canon {dt} (hs : s.Canon) : Answer.Canon (execPtpAnnounceTimeout dt s) :=
  .ite (.next (.setPtpState ⟨.same (.tick hs)⟩)) (.next (.tick hs))

theorem State.Canon.jctTimeIn {j t1 t2 t3} (hs : s.Canon) : (s.jctTimeIn j t1 t2 t3).Canon := .ite (.servo hs) hs
theorem State.Canon.ptpEnable {old new} (hs : s.Canon) : (s.ptpEnable old new).Canon := .ite hs (.setPtpState ⟨.same hs⟩)

end Sys2Proof.Machine
end

section
/-! The depot: the stores stay canonical. -/
namespace Sys2Proof.Machine

variable {s : State}

theorem State.Canon.handover {banks owner ranks force} (hs : s.Canon) : (s.handover banks owner ranks force).Canon :=
  .inc (.foldl (fun _ h1 _ => .ite (.when (.setFld (.setFld h1)) fun h => ⟨.same h⟩) h1) hs)

theorem State.Canon.ownerWrite {r v} (hs : s.Canon) : (s.ownerWrite r v).Canon := .ite (.aelReg hs) (.ite (.handover hs) (.inc (.aelReg hs)))

theorem execDepBankOwnerWrite_canon {dt r v} (hs : s.Canon) : Answer.Canon (execDepBankOwnerWrite dt r v s) :=
  .next (.accessing (.tick hs) (fun _ => .ownerWrite (.tick hs)))

theorem State.Canon.depotRefuse {space origin a data} (hs : s.Canon) : (s.depotRefuse space origin a data).Canon := .inc (.ael hs)
theorem State.Canon.depotBytesPut {a bs} (hs : s.Canon) : (s.depotBytesPut a bs).Canon := by
  induction bs generalizing s a with
  | nil => exact hs
  | cons b bs ih =>
    cases b with
    | none => exact ih hs
    | some q => exact ih ⟨StoresCanon.mk hs.stores.regs (mapWf_mapSet _ _ _ _ hs.stores.depot) hs.stores.hbm hs.stores.depotMarks hs.stores.hbmMarks⟩

theorem State.Canon.depotMarks {a bs} (hs : s.Canon) : (s.depotMarks a bs).Canon :=
  .foldl (fun _ hu _ => ⟨StoresCanon.mk hu.stores.regs hu.stores.depot hu.stores.hbm (mapWf_mapSet _ _ _ _ hu.stores.depotMarks) hu.stores.hbmMarks⟩) hs

theorem State.Canon.depotPut {a bs} (hs : s.Canon) : (s.depotPut a bs).Canon := .depotBytesPut (.depotMarks hs)

end Sys2Proof.Machine
end

section
/-! Junctions: the stores stay canonical. -/
namespace Sys2Proof.Machine

variable {s : State}

theorem State.Canon.setJctState {j v} (hs : s.Canon) : (s.setJctState j v).Canon := .setFld hs
theorem State.Canon.jctRates {j} (hs : s.Canon) : (s.jctRates j).Canon := .setFld (.setFld (.setFld hs))

theorem State.Canon.jctCfgWrite {j v} (hs : s.Canon) : (s.jctCfgWrite j v).Canon :=
  .ite (.setFld (.setFld hs)) (.ite (.setJctState (.setReg (.setJct (.setFld (.setFld hs))))) (.jctRates (.setJct (.setReg (.setFld (.setFld hs))))))

theorem execJctCfgWrite_canon {dt r j v} (hs : s.Canon) : Answer.Canon (execJctCfgWrite dt r j v s) :=
  .next (.accessing (.tick hs) (fun _ => .jctCfgWrite (.tick hs)))

theorem State.Canon.sendHello {j} (hs : s.Canon) : (s.sendHello j).Canon := .flitOut hs

theorem execLaneTrainingComplete_canon {dt j ok} (hs : s.Canon) : Answer.Canon (execLaneTrainingComplete dt j ok s) :=
  .ite (.next (.tick hs)) (.ite (.next (.inc (.setJct (.setJctState (.setJct (.tick hs)))))) (.next (.sendHello (.jctRates (.setJct (.setJctState (.setFld
    (.setJct (.tick hs)))))))))

theorem State.Canon.jctReplay {j} (hs : s.Canon) : (s.jctReplay j).Canon := .ite hs (.inc (.foldl (fun _ h1 _ => .flitOut h1) hs))

theorem State.Canon.helloIn {j devnum sysid major cr0 cr1} (hs : s.Canon) : (s.helloIn j devnum sysid major cr0 cr1).Canon :=
  .ite hs (.ite (.setJctState (.setFld (.setJct (.setFld hs)))) (.jctPump (.when (.jctReplay (.setJctState (.setJct (.setFld (.setJct
    (.setFld hs)))))) fun h => .tell (.inc h))))

theorem execJctHello_canon {dt j devnum sysid major lanes cr0 cr1} (hs : s.Canon) : Answer.Canon (execJctHello dt j devnum sysid major lanes cr0 cr1 s) :=
  .next (.helloIn (.when (.tick hs) fun h => .setJct h))

theorem State.Canon.fullRetrain {j} (hs : s.Canon) : (s.fullRetrain j).Canon := .inc (.setJct (.setJctState hs))

theorem execLaneFailure_canon {dt j mask} (hs : s.Canon) : Answer.Canon (execLaneFailure dt j mask s) :=
  .ite (.ite (.next (.fullRetrain (.setJct (.tick hs)))) (.next (.emit (.setJctState (.setJct (.tick hs)))))) (.next (.tick hs))

theorem execLaneDropReceived_canon {dt j mask} (hs : s.Canon) : Answer.Canon (execLaneDropReceived dt j mask s) :=
  .ite (.next (.setJctState (.unless (.setJct (.tick hs)) fun h => .emit h))) (.next (.tick hs))

theorem execLaneRetrainTimeout_canon {dt j} (hs : s.Canon) : Answer.Canon (execLaneRetrainTimeout dt j s) :=
  .ite (.next (.fullRetrain (.tick hs))) (.next (.tick hs))

theorem execLaneWidening_canon {dt j} (hs : s.Canon) : Answer.Canon (execLaneWidening dt j s) :=
  .ite (.next (.emit (.setJctState (.setJct (.tick hs))))) (.next (.tick hs))

theorem execFlitReplayTimeout_canon {dt j} (hs : s.Canon) : Answer.Canon (execFlitReplayTimeout dt j s) := .next (.when (.tick hs) fun h => .jctReplay h)
theorem execJctTimeSend_canon {dt j} (hs : s.Canon) : Answer.Canon (execJctTimeSend dt j s) := .next (.when (.tick hs) fun h => .jctMsg h)

theorem execPositionSend_canon {dt} (hs : s.Canon) : Answer.Canon (execPositionSend dt s) :=
  .ite (.next (.foldl (fun _ h3 _ => .ctlTo h3) ⟨.same (.tick hs)⟩)) (.next ⟨.same (.tick hs)⟩)

theorem State.Canon.alignOdo {u d} (hs : s.Canon) : (s.alignOdo u d).Canon := .ite (.setFld (.setOdo (.setFld hs))) hs
theorem State.Canon.positionOne {unsync own q} (hs : s.Canon) : (s.positionOne unsync own q).Canon := by
  unfold State.positionOne
  split
  · exact hs
  · extract_lets
    split
    · exact .when (.setFld (.setFld ⟨.same hs⟩)) fun h => .alignOdo h

theorem State.Canon.positionIn {time unsync vals} (hs : s.Canon) : (s.positionIn time unsync vals).Canon := by
  unfold State.positionIn
  split
  · exact .foldl (fun _ h1 _ => .positionOne h1) hs
  · exact hs

theorem execPositionMessage_canon {dt time unsync vals} (hs : s.Canon) : Answer.Canon (execPositionMessage dt time unsync vals s) :=
  .next (.positionIn (.tick hs))

theorem State.Canon.jctSyncWrite {r v} (hs : s.Canon) : (s.jctSyncWrite r v).Canon := .foldl (fun _ h3 _ => .setFld h3) (.when (.setFld hs) fun h => .aelReg h)

theorem execJctAlignWrite_canon {dt r v} (hs : s.Canon) : Answer.Canon (execJctAlignWrite dt r v s) :=
  .next (.accessing (.tick hs) (fun _ => .jctSyncWrite (.tick hs)))

theorem execAlignTimeout_canon {dt u} (hs : s.Canon) : Answer.Canon (execAlignTimeout dt u s) := .ite (.next (.tell (.setFld (.tick hs)))) (.next (.tick hs))

end Sys2Proof.Machine
end

section
/-! Checks: the stores stay canonical. -/
namespace Sys2Proof.Machine

variable {s : State}

theorem State.Canon.slotRates {k} (hs : s.Canon) : (s.slotRates k).Canon := .setFld (.setFld (.setFld (.setFld hs)))

end Sys2Proof.Machine
end

section
/-! DMA: the stores stay canonical. -/
namespace Sys2Proof.Machine

variable {s : State}

theorem State.Canon.setChan {c x} (hs : s.Canon) : (s.setChan c x).Canon := ⟨.same hs⟩
theorem State.Canon.dmaCur {c} (hs : s.Canon) : (s.dmaCur c).Canon := .setFld hs
theorem State.Canon.dmaError {c code} (hs : s.Canon) : (s.dmaError c code).Canon := .when (.setFld (.setFld (.setChan hs))) fun h => .tell h

theorem State.Canon.dmaTake {c x inChain addr} (hs : s.Canon) : (s.dmaTake c x inChain addr).Canon :=
  .unless (.dmaCur (.setChan (.setFld (.setFld hs)))) fun h => .dmaError h

theorem State.Canon.dmaBegin {c} (hs : s.Canon) : (s.dmaBegin c).Canon := .dmaTake (.setFld hs)
theorem State.Canon.dmaStart {c} (hs : s.Canon) : (s.dmaStart c).Canon := .ite (.dmaBegin hs) (.ite (.inc hs) (.ite (.inc hs) (.inc hs)))
theorem State.Canon.dmaStop {c} (hs : s.Canon) : (s.dmaStop c).Canon := .ite hs (.setFld (.setChan hs))
theorem State.Canon.dmaClr {c} (hs : s.Canon) : (s.dmaClr c).Canon := .ite (.setFld (.setFld hs)) hs
theorem State.Canon.dmaKill {r c} (hs : s.Canon) : (s.dmaKill r c).Canon := .ite (.aelReg hs) (.ite hs (.dmaError hs))

theorem State.Canon.dmaCmd {r c v} (hs : s.Canon) : (s.dmaCmd r c v).Canon :=
  .when (.when (.when (.ite (.dmaKill hs) hs) fun h => .dmaClr h) fun h => .dmaStart h) fun h => .dmaStop h

theorem execDmaStart_canon {dt r c} (hs : s.Canon) : Answer.Canon (execDmaStart dt r c s) := .next (.accessing (.tick hs) (fun _ => .dmaCmd (.tick hs)))
theorem execDmaStop_canon {dt r c} (hs : s.Canon) : Answer.Canon (execDmaStop dt r c s) := .next (.accessing (.tick hs) (fun _ => .dmaCmd (.tick hs)))
theorem execDmaKill_canon {dt r c} (hs : s.Canon) : Answer.Canon (execDmaKill dt r c s) := .next (.accessing (.tick hs) (fun _ => .dmaCmd (.tick hs)))
theorem execDmaClrErr_canon {dt r c} (hs : s.Canon) : Answer.Canon (execDmaClrErr dt r c s) := .next (.accessing (.tick hs) (fun _ => .dmaCmd (.tick hs)))
theorem State.Canon.dmaEnd {c} (hs : s.Canon) : (s.dmaEnd c).Canon := .ite (.dmaBegin (.setFld (.setChan hs))) (.setFld (.setChan hs))
theorem execDmaDescriptorComplete_canon {dt c} (hs : s.Canon) : Answer.Canon (execDmaDescriptorComplete dt c s) := by
  unfold execDmaDescriptorComplete
  extract_lets _ _ _ s4
  have h4 : s4.Canon := .when (.tick hs) fun h => .pulse h
  exact .ite (.ite (.next (.setFld (.setFld (.setFld (.setChan h4))))) (.ite (.next (.setFld (.setChan h4))) (.next (.dmaEnd h4)))) (.next (.tick hs))

theorem execDmaNextFetched_canon {dt c} (hs : s.Canon) : Answer.Canon (execDmaNextFetched dt c s) :=
  .ite (.ite (.next (.dmaTake (.tick hs))) (.next (.dmaError (.depotRefuse (.tick hs))))) (.next (.tick hs))

theorem State.Canon.routeTo {i} (hs : s.Canon) : (s.routeTo i).Canon := by
  unfold State.routeTo
  extract_lets
  split
  · exact .sendArrival hs
  · exact .dmaStart hs
  · exact ⟨.same hs⟩
  · exact .ringMarker hs

theorem execEventPulseRoute_canon {dt} (hs : s.Canon) : Answer.Canon (execEventPulseRoute dt s) := by
  unfold execEventPulseRoute
  extract_lets
  split
  · exact .next (.foldl (fun _ h3 _ => .ite (.routeTo h3) h3) ⟨.same (.tick hs)⟩)
  · exact .next (.tick hs)

theorem execDmaTimerPulse_canon {dt t} (hs : s.Canon) : Answer.Canon (execDmaTimerPulse dt t s) := .ite (.next (.pulse (.tick hs))) (.next (.tick hs))

end Sys2Proof.Machine
end

section
/-! Missed lines: the stores stay canonical. -/
namespace Sys2Proof.Machine

variable {s : State}

theorem State.Canon.nearMiss {x} (hs : s.Canon) : (s.nearMiss x).Canon := by
  unfold State.nearMiss
  extract_lets
  split
  · exact .inc (.inc hs)
  · exact (.inc hs)

theorem State.Canon.missSeen {x} (hs : s.Canon) : (s.missSeen x).Canon := by
  unfold State.missSeen
  extract_lets s1
  have h1 : s1.Canon := by
    unfold s1
    split
    · exact hs
    · split
      · exact .setReg hs
  split
  · exact .inc (.inc h1)
  · exact (.inc h1)

theorem State.Canon.loseLine {c id} (hs : s.Canon) : (s.loseLine c id).Canon := by
  unfold State.loseLine
  split
  · exact .ite hs (.modLine (.inc hs))
  · exact hs

theorem State.Canon.missAct {x} (hs : s.Canon) : (s.missAct x).Canon := by
  unfold State.missAct
  split
  · exact .abortTaskOf hs
  · exact .abortTaskOf hs
  · exact .abortTaskOf hs
  · exact .foldl (fun _ h1 _ => .abortTaskOf h1) hs
  · split
    · exact .segAbort hs
    · exact hs
  · split
    · split
      · exact .segAbort hs
      · exact hs
    · exact hs
  · exact .loseLine hs

theorem execDeadlineMiss_canon {dt x near} (hs : s.Canon) : Answer.Canon (execDeadlineMiss dt x near s) :=
  .next (.ite (.nearMiss (.tick hs)) (.abortReport (.missAct (.missSeen (.tick hs)))))

end Sys2Proof.Machine
end

section
/-! Faults: the stores stay canonical. -/
namespace Sys2Proof.Machine

variable {s : State}

theorem State.Canon.eccCe {cls} (hs : s.Canon) : (s.eccCe cls).Canon := .inc hs

theorem State.Canon.eccUe {cls scrub loc} (hs : s.Canon) : (s.eccUe cls scrub loc).Canon :=
  .tell (.logE (.setFld (.unless (.inc hs) fun h => .setReg (.setReg h))))

theorem State.Canon.wayLost {i} (hs : s.Canon) : (s.wayLost i).Canon := by
  unfold State.wayLost
  extract_lets
  split
  · exact (.tell (.inc hs))
  · split
    · exact .txEnd (.tell (.inc hs))
    · exact .txEnd (.tell (.inc hs))
    · exact .txEnd (.tell (.inc hs))
    · exact .wayState (.tell (.inc hs))
    · exact (.tell (.inc hs))

theorem State.Canon.wayRead {i mis lost} (hs : s.Canon) : (s.wayRead i mis lost).Canon := by
  unfold State.wayRead
  extract_lets _ s2
  have h2 : s2.Canon := .unless (.addSat hs) fun h => .tell (.setFld h)
  exact .ite (.wayLost h2) (.wayPut (.addSat h2))

theorem State.Canon.bistStart {unit i} (hs : s.Canon) : (s.bistStart unit i).Canon :=
  .unless ⟨.same (.setReg hs)⟩ fun h => .laybyFree (.foldl (fun _ h3 _ => .setTState h3) h)

theorem State.Canon.abortCrewSeg {u e} (hs : s.Canon) : (s.abortCrewSeg u e).Canon := by
  unfold State.abortCrewSeg
  split
  · exact .abortReport (.segAbort hs)
  · exact hs

theorem State.Canon.slotFault {k z} (hs : s.Canon) : (s.slotFault k z).Canon := .abortReport (.slotClose (.abortTaskOf hs))

theorem State.Canon.pathAbort {path} (hs : s.Canon) : (s.pathAbort path).Canon :=
  .ite (.abortReport (.abortTaskOf hs)) (.foldl (fun _ h1 _ => .abortCrewSeg h1) hs)

end Sys2Proof.Machine
end

section
/-! Odometers: the stores stay canonical. -/
namespace Sys2Proof.Machine

variable {s : State}

theorem State.Canon.reversalRecord {u c seg} (hs : s.Canon) : (s.reversalRecord u c seg).Canon := by
  unfold State.reversalRecord
  exact .egress (.when (.useFree (.useFree hs)) fun h => .useFree h)

theorem State.Canon.reversal {u} (hs : s.Canon) : (s.reversal u).Canon := .foldl (fun _ h2 _ => .reversalRecord (.closeSeg h2)) (.setOdo (.setFld hs))
theorem State.Canon.odoLevel {u onB} (hs : s.Canon) : (s.odoLevel u onB).Canon := .setOdo hs
theorem State.Canon.glitch {u} (hs : s.Canon) : (s.glitch u).Canon := .when (.setOdo (.inc hs)) fun h => .tell (.setFld h)
theorem State.Canon.genForward {u g} (hs : s.Canon) : (s.genForward u g).Canon := .planLine (.emitLines (.setTrigGen hs))
theorem State.Canon.unplan {g} (hs : s.Canon) : (s.unplan g).Canon := .setTrigGen hs
theorem State.Canon.odoEdge {u fwd} (hs : s.Canon) : (s.odoEdge u fwd).Canon := by
  unfold State.odoEdge
  extract_lets _ _ _ s4 s5
  have h4 : s4.Canon := by
    unfold s4
    split
    · exact .when (.setFld hs) fun h => .setFld h
    · exact (.setFld hs)
  have h5 : s5.Canon := .setFld (.setFld h4)
  exact .ite (.foldl (fun _ h6 _ => .genForward h6) (.setOdo h5)) (.when (.foldl (fun _ h5 _ => .unplan h5) (.setOdo h5)) fun h => .reversal h)

theorem execEncoderEdge_canon {dt u onB} (hs : s.Canon) : Answer.Canon (execEncoderEdge dt u onB s) :=
  .ite (.next (.odoLevel (.tick hs))) (.ite (.next (.glitch (.odoLevel (.tick hs)))) (.next (.odoEdge (.odoLevel (.tick hs)))))

theorem execEncoderGlitch_canon {dt u onA onB} (hs : s.Canon) : Answer.Canon (execEncoderGlitch dt u onA onB s) :=
  .next (.when (.when (.when (.tick hs) fun h => .odoLevel h) fun h => .odoLevel h) fun h => .glitch h)

theorem execPosSuspectEnd_canon {dt u} (hs : s.Canon) : Answer.Canon (execPosSuspectEnd dt u s) := by
  unfold execPosSuspectEnd
  extract_lets
  split
  · exact .ite (.next (.setOdo (.tick hs))) (.next (.tick hs))
  · exact .next (.tick hs)

theorem execEncoderStopTimeout_canon {dt u} (hs : s.Canon) : Answer.Canon (execEncoderStopTimeout dt u s) := .next (.when (.tick hs) fun h => .setFld h)
theorem State.Canon.odoCfgWrite {r u v} (hs : s.Canon) : (s.odoCfgWrite r u v).Canon := by
  unfold State.odoCfgWrite
  extract_lets _ _ _ _ _ _ _ s8
  have h8 : s8.Canon := .when (.setReg hs) fun h => .aelReg h
  exact .ite (.setOdo (.setReg (.setFld (.setFld h8)))) h8

theorem execOdoCfgWrite_canon {dt r u v} (hs : s.Canon) : Answer.Canon (execOdoCfgWrite dt r u v s) :=
  .next (.accessing (.tick hs) (fun _ => .odoCfgWrite (.tick hs)))

theorem State.Canon.tgCfgWrite {r g v} (hs : s.Canon) : (s.tgCfgWrite r g v).Canon := by
  unfold State.tgCfgWrite
  extract_lets _ _ _ _ s5
  have h5 : s5.Canon := .setFld (.setFld (.ite (.aelReg hs) (.setFld hs)))
  exact .ite (.setTrigGen h5) (.when h5 fun h => .setTrigGen h)

theorem execOdoTgCfgWrite_canon {dt r g v} (hs : s.Canon) : Answer.Canon (execOdoTgCfgWrite dt r g v s) :=
  .next (.accessing (.tick hs) (fun _ => .tgCfgWrite (.tick hs)))

theorem execTriggerPlannedTime_canon {dt g} (hs : s.Canon) : Answer.Canon (execTriggerPlannedTime dt g s) := by
  unfold execTriggerPlannedTime
  extract_lets
  split
  · exact .ite (.next (.planLine (.emitLine (.tick hs)))) (.next (.tick hs))
  · exact .next (.tick hs)

theorem execSegmentHoldTimeout_canon {dt c} (hs : s.Canon) : Answer.Canon (execSegmentHoldTimeout dt c s) :=
  .ite (.next (.closeSeg (.tick hs))) (.next (.tick hs))

theorem State.Canon.segCfgWrite {r v} (hs : s.Canon) : (s.segCfgWrite r v).Canon := by
  unfold State.segCfgWrite
  extract_lets _ _ _ _ _ _ _ _ _ _ s11
  have h11 : s11.Canon := .unless (.unless (.ite hs (.setFld hs)) fun h => .setFld h) fun h => .setFld h
  exact .ite (.aelReg h11) (.ite (.aelReg h11) (.when h11 fun h => .aelReg h))

theorem execOdoSegCfgWrite_canon {dt r v} (hs : s.Canon) : Answer.Canon (execOdoSegCfgWrite dt r v s) :=
  .next (.accessing (.tick hs) (fun _ => .segCfgWrite (.tick hs)))

theorem State.Canon.resCfgWrite {r c v} (hs : s.Canon) : (s.resCfgWrite r c v).Canon := .ite (.aelReg (.setFld hs)) (.setFld (.setFld hs))

theorem execIngResCfgWrite_canon {dt r c v} (hs : s.Canon) : Answer.Canon (execIngResCfgWrite dt r c v s) :=
  .next (.accessing (.tick hs) (fun _ => .resCfgWrite (.tick hs)))

end Sys2Proof.Machine
end

section
/-! Rules of register writes: the stores stay canonical. -/
namespace Sys2Proof.Machine

variable {s : State}

theorem State.Canon.doorbellErr {r a kind q v} (hs : s.Canon) : (s.doorbellErr r a kind q v).Canon := .aelReg (.setFld hs)
theorem State.Canon.sqTailWrite {r q v} (hs : s.Canon) : (s.sqTailWrite r q v).Canon := .ite (.doorbellErr hs) (.ite (.doorbellErr hs) (.setFld hs))

theorem State.Canon.cqHeadWrite {r q v} (hs : s.Canon) : (s.cqHeadWrite r q v).Canon :=
  .ite (.doorbellErr hs) (.ite (.doorbellErr hs) (.postHeld (.setQueue (.setFld hs))))

theorem State.Canon.queueStart {q} (hs : s.Canon) : (s.queueStart q).Canon := .setQueue (.setFld (.setFld (.setFld hs)))
theorem State.Canon.egrHeadWrite {r k v} (hs : s.Canon) : (s.egrHeadWrite r k v).Canon := .ite (.setFld hs) (.aelReg hs)
theorem State.Canon.gvRefresh {c} (hs : s.Canon) : (s.gvRefresh c).Canon := .ite hs (.ite (.setConnState hs) (.ite (.setConnState (.closeSeg hs)) hs))
theorem State.Canon.gvRefreshAll (hs : s.Canon) : s.gvRefreshAll.Canon := .foldl (fun _ h1 _ => .gvRefresh h1) hs

theorem State.Canon.gvBind {c en} (hs : s.Canon) : (s.gvBind c en).Canon :=
  .ite (.gvRefresh (.setFld (.setFld (.setFld (.setConn hs))))) (.setConnState (.setConn (.closeSeg hs)))

theorem State.Canon.netDown {p} (hs : s.Canon) : (s.netDown p).Canon := .gvRefreshAll (.setReg hs)
theorem State.Canon.plbMode {b} (hs : s.Canon) : (s.plbMode b).Canon := .when ⟨.same (.setFld hs)⟩ fun h => .emit h
theorem State.Canon.regAfter {h old} (hs : s.Canon) : (s.regAfter h old).Canon := by
  unfold State.regAfter
  extract_lets
  split
  · exact .ite (.setReg (.setReg hs)) hs
  · exact .ite (.setReg hs) hs
  · exact .ite (.setReg hs) hs
  · exact .ite ⟨.same hs⟩ hs
  · exact .ite (.queueStart hs) hs
  · exact .ite (.setFld hs) (.ite (.netDown hs) hs)
  · exact .ptpEnable hs
  · exact .ite (.gvBind hs) (.ite (.gvBind hs) (.gvRefresh hs))
  · exact .ite hs (.plbMode hs)
  · exact .ite (.setFld hs) (.holdRefresh hs)
  · exact hs

end Sys2Proof.Machine
end

section
/-! Register writes: the stores stay canonical. -/
namespace Sys2Proof.Machine

variable {s : State}

theorem State.Canon.regPut {r h v} (hs : s.Canon) : (s.regPut r h v).Canon := by
  unfold State.regPut
  extract_lets
  split
  · exact .aelReg hs
  · split
    · exact .aelReg (.regAfter (.setReg hs))
    · exact (.regAfter (.setReg hs))

theorem State.Canon.tileCtl {r t v} (hs : s.Canon) : (s.tileCtl r t v).Canon :=
  .when (.when (.when (.when (.ite (.rngLoad hs) hs) fun h => .ctlExc h) fun h => .modTile h) fun h => .ctlHalt h) fun h => .aelReg h

theorem State.Canon.routeWrite {r i v} (hs : s.Canon) : (s.routeWrite r i v).Canon := .ite (.setReg hs) (.aelReg hs)
theorem State.Canon.calDataWrite {r v} (hs : s.Canon) : (s.calDataWrite r v).Canon := .ite (.aelReg hs) (.ite (.aelReg hs) (.calTabWrite hs))
theorem State.Canon.pmapRefuse {r v} (hs : s.Canon) : (s.pmapRefuse r v).Canon := .ite hs (.aelReg hs)
theorem State.Canon.regTake {r h v} (hs : s.Canon) : (s.regTake r h v).Canon := by
  unfold State.regTake
  split
  · exact .odoCfgWrite hs
  · exact .tgCfgWrite hs
  · exact .segCfgWrite hs
  · exact .resCfgWrite hs
  · exact .msRegWrite hs
  · exact .msRegWrite hs
  · exact .msRegWrite hs
  · exact .msArriveBy hs
  · exact .catVoid hs
  · exact .ownerWrite hs
  · exact .inc (.aelReg hs)
  · exact .dmaCmd hs
  · exact .routeWrite hs
  · exact .sqTailWrite hs
  · exact .cqHeadWrite hs
  · exact .egrHeadWrite hs
  · exact .jctCfgWrite hs
  · exact .jctSyncWrite hs
  · exact .tileCtl hs
  · exact .dbgAccess hs
  · exact .mapWrite hs
  · exact .tabAccess hs
  · exact .calDataWrite hs
  · exact .calTrigWrite hs
  · exact .dstateWrite hs
  · exact .clkMcWrite hs
  · exact .pmapRefuse hs
  · exact .regPut hs

theorem State.Canon.wordWrite {r h v} (hs : s.Canon) : (s.wordWrite r h v).Canon := .ite ⟨.same hs⟩ (.ite (.regTake ⟨.same hs⟩) (.regTake hs))
theorem State.Canon.bar0Write {r a n v} (hs : s.Canon) : (s.bar0Write r a n v).Canon := by
  unfold State.bar0Write
  split
  · exact .aelReg hs
  · split
    · exact .aelReg hs
    · exact .ite (.aelReg hs) (.ite (.wordWrite (.wordWrite hs)) (.wordWrite hs))

theorem State.Canon.readClear {h} (hs : s.Canon) : (s.readClear h).Canon := .ite (.setReg hs) hs
theorem State.Canon.wordRead {r h} (hs : s.Canon) : (s.wordRead r h).1.Canon := by
  unfold State.wordRead
  extract_lets
  split
  · exact .tabAccess hs
  · exact .dbgAccess hs
  · split
    · split
      · split
        · exact ⟨.same hs⟩
        · exact hs
      · exact .readClear ⟨.same hs⟩
    · exact .readClear hs

theorem State.Canon.bar0Read {r a n} (hs : s.Canon) : (s.bar0Read r a n).1.Canon := by
  unfold State.bar0Read
  extract_lets
  split
  · split
    · exact .aelReg hs
    · dsimp only
      exact .wayRead hs
  · split
    · exact .aelReg hs
    · split
      · exact .aelReg hs
      · split
        · split
          next s' lo he =>
            have hs' : s'.Canon := .ofPair he (.wordRead hs)
            split
            next s' hi he =>
              have hs' : s'.Canon := .ofPair he (.wordRead hs')
              exact hs'
        · exact .wordRead hs

theorem State.Canon.readBack {r a n} (hs : s.Canon) : (s.readBack r a n).Canon := by
  unfold State.readBack
  split
  next s' d he =>
    have hs' : s'.Canon := .ofPair he (.bar0Read hs)
    exact .emit hs'

theorem execRegRead64Low_canon {dt r addr bytes} (hs : s.Canon) : Answer.Canon (execRegRead64Low dt r addr bytes s) := .next (.readBack (.tick hs))
theorem execRegRead64High_canon {dt r addr} (hs : s.Canon) : Answer.Canon (execRegRead64High dt r addr s) := .next (.readBack (.tick hs))
theorem execRegReadClear_canon {dt r addr bytes} (hs : s.Canon) : Answer.Canon (execRegReadClear dt r addr bytes s) := .next (.readBack (.tick hs))
theorem execRegWrite64High_canon {dt r addr data} (hs : s.Canon) : Answer.Canon (execRegWrite64High dt r addr data s) := .next (.bar0Write (.tick hs))
theorem execRegisterWrite_canon {dt r addr bytes data} (hs : s.Canon) : Answer.Canon (execRegisterWrite dt r addr bytes data s) := .next (.bar0Write (.tick hs))
theorem execDevApertureWrite_canon {dt r data} (hs : s.Canon) : Answer.Canon (execDevApertureWrite dt r data s) := .next (.bar0Write (.tick hs))
theorem execRefStagingWrite_canon {dt r u off data} (hs : s.Canon) : Answer.Canon (execRefStagingWrite dt r u off data s) := .next (.bar0Write (.tick hs))
theorem execSqTailDoorbell_canon {dt r q v} (hs : s.Canon) : Answer.Canon (execSqTailDoorbell dt r q v s) := .next (.bar0Write (.tick hs))
theorem execCqHeadDoorbell_canon {dt r q v} (hs : s.Canon) : Answer.Canon (execCqHeadDoorbell dt r q v s) := .next (.bar0Write (.tick hs))
theorem execQCfgWrite_canon {dt r q v} (hs : s.Canon) : Answer.Canon (execQCfgWrite dt r q v s) := .next (.bar0Write (.tick hs))
theorem execEgrHeadWrite_canon {dt r k v} (hs : s.Canon) : Answer.Canon (execEgrHeadWrite dt r k v s) := .next (.bar0Write (.tick hs))
theorem execNetRsCfgWrite_canon {dt r k v} (hs : s.Canon) : Answer.Canon (execNetRsCfgWrite dt r k v s) := .next (.bar0Write (.tick hs))
theorem execNetGvCfgWrite_canon {dt r c v} (hs : s.Canon) : Answer.Canon (execNetGvCfgWrite dt r c v s) := .next (.bar0Write (.tick hs))
theorem execRasHoldWrite_canon {dt r h v} (hs : s.Canon) : Answer.Canon (execRasHoldWrite dt r h v s) := .next (.bar0Write (.tick hs))
theorem execRasPmigWrite_canon {dt r v} (hs : s.Canon) : Answer.Canon (execRasPmigWrite dt r v s) := .next (.bar0Write (.tick hs))
theorem execWaymarkRecordRead_canon {dt r i mis lost} (hs : s.Canon) : Answer.Canon (execWaymarkRecordRead dt r i mis lost s) := by
  unfold execWaymarkRecordRead
  extract_lets
  split
  · exact .next (.emit (.aelReg (.tick hs)))
  · exact .next (.emit (.wayRead (.tick hs)))

theorem State.Canon.bar2Get {link a n} (hs : s.Canon) : (s.bar2Get link a n).1.Canon := by
  unfold State.bar2Get
  extract_lets
  split
  · exact .ael hs
  · split
    · exact hs
    · exact .depotRefuse hs

theorem State.Canon.bar2Put {link a b} (hs : s.Canon) : (s.bar2Put link a b).Canon := .ite (.ael hs) (.ite (.depotPut hs) (.depotRefuse hs))
theorem State.Canon.gather {f ps} (hf : ∀ u, State.Canon u → ∀ a n, (f u a n).1.Canon) (hs : s.Canon) : (gather f ps s).1.Canon := by
  induction ps generalizing s with
  | nil => exact hs
  | cons p ps ih => exact ih (hf _ hs _ _)

theorem execBar2Access_canon {dt link off len wr} (hs : s.Canon) : Answer.Canon (execBar2Access dt link off len wr s) := by
  unfold execBar2Access
  extract_lets
  split
  · exact .next (.foldl (fun _ h2 _ => .bar2Put h2) (.tick hs))
  · split
    next s' b he =>
      have hs' : s'.Canon := .ofPair he (.gather (fun _ h2 _ _ => .bar2Get h2) (.tick hs))
      exact .next (.emit hs')

theorem State.Canon.bar4Get {link off n} (hs : s.Canon) : (s.bar4Get link off n).1.Canon := by
  unfold State.bar4Get
  split
  · exact .chargeBest hs
  · exact .ael hs

theorem State.Canon.bar4Put {link off b} (hs : s.Canon) : (s.bar4Put link off b).Canon := by
  unfold State.bar4Put
  split
  · exact .hbmWriteMig (.chargeBest hs)
  · exact .ael hs

theorem execBar4Access_canon {dt link off len wr} (hs : s.Canon) : Answer.Canon (execBar4Access dt link off len wr s) := by
  unfold execBar4Access
  extract_lets
  split
  · exact .next (.foldl (fun _ h2 _ => .bar4Put h2) (.tick hs))
  · split
    next s' b he =>
      have hs' : s'.Canon := .ofPair he (.gather (fun _ h2 _ _ => .bar4Get h2) (.tick hs))
      exact .next (.emit hs')

end Sys2Proof.Machine
end

section
/-! Transactions of commands: the stores stay canonical. -/
namespace Sys2Proof.Machine

variable {s : State}

theorem State.Canon.txNew {t size origin rec_} (hs : s.Canon) : (s.txNew t size origin rec_).Canon := by
  unfold State.txNew
  extract_lets _ _ _ s4
  have h4 : s4.Canon := .setReg (.setReg (.setReg (.setTx hs)))
  exact .ite (.setFld (.setFld (.setFld h4))) (.setFld (.setFld h4))

theorem State.Canon.txAdd {t kind pay} (hs : s.Canon) : (s.txAdd t kind pay).Canon := by
  unfold State.txAdd
  extract_lets
  split
  · exact hs
  · exact .when (.setFld (.wayPut hs)) fun h => .setFld (.setTx h)

theorem State.Canon.txBegin {t point arg} (hs : s.Canon) : (s.txBegin t point arg).Canon := .setFld (.setReg (.setFld (.setFld (.poolBack hs))))
theorem State.Canon.mcTx {rec_ recs point arg} (hs : s.Canon) : (s.mcTx rec_ recs point arg).1.Canon := by
  unfold State.mcTx
  split
  · exact .txBegin (.foldl (fun _ h1 _ => .txAdd h1) (.txNew hs))
  · exact hs

theorem State.Canon.frees {n} (hs : s.Canon) : (s.frees n).1.Canon := by
  induction n generalizing s with
  | zero => exact hs
  | succ n ih => exact ih (.useFree hs)

theorem State.Canon.txRefuse {t code} (hs : s.Canon) : (s.txRefuse t code).Canon := by
  unfold State.txRefuse
  extract_lets
  split
  · split
    · split
      next s' w he =>
        have hs' : s'.Canon := .ofPair he (.frees (.txEnd (.setTx ⟨.same hs⟩)))
        exact .reply hs'
    · exact .txEnd ⟨.same hs⟩
  · exact .txEnd ⟨.same hs⟩

theorem State.Canon.txPlace {t es} (hs : s.Canon) : (s.txPlace t es).Canon := by
  unfold State.txPlace
  extract_lets _ _ _ _ _ s6 s7 s8
  have h6 : s6.Canon := .setFld (.wayStates (.setTx ⟨.same (.foldl (fun _ h1 _ => .txEnd h1) hs)⟩))
  have h7 : s7.Canon := by
    unfold s7
    split
    · exact .replyPending h6
    · exact h6
  have h8 : s8.Canon := by
    unfold s8
    split
    · exact .ctlTo h7
    · exact .when h7 fun h => ⟨.same h⟩
  split
  · exact .txCommit h8
  · exact .ite (.txCommit h8) ⟨.same h8⟩
  · exact h8

theorem execTxPrepared_canon {dt t} (hs : s.Canon) : Answer.Canon (execTxPrepared dt t s) := by
  unfold execTxPrepared
  extract_lets
  split
  · split
    · exact .next (.txRefuse (.tick hs))
    · exact .next (.txPlace (.tick hs))
  · exact .next (.tick hs)

theorem State.Canon.swapPairs {t} (hs : s.Canon) : (s.swapPairs t).Canon := by
  unfold State.swapPairs
  extract_lets _ _ s3
  have h3 : s3.Canon := .setFld (.setPair (.setPair hs))
  split
  · exact hs
  · split
    · exact .ite (.logE (.setFld (.setFld ⟨.same (.setPair h3)⟩))) h3
    · exact h3

theorem State.Canon.retiredWrite {c old} (hs : s.Canon) : (s.retiredWrite c old).Canon :=
  .foldl (fun _ h1 _ => .ite (.retireTile h1) (.ite (.repairPut h1) h1)) hs

theorem State.Canon.txAfter {e h old} (hs : s.Canon) : (s.txAfter e h old).Canon := by
  unfold State.txAfter
  extract_lets
  split
  · exact .colCommit hs
  · exact .domCommit hs
  · exact .laybyFree (.setFld ⟨.same hs⟩)
  · exact .retiredWrite hs
  · exact .swapPairs hs
  · exact .detourCheck hs
  · exact .slotRates hs
  · exact .slotRates hs
  · exact hs
  · exact .ite hs (.regAfter hs)

theorem State.Canon.txWrite {e a v m} (hs : s.Canon) : (s.txWrite e a v m).Canon := by
  unfold State.txWrite
  extract_lets
  split
  · exact .aelReg hs
  · split
    next s' he =>
      have hs' : s'.Canon := .ofPair he (.commitTake hs)
      exact hs'
    next s' v m he =>
      have hs' : s'.Canon := .ofPair he (.commitTake hs)
      extract_lets
      split
      · exact .pmapSet hs'
      · exact .ite (.bistStart hs') hs'
      · exact .msSet hs'
      · exact .msSet hs'
      · exact .msSet hs'
      · exact .setFld (.segCfgWrite hs')
      · split
        · exact .regTake hs'
        · split
          · exact .aelReg hs'
          · exact .txAfter (.setReg hs')

theorem State.Canon.msRange {first n which count target stride owner evt} (hs : s.Canon) : (s.msRange first n which count target stride owner evt).Canon :=
  .foldl (fun _ h1 _ => .msSet (.ite (.setFld h1) h1)) hs

theorem State.Canon.effect {e} (hs : s.Canon) : (s.effect e).Canon := by
  unfold State.effect
  split
  · exact .txWrite hs
  · exact .msRange hs
  · exact .handover hs
  · exact .setOdo (.setFld hs)
  · exact hs

theorem execCommitSignalArrive_canon {dt t} (hs : s.Canon) : Answer.Canon (execCommitSignalArrive dt t s) :=
  .ite (.next (.txDone1 (.foldl (fun _ h4 _ => .ite (.refSets h4) h4) (.foldl (fun _ h3 _ => .effect h3) ⟨.same (.tick hs)⟩)))) (.next (.tick hs))

theorem State.Canon.sysPrepare {src sysid b} (hs : s.Canon) : (s.sysPrepare src sysid b).Canon := by
  unfold State.sysPrepare
  split
  · exact .ctlTo hs
  · exact .ite (.ctlTo hs) (.txBegin (.setTx hs))

theorem execSysPrepareMsg_canon {dt src sysid b} (hs : s.Canon) : Answer.Canon (execSysPrepareMsg dt src sysid b s) := .next (.sysPrepare (.tick hs))
theorem State.Canon.sysVote {src sysid refused} (hs : s.Canon) : (s.sysVote src sysid refused).Canon := ⟨.same hs⟩
theorem execSysVoteReply_canon {dt src sysid refused} (hs : s.Canon) : Answer.Canon (execSysVoteReply dt src sysid refused s) := .next (.sysVote (.tick hs))
theorem State.Canon.voteClose {c} (hs : s.Canon) : (s.voteClose c).Canon := by
  unfold State.voteClose
  extract_lets _ _ _ _ _ _ _ s8
  have h8 : s8.Canon := .foldl (fun _ h4 _ => .ctlTo h4) ⟨.same hs⟩
  split
  · exact ⟨.same (.setTx (.foldl (fun _ h1 _ => .ctlTo h1) hs))⟩
  · split
    · exact .txEnd h8
    · split
      · exact .coordCheck h8
      · exact h8

theorem execSysVoteClose_canon {dt sysid} (hs : s.Canon) : Answer.Canon (execSysVoteClose dt sysid s) := by
  unfold execSysVoteClose
  extract_lets
  split
  · exact .ite (.next (.voteClose (.tick hs))) (.next (.tick hs))
  · exact .next (.tick hs)

theorem State.Canon.sysGo {src sysid} (hs : s.Canon) : (s.sysGo src sysid).Canon := by
  unfold State.sysGo
  split
  · exact .setTx hs
  · exact hs

theorem execSysGoMsg_canon {dt src sysid} (hs : s.Canon) : Answer.Canon (execSysGoMsg dt src sysid s) := .next (.sysGo (.tick hs))
theorem State.Canon.sysAbort {src sysid} (hs : s.Canon) : (s.sysAbort src sysid).Canon := by
  unfold State.sysAbort
  split
  · exact .ite (.txEnd hs) (.ctlTo (.txEnd hs))
  · exact .ctlTo hs

theorem execSysAbortMsg_canon {dt src sysid} (hs : s.Canon) : Answer.Canon (execSysAbortMsg dt src sysid s) := .next (.sysAbort (.tick hs))
theorem execSysDoneMsg_canon {dt src sysid committed} (hs : s.Canon) : Answer.Canon (execSysDoneMsg dt src sysid committed s) := .next (.coordDone (.tick hs))
theorem State.Canon.contain {inv inst} (hs : s.Canon) : (s.contain inv inst).Canon := by
  unfold State.contain
  split
  · exact .fullRetrain hs
  · exact .dmaError hs
  · exact ⟨.same hs⟩
  · exact .pathAbort hs
  · exact .setFld hs
  · exact ⟨.same hs⟩
  · exact .slotFault hs

theorem State.Canon.violation {inv inst} (hs : s.Canon) : (s.violation inv inst).Canon := .contain (.tell (.setFld (.inc (.ite hs (.setReg hs)))))

theorem execTallySnapshot_canon {dt viol} (hs : s.Canon) : Answer.Canon (execTallySnapshot dt viol s) :=
  .ite (.next ⟨.same (.foldl (fun _ h3 _ => .violation h3) (.addWrap (.setFld (.tick hs))))⟩) (.next (.setFld (.tick hs)))

end Sys2Proof.Machine
end

section
/-! Junction messages: the stores stay canonical. -/
namespace Sys2Proof.Machine

variable {s : State}

theorem State.Canon.ctlTake {m} (hs : s.Canon) : (s.ctlTake m).Canon := by
  unfold State.ctlTake
  split
  · exact .sysPrepare hs
  · exact .sysVote hs
  · exact .sysVote hs
  · exact .sysGo hs
  · exact .sysAbort hs
  · exact .coordDone hs
  · exact .ite (.positionIn hs) hs

theorem State.Canon.ctlIn {m} (hs : s.Canon) : (s.ctlIn m).Canon := .ite (.ctlTake hs) (.ctlSend hs)
theorem execJctControlMessage_canon {dt j m} (hs : s.Canon) : Answer.Canon (execJctControlMessage dt j m s) := .next (.when (.tick hs) fun h => .ctlIn h)
theorem State.Canon.jmsgIn {j m} (hs : s.Canon) : (s.jmsgIn j m).Canon := by
  unfold State.jmsgIn
  extract_lets
  split
  · exact .helloIn (.ite (.setJct hs) hs)
  · exact .jctMsg hs
  · exact .jctTimeIn hs
  · exact .ctlIn hs

theorem State.Canon.exportMsg {j b} (hs : s.Canon) : (s.exportMsg j b).Canon := .exportIn hs
theorem State.Canon.flitTake {j f} (hs : s.Canon) : (s.flitTake j f).Canon := by
  unfold State.flitTake
  extract_lets
  split
  · exact .jmsgIn (.setJct hs)
  · exact .ite (.setJct hs) (.ite (.exportMsg (.setJct hs)) (.setJct hs))

theorem execFlitReceived_canon {dt j f} (hs : s.Canon) : Answer.Canon (execFlitReceived dt j f s) := by
  unfold execFlitReceived
  extract_lets
  split
  · exact .next (.tick hs)
  · split
    · exact .next (.inc (.tick hs))
    · split
      · split
        · exact .next (.jmsgIn (.tick hs))
        · exact .next (.tick hs)
      · exact .ite (.next (.tick hs)) (.next (.jctPump (.ite (.flitOut (.flitTake (.setJct (.tick hs)))) (.setJct (.tick hs)))))

end Sys2Proof.Machine
end

section
/-! Service procedures: the stores stay canonical. -/
namespace Sys2Proof.Machine

variable {s : State}

theorem State.Canon.svcReply {h st w} (hs : s.Canon) : (s.svcReply h st w).Canon := by
  unfold State.svcReply
  split
  · exact .reply hs
  · exact hs

theorem State.Canon.svcDrop {j} (hs : s.Canon) : (s.svcDrop j).Canon := ⟨.same hs⟩
theorem State.Canon.svcTx {j recs point arg phase} (hs : s.Canon) : (s.svcTx j recs point arg phase).Canon := by
  unfold State.svcTx
  extract_lets
  split
  next s' t he =>
    have hs' : s'.Canon := .ofPair he (.mcTx (.svcDrop hs))
    exact ⟨.same hs'⟩
  next s' he =>
    have hs' : s'.Canon := .ofPair he (.mcTx (.svcDrop hs))
    exact .svcReply hs'

theorem State.Canon.svcBist {j unit phase} (hs : s.Canon) : (s.svcBist j unit phase).Canon := .svcTx hs
theorem State.Canon.testColumn {h c} (hs : s.Canon) : (s.testColumn h c).Canon := by
  unfold State.testColumn
  extract_lets
  split
  · exact .svcBist hs
  · split
    · exact .svcTx hs
    · exact .svcReply hs

theorem State.Canon.svcReturn {j} (hs : s.Canon) : (s.svcReturn j).Canon := .svcTx hs
theorem State.Canon.rowOut {t bank row} (hs : s.Canon) : (s.rowOut t bank row).Canon := by
  unfold State.rowOut
  extract_lets _ _ _ _ s5
  have h5 : s5.Canon := .ite (.mapRecord (.setFld hs)) hs
  split
  · exact h5
  · split
    · exact .mapWrite h5
    · exact .unless h5 fun h => .retireTile h

theorem State.Canon.rowsOut {c} (hs : s.Canon) : (s.rowsOut c).Canon := .foldl (fun _ h2 _ => .rowOut h2) ⟨.same hs⟩
theorem State.Canon.svcSubst {k} (hs : s.Canon) : (s.svcSubst k).Canon := by
  unfold State.svcSubst
  split
  · exact .ite (.svcReturn (.rowsOut hs)) (.ite (.svcBist hs) (.svcReply (.svcDrop hs)))
  · exact hs

theorem State.Canon.bootTest (hs : s.Canon) : s.bootTest.Canon := .ite (.svcBist hs) hs
theorem State.Canon.svcTested {rows lost} (hs : s.Canon) : (s.svcTested rows lost).Canon := by
  unfold State.svcTested
  extract_lets
  split
  · exact .ite (.bootDone (.bootTest ⟨.same (.svcDrop hs)⟩)) (.ite (.svcReply (.svcDrop ⟨.same hs⟩)) (.svcReturn ⟨.same hs⟩))
  · exact hs

theorem State.Canon.moveConn {h c v} (hs : s.Canon) : (s.moveConn h c v).Canon := .ite (.svcReply hs) (.ite (.svcReply hs) (.svcTx ⟨.same hs⟩))
theorem State.Canon.pageCopy {k a b} (hs : s.Canon) : (s.pageCopy k a b).Canon := .ofMem hs (memWf_pageCopy _ _ _ _ hs.mem) rfl
theorem State.Canon.retirePage {h k l dst} (hs : s.Canon) : (s.retirePage h k l dst).Canon := by
  unfold State.retirePage
  extract_lets
  split
  · exact .svcReply hs
  · exact .ite (.svcReply hs) (.when (.svcTx (.setReg (.pageCopy (.setReg hs)))) fun h => .setFld h)

theorem State.Canon.shoulder {h mask on} (hs : s.Canon) : (s.shoulder h mask on).Canon := .svcTx hs
theorem State.Canon.switchSwap (hs : s.Canon) : s.switchSwap.Canon := by
  unfold State.switchSwap
  split
  · extract_lets
    split
    · exact .setFld (.setPair ⟨.same (.reply hs)⟩)
    · split
      · split
        next s' t he =>
          have hs' : s'.Canon := .ofPair he (.mcTx hs)
          exact ⟨.same hs'⟩
        next s' he =>
          have hs' : s'.Canon := .ofPair he (.mcTx hs)
          exact .setFld ⟨.same (.reply hs')⟩
      · exact hs
  · exact hs

theorem execPairRestore_canon {dt p res} (hs : s.Canon) : Answer.Canon (execPairRestore dt p res s) := by
  unfold execPairRestore
  extract_lets _ _ _ _ s5
  have h5 : s5.Canon := .setFld (.setPair (.tick hs))
  split
  · split
    · exact .next (.switchSwap (.switchEnd (.setFld ⟨.same (.setPair (.tick hs))⟩)))
    · split
      · exact .next ⟨.same (.tick hs)⟩
      · split
        · exact .next (.setFld ⟨.same (.reply h5)⟩)
        · exact .next h5
  · exact .next (.tick hs)

end Sys2Proof.Machine
end

section
/-! Errors, repairs and tests: the stores stay canonical. -/
namespace Sys2Proof.Machine

variable {s : State}

theorem State.Canon.msFault {m} (hs : s.Canon) : (s.msFault m).Canon :=
  .ite (.foldl (fun _ h2 _ => .abortCrewSeg h2) hs) (.setFld (.setFld (.setReg (.setReg hs))))

theorem State.Canon.eccHit {x} (hs : s.Canon) : (s.eccHit x).Canon := by
  unfold State.eccHit
  split
  · exact .writeW hs
  · exact .modTile hs
  · exact .writeW hs
  · exact .accPut hs
  · exact .modTile hs
  · exact .modTile hs
  · exact .modTile hs
  · exact .modTile hs
  · exact hs
  · exact ⟨StoresCanon.mk hs.stores.regs hs.stores.depot hs.stores.hbm (mapWf_mapSet _ _ _ _ hs.stores.depotMarks) hs.stores.hbmMarks⟩
  · exact ⟨.same hs⟩
  · exact .setRef hs
  · exact .loseLine hs
  · exact .abortCrewSeg hs
  · exact .hbmPutMark hs
  · exact hs
  · exact .msFault hs
  · exact .violation hs
  · exact .ite (.abortCrewSeg hs) hs
  · exact hs
  · exact ⟨.same hs⟩

theorem State.Canon.rowRetire {t bank row} (hs : s.Canon) : (s.rowRetire t bank row).Canon := by
  unfold State.rowRetire
  extract_lets
  split
  · exact hs
  · split
    · exact .rowOut hs
    · split
      · exact ⟨.same hs⟩
      · split
        · exact .svcTx ⟨.same hs⟩
        · exact ⟨.same hs⟩

theorem State.Canon.octetRetire {k q} (hs : s.Canon) : (s.octetRetire k q).Canon := by
  unfold State.octetRetire
  extract_lets
  split
  · split
    · exact .when ⟨.same (.slotRates (.setFld hs))⟩ fun h => .txEnd h
    · exact ⟨.same (.slotRates (.setFld hs))⟩
  · exact ⟨.same (.slotRates (.setFld hs))⟩

theorem State.Canon.pageRetire {k p dst} (hs : s.Canon) : (s.pageRetire k p dst).Canon := by
  unfold State.pageRetire
  extract_lets _ _ _ s4
  have h4 : s4.Canon := .when ⟨.same hs⟩ fun h => .tell h
  split
  · exact hs
  · split
    · exact .retirePage h4
    · exact ⟨.same h4⟩

theorem State.Canon.ceCount {x dst} (hs : s.Canon) : (s.ceCount x dst).Canon := by
  unfold State.ceCount
  extract_lets
  split
  · exact .when ⟨.same hs⟩ fun h => .rowRetire h
  · exact .when ⟨.same hs⟩ fun h => .rowRetire h
  · exact .when ⟨.same hs⟩ fun h => .pageRetire h
  · exact hs

theorem State.Canon.ueRegion {x reg dst} (hs : s.Canon) : (s.ueRegion x reg dst).Canon := by
  unfold State.ueRegion
  split
  · exact .rowRetire hs
  · exact .rowRetire hs
  · extract_lets _ s2
    have h2 : s2.Canon := by
      unfold s2
      split
      · split
        · exact .ite hs (.hbmWriteMig hs)
        · exact hs
      · exact .foldl (fun _ h1 _ => .catVoid h1) hs
      · exact hs
    exact .when ⟨.same h2⟩ fun h => .pageRetire h
  · exact .wayRead hs
  · exact hs

theorem State.Canon.scrubPass {cls} (hs : s.Canon) : (s.scrubPass cls).Canon := ⟨.same (.when (.ite (.setFld hs) hs) fun h => .addWrap h)⟩
theorem execScrubRead_canon {dt x ue scrub reg dst pass} (hs : s.Canon) : Answer.Canon (execScrubRead dt x ue scrub reg dst pass s) := by
  unfold execScrubRead
  extract_lets _ _ _ s4
  have h4 : s4.Canon := by
    unfold s4
    split
    · split
      next s' loc he =>
        have hs' : s'.Canon := .ofPair he (by
          split
          · exact (.tick hs)
          · exact .useFree (.tick hs))
        exact .when (.eccHit (.eccUe hs')) fun h => .ueRegion h
    · exact .ceCount (.eccCe (.tick hs))
  exact .next (by
    split
    · exact .scrubPass h4
    · exact h4)

theorem execRasHoldTimeout_canon {dt h} (hs : s.Canon) : Answer.Canon (execRasHoldTimeout dt h s) :=
  .ite (.next (.tell (.setFld (.setFld (.setFld (.tick hs)))))) (.next (.tick hs))

theorem execHbmPseudoChannelFault_canon {dt k pc} (hs : s.Canon) : Answer.Canon (execHbmPseudoChannelFault dt k pc s) := .next (.octetRetire (.tick hs))
theorem execAonSelfCheckMismatch_canon {dt} (hs : s.Canon) : Answer.Canon (execAonSelfCheckMismatch dt s) := .next (.tell (.logE (.setFld (.inc (.tick hs)))))
theorem State.Canon.bistTile {t rows spares fail} (hs : s.Canon) : (s.bistTile t rows spares fail).1.Canon := .foldlFst (fun _ h2 _ => by
  extract_lets
  split
  · exact h2
  · split
    · exact .mapWrite h2
    · exact h2) (.foldl (fun _ h1 _ => .mapRecord (.setFld h1)) hs)

theorem State.Canon.bistTileEnd {t fail} (hs : s.Canon) : (s.bistTileEnd t fail).Canon := .ite (.retireTile hs) (.setTState (.setTile hs))
theorem execBistComplete_canon {dt res unitFail} (hs : s.Canon) : Answer.Canon (execBistComplete dt res unitFail s) := by
  unfold execBistComplete
  extract_lets
  split
  · exact .next (.tick hs)
  · extract_lets
    split
    · exact .next (.svcTested (.when (.setFld (.setFld (.setFld (.setReg (.setFld ⟨.same (.tick hs)⟩))))) fun h => .setFld h))
    · split
      next s' rows bad he =>
        have hs' : s'.Canon := .ofPair he (.foldlFst (fun _ h7 _ => by
          extract_lets _ q
          have hq : q.1.Canon := by
            unfold q
            split
            · exact .bistTile h7
            · exact h7
          split
          · exact h7
          · exact .bistTileEnd hq) ⟨.same (.tick hs)⟩)
        exact .next (.svcTested (.laybyFree (.when (.setFld (.setFld (.setFld (.setReg hs')))) fun h => .setFld h)))

theorem State.Canon.tileCopy {a b} (hs : s.Canon) : (s.tileCopy a b).Canon := .ite hs ⟨.same (.setReg (.modTile (.writeWs hs)))⟩

theorem execSubstSwitch_canon {dt k} (hs : s.Canon) : Answer.Canon (execSubstSwitch dt k s) :=
  .ite (.next ⟨.same (.foldl (fun _ h2 _ => .ite (.tileCopy h2) (.tileCopy h2)) (.tick hs))⟩) (.next (.tick hs))

theorem execSubstCopyComplete_canon {dt k} (hs : s.Canon) : Answer.Canon (execSubstCopyComplete dt k s) :=
  .ite (.next (.svcSubst (.laybyFree (.repairPut (.setFld (.setFld ⟨.same (.tick hs)⟩)))))) (.next (.tick hs))

end Sys2Proof.Machine
end

section
/-! The command state machine: the stores stay canonical. -/
namespace Sys2Proof.Machine

variable {s : State}

theorem State.Canon.cmd {h p op ms k} (hs : s.Canon) (hk : ∀ u, State.Canon u → (k u).Canon) : (s.cmd h p op ms k).Canon := by
  unfold State.cmd
  split
  · exact .reply hs
  · exact hk _ hs

theorem State.Canon.cNop {h p} (hs : s.Canon) : (s.cNop h p).Canon := .cmd hs (fun _ h1 => .reply h1)
theorem State.Canon.cDevTime {h p} (hs : s.Canon) : (s.cDevTime h p).Canon := .cmd hs (fun _ h1 => .reply h1)
theorem State.Canon.cTxOpen {h p} (hs : s.Canon) : (s.cTxOpen h p).Canon := .cmd hs (fun _ h1 => by
  extract_lets t
  split
  · exact .reply h1
  · clear_value t
    split
    · exact .reply h1
    · exact .reply (.txNew h1)
    · exact .reply h1)

theorem State.Canon.cTxAdd {h p} (hs : s.Canon) : (s.cTxAdd h p).Canon := .cmd hs (fun _ h1 => by
  extract_lets t kind pay
  split
  · exact .reply h1
  · split
    · exact .reply h1
    · exact .ite (.reply h1) (.reply (.txAdd h1)))

theorem State.Canon.cTxPrepare {h p} (hs : s.Canon) : (s.cTxPrepare h p).Canon := .cmd hs (fun _ h1 => by
  extract_lets
  split
  · exact .reply h1
  · split
    · exact .reply h1
    · exact .ite (.reply h1) (.when (.txBegin (.setTx h1)) fun h => .txEnd h))

theorem State.Canon.cTxAbort {h p} (hs : s.Canon) : (s.cTxAbort h p).Canon := .cmd hs (fun _ h1 => by
  extract_lets
  split
  · exact .reply h1
  · exact .reply (.txEnd h1))

theorem State.Canon.cTxStatus {h p} (hs : s.Canon) : (s.cTxStatus h p).Canon := .cmd hs (fun _ h1 => .reply h1)
theorem State.Canon.cTxSysPrepare {h p} (hs : s.Canon) : (s.cTxSysPrepare h p).Canon := .cmd hs (fun _ h1 => by
  extract_lets
  split
  · exact .reply h1
  · split
    · exact .reply h1
    · split
      · exact .reply h1
      · exact .ite (.reply h1) (.ite (.reply h1) (.foldl (fun _ h5 _ => .ctlTo h5) (.replyPending (.txBegin ⟨.same (.setTx h1)⟩)))))

theorem State.Canon.cMsArrive {h p} (hs : s.Canon) : (s.cMsArrive h p).Canon := .cmd hs (fun _ h1 => .ite (.reply h1) (.reply (.msArriveBy h1)))

theorem State.Canon.msOwned {h m k} (hs : s.Canon) (hk : ∀ u, State.Canon u → (k u).Canon) : (s.msOwned h m k).Canon :=
  .ite (.reply (hk _ hs)) (.reply (.inc hs))

theorem State.Canon.cMsSet {h p} (hs : s.Canon) : (s.cMsSet h p).Canon := .cmd hs (fun _ h1 => .ite (.reply h1) (.msOwned h1 (fun _ h2 => .msSet h2)))
theorem State.Canon.cMsAdvance {h p} (hs : s.Canon) : (s.cMsAdvance h p).Canon := .cmd hs (fun _ h1 => .msOwned h1 (fun _ h2 => .msAdvance h2))
theorem State.Canon.cMsRead {h p} (hs : s.Canon) : (s.cMsRead h p).Canon := .cmd hs (fun _ h1 => .reply h1)
theorem State.Canon.cMsWait {h p} (hs : s.Canon) : (s.cMsWait h p).Canon := .cmd hs (fun _ h1 => .ite (.reply h1) (.ite (.reply h1) ⟨.same h1⟩))

theorem State.Canon.cCatRequest {h p} (hs : s.Canon) : (s.cCatRequest h p).Canon :=
  .cmd hs (fun _ h1 => .ite (.reply h1) (.ite (.reply h1) (.catStat ⟨.same h1⟩)))

theorem State.Canon.cCatVoid {h p} (hs : s.Canon) : (s.cCatVoid h p).Canon := .cmd hs (fun _ h1 => .ite (.reply h1) (.reply (.catVoid h1)))
theorem State.Canon.runC {x} (hs : s.Canon) : (s.runC x).Canon := by
  unfold State.runC
  extract_lets
  split
  · exact .cNop hs
  · exact .cDevTime hs
  · exact .cTxOpen hs
  · exact .cTxAdd hs
  · exact .cTxPrepare hs
  · exact .cTxAbort hs
  · exact .cTxStatus hs
  · exact .cTxSysPrepare hs
  · exact .cMsArrive hs
  · exact .cMsSet hs
  · exact .cMsAdvance hs
  · exact .cMsRead hs
  · exact .cMsWait hs
  · exact .cCatRequest hs
  · exact .cCatVoid hs
  · exact .reply hs

theorem State.Canon.fifoStat (hs : s.Canon) : s.fifoStat.Canon := .setFld (.setFld hs)
theorem State.Canon.csmStart {x} (hs : s.Canon) : (s.csmStart x).Canon := .ite (.ite (.reply hs) (.fifoStat ⟨.same hs⟩)) (.runC hs)
theorem State.Canon.settleQ {q n} (hs : s.Canon) : (s.settleQ q n).Canon := by
  induction n generalizing s with
  | zero => exact hs
  | succ n ih =>
    unfold State.settleQ
    extract_lets
    split
    · exact hs
    · exact .ite hs (ih (.csmStart (.setQueue hs)))

theorem State.Canon.settleNet {n} (hs : s.Canon) : (s.settleNet n).Canon := by
  induction n generalizing s with
  | zero => exact hs
  | succ n ih =>
    unfold State.settleNet
    split
    · exact hs
    · exact .ite hs (ih (.csmStart ⟨.same hs⟩))

theorem State.Canon.settle (hs : s.Canon) : s.settle.Canon := .settleNet (.foldl (fun _ h1 _ => .settleQ h1) hs)
theorem execSqFetchComplete_canon {dt q x} (hs : s.Canon) : Answer.Canon (execSqFetchComplete dt q x s) := by
  unfold execSqFetchComplete
  extract_lets
  split
  · exact .next (.settle (.tick hs))
  · split
    · exact .next (.setFld (.tick hs))
    · exact .next (.settle (.setQueue (.unless (.setFld (.setFld (.tick hs))) fun h => .setFld h)))

theorem execNop_canon {dt h p} (hs : s.Canon) : Answer.Canon (execNop dt h p s) := .next (.settle (.cNop (.tick hs)))
theorem execDevTime_canon {dt h p} (hs : s.Canon) : Answer.Canon (execDevTime dt h p s) := .next (.settle (.cDevTime (.tick hs)))
theorem execTxOpen_canon {dt h p} (hs : s.Canon) : Answer.Canon (execTxOpen dt h p s) := .next (.settle (.cTxOpen (.tick hs)))
theorem execTxAdd_canon {dt h p} (hs : s.Canon) : Answer.Canon (execTxAdd dt h p s) := .next (.settle (.cTxAdd (.tick hs)))
theorem execTxPrepare_canon {dt h p} (hs : s.Canon) : Answer.Canon (execTxPrepare dt h p s) := .next (.settle (.cTxPrepare (.tick hs)))
theorem execTxAbort_canon {dt h p} (hs : s.Canon) : Answer.Canon (execTxAbort dt h p s) := .next (.settle (.cTxAbort (.tick hs)))
theorem execTxStatus_canon {dt h p} (hs : s.Canon) : Answer.Canon (execTxStatus dt h p s) := .next (.settle (.cTxStatus (.tick hs)))
theorem execTxSysPrepare_canon {dt h p} (hs : s.Canon) : Answer.Canon (execTxSysPrepare dt h p s) := .next (.settle (.cTxSysPrepare (.tick hs)))
theorem execMsArrive_canon {dt h p} (hs : s.Canon) : Answer.Canon (execMsArrive dt h p s) := .next (.settle (.cMsArrive (.tick hs)))
theorem execMsSet_canon {dt h p} (hs : s.Canon) : Answer.Canon (execMsSet dt h p s) := .next (.settle (.cMsSet (.tick hs)))
theorem execMsAdvance_canon {dt h p} (hs : s.Canon) : Answer.Canon (execMsAdvance dt h p s) := .next (.settle (.cMsAdvance (.tick hs)))
theorem execMsRead_canon {dt h p} (hs : s.Canon) : Answer.Canon (execMsRead dt h p s) := .next (.settle (.cMsRead (.tick hs)))
theorem execMsWait_canon {dt h p} (hs : s.Canon) : Answer.Canon (execMsWait dt h p s) := .next (.settle (.cMsWait (.tick hs)))
theorem execCatRequest_canon {dt h p} (hs : s.Canon) : Answer.Canon (execCatRequest dt h p s) := .next (.settle (.cCatRequest (.tick hs)))
theorem execCatVoid_canon {dt h p} (hs : s.Canon) : Answer.Canon (execCatVoid dt h p s) := .next (.settle (.cCatVoid (.tick hs)))
theorem execMsWaitTimeout_canon {dt h} (hs : s.Canon) : Answer.Canon (execMsWaitTimeout dt h s) := by
  unfold execMsWaitTimeout
  extract_lets
  split
  · exact .next (.settle (.reply ⟨.same (.tick hs)⟩))
  · exact .next (.tick hs)

end Sys2Proof.Machine
end

section
/-! DMA beats: the stores stay canonical. -/
namespace Sys2Proof.Machine

variable {s : State}

theorem State.Canon.dmaHold {c b} (hs : s.Canon) : (s.dmaHold c b).Canon := .setChan hs
theorem State.Canon.dmaRead {c host} (hs : s.Canon) : (s.dmaRead c host).Canon := by
  unfold State.dmaRead
  extract_lets
  split
  · exact .ite (.dmaHold hs) (.dmaError (.depotRefuse hs))
  · split
    · exact .dmaHold (.chargeBest hs)
    · exact .dmaHold (.aelHbm (.chargeBest hs))
  · split
    · exact .dmaHold hs
    · exact .dmaError hs
  · split
    next s' v he =>
      have hs' : s'.Canon := .ofPair he (.bar0Read hs)
      exact .dmaHold hs'

theorem State.Canon.dmaDrain {c n} (hs : s.Canon) : (s.dmaDrain c n).Canon := .when (.dmaCur (.setChan hs)) fun h => .setFld h
theorem State.Canon.dmaWrite {c} (hs : s.Canon) : (s.dmaWrite c).Canon := by
  unfold State.dmaWrite
  extract_lets
  split
  · exact .ite (.depotPut (.dmaDrain hs)) (.dmaError (.depotRefuse hs))
  · exact .hbmWrite (.chargeBest (.dmaDrain hs))
  · exact .emit (.dmaDrain hs)
  · exact .ite (.dmaError hs) (.bar0Write (.dmaDrain hs))

theorem execDmaBeat_canon {dt l wrFirst host} (hs : s.Canon) : Answer.Canon (execDmaBeat dt l wrFirst host s) := by
  unfold execDmaBeat
  extract_lets
  split
  · exact .next (.tick hs)
  · exact .ite (.next (.dmaWrite ⟨.same (.tick hs)⟩)) (.next (.dmaRead ⟨.same (.tick hs)⟩))

end Sys2Proof.Machine
end

section
/-! Commands of the management controller: the stores stay canonical. -/
namespace Sys2Proof.Machine

variable {s : State}

theorem State.Canon.mcTake {h p} (hs : s.Canon) : (s.mcTake h p).Canon := ⟨.same (.ite (.fifoStat ⟨.same hs⟩) hs)⟩
theorem State.Canon.mcCmd {h p op ms k} (hs : s.Canon) (hk : ∀ u, State.Canon u → (k u).Canon) : (s.mcCmd h p op ms k).Canon := by
  unfold State.mcCmd
  extract_lets
  refine .ite (.ite hs (.fifoStat ⟨.same hs⟩)) (.ite (.reply (.mcTake hs)) ?_)
  split
  · exact .reply (.mcTake hs)
  · exact hk _ (.mcTake hs)

theorem State.Canon.withBuf {h x k} (hs : s.Canon) (hk : ∀ b, (k b).Canon) : (s.withBuf h x k).Canon := by
  unfold State.withBuf
  split
  · exact hk _
  · exact .reply hs

theorem execDevInfo_canon {dt h p} (hs : s.Canon) : Answer.Canon (execDevInfo dt h p s) := .next (.settle (.mcCmd (.tick hs) (fun _ h1 => .reply h1)))
theorem State.Canon.setBank {b x} (hs : s.Canon) : (s.setBank b x).Canon := ⟨.same hs⟩

theorem State.Canon.mModelLoad {h p x pkg} (hs : s.Canon) : (s.mModelLoad h p x pkg).Canon :=
  .mcCmd hs (fun _ h1 => .ite (.reply h1) (.ite (.reply h1) (.withBuf (.replyPending h1) (fun _ => by
  extract_lets
  split
  · exact .reply (.setBank (.replyPending h1))
  · exact .reply (.setBank (.setBank (.replyPending h1)))))))

theorem execModelLoad_canon {dt h p x pkg} (hs : s.Canon) : Answer.Canon (execModelLoad dt h p x pkg s) := .next (.settle (.mModelLoad (.tick hs)))
theorem execModelInfo_canon {dt h p} (hs : s.Canon) : Answer.Canon (execModelInfo dt h p s) := .next (.settle (.mcCmd (.tick hs) (fun _ h1 => .reply h1)))

theorem execModelUnload_canon {dt h p} (hs : s.Canon) : Answer.Canon (execModelUnload dt h p s) :=
  .next (.settle (.mcCmd (.tick hs) (fun _ h1 => .ite (.reply h1) (.reply (.setBank h1)))))

theorem execConnInfo_canon {dt h p} (hs : s.Canon) : Answer.Canon (execConnInfo dt h p s) := .next (.settle (.mcCmd (.tick hs) (fun _ h1 => .reply h1)))

theorem execCxpCtrl_canon {dt h p} (hs : s.Canon) : Answer.Canon (execCxpCtrl dt h p s) :=
  .ite (.next (.tick hs)) (.next (.settle (.mcCmd (.tick hs) (fun _ h2 => .ite (.reply h2) (.ite (.reply h2) (.toCamera (.setConn h2)))))))

theorem execRingSetup_canon {dt h p} (hs : s.Canon) : Answer.Canon (execRingSetup dt h p s) :=
  .next (.settle (.mcCmd (.tick hs) (fun _ h1 => .ite (.reply (.setFld h1)) (.ite (.reply h1) (.reply (.setFld (.setFld (.setFld (.setERing (.ite (.setFld
    (.setFld h1)) h1))))))))))

theorem execPwrDevice_canon {dt h p} (hs : s.Canon) : Answer.Canon (execPwrDevice dt h p s) :=
  .next (.settle (.mcCmd (.tick hs) (fun _ h1 => .ite (.reply h1) (.ite (.reply h1) (.enter (.reply (.calFlashWrite (.mirrorLog h1))))))))

theorem State.Canon.mPwrPolicy {h p x} (hs : s.Canon) : (s.mPwrPolicy h p x).Canon := .mcCmd hs (fun _ h1 => .withBuf h1 (fun _ => by
  split
  · exact .reply h1
  · exact .ite (.reply h1) (.reply (.noiseEnable (.applyPolicy ⟨.same h1⟩)))))

theorem execPwrPolicy_canon {dt h p x} (hs : s.Canon) : Answer.Canon (execPwrPolicy dt h p x s) := .next (.settle (.mPwrPolicy (.tick hs)))
theorem State.Canon.hottest (hs : s.Canon) : s.hottest.1.Canon := by
  unfold State.hottest
  extract_lets
  split
  · exact hs
  · exact .useFree hs

theorem execPwrRead_canon {dt h p mw ma} (hs : s.Canon) : Answer.Canon (execPwrRead dt h p mw ma s) := .next (.settle (.mcCmd (.tick hs) (fun _ h1 => by
  split
  next s' t he =>
    have hs' : s'.Canon := .ofPair he (.hottest h1)
    exact .reply hs')))

theorem execCalRun_canon {dt h p iref} (hs : s.Canon) : Answer.Canon (execCalRun dt h p iref s) := .next (.settle (.mcCmd (.tick hs) (fun _ h1 => by
  split
  · exact .reply h1
  · extract_lets m s1
    have h1 : s1.Canon := .calDueMask (.replyPending h1)
    exact .ite (.reply h1) ⟨.same h1⟩)))

theorem execCalRead_canon {dt h p} (hs : s.Canon) : Answer.Canon (execCalRead dt h p s) :=
  .next (.settle (.mcCmd (.tick hs) (fun _ h1 => .ite (.reply h1) (.reply h1))))

theorem execSvcTestColumn_canon {dt h p} (hs : s.Canon) : Answer.Canon (execSvcTestColumn dt h p s) :=
  .next (.settle (.mcCmd (.tick hs) (fun _ h1 => .ite (.reply h1) (.ite (.reply h1) (.testColumn (.replyPending h1))))))

theorem execSvcMoveConn_canon {dt h p} (hs : s.Canon) : Answer.Canon (execSvcMoveConn dt h p s) :=
  .next (.settle (.mcCmd (.tick hs) (fun _ h1 => .ite (.reply h1) (.moveConn (.replyPending h1)))))

theorem execSvcRetirePage_canon {dt h p dst} (hs : s.Canon) : Answer.Canon (execSvcRetirePage dt h p dst s) :=
  .next (.settle (.mcCmd (.tick hs) (fun _ h1 => .ite (.reply h1) (.ite (.reply h1) (.retirePage (.replyPending h1))))))

theorem execSvcShoulder_canon {dt h p} (hs : s.Canon) : Answer.Canon (execSvcShoulder dt h p s) :=
  .next (.settle (.mcCmd (.tick hs) (fun _ h1 => .shoulder (.replyPending h1))))

theorem execSvcReport_canon {dt h p} (hs : s.Canon) : Answer.Canon (execSvcReport dt h p s) :=
  .next (.settle (.mcCmd (.tick hs) (fun _ h1 => .ite (.reply h1) (.reply (.emit h1)))))

theorem execLogRead_canon {dt h p} (hs : s.Canon) : Answer.Canon (execLogRead dt h p s) :=
  .next (.settle (.mcCmd (.tick hs) (fun _ h1 => .ite (.reply h1) (.reply (.ite h1 (.emit h1))))))

theorem execLogMark_canon {dt h p} (hs : s.Canon) : Answer.Canon (execLogMark dt h p s) := .next (.settle (.mcCmd (.tick hs) (fun _ h1 => .reply (.logE h1))))

theorem State.Canon.mUpdWrite {h p x} (hs : s.Canon) : (s.mUpdWrite h p x).Canon :=
  .mcCmd hs (fun _ h1 => .ite (.reply h1) (.ite (.reply h1) (.withBuf (.replyPending h1) (fun _ => .reply (.setFwSlot (.replyPending h1))))))

theorem execUpdWrite_canon {dt h p x} (hs : s.Canon) : Answer.Canon (execUpdWrite dt h p x s) := .next (.settle (.mUpdWrite (.tick hs)))
theorem execUpdVerify_canon {dt h p} (hs : s.Canon) : Answer.Canon (execUpdVerify dt h p s) := .next (.settle (.mcCmd (.tick hs) (fun _ h1 => by
  extract_lets
  split
  · exact .reply (.replyPending h1)
  · exact .ite (.reply (.replyPending h1)) (.reply (.setFwSlot (.replyPending h1))))))

theorem execUpdSwitch_canon {dt h p} (hs : s.Canon) : Answer.Canon (execUpdSwitch dt h p s) :=
  .next (.settle (.mcCmd (.tick hs) (fun _ h1 => .ite (.setFld (.setFld (.reply ⟨.same h1⟩))) (.ite (.reply h1) (.ite (.reply h1) (.ite (.reply h1) ⟨.same
    (.setFld (.setPair (.replyPending h1)))⟩))))))

theorem execNetStatus_canon {dt h p} (hs : s.Canon) : Answer.Canon (execNetStatus dt h p s) :=
  .next (.settle (.mcCmd (.tick hs) (fun _ h1 => .ite (.reply h1) (.reply h1))))

theorem State.Canon.mNetConfig {h p x} (hs : s.Canon) : (s.mNetConfig h p x).Canon :=
  .mcCmd hs (fun _ h1 => .ite (.reply h1) (.withBuf h1 (fun _ => .ite (.reply h1) (.reply (.foldl (fun _ h2 _ => .bar0Write h2) h1)))))

theorem execNetConfig_canon {dt h p x} (hs : s.Canon) : Answer.Canon (execNetConfig dt h p x s) := .next (.settle (.mNetConfig (.tick hs)))

theorem execPlbCensus_canon {dt h p} (hs : s.Canon) : Answer.Canon (execPlbCensus dt h p s) :=
  .next (.settle (.mcCmd (.tick hs) (fun _ h1 => .reply (.ite h1 (.emit h1)))))

theorem State.Canon.keyInstall {type slot mask key} (hs : s.Canon) : (s.keyInstall type slot mask key).Canon := by
  unfold State.keyInstall
  extract_lets
  split
  · exact .setFld ⟨.same hs⟩
  · exact .setFld ⟨.same hs⟩
  · exact .setFld ⟨.same hs⟩
  · exact .setFld ⟨.same hs⟩

theorem State.Canon.mSecKeySet {h p x} (hs : s.Canon) : (s.mSecKeySet h p x).Canon := .mcCmd hs (fun _ h1 => .withBuf h1 (fun _ => by
  extract_lets
  split
  · exact .reply h1
  · split
    · exact .reply h1
    · split
      · exact .reply h1
      · split
        · exact .reply h1
        · exact .reply (.logE (.keyInstall ⟨.same h1⟩))))

theorem execSecKeySet_canon {dt h p x} (hs : s.Canon) : Answer.Canon (execSecKeySet dt h p x s) := .next (.settle (.mSecKeySet (.tick hs)))
theorem execSecDbgChallenge_canon {dt h p} (hs : s.Canon) : Answer.Canon (execSecDbgChallenge dt h p s) := .next (.settle (.mcCmd (.tick hs) (fun _ h1 => by
  split
  next s' w he =>
    have hs' : s'.Canon := .ofPair he (.frees h1)
    exact .reply ⟨.same hs'⟩)))

theorem State.Canon.mSecDbgUnlock {h p x} (hs : s.Canon) : (s.mSecDbgUnlock h p x).Canon :=
  .mcCmd hs (fun _ h1 => .withBuf h1 (fun _ => .ite (.reply (.logE ⟨.same (.setFld (.setFld ⟨.same h1⟩))⟩)) (.reply ⟨.same h1⟩)))

theorem execSecDbgUnlock_canon {dt h p x} (hs : s.Canon) : Answer.Canon (execSecDbgUnlock dt h p x s) := .next (.settle (.mSecDbgUnlock (.tick hs)))

end Sys2Proof.Machine
end

section
/-! The network: the stores stay canonical. -/
namespace Sys2Proof.Machine

variable {s : State}

theorem State.Canon.setSrc {x} (hs : s.Canon) : (s.setSrc x).Canon := ⟨.same hs⟩
theorem State.Canon.plbUpd {b f} (hs : s.Canon) : (s.plbUpd b f).Canon := ⟨.same hs⟩
theorem State.Canon.censusFlag {p mac f} (hs : s.Canon) : (s.censusFlag p mac f).Canon := .ite hs (.plbUpd hs)
theorem State.Canon.censusSee {b mac node} (hs : s.Canon) : (s.censusSee b mac node).Canon := .plbUpd hs
theorem State.Canon.srcFails {p mac} (hs : s.Canon) : (s.srcFails p mac).Canon := .ite (.censusFlag (.setSrc hs)) (.setSrc hs)
theorem State.Canon.quarCount {p} (hs : s.Canon) : (s.quarCount p).Canon := .ite (.inc hs) (.inc hs)
theorem State.Canon.seqTake {k o q} (hs : s.Canon) : (s.seqTake k o q).Canon := .when ⟨.same hs⟩ fun h => ⟨.same h⟩
theorem State.Canon.dgramDrop {p mac why} (hs : s.Canon) : (s.dgramDrop p mac why).Canon := .srcFails (by
  split
  · exact .inc hs
  · exact .inc hs
  · exact .inc hs)

theorem State.Canon.cmdDgram {p mac src sport b} (hs : s.Canon) : (s.cmdDgram p mac src sport b).Canon := by
  unfold State.cmdDgram
  extract_lets _ _ s3
  have h3 : s3.Canon := .censusFlag (.seqTake hs)
  split
  · exact .dgramDrop hs
  · exact .ite (.reply ⟨.same h3⟩) (.ite (.reply (.inc ⟨.same h3⟩)) (.settle ⟨.same h3⟩))

theorem State.Canon.plantEvent {p mac b} (hs : s.Canon) : (s.plantEvent p mac b).Canon := by
  unfold State.plantEvent
  extract_lets _ _ s3
  have h3 : s3.Canon := .censusFlag (.seqTake hs)
  split
  · exact .dgramDrop hs
  · exact .ite (.inc h3) (.ite (.setFld (.setFld (.setFld (.setFld h3)))) (.settle (.msArriveBy h3)))

theorem execCommandDatagram_canon {dt p mac src sport b} (hs : s.Canon) : Answer.Canon (execCommandDatagram dt p mac src sport b s) :=
  .ite (.next (.tick hs)) (.ite (.next (.quarCount (.tick hs))) (.next (.cmdDgram (.tick hs))))

theorem execPlantEventDatagram_canon {dt p mac b} (hs : s.Canon) : Answer.Canon (execPlantEventDatagram dt p mac b s) :=
  .ite (.next (.tick hs)) (.ite (.next (.quarCount (.tick hs))) (.next (.plantEvent (.tick hs))))

theorem State.Canon.gvspIn {p c m} (hs : s.Canon) : (s.gvspIn p c m).Canon := by
  unfold State.gvspIn
  extract_lets
  split
  · exact .inc hs
  · exact hs
  · extract_lets
    split
    · exact hs
    · split
      · exact .tell (.setConn (.setConnState (.setConn (.setFld (.setFld hs)))))
      · exact (.setConn (.setFld (.setFld hs)))

theorem State.Canon.rxDiscard {p} (hs : s.Canon) : (s.rxDiscard p).Canon := .ite (.inc hs) hs

theorem State.Canon.arpIn {p op ip mac target} (hs : s.Canon) : (s.arpIn p op ip mac target).Canon :=
  .ite (.rxDiscard hs) (.ite (.emit hs) (.ite (.arpLearn hs) (.rxDiscard hs)))

theorem State.Canon.frameIn {p f} (hs : s.Canon) : (s.frameIn p f).Canon := by
  unfold State.frameIn
  split
  · exact .arpIn hs
  · exact .ite (.emit hs) (.rxDiscard hs)
  · exact .ite (.rxDiscard hs) (.ite (.cmdDgram hs) (.ite (.plantEvent hs) (.rxDiscard hs)))
  · split
    · exact .ite (.gvspIn hs) (.rxDiscard hs)
    · exact .rxDiscard hs
  · exact .ite (.ptpIn hs) (.rxDiscard hs)
  · exact .ite (.inc hs) hs
  · exact .rxDiscard hs
  · exact .rxDiscard hs

theorem execEthFrameReceived_canon {dt p f} (hs : s.Canon) : Answer.Canon (execEthFrameReceived dt p f s) :=
  .ite (.next (.tick hs)) (.ite (.next (.inc (.tick hs))) (.ite (.next (.quarCount (.tick hs))) (.ite (.next (.rxDiscard (.tick hs))) (.next (.frameIn
    (.tick hs))))))

theorem execArpRetry_canon {dt p ip} (hs : s.Canon) : Answer.Canon (execArpRetry dt p ip s) := .ite (.next (.arpRetry (.tick hs))) (.next (.tick hs))
theorem execRsFlushTimeout_canon {dt k} (hs : s.Canon) : Answer.Canon (execRsFlushTimeout dt k s) := .ite (.next (.rsFlush (.tick hs))) (.next (.tick hs))

theorem execEthLinkUp_canon {dt p speed fec page abil} (hs : s.Canon) : Answer.Canon (execEthLinkUp dt p speed fec page abil s) :=
  .ite (.next (.foldl (fun _ h4 _ => .ite (.rsPump h4) h4) (.gvRefreshAll ⟨.same (.setFld (.setFld (.setFld (.tick hs))))⟩))) (.next (.tick hs))

theorem execEthLinkLoss_canon {dt p} (hs : s.Canon) : Answer.Canon (execEthLinkLoss dt p s) := .ite (.next (.netDown (.tick hs))) (.next (.tick hs))
theorem State.Canon.plbNoise {b} (hs : s.Canon) : (s.plbNoise b).Canon := .inc (.when (.plbUpd hs) fun h => .setFld h)

theorem execPlbFrameReceived_canon {dt b node f} (hs : s.Canon) : Answer.Canon (execPlbFrameReceived dt b node f s) :=
  .ite (.next (.tick hs)) (.ite (.next (.plbNoise (.tick hs))) (.ite (.next (.quarCount (.tick hs))) (.next (.unless (.censusSee
    (.tick hs)) fun h => .frameIn h))))

theorem State.Canon.plbCollide {b again} (hs : s.Canon) : (s.plbCollide b again).Canon := .when (.inc (.plbUpd hs)) fun h => .tell (.setFld h)

theorem execPlbCollision_canon {dt b attempt again} (hs : s.Canon) : Answer.Canon (execPlbCollision dt b attempt again s) :=
  .ite (.next (.tick hs)) (.next (.when (.plbCollide (.tick hs)) fun h => .inc h))

theorem execPlbBeaconTimeout_canon {dt b fifty} (hs : s.Canon) : Answer.Canon (execPlbBeaconTimeout dt b fifty s) := by
  unfold execPlbBeaconTimeout
  extract_lets _ _ _ s4
  have h4 : s4.Canon := .when (.tick hs) fun h => .setFld (.setFld h)
  exact .ite (.next (.emit (.plbUpd (.setFld (.setFld h4))))) (.next h4)

theorem execPlbBeaconReceived_canon {dt b cnt} (hs : s.Canon) : Answer.Canon (execPlbBeaconReceived dt b cnt s) :=
  .ite (.next (.plbUpd (.setFld (.plbUpd (.tick hs))))) (.ite (.next (.plbCollide (.plbUpd (.tick hs)))) (.ite (.next (.plbUpd (.setFld (.plbUpd
    (.tick hs))))) (.next (.plbUpd (.tick hs)))))

theorem execQuarantineExpire_canon {dt p mac} (hs : s.Canon) : Answer.Canon (execQuarantineExpire dt p mac s) :=
  .ite (.next (.censusFlag (.setSrc (.tick hs)))) (.next (.tick hs))

theorem execSpeedHintCheck_canon {dt} (hs : s.Canon) : Answer.Canon (execSpeedHintCheck dt s) := by
  unfold execSpeedHintCheck
  extract_lets
  split
  · split
    · exact .next (.when (.useFree ⟨.same (.tick hs)⟩) fun h => .tell (.setFld h))
  · exact .next (.tick hs)

theorem execSpeedHintExpire_canon {dt} (hs : s.Canon) : Answer.Canon (execSpeedHintExpire dt s) := .next (.ite ⟨.same (.setFld (.tick hs))⟩ (.tick hs))
theorem execEgressRecord_canon {dt x} (hs : s.Canon) : Answer.Canon (execEgressRecord dt x s) := .next (.egress (.tick hs))
theorem execEgressTailReport_canon {dt r} (hs : s.Canon) : Answer.Canon (execEgressTailReport dt r s) := .next (.tailReport (.tick hs))

end Sys2Proof.Machine
end

section
/-! Start-up: the stores stay canonical. -/
namespace Sys2Proof.Machine

variable {s : State}

theorem State.Canon.fuseRegs (hs : s.Canon) : s.fuseRegs.Canon :=
  .setFld (.setFld (.setFld (.setFld (.foldl (fun _ h4 _ => .setFld h4) (.foldl (fun _ h3 _ => .setFld h3) (.setFld (.setFld (.setFld hs))))))))

theorem State.Canon.powerUp {unread} (hs : s.Canon) : (s.powerUp unread).Canon := .wakeStart (.setFld (.fuseRegs ⟨.same hs⟩))

theorem execAonPowerUp_canon {dt unread} (hs : s.Canon) : Answer.Canon (execAonPowerUp dt unread s) :=
  .ite (.next (.powerUp (.setFld ⟨.same (.tick hs)⟩))) (.next (.tick hs))

theorem State.Canon.sysReset (_ : s.Canon) : s.sysReset.Canon := ⟨.same .reset⟩
theorem execSysReset_canon {dt unread} (hs : s.Canon) : Answer.Canon (execSysReset dt unread s) := .next (.powerUp (.setFld (.sysReset (.tick hs))))
theorem State.Canon.repairTiles (hs : s.Canon) : s.repairTiles.Canon := .foldl (fun _ h1 _ => .ite (.setFld h1) (.ite (.setCal h1) h1)) hs

theorem State.Canon.keysRestore {ok} (hs : s.Canon) : (s.keysRestore ok).Canon :=
  .ite (.setFld (.setFld (.setFld ⟨.same hs⟩))) (.setFld (.setFld (.setFld (.setFld ⟨.same hs⟩))))

theorem State.Canon.recordsRestore {cal rep pol} (hs : s.Canon) : (s.recordsRestore cal rep pol).Canon :=
  .noiseEnable (.applyPolicy (.repairTiles (.unless ⟨.same (.unless ⟨.same (.unless ⟨.same hs⟩ fun h => .setFld h)⟩ fun h => .setFld h)⟩ fun h => .setFld h)))

theorem State.Canon.bootWork {iref} (hs : s.Canon) : (s.bootWork iref).Canon := .askColumns (.calDueMask (.setFld (.setFld ⟨.same hs⟩)))

theorem State.Canon.bootImage {k im cal rep pol key iref} (hs : s.Canon) : (s.bootImage k im cal rep pol key iref).Canon :=
  .bootWork (.keysRestore (.recordsRestore (.setFld (.setFld ⟨.same hs⟩))))

theorem State.Canon.recovery (hs : s.Canon) : s.recovery.Canon := by
  unfold State.recovery
  exact .tollCancel (.setFld (.setFld hs))

theorem execBootRomVerifyComplete_canon {dt cal rep pol key iref} (hs : s.Canon) : Answer.Canon (execBootRomVerifyComplete dt cal rep pol key iref s) := by
  unfold execBootRomVerifyComplete
  extract_lets
  split
  · split
    · exact .next (.settle (.bootImage (.tick hs)))
    · extract_lets
      split
      · exact .next (.settle (.bootImage (.logE (.tick hs))))
      · exact .next (.settle (.recovery (.logE (.logE (.tick hs)))))
  · exact .next (.tick hs)

theorem State.Canon.wakeRestore {iref} (hs : s.Canon) : (s.wakeRestore iref).Canon :=
  .askColumns (.calDueMask (.noiseEnable (.applyPolicy (.repairTiles (.repairPages hs)))))

theorem execDomainReady_canon {dt d ref iref} (hs : s.Canon) : Answer.Canon (execDomainReady dt d ref iref s) :=
  .next (.when (.when (.when (.domainReady (.tick hs)) fun h => .fuseRegs h) fun h => .wakeRestore h) fun h => .bootTest h)

theorem State.Canon.hbmZero {k} (hs : s.Canon) : (s.hbmZero k).Canon := .ofMem hs (memWf_hbmZero _ _ hs.mem) rfl
theorem execHbmTrainingComplete_canon {dt k fail} (hs : s.Canon) : Answer.Canon (execHbmTrainingComplete dt k fail s) := by
  unfold execHbmTrainingComplete
  extract_lets
  split
  · split
    · exact .ite (.next (.setFld (.octetRetire ⟨.same (.tick hs)⟩))) (.next ⟨.same (.tick hs)⟩)
    · exact .next (.stageSeven ⟨.same (.hbmZero (.tick hs))⟩)
  · exact .next (.tick hs)

theorem execTestRotationDue_canon {dt i} (hs : s.Canon) : Answer.Canon (execTestRotationDue dt i s) :=
  .ite (.next (.tick hs)) (.ite (.next (.testColumn (.tick hs))) (.next (.svcBist (.tick hs))))

theorem State.Canon.dropM (hs : s.Canon) : s.dropM.Canon := .foldl (fun _ h1 _ => .reply ⟨.same h1⟩) hs
theorem State.Canon.pairFail {p} (hs : s.Canon) : (s.pairFail p).Canon := .setPair ⟨.same hs⟩
theorem State.Canon.takeImage (hs : s.Canon) : s.takeImage.Canon := by
  unfold State.takeImage
  split
  · exact .ite (.setFld ⟨.same hs⟩) hs
  · exact hs

theorem State.Canon.failover {q} (hs : s.Canon) : (s.failover q).Canon :=
  .foldl (fun _ h4 _ => .ite (.txEnd h4) h4) (.dropM (.inc (.setFld (.setFld (.setPair (.takeImage hs))))))

theorem State.Canon.mcGoneNow (hs : s.Canon) : s.mcGoneNow.Canon := .foldl (fun _ h3 _ => .reply h3) (.fifoStat ⟨.same (.setFld (.dropM hs))⟩)
theorem State.Canon.switchLost (hs : s.Canon) : s.switchLost.Canon := by
  unfold State.switchLost
  extract_lets
  split
  · extract_lets s1
    have h1 : s1.Canon := by
      unfold s1
      split
      · exact .when (.setFld ⟨.same hs⟩) fun h => .txEnd h
      · exact (.setFld ⟨.same hs⟩)
    exact .reply h1
  · exact hs

theorem execPairFault_canon {dt p cause} (hs : s.Canon) : Answer.Canon (execPairFault dt p cause s) :=
  .ite (.next (.tick hs)) (.ite (.ite (.next (.setFld (.setFld (.setPair (.pairFail (.logE (.tick hs))))))) (.ite (.next (.settle (.failover (.pairFail
    (.logE (.tick hs)))))) (.next (.settle (.mcGoneNow (.pairFail (.logE (.tick hs)))))))) (.ite (.next (.settle (.pairFail (.switchLost (.logE
    (.tick hs)))))) (.next (.pairFail (.logE (.tick hs))))))

theorem execPerstAssert_canon {dt} (hs : s.Canon) : Answer.Canon (execPerstAssert dt s) :=
  .ite (.next (.tick hs)) (.next (.foldl (fun _ h3 _ => .when (.setFld h3) fun h => .setERing h) (.foldl (fun _ h2 _ => .ite (.setFld h2) (.foldl
    (fun _ h5 _ => .cmdDone h5) (.setQueue (.setFld h2)))) (.tick hs))))

theorem State.Canon.bufferLost {h p} (hs : s.Canon) : (s.bufferLost h p).Canon := by
  unfold State.bufferLost
  split
  · exact .mModelLoad hs
  · exact .mPwrPolicy hs
  · exact .mUpdWrite hs
  · exact .mNetConfig hs
  · exact .mSecKeySet hs
  · exact .mSecDbgUnlock hs
  · exact hs

theorem execPcieCompletionTimeout_canon {dt x} (hs : s.Canon) : Answer.Canon (execPcieCompletionTimeout dt x s) := by
  unfold execPcieCompletionTimeout
  extract_lets
  split
  · exact .ite (.next (.dmaError (.tick hs))) (.next (.tick hs))
  · exact .ite (.next (.tick hs)) (.next (.setFld (.tick hs)))
  · exact .next (.settle (.bufferLost (.tick hs)))

end Sys2Proof.Machine
end

section
/-! Stream operations: the stores stay canonical. -/
namespace Sys2Proof.Machine

variable {s : State}

theorem execStreamRequestIssue_canon {dt k} (hs : s.Canon) : Answer.Canon (execStreamRequestIssue dt k s) :=
  .ite (.next (.engineIssue (.tick hs))) (.next (.tick hs))

theorem execStreamReadComplete_canon {dt k z} (hs : s.Canon) : Answer.Canon (execStreamReadComplete dt k z s) := by
  unfold execStreamReadComplete
  extract_lets
  split
  · exact .next (.deliverRead (.setEngine (.tick hs)))
  · exact .next (.tick hs)

theorem execStreamWritePulled_canon {dt k z} (hs : s.Canon) : Answer.Canon (execStreamWritePulled dt k z s) := by
  unfold execStreamWritePulled
  extract_lets
  split
  · exact .ite (.next (.engineTake (.tick hs))) (.next (.tick hs))
  · exact .next (.tick hs)

end Sys2Proof.Machine
end

section
/-! Every instruction, and so every step, leaves canonical stores. -/
namespace Sys2Proof.Machine

variable {s : State}

/-- Each instruction keeps the stores canonical, by the lemma of its own meaning. -/
theorem exec_canon (hs : s.Canon) (i : Instr) : Answer.Canon (exec i s) := by
  unfold exec
  cases i with
  | regRead64Low => exact execRegRead64Low_canon hs
  | regWrite64High => exact execRegWrite64High_canon hs
  | regReadClear => exact execRegReadClear_canon hs
  | registerWrite => exact execRegisterWrite_canon hs
  | devApertureWrite => exact execDevApertureWrite_canon hs
  | bar4Access => exact execBar4Access_canon hs
  | bar2Access => exact execBar2Access_canon hs
  | measUpdate => exact execMeasUpdate_canon hs
  | columnPowerGood => exact execColumnPowerGood_canon hs
  | dllLock => exact execDllLock_canon hs
  | dllLockTimeout => exact execDllLockTimeout_canon hs
  | dllLockLoss => exact execDllLockLoss_canon hs
  | linkSignalDetect => exact execLinkSignalDetect_canon hs
  | cxpControlReply => exact execCxpControlReply_canon hs
  | cxpControlTimeout => exact execCxpControlTimeout_canon hs
  | linkLock => exact execLinkLock_canon hs
  | linkLockTimeout => exact execLinkLockTimeout_canon hs
  | linkLockLoss => exact execLinkLockLoss_canon hs
  | connAbsentTimeout => exact execConnAbsentTimeout_canon hs
  | heartbeat => exact execHeartbeat_canon hs
  | cxpEventPacket => exact execCxpEventPacket_canon hs
  | cxpCameraTriggerPacket => exact execCxpCameraTriggerPacket_canon hs
  | lineReceived => exact execLineReceived_canon hs
  | lineTimeout => exact execLineTimeout_canon hs
  | tdrMeasure => exact execTdrMeasure_canon hs
  | tdrComplete => exact execTdrComplete_canon hs
  | encoderEdge => exact execEncoderEdge_canon hs
  | encoderGlitch => exact execEncoderGlitch_canon hs
  | posSuspectEnd => exact execPosSuspectEnd_canon hs
  | encoderStopTimeout => exact execEncoderStopTimeout_canon hs
  | odoCfgWrite => exact execOdoCfgWrite_canon hs
  | odoTgCfgWrite => exact execOdoTgCfgWrite_canon hs
  | triggerPlannedTime => exact execTriggerPlannedTime_canon hs
  | segmentHoldTimeout => exact execSegmentHoldTimeout_canon hs
  | odoSegCfgWrite => exact execOdoSegCfgWrite_canon hs
  | ingResCfgWrite => exact execIngResCfgWrite_canon hs
  | chainLineStart => exact execChainLineStart_canon hs
  | noiseFit => exact execNoiseFit_canon hs
  | refSlotWaitEnd => exact execRefSlotWaitEnd_canon hs
  | refStagingWrite => exact execRefStagingWrite_canon hs
  | refTabDataAccess => exact execRefTabDataAccess_canon hs
  | tapReturnRow => exact execTapReturnRow_canon hs
  | feederRow => exact execFeederRow_canon hs
  | rowBusRow => exact execRowBusRow_canon hs
  | meshPacketArrive => exact execMeshPacketArrive_canon hs
  | scoreboardRetire => exact execScoreboardRetire_canon hs
  | routeNop => exact execRouteNop_canon hs
  | halt => exact execHalt_canon hs
  | setg => exact execSetg_canon hs
  | alu => exact execAlu_canon hs
  | loop => exact execLoop_canon hs
  | br => exact execBr_canon hs
  | cfg => exact execCfg_canon hs
  | ring => exact execRing_canon hs
  | seed => exact execSeed_canon hs
  | conv => exact execConv_canon hs
  | mat => exact execMat_canon hs
  | slip => exact execSlip_canon hs
  | pool => exact execPool_canon hs
  | ew => exact execEw_canon hs
  | rq => exact execRq_canon hs
  | clracc => exact execClracc_canon hs
  | ldg => exact execLdg_canon hs
  | stg => exact execStg_canon hs
  | fill => exact execFill_canon hs
  | copy => exact execCopy_canon hs
  | tbl => exact execTbl_canon hs
  | send => exact execSend_canon hs
  | rbsend => exact execRbsend_canon hs
  | catreq => exact execCatreq_canon hs
  | sopen => exact execSopen_canon hs
  | sget => exact execSget_canon hs
  | srel => exact execSrel_canon hs
  | sput => exact execSput_canon hs
  | sclose => exact execSclose_canon hs
  | giveway => exact execGiveway_canon hs
  | convoy => exact execConvoy_canon hs
  | arrive => exact execArrive_canon hs
  | wait => exact execWait_canon hs
  | softReset => exact execSoftReset_canon hs
  | softResetComplete => exact execSoftResetComplete_canon hs
  | rngLoad => exact execRngLoad_canon hs
  | excClr => exact execExcClr_canon hs
  | haltReq => exact execHaltReq_canon hs
  | tileRateWindow => exact execTileRateWindow_canon hs
  | tileSenseConvert => exact execTileSenseConvert_canon hs
  | tileDbgDataAccess => exact execTileDbgDataAccess_canon hs
  | tileMapWrite => exact execTileMapWrite_canon hs
  | taskDispatch => exact execTaskDispatch_canon hs
  | runReset => exact execRunReset_canon hs
  | detourCopyComplete => exact execDetourCopyComplete_canon hs
  | seamSendWaitEnd => exact execSeamSendWaitEnd_canon hs
  | exportRowReceived => exact execExportRowReceived_canon hs
  | streamRequestIssue => exact execStreamRequestIssue_canon hs
  | streamReadComplete => exact execStreamReadComplete_canon hs
  | streamWritePulled => exact execStreamWritePulled_canon hs
  | deadlineMiss => exact execDeadlineMiss_canon hs
  | catRequestStart => exact execCatRequestStart_canon hs
  | catRequestComplete => exact execCatRequestComplete_canon hs
  | catVoidWrite => exact execCatVoidWrite_canon hs
  | msArrivalApply => exact execMsArrivalApply_canon hs
  | msRegisterSet => exact execMsRegisterSet_canon hs
  | msArriveWrite => exact execMsArriveWrite_canon hs
  | txPrepared => exact execTxPrepared_canon hs
  | commitSignalArrive => exact execCommitSignalArrive_canon hs
  | sysPrepareMsg => exact execSysPrepareMsg_canon hs
  | sysVoteReply => exact execSysVoteReply_canon hs
  | sysVoteClose => exact execSysVoteClose_canon hs
  | sysGoMsg => exact execSysGoMsg_canon hs
  | sysAbortMsg => exact execSysAbortMsg_canon hs
  | sysDoneMsg => exact execSysDoneMsg_canon hs
  | tallySnapshot => exact execTallySnapshot_canon hs
  | depBankOwnerWrite => exact execDepBankOwnerWrite_canon hs
  | dmaStart => exact execDmaStart_canon hs
  | dmaStop => exact execDmaStop_canon hs
  | dmaKill => exact execDmaKill_canon hs
  | dmaClrErr => exact execDmaClrErr_canon hs
  | dmaBeat => exact execDmaBeat_canon hs
  | dmaDescriptorComplete => exact execDmaDescriptorComplete_canon hs
  | dmaNextFetched => exact execDmaNextFetched_canon hs
  | eventPulseRoute => exact execEventPulseRoute_canon hs
  | dmaTimerPulse => exact execDmaTimerPulse_canon hs
  | sqTailDoorbell => exact execSqTailDoorbell_canon hs
  | cqHeadDoorbell => exact execCqHeadDoorbell_canon hs
  | qCfgWrite => exact execQCfgWrite_canon hs
  | sqFetchComplete => exact execSqFetchComplete_canon hs
  | commandDatagram => exact execCommandDatagram_canon hs
  | egressRecord => exact execEgressRecord_canon hs
  | egressTailReport => exact execEgressTailReport_canon hs
  | egrHeadWrite => exact execEgrHeadWrite_canon hs
  | nop => exact execNop_canon hs
  | devInfo => exact execDevInfo_canon hs
  | devTime => exact execDevTime_canon hs
  | modelLoad => exact execModelLoad_canon hs
  | modelInfo => exact execModelInfo_canon hs
  | modelUnload => exact execModelUnload_canon hs
  | connInfo => exact execConnInfo_canon hs
  | cxpCtrl => exact execCxpCtrl_canon hs
  | ringSetup => exact execRingSetup_canon hs
  | txOpen => exact execTxOpen_canon hs
  | txAdd => exact execTxAdd_canon hs
  | txPrepare => exact execTxPrepare_canon hs
  | txAbort => exact execTxAbort_canon hs
  | txStatus => exact execTxStatus_canon hs
  | txSysPrepare => exact execTxSysPrepare_canon hs
  | msArrive => exact execMsArrive_canon hs
  | msSet => exact execMsSet_canon hs
  | msAdvance => exact execMsAdvance_canon hs
  | msRead => exact execMsRead_canon hs
  | msWait => exact execMsWait_canon hs
  | msWaitTimeout => exact execMsWaitTimeout_canon hs
  | pwrDevice => exact execPwrDevice_canon hs
  | pwrPolicy => exact execPwrPolicy_canon hs
  | pwrRead => exact execPwrRead_canon hs
  | calRun => exact execCalRun_canon hs
  | calRead => exact execCalRead_canon hs
  | svcTestColumn => exact execSvcTestColumn_canon hs
  | svcMoveConn => exact execSvcMoveConn_canon hs
  | svcRetirePage => exact execSvcRetirePage_canon hs
  | svcShoulder => exact execSvcShoulder_canon hs
  | svcReport => exact execSvcReport_canon hs
  | logRead => exact execLogRead_canon hs
  | logMark => exact execLogMark_canon hs
  | updWrite => exact execUpdWrite_canon hs
  | updVerify => exact execUpdVerify_canon hs
  | updSwitch => exact execUpdSwitch_canon hs
  | catRequest => exact execCatRequest_canon hs
  | catVoid => exact execCatVoid_canon hs
  | netStatus => exact execNetStatus_canon hs
  | netConfig => exact execNetConfig_canon hs
  | plbCensus => exact execPlbCensus_canon hs
  | secKeySet => exact execSecKeySet_canon hs
  | secDbgChallenge => exact execSecDbgChallenge_canon hs
  | secDbgUnlock => exact execSecDbgUnlock_canon hs
  | perstAssert => exact execPerstAssert_canon hs
  | ethFrameReceived => exact execEthFrameReceived_canon hs
  | arpRetry => exact execArpRetry_canon hs
  | ptpMessage => exact execPtpMessage_canon hs
  | ptpAnnounceTimeout => exact execPtpAnnounceTimeout_canon hs
  | rsFlushTimeout => exact execRsFlushTimeout_canon hs
  | netRsCfgWrite => exact execNetRsCfgWrite_canon hs
  | netGvCfgWrite => exact execNetGvCfgWrite_canon hs
  | plantEventDatagram => exact execPlantEventDatagram_canon hs
  | speedHintCheck => exact execSpeedHintCheck_canon hs
  | speedHintExpire => exact execSpeedHintExpire_canon hs
  | plbFrameReceived => exact execPlbFrameReceived_canon hs
  | plbCollision => exact execPlbCollision_canon hs
  | plbBeaconTimeout => exact execPlbBeaconTimeout_canon hs
  | plbBeaconReceived => exact execPlbBeaconReceived_canon hs
  | quarantineExpire => exact execQuarantineExpire_canon hs
  | flitReceived => exact execFlitReceived_canon hs
  | flitReplayTimeout => exact execFlitReplayTimeout_canon hs
  | jctCfgWrite => exact execJctCfgWrite_canon hs
  | jctHello => exact execJctHello_canon hs
  | laneFailure => exact execLaneFailure_canon hs
  | laneDropReceived => exact execLaneDropReceived_canon hs
  | laneRetrainTimeout => exact execLaneRetrainTimeout_canon hs
  | jctControlMessage => exact execJctControlMessage_canon hs
  | jctTimeSend => exact execJctTimeSend_canon hs
  | positionSend => exact execPositionSend_canon hs
  | positionMessage => exact execPositionMessage_canon hs
  | jctAlignWrite => exact execJctAlignWrite_canon hs
  | alignTimeout => exact execAlignTimeout_canon hs
  | scrubRead => exact execScrubRead_canon hs
  | rasHoldWrite => exact execRasHoldWrite_canon hs
  | rasHoldTimeout => exact execRasHoldTimeout_canon hs
  | bistComplete => exact execBistComplete_canon hs
  | substSwitch => exact execSubstSwitch_canon hs
  | substCopyComplete => exact execSubstCopyComplete_canon hs
  | rasPmigWrite => exact execRasPmigWrite_canon hs
  | domainReady => exact execDomainReady_canon hs
  | tollRefill => exact execTollRefill_canon hs
  | pwrDstateWrite => exact execPwrDstateWrite_canon hs
  | trimComplete => exact execTrimComplete_canon hs
  | thermalStepDown => exact execThermalStepDown_canon hs
  | thermalStepUp => exact execThermalStepUp_canon hs
  | thermalTrip => exact execThermalTrip_canon hs
  | overcurrent => exact execOvercurrent_canon hs
  | halvingEnd => exact execHalvingEnd_canon hs
  | wakeNLow => exact execWakeNLow_canon hs
  | perstNRise => exact execPerstNRise_canon hs
  | i3cAddressMatch => exact execI3cAddressMatch_canon hs
  | aonTimerMatch => exact execAonTimerMatch_canon hs
  | railFailure => exact execRailFailure_canon hs
  | railGood => exact execRailGood_canon hs
  | wakeRailTimeout => exact execWakeRailTimeout_canon hs
  | aonPowerUp => exact execAonPowerUp_canon hs
  | sysReset => exact execSysReset_canon hs
  | refclkLoss => exact execRefclkLoss_canon hs
  | refclkGlitch => exact execRefclkGlitch_canon hs
  | refclkHoldoverTimeout => exact execRefclkHoldoverTimeout_canon hs
  | refclkRelock => exact execRefclkRelock_canon hs
  | refclkReturn => exact execRefclkReturn_canon hs
  | clkMcWrite => exact execClkMcWrite_canon hs
  | calDue => exact execCalDue_canon hs
  | calTrigWrite => exact execCalTrigWrite_canon hs
  | calMeasurement => exact execCalMeasurement_canon hs
  | calSwapComplete => exact execCalSwapComplete_canon hs
  | calHoldTimeout => exact execCalHoldTimeout_canon hs
  | pairFault => exact execPairFault_canon hs
  | pairRestore => exact execPairRestore_canon hs
  | standbyCheck => exact execStandbyCheck_canon hs
  | bsenseAverage => exact execBsenseAverage_canon hs
  | logMirror => exact execLogMirror_canon hs
  | fwFloorCommit => exact execFwFloorCommit_canon hs
  | debugScopeExpire => exact execDebugScopeExpire_canon hs
  | slewProbeEnd => exact execSlewProbeEnd_canon hs
  | regRead64High => exact execRegRead64High_canon hs
  | waymarkRecordRead => exact execWaymarkRecordRead_canon hs
  | ethLinkUp => exact execEthLinkUp_canon hs
  | ethLinkLoss => exact execEthLinkLoss_canon hs
  | laneTrainingComplete => exact execLaneTrainingComplete_canon hs
  | laneWidening => exact execLaneWidening_canon hs
  | pcieCompletionTimeout => exact execPcieCompletionTimeout_canon hs
  | pcieConfigRequest => exact execPcieConfigRequest_canon hs
  | mcWakeRequest => exact execMcWakeRequest_canon hs
  | railExcursion => exact execRailExcursion_canon hs
  | currentAboveCap => exact execCurrentAboveCap_canon hs
  | domainSwitchedOff => exact execDomainSwitchedOff_canon hs
  | hbmTrainingComplete => exact execHbmTrainingComplete_canon hs
  | bootRomVerifyComplete => exact execBootRomVerifyComplete_canon hs
  | testRotationDue => exact execTestRotationDue_canon hs
  | hbmPseudoChannelFault => exact execHbmPseudoChannelFault_canon hs
  | aonSelfCheckMismatch => exact execAonSelfCheckMismatch_canon hs

theorem step_canon (hs : s.Canon) : Answer.Canon (step s) := by
  unfold step
  split
  · exact .next hs
  · apply exec_canon
    exact ⟨.same hs⟩

/-- Settles O3: the lemma on the stores of every operation composes to one on every instruction, and a step executes one instruction or none. -/
theorem stepKeepsStoresCanonical : Obligations.StepKeepsStoresCanonical := by
  unfold Obligations.StepKeepsStoresCanonical
  intro s t hs hstep
  have h : Answer.Canon (.next t) := hstep ▸ step_canon (canonical_iff.1 hs)
  exact canonical_iff.2 h

end Sys2Proof.Machine
end
